-- ==== Sys2Proof/Word.lean ====
section
/-! DEFINITION. The word types of the model: what the manual treats as bits. -/

namespace Sys2Proof

/-- One byte of a memory, a frame or a mailbox area. -/
abbrev Byte := BitVec 8

/-- One register word (R8: registers are 32 bits wide). -/
abbrev Word := BitVec 32

end Sys2Proof
end

