-- ==== Sys2Proof/Machine/Bits.lean ====
section
/-! DEFINITION. Bits, bytes and numbers: bit order, byte order, the checks of R73, rounding and clipping of R15. -/

namespace Sys2Proof.Machine

/-- clip(x, lo, hi) of R15. -/
def clip (x lo hi : Int) : Int := if x < lo then lo else if hi < x then hi else x

/-- The quotient rounded up. -/
def ceilDiv (a b : Nat) : Nat := (a + b - 1) / b

/-- The `n` low bits of `v`, most significant first (R13). -/
def bitsOfNat (n v : Nat) : List Bool :=
  match n with
  | 0 => []
  | k + 1 => v.testBit k :: bitsOfNat k v

/-- The number whose bits are listed, most significant first. -/
def natOfBits (bs : List Bool) : Nat := bs.foldl (fun a b => 2 * a + b.toNat) 0

def bitsOfByte (b : Byte) : List Bool := bitsOfNat 8 b.toNat

/-- Bytes as bits, most significant bit first. -/
def bitsOfBytes (bs : List Byte) : List Bool := bs.flatMap bitsOfByte

/-- Bits as bytes; the last byte is padded with zeros (R70). `n` bounds the number of bytes. -/
def bytesOfBitsN (n : Nat) (bs : List Bool) : List Byte :=
  match n with
  | 0 => []
  | k + 1 =>
    match bs with
    | [] => []
    | b :: r =>
      let h := (b :: r).take 8
      BitVec.ofNat 8 (natOfBits (h ++ List.replicate (8 - h.length) false)) :: bytesOfBitsN k ((b :: r).drop 8)

def bytesOfBits (bs : List Bool) : List Byte := bytesOfBitsN (bs.length / 8 + 1) bs

/-- `n` bytes of `v`, the least significant first. -/
def leBytes (n v : Nat) : List Byte :=
  match n with
  | 0 => []
  | k + 1 => BitVec.ofNat 8 v :: leBytes k (v / 256)

/-- `n` bytes of `v`, the most significant first. -/
def beBytes (n v : Nat) : List Byte := (leBytes n v).reverse

def natOfLe (bs : List Byte) : Nat := bs.foldr (fun b a => b.toNat + 256 * a) 0

def natOfBe (bs : List Byte) : Nat := bs.foldl (fun a b => 256 * a + b.toNat) 0

/-- `n` bytes of `bs` from byte `o` on. -/
def sliceOf (bs : List Byte) (o n : Nat) : List Byte := (bs.drop o).take n

/-- Little-endian field of `n` bytes at byte `o`. -/
def leAt (bs : List Byte) (o n : Nat) : Nat := natOfLe (sliceOf bs o n)

/-- Big-endian field of `n` bytes at byte `o`. -/
def beAt (bs : List Byte) (o n : Nat) : Nat := natOfBe (sliceOf bs o n)

/-- Byte `o`, zero past the end. -/
def byteAt (bs : List Byte) (o : Nat) : Nat := (bs.getD o 0).toNat

/-- Bits `hi` down to `lo` of `v`. -/
def field (v hi lo : Nat) : Nat := (v >>> lo) % 2 ^ (hi - lo + 1)

/-- Bit `k` of `v`. -/
def bit (v k : Nat) : Bool := v.testBit k

/-- `v` read as two's complement of `w` bits. -/
def signed (w v : Nat) : Int := if v % 2 ^ w < 2 ^ (w - 1) then (v % 2 ^ w : Nat) else (v % 2 ^ w : Nat) - (2 ^ w : Nat)

/-- The `w` bits of two's complement of `x`. -/
def unsigned (w : Nat) (x : Int) : Nat := (x % (2 ^ w : Nat)).toNat

/-- Wrapping comparison of R30: `a` is later than `b` in `w` bits. -/
def later (w a b : Nat) : Bool :=
  let d := (a + 2 ^ w - b % 2 ^ w) % 2 ^ w
  decide (1 ≤ d) && decide (d < 2 ^ (w - 1))

/-- `a` is earlier than `b` (R30). -/
def earlier (w a b : Nat) : Bool :=
  let d := (a + 2 ^ w - b % 2 ^ w) % 2 ^ w
  decide (2 ^ (w - 1) ≤ d)

/-- x >> n of R15. -/
def asr (x : Int) (n : Nat) : Int := x / (2 ^ n : Nat)

/-- x / y of R15: truncates towards zero. -/
def tdiv (x y : Int) : Int := Int.tdiv x y

def median3 (a b c : Int) : Int := max (min a b) (min (max a b) c)

/-- One bit of a reflected CRC-32. -/
def crc32Bit (c : BitVec 32) : BitVec 32 := if c.getLsbD 0 then (c >>> 1) ^^^ 0xEDB88320#32 else c >>> 1

def crc32Byte (c : BitVec 32) (b : Byte) : BitVec 32 :=
  let x := c ^^^ b.setWidth 32
  crc32Bit (crc32Bit (crc32Bit (crc32Bit (crc32Bit (crc32Bit (crc32Bit (crc32Bit x)))))))

/-- CRC-32 of R73: the IEEE 802.3 frame check sequence. -/
def crc32 (bs : List Byte) : Nat := ((bs.foldl crc32Byte 0xFFFFFFFF#32) ^^^ 0xFFFFFFFF#32).toNat

def crc64Bit (c : BitVec 64) : BitVec 64 := if c.getMsbD 0 then (c <<< 1) ^^^ 0x42F0E1EBA9EA3693#64 else c <<< 1

def crc64Byte (c : BitVec 64) (b : Byte) : BitVec 64 :=
  let x := c ^^^ (b.setWidth 64 <<< 56)
  crc64Bit (crc64Bit (crc64Bit (crc64Bit (crc64Bit (crc64Bit (crc64Bit (crc64Bit x)))))))

/-- CRC-64 of R73, run on from `c` (zero at the start). -/
def crc64From (c : BitVec 64) (bs : List Byte) : BitVec 64 := bs.foldl crc64Byte c

end Sys2Proof.Machine
end

