-- ==== Sys2Proof/Config.lean ====
section
/-! DEFINITION. The free values: what the manual leaves open, as constants without a body, so that no proof can know them. Where a constant takes a number, it is the counter `State.free` or an operand named here. -/

namespace Sys2Proof.Config
open Sys2Proof

/-- Bytes from the TRNG (R59, R411): `n` bytes of the draw with number `k`. -/
opaque trng (k n : Nat) : List Byte

/-- SHAKE256 of FIPS 202 with 64 bytes of output (R415). -/
opaque shake256 (bs : List Byte) : List Byte

/-- Ed448 verification with an empty context (R415): key, message, signature. -/
opaque ed448Verify (key msg sig : List Byte) : Bool

/-- Ed448 signing by the key pair of a 57-byte seed (R411, R417). -/
opaque ed448Sign (seed msg : List Byte) : List Byte

/-- The public key of a 57-byte seed (R411). -/
opaque ed448Public (seed : List Byte) : List Byte

/-- Byte `n` of the key stream of AES-256-GCM for a key and an IV (R418, R420, R423): plaintext and ciphertext differ by it. -/
opaque gcmStream (key iv : List Byte) (n : Nat) : Byte

/-- The tag that AES-256-GCM gives (R418, R423): key, IV, additional data, ciphertext. -/
opaque gcmTag (key iv aad ct : List Byte) : List Byte

/-- Whether the TRNG passes its start-up health tests (R411), at draw `k`. -/
opaque trngHealthy (k : Nat) : Bool

/-- ROM version that ROM_INFO returns (R49). -/
opaque romVersion : Nat

/-- The 144-bit word at a ROM address of the control store (R186), below 2^144. -/
opaque romWord (a : Nat) : Nat

/-- Flash size in bytes that ROM_INFO returns (R49). -/
opaque flashSize : Nat

/-- The event code of a KIND 8 entry (R372), by the event: 0 shedding change, 1 PMBus error, 2 confirm window ended, 3 other. -/
opaque fwEventCode (k : Nat) : Nat

/-- Whether work of a mailbox command outlasts 2 ms, so that it runs as a job (R55), at draw `k`. -/
opaque outlasts (k : Nat) : Bool

/-- Which two neighbouring angular modes lie nearest the gradient of a block with these source samples (R132): the place of the first in the order of their angles, modulo 8. -/
opaque gradientPair (src : List (List Int)) : Nat

/-- The configuration area as it is measured (R417), whose layout is not given: from its flash bytes, the calibration record and the lane entries that firmware had saved in it. -/
opaque areaBytes (flash cal lanes : List Byte) : List Byte

/-- A free number at draw `k`, for the point named by `p`. -/
opaque freeNat (p k : Nat) : Nat

/-- A free integer at draw `k`, for the point named by `p`. -/
opaque freeInt (p k : Nat) : Int

/-- A free choice at draw `k`, for the point named by `p`. -/
opaque freeBool (p k : Nat) : Bool

/-- Free bytes at draw `k`, for the point named by `p`: `n` of them. -/
opaque freeBytes (p k n : Nat) : List Byte

/-- What the parameters of an ST 2110-20 flow say (R259). `sampling`: 0 RGB, 1 YCbCr-4:2:2, others unsupported; `depth`: 8, 10, 12 or 16, others unsupported; `range`: 0 NARROW, 1 FULL, 2 FULLPROTECT; `colorimetry`: 0 BT709, 1 BT2020, others. -/
structure Sdp where
  sampling : Nat := 0
  depth : Nat := 8
  progressive : Bool := true
  range : Nat := 0
  colorimetry : Nat := 0
deriving DecidableEq, Repr, Inhabited

/-- The layout in which INGRESS_SET carries the parameters of R259 is not given: what the argument bytes after FLAGS say. -/
opaque sdp (args : List Byte) : Sdp

end Sys2Proof.Config
end

