-- ==== Sys2Proof/Machine/RegId.lean ====
section
/-! DEFINITION. The registers of the part by the names of the manual, in the order of its chapters. -/

namespace Sys2Proof.Machine

/-- A register of the register space. -/
inductive RegId where
  | PCIE_BAR2_BASE_F0 | PCIE_BAR2_BASE_F1 | PCIE_LINK_STATUS | PCIE_WIN_OOR | PCIE_ERR_STATUS | PCIE_F1_CTRL
  | GLB_CHIP_ID | GLB_REVISION | GLB_FW_VERSION | GLB_BOOT_STATUS | GLB_HEARTBEAT | GLB_EXPERT
  | GLB_EXPERT_DENIED | GLB_CNT_SAT | GLB_SCRATCH | GLB_RESET | GLB_UID_LO | GLB_UID_HI
  | MBX_COMMAND | MBX_RESULT | MBX_DOORBELL | MBX_RESULT_ACK | MBX_STATUS | SEM_LOCK
  | SEM_RELEASE | SEM_LEASE | SEM_BROKEN_LO | SEM_BROKEN_HI | SEM_BAD_RELEASE | SEM_CNT_SAT
  | SEM_FREED_LO | SEM_FREED_HI | SCH_CTRL | SCH_CAPACITY | SCH_LIMIT | SCH_LATE_TOTAL
  | SCH_CTX_SEL | SCH_CTX_EFFORT | SCH_CTX_RATE | SCH_CTX_BUCKET | SCH_CTX_QP | SCH_CTX_PI
  | SCH_CTX_ARM | SCH_CTX_LATE | SCH_CTX_ALLOT | SCH_CNT_SAT | STK_CTRL | STK_DESC_COUNT
  | STK_DESC_SEL | STK_DESC_INFO | STK_DESC_PICTURE | STK_DESC_BASE_LO | STK_DESC_BASE_HI | STK_PIN
  | STK_CTX_SEL | STK_CTX_STATUS | STK_BEDROCK_GEN | STK_BEDROCK_STATE | STK_CRC_FAIL | STK_STALL_LIMIT
  | STK_PACK_RATIO | STK_CNT_SAT | HWR_STATUS | HWR_CTRL | HWR_WAIT_LIMIT | HWR_FAULT
  | HWR_FAULT_ADDR | HWR_PATCH_STATUS | HWR_ROM_VERSION | HWR_LM_CORR | HWR_SLICES | HWR_CNT_SAT
  | HWR_MATCH | HWR_PATCH_RAM | DRS_CTRL | DRS_LUT_ADDR | DRS_LUT_DATA | DRS_BRIGHT
  | DRS_SAT | RIV_HALTED_LO | RIV_HALTED_HI | RIV_CH_CTRL | RIV_CH_TABLE_LO | RIV_CH_TABLE_HI
  | RIV_CH_SPLIT | RIV_CH_STATUS | RIV_CH_ERR_ADDR_LO | RIV_CH_ERR_ADDR_HI | RIV_CH_STRIPS | LMP_SYNC_GAP
  | LMP_GRID_STATUS | LMP_PORT_CTRL | LMP_PORT_SYNC_ADV | LMP_PORT_PANIC | LMP_PORT_STATUS | LMP_PORT_EVENT
  | LMP_PORT_LEAD | LMP_PORT_COUNTS | HAUL_CTRL | HAUL_STATUS | HAUL_EVENT | HAUL_MAC_LO
  | HAUL_MAC_HI | HAUL_UDP | HAUL_MTU | HAUL_LOS | HAUL_DEFAULT_LO | HAUL_DEFAULT_HI
  | HAUL_PTP_LAT | HAUL_TS_INFO | HAUL_TS_TIME_LO | HAUL_TS_TIME_HI | HAUL_CNT | HAUL_CNT_SAT
  | CLS_CTRL | CLS_DEVICE | CLS_VERSION | CLS_COMMIT | CLS_STAGE_COUNT | CLS_EXACT_INDEX
  | CLS_EXACT_DATA | CLS_TERN_INDEX | CLS_TERN_DATA | CLS_RING | CLS_RING_CUT | CLS_RING_CMD
  | CLS_FRAG | CLS_CAPTURE_LO | CLS_CAPTURE_HI | CLS_CNT | CLS_CNT_SAT | CLS_EVENT
  | CLS_MAC_LO | CLS_MAC_HI | BPM_CTRL | BPM_SRAM_RESERVE | BPM_DRAM_BASE_LO | BPM_DRAM_BASE_HI
  | BPM_FREE_SRAM | BPM_FREE_DRAM | BPM_MIN_FREE | BPM_NO_BUFFER | BPM_STALLS | BPM_LIST_HEAD
  | BPM_EVENT | BPM_CNT_SAT | SPQ_Q_SEL | SPQ_Q_CFG | SPQ_Q_BASE_LO | SPQ_Q_BASE_HI
  | SPQ_Q_STATUS | SPQ_Q_DROPPED | SPQ_Q_CLEFTS | SPQ_POISON | SPQ_EVENT | SPQ_CNT_SAT
  | TMG_Q_CFG | TMG_Q_DEPTH_MAX | TMG_Q_YELLOW_MAX | TMG_Q_SHAPE_RATE | TMG_Q_SHAPE_BURST | TMG_Q_DEPTH
  | TMG_Q_DROPS | TMG_Q_DMIN | TMG_Q_DMAX | TMG_Q_HMIN | TMG_Q_HMAX | TMG_Q_DMEAN
  | TMG_Q_HMEAN | TMG_PORT_CTRL | TMG_PORT_SHAPE_RATE | TMG_PORT_SHAPE_BURST | TMG_PORT_VTIME_LO | TMG_PORT_VTIME_HI
  | TMG_PORT_EVENT | TMG_METER_SEL | TMG_METER_CTRL | TMG_METER_CIR | TMG_METER_PIR | TMG_METER_CBS
  | TMG_METER_PBS | TMG_METER_COUNT | TMG_METER_CNT_SAT | DDR_CTRL | DDR_CONFIG | DDR_STATUS
  | DDR_PAGE | DDR_REFRESH | DDR_TIMING_SEL | DDR_TIMING_VAL | DDR_TIMING_ARM | DDR_TRAIN
  | DDR_LANE_SEL | DDR_LANE_DELAY | DDR_LANE_EYE | DDR_DRIFT | DDR_SCRUB | DDR_FILL
  | DDR_CE | DDR_UE | DDR_WCRC_RETRY | DDR_WCRC_FAIL | DDR_CNT_SAT | DDR_EVENT
  | DDR_LOG_STATUS | DDR_LOG_LOST | DDR_LOG_SEL | DDR_LOG_DATA | ARB_CTRL | ARB_EVENT
  | ARB_REQ_CFG | ARB_GRANTS_LO | ARB_GRANTS_HI | ARB_WAITS_LO | ARB_WAITS_HI | ARB_MAXWAIT
  | LANE_CFG | LANE_TX | LANE_RX | LANE_STATUS | LANE_EVENT | LANE_CNT
  | LANE_CNT_SAT | LANE_PRBS | ING_CTRL | ING_REGION_POS | ING_REGION_SIZE | ING_STATUS
  | ING_PICTURE | ING_CLOSE | ING_CNT | ING_CNT_SAT | ING_EVENT | INTC_GLOBAL
  | INTC_SPURIOUS_WAKE | INTC_WAKE_CAUSE | INTC_CNT_SAT | INTC_ROUTE | INTC_LEVEL | INTC_PENDING
  | INTC_SW_SET_LO | INTC_SW_SET_HI | INTC_SW_CLR_LO | INTC_SW_CLR_HI | INTC_TGT_CTRL | INTC_CLAIM
  | INTC_COMPLETE | INTC_TGT_STATUS | INTC_STACK | INTC_TGT_CNT | INTC_TGT_CNT_SAT | INTC_CLAIM_S
  | INTC_COMPLETE_S | FLT_STATUS | FLT_SAFE_LO | FLT_SAFE_HI | FLT_SAFE_KIND_LO | FLT_SAFE_KIND_HI
  | FLT_WDOG | FLT_CP_RESTARTS | FLT_CNT_SAT_LO | FLT_CNT_SAT_HI | FLT_SRC_CFG | FLT_SRC_STATUS
  | FLT_SRC_COUNT | FLT_SRC_ACK | EVT_HEAD | EVT_TAIL | EVT_LOST | EVT_STATUS
  | EVT_SEL | EVT_DATA | CLK_STATUS | CLK_TB_LO | CLK_TB_HI | CLK_TB_TRIM
  | CLK_TB_STEP_LO | CLK_TB_STEP_HI | CLK_STEP_REFUSED | CLK_EVENT | PWR_STATUS | PWR_SETPOINT
  | PWR_SHED_THR | PWR_VMIN | PWR_TEMP | PWR_THERM | PWR_PMBUS | PWR_WAKE
  | PWR_EVENT | CAL_STATUS | CAL_SCHED | TMR_CTRL | TMR_CMP_LO | TMR_CMP_HI
  | TMR_PERIOD | TMR_STATUS | SEC_STATUS | SEC_BLOCK_WORLD | SEC_WORLD_DENIED | SEC_REGION_DENIED
  | SEC_DENY_ADDR_LO | SEC_DENY_ADDR_HI | SEC_GCM_FAIL | SEC_EVENT | SEC_TAMPER_CFG | SEC_TAMPER_STATUS
  | SEC_REGION_BASE | SEC_REGION_LIMIT | SEC_REGION_ATTR | SPD_CTRL | SPD_CE | DRS_CNT_SAT
deriving DecidableEq, Repr

end Sys2Proof.Machine
end

