-- ==== Sys2Proof/Machine/Fields.lean ====
section
/-! DEFINITION. The fields of the registers, from the field tables of the manual: place, width, access code and reset value. -/

namespace Sys2Proof.Machine

/-- The access codes of R12. -/
inductive Acc where
  | ro | rw | wo | w1c | w1s | rc | rwl
deriving DecidableEq, Repr

/-- A field of a register. `code` names it in the register file; `byInst`: its reset value depends on the instance. -/
structure Fld where
  code : Nat
  lo : Nat
  len : Nat
  acc : Acc
  rst : Nat
  byInst : Bool := false
deriving DecidableEq, Repr

namespace F
-- PCIE_BAR2_BASE_F0
def PCIE_BAR2_BASE_F0_BASE : Fld := { code := 0, lo := 0, len := 7, acc := .rw, rst := 0 }
-- PCIE_BAR2_BASE_F1
def PCIE_BAR2_BASE_F1_BASE : Fld := { code := 1, lo := 0, len := 7, acc := .rw, rst := 0 }
-- PCIE_LINK_STATUS
def PCIE_LINK_STATUS_PM_STATE : Fld := { code := 2, lo := 16, len := 2, acc := .ro, rst := 0 }
def PCIE_LINK_STATUS_LTSSM : Fld := { code := 3, lo := 8, len := 6, acc := .ro, rst := 0 }
def PCIE_LINK_STATUS_SPEED : Fld := { code := 4, lo := 4, len := 4, acc := .ro, rst := 0 }
def PCIE_LINK_STATUS_WIDTH : Fld := { code := 5, lo := 0, len := 4, acc := .ro, rst := 0 }
-- PCIE_WIN_OOR
def PCIE_WIN_OOR_COUNT : Fld := { code := 6, lo := 0, len := 32, acc := .ro, rst := 0 }
-- PCIE_ERR_STATUS
def PCIE_ERR_STATUS_POISONED_RX : Fld := { code := 7, lo := 3, len := 1, acc := .w1c, rst := 0 }
def PCIE_ERR_STATUS_UR_SENT : Fld := { code := 8, lo := 2, len := 1, acc := .w1c, rst := 0 }
def PCIE_ERR_STATUS_DRAM_POISON : Fld := { code := 9, lo := 1, len := 1, acc := .w1c, rst := 0 }
def PCIE_ERR_STATUS_WIN_OOR_SAT : Fld := { code := 10, lo := 0, len := 1, acc := .w1c, rst := 0 }
-- PCIE_F1_CTRL
def PCIE_F1_CTRL_F1_PRESENT : Fld := { code := 11, lo := 0, len := 1, acc := .ro, rst := 0, byInst := true }
-- GLB_CHIP_ID
def GLB_CHIP_ID_PART : Fld := { code := 12, lo := 16, len := 16, acc := .ro, rst := 37440 }
def GLB_CHIP_ID_VENDOR : Fld := { code := 13, lo := 0, len := 16, acc := .ro, rst := 8091 }
-- GLB_REVISION
def GLB_REVISION_GRADE : Fld := { code := 14, lo := 16, len := 4, acc := .ro, rst := 14 }
def GLB_REVISION_STEP_LETTER : Fld := { code := 15, lo := 8, len := 8, acc := .ro, rst := 66 }
def GLB_REVISION_STEP_NUM : Fld := { code := 16, lo := 0, len := 8, acc := .ro, rst := 0 }
-- GLB_FW_VERSION
def GLB_FW_VERSION_MAJOR : Fld := { code := 17, lo := 24, len := 8, acc := .ro, rst := 0 }
def GLB_FW_VERSION_MINOR : Fld := { code := 18, lo := 16, len := 8, acc := .ro, rst := 0 }
def GLB_FW_VERSION_BUILD : Fld := { code := 19, lo := 0, len := 16, acc := .ro, rst := 0 }
-- GLB_BOOT_STATUS
def GLB_BOOT_STATUS_ROM_ERROR : Fld := { code := 20, lo := 16, len := 8, acc := .ro, rst := 0 }
def GLB_BOOT_STATUS_LC_STATE : Fld := { code := 21, lo := 8, len := 3, acc := .ro, rst := 0, byInst := true }
def GLB_BOOT_STATUS_TRIAL : Fld := { code := 22, lo := 6, len := 1, acc := .ro, rst := 0 }
def GLB_BOOT_STATUS_FALLBACK : Fld := { code := 23, lo := 5, len := 1, acc := .ro, rst := 0 }
def GLB_BOOT_STATUS_IMAGE : Fld := { code := 24, lo := 4, len := 1, acc := .ro, rst := 0 }
def GLB_BOOT_STATUS_STAGE : Fld := { code := 25, lo := 0, len := 4, acc := .ro, rst := 0 }
-- GLB_HEARTBEAT
def GLB_HEARTBEAT_COUNT : Fld := { code := 26, lo := 0, len := 32, acc := .ro, rst := 0 }
-- GLB_EXPERT
def GLB_EXPERT_HOLDER_R : Fld := { code := 27, lo := 12, len := 4, acc := .ro, rst := 0 }
def GLB_EXPERT_HOLDER_F1 : Fld := { code := 28, lo := 8, len := 4, acc := .ro, rst := 0 }
def GLB_EXPERT_HOLDER_F0 : Fld := { code := 29, lo := 4, len := 4, acc := .ro, rst := 0 }
def GLB_EXPERT_UNLOCKED_R : Fld := { code := 30, lo := 2, len := 1, acc := .ro, rst := 0 }
def GLB_EXPERT_UNLOCKED_F1 : Fld := { code := 31, lo := 1, len := 1, acc := .ro, rst := 0 }
def GLB_EXPERT_UNLOCKED_F0 : Fld := { code := 32, lo := 0, len := 1, acc := .ro, rst := 0 }
-- GLB_EXPERT_DENIED
def GLB_EXPERT_DENIED_COUNT : Fld := { code := 33, lo := 0, len := 32, acc := .ro, rst := 0 }
-- GLB_CNT_SAT
def GLB_CNT_SAT_EXPERT_DENIED_SAT : Fld := { code := 34, lo := 0, len := 1, acc := .w1c, rst := 0 }
-- GLB_SCRATCH
def GLB_SCRATCH_VALUE : Fld := { code := 35, lo := 0, len := 32, acc := .rw, rst := 0 }
-- GLB_RESET
def GLB_RESET_KEY : Fld := { code := 36, lo := 16, len := 16, acc := .wo, rst := 0 }
def GLB_RESET_REQ : Fld := { code := 37, lo := 0, len := 1, acc := .wo, rst := 0 }
-- GLB_UID_LO
def GLB_UID_LO_UID : Fld := { code := 38, lo := 0, len := 32, acc := .ro, rst := 0, byInst := true }
-- GLB_UID_HI
def GLB_UID_HI_UID : Fld := { code := 39, lo := 0, len := 32, acc := .ro, rst := 0, byInst := true }
-- MBX_COMMAND
def MBX_COMMAND_DATA : Fld := { code := 40, lo := 0, len := 32, acc := .rw, rst := 0 }
-- MBX_RESULT
def MBX_RESULT_DATA : Fld := { code := 41, lo := 0, len := 32, acc := .ro, rst := 0 }
-- MBX_DOORBELL
def MBX_DOORBELL_GO : Fld := { code := 42, lo := 0, len := 1, acc := .wo, rst := 0 }
-- MBX_RESULT_ACK
def MBX_RESULT_ACK_ACK : Fld := { code := 43, lo := 0, len := 1, acc := .wo, rst := 0 }
-- MBX_STATUS
def MBX_STATUS_JOB_DONE : Fld := { code := 44, lo := 5, len := 1, acc := .w1c, rst := 0 }
def MBX_STATUS_EXPERT : Fld := { code := 45, lo := 4, len := 1, acc := .ro, rst := 0 }
def MBX_STATUS_HELD : Fld := { code := 46, lo := 3, len := 1, acc := .ro, rst := 0 }
def MBX_STATUS_OVERRUN : Fld := { code := 47, lo := 2, len := 1, acc := .w1c, rst := 0 }
def MBX_STATUS_RESULT_PENDING : Fld := { code := 48, lo := 1, len := 1, acc := .ro, rst := 0 }
def MBX_STATUS_BUSY : Fld := { code := 49, lo := 0, len := 1, acc := .ro, rst := 0 }
-- SEM_LOCK
def SEM_LOCK_GRANTED : Fld := { code := 50, lo := 31, len := 1, acc := .ro, rst := 0 }
def SEM_LOCK_BROKEN : Fld := { code := 51, lo := 30, len := 1, acc := .ro, rst := 0 }
def SEM_LOCK_OWNER : Fld := { code := 52, lo := 24, len := 4, acc := .ro, rst := 0 }
-- SEM_RELEASE
def SEM_RELEASE_CLEAR_BROKEN : Fld := { code := 53, lo := 1, len := 1, acc := .wo, rst := 0 }
def SEM_RELEASE_RELEASE : Fld := { code := 54, lo := 0, len := 1, acc := .wo, rst := 0 }
-- SEM_LEASE
def SEM_LEASE_UNIT : Fld := { code := 55, lo := 12, len := 1, acc := .rw, rst := 0 }
def SEM_LEASE_VAL : Fld := { code := 56, lo := 0, len := 10, acc := .rw, rst := 0 }
-- SEM_BROKEN_LO
def SEM_BROKEN_LO_BROKEN : Fld := { code := 57, lo := 0, len := 32, acc := .ro, rst := 0 }
-- SEM_BROKEN_HI
def SEM_BROKEN_HI_BROKEN : Fld := { code := 58, lo := 0, len := 32, acc := .ro, rst := 0 }
-- SEM_BAD_RELEASE
def SEM_BAD_RELEASE_COUNT : Fld := { code := 59, lo := 0, len := 32, acc := .ro, rst := 0 }
-- SEM_CNT_SAT
def SEM_CNT_SAT_BAD_RELEASE_SAT : Fld := { code := 60, lo := 0, len := 1, acc := .w1c, rst := 0 }
-- SEM_FREED_LO
def SEM_FREED_LO_FREED : Fld := { code := 61, lo := 0, len := 32, acc := .w1c, rst := 0 }
-- SEM_FREED_HI
def SEM_FREED_HI_FREED : Fld := { code := 62, lo := 0, len := 32, acc := .w1c, rst := 0 }
-- SCH_CTRL
def SCH_CTRL_ADMIT_PCT : Fld := { code := 63, lo := 8, len := 8, acc := .rw, rst := 95 }
def SCH_CTRL_DISPATCH_EN : Fld := { code := 64, lo := 0, len := 1, acc := .rw, rst := 0 }
-- SCH_CAPACITY
def SCH_CAPACITY_IN_SERVICE : Fld := { code := 65, lo := 24, len := 5, acc := .ro, rst := 0 }
def SCH_CAPACITY_CHARGE : Fld := { code := 66, lo := 0, len := 21, acc := .ro, rst := 0 }
-- SCH_LIMIT
def SCH_LIMIT_LIMIT : Fld := { code := 67, lo := 0, len := 21, acc := .ro, rst := 0 }
-- SCH_LATE_TOTAL
def SCH_LATE_TOTAL_COUNT : Fld := { code := 68, lo := 0, len := 32, acc := .ro, rst := 0 }
-- SCH_CTX_SEL
def SCH_CTX_SEL_CTX : Fld := { code := 69, lo := 0, len := 12, acc := .rw, rst := 0 }
-- SCH_CTX_EFFORT
def SCH_CTX_EFFORT_CATCHUP : Fld := { code := 70, lo := 8, len := 2, acc := .ro, rst := 0 }
def SCH_CTX_EFFORT_EFFECTIVE : Fld := { code := 71, lo := 4, len := 2, acc := .ro, rst := 0 }
def SCH_CTX_EFFORT_CONFIGURED : Fld := { code := 72, lo := 0, len := 2, acc := .rw, rst := 0 }
-- SCH_CTX_RATE
def SCH_CTX_RATE_LINK_RATE : Fld := { code := 73, lo := 0, len := 32, acc := .rw, rst := 0 }
-- SCH_CTX_BUCKET
def SCH_CTX_BUCKET_BUCKET : Fld := { code := 74, lo := 0, len := 24, acc := .rw, rst := 0 }
-- SCH_CTX_QP
def SCH_CTX_QP_QP_NOW : Fld := { code := 75, lo := 24, len := 7, acc := .ro, rst := 0 }
def SCH_CTX_QP_QP_STEP_MAX : Fld := { code := 76, lo := 16, len := 4, acc := .rw, rst := 4 }
def SCH_CTX_QP_QP_MAX : Fld := { code := 77, lo := 8, len := 7, acc := .rw, rst := 127 }
def SCH_CTX_QP_QP_MIN : Fld := { code := 78, lo := 0, len := 7, acc := .rw, rst := 0 }
-- SCH_CTX_PI
def SCH_CTX_PI_KI : Fld := { code := 79, lo := 16, len := 16, acc := .rw, rst := 2048 }
def SCH_CTX_PI_KP : Fld := { code := 80, lo := 0, len := 16, acc := .rw, rst := 24576 }
-- SCH_CTX_ARM
def SCH_CTX_ARM_SHADOW_ARMED : Fld := { code := 81, lo := 1, len := 1, acc := .ro, rst := 0 }
def SCH_CTX_ARM_ARM : Fld := { code := 82, lo := 0, len := 1, acc := .wo, rst := 0 }
-- SCH_CTX_LATE
def SCH_CTX_LATE_LATE_STREAK : Fld := { code := 83, lo := 31, len := 1, acc := .w1c, rst := 0 }
def SCH_CTX_LATE_LREM : Fld := { code := 84, lo := 0, len := 24, acc := .ro, rst := 0 }
-- SCH_CTX_ALLOT
def SCH_CTX_ALLOT_ALLOT : Fld := { code := 85, lo := 0, len := 24, acc := .rw, rst := 0 }
-- SCH_CNT_SAT
def SCH_CNT_SAT_LATE_TOTAL_SAT : Fld := { code := 86, lo := 0, len := 1, acc := .w1c, rst := 0 }
-- STK_CTRL
def STK_CTRL_PACK_EN : Fld := { code := 87, lo := 1, len := 1, acc := .rw, rst := 1 }
def STK_CTRL_EN : Fld := { code := 88, lo := 0, len := 1, acc := .rw, rst := 0 }
-- STK_DESC_COUNT
def STK_DESC_COUNT_RESERVED : Fld := { code := 89, lo := 16, len := 10, acc := .ro, rst := 0 }
def STK_DESC_COUNT_FREE : Fld := { code := 90, lo := 0, len := 10, acc := .ro, rst := 512 }
-- STK_DESC_SEL
def STK_DESC_SEL_DESC : Fld := { code := 91, lo := 0, len := 9, acc := .rw, rst := 0 }
-- STK_DESC_INFO
def STK_DESC_INFO_PINNED : Fld := { code := 92, lo := 31, len := 1, acc := .ro, rst := 0 }
def STK_DESC_INFO_DISPLAY : Fld := { code := 93, lo := 30, len := 1, acc := .ro, rst := 0 }
def STK_DESC_INFO_BEDROCK : Fld := { code := 94, lo := 29, len := 1, acc := .ro, rst := 0 }
def STK_DESC_INFO_SHORT_TERM : Fld := { code := 95, lo := 28, len := 1, acc := .ro, rst := 0 }
def STK_DESC_INFO_HOST_PIN : Fld := { code := 96, lo := 27, len := 1, acc := .ro, rst := 0 }
def STK_DESC_INFO_SLOT : Fld := { code := 97, lo := 24, len := 3, acc := .ro, rst := 7 }
def STK_DESC_INFO_GROUP : Fld := { code := 98, lo := 14, len := 9, acc := .ro, rst := 0 }
-- STK_DESC_PICTURE
def STK_DESC_PICTURE_PICTURE : Fld := { code := 99, lo := 0, len := 16, acc := .ro, rst := 0 }
-- STK_DESC_BASE_LO
def STK_DESC_BASE_LO_BASE : Fld := { code := 100, lo := 0, len := 32, acc := .ro, rst := 0 }
-- STK_DESC_BASE_HI
def STK_DESC_BASE_HI_BASE : Fld := { code := 101, lo := 0, len := 32, acc := .ro, rst := 0 }
-- STK_PIN
def STK_PIN_DONE : Fld := { code := 102, lo := 31, len := 1, acc := .w1c, rst := 0 }
def STK_PIN_REFUSED : Fld := { code := 103, lo := 30, len := 1, acc := .w1c, rst := 0 }
def STK_PIN_UNPIN : Fld := { code := 104, lo := 29, len := 1, acc := .wo, rst := 0 }
def STK_PIN_REQ : Fld := { code := 105, lo := 28, len := 1, acc := .wo, rst := 0 }
def STK_PIN_DESC : Fld := { code := 106, lo := 16, len := 9, acc := .ro, rst := 0 }
def STK_PIN_GROUP : Fld := { code := 107, lo := 0, len := 9, acc := .rw, rst := 0 }
-- STK_CTX_SEL
def STK_CTX_SEL_CTX : Fld := { code := 108, lo := 0, len := 12, acc := .rw, rst := 0 }
-- STK_CTX_STATUS
def STK_CTX_STATUS_CONCEALED : Fld := { code := 109, lo := 31, len := 1, acc := .ro, rst := 0 }
def STK_CTX_STATUS_CONC_SLICES : Fld := { code := 110, lo := 23, len := 8, acc := .ro, rst := 0 }
def STK_CTX_STATUS_LAST_PICTURE : Fld := { code := 111, lo := 0, len := 16, acc := .ro, rst := 0 }
-- STK_BEDROCK_GEN
def STK_BEDROCK_GEN_BUILD_GEN1 : Fld := { code := 112, lo := 24, len := 8, acc := .ro, rst := 0 }
def STK_BEDROCK_GEN_SERVE_GEN1 : Fld := { code := 113, lo := 16, len := 8, acc := .ro, rst := 0 }
def STK_BEDROCK_GEN_BUILD_GEN0 : Fld := { code := 114, lo := 8, len := 8, acc := .ro, rst := 0 }
def STK_BEDROCK_GEN_SERVE_GEN0 : Fld := { code := 115, lo := 0, len := 8, acc := .ro, rst := 0 }
-- STK_BEDROCK_STATE
def STK_BEDROCK_STATE_SERVING1 : Fld := { code := 116, lo := 31, len := 1, acc := .ro, rst := 0 }
def STK_BEDROCK_STATE_BUILDING1 : Fld := { code := 117, lo := 30, len := 1, acc := .ro, rst := 0 }
def STK_BEDROCK_STATE_NEXT_ROW1 : Fld := { code := 118, lo := 16, len := 7, acc := .ro, rst := 0 }
def STK_BEDROCK_STATE_SERVING0 : Fld := { code := 119, lo := 15, len := 1, acc := .ro, rst := 0 }
def STK_BEDROCK_STATE_BUILDING0 : Fld := { code := 120, lo := 14, len := 1, acc := .ro, rst := 0 }
def STK_BEDROCK_STATE_NEXT_ROW0 : Fld := { code := 121, lo := 0, len := 7, acc := .ro, rst := 0 }
-- STK_CRC_FAIL
def STK_CRC_FAIL_COUNT : Fld := { code := 122, lo := 0, len := 32, acc := .ro, rst := 0 }
-- STK_STALL_LIMIT
def STK_STALL_LIMIT_US : Fld := { code := 123, lo := 0, len := 16, acc := .rw, rst := 100 }
-- STK_PACK_RATIO
def STK_PACK_RATIO_RATIO : Fld := { code := 124, lo := 0, len := 16, acc := .ro, rst := 0 }
-- STK_CNT_SAT
def STK_CNT_SAT_CRC_FAIL_SAT : Fld := { code := 125, lo := 0, len := 1, acc := .w1c, rst := 0 }
-- HWR_STATUS
def HWR_STATUS_CTX : Fld := { code := 126, lo := 16, len := 12, acc := .ro, rst := 0 }
def HWR_STATUS_BS_WAIT : Fld := { code := 127, lo := 5, len := 1, acc := .ro, rst := 0 }
def HWR_STATUS_STATE : Fld := { code := 128, lo := 0, len := 4, acc := .ro, rst := 0 }
-- HWR_CTRL
def HWR_CTRL_SERVICE : Fld := { code := 129, lo := 1, len := 1, acc := .rw, rst := 0 }
def HWR_CTRL_DRAIN : Fld := { code := 130, lo := 0, len := 1, acc := .rw, rst := 0 }
-- HWR_WAIT_LIMIT
def HWR_WAIT_LIMIT_EXP : Fld := { code := 131, lo := 0, len := 5, acc := .rw, rst := 20 }
-- HWR_FAULT
def HWR_FAULT_TOKEN_OVF : Fld := { code := 132, lo := 5, len := 1, acc := .w1c, rst := 0 }
def HWR_FAULT_ADDR_RANGE : Fld := { code := 133, lo := 4, len := 1, acc := .w1c, rst := 0 }
def HWR_FAULT_BRANCH_FORM : Fld := { code := 134, lo := 3, len := 1, acc := .w1c, rst := 0 }
def HWR_FAULT_WAIT_TIMEOUT : Fld := { code := 135, lo := 2, len := 1, acc := .w1c, rst := 0 }
def HWR_FAULT_LM_UNCORR : Fld := { code := 136, lo := 1, len := 1, acc := .w1c, rst := 0 }
def HWR_FAULT_PARITY : Fld := { code := 137, lo := 0, len := 1, acc := .w1c, rst := 0 }
-- HWR_FAULT_ADDR
def HWR_FAULT_ADDR_CLASS : Fld := { code := 138, lo := 16, len := 1, acc := .ro, rst := 0 }
def HWR_FAULT_ADDR_ADDR : Fld := { code := 139, lo := 0, len := 15, acc := .ro, rst := 0 }
-- HWR_PATCH_STATUS
def HWR_PATCH_STATUS_PATCH_ID : Fld := { code := 140, lo := 16, len := 16, acc := .ro, rst := 0 }
def HWR_PATCH_STATUS_MATCH_USED : Fld := { code := 141, lo := 8, len := 7, acc := .ro, rst := 0 }
def HWR_PATCH_STATUS_STATE : Fld := { code := 142, lo := 0, len := 2, acc := .ro, rst := 0 }
-- HWR_ROM_VERSION
def HWR_ROM_VERSION_VERSION : Fld := { code := 143, lo := 0, len := 16, acc := .ro, rst := 0, byInst := true }
-- HWR_LM_CORR
def HWR_LM_CORR_COUNT : Fld := { code := 144, lo := 0, len := 32, acc := .ro, rst := 0 }
-- HWR_SLICES
def HWR_SLICES_COUNT : Fld := { code := 145, lo := 0, len := 32, acc := .ro, rst := 0 }
-- HWR_CNT_SAT
def HWR_CNT_SAT_SLICES_SAT : Fld := { code := 146, lo := 1, len := 1, acc := .w1c, rst := 0 }
def HWR_CNT_SAT_LM_CORR_SAT : Fld := { code := 147, lo := 0, len := 1, acc := .w1c, rst := 0 }
-- HWR_MATCH
def HWR_MATCH_EN : Fld := { code := 148, lo := 31, len := 1, acc := .rw, rst := 0 }
def HWR_MATCH_PATCH_OFFSET : Fld := { code := 149, lo := 16, len := 10, acc := .rw, rst := 0 }
def HWR_MATCH_ROM_ADDR : Fld := { code := 150, lo := 0, len := 14, acc := .rw, rst := 0 }
-- HWR_PATCH_RAM
def HWR_PATCH_RAM_DATA : Fld := { code := 151, lo := 0, len := 32, acc := .rw, rst := 0 }
-- DRS_CTRL
def DRS_CTRL_LUT_ARMED : Fld := { code := 152, lo := 10, len := 1, acc := .ro, rst := 0 }
def DRS_CTRL_LUT_ARM : Fld := { code := 153, lo := 9, len := 1, acc := .wo, rst := 0 }
def DRS_CTRL_LUT_BANK : Fld := { code := 154, lo := 8, len := 1, acc := .ro, rst := 0 }
def DRS_CTRL_DITHER_EN : Fld := { code := 155, lo := 1, len := 1, acc := .rw, rst := 1 }
def DRS_CTRL_EN : Fld := { code := 156, lo := 0, len := 1, acc := .rw, rst := 0 }
-- DRS_LUT_ADDR
def DRS_LUT_ADDR_AUTO_INC : Fld := { code := 157, lo := 31, len := 1, acc := .rw, rst := 0 }
def DRS_LUT_ADDR_LUT : Fld := { code := 158, lo := 13, len := 2, acc := .rw, rst := 0 }
def DRS_LUT_ADDR_ENTRY : Fld := { code := 159, lo := 0, len := 13, acc := .rw, rst := 0 }
-- DRS_LUT_DATA
def DRS_LUT_DATA_VALUE : Fld := { code := 160, lo := 0, len := 24, acc := .rw, rst := 0 }
-- DRS_BRIGHT
def DRS_BRIGHT_ARM : Fld := { code := 161, lo := 31, len := 1, acc := .wo, rst := 0 }
def DRS_BRIGHT_SHADOW_ARMED : Fld := { code := 162, lo := 30, len := 1, acc := .ro, rst := 0 }
def DRS_BRIGHT_BRIGHT : Fld := { code := 163, lo := 0, len := 17, acc := .rw, rst := 65536 }
-- DRS_SAT
def DRS_SAT_COUNT : Fld := { code := 164, lo := 0, len := 32, acc := .ro, rst := 0 }
-- RIV_HALTED_LO
def RIV_HALTED_LO_HALTED : Fld := { code := 165, lo := 0, len := 32, acc := .ro, rst := 0 }
-- RIV_HALTED_HI
def RIV_HALTED_HI_HALTED : Fld := { code := 166, lo := 0, len := 32, acc := .ro, rst := 0 }
-- RIV_CH_CTRL
def RIV_CH_CTRL_SOURCE : Fld := { code := 167, lo := 24, len := 6, acc := .rw, rst := 0 }
def RIV_CH_CTRL_RETRY_LIMIT : Fld := { code := 168, lo := 12, len := 3, acc := .rw, rst := 3 }
def RIV_CH_CTRL_EN : Fld := { code := 169, lo := 8, len := 1, acc := .rw, rst := 0 }
def RIV_CH_CTRL_CLEAR : Fld := { code := 170, lo := 2, len := 1, acc := .wo, rst := 0 }
def RIV_CH_CTRL_SHADOW_ARMED : Fld := { code := 171, lo := 1, len := 1, acc := .ro, rst := 0 }
def RIV_CH_CTRL_ARM : Fld := { code := 172, lo := 0, len := 1, acc := .wo, rst := 0 }
-- RIV_CH_TABLE_LO
def RIV_CH_TABLE_LO_ADDR : Fld := { code := 173, lo := 0, len := 32, acc := .rw, rst := 0 }
-- RIV_CH_TABLE_HI
def RIV_CH_TABLE_HI_ADDR : Fld := { code := 174, lo := 0, len := 32, acc := .rw, rst := 0 }
-- RIV_CH_SPLIT
def RIV_CH_SPLIT_ACT_LAST : Fld := { code := 175, lo := 24, len := 8, acc := .ro, rst := 0 }
def RIV_CH_SPLIT_ACT_FIRST : Fld := { code := 176, lo := 16, len := 8, acc := .ro, rst := 0 }
def RIV_CH_SPLIT_LAST : Fld := { code := 177, lo := 8, len := 8, acc := .rw, rst := 0 }
def RIV_CH_SPLIT_FIRST : Fld := { code := 178, lo := 0, len := 8, acc := .rw, rst := 0 }
-- RIV_CH_STATUS
def RIV_CH_STATUS_COUNT : Fld := { code := 179, lo := 16, len := 16, acc := .ro, rst := 0 }
def RIV_CH_STATUS_ADOPTED : Fld := { code := 180, lo := 8, len := 1, acc := .w1c, rst := 0 }
def RIV_CH_STATUS_PANIC : Fld := { code := 181, lo := 7, len := 1, acc := .ro, rst := 0 }
def RIV_CH_STATUS_ERR_AFTER_COUNT : Fld := { code := 182, lo := 6, len := 1, acc := .ro, rst := 0 }
def RIV_CH_STATUS_ERR : Fld := { code := 183, lo := 5, len := 1, acc := .ro, rst := 0 }
def RIV_CH_STATUS_DONE : Fld := { code := 184, lo := 4, len := 1, acc := .ro, rst := 0 }
def RIV_CH_STATUS_STATE : Fld := { code := 185, lo := 0, len := 3, acc := .ro, rst := 0 }
-- RIV_CH_ERR_ADDR_LO
def RIV_CH_ERR_ADDR_LO_ADDR : Fld := { code := 186, lo := 0, len := 32, acc := .ro, rst := 0 }
-- RIV_CH_ERR_ADDR_HI
def RIV_CH_ERR_ADDR_HI_ADDR : Fld := { code := 187, lo := 0, len := 32, acc := .ro, rst := 0 }
-- RIV_CH_STRIPS
def RIV_CH_STRIPS_DROPPED : Fld := { code := 188, lo := 16, len := 16, acc := .ro, rst := 0 }
def RIV_CH_STRIPS_RETRIES : Fld := { code := 189, lo := 0, len := 16, acc := .ro, rst := 0 }
-- LMP_SYNC_GAP
def LMP_SYNC_GAP_US_X10 : Fld := { code := 190, lo := 0, len := 9, acc := .rw, rst := 80 }
-- LMP_GRID_STATUS
def LMP_GRID_STATUS_EN : Fld := { code := 191, lo := 15, len := 1, acc := .ro, rst := 0 }
def LMP_GRID_STATUS_SUBFRAMES : Fld := { code := 192, lo := 8, len := 2, acc := .ro, rst := 2 }
def LMP_GRID_STATUS_SFC : Fld := { code := 193, lo := 0, len := 8, acc := .ro, rst := 0 }
-- LMP_PORT_CTRL
def LMP_PORT_CTRL_PARTNER : Fld := { code := 194, lo := 16, len := 6, acc := .rw, rst := 63 }
def LMP_PORT_CTRL_GRID : Fld := { code := 195, lo := 12, len := 2, acc := .rw, rst := 0 }
def LMP_PORT_CTRL_END : Fld := { code := 196, lo := 8, len := 1, acc := .rw, rst := 0 }
def LMP_PORT_CTRL_EN : Fld := { code := 197, lo := 2, len := 1, acc := .rw, rst := 0 }
def LMP_PORT_CTRL_SHADOW_ARMED : Fld := { code := 198, lo := 1, len := 1, acc := .ro, rst := 0 }
def LMP_PORT_CTRL_ARM : Fld := { code := 199, lo := 0, len := 1, acc := .wo, rst := 0 }
-- LMP_PORT_SYNC_ADV
def LMP_PORT_SYNC_ADV_NS : Fld := { code := 200, lo := 0, len := 16, acc := .rw, rst := 0 }
-- LMP_PORT_PANIC
def LMP_PORT_PANIC_OFF : Fld := { code := 201, lo := 16, len := 8, acc := .rw, rst := 192 }
def LMP_PORT_PANIC_ON : Fld := { code := 202, lo := 0, len := 8, acc := .rw, rst := 128 }
-- LMP_PORT_STATUS
def LMP_PORT_STATUS_SPLIT : Fld := { code := 203, lo := 24, len := 8, acc := .ro, rst := 0 }
def LMP_PORT_STATUS_BUF : Fld := { code := 204, lo := 8, len := 8, acc := .ro, rst := 0 }
def LMP_PORT_STATUS_RX_CAL : Fld := { code := 205, lo := 3, len := 1, acc := .ro, rst := 0 }
def LMP_PORT_STATUS_FAR_SYNC : Fld := { code := 206, lo := 2, len := 1, acc := .ro, rst := 0 }
def LMP_PORT_STATUS_SAFE : Fld := { code := 207, lo := 1, len := 1, acc := .ro, rst := 0 }
def LMP_PORT_STATUS_SAFE_KIND : Fld := { code := 208, lo := 0, len := 1, acc := .ro, rst := 0 }
-- LMP_PORT_EVENT
def LMP_PORT_EVENT_BREAK_D : Fld := { code := 209, lo := 24, len := 8, acc := .ro, rst := 0 }
def LMP_PORT_EVENT_RX_LOS : Fld := { code := 210, lo := 4, len := 1, acc := .w1c, rst := 0 }
def LMP_PORT_EVENT_FAR_LOST : Fld := { code := 211, lo := 3, len := 1, acc := .w1c, rst := 0 }
def LMP_PORT_EVENT_DOUBLE_BREAK : Fld := { code := 212, lo := 2, len := 1, acc := .w1c, rst := 0 }
def LMP_PORT_EVENT_TAKEOVER : Fld := { code := 213, lo := 1, len := 1, acc := .w1c, rst := 0 }
def LMP_PORT_EVENT_BREAK : Fld := { code := 214, lo := 0, len := 1, acc := .w1c, rst := 0 }
-- LMP_PORT_LEAD
def LMP_PORT_LEAD_NS : Fld := { code := 215, lo := 0, len := 24, acc := .rw, rst := 0 }
-- LMP_PORT_COUNTS
def LMP_PORT_COUNTS_RX_CRC : Fld := { code := 216, lo := 16, len := 16, acc := .ro, rst := 0 }
def LMP_PORT_COUNTS_LATE_STRIPS : Fld := { code := 217, lo := 0, len := 16, acc := .ro, rst := 0 }
-- HAUL_CTRL
def HAUL_CTRL_PROMISC : Fld := { code := 218, lo := 15, len := 1, acc := .rw, rst := 0 }
def HAUL_CTRL_MGMT_TRUST : Fld := { code := 219, lo := 14, len := 1, acc := .rw, rst := 0 }
def HAUL_CTRL_ENCAP : Fld := { code := 220, lo := 12, len := 2, acc := .rw, rst := 0 }
def HAUL_CTRL_RATE : Fld := { code := 221, lo := 8, len := 2, acc := .rw, rst := 2 }
def HAUL_CTRL_LANES : Fld := { code := 222, lo := 4, len := 2, acc := .rw, rst := 2 }
def HAUL_CTRL_MODE : Fld := { code := 223, lo := 1, len := 2, acc := .rw, rst := 0 }
def HAUL_CTRL_EN : Fld := { code := 224, lo := 0, len := 1, acc := .rw, rst := 0 }
-- HAUL_STATUS
def HAUL_STATUS_LANE_SYNC : Fld := { code := 225, lo := 8, len := 4, acc := .ro, rst := 0 }
def HAUL_STATUS_AN_DONE : Fld := { code := 226, lo := 3, len := 1, acc := .ro, rst := 0 }
def HAUL_STATUS_REMOTE_FAULT : Fld := { code := 227, lo := 2, len := 1, acc := .ro, rst := 0 }
def HAUL_STATUS_ALIGNED : Fld := { code := 228, lo := 1, len := 1, acc := .ro, rst := 0 }
def HAUL_STATUS_LINK : Fld := { code := 229, lo := 0, len := 1, acc := .ro, rst := 0 }
-- HAUL_EVENT
def HAUL_EVENT_LINK_UP : Fld := { code := 230, lo := 1, len := 1, acc := .w1c, rst := 0 }
def HAUL_EVENT_LINK_LOSS : Fld := { code := 231, lo := 0, len := 1, acc := .w1c, rst := 0 }
-- HAUL_MAC_LO
def HAUL_MAC_LO_MAC : Fld := { code := 232, lo := 0, len := 32, acc := .rw, rst := 0 }
-- HAUL_MAC_HI
def HAUL_MAC_HI_MAC : Fld := { code := 233, lo := 0, len := 16, acc := .rw, rst := 0 }
-- HAUL_UDP
def HAUL_UDP_PT : Fld := { code := 234, lo := 16, len := 7, acc := .rw, rst := 96 }
def HAUL_UDP_PORT : Fld := { code := 235, lo := 0, len := 16, acc := .rw, rst := 47100 }
-- HAUL_MTU
def HAUL_MTU_BYTES : Fld := { code := 236, lo := 0, len := 14, acc := .rw, rst := 9216 }
-- HAUL_LOS
def HAUL_LOS_X100NS : Fld := { code := 237, lo := 0, len := 5, acc := .rw, rst := 20 }
-- HAUL_DEFAULT_LO
def HAUL_DEFAULT_LO_ACTION : Fld := { code := 238, lo := 0, len := 32, acc := .rw, rst := 0, byInst := true }
-- HAUL_DEFAULT_HI
def HAUL_DEFAULT_HI_ACTION : Fld := { code := 239, lo := 0, len := 32, acc := .rw, rst := 0, byInst := true }
-- HAUL_PTP_LAT
def HAUL_PTP_LAT_RX_Q : Fld := { code := 240, lo := 16, len := 16, acc := .rw, rst := 0, byInst := true }
def HAUL_PTP_LAT_TX_Q : Fld := { code := 241, lo := 0, len := 16, acc := .rw, rst := 0, byInst := true }
-- HAUL_TS_INFO
def HAUL_TS_INFO_VALID : Fld := { code := 242, lo := 31, len := 1, acc := .rc, rst := 0 }
def HAUL_TS_INFO_MSG_TYPE : Fld := { code := 243, lo := 24, len := 4, acc := .ro, rst := 0 }
def HAUL_TS_INFO_DOMAIN : Fld := { code := 244, lo := 16, len := 8, acc := .ro, rst := 0 }
def HAUL_TS_INFO_SEQ_ID : Fld := { code := 245, lo := 0, len := 16, acc := .ro, rst := 0 }
-- HAUL_TS_TIME_LO
def HAUL_TS_TIME_LO_TIME : Fld := { code := 246, lo := 0, len := 32, acc := .ro, rst := 0 }
-- HAUL_TS_TIME_HI
def HAUL_TS_TIME_HI_TIME : Fld := { code := 247, lo := 0, len := 32, acc := .ro, rst := 0 }
-- HAUL_CNT
def HAUL_CNT_COUNT : Fld := { code := 248, lo := 0, len := 32, acc := .ro, rst := 0 }
-- HAUL_CNT_SAT
def HAUL_CNT_SAT_SAT : Fld := { code := 249, lo := 0, len := 10, acc := .w1c, rst := 0 }
-- CLS_CTRL
def CLS_CTRL_CAPTURE_EN : Fld := { code := 250, lo := 2, len := 1, acc := .rw, rst := 0 }
def CLS_CTRL_V1_EN : Fld := { code := 251, lo := 1, len := 1, acc := .rw, rst := 1 }
def CLS_CTRL_EN : Fld := { code := 252, lo := 0, len := 1, acc := .rw, rst := 0 }
-- CLS_DEVICE
def CLS_DEVICE_ADDR : Fld := { code := 253, lo := 0, len := 12, acc := .rw, rst := 0 }
-- CLS_VERSION
def CLS_VERSION_STATE : Fld := { code := 254, lo := 24, len := 3, acc := .ro, rst := 0 }
def CLS_VERSION_STAGED : Fld := { code := 255, lo := 16, len := 8, acc := .ro, rst := 1 }
def CLS_VERSION_OLD : Fld := { code := 256, lo := 8, len := 8, acc := .ro, rst := 0 }
def CLS_VERSION_LIVE : Fld := { code := 257, lo := 0, len := 8, acc := .ro, rst := 0 }
-- CLS_COMMIT
def CLS_COMMIT_ERR : Fld := { code := 258, lo := 8, len := 8, acc := .ro, rst := 0 }
def CLS_COMMIT_ABORT : Fld := { code := 259, lo := 2, len := 1, acc := .wo, rst := 0 }
def CLS_COMMIT_CLONE : Fld := { code := 260, lo := 1, len := 1, acc := .wo, rst := 0 }
def CLS_COMMIT_GO : Fld := { code := 261, lo := 0, len := 1, acc := .wo, rst := 0 }
-- CLS_STAGE_COUNT
def CLS_STAGE_COUNT_TERN : Fld := { code := 262, lo := 16, len := 10, acc := .rw, rst := 0 }
def CLS_STAGE_COUNT_EXACT : Fld := { code := 263, lo := 0, len := 15, acc := .rw, rst := 0 }
-- CLS_EXACT_INDEX
def CLS_EXACT_INDEX_INDEX : Fld := { code := 264, lo := 0, len := 14, acc := .rw, rst := 0 }
-- CLS_EXACT_DATA
def CLS_EXACT_DATA_DATA : Fld := { code := 265, lo := 0, len := 32, acc := .rw, rst := 0 }
-- CLS_TERN_INDEX
def CLS_TERN_INDEX_INDEX : Fld := { code := 266, lo := 0, len := 9, acc := .rw, rst := 0 }
-- CLS_TERN_DATA
def CLS_TERN_DATA_DATA : Fld := { code := 267, lo := 0, len := 32, acc := .rw, rst := 0 }
-- CLS_RING
def CLS_RING_SIZE : Fld := { code := 268, lo := 24, len := 8, acc := .rw, rst := 0 }
def CLS_RING_POS : Fld := { code := 269, lo := 16, len := 8, acc := .rw, rst := 0 }
def CLS_RING_CCW_PORT : Fld := { code := 270, lo := 8, len := 3, acc := .rw, rst := 0 }
def CLS_RING_CW_PORT : Fld := { code := 271, lo := 4, len := 3, acc := .rw, rst := 0 }
def CLS_RING_EN : Fld := { code := 272, lo := 0, len := 1, acc := .rw, rst := 0 }
-- CLS_RING_CUT
def CLS_RING_CUT_CW_VALID : Fld := { code := 273, lo := 31, len := 1, acc := .ro, rst := 0 }
def CLS_RING_CUT_CW_X : Fld := { code := 274, lo := 16, len := 8, acc := .ro, rst := 0 }
def CLS_RING_CUT_CCW_VALID : Fld := { code := 275, lo := 15, len := 1, acc := .ro, rst := 0 }
def CLS_RING_CUT_CCW_X : Fld := { code := 276, lo := 0, len := 8, acc := .ro, rst := 0 }
-- CLS_RING_CMD
def CLS_RING_CMD_SEND_RESTORE : Fld := { code := 277, lo := 2, len := 1, acc := .wo, rst := 0 }
def CLS_RING_CMD_CLEAR_CCW : Fld := { code := 278, lo := 1, len := 1, acc := .wo, rst := 0 }
def CLS_RING_CMD_CLEAR_CW : Fld := { code := 279, lo := 0, len := 1, acc := .wo, rst := 0 }
-- CLS_FRAG
def CLS_FRAG_USED : Fld := { code := 280, lo := 0, len := 9, acc := .ro, rst := 0 }
-- CLS_CAPTURE_LO
def CLS_CAPTURE_LO_ADDR : Fld := { code := 281, lo := 0, len := 32, acc := .rw, rst := 0 }
-- CLS_CAPTURE_HI
def CLS_CAPTURE_HI_ADDR : Fld := { code := 282, lo := 0, len := 32, acc := .rw, rst := 0 }
-- CLS_CNT
def CLS_CNT_COUNT : Fld := { code := 283, lo := 0, len := 32, acc := .ro, rst := 0 }
-- CLS_CNT_SAT
def CLS_CNT_SAT_SAT : Fld := { code := 284, lo := 0, len := 16, acc := .w1c, rst := 0 }
-- CLS_EVENT
def CLS_EVENT_CAPTURE_DROP : Fld := { code := 285, lo := 3, len := 1, acc := .w1c, rst := 0 }
def CLS_EVENT_FRAG_TABLE_FULL : Fld := { code := 286, lo := 2, len := 1, acc := .w1c, rst := 0 }
def CLS_EVENT_BREAK : Fld := { code := 287, lo := 1, len := 1, acc := .w1c, rst := 0 }
def CLS_EVENT_COMMIT_DONE : Fld := { code := 288, lo := 0, len := 1, acc := .w1c, rst := 0 }
-- CLS_MAC_LO
def CLS_MAC_LO_MAC : Fld := { code := 289, lo := 0, len := 32, acc := .rw, rst := 0 }
-- CLS_MAC_HI
def CLS_MAC_HI_MAC : Fld := { code := 290, lo := 0, len := 16, acc := .rw, rst := 0 }
-- BPM_CTRL
def BPM_CTRL_LIST_MODE : Fld := { code := 291, lo := 2, len := 1, acc := .rw, rst := 0 }
def BPM_CTRL_DRAM_EN : Fld := { code := 292, lo := 1, len := 1, acc := .rw, rst := 0 }
def BPM_CTRL_EN : Fld := { code := 293, lo := 0, len := 1, acc := .rw, rst := 0 }
-- BPM_SRAM_RESERVE
def BPM_SRAM_RESERVE_COUNT : Fld := { code := 294, lo := 0, len := 17, acc := .rw, rst := 4096 }
-- BPM_DRAM_BASE_LO
def BPM_DRAM_BASE_LO_ADDR : Fld := { code := 295, lo := 0, len := 32, acc := .rw, rst := 0 }
-- BPM_DRAM_BASE_HI
def BPM_DRAM_BASE_HI_ADDR : Fld := { code := 296, lo := 0, len := 8, acc := .rw, rst := 0 }
-- BPM_FREE_SRAM
def BPM_FREE_SRAM_COUNT : Fld := { code := 297, lo := 0, len := 20, acc := .ro, rst := 0, byInst := true }
-- BPM_FREE_DRAM
def BPM_FREE_DRAM_COUNT : Fld := { code := 298, lo := 0, len := 20, acc := .ro, rst := 0, byInst := true }
-- BPM_MIN_FREE
def BPM_MIN_FREE_COUNT : Fld := { code := 299, lo := 0, len := 17, acc := .rc, rst := 65520 }
-- BPM_NO_BUFFER
def BPM_NO_BUFFER_COUNT : Fld := { code := 300, lo := 0, len := 32, acc := .ro, rst := 0 }
-- BPM_STALLS
def BPM_STALLS_COUNT : Fld := { code := 301, lo := 0, len := 32, acc := .ro, rst := 0 }
-- BPM_LIST_HEAD
def BPM_LIST_HEAD_EMPTY : Fld := { code := 302, lo := 31, len := 1, acc := .ro, rst := 0 }
def BPM_LIST_HEAD_HEAD : Fld := { code := 303, lo := 0, len := 20, acc := .ro, rst := 16 }
-- BPM_EVENT
def BPM_EVENT_STALL : Fld := { code := 304, lo := 2, len := 1, acc := .w1c, rst := 0 }
def BPM_EVENT_LOW : Fld := { code := 305, lo := 1, len := 1, acc := .w1c, rst := 0 }
def BPM_EVENT_NO_BUFFER : Fld := { code := 306, lo := 0, len := 1, acc := .w1c, rst := 0 }
-- BPM_CNT_SAT
def BPM_CNT_SAT_STALLS_SAT : Fld := { code := 307, lo := 1, len := 1, acc := .w1c, rst := 0 }
def BPM_CNT_SAT_NO_BUFFER_SAT : Fld := { code := 308, lo := 0, len := 1, acc := .w1c, rst := 0 }
-- SPQ_Q_SEL
def SPQ_Q_SEL_QUEUE : Fld := { code := 309, lo := 0, len := 13, acc := .rw, rst := 0 }
-- SPQ_Q_CFG
def SPQ_Q_CFG_SPILL : Fld := { code := 310, lo := 31, len := 1, acc := .rw, rst := 0 }
def SPQ_Q_CFG_EN : Fld := { code := 311, lo := 30, len := 1, acc := .rw, rst := 0 }
def SPQ_Q_CFG_SIZE : Fld := { code := 312, lo := 24, len := 5, acc := .rw, rst := 12 }
def SPQ_Q_CFG_CT : Fld := { code := 313, lo := 0, len := 10, acc := .rw, rst := 32 }
-- SPQ_Q_BASE_LO
def SPQ_Q_BASE_LO_ADDR : Fld := { code := 314, lo := 0, len := 32, acc := .rw, rst := 0 }
-- SPQ_Q_BASE_HI
def SPQ_Q_BASE_HI_ADDR : Fld := { code := 315, lo := 0, len := 32, acc := .rw, rst := 0 }
-- SPQ_Q_STATUS
def SPQ_Q_STATUS_AT_THRESHOLD : Fld := { code := 316, lo := 31, len := 1, acc := .ro, rst := 0 }
def SPQ_Q_STATUS_USED : Fld := { code := 317, lo := 0, len := 27, acc := .ro, rst := 0 }
-- SPQ_Q_DROPPED
def SPQ_Q_DROPPED_COUNT : Fld := { code := 318, lo := 0, len := 32, acc := .ro, rst := 0 }
-- SPQ_Q_CLEFTS
def SPQ_Q_CLEFTS_COUNT : Fld := { code := 319, lo := 0, len := 32, acc := .ro, rst := 0 }
-- SPQ_POISON
def SPQ_POISON_COUNT : Fld := { code := 320, lo := 0, len := 32, acc := .ro, rst := 0 }
-- SPQ_EVENT
def SPQ_EVENT_POISON : Fld := { code := 321, lo := 1, len := 1, acc := .w1c, rst := 0 }
def SPQ_EVENT_DROP : Fld := { code := 322, lo := 0, len := 1, acc := .w1c, rst := 0 }
-- SPQ_CNT_SAT
def SPQ_CNT_SAT_POISON_SAT : Fld := { code := 323, lo := 2, len := 1, acc := .w1c, rst := 0 }
def SPQ_CNT_SAT_CLEFTS_SAT : Fld := { code := 324, lo := 1, len := 1, acc := .w1c, rst := 0 }
def SPQ_CNT_SAT_DROPPED_SAT : Fld := { code := 325, lo := 0, len := 1, acc := .w1c, rst := 0 }
-- TMG_Q_CFG
def TMG_Q_CFG_EN : Fld := { code := 326, lo := 31, len := 1, acc := .rw, rst := 1 }
def TMG_Q_CFG_WEIGHT : Fld := { code := 327, lo := 0, len := 13, acc := .rw, rst := 1 }
-- TMG_Q_DEPTH_MAX
def TMG_Q_DEPTH_MAX_BYTES : Fld := { code := 328, lo := 0, len := 24, acc := .rw, rst := 0, byInst := true }
-- TMG_Q_YELLOW_MAX
def TMG_Q_YELLOW_MAX_BYTES : Fld := { code := 329, lo := 0, len := 24, acc := .rw, rst := 0, byInst := true }
-- TMG_Q_SHAPE_RATE
def TMG_Q_SHAPE_RATE_RATE : Fld := { code := 330, lo := 0, len := 32, acc := .rw, rst := 0 }
-- TMG_Q_SHAPE_BURST
def TMG_Q_SHAPE_BURST_BYTES : Fld := { code := 331, lo := 0, len := 24, acc := .rw, rst := 18432 }
-- TMG_Q_DEPTH
def TMG_Q_DEPTH_DROPS_SAT : Fld := { code := 332, lo := 31, len := 1, acc := .w1c, rst := 0 }
def TMG_Q_DEPTH_BYTES : Fld := { code := 333, lo := 0, len := 24, acc := .ro, rst := 0 }
-- TMG_Q_DROPS
def TMG_Q_DROPS_COUNT : Fld := { code := 334, lo := 0, len := 32, acc := .ro, rst := 0 }
-- TMG_Q_DMIN
def TMG_Q_DMIN_VALUE : Fld := { code := 335, lo := 0, len := 28, acc := .rc, rst := 0 }
-- TMG_Q_DMAX
def TMG_Q_DMAX_VALUE : Fld := { code := 336, lo := 0, len := 28, acc := .rc, rst := 0 }
-- TMG_Q_HMIN
def TMG_Q_HMIN_VALUE : Fld := { code := 337, lo := 0, len := 28, acc := .rc, rst := 0 }
-- TMG_Q_HMAX
def TMG_Q_HMAX_VALUE : Fld := { code := 338, lo := 0, len := 28, acc := .rc, rst := 0 }
-- TMG_Q_DMEAN
def TMG_Q_DMEAN_MEAN : Fld := { code := 339, lo := 0, len := 32, acc := .ro, rst := 0 }
-- TMG_Q_HMEAN
def TMG_Q_HMEAN_MEAN : Fld := { code := 340, lo := 0, len := 32, acc := .ro, rst := 0 }
-- TMG_PORT_CTRL
def TMG_PORT_CTRL_EN : Fld := { code := 341, lo := 31, len := 1, acc := .rw, rst := 0 }
def TMG_PORT_CTRL_SAMPLE_K : Fld := { code := 342, lo := 0, len := 5, acc := .rw, rst := 16 }
-- TMG_PORT_SHAPE_RATE
def TMG_PORT_SHAPE_RATE_RATE : Fld := { code := 343, lo := 0, len := 32, acc := .rw, rst := 0 }
-- TMG_PORT_SHAPE_BURST
def TMG_PORT_SHAPE_BURST_BYTES : Fld := { code := 344, lo := 0, len := 24, acc := .rw, rst := 18432 }
-- TMG_PORT_VTIME_LO
def TMG_PORT_VTIME_LO_V : Fld := { code := 345, lo := 0, len := 32, acc := .ro, rst := 0 }
-- TMG_PORT_VTIME_HI
def TMG_PORT_VTIME_HI_V : Fld := { code := 346, lo := 0, len := 32, acc := .ro, rst := 0 }
-- TMG_PORT_EVENT
def TMG_PORT_EVENT_TAIL_DROP : Fld := { code := 347, lo := 0, len := 1, acc := .w1c, rst := 0 }
-- TMG_METER_SEL
def TMG_METER_SEL_METER : Fld := { code := 348, lo := 0, len := 10, acc := .rw, rst := 0 }
-- TMG_METER_CTRL
def TMG_METER_CTRL_AWARE : Fld := { code := 349, lo := 1, len := 1, acc := .rw, rst := 0 }
def TMG_METER_CTRL_EN : Fld := { code := 350, lo := 0, len := 1, acc := .rw, rst := 0 }
-- TMG_METER_CIR
def TMG_METER_CIR_RATE : Fld := { code := 351, lo := 0, len := 32, acc := .rw, rst := 0 }
-- TMG_METER_PIR
def TMG_METER_PIR_RATE : Fld := { code := 352, lo := 0, len := 32, acc := .rw, rst := 0 }
-- TMG_METER_CBS
def TMG_METER_CBS_BYTES : Fld := { code := 353, lo := 0, len := 32, acc := .rw, rst := 64 }
-- TMG_METER_PBS
def TMG_METER_PBS_BYTES : Fld := { code := 354, lo := 0, len := 32, acc := .rw, rst := 64 }
-- TMG_METER_COUNT
def TMG_METER_COUNT_COUNT : Fld := { code := 355, lo := 0, len := 32, acc := .ro, rst := 0 }
-- TMG_METER_CNT_SAT
def TMG_METER_CNT_SAT_SAT : Fld := { code := 356, lo := 0, len := 3, acc := .w1c, rst := 0 }
-- DDR_CTRL
def DDR_CTRL_WRITEBACK : Fld := { code := 357, lo := 3, len := 1, acc := .rw, rst := 1 }
def DDR_CTRL_SCRUB_EN : Fld := { code := 358, lo := 2, len := 1, acc := .rw, rst := 1 }
def DDR_CTRL_EN : Fld := { code := 359, lo := 0, len := 1, acc := .rw, rst := 0 }
-- DDR_CONFIG
def DDR_CONFIG_LOCK : Fld := { code := 360, lo := 31, len := 1, acc := .w1s, rst := 0 }
def DDR_CONFIG_TWO_CH : Fld := { code := 361, lo := 12, len := 1, acc := .rwl, rst := 0 }
def DDR_CONFIG_RANKS : Fld := { code := 362, lo := 8, len := 1, acc := .rwl, rst := 0 }
def DDR_CONFIG_DENSITY : Fld := { code := 363, lo := 4, len := 2, acc := .rwl, rst := 1 }
def DDR_CONFIG_SPEED : Fld := { code := 364, lo := 0, len := 2, acc := .rwl, rst := 2 }
-- DDR_STATUS
def DDR_STATUS_TEMP_2X : Fld := { code := 365, lo := 8, len := 1, acc := .ro, rst := 0 }
def DDR_STATUS_STATE : Fld := { code := 366, lo := 0, len := 4, acc := .ro, rst := 0 }
-- DDR_PAGE
def DDR_PAGE_IDLE : Fld := { code := 367, lo := 0, len := 12, acc := .rw, rst := 96 }
-- DDR_REFRESH
def DDR_REFRESH_POSTPONE : Fld := { code := 368, lo := 4, len := 3, acc := .rw, rst := 4 }
def DDR_REFRESH_MODE : Fld := { code := 369, lo := 0, len := 1, acc := .rw, rst := 0 }
-- DDR_TIMING_SEL
def DDR_TIMING_SEL_INDEX : Fld := { code := 370, lo := 0, len := 5, acc := .rw, rst := 0 }
-- DDR_TIMING_VAL
def DDR_TIMING_VAL_ACTIVE : Fld := { code := 371, lo := 16, len := 16, acc := .ro, rst := 0, byInst := true }
def DDR_TIMING_VAL_VALUE : Fld := { code := 372, lo := 0, len := 16, acc := .rw, rst := 0, byInst := true }
-- DDR_TIMING_ARM
def DDR_TIMING_ARM_SHADOW_ARMED : Fld := { code := 373, lo := 1, len := 1, acc := .ro, rst := 0 }
def DDR_TIMING_ARM_ARM : Fld := { code := 374, lo := 0, len := 1, acc := .wo, rst := 0 }
-- DDR_TRAIN
def DDR_TRAIN_START : Fld := { code := 375, lo := 31, len := 1, acc := .wo, rst := 0 }
def DDR_TRAIN_BUSY : Fld := { code := 376, lo := 30, len := 1, acc := .ro, rst := 0 }
def DDR_TRAIN_RESULT : Fld := { code := 377, lo := 28, len := 2, acc := .ro, rst := 0 }
def DDR_TRAIN_EYE_MIN : Fld := { code := 378, lo := 0, len := 7, acc := .rw, rst := 16 }
-- DDR_LANE_SEL
def DDR_LANE_SEL_RANK : Fld := { code := 379, lo := 8, len := 1, acc := .rw, rst := 0 }
def DDR_LANE_SEL_LANE : Fld := { code := 380, lo := 0, len := 4, acc := .rw, rst := 0 }
-- DDR_LANE_DELAY
def DDR_LANE_DELAY_WR : Fld := { code := 381, lo := 8, len := 7, acc := .rw, rst := 0 }
def DDR_LANE_DELAY_RD : Fld := { code := 382, lo := 0, len := 7, acc := .rw, rst := 0 }
-- DDR_LANE_EYE
def DDR_LANE_EYE_WR_LAST : Fld := { code := 383, lo := 24, len := 7, acc := .ro, rst := 0 }
def DDR_LANE_EYE_WR_FIRST : Fld := { code := 384, lo := 16, len := 7, acc := .ro, rst := 0 }
def DDR_LANE_EYE_RD_LAST : Fld := { code := 385, lo := 8, len := 7, acc := .ro, rst := 0 }
def DDR_LANE_EYE_RD_FIRST : Fld := { code := 386, lo := 0, len := 7, acc := .ro, rst := 0 }
-- DDR_DRIFT
def DDR_DRIFT_PERIOD_MS : Fld := { code := 387, lo := 8, len := 16, acc := .rw, rst := 100 }
def DDR_DRIFT_DRIFT_MAX : Fld := { code := 388, lo := 0, len := 4, acc := .rw, rst := 4 }
-- DDR_SCRUB
def DDR_SCRUB_HOURS : Fld := { code := 389, lo := 0, len := 8, acc := .rw, rst := 24 }
-- DDR_FILL
def DDR_FILL_START : Fld := { code := 390, lo := 31, len := 1, acc := .wo, rst := 0 }
def DDR_FILL_BUSY : Fld := { code := 391, lo := 30, len := 1, acc := .ro, rst := 0 }
-- DDR_CE
def DDR_CE_COUNT : Fld := { code := 392, lo := 0, len := 32, acc := .ro, rst := 0 }
-- DDR_UE
def DDR_UE_COUNT : Fld := { code := 393, lo := 0, len := 32, acc := .ro, rst := 0 }
-- DDR_WCRC_RETRY
def DDR_WCRC_RETRY_COUNT : Fld := { code := 394, lo := 0, len := 32, acc := .ro, rst := 0 }
-- DDR_WCRC_FAIL
def DDR_WCRC_FAIL_COUNT : Fld := { code := 395, lo := 0, len := 32, acc := .ro, rst := 0 }
-- DDR_CNT_SAT
def DDR_CNT_SAT_SAT : Fld := { code := 396, lo := 0, len := 4, acc := .w1c, rst := 0 }
-- DDR_EVENT
def DDR_EVENT_DRIFT : Fld := { code := 397, lo := 4, len := 1, acc := .w1c, rst := 0 }
def DDR_EVENT_RETRAIN_FAIL : Fld := { code := 398, lo := 3, len := 1, acc := .w1c, rst := 0 }
def DDR_EVENT_WCRC_FAIL : Fld := { code := 399, lo := 2, len := 1, acc := .w1c, rst := 0 }
def DDR_EVENT_UE : Fld := { code := 400, lo := 1, len := 1, acc := .w1c, rst := 0 }
def DDR_EVENT_CE : Fld := { code := 401, lo := 0, len := 1, acc := .w1c, rst := 0 }
-- DDR_LOG_STATUS
def DDR_LOG_STATUS_CLEAR : Fld := { code := 402, lo := 31, len := 1, acc := .wo, rst := 0 }
def DDR_LOG_STATUS_LOG_CE : Fld := { code := 403, lo := 9, len := 1, acc := .rw, rst := 1 }
def DDR_LOG_STATUS_FULL : Fld := { code := 404, lo := 8, len := 1, acc := .ro, rst := 0 }
def DDR_LOG_STATUS_COUNT : Fld := { code := 405, lo := 0, len := 7, acc := .ro, rst := 0 }
-- DDR_LOG_LOST
def DDR_LOG_LOST_SAT : Fld := { code := 406, lo := 31, len := 1, acc := .w1c, rst := 0 }
def DDR_LOG_LOST_COUNT : Fld := { code := 407, lo := 0, len := 31, acc := .ro, rst := 0 }
-- DDR_LOG_SEL
def DDR_LOG_SEL_INDEX : Fld := { code := 408, lo := 0, len := 6, acc := .rw, rst := 0 }
-- DDR_LOG_DATA
def DDR_LOG_DATA_DATA : Fld := { code := 409, lo := 0, len := 32, acc := .ro, rst := 0 }
-- ARB_CTRL
def ARB_CTRL_WATCHDOG : Fld := { code := 410, lo := 0, len := 20, acc := .rw, rst := 65536 }
-- ARB_EVENT
def ARB_EVENT_WRAP : Fld := { code := 411, lo := 16, len := 12, acc := .w1c, rst := 0 }
def ARB_EVENT_WATCHDOG : Fld := { code := 412, lo := 0, len := 12, acc := .w1c, rst := 0 }
-- ARB_REQ_CFG
def ARB_REQ_CFG_EN : Fld := { code := 413, lo := 31, len := 1, acc := .rw, rst := 1 }
def ARB_REQ_CFG_WEIGHT : Fld := { code := 414, lo := 0, len := 4, acc := .rw, rst := 1 }
-- ARB_GRANTS_LO
def ARB_GRANTS_LO_COUNT : Fld := { code := 415, lo := 0, len := 32, acc := .ro, rst := 0 }
-- ARB_GRANTS_HI
def ARB_GRANTS_HI_COUNT : Fld := { code := 416, lo := 0, len := 32, acc := .ro, rst := 0 }
-- ARB_WAITS_LO
def ARB_WAITS_LO_COUNT : Fld := { code := 417, lo := 0, len := 32, acc := .ro, rst := 0 }
-- ARB_WAITS_HI
def ARB_WAITS_HI_COUNT : Fld := { code := 418, lo := 0, len := 32, acc := .ro, rst := 0 }
-- ARB_MAXWAIT
def ARB_MAXWAIT_FCLK : Fld := { code := 419, lo := 0, len := 16, acc := .rc, rst := 0 }
-- LANE_CFG
def LANE_CFG_EN : Fld := { code := 420, lo := 31, len := 1, acc := .rw, rst := 0, byInst := true }
def LANE_CFG_FUNC : Fld := { code := 421, lo := 24, len := 3, acc := .rw, rst := 0, byInst := true }
def LANE_CFG_PORT : Fld := { code := 422, lo := 16, len := 6, acc := .rw, rst := 0 }
def LANE_CFG_PORT_LANE : Fld := { code := 423, lo := 12, len := 2, acc := .rw, rst := 0 }
def LANE_CFG_RX_INV : Fld := { code := 424, lo := 9, len := 1, acc := .rw, rst := 0 }
def LANE_CFG_TX_INV : Fld := { code := 425, lo := 8, len := 1, acc := .rw, rst := 0 }
def LANE_CFG_RATE : Fld := { code := 426, lo := 0, len := 2, acc := .rw, rst := 3 }
-- LANE_TX
def LANE_TX_AMP : Fld := { code := 427, lo := 4, len := 2, acc := .rw, rst := 2 }
def LANE_TX_DEEMPH : Fld := { code := 428, lo := 0, len := 3, acc := .rw, rst := 0 }
-- LANE_RX
def LANE_RX_PEAK_FIXED : Fld := { code := 429, lo := 8, len := 1, acc := .rw, rst := 0 }
def LANE_RX_PEAK : Fld := { code := 430, lo := 0, len := 4, acc := .rw, rst := 8 }
-- LANE_STATUS
def LANE_STATUS_CDR_OFS : Fld := { code := 431, lo := 18, len := 6, acc := .ro, rst := 0 }
def LANE_STATUS_PEAK_NOW : Fld := { code := 432, lo := 12, len := 4, acc := .ro, rst := 8 }
def LANE_STATUS_PRBS_LOCK : Fld := { code := 433, lo := 4, len := 1, acc := .ro, rst := 0 }
def LANE_STATUS_CAL : Fld := { code := 434, lo := 3, len := 1, acc := .ro, rst := 0 }
def LANE_STATUS_SYNC : Fld := { code := 435, lo := 2, len := 1, acc := .ro, rst := 0 }
def LANE_STATUS_CDR_LOCK : Fld := { code := 436, lo := 1, len := 1, acc := .ro, rst := 0 }
def LANE_STATUS_SIGNAL : Fld := { code := 437, lo := 0, len := 1, acc := .ro, rst := 0 }
-- LANE_EVENT
def LANE_EVENT_CONFLICT : Fld := { code := 438, lo := 4, len := 1, acc := .w1c, rst := 0 }
def LANE_EVENT_CAL_ABORT : Fld := { code := 439, lo := 3, len := 1, acc := .w1c, rst := 0 }
def LANE_EVENT_CAL_DONE : Fld := { code := 440, lo := 2, len := 1, acc := .w1c, rst := 0 }
def LANE_EVENT_SYNC_LOSS : Fld := { code := 441, lo := 1, len := 1, acc := .w1c, rst := 0 }
def LANE_EVENT_LOS : Fld := { code := 442, lo := 0, len := 1, acc := .w1c, rst := 0 }
-- LANE_CNT
def LANE_CNT_COUNT : Fld := { code := 443, lo := 0, len := 32, acc := .ro, rst := 0 }
-- LANE_CNT_SAT
def LANE_CNT_SAT_SAT : Fld := { code := 444, lo := 0, len := 4, acc := .w1c, rst := 0 }
-- LANE_PRBS
def LANE_PRBS_CHK : Fld := { code := 445, lo := 3, len := 1, acc := .rw, rst := 0 }
def LANE_PRBS_GEN : Fld := { code := 446, lo := 2, len := 1, acc := .rw, rst := 0 }
def LANE_PRBS_PATTERN : Fld := { code := 447, lo := 0, len := 1, acc := .rw, rst := 0 }
-- ING_CTRL
def ING_CTRL_EN : Fld := { code := 448, lo := 31, len := 1, acc := .rw, rst := 0 }
def ING_CTRL_LEADER : Fld := { code := 449, lo := 30, len := 1, acc := .rw, rst := 0 }
def ING_CTRL_MODE : Fld := { code := 450, lo := 28, len := 2, acc := .rw, rst := 0 }
def ING_CTRL_WALL : Fld := { code := 451, lo := 16, len := 8, acc := .rw, rst := 0 }
def ING_CTRL_LANES : Fld := { code := 452, lo := 0, len := 2, acc := .rw, rst := 2 }
-- ING_REGION_POS
def ING_REGION_POS_Y_OFF : Fld := { code := 453, lo := 16, len := 16, acc := .rw, rst := 0 }
def ING_REGION_POS_X_OFF : Fld := { code := 454, lo := 0, len := 16, acc := .rw, rst := 0 }
-- ING_REGION_SIZE
def ING_REGION_SIZE_HEIGHT : Fld := { code := 455, lo := 16, len := 16, acc := .rw, rst := 0 }
def ING_REGION_SIZE_WIDTH : Fld := { code := 456, lo := 0, len := 16, acc := .rw, rst := 0 }
-- ING_STATUS
def ING_STATUS_LINK : Fld := { code := 457, lo := 31, len := 1, acc := .ro, rst := 0 }
def ING_STATUS_ALIGNED : Fld := { code := 458, lo := 30, len := 1, acc := .ro, rst := 0 }
def ING_STATUS_IN_PICTURE : Fld := { code := 459, lo := 29, len := 1, acc := .ro, rst := 0 }
def ING_STATUS_LINE : Fld := { code := 460, lo := 0, len := 14, acc := .ro, rst := 0 }
-- ING_PICTURE
def ING_PICTURE_SRC_PICTURE : Fld := { code := 461, lo := 16, len := 16, acc := .ro, rst := 0 }
def ING_PICTURE_WALL_PICTURE : Fld := { code := 462, lo := 0, len := 16, acc := .ro, rst := 0 }
-- ING_CLOSE
def ING_CLOSE_US : Fld := { code := 463, lo := 0, len := 16, acc := .rw, rst := 50 }
-- ING_CNT
def ING_CNT_COUNT : Fld := { code := 464, lo := 0, len := 32, acc := .ro, rst := 0 }
-- ING_CNT_SAT
def ING_CNT_SAT_SAT : Fld := { code := 465, lo := 0, len := 8, acc := .w1c, rst := 0 }
-- ING_EVENT
def ING_EVENT_CLOSED : Fld := { code := 466, lo := 3, len := 1, acc := .w1c, rst := 0 }
def ING_EVENT_LOSS : Fld := { code := 467, lo := 2, len := 1, acc := .w1c, rst := 0 }
def ING_EVENT_ERROR : Fld := { code := 468, lo := 1, len := 1, acc := .w1c, rst := 0 }
def ING_EVENT_PICTURE_END : Fld := { code := 469, lo := 0, len := 1, acc := .w1c, rst := 0 }
-- INTC_GLOBAL
def INTC_GLOBAL_MASTER_EN : Fld := { code := 470, lo := 0, len := 1, acc := .rw, rst := 0 }
-- INTC_SPURIOUS_WAKE
def INTC_SPURIOUS_WAKE_COUNT : Fld := { code := 471, lo := 0, len := 32, acc := .ro, rst := 0 }
-- INTC_WAKE_CAUSE
def INTC_WAKE_CAUSE_VALID : Fld := { code := 472, lo := 31, len := 1, acc := .w1c, rst := 0 }
def INTC_WAKE_CAUSE_SOURCE : Fld := { code := 473, lo := 0, len := 10, acc := .ro, rst := 0 }
-- INTC_CNT_SAT
def INTC_CNT_SAT_SPURIOUS_WAKE_SAT : Fld := { code := 474, lo := 0, len := 1, acc := .w1c, rst := 0 }
-- INTC_ROUTE
def INTC_ROUTE_EN : Fld := { code := 475, lo := 31, len := 1, acc := .rw, rst := 0 }
def INTC_ROUTE_WAKE_EN : Fld := { code := 476, lo := 30, len := 1, acc := .rw, rst := 0 }
def INTC_ROUTE_TARGET : Fld := { code := 477, lo := 16, len := 2, acc := .rw, rst := 0 }
def INTC_ROUTE_VECTOR : Fld := { code := 478, lo := 8, len := 5, acc := .rw, rst := 0, byInst := true }
def INTC_ROUTE_LEVEL : Fld := { code := 479, lo := 2, len := 1, acc := .ro, rst := 0 }
def INTC_ROUTE_CLAIMED : Fld := { code := 480, lo := 1, len := 1, acc := .ro, rst := 0 }
def INTC_ROUTE_PENDING : Fld := { code := 481, lo := 0, len := 1, acc := .ro, rst := 0 }
-- INTC_LEVEL
def INTC_LEVEL_BITS : Fld := { code := 482, lo := 0, len := 32, acc := .ro, rst := 0 }
-- INTC_PENDING
def INTC_PENDING_BITS : Fld := { code := 483, lo := 0, len := 32, acc := .ro, rst := 0 }
-- INTC_SW_SET_LO
def INTC_SW_SET_LO_LEVEL : Fld := { code := 484, lo := 0, len := 32, acc := .w1s, rst := 0 }
-- INTC_SW_SET_HI
def INTC_SW_SET_HI_LEVEL : Fld := { code := 485, lo := 0, len := 32, acc := .w1s, rst := 0 }
-- INTC_SW_CLR_LO
def INTC_SW_CLR_LO_LEVEL : Fld := { code := 486, lo := 0, len := 32, acc := .w1c, rst := 0 }
-- INTC_SW_CLR_HI
def INTC_SW_CLR_HI_LEVEL : Fld := { code := 487, lo := 0, len := 32, acc := .w1c, rst := 0 }
-- INTC_TGT_CTRL
def INTC_TGT_CTRL_EN : Fld := { code := 488, lo := 0, len := 1, acc := .rw, rst := 0 }
-- INTC_CLAIM
def INTC_CLAIM_LEVEL : Fld := { code := 489, lo := 31, len := 1, acc := .ro, rst := 0 }
def INTC_CLAIM_SOURCE : Fld := { code := 490, lo := 0, len := 10, acc := .ro, rst := 0 }
-- INTC_COMPLETE
def INTC_COMPLETE_SOURCE : Fld := { code := 491, lo := 0, len := 10, acc := .wo, rst := 0 }
-- INTC_TGT_STATUS
def INTC_TGT_STATUS_FULL : Fld := { code := 492, lo := 17, len := 1, acc := .w1c, rst := 0 }
def INTC_TGT_STATUS_ORDER_ERR : Fld := { code := 493, lo := 16, len := 1, acc := .w1c, rst := 0 }
def INTC_TGT_STATUS_ASLEEP : Fld := { code := 494, lo := 9, len := 1, acc := .ro, rst := 0 }
def INTC_TGT_STATUS_SIGNAL : Fld := { code := 495, lo := 8, len := 1, acc := .ro, rst := 0 }
def INTC_TGT_STATUS_DEPTH : Fld := { code := 496, lo := 0, len := 4, acc := .ro, rst := 0 }
-- INTC_STACK
def INTC_STACK_SOURCE : Fld := { code := 497, lo := 0, len := 10, acc := .ro, rst := 0 }
-- INTC_TGT_CNT
def INTC_TGT_CNT_COUNT : Fld := { code := 498, lo := 0, len := 32, acc := .ro, rst := 0 }
-- INTC_TGT_CNT_SAT
def INTC_TGT_CNT_SAT_SAT : Fld := { code := 499, lo := 0, len := 3, acc := .w1c, rst := 0 }
-- INTC_CLAIM_S
def INTC_CLAIM_S_LEVEL : Fld := { code := 500, lo := 31, len := 1, acc := .ro, rst := 0 }
def INTC_CLAIM_S_SOURCE : Fld := { code := 501, lo := 0, len := 10, acc := .ro, rst := 0 }
-- INTC_COMPLETE_S
def INTC_COMPLETE_S_SOURCE : Fld := { code := 502, lo := 0, len := 10, acc := .wo, rst := 0 }
-- FLT_STATUS
def FLT_STATUS_FATAL : Fld := { code := 503, lo := 31, len := 1, acc := .ro, rst := 0 }
def FLT_STATUS_FATAL_SRC : Fld := { code := 504, lo := 16, len := 8, acc := .ro, rst := 0 }
def FLT_STATUS_CP_RESTARTED : Fld := { code := 505, lo := 8, len := 1, acc := .w1c, rst := 0 }
def FLT_STATUS_SUMMARY : Fld := { code := 506, lo := 0, len := 8, acc := .ro, rst := 0 }
-- FLT_SAFE_LO
def FLT_SAFE_LO_PORTS : Fld := { code := 507, lo := 0, len := 32, acc := .w1c, rst := 0 }
-- FLT_SAFE_HI
def FLT_SAFE_HI_PORTS : Fld := { code := 508, lo := 0, len := 32, acc := .w1c, rst := 0 }
-- FLT_SAFE_KIND_LO
def FLT_SAFE_KIND_LO_HOLD : Fld := { code := 509, lo := 0, len := 32, acc := .rw, rst := 0 }
-- FLT_SAFE_KIND_HI
def FLT_SAFE_KIND_HI_HOLD : Fld := { code := 510, lo := 0, len := 32, acc := .rw, rst := 0 }
-- FLT_WDOG
def FLT_WDOG_EN : Fld := { code := 511, lo := 31, len := 1, acc := .rw, rst := 0 }
def FLT_WDOG_KICK : Fld := { code := 512, lo := 30, len := 1, acc := .wo, rst := 0 }
def FLT_WDOG_PERIOD_MS : Fld := { code := 513, lo := 0, len := 16, acc := .rw, rst := 100 }
-- FLT_CP_RESTARTS
def FLT_CP_RESTARTS_COUNT : Fld := { code := 514, lo := 0, len := 32, acc := .ro, rst := 0 }
-- FLT_CNT_SAT_LO
def FLT_CNT_SAT_LO_SAT : Fld := { code := 515, lo := 0, len := 32, acc := .w1c, rst := 0 }
-- FLT_CNT_SAT_HI
def FLT_CNT_SAT_HI_SAT : Fld := { code := 516, lo := 0, len := 32, acc := .w1c, rst := 0 }
-- FLT_SRC_CFG
def FLT_SRC_CFG_LOG : Fld := { code := 517, lo := 31, len := 1, acc := .rw, rst := 0, byInst := true }
def FLT_SRC_CFG_ESC_FATAL : Fld := { code := 518, lo := 30, len := 1, acc := .rw, rst := 0, byInst := true }
def FLT_SRC_CFG_ESC_SAFE : Fld := { code := 519, lo := 29, len := 1, acc := .rw, rst := 0, byInst := true }
def FLT_SRC_CFG_SCOPE : Fld := { code := 520, lo := 28, len := 1, acc := .rw, rst := 0, byInst := true }
def FLT_SRC_CFG_REACTION : Fld := { code := 521, lo := 26, len := 2, acc := .rw, rst := 0, byInst := true }
def FLT_SRC_CFG_CLASS : Fld := { code := 522, lo := 24, len := 2, acc := .rw, rst := 0, byInst := true }
def FLT_SRC_CFG_UNIT : Fld := { code := 523, lo := 12, len := 1, acc := .rw, rst := 0, byInst := true }
def FLT_SRC_CFG_VAL : Fld := { code := 524, lo := 0, len := 10, acc := .rw, rst := 0, byInst := true }
-- FLT_SRC_STATUS
def FLT_SRC_STATUS_ACTIVE : Fld := { code := 525, lo := 31, len := 1, acc := .w1c, rst := 0 }
def FLT_SRC_STATUS_GRACE : Fld := { code := 526, lo := 30, len := 1, acc := .ro, rst := 0 }
def FLT_SRC_STATUS_EXPIRED : Fld := { code := 527, lo := 29, len := 1, acc := .w1c, rst := 0 }
def FLT_SRC_STATUS_INSTANCE : Fld := { code := 528, lo := 0, len := 16, acc := .ro, rst := 0 }
-- FLT_SRC_COUNT
def FLT_SRC_COUNT_COUNT : Fld := { code := 529, lo := 0, len := 32, acc := .ro, rst := 0 }
-- FLT_SRC_ACK
def FLT_SRC_ACK_ACK : Fld := { code := 530, lo := 0, len := 1, acc := .wo, rst := 0 }
-- EVT_HEAD
def EVT_HEAD_SEQ : Fld := { code := 531, lo := 0, len := 32, acc := .ro, rst := 0 }
-- EVT_TAIL
def EVT_TAIL_SEQ : Fld := { code := 532, lo := 0, len := 32, acc := .rw, rst := 0 }
-- EVT_LOST
def EVT_LOST_COUNT : Fld := { code := 533, lo := 0, len := 32, acc := .ro, rst := 0 }
-- EVT_STATUS
def EVT_STATUS_LOST_SAT : Fld := { code := 534, lo := 2, len := 1, acc := .w1c, rst := 0 }
def EVT_STATUS_LOST_NEW : Fld := { code := 535, lo := 1, len := 1, acc := .w1c, rst := 0 }
def EVT_STATUS_NEAR_FULL : Fld := { code := 536, lo := 0, len := 1, acc := .ro, rst := 0 }
-- EVT_SEL
def EVT_SEL_INDEX : Fld := { code := 537, lo := 0, len := 12, acc := .rw, rst := 0 }
-- EVT_DATA
def EVT_DATA_DATA : Fld := { code := 538, lo := 0, len := 32, acc := .ro, rst := 0 }
-- CLK_STATUS
def CLK_STATUS_LANE_LOCK : Fld := { code := 539, lo := 16, len := 16, acc := .ro, rst := 0 }
def CLK_STATUS_CORE_LOCK : Fld := { code := 540, lo := 0, len := 1, acc := .ro, rst := 0, byInst := true }
-- CLK_TB_LO
def CLK_TB_LO_TIME : Fld := { code := 541, lo := 0, len := 32, acc := .ro, rst := 0 }
-- CLK_TB_HI
def CLK_TB_HI_TIME : Fld := { code := 542, lo := 0, len := 32, acc := .ro, rst := 0 }
-- CLK_TB_TRIM
def CLK_TB_TRIM_PPB : Fld := { code := 543, lo := 0, len := 32, acc := .rw, rst := 0 }
-- CLK_TB_STEP_LO
def CLK_TB_STEP_LO_STEP : Fld := { code := 544, lo := 0, len := 32, acc := .wo, rst := 0 }
-- CLK_TB_STEP_HI
def CLK_TB_STEP_HI_STEP : Fld := { code := 545, lo := 0, len := 32, acc := .wo, rst := 0 }
-- CLK_STEP_REFUSED
def CLK_STEP_REFUSED_COUNT : Fld := { code := 546, lo := 0, len := 32, acc := .ro, rst := 0 }
-- CLK_EVENT
def CLK_EVENT_REFUSED_SAT : Fld := { code := 547, lo := 31, len := 1, acc := .w1c, rst := 0 }
def CLK_EVENT_PTP_LOCKED : Fld := { code := 548, lo := 2, len := 1, acc := .ro, rst := 0 }
def CLK_EVENT_PTP_STATE : Fld := { code := 549, lo := 1, len := 1, acc := .w1c, rst := 0 }
def CLK_EVENT_STEP_REFUSED : Fld := { code := 550, lo := 0, len := 1, acc := .w1c, rst := 0 }
-- PWR_STATUS
def PWR_STATUS_STAGE : Fld := { code := 551, lo := 8, len := 4, acc := .ro, rst := 0 }
def PWR_STATUS_STATE : Fld := { code := 552, lo := 0, len := 2, acc := .ro, rst := 0 }
-- PWR_SETPOINT
def PWR_SETPOINT_CMD_MV : Fld := { code := 553, lo := 16, len := 16, acc := .ro, rst := 750 }
def PWR_SETPOINT_REF_MV : Fld := { code := 554, lo := 0, len := 16, acc := .ro, rst := 750 }
-- PWR_SHED_THR
def PWR_SHED_THR_OFFSET : Fld := { code := 555, lo := 0, len := 8, acc := .rw, rst := 0 }
-- PWR_VMIN
def PWR_VMIN_MV : Fld := { code := 556, lo := 0, len := 16, acc := .rc, rst := 65535 }
-- PWR_TEMP
def PWR_TEMP_TJ : Fld := { code := 557, lo := 0, len := 16, acc := .ro, rst := 0 }
-- PWR_THERM
def PWR_THERM_WARN : Fld := { code := 558, lo := 0, len := 8, acc := .rw, rst := 105 }
-- PWR_PMBUS
def PWR_PMBUS_VOUT_EXP : Fld := { code := 559, lo := 8, len := 5, acc := .rw, rst := 23 }
def PWR_PMBUS_ADDR : Fld := { code := 560, lo := 0, len := 7, acc := .rw, rst := 64 }
-- PWR_WAKE
def PWR_WAKE_SECONDS : Fld := { code := 561, lo := 0, len := 32, acc := .rw, rst := 0 }
-- PWR_EVENT
def PWR_EVENT_RAIL : Fld := { code := 562, lo := 3, len := 1, acc := .w1c, rst := 0 }
def PWR_EVENT_THERM : Fld := { code := 563, lo := 2, len := 1, acc := .w1c, rst := 0 }
def PWR_EVENT_PMBUS_ERR : Fld := { code := 564, lo := 1, len := 1, acc := .w1c, rst := 0 }
def PWR_EVENT_SHED : Fld := { code := 565, lo := 0, len := 1, acc := .w1c, rst := 0 }
-- CAL_STATUS
def CAL_STATUS_DONE : Fld := { code := 566, lo := 31, len := 1, acc := .w1c, rst := 0 }
def CAL_STATUS_BUSY : Fld := { code := 567, lo := 30, len := 1, acc := .ro, rst := 0 }
def CAL_STATUS_LANE : Fld := { code := 568, lo := 0, len := 6, acc := .ro, rst := 0 }
-- CAL_SCHED
def CAL_SCHED_TEMP_DELTA : Fld := { code := 569, lo := 16, len := 8, acc := .rw, rst := 8 }
def CAL_SCHED_PERIOD_S : Fld := { code := 570, lo := 0, len := 16, acc := .rw, rst := 10 }
-- TMR_CTRL
def TMR_CTRL_PERIODIC : Fld := { code := 571, lo := 1, len := 1, acc := .rw, rst := 0 }
def TMR_CTRL_EN : Fld := { code := 572, lo := 0, len := 1, acc := .rw, rst := 0 }
-- TMR_CMP_LO
def TMR_CMP_LO_CMP : Fld := { code := 573, lo := 0, len := 32, acc := .rw, rst := 0 }
-- TMR_CMP_HI
def TMR_CMP_HI_CMP : Fld := { code := 574, lo := 0, len := 32, acc := .rw, rst := 0 }
-- TMR_PERIOD
def TMR_PERIOD_NS : Fld := { code := 575, lo := 0, len := 32, acc := .rw, rst := 1000 }
-- TMR_STATUS
def TMR_STATUS_EXPIRED : Fld := { code := 576, lo := 31, len := 1, acc := .w1c, rst := 0 }
def TMR_STATUS_OVERRUN : Fld := { code := 577, lo := 0, len := 16, acc := .rc, rst := 0 }
-- SEC_STATUS
def SEC_STATUS_LOCKOUT : Fld := { code := 578, lo := 7, len := 1, acc := .ro, rst := 0 }
def SEC_STATUS_TAMPERED : Fld := { code := 579, lo := 6, len := 1, acc := .ro, rst := 0 }
def SEC_STATUS_KWK_OK : Fld := { code := 580, lo := 5, len := 1, acc := .ro, rst := 0, byInst := true }
def SEC_STATUS_ID_OK : Fld := { code := 581, lo := 4, len := 1, acc := .ro, rst := 0, byInst := true }
def SEC_STATUS_REVOKE0 : Fld := { code := 582, lo := 3, len := 1, acc := .ro, rst := 0, byInst := true }
def SEC_STATUS_LC_STATE : Fld := { code := 583, lo := 0, len := 3, acc := .ro, rst := 0, byInst := true }
-- SEC_BLOCK_WORLD
def SEC_BLOCK_WORLD_LOCK : Fld := { code := 584, lo := 31, len := 1, acc := .w1s, rst := 0 }
def SEC_BLOCK_WORLD_WORLD : Fld := { code := 585, lo := 4, len := 22, acc := .rwl, rst := 0 }
def SEC_BLOCK_WORLD_WORLD1 : Fld := { code := 586, lo := 1, len := 1, acc := .rwl, rst := 0 }
def SEC_BLOCK_WORLD_FIXED : Fld := { code := 587, lo := 2, len := 2, acc := .ro, rst := 3 }
-- SEC_WORLD_DENIED
def SEC_WORLD_DENIED_COUNT : Fld := { code := 588, lo := 0, len := 32, acc := .ro, rst := 0 }
-- SEC_REGION_DENIED
def SEC_REGION_DENIED_COUNT : Fld := { code := 589, lo := 0, len := 32, acc := .ro, rst := 0 }
-- SEC_DENY_ADDR_LO
def SEC_DENY_ADDR_LO_ADDR : Fld := { code := 590, lo := 0, len := 32, acc := .ro, rst := 0 }
-- SEC_DENY_ADDR_HI
def SEC_DENY_ADDR_HI_ADDR : Fld := { code := 591, lo := 0, len := 32, acc := .ro, rst := 0 }
-- SEC_GCM_FAIL
def SEC_GCM_FAIL_COUNT : Fld := { code := 592, lo := 0, len := 32, acc := .ro, rst := 0 }
-- SEC_EVENT
def SEC_EVENT_SAT : Fld := { code := 593, lo := 4, len := 3, acc := .w1c, rst := 0 }
def SEC_EVENT_KEY_EXHAUSTED : Fld := { code := 594, lo := 3, len := 1, acc := .w1c, rst := 0 }
def SEC_EVENT_GCM_FAIL : Fld := { code := 595, lo := 2, len := 1, acc := .w1c, rst := 0 }
def SEC_EVENT_REGION_DENIED : Fld := { code := 596, lo := 1, len := 1, acc := .w1c, rst := 0 }
def SEC_EVENT_WORLD_DENIED : Fld := { code := 597, lo := 0, len := 1, acc := .w1c, rst := 0 }
-- SEC_TAMPER_CFG
def SEC_TAMPER_CFG_LOCKOUT : Fld := { code := 598, lo := 24, len := 8, acc := .rw, rst := 0 }
def SEC_TAMPER_CFG_POL : Fld := { code := 599, lo := 16, len := 4, acc := .rw, rst := 0 }
def SEC_TAMPER_CFG_EN : Fld := { code := 600, lo := 0, len := 8, acc := .rw, rst := 0 }
-- SEC_TAMPER_STATUS
def SEC_TAMPER_STATUS_COUNT : Fld := { code := 601, lo := 16, len := 16, acc := .ro, rst := 0 }
def SEC_TAMPER_STATUS_TAMPERED : Fld := { code := 602, lo := 8, len := 1, acc := .w1c, rst := 0 }
def SEC_TAMPER_STATUS_TRIPPED : Fld := { code := 603, lo := 0, len := 8, acc := .w1c, rst := 0 }
-- SEC_REGION_BASE
def SEC_REGION_BASE_PAGE : Fld := { code := 604, lo := 0, len := 28, acc := .rw, rst := 0 }
-- SEC_REGION_LIMIT
def SEC_REGION_LIMIT_PAGE : Fld := { code := 605, lo := 0, len := 28, acc := .rw, rst := 0 }
-- SEC_REGION_ATTR
def SEC_REGION_ATTR_EN : Fld := { code := 606, lo := 31, len := 1, acc := .rw, rst := 0 }
def SEC_REGION_ATTR_WORLD : Fld := { code := 607, lo := 30, len := 1, acc := .rw, rst := 0 }
def SEC_REGION_ATTR_LOCK : Fld := { code := 608, lo := 29, len := 1, acc := .w1s, rst := 0 }
def SEC_REGION_ATTR_WR : Fld := { code := 609, lo := 12, len := 12, acc := .rw, rst := 0 }
def SEC_REGION_ATTR_RD : Fld := { code := 610, lo := 0, len := 12, acc := .rw, rst := 0 }
-- SPD_CTRL
def SPD_CTRL_CAUSE : Fld := { code := 611, lo := 4, len := 4, acc := .w1c, rst := 0 }
def SPD_CTRL_BUSY : Fld := { code := 612, lo := 1, len := 1, acc := .ro, rst := 0 }
def SPD_CTRL_WIPE : Fld := { code := 613, lo := 0, len := 1, acc := .wo, rst := 0 }
-- SPD_CE
def SPD_CE_COUNT : Fld := { code := 614, lo := 0, len := 32, acc := .ro, rst := 0 }
-- DRS_CNT_SAT
def DRS_CNT_SAT_SAT : Fld := { code := 615, lo := 0, len := 1, acc := .w1c, rst := 0 }
end F

/-- The reset values that depend on the instance, by field code. -/
def instReset (code i : Nat) : Nat :=
  match code with
  | 11 => 0   -- PCIE_F1_CTRL_F1_PRESENT
  | 21 => 0   -- GLB_BOOT_STATUS_LC_STATE
  | 38 => 0   -- GLB_UID_LO_UID
  | 39 => 0   -- GLB_UID_HI_UID
  | 143 => 0x0B00   -- HWR_ROM_VERSION_VERSION
  | 238 => 0   -- HAUL_DEFAULT_LO_ACTION
  | 239 => 0x80000000   -- HAUL_DEFAULT_HI_ACTION
  | 240 => 0   -- HAUL_PTP_LAT_RX_Q
  | 241 => 0   -- HAUL_PTP_LAT_TX_Q
  | 297 => 65520   -- BPM_FREE_SRAM_COUNT
  | 298 => 0   -- BPM_FREE_DRAM_COUNT
  | 328 => if i % 64 < 4 then 65536 else 1048576   -- TMG_Q_DEPTH_MAX_BYTES
  | 329 => if i % 64 < 4 then 32768 else 524288   -- TMG_Q_YELLOW_MAX_BYTES
  | 371 => 0   -- DDR_TIMING_VAL_ACTIVE
  | 372 => 0   -- DDR_TIMING_VAL_VALUE
  | 420 => if 60 ≤ i then 1 else 0   -- LANE_CFG_EN
  | 421 => if 60 ≤ i then 4 else 0   -- LANE_CFG_FUNC
  | 478 => i >>> 5   -- INTC_ROUTE_VECTOR
  | 517 => if i = 3 ∨ i = 16 ∨ i = 17 ∨ i = 26 ∨ i = 28 ∨ i = 30 ∨ 35 ≤ i then 0 else 1   -- FLT_SRC_CFG_LOG
  | 518 => 0   -- FLT_SRC_CFG_ESC_FATAL
  | 519 => if i = 7 ∨ i = 25 then 1 else 0   -- FLT_SRC_CFG_ESC_SAFE
  | 520 => if i = 25 then 1 else 0   -- FLT_SRC_CFG_SCOPE
  | 521 => if i = 2 ∨ i = 4 then 3 else if i = 7 ∨ i = 25 then 2 else 0   -- FLT_SRC_CFG_REACTION
  | 522 => if i = 1 ∨ i = 5 ∨ i = 8 ∨ i = 21 ∨ i = 34 then 2 else if i = 3 ∨ i = 16 ∨ i = 17 ∨ i = 26 ∨ i = 28 ∨ i = 30 ∨ 35 ≤ i then 0 else 1   -- FLT_SRC_CFG_CLASS
  | 523 => if i = 7 ∨ i = 25 then 1 else 0   -- FLT_SRC_CFG_UNIT
  | 524 => if i = 7 then 1000 else 1   -- FLT_SRC_CFG_VAL
  | 540 => 1   -- CLK_STATUS_CORE_LOCK
  | 580 => 0   -- SEC_STATUS_KWK_OK
  | 581 => 0   -- SEC_STATUS_ID_OK
  | 582 => 0   -- SEC_STATUS_REVOKE0
  | 583 => 0   -- SEC_STATUS_LC_STATE
  | _ => 0

/-- The reset value of a field (R11). -/
def Fld.reset (F : Fld) (i : Nat) : Nat := if F.byInst then instReset F.code i else F.rst

end Sys2Proof.Machine
end

