-- ==== Sys2Proof/Syntax.lean ====
section
/-! DEFINITION. The commands of the block: one constructor for each row of the table of operations and events. -/

namespace Sys2Proof

/-- Who makes an access to the register space: the originators of R399. -/
inductive Origin where
  | f0    -- PCIe function 0
  | f1    -- PCIe function 1
  | cpS   -- control processor, secure core, and the commands of MBX8 to MBX11
  | cpN   -- control processor, normal core, and the commands of MBX12 to MBX15
  | debug -- debug port
deriving DecidableEq, Repr

/-- A BAR2 access (R41): a read of a number of bytes, or a write of bytes, poisoned or not. -/
inductive Bar2Op where
  | read (len : Nat)
  | write (data : List Byte) (poisoned : Bool)
deriving DecidableEq, Repr

/-- How a beat of a riving fetch returns (R215, R216). -/
inductive BeatResp where
  | ok | error | poison
deriving DecidableEq, Repr

/-- A requester of pool buffers (R264, R270). -/
inductive Requester where
  | haul (p : Nat)
  | egress
  | cp
deriving DecidableEq, Repr

/-- What the check code finds in a burst that is read (R307). `device`: the failing device, 15 for two devices or unknown. -/
inductive EccResult where
  | clean
  | corrected (device : Nat)
  | uncorrectable (device : Nat)
deriving DecidableEq, Repr

def EccResult.isUncorrectable (e : EccResult) : Bool :=
  match e with
  | .uncorrectable _ => true
  | .clean | .corrected _ => false

/-- What the reads of an on-chip SRAM find during a command (R280, R359, R405). `k`: the strip whose LUT read it is, the 64-byte unit of the item, the place of the buffer in its chain, or the word of the copy in the scratchpad. -/
inductive SramRead where
  | clean
  | corrected (k : Nat)
  | uncorrectable (k : Nat)
deriving DecidableEq, Repr

/-- A fault of the control processor complex (R359, FSIDs 1 to 3). -/
inductive CpxFault where
  | none
  | lockstep
  | sramUncorrectable
  | sramCorrected
deriving DecidableEq, Repr

/-- The steps that passed in the sweeps of one byte lane of one rank (R303, R304), as passing step numbers. -/
structure LaneSweep where
  rank : Nat
  lane : Nat
  rd : List Nat
  wr : List Nat
deriving DecidableEq, Repr

/-- What CODE_ERR counts (R323, R324). -/
inductive CodeErrKind where
  | badGroup      -- a code group that is not in the 8b/10b tables
  | disparity     -- a running-disparity error
  | elastic       -- an overflow or underflow of the elastic buffer
  | controlIdle   -- a control character that the link leaves blank, between frames
  | controlFrame  -- the same inside a frame, which it ends as aborted
deriving DecidableEq, Repr

/-- The block modes of R90. -/
inductive BlockMode where
  | hold | inter | intra | bedrock | pcm | intraDcSkip
deriving DecidableEq, Repr

/-- The syntax elements of one block (R91 to R95). A list that the block does not carry is empty. -/
structure BlockElems where
  mode : BlockMode
  intraMode : Nat := 0
  bi : Bool := false
  ref0 : Nat := 0
  ref1 : Nat := 0
  mvd0 : Int × Int := (0, 0)
  mvd1 : Int × Int := (0, 0)
  bslot : Nat := 0
  /-- 0 is 4-point, 1 is 8-point, 2 is 16-point. -/
  tsize : Nat := 0
  /-- Levels by component, then by transform unit in raster order, each unit in scan order; an empty unit has no coefficients. -/
  levels : List (List (List Int)) := []
  /-- Corrections by component, then by 4 × 4 group in raster order; an empty group has GFLAG = 0. -/
  corr : List (List (List Int)) := []
  /-- PCM samples by component, in raster order. -/
  pcm : List (List Int) := []
deriving DecidableEq, Repr

/-- The work of *Reconstruction arithmetic* that a pixel-class microword completes. The control store's contents are not in the manual, so the word alone does not spell it. -/
inductive PixelWork where
  | none         -- no block is completed by this word
  | reconstruct  -- the block whose elements were parsed last gets its final samples (R107)
  | conceal      -- the block in progress is concealed (R172)
deriving DecidableEq, Repr

/-- The work of *Kryem Block Format* that a bitstream-class microword completes, as for `PixelWork`. -/
inductive BitWork where
  | none
  | parse                     -- the next segment, the next block or the slice's end is parsed
  | encode (b : BlockElems)   -- the next block is coded with the elements that the encoder chose (R126)
  | finish                    -- the trailer of the slice in encode is written
deriving DecidableEq, Repr

/-- What the code over 64-bit words of local memory finds in the words that a microword reads (R177). -/
inductive LmCheck where
  | clean
  | corrected
  | uncorrected
deriving DecidableEq, Repr

/-- What a microword does with local memory (R177): the lines of 64 bytes that ports A and B read, the line and the eight 64-bit words that the write port writes, and the check of what was read. The codes within LMA, LMB and LMW are not in the manual, so the word alone does not spell it. -/
structure LmUse where
  readA : Option Nat := none
  readB : Option Nat := none
  write : Option (Nat × List Nat) := none
  check : LmCheck := .clean
deriving DecidableEq, Repr

/-- A frame that firmware hands a lamp port (R219): CONTROL with its opaque payload, or BLANK with NOW = 0. The payloads are firmware's own, and the manual names no command that carries one. -/
inductive PortFrame where
  | control (receiver apply : Nat) (payload : List Byte)
  | blank (receiver apply : Nat)
deriving DecidableEq, Repr

/-- A command of the block: a row of opcode_table.json. An operand with a default is what comes with few of these commands; left out, nothing of the kind came (no second word, no loss of data, no use of local memory). -/
inductive Instr where
  -- Mailbox commands. Operand m: the mailbox (0 to 15) whose COMMAND area holds the command (R52).
  /-- GET_INFO (R56). -/
  | getInfo (m : Nat)
  /-- JOB_STATUS (R55). -/
  | jobStatus (m : Nat)
  /-- WALL_OPEN (R36). -/
  | wallOpen (m : Nat)
  /-- WALL_CLOSE (R37). -/
  | wallClose (m : Nat)
  /-- TILE_MAP_LOAD (R38). -/
  | tileMapLoad (m : Nat)
  /-- PLAY (R152). -/
  | play (m : Nat)
  /-- PAUSE (R152). -/
  | pause (m : Nat)
  /-- BRIGHTNESS_SET (R64). -/
  | brightnessSet (m : Nat)
  /-- SAFE_STATE_SET (R225). -/
  | safeStateSet (m : Nat)
  /-- CONTEXT_CREATE (R127). -/
  | contextCreate (m : Nat)
  /-- CONTEXT_DESTROY (R130). -/
  | contextDestroy (m : Nat)
  /-- CONTEXT_STATS (R153). -/
  | contextStats (m : Nat)
  /-- EFFORT_SET (R131). -/
  | effortSet (m : Nat)
  /-- BEDROCK_LOAD (R163). -/
  | bedrockLoad (m : Nat)
  /-- ROUTE_SET (R256). -/
  | routeSet (m : Nat)
  /-- RULE_COMMIT (R252). -/
  | ruleCommit (m : Nat)
  /-- HAUL_PORT_SET (R226). -/
  | haulPortSet (m : Nat)
  /-- INGRESS_SET (R340). -/
  | ingressSet (m : Nat)
  /-- LAMP_PORT_SET (R443). -/
  | lampPortSet (m : Nat)
  /-- DRESSING_LOAD (R209). -/
  | dressingLoad (m : Nat)
  /-- SCAN_MAP_LOAD (R205). -/
  | scanMapLoad (m : Nat)
  /-- UCODE_UPDATE (R194). -/
  | ucodeUpdate (m : Nat)
  /-- PTP_CONFIG (R379). -/
  | ptpConfig (m : Nat)
  /-- DEVICE_ADDRESS_SET (R35). -/
  | deviceAddressSet (m : Nat)
  /-- POWER_STATE_SET (R388). -/
  | powerStateSet (m : Nat)
  /-- CAL_SNAPSHOT (R394). -/
  | calSnapshot (m : Nat)
  /-- CAL_RESTORE (R395). -/
  | calRestore (m : Nat)
  /-- FW_STAGE (R65). -/
  | fwStage (m : Nat)
  /-- FW_VERIFY (R65). -/
  | fwVerify (m : Nat)
  /-- FW_ACTIVATE (R65). -/
  | fwActivate (m : Nat)
  /-- FW_CONFIRM (R65). -/
  | fwConfirm (m : Nat)
  /-- EVENT_READ (R373). -/
  | eventRead (m : Nat)
  /-- FAULT_CLEAR (R363). -/
  | faultClear (m : Nat)
  /-- ATTEST (R416). -/
  | attest (m : Nat)
  /-- KEY_LOAD (R418). -/
  | keyLoad (m : Nat)
  /-- LC_ADVANCE: R412, OP 0 of `LIFECYCLE_ADVANCE`. -/
  | lcAdvance (m : Nat)
  /-- GENERATE_ID: R411, OP 1. -/
  | generateId (m : Nat)
  /-- OTP_PROGRAM: R411, OP 2. -/
  | otpProgram (m : Nat)
  /-- OTP_LOCK: R411, OP 3. -/
  | otpLock (m : Nat)
  /-- REVOKE_KEY0: R411, OP 4. -/
  | revokeKey0 (m : Nat)
  /-- LC_RETURN: R412, OP 5. -/
  | lcReturn (m : Nat)
  /-- EXPERT_CHALLENGE (R59). -/
  | expertChallenge (m : Nat)
  /-- EXPERT_UNLOCK (R58). -/
  | expertUnlock (m : Nat)
  /-- EXPERT_LOCK (R58). -/
  | expertLock (m : Nat)
  /-- REG_READ (R59). -/
  | regRead (m : Nat)
  /-- REG_WRITE (R59). -/
  | regWrite (m : Nat)
  /-- HEWER_DRAIN (R191). -/
  | hewerDrain (m : Nat)
  /-- HEWER_PATCH (R192). -/
  | hewerPatch (m : Nat)
  /-- HEWER_SERVICE (R193). -/
  | hewerService (m : Nat)
  /-- RULE_STAGE (R243). -/
  | ruleStage (m : Nat)
  /-- METER_CONFIG (R283). -/
  | meterConfig (m : Nat)
  /-- SHAPER_CONFIG (R290). -/
  | shaperConfig (m : Nat)
  /-- QUEUE_WEIGHT_SET (R287). -/
  | queueWeightSet (m : Nat)
  /-- LANE_CONFIG (R331). -/
  | laneConfig (m : Nat)
  /-- LANE_RECAL (R328). -/
  | laneRecal (m : Nat)
  /-- DDR_RETRAIN (R306). -/
  | ddrRetrain (m : Nat)
  /-- DDR_TIMING_SET (R298). -/
  | ddrTimingSet (m : Nat)
  /-- RIV_CHANNEL_CONFIG (R64). -/
  | rivChannelConfig (m : Nat)
  /-- FAULT_REACTION_SET (R362). -/
  | faultReactionSet (m : Nat)
  /-- SHED_THRESHOLD_SET (R386). -/
  | shedThresholdSet (m : Nat)
  /-- SCH_PARAM_SET (R128). -/
  | schParamSet (m : Nat)
  /-- INTC_ROUTE_SET (R353). -/
  | intcRouteSet (m : Nat)
  /-- ROM_INFO (R49). -/
  | romInfo (m : Nat)
  /-- FLASH_READ (R49). -/
  | flashRead (m : Nat)
  /-- FLASH_ERASE (R49). -/
  | flashErase (m : Nat)
  /-- FLASH_WRITE (R49). -/
  | flashWrite (m : Nat)
  /-- ROM_RESET (R49). -/
  | romReset (m : Nat)
  -- Mailbox, semaphore and access events. Operand o: who makes the access (R399).
  /-- MBX_DOORBELL (R54). -/
  | mbxDoorbell (o : Origin) (n : Nat) (w : Word)
  /-- MBX_RESULT_ACK (R54). -/
  | mbxResultAck (o : Origin) (n : Nat) (w : Word)
  /-- MBX_RESULT_HEADER_READ: R53. `wide`: a 64-bit read. -/
  | mbxResultHeaderRead (o : Origin) (n : Nat) (wide : Bool)
  /-- JOB_DONE (R55). -/
  | jobDone (j : Nat) (ok : Bool)
  /-- SEM_LOCK_READ (R61). -/
  | semLockRead (o : Origin) (n : Nat)
  /-- SEM_RELEASE (R61). -/
  | semRelease (o : Origin) (n : Nat) (w : Word)
  /-- CLEAR_BROKEN (R62). -/
  | clearBroken (o : Origin) (n : Nat) (w : Word)
  /-- SEM_LEASE_EXPIRE (R62). -/
  | semLeaseExpire (n : Nat)
  /-- GLB_RESET (R44). -/
  | glbReset (o : Origin) (w : Word)
  /-- PCIE_BAR2_BASE_WRITE (R42). -/
  | pcieBar2BaseWrite (o : Origin) (f : Nat) (w : Word)
  /-- BAR2_ACCESS (R41). -/
  | bar2Access (f : Nat) (x : Nat) (a : Bar2Op)
  /-- REGISTER_WRITE: R12. `be`: the four byte enables. `hi`: the second word of a 64-bit write and its byte enables (R8). `poisoned`: the packet is poisoned (PCIE_ERR_STATUS). -/
  | registerWrite (o : Origin) (a : Nat) (w : Word) (be : Nat) (hi : Option (Word × Nat) := none) (poisoned : Bool := false)
  /-- COUNTER_LOW_READ (R9). -/
  | counterLowRead (o : Origin) (a : Nat) (wide : Bool)
  /-- SHADOW_ARM: R64. `a`: the register word that holds ARM. -/
  | shadowArm (o : Origin) (a : Nat) (w : Word)
  /-- SHADOW_CANCEL (R64). -/
  | shadowCancel (o : Origin) (a : Nat) (w : Word)
  -- Resets, boot and PCIe.
  /-- POWER_ON_RESET (R391). -/
  | powerOnReset
  /-- RESET_N (R391). -/
  | resetN
  /-- CLEARING_DONE (R392). -/
  | clearingDone
  /-- ROM_VERIFY_DONE (R48). -/
  | romVerifyDone
  /-- FW_READY (R50). -/
  | fwReady
  /-- CONFIRM_WINDOW_EXPIRE (R67). -/
  | confirmWindowExpire
  /-- HEARTBEAT_TICK (R43). `cpx`: the fault of the processor complex that the tick reports (R359). -/
  | heartbeatTick (cpx : CpxFault := .none)
  /-- REMOTE_SESSION_TIMEOUT (R236). -/
  | remoteSessionTimeout
  /-- PCIE_FUNCTION_RESET (R60). -/
  | pcieFunctionReset (f : Nat)
  /-- PCIE_PERST (R428). -/
  | pciePerst
  /-- PCIE_LINK_STATE_CHANGE (R355). -/
  | pcieLinkStateChange (pm ltssm speed width : Nat)
  /-- MSI_UNMASK (R355). -/
  | msiUnmask (f v : Nat)
  -- Lamp output.
  /-- SUBFRAME_SYNC (R199). -/
  | subframeSync (g : Nat)
  /-- SYNC_GAP_START (R200). -/
  | syncGapStart (g : Nat)
  /-- GRID_ENABLE (R397). -/
  | gridEnable (g : Nat)
  /-- BAND_START: R201. `ue`: the strip of the band whose LUT read returns uncorrectable data (R359, DRS_UE), if any. -/
  | bandStart (n : Nat) (e : SramRead)
  /-- RIV_BURST_ISSUE (R214). -/
  | rivBurstIssue (n : Nat)
  /-- RIV_BEAT_RESPONSE (R215). -/
  | rivBeatResponse (n : Nat) (r : BeatResp)
  /-- RIV_CH_CLEAR (R217). -/
  | rivChClear (o : Origin) (n : Nat) (w : Word)
  /-- LAMP_FRAME_SEND (R200, R219). `own`: the frame that firmware has for the port, if any. -/
  | lampFrameSend (n : Nat) (own : Option PortFrame := none)
  /-- LAMP_STATUS_RECEIVE: R219. `frame`: header, payload and CRC. -/
  | lampStatusReceive (n : Nat) (frame : List Byte)
  /-- BREAK_NOTICE_CONFIRM: R222. `d`: the D byte of eight identical notices. -/
  | breakNoticeConfirm (n : Nat) (d : Nat)
  /-- LAMP_RX_LOS: R220. `los`: the receiver lost code-group synchronisation; otherwise the far syncs stopped. -/
  | lampRxLos (n : Nat) (los : Bool)
  /-- DRS_LUT_DATA_ACCESS: R206. A write of `w`, or a read. -/
  | drsLutDataAccess (o : Origin) (w : Option Word)
  -- Scheduler, hewers and Stockpile.
  /-- SLICE_DISPATCH (R145). -/
  | sliceDispatch (h : Nat)
  /-- SLICE_COMPLETE (R147). -/
  | sliceComplete (h : Nat)
  /-- BEDROCK_UNIT_DISPATCH (R164). -/
  | bedrockUnitDispatch (h : Nat)
  /-- RECEPTION_TIMEOUT (R171). -/
  | receptionTimeout (c : Nat)
  /-- STALL_LIMIT_EXPIRE (R170). -/
  | stallLimitExpire (h : Nat)
  /-- PIXEL_WORD_ISSUE (R181). -/
  | pixelWordIssue (h : Nat) (k : PixelWork) (m : LmUse := {})
  /-- BITSTREAM_WORD_ISSUE (R181). -/
  | bitstreamWordIssue (h : Nat) (k : BitWork) (m : LmUse := {})
  /-- HEWER_WAIT_TIMEOUT (R182). -/
  | hewerWaitTimeout (h : Nat)
  /-- HEWER_TEST_DONE (R193). -/
  | hewerTestDone (h : Nat) (pass : Bool)
  /-- PATCH_LOAD_DONE (R192). -/
  | patchLoadDone (h : Nat) (e : SramRead := .clean)
  /-- HWR_DRAIN_SET (R191). -/
  | hwrDrainSet (o : Origin) (h : Nat) (w : Word)
  /-- HWR_DRAIN_CLEAR (R191). -/
  | hwrDrainClear (o : Origin) (h : Nat) (w : Word)
  /-- HWR_SERVICE_IN (R193). -/
  | hwrServiceIn (o : Origin) (h : Nat) (w : Word)
  /-- HWR_SERVICE_OUT (R193). -/
  | hwrServiceOut (o : Origin) (h : Nat) (w : Word)
  /-- HWR_PATCH_WRITE: R197. `off`: the offset in the hewer's window. -/
  | hwrPatchWrite (o : Origin) (h : Nat) (off : Nat) (w : Word)
  /-- STK_PIN_REQ (R159). -/
  | stkPinReq (o : Origin) (w : Word)
  /-- STK_UNPIN (R159). -/
  | stkUnpin (o : Origin) (w : Word)
  -- Haul, classifier, queues and traffic.
  /-- HAUL_FRAME_RECEIVE: R240. `frame`: the Ethernet frame, FCS included. -/
  | haulFrameReceive (p : Nat) (frame : List Byte)
  /-- HAUL_FRAME_END: R231. `lost`: the link was lost, or an error ended the frame. -/
  | haulFrameEnd (p : Nat) (lost : Bool)
  /-- CLEFT_PENDING_ENTER (R277). -/
  | cleftPendingEnter (q : Nat)
  /-- SPILL_DEQUEUE (R278, R280). `ue`: the 64-byte unit of the item whose read is uncorrectable, if any. -/
  | spillDequeue (q : Nat) (e : SramRead := .clean)
  /-- SPOIL_REFILL: R273. `bad`: the read returned uncorrectable data. -/
  | spoilRefill (q : Nat) (bad : Bool)
  /-- SPQ_Q_DISABLE (R275). -/
  | spqQDisable (o : Origin) (w : Word)
  /-- EGRESS_PACKET_BUILD (R279, R280). `ue`: the 64-byte unit of the head item whose read is uncorrectable, if any. -/
  | egressPacketBuild (c : Nat) (e : SramRead := .clean)
  /-- BUFFER_ALLOC (R266, R270). `frame`: what the buffers are to hold. -/
  | bufferAlloc (r : Requester) (frame : List Byte) (strict : Bool)
  /-- BPM_CACHE_REFILL (R269). -/
  | bpmCacheRefill
  /-- TRANSMIT_START (R286). -/
  | transmitStart (p : Nat)
  /-- TRANSMIT_END (R268). -/
  | transmitEnd (p : Nat) (e : SramRead := .clean)
  /-- TMG_SWEEP: R284. `k`: meter 0 to 1,023, or shaper k − 1,024. -/
  | tmgSweep (k : Nat)
  /-- TMG_QUEUE_SAMPLE (R291). -/
  | tmgQueueSample (p : Nat)
  /-- TMG_SAMPLE_READ (R291). -/
  | tmgSampleRead (o : Origin) (a : Nat)
  /-- METER_ENABLE (R283). -/
  | meterEnable (o : Origin) (w : Word)
  /-- SHAPER_RATE_WRITE (R290). -/
  | shaperRateWrite (o : Origin) (a : Nat) (w : Word)
  /-- HAUL_LINK_LOSS (R227, R230). `fault`: a local or remote fault sequence is received. -/
  | haulLinkLoss (p : Nat) (fault : Bool := false)
  /-- HAUL_LINK_UP (R227, R230). `fault`: a fault sequence is received still. -/
  | haulLinkUp (p : Nat) (fault : Bool := false)
  /-- RING_NOTICE_RECEIVE (R255). -/
  | ringNoticeReceive (p : Nat) (x : Nat) (ccw : Bool) (n : Nat) (hop : Nat)
  /-- RING_RESTORE_RECEIVE (R257). -/
  | ringRestoreReceive (p : Nat) (x : Nat) (ccw : Bool) (n : Nat) (hop : Nat)
  /-- RING_NOTICE_RESEND (R254). -/
  | ringNoticeResend (p : Nat)
  /-- SEND_RESTORE (R257). -/
  | sendRestore (o : Origin) (w : Word)
  /-- CLEAR_CW (R257). -/
  | clearCw (o : Origin) (w : Word)
  /-- CLEAR_CCW (R257). -/
  | clearCcw (o : Origin) (w : Word)
  /-- FRAGMENT_AGE_OUT: R249. `k`: the entry of the fragment table. -/
  | fragmentAgeOut (k : Nat)
  /-- CLONE (R252). -/
  | clone (o : Origin) (w : Word)
  /-- CLONE_DONE (R252). -/
  | cloneDone
  /-- GO (R253). -/
  | go (o : Origin) (w : Word)
  /-- ABORT (R252). -/
  | abort (o : Origin) (w : Word)
  /-- COMMIT_DONE (R252). -/
  | commitDone
  /-- HAUL_TS_POP (R262). -/
  | haulTsPop (o : Origin) (p : Nat)
  -- Lanes and ingress.
  /-- PIXEL_FRAME_RECEIVE: R337. `frame`: line header, payload and CRC; `err`: ended by Error or by loss of the port. -/
  | pixelFrameReceive (p : Nat) (frame : List Byte) (err : Bool)
  /-- ING_CLOSE_EXPIRE (R340). -/
  | ingCloseExpire (p : Nat)
  /-- PIXEL_LINK_LOSS (R335). -/
  | pixelLinkLoss (p : Nat)
  /-- LANE_SIGNAL_CHANGE (R327). -/
  | laneSignalChange (n : Nat) (up : Bool)
  /-- LANE_SYNC_LOSS (R324). -/
  | laneSyncLoss (n : Nat)
  /-- LANE_CAL_START (R330). -/
  | laneCalStart (n : Nat)
  /-- LANE_CAL_DONE: R328. The values the calibration found. -/
  | laneCalDone (n : Nat) (peak ofs : Nat)
  /-- LANE_CFG_WRITE: R332. `rx`: `LANE_RX`, otherwise `LANE_CFG`. -/
  | laneCfgWrite (o : Origin) (n : Nat) (rx : Bool) (w : Word)
  /-- CAL_SCHEDULE (R393). -/
  | calSchedule (n : Nat)
  /-- SENSOR_CAL: R393. Sensor k of 0 to 7, or supply monitor k − 8. -/
  | sensorCal (k : Nat)
  -- Memory system.
  /-- DDR_REQUEST_GRANT (R315). -/
  | ddrRequestGrant (c : Nat)
  /-- DDR_TRANSFER_COMPLETE (R308). -/
  | ddrTransferComplete (c : Nat) (e : EccResult)
  /-- ARB_WATCHDOG_EXPIRE (R317). -/
  | arbWatchdogExpire (c : Nat)
  /-- ARB_MAXWAIT_READ (R318). -/
  | arbMaxwaitRead (o : Origin) (c r : Nat)
  /-- DDR_REFRESH_DUE (R301). -/
  | ddrRefreshDue (c : Nat)
  /-- DDR_PAGE_IDLE_EXPIRE (R300). -/
  | ddrPageIdleExpire (c : Nat) (bank : Nat)
  /-- DDR_TEMP_POLL (R301). -/
  | ddrTempPoll (c : Nat) (hot : Bool)
  /-- DDR_SCRUB_READ (R310). -/
  | ddrScrubRead (c : Nat) (e : EccResult)
  /-- DDR_WRITE_CRC_ALERT (R311). `back`: the later writes of the subchannel in its replay buffer. -/
  | ddrWriteCrcAlert (c : Nat) (sub : Nat) (back : Nat := 0)
  /-- DDR_DRIFT_CHECK: R306. `drift`: the largest drift since the last training, in steps. -/
  | ddrDriftCheck (c : Nat) (drift : Nat)
  /-- DDR_RETRAIN_START (R306). -/
  | ddrRetrainStart (c : Nat)
  /-- DDR_RETRAIN_DONE: R306. The passing steps found. -/
  | ddrRetrainDone (c : Nat) (sweep : List LaneSweep)
  /-- DDR_TRAIN_START (R306). -/
  | ddrTrainStart (o : Origin) (c : Nat) (w : Word)
  /-- DDR_TRAINING_DONE (R305). -/
  | ddrTrainingDone (c : Nat) (sweep : List LaneSweep)
  /-- DDR_FILL_START (R303). -/
  | ddrFillStart (o : Origin) (c : Nat) (w : Word)
  /-- DDR_FILL_DONE (R303). -/
  | ddrFillDone (c : Nat)
  /-- DDR_LOG_CLEAR (R313). -/
  | ddrLogClear (o : Origin) (w : Word)
  /-- DDR_CONFIG_LOCK (R12). -/
  | ddrConfigLock (o : Origin) (c : Nat) (w : Word)
  -- Interrupts.
  /-- INTC_CLAIM (R350). -/
  | intcClaim (o : Origin) (t : Nat) (fell : Bool := false)
  /-- INTC_CLAIM_S (R350). -/
  | intcClaimS (o : Origin) (fell : Bool := false)
  /-- INTC_COMPLETE (R351). -/
  | intcComplete (o : Origin) (t : Nat) (w : Word)
  /-- INTC_COMPLETE_S (R351). -/
  | intcCompleteS (o : Origin) (w : Word)
  /-- INTC_ROUTE_WRITE (R353). -/
  | intcRouteWrite (o : Origin) (n : Nat) (w : Word)
  /-- INTC_ROUTE_APPLY (R353). -/
  | intcRouteApply (n : Nat)
  /-- INTC_SW_SET (R344). -/
  | intcSwSet (o : Origin) (hi : Bool) (w : Word)
  /-- INTC_SW_CLR (R344). -/
  | intcSwClr (o : Origin) (hi : Bool) (w : Word)
  /-- WAKE_LATCH_SET (R358). -/
  | wakeLatchSet (n : Nat)
  -- Faults.
  /-- GRACE_EXPIRE (R364). -/
  | graceExpire (f : Nat)
  /-- FLT_SRC_ACK (R364). -/
  | fltSrcAck (o : Origin) (f : Nat) (w : Word)
  /-- FLT_SAFE_RELEASE (R363). -/
  | fltSafeRelease (o : Origin) (hi : Bool) (w : Word)
  /-- KICK (R366). -/
  | kick (o : Origin) (w : Word)
  /-- FW_WATCHDOG_EXPIRE (R366). -/
  | fwWatchdogExpire
  /-- CORE_PLL_UNLOCK (R369). -/
  | corePllUnlock
  /-- LANE_PLL_UNLOCK (R359). -/
  | lanePllUnlock (q : Nat)
  /-- THERM_HIGH: R359. Sensor k reads tj, in 1/16 °C. -/
  | thermHigh (k : Nat) (tj : Int)
  /-- THERM_TRIP (R359). -/
  | thermTrip (k : Nat) (tj : Int)
  /-- RAIL_FAULT: R359. `k`: the rail. -/
  | railFault (k : Nat)
  -- Power, time and timers.
  /-- SHED_STAGE_ENTER: R384. `mv`: the averaged lowest VDD_CORE. -/
  | shedStageEnter (mv : Nat)
  /-- SHED_STAGE_LIFT: R385. `mv`: the lowest voltage over the dwell of 100 µs. -/
  | shedStageLift (mv : Nat)
  /-- AVS_STEP: R382. `tjMax`: the highest sensor reading in °C. -/
  | avsStep (tjMax : Int)
  /-- PMBUS_READBACK: R382. `mv`: READ_VOUT. -/
  | pmbusReadback (mv : Nat)
  /-- TB_STEP (R378). -/
  | tbStep (o : Origin) (w : Word)
  /-- TB_TRIM_WRITE (R377). -/
  | tbTrimWrite (o : Origin) (w : Word)
  /-- PTP_SYNC_PROCESS: R379. The offset from the master in ns, whether the part is grandmaster, and the servo's trim. -/
  | ptpSyncProcess (offset : Int) (gm : Bool) (trim : Word)
  /-- TIMER_EXPIRE (R398). -/
  | timerExpire (n : Nat)
  /-- TMR_CMP_WRITE (R398). -/
  | tmrCmpWrite (o : Origin) (n : Nat) (w : Word)
  /-- TMR_OVERRUN_READ (R398). -/
  | tmrOverrunRead (o : Origin) (n : Nat)
  /-- BPM_MIN_FREE_READ (R12). -/
  | bpmMinFreeRead (o : Origin)
  /-- PWR_VMIN_READ (R12). -/
  | pwrVminRead (o : Origin)
  /-- STANDBY_GATE (R388). -/
  | standbyGate
  /-- WAKE_TIMER_EXPIRE (R389). -/
  | wakeTimerExpire
  /-- WAKE (R390). -/
  | wake
  -- Security.
  /-- TAMPER_TRIP (R414). -/
  | tamperTrip (i : Nat)
  /-- SPD_WIPE (R407). -/
  | spdWipe (o : Origin) (w : Word)
  /-- SPD_WIPE_DONE (R407). -/
  | spdWipeDone
  /-- BLOCK_WORLD_LOCK (R401). -/
  | blockWorldLock (o : Origin) (w : Word)
  /-- REGION_LOCK (R404). -/
  | regionLock (o : Origin) (r : Nat) (w : Word)
  -- Further lane and link events.
  /-- LANE_SYNC_ACQUIRE (R324). -/
  | laneSyncAcquire (n : Nat)
  /-- PIXEL_LINK_UP (R335). -/
  | pixelLinkUp (p : Nat)
  /-- FAR_SYNC_RETURN (R221). -/
  | farSyncReturn (n : Nat)
  /-- LANE_PLL_LOCK (R321). -/
  | lanePllLock (q : Nat)
  /-- DEBUG_PORT_RESET (R60). -/
  | debugPortReset
  /-- GPIO_CHANGE (R389). -/
  | gpioChange (k : Nat) (high : Bool)
  /-- PRBS_LOCK: R343. `errs`: errored bits counted after the lock. -/
  | prbsLock (n : Nat) (errs : Nat)
  /-- CODE_ERR (R324). -/
  | codeErr (n : Nat) (k : CodeErrKind)
deriving DecidableEq, Repr

end Sys2Proof
end

