-- ==== Sys2Proof/Machine/KbfTypes.lean ====
section
/-! DEFINITION. The headers of Kryem Block Format and the data of a block: plain data that a context, a hewer or the Stockpile holds. -/

namespace Sys2Proof.Machine

/-- A stream header (R78, R101). `serial` is absent, and held as zero, in version 1. -/
structure StreamHdr where
  version : Nat := 2
  depthM8 : Nat := 0
  colour : Nat := 0
  refineAllowed : Bool := false
  wall : Nat := 0
  tile : Nat := 0
  w16 : Nat := 4
  h16 : Nat := 1
  cropR : Nat := 0
  cropB : Nat := 0
  sliceRowsM1 : Nat := 0
  maxShort : Nat := 0
  bedrockSlots : Nat := 0
  rateNum : Nat := 1
  rateDen : Nat := 1
  serial : Nat := 0
deriving DecidableEq, Repr

/-- A picture header (R79). Bit i of `refValid` belongs to short-term slot i. -/
structure PicHdr where
  picture : Nat := 0
  key : Bool := false
  storeSlot : Nat := 7
  refValid : Nat := 0
  bedrockValid : Nat := 0
  refPic : List Nat := [0, 0, 0, 0]
  bedrockGen : List Nat := [0, 0]
deriving DecidableEq, Repr

/-- The part of a bedrock update header that a slice header has not (R85). -/
structure BedHdr where
  slot : Nat := 0
  last : Bool := false
  gen : Nat := 0
  crc : Nat := 0
deriving DecidableEq, Repr

/-- A slice header (R81), or with `bed` a bedrock update header (R85), of key 1. -/
structure SliceHdr where
  picture : Nat := 0
  slice : Nat := 0
  firstRow : Nat := 0
  rowsM1 : Nat := 0
  key : Bool := true
  dqp : Bool := false
  refine : Bool := false
  qpInit : Nat := 0
  e : Nat := 0
  refineK : Nat := 0
  bed : Option BedHdr := none
deriving DecidableEq, Repr

/-- A slice trailer (R82). -/
structure Trailer where
  void : Bool := true
  fallback : Bool := false
  blocks : Nat := 0
  crc : Nat := 0
deriving DecidableEq, Repr

/-- One adaptive context of R96: accumulator and count. -/
structure RiceCtx where
  a : Nat := 4
  n : Nat := 1
deriving DecidableEq, Repr

/-- A block whose reconstruction is complete: its final samples by component in raster order, and its vectors for R100 (`inter`: it is an INTER block). -/
structure BlockOut where
  samples : List (List Int) := []
  inter : Bool := false
  mv0 : Int × Int := (0, 0)
  mv1 : Option (Int × Int) := none
  /-- Set in the index (R160, R172). -/
  concealed : Bool := false
deriving DecidableEq, Repr

/-- The clips that acted in a block: of R118, of the two stages of R120, and of R122. -/
structure Clips where
  deq : Bool := false
  stage1 : Bool := false
  stage2 : Bool := false
  recon : Bool := false
deriving DecidableEq, Repr

/-- What the last elements read left for the conditions of R184: the last significance group, whether the last Rice read took the escape, sign and zero of the last value, and the last fixed-length element. -/
structure Signals where
  sig : List Bool := [false, false, false, false]
  escape : Bool := false
  sign : Bool := false
  zero : Bool := false
  elem : Nat := 0
deriving DecidableEq, Repr

/-- What the block layer needs from the stream and picture headers. -/
structure BlockCtx where
  v1 : Bool := false
  depth : Nat := 8
  colour : Nat := 0
  w16 : Nat := 4
  h16 : Nat := 1
  refValid : Nat := 0
  bedrockValid : Nat := 0
  /-- In a bedrock unit, the slot being built (R86). -/
  building : Option Nat := none
deriving DecidableEq, Repr

end Sys2Proof.Machine
end

