-- ==== Sys2Proof/Machine/Tab.lean ====
section
/-! DEFINITION. Sparse tables in one canonical form: keys strictly rising, no entry equal to what an absent key reads as. The register file, the memories and every bank of the part are tables. -/

namespace Sys2Proof.Machine

/-- A sparse table from a number (an address, an instance, a context) to a value. -/
abbrev Tab (α : Type) := List (Nat × α)

namespace Tab
variable {α : Type}

/-- What key `k` holds; `d` where no entry is listed. -/
def get (d : α) (t : Tab α) (k : Nat) : α :=
  match t with
  | [] => d
  | (j, v) :: r => if j = k then v else get d r k

/-- The table without key `k`. -/
def del (t : Tab α) (k : Nat) : Tab α := t.filter (fun e => e.1 != k)

/-- An entry put in its place by key, in a table that does not hold the key. -/
def ins (t : Tab α) (k : Nat) (v : α) : Tab α :=
  match t with
  | [] => [(k, v)]
  | (j, u) :: r => if k < j then (k, v) :: (j, u) :: r else (j, u) :: ins r k v

/-- Key `k` gets value `v`; the default value removes the entry. -/
def set [DecidableEq α] (d : α) (t : Tab α) (k : Nat) (v : α) : Tab α :=
  if v = d then del t k else ins (del t k) k v

/-- The canonical form: keys strictly rising, no default value listed. -/
def wf [DecidableEq α] (d : α) (t : Tab α) : Bool :=
  match t with
  | [] => true
  | (k, v) :: r => decide (v ≠ d) && r.all (fun e => decide (k < e.1)) && wf d r

/-- Consecutive values from key `a` up. -/
def getList (d : α) (t : Tab α) (a : Nat) (n : Nat) : List α :=
  (List.range n).map (fun i => get d t (a + i))

/-- Consecutive keys from `a` up get the listed values. -/
def setList [DecidableEq α] (d : α) (t : Tab α) (a : Nat) (vs : List α) : Tab α :=
  match vs with
  | [] => t
  | v :: r => setList d (set d t a v) (a + 1) r

end Tab
end Sys2Proof.Machine
end

