-- ==== Sys2Proof/Machine/State.lean ====
section
/-! DEFINITION. The state of the part as plain data, its reset, and the reasons a command can stop. -/

namespace Sys2Proof.Machine

/-- Why a command stops with a fault. The part reports its own faults in registers, so no command of the model ends here but by `noSuchInstance`. -/
inductive Fault where
  /-- Raised by a meaning whose operand names an instance that the part does not have (a seventh haul port). Safe: no such command exists. -/
  | noSuchInstance
deriving DecidableEq, Repr

/-- Why a command is refused. -/
inductive Refusal where
  /-- Raised by an arm of `exec` whose meaning is not written. Safe. -/
  | notModelled (mnemonic : String)
deriving DecidableEq, Repr

-- ## Control processor, mailboxes, boot

/-- The state of a job (R55). -/
inductive JobState where
  | running | done | failed
deriving DecidableEq, Repr

/-- The work that the end of a job completes (R55): what its command still has to do. -/
inductive JobWork where
  | none
  /-- FW_STAGE with ERASE: the slot is erased and the chunk written (R65). -/
  | stage (slot off : Nat) (data : List Byte)
  /-- FW_VERIFY: the checks of R48 on the inactive slot (R65). -/
  | verify
  /-- CAL_SNAPSHOT or CAL_RESTORE with a copy to the configuration area (R394, R395). -/
  | calFlash (record : List Byte)
  /-- TILE_MAP_LOAD: lock 1 is released (R38). -/
  | tileMap
  /-- A context or a wall whose last slice still runs is being destroyed (R37, R130). -/
  | destroy (ctxs : List Nat)
  /-- BEDROCK_LOAD of a slot of a context (R163). -/
  | bedrock (ctx slot : Nat)
  /-- A hewer drains or goes out (R191, R193); a patch loads (R192); an update of every hewer runs (R194). -/
  | drain (h : Nat)
  | out (h : Nat)
  | load (h : Nat)
  | update
  /-- A commit of firmware drains (R252). -/
  | commit
  /-- DRESSING_LOAD and SCAN_MAP_LOAD: lock 2 is released (R63). -/
  | tables
  /-- Channels still to retrain (R306), lanes to calibrate (R328). -/
  | retrain (chans : List Nat)
  | recal (lanes : List Nat)
deriving DecidableEq, Repr

/-- A job (R55): number, mailbox that started it, state, final status, and the work that its end completes. -/
structure Job where
  num : Nat := 0
  mbx : Nat := 0
  state : JobState := .running
  status : Nat := 0
  work : JobWork := .none
deriving DecidableEq, Repr

/-- What the boot found in a verified image (R47): the versions and hashes of the running image. -/
structure ImageInfo where
  slot : Nat := 0
  secVersion : Nat := 0
  major : Nat := 0
  minor : Nat := 0
  build : Nat := 0
  handover : Nat := 0
  bodyHash : List Byte := []
  dataHash : List Byte := []
  /-- The data package passed its check before use (R48). -/
  dataOk : Bool := false
  /-- Verified under FWKEY1 (R411, OP 4). -/
  underKey1 : Bool := false
deriving DecidableEq, Repr

/-- What the flash configuration area holds beside what firmware finds there at FW_INIT; its layout is not given: entries of LANE_CONFIG with SAVE, by lane (R331), and the calibration record (R394, R395). -/
structure ConfigArea where
  lanes : Tab (List Byte) := []
  cal : List Byte := []
deriving DecidableEq, Repr

/-- Firmware and boot (R43 to R50, R55, R59, R65 to R67, R388, R416). -/
structure FwState where
  /-- The clearing of R392 runs. -/
  clearing : Bool := true
  /-- The running image (R47). -/
  image : ImageInfo := {}
  /-- ROM_ERROR of both slots, for ROM_INFO. -/
  romErrors : Nat × Nat := (0, 0)
  /-- Slot that passed FW_VERIFY since it was last staged (R65). -/
  verified : Option ImageInfo := none
  /-- A confirm window runs (R65): seconds. -/
  confirm : Option Nat := none
  /-- The slot and directory of before the trial (R67). -/
  previous : Option Nat := none
  /-- A handover record is held (R65). -/
  handover : Bool := false
  /-- The last restart was a CP_RESTART, for the KIND 7 entry (R365). -/
  restarted : Bool := false
  /-- Challenge kept by mailbox (R59); empty: none. -/
  challenge : Tab (List Byte) := []
  /-- Attestation report kept by mailbox (R416); empty: none. -/
  report : Tab (List Byte) := []
  /-- The running jobs, and the newest of the ended ones, 64 in all, newest first (R55). -/
  jobs : List Job := []
  /-- The number of the next job (R55). -/
  nextJob : Nat := 1
  /-- Locks refused to a reader while held (R61). -/
  lockRefused : List Nat := []
  /-- SRC_DEV of the command in progress of each remote mailbox (R235). -/
  remotePeer : Tab Nat := []
  /-- The device state of PTP_CONFIG (R379): its eight argument bytes; empty: none. -/
  ptp : List Byte := []
  /-- The part is PTP grandmaster (R379). -/
  ptpMaster : Bool := false
  /-- Consecutive Sync messages within ±100 ns (R379). -/
  ptpGood : Nat := 0
  /-- Attempts of the AVS step in progress (R382). -/
  avsTries : Nat := 0
  /-- The voltage that AVS steps towards, in mV (R382). -/
  avsGoal : Nat := 750
  /-- The voltage that was confirmed last, in mV (R382). -/
  avsConfirmed : Nat := 750
  /-- The VOUT_COMMANDs sent by PMBus, newest first: address and LINEAR16 mantissa (R382). -/
  vout : List (Nat × Nat) := []
  /-- The cells of the flash configuration area as read at FW_INIT (R417). -/
  config : List Host.Cell := []
  /-- What firmware had saved in that area at FW_INIT (R331, R394, R417). -/
  configSaved : ConfigArea := {}
deriving DecidableEq, Repr

-- ## Interrupts, faults, power, security

/-- Interrupt controller and host delivery (R346 to R358). -/
structure IntcState where
  /-- Claim stack of each target, bottom first (R350). -/
  stack : Tab (List Nat) := []
  /-- A route change written and not yet applied, by source: EN and TARGET (R353). -/
  routeNext : Tab (Option (Nat × Nat)) := []
  /-- Vectors whose set was non-empty at the last look, key 32 × function + vector (R354). -/
  seen : List Nat := []
  /-- Vectors due while masked or with the link down (R355). -/
  due : List Nat := []
  /-- Masked vectors of each function, in configuration space (R354, R355). -/
  masked : List Nat := []
  /-- MSI enable of each function, in configuration space (R354, R355). -/
  msiEnable : Tab Nat := []
  /-- Multiple Message Enable of each function, in configuration space (R354, R355). -/
  mme : Tab Nat := []
  /-- Messages sent, newest first: function and vector. -/
  sent : List (Nat × Nat) := []
deriving DecidableEq, Repr

/-- A grace timer that runs, with the settings of its start (R364, R366) and the instances raised while it ran. -/
structure Grace where
  unit : Nat := 0
  escSafe : Bool := false
  escFatal : Bool := false
  scope : Bool := false
  insts : List Nat := []
deriving DecidableEq, Repr

/-- Fault collector and event log (R359 to R373). -/
structure FltState where
  /-- Sources that hold each lamp port in its safe state (R363). -/
  holders : Tab (List Nat) := []
  /-- Grace timers by FSID (R364). -/
  grace : Tab (Option Grace) := []
  /-- Wall times of the CP_RESTARTs, newest first (R365). -/
  restarts : List Nat := []
  /-- Event log entries of 32 bytes by index (R372). -/
  log : Tab (List Byte) := []
deriving DecidableEq, Repr

/-- The always-on domain (R356, R358, R370, R389, R414). Only a power-on reset resets it. -/
structure AonState where
  /-- Wake latches set, by source (R358). -/
  wakeLatch : List Nat := []
  /-- The wake timer has expired (R389). -/
  wakeTimer : Bool := false
  /-- GPIO 0 to 3 high (R389). -/
  gpio : List Nat := []
  /-- The receivers of lanes 60 to 63 have left electrical idle (R389). -/
  pcieActivity : Bool := false
  /-- A sensor at WARN in STANDBY (R389). -/
  hotInStandby : Bool := false
  /-- The wake-capable sources that have been asserted since FCLK stopped: their next rise sets the latch (R358). -/
  steady : List Nat := []
  /-- Tamper sources tripped at present (R414). -/
  trippedNow : List Nat := []
deriving DecidableEq, Repr

/-- A content key slot (R418). `streams`: streams of each tile that the key has served (R421). -/
structure KeySlot where
  wall : Nat := 0
  odd : Bool := false
  key : List Byte := []
  streams : Tab Nat := []
deriving DecidableEq, Repr

/-- An access of a logical port of the scratchpad (R405, R406) to a 64-bit word. -/
inductive SpdOp where
  | read (word : Nat)
  | write (word value : Nat)
deriving DecidableEq, Repr

/-- Security block (R405 to R423). -/
structure SecState where
  /-- The content key slots (R418). -/
  keys : List KeySlot := []
  /-- The scratchpad, by 64-bit word (R405). -/
  spd : Tab Nat := []
  /-- Accesses of logical port 0 of the scratchpad that wait, oldest first (R406, R407). -/
  spdPort0 : List SpdOp := []
  /-- Accesses of logical port 1 that wait, oldest first (R406, R407). -/
  spdPort1 : List SpdOp := []
  /-- Words that reads of port 0 returned and nobody has taken, oldest first (R406). -/
  spdData0 : List Nat := []
  /-- Words that reads of port 1 returned and nobody has taken, oldest first (R406). -/
  spdData1 : List Nat := []
  /-- Mailboxes whose KEY_LOAD wrote a key, each with its FCLK (R414). -/
  keyAt : List (Nat × Nat) := []
  /-- The FCLK of the last trip (R414). -/
  tripAt : Option Nat := none
deriving DecidableEq, Repr

/-- The time base (R376, R377). -/
structure TimeState where
  /-- C of the time base (R376). -/
  c : Nat := 0
  /-- r of R377. -/
  r : Int := 0
  /-- FCLK cycles since the core domain left reset, for the buckets of R283 and R290. -/
  fclk : Nat := 0
  /-- CMP in force by timer (R398). -/
  cmp : Tab Nat := []
  /-- The timers that have expired for their CMP (R398). -/
  fired : List Nat := []
deriving DecidableEq, Repr

-- ## Lamp output

/-- A band (R201): the strips of one slice of one or more cabinets of a chain, by context, slice, picture, descriptor, colour and stamped sync. `positions`: the cabinets still to be sent; `strips` counts what a drop would add to DROPPED. -/
structure Band where
  ctx : Nat := 0
  slice : Nat := 0
  picture : Nat := 0
  desc : Nat := 0
  colour : Nat := 0
  stamp : Nat := 0
  positions : List Nat := []
  strips : Nat := 0
deriving DecidableEq, Repr

/-- A strip that a channel fetches, dresses and sends (R204, R206, R214): cabinet position and block row; lamps and output bits from the table that was active when its dressing began (R209). `data`: its plane bytes; `done`: payload bytes sent; `begun`: dressed, and in fetch; `ready`: fetched whole, so its bytes pass to the transmit buffer; `late`: counted in LATE_STRIPS; `ue`: its LUT read meets uncorrectable data. -/
structure Strip where
  position : Nat := 0
  row : Nat := 0
  lamps : Nat := 0
  obM10 : Nat := 0
  data : List Byte := []
  done : Nat := 0
  begun : Bool := false
  ready : Bool := false
  late : Bool := false
  ue : Bool := false
  ce : Bool := false
deriving DecidableEq, Repr

/-- A burst issued and not yet complete (R214, R215): address, beats, responses returned, retries used, whether this issue met an error or poison, and whether its strip is gone, so that nothing follows from it. -/
structure Burst where
  addr : Nat := 0
  beats : Nat := 1
  got : Nat := 0
  retries : Nat := 0
  error : Bool := false
  poison : Bool := false
  dead : Bool := false
deriving DecidableEq, Repr

/-- A riving channel (R201 to R217) beside its registers: the active set, the queued bands, the band in transmission with its APPLY, the strips of it still to be fetched or sent, the bursts to issue and those outstanding. -/
structure RivChan where
  en : Bool := false
  retryLimit : Nat := 3
  source : Nat := 0
  table : Nat := 0
  bands : List Band := []
  current : Option Band := none
  apply : Nat := 0
  strips : List Strip := []
  bursts : List Burst := []
  flying : List Burst := []
  /-- Capture ring position, in bytes (R212). -/
  ringPos : Nat := 0
deriving DecidableEq, Repr

/-- A lamp port beside its registers (R198 to R225): the active set, the frame in progress, and what the safe state and the first frame still owe. -/
structure LampPort where
  en : Bool := false
  partner : Nat := 63
  grid : Nat := 0
  endB : Bool := false
  /-- A frame is in progress, with these bytes (header, payload, CRC). -/
  frame : Option (List Byte) := none
  /-- The frame last sent whole. -/
  lastFrame : List Byte := []
  /-- The SFC last sent. -/
  lastSync : Option Nat := none
  /-- An abort was sent (R218). -/
  aborts : Nat := 0
  /-- A broadcast BLANK frame of the safe state is due (R225). -/
  blankDue : Bool := false
  /-- The broadcast BLANK frame of R37, R388 or R396 is due, which no safe state cancels. -/
  owed : Bool := false
  /-- EN is cleared once that frame is sent (R37). -/
  closing : Bool := false
  /-- The port is in its safe state (R225). -/
  safe : Bool := false
  /-- The kind of the safe state that took force (R225): `true` HOLD. -/
  hold : Bool := false
  /-- The kind that `SAFE_STATE_SET` chose, as the port's last sync took it: `true` HOLD. -/
  kind : Bool := false
  /-- The interval before the next sync has begun (R200). -/
  inGap : Bool := false
deriving DecidableEq, Repr

/-- A chain bound by `LAMP_PORT_SET` (R221, R443), under its port A. -/
structure Chain where
  bound : Bool := false
  portB : Nat := 255
  wall : Nat := 0
  n : Nat := 0
  /-- The splits that confirmed notices named since the chain was last bound or restored (R222, R224). -/
  cuts : List Nat := []
deriving DecidableEq, Repr

/-- A sync grid (R198). `k`: the number of the next sync. -/
structure Grid where
  used : Bool := false
  wall : Nat := 0
  t0 : Nat := 0
  k : Nat := 0
  /-- The gap before sync k has begun (R200). -/
  inGap : Bool := false
deriving DecidableEq, Repr

/-- Dressing, riving DMA and lamp ports (R198 to R225). -/
structure LampState where
  chans : Tab RivChan := []
  ports : Tab LampPort := []
  chains : Tab Chain := []
  grids : Tab Grid := []
  /-- LUT entries: key (bank × 4 + LUT) × 4,097 + entry (R206). -/
  lut : Tab Nat := []
  /-- Active brightness of each grid, 65,536 where none is listed (R206). -/
  bright : Tab Nat := []
deriving DecidableEq, Repr

-- ## Walls (R20, R36, R38)

/-- An entry of the tile map (R38). -/
structure Tile where
  w16 : Nat := 4
  h16 : Nat := 1
  cropR : Nat := 0
  cropB : Nat := 0
  depthM8 : Nat := 0
  sliceRowsM1 : Nat := 0
  independent : Bool := false
  bedSlots : Nat := 0
  maxShort : Nat := 1
  owner : Nat := 0
  x : Nat := 0
  y : Nat := 0
deriving DecidableEq, Repr

/-- An open wall (R36): its arguments, its sync grid, its tile map, and whether its encode contexts are paused (R152). -/
structure Wall where
  lamps : Bool := false
  subframes : Nat := 64
  rateNum : Nat := 60
  rateDen : Nat := 1
  delayUs : Nat := 50
  downstreamUs : Nat := 200
  t0 : Nat := 0
  grid : Option Nat := none
  paused : Bool := false
  /-- START of a PLAY that has not yet begun (R152); 0: the next picture. -/
  startAt : Nat := 0
  /-- The tile map, by tile (R38). -/
  tiles : Tab (Option Tile) := []
  /-- The wall's source buffer (R338): the sample of component c at (x, y) under 3 × (65,536 y + x) + c. -/
  source : Tab Nat := []
  /-- The number of the present source picture (R340). -/
  picture : Nat := 0
  /-- When the leader's FIRST frame of that picture arrived; 0: none has (R340). -/
  lineTime : Nat := 0
  /-- Under content protection since its first context was created (R419). -/
  sealed : Bool := false
deriving DecidableEq, Repr

/-- A picture group (R20, R154): its wall, the tile of an independent one, its counts, its descriptors. -/
structure Group where
  wall : Nat := 0
  tile : Option Nat := none
  short : Nat := 1
  beds : Nat := 0
  /-- Descriptors that short-term pictures rotate through (R157). -/
  descs : List Nat := []
  /-- The descriptor bound to each bedrock slot (R158). -/
  bedDescs : List Nat := []
  /-- Place of each tile in a descriptor's storage (R154, R155): offset + 1 by tile. -/
  places : Tab Nat := []
  /-- Bytes used of a descriptor's storage (R155). -/
  size : Nat := 0
  /-- A host pin is asked for and not yet made (R159). -/
  pinDue : Bool := false
  /-- Descriptors that return to the pool as soon as they are FREE (R159). -/
  shrink : Nat := 0
deriving DecidableEq, Repr

/-- Storage of a descriptor beside its register fields (R155, R158): base of the area, and for a bedrock descriptor of the area that was BUILDING at its reservation; `swapped`: the tiles for which the two areas have swapped roles. -/
structure DescState where
  base : Nat := 0
  building : Nat := 0
  swapped : List Nat := []
deriving DecidableEq, Repr

-- ## Contexts (R127 to R175)

/-- A picture that a slot, the display or the lamps hold: number, descriptor, colour of its samples (R103, R160) and its CONCEALED slices (R175). -/
structure Held where
  picture : Nat := 0
  desc : Nat := 0
  colour : Nat := 0
  concealed : List Nat := []
deriving DecidableEq, Repr

/-- The picture of a context in progress (R77, R108, R157, R171). -/
structure Pic where
  hdr : PicHdr := {}
  /-- The picture header as received, for repeats (R75). -/
  raw : List Byte := []
  /-- The descriptor that stores it (R157). -/
  desc : Nat := 0
  /-- The stream header in force when it began (R78). -/
  stream : StreamHdr := {}
  /-- Its stamp (R144, R171). -/
  stamp : Nat := 0
  /-- Slices begun or received. -/
  begun : List Nat := []
  /-- Slices complete. -/
  done : List Nat := []
  /-- Slices that are CONCEALED (R175). -/
  concealed : List Nat := []
  /-- Reception has ended (R171). -/
  ended : Bool := false
  /-- Caps and targets of an encode picture, by slice: cap_i in bytes and t_i in u24.4 (R138). -/
  budget : List (Nat × Nat) := []
  /-- Its metadata, due in front of the first unit that carries it: label and SOURCE_TIME as segments (R87). -/
  meta_ : List Byte := []
  /-- The slice whose unit carries them (R146). -/
  metaOf : Option Nat := none
deriving DecidableEq, Repr

/-- A complete picture that waits for display (R149). -/
structure Waiting where
  held : Held := {}
  stamp : Nat := 0
  complete : Nat := 0
  /-- Its planes can meet their syncs from here on: the APPLY of its last band. -/
  meets : Nat := 0
deriving DecidableEq, Repr

/-- A bedrock slot of a context (R86, R158, R163 to R166): the generation in SERVING, with the colour of its samples; `fresh`: no picture header has named it yet. -/
structure BedSlot where
  serving : Option Nat := none
  colour : Nat := 0
  fresh : Bool := false
  /-- CRC-64 of the serving generation, for the check after a wake (R167). -/
  servingCrc : Nat := 0
  /-- A check after a wake is still to be made. -/
  recheck : Bool := false
  /-- The generation that BUILDING still holds after a swap, for pictures that name it (R86). -/
  old : Option Nat := none
  /-- The colour of its samples (R103). -/
  oldColour : Nat := 0
  /-- Its CRC-64 (R167). -/
  oldCrc : Nat := 0
  /-- The generation in construction (R86). -/
  building : Option Nat := none
  /-- The block row with which its next unit begins (R86). -/
  nextRow : Nat := 0
  /-- The CRC-64 of its blocks so far (R86). -/
  crc : Nat := 0
deriving DecidableEq, Repr

/-- A BEDROCK_LOAD in progress (R163 to R165). -/
structure BedLoad where
  slot : Nat := 0
  fromDram : Bool := false
  rows : Nat := 1
  qp : Nat := 0
  repeats : Nat := 0
  nameDelay : Nat := 1
  trickle : Nat := 256
  addr : Nat := 0
  credit : Int := 0
  gen : Nat := 0
  /-- The source picture that the load takes, once it has begun (R163). -/
  taking : Option Nat := none
  /-- Block row of the unit on a hewer (`running`), else of the next one. -/
  row : Nat := 0
  /-- A unit of it is on a hewer. -/
  running : Bool := false
  /-- The units that are ready, next first: for each the picture at whose first dispatch it became ready (R164, R420). -/
  readyAt : List Nat := []
  /-- Its job (R163). -/
  job : Nat := 0
  /-- Its source picture, once taken: samples by component over the coded tile. -/
  src : Option (List (List Int)) := none
  /-- The generation's CRC-64 so far (R86). -/
  crc : Nat := 0
  /-- The picture at which the first sending completed (R165). -/
  doneAt : Option Nat := none
deriving DecidableEq, Repr

/-- The active set of a context's shadow registers (R64). -/
structure CtxSet where
  configured : Nat := 0
  linkRate : Nat := 0
  bucket : Nat := 0
  qpMin : Nat := 0
  qpMax : Nat := 127
  qpStepMax : Nat := 4
  ki : Nat := 2048
  kp : Nat := 24576
  allot : Nat := 0
deriving DecidableEq, Repr

/-- A source picture as an encode context sees it (R143, R152): its number, when its first line arrived (R87), whether it is skipped, and its slices that are ready. -/
structure SrcPic where
  picture : Nat := 0
  time : Nat := 0
  skipped : Bool := false
  slices : List Nat := []
deriving DecidableEq, Repr

/-- The bytes that a hewer had taken of a unit, whether the unit's data has ended, the stamp of its packet and its haul PICTURE (R169). -/
structure Back where
  bytes : List Byte := []
  closed : Bool := false
  stamp : Nat := 0
  picture : Nat := 0
deriving DecidableEq, Repr

/-- A stream context (R19, R127). -/
structure Ctx where
  enc : Bool := false
  wall : Nat := 0
  tile : Nat := 0
  group : Nat := 0
  geo : Tile := {}
  colour : Nat := 0
  refineAllowed : Bool := false
  sourceTime : Bool := false
  e : Nat := 0
  maxShort : Nat := 1
  bedSlots : Nat := 0
  refresh : Bool := false
  keyInterval : Nat := 0
  qpStart : Nat := 0
  charge : Nat := 0
  act : CtxSet := {}
  /-- b of R138 in s25.4. -/
  level : Int := 0
  /-- integ of R140. -/
  integ : Int := 0
  /-- Stuffed bytes of stream headers and metadata written since the last picture (R138). -/
  hdrBytes : Nat := 0
  /-- C of R136, of the previous refined slice. -/
  corrCount : Nat := 0
  /-- S of R136, of the previous refined slice. -/
  corrSum : Nat := 0
  /-- The stream in reception, or in sending (R75). -/
  stream : Option StreamHdr := none
  /-- The bytes of its header, for repeats (R75). -/
  streamRaw : List Byte := []
  /-- The STREAM_SERIAL of the stream in sending (R78). -/
  serial : Nat := 0
  /-- The stream ended, and no stream header has opened another (R74, R88). -/
  ended : Bool := false
  /-- The newest picture begun, by number (R77). -/
  newest : Option Nat := none
  /-- The picture in progress. -/
  pic : Option Pic := none
  /-- The header bytes of the newest picture, where it is complete and its reception has not ended (R77, R171). -/
  doneRaw : Option (List Byte) := none
  /-- What each short-term reference slot holds (R80). -/
  slots : Tab (Option Held) := []
  /-- The previous displayed picture (R80). -/
  prev : Option Held := none
  /-- The bedrock slots (R86). -/
  beds : Tab BedSlot := []
  /-- The latest generation of each slot that a BEDROCK_LOAD numbered (R163). -/
  gens : Tab Nat := []
  /-- The bedrock loads in progress, oldest first (R163). -/
  loads : List BedLoad := []
  /-- Generations built and not yet named: slot, generation, first picture that names it (R165). -/
  toName : List (Nat × Nat × Nat) := []
  /-- Generation named in picture headers, by slot. -/
  named : Tab (Option Nat) := []
  /-- Complete pictures that wait for display (R149). -/
  waiting : List Waiting := []
  /-- The picture on display (R149). -/
  shown : Option Held := none
  /-- Pictures that DISPLAY_SKIPPED has counted, newest first (R149, R202). -/
  skips : List Nat := []
  /-- Late pictures in a row (R149). -/
  lateRun : Nat := 0
  /-- The next encoded picture has KEY = 1 (R137, R146, R152, R174). -/
  keyDue : Bool := true
  /-- Pictures since the last key picture (R137). -/
  sinceKey : Nat := 0
  /-- The slot that the encoder stores next. -/
  nextStore : Nat := 0
  /-- The unit at the head of the stream queue: bytes of it already parsed as header segments (R74 to R77). -/
  frontUsed : Nat := 0
  /-- Where that unit begins for the limit of R95. -/
  frontStart : Nat := 0
  /-- That unit is consumed or discarded, up to its end. -/
  frontDead : Bool := false
  /-- That unit is to be discarded (R75). -/
  frontDrop : Bool := false
  /-- The picture header before its slice header (R74 to R77). -/
  frontPic : Option (PicHdr × List Byte) := none
  /-- A repeated header that differs discards the next unit (R75, R168). -/
  dropNext : Bool := false
  /-- What a hewer had taken of the unit in front, where parsing goes on in it (R169). -/
  back : Option Back := none
  /-- Bytes up to the next marker other than 0xA3 are discarded (R169). -/
  hunt : Bool := false
  /-- The latest completed picture had a CONCEALED slice (R175). -/
  wasConcealed : Bool := false
  /-- Encode: the source pictures whose slices become ready, newest first (R143). -/
  sources : List SrcPic := []
  /-- Encode: pictures skipped or paused since the last one that was taken (R137, R152). -/
  skippedRun : Nat := 0
  /-- Encode: the first vector of each INTER block of the previous picture, by block number (R132). -/
  vecs : Tab (Int × Int) := []
  /-- The label is due in front of the next picture header (R87). -/
  labelDue : Bool := false
  /-- Counters of R153 and R168 by number. -/
  stats : Tab Nat := []
  /-- Stuffed bytes of the stream (R153). -/
  bytes : Nat := 0
  /-- Sticky bits: the counters that have saturated (R153). -/
  sat : Nat := 0
  /-- Least and greatest QP since the last read (R153). -/
  qpSeen : Option (Nat × Nat) := none
  /-- Rows in the mean QP (R153). -/
  qpRows : Nat := 0
  /-- Sum of their QP (R153). -/
  qpSum : Nat := 0
  /-- The label as received or set (R87). -/
  label : List Byte := []
  /-- The SOURCE_TIME last received (R87). -/
  sourceTimeValue : List Byte := []
  /-- Sequence number of the next haul packet (R233). -/
  sequence : Nat := 0
  /-- Picture numbers from the first of the stream to the newest (R421). -/
  span : Nat := 0
  /-- Egress (R234): bytes sent of the unit at the head of the stream queue. -/
  egSent : Nat := 0
  /-- The context is being destroyed (R130). -/
  ending : Bool := false
  /-- The group source 512 + (context >> 4) is held by an event of this context. -/
  event : Bool := false
deriving DecidableEq, Repr

/-- A slice that is ready and not dispatched (R143): `conceal`: a missing slice to be concealed (R171); `redo`: a slice of a failed hewer, `quiet`: for the encoder's own reference only (R146). -/
structure Ready where
  ctx : Nat := 0
  enc : Bool := false
  picture : Nat := 0
  slice : Nat := 0
  ready : Nat := 0
  deadline : Nat := 0
  stamp : Nat := 0
  conceal : Bool := false
  redo : Bool := false
  quiet : Bool := false
  /-- Bytes that a failed hewer had taken of the unit (R146). -/
  bytes : List Byte := []
  /-- Bytes of header segments before its slice header. -/
  skip : Nat := 0
  /-- Where the unit begins for the limit of R95: its first picture header byte, or slice header byte. -/
  start : Nat := 0
  /-- The unit's data has ended. -/
  closed : Bool := false
  /-- The unit's data has ended short (R170). -/
  truncated : Bool := false
  /-- Source samples of an encode slice by component, in raster order of its rows (R143). -/
  src : List (List Int) := []
deriving DecidableEq, Repr

/-- Where a hewer stands in a unit. -/
inductive Phase where
  | headers   -- before the slice header or bedrock update header
  | blocks    -- in slice data
  | trailer   -- after the last block
  | finished  -- the trailer is read or written, or the unit has ended
deriving DecidableEq, Repr

/-- The unit that a hewer runs: what BITBUF, CTXSTATE and SOURCE hold of it (R176). -/
structure Run where
  what : Ready := {}
  /-- The hewer on which it runs. -/
  hewer : Nat := 0
  /-- A unit of a bedrock load. -/
  bed : Bool := false
  /-- The effort level (R132). -/
  effort : Nat := 0
  /-- Encode: cap of the slice in bytes (R138). -/
  capBytes : Nat := 0
  /-- Encode: its target in u24.4 (R138). -/
  target : Nat := 0
  /-- The slice header. -/
  hdr : SliceHdr := {}
  /-- Where the hewer stands in the unit. -/
  phase : Phase := .headers
  /-- Stuffed bytes received. -/
  taken : List Byte := []
  /-- Stuffed bytes parsed as segments. -/
  used : Nat := 0
  /-- The stream header in force. -/
  stream : StreamHdr := {}
  /-- The unit's data has ended. -/
  closed : Bool := false
  /-- The unit's data has ended short (R170). -/
  truncated : Bool := false
  /-- Unstuffed bytes from LENGTH of the slice header on. -/
  head : List Byte := []
  /-- Bits of slice data written. -/
  bits : List Bool := []
  /-- Bits of slice data read. -/
  pos : Nat := 0
  /-- The Rice contexts. -/
  rice : List RiceCtx := []
  /-- The QP of the block row. -/
  qp : Nat := 0
  /-- The block parsed and not yet reconstructed. -/
  parsed : Option BlockElems := none
  /-- The blocks complete. -/
  done : List BlockOut := []
  /-- Every later block is concealed (R169). -/
  conceal : Bool := false
  /-- The whole slice is concealed at its end (R169). -/
  wholeConceal : Bool := false
  /-- The trailer's GUARANTEE_VOID. -/
  void : Bool := false
  /-- The trailer's RATE_FALLBACK. -/
  fallback : Bool := false
  /-- Stuffed bytes of an encode unit that no item holds yet. -/
  out : List Byte := []
  /-- Bytes put into items. -/
  sent : Nat := 0
  /-- C of R136, of this slice. -/
  corrCount : Nat := 0
  /-- S of R136, of this slice. -/
  corrSum : Nat := 0
  /-- BI of the current block (condition 38, R184). -/
  bi : Bool := false
  /-- The clips that acted in the current block (conditions 32 to 35, R184). -/
  clip : Clips := {}
  /-- The current block reads a poisoned reference (R174). -/
  badRef : Bool := false
  /-- Encode: the QP change due at the next row (R140). -/
  dq : Int := 0
  /-- Encode: integ of R140. -/
  integ : Int := 0
  /-- Bytes of metadata before the unit. -/
  lead : Nat := 0
  /-- The unit is of a protected wall (R420). -/
  sealed : Bool := false
  /-- The key that serves it; none where its slot is empty (R420, R423). -/
  key : Option (List Byte) := none
deriving DecidableEq, Repr

/-- Who waits for a hewer to drain, to load or to return: a mailbox, a job, or the update of R194. -/
inductive Waiter where
  | none
  | mailbox (m : Nat)
  | job (j : Nat)
  | update
deriving DecidableEq, Repr

/-- A patch set that passed its checks (R187, R188). -/
structure PatchSet where
  id : Nat := 0
  words : List Nat := []
  matches_ : List (Nat × Nat) := []
  measure : List Byte := []
  /-- Its bytes (R187), for the copy of R194. -/
  bytes : List Byte := []
deriving DecidableEq, Repr

/-- A hewer beside its registers (R176 to R197). -/
structure Hewer where
  /-- The unit that it runs. -/
  run : Option Run := none
  /-- Address of the next pixel word. -/
  pixPc : Nat := 0
  /-- Address of the next bitstream word. -/
  bsPc : Nat := 0
  /-- LOOP0 to LOOP3 of the pixel sequencer, then of the bitstream sequencer (R179). -/
  loops : List Nat := [0, 0, 0, 0, 0, 0, 0, 0]
  /-- Tokens pending for the pixel sequencer, then for the bitstream sequencer (R185). -/
  tokens : List Nat := [0, 0, 0, 0, 0, 0, 0, 0]
  /-- A run of pixel words whose next address is their own is measured (R182). -/
  pixSelf : Bool := false
  /-- What the last elements read set (R184). -/
  signals : Signals := {}
  /-- The last dispatch found its context in the cache (R145, R184). -/
  ctxHit : Bool := false
  /-- A word with a bitstream read has issued since the last block, header or trailer was completed (R179). -/
  bioIn : Bool := false
  /-- A word with a bitstream write has issued since then (R179). -/
  bioOut : Bool := false
  /-- Local memory (R176): the 64-bit words that differ from zero, by number. -/
  lm : Tab Nat := []
  /-- The eight words that read port A returned last (R177). -/
  portA : List Nat := []
  /-- The eight words that read port B returned last (R177). -/
  portB : List Nat := []
  /-- DONE has been posted for the slice. -/
  doneEvt : Bool := false
  /-- The end of a patch load is reported (source 64 + 4n + 3). -/
  patchEvt : Bool := false
  /-- Wall times of its faults, newest first (R195). -/
  faults : List Nat := []
  /-- The hewer goes to OUT when it has drained (R193). -/
  goOut : Bool := false
  /-- Who waits for it to drain (R191). -/
  drainFor : List Waiter := []
  /-- Who waits for its test (R193). -/
  testFor : Waiter := .none
  /-- The set being loaded (R192). -/
  loading : Option PatchSet := none
  /-- Who waits for the load (R192). -/
  loadFor : Waiter := .none
  /-- The state that the hewer was loaded in, OUT or DRAINED. -/
  loadFrom : Nat := 0
  /-- The measurement of the set that it holds (R188). -/
  measure : List Byte := []
deriving DecidableEq, Repr

/-- The update of R194 in progress: the set, the hewer it is at, its job, and whether one failed; `waits`: that hewer is in TEST or PATCHING, and its end is awaited. -/
structure Update where
  set : PatchSet := {}
  at_ : Nat := 0
  job : Nat := 0
  failed : Bool := false
  waits : Bool := false
deriving DecidableEq, Repr

/-- A destruction that waits for running slices (R37, R130): who waits, the contexts, and the wall that closes with them. -/
structure Dying where
  who : Waiter := .none
  ctxs : List Nat := []
  wall : Option Nat := none
deriving DecidableEq, Repr

/-- Scheduler, contexts, Stockpile and hewers (R36, R126 to R197). -/
structure CodecState where
  /-- The open walls (R36). -/
  walls : Tab (Option Wall) := []
  /-- Walls in which the part takes part (R35). -/
  listed : List Nat := []
  /-- The picture groups (R154). -/
  groups : Tab (Option Group) := []
  /-- Storage of the descriptors (R155). -/
  descs : Tab DescState := []
  /-- The contexts (R127). -/
  ctxs : Tab (Option Ctx) := []
  /-- The slices that are ready and not dispatched (R143). -/
  ready : List Ready := []
  /-- The context cache, most recently dispatched first (R145). -/
  cache : List Nat := []
  /-- The hewers (R176). -/
  hewers : Tab Hewer := []
  /-- The update of microcode in progress (R194). -/
  update : Option Update := none
  /-- The destructions in progress (R130). -/
  dying : List Dying := []
  /-- The STREAM_SERIAL of the next stream that the part's encoder opens for a tile, by 65,536 × wall + tile (R78). -/
  serials : Tab Nat := []
  /-- LAMBDA_K (SCH_PARAM_SET, R134). -/
  lambdaK : Nat := 0x92
  /-- HOLD_FACTOR (SCH_PARAM_SET, R128). -/
  holdFactor : Nat := 109
  /-- The default of KP (SCH_PARAM_SET, R140). -/
  kp : Nat := 24576
  /-- The default of KI (SCH_PARAM_SET, R140). -/
  ki : Nat := 2048
  /-- The default of QP_STEP_MAX (SCH_PARAM_SET, R140). -/
  qpStepMax : Nat := 4
  /-- Raw and stored units of the last 2^20 blocks written, newest first (STK_PACK_RATIO, R160). -/
  packed : List (Nat × Nat) := []
deriving DecidableEq, Repr

/-- What firmware takes up again after a wake (R167, R388, R390): walls, groups and contexts, the arguments of PTP_CONFIG, the channels in self-refresh, and those of them with a retrain due. -/
structure Asleep where
  codec : CodecState := {}
  ptp : List Byte := []
  refresh : List Nat := []
  retrain : List Nat := []
deriving DecidableEq, Repr

/-- Power manager (R384 to R390). -/
structure PwrState where
  /-- The part is in STANDBY with the core domain gated (R388). -/
  standby : Bool := false
  /-- STANDBY was accepted and the gating is awaited (R388). -/
  standbyDue : Bool := false
  /-- The fields of the descriptor table and the calibration snapshot saved for the wake (R167, R388). -/
  saved : Option (Tab (Tab Nat) × List Byte) := none
  /-- In STANDBY: what firmware goes on with after the wake (R388, R390). -/
  asleep : Option Asleep := none
  /-- Walls are to restart when PTP locks after a wake (R390). -/
  resumeDue : Bool := false
  /-- The wake timer runs (R389). -/
  wakeRuns : Bool := false
  /-- The core PLL is lost and REFCLK times the syncs (R369). -/
  onRefclk : Bool := false
  /-- The control processor is halted (R367). -/
  cpHalted : Bool := false
deriving DecidableEq, Repr

-- ## Buffer pool, spill queues, traffic manager

/-- What an encode unit is (R233, R234), beside its items: haul TYPE, picture, slice (first row of a bedrock unit), KEY. -/
structure UnitTag where
  typ : Nat := 0
  picture : Nat := 0
  slice : Nat := 0
  key : Bool := false
deriving DecidableEq, Repr

/-- An item of a spill queue (R274): `stamp` is the time of its haul DEADLINE, which travels beside it; a cleft marker has its counts. -/
structure Item where
  kind : Nat := 0
  first : Bool := false
  last : Bool := false
  poison : Bool := false
  tag : Nat := 0
  data : List Byte := []
  stamp : Nat := 0
  unit : UnitTag := {}
  lostItems : Nat := 0
  lostBytes : Nat := 0
deriving DecidableEq, Repr

/-- A spill queue (R272 to R281): its items, oldest first; `inRead`: the first is in read and its data passed on; `sent`: data bytes of the first that haul egress has taken; a pending cleft marker; bytes in the head and in the spoil region, and where the ring writes and reads next. -/
structure Queue where
  items : List Item := []
  inRead : Bool := false
  sent : Nat := 0
  pendingCleft : Option Item := none
  head : Nat := 0
  spoil : Nat := 0
  wr : Nat := 0
  rd : Nat := 0
deriving DecidableEq, Repr

/-- A packet in buffers of the pool (R266): its chain, reference count, port of arrival, arrival in the 0.25 ns format, its frame, and whether its reception has ended. -/
structure Packet where
  bufs : List Nat := []
  ref : Nat := 0
  inport : Nat := 6
  arrival : Nat := 0
  frame : List Byte := []
  whole : Bool := true
  bad : Bool := false
deriving DecidableEq, Repr

/-- A free ring (R263): indexes never yet allocated from `fresh` on, then those returned, oldest first. -/
structure FreeRing where
  fresh : Nat := 0
  back : List Nat := []
deriving DecidableEq, Repr

/-- The free ring of the DRAM tier (R263, R269): the indexes in its on-chip cache, and how many have been read from the ring in DRAM and written to it. The ring begins full, with index 65,536 + n in place n, which stands in DRAM only once an index is written there. -/
structure DramRing where
  cache : List Nat := []
  rd : Nat := 0
  wr : Nat := 0
deriving DecidableEq, Repr

/-- The buffer pool (R263 to R271). `stalled`: requesters that stall. -/
structure PoolState where
  sram : FreeRing := { fresh := 16 }
  dram : DramRing := {}
  stalled : List Requester := []
  packets : Tab Packet := []
deriving DecidableEq, Repr

/-- A copy in a traffic manager queue (R282): its packet, its length as sent, its colour, and what the copy's frame is once rewritten. -/
structure Copy where
  buf : Nat := 0
  len : Nat := 0
  yellow : Bool := false
  frame : List Byte := []
  /-- The port it arrived on, which bounds its start (R286); 6 and 7 as INPORT. -/
  inport : Nat := 6
  /-- When it arrived (R286). -/
  arrival : Nat := 0
deriving DecidableEq, Repr

/-- A shaper (R290): tokens in s33.24 bytes at FCLK `at_`. -/
structure Shaper where
  tokens : Int := 18432 * 16777216
  at_ : Nat := 0
deriving DecidableEq, Repr

/-- A queue of a port (R282 to R291). `tag`: F of its head; `last`: the tag of the packet served last. -/
structure TmgQueue where
  copies : List Copy := []
  tag : Nat := 0
  last : Nat := 0
  held : Bool := false
  shaper : Shaper := {}
  /-- The sample after a read of MIN or MAX sets it afresh (R291): DMIN, DMAX, HMIN, HMAX. -/
  fresh : List Bool := [true, true, true, true]
deriving DecidableEq, Repr

/-- An egress port (R286, R287): V, its shaper, and the copy in transmission. -/
structure TmgPort where
  v : Nat := 0
  shaper : Shaper := {}
  sending : Option (Nat × Copy) := none
deriving DecidableEq, Repr

/-- A meter (R283): Tc and Tp in u32.24 bytes at FCLK `at_`. -/
structure Meter where
  tc : Nat := 0
  tp : Nat := 0
  at_ : Nat := 0
deriving DecidableEq, Repr

/-- Queues and traffic (R263 to R292). -/
structure QueueState where
  /-- The spill queues (R272). -/
  queues : Tab Queue := []
  /-- The buffer pool (R263). -/
  pool : PoolState := {}
  /-- Queue q of port p at 64p + q. -/
  tmg : Tab TmgQueue := []
  /-- The egress ports (R286). -/
  ports : Tab TmgPort := []
  /-- The meters (R283). -/
  meters : Tab Meter := []
  /-- Frames that left each port, newest first (the port's output, R286): port and frame. -/
  sent : List (Nat × List Byte) := []
deriving DecidableEq, Repr

-- ## Haul ports and classifier (R226 to R262)

/-- What the parser finds in a frame (R238, R242). `cls`: the CLASS code. `hdrAt`: where the haul header or payload header begins, `payAt` where the payload begins. `dropAs`: the `CLS_CNT` number under which the packet is dropped. -/
structure Parsed where
  cls : Nat := 5
  vlan : Nat := 0
  dei : Bool := false
  etherType : Nat := 0
  proto : Nat := 0
  ipAt : Nat := 0
  ipLen : Nat := 0
  v6 : Bool := false
  srcIp : Nat := 0
  dstIp : Nat := 0
  udpAt : Nat := 0
  dstPort : Nat := 0
  haul : Bool := false
  ver : Nat := 0
  typ : Nat := 0
  wall : Nat := 0
  tile : Nat := 0
  picture : Nat := 0
  slice : Nat := 0
  flags : Nat := 0
  hop : Nat := 0
  prio : Nat := 0
  srcDev : Nat := 0
  fragOffset : Nat := 0
  payLen : Nat := 0
  deadline : Nat := 0
  hdrAt : Nat := 0
  payAt : Nat := 0
  ptp : Bool := false
  rtpTime : Nat := 0
  parseErr : Bool := false
  nonFirst : Bool := false
  /-- Identification of a fragmented datagram. -/
  fragId : Option Nat := none
  /-- Its offset in bytes. -/
  fragOff : Nat := 0
  /-- MF. -/
  more : Bool := false
  /-- The `CLS_CNT` number under which the packet is dropped (R239). -/
  dropAs : Option Nat := none
deriving DecidableEq, Repr

/-- A frame in reception at a haul port (R231): its bytes, arrival, what was parsed, the copies that its end makes (R231, R240), its pool packet, and the queues that hold forwarded copies. -/
structure RxFrame where
  frame : List Byte := []
  arrival : Nat := 0
  parsed : Parsed := {}
  /-- It is dropped: nothing is made at its end. -/
  dropped : Bool := false
  /-- It was classified by rules that are OLD now (R252). -/
  underOld : Bool := false
  /-- The context whose stream queue takes it (R244). -/
  ctx : Option Nat := none
  /-- The ingress port that takes it (R244). -/
  ingest : Option Nat := none
  /-- The control queue that COPY_CP names (R244). -/
  cpq : Option Nat := none
  /-- The control queue of a fixed rule (R240). -/
  fixed : Option Nat := none
  /-- It is copied into the capture ring. -/
  capture : Bool := false
  /-- Its packet in the buffer pool (R231). -/
  buf : Option Nat := none
  /-- Its entry of the fragment table (R249). -/
  frag : Option Nat := none
  /-- It crossed the blind period of a lane of its port (R328). -/
  spoiled : Bool := false
  /-- A ring break or restore of R255 and R257, handled at its end. -/
  ring : Bool := false
  /-- A REF is held until its end for the deliveries made there. -/
  held : Nat := 0
deriving DecidableEq, Repr

/-- A timestamp of the egress FIFO (R262). -/
structure Stamp where
  msgType : Nat := 0
  domain : Nat := 0
  seqId : Nat := 0
  time : Nat := 0
deriving DecidableEq, Repr

/-- A haul port beside its registers (R226, R231, R262). -/
structure HaulPort where
  rx : Option RxFrame := none
  stamps : List Stamp := []
  /-- The loss that its receiver declared still lasts, for notices (R254). -/
  lost : Bool := false
deriving DecidableEq, Repr

/-- A bank of rules (R243, R251): words of exact entries at 8 × index, of ternary entries at 12 × index, and the counts. -/
structure Bank where
  exact : Tab Nat := []
  tern : Tab Nat := []
  nExact : Nat := 0
  nTern : Nat := 0
  /-- How many of the ternary entries, the last ones, firmware derived. -/
  fwTern : Nat := 0
deriving DecidableEq, Repr

/-- An entry of the fragment table (R249, R250): its key, the action and supplement of its first fragment, how far the datagram is covered and delivered, and the fragments that came early. -/
structure Frag where
  key : List Nat := []
  action : Nat := 0
  extra : Nat := 0
  underOld : Bool := false
  ctx : Option Nat := none
  parsed : Parsed := {}
  /-- Fragments that have passed: offset and length. -/
  spans : List (Nat × Nat) := []
  /-- The datagram's length, once known. -/
  total : Option Nat := none
  /-- How far it is in order. -/
  upTo : Nat := 0
  /-- The fragments that came early (R250). -/
  early : List (Nat × List Byte) := []
  /-- The packet has ended (delivered whole, or at a gap). -/
  ended : Bool := false
  /-- The datagram's bytes in order so far. -/
  data : List Byte := []
deriving DecidableEq, Repr

/-- A route of ROUTE_SET (R22), from which firmware derives rules: its wall, its tiles, their owner, its flags, and the ring position and ports of the owner (`State.routeTo`). -/
structure Route where
  wall : Nat := 0
  lo : Nat := 0
  hi : Nat := 0
  owner : Nat := 0
  flags : Nat := 0
  pos : Nat := 0
  ports : Nat := 0
deriving DecidableEq, Repr

/-- The picture of an ingress port in reception (R339, R340): when its FIRST frame arrived, the wall picture it is assigned to, the lamps arrived by line (bit x of a number for lamp x), and the lines complete. -/
structure IngPic where
  firstAt : Nat := 0
  wallPic : Option Nat := none
  got : Tab Nat := []
  done : List Nat := []
deriving DecidableEq, Repr

/-- An ingress port beside its registers (R259, R335 to R340). -/
structure IngPort where
  /-- The picture in reception. -/
  pic : Option IngPic := none
  /-- The latest wall picture that has ended at this port. -/
  ended : Option Nat := none
  /-- SEQ, or the RTP sequence number, of the previous frame. -/
  seq : Option Nat := none
  /-- `ING_CLOSE` runs (R340). -/
  closing : Bool := false
  /-- The parameters of R259 that INGRESS_SET gave. -/
  params : List Byte := []
  /-- ST 2110-20: the RTP timestamp of the picture in reception. -/
  rtpTime : Option Nat := none
  /-- ST 2110-20: the samples as received, under 3 × (65,536 line + x) + component. -/
  raw : Tab Nat := []
deriving DecidableEq, Repr

/-- Haul ports and classifier (R226 to R262). -/
structure HaulState where
  /-- The haul ports. -/
  ports : Tab HaulPort := []
  /-- The ingress ports. -/
  ing : Tab IngPort := []
  /-- The LIVE bank (R251). -/
  live : Bank := {}
  /-- The OLD bank, while it drains (R252). -/
  old : Bank := {}
  /-- The staged bank (R251). -/
  staged : Bank := {}
  /-- A CLONE that waits for OLD to drain (R252). -/
  cloneDue : Bool := false
  /-- A GO that waits for the end of a live handover (R66). -/
  goDue : Bool := false
  /-- Firmware has rules to commit once a commit can start (R253). -/
  restageDue : Bool := false
  /-- The fragment table (R249). -/
  frags : Tab (Option Frag) := []
  /-- The routes of ROUTE_SET, newest first (R22, R253). -/
  routes : List Route := []
  /-- A break CW that the part's own port declared (R257). -/
  ownCw : Bool := false
  /-- A break CCW that the part's own port declared (R257). -/
  ownCcw : Bool := false
  /-- Tiles on their substitute port, by 65,536 × wall + tile (R257). -/
  steered : List Nat := []
  /-- Where the capture ring writes next (R247). -/
  captureAt : Nat := 0
  /-- Next SEQUENCE of the part's own flows of TYPE 3 and 4, by TILE (R29, R233). -/
  seqs : Tab Nat := []
  /-- Who waits for the commit that drains: the mailbox of RULE_COMMIT, the job of DEVICE_ADDRESS_SET (R35, R252). -/
  commitFor : List Waiter := []
  /-- Who waits for the restaging that is due (R35). -/
  restageFor : List Waiter := []
deriving DecidableEq, Repr

-- ## Lanes (R321 to R343)

/-- Lanes beside their registers: those that wait for a calibration window, restored values that wait for one (PEAK_NOW and CDR_OFS as 64 × PEAK + CDR_OFS, R395), and the lanes calibrated in the present sync gap (R329). -/
structure LaneState where
  due : List Nat := []
  restored : Tab (Option Nat) := []
  gap : List Nat := []
deriving DecidableEq, Repr

-- ## Memory system (R293 to R318)

/-- A 64-byte transfer that a requester presents (R314): line number, write, secure (R403), FCLKs waited. -/
structure Xfer where
  req : Nat := 0
  line : Nat := 0
  write : Bool := false
  secure : Bool := false
  wait : Nat := 0
  /-- What the line of a write held before it: where the write is discarded, the line is unchanged. -/
  before : List Byte := []
deriving DecidableEq, Repr

/-- A write in the replay buffer of its subchannel (R311): its line, its requester, and its replays so far. -/
structure Replay where
  line : Nat := 0
  req : Nat := 0
  replays : Nat := 0
deriving DecidableEq, Repr

/-- How a transfer ended (R308): 0 OK, 1 POISON, 2 WATCHDOG, 3 PERMISSION, 4 RANGE. -/
structure Response where
  req : Nat := 0
  line : Nat := 0
  write : Bool := false
  code : Nat := 0
deriving DecidableEq, Repr

/-- A DDR channel and its arbiter beside their registers (R293 to R316). -/
structure MemChan where
  /-- Transfers presented, oldest first. -/
  waiting : List Xfer := []
  /-- Transfers granted, in their data phase. -/
  granted : List Xfer := []
  /-- The requester whose turn it is (R315). -/
  turn : Nat := 0
  /-- Its grants in the turn (R315). -/
  used : Nat := 0
  /-- Open row + 1 of each bank, 0 where it is closed (R300). -/
  rows : Tab Nat := []
  /-- Refresh intervals postponed (R301). -/
  postponed : Nat := 0
  /-- The speed bin, as start-up read it from `DDR_CONFIG` (R296). -/
  bin : Nat := 0
  /-- Timings in use, by index; 0: the table's value (R297). -/
  active : Tab Nat := []
  /-- Shadow values, by index; 0: none (R298). -/
  shadow : Tab Nat := []
  /-- Delays in use of each rank and byte lane, 10 × rank + lane: 128 × WR + RD (R304). -/
  delays : Tab Nat := []
  /-- Those written that wait for the next refresh, plus 1 (R304). -/
  delayNext : Tab Nat := []
  /-- Ends of the runs of the last training: RD_FIRST, RD_LAST, WR_FIRST and WR_LAST in 7 bits each, from bit 0 up (R304). -/
  eyes : Tab Nat := []
  /-- The replay buffer of each subchannel, newest first (R311). -/
  replay : Tab (List Replay) := []
  /-- By subchannel: writes left in the batch that drains (R299). -/
  batch : Tab Nat := []
  /-- By subchannel: consecutive row hits served (R299). -/
  hits : Tab Nat := []
  /-- The bank that the next same-bank refresh takes (R301). -/
  refBank : Nat := 0
  /-- The line that the patrol scrub reads next, counted within the channel (R310). -/
  scrubAt : Nat := 0
  /-- A retrain is due (R306). -/
  retrainDue : Bool := false
  /-- Restored delays that wait to be checked (R395). -/
  restored : Tab (Option Nat) := []
  /-- The places whose delays CAL_RESTORE restored: a chip reset keeps these (R395). -/
  kept : List Nat := []
deriving DecidableEq, Repr

/-- The memory system: channels, lines that hold the poison pattern (R309), and the error log, oldest first (R312). -/
structure MemState where
  chans : Tab MemChan := []
  poison : List Nat := []
  log : List (List Byte) := []
  /-- The response of the transfer that ended last (R308). -/
  response : Option Response := none
  /-- A channel was retrained in the present gap of GRID0 (R306). -/
  gapUsed : Bool := false
deriving DecidableEq, Repr

/-- The part. -/
structure State where
  /-- Register fields by code and instance: what differs from the reset value (R11). -/
  regs : Tab (Tab Nat) := []
  /-- Upper words latched by a read of the low word, by BAR0 offset (R9). -/
  latch : Tab Nat := []
  /-- Model's own: the words that the last read returned. -/
  readData : List Nat := []
  /-- DRAM by byte address (R29). -/
  dram : List Host.Cell := []
  /-- The boot flash by byte address (R45). -/
  flash : List Host.Cell := []
  /-- The OTP by byte address (R408). -/
  otp : List Host.Cell := []
  /-- Rows of 8 bytes of the OTP that read uncorrectably (R408). -/
  otpBad : List Nat := []
  /-- What the flash configuration area holds (R331, R394). -/
  conf : ConfigArea := {}
  /-- Firmware and boot. -/
  fw : FwState := {}
  /-- The interrupt controller. -/
  intc : IntcState := {}
  /-- The fault collector and the event log. -/
  flt : FltState := {}
  /-- The power manager. -/
  pwr : PwrState := {}
  /-- The always-on domain. -/
  aon : AonState := {}
  /-- The security block. -/
  sec : SecState := {}
  /-- The time base. -/
  time : TimeState := {}
  /-- Dressing, riving DMA and lamp ports. -/
  lamp : LampState := {}
  /-- The scheduler, contexts, Stockpile and hewers. -/
  codec : CodecState := {}
  /-- Queues and traffic. -/
  q : QueueState := {}
  /-- Haul ports and classifier. -/
  haul : HaulState := {}
  /-- The lanes. -/
  lane : LaneState := {}
  /-- The memory system. -/
  mem : MemState := {}
  /-- Model's own: the number of the next free value (Config). -/
  free : Nat := 0
  /-- Commands that wait, first in first out. -/
  pending : List Instr := []
deriving DecidableEq, Repr

/-- The part right after a power-on reset (R11, R391): every field at its reset value, no memory listed, no command waiting. -/
def State.reset : State := {}

end Sys2Proof.Machine
end

