-- ==== Sys2Proof/Decode.lean ====
section
/-! DEFINITION. The command that a word of the opcode table spells. The table gives no row any bits (its rows are named operations and events, not encoded words), so no word spells a command. -/

namespace Sys2Proof

/-- The command of a word by the bits of the opcode table: none, because no row has bits. -/
def decodeTableWord (_nbits _w : Nat) : Option Instr := none

end Sys2Proof
end

