-- ==== Sys2Proof/Machine/Operands.lean ====
section
/-! DEFINITION. Operands that name an instance: which numbers the part has, and what a command with another number does. -/

namespace Sys2Proof.Machine

/-- What a command answers. -/
abbrev Out := Host.Outcome State Fault Refusal

/-- A memory channel (R293). -/
def memChan (c : Nat) : Bool := decide (c < 4)

/-- A sync grid (R196). -/
def gridOn (g : Nat) : Bool := decide (g < 4)

/-- A lane, 60 to 63 in test only (R321). -/
def laneOk (n : Nat) : Bool := decide (n < 64)

/-- A hewer (R177). -/
def hewerOk (h : Nat) : Bool := decide (h < 24)

/-- An interrupt target: CP-S, CP-N, HOST, PIN (R347). -/
def targetOk (t : Nat) : Bool := decide (t < 4)

/-- A hardware semaphore (R61). -/
def semOk (n : Nat) : Bool := decide (n < 64)

/-- A timer (R398). -/
def timerOk (n : Nat) : Bool := decide (n < 64)

/-- Supply rails other than VDD_CORE (R380). -/
def railOk (k : Nat) : Bool := decide (k < 8)

/-- A requester of the buffer pool: a haul port names one that exists. -/
def requesterOk (r : Requester) : Bool :=
  match r with
  | .haul p => decide (p < 6)
  | _ => true

/-- A command at an instance that the part has goes on; at one that it has not, it stops by name. -/
def onInstance (p : Bool) (s : State) : Out := if p then .next s else .fault .noSuchInstance

end Sys2Proof.Machine
end

