-- ==== Sys2Proof/Machine/RegMap.lean ====
section
/-! DEFINITION. Where the registers stand in BAR0 (R5), their world (R7) and their fields. -/

namespace Sys2Proof.Machine

/-- The world that a register's heading gives it (R9, R399). -/
inductive RegWorld where
  | normal | secure | block
  | mailbox   -- MBX0 to MBX7 normal, MBX8 to MBX11 secure
  | target    -- the world of the interrupt target
  | source    -- the world of the interrupt source
deriving DecidableEq, Repr

/-- A register: the number of its block in R5 (0 for GLB), its first offset in BAR0, its repetitions (`n1` instances at stride `s1` from number `first` on, each with `n2` at stride `s2`), its world and its fields. -/
structure RegInfo where
  blk : Nat
  base : Nat
  first : Nat := 0
  n1 : Nat := 1
  s1 : Nat := 0
  n2 : Nat := 1
  s2 : Nat := 0
  world : RegWorld
  fields : List Fld
deriving DecidableEq, Repr

/-- The register map. -/
def RegId.info (r : RegId) : RegInfo :=
  match r with
  | .PCIE_BAR2_BASE_F0 => { blk := 23, base := 0x510000, world := .normal, fields := [F.PCIE_BAR2_BASE_F0_BASE] }
  | .PCIE_BAR2_BASE_F1 => { blk := 23, base := 0x510004, world := .secure, fields := [F.PCIE_BAR2_BASE_F1_BASE] }
  | .PCIE_LINK_STATUS => { blk := 23, base := 0x510010, world := .block, fields := [F.PCIE_LINK_STATUS_PM_STATE, F.PCIE_LINK_STATUS_LTSSM, F.PCIE_LINK_STATUS_SPEED, F.PCIE_LINK_STATUS_WIDTH] }
  | .PCIE_WIN_OOR => { blk := 23, base := 0x510020, world := .block, fields := [F.PCIE_WIN_OOR_COUNT] }
  | .PCIE_ERR_STATUS => { blk := 23, base := 0x510030, world := .block, fields := [F.PCIE_ERR_STATUS_POISONED_RX, F.PCIE_ERR_STATUS_UR_SENT, F.PCIE_ERR_STATUS_DRAM_POISON, F.PCIE_ERR_STATUS_WIN_OOR_SAT] }
  | .PCIE_F1_CTRL => { blk := 23, base := 0x510040, world := .secure, fields := [F.PCIE_F1_CTRL_F1_PRESENT] }
  | .GLB_CHIP_ID => { blk := 0, base := 0x0, world := .normal, fields := [F.GLB_CHIP_ID_PART, F.GLB_CHIP_ID_VENDOR] }
  | .GLB_REVISION => { blk := 0, base := 0x4, world := .normal, fields := [F.GLB_REVISION_GRADE, F.GLB_REVISION_STEP_LETTER, F.GLB_REVISION_STEP_NUM] }
  | .GLB_FW_VERSION => { blk := 0, base := 0x8, world := .normal, fields := [F.GLB_FW_VERSION_MAJOR, F.GLB_FW_VERSION_MINOR, F.GLB_FW_VERSION_BUILD] }
  | .GLB_BOOT_STATUS => { blk := 0, base := 0xc, world := .normal, fields := [F.GLB_BOOT_STATUS_ROM_ERROR, F.GLB_BOOT_STATUS_LC_STATE, F.GLB_BOOT_STATUS_TRIAL, F.GLB_BOOT_STATUS_FALLBACK, F.GLB_BOOT_STATUS_IMAGE, F.GLB_BOOT_STATUS_STAGE] }
  | .GLB_HEARTBEAT => { blk := 0, base := 0x10, world := .normal, fields := [F.GLB_HEARTBEAT_COUNT] }
  | .GLB_EXPERT => { blk := 0, base := 0x14, world := .normal, fields := [F.GLB_EXPERT_HOLDER_R, F.GLB_EXPERT_HOLDER_F1, F.GLB_EXPERT_HOLDER_F0, F.GLB_EXPERT_UNLOCKED_R, F.GLB_EXPERT_UNLOCKED_F1, F.GLB_EXPERT_UNLOCKED_F0] }
  | .GLB_EXPERT_DENIED => { blk := 0, base := 0x18, world := .normal, fields := [F.GLB_EXPERT_DENIED_COUNT] }
  | .GLB_CNT_SAT => { blk := 0, base := 0x1c, world := .normal, fields := [F.GLB_CNT_SAT_EXPERT_DENIED_SAT] }
  | .GLB_SCRATCH => { blk := 0, base := 0x20, world := .normal, fields := [F.GLB_SCRATCH_VALUE] }
  | .GLB_RESET => { blk := 0, base := 0x24, world := .normal, fields := [F.GLB_RESET_KEY, F.GLB_RESET_REQ] }
  | .GLB_UID_LO => { blk := 0, base := 0x28, world := .normal, fields := [F.GLB_UID_LO_UID] }
  | .GLB_UID_HI => { blk := 0, base := 0x2c, world := .normal, fields := [F.GLB_UID_HI_UID] }
  | .MBX_COMMAND => { blk := 1, base := 0x10000, n1 := 16, s1 := 4096, n2 := 64, s2 := 4, world := .mailbox, fields := [F.MBX_COMMAND_DATA] }
  | .MBX_RESULT => { blk := 1, base := 0x10400, n1 := 16, s1 := 4096, n2 := 64, s2 := 4, world := .mailbox, fields := [F.MBX_RESULT_DATA] }
  | .MBX_DOORBELL => { blk := 1, base := 0x10800, n1 := 16, s1 := 4096, world := .mailbox, fields := [F.MBX_DOORBELL_GO] }
  | .MBX_RESULT_ACK => { blk := 1, base := 0x10804, n1 := 16, s1 := 4096, world := .mailbox, fields := [F.MBX_RESULT_ACK_ACK] }
  | .MBX_STATUS => { blk := 1, base := 0x10808, n1 := 16, s1 := 4096, world := .mailbox, fields := [F.MBX_STATUS_JOB_DONE, F.MBX_STATUS_EXPERT, F.MBX_STATUS_HELD, F.MBX_STATUS_OVERRUN, F.MBX_STATUS_RESULT_PENDING, F.MBX_STATUS_BUSY] }
  | .SEM_LOCK => { blk := 1, base := 0x20000, n1 := 64, s1 := 4, world := .block, fields := [F.SEM_LOCK_GRANTED, F.SEM_LOCK_BROKEN, F.SEM_LOCK_OWNER] }
  | .SEM_RELEASE => { blk := 1, base := 0x20100, n1 := 64, s1 := 4, world := .block, fields := [F.SEM_RELEASE_CLEAR_BROKEN, F.SEM_RELEASE_RELEASE] }
  | .SEM_LEASE => { blk := 1, base := 0x20200, n1 := 64, s1 := 4, world := .block, fields := [F.SEM_LEASE_UNIT, F.SEM_LEASE_VAL] }
  | .SEM_BROKEN_LO => { blk := 1, base := 0x20300, world := .block, fields := [F.SEM_BROKEN_LO_BROKEN] }
  | .SEM_BROKEN_HI => { blk := 1, base := 0x20304, world := .block, fields := [F.SEM_BROKEN_HI_BROKEN] }
  | .SEM_BAD_RELEASE => { blk := 1, base := 0x20308, world := .block, fields := [F.SEM_BAD_RELEASE_COUNT] }
  | .SEM_CNT_SAT => { blk := 1, base := 0x2030c, world := .block, fields := [F.SEM_CNT_SAT_BAD_RELEASE_SAT] }
  | .SEM_FREED_LO => { blk := 1, base := 0x20310, world := .block, fields := [F.SEM_FREED_LO_FREED] }
  | .SEM_FREED_HI => { blk := 1, base := 0x20314, world := .block, fields := [F.SEM_FREED_HI_FREED] }
  | .SCH_CTRL => { blk := 14, base := 0x380000, world := .block, fields := [F.SCH_CTRL_ADMIT_PCT, F.SCH_CTRL_DISPATCH_EN] }
  | .SCH_CAPACITY => { blk := 14, base := 0x380004, world := .block, fields := [F.SCH_CAPACITY_IN_SERVICE, F.SCH_CAPACITY_CHARGE] }
  | .SCH_LIMIT => { blk := 14, base := 0x380008, world := .block, fields := [F.SCH_LIMIT_LIMIT] }
  | .SCH_LATE_TOTAL => { blk := 14, base := 0x38000c, world := .block, fields := [F.SCH_LATE_TOTAL_COUNT] }
  | .SCH_CTX_SEL => { blk := 14, base := 0x380010, world := .block, fields := [F.SCH_CTX_SEL_CTX] }
  | .SCH_CTX_EFFORT => { blk := 14, base := 0x380014, world := .block, fields := [F.SCH_CTX_EFFORT_CATCHUP, F.SCH_CTX_EFFORT_EFFECTIVE, F.SCH_CTX_EFFORT_CONFIGURED] }
  | .SCH_CTX_RATE => { blk := 14, base := 0x380018, world := .block, fields := [F.SCH_CTX_RATE_LINK_RATE] }
  | .SCH_CTX_BUCKET => { blk := 14, base := 0x38001c, world := .block, fields := [F.SCH_CTX_BUCKET_BUCKET] }
  | .SCH_CTX_QP => { blk := 14, base := 0x380020, world := .block, fields := [F.SCH_CTX_QP_QP_NOW, F.SCH_CTX_QP_QP_STEP_MAX, F.SCH_CTX_QP_QP_MAX, F.SCH_CTX_QP_QP_MIN] }
  | .SCH_CTX_PI => { blk := 14, base := 0x380024, world := .block, fields := [F.SCH_CTX_PI_KI, F.SCH_CTX_PI_KP] }
  | .SCH_CTX_ARM => { blk := 14, base := 0x380028, world := .block, fields := [F.SCH_CTX_ARM_SHADOW_ARMED, F.SCH_CTX_ARM_ARM] }
  | .SCH_CTX_LATE => { blk := 14, base := 0x38002c, world := .block, fields := [F.SCH_CTX_LATE_LATE_STREAK, F.SCH_CTX_LATE_LREM] }
  | .SCH_CTX_ALLOT => { blk := 14, base := 0x380030, world := .block, fields := [F.SCH_CTX_ALLOT_ALLOT] }
  | .SCH_CNT_SAT => { blk := 14, base := 0x380034, world := .block, fields := [F.SCH_CNT_SAT_LATE_TOTAL_SAT] }
  | .STK_CTRL => { blk := 15, base := 0x390000, world := .block, fields := [F.STK_CTRL_PACK_EN, F.STK_CTRL_EN] }
  | .STK_DESC_COUNT => { blk := 15, base := 0x390004, world := .block, fields := [F.STK_DESC_COUNT_RESERVED, F.STK_DESC_COUNT_FREE] }
  | .STK_DESC_SEL => { blk := 15, base := 0x390008, world := .block, fields := [F.STK_DESC_SEL_DESC] }
  | .STK_DESC_INFO => { blk := 15, base := 0x39000c, world := .block, fields := [F.STK_DESC_INFO_PINNED, F.STK_DESC_INFO_DISPLAY, F.STK_DESC_INFO_BEDROCK, F.STK_DESC_INFO_SHORT_TERM, F.STK_DESC_INFO_HOST_PIN, F.STK_DESC_INFO_SLOT, F.STK_DESC_INFO_GROUP] }
  | .STK_DESC_PICTURE => { blk := 15, base := 0x390010, world := .block, fields := [F.STK_DESC_PICTURE_PICTURE] }
  | .STK_DESC_BASE_LO => { blk := 15, base := 0x390014, world := .block, fields := [F.STK_DESC_BASE_LO_BASE] }
  | .STK_DESC_BASE_HI => { blk := 15, base := 0x390018, world := .block, fields := [F.STK_DESC_BASE_HI_BASE] }
  | .STK_PIN => { blk := 15, base := 0x39001c, world := .block, fields := [F.STK_PIN_DONE, F.STK_PIN_REFUSED, F.STK_PIN_UNPIN, F.STK_PIN_REQ, F.STK_PIN_DESC, F.STK_PIN_GROUP] }
  | .STK_CTX_SEL => { blk := 15, base := 0x390020, world := .block, fields := [F.STK_CTX_SEL_CTX] }
  | .STK_CTX_STATUS => { blk := 15, base := 0x390024, world := .block, fields := [F.STK_CTX_STATUS_CONCEALED, F.STK_CTX_STATUS_CONC_SLICES, F.STK_CTX_STATUS_LAST_PICTURE] }
  | .STK_BEDROCK_GEN => { blk := 15, base := 0x390028, world := .block, fields := [F.STK_BEDROCK_GEN_BUILD_GEN1, F.STK_BEDROCK_GEN_SERVE_GEN1, F.STK_BEDROCK_GEN_BUILD_GEN0, F.STK_BEDROCK_GEN_SERVE_GEN0] }
  | .STK_BEDROCK_STATE => { blk := 15, base := 0x39002c, world := .block, fields := [F.STK_BEDROCK_STATE_SERVING1, F.STK_BEDROCK_STATE_BUILDING1, F.STK_BEDROCK_STATE_NEXT_ROW1, F.STK_BEDROCK_STATE_SERVING0, F.STK_BEDROCK_STATE_BUILDING0, F.STK_BEDROCK_STATE_NEXT_ROW0] }
  | .STK_CRC_FAIL => { blk := 15, base := 0x390030, world := .block, fields := [F.STK_CRC_FAIL_COUNT] }
  | .STK_STALL_LIMIT => { blk := 15, base := 0x390034, world := .block, fields := [F.STK_STALL_LIMIT_US] }
  | .STK_PACK_RATIO => { blk := 15, base := 0x390038, world := .block, fields := [F.STK_PACK_RATIO_RATIO] }
  | .STK_CNT_SAT => { blk := 15, base := 0x39003c, world := .block, fields := [F.STK_CNT_SAT_CRC_FAIL_SAT] }
  | .HWR_STATUS => { blk := 13, base := 0x200000, n1 := 24, s1 := 65536, world := .block, fields := [F.HWR_STATUS_CTX, F.HWR_STATUS_BS_WAIT, F.HWR_STATUS_STATE] }
  | .HWR_CTRL => { blk := 13, base := 0x200004, n1 := 24, s1 := 65536, world := .block, fields := [F.HWR_CTRL_SERVICE, F.HWR_CTRL_DRAIN] }
  | .HWR_WAIT_LIMIT => { blk := 13, base := 0x200008, n1 := 24, s1 := 65536, world := .block, fields := [F.HWR_WAIT_LIMIT_EXP] }
  | .HWR_FAULT => { blk := 13, base := 0x20000c, n1 := 24, s1 := 65536, world := .block, fields := [F.HWR_FAULT_TOKEN_OVF, F.HWR_FAULT_ADDR_RANGE, F.HWR_FAULT_BRANCH_FORM, F.HWR_FAULT_WAIT_TIMEOUT, F.HWR_FAULT_LM_UNCORR, F.HWR_FAULT_PARITY] }
  | .HWR_FAULT_ADDR => { blk := 13, base := 0x200010, n1 := 24, s1 := 65536, world := .block, fields := [F.HWR_FAULT_ADDR_CLASS, F.HWR_FAULT_ADDR_ADDR] }
  | .HWR_PATCH_STATUS => { blk := 13, base := 0x200014, n1 := 24, s1 := 65536, world := .block, fields := [F.HWR_PATCH_STATUS_PATCH_ID, F.HWR_PATCH_STATUS_MATCH_USED, F.HWR_PATCH_STATUS_STATE] }
  | .HWR_ROM_VERSION => { blk := 13, base := 0x200018, n1 := 24, s1 := 65536, world := .block, fields := [F.HWR_ROM_VERSION_VERSION] }
  | .HWR_LM_CORR => { blk := 13, base := 0x20001c, n1 := 24, s1 := 65536, world := .block, fields := [F.HWR_LM_CORR_COUNT] }
  | .HWR_SLICES => { blk := 13, base := 0x200020, n1 := 24, s1 := 65536, world := .block, fields := [F.HWR_SLICES_COUNT] }
  | .HWR_CNT_SAT => { blk := 13, base := 0x200024, n1 := 24, s1 := 65536, world := .block, fields := [F.HWR_CNT_SAT_SLICES_SAT, F.HWR_CNT_SAT_LM_CORR_SAT] }
  | .HWR_MATCH => { blk := 13, base := 0x200100, n1 := 24, s1 := 65536, n2 := 64, s2 := 4, world := .secure, fields := [F.HWR_MATCH_EN, F.HWR_MATCH_PATCH_OFFSET, F.HWR_MATCH_ROM_ADDR] }
  | .HWR_PATCH_RAM => { blk := 13, base := 0x208000, n1 := 24, s1 := 65536, n2 := 8192, s2 := 4, world := .secure, fields := [F.HWR_PATCH_RAM_DATA] }
  | .DRS_CTRL => { blk := 16, base := 0x3a0000, world := .block, fields := [F.DRS_CTRL_LUT_ARMED, F.DRS_CTRL_LUT_ARM, F.DRS_CTRL_LUT_BANK, F.DRS_CTRL_DITHER_EN, F.DRS_CTRL_EN] }
  | .DRS_LUT_ADDR => { blk := 16, base := 0x3a0004, world := .block, fields := [F.DRS_LUT_ADDR_AUTO_INC, F.DRS_LUT_ADDR_LUT, F.DRS_LUT_ADDR_ENTRY] }
  | .DRS_LUT_DATA => { blk := 16, base := 0x3a0008, world := .block, fields := [F.DRS_LUT_DATA_VALUE] }
  | .DRS_BRIGHT => { blk := 16, base := 0x3a0010, n1 := 4, s1 := 4, world := .block, fields := [F.DRS_BRIGHT_ARM, F.DRS_BRIGHT_SHADOW_ARMED, F.DRS_BRIGHT_BRIGHT] }
  | .DRS_SAT => { blk := 16, base := 0x3a0020, world := .block, fields := [F.DRS_SAT_COUNT] }
  | .RIV_HALTED_LO => { blk := 17, base := 0x3b0010, world := .block, fields := [F.RIV_HALTED_LO_HALTED] }
  | .RIV_HALTED_HI => { blk := 17, base := 0x3b0014, world := .block, fields := [F.RIV_HALTED_HI_HALTED] }
  | .RIV_CH_CTRL => { blk := 17, base := 0x3b1000, n1 := 64, s1 := 256, world := .block, fields := [F.RIV_CH_CTRL_SOURCE, F.RIV_CH_CTRL_RETRY_LIMIT, F.RIV_CH_CTRL_EN, F.RIV_CH_CTRL_CLEAR, F.RIV_CH_CTRL_SHADOW_ARMED, F.RIV_CH_CTRL_ARM] }
  | .RIV_CH_TABLE_LO => { blk := 17, base := 0x3b1004, n1 := 64, s1 := 256, world := .block, fields := [F.RIV_CH_TABLE_LO_ADDR] }
  | .RIV_CH_TABLE_HI => { blk := 17, base := 0x3b1008, n1 := 64, s1 := 256, world := .block, fields := [F.RIV_CH_TABLE_HI_ADDR] }
  | .RIV_CH_SPLIT => { blk := 17, base := 0x3b100c, n1 := 64, s1 := 256, world := .block, fields := [F.RIV_CH_SPLIT_ACT_LAST, F.RIV_CH_SPLIT_ACT_FIRST, F.RIV_CH_SPLIT_LAST, F.RIV_CH_SPLIT_FIRST] }
  | .RIV_CH_STATUS => { blk := 17, base := 0x3b1010, n1 := 64, s1 := 256, world := .block, fields := [F.RIV_CH_STATUS_COUNT, F.RIV_CH_STATUS_ADOPTED, F.RIV_CH_STATUS_PANIC, F.RIV_CH_STATUS_ERR_AFTER_COUNT, F.RIV_CH_STATUS_ERR, F.RIV_CH_STATUS_DONE, F.RIV_CH_STATUS_STATE] }
  | .RIV_CH_ERR_ADDR_LO => { blk := 17, base := 0x3b1014, n1 := 64, s1 := 256, world := .block, fields := [F.RIV_CH_ERR_ADDR_LO_ADDR] }
  | .RIV_CH_ERR_ADDR_HI => { blk := 17, base := 0x3b1018, n1 := 64, s1 := 256, world := .block, fields := [F.RIV_CH_ERR_ADDR_HI_ADDR] }
  | .RIV_CH_STRIPS => { blk := 17, base := 0x3b101c, n1 := 64, s1 := 256, world := .block, fields := [F.RIV_CH_STRIPS_DROPPED, F.RIV_CH_STRIPS_RETRIES] }
  | .LMP_SYNC_GAP => { blk := 18, base := 0x3c0004, world := .block, fields := [F.LMP_SYNC_GAP_US_X10] }
  | .LMP_GRID_STATUS => { blk := 18, base := 0x3c0010, n1 := 4, s1 := 4, world := .block, fields := [F.LMP_GRID_STATUS_EN, F.LMP_GRID_STATUS_SUBFRAMES, F.LMP_GRID_STATUS_SFC] }
  | .LMP_PORT_CTRL => { blk := 18, base := 0x3c1000, n1 := 48, s1 := 256, world := .block, fields := [F.LMP_PORT_CTRL_PARTNER, F.LMP_PORT_CTRL_GRID, F.LMP_PORT_CTRL_END, F.LMP_PORT_CTRL_EN, F.LMP_PORT_CTRL_SHADOW_ARMED, F.LMP_PORT_CTRL_ARM] }
  | .LMP_PORT_SYNC_ADV => { blk := 18, base := 0x3c1004, n1 := 48, s1 := 256, world := .block, fields := [F.LMP_PORT_SYNC_ADV_NS] }
  | .LMP_PORT_PANIC => { blk := 18, base := 0x3c1008, n1 := 48, s1 := 256, world := .block, fields := [F.LMP_PORT_PANIC_OFF, F.LMP_PORT_PANIC_ON] }
  | .LMP_PORT_STATUS => { blk := 18, base := 0x3c100c, n1 := 48, s1 := 256, world := .block, fields := [F.LMP_PORT_STATUS_SPLIT, F.LMP_PORT_STATUS_BUF, F.LMP_PORT_STATUS_RX_CAL, F.LMP_PORT_STATUS_FAR_SYNC, F.LMP_PORT_STATUS_SAFE, F.LMP_PORT_STATUS_SAFE_KIND] }
  | .LMP_PORT_EVENT => { blk := 18, base := 0x3c1010, n1 := 48, s1 := 256, world := .block, fields := [F.LMP_PORT_EVENT_BREAK_D, F.LMP_PORT_EVENT_RX_LOS, F.LMP_PORT_EVENT_FAR_LOST, F.LMP_PORT_EVENT_DOUBLE_BREAK, F.LMP_PORT_EVENT_TAKEOVER, F.LMP_PORT_EVENT_BREAK] }
  | .LMP_PORT_LEAD => { blk := 18, base := 0x3c1014, n1 := 48, s1 := 256, world := .block, fields := [F.LMP_PORT_LEAD_NS] }
  | .LMP_PORT_COUNTS => { blk := 18, base := 0x3c1018, n1 := 48, s1 := 256, world := .block, fields := [F.LMP_PORT_COUNTS_RX_CRC, F.LMP_PORT_COUNTS_LATE_STRIPS] }
  | .HAUL_CTRL => { blk := 19, base := 0x400000, n1 := 6, s1 := 65536, world := .block, fields := [F.HAUL_CTRL_PROMISC, F.HAUL_CTRL_MGMT_TRUST, F.HAUL_CTRL_ENCAP, F.HAUL_CTRL_RATE, F.HAUL_CTRL_LANES, F.HAUL_CTRL_MODE, F.HAUL_CTRL_EN] }
  | .HAUL_STATUS => { blk := 19, base := 0x400004, n1 := 6, s1 := 65536, world := .block, fields := [F.HAUL_STATUS_LANE_SYNC, F.HAUL_STATUS_AN_DONE, F.HAUL_STATUS_REMOTE_FAULT, F.HAUL_STATUS_ALIGNED, F.HAUL_STATUS_LINK] }
  | .HAUL_EVENT => { blk := 19, base := 0x400008, n1 := 6, s1 := 65536, world := .block, fields := [F.HAUL_EVENT_LINK_UP, F.HAUL_EVENT_LINK_LOSS] }
  | .HAUL_MAC_LO => { blk := 19, base := 0x40000c, n1 := 6, s1 := 65536, world := .block, fields := [F.HAUL_MAC_LO_MAC] }
  | .HAUL_MAC_HI => { blk := 19, base := 0x400010, n1 := 6, s1 := 65536, world := .block, fields := [F.HAUL_MAC_HI_MAC] }
  | .HAUL_UDP => { blk := 19, base := 0x400014, n1 := 6, s1 := 65536, world := .block, fields := [F.HAUL_UDP_PT, F.HAUL_UDP_PORT] }
  | .HAUL_MTU => { blk := 19, base := 0x400018, n1 := 6, s1 := 65536, world := .block, fields := [F.HAUL_MTU_BYTES] }
  | .HAUL_LOS => { blk := 19, base := 0x40001c, n1 := 6, s1 := 65536, world := .block, fields := [F.HAUL_LOS_X100NS] }
  | .HAUL_DEFAULT_LO => { blk := 19, base := 0x400020, n1 := 6, s1 := 65536, world := .block, fields := [F.HAUL_DEFAULT_LO_ACTION] }
  | .HAUL_DEFAULT_HI => { blk := 19, base := 0x400024, n1 := 6, s1 := 65536, world := .block, fields := [F.HAUL_DEFAULT_HI_ACTION] }
  | .HAUL_PTP_LAT => { blk := 19, base := 0x400028, n1 := 6, s1 := 65536, world := .block, fields := [F.HAUL_PTP_LAT_RX_Q, F.HAUL_PTP_LAT_TX_Q] }
  | .HAUL_TS_INFO => { blk := 19, base := 0x400030, n1 := 6, s1 := 65536, world := .block, fields := [F.HAUL_TS_INFO_VALID, F.HAUL_TS_INFO_MSG_TYPE, F.HAUL_TS_INFO_DOMAIN, F.HAUL_TS_INFO_SEQ_ID] }
  | .HAUL_TS_TIME_LO => { blk := 19, base := 0x400034, n1 := 6, s1 := 65536, world := .block, fields := [F.HAUL_TS_TIME_LO_TIME] }
  | .HAUL_TS_TIME_HI => { blk := 19, base := 0x400038, n1 := 6, s1 := 65536, world := .block, fields := [F.HAUL_TS_TIME_HI_TIME] }
  | .HAUL_CNT => { blk := 19, base := 0x400040, n1 := 6, s1 := 65536, n2 := 10, s2 := 4, world := .block, fields := [F.HAUL_CNT_COUNT] }
  | .HAUL_CNT_SAT => { blk := 19, base := 0x400070, n1 := 6, s1 := 65536, world := .block, fields := [F.HAUL_CNT_SAT_SAT] }
  | .CLS_CTRL => { blk := 20, base := 0x460000, world := .block, fields := [F.CLS_CTRL_CAPTURE_EN, F.CLS_CTRL_V1_EN, F.CLS_CTRL_EN] }
  | .CLS_DEVICE => { blk := 20, base := 0x460004, world := .block, fields := [F.CLS_DEVICE_ADDR] }
  | .CLS_VERSION => { blk := 20, base := 0x460008, world := .block, fields := [F.CLS_VERSION_STATE, F.CLS_VERSION_STAGED, F.CLS_VERSION_OLD, F.CLS_VERSION_LIVE] }
  | .CLS_COMMIT => { blk := 20, base := 0x46000c, world := .block, fields := [F.CLS_COMMIT_ERR, F.CLS_COMMIT_ABORT, F.CLS_COMMIT_CLONE, F.CLS_COMMIT_GO] }
  | .CLS_STAGE_COUNT => { blk := 20, base := 0x460010, world := .block, fields := [F.CLS_STAGE_COUNT_TERN, F.CLS_STAGE_COUNT_EXACT] }
  | .CLS_EXACT_INDEX => { blk := 20, base := 0x460020, world := .block, fields := [F.CLS_EXACT_INDEX_INDEX] }
  | .CLS_EXACT_DATA => { blk := 20, base := 0x460024, n1 := 8, s1 := 4, world := .block, fields := [F.CLS_EXACT_DATA_DATA] }
  | .CLS_TERN_INDEX => { blk := 20, base := 0x460050, world := .block, fields := [F.CLS_TERN_INDEX_INDEX] }
  | .CLS_TERN_DATA => { blk := 20, base := 0x460054, n1 := 12, s1 := 4, world := .block, fields := [F.CLS_TERN_DATA_DATA] }
  | .CLS_RING => { blk := 20, base := 0x460090, world := .block, fields := [F.CLS_RING_SIZE, F.CLS_RING_POS, F.CLS_RING_CCW_PORT, F.CLS_RING_CW_PORT, F.CLS_RING_EN] }
  | .CLS_RING_CUT => { blk := 20, base := 0x460094, world := .block, fields := [F.CLS_RING_CUT_CW_VALID, F.CLS_RING_CUT_CW_X, F.CLS_RING_CUT_CCW_VALID, F.CLS_RING_CUT_CCW_X] }
  | .CLS_RING_CMD => { blk := 20, base := 0x460098, world := .block, fields := [F.CLS_RING_CMD_SEND_RESTORE, F.CLS_RING_CMD_CLEAR_CCW, F.CLS_RING_CMD_CLEAR_CW] }
  | .CLS_FRAG => { blk := 20, base := 0x4600a0, world := .block, fields := [F.CLS_FRAG_USED] }
  | .CLS_CAPTURE_LO => { blk := 20, base := 0x4600b0, world := .block, fields := [F.CLS_CAPTURE_LO_ADDR] }
  | .CLS_CAPTURE_HI => { blk := 20, base := 0x4600b4, world := .block, fields := [F.CLS_CAPTURE_HI_ADDR] }
  | .CLS_CNT => { blk := 20, base := 0x4600c0, n1 := 16, s1 := 4, world := .block, fields := [F.CLS_CNT_COUNT] }
  | .CLS_CNT_SAT => { blk := 20, base := 0x460100, world := .block, fields := [F.CLS_CNT_SAT_SAT] }
  | .CLS_EVENT => { blk := 20, base := 0x460104, world := .block, fields := [F.CLS_EVENT_CAPTURE_DROP, F.CLS_EVENT_FRAG_TABLE_FULL, F.CLS_EVENT_BREAK, F.CLS_EVENT_COMMIT_DONE] }
  | .CLS_MAC_LO => { blk := 20, base := 0x460148, first := 1, n1 := 15, s1 := 8, world := .block, fields := [F.CLS_MAC_LO_MAC] }
  | .CLS_MAC_HI => { blk := 20, base := 0x46014c, first := 1, n1 := 15, s1 := 8, world := .block, fields := [F.CLS_MAC_HI_MAC] }
  | .BPM_CTRL => { blk := 11, base := 0x150000, world := .block, fields := [F.BPM_CTRL_LIST_MODE, F.BPM_CTRL_DRAM_EN, F.BPM_CTRL_EN] }
  | .BPM_SRAM_RESERVE => { blk := 11, base := 0x150004, world := .block, fields := [F.BPM_SRAM_RESERVE_COUNT] }
  | .BPM_DRAM_BASE_LO => { blk := 11, base := 0x150008, world := .block, fields := [F.BPM_DRAM_BASE_LO_ADDR] }
  | .BPM_DRAM_BASE_HI => { blk := 11, base := 0x15000c, world := .block, fields := [F.BPM_DRAM_BASE_HI_ADDR] }
  | .BPM_FREE_SRAM => { blk := 11, base := 0x150010, world := .block, fields := [F.BPM_FREE_SRAM_COUNT] }
  | .BPM_FREE_DRAM => { blk := 11, base := 0x150014, world := .block, fields := [F.BPM_FREE_DRAM_COUNT] }
  | .BPM_MIN_FREE => { blk := 11, base := 0x150018, world := .block, fields := [F.BPM_MIN_FREE_COUNT] }
  | .BPM_NO_BUFFER => { blk := 11, base := 0x15001c, world := .block, fields := [F.BPM_NO_BUFFER_COUNT] }
  | .BPM_STALLS => { blk := 11, base := 0x150020, world := .block, fields := [F.BPM_STALLS_COUNT] }
  | .BPM_LIST_HEAD => { blk := 11, base := 0x150024, world := .block, fields := [F.BPM_LIST_HEAD_EMPTY, F.BPM_LIST_HEAD_HEAD] }
  | .BPM_EVENT => { blk := 11, base := 0x150028, world := .block, fields := [F.BPM_EVENT_STALL, F.BPM_EVENT_LOW, F.BPM_EVENT_NO_BUFFER] }
  | .BPM_CNT_SAT => { blk := 11, base := 0x15002c, world := .block, fields := [F.BPM_CNT_SAT_STALLS_SAT, F.BPM_CNT_SAT_NO_BUFFER_SAT] }
  | .SPQ_Q_SEL => { blk := 12, base := 0x160000, world := .block, fields := [F.SPQ_Q_SEL_QUEUE] }
  | .SPQ_Q_CFG => { blk := 12, base := 0x160004, world := .block, fields := [F.SPQ_Q_CFG_SPILL, F.SPQ_Q_CFG_EN, F.SPQ_Q_CFG_SIZE, F.SPQ_Q_CFG_CT] }
  | .SPQ_Q_BASE_LO => { blk := 12, base := 0x160008, world := .block, fields := [F.SPQ_Q_BASE_LO_ADDR] }
  | .SPQ_Q_BASE_HI => { blk := 12, base := 0x16000c, world := .block, fields := [F.SPQ_Q_BASE_HI_ADDR] }
  | .SPQ_Q_STATUS => { blk := 12, base := 0x160010, world := .block, fields := [F.SPQ_Q_STATUS_AT_THRESHOLD, F.SPQ_Q_STATUS_USED] }
  | .SPQ_Q_DROPPED => { blk := 12, base := 0x160014, world := .block, fields := [F.SPQ_Q_DROPPED_COUNT] }
  | .SPQ_Q_CLEFTS => { blk := 12, base := 0x160018, world := .block, fields := [F.SPQ_Q_CLEFTS_COUNT] }
  | .SPQ_POISON => { blk := 12, base := 0x16001c, world := .block, fields := [F.SPQ_POISON_COUNT] }
  | .SPQ_EVENT => { blk := 12, base := 0x160020, world := .block, fields := [F.SPQ_EVENT_POISON, F.SPQ_EVENT_DROP] }
  | .SPQ_CNT_SAT => { blk := 12, base := 0x160024, world := .block, fields := [F.SPQ_CNT_SAT_POISON_SAT, F.SPQ_CNT_SAT_CLEFTS_SAT, F.SPQ_CNT_SAT_DROPPED_SAT] }
  | .TMG_Q_CFG => { blk := 21, base := 0x470000, n1 := 6, s1 := 8192, n2 := 64, s2 := 128, world := .block, fields := [F.TMG_Q_CFG_EN, F.TMG_Q_CFG_WEIGHT] }
  | .TMG_Q_DEPTH_MAX => { blk := 21, base := 0x470004, n1 := 6, s1 := 8192, n2 := 64, s2 := 128, world := .block, fields := [F.TMG_Q_DEPTH_MAX_BYTES] }
  | .TMG_Q_YELLOW_MAX => { blk := 21, base := 0x470008, n1 := 6, s1 := 8192, n2 := 64, s2 := 128, world := .block, fields := [F.TMG_Q_YELLOW_MAX_BYTES] }
  | .TMG_Q_SHAPE_RATE => { blk := 21, base := 0x47000c, n1 := 6, s1 := 8192, n2 := 64, s2 := 128, world := .block, fields := [F.TMG_Q_SHAPE_RATE_RATE] }
  | .TMG_Q_SHAPE_BURST => { blk := 21, base := 0x470010, n1 := 6, s1 := 8192, n2 := 64, s2 := 128, world := .block, fields := [F.TMG_Q_SHAPE_BURST_BYTES] }
  | .TMG_Q_DEPTH => { blk := 21, base := 0x470014, n1 := 6, s1 := 8192, n2 := 64, s2 := 128, world := .block, fields := [F.TMG_Q_DEPTH_DROPS_SAT, F.TMG_Q_DEPTH_BYTES] }
  | .TMG_Q_DROPS => { blk := 21, base := 0x470018, n1 := 6, s1 := 8192, n2 := 64, s2 := 128, world := .block, fields := [F.TMG_Q_DROPS_COUNT] }
  | .TMG_Q_DMIN => { blk := 21, base := 0x47001c, n1 := 6, s1 := 8192, n2 := 64, s2 := 128, world := .block, fields := [F.TMG_Q_DMIN_VALUE] }
  | .TMG_Q_DMAX => { blk := 21, base := 0x470020, n1 := 6, s1 := 8192, n2 := 64, s2 := 128, world := .block, fields := [F.TMG_Q_DMAX_VALUE] }
  | .TMG_Q_HMIN => { blk := 21, base := 0x470028, n1 := 6, s1 := 8192, n2 := 64, s2 := 128, world := .block, fields := [F.TMG_Q_HMIN_VALUE] }
  | .TMG_Q_HMAX => { blk := 21, base := 0x47002c, n1 := 6, s1 := 8192, n2 := 64, s2 := 128, world := .block, fields := [F.TMG_Q_HMAX_VALUE] }
  | .TMG_Q_DMEAN => { blk := 21, base := 0x470024, n1 := 6, s1 := 8192, n2 := 64, s2 := 128, world := .block, fields := [F.TMG_Q_DMEAN_MEAN] }
  | .TMG_Q_HMEAN => { blk := 21, base := 0x470030, n1 := 6, s1 := 8192, n2 := 64, s2 := 128, world := .block, fields := [F.TMG_Q_HMEAN_MEAN] }
  | .TMG_PORT_CTRL => { blk := 21, base := 0x47c000, n1 := 6, s1 := 256, world := .block, fields := [F.TMG_PORT_CTRL_EN, F.TMG_PORT_CTRL_SAMPLE_K] }
  | .TMG_PORT_SHAPE_RATE => { blk := 21, base := 0x47c004, n1 := 6, s1 := 256, world := .block, fields := [F.TMG_PORT_SHAPE_RATE_RATE] }
  | .TMG_PORT_SHAPE_BURST => { blk := 21, base := 0x47c008, n1 := 6, s1 := 256, world := .block, fields := [F.TMG_PORT_SHAPE_BURST_BYTES] }
  | .TMG_PORT_VTIME_LO => { blk := 21, base := 0x47c00c, n1 := 6, s1 := 256, world := .block, fields := [F.TMG_PORT_VTIME_LO_V] }
  | .TMG_PORT_VTIME_HI => { blk := 21, base := 0x47c010, n1 := 6, s1 := 256, world := .block, fields := [F.TMG_PORT_VTIME_HI_V] }
  | .TMG_PORT_EVENT => { blk := 21, base := 0x47c014, n1 := 6, s1 := 256, world := .block, fields := [F.TMG_PORT_EVENT_TAIL_DROP] }
  | .TMG_METER_SEL => { blk := 21, base := 0x47d000, world := .block, fields := [F.TMG_METER_SEL_METER] }
  | .TMG_METER_CTRL => { blk := 21, base := 0x47d004, world := .block, fields := [F.TMG_METER_CTRL_AWARE, F.TMG_METER_CTRL_EN] }
  | .TMG_METER_CIR => { blk := 21, base := 0x47d008, world := .block, fields := [F.TMG_METER_CIR_RATE] }
  | .TMG_METER_PIR => { blk := 21, base := 0x47d00c, world := .block, fields := [F.TMG_METER_PIR_RATE] }
  | .TMG_METER_CBS => { blk := 21, base := 0x47d010, world := .block, fields := [F.TMG_METER_CBS_BYTES] }
  | .TMG_METER_PBS => { blk := 21, base := 0x47d014, world := .block, fields := [F.TMG_METER_PBS_BYTES] }
  | .TMG_METER_COUNT => { blk := 21, base := 0x47d018, n1 := 3, s1 := 4, world := .block, fields := [F.TMG_METER_COUNT_COUNT] }
  | .TMG_METER_CNT_SAT => { blk := 21, base := 0x47d024, world := .block, fields := [F.TMG_METER_CNT_SAT_SAT] }
  | .DDR_CTRL => { blk := 9, base := 0x100000, n1 := 4, s1 := 65536, world := .block, fields := [F.DDR_CTRL_WRITEBACK, F.DDR_CTRL_SCRUB_EN, F.DDR_CTRL_EN] }
  | .DDR_CONFIG => { blk := 9, base := 0x100004, n1 := 4, s1 := 65536, world := .secure, fields := [F.DDR_CONFIG_LOCK, F.DDR_CONFIG_TWO_CH, F.DDR_CONFIG_RANKS, F.DDR_CONFIG_DENSITY, F.DDR_CONFIG_SPEED] }
  | .DDR_STATUS => { blk := 9, base := 0x100008, n1 := 4, s1 := 65536, world := .block, fields := [F.DDR_STATUS_TEMP_2X, F.DDR_STATUS_STATE] }
  | .DDR_PAGE => { blk := 9, base := 0x10000c, n1 := 4, s1 := 65536, world := .block, fields := [F.DDR_PAGE_IDLE] }
  | .DDR_REFRESH => { blk := 9, base := 0x100010, n1 := 4, s1 := 65536, world := .block, fields := [F.DDR_REFRESH_POSTPONE, F.DDR_REFRESH_MODE] }
  | .DDR_TIMING_SEL => { blk := 9, base := 0x100014, n1 := 4, s1 := 65536, world := .block, fields := [F.DDR_TIMING_SEL_INDEX] }
  | .DDR_TIMING_VAL => { blk := 9, base := 0x100018, n1 := 4, s1 := 65536, world := .block, fields := [F.DDR_TIMING_VAL_ACTIVE, F.DDR_TIMING_VAL_VALUE] }
  | .DDR_TIMING_ARM => { blk := 9, base := 0x10001c, n1 := 4, s1 := 65536, world := .block, fields := [F.DDR_TIMING_ARM_SHADOW_ARMED, F.DDR_TIMING_ARM_ARM] }
  | .DDR_TRAIN => { blk := 9, base := 0x100020, n1 := 4, s1 := 65536, world := .block, fields := [F.DDR_TRAIN_START, F.DDR_TRAIN_BUSY, F.DDR_TRAIN_RESULT, F.DDR_TRAIN_EYE_MIN] }
  | .DDR_LANE_SEL => { blk := 9, base := 0x100024, n1 := 4, s1 := 65536, world := .block, fields := [F.DDR_LANE_SEL_RANK, F.DDR_LANE_SEL_LANE] }
  | .DDR_LANE_DELAY => { blk := 9, base := 0x100028, n1 := 4, s1 := 65536, world := .block, fields := [F.DDR_LANE_DELAY_WR, F.DDR_LANE_DELAY_RD] }
  | .DDR_LANE_EYE => { blk := 9, base := 0x10002c, n1 := 4, s1 := 65536, world := .block, fields := [F.DDR_LANE_EYE_WR_LAST, F.DDR_LANE_EYE_WR_FIRST, F.DDR_LANE_EYE_RD_LAST, F.DDR_LANE_EYE_RD_FIRST] }
  | .DDR_DRIFT => { blk := 9, base := 0x100030, n1 := 4, s1 := 65536, world := .block, fields := [F.DDR_DRIFT_PERIOD_MS, F.DDR_DRIFT_DRIFT_MAX] }
  | .DDR_SCRUB => { blk := 9, base := 0x100034, n1 := 4, s1 := 65536, world := .block, fields := [F.DDR_SCRUB_HOURS] }
  | .DDR_FILL => { blk := 9, base := 0x100038, n1 := 4, s1 := 65536, world := .block, fields := [F.DDR_FILL_START, F.DDR_FILL_BUSY] }
  | .DDR_CE => { blk := 9, base := 0x10003c, n1 := 4, s1 := 65536, world := .block, fields := [F.DDR_CE_COUNT] }
  | .DDR_UE => { blk := 9, base := 0x100040, n1 := 4, s1 := 65536, world := .block, fields := [F.DDR_UE_COUNT] }
  | .DDR_WCRC_RETRY => { blk := 9, base := 0x100044, n1 := 4, s1 := 65536, world := .block, fields := [F.DDR_WCRC_RETRY_COUNT] }
  | .DDR_WCRC_FAIL => { blk := 9, base := 0x100048, n1 := 4, s1 := 65536, world := .block, fields := [F.DDR_WCRC_FAIL_COUNT] }
  | .DDR_CNT_SAT => { blk := 9, base := 0x10004c, n1 := 4, s1 := 65536, world := .block, fields := [F.DDR_CNT_SAT_SAT] }
  | .DDR_EVENT => { blk := 9, base := 0x100050, n1 := 4, s1 := 65536, world := .block, fields := [F.DDR_EVENT_DRIFT, F.DDR_EVENT_RETRAIN_FAIL, F.DDR_EVENT_WCRC_FAIL, F.DDR_EVENT_UE, F.DDR_EVENT_CE] }
  | .DDR_LOG_STATUS => { blk := 9, base := 0x100100, world := .block, fields := [F.DDR_LOG_STATUS_CLEAR, F.DDR_LOG_STATUS_LOG_CE, F.DDR_LOG_STATUS_FULL, F.DDR_LOG_STATUS_COUNT] }
  | .DDR_LOG_LOST => { blk := 9, base := 0x100104, world := .block, fields := [F.DDR_LOG_LOST_SAT, F.DDR_LOG_LOST_COUNT] }
  | .DDR_LOG_SEL => { blk := 9, base := 0x100108, world := .block, fields := [F.DDR_LOG_SEL_INDEX] }
  | .DDR_LOG_DATA => { blk := 9, base := 0x100110, n1 := 4, s1 := 4, world := .block, fields := [F.DDR_LOG_DATA_DATA] }
  | .ARB_CTRL => { blk := 10, base := 0x140000, n1 := 4, s1 := 4096, world := .block, fields := [F.ARB_CTRL_WATCHDOG] }
  | .ARB_EVENT => { blk := 10, base := 0x140004, n1 := 4, s1 := 4096, world := .block, fields := [F.ARB_EVENT_WRAP, F.ARB_EVENT_WATCHDOG] }
  | .ARB_REQ_CFG => { blk := 10, base := 0x140100, n1 := 4, s1 := 4096, n2 := 12, s2 := 32, world := .block, fields := [F.ARB_REQ_CFG_EN, F.ARB_REQ_CFG_WEIGHT] }
  | .ARB_GRANTS_LO => { blk := 10, base := 0x140104, n1 := 4, s1 := 4096, n2 := 12, s2 := 32, world := .block, fields := [F.ARB_GRANTS_LO_COUNT] }
  | .ARB_GRANTS_HI => { blk := 10, base := 0x140108, n1 := 4, s1 := 4096, n2 := 12, s2 := 32, world := .block, fields := [F.ARB_GRANTS_HI_COUNT] }
  | .ARB_WAITS_LO => { blk := 10, base := 0x14010c, n1 := 4, s1 := 4096, n2 := 12, s2 := 32, world := .block, fields := [F.ARB_WAITS_LO_COUNT] }
  | .ARB_WAITS_HI => { blk := 10, base := 0x140110, n1 := 4, s1 := 4096, n2 := 12, s2 := 32, world := .block, fields := [F.ARB_WAITS_HI_COUNT] }
  | .ARB_MAXWAIT => { blk := 10, base := 0x140114, n1 := 4, s1 := 4096, n2 := 12, s2 := 32, world := .block, fields := [F.ARB_MAXWAIT_FCLK] }
  | .LANE_CFG => { blk := 22, base := 0x500000, n1 := 64, s1 := 1024, world := .block, fields := [F.LANE_CFG_EN, F.LANE_CFG_FUNC, F.LANE_CFG_PORT, F.LANE_CFG_PORT_LANE, F.LANE_CFG_RX_INV, F.LANE_CFG_TX_INV, F.LANE_CFG_RATE] }
  | .LANE_TX => { blk := 22, base := 0x500004, n1 := 64, s1 := 1024, world := .block, fields := [F.LANE_TX_AMP, F.LANE_TX_DEEMPH] }
  | .LANE_RX => { blk := 22, base := 0x500008, n1 := 64, s1 := 1024, world := .block, fields := [F.LANE_RX_PEAK_FIXED, F.LANE_RX_PEAK] }
  | .LANE_STATUS => { blk := 22, base := 0x50000c, n1 := 64, s1 := 1024, world := .block, fields := [F.LANE_STATUS_CDR_OFS, F.LANE_STATUS_PEAK_NOW, F.LANE_STATUS_PRBS_LOCK, F.LANE_STATUS_CAL, F.LANE_STATUS_SYNC, F.LANE_STATUS_CDR_LOCK, F.LANE_STATUS_SIGNAL] }
  | .LANE_EVENT => { blk := 22, base := 0x500010, n1 := 64, s1 := 1024, world := .block, fields := [F.LANE_EVENT_CONFLICT, F.LANE_EVENT_CAL_ABORT, F.LANE_EVENT_CAL_DONE, F.LANE_EVENT_SYNC_LOSS, F.LANE_EVENT_LOS] }
  | .LANE_CNT => { blk := 22, base := 0x500020, n1 := 64, s1 := 1024, n2 := 4, s2 := 4, world := .block, fields := [F.LANE_CNT_COUNT] }
  | .LANE_CNT_SAT => { blk := 22, base := 0x500030, n1 := 64, s1 := 1024, world := .block, fields := [F.LANE_CNT_SAT_SAT] }
  | .LANE_PRBS => { blk := 22, base := 0x500034, n1 := 64, s1 := 1024, world := .block, fields := [F.LANE_PRBS_CHK, F.LANE_PRBS_GEN, F.LANE_PRBS_PATTERN] }
  | .ING_CTRL => { blk := 24, base := 0x480000, n1 := 8, s1 := 4096, world := .block, fields := [F.ING_CTRL_EN, F.ING_CTRL_LEADER, F.ING_CTRL_MODE, F.ING_CTRL_WALL, F.ING_CTRL_LANES] }
  | .ING_REGION_POS => { blk := 24, base := 0x480004, n1 := 8, s1 := 4096, world := .block, fields := [F.ING_REGION_POS_Y_OFF, F.ING_REGION_POS_X_OFF] }
  | .ING_REGION_SIZE => { blk := 24, base := 0x480008, n1 := 8, s1 := 4096, world := .block, fields := [F.ING_REGION_SIZE_HEIGHT, F.ING_REGION_SIZE_WIDTH] }
  | .ING_STATUS => { blk := 24, base := 0x48000c, n1 := 8, s1 := 4096, world := .block, fields := [F.ING_STATUS_LINK, F.ING_STATUS_ALIGNED, F.ING_STATUS_IN_PICTURE, F.ING_STATUS_LINE] }
  | .ING_PICTURE => { blk := 24, base := 0x480010, n1 := 8, s1 := 4096, world := .block, fields := [F.ING_PICTURE_SRC_PICTURE, F.ING_PICTURE_WALL_PICTURE] }
  | .ING_CLOSE => { blk := 24, base := 0x480014, n1 := 8, s1 := 4096, world := .block, fields := [F.ING_CLOSE_US] }
  | .ING_CNT => { blk := 24, base := 0x480020, n1 := 8, s1 := 4096, n2 := 8, s2 := 4, world := .block, fields := [F.ING_CNT_COUNT] }
  | .ING_CNT_SAT => { blk := 24, base := 0x480040, n1 := 8, s1 := 4096, world := .block, fields := [F.ING_CNT_SAT_SAT] }
  | .ING_EVENT => { blk := 24, base := 0x480044, n1 := 8, s1 := 4096, world := .block, fields := [F.ING_EVENT_CLOSED, F.ING_EVENT_LOSS, F.ING_EVENT_ERROR, F.ING_EVENT_PICTURE_END] }
  | .INTC_GLOBAL => { blk := 4, base := 0x30000, world := .block, fields := [F.INTC_GLOBAL_MASTER_EN] }
  | .INTC_SPURIOUS_WAKE => { blk := 4, base := 0x30004, world := .block, fields := [F.INTC_SPURIOUS_WAKE_COUNT] }
  | .INTC_WAKE_CAUSE => { blk := 4, base := 0x30008, world := .secure, fields := [F.INTC_WAKE_CAUSE_VALID, F.INTC_WAKE_CAUSE_SOURCE] }
  | .INTC_CNT_SAT => { blk := 4, base := 0x3000c, world := .block, fields := [F.INTC_CNT_SAT_SPURIOUS_WAKE_SAT] }
  | .INTC_ROUTE => { blk := 4, base := 0x31000, n1 := 1024, s1 := 4, world := .source, fields := [F.INTC_ROUTE_EN, F.INTC_ROUTE_WAKE_EN, F.INTC_ROUTE_TARGET, F.INTC_ROUTE_VECTOR, F.INTC_ROUTE_LEVEL, F.INTC_ROUTE_CLAIMED, F.INTC_ROUTE_PENDING] }
  | .INTC_LEVEL => { blk := 4, base := 0x32000, n1 := 32, s1 := 4, world := .block, fields := [F.INTC_LEVEL_BITS] }
  | .INTC_PENDING => { blk := 4, base := 0x32080, n1 := 32, s1 := 4, world := .block, fields := [F.INTC_PENDING_BITS] }
  | .INTC_SW_SET_LO => { blk := 4, base := 0x32100, world := .normal, fields := [F.INTC_SW_SET_LO_LEVEL] }
  | .INTC_SW_SET_HI => { blk := 4, base := 0x32104, world := .secure, fields := [F.INTC_SW_SET_HI_LEVEL] }
  | .INTC_SW_CLR_LO => { blk := 4, base := 0x32108, world := .normal, fields := [F.INTC_SW_CLR_LO_LEVEL] }
  | .INTC_SW_CLR_HI => { blk := 4, base := 0x3210c, world := .secure, fields := [F.INTC_SW_CLR_HI_LEVEL] }
  | .INTC_TGT_CTRL => { blk := 4, base := 0x33000, n1 := 4, s1 := 256, world := .target, fields := [F.INTC_TGT_CTRL_EN] }
  | .INTC_CLAIM => { blk := 4, base := 0x33004, n1 := 4, s1 := 256, world := .target, fields := [F.INTC_CLAIM_LEVEL, F.INTC_CLAIM_SOURCE] }
  | .INTC_COMPLETE => { blk := 4, base := 0x33008, n1 := 4, s1 := 256, world := .target, fields := [F.INTC_COMPLETE_SOURCE] }
  | .INTC_TGT_STATUS => { blk := 4, base := 0x3300c, n1 := 4, s1 := 256, world := .target, fields := [F.INTC_TGT_STATUS_FULL, F.INTC_TGT_STATUS_ORDER_ERR, F.INTC_TGT_STATUS_ASLEEP, F.INTC_TGT_STATUS_SIGNAL, F.INTC_TGT_STATUS_DEPTH] }
  | .INTC_STACK => { blk := 4, base := 0x33010, n1 := 4, s1 := 256, n2 := 8, s2 := 4, world := .target, fields := [F.INTC_STACK_SOURCE] }
  | .INTC_TGT_CNT => { blk := 4, base := 0x33030, n1 := 4, s1 := 256, n2 := 3, s2 := 4, world := .target, fields := [F.INTC_TGT_CNT_COUNT] }
  | .INTC_TGT_CNT_SAT => { blk := 4, base := 0x3303c, n1 := 4, s1 := 256, world := .target, fields := [F.INTC_TGT_CNT_SAT_SAT] }
  | .INTC_CLAIM_S => { blk := 4, base := 0x33240, world := .secure, fields := [F.INTC_CLAIM_S_LEVEL, F.INTC_CLAIM_S_SOURCE] }
  | .INTC_COMPLETE_S => { blk := 4, base := 0x33244, world := .secure, fields := [F.INTC_COMPLETE_S_SOURCE] }
  | .FLT_STATUS => { blk := 5, base := 0x40000, world := .block, fields := [F.FLT_STATUS_FATAL, F.FLT_STATUS_FATAL_SRC, F.FLT_STATUS_CP_RESTARTED, F.FLT_STATUS_SUMMARY] }
  | .FLT_SAFE_LO => { blk := 5, base := 0x40008, world := .block, fields := [F.FLT_SAFE_LO_PORTS] }
  | .FLT_SAFE_HI => { blk := 5, base := 0x4000c, world := .block, fields := [F.FLT_SAFE_HI_PORTS] }
  | .FLT_SAFE_KIND_LO => { blk := 5, base := 0x40010, world := .block, fields := [F.FLT_SAFE_KIND_LO_HOLD] }
  | .FLT_SAFE_KIND_HI => { blk := 5, base := 0x40014, world := .block, fields := [F.FLT_SAFE_KIND_HI_HOLD] }
  | .FLT_WDOG => { blk := 5, base := 0x40018, world := .block, fields := [F.FLT_WDOG_EN, F.FLT_WDOG_KICK, F.FLT_WDOG_PERIOD_MS] }
  | .FLT_CP_RESTARTS => { blk := 5, base := 0x4001c, world := .block, fields := [F.FLT_CP_RESTARTS_COUNT] }
  | .FLT_CNT_SAT_LO => { blk := 5, base := 0x40020, world := .block, fields := [F.FLT_CNT_SAT_LO_SAT] }
  | .FLT_CNT_SAT_HI => { blk := 5, base := 0x40024, world := .block, fields := [F.FLT_CNT_SAT_HI_SAT] }
  | .FLT_SRC_CFG => { blk := 5, base := 0x41010, first := 1, n1 := 63, s1 := 16, world := .block, fields := [F.FLT_SRC_CFG_LOG, F.FLT_SRC_CFG_ESC_FATAL, F.FLT_SRC_CFG_ESC_SAFE, F.FLT_SRC_CFG_SCOPE, F.FLT_SRC_CFG_REACTION, F.FLT_SRC_CFG_CLASS, F.FLT_SRC_CFG_UNIT, F.FLT_SRC_CFG_VAL] }
  | .FLT_SRC_STATUS => { blk := 5, base := 0x41014, first := 1, n1 := 63, s1 := 16, world := .block, fields := [F.FLT_SRC_STATUS_ACTIVE, F.FLT_SRC_STATUS_GRACE, F.FLT_SRC_STATUS_EXPIRED, F.FLT_SRC_STATUS_INSTANCE] }
  | .FLT_SRC_COUNT => { blk := 5, base := 0x41018, first := 1, n1 := 63, s1 := 16, world := .block, fields := [F.FLT_SRC_COUNT_COUNT] }
  | .FLT_SRC_ACK => { blk := 5, base := 0x4101c, first := 1, n1 := 63, s1 := 16, world := .block, fields := [F.FLT_SRC_ACK_ACK] }
  | .EVT_HEAD => { blk := 5, base := 0x48000, world := .block, fields := [F.EVT_HEAD_SEQ] }
  | .EVT_TAIL => { blk := 5, base := 0x48004, world := .block, fields := [F.EVT_TAIL_SEQ] }
  | .EVT_LOST => { blk := 5, base := 0x48008, world := .block, fields := [F.EVT_LOST_COUNT] }
  | .EVT_STATUS => { blk := 5, base := 0x4800c, world := .block, fields := [F.EVT_STATUS_LOST_SAT, F.EVT_STATUS_LOST_NEW, F.EVT_STATUS_NEAR_FULL] }
  | .EVT_SEL => { blk := 5, base := 0x48010, world := .block, fields := [F.EVT_SEL_INDEX] }
  | .EVT_DATA => { blk := 5, base := 0x48020, n1 := 8, s1 := 4, world := .block, fields := [F.EVT_DATA_DATA] }
  | .CLK_STATUS => { blk := 6, base := 0x50000, world := .block, fields := [F.CLK_STATUS_LANE_LOCK, F.CLK_STATUS_CORE_LOCK] }
  | .CLK_TB_LO => { blk := 6, base := 0x50010, world := .block, fields := [F.CLK_TB_LO_TIME] }
  | .CLK_TB_HI => { blk := 6, base := 0x50014, world := .block, fields := [F.CLK_TB_HI_TIME] }
  | .CLK_TB_TRIM => { blk := 6, base := 0x50018, world := .secure, fields := [F.CLK_TB_TRIM_PPB] }
  | .CLK_TB_STEP_LO => { blk := 6, base := 0x50020, world := .secure, fields := [F.CLK_TB_STEP_LO_STEP] }
  | .CLK_TB_STEP_HI => { blk := 6, base := 0x50024, world := .secure, fields := [F.CLK_TB_STEP_HI_STEP] }
  | .CLK_STEP_REFUSED => { blk := 6, base := 0x50028, world := .block, fields := [F.CLK_STEP_REFUSED_COUNT] }
  | .CLK_EVENT => { blk := 6, base := 0x5002c, world := .block, fields := [F.CLK_EVENT_REFUSED_SAT, F.CLK_EVENT_PTP_LOCKED, F.CLK_EVENT_PTP_STATE, F.CLK_EVENT_STEP_REFUSED] }
  | .PWR_STATUS => { blk := 7, base := 0x60000, world := .block, fields := [F.PWR_STATUS_STAGE, F.PWR_STATUS_STATE] }
  | .PWR_SETPOINT => { blk := 7, base := 0x60004, world := .block, fields := [F.PWR_SETPOINT_CMD_MV, F.PWR_SETPOINT_REF_MV] }
  | .PWR_SHED_THR => { blk := 7, base := 0x60010, n1 := 6, s1 := 4, world := .secure, fields := [F.PWR_SHED_THR_OFFSET] }
  | .PWR_VMIN => { blk := 7, base := 0x60030, world := .block, fields := [F.PWR_VMIN_MV] }
  | .PWR_TEMP => { blk := 7, base := 0x60040, n1 := 8, s1 := 4, world := .block, fields := [F.PWR_TEMP_TJ] }
  | .PWR_THERM => { blk := 7, base := 0x60060, world := .secure, fields := [F.PWR_THERM_WARN] }
  | .PWR_PMBUS => { blk := 7, base := 0x60064, world := .secure, fields := [F.PWR_PMBUS_VOUT_EXP, F.PWR_PMBUS_ADDR] }
  | .PWR_WAKE => { blk := 7, base := 0x60068, world := .block, fields := [F.PWR_WAKE_SECONDS] }
  | .PWR_EVENT => { blk := 7, base := 0x6006c, world := .block, fields := [F.PWR_EVENT_RAIL, F.PWR_EVENT_THERM, F.PWR_EVENT_PMBUS_ERR, F.PWR_EVENT_SHED] }
  | .CAL_STATUS => { blk := 8, base := 0x70000, world := .block, fields := [F.CAL_STATUS_DONE, F.CAL_STATUS_BUSY, F.CAL_STATUS_LANE] }
  | .CAL_SCHED => { blk := 8, base := 0x70004, world := .block, fields := [F.CAL_SCHED_TEMP_DELTA, F.CAL_SCHED_PERIOD_S] }
  | .TMR_CTRL => { blk := 25, base := 0xb0000, n1 := 64, s1 := 32, world := .block, fields := [F.TMR_CTRL_PERIODIC, F.TMR_CTRL_EN] }
  | .TMR_CMP_LO => { blk := 25, base := 0xb0004, n1 := 64, s1 := 32, world := .block, fields := [F.TMR_CMP_LO_CMP] }
  | .TMR_CMP_HI => { blk := 25, base := 0xb0008, n1 := 64, s1 := 32, world := .block, fields := [F.TMR_CMP_HI_CMP] }
  | .TMR_PERIOD => { blk := 25, base := 0xb000c, n1 := 64, s1 := 32, world := .block, fields := [F.TMR_PERIOD_NS] }
  | .TMR_STATUS => { blk := 25, base := 0xb0010, n1 := 64, s1 := 32, world := .block, fields := [F.TMR_STATUS_EXPIRED, F.TMR_STATUS_OVERRUN] }
  | .SEC_STATUS => { blk := 2, base := 0x80000, world := .secure, fields := [F.SEC_STATUS_LOCKOUT, F.SEC_STATUS_TAMPERED, F.SEC_STATUS_KWK_OK, F.SEC_STATUS_ID_OK, F.SEC_STATUS_REVOKE0, F.SEC_STATUS_LC_STATE] }
  | .SEC_BLOCK_WORLD => { blk := 2, base := 0x80004, world := .secure, fields := [F.SEC_BLOCK_WORLD_LOCK, F.SEC_BLOCK_WORLD_WORLD, F.SEC_BLOCK_WORLD_WORLD1, F.SEC_BLOCK_WORLD_FIXED] }
  | .SEC_WORLD_DENIED => { blk := 2, base := 0x80008, world := .secure, fields := [F.SEC_WORLD_DENIED_COUNT] }
  | .SEC_REGION_DENIED => { blk := 2, base := 0x8000c, world := .secure, fields := [F.SEC_REGION_DENIED_COUNT] }
  | .SEC_DENY_ADDR_LO => { blk := 2, base := 0x80010, world := .secure, fields := [F.SEC_DENY_ADDR_LO_ADDR] }
  | .SEC_DENY_ADDR_HI => { blk := 2, base := 0x80014, world := .secure, fields := [F.SEC_DENY_ADDR_HI_ADDR] }
  | .SEC_GCM_FAIL => { blk := 2, base := 0x80018, world := .secure, fields := [F.SEC_GCM_FAIL_COUNT] }
  | .SEC_EVENT => { blk := 2, base := 0x8001c, world := .secure, fields := [F.SEC_EVENT_SAT, F.SEC_EVENT_KEY_EXHAUSTED, F.SEC_EVENT_GCM_FAIL, F.SEC_EVENT_REGION_DENIED, F.SEC_EVENT_WORLD_DENIED] }
  | .SEC_TAMPER_CFG => { blk := 2, base := 0x80040, world := .secure, fields := [F.SEC_TAMPER_CFG_LOCKOUT, F.SEC_TAMPER_CFG_POL, F.SEC_TAMPER_CFG_EN] }
  | .SEC_TAMPER_STATUS => { blk := 2, base := 0x80044, world := .secure, fields := [F.SEC_TAMPER_STATUS_COUNT, F.SEC_TAMPER_STATUS_TAMPERED, F.SEC_TAMPER_STATUS_TRIPPED] }
  | .SEC_REGION_BASE => { blk := 2, base := 0x81000, n1 := 64, s1 := 16, world := .secure, fields := [F.SEC_REGION_BASE_PAGE] }
  | .SEC_REGION_LIMIT => { blk := 2, base := 0x81004, n1 := 64, s1 := 16, world := .secure, fields := [F.SEC_REGION_LIMIT_PAGE] }
  | .SEC_REGION_ATTR => { blk := 2, base := 0x81008, n1 := 64, s1 := 16, world := .secure, fields := [F.SEC_REGION_ATTR_EN, F.SEC_REGION_ATTR_WORLD, F.SEC_REGION_ATTR_LOCK, F.SEC_REGION_ATTR_WR, F.SEC_REGION_ATTR_RD] }
  | .SPD_CTRL => { blk := 3, base := 0xa0000, world := .secure, fields := [F.SPD_CTRL_CAUSE, F.SPD_CTRL_BUSY, F.SPD_CTRL_WIPE] }
  | .SPD_CE => { blk := 3, base := 0xa0004, world := .secure, fields := [F.SPD_CE_COUNT] }
  | .DRS_CNT_SAT => { blk := 16, base := 0x3a0024, world := .block, fields := [F.DRS_CNT_SAT_SAT] }

def regs0 : List RegId :=
  [.PCIE_BAR2_BASE_F0, .PCIE_BAR2_BASE_F1, .PCIE_LINK_STATUS, .PCIE_WIN_OOR, .PCIE_ERR_STATUS,
   .PCIE_F1_CTRL, .GLB_CHIP_ID, .GLB_REVISION, .GLB_FW_VERSION, .GLB_BOOT_STATUS,
   .GLB_HEARTBEAT, .GLB_EXPERT, .GLB_EXPERT_DENIED, .GLB_CNT_SAT, .GLB_SCRATCH,
   .GLB_RESET, .GLB_UID_LO, .GLB_UID_HI, .MBX_COMMAND, .MBX_RESULT,
   .MBX_DOORBELL, .MBX_RESULT_ACK, .MBX_STATUS, .SEM_LOCK, .SEM_RELEASE,
   .SEM_LEASE, .SEM_BROKEN_LO, .SEM_BROKEN_HI, .SEM_BAD_RELEASE, .SEM_CNT_SAT,
   .SEM_FREED_LO, .SEM_FREED_HI, .SCH_CTRL, .SCH_CAPACITY, .SCH_LIMIT,
   .SCH_LATE_TOTAL, .SCH_CTX_SEL, .SCH_CTX_EFFORT, .SCH_CTX_RATE, .SCH_CTX_BUCKET]

def regs1 : List RegId :=
  [.SCH_CTX_QP, .SCH_CTX_PI, .SCH_CTX_ARM, .SCH_CTX_LATE, .SCH_CTX_ALLOT,
   .SCH_CNT_SAT, .STK_CTRL, .STK_DESC_COUNT, .STK_DESC_SEL, .STK_DESC_INFO,
   .STK_DESC_PICTURE, .STK_DESC_BASE_LO, .STK_DESC_BASE_HI, .STK_PIN, .STK_CTX_SEL,
   .STK_CTX_STATUS, .STK_BEDROCK_GEN, .STK_BEDROCK_STATE, .STK_CRC_FAIL, .STK_STALL_LIMIT,
   .STK_PACK_RATIO, .STK_CNT_SAT, .HWR_STATUS, .HWR_CTRL, .HWR_WAIT_LIMIT,
   .HWR_FAULT, .HWR_FAULT_ADDR, .HWR_PATCH_STATUS, .HWR_ROM_VERSION, .HWR_LM_CORR,
   .HWR_SLICES, .HWR_CNT_SAT, .HWR_MATCH, .HWR_PATCH_RAM, .DRS_CTRL,
   .DRS_LUT_ADDR, .DRS_LUT_DATA, .DRS_BRIGHT, .DRS_SAT, .RIV_HALTED_LO]

def regs2 : List RegId :=
  [.RIV_HALTED_HI, .RIV_CH_CTRL, .RIV_CH_TABLE_LO, .RIV_CH_TABLE_HI, .RIV_CH_SPLIT,
   .RIV_CH_STATUS, .RIV_CH_ERR_ADDR_LO, .RIV_CH_ERR_ADDR_HI, .RIV_CH_STRIPS, .LMP_SYNC_GAP,
   .LMP_GRID_STATUS, .LMP_PORT_CTRL, .LMP_PORT_SYNC_ADV, .LMP_PORT_PANIC, .LMP_PORT_STATUS,
   .LMP_PORT_EVENT, .LMP_PORT_LEAD, .LMP_PORT_COUNTS, .HAUL_CTRL, .HAUL_STATUS,
   .HAUL_EVENT, .HAUL_MAC_LO, .HAUL_MAC_HI, .HAUL_UDP, .HAUL_MTU,
   .HAUL_LOS, .HAUL_DEFAULT_LO, .HAUL_DEFAULT_HI, .HAUL_PTP_LAT, .HAUL_TS_INFO,
   .HAUL_TS_TIME_LO, .HAUL_TS_TIME_HI, .HAUL_CNT, .HAUL_CNT_SAT, .CLS_CTRL,
   .CLS_DEVICE, .CLS_VERSION, .CLS_COMMIT, .CLS_STAGE_COUNT, .CLS_EXACT_INDEX]

def regs3 : List RegId :=
  [.CLS_EXACT_DATA, .CLS_TERN_INDEX, .CLS_TERN_DATA, .CLS_RING, .CLS_RING_CUT,
   .CLS_RING_CMD, .CLS_FRAG, .CLS_CAPTURE_LO, .CLS_CAPTURE_HI, .CLS_CNT,
   .CLS_CNT_SAT, .CLS_EVENT, .CLS_MAC_LO, .CLS_MAC_HI, .BPM_CTRL,
   .BPM_SRAM_RESERVE, .BPM_DRAM_BASE_LO, .BPM_DRAM_BASE_HI, .BPM_FREE_SRAM, .BPM_FREE_DRAM,
   .BPM_MIN_FREE, .BPM_NO_BUFFER, .BPM_STALLS, .BPM_LIST_HEAD, .BPM_EVENT,
   .BPM_CNT_SAT, .SPQ_Q_SEL, .SPQ_Q_CFG, .SPQ_Q_BASE_LO, .SPQ_Q_BASE_HI,
   .SPQ_Q_STATUS, .SPQ_Q_DROPPED, .SPQ_Q_CLEFTS, .SPQ_POISON, .SPQ_EVENT,
   .SPQ_CNT_SAT, .TMG_Q_CFG, .TMG_Q_DEPTH_MAX, .TMG_Q_YELLOW_MAX, .TMG_Q_SHAPE_RATE]

def regs4 : List RegId :=
  [.TMG_Q_SHAPE_BURST, .TMG_Q_DEPTH, .TMG_Q_DROPS, .TMG_Q_DMIN, .TMG_Q_DMAX,
   .TMG_Q_HMIN, .TMG_Q_HMAX, .TMG_Q_DMEAN, .TMG_Q_HMEAN, .TMG_PORT_CTRL,
   .TMG_PORT_SHAPE_RATE, .TMG_PORT_SHAPE_BURST, .TMG_PORT_VTIME_LO, .TMG_PORT_VTIME_HI, .TMG_PORT_EVENT,
   .TMG_METER_SEL, .TMG_METER_CTRL, .TMG_METER_CIR, .TMG_METER_PIR, .TMG_METER_CBS,
   .TMG_METER_PBS, .TMG_METER_COUNT, .TMG_METER_CNT_SAT, .DDR_CTRL, .DDR_CONFIG,
   .DDR_STATUS, .DDR_PAGE, .DDR_REFRESH, .DDR_TIMING_SEL, .DDR_TIMING_VAL,
   .DDR_TIMING_ARM, .DDR_TRAIN, .DDR_LANE_SEL, .DDR_LANE_DELAY, .DDR_LANE_EYE,
   .DDR_DRIFT, .DDR_SCRUB, .DDR_FILL, .DDR_CE, .DDR_UE]

def regs5 : List RegId :=
  [.DDR_WCRC_RETRY, .DDR_WCRC_FAIL, .DDR_CNT_SAT, .DDR_EVENT, .DDR_LOG_STATUS,
   .DDR_LOG_LOST, .DDR_LOG_SEL, .DDR_LOG_DATA, .ARB_CTRL, .ARB_EVENT,
   .ARB_REQ_CFG, .ARB_GRANTS_LO, .ARB_GRANTS_HI, .ARB_WAITS_LO, .ARB_WAITS_HI,
   .ARB_MAXWAIT, .LANE_CFG, .LANE_TX, .LANE_RX, .LANE_STATUS,
   .LANE_EVENT, .LANE_CNT, .LANE_CNT_SAT, .LANE_PRBS, .ING_CTRL,
   .ING_REGION_POS, .ING_REGION_SIZE, .ING_STATUS, .ING_PICTURE, .ING_CLOSE,
   .ING_CNT, .ING_CNT_SAT, .ING_EVENT, .INTC_GLOBAL, .INTC_SPURIOUS_WAKE,
   .INTC_WAKE_CAUSE, .INTC_CNT_SAT, .INTC_ROUTE, .INTC_LEVEL, .INTC_PENDING]

def regs6 : List RegId :=
  [.INTC_SW_SET_LO, .INTC_SW_SET_HI, .INTC_SW_CLR_LO, .INTC_SW_CLR_HI, .INTC_TGT_CTRL,
   .INTC_CLAIM, .INTC_COMPLETE, .INTC_TGT_STATUS, .INTC_STACK, .INTC_TGT_CNT,
   .INTC_TGT_CNT_SAT, .INTC_CLAIM_S, .INTC_COMPLETE_S, .FLT_STATUS, .FLT_SAFE_LO,
   .FLT_SAFE_HI, .FLT_SAFE_KIND_LO, .FLT_SAFE_KIND_HI, .FLT_WDOG, .FLT_CP_RESTARTS,
   .FLT_CNT_SAT_LO, .FLT_CNT_SAT_HI, .FLT_SRC_CFG, .FLT_SRC_STATUS, .FLT_SRC_COUNT,
   .FLT_SRC_ACK, .EVT_HEAD, .EVT_TAIL, .EVT_LOST, .EVT_STATUS,
   .EVT_SEL, .EVT_DATA, .CLK_STATUS, .CLK_TB_LO, .CLK_TB_HI,
   .CLK_TB_TRIM, .CLK_TB_STEP_LO, .CLK_TB_STEP_HI, .CLK_STEP_REFUSED, .CLK_EVENT]

def regs7 : List RegId :=
  [.PWR_STATUS, .PWR_SETPOINT, .PWR_SHED_THR, .PWR_VMIN, .PWR_TEMP,
   .PWR_THERM, .PWR_PMBUS, .PWR_WAKE, .PWR_EVENT, .CAL_STATUS,
   .CAL_SCHED, .TMR_CTRL, .TMR_CMP_LO, .TMR_CMP_HI, .TMR_PERIOD,
   .TMR_STATUS, .SEC_STATUS, .SEC_BLOCK_WORLD, .SEC_WORLD_DENIED, .SEC_REGION_DENIED,
   .SEC_DENY_ADDR_LO, .SEC_DENY_ADDR_HI, .SEC_GCM_FAIL, .SEC_EVENT, .SEC_TAMPER_CFG,
   .SEC_TAMPER_STATUS, .SEC_REGION_BASE, .SEC_REGION_LIMIT, .SEC_REGION_ATTR, .SPD_CTRL,
   .SPD_CE, .DRS_CNT_SAT]

/-- Every register. -/
def allRegs : List RegId :=
  regs0 ++ regs1 ++ regs2 ++ regs3 ++ regs4 ++ regs5 ++ regs6 ++ regs7

/-- The instance of register `r` at BAR0 offset `a`, where `a` is one of its offsets. -/
def RegId.inst? (r : RegId) (a : Nat) : Option Nat :=
  let g := r.info
  if a < g.base then none
  else
    let d := a - g.base
    let k := if g.s1 = 0 then 0 else d / g.s1
    let e := if g.s1 = 0 then d else d % g.s1
    let j := if g.s2 = 0 then 0 else e / g.s2
    let z := if g.s2 = 0 then e else e % g.s2
    if k < g.n1 ∧ j < g.n2 ∧ z = 0 then some ((g.first + k) * g.n2 + j) else none

/-- The register and instance at BAR0 offset `a`; none at an offset that holds no register. -/
def regAt (a : Nat) : Option (RegId × Nat) :=
  allRegs.findSome? (fun r => (r.inst? a).map (fun i => (r, i)))

/-- The BAR0 offset of instance `i` of register `r`. -/
def RegId.addr (r : RegId) (i : Nat) : Nat :=
  r.info.base + (i / r.info.n2 - r.info.first) * r.info.s1 + (i % r.info.n2) * r.info.s2

end Sys2Proof.Machine
end

