-- ==== Sys2Proof/Machine/Ops.lean ====
section
/-! DEFINITION. The named operations over registers, memories, mailboxes and jobs. -/

namespace Sys2Proof.Machine

-- ## The parts of the state

def State.withFw (s : State) (g : FwState → FwState) : State := { s with fw := g s.fw }

def State.withIntc (s : State) (g : IntcState → IntcState) : State := { s with intc := g s.intc }

def State.withFlt (s : State) (g : FltState → FltState) : State := { s with flt := g s.flt }

def State.withPwr (s : State) (g : PwrState → PwrState) : State := { s with pwr := g s.pwr }

def State.withAon (s : State) (g : AonState → AonState) : State := { s with aon := g s.aon }

def State.withSec (s : State) (g : SecState → SecState) : State := { s with sec := g s.sec }

def State.withTime (s : State) (g : TimeState → TimeState) : State := { s with time := g s.time }

def State.withLamp (s : State) (g : LampState → LampState) : State := { s with lamp := g s.lamp }

def State.withCodec (s : State) (g : CodecState → CodecState) : State := { s with codec := g s.codec }

def State.withQ (s : State) (g : QueueState → QueueState) : State := { s with q := g s.q }

def State.withHaul (s : State) (g : HaulState → HaulState) : State := { s with haul := g s.haul }

def State.withLane (s : State) (g : LaneState → LaneState) : State := { s with lane := g s.lane }

def State.withMem (s : State) (g : MemState → MemState) : State := { s with mem := g s.mem }

-- ## Register fields (R10 to R12)

/-- Field `F` of instance `i`. -/
def State.f (s : State) (F : Fld) (i : Nat) : Nat := Tab.get (F.reset i) (Tab.get [] s.regs F.code) i

/-- Field `F` of instance `i` is 1. -/
def State.fb (s : State) (F : Fld) (i : Nat) : Bool := decide (s.f F i = 1)

/-- Hardware or software puts `v` into a field, kept to its width. -/
def State.setF (s : State) (F : Fld) (i v : Nat) : State :=
  { s with regs := Tab.set [] s.regs F.code (Tab.set (F.reset i) (Tab.get [] s.regs F.code) i (v % 2 ^ F.len)) }

/-- Bit `k` of a field set. -/
def State.orF (s : State) (F : Fld) (i k : Nat) : State := s.setF F i (s.f F i ||| 2 ^ k)

/-- The bits of `m` cleared in a field. -/
def State.clrF (s : State) (F : Fld) (i m : Nat) : State := s.setF F i (s.f F i - (s.f F i &&& m))

/-- A counter advances by one and saturates at its all-ones value; there it sets bit `k` of SAT field `S` (R31). -/
def State.count (s : State) (F : Fld) (i : Nat) (S : Fld) (j k : Nat) : State :=
  let m := 2 ^ F.len - 1
  let v := min (s.f F i + 1) m
  let t := s.setF F i v
  if v = m then t.orF S j k else t

/-- A counter without a SAT bit (R31). -/
def State.bump (s : State) (F : Fld) (i : Nat) : State := s.setF F i (min (s.f F i + 1) (2 ^ F.len - 1))

/-- A counter without a SAT bit advances by `n`. -/
def State.bumpBy (s : State) (F : Fld) (i n : Nat) : State := s.setF F i (min (s.f F i + n) (2 ^ F.len - 1))

/-- The functions of the list in turn. -/
def chainAll {α : Type} (l : List α) (f : α → State → State) (s : State) : State := l.foldl (fun t x => f x t) s

-- ## Memories

def State.dramBytes (s : State) (a n : Nat) : List Byte := Tab.getList 0 s.dram a n

/-- Bytes into DRAM. -/
def State.putDram (s : State) (a : Nat) (bs : List Byte) : State := { s with dram := Tab.setList 0 s.dram a bs }

/-- An erased flash byte reads 0xFF. -/
def State.flashBytes (s : State) (a n : Nat) : List Byte := Tab.getList 0xFF s.flash a n

/-- The OTP as it reads (R408): a row of 8 bytes that reads uncorrectably is taken as all ones. -/
def State.otpBytes (s : State) (a n : Nat) : List Byte :=
  (List.range n).map (fun i => if (a + i) / 8 ∈ s.otpBad then 0xFF else Tab.get 0 s.otp (a + i))

/-- The secret areas, IDSEED and KWK (R408). -/
def otpSecret (a : Nat) : Bool := decide (0x1C0 ≤ a) && decide (a < 0x220)

/-- Bytes programmed into OTP: a blown bit stays blown (R408). -/
def State.blow (s : State) (a : Nat) (bs : List Byte) : State :=
  { s with otp := Tab.setList 0 s.otp a ((Tab.getList 0 s.otp a bs.length).zip bs |>.map (fun p => p.1 ||| p.2)) }

/-- Bytes programmed into flash: only erased bits change to zero (R49). -/
def State.program (s : State) (a : Nat) (bs : List Byte) : State :=
  { s with flash := Tab.setList 0xFF s.flash a ((s.flashBytes a bs.length).zip bs |>.map (fun p => p.1 &&& p.2)) }

/-- `n` bytes of flash from `a` on erased. -/
def State.erase (s : State) (a n : Nat) : State :=
  { s with flash := s.flash.filter (fun e => decide (e.1 < a) || decide (a + n ≤ e.1)) }

/-- The next free value has a new number. -/
def State.draw (s : State) : State := { s with free := s.free + 1 }

-- ## Life cycle and security level

/-- LC_STATE as read from OTP at reset (R43): 0 BLANK, 1 PROVISIONED, 2 DEPLOYED, 3 RETURNED, 4 SCRAPPED. -/
def State.lc (s : State) : Nat := s.f F.GLB_BOOT_STATUS_LC_STATE 0

/-- Function 0 has the rights of the secure world (R399). -/
def State.openLc (s : State) : Bool := s.lc = 0 || s.lc = 1 || s.lc = 3

/-- An access of this originator is made in the secure world (R399). -/
def Origin.secure (o : Origin) (s : State) : Bool :=
  match o with
  | .f0 => s.openLc
  | .f1 => true
  | .cpS => true
  | .cpN => false
  | .debug => s.openLc

/-- The debug port is disabled in DEPLOYED and SCRAPPED, and function 1 exists in DEPLOYED only (R39, R399); in STANDBY no access reaches the core domain (R387). -/
def Origin.present (o : Origin) (s : State) : Bool :=
  !s.pwr.standby &&
    match o with
    | .f1 => decide (s.lc = 2)
    | .debug => s.openLc
    | _ => true

/-- The originator is a host function. -/
def Origin.host (o : Origin) : Bool := o = .f0 || o = .f1

/-- The owner code of R60. -/
def Origin.owner (o : Origin) : Nat :=
  match o with
  | .cpS => 1
  | .cpN => 2
  | .f0 => 4
  | .f1 => 5
  | .debug => 8

/-- The world bit of block `n` of R5 (R7, R401): true secure. -/
def State.blockSecure (s : State) (n : Nat) : Bool :=
  if n = 0 then false
  else if n = 1 then s.fb F.SEC_BLOCK_WORLD_WORLD1 0
  else if n ≤ 3 then true
  else (s.f F.SEC_BLOCK_WORLD_WORLD 0).testBit (n - 4)

/-- The world of an interrupt source (R345): true secure. -/
def State.sourceSecure (s : State) (n : Nat) : Bool :=
  let b := s.blockSecure
  if n = 0 then false
  else if n ≤ 15 then b 5
  else if n ≤ 31 then decide (24 ≤ n ∧ n ≤ 27)
  else if n ≤ 47 then decide (40 ≤ n ∧ n ≤ 43)
  else if n ≤ 63 then b 1
  else if n ≤ 159 then b 13
  else if n ≤ 223 then b 17
  else if n ≤ 287 then b 18
  else if n ≤ 351 then b 22
  else if n ≤ 383 then
    (if n ≤ 357 then b 19 else if n = 358 then b 20 else if n ≤ 364 then b 21 else if n ≤ 372 then b 24 else b 20)
  else if n ≤ 447 then (if n ≤ 387 then b 9 else b 10)
  else if n ≤ 511 then (if n = 448 then b 11 else b 12)
  else if n ≤ 767 then b 14
  else if n ≤ 831 then true
  else if n ≤ 847 then (if n = 832 then b 23 else b 7)
  else if n ≤ 851 then b 7
  else if n = 852 then b 8
  else if n ≤ 895 then b 6
  else if n ≤ 959 then b 25
  else decide (992 ≤ n)

/-- The wake-capable sources of R358. -/
def wakeCapable (n : Nat) : Bool := (decide (768 ≤ n) && decide (n ≤ 775)) || (decide (832 ≤ n) && decide (n ≤ 847))

-- ## Mailboxes (R50 to R55)

/-- Status codes of R55. -/
def stOk : Nat := 0x0000
def stStarted : Nat := 0x0001
def stUnknown : Nat := 0x0010
def stBadLength : Nat := 0x0011
def stBadArg : Nat := 0x0012
def stNotPermitted : Nat := 0x0020
def stLocked : Nat := 0x0021
def stNoResource : Nat := 0x0030
def stOverAdmission : Nat := 0x0031
def stSigFail : Nat := 0x0040
def stRollback : Nat := 0x0041
def stBusy : Nat := 0x0050
def stInternal : Nat := 0x00FF

/-- The 256 bytes of a mailbox's COMMAND area (R52). -/
def State.mbxCommand (s : State) (m : Nat) : List Byte :=
  (List.range 64).flatMap (fun i => leBytes 4 (s.f F.MBX_COMMAND_DATA (64 * m + i)))

def State.mbxWord (s : State) (m i : Nat) : Nat := s.f F.MBX_COMMAND_DATA (64 * m + i)

def State.mbxOpcode (s : State) (m : Nat) : Nat := s.mbxWord m 0 % 65536

def State.mbxTag (s : State) (m : Nat) : Nat := s.mbxWord m 0 / 65536

def State.mbxLen (s : State) (m : Nat) : Nat := s.mbxWord m 1 % 256

/-- The LEN argument bytes. -/
def State.mbxArgs (s : State) (m : Nat) : List Byte := ((s.mbxCommand m).drop 8).take (s.mbxLen m)

/-- The words of a result area from word `i` on. -/
def State.putWords (s : State) (m i : Nat) (ws : List Nat) : State :=
  match ws with
  | [] => s
  | w :: r => (s.setF F.MBX_RESULT_DATA (64 * m + i) w).putWords m (i + 1) r

/-- Bytes as little-endian words, `n` of them. -/
def wordsOf (n : Nat) (bs : List Byte) : List Nat := (List.range n).map (fun i => leAt bs (4 * i) 4)

/-- The header word of a new result (R53): TAG, READ_COUNT 0, VALID 1. -/
def resultHeader (tag : Nat) : Nat := tag % 65536 + 2 ^ 31

/-- Firmware writes a result, sets VALID and clears BUSY (R53, R54). -/
def State.putResult (s : State) (m status : Nat) (data : List Byte) : State :=
  let d := data.take 248
  let s := s.putWords m 2 (wordsOf 62 d)
  let s := s.setF F.MBX_RESULT_DATA (64 * m + 1) (status % 65536 + d.length * 65536)
  let s := s.setF F.MBX_RESULT_DATA (64 * m) (resultHeader (s.mbxTag m))
  let s := s.setF F.MBX_STATUS_RESULT_PENDING m 1
  let s := s.setF F.MBX_STATUS_HELD m 0
  s.setF F.MBX_STATUS_BUSY m 0

/-- VALID of a mailbox's result header. -/
def State.mbxValid (s : State) (m : Nat) : Bool := (s.f F.MBX_RESULT_DATA (64 * m)).testBit 31

/-- The stage of the boot (R43). -/
def State.stage (s : State) : Nat := s.f F.GLB_BOOT_STATUS_STAGE 0

/-- A live handover is in progress (R66): from FW_ACTIVATE until the new firmware reaches FW_READY. -/
def State.inHandover (s : State) : Bool := s.fw.handover || decide (s.stage = 5)

/-- FATAL (R370). -/
def State.fatal (s : State) : Bool := s.fb F.FLT_STATUS_FATAL 0

/-- The mailbox serves secure-only commands (R55, R399). -/
def State.mbxSecure (s : State) (m : Nat) : Bool := (decide (8 ≤ m) && decide (m ≤ 11)) || (decide (m ≤ 7) && s.openLc)

/-- An expert session is open for the mailbox's function, or for the remote mailboxes (R57, R236). -/
def State.mbxExpert (s : State) (m : Nat) : Bool :=
  if m ≤ 7 then s.fb F.GLB_EXPERT_UNLOCKED_F0 0
  else if m ≤ 11 then s.fb F.GLB_EXPERT_UNLOCKED_F1 0
  else s.fb F.GLB_EXPERT_UNLOCKED_R 0

/-- Who makes the accesses of a mailbox's commands (R399). -/
def mbxOrigin (m : Nat) : Origin := if 8 ≤ m ∧ m ≤ 11 then .cpS else .cpN

/-- The commands that FATAL still serves (R368): GET_INFO, JOB_STATUS, EVENT_READ, ATTEST. -/
def servedInFatal (op : Nat) : Bool := op = 0x0001 || op = 0x0002 || op = 0x0080 || op = 0x0090

/-- A command that is secure only (R55). -/
def secureOnly (op : Nat) : Bool := op = 0x0091 || op = 0x0092

/-- A command of the expert level (R55). -/
def expertOnly (op : Nat) : Bool := decide (0x0400 ≤ op) && decide (op ≤ 0x0490)

/-- The mailbox holds a submitted command with opcode `op` that the present stage serves (R50, R54, R56). -/
def State.mbxDue (s : State) (m op : Nat) : Bool :=
  decide (m < 16) && s.fb F.MBX_STATUS_BUSY m && decide (s.mbxOpcode m = op) && !s.pwr.cpHalted &&
    (if op = 0x0001 then decide (3 ≤ s.stage) else (decide (s.stage = 4) && !s.fb F.MBX_STATUS_HELD m))

/-- Firmware serves a command of ROM_RECOVERY: MBX0 only (R49). -/
def State.romDue (s : State) (m op : Nat) : Bool :=
  decide (m = 0) && s.fb F.MBX_STATUS_BUSY m && decide (s.mbxOpcode m = op) && decide (s.stage = 2)

/-- A mailbox command of firmware: nothing happens where the mailbox does not hold it. The checks that every command has come first: FATAL, world, session, length (R55, R57, R368); then `act`. -/
def State.serve (s : State) (m op : Nat) (lenOk : Nat → Bool) (act : State → State) : State :=
  if !s.mbxDue m op then s
  else if s.fatal && !servedInFatal op then s.putResult m stNotPermitted []
  else if secureOnly op && !s.mbxSecure m then s.putResult m stNotPermitted []
  else if expertOnly op && !s.mbxExpert m then s.putResult m stNotPermitted []
  else if !lenOk (s.mbxLen m) then s.putResult m stBadLength []
  else act s

/-- The jobs that firmware keeps (R55): the newest 64, and behind them older ones that still run. -/
def keepJobs (js : List Job) : List Job := js.take 64 ++ (js.drop 64).filter (fun j => j.state = .running)

/-- A job is started: the result is STARTED with the job number (R55). -/
def State.startJob (s : State) (m : Nat) (w : JobWork) : State :=
  let j : Job := { num := s.fw.nextJob, mbx := m, work := w }
  let s := (s.withFw (fun w => { w with jobs := keepJobs (j :: w.jobs), nextJob := (w.nextJob + 1) % 2 ^ 32 }))
  s.putResult m stStarted (leBytes 4 j.num)

/-- The job with number `n` that firmware keeps or that still runs. -/
def State.job? (s : State) (n : Nat) : Option Job := s.fw.jobs.find? (fun j => j.num = n)

/-- The job with number `n`, where it is among the last 64 (R55). -/
def State.jobKept? (s : State) (n : Nat) : Option Job := (s.fw.jobs.take 64).find? (fun j => j.num = n)

/-- A running job ends (R55). -/
def State.endJob (s : State) (n : Nat) (ok : Bool) (status : Nat) : State :=
  match s.job? n with
  | none => s
  | some j =>
    let e : Job := { j with state := if ok then .done else .failed, status := status, work := .none }
    let s := (s.withFw (fun w => { w with jobs := w.jobs.map (fun (x : Job) => if x.num = n then e else x) }))
    s.setF F.MBX_STATUS_JOB_DONE j.mbx 1

/-- A job runs. -/
def State.jobRuns (s : State) : Bool := s.fw.jobs.any (fun j => j.state = .running)

-- ## Semaphores (R60 to R62)

/-- The owner of lock `n`; 0: free. -/
def State.lockOwner (s : State) (n : Nat) : Nat := s.f F.SEM_LOCK_OWNER n

/-- The FREED bit of lock `n`. -/
def State.setFreed (s : State) (n : Nat) : State :=
  if n < 32 then s.orF F.SEM_FREED_LO_FREED 0 n else s.orF F.SEM_FREED_HI_FREED 0 (n - 32)

/-- Lock `n` is freed; a reader refused while it was held finds FREED set (R61). -/
def State.freeLock (s : State) (n : Nat) : State :=
  let s' := s.setF F.SEM_LOCK_OWNER n 0
  if n ∈ s.fw.lockRefused then
    ((s'.withFw (fun w => { w with lockRefused := w.lockRefused.filter (· ≠ n) }))).setFreed n
  else s'

/-- Lock `n` breaks: it is freed with BROKEN set (R62). A free lock does not break. -/
def State.breakLock (s : State) (n : Nat) : State :=
  if s.lockOwner n = 0 then s else (s.freeLock n).setF F.SEM_LOCK_BROKEN n 1

/-- Every lock that one of `owners` holds breaks (R60). -/
def State.breakLocksOf (s : State) (owners : List Nat) : State :=
  chainAll (List.range 64) (fun n t => if t.lockOwner n ∈ owners then t.breakLock n else t) s

/-- Every lock that one of `owners` holds is freed: its owner releases it (R61). -/
def State.freeLocksOf (s : State) (owners : List Nat) : State :=
  chainAll (List.range 64) (fun n t => if t.lockOwner n ∈ owners then t.freeLock n else t) s

/-- A firmware lock is held by someone other than the processor (R55, LOCKED). -/
def State.lockElsewhere (s : State) (n : Nat) : Bool := decide (s.lockOwner n ≠ 0) && decide (s.lockOwner n ≠ 1) && decide (s.lockOwner n ≠ 2)

-- ## DRAM capacity

/-- Density in Gb (R294, DDR_CONFIG). -/
def State.densityGb (s : State) : Nat := [8, 16, 24, 32].getD (s.f F.DDR_CONFIG_DENSITY 0) 16

/-- Channels populated (R294). -/
def State.channels (s : State) : Nat := if s.fb F.DDR_CONFIG_TWO_CH 0 then 2 else 4

/-- Installed capacity in GiB (R294). -/
def State.dramGiB (s : State) : Nat := s.channels * s.densityGb * (s.f F.DDR_CONFIG_RANKS 0 + 1)

/-- The first address out of range (R41, R295). -/
def State.dramTop (s : State) : Nat := 2 ^ 30 * s.dramGiB

-- ## Expert sessions (R57, R58, R236)

/-- The UNLOCKED and HOLDER fields of a mailbox's session. -/
def sessionOf (m : Nat) : Fld × Fld :=
  if m ≤ 7 then (F.GLB_EXPERT_UNLOCKED_F0, F.GLB_EXPERT_HOLDER_F0)
  else if m ≤ 11 then (F.GLB_EXPERT_UNLOCKED_F1, F.GLB_EXPERT_HOLDER_F1)
  else (F.GLB_EXPERT_UNLOCKED_R, F.GLB_EXPERT_HOLDER_R)

/-- A session opens with mailbox `m` as holder. -/
def State.openSession (s : State) (m : Nat) : State :=
  ((s.setF (sessionOf m).1 0 1).setF (sessionOf m).2 0 m).setF F.MBX_STATUS_EXPERT m 1

/-- The session of mailbox `m`'s function ends. -/
def State.closeSession (s : State) (m : Nat) : State :=
  if s.fb (sessionOf m).1 0 then
    ((s.setF F.MBX_STATUS_EXPERT (s.f (sessionOf m).2 0) 0).setF (sessionOf m).1 0 0).setF (sessionOf m).2 0 0
  else s

/-- Every expert session ends (R412, R414). -/
def State.closeSessions (s : State) : State := ((s.closeSession 0).closeSession 8).closeSession 12

-- ## Time

/-- T of R376, in ns. -/
def State.now (s : State) : Nat := s.time.c / 4

/-- The 0.25 ns format of R267. -/
def State.tick4 (s : State) : Nat := s.time.c % 2 ^ 64

/-- One FCLK of the time base (R377): C goes on by 5 quarters of a ns, or by 4 or 6 where the remainder r passes its limit. -/
def TimeState.advance (t : TimeState) (ppb : Int) : TimeState :=
  let p := clip ppb (-(500000 * 256)) (500000 * 256)
  let r := t.r + 5 * p
  if 256000000000 ≤ r then { c := t.c + 6, r := r - 256000000000, fclk := t.fclk + 1 }
  else if r ≤ -256000000000 then { c := t.c + 4, r := r + 256000000000, fclk := t.fclk + 1 }
  else { c := t.c + 5, r := r, fclk := t.fclk + 1 }

/-- One FCLK of the part: the time base goes on. C stands still after CORE_PLL_UNLOCK (R369), and in STANDBY the core domain is gated (R388). -/
def State.tick (s : State) : State :=
  if s.pwr.standby || s.pwr.onRefclk then s
  else s.withTime (fun t => t.advance (signed 32 (s.f F.CLK_TB_TRIM_PPB 0)))

-- ## Content keys (R418 to R423)

/-- AES-256-GCM in counter mode: ciphertext of plaintext, and plaintext of ciphertext. -/
def gcmXor (key iv bs : List Byte) : List Byte := (List.range bs.length).map (fun n => bs.getD n 0 ^^^ Config.gcmStream key iv n)

/-- The 96-bit IV of a unit (R420). `kind`: 0 slice, 2 bedrock. -/
def gcmIv (st : StreamHdr) (picture row kind slot : Nat) : List Byte :=
  beBytes 1 st.wall ++ beBytes 2 st.tile ++ beBytes 2 st.serial ++ beBytes 2 picture ++ beBytes 1 row ++ beBytes 1 kind ++ beBytes 1 slot ++ [0, 0]

/-- The key of a wall and parity, with what it has served. -/
def State.keySlot (s : State) (wall : Nat) (odd : Bool) : Option KeySlot := s.sec.keys.find? (fun k => decide (k.wall = wall) && decide (k.odd = odd))

/-- A unit fails its tag, or has no key (R423): counted, source 777. -/
def State.gcmFail (s : State) : State := (s.count F.SEC_GCM_FAIL_COUNT 0 F.SEC_EVENT_SAT 2 1).setF F.SEC_EVENT_GCM_FAIL 0 1

end Sys2Proof.Machine
end

