-- ==== Sys2Proof/Machine/FaultOps.lean ====
section
/-! DEFINITION. The event log, the safe states of the lamp ports, raising a fault and its reactions (R225, R359 to R372): the operations that every block calls. -/

namespace Sys2Proof.Machine

-- ## The event log (R372)

/-- HEAD − TAIL. -/
def State.evtHeld (s : State) : Nat := (s.f F.EVT_HEAD_SEQ 0 + 2 ^ 32 - s.f F.EVT_TAIL_SEQ 0) % 2 ^ 32

/-- One lost item (R372). -/
def State.evtLost (s : State) : State := (s.count F.EVT_LOST_COUNT 0 F.EVT_STATUS_LOST_SAT 0 0).setF F.EVT_STATUS_LOST_NEW 0 1

/-- The 32 bytes of an entry. -/
def evtEntry (time seq kind fsid cls inst : Nat) (detail : List Byte) : List Byte :=
  leBytes 8 time ++ leBytes 4 seq ++ leBytes 1 kind ++ leBytes 1 fsid ++ leBytes 1 (cls % 4) ++ [0] ++ leBytes 2 inst ++ [0, 0] ++
    (detail.take 12 ++ List.replicate (12 - (detail.take 12).length) 0)

/-- An entry is written; where 4,096 are unread, the oldest is overwritten and counted as lost. -/
def State.logEvent (s : State) (kind fsid cls inst : Nat) (detail : List Byte) : State :=
  let s := if s.evtHeld = 4096 then (s.setF F.EVT_TAIL_SEQ 0 (s.f F.EVT_TAIL_SEQ 0 + 1)).evtLost else s
  let seq := s.f F.EVT_HEAD_SEQ 0
  let e := evtEntry s.tick4 seq kind fsid cls inst detail
  let s := (s.withFlt (fun w => { w with log := Tab.set [] w.log (seq % 4096) e }))
  s.setF F.EVT_HEAD_SEQ 0 (seq + 1)

/-- Firmware logs a KIND 8 entry (R372); its event code is open. -/
def State.logFirmware (s : State) (k : Nat) : State := s.logEvent 8 (Config.fwEventCode k) 0 0 []

/-- A 48-bit port mask as DETAIL. -/
def portMask (ports : List Nat) : List Byte := leBytes 6 (ports.foldl (fun a p => a ||| 2 ^ p) 0)

-- ## Safe states of lamp ports (R225, R363)

def State.port (s : State) (n : Nat) : LampPort := Tab.get {} s.lamp.ports n

def State.setPort (s : State) (n : Nat) (p : LampPort) : State :=
  (s.withLamp (fun w => { w with ports := Tab.set {} w.ports n p }))

def State.holders (s : State) (n : Nat) : List Nat := Tab.get [] s.flt.holders n

def State.setHolders (s : State) (n : Nat) (l : List Nat) : State :=
  (s.withFlt (fun w => { w with holders := Tab.set [] w.holders n l }))

/-- FLT_SAFE_KIND of port `n`: true HOLD. -/
def State.safeKind (s : State) (n : Nat) : Bool :=
  if n < 32 then (s.f F.FLT_SAFE_KIND_LO_HOLD 0).testBit n else (s.f F.FLT_SAFE_KIND_HI_HOLD 0).testBit (n - 32)

/-- A reaction, or FATAL, holds the port. -/
def State.portHeld (s : State) (n : Nat) : Bool := decide (s.holders n ≠ []) || s.fatal

/-- Shedding stage 5 is in force (R225). -/
def State.shed5 (s : State) : Bool := decide (5 ≤ s.f F.PWR_STATUS_STAGE 0)

/-- The band in transmission at channel `n` ends unsent: a port that leaves its safe state resumes with the next queued band (R225). Responses still due close the fetch. -/
def RivChan.endBand (c : RivChan) : RivChan := { c with current := none, strips := [], bursts := [], flying := c.flying.map (fun b => { b with dead := true }) }

/-- Bytes in the transmit buffer: those of fetched strips that are not sent, up to 16 KiB (R213). -/
def RivChan.level (c : RivChan) : Nat := min 16384 ((c.strips.filter (·.ready)).map (fun x => x.data.length - x.done)).sum

/-- BUF of the port of channel `n`, which a capture channel has not. -/
def State.showBuf (s : State) (n : Nat) : State :=
  if n < 48 then s.setF F.LMP_PORT_STATUS_BUF n (min 255 ((Tab.get {} s.lamp.chans n).level / 64)) else s

/-- STATE, DONE, COUNT, PANIC and BUF of a channel without a strip in fetch (R213, R214). -/
def State.settleChan (s : State) (n : Nat) : State :=
  let c := Tab.get {} s.lamp.chans n
  let s := ((s.setF F.RIV_CH_STATUS_COUNT n 0).setF F.RIV_CH_STATUS_PANIC n 0).showBuf n
  if s.f F.RIV_CH_STATUS_STATE n = 4 then s.setF F.RIV_CH_STATUS_DONE n 0
  else if !c.en then (s.setF F.RIV_CH_STATUS_STATE n 0).setF F.RIV_CH_STATUS_DONE n 0
  else if c.flying = [] then (s.setF F.RIV_CH_STATUS_STATE n 1).setF F.RIV_CH_STATUS_DONE n 1
  else (s.setF F.RIV_CH_STATUS_STATE n 3).setF F.RIV_CH_STATUS_DONE n 0

/-- Some riving channel has a band of descriptor `d` queued or in transmission (R201). -/
def State.bandHolds (s : State) (d : Nat) : Bool :=
  s.lamp.chans.any (fun e => e.2.bands.any (fun b => decide (b.desc = d)) || e.2.current.any (fun b => decide (b.desc = d)))

/-- The band of descriptor `d` on a channel has ended: DISPLAY falls where no other band and no context shows the picture (R156, R201). -/
def State.dropDisplay (s : State) (d : Nat) : State :=
  let shows := s.codec.ctxs.any (fun e => e.2.any (fun x => x.prev.any (fun p => decide (p.desc = d)) || x.shown.any (fun p => decide (p.desc = d))))
  if s.bandHolds d || shows then s else s.setF F.STK_DESC_INFO_DISPLAY d 0

/-- The kind of safe state that a reaction gives a port (R225): HOLD or BLANK as `kind` says; a port that is in BLANK already stays in it. -/
def LampPort.holdNow (p : LampPort) : Bool := if p.safe && !p.hold then false else p.kind

/-- The port's safe state follows its causes: entering one ends a frame in progress with an abort, and the band with it; BLANK owes a BLANK frame; when no cause is left the port resumes (R225, R363). -/
def State.refreshPort (s : State) (n : Nat) : State :=
  let p := s.port n
  let held := s.portHeld n
  let want := held || s.shed5
  if want then
    let hold := if held then p.holdNow else (if p.safe then p.hold else true)
    let p' := { p with safe := true, hold := hold, blankDue := !hold && (p.blankDue || !p.safe || p.hold), frame := none, aborts := if p.frame.isSome then p.aborts + 1 else p.aborts }
    let c := Tab.get {} s.lamp.chans n
    let s := s.withLamp (fun w => { w with chans := Tab.set {} w.chans n c.endBand })
    let s := ((s.setPort n p').setF F.LMP_PORT_STATUS_SAFE n 1).settleChan n
    match c.current with
    | some b => s.dropDisplay b.desc
    | none => s
  else if p.safe then (s.setPort n { p with safe := false, blankDue := false }).setF F.LMP_PORT_STATUS_SAFE n 0
  else s

/-- Every lamp port. -/
def allPorts : List Nat := List.range 48

def State.refreshPorts (s : State) : State := chainAll allPorts (fun n t => t.refreshPort n) s

/-- The ports that a safe-state reaction acts on (R363). -/
def safeScope (fsid : Nat) (scope : Bool) (insts : List Nat) : List Nat :=
  if scope ∧ (fsid = 24 ∨ fsid = 25 ∨ fsid = 26 ∨ fsid = 33) then allPorts.filter (fun p => decide (p ∈ insts)) else allPorts

/-- The class of a source: 3 acts as 2. -/
def State.fltClass (s : State) (fsid : Nat) : Nat := min (s.f F.FLT_SRC_CFG_CLASS fsid) 2

/-- SAFE_NOW by a source (R362, R363): a KIND 3 entry with the ports. -/
def State.safeNow (s : State) (fsid : Nat) (scope : Bool) (insts : List Nat) : State :=
  let ports := safeScope fsid scope insts
  let s := chainAll ports (fun n t => (t.setHolders n (if fsid ∈ t.holders n then t.holders n else fsid :: t.holders n)).refreshPort n) s
  s.logEvent 3 fsid (s.fltClass fsid) (insts.headD 0) (portMask ports)

-- ## FATAL (R367, R370)

/-- What FATAL does to the hewers at once (R367): every running slice is abandoned and every hewer is OUT. -/
def State.hewersOut (s : State) : State :=
  let s := chainAll (List.range 24) (fun h t => (t.setF F.HWR_STATUS_STATE h 0).setF F.HWR_STATUS_CTX h 0) s
  s.withCodec (fun w => { w with hewers := w.hewers.map (fun e => (e.1, { e.2 with run := none })) })

/-- The part enters FATAL: held in the always-on domain, logged as KIND 5, with the output states of R367. -/
def State.enterFatal (s : State) (fsid : Nat) : State :=
  if s.fatal then s
  else
    let s := s.setF F.FLT_STATUS_FATAL 0 1
    let s := s.setF F.FLT_STATUS_FATAL_SRC 0 fsid
    let s := s.logEvent 5 fsid 2 (s.f F.FLT_SRC_STATUS_INSTANCE fsid) []
    let s := (s.withPwr (fun w => { w with cpHalted := w.cpHalted || decide (fsid = 1 ∨ fsid = 5), onRefclk := w.onRefclk || decide (fsid = 5) }))
    (s.hewersOut).refreshPorts

/-- SAT bit of a source's counter. -/
def State.fltCount (s : State) (fsid : Nat) : State :=
  if fsid < 32 then s.count F.FLT_SRC_COUNT_COUNT fsid F.FLT_CNT_SAT_LO_SAT 0 fsid
  else s.count F.FLT_SRC_COUNT_COUNT fsid F.FLT_CNT_SAT_HI_SAT 0 (fsid - 32)

/-- A raise is counted and marked, with its instance (R359, R360). -/
def State.markRaise (s : State) (fsid inst : Nat) : State :=
  ((s.fltCount fsid).setF F.FLT_SRC_STATUS_ACTIVE fsid 1).setF F.FLT_SRC_STATUS_INSTANCE fsid inst

/-- A raise of a source whose class is FATAL: counted and logged whatever LOG holds, then FATAL. -/
def State.raiseFatal (s : State) (fsid inst : Nat) (detail : List Byte) : State :=
  ((s.markRaise fsid inst).logEvent 1 fsid 2 inst detail).enterFatal fsid

/-- The control processor complex alone restarts (R365): its locks break and submitted commands are held. -/
def State.cpReset (s : State) : State :=
  let s := s.breakLocksOf [1, 2]
  let s := s.setF F.GLB_BOOT_STATUS_STAGE 0 0
  chainAll (List.range 16) (fun m t => if t.fb F.MBX_STATUS_BUSY m then t.setF F.MBX_STATUS_HELD m 1 else t) s

/-- The reaction CP_RESTART (R365): a third within one hour raises CP_RESTART_LIMIT instead. -/
def State.cpRestart (s : State) : State :=
  let recent := s.flt.restarts.filter (fun t => decide (s.now < t + 3600000000000))
  if 2 ≤ recent.length then s.raiseFatal 34 0 []
  else
    let s := { s with flt := { s.flt with restarts := s.now :: recent }, fw := { s.fw with restarted := true } }
    let s := s.count F.FLT_CP_RESTARTS_COUNT 0 F.FLT_CNT_SAT_LO_SAT 0 0
    (s.setF F.FLT_STATUS_CP_RESTARTED 0 1).cpReset

/-- A grace timer starts, or a raise joins the scope of the one that runs (R362, R366). -/
def State.graceRaise (s : State) (fsid inst : Nat) : State :=
  match Tab.get none s.flt.grace fsid with
  | some g => (s.withFlt (fun w => { w with grace := Tab.set none w.grace fsid (some { g with insts := g.insts ++ [inst] }) }))
  | none =>
    let g : Grace := { unit := s.f F.FLT_SRC_CFG_UNIT fsid, escSafe := s.fb F.FLT_SRC_CFG_ESC_SAFE fsid, escFatal := s.fb F.FLT_SRC_CFG_ESC_FATAL fsid, scope := s.fb F.FLT_SRC_CFG_SCOPE fsid, insts := [inst] }
    ((s.withFlt (fun w => { w with grace := Tab.set none w.grace fsid (some g) }))).setF F.FLT_SRC_STATUS_GRACE fsid 1

/-- A grace timer stops (R364). -/
def State.graceStop (s : State) (fsid : Nat) : State :=
  ((s.withFlt (fun w => { w with grace := Tab.set none w.grace fsid none }))).setF F.FLT_SRC_STATUS_GRACE fsid 0

/-- A fault source raises (R359 to R362): counted, logged and its reaction applied by its class. -/
def State.raiseFault (s : State) (fsid inst : Nat) (detail : List Byte) : State :=
  let cls := s.fltClass fsid
  if cls = 2 then s.raiseFatal fsid inst detail
  else
    let s := s.markRaise fsid inst
    let s := if s.fb F.FLT_SRC_CFG_LOG fsid then s.logEvent 1 fsid cls inst detail else s
    if cls = 0 then s
    else
      match s.f F.FLT_SRC_CFG_REACTION fsid with
      | 1 => s.safeNow fsid (s.fb F.FLT_SRC_CFG_SCOPE fsid) [inst]
      | 2 => s.graceRaise fsid inst
      | 3 => s.cpRestart
      | _ => s

-- ## Clearing and release (R363, R364, R372)

/-- The holders of the ports that name `fsid` lose it; the ports whose bit fell. -/
def State.dropHolder (s : State) (fsid : Nat) : State × List Nat :=
  let fell := allPorts.filter (fun n => decide (s.holders n ≠ []) && decide ((s.holders n).filter (· ≠ fsid) = []))
  (chainAll allPorts (fun n t => (t.setHolders n ((t.holders n).filter (· ≠ fsid))).refreshPort n) s, fell)

/-- RELEASE of one source: a KIND 4 entry where a bit fell. -/
def State.releaseSource (s : State) (fsid : Nat) : State :=
  let r := s.dropHolder fsid
  if r.2 = [] then r.1 else r.1.logEvent 4 fsid (r.1.fltClass fsid) 0 (portMask r.2)

/-- A source is cleared: ACTIVE, EXPIRED and its timer, with a KIND 6 entry. -/
def State.clearSource (s : State) (fsid : Nat) : State :=
  let s := s.logEvent 6 fsid (s.fltClass fsid) (s.f F.FLT_SRC_STATUS_INSTANCE fsid) []
  ((s.graceStop fsid).setF F.FLT_SRC_STATUS_ACTIVE fsid 0).setF F.FLT_SRC_STATUS_EXPIRED fsid 0

/-- Something of the source is there to be cleared. -/
def State.clearable (s : State) (fsid : Nat) : Bool :=
  s.fb F.FLT_SRC_STATUS_ACTIVE fsid || s.fb F.FLT_SRC_STATUS_EXPIRED fsid || decide (Tab.get none s.flt.grace fsid ≠ none)

/-- Expiry of a grace timer (R364). -/
def State.graceExpire (s : State) (fsid : Nat) : State :=
  match Tab.get none s.flt.grace fsid with
  | none => s
  | some g =>
    let s := (s.graceStop fsid).setF F.FLT_SRC_STATUS_EXPIRED fsid 1
    let s := s.logEvent 2 fsid (s.fltClass fsid) (g.insts.headD 0) []
    let s := if g.escSafe then s.safeNow fsid g.scope g.insts else s
    if g.escFatal then s.enterFatal fsid else s

end Sys2Proof.Machine
end

