-- ==== Sys2Proof/Machine/MemOps.lean ====
section
/-! DEFINITION. DRAM addresses (R295), the region check (R402, R403) and transfers presented to the arbiters (R314). -/

namespace Sys2Proof.Machine

-- ## Address fields (R295)

/-- Width of the channel field. -/
def State.chanBits (s : State) : Nat := if s.fb F.DDR_CONFIG_TWO_CH 0 then 1 else 2

/-- Width of the bank field. -/
def State.bankBits (s : State) : Nat := if s.f F.DDR_CONFIG_DENSITY 0 = 0 then 1 else 2

/-- Width of the rank field. -/
def State.rankBits (s : State) : Nat := s.f F.DDR_CONFIG_RANKS 0

/-- Bank group of address `a`. -/
def State.bankGroup (s : State) (a : Nat) : Nat := a / 2 ^ (10 + s.chanBits) % 8

/-- Channel of address `a`. -/
def State.channelOf (s : State) (a : Nat) : Nat := (a / 64 % 2 ^ s.chanBits) ^^^ (s.bankGroup a % 2 ^ s.chanBits)

/-- Subchannel of address `a`: 0 A, 1 B. -/
def State.subOf (s : State) (a : Nat) : Nat := a / 2 ^ (6 + s.chanBits) % 2

def State.bankOf (s : State) (a : Nat) : Nat := a / 2 ^ (16 + s.chanBits) % 2 ^ s.bankBits

def State.rankOf (s : State) (a : Nat) : Nat := a / 2 ^ (16 + s.chanBits + s.bankBits) % 2 ^ s.rankBits

def State.rowOf (s : State) (a : Nat) : Nat := a / 2 ^ (16 + s.chanBits + s.bankBits + s.rankBits)

/-- One number for a bank of a channel: subchannel, rank, bank group, bank. -/
def State.bankNo (s : State) (a : Nat) : Nat := ((s.subOf a * 2 + s.rankOf a) * 8 + s.bankGroup a) * 4 + s.bankOf a

-- ## Regions (R402, R403)

/-- The region against which a transfer at `a` is checked. -/
def State.regionOf (s : State) (a : Nat) : Option Nat :=
  (List.range 64).find? (fun r => s.fb F.SEC_REGION_ATTR_EN r && decide (s.f F.SEC_REGION_BASE_PAGE r ≤ a / 4096) && decide (a / 4096 ≤ s.f F.SEC_REGION_LIMIT_PAGE r))

/-- A transfer of requester `q` at `a` is permitted. -/
def State.permitted (s : State) (q a : Nat) (write secure : Bool) : Bool :=
  match s.regionOf a with
  | none => true
  | some r => (if write then s.f F.SEC_REGION_ATTR_WR r else s.f F.SEC_REGION_ATTR_RD r).testBit q && (!s.fb F.SEC_REGION_ATTR_WORLD r || secure)

/-- A refused transfer (R403): counted; the first since REGION_DENIED was cleared latches its address, requester and direction. -/
def State.denyRegion (s : State) (q a : Nat) (write : Bool) : State :=
  let s := s.count F.SEC_REGION_DENIED_COUNT 0 F.SEC_EVENT_SAT 0 1
  if s.fb F.SEC_EVENT_REGION_DENIED 0 then s
  else
    let s := (s.setF F.SEC_EVENT_REGION_DENIED 0 1).setF F.SEC_DENY_ADDR_LO_ADDR 0 (a % 2 ^ 32)
    s.setF F.SEC_DENY_ADDR_HI_ADDR 0 (a / 2 ^ 32 % 256 + (if write then 2 ^ 23 else 0) + q % 16 * 2 ^ 24)

-- ## Channels and transfers (R308, R314)

def State.mchan (s : State) (c : Nat) : MemChan := Tab.get {} s.mem.chans c

def State.setMchan (s : State) (c : Nat) (x : MemChan) : State := s.withMem (fun w => { w with chans := Tab.set {} w.chans c x })

/-- A transfer ends with response `code`. -/
def State.respond (s : State) (q line : Nat) (write : Bool) (code : Nat) : State :=
  s.withMem (fun w => { w with response := some { req := q, line := line, write := write, code := code } })

/-- A requester presents a 64-byte transfer to the arbiter of its channel; an address at or above the installed capacity has none (RANGE). -/
def State.present (s : State) (q a : Nat) (write secure : Bool) : State :=
  if s.dramTop ≤ a then s.respond q (a / 64) write 4
  else
    let c := s.channelOf a
    s.setMchan c { s.mchan c with waiting := (s.mchan c).waiting ++ [{ req := q, line := a / 64, write := write, secure := secure, before := if write then s.dramBytes (a / 64 * 64) 64 else [] }] }

/-- The lines of `n` bytes at `a`. -/
def dramLines (a n : Nat) : List Nat := (List.range ((a + n + 63) / 64 - a / 64)).map (fun k => a / 64 + k)

/-- The transfers of an access reach their arbiters. -/
def State.presentLines (s : State) (q a n : Nat) (write secure : Bool) : State :=
  chainAll (dramLines a n) (fun l t => t.present q (64 * l) write secure) s

/-- Requester `q` may read (or write) every line of `n` bytes at `a`, all of them installed. -/
def State.linesAllowed (s : State) (q a n : Nat) (write secure : Bool) : Bool :=
  decide (a + n ≤ s.dramTop) && (dramLines a n).all (fun l => s.permitted q (64 * l) write secure)

/-- Byte `a` is one that requester `q` may read (or write). -/
def State.byteAllowed (s : State) (q a : Nat) (write secure : Bool) : Bool := decide (a < s.dramTop) && s.permitted q a write secure

/-- What requester `q` reads: zero data for a line that ends with PERMISSION or RANGE (R308). -/
def State.dramFor (s : State) (q a n : Nat) (secure : Bool) : List Byte :=
  if s.linesAllowed q a n false secure then s.dramBytes a n
  else (List.range n).map (fun i => if s.byteAllowed q (a + i) false secure then Tab.get 0 s.dram (a + i) else 0)

/-- Requester `q` writes: its transfers reach the arbiters; a line that ends with PERMISSION or RANGE keeps its data (R308). -/
def State.putFor (s : State) (q a : Nat) (bs : List Byte) (secure : Bool) : State :=
  let t := s.presentLines q a bs.length true secure
  if s.linesAllowed q a bs.length true secure then t.putDram a bs
  else chainAll ((List.range bs.length).filter (fun i => s.byteAllowed q (a + i) true secure)) (fun i u => u.putDram (a + i) [bs.getD i 0]) t

end Sys2Proof.Machine
end

