-- ==== Sys2Proof/Machine/InitOps.lean ====
section
/-! DEFINITION. What firmware writes into lanes, memory channels, queues and hewers at FW_INIT (R272, R303, R314, R331, R395), and the names these share with their chapters. -/

namespace Sys2Proof.Machine

-- ## Channels

-- ## STATE of a channel (DDR_STATUS)

def ddrOff : Nat := 0
def ddrTraining : Nat := 1
def ddrReady : Nat := 2
def ddrRetraining : Nat := 3
def ddrSelfRefresh : Nat := 4
def ddrFailed : Nat := 5

def State.ddrState (s : State) (c : Nat) : Nat := s.f F.DDR_STATUS_STATE c

/-- Requester `r` of channel `c` in the banks of ARB registers. -/
def arbReg (c r : Nat) : Nat := 12 * c + r

/-- The two-rank and ten-lane places of a channel. -/
def State.laneSlots (s : State) (c : Nat) : List Nat := (List.range (s.f F.DDR_CONFIG_RANKS c + 1)).flatMap (fun r => (List.range 10).map (fun l => 10 * r + l))

-- ## Calibration records (R394, R395)

/-- The record in `b` matches the part. -/
def State.calOk (s : State) (b : List Byte) : Bool :=
  let n := 32 + 8 * beAt b 4 2
  decide (b.take 4 = [0x59, 0x46, 0x43, 0x4C]) && decide (n ≤ b.length) && decide (beAt b 16 4 = crc32 (sliceOf b 20 (n - 20))) &&
    decide (beAt b 8 4 = s.f F.GLB_UID_HI_UID 0) && decide (beAt b 12 4 = s.f F.GLB_UID_LO_UID 0) && decide (byteAt b 7 = s.f F.DDR_CONFIG_DENSITY 0 * 16 + s.f F.DDR_CONFIG_SPEED 0)

/-- An entry of a record waits for its window: lanes 0 to 59, byte lanes of a populated channel. -/
def State.restoreEntry (s : State) (e : List Byte) : State :=
  let i := beAt e 2 2
  let v := beAt e 4 4
  let c := byteAt e 1
  let k := 10 * (i / 256 % 2) + i % 256
  if byteAt e 0 = 1 ∧ i < 60 then s.withLane (fun w => { w with restored := Tab.set none w.restored i (some (v / 2 ^ 12 % 16 * 64 + v / 2 ^ 18 % 64)) })
  else if byteAt e 0 = 2 ∧ c < s.channels ∧ i % 256 < 10 ∧ k ∈ s.laneSlots c then s.setMchan c { s.mchan c with restored := Tab.set none (s.mchan c).restored k (some (v / 256 % 128 * 128 + v % 128)) }
  else s

-- ## The lane map (R331)

/-- The fields of LANE_CFG of a lane: codes 4 to 7 of FUNC act and read as 0. -/
def State.putLaneCfg (s : State) (n en func port lane rate rxInv txInv : Nat) : State :=
  let s := ((s.setF F.LANE_CFG_EN n en).setF F.LANE_CFG_FUNC n (if 4 ≤ func then 0 else func)).setF F.LANE_CFG_PORT n port
  let s := (s.setF F.LANE_CFG_PORT_LANE n lane).setF F.LANE_CFG_RATE n rate
  (s.setF F.LANE_CFG_RX_INV n rxInv).setF F.LANE_CFG_TX_INV n txInv

/-- The fields alone, for the check of the whole set. -/
def State.tryEntry (s : State) (e : List Byte) : State := s.putLaneCfg (byteAt e 0) 1 (byteAt e 1) (byteAt e 2) (byteAt e 3) (byteAt e 4) (byteAt e 5 / 2 % 2) (byteAt e 5 % 2)

/-- A lane of the map before its saved entry: the board's map in the configuration area is open. -/
def State.openLane (s : State) (k n : Nat) : State :=
  let v := Config.freeNat 56 (k + n)
  s.putLaneCfg n (v % 2) (v / 2 % 4) (v / 8) (v / 512) (v / 2048) (v / 8192 % 2) (v / 16384 % 2)

/-- The lane map is loaded: entries that LANE_CONFIG saved stand as they were saved. -/
def State.loadLaneMap (s : State) (k : Nat) : State :=
  chainAll (List.range 60) (fun n t =>
    let e := Tab.get [] t.conf.lanes n
    if e = [] then t.openLane k n
    else
      let t := ((t.tryEntry e).setF F.LANE_TX_AMP n (byteAt e 6 / 16)).setF F.LANE_TX_DEEMPH n (byteAt e 6 % 8)
      if byteAt e 7 = 255 then t.setF F.LANE_RX_PEAK_FIXED n 0
      else ((t.setF F.LANE_RX_PEAK_FIXED n 1).setF F.LANE_RX_PEAK n (byteAt e 7)).setF F.LANE_STATUS_PEAK_NOW n (byteAt e 7)) s

-- ## Memory channels (R295, R303, R314)

/-- The devices that the configuration area names, one population for every channel. -/
def State.loadDdrConfig (s : State) (k : Nat) : State :=
  let v := Config.freeNat 55 k
  chainAll (List.range 4) (fun c t =>
    (((t.setF F.DDR_CONFIG_SPEED c (v % 3)).setF F.DDR_CONFIG_DENSITY c (v / 4 % 4)).setF F.DDR_CONFIG_RANKS c (v / 16 % 2)).setF F.DDR_CONFIG_TWO_CH c (v / 32 % 2)) s

/-- Weights at FW_INIT of requesters 0 to 10. -/
def initWeights : List Nat := [8, 6, 6, 6, 4, 6, 4, 4, 2, 2, 1]

def State.loadWeights (s : State) : State :=
  chainAll (List.range 4) (fun c t => chainAll (List.range 11) (fun r u => u.setF F.ARB_REQ_CFG_WEIGHT (arbReg c r) (initWeights.getD r 1)) t) s

/-- The speed bins are read at start-up: 3 acts as 2 (R296). -/
def State.readBins (s : State) : State := chainAll (List.range 4) (fun c t => t.setMchan c { t.mchan c with bin := min 2 (t.f F.DDR_CONFIG_SPEED c) }) s

/-- Training begins on every populated channel that a wake did not bring back; a valid snapshot in the configuration area stands ready for it. -/
def State.beginTraining (s : State) : State :=
  let s := s.readBins
  let s := chainAll (List.range s.channels) (fun c t => if t.f F.DDR_STATUS_STATE c = ddrReady then t else (t.setF F.DDR_STATUS_STATE c ddrTraining).setF F.DDR_TRAIN_BUSY c 1) s
  if s.pwr.resumeDue = false ∧ s.calOk s.conf.cal = true then
    chainAll ((List.range (beAt s.conf.cal 4 2)).map (fun i => sliceOf s.conf.cal (32 + 8 * i) 8)) (fun e t => if byteAt e 0 = 2 then t.restoreEntry e else t) s
  else s

-- ## Queues, classifier, buffers, hewers

/-- Control queues 0 to 15 spill into regions of 1 MiB (R272, R281); 16 to 63 do not. -/
def State.loadControlQueues (s : State) (k : Nat) : State :=
  let s := chainAll (List.range 16) (fun c t =>
    let b := Config.freeNat 57 (k + c)
    let t := ((t.setF F.SPQ_Q_CFG_EN (4096 + c) 1).setF F.SPQ_Q_CFG_SPILL (4096 + c) 1).setF F.SPQ_Q_CFG_SIZE (4096 + c) 20
    (t.setF F.SPQ_Q_BASE_LO_ADDR (4096 + c) b).setF F.SPQ_Q_BASE_HI_ADDR (4096 + c) (b / 2 ^ 32 % 256)) s
  chainAll (List.range 48) (fun c t => (t.setF F.SPQ_Q_CFG_EN (4112 + c) 1).setF F.SPQ_Q_CFG_SPILL (4112 + c) 0) s

/-- The enables of the blocks; the pool's DRAM tier lies at a free base. -/
def State.enableBlocks (s : State) (k : Nat) : State :=
  let b := Config.freeNat 58 k
  let s := (s.setF F.BPM_DRAM_BASE_LO_ADDR 0 b).setF F.BPM_DRAM_BASE_HI_ADDR 0 (b / 2 ^ 32 % 256)
  let s := (s.setF F.BPM_CTRL_DRAM_EN 0 1).setF F.BPM_CTRL_EN 0 1
  ((s.setF F.CLS_CTRL_EN 0 1).setF F.SCH_CTRL_DISPATCH_EN 0 1).setF F.STK_CTRL_EN 0 1

/-- Each hewer is brought into service, which begins with its test. -/
def State.beginTests (s : State) : State :=
  chainAll (List.range 24) (fun h t => (t.setF F.HWR_CTRL_SERVICE h 1).setF F.HWR_STATUS_STATE h 1) s

end Sys2Proof.Machine
end

