-- ==== Sys2Proof/Machine/Boot.lean ====
section
/-! DEFINITION. Chip resets and clearing, OTP, life cycle, flash directory and images, the boot (R43 to R50, R65 to R67, R390 to R392, R408 to R412): operations. -/

namespace Sys2Proof.Machine

-- ## OTP (R408 to R410)

/-- An area of the OTP layout (R408): first byte and size, in the order of the table. -/
def otpArea (a : Nat) : Nat × Nat :=
  match a with
  | 0 => (0x000, 8)     -- UID
  | 1 => (0x008, 8)     -- TRACE
  | 2 => (0x010, 16)    -- TRIM
  | 3 => (0x020, 3)     -- LC
  | 4 => (0x030, 16)    -- CONFIG
  | 5 => (0x040, 128)   -- ROLLBACK
  | 6 => (0x0C0, 64)    -- FWKEY0
  | 7 => (0x100, 64)    -- FWKEY1
  | 8 => (0x140, 64)    -- INTKEY
  | 9 => (0x180, 64)    -- IDPUB
  | 10 => (0x1C0, 64)   -- IDSEED
  | 11 => (0x200, 32)   -- KWK
  | 12 => (0x220, 32)   -- LOCKS
  | 13 => (0x240, 1472) -- INTEGRATOR
  | _ => (0, 0)

/-- Bit `k` of LOCKS. Bits 0 to 11 lock areas 0 to 11; 12 is REVOKE0, 13 DISABLE_ID, 14 DISABLE_KWK (DESIGN CHOICE: the places are not given). -/
def State.otpLock (s : State) (k : Nat) : Bool := (natOfLe (s.otpBytes 0x220 4)).testBit k

/-- A bit of LOCKS is blown. -/
def State.blowLock (s : State) (k : Nat) : State := s.blow 0x220 (leBytes 4 (2 ^ k))

/-- The key of an area, 57 bytes. -/
def State.otpKey (s : State) (a : Nat) : List Byte := s.otpBytes (otpArea a).1 57

def popcount (n v : Nat) : Nat := ((List.range n).filter (fun i => v.testBit i)).length

/-- The bitwise majority of the three copies of LC (R410). -/
def State.lcMajority (s : State) : Nat :=
  let a := byteAt (s.otpBytes 0x20 3) 0
  let b := byteAt (s.otpBytes 0x20 3) 1
  let c := byteAt (s.otpBytes 0x20 3) 2
  (a &&& b) ||| (a &&& c) ||| (b &&& c)

/-- The life cycle that the OTP holds (R410). -/
def State.lcOtp (s : State) : Nat := min 4 (popcount 8 s.lcMajority)

/-- The ROM reprograms a copy of LC that disagrees with the majority (R410). -/
def State.repairLc (s : State) : State :=
  let m : Byte := BitVec.ofNat 8 s.lcMajority
  s.blow 0x20 [m, m, m]

/-- LC is programmed for state `n`, copy 0 first (R410). -/
def State.programLc (s : State) (n : Nat) : State :=
  let m : Byte := BitVec.ofNat 8 (2 ^ n - 1)
  ((s.blow 0x20 [m]).blow 0x21 [m]).blow 0x22 [m]

/-- The anti-rollback counter (R409). -/
def State.rollback (s : State) : Nat := popcount 1024 (natOfLe (s.otpBytes 0x040 128))

/-- The counter is raised to min(`v`, 1,024) (R409). -/
def State.raiseRollback (s : State) (v : Nat) : State :=
  if min v 1024 ≤ s.rollback then s else s.blow 0x040 (leBytes 128 (2 ^ min v 1024 - 1))

/-- DISABLE_ID is not blown and IDSEED is locked (R412, SEC_STATUS). -/
def State.idOk (s : State) : Bool := s.otpLock 10 && !s.otpLock 13

def State.kwkOk (s : State) : Bool := s.otpLock 11 && !s.otpLock 14

/-- Fields that hardware loads from OTP at reset (R11, R39, R43, SEC_STATUS). -/
def State.loadOtp (s : State) : State :=
  let lc := s.lcOtp
  let b := fun (x : Bool) => if x then 1 else 0
  let s := s.setF F.GLB_BOOT_STATUS_LC_STATE 0 lc
  let s := s.setF F.SEC_STATUS_LC_STATE 0 lc
  let s := s.setF F.PCIE_F1_CTRL_F1_PRESENT 0 (b (lc = 2))
  let s := s.setF F.GLB_UID_LO_UID 0 (natOfLe (s.otpBytes 0 4))
  let s := s.setF F.GLB_UID_HI_UID 0 (natOfLe (s.otpBytes 4 4))
  let s := s.setF F.SEC_STATUS_KWK_OK 0 (b s.kwkOk)
  let s := s.setF F.SEC_STATUS_ID_OK 0 (b s.idOk)
  s.setF F.SEC_STATUS_REVOKE0 0 (b (s.otpLock 12))

-- ## Chip resets (R370, R391, R392)

/-- Field codes that the always-on domain holds whole: FATAL, the tamper fields, PWR_THERM, PWR_PMBUS and PWR_WAKE (R370, R391, R414). -/
def aonCodes : List Nat :=
  [F.FLT_STATUS_FATAL.code, F.FLT_STATUS_FATAL_SRC.code, F.PWR_THERM_WARN.code, F.PWR_PMBUS_VOUT_EXP.code, F.PWR_PMBUS_ADDR.code,
   F.PWR_WAKE_SECONDS.code, F.SEC_TAMPER_CFG_LOCKOUT.code, F.SEC_TAMPER_CFG_POL.code, F.SEC_TAMPER_CFG_EN.code,
   F.SEC_TAMPER_STATUS_COUNT.code, F.SEC_TAMPER_STATUS_TAMPERED.code, F.SEC_TAMPER_STATUS_TRIPPED.code,
   F.SEC_STATUS_LOCKOUT.code, F.SEC_STATUS_TAMPERED.code]

/-- Field codes held there for the wake-capable sources only: WAKE_EN and TARGET (R358). -/
def aonRoute : List Nat := [F.INTC_ROUTE_WAKE_EN.code, F.INTC_ROUTE_TARGET.code]

/-- The register fields that survive a chip reset. -/
def keepRegs (t : Tab (Tab Nat)) : Tab (Tab Nat) :=
  t.filterMap (fun e =>
    if e.1 ∈ aonCodes then some e
    else if e.1 ∈ aonRoute then
      let r := e.2.filter (fun x => wakeCapable x.1)
      if r = [] then none else some (e.1, r)
    else none)

/-- The memory system after a chip reset: the poison of DRAM and the delays that CAL_RESTORE restored are kept. -/
def MemState.kept (m : MemState) : MemState :=
  { poison := m.poison, chans := m.chans.filterMap (fun e => if e.2.kept = [] then none else some (e.1, { kept := e.2.kept, delays := e.2.delays.filter (fun d => decide (d.1 ∈ e.2.kept)) })) }

/-- The core domain is reset and its memories are cleared (R391, R392). The always-on domain, DRAM, flash and OTP are kept; so are the commands that wait. -/
def State.coreReset (s : State) : State :=
  let r : State := { State.reset with
    regs := keepRegs s.regs, dram := s.dram, mem := s.mem.kept, flash := s.flash, otp := s.otp, otpBad := s.otpBad, conf := s.conf, aon := s.aon, free := s.free, pending := s.pending, readData := s.readData }
  let r := (r.withPwr (fun w => { w with wakeRuns := s.pwr.wakeRuns }))
  r.loadOtp

/-- A chip reset other than power-on: it does not act in FATAL (R370). -/
def State.chipReset (s : State) : State := if s.fatal then s else s.coreReset

/-- A power-on reset (R391): the always-on domain too. DRAM contents are lost (the spec gives them no value after it), flash and OTP kept. -/
def State.powerOn (s : State) : State :=
  ({ State.reset with flash := s.flash, otp := s.otp, otpBad := s.otpBad, conf := s.conf, free := s.free, pending := s.pending } : State).loadOtp

-- ## Flash directory and images (R45 to R48)

/-- A directory copy: sequence, active slot, trial, tries. -/
structure Directory where
  seq : Nat := 0
  active : Nat := 0
  trial : Bool := false
  tries : Nat := 0
deriving DecidableEq, Repr

def dirOffset (c : Nat) : Nat := 0x1000 * c

/-- Copy `c` of the directory, where MAGIC and CRC match (R46). -/
def State.dirCopy (s : State) (c : Nat) : Option Directory :=
  let b := s.flashBytes (dirOffset c) 256
  if b.take 4 = [0x59, 0x46, 0x4E, 0x4B] ∧ beAt b 252 4 = crc32 (b.take 252) then
    some { seq := beAt b 4 4, active := byteAt b 8 % 2, trial := decide (byteAt b 9 = 1), tries := byteAt b 10 }
  else none

/-- The copy in force: the valid one with the later sequence (R48). -/
def State.directory (s : State) : Option (Nat × Directory) :=
  match s.dirCopy 0, s.dirCopy 1 with
  | none, none => none
  | some d, none => some (0, d)
  | none, some d => some (1, d)
  | some d, some e => if later 32 e.seq d.seq then some (1, e) else some (0, d)

def dirBytes (d : Directory) : List Byte :=
  let b := [0x59, 0x46, 0x4E, 0x4B] ++ beBytes 4 d.seq ++ [BitVec.ofNat 8 d.active, if d.trial then 1 else 0, BitVec.ofNat 8 d.tries] ++ List.replicate 241 0
  b ++ beBytes 4 (crc32 b)

/-- A directory is written into the copy that is not in force: its sector is erased first. -/
def State.writeDir (s : State) (d : Directory) : State :=
  let c := match s.directory with
    | some (0, _) => 1
    | _ => 0
  ((s.erase (dirOffset c) 0x1000)).program (dirOffset c) (dirBytes d)

/-- The sequence number of the next directory. -/
def State.nextSeq (s : State) : Nat :=
  match s.directory with
  | some (_, d) => (d.seq + 1) % 2 ^ 32
  | none => 0

def slotBase (slot : Nat) : Nat := if slot = 0 then 0x00010000 else 0x00610000
def slotSize : Nat := 0x600000

/-- A signature over `msg` verifies under the firmware key (R415); with it, whether under FWKEY1. -/
def State.fwKeyVerify (s : State) (msg sig : List Byte) : Option Bool :=
  if !s.otpLock 12 && Config.ed448Verify (s.otpKey 6) msg sig then some false
  else if Config.ed448Verify (s.otpKey 7) msg sig then some true
  else none

/-- The checks of R48 on a slot: the ROM_ERROR of the first that fails, or what the header says. The limits of BODY_LEN are those of R47; those of LOAD_ADDR, ENTRY and DATA_LEN are the model's choice (log entry 86): the body lies within the 2 MiB of processor memory, ENTRY within the body, and header, body and data package within the slot. -/
def State.checkImage (s : State) (slot : Nat) : Except Nat ImageInfo :=
  let h := s.flashBytes (slotBase slot) 512
  let bodyLen := beAt h 8 4
  let load := beAt h 12 4
  let entry := beAt h 16 4
  let dataLen := beAt h 92 4
  let sec := beAt h 6 2
  if ¬ (h.take 4 = [0x59, 0x46, 0x49, 0x4D] ∧ beAt h 4 2 = 1) then .error 0x01
  else if ¬ (1 ≤ bodyLen ∧ bodyLen ≤ 2031616 ∧ load + bodyLen ≤ 2097152 ∧ load ≤ entry ∧ entry < load + bodyLen ∧ 512 + bodyLen + dataLen ≤ slotSize) then .error 0x02
  else
    match s.fwKeyVerify (h.take 256) (sliceOf h 256 114) with
    | none => .error 0x03
    | some k1 =>
      if sec < s.rollback then .error 0x04
      else
        let body := s.flashBytes (slotBase slot + 512) bodyLen
        if Config.shake256 body ≠ sliceOf h 28 64 then .error 0x05
        else
          let data := s.flashBytes (slotBase slot + 512 + bodyLen) dataLen
          .ok { slot := slot, secVersion := sec, major := byteAt h 20, minor := byteAt h 21, build := beAt h 22 2, handover := beAt h 24 4, bodyHash := sliceOf h 28 64, dataHash := sliceOf h 96 64, dataOk := decide (Config.shake256 data = sliceOf h 96 64), underKey1 := k1 }

/-- The image is the first of the two that passes. -/
def State.selectImage (s : State) (first second : Nat) : Option ImageInfo × (Nat × Nat) :=
  let err := fun r => match r with
    | Except.ok (_ : ImageInfo) => 0
    | Except.error e => e
  let a := s.checkImage first
  match a with
  | .ok i => (some i, (err a, 0))
  | .error _ =>
    match s.checkImage second with
    | .ok i => (some i, (err a, 0))
    | .error e => (none, (err a, e))

-- ## FW_INIT and FW_READY

/-- The default route of a source (INTC commands): EN = 1 and its TARGET. -/
def State.defaultTarget (s : State) (n : Nat) : Nat :=
  if n ≤ 15 then 0
  else if 768 ≤ n ∧ n ≤ 831 then 0
  else if 24 ≤ n ∧ n ≤ 27 then 0
  else if 32 ≤ n ∧ n ≤ 43 then 2
  else if 44 ≤ n ∧ n ≤ 47 then 1
  else if s.sourceSecure n then 0 else 1

/-- Every interrupt source. -/
def allSources : List Nat := (List.range 1024).drop 1

/-- Firmware routes every source at FW_INIT and enables the targets. After a wake the sources have the routes that STANDBY saved (R358). -/
def State.initRoutes (s : State) : State :=
  let s := if s.pwr.resumeDue then s else chainAll allSources (fun n t =>
    ((t.setF F.INTC_ROUTE_EN n 1).setF F.INTC_ROUTE_TARGET n (t.defaultTarget n)).setF F.INTC_ROUTE_WAKE_EN n 0) s
  let s := chainAll (List.range 4) (fun t u => u.setF F.INTC_TGT_CTRL_EN t 1) s
  s.setF F.INTC_GLOBAL_MASTER_EN 0 1

/-- The flash configuration area: its place and its size (R45). -/
def configBase : Nat := 0xC10000
def configSize : Nat := 4032 * 1024

/-- What firmware writes into the block registers at FW_INIT after a chip reset. The contents of the configuration area are open: SEC_BLOCK_WORLD, the safe kinds, the DRAM configuration and the lane map come from it as free values. A wake keeps the DRAM configuration. -/
def State.firmwareInit (s : State) : State :=
  let k := s.free
  let s := s.draw
  let s := s.setF F.SEC_BLOCK_WORLD_WORLD 0 (Config.freeNat 1 k)
  let s := s.setF F.SEC_BLOCK_WORLD_WORLD1 0 (Config.freeNat 2 k)
  let s := if s.lc = 2 then s.setF F.SEC_BLOCK_WORLD_LOCK 0 1 else s
  let s := s.setF F.FLT_SAFE_KIND_LO_HOLD 0 (Config.freeNat 3 k)
  let s := s.setF F.FLT_SAFE_KIND_HI_HOLD 0 (Config.freeNat 4 k % 65536)
  let s := chainAll allPorts (fun n t => t.setF F.LMP_PORT_STATUS_SAFE_KIND n (t.safeKind n).toNat) s
  let s := s.withFw (fun w => { w with config := s.flash.filter (fun e => decide (configBase ≤ e.1) && decide (e.1 < configBase + configSize)), configSaved := s.conf })
  let s := s.initRoutes
  let s := s.setF F.DRS_CTRL_EN 0 1
  let s := (s.loadLaneMap k).loadWeights
  let s := if s.pwr.resumeDue then s else s.loadDdrConfig k
  ((s.beginTraining.loadControlQueues k).enableBlocks k).beginTests

/-- The image that the ROM chose runs at FW_INIT (R48, R65): `preferred` is the slot of the directory, `trial` its TRIAL. -/
def State.startImage (s : State) (i : ImageInfo) (preferred : Nat) (trial : Bool) : State :=
  let s := s.setF F.GLB_BOOT_STATUS_IMAGE 0 i.slot
  let s := s.setF F.GLB_BOOT_STATUS_FALLBACK 0 (if i.slot = preferred then 0 else 1)
  let s := s.setF F.GLB_BOOT_STATUS_TRIAL 0 (if trial ∧ i.slot = preferred then 1 else 0)
  let s := s.setF F.GLB_FW_VERSION_MAJOR 0 i.major
  let s := s.setF F.GLB_FW_VERSION_MINOR 0 i.minor
  let s := s.setF F.GLB_FW_VERSION_BUILD 0 i.build
  let s := s.withFw (fun w => { w with image := i })
  let s := s.setF F.GLB_BOOT_STATUS_STAGE 0 3
  if s.fw.restarted ∨ s.fw.handover then s else s.firmwareInit

/-- Opcodes that firmware 3.2 serves (R55). -/
def knownOpcodes : List Nat :=
  [0x0001, 0x0002, 0x0010, 0x0011, 0x0012, 0x0013, 0x0014, 0x0015, 0x0016, 0x0020, 0x0021, 0x0022, 0x0023, 0x0024,
   0x0030, 0x0031, 0x0032, 0x0033, 0x0034, 0x0040, 0x0041, 0x0042, 0x0050, 0x0051, 0x0060, 0x0061, 0x0062,
   0x0070, 0x0071, 0x0072, 0x0073, 0x0080, 0x0081, 0x0090, 0x0091, 0x0092, 0x00A0, 0x00A1, 0x00A2] ++
  [0x0400, 0x0401, 0x0410, 0x0411, 0x0412, 0x0420, 0x0421, 0x0422, 0x0423, 0x0430, 0x0431, 0x0440, 0x0441, 0x0450,
   0x0460, 0x0470, 0x0480, 0x0490]

/-- A submitted command whose opcode the stage does not serve is answered UNKNOWN_OPCODE (R49, R55). -/
def State.answerUnknown (s : State) (m : Nat) : State :=
  if s.fb F.MBX_STATUS_BUSY m ∧ ¬ s.fb F.MBX_STATUS_HELD m then
    if s.stage = 4 ∧ s.mbxOpcode m ∉ knownOpcodes then s.putResult m (if s.fatal then stNotPermitted else stUnknown) []
    else if s.stage = 2 ∧ m = 0 ∧ (s.mbxOpcode m ∉ [0x0800, 0x0801, 0x0802, 0x0803, 0x0804] ∨ (s.lc = 4 ∧ s.mbxOpcode m ≠ 0x0800)) then s.putResult m stUnknown []
    else s
  else s

/-- ROM_RECOVERY (R49, R50): a doorbell that MBX0 held is accepted, which the stage is the exception for. -/
def State.enterRecovery (s : State) : State := ((s.setF F.GLB_BOOT_STATUS_STAGE 0 2).setF F.MBX_STATUS_HELD 0 0).answerUnknown 0

/-- What the boot does with the image found, or with none; `e`: the ROM_ERROR of the first and the second slot tried. -/
def State.bootWith (s : State) (i : Option ImageInfo) (e1 e2 first preferred : Nat) (trial : Bool) : State :=
  let s := s.withFw (fun w => { w with romErrors := if first = 0 then (e1, e2) else (e2, e1) })
  let s := s.setF F.GLB_BOOT_STATUS_ROM_ERROR 0 (if e2 ≠ 0 then e2 else e1)
  match i with
  | none => s.enterRecovery
  | some x => s.startImage x preferred trial

/-- The boot under directory `d` (R48). -/
def State.bootDir (s : State) (d : Option Directory) : State :=
  let preferred := d.elim 0 (·.active)
  let trial := d.elim false (·.trial)
  let spent := d.elim false (fun x => x.trial && decide (x.tries = 0))
  let first := if spent then 1 - preferred else preferred
  let s := d.elim s (fun x => if x.trial ∧ x.tries ≠ 0 then s.writeDir { x with seq := (x.seq + 1) % 2 ^ 32, tries := x.tries - 1 } else s)
  let r := s.selectImage first (1 - first)
  s.bootWith r.1 r.2.1 r.2.2 first preferred trial

/-- The end of the ROM's work (R48, R410, R412): an image runs at FW_INIT, or ROM_RECOVERY. A scrapped part checks no image. -/
def State.romDone (s : State) : State :=
  let s := s.repairLc
  if s.lc = 4 then s.enterRecovery else s.bootDir (s.directory.map (·.2))

/-- The ROM goes from ROM_START to ROM_VERIFY (R43): it has read the directory and verifies an image. A scrapped part checks none. -/
def State.romGoesOn (s : State) : State :=
  if !s.fw.clearing && decide (s.stage = 0) && !s.pwr.cpHalted && decide (s.lc ≠ 4) then s.setF F.GLB_BOOT_STATUS_STAGE 0 1 else s

/-- The secure DRAM regions, as first and last page. -/
def State.secureRegions (s : State) : List (Nat × Nat) :=
  ((List.range 64).filter (fun r => s.fb F.SEC_REGION_ATTR_EN r && s.fb F.SEC_REGION_ATTR_WORLD r)).map (fun r => (s.f F.SEC_REGION_BASE_PAGE r, s.f F.SEC_REGION_LIMIT_PAGE r))

/-- The handover record (R65): up to 256 KiB of free bytes in a secure DRAM region. Which region, where in it and what the record says are free values; without a secure region there is nowhere to write it. -/
def State.writeRecord (s : State) : State :=
  match s.secureRegions with
  | [] => s
  | r :: rest =>
    let k := s.free
    let g := (r :: rest).getD (Config.freeNat 59 k % (rest.length + 1)) r
    let room := 4096 * (g.2 + 1 - g.1)
    let a := 4096 * g.1 + Config.freeNat 60 k % (room + 1)
    let bs := (Config.freeBytes 59 k 262144).take (min 262144 (4096 * (g.2 + 1) - a))
    s.draw.putFor 9 a bs true

/-- The processor restarts through a live handover (R65, R66): firmware releases its semaphores and writes the handover record; doorbells are held and STAGE = FW_HANDOVER. -/
def State.enterHandover (s : State) : State :=
  let s := s.freeLocksOf [1, 2]
  let s := s.writeRecord.cpReset
  let s := (s.withFw (fun w => { w with handover := true }))
  s.setF F.GLB_BOOT_STATUS_STAGE 0 5

/-- Firmware reaches FW_READY (R50, R65, R365, R366): held doorbells are accepted in mailbox order. -/
def State.fwReady (s : State) : State :=
  let s := s.setF F.GLB_BOOT_STATUS_STAGE 0 4
  let s := s.setF F.FLT_WDOG_EN 0 1
  let s := if s.fw.restarted then s.logEvent 7 0 0 0 [] else s
  let s := (s.withFw (fun w => { w with restarted := false, handover := false }))
  chainAll (List.range 16) (fun m t => (t.setF F.MBX_STATUS_HELD m 0).answerUnknown m) s

end Sys2Proof.Machine
end

