-- ==== Sys2Proof/Machine/Queues.lean ====
section
/-! DEFINITION. Spill queues (R272 to R281): items, capacity, drops and clefts, the spoil region; and the buffer pool (R263 to R271): operations. -/

namespace Sys2Proof.Machine

-- ## Items (R274)

def padded (n : Nat) : Nat := (n + 7) / 8 * 8

/-- Bytes that an item takes in its queue. -/
def Item.size (i : Item) : Nat := if i.kind = 1 then 16 else 8 + padded i.data.length

/-- The bytes of an item in its queue. -/
def Item.bytes (i : Item) : List Byte :=
  let b := fun (x : Bool) (k : Nat) => if x then 2 ^ k else 0
  let flags := b i.first 7 + b i.last 6 + b i.poison 5
  if i.kind = 1 then leBytes 2 0 ++ leBytes 1 1 ++ leBytes 1 flags ++ leBytes 4 i.lostItems ++ leBytes 4 i.lostBytes ++ [0, 0, 0, 0]
  else leBytes 2 i.data.length ++ leBytes 1 i.kind ++ leBytes 1 flags ++ leBytes 4 i.tag ++ i.data ++ List.replicate (padded i.data.length - i.data.length) 0

def itemsSize (l : List Item) : Nat := (l.map Item.size).sum

/-- Bytes in use (R275). -/
def Queue.used (k : Queue) : Nat := itemsSize k.items

def Queue.stream (k : Queue) : List Byte := k.items.flatMap Item.bytes

def State.queue (s : State) (q : Nat) : Queue := Tab.get {} s.q.queues q

def State.setQueue (s : State) (q : Nat) (k : Queue) : State := s.withQ (fun w => { w with queues := Tab.set {} w.queues q k })

def State.queueOn (s : State) (q : Nat) : Bool := s.fb F.SPQ_Q_CFG_EN q

def State.queueSpills (s : State) (q : Nat) : Bool := s.fb F.SPQ_Q_CFG_SPILL q

/-- log2 of the spoil size in force. -/
def State.spoilLog (s : State) (q : Nat) : Nat := min 26 (max 12 (s.f F.SPQ_Q_CFG_SIZE q))

def State.queueCapacity (s : State) (q : Nat) : Nat := if s.queueSpills q then 2 ^ s.spoilLog q else 512

def State.spoilBase (s : State) (q : Nat) : Nat := (s.f F.SPQ_Q_BASE_LO_ADDR q + 2 ^ 32 * (s.f F.SPQ_Q_BASE_HI_ADDR q % 256)) / 2 ^ s.spoilLog q * 2 ^ s.spoilLog q

-- ## The spoil region (R273)

/-- Bytes that requester `q` writes into a ring of `n` bytes at `base`, from offset `o` on, with wrap-around. -/
def State.putRing (s : State) (q base n o : Nat) (bs : List Byte) : State :=
  let o := o % n
  (s.putFor q (base + o) (bs.take (n - o)) true).putFor q base (bs.drop (n - o)) true

/-- Bytes pass from the tail to a free head while the spoil region is empty; with a full head, or bytes in the spoil region before them, the tail writes to the spoil region in units of 64 bytes. -/
def State.settle (s : State) (q : Nat) : State :=
  let k := s.queue q
  let total := k.used
  let head := if k.spoil = 0 then min 256 total else k.head
  let tail := total - head - k.spoil
  if s.queueSpills q && (decide (head = 256) || decide (0 < k.spoil)) && decide (64 ≤ tail) then
    let n := tail / 64 * 64
    let s := s.putRing 6 (s.spoilBase q) (2 ^ s.spoilLog q) k.wr ((k.stream.drop (head + k.spoil)).take n)
    s.setQueue q { k with head := head, spoil := k.spoil + n, wr := (k.wr + n) % 2 ^ s.spoilLog q }
  else s.setQueue q { k with head := head }

-- ## Drops and clefts (R276, R277)

def sat32 (n : Nat) : Nat := min n (2 ^ 32 - 1)

/-- One item of queue `q` is dropped or overwritten. -/
def State.countDrop (s : State) (q : Nat) : State :=
  (s.count F.SPQ_Q_DROPPED_COUNT q F.SPQ_CNT_SAT_DROPPED_SAT q 0).setF F.SPQ_EVENT_DROP 0 1

/-- A marker with one lost item of `n` data bytes. -/
def newCleft (n : Nat) : Item := { kind := 1, lostItems := 1, lostBytes := n }

def Item.addLoss (i : Item) (n : Nat) : Item := { i with lostItems := sat32 (i.lostItems + 1), lostBytes := sat32 (i.lostBytes + n) }

/-- The first item is in read (R278). -/
def Queue.reading (k : Queue) : Bool := k.inRead || decide (0 < k.sent)

/-- The newest item is a cleft marker whose reading has not begun. -/
def Queue.openCleft (k : Queue) : Bool :=
  match k.items.getLast? with
  | some i => decide (i.kind = 1) && !(k.reading && decide (k.items.length = 1))
  | none => false

/-- A spilling queue records the drop of an item of `n` data bytes. -/
def State.recordDrop (s : State) (q n : Nat) : State :=
  let s := s.countDrop q
  let k := s.queue q
  match k.pendingCleft with
  | some c => s.setQueue q { k with pendingCleft := some (c.addLoss n) }
  | none =>
    if k.openCleft then
      s.setQueue q { k with items := k.items.dropLast ++ (k.items.drop (k.items.length - 1)).map (fun i => i.addLoss n) }
    else
      let s := s.count F.SPQ_Q_CLEFTS_COUNT q F.SPQ_CNT_SAT_CLEFTS_SAT q 0
      if k.used + 16 ≤ s.queueCapacity q then (s.setQueue q { k with items := k.items ++ [newCleft n] }).settle q
      else s.setQueue q { k with pendingCleft := some (newCleft n) }

/-- A pending cleft marker enters once 16 bytes are free (R277). -/
def State.enterCleft (s : State) (q : Nat) : State :=
  let k := s.queue q
  match k.pendingCleft with
  | some c => if k.used + 16 ≤ s.queueCapacity q then (s.setQueue q { k with items := k.items ++ [c], pendingCleft := none }).settle q else s
  | none => s

/-- The oldest item that is not in read is overwritten. -/
def Queue.overwrite (k : Queue) : Option Queue :=
  if k.reading then
    match k.items with
    | a :: _ :: r => some { k with items := a :: r }
    | _ => none
  else
    match k.items with
    | _ :: r => some { k with items := r }
    | [] => none

/-- Items of a non-spilling queue are overwritten until `i` fits; `fuel` bounds their number. -/
def State.squeeze (s : State) (q : Nat) (i : Item) (fuel : Nat) : State :=
  let k := s.queue q
  if k.used + i.size ≤ 512 then (s.setQueue q { k with items := k.items ++ [i] }).settle q
  else
    match fuel, k.overwrite with
    | n + 1, some k' => ((s.setQueue q k').countDrop q).squeeze q i n
    | _, _ => s.countDrop q

/-- An item is offered to queue `q` (R275 to R277). -/
def State.offer (s : State) (q : Nat) (i : Item) : State :=
  let k := s.queue q
  if !s.queueOn q then s
  else if s.queueSpills q then
    if k.pendingCleft.isSome || decide (s.queueCapacity q - 16 < k.used + i.size) then s.recordDrop q i.data.length
    else (s.setQueue q { k with items := k.items ++ [i] }).settle q
  else if 504 < i.data.length then s.countDrop q
  else s.squeeze q i 64

-- ## Reading (R278, R280)

/-- The first item leaves: its bytes come from the head, which refills from the spoil region 64 bytes at a time as it runs out, and last from the tail (R273). -/
def Queue.pop (k : Queue) : Queue :=
  match k.items with
  | [] => { k with inRead := false, sent := 0 }
  | i :: r =>
    let refills := min (ceilDiv (i.size - k.head) 64 * 64) k.spoil
    { k with items := r, inRead := false, sent := 0, head := k.head + refills - i.size, spoil := k.spoil - refills, rd := k.rd + refills }

/-- The read in progress ends. -/
def State.endRead (s : State) (q : Nat) : State :=
  let k := s.queue q
  if k.inRead then (s.setQueue q k.pop).settle q else s

/-- The next item to read, once a read in progress has ended. -/
def Queue.next (k : Queue) : Option Item := if k.inRead then (k.items.drop 1).head? else k.items.head?

/-- The items not yet begun. -/
def Queue.fresh (k : Queue) : List Item := if k.inRead then k.items.drop 1 else k.items

/-- The first item is in read. -/
def State.beginRead (s : State) (q : Nat) : State :=
  let s := s.endRead q
  let k := s.queue q
  if k.items = [] then s else s.setQueue q { k with inRead := true }

/-- The item at stream offset `o` ends there and a poisoned cleft follows (R280). -/
def poisonItems (l : List Item) (o : Nat) : List Item :=
  match l with
  | [] => []
  | i :: r =>
    if o < i.size then
      let d := o - 8
      let c : Item := { newCleft (i.data.length - d) with poison := true }
      if i.kind = 1 then { i with poison := true } :: r
      else if d = 0 then c :: r
      else { i with data := i.data.take d, last := false } :: c :: r
    else i :: poisonItems r (o - i.size)

/-- An uncorrectable unit at stream offset `o` of queue `q`. -/
def State.poisonAt (s : State) (q o : Nat) : State :=
  let k := s.queue q
  let items := poisonItems k.items o
  let lost := k.used - itemsSize items
  let spoil := (k.spoil - lost) / 64 * 64
  let s := (s.setQueue q { k with items := items, spoil := spoil, rd := k.rd + (k.spoil - spoil) }).settle q
  (s.count F.SPQ_POISON_COUNT 0 F.SPQ_CNT_SAT_POISON_SAT 0 0).setF F.SPQ_EVENT_POISON 0 1

/-- The edge-memory read of the first item meets an error in one of its 64-byte units, none before the bytes that have left (R280): EDGE_CE or EDGE_UE. -/
def State.readMeets (s : State) (q : Nat) (e : SramRead) : State :=
  match e, (s.queue q).items with
  | .corrected u, i :: _ => if 64 * u < i.size then s.raiseFault 28 q [] else s
  | .uncorrectable u, i :: _ => if 64 * u < i.size then (s.poisonAt q (max (64 * u) (if (s.queue q).sent = 0 then 0 else 8 + (s.queue q).sent))).raiseFault 27 q [] else s
  | _, _ => s

/-- The head refills 64 bytes from the spoil region (R273); `bad`: the read is uncorrectable. -/
def State.refill (s : State) (q : Nat) (bad : Bool) : State :=
  let k := s.queue q
  if 64 ≤ k.spoil ∧ k.head + 64 ≤ 256 then
    if bad then s.poisonAt q k.head
    else ((s.presentLines 6 (s.spoilBase q + k.rd % 2 ^ s.spoilLog q) 64 false true).setQueue q { k with head := k.head + 64, spoil := k.spoil - 64, rd := k.rd + 64 }).settle q
  else s

/-- A queue is emptied without counting (R275, R281). -/
def State.emptyQueue (s : State) (q : Nat) : State := s.setQueue q {}

-- ## Threshold (R279)

/-- The items of the unit at the head: up to its LAST, or to a cleft marker behind data of it. -/
def unitItems (l : List Item) : List Item :=
  match l with
  | [] => []
  | i :: r => if i.kind = 1 ∨ i.last = true then [i] else i :: unitItems r

def dataBytes (l : List Item) : Nat := (l.map (fun i => if i.kind = 1 then 0 else i.data.length)).sum

/-- CT in bytes. -/
def State.cutThrough (s : State) (q : Nat) : Nat := 64 * (s.f F.SPQ_Q_CFG_CT q + 1)

/-- The queue is at threshold. -/
def State.atThreshold (s : State) (q : Nat) : Bool :=
  let u := unitItems (s.queue q).fresh
  decide (s.cutThrough q ≤ dataBytes u - (s.queue q).sent) || u.any (·.last) || (u.any (fun i => i.kind = 1) && decide (0 < dataBytes u))

-- ## The buffer pool (R263 to R271)

def State.pool (s : State) : PoolState := s.q.pool

def State.withPool (s : State) (g : PoolState → PoolState) : State := s.withQ (fun w => { w with pool := g w.pool })

/-- Buffers of a ring that ends at `top`. -/
def FreeRing.count (r : FreeRing) (top : Nat) : Nat := (top - r.fresh) + r.back.length

def sramTop : Nat := 65536

def State.freeSram (s : State) : Nat := s.pool.sram.count sramTop

/-- The DRAM tier exists (R263, R271). -/
def State.dramTier (s : State) : Bool := s.fb F.BPM_CTRL_DRAM_EN 0 && !s.fb F.BPM_CTRL_LIST_MODE 0

/-- Places of the free ring in DRAM. -/
def dramRingSize : Nat := 983040

/-- Indexes that the ring in DRAM holds. -/
def DramRing.stored (r : DramRing) : Nat := dramRingSize + r.wr - r.rd

def State.freeDram (s : State) : Nat := if s.dramTier then s.pool.dram.stored + s.pool.dram.cache.length else 0

/-- The next buffer of a ring: those never allocated in order, then those returned, oldest first. -/
def FreeRing.take1 (r : FreeRing) (top : Nat) : Option (Nat × FreeRing) :=
  if r.fresh < top then some (r.fresh, { r with fresh := r.fresh + 1 })
  else
    match r.back with
    | [] => none
    | b :: l => some (b, { r with back := l })

/-- The head of the list of R271: the buffer pushed last, then those never allocated. -/
def FreeRing.pop1 (r : FreeRing) (top : Nat) : Option (Nat × FreeRing) :=
  match r.back with
  | b :: l => some (b, { r with back := l })
  | [] => if r.fresh < top then some (r.fresh, { r with fresh := r.fresh + 1 }) else none

/-- `n` buffers of a ring. -/
def takeMany (f : FreeRing → Nat → Option (Nat × FreeRing)) (top n : Nat) (r : FreeRing) : Option (List Nat × FreeRing) :=
  match n with
  | 0 => some ([], r)
  | k + 1 =>
    match f r top with
    | none => none
    | some (b, r') => (takeMany f top k r').map (fun x => (b :: x.1, x.2))

/-- The reserve in force (BPM_SRAM_RESERVE). -/
def State.sramReserve (s : State) : Nat := min 65520 (s.f F.BPM_SRAM_RESERVE_COUNT 0)

/-- The lowest SRAM free count, and LOW (BPM_MIN_FREE, BPM_EVENT). -/
def State.noteFree (s : State) : State :=
  let n := s.freeSram
  let s := if n < s.f F.BPM_MIN_FREE_COUNT 0 then s.setF F.BPM_MIN_FREE_COUNT 0 n else s
  if n < s.sramReserve then s.setF F.BPM_EVENT_LOW 0 1 else s

/-- `n` SRAM buffers, where they are free. -/
def State.takeSram (s : State) (n : Nat) : Option (List Nat × State) :=
  let f := if s.fb F.BPM_CTRL_LIST_MODE 0 then FreeRing.pop1 else FreeRing.take1
  (takeMany f sramTop n s.pool.sram).map (fun x => (x.1, (s.withPool (fun w => { w with sram := x.2 })).noteFree))


/-- The base of the pool in DRAM (R263). -/
def State.poolBase (s : State) : Nat := (s.f F.BPM_DRAM_BASE_LO_ADDR 0 + 2 ^ 32 * (s.f F.BPM_DRAM_BASE_HI_ADDR 0 % 256)) / 2 ^ 20 * 2 ^ 20

/-- The address of place `n` of the free ring in DRAM. -/
def State.ringAddr (s : State) (n : Nat) : Nat := s.poolBase + 251658240 + 4 * (n % dramRingSize)

/-- The index that is the `n`-th to be read from the ring. -/
def State.ringIndex (s : State) (n : Nat) : Nat := if n < dramRingSize then 65536 + n else natOfLe (s.dramFor 7 (s.ringAddr n) 4 true) % 2 ^ 20

/-- A burst of 64 bytes moves 16 indexes from the ring to the cache (R269). -/
def State.cacheIn (s : State) : State :=
  let r := s.pool.dram
  let n := min 16 r.stored
  (s.presentLines 7 (s.ringAddr r.rd) 64 false true).withPool (fun w => { w with dram := { r with cache := r.cache ++ (List.range n).map (fun i => s.ringIndex (r.rd + i)), rd := r.rd + n } })

/-- A burst moves the 16 newest indexes of the cache to the ring. -/
def State.cacheOut (s : State) : State :=
  let r := s.pool.dram
  let keep := r.cache.length - 16
  (s.putFor 7 (s.ringAddr r.wr) ((r.cache.drop keep).flatMap (leBytes 4)) true).withPool (fun w => { w with dram := { r with cache := r.cache.take keep, wr := r.wr + 16 } })

/-- A DRAM buffer returns to the cache, which empties a burst first where it is full. -/
def State.returnDram (s : State) (b : Nat) : State :=
  let s := if 512 ≤ s.pool.dram.cache.length then s.cacheOut else s
  s.withPool (fun w => { w with dram := { w.dram with cache := w.dram.cache ++ [b] } })

/-- A DRAM buffer from the cache, which refills by a burst first where it is empty. -/
def State.takeDram (s : State) : Option (List Nat × State) :=
  if !s.dramTier then none
  else
    let s := if s.pool.dram.cache = [] then s.cacheIn else s
    match s.pool.dram.cache with
    | [] => none
    | b :: l => some ([b], s.withPool (fun w => { w with dram := { w.dram with cache := l } }))

/-- `n` buffers one by one under R265: `strict`: every copy goes to a strict queue or is delivered locally. -/
def State.takeBuffers (s : State) (n : Nat) (strict : Bool) : Option (List Nat × State) :=
  match n with
  | 0 => some ([], s)
  | k + 1 =>
    let sram := s.takeSram 1
    let dram := s.takeDram
    let one := if strict ∨ s.sramReserve < s.freeSram then (if sram.isSome then sram else dram) else (if dram.isSome then dram else sram)
    match one with
    | none => none
    | some (b, t) => (t.takeBuffers k strict).map (fun x => (b ++ x.1, x.2))

/-- The address of DRAM buffer `b`, and of its link entry (R263, R266). -/
def State.bufferAddr (s : State) (b : Nat) : Nat := s.poolBase + 256 * (b - 65536)

def State.linkAddr (s : State) (b : Nat) : Nat := s.poolBase + 251658240 + 3932160 + 16 * (b - 65536)

/-- The link entry of buffer `i` of a chain (R266). -/
def linkEntry (p : Packet) (i : Nat) : List Byte :=
  let n := p.bufs.length
  let used := if i + 1 = n then p.frame.length - 256 * i else 256
  let b := fun (x : Bool) (k : Nat) => if x then 2 ^ k else 0
  let w0 := p.bufs.getD (i + 1) 0 % 2 ^ 20 + (used - 1) % 256 * 2 ^ 20 + b (i + 1 = n) 28 + b (i = 0) 29
  let w1 := p.ref % 16 + p.inport * 16 + p.frame.length * 65536
  leBytes 4 w0 ++ leBytes 4 (if i = 0 then w1 else 0) ++ leBytes 8 (if i = 0 then p.arrival else 0)

/-- The buffers of a chain that lie in DRAM, and their link entries, are written. -/
def State.writeChain (s : State) (p : Packet) : State :=
  chainAll (List.range p.bufs.length) (fun i t =>
    let b := p.bufs.getD i 0
    if b < 65536 then t else (t.putFor 7 (t.bufferAddr b) (sliceOf p.frame (256 * i) 256) true).putFor 7 (t.linkAddr b) (linkEntry p i) true) s

/-- A packet of `bytes` bytes takes its chain (R265, R266); its name is its first buffer. -/
def State.allocPacket (s : State) (p : Packet) (bytes : Nat) (strict : Bool) : Option (Nat × State) :=
  if !s.fb F.BPM_CTRL_EN 0 then none
  else
    match s.takeBuffers ((max bytes 1 + 255) / 256) strict with
    | none => none
    | some (bs, t) =>
      let p := { p with bufs := bs }
      let t := t.withPool (fun w => { w with packets := Tab.set {} w.packets (bs.headD 0) p })
      some (bs.headD 0, t.writeChain p)

def State.packet (s : State) (b : Nat) : Packet := Tab.get {} s.pool.packets b

def State.setPacket (s : State) (b : Nat) (p : Packet) : State := s.withPool (fun w => { w with packets := Tab.set {} w.packets b p })

/-- REF of packet `b`, and of its link entry where that lies in DRAM (R266, R268). -/
def State.setRef (s : State) (b : Nat) (p : Packet) : State :=
  let s := s.setPacket b p
  if b < 65536 then s else s.putFor 7 (s.linkAddr b) (linkEntry p 0) true

/-- A chain returns to its free ring: in order to a ring, whole on top of the list of R271. Buffers 0 to 15 never enter a ring (R263). -/
def State.freeChain (s : State) (b : Nat) : State :=
  let p := s.packet b
  let lo := p.bufs.filter (fun x => decide (16 ≤ x) && decide (x < 65536))
  let hi := p.bufs.filter (fun x => decide (65536 ≤ x))
  let s := s.setPacket b {}
  let s := s.withPool (fun w => { w with sram := { w.sram with back := if s.fb F.BPM_CTRL_LIST_MODE 0 then lo ++ w.sram.back else w.sram.back ++ lo } })
  chainAll hi (fun x t => t.returnDram x) s

/-- One reference of a packet is released; at zero its chain returns, once its reception has ended (R268). -/
def State.release (s : State) (b : Nat) : State :=
  let p := s.packet b
  if p.bufs = [] then s
  else
    let p' := { p with ref := p.ref - 1 }
    let s := s.setRef b p'
    if p'.ref = 0 ∧ p.whole = true then s.freeChain b else s

/-- A requester stalls (R264, R270): each stall that begins is counted. -/
def State.stall (s : State) (r : Requester) : State :=
  if r ∈ s.pool.stalled then s
  else
    let s := s.withPool (fun w => { w with stalled := w.stalled ++ [r] })
    (s.count F.BPM_STALLS_COUNT 0 F.BPM_CNT_SAT_STALLS_SAT 0 0).setF F.BPM_EVENT_STALL 0 1

def State.unstall (s : State) (r : Requester) : State := s.withPool (fun w => { w with stalled := w.stalled.filter (· ≠ r) })

/-- A haul frame finds no buffer: it is dropped (R264). -/
def State.noBuffer (s : State) : State :=
  (s.count F.BPM_NO_BUFFER_COUNT 0 F.BPM_CNT_SAT_NO_BUFFER_SAT 0 0).setF F.BPM_EVENT_NO_BUFFER 0 1

/-- A requester asks for buffers for a frame (R264, R266, R270). -/
def State.bufferAlloc (s : State) (r : Requester) (frame : List Byte) (strict : Bool) : State :=
  let inport := match r with
    | .haul p => p
    | .egress => 7
    | .cp => 6
  match s.allocPacket { ref := 1, inport := inport, arrival := s.tick4, frame := frame } frame.length strict with
  | some (_, t) => t.unstall r
  | none =>
    match r with
    | .haul _ => s.noBuffer
    | _ => s.stall r

/-- BPM_CACHE_REFILL (R269): the on-chip cache of the DRAM free ring refills or empties by a burst. -/
def State.cacheRefill (s : State) : State :=
  let r := s.pool.dram
  if !s.dramTier then s
  else if r.cache.length < 128 ∧ 0 < r.stored then s.cacheIn
  else if 384 < r.cache.length then s.cacheOut
  else s

end Sys2Proof.Machine
end

