-- ==== Sys2Proof/Machine/Codec.lean ====
section
/-! DEFINITION. Walls, groups, contexts, descriptors and hewers as the scheduler and the Stockpile see them: accessors, counters, capacity, sync times. -/

namespace Sys2Proof.Machine

-- ## Access

def State.ctx? (s : State) (c : Nat) : Option Ctx := Tab.get none s.codec.ctxs c

/-- Context `c`; the default where it does not exist. -/
def State.ctx (s : State) (c : Nat) : Ctx := (s.ctx? c).getD {}

def State.setCtx? (s : State) (c : Nat) (x : Option Ctx) : State := s.withCodec (fun w => { w with ctxs := Tab.set none w.ctxs c x })

/-- A change of a context that exists. -/
def State.modCtx (s : State) (c : Nat) (g : Ctx → Ctx) : State :=
  match s.ctx? c with
  | none => s
  | some x => s.setCtx? c (some (g x))

def State.wall? (s : State) (w : Nat) : Option Wall := Tab.get none s.codec.walls w

def State.wall (s : State) (w : Nat) : Wall := (s.wall? w).getD {}

def State.setWall? (s : State) (w : Nat) (x : Option Wall) : State := s.withCodec (fun k => { k with walls := Tab.set none k.walls w x })

/-- The encode contexts of a wall pause (R152). -/
def State.pauseWall (s : State) (w : Nat) : State := s.setWall? w (some { s.wall w with paused := true })

/-- The encode contexts of a paused wall go on from `start` (R152); the first picture after the pause is a key picture (R137). -/
def State.playWall (s : State) (w start : Nat) : State :=
  if !(s.wall w).paused then s
  else (s.setWall? w (some { s.wall w with paused := false, startAt := start })).withCodec (fun k => { k with ctxs := k.ctxs.map (fun e => (e.1, e.2.map (fun x => if x.enc ∧ x.wall = w then { x with keyDue := true } else x))) })

def State.group? (s : State) (g : Nat) : Option Group := Tab.get none s.codec.groups g

def State.group (s : State) (g : Nat) : Group := (s.group? g).getD {}

def State.setGroup? (s : State) (g : Nat) (x : Option Group) : State := s.withCodec (fun k => { k with groups := Tab.set none k.groups g x })

def State.desc (s : State) (d : Nat) : DescState := Tab.get {} s.codec.descs d

def State.setDesc (s : State) (d : Nat) (x : DescState) : State := s.withCodec (fun k => { k with descs := Tab.set {} k.descs d x })

def State.hewer (s : State) (h : Nat) : Hewer := Tab.get {} s.codec.hewers h

def State.setHewer (s : State) (h : Nat) (x : Hewer) : State := s.withCodec (fun k => { k with hewers := Tab.set {} k.hewers h x })

/-- The numbers of the contexts that exist. -/
def State.ctxNums (s : State) : List Nat := s.codec.ctxs.map (·.1)

def State.ctxsOf (s : State) (p : Ctx → Bool) : List Nat := s.ctxNums.filter (fun c => (s.ctx? c).any p)

def State.contextsInUse (s : State) : Nat := s.codec.ctxs.length

def State.wallHasContexts (s : State) (w : Nat) : Bool := s.codec.ctxs.any (fun e => e.2.any (fun x => decide (x.wall = w)))

/-- The wall is under content protection: it held a key before its first context was created (R419). -/
def State.wallProtected (s : State) (w : Nat) : Bool := (s.wall w).sealed

/-- The lowest number below `n` that `used` does not hold. -/
def lowestFree (n : Nat) (used : List Nat) : Option Nat := (List.range n).find? (fun i => decide (i ∉ used))

-- ## Counters of a context (R153, R168)

/-- Counter `k` advances by `n`. -/
def Ctx.addStat (x : Ctx) (k n : Nat) : Ctx :=
  let v := min (Tab.get 0 x.stats k + n) (2 ^ 32 - 1)
  { x with stats := Tab.set 0 x.stats k v, sat := if v = 2 ^ 32 - 1 ∧ 0 < n then x.sat ||| 2 ^ k else x.sat }

/-- MAX_LATENESS keeps the largest value. -/
def Ctx.maxStat (x : Ctx) (k n : Nat) : Ctx :=
  let v := max (Tab.get 0 x.stats k) (min n (2 ^ 32 - 1))
  { x with stats := Tab.set 0 x.stats k v, sat := if v = 2 ^ 32 - 1 then x.sat ||| 2 ^ k else x.sat }

def State.stat (s : State) (c k n : Nat) : State := s.modCtx c (fun x => x.addStat k n)

def stPictures : Nat := 0
def stSlices : Nat := 1
def stLateSlices : Nat := 2
def stMaxLateness : Nat := 3
def stLatePictures : Nat := 4
def stDisplaySkipped : Nat := 5
def stCatchup : Nat := 6
def stFallback : Nat := 7
def stVoid : Nat := 8
def stPcm : Nat := 9
def stClip : Nat := 10
def stSkipped : Nat := 11
def stStale : Nat := 12
def stRedispatch : Nat := 13

/-- Error counter j of R168. -/
def stErr (j : Nat) : Nat := 14 + j

def errMarker : Nat := 0
def errHeader : Nat := 1
def errRepeat : Nat := 2
def errOrder : Nat := 3
def errRefSlot : Nat := 4
def errSyntax : Nat := 5
def errSize : Nat := 6
def errTrailer : Nat := 7
def errTruncated : Nat := 8
def errMissing : Nat := 9
def errRefMissing : Nat := 10
def errPoison : Nat := 11
def errBedCrc : Nat := 12
def errBedUnit : Nat := 13
def errConcBlocks : Nat := 14
def errConcPictures : Nat := 15

/-- A context raises its group source, 512 + (context >> 4). -/
def State.raiseCtx (s : State) (c : Nat) : State := s.modCtx c (fun x => { x with event := true })

-- ## Geometry

/-- Slices of a tile picture (R18). -/
def Tile.slices (t : Tile) : Nat := (t.h16 + t.sliceRowsM1) / (t.sliceRowsM1 + 1)

/-- Block rows of slice `i`. -/
def Tile.rowsOf (t : Tile) (i : Nat) : Nat := min (t.sliceRowsM1 + 1) (t.h16 - i * (t.sliceRowsM1 + 1))

def Tile.depth (t : Tile) : Nat := t.depthM8 + 8

/-- Visible width and height (R17). -/
def Tile.visW (t : Tile) : Nat := 16 * t.w16 - t.cropR
def Tile.visH (t : Tile) : Nat := 16 * t.h16 - t.cropB

-- ## Admission (R128, R129)

/-- Per-hewer rate of an effort level in lamps/s (R132). -/
def effortRate (e : Nat) : Nat := [640, 520, 400, 280].getD e 280 * 1000000

def encodeCharge (t : Tile) (num den e : Nat) : Nat := ceilDiv (256 * t.w16 * t.h16 * num * 65536) (den * effortRate e)

def decodeCharge (t : Tile) (num den hold : Nat) : Nat := ceilDiv (256 * t.w16 * t.h16 * num * 65536 * hold) (den * 600000000 * 64)

/-- ADMIT_PCT in force. -/
def State.admitPct (s : State) : Nat := min 95 (max 50 (s.f F.SCH_CTRL_ADMIT_PCT 0))

/-- LIMIT with `n` hewers in service. -/
def State.limitFor (s : State) (n : Nat) : Nat := s.admitPct * n * 65536 / 100

def State.hwState (s : State) (h : Nat) : Nat := s.f F.HWR_STATUS_STATE h

def hwOut : Nat := 0
def hwTest : Nat := 1
def hwIdle : Nat := 2
def hwRun : Nat := 3
def hwDraining : Nat := 4
def hwDrained : Nat := 5
def hwPatching : Nat := 6
def hwFault : Nat := 7

def allHewers : List Nat := List.range 24

/-- Hewers in IDLE, RUN, DRAINING and DRAINED (R190). -/
def State.inService (s : State) : Nat := (allHewers.filter (fun h => decide (2 ≤ s.hwState h) && decide (s.hwState h ≤ 5))).length

def State.chargeSum (s : State) : Nat := (s.codec.ctxs.map (fun e => (e.2.map (·.charge)).getD 0)).sum

/-- `SCH_CAPACITY` and `SCH_LIMIT` follow the hewers and the contexts. -/
def State.refreshCapacity (s : State) : State :=
  let s := s.setF F.SCH_CAPACITY_IN_SERVICE 0 s.inService
  let s := s.setF F.SCH_CAPACITY_CHARGE 0 (min s.chargeSum (2 ^ 21 - 1))
  s.setF F.SCH_LIMIT_LIMIT 0 (s.limitFor s.inService)

def State.setHwState (s : State) (h st : Nat) : State := (s.setF F.HWR_STATUS_STATE h st).refreshCapacity

-- ## Wall time (R26, R144, R198)

/-- Sync k of a wall. -/
def Wall.sync (w : Wall) (k : Nat) : Nat := w.t0 + k * w.rateDen * 1000000000 / (w.rateNum * w.subframes)

/-- Number of the first sync at or after `t`. -/
def Wall.syncNo (w : Wall) (t : Nat) : Nat := ceilDiv ((t - w.t0) * (w.rateNum * w.subframes)) (w.rateDen * 1000000000)

def Wall.firstSync (w : Wall) (t : Nat) : Nat := w.sync (w.syncNo t)

/-- One picture period in ns. -/
def Wall.period (w : Wall) : Nat := w.rateDen * 1000000000 / w.rateNum

/-- t_D of R144 from a DEADLINE, by the present time. -/
def State.deadlineTime (s : State) (d : Nat) : Nat :=
  let n := s.now / 64
  (((n : Int) + signed 32 (d + 2 ^ 32 - n % 2 ^ 32)).toNat) * 64

/-- The stamp that a receiver takes (R144). -/
def State.stampOf (s : State) (wall t : Nat) : Nat :=
  match s.wall? wall with
  | some w => if w.grid.isSome then w.firstSync t else t
  | none => t

-- ## Shadow set of a context (R64)

/-- The shadow set that the registers of context `c` hold. -/
def State.ctxShadow (s : State) (c : Nat) : CtxSet :=
  { configured := s.f F.SCH_CTX_EFFORT_CONFIGURED c, linkRate := s.f F.SCH_CTX_RATE_LINK_RATE c, bucket := s.f F.SCH_CTX_BUCKET_BUCKET c,
    qpMin := s.f F.SCH_CTX_QP_QP_MIN c, qpMax := max (s.f F.SCH_CTX_QP_QP_MIN c) (s.f F.SCH_CTX_QP_QP_MAX c), qpStepMax := max 1 (s.f F.SCH_CTX_QP_QP_STEP_MAX c),
    ki := s.f F.SCH_CTX_PI_KI c, kp := s.f F.SCH_CTX_PI_KP c, allot := s.f F.SCH_CTX_ALLOT_ALLOT c }

/-- Firmware writes the registers of a new context. -/
def State.writeCtxSet (s : State) (c : Nat) (a : CtxSet) : State :=
  let s := s.setF F.SCH_CTX_EFFORT_CONFIGURED c a.configured
  let s := s.setF F.SCH_CTX_RATE_LINK_RATE c a.linkRate
  let s := s.setF F.SCH_CTX_BUCKET_BUCKET c a.bucket
  let s := s.setF F.SCH_CTX_QP_QP_MIN c a.qpMin
  let s := s.setF F.SCH_CTX_QP_QP_MAX c a.qpMax
  let s := s.setF F.SCH_CTX_QP_QP_STEP_MAX c a.qpStepMax
  let s := s.setF F.SCH_CTX_PI_KI c a.ki
  let s := s.setF F.SCH_CTX_PI_KP c a.kp
  s.setF F.SCH_CTX_ALLOT_ALLOT c a.allot

/-- The slice boundary of a context: an armed shadow set is copied whole (R64). -/
def State.ctxHandover (s : State) (c : Nat) : State :=
  if s.fb F.SCH_CTX_ARM_SHADOW_ARMED c then
    (s.modCtx c (fun x => { x with act := s.ctxShadow c })).setF F.SCH_CTX_ARM_SHADOW_ARMED c 0
  else s

/-- The register fields of a context that is gone read zero. -/
def State.clearCtxRegs (s : State) (c : Nat) : State :=
  chainAll [F.SCH_CTX_EFFORT_CATCHUP, F.SCH_CTX_EFFORT_EFFECTIVE, F.SCH_CTX_EFFORT_CONFIGURED, F.SCH_CTX_RATE_LINK_RATE, F.SCH_CTX_BUCKET_BUCKET,
    F.SCH_CTX_QP_QP_NOW, F.SCH_CTX_QP_QP_STEP_MAX, F.SCH_CTX_QP_QP_MAX, F.SCH_CTX_QP_QP_MIN, F.SCH_CTX_PI_KI, F.SCH_CTX_PI_KP, F.SCH_CTX_ARM_SHADOW_ARMED,
    F.SCH_CTX_LATE_LATE_STREAK, F.SCH_CTX_LATE_LREM, F.SCH_CTX_ALLOT_ALLOT, F.STK_CTX_STATUS_CONCEALED, F.STK_CTX_STATUS_CONC_SLICES, F.STK_CTX_STATUS_LAST_PICTURE]
    (fun F t => t.setF F c (F.reset c)) s

-- ## Patches as security sees them (R417)

/-- The measurement of the loaded patch set with identity `p`. -/
def State.patchMeasure (s : State) (p : Nat) : List Byte :=
  match allHewers.find? (fun h => decide (s.f F.HWR_PATCH_STATUS_PATCH_ID h = p) && decide (s.f F.HWR_PATCH_STATUS_STATE h = 1)) with
  | some h => (s.hewer h).measure
  | none => []

end Sys2Proof.Machine
end

