-- ==== Sys2Proof/Machine/Scratch.lean ====
section
/-! DEFINITION. The scratchpad's two logical ports (R405 to R407). -/

namespace Sys2Proof.Machine

/-- Words of the scratchpad: 512 KiB of 64 bits. -/
def spdWords : Nat := 65536

/-- The word that a read of a logical port returns; a write returns none. -/
def SpdOp.data (o : SpdOp) (spd : Tab Nat) : List Nat :=
  match o with
  | .read w => [Tab.get 0 spd (w % spdWords)]
  | .write _ _ => []

/-- The scratchpad after an access. -/
def SpdOp.store (o : SpdOp) (spd : Tab Nat) : Tab Nat :=
  match o with
  | .read _ => spd
  | .write w v => Tab.set 0 spd (w % spdWords) (v % 2 ^ 64)

/-- One FCLK of the physical port (R406): the reads of both ports, then the writes, port 1 last. -/
def SecState.spdCycle (x : SecState) : SecState :=
  let a := x.spdPort0.take 1
  let b := x.spdPort1.take 1
  { x with
    spdData0 := x.spdData0 ++ a.flatMap (fun o => o.data x.spd), spdData1 := x.spdData1 ++ b.flatMap (fun o => o.data x.spd),
    spd := b.foldl (fun t o => o.store t) (a.foldl (fun t o => o.store t) x.spd), spdPort0 := x.spdPort0.drop 1, spdPort1 := x.spdPort1.drop 1 }

/-- `n` FCLKs of the physical port. -/
def SecState.spdCycles (x : SecState) (n : Nat) : SecState :=
  match n with
  | 0 => x
  | k + 1 => x.spdCycle.spdCycles k

/-- The accesses that wait are made, but not while a wipe runs (R407). -/
def State.spdServe (s : State) : State :=
  if s.fb F.SPD_CTRL_BUSY 0 then s else s.withSec (fun x => x.spdCycles (max x.spdPort0.length x.spdPort1.length))

/-- The secure core and the engines access the scratchpad through port 0, the DMA through port 1 (R405). -/
def State.spdAsk0 (s : State) (os : List SpdOp) : State := (s.withSec (fun x => { x with spdPort0 := x.spdPort0 ++ os })).spdServe
def State.spdAsk1 (s : State) (os : List SpdOp) : State := (s.withSec (fun x => { x with spdPort1 := x.spdPort1 ++ os })).spdServe

/-- The writes that copy `bs` to the scratchpad from word `w` on, and the reads of as many bytes. -/
def spdWrites (w : Nat) (bs : List Byte) : List SpdOp := (List.range ((bs.length + 7) / 8)).map (fun i => .write (w + i) (natOfLe ((bs.drop (8 * i)).take 8)))
def spdReads (w n : Nat) : List SpdOp := (List.range ((n + 7) / 8)).map (fun i => .read (w + i))

/-- What a read of `ws` meets (R405): a corrected word counts in SPD_CE; a word that reads uncorrectably has an open value (log entry 110). -/
def State.spdMeets (s : State) (ws : List Nat) (e : SramRead) : List Nat × State :=
  match e with
  | .clean => (ws, s)
  | .corrected k => (ws, if k < ws.length then s.bump F.SPD_CE_COUNT 0 else s)
  | .uncorrectable k => (ws.set k (Config.freeNat 68 s.free % 2 ^ 64), s.draw)

/-- `n` bytes read from word `w` on, of which a word meets `e`, and the state after the reads. -/
def State.spdBytes (s : State) (w n : Nat) (e : SramRead) : List Byte × State :=
  let t := s.spdAsk0 (spdReads w n)
  let x := (t.withSec (fun x => { x with spdData0 := [] })).spdMeets t.sec.spdData0 e
  ((x.1.flatMap (leBytes 8)).take n, x.2)

end Sys2Proof.Machine
end

