-- ==== Sys2Proof/Machine/Loads.lean ====
section
/-! DEFINITION. Loading patch sets into hewers, and the update that takes every hewer in turn (R187, R188, R192, R194). -/

namespace Sys2Proof.Machine

-- ## Patch sets (R187, R188)

/-- The 18 bytes of word `w` of a set as a 144-bit number. -/
def patchWord (b : List Byte) (w : Nat) : Nat := beAt b (64 + 18 * w) 18

/-- Match entry `k` of a set of `n` words: ROM address and patch offset. -/
def patchMatch (b : List Byte) (n k : Nat) : Nat × Nat :=
  let e := beAt b (64 + 18 * n + 4 * k) 4
  (field e 29 16, field e 9 0)

/-- Bytes of a set before its signature. -/
def patchLen (words matches_ : Nat) : Nat := 64 + 18 * words + 4 * matches_

/-- The other bits of a match entry are zero. -/
def patchEntryOk (b : List Byte) (n k : Nat) : Bool :=
  let e := beAt b (64 + 18 * n + 4 * k) 4
  decide (e / 2 ^ 30 = 0) && decide (field e 15 10 = 0)

/-- The checks of R188 on the bytes `b`, in their order; `rom`: the version of the ROM, `dataOk`: the data package of a set that travels in it passed. -/
def State.checkPatch (s : State) (b : List Byte) (id rom : Nat) (dataOk : Bool) : Except Nat PatchSet :=
  let n := beAt b 8 2
  let m := byteAt b 10
  let ms := (List.range m).map (patchMatch b n)
  let body := b.take (patchLen n m)
  if ¬ (b.take 4 = [0x59, 0x46, 0x50, 0x54] ∧ beAt b 4 2 = id ∧ beAt b 6 2 = rom ∧ 1 ≤ n ∧ n ≤ 1024 ∧ (sliceOf b 11 53).all (· = 0) = true ∧ (List.range m).all (patchEntryOk b n) = true) then .error stBadArg
  else if ms.any (fun e => decide (n ≤ e.2)) then .error stBadArg
  else if 64 < m then .error stNoResource
  else if !dataOk then .error stSigFail
  else
    match s.fwKeyVerify body (sliceOf b (patchLen n m) 114) with
    | none => .error stSigFail
    | some _ => .ok { id := id, words := (List.range n).map (patchWord b), matches_ := ms, measure := Config.shake256 (b.take (patchLen n m + 114)), bytes := b.take (patchLen n m + 114) }

/-- The longest set: 1,024 words and 255 entries that a check can look at. -/
def patchMax : Nat := patchLen 1024 255 + 114

/-- The bytes of a set: from DRAM, or from the data package of the running image, where its place is open. -/
def State.patchImageBytes (s : State) (fromDram : Bool) (addr : Nat) : List Byte :=
  if fromDram then s.dramFor 9 addr patchMax true
  else
    let h := s.flashBytes (slotBase s.fw.image.slot) 512
    s.flashBytes (slotBase s.fw.image.slot + 512 + beAt h 8 4 + Config.freeNat 18 0) patchMax

/-- The set that a command names; PATCH_ID 0 needs none. -/
def State.namedPatch (s : State) (flags id addr : Nat) : Except Nat PatchSet :=
  if id = 0 then .ok {} else s.checkPatch (s.patchImageBytes (decide (flags % 2 = 1)) addr) id (s.f F.HWR_ROM_VERSION_VERSION 0) (decide (flags % 2 = 1) || s.fw.image.dataOk)

-- ## A load (R192)

/-- Hewer `h`, in DRAINED or OUT, starts to load `p`: lock 3 is taken and the hewer is PARTIAL until the end. -/
def State.beginLoad (s : State) (h : Nat) (p : PatchSet) (w : Waiter) : State :=
  let s := s.setF F.SEM_LOCK_OWNER 3 1
  let s := s.setHewer h { s.hewer h with loading := some p, loadFor := w, loadFrom := s.hwState h, patchEvt := false }
  (s.setF F.HWR_PATCH_STATUS_STATE h 2).setHwState h hwPatching

/-- One word of patch RAM: 32 bits in each of five registers. -/
def State.putPatchWord (s : State) (h w v : Nat) : State :=
  chainAll (List.range 5) (fun i t => t.setF F.HWR_PATCH_RAM_DATA (8192 * h + 8 * w + i) (v / 2 ^ (32 * i) % 2 ^ 32)) s

def State.putMatch (s : State) (h m : Nat) (e : Option (Nat × Nat)) : State :=
  let i := 64 * h + m
  ((s.setF F.HWR_MATCH_EN i (if e.isSome then 1 else 0)).setF F.HWR_MATCH_ROM_ADDR i ((e.map (·.1)).getD 0)).setF F.HWR_MATCH_PATCH_OFFSET i ((e.map (·.2)).getD 0)

/-- The set's words and match entries stand in the registers of hewer `h`. -/
def State.writePatch (s : State) (h : Nat) (p : PatchSet) : State :=
  let s := chainAll (List.range p.words.length) (fun w t => t.putPatchWord h w (p.words.getD w 0)) s
  let s := chainAll (List.range 64) (fun m t => t.putMatch h m (p.matches_[m]?)) s
  let s := s.setF F.HWR_PATCH_STATUS_PATCH_ID h p.id
  let s := s.setF F.HWR_PATCH_STATUS_MATCH_USED h p.matches_.length
  s.setF F.HWR_PATCH_STATUS_STATE h (if p.id = 0 then 0 else 1)

-- ## The update of every hewer (R194)

/-- The word of the scratchpad where the copy of R194 begins: its place is open. -/
def spdCopyAt : Nat := Config.freeNat 61 0 % spdWords

/-- The verified set is copied to the scratchpad by the DMA (R194, R405). -/
def State.copySet (s : State) (p : PatchSet) : State := s.spdAsk1 (spdWrites spdCopyAt p.bytes)

/-- The set as the copy in the scratchpad gives its words and match entries, and the state after its reads (R194). -/
def State.copiedSet (s : State) (p : PatchSet) (e : SramRead) : PatchSet × State :=
  let x := s.spdBytes spdCopyAt p.bytes.length e
  ({ p with words := (List.range p.words.length).map (patchWord x.1), matches_ := (List.range p.matches_.length).map (patchMatch x.1 p.words.length) }, x.2)

/-- A hewer that the update treats: in service, or OUT; one in TEST or PATCHING comes there first. -/
def State.updates (s : State) (h : Nat) : Bool := decide (s.hwState h ≠ hwFault)

/-- The update treats the first hewer from number `k` on, or ends; a hewer in TEST or PATCHING is awaited. -/
def State.updateFrom (s : State) (k : Nat) : State :=
  match s.codec.update with
  | none => s
  | some u =>
    match allHewers.find? (fun h => decide (k ≤ h) && s.updates h) with
    | none => ((s.withCodec (fun w => { w with update := none })).freeLock 3).endJob u.job (!u.failed) (if u.failed then stInternal else stOk)
    | some h =>
      let busy := decide (s.hwState h = hwTest) || decide (s.hwState h = hwPatching)
      let s := s.withCodec (fun w => { w with update := some { u with at_ := h, waits := busy } })
      if busy then s
      else if s.hwState h = hwOut ∨ s.hwState h = hwDrained ∨ s.hwState h = hwIdle then
        s.beginLoad h u.set .update
      else (s.setHewer h { s.hewer h with drainFor := (s.hewer h).drainFor ++ [.update] }).setHwState h hwDraining

/-- The hewer that the update is at failed; the next follows. -/
def State.updateFailed (s : State) : State :=
  match s.codec.update with
  | none => s
  | some u => (s.withCodec (fun w => { w with update := some { u with failed := true } })).updateFrom (u.at_ + 1)

/-- The hewer `h` that the update awaits has left TEST or PATCHING. -/
def State.updateWakes (s : State) (h : Nat) : State := if s.codec.update.any (fun u => u.waits && decide (u.at_ = h)) then s.updateFrom h else s

/-- Who waits hears that the work on hewer `h` ended, well or not. -/
def State.tellWaiter (s : State) (w : Waiter) (ok : Bool) : State :=
  match w with
  | .none => s
  | .mailbox m => s.putResult m (if ok then stOk else stInternal) []
  | .job j => s.endJob j ok (if ok then stOk else stInternal)
  | .update =>
    match s.codec.update with
    | none => s
    | some u => if ok then s.updateFrom (u.at_ + 1) else s.updateFailed

/-- A drain of hewer `h` ended: commands hear OK, whatever ended it (R191, R196); the update goes on with its load. -/
def State.tellDrained (s : State) (h : Nat) (ws : List Waiter) : State :=
  chainAll ws (fun w t => match w with
    | .update =>
      (match t.codec.update with
      | none => t
      | some u => if t.hwState h = hwDrained ∨ t.hwState h = hwOut then t.beginLoad h u.set .update else t.updateFailed)
    | w => t.tellWaiter w true) s

end Sys2Proof.Machine
end

