-- ==== Sys2Proof/Machine/Kbf.lean ====
section
/-! DEFINITION. Kryem Block Format: stuffing, header segments, the codes of the block layer, read and written. -/

namespace Sys2Proof.Machine

/-- Why a read of slice data stops: the bytes have run out, or a check of the syntax failed (R168 tells the two kinds apart). -/
inductive RdErr where
  | short | blockSyntax | refSlot
deriving DecidableEq, Repr

/-- A reader of bits. -/
abbrev Rd (α : Type) := List Bool → Except RdErr (α × List Bool)

def Rd.ret {α : Type} (x : α) : Rd α := fun bs => .ok (x, bs)

def Rd.fail {α : Type} (e : RdErr) : Rd α := fun _ => .error e

def Rd.andThen {α β : Type} (p : Rd α) (f : α → Rd β) : Rd β := fun bs =>
  match p bs with
  | .error e => .error e
  | .ok (x, r) => f x r

/-- read_bit of R89. -/
def readBit : Rd Bool := fun bs =>
  match bs with
  | [] => .error .short
  | b :: r => .ok (b, r)

/-- read_bits(n) of R89, on from `acc`. -/
def readBitsFrom (n acc : Nat) : Rd Nat :=
  match n with
  | 0 => Rd.ret acc
  | k + 1 => Rd.andThen readBit (fun b => readBitsFrom k (2 * acc + b.toNat))

def readBits (n : Nat) : Rd Nat := readBitsFrom n 0

/-- The list that `n` reads give. -/
def readMany {α : Type} (n : Nat) (p : Rd α) : Rd (List α) :=
  match n with
  | 0 => Rd.ret []
  | k + 1 => Rd.andThen p (fun x => Rd.andThen (readMany k p) (fun r => Rd.ret (x :: r)))

/-- The zero prefix of R99, with `fuel` zeros left before the limit of R95. -/
def readZeros (fuel z : Nat) : Rd Nat :=
  Rd.andThen readBit (fun b =>
    if b then Rd.ret z
    else
      match fuel with
      | 0 => Rd.fail .blockSyntax
      | k + 1 => readZeros k (z + 1))

/-- read_eg(k) of R99. -/
def readEg (k : Nat) : Rd Nat :=
  Rd.andThen (readZeros 16 0) (fun z =>
    Rd.andThen (readBits (z + k)) (fun x => Rd.ret (2 ^ (z + k) + x - 2 ^ k)))

/-- The signed value that `u` stands for (R99). -/
def seOfEg (u : Nat) : Int := if u % 2 = 1 then ((u + 1) / 2 : Nat) else -((u / 2 : Nat) : Int)

/-- read_se(k) of R99. -/
def readSe (k : Nat) : Rd Int := Rd.andThen (readEg k) (fun u => Rd.ret (seOfEg u))

/-- The unary prefix of R97: the ones read, at most `fuel` of them; the zero that ends a shorter run is read too. -/
def readOnes (fuel p : Nat) : Rd Nat :=
  match fuel with
  | 0 => Rd.ret p
  | k + 1 => Rd.andThen readBit (fun b => if b then readOnes k (p + 1) else Rd.ret p)

/-- The escape of the Rice code: ones in the prefix and bits of the field (R97; R101 for version 1). -/
def escOnes (v1 : Bool) : Nat := if v1 then 16 else 24
def escBits (v1 : Bool) : Nat := if v1 then 16 else 20

/-- read_rice_fixed(k) of R97. -/
def readRiceFixed (v1 : Bool) (k : Nat) : Rd Nat :=
  Rd.andThen (readOnes (escOnes v1) 0) (fun p =>
    if p = escOnes v1 then
      Rd.andThen (readBits (escBits v1)) (fun v =>
        if v / 2 ^ k < escOnes v1 then Rd.fail .blockSyntax else Rd.ret v)
    else
      Rd.andThen (readBits k) (fun x => Rd.ret (p * 2 ^ k + x)))

/-- The k of a context (R97). -/
def riceK (c : RiceCtx) : Nat :=
  ((List.range 15).find? (fun k => decide (c.a ≤ c.n * 2 ^ k))).getD 15

/-- A context after value `v` (R97; R101 for version 1). -/
def RiceCtx.update (v1 : Bool) (c : RiceCtx) (v : Nat) : RiceCtx :=
  let lim := if v1 then 32 else 64
  let a := c.a + v
  let n := c.n + 1
  if n = lim then { a := a / 2, n := lim / 2 } else { a := a, n := n }

/-- The contexts at the start of a slice (R96). -/
def riceStart (v1 : Bool) : List RiceCtx := List.replicate (if v1 then 12 else 24) {}

/-- The position class of R96. -/
def riceClass (p : Nat) : Nat := if p = 0 then 0 else if p ≤ 3 then 1 else if p ≤ 15 then 2 else 3

/-- The context number of R93; version 1 has no intra and inter split. -/
def riceIndex (v1 : Bool) (cat c p : Nat) : Nat := (if v1 then 0 else cat * 12) + c * 4 + riceClass p

/-- The up-right diagonal scan of R94: the (x, y) of each position. -/
def scan (n : Nat) : List (Nat × Nat) :=
  (List.range (2 * n - 1)).flatMap (fun d =>
    let lo := if n ≤ d then d - (n - 1) else 0
    let hi := min d (n - 1)
    (List.range (hi + 1 - lo)).map (fun t => (d - (hi - t), hi - t)))

/-- One level after its significance: value, then sign (R93). -/
def readLevel (v1 : Bool) (ix : Nat) (cs : List RiceCtx) : Rd (Int × List RiceCtx) :=
  let c := cs.getD ix {}
  Rd.andThen (readRiceFixed v1 (riceK c)) (fun v =>
    Rd.andThen readBit (fun s =>
      Rd.ret ((if s then -((v + 1 : Nat) : Int) else ((v + 1 : Nat) : Int)), cs.set ix (c.update v1 v))))

/-- The four positions of a significant group, from position `i` on; `any`: one was significant before. -/
def readGroup (v1 : Bool) (cat c g : Nat) (sigs : List Bool) (i : Nat) (cs : List RiceCtx) : Rd (List Int × List RiceCtx) :=
  match sigs with
  | [] => Rd.ret ([], cs)
  | s :: r =>
    if s then
      Rd.andThen (readLevel v1 (riceIndex v1 cat c (4 * g + i)) cs) (fun x =>
        Rd.andThen (readGroup v1 cat c g r (i + 1) x.2) (fun y => Rd.ret (x.1 :: y.1, y.2)))
    else
      Rd.andThen (readGroup v1 cat c g r (i + 1) cs) (fun y => Rd.ret (0 :: y.1, y.2))

/-- The groups `g` to `g` + `n` − 1 of a unit, the last of them significant (R93). -/
def readGroups (v1 : Bool) (cat c g n : Nat) (cs : List RiceCtx) : Rd (List Int × List RiceCtx) :=
  match n with
  | 0 => Rd.ret ([], cs)
  | m + 1 =>
    Rd.andThen (if m = 0 then Rd.ret true else readBit) (fun gs =>
      Rd.andThen
        (if gs then
          Rd.andThen (readMany 3 readBit) (fun s3 =>
            Rd.andThen (if s3.any id then readBit else Rd.ret true) (fun s4 =>
              readGroup v1 cat c g (s3 ++ [s4]) 0 cs))
         else Rd.ret ([0, 0, 0, 0], cs))
        (fun x => Rd.andThen (readGroups v1 cat c (g + 1) m x.2) (fun y => Rd.ret (x.1 ++ y.1, y.2))))

/-- Points of a transform unit (R93). -/
def tuPoints (tsize : Nat) : Nat := 4 * 2 ^ tsize

/-- Bits of LAST (R93): log2 of the groups of a unit. -/
def lastBits (tsize : Nat) : Nat := 2 + 2 * tsize

/-- The units of one component (R93). -/
def readUnits (v1 : Bool) (cat c tsize n : Nat) (cs : List RiceCtx) : Rd (List (List Int) × List RiceCtx) :=
  match n with
  | 0 => Rd.ret ([], cs)
  | m + 1 =>
    Rd.andThen (if tsize = 2 then Rd.ret true else readBit) (fun cbf =>
      Rd.andThen
        (if cbf then Rd.andThen (readBits (lastBits tsize)) (fun last => readGroups v1 cat c 0 (last + 1) cs)
         else Rd.ret ([], cs))
        (fun x => Rd.andThen (readUnits v1 cat c tsize m x.2) (fun y => Rd.ret (x.1 :: y.1, y.2))))

/-- The components whose CBF is set, from component `c` on (R93). -/
def readComps (v1 : Bool) (cat tsize : Nat) (cbf : List Bool) (c : Nat) (cs : List RiceCtx) : Rd (List (List (List Int)) × List RiceCtx) :=
  match cbf with
  | [] => Rd.ret ([], cs)
  | b :: r =>
    Rd.andThen (if b then readUnits v1 cat c tsize ((16 / tuPoints tsize) ^ 2) cs else Rd.ret ([], cs)) (fun x =>
      Rd.andThen (readComps v1 cat tsize r (c + 1) x.2) (fun y => Rd.ret (x.1 :: y.1, y.2)))

/-- The residual of R93: TSIZE, levels and contexts. -/
def readResidual (v1 : Bool) (cat : Nat) (cs : List RiceCtx) : Rd (Nat × List (List (List Int)) × List RiceCtx) :=
  Rd.andThen (readBits (if v1 then 1 else 2)) (fun ts =>
    if ts = 3 then Rd.fail .blockSyntax
    else Rd.andThen (readMany 3 readBit) (fun cbf =>
      Rd.andThen (readComps v1 cat ts cbf 0 cs) (fun x => Rd.ret (ts, x.1, x.2))))

/-- The correction that `u` stands for (R95). -/
def corrOf (u : Nat) : Int := if u % 2 = 0 then ((u / 2 : Nat) : Int) else -(((u + 1) / 2 : Nat) : Int)

/-- The refinement of R95: the groups of each component. -/
def readRefinement (k : Nat) : Rd (List (List (List Int))) :=
  Rd.andThen readBit (fun any =>
    if any then
      readMany 3 (readMany 16 (Rd.andThen readBit (fun g =>
        if g then readMany 16 (Rd.andThen (readRiceFixed false k) (fun u => Rd.ret (corrOf u))) else Rd.ret [])))
    else Rd.ret [])

/-- read_mode of R89 with the codes of R90 and R101. -/
def readMode (v1 key : Bool) : Rd BlockMode :=
  let bit (p q : Rd BlockMode) : Rd BlockMode := Rd.andThen readBit (fun b => if b then p else q)
  let ret (m : BlockMode) : Rd BlockMode := Rd.ret m
  match v1, key with
  | false, false => bit (bit (bit (bit (bit (ret .intraDcSkip) (ret .pcm)) (ret .bedrock)) (ret .intra)) (ret .inter)) (ret .hold)
  | false, true => bit (bit (bit (ret .pcm) (ret .bedrock)) (ret .intra)) (ret .intraDcSkip)
  | true, false => bit (bit (ret .intra) (ret .inter)) (ret .hold)
  | true, true => bit (ret .pcm) (ret .intra)

/-- Bits of a PCM sample of component `c` (R92). -/
def pcmBits (x : BlockCtx) (c : Nat) : Nat := if x.colour = 1 ∧ c ≠ 0 then x.depth + 1 else x.depth

/-- A PCM sample of `w` bits of component `c` (R92). -/
def pcmValue (x : BlockCtx) (c v : Nat) : Int := if x.colour = 1 ∧ c ≠ 0 then signed (x.depth + 1) v else v

/-- The limits of a vector (R95, R101). -/
def mvOk (v1 : Bool) (v : Int × Int) : Bool :=
  let h : Int := if v1 then 2048 else 4096
  decide (-h ≤ v.1) && decide (v.1 ≤ h) && decide (-(h / 2) ≤ v.2) && decide (v.2 ≤ h / 2)

/-- One vector difference, checked against the limits with its prediction (R100). -/
def readMvd (v1 : Bool) (pred : Int × Int) : Rd (Int × Int) :=
  Rd.andThen (readSe 1) (fun dx =>
    Rd.andThen (readSe 1) (fun dy =>
      if mvOk v1 (pred.1 + dx, pred.2 + dy) then Rd.ret (dx, dy) else Rd.fail .blockSyntax))

/-- A reference slot: its valid bit of the picture header must be set (R80). -/
def checkRef (valid slot : Nat) : Rd Unit := if valid.testBit slot then Rd.ret () else Rd.fail .refSlot

/-- The residual and refinement that end a predicted block (R91). -/
def readTail (x : BlockCtx) (h : SliceHdr) (cat : Nat) (b : BlockElems) (cs : List RiceCtx) : Rd (BlockElems × List RiceCtx) :=
  Rd.andThen (readResidual x.v1 cat cs) (fun r =>
    Rd.andThen (if h.refine then readRefinement h.refineK else Rd.ret []) (fun q =>
      Rd.ret ({ b with tsize := r.1, levels := r.2.1, corr := q }, r.2.2)))

/-- The slots that a bedrock block may name: those that serve, and in a bedrock unit only the other slot (R80, R86). -/
def checkBed (x : BlockCtx) (slot : Nat) : Rd Unit :=
  match x.building with
  | some k => if slot = k then Rd.fail .refSlot else Rd.ret ()
  | none => checkRef x.bedrockValid slot

/-- One block (R90 to R95): its elements, with the predictions `p0` and `p1` of its vectors, and the contexts after it. -/
def readBlock (x : BlockCtx) (h : SliceHdr) (p0 p1 : Int × Int) (cs : List RiceCtx) : Rd (BlockElems × List RiceCtx) :=
  Rd.andThen (readMode x.v1 h.key) (fun m =>
    match m with
    | .hold => Rd.ret ({ mode := .hold }, cs)
    | .intraDcSkip => Rd.ret ({ mode := .intraDcSkip }, cs)
    | .intra => Rd.andThen (readBits 4) (fun im =>
        if 10 < im then Rd.fail .blockSyntax else readTail x h 0 { mode := .intra, intraMode := im } cs)
    | .inter => Rd.andThen (if x.v1 then Rd.ret false else readBit) (fun bi =>
        Rd.andThen (readBits (if x.v1 then 1 else 2)) (fun r0 =>
          Rd.andThen (checkRef x.refValid r0) (fun _ =>
            Rd.andThen (if bi then readBits 2 else Rd.ret 0) (fun r1 =>
              Rd.andThen (if bi then checkRef x.refValid r1 else Rd.ret ()) (fun _ =>
                Rd.andThen (readMvd x.v1 p0) (fun d0 =>
                  Rd.andThen (if bi then readMvd x.v1 p1 else Rd.ret (0, 0)) (fun d1 =>
                    readTail x h 1 { mode := .inter, bi := bi, ref0 := r0, ref1 := r1, mvd0 := d0, mvd1 := d1 } cs)))))))
    | .bedrock => Rd.andThen (readBits 1) (fun sl =>
        Rd.andThen (checkBed x sl) (fun _ => readTail x h 1 { mode := .bedrock, bslot := sl } cs))
    | .pcm =>
        Rd.andThen (readMany 256 (readBits (pcmBits x 0))) (fun s0 =>
          Rd.andThen (readMany 256 (readBits (pcmBits x 1))) (fun s1 =>
            Rd.andThen (readMany 256 (readBits (pcmBits x 2))) (fun s2 =>
              Rd.ret ({ mode := .pcm, pcm := [s0.map (pcmValue x 0), s1.map (pcmValue x 1), s2.map (pcmValue x 2)] }, cs)))))

-- ## What the last elements leave (R184)

/-- The levels of a block in the order of the syntax that are not zero: component, scan position, level. -/
def codedLevels (b : BlockElems) : List (Nat × Nat × Int) :=
  (List.range b.levels.length).flatMap (fun c => (b.levels.getD c []).flatMap (fun ls =>
    (List.range ls.length).filterMap (fun p => if ls.getD p 0 = 0 then none else some (c, p, ls.getD p 0))))

/-- Whether the Rice read of the last level took the escape, from contexts `cs` at the block's start. -/
def levelEscape (v1 : Bool) (cat : Nat) (cs : List RiceCtx) (ls : List (Nat × Nat × Int)) : Bool :=
  (ls.foldl (fun (a : Bool × List RiceCtx) l =>
    let ix := riceIndex v1 cat l.1 l.2.1
    let k := a.2.getD ix {}
    let v := l.2.2.natAbs - 1
    (decide (escOnes v1 ≤ v / 2 ^ riceK k), a.2.set ix (k.update v1 v))) (false, cs)).1

/-- The value u that codes a correction (R95). -/
def egOfCorr (q : Int) : Nat := if 0 ≤ q then (2 * q).toNat else (-2 * q - 1).toNat

/-- The last fixed-length element of a residual: LAST of its last unit, or a CBF of 0. -/
def residualElem (b : BlockElems) : Nat :=
  match (b.levels.filter (· ≠ [])).getLast?.bind (·.getLast?) with
  | some ls => ls.length / 4 - 1
  | none => 0

/-- The signals after a block of contexts `cs` was read, from those before it (R184). DEDUCED (log entry 100): the value meant by SIGN and VALUE_ZERO is the last correction, else the last level, else the last vector component. -/
def Signals.after (g : Signals) (x : BlockCtx) (h : SliceHdr) (cs : List RiceCtx) (b : BlockElems) : Signals :=
  let cat := if b.mode = .intra then 0 else 1
  let ls := codedLevels b
  let units := (b.levels.flatMap id).filter (· ≠ [])
  let g := match units.getLast? with
    | some u => { g with sig := ((u.drop (u.length - 4)).map (fun (l : Int) => decide (l ≠ 0))) }
    | none => g
  match b.mode with
  | .hold | .intraDcSkip => g
  | .pcm => { g with elem := unsigned 8 ((b.pcm.getD 2 []).getD 255 0) }
  | _ =>
    let g := if b.mode = .inter then let v := if b.bi then b.mvd1.2 else b.mvd0.2; { g with sign := decide (v < 0), zero := decide (v = 0) } else g
    let g := match ls.getLast? with
      | some l => { g with escape := levelEscape x.v1 cat cs ls, sign := decide (l.2.2 < 0), zero := false }
      | none => g
    let g := { g with elem := residualElem b }
    if !h.refine then g
    else
      let groups := b.corr.flatMap id
      match (groups.flatMap id).getLast? with
      | none => { g with elem := 0 }
      | some q => { g with elem := if groups.getLast? = some [] then 0 else 1, escape := decide (escOnes x.v1 ≤ egOfCorr q / 2 ^ h.refineK), sign := decide (q < 0), zero := decide (q = 0) }

-- ## Writing (R98, R99; the encoder of R76)

def writeEg (k u : Nat) : List Bool :=
  let w := u + 2 ^ k
  let n := Nat.log2 w
  List.replicate (n - k) false ++ bitsOfNat (n + 1) w

def egOfSe (s : Int) : Nat := if 0 < s then (2 * s - 1).toNat else (-2 * s).toNat

def writeSe (k : Nat) (s : Int) : List Bool := writeEg k (egOfSe s)

def writeRiceFixed (v1 : Bool) (k v : Nat) : List Bool :=
  if v / 2 ^ k < escOnes v1 then List.replicate (v / 2 ^ k) true ++ [false] ++ bitsOfNat k v
  else List.replicate (escOnes v1) true ++ bitsOfNat (escBits v1) v

/-- The mode codes of version 2 (R90); the encoder writes version 2 only (R3). -/
def writeMode (key : Bool) (m : BlockMode) : List Bool :=
  if key then
    match m with
    | .intraDcSkip => [false]
    | .intra => [true, false]
    | .bedrock => [true, true, false]
    | .pcm => [true, true, true]
    | .hold => []
    | .inter => []
  else
    match m with
    | .hold => [false]
    | .inter => [true, false]
    | .intra => [true, true, false]
    | .bedrock => [true, true, true, false]
    | .pcm => [true, true, true, true, false]
    | .intraDcSkip => [true, true, true, true, true]

def writeLevel (ix : Nat) (l : Int) (cs : List RiceCtx) : List Bool × List RiceCtx :=
  let c := cs.getD ix {}
  let v := l.natAbs - 1
  (writeRiceFixed false (riceK c) v ++ [decide (l < 0)], cs.set ix (c.update false v))

def writeLevels (cat c p : Nat) (ls : List Int) (cs : List RiceCtx) : List Bool × List RiceCtx :=
  match ls with
  | [] => ([], cs)
  | l :: r =>
    let x := if l = 0 then ([], cs) else writeLevel (riceIndex false cat c p) l cs
    let y := writeLevels cat c (p + 1) r x.2
    (x.1 ++ y.1, y.2)

/-- The groups of a unit from group `g` on, each of four levels. -/
def writeGroups (cat c g : Nat) (gs : List (List Int)) (cs : List RiceCtx) : List Bool × List RiceCtx :=
  match gs with
  | [] => ([], cs)
  | x :: r =>
    let sig := x.map (fun l => decide (l ≠ 0))
    let on := sig.any id
    let h := if r.isEmpty then [] else [on]
    let b := if on ∨ r.isEmpty then
        let s3 := sig.take 3
        let w := writeLevels cat c (4 * g) x cs
        (s3 ++ (if s3.any id then sig.drop 3 else []) ++ w.1, w.2)
      else ([], cs)
    let y := writeGroups cat c (g + 1) r b.2
    (h ++ b.1 ++ y.1, y.2)

/-- Four at a time, at most `n` groups. -/
def fours (n : Nat) (ls : List Int) : List (List Int) :=
  match n with
  | 0 => []
  | k + 1 => ls.take 4 :: fours k (ls.drop 4)

def writeUnits (cat c tsize : Nat) (us : List (List Int)) (cs : List RiceCtx) : List Bool × List RiceCtx :=
  match us with
  | [] => ([], cs)
  | u :: r =>
    let cbf := if tsize = 2 then [] else [decide (u ≠ [])]
    let x := if u = [] then ([], cs) else
      let gs := fours (u.length / 4) u
      let w := writeGroups cat c 0 gs cs
      (bitsOfNat (lastBits tsize) (gs.length - 1) ++ w.1, w.2)
    let y := writeUnits cat c tsize r x.2
    (cbf ++ x.1 ++ y.1, y.2)

def writeComps (cat tsize c : Nat) (ls : List (List (List Int))) (cs : List RiceCtx) : List Bool × List RiceCtx :=
  match ls with
  | [] => ([], cs)
  | l :: r =>
    let x := writeUnits cat c tsize l cs
    let y := writeComps cat tsize (c + 1) r x.2
    (x.1 ++ y.1, y.2)

def writeResidual (cat : Nat) (b : BlockElems) (cs : List RiceCtx) : List Bool × List RiceCtx :=
  let x := writeComps cat b.tsize 0 b.levels cs
  (bitsOfNat 2 b.tsize ++ b.levels.map (fun l => decide (l ≠ [])) ++ x.1, x.2)

def writeRefinement (k : Nat) (corr : List (List (List Int))) : List Bool :=
  if corr = [] then [false]
  else true :: corr.flatMap (fun c => c.flatMap (fun g =>
    if g = [] then [false] else true :: g.flatMap (fun q => writeRiceFixed false k (egOfCorr q))))

def writeTail (h : SliceHdr) (cat : Nat) (b : BlockElems) (cs : List RiceCtx) : List Bool × List RiceCtx :=
  let r := writeResidual cat b cs
  (r.1 ++ (if h.refine then writeRefinement h.refineK b.corr else []), r.2)

/-- One block as the encoder writes it (R90 to R95). -/
def writeBlock (x : BlockCtx) (h : SliceHdr) (b : BlockElems) (cs : List RiceCtx) : List Bool × List RiceCtx :=
  let m := writeMode h.key b.mode
  match b.mode with
  | .hold => (m, cs)
  | .intraDcSkip => (m, cs)
  | .intra => let t := writeTail h 0 b cs; (m ++ bitsOfNat 4 b.intraMode ++ t.1, t.2)
  | .inter =>
    let t := writeTail h 1 b cs
    (m ++ [b.bi] ++ bitsOfNat 2 b.ref0 ++ (if b.bi then bitsOfNat 2 b.ref1 else []) ++
      writeSe 1 b.mvd0.1 ++ writeSe 1 b.mvd0.2 ++
      (if b.bi then writeSe 1 b.mvd1.1 ++ writeSe 1 b.mvd1.2 else []) ++ t.1, t.2)
  | .bedrock => let t := writeTail h 1 b cs; (m ++ bitsOfNat 1 b.bslot ++ t.1, t.2)
  | .pcm =>
    (m ++ (List.range 3).flatMap (fun c => (b.pcm.getD c []).flatMap (fun v => bitsOfNat (pcmBits x c) (unsigned (pcmBits x c) v))), cs)

-- ## Markers and stuffing (R68, R69)

def isMarkerCode (b : Byte) : Bool := decide (0xA0 ≤ b.toNat) && decide (b.toNat ≤ 0xAF)

/-- What ends a run of stuffed bytes: the bytes received so far, a marker, or a pair that is neither data nor marker. -/
inductive RunEnd where
  | open_
  | marker (code : Nat)
  | bad
deriving DecidableEq, Repr

/-- The data bytes of a stuffed region up to `n` of them, the end met within them, and the bytes that follow (a marker's two bytes are among them). A last 0xFF is not yet available (R71). -/
def unstuff (n : Nat) (bs : List Byte) : List Byte × RunEnd × List Byte :=
  match n, bs with
  | 0, r => ([], .open_, r)
  | _ + 1, [] => ([], .open_, [])
  | k + 1, b :: r =>
    if b = 0xFF#8 then
      match r with
      | [] => ([], .open_, b :: r)
      | c :: r' =>
        if c = 0#8 then let x := unstuff k r'; (b :: x.1, x.2.1, x.2.2)
        else if isMarkerCode c then ([], .marker c.toNat, b :: r)
        else ([], .bad, b :: r)
    else let x := unstuff k r; (b :: x.1, x.2.1, x.2.2)

/-- R69: the encoder writes 0x00 after every 0xFF data byte. -/
def stuff (bs : List Byte) : List Byte := bs.flatMap (fun b => if b = 0xFF#8 then [b, 0] else [b])

/-- A segment: marker, code and stuffed bytes. -/
def segment (code : Nat) (bs : List Byte) : List Byte := [0xFF, BitVec.ofNat 8 code] ++ stuff bs

-- ## Header segments (R78 to R85, R101)

/-- `w` bits of a segment from bit `o` on. -/
def segField (bs : List Bool) (o w : Nat) : Nat := natOfBits ((bs.drop o).take w)

/-- LENGTH of each header segment. -/
def streamLen (v1 : Bool) : Nat := if v1 then 20 else 22
def picLen (v1 : Bool) : Nat := if v1 then 14 else 20
def sliceLen (v1 : Bool) : Nat := if v1 then 8 else 10

def crcOk (bs : List Byte) (n : Nat) : Bool := decide (beAt bs n 4 = crc32 (bs.take n))

/-- The stream header that the bytes from LENGTH on hold; none where a value is out of range or the CRC differs. -/
def parseStream (bs : List Byte) : Option StreamHdr :=
  let x := bitsOfBytes bs
  let f := segField x
  let v := f 16 8
  let v1 := decide (v = 1)
  let h : StreamHdr := { version := v, depthM8 := f 24 4, colour := f 28 2, refineAllowed := decide (f 30 1 = 1), wall := f 32 8, tile := f 40 16, w16 := f 56 8, h16 := f 64 8, cropR := f 72 4, cropB := f 76 4, sliceRowsM1 := f 80 4, maxShort := f 84 3, bedrockSlots := f 87 2, rateNum := f 96 16, rateDen := f 112 16, serial := if v1 then 0 else f 128 16 }
  let common := f 31 1 = 0 ∧ h.tile ≤ 65534 ∧ 4 ≤ h.w16 ∧ h.w16 ≤ 128 ∧ 1 ≤ h.h16 ∧ h.h16 ≤ 128 ∧ f 89 7 = 0 ∧ 1 ≤ h.rateNum ∧ 1 ≤ h.rateDen
  let own := if v1 then f 0 16 = 20 ∧ h.refineAllowed = false ∧ h.bedrockSlots = 0 ∧ h.depthM8 ≤ 4 ∧ h.colour = 0 ∧ h.maxShort ≤ 2
    else v = 2 ∧ f 0 16 = 22 ∧ h.depthM8 ≤ 8 ∧ h.colour ≤ 1 ∧ h.maxShort ≤ 4 ∧ h.bedrockSlots ≤ 2
  if common ∧ own ∧ crcOk bs (streamLen v1 - 4) = true then some h else none

/-- The stream header of version 2 as the encoder writes it. -/
def buildStream (h : StreamHdr) : List Byte :=
  let b := bytesOfBits (bitsOfNat 16 22 ++ bitsOfNat 8 2 ++ bitsOfNat 4 h.depthM8 ++ bitsOfNat 2 h.colour ++ [h.refineAllowed, false] ++ bitsOfNat 8 h.wall ++ bitsOfNat 16 h.tile ++ bitsOfNat 8 h.w16 ++ bitsOfNat 8 h.h16 ++ bitsOfNat 4 h.cropR ++ bitsOfNat 4 h.cropB ++ bitsOfNat 4 h.sliceRowsM1 ++ bitsOfNat 3 h.maxShort ++ bitsOfNat 2 h.bedrockSlots ++ bitsOfNat 7 0 ++ bitsOfNat 16 h.rateNum ++ bitsOfNat 16 h.rateDen ++ bitsOfNat 16 h.serial)
  b ++ beBytes 4 (crc32 b)

/-- The slots below `n` that are clear in `valid` hold zero in `vs`. -/
def clearZero (valid : Nat) (vs : List Nat) : Bool := (List.range vs.length).all (fun i => valid.testBit i || decide (vs.getD i 0 = 0))

/-- The picture header (R79, R80) under stream header `s`. -/
def parsePicture (s : StreamHdr) (bs : List Byte) : Option PicHdr :=
  let v1 := decide (s.version = 1)
  let f := segField (bitsOfBytes bs)
  let rv := natOfBits (((bitsOfBytes bs).drop 36).take 4)
  let h : PicHdr := { picture := f 16 16, key := decide (f 32 1 = 1), storeSlot := f 33 3, refValid := rv, bedrockValid := f 40 2, refPic := if v1 then [f 48 16, f 64 16, 0, 0] else [f 48 16, f 64 16, f 80 16, f 96 16], bedrockGen := if v1 then [0, 0] else [f 112 8, f 120 8] }
  let ok := f 0 16 = picLen v1 ∧ f 42 6 = 0 ∧ (h.storeSlot = 7 ∨ (h.storeSlot ≤ 3 ∧ h.storeSlot < s.maxShort)) ∧ h.refValid < 2 ^ s.maxShort ∧ h.bedrockValid < 2 ^ s.bedrockSlots ∧ clearZero h.refValid h.refPic = true ∧ clearZero h.bedrockValid h.bedrockGen = true
  if ok ∧ crcOk bs (picLen v1 - 4) = true then some h else none

def buildPicture (h : PicHdr) : List Byte :=
  let b := bytesOfBits (bitsOfNat 16 20 ++ bitsOfNat 16 h.picture ++ [h.key] ++ bitsOfNat 3 h.storeSlot ++ bitsOfNat 4 h.refValid ++ bitsOfNat 2 h.bedrockValid ++ bitsOfNat 6 0 ++ (List.range 4).flatMap (fun i => bitsOfNat 16 (h.refPic.getD i 0)) ++ (List.range 2).flatMap (fun i => bitsOfNat 8 (h.bedrockGen.getD i 0)))
  b ++ beBytes 4 (crc32 b)

/-- The slice header (R81): none where a field is out of range or a reserved bit is set (HEADER of R168). -/
def parseSlice (v1 : Bool) (bs : List Byte) : Option SliceHdr :=
  let f := segField (bitsOfBytes bs)
  let h : SliceHdr := { picture := f 16 16, slice := f 32 8, firstRow := f 40 8, rowsM1 := f 48 4, key := decide (f 52 1 = 1), dqp := decide (f 53 1 = 1), refine := decide (f 54 1 = 1), qpInit := f 56 7, e := if v1 then 0 else f 64 8, refineK := if v1 then 0 else f 72 4 }
  if f 0 16 = sliceLen v1 ∧ (v1 = false ∨ h.refine = false) ∧ f 55 1 = 0 ∧ f 63 1 = 0 ∧ (v1 = true ∨ f 76 4 = 0) ∧ h.slice ≤ 127 ∧ h.firstRow ≤ 127 then some h else none

/-- The slice header agrees with the stream header and with KEY of its picture (ORDER of R168). -/
def sliceOrderOk (s : StreamHdr) (picKey : Bool) (h : SliceHdr) : Bool :=
  decide (h.firstRow = h.slice * (s.sliceRowsM1 + 1)) && decide (h.firstRow < s.h16) && decide (h.rowsM1 + 1 = min (s.sliceRowsM1 + 1) (s.h16 - h.firstRow)) &&
    (!h.refine || s.refineAllowed) && (!picKey || h.key)

def buildSlice (h : SliceHdr) : List Byte :=
  bytesOfBits (bitsOfNat 16 10 ++ bitsOfNat 16 h.picture ++ bitsOfNat 8 h.slice ++ bitsOfNat 8 h.firstRow ++ bitsOfNat 4 h.rowsM1 ++ [h.key, h.dqp, h.refine, false] ++ bitsOfNat 7 h.qpInit ++ [false] ++ bitsOfNat 8 h.e ++ bitsOfNat 4 h.refineK ++ bitsOfNat 4 0)

/-- The bedrock update header (R85) under stream header `s`. -/
def parseBedrock (s : StreamHdr) (bs : List Byte) : Option SliceHdr :=
  let f := segField (bitsOfBytes bs)
  let d : BedHdr := { slot := f 16 8, last := decide (f 24 1 = 1), gen := f 32 8, crc := f 80 64 }
  let h : SliceHdr := { key := true, dqp := decide (f 25 1 = 1), refine := decide (f 26 1 = 1), firstRow := f 40 8, rowsM1 := f 48 4, qpInit := f 56 7, e := f 64 8, refineK := f 72 4, bed := some d }
  let ok := s.version = 2 ∧ f 0 16 = 18 ∧ d.slot < s.bedrockSlots ∧ f 27 5 = 0 ∧ f 52 4 = 0 ∧ f 63 1 = 0 ∧ f 76 4 = 0 ∧ h.firstRow ≤ 127 ∧ h.firstRow + h.rowsM1 + 1 ≤ s.h16 ∧ d.last = decide (h.firstRow + h.rowsM1 + 1 = s.h16) ∧ (d.last = false → d.crc = 0) ∧ (h.refine = true → s.refineAllowed = true)
  if ok then some h else none

def buildBedrock (h : SliceHdr) (d : BedHdr) : List Byte :=
  bytesOfBits (bitsOfNat 16 18 ++ bitsOfNat 8 d.slot ++ [d.last, h.dqp, h.refine] ++ bitsOfNat 5 0 ++ bitsOfNat 8 d.gen ++ bitsOfNat 8 h.firstRow ++ bitsOfNat 4 h.rowsM1 ++ bitsOfNat 4 0 ++ bitsOfNat 7 h.qpInit ++ [false] ++ bitsOfNat 8 h.e ++ bitsOfNat 4 h.refineK ++ bitsOfNat 4 0 ++ bitsOfNat 64 d.crc)

/-- The slice trailer (R82); `body`: the unstuffed bytes that its CRC covers. None where a check of its own fails (R84). DESIGN CHOICE (log entry 92): a LENGTH other than 10 and a reserved bit of 1 fail like BLOCKS and the CRC, so they count in TRAILER; R168 names no counter for them. Safe: the slice is concealed whole. -/
def parseTrailer (v1 : Bool) (h : SliceHdr) (w16 decoded : Nat) (body bs : List Byte) : Option Trailer :=
  let f := segField (bitsOfBytes bs)
  let t : Trailer := { void := v1 || decide (f 16 1 = 1), fallback := decide (f 17 1 = 1), blocks := f 32 16, crc := f 48 32 }
  let ok := f 0 16 = 10 ∧ f 18 14 = 0 ∧ t.blocks = decoded ∧ decoded = (h.rowsM1 + 1) * w16 ∧ t.crc = crc32 body ∧ (v1 = true → f 16 2 = 0)
  if ok then some t else none

def buildTrailer (t : Trailer) : List Byte :=
  bytesOfBits (bitsOfNat 16 10 ++ [t.void, t.fallback] ++ bitsOfNat 14 0 ++ bitsOfNat 16 t.blocks ++ bitsOfNat 32 t.crc)

end Sys2Proof.Machine
end

