-- ==== Sys2Proof/Machine/Recon.lean ====
section
/-! DEFINITION. Reconstruction arithmetic: prediction, dequantisation, inverse transform, refinement and colour, exact on integers. -/

namespace Sys2Proof.Machine

/-- A reference picture or generation of a tile: the sample of component c at column x and line y. -/
abbrev RefFn := Nat → Nat → Nat → Int

/-- lo of R102. -/
def compLo (depth colour c : Nat) : Int := if colour = 1 ∧ c ≠ 0 then -((2 : Int) ^ depth - 1) else 0

/-- hi of R102. -/
def compHi (depth _colour _c : Nat) : Int := (2 : Int) ^ depth - 1

/-- The default value of R102. -/
def compDefault (depth colour c : Nat) : Int := if colour = 1 ∧ c ≠ 0 then 0 else (2 : Int) ^ (depth - 1)

def compClip (depth colour c : Nat) (v : Int) : Int := clip v (compLo depth colour c) (compHi depth colour c)

/-- forward of R104: RGB to YCoCg-R. -/
def colourForward (r g b : Int) : Int × Int × Int :=
  let co := r - b
  let t := b + asr co 1
  let cg := g - t
  (t + asr cg 1, co, cg)

/-- inverse of R104: YCoCg-R to RGB, clipped to the bit depth. -/
def colourInverse (depth : Nat) (y co cg : Int) : Int × Int × Int :=
  let hi := (2 : Int) ^ depth - 1
  let t := y - asr cg 1
  let g := cg + t
  let b := t - asr co 1
  let r := b + co
  (clip r 0 hi, clip g 0 hi, clip b 0 hi)

-- ## Neighbours (R109, R110)

/-- Sample k of a line that starts at index −1. -/
def lineAt (l : List Int) (k : Int) : Int := l.getD (k + 1).toNat 0

/-- Sample (x, y) of component `c` of a block. -/
def BlockOut.at (b : BlockOut) (c x y : Nat) : Int := (b.samples.getD c []).getD (16 * y + x) 0

/-- The blocks of a slice reconstructed so far, in raster order from the first row on; the block at (r, c). -/
def sliceBlock (done : List BlockOut) (w16 firstRow r c : Nat) : BlockOut := done.getD ((r - firstRow) * w16 + c) {}

/-- The reference arrays top[−1 to 32] and left[−1 to 15] of component `c` for the block at (row, col), with the substitutions of R110. -/
def neighbours (depth colour w16 firstRow : Nat) (done : List BlockOut) (row col c : Nat) : List Int × List Int :=
  let hasAbove := decide (firstRow < row)
  let hasLeft := decide (0 < col)
  let hasRight := hasAbove && decide (col + 1 < w16)
  let above := sliceBlock done w16 firstRow (row - 1) col
  let right := sliceBlock done w16 firstRow (row - 1) (col + 1)
  let left := sliceBlock done w16 firstRow row (col - 1)
  let corner := sliceBlock done w16 firstRow (row - 1) (col - 1)
  let t16 := (List.range 16).map (fun x => above.at c x 15)
  let l16 := (List.range 16).map (fun y => left.at c 15 y)
  if !hasAbove && !hasLeft then
    let d := compDefault depth colour c
    (List.replicate 34 d, List.replicate 17 d)
  else if !hasAbove then
    let d := l16.getD 0 0
    (List.replicate 34 d, d :: l16)
  else
    let r16 := if hasRight then (List.range 16).map (fun x => right.at c x 15) else List.replicate 16 (t16.getD 15 0)
    let t32 := t16 ++ r16
    let t33 := t32 ++ [t32.getD 31 0]
    if hasLeft then let k := corner.at c 15 15; (k :: t33, k :: l16)
    else let k := t16.getD 0 0; (k :: t33, List.replicate 17 k)

-- ## Intra prediction (R111, R112)

/-- The 256 positions of a block in raster order, as (x, y). -/
def blockPositions : List (Nat × Nat) := (List.range 16).flatMap (fun y => (List.range 16).map (fun x => (x, y)))

def sumInt (l : List Int) : Int := l.foldl (· + ·) 0

def predDc (top left : List Int) : List Int :=
  let s := sumInt ((List.range 16).map (fun i => lineAt top i)) + sumInt ((List.range 16).map (fun i => lineAt left i))
  List.replicate 256 (asr (s + 16) 5)

def predPlane (lo hi : Int) (top left : List Int) : List Int :=
  let grad := fun (l : List Int) => sumInt ((List.range 8).map (fun j => ((j : Int) + 1) * (lineAt l (8 + j) - lineAt l (6 - j))))
  let b := asr (5 * grad top + 32) 6
  let c := asr (5 * grad left + 32) 6
  let a := 16 * (lineAt left 15 + lineAt top 15)
  blockPositions.map (fun p => clip (asr (a + b * ((p.1 : Int) - 7) + c * ((p.2 : Int) - 7) + 16) 5) lo hi)

/-- Class (vertical), displacement and inv of an angular mode (R112). -/
def angularParams (mode : Nat) : Bool × Int × Int :=
  match mode with
  | 2 => (true, 0, 0)
  | 3 => (true, 11, 0)
  | 4 => (true, 32, 0)
  | 5 => (true, -11, 745)
  | 6 => (true, -21, 390)
  | 7 => (true, -32, 256)
  | 8 => (false, -21, 390)
  | 9 => (false, -11, 745)
  | _ => (false, 0, 0)

def predAngular (mode : Nat) (top left : List Int) : List Int :=
  let (vert, d, inv) := angularParams mode
  let main := if vert then top else left
  let side := if vert then left else top
  let ref := fun (k : Int) =>
    if d < 0 ∧ k ≤ -2 then lineAt side (clip (asr ((-1 - k) * inv + 128) 8 - 1) (-1) 15) else lineAt main k
  blockPositions.map (fun p =>
    let along : Int := if vert then p.1 else p.2
    let across : Int := if vert then p.2 else p.1
    let pos := (across + 1) * d
    let i := asr pos 5
    let f := pos - i * 32
    asr ((32 - f) * ref (along + i) + f * ref (along + i + 1) + 16) 5)

def predIntra (depth colour c mode : Nat) (nb : List Int × List Int) : List Int :=
  match mode with
  | 0 => predDc nb.1 nb.2
  | 1 => predPlane (compLo depth colour c) (compHi depth colour c) nb.1 nb.2
  | m => predAngular m nb.1 nb.2

-- ## Inter prediction (R113 to R116)

/-- s(u, v) of R113: positions outside the coded tile repeat its edge samples. -/
def refAt (w16 h16 : Nat) (ref : RefFn) (c : Nat) (u v : Int) : Int :=
  ref c (clip u 0 (16 * (w16 : Int) - 1)).toNat (clip v 0 (16 * (h16 : Int) - 1)).toNat

/-- The taps of R114 at offsets −2 to 3. -/
def taps : List (Int × Int) := [(-2, 2), (-1, -9), (0, 39), (1, 39), (2, -9), (3, 2)]

/-- The prediction at integer position (X, Y) and fraction (fx, fy) (R114, R115). -/
def quarterSample (lo hi : Int) (s : Int → Int → Int) (X Y : Int) (fx fy : Nat) : Int :=
  let hraw := fun (u v : Int) => sumInt (taps.map (fun t => t.2 * s (u + t.1) v))
  let b := fun (u v : Int) => clip (asr (hraw u v + 32) 6) lo hi
  let h := fun (u v : Int) => clip (asr (sumInt (taps.map (fun t => t.2 * s u (v + t.1))) + 32) 6) lo hi
  let j := fun (u v : Int) => clip (asr (sumInt (taps.map (fun t => t.2 * hraw u (v + t.1))) + 2048) 12) lo hi
  let avg := fun (p q : Int) => asr (p + q + 1) 1
  match fx, fy with
  | 0, 0 => s X Y
  | 0, 1 => avg (s X Y) (h X Y)
  | 0, 2 => h X Y
  | 0, _ => avg (h X Y) (s X (Y + 1))
  | 1, 0 => avg (s X Y) (b X Y)
  | 1, 1 => avg (s X Y) (j X Y)
  | 1, 2 => avg (h X Y) (j X Y)
  | 1, _ => avg (s X (Y + 1)) (j X Y)
  | 2, 0 => b X Y
  | 2, 1 => avg (b X Y) (j X Y)
  | 2, 2 => j X Y
  | 2, _ => avg (j X Y) (b X (Y + 1))
  | _, 0 => avg (b X Y) (s (X + 1) Y)
  | _, 1 => avg (s (X + 1) Y) (j X Y)
  | _, 2 => avg (j X Y) (h (X + 1) Y)
  | _, _ => avg (s (X + 1) (Y + 1)) (j X Y)

/-- The prediction of one reference (R113). -/
def predOne (depth colour w16 h16 row col c : Nat) (ref : RefFn) (mv : Int × Int) : List Int :=
  let s := refAt w16 h16 ref c
  blockPositions.map (fun p =>
    quarterSample (compLo depth colour c) (compHi depth colour c) s
      (16 * col + p.1 + asr mv.1 2) (16 * row + p.2 + asr mv.2 2) (mv.1 % 4).toNat (mv.2 % 4).toNat)

/-- The co-located copy of R117. -/
def predCopy (row col c : Nat) (ref : RefFn) : List Int :=
  blockPositions.map (fun p => ref c (16 * col + p.1) (16 * row + p.2))

-- ## Dequantisation and inverse transform (R118 to R120)

def qscale (k : Nat) : Int := [64, 70, 76, 83, 91, 99, 108, 117].getD k 0

/-- D of R118, and whether its clip acted. -/
def dequant (q : Nat) (l : Int) : Int × Bool :=
  let x := l * qscale (q % 8) * 2 ^ (q / 8)
  let d := clip x (-(2 ^ 27)) (2 ^ 27 - 1)
  (d, decide (d ≠ x))

/-- r_N and c_N of R119. -/
def basisRow (n : Nat) : Int := if n = 4 then 45 else if n = 8 then 32 else 23

def basisMag (n k : Nat) : Int :=
  if n = 4 then [0, 59, 45, 24].getD k 0
  else if n = 8 then [0, 44, 42, 37, 32, 25, 17, 9].getD k 0
  else [0, 32, 31, 30, 29, 28, 26, 25, 23, 20, 18, 15, 12, 9, 6, 3].getD k 0

/-- t(n_pts, m, n) of R119. -/
def basis (n m j : Nat) : Int :=
  if m = 0 then basisRow n
  else
    let k := (m * (2 * j + 1)) % (4 * n)
    let k := if 2 * n < k then 4 * n - k else k
    if k < n then basisMag n k else -basisMag n (2 * n - k)

/-- Clips that acted in one of two parts. -/
def Clips.or (a b : Clips) : Clips := { deq := a.deq || b.deq, stage1 := a.stage1 || b.stage1, stage2 := a.stage2 || b.stage2, recon := a.recon || b.recon }

def Clips.all (l : List Clips) : Clips := l.foldl Clips.or {}

/-- A clip of R118 or R120 acted (R121). -/
def Clips.transform (c : Clips) : Bool := c.deq || c.stage1 || c.stage2

/-- The residual of a unit from its coefficients in raster order (R120), and whether the clip of each stage acted. -/
def inverseTransform (n : Nat) (d : List Int) : List Int × Bool × Bool :=
  let at2 := fun (l : List Int) (r c : Nat) => l.getD (r * n + c) 0
  let pos := (List.range n).flatMap (fun y => (List.range n).map (fun x => (x, y)))
  let raw1 := pos.map (fun p => asr (sumInt ((List.range n).map (fun v => basis n v p.2 * at2 d v p.1)) + 64) 7)
  let e := raw1.map (fun x => clip x (-(2 ^ 23)) (2 ^ 23 - 1))
  let raw2 := pos.map (fun p => asr (sumInt ((List.range n).map (fun u => basis n u p.1 * at2 e p.2 u)) + 2048) 12)
  let r := raw2.map (fun x => clip x (-(2 ^ 19)) (2 ^ 19 - 1))
  (r, decide (e ≠ raw1), decide (r ≠ raw2))

/-- The coefficients of a unit in raster order from its levels in scan order (R93, R94). -/
def coefficients (n q : Nat) (levels : List Int) (scanOrder : List (Nat × Nat)) : List Int × Bool :=
  let ds := levels.map (dequant q)
  let pos := (List.range n).flatMap (fun y => (List.range n).map (fun x => (x, y)))
  (pos.map (fun p => ((scanOrder.zip ds).find? (fun e => e.1 = p)).elim 0 (fun e => e.2.1)), ds.any (·.2))

/-- The residual of one component of a block, in raster order of the block, and the clips that acted (R118, R120). -/
def residual (n q : Nat) (units : List (List Int)) (scanOrder : List (Nat × Nat)) : List Int × Clips :=
  if units = [] then (List.replicate 256 0, {})
  else
    let rs : List (List Int × Clips) := units.map (fun ls =>
      if ls = [] then (List.replicate (n * n) 0, {})
      else
        let d := coefficients n q ls scanOrder
        let r := inverseTransform n d.1
        (r.1, { deq := d.2, stage1 := r.2.1, stage2 := r.2.2 }))
    let w := 16 / n
    (blockPositions.map (fun p => ((rs.getD (p.2 / n * w + p.1 / n) ([], {})).1).getD (p.2 % n * n + p.1 % n) 0), Clips.all (rs.map (·.2)))

/-- R123: the correction of a sample of component `c`. -/
def correction (corr : List (List (List Int))) (c x y : Nat) : Int :=
  ((corr.getD c []).getD (y / 4 * 4 + x / 4) []).getD (y % 4 * 4 + x % 4) 0

-- ## A block (R107)

/-- What the reconstruction of a block reads besides its slice: short-term slots, the previous displayed picture and bedrock slots (R108, R117). -/
structure RefSet where
  short : Nat → RefFn
  hold : RefFn
  bedrock : Nat → RefFn

/-- mv_pred of R100 for list position `j`. -/
def mvPred (done : List BlockOut) (w16 firstRow row col : Nat) (second : Bool) : Int × Int :=
  let cand := fun (r : Nat) (c : Int) =>
    if c < 0 ∨ (w16 : Int) ≤ c then (0, 0)
    else
      let b := sliceBlock done w16 firstRow r c.toNat
      if !b.inter then (0, 0)
      else match second, b.mv1 with
        | true, some v => v
        | _, _ => b.mv0
  let left := cand row ((col : Int) - 1)
  if row = firstRow then left
  else
    let above := cand (row - 1) col
    let aright := cand (row - 1) ((col : Int) + 1)
    (median3 left.1 above.1 aright.1, median3 left.2 above.2 aright.2)

/-- Prediction plus residual plus refinement (R122, R123) of one component. -/
def finish (depth colour c : Nat) (b : BlockElems) (q e : Nat) (refine : Bool) (pred : List Int) (scanOrder : List (Nat × Nat)) : List Int × Clips :=
  let r := residual (4 * 2 ^ b.tsize) q (b.levels.getD c []) scanOrder
  let sum := (pred.zip r.1).map (fun p => p.1 + p.2)
  let recon := sum.map (compClip depth colour c)
  let final := if refine then
      (blockPositions.zip recon).map (fun p => compClip depth colour c (p.2 + correction b.corr c p.1.1 p.1.2 * (2 * e + 1)))
    else recon
  (final, { r.2 with recon := decide (recon ≠ sum) })

/-- A block of a slice, reconstructed (R107), and the clips that acted. `scanOrder`: the scan of R94 for the block's unit size. -/
def reconBlock (x : BlockCtx) (h : SliceHdr) (refs : RefSet) (done : List BlockOut) (row col q : Nat) (scanOrder : List (Nat × Nat)) (b : BlockElems) : BlockOut × Clips :=
  let d := x.depth
  let cl := x.colour
  let build := fun (pred : Nat → List Int) =>
    let f := (List.range 3).map (fun c => finish d cl c b q h.e h.refine (pred c) scanOrder)
    (f.map (·.1), Clips.all (f.map (·.2)))
  let nb := fun c => neighbours d cl x.w16 h.firstRow done row col c
  match b.mode with
  | .hold => ({ samples := (List.range 3).map (fun c => predCopy row col c refs.hold) }, {})
  | .intraDcSkip => ({ samples := (List.range 3).map (fun c => predIntra d cl c 0 (nb c)) }, {})
  | .pcm => ({ samples := (List.range 3).map (fun c => (b.pcm.getD c []).map (compClip d cl c)) }, {})
  | .intra => let r := build (fun c => predIntra d cl c b.intraMode (nb c)); ({ samples := r.1 }, r.2)
  | .bedrock => let r := build (fun c => predCopy row col c (refs.bedrock b.bslot)); ({ samples := r.1 }, r.2)
  | .inter =>
    let p0 := mvPred done x.w16 h.firstRow row col false
    let p1 := mvPred done x.w16 h.firstRow row col true
    let mv0 := (p0.1 + b.mvd0.1, p0.2 + b.mvd0.2)
    let mv1 := (p1.1 + b.mvd1.1, p1.2 + b.mvd1.2)
    let pred := fun c =>
      let a := predOne d cl x.w16 x.h16 row col c (refs.short b.ref0) mv0
      if b.bi then (a.zip (predOne d cl x.w16 x.h16 row col c (refs.short b.ref1) mv1)).map (fun p => asr (p.1 + p.2 + 1) 1)
      else a
    let r := build pred
    ({ samples := r.1, inter := true, mv0 := mv0, mv1 := if b.bi then some mv1 else none }, r.2)

/-- The correction of R124. -/
def encoderCorrection (e : Nat) (src recon : Int) : Int :=
  let dd := src - recon
  if 0 ≤ dd then tdiv (dd + e) (2 * e + 1) else -(tdiv (-dd + e) (2 * e + 1))

end Sys2Proof.Machine
end

