-- ==== Sys2Proof/Machine/Stored.lean ====
section
/-! DEFINITION. The Stockpile: stored block format (R160 to R162), descriptors, their storage and marks (R154 to R159), and the pictures that a slice reads. -/

namespace Sys2Proof.Machine

-- ## Stored blocks (R160 to R162)

/-- Width W of component `c` in storage. -/
def storeWidth (depth colour c : Nat) : Nat := if colour = 1 ∧ c ≠ 0 then depth + 1 else depth

/-- RU: the raw size of a block in 64-byte units. -/
def rawUnits (depth colour : Nat) : Nat := ceilDiv (256 * (storeWidth depth colour 0 + storeWidth depth colour 1 + storeWidth depth colour 2)) 512

/-- Size of the block index of a tile. -/
def indexBytes (blocks : Nat) : Nat := ceilDiv (2 * blocks) 64 * 64

/-- Bytes of a tile's storage, in raw form. -/
def tileBytes (depth colour blocks : Nat) : Nat := indexBytes blocks + blocks * rawUnits depth colour * 64

/-- Bytes filled up with zeros to a multiple of 64. -/
def pad64 (bs : List Byte) : List Byte := bs ++ List.replicate ((64 - bs.length % 64) % 64) 0

/-- A sample as stored. -/
def sampleBits (w : Nat) (v : Int) : List Bool := bitsOfNat w (unsigned w v)

/-- A sample as read: components 1 and 2 of YCoCg-R are two's complement. -/
def sampleOf (colour c w v : Nat) : Int := if colour = 1 ∧ c ≠ 0 then signed w v else v

/-- Raw form (R161). -/
def rawBlock (depth colour : Nat) (b : List (List Int)) : List Byte :=
  pad64 (bytesOfBits ((List.range 3).flatMap (fun c => (b.getD c []).flatMap (sampleBits (storeWidth depth colour c)))))

/-- The sample that predicts position `i` of a component in packed form. -/
def packPred (s : List Int) (i : Nat) : Int := if i % 16 = 0 then s.getD (i - 16) 0 else s.getD (i - 1) 0

def packCode (w k : Nat) (d : Int) : List Bool :=
  let u := if 0 ≤ d then (2 * d).toNat else (-2 * d - 1).toNat
  let p := u / 2 ^ k
  if p < 24 then List.replicate p true ++ [false] ++ bitsOfNat k (u % 2 ^ k) else List.replicate 24 true ++ bitsOfNat (w + 1) u

/-- pack_component of R162. -/
def packComponent (w k : Nat) (s : List Int) : List Bool :=
  bitsOfNat 4 k ++ sampleBits w (s.getD 0 0) ++ ((List.range 256).drop 1).flatMap (fun i => packCode w k (s.getD i 0 - packPred s i))

/-- The k with the fewest bits, the smaller on a tie. -/
def packBest (w : Nat) (s : List Int) : List Bool :=
  (List.range 16).foldl (fun best k => let b := packComponent w k s; if best = [] ∨ b.length < best.length then b else best) []

/-- Packed form (R162). -/
def packedBlock (depth colour : Nat) (b : List (List Int)) : List Byte :=
  pad64 (bytesOfBits ((List.range 3).flatMap (fun c => packBest (storeWidth depth colour c) (b.getD c []))))

/-- The stored bytes of a block and its index entry. -/
def storeBlock (pack : Bool) (depth colour : Nat) (concealed : Bool) (b : List (List Int)) : List Byte × Nat :=
  let ru := rawUnits depth colour
  let p := packedBlock depth colour b
  let mark := if concealed then 64 else 0
  if pack && decide (p.length / 64 < ru) then (p, p.length / 64 + mark) else (rawBlock depth colour b, ru + 32 + mark)

/-- `n` samples of `w` bits. -/
def readRaw (colour c w n : Nat) (bs : List Bool) : List Int :=
  (List.range n).map (fun i => sampleOf colour c w (natOfBits ((bs.drop (w * i)).take w)))

/-- Samples of a packed component after the first; `acc`: those read, last first. -/
def readPacked (w k n : Nat) (acc : List Int) (bs : List Bool) : List Int × List Bool :=
  match n with
  | 0 => (acc.reverse, bs)
  | m + 1 =>
    let ones := ((bs.take 24).takeWhile id).length
    let u := if ones = 24 then natOfBits ((bs.drop 24).take (w + 1)) else ones * 2 ^ k + natOfBits ((bs.drop (ones + 1)).take k)
    let rest := if ones = 24 then bs.drop (24 + w + 1) else bs.drop (ones + 1 + k)
    let p := if acc.length % 16 = 0 then acc.getD 15 0 else acc.getD 0 0
    let d : Int := if u % 2 = 0 then ((u / 2 : Nat) : Int) else -(((u + 1) / 2 : Nat) : Int)
    readPacked w k m ((p + d) :: acc) rest

def unpackComponent (colour c w : Nat) (bs : List Bool) : List Int × List Bool :=
  let k := natOfBits (bs.take 4)
  readPacked w k 255 [sampleOf colour c w (natOfBits ((bs.drop 4).take w))] (bs.drop (4 + w))

/-- The samples of a stored block by component. -/
def loadBlock (depth colour entry : Nat) (bytes : List Byte) : List (List Int) :=
  let bs := bitsOfBytes bytes
  if entry.testBit 5 then
    (List.range 3).map (fun c => readRaw colour c (storeWidth depth colour c) 256 (bs.drop (256 * ((List.range c).map (storeWidth depth colour)).sum)))
  else
    let a := unpackComponent colour 0 (storeWidth depth colour 0) bs
    let b := unpackComponent colour 1 (storeWidth depth colour 1) a.2
    let d := unpackComponent colour 2 (storeWidth depth colour 2) b.2
    [a.1, b.1, d.1]

-- ## A tile of a picture in DRAM

/-- Where block `k` of a tile lies, from the tile's place. -/
def blockAt (base depth colour blocks k : Nat) : Nat := base + indexBytes blocks + k * rawUnits depth colour * 64

/-- The index entry of block `k`, as requester `q` reads it. -/
def State.indexEntry (s : State) (q base k : Nat) : Nat := natOfLe (s.dramFor q (base + 2 * k) 2 true)

/-- Block `k` of the tile at `base`, as requester `q` reads it. -/
def State.loadOne (s : State) (q base depth colour blocks k : Nat) : List (List Int) :=
  loadBlock depth colour (s.indexEntry q base k) (s.dramFor q (blockAt base depth colour blocks k) (rawUnits depth colour * 64) true)

/-- A tile in DRAM as a reference of requester `q`. -/
def State.refFn (s : State) (q base depth colour w16 h16 : Nat) : RefFn := fun c x y =>
  ((s.loadOne q base depth colour (w16 * h16) (y / 16 * w16 + x / 16)).getD c []).getD (y % 16 * 16 + x % 16) 0

/-- A block packed: its raw and stored units, in the last 2^20 (R162). -/
def CodecState.notePacked (w : CodecState) (raw stored : Nat) : CodecState := { w with packed := ((raw, stored) :: w.packed).take (2 ^ 20) }

/-- The packer (requester 4) writes block `k`, with its index entry; the ratio of R162 follows (STK_PACK_RATIO). -/
def State.storeOne (s : State) (base depth colour blocks k : Nat) (b : BlockOut) : State :=
  let e := storeBlock (s.fb F.STK_CTRL_PACK_EN 0) depth colour b.concealed b.samples
  let s := (s.putFor 4 (blockAt base depth colour blocks k) e.1 true).putFor 4 (base + 2 * k) (leBytes 2 e.2) true
  let s := s.withCodec (fun w => w.notePacked (rawUnits depth colour) (e.1.length / 64))
  let raw := (s.codec.packed.map (·.1)).sum
  let stored := (s.codec.packed.map (·.2)).sum
  s.setF F.STK_PACK_RATIO_RATIO 0 (min 65535 (raw * 4096 / stored))

-- ## Descriptors (R154 to R159)

def allDescs : List Nat := List.range 512

/-- No descriptor. -/
def noDesc : Nat := 512

/-- The place of the tile of context `c` in the storage that begins at `base`. -/
def State.tileBase (s : State) (c base : Nat) : Nat := base + (Tab.get 0 (s.group (s.ctx c).group).places (s.ctx c).tile - 1)

/-- `STK_DESC_BASE` of descriptor `d`. -/
def State.showDescBase (s : State) (d base : Nat) : State :=
  (s.setF F.STK_DESC_BASE_LO_BASE d (base % 2 ^ 32)).setF F.STK_DESC_BASE_HI_BASE d (base / 2 ^ 32 % 256)

def State.setDescBase (s : State) (d base : Nat) : State := (s.setDesc d { s.desc d with base := base }).showDescBase d base

/-- A storage area: the addresses that firmware allocates are open. -/
def State.freeArea (s : State) (p : Nat) : Nat := Config.freeNat p s.free % 2 ^ 34 * 64

/-- Descriptors that groups hold. -/
def State.reservedDescs (s : State) : List Nat := s.codec.groups.flatMap (fun e => (e.2.map (fun g => g.descs ++ g.bedDescs)).getD [])

/-- Descriptors that no group holds and the host has not pinned, lowest first. -/
def State.poolDescs (s : State) : List Nat := allDescs.filter (fun d => decide (d ∉ s.reservedDescs) && !s.fb F.STK_DESC_INFO_HOST_PIN d)

/-- `STK_DESC_COUNT`. -/
def State.refreshDescCount (s : State) : State :=
  let free := allDescs.filter (fun d => !s.fb F.STK_DESC_INFO_PINNED d && !s.fb F.STK_DESC_INFO_DISPLAY d && !s.fb F.STK_DESC_INFO_BEDROCK d && !s.fb F.STK_DESC_INFO_SHORT_TERM d)
  (s.setF F.STK_DESC_COUNT_RESERVED 0 s.reservedDescs.length).setF F.STK_DESC_COUNT_FREE 0 free.length

/-- Contexts of a group. -/
def State.groupCtxs (s : State) (g : Nat) : List Nat := s.ctxsOf (fun x => decide (x.group = g))


/-- The picture is being reconstructed by a context of the group. -/
def State.building (s : State) (g d : Nat) : Bool := (s.groupCtxs g).any (fun c => (s.ctx c).pic.any (fun p => decide (p.desc = d)))

def State.displays (s : State) (g d : Nat) : Bool :=
  s.bandHolds d || (s.groupCtxs g).any (fun c => (s.ctx c).prev.any (fun p => decide (p.desc = d)) || (s.ctx c).shown.any (fun p => decide (p.desc = d)))

/-- The short-term slot whose picture lies in `d`. -/
def State.slotHolding (s : State) (g d : Nat) : Option Nat :=
  (List.range 4).find? (fun k => (s.groupCtxs g).any (fun c => (Tab.get none (s.ctx c).slots k).any (fun p => decide (p.desc = d))))

/-- The marks of a descriptor that pictures rotate through (R156). -/
def State.refreshMark (s : State) (g d : Nat) : State :=
  let b := fun (x : Bool) => if x then 1 else 0
  let pin := s.fb F.STK_DESC_INFO_HOST_PIN d
  let slot := s.slotHolding g d
  let s := s.setF F.STK_DESC_INFO_PINNED d (b (pin || s.building g d))
  let s := s.setF F.STK_DESC_INFO_DISPLAY d (b (s.displays g d))
  let s := s.setF F.STK_DESC_INFO_SHORT_TERM d (b slot.isSome)
  s.setF F.STK_DESC_INFO_SLOT d (slot.getD 7)

def State.descFree (s : State) (d : Nat) : Bool := !s.fb F.STK_DESC_INFO_PINNED d && !s.fb F.STK_DESC_INFO_DISPLAY d && !s.fb F.STK_DESC_INFO_SHORT_TERM d

/-- The fields of a descriptor that returns to the pool. -/
def State.resetDesc (s : State) (d : Nat) : State :=
  let s := chainAll [F.STK_DESC_INFO_PINNED, F.STK_DESC_INFO_DISPLAY, F.STK_DESC_INFO_BEDROCK, F.STK_DESC_INFO_SHORT_TERM, F.STK_DESC_INFO_HOST_PIN,
    F.STK_DESC_INFO_SLOT, F.STK_DESC_INFO_GROUP, F.STK_DESC_PICTURE_PICTURE, F.STK_DESC_BASE_LO_BASE, F.STK_DESC_BASE_HI_BASE] (fun F t => t.setF F d (F.reset d)) s
  s.setDesc d {}

/-- Descriptors that an unpin returns leave the group as soon as they are FREE (R159). -/
def State.shrinkGroup (s : State) (g : Nat) : State :=
  let x := s.group g
  match x.descs.find? (fun d => s.descFree d) with
  | some d => if x.shrink = 0 then s else (s.setGroup? g (some { x with shrink := x.shrink - 1, descs := x.descs.filter (· ≠ d) })).resetDesc d
  | none => s

/-- The marks of a group follow its contexts and the lamps (R156, R157). -/
def State.refreshMarks (s : State) (g : Nat) : State :=
  if (s.group? g).isNone then s.refreshDescCount
  else ((chainAll (s.group g).descs (fun d t => t.refreshMark g d) s).shrinkGroup g).refreshDescCount

/-- The descriptor in which the group already holds picture `p`. -/
def State.descOfPicture (s : State) (g p : Nat) : Option Nat :=
  let held := fun (h : Option Held) => h.filter (fun x => decide (x.picture = p))
  (s.groupCtxs g).findSome? (fun c =>
    let x := s.ctx c
    match x.pic.filter (fun q => decide (q.hdr.picture = p) && decide (q.desc ≠ noDesc)) with
    | some q => some q.desc
    | none => ((held x.prev).or ((held x.shown).or ((List.range 4).findSome? (fun k => held (Tab.get none x.slots k))))).map (·.desc))

/-- FREE descriptors of the group's rotation. -/
def State.freeDescs (s : State) (g : Nat) : List Nat := (s.group g).descs.filter (fun d => s.descFree d)

/-- The descriptor that picture `p` of group `g` takes (R157): the group's, or a FREE one; which, is open. -/
def State.chooseDesc (s : State) (g p : Nat) : Option Nat :=
  match s.descOfPicture g p with
  | some d => some d
  | none =>
    let l := s.freeDescs g
    l[Config.freeNat 12 s.free % max 1 l.length]?

-- ## What a slice reads (R108, R117, R173)


/-- A picture or generation of context `c` at storage `base`, stored with `colour`, as a reference of requester `q`. -/
def State.ctxRef (s : State) (q c base colour : Nat) : RefFn :=
  let x := s.ctx c
  s.refFn q (s.tileBase c base) x.geo.depth colour x.geo.w16 x.geo.h16

def State.heldRef (s : State) (q c : Nat) (h : Option Held) : RefFn :=
  match h with
  | some p => s.ctxRef q c (s.desc p.desc).base p.colour
  | none => fun _ _ _ => 0

/-- The bedrock descriptor of a slot of the context's group. -/
def State.bedDesc (s : State) (c slot : Nat) : Nat := (s.group (s.ctx c).group).bedDescs.getD slot noDesc

def Ctx.bed (x : Ctx) (slot : Nat) : BedSlot := Tab.get {} x.beds slot

/-- The SERVING and BUILDING areas of bedrock slot `k` for the tile of context `c` (R158). -/
def State.bedAreas (s : State) (c k : Nat) : Nat × Nat :=
  let d := s.desc (s.bedDesc c k)
  if (s.ctx c).tile ∈ d.swapped then (d.building, d.base) else (d.base, d.building)

/-- The areas of bedrock slot `k` swap roles for the tile of context `c` (R158); `STK_DESC_BASE` shows the area that serves it now. -/
def State.swapAreas (s : State) (c k : Nat) : State :=
  let d := s.bedDesc c k
  let a := s.desc d
  let t := (s.ctx c).tile
  (s.setDesc d { a with swapped := if t ∈ a.swapped then a.swapped.filter (· ≠ t) else t :: a.swapped }).showDescBase d (s.bedAreas c k).2

/-- Generation `g` of a slot is the one that BUILDING still holds. -/
def BedSlot.isOld (b : BedSlot) (g : Nat) : Bool := decide (b.serving ≠ some g) && decide (b.old = some g)

/-- Where generation `g` of a bedrock slot lies: SERVING, or BUILDING after a swap (R86, R158). -/
def State.bedBase (s : State) (c k g : Nat) : Nat := if ((s.ctx c).bed k).isOld g then (s.bedAreas c k).2 else (s.bedAreas c k).1

/-- The colour with which generation `g` of a bedrock slot is stored. -/
def Ctx.bedColour (x : Ctx) (k g : Nat) : Nat := if (x.bed k).isOld g then (x.bed k).oldColour else (x.bed k).colour

/-- Generation `g` of a bedrock slot as a reference. -/
def State.bedRef (s : State) (q c k g : Nat) : RefFn := s.ctxRef q c (s.bedBase c k g) ((s.ctx c).bedColour k g)

/-- The requester of hewer `h` (R314). -/
def hewerReq (h : Nat) : Nat := 1 + h / 8

/-- The references of a slice of context `c` whose picture header is `h`, as requester `q` reads them. -/
def State.refSet (s : State) (q c : Nat) (h : PicHdr) : RefSet :=
  { short := fun k => s.heldRef q c (Tab.get none (s.ctx c).slots k), hold := s.heldRef q c (s.ctx c).prev,
    bedrock := fun k => s.bedRef q c k (h.bedrockGen.getD k 0) }

/-- The picture of a short-term slot, where it is the one that the header names (R80, R173). -/
def Ctx.slotPic (x : Ctx) (h : PicHdr) (k : Nat) : Option Held := (Tab.get none x.slots k).filter (fun p => decide (p.picture = h.refPic.getD k 0))

/-- The short-term slot holds the picture that the header names. -/
def Ctx.slotHeld (x : Ctx) (h : PicHdr) (k : Nat) : Bool := (x.slotPic h k).isSome

/-- The bedrock slot holds the generation that the header names; in a bedrock unit, any that it serves. -/
def Ctx.bedHeld (x : Ctx) (unit : Bool) (h : PicHdr) (k : Nat) : Bool :=
  ((x.bed k).serving.any (fun g => unit || decide (g = h.bedrockGen.getD k 0)) || (!unit && (x.bed k).old.any (fun g => decide (g = h.bedrockGen.getD k 0)))) && !(x.bed k).recheck

end Sys2Proof.Machine
end

