-- ==== Sys2Proof/Machine/Bands.lean ====
section
/-! DEFINITION. Index tables, bands and the lamp lead (R200 to R205), as the riving channels, the scheduler and the lamp commands use them. -/

namespace Sys2Proof.Machine

-- ## Index tables (R204)

def State.cabinets (s : State) (t : Nat) : Nat := natOfLe (s.dramFor 0 t 2 true)

/-- The 64 bytes of cabinet entry `k`, for position k + 1. -/
def State.cabinet (s : State) (t k : Nat) : List Byte := s.dramFor 0 (t + 64 + 64 * k) 64 true

def cabCtx (e : List Byte) : Nat := leAt e 2 2
def cabStrips (e : List Byte) : Nat := leAt e 4 2
def cabStripBase (e : List Byte) : Nat := leAt e 8 8
def cabMatrix (e : List Byte) : List Int := (List.range 9).map (fun i => signed 16 (leAt e (16 + 2 * i) 2))
def cabLut (e : List Byte) : Nat := byteAt e 34 % 4
def cabOrder (e : List Byte) : Nat := byteAt e 34 / 16
def cabOb (e : List Byte) : Nat := byteAt e 35
def cabDress (e : List Byte) : Nat := leAt e 40 8

/-- The 16 bytes of strip entry `i` at `base`. -/
def State.stripEntry (s : State) (base i : Nat) : List Byte := s.dramFor 0 (base + 16 * i) 16 true

def stripRow (e : List Byte) : Nat := byteAt e 0
def stripRuns (e : List Byte) : Nat := leAt e 2 2
def stripOffset (e : List Byte) : Nat := leAt e 4 4
def stripRunBase (e : List Byte) : Nat := leAt e 8 8

/-- The strip entries of a cabinet. -/
def State.cabStripList (s : State) (e : List Byte) : List (List Byte) := (List.range (cabStrips e)).map (fun i => s.stripEntry (cabStripBase e) i)

/-- The lamps of a run as column in the tile and line in the block row; a column or line outside shows as a negative number or one past the end. -/
def runLamps (w : Nat) : List (Int × Int) :=
  let x : Int := (w / 2 ^ 21 : Nat)
  let y : Int := (w / 2 ^ 17 % 16 : Nat)
  (List.range (w % 4096 + 1)).map (fun j =>
    match w / 2 ^ 15 % 4 with
    | 0 => (x + j, y)
    | 1 => (x - j, y)
    | 2 => (x, y + j)
    | _ => (x, y - j))

/-- The run words of a strip. -/
def State.stripWords (s : State) (e : List Byte) : List Nat := (List.range (stripRuns e)).map (fun i => natOfLe (s.dramFor 0 (stripRunBase e + 4 * i) 4 true))

/-- The lamps of a strip in scan order. -/
def State.stripLamps (s : State) (e : List Byte) : List (Int × Int) := (s.stripWords e).flatMap runLamps

-- ## The check of a table (R205)

/-- The bytes of `bs` that stand at the listed offsets are zero. -/
def zeroAt (bs : List Byte) (os : List Nat) : Bool := os.all (fun o => decide (byteAt bs o = 0))

def range2 (a n : Nat) : List Nat := (List.range n).map (· + a)

/-- Every lamp lies in the block row and in the visible tile. -/
def lampsOk (t : Tile) (row : Nat) (ls : List (Int × Int)) : Bool :=
  ls.all (fun p => decide (0 ≤ p.1) && decide (p.1 < (t.visW : Int)) && decide (0 ≤ p.2) && decide (p.2 < 16) && decide ((16 * row : Nat) + p.2 < (t.visH : Int)))

def State.stripOk (s : State) (t : Tile) (e : List Byte) : Bool :=
  let ls := s.stripLamps e
  zeroAt e [1] && decide (stripRow e < t.h16) && decide (1 ≤ stripRuns e) && decide (stripRuns e ≤ 32768) && decide (stripOffset e < 2 ^ 20) &&
    decide (stripRunBase e < 2 ^ 40) && decide (stripRunBase e % 4 = 0) && (s.stripWords e).all (fun w => decide (w / 4096 % 8 = 0)) &&
    lampsOk t (stripRow e) ls && decide ls.Nodup && decide (ls.length ≤ 32768)

def State.cabinetOk (s : State) (e : List Byte) (k : Nat) : Bool :=
  zeroAt e ([1, 6, 7] ++ range2 36 4 ++ range2 48 16) && decide (byteAt e 0 = k + 1) && (s.ctx? (cabCtx e)).any (fun x => !x.enc) &&
    decide (1 ≤ cabStrips e) && decide (cabStrips e ≤ 128) && decide (cabStripBase e < 2 ^ 40) && decide (cabStripBase e % 16 = 0) &&
    decide (byteAt e 34 / 4 % 4 = 0) && decide (cabOrder e ≤ 5) && decide (cabOb e ≤ 6) && decide (cabDress e < 2 ^ 40) && decide (cabDress e % 8 = 0) &&
    (s.cabStripList e).all (fun x => s.stripOk (s.ctx (cabCtx e)).geo x)

/-- The table at `t` passes R205. -/
def State.tableOk (s : State) (t : Nat) : Bool :=
  decide (1 ≤ s.cabinets t) && decide (s.cabinets t ≤ 64) && zeroAt (s.dramFor 0 t 64 true) (range2 2 62) &&
    (List.range (s.cabinets t)).all (fun k => s.cabinetOk (s.cabinet t k) k)

-- ## Rates and lengths of the lamp link (R200, R219)

/-- Lane of a port of function `func` (1 haul, 2 lamp, 3 ingress). -/
def State.laneOf (s : State) (func port : Nat) : Option Nat :=
  (List.range 60).find? (fun n => s.fb F.LANE_CFG_EN n && decide (s.f F.LANE_CFG_FUNC n = func) && decide (s.f F.LANE_CFG_PORT n = port))

/-- Picoseconds of one character at a RATE code. -/
def charPs (r : Nat) : Nat := [8000, 3200, 1600, 800].getD r 800

/-- Picoseconds of one character on lamp port `n`. -/
def State.portCharPs (s : State) (n : Nat) : Nat := match s.laneOf 2 n with
  | some l => charPs (s.f F.LANE_CFG_RATE l)
  | none => 800

/-- Plane bytes of a strip of `lamps` lamps at OB = m + 10 (R210). -/
def planeBytes (lamps m : Nat) : Nat := (m + 10) * 3 * ceilDiv lamps 8

/-- Characters of a strip: each frame of 8,192 payload bytes takes 16 more. -/
def stripChars (bytes : Nat) : Nat := bytes + 16 * ceilDiv (max bytes 1) 8192

/-- The gap before each sync in ns. -/
def State.syncGap (s : State) : Nat := 100 * min 320 (max 10 (s.f F.LMP_SYNC_GAP_US_X10 0))

-- ## Channels

def State.chan (s : State) (n : Nat) : RivChan := Tab.get {} s.lamp.chans n

def State.setChan (s : State) (n : Nat) (c : RivChan) : State := s.withLamp (fun w => { w with chans := Tab.set {} w.chans n c })

def State.chain (s : State) (a : Nat) : Chain := Tab.get {} s.lamp.chains a

def State.setChain (s : State) (a : Nat) (c : Chain) : State := s.withLamp (fun w => { w with chains := Tab.set {} w.chains a c })

def State.grid (s : State) (g : Nat) : Grid := Tab.get {} s.lamp.grids g

def State.setGrid (s : State) (g : Nat) (x : Grid) : State := s.withLamp (fun w => { w with grids := Tab.set {} w.grids g x })

/-- Positions that channel `n` serves: the active split, within the table. -/
def State.served (s : State) (n : Nat) : List Nat :=
  (List.range (s.cabinets (s.chan n).table)).filter (fun k => decide (s.f F.RIV_CH_SPLIT_ACT_FIRST n ≤ k + 1) && decide (k + 1 ≤ s.f F.RIV_CH_SPLIT_ACT_LAST n)) |>.map (· + 1)

/-- Serving channels whose active table holds context `c` (R201). -/
def State.chansOf (s : State) (c : Nat) : List Nat :=
  (List.range 48).filter (fun n => (s.chan n).en && (List.range (s.cabinets (s.chan n).table)).any (fun k => decide (cabCtx (s.cabinet (s.chan n).table k) = c)))

/-- The largest LEAD among the ports that show the context (R203). -/
def State.leadOf (s : State) (c : Nat) : Nat := (s.chansOf c).foldl (fun a n => max a (s.f F.LMP_PORT_LEAD_NS n)) 0

/-- An index table of a channel, active or written, names the context (R130). -/
def State.tableNames (s : State) (c : Nat) : Bool := s.chansOf c ≠ []

-- ## Bands (R201, R202)

/-- The strips of a band: those of the cabinet whose block row lies in the slice. -/
def State.bandStrips (s : State) (t k c slice : Nat) : List (List Byte) :=
  let g := (s.ctx c).geo
  (s.cabStripList (s.cabinet t k)).filter (fun e => decide (slice * (g.sliceRowsM1 + 1) ≤ stripRow e) && decide (stripRow e < slice * (g.sliceRowsM1 + 1) + g.rowsOf slice))

/-- Characters of the band of `strips`, at output bits code `m`. -/
def State.bandChars (s : State) (m : Nat) (strips : List (List Byte)) : Nat :=
  (strips.map (fun e => stripChars (planeBytes (s.stripLamps e).length m))).sum

/-- Characters of a band on channel `n`. -/
def State.charsOf (s : State) (n : Nat) (b : Band) : Nat :=
  (b.positions.map (fun p => s.bandChars (cabOb (s.cabinet (s.chan n).table (p - 1))) (s.bandStrips (s.chan n).table (p - 1) b.ctx b.slice))).sum

/-- APPLY of a band that starts at `t` (R201): the first sync at or after the stamp before whose gap the last frame ends. -/
def State.applySync (s : State) (n : Nat) (b : Band) (t : Nat) : Nat :=
  let w := s.wall (s.ctx b.ctx).wall
  let fin := t + ceilDiv (s.charsOf n b * s.portCharPs n) 1000 + s.syncGap
  w.firstSync (max b.stamp fin)

/-- DROPPED of a channel. -/
def State.dropStrips (s : State) (n k : Nat) : State := s.bumpBy F.RIV_CH_STRIPS_DROPPED n k

/-- Picture `p` of context `c` is passed over: it counts once (R149, R202). -/
def State.noteSkip (s : State) (c p : Nat) : State :=
  if p ∈ (s.ctx c).skips then s else (s.stat c stDisplaySkipped 1).modCtx c (fun x => { x with skips := (p :: x.skips).take 16 })

/-- A band is queued: an older picture's band of the same cabinet and slice goes, and that picture is passed over; with 16 queued, the band whose stamp is earliest goes. -/
def State.queueBand (s : State) (n : Nat) (b : Band) : State :=
  let ch := s.chan n
  let old := fun (x : Band) => decide (x.positions = b.positions) && decide (x.slice = b.slice) && decide (x.ctx = b.ctx) && later 16 b.picture x.picture
  let s := chainAll (ch.bands.filter old) (fun x t => (t.dropStrips n x.strips).noteSkip b.ctx x.picture) s
  let keep := ch.bands.filter (fun x => !old x)
  if keep.length < 16 then s.setChan n { ch with bands := keep ++ [b] }
  else
    let all := keep ++ [b]
    let first := all.foldl (fun a x => min a x.stamp) b.stamp
    match all.find? (fun x => decide (x.stamp = first)) with
    | some d => (s.dropStrips n d.strips).setChan n { ch with bands := all.erase d }
    | none => s

/-- The bands that a channel queues for a completed slice, which `b` tells: one for each cabinet that it serves and whose tile it is. -/
def State.bandsFor (s : State) (n : Nat) (b : Band) : List Band :=
  let t := (s.chan n).table
  ((s.served n).filter (fun p => decide (cabCtx (s.cabinet t (p - 1)) = b.ctx))).filterMap (fun p =>
    let k := (s.bandStrips t (p - 1) b.ctx b.slice).length
    if k = 0 then none else some { b with positions := [p], strips := k })

/-- BAND_QUEUE (R201): STK signals a completed decode slice, which `b` tells, to every channel whose table holds its context. -/
def State.signalSlice (s : State) (b : Band) : State :=
  chainAll (s.chansOf b.ctx) (fun n t => chainAll (t.bandsFor n b) (fun x u => u.queueBand n x) t) s

/-- The sync that a slice's planes can meet from now on (R149): the latest APPLY of its bands if they started at once. -/
def State.sliceMeets (s : State) (b : Band) : Nat :=
  (s.chansOf b.ctx).foldl (fun a n => (s.bandsFor n b).foldl (fun m x => max m (s.applySync n x s.now)) a) 0

-- ## LEAD (R203)

/-- The wall lines on which slices of a cabinet's tile end, with the strips' characters. -/
def State.linesOf (s : State) (t k : Nat) : List (Nat × Nat) :=
  let e := s.cabinet t k
  let x := s.ctx (cabCtx e)
  (List.range x.geo.slices).map (fun i =>
    (x.geo.y + min x.geo.visH (16 * (i * (x.geo.sliceRowsM1 + 1) + x.geo.rowsOf i)), s.bandChars (cabOb e) (s.bandStrips t k (cabCtx e) i)))

/-- LEAD of a chain with table `t` on port `n`. -/
def State.leadFor (s : State) (n t : Nat) : Nat :=
  let all := (List.range (s.cabinets t)).flatMap (fun k => s.linesOf t k)
  let biggest := all.foldl (fun a l => max a ((all.filter (fun x => decide (x.1 = l.1))).map (·.2)).sum) 0
  min (2 ^ 24 - 1) (ceilDiv (biggest * s.portCharPs n) 1000 + 2 * s.syncGap + 10000)

end Sys2Proof.Machine
end

