-- ==== Sys2Proof/Machine/Units.lean ====
section
/-! DEFINITION. Reception of a decode context: the segments before slice data, pictures that begin, end and complete, readiness and deadlines (R68 to R88, R143, R149, R150, R157, R166, R168 to R175). -/

namespace Sys2Proof.Machine

-- ## Segments (R68 to R72)

/-- The segment at the head of stuffed bytes. -/
inductive Seg where
  | wait
  | bad
  /-- LENGTH is below 2, or a marker stands before the segment's end (R70, R168). -/
  | badLength
  | seg (code : Nat) (body : List Byte) (used : Nat)
deriving DecidableEq, Repr

/-- A segment whose bytes stop short of its LENGTH. -/
def shortSeg (e : RunEnd) : Seg :=
  match e with
  | .open_ => .wait
  | .bad => .bad
  | .marker _ => .badLength

/-- A segment with LENGTH: the bytes after its marker. -/
def lengthSeg (code : Nat) (r : List Byte) : Seg :=
  let hd := unstuff 2 r
  if hd.1.length < 2 then shortSeg hd.2.1
  else
    let n := beAt hd.1 0 2
    if n < 2 then .badLength
    else
      let x := unstuff n r
      if x.1.length < n then shortSeg x.2.1
      else .seg code x.1 (2 + r.length - x.2.2.length)

def nextSeg (buf : List Byte) : Seg :=
  match buf with
  | [] => .wait
  | [b] => if b = 0xFF#8 then .wait else .bad
  | b :: c :: r => if b = 0xFF#8 ∧ isMarkerCode c = true then (if c = 0xAF#8 then .seg 0xAF [] 2 else lengthSeg c.toNat r) else .bad

/-- Bytes up to the next marker that `ok` admits (R169). -/
def toMarker (ok : Nat → Bool) (bs : List Byte) : Nat :=
  match bs with
  | [] => 0
  | b :: r =>
    match r with
    | [] => if b = 0xFF#8 then 0 else 1
    | c :: _ => if b = 0xFF#8 ∧ isMarkerCode c = true ∧ ok c.toNat = true then 0 else 1 + toMarker ok r

-- ## Readiness (R143, R150)

def State.lrem (s : State) (c : Nat) : Nat := s.f F.SCH_CTX_LATE_LREM c

/-- A slice becomes ready: its deadline after the catch-up cut (R150). -/
def State.makeReady (s : State) (r : Ready) (allot : Nat) : State :=
  let cut := min (s.lrem r.ctx) (allot / 4)
  let s := s.setF F.SCH_CTX_LATE_LREM r.ctx (s.lrem r.ctx - cut)
  s.withCodec (fun w => { w with ready := w.ready ++ [{ r with ready := s.now, deadline := s.now + allot - cut }] })

/-- allot of a decode slice (R143). -/
def State.decodeAllot (s : State) (c stamp : Nat) : Nat := stamp - (s.leadOf c + s.now)

/-- A missing slice becomes a concealment job with the picture's deadline (R171). -/
def State.concealJob (s : State) (c : Nat) (p : Pic) (i : Nat) : State :=
  s.withCodec (fun w => { w with ready := w.ready ++ [{ ctx := c, picture := p.hdr.picture, slice := i, ready := s.now, deadline := max s.now (p.stamp - s.leadOf c), stamp := p.stamp, conceal := true }] })

/-- Reception of the picture in reception ends: slices not received are missing (R77, R171). -/
def State.endReception (s : State) (c : Nat) : State :=
  let x := s.ctx c
  match x.pic with
  | none => s.modCtx c (fun y => { y with doneRaw := none })
  | some p =>
    if p.ended then s
    else
      let missing := (List.range x.geo.slices).filter (fun i => decide (i ∉ p.begun))
      let s := s.modCtx c (fun y => { y with pic := some { p with ended := true, begun := p.begun ++ missing } })
      (chainAll missing (fun i t => t.concealJob c p i) s).stat c (stErr errMissing) missing.length

/-- The header bytes of the picture `n` of a context, where it is in reception: in progress, or complete before its reception ended (R77). -/
def Ctx.rawOf (x : Ctx) (n : Nat) : Option (List Byte) :=
  match x.pic with
  | some p => if p.hdr.picture = n ∧ p.ended = false then some p.raw else none
  | none => if x.newest = some n then x.doneRaw else none

/-- The picture of a context in reception is `n`. -/
def Ctx.receives (x : Ctx) (n : Nat) : Bool := (x.rawOf n).isSome

/-- A stale picture (R77). -/
def Ctx.stale (x : Ctx) (n : Nat) : Bool := x.newest.any (fun m => earlier 16 n m || (decide (n = m) && !x.receives n))

/-- A picture header names generations of the bedrock slots (R86). -/
def Ctx.nameBeds (x : Ctx) (h : PicHdr) : Ctx :=
  let name := fun (k : Nat) (b : BedSlot) => if h.bedrockValid.testBit k ∧ b.serving = some (h.bedrockGen.getD k 0) then { b with fresh := false } else b
  { x with beds := x.beds.map (fun e => (e.1, name e.1 e.2)) }

/-- A picture begins, once no other picture of the context is in progress. -/
def State.openPic (s : State) (c stamp : Nat) : State :=
  let x := s.ctx c
  match x.frontPic, x.pic with
  | some (h, raw), none =>
    if x.stale h.picture || x.receives h.picture then s
    else s.modCtx c (fun y => { y.nameBeds h with pic := some { hdr := h, raw := raw, desc := noDesc, stream := y.stream.getD {}, stamp := stamp }, newest := some h.picture, doneRaw := none })
  | _, _ => s

-- ## Header segments (R74 to R79, R87, R88)

/-- The front unit no longer concerns the context: its items leave one by one. -/
def State.frontReset (s : State) (c : Nat) : State :=
  s.modCtx c (fun x => { x with frontUsed := 0, frontStart := 0, frontDead := false, frontDrop := false, frontPic := none, back := none, hunt := false })

/-- The unit at the head of the queue is consumed or discarded; what remains of one that a hewer had taken is discarded at once. -/
def State.frontDie (s : State) (c : Nat) : State := if (s.ctx c).back.isSome then s.frontReset c else s.modCtx c (fun x => { x with frontDead := true })

/-- A unit is discarded that a repeated header which differs precedes (R75). -/
def State.dropUnit (s : State) (c : Nat) : State := (s.modCtx c (fun x => { x with dropNext := false })).frontDie c

/-- It dies with an error. -/
def State.frontErr (s : State) (c k : Nat) : State := (s.stat c k 1).frontDie c

/-- The stream header fits the context, its wall and its tile (R75, R155). -/
def State.streamFits (s : State) (c : Nat) (h : StreamHdr) : Bool :=
  let x := s.ctx c
  let w := s.wall x.wall
  decide (h.wall = x.wall) && decide (h.tile = x.tile) && decide (h.rateNum = w.rateNum) && decide (h.rateDen = w.rateDen) &&
    decide (h.w16 = x.geo.w16) && decide (h.h16 = x.geo.h16) && decide (h.cropR = x.geo.cropR) && decide (h.cropB = x.geo.cropB) &&
    decide (h.depthM8 = x.geo.depthM8) && decide (h.sliceRowsM1 = x.geo.sliceRowsM1) && decide (h.maxShort ≤ (s.group x.group).short) && decide (h.bedrockSlots ≤ (s.group x.group).beds)

/-- A stream header that opens a stream. -/
def State.openStream (s : State) (c : Nat) (h : StreamHdr) (raw : List Byte) : State :=
  (s.endReception c).modCtx c (fun x => { x with stream := some h, streamRaw := raw, ended := false, newest := none, doneRaw := none, dropNext := false })

/-- A stream header segment. -/
def State.onStreamHdr (s : State) (c : Nat) (body : List Byte) : State :=
  match parseStream body with
  | none => s.stat c (stErr errHeader) 1
  | some h =>
    if !s.streamFits c h then s.stat c (stErr errHeader) 1
    else
      match (s.ctx c).stream with
      | none => s.openStream c h body
      | some o =>
        if body = (s.ctx c).streamRaw then s
        else if h.version = 2 ∧ o.version = 2 ∧ h.serial = o.serial then (s.stat c (stErr errRepeat) 1).modCtx c (fun x => { x with dropNext := true })
        else s.openStream c h body

/-- A picture header segment; `stamp`: of the packet that carries it, `start`: where it begins. -/
def State.onPicHdr (s : State) (c stamp start : Nat) (body : List Byte) : State :=
  let x := s.ctx c
  match x.stream with
  | none => s
  | some st =>
    match parsePicture st body with
    | none => s.stat c (stErr errHeader) 1
    | some h =>
      if x.dropNext then s
      else if x.stale h.picture then (s.stat c stStale 1).modCtx c (fun y => { y with frontDrop := true, frontStart := start })
      else if x.receives h.picture ∧ x.rawOf h.picture ≠ some body then (s.stat c (stErr errRepeat) 1).modCtx c (fun y => { y with dropNext := true })
      else if x.newest = none ∧ h.key = false then (s.stat c (stErr errOrder) 1).modCtx c (fun y => { y with frontDrop := true })
      else
        let s := if x.receives h.picture then s else s.endReception c
        (s.modCtx c (fun y => { y with frontPic := some (h, body), frontStart := start })).openPic c stamp

/-- A metadata segment (R87). -/
def State.onMetadata (s : State) (c : Nat) (body : List Byte) : State :=
  let n := body.length
  let t := byteAt body 2
  if (s.ctx c).ended then s.stat c (stErr errOrder) 1
  else if n < 3 then s.stat c (stErr errHeader) 1
  else if 1027 < n then s.stat c (stErr errSize) 1
  else if t = 1 then s.modCtx c (fun x => { x with label := (body.drop 3).take 255 })
  else if t = 2 then s.modCtx c (fun x => { x with sourceTimeValue := body.drop 3 })
  else if t < 128 then s.stat c stSkipped 1
  else s

/-- End of stream (R88); after one, only a stream header may follow (R74). -/
def State.onStreamEnd (s : State) (c : Nat) : State :=
  if (s.ctx c).ended then s.stat c (stErr errOrder) 1
  else (s.endReception c).modCtx c (fun x => { x with stream := none, newest := none, doneRaw := none, ended := true })

-- ## Slice and bedrock headers

/-- The valid picture header of slice unit `h` (R74): before it in its unit, or that of the picture in reception. -/
def Ctx.headerFor (x : Ctx) (h : SliceHdr) : Option PicHdr :=
  match x.frontPic with
  | some (p, _) => if p.picture = h.picture then some p else none
  | none => (x.pic.filter (fun p => decide (p.hdr.picture = h.picture))).map (·.hdr)

/-- A generation that the picture names is being built and its check has not ended (R166). -/
def Ctx.bedPending (x : Ctx) (h : PicHdr) : Bool :=
  (List.range 2).any (fun k => h.bedrockValid.testBit k &&
    (((x.bed k).building.any (fun g => decide (g = h.bedrockGen.getD k 0)) && !(x.bedHeld false h k)) || (x.bed k).recheck))

/-- What a slice header at the head of the queue comes to: an error of the unit, or a slice with its picture header. -/
inductive FrontSlice where
  | err (k : Nat)
  | drop
  | slice (h : SliceHdr) (p : PicHdr)
deriving DecidableEq, Repr

/-- The counter of a slice or bedrock unit outside any stream: ORDER after end of stream (R74), STALE before the first stream header (R77). -/
def Ctx.outside (x : Ctx) : Nat := if x.ended then stErr errOrder else stStale

/-- The checks of a slice header (R74, R77, R81, R168). -/
def Ctx.checkSlice (x : Ctx) (body : List Byte) : FrontSlice :=
  if x.frontDrop || x.dropNext then .drop
  else
    match x.stream with
    | none => .err x.outside
    | some st =>
      match parseSlice (decide (st.version = 1)) body with
      | none => .err (stErr errHeader)
      | some h =>
        if x.stale h.picture then .err stStale
        else
          match x.headerFor h with
          | none => .err (stErr errOrder)
          | some p =>
            if !sliceOrderOk st p.key h then .err (stErr errOrder)
            else if x.pic.any (fun q => decide (q.hdr.picture = h.picture) && decide (h.slice ∈ q.begun)) || (x.pic.isNone && x.receives h.picture) then .err (stErr errOrder)
            else .slice h p

/-- A slice header whose picture is later than the picture in reception ends that reception, also where the unit is discarded (R77, R171). -/
def Ctx.laterSlice (x : Ctx) (body : List Byte) : Bool :=
  x.stream.any (fun st => (parseSlice (decide (st.version = 1)) body).any (fun h => !x.stale h.picture && !x.receives h.picture && x.newest.isSome))

/-- Slices of the front unit may start (R108, R143, R157, R166). -/
def State.frontReady (s : State) (c : Nat) (h : SliceHdr) (p : PicHdr) : Bool :=
  let x := s.ctx c
  (x.back.isSome || s.atThreshold c) && x.pic.any (fun q => decide (q.hdr.picture = h.picture)) && !x.bedPending p &&
    (x.pic.any (fun q => decide (q.desc ≠ noDesc)) || (s.chooseDesc x.group h.picture).isSome)

/-- The front unit's slice becomes ready. -/
def State.acceptSlice (s : State) (c used : Nat) (h : SliceHdr) : State :=
  let x := s.ctx c
  match x.pic with
  | none => s
  | some p =>
    let s := s.modCtx c (fun y => { y with pic := some { p with begun := p.begun ++ [h.slice] } })
    let s := s.makeReady { ctx := c, picture := h.picture, slice := h.slice, stamp := p.stamp, skip := used, start := if x.frontPic.isSome then x.frontStart else used, bytes := (x.back.getD {}).bytes, closed := (x.back.getD {}).closed } (s.decodeAllot c p.stamp)
    if (x.back.getD {}).closed then s.frontReset c else s

/-- The builds that a damaged bedrock unit abandons (R86, R168). -/
def State.abandonBuild (s : State) (c k : Nat) : State :=
  s.modCtx c (fun x => { x with beds := Tab.set {} x.beds k { x.bed k with building := none, nextRow := 0, crc := 0 } })

/-- A hewer runs a received unit of bedrock slot `k` of context `c`: the next unit of the slot waits for its end (R86, R166). -/
def State.bedRuns (s : State) (c k : Nat) : Bool :=
  s.codec.hewers.any (fun e => e.2.run.any (fun r => decide (r.what.ctx = c) && !r.what.enc && r.hdr.bed.any (fun d => decide (d.slot = k))))

/-- A bedrock unit at the head of the queue: none where it is discarded or waits, with the state after it. -/
def State.checkBedUnit (s : State) (c : Nat) (body : List Byte) : Option (SliceHdr × BedHdr) × State :=
  let x := s.ctx c
  match x.stream with
  | none => (none, s.frontErr c x.outside)
  | some st =>
    if x.frontDrop || x.dropNext then (none, s.dropUnit c)
    else if x.frontPic.isSome then (none, s.frontErr c (stErr errOrder))
    else
      match parseBedrock st body with
      | none =>
        let k := byteAt body 2
        let s := ((s.stat c (stErr errHeader) 1).stat c (stErr errBedUnit) 1).frontDie c
        (none, if k < st.bedrockSlots then s.abandonBuild c k else s)
      | some h =>
        match h.bed with
        | none => (none, s)
        | some d =>
          let b := x.bed d.slot
          if s.bedRuns c d.slot then (none, s)
          else if b.serving = some d.gen ∨ (b.fresh = true ∧ b.old = some d.gen) then (none, s.frontDie c)
          else if h.firstRow = 0 ∨ (b.building = some d.gen ∧ b.nextRow = h.firstRow) then (some (h, d), s)
          else (none, (s.abandonBuild c d.slot).frontErr c (stErr errBedUnit))

-- ## The front of a stream queue

/-- A hewer reads the unit of context `c`, or a slice of it waits for one. -/
def State.frontTaken (s : State) (c : Nat) : Bool :=
  s.codec.hewers.any (fun e => e.2.run.any (fun r => decide (r.what.ctx = c) && !r.what.enc && !r.what.conceal && !r.closed)) ||
    s.codec.ready.any (fun r => decide (r.ctx = c) && !r.enc && !r.conceal && !r.closed)

/-- The data items of a unit. -/
def unitData (u : List Item) : List Byte := (u.filter (fun i => decide (i.kind ≠ 1))).flatMap (·.data)

/-- The data of the unit at the head, and whether the unit ends in the queue: behind what a hewer had taken of it, up to the next first packet (R169, R170). -/
def State.frontData (s : State) (c : Nat) : List Byte × Bool :=
  let l := (s.queue c).fresh
  match (s.ctx c).back with
  | none => (unitData (unitItems l), (unitItems l).any (fun i => i.last || decide (i.kind = 1)))
  | some b =>
    let l := if b.closed then [] else l.takeWhile (fun i => !i.first)
    let u := unitItems l
    (b.bytes ++ unitData u, b.closed || u.any (fun i => i.last || decide (i.kind = 1)) || decide (l.length < (s.queue c).fresh.length))

/-- The unit at the head begins with its first packet, or goes on behind what a hewer had taken of it: the stamp time of its packet. -/
def State.frontFirst (s : State) (c : Nat) : Option Nat :=
  match (s.ctx c).back, (s.queue c).fresh with
  | some b, _ => some b.stamp
  | none, i :: _ => if i.kind ≠ 1 ∧ i.first = true then some i.stamp else none
  | none, [] => none

/-- One segment of the front unit; whether the next one may be looked at. A segment between a picture header and its slice header is an order fault (R74). -/
def State.frontSeg (s : State) (c : Nat) (stamp : Nat) (code : Nat) (body : List Byte) (used : Nat) : State × Bool :=
  let x := s.ctx c
  let at_ := x.frontUsed
  let v1 := x.stream.any (fun h => decide (h.version = 1))
  let go := fun (t : State) => (t.modCtx c (fun y => { y with frontUsed := at_ + used }), true)
  let inside := x.frontPic.isSome && decide (code = 0xA0 ∨ code = 0xAF ∨ (code = 0xA5 ∧ v1 = false))
  if inside then (s.frontErr c (stErr errOrder), false)
  else if code = 0xA0 then go (s.onStreamHdr c body)
  else if code = 0xA1 then go (s.onPicHdr c stamp at_ body)
  else if code = 0xAF then go (s.onStreamEnd c)
  else if code = 0xA5 ∧ v1 = false then go (s.onMetadata c body)
  else if code = 0xA2 then
    match x.checkSlice body with
    | .drop => (s.dropUnit c, false)
    | .err k => ((if x.laterSlice body then s.endReception c else s).frontErr c k, false)
    | .slice h p =>
      let s := if x.receives h.picture then s else s.endReception c
      let s := s.openPic c stamp
      if s.frontReady c h p then (s.acceptSlice c at_ h, false) else (s, false)
  else if code = 0xA3 then (s.frontErr c (stErr errOrder), false)
  else if code = 0xA4 then ((s.checkBedUnit c body).2, false)
  else go (s.stat c stSkipped 1)

/-- The bytes of the front unit up to the next marker other than 0xA3 are passed over (R169). -/
def State.skipOn (s : State) (c from_ : Nat) : State :=
  let k := toMarker (· ≠ 0xA3) ((s.frontData c).1.drop from_)
  s.modCtx c (fun y => { y with frontUsed := from_ + k, hunt := decide ((s.frontData c).1.length ≤ from_ + k + 1) })

/-- What stands at the head of the front unit is no segment (R69, R70, R101): error `j` counts, and parsing resumes at the next marker. -/
def State.skipBad (s : State) (c j : Nat) : State := (s.stat c (stErr j) 1).skipOn c ((s.ctx c).frontUsed + 1)

/-- The front unit of a decode context is examined: its header segments act, and its slice becomes ready when it can. DESIGN CHOICE (log entry 91): a byte that stands where a marker is due between segments counts in MARKER and is passed over to the next marker; the spec names no counter for it. Safe only for streams without such bytes. -/
def State.examine (s : State) (c fuel : Nat) : State :=
  match fuel with
  | 0 => s
  | n + 1 =>
    let x := s.ctx c
    if (s.ctx? c).isNone || x.enc || x.frontDead || s.frontTaken c then s
    else
      match s.frontFirst c with
      | none => s
      | some time =>
        let d := s.frontData c
        let s := if x.hunt then s.skipOn c x.frontUsed else s
        let at_ := (s.ctx c).frontUsed
        match nextSeg (d.1.drop at_) with
        | .wait => if !d.2 then s else if d.1.length ≤ at_ ∨ (s.ctx c).hunt = true then s.frontDie c else s.frontErr c (stErr errHeader)
        | .bad => (s.skipBad c errMarker).examine c n
        | .badLength => (s.skipBad c errHeader).examine c n
        | .seg code body used =>
          if code = 0xA4 ∧ x.stream.any (fun h => decide (h.version = 1)) = true then (s.skipBad c errMarker).examine c n
          else
            let r := s.frontSeg c (s.stampOf x.wall time) code body used
            if r.2 then r.1.examine c n else r.1

/-- The front unit of context `c` is examined after anything that may let its slice start. -/
def State.notice (s : State) (c : Nat) : State := s.examine c (1 + dataBytes (s.queue c).items)

/-- Every decode context of a group. -/
def State.noticeGroup (s : State) (g : Nat) : State := chainAll (s.groupCtxs g) (fun c t => t.notice c) s

-- ## Delivery to a hewer (R170, R278)

/-- The hewer that reads the unit of context `c`. -/
def State.reader (s : State) (c : Nat) : Option Nat :=
  (s.codec.hewers.find? (fun e => e.2.run.any (fun r => decide (r.what.ctx = c) && !r.what.enc && !r.what.conceal && !r.closed))).map (·.1)

/-- A first packet that follows bytes of a unit is a repeat where it begins as they do. -/
def repeatOf (taken data : List Byte) : Bool := decide (data.take taken.length = taken.take data.length)

/-- The run after an item, and whether the item leaves the queue (R170). -/
def Run.take (r : Run) (i : Item) : Run × Bool :=
  if i.kind = 1 then ({ r with closed := true, truncated := true }, true)
  else if i.first = true ∧ r.taken ≠ [] then
    (if repeatOf r.taken i.data then (r, true) else ({ r with closed := true, truncated := true }, false))
  else
    let pos := i.tag % 65536 * 64
    if pos = r.taken.length then ({ r with taken := r.taken ++ i.data, closed := i.last }, true)
    else if pos + i.data.length ≤ r.taken.length then (r, true)
    else ({ r with closed := true, truncated := true }, true)

/-- The next item of a decode queue goes to the hewer that reads it. -/
def State.deliver (s : State) (c h : Nat) : State :=
  let s := s.endRead c
  match (s.queue c).items, (s.hewer h).run with
  | i :: _, some r =>
    let t := r.take i
    let s := s.setHewer h { s.hewer h with run := some t.1 }
    if t.2 then s.beginRead c else s
  | _, _ => s

/-- An item of a unit whose parsing goes on behind an error joins what the hewer had taken (R169), or ends its data (R170). -/
def State.absorb (s : State) (c : Nat) (b : Back) : State :=
  match (s.queue c).items with
  | [] => s
  | i :: _ =>
    let t := ({ taken := b.bytes } : Run).take i
    let s := s.modCtx c (fun x => { x with back := some { b with bytes := t.1.taken, closed := t.1.closed } })
    if t.2 then s.beginRead c else s

/-- With no reader, an item leaves a decode queue when its unit is consumed or discarded, when it is a cleft marker, or when its unit's first packet is gone. -/
def State.discardFront (s : State) (c : Nat) : State :=
  let s := s.endRead c
  if (s.ctx c).frontDead then (s.frontReset c).beginRead c
  else if (s.ctx c).back.any (fun b => !b.closed) then s.absorb c ((s.ctx c).back.getD {})
  else if (s.frontFirst c).isNone then s.beginRead c
  else s

-- ## Completion of pictures (R156, R157, R159, R175)

/-- A host pin that waits takes the picture that its group completed (R159). -/
def State.hostPin (s : State) (g d : Nat) : State :=
  let x := s.group g
  if x.pinDue && !s.building g d then
    let s := s.setGroup? g (some { x with pinDue := false })
    let s := s.setF F.STK_DESC_INFO_HOST_PIN d 1
    let s := s.setF F.STK_PIN_DESC 0 d
    s.setF F.STK_PIN_DONE 0 1
  else s

/-- `STK_CTX_STATUS` of the latest completed picture. -/
def State.ctxStatus (s : State) (c : Nat) (p : Pic) : State :=
  let s := s.setF F.STK_CTX_STATUS_CONCEALED c (if p.concealed = [] then 0 else 1)
  let s := s.setF F.STK_CTX_STATUS_CONC_SLICES c p.concealed.length
  s.setF F.STK_CTX_STATUS_LAST_PICTURE c p.hdr.picture

/-- A completed decode picture waits for its display, where its wall has syncs on the part. -/
def State.awaitDisplay (s : State) (c : Nat) (p : Pic) (h : Held) (meets : Nat) : State :=
  if (s.wall (s.ctx c).wall).grid.isSome then
    s.modCtx c (fun x => { x with waiting := x.waiting ++ [{ held := h, stamp := p.stamp, complete := s.now, meets := meets }] })
  else s

/-- The picture in progress of a context is complete. -/
def State.completePicture (s : State) (c : Nat) (p : Pic) (meets : Nat) : State :=
  let x := s.ctx c
  let h : Held := { picture := p.hdr.picture, desc := p.desc, colour := p.stream.colour, concealed := p.concealed }
  let s := s.stat c stPictures 1
  let s := if p.concealed = [] then s else s.stat c (stErr errConcPictures) 1
  let s := if p.concealed ≠ [] ∧ x.wasConcealed = false then s.raiseCtx c else s
  let s := s.ctxStatus c p
  let s := s.modCtx c (fun y => { y with
    wasConcealed := decide (p.concealed ≠ []), prev := some h, pic := none, doneRaw := if y.enc || p.ended then none else some p.raw,
    slots := if p.hdr.storeSlot = 7 then y.slots else Tab.set none y.slots p.hdr.storeSlot (some h) })
  let s := if x.enc then s else s.awaitDisplay c p h meets
  let s := (s.hostPin x.group p.desc).refreshMarks x.group
  if x.enc then s else s.noticeGroup x.group

/-- Slice `i` of picture `p` is marked CONCEALED (R175). -/
def Ctx.sliceConcealed (x : Ctx) (p : Pic) (key block : Bool) (i : Nat) : Bool :=
  let has := fun (h : Option Held) => h.any (fun y => decide (i ∈ y.concealed))
  block || (!key && (has x.prev || (List.range 4).any (fun k => p.hdr.refValid.testBit k && has (x.slotPic p.hdr k))))

/-- The band that slice `i` of picture `p` of a context gives to a channel, beside its cabinets (R201). -/
def Pic.band (p : Pic) (c i : Nat) : Band := { ctx := c, slice := i, picture := p.hdr.picture, desc := p.desc, colour := p.stream.colour, stamp := p.stamp }

/-- Slice `i` of the picture in progress is complete. -/
def State.sliceDone (s : State) (c i : Nat) (concealed : Bool) : State :=
  let x := s.ctx c
  match x.pic with
  | none => s
  | some p =>
    let p := { p with done := p.done ++ [i], concealed := if concealed then p.concealed ++ [i] else p.concealed }
    let s := s.modCtx c (fun y => { y with pic := some p })
    let s := if x.enc then s else (s.signalSlice (p.band c i)).refreshMarks x.group
    if (List.range x.geo.slices).all (fun k => decide (k ∈ p.done)) then
      s.completePicture c p ((List.range x.geo.slices).foldl (fun a k => max a (s.sliceMeets (p.band c k))) 0)
    else s

-- ## Display (R149)

/-- A late picture of a context; the fourth in a row sets LATE_STREAK. -/
def State.countLate (s : State) (c : Nat) (late : Bool) : State :=
  if late then
    let s := (s.stat c stLatePictures 1).modCtx c (fun x => { x with lateRun := x.lateRun + 1 })
    if (s.ctx c).lateRun = 4 then s.setF F.SCH_CTX_LATE_LATE_STREAK c 1 else s
  else s.modCtx c (fun x => { x with lateRun := 0 })

/-- PICTURE_DISPLAY: at the sync at `t`, the newest displayable picture is shown and older ones are passed over. -/
def State.displayAt (s : State) (c t : Nat) : State :=
  let x := s.ctx c
  let can := fun (w : Waiting) => decide (max w.stamp w.meets ≤ t)
  match (x.waiting.filter can).getLast? with
  | none => s
  | some w =>
    let past := x.waiting.takeWhile (· ≠ w)
    let s := chainAll past (fun y u => (u.countLate c (decide (y.stamp < y.meets))).noteSkip c y.held.picture) s
    let s := s.countLate c (decide (w.stamp < w.meets))
    let s := s.modCtx c (fun y => { y with waiting := y.waiting.drop (past.length + 1), shown := some w.held })
    (s.refreshMarks x.group).noticeGroup x.group

/-- A band's APPLY moves the sync that its picture can meet (R27, R149). -/
def State.raiseMeets (s : State) (c picture apply : Nat) : State :=
  s.modCtx c (fun x => { x with waiting := x.waiting.map (fun w => if w.held.picture = picture then { w with meets := max w.meets apply } else w) })

/-- The marks of every group follow the bands that channels hold (R156), and slices that wait for a descriptor are looked at (R157). -/
def State.syncMarks (s : State) : State := chainAll (s.codec.groups.map (·.1)) (fun g t => (t.refreshMarks g).noticeGroup g) s

/-- RECEPTION_TIMEOUT (R171). -/
def State.receptionTimeout (s : State) (c : Nat) : State := if (s.ctx c).enc then s else (s.endReception c).notice c

def execReceptionTimeout (c : Nat) (s : State) : Out := onInstance (decide (c < 4096)) (s.receptionTimeout c)

end Sys2Proof.Machine
end

