-- ==== Sys2Proof/Machine/Destroy.lean ====
section
/-! DEFINITION. The end of contexts and walls (R37, R130, R281): what is freed once no slice of a context runs. -/

namespace Sys2Proof.Machine

/-- A hewer runs a unit of the context. -/
def State.ctxRuns (s : State) (c : Nat) : Bool := s.codec.hewers.any (fun e => e.2.run.any (fun r => decide (r.what.ctx = c)))

/-- The queue of the context is emptied and freed (R281). -/
def State.freeQueue (s : State) (c : Nat) : State :=
  chainAll [F.SPQ_Q_CFG_SPILL, F.SPQ_Q_CFG_EN, F.SPQ_Q_CFG_SIZE, F.SPQ_Q_CFG_CT, F.SPQ_Q_BASE_LO_ADDR, F.SPQ_Q_BASE_HI_ADDR] (fun F t => t.setF F c (F.reset c)) (s.emptyQueue c)

/-- Riving channels forget the bands of the context. -/
def State.forgetBands (s : State) (c : Nat) : State :=
  s.withLamp (fun w => { w with chans := w.chans.map (fun e => (e.1, { e.2 with bands := e.2.bands.filter (fun b => decide (b.ctx ≠ c)) })) })

/-- A descriptor of a group that is gone: it returns to the pool, but one that the host has pinned stays readable until it is unpinned (R154, R159). -/
def State.dropDesc (s : State) (d : Nat) : State :=
  if s.fb F.STK_DESC_INFO_HOST_PIN d then ((s.setF F.STK_DESC_INFO_DISPLAY d 0).setF F.STK_DESC_INFO_SHORT_TERM d 0).setF F.STK_DESC_INFO_SLOT d 7
  else s.resetDesc d

/-- The group loses a context: its descriptors return to the pool with the last (R154). -/
def State.leaveGroup (s : State) (g : Nat) : State :=
  if s.groupCtxs g ≠ [] then (s.refreshMarks g).noticeGroup g
  else
    let x := s.group g
    ((chainAll (x.descs ++ x.bedDescs) (fun d t => t.dropDesc d) s).setGroup? g none).refreshDescCount

/-- Jobs of bedrock loads of the context end FAILED. -/
def State.endLoads (s : State) (c : Nat) : State := chainAll (s.ctx c).loads (fun l t => t.endJob l.job false stInternal) s

/-- A context without a running slice is gone. -/
def State.removeCtx (s : State) (c : Nat) : State :=
  let g := (s.ctx c).group
  let s := ((s.endLoads c).forgetBands c).freeQueue c
  let s := s.withCodec (fun w => { w with ready := w.ready.filter (fun r => decide (r.ctx ≠ c)), cache := w.cache.filter (· ≠ c) })
  ((((s.setCtx? c none).clearCtxRegs c).leaveGroup g).withHaul (fun w => { w with restageDue := true })).refreshCapacity

/-- No further slice of the context is dispatched; a slice that is ready is dropped (R130). -/
def State.beginEnd (s : State) (c : Nat) : State :=
  (s.modCtx c (fun x => { x with ending := true })).withCodec (fun w => { w with ready := w.ready.filter (fun r => decide (r.ctx ≠ c)) })

/-- The wall is gone: tile map and sync grid are freed (R37). -/
def State.removeWall (s : State) (w : Nat) : State :=
  let s := match (s.wall w).grid with
    | some g => (s.setGrid g {}).setF F.LMP_GRID_STATUS_EN g 0
    | none => s
  s.setWall? w none

/-- One destruction that waits: its contexts without a running slice go; when all are gone, its wall closes and who waits hears of it. -/
def State.reapOne (s : State) (d : Dying) : State :=
  let s := chainAll d.ctxs (fun c t => if (t.ctx? c).isSome && !t.ctxRuns c then t.removeCtx c else t) s
  if d.ctxs.any (fun c => (s.ctx? c).isSome) then s.withCodec (fun w => { w with dying := w.dying ++ [d] })
  else
    let s := match d.wall with
      | some w => s.removeWall w
      | none => s
    match d.who with
    | .update => s
    | who => s.tellWaiter who true

/-- Destructions go on after a slice has completed. -/
def State.reap (s : State) : State := chainAll s.codec.dying (fun d t => t.reapOne d) (s.withCodec (fun w => { w with dying := [] }))

/-- The destruction of contexts begins, for the command of mailbox `m`: its result comes at the end, within 2 ms, or a job does. -/
def State.destroy (s : State) (m : Nat) (cs : List Nat) (wall : Option Nat) : State :=
  let s := chainAll cs (fun c t => t.beginEnd c) s
  if cs.any (fun c => s.ctxRuns c) then
    let job := Config.outlasts s.free
    let s := s.draw
    let who := if job then Waiter.job s.fw.nextJob else Waiter.mailbox m
    let s := if job then s.startJob m (.destroy cs) else s
    (s.withCodec (fun w => { w with dying := w.dying ++ [{ who := who, ctxs := cs, wall := wall }] })).reap
  else s.reapOne { who := .mailbox m, ctxs := cs, wall := wall }

end Sys2Proof.Machine
end

