-- ==== Sys2Proof/Machine/Sched.lean ====
section
/-! DEFINITION. The context scheduler (R128 to R152): dispatch, the start of an encode picture, completion of slices and of bedrock units, and the slice of a hewer that fails (R146). -/

namespace Sys2Proof.Machine

-- ## Shedding as contexts see it (R151)

def State.shedStage (s : State) : Nat := s.f F.PWR_STATUS_STAGE 0

/-- The level that a slice of the context runs at (R133). -/
def State.effortNow (s : State) (c : Nat) : Nat :=
  if 1 ≤ s.shedStage then 0 else min (s.ctx c).act.configured (s.f F.SCH_CTX_EFFORT_CATCHUP c)

-- ## Choice (R145)

/-- Picture numbers from the first of the context's stream to picture `p`. -/
def Ctx.spanTo (x : Ctx) (p : Nat) : Nat := x.span + (x.newest.map (fun n => (p + 65536 - n % 65536) % 65536)).getD 0

/-- Picture `p` of encode context `c` opens a new stream: none is open, 16,384 pictures went by (R152), or a protected stream would hold more than 65,536 (R421). -/
def State.newStream (s : State) (c p : Nat) : Bool :=
  let x := s.ctx c
  x.stream.isNone || decide (16384 ≤ x.skippedRun) || (s.wallProtected x.wall && decide (65536 ≤ x.spanTo p))

/-- STREAM_SERIAL of the stream that picture `p` belongs to: each new stream of a tile takes the next number, whichever context opens it (R78). -/
def State.serialFor (s : State) (c p : Nat) : Nat :=
  let x := s.ctx c
  if s.newStream c p then Tab.get 0 s.codec.serials (65536 * x.wall + x.tile) else x.serial

/-- An encode context may code picture `p`: on a protected wall its parity slot holds a key, which may still serve a stream of the tile where one is to start (R421). -/
def State.keyServes (s : State) (c p : Nat) : Bool :=
  let x := s.ctx c
  !s.wallProtected x.wall ||
    match s.keySlot x.wall (decide (s.serialFor c p % 2 = 1)) with
    | none => false
    | some k => !s.newStream c p || decide (Tab.get 0 k.streams x.tile < 32768)

/-- The slice's picture has a descriptor, or can take one (R157): without one the slice is not ready. -/
def State.descReady (s : State) (r : Ready) : Bool :=
  let x := s.ctx r.ctx
  x.pic.any (fun p => decide (p.hdr.picture = r.picture) && decide (p.desc ≠ noDesc)) || (s.chooseDesc x.group r.picture).isSome

/-- The slice's picture is in progress, or it may start: no slice of an earlier picture of the encode context waits (R145). -/
def State.picReady (s : State) (r : Ready) : Bool :=
  match (s.ctx r.ctx).pic with
  | some p => decide (p.hdr.picture = r.picture)
  | none => r.enc && !s.codec.ready.any (fun q => decide (q.ctx = r.ctx) && q.enc && earlier 16 q.picture r.picture)

/-- The slice may be dispatched now. -/
def State.eligible (s : State) (r : Ready) : Bool :=
  let x := s.ctx r.ctx
  (s.ctx? r.ctx).isSome && !x.ending && (!r.enc || s.keyServes r.ctx r.picture) && decide (s.f F.PWR_STATUS_STATE 0 = 0) && (if r.enc then decide (s.shedStage < 4) else decide (s.shedStage < 5)) &&
    s.picReady r && s.descReady r

/-- `a` goes before `b`: earlier deadline, decode before encode, lower context, lower slice. -/
def Ready.before (a b : Ready) : Bool :=
  let key := fun (r : Ready) => (r.deadline, (if r.enc then 1 else 0), r.ctx, r.slice)
  decide ((key a).1 < (key b).1) || (decide ((key a).1 = (key b).1) &&
    (decide ((key a).2.1 < (key b).2.1) || (decide ((key a).2.1 = (key b).2.1) &&
      (decide ((key a).2.2.1 < (key b).2.2.1) || (decide ((key a).2.2.1 = (key b).2.2.1) && decide ((key a).2.2.2 < (key b).2.2.2))))))

/-- The ready slice that the scheduler dispatches. -/
def State.choice (s : State) : Option Ready :=
  (s.codec.ready.filter (fun r => s.eligible r)).foldl (fun best r => match best with
    | none => some r
    | some b => if r.before b then some r else some b) none

-- ## An encode picture starts (R136 to R138, R163 to R165)

/-- REFINE_K of R136. -/
def refineKOf (count sum : Nat) : Nat := if count = 0 then 0 else ((List.range 16).find? (fun k => decide (sum ≤ count * 2 ^ k))).getD 15

/-- The smallest cap of a slice: R138, or R422 on a protected wall. -/
def minSlice (prot : Bool) (blocks : Nat) : Nat := if prot then 103 + 2 * ((blocks + 3) / 4) else 71 + (blocks + 3) / 4

/-- The budgets of a picture's slices: target in u24.4 and cap in bytes (R138). -/
def budgets (prot : Bool) (x : Ctx) (credit : Int) : List (Nat × Nat) :=
  let b := x.level
  let avail := max b 0
  let tpic := clip (credit + asr (b - (x.act.bucket * 8 : Nat)) 3) 0 avail
  let all : Int := (x.geo.w16 * x.geo.h16 : Nat)
  (List.range x.geo.slices).map (fun i =>
    let n := x.geo.rowsOf i * x.geo.w16
    ((tdiv (tpic * (n : Nat)) all).toNat, min (max (asr (tdiv (avail * (n : Nat)) all) 4).toNat (minSlice prot n)) 4194304))

/-- Credit per picture (R138). -/
def Ctx.credit (x : Ctx) (w : Wall) : Nat := min (x.act.linkRate * w.rateDen * 16 / w.rateNum) (2 ^ 28 - 1)

/-- The stream header that the context writes. -/
def State.ownStream (s : State) (c serial : Nat) : StreamHdr :=
  let x := s.ctx c
  let w := s.wall x.wall
  { version := 2, depthM8 := x.geo.depthM8, colour := x.colour, refineAllowed := x.refineAllowed, wall := x.wall, tile := x.tile, w16 := x.geo.w16, h16 := x.geo.h16, cropR := x.geo.cropR, cropB := x.geo.cropB, sliceRowsM1 := x.geo.sliceRowsM1, maxShort := x.maxShort, bedrockSlots := x.bedSlots, rateNum := w.rateNum, rateDen := w.rateDen, serial := serial }

/-- The picture is coded with KEY = 1 (R137). -/
def Ctx.keyNow (x : Ctx) : Bool := x.keyDue || x.stream.isNone || (decide (x.keyInterval ≠ 0) && decide (x.keyInterval ≤ x.sinceKey))

/-- The key serves one more stream of the tile (R421). -/
def State.useKey (s : State) (wall : Nat) (odd : Bool) (tile : Nat) : State :=
  s.withSec (fun w => { w with keys := w.keys.map (fun k => if k.wall = wall ∧ k.odd = odd then { k with streams := Tab.set 0 k.streams tile (Tab.get 0 k.streams tile + 1) } else k) })

/-- A stream header goes in front of a key picture, in a unit of its own (R76); a new stream stands behind end of stream (R152, R421) and counts against its key. -/
def State.writeStream (s : State) (c stamp picture : Nat) : State :=
  let x := s.ctx c
  let fresh := s.newStream c picture
  let serial := s.serialFor c picture
  let h := s.ownStream c serial
  let bytes := (if x.stream.isSome && fresh then [0xFF, 0xAF] else []) ++ segment 0xA0 (buildStream h)
  let place := 65536 * x.wall + x.tile
  let s := if fresh then (s.useKey x.wall (decide (serial % 2 = 1)) x.tile).withCodec (fun w => { w with serials := Tab.set 0 w.serials place ((serial + 1) % 65536) }) else s
  let s := s.modCtx c (fun y => { y with stream := some h, serial := serial, span := if fresh then 0 else y.span, newest := if fresh then none else y.newest, corrCount := if fresh then 0 else y.corrCount, corrSum := if fresh then 0 else y.corrSum, hdrBytes := y.hdrBytes + bytes.length, labelDue := decide (y.label ≠ []) })
  s.offer c { first := true, last := true, data := bytes, stamp := stamp, unit := { typ := 1, picture := picture } }

/-- The generations that headers name from picture `p` on (R165). -/
def Ctx.renamed (x : Ctx) (p : Nat) : Ctx :=
  let due := x.toName.filter (fun n => !earlier 16 p n.2.2)
  { x with named := due.foldl (fun t n => Tab.set none t n.1 (some n.2.1)) x.named, toName := x.toName.filter (fun n => earlier 16 p n.2.2) }

/-- The picture header of encode picture `p`. -/
def Ctx.ownPicture (x : Ctx) (p : Nat) (key : Bool) : PicHdr :=
  let held := fun k => Tab.get none x.slots k
  let name := fun k => Tab.get none x.named k
  { picture := p, key := key, storeSlot := if x.maxShort = 0 then 7 else x.nextStore,
    refValid := (List.range 4).foldl (fun a k => if (held k).isSome then a + 2 ^ k else a) 0,
    bedrockValid := (List.range 2).foldl (fun a k => if (name k).isSome then a + 2 ^ k else a) 0,
    refPic := (List.range 4).map (fun k => ((held k).map (·.picture)).getD 0),
    bedrockGen := (List.range 2).map (fun k => (name k).getD 0) }

/-- Units of a load from row `row` on, with every repeat; `h16`: block rows of the tile. -/
def BedLoad.unitsLeft (l : BedLoad) (h16 : Nat) : Nat := ceilDiv (h16 - l.row) l.rows + l.repeats * ceilDiv h16 l.rows

/-- A bedrock load takes its credit for picture `p`, and the next unit becomes ready where one remains (R164). -/
def BedLoad.credited (p h16 : Nat) (l : BedLoad) : BedLoad :=
  let c := min (l.credit + (l.trickle : Nat)) (l.trickle : Nat)
  let given := l.readyAt.length + (if l.running then 1 else 0)
  { l with credit := c, readyAt := if 0 ≤ c ∧ given < l.unitsLeft h16 then l.readyAt ++ [p] else l.readyAt }

/-- SOURCE_TIME of R87: 48-bit seconds and 32-bit nanoseconds. -/
def sourceTimeBytes (t : Nat) : List Byte := beBytes 6 (t / 1000000000) ++ beBytes 4 (t % 1000000000)

def metadata (mtype : Nat) (payload : List Byte) : List Byte := segment 0xA5 (beBytes 2 (3 + payload.length) ++ beBytes 1 mtype ++ payload)

/-- The metadata in front of the first picture header of picture `p`: the label after a stream header, and SOURCE_TIME (R87). -/
def Ctx.metaFor (x : Ctx) (p : Nat) : List Byte :=
  let label := if x.labelDue then metadata 1 x.label else []
  let time := if x.sourceTime then metadata 2 (sourceTimeBytes (((x.sources.find? (fun k => decide (k.picture = p))).map (·.time)).getD 0)) else []
  label ++ time

/-- A new encode picture: stream header, bucket, header, budgets and descriptor (R137, R138, R157). -/
def State.startPicture (s : State) (r : Ready) : State :=
  let c := r.ctx
  let key := (s.ctx c).keyNow || s.newStream c r.picture
  let s := if key then s.writeStream c r.stamp r.picture else s
  let x := (s.ctx c).renamed r.picture
  let w := s.wall x.wall
  let credit := x.credit w
  let front := x.metaFor r.picture
  let level := min (x.level + (credit : Nat)) (x.act.bucket * 16 : Nat) - (16 * (x.hdrBytes + front.length) : Nat)
  let x := { x with level := level, hdrBytes := 0, labelDue := false, keyDue := false, skippedRun := 0, sinceKey := if key then 1 else x.sinceKey + 1 }
  let p : Pic := { hdr := x.ownPicture r.picture key, desc := noDesc, stream := x.stream.getD {}, stamp := r.stamp, budget := budgets (s.wallProtected x.wall) x (credit : Nat), meta_ := front }
  let x := { x.nameBeds p.hdr with pic := some { p with raw := buildPicture p.hdr }, newest := some r.picture, span := x.spanTo r.picture, nextStore := if x.maxShort = 0 then 0 else (x.nextStore + 1) % x.maxShort, loads := x.loads.map (BedLoad.credited r.picture x.geo.h16) }
  s.setCtx? c (some x)

/-- The picture in progress takes its descriptor (R157). -/
def State.takeDesc (s : State) (c : Nat) : State :=
  let x := s.ctx c
  match x.pic with
  | none => s
  | some p =>
    if p.desc ≠ noDesc then s
    else
      match s.chooseDesc x.group p.hdr.picture with
      | none => s
      | some d =>
        let s := (s.draw).setF F.STK_DESC_PICTURE_PICTURE d p.hdr.picture
        (s.modCtx c (fun y => { y with pic := some { p with desc := d } })).refreshMarks x.group

-- ## Dispatch (R145)

/-- The slice header of slice `i` of the encode picture in progress. -/
def State.ownSlice (s : State) (c i : Nat) (p : Pic) : SliceHdr :=
  let x := s.ctx c
  let refine := x.refineAllowed && decide (s.shedStage < 3)
  { picture := p.hdr.picture, slice := i, firstRow := i * (x.geo.sliceRowsM1 + 1), rowsM1 := x.geo.rowsOf i - 1,
    key := p.hdr.key || (x.refresh && decide (p.hdr.picture % x.geo.slices = i)), dqp := true, refine := refine, qpInit := s.f F.SCH_CTX_QP_QP_NOW c,
    e := x.e, refineK := if refine then refineKOf x.corrCount x.corrSum else 0 }

/-- The slice whose unit carries the picture's metadata: the first that is dispatched, also when it is redone (R76, R146). -/
def Pic.carrier (p : Pic) (i : Nat) : Nat := p.metaOf.getD i

/-- The bytes before the slice data of an encode slice: metadata, picture header, slice header (R76, R87). -/
def Pic.heads (p : Pic) (h : SliceHdr) : List Byte × List Byte :=
  (if p.carrier h.slice = h.slice then p.meta_ else [], segment 0xA1 p.raw ++ segment 0xA2 (buildSlice h))

/-- A unit of a protected wall takes the key of its stream's parity (R419, R420). -/
def State.sealRun (s : State) (r : Run) : Run :=
  let w := (s.ctx r.what.ctx).wall
  if s.wallProtected w then { r with sealed := true, key := (s.keySlot w (decide (r.stream.serial % 2 = 1))).map (·.key) } else r

/-- The run of an encode slice. -/
def State.encodeRun (s : State) (r : Ready) (p : Pic) : Run :=
  let x := s.ctx r.ctx
  let h := s.ownSlice r.ctx r.slice p
  let b := p.budget.getD r.slice (0, 0)
  let heads := p.heads h
  let run : Run := { what := r, effort := s.effortNow r.ctx, target := b.1, capBytes := b.2, hdr := h, phase := .blocks, stream := p.stream, head := buildSlice h, rice := riceStart false, qp := h.qpInit, integ := x.integ, void := !h.refine, out := heads.1 ++ heads.2, lead := heads.1.length }
  s.sealRun run

/-- The run of a decode slice. -/
def State.decodeRun (s : State) (r : Ready) (p : Pic) : Run :=
  let x := s.ctx r.ctx
  let st := p.stream
  { what := r, stream := st, taken := r.bytes, closed := r.closed, truncated := r.truncated, rice := riceStart (decide (st.version = 1)),
    conceal := r.conceal,
    hdr := { picture := p.hdr.picture, slice := r.slice, firstRow := r.slice * (x.geo.sliceRowsM1 + 1), rowsM1 := x.geo.rowsOf r.slice - 1, key := p.hdr.key } }

/-- Where microcode starts is not given. -/
def State.freshHewer (s : State) (h : Nat) (r : Run) (hit : Bool) : State :=
  let w := s.hewer h
  ((s.setHewer h { w with run := some { r with hewer := h }, pixPc := Config.freeNat 13 s.free % 0x4400, bsPc := Config.freeNat 14 s.free % 0x4400, loops := List.replicate 8 0, tokens := List.replicate 8 0, pixSelf := false, doneEvt := false, ctxHit := hit, signals := {}, bioIn := false, bioOut := false }).setF F.HWR_STATUS_BS_WAIT h 0).draw

/-- The context enters the cache; the least recently dispatched leaves (R145). -/
def State.cacheCtx (s : State) (c : Nat) : State := s.withCodec (fun w => { w with cache := (c :: w.cache.filter (· ≠ c)).take 96 })

/-- Slice `r` starts on hewer `h`. -/
def State.startSlice (s : State) (h : Nat) (r : Ready) : State :=
  let c := r.ctx
  let hit := decide (c ∈ s.codec.cache)
  let s := s.withCodec (fun w => { w with ready := w.ready.erase r })
  let s := (s.ctxHandover c).cacheCtx c
  let s := if r.enc ∧ (s.ctx c).pic = none then s.startPicture r else s
  let s := s.takeDesc c
  match (s.ctx c).pic with
  | none => s
  | some p =>
    let run := if r.enc then s.encodeRun r p else s.decodeRun r p
    let s := if r.enc then (s.modCtx c (fun y => { y with pic := some { p with begun := p.begun ++ [r.slice], metaOf := some (p.carrier r.slice) } })).setF F.SCH_CTX_EFFORT_EFFECTIVE c run.effort else s
    let s := if r.enc ∨ r.conceal ∨ r.redo ∨ r.closed then s else s.frontReset c
    ((s.freshHewer h run hit).setF F.HWR_STATUS_CTX h c).setHwState h hwRun

/-- Ready encode slices whose context cannot start a stream: source 778 and the context group source (R421). -/
def State.keyAlarm (s : State) : State :=
  chainAll ((s.codec.ready.filter (fun r => r.enc && (s.ctx? r.ctx).isSome && !(s.ctx r.ctx).ending && !s.keyServes r.ctx r.picture)).map (·.ctx)).dedup
    (fun c t => (t.setF F.SEC_EVENT_KEY_EXHAUSTED 0 1).raiseCtx c) s

/-- SLICE_DISPATCH: a free hewer takes the ready slice with the earliest deadline. -/
def State.dispatch (s : State) (h : Nat) : State :=
  if s.hwState h ≠ hwIdle ∨ s.fb F.SCH_CTRL_DISPATCH_EN 0 = false ∨ s.fatal = true then s
  else
    let s := s.keyAlarm
    match s.choice with
    | some r => s.startSlice h r
    | none => s

def execSliceDispatch (h : Nat) (s : State) : Out := onInstance (decide (h < 24)) (s.dispatch h)

-- ## Bedrock units (R163 to R166)

/-- The header of the unit that a load sends next. -/
def State.ownBedHdr (s : State) (c : Nat) (l : BedLoad) : SliceHdr :=
  let x := s.ctx c
  let rows := min l.rows (x.geo.h16 - l.row)
  { firstRow := l.row, rowsM1 := rows - 1, key := true, dqp := false, refine := x.refineAllowed && decide (s.shedStage < 3), qpInit := l.qp, e := x.e,
    refineK := if x.refineAllowed then refineKOf x.corrCount x.corrSum else 0, bed := some { slot := l.slot, last := decide (l.row + rows = x.geo.h16), gen := l.gen } }

/-- A build of generation `gen` starts in a slot (R86). -/
def BedSlot.begin (b : BedSlot) (gen : Nat) : BedSlot := { b with building := some gen, nextRow := 0, crc := 0, old := none }

/-- The slot after its areas swapped back: the generation that no header named yet gives way to the one before it. -/
def BedSlot.revert (b : BedSlot) : BedSlot :=
  { b with serving := b.old, colour := b.oldColour, servingCrc := b.oldCrc, fresh := false, old := none }

/-- A unit with row `row` starts or continues a build (R86). DESIGN CHOICE (log entry 98): R158 swaps the areas when a generation passes and R86 keeps the previous generation in service until the new one is named; so a build that begins before that swaps the areas back first, and overwrites the generation that was never named. Safe for a stream that names each generation. -/
def State.beginBuild (s : State) (c k gen row : Nat) : State :=
  let b := (s.ctx c).bed k
  let put := fun (t : State) (v : BedSlot) => t.modCtx c (fun y => { y with beds := Tab.set {} y.beds k v })
  if row ≠ 0 then s
  else if b.fresh ∧ b.old.isSome = true then put (s.swapAreas c k) (b.revert.begin gen)
  else put s (b.begin gen)

/-- The valid bedrock unit at the head of a decode queue. -/
def State.frontBed (s : State) (c : Nat) : Option (SliceHdr × BedHdr × Nat) :=
  let x := s.ctx c
  if (s.ctx? c).isNone || x.enc || x.ending || x.frontDead || s.frontTaken c || (s.frontFirst c).isNone || !s.atThreshold c then none
  else
    match nextSeg ((s.frontData c).1.drop x.frontUsed) with
    | .seg 0xA4 body _ => (s.checkBedUnit c body).1.map (fun p => (p.1, p.2, x.frontUsed))
    | _ => none

/-- The haul PICTURE of the unit at the head. -/
def State.frontPicture (s : State) (c : Nat) : Nat :=
  match (s.ctx c).back with
  | some b => b.picture
  | none => (((s.queue c).fresh.head?).map (fun i => i.tag / 65536)).getD 0

/-- A bedrock unit that could be dispatched: an encode load's, or the one at the head of a decode queue. -/
inductive BedUnit where
  | load (l : BedLoad)
  | front (h : SliceHdr) (d : BedHdr) (skip : Nat)

def State.bedUnit (s : State) (c : Nat) : Option BedUnit :=
  let x := s.ctx c
  if x.enc then (if x.ending || !(x.newest.all (fun p => s.keyServes c p)) then none else (x.loads.find? (fun l => !l.running && decide (l.readyAt ≠ []) && l.src.isSome)).map .load) else (s.frontBed c).map (fun p => .front p.1 p.2.1 p.2.2)

/-- A unit starts on hewer `h`. -/
def State.startBed (s : State) (h c : Nat) (u : BedUnit) : State :=
  let x := s.ctx c
  let hit := decide (c ∈ s.codec.cache)
  let go := fun (t : State) (r : Run) => (((t.cacheCtx c).freshHewer h r hit).setF F.HWR_STATUS_CTX h c).setHwState h hwRun
  match u with
  | .load l =>
    let hd := s.ownBedHdr c l
    let t := s.modCtx c (fun y => { y with
      loads := y.loads.map (fun k => if k.slot = l.slot then { k with readyAt := k.readyAt.drop 1, running := true, crc := if l.row = 0 then 0 else k.crc } else k) })
    let t := if l.doneAt = none then t.beginBuild c l.slot l.gen l.row else t
    go t <| s.sealRun { what := { ctx := c, enc := true, picture := l.readyAt.headD 0 }, bed := true, effort := s.effortNow c, capBytes := 4194304, hdr := hd, phase := .blocks, rice := riceStart false, qp := l.qp, void := !hd.refine, stream := x.stream.getD (s.ownStream c x.serial) }
  | .front hd d skip =>
    let t := (s.beginBuild c d.slot d.gen hd.firstRow).frontReset c
    go t { what := { ctx := c, skip := skip, start := skip, picture := s.frontPicture c, stamp := (s.frontFirst c).getD 0 }, bed := true, hdr := hd, stream := x.stream.getD {}, taken := (x.back.getD {}).bytes, closed := (x.back.getD {}).closed, rice := riceStart false }

/-- BEDROCK_UNIT_DISPATCH: only when no slice is ready and another hewer is idle (R164). -/
def State.bedDispatch (s : State) (h : Nat) : State :=
  if s.hwState h ≠ hwIdle ∨ s.fb F.SCH_CTRL_DISPATCH_EN 0 = false ∨ s.fatal = true ∨ s.f F.PWR_STATUS_STATE 0 = 1 ∨ s.codec.ready.any (fun r => s.descReady r) = true ∨ (allHewers.filter (fun k => decide (k ≠ h) && decide (s.hwState k = hwIdle))) = [] then s
  else
    match s.ctxNums.findSome? (fun c => (s.bedUnit c).map (fun u => (c, u))) with
    | some (c, u) => s.startBed h c u
    | none => s

def execBedrockUnitDispatch (h : Nat) (s : State) : Out := onInstance (decide (h < 24)) (s.bedDispatch h)

-- ## Itemising encode output (R145, R274)

/-- The IV of the unit (R420). -/
def Run.iv (r : Run) : List Byte :=
  match r.hdr.bed with
  | none => gcmIv r.stream r.hdr.picture r.hdr.slice 0 0
  | some d => gcmIv r.stream r.what.picture r.hdr.firstRow 2 d.slot

/-- Slice data as it travels: encrypted on a protected wall. -/
def Run.cipher (r : Run) (bs : List Byte) : List Byte :=
  match r.sealed, r.key with
  | true, some k => gcmXor k r.iv bs
  | _, _ => bs

/-- The tag of ciphertext `ct`. -/
def Run.tag (r : Run) (head ct : List Byte) : List Byte :=
  match r.sealed, r.key with
  | true, some k => Config.gcmTag k r.iv head ct
  | _, _ => []

/-- The stuffed bytes of an encode unit so far. -/
def Run.unitSoFar (r : Run) : List Byte := r.out ++ stuff (r.cipher (bytesOfBits (r.bits.take (r.bits.length / 8 * 8))))

/-- An earlier slice of the same picture still writes into the context's queue. -/
def State.queueBusy (s : State) (r : Run) : Bool :=
  s.codec.hewers.any (fun e => e.2.run.any (fun q => decide (q.what.ctx = r.what.ctx) && q.what.enc && !q.bed && !r.bed && decide (q.what.slice < r.what.slice)))

/-- Data bytes at which a hewer closes an item (R272). -/
def itemBytes : Nat := 4096

/-- Whole items of the run's bytes enter the queue, `n` at most. -/
def State.flushItems (s : State) (h n : Nat) : State :=
  match n with
  | 0 => s
  | k + 1 =>
    match (s.hewer h).run with
    | none => s
    | some r =>
      let all := r.unitSoFar
      let rest := all.drop r.sent
      let fin := decide (r.phase = .finished)
      if rest = [] ∨ (¬ fin ∧ rest.length < itemBytes) then s
      else
        let d := rest.take itemBytes
        let i : Item := { first := decide (r.sent = 0), last := fin && decide (rest.length ≤ itemBytes), data := d, stamp := r.what.stamp, unit := { typ := if r.bed then 2 else 0, picture := r.what.picture, slice := if r.bed then r.hdr.firstRow else r.what.slice, key := r.hdr.key && !r.bed } }
        ((s.offer r.what.ctx i).setHewer h { s.hewer h with run := some { r with sent := r.sent + d.length } }).flushItems h k

/-- The run's bytes enter the spill queue, in the order of the picture's slices; a bedrock unit once it is whole; a quiet slice never (R146). -/
def State.flush (s : State) (h : Nat) : State :=
  match (s.hewer h).run with
  | none => s
  | some r =>
    if !r.what.enc || r.what.quiet || s.queueBusy r || (r.bed && decide (r.phase ≠ .finished)) then s
    else s.flushItems h (r.unitSoFar.length + 1)

-- ## Concealment (R172)

/-- The DC of the row above, or the default (order 3). -/
def dcAbove (depth colour w16 firstRow : Nat) (done : List BlockOut) (row col c : Nat) : List Int :=
  if firstRow < row then
    let b := sliceBlock done w16 firstRow (row - 1) col
    List.replicate 256 (asr (sumInt ((List.range 16).map (fun x => b.at c x 15)) + 8) 4)
  else List.replicate 256 (compDefault depth colour c)

/-- Block `k` of the tile stored at `base` reads as poison: a line of its index entry or of its data does (R174). -/
def State.blockBad (s : State) (c base colour k : Nat) : Bool :=
  let x := s.ctx c
  let b := s.tileBase c base
  let a := blockAt b x.geo.depth colour (x.geo.w16 * x.geo.h16) k
  decide ((b + 2 * k) / 64 ∈ s.mem.poison) || (List.range (natOfLe (s.dramBytes (b + 2 * k) 2) % 32)).any (fun i => decide (a / 64 + i ∈ s.mem.poison))

/-- The co-located block of the previous displayed picture does. -/
def State.prevBad (s : State) (c k : Nat) : Bool := (s.ctx c).prev.any (fun p => s.blockBad c (s.desc p.desc).base p.colour k)

/-- The co-located block of a bedrock generation that picture header `h` names does. -/
def State.bedBad (s : State) (c : Nat) (h : PicHdr) (slot k : Nat) : Bool := s.blockBad c (s.bedBase c slot (h.bedrockGen.getD slot 0)) ((s.ctx c).bedColour slot (h.bedrockGen.getD slot 0)) k

/-- The previous displayed picture, or order 3. -/
def State.fromPrev (s : State) (r : Run) (row col : Nat) : BlockOut :=
  let x := s.ctx r.what.ctx
  { concealed := true, samples := (List.range 3).map (fun c =>
      if x.prev.isSome && !s.prevBad r.what.ctx (row * x.geo.w16 + col) then predCopy row col c (s.heldRef (hewerReq r.hewer) r.what.ctx x.prev)
      else dcAbove x.geo.depth r.stream.colour x.geo.w16 r.hdr.firstRow r.done row col c) }

/-- A concealed block, from the first source whose read is not poisoned (R172, R174). -/
def State.concealBlock (s : State) (r : Run) (row col : Nat) : BlockOut :=
  let x := s.ctx r.what.ctx
  let h := (x.pic.map (·.hdr)).getD {}
  match (List.range 2).find? (fun k => h.bedrockValid.testBit k && x.bedHeld false h k && !s.bedBad r.what.ctx h k (row * x.geo.w16 + col)) with
  | some k => { concealed := true, samples := (List.range 3).map (fun c => predCopy row col c ((s.refSet (hewerReq r.hewer) r.what.ctx h).bedrock k)) }
  | none => s.fromPrev r row col

/-- Blocks of the unit. -/
def Run.total (r : Run) (w16 : Nat) : Nat := (r.hdr.rowsM1 + 1) * w16

def Run.rowOf (r : Run) (w16 n : Nat) : Nat := r.hdr.firstRow + n / w16

/-- The next block of a run is concealed. -/
def State.concealNext (s : State) (r : Run) : Run :=
  let w := (s.ctx r.what.ctx).geo.w16
  { r with done := r.done ++ [s.concealBlock r (r.rowOf w r.done.length) (r.done.length % w)] }

/-- Every block that is still open is concealed. -/
def State.concealRest (s : State) (r : Run) (n : Nat) : Run :=
  match n with
  | 0 => r
  | k + 1 => s.concealRest (s.concealNext r) k

/-- The blocks with which a decode slice completes: the whole slice concealed where its end was in error (R84, R169). -/
def State.finalBlocks (s : State) (r : Run) : Run :=
  let n := r.total (s.ctx r.what.ctx).geo.w16
  if r.wholeConceal then s.concealRest { r with done := [] } n else s.concealRest r (n - r.done.length)

-- ## Completion (R147 to R150, R166)

/-- Blocks of a run are written at `base`. -/
def State.storeBlocks (s : State) (c base : Nat) (r : Run) : State :=
  let x := s.ctx c
  let n := x.geo.w16 * x.geo.h16
  chainAll (List.range r.done.length) (fun i t =>
    t.storeOne (t.tileBase c base) x.geo.depth r.stream.colour n (r.hdr.firstRow * x.geo.w16 + i) (r.done.getD i {})) s

/-- Lateness of a completed slice and the catch-up level (R148 to R150). -/
def State.noteLateness (s : State) (c : Nat) (enc : Bool) (deadline : Nat) : State :=
  let late := s.now - deadline
  if 0 < late then
    let s := (s.stat c stLateSlices 1).modCtx c (fun x => x.maxStat stMaxLateness late)
    let s := s.count F.SCH_LATE_TOTAL_COUNT 0 F.SCH_CNT_SAT_LATE_TOTAL_SAT 0 0
    let s := if enc then s.raiseCtx c else s
    let s := if s.lrem c = 0 then s.stat c stCatchup 1 else s
    let s := s.setF F.SCH_CTX_LATE_LREM c (min (s.lrem c + late) 16777215)
    s.setF F.SCH_CTX_EFFORT_CATCHUP c (s.f F.SCH_CTX_EFFORT_CATCHUP c - 1)
  else if s.lrem c = 0 then s.setF F.SCH_CTX_EFFORT_CATCHUP c (s.ctx c).act.configured
  else s

/-- Counters of a completed unit. -/
def State.countUnit (s : State) (c : Nat) (r : Run) (bytes : Nat) : State :=
  let s := s.modCtx c (fun x => { x with bytes := (x.bytes + bytes) % 2 ^ 64 })
  if r.bed then s
  else
    let s := s.stat c stSlices 1
    let s := if r.void then s.stat c stVoid 1 else s
    if r.fallback && r.what.enc then s.stat c stFallback 1 else s

/-- The values that an encode slice leaves to its context (R136, R138, R140). -/
def State.encodeDone (s : State) (c : Nat) (r : Run) (bytes : Nat) : State :=
  let s := s.modCtx c (fun x => { x with
    level := x.level - (16 * bytes : Nat), integ := r.integ,
    corrCount := if r.hdr.refine then r.corrCount else x.corrCount, corrSum := if r.hdr.refine then r.corrSum else x.corrSum })
  s.setF F.SCH_CTX_QP_QP_NOW c r.qp

/-- The bytes that CRC64 runs over, for the rows of a unit (R86). -/
def crcBytes (w16 : Nat) (done : List BlockOut) : List Byte :=
  (List.range (done.length / w16 * 16)).flatMap (fun y =>
    (List.range (16 * w16)).flatMap (fun x =>
      (List.range 3).flatMap (fun c => beBytes 3 (unsigned 24 ((done.getD (y / 16 * w16 + x / 16) {}).at c (x % 16) (y % 16))))))

/-- The slot after generation `gen` passed its check: it serves, and BUILDING holds the one before it. -/
def BedSlot.pass (b : BedSlot) (gen crc colour : Nat) : BedSlot :=
  { b with serving := some gen, colour := colour, fresh := true, servingCrc := crc, old := b.serving, oldColour := b.colour, oldCrc := b.servingCrc, building := none, nextRow := 0, crc := 0, recheck := false }

/-- A generation passes its check: the areas swap (R158, R166). -/
def State.swapBed (s : State) (c k gen crc colour : Nat) : State :=
  (s.swapAreas c k).modCtx c (fun x => { x with beds := Tab.set {} x.beds k ((x.bed k).pass gen crc colour) })

/-- A generation fails its check (R166). -/
def State.bedCrcFail (s : State) (c k : Nat) : State :=
  let s := (s.abandonBuild c k).stat c (stErr errBedCrc) 1
  let s := s.count F.STK_CRC_FAIL_COUNT 0 F.STK_CNT_SAT_CRC_FAIL_SAT 0 0
  (s.logFirmware 3).raiseCtx c

/-- The rows of a unit join the build of their slot; its CRC-64 after them. -/
def State.joinBuild (s : State) (c k : Nat) (r : Run) : State × Nat :=
  let x := s.ctx c
  let crc := (crc64From (BitVec.ofNat 64 (x.bed k).crc) (crcBytes x.geo.w16 r.done)).toNat
  let s := s.storeBlocks c (s.bedAreas c k).2 r
  (s.modCtx c (fun y => { y with beds := Tab.set {} y.beds k { (y.bed k) with nextRow := r.hdr.firstRow + r.hdr.rowsM1 + 1, crc := crc } }), crc)

/-- A received bedrock unit completes (R86, R166, R168). -/
def State.bedReceived (s : State) (c : Nat) (r : Run) (d : BedHdr) : State :=
  if ((s.ctx c).bed d.slot).building ≠ some d.gen then s
  else if r.conceal || r.wholeConceal then (s.abandonBuild c d.slot).stat c (stErr errBedUnit) 1
  else
    let j := s.joinBuild c d.slot r
    if !d.last then j.1
    else if j.2 = d.crc then (j.1.swapBed c d.slot d.gen j.2 r.stream.colour).noticeGroup (s.ctx c).group
    else (j.1.bedCrcFail c d.slot).noticeGroup (s.ctx c).group

/-- The load after a unit of `bytes` bytes: credit, the next row, and after the last row the next sending (R163 to R165). -/
def BedLoad.after (l : BedLoad) (rows h16 bytes picture crc : Nat) : Option BedLoad :=
  let l := { l with credit := l.credit - (bytes : Nat), running := false, row := l.row + rows, crc := crc }
  if l.row < h16 then some l
  else if l.repeats = 0 then none
  else some { l with row := 0, repeats := l.repeats - 1, doneAt := some (l.doneAt.getD picture) }

/-- A unit of an encode load completes. -/
def State.bedSent (s : State) (c : Nat) (r : Run) (d : BedHdr) (bytes : Nat) : State :=
  let x := s.ctx c
  match x.loads.find? (fun l => l.slot = d.slot) with
  | none => s
  | some l =>
    let pic := x.newest.getD 0
    let crc := (crc64From (BitVec.ofNat 64 l.crc) (crcBytes x.geo.w16 r.done)).toNat
    let first := decide (l.doneAt = none)
    let s := if first then (s.joinBuild c d.slot r).1 else s
    let s := if first && d.last then
        (s.swapBed c d.slot d.gen crc r.stream.colour).modCtx c (fun y => { y with toName := y.toName ++ [(d.slot, d.gen, (pic + l.nameDelay) % 65536)] })
      else s
    let next := l.after (r.hdr.rowsM1 + 1) x.geo.h16 bytes pic crc
    let s := s.modCtx c (fun y => { y with loads := y.loads.filterMap (fun k => if k.slot = d.slot then next else some k) })
    if next.isNone then s.endJob l.job true stOk else s

/-- Whether the hewer's unit can complete. -/
def State.canComplete (s : State) (h : Nat) : Bool :=
  match (s.hewer h).run with
  | none => false
  | some r =>
    if r.what.enc then decide (r.phase = .finished) && (r.what.quiet || decide (r.sent = r.unitSoFar.length))
    else decide (r.phase = .finished) || r.conceal || r.wholeConceal

/-- Bytes of the unit, without metadata. -/
def Run.unitBytes (r : Run) : Nat := if r.what.enc then r.unitSoFar.length - r.lead else min r.taken.length (max r.used r.what.start) - r.what.start

/-- The hewer has no unit any more: IDLE, DRAINED or OUT (R191, R193). -/
def State.hewerFreed (s : State) (h : Nat) : State :=
  let w := s.hewer h
  let s := (s.setF F.HWR_STATUS_CTX h 0).setF F.HWR_STATUS_BS_WAIT h 0
  let s := s.setHewer h { w with run := none, doneEvt := false, pixSelf := false }
  if s.hwState h = hwDraining then
    ((s.setHewer h { s.hewer h with goOut := false, drainFor := [] }).setHwState h (if w.goOut then hwOut else hwDrained)).tellDrained h w.drainFor
  else if s.hwState h = hwRun then s.setHwState h hwIdle
  else s

/-- The first vectors of an encode slice's INTER blocks, for the next picture's search (R132). -/
def Ctx.noteVecs (x : Ctx) (r : Run) : Ctx :=
  { x with vecs := (List.range r.done.length).foldl (fun t i => Tab.set (0, 0) t (r.hdr.firstRow * x.geo.w16 + i) (r.done.getD i {}).mv0) x.vecs }

/-- A slice completes (R147). -/
def State.finishSlice (s : State) (c : Nat) (r : Run) : State :=
  let r := if r.what.enc then r else s.finalBlocks r
  let conc := r.done.any (·.concealed)
  let bytes := r.unitBytes
  let n := (r.done.filter (·.concealed)).length
  let s := s.stat c (stErr errConcBlocks) n
  let s := match (s.ctx c).pic with
    | some p => s.storeBlocks c (s.desc p.desc).base r
    | none => s
  let s := (s.countUnit c r bytes).noteLateness c r.what.enc r.what.deadline
  let s := if r.what.enc then (s.encodeDone c r bytes).modCtx c (fun x => x.noteVecs r) else s
  match (s.ctx c).pic with
  | some p => s.sliceDone c r.what.slice ((s.ctx c).sliceConcealed p r.hdr.key conc r.what.slice && !r.what.enc)
  | none => s

/-- A bedrock unit completes. -/
def State.finishBed (s : State) (c : Nat) (r : Run) : State :=
  match r.hdr.bed with
  | none => s
  | some d =>
    let s := s.countUnit c r r.unitBytes
    if r.what.enc then s.bedSent c r d r.unitBytes else s.bedReceived c r d

/-- Parsing goes on in the bytes of a unit behind the slice that has completed: behind its trailer, or after an error at the next marker other than 0xA3 (R169). Nothing of a truncated unit is parsed further (R170). -/
def State.parseOn (s : State) (c : Nat) (r : Run) : State :=
  let bad := r.conceal || r.wholeConceal
  if r.what.conceal || r.truncated || decide (r.phase = .headers) || (!bad && decide (r.taken.length ≤ r.used)) || (bad && r.closed && decide ((r.taken.drop r.used).length ≤ toMarker (· ≠ 0xA3) (r.taken.drop r.used) + 1)) || s.frontTaken c then s
  else s.modCtx c (fun x => { x with back := some { bytes := r.taken, closed := r.closed, stamp := r.what.stamp, picture := r.what.picture }, frontUsed := r.used, hunt := bad })

/-- SLICE_COMPLETE: the unit of hewer `h` finishes; lateness, catch-up, marks, bands and counters follow. -/
def State.sliceComplete (s : State) (h : Nat) : State :=
  let s := s.flush h
  if !s.canComplete h then s
  else
    match (s.hewer h).run with
    | none => s
    | some r =>
      let c := r.what.ctx
      let s := (s.hewerFreed h).count F.HWR_SLICES_COUNT h F.HWR_CNT_SAT_SLICES_SAT h 1
      let s := if r.bed then s.finishBed c r else s.finishSlice c r
      (if r.what.enc then s else (s.parseOn c r).notice c).reap

def execSliceComplete (h : Nat) (s : State) : Out := onInstance (decide (h < 24)) (s.sliceComplete h)

-- ## A hewer fails (R146)

/-- Items at the tail of a queue that belong to the unit in progress. -/
def unitTail (l : List Item) : Nat :=
  match l.reverse.findIdx? (·.first) with
  | some i => i + 1
  | none => l.length

/-- The slice of a failed hewer goes back to the scheduler. -/
def State.redoSlice (s : State) (c : Nat) (r : Run) : State :=
  let again := fun (t : State) (x : Ready) => (t.withCodec (fun w => { w with ready := w.ready ++ [x] })).stat c stRedispatch 1
  if r.bed then
    match r.hdr.bed with
    | none => s
    | some d =>
      if r.what.enc then s.modCtx c (fun x => { x with loads := x.loads.map (fun l => if l.slot = d.slot then { l with readyAt := r.what.picture :: l.readyAt, running := false } else l) })
      else (s.abandonBuild c d.slot).stat c (stErr errBedUnit) 1
  else if !r.what.enc then again s { r.what with redo := true, bytes := r.taken, closed := r.closed, truncated := r.truncated }
  else if r.sent = 0 ∨ r.what.quiet then again s { r.what with redo := true }
  else
    let k := s.queue c
    let n := unitTail k.items
    let whole := decide (n = k.items.length)
    let inQueue := dataBytes (k.items.drop (k.items.length - n)) - (if whole then k.sent else 0)
    let s := (s.setQueue c { k with items := k.items.take (k.items.length - n), sent := if whole then 0 else k.sent }).settle c
    let s := if whole then s.modCtx c (fun x => { x with egSent := 0 }) else s
    if inQueue = r.sent then again s { r.what with redo := true }
    else again (s.modCtx c (fun x => { x with keyDue := true })) { r.what with redo := true, quiet := true }

/-- HEWER_FAULT: the hewer stops in FAULT with the bit `F'` of HWR_FAULT (R195), whatever it was at (R196): its slice goes back, a drain ends with OK, a test counts as failed, a load stops. `cls`: the sequencer. -/
def State.hewerFault (s : State) (h : Nat) (F' : Fld) (fsid cls addr : Nat) : State :=
  let w := s.hewer h
  let clean := decide (s.f F.HWR_FAULT_TOKEN_OVF h + s.f F.HWR_FAULT_ADDR_RANGE h + s.f F.HWR_FAULT_BRANCH_FORM h + s.f F.HWR_FAULT_WAIT_TIMEOUT h + s.f F.HWR_FAULT_LM_UNCORR h + s.f F.HWR_FAULT_PARITY h = 0)
  let s := if clean then (s.setF F.HWR_FAULT_ADDR_CLASS h cls).setF F.HWR_FAULT_ADDR_ADDR h addr else s
  let s := (s.setF F' h 1).setF F.HWR_STATUS_BS_WAIT h 0
  let was := s.hwState h
  let s := (s.setF F.HWR_STATUS_CTX h 0).setHewer h { w with run := none, doneEvt := false, pixSelf := false, goOut := false, drainFor := [], testFor := .none, loading := none, loadFor := .none, patchEvt := w.patchEvt || decide (was = hwPatching), faults := s.now :: w.faults.filter (fun t => decide (s.now < t + 86400000000000)) }
  let s := s.setHwState h hwFault
  let s := if was = hwDraining then s.tellDrained h w.drainFor else s
  let s := if was = hwPatching ∧ s.codec.update.isNone then s.freeLock 3 else s
  let s := ((s.tellWaiter w.testFor false).tellWaiter w.loadFor false).updateWakes h
  let s := match w.run with
    | some r => s.redoSlice r.what.ctx r
    | none => s
  (s.reap).raiseFault fsid h (leBytes 4 (s.f F.HWR_FAULT_ADDR_ADDR h + 65536 * s.f F.HWR_FAULT_ADDR_CLASS h))

end Sys2Proof.Machine
end

