-- ==== Sys2Proof/Machine/Work.lean ====
section
/-! DEFINITION. The unit of work that microcode completes: parsing, reconstructing and concealing a block of a decode unit (R68 to R108, R168 to R174). -/

namespace Sys2Proof.Machine

def State.setRun (s : State) (h : Nat) (r : Run) : State := s.setHewer h { s.hewer h with run := some r }

/-- The block layer's view of a unit. -/
def State.blockCtx (s : State) (r : Run) : BlockCtx :=
  let x := s.ctx r.what.ctx
  let p := (x.pic.map (·.hdr)).getD {}
  { v1 := decide (r.stream.version = 1), depth := x.geo.depth, colour := r.stream.colour, w16 := x.geo.w16, h16 := x.geo.h16,
    refValid := if r.bed then 0 else p.refValid, bedrockValid := if r.bed then 3 else p.bedrockValid, building := r.hdr.bed.map (·.slot) }

/-- The picture header that a unit reads by; in a bedrock unit the generations served. -/
def State.headerOf (s : State) (r : Run) : PicHdr :=
  let x := s.ctx r.what.ctx
  if r.bed then { bedrockValid := 3, bedrockGen := (List.range 2).map (fun k => ((x.bed k).serving).getD 0) } else (x.pic.map (·.hdr)).getD {}

-- ## Errors of a decode unit (R168, R169)

/-- A syntax error in the block in progress: it and every later block are concealed. -/
def State.unitError (s : State) (h : Nat) (r : Run) (j : Nat) : State :=
  (s.setRun h { r with conceal := true, parsed := none }).stat r.what.ctx (stErr j) 1

/-- An error at the unit's end: the whole slice is concealed. -/
def State.endError (s : State) (h : Nat) (r : Run) (j : Nat) : State :=
  (s.setRun h { r with wholeConceal := true, phase := .finished }).stat r.what.ctx (stErr j) 1

/-- The size limit of R95 in the unit's bytes. -/
def sizeLimit : Nat := 4194304

/-- The bytes of the unit that the limit admits. -/
def Run.within (r : Run) : List Byte := r.taken.take (r.what.start + sizeLimit)

def Run.pastLimit (r : Run) : Bool := decide (r.what.start + sizeLimit < r.taken.length)

-- ## Parsing (R71, R72, R81 to R85)

/-- The slice or bedrock header of a unit. -/
def State.parseHead (s : State) (h : Nat) (r : Run) : State :=
  match nextSeg (r.taken.drop r.what.skip) with
  | .wait => if r.closed then s.unitError h r errTruncated else s
  | .bad => s.unitError h r errMarker
  | .badLength => s.unitError h r errHeader
  | .seg _ body used =>
    let st := r.stream
    let v1 := decide (st.version = 1)
    match if r.bed then parseBedrock st body else parseSlice v1 body with
    | none => s.unitError h r errHeader
    | some hd =>
      let q := s.sealRun { r with hdr := hd, head := body, used := r.what.skip + used, phase := .blocks, rice := riceStart v1, qp := hd.qpInit }
      if q.sealed && q.key.isNone then s.gcmFail.endError h q errTrailer else s.setRun h q

/-- Slice data as the block layer reads it; of a protected unit the last 16 bytes are held back as the tag (R423). -/
def Run.plain (r : Run) (d : List Byte) : List Byte := if r.sealed then r.cipher (d.take (d.length - 16)) else d

/-- The QP change that opens a row (R89). -/
def readRow (dqp : Bool) (qp : Nat) : Rd Nat :=
  if !dqp then Rd.ret qp
  else Rd.andThen (readSe 0) (fun d => if (qp : Int) + d < 0 ∨ 127 < (qp : Int) + d then Rd.fail .blockSyntax else Rd.ret ((qp : Int) + d).toNat)

/-- The next block with the QP change of its row: QP, elements and Rice contexts. -/
def State.readNext (s : State) (r : Run) : Rd (Nat × BlockElems × List RiceCtx) :=
  let x := s.blockCtx r
  let n := r.done.length
  let row := r.rowOf x.w16 n
  let p0 := mvPred r.done x.w16 r.hdr.firstRow row (n % x.w16) false
  let p1 := mvPred r.done x.w16 r.hdr.firstRow row (n % x.w16) true
  Rd.andThen (readRow (r.hdr.dqp && decide (n % x.w16 = 0)) r.qp) (fun qp =>
    Rd.andThen (Sys2Proof.Machine.readBlock x r.hdr p0 p1 r.rice) (fun b => Rd.ret (qp, b.1, b.2)))

/-- What the read of a block that ran out of bits means (R72, R95, R170). -/
def State.shortRead (s : State) (h : Nat) (r : Run) (e : RunEnd) : State :=
  match e with
  | .marker _ => s.unitError h r errMarker
  | .bad => s.unitError h r errMarker
  | .open_ => if r.pastLimit then s.unitError h r errSize else if r.closed then s.unitError h r errTruncated else s

/-- The block that the elements give, and the clips that acted. -/
def State.buildBlock (s : State) (r : Run) (b : BlockElems) : BlockOut × Clips :=
  let x := s.blockCtx r
  let n := r.done.length
  reconBlock x r.hdr (s.refSet (hewerReq r.hewer) r.what.ctx (s.headerOf r)) r.done (r.rowOf x.w16 n) (n % x.w16) r.qp (scan (tuPoints b.tsize)) b

/-- Blocks that a prediction with vector component `v` reads along one axis of `n` blocks, for the block at `p` (R113, R114). -/
def readSpan (n p : Nat) (v : Int) : List Nat :=
  let frac := decide (v % 4 ≠ 0)
  let at_ := fun (x : Int) => (Sys2Proof.Machine.clip x 0 (16 * (n : Int) - 1)).toNat / 16
  let a := at_ (16 * p + asr v 2 + (if frac then -2 else 0))
  let b := at_ (16 * p + 15 + asr v 2 + (if frac then 3 else 0))
  (List.range (b + 1 - a)).map (a + ·)

/-- The stored blocks that a prediction from the picture of slot `k` that header `hd` names reads: storage, colour and block. -/
def State.interReads (s : State) (c : Nat) (hd : PicHdr) (row col k : Nat) (mv : Int × Int) : List (Nat × Nat × Nat) :=
  let x := s.ctx c
  ((x.slotPic hd k).toList).flatMap (fun p => (readSpan x.geo.h16 row mv.2).flatMap (fun y => (readSpan x.geo.w16 col mv.1).map (fun u => ((s.desc p.desc).base, p.colour, y * x.geo.w16 + u))))

/-- The stored blocks that the prediction of the next block reads. -/
def State.blockReads (s : State) (r : Run) (b : BlockElems) : List (Nat × Nat × Nat) :=
  let c := r.what.ctx
  let x := s.ctx c
  let w := x.geo.w16
  let row := r.rowOf w r.done.length
  let col := r.done.length % w
  let hd := s.headerOf r
  match b.mode with
  | .inter =>
    let o := (s.buildBlock r b).1
    s.interReads c hd row col b.ref0 o.mv0 ++ (if b.bi then s.interReads c hd row col b.ref1 (o.mv1.getD (0, 0)) else [])
  | .bedrock => let g := hd.bedrockGen.getD b.bslot 0; [(s.bedBase c b.bslot g, x.bedColour b.bslot g, row * w + col)]
  | .hold => (x.prev.toList).map (fun p => ((s.desc p.desc).base, p.colour, row * w + col))
  | _ => []

/-- The prediction of the next block reads poisoned data (R174). -/
def State.readBad (s : State) (r : Run) (b : BlockElems) : Bool :=
  if s.mem.poison = [] then false else (s.blockReads r b).any (fun e => s.blockBad r.what.ctx e.1 e.2.1 e.2.2)

/-- The reads of a prediction reach the arbiters: each block's index entry and its stored units (R314). -/
def State.presentReads (s : State) (r : Run) (b : BlockElems) : State :=
  let x := s.ctx r.what.ctx
  chainAll (s.blockReads r b) (fun e t =>
    let p := s.tileBase r.what.ctx e.1
    let q := hewerReq r.hewer
    (t.presentLines q (p + 2 * e.2.2) 2 false true).presentLines q (blockAt p x.geo.depth e.2.1 (x.geo.w16 * x.geo.h16) e.2.2) (64 * (s.indexEntry q p e.2.2 % 32)) false true) s

/-- The next block is parsed. -/
def State.parseBlock (s : State) (h : Nat) (r : Run) : State :=
  let d := unstuff (r.within.length + 1) (r.within.drop r.used)
  let bits := bitsOfBytes (r.plain d.1)
  match s.readNext r (bits.drop r.pos) with
  | .ok (x, rest) => s.setRun h { r with qp := x.1, rice := x.2.2, parsed := some x.2.1, bi := x.2.1.bi, pos := bits.length - rest.length, badRef := s.readBad { r with qp := x.1 } x.2.1 }
  | .error .short => s.shortRead h r d.2.1
  | .error .blockSyntax => s.unitError h r errSyntax
  | .error .refSlot => s.unitError h r errRefSlot

/-- The unit's bytes end here without what should follow them: too large, closed, or more to come (R82). -/
def State.endShort (s : State) (h : Nat) (r : Run) : State :=
  if r.pastLimit then s.endError h r errSize
  else if r.closed then s.endError h r errTruncated
  else s

/-- The trailer segment whose body is `body`, met after the entropy bytes `taken`, of which `cut` bytes come before the tag of a protected unit (R70, R84, R423). -/
def State.endTrailer (s : State) (h : Nat) (r : Run) (taken data body : List Byte) (cut : Nat) (extra : Bool) (used : Nat) : State :=
  if r.sealed && decide (taken.drop cut ≠ r.tag r.head (taken.take cut)) then s.gcmFail.endError h r errTrailer
  else
    match parseTrailer (s.blockCtx r).v1 r.hdr (s.blockCtx r).w16 r.done.length (r.head ++ data) body with
    | none => s.endError h r errTrailer
    | some t => s.setRun h { r with phase := .finished, void := t.void, fallback := t.fallback, wholeConceal := extra, used := used }

/-- The marker at the head of `rest`, met after the entropy bytes `taken` (R82, R84). DESIGN CHOICE (log entry 91): where it is no trailer marker, MARKER counts and the whole slice is concealed, since the slice has no trailer to check. Safe only for slices that end in a trailer. -/
def State.endMarker (s : State) (h : Nat) (r : Run) (taken data rest : List Byte) (cut : Nat) (extra : Bool) : State :=
  if byteAt rest 1 ≠ 0xA3 then (if extra then s.setRun h { r with wholeConceal := true, phase := .finished } else s.endError h r errMarker)
  else
    match nextSeg rest with
    | .wait => s.endShort h r
    | .bad => s.endError h r errTrailer
    | .badLength => s.endError h r errTrailer
    | .seg _ body used => s.endTrailer h r taken data body cut extra (r.within.length - rest.length + used)

/-- Bytes stand between the padding and the next marker (R442): they are discarded up to that marker, and BLOCK_SYNTAX counts once, when it or the end of the data has come. -/
def State.endExtra (s : State) (h : Nat) (r : Run) (taken data rest : List Byte) (cut : Nat) : State :=
  let rest := rest.drop (toMarker (fun _ => true) rest)
  let t := s.stat r.what.ctx (stErr errSyntax) 1
  if 2 ≤ rest.length then
    (if byteAt rest 1 = 0xA3 ∧ nextSeg rest = .wait ∧ r.closed = false ∧ r.pastLimit = false then s else t.endMarker h r taken data rest cut true)
  else if r.pastLimit || r.closed then t.endShort h r
  else s

/-- Padding, and the trailer (R70, R82, R84, R442). A pad bit of 1 counts BLOCK_SYNTAX; no block is open, so every block keeps its samples (R169). -/
def State.parseEnd (s : State) (h : Nat) (r : Run) : State :=
  let d := unstuff (r.within.length + 1) (r.within.drop r.used)
  let n := ceilDiv r.pos 8
  let plain := r.plain d.1
  let data := plain.take n
  if ((bitsOfBytes data).drop r.pos).any id then s.unitError h r errSyntax
  else if n < plain.length then s.endExtra h r d.1 data d.2.2 plain.length
  else
    match d.2.1 with
    | .open_ => s.endShort h r
    | .bad => s.endError h r errMarker
    | .marker _ => s.endMarker h r d.1 data d.2.2 plain.length false

/-- Work `parse` of a bitstream word on hewer `h`. -/
def State.parseWork (s : State) (h : Nat) : State :=
  match (s.hewer h).run with
  | none => s
  | some r =>
    if r.what.enc || r.conceal || r.wholeConceal || r.parsed.isSome then s
    else
      match r.phase with
      | .headers => s.parseHead h r
      | .blocks => if r.done.length < r.total (s.ctx r.what.ctx).geo.w16 then s.parseBlock h r else s.parseEnd h r
      | _ => s

-- ## Reconstruction (R107, R173, R174)

/-- The block names a picture or generation that is not held (R173). -/
def State.refMissing (s : State) (r : Run) (b : BlockElems) : Bool :=
  let x := s.ctx r.what.ctx
  let p := s.headerOf r
  match b.mode with
  | .inter => !x.slotHeld p b.ref0 || (b.bi && !x.slotHeld p b.ref1)
  | .bedrock => !x.bedHeld r.bed p b.bslot
  | .hold => x.prev.isNone
  | _ => false

/-- Work `reconstruct` of a pixel word. -/
def State.reconWork (s : State) (h : Nat) : State :=
  match (s.hewer h).run with
  | none => s
  | some r =>
    match r.parsed with
    | none => s
    | some b =>
      let c := r.what.ctx
      let w := (s.ctx c).geo.w16
      let n := r.done.length
      let s := if b.mode = .pcm then s.stat c stPcm 1 else s
      let s := if s.refMissing r b then s else s.presentReads r b
      if s.refMissing r b then
        let o := s.fromPrev r (r.rowOf w n) (n % w)
        let o := if b.mode = .inter then { o with inter := true, mv0 := (s.buildBlock r b).1.mv0, mv1 := (s.buildBlock r b).1.mv1 } else o
        (s.setRun h { r with parsed := none, done := r.done ++ [o], badRef := false, clip := {} }).stat c (stErr errRefMissing) 1
      else if r.badRef then ((s.setRun h { s.concealNext r with parsed := none, badRef := false, clip := {} }).stat c (stErr errPoison) 1)
      else
        let o := s.buildBlock r b
        let s := if o.2.transform then s.stat c stClip 1 else s
        s.setRun h { r with parsed := none, done := r.done ++ [o.1], clip := o.2 }

/-- Work `conceal` of a pixel word, and the event CONCEAL (R185): the block in progress is concealed (R172), where it is in error or reads poison; of any other block decode results do not depend on the microcode (R189). -/
def State.concealWork (s : State) (h : Nat) : State :=
  match (s.hewer h).run with
  | none => s
  | some r =>
    if r.badRef && !r.what.enc then s.reconWork h
    else if r.what.enc || decide (r.total (s.ctx r.what.ctx).geo.w16 ≤ r.done.length) || !r.conceal then s
    else s.setRun h { s.concealNext r with parsed := none, badRef := false }

end Sys2Proof.Machine
end

