-- ==== Sys2Proof/Machine/Encode.lean ====
section
/-! DEFINITION. Coding a block of an encode unit (R126, R132, R134, R135, R140 to R142), and the end of an encode unit (R82, R85). -/

namespace Sys2Proof.Machine

-- ## Levels (R135)

/-- The forward transform of R135 of a unit in raster order. -/
def forwardTransform (n : Nat) (r : List Int) : List Int :=
  let pos := (List.range n).flatMap (fun y => (List.range n).map (fun x => (x, y)))
  let g := pos.map (fun p => asr (sumInt ((List.range n).map (fun x => basis n p.1 x * r.getD (p.2 * n + x) 0)) + 2) 2)
  pos.map (fun p => asr (sumInt ((List.range n).map (fun y => basis n p.2 y * g.getD (y * n + p.1) 0)) + 16) 5)

def qinv (k : Nat) : Nat := [1024, 936, 862, 790, 720, 662, 607, 560].getD k 0

/-- The level of a coefficient (R135). -/
def quantise (intra : Bool) (qp : Nat) (f : Int) : Int :=
  let theta := if intra then 21845 else 10923
  let l := (f.natAbs * qinv (qp % 8) + theta * 2 ^ (qp / 8)) / 2 ^ (16 + qp / 8)
  if f < 0 then -(l : Nat) else (l : Nat)

/-- Levels up to the last group of four that is not all zero; none where all are zero. -/
def trimLevels (ls : List Int) : List Int :=
  let k := ((ls.reverse.takeWhile (· = 0)).length)
  if k = ls.length then [] else ls.take (ceilDiv (ls.length - k) 4 * 4)

/-- The residual of transform unit `i` of a block of 256 residuals. -/
def unitOf (n i : Nat) (r : List Int) : List Int :=
  let w := 16 / n
  (List.range n).flatMap (fun y => (List.range n).map (fun x => r.getD ((i / w * n + y) * 16 + i % w * n + x) 0))

/-- Levels of the units of one component; none where every unit is empty. -/
def trimUnits (us : List (List Int)) : List (List Int) := if us.all (· = []) then [] else us

/-- Levels of one component from its residuals. -/
def codeLevels (intra : Bool) (tsize qp : Nat) (r : List Int) : List (List Int) :=
  let n := tuPoints tsize
  trimUnits ((List.range ((16 / n) ^ 2)).map (fun i =>
    let f := forwardTransform n (unitOf n i r)
    trimLevels ((scan n).map (fun p => quantise intra qp (f.getD (p.2 * n + p.1) 0)))))

/-- The groups of corrections of one component (R95, R124). -/
def codeCorr (e : Nat) (src recon : List Int) : List (List Int) :=
  (List.range 16).map (fun g =>
    let q := (List.range 16).map (fun i => let k := (g / 4 * 4 + i / 4) * 16 + g % 4 * 4 + i % 4; encoderCorrection e (src.getD k 0) (recon.getD k 0))
    if q.all (· = 0) then [] else q)

/-- Source samples of block (`n`-th of the unit) by component. -/
def sourceBlock (src : List (List Int)) (firstRow w16 n : Nat) : List (List Int) :=
  (List.range 3).map (fun c => blockPositions.map (fun p => (src.getD c []).getD (((firstRow + n / w16) * 16 + p.2) * (16 * w16) + n % w16 * 16 + p.1) 0))

/-- TOL of R134. -/
def tolOf (h : SliceHdr) : Nat := if h.refine then h.e else 0

/-- Every sample lies within TOL. -/
def within (tol : Nat) (a b : List (List Int)) : Bool :=
  (List.range 3).all (fun c => ((a.getD c []).zip (b.getD c [])).all (fun p => decide ((p.1 - p.2).natAbs ≤ tol)))

-- ## What an effort level tries (R132, R137)

/-- The two most recent stored pictures by slot (R137). -/
def Ctx.recentSlots (x : Ctx) : List Nat :=
  let m := max x.maxShort 1
  [(x.nextStore + 2 * m - 2) % m, (x.nextStore + 2 * m - 3) % m]

def triedSizes (level : Nat) : List Nat := if level = 3 then [0, 1, 2] else if level = 2 then [1, 2] else if level = 1 then [1] else [2]

/-- The angular modes in the order of their angles (R112). -/
def angularOrder : List Nat := [4, 3, 2, 5, 6, 7, 8, 9, 10]

/-- INTRA modes that the level tries for a block with source `src`. -/
def triedIntra (level : Nat) (src : List (List Int)) : List Nat :=
  if level = 3 then List.range 11
  else if level = 2 then ([0, 1, 2, 10] ++ (angularOrder.drop (Config.gradientPair src % 8)).take 2).dedup
  else if level = 1 then [0, 1, 2, 10]
  else [0]

/-- Candidates that the level uses; the search around them in samples; the wide search in samples; the grid of its vectors in quarter samples. -/
def triedCands (level : Nat) : Nat := [1, 2, 3, 3].getD level 1
def triedNear (level : Nat) : Int × Int := [(4, 4), (16, 8), (48, 24), (64, 32)].getD level (4, 4)
def triedWide (level : Nat) : Int × Int := [(0, 0), (0, 0), (512, 256), (1024, 512)].getD level (0, 0)
def triedGrid (level : Nat) : Int := [4, 2, 1, 1].getD level 4

/-- A vector clipped to the limits of R95 and to the grid of the level. -/
def fitVector (level : Nat) (v : Int × Int) : Int × Int :=
  let g := triedGrid level
  let fit := fun (a m : Int) => clip (a - a % g) (-m) m
  (fit v.1 4096, fit v.2 2048)

/-- Prediction of the vector of the next block for list position 0 or 1 (R100). -/
def State.nextPred (s : State) (r : Run) (second : Bool) : Int × Int :=
  let w := (s.ctx r.what.ctx).geo.w16
  let n := r.done.length
  mvPred r.done w r.hdr.firstRow (r.rowOf w n) (n % w) second

/-- The candidates around which the level searches: the prediction, zero, and the vector of the co-located block of the previous picture. -/
def State.candidates (s : State) (r : Run) : List (Int × Int) :=
  let x := s.ctx r.what.ctx
  let w := x.geo.w16
  let n := r.done.length
  ([s.nextPred r false, (0, 0), Tab.get (0, 0) x.vecs (r.rowOf w n * w + n % w)].take (triedCands r.effort)).map (fitVector r.effort)

/-- The level's search can find vector `v`: within the limits of R95, on its grid, near a candidate or within the wide search. -/
def State.searched (s : State) (r : Run) (v : Int × Int) : Bool :=
  let g := triedGrid r.effort
  let near := fun (a b : Int × Int) (d : Int × Int) => decide ((asr a.1 2 - asr b.1 2).natAbs ≤ d.1.natAbs) && decide ((asr a.2 2 - asr b.2 2).natAbs ≤ d.2.natAbs)
  mvOk false v && decide (v.1 % g = 0) && decide (v.2 % g = 0) &&
    ((s.candidates r).any (fun c => near v c (triedNear r.effort)) || (decide (2 ≤ r.effort) && near v (0, 0) (triedWide r.effort)))

/-- Short-term slots that INTER search uses (R137). -/
def State.searchSlots (s : State) (r : Run) : List Nat :=
  let x := s.ctx r.what.ctx
  if r.hdr.key || r.bed then [] else x.recentSlots.dedup.filter (fun k => (s.headerOf r).refValid.testBit k && x.slotHeld (s.headerOf r) k)

/-- Bedrock slots that a block may name: of a picture, those whose named generation is held; in a bedrock unit, the other slot (R86, R108). -/
def State.bedSlots (s : State) (r : Run) : List Nat :=
  let x := s.ctx r.what.ctx
  (List.range 2).filter (fun k => (s.headerOf r).bedrockValid.testBit k && x.bedHeld r.bed (s.headerOf r) k && !r.hdr.bed.any (fun d => decide (d.slot = k)))

/-- A choice of the search of microcode that the level can try (R132, R137); the levels and corrections of the elements are not part of it. -/
def State.mayChoose (s : State) (r : Run) (src : List (List Int)) (b : BlockElems) : Bool :=
  let at_ := fun (p d : Int × Int) => (p.1 + d.1, p.2 + d.2)
  decide (b.tsize ∈ triedSizes r.effort) &&
    match b.mode with
    | .intra => decide (b.intraMode ∈ triedIntra r.effort src)
    | .bedrock => decide (b.bslot ∈ s.bedSlots r)
    | .inter => decide (b.ref0 ∈ s.searchSlots r) && s.searched r (at_ (s.nextPred r false) b.mvd0) &&
        (!b.bi || (decide (2 ≤ r.effort) && decide (b.ref1 ∈ s.searchSlots r) && s.searched r (at_ (s.nextPred r true) b.mvd1)))
    | _ => false

/-- What the level tests for every block beside what its search finds: INTER at each candidate, every INTRA mode, BEDROCK with residual (R132, R134). -/
def State.tested (s : State) (r : Run) (src : List (List Int)) : List BlockElems :=
  (triedSizes r.effort).flatMap (fun t =>
    (s.searchSlots r).flatMap (fun k => (s.candidates r).map (fun v => { mode := .inter, tsize := t, ref0 := k, mvd0 := (v.1 - (s.nextPred r false).1, v.2 - (s.nextPred r false).2) })) ++
      (triedIntra r.effort src).map (fun m => { mode := .intra, tsize := t, intraMode := m }) ++
      (s.bedSlots r).map (fun k => { mode := .bedrock, tsize := t, bslot := k }))

-- ## The choice (R134)

/-- A mode tested for a block: its elements, the block that they give, its bits and Rice contexts, whether a clip of R118 or R120 acted, and J. -/
structure Trial where
  elems : BlockElems
  out : BlockOut := {}
  bits : List Bool := []
  rice : List RiceCtx := []
  clip : Bool := false
  cost : Nat := 0

/-- Sum of squared differences over the three components. -/
def ssd (a b : List (List Int)) : Nat := ((List.range 3).map (fun c => (((a.getD c []).zip (b.getD c [])).map (fun p => (p.1 - p.2).natAbs ^ 2)).sum)).sum

/-- J of R134 in units of 2^−20: λ is LAMBDA_K in u1.8 times the square of the quantiser step of R118. -/
def costJ (lambdaK qp dist bits : Nat) : Nat := dist * 2 ^ 20 + lambdaK * ((qscale (qp % 8)).toNat * 2 ^ (qp / 8)) ^ 2 * bits

/-- A trial of elements whose levels stand: the corrections of R124 join them. -/
def State.trial (s : State) (r : Run) (src : List (List Int)) (b : BlockElems) : Trial :=
  let rec0 := s.buildBlock { r with hdr := { r.hdr with refine := false } } b
  let corr := (List.range 3).map (fun c => codeCorr r.hdr.e (src.getD c []) (rec0.1.samples.getD c []))
  let b := if r.hdr.refine && b.mode ≠ .pcm && corr.any (fun l => l.any (· ≠ [])) then { b with corr := corr } else b
  let o := (s.buildBlock r b).1
  let y := writeBlock (s.blockCtx r) r.hdr b r.rice
  { elems := b, out := o, bits := y.1, rice := y.2, clip := rec0.2.transform, cost := costJ s.codec.lambdaK r.qp (ssd src o.samples) y.1.length }

/-- PCM with the source's samples. -/
def pcmBlock (src : List (List Int)) : BlockElems := { mode := .pcm, pcm := src }

/-- The elements of a mode with the levels of R135. -/
def State.quantised (s : State) (r : Run) (src : List (List Int)) (b : BlockElems) : BlockElems :=
  let bare : BlockElems := { b with levels := [[], [], []], corr := [], pcm := [] }
  let pred := (s.buildBlock { r with hdr := { r.hdr with refine := false } } bare).1.samples
  let res := fun c => ((src.getD c []).zip (pred.getD c [])).map (fun p => p.1 - p.2)
  { bare with levels := (List.range 3).map (fun c => codeLevels (decide (b.mode = .intra)) b.tsize r.qp (res c)) }

/-- The places (component, unit, scan position) of levels of magnitude 1. -/
def onesOf (levels : List (List (List Int))) : List (Nat × Nat × Nat) :=
  (List.range levels.length).flatMap (fun c => (List.range (levels.getD c []).length).flatMap (fun i =>
    (List.range ((levels.getD c []).getD i []).length).filterMap (fun k => if (((levels.getD c []).getD i []).getD k 0).natAbs = 1 then some (c, i, k) else none)))

/-- The elements with one level set to 0. -/
def zeroLevel (b : BlockElems) (p : Nat × Nat × Nat) : BlockElems :=
  let us := b.levels.getD p.1 []
  { b with levels := b.levels.set p.1 (trimUnits (us.set p.2.1 (trimLevels ((us.getD p.2.1 []).set p.2.2 0)))), corr := [] }

/-- A residual mode on trial; at level 3 each level of magnitude 1, in the order of the syntax, is set to 0 where this lowers J (R135). -/
def State.tryMode (s : State) (r : Run) (src : List (List Int)) (b : BlockElems) : Trial :=
  let q := s.quantised r src b
  let first := s.trial r src q
  if r.effort ≠ 3 then first
  else (onesOf q.levels).foldl (fun t p => let u := s.trial r src (zeroLevel t.elems p); if u.cost < t.cost then u else t) first

/-- The trial with the lowest J, the first of equals. -/
def bestTrial (ts : List Trial) : Option Trial :=
  ts.foldl (fun best t => match best with
    | none => some t
    | some b => if t.cost < b.cost then some t else some b) none

/-- BEDROCK with every CBF and ANY zero. -/
def bareBedrock (tsize k : Nat) : BlockElems := { mode := .bedrock, bslot := k, tsize := tsize, levels := [[], [], []] }

/-- The elements that the encoder codes for the next block (R134): accepted outright, else the lowest J among the modes that the level tests, what its search found (`b`) and PCM; PCM where every residual candidate meets a clip. Where a reference is poisoned, INTRA (R174). -/
def State.codeBlock (s : State) (r : Run) (src : List (List Int)) (b : BlockElems) : BlockElems × BlockOut :=
  let x := s.ctx r.what.ctx
  let tol := tolOf r.hdr
  let hold := (s.buildBlock r { mode := .hold }).1
  let size := (triedSizes r.effort).headD 2
  let bed := fun k => (s.buildBlock { r with hdr := { r.hdr with refine := false } } (bareBedrock size k)).1
  let all := (if s.mayChoose r src b then [b] else []) ++ s.tested r src
  let pcm := s.trial r src (pcmBlock src)
  let pick := fun (t : Option Trial) => let y := t.getD pcm; (y.elems, y.out)
  if r.badRef then
    let ts := (all.filter (fun e => decide (e.mode = .intra))).map (s.tryMode r src)
    pick ((bestTrial (ts.filter (fun t => !t.clip))).or (bestTrial ts))
  else if !r.hdr.key && !r.bed && x.prev.isSome && within tol src hold.samples then ({ mode := .hold }, hold)
  else
    match (s.bedSlots r).filter (fun k => !r.bed && within tol src (bed k).samples) with
    | k :: _ => (bareBedrock size k, bed k)
    | [] =>
      let ts := (all.map (s.tryMode r src)).filter (fun t => !t.clip)
      pick (bestTrial (ts ++ [pcm]))

/-- The fallback block of R142: in a KEY = 0 slice HOLD, but INTRA where a reference is poisoned (R174). -/
def fallbackElems (key bad : Bool) : BlockElems :=
  if key then { mode := .intraDcSkip } else if bad then { mode := .intra, tsize := 2, levels := [[], [], []] } else { mode := .hold }

/-- Bits of the unit with every stuffed byte, for slice data `bits` (R141); of ciphertext on a protected wall (R422). -/
def Run.usedBits (r : Run) (bits : List Bool) : Nat :=
  let whole := r.cipher (bytesOfBits (bits.take (bits.length / 8 * 8)))
  8 * (r.out.length - r.lead) + bits.length + 8 * (whole.filter (· = 0xFF)).length

/-- Row QP control after a row (R140); rows in fallback leave it as it is (R142). -/
def Run.rowControl (r : Run) (a : CtxSet) (row : Nat) : Run :=
  if r.fallback then { r with dq := 0 }
  else
    let trow : Int := (r.target / (r.hdr.rowsM1 + 1) : Nat)
    let spent : Int := (r.unitSoFar.length - r.lead : Nat)
    let err := 16 * spent - trow * ((row : Int) + 1)
    let erel := Sys2Proof.Machine.clip (tdiv (err * 256) (max trow 1)) (-32768) 32767
    let integ := Sys2Proof.Machine.clip (r.integ + erel) (-4096) 4096
    let dq := asr ((a.kp : Int) * erel + (a.ki : Int) * integ + 524288) 20
    let dq := Sys2Proof.Machine.clip dq (-(a.qpStepMax : Int)) a.qpStepMax
    let qp := (Sys2Proof.Machine.clip ((r.qp : Int) + dq) a.qpMin a.qpMax).toNat
    { r with integ := integ, dq := (qp : Int) - r.qp, qp := qp }

/-- The count and sum of the values u that a block's corrections code (R136). -/
def corrTotals (b : BlockElems) : Nat × Nat :=
  let us := b.corr.flatMap (fun c => c.flatMap (fun g => g.map egOfCorr))
  (us.length, us.sum)

/-- The QP of a coded row joins the statistics of the context (R153). -/
def Ctx.noteQp (x : Ctx) (q : Nat) : Ctx :=
  { x with qpSeen := some (match x.qpSeen with
      | none => (q, q)
      | some p => (min p.1 q, max p.2 q)), qpRows := x.qpRows + 1, qpSum := x.qpSum + q }

/-- A coded block joins the unit. -/
def State.joinBlock (s : State) (h : Nat) (r : Run) (bits : List Bool) (rice : List RiceCtx) (b : BlockElems) (o : BlockOut) : State :=
  let clips := (s.buildBlock r b).2
  let c := r.what.ctx
  let w := (s.ctx c).geo.w16
  let n := r.done.length
  let k := corrTotals b
  let q := r.qp
  let r := { r with bits := bits, rice := rice, done := r.done ++ [o], corrCount := r.corrCount + k.1, corrSum := r.corrSum + k.2, badRef := false, bi := b.bi, clip := clips }
  let r := if (n + 1) % w = 0 ∧ r.hdr.dqp = true then r.rowControl (s.ctx c).act (n / w) else r
  let s := if b.mode = .pcm then s.stat c stPcm 1 else s
  let s := if (n + 1) % w = 0 ∧ r.bed = false then s.modCtx c (fun x => x.noteQp q) else s
  (s.setRun h r).flush h

/-- The source samples that a unit codes. -/
def State.unitSource (s : State) (r : Run) : List (List Int) × Nat :=
  if r.bed then (((s.ctx r.what.ctx).loads.find? (fun l => r.hdr.bed.any (fun d => decide (d.slot = l.slot)))).bind (·.src) |>.getD [], r.hdr.firstRow)
  else (r.what.src, 0)

/-- The bits that open a row, where the block is its first. -/
def Run.rowBits (r : Run) (w n : Nat) : List Bool := if r.hdr.dqp ∧ n % w = 0 then writeSe 0 (if r.fallback then 0 else if n = 0 then 0 else r.dq) else []

/-- A reference that the encoder reads for its next block, with the choice `b` of its search, is poisoned (R174). -/
def State.encodeBad (s : State) (r : Run) (src : List (List Int)) (b : BlockElems) : Bool :=
  let w := (s.ctx r.what.ctx).geo.w16
  let k := r.rowOf w r.done.length * w + r.done.length % w
  if s.mem.poison = [] then false
  else (!r.bed && !r.hdr.key && s.prevBad r.what.ctx k) || (s.tested r src).any (fun e => s.readBad r e) || (s.mayChoose r src b && s.readBad r b)

/-- The most bits that the rest of a slice may take in fallback, and the trailer (R141, R422). -/
def Run.reserve (r : Run) (left : Nat) : Nat := if r.sealed then 4 * left + 15 + 136 + 256 else 2 * left + 15 + 136

/-- Work `encode`: the next block is coded, with the choice `b` of microcode's search among those tested, or in fallback (R126, R134, R141, R142). -/
def State.encodeWork (s : State) (h : Nat) (b : BlockElems) : State :=
  match (s.hewer h).run with
  | none => s
  | some r =>
    let w := (s.ctx r.what.ctx).geo.w16
    let n := r.done.length
    let total := r.total w
    if !r.what.enc || decide (r.phase ≠ .blocks) || decide (total ≤ n) then s
    else
      let us := s.unitSource r
      let src := sourceBlock us.1 us.2 w n
      let bad := s.encodeBad r src b
      let r := { r with badRef := bad }
      let s := if bad then s.modCtx r.what.ctx (fun y => { y with keyDue := true }) else s
      let fall := fun (q : Run) =>
        let q := { q with fallback := true, void := true }
        let e := fallbackElems q.hdr.key bad
        let y := writeBlock (s.blockCtx q) q.hdr e q.rice
        s.joinBlock h q (r.bits ++ q.rowBits w n ++ y.1) y.2 e (s.buildBlock q e).1
      if r.fallback then fall r
      else
        let eo := s.codeBlock r src b
        let y := writeBlock (s.blockCtx r) r.hdr eo.1 r.rice
        let bits := r.bits ++ r.rowBits w n ++ y.1
        if !r.bed && decide (8 * r.capBytes < r.usedBits bits + r.reserve (total - n - 1)) then fall { r with qp := ((r.qp : Int) - (if n % w = 0 ∧ n ≠ 0 then r.dq else 0)).toNat }
        else s.joinBlock h r bits y.2 eo.1 eo.2

/-- Work `finish`: padding and trailer of the slice in encode (R82), with data encrypted and tagged on a protected wall (R420); a bedrock unit gets its header with the CRC-64 of its generation (R85). -/
def State.finishWork (s : State) (h : Nat) : State :=
  match (s.hewer h).run with
  | none => s
  | some r =>
    let x := s.ctx r.what.ctx
    let w := x.geo.w16
    if !r.what.enc || decide (r.phase ≠ .blocks) || decide (r.done.length < r.total w) then s
    else
      let data := bytesOfBits r.bits
      let head := match r.hdr.bed with
        | none => r.head
        | some d =>
          let crc := ((x.loads.find? (fun l => l.slot = d.slot)).map (·.crc)).getD 0
          buildBedrock r.hdr { d with crc := if d.last then (crc64From (BitVec.ofNat 64 crc) (crcBytes w r.done)).toNat else 0 }
      let body := head ++ data
      let t : Trailer := { void := r.void, fallback := r.fallback, blocks := r.done.length, crc := crc32 body }
      let start := if r.bed then segment 0xA4 head else r.out
      let ct := r.cipher data
      (s.setRun h { r with phase := .finished, out := start ++ stuff (ct ++ r.tag head ct) ++ segment 0xA3 (buildTrailer t), bits := [] }).flush h

end Sys2Proof.Machine
end

