-- ==== Sys2Proof/Machine/HaulParse.lean ====
section
/-! DEFINITION. The parser of haul ports and the keys of the lookups (R232 to R242); building haul packets (R232 to R234). -/

namespace Sys2Proof.Machine

/-- Numbers of `CLS_CNT` (classifier registers). -/
def cntHopLimit : Nat := 0
def cntLoop : Nat := 1
def cntNoMatch : Nat := 2
def cntRuleDrop : Nat := 3
def cntFragNoEntry : Nat := 4
def cntFragFull : Nat := 5
def cntParseLimit : Nat := 6
def cntMalformed : Nat := 7
def cntBadType : Nat := 8
def cntIpCsum : Nat := 9
def cntRingUnreach : Nat := 10
def cntMeterRed : Nat := 11
def cntCaptureDrop : Nat := 12
def cntV1 : Nat := 13
def cntAddrUnset : Nat := 14
def cntShed : Nat := 15

/-- The ones' complement sum of 16-bit words, an odd byte filled with zero. -/
def onesSum (bs : List Byte) : Nat :=
  let s := ((List.range ((bs.length + 1) / 2)).map (fun i => byteAt bs (2 * i) * 256 + byteAt bs (2 * i + 1))).sum
  let f := fun (n : Nat) => n % 65536 + n / 65536
  f (f (f s))

/-- A header that ends beyond byte 256 of the frame (R239). -/
def beyond (e : Nat) : Bool := decide (256 < e)

/-- The frame's bytes before its FCS. -/
def frameEnd (f : List Byte) : Nat := f.length - 4

/-- The haul header at `h`, whose packet ends at `e` (R233, R237, R239). `pad`: Ethernet padding may follow, which fills up to 46 bytes after the EtherType; lengths are not checked on a fragment. -/
def parseHaul (f : List Byte) (p : Parsed) (h e : Nat) (pad fragment : Bool) : Parsed :=
  let v := byteAt f h / 16
  let t := byteAt f h % 16
  let n := if v = 1 then 16 else 24
  if ¬ ((v = 2 ∧ t ≤ 5) ∨ (v = 1 ∧ t ≤ 1)) then { p with dropAs := some cntBadType }
  else if beyond (h + n) then { p with parseErr := true }
  else if e < h + n then { p with dropAs := some cntMalformed }
  else
    let pl := if v = 1 then beAt f (h + 14) 2 else beAt f (h + 18) 2
    let rest := e - (h + n)
    let q := { p with
      cls := if v = 1 then 1 else 0, haul := true, ver := v, typ := t, wall := byteAt f (h + 1), tile := beAt f (h + 2) 2,
      picture := beAt f (h + 4) 2, slice := byteAt f (h + 6), flags := byteAt f (h + 7),
      hop := if v = 1 then 0 else byteAt f (h + 8), prio := if v = 1 then 0 else byteAt f (h + 10) / 16,
      srcDev := if v = 1 then 0 else beAt f (h + 10) 2 % 4096, fragOffset := if v = 1 then beAt f (h + 12) 2 else beAt f (h + 16) 2,
      payLen := pl, deadline := if v = 1 then 0 else beAt f (h + 20) 4, hdrAt := h, payAt := h + n }
    if fragment ∨ pl = rest ∨ (pad ∧ e ≤ h + 46 ∧ pl ≤ rest) then q else { q with dropAs := some cntMalformed }

/-- UDP at `u`, in a datagram that ends at `e` (R238). -/
def parseUdp (udpPort : Nat) (f : List Byte) (p : Parsed) (u e : Nat) (fragment : Bool) : Parsed :=
  if beyond (u + 8) then { p with parseErr := true }
  else if frameEnd f < u + 8 ∨ (¬ fragment ∧ frameEnd f < u + beAt f (u + 4) 2) then { p with dropAs := some cntMalformed }
  else
    let port := beAt f (u + 2) 2
    let ue := if fragment then e else u + beAt f (u + 4) 2
    let p := { p with cls := 3, udpAt := u, dstPort := port, hdrAt := u + 8, payAt := u + 8 }
    if port = 319 ∨ port = 320 then { p with cls := 2, ptp := true }
    else if port ≠ udpPort ∨ byteAt f (u + 8) / 64 ≠ 2 then p
    else
      let cc := byteAt f (u + 8) % 16
      let x := (byteAt f (u + 8) / 16) % 2 = 1
      let r := u + 20 + 4 * cc
      let h := if x then r + 4 + 4 * beAt f (r + 2) 2 else r
      if beyond h then { p with parseErr := true }
      else parseHaul f p h ue false fragment

/-- After the IP header: UDP from `u` on, or another protocol. -/
def parseL4 (udpPort : Nat) (f : List Byte) (p : Parsed) (u e : Nat) : Parsed :=
  if p.nonFirst then { p with payAt := u }
  else if p.proto = 17 then parseUdp udpPort f p u e p.more
  else { p with payAt := u }

/-- IPv4 at `i` (R238, R239). -/
def parseV4 (udpPort : Nat) (f : List Byte) (p : Parsed) (i : Nat) : Parsed :=
  let ihl := byteAt f i % 16
  let n := 4 * ihl
  if byteAt f i / 16 ≠ 4 ∨ ihl < 5 then { p with dropAs := some cntMalformed }
  else if beyond (i + n) then { p with parseErr := true }
  else if onesSum (sliceOf f i n) ≠ 65535 then { p with dropAs := some cntIpCsum }
  else
    let len := beAt f (i + 2) 2
    if frameEnd f < i + len ∨ len < n then { p with dropAs := some cntMalformed }
    else
      let fo := beAt f (i + 6) 2
      let off := fo % 8192 * 8
      let mf := fo / 8192 % 2 = 1
      let frag := off ≠ 0 ∨ mf
      let p := { p with cls := 4, ipAt := i, ipLen := len, proto := byteAt f (i + 9), srcIp := beAt f (i + 12) 4, dstIp := beAt f (i + 16) 4, fragId := if frag then some (beAt f (i + 4) 2) else none, fragOff := off, more := mf, nonFirst := decide (off ≠ 0) }
      parseL4 udpPort f p (i + n) (i + len)

/-- IPv6 at `i` (R238, R239). -/
def parseV6 (udpPort : Nat) (f : List Byte) (p : Parsed) (i : Nat) : Parsed :=
  if byteAt f i / 16 ≠ 6 then { p with dropAs := some cntMalformed }
  else if beyond (i + 40) then { p with parseErr := true }
  else
    let e := i + 40 + beAt f (i + 4) 2
    if frameEnd f < e then { p with dropAs := some cntMalformed }
    else
      let nh := byteAt f (i + 6)
      let p := { p with cls := 4, v6 := true, ipAt := i, ipLen := 40 + beAt f (i + 4) 2, proto := nh, srcIp := beAt f (i + 8) 16, dstIp := beAt f (i + 24) 16 }
      if nh = 44 then
        if beyond (i + 48) then { p with parseErr := true }
        else
          let fo := beAt f (i + 42) 2
          let off := fo / 8 * 8
          let mf := fo % 2 = 1
          let p := { p with proto := byteAt f (i + 40), fragId := some (beAt f (i + 44) 4), fragOff := off, more := mf, nonFirst := decide (off ≠ 0) }
          parseL4 udpPort f p (i + 48) e
      else parseL4 udpPort f p (i + 40) e

/-- From the EtherType at `o` on, with `tags` VLAN tags still allowed. -/
def parseType (udpPort : Nat) (f : List Byte) (p : Parsed) (o tags : Nat) : Parsed :=
  let t := beAt f o 2
  if t = 0x8100 ∨ t = 0x88A8 then
    match tags with
    | 0 => { p with parseErr := true, etherType := t }
    | k + 1 =>
      let p := if k = 1 then { p with vlan := beAt f (o + 2) 2 % 4096, dei := decide ((beAt f (o + 2) 2 / 4096) % 2 = 1) } else p
      parseType udpPort f p (o + 4) k
  else
    let p := { p with etherType := t, payAt := o + 2 }
    if t < 0x600 then p
    else if t = 0x88B5 then parseHaul f p (o + 2) (frameEnd f) true false
    else if t = 0x88F7 then { p with cls := 2, ptp := true, hdrAt := o + 2 }
    else if t = 0x0800 then parseV4 udpPort f p (o + 2)
    else if t = 0x86DD then parseV6 udpPort f p (o + 2)
    else p

/-- The parser (R238). -/
def parseFrame (udpPort : Nat) (f : List Byte) : Parsed := parseType udpPort f {} 12 2

-- ## Keys (R241, R242)

/-- The exact key; none for packets that make no exact lookup. -/
def exactKey (p : Parsed) : Option Nat :=
  if p.haul then some (1 * 2 ^ 156 + p.wall * 2 ^ 148 + p.tile * 2 ^ 132 + p.typ * 2 ^ 128)
  else if p.cls = 3 ∧ p.v6 = false then some (2 * 2 ^ 156 + p.dstIp * 2 ^ 96 + p.dstPort * 2 ^ 80 + p.srcIp * 2 ^ 48)
  else if p.cls = 3 then some (3 * 2 ^ 156 + p.dstIp * 2 ^ 16 + p.dstPort)
  else none

/-- The ternary key of a packet that arrived on `inport` with class `cls`. -/
def ternaryKey (p : Parsed) (inport cls : Nat) : Nat :=
  let b := fun (x : Bool) (k : Nat) => if x then 2 ^ k else 0
  inport * 2 ^ 125 + cls * 2 ^ 121 + p.typ * 2 ^ 117 + p.wall * 2 ^ 109 + p.tile * 2 ^ 93 + p.srcDev * 2 ^ 81 + p.prio * 2 ^ 77 +
    p.flags * 2 ^ 69 + p.hop * 2 ^ 61 + p.vlan * 2 ^ 49 + p.etherType * 2 ^ 33 + p.proto * 2 ^ 25 + p.dstPort * 2 ^ 9 +
    b p.nonFirst 8 + b p.parseErr 7

-- ## The action (R244)

def actDrop (a : Nat) : Bool := a.testBit 63
def actLocal (a : Nat) : Bool := a.testBit 62
def actIngest (a : Nat) : Bool := a.testBit 61
def actOnward (a : Nat) : Bool := a.testBit 60
def actCopy (a : Nat) : Bool := a.testBit 59
def actQsel (a : Nat) : Bool := a.testBit 58
def actMeterEn (a : Nat) : Bool := a.testBit 57
def actPorts (a : Nat) : Nat := field a 55 50
def actMirror (a : Nat) : Nat := field a 49 47
def actAlt (a : Nat) : Nat := field a 46 44
def actDist (a : Nat) : Nat := field a 43 36
def actQueue (a : Nat) : Nat := field a 35 30
def actMeter (a : Nat) : Nat := field a 29 20
def actMac (a : Nat) : Nat := field a 19 16
def actCpq (a : Nat) : Nat := field a 15 12
def actContext (a : Nat) : Nat := field a 11 0

/-- Fields that replace bits `hi` to `lo` of an action. -/
def putField (a hi lo v : Nat) : Nat := a - field a hi lo * 2 ^ lo + v % 2 ^ (hi - lo + 1) * 2 ^ lo

/-- The queue that R245 gives a packet. -/
def defaultQueue (p : Parsed) : Nat :=
  if p.ptp ∨ (p.haul ∧ p.typ = 4) then 0
  else if ¬ p.haul then 63
  else if p.typ = 3 then 1
  else if p.typ = 1 ∨ p.typ = 2 ∨ (p.typ = 0 ∧ p.flags.testBit 5) then 2
  else 4 + p.prio

-- ## Building packets (R232 to R234)

/-- Header bytes of the encapsulation before the haul header: 0 direct, 1 UDP over IPv4, 2 UDP over IPv6. -/
def encapBytes (encap : Nat) : Nat := if encap = 1 then 14 + 20 + 8 + 12 else if encap = 2 then 14 + 40 + 8 + 12 else 14

/-- Payload bytes of every packet but the last: the largest multiple of 64 that fits the MTU (R234). An MTU outside 576 to 9,216 acts as the nearer end. -/
def payloadMax (encap mtu : Nat) : Nat := (min 9216 (max 576 mtu) - encapBytes encap - 24 - 4) / 64 * 64

/-- A version 2 haul header. -/
def haulHeader (p : Parsed) : List Byte :=
  beBytes 1 (2 * 16 + p.typ) ++ beBytes 1 p.wall ++ beBytes 2 p.tile ++ beBytes 2 p.picture ++ beBytes 1 p.slice ++ beBytes 1 p.flags ++
    beBytes 1 p.hop ++ [0] ++ beBytes 2 (p.prio * 4096 + p.srcDev) 

/-- The 24 bytes with SEQUENCE. -/
def haulHeader24 (p : Parsed) (seq : Nat) : List Byte :=
  haulHeader p ++ beBytes 4 seq ++ beBytes 2 p.fragOffset ++ beBytes 2 p.payLen ++ beBytes 4 p.deadline

/-- The RTP header that the part sends (R232). -/
def rtpHeader (pt : Nat) (p : Parsed) (seq : Nat) : List Byte :=
  [0x80] ++ beBytes 1 ((if p.flags.testBit 6 then 128 else 0) + pt) ++ beBytes 2 seq ++ beBytes 4 p.deadline ++
    beBytes 4 (p.srcDev * 2 ^ 20 + p.wall * 2 ^ 12 + p.tile % 4096)

/-- The checksum field that makes the ones' complement sum of `bs` complete; zero is sent as all ones. -/
def checksumOf (bs : List Byte) : Nat := let c := 65535 - onesSum bs; if c = 0 then 65535 else c

/-- A UDP datagram with its checksum over pseudo-header, header and data. -/
def udpDatagram (pseudo : List Byte) (src dst : Nat) (data : List Byte) : List Byte :=
  let n := 8 + data.length
  let h := beBytes 2 src ++ beBytes 2 dst ++ beBytes 2 n
  h ++ beBytes 2 (checksumOf (pseudo ++ h ++ [0, 0] ++ data)) ++ data

/-- An Ethernet frame of a MAC pair and the bytes from the EtherType on, padded to 64 bytes, with its FCS. -/
def ethernet (dst src : Nat) (rest : List Byte) : List Byte :=
  let b := beBytes 6 dst ++ beBytes 6 src ++ rest
  let b := b ++ List.replicate (60 - b.length) 0
  b ++ leBytes 4 (crc32 b)

end Sys2Proof.Machine
end

