-- ==== Sys2Proof/Machine/Traffic.lean ====
section
/-! DEFINITION. The traffic manager (R282 to R292): meters, shapers, queues of egress ports, virtual time, sampling. -/

namespace Sys2Proof.Machine

/-- The unit of a byte in u32.24 and s33.24. -/
def one24 : Nat := 2 ^ 24

-- ## Meters (R283, R284)

def State.meter (s : State) (m : Nat) : Meter := Tab.get {} s.q.meters m

def State.setMeter (s : State) (m : Nat) (x : Meter) : State := s.withQ (fun w => { w with meters := Tab.set {} w.meters m x })

def State.cbs (s : State) (m : Nat) : Nat := max 64 (s.f F.TMG_METER_CBS_BYTES m) * one24
def State.pbs (s : State) (m : Nat) : Nat := max 64 (s.f F.TMG_METER_PBS_BYTES m) * one24

/-- Both buckets brought up to the present FCLK. -/
def State.meterNow (s : State) (m : Nat) : Meter :=
  let x := s.meter m
  let d := s.time.fclk - x.at_
  { tc := min (x.tc + s.f F.TMG_METER_CIR_RATE m * d) (s.cbs m), tp := min (x.tp + s.f F.TMG_METER_PIR_RATE m * d) (s.pbs m), at_ := s.time.fclk }

/-- The colour of a copy of `b` bytes (0 green, 1 yellow, 2 red) and the meter after it; `dei`: the outer VLAN tag has DEI = 1. -/
def colourOf (x : Meter) (aware dei : Bool) (b : Nat) : Nat × Meter :=
  let n := b * one24
  if x.tp < n then (2, x)
  else if (aware && dei) || decide (x.tc < n) then (1, { x with tp := x.tp - n })
  else (0, { x with tp := x.tp - n, tc := x.tc - n })

/-- A copy is metered and counted (R283). -/
def State.meterCopy (s : State) (m : Nat) (dei : Bool) (b : Nat) : Nat × State :=
  let r := colourOf (s.meterNow m) (s.fb F.TMG_METER_CTRL_AWARE m) dei b
  (r.1, (s.setMeter m r.2).count F.TMG_METER_COUNT_COUNT (3 * m + r.1) F.TMG_METER_CNT_SAT_SAT m r.1)

/-- Setting EN fills both buckets. -/
def State.fillMeter (s : State) (m : Nat) : State := s.setMeter m { tc := s.cbs m, tp := s.pbs m, at_ := s.time.fclk }

-- ## Shapers (R290)

/-- Tokens brought up to FCLK `now`. -/
def Shaper.upTo (x : Shaper) (now rate burst : Nat) : Shaper :=
  { tokens := min (x.tokens + (rate * (now - x.at_) : Nat)) ((max 1 burst * one24 : Nat) : Int), at_ := now }

/-- A frame's start takes `n` tokens; T never falls below −9,216 bytes (R290). -/
def Shaper.spend (x : Shaper) (n : Int) : Shaper := { x with tokens := max (x.tokens - n) (-(9216 * one24 : Nat)) }

def State.tmgQueue (s : State) (k : Nat) : TmgQueue := Tab.get {} s.q.tmg k

def State.setTmgQueue (s : State) (k : Nat) (x : TmgQueue) : State := s.withQ (fun w => { w with tmg := Tab.set {} w.tmg k x })

def State.tmgPort (s : State) (p : Nat) : TmgPort := Tab.get {} s.q.ports p

def State.setTmgPort (s : State) (p : Nat) (x : TmgPort) : State := s.withQ (fun w => { w with ports := Tab.set {} w.ports p x })

/-- The shaper of queue `k` (64 × port + queue) now. -/
def State.queueShaper (s : State) (k : Nat) : Shaper :=
  (s.tmgQueue k).shaper.upTo s.time.fclk (s.f F.TMG_Q_SHAPE_RATE_RATE k) (s.f F.TMG_Q_SHAPE_BURST_BYTES k)

def State.portShaper (s : State) (p : Nat) : Shaper :=
  (s.tmgPort p).shaper.upTo s.time.fclk (s.f F.TMG_PORT_SHAPE_RATE_RATE p) (s.f F.TMG_PORT_SHAPE_BURST_BYTES p)

def State.queueEligible (s : State) (k : Nat) : Bool := decide (s.f F.TMG_Q_SHAPE_RATE_RATE k = 0) || decide (0 < (s.queueShaper k).tokens)

def State.portEligible (s : State) (p : Nat) : Bool := decide (s.f F.TMG_PORT_SHAPE_RATE_RATE p = 0) || decide (0 < (s.portShaper p).tokens)

/-- A written RATE starts its shaper with T = BURST. -/
def State.restartQueueShaper (s : State) (k : Nat) : State :=
  s.setTmgQueue k { s.tmgQueue k with shaper := { tokens := (max 1 (s.f F.TMG_Q_SHAPE_BURST_BYTES k) * one24 : Nat), at_ := s.time.fclk } }

def State.restartPortShaper (s : State) (p : Nat) : State :=
  s.setTmgPort p { s.tmgPort p with shaper := { tokens := (max 1 (s.f F.TMG_PORT_SHAPE_BURST_BYTES p) * one24 : Nat), at_ := s.time.fclk } }

/-- A sweep visit (R284): meter k, or shaper k − 1,024 (384 queues, then 6 ports). -/
def State.sweep (s : State) (k : Nat) : State :=
  if k < 1024 then s.setMeter k (s.meterNow k)
  else if k < 1408 then s.setTmgQueue (k - 1024) { s.tmgQueue (k - 1024) with shaper := s.queueShaper (k - 1024) }
  else s.setTmgPort (k - 1408) { s.tmgPort (k - 1408) with shaper := s.portShaper (k - 1408) }

-- ## Virtual time (R287, R288)

/-- W of R287. -/
def State.weight (s : State) (k : Nat) : Nat := min 4096 (max 1 (s.f F.TMG_Q_CFG_WEIGHT k))

/-- The tag of a head packet of `b` bytes from start `v`, in 48 bits. -/
def State.tagFrom (s : State) (k v b : Nat) : Nat := (v + b * 65536 / s.weight k) % 2 ^ 48

/-- A packet reaches the head of queue `k` of port `p`. -/
def State.tagHead (s : State) (p k : Nat) (waking : Bool) : State :=
  let x := s.tmgQueue k
  match x.copies with
  | [] => s.setTmgQueue k { x with held := false }
  | c :: _ => s.setTmgQueue k { x with tag := s.tagFrom k (if waking then (s.tmgPort p).v else x.last) c.len }

/-- A queue that its shaper held and holds no longer wakes (R288). -/
def State.wakeQueue (s : State) (p k : Nat) : State :=
  let x := s.tmgQueue k
  if x.copies = [] then s
  else if !s.queueEligible k then s.setTmgQueue k { x with held := true }
  else if x.held then (s.setTmgQueue k { x with held := false }).tagHead p k true
  else s

-- ## Enqueue (R282)

/-- A copy is dropped at the tail. -/
def State.tailDrop (s : State) (p k buf : Nat) : State :=
  let s := s.count F.TMG_Q_DROPS_COUNT k F.TMG_Q_DEPTH_DROPS_SAT k 0
  (s.setF F.TMG_PORT_EVENT_TAIL_DROP p 1).release buf

/-- A copy is offered to queue `q` of port `p`. -/
def State.enqueueCopy (s : State) (p q : Nat) (c : Copy) : State :=
  let k := 64 * p + q
  let depth := s.f F.TMG_Q_DEPTH_BYTES k
  let limit := if c.yellow then s.f F.TMG_Q_YELLOW_MAX_BYTES k else s.f F.TMG_Q_DEPTH_MAX_BYTES k
  if !s.fb F.TMG_Q_CFG_EN k || decide (limit < depth + c.len) then s.tailDrop p k c.buf
  else
    let x := s.tmgQueue k
    let s := s.setTmgQueue k { x with copies := x.copies ++ [c] }
    let s := s.setF F.TMG_Q_DEPTH_BYTES k (depth + c.len)
    if x.copies = [] then s.tagHead p k true else s

-- ## Service (R286, R287)

/-- The lowest-numbered non-empty eligible strict queue of a port. -/
def State.strictChoice (s : State) (p : Nat) : Option Nat :=
  (List.range 4).find? (fun q => decide ((s.tmgQueue (64 * p + q)).copies ≠ []) && s.queueEligible (64 * p + q))

/-- The eligible weighted queue whose tag is earliest; ties go to the lower number. -/
def State.weightedChoice (s : State) (p : Nat) : Option Nat :=
  ((List.range 64).drop 4).foldl (fun best q =>
    if (s.tmgQueue (64 * p + q)).copies = [] || !s.queueEligible (64 * p + q) then best
    else
      match best with
      | none => some q
      | some b => if earlier 48 (s.tmgQueue (64 * p + q)).tag (s.tmgQueue (64 * p + b)).tag then some q else some b) none

/-- The chosen queue's head starts: tokens, depth, V and the next head's tag. -/
def State.serveQueue (s : State) (p q : Nat) : State :=
  let k := 64 * p + q
  let x := s.tmgQueue k
  match x.copies with
  | [] => s
  | c :: r =>
    let cost : Int := (c.len * one24 : Nat)
    let qs := s.queueShaper k
    let ps := s.portShaper p
    let y := s.tmgPort p
    let s := s.setTmgQueue k { x with copies := r, shaper := qs.spend cost, last := if q < 4 then x.last else x.tag }
    let s := s.setTmgPort p { y with shaper := ps.spend cost, v := if q < 4 then y.v else x.tag, sending := some (q, c) }
    let s := s.setF F.TMG_Q_DEPTH_BYTES k (s.f F.TMG_Q_DEPTH_BYTES k - c.len)
    s.tagHead p k false

/-- The shapers of a port and of its queues that have a RATE are brought up to the decision (R290). -/
def State.noteShapers (s : State) (p : Nat) : State :=
  let s := if s.f F.TMG_PORT_SHAPE_RATE_RATE p = 0 then s else s.setTmgPort p { s.tmgPort p with shaper := s.portShaper p }
  chainAll (List.range 64) (fun q t =>
    let k := 64 * p + q
    if t.f F.TMG_Q_SHAPE_RATE_RATE k = 0 then t else t.setTmgQueue k { t.tmgQueue k with shaper := t.queueShaper k }) s

/-- Shapers are brought up, and queues whose shaper held them are looked at, before the decision. -/
def State.wakeQueues (s : State) (p : Nat) : State :=
  chainAll ((List.range 64).drop 4) (fun q t => t.wakeQueue p (64 * p + q)) (s.noteShapers p)

/-- The queue of port `p` that R286 serves next. -/
def State.nextQueue (s : State) (p : Nat) : Option Nat :=
  if !s.portEligible p then none
  else
    match s.strictChoice p with
    | some q => some q
    | none => s.weightedChoice p

/-- The egress port starts its next frame, where one is eligible. `can`: the copy may start yet. -/
def State.startFrame (s : State) (p : Nat) (can : State → Copy → Bool) : State :=
  let s := s.wakeQueues p
  match s.nextQueue p with
  | none => s
  | some q =>
    match (s.tmgQueue (64 * p + q)).copies with
    | [] => s
    | c :: _ => if can s c then s.serveQueue p q else s

-- ## Sampling (R291)

/-- The delay of the head packet in ns. -/
def State.headDelay (s : State) (k : Nat) : Nat :=
  match (s.tmgQueue k).copies with
  | [] => 0
  | c :: _ => min (2 ^ 28 - 1) (((s.tick4 + 2 ^ 64 - c.arrival % 2 ^ 64) % 2 ^ 64) / 4)

/-- MEAN + ((sample << 4) − MEAN) >> 4. -/
def meanStep (mean sample : Nat) : Nat := ((mean : Int) + asr ((sample * 16 : Nat) - (mean : Int)) 4).toNat

/-- One queue is sampled. -/
def State.sampleQueue (s : State) (k : Nat) : State :=
  let x := s.tmgQueue k
  let d := s.f F.TMG_Q_DEPTH_BYTES k
  let h := s.headDelay k
  let fr := fun i => x.fresh.getD i true
  let s := s.setF F.TMG_Q_DMIN_VALUE k (if fr 0 then d else min d (s.f F.TMG_Q_DMIN_VALUE k))
  let s := s.setF F.TMG_Q_DMAX_VALUE k (if fr 1 then d else max d (s.f F.TMG_Q_DMAX_VALUE k))
  let s := s.setF F.TMG_Q_HMIN_VALUE k (if fr 2 then h else min h (s.f F.TMG_Q_HMIN_VALUE k))
  let s := s.setF F.TMG_Q_HMAX_VALUE k (if fr 3 then h else max h (s.f F.TMG_Q_HMAX_VALUE k))
  let s := s.setF F.TMG_Q_DMEAN_MEAN k (meanStep (s.f F.TMG_Q_DMEAN_MEAN k) d)
  let s := s.setF F.TMG_Q_HMEAN_MEAN k (meanStep (s.f F.TMG_Q_HMEAN_MEAN k) h)
  s.setTmgQueue k { s.tmgQueue k with fresh := [false, false, false, false] }

def State.samplePort (s : State) (p : Nat) : State := chainAll (List.range 64) (fun q t => t.sampleQueue (64 * p + q)) s

-- ## Commands

/-- A meter row of METER_CONFIG: METER (u16), FLAGS, CIR, PIR, CBS, PBS (u32 each). -/
def State.writeMeter (s : State) (m flags cir pir cbs pbs : Nat) : State :=
  let was := s.fb F.TMG_METER_CTRL_EN m
  let s := s.setF F.TMG_METER_CIR_RATE m cir
  let s := s.setF F.TMG_METER_PIR_RATE m pir
  let s := s.setF F.TMG_METER_CBS_BYTES m cbs
  let s := s.setF F.TMG_METER_PBS_BYTES m pbs
  let s := s.setF F.TMG_METER_CTRL_AWARE m (flags / 2)
  let s := s.setF F.TMG_METER_CTRL_EN m (flags % 2)
  if !was && flags % 2 = 1 then s.fillMeter m else s

def State.meterConfig (s : State) (m : Nat) : State :=
  s.serve m 0x0421 (· = 19) (fun t =>
    let a := t.mbxArgs m
    let n := leAt a 0 2
    if 1023 < n ∨ 3 < byteAt a 2 ∨ leAt a 7 4 < leAt a 3 4 ∨ leAt a 11 4 < 64 ∨ leAt a 15 4 < 64 then t.putResult m stBadArg []
    else (t.writeMeter n (byteAt a 2) (leAt a 3 4) (leAt a 7 4) (leAt a 11 4) (leAt a 15 4)).putResult m stOk [])

/-- SHAPER_CONFIG: PORT, QUEUE, RATE (u32), BURST (u32). -/
def State.shaperConfig (s : State) (m : Nat) : State :=
  s.serve m 0x0422 (· = 10) (fun t =>
    let a := t.mbxArgs m
    let p := byteAt a 0
    let q := byteAt a 1
    let rate := leAt a 2 4
    let burst := leAt a 6 4
    if 5 < p ∨ (63 < q ∧ q ≠ 255) ∨ burst = 0 ∨ 16777215 < burst then t.putResult m stBadArg []
    else if q = 255 then
      (((t.setF F.TMG_PORT_SHAPE_BURST_BYTES p burst).setF F.TMG_PORT_SHAPE_RATE_RATE p rate).restartPortShaper p).putResult m stOk []
    else
      let k := 64 * p + q
      (((t.setF F.TMG_Q_SHAPE_BURST_BYTES k burst).setF F.TMG_Q_SHAPE_RATE_RATE k rate).restartQueueShaper k).putResult m stOk [])

/-- QUEUE_WEIGHT_SET: PORT, QUEUE, WEIGHT (u16), DEPTH_MAX and YELLOW_MAX (u32). -/
def State.queueWeightSet (s : State) (m : Nat) : State :=
  s.serve m 0x0423 (· = 12) (fun t =>
    let a := t.mbxArgs m
    let p := byteAt a 0
    let q := byteAt a 1
    let w := leAt a 2 2
    let d := leAt a 4 4
    let y := leAt a 8 4
    if 5 < p ∨ q < 4 ∨ 63 < q ∨ w = 0 ∨ 4096 < w ∨ 2 ^ 24 ≤ d ∨ 2 ^ 24 ≤ y then t.putResult m stBadArg []
    else
      let k := 64 * p + q
      let t := t.setF F.TMG_Q_CFG_WEIGHT k w
      let t := if d = 0 then t else t.setF F.TMG_Q_DEPTH_MAX_BYTES k d
      (if y = 0 then t else t.setF F.TMG_Q_YELLOW_MAX_BYTES k y).putResult m stOk [])

end Sys2Proof.Machine
end

