-- ==== Sys2Proof/Machine/Classify.lean ====
section
/-! DEFINITION. The classifier (R240 to R257): counters, lookups, what an action comes to, the ring, the rule versions and their commit. -/

namespace Sys2Proof.Machine

-- ## Counters

/-- `CLS_CNT` number `k`. -/
def State.clsCount (s : State) (k : Nat) : State := s.count F.CLS_CNT_COUNT k F.CLS_CNT_SAT_SAT 0 k

/-- `HAUL_CNT` number `k` of port `p`. -/
def State.haulCount (s : State) (p k : Nat) : State := s.count F.HAUL_CNT_COUNT (10 * p + k) F.HAUL_CNT_SAT_SAT p k

def haulPorts : List Nat := List.range 6

-- ## Lookups (R241 to R243)

/-- `n` words from word `a` of a bank as one little-endian number. -/
def wordsAt (t : Tab Nat) (a n : Nat) : Nat := (List.range n).foldr (fun i v => Tab.get 0 t (a + i) + 2 ^ 32 * v) 0

def Bank.key (b : Bank) (i : Nat) : Nat := wordsAt b.exact (8 * i) 5
def Bank.action (b : Bank) (i : Nat) : Nat := wordsAt b.exact (8 * i + 6) 2
def Bank.ternValue (b : Bank) (i : Nat) : Nat := wordsAt b.tern (12 * i) 4
def Bank.ternMask (b : Bank) (i : Nat) : Nat := wordsAt b.tern (12 * i + 4) 4
def Bank.ternTiles (b : Bank) (i : Nat) : Nat := Tab.get 0 b.tern (12 * i + 8)
def Bank.ternMode (b : Bank) (i : Nat) : Nat := Tab.get 0 b.tern (12 * i + 9) % 4
def Bank.ternAction (b : Bank) (i : Nat) : Nat := wordsAt b.tern (12 * i + 10) 2

/-- The exact hit. -/
def Bank.exactHit (b : Bank) (k : Option Nat) : Option Nat :=
  match k with
  | none => none
  | some v => ((List.range b.nExact).find? (fun i => decide (b.key i = v))).map b.action

/-- Ternary entry `i` matches. -/
def Bank.ternMatches (b : Bank) (i key tile : Nat) : Bool :=
  decide (key &&& b.ternMask i = b.ternValue i &&& b.ternMask i) && decide (b.ternTiles i % 65536 ≤ tile) && decide (tile ≤ b.ternTiles i / 65536) && (b.ternMode i).testBit 0

/-- The lowest-indexed match of a mode (0, or 1 for supplements). -/
def Bank.ternHit (b : Bank) (key tile mode : Nat) : Option Nat :=
  ((List.range b.nTern).find? (fun i => b.ternMatches i key tile && decide (b.ternMode i / 2 = mode))).map b.ternAction

/-- HAUL_DEFAULT of a port; packets from a stream queue have none. -/
def State.defaultAction (s : State) (p : Nat) : Nat :=
  if p < 6 then s.f F.HAUL_DEFAULT_LO_ACTION p + 2 ^ 32 * s.f F.HAUL_DEFAULT_HI_ACTION p else 2 ^ 63

/-- What the lookups give: the action, the supplement (0: none), and whether an entry matched. -/
structure Verdict where
  action : Nat := 0
  extra : Nat := 0
  hit : Bool := true
deriving DecidableEq, Repr

/-- The lookups of a packet from `inport` (R243). `orphan`: a non-first fragment without an entry (R249). -/
def State.lookUp (s : State) (h : Parsed) (inport : Nat) (orphan : Bool) : Verdict :=
  let b := s.haul.live
  let key := ternaryKey h inport (if orphan then 6 else h.cls)
  let ex := if orphan then none else b.exactHit (exactKey h)
  let found := match ex with
    | some a => some a
    | none => b.ternHit key h.tile 0
  { action := found.getD (s.defaultAction inport), extra := (b.ternHit key h.tile 1).getD 0, hit := found.isSome }

-- ## The ring (R254 to R257)

def State.ringOn (s : State) : Bool := s.fb F.CLS_RING_EN 0
def State.ringN (s : State) : Nat := max 1 (s.f F.CLS_RING_SIZE 0)
def State.ringPos (s : State) : Nat := s.f F.CLS_RING_POS 0
def State.cwPort (s : State) : Nat := s.f F.CLS_RING_CW_PORT 0
def State.ccwPort (s : State) : Nat := s.f F.CLS_RING_CCW_PORT 0

/-- Port `p` is a ring port. -/
def State.ringPort (s : State) (p : Nat) : Bool := s.ringOn && (decide (p = s.cwPort) || decide (p = s.ccwPort))

/-- The ring port other than `p`. -/
def State.otherRing (s : State) (p : Nat) : Nat := if p = s.cwPort then s.ccwPort else s.cwPort

/-- (a − b) mod n. -/
def modSub (n a b : Nat) : Nat := (a + n - b % n) % n

/-- Towards a destination at ring position `d`, the clockwise or counter-clockwise way is cut (R256). -/
def State.blockedCw (s : State) (d : Nat) : Bool :=
  let n := s.ringN
  let x := modSub n (s.f F.CLS_RING_CUT_CW_X 0) s.ringPos
  s.fb F.CLS_RING_CUT_CW_VALID 0 && decide (1 ≤ x) && decide (x ≤ modSub n d s.ringPos)

def State.blockedCcw (s : State) (d : Nat) : Bool :=
  let n := s.ringN
  let x := modSub n s.ringPos (s.f F.CLS_RING_CUT_CCW_X 0)
  s.fb F.CLS_RING_CUT_CCW_VALID 0 && decide (1 ≤ x) && decide (x ≤ modSub n s.ringPos d)

def State.blockedPort (s : State) (p d : Nat) : Bool := (decide (p = s.cwPort) && s.blockedCw d) || (decide (p = s.ccwPort) && s.blockedCcw d)

/-- A break is applied: of two in one direction the nearer one is kept (R256). -/
def State.applyBreak (s : State) (ccw : Bool) (x : Nat) : State :=
  let n := s.ringN
  let dist := fun (v : Nat) => if ccw then modSub n (s.ringPos + n - 1) v else modSub n (v + n - 1) s.ringPos
  let V := if ccw then F.CLS_RING_CUT_CCW_VALID else F.CLS_RING_CUT_CW_VALID
  let X := if ccw then F.CLS_RING_CUT_CCW_X else F.CLS_RING_CUT_CW_X
  if s.fb V 0 && decide (dist (s.f X 0) ≤ dist x) then s
  else ((s.setF V 0 1).setF X 0 x).setF F.CLS_EVENT_BREAK 0 1

/-- A break is cleared. -/
def State.clearBreak (s : State) (ccw : Bool) : State :=
  let V := if ccw then F.CLS_RING_CUT_CCW_VALID else F.CLS_RING_CUT_CW_VALID
  let X := if ccw then F.CLS_RING_CUT_CCW_X else F.CLS_RING_CUT_CW_X
  if s.fb V 0 then ((s.setF V 0 0).setF X 0 0).setF F.CLS_EVENT_BREAK 0 1 else s

/-- A port of a copy after steering: none where it is dropped as RING_UNREACH; and whether it took its substitute. -/
def State.steerPort (s : State) (h : Parsed) (a p : Nat) : Option Nat × Bool :=
  if actDist a = 0 || !s.ringOn then (some p, false)
  else
    let d := actDist a - 1
    let key := h.wall * 65536 + h.tile
    let ring := decide (p = s.cwPort) || decide (p = s.ccwPort)
    let stays := h.haul && decide (key ∈ s.haul.steered) && !h.flags.testBit 7 && decide (actAlt a ≤ 5)
    if s.blockedPort p d || (ring && stays) then
      if 5 < actAlt a ∨ s.blockedPort (actAlt a) d = true then (none, s.blockedPort p d) else (some (actAlt a), true)
    else (some p, false)

/-- The egress ports of a packet once its ring ports are steered, how many copies have no way, and whether a substitute serves. -/
structure Steered where
  ports : List Nat := []
  lost : Nat := 0
  sub : Bool := false
deriving DecidableEq, Repr

/-- Steering replaces a port in the set that the action names (R256): one copy by each port of the result, and none by the arrival port unless it is the only one left (R246). -/
def State.steerAll (s : State) (h : Parsed) (a inport : Nat) (named : List Nat) : Steered :=
  let rs := named.map (s.steerPort h a)
  let qs := (rs.filterMap (·.1)).eraseDups
  { ports := if qs = [inport] then qs else qs.filter (· ≠ inport), lost := (rs.filter (·.1.isNone)).length, sub := rs.any (·.2) }

/-- Tiles on their substitute port are remembered until their next packet with FIRST = 1 on the primary port (R257). -/
def State.noteSteered (s : State) (h : Parsed) (steered : Bool) : State :=
  let key := h.wall * 65536 + h.tile
  if !h.haul then s
  else if steered then s.withHaul (fun w => { w with steered := if key ∈ w.steered then w.steered else key :: w.steered })
  else s.withHaul (fun w => { w with steered := w.steered.filter (· ≠ key) })

-- ## What an action comes to (R244 to R248)

/-- The copies of a packet: egress ports before steering, mirror (0: none), control queue, local context, ingress port. -/
structure Plan where
  ports : List Nat := []
  mirror : Nat := 0
  cpq : Option Nat := none
  ctx : Option Nat := none
  ingest : Option Nat := none
deriving DecidableEq, Repr

/-- Egress ports named by the action, with ONWARD; never the arrival port, unless it is the only one named. -/
def State.namedPorts (s : State) (a p : Nat) : List Nat :=
  let named := haulPorts.filter (fun q => (actPorts a).testBit q || (actOnward a && s.ringPort p && decide (q = s.otherRing p)))
  if named = [p] then named else named.filter (· ≠ p)

/-- The plan of a verdict for a packet from port `p` (R237, R243, R244). -/
def State.planOf (s : State) (h : Parsed) (v : Verdict) (p : Nat) : Plan :=
  let v1 := decide (h.ver = 1)
  let drop := actDrop v.action
  let a := if drop then 0 else v.action
  let base : Plan := { ports := s.namedPorts a p, mirror := actMirror a, cpq := if actCopy a then some (actCpq a) else none, ctx := if actLocal a then some (actContext a) else none, ingest := if actIngest a then some (actContext a % 8) else none }
  let mirror := if base.mirror = 0 then actMirror v.extra else base.mirror
  if v1 then { ctx := base.ctx, mirror := mirror }
  else { base with mirror := mirror, cpq := if base.cpq.isSome then base.cpq else if actCopy v.extra then some (actCpq v.extra) else none }

/-- Shedding stage 2 suspends MIRROR and COPY_CP of rule actions (R248). -/
def State.shedPlan (s : State) (x : Plan) : Plan × State :=
  if s.f F.PWR_STATUS_STAGE 0 < 2 then (x, s)
  else
    let t := if x.mirror ≠ 0 then s.clsCount cntShed else s
    let t := if x.cpq.isSome then t.clsCount cntShed else t
    ({ x with mirror := 0, cpq := none }, t)

-- ## A forwarded copy (R246)

/-- `n` bytes of `f` at `o` replaced. -/
def patchBytes (f : List Byte) (o : Nat) (bs : List Byte) : List Byte := f.take o ++ bs ++ f.drop (o + bs.length)

/-- The frame with a correct FCS. -/
def reFcs (f : List Byte) : List Byte := let b := f.take (f.length - 4); b ++ leBytes 4 (crc32 b)

/-- A 16-bit ones' complement checksum after a word went from `m` to `m'` (RFC 1624). -/
def updateSum (hc m m' : Nat) : Nat :=
  let fold := fun (n : Nat) => n % 65536 + n / 65536
  65535 - fold (fold ((65535 - hc) + (65535 - m) + m'))

/-- HOP goes up by one, and a UDP checksum other than zero with it. -/
def hopOn (f : List Byte) (h : Parsed) : List Byte :=
  if !h.haul || decide (h.ver ≠ 2) then f
  else
    let o := h.hdrAt + 8
    let m := beAt f o 2
    let g := patchBytes f o (beBytes 1 (h.hop + 1))
    let u := h.udpAt + 6
    if h.udpAt = 0 ∨ beAt f u 2 = 0 then g else patchBytes g u (beBytes 2 (updateSum (beAt f u 2) m (beAt g o 2)))

/-- The MAC address that two registers hold. -/
def State.macOf (s : State) (L H : Fld) (i : Nat) : Nat := s.f L i + 2 ^ 32 * (s.f H i % 65536)

/-- The frame that leaves by port `q` for action `a`. -/
def State.rewrite (s : State) (f : List Byte) (h : Parsed) (a q : Nat) : List Byte :=
  let g := hopOn f h
  let g := if actMac a = 0 then g else
    patchBytes g 0 (beBytes 6 (s.macOf F.CLS_MAC_LO_MAC F.CLS_MAC_HI_MAC (actMac a)) ++ beBytes 6 (s.macOf F.HAUL_MAC_LO_MAC F.HAUL_MAC_HI_MAC q))
  if g = f then f else reFcs g

/-- What steering leaves behind: a copy without a way counts as RING_UNREACH, and tiles on their substitute are remembered (R256, R257). -/
def State.noteSteering (s : State) (h : Parsed) (a : Nat) (x : Steered) : State :=
  let s := chainAll (List.range x.lost) (fun _ t => t.clsCount cntRingUnreach) s
  if actDist a = 0 ∨ x.ports = [] then s else s.noteSteered h x.sub

/-- One copy of packet `b` to port `q`: metering, its queue; `mk` gives the frame that leaves by a port. -/
def State.place (s : State) (b : Nat) (h : Parsed) (a q inport arrival : Nat) (mk : Nat → List Byte) : State :=
  let g := mk q
  let m := if actMeterEn a then s.meterCopy (actMeter a) h.dei g.length else (0, s)
  if m.1 = 2 then (m.2.clsCount cntMeterRed).release b
  else m.2.enqueueCopy q (if actQsel a then actQueue a else defaultQueue h) { buf := b, len := g.length, yellow := decide (m.1 = 1), frame := g, inport := inport, arrival := arrival }

/-- One forwarded copy of packet `b`, frame `f`, to port `p`. -/
def State.forward (s : State) (b : Nat) (h : Parsed) (a p inport arrival : Nat) (f : List Byte) : State :=
  s.place b h a p inport arrival (s.rewrite f h a)

/-- The queue that an action gives the copies of a packet. -/
def copyQueue (h : Parsed) (a : Nat) : Nat := if actQsel a then actQueue a else defaultQueue h

-- ## Versions and commit (R251 to R253)

def State.clsState (s : State) : Nat := s.f F.CLS_VERSION_STATE 0
def clsIdle : Nat := 0
def clsCloning : Nat := 1
def clsStaging : Nat := 2
def clsDraining : Nat := 3

/-- Packets under OLD remain (R252, step 7). A fragment entry keeps the action of its first fragment's version by itself (R251). -/
def State.oldInUse (s : State) : Bool := s.haul.ports.any (fun e => e.2.rx.any (·.underOld))

/-- CLONE: discarded in CLONING and STAGING; while OLD drains it waits. -/
def State.startClone (s : State) : State :=
  if s.clsState = clsIdle then s.setF F.CLS_VERSION_STATE 0 clsCloning
  else if s.clsState = clsDraining then s.withHaul (fun w => { w with cloneDue := true })
  else s

/-- The clone is complete: the staging bank holds a copy of LIVE. -/
def State.endClone (s : State) : State :=
  if s.clsState ≠ clsCloning then s
  else
    let b := s.haul.live
    let s := (s.withHaul (fun w => { w with staged := b })).setF F.CLS_VERSION_STATE 0 clsStaging
    (s.setF F.CLS_STAGE_COUNT_EXACT 0 b.nExact).setF F.CLS_STAGE_COUNT_TERN 0 b.nTern

/-- ABORT in STAGING discards the staged version. -/
def State.abortStage (s : State) : State :=
  if s.clsState ≠ clsStaging then s else (s.withHaul (fun w => { w with staged := {} })).setF F.CLS_VERSION_STATE 0 clsIdle

/-- The actions of a bank that apply: of exact entries, and of valid MODE = 0 ternary entries. -/
def Bank.actions (b : Bank) : List Nat :=
  (List.range b.nExact).map b.action ++ ((List.range b.nTern).filter (fun i => decide (b.ternMode i = 1))).map b.ternAction

/-- The first of the refusals of R253; 0: none. -/
def State.stageError (s : State) (b : Bank) (nExact nTern : Nat) : Nat :=
  if 16384 < nExact ∨ 512 < nTern then 5
  else if !(List.range (b.nExact - 1)).all (fun i => decide (b.key i < b.key (i + 1))) then 1
  else if b.actions.any (fun a => actMeterEn a && !s.fb F.TMG_METER_CTRL_EN (actMeter a)) then 2
  else if b.actions.any (fun a => actLocal a && !(s.ctx? (actContext a)).any (fun x => !x.enc)) then 3
  else if b.actions.any (fun a => actIngest a && decide (s.f F.ING_CTRL_MODE (actContext a % 8) % 3 = 0)) then 4
  else 0

/-- Packets in reception and fragment entries of now run under OLD. -/
def HaulState.markOld (w : HaulState) : HaulState :=
  { w with ports := w.ports.map (fun e => (e.1, { e.2 with rx := e.2.rx.map (fun r => { r with underOld := true }) })),
           frags := w.frags.map (fun e => (e.1, e.2.map (fun f => { f with underOld := true }))) }

/-- GO in STAGING: the checks, then LIVE := STAGED and OLD drains. -/
def State.startGo (s : State) : State :=
  if s.clsState ≠ clsStaging then s
  else
    let ne := s.f F.CLS_STAGE_COUNT_EXACT 0
    let nt := s.f F.CLS_STAGE_COUNT_TERN 0
    let b := { s.haul.staged with nExact := ne, nTern := nt }
    let e := s.stageError b ne nt
    let s := s.setF F.CLS_COMMIT_ERR 0 e
    if e ≠ 0 then s
    else
      let s := s.withHaul (fun w => { w.markOld with old := w.live, live := b, staged := {} })
      let s := s.setF F.CLS_VERSION_OLD 0 (s.f F.CLS_VERSION_LIVE 0)
      let s := s.setF F.CLS_VERSION_LIVE 0 (s.f F.CLS_VERSION_STAGED 0)
      let s := s.setF F.CLS_VERSION_STAGED 0 (s.f F.CLS_VERSION_LIVE 0 + 1)
      s.setF F.CLS_VERSION_STATE 0 clsDraining

/-- GO is written. A rule commit waits for the end of a live handover (R66). -/
def State.goCommand (s : State) : State := if s.inHandover then s.withHaul (fun w => { w with goDue := true }) else s.startGo

/-- The GO that waited. -/
def State.goAfter (s : State) : State := if s.haul.goDue then (s.withHaul (fun w => { w with goDue := false })).startGo else s

end Sys2Proof.Machine
end

