-- ==== Sys2Proof/Machine/Flags.lean ====
section
/-! DEFINITION. The level of every interrupt source (R344): the condition of its block, as the block's chapter states it. -/

namespace Sys2Proof.Machine

/-- A CORRECTED or CONTAINED source has ACTIVE = 1. -/
def State.anyActive (s : State) (cls : Nat) : Bool :=
  ((List.range 64).drop 1).any (fun f => s.fb F.FLT_SRC_STATUS_ACTIVE f && decide (min (s.f F.FLT_SRC_CFG_CLASS f) 2 = cls))

/-- NEAR_FULL of EVT_STATUS (R372). -/
def State.nearFull (s : State) : Bool := decide (3584 ≤ (s.f F.EVT_HEAD_SEQ 0 + 2 ^ 32 - s.f F.EVT_TAIL_SEQ 0) % 2 ^ 32)

/-- Sources 1 to 8: the fault summaries. -/
def State.faultLevel (s : State) (n : Nat) : Bool :=
  match n with
  | 1 => s.fatal
  | 2 => s.anyActive 1
  | 3 => s.anyActive 0
  | 4 => decide (s.flt.grace ≠ [])
  | 5 => ((List.range 64).drop 1).any (fun f => s.fb F.FLT_SRC_STATUS_EXPIRED f)
  | 6 => decide (s.flt.holders ≠ [])
  | 7 => s.nearFull || s.fb F.EVT_STATUS_LOST_NEW 0
  | 8 => s.fb F.FLT_STATUS_CP_RESTARTED 0
  | _ => false

/-- FREED of lock `n`. -/
def State.freed (s : State) (n : Nat) : Bool :=
  if n < 32 then (s.f F.SEM_FREED_LO_FREED 0).testBit n else (s.f F.SEM_FREED_HI_FREED 0).testBit (n - 32)

/-- Sources 768 to 854: security, always-on and clock, power and calibration events. -/
def State.systemLevel (s : State) (n : Nat) : Bool :=
  if n ≤ 775 then (s.f F.SEC_TAMPER_STATUS_TRIPPED 0).testBit (n - 768)
  else match n with
  | 776 => s.fb F.SEC_EVENT_WORLD_DENIED 0 || s.fb F.SEC_EVENT_REGION_DENIED 0
  | 777 => s.fb F.SEC_EVENT_GCM_FAIL 0
  | 778 => s.fb F.SEC_EVENT_KEY_EXHAUSTED 0
  | 832 => s.aon.pcieActivity
  | 833 => s.aon.wakeTimer
  | 834 => decide (0 ∈ s.aon.gpio)
  | 835 => decide (1 ∈ s.aon.gpio)
  | 836 => decide (2 ∈ s.aon.gpio)
  | 837 => decide (3 ∈ s.aon.gpio)
  | 838 => s.aon.hotInStandby
  | 848 => s.fb F.PWR_EVENT_SHED 0
  | 849 => s.fb F.PWR_EVENT_PMBUS_ERR 0
  | 850 => s.fb F.PWR_EVENT_THERM 0
  | 851 => s.fb F.PWR_EVENT_RAIL 0
  | 852 => s.fb F.CAL_STATUS_DONE 0
  | 853 => s.fb F.CLK_EVENT_STEP_REFUSED 0
  | 854 => s.fb F.CLK_EVENT_PTP_STATE 0
  | _ => false

/-- A field of instance `i` is not zero. -/
def State.nz (s : State) (F : Fld) (i : Nat) : Bool := decide (s.f F i ≠ 0)

/-- Any event bit of a lamp port (224 + n). -/
def State.lampLevel (s : State) (n : Nat) : Bool :=
  s.nz F.LMP_PORT_EVENT_RX_LOS n || s.nz F.LMP_PORT_EVENT_FAR_LOST n || s.nz F.LMP_PORT_EVENT_DOUBLE_BREAK n || s.nz F.LMP_PORT_EVENT_TAKEOVER n || s.nz F.LMP_PORT_EVENT_BREAK n

/-- Any of the fault bits of hewer `h` other than WAIT_TIMEOUT. -/
def State.hewerFaulty (s : State) (h : Nat) : Bool :=
  s.nz F.HWR_FAULT_TOKEN_OVF h || s.nz F.HWR_FAULT_ADDR_RANGE h || s.nz F.HWR_FAULT_BRANCH_FORM h || s.nz F.HWR_FAULT_LM_UNCORR h || s.nz F.HWR_FAULT_PARITY h

/-- The four sources of hewer `h`: done, fault, wait timeout, patch. -/
def State.hewerLevel (s : State) (h k : Nat) : Bool :=
  let w := Tab.get {} s.codec.hewers h
  match k with
  | 0 => w.doneEvt
  | 1 => s.hewerFaulty h
  | 2 => s.nz F.HWR_FAULT_WAIT_TIMEOUT h
  | _ => w.patchEvt

/-- Any event bit of a lane (288 + n). -/
def State.laneLevel (s : State) (n : Nat) : Bool :=
  s.nz F.LANE_EVENT_CONFLICT n || s.nz F.LANE_EVENT_CAL_ABORT n || s.nz F.LANE_EVENT_CAL_DONE n || s.nz F.LANE_EVENT_SYNC_LOSS n || s.nz F.LANE_EVENT_LOS n

/-- Sources 352 to 383: haul ports, timestamp FIFOs, classifier, traffic manager, ingress. -/
def State.haulLevel (s : State) (n : Nat) : Bool :=
  if n ≤ 357 then s.nz F.HAUL_EVENT_LINK_UP (n - 352) || s.nz F.HAUL_EVENT_LINK_LOSS (n - 352)
  else if n ≤ 363 then decide ((Tab.get {} s.haul.ports (n - 358)).stamps ≠ [])
  else if n = 364 then s.fb F.CLS_EVENT_COMMIT_DONE 0
  else if n = 365 then s.fb F.CLS_EVENT_BREAK 0
  else if n = 366 then s.fb F.CLS_EVENT_FRAG_TABLE_FULL 0
  else if n = 367 then s.fb F.CLS_EVENT_CAPTURE_DROP 0
  else if n ≤ 373 then s.nz F.TMG_PORT_EVENT_TAIL_DROP (n - 368)
  else if n ≤ 375 then false
  else s.nz F.ING_EVENT_CLOSED (n - 376) || s.nz F.ING_EVENT_LOSS (n - 376) || s.nz F.ING_EVENT_ERROR (n - 376) || s.nz F.ING_EVENT_PICTURE_END (n - 376)

/-- Sources 384 to 447: DDR channels, arbiters, the error log. -/
def State.memLevel (s : State) (n : Nat) : Bool :=
  if n ≤ 387 then
    s.nz F.DDR_EVENT_DRIFT (n - 384) || s.nz F.DDR_EVENT_RETRAIN_FAIL (n - 384) || s.nz F.DDR_EVENT_WCRC_FAIL (n - 384) || s.nz F.DDR_EVENT_UE (n - 384) || s.nz F.DDR_EVENT_CE (n - 384)
  else if n ≤ 391 then s.nz F.ARB_EVENT_WRAP (n - 388) || s.nz F.ARB_EVENT_WATCHDOG (n - 388)
  else decide (n = 392) && decide (s.mem.log ≠ [])

/-- Sources 448 to 511: buffer pool, spill queues, control queues that are not empty. -/
def State.queueLevel (s : State) (n : Nat) : Bool :=
  if n = 448 then s.fb F.BPM_EVENT_STALL 0 || s.fb F.BPM_EVENT_LOW 0 || s.fb F.BPM_EVENT_NO_BUFFER 0
  else if n = 450 then s.fb F.SPQ_EVENT_POISON 0 || s.fb F.SPQ_EVENT_DROP 0
  else decide (464 ≤ n) && decide (n ≤ 479) && decide ((Tab.get {} s.q.queues (4096 + (n - 464))).items ≠ [])

/-- Sources 512 to 767: an event of one of sixteen contexts, or LATE_STREAK of one. -/
def State.groupLevel (s : State) (n : Nat) : Bool :=
  (List.range 16).any (fun k =>
    let c := 16 * (n - 512) + k
    s.fb F.SCH_CTX_LATE_LATE_STREAK c || (Tab.get none s.codec.ctxs c).any (·.event))

/-- The level of a source (R344). -/
def State.level (s : State) (n : Nat) : Bool :=
  if n = 0 then false
  else if n ≤ 15 then s.faultLevel n
  else if n ≤ 31 then s.fb F.MBX_STATUS_BUSY (n - 16)
  else if n ≤ 47 then s.fb F.MBX_STATUS_RESULT_PENDING (n - 32) || s.fb F.MBX_STATUS_JOB_DONE (n - 32)
  else if n ≤ 55 then (List.range 8).any (fun k => s.fb F.SEM_LOCK_BROKEN (8 * (n - 48) + k))
  else if n ≤ 63 then (List.range 8).any (fun k => s.freed (8 * (n - 56) + k))
  else if n ≤ 159 then s.hewerLevel ((n - 64) / 4) ((n - 64) % 4)
  else if n ≤ 223 then decide (s.f F.RIV_CH_STATUS_STATE (n - 160) = 4)
  else if n ≤ 287 then decide (n < 272) && s.lampLevel (n - 224)
  else if n ≤ 351 then decide (288 ≤ n) && s.laneLevel (n - 288)
  else if n ≤ 383 then s.haulLevel n
  else if n ≤ 447 then s.memLevel n
  else if n ≤ 511 then s.queueLevel n
  else if n ≤ 767 then s.groupLevel n
  else if n ≤ 895 then s.systemLevel n
  else if n ≤ 959 then s.fb F.TMR_STATUS_EXPIRED (n - 896)
  else if n ≤ 991 then (s.f F.INTC_SW_SET_LO_LEVEL 0).testBit (n - 960)
  else (s.f F.INTC_SW_SET_HI_LEVEL 0).testBit (n - 992)

end Sys2Proof.Machine
end

