-- ==== Sys2Proof/Machine/IntcOps.lean ====
section
/-! DEFINITION. Presentation, claim, completion, routes and host delivery (R346 to R358): operations. -/

namespace Sys2Proof.Machine

/-- EN and TARGET in force for source `n`. -/
def State.routeEn (s : State) (n : Nat) : Bool := s.fb F.INTC_ROUTE_EN n
def State.routeTarget (s : State) (n : Nat) : Nat := s.f F.INTC_ROUTE_TARGET n

def State.claimStack (s : State) (t : Nat) : List Nat := Tab.get [] s.intc.stack t

def State.setStack (s : State) (t : Nat) (l : List Nat) : State :=
  s.withIntc (fun w => { w with stack := Tab.set [] w.stack t l })

/-- The source is on a claim stack. -/
def State.claimed (s : State) (n : Nat) : Bool := (List.range 4).any (fun t => decide (n ∈ s.claimStack t))

/-- Pending (R346): asserted, enabled and not claimed. -/
def State.isPending (s : State) (n : Nat) : Bool := s.level n && s.routeEn n && !s.claimed n

/-- Presentable to target `t`. -/
def State.presentable (s : State) (t n : Nat) : Bool := s.isPending n && decide (s.routeTarget n = t)

/-- Sources 1 to 1,023. -/
def sourceNumbers : List Nat := (List.range 1024).drop 1

/-- The lowest-numbered source presentable to `t` that `p` admits (R348, R350). -/
def State.lowest (s : State) (t : Nat) (p : Nat → Bool) : Option Nat := sourceNumbers.find? (fun n => s.presentable t n && p n)

/-- The signal of a target (R347). -/
def State.signal (s : State) (t : Nat) : Bool :=
  s.fb F.INTC_GLOBAL_MASTER_EN 0 && s.fb F.INTC_TGT_CTRL_EN t && (s.lowest t (fun _ => true)).isSome

/-- A counter of a target (R350 to R352): k = 0 SPURIOUS, 1 EMPTY_CLAIM, 2 BAD_COMPLETE. -/
def State.tgtCount (s : State) (t k : Nat) : State := s.count F.INTC_TGT_CNT_COUNT (3 * t + k) F.INTC_TGT_CNT_SAT_SAT t k

-- ## Host delivery (R354, R355)

/-- Function and vector of a source routed to HOST: the function of its world (function 0 outside DEPLOYED), VECTOR masked by the MME granted. -/
def State.msiKey (s : State) (n : Nat) : Nat × Nat :=
  let f := if s.sourceSecure n && decide (s.lc = 2) then 1 else 0
  (f, s.f F.INTC_ROUTE_VECTOR n % 2 ^ Tab.get 0 s.intc.mme f)

/-- The set that maps to a function and vector is non-empty. -/
def State.msiSet (s : State) (f v : Nat) : Bool := sourceNumbers.any (fun n => s.presentable 2 n && decide (s.msiKey n = (f, v)))

/-- The host can be signalled: MASTER_EN and the target's EN (R347). -/
def State.hostOn (s : State) : Bool := s.fb F.INTC_GLOBAL_MASTER_EN 0 && s.fb F.INTC_TGT_CTRL_EN 2

/-- The PCIe link is in L2 or down (R355). -/
def State.linkAsleep (s : State) : Bool := decide (2 ≤ s.f F.PCIE_LINK_STATUS_PM_STATE 0)

/-- A message is due: it is sent, held in the pending bit of a masked vector, or held until the link returns. A function with MSI disabled sends none (R355). -/
def State.msiSend (s : State) (f v : Nat) : State :=
  let k := 32 * f + v
  if Tab.get 0 s.intc.msiEnable f = 0 then s
  else if k ∈ s.intc.masked ∨ s.linkAsleep then
    s.withIntc (fun w => { w with due := if k ∈ w.due then w.due else w.due ++ [k] })
  else
    let s := if s.f F.PCIE_LINK_STATUS_PM_STATE 0 = 1 then s.setF F.PCIE_LINK_STATUS_PM_STATE 0 0 else s
    s.withIntc (fun w => { w with sent := (f, v) :: w.sent, due := w.due.filter (· ≠ k) })

/-- All functions and vectors. -/
def msiKeys : List (Nat × Nat) := (List.range 2).flatMap (fun f => (List.range 32).map (fun v => (f, v)))

/-- The endpoint sends one message for each set that has gone from empty to non-empty (R354). -/
def State.msiScan (s : State) : State :=
  let up := if s.hostOn then msiKeys.filter (fun k => s.msiSet k.1 k.2) else []
  let fresh := up.filter (fun k => decide (32 * k.1 + k.2 ∉ s.intc.seen))
  let s := s.withIntc (fun w => { w with seen := up.map (fun k => 32 * k.1 + k.2) })
  chainAll fresh (fun k t => t.msiSend k.1 k.2) s

/-- Messages held for a masked vector or a sleeping link go out where the set is still non-empty. -/
def State.msiFlush (s : State) : State :=
  let ks := s.intc.due.filter (fun k => decide (k ∉ s.intc.masked))
  if s.linkAsleep then s
  else
    let s := s.withIntc (fun w => { w with due := w.due.filter (fun k => decide (k ∈ w.masked)) })
    chainAll ks (fun k t => if t.msiSet (k / 32) (k % 32) then t.msiSend (k / 32) (k % 32) else t) s

-- ## Claim and completion (R350 to R352)

/-- A claim read of target `t` over the sources that `p` admits: the word read and the state. -/
def State.claim (s : State) (t : Nat) (p : Nat → Bool) : State × Nat :=
  if 8 ≤ (s.claimStack t).length then
    let s := s.setF F.INTC_TGT_STATUS_FULL t 1
    let s := if t = 2 ∧ s.hostOn = true then chainAll (msiKeys.filter (fun k => sourceNumbers.any (fun n => s.presentable 2 n && p n && decide (s.msiKey n = k)))) (fun k u => u.msiSend k.1 k.2) s else s
    (s, 0)
  else
    match s.lowest t p with
    | none => (s.tgtCount t 1, 0)
    | some n => ((s.setStack t (s.claimStack t ++ [n])).msiScan, n + 2 ^ 31)

/-- A route change that waits is applied (R353). -/
def State.applyRoute (s : State) (n : Nat) : State :=
  match Tab.get none s.intc.routeNext n with
  | none => s
  | some (e, t) =>
    let s := s.withIntc (fun w => { w with routeNext := Tab.set none w.routeNext n none })
    (s.setF F.INTC_ROUTE_EN n e).setF F.INTC_ROUTE_TARGET n t

/-- After a HOST completion the set of the completed source sends again if it is non-empty (R354); one that was empty before sends as a set that is no longer empty. -/
def State.msiAgain (s : State) (t n : Nat) : State :=
  let k := s.msiKey n
  let again := decide (t = 2) && s.hostOn && decide (32 * k.1 + k.2 ∈ s.intc.seen) && s.msiSet k.1 k.2
  let s := s.msiScan
  if again then s.msiSend k.1 k.2 else s

/-- A completion write of source `n` to target `t` (R351). -/
def State.complete (s : State) (t n : Nat) : State :=
  let st := s.claimStack t
  if n = 0 ∨ n ∉ st then s.tgtCount t 2
  else if st.getLast? = some n then
    ((s.setStack t st.dropLast).applyRoute n).msiAgain t n
  else
    let s := s.setStack t []
    let s := chainAll st (fun x u => u.applyRoute x) s
    let s := s.setF F.INTC_TGT_STATUS_ORDER_ERR t 1
    (s.raiseFault 23 t []).msiAgain t n

/-- A write of EN and TARGET of source `n` waits for its application; a secure source is routed to CP-S or HOST only (R345, R353). -/
def State.writeRoute (s : State) (n en wakeEn target vector : Nat) : State :=
  if n = 0 ∨ (s.sourceSecure n = true ∧ (target = 1 ∨ target = 3)) then s
  else
    let s := s.setF F.INTC_ROUTE_VECTOR n vector
    let s := if wakeCapable n then s.setF F.INTC_ROUTE_WAKE_EN n wakeEn else s
    s.withIntc (fun w => { w with routeNext := Tab.set none w.routeNext n (if en = s.f F.INTC_ROUTE_EN n ∧ target = s.f F.INTC_ROUTE_TARGET n then none else some (en, target)) })

/-- The wake-capable sources (R358). -/
def allWakeSources : List Nat := (List.range 1024).filter wakeCapable

/-- A source whose level has fallen can rise again (R358). -/
def State.noteFalls (s : State) : State := s.withAon (fun w => { w with steady := w.steady.filter s.level })

/-- The word of INTC_ROUTE: with LEVEL, CLAIMED and PENDING of the moment. -/
def State.routeWord (s : State) (n : Nat) : Nat :=
  if n = 0 then 0
  else
    let b := fun (x : Bool) (k : Nat) => if x then 2 ^ k else 0
    s.f F.INTC_ROUTE_EN n * 2 ^ 31 + s.f F.INTC_ROUTE_WAKE_EN n * 2 ^ 30 + s.f F.INTC_ROUTE_TARGET n * 2 ^ 16 + s.f F.INTC_ROUTE_VECTOR n * 2 ^ 8 +
      b (s.level n) 2 + b (s.claimed n) 1 + b (s.isPending n) 0

/-- 32 bits, one for each source from 32w on, by `p`. -/
def sourceBits (w : Nat) (p : Nat → Bool) : Nat := (List.range 32).foldl (fun a b => if p (32 * w + b) then a + 2 ^ b else a) 0

end Sys2Proof.Machine
end

