-- ==== Sys2Proof/Machine/Mailbox.lean ====
section
/-! DEFINITION. The mailbox commands of the control chapter, and the events of the processor, the boot and the PCIe endpoint (R39 to R67). -/

namespace Sys2Proof.Machine

/-- A mailbox row: it names a mailbox of the part. -/
def onMailbox (m : Nat) (s : State) : Out := onInstance (decide (m < 16)) s

-- ## GET_INFO, JOB_STATUS (R55, R56)

/-- Byte PTP of GET_INFO. -/
def State.ptpCode (s : State) : Nat :=
  if s.fw.ptp = [] then 3 else if s.fw.ptpMaster then 2 else if s.fb F.CLK_EVENT_PTP_LOCKED 0 then 1 else 0

/-- The word of GLB_FW_VERSION. -/
def State.fwVersion (s : State) : Nat := s.f F.GLB_FW_VERSION_MAJOR 0 * 2 ^ 24 + s.f F.GLB_FW_VERSION_MINOR 0 * 2 ^ 16 + s.f F.GLB_FW_VERSION_BUILD 0

/-- The 48 bytes of GET_INFO (R56). -/
def State.infoBytes (s : State) : List Byte :=
  let b := fun (x : Bool) (k : Nat) => if x then 2 ^ k else 0
  leBytes 4 0x92401F9B ++ leBytes 4 0x000E4200 ++ leBytes 4 s.fwVersion ++
    leBytes 4 (s.f F.GLB_UID_LO_UID 0) ++ leBytes 4 (s.f F.GLB_UID_HI_UID 0) ++
    leBytes 1 s.stage ++ leBytes 1 s.lc ++ leBytes 1 (s.f F.PWR_STATUS_STATE 0) ++ leBytes 1 (s.f F.PWR_STATUS_STAGE 0) ++
    leBytes 2 (s.f F.CLS_DEVICE_ADDR 0) ++ leBytes 1 s.ptpCode ++
    leBytes 1 (b s.fatal 0 + b (s.fb F.SEC_TAMPER_STATUS_TAMPERED 0) 1 + b (s.fb F.GLB_BOOT_STATUS_TRIAL 0) 2 + b (s.fb F.GLB_BOOT_STATUS_FALLBACK 0) 3) ++
    leBytes 1 s.dramGiB ++ leBytes 1 (s.mchan 0).bin ++ leBytes 1 s.channels ++
    leBytes 1 (s.f F.SCH_CAPACITY_IN_SERVICE 0) ++ leBytes 2 s.contextsInUse ++
    leBytes 2 (512 - s.f F.STK_DESC_COUNT_RESERVED 0) ++ leBytes 4 (s.f F.SCH_CAPACITY_CHARGE 0) ++ leBytes 4 (s.f F.SCH_LIMIT_LIMIT 0) ++
    leBytes 4 (s.f F.GLB_HEARTBEAT_COUNT 0)

def State.getInfo (s : State) (m : Nat) : State := s.serve m 0x0001 (· = 0) (fun t => t.putResult m stOk t.infoBytes)

def execGetInfo (m : Nat) (s : State) : Out := onMailbox m (s.getInfo m)

def jobCode (j : JobState) : Nat :=
  match j with
  | .running => 0
  | .done => 1
  | .failed => 2

/-- JOB_STATUS (R55): state and final status; an older job is BAD_ARGUMENT. The layout of the result is the model's choice (log entry 88): one byte of state (0 RUNNING, 1 DONE, 2 FAILED), a zero byte, the status as u16. -/
def State.jobStatus (s : State) (m : Nat) : State :=
  s.serve m 0x0002 (· = 4) (fun t =>
    match t.jobKept? (leAt (t.mbxArgs m) 0 4) with
    | none => t.putResult m stBadArg []
    | some j => t.putResult m stOk (leBytes 1 (jobCode j.state) ++ [0] ++ leBytes 2 j.status))

def execJobStatus (m : Nat) (s : State) : Out := onMailbox m (s.jobStatus m)

-- ## Live update (R65, R67)

/-- The slot that does not run. -/
def State.inactive (s : State) : Nat := 1 - s.f F.GLB_BOOT_STATUS_IMAGE 0

/-- FW_STAGE. The layout of its arguments is the model's choice (log entry 90): offset (u32), flags (one byte, bit 0 ERASE), then 1 to 240 bytes. -/
def State.fwStage (s : State) (m : Nat) : State :=
  s.serve m 0x0070 (fun n => decide (6 ≤ n) && decide (n ≤ 245)) (fun t =>
    let a := t.mbxArgs m
    let off := leAt a 0 4
    let erase := byteAt a 4 % 2 = 1
    let data := a.drop 5
    if slotSize < off + data.length ∨ 2 ≤ byteAt a 4 ∨ (erase ∧ off ≠ 0) then t.putResult m stBadArg []
    else
      let t := t.withFw (fun w => { w with verified := none })
      if erase then t.startJob m (.stage t.inactive off data)
      else (t.program (slotBase t.inactive + off) data).putResult m stOk [])

def execFwStage (m : Nat) (s : State) : Out := onMailbox m (s.fwStage m)

/-- The status that a failed check of R48 gives. -/
def imageStatus (e : Nat) : Nat := if e = 0x03 then stSigFail else if e = 0x04 then stRollback else stBadArg

/-- The checks of FW_VERIFY (R65): those of R48 on the inactive slot, and HANDOVER_VERSION against the running firmware's. The slot that passes, or the status. -/
def State.verifySlot (s : State) : State × Nat :=
  match s.checkImage s.inactive with
  | .error e => (s, imageStatus e)
  | .ok i => if i.handover ≠ s.fw.image.handover then (s, stBadArg) else (s.withFw (fun w => { w with verified := some i }), stOk)

/-- FW_VERIFY: its read of the body outlasts 2 ms (R65), so it runs as a job (R55). -/
def State.fwVerify (s : State) (m : Nat) : State := s.serve m 0x0071 (· = 0) (fun t => t.startJob m .verify)

def execFwVerify (m : Nat) (s : State) : Out := onMailbox m (s.fwVerify m)

/-- A grace timer runs or a contained fault is being handled (R65). -/
def State.faultBusy (s : State) : Bool := s.faultLevel 4 || s.faultLevel 2

/-- FW_ACTIVATE: the directory is written for a trial and the handover begins (R65). The model's choices (log entry 90): the arguments are the window (u16, 600 s where absent) and TRY_COUNT (one byte, 3 where absent); a slot that FW_VERIFY has not passed is BAD_ARGUMENT. -/
def State.fwActivate (s : State) (m : Nat) : State :=
  s.serve m 0x0072 (fun n => n = 0 || n = 2 || n = 3) (fun t =>
    let a := t.mbxArgs m
    let win := if 2 ≤ a.length then leAt a 0 2 else 600
    let tries := if a.length = 3 then byteAt a 2 else 3
    match t.fw.verified with
    | none => t.putResult m stBadArg []
    | some i =>
      if win = 0 then t.putResult m stBadArg []
      else if t.faultBusy then t.putResult m stBusy []
      else
        let old := t.f F.GLB_BOOT_STATUS_IMAGE 0
        let t := t.writeDir { seq := t.nextSeq, active := i.slot, trial := true, tries := tries }
        let t := t.withFw (fun w => { w with confirm := some win, previous := some old, verified := none })
        (t.putResult m stOk []).enterHandover)

def execFwActivate (m : Nat) (s : State) : Out := onMailbox m (s.fwActivate m)

/-- FW_CONFIRM: TRIAL is cleared, and ADVANCE raises the anti-rollback counter (R65, R409). The model's choices (log entry 90): one byte of flags, bit 0 ADVANCE, 0 where absent; with no window open, also after a chip reset in a trial, BAD_ARGUMENT. -/
def State.fwConfirm (s : State) (m : Nat) : State :=
  s.serve m 0x0073 (fun n => decide (n ≤ 1)) (fun t =>
    if t.fw.confirm = none then t.putResult m stBadArg []
    else
      let adv := byteAt (t.mbxArgs m) 0 % 2 = 1
      let t := match t.directory with
        | some (_, d) => t.writeDir { d with seq := (d.seq + 1) % 2 ^ 32, trial := false }
        | none => t
      let t := t.setF F.GLB_BOOT_STATUS_TRIAL 0 0
      let t := t.withFw (fun w => { w with confirm := none, previous := none })
      let t := if adv ∧ t.lc ≠ 4 then t.raiseRollback t.fw.image.secVersion else t
      t.putResult m stOk [])

def execFwConfirm (m : Nat) (s : State) : Out := onMailbox m (s.fwConfirm m)

/-- The confirm window ends without FW_CONFIRM (R67): a live handover back to the previous image, logged. -/
def State.confirmExpire (s : State) : State :=
  match s.fw.confirm, s.fw.previous with
  | some _, some p =>
    if s.stage ≠ 4 then s
    else
      let s := s.writeDir { seq := s.nextSeq, active := p, trial := false, tries := 0 }
      let s := s.withFw (fun w => { w with confirm := none, previous := none })
      (s.logFirmware 2).enterHandover
  | _, _ => s

def execConfirmWindowExpire (s : State) : Out := .next s.confirmExpire

-- ## Expert sessions (R58, R59, R236)

def State.challengeOf (s : State) (m : Nat) : List Byte := Tab.get [] s.fw.challenge m

def State.setChallenge (s : State) (m : Nat) (c : List Byte) : State :=
  s.withFw (fun w => { w with challenge := Tab.set [] w.challenge m c })

/-- The TRNG gives 32 bytes. -/
def State.trng32 (s : State) : List Byte := (Config.trng s.free 32 ++ List.replicate 32 0).take 32

/-- EXPERT_CHALLENGE (R59). -/
def State.expertChallenge (s : State) (m : Nat) : State :=
  s.serve m 0x00A0 (· = 0) (fun t =>
    let c := t.trng32
    (t.draw.setChallenge m c).putResult m stOk c)

def execExpertChallenge (m : Nat) (s : State) : Out := onMailbox m (s.expertChallenge m)

/-- EXPERT_UNLOCK needs a signature from this mailbox in this life cycle (R58, R236). -/
def State.unlockSigned (s : State) (m : Nat) : Bool := decide (s.lc = 2) && !(decide (8 ≤ m) && decide (m ≤ 11))

/-- An attempt that uses the challenge of mailbox `m` discards it whatever its outcome (R59). -/
def State.spendChallenge (s : State) (m op : Nat) : State := if s.mbxDue m op then s.setChallenge m [] else s

/-- EXPERT_UNLOCK (R58, R59, R236). -/
def State.expertUnlock (s : State) (m : Nat) : State :=
  let c := s.challengeOf m
  (s.spendChallenge m 0x00A1).serve m 0x00A1 (fun n => if s.unlockSigned m then n = 114 else true) (fun t =>
    let sig := t.mbxArgs m
    if t.mbxExpert m then t.putResult m stLocked []
    else if !t.unlockSigned m then (t.openSession m).putResult m stOk []
    else if c = [] then t.putResult m stNotPermitted []
    else if Config.ed448Verify (t.otpKey 8) c sig then (t.openSession m).putResult m stOk []
    else t.putResult m stSigFail [])

def execExpertUnlock (m : Nat) (s : State) : Out := onMailbox m (s.expertUnlock m)

/-- EXPERT_LOCK from the holder ends the session (R58). -/
def State.expertLock (s : State) (m : Nat) : State :=
  s.serve m 0x00A2 (· = 0) (fun t =>
    if t.mbxExpert m ∧ t.f (sessionOf m).2 0 = m then (t.closeSession m).putResult m stOk []
    else t.putResult m stNotPermitted [])

def execExpertLock (m : Nat) (s : State) : Out := onMailbox m (s.expertLock m)

/-- No command has reached a remote mailbox for 600 s (R236). -/
def State.remoteTimeout (s : State) : State := s.closeSession 12

def execRemoteSessionTimeout (s : State) : Out := .next s.remoteTimeout

-- ## ROM_RECOVERY (R49)

/-- ROM_INFO: ROM version, LC_STATE, flash size, ROM_ERROR of slots A and B (R49); their widths of 4, 1, 4, 1 and 1 bytes are the model's choice (log entry 87). -/
def State.romInfo (s : State) (m : Nat) : State :=
  if !s.romDue m 0x0800 then s
  else s.putResult m stOk (leBytes 4 Config.romVersion ++ leBytes 1 s.lc ++ leBytes 4 Config.flashSize ++ leBytes 1 s.fw.romErrors.1 ++ leBytes 1 s.fw.romErrors.2)

def execRomInfo (m : Nat) (s : State) : Out := onMailbox m (s.romInfo m)

/-- A recovery command of a part that is not scrapped (R412). -/
def State.recover (s : State) (m op : Nat) (lenOk : Nat → Bool) (act : State → State) : State :=
  if !s.romDue m op || decide (s.lc = 4) then s
  else if !lenOk (s.mbxLen m) then s.putResult m stBadLength []
  else act s

/-- FLASH_READ (R49): offset u32, then the length in one byte (log entry 87). -/
def State.flashRead (s : State) (m : Nat) : State :=
  s.recover m 0x0801 (· = 5) (fun t =>
    let a := t.mbxArgs m
    let n := byteAt a 4
    if n = 0 ∨ 240 < n then t.putResult m stBadArg [] else t.putResult m stOk (t.flashBytes (leAt a 0 4) n))

def execFlashRead (m : Nat) (s : State) : Out := onMailbox m (s.flashRead m)

/-- FLASH_ERASE (R49). -/
def State.flashErase (s : State) (m : Nat) : State :=
  s.recover m 0x0802 (· = 4) (fun t =>
    let o := leAt (t.mbxArgs m) 0 4
    if o % 65536 ≠ 0 then t.putResult m stBadArg [] else (t.erase o 65536).putResult m stOk [])

def execFlashErase (m : Nat) (s : State) : Out := onMailbox m (s.flashErase m)

/-- FLASH_WRITE (R49): offset u32, the length in one byte (log entry 87), then the data. -/
def State.flashWrite (s : State) (m : Nat) : State :=
  s.recover m 0x0803 (fun n => decide (6 ≤ n) && decide (n ≤ 245)) (fun t =>
    let a := t.mbxArgs m
    let n := byteAt a 4
    if n = 0 ∨ 240 < n ∨ a.length ≠ 5 + n then t.putResult m stBadArg []
    else (t.program (leAt a 0 4) (a.drop 5)).putResult m stOk [])

def execFlashWrite (m : Nat) (s : State) : Out := onMailbox m (s.flashWrite m)

def State.romReset (s : State) (m : Nat) : State := if !s.romDue m 0x0804 || decide (s.lc = 4) then s else s.chipReset

def execRomReset (m : Nat) (s : State) : Out := onMailbox m (s.romReset m)

-- ## Resets and boot

def execPowerOnReset (s : State) : Out := .next s.powerOn

/-- RESET_N: a chip reset; in STANDBY a cold start that discards the saved state (R390, R391). -/
def execResetN (s : State) : Out := .next s.chipReset

/-- The clearing ends (R392): the ROM starts, once the core domain is powered. The wipe it makes is recorded (R407). -/
def State.clearingDone (s : State) : State :=
  if s.fw.clearing && !s.pwr.standby then
    ((s.withFw (fun w => { w with clearing := false })).setF F.SPD_CTRL_CAUSE 0 4).setF F.GLB_BOOT_STATUS_STAGE 0 0
  else s

def execClearingDone (s : State) : Out := .next s.clearingDone

/-- The ROM has chosen and verified an image (R48). -/
def State.romVerifyDone (s : State) : State :=
  if !s.fw.clearing && (decide (s.stage ≤ 1) || decide (s.stage = 5)) && !s.pwr.cpHalted then s.romDone else s

def execRomVerifyDone (s : State) : Out := .next s.romVerifyDone

/-- Firmware reaches FW_READY (R50), not after a training failure (R305). -/
def State.firmwareReady (s : State) : State :=
  if decide (s.stage = 3) && !s.pwr.cpHalted && (List.range s.channels).all (fun c => s.f F.DDR_STATUS_STATE c ≠ ddrFailed) then s.fwReady.goAfter else s

def execFwReady (s : State) : Out := .next s.firmwareReady

/-- A fault of the processor complex (R359, FSIDs 1 to 3). The spec gives no command that reports one: the heartbeat does, by the model's choice (log entry 107). -/
def State.cpxFault (s : State) (k : CpxFault) : State :=
  match k with
  | .none => s
  | .lockstep => s.raiseFault 1 0 []
  | .sramUncorrectable => s.raiseFault 2 0 []
  | .sramCorrected => s.raiseFault 3 0 []

/-- The 1 ms beat of GLB_HEARTBEAT (R43). -/
def State.heartbeat (s : State) : State :=
  if decide (s.stage = 4) && !s.pwr.cpHalted then s.setF F.GLB_HEARTBEAT_COUNT 0 (s.f F.GLB_HEARTBEAT_COUNT 0 + 1) else s

def execHeartbeatTick (s : State) (k : CpxFault := .none) : Out := .next (s.heartbeat.cpxFault k)

-- ## Semaphores

/-- A lease expires (R62). A lock without a lease has none to expire. -/
def State.leaseExpire (s : State) (n : Nat) : State := if s.f F.SEM_LEASE_VAL n = 0 then s else s.breakLock n

def execSemLeaseExpire (n : Nat) (s : State) : Out := onInstance (decide (n < 64)) (s.leaseExpire n)

-- ## PCIe

/-- Reset of a function (R58, R60): its locks break, its session ends, its MSI settings return to their reset values. -/
def State.functionReset (s : State) (f : Nat) : State :=
  let s := s.breakLocksOf [4 + f]
  let s := s.closeSession (8 * f)
  s.withIntc (fun w => { w with masked := w.masked.filter (fun k => decide (k / 32 ≠ f)), due := w.due.filter (fun k => decide (k / 32 ≠ f)), msiEnable := Tab.set 0 w.msiEnable f 0, mme := Tab.set 0 w.mme f 0 })

def execPcieFunctionReset (f : Nat) (s : State) : Out := onInstance (decide (f < 2)) (s.functionReset f)

/-- PCIE_PERST_N low (R428): the link is held down and both functions are reset as by a hot reset. -/
def State.perst (s : State) : State := ((s.functionReset 0).functionReset 1).setF F.PCIE_LINK_STATUS_PM_STATE 0 3

def execPciePerst (s : State) : Out := .next s.perst

/-- The link changes state (R355, R389): link down resets both functions; in L0 the due messages are sent. -/
def State.linkChange (s : State) (pm ltssm speed width : Nat) : State :=
  let s := s.setF F.PCIE_LINK_STATUS_PM_STATE 0 pm
  let s := s.setF F.PCIE_LINK_STATUS_LTSSM 0 ltssm
  let s := s.setF F.PCIE_LINK_STATUS_SPEED 0 speed
  let s := s.setF F.PCIE_LINK_STATUS_WIDTH 0 width
  let s := (s.withAon (fun w => { w with pcieActivity := decide (pm ≤ 1) })).noteFalls
  let s := if pm = 3 then (s.functionReset 0).functionReset 1 else s
  if pm = 0 then s.msiFlush else s

def execPcieLinkStateChange (pm ltssm speed width : Nat) (s : State) : Out := .next (s.linkChange (pm % 4) ltssm speed width)

/-- A vector is unmasked: its due message is sent if the set is still non-empty (R355). -/
def State.msiUnmask (s : State) (f v : Nat) : State :=
  let s := s.withIntc (fun w => { w with masked := w.masked.filter (· ≠ 32 * f + v) })
  s.msiFlush

def execMsiUnmask (f v : Nat) (s : State) : Out := onInstance (decide (f < 2) && decide (v < 32)) (s.msiUnmask f v)

def execDebugPortReset (s : State) : Out := .next (s.breakLocksOf [8])

end Sys2Proof.Machine
end

