-- ==== Sys2Proof/Machine/Faults.lean ====
section
/-! DEFINITION. The commands and events of the interrupt controller and the fault collector that are not register accesses (R353, R358 to R373). -/

namespace Sys2Proof.Machine

-- ## Interrupt controller

/-- An entry of INTC_ROUTE_SET: SOURCE (u16), FLAGS, TARGET, VECTOR and a zero byte. -/
def routeEntry (a : List Byte) (k : Nat) : List Byte := sliceOf a (2 + 6 * k) 6

/-- The entry is in range: source 1 to 1,023, flags and vector as given, and a secure source goes to CP-S or HOST. -/
def State.routeEntryOk (s : State) (e : List Byte) : Bool :=
  let n := leAt e 0 2
  decide (1 ≤ n) && decide (n ≤ 1023) && decide (byteAt e 2 ≤ 3) && decide (byteAt e 3 ≤ 3) && decide (byteAt e 4 ≤ 31) && decide (byteAt e 5 = 0) &&
    !(s.sourceSecure n && (byteAt e 3 = 1 || byteAt e 3 = 3))

/-- INTC_ROUTE_SET: every entry is checked before any is written. -/
def State.intcRouteSet (s : State) (m : Nat) : State :=
  s.serve m 0x0490 (fun n => decide (8 ≤ n)) (fun t =>
    let a := t.mbxArgs m
    let c := byteAt a 0
    let es := (List.range c).map (routeEntry a)
    if c = 0 ∨ 41 < c ∨ a.length ≠ 2 + 6 * c then t.putResult m stBadLength []
    else if ¬ (8 ≤ m ∧ m ≤ 11) ∧ es.any (fun e => t.sourceSecure (leAt e 0 2)) then t.putResult m stNotPermitted []
    else if byteAt a 1 ≠ 0 ∨ es.all t.routeEntryOk = false then t.putResult m stBadArg []
    else (chainAll es (fun e u => u.writeRoute (leAt e 0 2) (byteAt e 2 % 2) (byteAt e 2 / 2) (byteAt e 3) (byteAt e 4)) t).putResult m stOk [])

def execIntcRouteSet (m : Nat) (s : State) : Out := onMailbox m (s.intcRouteSet m)

/-- A route change applies; on a claimed source it waits for the completion (R353). -/
def State.routeApply (s : State) (n : Nat) : State := if s.claimed n then s else (s.applyRoute n).msiScan

def execIntcRouteApply (n : Nat) (s : State) : Out := onInstance (decide (n < 1024)) (s.routeApply n)

/-- The wake latch of a wake-capable source is set by a rise of its level while FCLK is stopped (R358). -/
def State.setLatch (s : State) (n : Nat) : State :=
  if s.pwr.standby && wakeCapable n && s.level n && decide (n ∉ s.aon.steady) && decide (n ∉ s.aon.wakeLatch) then s.withAon (fun w => { w with wakeLatch := w.wakeLatch ++ [n] }) else s

def execWakeLatchSet (n : Nat) (s : State) : Out := onInstance (decide (n < 1024)) (s.setLatch n)

-- ## Fault collector

/-- FLT_SAFE_KIND of port `n` becomes `k`; LMP_PORT_STATUS mirrors it, and the port follows at its next sync (R225). -/
def State.setSafeKind (s : State) (n k : Nat) : State :=
  let put := fun (F : Fld) (b : Nat) => if k = 1 then s.orF F 0 b else s.clrF F 0 (2 ^ b)
  let s := if n < 32 then put F.FLT_SAFE_KIND_LO_HOLD n else put F.FLT_SAFE_KIND_HI_HOLD (n - 32)
  s.setF F.LMP_PORT_STATUS_SAFE_KIND n k

/-- SAFE_STATE_SET: PORT (0 to 47 or 0xFF) and KIND. -/
def State.safeStateSet (s : State) (m : Nat) : State :=
  s.serve m 0x0016 (· = 2) (fun t =>
    let a := t.mbxArgs m
    let p := byteAt a 0
    let k := byteAt a 1
    if 1 < k ∨ (47 < p ∧ p ≠ 255) then t.putResult m stBadArg []
    else (chainAll (if p = 255 then allPorts else [p]) (fun n u => u.setSafeKind n k) t).putResult m stOk [])

def execSafeStateSet (m : Nat) (s : State) : Out := onMailbox m (s.safeStateSet m)

/-- FSIDs 1 to 34. -/
def allFsids : List Nat := (List.range 35).drop 1

/-- FAULT_CLEAR: FSID (1 to 34 or 0xFF) and FLAGS (bit 0 RELEASE), with the log entries of R372. -/
def State.faultClear (s : State) (m : Nat) : State :=
  s.serve m 0x0081 (· = 2) (fun t =>
    let a := t.mbxArgs m
    let f := byteAt a 0
    if ¬ ((1 ≤ f ∧ f ≤ 34) ∨ f = 255) ∨ 1 < byteAt a 1 then t.putResult m stBadArg []
    else
      let named := if f = 255 then allFsids else [f]
      let t := chainAll named (fun x u => if f ≠ 255 ∨ u.clearable x then u.clearSource x else u) t
      let t := if byteAt a 1 = 1 then chainAll named (fun x u => u.releaseSource x) t else t
      t.putResult m stOk [])

def execFaultClear (m : Nat) (s : State) : Out := onMailbox m (s.faultClear m)

/-- The sources whose class is fixed (R359). -/
def fixedSource (f : Nat) : Bool := f = 1 || f = 5 || f = 8 || f = 21 || f = 34

/-- FAULT_REACTION_SET: FSID, CLASS, REACTION, FLAGS, UNIT, VAL (u16). -/
def State.faultReactionSet (s : State) (m : Nat) : State :=
  s.serve m 0x0460 (· = 7) (fun t =>
    let a := t.mbxArgs m
    let f := byteAt a 0
    let c := byteAt a 1
    let r := byteAt a 2
    let g := byteAt a 3
    let u := byteAt a 4
    let v := leAt a 5 2
    if f = 0 ∨ 34 < f ∨ 2 < c ∨ 3 < r ∨ 15 < g ∨ 1 < u ∨ 1023 < v ∨ (fixedSource f ∧ c ≠ 2) ∨ (r = 2 ∧ (v = 0 ∨ 1000 < v)) then t.putResult m stBadArg []
    else
      let t := t.setF F.FLT_SRC_CFG_CLASS f c
      let t := t.setF F.FLT_SRC_CFG_REACTION f r
      let t := t.setF F.FLT_SRC_CFG_ESC_SAFE f (g % 2)
      let t := t.setF F.FLT_SRC_CFG_ESC_FATAL f (g / 2 % 2)
      let t := t.setF F.FLT_SRC_CFG_SCOPE f (g / 4 % 2)
      let t := t.setF F.FLT_SRC_CFG_LOG f (g / 8 % 2)
      let t := t.setF F.FLT_SRC_CFG_UNIT f u
      (t.setF F.FLT_SRC_CFG_VAL f v).putResult m stOk [])

def execFaultReactionSet (m : Nat) (s : State) : Out := onMailbox m (s.faultReactionSet m)

/-- The entry with sequence number `q` (R372). -/
def State.evtRead (s : State) (q : Nat) : List Byte :=
  let e := Tab.get [] s.flt.log (q % 4096)
  e ++ List.replicate (32 - e.length) 0

/-- The oldest entry held: the log keeps 4,096. -/
def State.evtOldest (s : State) : Nat :=
  let h := s.f F.EVT_HEAD_SEQ 0
  if Tab.get [] s.flt.log (h % 4096) = [] then (if h ≤ 4096 then 0 else h - 4096) else (h + 2 ^ 32 - 4096) % 2 ^ 32

/-- The entry from which EVENT_READ with FROM `q` reads (R373): `q` where it is held, the oldest held where it is older, and HEAD, which is none, where it lies past HEAD (log entry 108). -/
def State.evtFirst (s : State) (q : Nat) : Nat :=
  let h := s.f F.EVT_HEAD_SEQ 0
  if (h + 2 ^ 32 - q) % 2 ^ 32 ≤ (h + 2 ^ 32 - s.evtOldest) % 2 ^ 32 then q else if (q + 2 ^ 32 - h) % 2 ^ 32 < 2 ^ 31 then h else s.evtOldest

/-- EVENT_READ (R373): FROM (u32), COUNT, FLAGS (bit 0 ADVANCE). That a FROM past HEAD returns no entry, and that TAIL never moves back, are the model's choices (log entry 108). -/
def State.eventRead (s : State) (m : Nat) : State :=
  s.serve m 0x0080 (· = 6) (fun t =>
    let a := t.mbxArgs m
    let c := byteAt a 4
    let adv := byteAt a 5 = 1
    if c = 0 ∨ 7 < c ∨ 1 < byteAt a 5 then t.putResult m stBadArg []
    else if adv ∧ t.lockElsewhere 7 then t.putResult m stLocked []
    else
      let h := t.f F.EVT_HEAD_SEQ 0
      let first := t.evtFirst (leAt a 0 4)
      let n := min c ((h + 2 ^ 32 - first) % 2 ^ 32)
      let data := leBytes 4 h ++ leBytes 4 (t.f F.EVT_TAIL_SEQ 0) ++ (List.range n).flatMap (fun i => t.evtRead ((first + i) % 2 ^ 32))
      let t := t.putResult m stOk data
      if adv ∧ 0 < n ∧ (first + n + 2 ^ 32 - t.f F.EVT_TAIL_SEQ 0) % 2 ^ 32 ≤ t.evtHeld then t.setF F.EVT_TAIL_SEQ 0 (first + n) else t)

def execEventRead (m : Nat) (s : State) : Out := onMailbox m (s.eventRead m)

/-- A grace timer expires (R364). -/
def execGraceExpire (f : Nat) (s : State) : Out := onInstance (decide (1 ≤ f) && decide (f < 64)) (s.graceExpire f)

/-- The firmware watchdog expires (R366): it counts only at FW_READY with EN = 1. -/
def State.watchdogExpire (s : State) : State :=
  if s.fb F.FLT_WDOG_EN 0 && decide (s.stage = 4) then s.raiseFault 4 0 [] else s

def execFwWatchdogExpire (s : State) : Out := .next s.watchdogExpire

/-- The core PLL loses lock (R359, R369). -/
def State.corePllUnlock (s : State) : State := (s.setF F.CLK_STATUS_CORE_LOCK 0 0).raiseFault 5 0 []

def execCorePllUnlock (s : State) : Out := .next s.corePllUnlock

/-- A quad PLL loses lock (R359). -/
def State.lanePllUnlock (s : State) (q : Nat) : State := (s.clrF F.CLK_STATUS_LANE_LOCK 0 (2 ^ q)).raiseFault 6 q []

def execLanePllUnlock (q : Nat) (s : State) : Out := onInstance (decide (q < 16)) (s.lanePllUnlock q)

/-- The warning threshold in force: 85 to 115 °C (PWR_THERM). -/
def State.warnTemp (s : State) : Nat := min 115 (max 85 (s.f F.PWR_THERM_WARN 0))

/-- A sensor reads `tj` in 1/16 °C. -/
def State.sensorReads (s : State) (k : Nat) (tj : Int) : State := s.setF F.PWR_TEMP_TJ k (unsigned 16 tj)

/-- A sensor at or above WARN (R359, R389). -/
def State.thermHigh (s : State) (k : Nat) (tj : Int) : State :=
  let s := s.sensorReads k tj
  if 16 * (s.warnTemp : Int) ≤ tj then
    if s.pwr.standby then (s.withAon (fun w => { w with hotInStandby := true })).setLatch 838
    else (s.setF F.PWR_EVENT_THERM 0 1).raiseFault 7 k []
  else if s.pwr.standby then (s.withAon (fun w => { w with hotInStandby := false })).noteFalls
  else s

def execThermHigh (k : Nat) (tj : Int) (s : State) : Out := onInstance (decide (k < 8)) (s.thermHigh k tj)

/-- A sensor at or above 120 °C (R359). -/
def State.thermTrip (s : State) (k : Nat) (tj : Int) : State :=
  let s := s.sensorReads k tj
  if 16 * 120 ≤ tj then s.raiseFault 8 k [] else s

def execThermTrip (k : Nat) (tj : Int) (s : State) : Out := onInstance (decide (k < 8)) (s.thermTrip k tj)

/-- A rail other than VDD_CORE leaves ±5% (R359, R380). -/
def State.railFault (s : State) (k : Nat) : State := (s.setF F.PWR_EVENT_RAIL 0 1).raiseFault 9 k []

def execRailFault (k : Nat) (s : State) : Out := onInstance (railOk k) (s.railFault k)

end Sys2Proof.Machine
end

