-- ==== Sys2Proof/Machine/Security.lean ====
section
/-! DEFINITION. Security commands and events: tamper, scratchpad wipe, life cycle, OTP, attestation, content keys (R405 to R423). -/

namespace Sys2Proof.Machine

-- ## Scratchpad wipe (R407)

/-- A wipe starts, or its cause is recorded while one runs: bit 0 tamper, 1 life cycle, 2 clearing, 3 software. -/
def State.wipe (s : State) (cause : Nat) : State :=
  let s := if s.fb F.SPD_CTRL_BUSY 0 then s.orF F.SPD_CTRL_CAUSE 0 cause else (s.setF F.SPD_CTRL_CAUSE 0 (2 ^ cause)).setF F.SPD_CTRL_BUSY 0 1
  s.withSec (fun w => { w with spd := [] })

/-- The wipe ends: every word is zero, and the accesses that waited are made. -/
def State.wipeDone (s : State) : State :=
  if s.fb F.SPD_CTRL_BUSY 0 then ((s.withSec (fun w => { w with spd := [] })).setF F.SPD_CTRL_BUSY 0 0).spdServe else s

def execSpdWipeDone (s : State) : Out := .next s.wipeDone

-- ## Tamper (R413, R414)

/-- A tamper source is enabled: sources 4 to 7 always in DEPLOYED. -/
def State.tamperEnabled (s : State) (i : Nat) : Bool := (s.f F.SEC_TAMPER_CFG_EN 0).testBit i || (decide (4 ≤ i) && decide (s.lc = 2))

/-- Content keys, sessions and challenges are gone (R59, R414). -/
def State.dropSecrets (s : State) : State :=
  ((s.withSec (fun w => { w with keys := [] })).closeSessions).withFw (fun w => { w with challenge := [] })

/-- A key written in the FCLK of a trip: its command returns BUSY_RETRY (R414). -/
def State.spoilKeyLoads (s : State) : State :=
  let now := s.time.fclk
  chainAll s.sec.keyAt (fun e t => if e.2 = now ∧ t.fb F.MBX_STATUS_RESULT_PENDING e.1 then t.putResult e.1 stBusy [] else t)
    (s.withSec (fun w => { w with keyAt := [], tripAt := some now }))

/-- The response to a trip of source `i` (R414). -/
def State.tamper (s : State) (i : Nat) : State :=
  if !s.tamperEnabled i then s
  else
    let s := s.orF F.SEC_TAMPER_STATUS_TRIPPED 0 i
    let s := s.setF F.SEC_TAMPER_STATUS_TAMPERED 0 1
    let s := s.setF F.SEC_STATUS_TAMPERED 0 1
    let s := s.bump F.SEC_TAMPER_STATUS_COUNT 0
    let s := if (s.f F.SEC_TAMPER_CFG_LOCKOUT 0).testBit i then s.setF F.SEC_STATUS_LOCKOUT 0 1 else s
    let s := s.withAon (fun w => { w with trippedNow := if i ∈ w.trippedNow then w.trippedNow else i :: w.trippedNow })
    let s := s.dropSecrets.spoilKeyLoads.wipe 0
    if s.pwr.standby then s.setLatch (768 + i) else s.raiseFault 31 i []

/-- An access by a debug port that is disabled (R399): activity that the debug detector sees in DEPLOYED and SCRAPPED (R413). -/
def State.debugSeen (s : State) (o : Origin) : State := if o = .debug ∧ (s.lc = 2 ∨ s.lc = 4) then s.tamper 7 else s

def execTamperTrip (i : Nat) (s : State) : Out := onInstance (decide (i < 8)) (s.tamper i)

-- ## Life cycle (R410 to R412)

/-- A life-cycle transition to state `n` (R412): the scratchpad is wiped, content keys are cleared, LC is programmed, and a chip reset is due, which this row makes. -/
def State.transition (s : State) (m n : Nat) : State :=
  let s := s.wipe 1
  let s := s.withSec (fun w => { w with keys := [] })
  let s := s.programLc n
  (s.putResult m stOk []).chipReset

/-- Every byte of a secure DRAM region is zero (R412). -/
def State.zeroSecure (s : State) : State :=
  let inSecure := fun (a : Nat) => (List.range 64).any (fun r =>
    s.fb F.SEC_REGION_ATTR_EN r && s.fb F.SEC_REGION_ATTR_WORLD r && decide (s.f F.SEC_REGION_BASE_PAGE r ≤ a / 4096) && decide (a / 4096 ≤ s.f F.SEC_REGION_LIMIT_PAGE r))
  { s with dram := s.dram.filter (fun e => !inSecure e.1) }.withMem (fun w => { w with poison := w.poison.filter (fun l => !inSecure (64 * l)) })

/-- The wipes of DEPLOYED to RETURNED and of RETURNED to SCRAPPED (R412). -/
def State.retire (s : State) : State := (s.zeroSecure.blowLock 13).blowLock 14

/-- A LIFECYCLE_ADVANCE command with this OP waits in mailbox `m` (R411). -/
def State.serveLc (s : State) (m op : Nat) (lenOk : Nat → Bool) (act : State → State) : State :=
  if s.mbxDue m 0x0092 && decide (byteAt (s.mbxArgs m) 0 ≠ op) then s else s.serve m 0x0092 lenOk act

/-- OP 0 ADVANCE. An OP that R411 does not list is a BAD_ARGUMENT (R55). -/
def State.lcAdvance (s : State) (m : Nat) : State :=
  if s.mbxDue m 0x0092 && decide (5 < byteAt (s.mbxArgs m) 0) then s.serve m 0x0092 (fun _ => true) (fun t => t.putResult m stBadArg [])
  else s.serveLc m 0 (· = 1) (fun t =>
    match t.lc with
    | 0 => if t.otpLock 6 then t.transition m 1 else t.putResult m stNotPermitted []
    | 1 => if t.otpLock 10 && t.otpLock 9 && t.otpLock 8 && t.otpLock 11 && t.otpLock 4 then t.closeSessions.transition m 2 else t.putResult m stNotPermitted []
    | 3 => t.retire.transition m 4
    | _ => t.putResult m stNotPermitted [])

def execLcAdvance (m : Nat) (s : State) : Out := onMailbox m (s.lcAdvance m)

/-- OP 1 GENERATE_ID. -/
def State.generateId (s : State) (m : Nat) : State :=
  s.serveLc m 1 (· = 1) (fun t =>
    if t.lc ≠ 1 ∨ t.otpLock 10 then t.putResult m stNotPermitted []
    else if !Config.trngHealthy t.free then t.draw.putResult m stInternal []
    else
      let seed := (Config.shake256 (Config.trng t.free 1024)).take 57
      let t := t.draw
      let t := (t.blow (otpArea 10).1 seed).blow (otpArea 9).1 ((Config.ed448Public seed).take 57)
      (((t.blowLock 10).blowLock 9).setF F.SEC_STATUS_ID_OK 0 1).putResult m stOk [])

def execGenerateId (m : Nat) (s : State) : Out := onMailbox m (s.generateId m)

/-- The life cycles in which an area is programmed (R408). -/
def areaOpen (lc area : Nat) : Bool :=
  if area ≤ 2 || area = 6 || area = 7 then lc = 0
  else if area = 4 then lc = 0 || lc = 1
  else if (decide (8 ≤ area) && decide (area ≤ 11)) || area = 13 then lc = 1
  else false

/-- OP 2 PROGRAM: area, offset (u16), then 1 to 64 bytes. -/
def State.otpProgram (s : State) (m : Nat) : State :=
  s.serveLc m 2 (fun n => decide (5 ≤ n) && decide (n ≤ 68)) (fun t =>
    let a := t.mbxArgs m
    let area := byteAt a 1
    let off := leAt a 2 2
    let data := a.drop 4
    if t.lc ≠ 0 ∧ t.lc ≠ 1 then t.putResult m stNotPermitted []
    else if 13 < area ∨ (otpArea area).2 < off + data.length then t.putResult m stBadArg []
    else if !areaOpen t.lc area || (decide (area < 12) && t.otpLock area) then t.putResult m stNotPermitted []
    else (t.blow ((otpArea area).1 + off) data).putResult m stOk [])

def execOtpProgram (m : Nat) (s : State) : Out := onMailbox m (s.otpProgram m)

/-- OP 3 LOCK: area. -/
def State.otpLockArea (s : State) (m : Nat) : State :=
  s.serveLc m 3 (· = 2) (fun t =>
    let area := byteAt (t.mbxArgs m) 1
    if t.lc ≠ 0 ∧ t.lc ≠ 1 then t.putResult m stNotPermitted []
    else if 11 < area then t.putResult m stBadArg []
    else
      let t := t.blowLock area
      let t := t.setF F.SEC_STATUS_ID_OK 0 (if t.idOk then 1 else 0)
      (t.setF F.SEC_STATUS_KWK_OK 0 (if t.kwkOk then 1 else 0)).putResult m stOk [])

def execOtpLock (m : Nat) (s : State) : Out := onMailbox m (s.otpLockArea m)

/-- OP 4 REVOKE_KEY0. -/
def State.revokeKey0 (s : State) (m : Nat) : State :=
  s.serveLc m 4 (· = 1) (fun t =>
    if (t.lc ≠ 1 ∧ t.lc ≠ 2) ∨ t.fw.image.underKey1 = false then t.putResult m stNotPermitted []
    else ((t.blowLock 12).setF F.SEC_STATUS_REVOKE0 0 1).putResult m stOk [])

def execRevokeKey0 (m : Nat) (s : State) : Out := onMailbox m (s.revokeKey0 m)

/-- The message that OP 5 signs (R412): challenge, UID big-endian, "RETURN". -/
def State.returnMessage (s : State) (c : List Byte) : List Byte :=
  c ++ (s.otpBytes 0 8).reverse ++ [0x52, 0x45, 0x54, 0x55, 0x52, 0x4E]

/-- OP 5 RETURN, with a 114-byte signature. -/
def State.lcReturn (s : State) (m : Nat) : State :=
  let c := s.challengeOf m
  (if byteAt (s.mbxArgs m) 0 = 5 then s.spendChallenge m 0x0092 else s).serveLc m 5 (· = 115) (fun t =>
    let sig := (t.mbxArgs m).drop 1
    if t.lc ≠ 2 ∨ c = [] then t.putResult m stNotPermitted []
    else if Config.ed448Verify (t.otpKey 8) (t.returnMessage c) sig then t.retire.transition m 3
    else t.putResult m stSigFail [])

def execLcReturn (m : Nat) (s : State) : Out := onMailbox m (s.lcReturn m)

-- ## Content keys (R418, R419)

/-- The KEY_LOAD of mailbox `m` writes a key and ends; in the FCLK of a trip the key is cleared again (R414). -/
def State.putKey (s : State) (m wall : Nat) (odd : Bool) (key : List Byte) : State :=
  let now := s.time.fclk
  if s.sec.tripAt = some now then s.putResult m stBusy []
  else
    (s.withSec (fun w => { w with keys := { wall := wall, odd := odd, key := key } :: w.keys.filter (fun k => !(k.wall = wall && k.odd = odd)), keyAt := (m, now) :: w.keyAt.filter (fun e => e.2 = now) })).putResult m stOk []

/-- A further key of this wall fits: 32 slots, two per wall for up to 16 walls. -/
def State.keyRoom (s : State) (wall : Nat) : Bool :=
  s.sec.keys.any (fun k => k.wall = wall) || decide ((s.sec.keys.map (·.wall)).dedup.length < 16)

/-- The wall is open with contexts but no protection (R419). -/
def State.keyTooLate (s : State) (wall : Nat) : Bool := s.wallHasContexts wall && !s.wallProtected wall

/-- KEY_LOAD: WALL, PARITY, FLAGS (bit 0 WRAPPED, bit 1 CLEAR), then the key. -/
def State.keyLoad (s : State) (m : Nat) : State :=
  s.serve m 0x0091 (fun n => n = 3 || n = 35 || n = 63) (fun t =>
    let a := t.mbxArgs m
    let wall := byteAt a 0
    let par := byteAt a 1
    let fl := byteAt a 2
    let odd := par = 1
    if 1 < par ∨ 3 < fl ∨ t.keyTooLate wall then t.putResult m stBadArg []
    else if 2 ≤ fl then
      (t.withSec (fun w => { w with keys := w.keys.filter (fun k => !(k.wall = wall && k.odd = odd)) })).putResult m stOk []
    else if a.length ≠ (if fl = 1 then 63 else 35) then t.putResult m stBadLength []
    else if !t.keyRoom wall then t.putResult m stNoResource []
    else if fl = 0 then t.putKey m wall odd (a.drop 3)
    else
      let iv := sliceOf a 3 12
      let ct := sliceOf a 15 32
      let tag := sliceOf a 47 16
      let kwk := t.otpBytes 0x200 32
      let aad := [BitVec.ofNat 8 wall, BitVec.ofNat 8 par]
      if !t.kwkOk then t.putResult m stNotPermitted []
      else if Config.gcmTag kwk iv aad ct = tag then t.putKey m wall odd (gcmXor kwk iv ct)
      else t.putResult m stSigFail [])

def execKeyLoad (m : Nat) (s : State) : Out := onMailbox m (s.keyLoad m)

-- ## Attestation (R416, R417)

/-- Hewers whose loaded patch set has identity `p`, as a mask. -/
def State.patchMask (s : State) (p : Nat) : Nat :=
  (List.range 24).foldl (fun a h => if s.f F.HWR_PATCH_STATUS_STATE h = 1 ∧ s.f F.HWR_PATCH_STATUS_PATCH_ID h = p then a + 2 ^ h else a) 0

/-- The distinct loaded patch sets in ascending order. -/
def State.patchSets (s : State) : List Nat :=
  let ids := ((List.range 24).filter (fun h => s.f F.HWR_PATCH_STATUS_STATE h = 1)).map (fun h => s.f F.HWR_PATCH_STATUS_PATCH_ID h)
  (ids.dedup).mergeSort (fun a b => decide (a ≤ b))

/-- The bytes of the configuration area as read at FW_INIT, which has no given layout: an open function of its flash cells and of what firmware had saved there. -/
def State.configBytes (s : State) : List Byte :=
  Config.areaBytes (Tab.getList 0xFF s.fw.config configBase configSize) s.fw.configSaved.cal (s.fw.configSaved.lanes.flatMap (fun e => beBytes 1 e.1 ++ e.2))

/-- The measurement of the configuration (R417). -/
def State.configMeasure (s : State) : List Byte :=
  let world := s.f F.SEC_BLOCK_WORLD_LOCK 0 * 2 ^ 31 + s.f F.SEC_BLOCK_WORLD_WORLD 0 * 16 + 12 + s.f F.SEC_BLOCK_WORLD_WORLD1 0 * 2
  Config.shake256 (s.configBytes ++ beBytes 4 world ++ (List.range 64).flatMap (fun r =>
    beBytes 4 (s.f F.SEC_REGION_BASE_PAGE r) ++ beBytes 4 (s.f F.SEC_REGION_LIMIT_PAGE r) ++
      beBytes 4 (s.f F.SEC_REGION_ATTR_EN r * 2 ^ 31 + s.f F.SEC_REGION_ATTR_WORLD r * 2 ^ 30 + s.f F.SEC_REGION_ATTR_LOCK r * 2 ^ 29 + s.f F.SEC_REGION_ATTR_WR r * 2 ^ 12 + s.f F.SEC_REGION_ATTR_RD r)))

/-- Exactly `n` bytes: cut, or filled with zeros. -/
def fit (n : Nat) (bs : List Byte) : List Byte := (bs ++ List.replicate n 0).take n

/-- A signed report for a nonce (R417). -/
def State.buildReport (s : State) (nonce : List Byte) : List Byte :=
  let sets := s.patchSets
  let b := fun (x : Bool) (k : Nat) => if x then 2 ^ k else 0
  let partials := (List.range 24).any (fun h => decide (s.f F.HWR_PATCH_STATUS_STATE h = 2))
  let session := s.fb F.GLB_EXPERT_UNLOCKED_F0 0 || s.fb F.GLB_EXPERT_UNLOCKED_F1 0 || s.fb F.GLB_EXPERT_UNLOCKED_R 0
  let flags := b (s.fb F.SEC_TAMPER_STATUS_TAMPERED 0) 0 + b session 1 + b s.fatal 2 + b (s.fb F.GLB_BOOT_STATUS_TRIAL 0) 3 + b partials 4
  let body := [0x59, 0x46, 0x41, 0x54] ++ beBytes 2 1 ++ beBytes 2 (264 + 72 * sets.length + 114) ++ (s.otpBytes 0 8).reverse ++
    beBytes 1 s.lc ++ beBytes 1 flags ++ beBytes 2 (s.f F.SEC_TAMPER_STATUS_COUNT 0) ++ beBytes 4 s.fwVersion ++
    beBytes 2 s.fw.image.secVersion ++ beBytes 2 s.rollback ++ beBytes 8 s.tick4 ++ fit 32 nonce ++ fit 64 s.fw.image.bodyHash ++
    fit 64 s.fw.image.dataHash ++ fit 64 s.configMeasure ++ beBytes 2 sets.length ++ [0, 0] ++
    sets.flatMap (fun p => beBytes 2 p ++ beBytes 3 (s.patchMask p) ++ [0, 0, 0] ++ fit 64 (s.patchMeasure p))
  body ++ fit 114 (Config.ed448Sign (s.otpKey 10) body)

/-- ATTEST (R416): FLAGS (bit 0 NEW, bit 1 PUBKEY), a zero byte, OFFSET (u16) and, with NEW, NONCE. Without a kept report TOTAL is 0 (log entry 110). -/
def State.attest (s : State) (m : Nat) : State :=
  s.serve m 0x0090 (fun n => n = 4 || n = 36) (fun t =>
    let a := t.mbxArgs m
    let fl := byteAt a 0
    let off := leAt a 2 2
    let isNew := fl % 2 = 1
    if t.lc = 0 ∨ t.idOk = false ∨ t.fb F.SEC_STATUS_LOCKOUT 0 then t.putResult m stNotPermitted []
    else if 3 < fl ∨ (isNew ∧ a.length ≠ 36) then t.putResult m stBadArg []
    else
      let t := if isNew then t.withFw (fun w => { w with report := Tab.set [] w.report m (t.buildReport (a.drop 4)) }) else t
      let r := Tab.get [] t.fw.report m
      let head := leBytes 2 r.length ++ leBytes 2 off ++ [0, 0, 0, 0]
      if r.length ≤ off ∧ (fl < 2 ∨ off ≠ 0) then t.putResult m stBadArg []
      else t.putResult m stOk (head ++ (if 2 ≤ fl then t.otpKey 9 ++ t.otpBytes 0 8 else sliceOf r off 240)))

def execAttest (m : Nat) (s : State) : Out := onMailbox m (s.attest m)

end Sys2Proof.Machine
end

