-- ==== Sys2Proof/Machine/Hewers.lean ====
section
/-! DEFINITION. The hewers: control store, sequencers and microwords (R178 to R186), states, drains, service, patches and updates (R190 to R197). -/

namespace Sys2Proof.Machine

-- ## Microwords (R179, R180, R183)

def mwNext (w : Nat) : Nat := field w 14 0
/-- COND0 to COND3. -/
def mwCond (w i : Nat) : Nat := field w (20 + 6 * i) (15 + 6 * i)
def mwWaitEn (w : Nat) : Bool := w.testBit 42
def mwWaitSel (w : Nat) : Nat := field w 48 43
def mwCyc (w : Nat) : Nat := field w 41 39
/-- The fields of the local memory ports, of the transform, quantiser and predictor, and of the entropy coder; the codes within them are not given. -/
def mwLma (w : Nat) : Nat := field w 60 49
def mwLmb (w : Nat) : Nat := field w 72 61
def mwLmw (w : Nat) : Nat := field w 84 73
def mwXfm (w : Nat) : Nat := field w 92 85
def mwQnt (w : Nat) : Nat := field w 100 93
def mwPrd (w : Nat) : Nat := field w 110 101
def mwEnt (w : Nat) : Nat := field w 120 111

/-- Operation of BIO. -/
inductive BioOp where
  | none | read | write | peek | align | marker
deriving DecidableEq, Repr

/-- The operation of BIO in the order that R179 lists, from 0; 6 and 7 are none of them. -/
def mwBio (w : Nat) : BioOp := [.none, .read, .write, .peek, .align, .marker].getD (field w 123 121) .none

/-- COUNT of BIO, which only the bitstream class has. -/
def mwCount (q w : Nat) : Nat := if q = 0 then 0 else field w 128 124
def mwLoop (w : Nat) : Nat := field w 132 129
def mwEvt (w : Nat) : Nat := field w 135 133

/-- Even parity of data bits 17i to 17i + 16. -/
def parityBit (w i : Nat) : Bool := (List.range 17).foldl (fun a k => xor a (w.testBit (17 * i + k))) false

/-- PAR fits the data bits. -/
def parityOk (w : Nat) : Bool := (List.range 8).all (fun i => w.testBit (136 + i) == parityBit w i)

/-- Where CONDi is not 0, bit i of NEXT is 0. -/
def branchFormOk (w : Nat) : Bool := (List.range 4).all (fun i => decide (mwCond w i = 0) || !(mwNext w).testBit i)

-- ## Control store (R186)

/-- The address fetched for address `a`: the lowest enabled match register that names it moves it to patch RAM. -/
def State.mapped (s : State) (h a : Nat) : Nat :=
  if 0x4000 ≤ a then a
  else
    match (List.range 64).find? (fun m => s.fb F.HWR_MATCH_EN (64 * h + m) && decide (s.f F.HWR_MATCH_ROM_ADDR (64 * h + m) = a)) with
    | some m => 0x4000 + s.f F.HWR_MATCH_PATCH_OFFSET (64 * h + m)
    | none => a

/-- Patch RAM word `w`. -/
def State.patchRam (s : State) (h w : Nat) : Nat :=
  ((List.range 5).map (fun i => s.f F.HWR_PATCH_RAM_DATA (8192 * h + 8 * w + i) * 2 ^ (32 * i))).sum % 2 ^ 144

/-- The word that a fetch from address `a` gives. -/
def State.microword (s : State) (h a : Nat) : Nat :=
  let m := s.mapped h a
  if m < 0x4000 then Config.romWord m % 2 ^ 144 else s.patchRam h (m - 0x4000)

-- ## Conditions (R184)

/-- Unread slice data: bytes without stuffing, how they end, and what follows. -/
def Run.unread (r : Run) : List Byte × RunEnd × List Byte :=
  if r.phase = .headers then unstuff (r.taken.length + 1) (r.taken.drop r.what.skip) else unstuff (r.taken.length + 1) (r.taken.drop r.used)

/-- PEEKk; of a protected unit, of the decrypted data (R423). -/
def Run.peek (r : Run) (k : Nat) : Bool := !r.what.enc && (bitsOfBytes (if r.phase = .headers then r.unread.1 else r.plain r.unread.1)).getD (r.pos + k) false

/-- MARKER_NEXT. -/
def Run.markerNext (r : Run) : Bool :=
  !r.what.enc && decide (r.unread.1.length ≤ ceilDiv r.pos 8) && (match r.unread.2.1 with
    | .marker _ => true
    | _ => false)

/-- Bytes available under R71. -/
def Run.available (r : Run) : Nat :=
  if r.what.enc then 0
  else r.unread.1.length - r.pos / 8 + (match r.unread.2.1 with
    | .marker _ => r.unread.2.2.length
    | _ => 0)

/-- END_OF_DATA. -/
def Run.endOfData (r : Run) : Bool :=
  !r.what.enc && (r.closed || (match r.unread.2.1 with
    | .marker k => decide (k = 0xA3)
    | _ => false))

def Hewer.token (w : Hewer) (q k : Nat) : Nat := w.tokens.getD (4 * q + k) 0

/-- The value of condition `code` for sequencer `q` (0 pixel, 1 bitstream), with `n` the word's BIO.COUNT. -/
def Hewer.cond (w : Hewer) (r : Run) (q n code : Nat) : Bool :=
  if code = 0 then false
  else if code ≤ 4 then decide (w.loops.getD (4 * q + code - 1) 0 = 0)
  else if code ≤ 8 then decide (0 < w.token q (code - 5))
  else if code ≤ 12 then r.peek (code - 9)
  else if code ≤ 20 then
    (match code with
    | 13 => decide ((if r.what.enc then r.bits.length else r.pos) % 8 = 0)
    | 14 => r.markerNext
    | 15 => decide (n ≤ r.available)
    | 16 => r.endOfData
    | _ => w.signals.sig.getD (code - 17) false)
  else if code ≤ 23 then (if code = 21 then w.signals.escape else if code = 22 then w.signals.sign else w.signals.zero)
  else if code ≤ 31 then w.signals.elem.testBit (code - 24)
  else if code ≤ 40 then
    (match code with
    | 32 => r.clip.deq
    | 33 => r.clip.stage1
    | 34 => r.clip.stage2
    | 35 => r.clip.recon
    | 36 => r.hdr.key
    | 37 => r.hdr.refine
    | 38 => r.bi
    | 39 => r.badRef
    | _ => w.ctxHit)
  else decide (code = 63)

-- ## Issue (R181 to R185)

def Hewer.pc (w : Hewer) (q : Nat) : Nat := if q = 0 then w.pixPc else w.bsPc

/-- What a sequencer does with the word at its address. -/
inductive Fetched where
  | idle                                  -- no unit runs
  | waits                                 -- WAIT_SEL is not true
  | fails (F' : Fld) (fsid addr : Nat)    -- a fault of R195
  | goes (w next : Nat)

/-- A condition as sequencer `q` of hewer `h` sees it; in the return test those that rest on its fixed stream, which is not given, are open (R193). -/
def State.condNow (s : State) (h q n code : Nat) : Bool :=
  match (s.hewer h).run with
  | some r => (s.hewer h).cond r q n code
  | none => if 9 ≤ code ∧ code ≤ 39 then Config.freeBool 62 (64 * s.free + code) else (s.hewer h).cond {} q n code

/-- The sequencers of hewer `h` run: a unit is on it, or the return test. -/
def State.sequencing (s : State) (h : Nat) : Bool := (s.hewer h).run.isSome || decide (s.hwState h = hwTest)

/-- The word at the address of sequencer `q`, checked, with its next address. -/
def State.fetched (s : State) (h q : Nat) : Fetched :=
  let x := s.hewer h
  if !s.sequencing h then .idle
  else
    let a := x.pc q
    let w := s.microword h a
    let c := fun code => s.condNow h q (mwCount q w) code
    if !parityOk w then .fails F.HWR_FAULT_PARITY 10 a
    else if !branchFormOk w then .fails F.HWR_FAULT_BRANCH_FORM 12 a
    else if decide (q = 1) && mwWaitEn w && (decide (mwWaitSel w = 0) || !c (mwWaitSel w)) then .waits
    else
      let next := mwNext w ||| ((List.range 4).foldl (fun v i => if c (mwCond w i) then v + 2 ^ i else v) 0)
      if 0x4400 ≤ next then .fails F.HWR_FAULT_ADDR_RANGE 13 next else .goes w next

/-- Tokens that an ended wait or a taken branch consumes: one of each condition named and true. -/
def Hewer.consume (x : Hewer) (q w : Nat) : Hewer :=
  let named := ((List.range 4).map (mwCond w)) ++ (if q = 1 ∧ mwWaitEn w = true then [mwWaitSel w] else [])
  { x with tokens := (List.range 8).map (fun i =>
      let n := x.tokens.getD i 0
      if i / 4 = q ∧ (5 + i % 4) ∈ named then n - 1 else n) }

/-- The loop operation of a word. What a load takes, and what a decrement of zero leaves, is open. -/
def Hewer.loop (x : Hewer) (q w k : Nat) : Hewer :=
  let op := mwLoop w % 4
  let i := 4 * q + mwLoop w / 4
  let v := x.loops.getD i 0
  let n := if op = 1 then Config.freeNat 16 k else if op = 2 then (if v = 0 then Config.freeNat 17 k else v - 1) else if op = 3 then 0 else v
  { x with loops := x.loops.set i n }

/-- The syntax check numbered `j` in R168 failed (R185): it counts, and the unit is handled as its row says. A slice without a valid header, out of order or missing is concealed whole; so is one with a TRAILER error; a bedrock unit abandons its build at its end. -/
def State.syntaxEvent (s : State) (h : Nat) (r : Run) (j : Nat) : State :=
  let c := r.what.ctx
  if r.what.enc then s
  else if j = errHeader ∨ j = errRepeat ∨ j = errOrder ∨ j = errTrailer ∨ j = errMissing then s.endError h r j
  else if j = errTruncated then (s.setRun h { r with closed := true, truncated := true, conceal := true, parsed := none }).stat c (stErr j) 1
  else if j = errRefMissing then
    (if r.parsed.isNone then s
    else
      let w := (s.ctx c).geo.w16
      let n := r.done.length
      (s.setRun h { r with parsed := none, done := r.done ++ [s.fromPrev r (r.rowOf w n) (n % w)], clip := {} }).stat c (stErr j) 1)
  else if j = errPoison then (if r.parsed.isNone then s else (s.setRun h { r with badRef := true }).reconWork h)
  else if j = errBedCrc ∨ j = errBedUnit then
    (match r.hdr.bed with
    | some d => if j = errBedCrc then (s.setRun h { r with wholeConceal := true }).bedCrcFail c d.slot else s.setRun h { r with wholeConceal := true }
    | none => s)
  else if j = errConcBlocks ∨ j = errConcPictures then s.stat c (stErr j) 1
  else s.unitError h r j

/-- The event of a word (R185); `w0`: the hewer before the word. -/
def State.microEvent (s : State) (h q evt : Nat) (w0 : Hewer) : State :=
  match evt with
  | 0 => s
  | 1 => s.setHewer h { s.hewer h with doneEvt := true }
  | 2 =>
    match (s.hewer h).run with
    | none => s
    | some r => s.syntaxEvent h r (w0.loops.getD (4 * q + 3) 0 % 16)
  | 3 => s.concealWork h
  | e =>
    let i := 4 * (1 - q) + (e - 4)
    let x := s.hewer h
    if 15 ≤ x.tokens.getD i 0 then s.hewerFault h F.HWR_FAULT_TOKEN_OVF 14 q (w0.pc q)
    else s.setHewer h { x with tokens := x.tokens.set i (x.tokens.getD i 0 + 1) }

/-- The word `w` issues: tokens, loop, next address, event. -/
def State.issueWord (s : State) (h q w next : Nat) : State :=
  let x0 := s.hewer h
  let x := (x0.consume q w).loop q w s.free
  let x := if q = 0 then { x with pixPc := next, pixSelf := decide (next = x0.pixPc) }
    else { x with bsPc := next, bioIn := x.bioIn || decide (mwBio w ≠ .none ∧ mwBio w ≠ .write), bioOut := x.bioOut || decide (mwBio w = .write) }
  let s := if q = 1 then s.setF F.HWR_STATUS_BS_WAIT h 0 else s
  ((s.setHewer h x).draw).microEvent h q (mwEvt w) x0

/-- What the elements of the block that work `parse` has read leave behind (R184); `r`: the unit before it. -/
def State.noteElements (s : State) (h : Nat) (r : Option Run) : State :=
  match r, (s.hewer h).run.bind (·.parsed) with
  | some r, some b => if r.parsed.isSome then s else s.setHewer h { s.hewer h with signals := (s.hewer h).signals.after (s.blockCtx r) r.hdr r.rice b }
  | _, _ => s

def State.pixelWork (s : State) (h : Nat) (k : PixelWork) : State :=
  match k with
  | .none => s
  | .reconstruct => s.reconWork h
  | .conceal => s.concealWork h

/-- Work of a bitstream word. DEDUCED (log entry 100): a block, header or trailer is read only by words of which one reads the bitstream, and written only by words of which one writes it (R179). -/
def State.bitWork (s : State) (h : Nat) (k : BitWork) : State :=
  let x := s.hewer h
  let t := s.setHewer h { x with bioIn := false, bioOut := false }
  match k with
  | .none => s
  | .parse => if x.bioIn then (t.parseWork h).noteElements h x.run else s
  | .encode b => if x.bioOut then t.encodeWork h b else s
  | .finish => if x.bioOut then t.finishWork h else s

-- ## Local memory (R176, R177)

/-- The regions of local memory (R176) and their sizes in KiB; where each lies is not given. -/
inductive LmRegion where
  | source | refwin | coeff | bitbuf | ctxstate | scratch
deriving DecidableEq, Repr

def LmRegion.kib : LmRegion → Nat
  | .source => 64
  | .refwin => 1024
  | .coeff => 64
  | .bitbuf => 128
  | .ctxstate => 16
  | .scratch => 240

/-- The eight 64-bit words of line `l`. -/
def Hewer.line (x : Hewer) (l : Nat) : List Nat := (List.range 8).map (fun i => Tab.get 0 x.lm (8 * l + i))

/-- A word's use of the three ports in one CCLK (R177): reads return the data before the write. -/
def Hewer.access (x : Hewer) (m : LmUse) : Hewer :=
  { x with
    portA := (m.readA.map x.line).getD x.portA, portB := (m.readB.map x.line).getD x.portB,
    lm := (m.write.map (fun w => (List.range 8).foldl (fun t i => Tab.set 0 t (8 * w.1 + i) (w.2.getD i 0 % 2 ^ 64)) x.lm)).getD x.lm }

/-- A word that issues uses local memory (R177): a corrected error counts. -/
def State.lmAccess (s : State) (h : Nat) (m : LmUse) : State :=
  let s := s.setHewer h ((s.hewer h).access m)
  if m.check = .corrected then (s.count F.HWR_LM_CORR_COUNT h F.HWR_CNT_SAT_LM_CORR_SAT h 0).raiseFault 16 h [] else s

/-- An uncorrected error of local memory (R177), at the word at the sequencer's address. -/
def State.lmFault (s : State) (h q : Nat) : State := s.hewerFault h F.HWR_FAULT_LM_UNCORR 11 q ((s.hewer h).pc q)

/-- A word of sequencer `q` issues, and `work` follows it; a load can also meet an uncorrected error (R196). -/
def State.wordIssue (s : State) (h q : Nat) (m : LmUse) (work : State → State) : State :=
  match s.fetched h q with
  | .goes w next => if m.check = .uncorrected then s.lmFault h q else work ((s.lmAccess h m).issueWord h q w next)
  | .fails F' fsid addr => s.hewerFault h F' fsid q addr
  | .waits => s.setF F.HWR_STATUS_BS_WAIT h 1
  | .idle => if s.hwState h = hwPatching ∧ m.check = .uncorrected then s.lmFault h q else s

/-- PIXEL_WORD_ISSUE. -/
def State.pixelIssue (s : State) (h : Nat) (k : PixelWork) (m : LmUse) : State := s.wordIssue h 0 m (fun t => t.pixelWork h k)

def execPixelWordIssue (h : Nat) (k : PixelWork) (s : State) (m : LmUse := {}) : Out := onInstance (decide (h < 24)) (s.pixelIssue h k m)

/-- BITSTREAM_WORD_ISSUE. -/
def State.bitIssue (s : State) (h : Nat) (k : BitWork) (m : LmUse) : State := s.wordIssue h 1 m (fun t => t.bitWork h k)

def execBitstreamWordIssue (h : Nat) (k : BitWork) (s : State) (m : LmUse := {}) : Out := onInstance (decide (h < 24)) (s.bitIssue h k m)

/-- HEWER_WAIT_TIMEOUT (R182): a wait that is not over, or pixel words that follow themselves. -/
def State.waitTimeout (s : State) (h : Nat) : State :=
  let x := s.hewer h
  let waits := s.fb F.HWR_STATUS_BS_WAIT h && (match s.fetched h 1 with
    | .waits => true
    | _ => false)
  if waits then s.hewerFault h F.HWR_FAULT_WAIT_TIMEOUT 15 1 x.bsPc
  else if s.sequencing h && x.pixSelf then s.hewerFault h F.HWR_FAULT_WAIT_TIMEOUT 15 0 x.pixPc
  else s

def execHewerWaitTimeout (h : Nat) (s : State) : Out := onInstance (decide (h < 24)) (s.waitTimeout h)

/-- STALL_LIMIT_EXPIRE (R170): a decode that waits for bytes is truncated. -/
def State.stallExpire (s : State) (h : Nat) : State :=
  match (s.hewer h).run with
  | none => s
  | some r => if r.what.enc || r.closed then s else s.setRun h { r with closed := true, truncated := true }

def execStallLimitExpire (h : Nat) (s : State) : Out := onInstance (decide (h < 24)) (s.stallExpire h)

-- ## Drains and service (R191, R193)

/-- The hewer drains: DRAINED at once from IDLE, after its unit from RUN. -/
def State.drainNow (s : State) (h : Nat) : State :=
  if s.hwState h = hwIdle then ((s.setHewer h { s.hewer h with drainFor := [] }).setHwState h hwDrained).tellDrained h (s.hewer h).drainFor
  else if s.hwState h = hwRun then s.setHwState h hwDraining
  else s

/-- A command that waits within its 2 ms for a drain that is cancelled returns STARTED: its job ends when DRAINED is reached after all (R191). -/
def State.drainLater (s : State) (h : Nat) (w : Waiter) : State :=
  match w with
  | .mailbox m =>
    let j := s.fw.nextJob
    let s := s.startJob m (.drain h)
    s.setHewer h { s.hewer h with drainFor := (s.hewer h).drainFor ++ [.job j] }
  | w => s.setHewer h { s.hewer h with drainFor := (s.hewer h).drainFor ++ [w] }

/-- DRAIN is cleared: a drained hewer is IDLE, a drain in progress is cancelled, but not that of a hewer that goes out or is updated. -/
def State.drainClear (s : State) (h : Nat) : State :=
  let x := s.hewer h
  if s.hwState h = hwDrained then s.setHwState h hwIdle
  else if s.hwState h = hwDraining ∧ x.goOut = false ∧ Waiter.update ∉ x.drainFor then
    chainAll x.drainFor (fun w t => t.drainLater h w) ((s.setHewer h { x with drainFor := [] }).setHwState h hwRun)
  else s

/-- The hewer goes to OUT, after its unit where it runs one. -/
def State.goOut (s : State) (h : Nat) : State :=
  if s.hwState h = hwIdle ∨ s.hwState h = hwDrained ∨ s.hwState h = hwFault ∨ s.hwState h = hwTest then s.setHwState h hwOut
  else if s.hwState h = hwRun ∨ s.hwState h = hwDraining then (s.setHewer h { s.hewer h with goOut := true }).setHwState h hwDraining
  else s

/-- The return test starts (R193); where its microcode starts is not given. -/
def State.goIn (s : State) (h : Nat) (w : Waiter) : State :=
  ((s.setHewer h { s.hewer h with testFor := w, pixPc := Config.freeNat 13 s.free % 0x4400, bsPc := Config.freeNat 14 s.free % 0x4400, loops := List.replicate 8 0, tokens := List.replicate 8 0, pixSelf := false }).draw).setHwState h hwTest

def State.partialPatch (s : State) (h : Nat) : Bool := decide (s.f F.HWR_PATCH_STATUS_STATE h = 2)

/-- A write of HWR_CTRL (R191, R193, R196). -/
def State.writeHwrCtrl (s : State) (h w : Nat) : State :=
  let drain := w.testBit 0
  let service := w.testBit 1
  let was := s.fb F.HWR_CTRL_DRAIN h
  let wasIn := s.fb F.HWR_CTRL_SERVICE h
  let s := s.setF F.HWR_CTRL_DRAIN h (if drain then 1 else 0)
  let s := if drain && !was then s.drainNow h else if was && !drain then s.drainClear h else s
  if service && (decide (s.hwState h = hwOut) || decide (s.hwState h = hwFault)) then
    (if s.partialPatch h then s else (s.setF F.HWR_CTRL_SERVICE h 1).goIn h .none)
  else if service then s.setF F.HWR_CTRL_SERVICE h 1
  else if wasIn then (s.setF F.HWR_CTRL_SERVICE h 0).goOut h
  else s

/-- A command whose work on hewer `h` goes on waits for it: with its result within 2 ms, or as a job (R55). -/
def State.awaitDrain (s : State) (m h : Nat) (w : JobWork) : State :=
  let job := Config.outlasts s.free
  let s := s.draw
  let who := if job then Waiter.job s.fw.nextJob else Waiter.mailbox m
  let s := s.setHewer h { s.hewer h with drainFor := (s.hewer h).drainFor ++ [who] }
  if job then s.startJob m w else s

/-- HEWER_DRAIN (R191). -/
def State.hewerDrain (s : State) (m : Nat) : State :=
  s.serve m 0x0410 (· = 1) (fun t =>
    let h := byteAt (t.mbxArgs m) 0
    if 24 ≤ h then t.putResult m stBadArg []
    else if t.hwState h = hwTest ∨ t.hwState h = hwPatching then t.putResult m stBusy []
    else if t.hwState h = hwOut then t.putResult m stOk []
    else
      let t := (t.setF F.HWR_CTRL_DRAIN h 1).drainNow h
      if t.hwState h = hwDraining then t.awaitDrain m h (.drain h) else t.putResult m stOk [])

def execHewerDrain (m : Nat) (s : State) : Out := onMailbox m (s.hewerDrain m)

/-- The hewer counts in IN_SERVICE (R190). -/
def State.servesNow (s : State) (h : Nat) : Bool := decide (2 ≤ s.hwState h) && decide (s.hwState h ≤ 5)

/-- HEWER_SERVICE with IN = 0 (R193). -/
def State.serviceOut (s : State) (m h : Nat) : State :=
  if s.servesNow h && decide (s.limitFor (s.inService - 1) < s.chargeSum) then s.putResult m stOverAdmission []
  else
    let s := (s.setF F.HWR_CTRL_SERVICE h 0).goOut h
    if s.hwState h = hwDraining then s.awaitDrain m h (.out h) else s.putResult m stOk []

/-- HEWER_SERVICE (R193). -/
def State.hewerService (s : State) (m : Nat) : State :=
  s.serve m 0x0412 (· = 2) (fun t =>
    let h := byteAt (t.mbxArgs m) 0
    let into := byteAt (t.mbxArgs m) 1
    if 24 ≤ h ∨ 1 < into then t.putResult m stBadArg []
    else if t.hwState h = hwTest ∨ t.hwState h = hwPatching then t.putResult m stBusy []
    else if into = 0 then t.serviceOut m h
    else if t.servesNow h then t.putResult m stOk []
    else if t.partialPatch h then t.putResult m stBusy []
    else (t.setF F.HWR_CTRL_SERVICE h 1).goIn h (.mailbox m))

def execHewerService (m : Nat) (s : State) : Out := onMailbox m (s.hewerService m)

/-- Faults of the hewer within the last 24 hours (R195). -/
def State.recentFaults (s : State) (h : Nat) : Nat := ((s.hewer h).faults.filter (fun t => decide (s.now < t + 86400000000000))).length

/-- Firmware tests this hewer by itself: a fault brings it back, but not the third within 24 hours. -/
def State.testable (s : State) (h : Nat) : Bool :=
  decide (s.hwState h = hwFault) && decide (s.recentFaults h < 3) && !s.partialPatch h && s.fb F.HWR_CTRL_SERVICE h

/-- Firmware starts the return test of every faulted hewer that it brings back (R195). -/
def State.firmwareTests (s : State) : State := if s.fatal then s else chainAll allHewers (fun h t => if t.testable h then t.goIn h .none else t) s

/-- HEWER_TEST_DONE (R193): IDLE, or DRAINED where DRAIN is set; FAULT where it failed. -/
def State.testDone (s : State) (h : Nat) (pass : Bool) : State :=
  if s.hwState h ≠ hwTest || s.fatal then s
  else
    let x := s.hewer h
    let s := s.setHewer h { x with testFor := .none }
    let s := s.setHwState h (if pass then (if s.fb F.HWR_CTRL_DRAIN h then hwDrained else hwIdle) else hwFault)
    (s.tellWaiter x.testFor pass).updateWakes h

def execHewerTestDone (h : Nat) (pass : Bool) (s : State) : Out := onInstance (decide (h < 24)) (s.testDone h pass)

-- ## Patches (R192, R194)

/-- HEWER_PATCH: HEWER, FLAGS (bit 0 SOURCE), PATCH_ID (u16) and, with SOURCE = 1, ADDR (u64). It waits while another load runs. -/
def State.hewerPatch (s : State) (m : Nat) : State :=
  s.serve m 0x0411 (fun n => n = 4 || n = 12) (fun t =>
    let a := t.mbxArgs m
    let h := byteAt a 0
    let fl := byteAt a 1
    if 24 ≤ h ∨ 1 < fl then t.putResult m stBadArg []
    else if a.length ≠ (if fl = 1 then 12 else 4) then t.putResult m stBadLength []
    else if t.hwState h ≠ hwDrained ∧ t.hwState h ≠ hwOut then t.putResult m stBusy []
    else if allHewers.any (fun k => decide (t.hwState k = hwPatching)) then t
    else
      match t.namedPatch fl (leAt a 2 2) (leAt a 4 8 % 2 ^ 40) with
      | .error e => (t.setHewer h { t.hewer h with patchEvt := true }).putResult m e []
      | .ok p => if t.lockElsewhere 3 then t.putResult m stLocked [] else t.beginLoad h p (.mailbox m))

def execHewerPatch (m : Nat) (s : State) : Out := onMailbox m (s.hewerPatch m)

/-- What follows a load: the state before it, or in the update the return test of an in-service hewer. -/
def State.afterLoad (s : State) (h : Nat) (x : Hewer) : State :=
  if x.loadFor = .update ∧ x.loadFrom ≠ hwOut then s.goIn h .update
  else (s.setHwState h x.loadFrom).tellWaiter x.loadFor true

/-- PATCH_LOAD_DONE (R192); in the update the words come from the copy in the scratchpad, and a wipe delays them (R194, R407). -/
def State.loadDone (s : State) (h : Nat) (e : SramRead) : State :=
  let x := s.hewer h
  match x.loading with
  | none => s
  | some p =>
    let copy := decide (x.loadFor = .update)
    if s.hwState h ≠ hwPatching || (copy && s.fb F.SPD_CTRL_BUSY 0) then s
    else
      let c := if copy then s.copiedSet p e else (p, s)
      let p := c.1
      let s := c.2.writePatch h p
      let s := s.setHewer h { x with loading := none, loadFor := .none, patchEvt := true, measure := if p.id = 0 then [] else p.measure }
      let s := if s.codec.update.isSome then s else s.freeLock 3
      (s.afterLoad h x).updateWakes h

def execPatchLoadDone (h : Nat) (s : State) (e : SramRead := .clean) : Out := onInstance (decide (h < 24)) (s.loadDone h e)

/-- UCODE_UPDATE: FLAGS, a zero byte, PATCH_ID (u16) and, with SOURCE = 1, ADDR (u64) (R194). -/
def State.ucodeUpdate (s : State) (m : Nat) : State :=
  s.serve m 0x0042 (fun n => n = 4 || n = 12) (fun t =>
    let a := t.mbxArgs m
    let fl := byteAt a 0
    if 1 < fl ∨ byteAt a 1 ≠ 0 then t.putResult m stBadArg []
    else if a.length ≠ (if fl = 1 then 12 else 4) then t.putResult m stBadLength []
    else if t.codec.update.isSome then t.putResult m stBusy []
    else if t.limitFor (t.inService - 1) < t.chargeSum then t.putResult m stOverAdmission []
    else
      match t.namedPatch fl (leAt a 2 2) (leAt a 4 8 % 2 ^ 40) with
      | .error e => t.putResult m e []
      | .ok p =>
        if t.lockElsewhere 3 then t.putResult m stLocked []
        else
          let j := t.fw.nextJob
          let t := ((t.setF F.SEM_LOCK_OWNER 3 1).startJob m .update).copySet p
          (t.withCodec (fun w => { w with update := some { set := p, at_ := 0, job := j } })).updateFrom 0)

def execUcodeUpdate (m : Nat) (s : State) : Out := onMailbox m (s.ucodeUpdate m)

/-- R197: a write of a match register or of patch RAM acts only in DRAINED, OUT and PATCHING. -/
def State.patchWritable (s : State) (h : Nat) : Bool := decide (s.hwState h = hwDrained) || decide (s.hwState h = hwOut) || decide (s.hwState h = hwPatching)

end Sys2Proof.Machine
end

