-- ==== Sys2Proof/Machine/LaneOps.lean ====
section
/-! DEFINITION. Lanes and the ports made of them (R321 to R332): which sets are legal, which ports can be up. -/

namespace Sys2Proof.Machine

/-- Functions of a lane (LANE_CFG). -/
def fnTest : Nat := 0
def fnHaul : Nat := 1
def fnLamp : Nat := 2
def fnIngress : Nat := 3

/-- The lanes that claim a port, in ascending order. -/
def State.portLanes (s : State) (func port : Nat) : List Nat :=
  (List.range 60).filter (fun n => s.fb F.LANE_CFG_EN n && decide (s.f F.LANE_CFG_FUNC n = func) && decide (s.f F.LANE_CFG_PORT n = port))

/-- The lanes of a port stand in one quad, in order, at one rate (R331). -/
def State.laneRun (s : State) (ls : List Nat) : Bool :=
  let b := ls.headD 0
  let n := ls.length
  (n = 1 || n = 2 || n = 4) && decide (b % n = 0) && decide (ls = (List.range n).map (b + ·)) &&
    ls.all (fun l => decide (s.f F.LANE_CFG_PORT_LANE l = l - b) && decide (s.f F.LANE_CFG_RATE l = s.f F.LANE_CFG_RATE b))

/-- The rates of R322 for a port of `n` lanes: 1.25 Gbaud on one haul lane only. -/
def rateOk (func n rate : Nat) : Bool := decide (1 ≤ rate) || (decide (func = fnHaul) && decide (n = 1))

/-- The lanes that claim the port form a legal set (R331). -/
def State.portLegal (s : State) (func port : Nat) : Bool :=
  let ls := s.portLanes func port
  if func = fnLamp then decide (ls.length = 1) && rateOk func 1 (s.f F.LANE_CFG_RATE (ls.headD 0))
  else s.laneRun ls && rateOk func ls.length (s.f F.LANE_CFG_RATE (ls.headD 0))

/-- Ports of a function. -/
def portsOf (func : Nat) : Nat := if func = fnHaul then 6 else if func = fnLamp then 48 else if func = fnIngress then 8 else 0

/-- Every port that some lane claims has a legal set, within the limits of R331. -/
def State.lanesLegal (s : State) : Bool :=
  [fnHaul, fnLamp, fnIngress].all (fun f => (List.range 64).all (fun p => decide (s.portLanes f p = []) || (decide (p < portsOf f) && s.portLegal f p))) &&
    decide (((List.range 8).map (fun p => (s.portLanes fnIngress p).length)).sum ≤ 32) &&
    decide (((List.range 48).map (fun p => (s.portLanes fnLamp p).length)).sum ≤ 48)

/-- Every lane of the port is synchronised and out of calibration (R230). -/
def State.lanesSynced (s : State) (func port : Nat) : Bool := (s.portLanes func port).all (fun l => s.fb F.LANE_STATUS_SYNC l)

/-- A lane of the port is blind in calibration (R328). -/
def State.portBlind (s : State) (func port : Nat) : Bool := (s.portLanes func port).any (fun l => s.fb F.LANE_STATUS_CAL l)

/-- Lanes per port as the 2-bit code of HAUL_CTRL and ING_CTRL. -/
def lanesCode (n : Nat) : Nat := if n = 1 then 0 else if n = 2 then 1 else 2

/-- Lanes that such a code asks for; 3 acts as 2. -/
def lanesOfCode (c : Nat) : Nat := if c = 0 then 1 else if c = 1 then 2 else 4

/-- The lanes and rate that a haul port's mode asks for (R226). -/
def State.haulWants (s : State) (p : Nat) : Option (Nat × Nat) :=
  match s.f F.HAUL_CTRL_MODE p with
  | 0 => some (lanesOfCode (s.f F.HAUL_CTRL_LANES p), min 3 (min 2 (s.f F.HAUL_CTRL_RATE p) + 1))
  | 1 => some (4, 1)
  | 2 => some (1, 0)
  | _ => none

/-- The lane map gives a haul port the width and rate of its mode (R331). -/
def State.haulLanesOk (s : State) (p : Nat) : Bool :=
  match s.haulWants p with
  | none => false
  | some (n, r) => s.portLegal fnHaul p && decide ((s.portLanes fnHaul p).length = n) && (s.portLanes fnHaul p).all (fun l => decide (s.f F.LANE_CFG_RATE l = r))

end Sys2Proof.Machine
end

