-- ==== Sys2Proof/Machine/Lamp.lean ====
section
/-! DEFINITION. Lamp output (R198 to R225, R396, R397): dressing, riving channels, lamp ports and chains, and the events of the syncs. -/

namespace Sys2Proof.Machine

-- ## Dressing (R206 to R211)

/-- Key of a LUT entry. -/
def lutKey (bank lut i : Nat) : Nat := (bank * 4 + lut) * 4097 + i

/-- Entry `i` of a LUT in u24. -/
def State.lutAt (s : State) (bank lut i : Nat) : Int := (Tab.get 0 s.lamp.lut (lutKey bank lut i) : Nat)

/-- A sample of `b` bits through the LUT: linear light in u24. -/
def State.linear (s : State) (bank lut b : Nat) (v : Int) : Int :=
  let n := v.toNat
  let x16 := (n <<< (16 - b)) ||| (n >>> (2 * b - 16))
  let x17 := x16 + (x16 >>> 15)
  let i := x17 / 16
  let f := x17 % 16
  let a := s.lutAt bank lut i
  if f = 0 then a else a + asr ((s.lutAt bank lut (i + 1) - a) * f + 8) 4

/-- D of R208. -/
def ditherTable : List Nat := [0, 8, 4, 12, 2, 10, 6, 14, 1, 9, 5, 13, 3, 11, 7, 15]

/-- thr(o) of R208. -/
def threshold (dither : Bool) (ob p x y o : Nat) : Int :=
  if dither then ((ditherTable.getD ((p + 5 * x + 3 * y + 6 * o) % 16) 0 * 2 ^ (20 - ob) + 2 ^ (19 - ob) : Nat) : Int) else ((2 ^ (23 - ob) : Nat) : Int)

/-- delta[o][j] of a lamp record. -/
def recDelta (r o j : Nat) : Int := signed 6 (r / 2 ^ (6 * (3 * o + j)))

def recTrim (r : Nat) : Int := signed 10 (r / 2 ^ 54)

/-- acc of output `o`, and whether a clip of it acted. -/
def dressAcc (base : List Int) (r o : Nat) (lin : List Int) : Int × Bool :=
  (List.range 3).foldl (fun a j =>
    let m := clip (base.getD (3 * o + j) 0 + 4 * recDelta r o j) (-32768) 32767
    let v := a.1 + m * asr (lin.getD j 0) 4
    let c := clip v (-34359738368) 34359738367
    (c, a.2 || decide (c ≠ v))) (0, false)

/-- The three outputs of a lamp, and whether a clip of acc acted. -/
def dressLamp (base : List Int) (r bright ob : Nat) (thr : Nat → Int) (lin : List Int) : List Nat × Bool :=
  let accs := (List.range 3).map (fun o => dressAcc base r o lin)
  let out := fun (o : Nat) =>
    let v := clip (asr ((accs.getD o (0, false)).1 + 512) 10) 0 16777215
    let v := min (asr (v * (1024 + recTrim r) + 512) 10) 16777215
    let v := asr (v * bright + 32768) 16
    (min (asr (v + thr o) (24 - ob)) (2 ^ ob - 1)).toNat
  ((List.range 3).map out, accs.any (·.2))

/-- The colours of a group in the order of ORDER (R211). -/
def colourOrder (k : Nat) : List Nat := [[0, 1, 2], [0, 2, 1], [1, 0, 2], [1, 2, 0], [2, 0, 1], [2, 1, 0]].getD k [0, 1, 2]

/-- The plane data of a strip (R210) from its lamps' outputs. -/
def planeData (ob order : Nat) (lamps : List (List Nat)) : List Byte :=
  (List.range ob).flatMap (fun k =>
    (List.range (ceilDiv lamps.length 8)).flatMap (fun g =>
      (colourOrder order).map (fun c =>
        BitVec.ofNat 8 (natOfBits ((List.range 8).map (fun j => (((lamps.getD (8 * g + j) []).getD c 0)).testBit (ob - 1 - k)))))))

/-- The RGB samples of context `c` at (x, y) of the picture in descriptor `d`, stored with `colour`, after the conversion of R105. -/
def State.rgbAt (s : State) (c d colour x y : Nat) : List Int :=
  let k := s.ctx c
  let r := s.ctxRef 0 c (s.desc d).base colour
  if colour = 1 then
    let v := colourInverse k.geo.depth (r 0 x y) (r 1 x y) (r 2 x y)
    [v.1, v.2.1, v.2.2]
  else [r 0 x y, r 1 x y, r 2 x y]

/-- The brightness in force for a wall. -/
def State.brightOf (s : State) (w : Nat) : Nat := Tab.get 65536 s.lamp.bright ((s.wall w).grid.getD 0)

/-- The table entry of a cabinet's strip of block row `row`. -/
def State.stripOfRow (s : State) (e : List Byte) (row : Nat) : Option (List Byte) := (s.cabStripList e).find? (fun x => decide (stripRow x = row))

/-- A strip is dressed with the tables, LUT bank, brightness and records in force (R206 to R209): its bytes, and the lamps in which a clip acted. -/
def State.dressStrip (s : State) (b : Band) (cab e : List Byte) : List Byte × Nat :=
  let x := s.ctx b.ctx
  let ob := cabOb cab + 10
  let bank := s.f F.DRS_CTRL_LUT_BANK 0
  let dither := s.fb F.DRS_CTRL_DITHER_EN 0
  let bright := s.brightOf x.wall
  let ls := s.stripLamps e
  let one := fun (j : Nat) =>
    let p := ls.getD j (0, 0)
    let px := p.1.toNat
    let py := 16 * stripRow e + p.2.toNat
    let r := natOfLe (s.dramFor 0 (cabDress cab + 8 * (stripOffset e + j)) 8 true)
    dressLamp (cabMatrix cab) r bright ob (threshold dither ob b.picture px py) ((s.rgbAt b.ctx b.desc b.colour px py).map (s.linear bank (cabLut cab) x.geo.depth))
  let outs := (List.range ls.length).map one
  (planeData ob (cabOrder cab) (outs.map (·.1)), (outs.filter (·.2)).length)

-- ## Fetch (R213 to R216)

/-- The stored units of the blocks that a strip touches, as bursts of at most four beats. -/
def State.stripBursts (s : State) (b : Band) (e : List Byte) : List Burst :=
  let x := s.ctx b.ctx
  let n := x.geo.w16 * x.geo.h16
  let base := s.tileBase b.ctx (s.desc b.desc).base
  let cols := (List.range x.geo.w16).filter (fun k => (s.stripLamps e).any (fun p => decide (p.1.toNat / 16 = k)))
  cols.flatMap (fun k =>
    let i := stripRow e * x.geo.w16 + k
    let units := s.indexEntry 0 base i % 32
    let at_ := blockAt base x.geo.depth b.colour n i
    (List.range (ceilDiv units 4)).map (fun j => { addr := at_ + 256 * j, beats := min 4 (units - 4 * j) }))

/-- BUF and PANIC follow the buffer, the fetch and the thresholds (R213). -/
def State.refreshPanic (s : State) (n : Nat) : State :=
  let l := (s.chan n).level
  let s := s.showBuf n
  let on := s.f F.LMP_PORT_PANIC_ON n
  let off := max on (s.f F.LMP_PORT_PANIC_OFF n)
  if s.f F.RIV_CH_STATUS_COUNT n = 0 ∨ 64 * off < l then s.setF F.RIV_CH_STATUS_PANIC n 0
  else if l < 64 * on then s.setF F.RIV_CH_STATUS_PANIC n 1
  else s

/-- A band without a strip left has ended; the DISPLAY mark follows, and slices that wait for the descriptor are looked at (R156, R157). -/
def State.bandDone (s : State) (n : Nat) : State :=
  let c := s.chan n
  match c.current with
  | some b => if c.strips = [] then ((s.setChan n { c with current := none }).refreshMarks (s.ctx b.ctx).group).noticeGroup (s.ctx b.ctx).group else s
  | none => s

/-- What the LUT reads of a strip meet (R359): a corrected error, or an uncorrectable one, which drops the strip. -/
def State.lutMeets (s : State) (n : Nat) (x : Strip) : State :=
  if x.ue then (s.raiseFault 25 n []).dropStrips n 1 else if x.ce then s.raiseFault 26 n [] else s

/-- Strip `x`, of strip entry `e`, is dressed, and its bursts wait to issue (R209, R214). -/
def State.dressNext (s : State) (n : Nat) (b : Band) (cab e : List Byte) (x : Strip) : State :=
  let d := s.dressStrip b cab e
  let s := chainAll (List.range d.2) (fun _ t => t.count F.DRS_SAT_COUNT 0 F.DRS_CNT_SAT_SAT 0 0) s
  let y := { x with lamps := (s.stripLamps e).length, obM10 := cabOb cab, data := d.1, begun := true }
  let bs := s.stripBursts b e
  let c := s.chan n
  let s := s.setChan n { c with strips := c.strips.map (fun z => if z = x then y else z), bursts := bs }
  let s := (s.setF F.RIV_CH_STATUS_COUNT n bs.length).setF F.RIV_CH_STATUS_STATE n 2
  (s.setF F.RIV_CH_STATUS_DONE n 0).refreshPanic n

/-- Strip `x` leaves the band. -/
def State.withoutStrip (s : State) (n : Nat) (x : Strip) : State := s.setChan n { s.chan n with strips := (s.chan n).strips.erase x }

/-- Strip `x` of band `b` is dressed, or is not sent, so that the one after it is looked at: a strip that the table in force does not hold, one whose LUT read failed, and any once a fault has ended the band. -/
def State.turnStrip (s : State) (n : Nat) (b : Band) (x : Strip) : State × Bool :=
  let cab := s.cabinet (s.chan n).table (x.position - 1)
  match s.stripOfRow cab x.row with
  | none => (s.withoutStrip n x, true)
  | some e =>
    let t := s.lutMeets n x
    if x.ue then (t.withoutStrip n x, true)
    else if x ∈ (t.chan n).strips then (t.dressNext n b cab e x, false)
    else (t, true)

/-- The next strip of the band that is not begun, and whether the one after it is looked at. -/
def State.tryStrip (s : State) (n : Nat) : State × Bool :=
  match (s.chan n).current, (s.chan n).strips.find? (fun x => !x.begun) with
  | some b, some x => s.turnStrip n b x
  | _, _ => (s.settleChan n, false)

/-- The next strip of the band that is sent begins. -/
def State.beginStrip (s : State) (n fuel : Nat) : State :=
  match fuel with
  | 0 => s.settleChan n
  | k + 1 =>
    let r := s.tryStrip n
    if r.2 then r.1.beginStrip n k else r.1

/-- The fetch goes on once every response has returned. -/
def State.fetchOn (s : State) (n : Nat) : State :=
  let c := s.chan n
  if c.bursts = [] ∧ c.flying = [] ∧ s.f F.RIV_CH_STATUS_STATE n ≠ 4 then ((s.beginStrip n (c.strips.length + 1)).bandDone n).refreshPanic n else s

/-- The channel can start a band: it is on, idle, dressing is on and the port is not in a safe state. -/
def State.bandCanStart (s : State) (n : Nat) : Bool :=
  decide (n < 48) && (s.chan n).en && decide ((s.chan n).current = none) && decide ((s.chan n).flying = []) && decide (s.f F.RIV_CH_STATUS_STATE n ≠ 4) &&
    s.fb F.DRS_CTRL_EN 0 && !(s.port n).safe

/-- BAND_START (R201, R206): the first queued band; its strips, in the order of the table. -/
def State.bandStart (s : State) (n : Nat) (r : SramRead) : State :=
  let c := s.chan n
  match s.bandCanStart n, c.bands with
  | true, b :: rest =>
    let apply := s.applySync n b s.now
    let rows := b.positions.flatMap (fun p => (s.bandStrips c.table (p - 1) b.ctx b.slice).map (fun e => (p, stripRow e)))
    let strips := (List.range rows.length).map (fun i => ({ position := (rows.getD i (0, 0)).1, row := (rows.getD i (0, 0)).2, ue := decide (r = .uncorrectable i), ce := decide (r = .corrected i) } : Strip))
    let s := s.setChan n { c with bands := rest, current := some b, apply := apply, strips := strips }
    (s.raiseMeets b.ctx b.picture apply).fetchOn n
  | _, _ => s

def execBandStart (n : Nat) (r : SramRead) (s : State) : Out := onInstance (decide (n < 64)) (s.bandStart n r)

/-- The beats of a burst go to the arbiters. -/
def State.presentBurst (s : State) (b : Burst) : State := chainAll (List.range b.beats) (fun i t => t.present 0 (b.addr + 64 * i) false true) s

/-- RIV_BURST_ISSUE (R213, R214): COUNT falls as the burst issues. A full transmit buffer of 16 KiB holds the fetch back; that it is the issue of bursts which waits is the model's choice (log entry 101). -/
def State.burstIssue (s : State) (n : Nat) : State :=
  let c := s.chan n
  match c.bursts with
  | [] => s
  | b :: r =>
    if 16384 ≤ c.level then s else
    let s := s.setChan n { c with bursts := r, flying := c.flying ++ [b] }
    let s := s.setF F.RIV_CH_STATUS_COUNT n r.length
    let s := if r = [] then s.setF F.RIV_CH_STATUS_STATE n 3 else s
    (s.presentBurst b).refreshPanic n

def execRivBurstIssue (n : Nat) (s : State) : Out := onInstance (decide (n < 64)) (s.burstIssue n)

-- ## Chains and splits (R217, R221, R222, R224)

/-- The chain of port `n`: its port A and the binding. -/
def State.chainOf (s : State) (n : Nat) : Option (Nat × Chain) := s.lamp.chains.find? (fun e => e.2.bound && (decide (e.1 = n) || decide (e.2.portB = n)))

def Chain.dual (c : Chain) : Bool := decide (c.portB < 48)

/-- The ports of a chain with port A `a`. -/
def Chain.ports (c : Chain) (a : Nat) : List Nat := if c.dual then [a, c.portB] else [a]

/-- First and last position that the channel of port `x` serves at split `k`. -/
def Chain.span (c : Chain) (a x k : Nat) : Nat × Nat := if !c.dual then (1, c.n) else if x = a then (1, k) else (k + 1, c.n)

/-- Active S of the chain as its ports show it. -/
def State.showSplit (s : State) (n : Nat) : State :=
  match s.chainOf n with
  | some (a, c) => chainAll (c.ports a) (fun x t => t.setF F.LMP_PORT_STATUS_SPLIT x (t.f F.RIV_CH_SPLIT_ACT_LAST a)) s
  | none => s

/-- The split of a channel in both sets; an armed hand-over is cancelled. -/
def State.putSplit (s : State) (x : Nat) (p : Nat × Nat) : State :=
  let s := (s.setF F.RIV_CH_SPLIT_ACT_FIRST x p.1).setF F.RIV_CH_SPLIT_ACT_LAST x p.2
  ((s.setF F.RIV_CH_SPLIT_FIRST x p.1).setF F.RIV_CH_SPLIT_LAST x p.2).setF F.RIV_CH_CTRL_SHADOW_ARMED x 0

/-- Pictures of context `c` with planes to send, as bands of slice 0, with the slices complete. -/
def State.pictures (s : State) (c : Nat) : List (Band × List Nat) :=
  let x := s.ctx c
  x.waiting.map (fun w => ({ ctx := c, picture := w.held.picture, desc := w.held.desc, colour := w.held.colour, stamp := w.stamp }, List.range x.geo.slices)) ++
    (match x.pic with
    | some p => [(p.band c 0, p.done)]
    | none => [])

/-- Channel `x` queues every band of the positions `ps` whose stamped sync lies ahead. -/
def State.adopt (s : State) (x : Nat) (ps : List Nat) : State :=
  let t := (s.chan x).table
  let ctxs := (ps.map (fun p => cabCtx (s.cabinet t (p - 1)))).eraseDups
  chainAll ctxs (fun c u => chainAll (u.pictures c) (fun q v =>
    if q.1.stamp < v.now ∨ (v.ctx c).enc then v
    else chainAll q.2 (fun i w => chainAll ((w.bandsFor x { q.1 with slice := i }).filter (fun b => b.positions.all (· ∈ ps))) (fun b z => z.queueBand x b) w) v) u) s

/-- The type of a frame (R219): 0 PLANES, 1 BLANK, 2 CONTROL, 3 STATUS. -/
def frameType (f : List Byte) : Nat := byteAt f 0 / 32

/-- Channel `x` lost the positions `ps`: its queued bands for them go uncounted, and a strip in transmission to one stops with the PLANES frame in progress. -/
def State.lose (s : State) (x : Nat) (ps : List Nat) : State :=
  let c := s.chan x
  let lost := fun (b : Band) => b.positions.any (· ∈ ps)
  let c := { c with bands := c.bands.filter (fun b => !lost b) }
  let s := s.setChan x c
  if !(c.current.any lost) then s
  else
    let keep := match (s.port x).frame, c.strips with
      | some f, y :: _ => if frameType f = 0 then [{ y with data := y.data.take (y.done + (f.length - 12)) }] else []
      | _, _ => []
    let c := { c with strips := keep, bursts := [], flying := c.flying.map (fun b => { b with dead := true }) }
    ((s.setChan x c).settleChan x).bandDone x

/-- The split of a chain moves to `k` (R222): both sets of both channels, TAKEOVER, ADOPTED, and the bands of the positions that change ends. -/
def State.moveSplit (s : State) (a : Nat) (c : Chain) (k : Nat) : State :=
  let b := c.portB
  let old := s.f F.RIV_CH_SPLIT_ACT_LAST a
  let s := (s.putSplit a (c.span a a k)).putSplit b (c.span a b k)
  let s := ((s.setF F.LMP_PORT_EVENT_TAKEOVER a 1).setF F.LMP_PORT_EVENT_TAKEOVER b 1).showSplit a
  let ps := (List.range c.n).map (· + 1)
  let moved := ps.filter (fun p => decide (min k old < p) && decide (p ≤ max k old))
  if moved = [] then s
  else
    let gain := if k < old then b else a
    let s := (s.setF F.RIV_CH_STATUS_ADOPTED gain 1).lose (if k < old then a else b) moved
    (s.adopt gain moved).syncMarks

/-- A confirmed BREAK notice at port `n` (R222, R224). -/
def State.breakNotice (s : State) (n d : Nat) : State :=
  let s := (s.setF F.LMP_PORT_EVENT_BREAK n 1).setF F.LMP_PORT_EVENT_BREAK_D n d
  match s.chainOf n with
  | none => s
  | some (a, c) =>
    let k := d % 128
    if !c.dual ∨ k = 0 ∨ c.n < k then s
    else
      let cut := if 128 ≤ d then k else k - 1
      if cut ∈ c.cuts then s
      else
        let s := s.setChain a { c with cuts := cut :: c.cuts }
        if c.cuts = [] then s.moveSplit a c cut
        else (chainAll (c.ports a) (fun x t => t.setF F.LMP_PORT_EVENT_DOUBLE_BREAK x 1) s).raiseFault 33 n []

def execBreakNoticeConfirm (n : Nat) (d : Nat) (s : State) : Out := onInstance (decide (n < 48)) (s.breakNotice n (d % 256))

-- ## Responses (R215 to R217)

/-- The bit of a channel in RIV_HALTED. -/
def State.setHalted (s : State) (n : Nat) (v : Bool) : State :=
  let F := if n < 32 then F.RIV_HALTED_LO_HALTED else F.RIV_HALTED_HI_HALTED
  if v then s.orF F 0 (n % 32) else s.clrF F 0 (2 ^ (n % 32))

/-- The retries of a burst are exhausted by errors: the channel halts, and the partner adopts its positions (R215, R217). -/
def State.halt (s : State) (n addr : Nat) : State :=
  let s := if s.f F.RIV_CH_STATUS_COUNT n = 0 then s.setF F.RIV_CH_STATUS_ERR_AFTER_COUNT n 1 else s
  let s := (s.setF F.RIV_CH_STATUS_ERR n 1).setF F.RIV_CH_STATUS_STATE n 4
  let s := ((s.setF F.RIV_CH_ERR_ADDR_LO_ADDR n (addr % 2 ^ 32)).setF F.RIV_CH_ERR_ADDR_HI_ADDR n (addr / 2 ^ 32)).setHalted n true
  let s := ((s.setChan n (s.chan n).endBand).settleChan n).syncMarks.raiseFault 24 n (leBytes 8 addr)
  match s.chainOf n with
  | some (a, c) => if c.dual then s.moveSplit a c (if n = a then 0 else c.n) else s
  | none => s

/-- The strip in fetch is dropped after poison that persists (R216). -/
def State.dropFetch (s : State) (n : Nat) : State :=
  let c := s.chan n
  let c := { c with strips := c.strips.filter (fun x => !(x.begun && !x.ready)), bursts := [], flying := c.flying.map (fun b => { b with dead := true }) }
  ((s.setChan n c).dropStrips n 1).settleChan n

/-- The oldest burst outstanding has had all its responses. -/
def State.burstEnd (s : State) (n : Nat) (b : Burst) (rest : List Burst) : State :=
  let c := s.chan n
  let gone := s.setChan n { c with flying := rest }
  if b.dead then (gone.settleChan n).fetchOn n
  else if !b.error && !b.poison then
    if c.bursts = [] ∧ rest = [] then
      (gone.setChan n { c with flying := [], strips := c.strips.map (fun x => if x.begun then { x with ready := true } else x) }).fetchOn n
    else gone
  else if b.retries < c.retryLimit then
    let again : Burst := { addr := b.addr, beats := b.beats, retries := b.retries + 1 }
    ((s.setChan n { c with flying := rest ++ [again] }).bump F.RIV_CH_STRIPS_RETRIES n).presentBurst again
  else if b.error then gone.halt n b.addr
  else (gone.dropFetch n).fetchOn n

/-- RIV_BEAT_RESPONSE (R215, R216). -/
def State.beatResponse (s : State) (n : Nat) (r : BeatResp) : State :=
  let c := s.chan n
  match c.flying with
  | [] => s
  | b :: rest =>
    let b := { b with got := b.got + 1, error := b.error || decide (r = .error), poison := b.poison || decide (r = .poison) }
    if b.got < b.beats then s.setChan n { c with flying := b :: rest } else s.burstEnd n b rest

def execRivBeatResponse (n : Nat) (r : BeatResp) (s : State) : Out := onInstance (decide (n < 64)) (s.beatResponse n r)

/-- CLEAR returns a halted channel to IDLE; its shadow set hands over at the next sync (R217). -/
def State.clearChan (s : State) (n : Nat) : State :=
  if s.f F.RIV_CH_STATUS_STATE n ≠ 4 then s
  else
    let s := (s.setF F.RIV_CH_STATUS_ERR n 0).setF F.RIV_CH_STATUS_ERR_AFTER_COUNT n 0
    let s := ((s.setF F.RIV_CH_STATUS_STATE n 1).setHalted n false).setF F.RIV_CH_CTRL_SHADOW_ARMED n 1
    s.settleChan n

-- ## Frames (R218, R219, R225, R396)

/-- The wall whose syncs port `n` sends. -/
def State.portWall (s : State) (n : Nat) : Option Wall :=
  let g := s.grid (s.port n).grid
  if g.used then s.wall? g.wall else none

/-- SFC of the first sync at or after `t` on port `n`. -/
def State.sfcAt (s : State) (n t : Nat) : Nat := match s.portWall n with
  | some w => w.syncNo t % 256
  | none => 0

/-- The header of a PLANES frame of strip `x` with `len` payload bytes. -/
def planesHeader (x : Strip) (len apply : Nat) : List Byte :=
  leBytes 1 ((if x.done + len = x.data.length then 16 else 0) + x.obM10) ++ leBytes 1 x.position ++ leBytes 1 apply ++ leBytes 1 x.row ++
    beBytes 2 (x.done / 64) ++ beBytes 2 (x.lamps - 1)

/-- The broadcast BLANK frame with NOW = 1. -/
def blankHeader (apply : Nat) : List Byte := [0x28, 0xFF] ++ leBytes 1 apply ++ [0, 0, 0, 0, 0]

/-- The frame is that BLANK frame. -/
def isBlankNow (f : List Byte) : Bool := decide (f.take 2 = [0x28, 0xFF])

/-- A frame of firmware's, without its CRC (R219): bytes 3 to 7 are zero. That a CONTROL frame's LAST, NOW and OB_M10 are zero is the model's choice (log entry 102). -/
def frameBytes (f : PortFrame) : List Byte :=
  match f with
  | .control r a p => [0x40] ++ leBytes 1 r ++ leBytes 1 a ++ [0, 0, 0, 0, 0] ++ p
  | .blank r a => [0x20] ++ leBytes 1 r ++ leBytes 1 a ++ [0, 0, 0, 0, 0]

/-- A broadcast BLANK frame with NOW = 1 is to be sent: one of the safe state BLANK, or one owed by R37, R388 or R396. A port in HOLD sends none but that of a wall that closes, after which its EN falls (log entry 103). -/
def LampPort.blankNext (p : LampPort) : Bool := p.blankDue || (p.owed && (!(p.safe && p.hold) || p.closing))

/-- The next frame of the strip in transmission, without its CRC, where the whole frame is in the buffer (R213). -/
def State.stripFrame (s : State) (n : Nat) : Option (List Byte) :=
  match (s.chan n).strips with
  | x :: _ =>
    if x.ready then
      let len := min 8192 (x.data.length - x.done)
      some (planesHeader x len (s.sfcAt n (s.chan n).apply) ++ sliceOf x.data x.done len)
    else none
  | [] => none

/-- The frame that port `n` sends next, without its CRC: a BLANK frame that is due; outside a safe state one that firmware has for the port, or the next of the strip (R219, R225). -/
def State.nextFrame (s : State) (n : Nat) (own : Option PortFrame) : Option (List Byte) :=
  let p := s.port n
  if !p.en then none
  else if p.blankNext then some (blankHeader (s.sfcAt n (s.now + 1)))
  else if p.safe then none
  else
    match own with
    | some f => some (frameBytes f)
    | none => s.stripFrame n

/-- A frame with `n` payload bytes ends before the next gap begins (R200). -/
def State.frameFits (s : State) (n len : Nat) : Bool :=
  match s.portWall n with
  | some w => !(s.port n).inGap && decide (s.now + ceilDiv ((len + 16) * s.portCharPs n) 1000 + s.syncGap ≤ w.firstSync (s.now + 1))
  | none => true

/-- Capture channel `k` writes the header and payload `bs` to its ring, with wrap-around. -/
def State.captureTo (s : State) (k : Nat) (bs : List Byte) : State :=
  let c := s.chan k
  let size := 2 ^ min 30 (max 12 (c.table / 2 ^ 56))
  (s.putRing 6 (c.table % 2 ^ 40) size c.ringPos bs).setChan k { c with ringPos := (c.ringPos + bs.length) % size }

/-- Capture channels copy the frame, preceded by its header, into their rings; a frame that a ring cannot take in time is skipped and counted in DROPPED (R212). Whether the ring takes it in time rests on the memory's timing: a free value. -/
def State.captureFrame (s : State) (n : Nat) (f : List Byte) : State :=
  let on := ((List.range 16).map (· + 48)).filter (fun k => (s.chan k).en && decide ((s.chan k).source = n))
  chainAll on (fun k t =>
    let late := Config.freeBool 63 t.free
    if late then t.draw.dropStrips k 1 else t.draw.captureTo k (f.take (f.length - 4))) s

/-- The head strip has sent `len` more bytes. -/
def State.stripSent (s : State) (n len : Nat) : State :=
  let c := s.chan n
  match c.strips with
  | [] => s
  | x :: r =>
    let x := { x with done := x.done + len }
    let s := s.setChan n { c with strips := if x.data.length ≤ x.done then r else x :: r }
    (s.bandDone n).refreshPanic n

/-- The frame in progress ends whole. -/
def State.frameSent (s : State) (n : Nat) (f : List Byte) : State :=
  let p := s.port n
  let blank := isBlankNow f
  let p := { p with frame := none, lastFrame := f, blankDue := p.blankDue && !blank, owed := p.owed && !blank, closing := p.closing && !blank, en := p.en && !(p.closing && blank) }
  let off := (s.port n).closing && blank
  let s := s.setPort n p
  let s := if off then s.setF F.LMP_PORT_CTRL_EN n 0 else s
  if frameType f = 0 then (s.captureFrame n f).stripSent n (f.length - 12) else s.captureFrame n f

/-- LAMP_FRAME_SEND (R200): a frame in progress ends; otherwise the next frame starts, where it ends before the next gap. -/
def State.lampFrame (s : State) (n : Nat) (own : Option PortFrame) : State :=
  match (s.port n).frame with
  | some f => s.frameSent n f
  | none =>
    if !s.portLegal fnLamp n then s
    else
      match s.nextFrame n own with
      | some f => if s.frameFits n (f.length - 8) then s.setPort n { s.port n with frame := some (f ++ beBytes 4 (crc32 f)) } else s
      | none => s

def execLampFrameSend (n : Nat) (s : State) (own : Option PortFrame := none) : Out := onInstance (decide (n < 48)) (s.lampFrame n own)

/-- A frame from a receiver (R219, R220): STATUS goes to the port's control queue; a bad CRC counts. -/
def State.statusReceive (s : State) (n : Nat) (f : List Byte) : State :=
  let body := f.take (f.length - 4)
  if !(s.port n).en ∨ s.portBlind fnLamp n then s
  else if f.length < 12 ∨ beAt f (f.length - 4) 4 ≠ crc32 body then s.bump F.LMP_PORT_COUNTS_RX_CRC n
  else if frameType f = 3 then s.offer (4096 + 16 + n) { kind := 0, first := true, last := true, data := body }
  else s

def execLampStatusReceive (n : Nat) (frame : List Byte) (s : State) : Out := onInstance (decide (n < 48)) (s.statusReceive n frame)

-- ## The receiver (R220, R221)

/-- FAR_SYNC falls. -/
def State.farLost (s : State) (n : Nat) : State :=
  if s.fb F.LMP_PORT_STATUS_FAR_SYNC n then (s.setF F.LMP_PORT_STATUS_FAR_SYNC n 0).setF F.LMP_PORT_EVENT_FAR_LOST n 1 else s

/-- LAMP_RX_LOS; a receiver blind in calibration reports nothing. -/
def State.rxLos (s : State) (n : Nat) (los : Bool) : State :=
  if s.portBlind fnLamp n then s
  else (if los then s.setF F.LMP_PORT_EVENT_RX_LOS n 1 else s).farLost n

def execLampRxLos (n : Nat) (los : Bool) (s : State) : Out := onInstance (decide (n < 48)) (s.rxLos n los)

def State.farReturn (s : State) (n : Nat) : State := if s.portBlind fnLamp n then s else s.setF F.LMP_PORT_STATUS_FAR_SYNC n 1

def execFarSyncReturn (n : Nat) (s : State) : Out := onInstance (decide (n < 48)) (s.farReturn n)

-- ## Syncs (R64, R198 to R200, R396, R397)

/-- The grid at whose sync the hand-overs of lamp port `n` take place. -/
def State.boundaryGrid (s : State) (n : Nat) : Nat := if (s.port n).en then (s.port n).grid else s.f F.LMP_PORT_CTRL_GRID n

/-- The grid of riving channel `n`: its port's, or that of its source. -/
def State.chanGrid (s : State) (n : Nat) : Nat := if n < 48 then s.boundaryGrid n else s.boundaryGrid (s.f F.RIV_CH_CTRL_SOURCE n)

/-- The shadow set of a lamp port becomes active; a port whose EN takes effect owes its first BLANK frame (R396). -/
def State.handPort (s : State) (n : Nat) : State :=
  let p := s.port n
  let en := s.fb F.LMP_PORT_CTRL_EN n
  let q := { p with en := en, partner := s.f F.LMP_PORT_CTRL_PARTNER n, grid := s.f F.LMP_PORT_CTRL_GRID n, endB := s.fb F.LMP_PORT_CTRL_END n, owed := if en && !p.en then true else p.owed }
  (s.setPort n q).setF F.LMP_PORT_CTRL_SHADOW_ARMED n 0

/-- The shadow set of a riving channel becomes active (R64). A channel that is switched off drops its bands. -/
def State.handChan (s : State) (n : Nat) : State :=
  let c := s.chan n
  let en := s.fb F.RIV_CH_CTRL_EN n
  let c := { c with en := en, retryLimit := s.f F.RIV_CH_CTRL_RETRY_LIMIT n, source := s.f F.RIV_CH_CTRL_SOURCE n, table := s.f F.RIV_CH_TABLE_LO_ADDR n + 2 ^ 32 * (if n < 48 then s.f F.RIV_CH_TABLE_HI_ADDR n % 256 else s.f F.RIV_CH_TABLE_HI_ADDR n) }
  let s := s.setChan n (if en then c else { c.endBand with bands := [] })
  let s := (s.setF F.RIV_CH_SPLIT_ACT_FIRST n (s.f F.RIV_CH_SPLIT_FIRST n)).setF F.RIV_CH_SPLIT_ACT_LAST n (s.f F.RIV_CH_SPLIT_LAST n)
  let s := s.setF F.RIV_CH_CTRL_SHADOW_ARMED n 0
  let s := if en && decide ((s.chan n).current ≠ none) then s else s.settleChan n
  (if en then s else s.syncMarks).showSplit n

/-- Hand-overs at a sync of grid `g` (R64). -/
def State.handOver (s : State) (g : Nat) : State :=
  let ports := allPorts.filter (fun n => s.fb F.LMP_PORT_CTRL_SHADOW_ARMED n && decide (s.boundaryGrid n = g))
  let chans := (List.range 64).filter (fun n => s.fb F.RIV_CH_CTRL_SHADOW_ARMED n && decide (s.chanGrid n = g))
  let s := chainAll chans (fun n t => t.handChan n) (chainAll ports (fun n t => t.handPort n) s)
  let s := if s.fb F.DRS_BRIGHT_SHADOW_ARMED g then
      (s.withLamp (fun w => { w with bright := Tab.set 65536 w.bright g (min 65536 (s.f F.DRS_BRIGHT_BRIGHT g)) })).setF F.DRS_BRIGHT_SHADOW_ARMED g 0
    else s
  if decide (g = 0) && s.fb F.DRS_CTRL_LUT_ARMED 0 then
    (s.setF F.DRS_CTRL_LUT_BANK 0 (1 - s.f F.DRS_CTRL_LUT_BANK 0)).setF F.DRS_CTRL_LUT_ARMED 0 0
  else s

/-- Lamp ports that send the syncs of grid `g`. -/
def State.gridPorts (s : State) (g : Nat) : List Nat := allPorts.filter (fun n => (s.port n).en && decide ((s.port n).grid = g))

/-- The kind of safe state that SAFE_STATE_SET chose takes effect at the port's sync; a port in its safe state follows a change to BLANK at once, and stays blank otherwise. -/
def State.takeKind (s : State) (n : Nat) : State :=
  let p := s.port n
  let s' := s.setPort n { p with kind := s.safeKind n }
  if p.kind = s.safeKind n then s' else s'.refreshPort n

/-- Port `n` sends the sync with `sfc`; in BLANK it owes a BLANK frame after it (R225). -/
def State.portSync (s : State) (n sfc : Nat) : State :=
  let s := s.takeKind n
  let p := s.port n
  s.setPort n { p with lastSync := some sfc, inGap := false, blankDue := p.blankDue || (p.safe && !p.hold) }

/-- Each port of the grid sends the sync. -/
def State.sendSync (s : State) (g sfc : Nat) : State := chainAll (s.gridPorts g) (fun n t => t.portSync n sfc) s

/-- SUBFRAME_SYNC: sync k of grid `g`. -/
def State.subframe (s : State) (g : Nat) : State :=
  let x := s.grid g
  if !s.fb F.LMP_GRID_STATUS_EN g then s
  else
    let w := s.wall x.wall
    let s := (s.setF F.LMP_GRID_STATUS_SFC g (x.k % 256)).setGrid g { x with k := x.k + 1, inGap := false }
    let s := (s.handOver g).sendSync g (x.k % 256)
    chainAll (s.ctxsOf (fun c => decide (c.wall = x.wall) && !c.enc)) (fun c t => t.displayAt c (w.sync x.k)) s

def execSubframeSync (g : Nat) (s : State) : Out := onInstance (gridOn g) (s.subframe g)

/-- A strip whose last frame is not sent by the start of its APPLY sync's gap is late (R202). -/
def State.markLate (s : State) (n t : Nat) : State :=
  let c := s.chan n
  if c.current.isNone ∨ c.apply ≠ t then s
  else
    let k := (c.strips.filter (fun x => !x.late)).length
    (s.setChan n { c with strips := c.strips.map (fun x => { x with late := true }) }).bumpBy F.LMP_PORT_COUNTS_LATE_STRIPS n k

/-- The grid in whose gaps lane `l` may be calibrated: its port's, or GRID0 (R329). -/
def State.laneGrid (s : State) (l : Nat) : Nat := if s.f F.LANE_CFG_FUNC l = fnLamp then (s.port (s.f F.LANE_CFG_PORT l)).grid else 0

/-- SYNC_GAP_START: only idles until the sync (R200); the calibrations and retrains of the grid's gap are counted afresh (R306, R329). -/
def State.gapStart (s : State) (g : Nat) : State :=
  let x := s.grid g
  if !s.fb F.LMP_GRID_STATUS_EN g then s
  else
    let t := (s.wall x.wall).sync x.k
    let s := chainAll (s.gridPorts g) (fun n u => (u.setPort n { u.port n with inGap := true }).markLate n t) s
    let s := (s.setGrid g { x with inGap := true }).withLane (fun w => { w with gap := w.gap.filter (fun l => decide (s.laneGrid l ≠ g)) })
    if g = 0 then s.withMem (fun w => { w with gapUsed := false }) else s

/-- GRID_ENABLE (R397): only while PTP is LOCKED, or at once on a grandmaster or without PTP_CONFIG. -/
def State.gridEnable (s : State) (g : Nat) : State :=
  let x := s.grid g
  let ptp := s.fw.ptp = [] ∨ s.fw.ptpMaster = true ∨ s.fb F.CLK_EVENT_PTP_LOCKED 0 = true
  if x.used = true ∧ s.fb F.LMP_GRID_STATUS_EN g = false ∧ ptp ∧ x.t0 ≤ s.now ∧ s.stage = 4 then
    (s.setF F.LMP_GRID_STATUS_EN g 1).setGrid g { x with k := (s.wall x.wall).syncNo s.now }
  else s

def execGridEnable (g : Nat) (s : State) : Out := onInstance (gridOn g) (s.gridEnable g)

end Sys2Proof.Machine
end

