-- ==== Sys2Proof/Machine/LampCmd.lean ====
section
/-! DEFINITION. The mailbox commands of the lamp output: LAMP_PORT_SET, BRIGHTNESS_SET, SCAN_MAP_LOAD, DRESSING_LOAD and RIV_CHANNEL_CONFIG (R203 to R205, R209, R221, R443). -/

namespace Sys2Proof.Machine

-- ## LAMP_PORT_SET (R221, R443)

/-- A channel's hand-over is armed. -/
def State.armChan (s : State) (n : Nat) : State := s.setF F.RIV_CH_CTRL_SHADOW_ARMED n 1

/-- The shadow split of channel `x`, armed. -/
def State.shadowSplit (s : State) (x : Nat) (p : Nat × Nat) : State :=
  ((s.setF F.RIV_CH_SPLIT_FIRST x p.1).setF F.RIV_CH_SPLIT_LAST x p.2).armChan x

/-- The shadow table address of channel `x`, armed. -/
def State.shadowTable (s : State) (x a : Nat) : State :=
  ((s.setF F.RIV_CH_TABLE_LO_ADDR x (a % 2 ^ 32)).setF F.RIV_CH_TABLE_HI_ADDR x (a / 2 ^ 32)).armChan x

/-- Firmware selects same-bank refresh on a part that has a riving channel enabled (R301). -/
def State.sameBank (s : State) : State := chainAll (List.range 4) (fun c t => t.setF F.DDR_REFRESH_MODE c 1) s

/-- The shadow sets of port `x` and its channel for the chain `c` of port A `a`. -/
def State.bindPort (s : State) (a : Nat) (c : Chain) (grid adv table k x : Nat) : State :=
  let s := s.setF F.LMP_PORT_CTRL_PARTNER x (if !c.dual then 63 else if x = a then c.portB else a)
  let s := (s.setF F.LMP_PORT_CTRL_GRID x grid).setF F.LMP_PORT_CTRL_END x (if x = a then 0 else 1)
  let s := ((s.setF F.LMP_PORT_CTRL_EN x 1).setF F.LMP_PORT_CTRL_SHADOW_ARMED x 1).setF F.LMP_PORT_SYNC_ADV_NS x adv
  let s := (s.setF F.LMP_PORT_LEAD_NS x (s.leadFor x table)).setF F.RIV_CH_CTRL_EN x 1
  (s.shadowTable x table).shadowSplit x (c.span a x k)

/-- No other chain holds port `n`. -/
def State.portFreeFor (s : State) (a n : Nat) : Bool := (s.chainOf n).all (fun e => decide (e.1 = a))

def State.lampPortArgsOk (s : State) (a b w n k adv table : Nat) : Bool :=
  let c : Chain := { portB := b, n := n }
  decide ((s.wall? w).any (fun x => x.grid.isSome)) && decide (1 ≤ n) && decide (n ≤ 64) && decide (k ≤ n) && decide (adv < 65536) && decide (table < 2 ^ 40) &&
    (c.ports a).all (fun x => s.portLegal fnLamp x && s.portFreeFor a x) && s.tableOk table

/-- LAMP_PORT_SET: binds a chain, or with RESTORE moves only its split; LEAD is returned. -/
def State.lampPortCmd (s : State) (m : Nat) : State :=
  s.serve m 0x0034 (· = 18) (fun t =>
    let v := t.mbxArgs m
    let a := byteAt v 0
    let b := byteAt v 1
    let w := byteAt v 2
    let n := byteAt v 3
    let k := byteAt v 4
    let adv := leAt v 6 4
    let table := leAt v 10 8
    let old := t.chain a
    if 47 < a ∨ (47 < b ∧ b ≠ 255) ∨ a = b ∨ 1 < byteAt v 5 then t.putResult m stBadArg []
    else if byteAt v 5 = 1 then
      if old.bound = false ∨ old.portB ≠ b ∨ old.n < k then t.putResult m stBadArg []
      else
        let t := chainAll (old.ports a) (fun x u => u.shadowSplit x (old.span a x k)) t
        (t.setChain a { old with cuts := [] }).putResult m stOk (leBytes 4 (t.f F.LMP_PORT_LEAD_NS a))
    else if !t.lampPortArgsOk a b w n k adv table then t.putResult m stBadArg []
    else
      let c : Chain := { bound := true, portB := b, wall := w, n := n }
      let g := (t.wall w).grid.getD 0
      let t := chainAll (c.ports a) (fun x u => u.bindPort a c g adv table k x) (t.setChain a c).sameBank
      t.putResult m stOk (leBytes 4 (t.f F.LMP_PORT_LEAD_NS a)))

def execLampPortSet (m : Nat) (s : State) : Out := onMailbox m (s.lampPortCmd m)

-- ## BRIGHTNESS_SET

/-- The wall's brightness is armed for the next sync of its grid; a wall without one takes no effect. -/
def State.brightnessCmd (s : State) (m : Nat) : State :=
  s.serve m 0x0015 (· = 5) (fun t =>
    let w := byteAt (t.mbxArgs m) 0
    let v := leAt (t.mbxArgs m) 1 4
    match t.wall? w with
    | none => t.putResult m stBadArg []
    | some x =>
      if 65536 < v then t.putResult m stBadArg []
      else
        match x.grid with
        | none => t.putResult m stOk []
        | some g => ((t.setF F.DRS_BRIGHT_BRIGHT g v).setF F.DRS_BRIGHT_SHADOW_ARMED g 1).putResult m stOk [])

def execBrightnessSet (m : Nat) (s : State) : Out := onMailbox m (s.brightnessCmd m)

-- ## SCAN_MAP_LOAD (R205)

/-- The table of every channel of the chain is armed; lock 2 is held until the job ends (R63). -/
def State.scanMapCmd (s : State) (m : Nat) : State :=
  s.serve m 0x0041 (· = 9) (fun t =>
    let a := byteAt (t.mbxArgs m) 0
    let table := leAt (t.mbxArgs m) 1 8
    let c := t.chain a
    if 47 < a ∨ c.bound = false ∨ 2 ^ 40 ≤ table then t.putResult m stBadArg []
    else if t.lockElsewhere 2 then t.putResult m stLocked []
    else if !t.tableOk table then t.putResult m stBadArg []
    else
      let t := chainAll (c.ports a) (fun x u => u.shadowTable x table) (t.setF F.SEM_LOCK_OWNER 2 1)
      t.startJob m .tables)

def execScanMapLoad (m : Nat) (s : State) : Out := onMailbox m (s.scanMapCmd m)

-- ## DRESSING_LOAD (R209)

/-- Free bytes, `n` of them, of the package's content. -/
def freePackage (p k n : Nat) : List Byte := (Config.freeBytes p k n ++ List.replicate n 0).take n

/-- A cabinet entry with what the package holds for it: M, LUT, OB_M10 and new records. The layout of a package is not given, so its values are free. -/
def State.dressedEntry (s : State) (e : List Byte) (k dress : Nat) : List Byte :=
  let lut := Config.freeNat 43 (s.free + k) % 4
  let ob := Config.freeNat 44 (s.free + k) % 7
  e.take 16 ++ freePackage 42 (s.free + k) 18 ++ leBytes 1 (cabOrder e * 16 + lut) ++ leBytes 1 ob ++ sliceOf e 36 4 ++ leBytes 8 dress ++ e.drop 48

/-- Lamp records that a cabinet's strips reach. -/
def State.recordsOf (s : State) (e : List Byte) : Nat := (s.cabStripList e).foldl (fun a x => max a (stripOffset x + (s.stripLamps x).length)) 0

/-- A new table in DRAM: the table at `t`, with the cabinets of context `c` dressed anew; the address of the copy. -/
def State.dressedTable (s : State) (t c : Nat) : State × Nat :=
  let base := s.freeArea 45
  let s := (s.draw.putFor 9 base (s.dramFor 9 t 64 true) true)
  (chainAll (List.range (s.cabinets t)) (fun k u =>
    let e := u.cabinet t k
    if cabCtx e ≠ c then u.putFor 9 (base + 64 + 64 * k) e true
    else
      let dress := u.freeArea 46
      let u := u.putFor 9 dress (freePackage 47 u.free (8 * u.recordsOf e)) true
      (u.putFor 9 (base + 64 + 64 * k) (u.dressedEntry e k dress) true).draw) s, base)

/-- Every chain whose table in the shadow set names the context gets a dressed copy of it. -/
def State.dressChains (s : State) (c : Nat) : State :=
  chainAll (s.lamp.chains.filter (fun e => e.2.bound)) (fun e t =>
    let old := t.f F.RIV_CH_TABLE_LO_ADDR e.1 + 2 ^ 32 * (t.f F.RIV_CH_TABLE_HI_ADDR e.1 % 256)
    if (List.range (t.cabinets old)).any (fun k => decide (cabCtx (t.cabinet old k) = c)) then
      let r := t.dressedTable old c
      chainAll (e.2.ports e.1) (fun x u => u.shadowTable x r.2) r.1
    else t) s

/-- The package's LUTs go to the inactive bank, which switches at the next sync of GRID0. -/
def State.loadLuts (s : State) : State :=
  let bank := 1 - s.f F.DRS_CTRL_LUT_BANK 0
  let s := chainAll (List.range 4) (fun l t => chainAll (List.range 4097) (fun i u =>
    u.withLamp (fun w => { w with lut := Tab.set 0 w.lut (lutKey bank l i) (Config.freeNat 48 (u.free + 4097 * l + i) % 2 ^ 24) })) t) s
  (s.draw).setF F.DRS_CTRL_LUT_ARMED 0 1

/-- DRESSING_LOAD: CONTEXT, address and length of a package. -/
def State.dressingCmd (s : State) (m : Nat) : State :=
  s.serve m 0x0040 (· = 14) (fun t =>
    let c := leAt (t.mbxArgs m) 0 2
    let a := leAt (t.mbxArgs m) 2 8
    if 2 ^ 40 ≤ a ∨ ((t.ctx? c).any (fun x => !x.enc)) = false then t.putResult m stBadArg []
    else if t.lockElsewhere 2 then t.putResult m stLocked []
    else (((t.setF F.SEM_LOCK_OWNER 2 1).dressChains c).loadLuts).startJob m .tables)

def execDressingLoad (m : Nat) (s : State) : Out := onMailbox m (s.dressingCmd m)

-- ## RIV_CHANNEL_CONFIG

/-- The source port of a capture channel serves a protected wall (R423). -/
def State.captureBarred (s : State) (ch src : Nat) : Bool := decide (48 ≤ ch) && (s.chainOf src).any (fun e => s.wallProtected e.2.wall)

/-- The words of RIV_CH_CTRL, RIV_CH_TABLE_LO, RIV_CH_TABLE_HI and RIV_CH_SPLIT as the shadow set of one channel, armed. -/
def State.rivConfigCmd (s : State) (m : Nat) : State :=
  s.serve m 0x0450 (· = 17) (fun t =>
    let v := t.mbxArgs m
    let n := byteAt v 0
    let ctrl := leAt v 1 4
    if 63 < n then t.putResult m stBadArg []
    else if t.captureBarred n (ctrl / 2 ^ 24 % 64) ∧ m ≤ 7 then t.putResult m stNotPermitted []
    else
      let t := (t.setF F.RIV_CH_CTRL_SOURCE n (ctrl / 2 ^ 24)).setF F.RIV_CH_CTRL_RETRY_LIMIT n (ctrl / 2 ^ 12)
      let t := (t.setF F.RIV_CH_CTRL_EN n (ctrl / 2 ^ 8)).setF F.RIV_CH_TABLE_LO_ADDR n (leAt v 5 4)
      let t := (t.setF F.RIV_CH_TABLE_HI_ADDR n (leAt v 9 4)).setF F.RIV_CH_SPLIT_FIRST n (byteAt v 13)
      let t := if ctrl / 2 ^ 8 % 2 = 1 then t.sameBank else t
      ((t.setF F.RIV_CH_SPLIT_LAST n (byteAt v 14)).armChan n).putResult m stOk [])

def execRivChannelConfig (m : Nat) (s : State) : Out := onMailbox m (s.rivConfigCmd m)

end Sys2Proof.Machine
end

