-- ==== Sys2Proof/Machine/HaulTx.lean ====
section
/-! DEFINITION. What the part sends on its haul ports (R232 to R235, R254 to R257, R264, R268, R279, R286): packets of encode contexts, ring notices, transmission; and the commands of the pool, the spill queues and the traffic manager. -/

namespace Sys2Proof.Machine

-- ## Frames of the part's own (R232, R233)

/-- An IPv4 packet with a UDP payload: DF = 1, TTL 64, no options. -/
def ipv4Packet (id src dst : Nat) (sport dport : Nat) (data : List Byte) : List Byte :=
  let udp := udpDatagram (beBytes 4 src ++ beBytes 4 dst ++ [0, 17] ++ beBytes 2 (8 + data.length)) sport dport data
  let a := [0x45, 0] ++ beBytes 2 (20 + udp.length) ++ beBytes 2 id ++ [0x40, 0, 64, 17]
  let b := beBytes 4 src ++ beBytes 4 dst
  a ++ beBytes 2 (65535 - onesSum (a ++ [0, 0] ++ b)) ++ b ++ udp

/-- An IPv6 packet with a UDP payload: hop limit 64, no extension header. -/
def ipv6Packet (flow src dst : Nat) (sport dport : Nat) (data : List Byte) : List Byte :=
  let n := 8 + data.length
  beBytes 4 (6 * 2 ^ 28 + flow % 2 ^ 28) ++ beBytes 2 n ++ [17, 64] ++ beBytes 16 src ++ beBytes 16 dst ++
    udpDatagram (beBytes 16 src ++ beBytes 16 dst ++ beBytes 4 n ++ [0, 0, 0, 17]) sport dport data

/-- A haul packet in the encapsulation of port `q`. The addresses of the IP header, its identification and flow label are not given. -/
def State.haulFrame (s : State) (q : Nat) (h : Parsed) (seq mac : Nat) (pay : List Byte) : List Byte :=
  let body := haulHeader24 { h with payLen := pay.length } seq ++ pay
  let rtp := rtpHeader (s.f F.HAUL_UDP_PT q) h seq ++ body
  let sport := 49152 + h.tile % 16384
  let dport := s.f F.HAUL_UDP_PORT q
  let open_ := fun p => Config.freeNat p s.free
  ethernet mac (s.macOf F.HAUL_MAC_LO_MAC F.HAUL_MAC_HI_MAC q) (match s.f F.HAUL_CTRL_ENCAP q with
    | 1 => [0x08, 0x00] ++ ipv4Packet (open_ 37) (open_ 38) (open_ 39) sport dport rtp
    | 2 => [0x86, 0xDD] ++ ipv6Packet (open_ 37) (open_ 38) (open_ 39) sport dport rtp
    | _ => [0x88, 0xB5] ++ body)

/-- The part's device address. -/
def State.device (s : State) : Nat := s.f F.CLS_DEVICE_ADDR 0

/-- The destination MAC address of an originated packet: the rewrite entry; without one it is not given. -/
def State.destMac (s : State) (a : Nat) : Nat :=
  if actMac a = 0 then Config.freeNat 34 s.free % 2 ^ 48 else s.macOf F.CLS_MAC_LO_MAC F.CLS_MAC_HI_MAC (actMac a)

/-- The ports and the action that an originated packet takes under the live version (R256, R282). -/
def State.ownRoute (s : State) (h : Parsed) (inport : Nat) : Steered × Verdict :=
  let v := s.lookUp h inport false
  (if actDrop v.action then {} else s.steerAll h v.action inport (s.namedPorts v.action inport), v)

/-- An originated packet is classified and its copies are queued, with HOP 0 (R282); none where no buffer is free. `mk`: the frame that leaves by a port for an action. -/
def State.originateFrame (s : State) (inport : Nat) (h : Parsed) (mk : Nat → Nat → List Byte) : Option State :=
  let r := s.ownRoute h inport
  let a := r.2.action
  let t := if !r.2.hit then s.clsCount cntNoMatch else if actDrop a then s.clsCount cntRuleDrop else s
  let t := t.noteSteering h a r.1
  match r.1.ports with
  | [] => some t
  | q :: _ =>
    let f := mk a q
    match t.allocPacket { ref := r.1.ports.length, inport := inport, arrival := s.tick4, frame := f } f.length (decide (copyQueue h a < 4)) with
    | none => none
    | some (b, u) => some ((chainAll r.1.ports (fun p w => w.place b h a p inport s.tick4 (mk a)) u).draw)

/-- An originated haul packet. -/
def State.originate (s : State) (inport : Nat) (h : Parsed) (seq : Nat) (pay : List Byte) : Option State :=
  s.originateFrame inport h (fun a q => s.haulFrame q h seq (s.destMac a) pay)

-- ## PTP messages of the part's own (R262, R264, R379)

/-- The bytes of an event message: messageType 0 to 3 and the domain of PTP_CONFIG; the rest is firmware's. -/
def State.ptpMessage (s : State) : List Byte :=
  let b := (Config.freeBytes 65 s.free 44 ++ List.replicate 44 0).take 44
  leBytes 1 (byteAt b 0 / 16 * 16 + Config.freeNat 66 s.free % 4) ++ sliceOf b 1 3 ++ leBytes 1 (byteAt s.fw.ptp 1) ++ b.drop 5

/-- The frame of such a message on port `q`, in the TRANSPORT of PTP_CONFIG. -/
def State.ptpFrame (s : State) (mac q : Nat) : List Byte :=
  let open_ := fun p => Config.freeNat p s.free
  ethernet mac (s.macOf F.HAUL_MAC_LO_MAC F.HAUL_MAC_HI_MAC q) (match byteAt s.fw.ptp 3 with
    | 1 => [0x08, 0x00] ++ ipv4Packet (open_ 37) (open_ 38) (open_ 39) 319 319 s.ptpMessage
    | 2 => [0x86, 0xDD] ++ ipv6Packet (open_ 37) (open_ 38) (open_ 39) 319 319 s.ptpMessage
    | _ => [0x88, 0xF7] ++ s.ptpMessage)

/-- Firmware, which runs the clocks of PTP_CONFIG, originates an event message. When it does is not given: a free value. It stalls where no buffer is free. -/
def State.ptpSend (s : State) : State :=
  if s.fw.ptp = [] ∨ Config.freeBool 64 s.free = false then s
  else
    match s.originateFrame 6 (parseFrame 0 (s.ptpFrame 0 0)) (fun a q => s.ptpFrame (s.destMac a) q) with
    | none => s.stall .cp
    | some t => (t.unstall .cp).draw

-- ## Ring notices (R235, R254 to R257)

/-- A TYPE 4 header of the part. PICTURE, SLICE, FLAGS, PRIO and DEADLINE of a control packet are not given. -/
def State.controlHdr (s : State) (typ tile hop src : Nat) : Parsed :=
  let v := Config.freeNat 36 s.free
  { haul := true, ver := 2, cls := 0, typ := typ, tile := tile, hop := hop, srcDev := src, picture := v % 65536, slice := v / 65536 % 256, flags := v / 2 ^ 24 % 256, prio := v / 2 ^ 32 % 16, deadline := v / 2 ^ 36 % 2 ^ 32 }

/-- The next SEQUENCE of one of the part's own flows. -/
def State.nextOwnSeq (s : State) (tile : Nat) : State := s.withHaul (fun w => { w with seqs := Tab.set 0 w.seqs tile ((Tab.get 0 w.seqs tile + 1) % 2 ^ 32) })

/-- The frames `mk` leave by the ports of `ps` on SQ0, from a reserved buffer (R254, R263). -/
def State.sendReserved (s : State) (ps : List Nat) (inport : Nat) (mk : Nat → List Byte) : State :=
  match (List.range 16).find? (fun b => decide ((s.packet b).bufs = [])) with
  | none => s
  | some b =>
    let t := s.setPacket b { bufs := [b], ref := ps.length, inport := inport, arrival := s.tick4, frame := mk (ps.headD 0) }
    chainAll ps (fun q u => u.enqueueCopy q 0 { buf := b, len := (mk q).length, frame := mk q, inport := inport, arrival := s.tick4 }) t

/-- A notice leaves by the ports of `ps`: SUBTYPE, POS, DIR and N; the bytes after them are not given. -/
def State.sendNotice (s : State) (ps : List Nat) (sub x : Nat) (ccw : Bool) (n hop src : Nat) : State :=
  let h := s.controlHdr 4 0xFFFF hop src
  let pay := leBytes 1 sub ++ leBytes 1 x ++ leBytes 1 (if ccw then 1 else 0) ++ leBytes 1 n ++ (Config.freeBytes 40 s.free 12 ++ List.replicate 12 0).take 12
  let mk := fun q => s.haulFrame q h (Tab.get 0 s.haul.seqs 0xFFFF) (Config.freeNat 34 s.free % 2 ^ 48) pay
  ((s.sendReserved ps 6 mk).nextOwnSeq 0xFFFF).draw

/-- The position that the break of a port concerns. -/
def State.ringNext (s : State) (ccw : Bool) : Nat := if ccw then modSub s.ringN s.ringPos 1 else (s.ringPos + 1) % s.ringN

/-- A notice of the part's own leaves by both ring ports. -/
def State.ownNotice (s : State) (sub : Nat) (ccw : Bool) : State := s.sendNotice [s.cwPort, s.ccwPort] sub (s.ringNext ccw) ccw s.ringN 0 s.device

/-- A ring port declares loss: a break of its direction, applied to the part itself and sent (R254). -/
def State.portBreak (s : State) (p : Nat) : State :=
  if !s.ringPort p then s
  else
    let ccw := decide (p ≠ s.cwPort)
    let s := s.applyBreak ccw (s.ringNext ccw)
    (s.withHaul (fun w => if ccw then { w with ownCcw := true } else { w with ownCw := true })).ownNotice 1 ccw

/-- The source of a notice that a row of the table names without its frame. -/
def State.noticeSrc (s : State) : Nat := Config.freeNat 35 s.free % 4096

/-- A received notice goes on by the other ring port, unless HOP has reached N − 2 or it would go back to its origin (R255). -/
def State.noticeGoesOn (s : State) (p x : Nat) (ccw : Bool) (n hop : Nat) : Bool :=
  let o := s.otherRing p
  let next := s.ringNext (decide (o ≠ s.cwPort))
  let origin := if ccw then (x + 1) % s.ringN else modSub s.ringN x 1
  decide (hop + 2 < n) && decide (o ≠ p) && decide (next ≠ origin)

/-- A notice that arrived on ring port `p` goes on by the other (R255): its frame with HOP one up, and nothing else of it changed (R246). Where the command gives no frame, what it leaves out is not given. -/
def State.passNotice (s : State) (p sub x : Nat) (ccw : Bool) (n hop : Nat) (whole : Option (Parsed × List Byte)) : State :=
  if !s.noticeGoesOn p x ccw n hop then s
  else
    match whole with
    | some (h, f) => s.sendReserved [s.otherRing p] p (fun _ => reFcs (hopOn f h))
    | none => s.sendNotice [s.otherRing p] sub x ccw n (hop + 1) s.noticeSrc

/-- A break notice received on ring port `p` (R255). -/
def State.ringNotice (s : State) (p x : Nat) (ccw : Bool) (n hop : Nat) (whole : Option (Parsed × List Byte)) : State :=
  if !s.ringPort p then s else (s.applyBreak ccw x).passNotice p 1 x ccw n hop whole

/-- A restore notice clears the matching break (R257) and goes on like a break notice. -/
def State.ringRestore (s : State) (p x : Nat) (ccw : Bool) (n hop : Nat) (whole : Option (Parsed × List Byte)) : State :=
  if !s.ringPort p then s
  else
    let V := if ccw then F.CLS_RING_CUT_CCW_VALID else F.CLS_RING_CUT_CW_VALID
    let X := if ccw then F.CLS_RING_CUT_CCW_X else F.CLS_RING_CUT_CW_X
    (if s.fb V 0 && decide (s.f X 0 = x) then s.clearBreak ccw else s).passNotice p 2 x ccw n hop whole

def execRingNoticeReceive (p x : Nat) (ccw : Bool) (n hop : Nat) (s : State) : Out := onInstance (decide (p < 6)) (s.ringNotice p x ccw n hop none)

def execRingRestoreReceive (p x : Nat) (ccw : Bool) (n hop : Nat) (s : State) : Out := onInstance (decide (p < 6)) (s.ringRestore p x ccw n hop none)

/-- While a loss lasts its notice is sent again (R254). -/
def State.noticeResend (s : State) (p : Nat) : State :=
  if (Tab.get {} s.haul.ports p).lost && s.ringPort p then s.ownNotice 1 (decide (p ≠ s.cwPort)) else s

def execRingNoticeResend (p : Nat) (s : State) : Out := onInstance (decide (p < 6)) (s.noticeResend p)

/-- SEND_RESTORE: each break that the part's own ports declared is cleared and a restore notice sent (R257). -/
def State.sendRestore (s : State) : State :=
  let s := if s.haul.ownCw then ((s.clearBreak false).withHaul (fun w => { w with ownCw := false })).ownNotice 2 false else s
  if s.haul.ownCcw then ((s.clearBreak true).withHaul (fun w => { w with ownCcw := false })).ownNotice 2 true else s

/-- CLEAR_CW and CLEAR_CCW: the part's own break goes without any notice (R257). -/
def State.clearOwn (s : State) (ccw : Bool) : State :=
  (s.clearBreak ccw).withHaul (fun w => if ccw then { w with ownCcw := false } else { w with ownCw := false })

-- ## Egress of encode queues (R234, R279)

/-- The largest payload that every port of a packet carries. -/
def State.payloadFor (s : State) (ps : List Nat) (most : Nat) : Nat :=
  ps.foldl (fun a q => min a (payloadMax (s.f F.HAUL_CTRL_ENCAP q) (s.f F.HAUL_MTU_BYTES q))) most

/-- `n` bytes leave the head of encode queue `c`; an item whose last byte has left goes. -/
def State.egTake (s : State) (c n fuel : Nat) : State :=
  match fuel with
  | 0 => s
  | k + 1 =>
    match (s.queue c).items with
    | [] => s
    | i :: _ =>
      let left := i.data.length - (s.queue c).sent
      if left ≤ n then ((s.setQueue c (s.queue c).pop).settle c).egTake c (n - left) k
      else s.setQueue c { s.queue c with sent := (s.queue c).sent + n }

/-- `k` items leave the head of the queue unsent. -/
def State.egSkip (s : State) (c k : Nat) : State :=
  (chainAll (List.range k) (fun _ t => (t.setQueue c (t.queue c).pop).settle c) s).modCtx c (fun x => { x with egSent := 0 })

/-- The haul header of the next packet of a unit (R233, R234, R420). The queue class PRIO of the source is not given. -/
def State.unitHdr (s : State) (c : Nat) (i : Item) (sent : Nat) (last : Bool) : Parsed :=
  let x := s.ctx c
  let b := fun (v : Bool) (k : Nat) => if v then 2 ^ k else 0
  { haul := true, ver := 2, cls := 0, typ := i.unit.typ, wall := x.wall, tile := x.tile, picture := i.unit.picture, slice := i.unit.slice,
    flags := b (sent = 0) 7 + b last 6 + b i.unit.key 5 + b (i.unit.typ = 2) 4 + b (i.unit.typ ≠ 1 && s.wallProtected x.wall) 3,
    prio := Config.freeNat 33 (65536 * x.wall + x.tile) % 16, srcDev := s.device, fragOffset := sent / 64, deadline := i.stamp / 64 % 2 ^ 32 }

/-- EGRESS_PACKET_BUILD: the next packet of the unit at the head of encode queue `c`, where the queue is at threshold and holds a full payload or the unit's end. `e`: what the read of the head item finds (R280). -/
def State.egressBuild (s : State) (c : Nat) (e : SramRead) : State :=
  let x := s.ctx c
  if (s.ctx? c).isNone || !x.enc || x.ending || decide (s.device = 0) then s
  else
    let s := s.readMeets c e
    match (s.queue c).items with
    | [] => s
    | i :: _ =>
      let gone := (s.queue c).sent
      let sent := if i.first && decide (gone = 0) then 0 else x.egSent
      if i.kind = 1 ∨ (sent = 0 ∧ i.first = false) then s.egSkip c 1
      else
        let u := unitItems (s.queue c).items
        let avail := dataBytes u - gone
        let ends := u.any (·.last)
        let most := s.payloadFor (s.ownRoute (s.unitHdr c i sent false) 7).1.ports 65535
        if !s.atThreshold c then s
        else if avail < most ∧ ends = false then (if u.any (fun k => decide (k.kind = 1)) then s.egSkip c u.length else s)
        else
          let n := min most avail
          let last := ends && decide (avail ≤ most)
          let pay := ((u.flatMap (·.data)).drop gone).take n
          match s.originate 7 (s.unitHdr c i sent last) x.sequence pay with
          | none => s.stall .egress
          | some t =>
            ((t.unstall .egress).egTake c n (u.length + 1)).modCtx c (fun y => { y with egSent := if last then 0 else sent + n, sequence := (y.sequence + 1) % 2 ^ 32 })

def execEgressPacketBuild (c : Nat) (s : State) (e : SramRead := .clean) : Out := onInstance (decide (c < 4096)) (s.egressBuild c e)

-- ## Transmission (R262, R268, R286)

/-- The PTP event message that a frame carries: messageType, domainNumber and sequenceId (R262). -/
def ptpEvent (f : List Byte) : Option (Nat × Nat × Nat) :=
  let h := parseFrame 0 f
  let t := byteAt f h.hdrAt % 16
  if h.ptp && (decide (h.etherType = 0x88F7) || decide (h.dstPort = 319)) && decide (t ≤ 3) then some (t, byteAt f (h.hdrAt + 4), beAt f (h.hdrAt + 30) 2) else none

/-- An egress timestamp enters the FIFO of port `p`, or is dropped (R262). -/
def State.pushStamp (s : State) (p : Nat) (e : Nat × Nat × Nat) : State :=
  let x := Tab.get {} s.haul.ports p
  if 64 ≤ x.stamps.length then s.haulCount p 8
  else
    let t : Stamp := { msgType := e.1, domain := e.2.1, seqId := e.2.2, time := (s.tick4 + s.f F.HAUL_PTP_LAT_TX_Q p) % 2 ^ 64 }
    s.withHaul (fun w => { w with ports := Tab.set {} w.ports p { x with stamps := x.stamps ++ [t] } })

/-- Firmware marks the messages to capture; which ones is not given. -/
def State.stampFrame (s : State) (p : Nat) : State :=
  match (s.tmgPort p).sending with
  | some (_, c) => if c.inport = 6 ∧ Config.freeBool 41 s.free = true then ((ptpEvent c.frame).elim s (fun e => s.pushStamp p e)).draw else s
  | none => s

/-- The frame payload rate of haul port `p` in Mb/s (R226). -/
def State.haulRate (s : State) (p : Nat) : Nat :=
  match s.f F.HAUL_CTRL_MODE p with
  | 0 => lanesOfCode (s.f F.HAUL_CTRL_LANES p) * (2500 * 2 ^ min 2 (s.f F.HAUL_CTRL_RATE p))
  | 1 => 10000
  | _ => 1000

/-- The length of a frame as its headers give it, or the longest (R286). -/
def knownLength (udpPort : Nat) (f : List Byte) : Nat :=
  let h := parseFrame udpPort f
  if h.ipLen ≠ 0 then max 64 (h.ipAt + h.ipLen + 4) else if h.haul then max 64 (h.payAt + h.payLen + 4) else 9216

/-- A cut-through copy whose egress is faster than its arrival port starts only when so many bytes have come that it does not underrun (R286). -/
def State.mayStart (s : State) (p : Nat) (c : Copy) : Bool :=
  let k := s.packet c.buf
  let rin := s.haulRate k.inport
  let rout := s.haulRate p
  if k.whole || decide (6 ≤ k.inport) || decide (rout ≤ rin) then true
  else decide (knownLength (s.f F.HAUL_UDP_PORT k.inport) k.frame * (rout - rin) * 32000 ≤ (s.tick4 - k.arrival) * rin * rout)

/-- TRANSMIT_START; in FATAL a haul port transmits no characters (R367). -/
def State.transmitStart (s : State) (p : Nat) : State :=
  if s.fb F.TMG_PORT_CTRL_EN p && s.fb F.HAUL_STATUS_LINK p && !s.fatal && (s.tmgPort p).sending.isNone then (s.startFrame p (fun t c => t.mayStart p c)).stampFrame p else s

def execTransmitStart (p : Nat) (s : State) : Out := onInstance (decide (p < 6)) (s.transmitStart p)

/-- The buffers of a packet that lie in DRAM are read (R314). -/
def State.readChain (s : State) (b : Nat) : State :=
  chainAll ((s.packet b).bufs.filter (fun x => decide (65536 ≤ x))) (fun x t => (t.presentLines 7 (t.bufferAddr x) 256 false true).presentLines 7 (t.linkAddr x) 16 false true) s

/-- Copies of packet `b` that have not begun leave the queues of a port. -/
def State.dropCopies (s : State) (b : Nat) : State :=
  let n := ((List.range 384).map (fun k => ((s.tmgQueue k).copies.filter (fun c => decide (c.buf = b))).length)).sum
  let s := chainAll (List.range 384) (fun k t =>
    let x := t.tmgQueue k
    let gone := x.copies.filter (fun c => decide (c.buf = b))
    if gone = [] then t
    else
      let t := t.setTmgQueue k { x with copies := x.copies.filter (fun c => decide (c.buf ≠ b)) }
      let t := t.setF F.TMG_Q_DEPTH_BYTES k (t.f F.TMG_Q_DEPTH_BYTES k - (gone.map (·.len)).sum)
      if x.copies.head? = gone.head? then t.tagHead (k / 64) k true else t) s
  chainAll (List.range n) (fun _ t => t.release b) s

/-- The read of a packet in SRAM buffers finds an error (R359): PKT_CE, or PKT_UE, which ends every copy of the packet; forwarded copies in transmission end with an abort, the others are dropped. -/
def State.packetMeets (s : State) (b : Nat) (e : SramRead) : State :=
  let k := s.packet b
  match e with
  | .clean => s
  | .corrected i => (k.bufs[i]?).elim s (fun x => if x < 65536 then s.raiseFault 30 x [] else s)
  | .uncorrectable i => (k.bufs[i]?).elim s (fun x => if x < 65536 then ((s.setPacket b { k with bad := true }).dropCopies b).raiseFault 29 x [] else s)

/-- TRANSMIT_END: the copy's last byte leaves, or its abort where the frame proved bad (R231); its reference is released. A cut-through copy ends after its reception. In FATAL nothing more of it leaves (R367). -/
def State.transmitEnd (s : State) (p : Nat) (e : SramRead) : State :=
  match (s.tmgPort p).sending with
  | none => s
  | some (_, c) =>
    if !(s.packet c.buf).whole then s
    else
      let s := s.packetMeets c.buf e
      let s := s.setTmgPort p { s.tmgPort p with sending := none }
      let s := if s.fatal then s else if (s.packet c.buf).bad then s.haulCount p 7 else (s.haulCount p 1).withQ (fun w => { w with sent := (p, c.frame) :: w.sent })
      (s.readChain c.buf).release c.buf

def execTransmitEnd (p : Nat) (s : State) (e : SramRead := .clean) : Out := onInstance (decide (p < 6)) (s.transmitEnd p e)

-- ## Pool, spill queues, traffic manager: the remaining events

def execBufferAlloc (r : Requester) (frame : List Byte) (strict : Bool) (s : State) : Out :=
  onInstance (requesterOk r) (s.bufferAlloc r frame strict)

def execBpmCacheRefill (s : State) : Out := .next s.cacheRefill

/-- A decode slice may become ready by what its queue now holds (R279). -/
def State.noticeQueue (s : State) (q : Nat) : State := if q < 4096 ∧ (s.ctx q).enc = false then s.notice q else s

def execCleftPendingEnter (q : Nat) (s : State) : Out := onInstance (decide (q < 4352)) ((s.enterCleft q).noticeQueue q)

def execSpoilRefill (q : Nat) (bad : Bool) (s : State) : Out := onInstance (decide (q < 4352)) ((s.refill q bad).noticeQueue q)

def execTmgSweep (k : Nat) (s : State) : Out := onInstance (decide (k < 1414)) (s.sweep k)

def execTmgQueueSample (p : Nat) (s : State) : Out := onInstance (decide (p < 6)) (s.samplePort p)

def execMeterConfig (m : Nat) (s : State) : Out := onMailbox m (s.meterConfig m)

def execShaperConfig (m : Nat) (s : State) : Out := onMailbox m (s.shaperConfig m)

def execQueueWeightSet (m : Nat) (s : State) : Out := onMailbox m (s.queueWeightSet m)

end Sys2Proof.Machine
end

