-- ==== Sys2Proof/Machine/Ingress.lean ====
section
/-! DEFINITION. Ingress ports (R259 to R261, R335 to R342): frames, samples, lines, pictures; the source pictures of encode contexts (R143, R152, R163); INGRESS_SET and the events of the pixel link. -/

namespace Sys2Proof.Machine

-- ## Access

def State.ing (s : State) (p : Nat) : IngPort := Tab.get {} s.haul.ing p

def State.setIng (s : State) (p : Nat) (x : IngPort) : State := s.withHaul (fun w => { w with ing := Tab.set {} w.ing p x })

def ingPorts : List Nat := List.range 8

/-- MODE of an ingress port; 3 acts as 0. -/
def State.ingMode (s : State) (p : Nat) : Nat := s.f F.ING_CTRL_MODE p % 3

def State.ingWidth (s : State) (p : Nat) : Nat := s.f F.ING_REGION_SIZE_WIDTH p
def State.ingHeight (s : State) (p : Nat) : Nat := s.f F.ING_REGION_SIZE_HEIGHT p

/-- Counter `k` of an ingress port. -/
def State.ingCount (s : State) (p k : Nat) : State := s.count F.ING_CNT_COUNT (8 * p + k) F.ING_CNT_SAT_SAT p k

/-- A frame is dropped under R337. -/
def State.ingDrop (s : State) (p k : Nat) : State := (s.ingCount p k).setF F.ING_EVENT_ERROR p 1

/-- Enabled ports of a wall. -/
def State.wallIngress (s : State) (w : Nat) : List Nat := ingPorts.filter (fun p => s.fb F.ING_CTRL_EN p && decide (s.f F.ING_CTRL_WALL p = w))

-- ## Samples (R338, R261)

/-- Bit replication of a sample of `n` bits to `b` bits (R206). -/
def replicateBits (n b v : Nat) : Nat := v * 2 ^ (b - n) + v / 2 ^ (2 * n - b)

/-- A sample of `n` bits at depth `b` (R338). -/
def toDepth (n b v : Nat) : Nat :=
  if b < n then min ((v + 2 ^ (n - b - 1)) / 2 ^ (n - b)) (2 ^ b - 1) else if n < b then replicateBits n b v else v

/-- The tile whose visible area holds a wall position. -/
def Wall.tileAt (w : Wall) (x y : Nat) : Option Tile :=
  (w.tiles.filterMap (fun e => e.2)).find? (fun t => decide (t.x ≤ x) && decide (x < t.x + t.visW) && decide (t.y ≤ y) && decide (y < t.y + t.visH))

def sourceKey (x y c : Nat) : Nat := 3 * (65536 * y + x) + c

/-- A lamp of `n`-bit components at a wall position; a position that no tile holds has no place. -/
def Wall.putLamp (w : Wall) (n x y : Nat) (v : List Nat) : Wall :=
  match w.tileAt x y with
  | none => w
  | some t => { w with source := (List.range 3).foldl (fun m c => Tab.set 0 m (sourceKey x y c) (toDepth n t.depth (v.getD c 0))) w.source }

/-- Lamps from (`x`, `line`) of a port's region rightwards. -/
def State.putLamps (s : State) (p n x line : Nat) (vs : List (List Nat)) : State :=
  let w := s.f F.ING_CTRL_WALL p
  match s.wall? w with
  | none => s
  | some k =>
    let x0 := s.f F.ING_REGION_POS_X_OFF p + x
    let y := s.f F.ING_REGION_POS_Y_OFF p + line
    s.setWall? w (some ((List.range vs.length).foldl (fun m i => m.putLamp n (x0 + i) y (vs.getD i [])) k))

-- ## Slices ready (R143, R152, R163, R340)

/-- Wall line on which slice `i` of a tile ends. -/
def Tile.lastLine (t : Tile) (i : Nat) : Nat := t.y + min t.visH (16 * (i * (t.sliceRowsM1 + 1) + t.rowsOf i)) - 1

/-- The region of port `p` covers part of line `y` of a tile. -/
def State.ingCovers (s : State) (p : Nat) (t : Tile) (y : Nat) : Bool :=
  let x0 := s.f F.ING_REGION_POS_X_OFF p
  let y0 := s.f F.ING_REGION_POS_Y_OFF p
  decide (y0 ≤ y) && decide (y < y0 + s.ingHeight p) && decide (x0 < t.x + t.visW) && decide (t.x < x0 + s.ingWidth p)

/-- The assignment of a port's picture can no longer change (R340): it is the leader's own, the leader's next FIRST frame has come, or would now come later than the last was early. -/
def State.ingSettled (s : State) (p : Nat) (w : Wall) (x : IngPic) : Bool :=
  s.fb F.ING_CTRL_LEADER p || decide (x.wallPic ≠ some w.picture) || decide (x.firstAt + (x.firstAt - w.lineTime) < s.now)

/-- Port `p` has completed wall line `y` of wall picture `q`. -/
def State.ingLineDone (s : State) (p : Nat) (w : Wall) (q y : Nat) : Bool :=
  let x := s.ing p
  (match x.ended with
    | some e => !earlier 16 e q
    | none => false) ||
  (match x.pic with
    | some k => decide (k.wallPic = some q) && s.ingSettled p w k && decide (y - s.f F.ING_REGION_POS_Y_OFF p ∈ k.done)
    | none => false)

/-- Every line of slice `i` is in DRAM: each port that covers its last line has completed it. -/
def State.sliceInDram (s : State) (wn : Nat) (t : Tile) (q i : Nat) : Bool :=
  let y := t.lastLine i
  let ps := (s.wallIngress wn).filter (fun p => s.ingCovers p t y)
  decide (ps ≠ []) && ps.all (fun p => s.ingLineDone p (s.wall wn) q y)

/-- The samples of a tile's lines from `y0` on, `n` lines, by component, with the fill of R17 and the conversion of R104. -/
def sourceRows (w : Wall) (t : Tile) (colour y0 n : Nat) : List (List Int) :=
  let px := (List.range n).flatMap (fun dy => (List.range (16 * t.w16)).map (fun x =>
    let k := sourceKey (t.x + min x (t.visW - 1)) (t.y + min (y0 + dy) (t.visH - 1)) 0
    let g := fun c => ((Tab.get 0 w.source (k + c) : Nat) : Int)
    if colour = 1 then colourForward (g 0) (g 1) (g 2) else (g 0, g 1, g 2)))
  [px.map (·.1), px.map (·.2.1), px.map (·.2.2)]

/-- Whether a picture whose first slice is ready now is skipped: the wall is paused or waits for START, or stage 4 is in force (R151, R152, R388). -/
def State.skipNow (s : State) (w : Wall) : Bool :=
  w.paused || decide (s.now < w.startAt) || decide (4 ≤ s.f F.PWR_STATUS_STAGE 0) || decide (s.f F.PWR_STATUS_STATE 0 = 1)

/-- The context meets a new source picture. -/
def State.openSource (s : State) (c q : Nat) : State :=
  let x := s.ctx c
  let w := s.wall x.wall
  if x.sources.any (fun k => decide (k.picture = q)) then s
  else
    let skip := s.skipNow w
    let n : SrcPic := { picture := q, time := w.lineTime, skipped := skip }
    let take := fun (l : BedLoad) => if l.src.isNone && l.taking.isNone then { l with taking := some q } else l
    s.modCtx c (fun x => { x with sources := n :: x.sources.take 1, skippedRun := if skip then x.skippedRun + 1 else x.skippedRun, loads := x.loads.map take })

/-- Slice `i` of source picture `q` becomes ready. -/
def State.readySlice (s : State) (c q i : Nat) : State :=
  let s := s.openSource c q
  let x := s.ctx c
  let w := s.wall x.wall
  let skip := x.sources.any (fun k => decide (k.picture = q) && k.skipped)
  let sources := x.sources.map (fun k => if k.picture = q then { k with slices := k.slices ++ [i] } else k)
  let all := sources.any (fun k => decide (k.picture = q) && decide (k.slices.length = x.geo.slices))
  let give := fun (l : BedLoad) => if all && decide (l.taking = some q) && l.src.isNone then { l with src := some (sourceRows w x.geo x.colour 0 (16 * x.geo.h16)) } else l
  let s := s.modCtx c (fun x => { x with sources := sources, loads := x.loads.map give })
  if skip then s
  else
    s.makeReady { ctx := c, enc := true, picture := q, slice := i, stamp := w.firstSync (s.now + 1000 * w.delayUs), src := sourceRows w x.geo x.colour (16 * (i * (x.geo.sliceRowsM1 + 1))) (16 * x.geo.rowsOf i) } x.act.allot

/-- The slices of picture `q` that are in DRAM and not yet ready become ready, for one context. -/
def State.readyPicture (s : State) (c q : Nat) : State :=
  let x := s.ctx c
  let had := fun (i : Nat) => x.sources.any (fun k => decide (k.picture = q) && decide (i ∈ k.slices))
  chainAll ((List.range x.geo.slices).filter (fun i => !had i && s.sliceInDram x.wall x.geo q i)) (fun i t => t.readySlice c q i) s

/-- Encode contexts of a wall take what has arrived of the present source picture and the one before it. -/
def State.sourcesOf (s : State) (wn : Nat) : State :=
  let w := s.wall wn
  if w.lineTime = 0 then s
  else
    chainAll (s.ctxsOf (fun x => x.enc && !x.ending && decide (x.wall = wn))) (fun c t =>
      let t := if (t.ctx c).sources = [] then t else t.readyPicture c ((w.picture + 65535) % 65536)
      t.readyPicture c w.picture) s

/-- Every open wall. -/
def State.sourcesReady (s : State) : State := chainAll (s.codec.walls.map (·.1)) (fun w t => t.sourcesOf w) s

-- ## Lines and pictures (R339, R340)

/-- Lines from `a` on that are not complete. -/
def State.ingMissing (s : State) (p : Nat) (done : List Nat) : List Nat := (List.range (s.ingHeight p)).filter (fun l => decide (l ∉ done))

/-- `n` incomplete lines become complete. -/
def State.countMissing (s : State) (p n : Nat) : State := chainAll (List.range n) (fun _ t => t.ingCount p 3) s

/-- The picture of a port ends (R339). When the leader's ends, every other port of the wall has ING_CLOSE to end its own (R340). -/
def State.endIngPicture (s : State) (p : Nat) : State :=
  match (s.ing p).pic with
  | none => s
  | some k =>
    let s := s.countMissing p (s.ingMissing p k.done).length
    let s := s.setIng p { s.ing p with pic := none, ended := if k.wallPic.isSome then k.wallPic else (s.ing p).ended, closing := false }
    let s := (s.setF F.ING_STATUS_IN_PICTURE p 0).setF F.ING_STATUS_LINE p (s.ingHeight p - 1)
    let s := s.setF F.ING_EVENT_PICTURE_END p 1
    if s.fb F.ING_CTRL_LEADER p then
      chainAll ((s.wallIngress (s.f F.ING_CTRL_WALL p)).filter (fun o => decide (o ≠ p) && decide ((s.ing o).ended ≠ k.wallPic)))
        (fun o t => t.setIng o { t.ing o with closing := true }) s
    else s

/-- The wall picture that a port's picture in reception is assigned to. -/
def State.assignIng (s : State) (p q : Nat) : State :=
  match (s.ing p).pic with
  | none => s
  | some k => (s.setIng p { s.ing p with pic := some { k with wallPic := some q } }).setF F.ING_PICTURE_WALL_PICTURE p q

/-- The leader's FIRST frame starts the next wall picture, and takes over the pictures of other ports that began nearer to it (R340). -/
def State.leaderFirst (s : State) (p : Nat) : State :=
  let wn := s.f F.ING_CTRL_WALL p
  match s.wall? wn with
  | none => s
  | some w =>
    let q := (w.picture + 1) % 65536
    let s := (s.setWall? wn (some { w with picture := q, lineTime := s.now })).assignIng p q
    chainAll ((s.wallIngress wn).filter (fun o => decide (o ≠ p))) (fun o t =>
      match (t.ing o).pic with
      | some k => if k.wallPic = none ∨ (k.wallPic = some w.picture ∧ t.now - k.firstAt ≤ k.firstAt - w.lineTime) then t.assignIng o q else t
      | none => t) s

/-- A picture of a port begins. -/
def State.beginIngPicture (s : State) (p : Nat) : State :=
  let s := (s.endIngPicture p).setIng p { (s.endIngPicture p).ing p with pic := some { firstAt := s.now } }
  let s := (s.setF F.ING_STATUS_IN_PICTURE p 1).setF F.ING_STATUS_LINE p 0
  if s.fb F.ING_CTRL_LEADER p then s.leaderFirst p
  else
    match s.wall? (s.f F.ING_CTRL_WALL p) with
    | some w => if w.lineTime = 0 then s else s.assignIng p w.picture
    | none => s

/-- Lamps `x` to `x + n − 1` of a line have arrived; the line is complete once all of them have. -/
def State.lineArrived (s : State) (p line x n : Nat) : State :=
  match (s.ing p).pic with
  | none => s
  | some k =>
    let g := Tab.get 0 k.got line ||| (2 ^ n - 1) * 2 ^ x
    let full := decide (g = 2 ^ s.ingWidth p - 1)
    let new := full && decide (line ∉ k.done)
    let k := { k with got := Tab.set 0 k.got line g, done := if new then k.done ++ [line] else k.done }
    let s := s.setIng p { s.ing p with pic := some k }
    if new then (s.ingCount p 0).setF F.ING_STATUS_LINE p (k.done.foldl max 0) else s

/-- A segment of a line: lamps of `n`-bit components. -/
def State.ingSegment (s : State) (p n line x : Nat) (vs : List (List Nat)) : State := (s.putLamps p n x line vs).lineArrived p line x vs.length

/-- The sequence number of a frame. -/
def State.ingSeq (s : State) (p q m : Nat) : State :=
  let s' := s.setIng p { s.ing p with seq := some q }
  match (s.ing p).seq with
  | some r => if q = (r + 1) % m then s' else s'.ingCount p 4
  | none => s'

-- ## The pixel link (R335 to R337)

/-- Bits per component of a DEPTH code. -/
def depthOf (c : Nat) : Nat := [8, 10, 12, 16].getD c 8

/-- `k` lamps of three `n`-bit components, packed. -/
def unpackLamps (n k : Nat) (bs : List Byte) : List (List Nat) :=
  let bits := bitsOfBytes bs
  (List.range k).map (fun i => (List.range 3).map (fun c => natOfBits ((bits.drop ((3 * i + c) * n)).take n)))

/-- The header and payload of a line frame pass the checks of R337. -/
def State.lineFrameOk (s : State) (p : Nat) (b : List Byte) : Bool :=
  let n := depthOf (byteAt b 1 / 64)
  let k := beAt b 8 2 + 1
  decide (16 ≤ b.length) && decide (byteAt b 0 / 16 = 1) && decide (byteAt b 0 % 4 = 0) && decide (byteAt b 1 % 64 = 0) && decide (beAt b 8 2 < 4096) && decide (beAt b 14 2 = 0) &&
    decide (b.length - 16 = ceilDiv (3 * k * n) 8) && decide (beAt b 4 2 < s.ingHeight p) && decide (beAt b 6 2 + k ≤ s.ingWidth p)

/-- A frame that passed its checks. -/
def State.keepFrame (s : State) (p : Nat) (b : List Byte) : State :=
  let n := depthOf (byteAt b 1 / 64)
  let first := (byteAt b 0).testBit 3
  let last := (byteAt b 0).testBit 2
  let s := if first then (s.beginIngPicture p).setF F.ING_PICTURE_SRC_PICTURE p (beAt b 2 2) else s
  let s := s.ingSegment p n (beAt b 4 2) (beAt b 6 2) (unpackLamps n (beAt b 8 2 + 1) (b.drop 16))
  let s := if last then s.endIngPicture p else s
  s.sourcesOf (s.f F.ING_CTRL_WALL p)

/-- The longest pixel-link frame: a line header, its payload and a CRC (R230). -/
def lineFrameMax : Nat := 16 + 24576 + 4

/-- PIXEL_FRAME_RECEIVE (R230, R337; in FATAL frames are discarded, R367): reception of a longer frame ends at its longest, whatever follows. -/
def State.pixelFrame (s : State) (p : Nat) (f : List Byte) (err : Bool) : State :=
  if s.fb F.ING_CTRL_EN p = false ∨ s.ingMode p ≠ 0 ∨ s.fb F.ING_STATUS_LINK p = false ∨ s.fatal = true then s
  else if lineFrameMax < f.length then s.ingDrop p 5
  else if err then s.ingDrop p 2
  else
    let b := f.take (f.length - 4)
    if s.portBlind fnIngress p || decide (f.length < 4) || decide (beAt f (f.length - 4) 4 ≠ crc32 b) then s.ingDrop p 1
    else
      let q := beAt b 10 4
      if !s.lineFrameOk p b || ((s.ing p).pic.isNone && !(byteAt b 0).testBit 3) then (s.setIng p { s.ing p with seq := some q }).ingDrop p 5
      else (s.ingSeq p q (2 ^ 32)).keepFrame p b

def execPixelFrameReceive (p : Nat) (f : List Byte) (err : Bool) (s : State) : Out := onInstance (decide (p < 8)) (s.pixelFrame p f err)

/-- ING_CLOSE_EXPIRE: a picture that has not ended is ended (R340). -/
def State.ingClose (s : State) (p : Nat) : State :=
  let x := s.ing p
  let w := s.wall (s.f F.ING_CTRL_WALL p)
  if !x.closing then s
  else if x.pic.isSome then ((s.endIngPicture p).setF F.ING_EVENT_CLOSED p 1).sourcesOf (s.f F.ING_CTRL_WALL p)
  else
    let s := (s.countMissing p (s.ingHeight p)).setIng p { x with closing := false, ended := some w.picture }
    (s.setF F.ING_EVENT_CLOSED p 1).sourcesOf (s.f F.ING_CTRL_WALL p)

def execIngCloseExpire (p : Nat) (s : State) : Out := onInstance (decide (p < 8)) (s.ingClose p)

/-- The port's lanes are as `LANES` asks (R331, R332). -/
def State.ingLanesOk (s : State) (p : Nat) : Bool :=
  s.portLegal fnIngress p && decide ((s.portLanes fnIngress p).length = lanesOfCode (s.f F.ING_CTRL_LANES p))

/-- PIXEL_LINK_UP (R335). -/
def State.pixelUp (s : State) (p : Nat) : State :=
  if s.fb F.ING_CTRL_EN p && decide (s.ingMode p = 0) && s.ingLanesOk p && s.lanesSynced fnIngress p then
    (s.setF F.ING_STATUS_LINK p 1).setF F.ING_STATUS_ALIGNED p 1
  else s

def execPixelLinkUp (p : Nat) (s : State) : Out := onInstance (decide (p < 8)) (s.pixelUp p)

/-- A port that is up goes down: its loss is counted (R335). -/
def State.pixelDown (s : State) (p : Nat) : State :=
  if s.fb F.ING_STATUS_LINK p then
    ((((s.setF F.ING_STATUS_LINK p 0).setF F.ING_STATUS_ALIGNED p 0)).ingCount p 7).setF F.ING_EVENT_LOSS p 1
  else s

/-- PIXEL_LINK_LOSS; a port whose lane is blind in calibration does not declare loss (R328). -/
def State.pixelLoss (s : State) (p : Nat) : State := if s.portBlind fnIngress p then s else s.pixelDown p

def execPixelLinkLoss (p : Nat) (s : State) : Out := onInstance (decide (p < 8)) (s.pixelLoss p)

-- ## Haul TYPE 5 (R235)

/-- A raw-pixel packet: FIRST and LAST of its FLAGS bound the picture (DEDUCED), samples are of 16 bits. -/
def State.ingestRaw (s : State) (p : Nat) (h : Parsed) (pay : List Byte) : State :=
  let line := beAt pay 0 2
  let x := beAt pay 2 2
  let k := beAt pay 4 2
  let first := h.flags.testBit 7
  if pay.length ≠ 8 + 6 * k ∨ k = 0 ∨ beAt pay 6 2 ≠ 0 ∨ s.ingHeight p ≤ line ∨ s.ingWidth p < x + k ∨ ((s.ing p).pic.isNone = true ∧ first = false) then s.ingDrop p 5
  else
    let s := if first then (s.beginIngPicture p).setF F.ING_PICTURE_SRC_PICTURE p h.picture else s
    let s := s.ingSegment p 16 line x ((List.range k).map (fun i => (List.range 3).map (fun c => beAt pay (8 + 6 * i + 2 * c) 2)))
    let s := if h.flags.testBit 6 then s.endIngPicture p else s
    s.sourcesOf (s.f F.ING_CTRL_WALL p)

-- ## ST 2110-20 (R259 to R261)

/-- The coefficients of R261: ky, kr, kgb, kgr, kbb. -/
def coefs (bt2020 : Bool) : List Int := if bt2020 then [19077, 27503, 3069, 10657, 35091] else [19077, 29372, 3494, 8731, 34610]

/-- Components as R261 converts them, still at `n` bits: RGB in, or Y, Cb, Cr. -/
def fromVideo (d : Config.Sdp) (v : List Int) : List Nat :=
  let o : Int := 2 ^ (d.depth - 8)
  let k := coefs (decide (d.colorimetry = 1))
  let a := fun i => v.getD i 0
  let q := fun i => k.getD i 0
  let out := fun (x : Int) => (clip (asr (x + 8192) 14) 0 (2 ^ d.depth - 1)).toNat
  if d.sampling = 1 then
    let y := a 0 - 16 * o
    let cb := a 1 - 128 * o
    let cr := a 2 - 128 * o
    [out (q 0 * y + q 1 * cr), out (q 0 * y - q 2 * cb - q 3 * cr), out (q 0 * y + q 4 * cb)]
  else if d.range = 0 then (List.range 3).map (fun i => out (q 0 * (a i - 16 * o)))
  else (List.range 3).map (fun i => out (a i * 2 ^ 14))

/-- A pixel group of the sampling and depth: its lamps and its bytes (RFC 4175 and ST 2110-20, PRESUMED). -/
def pgroup (d : Config.Sdp) : Nat × Nat :=
  if d.sampling = 1 then (2, d.depth / 2) else if d.depth = 10 then (4, 15) else if d.depth = 12 then (2, 9) else (1, 3 * d.depth / 8)

/-- The samples of `k` lamps of a row, as received: RGB, or Y with Cb and Cr at even lamps (order Cb, Y0, Cr, Y1). -/
def unpackVideo (d : Config.Sdp) (k : Nat) (bs : List Byte) : List (List (Option Nat)) :=
  let bits := bitsOfBytes bs
  let at_ := fun i => natOfBits ((bits.drop (i * d.depth)).take d.depth)
  (List.range k).map (fun i =>
    if d.sampling = 1 then
      if i % 2 = 0 then [some (at_ (2 * i + 1)), some (at_ (2 * i)), some (at_ (2 * i + 2))] else [some (at_ (2 * i + 1)), none, none]
    else (List.range 3).map (fun c => some (at_ (3 * i + c))))

/-- The samples of a lamp as R261 takes them: chroma at odd positions from its neighbours. -/
def rawLamp (d : Config.Sdp) (raw : Tab Nat) (width line x : Nat) : List Int :=
  let g := fun (c x : Nat) => ((Tab.get 0 raw (sourceKey x line c) : Nat) : Int)
  if d.sampling = 1 ∧ x % 2 = 1 then
    let r := if x + 1 < width then x + 1 else x - 1
    g 0 x :: [1, 2].map (fun c => asr (g c (x - 1) + g c r + 1) 1)
  else [g 0 x, g 1 x, g 2 x]

/-- A sample row segment of `k` lamps. -/
def State.videoSegment (s : State) (p line x k : Nat) (bs : List Byte) : State :=
  let d := Config.sdp (s.ing p).params
  if s.ingHeight p ≤ line ∨ s.ingWidth p < x + k then s.ingDrop p 5
  else
    let vs := unpackVideo d k bs
    let raw := (List.range k).foldl (fun m i => (List.range 3).foldl (fun m c =>
      match (vs.getD i []).getD c none with
      | some v => Tab.set 0 m (sourceKey (x + i) line c) v
      | none => m) m) (s.ing p).raw
    let s := s.setIng p { s.ing p with raw := raw }
    let conv := fun x => fromVideo d (rawLamp d raw (s.ingWidth p) line x)
    let left := d.sampling = 1 ∧ 0 < x
    let x0 := if left then x - 1 else x
    (s.putLamps p d.depth x0 line ((List.range (x + k - x0)).map (fun i => conv (x0 + i)))).lineArrived p line x k

/-- The sample row data headers at `o`: length, line, offset; how many there are, at most 5 being looked at. -/
def srdHeaders (b : List Byte) (o n : Nat) : List (Nat × Nat × Nat) :=
  match n with
  | 0 => []
  | k + 1 => (beAt b o 2, beAt b (o + 2) 2 % 32768, beAt b (o + 4) 2 % 32768) :: (if (beAt b (o + 4) 2).testBit 15 then srdHeaders b (o + 6) k else [])

/-- A packet of an ST 2110-20 flow: `b` is the RTP packet. -/
def State.ingestVideo (s : State) (p : Nat) (b : List Byte) : State :=
  let d := Config.sdp (s.ing p).params
  let cc := byteAt b 0 % 16
  let r := 12 + 4 * cc
  let h := if (byteAt b 0).testBit 4 then r + 4 + 4 * beAt b (r + 2) 2 else r
  let srd := srdHeaders b (h + 2) 5
  let time := beAt b 4 4
  if byteAt b 0 / 64 ≠ 2 ∨ b.length < h + 8 then s.ingDrop p 5
  else if 4 < srd.length then s.ingDrop p 6
  else
    let s := s.ingSeq p (beAt b h 2 * 65536 + beAt b 2 2) (2 ^ 32)
    let s := if (s.ing p).pic.isNone ∨ (s.ing p).rtpTime ≠ some time then (s.beginIngPicture p).setIng p { (s.beginIngPicture p).ing p with rtpTime := some time } else s
    let g := pgroup d
    let s := (srd.foldl (fun (a : State × Nat) e =>
      (a.1.videoSegment p e.2.1 e.2.2 (e.1 / g.2 * g.1) (sliceOf b a.2 e.1), a.2 + e.1)) (s, h + 2 + 6 * srd.length)).1
    let s := if (byteAt b 1).testBit 7 then s.endIngPicture p else s
    s.sourcesOf (s.f F.ING_CTRL_WALL p)

-- ## INGRESS_SET (R340, R259)

/-- The region of a port has every position in a tile of the wall. -/
def regionInMap (w : Wall) (x y wd ht : Nat) : Bool :=
  let part := fun (t : Tile) => (min (t.x + t.visW) (x + wd) - max t.x x) * (min (t.y + t.visH) (y + ht) - max t.y y)
  decide (1 ≤ wd) && decide (1 ≤ ht) && decide (wd ≤ 16384) && decide (ht ≤ 16384) && decide (((w.tiles.filterMap (·.2)).map part).sum = wd * ht)

/-- Two regions overlap. -/
def regionsMeet (a b : Nat × Nat × Nat × Nat) : Bool :=
  decide (a.1 < b.1 + b.2.2.1) && decide (b.1 < a.1 + a.2.2.1) && decide (a.2.1 < b.2.1 + b.2.2.2) && decide (b.2.1 < a.2.1 + a.2.2.2)

def State.ingRegion (s : State) (p : Nat) : Nat × Nat × Nat × Nat :=
  (s.f F.ING_REGION_POS_X_OFF p, s.f F.ING_REGION_POS_Y_OFF p, s.ingWidth p, s.ingHeight p)

/-- The parameters of R259 are supported. -/
def sdpOk (d : Config.Sdp) (wd ht : Nat) : Bool :=
  decide (d.sampling ≤ 1) && decide (d.depth ∈ [8, 10, 12, 16]) && d.progressive && (if d.sampling = 1 then decide (d.range = 0) && decide (d.colorimetry ≤ 1) else decide (d.range ≤ 1)) &&
    decide (16 ≤ wd) && decide (wd ≤ 16384) && decide (16 ≤ ht) && decide (ht ≤ 16384)

/-- The arguments of INGRESS_SET are accepted. -/
def State.ingArgsOk (s : State) (a : List Byte) : Bool :=
  let p := byteAt a 0
  let w := byteAt a 2
  let r := (leAt a 3 2, leAt a 5 2, leAt a 7 2, leAt a 9 2)
  let others := (s.wallIngress w).filter (fun o => decide (o ≠ p))
  let leaders := (others.filter (fun o => s.fb F.ING_CTRL_LEADER o)).length + byteAt a 11 % 2
  decide (p < 8) && decide (byteAt a 1 ≤ 2) && decide (byteAt a 11 ≤ 1) && (s.wall? w).isSome && regionInMap (s.wall w) r.1 r.2.1 r.2.2.1 r.2.2.2 &&
    others.all (fun o => !regionsMeet r (s.ingRegion o)) && decide (leaders = 1) && (decide (byteAt a 1 ≠ 0) || s.portLegal fnIngress p) &&
    (decide (byteAt a 1 ≠ 1) || sdpOk (Config.sdp (a.drop 12)) r.2.2.1 r.2.2.2)

def State.ingressSet (s : State) (m : Nat) : State :=
  s.serve m 0x0033 (fun n => decide (12 ≤ n)) (fun t =>
    let a := t.mbxArgs m
    let p := byteAt a 0
    if byteAt a 1 ≠ 1 ∧ a.length ≠ 12 then t.putResult m stBadLength []
    else if !t.ingArgsOk a then t.putResult m stBadArg []
    else
      let t := t.setF F.ING_CTRL_MODE p (byteAt a 1)
      let t := t.setF F.ING_CTRL_WALL p (byteAt a 2)
      let t := (t.setF F.ING_REGION_POS_X_OFF p (leAt a 3 2)).setF F.ING_REGION_POS_Y_OFF p (leAt a 5 2)
      let t := (t.setF F.ING_REGION_SIZE_WIDTH p (leAt a 7 2)).setF F.ING_REGION_SIZE_HEIGHT p (leAt a 9 2)
      let t := t.setF F.ING_CTRL_LEADER p (byteAt a 11 % 2)
      let t := if byteAt a 1 = 0 then t.setF F.ING_CTRL_LANES p (lanesCode (t.portLanes fnIngress p).length) else t
      let t := t.setIng p { t.ing p with params := a.drop 12 }
      (t.setF F.ING_CTRL_EN p 1).putResult m stOk [])

def execIngressSet (m : Nat) (s : State) : Out := onMailbox m (s.ingressSet m)

end Sys2Proof.Machine
end

