-- ==== Sys2Proof/Machine/Haul.lean ====
section
/-! DEFINITION. Reception on the haul ports (R227, R231, R237 to R250): fixed rules, lookups, cut-through copies, what the end of a frame makes, fragments; reading of spill queues and the remote mailboxes (R235, R272, R278). -/

namespace Sys2Proof.Machine

def State.haulPort (s : State) (p : Nat) : HaulPort := Tab.get {} s.haul.ports p

def State.setHaulPort (s : State) (p : Nat) (x : HaulPort) : State := s.withHaul (fun w => { w with ports := Tab.set {} w.ports p x })

def State.setRx (s : State) (p : Nat) (r : Option RxFrame) : State := s.setHaulPort p { s.haulPort p with rx := r }

/-- The longest frame (R227). -/
def frameMax : Nat := 9216

/-- The bytes that reception takes. -/
def RxFrame.bytes (r : RxFrame) : List Byte := r.frame.take frameMax

-- ## Copies (R231, R248, R265, R268)

/-- Copies made at the frame's end. -/
def RxFrame.atEnd (r : RxFrame) : Nat :=
  (if r.fixed.isSome then 1 else 0) + (if r.cpq.isSome then 1 else 0) + (if r.ctx.isSome then 1 else 0) + (if r.ingest.isSome then 1 else 0) + (if r.capture then 1 else 0)

/-- The packet takes its buffers, and its forwarded and port-mirrored copies are queued at once (R231). `x`, `a`: what its action comes to. -/
def State.startCopies (s : State) (p : Nat) (r : RxFrame) (x : Plan) (a : Nat) : State :=
  let st := s.steerAll r.parsed a p x.ports
  let s := s.noteSteering r.parsed a st
  let x := { x with ports := st.ports }
  let r := { r with ctx := x.ctx, ingest := x.ingest, cpq := x.cpq, capture := decide (x.mirror = 7) }
  let mirrors := if 1 ≤ x.mirror ∧ x.mirror ≤ 6 then 1 else 0
  let held := r.atEnd
  let n := x.ports.length + mirrors + held
  if n = 0 then s.setRx p (some r)
  else
    let f := r.bytes
    let strict := x.ctx.isSome || (decide (copyQueue r.parsed a < 4) && decide (mirrors = 0) && decide (x.ports ≠ []))
    match s.allocPacket { ref := n, inport := p, arrival := r.arrival, frame := f, whole := false } f.length strict with
    | none => s.noBuffer.setRx p (some { r with dropped := true })
    | some (b, t) =>
      let t := t.setRx p (some { r with buf := some b, held := held })
      let t := chainAll x.ports (fun q u => u.forward b r.parsed a q p r.arrival f) t
      if mirrors = 0 then t else t.enqueueCopy (x.mirror - 1) 63 { buf := b, len := f.length, frame := f, inport := p, arrival := r.arrival }

-- ## Fragments (R249, R250)

/-- The key of a fragment's datagram. -/
def fragKey (h : Parsed) : List Nat := if h.v6 then [6, h.srcIp, h.dstIp, h.fragId.getD 0] else [4, h.srcIp, h.dstIp, h.fragId.getD 0, h.proto]

def State.frag? (s : State) (k : Nat) : Option Frag := Tab.get none s.haul.frags k

/-- CLS_FRAG.USED follows the table. -/
def State.setFrag (s : State) (k : Nat) (x : Option Frag) : State :=
  let s := s.withHaul (fun w => { w with frags := Tab.set none w.frags k x })
  s.setF F.CLS_FRAG_USED 0 s.haul.frags.length

/-- The entry of a fragment's datagram. -/
def State.fragOf (s : State) (h : Parsed) : Option Nat := (s.haul.frags.find? (fun e => e.2.any (fun f => decide (f.key = fragKey h)))).map (·.1)

/-- A first fragment creates an entry with its action, where one is free. -/
def State.newFrag (s : State) (h : Parsed) (v : Verdict) (ctx : Option Nat) : State × Option Nat :=
  match lowestFree 256 (s.haul.frags.map (·.1)) with
  | none => ((s.clsCount cntFragFull).setF F.CLS_EVENT_FRAG_TABLE_FULL 0 1, none)
  | some k => (s.setFrag k (some { key := fragKey h, action := v.action, extra := v.extra, ctx := ctx, parsed := h }), some k)

/-- Where the IP payload begins in the frame, and its bytes. -/
def ipPayload (h : Parsed) (f : List Byte) : List Byte :=
  let u := if h.udpAt = 0 then h.payAt else h.udpAt
  sliceOf f u (h.ipAt + h.ipLen - u)

-- ## Lookups and what they lead to (R240 to R244)

/-- The lookups of a packet and its copies. A later fragment takes the stored action as its datagram's version of the haul header lets it apply (R237, R249). -/
def State.route (s : State) (p : Nat) (r : RxFrame) : State :=
  let h := r.parsed
  let k := if h.nonFirst then s.fragOf h else none
  let entry := k.bind s.frag?
  let stored := entry.map (fun f => ({ action := f.action, extra := f.extra } : Verdict))
  let orphan := h.nonFirst && stored.isNone
  let v := stored.getD (s.lookUp h p orphan)
  let s := if !v.hit then s.clsCount (if orphan && actDrop v.action then cntFragNoEntry else cntNoMatch) else if actDrop v.action then s.clsCount cntRuleDrop else s
  let x := s.shedPlan (s.planOf { h with ver := (entry.map (·.parsed.ver)).getD h.ver } v p)
  let s := x.2
  let x := x.1
  let limit := h.haul && decide (h.ver = 2) && decide (h.hop = 255) && decide (x.ports ≠ [])
  let s := if limit then s.clsCount cntHopLimit else s
  let x := if limit then { x with ports := [] } else x
  let t := if h.fragId.isSome && h.more && !h.nonFirst then s.newFrag h v x.ctx else (s, k)
  let old := (t.2.bind t.1.frag?).any (·.underOld)
  t.1.startCopies p { r with frag := t.2, underOld := old } x (if actDrop v.action then 0 else v.action)

/-- A TYPE 4 payload's first byte. -/
def subtypeOf (r : RxFrame) : Nat := byteAt r.frame r.parsed.payAt

/-- The fixed rules, in order (R240). A part that is not on a ring drops ring notices (`CLS_RING`.EN). -/
def State.fixedRules (s : State) (p : Nat) (r : RxFrame) : State :=
  let h := r.parsed
  let v2 := h.haul && decide (h.ver = 2)
  let dst := h.tile % 4096
  let drop := fun (t : State) => t.setRx p (some { r with dropped := true })
  if s.device = 0 ∧ ¬ (h.ptp = true ∨ (v2 = true ∧ h.typ = 3 ∧ dst = 0xFFF)) then drop (s.clsCount cntAddrUnset)
  else if h.ptp then s.startCopies p { r with fixed := some 0 } {} 0
  else if v2 ∧ h.srcDev = s.device ∧ s.device ≠ 0 then drop (s.clsCount cntLoop)
  else if v2 ∧ h.typ = 3 ∧ (dst = s.device ∨ dst = 0xFFF) then
    if !s.fb F.HAUL_CTRL_MGMT_TRUST p then drop (s.haulCount p 9)
    else if dst = 0xFFF then s.route p { r with fixed := some 1 }
    else s.startCopies p { r with fixed := some 1 } {} 0
  else if v2 ∧ h.typ = 4 ∧ s.ringOn = false ∧ (subtypeOf r = 1 ∨ subtypeOf r = 2) then drop s
  else if v2 ∧ h.typ = 4 ∧ s.ringPort p = true ∧ (subtypeOf r = 1 ∨ subtypeOf r = 2) then s.setRx p (some { r with ring := true })
  else if v2 ∧ h.typ = 4 ∧ subtypeOf r = 0 then s.route p { r with fixed := some 2 }
  else if h.haul ∧ h.ver = 1 then (s.clsCount cntV1).route p r
  else s.route p r

/-- The parser's verdict, then the fixed rules (R237 to R240). -/
def State.classify (s : State) (p : Nat) (r : RxFrame) : State :=
  let h := parseFrame (s.f F.HAUL_UDP_PORT p) r.bytes
  let s := if h.parseErr then s.clsCount cntParseLimit else s
  let v1off := h.haul && decide (h.ver = 1) && !s.fb F.CLS_CTRL_V1_EN 0
  match (if v1off then some cntBadType else h.dropAs) with
  | some k => (s.clsCount k).setRx p (some { r with dropped := true })
  | none => s.fixedRules p { r with parsed := h }

/-- The port accepts the destination address (R227). -/
def State.macAccepts (s : State) (p : Nat) (f : List Byte) : Bool :=
  s.fb F.HAUL_CTRL_PROMISC p || decide (byteAt f 0 % 2 = 1) || decide (beAt f 0 6 = s.macOf F.HAUL_MAC_LO_MAC F.HAUL_MAC_HI_MAC p)

/-- HAUL_FRAME_RECEIVE: a frame arrives whose bytes will be these (R227, R231, R240). -/
def State.frameReceive (s : State) (p : Nat) (frame : List Byte) : State :=
  if !s.fb F.HAUL_CTRL_EN p || !s.fb F.HAUL_STATUS_LINK p || (s.haulPort p).rx.isSome then s
  else
    let r : RxFrame := { frame := frame, arrival := s.tick4 }
    let drop := fun (t : State) => t.setRx p (some { r with dropped := true })
    if s.portBlind fnHaul p then s.setRx p (some { r with dropped := true, spoiled := true })
    else if frame.length < 64 then drop s
    else if beAt frame 12 2 = 0x8808 then drop (s.haulCount p 6)
    else if !s.macAccepts p frame then drop (s.haulCount p 5)
    else if !s.fb F.CLS_CTRL_EN 0 then drop s
    else s.classify p r

def execHaulFrameReceive (p : Nat) (frame : List Byte) (s : State) : Out := onInstance (decide (p < 6)) (s.frameReceive p frame)

-- ## The end of a frame (R231, R247, R248)

/-- The rule version under which a frame was classified. -/
def State.versionOf (s : State) (r : RxFrame) : Nat := if r.underOld then s.f F.CLS_VERSION_OLD 0 else s.f F.CLS_VERSION_LIVE 0

/-- The 16 bytes of R247 before a frame. -/
def frameRecord (time len inport version : Nat) : List Byte := leBytes 8 time ++ leBytes 2 len ++ leBytes 1 inport ++ leBytes 1 version ++ [0, 0, 0, 0]

/-- A copy for control queue `c`, whose time is the PTP timestamp for PTP (R274). -/
def State.controlCopy (s : State) (p c : Nat) (r : RxFrame) : State :=
  let h := r.parsed
  let time := if h.ptp then (r.arrival + 2 ^ 64 - s.f F.HAUL_PTP_LAT_RX_Q p) % 2 ^ 64 else r.arrival
  s.offer (4096 + c) { kind := 2, first := h.haul && h.flags.testBit 7, last := h.haul && h.flags.testBit 6, data := frameRecord time r.frame.length p (s.versionOf r) ++ r.frame }

/-- The base of the capture ring and log2 of its size. -/
def State.captureBase (s : State) : Nat := s.f F.CLS_CAPTURE_LO_ADDR 0 + 2 ^ 32 * (s.f F.CLS_CAPTURE_HI_ADDR 0 % 256)
def State.captureLog (s : State) : Nat := min 30 (max 12 (s.f F.CLS_CAPTURE_HI_ADDR 0 / 2 ^ 24))

/-- A capture-ring record (R247). -/
def State.capture (s : State) (p : Nat) (r : RxFrame) : State :=
  let b := pad64 (frameRecord r.arrival r.frame.length p (s.versionOf r) ++ r.frame)
  let n := 2 ^ s.captureLog
  if !s.fb F.CLS_CTRL_CAPTURE_EN 0 || decide (n < b.length) then (s.clsCount cntCaptureDrop).setF F.CLS_EVENT_CAPTURE_DROP 0 1
  else (s.putRing 6 s.captureBase n s.haul.captureAt b).withHaul (fun w => { w with captureAt := (w.captureAt + b.length) % n })

/-- DEADLINE of a packet: a version 1 packet takes arrival and display delay (R237). -/
def State.packetDeadline (s : State) (h : Parsed) (arrival : Nat) : Nat :=
  if h.ver = 1 then (arrival / 4 + (s.wall h.wall).delayUs * 1000) / 64 % 2 ^ 32 else h.deadline

/-- The payload of a haul packet enters the stream queue of decode context `c`, unless its ENC does not suit the wall (R248, R423). -/
def State.localDeliver (s : State) (c : Nat) (h : Parsed) (arrival : Nat) (pay : List Byte) (whole : Bool) : State :=
  let enc := decide (h.ver = 2) && h.flags.testBit 3
  if !h.haul || !(s.ctx? c).any (fun x => !x.enc) || pay = [] then s
  else if (h.typ = 0 ∨ h.typ = 2) ∧ enc ≠ s.wallProtected (s.ctx c).wall then (if h.flags.testBit 7 then s.stat c (stErr errOrder) 1 else s)
  else
    (s.offer c { first := h.flags.testBit 7, last := h.flags.testBit 6 && whole, tag := h.fragOffset % 65536 + 65536 * h.picture, data := pay, stamp := s.deadlineTime (s.packetDeadline h arrival) }).notice c

/-- A packet for ingress port `k` (R259, R260, R339); in FATAL it is discarded (R367). -/
def State.ingestPacket (s : State) (k : Nat) (h : Parsed) (f : List Byte) : State :=
  if !s.fb F.ING_CTRL_EN k || s.fatal then s
  else
    match s.ingMode k with
    | 1 => if h.haul = false ∧ h.cls = 3 then s.ingestVideo k (sliceOf f (h.udpAt + 8) (beAt f (h.udpAt + 4) 2 - 8)) else s.ingDrop k 5
    | 2 => if h.haul ∧ h.typ = 5 then s.ingestRaw k h (sliceOf f h.payAt h.payLen) else s.ingDrop k 5
    | _ => s

/-- Fragments in order: those held early that now follow. -/
def Frag.pull (x : Frag) (fuel : Nat) : Frag :=
  match fuel with
  | 0 => x
  | n + 1 =>
    match x.early.find? (fun e => decide (e.1 = x.upTo)) with
    | none => x
    | some e => { x with data := x.data ++ e.2, upTo := x.upTo + e.2.length, early := x.early.filter (fun g => decide (g.1 ≠ e.1)) : Frag }.pull n

/-- Fragments of offset and length that cover a datagram from byte `a` to `n`. -/
def coverFrom (l : List (Nat × Nat)) (n a fuel : Nat) : Bool :=
  match fuel with
  | 0 => decide (n ≤ a)
  | k + 1 =>
    if n ≤ a then true
    else
      match l.find? (fun e => decide (e.1 ≤ a) && decide (a < e.1 + e.2)) with
      | none => false
      | some e => coverFrom l n (e.1 + e.2) k

/-- Fragments that cover the whole datagram have passed. -/
def Frag.covered (x : Frag) : Bool := x.total.any (fun n => coverFrom x.spans n 0 (x.spans.length + 1))

/-- The reassembled haul payload goes to the context; `whole`: without a gap. -/
def State.fragDeliver (s : State) (k : Nat) (arrival : Nat) (whole : Bool) : State :=
  match s.frag? k with
  | none => s
  | some x =>
    if x.ended then s
    else
      let s := s.setFrag k (some { x with ended := true })
      match x.ctx with
      | none => s
      | some c => s.localDeliver c x.parsed arrival (x.data.drop (x.parsed.payAt - x.parsed.udpAt)) whole

/-- A fragment with an entry has passed. -/
def State.fragPass (s : State) (k arrival : Nat) (h : Parsed) (f : List Byte) : State :=
  match s.frag? k with
  | none => s
  | some x =>
    let d := ipPayload h f
    let x := { x with spans := x.spans ++ [(h.fragOff, d.length)], total := if h.more then x.total else some (h.fragOff + d.length) }
    let inOrder := decide (h.fragOff = x.upTo)
    let ninth := !inOrder && decide (x.upTo < h.fragOff) && decide (8 ≤ x.early.length)
    let y := if x.ended ∨ x.ctx = none then x
      else if inOrder then { x with data := x.data ++ d, upTo := x.upTo + d.length : Frag }.pull 8
      else if h.fragOff < x.upTo ∨ ninth then x
      else { x with early := x.early ++ [(h.fragOff, d)] }
    let s := s.setFrag k (some y)
    let s := if ninth && x.ctx.isSome then s.fragDeliver k arrival false else if y.total = some y.upTo then s.fragDeliver k arrival true else s
    if y.covered then s.setFrag k none else s

/-- FRAGMENT_AGE_OUT: a packet with a gap ends there, and the entry is freed (R249, R250). -/
def State.fragAge (s : State) (k : Nat) : State := if (s.frag? k).isSome then (s.fragDeliver k s.tick4 false).setFrag k none else s

def execFragmentAgeOut (k : Nat) (s : State) : Out := onInstance (decide (k < 256)) (s.fragAge k)

/-- A ring notice or restore of a frame (R254, R257). -/
def State.ringFrame (s : State) (p : Nat) (h : Parsed) (f : List Byte) : State :=
  let x := byteAt f (h.payAt + 1)
  let ccw := decide (byteAt f (h.payAt + 2) = 1)
  let n := byteAt f (h.payAt + 3)
  if byteAt f h.payAt = 1 then s.ringNotice p x ccw n h.hop (some (h, f)) else s.ringRestore p x ccw n h.hop (some (h, f))

/-- What a good frame's end makes: local, control and ring copies (R231). -/
def State.rxDeliver (s : State) (p : Nat) (r : RxFrame) : State :=
  let h := r.parsed
  let f := r.frame
  let s := if r.ring then s.ringFrame p h f else s
  let s := r.fixed.elim s (fun c => s.controlCopy p c r)
  let s := r.cpq.elim s (fun c => s.controlCopy p c r)
  let s := match r.frag with
    | some k => s.fragPass k r.arrival h f
    | none => r.ctx.elim s (fun c => s.localDeliver c h r.arrival (sliceOf f h.payAt h.payLen) true)
  let s := r.ingest.elim s (fun k => s.ingestPacket k h f)
  if r.capture then s.capture p r else s

/-- The references of the copies made at the end are released; a chain without references returns (R268). -/
def State.settleRx (s : State) (r : RxFrame) (bad : Bool) : State :=
  match r.buf with
  | none => s
  | some b =>
    let k := s.packet b
    let n := k.ref - r.held
    let s := s.setRef b { k with ref := n, whole := true, bad := bad }
    if n = 0 then s.freeChain b else s

/-- HAUL_FRAME_END: the FCS arrives, or an error ends the frame. -/
def State.frameEnd (s : State) (p : Nat) (lost : Bool) : State :=
  match (s.haulPort p).rx with
  | none => s
  | some r =>
    let n := r.frame.length
    let fcs := r.spoiled || decide (leAt r.frame (n - 4) 4 ≠ crc32 (r.frame.take (n - 4)))
    let s := s.setRx p none
    let s := if lost then s else if n < 64 then s.haulCount p 3 else if frameMax < n then s.haulCount p 4 else if fcs then s.haulCount p 2 else s.haulCount p 0
    let bad := lost || decide (n < 64) || decide (frameMax < n) || fcs
    let s := if bad || r.dropped then s else s.rxDeliver p r
    s.settleRx r bad

def execHaulFrameEnd (p : Nat) (lost : Bool) (s : State) : Out := onInstance (decide (p < 6)) (s.frameEnd p lost)

-- ## Reading spill queues (R235, R272, R278)

/-- A doorbell (R50, R54): refused while BUSY or RESULT_PENDING, held before FW_READY. -/
def State.doorbell (s : State) (m : Nat) : State :=
  if s.fb F.MBX_STATUS_BUSY m ∨ s.fb F.MBX_STATUS_RESULT_PENDING m then s.setF F.MBX_STATUS_OVERRUN m 1
  else
    let held := decide (s.stage ≠ 4) && !(decide (s.stage = 2) && decide (m = 0))
    ((s.setF F.MBX_STATUS_BUSY m 1).setF F.MBX_STATUS_HELD m (if held then 1 else 0)).answerUnknown m

/-- VALID and RESULT_PENDING are cleared (R54). -/
def State.resultAck (s : State) (m : Nat) : State :=
  if s.mbxValid m then (s.setF F.MBX_RESULT_DATA (64 * m) (s.f F.MBX_RESULT_DATA (64 * m) - 2 ^ 31)).setF F.MBX_STATUS_RESULT_PENDING m 0 else s

/-- The 64 words of a command area. -/
def State.putCommand (s : State) (m : Nat) (bs : List Byte) : State :=
  chainAll (List.range 64) (fun i t => t.setF F.MBX_COMMAND_DATA (64 * m + i) (leAt bs (4 * i) 4)) s

/-- Firmware reads a TYPE 3 packet from control queue 1: a command is rung at its remote mailbox (R235). -/
def State.remoteCommand (s : State) : State :=
  let k := s.queue 4097
  match k.items with
  | i :: _ =>
    let f := i.data.drop 16
    let h := parseFrame (s.f F.HAUL_UDP_PORT (byteAt i.data 10)) f
    let pay := sliceOf f h.payAt h.payLen
    let m := byteAt pay 0
    if !k.inRead || i.kind ≠ 2 || !h.haul || decide (h.typ ≠ 3) || decide (byteAt pay 1 ≠ 0) || decide (m < 12) || decide (15 < m) || decide (pay.length ≠ 260) then s
    else if s.fb F.MBX_STATUS_BUSY m ∨ s.fb F.MBX_STATUS_RESULT_PENDING m then s.setF F.MBX_STATUS_OVERRUN m 1
    else ((s.putCommand m (pay.drop 4)).withFw (fun w => { w with remotePeer := Tab.set 0 w.remotePeer m h.srcDev })).doorbell m
  | [] => s

/-- The 256 bytes of a result area. -/
def State.mbxResult (s : State) (m : Nat) : List Byte := (List.range 64).flatMap (fun i => leBytes 4 (s.f F.MBX_RESULT_DATA (64 * m + i)))

/-- The result of a remote mailbox goes to the SRC_DEV of its command (R235). -/
def State.remoteResult (m : Nat) (s : State) : State :=
  let dst := Tab.get 0 s.fw.remotePeer m
  if !s.fb F.MBX_STATUS_RESULT_PENDING m then s
  else
    match s.originate 6 (s.controlHdr 3 dst 0 s.device) (Tab.get 0 s.haul.seqs dst) (leBytes 1 m ++ [1, 0, 0] ++ s.mbxResult m) with
    | none => s.stall .cp
    | some t => ((t.unstall .cp).nextOwnSeq dst).resultAck m

def State.remoteResults (s : State) : State := chainAll [12, 13, 14, 15] State.remoteResult s

/-- The read in progress ends, and that of the next item finds `e` (R278, R280). -/
def State.nextRead (s : State) (q : Nat) (e : SramRead) : State := (s.endRead q).readMeets q e

/-- SPILL_DEQUEUE: a hewer takes the next item of a decode queue, or it leaves unread; firmware reads a control queue. -/
def State.dequeue (s : State) (q : Nat) (e : SramRead) : State :=
  if q < 4096 then
    if !(s.ctx? q).any (fun x => !x.enc) then s
    else
      match s.reader q with
      | some h => ((s.nextRead q e).deliver q h).notice q
      | none => if s.frontTaken q then s else ((s.nextRead q e).discardFront q).notice q
  else if q = 4097 then ((s.nextRead q e).beginRead q).remoteCommand
  else (s.nextRead q e).beginRead q

def execSpillDequeue (q : Nat) (s : State) (e : SramRead := .clean) : Out := onInstance (decide (q < 4352)) (s.dequeue q e)

end Sys2Proof.Machine
end

