-- ==== Sys2Proof/Machine/Walls.lean ====
section
/-! DEFINITION. Walls, tile maps and contexts: their mailbox commands (R36 to R38, R127 to R131, R152, R153, R163) and STK_PIN (R159). -/

namespace Sys2Proof.Machine

/-- All bytes of a part of the arguments are zero. -/
def zeros (a : List Byte) (o n : Nat) : Bool := (sliceOf a o n).all (· = 0)

-- ## WALL_OPEN (R36)

/-- The wall that the arguments describe. -/
def wallOf (a : List Byte) : Wall :=
  let lamps := byteAt a 1 % 2 = 1
  let d := leAt a 12 2
  { lamps := lamps, subframes := if lamps then 16 * 2 ^ byteAt a 2 else 64, rateNum := leAt a 4 2, rateDen := leAt a 6 2, delayUs := leAt a 8 4,
    downstreamUs := if d = 0 then 200 else d, t0 := leAt a 16 8 }

/-- Every field of WALL_OPEN is in range. -/
def State.wallArgsOk (s : State) (a : List Byte) : Bool :=
  let w := wallOf a
  decide (byteAt a 1 ≤ 1) && (!w.lamps || decide (byteAt a 2 ≤ 3)) && decide (byteAt a 3 = 0) && decide (1 ≤ w.rateNum) && decide (1 ≤ w.rateDen) &&
    decide (50 ≤ w.delayUs) && decide (w.delayUs ≤ 16000) && decide (leAt a 12 2 ≤ 16000) && zeros a 14 2 && zeros a 24 8 &&
    decide (w.downstreamUs + 20 ≤ w.delayUs) && decide (byteAt a 0 ∈ s.codec.listed) && (s.wall? (byteAt a 0)).isNone &&
    (!w.lamps || decide (s.now + 10000000 ≤ w.t0))

/-- A grid is programmed for the wall (R198). -/
def State.takeGrid (s : State) (g w : Nat) (x : Wall) : State :=
  let s := s.setGrid g { used := true, wall := w, t0 := x.t0, k := 0 }
  ((s.setF F.LMP_GRID_STATUS_SUBFRAMES g (x.subframes.log2 - 4)).setF F.LMP_GRID_STATUS_EN g 0).setF F.LMP_GRID_STATUS_SFC g 0

def State.wallOpen (s : State) (m : Nat) : State :=
  s.serve m 0x0010 (· = 32) (fun t =>
    let a := t.mbxArgs m
    let n := byteAt a 0
    let w := wallOf a
    if !t.wallArgsOk a then t.putResult m stBadArg []
    else if !w.lamps then ((t.setWall? n (some { w with picture := Config.freeNat 28 t.free % 65536 })).draw).putResult m stOk [0xFF]
    else
      match lowestFree 4 ((List.range 4).filter (fun g => (t.grid g).used)) with
      | none => t.putResult m stNoResource []
      | some g => (((t.takeGrid g n w).setWall? n (some { w with grid := some g, picture := Config.freeNat 28 t.free % 65536 })).draw).putResult m stOk (leBytes 1 g))

def execWallOpen (m : Nat) (s : State) : Out := onMailbox m (s.wallOpen m)

-- ## WALL_CLOSE (R37)

/-- Lamp ports bound to the wall. -/
def State.wallPorts (s : State) (w : Nat) : List Nat :=
  s.lamp.chains.flatMap (fun e => if e.2.bound && decide (e.2.wall = w) then (if e.2.portB < 48 then [e.1, e.2.portB] else [e.1]) else [])

/-- EN of a port is cleared, in the register and in the active set. -/
def State.portOff (s : State) (n : Nat) : State := (s.setPort n { s.port n with en := false, closing := false }).setF F.LMP_PORT_CTRL_EN n 0

/-- The port stops, after a BLANK frame where one is asked for. -/
def State.stopPort (s : State) (blank : Bool) (n : Nat) : State :=
  if blank && (s.port n).en then s.setPort n { s.port n with owed := true, closing := true } else s.portOff n

def State.wallClose (s : State) (m : Nat) : State :=
  s.serve m 0x0011 (· = 2) (fun t =>
    let w := byteAt (t.mbxArgs m) 0
    let fl := byteAt (t.mbxArgs m) 1
    if 1 < fl ∨ (t.wall? w).isNone then t.putResult m stBadArg []
    else if t.codec.dying.any (fun d => decide (d.wall = some w)) then t.putResult m stBusy []
    else
      let t := chainAll (t.wallPorts w) (fun n u => u.stopPort (decide (fl = 1)) n) t
      let t := t.withLamp (fun l => { l with chains := l.chains.filter (fun e => !(e.2.bound && decide (e.2.wall = w))) })
      t.destroy m (t.ctxsOf (fun x => decide (x.wall = w))) (some w))

def execWallClose (m : Nat) (s : State) : Out := onMailbox m (s.wallClose m)

-- ## TILE_MAP_LOAD (R38)

/-- An entry of the tile map at a DRAM address: tile and geometry. -/
def tileOf (e : List Byte) : Nat × Tile :=
  (leAt e 0 2, { w16 := byteAt e 2, h16 := byteAt e 3, cropR := byteAt e 4 / 16, cropB := byteAt e 4 % 16, depthM8 := byteAt e 5 / 16, sliceRowsM1 := byteAt e 5 % 16, independent := decide (128 ≤ byteAt e 6), bedSlots := byteAt e 6 / 8 % 4, maxShort := byteAt e 6 % 8, owner := leAt e 8 2 % 4096, x := leAt e 10 2, y := leAt e 12 2 })

/-- The fields of an entry are in range. -/
def tileEntryOk (e : List Byte) : Bool :=
  let t := (tileOf e).2
  decide (leAt e 0 2 ≤ 65534) && decide (4 ≤ t.w16) && decide (t.w16 ≤ 128) && decide (1 ≤ t.h16) && decide (t.h16 ≤ 128) && decide (t.depthM8 ≤ 8) &&
    decide (byteAt e 6 / 32 % 4 = 0) && decide (t.bedSlots ≤ 2) && decide (1 ≤ t.maxShort) && decide (t.maxShort ≤ 4) && decide (byteAt e 7 = 0) &&
    decide (leAt e 8 2 ≤ 0xFFE) && zeros e 14 2 && decide (t.x + t.visW ≤ 65536) && decide (t.y + t.visH ≤ 65536)

/-- The visible areas of two tiles overlap. -/
def tilesOverlap (a b : Tile) : Bool := decide (a.x < b.x + b.visW) && decide (b.x < a.x + a.visW) && decide (a.y < b.y + b.visH) && decide (b.y < a.y + a.visH)

/-- What a tile with a context may not change (R38): every field but OWNER, X and Y. That X and Y, the place of the tile on the wall, are no part of the geometry that stays is the model's choice (log entry 85). -/
def sameCoding (a b : Tile) : Bool :=
  decide ({ a with owner := 0, x := 0, y := 0 } = { b with owner := 0, x := 0, y := 0 })

/-- The map that a load gives. -/
def newMap (old : Tab (Option Tile)) (merge : Bool) (es : List (Nat × Tile)) : Tab (Option Tile) := es.foldl (fun m e => Tab.set none m e.1 (some e.2)) (if merge then old else [])

/-- No two tiles of a map overlap. -/
def mapOk (m : Tab (Option Tile)) : Bool := m.all (fun e => m.all (fun g => decide (e.1 = g.1) || (match e.2, g.2 with
  | some a, some b => !tilesOverlap a b
  | _, _ => true)))

/-- Tiles with a context keep their coding. -/
def State.mapKeeps (s : State) (w : Nat) (m : Tab (Option Tile)) : Bool :=
  (s.ctxsOf (fun x => decide (x.wall = w))).all (fun c =>
    match Tab.get none (s.wall w).tiles (s.ctx c).tile, Tab.get none m (s.ctx c).tile with
    | some a, some b => sameCoding a b
    | _, _ => false)

/-- TILE_MAP_LOAD (R38). That a wall which is not open returns BAD_ARGUMENT is the model's choice (log entry 85). -/
def State.tileMapLoad (s : State) (m : Nat) : State :=
  s.serve m 0x0012 (· = 16) (fun t =>
    let a := t.mbxArgs m
    let w := byteAt a 0
    let n := leAt a 2 2
    let addr := leAt a 8 8
    let es := (List.range n).map (fun i => t.dramFor 9 (addr + 16 * i) 16 (Origin.secure (mbxOrigin m) t))
    let ts := es.map tileOf
    let new := newMap (t.wall w).tiles (decide (byteAt a 1 = 1)) ts
    if 1 < byteAt a 1 ∨ n = 0 ∨ !zeros a 4 4 ∨ 2 ^ 40 ≤ addr ∨ addr % 16 ≠ 0 ∨ (t.wall? w).isNone then t.putResult m stBadArg []
    else if t.lockElsewhere 1 then t.putResult m stLocked []
    else if es.all tileEntryOk = false ∨ ¬ (ts.map (·.1)).Nodup ∨ mapOk new = false ∨ t.mapKeeps w new = false then t.putResult m stBadArg []
    else
      let t := ((t.setWall? w (some { t.wall w with tiles := new })).setF F.SEM_LOCK_OWNER 1 1).withHaul (fun w => { w with restageDue := true })
      t.startJob m .tileMap)

def execTileMapLoad (m : Nat) (s : State) : Out := onMailbox m (s.tileMapLoad m)

-- ## CONTEXT_CREATE (R127, R128, R154)

/-- The group that a context of the wall and tile joins, if it exists. -/
def State.groupFor (s : State) (w tile : Nat) (indep : Bool) : Option Nat :=
  (s.codec.groups.find? (fun e => e.2.any (fun g => decide (g.wall = w) && decide (g.tile = if indep then some tile else none)))).map (·.1)

/-- A group reserves its descriptors (R154): short-term references, bedrock slots and 2. -/
def State.newGroup (s : State) (n w : Nat) (tile : Option Nat) (short beds : Nat) : State :=
  let ds := s.poolDescs.take (short + 2 + beds)
  let rot := ds.take (short + 2)
  let bd := ds.drop (short + 2)
  let s := s.setGroup? n (some { wall := w, tile := tile, short := short, beds := beds, descs := rot, bedDescs := bd })
  let s := chainAll rot (fun d t => ((t.setDescBase d (t.freeArea 10)).draw).setF F.STK_DESC_INFO_GROUP d n) s
  let s := chainAll (List.range beds) (fun k t =>
    let d := bd.getD k noDesc
    let t := (t.setDesc d { building := t.freeArea 11 }).setDescBase d (t.freeArea 10)
    ((t.draw.setF F.STK_DESC_INFO_GROUP d n).setF F.STK_DESC_INFO_BEDROCK d 1).setF F.STK_DESC_INFO_SLOT d k) s
  s.refreshDescCount

/-- The group gives the tile its place in every descriptor. -/
def Group.addTile (g : Group) (tile bytes : Nat) : Group :=
  if Tab.get 0 g.places tile ≠ 0 then g else { g with places := Tab.set 0 g.places tile (g.size + 1), size := g.size + bytes }

/-- A power of two at or above `n`, as its exponent, at least 16. -/
def log2Up (n : Nat) : Nat := ((List.range 26).find? (fun k => decide (n ≤ 2 ^ k) && decide (16 ≤ k))).getD 26

/-- CT of an encode queue: the payload that R234 gives for the ports' MTU, in 64-byte units less one; of a decode queue 2,048 bytes (R279). -/
def State.cutUnits (s : State) (enc : Bool) : Nat :=
  if enc then ((List.range 6).filter (fun p => s.fb F.HAUL_CTRL_EN p)).foldl (fun a p => min a (payloadMax (s.f F.HAUL_CTRL_ENCAP p) (s.f F.HAUL_MTU_BYTES p) / 64 - 1)) 142 else 31

/-- The stream queue of a new context (R272, R279, R281). -/
def State.openQueue (s : State) (c size : Nat) (enc : Bool) : State :=
  let s := s.setF F.SPQ_Q_CFG_CT c (s.cutUnits enc)
  let b := s.freeArea 19
  let s := s.draw
  let s := (s.setF F.SPQ_Q_BASE_LO_ADDR c (b % 2 ^ 32)).setF F.SPQ_Q_BASE_HI_ADDR c (b / 2 ^ 32 % 256)
  ((s.setF F.SPQ_Q_CFG_SIZE c size).setF F.SPQ_Q_CFG_SPILL c 1).setF F.SPQ_Q_CFG_EN c 1

/-- The wall of a new decode context, which uses no field but TILE (R127): of the open walls whose map has the tile and which have no decode context of it, the lowest. The order is the model's choice (log entry 96). -/
def State.decodeWall (s : State) (tile : Nat) : Option Nat :=
  (s.codec.walls.find? (fun e => e.2.any (fun w => (Tab.get none w.tiles tile).isSome) &&
    !s.codec.dying.any (fun d => decide (d.wall = some e.1)) && decide (s.ctxsOf (fun x => decide (x.wall = e.1) && decide (x.tile = tile) && !x.enc) = []))).map (·.1)

/-- The wall of the context that CONTEXT_CREATE asks for: WALL of an encode context. -/
def State.wallFor (s : State) (a : List Byte) : Nat := if byteAt a 0 = 1 then (s.decodeWall (leAt a 2 2)).getD 256 else byteAt a 1

/-- The context that CONTEXT_CREATE asks for; a decode context takes all from the tile map. -/
def State.ctxOf (s : State) (a : List Byte) (t : Tile) : Ctx :=
  let w := s.wallFor a
  if byteAt a 0 = 1 then
    { enc := false, wall := w, tile := leAt a 2 2, geo := t, maxShort := t.maxShort, bedSlots := t.bedSlots, charge := decodeCharge t (s.wall w).rateNum (s.wall w).rateDen s.codec.holdFactor }
  else
    let bucket := leAt a 16 4
    { enc := true, wall := w, tile := leAt a 2 2, geo := t, colour := byteAt a 5 / 2 % 2, refineAllowed := (byteAt a 5).testBit 0, sourceTime := (byteAt a 5).testBit 2, e := byteAt a 6,
      maxShort := byteAt a 7, bedSlots := byteAt a 8, refresh := decide (byteAt a 9 = 1), keyInterval := leAt a 10 2, qpStart := byteAt a 20, level := (16 * bucket : Nat),
      label := sliceOf a 32 (byteAt a 23), charge := encodeCharge t (s.wall w).rateNum (s.wall w).rateDen (byteAt a 4),
      act := { configured := byteAt a 4, linkRate := leAt a 12 4, bucket := bucket, qpMin := byteAt a 21, qpMax := byteAt a 22, qpStepMax := s.codec.qpStepMax, ki := s.codec.ki, kp := s.codec.kp, allot := ((s.wall w).delayUs - (s.wall w).downstreamUs) * 1000 } }

/-- The wall is under content protection once it has a context: it holds a key before its first (R419). -/
def State.willSeal (s : State) (w : Nat) : Bool := if s.wallHasContexts w then s.wallProtected w else s.sec.keys.any (fun k => decide (k.wall = w))

/-- The smallest BUCKET (R139). -/
def bucketMin (prot : Bool) (t : Tile) : Nat := 2 * (32 + ((List.range t.slices).map (fun i => minSlice prot (t.rowsOf i * t.w16))).sum)

/-- The arguments of an encode context are in range. -/
def encodeArgsOk (prot : Bool) (a : List Byte) (t : Tile) : Bool :=
  decide (byteAt a 4 ≤ 3) && decide (byteAt a 5 ≤ 7) && decide (1 ≤ byteAt a 7) && decide (byteAt a 7 ≤ 4) && decide (byteAt a 8 ≤ 2) && decide (byteAt a 9 ≤ 1) &&
    decide (1000 ≤ leAt a 12 4) && decide (bucketMin prot t ≤ leAt a 16 4) && decide (leAt a 16 4 < 2 ^ 24) && decide (byteAt a 20 ≤ 127) && decide (byteAt a 21 ≤ byteAt a 22) &&
    decide (byteAt a 22 ≤ 127) && decide (byteAt a 23 ≤ 64) && zeros a 24 8

/-- RD and WR of the regions of a protected wall (R404): requesters 0 to 4, 6 and 10; 1 to 4, 6 and 10. -/
def guardRd : Nat := 1119
def guardWr : Nat := 1118

/-- A storage of `n` bytes at `a` lies in a secure region (R404): one that covers it, else the first free one is set, else the last is widened. -/
def State.guardArea (s : State) (a n : Nat) : State :=
  let lo := a / 4096
  let hi := (a + n - 1) / 4096
  let put := fun (r b l : Nat) =>
    let t := ((s.setF F.SEC_REGION_BASE_PAGE r b).setF F.SEC_REGION_LIMIT_PAGE r l).setF F.SEC_REGION_ATTR_EN r 1
    ((t.setF F.SEC_REGION_ATTR_WORLD r 1).setF F.SEC_REGION_ATTR_WR r guardWr).setF F.SEC_REGION_ATTR_RD r guardRd
  let own := fun (r : Nat) => s.fb F.SEC_REGION_ATTR_EN r && s.fb F.SEC_REGION_ATTR_WORLD r && !s.fb F.SEC_REGION_ATTR_LOCK r && decide (s.f F.SEC_REGION_ATTR_WR r = guardWr) && decide (s.f F.SEC_REGION_ATTR_RD r = guardRd)
  if n = 0 ∨ (List.range 64).any (fun r => own r && decide (s.f F.SEC_REGION_BASE_PAGE r ≤ lo) && decide (hi ≤ s.f F.SEC_REGION_LIMIT_PAGE r)) = true then s
  else
    match (List.range 64).find? (fun r => own r && decide (s.f F.SEC_REGION_BASE_PAGE r = lo)), (List.range 64).find? (fun r => !s.fb F.SEC_REGION_ATTR_EN r && !s.fb F.SEC_REGION_ATTR_LOCK r), (List.range 64).reverse.find? own with
    | some r, _, _ => put r lo hi
    | none, some r, _ => put r lo hi
    | none, none, some r => put r (min lo (s.f F.SEC_REGION_BASE_PAGE r)) (max hi (s.f F.SEC_REGION_LIMIT_PAGE r))
    | none, none, none => s

/-- The storages of the descriptors of group `g`. -/
def State.guardGroup (s : State) (g : Nat) : State :=
  let x := s.group g
  let s := chainAll (x.descs ++ x.bedDescs) (fun d t => t.guardArea (t.desc d).base x.size) s
  chainAll x.bedDescs (fun d t => t.guardArea (t.desc d).building x.size) s

/-- On a protected wall the storages of the group and the spill region of a decode context are secure. -/
def State.guardCtx (s : State) (c : Nat) : State :=
  let x := s.ctx c
  if !s.wallProtected x.wall then s
  else if x.enc then s.guardGroup x.group
  else (s.guardGroup x.group).guardArea (s.spoilBase c) (2 ^ s.spoilLog c)

/-- Creation of context `c` in group `g` that exists. -/
def State.addCtx (s : State) (c g : Nat) (x : Ctx) : State :=
  let s := s.setWall? x.wall (some { s.wall x.wall with sealed := s.willSeal x.wall })
  let s := s.setGroup? g (some ((s.group g).addTile x.tile (tileBytes x.geo.depth (if x.enc then x.colour else 1) (x.geo.w16 * x.geo.h16))))
  let s := s.setCtx? c (some { x with group := g })
  let s := s.openQueue c (if x.enc then log2Up (2 * x.act.bucket) else 20) x.enc
  let s := if x.enc then ((s.writeCtxSet c x.act).setF F.SCH_CTX_QP_QP_NOW c x.qpStart).setF F.SCH_CTX_EFFORT_CATCHUP c x.act.configured else s
  ((s.guardCtx c).withHaul (fun w => { w with restageDue := true })).refreshCapacity

/-- Admission, group and number of a context whose arguments are in range. -/
def State.takeCtx (s : State) (m : Nat) (x : Ctx) : State :=
  let ok := fun (t : State) (c g : Nat) => (t.addCtx c g x).putResult m stOk (leBytes 2 c ++ [0, 0] ++ leBytes 4 x.charge)
  match lowestFree 4096 s.ctxNums with
  | none => s.putResult m stNoResource []
  | some c =>
    match s.groupFor x.wall x.tile x.geo.independent with
    | some g =>
      if (s.group g).short < x.maxShort ∨ (s.group g).beds < x.bedSlots then s.putResult m stBadArg []
      else if s.limitFor s.inService < s.chargeSum + x.charge then s.putResult m stOverAdmission []
      else ok s c g
    | none =>
      if s.poolDescs.length < x.maxShort + 2 + x.bedSlots then s.putResult m stNoResource []
      else if s.limitFor s.inService < s.chargeSum + x.charge then s.putResult m stOverAdmission []
      else
        let g := (lowestFree 512 (s.codec.groups.map (·.1))).getD 511
        ok (s.newGroup g x.wall (if x.geo.independent then some x.tile else none) x.maxShort x.bedSlots) c g

def State.contextCreate (s : State) (m : Nat) : State :=
  s.serve m 0x0020 (fun n => decide (32 ≤ n) && decide (n ≤ 96)) (fun t =>
    let a := t.mbxArgs m
    let w := t.wallFor a
    match Tab.get none (t.wall w).tiles (leAt a 2 2) with
    | none => t.putResult m stBadArg []
    | some g =>
      let enc := decide (byteAt a 0 = 0)
      if 1 < byteAt a 0 ∨ (t.wall? w).isNone ∨ t.codec.dying.any (fun d => decide (d.wall = some w)) then t.putResult m stBadArg []
      else if t.ctxsOf (fun x => decide (x.wall = w) && decide (x.tile = leAt a 2 2) && decide (x.enc = enc)) ≠ [] then t.putResult m stBadArg []
      else if enc ∧ encodeArgsOk (t.willSeal w) a g = false then t.putResult m stBadArg []
      else if enc ∧ a.length < 32 + byteAt a 23 then t.putResult m stBadLength []
      else t.takeCtx m (t.ctxOf a g))

def execContextCreate (m : Nat) (s : State) : Out := onMailbox m (s.contextCreate m)

-- ## CONTEXT_DESTROY, CONTEXT_STATS, EFFORT_SET (R130, R131, R153)

def State.contextDestroy (s : State) (m : Nat) : State :=
  s.serve m 0x0021 (· = 4) (fun t =>
    let c := leAt (t.mbxArgs m) 0 2
    if !zeros (t.mbxArgs m) 2 2 || (t.ctx? c).isNone then t.putResult m stBadArg []
    else if (t.ctx c).ending || (!(t.ctx c).enc && t.tableNames c) then t.putResult m stBusy []
    else t.destroy m [c] none)

def execContextDestroy (m : Nat) (s : State) : Out := onMailbox m (s.contextDestroy m)

/-- STATE of R153. -/
def State.ctxState (s : State) (c : Nat) : Nat :=
  let x := s.ctx c
  if x.enc && (s.wall x.wall).paused && x.pic.isNone then 2
  else if s.lrem c ≠ 0 then 3
  else if x.pic.isSome || s.ctxRuns c then 1
  else 0

/-- The 212 bytes of CONTEXT_STATS. -/
def State.statsBytes (s : State) (c : Nat) : List Byte :=
  let x := s.ctx c
  let k := fun i => leBytes 4 (Tab.get 0 x.stats i)
  let q := x.qpSeen.getD (0, 0)
  let b := fun v => if x.enc then v else 0
  k 0 ++ k 1 ++ leBytes 8 x.bytes ++ (List.range 12).flatMap (fun i => k (i + 2)) ++ leBytes 4 x.sat ++
    leBytes 1 (b q.1) ++ leBytes 1 (b q.2) ++ leBytes 2 (b (x.qpSum * 256 / max 1 x.qpRows)) ++ leBytes 4 (b (unsigned 29 x.level)) ++ leBytes 4 x.charge ++
    leBytes 1 (b (s.f F.SCH_CTX_EFFORT_EFFECTIVE c)) ++ leBytes 1 (s.ctxState c) ++ [0, 0] ++
    (List.range 16).flatMap (fun j => k (stErr j)) ++ (x.label ++ List.replicate 64 0).take 64

/-- The context with every counter cleared. -/
def Ctx.cleared (x : Ctx) : Ctx := { x with stats := [], bytes := 0, sat := 0, qpSeen := none, qpRows := 0, qpSum := 0 }

def State.contextStats (s : State) (m : Nat) : State :=
  s.serve m 0x0022 (· = 3) (fun t =>
    let c := leAt (t.mbxArgs m) 0 2
    let fl := byteAt (t.mbxArgs m) 2
    if 1 < fl ∨ (t.ctx? c).isNone then t.putResult m stBadArg []
    else
      let d := t.statsBytes c
      (t.modCtx c (fun x => { (if fl = 1 then x.cleared else x) with event := false })).putResult m stOk d)

def execContextStats (m : Nat) (s : State) : Out := onMailbox m (s.contextStats m)

/-- The charge of context `c` at effort `e`. -/
def State.chargeAt (s : State) (c e : Nat) : Nat :=
  let x := s.ctx c
  encodeCharge x.geo (s.wall x.wall).rateNum (s.wall x.wall).rateDen e

/-- The configured level changes at the next slice boundary, the charge now (R133). -/
def State.setEffort (s : State) (e c : Nat) : State :=
  let s := s.modCtx c (fun x => { x with charge := s.chargeAt c e })
  (s.setF F.SCH_CTX_EFFORT_CONFIGURED c e).setF F.SCH_CTX_ARM_SHADOW_ARMED c 1

def State.effortSet (s : State) (m : Nat) : State :=
  s.serve m 0x0023 (· = 4) (fun t =>
    let a := t.mbxArgs m
    let n := leAt a 0 2
    let e := byteAt a 2
    let cs := if n = 0xFFFF then t.ctxsOf (·.enc) else [n]
    if 3 < e ∨ byteAt a 3 ≠ 0 ∨ (n ≠ 0xFFFF ∧ ((t.ctx? n).isNone = true ∨ (t.ctx n).enc = false)) then t.putResult m stBadArg []
    else
      let old := (cs.map (fun c => (t.ctx c).charge)).sum
      let new := (cs.map (fun c => t.chargeAt c e)).sum
      if cs.any (fun c => decide ((t.ctx c).charge < t.chargeAt c e)) ∧ t.limitFor t.inService < t.chargeSum - old + new then t.putResult m stOverAdmission []
      else ((chainAll cs (fun c u => u.setEffort e c) t).refreshCapacity).putResult m stOk [])

def execEffortSet (m : Nat) (s : State) : Out := onMailbox m (s.effortSet m)

-- ## PLAY, PAUSE (R152)

def State.play (s : State) (m : Nat) : State :=
  s.serve m 0x0013 (· = 16) (fun t =>
    let a := t.mbxArgs m
    let w := byteAt a 0
    if (t.wall? w).isNone ∨ !zeros a 1 7 then t.putResult m stBadArg []
    else (t.playWall w (leAt a 8 8)).putResult m stOk [])

def execPlay (m : Nat) (s : State) : Out := onMailbox m (s.play m)

def State.pause (s : State) (m : Nat) : State :=
  s.serve m 0x0014 (· = 4) (fun t =>
    let a := t.mbxArgs m
    let w := byteAt a 0
    if (t.wall? w).isNone ∨ !zeros a 1 3 then t.putResult m stBadArg []
    else (t.pauseWall w).putResult m stOk [])

def execPause (m : Nat) (s : State) : Out := onMailbox m (s.pause m)

-- ## BEDROCK_LOAD (R163)

/-- Samples of a source in DRAM, whose layout the manual does not give: free, within the range of the component. -/
def freeSource (g : Tile) (colour k : Nat) : List (List Int) :=
  (List.range 3).map (fun c => (List.range (256 * g.w16 * g.h16)).map (fun i => compClip g.depth colour c (Config.freeInt 27 ((k * 3 + c) * 2 ^ 23 + i))))

def State.bedrockArgsOk (s : State) (a : List Byte) : Bool :=
  let c := leAt a 0 2
  (s.ctx? c).isSome && (s.ctx c).enc && !(s.ctx c).ending && decide (byteAt a 2 < (s.ctx c).bedSlots) && decide (byteAt a 3 ≤ 1) && decide (1 ≤ byteAt a 4) && decide (byteAt a 4 ≤ 16) &&
    decide (byteAt a 5 ≤ 127) && decide (byteAt a 6 ≤ 15) && decide (1 ≤ byteAt a 7) && decide (256 ≤ leAt a 8 4) && decide (leAt a 8 4 < 2 ^ 24) && decide (leAt a 12 8 < 2 ^ 40)

def State.bedrockLoad (s : State) (m : Nat) : State :=
  s.serve m 0x0024 (· = 20) (fun t =>
    let a := t.mbxArgs m
    let c := leAt a 0 2
    let k := byteAt a 2
    let x := t.ctx c
    if !t.bedrockArgsOk a then t.putResult m stBadArg []
    else if x.loads.any (fun l => decide (l.slot = k)) then t.putResult m stBusy []
    else
      let gen := (Tab.get 0 x.gens k + 1) % 256
      let dram := decide (byteAt a 3 = 1)
      let l : BedLoad := { slot := k, fromDram := dram, rows := byteAt a 4, qp := byteAt a 5, repeats := byteAt a 6, nameDelay := byteAt a 7, trickle := leAt a 8 4, addr := leAt a 12 8, gen := gen, job := t.fw.nextJob, src := if dram then some (freeSource x.geo x.colour t.free) else none }
      ((t.modCtx c (fun y => { y with gens := Tab.set 0 y.gens k gen, loads := y.loads ++ [l] })).draw).startJob m (.bedrock c k))

def execBedrockLoad (m : Nat) (s : State) : Out := onMailbox m (s.bedrockLoad m)

-- ## SCH_PARAM_SET (R128, R134)

/-- KP, KI and QP_STEP_MAX of the command go to every encode context as shadow values, and to later contexts. -/
def State.schParamSet (s : State) (m : Nat) : State :=
  s.serve m 0x0480 (· = 9) (fun t =>
    let a := t.mbxArgs m
    let lk := leAt a 0 2
    let hf := byteAt a 2
    let ad := byteAt a 3
    let qs := byteAt a 8
    if 512 ≤ lk ∨ hf < 64 ∨ ad < 50 ∨ 95 < ad ∨ qs = 0 ∨ 15 < qs then t.putResult m stBadArg []
    else
      let t := t.withCodec (fun w => { w with lambdaK := lk, holdFactor := hf, kp := leAt a 4 2, ki := leAt a 6 2, qpStepMax := qs })
      let t := (t.setF F.SCH_CTRL_ADMIT_PCT 0 ad).refreshCapacity
      let t := chainAll (t.ctxsOf (·.enc)) (fun c u =>
        (((u.setF F.SCH_CTX_PI_KP c (leAt a 4 2)).setF F.SCH_CTX_PI_KI c (leAt a 6 2)).setF F.SCH_CTX_QP_QP_STEP_MAX c qs).setF F.SCH_CTX_ARM_SHADOW_ARMED c 1) t
      t.putResult m stOk [])

def execSchParamSet (m : Nat) (s : State) : Out := onMailbox m (s.schParamSet m)

-- ## STK_PIN (R159)

/-- REQ: the next picture of GROUP to complete is pinned; the group gets an extra descriptor. -/
def State.pinReq (s : State) (g : Nat) : State :=
  match s.group? g, s.poolDescs with
  | some x, d :: _ =>
    let s := s.setGroup? g (some { x with pinDue := true, descs := x.descs ++ [d] })
    let s := ((((s.setDescBase d (s.freeArea 10)).draw).setF F.STK_DESC_INFO_GROUP d g)).refreshDescCount
    if s.wallProtected x.wall then s.guardGroup g else s
  | _, _ => s.setF F.STK_PIN_REFUSED 0 1

/-- UNPIN of the selected descriptor: it loses the pin and a descriptor returns to the pool, this one where its group is gone. -/
def State.unpin (s : State) (d : Nat) : State :=
  if !s.fb F.STK_DESC_INFO_HOST_PIN d then s
  else
    let g := s.f F.STK_DESC_INFO_GROUP d
    let s := s.setF F.STK_DESC_INFO_HOST_PIN d 0
    if d ∈ (s.group g).descs then ((s.setGroup? g (some { s.group g with shrink := (s.group g).shrink + 1 })).refreshMarks g).noticeGroup g
    else (s.resetDesc d).refreshDescCount

/-- A write of STK_PIN: W1C bits, GROUP, then REQ and UNPIN. -/
def State.writeStkPin (s : State) (w : Nat) : State :=
  let s := if w.testBit 31 then s.setF F.STK_PIN_DONE 0 0 else s
  let s := if w.testBit 30 then s.setF F.STK_PIN_REFUSED 0 0 else s
  let s := s.setF F.STK_PIN_GROUP 0 (w % 512)
  let s := if w.testBit 28 then s.pinReq (w % 512) else s
  if w.testBit 29 then s.unpin (s.f F.STK_DESC_SEL_DESC 0) else s

end Sys2Proof.Machine
end

