-- ==== Sys2Proof/Machine/HaulCmd.lean ====
section
/-! DEFINITION. Haul links coming up and going down (R230), rule staging and commit by firmware (R252, R253), and the mailbox commands of the haul chapter (R35, R226). -/

namespace Sys2Proof.Machine

-- ## Links (R226, R230)

/-- The link of a port is down. -/
def State.linkDown (s : State) (p : Nat) : State :=
  ((s.setF F.HAUL_STATUS_LINK p 0).setF F.HAUL_STATUS_ALIGNED p 0).setF F.HAUL_STATUS_AN_DONE p 0

/-- A local or remote fault sequence is received in XAUI mode (R227). -/
def State.faultSeen (s : State) (p : Nat) (fault : Bool) : Bool := fault && decide (s.f F.HAUL_CTRL_MODE p = 1)

/-- HAUL_LINK_LOSS: declared loss, or a fault sequence that holds a XAUI port down (R227); none in the blind period of a calibration (R328). A frame in reception ends bad (R231). A ring port creates a break (R254). -/
def State.haulLoss (s : State) (p : Nat) (fault : Bool) : State :=
  let s := if s.faultSeen p fault && !s.portBlind fnHaul p then s.setF F.HAUL_STATUS_REMOTE_FAULT p 1 else s
  if !s.fb F.HAUL_STATUS_LINK p || s.portBlind fnHaul p then s
  else
    let s := ((s.frameEnd p true).linkDown p).setF F.HAUL_EVENT_LINK_LOSS p 1
    let s := s.setHaulPort p { s.haulPort p with lost := true }
    (s.portBreak p).raiseFault 32 p []

def execHaulLinkLoss (p : Nat) (s : State) (fault : Bool := false) : Out := onInstance (decide (p < 6)) (s.haulLoss p fault)

/-- HAUL_LINK_UP: every lane of the port's mode is synchronised and none in calibration. A XAUI port that receives a fault sequence stays down, and REMOTE_FAULT ends with the sequence (R227). -/
def State.haulUp (s : State) (p : Nat) (fault : Bool) : State :=
  if !s.fb F.HAUL_CTRL_EN p || s.fb F.HAUL_STATUS_LINK p || !s.haulLanesOk p || !s.lanesSynced fnHaul p || s.portBlind fnHaul p then s
  else if s.faultSeen p fault then s.setF F.HAUL_STATUS_REMOTE_FAULT p 1
  else
    let s := (((s.setF F.HAUL_STATUS_REMOTE_FAULT p 0).setF F.HAUL_STATUS_LINK p 1).setF F.HAUL_STATUS_ALIGNED p 1).setF F.HAUL_STATUS_AN_DONE p (if s.f F.HAUL_CTRL_MODE p = 2 then 1 else 0)
    (s.setHaulPort p { s.haulPort p with lost := false }).setF F.HAUL_EVENT_LINK_UP p 1

def execHaulLinkUp (p : Nat) (s : State) (fault : Bool := false) : Out := onInstance (decide (p < 6)) (s.haulUp p fault)

-- ## Rules that firmware derives (ROUTE_SET, R35, R256)

/-- `n` words of a number. -/
def putWordsAt (t : Tab Nat) (a n v : Nat) : Tab Nat := (List.range n).foldl (fun u i => Tab.set 0 u (a + i) (v / 2 ^ (32 * i) % 2 ^ 32)) t

/-- Exact entry `i`: KEY, zero, ACTION. -/
def Bank.putExact (b : Bank) (i key action : Nat) : Bank := { b with exact := putWordsAt (putWordsAt (putWordsAt b.exact (8 * i) 5 key) (8 * i + 5) 1 0) (8 * i + 6) 2 action }

/-- A ternary entry: value, mask, tile range, action. -/
structure Tern where
  value : Nat := 0
  mask : Nat := 0
  lo : Nat := 0
  hi : Nat := 0
  action : Nat := 0
deriving DecidableEq, Repr

/-- Ternary entry `i`, VALID with MODE 0. -/
def Bank.putTern (b : Bank) (i : Nat) (e : Tern) : Bank :=
  { b with tern := putWordsAt (putWordsAt (putWordsAt (putWordsAt (putWordsAt b.tern (12 * i) 4 e.value) (12 * i + 4) 4 e.mask) (12 * i + 8) 1 (e.lo + 65536 * e.hi)) (12 * i + 9) 1 1) (12 * i + 10) 2 e.action }

/-- The KT 1 key of a wall's tile and TYPE. -/
def kt1 (wall tile typ : Nat) : Nat := 2 ^ 156 + wall * 2 ^ 148 + tile * 2 ^ 132 + typ * 2 ^ 128

/-- LOCAL to a context and nothing else. -/
def localAction (c : Nat) : Nat := 2 ^ 62 + c

/-- An entry in the form that firmware derives for its own decode contexts. -/
def derivedExact (e : Nat × Nat) : Bool := decide (e.1 / 2 ^ 156 = 1) && decide (e.2 / 4096 = 2 ^ 50)

/-- Exact entries of the decode contexts: slice data, stream headers, bedrock updates. -/
def State.ownExact (s : State) : List (Nat × Nat) :=
  (s.ctxsOf (fun x => !x.enc)).flatMap (fun c => [0, 1, 2].map (fun t => (kt1 (s.ctx c).wall (s.ctx c).tile t, localAction c)))

/-- Insertion by key. -/
def insertKey (e : Nat × Nat) (l : List (Nat × Nat)) : List (Nat × Nat) :=
  match l with
  | [] => [e]
  | x :: r => if e.1 < x.1 then e :: x :: r else if e.1 = x.1 then x :: r else x :: insertKey e r

/-- A route to the hub with device address `owner`. Where that hub stands on the ring, and behind which ports, is not given: a free value of the hub, the same for every route to it. -/
def State.routeTo (s : State) (wall lo hi owner flags : Nat) : Route :=
  { wall := wall, lo := lo, hi := hi, owner := owner, flags := flags, pos := Config.freeNat 31 owner % s.ringN, ports := Config.freeNat 32 owner % 64 }

/-- Routes to one owner over tiles that follow on each other are one range. -/
def mergeRoutes (l : List Route) : List Route :=
  match l with
  | [] => []
  | r :: rest =>
    match mergeRoutes rest with
    | [] => [r]
    | q :: more => if r.owner = q.owner ∧ r.hi + 1 = q.lo then { r with hi := q.hi } :: more else r :: q :: more

/-- Where ROUTE_SET gives no route of a tile, a head derives one from OWNER (R38). -/
def State.ownerRoutes (s : State) (w : Nat) : List Route :=
  if s.ctxsOf (fun x => decide (x.wall = w) && x.enc) = [] then []
  else mergeRoutes ((s.wall w).tiles.filterMap (fun e => e.2.bind (fun g =>
    if g.owner = 0 ∨ g.owner = s.device then none else some (s.routeTo w e.1 e.1 g.owner 0))))

/-- The routes of the listed walls, in order of precedence. -/
def State.allRoutes (s : State) : List Route :=
  (s.haul.routes ++ (s.codec.walls.map (·.1)).flatMap (fun w => s.ownerRoutes w)).filter (fun r => decide (r.wall ∈ s.codec.listed) && decide (r.owner ≠ s.device))

/-- The action of a route (R22, R256): at a head on a ring the port of the shorter way, with the other as ALT and the owner's DIST; at another part on the ring ONWARD; else ports. -/
def State.routeAction (s : State) (r : Route) : Nat :=
  if !s.ringOn then r.ports * 2 ^ 50 + 7 * 2 ^ 44
  else if s.ctxsOf (fun x => decide (x.wall = r.wall) && x.enc) = [] then 2 ^ 60 + 7 * 2 ^ 44
  else
    let cw := decide (modSub s.ringN r.pos s.ringPos ≤ modSub s.ringN s.ringPos r.pos)
    2 ^ (50 + if cw then s.cwPort else s.ccwPort) + (if cw then s.ccwPort else s.cwPort) * 2 ^ 44 + (r.pos + 1) * 2 ^ 36

/-- The ternary entry of a route: TYPE 0 to 3 of its wall and tiles. Packets of TYPE 3 have WALL 0 (R233), so wall 0 takes two entries, TYPE 0 and 1, and TYPE 2. -/
def State.routeTerns (s : State) (r : Route) : List Tern :=
  let base := 15 * 2 ^ 121 + 255 * 2 ^ 109
  let e := fun (v m : Nat) => ({ value := r.wall * 2 ^ 109 + v * 2 ^ 117, mask := base + m * 2 ^ 117, lo := r.lo, hi := r.hi, action := s.routeAction r } : Tern)
  if r.wall = 0 then [e 0 14, e 2 15] else [e 0 12]

/-- A bank with the rules that firmware derives in place of those it derived before; entries of others stay. -/
def State.fwBank (s : State) (b : Bank) : Bank :=
  let kept := ((List.range b.nExact).map (fun i => (b.key i, b.action i))).filter (fun e => !derivedExact e)
  let ex := (s.ownExact).foldl (fun l e => insertKey e l) kept
  let te := s.allRoutes.flatMap s.routeTerns
  let k := b.nTern - b.fwTern
  let n := min (k + te.length) 1023
  let b1 := ((List.range 16384).zip ex).foldl (fun a e => a.putExact e.1 e.2.1 e.2.2) { b with nExact := ex.length, exact := [] }
  ((List.range (512 - k)).zip te).foldl (fun a e => a.putTern (k + e.1) e.2) { b1 with nTern := n, fwTern := n - k, tern := b.tern.filter (fun e => decide (e.1 < 12 * k)) }

/-- The counts of the staged version. A count that its field does not hold is the largest it holds, which a commit refuses (R29, R253). -/
def State.stageCounts (s : State) (ne nt : Nat) : State := (s.setF F.CLS_STAGE_COUNT_EXACT 0 (min ne 32767)).setF F.CLS_STAGE_COUNT_TERN 0 (min nt 1023)

/-- Firmware stages its rules. -/
def State.stageRules (s : State) : State :=
  let b := s.fwBank { s.haul.staged with nExact := s.f F.CLS_STAGE_COUNT_EXACT 0, nTern := s.f F.CLS_STAGE_COUNT_TERN 0 }
  (s.withHaul (fun w => { w with staged := b })).stageCounts b.nExact b.nTern

/-- Firmware enters STAGING for a command: the clone fits the command's time; none while OLD drains. -/
def State.enterStaging (s : State) : Option State :=
  if s.clsState = clsStaging then some s
  else if s.clsState = clsIdle then some (s.startClone.endClone)
  else none

/-- Every one of those who wait hears of the end. -/
def State.tellWaiters (s : State) (ws : List Waiter) (ok : Bool) : State := chainAll ws (fun w t => t.tellWaiter w ok) s

/-- Firmware frees lock 0 that it holds (R252, step 8). -/
def State.freeRuleLock (s : State) : State := if s.lockOwner 0 = 1 then s.freeLock 0 else s

/-- Firmware restages what it derives and commits it under lock 0, once a commit can start (R35, R252). -/
def State.restage (s : State) : State :=
  if !s.haul.restageDue || decide (s.clsState ≠ clsIdle) || s.lockElsewhere 0 || decide (s.stage ≠ 4) then s
  else
    let who := s.haul.restageFor
    let s := (s.withHaul (fun w => { w with restageDue := false, restageFor := [] })).setF F.SEM_LOCK_OWNER 0 1
    let s := (s.startClone.endClone.stageRules).startGo
    if s.f F.CLS_COMMIT_ERR 0 = 0 then s.withHaul (fun w => { w with commitFor := who }) else (s.abortStage.tellWaiters who false).freeRuleLock

/-- COMMIT_DONE: no packet under OLD remains (R252). A clone that waits starts; who waits for the commit hears of it. -/
def State.commitDone (s : State) : State :=
  if s.clsState ≠ clsDraining ∨ s.oldInUse = true then s
  else
    let who := s.haul.commitFor
    let clone := s.haul.cloneDue
    let s := s.withHaul (fun w => { w with old := {}, cloneDue := false, commitFor := [] })
    let s := (s.setF F.CLS_VERSION_STATE 0 clsIdle).setF F.CLS_EVENT_COMMIT_DONE 0 1
    let s := (s.tellWaiters who true).freeRuleLock
    if clone then s.startClone else s

def execCommitDone (s : State) : Out := .next s.commitDone

def execCloneDone (s : State) : Out := .next s.endClone

-- ## ROUTE_SET, RULE_STAGE, RULE_COMMIT

/-- ROUTE_SET: WALL, TILE_LO, TILE_HI, owner device, FLAGS. The rules are staged under lock 0. -/
def State.routeSet (s : State) (m : Nat) : State :=
  s.serve m 0x0030 (· = 8) (fun t =>
    let a := t.mbxArgs m
    let r := t.routeTo (byteAt a 0) (leAt a 1 2) (leAt a 3 2) (leAt a 5 2) (byteAt a 7)
    if r.wall ∉ t.codec.listed ∨ r.hi < r.lo ∨ r.owner = 0 ∨ 0xFFE < r.owner then t.putResult m stBadArg []
    else if t.lockElsewhere 0 then t.putResult m stLocked []
    else
      match t.enterStaging with
      | none => t.putResult m stBusy []
      | some u =>
        let u := u.withHaul (fun w => { w with routes := r :: w.routes.filter (fun x => ¬ (x.wall = r.wall ∧ x.lo = r.lo ∧ x.hi = r.hi)) })
        ((u.stageRules).setF F.SEM_LOCK_OWNER 0 1).putResult m stOk [])

def execRouteSet (m : Nat) (s : State) : Out := onMailbox m (s.routeSet m)

/-- A raw entry of RULE_STAGE. -/
def Bank.putRaw (b : Bank) (tern : Bool) (i : Nat) (e : List Byte) : Bank :=
  if tern then { b with tern := putWordsAt b.tern (12 * i) 12 (natOfLe e) } else { b with exact := putWordsAt b.exact (8 * i) 8 (natOfLe e) }

/-- RULE_STAGE: KIND, zero, INDEX (u16), up to 7 exact or 5 ternary entries. -/
def State.ruleStage (s : State) (m : Nat) : State :=
  s.serve m 0x0420 (fun n => decide (36 ≤ n) && decide (n ≤ 244)) (fun t =>
    let a := t.mbxArgs m
    let tern := decide (byteAt a 0 = 1)
    let size := if tern then 48 else 32
    let i := leAt a 2 2
    let n := (a.length - 4) / size
    if (a.length - 4) % size ≠ 0 ∨ n = 0 then t.putResult m stBadLength []
    else if 1 < byteAt a 0 ∨ byteAt a 1 ≠ 0 ∨ (if tern then 512 else 16384) < i + n then t.putResult m stBadArg []
    else if t.lockElsewhere 0 then t.putResult m stLocked []
    else
      match t.enterStaging with
      | none => t.putResult m stBusy []
      | some u =>
        let b := (List.range n).foldl (fun b k => b.putRaw tern (i + k) (sliceOf a (4 + size * k) size)) u.haul.staged
        let u := (u.withHaul (fun w => { w with staged := b })).setF F.SEM_LOCK_OWNER 0 1
        let F' := if tern then F.CLS_STAGE_COUNT_TERN else F.CLS_STAGE_COUNT_EXACT
        (u.setF F' 0 (max (u.f F' 0) (i + n))).putResult m stOk [])

def execRuleStage (m : Nat) (s : State) : Out := onMailbox m (s.ruleStage m)

/-- The status of a refusal of R253. -/
def commitStatus (e : Nat) : Nat := if e = 5 then stNoResource else stBadArg

/-- RULE_COMMIT: steps 4 to 7 of R252; the result comes when OLD has drained. -/
def State.ruleCommit (s : State) (m : Nat) : State :=
  s.serve m 0x0031 (· = 0) (fun t =>
    if t.lockElsewhere 0 then t.putResult m stLocked []
    else if t.clsState ≠ clsStaging then t.putResult m stBusy []
    else
      let u := t.startGo
      if u.f F.CLS_COMMIT_ERR 0 ≠ 0 then u.putResult m (commitStatus (u.f F.CLS_COMMIT_ERR 0)) []
      else u.withHaul (fun w => { w with commitFor := [.mailbox m] }))

def execRuleCommit (m : Nat) (s : State) : Out := onMailbox m (s.ruleCommit m)

-- ## HAUL_PORT_SET, DEVICE_ADDRESS_SET

/-- The port registers that HAUL_PORT_SET writes. -/
def State.writeHaulPort (s : State) (a : List Byte) : State :=
  let p := byteAt a 0
  let s := ((s.setF F.HAUL_CTRL_MODE p (byteAt a 1)).setF F.HAUL_CTRL_LANES p (byteAt a 2)).setF F.HAUL_CTRL_RATE p (byteAt a 3)
  let s := (s.setF F.HAUL_CTRL_ENCAP p (byteAt a 4)).setF F.HAUL_MTU_BYTES p (leAt a 5 2)
  let s := (s.setF F.HAUL_MAC_LO_MAC p (leAt a 7 4)).setF F.HAUL_MAC_HI_MAC p (leAt a 11 2)
  let s := (s.setF F.HAUL_CTRL_MGMT_TRUST p (byteAt a 13 % 2)).setF F.HAUL_CTRL_PROMISC p (byteAt a 13 / 2)
  (s.setF F.HAUL_CTRL_EN p 1).setF F.TMG_PORT_CTRL_EN p 1

/-- HAUL_PORT_SET: PORT, MODE, LANES, RATE, ENCAP, MTU (u16), MAC (48 bits), FLAGS. The link retrains. -/
def State.haulPortSet (s : State) (m : Nat) : State :=
  s.serve m 0x0032 (· = 14) (fun t =>
    let a := t.mbxArgs m
    let p := byteAt a 0
    let u := t.writeHaulPort a
    if 5 < p ∨ 2 < byteAt a 1 ∨ 2 < byteAt a 2 ∨ 2 < byteAt a 3 ∨ 2 < byteAt a 4 ∨ leAt a 5 2 < 64 ∨ frameMax < leAt a 5 2 ∨ 3 < byteAt a 13 then t.putResult m stBadArg []
    else if !u.haulLanesOk p then t.putResult m stBadArg []
    else (u.linkDown p).putResult m stOk [])

def execHaulPortSet (m : Nat) (s : State) : Out := onMailbox m (s.haulPortSet m)

/-- The arguments of DEVICE_ADDRESS_SET are in range (R35). That RING_POS, CW_PORT and CCW_PORT are not checked with RING_N = 0, where the part is not on a ring, is the model's choice (log entry 84). -/
def State.addressOk (s : State) (a : List Byte) : Bool :=
  let n := byteAt a 2
  let walls := a.drop 8
  decide (1 ≤ leAt a 0 2) && decide (leAt a 0 2 ≤ 0xFFE) && decide (byteAt a 7 = 0) && decide (1 ≤ byteAt a 6) && decide (byteAt a 6 ≤ 64) && decide walls.Nodup &&
    (decide (n = 0) || (decide (3 ≤ n) && decide (n ≤ 64) && decide (byteAt a 3 < n) && decide (byteAt a 4 ≤ 5) && decide (byteAt a 5 ≤ 5) && decide (byteAt a 4 ≠ byteAt a 5))) &&
    s.codec.walls.all (fun e => walls.any (fun b => decide (b.toNat = e.1)))

/-- CLS_DEVICE, CLS_RING and the wall list. -/
def State.writeAddress (s : State) (a : List Byte) : State :=
  let n := byteAt a 2
  let s := s.setF F.CLS_DEVICE_ADDR 0 (leAt a 0 2)
  let s := s.setF F.CLS_RING_EN 0 (if n = 0 then 0 else 1)
  let s := if n = 0 then s else
    (((s.setF F.CLS_RING_SIZE 0 n).setF F.CLS_RING_POS 0 (byteAt a 3)).setF F.CLS_RING_CW_PORT 0 (byteAt a 4)).setF F.CLS_RING_CCW_PORT 0 (byteAt a 5)
  s.withCodec (fun w => { w with listed := (a.drop 8).map (·.toNat) })

def State.deviceAddressSet (s : State) (m : Nat) : State :=
  s.serve m 0x0051 (fun n => n = 8 + byteAt (s.mbxCommand m) 14) (fun t =>
    let a := t.mbxArgs m
    if !t.addressOk a then t.putResult m stBadArg []
    else
      let moved := decide (t.device ≠ leAt a 0 2)
      let t := (t.writeAddress a).withHaul (fun w => { w with restageDue := true })
      let t := if moved then t.closeSession 12 else t
      if moved ∧ t.codec.walls ≠ [] then
        let j := t.fw.nextJob
        (t.startJob m .commit).withHaul (fun w => { w with restageFor := w.restageFor ++ [.job j] })
      else t.putResult m stOk [])

def execDeviceAddressSet (m : Nat) (s : State) : Out := onMailbox m (s.deviceAddressSet m)

end Sys2Proof.Machine
end

