-- ==== Sys2Proof/Machine/Mem.lean ====
section
/-! DEFINITION. The memory system (R293 to R320): timings, training, arbiters, error control, refresh and its commands. -/

namespace Sys2Proof.Machine

-- ## Timings (R296 to R298)

/-- CK in MHz, by the speed bin. -/
def State.ckMhz (s : State) (c : Nat) : Nat := [2400, 2800, 3200].getD (s.mchan c).bin 3200

/-- Timings 0 to 14 and 17 of R297 by bin. -/
def timingRow (i : Nat) : List Nat :=
  [[40, 46, 52], [38, 44, 50], [40, 46, 52], [40, 46, 52], [77, 90, 103], [117, 136, 155], [72, 84, 96], [18, 21, 24], [12, 14, 16],
   [8, 8, 8], [24, 28, 32], [6, 7, 8], [12, 14, 16], [8, 8, 8], [32, 38, 43]].getD i (if i = 17 then [9360, 10920, 12480] else [0, 0, 0])

/-- tRFC1 and tRFCsb in ns by density. -/
def rfcNs (density : Nat) (sameBank : Bool) : Nat := if sameBank then [115, 130, 190, 190].getD density 190 else [195, 295, 410, 410].getD density 410

/-- The table value of a timing, in nCK. -/
def State.timingMin (s : State) (c i : Nat) : Nat :=
  if i = 15 ∨ i = 16 then ceilDiv (rfcNs (s.f F.DDR_CONFIG_DENSITY c) (decide (i = 16)) * s.ckMhz c) 1000 else (timingRow i).getD (s.mchan c).bin 0

/-- The value in use: one below the table acts as the table's. -/
def State.timingActive (s : State) (c i : Nat) : Nat := max (s.timingMin c i) (Tab.get 0 (s.mchan c).active i)

/-- The shadow timings hand over. -/
def State.handTimings (s : State) (c : Nat) : State :=
  if s.fb F.DDR_TIMING_ARM_SHADOW_ARMED c then (s.setMchan c { s.mchan c with active := (s.mchan c).shadow }).setF F.DDR_TIMING_ARM_SHADOW_ARMED c 0 else s

/-- The channels that a CHANNEL argument names: 0xFF all. -/
def State.namedChannels (s : State) (n : Nat) : List Nat := if n = 255 then List.range s.channels else if n < s.channels then [n] else []

def State.armTimings (s : State) (c : Nat) (ps : List (Nat × Nat)) : State :=
  let m := s.mchan c
  (s.setMchan c { m with shadow := ps.foldl (fun t p => Tab.set 0 t p.1 p.2) m.shadow }).setF F.DDR_TIMING_ARM_SHADOW_ARMED c 1

/-- DDR_TIMING_SET: CHANNEL, COUNT, and pairs of INDEX and VALUE. -/
def State.timingCmd (s : State) (m : Nat) : State :=
  s.serve m 0x0441 (fun n => decide (5 ≤ n) && decide (n % 3 = 2)) (fun t =>
    let a := t.mbxArgs m
    let k := byteAt a 1
    let ps := (List.range k).map (fun i => (byteAt a (2 + 3 * i), leAt a (3 + 3 * i) 2))
    let cs := t.namedChannels (byteAt a 0)
    if k = 0 ∨ 30 < k ∨ a.length ≠ 2 + 3 * k ∨ cs = [] ∨ cs.any (fun c => ps.any (fun p => decide (17 < p.1) || decide (p.2 < t.timingMin c p.1))) = true then t.putResult m stBadArg []
    else (chainAll cs (fun c u => u.armTimings c ps) t).putResult m stOk [])

def execDdrTimingSet (m : Nat) (s : State) : Out := onMailbox m (s.timingCmd m)

-- ## The error log (R312, R313)

/-- The 16 bytes of an entry. -/
def State.memLogEntry (s : State) (line typ req dev : Nat) : List Byte :=
  let a := 64 * line
  leBytes 4 (a % 2 ^ 32) ++ leBytes 4 (a / 2 ^ 32 % 256 + typ * 2 ^ 8 + req * 2 ^ 12 + s.channelOf a * 2 ^ 16 + s.subOf a * 2 ^ 18 + s.rankOf a * 2 ^ 19 + dev % 16 * 2 ^ 20) ++ leBytes 8 s.tick4

/-- DETAIL of RETRAIN_FAIL and TRAIN_FAIL (R372): words of an entry of R312, which has no type for them, so their values are free. -/
def State.failDetail (s : State) : List Byte := Config.freeBytes 67 s.free 12

/-- COUNT and FULL follow the log. -/
def State.showMemLog (s : State) : State :=
  (s.setF F.DDR_LOG_STATUS_COUNT 0 s.mem.log.length).setF F.DDR_LOG_STATUS_FULL 0 (if s.mem.log.length = 64 then 1 else 0)

/-- An error is logged, or counted as lost in a full log. -/
def State.logMem (s : State) (line typ req dev : Nat) : State :=
  if s.mem.log.length < 64 then (s.withMem (fun w => { w with log := w.log ++ [s.memLogEntry line typ req dev] })).showMemLog
  else s.count F.DDR_LOG_LOST_COUNT 0 F.DDR_LOG_LOST_SAT 0 0

-- ## Error control (R307 to R311)

/-- A corrected error of channel `c`: log type `typ`. The line is written back where WRITEBACK asks for it, which shows nothing. -/
def State.corrected (s : State) (c line typ req dev : Nat) : State :=
  let s := (s.count F.DDR_CE_COUNT c F.DDR_CNT_SAT_SAT c 0).setF F.DDR_EVENT_CE c 1
  let s := if s.fb F.DDR_LOG_STATUS_LOG_CE 0 then s.logMem line typ req dev else s
  s.raiseFault 17 c (s.memLogEntry line typ req dev)

/-- A write to the line waits in the channel's queues. -/
def State.writeQueued (s : State) (c line : Nat) : Bool := (s.mchan c).granted.any (fun x => x.write && decide (x.line = line))

def State.poisonLine (s : State) (line : Nat) : State := s.withMem (fun w => { w with poison := if line ∈ w.poison then w.poison else line :: w.poison })

def State.cleanLine (s : State) (line : Nat) : State := s.withMem (fun w => { w with poison := w.poison.filter (· ≠ line) })

/-- An uncorrectable error: logged, and the poison pattern is written back unless a write to the line is queued. -/
def State.uncorrectable (s : State) (c line typ req dev : Nat) : State :=
  let s := (s.count F.DDR_UE_COUNT c F.DDR_CNT_SAT_SAT c 1).setF F.DDR_EVENT_UE c 1
  let s := (s.logMem line typ req dev).raiseFault 18 c (s.memLogEntry line typ req dev)
  if s.writeQueued c line then s else s.poisonLine line

/-- What a read of a line finds; a line that holds the poison pattern counts and logs nothing. -/
def State.readLine (s : State) (c line ce ue req : Nat) (e : EccResult) : State :=
  if line ∈ s.mem.poison then s
  else
    match e with
    | .clean => s
    | .corrected d => s.corrected c line ce req d
    | .uncorrectable d => s.uncorrectable c line ue req d

-- ## The arbiter (R315, R318)

/-- The requester is enabled and presents a transfer whose queue has room; in FATAL only BAR2 and the control processor are served (R367). -/
def State.canGrant (s : State) (c r : Nat) : Bool :=
  let m := s.mchan c
  s.fb F.ARB_REQ_CFG_EN (arbReg c r) && (!s.fatal || decide (r = 8) || decide (r = 9)) &&
    (m.waiting.find? (fun x => decide (x.req = r))).any (fun x => decide ((m.granted.filter (fun y => decide (y.write = x.write) && decide (s.subOf (64 * y.line) = s.subOf (64 * x.line)))).length < 32))

/-- Panic of requester 0. -/
def State.panic (s : State) : Bool := (List.range 48).any (fun n => s.fb F.RIV_CH_STATUS_PANIC n)

def State.arbWeight (s : State) (c r : Nat) : Nat := max 1 (s.f F.ARB_REQ_CFG_WEIGHT (arbReg c r))

/-- The requester that is granted next. -/
def State.pickRequester (s : State) (c : Nat) : Option Nat :=
  let m := s.mchan c
  if s.panic && s.canGrant c 0 then some 0
  else if s.canGrant c 11 then some 11
  else if decide (m.turn < 11) && s.canGrant c m.turn && decide (m.used < s.arbWeight c m.turn) then some m.turn
  else ((List.range 11).map (fun i => (m.turn + 1 + i) % 11)).find? (fun r => s.canGrant c r)

/-- A 48-bit counter in two words advances; a wrap sets WRAP (R31, R318). -/
def State.count48 (s : State) (lo hi : Fld) (c r : Nat) : State :=
  let i := arbReg c r
  let v := s.f lo i + 2 ^ 32 * s.f hi i + 1
  let s := (s.setF lo i (v % 2 ^ 32)).setF hi i (v / 2 ^ 32 % 65536)
  if v = 2 ^ 48 then s.orF F.ARB_EVENT_WRAP c r else s

/-- The counters of one FCLK in which requester `r` is granted, or none. -/
def State.countFclk (s : State) (c : Nat) (r : Option Nat) : State :=
  let rs := (List.range 12).filter (fun q => decide (some q ≠ r) && (s.mchan c).waiting.any (fun x => decide (x.req = q)))
  chainAll rs (fun q t => t.count48 F.ARB_WAITS_LO_COUNT F.ARB_WAITS_HI_COUNT c q) s

/-- MAXWAIT holds the longest wait. -/
def State.noteWait (s : State) (c r n : Nat) : State := s.setF F.ARB_MAXWAIT_FCLK (arbReg c r) (min 65535 (max n (s.f F.ARB_MAXWAIT_FCLK (arbReg c r))))

/-- The first transfer of requester `r` passes to the queues; a panic request goes ahead of all that wait there. A refused one ends with PERMISSION (R403). -/
def State.grantTo (s : State) (c r : Nat) : State :=
  let m := s.mchan c
  match m.waiting.find? (fun x => decide (x.req = r)) with
  | none => s
  | some x =>
    let turn := if r = 11 ∨ (r = 0 ∧ s.panic = true) then (m.turn, m.used) else if r = m.turn then (r, m.used + 1) else (r, 1)
    let rest := (m.waiting.erase x).map (fun y => { y with wait := y.wait + 1 })
    let s := (s.count48 F.ARB_GRANTS_LO_COUNT F.ARB_GRANTS_HI_COUNT c r).noteWait c r x.wait
    let s := s.setMchan c { s.mchan c with waiting := rest, turn := turn.1, used := turn.2 }
    if !s.permitted r (64 * x.line) x.write x.secure then (s.denyRegion r (64 * x.line) x.write).respond r x.line x.write 3
    else
      let m := s.mchan c
      s.setMchan c { m with granted := if r = 0 ∧ s.panic = true then x :: m.granted else m.granted ++ [x] }

/-- The channel takes requests: it is on, ready, and its fill has ended (R303). -/
def State.chanOpen (s : State) (c : Nat) : Bool := s.fb F.DDR_CTRL_EN c && decide (s.ddrState c = ddrReady) && !s.fb F.DDR_FILL_BUSY c

-- ## Refresh (R298, R301)

/-- Written delays come into force at a refresh. -/
def State.handDelays (s : State) (c : Nat) : State :=
  let m := s.mchan c
  s.setMchan c { m with delays := m.delayNext.foldl (fun t e => Tab.set 0 t e.1 (e.2 - 1)) m.delays, delayNext := [] }

/-- The banks that a refresh precharges: all, or one bank of every group. -/
def State.refreshRows (s : State) (c : Nat) : State :=
  let m := s.mchan c
  if s.f F.DDR_REFRESH_MODE c = 0 then s.setMchan c { m with rows := [] }
  else s.setMchan c { m with rows := m.rows.filter (fun e => decide (e.1 % 4 ≠ m.refBank)), refBank := (m.refBank + 1) % 2 ^ s.bankBits }

/-- Refresh is issued, with the intervals postponed: it ends a batch or a run in progress (R302). -/
def State.refreshNow (s : State) (c : Nat) : State :=
  let s := ((s.setMchan c { s.mchan c with postponed := 0, batch := [], hits := [] }).refreshRows c).handDelays c
  if (s.mchan c).rows = [] then s.handTimings c else s

/-- Intervals that may be postponed. -/
def State.postponeMax (s : State) (c : Nat) : Nat := min 4 (s.f F.DDR_REFRESH_POSTPONE c)

/-- Postponed intervals are caught up before any further request is served, once they pass the limit or no request is queued (R301). -/
def State.catchUp (s : State) (c : Nat) : State :=
  let m := s.mchan c
  if s.ddrState c = ddrReady ∧ 0 < m.postponed ∧ (s.postponeMax c < m.postponed ∨ m.granted = []) then s.refreshNow c else s

/-- An FCLK without a grant: every transfer that is presented waits (R318). -/
def State.noGrant (s : State) (c : Nat) : State :=
  let s := s.countFclk c none
  s.setMchan c { s.mchan c with waiting := (s.mchan c).waiting.map (fun y => { y with wait := y.wait + 1 }) }

/-- DDR_REQUEST_GRANT: one FCLK of the arbiter. -/
def State.requestGrant (s : State) (c : Nat) : State :=
  if !s.chanOpen c then s.noGrant c
  else
    let s := s.catchUp c
    match s.pickRequester c with
    | some r => (s.countFclk c (some r)).grantTo c r
    | none => s.noGrant c

def execDdrRequestGrant (c : Nat) (s : State) : Out := onInstance (memChan c) (s.requestGrant c)

-- ## Service (R299, R300, R302, R308)

def State.rowHit (s : State) (c : Nat) (x : Xfer) : Bool := decide (Tab.get 0 (s.mchan c).rows (s.bankNo (64 * x.line)) = s.rowOf (64 * x.line) + 1)

/-- Among requests of one kind, oldest first, one to an open row goes before one that needs an activate; after eight hits the oldest is served. -/
def State.byRow (s : State) (c sub : Nat) (l : List Xfer) : Option Xfer :=
  if 8 ≤ Tab.get 0 (s.mchan c).hits sub then l.head? else (l.find? (fun x => s.rowHit c x)).or l.head?

/-- A run of row hits of subchannel `sub` goes on with a read of `l`. -/
def State.runGoesOn (s : State) (c sub : Nat) (l : List Xfer) : Bool :=
  let k := Tab.get 0 (s.mchan c).hits sub
  decide (0 < k) && decide (k < 8) && l.any (fun x => s.rowHit c x)

/-- The transfer that subchannel `sub` serves next, and the writes then left in its batch. A read under panic ends neither a batch nor a run (R315); the debug port ends both (R302). -/
def State.serveNext (s : State) (c sub : Nat) : Option (Xfer × Nat) :=
  let l := (s.mchan c).granted.filter (fun x => decide (s.subOf (64 * x.line) = sub))
  let rs := l.filter (fun x => !x.write)
  let ws := l.filter (·.write)
  let left := Tab.get 0 (s.mchan c).batch sub
  let one := fun (x : Option Xfer) (k : Nat) => x.map (fun y => (y, k))
  match l.find? (fun x => decide (x.req = 11)) with
  | some d => (match l.head? with
    | some h => if h.req = 0 ∧ s.panic = true then some (h, 0) else some (d, 0)
    | none => some (d, 0))
  | none =>
    if 0 < left ∧ ws ≠ [] then one (s.byRow c sub ws) (left - 1)
    else if 24 ≤ ws.length ∨ rs = [] then one (s.byRow c sub ws) 7
    else
      match rs with
      | h :: _ => if h.req = 0 ∧ s.panic = true ∧ s.runGoesOn c sub rs = false then some (h, 0) else one (s.byRow c sub rs) 0
      | [] => none

/-- The subchannel whose request has waited longest is served; the other where it has none. -/
def State.serveSub (s : State) (c : Nat) : Option Nat := ((s.mchan c).granted.head?).map (fun x => s.subOf (64 * x.line))

/-- Writes that a replay buffer holds: how long an alert window lasts is not given, so the number is the model's choice (log entry 106). -/
def replayMax : Nat := 32

/-- A served transfer ends: its row stays open; a read meets the check code, unless a queued write to the line serves it; a write replaces the line and waits for its alert window. -/
def State.endTransfer (s : State) (c sub left : Nat) (x : Xfer) (e : EccResult) : State :=
  let m := s.mchan c
  let hit := s.rowHit c x
  let fromQueue := !x.write && s.writeQueued c x.line
  let m := { m with granted := m.granted.erase x, batch := Tab.set 0 m.batch sub left }
  let bad := !x.write && !fromQueue && (decide (x.line ∈ s.mem.poison) || e.isUncorrectable)
  let s := s.respond x.req x.line x.write (if bad then 1 else 0)
  if fromQueue then s.setMchan c m
  else
    let m := { m with rows := Tab.set 0 m.rows (s.bankNo (64 * x.line)) (s.rowOf (64 * x.line) + 1), hits := Tab.set 0 m.hits sub (if hit then Tab.get 0 m.hits sub + 1 else 0) }
    if x.write then (s.setMchan c { m with replay := Tab.set [] m.replay sub (({ line := x.line, req := x.req } :: Tab.get [] m.replay sub).take replayMax) }).cleanLine x.line
    else (s.setMchan c m).readLine c x.line 1 2 x.req e

/-- DDR_TRANSFER_COMPLETE. -/
def State.transferComplete (s : State) (c : Nat) (e : EccResult) : State :=
  let s := s.catchUp c
  match s.serveSub c with
  | none => s
  | some sub =>
    match s.serveNext c sub with
    | some (x, left) => if s.ddrState c = ddrReady then s.endTransfer c sub left x e else s
    | none => s

def execDdrTransferComplete (c : Nat) (e : EccResult) (s : State) : Out := onInstance (memChan c) (s.transferComplete c e)

/-- ARB_WATCHDOG_EXPIRE (R317): the oldest granted transfer ends with WATCHDOG, a write's line unchanged, and its requester is switched off on the channel. -/
def State.arbWatchdog (s : State) (c : Nat) : State :=
  match (s.mchan c).granted with
  | [] => s
  | x :: r =>
    let s := (s.setMchan c { s.mchan c with granted := r }).orF F.ARB_EVENT_WATCHDOG c x.req
    let s := (if x.write then s.putDram (64 * x.line) x.before else s).respond x.req x.line x.write 2
    (s.setF F.ARB_REQ_CFG_EN (arbReg c x.req) 0).raiseFault 22 (16 * c + x.req) []

def execArbWatchdogExpire (c : Nat) (s : State) : Out := onInstance (memChan c) (s.arbWatchdog c)

-- ## Refresh, pages, temperature (R300, R301)

/-- DDR_REFRESH_DUE: postponed while requests are queued, or throughout a retraining pause; otherwise issued, with those postponed. -/
def State.refreshDue (s : State) (c : Nat) : State :=
  let m := s.mchan c
  let st := s.ddrState c
  if st ≠ ddrReady ∧ st ≠ ddrRetraining then s
  else if st = ddrRetraining ∨ (m.granted ≠ [] ∧ m.postponed < s.postponeMax c) then s.setMchan c { m with postponed := m.postponed + 1 }
  else s.refreshNow c

def execDdrRefreshDue (c : Nat) (s : State) : Out := onInstance (memChan c) (s.refreshDue c)

/-- DDR_PAGE_IDLE_EXPIRE: the bank is precharged unless a queued request names its open row. -/
def State.pageIdle (s : State) (c bank : Nat) : State :=
  let m := s.mchan c
  if m.granted.any (fun x => decide (s.bankNo (64 * x.line) = bank) && s.rowHit c x) then s else s.setMchan c { m with rows := Tab.set 0 m.rows bank 0 }

def execDdrPageIdleExpire (c bank : Nat) (s : State) : Out := onInstance (memChan c) (s.pageIdle c bank)

/-- DDR_TEMP_POLL: mode register 4 of each rank is read. -/
def State.tempPoll (s : State) (c : Nat) (hot : Bool) : State :=
  if s.ddrState c = ddrReady ∨ s.ddrState c = ddrRetraining then s.setF F.DDR_STATUS_TEMP_2X c (if hot then 1 else 0) else s

def execDdrTempPoll (c : Nat) (hot : Bool) (s : State) : Out := onInstance (memChan c) (s.tempPoll c hot)

-- ## Patrol scrub and write CRC (R310, R311)

/-- Line `k` of channel `c` as a line number of DRAM. -/
def State.channelLine (s : State) (c k : Nat) : Nat := k * 2 ^ s.chanBits + (c ^^^ (k / 16 % 8 % 2 ^ s.chanBits))

/-- Lines of a channel. -/
def State.channelLines (s : State) : Nat := s.dramTop / 64 / 2 ^ s.chanBits

/-- A demand read of the line waits in the channel's queues. -/
def State.readQueued (s : State) (c line : Nat) : Bool := (s.mchan c).granted.any (fun x => !x.write && decide (x.line = line))

/-- DDR_SCRUB_READ: the next line, unless a write to it is queued. One that a demand read of the same line meets is logged by that read alone (R310); requester 10 is subject to the regions (R404). -/
def State.scrubRead (s : State) (c : Nat) (e : EccResult) : State :=
  if !(s.chanOpen c && s.fb F.DDR_CTRL_SCRUB_EN c) then s
  else
    let k := (s.mchan c).scrubAt
    let line := s.channelLine c k
    let s := s.setMchan c { s.mchan c with scrubAt := (k + 1) % s.channelLines }
    if s.writeQueued c line || s.readQueued c line then s
    else if !s.permitted 10 (64 * line) false true then (s.denyRegion 10 (64 * line) false).respond 10 line false 3
    else s.readLine c line 3 4 10 e

def execDdrScrubRead (c : Nat) (e : EccResult) (s : State) : Out := onInstance (memChan c) (s.scrubRead c e)

/-- The fourth alert of a write is its third failed replay: it is given up, its line's content undefined unless a later write of the buffer replaces it, and a retrain is due. -/
def State.giveUpWrite (s : State) (c : Nat) (x : Replay) (later : List Replay) : State :=
  let s := s.setMchan c { s.mchan c with retrainDue := true }
  let s := (s.count F.DDR_WCRC_FAIL_COUNT c F.DDR_CNT_SAT_SAT c 3).setF F.DDR_EVENT_WCRC_FAIL c 1
  let s := s.logMem x.line 5 x.req 15
  let s := if later.any (fun y => decide (y.line = x.line)) then s
    else
      let s := s.putDram (64 * x.line) ((Config.freeBytes 50 s.free 64 ++ List.replicate 64 0).take 64)
      if Config.freeBool 49 s.free then s.poisonLine x.line else s.cleanLine x.line
  s.draw.raiseFault 19 c (s.memLogEntry x.line 5 x.req 15)

/-- DDR_WRITE_CRC_ALERT (R311): the write with `back` later writes of subchannel `sub` in the replay buffer failed; it and every later write are replayed in their order, and each replay counts. -/
def State.writeAlert (s : State) (c sub back : Nat) : State :=
  let l := Tab.get [] (s.mchan c).replay sub
  match l[back]? with
  | none => s
  | some x =>
    let later := l.take back
    let give := decide (3 ≤ x.replays)
    let s := s.setMchan c { s.mchan c with replay := Tab.set [] (s.mchan c).replay sub (later ++ (if give then [] else [{ x with replays := x.replays + 1 }]) ++ l.drop (back + 1)) }
    let s := chainAll (List.range (back + (if give then 0 else 1))) (fun _ t => t.count F.DDR_WCRC_RETRY_COUNT c F.DDR_CNT_SAT_SAT c 2) s
    if give then s.giveUpWrite c x later else s

def execDdrWriteCrcAlert (c sub : Nat) (s : State) (back : Nat := 0) : Out := onInstance (memChan c && decide (sub < 2)) (s.writeAlert c sub back)

-- ## Training and retraining (R303 to R306)

/-- The longest run of consecutive steps among `l`, the lowest on a tie: first and length. -/
def longestRun (l : List Nat) : Nat × Nat :=
  (List.range 128).foldl (fun best i =>
    let n := ((List.range (128 - i)).takeWhile (fun j => decide (i + j ∈ l))).length
    if best.2 < n then (i, n) else best) (0, 0)

/-- EYE_MIN in force. -/
def State.eyeMin (s : State) (c : Nat) : Nat := max 8 (s.f F.DDR_TRAIN_EYE_MIN c)

/-- A sweep gives a delay where its run is wide enough: the delay, and the run's ends. -/
def sweepDelay (eye : Nat) (l : List Nat) : Option (Nat × Nat × Nat) :=
  let r := longestRun l
  if r.2 < eye then none else some ((r.1 + (r.1 + r.2 - 1)) / 2, r.1, r.1 + r.2 - 1)

/-- The steps of a sweep that are looked at: all, or those within 16 of the current delay. -/
def spanOf (around : Option Nat) (l : List Nat) : List Nat :=
  match around with
  | none => l
  | some d => l.filter (fun x => decide (x ≤ d + 16) && decide (d ≤ x + 16))

/-- What a training finds for a place: the delays and the eye, or none where the lane fails. -/
def State.laneResult (s : State) (c : Nat) (re : Bool) (sweep : List LaneSweep) (k : Nat) : Option (Nat × Nat) :=
  let old := Tab.get 0 (s.mchan c).delays k
  match sweep.find? (fun x => decide (10 * x.rank + x.lane = k)) with
  | none => none
  | some x =>
    match sweepDelay (s.eyeMin c) (spanOf (if re then some (old % 128) else none) x.rd), sweepDelay (s.eyeMin c) (spanOf (if re then some (old / 128) else none) x.wr) with
    | some r, some w => some (128 * w.1 + r.1, r.2.1 + 128 * r.2.2 + 16384 * w.2.1 + 2097152 * w.2.2)
    | _, _ => none

/-- The delays of the places that passed, together. -/
def State.applyTraining (s : State) (c : Nat) (rs : List (Nat × Option (Nat × Nat))) : State :=
  let m := s.mchan c
  s.setMchan c { m with
    kept := m.kept.filter (fun k => (rs.any (fun e => decide (e.1 = k) && e.2.isSome)) = false)
    delays := rs.foldl (fun t e => match e.2 with
      | some v => Tab.set 0 t e.1 v.1
      | none => t) m.delays
    eyes := rs.foldl (fun t e => match e.2 with
      | some v => Tab.set 0 t e.1 v.2
      | none => t) m.eyes }

/-- BUSY and RESULT. -/
def State.trainEnd (s : State) (c : Nat) (ok : Bool) : State := (s.setF F.DDR_TRAIN_BUSY c 0).setF F.DDR_TRAIN_RESULT c (if ok then 1 else 2)

/-- The snapshot's delays serve channel `c` in place of the sweeps: every place has one and all pass the check, whose outcome is open (R395). -/
def State.snapshotServes (s : State) (c : Nat) : Bool :=
  (s.laneSlots c).all (fun k => (Tab.get none (s.mchan c).restored k).isSome && Config.freeBool 51 (s.free + k))

/-- The training of a channel ended well: the fill follows (R303). -/
def State.trained (s : State) (c : Nat) : State := ((s.trainEnd c true).setF F.DDR_STATUS_STATE c ddrReady).setF F.DDR_FILL_BUSY c 1

/-- DDR_TRAINING_DONE: the training of FW_INIT ends (R303 to R305); the fill follows. -/
def State.trainingDone (s : State) (c : Nat) (sweep : List LaneSweep) : State :=
  if s.ddrState c ≠ ddrTraining then s
  else if s.snapshotServes c then
    let m := s.mchan c
    let ks := s.laneSlots c
    (s.draw.setMchan c { m with restored := [], delays := ks.foldl (fun t k => Tab.set 0 t k ((Tab.get none m.restored k).getD 0)) m.delays, kept := (m.kept ++ ks).eraseDups }).trained c
  else
    let s := s.draw.setMchan c { s.mchan c with restored := [] }
    let rs := (s.laneSlots c).map (fun k => (k, s.laneResult c false sweep k))
    let s := s.applyTraining c rs
    if rs.all (fun e => e.2.isSome) then s.trained c
    else ((s.trainEnd c false).setF F.DDR_STATUS_STATE c ddrFailed).draw.raiseFault 21 c s.failDetail

def execDdrTrainingDone (c : Nat) (sweep : List LaneSweep) (s : State) : Out := onInstance (memChan c) (s.trainingDone c sweep)

/-- The part has lamp ports in use. -/
def State.hasLampPorts (s : State) : Bool := allPorts.any (fun n => (s.port n).en)

/-- A pause may begin: no other channel is in retraining, and with lamp ports GRID0 is in a gap in which none was retrained. -/
def State.mayPause (s : State) : Bool := !s.hasLampPorts || ((s.grid 0).inGap && !s.mem.gapUsed)

/-- The pause of a retrain begins. -/
def State.beginRetrain (s : State) (c : Nat) : State :=
  ((s.setMchan c { s.mchan c with retrainDue := false }).setF F.DDR_STATUS_STATE c ddrRetraining).setF F.DDR_TRAIN_BUSY c 1

/-- DDR_RETRAIN_START: a retrain that is due begins, though not during a live handover (R66). -/
def State.retrainStart (s : State) (c : Nat) : State :=
  if (s.mchan c).retrainDue && decide (s.ddrState c = ddrReady) && s.mayPause && !s.inHandover then (s.beginRetrain c).withMem (fun w => { w with gapUsed := true }) else s

def execDdrRetrainStart (c : Nat) (s : State) : Out := onInstance (memChan c) (s.retrainStart c)

/-- Jobs of DDR_RETRAIN that wait for channel `c` end. -/
def State.endRetrainJobs (s : State) (c : Nat) (ok : Bool) : State :=
  chainAll (s.fw.jobs.filter (fun j => decide (j.state = .running) && decide (j.work = .retrain [c]))) (fun j t => t.endJob j.num ok (if ok then stOk else stInternal)) s

/-- DDR_RETRAIN_DONE: all new delays together; a lane that fails keeps its own. -/
def State.retrainDone (s : State) (c : Nat) (sweep : List LaneSweep) : State :=
  if s.ddrState c ≠ ddrRetraining then s
  else
    let rs := (s.laneSlots c).map (fun k => (k, s.laneResult c true sweep k))
    let ok := rs.all (fun e => e.2.isSome)
    let s := ((s.applyTraining c rs).trainEnd c ok).setF F.DDR_STATUS_STATE c ddrReady
    let s := if ok then s else (s.setF F.DDR_EVENT_RETRAIN_FAIL c 1).draw.raiseFault 20 c s.failDetail
    s.endRetrainJobs c ok

def execDdrRetrainDone (c : Nat) (sweep : List LaneSweep) (s : State) : Out := onInstance (memChan c) (s.retrainDone c sweep)

/-- DDR_DRIFT_CHECK: a drift beyond DRIFT_MAX makes a retrain due. -/
def State.driftCheck (s : State) (c drift : Nat) : State :=
  if decide (s.ddrState c = ddrReady) && decide (s.stage = 4) && !s.pwr.cpHalted && decide (max 1 (s.f F.DDR_DRIFT_DRIFT_MAX c) < drift) then
    (s.setF F.DDR_EVENT_DRIFT c 1).setMchan c { s.mchan c with retrainDue := true }
  else s

def execDdrDriftCheck (c drift : Nat) (s : State) : Out := onInstance (memChan c) (s.driftCheck c drift)

/-- DDR_RETRAIN: the retrain is due, as a job. -/
def State.retrainCmd (s : State) (m : Nat) : State :=
  s.serve m 0x0440 (· = 1) (fun t =>
    let c := byteAt (t.mbxArgs m) 0
    if t.channels ≤ c then t.putResult m stBadArg []
    else (t.setMchan c { t.mchan c with retrainDue := true }).startJob m (.retrain [c]))

def execDdrRetrain (m : Nat) (s : State) : Out := onMailbox m (s.retrainCmd m)

/-- START of DDR_TRAIN: a retrain at once; one asked for on entry to self-refresh starts after the exit. -/
def State.trainStart (s : State) (c : Nat) : State :=
  if s.ddrState c = ddrReady then s.beginRetrain c
  else if s.ddrState c = ddrSelfRefresh then s.setMchan c { s.mchan c with retrainDue := true }
  else s

/-- START of DDR_FILL: discarded while EN = 1. -/
def State.fillStart (s : State) (c : Nat) : State := if s.fb F.DDR_CTRL_EN c ∨ s.ddrState c ≠ ddrReady then s else s.setF F.DDR_FILL_BUSY c 1

/-- DDR_FILL_DONE: every line of the channel that requester 10 may write is zero with a valid check code. At FW_INIT firmware then sets EN. -/
def State.fillDone (s : State) (c : Nat) : State :=
  if !s.fb F.DDR_FILL_BUSY c then s
  else
    let s := { s with dram := s.dram.filter (fun e => decide (s.channelOf e.1 ≠ c) || !s.permitted 10 e.1 true true) }
    let s := (s.withMem (fun w => { w with poison := w.poison.filter (fun l => decide (s.channelOf (64 * l) ≠ c) || !s.permitted 10 (64 * l) true true) })).setF F.DDR_FILL_BUSY c 0
    if s.stage = 3 then s.setF F.DDR_CTRL_EN c 1 else s

def execDdrFillDone (c : Nat) (s : State) : Out := onInstance (memChan c) (s.fillDone c)

/-- CLEAR of DDR_LOG_STATUS empties the log (R313). -/
def State.clearMemLog (s : State) : State := (s.withMem (fun w => { w with log := [] })).showMemLog

end Sys2Proof.Machine
end

