-- ==== Sys2Proof/Machine/Lanes.lean ====
section
/-! DEFINITION. Lanes (R321 to R333, R342, R343, R393): signals, calibration windows, changes of the lane map. -/

namespace Sys2Proof.Machine

def State.laneFunc (s : State) (n : Nat) : Nat := s.f F.LANE_CFG_FUNC n

def State.lanePort (s : State) (n : Nat) : Nat := s.f F.LANE_CFG_PORT n

/-- LANE_SYNC of the haul ports follows their lanes. -/
def State.showLaneSync (s : State) : State :=
  chainAll (List.range 6) (fun p t =>
    let ls := t.portLanes fnHaul p
    t.setF F.HAUL_STATUS_LANE_SYNC p ((List.range 4).foldl (fun a k => if (ls.filter (fun l => decide (t.f F.LANE_CFG_PORT_LANE l = k) && t.fb F.LANE_STATUS_SYNC l)) ≠ [] then a + 2 ^ k else a) 0)) s

-- ## Calibration windows (R200, R329, R342)

/-- At least 8 µs remain before the next sync of grid `g`, in its gap. -/
def State.gapOpen (s : State) (g : Nat) : Bool :=
  let x := s.grid g
  x.inGap && decide (s.now + 8000 ≤ (s.wall x.wall).sync x.k)

/-- Haul ports of the lanes calibrated in the present gap. -/
def State.gapHaul (s : State) : List Nat := (s.lane.gap.filter (fun l => decide (s.laneFunc l = fnHaul))).map (fun l => s.lanePort l)

/-- At least 8 µs remain before the next FIRST frame of the leader of wall `w`, by its picture clock (R330, R342). -/
def State.pictureGap (s : State) (w : Nat) : Bool :=
  match s.wall? w with
  | none => true
  | some k =>
    let period := k.rateDen * 10 ^ 9 / k.rateNum
    decide (k.lineTime = 0) || decide (8000 ≤ period - (s.now - k.lineTime) % period)

/-- The window of lane `n` is open. -/
def State.laneWindow (s : State) (n : Nat) : Bool :=
  let p := s.lanePort n
  if s.laneFunc n = fnLamp then
    !(s.port p).en ||
      (s.gapOpen (s.port p).grid && decide ((s.lane.gap.filter (fun l => decide (s.laneFunc l = fnLamp) && decide (s.laneGrid l = s.laneGrid n))).length < 8) &&
        !s.lane.gap.any (fun l => decide (s.laneFunc l = fnLamp) && decide (s.lanePort l = (s.port p).partner)))
  else if s.laneFunc n = fnHaul then
    if s.hasLampPorts then
      s.gapOpen 0 && decide (p ∉ s.gapHaul) && !(s.ringPort p && s.gapHaul.any (fun q => s.ringPort q))
    else !s.portBlind fnHaul p
  else if s.laneFunc n = fnIngress then
    s.pictureGap (s.f F.ING_CTRL_WALL p) && (List.range 8).all (fun q => decide (s.f F.ING_CTRL_WALL q ≠ s.f F.ING_CTRL_WALL p) || (s.ing q).pic.isNone)
  else true

/-- Restored values of lane `n` are applied in one step (R395). -/
def State.applyRestored (s : State) (n : Nat) : State :=
  match Tab.get none s.lane.restored n with
  | some v => ((s.setF F.LANE_STATUS_PEAK_NOW n (v / 64)).setF F.LANE_STATUS_CDR_OFS n (v % 64)).withLane (fun w => { w with restored := Tab.set none w.restored n none })
  | none => s

/-- BUSY of CAL_STATUS. -/
def State.showCal (s : State) : State := s.setF F.CAL_STATUS_BUSY 0 (if (List.range 60).any (fun l => s.fb F.LANE_STATUS_CAL l) then 1 else 0)

/-- CAL of lane `n`, and the blind receiver of a lamp port. -/
def State.setCal (s : State) (n v : Nat) : State :=
  let s := s.setF F.LANE_STATUS_CAL n v
  (if s.laneFunc n = fnLamp ∧ s.lanePort n < 48 then s.setF F.LMP_PORT_STATUS_RX_CAL (s.lanePort n) v else s).showCal

/-- Haul frames in reception that cross the blind period are spoiled. -/
def State.spoilFrame (s : State) (p : Nat) : State :=
  match (s.haulPort p).rx with
  | some r => s.setRx p (some { r with spoiled := true })
  | none => s

/-- LANE_CAL_START: restored values first; then a calibration that is due begins in its window. Neither happens during a live handover (R66). -/
def State.laneCalBegin (s : State) (n : Nat) : State :=
  if 60 ≤ n ∨ s.laneWindow n = false ∨ s.inHandover = true then s
  else
    let s := s.applyRestored n
    if n ∉ s.lane.due ∨ s.fb F.LANE_STATUS_CAL n = true then s
    else
      let s := (s.withLane (fun w => { w with due := w.due.filter (· ≠ n), gap := n :: w.gap })).setCal n 1
      if s.laneFunc n = fnHaul then s.spoilFrame (s.lanePort n) else s

def execLaneCalStart (n : Nat) (s : State) : Out := onInstance (laneOk n) (s.laneCalBegin n)

/-- The jobs of LANE_RECAL that wait for lane `n` end. -/
def State.endRecal (s : State) (n : Nat) (ok : Bool) : State :=
  chainAll (s.fw.jobs.filter (fun j => decide (j.state = .running) && decide (j.work = .recal [n]))) (fun j t => t.endJob j.num ok (if ok then stOk else stInternal)) s

/-- LANE_CAL_DONE: PEAK and CDR_OFS take effect together. -/
def State.laneCalEnd (s : State) (n peak ofs : Nat) : State :=
  if !s.fb F.LANE_STATUS_CAL n then s
  else
    let s := s.setF F.LANE_STATUS_PEAK_NOW n (if s.fb F.LANE_RX_PEAK_FIXED n then s.f F.LANE_RX_PEAK n else peak)
    let s := ((s.setF F.LANE_STATUS_CDR_OFS n ofs).setF F.LANE_EVENT_CAL_DONE n 1).setCal n 0
    ((s.setF F.CAL_STATUS_DONE 0 1).setF F.CAL_STATUS_LANE 0 n).endRecal n true

def execLaneCalDone (n peak ofs : Nat) (s : State) : Out := onInstance (laneOk n) (s.laneCalEnd n (peak % 16) (ofs % 64))

/-- A calibration stops with nothing applied (R330). -/
def State.calAbort (s : State) (n : Nat) : State :=
  if s.fb F.LANE_STATUS_CAL n then ((s.setCal n 0).setF F.LANE_EVENT_CAL_ABORT n 1).endRecal n false else s

-- ## Signals (R323, R324, R327, R343)

/-- LANE_SIGNAL_CHANGE. -/
def State.laneSignal (s : State) (n : Nat) (up : Bool) : State :=
  if up then (s.setF F.LANE_STATUS_SIGNAL n 1).setF F.LANE_STATUS_CDR_LOCK n 1
  else (((s.calAbort n).setF F.LANE_STATUS_SIGNAL n 0).setF F.LANE_STATUS_CDR_LOCK n 0).setF F.LANE_EVENT_LOS n 1

def execLaneSignalChange (n : Nat) (up : Bool) (s : State) : Out := onInstance (laneOk n) (s.laneSignal n up)

/-- Counter k of a lane: 0 DISP_ERR, 1 CODE_ERR, 2 SYNC_LOSS, 3 PRBS_ERR. -/
def State.laneCount (s : State) (n k : Nat) : State := s.count F.LANE_CNT_COUNT (4 * n + k) F.LANE_CNT_SAT_SAT n k

/-- LANE_SYNC_LOSS: not counted in the blind period. -/
def State.laneUnsync (s : State) (n : Nat) : State :=
  if !s.fb F.LANE_STATUS_SYNC n then s
  else
    let t := (s.setF F.LANE_STATUS_SYNC n 0).showLaneSync
    if s.fb F.LANE_STATUS_CAL n then t else (t.laneCount n 2).setF F.LANE_EVENT_SYNC_LOSS n 1

def execLaneSyncLoss (n : Nat) (s : State) : Out := onInstance (laneOk n) (s.laneUnsync n)

/-- LANE_SYNC_ACQUIRE. -/
def State.laneSyncs (s : State) (n : Nat) : State := if s.fb F.LANE_CFG_EN n && s.fb F.LANE_STATUS_CDR_LOCK n then (s.setF F.LANE_STATUS_SYNC n 1).showLaneSync else s

def execLaneSyncAcquire (n : Nat) (s : State) : Out := onInstance (laneOk n) (s.laneSyncs n)

/-- PRBS_LOCK on a TEST lane whose check is on: errored bits counted after the lock. -/
def State.prbs (s : State) (n errs : Nat) : State :=
  if s.fb F.LANE_CFG_EN n && decide (s.laneFunc n = fnTest) && s.fb F.LANE_PRBS_CHK n then
    let v := min (2 ^ 32 - 1) (s.f F.LANE_CNT_COUNT (4 * n + 3) + errs)
    let s := (s.setF F.LANE_STATUS_PRBS_LOCK n 1).setF F.LANE_CNT_COUNT (4 * n + 3) v
    if v = 2 ^ 32 - 1 then s.orF F.LANE_CNT_SAT_SAT n 3 else s
  else s

def execPrbsLock (n errs : Nat) (s : State) : Out := onInstance (laneOk n) (s.prbs n errs)

/-- A frame in progress on the lane's port ends as aborted (R324, R337); of a lamp port nothing of it is left. -/
def State.abortFrame (s : State) (n : Nat) : State :=
  let p := s.lanePort n
  if s.laneFunc n = fnHaul then s.frameEnd p true
  else if s.laneFunc n = fnIngress ∧ p < 8 ∧ s.fb F.ING_STATUS_LINK p = true then s.ingDrop p 2
  else s

/-- CODE_ERR; characters of the blind period are discarded. -/
def State.codeError (s : State) (n : Nat) (k : CodeErrKind) : State :=
  if s.fb F.LANE_STATUS_CAL n then s
  else
    match k with
    | .disparity => s.laneCount n 0
    | .controlFrame => (s.laneCount n 1).abortFrame n
    | _ => s.laneCount n 1

def execCodeErr (n : Nat) (k : CodeErrKind) (s : State) : Out := onInstance (laneOk n) (s.codeError n k)

-- ## Quad PLLs (R321)

/-- A lane of quad `q` runs; those of quad 15 always do. -/
def State.quadOn (s : State) (q : Nat) : Bool := (List.range 4).any (fun k => s.fb F.LANE_CFG_EN (4 * q + k))

/-- LANE_PLL_LOCK: a powered PLL reaches lock. -/
def State.pllLock (s : State) (q : Nat) : State := if s.quadOn q then s.orF F.CLK_STATUS_LANE_LOCK 0 q else s

def execLanePllLock (q : Nat) (s : State) : Out := onInstance (decide (q < 16)) (s.pllLock q)

/-- The PLL of a quad without a running lane is off. -/
def State.quadPower (s : State) (n : Nat) : State := if s.quadOn (n / 4) then s else s.clrF F.CLK_STATUS_LANE_LOCK 0 (2 ^ (n / 4))

-- ## Changes of the lane map (R331 to R333)

/-- Every lane that claims a port without a legal set is in conflict (R332). -/
def State.markConflicts (s : State) : State :=
  chainAll (List.range 60) (fun l t =>
    let f := t.laneFunc l
    let p := t.lanePort l
    if t.fb F.LANE_CFG_EN l && decide (1 ≤ f) && decide (f ≤ 3) && (decide (portsOf f ≤ p) || !t.portLegal f p) then t.setF F.LANE_EVENT_CONFLICT l 1 else t) s

/-- A port that lost or gained a lane goes down, each kind by its own rules; a lamp port that gains its one lane has lost nothing (R333). -/
def State.portChanged (s : State) (f p : Nat) (gains : Bool) : State :=
  if f = fnHaul ∧ p < 6 then s.haulLoss p false
  else if f = fnIngress ∧ p < 8 then s.pixelDown p
  else if f = fnLamp ∧ p < 48 ∧ (s.port p).en = true ∧ (gains && s.portLegal fnLamp p) = false then s.rxLos p true
  else s

/-- Lane `n` has been written: `f0`, `p0`, `e0` held before. It acquires synchronisation anew, and both its ports are affected. -/
def State.laneChanged (s : State) (n f0 p0 e0 : Nat) : State :=
  let s := ((s.setF F.LANE_STATUS_SYNC n 0).setF F.LANE_STATUS_PRBS_LOCK n 0).quadPower n
  let s := if e0 = 1 then s.portChanged f0 p0 false else s
  let s := if s.fb F.LANE_CFG_EN n then s.portChanged (s.laneFunc n) (s.lanePort n) true else s
  s.markConflicts.showLaneSync

/-- A write of LANE_CFG takes effect: a calibration stops first (R330); a lane whose settings stay as they are runs on. -/
def State.writeLaneCfg (s : State) (n w : Nat) : State :=
  if 60 ≤ n then s
  else
    let s := s.calAbort n
    let f0 := s.laneFunc n
    let p0 := s.lanePort n
    let e0 := s.f F.LANE_CFG_EN n
    let t := s.putLaneCfg n (w / 2 ^ 31) (w / 2 ^ 24 % 8) (w / 2 ^ 16) (w / 2 ^ 12) w (w / 2 ^ 9) (w / 2 ^ 8)
    if t = s then s else t.laneChanged n f0 p0 e0

/-- A write of LANE_RX: PEAK_NOW follows a fixed peaking (R326). -/
def State.writeLaneRx (s : State) (n w : Nat) : State :=
  let s := ((s.calAbort n).setF F.LANE_RX_PEAK_FIXED n (w / 2 ^ 8)).setF F.LANE_RX_PEAK n w
  if s.fb F.LANE_RX_PEAK_FIXED n then s.setF F.LANE_STATUS_PEAK_NOW n (s.f F.LANE_RX_PEAK n) else s

/-- An entry of LANE_CONFIG is in range. -/
def laneEntryOk (e : List Byte) : Bool :=
  decide (byteAt e 0 < 60) && decide (byteAt e 1 ≤ 3) && (decide (byteAt e 1 = 0) || decide (byteAt e 2 < portsOf (byteAt e 1))) && decide (byteAt e 3 ≤ 3) && decide (byteAt e 4 ≤ 3) &&
    decide (byteAt e 5 % 128 ≤ 3) && decide (byteAt e 6 / 64 = 0) && decide (byteAt e 6 / 8 % 2 = 0) && (decide (byteAt e 7 ≤ 15) || decide (byteAt e 7 = 255))

/-- LANE_CFG of an entry, as a word. -/
def laneEntryWord (e : List Byte) : Nat :=
  2 ^ 31 + byteAt e 1 * 2 ^ 24 + byteAt e 2 * 2 ^ 16 + byteAt e 3 * 2 ^ 12 + byteAt e 5 / 2 % 2 * 2 ^ 9 + byteAt e 5 % 2 * 2 ^ 8 + byteAt e 4

/-- An entry takes effect. -/
def State.applyEntry (s : State) (e : List Byte) : State :=
  let n := byteAt e 0
  let s := s.writeLaneCfg n (laneEntryWord e)
  let s := (s.setF F.LANE_TX_AMP n (byteAt e 6 / 16)).setF F.LANE_TX_DEEMPH n (byteAt e 6 % 8)
  let s := s.writeLaneRx n (if byteAt e 7 = 255 then s.f F.LANE_RX_PEAK n else 256 + byteAt e 7)
  if 128 ≤ byteAt e 5 then { s with conf := { s.conf with lanes := Tab.set [] s.conf.lanes n e } } else s

/-- LANE_CONFIG: COUNT and its entries; the whole set is checked before it applies. -/
def State.laneCmd (s : State) (m : Nat) : State :=
  s.serve m 0x0430 (fun n => decide (n % 8 = 1) && decide (9 ≤ n)) (fun t =>
    let a := t.mbxArgs m
    let k := byteAt a 0
    let es := (List.range k).map (fun i => sliceOf a (1 + 8 * i) 8)
    if k = 0 ∨ 16 < k then t.putResult m stBadArg []
    else if a.length ≠ 1 + 8 * k then t.putResult m stBadLength []
    else if es.all laneEntryOk = false ∨ (chainAll es (fun e u => u.tryEntry e) t).lanesLegal = false then t.putResult m stBadArg []
    else (chainAll es (fun e u => u.applyEntry e) t).putResult m stOk [])

def execLaneConfig (m : Nat) (s : State) : Out := onMailbox m (s.laneCmd m)

/-- A calibration of lane `n` is due; one in progress is joined (R330). -/
def State.calDue (s : State) (n : Nat) : State := if n ∈ s.lane.due ∨ s.fb F.LANE_STATUS_CAL n = true then s else s.withLane (fun w => { w with due := w.due ++ [n] })

/-- LANE_RECAL. -/
def State.recalCmd (s : State) (m : Nat) : State :=
  s.serve m 0x0431 (· = 1) (fun t =>
    let n := byteAt (t.mbxArgs m) 0
    if 59 < n then t.putResult m stBadArg [] else (t.calDue n).startJob m (.recal [n]))

def execLaneRecal (m : Nat) (s : State) : Out := onMailbox m (s.recalCmd m)

/-- CAL_SCHEDULE (R393): the period or a change of temperature makes a calibration due. -/
def State.calSched (s : State) (n : Nat) : State := if s.fb F.LANE_CFG_EN n && decide (n < 60) then s.calDue n else s

def execCalSchedule (n : Nat) (s : State) : Out := onInstance (laneOk n) (s.calSched n)

/-- SENSOR_CAL (R393): the offset of a sensor or monitor is corrected in one step. -/
def execSensorCal (k : Nat) (s : State) : Out := onInstance (decide (k < 16)) (if s.inHandover then s else s.setF F.CAL_STATUS_DONE 0 1)

-- ## SYNC_GAP_START (R200, R395)

/-- The gap opens the windows of restored lane values and DRAM delays, which wait during a live handover (R66). -/
def State.gapRestore (s : State) (g : Nat) : State :=
  if s.inHandover then s.gapStart g else chainAll (List.range 60) (fun n t => if (Tab.get none t.lane.restored n).isSome && t.laneWindow n then t.applyRestored n else t) (s.gapStart g)

end Sys2Proof.Machine
end

