-- ==== Sys2Proof/Machine/Power.lean ====
section
/-! DEFINITION. Clocks, power, calibration records and timers (R376 to R398). -/

namespace Sys2Proof.Machine

-- ## The time base (R377, R378)

/-- A sync grid is enabled. -/
def State.anyGrid (s : State) : Bool := (List.range 4).any (fun g => s.fb F.LMP_GRID_STATUS_EN g)

/-- A write of CLK_TB_STEP_LO adds the signed value of both words to C; with a grid enabled, a step beyond 4,000 units is refused. -/
def State.stepTime (s : State) (lo : Nat) : State :=
  let v := signed 64 (s.f F.CLK_TB_STEP_HI_STEP 0 * 2 ^ 32 + lo)
  if s.anyGrid && decide (4000 < v.natAbs) then (s.setF F.CLK_EVENT_STEP_REFUSED 0 1).count F.CLK_STEP_REFUSED_COUNT 0 F.CLK_EVENT_REFUSED_SAT 0 0
  else s.withTime (fun t => { t with c := (((t.c : Nat) : Int) + v).toNat })

-- ## PTP (R379)

/-- PTP_LOCKED; each change sets PTP_STATE. -/
def State.setLocked (s : State) (v : Bool) : State :=
  if s.fb F.CLK_EVENT_PTP_LOCKED 0 = v then s else (s.setF F.CLK_EVENT_PTP_LOCKED 0 (if v then 1 else 0)).setF F.CLK_EVENT_PTP_STATE 0 1

/-- Every wall is paused, or restarted as by PLAY with START = 0 (R388). -/
def State.pauseWalls (s : State) (v : Bool) : State :=
  chainAll (s.codec.walls.map (·.1)) (fun w t => if (t.wall? w).isNone then t else if v then t.pauseWall w else t.playWall w 0) s

/-- After a wake the walls restart when PTP reports LOCKED, or at once where no PTP runs (R390). -/
def State.resumeWalls (s : State) : State :=
  if s.pwr.resumeDue && (decide (s.fw.ptp = []) || s.fb F.CLK_EVENT_PTP_LOCKED 0) then (s.pauseWalls false).withPwr (fun w => { w with resumeDue := false }) else s

def ptpArgsOk (a : List Byte) : Bool :=
  decide (byteAt a 0 ≤ 2) && decide (byteAt a 1 ≤ 127) && decide (byteAt a 2 < 64) && decide (byteAt a 3 ≤ 2) && decide (byteAt a 4 ≤ 1) &&
    decide (-7 ≤ signed 8 (byteAt a 5)) && decide (signed 8 (byteAt a 5) ≤ 0)

/-- PTP_CONFIG: the servo starts afresh. -/
def State.ptpCmd (s : State) (m : Nat) : State :=
  s.serve m 0x0050 (· = 8) (fun t =>
    let a := t.mbxArgs m
    if !ptpArgsOk a then t.putResult m stBadArg []
    else ((t.withFw (fun w => { w with ptp := a, ptpMaster := false, ptpGood := 0 })).setLocked false).putResult m stOk [])

def execPtpConfig (m : Nat) (s : State) : Out := onMailbox m (s.ptpCmd m)

/-- PTP_SYNC_PROCESS: a Sync message by its offset, or the part as grandmaster. Firmware slews with the trim. -/
def State.ptpSync (s : State) (offset : Int) (gm : Bool) (trim : Nat) : State :=
  if s.fw.ptp = [] ∨ s.stage ≠ 4 ∨ s.pwr.cpHalted = true then s
  else if gm && decide (byteAt s.fw.ptp 0 ≠ 0) then ((s.withFw (fun w => { w with ptpMaster := true, ptpGood := 0 })).setLocked true).resumeWalls
  else
    let n := if offset.natAbs ≤ 100 then s.fw.ptpGood + 1 else 0
    let s := (s.withFw (fun w => { w with ptpMaster := false, ptpGood := min n 16 })).setF F.CLK_TB_TRIM_PPB 0 trim
    let s := if 16 ≤ n then s.setLocked true else if 1000 < offset.natAbs then s.setLocked false else s
    s.resumeWalls

def execPtpSyncProcess (offset : Int) (gm : Bool) (trim : Word) (s : State) : Out := .next (s.ptpSync offset gm trim.toNat)

-- ## Shedding (R384 to R386)

/-- OFFSET of stage `k` in force, in 0.1 %. -/
def State.shedOffset (s : State) (k : Nat) : Int := clip (signed 8 (s.f F.PWR_SHED_THR_OFFSET (k - 1))) (-10) 10

/-- The threshold of stage `k` in 0.1 % of REF_MV. -/
def shedPermille (k : Nat) (off : Int) : Int := 1000 - 10 * (k + 2 : Nat) + off

/-- `mv` is below the threshold of stage `k`. -/
def State.belowStage (s : State) (mv k : Nat) : Bool := decide ((1000 * mv : Nat) < (s.f F.PWR_SETPOINT_REF_MV 0 : Int) * shedPermille k (s.shedOffset k))

/-- A change of stage: the event, the log, and the lamp ports. -/
def State.setStage (s : State) (k : Nat) : State := (((s.setF F.PWR_STATUS_STAGE 0 k).setF F.PWR_EVENT_SHED 0 1).logFirmware 0).refreshPorts

/-- SHED_STAGE_ENTER: the deepest stage crossed, at once; the sixth resets the part, but not in FATAL. -/
def State.shedEnter (s : State) (mv : Nat) : State :=
  let s := s.setF F.PWR_VMIN_MV 0 (min (s.f F.PWR_VMIN_MV 0) mv)
  let k := ((List.range 6).map (· + 1)).foldl (fun a i => if s.belowStage mv i then i else a) 0
  if k = 6 ∧ s.fatal = false then s.chipReset
  else if s.f F.PWR_STATUS_STAGE 0 < min k 5 then s.setStage (min k 5)
  else s

def execShedStageEnter (mv : Nat) (s : State) : Out := .next (s.shedEnter mv)

/-- SHED_STAGE_LIFT: the deepest stage lifts when the voltage stayed above its threshold plus 1 % of REF_MV. -/
def State.shedLift (s : State) (mv : Nat) : State :=
  let k := s.f F.PWR_STATUS_STAGE 0
  if k = 0 then s
  else if (s.f F.PWR_SETPOINT_REF_MV 0 : Int) * (shedPermille k (s.shedOffset k) + 10) < (1000 * mv : Nat) then s.setStage (k - 1)
  else s

def execShedStageLift (mv : Nat) (s : State) : Out := .next (s.shedLift mv)

/-- SHED_THRESHOLD_SET: the six thresholds stay strictly ordered. -/
def State.shedCmd (s : State) (m : Nat) : State :=
  s.serve m 0x0470 (· = 2) (fun t =>
    let k := byteAt (t.mbxArgs m) 0
    let off := signed 8 (byteAt (t.mbxArgs m) 1)
    if k = 0 ∨ 6 < k ∨ off < -10 ∨ 10 < off then t.putResult m stBadArg []
    else
      let u := t.setF F.PWR_SHED_THR_OFFSET (k - 1) (byteAt (t.mbxArgs m) 1)
      if (List.range 5).all (fun i => decide (shedPermille (i + 2) (u.shedOffset (i + 2)) < shedPermille (i + 1) (u.shedOffset (i + 1)))) then u.putResult m stOk []
      else t.putResult m stBadArg [])

def execShedThresholdSet (m : Nat) (s : State) : Out := onMailbox m (s.shedCmd m)

-- ## AVS (R382, R383)

/-- The setpoint in mV that OTP and the temperature give. -/
def State.avsTarget (s : State) (tj : Int) : Nat :=
  let base : Int := (natOfLe (s.otpBytes 0x010 2) : Nat)
  let tc := signed 16 (natOfLe (s.otpBytes 0x012 2))
  (clip (base + asr (tc * max 0 (25 - tj)) 8) 680 820).toNat

/-- `mv` as LINEAR16 mantissa with the signed exponent code `x`, rounded to nearest by the model's choice (log entry 109). -/
def linear16 (x mv : Nat) : Nat :=
  let e := signed 5 x
  if e < 0 then (2 * mv * 2 ^ e.natAbs + 1000) / 2000 % 65536 else (2 * mv + 1000 * 2 ^ e.natAbs) / (2000 * 2 ^ e.natAbs) % 65536

/-- VOUT_COMMAND goes to the regulator (R382). -/
def State.sendVout (s : State) (mv : Nat) : State :=
  s.withFw (fun w => { w with vout := (s.f F.PWR_PMBUS_ADDR 0, linear16 (s.f F.PWR_PMBUS_VOUT_EXP 0) mv) :: w.vout })

/-- VOUT_COMMAND: a step of at most 5 mV towards the goal; REF_MV follows a lowered setpoint at once. -/
def State.avsCommand (s : State) : State :=
  let c := s.f F.PWR_SETPOINT_CMD_MV 0
  let v := if c < s.fw.avsGoal then min s.fw.avsGoal (c + 5) else max s.fw.avsGoal (c - 5)
  if v = c then s
  else
    let s := ((s.setF F.PWR_SETPOINT_CMD_MV 0 v).withFw (fun w => { w with avsTries := 1 })).sendVout v
    if v < c then s.setF F.PWR_SETPOINT_REF_MV 0 (min v (s.f F.PWR_SETPOINT_REF_MV 0)) else s

/-- AVS_STEP: firmware's goal; a step goes out where none waits for its reading. -/
def State.avs (s : State) (tj : Int) : State :=
  if (s.stage ≠ 3 ∧ s.stage ≠ 4) ∨ s.pwr.cpHalted = true then s
  else
    let s := s.withFw (fun w => { w with avsGoal := s.avsTarget tj })
    if s.fw.avsTries = 0 then s.avsCommand else s

def execAvsStep (tjMax : Int) (s : State) : Out := .next (s.avs tjMax)

/-- PMBUS_READBACK: a reading within 1 % accepts the step; after three attempts the last confirmed setpoint is commanded. -/
def State.readback (s : State) (mv : Nat) : State :=
  let c := s.f F.PWR_SETPOINT_CMD_MV 0
  if s.fw.avsTries = 0 then s
  else if 100 * ((mv : Int) - c).natAbs ≤ c then
    ((s.setF F.PWR_SETPOINT_REF_MV 0 c).withFw (fun w => { w with avsTries := 0, avsConfirmed := c })).avsCommand
  else if s.fw.avsTries < 3 then (s.withFw (fun w => { w with avsTries := w.avsTries + 1 })).sendVout c
  else
    let v := s.fw.avsConfirmed
    let s := ((s.setF F.PWR_SETPOINT_CMD_MV 0 v).withFw (fun w => { w with avsTries := 0, avsGoal := v })).sendVout v
    let s := s.setF F.PWR_SETPOINT_REF_MV 0 (min v (s.f F.PWR_SETPOINT_REF_MV 0))
    (s.setF F.PWR_EVENT_PMBUS_ERR 0 1).logFirmware 1

def execPmbusReadback (mv : Nat) (s : State) : Out := .next (s.readback mv)

-- ## Calibration records (R394, R395)

/-- One entry of a record: KIND, SUB, INDEX, VALUE. -/
def calEntry (kind sub index value : Nat) : List Byte := leBytes 1 kind ++ leBytes 1 sub ++ beBytes 2 index ++ beBytes 4 value

/-- The entries of the lanes that run, of the DRAM byte lanes, and of the sensors and monitors, whose offsets have no register. -/
def State.calEntries (s : State) : List (List Byte) :=
  ((List.range 60).filter (fun n => s.fb F.LANE_CFG_EN n)).map (fun n => calEntry 1 0 n (s.f F.LANE_STATUS_CDR_OFS n * 2 ^ 18 + s.f F.LANE_STATUS_PEAK_NOW n * 2 ^ 12)) ++
    (List.range s.channels).flatMap (fun c => (s.laneSlots c).map (fun k =>
      let d := Tab.get 0 (s.mchan c).delays k
      calEntry 2 c (k / 10 * 256 + k % 10) (d / 128 * 256 + d % 128))) ++
    (List.range 8).map (fun k => calEntry 3 0 k (Config.freeNat 52 (s.free + k))) ++ (List.range 8).map (fun k => calEntry 4 0 k (Config.freeNat 53 (s.free + k)))

/-- The highest sensor reading in °C. -/
def State.tjMax (s : State) : Int := (List.range 8).foldl (fun a k => max a (asr (signed 16 (s.f F.PWR_TEMP_TJ k)) 4)) (-128)

/-- The record of CAL_SNAPSHOT. -/
def State.calRecord (s : State) : List Byte :=
  let es := s.calEntries
  let head := [0x59, 0x46, 0x43, 0x4C] ++ beBytes 2 es.length ++ leBytes 1 (unsigned 8 s.tjMax) ++ leBytes 1 (s.f F.DDR_CONFIG_DENSITY 0 * 16 + s.f F.DDR_CONFIG_SPEED 0) ++
    beBytes 4 (s.f F.GLB_UID_HI_UID 0) ++ beBytes 4 (s.f F.GLB_UID_LO_UID 0)
  let tail := List.replicate 12 0 ++ es.flatten
  head ++ beBytes 4 (crc32 tail) ++ tail

/-- CAL_SNAPSHOT: FLAGS and ADDR; lock 4 is held. -/
def State.snapshotCmd (s : State) (m : Nat) : State :=
  s.serve m 0x0061 (· = 9) (fun t =>
    let fl := byteAt (t.mbxArgs m) 0
    let a := leAt (t.mbxArgs m) 1 8
    let r := t.calRecord
    if 1 < fl ∨ 2 ^ 40 ≤ a then t.putResult m stBadArg []
    else if t.lockElsewhere 4 then t.putResult m stLocked []
    else if fl = 1 then ((t.setF F.SEM_LOCK_OWNER 4 1).draw).startJob m (.calFlash r)
    else ((t.draw.putFor 9 a r (Origin.secure (mbxOrigin m) t))).putResult m stOk (leBytes 4 r.length))

def execCalSnapshot (m : Nat) (s : State) : Out := onMailbox m (s.snapshotCmd m)

/-- The restored delays of channel `c` are checked, and those that pass apply together (R395); what the check finds is open. -/
def State.takeRestored (s : State) (c : Nat) : State :=
  let m := s.mchan c
  if m.restored = [] then s
  else
    let ok := (m.restored.filter (fun e => e.2.isSome)).filter (fun e => Config.freeBool 51 (s.free + e.1))
    (s.draw.setMchan c { m with restored := [], delays := ok.foldl (fun t e => Tab.set 0 t e.1 (e.2.getD 0)) m.delays, kept := (m.kept ++ ok.map (·.1)).eraseDups })

/-- The values of a record wait for their windows. On a part without lamp ports the channels take theirs at once. -/
def State.restoreRecord (s : State) (b : List Byte) : State :=
  let es := (List.range (beAt b 4 2)).map (fun i => sliceOf b (32 + 8 * i) 8)
  let hot := decide (20 < (s.tjMax - signed 8 (byteAt b 6)).natAbs)
  let s := chainAll es (fun e t => t.restoreEntry e) s
  let s := if hot then chainAll es (fun e t => if byteAt e 0 = 1 ∧ beAt e 2 2 < 60 then t.calDue (beAt e 2 2) else t) s else s
  if s.hasLampPorts then s else chainAll (List.range s.channels) (fun c t => t.takeRestored c) s

/-- The record that CAL_RESTORE of mailbox `m` names: in the configuration area, or at `a` in DRAM. -/
def State.recordAt (s : State) (m : Nat) (inFlash : Bool) (a : Nat) : List Byte :=
  let sec := Origin.secure (mbxOrigin m) s
  if inFlash then s.conf.cal else s.dramFor 9 a (32 + 8 * beAt (s.dramFor 9 a 6 sec) 4 2) sec

/-- CAL_RESTORE: FLAGS (FLASH, SAVE) and ADDR. -/
def State.restoreCmd (s : State) (m : Nat) : State :=
  s.serve m 0x0062 (· = 9) (fun t =>
    let fl := byteAt (t.mbxArgs m) 0
    let a := leAt (t.mbxArgs m) 1 8
    let b := t.recordAt m (decide (fl % 2 = 1)) a
    if 3 < fl ∨ 2 ^ 40 ≤ a ∨ t.calOk b = false then t.putResult m stBadArg []
    else if 2 ≤ fl then (t.restoreRecord b).startJob m (.calFlash b)
    else (t.restoreRecord b).putResult m stOk [])

def execCalRestore (m : Nat) (s : State) : Out := onMailbox m (s.restoreCmd m)

/-- SYNC_GAP_START: a gap opens the windows of restored lane values; the gap of GRID0 that of restored delays. -/
def State.syncGapStart (s : State) (g : Nat) : State :=
  let s := s.gapRestore g
  if decide (g = 0) && s.fb F.LMP_GRID_STATUS_EN 0 && !s.inHandover then chainAll (List.range s.channels) (fun c t => t.takeRestored c) s else s

def execSyncGapStart (g : Nat) (s : State) : Out := onInstance (gridOn g) (s.syncGapStart g)

-- ## Timers (R398)

/-- PERIOD in force. -/
def State.timerPeriod (s : State) (n : Nat) : Nat := max 1000 (s.f F.TMR_PERIOD_NS n)

def State.timerCmp (s : State) (n : Nat) : Nat := Tab.get 0 s.time.cmp n

/-- CMP of a timer, in force and in its registers. -/
def State.setCmp (s : State) (n v : Nat) : State :=
  let s := s.withTime (fun t => { t with cmp := Tab.set 0 t.cmp n (v % 2 ^ 64), fired := t.fired.filter (· ≠ n) })
  (s.setF F.TMR_CMP_LO_CMP n (v % 2 ^ 32)).setF F.TMR_CMP_HI_CMP n (v / 2 ^ 32 % 2 ^ 32)

/-- TIMER_EXPIRE: T is at or above CMP; a periodic timer goes on past T, counting each skipped expiry. -/
def State.timerExpires (s : State) (n : Nat) : State :=
  let c := s.timerCmp n
  if !s.fb F.TMR_CTRL_EN n ∨ s.now < c ∨ n ∈ s.time.fired then s
  else
    let s := s.setF F.TMR_STATUS_EXPIRED n 1
    if s.fb F.TMR_CTRL_PERIODIC n then
      let k := (s.now - c) / s.timerPeriod n
      (s.bumpBy F.TMR_STATUS_OVERRUN n k).setCmp n (c + (k + 1) * s.timerPeriod n)
    else s.withTime (fun t => { t with fired := n :: t.fired })

def execTimerExpire (n : Nat) (s : State) : Out := onInstance (timerOk n) (s.timerExpires n)

/-- A write of TMR_CMP_LO takes effect with the high word (R398). -/
def State.writeCmp (s : State) (n lo : Nat) : State := s.setCmp n (s.f F.TMR_CMP_HI_CMP n * 2 ^ 32 + lo)

-- ## Power states (R387 to R390)

/-- Codes of the fields that firmware restores after a wake: the descriptor table (R167) and the routes of the interrupt sources (R358). -/
def savedCodes : List Nat :=
  [F.INTC_ROUTE_EN, F.INTC_ROUTE_WAKE_EN, F.INTC_ROUTE_TARGET, F.INTC_ROUTE_VECTOR, F.STK_DESC_INFO_PINNED, F.STK_DESC_INFO_DISPLAY, F.STK_DESC_INFO_BEDROCK, F.STK_DESC_INFO_SHORT_TERM, F.STK_DESC_INFO_HOST_PIN, F.STK_DESC_INFO_SLOT,
   F.STK_DESC_INFO_GROUP, F.STK_DESC_PICTURE_PICTURE, F.STK_DESC_BASE_LO_BASE, F.STK_DESC_BASE_HI_BASE, F.STK_DESC_COUNT_RESERVED, F.STK_DESC_COUNT_FREE].map (·.code)

/-- Every channel that is ready enters self-refresh; a retrain in progress starts anew after the exit (R301, R306). -/
def State.selfRefresh (s : State) : State :=
  chainAll (List.range 4) (fun c t =>
    if t.ddrState c = ddrReady then t.setF F.DDR_STATUS_STATE c ddrSelfRefresh
    else if t.ddrState c = ddrRetraining then
      ((t.setMchan c { t.mchan c with retrainDue := true }).setF F.DDR_TRAIN_BUSY c 0).setF F.DDR_STATUS_STATE c ddrSelfRefresh
    else t) s

/-- Firmware prepares STANDBY (R388): BLANK frames, the saved table and snapshot, self-refresh, the wake timer. -/
def State.enterStandby (s : State) (seconds : Nat) : State :=
  let s := chainAll allPorts (fun n t => if (t.port n).en then t.setPort n { t.port n with owed := true } else t) s
  let s := s.withPwr (fun w => { w with saved := some (s.regs.filter (fun e => decide (e.1 ∈ savedCodes)), s.calRecord), standbyDue := true, wakeRuns := decide (seconds ≠ 0) })
  ((s.draw.setF F.PWR_WAKE_SECONDS 0 seconds).withAon (fun w => { w with wakeTimer := false })).selfRefresh

/-- POWER_STATE_SET: STATE and WAKE_S. -/
def State.powerCmd (s : State) (m : Nat) : State :=
  s.serve m 0x0060 (· = 5) (fun t =>
    match byteAt (t.mbxArgs m) 0 with
    | 0 => ((t.setF F.PWR_STATUS_STATE 0 0).pauseWalls false).putResult m stOk []
    | 1 => ((t.setF F.PWR_STATUS_STATE 0 1).pauseWalls true).putResult m stOk []
    | 2 => if t.jobRuns || t.faultLevel 4 then t.putResult m stBusy [] else (t.enterStandby (leAt (t.mbxArgs m) 1 4)).putResult m stOk []
    | _ => t.putResult m stBadArg [])

def execPowerStateSet (m : Nat) (s : State) : Out := onMailbox m (s.powerCmd m)

/-- What firmware goes on with after the wake, beside what it saved. -/
def State.sleeping (s : State) : Asleep :=
  { codec := s.codec, ptp := s.fw.ptp, refresh := (List.range 4).filter (fun c => decide (s.ddrState c = ddrSelfRefresh)), retrain := (List.range 4).filter (fun c => (s.mchan c).retrainDue) }

/-- STANDBY_GATE: the core domain is gated, once the link is in L2 or 1 s has passed: it loses its state, as in a reset, and the always-on domain keeps its own, with the threshold of its sensors (R387 to R389). -/
def State.gate (s : State) : State :=
  if !s.pwr.standbyDue then s
  else
    let t := (s.coreReset).setF F.PWR_THERM_WARN 0 (s.f F.PWR_THERM_WARN 0)
    (t.withPwr (fun w => { w with standby := true, saved := s.pwr.saved, asleep := some s.sleeping })).withAon (fun w => { w with steady := allWakeSources.filter s.level })

def execStandbyGate (s : State) : Out := .next s.gate

/-- WAKE_TIMER_EXPIRE (R389). -/
def State.wakeTimer (s : State) : State := if s.pwr.wakeRuns then (s.withPwr (fun w => { w with wakeRuns := false })).withAon (fun w => { w with wakeTimer := true }) else s

def execWakeTimerExpire (s : State) : Out := .next s.wakeTimer

/-- GPIO_CHANGE. -/
def State.gpioSet (s : State) (k : Nat) (high : Bool) : State :=
  (s.withAon (fun w => { w with gpio := if high then (if k ∈ w.gpio then w.gpio else k :: w.gpio) else w.gpio.filter (· ≠ k) })).noteFalls

def execGpioChange (k : Nat) (high : Bool) (s : State) : Out := onInstance (decide (k < 4)) (s.gpioSet k high)

/-- A context as firmware goes on with it after a wake: nothing is in reception or on a hewer, and every serving generation is to be checked again (R167). -/
def Ctx.awake (x : Ctx) : Ctx :=
  let beds : Tab BedSlot := x.beds.map (fun e => (e.1, { e.2 with recheck := e.2.serving.isSome, old := none, building := none, nextRow := 0, crc := 0 }))
  { x with stream := none, streamRaw := [], ended := false, pic := none, doneRaw := none, waiting := [], loads := [], frontUsed := 0, frontStart := 0, frontDead := false, frontDrop := false, frontPic := none, dropNext := false, back := none, hunt := false, egSent := 0, keyDue := true, beds := beds }

/-- Walls, groups, descriptors and contexts after a wake. -/
def CodecState.awake (k : CodecState) : CodecState :=
  { walls := k.walls, listed := k.listed, groups := k.groups, descs := k.descs, ctxs := k.ctxs.map (fun e => (e.1, e.2.map Ctx.awake)), lambdaK := k.lambdaK, holdFactor := k.holdFactor, kp := k.kp, ki := k.ki, qpStepMax := k.qpStepMax, serials := k.serials }

/-- Firmware sets up the registers and the queue of a context that it keeps. -/
def State.reviveCtx (s : State) (c : Nat) : State :=
  let x := s.ctx c
  let s := s.openQueue c (if x.enc then log2Up (2 * x.act.bucket) else 20) x.enc
  if x.enc then ((s.writeCtxSet c x.act).setF F.SCH_CTX_QP_QP_NOW c x.qpStart).setF F.SCH_CTX_EFFORT_CATCHUP c x.act.configured else s

/-- The bytes over which the CRC-64 of a serving generation runs (R86), from DRAM. -/
def State.servingBytes (s : State) (c k gen : Nat) : List Byte :=
  let x := s.ctx c
  let r := s.bedRef 4 c k gen
  (List.range (16 * x.geo.h16)).flatMap (fun y => (List.range (16 * x.geo.w16)).flatMap (fun i => (List.range 3).flatMap (fun q => beBytes 3 (unsigned 24 (r q i y)))))

/-- The serving generation of a slot is checked again; one that fails is dropped (R166, R167). -/
def State.recheckBed (s : State) (c k : Nat) : State :=
  let b := (s.ctx c).bed k
  match b.serving with
  | none => s
  | some g =>
    let put := fun (t : State) (v : BedSlot) => t.modCtx c (fun x => { x with beds := Tab.set {} x.beds k v })
    if (crc64From 0 (s.servingBytes c k g)).toNat = b.servingCrc then put s { b with recheck := false }
    else (put s { b with recheck := false, serving := none }).bedCrcFail c k

/-- The latches are sampled and cleared (R358): a source whose level has gone counts as spurious. -/
def State.sampleLatches (s : State) : State :=
  let s := chainAll s.aon.wakeLatch (fun n t => if t.level n then t else t.count F.INTC_SPURIOUS_WAKE_COUNT 0 F.INTC_CNT_SAT_SPURIOUS_WAKE_SAT 0 0) s
  s.withAon (fun w => { w with wakeLatch := [] })

/-- What firmware has back once it runs again (R358, R390): the descriptor table, the routes, the contexts, the calibration snapshot; DRAM leaves self-refresh. -/
def State.restoreSaved (s : State) (old : State) : State :=
  let saved : Tab (Tab Nat) × List Byte := old.pwr.saved.getD ([], [])
  let slept := old.pwr.asleep.getD {}
  let s := { s with regs := saved.1.foldl (fun (t : Tab (Tab Nat)) (e : Nat × Tab Nat) => Tab.set [] t e.1 e.2) s.regs, codec := slept.codec.awake }
  let s := s.withFw (fun w => { w with ptp := slept.ptp })
  let s := chainAll (List.range 4) (fun c t =>
    if c ∈ slept.refresh then ((t.setMchan c { t.mchan c with retrainDue := decide (c ∈ slept.retrain) }).setF F.DDR_STATUS_STATE c ddrReady).setF F.DDR_CTRL_EN c 1 else t) s
  let s := chainAll s.ctxNums (fun c t => t.reviveCtx c) s
  let s := chainAll s.ctxNums (fun c t => chainAll (List.range 2) (fun k u => u.recheckBed c k) t) s
  let s := (s.pauseWalls true).withPwr (fun w => { w with resumeDue := true })
  if s.calOk saved.2 then s.restoreRecord saved.2 else s

/-- WAKE: a latch of a source with WAKE_EN starts it; the core domain goes through the clearing and boot of a chip reset. -/
def State.wakeUp (s : State) : State :=
  match s.pwr.standby, s.aon.wakeLatch.find? (fun n => s.fb F.INTC_ROUTE_WAKE_EN n) with
  | true, some n =>
    let t := s.coreReset
    let t := t.withAon (fun w => { w with wakeLatch := s.aon.wakeLatch })
    let t := (t.setF F.INTC_WAKE_CAUSE_VALID 0 1).setF F.INTC_WAKE_CAUSE_SOURCE 0 n
    (t.sampleLatches).restoreSaved s
  | _, _ => s

def execWake (s : State) : Out := .next s.wakeUp

end Sys2Proof.Machine
end

