-- ==== Sys2Proof/Machine/Reads.lean ====
section
/-! DEFINITION. What a read of a register returns and does (R9, R12, and the register tables of every chapter). -/

namespace Sys2Proof.Machine

-- ## Selected instances

/-- The instance of field `x` that a register reaches: the SEL registers choose it where the register has one home for many instances. -/
def State.inst (s : State) (r : RegId) (x : Fld) (i : Nat) : Nat :=
  match r with
  | .SCH_CTX_EFFORT | .SCH_CTX_RATE | .SCH_CTX_BUCKET | .SCH_CTX_QP | .SCH_CTX_PI | .SCH_CTX_ARM | .SCH_CTX_LATE | .SCH_CTX_ALLOT => s.f F.SCH_CTX_SEL_CTX 0
  | .STK_DESC_INFO | .STK_DESC_PICTURE | .STK_DESC_BASE_LO | .STK_DESC_BASE_HI => s.f F.STK_DESC_SEL_DESC 0
  | .STK_CTX_STATUS | .STK_BEDROCK_GEN | .STK_BEDROCK_STATE => s.f F.STK_CTX_SEL_CTX 0
  | .SPQ_Q_CFG | .SPQ_Q_BASE_LO | .SPQ_Q_BASE_HI | .SPQ_Q_STATUS | .SPQ_Q_DROPPED | .SPQ_Q_CLEFTS => s.f F.SPQ_Q_SEL_QUEUE 0
  | .SPQ_CNT_SAT => if x = F.SPQ_CNT_SAT_POISON_SAT then 0 else s.f F.SPQ_Q_SEL_QUEUE 0
  | .TMG_METER_CTRL | .TMG_METER_CIR | .TMG_METER_PIR | .TMG_METER_CBS | .TMG_METER_PBS | .TMG_METER_CNT_SAT => s.f F.TMG_METER_SEL_METER 0
  | .TMG_METER_COUNT => 3 * s.f F.TMG_METER_SEL_METER 0 + i
  | _ => i

/-- The word that the fields of a register make: WO fields and reserved bits read 0 (R10, R12). -/
def State.plainWord (s : State) (r : RegId) (i : Nat) : Nat :=
  r.info.fields.foldl (fun a x => if x.acc = .wo then a else a + s.f x (s.inst r x i) * 2 ^ x.lo) 0

/-- `n` bits by `p`. -/
def bitsUp (n : Nat) (p : Nat → Bool) : Nat := (List.range n).foldl (fun a k => if p k then a + 2 ^ k else a) 0

-- ## Words that show other state

/-- STK_BEDROCK_GEN of the selected context. -/
def State.bedGenWord (s : State) : Nat :=
  let b := fun k => Tab.get {} (s.ctx (s.f F.STK_CTX_SEL_CTX 0)).beds k
  ((b 1).building.getD 0) % 256 * 2 ^ 24 + ((b 1).serving.getD 0) % 256 * 2 ^ 16 + ((b 0).building.getD 0) % 256 * 2 ^ 8 + ((b 0).serving.getD 0) % 256

/-- STK_BEDROCK_STATE of the selected context. -/
def State.bedStateWord (s : State) : Nat :=
  let w := fun k =>
    let b := Tab.get {} (s.ctx (s.f F.STK_CTX_SEL_CTX 0)).beds k
    b.serving.isSome.toNat * 2 ^ 15 + b.building.isSome.toNat * 2 ^ 14 + b.nextRow % 128
  w 1 * 2 ^ 16 + w 0

/-- BPM_LIST_HEAD (R271). -/
def State.listHeadWord (s : State) : Nat :=
  match s.pool.sram.pop1 sramTop with
  | some (b, _) => b
  | none => 2 ^ 31

/-- SPQ_Q_STATUS of the selected queue; a number that names no queue reads zero. -/
def State.queueWord (s : State) : Nat :=
  let q := s.f F.SPQ_Q_SEL_QUEUE 0
  (s.atThreshold q).toNat * 2 ^ 31 + (s.queue q).used % 2 ^ 27

/-- The byte lane place that DDR_LANE_SEL selects. -/
def State.lanePlace (s : State) (c : Nat) : Nat := 10 * s.f F.DDR_LANE_SEL_RANK c + min 9 (s.f F.DDR_LANE_SEL_LANE c)

/-- DDR_TIMING_VAL at the selected index; an index beyond R297 reads zero. -/
def State.timingWord (s : State) (c : Nat) : Nat :=
  let k := s.f F.DDR_TIMING_SEL_INDEX c
  if 17 < k then 0
  else
    let v := Tab.get 0 (s.mchan c).shadow k
    s.timingActive c k % 2 ^ 16 * 2 ^ 16 + (if v = 0 then s.timingMin c k else v) % 2 ^ 16

/-- DDR_LANE_DELAY: the delays written last. -/
def State.delayWord (s : State) (c : Nat) : Nat :=
  let k := s.lanePlace c
  let n := Tab.get 0 (s.mchan c).delayNext k
  let d := if n = 0 then Tab.get 0 (s.mchan c).delays k else n - 1
  d / 128 % 128 * 2 ^ 8 + d % 128

/-- DDR_LANE_EYE. -/
def State.eyeWord (s : State) (c : Nat) : Nat :=
  let e := Tab.get 0 (s.mchan c).eyes (s.lanePlace c)
  e / 2097152 % 128 * 2 ^ 24 + e / 16384 % 128 * 2 ^ 16 + e / 128 % 128 * 2 ^ 8 + e % 128

/-- Words of the LUT entry that DRS_LUT_ADDR selects in the inactive bank: its key. -/
def State.lutPlace (s : State) : Nat := lutKey (1 - s.f F.DRS_CTRL_LUT_BANK 0) (s.f F.DRS_LUT_ADDR_LUT 0) (min 4096 (s.f F.DRS_LUT_ADDR_ENTRY 0))

/-- ENTRY advances after an access with AUTO_INC. -/
def State.lutAdvance (s : State) : State :=
  if s.fb F.DRS_LUT_ADDR_AUTO_INC 0 then s.setF F.DRS_LUT_ADDR_ENTRY 0 (s.f F.DRS_LUT_ADDR_ENTRY 0 + 1) else s

/-- What a read shows. `sec`: the access is made in the secure world. -/
def State.view (s : State) (r : RegId) (i : Nat) (sec : Bool) : Nat :=
  match r with
  | .SEM_BROKEN_LO => bitsUp 32 (fun n => s.fb F.SEM_LOCK_BROKEN n)
  | .SEM_BROKEN_HI => bitsUp 32 (fun n => s.fb F.SEM_LOCK_BROKEN (32 + n))
  | .STK_BEDROCK_GEN => s.bedGenWord
  | .STK_BEDROCK_STATE => s.bedStateWord
  | .HWR_PATCH_RAM => if i % 8 = 4 then s.plainWord r i % 2 ^ 16 else if i % 8 < 4 then s.plainWord r i else 0
  | .DRS_LUT_DATA => Tab.get 0 s.lamp.lut s.lutPlace
  | .CLS_EXACT_DATA => Tab.get 0 s.haul.staged.exact (8 * s.f F.CLS_EXACT_INDEX_INDEX 0 + i)
  | .CLS_TERN_DATA => Tab.get 0 s.haul.staged.tern (12 * s.f F.CLS_TERN_INDEX_INDEX 0 + i)
  | .BPM_FREE_SRAM => s.freeSram
  | .BPM_FREE_DRAM => s.freeDram
  | .BPM_LIST_HEAD => s.listHeadWord
  | .SPQ_Q_STATUS => s.queueWord
  | .TMG_PORT_VTIME_LO => (s.tmgPort i).v % 2 ^ 32
  | .TMG_PORT_VTIME_HI => (s.tmgPort i).v / 2 ^ 32 % 2 ^ 16
  | .DDR_TIMING_VAL => s.timingWord i
  | .DDR_LANE_DELAY => s.delayWord i
  | .DDR_LANE_EYE => s.eyeWord i
  | .DDR_LOG_DATA => leAt (s.mem.log.getD (s.f F.DDR_LOG_SEL_INDEX 0) []) (4 * i) 4
  | .INTC_ROUTE => s.routeWord i
  | .INTC_LEVEL => sourceBits i (fun n => s.level n && (sec || !s.sourceSecure n))
  | .INTC_PENDING => sourceBits i (fun n => s.isPending n && (sec || !s.sourceSecure n))
  | .INTC_SW_CLR_LO => s.f F.INTC_SW_SET_LO_LEVEL 0
  | .INTC_SW_CLR_HI => s.f F.INTC_SW_SET_HI_LEVEL 0
  | .INTC_TGT_STATUS => s.plainWord r i + (decide (i = 2) && s.linkAsleep).toNat * 2 ^ 9 + (s.signal i).toNat * 2 ^ 8 + (s.claimStack i).length
  | .INTC_STACK => (s.claimStack (i / 8)).getD (i % 8) 0
  | .FLT_STATUS => s.plainWord r i + bitsUp 8 (fun k => s.faultLevel (k + 1))
  | .FLT_SAFE_LO => bitsUp 32 (fun n => decide (s.holders n ≠ []))
  | .FLT_SAFE_HI => bitsUp 16 (fun n => decide (s.holders (32 + n) ≠ []))
  | .EVT_STATUS => s.plainWord r i + s.nearFull.toNat
  | .EVT_DATA => leAt (Tab.get [] s.flt.log (s.f F.EVT_SEL_INDEX 0)) (4 * i) 4
  | .CLK_TB_LO => s.tick4 % 2 ^ 32
  | .CLK_TB_HI => s.tick4 / 2 ^ 32
  | .SEC_TAMPER_CFG => if s.lc = 2 then s.plainWord r i ||| 0xF0 else s.plainWord r i
  | _ => s.plainWord r i

-- ## Reads that act

/-- A read of SEM_LOCK by owner code `c` (R61): a free lock is granted, the reader's own renewed, another's refused. -/
def State.semRead (s : State) (n c : Nat) : State × Nat :=
  let cur := s.lockOwner n
  let b := s.f F.SEM_LOCK_BROKEN n * 2 ^ 30
  if cur = 0 then (s.setF F.SEM_LOCK_OWNER n c, 2 ^ 31 + b + c * 2 ^ 24)
  else if cur = c then (s, 2 ^ 31 + b + c * 2 ^ 24)
  else (s.withFw (fun w => { w with lockRefused := if n ∈ w.lockRefused then w.lockRefused else n :: w.lockRefused }), b + cur * 2 ^ 24)

/-- A read of the header word of a result (R53): READ_COUNT is incremented and then returned; it saturates at 255. -/
def State.headerRead (s : State) (m : Nat) : State × Nat :=
  let w := s.f F.MBX_RESULT_DATA (64 * m)
  let k := w / 2 ^ 16 % 256
  let v := if k = 255 then w else w + 2 ^ 16
  (s.setF F.MBX_RESULT_DATA (64 * m) v, v)

/-- A read of HAUL_TS_INFO pops the oldest timestamp into the register and HAUL_TS_TIME (R262); VALID reads 1 where there was one. -/
def State.popStamp (s : State) (p : Nat) : State × Nat :=
  let x := s.haulPort p
  match x.stamps with
  | [] => (s, s.plainWord .HAUL_TS_INFO p)
  | e :: rest =>
    let s := s.setHaulPort p { x with stamps := rest }
    let s := ((s.setF F.HAUL_TS_INFO_MSG_TYPE p e.msgType).setF F.HAUL_TS_INFO_DOMAIN p e.domain).setF F.HAUL_TS_INFO_SEQ_ID p e.seqId
    let s := (s.setF F.HAUL_TS_TIME_LO_TIME p (e.time % 2 ^ 32)).setF F.HAUL_TS_TIME_HI_TIME p (e.time / 2 ^ 32)
    (s, s.plainWord .HAUL_TS_INFO p + 2 ^ 31)

/-- A read of a MIN or MAX of queue `k` clears it; the next sample sets it afresh (R291). `j`: 0 DMIN, 1 DMAX, 2 HMIN, 3 HMAX. -/
def State.sampleRead (s : State) (x : Fld) (k j : Nat) : State :=
  let q := s.tmgQueue k
  (s.setF x k 0).setTmgQueue k { q with fresh := q.fresh.set j true }

/-- A read of register `r`, instance `i`, by originator `o`: the state after it and the word. -/
def State.readReg (s : State) (o : Origin) (r : RegId) (i : Nat) : State × Nat :=
  let w := s.view r i (Origin.secure o s)
  match r with
  | .MBX_RESULT => if i % 64 = 0 then s.headerRead (i / 64) else (s, w)
  | .SEM_LOCK => s.semRead i (Origin.owner o)
  | .INTC_CLAIM => s.claim i (fun n => decide (i ≠ 2) || !s.sourceSecure n)
  | .INTC_CLAIM_S => s.claim 2 (fun n => s.sourceSecure n)
  | .DRS_LUT_DATA => (s.lutAdvance, w)
  | .HAUL_TS_INFO => s.popStamp i
  | .TMG_Q_DMIN => (s.sampleRead F.TMG_Q_DMIN_VALUE i 0, w)
  | .TMG_Q_DMAX => (s.sampleRead F.TMG_Q_DMAX_VALUE i 1, w)
  | .TMG_Q_HMIN => (s.sampleRead F.TMG_Q_HMIN_VALUE i 2, w)
  | .TMG_Q_HMAX => (s.sampleRead F.TMG_Q_HMAX_VALUE i 3, w)
  | .TMR_STATUS => (s.setF F.TMR_STATUS_OVERRUN i 0, w)
  | .ARB_MAXWAIT => (s.setF F.ARB_MAXWAIT_FCLK i 0, w)
  | .BPM_MIN_FREE => (s.setF F.BPM_MIN_FREE_COUNT 0 s.freeSram, w)
  | .PWR_VMIN => (s.setF F.PWR_VMIN_MV 0 0xFFFF, w)
  | _ => (s, w)

-- ## Wide counters and addresses (R9)

/-- Low and high words of the counters and addresses wider than 32 bits. -/
def widePairs : List (RegId × RegId) :=
  [(.GLB_UID_LO, .GLB_UID_HI), (.STK_DESC_BASE_LO, .STK_DESC_BASE_HI), (.RIV_CH_TABLE_LO, .RIV_CH_TABLE_HI), (.RIV_CH_ERR_ADDR_LO, .RIV_CH_ERR_ADDR_HI),
   (.HAUL_MAC_LO, .HAUL_MAC_HI), (.HAUL_TS_TIME_LO, .HAUL_TS_TIME_HI), (.CLS_CAPTURE_LO, .CLS_CAPTURE_HI), (.CLS_MAC_LO, .CLS_MAC_HI),
   (.BPM_DRAM_BASE_LO, .BPM_DRAM_BASE_HI), (.SPQ_Q_BASE_LO, .SPQ_Q_BASE_HI), (.TMG_PORT_VTIME_LO, .TMG_PORT_VTIME_HI), (.ARB_GRANTS_LO, .ARB_GRANTS_HI),
   (.ARB_WAITS_LO, .ARB_WAITS_HI), (.CLK_TB_LO, .CLK_TB_HI), (.TMR_CMP_LO, .TMR_CMP_HI), (.SEC_DENY_ADDR_LO, .SEC_DENY_ADDR_HI)]

/-- The upper word that a read of `r` latches. -/
def upperOf (r : RegId) : Option RegId := (widePairs.find? (fun p => decide (p.1 = r))).map (·.2)

/-- `r` is an upper word. -/
def isUpper (r : RegId) : Bool := widePairs.any (fun p => decide (p.2 = r))

/-- The latch of an upper word, plus 1; 0: none. -/
def State.setLatchWord (s : State) (a v : Nat) : State := { s with latch := Tab.set 0 s.latch a v }

/-- A read with the latch of R9. -/
def State.readLatched (s : State) (o : Origin) (r : RegId) (i : Nat) : State × Nat :=
  match upperOf r with
  | some h => ((s.setLatchWord (h.addr i) (s.view h i (Origin.secure o s) + 1)), s.view r i (Origin.secure o s))
  | none =>
    let l := if isUpper r then Tab.get 0 s.latch (r.addr i) else 0
    if l = 0 then s.readReg o r i else (s, l - 1)

end Sys2Proof.Machine
end

