-- ==== Sys2Proof/Machine/Writes.lean ====
section
/-! DEFINITION. What a write of a register does (R12, R64, and the register tables of every chapter), after the checks of Access. -/

namespace Sys2Proof.Machine

-- ## Fields by access code (R12)

/-- The bits of field `x` in a word. -/
def Fld.of (x : Fld) (w : Nat) : Nat := w / 2 ^ x.lo % 2 ^ x.len

/-- A write of word `w` acts on field `x` by its access code; `locked`: RWL fields are locked. -/
def State.writeFld (s : State) (x : Fld) (i w : Nat) (locked : Bool) : State :=
  match x.acc with
  | .ro | .wo | .rc => s
  | .rw => s.setF x i (x.of w)
  | .w1c => s.clrF x i (x.of w)
  | .w1s => s.setF x i (s.f x i ||| x.of w)
  | .rwl => if locked then s else s.setF x i (x.of w)

/-- The RWL fields of a register are locked. -/
def State.locked (s : State) (r : RegId) (i : Nat) : Bool :=
  match r with
  | .DDR_CONFIG => s.fb F.DDR_CONFIG_LOCK i
  | .SEC_BLOCK_WORLD => s.fb F.SEC_BLOCK_WORLD_LOCK 0
  | _ => false

/-- Every field of a register takes a written word. -/
def State.writePlain (s : State) (r : RegId) (i w : Nat) : State :=
  let l := s.locked r i
  chainAll r.info.fields (fun x t => t.writeFld x (s.inst r x i) w l) s

-- ## Control chapter

/-- A write of SEM_RELEASE by owner code `c` (R61, R62): both bits act for the owner only; a release by another is counted. -/
def State.semWrite (s : State) (n c w : Nat) : State :=
  let own := decide (s.lockOwner n = c)
  let s := if own && w.testBit 1 then s.setF F.SEM_LOCK_BROKEN n 0 else s
  if !w.testBit 0 then s
  else if own then s.freeLock n
  else s.count F.SEM_BAD_RELEASE_COUNT 0 F.SEM_CNT_SAT_BAD_RELEASE_SAT 0 0

/-- A write of GLB_RESET (R44). -/
def State.resetWrite (s : State) (w : Nat) : State := if w / 2 ^ 16 = 0x7A11 ∧ w.testBit 0 then s.chipReset else s

-- ## Hewers and lamp output

/-- A write of HWR_MATCH: outside DRAINED, OUT and PATCHING it is discarded (R197); MATCH_USED counts the registers enabled. -/
def State.matchWrite (s : State) (i w : Nat) : State :=
  let h := i / 64
  if !s.patchWritable h then s
  else
    let s := s.writePlain .HWR_MATCH i w
    s.setF F.HWR_PATCH_STATUS_MATCH_USED h ((List.range 64).filter (fun k => s.fb F.HWR_MATCH_EN (64 * h + k))).length

/-- A write of HWR_PATCH_RAM: words hold five 32-bit pieces, the last of 16 bits. -/
def State.patchWrite (s : State) (i w : Nat) : State :=
  if !s.patchWritable (i / 8192) || decide (4 < i % 8) then s
  else s.writePlain .HWR_PATCH_RAM i (if i % 8 = 4 then w % 2 ^ 16 else w)

/-- A write of DRS_CTRL arms or cancels the bank switch (R64). -/
def State.drsWrite (s : State) (w : Nat) : State := (s.writePlain .DRS_CTRL 0 w).setF F.DRS_CTRL_LUT_ARMED 0 (w / 2 ^ 9)

/-- A write of DRS_LUT_DATA: the entry in the inactive bank. -/
def State.lutWrite (s : State) (w : Nat) : State :=
  (s.withLamp (fun x => { x with lut := Tab.set 0 x.lut s.lutPlace (w % 2 ^ 24) })).lutAdvance

/-- A write of RIV_CH_CTRL: shadow fields, ARM, then CLEAR (R64, R217). -/
def State.rivWrite (s : State) (n w : Nat) : State :=
  let s := (s.writePlain .RIV_CH_CTRL n w).setF F.RIV_CH_CTRL_SHADOW_ARMED n w
  if w.testBit 2 then s.clearChan n else s

/-- A write of LMP_PORT_CTRL. -/
def State.portWrite (s : State) (n w : Nat) : State := (s.writePlain .LMP_PORT_CTRL n w).setF F.LMP_PORT_CTRL_SHADOW_ARMED n w

-- ## Haul, classifier, queues

/-- A write of HAUL_CTRL: a change of MODE, LANES or RATE retrains the link, and a port that is not enabled has none. -/
def State.haulWrite (s : State) (p w : Nat) : State :=
  let link := fun (t : State) => (t.f F.HAUL_CTRL_MODE p, t.f F.HAUL_CTRL_LANES p, t.f F.HAUL_CTRL_RATE p, t.fb F.HAUL_CTRL_EN p)
  let t := s.writePlain .HAUL_CTRL p w
  if link t = link s then t else t.linkDown p

/-- A write of CLS_COMMIT: GO, CLONE, ABORT (R252, R253). -/
def State.commitWrite (s : State) (w : Nat) : State :=
  let s := if w.testBit 0 then s.goCommand else s
  let s := if w.testBit 1 then s.startClone else s
  if w.testBit 2 then s.abortStage else s

/-- A write of CLS_RING_CMD (R257). -/
def State.ringWrite (s : State) (w : Nat) : State :=
  let s := if w.testBit 2 then s.sendRestore else s
  let s := if w.testBit 0 then s.clearOwn false else s
  if w.testBit 1 then s.clearOwn true else s

/-- A write of a staged entry word outside STAGING is discarded (R252). -/
def State.stagedWrite (s : State) (tern : Bool) (k w : Nat) : State :=
  if s.clsState ≠ clsStaging then s
  else if tern then s.withHaul (fun x => { x with staged := { x.staged with tern := Tab.set 0 x.staged.tern (12 * s.f F.CLS_TERN_INDEX_INDEX 0 + k) w } })
  else s.withHaul (fun x => { x with staged := { x.staged with exact := Tab.set 0 x.staged.exact (8 * s.f F.CLS_EXACT_INDEX_INDEX 0 + k) w } })

/-- A write of BPM_CTRL: LIST_MODE and DRAM_EN only while EN = 0 (R271). -/
def State.bpmWrite (s : State) (w : Nat) : State :=
  if s.fb F.BPM_CTRL_EN 0 then s.setF F.BPM_CTRL_EN 0 w else s.writePlain .BPM_CTRL 0 w

/-- A write of SPQ_Q_CFG for queue `q`: SPILL and SIZE only while EN = 0; clearing EN empties the queue (R275). A number that names no queue takes nothing. -/
def State.queueWrite (s : State) (q w : Nat) : State :=
  if 4352 ≤ q then s
  else if s.queueOn q then
    let s := (s.setF F.SPQ_Q_CFG_CT q w).setF F.SPQ_Q_CFG_EN q (w / 2 ^ 30)
    if s.queueOn q then s else s.emptyQueue q
  else s.writePlain .SPQ_Q_CFG 0 w

/-- A write of a spoil base: only while EN = 0. -/
def State.baseWrite (s : State) (r : RegId) (w : Nat) : State :=
  let q := s.f F.SPQ_Q_SEL_QUEUE 0
  if 4352 ≤ q ∨ s.queueOn q = true then s else s.writePlain r 0 w

/-- A write of TMG_METER_CTRL: EN from 0 to 1 fills both buckets (R283). -/
def State.meterWrite (s : State) (w : Nat) : State :=
  let m := s.f F.TMG_METER_SEL_METER 0
  let t := s.writePlain .TMG_METER_CTRL 0 w
  if !s.fb F.TMG_METER_CTRL_EN m && t.fb F.TMG_METER_CTRL_EN m then t.fillMeter m else t

-- ## Memory and lanes

/-- A write of DDR_TIMING_VAL: the shadow value. -/
def State.timingWrite (s : State) (c w : Nat) : State :=
  let k := s.f F.DDR_TIMING_SEL_INDEX c
  if 17 < k then s else s.setMchan c { s.mchan c with shadow := Tab.set 0 (s.mchan c).shadow k (w % 2 ^ 16) }

/-- A write of DDR_LANE_DELAY takes effect at the channel's next refresh. -/
def State.delayWrite (s : State) (c w : Nat) : State :=
  s.setMchan c { s.mchan c with delayNext := Tab.set 0 (s.mchan c).delayNext (s.lanePlace c) (w / 2 ^ 8 % 128 * 128 + w % 128 + 1) }

/-- A write of DDR_TRAIN. -/
def State.trainWrite (s : State) (c w : Nat) : State :=
  let s := s.writePlain .DDR_TRAIN c w
  if w.testBit 31 then s.trainStart c else s

/-- A write of DDR_LOG_STATUS (R312, R313). -/
def State.logWrite (s : State) (w : Nat) : State :=
  let s := s.writePlain .DDR_LOG_STATUS 0 w
  if w.testBit 31 then s.clearMemLog else s

/-- A write of LANE_PRBS: GEN and CHK only on a TEST lane (R343). -/
def State.prbsWrite (s : State) (n w : Nat) : State :=
  let s := s.setF F.LANE_PRBS_PATTERN n w
  if s.laneFunc n ≠ 0 then s
  else
    let s := (s.setF F.LANE_PRBS_GEN n (w / 2 ^ 2)).setF F.LANE_PRBS_CHK n (w / 2 ^ 3)
    if s.fb F.LANE_PRBS_CHK n then s else s.setF F.LANE_STATUS_PRBS_LOCK n 0

-- ## Interrupts, faults, time, security

/-- A write of INTC_SW_CLR. -/
def State.swClear (s : State) (x : Fld) (w : Nat) : State := (s.clrF x 0 w).msiScan

/-- A write of INTC_ROUTE (R345, R353). -/
def State.routeWrite (s : State) (n w : Nat) : State := s.writeRoute n (w / 2 ^ 31 % 2) (w / 2 ^ 30 % 2) (w / 2 ^ 16 % 4) (w / 2 ^ 8 % 32)

/-- A W1C write of FLT_SAFE, `base` the first port of the word: every source that holds a named port releases it, with one KIND 4 entry; discarded in FATAL (R363, R372). -/
def State.safeRelease (s : State) (base w : Nat) : State :=
  if s.fatal then s
  else
    let fell := allPorts.filter (fun n => decide (base ≤ n) && decide (n < base + 32) && w.testBit (n - base) && decide (s.holders n ≠ []))
    let s := chainAll fell (fun n t => (t.setHolders n []).refreshPort n) s
    if fell = [] then s else s.logEvent 4 0 0 0 (portMask fell)

/-- A write of FLT_SAFE_KIND. -/
def State.kindWrite (s : State) (base w : Nat) : State :=
  chainAll (allPorts.filter (fun n => decide (base ≤ n) && decide (n < base + 32) && (s.safeKind n != w.testBit (n - base))))
    (fun n t => t.setSafeKind n (w.testBit (n - base)).toNat) s

/-- A write of FLT_SRC_CFG: CLASS of a fixed source stays (R359). -/
def State.srcWrite (s : State) (f w : Nat) : State :=
  let t := s.writePlain .FLT_SRC_CFG f w
  if fixedSource f then t.setF F.FLT_SRC_CFG_CLASS f (s.f F.FLT_SRC_CFG_CLASS f) else t

/-- A write of EVT_TAIL outside TAIL to HEAD is discarded (R372). -/
def State.tailWrite (s : State) (w : Nat) : State :=
  if (w + 2 ^ 32 - s.f F.EVT_TAIL_SEQ 0) % 2 ^ 32 ≤ s.evtHeld then s.setF F.EVT_TAIL_SEQ 0 w else s

/-- A write of TMR_CTRL: a timer that is switched off may expire again once it runs (R398). -/
def State.timerWrite (s : State) (n w : Nat) : State :=
  let s := s.writePlain .TMR_CTRL n w
  if s.fb F.TMR_CTRL_EN n then s else s.withTime (fun t => { t with fired := t.fired.filter (· ≠ n) })

/-- A write of SEC_TAMPER_CFG: EN bits 7 to 4 ignore writes in DEPLOYED (R414). -/
def State.tamperWrite (s : State) (w : Nat) : State :=
  let old := s.f F.SEC_TAMPER_CFG_EN 0
  let t := s.writePlain .SEC_TAMPER_CFG 0 w
  if s.lc = 2 then t.setF F.SEC_TAMPER_CFG_EN 0 (old / 16 * 16 + w % 16) else t

/-- A write of SEC_TAMPER_STATUS: TRIPPED and TAMPERED are cleared by ones; a bit whose source is still tripped sets again at once (R414). Whether it is, is a free value. -/
def State.tamperClear (s : State) (w : Nat) : State :=
  let k := s.free
  let gone := s.aon.trippedNow.filter (fun i => w.testBit i && !Config.freeBool 54 (8 * k + i))
  let s := (s.withAon (fun x => { x with trippedNow := x.trippedNow.filter (fun i => decide (i ∉ gone)) })).draw
  let s := (s.writePlain .SEC_TAMPER_STATUS 0 w).setF F.SEC_STATUS_TAMPERED 0 (if w.testBit 8 then 0 else s.f F.SEC_STATUS_TAMPERED 0)
  chainAll s.aon.trippedNow (fun i t => t.orF F.SEC_TAMPER_STATUS_TRIPPED 0 i) s

/-- A write of a word of DRAM region `n`: discarded while LOCK = 1 (R404). -/
def State.regionWrite (s : State) (r : RegId) (n w : Nat) : State := if s.fb F.SEC_REGION_ATTR_LOCK n then s else s.writePlain r n w

/-- A write of SPD_CTRL (R407): CAUSE, then WIPE. -/
def State.spdWrite (s : State) (w : Nat) : State :=
  let s := s.writePlain .SPD_CTRL 0 w
  if w.testBit 0 then s.wipe 3 else s

/-- A write of CLS_DEVICE: a change of ADDR ends the remote session (R236). -/
def State.deviceWrite (s : State) (w : Nat) : State :=
  let t := s.writePlain .CLS_DEVICE 0 w
  if t.device = s.device then t else t.closeSession 12

/-- A write of register `r`, instance `i`, by originator `o`. -/
def State.writeReg (s : State) (o : Origin) (r : RegId) (i w : Nat) : State :=
  match r with
  | .GLB_RESET => s.resetWrite w
  | .MBX_COMMAND => if s.fb F.MBX_STATUS_BUSY (i / 64) then s else s.writePlain r i w
  | .MBX_DOORBELL => if w.testBit 0 then s.doorbell i else s
  | .MBX_RESULT_ACK => if w.testBit 0 then s.resultAck i else s
  | .SEM_RELEASE => s.semWrite i (Origin.owner o) w
  | .SCH_CTX_ARM => s.setF F.SCH_CTX_ARM_SHADOW_ARMED (s.f F.SCH_CTX_SEL_CTX 0) w
  | .STK_PIN => s.writeStkPin w
  | .HWR_CTRL => s.writeHwrCtrl i w
  | .HWR_MATCH => s.matchWrite i w
  | .HWR_PATCH_RAM => s.patchWrite i w
  | .DRS_CTRL => s.drsWrite w
  | .DRS_LUT_DATA => s.lutWrite w
  | .DRS_BRIGHT => (s.writePlain r i w).setF F.DRS_BRIGHT_SHADOW_ARMED i (w / 2 ^ 31)
  | .RIV_CH_CTRL => s.rivWrite i w
  | .LMP_PORT_CTRL => s.portWrite i w
  | .LMP_PORT_PANIC => (s.writePlain r i w).refreshPanic i
  | .HAUL_CTRL => s.haulWrite i w
  | .CLS_COMMIT => s.commitWrite w
  | .CLS_DEVICE => s.deviceWrite w
  | .CLS_STAGE_COUNT => if s.clsState ≠ clsStaging then s else s.writePlain r i w
  | .CLS_EXACT_DATA => s.stagedWrite false i w
  | .CLS_TERN_DATA => s.stagedWrite true i w
  | .CLS_RING_CMD => s.ringWrite w
  | .BPM_CTRL => s.bpmWrite w
  | .SPQ_Q_CFG => s.queueWrite (s.f F.SPQ_Q_SEL_QUEUE 0) w
  | .SPQ_Q_BASE_LO => s.baseWrite r w
  | .SPQ_Q_BASE_HI => s.baseWrite r w
  | .TMG_Q_SHAPE_RATE => (s.writePlain r i w).restartQueueShaper i
  | .TMG_PORT_SHAPE_RATE => (s.writePlain r i w).restartPortShaper i
  | .TMG_METER_CTRL => s.meterWrite w
  | .DDR_TIMING_VAL => s.timingWrite i w
  | .DDR_TIMING_ARM => s.setF F.DDR_TIMING_ARM_SHADOW_ARMED i w
  | .DDR_TRAIN => s.trainWrite i w
  | .DDR_LANE_DELAY => s.delayWrite i w
  | .DDR_FILL => if w.testBit 31 then s.fillStart i else s
  | .DDR_LOG_STATUS => s.logWrite w
  | .LANE_CFG => s.writeLaneCfg i w
  | .LANE_RX => s.writeLaneRx i w
  | .LANE_PRBS => s.prbsWrite i w
  | .INTC_ROUTE => s.routeWrite i w
  | .INTC_SW_SET_LO => (s.writePlain r i w).msiScan
  | .INTC_SW_SET_HI => (s.writePlain r i w).msiScan
  | .INTC_SW_CLR_LO => s.swClear F.INTC_SW_SET_LO_LEVEL w
  | .INTC_SW_CLR_HI => s.swClear F.INTC_SW_SET_HI_LEVEL w
  | .INTC_COMPLETE => s.complete i (w % 1024)
  | .INTC_COMPLETE_S => s.complete 2 (w % 1024)
  | .FLT_SAFE_LO => s.safeRelease 0 w
  | .FLT_SAFE_HI => s.safeRelease 32 w
  | .FLT_SAFE_KIND_LO => s.kindWrite 0 w
  | .FLT_SAFE_KIND_HI => s.kindWrite 32 w
  | .FLT_SRC_CFG => s.srcWrite i w
  | .FLT_SRC_ACK => if w.testBit 0 then s.graceStop i else s
  | .EVT_TAIL => s.tailWrite w
  | .CLK_TB_STEP_LO => s.stepTime w
  | .CLK_TB_STEP_HI => s.setF F.CLK_TB_STEP_HI_STEP 0 w
  | .TMR_CTRL => s.timerWrite i w
  | .TMR_CMP_LO => s.writeCmp i w
  | .SEC_TAMPER_CFG => s.tamperWrite w
  | .SEC_TAMPER_STATUS => s.tamperClear w
  | .SEC_REGION_BASE => s.regionWrite r i w
  | .SEC_REGION_LIMIT => s.regionWrite r i w
  | .SEC_REGION_ATTR => s.regionWrite r i w
  | .SPD_CTRL => s.spdWrite w
  | _ => s.writePlain r i w

/-- Latches that a write of `r` makes stale: those of its own pair, and of a pair that it selects. -/
def staleUppers (r : RegId) : List RegId :=
  match r with
  | .STK_DESC_SEL => [.STK_DESC_BASE_HI]
  | .SPQ_Q_SEL => [.SPQ_Q_BASE_HI]
  | _ => (widePairs.filter (fun p => decide (p.1 = r) || decide (p.2 = r))).map (·.2)

def State.writeLatched (s : State) (o : Origin) (r : RegId) (i w : Nat) : State :=
  chainAll (staleUppers r) (fun h t => t.setLatchWord (h.addr i) 0) (s.writeReg o r i w)

end Sys2Proof.Machine
end

