-- ==== Sys2Proof/Machine/Access.lean ====
section
/-! DEFINITION. Register accesses of the host, the processor, the debug port and mailbox commands: world, expert and byte-enable checks, then the effect (R6 to R12, R51, R57, R400, R401); BAR2 (R41). -/

namespace Sys2Proof.Machine

-- ## World and expert checks

/-- The world of a register's instance (R7, R9, R345, R401): true secure. -/
def State.regSecure (s : State) (r : RegId) (i : Nat) : Bool :=
  let g := r.info
  match g.world with
  | .normal => false
  | .secure => true
  | .block => s.blockSecure g.blk
  | .mailbox => decide (8 ≤ i / g.n2) && decide (i / g.n2 ≤ 11)
  | .target => decide (i / g.n2 = 0) || s.blockSecure g.blk
  | .source => s.sourceSecure i

/-- A normal access to a secure register is counted (R400). -/
def State.denyWorld (s : State) : State :=
  (s.count F.SEC_WORLD_DENIED_COUNT 0 F.SEC_EVENT_SAT 0 0).setF F.SEC_EVENT_WORLD_DENIED 0 1

/-- The mailbox and semaphore windows. -/
def inMailboxes (a : Nat) : Bool := decide (0x10000 ≤ a) && decide (a < 0x30000)

/-- An offset in the windows of MBX12 to MBX15 (R51). -/
def remoteWindow (a : Nat) : Bool := decide (0x1C000 ≤ a) && decide (a < 0x20000)

/-- The OTP window (R5, R408): byte `a` of the layout stands at its base + `a`. -/
def otpWindow (a : Nat) : Bool := decide (0x90000 ≤ a) && decide (a < 0x90800)

/-- BAR0 offset `a` belongs to the secure world: a secure register, or the OTP window (R7). -/
def State.offsetSecure (s : State) (a : Nat) : Bool := otpWindow a || (regAt a).any (fun e => s.regSecure e.1 e.2)

/-- The bytes that an access finds in the OTP: secret areas read as zero (R408). -/
def State.otpWord (s : State) (a : Nat) : Nat :=
  natOfLe ((List.range 4).map (fun k => if otpSecret (a + k) then 0 else (s.otpBytes (a + k) 1).headD 0))

/-- The registers that a function writes without an expert session (R57). -/
def freeWrite (o : Origin) (a : Nat) : Bool :=
  inMailboxes a ||
    (match regAt a with
    | some (.INTC_CLAIM, _) | some (.INTC_CLAIM_S, _) | some (.INTC_COMPLETE, _) | some (.INTC_COMPLETE_S, _) | some (.GLB_SCRATCH, _) | some (.GLB_RESET, _) => true
    | some (.PCIE_BAR2_BASE_F0, _) => o = .f0
    | some (.PCIE_BAR2_BASE_F1, _) => o = .f1
    | _ => false)

/-- The originator may write at `a` as far as expert sessions go (R57). -/
def State.mayWrite (s : State) (o : Origin) (a : Nat) : Bool :=
  match o with
  | .f0 => s.fb F.GLB_EXPERT_UNLOCKED_F0 0 || freeWrite o a
  | .f1 => s.fb F.GLB_EXPERT_UNLOCKED_F1 0 || freeWrite o a
  | _ => true

/-- A write discarded under R57 is counted. -/
def State.denyExpert (s : State) : State := s.count F.GLB_EXPERT_DENIED_COUNT 0 F.GLB_CNT_SAT_EXPERT_DENIED_SAT 0 0

-- ## Reads and writes at an offset

/-- A 32-bit read at BAR0 offset `a`: the state after it and the word. -/
def State.readAt (s : State) (o : Origin) (a : Nat) : State × Nat :=
  if s.offsetSecure a && !(Origin.secure o s) then (s.denyWorld, 0)
  else if Origin.host o && remoteWindow a then (s, 0)
  else if otpWindow a then (s, s.otpWord (a - 0x90000))
  else
    match regAt a with
    | none => (s, 0)
    | some (r, i) => s.readLatched o r i

/-- The bytes of `w` that `be` enables, in `old`. -/
def mergeBytes (old w be : Nat) : Nat :=
  (List.range 4).foldl (fun v k => v + (if be.testBit k then w else old) / 2 ^ (8 * k) % 2 ^ 8 * 2 ^ (8 * k)) 0

/-- A 32-bit write at BAR0 offset `a` with byte enables `be`. The OTP window discards it (R408). -/
def State.writeAt (s : State) (o : Origin) (a w be : Nat) : State :=
  if s.offsetSecure a && !(Origin.secure o s) then s.denyWorld
  else if !s.mayWrite o a then s.denyExpert
  else if Origin.host o && remoteWindow a then s
  else
    match regAt a with
    | none => s
    | some (r, i) =>
      if be % 16 = 15 then s.writeLatched o r i w
      else if r = .MBX_COMMAND then s.writeReg o r i (mergeBytes (s.f F.MBX_COMMAND_DATA i) w be)
      else s

/-- What a read returns to its originator. -/
def State.answer (r : State × Nat) : State := { r.1 with readData := [r.2] }

/-- A read by an originator that the part does not have: a read of an absent function is completed as an Unsupported Request (PCIE_ERR_STATUS); the debug port, disabled, reads nothing and trips the debug detector. -/
def State.unsupported (s : State) (o : Origin) : State := if Origin.host o then s.setF F.PCIE_ERR_STATUS_UR_SENT 0 1 else s.debugSeen o

/-- A read command. -/
def State.busRead (s : State) (o : Origin) (a : Nat) : State := if Origin.present o s then State.answer (s.readAt o a) else s.unsupported o

/-- A 64-bit read: both words, the low one first. -/
def State.busRead64 (s : State) (o : Origin) (a : Nat) : State :=
  if Origin.present o s then
    let l := s.readAt o a
    let h := l.1.readAt o (a + 4)
    { h.1 with readData := [l.2, h.2] }
  else s.unsupported o

/-- A write command of a whole word. -/
def State.busWrite (s : State) (o : Origin) (a w : Nat) : State := if Origin.present o s then s.writeAt o a w 15 else s.debugSeen o

/-- A write of a register's instance. -/
def State.regWriteBy (s : State) (o : Origin) (r : RegId) (i : Nat) (w : Word) : State := s.busWrite o (r.addr i) w.toNat

-- ## REGISTER_WRITE, COUNTER_LOW_READ, shadow hand-over

/-- A write of one word, or of two at an offset aligned to 8 (R8): the low word first, each with its byte enables. -/
def State.busWrite64 (s : State) (o : Origin) (a w be : Nat) (hi : Option (Word × Nat)) : State :=
  match hi with
  | some (v, e) => if a % 8 = 0 then (s.writeAt o a w be).writeAt o (a + 4) v.toNat e else s.writeAt o a w be
  | none => s.writeAt o a w be

/-- REGISTER_WRITE. A poisoned write of the host is discarded and recorded (PCIE_ERR_STATUS). -/
def execRegisterWrite (o : Origin) (a : Nat) (w : Word) (be : Nat) (s : State) (hi : Option (Word × Nat) := none) (poisoned : Bool := false) : Out :=
  .next (if !(Origin.present o s) then s.debugSeen o
    else if poisoned && Origin.host o then s.setF F.PCIE_ERR_STATUS_POISONED_RX 0 1
    else s.busWrite64 o a w.toNat be hi)

def execCounterLowRead (o : Origin) (a : Nat) (wide : Bool) (s : State) : Out := .next (if wide && decide (a % 8 = 0) then s.busRead64 o a else s.busRead o a)

def execShadowArm (o : Origin) (a : Nat) (w : Word) (s : State) : Out := .next (s.busWrite o a w.toNat)

def execShadowCancel (o : Origin) (a : Nat) (w : Word) (s : State) : Out := .next (s.busWrite o a w.toNat)

-- ## REG_READ and REG_WRITE (R59)

/-- `n` words from offset `a` on. -/
def State.readWords (s : State) (o : Origin) (a n : Nat) : State × List Nat :=
  match n with
  | 0 => (s, [])
  | k + 1 =>
    let r := s.readAt o a
    let q := r.1.readWords o (a + 4) k
    (q.1, r.2 :: q.2)

/-- The words written from offset `a` on. -/
def State.writeWords (s : State) (o : Origin) (a : Nat) (ws : List Nat) : State :=
  match ws with
  | [] => s
  | w :: r => (s.writeAt o a w 15).writeWords o (a + 4) r

/-- An aligned run of `n` words within BAR0. -/
def spanOk (a n : Nat) : Bool := decide (a % 4 = 0) && decide (a + 4 * n ≤ 0x4000000)

/-- REG_READ. The layout of its arguments is the model's choice (log entry 89): OFFSET (u32), then COUNT (one byte). -/
def State.regReadCmd (s : State) (m : Nat) : State :=
  s.serve m 0x0400 (· = 5) (fun t =>
    let a := leAt (t.mbxArgs m) 0 4
    let n := byteAt (t.mbxArgs m) 4
    if n = 0 ∨ 62 < n ∨ !spanOk a n then t.putResult m stBadArg []
    else
      let r := t.readWords (mbxOrigin m) a n
      r.1.putResult m stOk (r.2.flatMap (leBytes 4)))

def execRegRead (m : Nat) (s : State) : Out := onMailbox m (s.regReadCmd m)

/-- REG_WRITE: OFFSET, a u32 by the model's choice (log entry 89), and 1 to 61 words. -/
def State.regWriteCmd (s : State) (m : Nat) : State :=
  s.serve m 0x0401 (fun n => decide (8 ≤ n) && decide (n ≤ 248) && decide (n % 4 = 0)) (fun t =>
    let a := leAt (t.mbxArgs m) 0 4
    let ws := wordsOf ((t.mbxLen m - 4) / 4) ((t.mbxArgs m).drop 4)
    if !spanOk a ws.length then t.putResult m stBadArg []
    else (t.writeWords (mbxOrigin m) a ws).putResult m stOk [])

def execRegWrite (m : Nat) (s : State) : Out := onMailbox m (s.regWriteCmd m)

-- ## Mailboxes and semaphores

def execMbxDoorbell (o : Origin) (n : Nat) (w : Word) (s : State) : Out := onMailbox n (s.regWriteBy o .MBX_DOORBELL n w)

def execMbxResultAck (o : Origin) (n : Nat) (w : Word) (s : State) : Out := onMailbox n (s.regWriteBy o .MBX_RESULT_ACK n w)

def execMbxResultHeaderRead (o : Origin) (n : Nat) (wide : Bool) (s : State) : Out :=
  onMailbox n (if wide then s.busRead64 o (RegId.MBX_RESULT.addr (64 * n)) else s.busRead o (RegId.MBX_RESULT.addr (64 * n)))

def execSemLockRead (o : Origin) (n : Nat) (s : State) : Out := onInstance (semOk n) (s.busRead o (RegId.SEM_LOCK.addr n))

def execSemRelease (o : Origin) (n : Nat) (w : Word) (s : State) : Out := onInstance (semOk n) (s.regWriteBy o .SEM_RELEASE n w)

def execClearBroken (o : Origin) (n : Nat) (w : Word) (s : State) : Out := onInstance (semOk n) (s.regWriteBy o .SEM_RELEASE n w)

-- ## Global and PCIe

def execGlbReset (o : Origin) (w : Word) (s : State) : Out := .next (s.regWriteBy o .GLB_RESET 0 w)

def execPcieBar2BaseWrite (o : Origin) (f : Nat) (w : Word) (s : State) : Out :=
  onInstance (decide (f < 2)) (s.regWriteBy o (if f = 0 then .PCIE_BAR2_BASE_F0 else .PCIE_BAR2_BASE_F1) 0 w)

/-- The DRAM address of a BAR2 access at offset `x` of function `f`. -/
def State.bar2Addr (s : State) (f x : Nat) : Nat := (if f = 0 then s.f F.PCIE_BAR2_BASE_F0_BASE 0 else s.f F.PCIE_BAR2_BASE_F1_BASE 0) * 2 ^ 30 + x

/-- An access out of range is counted (R41). -/
def State.outOfRange (s : State) : State := s.count F.PCIE_WIN_OOR_COUNT 0 F.PCIE_ERR_STATUS_WIN_OOR_SAT 0 0


/-- A BAR2 write covers its permitted lines whole: the poison pattern is gone from them (R309). -/
def State.coverLines (s : State) (a n : Nat) (sec : Bool) : State :=
  chainAll ((dramLines a n).filter (fun l => decide (a ≤ 64 * l) && decide (64 * l + 64 ≤ a + n) && s.permitted 8 (64 * l) true sec)) (fun l t => t.cleanLine l) s

/-- Bytes as 32-bit words for the originator. -/
def bytesToWords (bs : List Byte) : List Nat := wordsOf ((bs.length + 3) / 4) bs

/-- An offset within BAR2 (R40). -/
def inBar2 (x : Nat) : Bool := decide (x < 2 ^ 36)

/-- An access to BAR2 of a function that the part does not have (R39): a read is completed as an Unsupported Request, a write discarded. -/
def State.bar2Absent (s : State) (op : Bar2Op) : State :=
  match op with
  | .read _ => s.unsupported .f1
  | .write _ poisoned => if poisoned then s.setF F.PCIE_ERR_STATUS_POISONED_RX 0 1 else s

/-- Every line of `n` bytes at `a` lies in a channel that takes requests (R303). -/
def State.linesOpen (s : State) (a n : Nat) : Bool := (dramLines a n).all (fun l => s.chanOpen (s.channelOf (64 * l)))

/-- BAR2_ACCESS (R41, R403): range, then DRAM under the regions, whose refusals DDR_REQUEST_GRANT counts; a read that meets a poisoned line returns a poisoned completion. An access to a channel that takes no request waits outside the part: it changes nothing, and its sender gives it again (log entry 105). -/
def State.bar2 (s : State) (f x : Nat) (op : Bar2Op) : State :=
  let a := s.bar2Addr f x
  let sec := f = 1 || s.openLc
  match op with
  | .read n =>
    let zero := { s with readData := bytesToWords (List.replicate n 0) }
    if s.dramTop < a + n then zero.outOfRange
    else if !s.linesOpen a n then s
    else
      let t := { s with readData := bytesToWords (s.dramFor 8 a n sec) }
      let t := if (dramLines a n).any (fun l => decide (l ∈ t.mem.poison) && t.permitted 8 (64 * l) false sec) then t.setF F.PCIE_ERR_STATUS_DRAM_POISON 0 1 else t
      t.presentLines 8 a n false sec
  | .write bs poisoned =>
    let n := bs.length
    if poisoned then s.setF F.PCIE_ERR_STATUS_POISONED_RX 0 1
    else if s.dramTop < a + n then s.outOfRange
    else if !s.linesOpen a n then s
    else (s.putFor 8 a bs sec).coverLines a n sec

def execBar2Access (f x : Nat) (op : Bar2Op) (s : State) : Out :=
  onInstance (decide (f < 2) && inBar2 x) (if f = 1 ∧ s.lc ≠ 2 then s.bar2Absent op else s.bar2 f x op)

-- ## Lamp output and hewers

def execRivChClear (o : Origin) (n : Nat) (w : Word) (s : State) : Out := onInstance (decide (n < 64)) (s.regWriteBy o .RIV_CH_CTRL n w)

def execDrsLutDataAccess (o : Origin) (w : Option Word) (s : State) : Out :=
  .next (match w with
    | some v => s.regWriteBy o .DRS_LUT_DATA 0 v
    | none => s.busRead o (RegId.DRS_LUT_DATA.addr 0))

def execHwrDrainSet (o : Origin) (h : Nat) (w : Word) (s : State) : Out := onInstance (hewerOk h) (s.regWriteBy o .HWR_CTRL h w)

def execHwrDrainClear (o : Origin) (h : Nat) (w : Word) (s : State) : Out := onInstance (hewerOk h) (s.regWriteBy o .HWR_CTRL h w)

def execHwrServiceIn (o : Origin) (h : Nat) (w : Word) (s : State) : Out := onInstance (hewerOk h) (s.regWriteBy o .HWR_CTRL h w)

def execHwrServiceOut (o : Origin) (h : Nat) (w : Word) (s : State) : Out := onInstance (hewerOk h) (s.regWriteBy o .HWR_CTRL h w)

/-- HWR_PATCH_WRITE: a match register or patch RAM, at offset `off` of the hewer's window. -/
def execHwrPatchWrite (o : Origin) (h off : Nat) (w : Word) (s : State) : Out :=
  onInstance (hewerOk h && decide (off < 65536)) (s.busWrite o (0x200000 + 65536 * h + off) w.toNat)

-- ## Stockpile, queues, traffic

def execStkPinReq (o : Origin) (w : Word) (s : State) : Out := .next (s.regWriteBy o .STK_PIN 0 w)

def execStkUnpin (o : Origin) (w : Word) (s : State) : Out := .next (s.regWriteBy o .STK_PIN 0 w)

def execSpqQDisable (o : Origin) (w : Word) (s : State) : Out := .next (s.regWriteBy o .SPQ_Q_CFG 0 w)

def execTmgSampleRead (o : Origin) (a : Nat) (s : State) : Out := .next (s.busRead o a)

def execMeterEnable (o : Origin) (w : Word) (s : State) : Out := .next (s.regWriteBy o .TMG_METER_CTRL 0 w)

def execShaperRateWrite (o : Origin) (a : Nat) (w : Word) (s : State) : Out := .next (s.busWrite o a w.toNat)

-- ## Haul and classifier

def execSendRestore (o : Origin) (w : Word) (s : State) : Out := .next (s.regWriteBy o .CLS_RING_CMD 0 w)

def execClearCw (o : Origin) (w : Word) (s : State) : Out := .next (s.regWriteBy o .CLS_RING_CMD 0 w)

def execClearCcw (o : Origin) (w : Word) (s : State) : Out := .next (s.regWriteBy o .CLS_RING_CMD 0 w)

def execClone (o : Origin) (w : Word) (s : State) : Out := .next (s.regWriteBy o .CLS_COMMIT 0 w)

def execGo (o : Origin) (w : Word) (s : State) : Out := .next (s.regWriteBy o .CLS_COMMIT 0 w)

def execAbort (o : Origin) (w : Word) (s : State) : Out := .next (s.regWriteBy o .CLS_COMMIT 0 w)

def execHaulTsPop (o : Origin) (p : Nat) (s : State) : Out := onInstance (decide (p < 6)) (s.busRead o (RegId.HAUL_TS_INFO.addr p))

-- ## Lanes and memory

def execLaneCfgWrite (o : Origin) (n : Nat) (rx : Bool) (w : Word) (s : State) : Out :=
  onInstance (laneOk n) (s.regWriteBy o (if rx then .LANE_RX else .LANE_CFG) n w)

def execArbMaxwaitRead (o : Origin) (c r : Nat) (s : State) : Out := onInstance (memChan c && decide (r < 12)) (s.busRead o (RegId.ARB_MAXWAIT.addr (arbReg c r)))

def execDdrTrainStart (o : Origin) (c : Nat) (w : Word) (s : State) : Out := onInstance (memChan c) (s.regWriteBy o .DDR_TRAIN c w)

def execDdrFillStart (o : Origin) (c : Nat) (w : Word) (s : State) : Out := onInstance (memChan c) (s.regWriteBy o .DDR_FILL c w)

def execDdrLogClear (o : Origin) (w : Word) (s : State) : Out := .next (s.regWriteBy o .DDR_LOG_STATUS 0 w)

def execDdrConfigLock (o : Origin) (c : Nat) (w : Word) (s : State) : Out := onInstance (memChan c) (s.regWriteBy o .DDR_CONFIG c w)

-- ## Interrupts and faults

/-- A claim whose source's level falls within the 2 FCLK after its evaluation returns LEVEL = 0 and counts in SPURIOUS (R352). -/
def State.levelFell (s : State) (t : Nat) (fell : Bool) : State :=
  match s.readData with
  | [v] => if fell && v.testBit 31 then { s.tgtCount t 0 with readData := [v - 2 ^ 31] } else s
  | _ => s

/-- A claim read at BAR0 offset `a`. -/
def State.claimRead (s : State) (o : Origin) (t a : Nat) (fell : Bool) : State := (s.busRead o a).levelFell t (fell && Origin.present o s)

def execIntcClaim (o : Origin) (t : Nat) (s : State) (fell : Bool := false) : Out := onInstance (targetOk t) (s.claimRead o t (RegId.INTC_CLAIM.addr t) fell)

def execIntcClaimS (o : Origin) (s : State) (fell : Bool := false) : Out := .next (s.claimRead o 2 (RegId.INTC_CLAIM_S.addr 0) fell)

def execIntcComplete (o : Origin) (t : Nat) (w : Word) (s : State) : Out := onInstance (targetOk t) (s.regWriteBy o .INTC_COMPLETE t w)

def execIntcCompleteS (o : Origin) (w : Word) (s : State) : Out := .next (s.regWriteBy o .INTC_COMPLETE_S 0 w)

def execIntcRouteWrite (o : Origin) (n : Nat) (w : Word) (s : State) : Out := onInstance (decide (n < 1024)) (s.regWriteBy o .INTC_ROUTE n w)

def execIntcSwSet (o : Origin) (hi : Bool) (w : Word) (s : State) : Out := .next (s.regWriteBy o (if hi then .INTC_SW_SET_HI else .INTC_SW_SET_LO) 0 w)

def execIntcSwClr (o : Origin) (hi : Bool) (w : Word) (s : State) : Out := .next (s.regWriteBy o (if hi then .INTC_SW_CLR_HI else .INTC_SW_CLR_LO) 0 w)

def execFltSrcAck (o : Origin) (f : Nat) (w : Word) (s : State) : Out := onInstance (decide (1 ≤ f) && decide (f < 64)) (s.regWriteBy o .FLT_SRC_ACK f w)

def execFltSafeRelease (o : Origin) (hi : Bool) (w : Word) (s : State) : Out := .next (s.regWriteBy o (if hi then .FLT_SAFE_HI else .FLT_SAFE_LO) 0 w)

/-- KICK: the watchdog's count, which runs outside the model, restarts (R366); EN and PERIOD_MS of the same word are written. -/
def execKick (o : Origin) (w : Word) (s : State) : Out := .next (s.regWriteBy o .FLT_WDOG 0 w)

-- ## Time, power, security

def execTbStep (o : Origin) (w : Word) (s : State) : Out := .next (s.regWriteBy o .CLK_TB_STEP_LO 0 w)

def execTbTrimWrite (o : Origin) (w : Word) (s : State) : Out := .next (s.regWriteBy o .CLK_TB_TRIM 0 w)

def execTmrCmpWrite (o : Origin) (n : Nat) (w : Word) (s : State) : Out := onInstance (timerOk n) (s.regWriteBy o .TMR_CMP_LO n w)

def execTmrOverrunRead (o : Origin) (n : Nat) (s : State) : Out := onInstance (timerOk n) (s.busRead o (RegId.TMR_STATUS.addr n))

def execBpmMinFreeRead (o : Origin) (s : State) : Out := .next (s.busRead o (RegId.BPM_MIN_FREE.addr 0))

def execPwrVminRead (o : Origin) (s : State) : Out := .next (s.busRead o (RegId.PWR_VMIN.addr 0))

def execSpdWipe (o : Origin) (w : Word) (s : State) : Out := .next (s.regWriteBy o .SPD_CTRL 0 w)

def execBlockWorldLock (o : Origin) (w : Word) (s : State) : Out := .next (s.regWriteBy o .SEC_BLOCK_WORLD 0 w)

def execRegionLock (o : Origin) (r : Nat) (w : Word) (s : State) : Out := onInstance (decide (r < 64)) (s.regWriteBy o .SEC_REGION_ATTR r w)

end Sys2Proof.Machine
end

