-- ==== Sys2Proof/Machine/Jobs.lean ====
section
/-! DEFINITION. The end of a job (R55). -/

namespace Sys2Proof.Machine

/-- Firmware releases a lock that it took for a job (R63). -/
def State.releaseOwn (s : State) (n : Nat) : State := if s.lockOwner n = 1 then s.freeLock n else s

/-- The status of a job that ends well, or fails in firmware (R55). -/
def jobEnd (ok : Bool) : Nat := if ok then stOk else stInternal

/-- The work that the end of a job completes, and its final status; none where the job ends by an event of its own (a drain, a load, an update, a destruction, a bedrock load, a commit, a retrain, a calibration). -/
def State.jobWork (s : State) (w : JobWork) (ok : Bool) : Option (State × Nat) :=
  match w with
  | .none => some (s, jobEnd ok)
  | .stage slot off data => some (if ok then (s.erase (slotBase slot) slotSize).program (slotBase slot + off) data else s, jobEnd ok)
  | .verify => some (if ok then s.verifySlot else (s, stInternal))
  | .calFlash r => some ((if ok then { s with conf := { s.conf with cal := r } } else s).releaseOwn 4, jobEnd ok)
  | .tileMap => some (s.releaseOwn 1, jobEnd ok)
  | .tables => some (s.releaseOwn 2, jobEnd ok)
  | _ => none

/-- JOB_DONE: job `j` ends, done with status OK, or failed. -/
def State.jobDone (s : State) (j : Nat) (ok : Bool) : State :=
  match s.job? j with
  | none => s
  | some x =>
    if x.state ≠ .running ∨ s.pwr.cpHalted = true then s
    else
      match s.jobWork x.work ok with
      | none => s
      | some (t, st) => t.endJob j (decide (st = stOk)) st

def execJobDone (j : Nat) (ok : Bool) (s : State) : Out := .next (s.jobDone j ok)

end Sys2Proof.Machine
end

