-- ==== Sys2Proof/Machine/Dispatch.lean ====
section
/-! DEFINITION. The meaning of every command: one arm each. -/

namespace Sys2Proof.Machine

/-- What a command does to everything but the queue. -/
def exec (i : Instr) (s : State) : Host.Outcome State Fault Refusal :=
  match i with
  | .getInfo m => Sys2Proof.Machine.execGetInfo m s
  | .jobStatus m => Sys2Proof.Machine.execJobStatus m s
  | .wallOpen m => Sys2Proof.Machine.execWallOpen m s
  | .wallClose m => Sys2Proof.Machine.execWallClose m s
  | .tileMapLoad m => Sys2Proof.Machine.execTileMapLoad m s
  | .play m => Sys2Proof.Machine.execPlay m s
  | .pause m => Sys2Proof.Machine.execPause m s
  | .brightnessSet m => Sys2Proof.Machine.execBrightnessSet m s
  | .safeStateSet m => Sys2Proof.Machine.execSafeStateSet m s
  | .contextCreate m => Sys2Proof.Machine.execContextCreate m s
  | .contextDestroy m => Sys2Proof.Machine.execContextDestroy m s
  | .contextStats m => Sys2Proof.Machine.execContextStats m s
  | .effortSet m => Sys2Proof.Machine.execEffortSet m s
  | .bedrockLoad m => Sys2Proof.Machine.execBedrockLoad m s
  | .routeSet m => Sys2Proof.Machine.execRouteSet m s
  | .ruleCommit m => Sys2Proof.Machine.execRuleCommit m s
  | .haulPortSet m => Sys2Proof.Machine.execHaulPortSet m s
  | .ingressSet m => Sys2Proof.Machine.execIngressSet m s
  | .lampPortSet m => Sys2Proof.Machine.execLampPortSet m s
  | .dressingLoad m => Sys2Proof.Machine.execDressingLoad m s
  | .scanMapLoad m => Sys2Proof.Machine.execScanMapLoad m s
  | .ucodeUpdate m => Sys2Proof.Machine.execUcodeUpdate m s
  | .ptpConfig m => Sys2Proof.Machine.execPtpConfig m s
  | .deviceAddressSet m => Sys2Proof.Machine.execDeviceAddressSet m s
  | .powerStateSet m => Sys2Proof.Machine.execPowerStateSet m s
  | .calSnapshot m => Sys2Proof.Machine.execCalSnapshot m s
  | .calRestore m => Sys2Proof.Machine.execCalRestore m s
  | .fwStage m => Sys2Proof.Machine.execFwStage m s
  | .fwVerify m => Sys2Proof.Machine.execFwVerify m s
  | .fwActivate m => Sys2Proof.Machine.execFwActivate m s
  | .fwConfirm m => Sys2Proof.Machine.execFwConfirm m s
  | .eventRead m => Sys2Proof.Machine.execEventRead m s
  | .faultClear m => Sys2Proof.Machine.execFaultClear m s
  | .attest m => Sys2Proof.Machine.execAttest m s
  | .keyLoad m => Sys2Proof.Machine.execKeyLoad m s
  | .lcAdvance m => Sys2Proof.Machine.execLcAdvance m s
  | .generateId m => Sys2Proof.Machine.execGenerateId m s
  | .otpProgram m => Sys2Proof.Machine.execOtpProgram m s
  | .otpLock m => Sys2Proof.Machine.execOtpLock m s
  | .revokeKey0 m => Sys2Proof.Machine.execRevokeKey0 m s
  | .lcReturn m => Sys2Proof.Machine.execLcReturn m s
  | .expertChallenge m => Sys2Proof.Machine.execExpertChallenge m s
  | .expertUnlock m => Sys2Proof.Machine.execExpertUnlock m s
  | .expertLock m => Sys2Proof.Machine.execExpertLock m s
  | .regRead m => Sys2Proof.Machine.execRegRead m s
  | .regWrite m => Sys2Proof.Machine.execRegWrite m s
  | .hewerDrain m => Sys2Proof.Machine.execHewerDrain m s
  | .hewerPatch m => Sys2Proof.Machine.execHewerPatch m s
  | .hewerService m => Sys2Proof.Machine.execHewerService m s
  | .ruleStage m => Sys2Proof.Machine.execRuleStage m s
  | .meterConfig m => Sys2Proof.Machine.execMeterConfig m s
  | .shaperConfig m => Sys2Proof.Machine.execShaperConfig m s
  | .queueWeightSet m => Sys2Proof.Machine.execQueueWeightSet m s
  | .laneConfig m => Sys2Proof.Machine.execLaneConfig m s
  | .laneRecal m => Sys2Proof.Machine.execLaneRecal m s
  | .ddrRetrain m => Sys2Proof.Machine.execDdrRetrain m s
  | .ddrTimingSet m => Sys2Proof.Machine.execDdrTimingSet m s
  | .rivChannelConfig m => Sys2Proof.Machine.execRivChannelConfig m s
  | .faultReactionSet m => Sys2Proof.Machine.execFaultReactionSet m s
  | .shedThresholdSet m => Sys2Proof.Machine.execShedThresholdSet m s
  | .schParamSet m => Sys2Proof.Machine.execSchParamSet m s
  | .intcRouteSet m => Sys2Proof.Machine.execIntcRouteSet m s
  | .romInfo m => Sys2Proof.Machine.execRomInfo m s
  | .flashRead m => Sys2Proof.Machine.execFlashRead m s
  | .flashErase m => Sys2Proof.Machine.execFlashErase m s
  | .flashWrite m => Sys2Proof.Machine.execFlashWrite m s
  | .romReset m => Sys2Proof.Machine.execRomReset m s
  | .mbxDoorbell o n w => Sys2Proof.Machine.execMbxDoorbell o n w s
  | .mbxResultAck o n w => Sys2Proof.Machine.execMbxResultAck o n w s
  | .mbxResultHeaderRead o n wide => Sys2Proof.Machine.execMbxResultHeaderRead o n wide s
  | .jobDone j ok => Sys2Proof.Machine.execJobDone j ok s
  | .semLockRead o n => Sys2Proof.Machine.execSemLockRead o n s
  | .semRelease o n w => Sys2Proof.Machine.execSemRelease o n w s
  | .clearBroken o n w => Sys2Proof.Machine.execClearBroken o n w s
  | .semLeaseExpire n => Sys2Proof.Machine.execSemLeaseExpire n s
  | .glbReset o w => Sys2Proof.Machine.execGlbReset o w s
  | .pcieBar2BaseWrite o f w => Sys2Proof.Machine.execPcieBar2BaseWrite o f w s
  | .bar2Access f x a => Sys2Proof.Machine.execBar2Access f x a s
  | .registerWrite o a w be hi poisoned => Sys2Proof.Machine.execRegisterWrite o a w be s hi poisoned
  | .counterLowRead o a wide => Sys2Proof.Machine.execCounterLowRead o a wide s
  | .shadowArm o a w => Sys2Proof.Machine.execShadowArm o a w s
  | .shadowCancel o a w => Sys2Proof.Machine.execShadowCancel o a w s
  | .powerOnReset => Sys2Proof.Machine.execPowerOnReset s
  | .resetN => Sys2Proof.Machine.execResetN s
  | .clearingDone => Sys2Proof.Machine.execClearingDone s
  | .romVerifyDone => Sys2Proof.Machine.execRomVerifyDone s
  | .fwReady => Sys2Proof.Machine.execFwReady s
  | .confirmWindowExpire => Sys2Proof.Machine.execConfirmWindowExpire s
  | .heartbeatTick cpx => Sys2Proof.Machine.execHeartbeatTick s cpx
  | .remoteSessionTimeout => Sys2Proof.Machine.execRemoteSessionTimeout s
  | .pcieFunctionReset f => Sys2Proof.Machine.execPcieFunctionReset f s
  | .pciePerst => Sys2Proof.Machine.execPciePerst s
  | .pcieLinkStateChange pm ltssm speed width => Sys2Proof.Machine.execPcieLinkStateChange pm ltssm speed width s
  | .msiUnmask f v => Sys2Proof.Machine.execMsiUnmask f v s
  | .subframeSync g => Sys2Proof.Machine.execSubframeSync g s
  | .syncGapStart g => Sys2Proof.Machine.execSyncGapStart g s
  | .gridEnable g => Sys2Proof.Machine.execGridEnable g s
  | .bandStart n ue => Sys2Proof.Machine.execBandStart n ue s
  | .rivBurstIssue n => Sys2Proof.Machine.execRivBurstIssue n s
  | .rivBeatResponse n r => Sys2Proof.Machine.execRivBeatResponse n r s
  | .rivChClear o n w => Sys2Proof.Machine.execRivChClear o n w s
  | .lampFrameSend n own => Sys2Proof.Machine.execLampFrameSend n s own
  | .lampStatusReceive n frame => Sys2Proof.Machine.execLampStatusReceive n frame s
  | .breakNoticeConfirm n d => Sys2Proof.Machine.execBreakNoticeConfirm n d s
  | .lampRxLos n los => Sys2Proof.Machine.execLampRxLos n los s
  | .drsLutDataAccess o w => Sys2Proof.Machine.execDrsLutDataAccess o w s
  | .sliceDispatch h => Sys2Proof.Machine.execSliceDispatch h s
  | .sliceComplete h => Sys2Proof.Machine.execSliceComplete h s
  | .bedrockUnitDispatch h => Sys2Proof.Machine.execBedrockUnitDispatch h s
  | .receptionTimeout c => Sys2Proof.Machine.execReceptionTimeout c s
  | .stallLimitExpire h => Sys2Proof.Machine.execStallLimitExpire h s
  | .pixelWordIssue h k m => Sys2Proof.Machine.execPixelWordIssue h k s m
  | .bitstreamWordIssue h k m => Sys2Proof.Machine.execBitstreamWordIssue h k s m
  | .hewerWaitTimeout h => Sys2Proof.Machine.execHewerWaitTimeout h s
  | .hewerTestDone h pass => Sys2Proof.Machine.execHewerTestDone h pass s
  | .patchLoadDone h e => Sys2Proof.Machine.execPatchLoadDone h s e
  | .hwrDrainSet o h w => Sys2Proof.Machine.execHwrDrainSet o h w s
  | .hwrDrainClear o h w => Sys2Proof.Machine.execHwrDrainClear o h w s
  | .hwrServiceIn o h w => Sys2Proof.Machine.execHwrServiceIn o h w s
  | .hwrServiceOut o h w => Sys2Proof.Machine.execHwrServiceOut o h w s
  | .hwrPatchWrite o h off w => Sys2Proof.Machine.execHwrPatchWrite o h off w s
  | .stkPinReq o w => Sys2Proof.Machine.execStkPinReq o w s
  | .stkUnpin o w => Sys2Proof.Machine.execStkUnpin o w s
  | .haulFrameReceive p frame => Sys2Proof.Machine.execHaulFrameReceive p frame s
  | .haulFrameEnd p lost => Sys2Proof.Machine.execHaulFrameEnd p lost s
  | .cleftPendingEnter q => Sys2Proof.Machine.execCleftPendingEnter q s
  | .spillDequeue q ue => Sys2Proof.Machine.execSpillDequeue q s ue
  | .spoilRefill q bad => Sys2Proof.Machine.execSpoilRefill q bad s
  | .spqQDisable o w => Sys2Proof.Machine.execSpqQDisable o w s
  | .egressPacketBuild c ue => Sys2Proof.Machine.execEgressPacketBuild c s ue
  | .bufferAlloc r frame strict => Sys2Proof.Machine.execBufferAlloc r frame strict s
  | .bpmCacheRefill => Sys2Proof.Machine.execBpmCacheRefill s
  | .transmitStart p => Sys2Proof.Machine.execTransmitStart p s
  | .transmitEnd p e => Sys2Proof.Machine.execTransmitEnd p s e
  | .tmgSweep k => Sys2Proof.Machine.execTmgSweep k s
  | .tmgQueueSample p => Sys2Proof.Machine.execTmgQueueSample p s
  | .tmgSampleRead o a => Sys2Proof.Machine.execTmgSampleRead o a s
  | .meterEnable o w => Sys2Proof.Machine.execMeterEnable o w s
  | .shaperRateWrite o a w => Sys2Proof.Machine.execShaperRateWrite o a w s
  | .haulLinkLoss p fault => Sys2Proof.Machine.execHaulLinkLoss p s fault
  | .haulLinkUp p fault => Sys2Proof.Machine.execHaulLinkUp p s fault
  | .ringNoticeReceive p x ccw n hop => Sys2Proof.Machine.execRingNoticeReceive p x ccw n hop s
  | .ringRestoreReceive p x ccw n hop => Sys2Proof.Machine.execRingRestoreReceive p x ccw n hop s
  | .ringNoticeResend p => Sys2Proof.Machine.execRingNoticeResend p s
  | .sendRestore o w => Sys2Proof.Machine.execSendRestore o w s
  | .clearCw o w => Sys2Proof.Machine.execClearCw o w s
  | .clearCcw o w => Sys2Proof.Machine.execClearCcw o w s
  | .fragmentAgeOut k => Sys2Proof.Machine.execFragmentAgeOut k s
  | .clone o w => Sys2Proof.Machine.execClone o w s
  | .cloneDone => Sys2Proof.Machine.execCloneDone s
  | .go o w => Sys2Proof.Machine.execGo o w s
  | .abort o w => Sys2Proof.Machine.execAbort o w s
  | .commitDone => Sys2Proof.Machine.execCommitDone s
  | .haulTsPop o p => Sys2Proof.Machine.execHaulTsPop o p s
  | .pixelFrameReceive p frame err => Sys2Proof.Machine.execPixelFrameReceive p frame err s
  | .ingCloseExpire p => Sys2Proof.Machine.execIngCloseExpire p s
  | .pixelLinkLoss p => Sys2Proof.Machine.execPixelLinkLoss p s
  | .laneSignalChange n up => Sys2Proof.Machine.execLaneSignalChange n up s
  | .laneSyncLoss n => Sys2Proof.Machine.execLaneSyncLoss n s
  | .laneCalStart n => Sys2Proof.Machine.execLaneCalStart n s
  | .laneCalDone n peak ofs => Sys2Proof.Machine.execLaneCalDone n peak ofs s
  | .laneCfgWrite o n rx w => Sys2Proof.Machine.execLaneCfgWrite o n rx w s
  | .calSchedule n => Sys2Proof.Machine.execCalSchedule n s
  | .sensorCal k => Sys2Proof.Machine.execSensorCal k s
  | .ddrRequestGrant c => Sys2Proof.Machine.execDdrRequestGrant c s
  | .ddrTransferComplete c e => Sys2Proof.Machine.execDdrTransferComplete c e s
  | .arbWatchdogExpire c => Sys2Proof.Machine.execArbWatchdogExpire c s
  | .arbMaxwaitRead o c r => Sys2Proof.Machine.execArbMaxwaitRead o c r s
  | .ddrRefreshDue c => Sys2Proof.Machine.execDdrRefreshDue c s
  | .ddrPageIdleExpire c bank => Sys2Proof.Machine.execDdrPageIdleExpire c bank s
  | .ddrTempPoll c hot => Sys2Proof.Machine.execDdrTempPoll c hot s
  | .ddrScrubRead c e => Sys2Proof.Machine.execDdrScrubRead c e s
  | .ddrWriteCrcAlert c sub back => Sys2Proof.Machine.execDdrWriteCrcAlert c sub s back
  | .ddrDriftCheck c drift => Sys2Proof.Machine.execDdrDriftCheck c drift s
  | .ddrRetrainStart c => Sys2Proof.Machine.execDdrRetrainStart c s
  | .ddrRetrainDone c sweep => Sys2Proof.Machine.execDdrRetrainDone c sweep s
  | .ddrTrainStart o c w => Sys2Proof.Machine.execDdrTrainStart o c w s
  | .ddrTrainingDone c sweep => Sys2Proof.Machine.execDdrTrainingDone c sweep s
  | .ddrFillStart o c w => Sys2Proof.Machine.execDdrFillStart o c w s
  | .ddrFillDone c => Sys2Proof.Machine.execDdrFillDone c s
  | .ddrLogClear o w => Sys2Proof.Machine.execDdrLogClear o w s
  | .ddrConfigLock o c w => Sys2Proof.Machine.execDdrConfigLock o c w s
  | .intcClaim o t fell => Sys2Proof.Machine.execIntcClaim o t s fell
  | .intcClaimS o fell => Sys2Proof.Machine.execIntcClaimS o s fell
  | .intcComplete o t w => Sys2Proof.Machine.execIntcComplete o t w s
  | .intcCompleteS o w => Sys2Proof.Machine.execIntcCompleteS o w s
  | .intcRouteWrite o n w => Sys2Proof.Machine.execIntcRouteWrite o n w s
  | .intcRouteApply n => Sys2Proof.Machine.execIntcRouteApply n s
  | .intcSwSet o hi w => Sys2Proof.Machine.execIntcSwSet o hi w s
  | .intcSwClr o hi w => Sys2Proof.Machine.execIntcSwClr o hi w s
  | .wakeLatchSet n => Sys2Proof.Machine.execWakeLatchSet n s
  | .graceExpire f => Sys2Proof.Machine.execGraceExpire f s
  | .fltSrcAck o f w => Sys2Proof.Machine.execFltSrcAck o f w s
  | .fltSafeRelease o hi w => Sys2Proof.Machine.execFltSafeRelease o hi w s
  | .kick o w => Sys2Proof.Machine.execKick o w s
  | .fwWatchdogExpire => Sys2Proof.Machine.execFwWatchdogExpire s
  | .corePllUnlock => Sys2Proof.Machine.execCorePllUnlock s
  | .lanePllUnlock q => Sys2Proof.Machine.execLanePllUnlock q s
  | .thermHigh k tj => Sys2Proof.Machine.execThermHigh k tj s
  | .thermTrip k tj => Sys2Proof.Machine.execThermTrip k tj s
  | .railFault k => Sys2Proof.Machine.execRailFault k s
  | .shedStageEnter mv => Sys2Proof.Machine.execShedStageEnter mv s
  | .shedStageLift mv => Sys2Proof.Machine.execShedStageLift mv s
  | .avsStep tjMax => Sys2Proof.Machine.execAvsStep tjMax s
  | .pmbusReadback mv => Sys2Proof.Machine.execPmbusReadback mv s
  | .tbStep o w => Sys2Proof.Machine.execTbStep o w s
  | .tbTrimWrite o w => Sys2Proof.Machine.execTbTrimWrite o w s
  | .ptpSyncProcess offset gm trim => Sys2Proof.Machine.execPtpSyncProcess offset gm trim s
  | .timerExpire n => Sys2Proof.Machine.execTimerExpire n s
  | .tmrCmpWrite o n w => Sys2Proof.Machine.execTmrCmpWrite o n w s
  | .tmrOverrunRead o n => Sys2Proof.Machine.execTmrOverrunRead o n s
  | .bpmMinFreeRead o => Sys2Proof.Machine.execBpmMinFreeRead o s
  | .pwrVminRead o => Sys2Proof.Machine.execPwrVminRead o s
  | .standbyGate => Sys2Proof.Machine.execStandbyGate s
  | .wakeTimerExpire => Sys2Proof.Machine.execWakeTimerExpire s
  | .wake => Sys2Proof.Machine.execWake s
  | .tamperTrip pin => Sys2Proof.Machine.execTamperTrip pin s
  | .spdWipe o w => Sys2Proof.Machine.execSpdWipe o w s
  | .spdWipeDone => Sys2Proof.Machine.execSpdWipeDone s
  | .blockWorldLock o w => Sys2Proof.Machine.execBlockWorldLock o w s
  | .regionLock o r w => Sys2Proof.Machine.execRegionLock o r w s
  | .laneSyncAcquire n => Sys2Proof.Machine.execLaneSyncAcquire n s
  | .pixelLinkUp p => Sys2Proof.Machine.execPixelLinkUp p s
  | .farSyncReturn n => Sys2Proof.Machine.execFarSyncReturn n s
  | .lanePllLock q => Sys2Proof.Machine.execLanePllLock q s
  | .debugPortReset => Sys2Proof.Machine.execDebugPortReset s
  | .gpioChange k high => Sys2Proof.Machine.execGpioChange k high s
  | .prbsLock n errs => Sys2Proof.Machine.execPrbsLock n errs s
  | .codeErr n k => Sys2Proof.Machine.execCodeErr n k s

end Sys2Proof.Machine
end

