-- ==== Sys2Proof/Machine/Idle.lean ====
section
/-! DEFINITION. What one FCLK does by itself, where no command waits. -/

namespace Sys2Proof.Machine

/-- Firmware runs its work of no command: rules that are due are staged, results of remote mailboxes are sent, PTP messages are sent, faulted hewers are tested (R35, R195, R235, R264). -/
def State.firmwareIdle (s : State) : State :=
  if decide (s.stage = 4) && !s.pwr.cpHalted then s.restage.remoteResults.ptpSend.firmwareTests else s

/-- One FCLK: the time base goes on, the ROM that has read the directory verifies (R43), source slices that have arrived become ready, slices that wait for a descriptor which a safe state freed are looked at (R157), and messages that fell due are sent. -/
def State.idle (s : State) : State := s.tick.romGoesOn.sourcesReady.syncMarks.firmwareIdle.msiScan

end Sys2Proof.Machine
end

