-- ==== Sys2Proof/WellFormed.lean ====
section
/-! DEFINITION. Well-formed commands: every operand names something that the part has, and fits its width. -/

namespace Sys2Proof

/-- The lines that a microword names lie in the 1.5 MiB of local memory, and a write has eight 64-bit words. -/
def LmUse.wf (m : LmUse) : Bool :=
  m.readA.all (fun l => decide (l < 24576)) && m.readB.all (fun l => decide (l < 24576)) &&
    m.write.all (fun w => decide (w.1 < 24576) && decide (w.2.length = 8) && w.2.all (fun v => decide (v < 2 ^ 64)))

/-- A frame of firmware's (R219): a receiver of the chain or all of them, an SFC, and 1 to 256 bytes of CONTROL payload. -/
def PortFrame.wf (f : PortFrame) : Bool :=
  let ok := fun (r a : Nat) => decide (1 ≤ r) && (decide (r ≤ 64) || decide (r = 255)) && decide (a < 256)
  match f with
  | .control r a p => ok r a && decide (1 ≤ p.length) && decide (p.length ≤ 256)
  | .blank r a => ok r a

/-- A well-formed command. -/
def Instr.wf (i : Instr) : Bool :=
  match i with
  | .getInfo m => decide (m < 16)
  | .jobStatus m => decide (m < 16)
  | .wallOpen m => decide (m < 16)
  | .wallClose m => decide (m < 16)
  | .tileMapLoad m => decide (m < 16)
  | .play m => decide (m < 16)
  | .pause m => decide (m < 16)
  | .brightnessSet m => decide (m < 16)
  | .safeStateSet m => decide (m < 16)
  | .contextCreate m => decide (m < 16)
  | .contextDestroy m => decide (m < 16)
  | .contextStats m => decide (m < 16)
  | .effortSet m => decide (m < 16)
  | .bedrockLoad m => decide (m < 16)
  | .routeSet m => decide (m < 16)
  | .ruleCommit m => decide (m < 16)
  | .haulPortSet m => decide (m < 16)
  | .ingressSet m => decide (m < 16)
  | .lampPortSet m => decide (m < 16)
  | .dressingLoad m => decide (m < 16)
  | .scanMapLoad m => decide (m < 16)
  | .ucodeUpdate m => decide (m < 16)
  | .ptpConfig m => decide (m < 16)
  | .deviceAddressSet m => decide (m < 16)
  | .powerStateSet m => decide (m < 16)
  | .calSnapshot m => decide (m < 16)
  | .calRestore m => decide (m < 16)
  | .fwStage m => decide (m < 16)
  | .fwVerify m => decide (m < 16)
  | .fwActivate m => decide (m < 16)
  | .fwConfirm m => decide (m < 16)
  | .eventRead m => decide (m < 16)
  | .faultClear m => decide (m < 16)
  | .attest m => decide (m < 16)
  | .keyLoad m => decide (m < 16)
  | .lcAdvance m => decide (m < 16)
  | .generateId m => decide (m < 16)
  | .otpProgram m => decide (m < 16)
  | .otpLock m => decide (m < 16)
  | .revokeKey0 m => decide (m < 16)
  | .lcReturn m => decide (m < 16)
  | .expertChallenge m => decide (m < 16)
  | .expertUnlock m => decide (m < 16)
  | .expertLock m => decide (m < 16)
  | .regRead m => decide (m < 16)
  | .regWrite m => decide (m < 16)
  | .hewerDrain m => decide (m < 16)
  | .hewerPatch m => decide (m < 16)
  | .hewerService m => decide (m < 16)
  | .ruleStage m => decide (m < 16)
  | .meterConfig m => decide (m < 16)
  | .shaperConfig m => decide (m < 16)
  | .queueWeightSet m => decide (m < 16)
  | .laneConfig m => decide (m < 16)
  | .laneRecal m => decide (m < 16)
  | .ddrRetrain m => decide (m < 16)
  | .ddrTimingSet m => decide (m < 16)
  | .rivChannelConfig m => decide (m < 16)
  | .faultReactionSet m => decide (m < 16)
  | .shedThresholdSet m => decide (m < 16)
  | .schParamSet m => decide (m < 16)
  | .intcRouteSet m => decide (m < 16)
  | .romInfo m => decide (m < 16)
  | .flashRead m => decide (m < 16)
  | .flashErase m => decide (m < 16)
  | .flashWrite m => decide (m < 16)
  | .romReset m => decide (m < 16)
  | .mbxDoorbell _ n _ => decide (n < 16)
  | .mbxResultAck _ n _ => decide (n < 16)
  | .mbxResultHeaderRead _ n _ => decide (n < 16)
  | .jobDone _ _ => true
  | .semLockRead _ n => decide (n < 64)
  | .semRelease _ n _ => decide (n < 64)
  | .clearBroken _ n _ => decide (n < 64)
  | .semLeaseExpire n => decide (n < 64)
  | .glbReset _ _ => true
  | .pcieBar2BaseWrite _ f _ => decide (f < 2)
  | .bar2Access f x _ => decide (f < 2) && decide (x < 68719476736)
  | .registerWrite _ a _ be hi _ => decide (be < 16) && decide (a < 67108864) && hi.all (fun h => decide (h.2 < 16) && decide (a % 8 = 0))
  | .counterLowRead _ a _ => decide (a < 67108864)
  | .shadowArm _ a _ => decide (a < 67108864)
  | .shadowCancel _ a _ => decide (a < 67108864)
  | .powerOnReset => true
  | .resetN => true
  | .clearingDone => true
  | .romVerifyDone => true
  | .fwReady => true
  | .confirmWindowExpire => true
  | .heartbeatTick _ => true
  | .remoteSessionTimeout => true
  | .pcieFunctionReset f => decide (f < 2)
  | .pciePerst => true
  | .pcieLinkStateChange pm ltssm speed width => decide (pm < 4) && decide (ltssm < 64) && decide (speed < 16) && decide (width < 16)
  | .msiUnmask f v => decide (f < 2) && decide (v < 32)
  | .subframeSync g => decide (g < 4)
  | .syncGapStart g => decide (g < 4)
  | .gridEnable g => decide (g < 4)
  | .bandStart n _ => decide (n < 64)
  | .rivBurstIssue n => decide (n < 64)
  | .rivBeatResponse n _ => decide (n < 64)
  | .rivChClear _ n _ => decide (n < 64)
  | .lampFrameSend n own => decide (n < 48) && own.all (·.wf)
  | .lampStatusReceive n _ => decide (n < 48)
  | .breakNoticeConfirm n d => decide (n < 48) && decide (d < 256)
  | .lampRxLos n _ => decide (n < 48)
  | .drsLutDataAccess _ _ => true
  | .sliceDispatch h => decide (h < 24)
  | .sliceComplete h => decide (h < 24)
  | .bedrockUnitDispatch h => decide (h < 24)
  | .receptionTimeout c => decide (c < 4096)
  | .stallLimitExpire h => decide (h < 24)
  | .pixelWordIssue h _ m => decide (h < 24) && m.wf
  | .bitstreamWordIssue h _ m => decide (h < 24) && m.wf
  | .hewerWaitTimeout h => decide (h < 24)
  | .hewerTestDone h _ => decide (h < 24)
  | .patchLoadDone h _ => decide (h < 24)
  | .hwrDrainSet _ h _ => decide (h < 24)
  | .hwrDrainClear _ h _ => decide (h < 24)
  | .hwrServiceIn _ h _ => decide (h < 24)
  | .hwrServiceOut _ h _ => decide (h < 24)
  | .hwrPatchWrite _ h off _ => decide (h < 24) && decide (off < 65536)
  | .stkPinReq _ _ => true
  | .stkUnpin _ _ => true
  | .haulFrameReceive p _ => decide (p < 6)
  | .haulFrameEnd p _ => decide (p < 6)
  | .cleftPendingEnter q => decide (q < 4352)
  | .spillDequeue q _ => decide (q < 4352)
  | .spoilRefill q _ => decide (q < 4352)
  | .spqQDisable _ _ => true
  | .egressPacketBuild c _ => decide (c < 4096)
  | .bufferAlloc r f _ => (match r with | .haul p => decide (p < 6) | _ => true) && decide (64 ≤ f.length) && decide (f.length ≤ 9216)
  | .bpmCacheRefill => true
  | .transmitStart p => decide (p < 6)
  | .transmitEnd p _ => decide (p < 6)
  | .tmgSweep k => decide (k < 1414)
  | .tmgQueueSample p => decide (p < 6)
  | .tmgSampleRead _ a => decide (a < 67108864)
  | .meterEnable _ _ => true
  | .shaperRateWrite _ a _ => decide (a < 67108864)
  | .haulLinkLoss p _ => decide (p < 6)
  | .haulLinkUp p _ => decide (p < 6)
  | .ringNoticeReceive p x _ n hop => decide (p < 6) && decide (x < 256) && decide (n < 256) && decide (hop < 64)
  | .ringRestoreReceive p x _ n hop => decide (p < 6) && decide (x < 256) && decide (n < 256) && decide (hop < 64)
  | .ringNoticeResend p => decide (p < 6)
  | .sendRestore _ _ => true
  | .clearCw _ _ => true
  | .clearCcw _ _ => true
  | .fragmentAgeOut k => decide (k < 256)
  | .clone _ _ => true
  | .cloneDone => true
  | .go _ _ => true
  | .abort _ _ => true
  | .commitDone => true
  | .haulTsPop _ p => decide (p < 6)
  | .pixelFrameReceive p _ _ => decide (p < 8)
  | .ingCloseExpire p => decide (p < 8)
  | .pixelLinkLoss p => decide (p < 8)
  | .laneSignalChange n _ => decide (n < 64)
  | .laneSyncLoss n => decide (n < 64)
  | .laneCalStart n => decide (n < 64)
  | .laneCalDone n peak ofs => decide (n < 64) && decide (peak < 16) && decide (ofs < 64)
  | .laneCfgWrite _ n _ _ => decide (n < 64)
  | .calSchedule n => decide (n < 64)
  | .sensorCal k => decide (k < 16)
  | .ddrRequestGrant c => decide (c < 4)
  | .ddrTransferComplete c _ => decide (c < 4)
  | .arbWatchdogExpire c => decide (c < 4)
  | .arbMaxwaitRead _ c r => decide (c < 4) && decide (r < 12)
  | .ddrRefreshDue c => decide (c < 4)
  | .ddrPageIdleExpire c bank => decide (c < 4) && decide (bank < 64)
  | .ddrTempPoll c _ => decide (c < 4)
  | .ddrScrubRead c _ => decide (c < 4)
  | .ddrWriteCrcAlert c sub back => decide (c < 4) && decide (sub < 2) && decide (back < 32)
  | .ddrDriftCheck c _ => decide (c < 4)
  | .ddrRetrainStart c => decide (c < 4)
  | .ddrRetrainDone c _ => decide (c < 4)
  | .ddrTrainStart _ c _ => decide (c < 4)
  | .ddrTrainingDone c _ => decide (c < 4)
  | .ddrFillStart _ c _ => decide (c < 4)
  | .ddrFillDone c => decide (c < 4)
  | .ddrLogClear _ _ => true
  | .ddrConfigLock _ c _ => decide (c < 4)
  | .intcClaim _ t _ => decide (t < 4)
  | .intcClaimS _ _ => true
  | .intcComplete _ t _ => decide (t < 4)
  | .intcCompleteS _ _ => true
  | .intcRouteWrite _ n _ => decide (n < 1024)
  | .intcRouteApply n => decide (n < 1024)
  | .intcSwSet _ _ _ => true
  | .intcSwClr _ _ _ => true
  | .wakeLatchSet n => decide (n < 1024)
  | .graceExpire f => decide (1 ≤ f) && decide (f < 64)
  | .fltSrcAck _ f _ => decide (1 ≤ f) && decide (f < 64)
  | .fltSafeRelease _ _ _ => true
  | .kick _ _ => true
  | .fwWatchdogExpire => true
  | .corePllUnlock => true
  | .lanePllUnlock q => decide (q < 16)
  | .thermHigh k _ => decide (k < 8)
  | .thermTrip k _ => decide (k < 8)
  | .railFault k => decide (k < 8)
  | .shedStageEnter _ => true
  | .shedStageLift _ => true
  | .avsStep _ => true
  | .pmbusReadback _ => true
  | .tbStep _ _ => true
  | .tbTrimWrite _ _ => true
  | .ptpSyncProcess _ _ _ => true
  | .timerExpire n => decide (n < 64)
  | .tmrCmpWrite _ n _ => decide (n < 64)
  | .tmrOverrunRead _ n => decide (n < 64)
  | .bpmMinFreeRead _ => true
  | .pwrVminRead _ => true
  | .standbyGate => true
  | .wakeTimerExpire => true
  | .wake => true
  | .tamperTrip i => decide (i < 8)
  | .spdWipe _ _ => true
  | .spdWipeDone => true
  | .blockWorldLock _ _ => true
  | .regionLock _ r _ => decide (r < 64)
  | .laneSyncAcquire n => decide (n < 64)
  | .pixelLinkUp p => decide (p < 8)
  | .farSyncReturn n => decide (n < 48)
  | .lanePllLock q => decide (q < 16)
  | .debugPortReset => true
  | .gpioChange k _ => decide (k < 4)
  | .prbsLock n _ => decide (n < 64)
  | .codeErr n _ => decide (n < 64)

end Sys2Proof
end

