-- ==== Sys2Proof/Safety.lean ====
section
/-! DEFINITION. What counts as a safe state and a safe step, and the words in which statements say what a command does. -/

namespace Sys2Proof.Machine

/-- The command runs: it neither faults nor is refused. -/
def Runs (i : Instr) (s : State) : Prop := ∃ t, exec i s = .next t

/-- DRAM, flash and OTP are in their canonical form: addresses strictly rising, no byte listed that an unlisted address reads as. -/
def State.memoriesWf (s : State) : Bool := Tab.wf 0 s.dram && Tab.wf 0xFF s.flash && Tab.wf 0 s.otp

/-- `t` is `s` with exactly the register fields of `l` written: each field of `l` (a field, its instance, its value) holds its value in `t`; every other field of every register, every memory and every other part of the state is as in `s`. -/
def Sets (s : State) (l : List (Fld × Nat × Nat)) (t : State) : Prop :=
  t = { s with regs := t.regs } ∧ (∀ e ∈ l, t.f e.1 e.2.1 = e.2.2) ∧
    ∀ (x : Fld) (i : Nat), (∀ e ∈ l, ¬(x.code = e.1.code ∧ i = e.2.1)) → t.f x i = s.f x i

/-- The register fields of `t` are those of `s` with exactly the fields of `l` written. -/
def Fields (s : State) (l : List (Fld × Nat × Nat)) (t : State) : Prop :=
  (∀ e ∈ l, t.f e.1 e.2.1 = e.2.2) ∧ ∀ (x : Fld) (i : Nat), (∀ e ∈ l, ¬(x.code = e.1.code ∧ i = e.2.1)) → t.f x i = s.f x i

/-- What counting one event writes (R31): counter `x`, up to all ones, and there bit `k` of the SAT field `y`. -/
def State.counted (s : State) (x : Fld) (i : Nat) (y : Fld) (j k : Nat) : List (Fld × Nat × Nat) :=
  if 2 ^ x.len - 1 ≤ s.f x i + 1 then [(x, i, 2 ^ x.len - 1), (y, j, (s.f y j ||| 2 ^ k) % 2 ^ y.len)] else [(x, i, s.f x i + 1)]

/-- Mailbox `m` holds command `op`, the present stage serves it, and it passes the checks that come before its own: FATAL (R368), world and session (R55, R57). -/
def State.accepts (s : State) (m op : Nat) : Bool :=
  s.mbxDue m op && (!s.fatal || servedInFatal op) && (!secureOnly op || s.mbxSecure m) && (!expertOnly op || s.mbxExpert m)

/-- The mailbox and the opcode of a command of firmware (R55); LIFECYCLE_ADVANCE, one opcode for six rows, and the commands of ROM_RECOVERY are not among them. -/
def mailboxOp (c : Instr) : Option (Nat × Nat) :=
  match c with
  | .getInfo m => some (m, 0x0001)
  | .jobStatus m => some (m, 0x0002)
  | .wallOpen m => some (m, 0x0010)
  | .wallClose m => some (m, 0x0011)
  | .tileMapLoad m => some (m, 0x0012)
  | .play m => some (m, 0x0013)
  | .pause m => some (m, 0x0014)
  | .brightnessSet m => some (m, 0x0015)
  | .safeStateSet m => some (m, 0x0016)
  | .contextCreate m => some (m, 0x0020)
  | .contextDestroy m => some (m, 0x0021)
  | .contextStats m => some (m, 0x0022)
  | .effortSet m => some (m, 0x0023)
  | .bedrockLoad m => some (m, 0x0024)
  | .routeSet m => some (m, 0x0030)
  | .ruleCommit m => some (m, 0x0031)
  | .haulPortSet m => some (m, 0x0032)
  | .ingressSet m => some (m, 0x0033)
  | .lampPortSet m => some (m, 0x0034)
  | .dressingLoad m => some (m, 0x0040)
  | .scanMapLoad m => some (m, 0x0041)
  | .ucodeUpdate m => some (m, 0x0042)
  | .ptpConfig m => some (m, 0x0050)
  | .deviceAddressSet m => some (m, 0x0051)
  | .powerStateSet m => some (m, 0x0060)
  | .calSnapshot m => some (m, 0x0061)
  | .calRestore m => some (m, 0x0062)
  | .fwStage m => some (m, 0x0070)
  | .fwVerify m => some (m, 0x0071)
  | .fwActivate m => some (m, 0x0072)
  | .fwConfirm m => some (m, 0x0073)
  | .eventRead m => some (m, 0x0080)
  | .faultClear m => some (m, 0x0081)
  | .attest m => some (m, 0x0090)
  | .keyLoad m => some (m, 0x0091)
  | .expertChallenge m => some (m, 0x00A0)
  | .expertUnlock m => some (m, 0x00A1)
  | .expertLock m => some (m, 0x00A2)
  | .regRead m => some (m, 0x0400)
  | .regWrite m => some (m, 0x0401)
  | .hewerDrain m => some (m, 0x0410)
  | .hewerPatch m => some (m, 0x0411)
  | .hewerService m => some (m, 0x0412)
  | .ruleStage m => some (m, 0x0420)
  | .meterConfig m => some (m, 0x0421)
  | .shaperConfig m => some (m, 0x0422)
  | .queueWeightSet m => some (m, 0x0423)
  | .laneConfig m => some (m, 0x0430)
  | .laneRecal m => some (m, 0x0431)
  | .ddrRetrain m => some (m, 0x0440)
  | .ddrTimingSet m => some (m, 0x0441)
  | .rivChannelConfig m => some (m, 0x0450)
  | .faultReactionSet m => some (m, 0x0460)
  | .shedThresholdSet m => some (m, 0x0470)
  | .schParamSet m => some (m, 0x0480)
  | .intcRouteSet m => some (m, 0x0490)
  | _ => none

/-- The fields that a result writes (R53, R54): the header with the command's TAG, VALID and READ_COUNT 0; STATUS and LEN; the data, with zeros after it; RESULT_PENDING set, BUSY and HELD clear. -/
def answer (m tag status : Nat) (data : List Byte) : List (Fld × Nat × Nat) :=
  (List.range 62).map (fun i => (F.MBX_RESULT_DATA, 64 * m + (i + 2), leAt data (4 * i) 4)) ++
    [(F.MBX_RESULT_DATA, 64 * m + 1, status + 65536 * data.length), (F.MBX_RESULT_DATA, 64 * m, 2 ^ 31 + tag % 65536),
     (F.MBX_STATUS_RESULT_PENDING, m, 1), (F.MBX_STATUS_HELD, m, 0), (F.MBX_STATUS_BUSY, m, 0)]

/-- Mailbox 0 holds command `op` of ROM_RECOVERY, and the part is not scrapped (R49, R412). -/
def State.recovers (s : State) (m op : Nat) : Bool := s.romDue m op && decide (s.lc ≠ 4)

/-- A job is entered: the next job number, mailbox `m`, running, with its work; the newest 64 are kept, and what still runs (R55). -/
def State.withJob (s : State) (m : Nat) (w : JobWork) : State :=
  s.withFw (fun x => { x with jobs := keepJobs ({ num := x.nextJob, mbx := m, work := w } :: x.jobs), nextJob := (x.nextJob + 1) % 2 ^ 32 })

/-- Job `n`, which is `j`, ends with status `st` (R55): done where it is OK, else failed, with no work left. -/
def State.withJobEnd (s : State) (n : Nat) (j : Job) (st : Nat) : State :=
  s.withFw (fun w => { w with jobs := w.jobs.map (fun x => if x.num = n then { j with state := if st = 0 then .done else .failed, status := st, work := .none } else x) })

/-- A write of register `r`, instance `i`, by `o` passes the checks of world, expert session and mailbox window (R51, R57, R400). -/
def State.writeOk (s : State) (o : Origin) (r : RegId) (i : Nat) : Bool :=
  Origin.present o s && (!s.regSecure r i || Origin.secure o s) && s.mayWrite o (r.addr i) && !(Origin.host o && remoteWindow (r.addr i))

/-- A read of it passes them. -/
def State.readOk (s : State) (o : Origin) (r : RegId) (i : Nat) : Bool :=
  Origin.present o s && (!s.regSecure r i || Origin.secure o s) && !(Origin.host o && remoteWindow (r.addr i))

/-- The fields in which a raise is counted and marked (R359, R360). -/
def markFields : List Fld :=
  [F.FLT_SRC_COUNT_COUNT, F.FLT_CNT_SAT_LO_SAT, F.FLT_CNT_SAT_HI_SAT, F.FLT_SRC_STATUS_ACTIVE, F.FLT_SRC_STATUS_INSTANCE]

/-- The fields that a log entry or a reaction may write (R361 to R372): grace, FATAL, the log's registers, the safe states of the ports and what they end, hewers put OUT, and what a restart of the processor breaks or holds. -/
def reactFields : List Fld :=
  [F.FLT_SRC_STATUS_GRACE, F.FLT_STATUS_FATAL, F.FLT_STATUS_FATAL_SRC, F.FLT_STATUS_CP_RESTARTED, F.FLT_CP_RESTARTS_COUNT,
   F.EVT_HEAD_SEQ, F.EVT_TAIL_SEQ, F.EVT_LOST_COUNT, F.EVT_STATUS_LOST_SAT, F.EVT_STATUS_LOST_NEW,
   F.LMP_PORT_STATUS_SAFE, F.LMP_PORT_STATUS_SAFE_KIND, F.LMP_PORT_STATUS_BUF, F.STK_DESC_INFO_DISPLAY, F.RIV_CH_STATUS_COUNT, F.RIV_CH_STATUS_PANIC, F.RIV_CH_STATUS_DONE, F.RIV_CH_STATUS_STATE,
   F.HWR_STATUS_STATE, F.HWR_STATUS_CTX, F.GLB_BOOT_STATUS_STAGE, F.SEM_LOCK_OWNER, F.SEM_LOCK_BROKEN, F.SEM_FREED_LO_FREED, F.SEM_FREED_HI_FREED, F.MBX_STATUS_HELD]

/-- The fields that a raise of a fault source may write. -/
def raiseFields : List Fld := markFields ++ reactFields

/-- The result of mailbox `m` stands in its registers. -/
def State.answered (t : State) (m tag status : Nat) (data : List Byte) : Prop := ∀ e ∈ Sys2Proof.Machine.answer m tag status data, t.f e.1 e.2.1 = e.2.2

/-- The fields that any result may write. -/
def resultFields : List Fld := [F.MBX_RESULT_DATA, F.MBX_STATUS_RESULT_PENDING, F.MBX_STATUS_HELD, F.MBX_STATUS_BUSY]

/-- The fields that follow the hewers in service and the charges of the contexts (R127, R128). -/
def capacityFields : List Fld := [F.SCH_CAPACITY_IN_SERVICE, F.SCH_CAPACITY_CHARGE, F.SCH_LIMIT_LIMIT]

/-- `x` is none of the fields of the list. -/
def Fld.outside (x : Fld) (l : List Fld) : Prop := ∀ y ∈ l, x.code ≠ y.code

/-- The registers that hold an ARM bit (R64): how many there are, their ARMED field, and the place of ARM. -/
def shadowArms : List (RegId × Nat × Fld × Nat) :=
  [(.DRS_CTRL, 1, F.DRS_CTRL_LUT_ARMED, 9), (.DRS_BRIGHT, 4, F.DRS_BRIGHT_SHADOW_ARMED, 31), (.RIV_CH_CTRL, 64, F.RIV_CH_CTRL_SHADOW_ARMED, 0),
   (.LMP_PORT_CTRL, 48, F.LMP_PORT_CTRL_SHADOW_ARMED, 0), (.DDR_TIMING_ARM, 4, F.DDR_TIMING_ARM_SHADOW_ARMED, 0), (.SCH_CTX_ARM, 1, F.SCH_CTX_ARM_SHADOW_ARMED, 0)]

/-- The instance of the ARMED field of such a register: SCH_CTX_ARM reaches the context that SCH_CTX_SEL names. -/
def State.armedAt (s : State) (r : RegId) (i : Nat) : Nat := if r = .SCH_CTX_ARM then s.f F.SCH_CTX_SEL_CTX 0 else i

/-- The bit of FLT_SAFE_KIND of port `n` (R225). -/
def State.kindBit (s : State) (n : Nat) : Nat := (if n < 32 then s.f F.FLT_SAFE_KIND_LO_HOLD 0 / 2 ^ n else s.f F.FLT_SAFE_KIND_HI_HOLD 0 / 2 ^ (n - 32)) % 2

/-- A content key of mailbox `m`'s KEY_LOAD is written in this FCLK (R414, R418). -/
def State.withKey (s : State) (m wall : Nat) (odd : Bool) (key : List Byte) : State :=
  s.withSec (fun w => { w with keys := { wall := wall, odd := odd, key := key } :: w.keys.filter (fun k => !(k.wall = wall && k.odd = odd)), keyAt := (m, s.time.fclk) :: w.keyAt.filter (fun e => e.2 = s.time.fclk) })

/-- Hewer `h` stands in FAULT with the bit `y` of HWR_FAULT: its unit is gone, source `fsid` is raised for it, and the address of sequencer `q` is kept where no bit of HWR_FAULT stood before (R195, R197). -/
def HewerStops (s t : State) (h : Nat) (y : Fld) (fsid q addr : Nat) : Prop :=
  t.f y h = 1 ∧ t.f F.HWR_STATUS_BS_WAIT h = 0 ∧ (t.hewer h).run = none ∧ (t.fatal = false → t.hwState h = hwFault) ∧ t.f F.FLT_SRC_STATUS_ACTIVE fsid = 1 ∧ t.f F.FLT_SRC_STATUS_INSTANCE fsid = h ∧
    ((∀ z ∈ [F.HWR_FAULT_TOKEN_OVF, F.HWR_FAULT_ADDR_RANGE, F.HWR_FAULT_BRANCH_FORM, F.HWR_FAULT_WAIT_TIMEOUT, F.HWR_FAULT_LM_UNCORR, F.HWR_FAULT_PARITY], s.f z h = 0) → t.f F.HWR_FAULT_ADDR_CLASS h = q ∧ t.f F.HWR_FAULT_ADDR_ADDR h = addr % 32768)

/-- STATE of a hewer after a write of HWR_CTRL: DRAIN acts first, then SERVICE (R191, R193, R196). `drain`, `service`: the bits written; `was`, `wasIn`: the bits before; `kept`: the drain in progress is not cancelled; `part`: its patch is PARTIAL. -/
def hwrCtrlState (st : Nat) (drain was service wasIn kept part : Bool) : Nat :=
  let d := if drain && !was then (if st = hwIdle then hwDrained else if st = hwRun then hwDraining else st)
    else if was && !drain then (if st = hwDrained then hwIdle else if st = hwDraining ∧ kept = false then hwRun else st)
    else st
  if service && (decide (d = hwOut) || decide (d = hwFault)) then (if part then d else hwTest)
  else if !service && wasIn then (if d ∈ [hwIdle, hwDrained, hwFault, hwTest] then hwOut else if d = hwRun then hwDraining else d)
  else d

end Sys2Proof.Machine
end

