-- ==== Sys2Proof/Certificates/Slice0/Obligations.lean ====
section
/-! DEFINITION. The statements for the provers. A statement about a command gives the state after it through `Sets`: exactly the named register fields hold the named values, and everything else is as before. -/

open Sys2Proof Sys2Proof.Machine

-- ## The block as a whole

/-- A step takes the command at the front of the queue and runs it on the state with the queue's rest. The model's own convention (log entry 10): the block has no program of its own, commands come from outside. On an empty queue a step lets one FCLK pass (log entry 1): it answers a next state in which no command waits. -/
def Obligations.StepRunsFront : Prop :=
  (∀ (c : Instr) (rest : List Instr) (s : State), s.pending = c :: rest → step s = exec c { s with pending := rest }) ∧
  (∀ (s : State), s.pending = [] → ∃ t, step s = .next t ∧ t.pending = [])

/-- Reset (R11): every field of every register at its reset value, the identity of the part, STAGE 0, mailboxes, locks and sessions free, every source off, and no memory, no command listed. The model's choices that it rests on: log entries 2 to 4. -/
def Obligations.ResetValues : Prop :=
  (∀ (x : Fld) (i : Nat), State.reset.f x i = x.reset i) ∧
  State.reset.f F.GLB_CHIP_ID_PART 0 = 0x9240 ∧ State.reset.f F.GLB_CHIP_ID_VENDOR 0 = 0x1F9B ∧
  State.reset.stage = 0 ∧
  (∀ m, State.reset.f F.MBX_STATUS_BUSY m = 0 ∧ State.reset.f F.MBX_STATUS_RESULT_PENDING m = 0) ∧
  (∀ n, State.reset.f F.SEM_LOCK_OWNER n = 0) ∧
  (∀ n, State.reset.f F.INTC_ROUTE_EN n = 0) ∧
  State.reset.f F.INTC_GLOBAL_MASTER_EN 0 = 0 ∧
  State.reset.dram = [] ∧ State.reset.flash = [] ∧ State.reset.otp = [] ∧ State.reset.pending = []

/-- Reset has its memories in canonical form. -/
def Obligations.ResetMemories : Prop := State.reset.memoriesWf = true

/-- Every step keeps DRAM, flash and OTP in their canonical form, so that equal memories are equal data. -/
def Obligations.StepKeepsMemories : Prop :=
  ∀ s t : State, s.memoriesWf = true → step s = .next t → t.memoriesWf = true

/-- OTP is programmed once (R408): no step clears a programmed bit of it. -/
def Obligations.OtpBitsNeverClear : Prop :=
  ∀ s t : State, step s = .next t →
    ∀ a k : Nat, (Tab.get (0 : Byte) s.otp a).getLsbD k = true → (Tab.get (0 : Byte) t.otp a).getLsbD k = true

/-- A command changes no command that waits: whatever comes later in the queue runs unchanged. -/
def Obligations.CommandsKeepQueue : Prop :=
  ∀ (c : Instr) (s t : State), exec c s = .next t → t.pending = s.pending

/-- Every well-formed command completes in every state, and no command is ever refused. The model's choices that it rests on: log entry 77. -/
def Obligations.WellFormedRuns : Prop :=
  (∀ (c : Instr) (s : State), c.wf = true → Runs c s) ∧
  (∀ (c : Instr) (s : State) (r : Refusal), exec c s ≠ .refused r) ∧
  (∀ (c : Instr) (s : State) (e : Fault), exec c s = .fault e → e = .noSuchInstance ∧ c.wf = false)

-- ## Mailbox commands: the checks that every command passes first

/-- A mailbox that does not hold the command, or a stage that does not serve it, leaves the part as it is (R50, R54, R56): firmware acts on submitted commands only. The model's choices that it rests on: log entry 19. -/
def Obligations.CommandsNeedSubmission : Prop :=
  ∀ (c : Instr) (m op : Nat) (s : State), mailboxOp c = some (m, op) → m < 16 → s.mbxDue m op = false → exec c s = .next s

/-- R368: in FATAL every command but GET_INFO, JOB_STATUS, EVENT_READ and ATTEST returns NOT_PERMITTED and does nothing else; those four pass the checks as before. -/
def Obligations.FatalServesFour : Prop :=
  (∀ (c : Instr) (m op : Nat) (s : State), mailboxOp c = some (m, op) → s.mbxDue m op = true → s.fatal = true → op ∉ [0x0001, 0x0002, 0x0080, 0x0090] →
    ∃ t, exec c s = .next t ∧ Sets s (answer m (s.mbxTag m) 0x0020 []) t) ∧
  (∀ (m op : Nat) (s : State), op ∈ [0x0001, 0x0002, 0x0080, 0x0090] → s.mbxDue m op = true → s.accepts m op = true)

/-- R55, R57: outside FATAL a command of the expert level without a session, and a secure-only command from a normal mailbox, return NOT_PERMITTED and do nothing else. -/
def Obligations.CommandsNeedSession : Prop :=
  (∀ (c : Instr) (m op : Nat) (s : State), mailboxOp c = some (m, op) → s.mbxDue m op = true → expertOnly op = true → s.mbxExpert m = false →
    ∃ t, exec c s = .next t ∧ Sets s (answer m (s.mbxTag m) 0x0020 []) t) ∧
  (∀ (m : Nat) (s : State), s.mbxDue m 0x0091 = true → m ≤ 7 → s.openLc = false →
    ∃ t, exec (.keyLoad m) s = .next t ∧ Sets s (answer m (s.mbxTag m) 0x0020 []) t) ∧
  (∀ (m op : Nat) (s : State), op ∈ [0x0400, 0x0401, 0x0410, 0x0411, 0x0412, 0x0420, 0x0421, 0x0422, 0x0423, 0x0430, 0x0431, 0x0440, 0x0441, 0x0450, 0x0460, 0x0470, 0x0480, 0x0490] →
    m < 8 → s.mbxDue m op = true → s.fatal = false → s.f F.GLB_EXPERT_UNLOCKED_F0 0 = 1 → s.accepts m op = true)

-- ## GET_INFO, JOB_STATUS and the end of a job

/-- GET_INFO (R56): 48 bytes, with the identity, the life cycle and the heartbeat at their places; nothing but the result changes. JOB_STATUS (R55): state and final status of one of the last 64 jobs, BAD_ARGUMENT for an older one. JOB_DONE (R55): a running job of no further work is done and its mailbox shows JOB_DONE. The model's choices that it rests on: log entries 22 and 88. -/
def Obligations.InfoAndJobs : Prop :=
  (∀ (s : State) (m : Nat), s.accepts m 0x0001 = true → s.mbxLen m = 0 →
    ∃ t, exec (.getInfo m) s = .next t ∧ Sets s (answer m (s.mbxTag m) 0 s.infoBytes) t) ∧
  (∀ s : State, s.infoBytes.length = 48 ∧ leAt s.infoBytes 0 4 = 0x92401F9B ∧ leAt s.infoBytes 4 4 = 0x000E4200 ∧
    byteAt s.infoBytes 20 = s.stage % 256 ∧ byteAt s.infoBytes 21 = s.lc % 256 ∧ leAt s.infoBytes 24 2 = s.f F.CLS_DEVICE_ADDR 0 % 65536 ∧
    leAt s.infoBytes 44 4 = s.f F.GLB_HEARTBEAT_COUNT 0 % 2 ^ 32) ∧
  (∀ (s : State) (m : Nat) (j : Job), s.accepts m 0x0002 = true → s.mbxLen m = 4 → s.jobKept? (leAt (s.mbxArgs m) 0 4) = some j → j.status < 65536 →
    ∃ t, exec (.jobStatus m) s = .next t ∧ Sets s (answer m (s.mbxTag m) 0 ([BitVec.ofNat 8 (jobCode j.state), 0] ++ leBytes 2 j.status)) t) ∧
  (∀ (s : State) (m : Nat), s.accepts m 0x0002 = true → s.mbxLen m = 4 → s.jobKept? (leAt (s.mbxArgs m) 0 4) = none →
    ∃ t, exec (.jobStatus m) s = .next t ∧ Sets s (answer m (s.mbxTag m) 0x0012 []) t) ∧
  (∀ (s : State) (n : Nat) (j : Job), s.job? n = some j → j.state = .running → j.work = .none → s.pwr.cpHalted = false →
    ∃ t, exec (.jobDone n true) s = .next t ∧
      Sets (s.withJobEnd n j 0) [(F.MBX_STATUS_JOB_DONE, j.mbx, 1)] t)

-- ## Expert sessions

/-- EXPERT_CHALLENGE (R59) returns 32 bytes and keeps them. EXPERT_UNLOCK (R58): without a signature where none is asked for, with one that INTKEY verifies over the challenge kept (SIG_FAIL with another), and LOCKED while a session is open; the challenge is gone in each case. EXPERT_LOCK from the holder ends the session. The model's choices that it rests on: log entries 5, 6 and 12. -/
def Obligations.ExpertSessions : Prop :=
  (∀ (s : State) (m : Nat), s.accepts m 0x00A0 = true → s.mbxLen m = 0 →
    ∃ t, exec (.expertChallenge m) s = .next t ∧ Sets (s.draw.setChallenge m s.trng32) (answer m (s.mbxTag m) 0 s.trng32) t) ∧
  (∀ (s : State) (m : Nat), s.accepts m 0x00A1 = true → s.mbxExpert m = false → s.unlockSigned m = false →
    ∃ t, exec (.expertUnlock m) s = .next t ∧
      Sets (s.setChallenge m []) ([((sessionOf m).1, 0, 1), ((sessionOf m).2, 0, m), (F.MBX_STATUS_EXPERT, m, 1)] ++ answer m (s.mbxTag m) 0 []) t) ∧
  (∀ (s : State) (m : Nat), s.accepts m 0x00A1 = true → s.mbxExpert m = false → s.unlockSigned m = true → s.mbxLen m = 114 → s.challengeOf m ≠ [] →
    ∃ t, exec (.expertUnlock m) s = .next t ∧
      Sets (s.setChallenge m [])
        (if Config.ed448Verify (s.otpKey 8) (s.challengeOf m) (s.mbxArgs m) = true then [((sessionOf m).1, 0, 1), ((sessionOf m).2, 0, m), (F.MBX_STATUS_EXPERT, m, 1)] ++ answer m (s.mbxTag m) 0 []
         else answer m (s.mbxTag m) 0x0040 []) t) ∧
  (∀ (s : State) (m : Nat), s.accepts m 0x00A1 = true → s.mbxExpert m = true → (s.unlockSigned m = true → s.mbxLen m = 114) →
    ∃ t, exec (.expertUnlock m) s = .next t ∧ Sets (s.setChallenge m []) (answer m (s.mbxTag m) 0x0021 []) t) ∧
  (∀ (s : State) (m : Nat), s.accepts m 0x00A2 = true → s.mbxLen m = 0 → s.mbxExpert m = true → s.f (sessionOf m).2 0 = m →
    ∃ t, exec (.expertLock m) s = .next t ∧
      Sets s ([(F.MBX_STATUS_EXPERT, m, 0), ((sessionOf m).1, 0, 0), ((sessionOf m).2, 0, 0)] ++ answer m (s.mbxTag m) 0 []) t)

/-- REG_READ and REG_WRITE (R59): an aligned run of words within BAR0 is read, one after the other, by the mailbox's own originator; at GLB_SCRATCH a word read is its value, and a word written becomes it and nothing else changes. The model's choices that it rests on: log entries 12, 13 and 89. -/
def Obligations.RegisterCommands : Prop :=
  (∀ (s : State) (m a n : Nat), s.accepts m 0x0400 = true → s.mbxLen m = 5 → a = leAt (s.mbxArgs m) 0 4 → n = byteAt (s.mbxArgs m) 4 → 1 ≤ n → n ≤ 62 → a % 4 = 0 → a + 4 * n ≤ 0x4000000 →
    exec (.regRead m) s = .next ((s.readWords (mbxOrigin m) a n).1.putResult m 0 ((s.readWords (mbxOrigin m) a n).2.flatMap (leBytes 4)))) ∧
  (∀ (s : State) (m : Nat), s.accepts m 0x0400 = true → s.mbxLen m = 5 → leAt (s.mbxArgs m) 0 4 = 0x20 → byteAt (s.mbxArgs m) 4 = 1 →
    ∃ t, exec (.regRead m) s = .next t ∧ Sets s (answer m (s.mbxTag m) 0 (leBytes 4 (s.f F.GLB_SCRATCH_VALUE 0))) t) ∧
  (∀ (s : State) (m : Nat), s.accepts m 0x0401 = true → s.mbxLen m = 8 → leAt (s.mbxArgs m) 0 4 = 0x20 →
    ∃ t, exec (.regWrite m) s = .next t ∧ Sets s ([(F.GLB_SCRATCH_VALUE, 0, leAt (s.mbxArgs m) 4 4)] ++ answer m (s.mbxTag m) 0 []) t)

-- ## Firmware update, recovery, resets and boot

/-- FW_STAGE (R65): without ERASE the chunk is programmed into the slot that does not run, and no verified slot is left; with ERASE a job is started that erases and programs. FW_VERIFY starts a job; at its end the slot that passes the image checks (R48) and whose HANDOVER_VERSION is the running image's is remembered, and a failed check gives the job its status. The model's choices that it rests on: log entries 16, 86 and 90. -/
def Obligations.StageAndVerify : Prop :=
  (∀ (s : State) (m : Nat), s.accepts m 0x0070 = true → 6 ≤ s.mbxLen m → s.mbxLen m ≤ 245 →
    byteAt (s.mbxArgs m) 4 = 0 → leAt (s.mbxArgs m) 0 4 + ((s.mbxArgs m).drop 5).length ≤ 0x600000 →
    ∃ t, exec (.fwStage m) s = .next t ∧
      Sets ((s.withFw (fun w => { w with verified := none })).program (slotBase s.inactive + leAt (s.mbxArgs m) 0 4) ((s.mbxArgs m).drop 5)) (answer m (s.mbxTag m) 0 []) t) ∧
  (∀ (s : State) (m : Nat), s.accepts m 0x0070 = true → 6 ≤ s.mbxLen m → s.mbxLen m ≤ 245 → byteAt (s.mbxArgs m) 4 = 1 → leAt (s.mbxArgs m) 0 4 = 0 →
    ∃ t, exec (.fwStage m) s = .next t ∧
      Sets ((s.withFw (fun w => { w with verified := none })).withJob m (.stage s.inactive 0 ((s.mbxArgs m).drop 5))) (answer m (s.mbxTag m) 1 (leBytes 4 s.fw.nextJob)) t) ∧
  (∀ (s : State) (m : Nat), s.accepts m 0x0071 = true → s.mbxLen m = 0 →
    ∃ t, exec (.fwVerify m) s = .next t ∧ Sets (s.withJob m .verify) (answer m (s.mbxTag m) 1 (leBytes 4 s.fw.nextJob)) t) ∧
  (∀ (s : State) (n : Nat) (j : Job), s.job? n = some j → j.state = .running → j.work = .verify → s.pwr.cpHalted = false →
    ∃ t, exec (.jobDone n true) s = .next t ∧
      (match s.checkImage s.inactive with
       | .ok i => if i.handover = s.fw.image.handover then Sets ((s.withFw (fun w => { w with verified := some i })).withJobEnd n j 0) [(F.MBX_STATUS_JOB_DONE, j.mbx, 1)] t
         else Sets (s.withJobEnd n j 0x0012) [(F.MBX_STATUS_JOB_DONE, j.mbx, 1)] t
       | .error e => Sets (s.withJobEnd n j (imageStatus e)) [(F.MBX_STATUS_JOB_DONE, j.mbx, 1)] t))

/-- FW_ACTIVATE (R65): the directory names the verified slot for a trial of TRY_COUNT tries (three by default), the confirm window asked for (600 s by default) runs, firmware's locks are released and the handover begins. FW_CONFIRM: TRIAL ends, in the directory too; ADVANCE raises the anti-rollback counter. CONFIRM_WINDOW_EXPIRE (R67): the directory names the previous slot and a handover begins. The model's choices that it rests on: log entries 16, 90 and 94. -/
def Obligations.ActivateAndConfirm : Prop :=
  (∀ (s : State) (m : Nat) (i : ImageInfo), s.accepts m 0x0072 = true → s.mbxLen m = 0 ∨ s.mbxLen m = 2 ∨ s.mbxLen m = 3 → (s.mbxLen m ≠ 0 → leAt (s.mbxArgs m) 0 2 ≠ 0) → s.fw.verified = some i → s.faultBusy = false →
    ∃ t, exec (.fwActivate m) s = .next t ∧ t.stage = 5 ∧ t.fw.confirm = some (if s.mbxLen m = 0 then 600 else leAt (s.mbxArgs m) 0 2) ∧ t.fw.previous = some (s.f F.GLB_BOOT_STATUS_IMAGE 0) ∧ t.fw.verified = none ∧
      t.fw.handover = true ∧ t.flash = (s.writeDir { seq := s.nextSeq, active := i.slot, trial := true, tries := if s.mbxLen m = 3 then byteAt (s.mbxArgs m) 2 else 3 }).flash ∧
      t.otp = s.otp ∧ (∀ n, n < 64 → s.lockOwner n = 1 ∨ s.lockOwner n = 2 → t.lockOwner n = 0) ∧ t.answered m (s.mbxTag m) 0 []) ∧
  (∀ (s : State) (m : Nat), s.accepts m 0x0073 = true → s.mbxLen m ≤ 1 → byteAt (s.mbxArgs m) 0 % 2 = 0 → s.fw.confirm ≠ none →
    ∃ t, exec (.fwConfirm m) s = .next t ∧
      Sets ((match s.directory with
        | some (_, d) => s.writeDir { d with seq := (d.seq + 1) % 2 ^ 32, trial := false }
        | none => s).withFw (fun w => { w with confirm := none, previous := none })) ([(F.GLB_BOOT_STATUS_TRIAL, 0, 0)] ++ answer m (s.mbxTag m) 0 []) t) ∧
  (∀ (s : State) (m : Nat), s.accepts m 0x0073 = true → s.mbxLen m = 1 → byteAt (s.mbxArgs m) 0 % 2 = 1 → s.fw.confirm ≠ none →
    ∃ t, exec (.fwConfirm m) s = .next t ∧ t.fw.confirm = none ∧ t.f F.GLB_BOOT_STATUS_TRIAL 0 = 0 ∧ t.dram = s.dram ∧
      t.otp = (if s.lc = 4 then s.otp else (s.raiseRollback s.fw.image.secVersion).otp) ∧ t.answered m (s.mbxTag m) 0 []) ∧
  (∀ (s : State) (w p : Nat), s.fw.confirm = some w → s.fw.previous = some p → s.stage = 4 →
    ∃ t, exec .confirmWindowExpire s = .next t ∧ t.stage = 5 ∧ t.fw.confirm = none ∧ t.fw.previous = none ∧ t.fw.handover = true ∧
      t.flash = (s.writeDir { seq := s.nextSeq, active := p, trial := false, tries := 0 }).flash ∧ t.otp = s.otp)

/-- ROM_RECOVERY (R49): ROM_INFO, FLASH_READ, FLASH_ERASE of a block of 64 KiB, FLASH_WRITE by programming, and ROM_RESET as a chip reset. The model's choices that it rests on: log entries 5, 86 and 87. -/
def Obligations.RomRecovery : Prop :=
  (∀ (s : State) (m : Nat), s.romDue m 0x0800 = true →
    ∃ t, exec (.romInfo m) s = .next t ∧
      Sets s (answer m (s.mbxTag m) 0 (leBytes 4 Config.romVersion ++ leBytes 1 s.lc ++ leBytes 4 Config.flashSize ++ leBytes 1 s.fw.romErrors.1 ++ leBytes 1 s.fw.romErrors.2)) t) ∧
  (∀ (s : State) (m : Nat), s.recovers m 0x0801 = true → s.mbxLen m = 5 → 1 ≤ byteAt (s.mbxArgs m) 4 → byteAt (s.mbxArgs m) 4 ≤ 240 →
    ∃ t, exec (.flashRead m) s = .next t ∧ Sets s (answer m (s.mbxTag m) 0 (s.flashBytes (leAt (s.mbxArgs m) 0 4) (byteAt (s.mbxArgs m) 4))) t) ∧
  (∀ (s : State) (m : Nat), s.recovers m 0x0802 = true → s.mbxLen m = 4 → leAt (s.mbxArgs m) 0 4 % 65536 = 0 →
    ∃ t, exec (.flashErase m) s = .next t ∧ Sets (s.erase (leAt (s.mbxArgs m) 0 4) 65536) (answer m (s.mbxTag m) 0 []) t) ∧
  (∀ (s : State) (m : Nat), s.recovers m 0x0803 = true → 6 ≤ s.mbxLen m → s.mbxLen m ≤ 245 → s.mbxLen m = 5 + byteAt (s.mbxArgs m) 4 →
    ∃ t, exec (.flashWrite m) s = .next t ∧ Sets (s.program (leAt (s.mbxArgs m) 0 4) ((s.mbxArgs m).drop 5)) (answer m (s.mbxTag m) 0 []) t) ∧
  (∀ (s : State) (m : Nat), s.recovers m 0x0804 = true → s.fatal = false → exec (.romReset m) s = .next s.coreReset)

/-- R44: a write to GLB_RESET whose KEY is not 0x7A11 is discarded, whoever of the part's originators makes it, whatever its REQ is. -/
def Obligations.ResetKey : Prop :=
  ∀ (s : State) (o : Origin) (w : Word), Origin.present o s = true → w.toNat / 2 ^ 16 ≠ 0x7A11 → exec (.glbReset o w) s = .next s

/-- R391, R392: RESET_N outside FATAL resets the core domain, and in FATAL neither it nor GLB_RESET does anything (R370). What the reset keeps: DRAM, flash, OTP, the always-on domain with its fields, and the commands that wait; a field that neither the always-on domain holds nor OTP gives is at its reset value. A power-on reset keeps flash, OTP and the waiting commands alone. GLB_RESET with its key is a chip reset. The model's choices that it rests on: log entries 2 and 3. -/
def Obligations.ChipResets : Prop :=
  (∀ s : State, s.fatal = false → exec .resetN s = .next s.coreReset) ∧
  (∀ s : State, s.fatal = true → exec .resetN s = .next s) ∧
  (∀ (s : State) (o : Origin) (w : Word), Origin.present o s = true → w.toNat / 2 ^ 16 = 0x7A11 → w.toNat % 2 = 1 → s.fatal = false → exec (.glbReset o w) s = .next s.coreReset) ∧
  (∀ (s : State) (o : Origin) (w : Word), Origin.present o s = true → s.fatal = true → exec (.glbReset o w) s = .next s) ∧
  (∀ s : State, s.coreReset.dram = s.dram ∧ s.coreReset.flash = s.flash ∧ s.coreReset.otp = s.otp ∧ s.coreReset.aon = s.aon ∧ s.coreReset.pending = s.pending ∧
    (∀ (x : Fld) (i : Nat), x.code ∈ aonCodes → s.coreReset.f x i = s.f x i) ∧
    (∀ (x : Fld) (i : Nat), x.code ∉ aonCodes → x.code ∉ aonRoute →
      x.outside [F.GLB_BOOT_STATUS_LC_STATE, F.SEC_STATUS_LC_STATE, F.PCIE_F1_CTRL_F1_PRESENT, F.GLB_UID_LO_UID, F.GLB_UID_HI_UID, F.SEC_STATUS_KWK_OK, F.SEC_STATUS_ID_OK, F.SEC_STATUS_REVOKE0] →
      s.coreReset.f x i = x.reset i)) ∧
  (∀ s : State, ∃ t, exec .powerOnReset s = .next t ∧ t.flash = s.flash ∧ t.otp = s.otp ∧ t.pending = s.pending ∧ t.dram = [] ∧ t.aon = State.reset.aon ∧
    t.lc = s.lcOtp % 8 ∧ t.fatal = false ∧ t.stage = 0)

/-- CLEARING_DONE (R392, R407): the ROM starts, with the wipe of its cause recorded. ROM_VERIFY_DONE (R48) without a directory: ROM_RECOVERY where neither slot passes, FW_INIT with the image that does. FW_READY (R50): STAGE, the watchdog, and no doorbell held any more. HEARTBEAT_TICK (R43) without a fault counts at FW_READY. REMOTE_SESSION_TIMEOUT (R236) ends the remote session. The model's choices that it rests on: log entries 6, 7, 93 and 107. -/
def Obligations.BootEvents : Prop :=
  (∀ s : State, s.fw.clearing = true → s.pwr.standby = false → ∃ t, exec .clearingDone s = .next t ∧ Sets (s.withFw (fun w => { w with clearing := false })) [(F.SPD_CTRL_CAUSE, 0, 4), (F.GLB_BOOT_STATUS_STAGE, 0, 0)] t) ∧
  (∀ s : State, s.fw.clearing = false → s.stage ≤ 1 → s.pwr.cpHalted = false → s.lc ≠ 4 → s.directory = none →
    ∃ t, exec .romVerifyDone s = .next t ∧ t.flash = s.flash ∧ t.otp = s.repairLc.otp ∧
      (match (s.repairLc.selectImage 0 1).1 with
       | none => t.stage = 2
       | some x => t.stage = 3 ∧ t.f F.GLB_BOOT_STATUS_IMAGE 0 = x.slot % 2 ∧ t.f F.GLB_BOOT_STATUS_FALLBACK 0 = (if x.slot = 0 then 0 else 1) ∧ t.f F.GLB_BOOT_STATUS_TRIAL 0 = 0 ∧
           t.f F.GLB_FW_VERSION_MAJOR 0 = x.major % 256)) ∧
  (∀ s : State, s.stage = 3 → s.pwr.cpHalted = false → (∀ c, c < s.channels → s.f F.DDR_STATUS_STATE c ≠ 5) →
    ∃ t, exec .fwReady s = .next t ∧ t.stage = 4 ∧ t.f F.FLT_WDOG_EN 0 = 1 ∧ (∀ m, m < 16 → t.f F.MBX_STATUS_HELD m = 0) ∧ t.fw.restarted = false ∧ t.fw.handover = false ∧
      t.dram = s.dram ∧ t.flash = s.flash ∧ t.otp = s.otp) ∧
  (∀ s : State, s.stage = 4 → s.pwr.cpHalted = false → ∃ t, exec (.heartbeatTick .none) s = .next t ∧ Sets s [(F.GLB_HEARTBEAT_COUNT, 0, (s.f F.GLB_HEARTBEAT_COUNT 0 + 1) % 2 ^ 32)] t) ∧
  (∀ s : State, s.f F.GLB_EXPERT_UNLOCKED_R 0 = 1 →
    ∃ t, exec .remoteSessionTimeout s = .next t ∧ Sets s [(F.MBX_STATUS_EXPERT, s.f F.GLB_EXPERT_HOLDER_R 0, 0), (F.GLB_EXPERT_UNLOCKED_R, 0, 0), (F.GLB_EXPERT_HOLDER_R, 0, 0)] t)

-- ## Mailbox registers, semaphores, register accesses, BAR2

/-- MBX_DOORBELL (R54, R50): accepted at FW_READY, held before it, refused with OVERRUN while BUSY or RESULT_PENDING; an opcode that firmware does not know is answered UNKNOWN_OPCODE (R55). MBX_RESULT_ACK clears VALID and RESULT_PENDING. MBX_RESULT_HEADER_READ (R53): READ_COUNT is incremented, saturates at 255, and the read returns the new word; a 64-bit read returns the next word too. -/
def Obligations.MailboxRegisters : Prop :=
  (∀ (s : State) (o : Origin) (n : Nat) (w : Word), n < 16 → s.writeOk o .MBX_DOORBELL n = true → w.toNat.testBit 0 = true → s.f F.MBX_STATUS_BUSY n = 0 → s.f F.MBX_STATUS_RESULT_PENDING n = 0 →
    s.stage = 4 → s.mbxOpcode n ∈ knownOpcodes → ∃ t, exec (.mbxDoorbell o n w) s = .next t ∧ Sets s [(F.MBX_STATUS_BUSY, n, 1), (F.MBX_STATUS_HELD, n, 0)] t) ∧
  (∀ (s : State) (o : Origin) (n : Nat) (w : Word), n < 16 → s.writeOk o .MBX_DOORBELL n = true → w.toNat.testBit 0 = true → s.f F.MBX_STATUS_BUSY n = 0 → s.f F.MBX_STATUS_RESULT_PENDING n = 0 →
    s.stage ≠ 4 → s.stage ≠ 2 → ∃ t, exec (.mbxDoorbell o n w) s = .next t ∧ Sets s [(F.MBX_STATUS_BUSY, n, 1), (F.MBX_STATUS_HELD, n, 1)] t) ∧
  (∀ (s : State) (o : Origin) (n : Nat) (w : Word), n < 16 → s.writeOk o .MBX_DOORBELL n = true → w.toNat.testBit 0 = true → (s.f F.MBX_STATUS_BUSY n = 1 ∨ s.f F.MBX_STATUS_RESULT_PENDING n = 1) →
    ∃ t, exec (.mbxDoorbell o n w) s = .next t ∧ Sets s [(F.MBX_STATUS_OVERRUN, n, 1)] t) ∧
  (∀ (s : State) (o : Origin) (n : Nat) (w : Word), n < 16 → s.writeOk o .MBX_DOORBELL n = true → w.toNat.testBit 0 = true → s.f F.MBX_STATUS_BUSY n = 0 → s.f F.MBX_STATUS_RESULT_PENDING n = 0 →
    s.stage = 4 → s.fatal = false → s.mbxOpcode n ∉ knownOpcodes → ∃ t, exec (.mbxDoorbell o n w) s = .next t ∧ Sets s (answer n (s.mbxTag n) 0x0010 []) t) ∧
  (∀ (s : State) (o : Origin) (n : Nat) (w : Word), n < 16 → s.writeOk o .MBX_RESULT_ACK n = true → w.toNat.testBit 0 = true → s.mbxValid n = true →
    ∃ t, exec (.mbxResultAck o n w) s = .next t ∧ Sets s [(F.MBX_RESULT_DATA, 64 * n, (s.f F.MBX_RESULT_DATA (64 * n) - 2 ^ 31) % 2 ^ 32), (F.MBX_STATUS_RESULT_PENDING, n, 0)] t) ∧
  (∀ (s : State) (o : Origin) (n : Nat), n < 16 → s.readOk o .MBX_RESULT (64 * n) = true →
    (let w := s.f F.MBX_RESULT_DATA (64 * n)
     let v := if w / 2 ^ 16 % 256 = 255 then w else w + 2 ^ 16
     (∃ t, exec (.mbxResultHeaderRead o n false) s = .next t ∧ Sets { s with readData := [v] } [(F.MBX_RESULT_DATA, 64 * n, v % 2 ^ 32)] t) ∧
     (∃ t, exec (.mbxResultHeaderRead o n true) s = .next t ∧ Sets { s with readData := [v, s.f F.MBX_RESULT_DATA (64 * n + 1)] } [(F.MBX_RESULT_DATA, 64 * n, v % 2 ^ 32)] t)))

/-- SEM_LOCK_READ (R61): a free lock is granted to the reader, its own stays granted, another's is refused and remembered. SEM_RELEASE by the owner frees the lock, and sets FREED for a reader refused before; by another it is counted. CLEAR_BROKEN by the owner. SEM_LEASE_EXPIRE (R62) breaks a lock that is held. The model's choices that it rests on: log entry 75. -/
def Obligations.Semaphores : Prop :=
  (∀ (s : State) (o : Origin) (n : Nat), n < 64 → s.readOk o .SEM_LOCK n = true → s.f F.SEM_LOCK_OWNER n = 0 →
    ∃ t, exec (.semLockRead o n) s = .next t ∧
      Sets { s with readData := [2 ^ 31 + s.f F.SEM_LOCK_BROKEN n * 2 ^ 30 + Origin.owner o * 2 ^ 24] } [(F.SEM_LOCK_OWNER, n, Origin.owner o)] t) ∧
  (∀ (s : State) (o : Origin) (n : Nat), n < 64 → s.readOk o .SEM_LOCK n = true → s.f F.SEM_LOCK_OWNER n = Origin.owner o →
    exec (.semLockRead o n) s = .next { s with readData := [2 ^ 31 + s.f F.SEM_LOCK_BROKEN n * 2 ^ 30 + Origin.owner o * 2 ^ 24] }) ∧
  (∀ (s : State) (o : Origin) (n : Nat), n < 64 → s.readOk o .SEM_LOCK n = true → s.f F.SEM_LOCK_OWNER n ≠ 0 → s.f F.SEM_LOCK_OWNER n ≠ Origin.owner o → n ∉ s.fw.lockRefused →
    exec (.semLockRead o n) s =
      .next { s.withFw (fun w => { w with lockRefused := n :: w.lockRefused }) with readData := [s.f F.SEM_LOCK_BROKEN n * 2 ^ 30 + s.f F.SEM_LOCK_OWNER n * 2 ^ 24] }) ∧
  (∀ (s : State) (o : Origin) (n : Nat) (w : Word), n < 64 → s.writeOk o .SEM_RELEASE n = true → s.f F.SEM_LOCK_OWNER n = Origin.owner o → w.toNat.testBit 0 = true → w.toNat.testBit 1 = false → n ∉ s.fw.lockRefused →
    ∃ t, exec (.semRelease o n w) s = .next t ∧ Sets s [(F.SEM_LOCK_OWNER, n, 0)] t) ∧
  (∀ (s : State) (o : Origin) (n : Nat) (w : Word), n < 32 → s.writeOk o .SEM_RELEASE n = true → s.f F.SEM_LOCK_OWNER n = Origin.owner o → w.toNat.testBit 0 = true → w.toNat.testBit 1 = false → n ∈ s.fw.lockRefused →
    ∃ t, exec (.semRelease o n w) s = .next t ∧
      Sets (s.withFw (fun x => { x with lockRefused := x.lockRefused.filter (· ≠ n) })) [(F.SEM_LOCK_OWNER, n, 0), (F.SEM_FREED_LO_FREED, 0, (s.f F.SEM_FREED_LO_FREED 0 ||| 2 ^ n) % 2 ^ 32)] t) ∧
  (∀ (s : State) (o : Origin) (n : Nat) (w : Word), n < 64 → s.writeOk o .SEM_RELEASE n = true → s.f F.SEM_LOCK_OWNER n ≠ Origin.owner o → w.toNat.testBit 0 = true →
    ∃ t, exec (.semRelease o n w) s = .next t ∧ t.f F.SEM_BAD_RELEASE_COUNT 0 = min (s.f F.SEM_BAD_RELEASE_COUNT 0 + 1) (2 ^ 32 - 1) ∧ t.f F.SEM_LOCK_OWNER n = s.f F.SEM_LOCK_OWNER n) ∧
  (∀ (s : State) (o : Origin) (n : Nat) (w : Word), n < 64 → s.writeOk o .SEM_RELEASE n = true → s.f F.SEM_LOCK_OWNER n = Origin.owner o → w.toNat.testBit 1 = true → w.toNat.testBit 0 = false →
    ∃ t, exec (.clearBroken o n w) s = .next t ∧ Sets s [(F.SEM_LOCK_BROKEN, n, 0)] t) ∧
  (∀ (s : State) (n : Nat), n < 64 → s.f F.SEM_LEASE_VAL n ≠ 0 → s.f F.SEM_LOCK_OWNER n ≠ 0 → n ∉ s.fw.lockRefused →
    ∃ t, exec (.semLeaseExpire n) s = .next t ∧ Sets s [(F.SEM_LOCK_OWNER, n, 0), (F.SEM_LOCK_BROKEN, n, 1)] t)

/-- Register accesses (R8, R9, R12, R57, R64, R400): a whole word reaches a writable register from every originator that may write it, and there its fields; a 64-bit write is its two words; a part of a word is discarded outside COMMAND areas; a poisoned write of the host is discarded and recorded; a normal access to a secure register is counted and does nothing else; a host's write without a session to a register that asks for one is counted. COUNTER_LOW_READ latches the upper word of its pair, and a 64-bit read returns both words. A write to the word that holds ARM sets or clears ARMED, and no field outside its register. The model's choices that it rests on: log entries 13 and 14. -/
def Obligations.RegisterAccesses : Prop :=
  (∀ (s : State) (o : Origin) (w : Word), Origin.present o s = true → ∃ t, exec (.registerWrite o 0x20 w 15 none false) s = .next t ∧ Sets s [(F.GLB_SCRATCH_VALUE, 0, w.toNat)] t) ∧
  (∀ (s : State) (o : Origin) (r : RegId) (i : Nat) (w : Word), regAt (r.addr i) = some (r, i) → s.writeOk o r i = true → s.writeReg o r i w.toNat = s.writePlain r i w.toNat →
    ∃ t, exec (.registerWrite o (r.addr i) w 15 none false) s = .next t ∧
      (∀ x ∈ r.info.fields, x.acc = .rw → t.f x (s.inst r x i) = w.toNat / 2 ^ x.lo % 2 ^ x.len) ∧
      (∀ (x : Fld) (j : Nat), x.outside r.info.fields → t.f x j = s.f x j)) ∧
  (∀ (s u : State) (o : Origin) (a be e : Nat) (w v : Word), a % 8 = 0 → exec (.registerWrite o a w be none false) s = .next u → Origin.present o s = true → Origin.present o u = true →
    exec (.registerWrite o a w be (some (v, e)) false) s = exec (.registerWrite o (a + 4) v e none false) u) ∧
  (∀ (s : State) (o : Origin) (r : RegId) (i be : Nat) (w : Word), regAt (r.addr i) = some (r, i) → s.writeOk o r i = true → be < 15 → r ≠ .MBX_COMMAND →
    exec (.registerWrite o (r.addr i) w be none false) s = .next s) ∧
  (∀ (s : State) (o : Origin) (i be : Nat) (w : Word), i < 1024 → s.writeOk o .MBX_COMMAND i = true → be < 15 → s.f F.MBX_STATUS_BUSY (i / 64) = 0 →
    ∃ t, exec (.registerWrite o (RegId.MBX_COMMAND.addr i) w be none false) s = .next t ∧ Sets s [(F.MBX_COMMAND_DATA, i, mergeBytes (s.f F.MBX_COMMAND_DATA i) w.toNat be)] t) ∧
  (∀ (s : State) (o : Origin) (a be : Nat) (w : Word) (hi : Option (Word × Nat)), Origin.host o = true → Origin.present o s = true →
    ∃ t, exec (.registerWrite o a w be hi true) s = .next t ∧ Sets s [(F.PCIE_ERR_STATUS_POISONED_RX, 0, 1)] t) ∧
  (∀ (s : State) (o : Origin) (a be i : Nat) (w : Word) (r : RegId), Origin.present o s = true → regAt a = some (r, i) → s.regSecure r i = true → Origin.secure o s = false →
    ∃ t, exec (.registerWrite o a w be none false) s = .next t ∧ t.f F.SEC_WORLD_DENIED_COUNT 0 = min (s.f F.SEC_WORLD_DENIED_COUNT 0 + 1) (2 ^ 32 - 1) ∧ t.f F.SEC_EVENT_WORLD_DENIED 0 = 1 ∧
      ∀ (x : Fld) (j : Nat), x.outside [F.SEC_WORLD_DENIED_COUNT, F.SEC_EVENT_SAT, F.SEC_EVENT_WORLD_DENIED] → t.f x j = s.f x j) ∧
  (∀ (s : State) (o : Origin) (a be i : Nat) (w : Word) (r : RegId), Origin.present o s = true → regAt a = some (r, i) → s.regSecure r i = false → s.mayWrite o a = false →
    ∃ t, exec (.registerWrite o a w be none false) s = .next t ∧ t.f F.GLB_EXPERT_DENIED_COUNT 0 = min (s.f F.GLB_EXPERT_DENIED_COUNT 0 + 1) (2 ^ 32 - 1) ∧
      ∀ (x : Fld) (j : Nat), x.outside [F.GLB_EXPERT_DENIED_COUNT, F.GLB_CNT_SAT_EXPERT_DENIED_SAT] → t.f x j = s.f x j) ∧
  (∀ (s : State) (o : Origin) (r h : RegId) (i : Nat), regAt (r.addr i) = some (r, i) → upperOf r = some h → s.readOk o r i = true →
    ∃ t, exec (.counterLowRead o (r.addr i) false) s = .next t ∧ t = { s with readData := [s.view r i (Origin.secure o s)], latch := t.latch } ∧
      Tab.get 0 t.latch (h.addr i) = s.view h i (Origin.secure o s) + 1 ∧ ∀ a, a ≠ h.addr i → Tab.get 0 t.latch a = Tab.get 0 s.latch a) ∧
  (∀ (s : State) (o : Origin) (r h : RegId) (i : Nat), regAt (r.addr i) = some (r, i) → upperOf r = some h → r.addr i % 8 = 0 → h.addr i = r.addr i + 4 → regAt (h.addr i) = some (h, i) →
    s.readOk o r i = true → s.readOk o h i = true →
    ∃ t, exec (.counterLowRead o (r.addr i) true) s = .next t ∧ t.readData = [s.view r i (Origin.secure o s), s.view h i (Origin.secure o s)] ∧ t.regs = s.regs) ∧
  (∀ (s : State) (o : Origin) (i : Nat) (w : Word) (e : RegId × Nat × Fld × Nat), e ∈ shadowArms → i < e.2.1 → s.writeOk o e.1 i = true → w.toNat.testBit e.2.2.2 = true → (e.1 = .RIV_CH_CTRL → w.toNat.testBit 2 = false) →
    ∃ t, exec (.shadowArm o (e.1.addr i) w) s = .next t ∧ t.f e.2.2.1 (s.armedAt e.1 i) = 1 ∧ ∀ (x : Fld) (j : Nat), x.outside (e.2.2.1 :: e.1.info.fields) → t.f x j = s.f x j) ∧
  (∀ (s : State) (o : Origin) (i : Nat) (w : Word) (e : RegId × Nat × Fld × Nat), e ∈ shadowArms → i < e.2.1 → s.writeOk o e.1 i = true → w.toNat.testBit e.2.2.2 = false → (e.1 = .RIV_CH_CTRL → w.toNat.testBit 2 = false) →
    ∃ t, exec (.shadowCancel o (e.1.addr i) w) s = .next t ∧ t.f e.2.2.1 (s.armedAt e.1 i) = 0 ∧ ∀ (x : Fld) (j : Nat), x.outside (e.2.2.1 :: e.1.info.fields) → t.f x j = s.f x j) ∧
  (∀ (s : State) (o : Origin) (n : Nat) (w : Word), n < 64 → s.writeOk o .RIV_CH_CTRL n = true → w.toNat.testBit 2 = true → s.f F.RIV_CH_STATUS_STATE n ≠ 4 →
    ∃ t, exec (.shadowArm o (RegId.RIV_CH_CTRL.addr n) w) s = .next t ∧ t.f F.RIV_CH_CTRL_SHADOW_ARMED n = w.toNat % 2)

/-- BAR2 (R39, R41, R42, R309, R403): a write of its base; a read in range returns the bytes of DRAM that its function may read, zeros in place of the others, and changes none; a write in range stores its bytes where its function may, and no others; an access out of range is counted and stores nothing; a poisoned write is dropped and reported; a read of a function that is absent is completed as an Unsupported Request. The model's choices that it rests on: log entries 2, 13, 64 and 105. -/
def Obligations.Bar2 : Prop :=
  (∀ (s : State) (o : Origin) (w : Word), s.writeOk o .PCIE_BAR2_BASE_F0 0 = true → ∃ t, exec (.pcieBar2BaseWrite o 0 w) s = .next t ∧ Sets s [(F.PCIE_BAR2_BASE_F0_BASE, 0, w.toNat % 128)] t) ∧
  (∀ (s : State) (o : Origin) (w : Word), s.writeOk o .PCIE_BAR2_BASE_F1 0 = true → ∃ t, exec (.pcieBar2BaseWrite o 1 w) s = .next t ∧ Sets s [(F.PCIE_BAR2_BASE_F1_BASE, 0, w.toNat % 128)] t) ∧
  (∀ (s : State) (f x n : Nat), f < 2 → inBar2 x = true → (f = 1 → s.lc = 2) → s.bar2Addr f x + n ≤ s.dramTop → s.linesOpen (s.bar2Addr f x) n = true →
    ∃ t, exec (.bar2Access f x (.read n)) s = .next t ∧ t.readData = bytesToWords (s.dramFor 8 (s.bar2Addr f x) n (f = 1 || s.openLc)) ∧ t.dram = s.dram) ∧
  (∀ (s : State) (f x : Nat) (bs : List Byte), f < 2 → inBar2 x = true → (f = 1 → s.lc = 2) → s.bar2Addr f x + bs.length ≤ s.dramTop → s.linesOpen (s.bar2Addr f x) bs.length = true →
    s.linesAllowed 8 (s.bar2Addr f x) bs.length true (f = 1 || s.openLc) = true →
    ∃ t, exec (.bar2Access f x (.write bs false)) s = .next t ∧
      (∀ i (h : i < bs.length), Tab.get (0 : Byte) t.dram (s.bar2Addr f x + i) = bs[i]) ∧
      (∀ b, (b < s.bar2Addr f x ∨ s.bar2Addr f x + bs.length ≤ b) → Tab.get (0 : Byte) t.dram b = Tab.get (0 : Byte) s.dram b)) ∧
  (∀ (s : State) (f x a : Nat) (bs : List Byte), f < 2 → inBar2 x = true → (f = 1 → s.lc = 2) → s.bar2Addr f x + bs.length ≤ s.dramTop → s.linesOpen (s.bar2Addr f x) bs.length = true →
    s.byteAllowed 8 a true (f = 1 || s.openLc) = false →
    ∃ t, exec (.bar2Access f x (.write bs false)) s = .next t ∧ Tab.get (0 : Byte) t.dram a = Tab.get (0 : Byte) s.dram a) ∧
  (∀ (s : State) (f x : Nat) (bs : List Byte), f < 2 → inBar2 x = true → (f = 1 → s.lc = 2) → s.dramTop < s.bar2Addr f x + bs.length →
    ∃ t, exec (.bar2Access f x (.write bs false)) s = .next t ∧ t.dram = s.dram ∧ t.f F.PCIE_WIN_OOR_COUNT 0 = min (s.f F.PCIE_WIN_OOR_COUNT 0 + 1) (2 ^ 32 - 1)) ∧
  (∀ (s : State) (f x n : Nat), f < 2 → inBar2 x = true → (f = 1 → s.lc = 2) → s.dramTop < s.bar2Addr f x + n →
    ∃ t, exec (.bar2Access f x (.read n)) s = .next t ∧ t.readData = bytesToWords (List.replicate n 0) ∧ t.f F.PCIE_WIN_OOR_COUNT 0 = min (s.f F.PCIE_WIN_OOR_COUNT 0 + 1) (2 ^ 32 - 1)) ∧
  (∀ (s : State) (f x : Nat) (bs : List Byte), f < 2 → inBar2 x = true →
    ∃ t, exec (.bar2Access f x (.write bs true)) s = .next t ∧ Sets s [(F.PCIE_ERR_STATUS_POISONED_RX, 0, 1)] t) ∧
  (∀ (s : State) (x n : Nat), inBar2 x = true → s.lc ≠ 2 →
    ∃ t, exec (.bar2Access 1 x (.read n)) s = .next t ∧ Sets s [(F.PCIE_ERR_STATUS_UR_SENT, 0, 1)] t)

/-- PCIe events (R58, R60, R355, R389, R428): a function reset frees and breaks the function's locks, no other lock, and ends its session; PERST holds the link down; a change of the link writes its four fields, and link down resets both functions; an unmasked vector whose set is still non-empty sends its message, and one whose set is empty sends none; a reset of the debug port breaks its locks. The model's choices that it rests on: log entries 20 and 78. -/
def Obligations.PcieEvents : Prop :=
  (∀ (s : State) (f : Nat), f < 2 → ∃ t, exec (.pcieFunctionReset f) s = .next t ∧
      (∀ n, n < 64 → s.f F.SEM_LOCK_OWNER n = 4 + f → t.f F.SEM_LOCK_OWNER n = 0 ∧ t.f F.SEM_LOCK_BROKEN n = 1) ∧
      (∀ n, s.f F.SEM_LOCK_OWNER n ≠ 4 + f → t.f F.SEM_LOCK_OWNER n = s.f F.SEM_LOCK_OWNER n ∧ t.f F.SEM_LOCK_BROKEN n = s.f F.SEM_LOCK_BROKEN n) ∧
      t.f (sessionOf (8 * f)).1 0 ≠ 1 ∧ Tab.get 0 t.intc.msiEnable f = 0) ∧
  (∀ s : State, ∃ t, exec .pciePerst s = .next t ∧ t.f F.PCIE_LINK_STATUS_PM_STATE 0 = 3 ∧ t.f F.GLB_EXPERT_UNLOCKED_F0 0 ≠ 1 ∧ t.f F.GLB_EXPERT_UNLOCKED_F1 0 ≠ 1) ∧
  (∀ (s : State) (pm ltssm speed width : Nat), pm < 4 → ltssm < 64 → speed < 16 → width < 16 →
    ∃ t, exec (.pcieLinkStateChange pm ltssm speed width) s = .next t ∧
      t.f F.PCIE_LINK_STATUS_PM_STATE 0 = pm ∧ t.f F.PCIE_LINK_STATUS_LTSSM 0 = ltssm ∧ t.f F.PCIE_LINK_STATUS_SPEED 0 = speed ∧ t.f F.PCIE_LINK_STATUS_WIDTH 0 = width ∧
      t.aon.pcieActivity = decide (pm ≤ 1) ∧
      (pm = 3 → t.f F.GLB_EXPERT_UNLOCKED_F0 0 ≠ 1 ∧ t.f F.GLB_EXPERT_UNLOCKED_F1 0 ≠ 1) ∧
      (pm ≠ 3 → ∀ (x : Fld) (i : Nat), x.outside [F.PCIE_LINK_STATUS_PM_STATE, F.PCIE_LINK_STATUS_LTSSM, F.PCIE_LINK_STATUS_SPEED, F.PCIE_LINK_STATUS_WIDTH] → t.f x i = s.f x i)) ∧
  (∀ (s : State) (f v : Nat), f < 2 → v < 32 → s.intc.due = [32 * f + v] → s.msiSet f v = true → Tab.get 0 s.intc.msiEnable f ≠ 0 → s.f F.PCIE_LINK_STATUS_PM_STATE 0 < 2 →
    ∃ t, exec (.msiUnmask f v) s = .next t ∧ t.intc.sent = (f, v) :: s.intc.sent ∧ t.intc.due = [] ∧ t.f F.PCIE_LINK_STATUS_PM_STATE 0 = 0) ∧
  (∀ (s : State) (f v : Nat), f < 2 → v < 32 → s.intc.due = [32 * f + v] → s.msiSet f v = false → s.linkAsleep = false →
    ∃ t, exec (.msiUnmask f v) s = .next t ∧ t.intc.sent = s.intc.sent ∧ t.intc.due = [] ∧ t.regs = s.regs) ∧
  (∀ (s : State) (f v : Nat), f < 2 → v < 32 → ∃ t, exec (.msiUnmask f v) s = .next t ∧ ∀ k, k ∈ t.intc.masked ↔ k ∈ s.intc.masked ∧ k ≠ 32 * f + v) ∧
  (∀ s : State, ∃ t, exec .debugPortReset s = .next t ∧
      (∀ n, n < 64 → s.f F.SEM_LOCK_OWNER n = 8 → t.f F.SEM_LOCK_OWNER n = 0 ∧ t.f F.SEM_LOCK_BROKEN n = 1) ∧
      (∀ n, s.f F.SEM_LOCK_OWNER n ≠ 8 → t.f F.SEM_LOCK_OWNER n = s.f F.SEM_LOCK_OWNER n ∧ t.f F.SEM_LOCK_BROKEN n = s.f F.SEM_LOCK_BROKEN n))
-- ## Interrupts

/-- INTC_CLAIM and INTC_CLAIM_S (R350, R352): a claim read of a target with room on its stack takes the lowest-numbered presentable source, which goes on top of the stack, and returns LEVEL and its number; where the level falls during the claim, LEVEL is 0 and SPURIOUS counts. With none presentable it counts EMPTY_CLAIM, with the stack full it sets FULL, and returns zero. CP-S sources are claimed at INTC_CLAIM_S of HOST. Of the register fields a claim may otherwise change only the state of a link that a message wakes from L1 (R355). The model's choices that it rests on: log entries 20, 25 and 107. -/
def Obligations.InterruptClaims : Prop :=
  (∀ (s : State) (o : Origin) (t n : Nat), t < 4 → s.readOk o .INTC_CLAIM t = true → (s.claimStack t).length < 8 → s.lowest t (fun k => decide (t ≠ 2) || !s.sourceSecure k) = some n →
    ∃ u, exec (.intcClaim o t false) s = .next u ∧ u.readData = [n + 2 ^ 31] ∧ u.claimStack t = s.claimStack t ++ [n] ∧
      ∀ (x : Fld) (i : Nat), x.outside [F.PCIE_LINK_STATUS_PM_STATE] → u.f x i = s.f x i) ∧
  (∀ (s : State) (o : Origin) (t n : Nat), t < 4 → s.readOk o .INTC_CLAIM t = true → (s.claimStack t).length < 8 → s.lowest t (fun k => decide (t ≠ 2) || !s.sourceSecure k) = some n →
    ∃ u, exec (.intcClaim o t true) s = .next u ∧ u.readData = [n] ∧ u.claimStack t = s.claimStack t ++ [n] ∧ u.f F.INTC_TGT_CNT_COUNT (3 * t) = min (s.f F.INTC_TGT_CNT_COUNT (3 * t) + 1) (2 ^ 32 - 1)) ∧
  (∀ (s : State) (o : Origin) (t : Nat) (fell : Bool), t < 4 → s.readOk o .INTC_CLAIM t = true → (s.claimStack t).length < 8 → s.lowest t (fun k => decide (t ≠ 2) || !s.sourceSecure k) = none →
    ∃ u, exec (.intcClaim o t fell) s = .next u ∧ u.readData = [0] ∧ u.f F.INTC_TGT_CNT_COUNT (3 * t + 1) = min (s.f F.INTC_TGT_CNT_COUNT (3 * t + 1) + 1) (2 ^ 32 - 1) ∧ u.intc = s.intc) ∧
  (∀ (s : State) (o : Origin) (t : Nat) (fell : Bool), t < 4 → s.readOk o .INTC_CLAIM t = true → 8 ≤ (s.claimStack t).length →
    ∃ u, exec (.intcClaim o t fell) s = .next u ∧ u.readData = [0] ∧ u.f F.INTC_TGT_STATUS_FULL t = 1 ∧ u.claimStack t = s.claimStack t ∧
      ∀ (x : Fld) (i : Nat), x.outside [F.INTC_TGT_STATUS_FULL, F.PCIE_LINK_STATUS_PM_STATE] → u.f x i = s.f x i) ∧
  (∀ (s : State) (o : Origin) (n : Nat) (fell : Bool), s.readOk o .INTC_CLAIM_S 0 = true → (s.claimStack 2).length < 8 → s.lowest 2 (fun k => s.sourceSecure k) = some n →
    ∃ u, exec (.intcClaimS o fell) s = .next u ∧ u.readData = [if fell then n else n + 2 ^ 31] ∧ u.claimStack 2 = s.claimStack 2 ++ [n]) ∧
  (∀ (s : State) (o : Origin) (fell : Bool), s.readOk o .INTC_CLAIM_S 0 = true → (s.claimStack 2).length < 8 → s.lowest 2 (fun k => s.sourceSecure k) = none →
    ∃ u, exec (.intcClaimS o fell) s = .next u ∧ u.readData = [0] ∧ u.f F.INTC_TGT_CNT_COUNT 7 = min (s.f F.INTC_TGT_CNT_COUNT 7 + 1) (2 ^ 32 - 1) ∧ u.intc = s.intc) ∧
  (∀ (s : State) (o : Origin) (fell : Bool), s.readOk o .INTC_CLAIM_S 0 = true → 8 ≤ (s.claimStack 2).length →
    ∃ u, exec (.intcClaimS o fell) s = .next u ∧ u.readData = [0] ∧ u.f F.INTC_TGT_STATUS_FULL 2 = 1 ∧ u.claimStack 2 = s.claimStack 2)

/-- INTC_COMPLETE and INTC_COMPLETE_S (R351): the completion of the top of a target's stack pops it; of a source lower on the stack it empties the stack, sets ORDER_ERR and raises INTC_ORDER; of a source not on the stack it counts BAD_COMPLETE and nothing else. -/
def Obligations.InterruptCompletions : Prop :=
  (∀ (s : State) (o : Origin) (t n : Nat) (l : List Nat) (w : Word), t < 4 → s.writeOk o .INTC_COMPLETE t = true → w.toNat % 1024 = n → n ≠ 0 → s.claimStack t = l ++ [n] →
    ∃ u, exec (.intcComplete o t w) s = .next u ∧ u.claimStack t = l) ∧
  (∀ (s : State) (o : Origin) (t : Nat) (w : Word), t < 4 → s.writeOk o .INTC_COMPLETE t = true → w.toNat % 1024 ∈ s.claimStack t → w.toNat % 1024 ≠ 0 → (s.claimStack t).getLast? ≠ some (w.toNat % 1024) →
    ∃ u, exec (.intcComplete o t w) s = .next u ∧ u.claimStack t = [] ∧ u.f F.INTC_TGT_STATUS_ORDER_ERR t = 1 ∧ u.f F.FLT_SRC_STATUS_ACTIVE 23 = 1) ∧
  (∀ (s : State) (o : Origin) (t : Nat) (w : Word), t < 4 → s.writeOk o .INTC_COMPLETE t = true → (w.toNat % 1024 = 0 ∨ w.toNat % 1024 ∉ s.claimStack t) →
    ∃ u, exec (.intcComplete o t w) s = .next u ∧ u.f F.INTC_TGT_CNT_COUNT (3 * t + 2) = min (s.f F.INTC_TGT_CNT_COUNT (3 * t + 2) + 1) (2 ^ 32 - 1) ∧ u.intc = s.intc) ∧
  (∀ (s : State) (o : Origin) (n : Nat) (l : List Nat) (w : Word), s.writeOk o .INTC_COMPLETE_S 0 = true → w.toNat % 1024 = n → n ≠ 0 → s.claimStack 2 = l ++ [n] →
    ∃ u, exec (.intcCompleteS o w) s = .next u ∧ u.claimStack 2 = l) ∧
  (∀ (s : State) (o : Origin) (w : Word), s.writeOk o .INTC_COMPLETE_S 0 = true → w.toNat % 1024 ∈ s.claimStack 2 → w.toNat % 1024 ≠ 0 → (s.claimStack 2).getLast? ≠ some (w.toNat % 1024) →
    ∃ u, exec (.intcCompleteS o w) s = .next u ∧ u.claimStack 2 = [] ∧ u.f F.INTC_TGT_STATUS_ORDER_ERR 2 = 1 ∧ u.f F.FLT_SRC_STATUS_ACTIVE 23 = 1) ∧
  (∀ (s : State) (o : Origin) (w : Word), s.writeOk o .INTC_COMPLETE_S 0 = true → (w.toNat % 1024 = 0 ∨ w.toNat % 1024 ∉ s.claimStack 2) →
    ∃ u, exec (.intcCompleteS o w) s = .next u ∧ u.f F.INTC_TGT_CNT_COUNT 8 = min (s.f F.INTC_TGT_CNT_COUNT 8 + 1) (2 ^ 32 - 1) ∧ u.intc = s.intc)

/-- Routes and software sources (R344, R353, R358): a route write waits with EN and TARGET and writes VECTOR, WAKE_EN at a wake-capable source alone; an application takes effect outside a claim and waits on a claimed source; INTC_ROUTE_SET of one entry; software levels are set and cleared by ones; the wake latch of a source that is asserted in STANDBY is set. The model's choices that it rests on: log entry 25. -/
def Obligations.InterruptRoutes : Prop :=
  (∀ (s : State) (o : Origin) (n : Nat) (w : Word), 1 ≤ n → n < 1024 → s.writeOk o .INTC_ROUTE n = true → (s.sourceSecure n = true → w.toNat / 2 ^ 16 % 4 ≠ 1 ∧ w.toNat / 2 ^ 16 % 4 ≠ 3) →
    ∃ t, exec (.intcRouteWrite o n w) s = .next t ∧
      Sets (s.withIntc (fun y => { y with routeNext := Tab.set none y.routeNext n (if w.toNat / 2 ^ 31 % 2 = s.f F.INTC_ROUTE_EN n ∧ w.toNat / 2 ^ 16 % 4 = s.f F.INTC_ROUTE_TARGET n then none else some (w.toNat / 2 ^ 31 % 2, w.toNat / 2 ^ 16 % 4)) }))
        ([(F.INTC_ROUTE_VECTOR, n, w.toNat / 2 ^ 8 % 32)] ++ (if wakeCapable n then [(F.INTC_ROUTE_WAKE_EN, n, w.toNat / 2 ^ 30 % 2)] else [])) t) ∧
  (∀ (s : State) (n e g : Nat), n < 1024 → s.claimed n = false → Tab.get none s.intc.routeNext n = some (e, g) → e < 2 → g < 4 →
    ∃ t, exec (.intcRouteApply n) s = .next t ∧ t.f F.INTC_ROUTE_EN n = e ∧ t.f F.INTC_ROUTE_TARGET n = g ∧ Tab.get none t.intc.routeNext n = none ∧
      ∀ (x : Fld) (i : Nat), x.outside [F.PCIE_LINK_STATUS_PM_STATE, F.INTC_ROUTE_EN, F.INTC_ROUTE_TARGET] → t.f x i = s.f x i) ∧
  (∀ (s : State) (o : Origin) (n : Nat) (w : Word), 1 ≤ n → n < 1024 → s.writeOk o .INTC_ROUTE n = true → s.sourceSecure n = true → (w.toNat / 2 ^ 16 % 4 = 1 ∨ w.toNat / 2 ^ 16 % 4 = 3) →
    exec (.intcRouteWrite o n w) s = .next s) ∧
  (∀ (s : State) (n : Nat), n < 1024 → s.claimed n = true → exec (.intcRouteApply n) s = .next s) ∧
  (∀ (s : State) (n : Nat), n < 1024 → Tab.get none s.intc.routeNext n = none →
    ∃ t, exec (.intcRouteApply n) s = .next t ∧ ∀ (x : Fld) (i : Nat), x.outside [F.PCIE_LINK_STATUS_PM_STATE] → t.f x i = s.f x i) ∧
  (∀ (s : State) (m c : Nat), s.accepts m 0x0490 = true → c = byteAt (s.mbxArgs m) 0 → 1 ≤ c → c ≤ 41 → s.mbxLen m = 2 + 6 * c → byteAt (s.mbxArgs m) 1 = 0 →
    (∀ i, i < c → s.routeEntryOk (routeEntry (s.mbxArgs m) i) = true ∧ (8 ≤ m ∧ m ≤ 11 ∨ s.sourceSecure (leAt (routeEntry (s.mbxArgs m) i) 0 2) = false)) →
    ∃ t, exec (.intcRouteSet m) s = .next t ∧ t.answered m (s.mbxTag m) 0 [] ∧
      (∀ i, i < c → (∀ j, i < j → j < c → leAt (routeEntry (s.mbxArgs m) j) 0 2 ≠ leAt (routeEntry (s.mbxArgs m) i) 0 2) →
        (let e := routeEntry (s.mbxArgs m) i
         let n := leAt e 0 2
         t.f F.INTC_ROUTE_VECTOR n = byteAt e 4 ∧ (wakeCapable n = true → t.f F.INTC_ROUTE_WAKE_EN n = byteAt e 2 / 2) ∧
         Tab.get none t.intc.routeNext n = if byteAt e 2 % 2 = s.f F.INTC_ROUTE_EN n ∧ byteAt e 3 = s.f F.INTC_ROUTE_TARGET n then none else some (byteAt e 2 % 2, byteAt e 3))) ∧
      ∀ (x : Fld) (i : Nat), x.outside (F.INTC_ROUTE_VECTOR :: F.INTC_ROUTE_WAKE_EN :: resultFields) → t.f x i = s.f x i) ∧
  (∀ (s : State) (o : Origin) (w : Word), s.writeOk o .INTC_SW_SET_LO 0 = true →
    ∃ t, exec (.intcSwSet o false w) s = .next t ∧ t.f F.INTC_SW_SET_LO_LEVEL 0 = (s.f F.INTC_SW_SET_LO_LEVEL 0 ||| w.toNat) % 2 ^ 32 ∧
      ∀ (x : Fld) (i : Nat), x.outside [F.PCIE_LINK_STATUS_PM_STATE, F.INTC_SW_SET_LO_LEVEL] → t.f x i = s.f x i) ∧
  (∀ (s : State) (o : Origin) (w : Word), s.writeOk o .INTC_SW_SET_HI 0 = true →
    ∃ t, exec (.intcSwSet o true w) s = .next t ∧ t.f F.INTC_SW_SET_HI_LEVEL 0 = (s.f F.INTC_SW_SET_HI_LEVEL 0 ||| w.toNat) % 2 ^ 32 ∧
      ∀ (x : Fld) (i : Nat), x.outside [F.PCIE_LINK_STATUS_PM_STATE, F.INTC_SW_SET_HI_LEVEL] → t.f x i = s.f x i) ∧
  (∀ (s : State) (o : Origin) (w : Word), s.writeOk o .INTC_SW_CLR_LO 0 = true →
    ∃ t, exec (.intcSwClr o false w) s = .next t ∧ t.f F.INTC_SW_SET_LO_LEVEL 0 = (s.f F.INTC_SW_SET_LO_LEVEL 0 - (s.f F.INTC_SW_SET_LO_LEVEL 0 &&& w.toNat)) % 2 ^ 32 ∧
      ∀ (x : Fld) (i : Nat), x.outside [F.PCIE_LINK_STATUS_PM_STATE, F.INTC_SW_SET_LO_LEVEL] → t.f x i = s.f x i) ∧
  (∀ (s : State) (o : Origin) (w : Word), s.writeOk o .INTC_SW_CLR_HI 0 = true →
    ∃ t, exec (.intcSwClr o true w) s = .next t ∧ t.f F.INTC_SW_SET_HI_LEVEL 0 = (s.f F.INTC_SW_SET_HI_LEVEL 0 - (s.f F.INTC_SW_SET_HI_LEVEL 0 &&& w.toNat)) % 2 ^ 32 ∧
      ∀ (x : Fld) (i : Nat), x.outside [F.PCIE_LINK_STATUS_PM_STATE, F.INTC_SW_SET_HI_LEVEL] → t.f x i = s.f x i) ∧
  (∀ (s : State) (n : Nat), n < 1024 → s.pwr.standby = true → wakeCapable n = true → s.level n = true → n ∉ s.aon.steady → n ∉ s.aon.wakeLatch →
    exec (.wakeLatchSet n) s = .next (s.withAon (fun y => { y with wakeLatch := y.wakeLatch ++ [n] }))) ∧
  (∀ (s : State) (n : Nat), n < 1024 → (s.pwr.standby = false ∨ wakeCapable n = false ∨ s.level n = false ∨ n ∈ s.aon.steady ∨ n ∈ s.aon.wakeLatch) → exec (.wakeLatchSet n) s = .next s)

-- ## Faults

/-- Commands on faults and events (R362, R363, R372, R373, R225): EVENT_READ returns HEAD, TAIL and the entries from FROM on, and with ADVANCE moves TAIL past them; FAULT_CLEAR of one source or of all clears ACTIVE, EXPIRED and its timer with a log entry, and with RELEASE lets its ports go; FAULT_REACTION_SET writes the source's configuration; SAFE_STATE_SET sets the kind of one port or of all, which the ports follow at their next sync. The model's choices that it rests on: log entries 23, 28 and 108. -/
def Obligations.FaultCommands : Prop :=
  (∀ (s : State) (m q n adv : Nat), s.accepts m 0x0080 = true → s.mbxLen m = 6 → q = s.evtFirst (leAt (s.mbxArgs m) 0 4) → 1 ≤ byteAt (s.mbxArgs m) 4 → byteAt (s.mbxArgs m) 4 ≤ 7 →
    adv = byteAt (s.mbxArgs m) 5 → adv ≤ 1 → (adv = 1 → s.lockElsewhere 7 = false) → n = min (byteAt (s.mbxArgs m) 4) ((s.f F.EVT_HEAD_SEQ 0 + 2 ^ 32 - q) % 2 ^ 32) → (∀ e ∈ s.flt.log, e.2.length ≤ 32) →
    ∃ t, exec (.eventRead m) s = .next t ∧
      Sets s (answer m (s.mbxTag m) 0 (leBytes 4 (s.f F.EVT_HEAD_SEQ 0) ++ leBytes 4 (s.f F.EVT_TAIL_SEQ 0) ++ (List.range n).flatMap (fun i => s.evtRead ((q + i) % 2 ^ 32))) ++
        (if adv = 1 ∧ 0 < n ∧ (q + n + 2 ^ 32 - s.f F.EVT_TAIL_SEQ 0) % 2 ^ 32 ≤ s.evtHeld then [(F.EVT_TAIL_SEQ, 0, (q + n) % 2 ^ 32)] else [])) t) ∧
  (∀ (s : State) (m f : Nat), s.accepts m 0x0081 = true → s.mbxLen m = 2 → f = byteAt (s.mbxArgs m) 0 → 1 ≤ f → f ≤ 34 → byteAt (s.mbxArgs m) 1 = 0 →
    ∃ t, exec (.faultClear m) s = .next t ∧ t.f F.FLT_SRC_STATUS_ACTIVE f = 0 ∧ t.f F.FLT_SRC_STATUS_EXPIRED f = 0 ∧ t.f F.FLT_SRC_STATUS_GRACE f = 0 ∧ Tab.get none t.flt.grace f = none ∧
      t.f F.EVT_HEAD_SEQ 0 = (s.f F.EVT_HEAD_SEQ 0 + 1) % 2 ^ 32 ∧ t.flt.holders = s.flt.holders ∧ t.f F.MBX_STATUS_BUSY m = 0) ∧
  (∀ (s : State) (m f r x : Nat), s.accepts m 0x0081 = true → s.mbxLen m = 2 → f = byteAt (s.mbxArgs m) 0 → (1 ≤ f ∧ f ≤ 34 ∨ f = 255) → r = byteAt (s.mbxArgs m) 1 → r ≤ 1 → 1 ≤ x → x ≤ 34 → (f = 255 ∨ f = x) →
    ∃ t, exec (.faultClear m) s = .next t ∧ t.f F.FLT_SRC_STATUS_ACTIVE x ≠ 1 ∧ t.f F.FLT_SRC_STATUS_EXPIRED x ≠ 1 ∧ Tab.get none t.flt.grace x = none ∧ (r = 1 → ∀ p, p < 48 → x ∉ t.holders p) ∧
      t.answered m (s.mbxTag m) 0 []) ∧
  (∀ (s : State) (m f c r g u v : Nat), s.accepts m 0x0460 = true → s.mbxLen m = 7 → f = byteAt (s.mbxArgs m) 0 → c = byteAt (s.mbxArgs m) 1 → r = byteAt (s.mbxArgs m) 2 → g = byteAt (s.mbxArgs m) 3 →
    u = byteAt (s.mbxArgs m) 4 → v = leAt (s.mbxArgs m) 5 2 → 1 ≤ f → f ≤ 34 → c ≤ 2 → r ≤ 3 → g ≤ 15 → u ≤ 1 → v ≤ 1023 → (r = 2 → 1 ≤ v ∧ v ≤ 1000) → (fixedSource f = true → c = 2) →
    ∃ t, exec (.faultReactionSet m) s = .next t ∧
      Sets s ([(F.FLT_SRC_CFG_CLASS, f, c), (F.FLT_SRC_CFG_REACTION, f, r), (F.FLT_SRC_CFG_ESC_SAFE, f, g % 2), (F.FLT_SRC_CFG_ESC_FATAL, f, g / 2 % 2), (F.FLT_SRC_CFG_SCOPE, f, g / 4 % 2),
        (F.FLT_SRC_CFG_LOG, f, g / 8 % 2), (F.FLT_SRC_CFG_UNIT, f, u), (F.FLT_SRC_CFG_VAL, f, v)] ++ answer m (s.mbxTag m) 0 []) t) ∧
  (∀ (s : State) (m p k : Nat), s.accepts m 0x0016 = true → s.mbxLen m = 2 → p = byteAt (s.mbxArgs m) 0 → (p < 48 ∨ p = 255) → k = byteAt (s.mbxArgs m) 1 → k ≤ 1 →
    ∃ t, exec (.safeStateSet m) s = .next t ∧ t.answered m (s.mbxTag m) 0 [] ∧
      (∀ n, n < 48 → (p = 255 ∨ p = n) → t.f F.LMP_PORT_STATUS_SAFE_KIND n = k ∧ t.kindBit n = k) ∧
      (∀ n, n < 48 → p ≠ 255 → p ≠ n → t.f F.LMP_PORT_STATUS_SAFE_KIND n = s.f F.LMP_PORT_STATUS_SAFE_KIND n ∧ t.kindBit n = s.kindBit n) ∧
      (∀ (x : Fld) (i : Nat), x.outside (F.FLT_SAFE_KIND_LO_HOLD :: F.FLT_SAFE_KIND_HI_HOLD :: F.LMP_PORT_STATUS_SAFE_KIND :: resultFields) → t.f x i = s.f x i) ∧ t.lamp = s.lamp)

/-- Grace timers, release, the watchdog (R363, R364, R366): an acknowledgement stops the timer; an expiry sets EXPIRED and escalates to the safe state and to FATAL as its configuration said when it started; a released port is held by no source; KICK writes EN and the period of the same word; the firmware watchdog raises FW_WATCHDOG where it counts and does nothing where it does not. The model's choices that it rests on: log entries 1 and 27. -/
def Obligations.FaultTimers : Prop :=
  (∀ (s : State) (o : Origin) (f : Nat) (w : Word), 1 ≤ f → f < 64 → s.writeOk o .FLT_SRC_ACK f = true → w.toNat.testBit 0 = true →
    ∃ t, exec (.fltSrcAck o f w) s = .next t ∧ Sets (s.withFlt (fun y => { y with grace := Tab.set none y.grace f none })) [(F.FLT_SRC_STATUS_GRACE, f, 0)] t) ∧
  (∀ (s : State) (f : Nat) (g : Grace), 1 ≤ f → f < 64 → Tab.get none s.flt.grace f = some g →
    ∃ t, exec (.graceExpire f) s = .next t ∧ t.f F.FLT_SRC_STATUS_EXPIRED f = 1 ∧ Tab.get none t.flt.grace f = none ∧ (g.escFatal = true → t.fatal = true) ∧
      (g.escSafe = true → ∀ p, p ∈ safeScope f g.scope g.insts → f ∈ t.holders p) ∧
      ∀ (x : Fld) (i : Nat), x.outside (F.FLT_SRC_STATUS_EXPIRED :: reactFields) → t.f x i = s.f x i) ∧
  (∀ (s : State) (o : Origin) (w : Word) (p : Nat), s.writeOk o .FLT_SAFE_LO 0 = true → s.fatal = false → p < 32 → w.toNat.testBit p = true →
    ∃ t, exec (.fltSafeRelease o false w) s = .next t ∧ t.holders p = [] ∧ (s.shed5 = false → (s.port p).safe = true → s.holders p ≠ [] → t.f F.LMP_PORT_STATUS_SAFE p = 0)) ∧
  (∀ (s : State) (o : Origin) (w : Word) (p : Nat), s.writeOk o .FLT_SAFE_HI 0 = true → s.fatal = false → 32 ≤ p → p < 48 → w.toNat.testBit (p - 32) = true →
    ∃ t, exec (.fltSafeRelease o true w) s = .next t ∧ t.holders p = []) ∧
  (∀ (s : State) (o : Origin) (w : Word), s.writeOk o .FLT_WDOG 0 = true →
    ∃ t, exec (.kick o w) s = .next t ∧ Sets s [(F.FLT_WDOG_EN, 0, w.toNat / 2 ^ 31 % 2), (F.FLT_WDOG_PERIOD_MS, 0, w.toNat % 2 ^ 16)] t) ∧
  (∀ s : State, s.f F.FLT_WDOG_EN 0 = 1 → s.stage = 4 →
    ∃ t, exec .fwWatchdogExpire s = .next t ∧ t.f F.FLT_SRC_STATUS_ACTIVE 4 = 1 ∧ ∀ (x : Fld) (i : Nat), x.outside raiseFields → t.f x i = s.f x i) ∧
  (∀ s : State, (s.f F.FLT_WDOG_EN 0 ≠ 1 ∨ s.stage ≠ 4) → exec .fwWatchdogExpire s = .next s)

/-- Faults of clocks, temperature and rails (R359, R360, R369): the event's own registers and ACTIVE of its source, whatever the class and the reaction of the source are; every other field but those of a raise is as before. A core PLL that unlocks in the class FATAL makes the part FATAL and runs it from REFCLK with the processor halted. A reading below the threshold is recorded and no more; one in STANDBY is kept for the exit. The model's choices that it rests on: log entries 23, 24 and 32. -/
def Obligations.FaultEvents : Prop :=
  (∀ s : State, ∃ t, exec .corePllUnlock s = .next t ∧ t.f F.CLK_STATUS_CORE_LOCK 0 = 0 ∧ t.f F.FLT_SRC_STATUS_ACTIVE 5 = 1 ∧
    (2 ≤ s.f F.FLT_SRC_CFG_CLASS 5 → s.fatal = false → t.fatal = true ∧ t.pwr.onRefclk = true ∧ t.pwr.cpHalted = true) ∧
    ∀ (x : Fld) (i : Nat), x.outside (F.CLK_STATUS_CORE_LOCK :: raiseFields) → t.f x i = s.f x i) ∧
  (∀ (s : State) (q : Nat), q < 16 → ∃ t, exec (.lanePllUnlock q) s = .next t ∧
    t.f F.CLK_STATUS_LANE_LOCK 0 = (s.f F.CLK_STATUS_LANE_LOCK 0 - (s.f F.CLK_STATUS_LANE_LOCK 0 &&& 2 ^ q)) % 2 ^ 16 ∧ t.f F.FLT_SRC_STATUS_ACTIVE 6 = 1 ∧
    ∀ (x : Fld) (i : Nat), x.outside (F.CLK_STATUS_LANE_LOCK :: raiseFields) → t.f x i = s.f x i) ∧
  (∀ (s : State) (k : Nat) (tj : Int), k < 8 → s.pwr.standby = false → 16 * (s.warnTemp : Int) ≤ tj → ∃ t, exec (.thermHigh k tj) s = .next t ∧
    t.f F.PWR_TEMP_TJ k = unsigned 16 tj ∧ t.f F.PWR_EVENT_THERM 0 = 1 ∧ t.f F.FLT_SRC_STATUS_ACTIVE 7 = 1 ∧
    ∀ (x : Fld) (i : Nat), x.outside (F.PWR_TEMP_TJ :: F.PWR_EVENT_THERM :: raiseFields) → t.f x i = s.f x i) ∧
  (∀ (s : State) (k : Nat) (tj : Int), k < 8 → s.pwr.standby = false → tj < 16 * (s.warnTemp : Int) → ∃ t, exec (.thermHigh k tj) s = .next t ∧ Sets s [(F.PWR_TEMP_TJ, k, unsigned 16 tj)] t) ∧
  (∀ (s : State) (k : Nat) (tj : Int), k < 8 → s.pwr.standby = true → ∃ t, exec (.thermHigh k tj) s = .next t ∧
    t.aon.hotInStandby = decide (16 * (s.warnTemp : Int) ≤ tj) ∧ Fields s [(F.PWR_TEMP_TJ, k, unsigned 16 tj)] t) ∧
  (∀ (s : State) (k : Nat) (tj : Int), k < 8 → tj < 1920 → ∃ t, exec (.thermTrip k tj) s = .next t ∧ Sets s [(F.PWR_TEMP_TJ, k, unsigned 16 tj)] t) ∧
  (∀ (s : State) (k : Nat) (tj : Int), k < 8 → 1920 ≤ tj → ∃ t, exec (.thermTrip k tj) s = .next t ∧ t.f F.PWR_TEMP_TJ k = unsigned 16 tj ∧ t.f F.FLT_SRC_STATUS_ACTIVE 8 = 1 ∧
    (2 ≤ s.f F.FLT_SRC_CFG_CLASS 8 → t.fatal = true) ∧ ∀ (x : Fld) (i : Nat), x.outside (F.PWR_TEMP_TJ :: raiseFields) → t.f x i = s.f x i) ∧
  (∀ (s : State) (k : Nat), k < 8 → ∃ t, exec (.railFault k) s = .next t ∧ t.f F.PWR_EVENT_RAIL 0 = 1 ∧ t.f F.FLT_SRC_STATUS_ACTIVE 9 = 1 ∧
    ∀ (x : Fld) (i : Nat), x.outside (F.PWR_EVENT_RAIL :: raiseFields) → t.f x i = s.f x i)

-- ## Power, calibration, time

/-- Shedding and AVS (R382, R384 to R386): the deepest stage whose threshold the voltage is below is entered, the sixth resets the part but not in FATAL, and a voltage that crosses none is recorded in VMIN alone; the deepest stage lifts one at a time. SHED_THRESHOLD_SET writes one offset where the thresholds stay ordered. AVS takes its goal from OTP and the temperature and commands a step of at most 5 mV towards it, where no step waits for its reading; a reading within 1 % confirms the step and the next goes out, another is asked for twice more, and then the last confirmed setpoint is commanded. The model's choices that it rests on: log entries 29 and 109. -/
def Obligations.SheddingAndAvs : Prop :=
  (∀ (s : State) (mv k : Nat), (∀ i, i < 7 → 1 ≤ i → (s.belowStage mv i = true ↔ i ≤ k)) → k ≤ 6 → s.f F.PWR_STATUS_STAGE 0 < min k 5 → (k = 6 → s.fatal = true) →
    ∃ t, exec (.shedStageEnter mv) s = .next t ∧ t.f F.PWR_STATUS_STAGE 0 = min k 5 ∧ t.f F.PWR_EVENT_SHED 0 = 1 ∧ t.f F.PWR_VMIN_MV 0 = min (s.f F.PWR_VMIN_MV 0) mv % 2 ^ 16 ∧
      ∀ (x : Fld) (i : Nat), x.outside (F.PWR_STATUS_STAGE :: F.PWR_EVENT_SHED :: F.PWR_VMIN_MV :: reactFields) → t.f x i = s.f x i) ∧
  (∀ (s : State) (mv k : Nat), (∀ i, i < 7 → 1 ≤ i → (s.belowStage mv i = true ↔ i ≤ k)) → k ≤ 6 → min k 5 ≤ s.f F.PWR_STATUS_STAGE 0 → (k = 6 → s.fatal = true) →
    ∃ t, exec (.shedStageEnter mv) s = .next t ∧ Sets s [(F.PWR_VMIN_MV, 0, min (s.f F.PWR_VMIN_MV 0) mv % 2 ^ 16)] t) ∧
  (∀ (s : State) (mv : Nat), (∀ i, i < 7 → 1 ≤ i → s.belowStage mv i = true) → s.fatal = false →
    exec (.shedStageEnter mv) s = .next (s.setF F.PWR_VMIN_MV 0 (min (s.f F.PWR_VMIN_MV 0) mv)).coreReset) ∧
  (∀ (s : State) (mv k : Nat), s.f F.PWR_STATUS_STAGE 0 = k → 1 ≤ k → k ≤ 5 → (s.f F.PWR_SETPOINT_REF_MV 0 : Int) * (shedPermille k (s.shedOffset k) + 10) < 1000 * (mv : Int) →
    ∃ t, exec (.shedStageLift mv) s = .next t ∧ t.f F.PWR_STATUS_STAGE 0 = k - 1 ∧ t.f F.PWR_EVENT_SHED 0 = 1 ∧
      ∀ (x : Fld) (i : Nat), x.outside (F.PWR_STATUS_STAGE :: F.PWR_EVENT_SHED :: reactFields) → t.f x i = s.f x i) ∧
  (∀ (s : State) (mv k : Nat), s.f F.PWR_STATUS_STAGE 0 = k → 1000 * (mv : Int) ≤ (s.f F.PWR_SETPOINT_REF_MV 0 : Int) * (shedPermille k (s.shedOffset k) + 10) → exec (.shedStageLift mv) s = .next s) ∧
  (∀ (s : State) (m k : Nat), s.accepts m 0x0470 = true → s.mbxLen m = 2 → k = byteAt (s.mbxArgs m) 0 → 1 ≤ k → k ≤ 6 → -10 ≤ signed 8 (byteAt (s.mbxArgs m) 1) → signed 8 (byteAt (s.mbxArgs m) 1) ≤ 10 →
    (∀ i, i < 6 → 1 ≤ i → shedPermille (i + 1) ((s.setF F.PWR_SHED_THR_OFFSET (k - 1) (byteAt (s.mbxArgs m) 1)).shedOffset (i + 1)) <
      shedPermille i ((s.setF F.PWR_SHED_THR_OFFSET (k - 1) (byteAt (s.mbxArgs m) 1)).shedOffset i)) →
    ∃ t, exec (.shedThresholdSet m) s = .next t ∧ Sets s ([(F.PWR_SHED_THR_OFFSET, k - 1, byteAt (s.mbxArgs m) 1)] ++ answer m (s.mbxTag m) 0 []) t) ∧
  (∀ (s : State) (tj : Int) (c g v : Nat), s.stage = 3 ∨ s.stage = 4 → s.pwr.cpHalted = false → s.fw.avsTries = 0 → c = s.f F.PWR_SETPOINT_CMD_MV 0 → c < 2 ^ 16 → g = s.avsTarget tj →
    v = (if c < g then min g (c + 5) else max g (c - 5)) →
    ∃ t, exec (.avsStep tj) s = .next t ∧ t.fw.avsGoal = g ∧ t.fw.avsTries = (if v = c then 0 else 1) ∧
      Fields s ((F.PWR_SETPOINT_CMD_MV, 0, v) :: if v < c then [(F.PWR_SETPOINT_REF_MV, 0, min v (s.f F.PWR_SETPOINT_REF_MV 0))] else []) t) ∧
  (∀ (s : State) (tj : Int), s.stage = 3 ∨ s.stage = 4 → s.pwr.cpHalted = false → s.fw.avsTries ≠ 0 → exec (.avsStep tj) s = .next (s.withFw (fun w => { w with avsGoal := s.avsTarget tj }))) ∧
  (∀ (s : State) (mv c v : Nat), s.fw.avsTries ≠ 0 → c = s.f F.PWR_SETPOINT_CMD_MV 0 → c < 2 ^ 16 → s.fw.avsGoal < 2 ^ 16 → 100 * ((mv : Int) - c).natAbs ≤ c →
    v = (if c < s.fw.avsGoal then min s.fw.avsGoal (c + 5) else max s.fw.avsGoal (c - 5)) →
    ∃ t, exec (.pmbusReadback mv) s = .next t ∧ t.fw.avsConfirmed = c ∧ t.fw.avsTries = (if v = c then 0 else 1) ∧ Fields s [(F.PWR_SETPOINT_CMD_MV, 0, v), (F.PWR_SETPOINT_REF_MV, 0, min v c)] t) ∧
  (∀ (s : State) (mv c : Nat), s.fw.avsTries = 1 ∨ s.fw.avsTries = 2 → c = s.f F.PWR_SETPOINT_CMD_MV 0 → c < 100 * ((mv : Int) - c).natAbs →
    ∃ t, exec (.pmbusReadback mv) s = .next t ∧ t.fw.avsTries = s.fw.avsTries + 1 ∧ t.regs = s.regs) ∧
  (∀ (s : State) (mv c : Nat), 3 ≤ s.fw.avsTries → c = s.f F.PWR_SETPOINT_CMD_MV 0 → c < 100 * ((mv : Int) - c).natAbs →
    ∃ t, exec (.pmbusReadback mv) s = .next t ∧ t.f F.PWR_EVENT_PMBUS_ERR 0 = 1 ∧ t.f F.PWR_SETPOINT_CMD_MV 0 = s.fw.avsConfirmed % 2 ^ 16 ∧ t.fw.avsTries = 0) ∧
  (∀ (s : State) (mv : Nat), s.fw.avsTries = 0 → exec (.pmbusReadback mv) s = .next s)

/-- Power states and calibration records (R387 to R390, R394, R395): POWER_STATE_SET to IDLE and to ACTIVE writes STATE and pauses or restarts the walls; towards STANDBY it arms the wake timer, has the gate wait and puts every ready channel into self-refresh. The gate resets the core domain and keeps DRAM, flash, OTP and the wake latches. The wake timer, once, and the pins change their one piece of state. A latched source with WAKE_EN wakes the part, which keeps DRAM, flash and OTP and has no latch left. CAL_SNAPSHOT writes the record to DRAM and answers its length, or starts a job under lock 4 for the configuration area; CAL_RESTORE of a record that matches the part, from DRAM or the configuration area, restores it, and with SAVE starts a job that writes it; a restored lane value waits for its window. The model's choices that it rests on: log entries 30, 31 and 109. -/
def Obligations.PowerStates : Prop :=
  (∀ (s : State) (m k : Nat), s.accepts m 0x0060 = true → s.mbxLen m = 5 → k = byteAt (s.mbxArgs m) 0 → k ≤ 1 →
    ∃ t, exec (.powerStateSet m) s = .next t ∧ Sets (s.pauseWalls (decide (k = 1))) ([(F.PWR_STATUS_STATE, 0, k)] ++ answer m (s.mbxTag m) 0 []) t) ∧
  (∀ (s : State) (m : Nat), s.accepts m 0x0060 = true → s.mbxLen m = 5 → byteAt (s.mbxArgs m) 0 = 2 → s.jobRuns = false → s.faultLevel 4 = false →
    ∃ t, exec (.powerStateSet m) s = .next t ∧ t.pwr.standbyDue = true ∧ t.f F.PWR_WAKE_SECONDS 0 = leAt (s.mbxArgs m) 1 4 ∧ (t.pwr.wakeRuns = true ↔ leAt (s.mbxArgs m) 1 4 ≠ 0) ∧
      (∀ c, c < 4 → s.f F.DDR_STATUS_STATE c = 2 → t.f F.DDR_STATUS_STATE c = 4) ∧ t.dram = s.dram ∧ t.answered m (s.mbxTag m) 0 []) ∧
  (∀ s : State, s.pwr.standbyDue = true → ∃ t, exec .standbyGate s = .next t ∧ t.pwr.standby = true ∧ t.pwr.saved = s.pwr.saved ∧ t.aon.wakeLatch = s.aon.wakeLatch ∧ t.pwr.wakeRuns = s.pwr.wakeRuns ∧
      t.stage = 0 ∧ t.dram = s.dram ∧ t.flash = s.flash ∧ t.otp = s.otp) ∧
  (∀ s : State, s.pwr.standbyDue = false → exec .standbyGate s = .next s) ∧
  (∀ s : State, s.pwr.wakeRuns = true → exec .wakeTimerExpire s = .next ((s.withPwr (fun w => { w with wakeRuns := false })).withAon (fun w => { w with wakeTimer := true }))) ∧
  (∀ s : State, s.pwr.wakeRuns = false → exec .wakeTimerExpire s = .next s) ∧
  (∀ (s : State) (k : Nat) (high : Bool), k < 4 → ∃ t, exec (.gpioChange k high) s = .next t ∧ (k ∈ t.aon.gpio ↔ high = true) ∧ (∀ j, j ≠ k → (j ∈ t.aon.gpio ↔ j ∈ s.aon.gpio)) ∧
      t.regs = s.regs ∧ t.aon.wakeLatch = s.aon.wakeLatch) ∧
  (∀ (s : State) (n : Nat), s.pwr.standby = true → s.aon.wakeLatch.find? (fun k => s.fb F.INTC_ROUTE_WAKE_EN k) = some n →
    ∃ t, exec .wake s = .next t ∧ t.aon.wakeLatch = [] ∧ t.pwr.standby = false ∧ t.dram = s.dram ∧ t.flash = s.flash ∧ t.otp = s.otp) ∧
  (∀ s : State, (s.pwr.standby = false ∨ s.aon.wakeLatch.all (fun k => !s.fb F.INTC_ROUTE_WAKE_EN k) = true) → exec .wake s = .next s) ∧
  (∀ (s : State) (m : Nat), s.accepts m 0x0061 = true → s.mbxLen m = 9 → byteAt (s.mbxArgs m) 0 = 0 → leAt (s.mbxArgs m) 1 8 < 2 ^ 40 → s.lockElsewhere 4 = false →
    ∃ t, exec (.calSnapshot m) s = .next t ∧ Sets (s.draw.putFor 9 (leAt (s.mbxArgs m) 1 8) s.calRecord (Origin.secure (mbxOrigin m) s)) (answer m (s.mbxTag m) 0 (leBytes 4 s.calRecord.length)) t) ∧
  (∀ (s : State) (m : Nat), s.accepts m 0x0061 = true → s.mbxLen m = 9 → byteAt (s.mbxArgs m) 0 = 1 → leAt (s.mbxArgs m) 1 8 < 2 ^ 40 → s.lockElsewhere 4 = false →
    ∃ t, exec (.calSnapshot m) s = .next t ∧ Sets (s.draw.withJob m (.calFlash s.calRecord)) ([(F.SEM_LOCK_OWNER, 4, 1)] ++ answer m (s.mbxTag m) 1 (leBytes 4 s.fw.nextJob)) t) ∧
  (∀ (s : State) (m fl : Nat) (b : List Byte), s.accepts m 0x0062 = true → s.mbxLen m = 9 → fl = byteAt (s.mbxArgs m) 0 → fl ≤ 3 → leAt (s.mbxArgs m) 1 8 < 2 ^ 40 → b = s.recordAt m (decide (fl % 2 = 1)) (leAt (s.mbxArgs m) 1 8) → s.calOk b = true →
    ∃ t, exec (.calRestore m) s = .next t ∧
      (fl ≤ 1 → Sets (s.restoreRecord b) (answer m (s.mbxTag m) 0 []) t) ∧
      (2 ≤ fl → Sets ((s.restoreRecord b).withJob m (.calFlash b)) (answer m (s.mbxTag m) 1 (leBytes 4 s.fw.nextJob)) t) ∧
      (∀ k n, k < beAt b 4 2 → byteAt b (32 + 8 * k) = 1 → n = beAt b (34 + 8 * k) 2 → n < 60 → (∀ j, k < j → j < beAt b 4 2 → ¬(byteAt b (32 + 8 * j) = 1 ∧ beAt b (34 + 8 * j) 2 = n)) →
        Tab.get none t.lane.restored n = some (beAt b (36 + 8 * k) 4 / 2 ^ 12 % 16 * 64 + beAt b (36 + 8 * k) 4 / 2 ^ 18 % 64)))

/-- The time base, PTP and timers (R377 to R379, R398): a step adds its signed value unless a grid runs and it is too large; the trim is written; PTP_CONFIG starts the servo afresh, unlocked; a Sync trims the clock, the sixteenth within 100 ns locks it and one beyond 1,000 ns unlocks it, and a grandmaster is locked at once; walls that wait for it after a wake restart; a one-shot timer expires once, a periodic timer goes on past T, and neither before T; a write of CMP takes effect with both words. The model's choices that it rests on: log entries 33 and 34. -/
def Obligations.TimeAndTimers : Prop :=
  (∀ (s : State) (o : Origin) (w : Word), s.writeOk o .CLK_TB_STEP_LO 0 = true → (s.anyGrid = false ∨ (signed 64 (s.f F.CLK_TB_STEP_HI_STEP 0 * 2 ^ 32 + w.toNat)).natAbs ≤ 4000) →
    exec (.tbStep o w) s = .next (s.withTime (fun x => { x with c := ((x.c : Int) + signed 64 (s.f F.CLK_TB_STEP_HI_STEP 0 * 2 ^ 32 + w.toNat)).toNat }))) ∧
  (∀ (s : State) (o : Origin) (w : Word), s.writeOk o .CLK_TB_STEP_LO 0 = true → s.anyGrid = true → 4000 < (signed 64 (s.f F.CLK_TB_STEP_HI_STEP 0 * 2 ^ 32 + w.toNat)).natAbs →
    ∃ t, exec (.tbStep o w) s = .next t ∧ t.time = s.time ∧ t.f F.CLK_EVENT_STEP_REFUSED 0 = 1 ∧ t.f F.CLK_STEP_REFUSED_COUNT 0 = min (s.f F.CLK_STEP_REFUSED_COUNT 0 + 1) (2 ^ 32 - 1)) ∧
  (∀ (s : State) (o : Origin) (w : Word), s.writeOk o .CLK_TB_TRIM 0 = true → ∃ t, exec (.tbTrimWrite o w) s = .next t ∧ Sets s [(F.CLK_TB_TRIM_PPB, 0, w.toNat)] t) ∧
  (∀ (s : State) (m : Nat), s.accepts m 0x0050 = true → s.mbxLen m = 8 → ptpArgsOk (s.mbxArgs m) = true →
    ∃ t, exec (.ptpConfig m) s = .next t ∧
      Sets (s.withFw (fun w => { w with ptp := s.mbxArgs m, ptpMaster := false, ptpGood := 0 }))
        ((if s.f F.CLK_EVENT_PTP_LOCKED 0 = 1 then [(F.CLK_EVENT_PTP_LOCKED, 0, 0), (F.CLK_EVENT_PTP_STATE, 0, 1)] else []) ++ answer m (s.mbxTag m) 0 []) t) ∧
  (∀ (s : State) (offset : Int) (gm : Bool) (trim : Word) (n : Nat), s.fw.ptp ≠ [] → s.stage = 4 → s.pwr.cpHalted = false → (gm = false ∨ byteAt s.fw.ptp 0 = 0) → s.pwr.resumeDue = false → n = (if offset.natAbs ≤ 100 then s.fw.ptpGood + 1 else 0) →
    ∃ t, exec (.ptpSyncProcess offset gm trim) s = .next t ∧ t.fw = { s.fw with ptpMaster := false, ptpGood := min n 16 } ∧ t.f F.CLK_TB_TRIM_PPB 0 = trim.toNat ∧
      (t.fb F.CLK_EVENT_PTP_LOCKED 0 = if 16 ≤ n then true else if 1000 < offset.natAbs then false else s.fb F.CLK_EVENT_PTP_LOCKED 0) ∧
      ∀ (x : Fld) (i : Nat), x.outside [F.CLK_TB_TRIM_PPB, F.CLK_EVENT_PTP_LOCKED, F.CLK_EVENT_PTP_STATE] → t.f x i = s.f x i) ∧
  (∀ (s : State) (offset : Int) (trim : Word), s.fw.ptp ≠ [] → s.stage = 4 → s.pwr.cpHalted = false → byteAt s.fw.ptp 0 ≠ 0 → s.pwr.resumeDue = false →
    ∃ t, exec (.ptpSyncProcess offset true trim) s = .next t ∧ t.fw = { s.fw with ptpMaster := true, ptpGood := 0 } ∧ t.fb F.CLK_EVENT_PTP_LOCKED 0 = true ∧
      ∀ (x : Fld) (i : Nat), x.outside [F.CLK_EVENT_PTP_LOCKED, F.CLK_EVENT_PTP_STATE] → t.f x i = s.f x i) ∧
  (∀ (s : State) (offset : Int) (gm : Bool) (trim : Word), s.fw.ptp ≠ [] → s.stage = 4 → s.pwr.cpHalted = false → s.pwr.resumeDue = true → 15 ≤ s.fw.ptpGood → offset.natAbs ≤ 100 →
    ∃ t, exec (.ptpSyncProcess offset gm trim) s = .next t ∧ t.pwr.resumeDue = false) ∧
  (∀ (s : State) (n : Nat), n < 64 → s.f F.TMR_CTRL_EN n = 1 → s.timerCmp n ≤ s.now → n ∉ s.time.fired → s.f F.TMR_CTRL_PERIODIC n = 0 →
    ∃ t, exec (.timerExpire n) s = .next t ∧ Sets (s.withTime (fun x => { x with fired := n :: x.fired })) [(F.TMR_STATUS_EXPIRED, n, 1)] t) ∧
  (∀ (s : State) (n k : Nat), n < 64 → s.f F.TMR_CTRL_EN n = 1 → s.timerCmp n ≤ s.now → n ∉ s.time.fired → s.f F.TMR_CTRL_PERIODIC n = 1 → k = (s.now - s.timerCmp n) / s.timerPeriod n →
    ∃ t, exec (.timerExpire n) s = .next t ∧ t.f F.TMR_STATUS_EXPIRED n = 1 ∧ t.f F.TMR_STATUS_OVERRUN n = min (s.f F.TMR_STATUS_OVERRUN n + k) (2 ^ 16 - 1) ∧
      t.timerCmp n = (s.timerCmp n + (k + 1) * s.timerPeriod n) % 2 ^ 64) ∧
  (∀ (s : State) (n : Nat), n < 64 → (s.f F.TMR_CTRL_EN n ≠ 1 ∨ s.now < s.timerCmp n ∨ n ∈ s.time.fired) → exec (.timerExpire n) s = .next s) ∧
  (∀ (s : State) (o : Origin) (n : Nat) (w : Word), n < 64 → s.writeOk o .TMR_CMP_LO n = true →
    ∃ t, exec (.tmrCmpWrite o n w) s = .next t ∧ t.timerCmp n = (s.f F.TMR_CMP_HI_CMP n * 2 ^ 32 + w.toNat) % 2 ^ 64 ∧ t.f F.TMR_CMP_LO_CMP n = w.toNat ∧ n ∉ t.time.fired)

/-- Reads that clear or restart (R12, R398): OVERRUN reads and clears; BPM_MIN_FREE restarts from the present count and PWR_VMIN from its highest value; ARB_MAXWAIT clears. The model's choices that it rests on: log entry 56. -/
def Obligations.ReadsThatClear : Prop :=
  (∀ (s : State) (o : Origin) (n : Nat), n < 64 → s.readOk o .TMR_STATUS n = true →
    ∃ t, exec (.tmrOverrunRead o n) s = .next t ∧ Sets { s with readData := [s.f F.TMR_STATUS_EXPIRED n * 2 ^ 31 + s.f F.TMR_STATUS_OVERRUN n] } [(F.TMR_STATUS_OVERRUN, n, 0)] t) ∧
  (∀ (s : State) (o : Origin), s.readOk o .BPM_MIN_FREE 0 = true →
    ∃ t, exec (.bpmMinFreeRead o) s = .next t ∧ Sets { s with readData := [s.f F.BPM_MIN_FREE_COUNT 0] } [(F.BPM_MIN_FREE_COUNT, 0, s.freeSram % 2 ^ 17)] t) ∧
  (∀ (s : State) (o : Origin), s.readOk o .PWR_VMIN 0 = true →
    ∃ t, exec (.pwrVminRead o) s = .next t ∧ Sets { s with readData := [s.f F.PWR_VMIN_MV 0] } [(F.PWR_VMIN_MV, 0, 0xFFFF)] t) ∧
  (∀ (s : State) (o : Origin) (c r : Nat), c < 4 → r < 12 → s.readOk o .ARB_MAXWAIT (12 * c + r) = true →
    ∃ t, exec (.arbMaxwaitRead o c r) s = .next t ∧ Sets { s with readData := [s.f F.ARB_MAXWAIT_FCLK (12 * c + r)] } [(F.ARB_MAXWAIT_FCLK, 12 * c + r, 0)] t)

-- ## Security

/-- Tamper and worlds (R401, R404, R407, R413, R414): an enabled source that trips is recorded and counted, wipes the scratchpad, drops keys, sessions and challenges and raises TAMPER, and one that is not enabled does nothing; a software wipe, and its end, after which the accesses that waited are made; a block-world lock and a region lock hold what they lock. The model's choices that it rests on: log entries 35, 36 and 110. -/
def Obligations.TamperAndWorlds : Prop :=
  (∀ (s : State) (i : Nat), i < 8 → s.tamperEnabled i = true →
    ∃ t, exec (.tamperTrip i) s = .next t ∧ (t.f F.SEC_TAMPER_STATUS_TRIPPED 0).testBit i = true ∧ t.f F.SEC_TAMPER_STATUS_TAMPERED 0 = 1 ∧
      t.f F.SEC_TAMPER_STATUS_COUNT 0 = min (s.f F.SEC_TAMPER_STATUS_COUNT 0 + 1) (2 ^ 16 - 1) ∧ t.sec.keys = [] ∧ t.sec.spd = [] ∧ t.fw.challenge = [] ∧
      t.f F.GLB_EXPERT_UNLOCKED_F0 0 ≠ 1 ∧ t.f F.GLB_EXPERT_UNLOCKED_F1 0 ≠ 1 ∧ t.f F.GLB_EXPERT_UNLOCKED_R 0 ≠ 1 ∧ t.f F.SPD_CTRL_BUSY 0 = 1 ∧ (s.pwr.standby = false → t.f F.FLT_SRC_STATUS_ACTIVE 31 = 1) ∧ t.dram = s.dram) ∧
  (∀ (s : State) (i : Nat), i < 8 → s.tamperEnabled i = false → exec (.tamperTrip i) s = .next s) ∧
  (∀ (s : State) (o : Origin) (w : Word), s.writeOk o .SPD_CTRL 0 = true → w.toNat.testBit 0 = true → s.f F.SPD_CTRL_BUSY 0 = 0 →
    ∃ t, exec (.spdWipe o w) s = .next t ∧ Sets (s.withSec (fun x => { x with spd := [] })) [(F.SPD_CTRL_CAUSE, 0, 8), (F.SPD_CTRL_BUSY, 0, 1)] t) ∧
  (∀ (s : State) (o : Origin) (w : Word), s.writeOk o .SPD_CTRL 0 = true → w.toNat.testBit 0 = true → s.f F.SPD_CTRL_BUSY 0 = 1 →
    ∃ t, exec (.spdWipe o w) s = .next t ∧ t.sec = { s.sec with spd := [] } ∧ (t.f F.SPD_CTRL_CAUSE 0).testBit 3 = true ∧ ∀ (x : Fld) (i : Nat), x.outside [F.SPD_CTRL_CAUSE] → t.f x i = s.f x i) ∧
  (∀ s : State, s.f F.SPD_CTRL_BUSY 0 = 1 →
    ∃ t, exec .spdWipeDone s = .next t ∧ Sets (s.withSec (fun x => { x with spd := [] }.spdCycles (max x.spdPort0.length x.spdPort1.length))) [(F.SPD_CTRL_BUSY, 0, 0)] t) ∧
  (∀ s : State, s.f F.SPD_CTRL_BUSY 0 ≠ 1 → exec .spdWipeDone s = .next s) ∧
  (∀ (s : State) (o : Origin) (w : Word), s.writeOk o .SEC_BLOCK_WORLD 0 = true → s.f F.SEC_BLOCK_WORLD_LOCK 0 = 0 →
    ∃ t, exec (.blockWorldLock o w) s = .next t ∧
      Sets s [(F.SEC_BLOCK_WORLD_LOCK, 0, w.toNat / 2 ^ 31), (F.SEC_BLOCK_WORLD_WORLD, 0, w.toNat / 2 ^ 4 % 2 ^ 22), (F.SEC_BLOCK_WORLD_WORLD1, 0, w.toNat / 2 % 2)] t) ∧
  (∀ (s : State) (o : Origin) (w : Word), s.writeOk o .SEC_BLOCK_WORLD 0 = true → s.f F.SEC_BLOCK_WORLD_LOCK 0 = 1 → ∃ t, exec (.blockWorldLock o w) s = .next t ∧ ∀ (x : Fld) (i : Nat), t.f x i = s.f x i) ∧
  (∀ (s : State) (o : Origin) (r : Nat) (w : Word), r < 64 → s.writeOk o .SEC_REGION_ATTR r = true → s.f F.SEC_REGION_ATTR_LOCK r = 0 →
    ∃ t, exec (.regionLock o r w) s = .next t ∧
      Sets s [(F.SEC_REGION_ATTR_EN, r, w.toNat / 2 ^ 31 % 2), (F.SEC_REGION_ATTR_WORLD, r, w.toNat / 2 ^ 30 % 2), (F.SEC_REGION_ATTR_LOCK, r, w.toNat / 2 ^ 29 % 2),
        (F.SEC_REGION_ATTR_WR, r, w.toNat / 2 ^ 12 % 2 ^ 12), (F.SEC_REGION_ATTR_RD, r, w.toNat % 2 ^ 12)] t) ∧
  (∀ (s : State) (o : Origin) (r : Nat) (w : Word), r < 64 → s.writeOk o .SEC_REGION_ATTR r = true → s.f F.SEC_REGION_ATTR_LOCK r = 1 → exec (.regionLock o r w) s = .next s)

/-- LIFECYCLE_ADVANCE (R408 to R412): PROGRAM blows the bytes into an area that its life cycle opens, LOCK blows the area's lock, REVOKE_KEY0 its bit; GENERATE_ID, where the TRNG is healthy, blows and locks the identity; ADVANCE from BLANK, from MANUFACTURING and from RETURNED programs the next state and resets the part; RETURN does so with a signature over the challenge kept, which is used up whatever comes of it. The model's choices that it rests on: log entries 5, 6, 17 and 18. -/
def Obligations.LifeCycle : Prop :=
  (∀ (s : State) (m a off : Nat), s.accepts m 0x0092 = true → 5 ≤ s.mbxLen m → s.mbxLen m ≤ 68 → byteAt (s.mbxArgs m) 0 = 2 → a = byteAt (s.mbxArgs m) 1 → off = leAt (s.mbxArgs m) 2 2 → s.lc ≤ 1 → a ≤ 13 →
    off + (s.mbxLen m - 4) ≤ (otpArea a).2 → areaOpen s.lc a = true → (a < 12 → s.otpLock a = false) →
    ∃ t, exec (.otpProgram m) s = .next t ∧ Sets (s.blow ((otpArea a).1 + off) ((s.mbxArgs m).drop 4)) (answer m (s.mbxTag m) 0 []) t) ∧
  (∀ (s : State) (m a : Nat), s.accepts m 0x0092 = true → s.mbxLen m = 2 → byteAt (s.mbxArgs m) 0 = 3 → a = byteAt (s.mbxArgs m) 1 → s.lc ≤ 1 → a ≤ 11 →
    ∃ t, exec (.otpLock m) s = .next t ∧
      Sets (s.blowLock a) ([(F.SEC_STATUS_ID_OK, 0, if (s.blowLock a).idOk then 1 else 0), (F.SEC_STATUS_KWK_OK, 0, if (s.blowLock a).kwkOk then 1 else 0)] ++ answer m (s.mbxTag m) 0 []) t) ∧
  (∀ (s : State) (m : Nat), s.accepts m 0x0092 = true → s.mbxLen m = 1 → byteAt (s.mbxArgs m) 0 = 4 → s.lc = 1 ∨ s.lc = 2 → s.fw.image.underKey1 = true →
    ∃ t, exec (.revokeKey0 m) s = .next t ∧ Sets (s.blowLock 12) ([(F.SEC_STATUS_REVOKE0, 0, 1)] ++ answer m (s.mbxTag m) 0 []) t) ∧
  (∀ (s : State) (m : Nat), s.accepts m 0x0092 = true → s.mbxLen m = 1 → byteAt (s.mbxArgs m) 0 = 1 → s.lc = 1 → s.otpLock 10 = false →
    ∃ t, exec (.generateId m) s = .next t ∧
      (if Config.trngHealthy s.free = true then t.f F.SEC_STATUS_ID_OK 0 = 1 ∧ t.otpLock 10 = true ∧ t.otpLock 9 = true ∧ t.free = s.free + 1
       else Sets s.draw (answer m (s.mbxTag m) 0x00FF []) t)) ∧
  (∀ (s : State) (m : Nat), s.accepts m 0x0092 = true → s.mbxLen m = 1 → byteAt (s.mbxArgs m) 0 = 0 → (s.lc = 0 ∧ s.otpLock 6 = true) ∨ (s.lc = 1 ∧ ∀ k ∈ [4, 8, 9, 10, 11], s.otpLock k = true) →
    ∃ t, exec (.lcAdvance m) s = .next t ∧ t.otp = (s.programLc (s.lc + 1)).otp ∧ t.sec.keys = [] ∧ t.fw.clearing = true ∧ t.lc = (s.programLc (s.lc + 1)).lcOtp % 8) ∧
  (∀ (s : State) (m : Nat), s.accepts m 0x0092 = true → s.mbxLen m = 1 → byteAt (s.mbxArgs m) 0 = 0 → s.lc = 3 →
    ∃ t, exec (.lcAdvance m) s = .next t ∧ t.otp = (s.retire.programLc 4).otp ∧ t.dram = s.zeroSecure.dram ∧ t.sec.keys = [] ∧ t.fw.clearing = true) ∧
  (∀ (s : State) (m : Nat), s.accepts m 0x0092 = true → s.mbxLen m = 115 → byteAt (s.mbxArgs m) 0 = 5 → s.lc = 2 → s.challengeOf m ≠ [] →
    ∃ t, exec (.lcReturn m) s = .next t ∧
      (if Config.ed448Verify (s.otpKey 8) (s.returnMessage (s.challengeOf m)) ((s.mbxArgs m).drop 1) = true then t.otp = (s.retire.programLc 3).otp ∧ t.sec.keys = [] ∧ t.fw.clearing = true
       else Sets (s.setChallenge m []) (answer m (s.mbxTag m) 0x0040 []) t))

/-- ATTEST and KEY_LOAD (R414, R416 to R419): a new report is kept, and what is asked of the kept one is returned, or the identity's public key and the UID; a plain key takes its slot; a wrapped key takes it where its tag is right; CLEAR empties the slot; a key that is written in the FCLK of a tamper trip is not kept. The model's choices that it rests on: log entries 6, 36 and 110. -/
def Obligations.KeysAndReports : Prop :=
  (∀ (s : State) (m fl off : Nat) (r : List Byte), s.accepts m 0x0090 = true → s.mbxLen m = 4 ∨ s.mbxLen m = 36 → fl = byteAt (s.mbxArgs m) 0 → fl ≤ 3 → (fl % 2 = 1 → s.mbxLen m = 36) → off = leAt (s.mbxArgs m) 2 2 →
    s.lc ≠ 0 → s.idOk = true → s.f F.SEC_STATUS_LOCKOUT 0 = 0 → r = (if fl % 2 = 1 then s.buildReport ((s.mbxArgs m).drop 4) else Tab.get [] s.fw.report m) → (off < r.length ∨ (2 ≤ fl ∧ off = 0)) →
    ∃ t, exec (.attest m) s = .next t ∧
      Sets (if fl % 2 = 1 then s.withFw (fun w => { w with report := Tab.set [] w.report m r }) else s)
        (answer m (s.mbxTag m) 0 (leBytes 2 r.length ++ leBytes 2 off ++ [0, 0, 0, 0] ++ (if 2 ≤ fl then s.otpKey 9 ++ s.otpBytes 0 8 else sliceOf r off 240))) t) ∧
  (∀ (s : State) (m wall par : Nat), s.accepts m 0x0091 = true → s.mbxLen m = 35 → wall = byteAt (s.mbxArgs m) 0 → par = byteAt (s.mbxArgs m) 1 → par ≤ 1 → byteAt (s.mbxArgs m) 2 = 0 → s.keyTooLate wall = false → s.keyRoom wall = true → s.sec.tripAt ≠ some s.time.fclk →
    ∃ t, exec (.keyLoad m) s = .next t ∧ Sets (s.withKey m wall (decide (par = 1)) ((s.mbxArgs m).drop 3)) (answer m (s.mbxTag m) 0 []) t) ∧
  (∀ (s : State) (m wall par : Nat), s.accepts m 0x0091 = true → s.mbxLen m = 35 → wall = byteAt (s.mbxArgs m) 0 → par = byteAt (s.mbxArgs m) 1 → par ≤ 1 → byteAt (s.mbxArgs m) 2 = 0 → s.keyTooLate wall = false → s.keyRoom wall = true → s.sec.tripAt = some s.time.fclk →
    ∃ t, exec (.keyLoad m) s = .next t ∧ Sets s (answer m (s.mbxTag m) 0x0050 []) t) ∧
  (∀ (s : State) (m wall par : Nat), s.accepts m 0x0091 = true → s.mbxLen m ∈ [3, 35, 63] → wall = byteAt (s.mbxArgs m) 0 → par = byteAt (s.mbxArgs m) 1 → par ≤ 1 → (byteAt (s.mbxArgs m) 2 = 2 ∨ byteAt (s.mbxArgs m) 2 = 3) → s.keyTooLate wall = false →
    ∃ t, exec (.keyLoad m) s = .next t ∧ Sets (s.withSec (fun w => { w with keys := w.keys.filter (fun k => !(k.wall = wall && k.odd = decide (par = 1))) })) (answer m (s.mbxTag m) 0 []) t) ∧
  (∀ (s : State) (m wall par : Nat), s.accepts m 0x0091 = true → s.mbxLen m = 63 → wall = byteAt (s.mbxArgs m) 0 → par = byteAt (s.mbxArgs m) 1 → par ≤ 1 → byteAt (s.mbxArgs m) 2 = 1 → s.keyTooLate wall = false → s.keyRoom wall = true → s.kwkOk = true → s.sec.tripAt ≠ some s.time.fclk →
    ∃ t, exec (.keyLoad m) s = .next t ∧
      (if Config.gcmTag (s.otpBytes 0x200 32) (sliceOf (s.mbxArgs m) 3 12) [BitVec.ofNat 8 wall, BitVec.ofNat 8 par] (sliceOf (s.mbxArgs m) 15 32) = sliceOf (s.mbxArgs m) 47 16 then
         Sets (s.withKey m wall (decide (par = 1)) (gcmXor (s.otpBytes 0x200 32) (sliceOf (s.mbxArgs m) 3 12) (sliceOf (s.mbxArgs m) 15 32))) (answer m (s.mbxTag m) 0 []) t
       else Sets s (answer m (s.mbxTag m) 0x0040 []) t))
-- ## Walls and contexts

/-- WALL_OPEN, WALL_CLOSE, TILE_MAP_LOAD, PLAY, PAUSE, BRIGHTNESS_SET (R36 to R38, R152, R443): a wall without lamps takes no grid; a wall with lamps takes the first free grid; a closed wall frees its grid; the entries of a tile map in range, named once and without overlap become the wall's map, or merge into it, with lock 1 taken and a job; a paused wall plays on from the time given with key pictures, and one that plays goes on; brightness is armed for the next sync. The model's choices that it rests on: log entries 5, 38 and 85. -/
def Obligations.WallCommands : Prop :=
  (∀ (s : State) (m : Nat), s.accepts m 0x0010 = true → s.mbxLen m = 32 → s.wallArgsOk (s.mbxArgs m) = true → byteAt (s.mbxArgs m) 1 = 0 →
    ∃ t, exec (.wallOpen m) s = .next t ∧
      Sets (s.setWall? (byteAt (s.mbxArgs m) 0) (some { wallOf (s.mbxArgs m) with picture := Config.freeNat 28 s.free % 65536 })).draw (answer m (s.mbxTag m) 0 [0xFF]) t) ∧
  (∀ (s : State) (m g : Nat), s.accepts m 0x0010 = true → s.mbxLen m = 32 → s.wallArgsOk (s.mbxArgs m) = true → byteAt (s.mbxArgs m) 1 = 1 →
    g < 4 → (s.grid g).used = false → (∀ k, k < g → (s.grid k).used = true) →
    ∃ t, exec (.wallOpen m) s = .next t ∧
      Sets ((s.setGrid g { used := true, wall := byteAt (s.mbxArgs m) 0, t0 := leAt (s.mbxArgs m) 16 8, k := 0 }).setWall? (byteAt (s.mbxArgs m) 0)
          (some { wallOf (s.mbxArgs m) with grid := some g, picture := Config.freeNat 28 s.free % 65536 })).draw
        ([(F.LMP_GRID_STATUS_SUBFRAMES, g, byteAt (s.mbxArgs m) 2), (F.LMP_GRID_STATUS_EN, g, 0), (F.LMP_GRID_STATUS_SFC, g, 0)] ++ answer m (s.mbxTag m) 0 (leBytes 1 g)) t) ∧
  (∀ (s : State) (m w : Nat) (x : Wall), s.accepts m 0x0011 = true → s.mbxLen m = 2 → w = byteAt (s.mbxArgs m) 0 → byteAt (s.mbxArgs m) 1 = 0 → s.wall? w = some x → x.grid = none →
    s.codec.dying = [] → s.ctxsOf (fun c => decide (c.wall = w)) = [] → s.lamp.chains = [] →
    ∃ t, exec (.wallClose m) s = .next t ∧ Sets (s.setWall? w none) (answer m (s.mbxTag m) 0 []) t) ∧
  (∀ (s : State) (m w g : Nat) (x : Wall), s.accepts m 0x0011 = true → s.mbxLen m = 2 → w = byteAt (s.mbxArgs m) 0 → byteAt (s.mbxArgs m) 1 ≤ 1 → s.wall? w = some x → x.grid = some g →
    s.codec.dying = [] → s.ctxsOf (fun c => decide (c.wall = w)) = [] → s.lamp.chains = [] →
    ∃ t, exec (.wallClose m) s = .next t ∧ Sets ((s.setGrid g {}).setWall? w none) ([(F.LMP_GRID_STATUS_EN, g, 0)] ++ answer m (s.mbxTag m) 0 []) t) ∧
  (∀ (s : State) (m w a n fl : Nat) (x : Wall) (es : List (List Byte)) (new : Tab (Option Tile)), s.accepts m 0x0012 = true → s.mbxLen m = 16 → w = byteAt (s.mbxArgs m) 0 → fl = byteAt (s.mbxArgs m) 1 → fl ≤ 1 →
    n = leAt (s.mbxArgs m) 2 2 → a = leAt (s.mbxArgs m) 8 8 → n ≠ 0 → leAt (s.mbxArgs m) 4 4 = 0 → a < 2 ^ 40 → a % 16 = 0 → s.wall? w = some x → s.lockElsewhere 1 = false →
    es = (List.range n).map (fun i => s.dramFor 9 (a + 16 * i) 16 (Origin.secure (mbxOrigin m) s)) → es.all tileEntryOk = true → (es.map (fun e => (tileOf e).1)).Nodup → new = newMap x.tiles (decide (fl = 1)) (es.map tileOf) → mapOk new = true →
    s.mapKeeps w new = true →
    ∃ t, exec (.tileMapLoad m) s = .next t ∧
      Sets (((s.setWall? w (some { x with tiles := new })).withHaul (fun y => { y with restageDue := true })).withJob m .tileMap)
        ([(F.SEM_LOCK_OWNER, 1, 1)] ++ answer m (s.mbxTag m) 1 (leBytes 4 s.fw.nextJob)) t) ∧
  (∀ (s : State) (m w : Nat) (x : Wall), s.accepts m 0x0013 = true → s.mbxLen m = 16 → w = byteAt (s.mbxArgs m) 0 → leAt (s.mbxArgs m) 1 7 = 0 → s.wall? w = some x → x.paused = true →
    ∃ t, exec (.play m) s = .next t ∧
      Sets ((s.setWall? w (some { x with paused := false, startAt := leAt (s.mbxArgs m) 8 8 })).withCodec (fun k => { k with ctxs := k.ctxs.map (fun e => (e.1, e.2.map (fun y => if y.enc ∧ y.wall = w then { y with keyDue := true } else y))) }))
        (answer m (s.mbxTag m) 0 []) t) ∧
  (∀ (s : State) (m w : Nat) (x : Wall), s.accepts m 0x0013 = true → s.mbxLen m = 16 → w = byteAt (s.mbxArgs m) 0 → leAt (s.mbxArgs m) 1 7 = 0 → s.wall? w = some x → x.paused = false →
    ∃ t, exec (.play m) s = .next t ∧ Sets s (answer m (s.mbxTag m) 0 []) t) ∧
  (∀ (s : State) (m w : Nat) (x : Wall), s.accepts m 0x0014 = true → s.mbxLen m = 4 → w = byteAt (s.mbxArgs m) 0 → leAt (s.mbxArgs m) 1 3 = 0 → s.wall? w = some x →
    ∃ t, exec (.pause m) s = .next t ∧ Sets (s.setWall? w (some { x with paused := true })) (answer m (s.mbxTag m) 0 []) t) ∧
  (∀ (s : State) (m w g v : Nat) (x : Wall), s.accepts m 0x0015 = true → s.mbxLen m = 5 → w = byteAt (s.mbxArgs m) 0 → v = leAt (s.mbxArgs m) 1 4 → v ≤ 65536 → s.wall? w = some x → x.grid = some g →
    ∃ t, exec (.brightnessSet m) s = .next t ∧ Sets s ([(F.DRS_BRIGHT_BRIGHT, g, v), (F.DRS_BRIGHT_SHADOW_ARMED, g, 1)] ++ answer m (s.mbxTag m) 0 []) t)

/-- CONTEXT_CREATE, CONTEXT_DESTROY, CONTEXT_STATS, EFFORT_SET, SCH_PARAM_SET, BEDROCK_LOAD (R127 to R131, R134, R153, R163): a context that the admission limit leaves room for joins the group of its tile and takes the lowest free number, with its stream queue on; its end frees the number and the queue; its counters are returned and on request cleared; a level of effort is armed with its charge; the controller's parameters go to every encode context and to later ones; a bedrock load starts a job. The model's choices that it rests on: log entries 39, 76 and 96. -/
def Obligations.ContextCommands : Prop :=
  (∀ (s : State) (m w c g : Nat) (x : Tile), s.accepts m 0x0020 = true → 32 ≤ s.mbxLen m → s.mbxLen m ≤ 96 → w = s.wallFor (s.mbxArgs m) → byteAt (s.mbxArgs m) 0 ≤ 1 →
    (s.wall? w).isSome = true → Tab.get none (s.wall w).tiles (leAt (s.mbxArgs m) 2 2) = some x → s.codec.dying = [] →
    s.ctxsOf (fun y => decide (y.wall = w) && decide (y.tile = leAt (s.mbxArgs m) 2 2) && decide (y.enc = decide (byteAt (s.mbxArgs m) 0 = 0))) = [] →
    (byteAt (s.mbxArgs m) 0 = 0 → encodeArgsOk (s.willSeal w) (s.mbxArgs m) x = true ∧ 32 + byteAt (s.mbxArgs m) 23 ≤ (s.mbxArgs m).length) →
    lowestFree 4096 s.ctxNums = some c → s.groupFor w (leAt (s.mbxArgs m) 2 2) x.independent = some g →
    (s.ctxOf (s.mbxArgs m) x).maxShort ≤ (s.group g).short → (s.ctxOf (s.mbxArgs m) x).bedSlots ≤ (s.group g).beds →
    s.chargeSum + (s.ctxOf (s.mbxArgs m) x).charge ≤ s.limitFor s.inService →
    ∃ t, exec (.contextCreate m) s = .next t ∧ t.ctx? c = some { s.ctxOf (s.mbxArgs m) x with group := g } ∧ (∀ d, d ≠ c → t.ctx? d = s.ctx? d) ∧ t.f F.SPQ_Q_CFG_EN c = 1 ∧
      (byteAt (s.mbxArgs m) 0 = 0 → t.f F.SCH_CTX_QP_QP_NOW c = byteAt (s.mbxArgs m) 20) ∧ t.haul.restageDue = true ∧ t.dram = s.dram ∧
      t.answered m (s.mbxTag m) 0 (leBytes 2 c ++ [0, 0] ++ leBytes 4 (s.ctxOf (s.mbxArgs m) x).charge)) ∧
  (∀ (s : State) (m w c : Nat) (x : Tile), s.accepts m 0x0020 = true → s.mbxLen m = 32 → w = s.wallFor (s.mbxArgs m) → byteAt (s.mbxArgs m) 0 = 1 →
    (s.wall? w).isSome = true → Tab.get none (s.wall w).tiles (leAt (s.mbxArgs m) 2 2) = some x → s.codec.dying = [] →
    s.ctxsOf (fun y => decide (y.wall = w) && decide (y.tile = leAt (s.mbxArgs m) 2 2) && decide (y.enc = false)) = [] →
    lowestFree 4096 s.ctxNums = some c → s.groupFor w (leAt (s.mbxArgs m) 2 2) x.independent = none → x.maxShort + 2 + x.bedSlots ≤ s.poolDescs.length →
    s.chargeSum + (s.ctxOf (s.mbxArgs m) x).charge ≤ s.limitFor s.inService →
    ∃ t, exec (.contextCreate m) s = .next t ∧ t.ctx? c = some { s.ctxOf (s.mbxArgs m) x with group := (lowestFree 512 (s.codec.groups.map (·.1))).getD 511 } ∧
      (t.group ((lowestFree 512 (s.codec.groups.map (·.1))).getD 511)).wall = w ∧ (t.group ((lowestFree 512 (s.codec.groups.map (·.1))).getD 511)).short = x.maxShort ∧
      (t.group ((lowestFree 512 (s.codec.groups.map (·.1))).getD 511)).beds = x.bedSlots ∧ t.dram = s.dram) ∧
  (∀ (s : State) (m c : Nat) (x : Ctx), s.accepts m 0x0021 = true → s.mbxLen m = 4 → c = leAt (s.mbxArgs m) 0 2 → leAt (s.mbxArgs m) 2 2 = 0 → s.ctx? c = some x → x.ending = false → s.ctxRuns c = false →
    (x.enc = false → s.tableNames c = false) →
    ∃ t, exec (.contextDestroy m) s = .next t ∧ t.ctx? c = none ∧ t.f F.SPQ_Q_CFG_EN c = 0 ∧ t.haul.restageDue = true ∧ t.dram = s.dram ∧ t.answered m (s.mbxTag m) 0 []) ∧
  (∀ (s : State) (m c : Nat) (x : Ctx), s.accepts m 0x0022 = true → s.mbxLen m = 3 → c = leAt (s.mbxArgs m) 0 2 → s.ctx? c = some x → byteAt (s.mbxArgs m) 2 ≤ 1 →
    ∃ t, exec (.contextStats m) s = .next t ∧
      Sets (s.setCtx? c (some { (if byteAt (s.mbxArgs m) 2 = 1 then x.cleared else x) with event := false })) (answer m (s.mbxTag m) 0 (s.statsBytes c)) t) ∧
  (∀ (s : State) (m c e : Nat) (x : Ctx), s.accepts m 0x0023 = true → s.mbxLen m = 4 → c = leAt (s.mbxArgs m) 0 2 → e = byteAt (s.mbxArgs m) 2 → e ≤ 3 → byteAt (s.mbxArgs m) 3 = 0 → c ≠ 0xFFFF →
    s.ctx? c = some x → x.enc = true → s.chargeAt c e ≤ x.charge →
    ∃ t, exec (.effortSet m) s = .next t ∧ t.codec = (s.setCtx? c (some { x with charge := s.chargeAt c e })).codec ∧ t.f F.SCH_CTX_EFFORT_CONFIGURED c = e ∧ t.f F.SCH_CTX_ARM_SHADOW_ARMED c = 1 ∧
      t.answered m (s.mbxTag m) 0 [] ∧
      ∀ (y : Fld) (i : Nat), y.outside (F.SCH_CTX_EFFORT_CONFIGURED :: F.SCH_CTX_ARM_SHADOW_ARMED :: capacityFields ++ resultFields) → t.f y i = s.f y i) ∧
  (∀ (s : State) (m lk ad : Nat), s.accepts m 0x0480 = true → s.mbxLen m = 9 → lk = leAt (s.mbxArgs m) 0 2 → lk < 512 → 64 ≤ byteAt (s.mbxArgs m) 2 → ad = byteAt (s.mbxArgs m) 3 → 50 ≤ ad → ad ≤ 95 →
    1 ≤ byteAt (s.mbxArgs m) 8 → byteAt (s.mbxArgs m) 8 ≤ 15 →
    ∃ t, exec (.schParamSet m) s = .next t ∧
      t.codec = { s.codec with lambdaK := lk, holdFactor := byteAt (s.mbxArgs m) 2, kp := leAt (s.mbxArgs m) 4 2, ki := leAt (s.mbxArgs m) 6 2, qpStepMax := byteAt (s.mbxArgs m) 8 } ∧
      t.f F.SCH_CTRL_ADMIT_PCT 0 = ad ∧
      (∀ c ∈ s.ctxsOf (·.enc), t.f F.SCH_CTX_PI_KP c = leAt (s.mbxArgs m) 4 2 ∧ t.f F.SCH_CTX_PI_KI c = leAt (s.mbxArgs m) 6 2 ∧ t.f F.SCH_CTX_QP_QP_STEP_MAX c = byteAt (s.mbxArgs m) 8 ∧ t.f F.SCH_CTX_ARM_SHADOW_ARMED c = 1) ∧
      t.answered m (s.mbxTag m) 0 [] ∧
      ∀ (y : Fld) (i : Nat), y.outside ([F.SCH_CTRL_ADMIT_PCT, F.SCH_CTX_PI_KP, F.SCH_CTX_PI_KI, F.SCH_CTX_QP_QP_STEP_MAX, F.SCH_CTX_ARM_SHADOW_ARMED] ++ capacityFields ++ resultFields) → t.f y i = s.f y i) ∧
  (∀ (s : State) (m c k : Nat) (x : Ctx), s.accepts m 0x0024 = true → s.mbxLen m = 20 → s.bedrockArgsOk (s.mbxArgs m) = true → c = leAt (s.mbxArgs m) 0 2 → k = byteAt (s.mbxArgs m) 2 → byteAt (s.mbxArgs m) 3 = 0 →
    s.ctx? c = some x → (∀ l ∈ x.loads, l.slot ≠ k) →
    ∃ t, exec (.bedrockLoad m) s = .next t ∧
      Sets ((s.setCtx? c (some { x with gens := Tab.set 0 x.gens k ((Tab.get 0 x.gens k + 1) % 256), loads := x.loads ++ [{ slot := k, fromDram := false, rows := byteAt (s.mbxArgs m) 4, qp := byteAt (s.mbxArgs m) 5, repeats := byteAt (s.mbxArgs m) 6, nameDelay := byteAt (s.mbxArgs m) 7, trickle := leAt (s.mbxArgs m) 8 4, addr := leAt (s.mbxArgs m) 12 8, gen := (Tab.get 0 x.gens k + 1) % 256, job := s.fw.nextJob, src := none }] })).draw.withJob m (.bedrock c k))
        (answer m (s.mbxTag m) 1 (leBytes 4 s.fw.nextJob)) t) ∧
  (∀ (s : State) (m c : Nat) (x : Ctx), s.accepts m 0x0024 = true → s.mbxLen m = 20 → s.bedrockArgsOk (s.mbxArgs m) = true → c = leAt (s.mbxArgs m) 0 2 → byteAt (s.mbxArgs m) 3 = 1 →
    s.ctx? c = some x → (∀ l ∈ x.loads, l.slot ≠ byteAt (s.mbxArgs m) 2) →
    ∃ t, exec (.bedrockLoad m) s = .next t ∧ (t.ctx c).loads.length = x.loads.length + 1 ∧ t.answered m (s.mbxTag m) 1 (leBytes 4 s.fw.nextJob))

-- ## Lamp output

/-- LAMP_PORT_SET, SCAN_MAP_LOAD, DRESSING_LOAD, RIV_CHANNEL_CONFIG (R203 to R205, R209, R221, R443): a chain is bound with the shadow sets of its ports and channels armed, and LEAD is returned; RESTORE moves only the split; a new index table is armed on every channel of the chain, with lock 2 and a job; a dressing package arms the other LUT bank, with lock 2 and a job; RIV_CHANNEL_CONFIG writes the shadow set of one channel, and a riving channel that is switched on selects same-bank refresh. The model's choices that it rests on: log entries 61 to 63. -/
def Obligations.LampCommands : Prop :=
  (∀ (s : State) (m a b w n k adv tab : Nat) (c : Chain), s.accepts m 0x0034 = true → s.mbxLen m = 18 → a = byteAt (s.mbxArgs m) 0 → b = byteAt (s.mbxArgs m) 1 → w = byteAt (s.mbxArgs m) 2 → n = byteAt (s.mbxArgs m) 3 →
    k = byteAt (s.mbxArgs m) 4 → byteAt (s.mbxArgs m) 5 = 0 → adv = leAt (s.mbxArgs m) 6 4 → tab = leAt (s.mbxArgs m) 10 8 → a < 48 → b < 48 ∨ b = 255 → a ≠ b → s.lampPortArgsOk a b w n k adv tab = true →
    c = { bound := true, portB := b, wall := w, n := n } →
    ∃ t, exec (.lampPortSet m) s = .next t ∧ t.chain a = c ∧
      (∀ x ∈ c.ports a, t.f F.LMP_PORT_CTRL_EN x = 1 ∧ t.f F.LMP_PORT_CTRL_SHADOW_ARMED x = 1 ∧ t.f F.LMP_PORT_CTRL_PARTNER x = (if b = 255 then 63 else if x = a then b else a) ∧ t.f F.LMP_PORT_SYNC_ADV_NS x = adv ∧
        t.f F.RIV_CH_CTRL_EN x = 1 ∧ t.f F.RIV_CH_CTRL_SHADOW_ARMED x = 1 ∧ t.f F.RIV_CH_TABLE_LO_ADDR x = tab % 2 ^ 32 ∧ t.f F.RIV_CH_TABLE_HI_ADDR x = tab / 2 ^ 32 ∧
        t.f F.RIV_CH_SPLIT_FIRST x = (c.span a x k).1 ∧ t.f F.RIV_CH_SPLIT_LAST x = (c.span a x k).2) ∧
      t.f F.MBX_RESULT_DATA (64 * m + 2) = t.f F.LMP_PORT_LEAD_NS a ∧ t.dram = s.dram ∧ t.codec = s.codec) ∧
  (∀ (s : State) (m a b k : Nat), s.accepts m 0x0034 = true → s.mbxLen m = 18 → a = byteAt (s.mbxArgs m) 0 → b = byteAt (s.mbxArgs m) 1 → k = byteAt (s.mbxArgs m) 4 → byteAt (s.mbxArgs m) 5 = 1 → a < 48 →
    b < 48 ∨ b = 255 → a ≠ b → (s.chain a).bound = true → (s.chain a).portB = b → k ≤ (s.chain a).n → (s.chain a).n ≤ 64 →
    ∃ t, exec (.lampPortSet m) s = .next t ∧
      Sets (s.setChain a { s.chain a with cuts := [] })
        (((s.chain a).ports a).flatMap (fun x => [(F.RIV_CH_SPLIT_FIRST, x, ((s.chain a).span a x k).1), (F.RIV_CH_SPLIT_LAST, x, ((s.chain a).span a x k).2), (F.RIV_CH_CTRL_SHADOW_ARMED, x, 1)]) ++
          answer m (s.mbxTag m) 0 (leBytes 4 (s.f F.LMP_PORT_LEAD_NS a))) t) ∧
  (∀ (s : State) (m a tab : Nat), s.accepts m 0x0041 = true → s.mbxLen m = 9 → a = byteAt (s.mbxArgs m) 0 → tab = leAt (s.mbxArgs m) 1 8 → a < 48 → (s.chain a).bound = true → tab < 2 ^ 40 → s.lockElsewhere 2 = false → s.tableOk tab = true →
    ∃ t, exec (.scanMapLoad m) s = .next t ∧
      Sets (s.withJob m .tables)
        (((s.chain a).ports a).flatMap (fun x => [(F.RIV_CH_TABLE_LO_ADDR, x, tab % 2 ^ 32), (F.RIV_CH_TABLE_HI_ADDR, x, tab / 2 ^ 32), (F.RIV_CH_CTRL_SHADOW_ARMED, x, 1)]) ++
          [(F.SEM_LOCK_OWNER, 2, 1)] ++ answer m (s.mbxTag m) 1 (leBytes 4 s.fw.nextJob)) t) ∧
  (∀ (s : State) (m c : Nat) (x : Ctx), s.accepts m 0x0040 = true → s.mbxLen m = 14 → c = leAt (s.mbxArgs m) 0 2 → leAt (s.mbxArgs m) 2 8 < 2 ^ 40 → s.ctx? c = some x → x.enc = false → s.lockElsewhere 2 = false →
    ∃ t, exec (.dressingLoad m) s = .next t ∧ t.f F.DRS_CTRL_LUT_ARMED 0 = 1 ∧ t.f F.SEM_LOCK_OWNER 2 = 1 ∧ t.codec = s.codec ∧ t.answered m (s.mbxTag m) 1 (leBytes 4 s.fw.nextJob)) ∧
  (∀ (s : State) (m n w : Nat), s.accepts m 0x0450 = true → s.mbxLen m = 17 → n = byteAt (s.mbxArgs m) 0 → w = leAt (s.mbxArgs m) 1 4 → n < 64 → (s.captureBarred n (w / 2 ^ 24 % 64) = true → 8 ≤ m) →
    ∃ t, exec (.rivChannelConfig m) s = .next t ∧
      Sets s ([(F.RIV_CH_CTRL_SOURCE, n, w / 2 ^ 24 % 64), (F.RIV_CH_CTRL_RETRY_LIMIT, n, w / 2 ^ 12 % 8), (F.RIV_CH_CTRL_EN, n, w / 2 ^ 8 % 2), (F.RIV_CH_TABLE_LO_ADDR, n, leAt (s.mbxArgs m) 5 4),
          (F.RIV_CH_TABLE_HI_ADDR, n, leAt (s.mbxArgs m) 9 4), (F.RIV_CH_SPLIT_FIRST, n, byteAt (s.mbxArgs m) 13), (F.RIV_CH_SPLIT_LAST, n, byteAt (s.mbxArgs m) 14), (F.RIV_CH_CTRL_SHADOW_ARMED, n, 1)] ++
          (if w / 2 ^ 8 % 2 = 1 then (List.range 4).map (fun c => (F.DDR_REFRESH_MODE, c, 1)) else []) ++ answer m (s.mbxTag m) 0 []) t)
-- ## Commands of haul, traffic and ingress

/-- ROUTE_SET, RULE_STAGE, RULE_COMMIT (R35, R251 to R253): a route is kept and rules are staged under lock 0 while LIVE stays; raw entries go into the staged bank; a commit without a refusal makes STAGED live, keeps OLD to drain and answers later, and one with a refusal answers it and changes nothing but ERR. That the clone is complete at once is a choice. The model's choices that it rests on: log entries 21, 53, 84 and 97. -/
def Obligations.RuleCommands : Prop :=
  (∀ (s : State) (m : Nat), s.accepts m 0x0030 = true → s.mbxLen m = 8 → byteAt (s.mbxArgs m) 0 ∈ s.codec.listed → leAt (s.mbxArgs m) 1 2 ≤ leAt (s.mbxArgs m) 3 2 → 1 ≤ leAt (s.mbxArgs m) 5 2 → leAt (s.mbxArgs m) 5 2 ≤ 0xFFE →
    s.lockElsewhere 0 = false → s.clsState = clsIdle ∨ s.clsState = clsStaging →
    ∃ t, exec (.routeSet m) s = .next t ∧ t.clsState = clsStaging ∧ t.f F.SEM_LOCK_OWNER 0 = 1 ∧ t.haul.live = s.haul.live ∧
      t.haul.routes = s.routeTo (byteAt (s.mbxArgs m) 0) (leAt (s.mbxArgs m) 1 2) (leAt (s.mbxArgs m) 3 2) (leAt (s.mbxArgs m) 5 2) (byteAt (s.mbxArgs m) 7) ::
        s.haul.routes.filter (fun x => ¬ (x.wall = byteAt (s.mbxArgs m) 0 ∧ x.lo = leAt (s.mbxArgs m) 1 2 ∧ x.hi = leAt (s.mbxArgs m) 3 2)) ∧
      t.answered m (s.mbxTag m) 0 []) ∧
  (∀ (s : State) (m i n size ne nt : Nat) (tern : Bool) (b : Bank), s.accepts m 0x0420 = true → 36 ≤ s.mbxLen m → s.mbxLen m ≤ 244 → s.mbxLen m = (s.mbxArgs m).length → byteAt (s.mbxArgs m) 0 ≤ 1 → tern = decide (byteAt (s.mbxArgs m) 0 = 1) →
    size = (if tern then 48 else 32) → (s.mbxArgs m).length = 4 + size * n → 1 ≤ n → byteAt (s.mbxArgs m) 1 = 0 → i = leAt (s.mbxArgs m) 2 2 → i + n ≤ (if tern then 512 else 16384) → s.lockElsewhere 0 = false → s.clsState = clsIdle ∨ s.clsState = clsStaging →
    b = (if s.clsState = clsStaging then s.haul.staged else s.haul.live) → ne = (if s.clsState = clsStaging then s.f F.CLS_STAGE_COUNT_EXACT 0 else s.haul.live.nExact % 2 ^ 15) → nt = (if s.clsState = clsStaging then s.f F.CLS_STAGE_COUNT_TERN 0 else s.haul.live.nTern % 2 ^ 10) →
    ∃ t, exec (.ruleStage m) s = .next t ∧
      Sets (s.withHaul (fun w => { w with staged := (List.range n).foldl (fun acc k => acc.putRaw tern (i + k) (sliceOf (s.mbxArgs m) (4 + size * k) size)) b }))
        ([(F.CLS_STAGE_COUNT_EXACT, 0, if tern then ne else max ne (i + n) % 2 ^ 15), (F.CLS_STAGE_COUNT_TERN, 0, if tern then max nt (i + n) % 2 ^ 10 else nt), (F.CLS_VERSION_STATE, 0, clsStaging), (F.SEM_LOCK_OWNER, 0, 1)] ++
          answer m (s.mbxTag m) 0 []) t) ∧
  (∀ (s : State) (m ne nt : Nat) (b : Bank), s.accepts m 0x0031 = true → s.mbxLen m = 0 → s.lockElsewhere 0 = false → s.clsState = clsStaging → ne = s.f F.CLS_STAGE_COUNT_EXACT 0 → nt = s.f F.CLS_STAGE_COUNT_TERN 0 →
    b = { s.haul.staged with nExact := ne, nTern := nt } → s.stageError b ne nt = 0 →
    ∃ t, exec (.ruleCommit m) s = .next t ∧
      Sets (s.withHaul (fun w => { w.markOld with old := w.live, live := b, staged := {}, commitFor := [.mailbox m] }))
        [(F.CLS_COMMIT_ERR, 0, 0), (F.CLS_VERSION_OLD, 0, s.f F.CLS_VERSION_LIVE 0 % 256), (F.CLS_VERSION_LIVE, 0, s.f F.CLS_VERSION_STAGED 0 % 256), (F.CLS_VERSION_STAGED, 0, (s.f F.CLS_VERSION_STAGED 0 + 1) % 256), (F.CLS_VERSION_STATE, 0, 3)] t) ∧
  (∀ (s : State) (m ne nt e : Nat), s.accepts m 0x0031 = true → s.mbxLen m = 0 → s.lockElsewhere 0 = false → s.clsState = clsStaging → ne = s.f F.CLS_STAGE_COUNT_EXACT 0 → nt = s.f F.CLS_STAGE_COUNT_TERN 0 →
    e = s.stageError { s.haul.staged with nExact := ne, nTern := nt } ne nt → e ≠ 0 →
    ∃ t, exec (.ruleCommit m) s = .next t ∧ Sets s ([(F.CLS_COMMIT_ERR, 0, e)] ++ answer m (s.mbxTag m) (if e = 5 then 0x0030 else 0x0012) []) t)

/-- HAUL_PORT_SET, DEVICE_ADDRESS_SET, INGRESS_SET (R35, R226, R259, R340): each writes its registers where the lane map and the walls allow it; a haul link goes down to retrain, and firmware restages its rules after a new address. The model's choices that it rests on: log entries 54, 71, 84 and 97. -/
def Obligations.PortCommands : Prop :=
  (∀ (s : State) (m p : Nat), s.accepts m 0x0032 = true → s.mbxLen m = 14 → p = byteAt (s.mbxArgs m) 0 → p ≤ 5 → byteAt (s.mbxArgs m) 1 ≤ 2 → byteAt (s.mbxArgs m) 2 ≤ 2 → byteAt (s.mbxArgs m) 3 ≤ 2 → byteAt (s.mbxArgs m) 4 ≤ 2 →
    64 ≤ leAt (s.mbxArgs m) 5 2 → leAt (s.mbxArgs m) 5 2 ≤ frameMax → byteAt (s.mbxArgs m) 13 ≤ 3 → (s.writeHaulPort (s.mbxArgs m)).haulLanesOk p = true →
    ∃ t, exec (.haulPortSet m) s = .next t ∧
      Sets s ([(F.HAUL_CTRL_MODE, p, byteAt (s.mbxArgs m) 1), (F.HAUL_CTRL_LANES, p, byteAt (s.mbxArgs m) 2), (F.HAUL_CTRL_RATE, p, byteAt (s.mbxArgs m) 3), (F.HAUL_CTRL_ENCAP, p, byteAt (s.mbxArgs m) 4),
          (F.HAUL_MTU_BYTES, p, leAt (s.mbxArgs m) 5 2), (F.HAUL_MAC_LO_MAC, p, leAt (s.mbxArgs m) 7 4), (F.HAUL_MAC_HI_MAC, p, leAt (s.mbxArgs m) 11 2), (F.HAUL_CTRL_MGMT_TRUST, p, byteAt (s.mbxArgs m) 13 % 2),
          (F.HAUL_CTRL_PROMISC, p, byteAt (s.mbxArgs m) 13 / 2), (F.HAUL_CTRL_EN, p, 1), (F.TMG_PORT_CTRL_EN, p, 1), (F.HAUL_STATUS_LINK, p, 0), (F.HAUL_STATUS_ALIGNED, p, 0), (F.HAUL_STATUS_AN_DONE, p, 0)] ++
        answer m (s.mbxTag m) 0 []) t) ∧
  (∀ (s : State) (m n : Nat), s.accepts m 0x0051 = true → s.mbxLen m = 8 + byteAt (s.mbxCommand m) 14 → s.addressOk (s.mbxArgs m) = true → s.device = leAt (s.mbxArgs m) 0 2 → n = byteAt (s.mbxArgs m) 2 →
    ∃ t, exec (.deviceAddressSet m) s = .next t ∧
      Sets ((s.withCodec (fun w => { w with listed := ((s.mbxArgs m).drop 8).map (·.toNat) })).withHaul (fun w => { w with restageDue := true }))
        ([(F.CLS_DEVICE_ADDR, 0, leAt (s.mbxArgs m) 0 2), (F.CLS_RING_EN, 0, if n = 0 then 0 else 1)] ++
          (if n = 0 then [] else [(F.CLS_RING_SIZE, 0, n), (F.CLS_RING_POS, 0, byteAt (s.mbxArgs m) 3), (F.CLS_RING_CW_PORT, 0, byteAt (s.mbxArgs m) 4), (F.CLS_RING_CCW_PORT, 0, byteAt (s.mbxArgs m) 5)]) ++
          answer m (s.mbxTag m) 0 []) t) ∧
  (∀ (s : State) (m : Nat), s.accepts m 0x0051 = true → s.mbxLen m = 8 + byteAt (s.mbxCommand m) 14 → s.addressOk (s.mbxArgs m) = true → s.device ≠ leAt (s.mbxArgs m) 0 2 → s.codec.walls ≠ [] →
    ∃ t, exec (.deviceAddressSet m) s = .next t ∧ t.device = leAt (s.mbxArgs m) 0 2 ∧ t.f F.GLB_EXPERT_UNLOCKED_R 0 ≠ 1 ∧ t.haul.restageDue = true ∧ Waiter.job s.fw.nextJob ∈ t.haul.restageFor ∧
      t.answered m (s.mbxTag m) 1 (leBytes 4 s.fw.nextJob)) ∧
  (∀ (s : State) (m : Nat), s.accepts m 0x0051 = true → s.mbxLen m = 8 + byteAt (s.mbxCommand m) 14 → s.addressOk (s.mbxArgs m) = true → s.device ≠ leAt (s.mbxArgs m) 0 2 → s.codec.walls = [] →
    ∃ t, exec (.deviceAddressSet m) s = .next t ∧ t.device = leAt (s.mbxArgs m) 0 2 ∧ t.f F.GLB_EXPERT_UNLOCKED_R 0 ≠ 1 ∧ t.haul.restageDue = true ∧ t.answered m (s.mbxTag m) 0 []) ∧
  (∀ (s : State) (m p : Nat), s.accepts m 0x0033 = true → s.mbxLen m = 12 → (s.mbxArgs m).length = 12 → p = byteAt (s.mbxArgs m) 0 → s.ingArgsOk (s.mbxArgs m) = true → byteAt (s.mbxArgs m) 1 ≠ 1 →
    ∃ t, exec (.ingressSet m) s = .next t ∧
      Sets (s.setIng p { s.ing p with params := [] })
        ([(F.ING_CTRL_MODE, p, byteAt (s.mbxArgs m) 1), (F.ING_CTRL_WALL, p, byteAt (s.mbxArgs m) 2), (F.ING_REGION_POS_X_OFF, p, leAt (s.mbxArgs m) 3 2), (F.ING_REGION_POS_Y_OFF, p, leAt (s.mbxArgs m) 5 2),
          (F.ING_REGION_SIZE_WIDTH, p, leAt (s.mbxArgs m) 7 2), (F.ING_REGION_SIZE_HEIGHT, p, leAt (s.mbxArgs m) 9 2), (F.ING_CTRL_LEADER, p, byteAt (s.mbxArgs m) 11), (F.ING_CTRL_EN, p, 1)] ++
          (if byteAt (s.mbxArgs m) 1 = 0 then [(F.ING_CTRL_LANES, p, lanesCode (s.portLanes fnIngress p).length)] else []) ++ answer m (s.mbxTag m) 0 []) t) ∧
  (∀ (s : State) (m : Nat), s.accepts m 0x0033 = true → 12 ≤ s.mbxLen m → byteAt (s.mbxArgs m) 1 = 1 →
    ∃ t, exec (.ingressSet m) s = .next t ∧
      (if s.ingArgsOk (s.mbxArgs m) = true then t.f F.ING_CTRL_EN (byteAt (s.mbxArgs m) 0) = 1 ∧ (t.ing (byteAt (s.mbxArgs m) 0)).params = (s.mbxArgs m).drop 12 ∧ t.answered m (s.mbxTag m) 0 []
       else Sets s (answer m (s.mbxTag m) 0x0012 []) t))

/-- METER_CONFIG, SHAPER_CONFIG, QUEUE_WEIGHT_SET (R283, R284, R287, R290): the registers of one meter, shaper or queue; setting EN of a meter fills its buckets; a written rate starts its shaper with a full burst; a zero limit leaves the limit as it is. The model's choices that it rests on: log entry 57. -/
def Obligations.TrafficCommands : Prop :=
  (∀ (s : State) (m n b p : Nat), s.accepts m 0x0421 = true → s.mbxLen m = 19 → n = leAt (s.mbxArgs m) 0 2 → n < 1024 → byteAt (s.mbxArgs m) 2 ≤ 3 → leAt (s.mbxArgs m) 3 4 ≤ leAt (s.mbxArgs m) 7 4 → b = leAt (s.mbxArgs m) 11 4 → p = leAt (s.mbxArgs m) 15 4 → 64 ≤ b → 64 ≤ p →
    ∃ t, exec (.meterConfig m) s = .next t ∧
      Sets (if s.f F.TMG_METER_CTRL_EN n ≠ 1 ∧ byteAt (s.mbxArgs m) 2 % 2 = 1 then s.setMeter n { tc := b * 2 ^ 24, tp := p * 2 ^ 24, at_ := s.time.fclk } else s)
        ([(F.TMG_METER_CIR_RATE, n, leAt (s.mbxArgs m) 3 4), (F.TMG_METER_PIR_RATE, n, leAt (s.mbxArgs m) 7 4), (F.TMG_METER_CBS_BYTES, n, b), (F.TMG_METER_PBS_BYTES, n, p),
          (F.TMG_METER_CTRL_AWARE, n, byteAt (s.mbxArgs m) 2 / 2), (F.TMG_METER_CTRL_EN, n, byteAt (s.mbxArgs m) 2 % 2)] ++ answer m (s.mbxTag m) 0 []) t) ∧
  (∀ (s : State) (m p q r b : Nat), s.accepts m 0x0422 = true → s.mbxLen m = 10 → p = byteAt (s.mbxArgs m) 0 → q = byteAt (s.mbxArgs m) 1 → r = leAt (s.mbxArgs m) 2 4 → b = leAt (s.mbxArgs m) 6 4 → p ≤ 5 → q < 64 → 1 ≤ b → b < 2 ^ 24 →
    ∃ t, exec (.shaperConfig m) s = .next t ∧
      Sets (s.setTmgQueue (64 * p + q) { s.tmgQueue (64 * p + q) with shaper := { tokens := (b * 2 ^ 24 : Nat), at_ := s.time.fclk } })
        ([(F.TMG_Q_SHAPE_BURST_BYTES, 64 * p + q, b), (F.TMG_Q_SHAPE_RATE_RATE, 64 * p + q, r)] ++ answer m (s.mbxTag m) 0 []) t) ∧
  (∀ (s : State) (m p r b : Nat), s.accepts m 0x0422 = true → s.mbxLen m = 10 → p = byteAt (s.mbxArgs m) 0 → byteAt (s.mbxArgs m) 1 = 255 → r = leAt (s.mbxArgs m) 2 4 → b = leAt (s.mbxArgs m) 6 4 → p ≤ 5 → 1 ≤ b → b < 2 ^ 24 →
    ∃ t, exec (.shaperConfig m) s = .next t ∧
      Sets (s.setTmgPort p { s.tmgPort p with shaper := { tokens := (b * 2 ^ 24 : Nat), at_ := s.time.fclk } }) ([(F.TMG_PORT_SHAPE_BURST_BYTES, p, b), (F.TMG_PORT_SHAPE_RATE_RATE, p, r)] ++ answer m (s.mbxTag m) 0 []) t) ∧
  (∀ (s : State) (m k w d y : Nat), s.accepts m 0x0423 = true → s.mbxLen m = 12 → byteAt (s.mbxArgs m) 0 ≤ 5 → 4 ≤ byteAt (s.mbxArgs m) 1 → byteAt (s.mbxArgs m) 1 < 64 → k = 64 * byteAt (s.mbxArgs m) 0 + byteAt (s.mbxArgs m) 1 →
    w = leAt (s.mbxArgs m) 2 2 → 1 ≤ w → w ≤ 4096 → d = leAt (s.mbxArgs m) 4 4 → y = leAt (s.mbxArgs m) 8 4 → d < 2 ^ 24 → y < 2 ^ 24 →
    ∃ t, exec (.queueWeightSet m) s = .next t ∧
      Sets s ([(F.TMG_Q_CFG_WEIGHT, k, w)] ++ (if d = 0 then [] else [(F.TMG_Q_DEPTH_MAX_BYTES, k, d)]) ++ (if y = 0 then [] else [(F.TMG_Q_YELLOW_MAX_BYTES, k, y)]) ++ answer m (s.mbxTag m) 0 []) t)

-- ## Commands of hewers, lanes and DRAM

/-- HEWER_DRAIN, HEWER_SERVICE, HEWER_PATCH, UCODE_UPDATE (R187, R188, R191 to R194): an idle hewer drains at once, a running one after its unit, for which the command waits, and one that is drained, faulty or OUT answers at once; a hewer goes OUT where the others carry the charge, a running one after its unit, and comes back through its test; a patch set that passes its checks loads into a drained hewer under lock 3, one that does not is refused; an update starts a job at its first hewer. The model's choices that it rests on: log entries 46 and 95. -/
def Obligations.HewerCommands : Prop :=
  (∀ (s : State) (m h : Nat), s.accepts m 0x0410 = true → s.mbxLen m = 1 → h = byteAt (s.mbxArgs m) 0 → h < 24 → s.hwState h = hwIdle → (s.hewer h).drainFor = [] →
    ∃ t, exec (.hewerDrain m) s = .next t ∧ t.hwState h = hwDrained ∧ t.f F.HWR_CTRL_DRAIN h = 1 ∧ t.codec = s.codec ∧ t.answered m (s.mbxTag m) 0 [] ∧
      ∀ (y : Fld) (i : Nat), y.outside (F.HWR_STATUS_STATE :: F.HWR_CTRL_DRAIN :: capacityFields ++ resultFields) → t.f y i = s.f y i) ∧
  (∀ (s : State) (m h : Nat), s.accepts m 0x0410 = true → s.mbxLen m = 1 → h = byteAt (s.mbxArgs m) 0 → h < 24 → s.hwState h = hwRun ∨ s.hwState h = hwDraining →
    ∃ t, exec (.hewerDrain m) s = .next t ∧ t.hwState h = hwDraining ∧ t.f F.HWR_CTRL_DRAIN h = 1 ∧ (t.hewer h).drainFor.length = (s.hewer h).drainFor.length + 1 ∧ (t.hewer h).run = (s.hewer h).run) ∧
  (∀ (s : State) (m h : Nat), s.accepts m 0x0410 = true → s.mbxLen m = 1 → h = byteAt (s.mbxArgs m) 0 → h < 24 → s.hwState h = hwDrained ∨ s.hwState h = hwFault →
    ∃ t, exec (.hewerDrain m) s = .next t ∧ Sets s ([(F.HWR_CTRL_DRAIN, h, 1)] ++ answer m (s.mbxTag m) 0 []) t) ∧
  (∀ (s : State) (m h : Nat), s.accepts m 0x0410 = true → s.mbxLen m = 1 → h = byteAt (s.mbxArgs m) 0 → h < 24 → s.hwState h = hwOut → ∃ t, exec (.hewerDrain m) s = .next t ∧ Sets s (answer m (s.mbxTag m) 0 []) t) ∧
  (∀ (s : State) (m h : Nat), s.accepts m 0x0412 = true → s.mbxLen m = 2 → h = byteAt (s.mbxArgs m) 0 → h < 24 → byteAt (s.mbxArgs m) 1 = 0 → s.hwState h ∈ [hwOut, hwIdle, hwDrained, hwFault] → (s.servesNow h = true → s.chargeSum ≤ s.limitFor (s.inService - 1)) →
    ∃ t, exec (.hewerService m) s = .next t ∧ t.hwState h = hwOut ∧ t.f F.HWR_CTRL_SERVICE h = 0 ∧ t.codec = s.codec ∧ t.answered m (s.mbxTag m) 0 []) ∧
  (∀ (s : State) (m h : Nat), s.accepts m 0x0412 = true → s.mbxLen m = 2 → h = byteAt (s.mbxArgs m) 0 → h < 24 → byteAt (s.mbxArgs m) 1 = 0 → s.hwState h = hwRun ∨ s.hwState h = hwDraining → s.chargeSum ≤ s.limitFor (s.inService - 1) →
    ∃ t, exec (.hewerService m) s = .next t ∧ t.hwState h = hwDraining ∧ t.f F.HWR_CTRL_SERVICE h = 0 ∧ (t.hewer h).goOut = true ∧ (t.hewer h).drainFor.length = (s.hewer h).drainFor.length + 1 ∧ (t.hewer h).run = (s.hewer h).run) ∧
  (∀ (s : State) (m h : Nat), s.accepts m 0x0412 = true → s.mbxLen m = 2 → h = byteAt (s.mbxArgs m) 0 → h < 24 → byteAt (s.mbxArgs m) 1 = 1 → s.hwState h = hwOut ∨ s.hwState h = hwFault → s.partialPatch h = false →
    ∃ t, exec (.hewerService m) s = .next t ∧ t.hwState h = hwTest ∧ t.f F.HWR_CTRL_SERVICE h = 1 ∧ (t.hewer h).testFor = .mailbox m ∧ t.f F.MBX_STATUS_BUSY m = s.f F.MBX_STATUS_BUSY m) ∧
  (∀ (s : State) (m h : Nat), s.accepts m 0x0412 = true → s.mbxLen m = 2 → h = byteAt (s.mbxArgs m) 0 → h < 24 → byteAt (s.mbxArgs m) 1 = 1 → s.servesNow h = true → ∃ t, exec (.hewerService m) s = .next t ∧ Sets s (answer m (s.mbxTag m) 0 []) t) ∧
  (∀ (s : State) (m h fl : Nat) (p : PatchSet), s.accepts m 0x0411 = true → h = byteAt (s.mbxArgs m) 0 → h < 24 → fl = byteAt (s.mbxArgs m) 1 → fl ≤ 1 → s.mbxLen m = (if fl = 1 then 12 else 4) → (s.mbxArgs m).length = s.mbxLen m →
    s.hwState h = hwDrained ∨ s.hwState h = hwOut → (∀ k, k < 24 → s.hwState k ≠ hwPatching) → s.lockElsewhere 3 = false → s.namedPatch fl (leAt (s.mbxArgs m) 2 2) (leAt (s.mbxArgs m) 4 8 % 2 ^ 40) = .ok p →
    ∃ t, exec (.hewerPatch m) s = .next t ∧ t.hwState h = hwPatching ∧ t.f F.HWR_PATCH_STATUS_STATE h = 2 ∧ t.f F.SEM_LOCK_OWNER 3 = 1 ∧ (t.hewer h).loading = some p ∧ (t.hewer h).loadFor = .mailbox m ∧ (t.hewer h).loadFrom = s.hwState h) ∧
  (∀ (s : State) (m h fl e : Nat), s.accepts m 0x0411 = true → h = byteAt (s.mbxArgs m) 0 → h < 24 → fl = byteAt (s.mbxArgs m) 1 → fl ≤ 1 → s.mbxLen m = (if fl = 1 then 12 else 4) → (s.mbxArgs m).length = s.mbxLen m →
    s.hwState h = hwDrained ∨ s.hwState h = hwOut → (∀ k, k < 24 → s.hwState k ≠ hwPatching) → s.namedPatch fl (leAt (s.mbxArgs m) 2 2) (leAt (s.mbxArgs m) 4 8 % 2 ^ 40) = .error e →
    ∃ t, exec (.hewerPatch m) s = .next t ∧ Sets (s.setHewer h { s.hewer h with patchEvt := true }) (answer m (s.mbxTag m) e []) t) ∧
  (∀ (s : State) (m h fl : Nat) (p : PatchSet), s.accepts m 0x0042 = true → fl = byteAt (s.mbxArgs m) 0 → fl ≤ 1 → byteAt (s.mbxArgs m) 1 = 0 → s.mbxLen m = (if fl = 1 then 12 else 4) → (s.mbxArgs m).length = s.mbxLen m → s.codec.update = none →
    s.chargeSum ≤ s.limitFor (s.inService - 1) → s.lockElsewhere 3 = false → s.namedPatch fl (leAt (s.mbxArgs m) 2 2) (leAt (s.mbxArgs m) 4 8 % 2 ^ 40) = .ok p → allHewers.find? (fun k => s.updates k) = some h →
    ∃ t, exec (.ucodeUpdate m) s = .next t ∧ t.codec.update = some { set := p, at_ := h, job := s.fw.nextJob, failed := false, waits := s.hwState h = hwTest || s.hwState h = hwPatching } ∧ t.f F.SEM_LOCK_OWNER 3 = 1 ∧
      t.hwState h = (if s.hwState h = hwTest then hwTest else if s.hwState h = hwRun ∨ s.hwState h = hwDraining then hwDraining else hwPatching) ∧ t.answered m (s.mbxTag m) 1 (leBytes 4 s.fw.nextJob))

/-- LANE_CONFIG, LANE_RECAL, DDR_RETRAIN, DDR_TIMING_SET (R297, R306, R326, R330 to R333): every entry of a legal set of lanes takes effect; a calibration or a retrain becomes due as a job; timings at or above the table arm the channel. The model's choices that it rests on: log entries 69 and 70. -/
def Obligations.LaneAndMemoryCommands : Prop :=
  (∀ (s : State) (m k : Nat) (es : List (List Byte)), s.accepts m 0x0430 = true → s.mbxLen m = 1 + 8 * k → (s.mbxArgs m).length = s.mbxLen m → k = byteAt (s.mbxArgs m) 0 → 1 ≤ k → k ≤ 16 → es = (List.range k).map (fun i => sliceOf (s.mbxArgs m) (1 + 8 * i) 8) →
    es.all laneEntryOk = true → (chainAll es (fun e u => u.tryEntry e) s).lanesLegal = true → (es.map (fun e => byteAt e 0)).Nodup →
    ∃ t, exec (.laneConfig m) s = .next t ∧
      (∀ e ∈ es, t.f F.LANE_CFG_EN (byteAt e 0) = 1 ∧ t.f F.LANE_CFG_FUNC (byteAt e 0) = byteAt e 1 ∧ t.f F.LANE_CFG_PORT (byteAt e 0) = byteAt e 2 % 64 ∧ t.f F.LANE_CFG_PORT_LANE (byteAt e 0) = byteAt e 3 ∧ t.f F.LANE_CFG_RATE (byteAt e 0) = byteAt e 4 ∧
        t.f F.LANE_TX_AMP (byteAt e 0) = byteAt e 6 / 16 ∧ t.f F.LANE_TX_DEEMPH (byteAt e 0) = byteAt e 6 % 8) ∧
      (∀ l, (∀ e ∈ es, byteAt e 0 ≠ l) → t.f F.LANE_CFG_EN l = s.f F.LANE_CFG_EN l ∧ t.f F.LANE_CFG_FUNC l = s.f F.LANE_CFG_FUNC l ∧ t.f F.LANE_CFG_PORT l = s.f F.LANE_CFG_PORT l) ∧ t.answered m (s.mbxTag m) 0 []) ∧
  (∀ (s : State) (m n : Nat), s.accepts m 0x0431 = true → s.mbxLen m = 1 → n = byteAt (s.mbxArgs m) 0 → n ≤ 59 →
    ∃ t, exec (.laneRecal m) s = .next t ∧
      Sets ((s.withLane (fun w => { w with due := if n ∈ w.due ∨ s.f F.LANE_STATUS_CAL n = 1 then w.due else w.due ++ [n] })).withJob m (.recal [n])) (answer m (s.mbxTag m) 1 (leBytes 4 s.fw.nextJob)) t) ∧
  (∀ (s : State) (m c : Nat), s.accepts m 0x0440 = true → s.mbxLen m = 1 → c = byteAt (s.mbxArgs m) 0 → c < s.channels →
    ∃ t, exec (.ddrRetrain m) s = .next t ∧ Sets ((s.setMchan c { s.mchan c with retrainDue := true }).withJob m (.retrain [c])) (answer m (s.mbxTag m) 1 (leBytes 4 s.fw.nextJob)) t) ∧
  (∀ (s : State) (m c k : Nat) (ps : List (Nat × Nat)), s.accepts m 0x0441 = true → s.mbxLen m = 2 + 3 * k → (s.mbxArgs m).length = s.mbxLen m → k = byteAt (s.mbxArgs m) 1 → 1 ≤ k → k ≤ 30 → c = byteAt (s.mbxArgs m) 0 → c < s.channels →
    ps = (List.range k).map (fun i => (byteAt (s.mbxArgs m) (2 + 3 * i), leAt (s.mbxArgs m) (3 + 3 * i) 2)) → (∀ p ∈ ps, p.1 ≤ 17 ∧ s.timingMin c p.1 ≤ p.2) →
    ∃ t, exec (.ddrTimingSet m) s = .next t ∧
      Sets (s.setMchan c { s.mchan c with shadow := ps.foldl (fun t p => Tab.set 0 t p.1 p.2) (s.mchan c).shadow }) ([(F.DDR_TIMING_ARM_SHADOW_ARMED, c, 1)] ++ answer m (s.mbxTag m) 0 []) t) ∧
  (∀ (s : State) (m k : Nat) (ps : List (Nat × Nat)), s.accepts m 0x0441 = true → s.mbxLen m = 2 + 3 * k → (s.mbxArgs m).length = s.mbxLen m → k = byteAt (s.mbxArgs m) 1 → 1 ≤ k → k ≤ 30 → byteAt (s.mbxArgs m) 0 = 255 →
    ps = (List.range k).map (fun i => (byteAt (s.mbxArgs m) (2 + 3 * i), leAt (s.mbxArgs m) (3 + 3 * i) 2)) → (∀ c, c < s.channels → ∀ p ∈ ps, p.1 ≤ 17 ∧ s.timingMin c p.1 ≤ p.2) →
    ∃ t, exec (.ddrTimingSet m) s = .next t ∧
      (∀ c, c < s.channels → t.mchan c = { s.mchan c with shadow := ps.foldl (fun t p => Tab.set 0 t p.1 p.2) (s.mchan c).shadow } ∧ t.f F.DDR_TIMING_ARM_SHADOW_ARMED c = 1) ∧ t.answered m (s.mbxTag m) 0 [])
-- ## Events of lamp output

/-- SUBFRAME_SYNC, SYNC_GAP_START, GRID_ENABLE (R64, R198 to R202, R206, R225, R306, R329, R396, R397): sync k shows k modulo 256, ends the gap, hands the armed shadow sets of its ports and riving channels over and goes out on every port of the grid; a disabled grid has no sync; a gap stops frames and counts the strips that are late; a grid starts only with PTP in lock, on a grandmaster or without PTP_CONFIG. The model's choices that it rests on: log entry 58. -/
def Obligations.SyncEvents : Prop :=
  (∀ (s : State) (g : Nat), g < 4 → s.f F.LMP_GRID_STATUS_EN g ≠ 1 → exec (.subframeSync g) s = .next s) ∧
  (∀ (s : State) (g k : Nat), g < 4 → s.f F.LMP_GRID_STATUS_EN g = 1 → k = (s.grid g).k →
    ∃ t, exec (.subframeSync g) s = .next t ∧ t.f F.LMP_GRID_STATUS_SFC g = k % 256 ∧ t.grid g = { s.grid g with k := k + 1, inGap := false } ∧
      (∀ n ∈ allPorts, (s.port n).en = true → (s.port n).grid = g → s.f F.LMP_PORT_CTRL_SHADOW_ARMED n ≠ 1 →
        (t.port n).lastSync = some (k % 256) ∧ (t.port n).inGap = false ∧ (t.port n).kind = s.safeKind n ∧ ((s.port n).kind = s.safeKind n → (t.port n).blankDue = ((s.port n).blankDue || ((s.port n).safe && !(s.port n).hold)))) ∧
      Tab.get 65536 t.lamp.bright g = (if s.f F.DRS_BRIGHT_SHADOW_ARMED g = 1 then min 65536 (s.f F.DRS_BRIGHT_BRIGHT g) else Tab.get 65536 s.lamp.bright g) ∧
      t.f F.DRS_BRIGHT_SHADOW_ARMED g ≠ 1 ∧ (g = 0 → s.f F.DRS_CTRL_LUT_ARMED 0 = 1 → t.f F.DRS_CTRL_LUT_BANK 0 = 1 - s.f F.DRS_CTRL_LUT_BANK 0 ∧ t.f F.DRS_CTRL_LUT_ARMED 0 = 0) ∧
      t.dram = s.dram ∧ t.haul = s.haul ∧ t.mem = s.mem) ∧
  (∀ (s : State) (g n : Nat), g < 4 → s.f F.LMP_GRID_STATUS_EN g = 1 → n < 48 → s.f F.LMP_PORT_CTRL_SHADOW_ARMED n = 1 → (if (s.port n).en then (s.port n).grid else s.f F.LMP_PORT_CTRL_GRID n) = g →
    ∃ t, exec (.subframeSync g) s = .next t ∧ (t.port n).en = s.fb F.LMP_PORT_CTRL_EN n ∧ (t.port n).partner = s.f F.LMP_PORT_CTRL_PARTNER n ∧ (t.port n).grid = s.f F.LMP_PORT_CTRL_GRID n ∧
      (t.port n).endB = s.fb F.LMP_PORT_CTRL_END n ∧ t.f F.LMP_PORT_CTRL_SHADOW_ARMED n = 0 ∧ (s.f F.LMP_PORT_CTRL_EN n = 1 → (s.port n).en = false → (t.port n).owed = true)) ∧
  (∀ (s : State) (g n : Nat), g < 4 → s.f F.LMP_GRID_STATUS_EN g = 1 → n < 64 → s.f F.RIV_CH_CTRL_SHADOW_ARMED n = 1 → s.chanGrid n = g →
    ∃ t, exec (.subframeSync g) s = .next t ∧ (t.chan n).en = s.fb F.RIV_CH_CTRL_EN n ∧ (t.chan n).retryLimit = s.f F.RIV_CH_CTRL_RETRY_LIMIT n ∧ (t.chan n).source = s.f F.RIV_CH_CTRL_SOURCE n ∧
      t.f F.RIV_CH_SPLIT_ACT_FIRST n = s.f F.RIV_CH_SPLIT_FIRST n % 256 ∧ t.f F.RIV_CH_SPLIT_ACT_LAST n = s.f F.RIV_CH_SPLIT_LAST n % 256 ∧ t.f F.RIV_CH_CTRL_SHADOW_ARMED n = 0 ∧
      (s.f F.RIV_CH_CTRL_EN n ≠ 1 → (t.chan n).bands = [] ∧ (t.chan n).current = none)) ∧
  (∀ (s : State) (g : Nat), g < 4 → s.f F.LMP_GRID_STATUS_EN g = 1 →
    ∃ t, exec (.syncGapStart g) s = .next t ∧ (t.grid g).inGap = true ∧ t.lane.gap = s.lane.gap.filter (fun l => decide (s.laneGrid l ≠ g)) ∧ t.codec = s.codec ∧ t.dram = s.dram ∧ (g = 0 → t.mem.gapUsed = false) ∧
      (∀ n ∈ s.gridPorts g, (t.port n).inGap = true ∧ (t.port n).frame = (s.port n).frame) ∧
      ∀ (y : Fld) (i : Nat), y.outside [F.LMP_PORT_COUNTS_LATE_STRIPS, F.LANE_STATUS_PEAK_NOW, F.LANE_STATUS_CDR_OFS] → t.f y i = s.f y i) ∧
  (∀ (s : State) (g n k : Nat), g < 4 → s.f F.LMP_GRID_STATUS_EN g = 1 → n ∈ s.gridPorts g → (s.chan n).current ≠ none → (s.chan n).apply = (s.wall (s.grid g).wall).sync (s.grid g).k →
    k = ((s.chan n).strips.filter (fun x => !x.late)).length →
    ∃ t, exec (.syncGapStart g) s = .next t ∧ t.f F.LMP_PORT_COUNTS_LATE_STRIPS n = min (s.f F.LMP_PORT_COUNTS_LATE_STRIPS n + k) 65535 ∧ (t.chan n).strips.length = (s.chan n).strips.length ∧ ∀ x ∈ (t.chan n).strips, x.late = true) ∧
  (∀ (s : State) (g : Nat), g < 4 → (s.grid g).used = true → s.f F.LMP_GRID_STATUS_EN g ≠ 1 → s.fw.ptp = [] ∨ s.fw.ptpMaster = true ∨ s.f F.CLK_EVENT_PTP_LOCKED 0 = 1 → (s.grid g).t0 ≤ s.now → s.stage = 4 →
    ∃ t, exec (.gridEnable g) s = .next t ∧ Sets (s.setGrid g { s.grid g with k := (s.wall (s.grid g).wall).syncNo s.now }) [(F.LMP_GRID_STATUS_EN, g, 1)] t) ∧
  (∀ (s : State) (g : Nat), g < 4 → s.fw.ptp ≠ [] → s.fw.ptpMaster = false → s.f F.CLK_EVENT_PTP_LOCKED 0 ≠ 1 → exec (.gridEnable g) s = .next s)

/-- LAMP_FRAME_SEND, LAMP_STATUS_RECEIVE, BREAK_NOTICE_CONFIRM, LAMP_RX_LOS, FAR_SYNC_RETURN, DRS_LUT_DATA_ACCESS (R200, R206, R210, R218 to R222, R224, R225): a BLANK frame that is due, one of firmware's or a PLANES frame starts with its header and CRC where it ends before the next gap, and its end moves the strip on, or closes a port that owed it; a good STATUS frame goes to the port's control queue and a bad CRC counts; a confirmed break is recorded, the first within a dual-fed chain moves its split, a second one is a double break; loss of the receiver ends FAR_SYNC; the LUT window works on the inactive bank. The model's choices that it rests on: log entries 60, 61, 102 and 103. -/
def Obligations.LampPortEvents : Prop :=
  (∀ (s : State) (n : Nat) (own : Option PortFrame) (b : List Byte), n < 48 → (s.port n).frame = none → s.portLegal fnLamp n = true → (s.port n).en = true → (s.port n).blankNext = true → s.frameFits n 0 = true →
    b = [0x28, 0xFF, BitVec.ofNat 8 (s.sfcAt n (s.now + 1)), 0, 0, 0, 0, 0] →
    ∃ t, exec (.lampFrameSend n own) s = .next t ∧ Sets (s.setPort n { s.port n with frame := some (b ++ beBytes 4 (crc32 b)) }) [] t) ∧
  (∀ (s : State) (n len : Nat) (x : Strip) (r : List Strip) (b : List Byte), n < 48 → (s.port n).frame = none → s.portLegal fnLamp n = true → (s.port n).en = true → (s.port n).blankNext = false → (s.port n).safe = false →
    (s.chan n).strips = x :: r → x.ready = true → len = min 8192 (x.data.length - x.done) → s.frameFits n (sliceOf x.data x.done len).length = true →
    b = [BitVec.ofNat 8 ((if x.done + len = x.data.length then 16 else 0) + x.obM10), BitVec.ofNat 8 x.position, BitVec.ofNat 8 (s.sfcAt n (s.chan n).apply), BitVec.ofNat 8 x.row] ++ beBytes 2 (x.done / 64) ++ beBytes 2 (x.lamps - 1) ++ sliceOf x.data x.done len →
    ∃ t, exec (.lampFrameSend n none) s = .next t ∧ Sets (s.setPort n { s.port n with frame := some (b ++ beBytes 4 (crc32 b)) }) [] t) ∧
  (∀ (s : State) (n : Nat) (own : PortFrame), n < 48 → (s.port n).frame = none → s.portLegal fnLamp n = true → (s.port n).en = true → (s.port n).blankNext = false → (s.port n).safe = false → s.frameFits n ((frameBytes own).length - 8) = true →
    ∃ t, exec (.lampFrameSend n (some own)) s = .next t ∧ Sets (s.setPort n { s.port n with frame := some (frameBytes own ++ beBytes 4 (crc32 (frameBytes own))) }) [] t) ∧
  (∀ (s : State) (n : Nat) (own : Option PortFrame), n < 48 → (s.port n).frame = none → (s.port n).inGap = true → s.portWall n ≠ none → exec (.lampFrameSend n own) s = .next s) ∧
  (∀ (s : State) (n : Nat) (own : Option PortFrame) (x : Strip) (r : List Strip) (f : List Byte), n < 48 → (s.port n).frame = some f → frameType f = 0 → (s.chan n).strips = x :: r →
    ∃ t, exec (.lampFrameSend n own) s = .next t ∧ (t.port n).frame = none ∧ (t.port n).lastFrame = f ∧ (t.port n).blankDue = (s.port n).blankDue ∧
      (t.chan n).strips = (if x.data.length ≤ x.done + (f.length - 12) then r else { x with done := x.done + (f.length - 12) } :: r)) ∧
  (∀ (s : State) (n : Nat) (own : Option PortFrame) (f : List Byte), n < 48 → (s.port n).frame = some f → isBlankNow f = true →
    ∃ t, exec (.lampFrameSend n own) s = .next t ∧ (t.port n).frame = none ∧ (t.port n).lastFrame = f ∧ (t.port n).blankDue = false ∧ (t.port n).owed = false ∧ (t.port n).closing = false ∧ (t.chan n).strips = (s.chan n).strips ∧
      ((s.port n).closing = true → (t.port n).en = false ∧ t.f F.LMP_PORT_CTRL_EN n = 0)) ∧
  (∀ (s : State) (n : Nat) (own : Option PortFrame) (f : List Byte), n < 48 → (s.port n).frame = some f → isBlankNow f = false → frameType f ≠ 0 →
    ∃ t, exec (.lampFrameSend n own) s = .next t ∧ t.port n = { s.port n with frame := none, lastFrame := f } ∧ (t.chan n).strips = (s.chan n).strips) ∧
  (∀ (s : State) (n : Nat) (f : List Byte), n < 48 → ((s.port n).en = false ∨ s.portBlind fnLamp n = true) → exec (.lampStatusReceive n f) s = .next s) ∧
  (∀ (s : State) (n : Nat) (f : List Byte), n < 48 → 12 ≤ f.length → beAt f (f.length - 4) 4 = crc32 (f.take (f.length - 4)) → frameType f ≠ 3 → exec (.lampStatusReceive n f) s = .next s) ∧
  (∀ (s : State) (n : Nat) (f : List Byte), n < 48 → (s.port n).en = true → s.portBlind fnLamp n = false → f.length < 12 ∨ beAt f (f.length - 4) 4 ≠ crc32 (f.take (f.length - 4)) →
    ∃ t, exec (.lampStatusReceive n f) s = .next t ∧ Sets s [(F.LMP_PORT_COUNTS_RX_CRC, n, min (s.f F.LMP_PORT_COUNTS_RX_CRC n + 1) 65535)] t) ∧
  (∀ (s : State) (n q : Nat) (f : List Byte) (i : Item), n < 48 → (s.port n).en = true → s.portBlind fnLamp n = false → 12 ≤ f.length → f.length ≤ 260 → beAt f (f.length - 4) 4 = crc32 (f.take (f.length - 4)) → byteAt f 0 / 32 = 3 →
    q = 4112 + n → s.queueOn q = true → s.queueSpills q = false → i = { kind := 0, first := true, last := true, data := f.take (f.length - 4) } → (s.queue q).used + i.size ≤ 512 →
    ∃ t, exec (.lampStatusReceive n f) s = .next t ∧ (t.queue q).items = (s.queue q).items ++ [i] ∧ t.lamp = s.lamp ∧ t.dram = s.dram ∧ t.regs = s.regs) ∧
  (∀ (s : State) (n d : Nat), n < 48 → s.chainOf n = none →
    ∃ t, exec (.breakNoticeConfirm n d) s = .next t ∧ Sets s [(F.LMP_PORT_EVENT_BREAK, n, 1), (F.LMP_PORT_EVENT_BREAK_D, n, d % 256)] t) ∧
  (∀ (s : State) (n d a : Nat) (c : Chain), n < 48 → s.chainOf n = some (a, c) → (c.dual = false ∨ d % 128 = 0 ∨ c.n < d % 128 ∨ (if 128 ≤ d % 256 then d % 128 else d % 128 - 1) ∈ c.cuts) →
    ∃ t, exec (.breakNoticeConfirm n d) s = .next t ∧ Sets s [(F.LMP_PORT_EVENT_BREAK, n, 1), (F.LMP_PORT_EVENT_BREAK_D, n, d % 256)] t) ∧
  (∀ (s : State) (n d a b cut : Nat) (c : Chain), n < 48 → s.chainOf n = some (a, c) → s.chain a = c → a < 48 → b = c.portB → b < 48 → a ≠ b → 1 ≤ d % 128 → d % 128 ≤ c.n → c.cuts = [] →
    cut = (if 128 ≤ d % 256 then d % 128 else d % 128 - 1) →
    ∃ t, exec (.breakNoticeConfirm n d) s = .next t ∧ t.chain a = { c with cuts := [cut] } ∧ t.f F.LMP_PORT_EVENT_BREAK n = 1 ∧ t.f F.LMP_PORT_EVENT_TAKEOVER a = 1 ∧ t.f F.LMP_PORT_EVENT_TAKEOVER b = 1 ∧
      t.f F.RIV_CH_SPLIT_ACT_FIRST a = 1 ∧ t.f F.RIV_CH_SPLIT_ACT_LAST a = cut ∧ t.f F.RIV_CH_SPLIT_ACT_FIRST b = cut + 1 ∧ t.f F.RIV_CH_SPLIT_ACT_LAST b = c.n % 256 ∧
      t.f F.RIV_CH_SPLIT_LAST a = cut ∧ t.f F.RIV_CH_SPLIT_FIRST b = cut + 1 ∧ t.f F.RIV_CH_CTRL_SHADOW_ARMED a = 0 ∧ t.f F.RIV_CH_CTRL_SHADOW_ARMED b = 0 ∧ t.flt = s.flt ∧ t.dram = s.dram) ∧
  (∀ (s : State) (n d a cut : Nat) (c : Chain), n < 48 → s.chainOf n = some (a, c) → s.chain a = c → a < 48 → c.portB < 48 → 1 ≤ d % 128 → d % 128 ≤ c.n → c.cuts ≠ [] →
    cut = (if 128 ≤ d % 256 then d % 128 else d % 128 - 1) → cut ∉ c.cuts →
    ∃ t, exec (.breakNoticeConfirm n d) s = .next t ∧ t.chain a = { c with cuts := cut :: c.cuts } ∧ t.f F.LMP_PORT_EVENT_DOUBLE_BREAK a = 1 ∧ t.f F.LMP_PORT_EVENT_DOUBLE_BREAK c.portB = 1 ∧
      t.f F.FLT_SRC_STATUS_ACTIVE 33 = 1 ∧ t.f F.FLT_SRC_STATUS_INSTANCE 33 = n ∧
      ∀ (y : Fld) (i : Nat), y.outside (F.LMP_PORT_EVENT_BREAK :: F.LMP_PORT_EVENT_BREAK_D :: F.LMP_PORT_EVENT_DOUBLE_BREAK :: raiseFields) → t.f y i = s.f y i) ∧
  (∀ (s : State) (n : Nat) (los : Bool), n < 48 → s.portBlind fnLamp n = true →
    exec (.lampRxLos n los) s = .next s ∧ exec (.farSyncReturn n) s = .next s) ∧
  (∀ (s : State) (n : Nat) (los : Bool), n < 48 → s.portBlind fnLamp n = false →
    ∃ t, exec (.lampRxLos n los) s = .next t ∧
      Sets s ((if los then [(F.LMP_PORT_EVENT_RX_LOS, n, 1)] else []) ++ (if s.f F.LMP_PORT_STATUS_FAR_SYNC n = 1 then [(F.LMP_PORT_STATUS_FAR_SYNC, n, 0), (F.LMP_PORT_EVENT_FAR_LOST, n, 1)] else [])) t) ∧
  (∀ (s : State) (n : Nat), n < 48 → s.portBlind fnLamp n = false → ∃ t, exec (.farSyncReturn n) s = .next t ∧ Sets s [(F.LMP_PORT_STATUS_FAR_SYNC, n, 1)] t) ∧
  (∀ (s : State) (o : Origin) (w : Word), s.writeOk o .DRS_LUT_DATA 0 = true →
    ∃ t, exec (.drsLutDataAccess o (some w)) s = .next t ∧
      Sets (s.withLamp (fun x => { x with lut := Tab.set 0 x.lut (lutKey (1 - s.f F.DRS_CTRL_LUT_BANK 0) (s.f F.DRS_LUT_ADDR_LUT 0) (min 4096 (s.f F.DRS_LUT_ADDR_ENTRY 0))) (w.toNat % 2 ^ 24) }))
        (if s.f F.DRS_LUT_ADDR_AUTO_INC 0 = 1 then [(F.DRS_LUT_ADDR_ENTRY, 0, (s.f F.DRS_LUT_ADDR_ENTRY 0 + 1) % 8192)] else []) t) ∧
  (∀ (s : State) (o : Origin), s.readOk o .DRS_LUT_DATA 0 = true →
    ∃ t, exec (.drsLutDataAccess o none) s = .next t ∧
      Sets { s with readData := [Tab.get 0 s.lamp.lut (lutKey (1 - s.f F.DRS_CTRL_LUT_BANK 0) (s.f F.DRS_LUT_ADDR_LUT 0) (min 4096 (s.f F.DRS_LUT_ADDR_ENTRY 0)))] }
        (if s.f F.DRS_LUT_ADDR_AUTO_INC 0 = 1 then [(F.DRS_LUT_ADDR_ENTRY, 0, (s.f F.DRS_LUT_ADDR_ENTRY 0 + 1) % 8192)] else []) t)

/-- BAND_START, RIV_BURST_ISSUE, RIV_BEAT_RESPONSE, RIV_CH_CLEAR (R201, R206, R209, R213 to R217): the first queued band starts with its APPLY and its first strip dressed and in fetch; a burst goes out as reads of requester 0, unless the transmit buffer is full; the last response of a clean fetch makes the strip ready, an error or poison issues the burst again within the retry limit, then the channel halts or the strip is dropped; CLEAR returns a halted channel. The model's choices that it rests on: log entries 59, 64 and 101. -/
def Obligations.RivingEvents : Prop :=
  (∀ (s : State) (n : Nat) (e : SramRead) (b : Band) (l : List Band), n < 64 → s.bandCanStart n = true → (s.chan n).bands = b :: l →
    ∃ t, exec (.bandStart n e) s = .next t ∧ (t.chan n).bands = l ∧ (t.chan n).apply = s.applySync n b s.now ∧ t.dram = s.dram ∧ t.haul = s.haul ∧ t.mem = s.mem) ∧
  (∀ (s : State) (n : Nat) (e : SramRead), n < 64 → s.bandCanStart n = false ∨ (s.chan n).bands = [] → exec (.bandStart n e) s = .next s) ∧
  (∀ (s : State) (n p : Nat) (b : Band) (l : List Band) (ps : List Nat) (e : List Byte) (es : List (List Byte)) (cab : List Byte), n < 64 → s.bandCanStart n = true → (s.chan n).bands = b :: l → b.positions = p :: ps →
    cab = s.cabinet (s.chan n).table (p - 1) → s.bandStrips (s.chan n).table (p - 1) b.ctx b.slice = e :: es → s.stripOfRow cab (stripRow e) = some e →
    ∃ t, exec (.bandStart n .clean) s = .next t ∧
      (t.chan n).strips.head? = some { position := p, row := stripRow e, lamps := (s.stripLamps e).length, obM10 := cabOb cab, data := (s.dressStrip b cab e).1, begun := true } ∧
      (t.chan n).bursts = s.stripBursts b e ∧ t.f F.RIV_CH_STATUS_COUNT n = (s.stripBursts b e).length % 65536 ∧ t.f F.RIV_CH_STATUS_STATE n = 2 ∧ t.f F.RIV_CH_STATUS_DONE n = 0) ∧
  (∀ (s : State) (n : Nat) (b : Burst) (l : List Burst), n < 64 → (s.chan n).bursts = b :: l → (s.chan n).level < 16384 →
    ∃ t, exec (.rivBurstIssue n) s = .next t ∧ (t.chan n).bursts = l ∧ (t.chan n).flying = (s.chan n).flying ++ [b] ∧ (t.chan n).strips = (s.chan n).strips ∧ t.f F.RIV_CH_STATUS_COUNT n = l.length % 65536 ∧
      (l = [] → t.f F.RIV_CH_STATUS_STATE n = 3) ∧ t.dram = s.dram ∧ t.codec = s.codec ∧
      (b.beats = 1 → b.addr < s.dramTop → (t.mchan (s.channelOf b.addr)).waiting = (s.mchan (s.channelOf b.addr)).waiting ++ [{ req := 0, line := b.addr / 64, secure := true }]) ∧
      ∀ (y : Fld) (i : Nat), y.outside [F.RIV_CH_STATUS_COUNT, F.RIV_CH_STATUS_STATE, F.RIV_CH_STATUS_PANIC, F.LMP_PORT_STATUS_BUF] → t.f y i = s.f y i) ∧
  (∀ (s : State) (n : Nat), n < 64 → ((s.chan n).bursts = [] ∨ 16384 ≤ (s.chan n).level) → exec (.rivBurstIssue n) s = .next s) ∧
  (∀ (s : State) (n : Nat) (v : BeatResp) (b : Burst) (l : List Burst), n < 64 → (s.chan n).flying = b :: l → b.got + 1 < b.beats →
    ∃ t, exec (.rivBeatResponse n v) s = .next t ∧
      Sets (s.setChan n { s.chan n with flying := { b with got := b.got + 1, error := b.error || decide (v = .error), poison := b.poison || decide (v = .poison) } :: l }) [] t) ∧
  (∀ (s : State) (n : Nat) (v : BeatResp) (b : Burst) (x : Strip), n < 64 → (s.chan n).flying = [b] → (s.chan n).bursts = [] → b.beats ≤ b.got + 1 → b.dead = false → b.error = false → b.poison = false → v ≠ .error → v ≠ .poison →
    x ∈ (s.chan n).strips → x.begun = true → (∀ z ∈ (s.chan n).strips, z.ue = false ∧ z.ce = false) →
    ∃ t, exec (.rivBeatResponse n v) s = .next t ∧ (t.chan n).flying = [] ∧ { x with ready := true } ∈ (t.chan n).strips ∧ t.dram = s.dram) ∧
  (∀ (s : State) (n : Nat) (v : BeatResp) (b : Burst) (l : List Burst), n < 64 → (s.chan n).flying = b :: l → b.beats ≤ b.got + 1 → b.dead = false → b.error = true ∨ b.poison = true ∨ v = .error ∨ v = .poison → b.retries < (s.chan n).retryLimit →
    ∃ t, exec (.rivBeatResponse n v) s = .next t ∧ (t.chan n).flying = l ++ [{ addr := b.addr, beats := b.beats, retries := b.retries + 1 }] ∧ (t.chan n).strips = (s.chan n).strips ∧
      t.f F.RIV_CH_STRIPS_RETRIES n = min (s.f F.RIV_CH_STRIPS_RETRIES n + 1) 65535 ∧ ∀ (y : Fld) (i : Nat), y.outside [F.RIV_CH_STRIPS_RETRIES] → t.f y i = s.f y i) ∧
  (∀ (s : State) (n : Nat) (v : BeatResp) (b : Burst) (l : List Burst), n < 64 → (s.chan n).flying = b :: l → b.beats ≤ b.got + 1 → b.dead = false → b.error = true ∨ v = .error → (s.chan n).retryLimit ≤ b.retries →
    ∃ t, exec (.rivBeatResponse n v) s = .next t ∧ t.f F.RIV_CH_STATUS_STATE n = 4 ∧ t.f F.RIV_CH_STATUS_ERR n = 1 ∧ t.f F.RIV_CH_ERR_ADDR_LO_ADDR n = b.addr % 2 ^ 32 ∧ t.f F.RIV_CH_ERR_ADDR_HI_ADDR n = b.addr / 2 ^ 32 % 2 ^ 32 ∧
      (t.f (if n < 32 then F.RIV_HALTED_LO_HALTED else F.RIV_HALTED_HI_HALTED) 0).testBit (n % 32) = true ∧ (s.f F.RIV_CH_STATUS_COUNT n = 0 → t.f F.RIV_CH_STATUS_ERR_AFTER_COUNT n = 1) ∧ (t.chan n).current = none ∧
      t.f F.FLT_SRC_STATUS_ACTIVE 24 = 1 ∧ t.f F.FLT_SRC_STATUS_INSTANCE 24 = n) ∧
  (∀ (s : State) (n : Nat) (b : Burst), n < 64 → (s.chan n).flying = [b] → b.beats ≤ b.got + 1 → b.dead = false → b.error = false → (s.chan n).retryLimit ≤ b.retries → (∀ z ∈ (s.chan n).strips, z.ue = false ∧ z.ce = false) →
    ∃ t, exec (.rivBeatResponse n .poison) s = .next t ∧ t.f F.RIV_CH_STRIPS_DROPPED n = min (s.f F.RIV_CH_STRIPS_DROPPED n + 1) 65535 ∧ t.dram = s.dram) ∧
  (∀ (s : State) (o : Origin) (n : Nat) (w : Word), n < 64 → s.writeOk o .RIV_CH_CTRL n = true → w.toNat.testBit 2 = true → s.f F.RIV_CH_STATUS_STATE n = 4 →
    ∃ t, exec (.rivChClear o n w) s = .next t ∧ t.f F.RIV_CH_STATUS_ERR n = 0 ∧ t.f F.RIV_CH_STATUS_ERR_AFTER_COUNT n = 0 ∧ t.f F.RIV_CH_CTRL_SHADOW_ARMED n = 1 ∧ t.f F.RIV_CH_STATUS_COUNT n = 0 ∧ t.f F.RIV_CH_STATUS_PANIC n = 0 ∧
      (t.f (if n < 32 then F.RIV_HALTED_LO_HALTED else F.RIV_HALTED_HI_HALTED) 0).testBit (n % 32) = false ∧ t.f F.RIV_CH_STATUS_STATE n = (if (s.chan n).en = false then 0 else if (s.chan n).flying = [] then 1 else 3) ∧ t.lamp = s.lamp ∧
      ∀ (y : Fld) (i : Nat), y.outside [F.RIV_CH_CTRL_SOURCE, F.RIV_CH_CTRL_RETRY_LIMIT, F.RIV_CH_CTRL_EN, F.RIV_CH_CTRL_SHADOW_ARMED, F.RIV_CH_STATUS_ERR, F.RIV_CH_STATUS_ERR_AFTER_COUNT, F.RIV_CH_STATUS_STATE, F.RIV_CH_STATUS_COUNT,
        F.RIV_CH_STATUS_PANIC, F.RIV_CH_STATUS_DONE, F.LMP_PORT_STATUS_BUF, F.RIV_HALTED_LO_HALTED, F.RIV_HALTED_HI_HALTED] → t.f y i = s.f y i) ∧
  (∀ (s : State) (o : Origin) (n : Nat) (w : Word), n < 64 → s.writeOk o .RIV_CH_CTRL n = true → s.f F.RIV_CH_STATUS_STATE n ≠ 4 →
    ∃ t, exec (.rivChClear o n w) s = .next t ∧
      Sets s [(F.RIV_CH_CTRL_SOURCE, n, w.toNat / 2 ^ 24 % 64), (F.RIV_CH_CTRL_RETRY_LIMIT, n, w.toNat / 2 ^ 12 % 8), (F.RIV_CH_CTRL_EN, n, w.toNat / 2 ^ 8 % 2), (F.RIV_CH_CTRL_SHADOW_ARMED, n, w.toNat % 2)] t)

-- ## Events of the scheduler and the hewers

/-- SLICE_DISPATCH, SLICE_COMPLETE, BEDROCK_UNIT_DISPATCH, RECEPTION_TIMEOUT, STALL_LIMIT_EXPIRE (R143, R145, R147, R157, R164, R170, R171, R191, R193, R194, R421): an idle hewer takes the chosen slice, and a key that serves no further stream raises its alarm; a complete unit frees its hewer, which counts it and goes on as its drain asks; bedrock units go only when no slice that is ready has or finds a descriptor and another hewer is idle; at the end of reception missing slices become concealment jobs; a decode that waits too long is truncated. The model's choices that it rests on: log entries 36, 40 to 43, 91, 92, 98 and 99. -/
def Obligations.SliceEvents : Prop :=
  (∀ (s : State) (h : Nat), h < 24 → s.hwState h ≠ hwIdle ∨ s.f F.SCH_CTRL_DISPATCH_EN 0 ≠ 1 ∨ s.fatal = true → exec (.sliceDispatch h) s = .next s) ∧
  (∀ (s : State) (h : Nat) (r : Ready), h < 24 → s.hwState h = hwIdle → s.f F.SCH_CTRL_DISPATCH_EN 0 = 1 → s.fatal = false → s.keyAlarm.choice = some r →
    ∃ t, exec (.sliceDispatch h) s = .next t ∧ (t.hewer h).run.map (·.what) = some r ∧ (t.hewer h).loops = List.replicate 8 0 ∧ (t.hewer h).tokens = List.replicate 8 0 ∧ t.hwState h = hwRun ∧ t.f F.HWR_STATUS_CTX h = r.ctx % 4096 ∧
      t.codec.ready = s.codec.ready.erase r ∧ t.codec.cache = (r.ctx :: s.codec.cache.filter (· ≠ r.ctx)).take 96 ∧ (t.hewer h).ctxHit = decide (r.ctx ∈ s.codec.cache)) ∧
  (∀ (s : State) (h : Nat), h < 24 → (∀ x ∈ s.codec.ready, x.enc = true → s.keyServes x.ctx x.picture = true) → s.choice = none → exec (.sliceDispatch h) s = .next s) ∧
  (∀ (s : State) (h : Nat) (r : Ready) (x : Ctx), h < 24 → s.hwState h = hwIdle → s.f F.SCH_CTRL_DISPATCH_EN 0 = 1 → s.fatal = false → r ∈ s.codec.ready → r.enc = true → s.ctx? r.ctx = some x → x.ending = false → s.keyServes r.ctx r.picture = false →
    ∃ t, exec (.sliceDispatch h) s = .next t ∧ t.f F.SEC_EVENT_KEY_EXHAUSTED 0 = 1 ∧ (t.ctx r.ctx).event = true) ∧
  (∀ (s : State) (h : Nat), h < 24 → (s.flush h).canComplete h = false → ∃ t, exec (.sliceComplete h) s = .next t ∧ t.hwState h = s.hwState h ∧ (t.hewer h).run.isSome = (s.hewer h).run.isSome) ∧
  (∀ (s : State) (h : Nat), h < 24 → (s.flush h).canComplete h = true → s.hwState h = hwRun →
    ∃ t, exec (.sliceComplete h) s = .next t ∧ (t.hewer h).run = none ∧ t.hwState h = hwIdle ∧ t.f F.HWR_STATUS_CTX h = 0 ∧ t.f F.HWR_STATUS_BS_WAIT h = 0 ∧ t.f F.HWR_SLICES_COUNT h = min (s.f F.HWR_SLICES_COUNT h + 1) (2 ^ 32 - 1)) ∧
  (∀ (s : State) (h : Nat), h < 24 → (s.flush h).canComplete h = true → s.hwState h = hwDraining → Waiter.update ∉ (s.hewer h).drainFor →
    ∃ t, exec (.sliceComplete h) s = .next t ∧ (t.hewer h).run = none ∧ t.hwState h = (if (s.hewer h).goOut = true then hwOut else hwDrained) ∧ (t.hewer h).goOut = false ∧ (t.hewer h).drainFor = [] ∧ t.f F.HWR_STATUS_CTX h = 0) ∧
  (∀ (s : State) (h : Nat) (u : Update), h < 24 → (s.flush h).canComplete h = true → s.hwState h = hwDraining → (s.hewer h).drainFor = [.update] → s.codec.update = some u →
    ∃ t, exec (.sliceComplete h) s = .next t ∧ (t.hewer h).run = none ∧ t.hwState h = hwPatching ∧ (t.hewer h).loading = some u.set) ∧
  (∀ (s : State) (h : Nat), h < 24 → s.hwState h ≠ hwIdle ∨ s.f F.SCH_CTRL_DISPATCH_EN 0 ≠ 1 ∨ s.fatal = true ∨ s.f F.PWR_STATUS_STATE 0 = 1 ∨ s.codec.ready.any (fun r => s.descReady r) = true ∨ (∀ k ∈ allHewers, k = h ∨ s.hwState k ≠ hwIdle) →
    exec (.bedrockUnitDispatch h) s = .next s) ∧
  (∀ (s : State) (h : Nat), h < 24 → s.ctxNums.all (fun c => (s.bedUnit c).isNone) = true → exec (.bedrockUnitDispatch h) s = .next s) ∧
  (∀ (s : State) (h k c : Nat) (x : Ctx) (l : BedLoad), h < 24 → k < 24 → k ≠ h → s.hwState h = hwIdle → s.hwState k = hwIdle → s.f F.SCH_CTRL_DISPATCH_EN 0 = 1 → s.fatal = false → s.f F.PWR_STATUS_STATE 0 ≠ 1 → s.codec.ready.any (fun r => s.descReady r) = false →
    s.ctxNums.find? (fun d => (s.bedUnit d).isSome) = some c → s.ctx? c = some x → x.enc = true → x.loads.find? (fun y => !y.running && decide (y.readyAt ≠ []) && y.src.isSome) = some l →
    ∃ t, exec (.bedrockUnitDispatch h) s = .next t ∧ (t.hewer h).run.any (fun y => y.bed && decide (y.what.ctx = c) && y.what.enc && decide (y.what.picture = l.readyAt.headD 0) && y.hdr.bed.any (fun d => decide (d.slot = l.slot) && decide (d.gen = l.gen))) = true ∧ t.hwState h = hwRun ∧ t.f F.HWR_STATUS_CTX h = c % 4096 ∧
      (t.ctx c).loads.all (fun y => decide (y.slot ≠ l.slot) || y.running) = true) ∧
  (∀ (s : State) (h k c : Nat) (x : Ctx), h < 24 → k < 24 → k ≠ h → s.hwState h = hwIdle → s.hwState k = hwIdle → s.f F.SCH_CTRL_DISPATCH_EN 0 = 1 → s.fatal = false → s.f F.PWR_STATUS_STATE 0 ≠ 1 → s.codec.ready.any (fun r => s.descReady r) = false →
    s.ctxNums.find? (fun d => (s.bedUnit d).isSome) = some c → s.ctx? c = some x → x.enc = false →
    ∃ t, exec (.bedrockUnitDispatch h) s = .next t ∧ (t.hewer h).run.map (fun y => (y.bed, y.what.ctx, y.what.enc)) = some (true, c, false) ∧ t.hwState h = hwRun ∧ t.f F.HWR_STATUS_CTX h = c % 4096) ∧
  (∀ (s : State) (c : Nat), c < 4096 → (s.ctx c).enc = true → exec (.receptionTimeout c) s = .next s) ∧
  (∀ (s : State) (c : Nat) (x : Ctx) (p : Pic), c < 4096 → s.ctx? c = some x → x.enc = false → x.pic = some p → p.ended = false →
    ∃ t, exec (.receptionTimeout c) s = .next t ∧ (t.ctx c).pic.map (·.ended) = some true ∧
      ∀ i ∈ List.range x.geo.slices, i ∉ p.begun → ∃ r ∈ t.codec.ready, r.ctx = c ∧ r.slice = i ∧ r.picture = p.hdr.picture ∧ r.conceal = true ∧ r.enc = false) ∧
  (∀ (s : State) (h : Nat) (r : Run), h < 24 → (s.hewer h).run = some r → r.what.enc = false → r.closed = false →
    ∃ t, exec (.stallLimitExpire h) s = .next t ∧ Sets (s.setHewer h { s.hewer h with run := some { r with closed := true, truncated := true } }) [] t) ∧
  (∀ (s : State) (h : Nat), h < 24 → (s.hewer h).run.all (fun r => r.what.enc || r.closed) = true → exec (.stallLimitExpire h) s = .next s)

/-- PIXEL_WORD_ISSUE, BITSTREAM_WORD_ISSUE, HEWER_WAIT_TIMEOUT, HEWER_TEST_DONE, PATCH_LOAD_DONE (R177, R180 to R186, R192 to R196): a word whose parity and branch form hold issues with whatever work and use of local memory it completes, consumes tokens, takes its loop operation, gives its event and goes to its next address; a corrected error of local memory counts, an uncorrected one stops the hewer, during a load too; a bitstream word waits while its condition is false; bad parity, a bad branch form, an address past patch RAM, a post to a token count of 15 and a wait over the limit stop the hewer in FAULT with the first address kept; the return test and a patch load end in the states that follow. The model's choices that it rests on: log entries 11, 45 and 100. -/
def Obligations.SequencerEvents : Prop :=
  (∀ (s : State) (h : Nat) (k : PixelWork) (b : BitWork) (m : LmUse), h < 24 → s.sequencing h = false → s.hwState h ≠ hwPatching ∨ m.check ≠ .uncorrected → exec (.pixelWordIssue h k m) s = .next s ∧ exec (.bitstreamWordIssue h b m) s = .next s) ∧
  (∀ (s : State) (h w nx : Nat) (m : LmUse), h < 24 → s.sequencing h = true → w = s.microword h (s.hewer h).pixPc → parityOk w = true → branchFormOk w = true → nx = mwNext w ||| (List.range 4).foldl (fun a i => if s.condNow h 0 0 (mwCond w i) then a + 2 ^ i else a) 0 → nx < 0x4400 → mwEvt w = 0 → m.check = .clean →
    ∃ t, exec (.pixelWordIssue h .none m) s = .next t ∧
      Sets ((s.setHewer h { ((((s.hewer h).access m).consume 0 w).loop 0 w s.free) with pixPc := nx, pixSelf := decide (nx = (s.hewer h).pixPc) }).draw) [] t) ∧
  (∀ (s : State) (h w nx : Nat) (m : LmUse), h < 24 → s.sequencing h = true → w = s.microword h (s.hewer h).bsPc → parityOk w = true → branchFormOk w = true → mwWaitEn w = false ∨ (mwWaitSel w ≠ 0 ∧ s.condNow h 1 (mwCount 1 w) (mwWaitSel w) = true) → nx = mwNext w ||| (List.range 4).foldl (fun a i => if s.condNow h 1 (mwCount 1 w) (mwCond w i) then a + 2 ^ i else a) 0 → nx < 0x4400 → mwEvt w = 0 → m.check = .clean →
    ∃ t, exec (.bitstreamWordIssue h .none m) s = .next t ∧
      Sets ((s.setHewer h { ((((s.hewer h).access m).consume 1 w).loop 1 w s.free) with bsPc := nx, bioIn := (s.hewer h).bioIn || decide (mwBio w ≠ .none ∧ mwBio w ≠ .write), bioOut := (s.hewer h).bioOut || decide (mwBio w = .write) }).draw) [(F.HWR_STATUS_BS_WAIT, h, 0)] t) ∧
  (∀ (s : State) (h w nx : Nat) (k : PixelWork) (m : LmUse), h < 24 → s.sequencing h = true → w = s.microword h (s.hewer h).pixPc → parityOk w = true → branchFormOk w = true → nx = mwNext w ||| (List.range 4).foldl (fun a i => if s.condNow h 0 0 (mwCond w i) then a + 2 ^ i else a) 0 → nx < 0x4400 → mwEvt w < 4 → m.check = .clean →
    ∃ t, exec (.pixelWordIssue h k m) s = .next t ∧ (t.hewer h).pixPc = nx ∧ (t.hewer h).pixSelf = decide (nx = (s.hewer h).pixPc) ∧ (t.hewer h).bsPc = (s.hewer h).bsPc ∧ (t.hewer h).lm = ((s.hewer h).access m).lm ∧ t.hwState h = s.hwState h ∧ (mwEvt w = 1 → (t.hewer h).doneEvt = true)) ∧
  (∀ (s : State) (h w nx : Nat) (b : BitWork) (m : LmUse), h < 24 → s.sequencing h = true → w = s.microword h (s.hewer h).bsPc → parityOk w = true → branchFormOk w = true → mwWaitEn w = false ∨ (mwWaitSel w ≠ 0 ∧ s.condNow h 1 (mwCount 1 w) (mwWaitSel w) = true) → nx = mwNext w ||| (List.range 4).foldl (fun a i => if s.condNow h 1 (mwCount 1 w) (mwCond w i) then a + 2 ^ i else a) 0 → nx < 0x4400 → mwEvt w < 4 → m.check = .clean →
    ∃ t, exec (.bitstreamWordIssue h b m) s = .next t ∧ (t.hewer h).bsPc = nx ∧ (t.hewer h).pixPc = (s.hewer h).pixPc ∧ (t.hewer h).lm = ((s.hewer h).access m).lm ∧ t.f F.HWR_STATUS_BS_WAIT h = 0 ∧ t.hwState h = s.hwState h ∧ (mwEvt w = 1 → (t.hewer h).doneEvt = true)) ∧
  (∀ (s : State) (h w nx : Nat) (k : PixelWork) (m : LmUse), h < 24 → s.sequencing h = true → w = s.microword h (s.hewer h).pixPc → parityOk w = true → branchFormOk w = true → nx = mwNext w ||| (List.range 4).foldl (fun a i => if s.condNow h 0 0 (mwCond w i) then a + 2 ^ i else a) 0 → nx < 0x4400 → 4 ≤ mwEvt w → m.check = .clean →
    ∃ t, exec (.pixelWordIssue h k m) s = .next t ∧
      ((s.hewer h).tokens.getD (mwEvt w) 0 < 15 → (t.hewer h).tokens.getD (mwEvt w) 0 = (s.hewer h).tokens.getD (mwEvt w) 0 + 1 ∧ (t.hewer h).pixPc = nx) ∧ (15 ≤ (s.hewer h).tokens.getD (mwEvt w) 0 → HewerStops s t h F.HWR_FAULT_TOKEN_OVF 14 0 (s.hewer h).pixPc)) ∧
  (∀ (s : State) (h w nx : Nat) (b : BitWork) (m : LmUse), h < 24 → s.sequencing h = true → w = s.microword h (s.hewer h).bsPc → parityOk w = true → branchFormOk w = true → mwWaitEn w = false ∨ (mwWaitSel w ≠ 0 ∧ s.condNow h 1 (mwCount 1 w) (mwWaitSel w) = true) → nx = mwNext w ||| (List.range 4).foldl (fun a i => if s.condNow h 1 (mwCount 1 w) (mwCond w i) then a + 2 ^ i else a) 0 → nx < 0x4400 → 4 ≤ mwEvt w → m.check = .clean →
    ∃ t, exec (.bitstreamWordIssue h b m) s = .next t ∧
      ((s.hewer h).tokens.getD (mwEvt w - 4) 0 < 15 → (t.hewer h).tokens.getD (mwEvt w - 4) 0 = (s.hewer h).tokens.getD (mwEvt w - 4) 0 + 1 ∧ (t.hewer h).bsPc = nx) ∧ (15 ≤ (s.hewer h).tokens.getD (mwEvt w - 4) 0 → HewerStops s t h F.HWR_FAULT_TOKEN_OVF 14 1 (s.hewer h).bsPc)) ∧
  (∀ (s : State) (h w nx : Nat) (k : PixelWork) (m : LmUse), h < 24 → s.sequencing h = true → w = s.microword h (s.hewer h).pixPc → parityOk w = true → branchFormOk w = true → nx = mwNext w ||| (List.range 4).foldl (fun a i => if s.condNow h 0 0 (mwCond w i) then a + 2 ^ i else a) 0 → nx < 0x4400 → m.check = .corrected → mwEvt w = 0 →
    ∃ t, exec (.pixelWordIssue h k m) s = .next t ∧ t.f F.HWR_LM_CORR_COUNT h = min (s.f F.HWR_LM_CORR_COUNT h + 1) (2 ^ 32 - 1) ∧ t.f F.FLT_SRC_STATUS_ACTIVE 16 = 1 ∧ t.f F.FLT_SRC_STATUS_INSTANCE 16 = h ∧ (t.hewer h).pixPc = nx) ∧
  (∀ (s : State) (h w nx : Nat) (b : BitWork) (m : LmUse), h < 24 → s.sequencing h = true → w = s.microword h (s.hewer h).bsPc → parityOk w = true → branchFormOk w = true → mwWaitEn w = false ∨ (mwWaitSel w ≠ 0 ∧ s.condNow h 1 (mwCount 1 w) (mwWaitSel w) = true) → nx = mwNext w ||| (List.range 4).foldl (fun a i => if s.condNow h 1 (mwCount 1 w) (mwCond w i) then a + 2 ^ i else a) 0 → nx < 0x4400 → m.check = .corrected → mwEvt w = 0 →
    ∃ t, exec (.bitstreamWordIssue h b m) s = .next t ∧ t.f F.HWR_LM_CORR_COUNT h = min (s.f F.HWR_LM_CORR_COUNT h + 1) (2 ^ 32 - 1) ∧ t.f F.FLT_SRC_STATUS_ACTIVE 16 = 1 ∧ t.f F.FLT_SRC_STATUS_INSTANCE 16 = h ∧ (t.hewer h).bsPc = nx) ∧
  (∀ (s : State) (h w nx : Nat) (k : PixelWork) (m : LmUse), h < 24 → s.sequencing h = true → w = s.microword h (s.hewer h).pixPc → parityOk w = true → branchFormOk w = true → nx = mwNext w ||| (List.range 4).foldl (fun a i => if s.condNow h 0 0 (mwCond w i) then a + 2 ^ i else a) 0 → nx < 0x4400 → m.check = .uncorrected →
    ∃ t, exec (.pixelWordIssue h k m) s = .next t ∧ HewerStops s t h F.HWR_FAULT_LM_UNCORR 11 0 (s.hewer h).pixPc) ∧
  (∀ (s : State) (h w nx : Nat) (b : BitWork) (m : LmUse), h < 24 → s.sequencing h = true → w = s.microword h (s.hewer h).bsPc → parityOk w = true → branchFormOk w = true → mwWaitEn w = false ∨ (mwWaitSel w ≠ 0 ∧ s.condNow h 1 (mwCount 1 w) (mwWaitSel w) = true) → nx = mwNext w ||| (List.range 4).foldl (fun a i => if s.condNow h 1 (mwCount 1 w) (mwCond w i) then a + 2 ^ i else a) 0 → nx < 0x4400 → m.check = .uncorrected →
    ∃ t, exec (.bitstreamWordIssue h b m) s = .next t ∧ HewerStops s t h F.HWR_FAULT_LM_UNCORR 11 1 (s.hewer h).bsPc) ∧
  (∀ (s : State) (h : Nat) (k : PixelWork) (b : BitWork) (m : LmUse), h < 24 → s.sequencing h = false → s.hwState h = hwPatching → m.check = .uncorrected →
    (∃ t, exec (.pixelWordIssue h k m) s = .next t ∧ HewerStops s t h F.HWR_FAULT_LM_UNCORR 11 0 (s.hewer h).pixPc ∧ (t.hewer h).loading = none) ∧ ∃ t, exec (.bitstreamWordIssue h b m) s = .next t ∧ HewerStops s t h F.HWR_FAULT_LM_UNCORR 11 1 (s.hewer h).bsPc ∧ (t.hewer h).loading = none) ∧
  (∀ (s : State) (h w : Nat) (b : BitWork) (m : LmUse), h < 24 → s.sequencing h = true → w = s.microword h (s.hewer h).bsPc → parityOk w = true → branchFormOk w = true → mwWaitEn w = true → mwWaitSel w = 0 ∨ s.condNow h 1 (mwCount 1 w) (mwWaitSel w) = false →
    ∃ t, exec (.bitstreamWordIssue h b m) s = .next t ∧ Sets s [(F.HWR_STATUS_BS_WAIT, h, 1)] t) ∧
  (∀ (s : State) (h w : Nat) (k : PixelWork) (m : LmUse), h < 24 → s.sequencing h = true → w = s.microword h (s.hewer h).pixPc →
    (parityOk w = false → ∃ t, exec (.pixelWordIssue h k m) s = .next t ∧ HewerStops s t h F.HWR_FAULT_PARITY 10 0 (s.hewer h).pixPc) ∧
    (parityOk w = true → branchFormOk w = false → ∃ t, exec (.pixelWordIssue h k m) s = .next t ∧ HewerStops s t h F.HWR_FAULT_BRANCH_FORM 12 0 (s.hewer h).pixPc)) ∧
  (∀ (s : State) (h w : Nat) (b : BitWork) (m : LmUse), h < 24 → s.sequencing h = true → w = s.microword h (s.hewer h).bsPc →
    (parityOk w = false → ∃ t, exec (.bitstreamWordIssue h b m) s = .next t ∧ HewerStops s t h F.HWR_FAULT_PARITY 10 1 (s.hewer h).bsPc) ∧
    (parityOk w = true → branchFormOk w = false → ∃ t, exec (.bitstreamWordIssue h b m) s = .next t ∧ HewerStops s t h F.HWR_FAULT_BRANCH_FORM 12 1 (s.hewer h).bsPc)) ∧
  (∀ (s : State) (h w nx : Nat) (k : PixelWork) (m : LmUse), h < 24 → s.sequencing h = true → w = s.microword h (s.hewer h).pixPc → parityOk w = true → branchFormOk w = true → nx = mwNext w ||| (List.range 4).foldl (fun a i => if s.condNow h 0 0 (mwCond w i) then a + 2 ^ i else a) 0 → 0x4400 ≤ nx →
    ∃ t, exec (.pixelWordIssue h k m) s = .next t ∧ HewerStops s t h F.HWR_FAULT_ADDR_RANGE 13 0 nx) ∧
  (∀ (s : State) (h w nx : Nat) (b : BitWork) (m : LmUse), h < 24 → s.sequencing h = true → w = s.microword h (s.hewer h).bsPc → parityOk w = true → branchFormOk w = true → mwWaitEn w = false ∨ (mwWaitSel w ≠ 0 ∧ s.condNow h 1 (mwCount 1 w) (mwWaitSel w) = true) → nx = mwNext w ||| (List.range 4).foldl (fun a i => if s.condNow h 1 (mwCount 1 w) (mwCond w i) then a + 2 ^ i else a) 0 → 0x4400 ≤ nx →
    ∃ t, exec (.bitstreamWordIssue h b m) s = .next t ∧ HewerStops s t h F.HWR_FAULT_ADDR_RANGE 13 1 nx) ∧
  (∀ (s : State) (h w : Nat), h < 24 → s.f F.HWR_STATUS_BS_WAIT h = 1 → s.sequencing h = true → w = s.microword h (s.hewer h).bsPc → parityOk w = true → branchFormOk w = true → mwWaitEn w = true → mwWaitSel w = 0 ∨ s.condNow h 1 (mwCount 1 w) (mwWaitSel w) = false →
    ∃ t, exec (.hewerWaitTimeout h) s = .next t ∧ HewerStops s t h F.HWR_FAULT_WAIT_TIMEOUT 15 1 (s.hewer h).bsPc) ∧
  (∀ (s : State) (h w : Nat), h < 24 → w = s.microword h (s.hewer h).bsPc → s.f F.HWR_STATUS_BS_WAIT h ≠ 1 ∨ mwWaitEn w = false ∨ (mwWaitSel w ≠ 0 ∧ s.condNow h 1 (mwCount 1 w) (mwWaitSel w) = true) → s.sequencing h = true → (s.hewer h).pixSelf = true →
    ∃ t, exec (.hewerWaitTimeout h) s = .next t ∧ HewerStops s t h F.HWR_FAULT_WAIT_TIMEOUT 15 0 (s.hewer h).pixPc) ∧
  (∀ (s : State) (h w : Nat), h < 24 → w = s.microword h (s.hewer h).bsPc → s.f F.HWR_STATUS_BS_WAIT h ≠ 1 ∨ mwWaitEn w = false ∨ (mwWaitSel w ≠ 0 ∧ s.condNow h 1 (mwCount 1 w) (mwWaitSel w) = true) ∨ s.sequencing h = false → s.sequencing h = false ∨ (s.hewer h).pixSelf = false →
    exec (.hewerWaitTimeout h) s = .next s) ∧
  (∀ (s : State) (h : Nat) (pass : Bool), h < 24 → s.hwState h = hwTest → s.fatal = false → (s.hewer h).testFor ≠ .update → (∀ u, s.codec.update = some u → u.waits = false ∨ u.at_ ≠ h) →
    ∃ t, exec (.hewerTestDone h pass) s = .next t ∧ t.hwState h = (if pass then (if s.f F.HWR_CTRL_DRAIN h = 1 then hwDrained else hwIdle) else hwFault) ∧ (t.hewer h).testFor = .none ∧
      (∀ m, (s.hewer h).testFor = .mailbox m → t.codec = (s.setHewer h { s.hewer h with testFor := .none }).codec ∧ t.answered m (s.mbxTag m) (if pass then 0 else 0x00FF) [] ∧ ∀ (y : Fld) (i : Nat), y.outside (F.HWR_STATUS_STATE :: capacityFields ++ resultFields) → t.f y i = s.f y i)) ∧
  (∀ (s : State) (h : Nat) (pass : Bool) (u : Update), h < 24 → s.hwState h = hwTest → s.fatal = false → s.codec.update = some u → u.at_ = h → (s.hewer h).testFor = .update →
    ∃ t, exec (.hewerTestDone h pass) s = .next t ∧ t.hwState h = (if pass then (if s.f F.HWR_CTRL_DRAIN h = 1 then hwDrained else hwIdle) else hwFault) ∧ (t.hewer h).testFor = .none ∧ (∀ v, t.codec.update = some v → h < v.at_ ∧ v.failed = (u.failed || !pass))) ∧
  (∀ (s : State) (h : Nat) (pass : Bool) (u : Update), h < 24 → s.hwState h = hwTest → s.fatal = false → s.codec.update = some u → u.waits = true → u.at_ = h → (s.hewer h).testFor ≠ .update →
    ∃ t, exec (.hewerTestDone h pass) s = .next t ∧ t.hwState h = (if pass then hwPatching else hwFault) ∧ (pass = true → (t.hewer h).loading = some u.set)) ∧
  (∀ (s : State) (h : Nat) (pass : Bool), h < 24 → s.hwState h ≠ hwTest ∨ s.fatal = true → exec (.hewerTestDone h pass) s = .next s) ∧
  (∀ (s : State) (h : Nat) (e : SramRead) (p : PatchSet), h < 24 → s.hwState h = hwPatching → (s.hewer h).loading = some p → (s.hewer h).loadFor ≠ .update → (∀ u, s.codec.update = some u → u.waits = false ∨ u.at_ ≠ h) →
    ∃ t, exec (.patchLoadDone h e) s = .next t ∧ t.hwState h = (s.hewer h).loadFrom % 16 ∧ t.f F.HWR_PATCH_STATUS_PATCH_ID h = p.id % 65536 ∧ t.f F.HWR_PATCH_STATUS_STATE h = (if p.id = 0 then 0 else 1) ∧
      t.f F.HWR_PATCH_STATUS_MATCH_USED h = p.matches_.length % 128 ∧ (t.hewer h).loading = none ∧ (t.hewer h).patchEvt = true ∧ (s.codec.update = none → t.f F.SEM_LOCK_OWNER 3 = 0) ∧ (∀ m, (s.hewer h).loadFor = .mailbox m → t.answered m (s.mbxTag m) 0 []) ∧
      (∀ i ∈ List.range p.words.length, t.f F.HWR_PATCH_RAM_DATA (8192 * h + 8 * i) = p.words.getD i 0 % 2 ^ 32) ∧
      (∀ i ∈ List.range 64, t.f F.HWR_MATCH_EN (64 * h + i) = (if i < p.matches_.length then 1 else 0))) ∧
  (∀ (s : State) (h : Nat) (e : SramRead) (p : PatchSet) (u : Update), h < 24 → s.hwState h = hwPatching → (s.hewer h).loading = some p → (s.hewer h).loadFor = .update → s.codec.update = some u → u.waits = false → u.at_ = h → s.f F.SPD_CTRL_BUSY 0 ≠ 1 →
    ∃ t, exec (.patchLoadDone h e) s = .next t ∧ t.hwState h = (if (s.hewer h).loadFrom = hwOut then hwOut else hwTest) ∧ ((s.hewer h).loadFrom ≠ hwOut → (t.hewer h).testFor = .update) ∧ t.f F.HWR_PATCH_STATUS_PATCH_ID h = p.id % 65536 ∧ t.f F.HWR_PATCH_STATUS_STATE h = (if p.id = 0 then 0 else 1) ∧
      t.f F.HWR_PATCH_STATUS_MATCH_USED h = p.matches_.length % 128 ∧ (t.hewer h).loading = none ∧ (t.hewer h).patchEvt = true) ∧
  (∀ (s : State) (h : Nat) (e : SramRead), h < 24 → s.hwState h ≠ hwPatching ∨ (s.hewer h).loading = none ∨ ((s.hewer h).loadFor = .update ∧ s.f F.SPD_CTRL_BUSY 0 = 1) → exec (.patchLoadDone h e) s = .next s)

/-- Writes of HWR_CTRL, of match registers and patch RAM, and of STK_PIN (R55, R159, R186, R191, R193, R196, R197): DRAIN drains and resumes a hewer, SERVICE takes it out and brings it back through its test, DRAIN first where one write changes both; a cancelled drain that a command waits for answers it STARTED; match registers and patch RAM take a write only in DRAINED, OUT and PATCHING; REQ asks for a pin with an extra descriptor or is refused, UNPIN ends a pin; the W1C bits clear DONE and REFUSED. The model's choices that it rests on: log entries 46 and 47. -/
def Obligations.HewerRegisters : Prop :=
  (∀ (s : State) (o : Origin) (h : Nat) (w : Word), h < 24 → s.writeOk o .HWR_CTRL h = true → s.hwState h ≠ hwIdle ∨ Waiter.update ∉ (s.hewer h).drainFor → ∀ c ∈ [Instr.hwrDrainSet o h w, .hwrDrainClear o h w, .hwrServiceIn o h w, .hwrServiceOut o h w],
    ∃ t, exec c s = .next t ∧ t.f F.HWR_CTRL_DRAIN h = w.toNat % 2 ∧ (t.hewer h).run = (s.hewer h).run ∧
      t.hwState h = hwrCtrlState (s.hwState h) (w.toNat.testBit 0) (decide (s.f F.HWR_CTRL_DRAIN h = 1)) (w.toNat.testBit 1) (decide (s.f F.HWR_CTRL_SERVICE h = 1)) ((s.hewer h).goOut || decide (Waiter.update ∈ (s.hewer h).drainFor)) (s.partialPatch h) ∧
      (w.toNat.testBit 1 = false → t.f F.HWR_CTRL_SERVICE h ≠ 1) ∧ (w.toNat.testBit 1 = true → s.hwState h ≠ hwOut → s.hwState h ≠ hwFault → t.f F.HWR_CTRL_SERVICE h = 1)) ∧
  (∀ (s : State) (o : Origin) (h : Nat) (w : Word), h < 24 → s.writeOk o .HWR_CTRL h = true → w.toNat % 4 = 3 → s.f F.HWR_CTRL_DRAIN h ≠ 1 → s.hwState h = hwIdle ∨ s.hwState h = hwRun → (s.hewer h).drainFor = [] →
    ∃ t, exec (.hwrDrainSet o h w) s = .next t ∧ t.f F.HWR_CTRL_DRAIN h = 1 ∧ t.f F.HWR_CTRL_SERVICE h = 1 ∧ t.hwState h = (if s.hwState h = hwIdle then hwDrained else hwDraining) ∧ t.codec = s.codec ∧
      ∀ (y : Fld) (i : Nat), y.outside (F.HWR_STATUS_STATE :: F.HWR_CTRL_DRAIN :: F.HWR_CTRL_SERVICE :: capacityFields) → t.f y i = s.f y i) ∧
  (∀ (s : State) (o : Origin) (h : Nat) (w : Word), h < 24 → s.writeOk o .HWR_CTRL h = true → w.toNat % 4 = 2 → s.f F.HWR_CTRL_DRAIN h = 1 → s.hwState h = hwDrained →
    ∃ t, exec (.hwrDrainClear o h w) s = .next t ∧ t.f F.HWR_CTRL_DRAIN h = 0 ∧ t.hwState h = hwIdle ∧ t.codec = s.codec ∧
      ∀ (y : Fld) (i : Nat), y.outside (F.HWR_STATUS_STATE :: F.HWR_CTRL_DRAIN :: F.HWR_CTRL_SERVICE :: capacityFields) → t.f y i = s.f y i) ∧
  (∀ (s : State) (o : Origin) (h : Nat) (w : Word), h < 24 → s.writeOk o .HWR_CTRL h = true → w.toNat % 4 = 2 → s.f F.HWR_CTRL_DRAIN h = 1 → s.hwState h = hwDraining → (s.hewer h).goOut = false → Waiter.update ∉ (s.hewer h).drainFor →
    ∃ t, exec (.hwrDrainClear o h w) s = .next t ∧ t.f F.HWR_CTRL_DRAIN h = 0 ∧ t.hwState h = hwRun ∧ (t.hewer h).run = (s.hewer h).run ∧ ((s.hewer h).drainFor = [] → t.codec = s.codec) ∧
      ∀ m, (s.hewer h).drainFor = [.mailbox m] → t.answered m (s.mbxTag m) 1 (leBytes 4 s.fw.nextJob) ∧ t.fw = (s.withJob m (.drain h)).fw ∧ (t.hewer h).drainFor = [.job s.fw.nextJob]) ∧
  (∀ (s : State) (o : Origin) (h : Nat) (w : Word), h < 24 → s.writeOk o .HWR_CTRL h = true → w.toNat % 4 = 0 → s.f F.HWR_CTRL_DRAIN h ≠ 1 → s.f F.HWR_CTRL_SERVICE h = 1 → s.hwState h = hwIdle →
    ∃ t, exec (.hwrServiceOut o h w) s = .next t ∧ t.f F.HWR_CTRL_SERVICE h = 0 ∧ t.hwState h = hwOut ∧ t.codec = s.codec ∧
      ∀ (y : Fld) (i : Nat), y.outside (F.HWR_STATUS_STATE :: F.HWR_CTRL_DRAIN :: F.HWR_CTRL_SERVICE :: capacityFields) → t.f y i = s.f y i) ∧
  (∀ (s : State) (o : Origin) (h : Nat) (w : Word), h < 24 → s.writeOk o .HWR_CTRL h = true → w.toNat % 4 = 0 → s.f F.HWR_CTRL_DRAIN h ≠ 1 → s.f F.HWR_CTRL_SERVICE h = 1 → s.hwState h = hwRun →
    ∃ t, exec (.hwrServiceOut o h w) s = .next t ∧ t.f F.HWR_CTRL_SERVICE h = 0 ∧ t.hwState h = hwDraining ∧ (t.hewer h).goOut = true ∧ (t.hewer h).run = (s.hewer h).run) ∧
  (∀ (s : State) (o : Origin) (h : Nat) (w : Word), h < 24 → s.writeOk o .HWR_CTRL h = true → w.toNat % 4 = 2 → s.f F.HWR_CTRL_DRAIN h ≠ 1 → s.hwState h = hwOut ∨ s.hwState h = hwFault → s.f F.HWR_PATCH_STATUS_STATE h ≠ 2 →
    ∃ t, exec (.hwrServiceIn o h w) s = .next t ∧ t.f F.HWR_CTRL_SERVICE h = 1 ∧ t.hwState h = hwTest ∧ (t.hewer h).testFor = .none) ∧
  (∀ (s : State) (o : Origin) (h : Nat) (w : Word), h < 24 → s.writeOk o .HWR_CTRL h = true → w.toNat % 4 = 2 → s.f F.HWR_CTRL_DRAIN h ≠ 1 → s.hwState h = hwOut ∨ s.hwState h = hwFault → s.f F.HWR_PATCH_STATUS_STATE h = 2 →
    ∃ t, exec (.hwrServiceIn o h w) s = .next t ∧ Sets s [(F.HWR_CTRL_DRAIN, h, 0)] t) ∧
  (∀ (s : State) (o : Origin) (h k i : Nat) (w : Word), h < 24 → k < 1024 → i < 4 → s.writeOk o .HWR_PATCH_RAM (8192 * h + 8 * k + i) = true → s.hwState h = hwDrained ∨ s.hwState h = hwOut ∨ s.hwState h = hwPatching →
    ∃ t, exec (.hwrPatchWrite o h (0x8000 + 32 * k + 4 * i) w) s = .next t ∧ Sets s [(F.HWR_PATCH_RAM_DATA, 8192 * h + 8 * k + i, w.toNat)] t) ∧
  (∀ (s : State) (o : Origin) (h k : Nat) (w : Word), h < 24 → k < 1024 → s.writeOk o .HWR_PATCH_RAM (8192 * h + 8 * k + 4) = true → s.hwState h = hwDrained ∨ s.hwState h = hwOut ∨ s.hwState h = hwPatching →
    ∃ t, exec (.hwrPatchWrite o h (0x8000 + 32 * k + 16) w) s = .next t ∧ Sets s [(F.HWR_PATCH_RAM_DATA, 8192 * h + 8 * k + 4, w.toNat % 65536)] t) ∧
  (∀ (s : State) (o : Origin) (h k : Nat) (w : Word), h < 24 → k < 64 → s.writeOk o .HWR_MATCH (64 * h + k) = true → s.hwState h = hwDrained ∨ s.hwState h = hwOut ∨ s.hwState h = hwPatching →
    ∃ t, exec (.hwrPatchWrite o h (0x100 + 4 * k) w) s = .next t ∧ t.f F.HWR_MATCH_EN (64 * h + k) = w.toNat / 2 ^ 31 ∧ t.f F.HWR_MATCH_PATCH_OFFSET (64 * h + k) = w.toNat / 2 ^ 16 % 1024 ∧ t.f F.HWR_MATCH_ROM_ADDR (64 * h + k) = w.toNat % 2 ^ 14 ∧
      t.f F.HWR_PATCH_STATUS_MATCH_USED h = ((List.range 64).filter (fun i => decide (t.f F.HWR_MATCH_EN (64 * h + i) = 1))).length ∧ t.codec = s.codec ∧
      ∀ (y : Fld) (i : Nat), y.outside [F.HWR_MATCH_EN, F.HWR_MATCH_PATCH_OFFSET, F.HWR_MATCH_ROM_ADDR, F.HWR_PATCH_STATUS_MATCH_USED] → t.f y i = s.f y i) ∧
  (∀ (s : State) (o : Origin) (h k : Nat) (w : Word), h < 24 → k < 8192 → s.writeOk o .HWR_PATCH_RAM (8192 * h + k) = true → s.hwState h ∉ [hwDrained, hwOut, hwPatching] ∨ 4 < k % 8 →
    exec (.hwrPatchWrite o h (0x8000 + 4 * k) w) s = .next s) ∧
  (∀ (s : State) (o : Origin) (h k : Nat) (w : Word), h < 24 → k < 64 → s.writeOk o .HWR_MATCH (64 * h + k) = true → s.hwState h ∉ [hwDrained, hwOut, hwPatching] → exec (.hwrPatchWrite o h (0x100 + 4 * k) w) s = .next s) ∧
  (∀ (s : State) (o : Origin) (g d : Nat) (w : Word) (x : Group) (l : List Nat), s.writeOk o .STK_PIN 0 = true → w.toNat.testBit 28 = true → w.toNat.testBit 29 = false → g = w.toNat % 512 → s.group? g = some x → s.poolDescs = d :: l →
    ∃ t, exec (.stkPinReq o w) s = .next t ∧ t.group? g = some { x with pinDue := true, descs := x.descs ++ [d] } ∧ t.f F.STK_PIN_GROUP 0 = g ∧ t.f F.STK_DESC_INFO_GROUP d = g ∧ t.f F.STK_PIN_REFUSED 0 = (if w.toNat.testBit 30 then 0 else s.f F.STK_PIN_REFUSED 0) ∧ t.f F.STK_PIN_DONE 0 = (if w.toNat.testBit 31 then 0 else s.f F.STK_PIN_DONE 0)) ∧
  (∀ (s : State) (o : Origin) (g d : Nat) (w : Word) (x : Group) (l : List Nat), s.writeOk o .STK_PIN 0 = true → w.toNat.testBit 28 = true → w.toNat.testBit 29 = true → g = w.toNat % 512 → s.group? g = some x → s.poolDescs = d :: l →
    ∃ t, exec (.stkPinReq o w) s = .next t ∧ (t.group g).pinDue = true ∧ t.f F.STK_PIN_GROUP 0 = g) ∧
  (∀ (s : State) (o : Origin) (g : Nat) (w : Word), s.writeOk o .STK_PIN 0 = true → w.toNat.testBit 28 = true → w.toNat.testBit 29 = false → g = w.toNat % 512 → s.group? g = none ∨ s.poolDescs = [] →
    ∃ t, exec (.stkPinReq o w) s = .next t ∧ Sets s ((if w.toNat.testBit 31 then [(F.STK_PIN_DONE, 0, 0)] else []) ++ [(F.STK_PIN_GROUP, 0, g), (F.STK_PIN_REFUSED, 0, 1)]) t) ∧
  (∀ (s : State) (o : Origin) (g : Nat) (w : Word), s.writeOk o .STK_PIN 0 = true → w.toNat.testBit 28 = true → w.toNat.testBit 29 = true → g = w.toNat % 512 → s.group? g = none ∨ s.poolDescs = [] →
    ∃ t, exec (.stkPinReq o w) s = .next t ∧ t.f F.STK_PIN_REFUSED 0 = 1 ∧ t.f F.STK_PIN_GROUP 0 = g) ∧
  (∀ (s : State) (o : Origin) (d : Nat) (w : Word), s.writeOk o .STK_PIN 0 = true → w.toNat.testBit 29 = true → d = s.f F.STK_DESC_SEL_DESC 0 → s.f F.STK_DESC_INFO_HOST_PIN d = 1 →
    ∃ t, exec (.stkUnpin o w) s = .next t ∧ t.f F.STK_DESC_INFO_HOST_PIN d = 0 ∧ t.f F.STK_PIN_GROUP 0 = w.toNat % 512) ∧
  (∀ (s : State) (o : Origin) (w : Word), s.writeOk o .STK_PIN 0 = true → w.toNat.testBit 28 = false → w.toNat.testBit 29 = true → s.f F.STK_DESC_INFO_HOST_PIN (s.f F.STK_DESC_SEL_DESC 0) ≠ 1 →
    ∃ t, exec (.stkUnpin o w) s = .next t ∧ Sets s ((if w.toNat.testBit 31 then [(F.STK_PIN_DONE, 0, 0)] else []) ++ (if w.toNat.testBit 30 then [(F.STK_PIN_REFUSED, 0, 0)] else []) ++ [(F.STK_PIN_GROUP, 0, w.toNat % 512)]) t)
-- ## Haul frames, queues and traffic

/-- HAUL_FRAME_RECEIVE, HAUL_FRAME_END, TRANSMIT_START, TRANSMIT_END, EGRESS_PACKET_BUILD, HAUL_TS_POP (R227, R231 to R234, R240, R243, R262, R256, R268, R280, R286, R328, R359, R367): a port without a link, or with a frame in reception, takes none; a frame that is blind, short, PAUSE, for another station or meets the classifier off is dropped, counted where a counter names it; the fixed rules and the lookups; the end of a frame counts it once and lets its buffers go; strict queues are served first, then the earliest tag, and a copy of a slower port waits for its bytes; a copy's end releases its packet, and an error of its buffers is reported; an egress packet takes as much of its unit as every port carries, or the rest of it, skips what has no beginning, waits for more, or stalls for a buffer. The model's choices that it rests on: log entries 49, 52, 55 and 104. -/
def Obligations.HaulFrames : Prop :=
  (∀ (s : State) (p : Nat) (b : List Byte), p < 6 → s.f F.HAUL_CTRL_EN p ≠ 1 ∨ s.f F.HAUL_STATUS_LINK p ≠ 1 ∨ (s.haulPort p).rx ≠ none → exec (.haulFrameReceive p b) s = .next s) ∧
  (∀ (s : State) (p : Nat) (b : List Byte), p < 6 → s.f F.HAUL_CTRL_EN p = 1 → s.f F.HAUL_STATUS_LINK p = 1 → (s.haulPort p).rx = none → s.portBlind fnHaul p = true →
    ∃ t, exec (.haulFrameReceive p b) s = .next t ∧ Sets (s.setRx p (some { frame := b, arrival := s.tick4, dropped := true, spoiled := true })) [] t) ∧
  (∀ (s : State) (p : Nat) (b : List Byte), p < 6 → s.f F.HAUL_CTRL_EN p = 1 → s.f F.HAUL_STATUS_LINK p = 1 → (s.haulPort p).rx = none → s.portBlind fnHaul p = false →
    b.length < 64 ∨ (beAt b 12 2 ≠ 0x8808 ∧ s.macAccepts p b = true ∧ s.f F.CLS_CTRL_EN 0 ≠ 1) →
    ∃ t, exec (.haulFrameReceive p b) s = .next t ∧ Sets (s.setRx p (some { frame := b, arrival := s.tick4, dropped := true })) [] t) ∧
  (∀ (s : State) (p : Nat) (b : List Byte), p < 6 → s.f F.HAUL_CTRL_EN p = 1 → s.f F.HAUL_STATUS_LINK p = 1 → (s.haulPort p).rx = none → s.portBlind fnHaul p = false → 64 ≤ b.length →
    beAt b 12 2 = 0x8808 ∨ s.macAccepts p b = false →
    ∃ t, exec (.haulFrameReceive p b) s = .next t ∧
      Sets (s.setRx p (some { frame := b, arrival := s.tick4, dropped := true })) (s.counted F.HAUL_CNT_COUNT (10 * p + if beAt b 12 2 = 0x8808 then 6 else 5) F.HAUL_CNT_SAT_SAT p (if beAt b 12 2 = 0x8808 then 6 else 5)) t) ∧
  (∀ (s : State) (p k : Nat) (b : List Byte) (h : Parsed), p < 6 → s.f F.HAUL_CTRL_EN p = 1 → s.f F.HAUL_STATUS_LINK p = 1 → (s.haulPort p).rx = none → s.portBlind fnHaul p = false → 64 ≤ b.length →
    beAt b 12 2 ≠ 0x8808 → s.macAccepts p b = true → s.f F.CLS_CTRL_EN 0 = 1 → h = parseFrame (s.f F.HAUL_UDP_PORT p) (b.take 9216) → h.parseErr = false → h.haul = false ∨ h.ver ≠ 1 → h.dropAs = some k →
    ∃ t, exec (.haulFrameReceive p b) s = .next t ∧ Sets (s.setRx p (some { frame := b, arrival := s.tick4, dropped := true })) (s.counted F.CLS_CNT_COUNT k F.CLS_CNT_SAT_SAT 0 k) t) ∧
  (∀ (s : State) (p k : Nat) (b : List Byte) (h : Parsed), p < 6 → s.f F.HAUL_CTRL_EN p = 1 → s.f F.HAUL_STATUS_LINK p = 1 → (s.haulPort p).rx = none → s.portBlind fnHaul p = false → 64 ≤ b.length →
    beAt b 12 2 ≠ 0x8808 → s.macAccepts p b = true → s.f F.CLS_CTRL_EN 0 = 1 → h = parseFrame (s.f F.HAUL_UDP_PORT p) (b.take 9216) → h.parseErr = false → h.dropAs = none → h.haul = true → h.ver = 2 → h.ptp = false →
    (k = cntAddrUnset ∧ s.device = 0 ∧ ¬(h.typ = 3 ∧ h.tile % 4096 = 0xFFF)) ∨ (k = cntLoop ∧ s.device ≠ 0 ∧ h.srcDev = s.device) →
    ∃ t, exec (.haulFrameReceive p b) s = .next t ∧ Sets (s.setRx p (some { frame := b, arrival := s.tick4, parsed := h, dropped := true })) (s.counted F.CLS_CNT_COUNT k F.CLS_CNT_SAT_SAT 0 k) t) ∧
  (∀ (s : State) (p : Nat) (b : List Byte) (h : Parsed), p < 6 → s.f F.HAUL_CTRL_EN p = 1 → s.f F.HAUL_STATUS_LINK p = 1 → (s.haulPort p).rx = none → s.portBlind fnHaul p = false → 64 ≤ b.length →
    beAt b 12 2 ≠ 0x8808 → s.macAccepts p b = true → s.f F.CLS_CTRL_EN 0 = 1 → h = parseFrame (s.f F.HAUL_UDP_PORT p) (b.take 9216) → h.parseErr = false → h.dropAs = none → h.haul = true → h.ver = 2 → h.ptp = false →
    s.device ≠ 0 → h.srcDev ≠ s.device → h.typ = 4 → s.ringPort p = true → byteAt b h.payAt = 1 ∨ byteAt b h.payAt = 2 →
    ∃ t, exec (.haulFrameReceive p b) s = .next t ∧ Sets (s.setRx p (some { frame := b, arrival := s.tick4, parsed := h, ring := true })) [] t) ∧
  (∀ (s : State) (p a : Nat) (b : List Byte) (h : Parsed), p < 6 → s.f F.HAUL_CTRL_EN p = 1 → s.f F.HAUL_STATUS_LINK p = 1 → (s.haulPort p).rx = none → s.portBlind fnHaul p = false → 64 ≤ b.length →
    beAt b 12 2 ≠ 0x8808 → s.macAccepts p b = true → s.f F.CLS_CTRL_EN 0 = 1 → h = parseFrame (s.f F.HAUL_UDP_PORT p) (b.take 9216) → h.parseErr = false → h.dropAs = none → h.haul = false → h.ptp = false → h.nonFirst = false → h.fragId = none →
    s.device ≠ 0 → s.lookUp h p false = { action := a, extra := 0, hit := false } → actDrop a = true →
    ∃ t, exec (.haulFrameReceive p b) s = .next t ∧ Sets (s.setRx p (some { frame := b, arrival := s.tick4, parsed := h })) (s.counted F.CLS_CNT_COUNT cntNoMatch F.CLS_CNT_SAT_SAT 0 cntNoMatch) t) ∧
  (∀ (s u : State) (p a q k n : Nat) (b : List Byte) (h : Parsed) (st : Steered), p < 6 → s.f F.HAUL_CTRL_EN p = 1 → s.f F.HAUL_STATUS_LINK p = 1 → (s.haulPort p).rx = none → s.portBlind fnHaul p = false → 64 ≤ b.length →
    beAt b 12 2 ≠ 0x8808 → s.macAccepts p b = true → s.f F.CLS_CTRL_EN 0 = 1 → h = parseFrame (s.f F.HAUL_UDP_PORT p) (b.take 9216) → h.parseErr = false → h.dropAs = none → h.haul = false → h.ptp = false → h.nonFirst = false → h.fragId = none → h.ver ≠ 1 →
    s.device ≠ 0 → s.lookUp h p false = { action := a } → actDrop a = false → actMirror a = 0 → actCopy a = false → actLocal a = false → actIngest a = false → s.namedPorts a p = [q] → st = s.steerAll h a p [q] → st.ports = [k] →
    (s.noteSteering h a st).allocPacket { ref := 1, inport := p, arrival := s.tick4, frame := b.take 9216, whole := false } (b.take 9216).length (decide (copyQueue h a < 4)) = some (n, u) →
    exec (.haulFrameReceive p b) s = .next ((u.setRx p (some { frame := b, arrival := s.tick4, parsed := h, buf := some n })).forward n h a k p s.tick4 (b.take 9216))) ∧
  (∀ (s : State) (p : Nat) (b : List Byte), p < 6 → s.f F.HAUL_CTRL_EN p = 1 → s.f F.HAUL_STATUS_LINK p = 1 → (s.haulPort p).rx = none →
    ∃ t, exec (.haulFrameReceive p b) s = .next t ∧ (t.haulPort p).rx.map (fun r => (r.frame, r.arrival)) = some (b, s.tick4)) ∧
  (∀ (s : State) (p : Nat) (lost : Bool) (r : RxFrame), p < 6 → (s.haulPort p).rx = some r → ∃ t, exec (.haulFrameEnd p lost) s = .next t ∧ (t.haulPort p).rx = none) ∧
  (∀ (s : State) (p k : Nat) (r : RxFrame), p < 6 → (s.haulPort p).rx = some r →
    (k = 3 ∧ r.frame.length < 64) ∨ (k = 4 ∧ 9216 < r.frame.length) ∨ (k = 2 ∧ 64 ≤ r.frame.length ∧ r.frame.length ≤ 9216 ∧ (r.spoiled = true ∨ leAt r.frame (r.frame.length - 4) 4 ≠ crc32 (r.frame.take (r.frame.length - 4)))) ∨
      (k = 0 ∧ 64 ≤ r.frame.length ∧ r.frame.length ≤ 9216 ∧ r.spoiled = false ∧ leAt r.frame (r.frame.length - 4) 4 = crc32 (r.frame.take (r.frame.length - 4))) →
    ∃ t, exec (.haulFrameEnd p false) s = .next t ∧ t.f F.HAUL_CNT_COUNT (10 * p + k) = min (s.f F.HAUL_CNT_COUNT (10 * p + k) + 1) (2 ^ 32 - 1)) ∧
  (∀ (s : State) (p : Nat) (lost : Bool), p < 6 → (s.haulPort p).rx = none → exec (.haulFrameEnd p lost) s = .next s) ∧
  (∀ (s : State) (p : Nat) (r : RxFrame), p < 6 → (s.haulPort p).rx = some r → r.buf = none → ∃ t, exec (.haulFrameEnd p true) s = .next t ∧ Sets (s.setRx p none) [] t) ∧
  (∀ (s : State) (p k : Nat) (r : RxFrame), p < 6 → (s.haulPort p).rx = some r → r.buf = none →
    (k = 3 ∧ r.frame.length < 64) ∨ (k = 4 ∧ 9216 < r.frame.length) ∨ (k = 2 ∧ 64 ≤ r.frame.length ∧ r.frame.length ≤ 9216 ∧ r.spoiled = true) ∨
      (k = 2 ∧ 64 ≤ r.frame.length ∧ r.frame.length ≤ 9216 ∧ leAt r.frame (r.frame.length - 4) 4 ≠ crc32 (r.frame.take (r.frame.length - 4))) ∨
      (k = 0 ∧ 64 ≤ r.frame.length ∧ r.frame.length ≤ 9216 ∧ r.spoiled = false ∧ r.dropped = true ∧ leAt r.frame (r.frame.length - 4) 4 = crc32 (r.frame.take (r.frame.length - 4))) →
    ∃ t, exec (.haulFrameEnd p false) s = .next t ∧ Sets (s.setRx p none) (s.counted F.HAUL_CNT_COUNT (10 * p + k) F.HAUL_CNT_SAT_SAT p k) t) ∧
  (∀ (s : State) (p c : Nat) (r : RxFrame), p < 6 → (s.haulPort p).rx = some r → r.buf = none → r.dropped = false → r.spoiled = false → 64 ≤ r.frame.length → r.frame.length ≤ 9216 →
    leAt r.frame (r.frame.length - 4) 4 = crc32 (r.frame.take (r.frame.length - 4)) → r.fixed = some c → r.ring = false → r.cpq = none → r.frag = none → r.ctx = none → r.ingest = none → r.capture = false →
    exec (.haulFrameEnd p false) s = .next (((s.setRx p none).haulCount p 0).controlCopy p c r)) ∧
  (∀ (s : State) (p b : Nat) (r : RxFrame), p < 6 → (s.haulPort p).rx = some r → r.buf = some b → (s.packet b).ref ≤ r.held →
    ∃ t, exec (.haulFrameEnd p true) s = .next t ∧ (t.haulPort p).rx = none ∧ t.packet b = {} ∧ t.pool.sram = (s.freeChain b).pool.sram ∧ Fields s [] t ∧ ((∀ x ∈ b :: (s.packet b).bufs, x < 65536) → t.dram = s.dram ∧ t.mem = s.mem ∧ t.pool.dram = s.pool.dram)) ∧
  (∀ (s : State) (p b : Nat) (r : RxFrame), p < 6 → (s.haulPort p).rx = some r → r.buf = some b → r.held < (s.packet b).ref →
    ∃ t, exec (.haulFrameEnd p true) s = .next t ∧ (t.haulPort p).rx = none ∧ t.packet b = { s.packet b with ref := (s.packet b).ref - r.held, whole := true, bad := true } ∧
      (b < 65536 → Sets ((s.setRx p none).setPacket b { s.packet b with ref := (s.packet b).ref - r.held, whole := true, bad := true }) [] t)) ∧
  (∀ (s : State) (p : Nat), p < 6 → s.f F.TMG_PORT_CTRL_EN p ≠ 1 ∨ s.f F.HAUL_STATUS_LINK p ≠ 1 ∨ s.fatal = true ∨ (s.tmgPort p).sending ≠ none → exec (.transmitStart p) s = .next s) ∧
  (∀ (s u : State) (p : Nat), p < 6 → s.f F.TMG_PORT_CTRL_EN p = 1 → s.f F.HAUL_STATUS_LINK p = 1 → s.fatal = false → (s.tmgPort p).sending = none → u = s.wakeQueues p →
    u.nextQueue p = none ∨ (∃ q ∈ List.range 64, u.nextQueue p = some q ∧ ∃ c ∈ (u.tmgQueue (64 * p + q)).copies, (u.tmgQueue (64 * p + q)).copies.head? = some c ∧ u.mayStart p c = false) → exec (.transmitStart p) s = .next u) ∧
  (∀ (s u : State) (p q : Nat) (c : Copy) (l : List Copy), p < 6 → s.f F.TMG_PORT_CTRL_EN p = 1 → s.f F.HAUL_STATUS_LINK p = 1 → s.fatal = false → (s.tmgPort p).sending = none → u = s.wakeQueues p → u.nextQueue p = some q → (u.tmgQueue (64 * p + q)).copies = c :: l → u.mayStart p c = true →
    ∃ t, exec (.transmitStart p) s = .next t ∧ (t.tmgPort p).sending = some (q, c) ∧ (t.tmgPort p).v = (if q < 4 then (u.tmgPort p).v else (u.tmgQueue (64 * p + q)).tag) ∧ (t.tmgQueue (64 * p + q)).copies = l ∧
      t.f F.TMG_Q_DEPTH_BYTES (64 * p + q) = (s.f F.TMG_Q_DEPTH_BYTES (64 * p + q) - c.len) % 2 ^ 24 ∧ t.dram = s.dram ∧ t.pool = s.pool) ∧
  (∀ (s : State) (p q : Nat) (c : Copy) (l : List Copy), p < 6 → s.f F.TMG_PORT_CTRL_EN p = 1 → s.f F.HAUL_STATUS_LINK p = 1 → s.fatal = false → (s.tmgPort p).sending = none → s.f F.TMG_PORT_SHAPE_RATE_RATE p = 0 →
    (∀ k ∈ List.range 64, s.f F.TMG_Q_SHAPE_RATE_RATE (64 * p + k) = 0) → (∀ k ∈ List.range 64, (s.tmgQueue (64 * p + k)).held = false) →
    s.strictChoice p = some q ∨ (s.strictChoice p = none ∧ s.weightedChoice p = some q) → (s.tmgQueue (64 * p + q)).copies = c :: l → s.mayStart p c = true →
    ∃ t, exec (.transmitStart p) s = .next t ∧ (t.tmgPort p).sending = some (q, c) ∧ (t.tmgPort p).v = (if q < 4 then (s.tmgPort p).v else (s.tmgQueue (64 * p + q)).tag) ∧ (t.tmgQueue (64 * p + q)).copies = l ∧
      t.f F.TMG_Q_DEPTH_BYTES (64 * p + q) = (s.f F.TMG_Q_DEPTH_BYTES (64 * p + q) - c.len) % 2 ^ 24 ∧ t.dram = s.dram ∧ t.pool = s.pool ∧
      (c.inport ≠ 6 → Fields s [(F.TMG_Q_DEPTH_BYTES, 64 * p + q, (s.f F.TMG_Q_DEPTH_BYTES (64 * p + q) - c.len) % 2 ^ 24)] t)) ∧
  (∀ (s : State) (p : Nat) (e : SramRead), p < 6 → (s.tmgPort p).sending.all (fun x => !(s.packet x.2.buf).whole) = true → exec (.transmitEnd p e) s = .next s) ∧
  (∀ (s : State) (p q : Nat) (e : SramRead) (c : Copy), p < 6 → (s.tmgPort p).sending = some (q, c) → (s.packet c.buf).whole = true → ∃ t, exec (.transmitEnd p e) s = .next t ∧ (t.tmgPort p).sending = none) ∧
  (∀ (s : State) (p q : Nat) (c : Copy), p < 6 → (s.tmgPort p).sending = some (q, c) → (s.packet c.buf).whole = true → (s.packet c.buf).bufs ≠ [] →
    ∃ t, exec (.transmitEnd p .clean) s = .next t ∧ (t.tmgPort p).sending = none ∧ t.packet c.buf = (if (s.packet c.buf).ref ≤ 1 then {} else { s.packet c.buf with ref := (s.packet c.buf).ref - 1 }) ∧
      t.q.sent = (if (s.packet c.buf).bad = true ∨ s.fatal = true then s.q.sent else (p, c.frame) :: s.q.sent) ∧ ((∀ x ∈ c.buf :: (s.packet c.buf).bufs, x < 65536) → t.dram = s.dram) ∧
      Fields s (if s.fatal then [] else s.counted F.HAUL_CNT_COUNT (10 * p + if (s.packet c.buf).bad then 7 else 1) F.HAUL_CNT_SAT_SAT p (if (s.packet c.buf).bad then 7 else 1)) t) ∧
  (∀ (s : State) (p q i x : Nat) (c : Copy), p < 6 → (s.tmgPort p).sending = some (q, c) → (s.packet c.buf).whole = true → (s.packet c.buf).bufs[i]? = some x → x < 65536 →
    (∃ t, exec (.transmitEnd p (.corrected i)) s = .next t ∧ t.f F.FLT_SRC_STATUS_ACTIVE 30 = 1 ∧ t.f F.FLT_SRC_STATUS_INSTANCE 30 = x) ∧
    ∃ t, exec (.transmitEnd p (.uncorrectable i)) s = .next t ∧ t.f F.FLT_SRC_STATUS_ACTIVE 29 = 1 ∧ t.f F.FLT_SRC_STATUS_INSTANCE 29 = x ∧ (t.fatal = false → t.f F.HAUL_CNT_COUNT (10 * p + 7) = min (s.f F.HAUL_CNT_COUNT (10 * p + 7) + 1) (2 ^ 32 - 1))) ∧
  (∀ (s : State) (c : Nat) (e : SramRead), c < 4096 → s.ctx? c = none ∨ (s.ctx c).enc = false ∨ (s.ctx c).ending = true ∨ s.device = 0 ∨ (s.queue c).items = [] → exec (.egressPacketBuild c e) s = .next s) ∧
  (∀ (s : State) (c : Nat) (x : Ctx) (i : Item) (l : List Item), c < 4096 → s.ctx? c = some x → x.enc = true → x.ending = false → s.device ≠ 0 → (s.queue c).items = i :: l → i.kind = 1 ∨ (x.egSent = 0 ∧ i.first = false) →
    ∃ t, exec (.egressPacketBuild c .clean) s = .next t ∧ (t.queue c).items = l ∧ (t.ctx c).egSent = 0 ∧ (t.ctx c).sequence = x.sequence ∧ Fields s [] t) ∧
  (∀ (s : State) (c : Nat) (x : Ctx) (i : Item) (l : List Item), c < 4096 → s.ctx? c = some x → x.enc = true → x.ending = false → s.device ≠ 0 → (s.queue c).items = i :: l → i.kind ≠ 1 → i.first = true ∨ x.egSent ≠ 0 → s.atThreshold c = false →
    exec (.egressPacketBuild c .clean) s = .next s) ∧
  (∀ (s : State) (c sent : Nat) (x : Ctx) (i : Item) (l : List Item), c < 4096 → s.ctx? c = some x → x.enc = true → x.ending = false → s.device ≠ 0 → (s.queue c).items = i :: l → i.kind ≠ 1 → sent = (if i.first = true ∧ (s.queue c).sent = 0 then 0 else x.egSent) → ¬(sent = 0 ∧ i.first = false) → s.atThreshold c = true →
    dataBytes (unitItems (i :: l)) - (s.queue c).sent < s.payloadFor (s.ownRoute (s.unitHdr c i sent false) 7).1.ports 65535 → (unitItems (i :: l)).any (·.last) = false →
    ((unitItems (i :: l)).all (fun k => decide (k.kind ≠ 1)) = true → exec (.egressPacketBuild c .clean) s = .next s) ∧
    ((unitItems (i :: l)).any (fun k => decide (k.kind = 1)) = true → ∃ t, exec (.egressPacketBuild c .clean) s = .next t ∧ (t.queue c).items = (i :: l).drop (unitItems (i :: l)).length ∧ (t.ctx c).egSent = 0)) ∧
  (∀ (s u : State) (c sent avail most n : Nat) (ends last : Bool) (x : Ctx) (i : Item) (l : List Item), c < 4096 → s.ctx? c = some x → x.enc = true → x.ending = false → s.device ≠ 0 → (s.queue c).items = i :: l → i.kind ≠ 1 → sent = (if i.first = true ∧ (s.queue c).sent = 0 then 0 else x.egSent) → ¬(sent = 0 ∧ i.first = false) → s.atThreshold c = true →
    avail = dataBytes (unitItems (i :: l)) - (s.queue c).sent → most = s.payloadFor (s.ownRoute (s.unitHdr c i sent false) 7).1.ports 65535 → ends = (unitItems (i :: l)).any (·.last) → most ≤ avail ∨ ends = true → n = min most avail → last = (ends && decide (avail ≤ most)) →
    s.originate 7 (s.unitHdr c i sent last) x.sequence ((((unitItems (i :: l)).flatMap (·.data)).drop (s.queue c).sent).take n) = some u →
    ∃ t, exec (.egressPacketBuild c .clean) s = .next t ∧ (t.ctx c).sequence = (x.sequence + 1) % 2 ^ 32 ∧ (t.ctx c).egSent = (if last then 0 else sent + n) ∧ Requester.egress ∉ t.pool.stalled ∧ t.q.tmg = u.q.tmg ∧ Fields u [] t ∧
      (i.data.length ≤ (s.queue c).sent + n → (t.queue c).items.length ≤ l.length) ∧ ((s.queue c).sent + n < i.data.length → (t.queue c).items = i :: l ∧ (t.queue c).sent = (s.queue c).sent + n)) ∧
  (∀ (s : State) (c sent avail most n : Nat) (ends last : Bool) (x : Ctx) (i : Item) (l : List Item), c < 4096 → s.ctx? c = some x → x.enc = true → x.ending = false → s.device ≠ 0 → (s.queue c).items = i :: l → i.kind ≠ 1 → sent = (if i.first = true ∧ (s.queue c).sent = 0 then 0 else x.egSent) → ¬(sent = 0 ∧ i.first = false) → s.atThreshold c = true →
    avail = dataBytes (unitItems (i :: l)) - (s.queue c).sent → most = s.payloadFor (s.ownRoute (s.unitHdr c i sent false) 7).1.ports 65535 → ends = (unitItems (i :: l)).any (·.last) → most ≤ avail ∨ ends = true → n = min most avail → last = (ends && decide (avail ≤ most)) →
    s.originate 7 (s.unitHdr c i sent last) x.sequence ((((unitItems (i :: l)).flatMap (·.data)).drop (s.queue c).sent).take n) = none →
    (Requester.egress ∈ s.pool.stalled → exec (.egressPacketBuild c .clean) s = .next s) ∧
    (Requester.egress ∉ s.pool.stalled → ∃ t, exec (.egressPacketBuild c .clean) s = .next t ∧ Sets (s.withPool (fun w => { w with stalled := w.stalled ++ [.egress] })) (s.counted F.BPM_STALLS_COUNT 0 F.BPM_CNT_SAT_STALLS_SAT 0 0 ++ [(F.BPM_EVENT_STALL, 0, 1)]) t)) ∧
  (∀ (s : State) (c u : Nat) (x : Ctx) (i : Item) (l : List Item), c < 4096 → s.ctx? c = some x → x.enc = true → x.ending = false → s.device ≠ 0 → (s.queue c).items = i :: l → 64 * u < i.size →
    (∃ t, exec (.egressPacketBuild c (.corrected u)) s = .next t ∧ t.f F.FLT_SRC_STATUS_ACTIVE 28 = 1 ∧ t.f F.FLT_SRC_STATUS_INSTANCE 28 = c) ∧
    ∃ t, exec (.egressPacketBuild c (.uncorrectable u)) s = .next t ∧ t.f F.FLT_SRC_STATUS_ACTIVE 27 = 1 ∧ t.f F.FLT_SRC_STATUS_INSTANCE 27 = c ∧ t.f F.SPQ_POISON_COUNT 0 = min (s.f F.SPQ_POISON_COUNT 0 + 1) (2 ^ F.SPQ_POISON_COUNT.len - 1)) ∧
  (∀ (s : State) (o : Origin) (p : Nat) (e : Stamp) (l : List Stamp), p < 6 → s.readOk o .HAUL_TS_INFO p = true → (s.haulPort p).stamps = e :: l →
    ∃ t, exec (.haulTsPop o p) s = .next t ∧
      Sets { s.setHaulPort p { s.haulPort p with stamps := l } with readData := [2 ^ 31 + e.msgType % 16 * 2 ^ 24 + e.domain % 256 * 2 ^ 16 + e.seqId % 65536] }
        [(F.HAUL_TS_INFO_MSG_TYPE, p, e.msgType % 16), (F.HAUL_TS_INFO_DOMAIN, p, e.domain % 256), (F.HAUL_TS_INFO_SEQ_ID, p, e.seqId % 65536), (F.HAUL_TS_TIME_LO_TIME, p, e.time % 2 ^ 32), (F.HAUL_TS_TIME_HI_TIME, p, e.time / 2 ^ 32 % 2 ^ 32)] t) ∧
  (∀ (s : State) (o : Origin) (p : Nat), p < 6 → s.readOk o .HAUL_TS_INFO p = true → (s.haulPort p).stamps = [] →
    exec (.haulTsPop o p) s = .next { s with readData := [s.f F.HAUL_TS_INFO_MSG_TYPE p * 2 ^ 24 + s.f F.HAUL_TS_INFO_DOMAIN p * 2 ^ 16 + s.f F.HAUL_TS_INFO_SEQ_ID p] })

/-- CLEFT_PENDING_ENTER, SPILL_DEQUEUE, SPOIL_REFILL, SPQ_Q_DISABLE, BUFFER_ALLOC, BPM_CACHE_REFILL (R235, R263 to R266, R269, R270, R273, R275, R277 to R280, R359): a pending cleft enters once 16 bytes are free; the hewer that reads a decode queue takes its next item, a reading of a control queue ends with the next, and an error of edge memory is reported and poisons; a refill moves 64 bytes, and an uncorrectable one poisons what it meets; clearing EN empties a queue, and SPILL and SIZE change only with EN clear; buffers are taken in order, a haul frame without one is dropped and another requester stalls; the cache of the DRAM ring moves 16 indexes. What a decode queue then holds is looked at (R279). The model's choices that it rests on: log entries 55 and 56. -/
def Obligations.QueueEvents : Prop :=
  (∀ (s : State) (q : Nat), q < 4352 → (s.queue q).pendingCleft = none ∨ s.queueCapacity q < (s.queue q).used + 16 → ∃ t, exec (.cleftPendingEnter q) s = .next t ∧ t.q = s.q ∧ (4096 ≤ q ∨ (s.ctx q).enc = true → t = s)) ∧
  (∀ (s : State) (q : Nat) (i : Item), q < 4352 → (s.queue q).pendingCleft = some i → (s.queue q).used + 16 ≤ s.queueCapacity q →
    ∃ t, exec (.cleftPendingEnter q) s = .next t ∧ (t.queue q).items = (s.queue q).items ++ [i] ∧ (t.queue q).pendingCleft = none ∧ (t.queue q).inRead = (s.queue q).inRead ∧ (4096 ≤ q ∨ (s.ctx q).enc = true → Fields s [] t)) ∧
  (∀ (s : State) (q : Nat) (e : SramRead), q < 4096 → s.ctx? q = none ∨ (s.ctx q).enc = true ∨ (s.reader q = none ∧ s.frontTaken q = true) → exec (.spillDequeue q e) s = .next s) ∧
  (∀ (s : State) (q h : Nat) (x : Ctx) (r : Run) (i : Item) (l : List Item), q < 4096 → s.ctx? q = some x → x.enc = false → s.reader q = some h → (s.hewer h).run = some r → ((s.endRead q).queue q).items = i :: l →
    ∃ t, exec (.spillDequeue q .clean) s = .next t ∧ (t.hewer h).run = some (r.take i).1 ∧ (t.queue q).items = i :: l ∧ (t.queue q).inRead = (r.take i).2) ∧
  (∀ (s : State) (q h : Nat) (x : Ctx) (r : Run) (i : Item) (l : List Item), q < 4096 → s.ctx? q = some x → x.enc = false → s.reader q = some h → (s.hewer h).run = some r → ((s.endRead q).queue q).items = i :: l → i.kind ≠ 1 → i.first = false ∨ r.taken = [] → i.tag % 65536 * 64 = r.taken.length →
    ∃ t, exec (.spillDequeue q .clean) s = .next t ∧ (t.hewer h).run = some { r with taken := r.taken ++ i.data, closed := i.last }) ∧
  (∀ (s : State) (q h : Nat) (x : Ctx), q < 4096 → s.ctx? q = some x → x.enc = false → s.reader q = some h → ((s.endRead q).queue q).items = [] →
    ∃ t, exec (.spillDequeue q .clean) s = .next t ∧ (t.queue q).items = [] ∧ (t.queue q).inRead = false ∧ (t.hewer h).run = (s.hewer h).run) ∧
  (∀ (s u : State) (q : Nat) (x : Ctx) (i : Item) (l : List Item), q < 4096 → s.ctx? q = some x → x.enc = false → s.reader q = none → s.frontTaken q = false → u = s.endRead q → (u.queue q).items = i :: l → x.frontDead = true ∨ (x.back.all (·.closed) = true ∧ u.frontFirst q = none) →
    ∃ t, exec (.spillDequeue q .clean) s = .next t ∧ (t.queue q).items = i :: l ∧ (t.queue q).inRead = true) ∧
  (∀ (s u : State) (q : Nat) (x : Ctx), q < 4096 → s.ctx? q = some x → x.enc = false → s.reader q = none → s.frontTaken q = false → u = s.endRead q → x.frontDead = false → x.back.all (·.closed) = true → (u.frontFirst q).isSome = true →
    ∃ t, exec (.spillDequeue q .clean) s = .next t ∧ t.q = u.q) ∧
  (∀ (s : State) (q : Nat) (e : SramRead), 4096 ≤ q → q < 4352 → (s.queue q).inRead = false → (s.queue q).items = [] → exec (.spillDequeue q e) s = .next s) ∧
  (∀ (s : State) (q : Nat) (i : Item) (l : List Item), 4096 ≤ q → q < 4352 → (s.queue q).inRead = false → (s.queue q).items = i :: l → q ≠ 4097 ∨ i.kind ≠ 2 →
    ∃ t, exec (.spillDequeue q .clean) s = .next t ∧ Sets (s.setQueue q { s.queue q with inRead := true }) [] t) ∧
  (∀ (s : State) (q : Nat) (i j : Item) (l : List Item), 4096 ≤ q → q < 4352 → (s.queue q).inRead = true → (s.queue q).items = i :: j :: l →
    ∃ t, exec (.spillDequeue q .clean) s = .next t ∧ (t.queue q).items = j :: l ∧ (t.queue q).inRead = true ∧ (t.queue q).pendingCleft = (s.queue q).pendingCleft ∧ (q ≠ 4097 ∨ j.kind ≠ 2 → Fields s [] t)) ∧
  (∀ (s : State) (q : Nat) (i : Item) (e : SramRead), 4096 ≤ q → q < 4352 → (s.queue q).inRead = true → (s.queue q).items = [i] → ∃ t, exec (.spillDequeue q e) s = .next t ∧ (t.queue q).items = [] ∧ (t.queue q).inRead = false ∧ Fields s [] t) ∧
  (∀ (s : State) (i : Item) (l : List Item) (h : Parsed) (m : Nat) (pay : List Byte), (s.queue 4097).inRead = false → (s.queue 4097).items = i :: l → i.kind = 2 →
    h = parseFrame (s.f F.HAUL_UDP_PORT (byteAt i.data 10)) (i.data.drop 16) → h.haul = true → h.typ = 3 → pay = sliceOf (i.data.drop 16) h.payAt h.payLen → pay.length = 260 → m = byteAt pay 0 → 12 ≤ m → m ≤ 15 → byteAt pay 1 = 0 →
    s.f F.MBX_STATUS_BUSY m ≠ 1 → s.f F.MBX_STATUS_RESULT_PENDING m ≠ 1 →
    ∃ t, exec (.spillDequeue 4097 .clean) s = .next t ∧ (∀ k ∈ List.range 64, t.f F.MBX_COMMAND_DATA (64 * m + k) = leAt pay (4 + 4 * k) 4 % 2 ^ 32) ∧ Tab.get 0 t.fw.remotePeer m = h.srcDev ∧ (t.queue 4097).inRead = true) ∧
  (∀ (s u : State) (q n : Nat) (i : Item) (l : List Item), q < 4352 → (q < 4096 → (s.ctx? q).any (fun x => !x.enc) = true ∧ ((s.reader q).isSome = true ∨ s.frontTaken q = false)) → u = s.endRead q → (u.queue q).items = i :: l → 64 * n < i.size →
    (∃ t, exec (.spillDequeue q (.corrected n)) s = .next t ∧ t.f F.FLT_SRC_STATUS_ACTIVE 28 = 1 ∧ t.f F.FLT_SRC_STATUS_INSTANCE 28 = q) ∧
    ∃ t, exec (.spillDequeue q (.uncorrectable n)) s = .next t ∧ t.f F.FLT_SRC_STATUS_ACTIVE 27 = 1 ∧ t.f F.FLT_SRC_STATUS_INSTANCE 27 = q ∧ t.f F.SPQ_POISON_COUNT 0 = min (s.f F.SPQ_POISON_COUNT 0 + 1) (2 ^ F.SPQ_POISON_COUNT.len - 1) ∧
      (t.queue q).items = poisonItems (i :: l) (max (64 * n) (if (u.queue q).sent = 0 then 0 else 8 + (u.queue q).sent))) ∧
  (∀ (s : State) (q : Nat) (bad : Bool), q < 4352 → (s.queue q).spoil < 64 ∨ 256 < (s.queue q).head + 64 → ∃ t, exec (.spoilRefill q bad) s = .next t ∧ t.q = s.q ∧ (4096 ≤ q ∨ (s.ctx q).enc = true → t = s)) ∧
  (∀ (s : State) (q : Nat), q < 4352 → 64 ≤ (s.queue q).spoil → (s.queue q).head + 64 ≤ 256 →
    ∃ t, exec (.spoilRefill q false) s = .next t ∧ (t.queue q).items = (s.queue q).items ∧ (t.queue q).rd = (s.queue q).rd + 64 ∧ (128 ≤ (s.queue q).spoil → (t.queue q).head = (s.queue q).head + 64) ∧ (4096 ≤ q ∨ (s.ctx q).enc = true → Fields s [] t)) ∧
  (∀ (s : State) (q : Nat), q < 4352 → 64 ≤ (s.queue q).spoil → (s.queue q).head + 64 ≤ 256 →
    ∃ t, exec (.spoilRefill q true) s = .next t ∧ (t.queue q).items = poisonItems (s.queue q).items (s.queue q).head ∧ t.f F.SPQ_POISON_COUNT 0 = min (s.f F.SPQ_POISON_COUNT 0 + 1) (2 ^ F.SPQ_POISON_COUNT.len - 1) ∧
      (4096 ≤ q ∨ (s.ctx q).enc = true → Fields s (s.counted F.SPQ_POISON_COUNT 0 F.SPQ_CNT_SAT_POISON_SAT 0 0 ++ [(F.SPQ_EVENT_POISON, 0, 1)]) t)) ∧
  (∀ (s : State) (o : Origin) (w : Word) (q : Nat), s.writeOk o .SPQ_Q_CFG 0 = true → q = s.f F.SPQ_Q_SEL_QUEUE 0 → q < 4352 → s.f F.SPQ_Q_CFG_EN q = 1 → w.toNat / 2 ^ 30 % 2 = 0 →
    ∃ t, exec (.spqQDisable o w) s = .next t ∧ Sets (s.setQueue q {}) [(F.SPQ_Q_CFG_EN, q, 0), (F.SPQ_Q_CFG_CT, q, w.toNat % 1024)] t) ∧
  (∀ (s : State) (o : Origin) (w : Word) (q : Nat), s.writeOk o .SPQ_Q_CFG 0 = true → q = s.f F.SPQ_Q_SEL_QUEUE 0 → q < 4352 → s.f F.SPQ_Q_CFG_EN q = 1 → w.toNat / 2 ^ 30 % 2 = 1 →
    ∃ t, exec (.spqQDisable o w) s = .next t ∧ Sets s [(F.SPQ_Q_CFG_EN, q, 1), (F.SPQ_Q_CFG_CT, q, w.toNat % 1024)] t) ∧
  (∀ (s : State) (o : Origin) (w : Word) (q : Nat), s.writeOk o .SPQ_Q_CFG 0 = true → q = s.f F.SPQ_Q_SEL_QUEUE 0 → q < 4352 → s.f F.SPQ_Q_CFG_EN q ≠ 1 →
    ∃ t, exec (.spqQDisable o w) s = .next t ∧ Sets s [(F.SPQ_Q_CFG_SPILL, q, w.toNat / 2 ^ 31), (F.SPQ_Q_CFG_EN, q, w.toNat / 2 ^ 30 % 2), (F.SPQ_Q_CFG_SIZE, q, w.toNat / 2 ^ 24 % 32), (F.SPQ_Q_CFG_CT, q, w.toNat % 1024)] t) ∧
  (∀ (s : State) (o : Origin) (w : Word), s.writeOk o .SPQ_Q_CFG 0 = true → 4352 ≤ s.f F.SPQ_Q_SEL_QUEUE 0 → exec (.spqQDisable o w) s = .next s) ∧
  (∀ (s u : State) (r : Requester) (fr : List Byte) (strict : Bool) (bs : List Nat), requesterOk r = true → s.f F.BPM_CTRL_EN 0 = 1 → s.takeBuffers ((max fr.length 1 + 255) / 256) strict = some (bs, u) →
    ∃ t, exec (.bufferAlloc r fr strict) s = .next t ∧ (t.packet (bs.headD 0)).bufs = bs ∧ (t.packet (bs.headD 0)).ref = 1 ∧ (t.packet (bs.headD 0)).frame = fr ∧ t.pool.sram = u.pool.sram ∧ t.pool.dram = u.pool.dram ∧ r ∉ t.pool.stalled ∧ Fields u [] t) ∧
  (∀ (s : State) (r : Requester) (fr : List Byte) (strict : Bool), requesterOk r = true → s.f F.BPM_CTRL_EN 0 = 1 → s.f F.BPM_CTRL_LIST_MODE 0 ≠ 1 → fr.length ≤ 256 → s.pool.sram.fresh < 65536 → strict = true ∨ s.sramReserve < s.freeSram →
    ∃ t, exec (.bufferAlloc r fr strict) s = .next t ∧ (t.packet s.pool.sram.fresh).bufs = [s.pool.sram.fresh] ∧ (t.packet s.pool.sram.fresh).ref = 1 ∧ t.pool.sram = { s.pool.sram with fresh := s.pool.sram.fresh + 1 } ∧ t.pool.dram = s.pool.dram ∧ r ∉ t.pool.stalled ∧
      t.dram = s.dram ∧ ∀ (y : Fld) (i : Nat), y.outside [F.BPM_MIN_FREE_COUNT, F.BPM_EVENT_LOW] → t.f y i = s.f y i) ∧
  (∀ (s : State) (p : Nat) (fr : List Byte) (strict : Bool), p < 6 → s.f F.BPM_CTRL_EN 0 ≠ 1 ∨ s.takeBuffers ((max fr.length 1 + 255) / 256) strict = none →
    ∃ t, exec (.bufferAlloc (.haul p) fr strict) s = .next t ∧ Sets s (s.counted F.BPM_NO_BUFFER_COUNT 0 F.BPM_CNT_SAT_NO_BUFFER_SAT 0 0 ++ [(F.BPM_EVENT_NO_BUFFER, 0, 1)]) t) ∧
  (∀ (s : State) (r : Requester) (fr : List Byte) (strict : Bool), r = .egress ∨ r = .cp → s.f F.BPM_CTRL_EN 0 ≠ 1 ∨ s.takeBuffers ((max fr.length 1 + 255) / 256) strict = none → r ∉ s.pool.stalled →
    ∃ t, exec (.bufferAlloc r fr strict) s = .next t ∧ Sets (s.withPool (fun w => { w with stalled := w.stalled ++ [r] })) (s.counted F.BPM_STALLS_COUNT 0 F.BPM_CNT_SAT_STALLS_SAT 0 0 ++ [(F.BPM_EVENT_STALL, 0, 1)]) t) ∧
  (∀ (s : State) (r : Requester) (fr : List Byte) (strict : Bool), r = .egress ∨ r = .cp → s.f F.BPM_CTRL_EN 0 ≠ 1 ∨ s.takeBuffers ((max fr.length 1 + 255) / 256) strict = none → r ∈ s.pool.stalled → exec (.bufferAlloc r fr strict) s = .next s) ∧
  (∀ (s : State), s.dramTier = true → s.pool.dram.cache.length < 128 → 0 < s.pool.dram.stored →
    ∃ t, exec .bpmCacheRefill s = .next t ∧ t.pool.dram = { s.pool.dram with cache := s.pool.dram.cache ++ (List.range (min 16 s.pool.dram.stored)).map (fun i => s.ringIndex (s.pool.dram.rd + i)), rd := s.pool.dram.rd + min 16 s.pool.dram.stored } ∧ t.pool.sram = s.pool.sram ∧ t.dram = s.dram ∧ Fields s [] t) ∧
  (∀ (s : State), s.dramTier = true → 384 < s.pool.dram.cache.length →
    ∃ t, exec .bpmCacheRefill s = .next t ∧ t.pool.dram = { s.pool.dram with cache := s.pool.dram.cache.take (s.pool.dram.cache.length - 16), wr := s.pool.dram.wr + 16 } ∧ t.pool.sram = s.pool.sram ∧ Fields s [] t) ∧
  (∀ (s : State), s.dramTier = false ∨ (s.pool.dram.cache.length ≤ 384 ∧ (128 ≤ s.pool.dram.cache.length ∨ s.pool.dram.stored = 0)) → exec .bpmCacheRefill s = .next s)

/-- TMG_SWEEP, TMG_QUEUE_SAMPLE, TMG_SAMPLE_READ, METER_ENABLE, SHAPER_RATE_WRITE (R283, R284, R290, R291): a sweep brings one bucket pair or token count up to now; a sample keeps least, greatest and mean of depth and delay; a read of a least or greatest value clears it; EN from 0 to 1 fills both buckets; a written RATE starts its shaper full. The model's choices that it rests on: log entry 57. -/
def Obligations.TrafficEvents : Prop :=
  (∀ (s : State) (k d : Nat), k < 1024 → d = s.time.fclk - (s.meter k).at_ →
    ∃ t, exec (.tmgSweep k) s = .next t ∧
      Sets (s.setMeter k { tc := min ((s.meter k).tc + s.f F.TMG_METER_CIR_RATE k * d) (max 64 (s.f F.TMG_METER_CBS_BYTES k) * 2 ^ 24), tp := min ((s.meter k).tp + s.f F.TMG_METER_PIR_RATE k * d) (max 64 (s.f F.TMG_METER_PBS_BYTES k) * 2 ^ 24), at_ := s.time.fclk }) [] t) ∧
  (∀ (s : State) (k d : Nat), k < 384 → d = s.time.fclk - (s.tmgQueue k).shaper.at_ →
    ∃ t, exec (.tmgSweep (1024 + k)) s = .next t ∧
      Sets (s.setTmgQueue k { s.tmgQueue k with shaper := { tokens := min ((s.tmgQueue k).shaper.tokens + (s.f F.TMG_Q_SHAPE_RATE_RATE k * d : Nat)) ((max 1 (s.f F.TMG_Q_SHAPE_BURST_BYTES k) * 2 ^ 24 : Nat) : Int), at_ := s.time.fclk } }) [] t) ∧
  (∀ (s : State) (k d : Nat), k < 6 → d = s.time.fclk - (s.tmgPort k).shaper.at_ →
    ∃ t, exec (.tmgSweep (1408 + k)) s = .next t ∧
      Sets (s.setTmgPort k { s.tmgPort k with shaper := { tokens := min ((s.tmgPort k).shaper.tokens + (s.f F.TMG_PORT_SHAPE_RATE_RATE k * d : Nat)) ((max 1 (s.f F.TMG_PORT_SHAPE_BURST_BYTES k) * 2 ^ 24 : Nat) : Int), at_ := s.time.fclk } }) [] t) ∧
  (∀ (s : State) (p q k d h : Nat) (e : List Bool), p < 6 → q < 64 → k = 64 * p + q → d = s.f F.TMG_Q_DEPTH_BYTES k → h = s.headDelay k → e = (s.tmgQueue k).fresh →
    ∃ t, exec (.tmgQueueSample p) s = .next t ∧ t.f F.TMG_Q_DMIN_VALUE k = (if e.getD 0 true then d else min d (s.f F.TMG_Q_DMIN_VALUE k)) % 2 ^ 28 ∧ t.f F.TMG_Q_DMAX_VALUE k = (if e.getD 1 true then d else max d (s.f F.TMG_Q_DMAX_VALUE k)) % 2 ^ 28 ∧
      t.f F.TMG_Q_HMIN_VALUE k = (if e.getD 2 true then h else min h (s.f F.TMG_Q_HMIN_VALUE k)) % 2 ^ 28 ∧ t.f F.TMG_Q_HMAX_VALUE k = (if e.getD 3 true then h else max h (s.f F.TMG_Q_HMAX_VALUE k)) % 2 ^ 28 ∧
      t.f F.TMG_Q_DMEAN_MEAN k = meanStep (s.f F.TMG_Q_DMEAN_MEAN k) d % 2 ^ 32 ∧ t.f F.TMG_Q_HMEAN_MEAN k = meanStep (s.f F.TMG_Q_HMEAN_MEAN k) h % 2 ^ 32 ∧ (t.tmgQueue k).fresh = [false, false, false, false] ∧
      (t.tmgQueue k).copies = (s.tmgQueue k).copies ∧
      ∀ (y : Fld) (i : Nat), y.outside [F.TMG_Q_DMIN_VALUE, F.TMG_Q_DMAX_VALUE, F.TMG_Q_HMIN_VALUE, F.TMG_Q_HMAX_VALUE, F.TMG_Q_DMEAN_MEAN, F.TMG_Q_HMEAN_MEAN] → t.f y i = s.f y i) ∧
  (∀ (s : State) (o : Origin) (r : RegId) (x : Fld) (k j : Nat), k < 384 → (r, x, j) ∈ [(RegId.TMG_Q_DMIN, F.TMG_Q_DMIN_VALUE, 0), (RegId.TMG_Q_DMAX, F.TMG_Q_DMAX_VALUE, 1), (RegId.TMG_Q_HMIN, F.TMG_Q_HMIN_VALUE, 2), (RegId.TMG_Q_HMAX, F.TMG_Q_HMAX_VALUE, 3)] →
    s.readOk o r k = true →
    ∃ t, exec (.tmgSampleRead o (r.addr k)) s = .next t ∧ Sets { s.setTmgQueue k { s.tmgQueue k with fresh := (s.tmgQueue k).fresh.set j true } with readData := [s.f x k] } [(x, k, 0)] t) ∧
  (∀ (s : State) (o : Origin) (w : Word) (m : Nat), s.writeOk o .TMG_METER_CTRL 0 = true → m = s.f F.TMG_METER_SEL_METER 0 → s.f F.TMG_METER_CTRL_EN m ≠ 1 → w.toNat % 2 = 1 →
    ∃ t, exec (.meterEnable o w) s = .next t ∧
      Sets (s.setMeter m { tc := max 64 (s.f F.TMG_METER_CBS_BYTES m) * 2 ^ 24, tp := max 64 (s.f F.TMG_METER_PBS_BYTES m) * 2 ^ 24, at_ := s.time.fclk }) [(F.TMG_METER_CTRL_EN, m, 1), (F.TMG_METER_CTRL_AWARE, m, w.toNat / 2 % 2)] t) ∧
  (∀ (s : State) (o : Origin) (w : Word) (m : Nat), s.writeOk o .TMG_METER_CTRL 0 = true → m = s.f F.TMG_METER_SEL_METER 0 → s.f F.TMG_METER_CTRL_EN m = 1 ∨ w.toNat % 2 = 0 →
    ∃ t, exec (.meterEnable o w) s = .next t ∧ Sets s [(F.TMG_METER_CTRL_EN, m, w.toNat % 2), (F.TMG_METER_CTRL_AWARE, m, w.toNat / 2 % 2)] t) ∧
  (∀ (s : State) (o : Origin) (k : Nat) (w : Word), k < 384 → s.writeOk o .TMG_Q_SHAPE_RATE k = true →
    ∃ t, exec (.shaperRateWrite o (RegId.TMG_Q_SHAPE_RATE.addr k) w) s = .next t ∧
      Sets (s.setTmgQueue k { s.tmgQueue k with shaper := { tokens := (max 1 (s.f F.TMG_Q_SHAPE_BURST_BYTES k) * 2 ^ 24 : Nat), at_ := s.time.fclk } }) [(F.TMG_Q_SHAPE_RATE_RATE, k, w.toNat)] t) ∧
  (∀ (s : State) (o : Origin) (p : Nat) (w : Word), p < 6 → s.writeOk o .TMG_PORT_SHAPE_RATE p = true →
    ∃ t, exec (.shaperRateWrite o (RegId.TMG_PORT_SHAPE_RATE.addr p) w) s = .next t ∧
      Sets (s.setTmgPort p { s.tmgPort p with shaper := { tokens := (max 1 (s.f F.TMG_PORT_SHAPE_BURST_BYTES p) * 2 ^ 24 : Nat), at_ := s.time.fclk } }) [(F.TMG_PORT_SHAPE_RATE_RATE, p, w.toNat)] t)

-- ## Rule versions, the ring and haul links

/-- CLONE, CLONE_DONE, GO, ABORT, COMMIT_DONE (R66, R251 to R253): a clone copies the live rules into the staged version; GO runs the checks and either names the first that fails or makes the staged rules live, with what is in reception under the old ones, and waits for the end of a live handover; ABORT discards the staged rules; the bits of one write act in the order GO, CLONE, ABORT; a commit ends once nothing runs under the old rules, and those who wait hear of it. The model's choices that it rests on: log entries 21, 53 and 97. -/
def Obligations.RuleVersions : Prop :=
  (∀ (s : State) (o : Origin) (w : Word), s.writeOk o .CLS_COMMIT 0 = true → w.toNat.testBit 1 = true → w.toNat.testBit 0 = false ∨ s.inHandover = false → s.clsState = clsIdle → ∀ c ∈ [Instr.go o w, .clone o w, .abort o w], ∃ t, exec c s = .next t ∧ Sets s [(F.CLS_VERSION_STATE, 0, 1)] t) ∧
  (∀ (s : State) (o : Origin) (w : Word), s.writeOk o .CLS_COMMIT 0 = true → w.toNat.testBit 1 = true → w.toNat.testBit 0 = false ∨ s.inHandover = false → s.clsState = clsDraining → ∀ c ∈ [Instr.go o w, .clone o w, .abort o w], exec c s = .next (s.withHaul (fun x => { x with cloneDue := true }))) ∧
  (∀ (s : State) (o : Origin) (w : Word), s.writeOk o .CLS_COMMIT 0 = true → w.toNat.testBit 0 = false ∨ (s.inHandover = false ∧ s.clsState ≠ clsStaging) → w.toNat.testBit 1 = false ∨ (s.clsState ≠ clsIdle ∧ s.clsState ≠ clsDraining) → w.toNat.testBit 2 = false ∨ s.clsState ≠ clsStaging →
    ∀ c ∈ [Instr.go o w, .clone o w, .abort o w], exec c s = .next s) ∧
  (∀ (s : State) (o : Origin) (w : Word), s.writeOk o .CLS_COMMIT 0 = true → w.toNat.testBit 0 = true → s.inHandover = true → w.toNat.testBit 1 = false → w.toNat.testBit 2 = false → ∀ c ∈ [Instr.go o w, .clone o w, .abort o w], exec c s = .next (s.withHaul (fun x => { x with goDue := true }))) ∧
  (∀ (s : State), s.clsState ≠ clsCloning → exec .cloneDone s = .next s) ∧
  (∀ (s : State), s.clsState = clsCloning → ∃ t, exec .cloneDone s = .next t ∧
    Sets (s.withHaul (fun x => { x with staged := x.live })) [(F.CLS_VERSION_STATE, 0, 2), (F.CLS_STAGE_COUNT_EXACT, 0, s.haul.live.nExact % 2 ^ 15), (F.CLS_STAGE_COUNT_TERN, 0, s.haul.live.nTern % 2 ^ 10)] t) ∧
  (∀ (s : State) (o : Origin) (w : Word) (e : Nat) (b : Bank), s.writeOk o .CLS_COMMIT 0 = true → w.toNat.testBit 0 = true → s.inHandover = false → s.clsState = clsStaging →
    b = { s.haul.staged with nExact := s.f F.CLS_STAGE_COUNT_EXACT 0, nTern := s.f F.CLS_STAGE_COUNT_TERN 0 } → e = s.stageError b b.nExact b.nTern → e ≠ 0 → ∀ c ∈ [Instr.go o w, .clone o w, .abort o w], 
    (w.toNat.testBit 2 = false → ∃ t, exec c s = .next t ∧ Sets s [(F.CLS_COMMIT_ERR, 0, e)] t) ∧
    (w.toNat.testBit 2 = true → ∃ t, exec c s = .next t ∧ Sets (s.withHaul (fun x => { x with staged := {} })) [(F.CLS_COMMIT_ERR, 0, e), (F.CLS_VERSION_STATE, 0, 0)] t)) ∧
  (∀ (s : State) (o : Origin) (w : Word) (b : Bank), s.writeOk o .CLS_COMMIT 0 = true → w.toNat.testBit 0 = true → s.inHandover = false → s.clsState = clsStaging →
    b = { s.haul.staged with nExact := s.f F.CLS_STAGE_COUNT_EXACT 0, nTern := s.f F.CLS_STAGE_COUNT_TERN 0 } → s.stageError b b.nExact b.nTern = 0 →
    ∀ c ∈ [Instr.go o w, .clone o w, .abort o w], ∃ t, exec c s = .next t ∧ Sets (s.withHaul (fun x => { x.markOld with old := x.live, live := b, staged := {}, cloneDue := x.cloneDue || w.toNat.testBit 1 }))
      [(F.CLS_COMMIT_ERR, 0, 0), (F.CLS_VERSION_OLD, 0, s.f F.CLS_VERSION_LIVE 0 % 256), (F.CLS_VERSION_LIVE, 0, s.f F.CLS_VERSION_STAGED 0 % 256), (F.CLS_VERSION_STAGED, 0, (s.f F.CLS_VERSION_STAGED 0 % 256 + 1) % 256), (F.CLS_VERSION_STATE, 0, 3)] t) ∧
  (∀ (s : State) (o : Origin) (w : Word), s.writeOk o .CLS_COMMIT 0 = true → w.toNat.testBit 2 = true → w.toNat.testBit 0 = false → s.clsState = clsStaging →
    ∀ c ∈ [Instr.go o w, .clone o w, .abort o w], ∃ t, exec c s = .next t ∧ Sets (s.withHaul (fun x => { x with staged := {} })) [(F.CLS_VERSION_STATE, 0, 0)] t) ∧
  (∀ (s : State), s.clsState ≠ clsDraining ∨ s.oldInUse = true → exec .commitDone s = .next s) ∧
  (∀ (s : State), s.clsState = clsDraining → s.oldInUse = false →
    ∃ t, exec .commitDone s = .next t ∧ t.f F.CLS_VERSION_STATE 0 = (if s.haul.cloneDue then 1 else 0) ∧ t.f F.CLS_EVENT_COMMIT_DONE 0 = 1 ∧ t.f F.SEM_LOCK_OWNER 0 = (if s.f F.SEM_LOCK_OWNER 0 = 1 then 0 else s.f F.SEM_LOCK_OWNER 0) ∧ t.haul = { s.haul with old := {}, cloneDue := false, commitFor := [] }) ∧
  (∀ (s : State), s.clsState = clsDraining → s.oldInUse = false → s.haul.commitFor = [] → s.f F.SEM_LOCK_OWNER 0 ≠ 1 →
    ∃ t, exec .commitDone s = .next t ∧ Sets (s.withHaul (fun x => { x with old := {}, cloneDue := false, commitFor := [] })) [(F.CLS_VERSION_STATE, 0, if s.haul.cloneDue then 1 else 0), (F.CLS_EVENT_COMMIT_DONE, 0, 1)] t) ∧
  (∀ (s : State) (m : Nat), s.clsState = clsDraining → s.oldInUse = false → s.haul.commitFor = [.mailbox m] → s.f F.SEM_LOCK_OWNER 0 = 1 →
    ∃ t, exec .commitDone s = .next t ∧ t.answered m (s.mbxTag m) 0 [] ∧ t.f F.CLS_VERSION_STATE 0 = (if s.haul.cloneDue then 1 else 0) ∧ t.f F.CLS_EVENT_COMMIT_DONE 0 = 1 ∧ t.f F.SEM_LOCK_OWNER 0 = 0 ∧
      t.haul = { s.haul with old := {}, cloneDue := false, commitFor := [] } ∧
      ∀ (y : Fld) (i : Nat), y.outside ([F.CLS_VERSION_STATE, F.CLS_EVENT_COMMIT_DONE, F.SEM_LOCK_OWNER, F.SEM_FREED_LO_FREED, F.SEM_FREED_HI_FREED] ++ resultFields) → t.f y i = s.f y i)

/-- HAUL_LINK_LOSS, HAUL_LINK_UP, RING_NOTICE_RECEIVE, RING_RESTORE_RECEIVE, RING_NOTICE_RESEND, SEND_RESTORE, CLEAR_CW, CLEAR_CCW, FRAGMENT_AGE_OUT (R227, R230, R231, R249, R250, R254 to R257, R328): a link that is lost is shown and raises its fault, a frame in reception ends, a XAUI port that receives a fault sequence shows it and stays down, and on a ring port it is a break of its direction; a notice sets the nearer break and goes on by the other port; a restore clears the break that it names; the part's own breaks are cleared with and without a notice, one or both by one write; an aged fragment entry is free. The model's choices that it rests on: log entries 50, 51, 54 and 97. -/
def Obligations.RingAndLinks : Prop :=
  (∀ (s : State) (p : Nat) (fault : Bool), p < 6 → s.portBlind fnHaul p = true ∨ (s.f F.HAUL_STATUS_LINK p ≠ 1 ∧ (fault = false ∨ s.f F.HAUL_CTRL_MODE p ≠ 1)) → exec (.haulLinkLoss p fault) s = .next s) ∧
  (∀ (s : State) (p : Nat), p < 6 → s.portBlind fnHaul p = false → s.f F.HAUL_STATUS_LINK p ≠ 1 → s.f F.HAUL_CTRL_MODE p = 1 → ∃ t, exec (.haulLinkLoss p true) s = .next t ∧ Sets s [(F.HAUL_STATUS_REMOTE_FAULT, p, 1)] t) ∧
  (∀ (s : State) (p : Nat) (fault : Bool), p < 6 → s.f F.HAUL_STATUS_LINK p = 1 → s.portBlind fnHaul p = false →
    ∃ t, exec (.haulLinkLoss p fault) s = .next t ∧ t.f F.HAUL_STATUS_LINK p = 0 ∧ t.f F.HAUL_STATUS_ALIGNED p = 0 ∧ t.f F.HAUL_STATUS_AN_DONE p = 0 ∧ t.f F.HAUL_EVENT_LINK_LOSS p = 1 ∧ (t.haulPort p).lost = true ∧ (t.haulPort p).rx = none ∧
      t.f F.HAUL_STATUS_REMOTE_FAULT p = (if fault = true ∧ s.f F.HAUL_CTRL_MODE p = 1 then 1 else s.f F.HAUL_STATUS_REMOTE_FAULT p) ∧ t.f F.FLT_SRC_STATUS_ACTIVE 32 = 1 ∧ t.f F.FLT_SRC_STATUS_INSTANCE 32 = p ∧ ((s.haulPort p).rx = none → t.dram = s.dram) ∧
      (s.ringPort p = false → ∀ (y : Fld) (i : Nat), y.outside ([F.HAUL_STATUS_LINK, F.HAUL_STATUS_ALIGNED, F.HAUL_STATUS_AN_DONE, F.HAUL_STATUS_REMOTE_FAULT, F.HAUL_EVENT_LINK_LOSS] ++ raiseFields) → t.f y i = s.f y i)) ∧
  (∀ (s : State) (p : Nat) (ccw fault : Bool), p < 6 → s.f F.HAUL_STATUS_LINK p = 1 → s.portBlind fnHaul p = false → s.ringOn = true → (ccw = false ∧ p = s.cwPort) ∨ (ccw = true ∧ p = s.ccwPort ∧ p ≠ s.cwPort) →
    s.f (if ccw then F.CLS_RING_CUT_CCW_VALID else F.CLS_RING_CUT_CW_VALID) 0 ≠ 1 →
    ∃ t, exec (.haulLinkLoss p fault) s = .next t ∧ t.f (if ccw then F.CLS_RING_CUT_CCW_VALID else F.CLS_RING_CUT_CW_VALID) 0 = 1 ∧
      t.f (if ccw then F.CLS_RING_CUT_CCW_X else F.CLS_RING_CUT_CW_X) 0 = (if ccw then modSub s.ringN s.ringPos 1 else (s.ringPos + 1) % s.ringN) % 256 ∧ t.f F.CLS_EVENT_BREAK 0 = 1 ∧ (if ccw then t.haul.ownCcw else t.haul.ownCw) = true) ∧
  (∀ (s : State) (p : Nat) (fault : Bool), p < 6 → s.f F.HAUL_CTRL_EN p ≠ 1 ∨ s.f F.HAUL_STATUS_LINK p = 1 ∨ s.haulLanesOk p = false ∨ s.lanesSynced fnHaul p = false ∨ s.portBlind fnHaul p = true → exec (.haulLinkUp p fault) s = .next s) ∧
  (∀ (s : State) (p : Nat) (fault : Bool), p < 6 → s.f F.HAUL_CTRL_EN p = 1 → s.f F.HAUL_STATUS_LINK p ≠ 1 → s.haulLanesOk p = true → s.lanesSynced fnHaul p = true → s.portBlind fnHaul p = false → fault = false ∨ s.f F.HAUL_CTRL_MODE p ≠ 1 →
    ∃ t, exec (.haulLinkUp p fault) s = .next t ∧
      Sets (s.setHaulPort p { s.haulPort p with lost := false }) [(F.HAUL_STATUS_REMOTE_FAULT, p, 0), (F.HAUL_STATUS_LINK, p, 1), (F.HAUL_STATUS_ALIGNED, p, 1), (F.HAUL_STATUS_AN_DONE, p, if s.f F.HAUL_CTRL_MODE p = 2 then 1 else 0), (F.HAUL_EVENT_LINK_UP, p, 1)] t) ∧
  (∀ (s : State) (p : Nat), p < 6 → s.f F.HAUL_CTRL_EN p = 1 → s.f F.HAUL_STATUS_LINK p ≠ 1 → s.haulLanesOk p = true → s.lanesSynced fnHaul p = true → s.portBlind fnHaul p = false → s.f F.HAUL_CTRL_MODE p = 1 →
    ∃ t, exec (.haulLinkUp p true) s = .next t ∧ Sets s [(F.HAUL_STATUS_REMOTE_FAULT, p, 1)] t) ∧
  (∀ (s : State) (p x n hop : Nat) (ccw : Bool), p < 6 → s.ringPort p = true → ∃ t, exec (.ringNoticeReceive p x ccw n hop) s = .next t ∧ t.f (if ccw then F.CLS_RING_CUT_CCW_VALID else F.CLS_RING_CUT_CW_VALID) 0 = 1) ∧
  (∀ (s : State) (p x n hop : Nat) (ccw : Bool), p < 6 → s.ringPort p = true → ∃ t, exec (.ringRestoreReceive p x ccw n hop) s = .next t ∧
    t.f (if ccw then F.CLS_RING_CUT_CCW_VALID else F.CLS_RING_CUT_CW_VALID) 0 = (if s.f (if ccw then F.CLS_RING_CUT_CCW_VALID else F.CLS_RING_CUT_CW_VALID) 0 = 1 ∧ s.f (if ccw then F.CLS_RING_CUT_CCW_X else F.CLS_RING_CUT_CW_X) 0 = x then 0 else s.f (if ccw then F.CLS_RING_CUT_CCW_VALID else F.CLS_RING_CUT_CW_VALID) 0)) ∧
  (∀ (s : State) (p x n hop : Nat) (ccw : Bool), p < 6 → s.ringPort p = false → exec (.ringNoticeReceive p x ccw n hop) s = .next s ∧ exec (.ringRestoreReceive p x ccw n hop) s = .next s) ∧
  (∀ (s : State) (p x n hop : Nat) (ccw : Bool), p < 6 → s.ringPort p = true → s.noticeGoesOn p x ccw n hop = false → s.f (if ccw then F.CLS_RING_CUT_CCW_VALID else F.CLS_RING_CUT_CW_VALID) 0 ≠ 1 →
    ∃ t, exec (.ringNoticeReceive p x ccw n hop) s = .next t ∧
      Sets s [(if ccw then F.CLS_RING_CUT_CCW_VALID else F.CLS_RING_CUT_CW_VALID, 0, 1), (if ccw then F.CLS_RING_CUT_CCW_X else F.CLS_RING_CUT_CW_X, 0, x % 256), (F.CLS_EVENT_BREAK, 0, 1)] t) ∧
  (∀ (s : State) (p x n hop a b : Nat), p < 6 → s.ringPort p = true → s.noticeGoesOn p x false n hop = false → s.f F.CLS_RING_CUT_CW_VALID 0 = 1 → a = modSub s.ringN (s.f F.CLS_RING_CUT_CW_X 0 + s.ringN - 1) s.ringPos → b = modSub s.ringN (x + s.ringN - 1) s.ringPos →
    ∃ t, exec (.ringNoticeReceive p x false n hop) s = .next t ∧ Sets s (if a ≤ b then [] else [(F.CLS_RING_CUT_CW_VALID, 0, 1), (F.CLS_RING_CUT_CW_X, 0, x % 256), (F.CLS_EVENT_BREAK, 0, 1)]) t) ∧
  (∀ (s : State) (p x n hop a b : Nat), p < 6 → s.ringPort p = true → s.noticeGoesOn p x true n hop = false → s.f F.CLS_RING_CUT_CCW_VALID 0 = 1 → a = modSub s.ringN (s.ringPos + s.ringN - 1) (s.f F.CLS_RING_CUT_CCW_X 0) → b = modSub s.ringN (s.ringPos + s.ringN - 1) x →
    ∃ t, exec (.ringNoticeReceive p x true n hop) s = .next t ∧ Sets s (if a ≤ b then [] else [(F.CLS_RING_CUT_CCW_VALID, 0, 1), (F.CLS_RING_CUT_CCW_X, 0, x % 256), (F.CLS_EVENT_BREAK, 0, 1)]) t) ∧
  (∀ (s : State) (p x n hop q : Nat) (ccw : Bool), p < 6 → s.ringPort p = true → s.noticeGoesOn p x ccw n hop = true → q = s.otherRing p → s.f F.TMG_Q_CFG_EN (64 * q) = 1 → s.f F.TMG_Q_DEPTH_BYTES (64 * q) + 200 ≤ s.f F.TMG_Q_DEPTH_MAX_BYTES (64 * q) →
    (List.range 16).any (fun b => decide ((s.packet b).bufs = [])) = true →
    ∃ t, exec (.ringNoticeReceive p x ccw n hop) s = .next t ∧ (t.tmgQueue (64 * q)).copies.map (·.inport) = (s.tmgQueue (64 * q)).copies.map (·.inport) ++ [6] ∧ t.f (if ccw then F.CLS_RING_CUT_CCW_VALID else F.CLS_RING_CUT_CW_VALID) 0 = 1) ∧
  (∀ (s : State) (p x n hop q : Nat) (ccw : Bool), p < 6 → s.ringPort p = true → s.noticeGoesOn p x ccw n hop = true → q = s.otherRing p → s.f F.TMG_Q_CFG_EN (64 * q) = 1 → s.f F.TMG_Q_DEPTH_BYTES (64 * q) + 200 ≤ s.f F.TMG_Q_DEPTH_MAX_BYTES (64 * q) →
    (List.range 16).any (fun b => decide ((s.packet b).bufs = [])) = true →
    ∃ t, exec (.ringRestoreReceive p x ccw n hop) s = .next t ∧ (t.tmgQueue (64 * q)).copies.map (·.inport) = (s.tmgQueue (64 * q)).copies.map (·.inport) ++ [6]) ∧
  (∀ (s : State) (p x n hop : Nat) (ccw : Bool), p < 6 → s.ringPort p = true → s.noticeGoesOn p x ccw n hop = false →
    ∃ t, exec (.ringRestoreReceive p x ccw n hop) s = .next t ∧
      Sets s (if s.f (if ccw then F.CLS_RING_CUT_CCW_VALID else F.CLS_RING_CUT_CW_VALID) 0 = 1 ∧ s.f (if ccw then F.CLS_RING_CUT_CCW_X else F.CLS_RING_CUT_CW_X) 0 = x then
        [(if ccw then F.CLS_RING_CUT_CCW_VALID else F.CLS_RING_CUT_CW_VALID, 0, 0), (if ccw then F.CLS_RING_CUT_CCW_X else F.CLS_RING_CUT_CW_X, 0, 0), (F.CLS_EVENT_BREAK, 0, 1)] else []) t) ∧
  (∀ (s : State) (p : Nat), p < 6 → (s.haulPort p).lost = false ∨ s.ringPort p = false → exec (.ringNoticeResend p) s = .next s) ∧
  (∀ (s : State) (p : Nat), p < 6 → (s.haulPort p).lost = true → s.ringPort p = true →
    ∃ t, exec (.ringNoticeResend p) s = .next t ∧ Tab.get 0 t.haul.seqs 0xFFFF = (Tab.get 0 s.haul.seqs 0xFFFF + 1) % 2 ^ 32 ∧ t.free = s.free + 1 ∧ t.dram = s.dram ∧
      ∀ (y : Fld) (i : Nat), y.outside [F.TMG_Q_DEPTH_BYTES, F.TMG_Q_DROPS_COUNT, F.TMG_Q_DEPTH_DROPS_SAT, F.TMG_PORT_EVENT_TAIL_DROP] → t.f y i = s.f y i) ∧
  (∀ (s : State) (o : Origin) (w : Word), s.writeOk o .CLS_RING_CMD 0 = true → ∀ c ∈ [Instr.sendRestore o w, .clearCw o w, .clearCcw o w], ∃ t, exec c s = .next t ∧
    t.haul.ownCw = (s.haul.ownCw && !w.toNat.testBit 0 && !w.toNat.testBit 2) ∧ t.haul.ownCcw = (s.haul.ownCcw && !w.toNat.testBit 1 && !w.toNat.testBit 2) ∧
    (w.toNat.testBit 0 = true ∨ (w.toNat.testBit 2 = true ∧ s.haul.ownCw = true) → t.f F.CLS_RING_CUT_CW_VALID 0 ≠ 1) ∧ (w.toNat.testBit 1 = true ∨ (w.toNat.testBit 2 = true ∧ s.haul.ownCcw = true) → t.f F.CLS_RING_CUT_CCW_VALID 0 ≠ 1)) ∧
  (∀ (s : State) (o : Origin) (w : Word), s.writeOk o .CLS_RING_CMD 0 = true → w.toNat % 8 = 4 → s.haul.ownCw = false → s.haul.ownCcw = false → exec (.sendRestore o w) s = .next s) ∧
  (∀ (s : State) (o : Origin) (w : Word), s.writeOk o .CLS_RING_CMD 0 = true → w.toNat % 8 = 4 →
    ∃ t, exec (.sendRestore o w) s = .next t ∧ t.haul.ownCw = false ∧ t.haul.ownCcw = false ∧ (s.haul.ownCw = true → t.f F.CLS_RING_CUT_CW_VALID 0 ≠ 1) ∧ (s.haul.ownCcw = true → t.f F.CLS_RING_CUT_CCW_VALID 0 ≠ 1) ∧ t.dram = s.dram ∧
      ∀ (y : Fld) (i : Nat), y.outside [F.CLS_RING_CUT_CW_VALID, F.CLS_RING_CUT_CW_X, F.CLS_RING_CUT_CCW_VALID, F.CLS_RING_CUT_CCW_X, F.CLS_EVENT_BREAK, F.TMG_Q_DEPTH_BYTES, F.TMG_Q_DROPS_COUNT, F.TMG_Q_DEPTH_DROPS_SAT, F.TMG_PORT_EVENT_TAIL_DROP] → t.f y i = s.f y i) ∧
  (∀ (s : State) (o : Origin) (w : Word), s.writeOk o .CLS_RING_CMD 0 = true → w.toNat % 8 = 1 →
    ∃ t, exec (.clearCw o w) s = .next t ∧ Sets (s.withHaul (fun x => { x with ownCw := false })) (if s.f F.CLS_RING_CUT_CW_VALID 0 = 1 then [(F.CLS_RING_CUT_CW_VALID, 0, 0), (F.CLS_RING_CUT_CW_X, 0, 0), (F.CLS_EVENT_BREAK, 0, 1)] else []) t) ∧
  (∀ (s : State) (o : Origin) (w : Word), s.writeOk o .CLS_RING_CMD 0 = true → w.toNat % 8 = 2 →
    ∃ t, exec (.clearCcw o w) s = .next t ∧ Sets (s.withHaul (fun x => { x with ownCcw := false })) (if s.f F.CLS_RING_CUT_CCW_VALID 0 = 1 then [(F.CLS_RING_CUT_CCW_VALID, 0, 0), (F.CLS_RING_CUT_CCW_X, 0, 0), (F.CLS_EVENT_BREAK, 0, 1)] else []) t) ∧
  (∀ (s : State) (k : Nat), k < 256 → s.frag? k = none → exec (.fragmentAgeOut k) s = .next s) ∧
  (∀ (s : State) (k : Nat) (x : Frag), k < 256 → s.frag? k = some x → ∃ t, exec (.fragmentAgeOut k) s = .next t ∧ t.frag? k = none ∧ t.f F.CLS_FRAG_USED 0 = t.haul.frags.length % 512 ∧ (x.ended = true ∨ x.ctx = none → t.q = s.q ∧ t.codec = s.codec ∧ ∀ (y : Fld) (i : Nat), y.outside [F.CLS_FRAG_USED] → t.f y i = s.f y i))

-- ## Lanes and ingress

/-- LANE_SIGNAL_CHANGE, LANE_SYNC_LOSS, LANE_SYNC_ACQUIRE, LANE_CAL_START, LANE_CAL_DONE, LANE_CFG_WRITE, CAL_SCHEDULE, SENSOR_CAL, LANE_PLL_LOCK, PRBS_LOCK, CODE_ERR (R66, R321 to R324, R326 to R333, R337, R342, R343, R393, R395): signals and synchronisation of a lane and what their loss counts; a calibration that is due begins in its window, behind restored values and not in a live handover, and ends with its values taken together; a frame that a control character breaks ends as aborted; a write of the lane map stops a calibration, and the port that gains the lane goes down. The model's choices that it rests on: log entries 32, 70, 80 and 107. -/
def Obligations.LaneEvents : Prop :=
  (∀ (s : State) (n : Nat), n < 64 → ∃ t, exec (.laneSignalChange n true) s = .next t ∧ Sets s [(F.LANE_STATUS_SIGNAL, n, 1), (F.LANE_STATUS_CDR_LOCK, n, 1)] t) ∧
  (∀ (s : State) (n : Nat), n < 64 → s.f F.LANE_STATUS_CAL n ≠ 1 → ∃ t, exec (.laneSignalChange n false) s = .next t ∧ Sets s [(F.LANE_STATUS_SIGNAL, n, 0), (F.LANE_STATUS_CDR_LOCK, n, 0), (F.LANE_EVENT_LOS, n, 1)] t) ∧
  (∀ (s : State) (n : Nat), n < 64 → s.f F.LANE_STATUS_CAL n = 1 →
    ∃ t, exec (.laneSignalChange n false) s = .next t ∧ t.f F.LANE_STATUS_SIGNAL n = 0 ∧ t.f F.LANE_STATUS_CDR_LOCK n = 0 ∧ t.f F.LANE_EVENT_LOS n = 1 ∧ t.f F.LANE_STATUS_CAL n = 0 ∧ t.f F.LANE_EVENT_CAL_ABORT n = 1 ∧ t.lane = s.lane ∧
      ∀ (y : Fld) (i : Nat), y.outside [F.LANE_STATUS_SIGNAL, F.LANE_STATUS_CDR_LOCK, F.LANE_EVENT_LOS, F.LANE_STATUS_CAL, F.LANE_EVENT_CAL_ABORT, F.LMP_PORT_STATUS_RX_CAL, F.CAL_STATUS_BUSY, F.MBX_STATUS_JOB_DONE] → t.f y i = s.f y i) ∧
  (∀ (s : State) (n : Nat), n < 64 → s.f F.LANE_STATUS_SYNC n ≠ 1 → exec (.laneSyncLoss n) s = .next s) ∧
  (∀ (s : State) (n : Nat), n < 64 → s.f F.LANE_STATUS_SYNC n = 1 → s.f F.LANE_STATUS_CAL n = 1 →
    ∃ t, exec (.laneSyncLoss n) s = .next t ∧ t.f F.LANE_STATUS_SYNC n = 0 ∧ (∀ k, k ≠ n → t.f F.LANE_STATUS_SYNC k = s.f F.LANE_STATUS_SYNC k) ∧ ∀ (y : Fld) (i : Nat), y.outside [F.LANE_STATUS_SYNC, F.HAUL_STATUS_LANE_SYNC] → t.f y i = s.f y i) ∧
  (∀ (s : State) (n : Nat), n < 64 → s.f F.LANE_STATUS_SYNC n = 1 → s.f F.LANE_STATUS_CAL n ≠ 1 →
    ∃ t, exec (.laneSyncLoss n) s = .next t ∧ t.f F.LANE_STATUS_SYNC n = 0 ∧ (∀ k, k ≠ n → t.f F.LANE_STATUS_SYNC k = s.f F.LANE_STATUS_SYNC k) ∧ t.f F.LANE_EVENT_SYNC_LOSS n = 1 ∧ t.f F.LANE_CNT_COUNT (4 * n + 2) = min (s.f F.LANE_CNT_COUNT (4 * n + 2) + 1) (2 ^ 32 - 1) ∧
      ∀ (y : Fld) (i : Nat), y.outside [F.LANE_STATUS_SYNC, F.HAUL_STATUS_LANE_SYNC, F.LANE_CNT_COUNT, F.LANE_CNT_SAT_SAT, F.LANE_EVENT_SYNC_LOSS] → t.f y i = s.f y i) ∧
  (∀ (s : State) (n : Nat), n < 64 → s.f F.LANE_CFG_EN n ≠ 1 ∨ s.f F.LANE_STATUS_CDR_LOCK n ≠ 1 → exec (.laneSyncAcquire n) s = .next s) ∧
  (∀ (s : State) (n : Nat), n < 64 → s.f F.LANE_CFG_EN n = 1 → s.f F.LANE_STATUS_CDR_LOCK n = 1 →
    ∃ t, exec (.laneSyncAcquire n) s = .next t ∧ t.f F.LANE_STATUS_SYNC n = 1 ∧ (∀ k, k ≠ n → t.f F.LANE_STATUS_SYNC k = s.f F.LANE_STATUS_SYNC k) ∧ ∀ (y : Fld) (i : Nat), y.outside [F.LANE_STATUS_SYNC, F.HAUL_STATUS_LANE_SYNC] → t.f y i = s.f y i) ∧
  (∀ (s : State) (n : Nat), n < 64 → 60 ≤ n ∨ s.laneWindow n = false ∨ s.inHandover = true → exec (.laneCalStart n) s = .next s) ∧
  (∀ (s : State) (n : Nat), n < 60 → s.laneWindow n = true → s.inHandover = false → Tab.get none s.lane.restored n = none → n ∈ s.lane.due → s.f F.LANE_STATUS_CAL n ≠ 1 →
    ∃ t, exec (.laneCalStart n) s = .next t ∧ t.f F.LANE_STATUS_CAL n = 1 ∧ t.f F.CAL_STATUS_BUSY 0 = 1 ∧ t.lane = { s.lane with due := s.lane.due.filter (· ≠ n), gap := n :: s.lane.gap } ∧
      (s.laneFunc n = fnLamp → s.lanePort n < 48 → t.f F.LMP_PORT_STATUS_RX_CAL (s.lanePort n) = 1) ∧ (s.laneFunc n ≠ fnHaul → t.haul = s.haul) ∧
      (s.laneFunc n = fnHaul → (t.haulPort (s.lanePort n)).rx = (s.haulPort (s.lanePort n)).rx.map (fun r => { r with spoiled := true })) ∧
      ∀ (y : Fld) (i : Nat), y.outside [F.LANE_STATUS_CAL, F.LMP_PORT_STATUS_RX_CAL, F.CAL_STATUS_BUSY] → t.f y i = s.f y i) ∧
  (∀ (s : State) (n v : Nat), n < 60 → s.laneWindow n = true → s.inHandover = false → Tab.get none s.lane.restored n = some v → n ∉ s.lane.due ∨ s.f F.LANE_STATUS_CAL n = 1 →
    ∃ t, exec (.laneCalStart n) s = .next t ∧ Sets (s.withLane (fun x => { x with restored := Tab.set none x.restored n none })) [(F.LANE_STATUS_PEAK_NOW, n, v / 64 % 16), (F.LANE_STATUS_CDR_OFS, n, v % 64)] t) ∧
  (∀ (s : State) (n v : Nat), n < 60 → s.laneWindow n = true → s.inHandover = false → Tab.get none s.lane.restored n = some v → n ∈ s.lane.due → s.f F.LANE_STATUS_CAL n ≠ 1 →
    ∃ t, exec (.laneCalStart n) s = .next t ∧ t.f F.LANE_STATUS_PEAK_NOW n = v / 64 % 16 ∧ t.f F.LANE_STATUS_CDR_OFS n = v % 64 ∧ t.f F.LANE_STATUS_CAL n = 1 ∧ t.lane = { s.lane with restored := Tab.set none s.lane.restored n none, due := s.lane.due.filter (· ≠ n), gap := n :: s.lane.gap }) ∧
  (∀ (s : State) (n : Nat), n < 60 → s.laneWindow n = true → s.inHandover = false → Tab.get none s.lane.restored n = none → n ∉ s.lane.due ∨ s.f F.LANE_STATUS_CAL n = 1 → exec (.laneCalStart n) s = .next s) ∧
  (∀ (s : State) (n a b : Nat), n < 64 → s.f F.LANE_STATUS_CAL n ≠ 1 → exec (.laneCalDone n a b) s = .next s) ∧
  (∀ (s : State) (n a b : Nat), n < 64 → s.f F.LANE_STATUS_CAL n = 1 →
    ∃ t, exec (.laneCalDone n a b) s = .next t ∧ t.f F.LANE_STATUS_PEAK_NOW n = (if s.f F.LANE_RX_PEAK_FIXED n = 1 then s.f F.LANE_RX_PEAK n else a) % 16 ∧ t.f F.LANE_STATUS_CDR_OFS n = b % 64 ∧ t.f F.LANE_STATUS_CAL n = 0 ∧ t.f F.LANE_EVENT_CAL_DONE n = 1 ∧
      t.f F.CAL_STATUS_DONE 0 = 1 ∧ t.f F.CAL_STATUS_LANE 0 = n ∧ t.lane = s.lane ∧
      ∀ (y : Fld) (i : Nat), y.outside [F.LANE_STATUS_PEAK_NOW, F.LANE_STATUS_CDR_OFS, F.LANE_STATUS_CAL, F.LANE_EVENT_CAL_DONE, F.CAL_STATUS_DONE, F.CAL_STATUS_LANE, F.LMP_PORT_STATUS_RX_CAL, F.CAL_STATUS_BUSY, F.MBX_STATUS_JOB_DONE] → t.f y i = s.f y i) ∧
  (∀ (s : State) (o : Origin) (n : Nat) (w : Word), n < 64 → s.writeOk o .LANE_RX n = true → s.f F.LANE_STATUS_CAL n ≠ 1 →
    ∃ t, exec (.laneCfgWrite o n true w) s = .next t ∧ Sets s ([(F.LANE_RX_PEAK_FIXED, n, w.toNat / 256 % 2), (F.LANE_RX_PEAK, n, w.toNat % 16)] ++ if w.toNat / 256 % 2 = 1 then [(F.LANE_STATUS_PEAK_NOW, n, w.toNat % 16)] else []) t) ∧
  (∀ (s : State) (o : Origin) (n : Nat) (w : Word) (rx : Bool), n < 60 → s.writeOk o (if rx then .LANE_RX else .LANE_CFG) n = true → s.f F.LANE_STATUS_CAL n = 1 →
    ∃ t, exec (.laneCfgWrite o n rx w) s = .next t ∧ t.f F.LANE_STATUS_CAL n = 0 ∧ t.f F.LANE_EVENT_CAL_ABORT n = 1 ∧ ((s.haulPort (s.lanePort n)).rx = none → (s.haulPort (w.toNat / 2 ^ 16 % 64)).rx = none → t.dram = s.dram)) ∧
  (∀ (s : State) (o : Origin) (n : Nat) (w : Word), n < 64 → s.writeOk o .LANE_RX n = true →
    ∃ t, exec (.laneCfgWrite o n true w) s = .next t ∧ t.f F.LANE_RX_PEAK_FIXED n = w.toNat / 256 % 2 ∧ t.f F.LANE_RX_PEAK n = w.toNat % 16 ∧ (w.toNat / 256 % 2 = 1 → t.f F.LANE_STATUS_PEAK_NOW n = w.toNat % 16)) ∧
  (∀ (s : State) (o : Origin) (n : Nat) (w : Word), 60 ≤ n → n < 64 → s.writeOk o .LANE_CFG n = true → exec (.laneCfgWrite o n false w) s = .next s) ∧
  (∀ (s : State) (o : Origin) (n : Nat) (w : Word), n < 60 → s.writeOk o .LANE_CFG n = true →
    ∃ t, exec (.laneCfgWrite o n false w) s = .next t ∧ t.f F.LANE_CFG_EN n = w.toNat / 2 ^ 31 ∧ t.f F.LANE_CFG_FUNC n = (if 4 ≤ w.toNat / 2 ^ 24 % 8 then 0 else w.toNat / 2 ^ 24 % 8) ∧ t.f F.LANE_CFG_PORT n = w.toNat / 2 ^ 16 % 64 ∧
      t.f F.LANE_CFG_PORT_LANE n = w.toNat / 2 ^ 12 % 4 ∧ t.f F.LANE_CFG_RX_INV n = w.toNat / 2 ^ 9 % 2 ∧ t.f F.LANE_CFG_TX_INV n = w.toNat / 2 ^ 8 % 2 ∧ t.f F.LANE_CFG_RATE n = w.toNat % 4 ∧ ((s.haulPort (s.lanePort n)).rx = none → (s.haulPort (w.toNat / 2 ^ 16 % 64)).rx = none → t.dram = s.dram) ∧
      (s.f F.LANE_CFG_EN n ≠ w.toNat / 2 ^ 31 → t.f F.LANE_STATUS_SYNC n = 0 ∧ t.f F.LANE_STATUS_PRBS_LOCK n = 0)) ∧
  (∀ (s : State) (o : Origin) (n p : Nat) (w : Word), n < 60 → p < 6 → s.writeOk o .LANE_CFG n = true → s.f F.LANE_CFG_EN n = 0 → w.toNat / 2 ^ 31 = 1 → w.toNat / 2 ^ 24 % 8 = 1 → w.toNat / 2 ^ 16 % 64 = p → (∀ l ∈ List.range 60, s.f F.LANE_STATUS_CAL l ≠ 1) →
    ∃ t, exec (.laneCfgWrite o n false w) s = .next t ∧ t.f F.HAUL_STATUS_LINK p ≠ 1 ∧ (s.f F.HAUL_STATUS_LINK p = 1 → t.f F.HAUL_EVENT_LINK_LOSS p = 1)) ∧
  (∀ (s : State) (n : Nat), n < 60 → s.f F.LANE_CFG_EN n = 1 → n ∉ s.lane.due → s.f F.LANE_STATUS_CAL n ≠ 1 → exec (.calSchedule n) s = .next (s.withLane (fun x => { x with due := x.due ++ [n] }))) ∧
  (∀ (s : State) (n : Nat), n < 64 → 60 ≤ n ∨ s.f F.LANE_CFG_EN n ≠ 1 ∨ n ∈ s.lane.due ∨ s.f F.LANE_STATUS_CAL n = 1 → exec (.calSchedule n) s = .next s) ∧
  (∀ (s : State) (k : Nat), k < 16 → s.inHandover = false → ∃ t, exec (.sensorCal k) s = .next t ∧ Sets s [(F.CAL_STATUS_DONE, 0, 1)] t) ∧
  (∀ (s : State) (k : Nat), k < 16 → s.inHandover = true → exec (.sensorCal k) s = .next s) ∧
  (∀ (s : State) (q : Nat), q < 16 → s.quadOn q = true → ∃ t, exec (.lanePllLock q) s = .next t ∧ Sets s [(F.CLK_STATUS_LANE_LOCK, 0, (s.f F.CLK_STATUS_LANE_LOCK 0 ||| 2 ^ q) % 2 ^ 16)] t) ∧
  (∀ (s : State) (q : Nat), q < 16 → s.quadOn q = false → exec (.lanePllLock q) s = .next s) ∧
  (∀ (s : State) (n k v : Nat), n < 64 → s.f F.LANE_CFG_EN n = 1 → s.laneFunc n = fnTest → s.f F.LANE_PRBS_CHK n = 1 → v = min (2 ^ 32 - 1) (s.f F.LANE_CNT_COUNT (4 * n + 3) + k) →
    ∃ t, exec (.prbsLock n k) s = .next t ∧ Sets s ([(F.LANE_STATUS_PRBS_LOCK, n, 1), (F.LANE_CNT_COUNT, 4 * n + 3, v)] ++ if v = 2 ^ 32 - 1 then [(F.LANE_CNT_SAT_SAT, n, (s.f F.LANE_CNT_SAT_SAT n ||| 8) % 16)] else []) t) ∧
  (∀ (s : State) (n k : Nat), n < 64 → s.f F.LANE_CFG_EN n ≠ 1 ∨ s.laneFunc n ≠ fnTest ∨ s.f F.LANE_PRBS_CHK n ≠ 1 → exec (.prbsLock n k) s = .next s) ∧
  (∀ (s : State) (n : Nat) (k : CodeErrKind), n < 64 → s.f F.LANE_STATUS_CAL n = 1 → exec (.codeErr n k) s = .next s) ∧
  (∀ (s : State) (n j : Nat) (k : CodeErrKind), n < 64 → s.f F.LANE_STATUS_CAL n ≠ 1 → k ≠ .controlFrame ∨ (s.laneFunc n ≠ fnHaul ∧ (s.laneFunc n ≠ fnIngress ∨ 8 ≤ s.lanePort n ∨ s.f F.ING_STATUS_LINK (s.lanePort n) ≠ 1)) → j = (if k = .disparity then 0 else 1) →
    ∃ t, exec (.codeErr n k) s = .next t ∧ Sets s (s.counted F.LANE_CNT_COUNT (4 * n + j) F.LANE_CNT_SAT_SAT n j) t) ∧
  (∀ (s : State) (n p : Nat), n < 64 → s.f F.LANE_STATUS_CAL n ≠ 1 → s.laneFunc n = fnIngress → p = s.lanePort n → p < 8 → s.f F.ING_STATUS_LINK p = 1 →
    ∃ t, exec (.codeErr n .controlFrame) s = .next t ∧ Sets s (s.counted F.LANE_CNT_COUNT (4 * n + 1) F.LANE_CNT_SAT_SAT n 1 ++ s.counted F.ING_CNT_COUNT (8 * p + 2) F.ING_CNT_SAT_SAT p 2 ++ [(F.ING_EVENT_ERROR, p, 1)]) t) ∧
  (∀ (s : State) (n : Nat), n < 64 → s.f F.LANE_STATUS_CAL n ≠ 1 → s.laneFunc n = fnHaul →
    ∃ t, exec (.codeErr n .controlFrame) s = .next t ∧ (t.haulPort (s.lanePort n)).rx = none ∧ Fields s (s.counted F.LANE_CNT_COUNT (4 * n + 1) F.LANE_CNT_SAT_SAT n 1) t)

/-- PIXEL_FRAME_RECEIVE, ING_CLOSE_EXPIRE, PIXEL_LINK_LOSS, PIXEL_LINK_UP (R230, R328, R335 to R337, R339, R340, R367): a frame at a port that is off is nothing; a damaged, too long, uncorrectable or wrongly formed one is dropped and counted; the lamps of a good one go to the wall and their line counts once all of it has come; LAST ends the picture; a picture that does not end in time is ended; a link comes up on its lanes and its loss is counted. The model's choices that it rests on: log entry 71. -/
def Obligations.IngressEvents : Prop :=
  (∀ (s : State) (p : Nat) (f : List Byte) (err : Bool), p < 8 → s.f F.ING_CTRL_EN p ≠ 1 ∨ s.ingMode p ≠ 0 ∨ s.f F.ING_STATUS_LINK p ≠ 1 ∨ s.fatal = true → exec (.pixelFrameReceive p f err) s = .next s) ∧
  (∀ (s : State) (p k : Nat) (f : List Byte) (err : Bool), p < 8 → s.f F.ING_CTRL_EN p = 1 → s.ingMode p = 0 → s.f F.ING_STATUS_LINK p = 1 → s.fatal = false →
    (k = 5 ∧ 24596 < f.length) ∨ (k = 2 ∧ f.length ≤ 24596 ∧ err = true) ∨ (k = 1 ∧ f.length ≤ 24596 ∧ err = false ∧ (s.portBlind fnIngress p = true ∨ f.length < 4 ∨ beAt f (f.length - 4) 4 ≠ crc32 (f.take (f.length - 4)))) →
    ∃ t, exec (.pixelFrameReceive p f err) s = .next t ∧ Sets s (s.counted F.ING_CNT_COUNT (8 * p + k) F.ING_CNT_SAT_SAT p k ++ [(F.ING_EVENT_ERROR, p, 1)]) t) ∧
  (∀ (s : State) (p : Nat) (f b : List Byte), p < 8 → s.f F.ING_CTRL_EN p = 1 → s.ingMode p = 0 → s.f F.ING_STATUS_LINK p = 1 → s.fatal = false → s.portBlind fnIngress p = false → 4 ≤ f.length → f.length ≤ 24596 → b = f.take (f.length - 4) → beAt f (f.length - 4) 4 = crc32 b →
    s.lineFrameOk p b = false ∨ ((s.ing p).pic = none ∧ (byteAt b 0).testBit 3 = false) →
    ∃ t, exec (.pixelFrameReceive p f false) s = .next t ∧ Sets (s.setIng p { s.ing p with seq := some (beAt b 10 4) }) (s.counted F.ING_CNT_COUNT (8 * p + 5) F.ING_CNT_SAT_SAT p 5 ++ [(F.ING_EVENT_ERROR, p, 1)]) t) ∧
  (∀ (s : State) (p : Nat) (f b : List Byte), p < 8 → s.f F.ING_CTRL_EN p = 1 → s.ingMode p = 0 → s.f F.ING_STATUS_LINK p = 1 → s.fatal = false → s.portBlind fnIngress p = false → 4 ≤ f.length → f.length ≤ 24596 → b = f.take (f.length - 4) → beAt f (f.length - 4) 4 = crc32 b →
    s.lineFrameOk p b = true → (s.ing p).pic.isSome = true ∨ (byteAt b 0).testBit 3 = true →
    ∃ t, exec (.pixelFrameReceive p f false) s = .next t ∧ (t.ing p).seq = some (beAt b 10 4) ∧ ((byteAt b 0).testBit 3 = true → t.f F.ING_PICTURE_SRC_PICTURE p = beAt b 2 2) ∧ ((byteAt b 0).testBit 2 = false → (t.ing p).pic.isSome = true) ∧
      ((byteAt b 0).testBit 2 = true → (t.ing p).pic = none ∧ t.f F.ING_STATUS_IN_PICTURE p = 0 ∧ t.f F.ING_EVENT_PICTURE_END p = 1)) ∧
  (∀ (s : State) (p : Nat) (f b : List Byte), p < 8 → s.f F.ING_CTRL_EN p = 1 → s.ingMode p = 0 → s.f F.ING_STATUS_LINK p = 1 → s.fatal = false → s.portBlind fnIngress p = false → 4 ≤ f.length → f.length ≤ 24596 → b = f.take (f.length - 4) → beAt f (f.length - 4) 4 = crc32 b →
    s.lineFrameOk p b = true → (byteAt b 0).testBit 3 = true → (byteAt b 0).testBit 2 = false → s.codec.ctxs = [] →
    ∃ t, exec (.pixelFrameReceive p f false) s = .next t ∧ t.f F.ING_STATUS_IN_PICTURE p = 1 ∧ t.f F.ING_PICTURE_SRC_PICTURE p = beAt b 2 2 ∧ (t.ing p).pic.isSome = true ∧ (t.ing p).seq = some (beAt b 10 4) ∧ t.dram = s.dram) ∧
  (∀ (s : State) (p n line x m g : Nat) (f b : List Byte) (k : IngPic), p < 8 → s.f F.ING_CTRL_EN p = 1 → s.ingMode p = 0 → s.f F.ING_STATUS_LINK p = 1 → s.fatal = false → s.portBlind fnIngress p = false → 4 ≤ f.length → f.length ≤ 24596 → b = f.take (f.length - 4) → beAt f (f.length - 4) 4 = crc32 b →
    s.lineFrameOk p b = true → (byteAt b 0).testBit 3 = false → (byteAt b 0).testBit 2 = false → s.codec.ctxs = [] → (s.ing p).pic = some k → n = depthOf (byteAt b 1 / 64) → line = beAt b 4 2 → x = beAt b 6 2 → m = beAt b 8 2 + 1 →
    g = Tab.get 0 k.got line ||| (2 ^ m - 1) * 2 ^ x →
    ∃ t, exec (.pixelFrameReceive p f false) s = .next t ∧ (t.ing p).pic = some { k with got := Tab.set 0 k.got line g, done := if g = 2 ^ s.f F.ING_REGION_SIZE_WIDTH p - 1 ∧ line ∉ k.done then k.done ++ [line] else k.done } ∧
      t.codec = (s.putLamps p n x line (unpackLamps n m (b.drop 16))).codec ∧ t.dram = s.dram ∧ ∀ (y : Fld) (i : Nat), y.outside [F.ING_CNT_COUNT, F.ING_CNT_SAT_SAT, F.ING_STATUS_LINE] → t.f y i = s.f y i) ∧
  (∀ (s : State) (p : Nat), p < 8 → (s.ing p).closing = false → exec (.ingCloseExpire p) s = .next s) ∧
  (∀ (s : State) (p : Nat), p < 8 → (s.ing p).closing = true → ∃ t, exec (.ingCloseExpire p) s = .next t ∧ (t.ing p).pic = none ∧ (t.ing p).closing = false ∧ t.f F.ING_EVENT_CLOSED p = 1 ∧
      (s.ing p).pic.all (fun _ => decide (t.f F.ING_STATUS_IN_PICTURE p = 0) && decide (t.f F.ING_EVENT_PICTURE_END p = 1)) = true ∧
      (s.codec.ctxs = [] → ∀ (y : Fld) (i : Nat), y.outside [F.ING_CNT_COUNT, F.ING_CNT_SAT_SAT, F.ING_STATUS_LINE, F.ING_STATUS_IN_PICTURE, F.ING_EVENT_PICTURE_END, F.ING_EVENT_CLOSED] → t.f y i = s.f y i)) ∧
  (∀ (s : State) (p : Nat), p < 8 → s.portBlind fnIngress p = true ∨ s.f F.ING_STATUS_LINK p ≠ 1 → exec (.pixelLinkLoss p) s = .next s) ∧
  (∀ (s : State) (p : Nat), p < 8 → s.portBlind fnIngress p = false → s.f F.ING_STATUS_LINK p = 1 →
    ∃ t, exec (.pixelLinkLoss p) s = .next t ∧ Sets s (s.counted F.ING_CNT_COUNT (8 * p + 7) F.ING_CNT_SAT_SAT p 7 ++ [(F.ING_STATUS_LINK, p, 0), (F.ING_STATUS_ALIGNED, p, 0), (F.ING_EVENT_LOSS, p, 1)]) t) ∧
  (∀ (s : State) (p : Nat), p < 8 → s.f F.ING_CTRL_EN p = 1 → s.ingMode p = 0 → s.ingLanesOk p = true → s.lanesSynced fnIngress p = true → ∃ t, exec (.pixelLinkUp p) s = .next t ∧ Sets s [(F.ING_STATUS_LINK, p, 1), (F.ING_STATUS_ALIGNED, p, 1)] t) ∧
  (∀ (s : State) (p : Nat), p < 8 → s.f F.ING_CTRL_EN p ≠ 1 ∨ s.ingMode p ≠ 0 ∨ s.ingLanesOk p = false ∨ s.lanesSynced fnIngress p = false → exec (.pixelLinkUp p) s = .next s)

-- ## Memory

/-- DDR_REQUEST_GRANT, DDR_TRANSFER_COMPLETE, ARB_WATCHDOG_EXPIRE, DDR_REFRESH_DUE, DDR_PAGE_IDLE_EXPIRE, DDR_TEMP_POLL, DDR_SCRUB_READ, DDR_WRITE_CRC_ALERT, DDR_LOG_CLEAR, DDR_CONFIG_LOCK (R298, R300 to R302, R307 to R318, R403, R404): refreshes that have been postponed are caught up first; a grant counts, keeps the longest wait and passes the transfer to the queues, unless its region refuses it, and what is not granted waits; a transfer that is served ends with its response and its row open; corrected and uncorrectable errors count and raise, and the line of the latter is poisoned; a request that hangs switches its requester off and leaves its line; refreshes, precharges, the temperature, the patrol scrub and write alerts; the log and the lock. The model's choices that it rests on: log entries 64 to 66 and 106. -/
def Obligations.MemoryEvents : Prop :=
  (∀ (s u : State) (c : Nat), c < 4 → (s.chanOpen c = false ∧ u = s) ∨ (s.chanOpen c = true ∧ u = s.catchUp c ∧ u.pickRequester c = none) →
    ∃ t, exec (.ddrRequestGrant c) s = .next t ∧ (t.mchan c).waiting = (u.mchan c).waiting.map (fun y => { y with wait := y.wait + 1 }) ∧ (t.mchan c).granted = (s.mchan c).granted ∧ t.dram = s.dram ∧ ((s.mchan c).waiting = [] → Fields u [] t) ∧
      (∀ q ∈ List.range 12, (s.mchan c).waiting.any (fun y => decide (y.req = q)) = true →
        t.f F.ARB_WAITS_LO_COUNT (12 * c + q) + 2 ^ 32 * t.f F.ARB_WAITS_HI_COUNT (12 * c + q) = (s.f F.ARB_WAITS_LO_COUNT (12 * c + q) + 2 ^ 32 * s.f F.ARB_WAITS_HI_COUNT (12 * c + q) + 1) % 2 ^ 48)) ∧
  (∀ (s u : State) (c r : Nat) (x : Xfer), c < 4 → s.chanOpen c = true → u = s.catchUp c → u.pickRequester c = some r → (u.mchan c).waiting.find? (fun y => decide (y.req = r)) = some x → u.permitted r (64 * x.line) x.write x.secure = true →
    ∃ t, exec (.ddrRequestGrant c) s = .next t ∧ (t.mchan c).waiting = ((u.mchan c).waiting.erase x).map (fun y => { y with wait := y.wait + 1 }) ∧ (t.mchan c).granted = (if r = 0 ∧ u.panic = true then x :: (u.mchan c).granted else (u.mchan c).granted ++ [x]) ∧
      t.f F.ARB_GRANTS_LO_COUNT (12 * c + r) + 2 ^ 32 * t.f F.ARB_GRANTS_HI_COUNT (12 * c + r) = (s.f F.ARB_GRANTS_LO_COUNT (12 * c + r) + 2 ^ 32 * s.f F.ARB_GRANTS_HI_COUNT (12 * c + r) + 1) % 2 ^ 48 ∧
      t.f F.ARB_MAXWAIT_FCLK (12 * c + r) = min 65535 (max x.wait (s.f F.ARB_MAXWAIT_FCLK (12 * c + r))) ∧
      (∀ q ∈ List.range 12, q ≠ r → (u.mchan c).waiting.any (fun y => decide (y.req = q)) = true →
        t.f F.ARB_WAITS_LO_COUNT (12 * c + q) + 2 ^ 32 * t.f F.ARB_WAITS_HI_COUNT (12 * c + q) = (s.f F.ARB_WAITS_LO_COUNT (12 * c + q) + 2 ^ 32 * s.f F.ARB_WAITS_HI_COUNT (12 * c + q) + 1) % 2 ^ 48) ∧ t.dram = s.dram ∧
      ∀ (y : Fld) (i : Nat), y.outside [F.ARB_GRANTS_LO_COUNT, F.ARB_GRANTS_HI_COUNT, F.ARB_WAITS_LO_COUNT, F.ARB_WAITS_HI_COUNT, F.ARB_MAXWAIT_FCLK, F.ARB_EVENT_WRAP] → t.f y i = u.f y i) ∧
  (∀ (s u : State) (c r : Nat) (x : Xfer), c < 4 → s.chanOpen c = true → u = s.catchUp c → u.pickRequester c = some r → (u.mchan c).waiting.find? (fun y => decide (y.req = r)) = some x → u.permitted r (64 * x.line) x.write x.secure = false →
    ∃ t, exec (.ddrRequestGrant c) s = .next t ∧ (t.mchan c).granted = (u.mchan c).granted ∧ t.mem.response = some { req := r, line := x.line, write := x.write, code := 3 } ∧ t.f F.SEC_EVENT_REGION_DENIED 0 = 1 ∧ t.f F.SEC_REGION_DENIED_COUNT 0 = min (s.f F.SEC_REGION_DENIED_COUNT 0 + 1) (2 ^ 32 - 1) ∧
      (s.f F.SEC_EVENT_REGION_DENIED 0 ≠ 1 → t.f F.SEC_DENY_ADDR_LO_ADDR 0 = 64 * x.line % 2 ^ 32)) ∧
  (∀ (s : State) (c : Nat) (e : EccResult), c < 4 → s.ddrState c ≠ ddrReady ∨ (s.mchan c).granted = [] → exec (.ddrTransferComplete c e) s = .next (s.catchUp c)) ∧
  (∀ (s : State) (c : Nat), c < 4 → s.ddrState c ≠ ddrReady ∨ (s.mchan c).postponed = 0 ∨ ((s.mchan c).granted ≠ [] ∧ (s.mchan c).postponed ≤ min 4 (s.f F.DDR_REFRESH_POSTPONE c)) → s.catchUp c = s) ∧
  (∀ (s u : State) (c sub left : Nat) (x : Xfer) (e : EccResult), c < 4 → u = s.catchUp c → s.ddrState c = ddrReady → u.serveSub c = some sub → u.serveNext c sub = some (x, left) → x.write = true →
    ∃ t, exec (.ddrTransferComplete c e) s = .next t ∧ (t.mchan c).granted = (u.mchan c).granted.erase x ∧ (Tab.get [] (t.mchan c).replay sub).head? = some { line := x.line, req := x.req } ∧ Tab.get 0 (t.mchan c).rows (s.bankNo (64 * x.line)) = s.rowOf (64 * x.line) + 1 ∧
      x.line ∉ t.mem.poison ∧ t.mem.response = some { req := x.req, line := x.line, write := true, code := 0 } ∧ t.dram = s.dram ∧ Fields u [] t) ∧
  (∀ (s u : State) (c sub left : Nat) (x : Xfer) (e : EccResult), c < 4 → u = s.catchUp c → s.ddrState c = ddrReady → u.serveSub c = some sub → u.serveNext c sub = some (x, left) → x.write = false → u.writeQueued c x.line = true →
    ∃ t, exec (.ddrTransferComplete c e) s = .next t ∧ (t.mchan c).granted = (u.mchan c).granted.erase x ∧ (t.mchan c).rows = (u.mchan c).rows ∧ t.mem.poison = s.mem.poison ∧ t.mem.response = some { req := x.req, line := x.line, write := false, code := 0 } ∧ t.dram = s.dram ∧ Fields u [] t) ∧
  (∀ (s u : State) (c sub left : Nat) (x : Xfer) (e : EccResult), c < 4 → u = s.catchUp c → s.ddrState c = ddrReady → u.serveSub c = some sub → u.serveNext c sub = some (x, left) → x.write = false → u.writeQueued c x.line = false → e = .clean ∨ x.line ∈ s.mem.poison →
    ∃ t, exec (.ddrTransferComplete c e) s = .next t ∧ (t.mchan c).granted = (u.mchan c).granted.erase x ∧ Tab.get 0 (t.mchan c).rows (s.bankNo (64 * x.line)) = s.rowOf (64 * x.line) + 1 ∧ t.mem.poison = s.mem.poison ∧
      t.mem.response = some { req := x.req, line := x.line, write := false, code := if x.line ∈ s.mem.poison then 1 else 0 } ∧ t.dram = s.dram ∧ Fields u [] t) ∧
  (∀ (s u : State) (c sub left d : Nat) (x : Xfer), c < 4 → u = s.catchUp c → s.ddrState c = ddrReady → u.serveSub c = some sub → u.serveNext c sub = some (x, left) → x.write = false → u.writeQueued c x.line = false → x.line ∉ s.mem.poison →
    ∃ t, exec (.ddrTransferComplete c (.corrected d)) s = .next t ∧ (t.mchan c).granted = (u.mchan c).granted.erase x ∧ t.f F.DDR_CE_COUNT c = min (s.f F.DDR_CE_COUNT c + 1) (2 ^ 32 - 1) ∧ t.f F.DDR_EVENT_CE c = 1 ∧ t.f F.FLT_SRC_STATUS_ACTIVE 17 = 1 ∧ t.f F.FLT_SRC_STATUS_INSTANCE 17 = c ∧
      t.mem.poison = s.mem.poison ∧ t.mem.log = (if s.f F.DDR_LOG_STATUS_LOG_CE 0 = 1 ∧ s.mem.log.length < 64 then s.mem.log ++ [s.memLogEntry x.line 1 x.req d] else s.mem.log) ∧ t.mem.response = some { req := x.req, line := x.line, write := false, code := 0 } ∧ t.dram = s.dram) ∧
  (∀ (s u : State) (c sub left d : Nat) (x : Xfer), c < 4 → u = s.catchUp c → s.ddrState c = ddrReady → u.serveSub c = some sub → u.serveNext c sub = some (x, left) → x.write = false → u.writeQueued c x.line = false → x.line ∉ s.mem.poison →
    ∃ t, exec (.ddrTransferComplete c (.uncorrectable d)) s = .next t ∧ (t.mchan c).granted = (u.mchan c).granted.erase x ∧ t.f F.DDR_UE_COUNT c = min (s.f F.DDR_UE_COUNT c + 1) (2 ^ 32 - 1) ∧ t.f F.DDR_EVENT_UE c = 1 ∧ t.f F.FLT_SRC_STATUS_ACTIVE 18 = 1 ∧ t.f F.FLT_SRC_STATUS_INSTANCE 18 = c ∧
      x.line ∈ t.mem.poison ∧ t.mem.log = (if s.mem.log.length < 64 then s.mem.log ++ [s.memLogEntry x.line 2 x.req d] else s.mem.log) ∧ t.mem.response = some { req := x.req, line := x.line, write := false, code := 1 } ∧ t.dram = s.dram) ∧
  (∀ (s : State) (c : Nat), c < 4 → (s.mchan c).granted = [] → exec (.arbWatchdogExpire c) s = .next s) ∧
  (∀ (s : State) (c : Nat) (x : Xfer) (l : List Xfer), c < 4 → (s.mchan c).granted = x :: l →
    ∃ t, exec (.arbWatchdogExpire c) s = .next t ∧ (t.mchan c).granted = l ∧ t.mem.response = some { req := x.req, line := x.line, write := x.write, code := 2 } ∧ t.f F.ARB_REQ_CFG_EN (12 * c + x.req) = 0 ∧ (x.req < 12 → (t.f F.ARB_EVENT_WATCHDOG c).testBit x.req = true) ∧ t.f F.FLT_SRC_STATUS_ACTIVE 22 = 1 ∧
      t.f F.FLT_SRC_STATUS_INSTANCE 22 = (16 * c + x.req) % 65536 ∧ t.dram = (if x.write then (s.putDram (64 * x.line) x.before).dram else s.dram) ∧ ∀ (y : Fld) (i : Nat), y.outside ([F.ARB_REQ_CFG_EN, F.ARB_EVENT_WATCHDOG] ++ raiseFields) → t.f y i = s.f y i) ∧
  (∀ (s : State) (c : Nat), c < 4 → s.ddrState c ≠ ddrReady → s.ddrState c ≠ ddrRetraining → exec (.ddrRefreshDue c) s = .next s) ∧
  (∀ (s : State) (c : Nat), c < 4 → s.ddrState c = ddrRetraining ∨ (s.ddrState c = ddrReady ∧ (s.mchan c).granted ≠ [] ∧ (s.mchan c).postponed < min 4 (s.f F.DDR_REFRESH_POSTPONE c)) →
    exec (.ddrRefreshDue c) s = .next (s.setMchan c { s.mchan c with postponed := (s.mchan c).postponed + 1 })) ∧
  (∀ (s : State) (c : Nat), c < 4 → s.ddrState c = ddrReady → (s.mchan c).granted = [] ∨ min 4 (s.f F.DDR_REFRESH_POSTPONE c) ≤ (s.mchan c).postponed → s.f F.DDR_REFRESH_MODE c = 0 →
    ∃ t, exec (.ddrRefreshDue c) s = .next t ∧ (t.mchan c).rows = [] ∧ (t.mchan c).postponed = 0 ∧ (t.mchan c).delayNext = [] ∧ (t.mchan c).granted = (s.mchan c).granted ∧ (t.mchan c).active = (if s.f F.DDR_TIMING_ARM_SHADOW_ARMED c = 1 then (s.mchan c).shadow else (s.mchan c).active) ∧
      Fields s (if s.f F.DDR_TIMING_ARM_SHADOW_ARMED c = 1 then [(F.DDR_TIMING_ARM_SHADOW_ARMED, c, 0)] else []) t) ∧
  (∀ (s : State) (c : Nat), c < 4 → s.ddrState c = ddrReady → (s.mchan c).granted = [] ∨ min 4 (s.f F.DDR_REFRESH_POSTPONE c) ≤ (s.mchan c).postponed → s.f F.DDR_REFRESH_MODE c ≠ 0 →
    ∃ t, exec (.ddrRefreshDue c) s = .next t ∧ (t.mchan c).rows = (s.mchan c).rows.filter (fun e => decide (e.1 % 4 ≠ (s.mchan c).refBank)) ∧ (t.mchan c).refBank = ((s.mchan c).refBank + 1) % 2 ^ s.bankBits ∧ (t.mchan c).postponed = 0) ∧
  (∀ (s : State) (c b : Nat), c < 4 → (s.mchan c).granted.any (fun x => decide (s.bankNo (64 * x.line) = b) && s.rowHit c x) = true → exec (.ddrPageIdleExpire c b) s = .next s) ∧
  (∀ (s : State) (c b : Nat), c < 4 → (s.mchan c).granted.any (fun x => decide (s.bankNo (64 * x.line) = b) && s.rowHit c x) = false →
    exec (.ddrPageIdleExpire c b) s = .next (s.setMchan c { s.mchan c with rows := Tab.set 0 (s.mchan c).rows b 0 })) ∧
  (∀ (s : State) (c : Nat) (hot : Bool), c < 4 → s.ddrState c = ddrReady ∨ s.ddrState c = ddrRetraining → ∃ t, exec (.ddrTempPoll c hot) s = .next t ∧ Sets s [(F.DDR_STATUS_TEMP_2X, c, if hot then 1 else 0)] t) ∧
  (∀ (s : State) (c : Nat) (hot : Bool), c < 4 → s.ddrState c ≠ ddrReady → s.ddrState c ≠ ddrRetraining → exec (.ddrTempPoll c hot) s = .next s) ∧
  (∀ (s : State) (c : Nat) (e : EccResult), c < 4 → s.chanOpen c = false ∨ s.f F.DDR_CTRL_SCRUB_EN c ≠ 1 → exec (.ddrScrubRead c e) s = .next s) ∧
  (∀ (s : State) (c l : Nat) (e : EccResult), c < 4 → s.chanOpen c = true → s.f F.DDR_CTRL_SCRUB_EN c = 1 → l = s.channelLine c (s.mchan c).scrubAt → s.writeQueued c l = true ∨ s.readQueued c l = true ∨ (s.permitted 10 (64 * l) false true = true ∧ (e = .clean ∨ l ∈ s.mem.poison)) →
    exec (.ddrScrubRead c e) s = .next (s.setMchan c { s.mchan c with scrubAt := ((s.mchan c).scrubAt + 1) % s.channelLines })) ∧
  (∀ (s : State) (c l : Nat) (e : EccResult), c < 4 → s.chanOpen c = true → s.f F.DDR_CTRL_SCRUB_EN c = 1 → l = s.channelLine c (s.mchan c).scrubAt → s.writeQueued c l = false → s.readQueued c l = false → s.permitted 10 (64 * l) false true = false →
    ∃ t, exec (.ddrScrubRead c e) s = .next t ∧ (t.mchan c).scrubAt = ((s.mchan c).scrubAt + 1) % s.channelLines ∧ t.mem.response = some { req := 10, line := l, write := false, code := 3 } ∧ t.f F.SEC_EVENT_REGION_DENIED 0 = 1 ∧ t.mem.poison = s.mem.poison) ∧
  (∀ (s : State) (c l d : Nat), c < 4 → s.chanOpen c = true → s.f F.DDR_CTRL_SCRUB_EN c = 1 → l = s.channelLine c (s.mchan c).scrubAt → l ∉ s.mem.poison → s.writeQueued c l = false → s.readQueued c l = false → s.permitted 10 (64 * l) false true = true →
    ∃ t, exec (.ddrScrubRead c (.corrected d)) s = .next t ∧ (t.mchan c).scrubAt = ((s.mchan c).scrubAt + 1) % s.channelLines ∧ t.f F.DDR_CE_COUNT c = min (s.f F.DDR_CE_COUNT c + 1) (2 ^ 32 - 1) ∧ t.f F.DDR_EVENT_CE c = 1 ∧ t.f F.FLT_SRC_STATUS_ACTIVE 17 = 1 ∧ t.mem.poison = s.mem.poison ∧
      t.mem.log = (if s.f F.DDR_LOG_STATUS_LOG_CE 0 = 1 ∧ s.mem.log.length < 64 then s.mem.log ++ [s.memLogEntry l 3 10 d] else s.mem.log)) ∧
  (∀ (s : State) (c l d : Nat), c < 4 → s.chanOpen c = true → s.f F.DDR_CTRL_SCRUB_EN c = 1 → l = s.channelLine c (s.mchan c).scrubAt → l ∉ s.mem.poison → s.writeQueued c l = false → s.readQueued c l = false → s.permitted 10 (64 * l) false true = true →
    ∃ t, exec (.ddrScrubRead c (.uncorrectable d)) s = .next t ∧ (t.mchan c).scrubAt = ((s.mchan c).scrubAt + 1) % s.channelLines ∧ t.f F.DDR_UE_COUNT c = min (s.f F.DDR_UE_COUNT c + 1) (2 ^ 32 - 1) ∧ t.f F.DDR_EVENT_UE c = 1 ∧ t.f F.FLT_SRC_STATUS_ACTIVE 18 = 1 ∧ l ∈ t.mem.poison ∧
      t.mem.log = (if s.mem.log.length < 64 then s.mem.log ++ [s.memLogEntry l 4 10 d] else s.mem.log)) ∧
  (∀ (s : State) (c b k : Nat), c < 4 → b < 2 → (Tab.get [] (s.mchan c).replay b).length ≤ k → exec (.ddrWriteCrcAlert c b k) s = .next s) ∧
  (∀ (s : State) (c b k : Nat) (x : Replay), c < 4 → b < 2 → (Tab.get [] (s.mchan c).replay b)[k]? = some x → x.replays < 3 →
    ∃ t, exec (.ddrWriteCrcAlert c b k) s = .next t ∧ t.mchan c = { s.mchan c with replay := Tab.set [] (s.mchan c).replay b ((Tab.get [] (s.mchan c).replay b).take k ++ [{ x with replays := x.replays + 1 }] ++ (Tab.get [] (s.mchan c).replay b).drop (k + 1)) } ∧ t.dram = s.dram ∧
      t.f F.DDR_WCRC_RETRY_COUNT c = min (s.f F.DDR_WCRC_RETRY_COUNT c + (k + 1)) (2 ^ 32 - 1) ∧ ∀ (y : Fld) (i : Nat), y.outside [F.DDR_WCRC_RETRY_COUNT, F.DDR_CNT_SAT_SAT] → t.f y i = s.f y i) ∧
  (∀ (s : State) (c b k : Nat) (x : Replay), c < 4 → b < 2 → (Tab.get [] (s.mchan c).replay b)[k]? = some x → 3 ≤ x.replays →
    ∃ t, exec (.ddrWriteCrcAlert c b k) s = .next t ∧ t.mchan c = { s.mchan c with replay := Tab.set [] (s.mchan c).replay b ((Tab.get [] (s.mchan c).replay b).take k ++ (Tab.get [] (s.mchan c).replay b).drop (k + 1)), retrainDue := true } ∧
      t.f F.DDR_WCRC_RETRY_COUNT c = min (s.f F.DDR_WCRC_RETRY_COUNT c + k) (2 ^ 32 - 1) ∧ t.f F.DDR_WCRC_FAIL_COUNT c = min (s.f F.DDR_WCRC_FAIL_COUNT c + 1) (2 ^ 32 - 1) ∧ t.f F.DDR_EVENT_WCRC_FAIL c = 1 ∧
      t.f F.FLT_SRC_STATUS_ACTIVE 19 = 1 ∧ t.f F.FLT_SRC_STATUS_INSTANCE 19 = c ∧ t.mem.log = (if s.mem.log.length < 64 then s.mem.log ++ [s.memLogEntry x.line 5 x.req 15] else s.mem.log) ∧
      (((Tab.get [] (s.mchan c).replay b).take k).any (fun y => decide (y.line = x.line)) = true → t.dram = s.dram) ∧ ∀ a, a < 64 * x.line ∨ 64 * x.line + 64 ≤ a → Tab.get 0 t.dram a = Tab.get 0 s.dram a) ∧
  (∀ (s : State) (o : Origin) (w : Word), s.writeOk o .DDR_LOG_STATUS 0 = true → w.toNat / 2 ^ 31 = 1 →
    ∃ t, exec (.ddrLogClear o w) s = .next t ∧ Sets (s.withMem (fun x => { x with log := [] })) [(F.DDR_LOG_STATUS_COUNT, 0, 0), (F.DDR_LOG_STATUS_FULL, 0, 0), (F.DDR_LOG_STATUS_LOG_CE, 0, w.toNat / 512 % 2)] t) ∧
  (∀ (s : State) (o : Origin) (w : Word), s.writeOk o .DDR_LOG_STATUS 0 = true → w.toNat / 2 ^ 31 = 0 → ∃ t, exec (.ddrLogClear o w) s = .next t ∧ Sets s [(F.DDR_LOG_STATUS_LOG_CE, 0, w.toNat / 512 % 2)] t) ∧
  (∀ (s : State) (o : Origin) (c : Nat) (w : Word), c < 4 → s.writeOk o .DDR_CONFIG c = true → s.f F.DDR_CONFIG_LOCK c = 0 →
    ∃ t, exec (.ddrConfigLock o c w) s = .next t ∧ Sets s [(F.DDR_CONFIG_LOCK, c, w.toNat / 2 ^ 31), (F.DDR_CONFIG_TWO_CH, c, w.toNat / 2 ^ 12 % 2), (F.DDR_CONFIG_RANKS, c, w.toNat / 2 ^ 8 % 2), (F.DDR_CONFIG_DENSITY, c, w.toNat / 16 % 4), (F.DDR_CONFIG_SPEED, c, w.toNat % 4)] t) ∧
  (∀ (s : State) (o : Origin) (c : Nat) (w : Word), c < 4 → s.writeOk o .DDR_CONFIG c = true → s.f F.DDR_CONFIG_LOCK c = 1 → ∃ t, exec (.ddrConfigLock o c w) s = .next t ∧ Sets s [(F.DDR_CONFIG_LOCK, c, 1)] t)

/-- DDR_DRIFT_CHECK, DDR_RETRAIN_START, DDR_RETRAIN_DONE, DDR_TRAIN_START, DDR_TRAINING_DONE, DDR_FILL_START, DDR_FILL_DONE (R66, R303 to R306, R395, R404): drift makes a retrain due, which begins when it may and ends with its new delays taken together or its failure raised; the training of start-up ends READY with the fill begun, or FAILED with its fault; a fill leaves what requester 10 may write of its channel all zero. The model's choices that it rests on: log entries 67, 68 and 108. -/
def Obligations.TrainingEvents : Prop :=
  (∀ (s : State) (c d : Nat), c < 4 → s.ddrState c = ddrReady → s.stage = 4 → s.pwr.cpHalted = false → max 1 (s.f F.DDR_DRIFT_DRIFT_MAX c) < d →
    ∃ t, exec (.ddrDriftCheck c d) s = .next t ∧ Sets (s.setMchan c { s.mchan c with retrainDue := true }) [(F.DDR_EVENT_DRIFT, c, 1)] t) ∧
  (∀ (s : State) (c d : Nat), c < 4 → s.ddrState c ≠ ddrReady ∨ s.stage ≠ 4 ∨ s.pwr.cpHalted = true ∨ d ≤ max 1 (s.f F.DDR_DRIFT_DRIFT_MAX c) → exec (.ddrDriftCheck c d) s = .next s) ∧
  (∀ (s : State) (c : Nat), c < 4 → (s.mchan c).retrainDue = true → s.ddrState c = ddrReady → s.mayPause = true → s.inHandover = false →
    ∃ t, exec (.ddrRetrainStart c) s = .next t ∧ Sets ((s.setMchan c { s.mchan c with retrainDue := false }).withMem (fun x => { x with gapUsed := true })) [(F.DDR_STATUS_STATE, c, 3), (F.DDR_TRAIN_BUSY, c, 1)] t) ∧
  (∀ (s : State) (c : Nat), c < 4 → (s.mchan c).retrainDue = false ∨ s.ddrState c ≠ ddrReady ∨ s.mayPause = false ∨ s.inHandover = true → exec (.ddrRetrainStart c) s = .next s) ∧
  (∀ (s : State) (c : Nat) (l : List LaneSweep), c < 4 → s.ddrState c ≠ ddrRetraining → exec (.ddrRetrainDone c l) s = .next s) ∧
  (∀ (s : State) (c : Nat) (l : List LaneSweep), c < 4 → s.ddrState c = ddrRetraining → (∀ k ∈ s.laneSlots c, s.laneResult c true l k ≠ none) →
    ∃ t, exec (.ddrRetrainDone c l) s = .next t ∧ t.f F.DDR_STATUS_STATE c = 2 ∧ t.f F.DDR_TRAIN_BUSY c = 0 ∧ t.f F.DDR_TRAIN_RESULT c = 1 ∧ (∀ k ∈ s.laneSlots c, some (Tab.get 0 (t.mchan c).delays k) = (s.laneResult c true l k).map (·.1)) ∧ t.dram = s.dram ∧
      ∀ (y : Fld) (i : Nat), y.outside [F.DDR_STATUS_STATE, F.DDR_TRAIN_BUSY, F.DDR_TRAIN_RESULT, F.MBX_STATUS_JOB_DONE] → t.f y i = s.f y i) ∧
  (∀ (s : State) (c j : Nat) (l : List LaneSweep), c < 4 → s.ddrState c = ddrRetraining → j ∈ s.laneSlots c → s.laneResult c true l j = none →
    ∃ t, exec (.ddrRetrainDone c l) s = .next t ∧ t.f F.DDR_STATUS_STATE c = 2 ∧ t.f F.DDR_TRAIN_BUSY c = 0 ∧ t.f F.DDR_TRAIN_RESULT c = 2 ∧ t.f F.DDR_EVENT_RETRAIN_FAIL c = 1 ∧ t.f F.FLT_SRC_STATUS_ACTIVE 20 = 1 ∧ t.f F.FLT_SRC_STATUS_INSTANCE 20 = c ∧
      Tab.get 0 (t.mchan c).delays j = Tab.get 0 (s.mchan c).delays j ∧ t.dram = s.dram) ∧
  (∀ (s : State) (o : Origin) (c : Nat) (w : Word), c < 4 → s.writeOk o .DDR_TRAIN c = true → w.toNat / 2 ^ 31 = 1 → s.ddrState c = ddrReady →
    ∃ t, exec (.ddrTrainStart o c w) s = .next t ∧ Sets (s.setMchan c { s.mchan c with retrainDue := false }) [(F.DDR_TRAIN_EYE_MIN, c, w.toNat % 128), (F.DDR_STATUS_STATE, c, 3), (F.DDR_TRAIN_BUSY, c, 1)] t) ∧
  (∀ (s : State) (o : Origin) (c : Nat) (w : Word), c < 4 → s.writeOk o .DDR_TRAIN c = true → w.toNat / 2 ^ 31 = 1 → s.ddrState c = ddrSelfRefresh →
    ∃ t, exec (.ddrTrainStart o c w) s = .next t ∧ Sets (s.setMchan c { s.mchan c with retrainDue := true }) [(F.DDR_TRAIN_EYE_MIN, c, w.toNat % 128)] t) ∧
  (∀ (s : State) (o : Origin) (c : Nat) (w : Word), c < 4 → s.writeOk o .DDR_TRAIN c = true → w.toNat / 2 ^ 31 = 0 ∨ (s.ddrState c ≠ ddrReady ∧ s.ddrState c ≠ ddrSelfRefresh) →
    ∃ t, exec (.ddrTrainStart o c w) s = .next t ∧ Sets s [(F.DDR_TRAIN_EYE_MIN, c, w.toNat % 128)] t) ∧
  (∀ (s : State) (c : Nat) (l : List LaneSweep), c < 4 → s.ddrState c ≠ ddrTraining → exec (.ddrTrainingDone c l) s = .next s) ∧
  (∀ (s : State) (c : Nat) (l : List LaneSweep), c < 4 → s.ddrState c = ddrTraining →
    ∃ t, exec (.ddrTrainingDone c l) s = .next t ∧ t.f F.DDR_TRAIN_BUSY c = 0 ∧ (t.mchan c).restored = [] ∧ t.dram = s.dram ∧ ((t.f F.DDR_STATUS_STATE c = 2 ∧ t.f F.DDR_TRAIN_RESULT c = 1 ∧ t.f F.DDR_FILL_BUSY c = 1) ∨ (t.f F.DDR_STATUS_STATE c = 5 ∧ t.f F.DDR_TRAIN_RESULT c = 2)) ∧
      (s.snapshotServes c = true → t.f F.DDR_STATUS_STATE c = 2 ∧ ∀ k ∈ s.laneSlots c, some (Tab.get 0 (t.mchan c).delays k) = Tab.get none (s.mchan c).restored k)) ∧
  (∀ (s : State) (c : Nat) (l : List LaneSweep), c < 4 → s.ddrState c = ddrTraining → s.snapshotServes c = false → (∀ k ∈ s.laneSlots c, s.laneResult c false l k ≠ none) →
    ∃ t, exec (.ddrTrainingDone c l) s = .next t ∧ (∀ k ∈ s.laneSlots c, some (Tab.get 0 (t.mchan c).delays k) = (s.laneResult c false l k).map (·.1)) ∧ t.dram = s.dram ∧
      Fields s [(F.DDR_STATUS_STATE, c, 2), (F.DDR_TRAIN_BUSY, c, 0), (F.DDR_TRAIN_RESULT, c, 1), (F.DDR_FILL_BUSY, c, 1)] t) ∧
  (∀ (s : State) (c j : Nat) (l : List LaneSweep), c < 4 → s.ddrState c = ddrTraining → s.snapshotServes c = false → j ∈ s.laneSlots c → s.laneResult c false l j = none →
    ∃ t, exec (.ddrTrainingDone c l) s = .next t ∧ t.f F.DDR_STATUS_STATE c = 5 ∧ t.f F.DDR_TRAIN_BUSY c = 0 ∧ t.f F.DDR_TRAIN_RESULT c = 2 ∧ t.f F.FLT_SRC_STATUS_ACTIVE 21 = 1 ∧ t.f F.FLT_SRC_STATUS_INSTANCE 21 = c ∧ t.dram = s.dram) ∧
  (∀ (s : State) (o : Origin) (c : Nat) (w : Word), c < 4 → s.writeOk o .DDR_FILL c = true → w.toNat / 2 ^ 31 = 1 → s.f F.DDR_CTRL_EN c ≠ 1 → s.ddrState c = ddrReady → ∃ t, exec (.ddrFillStart o c w) s = .next t ∧ Sets s [(F.DDR_FILL_BUSY, c, 1)] t) ∧
  (∀ (s : State) (o : Origin) (c : Nat) (w : Word), c < 4 → s.writeOk o .DDR_FILL c = true → w.toNat / 2 ^ 31 = 0 ∨ s.f F.DDR_CTRL_EN c = 1 ∨ s.ddrState c ≠ ddrReady → exec (.ddrFillStart o c w) s = .next s) ∧
  (∀ (s : State) (c : Nat), c < 4 → s.f F.DDR_FILL_BUSY c ≠ 1 → exec (.ddrFillDone c) s = .next s) ∧
  (∀ (s : State) (c : Nat), c < 4 → s.f F.DDR_FILL_BUSY c = 1 →
    ∃ t, exec (.ddrFillDone c) s = .next t ∧ t.dram = s.dram.filter (fun e => decide (s.channelOf e.1 ≠ c) || !s.permitted 10 e.1 true true) ∧ t.mem.poison = s.mem.poison.filter (fun k => decide (s.channelOf (64 * k) ≠ c) || !s.permitted 10 (64 * k) true true) ∧ t.haul = s.haul ∧ t.codec = s.codec ∧
      Fields s ((F.DDR_FILL_BUSY, c, 0) :: if s.stage = 3 then [(F.DDR_CTRL_EN, c, 1)] else []) t)
end

