-- ==== Sys2Proof/Laws/Tab.lean ====
section
/-! SUPPORT. What the operations on sparse tables do: a read after a write, and the canonical form kept. -/

set_option Elab.async false

namespace Sys2Proof.Machine.Tab
variable {α : Type}

theorem get_del (d : α) (t : Tab α) (k j : Nat) :
    get d (del t k) j = if j = k then d else get d t j := by
  induction t with
  | nil => simp [del, get]
  | cons e r ih =>
    obtain ⟨a, v⟩ := e
    simp only [del] at ih ⊢
    by_cases ha : a = k
    · subst ha
      by_cases hj : a = j
      · subst hj; simp [ih]
      · have : ¬ j = a := fun h => hj h.symm
        simp [ih, get, hj, this]
    · by_cases hj : a = j
      · subst hj; simp [get, ha]
      · simp [get, ha, hj, ih]

theorem get_ins (d : α) (t : Tab α) (k j : Nat) (v : α) (h : ∀ e ∈ t, e.1 ≠ k) :
    get d (ins t k v) j = if j = k then v else get d t j := by
  induction t with
  | nil => simp [ins, get, eq_comm]
  | cons e r ih =>
    obtain ⟨a, u⟩ := e
    have ha : a ≠ k := h (a, u) (by simp)
    have hr : ∀ e ∈ r, e.1 ≠ k := fun e he => h e (by simp [he])
    by_cases hlt : k < a
    · by_cases hj : j = k
      · subst hj; simp [ins, hlt, get]
      · have : ¬ k = j := fun h => hj h.symm
        simp [ins, hlt, get, this, hj]
    · by_cases hj : a = j
      · subst hj; simp [ins, hlt, get, ha]
      · simp [ins, hlt, get, hj, ih hr]

theorem ne_of_mem_del {t : Tab α} {k : Nat} {e : Nat × α} (h : e ∈ del t k) : e.1 ≠ k := by
  have := (List.mem_filter.mp h).2
  simpa using this

/-- A read after a write: the key written holds the value, every other key what it held. -/
theorem get_set [DecidableEq α] (d : α) (t : Tab α) (k j : Nat) (v : α) :
    get d (set d t k v) j = if j = k then v else get d t j := by
  unfold set
  split
  · next hv => subst hv; rw [get_del]
  · rw [get_ins _ _ _ _ _ (fun e he => ne_of_mem_del he), get_del]
    split <;> rfl

@[simp] theorem get_set_same [DecidableEq α] (d : α) (t : Tab α) (k : Nat) (v : α) :
    get d (set d t k v) k = v := by simp [get_set]

theorem get_set_ne [DecidableEq α] (d : α) (t : Tab α) {k j : Nat} (v : α) (h : j ≠ k) :
    get d (set d t k v) j = get d t j := by simp [get_set, h]

/-- The same where the key read has another default than the key written. -/
theorem get_set_other [DecidableEq α] (d c : α) (t : Tab α) {k j : Nat} (v : α) (h : j ≠ k) :
    get d (set c t k v) j = get d t j := by
  unfold set
  split
  · rw [get_del, if_neg h]
  · rw [get_ins _ _ _ _ _ (fun e he => ne_of_mem_del he), if_neg h, get_del, if_neg h]

@[simp] theorem get_nil (d : α) (k : Nat) : get d ([] : Tab α) k = d := rfl

theorem wf_cons [DecidableEq α] (d : α) (k : Nat) (v : α) (r : Tab α) :
    wf d ((k, v) :: r) = true ↔ v ≠ d ∧ (∀ e ∈ r, k < e.1) ∧ wf d r = true := by
  simp [wf, and_assoc]

theorem wf_filter [DecidableEq α] (d : α) (t : Tab α) (p : Nat × α → Bool) (h : wf d t = true) :
    wf d (t.filter p) = true := by
  induction t with
  | nil => simpa using h
  | cons e r ih =>
    obtain ⟨k, v⟩ := e
    obtain ⟨hv, hk, hr⟩ := (wf_cons d k v r).mp h
    by_cases hp : p (k, v)
    · simp only [List.filter_cons, hp, if_true]
      exact (wf_cons d k v _).mpr ⟨hv, fun e he => hk e (List.mem_filter.mp he).1, ih hr⟩
    · simp [hp, ih hr]

theorem mem_ins {t : Tab α} {k : Nat} {v : α} {e : Nat × α} (h : e ∈ ins t k v) :
    e = (k, v) ∨ e ∈ t := by
  induction t with
  | nil => simpa [ins] using h
  | cons a r ih =>
    obtain ⟨j, u⟩ := a
    by_cases hlt : k < j
    · simpa [ins, hlt] using h
    · simp only [ins, hlt, if_false, List.mem_cons] at h
      rcases h with h | h
      · simp [h]
      · rcases ih h with h | h <;> simp [h]

theorem wf_ins [DecidableEq α] (d : α) (t : Tab α) (k : Nat) (v : α) (hv : v ≠ d)
    (hk : ∀ e ∈ t, e.1 ≠ k) (h : wf d t = true) : wf d (ins t k v) = true := by
  induction t with
  | nil => simp [ins, wf, hv]
  | cons a r ih =>
    obtain ⟨j, u⟩ := a
    obtain ⟨hu, hj, hr⟩ := (wf_cons d j u r).mp h
    have hjk : j ≠ k := hk (j, u) (by simp)
    by_cases hlt : k < j
    · simp only [ins, hlt, if_true]
      refine (wf_cons d k v _).mpr ⟨hv, fun e he => ?_, h⟩
      rcases List.mem_cons.mp he with rfl | he
      · exact hlt
      · exact lt_trans hlt (hj e he)
    · simp only [ins, hlt, if_false]
      refine (wf_cons d j u _).mpr ⟨hu, fun e he => ?_, ih (fun e he => hk e (by simp [he])) hr⟩
      rcases mem_ins he with rfl | he
      · simp only; omega
      · exact hj e he

/-- A write keeps the canonical form. -/
theorem wf_set [DecidableEq α] (d : α) (t : Tab α) (k : Nat) (v : α) (h : wf d t = true) :
    wf d (set d t k v) = true := by
  unfold set
  split
  · exact wf_filter d t _ h
  · next hv => exact wf_ins d _ k v hv (fun e he => ne_of_mem_del he) (wf_filter d t _ h)

/-- Writes of consecutive keys keep the canonical form. -/
theorem wf_setList [DecidableEq α] (d : α) (t : Tab α) (a : Nat) (vs : List α) (h : wf d t = true) :
    wf d (setList d t a vs) = true := by
  induction vs generalizing t a with
  | nil => exact h
  | cons v r ih => exact ih _ _ (wf_set d t a v h)

/-- A run of writes leaves every key outside the run alone. -/
theorem get_setList_outside [DecidableEq α] (d : α) (t : Tab α) (a j : Nat) (vs : List α)
    (h : j < a ∨ a + vs.length ≤ j) : get d (setList d t a vs) j = get d t j := by
  induction vs generalizing t a with
  | nil => rfl
  | cons v r ih =>
    simp only [List.length_cons] at h
    rw [setList, ih _ _ (by omega), get_set_ne _ _ _ (by omega)]

/-- A run of writes is read back. -/
theorem get_setList_inside [DecidableEq α] (d : α) (t : Tab α) (a i : Nat) (vs : List α)
    (h : i < vs.length) : get d (setList d t a vs) (a + i) = vs[i] := by
  induction vs generalizing t a i with
  | nil => simp at h
  | cons v r ih =>
    cases i with
    | zero => rw [setList, get_setList_outside _ _ _ _ _ (by omega)]; simp
    | succ i =>
      have := ih (set d t a v) (a + 1) i (by simpa using h)
      simpa [setList, Nat.add_assoc, Nat.add_comm 1 i] using this

end Sys2Proof.Machine.Tab
end

