-- ==== Sys2Proof/Laws/State.lean ====
section
/-! SUPPORT. The state record: what each part of it is after an update of a part, register fields after a write, and the view of memories and queue that most operations leave alone. The equations hold by rfl; their proofs are written as a composition, so that simp does not use them up to unfolding. -/

set_option Elab.async false

namespace Sys2Proof.Machine


-- `withFw` changes `fw` only.
@[simp] theorem State.withFw_regs (s : State) (g : FwState → FwState) : (s.withFw g).regs = s.regs := Eq.trans rfl rfl
@[simp] theorem State.withFw_latch (s : State) (g : FwState → FwState) : (s.withFw g).latch = s.latch := Eq.trans rfl rfl
@[simp] theorem State.withFw_readData (s : State) (g : FwState → FwState) : (s.withFw g).readData = s.readData := Eq.trans rfl rfl
@[simp] theorem State.withFw_dram (s : State) (g : FwState → FwState) : (s.withFw g).dram = s.dram := Eq.trans rfl rfl
@[simp] theorem State.withFw_flash (s : State) (g : FwState → FwState) : (s.withFw g).flash = s.flash := Eq.trans rfl rfl
@[simp] theorem State.withFw_otp (s : State) (g : FwState → FwState) : (s.withFw g).otp = s.otp := Eq.trans rfl rfl
@[simp] theorem State.withFw_otpBad (s : State) (g : FwState → FwState) : (s.withFw g).otpBad = s.otpBad := Eq.trans rfl rfl
@[simp] theorem State.withFw_conf (s : State) (g : FwState → FwState) : (s.withFw g).conf = s.conf := Eq.trans rfl rfl
@[simp] theorem State.withFw_fw (s : State) (g : FwState → FwState) : (s.withFw g).fw = g s.fw := Eq.trans rfl rfl
@[simp] theorem State.withFw_intc (s : State) (g : FwState → FwState) : (s.withFw g).intc = s.intc := Eq.trans rfl rfl
@[simp] theorem State.withFw_flt (s : State) (g : FwState → FwState) : (s.withFw g).flt = s.flt := Eq.trans rfl rfl
@[simp] theorem State.withFw_pwr (s : State) (g : FwState → FwState) : (s.withFw g).pwr = s.pwr := Eq.trans rfl rfl
@[simp] theorem State.withFw_aon (s : State) (g : FwState → FwState) : (s.withFw g).aon = s.aon := Eq.trans rfl rfl
@[simp] theorem State.withFw_sec (s : State) (g : FwState → FwState) : (s.withFw g).sec = s.sec := Eq.trans rfl rfl
@[simp] theorem State.withFw_time (s : State) (g : FwState → FwState) : (s.withFw g).time = s.time := Eq.trans rfl rfl
@[simp] theorem State.withFw_lamp (s : State) (g : FwState → FwState) : (s.withFw g).lamp = s.lamp := Eq.trans rfl rfl
@[simp] theorem State.withFw_codec (s : State) (g : FwState → FwState) : (s.withFw g).codec = s.codec := Eq.trans rfl rfl
@[simp] theorem State.withFw_q (s : State) (g : FwState → FwState) : (s.withFw g).q = s.q := Eq.trans rfl rfl
@[simp] theorem State.withFw_haul (s : State) (g : FwState → FwState) : (s.withFw g).haul = s.haul := Eq.trans rfl rfl
@[simp] theorem State.withFw_lane (s : State) (g : FwState → FwState) : (s.withFw g).lane = s.lane := Eq.trans rfl rfl
@[simp] theorem State.withFw_mem (s : State) (g : FwState → FwState) : (s.withFw g).mem = s.mem := Eq.trans rfl rfl
@[simp] theorem State.withFw_free (s : State) (g : FwState → FwState) : (s.withFw g).free = s.free := Eq.trans rfl rfl
@[simp] theorem State.withFw_pending (s : State) (g : FwState → FwState) : (s.withFw g).pending = s.pending := Eq.trans rfl rfl

-- `withIntc` changes `intc` only.
@[simp] theorem State.withIntc_regs (s : State) (g : IntcState → IntcState) : (s.withIntc g).regs = s.regs := Eq.trans rfl rfl
@[simp] theorem State.withIntc_latch (s : State) (g : IntcState → IntcState) : (s.withIntc g).latch = s.latch := Eq.trans rfl rfl
@[simp] theorem State.withIntc_readData (s : State) (g : IntcState → IntcState) : (s.withIntc g).readData = s.readData := Eq.trans rfl rfl
@[simp] theorem State.withIntc_dram (s : State) (g : IntcState → IntcState) : (s.withIntc g).dram = s.dram := Eq.trans rfl rfl
@[simp] theorem State.withIntc_flash (s : State) (g : IntcState → IntcState) : (s.withIntc g).flash = s.flash := Eq.trans rfl rfl
@[simp] theorem State.withIntc_otp (s : State) (g : IntcState → IntcState) : (s.withIntc g).otp = s.otp := Eq.trans rfl rfl
@[simp] theorem State.withIntc_otpBad (s : State) (g : IntcState → IntcState) : (s.withIntc g).otpBad = s.otpBad := Eq.trans rfl rfl
@[simp] theorem State.withIntc_conf (s : State) (g : IntcState → IntcState) : (s.withIntc g).conf = s.conf := Eq.trans rfl rfl
@[simp] theorem State.withIntc_fw (s : State) (g : IntcState → IntcState) : (s.withIntc g).fw = s.fw := Eq.trans rfl rfl
@[simp] theorem State.withIntc_intc (s : State) (g : IntcState → IntcState) : (s.withIntc g).intc = g s.intc := Eq.trans rfl rfl
@[simp] theorem State.withIntc_flt (s : State) (g : IntcState → IntcState) : (s.withIntc g).flt = s.flt := Eq.trans rfl rfl
@[simp] theorem State.withIntc_pwr (s : State) (g : IntcState → IntcState) : (s.withIntc g).pwr = s.pwr := Eq.trans rfl rfl
@[simp] theorem State.withIntc_aon (s : State) (g : IntcState → IntcState) : (s.withIntc g).aon = s.aon := Eq.trans rfl rfl
@[simp] theorem State.withIntc_sec (s : State) (g : IntcState → IntcState) : (s.withIntc g).sec = s.sec := Eq.trans rfl rfl
@[simp] theorem State.withIntc_time (s : State) (g : IntcState → IntcState) : (s.withIntc g).time = s.time := Eq.trans rfl rfl
@[simp] theorem State.withIntc_lamp (s : State) (g : IntcState → IntcState) : (s.withIntc g).lamp = s.lamp := Eq.trans rfl rfl
@[simp] theorem State.withIntc_codec (s : State) (g : IntcState → IntcState) : (s.withIntc g).codec = s.codec := Eq.trans rfl rfl
@[simp] theorem State.withIntc_q (s : State) (g : IntcState → IntcState) : (s.withIntc g).q = s.q := Eq.trans rfl rfl
@[simp] theorem State.withIntc_haul (s : State) (g : IntcState → IntcState) : (s.withIntc g).haul = s.haul := Eq.trans rfl rfl
@[simp] theorem State.withIntc_lane (s : State) (g : IntcState → IntcState) : (s.withIntc g).lane = s.lane := Eq.trans rfl rfl
@[simp] theorem State.withIntc_mem (s : State) (g : IntcState → IntcState) : (s.withIntc g).mem = s.mem := Eq.trans rfl rfl
@[simp] theorem State.withIntc_free (s : State) (g : IntcState → IntcState) : (s.withIntc g).free = s.free := Eq.trans rfl rfl
@[simp] theorem State.withIntc_pending (s : State) (g : IntcState → IntcState) : (s.withIntc g).pending = s.pending := Eq.trans rfl rfl

-- `withFlt` changes `flt` only.
@[simp] theorem State.withFlt_regs (s : State) (g : FltState → FltState) : (s.withFlt g).regs = s.regs := Eq.trans rfl rfl
@[simp] theorem State.withFlt_latch (s : State) (g : FltState → FltState) : (s.withFlt g).latch = s.latch := Eq.trans rfl rfl
@[simp] theorem State.withFlt_readData (s : State) (g : FltState → FltState) : (s.withFlt g).readData = s.readData := Eq.trans rfl rfl
@[simp] theorem State.withFlt_dram (s : State) (g : FltState → FltState) : (s.withFlt g).dram = s.dram := Eq.trans rfl rfl
@[simp] theorem State.withFlt_flash (s : State) (g : FltState → FltState) : (s.withFlt g).flash = s.flash := Eq.trans rfl rfl
@[simp] theorem State.withFlt_otp (s : State) (g : FltState → FltState) : (s.withFlt g).otp = s.otp := Eq.trans rfl rfl
@[simp] theorem State.withFlt_otpBad (s : State) (g : FltState → FltState) : (s.withFlt g).otpBad = s.otpBad := Eq.trans rfl rfl
@[simp] theorem State.withFlt_conf (s : State) (g : FltState → FltState) : (s.withFlt g).conf = s.conf := Eq.trans rfl rfl
@[simp] theorem State.withFlt_fw (s : State) (g : FltState → FltState) : (s.withFlt g).fw = s.fw := Eq.trans rfl rfl
@[simp] theorem State.withFlt_intc (s : State) (g : FltState → FltState) : (s.withFlt g).intc = s.intc := Eq.trans rfl rfl
@[simp] theorem State.withFlt_flt (s : State) (g : FltState → FltState) : (s.withFlt g).flt = g s.flt := Eq.trans rfl rfl
@[simp] theorem State.withFlt_pwr (s : State) (g : FltState → FltState) : (s.withFlt g).pwr = s.pwr := Eq.trans rfl rfl
@[simp] theorem State.withFlt_aon (s : State) (g : FltState → FltState) : (s.withFlt g).aon = s.aon := Eq.trans rfl rfl
@[simp] theorem State.withFlt_sec (s : State) (g : FltState → FltState) : (s.withFlt g).sec = s.sec := Eq.trans rfl rfl
@[simp] theorem State.withFlt_time (s : State) (g : FltState → FltState) : (s.withFlt g).time = s.time := Eq.trans rfl rfl
@[simp] theorem State.withFlt_lamp (s : State) (g : FltState → FltState) : (s.withFlt g).lamp = s.lamp := Eq.trans rfl rfl
@[simp] theorem State.withFlt_codec (s : State) (g : FltState → FltState) : (s.withFlt g).codec = s.codec := Eq.trans rfl rfl
@[simp] theorem State.withFlt_q (s : State) (g : FltState → FltState) : (s.withFlt g).q = s.q := Eq.trans rfl rfl
@[simp] theorem State.withFlt_haul (s : State) (g : FltState → FltState) : (s.withFlt g).haul = s.haul := Eq.trans rfl rfl
@[simp] theorem State.withFlt_lane (s : State) (g : FltState → FltState) : (s.withFlt g).lane = s.lane := Eq.trans rfl rfl
@[simp] theorem State.withFlt_mem (s : State) (g : FltState → FltState) : (s.withFlt g).mem = s.mem := Eq.trans rfl rfl
@[simp] theorem State.withFlt_free (s : State) (g : FltState → FltState) : (s.withFlt g).free = s.free := Eq.trans rfl rfl
@[simp] theorem State.withFlt_pending (s : State) (g : FltState → FltState) : (s.withFlt g).pending = s.pending := Eq.trans rfl rfl

-- `withPwr` changes `pwr` only.
@[simp] theorem State.withPwr_regs (s : State) (g : PwrState → PwrState) : (s.withPwr g).regs = s.regs := Eq.trans rfl rfl
@[simp] theorem State.withPwr_latch (s : State) (g : PwrState → PwrState) : (s.withPwr g).latch = s.latch := Eq.trans rfl rfl
@[simp] theorem State.withPwr_readData (s : State) (g : PwrState → PwrState) : (s.withPwr g).readData = s.readData := Eq.trans rfl rfl
@[simp] theorem State.withPwr_dram (s : State) (g : PwrState → PwrState) : (s.withPwr g).dram = s.dram := Eq.trans rfl rfl
@[simp] theorem State.withPwr_flash (s : State) (g : PwrState → PwrState) : (s.withPwr g).flash = s.flash := Eq.trans rfl rfl
@[simp] theorem State.withPwr_otp (s : State) (g : PwrState → PwrState) : (s.withPwr g).otp = s.otp := Eq.trans rfl rfl
@[simp] theorem State.withPwr_otpBad (s : State) (g : PwrState → PwrState) : (s.withPwr g).otpBad = s.otpBad := Eq.trans rfl rfl
@[simp] theorem State.withPwr_conf (s : State) (g : PwrState → PwrState) : (s.withPwr g).conf = s.conf := Eq.trans rfl rfl
@[simp] theorem State.withPwr_fw (s : State) (g : PwrState → PwrState) : (s.withPwr g).fw = s.fw := Eq.trans rfl rfl
@[simp] theorem State.withPwr_intc (s : State) (g : PwrState → PwrState) : (s.withPwr g).intc = s.intc := Eq.trans rfl rfl
@[simp] theorem State.withPwr_flt (s : State) (g : PwrState → PwrState) : (s.withPwr g).flt = s.flt := Eq.trans rfl rfl
@[simp] theorem State.withPwr_pwr (s : State) (g : PwrState → PwrState) : (s.withPwr g).pwr = g s.pwr := Eq.trans rfl rfl
@[simp] theorem State.withPwr_aon (s : State) (g : PwrState → PwrState) : (s.withPwr g).aon = s.aon := Eq.trans rfl rfl
@[simp] theorem State.withPwr_sec (s : State) (g : PwrState → PwrState) : (s.withPwr g).sec = s.sec := Eq.trans rfl rfl
@[simp] theorem State.withPwr_time (s : State) (g : PwrState → PwrState) : (s.withPwr g).time = s.time := Eq.trans rfl rfl
@[simp] theorem State.withPwr_lamp (s : State) (g : PwrState → PwrState) : (s.withPwr g).lamp = s.lamp := Eq.trans rfl rfl
@[simp] theorem State.withPwr_codec (s : State) (g : PwrState → PwrState) : (s.withPwr g).codec = s.codec := Eq.trans rfl rfl
@[simp] theorem State.withPwr_q (s : State) (g : PwrState → PwrState) : (s.withPwr g).q = s.q := Eq.trans rfl rfl
@[simp] theorem State.withPwr_haul (s : State) (g : PwrState → PwrState) : (s.withPwr g).haul = s.haul := Eq.trans rfl rfl
@[simp] theorem State.withPwr_lane (s : State) (g : PwrState → PwrState) : (s.withPwr g).lane = s.lane := Eq.trans rfl rfl
@[simp] theorem State.withPwr_mem (s : State) (g : PwrState → PwrState) : (s.withPwr g).mem = s.mem := Eq.trans rfl rfl
@[simp] theorem State.withPwr_free (s : State) (g : PwrState → PwrState) : (s.withPwr g).free = s.free := Eq.trans rfl rfl
@[simp] theorem State.withPwr_pending (s : State) (g : PwrState → PwrState) : (s.withPwr g).pending = s.pending := Eq.trans rfl rfl

-- `withAon` changes `aon` only.
@[simp] theorem State.withAon_regs (s : State) (g : AonState → AonState) : (s.withAon g).regs = s.regs := Eq.trans rfl rfl
@[simp] theorem State.withAon_latch (s : State) (g : AonState → AonState) : (s.withAon g).latch = s.latch := Eq.trans rfl rfl
@[simp] theorem State.withAon_readData (s : State) (g : AonState → AonState) : (s.withAon g).readData = s.readData := Eq.trans rfl rfl
@[simp] theorem State.withAon_dram (s : State) (g : AonState → AonState) : (s.withAon g).dram = s.dram := Eq.trans rfl rfl
@[simp] theorem State.withAon_flash (s : State) (g : AonState → AonState) : (s.withAon g).flash = s.flash := Eq.trans rfl rfl
@[simp] theorem State.withAon_otp (s : State) (g : AonState → AonState) : (s.withAon g).otp = s.otp := Eq.trans rfl rfl
@[simp] theorem State.withAon_otpBad (s : State) (g : AonState → AonState) : (s.withAon g).otpBad = s.otpBad := Eq.trans rfl rfl
@[simp] theorem State.withAon_conf (s : State) (g : AonState → AonState) : (s.withAon g).conf = s.conf := Eq.trans rfl rfl
@[simp] theorem State.withAon_fw (s : State) (g : AonState → AonState) : (s.withAon g).fw = s.fw := Eq.trans rfl rfl
@[simp] theorem State.withAon_intc (s : State) (g : AonState → AonState) : (s.withAon g).intc = s.intc := Eq.trans rfl rfl
@[simp] theorem State.withAon_flt (s : State) (g : AonState → AonState) : (s.withAon g).flt = s.flt := Eq.trans rfl rfl
@[simp] theorem State.withAon_pwr (s : State) (g : AonState → AonState) : (s.withAon g).pwr = s.pwr := Eq.trans rfl rfl
@[simp] theorem State.withAon_aon (s : State) (g : AonState → AonState) : (s.withAon g).aon = g s.aon := Eq.trans rfl rfl
@[simp] theorem State.withAon_sec (s : State) (g : AonState → AonState) : (s.withAon g).sec = s.sec := Eq.trans rfl rfl
@[simp] theorem State.withAon_time (s : State) (g : AonState → AonState) : (s.withAon g).time = s.time := Eq.trans rfl rfl
@[simp] theorem State.withAon_lamp (s : State) (g : AonState → AonState) : (s.withAon g).lamp = s.lamp := Eq.trans rfl rfl
@[simp] theorem State.withAon_codec (s : State) (g : AonState → AonState) : (s.withAon g).codec = s.codec := Eq.trans rfl rfl
@[simp] theorem State.withAon_q (s : State) (g : AonState → AonState) : (s.withAon g).q = s.q := Eq.trans rfl rfl
@[simp] theorem State.withAon_haul (s : State) (g : AonState → AonState) : (s.withAon g).haul = s.haul := Eq.trans rfl rfl
@[simp] theorem State.withAon_lane (s : State) (g : AonState → AonState) : (s.withAon g).lane = s.lane := Eq.trans rfl rfl
@[simp] theorem State.withAon_mem (s : State) (g : AonState → AonState) : (s.withAon g).mem = s.mem := Eq.trans rfl rfl
@[simp] theorem State.withAon_free (s : State) (g : AonState → AonState) : (s.withAon g).free = s.free := Eq.trans rfl rfl
@[simp] theorem State.withAon_pending (s : State) (g : AonState → AonState) : (s.withAon g).pending = s.pending := Eq.trans rfl rfl

-- `withSec` changes `sec` only.
@[simp] theorem State.withSec_regs (s : State) (g : SecState → SecState) : (s.withSec g).regs = s.regs := Eq.trans rfl rfl
@[simp] theorem State.withSec_latch (s : State) (g : SecState → SecState) : (s.withSec g).latch = s.latch := Eq.trans rfl rfl
@[simp] theorem State.withSec_readData (s : State) (g : SecState → SecState) : (s.withSec g).readData = s.readData := Eq.trans rfl rfl
@[simp] theorem State.withSec_dram (s : State) (g : SecState → SecState) : (s.withSec g).dram = s.dram := Eq.trans rfl rfl
@[simp] theorem State.withSec_flash (s : State) (g : SecState → SecState) : (s.withSec g).flash = s.flash := Eq.trans rfl rfl
@[simp] theorem State.withSec_otp (s : State) (g : SecState → SecState) : (s.withSec g).otp = s.otp := Eq.trans rfl rfl
@[simp] theorem State.withSec_otpBad (s : State) (g : SecState → SecState) : (s.withSec g).otpBad = s.otpBad := Eq.trans rfl rfl
@[simp] theorem State.withSec_conf (s : State) (g : SecState → SecState) : (s.withSec g).conf = s.conf := Eq.trans rfl rfl
@[simp] theorem State.withSec_fw (s : State) (g : SecState → SecState) : (s.withSec g).fw = s.fw := Eq.trans rfl rfl
@[simp] theorem State.withSec_intc (s : State) (g : SecState → SecState) : (s.withSec g).intc = s.intc := Eq.trans rfl rfl
@[simp] theorem State.withSec_flt (s : State) (g : SecState → SecState) : (s.withSec g).flt = s.flt := Eq.trans rfl rfl
@[simp] theorem State.withSec_pwr (s : State) (g : SecState → SecState) : (s.withSec g).pwr = s.pwr := Eq.trans rfl rfl
@[simp] theorem State.withSec_aon (s : State) (g : SecState → SecState) : (s.withSec g).aon = s.aon := Eq.trans rfl rfl
@[simp] theorem State.withSec_sec (s : State) (g : SecState → SecState) : (s.withSec g).sec = g s.sec := Eq.trans rfl rfl
@[simp] theorem State.withSec_time (s : State) (g : SecState → SecState) : (s.withSec g).time = s.time := Eq.trans rfl rfl
@[simp] theorem State.withSec_lamp (s : State) (g : SecState → SecState) : (s.withSec g).lamp = s.lamp := Eq.trans rfl rfl
@[simp] theorem State.withSec_codec (s : State) (g : SecState → SecState) : (s.withSec g).codec = s.codec := Eq.trans rfl rfl
@[simp] theorem State.withSec_q (s : State) (g : SecState → SecState) : (s.withSec g).q = s.q := Eq.trans rfl rfl
@[simp] theorem State.withSec_haul (s : State) (g : SecState → SecState) : (s.withSec g).haul = s.haul := Eq.trans rfl rfl
@[simp] theorem State.withSec_lane (s : State) (g : SecState → SecState) : (s.withSec g).lane = s.lane := Eq.trans rfl rfl
@[simp] theorem State.withSec_mem (s : State) (g : SecState → SecState) : (s.withSec g).mem = s.mem := Eq.trans rfl rfl
@[simp] theorem State.withSec_free (s : State) (g : SecState → SecState) : (s.withSec g).free = s.free := Eq.trans rfl rfl
@[simp] theorem State.withSec_pending (s : State) (g : SecState → SecState) : (s.withSec g).pending = s.pending := Eq.trans rfl rfl

-- `withTime` changes `time` only.
@[simp] theorem State.withTime_regs (s : State) (g : TimeState → TimeState) : (s.withTime g).regs = s.regs := Eq.trans rfl rfl
@[simp] theorem State.withTime_latch (s : State) (g : TimeState → TimeState) : (s.withTime g).latch = s.latch := Eq.trans rfl rfl
@[simp] theorem State.withTime_readData (s : State) (g : TimeState → TimeState) : (s.withTime g).readData = s.readData := Eq.trans rfl rfl
@[simp] theorem State.withTime_dram (s : State) (g : TimeState → TimeState) : (s.withTime g).dram = s.dram := Eq.trans rfl rfl
@[simp] theorem State.withTime_flash (s : State) (g : TimeState → TimeState) : (s.withTime g).flash = s.flash := Eq.trans rfl rfl
@[simp] theorem State.withTime_otp (s : State) (g : TimeState → TimeState) : (s.withTime g).otp = s.otp := Eq.trans rfl rfl
@[simp] theorem State.withTime_otpBad (s : State) (g : TimeState → TimeState) : (s.withTime g).otpBad = s.otpBad := Eq.trans rfl rfl
@[simp] theorem State.withTime_conf (s : State) (g : TimeState → TimeState) : (s.withTime g).conf = s.conf := Eq.trans rfl rfl
@[simp] theorem State.withTime_fw (s : State) (g : TimeState → TimeState) : (s.withTime g).fw = s.fw := Eq.trans rfl rfl
@[simp] theorem State.withTime_intc (s : State) (g : TimeState → TimeState) : (s.withTime g).intc = s.intc := Eq.trans rfl rfl
@[simp] theorem State.withTime_flt (s : State) (g : TimeState → TimeState) : (s.withTime g).flt = s.flt := Eq.trans rfl rfl
@[simp] theorem State.withTime_pwr (s : State) (g : TimeState → TimeState) : (s.withTime g).pwr = s.pwr := Eq.trans rfl rfl
@[simp] theorem State.withTime_aon (s : State) (g : TimeState → TimeState) : (s.withTime g).aon = s.aon := Eq.trans rfl rfl
@[simp] theorem State.withTime_sec (s : State) (g : TimeState → TimeState) : (s.withTime g).sec = s.sec := Eq.trans rfl rfl
@[simp] theorem State.withTime_time (s : State) (g : TimeState → TimeState) : (s.withTime g).time = g s.time := Eq.trans rfl rfl
@[simp] theorem State.withTime_lamp (s : State) (g : TimeState → TimeState) : (s.withTime g).lamp = s.lamp := Eq.trans rfl rfl
@[simp] theorem State.withTime_codec (s : State) (g : TimeState → TimeState) : (s.withTime g).codec = s.codec := Eq.trans rfl rfl
@[simp] theorem State.withTime_q (s : State) (g : TimeState → TimeState) : (s.withTime g).q = s.q := Eq.trans rfl rfl
@[simp] theorem State.withTime_haul (s : State) (g : TimeState → TimeState) : (s.withTime g).haul = s.haul := Eq.trans rfl rfl
@[simp] theorem State.withTime_lane (s : State) (g : TimeState → TimeState) : (s.withTime g).lane = s.lane := Eq.trans rfl rfl
@[simp] theorem State.withTime_mem (s : State) (g : TimeState → TimeState) : (s.withTime g).mem = s.mem := Eq.trans rfl rfl
@[simp] theorem State.withTime_free (s : State) (g : TimeState → TimeState) : (s.withTime g).free = s.free := Eq.trans rfl rfl
@[simp] theorem State.withTime_pending (s : State) (g : TimeState → TimeState) : (s.withTime g).pending = s.pending := Eq.trans rfl rfl

-- `withLamp` changes `lamp` only.
@[simp] theorem State.withLamp_regs (s : State) (g : LampState → LampState) : (s.withLamp g).regs = s.regs := Eq.trans rfl rfl
@[simp] theorem State.withLamp_latch (s : State) (g : LampState → LampState) : (s.withLamp g).latch = s.latch := Eq.trans rfl rfl
@[simp] theorem State.withLamp_readData (s : State) (g : LampState → LampState) : (s.withLamp g).readData = s.readData := Eq.trans rfl rfl
@[simp] theorem State.withLamp_dram (s : State) (g : LampState → LampState) : (s.withLamp g).dram = s.dram := Eq.trans rfl rfl
@[simp] theorem State.withLamp_flash (s : State) (g : LampState → LampState) : (s.withLamp g).flash = s.flash := Eq.trans rfl rfl
@[simp] theorem State.withLamp_otp (s : State) (g : LampState → LampState) : (s.withLamp g).otp = s.otp := Eq.trans rfl rfl
@[simp] theorem State.withLamp_otpBad (s : State) (g : LampState → LampState) : (s.withLamp g).otpBad = s.otpBad := Eq.trans rfl rfl
@[simp] theorem State.withLamp_conf (s : State) (g : LampState → LampState) : (s.withLamp g).conf = s.conf := Eq.trans rfl rfl
@[simp] theorem State.withLamp_fw (s : State) (g : LampState → LampState) : (s.withLamp g).fw = s.fw := Eq.trans rfl rfl
@[simp] theorem State.withLamp_intc (s : State) (g : LampState → LampState) : (s.withLamp g).intc = s.intc := Eq.trans rfl rfl
@[simp] theorem State.withLamp_flt (s : State) (g : LampState → LampState) : (s.withLamp g).flt = s.flt := Eq.trans rfl rfl
@[simp] theorem State.withLamp_pwr (s : State) (g : LampState → LampState) : (s.withLamp g).pwr = s.pwr := Eq.trans rfl rfl
@[simp] theorem State.withLamp_aon (s : State) (g : LampState → LampState) : (s.withLamp g).aon = s.aon := Eq.trans rfl rfl
@[simp] theorem State.withLamp_sec (s : State) (g : LampState → LampState) : (s.withLamp g).sec = s.sec := Eq.trans rfl rfl
@[simp] theorem State.withLamp_time (s : State) (g : LampState → LampState) : (s.withLamp g).time = s.time := Eq.trans rfl rfl
@[simp] theorem State.withLamp_lamp (s : State) (g : LampState → LampState) : (s.withLamp g).lamp = g s.lamp := Eq.trans rfl rfl
@[simp] theorem State.withLamp_codec (s : State) (g : LampState → LampState) : (s.withLamp g).codec = s.codec := Eq.trans rfl rfl
@[simp] theorem State.withLamp_q (s : State) (g : LampState → LampState) : (s.withLamp g).q = s.q := Eq.trans rfl rfl
@[simp] theorem State.withLamp_haul (s : State) (g : LampState → LampState) : (s.withLamp g).haul = s.haul := Eq.trans rfl rfl
@[simp] theorem State.withLamp_lane (s : State) (g : LampState → LampState) : (s.withLamp g).lane = s.lane := Eq.trans rfl rfl
@[simp] theorem State.withLamp_mem (s : State) (g : LampState → LampState) : (s.withLamp g).mem = s.mem := Eq.trans rfl rfl
@[simp] theorem State.withLamp_free (s : State) (g : LampState → LampState) : (s.withLamp g).free = s.free := Eq.trans rfl rfl
@[simp] theorem State.withLamp_pending (s : State) (g : LampState → LampState) : (s.withLamp g).pending = s.pending := Eq.trans rfl rfl

-- `withCodec` changes `codec` only.
@[simp] theorem State.withCodec_regs (s : State) (g : CodecState → CodecState) : (s.withCodec g).regs = s.regs := Eq.trans rfl rfl
@[simp] theorem State.withCodec_latch (s : State) (g : CodecState → CodecState) : (s.withCodec g).latch = s.latch := Eq.trans rfl rfl
@[simp] theorem State.withCodec_readData (s : State) (g : CodecState → CodecState) : (s.withCodec g).readData = s.readData := Eq.trans rfl rfl
@[simp] theorem State.withCodec_dram (s : State) (g : CodecState → CodecState) : (s.withCodec g).dram = s.dram := Eq.trans rfl rfl
@[simp] theorem State.withCodec_flash (s : State) (g : CodecState → CodecState) : (s.withCodec g).flash = s.flash := Eq.trans rfl rfl
@[simp] theorem State.withCodec_otp (s : State) (g : CodecState → CodecState) : (s.withCodec g).otp = s.otp := Eq.trans rfl rfl
@[simp] theorem State.withCodec_otpBad (s : State) (g : CodecState → CodecState) : (s.withCodec g).otpBad = s.otpBad := Eq.trans rfl rfl
@[simp] theorem State.withCodec_conf (s : State) (g : CodecState → CodecState) : (s.withCodec g).conf = s.conf := Eq.trans rfl rfl
@[simp] theorem State.withCodec_fw (s : State) (g : CodecState → CodecState) : (s.withCodec g).fw = s.fw := Eq.trans rfl rfl
@[simp] theorem State.withCodec_intc (s : State) (g : CodecState → CodecState) : (s.withCodec g).intc = s.intc := Eq.trans rfl rfl
@[simp] theorem State.withCodec_flt (s : State) (g : CodecState → CodecState) : (s.withCodec g).flt = s.flt := Eq.trans rfl rfl
@[simp] theorem State.withCodec_pwr (s : State) (g : CodecState → CodecState) : (s.withCodec g).pwr = s.pwr := Eq.trans rfl rfl
@[simp] theorem State.withCodec_aon (s : State) (g : CodecState → CodecState) : (s.withCodec g).aon = s.aon := Eq.trans rfl rfl
@[simp] theorem State.withCodec_sec (s : State) (g : CodecState → CodecState) : (s.withCodec g).sec = s.sec := Eq.trans rfl rfl
@[simp] theorem State.withCodec_time (s : State) (g : CodecState → CodecState) : (s.withCodec g).time = s.time := Eq.trans rfl rfl
@[simp] theorem State.withCodec_lamp (s : State) (g : CodecState → CodecState) : (s.withCodec g).lamp = s.lamp := Eq.trans rfl rfl
@[simp] theorem State.withCodec_codec (s : State) (g : CodecState → CodecState) : (s.withCodec g).codec = g s.codec := Eq.trans rfl rfl
@[simp] theorem State.withCodec_q (s : State) (g : CodecState → CodecState) : (s.withCodec g).q = s.q := Eq.trans rfl rfl
@[simp] theorem State.withCodec_haul (s : State) (g : CodecState → CodecState) : (s.withCodec g).haul = s.haul := Eq.trans rfl rfl
@[simp] theorem State.withCodec_lane (s : State) (g : CodecState → CodecState) : (s.withCodec g).lane = s.lane := Eq.trans rfl rfl
@[simp] theorem State.withCodec_mem (s : State) (g : CodecState → CodecState) : (s.withCodec g).mem = s.mem := Eq.trans rfl rfl
@[simp] theorem State.withCodec_free (s : State) (g : CodecState → CodecState) : (s.withCodec g).free = s.free := Eq.trans rfl rfl
@[simp] theorem State.withCodec_pending (s : State) (g : CodecState → CodecState) : (s.withCodec g).pending = s.pending := Eq.trans rfl rfl

-- `withQ` changes `q` only.
@[simp] theorem State.withQ_regs (s : State) (g : QueueState → QueueState) : (s.withQ g).regs = s.regs := Eq.trans rfl rfl
@[simp] theorem State.withQ_latch (s : State) (g : QueueState → QueueState) : (s.withQ g).latch = s.latch := Eq.trans rfl rfl
@[simp] theorem State.withQ_readData (s : State) (g : QueueState → QueueState) : (s.withQ g).readData = s.readData := Eq.trans rfl rfl
@[simp] theorem State.withQ_dram (s : State) (g : QueueState → QueueState) : (s.withQ g).dram = s.dram := Eq.trans rfl rfl
@[simp] theorem State.withQ_flash (s : State) (g : QueueState → QueueState) : (s.withQ g).flash = s.flash := Eq.trans rfl rfl
@[simp] theorem State.withQ_otp (s : State) (g : QueueState → QueueState) : (s.withQ g).otp = s.otp := Eq.trans rfl rfl
@[simp] theorem State.withQ_otpBad (s : State) (g : QueueState → QueueState) : (s.withQ g).otpBad = s.otpBad := Eq.trans rfl rfl
@[simp] theorem State.withQ_conf (s : State) (g : QueueState → QueueState) : (s.withQ g).conf = s.conf := Eq.trans rfl rfl
@[simp] theorem State.withQ_fw (s : State) (g : QueueState → QueueState) : (s.withQ g).fw = s.fw := Eq.trans rfl rfl
@[simp] theorem State.withQ_intc (s : State) (g : QueueState → QueueState) : (s.withQ g).intc = s.intc := Eq.trans rfl rfl
@[simp] theorem State.withQ_flt (s : State) (g : QueueState → QueueState) : (s.withQ g).flt = s.flt := Eq.trans rfl rfl
@[simp] theorem State.withQ_pwr (s : State) (g : QueueState → QueueState) : (s.withQ g).pwr = s.pwr := Eq.trans rfl rfl
@[simp] theorem State.withQ_aon (s : State) (g : QueueState → QueueState) : (s.withQ g).aon = s.aon := Eq.trans rfl rfl
@[simp] theorem State.withQ_sec (s : State) (g : QueueState → QueueState) : (s.withQ g).sec = s.sec := Eq.trans rfl rfl
@[simp] theorem State.withQ_time (s : State) (g : QueueState → QueueState) : (s.withQ g).time = s.time := Eq.trans rfl rfl
@[simp] theorem State.withQ_lamp (s : State) (g : QueueState → QueueState) : (s.withQ g).lamp = s.lamp := Eq.trans rfl rfl
@[simp] theorem State.withQ_codec (s : State) (g : QueueState → QueueState) : (s.withQ g).codec = s.codec := Eq.trans rfl rfl
@[simp] theorem State.withQ_q (s : State) (g : QueueState → QueueState) : (s.withQ g).q = g s.q := Eq.trans rfl rfl
@[simp] theorem State.withQ_haul (s : State) (g : QueueState → QueueState) : (s.withQ g).haul = s.haul := Eq.trans rfl rfl
@[simp] theorem State.withQ_lane (s : State) (g : QueueState → QueueState) : (s.withQ g).lane = s.lane := Eq.trans rfl rfl
@[simp] theorem State.withQ_mem (s : State) (g : QueueState → QueueState) : (s.withQ g).mem = s.mem := Eq.trans rfl rfl
@[simp] theorem State.withQ_free (s : State) (g : QueueState → QueueState) : (s.withQ g).free = s.free := Eq.trans rfl rfl
@[simp] theorem State.withQ_pending (s : State) (g : QueueState → QueueState) : (s.withQ g).pending = s.pending := Eq.trans rfl rfl

-- `withHaul` changes `haul` only.
@[simp] theorem State.withHaul_regs (s : State) (g : HaulState → HaulState) : (s.withHaul g).regs = s.regs := Eq.trans rfl rfl
@[simp] theorem State.withHaul_latch (s : State) (g : HaulState → HaulState) : (s.withHaul g).latch = s.latch := Eq.trans rfl rfl
@[simp] theorem State.withHaul_readData (s : State) (g : HaulState → HaulState) : (s.withHaul g).readData = s.readData := Eq.trans rfl rfl
@[simp] theorem State.withHaul_dram (s : State) (g : HaulState → HaulState) : (s.withHaul g).dram = s.dram := Eq.trans rfl rfl
@[simp] theorem State.withHaul_flash (s : State) (g : HaulState → HaulState) : (s.withHaul g).flash = s.flash := Eq.trans rfl rfl
@[simp] theorem State.withHaul_otp (s : State) (g : HaulState → HaulState) : (s.withHaul g).otp = s.otp := Eq.trans rfl rfl
@[simp] theorem State.withHaul_otpBad (s : State) (g : HaulState → HaulState) : (s.withHaul g).otpBad = s.otpBad := Eq.trans rfl rfl
@[simp] theorem State.withHaul_conf (s : State) (g : HaulState → HaulState) : (s.withHaul g).conf = s.conf := Eq.trans rfl rfl
@[simp] theorem State.withHaul_fw (s : State) (g : HaulState → HaulState) : (s.withHaul g).fw = s.fw := Eq.trans rfl rfl
@[simp] theorem State.withHaul_intc (s : State) (g : HaulState → HaulState) : (s.withHaul g).intc = s.intc := Eq.trans rfl rfl
@[simp] theorem State.withHaul_flt (s : State) (g : HaulState → HaulState) : (s.withHaul g).flt = s.flt := Eq.trans rfl rfl
@[simp] theorem State.withHaul_pwr (s : State) (g : HaulState → HaulState) : (s.withHaul g).pwr = s.pwr := Eq.trans rfl rfl
@[simp] theorem State.withHaul_aon (s : State) (g : HaulState → HaulState) : (s.withHaul g).aon = s.aon := Eq.trans rfl rfl
@[simp] theorem State.withHaul_sec (s : State) (g : HaulState → HaulState) : (s.withHaul g).sec = s.sec := Eq.trans rfl rfl
@[simp] theorem State.withHaul_time (s : State) (g : HaulState → HaulState) : (s.withHaul g).time = s.time := Eq.trans rfl rfl
@[simp] theorem State.withHaul_lamp (s : State) (g : HaulState → HaulState) : (s.withHaul g).lamp = s.lamp := Eq.trans rfl rfl
@[simp] theorem State.withHaul_codec (s : State) (g : HaulState → HaulState) : (s.withHaul g).codec = s.codec := Eq.trans rfl rfl
@[simp] theorem State.withHaul_q (s : State) (g : HaulState → HaulState) : (s.withHaul g).q = s.q := Eq.trans rfl rfl
@[simp] theorem State.withHaul_haul (s : State) (g : HaulState → HaulState) : (s.withHaul g).haul = g s.haul := Eq.trans rfl rfl
@[simp] theorem State.withHaul_lane (s : State) (g : HaulState → HaulState) : (s.withHaul g).lane = s.lane := Eq.trans rfl rfl
@[simp] theorem State.withHaul_mem (s : State) (g : HaulState → HaulState) : (s.withHaul g).mem = s.mem := Eq.trans rfl rfl
@[simp] theorem State.withHaul_free (s : State) (g : HaulState → HaulState) : (s.withHaul g).free = s.free := Eq.trans rfl rfl
@[simp] theorem State.withHaul_pending (s : State) (g : HaulState → HaulState) : (s.withHaul g).pending = s.pending := Eq.trans rfl rfl

-- `withLane` changes `lane` only.
@[simp] theorem State.withLane_regs (s : State) (g : LaneState → LaneState) : (s.withLane g).regs = s.regs := Eq.trans rfl rfl
@[simp] theorem State.withLane_latch (s : State) (g : LaneState → LaneState) : (s.withLane g).latch = s.latch := Eq.trans rfl rfl
@[simp] theorem State.withLane_readData (s : State) (g : LaneState → LaneState) : (s.withLane g).readData = s.readData := Eq.trans rfl rfl
@[simp] theorem State.withLane_dram (s : State) (g : LaneState → LaneState) : (s.withLane g).dram = s.dram := Eq.trans rfl rfl
@[simp] theorem State.withLane_flash (s : State) (g : LaneState → LaneState) : (s.withLane g).flash = s.flash := Eq.trans rfl rfl
@[simp] theorem State.withLane_otp (s : State) (g : LaneState → LaneState) : (s.withLane g).otp = s.otp := Eq.trans rfl rfl
@[simp] theorem State.withLane_otpBad (s : State) (g : LaneState → LaneState) : (s.withLane g).otpBad = s.otpBad := Eq.trans rfl rfl
@[simp] theorem State.withLane_conf (s : State) (g : LaneState → LaneState) : (s.withLane g).conf = s.conf := Eq.trans rfl rfl
@[simp] theorem State.withLane_fw (s : State) (g : LaneState → LaneState) : (s.withLane g).fw = s.fw := Eq.trans rfl rfl
@[simp] theorem State.withLane_intc (s : State) (g : LaneState → LaneState) : (s.withLane g).intc = s.intc := Eq.trans rfl rfl
@[simp] theorem State.withLane_flt (s : State) (g : LaneState → LaneState) : (s.withLane g).flt = s.flt := Eq.trans rfl rfl
@[simp] theorem State.withLane_pwr (s : State) (g : LaneState → LaneState) : (s.withLane g).pwr = s.pwr := Eq.trans rfl rfl
@[simp] theorem State.withLane_aon (s : State) (g : LaneState → LaneState) : (s.withLane g).aon = s.aon := Eq.trans rfl rfl
@[simp] theorem State.withLane_sec (s : State) (g : LaneState → LaneState) : (s.withLane g).sec = s.sec := Eq.trans rfl rfl
@[simp] theorem State.withLane_time (s : State) (g : LaneState → LaneState) : (s.withLane g).time = s.time := Eq.trans rfl rfl
@[simp] theorem State.withLane_lamp (s : State) (g : LaneState → LaneState) : (s.withLane g).lamp = s.lamp := Eq.trans rfl rfl
@[simp] theorem State.withLane_codec (s : State) (g : LaneState → LaneState) : (s.withLane g).codec = s.codec := Eq.trans rfl rfl
@[simp] theorem State.withLane_q (s : State) (g : LaneState → LaneState) : (s.withLane g).q = s.q := Eq.trans rfl rfl
@[simp] theorem State.withLane_haul (s : State) (g : LaneState → LaneState) : (s.withLane g).haul = s.haul := Eq.trans rfl rfl
@[simp] theorem State.withLane_lane (s : State) (g : LaneState → LaneState) : (s.withLane g).lane = g s.lane := Eq.trans rfl rfl
@[simp] theorem State.withLane_mem (s : State) (g : LaneState → LaneState) : (s.withLane g).mem = s.mem := Eq.trans rfl rfl
@[simp] theorem State.withLane_free (s : State) (g : LaneState → LaneState) : (s.withLane g).free = s.free := Eq.trans rfl rfl
@[simp] theorem State.withLane_pending (s : State) (g : LaneState → LaneState) : (s.withLane g).pending = s.pending := Eq.trans rfl rfl

-- `withMem` changes `mem` only.
@[simp] theorem State.withMem_regs (s : State) (g : MemState → MemState) : (s.withMem g).regs = s.regs := Eq.trans rfl rfl
@[simp] theorem State.withMem_latch (s : State) (g : MemState → MemState) : (s.withMem g).latch = s.latch := Eq.trans rfl rfl
@[simp] theorem State.withMem_readData (s : State) (g : MemState → MemState) : (s.withMem g).readData = s.readData := Eq.trans rfl rfl
@[simp] theorem State.withMem_dram (s : State) (g : MemState → MemState) : (s.withMem g).dram = s.dram := Eq.trans rfl rfl
@[simp] theorem State.withMem_flash (s : State) (g : MemState → MemState) : (s.withMem g).flash = s.flash := Eq.trans rfl rfl
@[simp] theorem State.withMem_otp (s : State) (g : MemState → MemState) : (s.withMem g).otp = s.otp := Eq.trans rfl rfl
@[simp] theorem State.withMem_otpBad (s : State) (g : MemState → MemState) : (s.withMem g).otpBad = s.otpBad := Eq.trans rfl rfl
@[simp] theorem State.withMem_conf (s : State) (g : MemState → MemState) : (s.withMem g).conf = s.conf := Eq.trans rfl rfl
@[simp] theorem State.withMem_fw (s : State) (g : MemState → MemState) : (s.withMem g).fw = s.fw := Eq.trans rfl rfl
@[simp] theorem State.withMem_intc (s : State) (g : MemState → MemState) : (s.withMem g).intc = s.intc := Eq.trans rfl rfl
@[simp] theorem State.withMem_flt (s : State) (g : MemState → MemState) : (s.withMem g).flt = s.flt := Eq.trans rfl rfl
@[simp] theorem State.withMem_pwr (s : State) (g : MemState → MemState) : (s.withMem g).pwr = s.pwr := Eq.trans rfl rfl
@[simp] theorem State.withMem_aon (s : State) (g : MemState → MemState) : (s.withMem g).aon = s.aon := Eq.trans rfl rfl
@[simp] theorem State.withMem_sec (s : State) (g : MemState → MemState) : (s.withMem g).sec = s.sec := Eq.trans rfl rfl
@[simp] theorem State.withMem_time (s : State) (g : MemState → MemState) : (s.withMem g).time = s.time := Eq.trans rfl rfl
@[simp] theorem State.withMem_lamp (s : State) (g : MemState → MemState) : (s.withMem g).lamp = s.lamp := Eq.trans rfl rfl
@[simp] theorem State.withMem_codec (s : State) (g : MemState → MemState) : (s.withMem g).codec = s.codec := Eq.trans rfl rfl
@[simp] theorem State.withMem_q (s : State) (g : MemState → MemState) : (s.withMem g).q = s.q := Eq.trans rfl rfl
@[simp] theorem State.withMem_haul (s : State) (g : MemState → MemState) : (s.withMem g).haul = s.haul := Eq.trans rfl rfl
@[simp] theorem State.withMem_lane (s : State) (g : MemState → MemState) : (s.withMem g).lane = s.lane := Eq.trans rfl rfl
@[simp] theorem State.withMem_mem (s : State) (g : MemState → MemState) : (s.withMem g).mem = g s.mem := Eq.trans rfl rfl
@[simp] theorem State.withMem_free (s : State) (g : MemState → MemState) : (s.withMem g).free = s.free := Eq.trans rfl rfl
@[simp] theorem State.withMem_pending (s : State) (g : MemState → MemState) : (s.withMem g).pending = s.pending := Eq.trans rfl rfl

-- A register write changes `regs` only; `draw` changes `free` only.
@[simp] theorem State.setF_latch (s : State) (x : Fld) (i v : Nat) : (s.setF x i v).latch = s.latch := Eq.trans rfl rfl
@[simp] theorem State.setF_readData (s : State) (x : Fld) (i v : Nat) : (s.setF x i v).readData = s.readData := Eq.trans rfl rfl
@[simp] theorem State.setF_dram (s : State) (x : Fld) (i v : Nat) : (s.setF x i v).dram = s.dram := Eq.trans rfl rfl
@[simp] theorem State.setF_flash (s : State) (x : Fld) (i v : Nat) : (s.setF x i v).flash = s.flash := Eq.trans rfl rfl
@[simp] theorem State.setF_otp (s : State) (x : Fld) (i v : Nat) : (s.setF x i v).otp = s.otp := Eq.trans rfl rfl
@[simp] theorem State.setF_otpBad (s : State) (x : Fld) (i v : Nat) : (s.setF x i v).otpBad = s.otpBad := Eq.trans rfl rfl
@[simp] theorem State.setF_conf (s : State) (x : Fld) (i v : Nat) : (s.setF x i v).conf = s.conf := Eq.trans rfl rfl
@[simp] theorem State.setF_fw (s : State) (x : Fld) (i v : Nat) : (s.setF x i v).fw = s.fw := Eq.trans rfl rfl
@[simp] theorem State.setF_intc (s : State) (x : Fld) (i v : Nat) : (s.setF x i v).intc = s.intc := Eq.trans rfl rfl
@[simp] theorem State.setF_flt (s : State) (x : Fld) (i v : Nat) : (s.setF x i v).flt = s.flt := Eq.trans rfl rfl
@[simp] theorem State.setF_pwr (s : State) (x : Fld) (i v : Nat) : (s.setF x i v).pwr = s.pwr := Eq.trans rfl rfl
@[simp] theorem State.setF_aon (s : State) (x : Fld) (i v : Nat) : (s.setF x i v).aon = s.aon := Eq.trans rfl rfl
@[simp] theorem State.setF_sec (s : State) (x : Fld) (i v : Nat) : (s.setF x i v).sec = s.sec := Eq.trans rfl rfl
@[simp] theorem State.setF_time (s : State) (x : Fld) (i v : Nat) : (s.setF x i v).time = s.time := Eq.trans rfl rfl
@[simp] theorem State.setF_lamp (s : State) (x : Fld) (i v : Nat) : (s.setF x i v).lamp = s.lamp := Eq.trans rfl rfl
@[simp] theorem State.setF_codec (s : State) (x : Fld) (i v : Nat) : (s.setF x i v).codec = s.codec := Eq.trans rfl rfl
@[simp] theorem State.setF_q (s : State) (x : Fld) (i v : Nat) : (s.setF x i v).q = s.q := Eq.trans rfl rfl
@[simp] theorem State.setF_haul (s : State) (x : Fld) (i v : Nat) : (s.setF x i v).haul = s.haul := Eq.trans rfl rfl
@[simp] theorem State.setF_lane (s : State) (x : Fld) (i v : Nat) : (s.setF x i v).lane = s.lane := Eq.trans rfl rfl
@[simp] theorem State.setF_mem (s : State) (x : Fld) (i v : Nat) : (s.setF x i v).mem = s.mem := Eq.trans rfl rfl
@[simp] theorem State.setF_free (s : State) (x : Fld) (i v : Nat) : (s.setF x i v).free = s.free := Eq.trans rfl rfl
@[simp] theorem State.setF_pending (s : State) (x : Fld) (i v : Nat) : (s.setF x i v).pending = s.pending := Eq.trans rfl rfl
@[simp] theorem State.draw_regs (s : State) : s.draw.regs = s.regs := Eq.trans rfl rfl
@[simp] theorem State.draw_latch (s : State) : s.draw.latch = s.latch := Eq.trans rfl rfl
@[simp] theorem State.draw_readData (s : State) : s.draw.readData = s.readData := Eq.trans rfl rfl
@[simp] theorem State.draw_dram (s : State) : s.draw.dram = s.dram := Eq.trans rfl rfl
@[simp] theorem State.draw_flash (s : State) : s.draw.flash = s.flash := Eq.trans rfl rfl
@[simp] theorem State.draw_otp (s : State) : s.draw.otp = s.otp := Eq.trans rfl rfl
@[simp] theorem State.draw_otpBad (s : State) : s.draw.otpBad = s.otpBad := Eq.trans rfl rfl
@[simp] theorem State.draw_conf (s : State) : s.draw.conf = s.conf := Eq.trans rfl rfl
@[simp] theorem State.draw_fw (s : State) : s.draw.fw = s.fw := Eq.trans rfl rfl
@[simp] theorem State.draw_intc (s : State) : s.draw.intc = s.intc := Eq.trans rfl rfl
@[simp] theorem State.draw_flt (s : State) : s.draw.flt = s.flt := Eq.trans rfl rfl
@[simp] theorem State.draw_pwr (s : State) : s.draw.pwr = s.pwr := Eq.trans rfl rfl
@[simp] theorem State.draw_aon (s : State) : s.draw.aon = s.aon := Eq.trans rfl rfl
@[simp] theorem State.draw_sec (s : State) : s.draw.sec = s.sec := Eq.trans rfl rfl
@[simp] theorem State.draw_time (s : State) : s.draw.time = s.time := Eq.trans rfl rfl
@[simp] theorem State.draw_lamp (s : State) : s.draw.lamp = s.lamp := Eq.trans rfl rfl
@[simp] theorem State.draw_codec (s : State) : s.draw.codec = s.codec := Eq.trans rfl rfl
@[simp] theorem State.draw_q (s : State) : s.draw.q = s.q := Eq.trans rfl rfl
@[simp] theorem State.draw_haul (s : State) : s.draw.haul = s.haul := Eq.trans rfl rfl
@[simp] theorem State.draw_lane (s : State) : s.draw.lane = s.lane := Eq.trans rfl rfl
@[simp] theorem State.draw_mem (s : State) : s.draw.mem = s.mem := Eq.trans rfl rfl
@[simp] theorem State.draw_free (s : State) : s.draw.free = s.free + 1 := Eq.trans rfl rfl
@[simp] theorem State.draw_pending (s : State) : s.draw.pending = s.pending := Eq.trans rfl rfl

-- `putDram` changes `dram` only.
@[simp] theorem State.putDram_regs (s : State) (a : Nat) (bs : List Byte) : (s.putDram a bs).regs = s.regs := Eq.trans rfl rfl
@[simp] theorem State.putDram_latch (s : State) (a : Nat) (bs : List Byte) : (s.putDram a bs).latch = s.latch := Eq.trans rfl rfl
@[simp] theorem State.putDram_readData (s : State) (a : Nat) (bs : List Byte) : (s.putDram a bs).readData = s.readData := Eq.trans rfl rfl
@[simp] theorem State.putDram_flash (s : State) (a : Nat) (bs : List Byte) : (s.putDram a bs).flash = s.flash := Eq.trans rfl rfl
@[simp] theorem State.putDram_otp (s : State) (a : Nat) (bs : List Byte) : (s.putDram a bs).otp = s.otp := Eq.trans rfl rfl
@[simp] theorem State.putDram_otpBad (s : State) (a : Nat) (bs : List Byte) : (s.putDram a bs).otpBad = s.otpBad := Eq.trans rfl rfl
@[simp] theorem State.putDram_conf (s : State) (a : Nat) (bs : List Byte) : (s.putDram a bs).conf = s.conf := Eq.trans rfl rfl
@[simp] theorem State.putDram_fw (s : State) (a : Nat) (bs : List Byte) : (s.putDram a bs).fw = s.fw := Eq.trans rfl rfl
@[simp] theorem State.putDram_intc (s : State) (a : Nat) (bs : List Byte) : (s.putDram a bs).intc = s.intc := Eq.trans rfl rfl
@[simp] theorem State.putDram_flt (s : State) (a : Nat) (bs : List Byte) : (s.putDram a bs).flt = s.flt := Eq.trans rfl rfl
@[simp] theorem State.putDram_pwr (s : State) (a : Nat) (bs : List Byte) : (s.putDram a bs).pwr = s.pwr := Eq.trans rfl rfl
@[simp] theorem State.putDram_aon (s : State) (a : Nat) (bs : List Byte) : (s.putDram a bs).aon = s.aon := Eq.trans rfl rfl
@[simp] theorem State.putDram_sec (s : State) (a : Nat) (bs : List Byte) : (s.putDram a bs).sec = s.sec := Eq.trans rfl rfl
@[simp] theorem State.putDram_time (s : State) (a : Nat) (bs : List Byte) : (s.putDram a bs).time = s.time := Eq.trans rfl rfl
@[simp] theorem State.putDram_lamp (s : State) (a : Nat) (bs : List Byte) : (s.putDram a bs).lamp = s.lamp := Eq.trans rfl rfl
@[simp] theorem State.putDram_codec (s : State) (a : Nat) (bs : List Byte) : (s.putDram a bs).codec = s.codec := Eq.trans rfl rfl
@[simp] theorem State.putDram_q (s : State) (a : Nat) (bs : List Byte) : (s.putDram a bs).q = s.q := Eq.trans rfl rfl
@[simp] theorem State.putDram_haul (s : State) (a : Nat) (bs : List Byte) : (s.putDram a bs).haul = s.haul := Eq.trans rfl rfl
@[simp] theorem State.putDram_lane (s : State) (a : Nat) (bs : List Byte) : (s.putDram a bs).lane = s.lane := Eq.trans rfl rfl
@[simp] theorem State.putDram_mem (s : State) (a : Nat) (bs : List Byte) : (s.putDram a bs).mem = s.mem := Eq.trans rfl rfl
@[simp] theorem State.putDram_free (s : State) (a : Nat) (bs : List Byte) : (s.putDram a bs).free = s.free := Eq.trans rfl rfl
@[simp] theorem State.putDram_pending (s : State) (a : Nat) (bs : List Byte) : (s.putDram a bs).pending = s.pending := Eq.trans rfl rfl

-- `blow` changes `otp` only.
@[simp] theorem State.blow_regs (s : State) (a : Nat) (bs : List Byte) : (s.blow a bs).regs = s.regs := Eq.trans rfl rfl
@[simp] theorem State.blow_latch (s : State) (a : Nat) (bs : List Byte) : (s.blow a bs).latch = s.latch := Eq.trans rfl rfl
@[simp] theorem State.blow_readData (s : State) (a : Nat) (bs : List Byte) : (s.blow a bs).readData = s.readData := Eq.trans rfl rfl
@[simp] theorem State.blow_dram (s : State) (a : Nat) (bs : List Byte) : (s.blow a bs).dram = s.dram := Eq.trans rfl rfl
@[simp] theorem State.blow_flash (s : State) (a : Nat) (bs : List Byte) : (s.blow a bs).flash = s.flash := Eq.trans rfl rfl
@[simp] theorem State.blow_conf (s : State) (a : Nat) (bs : List Byte) : (s.blow a bs).conf = s.conf := Eq.trans rfl rfl
@[simp] theorem State.blow_fw (s : State) (a : Nat) (bs : List Byte) : (s.blow a bs).fw = s.fw := Eq.trans rfl rfl
@[simp] theorem State.blow_intc (s : State) (a : Nat) (bs : List Byte) : (s.blow a bs).intc = s.intc := Eq.trans rfl rfl
@[simp] theorem State.blow_flt (s : State) (a : Nat) (bs : List Byte) : (s.blow a bs).flt = s.flt := Eq.trans rfl rfl
@[simp] theorem State.blow_pwr (s : State) (a : Nat) (bs : List Byte) : (s.blow a bs).pwr = s.pwr := Eq.trans rfl rfl
@[simp] theorem State.blow_aon (s : State) (a : Nat) (bs : List Byte) : (s.blow a bs).aon = s.aon := Eq.trans rfl rfl
@[simp] theorem State.blow_sec (s : State) (a : Nat) (bs : List Byte) : (s.blow a bs).sec = s.sec := Eq.trans rfl rfl
@[simp] theorem State.blow_time (s : State) (a : Nat) (bs : List Byte) : (s.blow a bs).time = s.time := Eq.trans rfl rfl
@[simp] theorem State.blow_lamp (s : State) (a : Nat) (bs : List Byte) : (s.blow a bs).lamp = s.lamp := Eq.trans rfl rfl
@[simp] theorem State.blow_codec (s : State) (a : Nat) (bs : List Byte) : (s.blow a bs).codec = s.codec := Eq.trans rfl rfl
@[simp] theorem State.blow_q (s : State) (a : Nat) (bs : List Byte) : (s.blow a bs).q = s.q := Eq.trans rfl rfl
@[simp] theorem State.blow_haul (s : State) (a : Nat) (bs : List Byte) : (s.blow a bs).haul = s.haul := Eq.trans rfl rfl
@[simp] theorem State.blow_lane (s : State) (a : Nat) (bs : List Byte) : (s.blow a bs).lane = s.lane := Eq.trans rfl rfl
@[simp] theorem State.blow_mem (s : State) (a : Nat) (bs : List Byte) : (s.blow a bs).mem = s.mem := Eq.trans rfl rfl
@[simp] theorem State.blow_free (s : State) (a : Nat) (bs : List Byte) : (s.blow a bs).free = s.free := Eq.trans rfl rfl
@[simp] theorem State.blow_pending (s : State) (a : Nat) (bs : List Byte) : (s.blow a bs).pending = s.pending := Eq.trans rfl rfl

-- `program` changes `flash` only.
@[simp] theorem State.program_regs (s : State) (a : Nat) (bs : List Byte) : (s.program a bs).regs = s.regs := Eq.trans rfl rfl
@[simp] theorem State.program_latch (s : State) (a : Nat) (bs : List Byte) : (s.program a bs).latch = s.latch := Eq.trans rfl rfl
@[simp] theorem State.program_readData (s : State) (a : Nat) (bs : List Byte) : (s.program a bs).readData = s.readData := Eq.trans rfl rfl
@[simp] theorem State.program_dram (s : State) (a : Nat) (bs : List Byte) : (s.program a bs).dram = s.dram := Eq.trans rfl rfl
@[simp] theorem State.program_otp (s : State) (a : Nat) (bs : List Byte) : (s.program a bs).otp = s.otp := Eq.trans rfl rfl
@[simp] theorem State.program_otpBad (s : State) (a : Nat) (bs : List Byte) : (s.program a bs).otpBad = s.otpBad := Eq.trans rfl rfl
@[simp] theorem State.program_conf (s : State) (a : Nat) (bs : List Byte) : (s.program a bs).conf = s.conf := Eq.trans rfl rfl
@[simp] theorem State.program_fw (s : State) (a : Nat) (bs : List Byte) : (s.program a bs).fw = s.fw := Eq.trans rfl rfl
@[simp] theorem State.program_intc (s : State) (a : Nat) (bs : List Byte) : (s.program a bs).intc = s.intc := Eq.trans rfl rfl
@[simp] theorem State.program_flt (s : State) (a : Nat) (bs : List Byte) : (s.program a bs).flt = s.flt := Eq.trans rfl rfl
@[simp] theorem State.program_pwr (s : State) (a : Nat) (bs : List Byte) : (s.program a bs).pwr = s.pwr := Eq.trans rfl rfl
@[simp] theorem State.program_aon (s : State) (a : Nat) (bs : List Byte) : (s.program a bs).aon = s.aon := Eq.trans rfl rfl
@[simp] theorem State.program_sec (s : State) (a : Nat) (bs : List Byte) : (s.program a bs).sec = s.sec := Eq.trans rfl rfl
@[simp] theorem State.program_time (s : State) (a : Nat) (bs : List Byte) : (s.program a bs).time = s.time := Eq.trans rfl rfl
@[simp] theorem State.program_lamp (s : State) (a : Nat) (bs : List Byte) : (s.program a bs).lamp = s.lamp := Eq.trans rfl rfl
@[simp] theorem State.program_codec (s : State) (a : Nat) (bs : List Byte) : (s.program a bs).codec = s.codec := Eq.trans rfl rfl
@[simp] theorem State.program_q (s : State) (a : Nat) (bs : List Byte) : (s.program a bs).q = s.q := Eq.trans rfl rfl
@[simp] theorem State.program_haul (s : State) (a : Nat) (bs : List Byte) : (s.program a bs).haul = s.haul := Eq.trans rfl rfl
@[simp] theorem State.program_lane (s : State) (a : Nat) (bs : List Byte) : (s.program a bs).lane = s.lane := Eq.trans rfl rfl
@[simp] theorem State.program_mem (s : State) (a : Nat) (bs : List Byte) : (s.program a bs).mem = s.mem := Eq.trans rfl rfl
@[simp] theorem State.program_free (s : State) (a : Nat) (bs : List Byte) : (s.program a bs).free = s.free := Eq.trans rfl rfl
@[simp] theorem State.program_pending (s : State) (a : Nat) (bs : List Byte) : (s.program a bs).pending = s.pending := Eq.trans rfl rfl

-- `erase` changes `flash` only.
@[simp] theorem State.erase_regs (s : State) (a n : Nat) : (s.erase a n).regs = s.regs := Eq.trans rfl rfl
@[simp] theorem State.erase_latch (s : State) (a n : Nat) : (s.erase a n).latch = s.latch := Eq.trans rfl rfl
@[simp] theorem State.erase_readData (s : State) (a n : Nat) : (s.erase a n).readData = s.readData := Eq.trans rfl rfl
@[simp] theorem State.erase_dram (s : State) (a n : Nat) : (s.erase a n).dram = s.dram := Eq.trans rfl rfl
@[simp] theorem State.erase_otp (s : State) (a n : Nat) : (s.erase a n).otp = s.otp := Eq.trans rfl rfl
@[simp] theorem State.erase_otpBad (s : State) (a n : Nat) : (s.erase a n).otpBad = s.otpBad := Eq.trans rfl rfl
@[simp] theorem State.erase_conf (s : State) (a n : Nat) : (s.erase a n).conf = s.conf := Eq.trans rfl rfl
@[simp] theorem State.erase_fw (s : State) (a n : Nat) : (s.erase a n).fw = s.fw := Eq.trans rfl rfl
@[simp] theorem State.erase_intc (s : State) (a n : Nat) : (s.erase a n).intc = s.intc := Eq.trans rfl rfl
@[simp] theorem State.erase_flt (s : State) (a n : Nat) : (s.erase a n).flt = s.flt := Eq.trans rfl rfl
@[simp] theorem State.erase_pwr (s : State) (a n : Nat) : (s.erase a n).pwr = s.pwr := Eq.trans rfl rfl
@[simp] theorem State.erase_aon (s : State) (a n : Nat) : (s.erase a n).aon = s.aon := Eq.trans rfl rfl
@[simp] theorem State.erase_sec (s : State) (a n : Nat) : (s.erase a n).sec = s.sec := Eq.trans rfl rfl
@[simp] theorem State.erase_time (s : State) (a n : Nat) : (s.erase a n).time = s.time := Eq.trans rfl rfl
@[simp] theorem State.erase_lamp (s : State) (a n : Nat) : (s.erase a n).lamp = s.lamp := Eq.trans rfl rfl
@[simp] theorem State.erase_codec (s : State) (a n : Nat) : (s.erase a n).codec = s.codec := Eq.trans rfl rfl
@[simp] theorem State.erase_q (s : State) (a n : Nat) : (s.erase a n).q = s.q := Eq.trans rfl rfl
@[simp] theorem State.erase_haul (s : State) (a n : Nat) : (s.erase a n).haul = s.haul := Eq.trans rfl rfl
@[simp] theorem State.erase_lane (s : State) (a n : Nat) : (s.erase a n).lane = s.lane := Eq.trans rfl rfl
@[simp] theorem State.erase_mem (s : State) (a n : Nat) : (s.erase a n).mem = s.mem := Eq.trans rfl rfl
@[simp] theorem State.erase_free (s : State) (a n : Nat) : (s.erase a n).free = s.free := Eq.trans rfl rfl
@[simp] theorem State.erase_pending (s : State) (a n : Nat) : (s.erase a n).pending = s.pending := Eq.trans rfl rfl

-- ## Register fields

/-- A field read after a write of itself: the value, kept to the width. -/
@[simp] theorem State.f_setF_same (s : State) (x : Fld) (i v : Nat) : (s.setF x i v).f x i = v % 2 ^ x.len := by
  simp [State.f, State.setF]

/-- A field read after a write of a field of another code. -/
theorem State.f_setF_code (s : State) (x y : Fld) (i j v : Nat) (h : y.code ≠ x.code) : (s.setF x i v).f y j = s.f y j := by
  simp [State.f, State.setF, Tab.get_set_ne _ _ _ h]

/-- A field read after a write of another instance of it. -/
theorem State.f_setF_inst (s : State) (x : Fld) (i j v : Nat) (h : j ≠ i) : (s.setF x i v).f x j = s.f x j := by
  simp [State.f, State.setF, Tab.get_set_other _ _ _ _ h]

@[simp] theorem State.f_withFw (s : State) (g : FwState → FwState) (x : Fld) (i : Nat) : (s.withFw g).f x i = s.f x i := Eq.trans rfl rfl
@[simp] theorem State.f_withIntc (s : State) (g : IntcState → IntcState) (x : Fld) (i : Nat) : (s.withIntc g).f x i = s.f x i := Eq.trans rfl rfl
@[simp] theorem State.f_withFlt (s : State) (g : FltState → FltState) (x : Fld) (i : Nat) : (s.withFlt g).f x i = s.f x i := Eq.trans rfl rfl
@[simp] theorem State.f_withPwr (s : State) (g : PwrState → PwrState) (x : Fld) (i : Nat) : (s.withPwr g).f x i = s.f x i := Eq.trans rfl rfl
@[simp] theorem State.f_withAon (s : State) (g : AonState → AonState) (x : Fld) (i : Nat) : (s.withAon g).f x i = s.f x i := Eq.trans rfl rfl
@[simp] theorem State.f_withSec (s : State) (g : SecState → SecState) (x : Fld) (i : Nat) : (s.withSec g).f x i = s.f x i := Eq.trans rfl rfl
@[simp] theorem State.f_withTime (s : State) (g : TimeState → TimeState) (x : Fld) (i : Nat) : (s.withTime g).f x i = s.f x i := Eq.trans rfl rfl
@[simp] theorem State.f_withLamp (s : State) (g : LampState → LampState) (x : Fld) (i : Nat) : (s.withLamp g).f x i = s.f x i := Eq.trans rfl rfl
@[simp] theorem State.f_withCodec (s : State) (g : CodecState → CodecState) (x : Fld) (i : Nat) : (s.withCodec g).f x i = s.f x i := Eq.trans rfl rfl
@[simp] theorem State.f_withQ (s : State) (g : QueueState → QueueState) (x : Fld) (i : Nat) : (s.withQ g).f x i = s.f x i := Eq.trans rfl rfl
@[simp] theorem State.f_withHaul (s : State) (g : HaulState → HaulState) (x : Fld) (i : Nat) : (s.withHaul g).f x i = s.f x i := Eq.trans rfl rfl
@[simp] theorem State.f_withLane (s : State) (g : LaneState → LaneState) (x : Fld) (i : Nat) : (s.withLane g).f x i = s.f x i := Eq.trans rfl rfl
@[simp] theorem State.f_withMem (s : State) (g : MemState → MemState) (x : Fld) (i : Nat) : (s.withMem g).f x i = s.f x i := Eq.trans rfl rfl
@[simp] theorem State.f_draw (s : State) (x : Fld) (i : Nat) : s.draw.f x i = s.f x i := Eq.trans rfl rfl

-- ## The view that most operations leave alone

/-- The memories and the queue. -/
def State.stores (s : State) : List Host.Cell × List Host.Cell × List Host.Cell × List Instr := (s.dram, s.flash, s.otp, s.pending)

@[simp] theorem State.withFw_stores (s : State) (g : FwState → FwState) : (s.withFw g).stores = s.stores := Eq.trans rfl rfl
@[simp] theorem State.withIntc_stores (s : State) (g : IntcState → IntcState) : (s.withIntc g).stores = s.stores := Eq.trans rfl rfl
@[simp] theorem State.withFlt_stores (s : State) (g : FltState → FltState) : (s.withFlt g).stores = s.stores := Eq.trans rfl rfl
@[simp] theorem State.withPwr_stores (s : State) (g : PwrState → PwrState) : (s.withPwr g).stores = s.stores := Eq.trans rfl rfl
@[simp] theorem State.withAon_stores (s : State) (g : AonState → AonState) : (s.withAon g).stores = s.stores := Eq.trans rfl rfl
@[simp] theorem State.withSec_stores (s : State) (g : SecState → SecState) : (s.withSec g).stores = s.stores := Eq.trans rfl rfl
@[simp] theorem State.withTime_stores (s : State) (g : TimeState → TimeState) : (s.withTime g).stores = s.stores := Eq.trans rfl rfl
@[simp] theorem State.withLamp_stores (s : State) (g : LampState → LampState) : (s.withLamp g).stores = s.stores := Eq.trans rfl rfl
@[simp] theorem State.withCodec_stores (s : State) (g : CodecState → CodecState) : (s.withCodec g).stores = s.stores := Eq.trans rfl rfl
@[simp] theorem State.withQ_stores (s : State) (g : QueueState → QueueState) : (s.withQ g).stores = s.stores := Eq.trans rfl rfl
@[simp] theorem State.withHaul_stores (s : State) (g : HaulState → HaulState) : (s.withHaul g).stores = s.stores := Eq.trans rfl rfl
@[simp] theorem State.withLane_stores (s : State) (g : LaneState → LaneState) : (s.withLane g).stores = s.stores := Eq.trans rfl rfl
@[simp] theorem State.withMem_stores (s : State) (g : MemState → MemState) : (s.withMem g).stores = s.stores := Eq.trans rfl rfl
@[simp] theorem State.setF_stores (s : State) (x : Fld) (i v : Nat) : (s.setF x i v).stores = s.stores := Eq.trans rfl rfl
@[simp] theorem State.draw_stores (s : State) : s.draw.stores = s.stores := Eq.trans rfl rfl

/-- The view of a record that keeps the four parts of `s` is that of `s`. -/
@[simp] theorem State.mk_stores (rg : Tab (Tab Nat)) (la : Tab Nat) (rd : List Nat) (dr fl ot : List Host.Cell) (ob : List Nat) (co : ConfigArea) (fw : FwState) (ic : IntcState) (ft : FltState)
    (pw : PwrState) (ao : AonState) (se : SecState) (ti : TimeState) (lm : LampState) (cd : CodecState) (q : QueueState) (ha : HaulState) (ln : LaneState) (me : MemState) (fr : Nat) (pe : List Instr) :
    State.stores ⟨rg, la, rd, dr, fl, ot, ob, co, fw, ic, ft, pw, ao, se, ti, lm, cd, q, ha, ln, me, fr, pe⟩ = (dr, fl, ot, pe) := Eq.trans rfl rfl

@[simp] theorem State.fold_stores (s : State) : (s.dram, s.flash, s.otp, s.pending) = s.stores := Eq.trans rfl rfl

@[simp] theorem State.ite_stores (c : Prop) [Decidable c] (s t : State) : (if c then s else t).stores = if c then s.stores else t.stores := by
  split <;> rfl

/-- Functions that leave the view alone leave it alone in turn. -/
@[simp] theorem chainAll_stores {α : Type} (l : List α) (f : α → State → State) (s : State) (h : ∀ x t, (f x t).stores = t.stores) :
    (chainAll l f s).stores = s.stores := by
  induction l generalizing s with
  | nil => rfl
  | cons x r ih => exact (ih (f x s)).trans (h x s)

@[simp] theorem foldl_stores {α : Type} (l : List α) (f : State → α → State) (s : State) (h : ∀ t x, (f t x).stores = t.stores) :
    (l.foldl f s).stores = s.stores := by
  induction l generalizing s with
  | nil => rfl
  | cons x r ih => exact (ih (f s x)).trans (h s x)

@[simp] theorem foldl_fst_stores {α β : Type} (l : List α) (f : State × β → α → State × β) (a : State × β) (h : ∀ b x, (f b x).1.stores = b.1.stores) :
    (l.foldl f a).1.stores = a.1.stores := by
  induction l generalizing a with
  | nil => rfl
  | cons x r ih => exact (ih (f a x)).trans (h a x)

@[simp] theorem elim_stores {α : Type} (o : Option α) (s : State) (f : α → State) (h : ∀ x, (f x).stores = s.stores) : (o.elim s f).stores = s.stores := by
  cases o with
  | none => rfl
  | some x => exact h x

end Sys2Proof.Machine
end

