-- ==== Sys2Proof/Laws/Frame.lean ====
section
/-! SUPPORT. Lemmas about `Sets`: a state that differs in register fields only, built write by write; and the result of a mailbox command. -/

set_option Elab.async false

namespace Sys2Proof.Machine

theorem Sets.refl (s : State) : Sets s [] s := ⟨rfl, by simp, fun _ _ _ => rfl⟩

/-- One more write, of a field not written before. -/
theorem Sets.snoc {s t : State} {l : List (Fld × Nat × Nat)} (h : Sets s l t) (x : Fld) (i v : Nat)
    (hn : ∀ e ∈ l, ¬(e.1.code = x.code ∧ e.2.1 = i)) : Sets s (l ++ [(x, i, v % 2 ^ x.len)]) (t.setF x i v) := by
  obtain ⟨h1, h2, h3⟩ := h
  have key : ∀ (y : Fld) (j : Nat), ¬(y.code = x.code ∧ j = i) → (t.setF x i v).f y j = t.f y j := by
    intro y j hj
    by_cases hc : y.code = x.code
    · simp only [State.f, State.setF, hc]
      simp only [Tab.get_set_same]
      exact Tab.get_set_other _ _ _ _ (fun e => hj ⟨hc, e⟩)
    · exact State.f_setF_code _ _ _ _ _ _ hc
  refine ⟨?_, ?_, ?_⟩
  · rw [h1]; rfl
  · intro e he
    rcases List.mem_append.mp he with he | he
    · rw [key _ _ (hn e he)]; exact h2 e he
    · obtain rfl := List.mem_singleton.mp he
      exact State.f_setF_same _ _ _ _
  · intro y j hy
    have hl : ¬(y.code = x.code ∧ j = i) := hy (x, i, v % 2 ^ x.len) (by simp)
    rw [key _ _ hl]
    exact h3 y j (fun e he => hy e (List.mem_append.mpr (.inl he)))

/-- One more write of a value that fits. -/
theorem Sets.put {s t : State} {l : List (Fld × Nat × Nat)} (h : Sets s l t) (x : Fld) (i v : Nat)
    (hn : ∀ e ∈ l, ¬(e.1.code = x.code ∧ e.2.1 = i)) (hv : v < 2 ^ x.len) : Sets s (l ++ [(x, i, v)]) (t.setF x i v) := by
  have := h.snoc x i v hn
  rwa [Nat.mod_eq_of_lt hv] at this

/-- The order of the fields in the list does not matter. -/
theorem Sets.perm {s t : State} {l l' : List (Fld × Nat × Nat)} (h : Sets s l t) (hl : ∀ e, e ∈ l ↔ e ∈ l') : Sets s l' t :=
  ⟨h.1, fun e he => h.2.1 e ((hl e).mpr he), fun x i hx => h.2.2 x i (fun e he => hx e ((hl e).mp he))⟩

theorem natOfLe_lt (bs : List Byte) : natOfLe bs < 256 ^ bs.length := by
  induction bs with
  | nil => simp [natOfLe]
  | cons b r ih =>
    have := b.isLt
    have e : natOfLe (b :: r) = b.toNat + 256 * natOfLe r := rfl
    rw [e, List.length_cons, Nat.pow_succ]
    omega

theorem leAt_lt (bs : List Byte) (i n : Nat) : leAt bs i n < 256 ^ n :=
  Nat.lt_of_lt_of_le (natOfLe_lt _) (Nat.pow_le_pow_right (by decide) (by simp [sliceOf]))

/-- The words of a result area. -/
theorem Sets.putWords {s : State} {m : Nat} (ws : List Nat) : ∀ {l : List (Fld × Nat × Nat)} {t : State} (i : Nat), Sets s l t →
    (∀ e ∈ l, ¬(e.1.code = F.MBX_RESULT_DATA.code ∧ 64 * m + i ≤ e.2.1)) →
    Sets s (l ++ (List.range ws.length).map (fun k => (F.MBX_RESULT_DATA, 64 * m + (k + i), ws.getD k 0 % 2 ^ 32))) (t.putWords m i ws) := by
  induction ws with
  | nil => intro l t i h _; simpa [State.putWords] using h
  | cons w r ih =>
    intro l t i h hn
    have h1 := h.snoc F.MBX_RESULT_DATA (64 * m + i) w (fun e he hc => hn e he ⟨hc.1, hc.2 ▸ Nat.le_refl _⟩)
    have h2 := ih (i + 1) h1 (by
      intro e he hc
      rcases List.mem_append.mp he with he | he
      · exact hn e he ⟨hc.1, by omega⟩
      · obtain rfl := List.mem_singleton.mp he
        have := hc.2
        simp only at this
        omega)
    refine h2.perm (fun e => ?_)
    simp only [List.length_cons, List.range_succ_eq_map, List.map_cons, List.map_map, List.append_assoc, List.singleton_append]
    have : (List.map ((fun k => (F.MBX_RESULT_DATA, 64 * m + (k + i), (w :: r).getD k 0 % 2 ^ 32)) ∘ Nat.succ) (List.range r.length)) =
        List.map (fun k => (F.MBX_RESULT_DATA, 64 * m + (k + (i + 1)), r.getD k 0 % 2 ^ 32)) (List.range r.length) := by
      apply List.map_congr_left
      intro k _
      simp [Nat.succ_eq_add_one, Nat.add_assoc, Nat.add_comm 1 i]
    rw [this]
    simp [F.MBX_RESULT_DATA]

/-- A result is written on a state that differs from `s` in fields of no mailbox area (R53, R54). -/
theorem Sets.putResult {s t : State} {l : List (Fld × Nat × Nat)} (h : Sets s l t) (m status : Nat) (data : List Byte)
    (hn : ∀ e ∈ l, e.1.code ∉ [F.MBX_RESULT_DATA.code, F.MBX_STATUS_RESULT_PENDING.code, F.MBX_STATUS_HELD.code, F.MBX_STATUS_BUSY.code, F.MBX_COMMAND_DATA.code])
    (hs : status < 65536) (hd : data.length ≤ 248) : Sets s (l ++ answer m (s.mbxTag m) status data) (t.putResult m status data) := by
  obtain ⟨hr, hp, hh, hb, hc⟩ : (∀ e ∈ l, e.1.code ≠ F.MBX_RESULT_DATA.code) ∧ (∀ e ∈ l, e.1.code ≠ F.MBX_STATUS_RESULT_PENDING.code) ∧
      (∀ e ∈ l, e.1.code ≠ F.MBX_STATUS_HELD.code) ∧ (∀ e ∈ l, e.1.code ≠ F.MBX_STATUS_BUSY.code) ∧ (∀ e ∈ l, e.1.code ≠ F.MBX_COMMAND_DATA.code) := by
    refine ⟨?_, ?_, ?_, ?_, ?_⟩ <;> intro e he hx <;> exact hn e he (by simp [hx])
  have htake : data.take 248 = data := List.take_of_length_le hd
  have hw : ∀ i, (wordsOf 62 data).getD i 0 % 2 ^ 32 = if i < 62 then leAt data (4 * i) 4 else 0 := by
    intro i
    by_cases hi : i < 62
    · have := leAt_lt data (4 * i) 4
      simpa [wordsOf, List.getD_eq_getElem?_getD, hi] using this
    · simp [wordsOf, List.getD_eq_getElem?_getD, hi]
  have hlen : (wordsOf 62 data).length = 62 := by simp [wordsOf]
  have h1 := h.putWords (m := m) (wordsOf 62 data) 2 (fun e he hx => hr e he hx.1)
  have hl1 : (List.range (wordsOf 62 data).length).map (fun k => (F.MBX_RESULT_DATA, 64 * m + (k + 2), (wordsOf 62 data).getD k 0 % 2 ^ 32)) =
      (List.range 62).map (fun i => (F.MBX_RESULT_DATA, 64 * m + (i + 2), leAt data (4 * i) 4)) := by
    rw [hlen]
    exact List.map_congr_left (fun i hi => by rw [hw, if_pos (List.mem_range.mp hi)])
  rw [hl1] at h1
  have hm1 : ∀ e ∈ (List.range 62).map (fun i => (F.MBX_RESULT_DATA, 64 * m + (i + 2), leAt data (4 * i) 4)),
      e.1 = F.MBX_RESULT_DATA ∧ 64 * m + 2 ≤ e.2.1 := by
    intro e he
    obtain ⟨k, _, rfl⟩ := List.mem_map.mp he
    exact ⟨rfl, by simp only; omega⟩
  have h2 := h1.put F.MBX_RESULT_DATA (64 * m + 1) (status % 65536 + data.length * 65536) (by
    intro e he hx
    rcases List.mem_append.mp he with he | he
    · exact hr e he hx.1
    · have := (hm1 e he).2; omega) (by simp only [F.MBX_RESULT_DATA]; omega)
  have h3 := h2.put F.MBX_RESULT_DATA (64 * m) (resultHeader (s.mbxTag m)) (by
    intro e he hx
    rcases List.mem_append.mp he with he | he
    · rcases List.mem_append.mp he with he | he
      · exact hr e he hx.1
      · have := (hm1 e he).2; omega
    · obtain rfl := List.mem_singleton.mp he
      simp at hx) (by simp only [F.MBX_RESULT_DATA, resultHeader]; omega)
  have hf : ∀ e ∈ l ++ (List.range 62).map (fun i => (F.MBX_RESULT_DATA, 64 * m + (i + 2), leAt data (4 * i) 4)) ++
      [(F.MBX_RESULT_DATA, 64 * m + 1, status % 65536 + data.length * 65536)] ++ [(F.MBX_RESULT_DATA, 64 * m, resultHeader (s.mbxTag m))],
      e.1.code ≠ F.MBX_STATUS_RESULT_PENDING.code ∧ e.1.code ≠ F.MBX_STATUS_HELD.code ∧ e.1.code ≠ F.MBX_STATUS_BUSY.code := by
    intro e he
    simp only [List.mem_append, List.mem_singleton] at he
    rcases he with ((he | he) | rfl) | rfl
    · exact ⟨hp e he, hh e he, hb e he⟩
    · rw [(hm1 e he).1]; decide
    · exact ⟨by simp [F.MBX_RESULT_DATA, F.MBX_STATUS_RESULT_PENDING], by simp [F.MBX_RESULT_DATA, F.MBX_STATUS_HELD], by simp [F.MBX_RESULT_DATA, F.MBX_STATUS_BUSY]⟩
    · exact ⟨by simp [F.MBX_RESULT_DATA, F.MBX_STATUS_RESULT_PENDING], by simp [F.MBX_RESULT_DATA, F.MBX_STATUS_HELD], by simp [F.MBX_RESULT_DATA, F.MBX_STATUS_BUSY]⟩
  have h4 := h3.put F.MBX_STATUS_RESULT_PENDING m 1 (fun e he hx => (hf e he).1 hx.1) (by decide)
  have h5 := h4.put F.MBX_STATUS_HELD m 0 (by
    intro e he hx
    rcases List.mem_append.mp he with he | he
    · exact (hf e he).2.1 hx.1
    · obtain rfl := List.mem_singleton.mp he
      simp [F.MBX_STATUS_RESULT_PENDING, F.MBX_STATUS_HELD] at hx) (by decide)
  have h6 := h5.put F.MBX_STATUS_BUSY m 0 (by
    intro e he hx
    rcases List.mem_append.mp he with he | he
    · rcases List.mem_append.mp he with he | he
      · exact (hf e he).2.2 hx.1
      · obtain rfl := List.mem_singleton.mp he
        simp [F.MBX_STATUS_RESULT_PENDING, F.MBX_STATUS_BUSY] at hx
    · obtain rfl := List.mem_singleton.mp he
      simp [F.MBX_STATUS_HELD, F.MBX_STATUS_BUSY] at hx) (by decide)
  have htag : (((t.putWords m 2 (wordsOf 62 data)).setF F.MBX_RESULT_DATA (64 * m + 1) (status % 65536 + data.length * 65536)).mbxTag m) = s.mbxTag m := by
    unfold State.mbxTag State.mbxWord
    rw [h2.2.2 F.MBX_COMMAND_DATA (64 * m + 0) (fun e he hx => ?_)]
    rcases List.mem_append.mp he with he | he
    · rcases List.mem_append.mp he with he | he
      · exact hc e he hx.1.symm
      · rw [(hm1 e he).1] at hx; exact absurd hx.1 (by decide)
    · obtain rfl := List.mem_singleton.mp he
      simp [F.MBX_RESULT_DATA, F.MBX_COMMAND_DATA] at hx
  have hfin : t.putResult m status data = ((((((t.putWords m 2 (wordsOf 62 data)).setF F.MBX_RESULT_DATA (64 * m + 1) (status % 65536 + data.length * 65536)).setF F.MBX_RESULT_DATA (64 * m)
      (resultHeader (s.mbxTag m))).setF F.MBX_STATUS_RESULT_PENDING m 1).setF F.MBX_STATUS_HELD m 0).setF F.MBX_STATUS_BUSY m 0) := by
    rw [← htag]
    simp only [State.putResult, htake]
  rw [hfin]
  refine h6.perm (fun e => ?_)
  have e1 : status % 65536 + data.length * 65536 = status + 65536 * data.length := by omega
  have e2 : resultHeader (s.mbxTag m) = 2 ^ 31 + s.mbxTag m % 65536 := by simp [resultHeader, Nat.add_comm]
  rw [e1, e2]
  simp only [answer, List.mem_append, List.mem_cons, List.not_mem_nil, or_false, or_assoc]
  
end Sys2Proof.Machine
end

