-- ==== Sys2Proof/Laws/Regs.lean ====
section
/-! SUPPORT. The offsets of the registers that commands name: each is found again in the register map (R5). -/

set_option Elab.async false

namespace Sys2Proof.Machine

/-- Bytes of one repetition that hold instances. -/
def RegInfo.width (g : RegInfo) : Nat := if g.s2 = 0 then 1 else (g.n2 - 1) * g.s2 + 1

/-- The first offset past the register's repetitions. -/
def RegInfo.hi (g : RegInfo) : Nat := g.base + (if g.s1 = 0 then g.width else (g.n1 - 1) * g.s1 + g.width)

/-- Two registers whose instances have no offset in common: by intervals, by the place within equal repetitions, or by the place within equal steps. -/
def RegInfo.sep (g h : RegInfo) : Bool :=
  decide (g.hi ≤ h.base) || decide (h.hi ≤ g.base) ||
    (decide (g.s1 = h.s1) && decide (g.s1 ≠ 0) && decide (g.base % g.s1 + g.width ≤ g.s1) && decide (h.base % g.s1 + h.width ≤ g.s1) &&
      (decide (g.base % g.s1 + g.width ≤ h.base % g.s1) || decide (h.base % g.s1 + h.width ≤ g.base % g.s1))) ||
    (decide (g.s1 = h.s1) && decide (g.s1 ≠ 0) && decide (g.s2 = h.s2) && decide (g.s2 ≠ 0) && decide (g.s1 % g.s2 = 0) && decide (g.base % g.s2 ≠ h.base % g.s2))

theorem place_bound {d s n : Nat} (h : d / s < n) (hz : d % s = 0) : d < (n - 1) * s + 1 := by
  have hd := Nat.div_add_mod d s
  have : s * (d / s) ≤ (n - 1) * s := by
    rw [Nat.mul_comm]
    exact Nat.mul_le_mul_right _ (by omega)
  omega

/-- Where an offset that holds an instance lies. -/
theorem RegId.inst?_hit {r : RegId} {a i : Nat} (h : r.inst? a = some i) :
    r.info.base ≤ a ∧ a < r.info.hi ∧ (r.info.s1 ≠ 0 → (a - r.info.base) % r.info.s1 < r.info.width ∧
      (r.info.s2 ≠ 0 → (a - r.info.base) % r.info.s1 % r.info.s2 = 0)) := by
  unfold RegId.inst? at h
  simp only at h
  rw [Option.ite_none_left_eq_some] at h
  obtain ⟨hb, h⟩ := h
  rw [Option.ite_none_right_eq_some] at h
  obtain ⟨⟨h1, h2, h3⟩, _⟩ := h
  unfold RegInfo.hi RegInfo.width
  by_cases e1 : r.info.s1 = 0
  · by_cases e2 : r.info.s2 = 0
    · rw [if_pos e1] at h1 h3
      rw [if_pos e2] at h3
      rw [if_pos e1, if_pos e2]
      exact ⟨by omega, by omega, fun hx => absurd e1 hx⟩
    · rw [if_pos e1, if_neg e2] at h2 h3
      rw [if_pos e1, if_neg e2]
      have := place_bound h2 h3
      exact ⟨by omega, by omega, fun hx => absurd e1 hx⟩
  · rw [if_neg e1] at h1 h2 h3
    rw [if_neg e1]
    have hd := Nat.div_add_mod (a - r.info.base) r.info.s1
    have hk : r.info.s1 * ((a - r.info.base) / r.info.s1) ≤ (r.info.n1 - 1) * r.info.s1 := by
      rw [Nat.mul_comm]
      exact Nat.mul_le_mul_right _ (by omega)
    by_cases e2 : r.info.s2 = 0
    · rw [if_pos e2] at h2 h3
      rw [if_pos e2]
      exact ⟨by omega, by omega, fun _ => ⟨by omega, fun hx => absurd e2 hx⟩⟩
    · rw [if_neg e2] at h2 h3
      rw [if_neg e2]
      have := place_bound h2 h3
      exact ⟨by omega, by omega, fun _ => ⟨this, fun _ => h3⟩⟩

/-- The place of an offset within its repetition. -/
theorem mod_place {a b s w : Nat} (hb : b ≤ a) (hw : b % s + w ≤ s) (h : (a - b) % s < w) : b % s ≤ a % s ∧ a % s < b % s + w := by
  have e : a % s = (b % s + (a - b) % s) % s := by
    conv_lhs => rw [show a = b + (a - b) by omega]
    exact Nat.add_mod b (a - b) s
  rw [Nat.mod_eq_of_lt (show b % s + (a - b) % s < s by omega)] at e
  omega

theorem mod_step {a b s t : Nat} (hb : b ≤ a) (hd : s % t = 0) (h : (a - b) % s % t = 0) : a % t = b % t := by
  rw [Nat.mod_mod_of_dvd _ (Nat.dvd_of_mod_eq_zero hd)] at h
  have e : a % t = (b % t + (a - b) % t) % t := by
    conv_lhs => rw [show a = b + (a - b) by omega]
    exact Nat.add_mod b (a - b) t
  rw [h, Nat.add_zero, Nat.mod_mod] at e
  exact e

theorem RegId.sep_sound {r q : RegId} {a i j : Nat} (h : RegInfo.sep r.info q.info = true) (hr : r.inst? a = some i) (hq : q.inst? a = some j) : False := by
  obtain ⟨r1, r2, r3⟩ := RegId.inst?_hit hr
  obtain ⟨q1, q2, q3⟩ := RegId.inst?_hit hq
  simp only [RegInfo.sep, Bool.or_eq_true, Bool.and_eq_true, decide_eq_true_eq] at h
  rcases h with ((h | h) | h) | h
  · omega
  · omega
  · obtain ⟨⟨⟨⟨h1, h2⟩, h3⟩, h4⟩, h5⟩ := h
    have a1 := mod_place r1 h3 (r3 h2).1
    have a2 := mod_place (w := q.info.width) q1 h4 (by rw [h1] at h2 ⊢; exact (q3 h2).1)
    omega
  · obtain ⟨⟨⟨⟨⟨h1, h2⟩, h3⟩, h4⟩, h5⟩, h6⟩ := h
    have a1 := mod_step r1 h5 ((r3 h2).2 h4)
    have a2 := mod_step (s := r.info.s1) (t := r.info.s2) q1 h5 (by
      have := (q3 (by rw [← h1]; exact h2)).2 (by rw [← h3]; exact h4)
      rw [h1, h3]; exact this)
    exact h6 (a1.symm.trans a2)

/-- A register separate from every other is found at its own offsets. -/
theorem regAt_of_sep {r : RegId} (hs : allRegs.all (fun q => decide (q = r) || RegInfo.sep r.info q.info) = true) (hm : r ∈ allRegs)
    {a i : Nat} (hr : r.inst? a = some i) : regAt a = some (r, i) := by
  have other : ∀ q ∈ allRegs, ∀ b, (q.inst? a).map (fun k => (q, k)) = some b → b = (r, i) := by
    intro q hq b hb
    have := List.all_eq_true.mp hs q hq
    simp only [Bool.or_eq_true, decide_eq_true_eq] at this
    rcases this with e | e
    · subst e
      rw [hr] at hb
      simpa using hb.symm
    · cases hx : q.inst? a with
      | none => simp [hx] at hb
      | some j => exact (RegId.sep_sound e hr hx).elim
  cases hf : regAt a with
  | none =>
    unfold regAt at hf
    rw [List.findSome?_eq_none_iff] at hf
    have := hf r hm
    simp [hr] at this
  | some b =>
    unfold regAt at hf
    obtain ⟨q, hq, hb⟩ := List.exists_of_findSome?_eq_some hf
    rw [other q hq b hb]

/-- The registers that commands name. -/
def namedRegs : List RegId :=
  [.MBX_DOORBELL, .MBX_RESULT_ACK, .SEM_LOCK, .SEM_RELEASE, .GLB_RESET, .GLB_SCRATCH,
   .PCIE_BAR2_BASE_F0, .PCIE_BAR2_BASE_F1, .RIV_CH_CTRL, .DRS_LUT_DATA, .DRS_BRIGHT, .HWR_CTRL,
   .STK_PIN, .SPQ_Q_CFG, .TMG_METER_CTRL, .CLS_RING_CMD, .CLS_COMMIT, .HAUL_TS_INFO,
   .LANE_CFG, .LANE_RX, .ARB_MAXWAIT, .INTC_ROUTE, .INTC_SW_SET_LO, .INTC_SW_SET_HI,
   .INTC_SW_CLR_LO, .INTC_SW_CLR_HI, .FLT_SRC_ACK, .FLT_SAFE_LO, .FLT_SAFE_HI, .FLT_WDOG,
   .CLK_TB_STEP_LO, .CLK_TB_TRIM, .TMR_CMP_LO, .TMR_STATUS, .BPM_MIN_FREE, .PWR_VMIN,
   .SPD_CTRL, .SEC_BLOCK_WORLD, .SEC_REGION_ATTR, .TMG_Q_SHAPE_RATE, .TMG_PORT_SHAPE_RATE, .TMG_Q_DMIN,
   .TMG_Q_DMAX, .TMG_Q_HMIN, .TMG_Q_HMAX, .CLK_TB_LO, .LMP_PORT_CTRL, .SCH_CTX_ARM,
   .MBX_RESULT]

theorem namedRegs_sep : namedRegs.all (fun r => decide (r ∈ allRegs) && allRegs.all (fun q => decide (q = r) || RegInfo.sep r.info q.info)) = true := by decide +kernel

/-- A register that commands name is found at its own offsets. -/
theorem regAt_named {r : RegId} (h : r ∈ namedRegs) {a i : Nat} (hr : r.inst? a = some i) : regAt a = some (r, i) := by
  have := List.all_eq_true.mp namedRegs_sep r h
  simp only [Bool.and_eq_true, decide_eq_true_eq] at this
  exact regAt_of_sep this.2 this.1 hr

theorem regAt_MBX_DOORBELL {i : Nat} (h : i < 16) : regAt (RegId.MBX_DOORBELL.addr i) = some (.MBX_DOORBELL, i) :=
  regAt_named (by decide) (by
    simp only [RegId.inst?, RegId.addr, RegId.info]
    norm_num
    omega)

theorem regAt_MBX_RESULT_ACK {i : Nat} (h : i < 16) : regAt (RegId.MBX_RESULT_ACK.addr i) = some (.MBX_RESULT_ACK, i) :=
  regAt_named (by decide) (by
    simp only [RegId.inst?, RegId.addr, RegId.info]
    norm_num
    omega)

theorem regAt_SEM_LOCK {i : Nat} (h : i < 64) : regAt (RegId.SEM_LOCK.addr i) = some (.SEM_LOCK, i) :=
  regAt_named (by decide) (by
    simp only [RegId.inst?, RegId.addr, RegId.info]
    norm_num
    omega)

theorem regAt_SEM_RELEASE {i : Nat} (h : i < 64) : regAt (RegId.SEM_RELEASE.addr i) = some (.SEM_RELEASE, i) :=
  regAt_named (by decide) (by
    simp only [RegId.inst?, RegId.addr, RegId.info]
    norm_num
    omega)

theorem regAt_GLB_RESET : regAt (RegId.GLB_RESET.addr 0) = some (.GLB_RESET, 0) :=
  regAt_named (by decide) (by decide)

theorem regAt_GLB_SCRATCH : regAt (RegId.GLB_SCRATCH.addr 0) = some (.GLB_SCRATCH, 0) :=
  regAt_named (by decide) (by decide)

theorem regAt_PCIE_BAR2_BASE_F0 : regAt (RegId.PCIE_BAR2_BASE_F0.addr 0) = some (.PCIE_BAR2_BASE_F0, 0) :=
  regAt_named (by decide) (by decide)

theorem regAt_PCIE_BAR2_BASE_F1 : regAt (RegId.PCIE_BAR2_BASE_F1.addr 0) = some (.PCIE_BAR2_BASE_F1, 0) :=
  regAt_named (by decide) (by decide)

theorem regAt_RIV_CH_CTRL {i : Nat} (h : i < 64) : regAt (RegId.RIV_CH_CTRL.addr i) = some (.RIV_CH_CTRL, i) :=
  regAt_named (by decide) (by
    simp only [RegId.inst?, RegId.addr, RegId.info]
    norm_num
    omega)

theorem regAt_DRS_LUT_DATA : regAt (RegId.DRS_LUT_DATA.addr 0) = some (.DRS_LUT_DATA, 0) :=
  regAt_named (by decide) (by decide)

theorem regAt_DRS_BRIGHT {i : Nat} (h : i < 4) : regAt (RegId.DRS_BRIGHT.addr i) = some (.DRS_BRIGHT, i) :=
  regAt_named (by decide) (by
    simp only [RegId.inst?, RegId.addr, RegId.info]
    norm_num
    omega)

theorem regAt_HWR_CTRL {i : Nat} (h : i < 24) : regAt (RegId.HWR_CTRL.addr i) = some (.HWR_CTRL, i) :=
  regAt_named (by decide) (by
    simp only [RegId.inst?, RegId.addr, RegId.info]
    norm_num
    omega)

theorem regAt_STK_PIN : regAt (RegId.STK_PIN.addr 0) = some (.STK_PIN, 0) :=
  regAt_named (by decide) (by decide)

theorem regAt_SPQ_Q_CFG : regAt (RegId.SPQ_Q_CFG.addr 0) = some (.SPQ_Q_CFG, 0) :=
  regAt_named (by decide) (by decide)

theorem regAt_TMG_METER_CTRL : regAt (RegId.TMG_METER_CTRL.addr 0) = some (.TMG_METER_CTRL, 0) :=
  regAt_named (by decide) (by decide)

theorem regAt_CLS_RING_CMD : regAt (RegId.CLS_RING_CMD.addr 0) = some (.CLS_RING_CMD, 0) :=
  regAt_named (by decide) (by decide)

theorem regAt_CLS_COMMIT : regAt (RegId.CLS_COMMIT.addr 0) = some (.CLS_COMMIT, 0) :=
  regAt_named (by decide) (by decide)

theorem regAt_HAUL_TS_INFO {i : Nat} (h : i < 6) : regAt (RegId.HAUL_TS_INFO.addr i) = some (.HAUL_TS_INFO, i) :=
  regAt_named (by decide) (by
    simp only [RegId.inst?, RegId.addr, RegId.info]
    norm_num
    omega)

theorem regAt_LANE_CFG {i : Nat} (h : i < 64) : regAt (RegId.LANE_CFG.addr i) = some (.LANE_CFG, i) :=
  regAt_named (by decide) (by
    simp only [RegId.inst?, RegId.addr, RegId.info]
    norm_num
    omega)

theorem regAt_LANE_RX {i : Nat} (h : i < 64) : regAt (RegId.LANE_RX.addr i) = some (.LANE_RX, i) :=
  regAt_named (by decide) (by
    simp only [RegId.inst?, RegId.addr, RegId.info]
    norm_num
    omega)

theorem regAt_ARB_MAXWAIT {i : Nat} (h : i < 48) : regAt (RegId.ARB_MAXWAIT.addr i) = some (.ARB_MAXWAIT, i) := by
  have key : (List.range 48).all (fun k => decide (RegId.inst? .ARB_MAXWAIT (RegId.ARB_MAXWAIT.addr k) = some k)) = true := by decide +kernel
  exact regAt_named (by decide) (of_decide_eq_true (List.all_eq_true.mp key i (List.mem_range.mpr h)))

theorem regAt_DDR_TRAIN {i : Nat} (h : i < 4) : regAt (RegId.DDR_TRAIN.addr i) = some (.DDR_TRAIN, i) := by
  have key : (List.range 4).all (fun k => decide (regAt (RegId.DDR_TRAIN.addr k) = some (.DDR_TRAIN, k))) = true := by decide +kernel
  exact of_decide_eq_true (List.all_eq_true.mp key i (List.mem_range.mpr h))

theorem regAt_DDR_FILL {i : Nat} (h : i < 4) : regAt (RegId.DDR_FILL.addr i) = some (.DDR_FILL, i) := by
  have key : (List.range 4).all (fun k => decide (regAt (RegId.DDR_FILL.addr k) = some (.DDR_FILL, k))) = true := by decide +kernel
  exact of_decide_eq_true (List.all_eq_true.mp key i (List.mem_range.mpr h))

theorem regAt_DDR_CONFIG {i : Nat} (h : i < 4) : regAt (RegId.DDR_CONFIG.addr i) = some (.DDR_CONFIG, i) := by
  have key : (List.range 4).all (fun k => decide (regAt (RegId.DDR_CONFIG.addr k) = some (.DDR_CONFIG, k))) = true := by decide +kernel
  exact of_decide_eq_true (List.all_eq_true.mp key i (List.mem_range.mpr h))

theorem regAt_DDR_LOG_STATUS : regAt (RegId.DDR_LOG_STATUS.addr 0) = some (.DDR_LOG_STATUS, 0) := by decide +kernel

theorem regAt_INTC_CLAIM {i : Nat} (h : i < 4) : regAt (RegId.INTC_CLAIM.addr i) = some (.INTC_CLAIM, i) := by
  have key : (List.range 4).all (fun k => decide (regAt (RegId.INTC_CLAIM.addr k) = some (.INTC_CLAIM, k))) = true := by decide +kernel
  exact of_decide_eq_true (List.all_eq_true.mp key i (List.mem_range.mpr h))

theorem regAt_INTC_CLAIM_S : regAt (RegId.INTC_CLAIM_S.addr 0) = some (.INTC_CLAIM_S, 0) := by decide +kernel

theorem regAt_INTC_COMPLETE {i : Nat} (h : i < 4) : regAt (RegId.INTC_COMPLETE.addr i) = some (.INTC_COMPLETE, i) := by
  have key : (List.range 4).all (fun k => decide (regAt (RegId.INTC_COMPLETE.addr k) = some (.INTC_COMPLETE, k))) = true := by decide +kernel
  exact of_decide_eq_true (List.all_eq_true.mp key i (List.mem_range.mpr h))

theorem regAt_INTC_COMPLETE_S : regAt (RegId.INTC_COMPLETE_S.addr 0) = some (.INTC_COMPLETE_S, 0) := by decide +kernel

theorem regAt_INTC_ROUTE {i : Nat} (h : i < 1024) : regAt (RegId.INTC_ROUTE.addr i) = some (.INTC_ROUTE, i) :=
  regAt_named (by decide) (by
    simp only [RegId.inst?, RegId.addr, RegId.info]
    norm_num
    omega)

theorem regAt_INTC_SW_SET_LO : regAt (RegId.INTC_SW_SET_LO.addr 0) = some (.INTC_SW_SET_LO, 0) :=
  regAt_named (by decide) (by decide)

theorem regAt_INTC_SW_SET_HI : regAt (RegId.INTC_SW_SET_HI.addr 0) = some (.INTC_SW_SET_HI, 0) :=
  regAt_named (by decide) (by decide)

theorem regAt_INTC_SW_CLR_LO : regAt (RegId.INTC_SW_CLR_LO.addr 0) = some (.INTC_SW_CLR_LO, 0) :=
  regAt_named (by decide) (by decide)

theorem regAt_INTC_SW_CLR_HI : regAt (RegId.INTC_SW_CLR_HI.addr 0) = some (.INTC_SW_CLR_HI, 0) :=
  regAt_named (by decide) (by decide)

theorem regAt_FLT_SRC_ACK {i : Nat} (h : 1 ≤ i ∧ i < 64) : regAt (RegId.FLT_SRC_ACK.addr i) = some (.FLT_SRC_ACK, i) :=
  regAt_named (by decide) (by
    simp only [RegId.inst?, RegId.addr, RegId.info]
    norm_num
    omega)

theorem regAt_FLT_SAFE_LO : regAt (RegId.FLT_SAFE_LO.addr 0) = some (.FLT_SAFE_LO, 0) :=
  regAt_named (by decide) (by decide)

theorem regAt_FLT_SAFE_HI : regAt (RegId.FLT_SAFE_HI.addr 0) = some (.FLT_SAFE_HI, 0) :=
  regAt_named (by decide) (by decide)

theorem regAt_FLT_WDOG : regAt (RegId.FLT_WDOG.addr 0) = some (.FLT_WDOG, 0) :=
  regAt_named (by decide) (by decide)

theorem regAt_CLK_TB_STEP_LO : regAt (RegId.CLK_TB_STEP_LO.addr 0) = some (.CLK_TB_STEP_LO, 0) :=
  regAt_named (by decide) (by decide)

theorem regAt_CLK_TB_TRIM : regAt (RegId.CLK_TB_TRIM.addr 0) = some (.CLK_TB_TRIM, 0) :=
  regAt_named (by decide) (by decide)

theorem regAt_TMR_CMP_LO {i : Nat} (h : i < 64) : regAt (RegId.TMR_CMP_LO.addr i) = some (.TMR_CMP_LO, i) :=
  regAt_named (by decide) (by
    simp only [RegId.inst?, RegId.addr, RegId.info]
    norm_num
    omega)

theorem regAt_TMR_STATUS {i : Nat} (h : i < 64) : regAt (RegId.TMR_STATUS.addr i) = some (.TMR_STATUS, i) :=
  regAt_named (by decide) (by
    simp only [RegId.inst?, RegId.addr, RegId.info]
    norm_num
    omega)

theorem regAt_BPM_MIN_FREE : regAt (RegId.BPM_MIN_FREE.addr 0) = some (.BPM_MIN_FREE, 0) :=
  regAt_named (by decide) (by decide)

theorem regAt_PWR_VMIN : regAt (RegId.PWR_VMIN.addr 0) = some (.PWR_VMIN, 0) :=
  regAt_named (by decide) (by decide)

theorem regAt_SPD_CTRL : regAt (RegId.SPD_CTRL.addr 0) = some (.SPD_CTRL, 0) :=
  regAt_named (by decide) (by decide)

theorem regAt_SEC_BLOCK_WORLD : regAt (RegId.SEC_BLOCK_WORLD.addr 0) = some (.SEC_BLOCK_WORLD, 0) :=
  regAt_named (by decide) (by decide)

theorem regAt_SEC_REGION_ATTR {i : Nat} (h : i < 64) : regAt (RegId.SEC_REGION_ATTR.addr i) = some (.SEC_REGION_ATTR, i) :=
  regAt_named (by decide) (by
    simp only [RegId.inst?, RegId.addr, RegId.info]
    norm_num
    omega)

theorem regAt_TMG_Q_SHAPE_RATE {i : Nat} (h : i < 384) : regAt (RegId.TMG_Q_SHAPE_RATE.addr i) = some (.TMG_Q_SHAPE_RATE, i) := by
  have key : (List.range 384).all (fun k => decide (RegId.inst? .TMG_Q_SHAPE_RATE (RegId.TMG_Q_SHAPE_RATE.addr k) = some k)) = true := by decide +kernel
  exact regAt_named (by decide) (of_decide_eq_true (List.all_eq_true.mp key i (List.mem_range.mpr h)))

theorem regAt_TMG_PORT_SHAPE_RATE {i : Nat} (h : i < 6) : regAt (RegId.TMG_PORT_SHAPE_RATE.addr i) = some (.TMG_PORT_SHAPE_RATE, i) :=
  regAt_named (by decide) (by
    simp only [RegId.inst?, RegId.addr, RegId.info]
    norm_num
    omega)

theorem regAt_TMG_Q_DMIN {i : Nat} (h : i < 384) : regAt (RegId.TMG_Q_DMIN.addr i) = some (.TMG_Q_DMIN, i) := by
  have key : (List.range 384).all (fun k => decide (RegId.inst? .TMG_Q_DMIN (RegId.TMG_Q_DMIN.addr k) = some k)) = true := by decide +kernel
  exact regAt_named (by decide) (of_decide_eq_true (List.all_eq_true.mp key i (List.mem_range.mpr h)))

theorem regAt_TMG_Q_DMAX {i : Nat} (h : i < 384) : regAt (RegId.TMG_Q_DMAX.addr i) = some (.TMG_Q_DMAX, i) := by
  have key : (List.range 384).all (fun k => decide (RegId.inst? .TMG_Q_DMAX (RegId.TMG_Q_DMAX.addr k) = some k)) = true := by decide +kernel
  exact regAt_named (by decide) (of_decide_eq_true (List.all_eq_true.mp key i (List.mem_range.mpr h)))

theorem regAt_TMG_Q_HMIN {i : Nat} (h : i < 384) : regAt (RegId.TMG_Q_HMIN.addr i) = some (.TMG_Q_HMIN, i) := by
  have key : (List.range 384).all (fun k => decide (RegId.inst? .TMG_Q_HMIN (RegId.TMG_Q_HMIN.addr k) = some k)) = true := by decide +kernel
  exact regAt_named (by decide) (of_decide_eq_true (List.all_eq_true.mp key i (List.mem_range.mpr h)))

theorem regAt_TMG_Q_HMAX {i : Nat} (h : i < 384) : regAt (RegId.TMG_Q_HMAX.addr i) = some (.TMG_Q_HMAX, i) := by
  have key : (List.range 384).all (fun k => decide (RegId.inst? .TMG_Q_HMAX (RegId.TMG_Q_HMAX.addr k) = some k)) = true := by decide +kernel
  exact regAt_named (by decide) (of_decide_eq_true (List.all_eq_true.mp key i (List.mem_range.mpr h)))

theorem regAt_CLK_TB_LO : regAt (RegId.CLK_TB_LO.addr 0) = some (.CLK_TB_LO, 0) :=
  regAt_named (by decide) (by decide)

theorem regAt_LMP_PORT_CTRL {i : Nat} (h : i < 48) : regAt (RegId.LMP_PORT_CTRL.addr i) = some (.LMP_PORT_CTRL, i) :=
  regAt_named (by decide) (by
    simp only [RegId.inst?, RegId.addr, RegId.info]
    norm_num
    omega)

theorem regAt_DDR_TIMING_ARM {i : Nat} (h : i < 4) : regAt (RegId.DDR_TIMING_ARM.addr i) = some (.DDR_TIMING_ARM, i) := by
  have key : (List.range 4).all (fun k => decide (regAt (RegId.DDR_TIMING_ARM.addr k) = some (.DDR_TIMING_ARM, k))) = true := by decide +kernel
  exact of_decide_eq_true (List.all_eq_true.mp key i (List.mem_range.mpr h))

theorem regAt_SCH_CTX_ARM : regAt (RegId.SCH_CTX_ARM.addr 0) = some (.SCH_CTX_ARM, 0) :=
  regAt_named (by decide) (by decide)

/-- The header word of mailbox `n`'s result. -/
theorem regAt_header {n : Nat} (h : n < 16) : regAt (RegId.MBX_RESULT.addr (64 * n)) = some (.MBX_RESULT, 64 * n) :=
  regAt_named (by decide) (by
    simp only [RegId.inst?, RegId.addr, RegId.info]
    norm_num
    omega)

end Sys2Proof.Machine
end

