-- ==== Sys2Proof/Laws/Commands.lean ====
section
/-! SUPPORT. What the shared guards of the commands do where they pass: the checks of a mailbox command, of a register write and of a register read. -/

set_option Elab.async false

namespace Sys2Proof.Machine

theorem State.mbxDue_of_accepts {s : State} {m op : Nat} (h : s.accepts m op = true) : s.mbxDue m op = true := by
  simp only [State.accepts, Bool.and_eq_true] at h
  exact h.1.1.1

theorem State.lt_of_accepts {s : State} {m op : Nat} (h : s.accepts m op = true) : m < 16 := by
  have := State.mbxDue_of_accepts h
  simp only [State.mbxDue, Bool.and_eq_true, decide_eq_true_eq] at this
  exact this.1.1.1.1

/-- A command that passes the common checks and has a good length acts. -/
theorem State.serve_accepts {s : State} {m op : Nat} {lenOk : Nat → Bool} {act : State → State} (h : s.accepts m op = true)
    (hl : lenOk (s.mbxLen m) = true) : s.serve m op lenOk act = act s := by
  simp only [State.accepts, Bool.and_eq_true, Bool.or_eq_true, Bool.not_eq_true'] at h
  obtain ⟨⟨⟨h1, h2⟩, h3⟩, h4⟩ := h
  unfold State.serve
  rcases h2 with h2 | h2 <;> rcases h3 with h3 | h3 <;> rcases h4 with h4 | h4 <;> simp [h1, h2, h3, h4, hl]

/-- A command that passes them and has a wrong length is answered BAD_LENGTH. -/
theorem State.serve_badLength {s : State} {m op : Nat} {lenOk : Nat → Bool} {act : State → State} (h : s.accepts m op = true)
    (hl : lenOk (s.mbxLen m) = false) : s.serve m op lenOk act = s.putResult m stBadLength [] := by
  simp only [State.accepts, Bool.and_eq_true, Bool.or_eq_true, Bool.not_eq_true'] at h
  obtain ⟨⟨⟨h1, h2⟩, h3⟩, h4⟩ := h
  unfold State.serve
  rcases h2 with h2 | h2 <;> rcases h3 with h3 | h3 <;> rcases h4 with h4 | h4 <;> simp [h1, h2, h3, h4, hl]

theorem onMailbox_lt {m : Nat} (h : m < 16) (s : State) : onMailbox m s = .next s := by
  simp [onMailbox, onInstance, h]

theorem onMailbox_accepts {s : State} {m op : Nat} (h : s.accepts m op = true) (t : State) : onMailbox m t = .next t :=
  onMailbox_lt (State.lt_of_accepts h) t

/-- A recovery command that is due, of a part that is not scrapped, with a good length acts. -/
theorem State.recover_ok {s : State} {m op : Nat} {lenOk : Nat → Bool} {act : State → State} (h : s.recovers m op = true)
    (hl : lenOk (s.mbxLen m) = true) : s.recover m op lenOk act = act s := by
  simp only [State.recovers, Bool.and_eq_true, decide_eq_true_eq] at h
  simp [State.recover, h.1, h.2, hl]

theorem State.lt_of_romDue {s : State} {m op : Nat} (h : s.romDue m op = true) : m < 16 := by
  simp only [State.romDue, Bool.and_eq_true, decide_eq_true_eq] at h
  omega

/-- A job's start: the job entered, and the result STARTED with its number. -/
theorem State.startJob_eq (s : State) (m : Nat) (w : JobWork) : s.startJob m w = (s.withJob m w).putResult m stStarted (leBytes 4 s.fw.nextJob) := rfl

@[simp] theorem leBytes_length (n v : Nat) : (leBytes n v).length = n := by
  induction n generalizing v with
  | zero => rfl
  | succ k ih => simp [leBytes, ih]

theorem allRegs_clear : allRegs.all (fun r => decide (r.info.hi ≤ 0x90000) || decide (0x90800 ≤ r.info.base)) = true := by decide +kernel

/-- No register stands in the OTP window. -/
theorem otpWindow_of_regAt {a : Nat} {e : RegId × Nat} (h : regAt a = some e) : otpWindow a = false := by
  obtain ⟨r, hr, he⟩ := List.exists_of_findSome?_eq_some h
  obtain ⟨i, hi, -⟩ := Option.map_eq_some_iff.mp he
  have hit := RegId.inst?_hit hi
  have := List.all_eq_true.mp allRegs_clear r hr
  simp only [Bool.or_eq_true, decide_eq_true_eq] at this
  simp only [otpWindow, Bool.and_eq_false_iff, decide_eq_false_iff_not]
  omega

/-- A permitted write of a register reaches it. -/
theorem State.regWriteBy_ok {s : State} {o : Origin} {r : RegId} {i : Nat} {w : Word} (h : s.writeOk o r i = true)
    (ha : regAt (r.addr i) = some (r, i)) : s.regWriteBy o r i w = s.writeLatched o r i w.toNat := by
  simp only [State.writeOk, Bool.and_eq_true, Bool.or_eq_true, Bool.not_eq_true'] at h
  obtain ⟨⟨⟨h1, h2⟩, h3⟩, h4⟩ := h
  have h5 : (s.regSecure r i && !(Origin.secure o s)) = false := by
    rcases h2 with h2 | h2 <;> simp [h2]
  simp only [State.regWriteBy, State.busWrite, State.writeAt, State.offsetSecure, otpWindow_of_regAt ha, Bool.false_or, h1, ha, Option.any_some, h5, h3, h4, if_true]
  simp

/-- A permitted read of a register returns its word. -/
theorem State.busRead_ok {s : State} {o : Origin} {r : RegId} {i : Nat} (h : s.readOk o r i = true)
    (ha : regAt (r.addr i) = some (r, i)) : s.busRead o (r.addr i) = State.answer (s.readLatched o r i) := by
  simp only [State.readOk, Bool.and_eq_true, Bool.or_eq_true, Bool.not_eq_true'] at h
  obtain ⟨⟨h1, h2⟩, h4⟩ := h
  have h5 : (s.regSecure r i && !(Origin.secure o s)) = false := by
    rcases h2 with h2 | h2 <;> simp [h2]
  simp only [State.busRead, State.readAt, State.offsetSecure, otpWindow_of_regAt ha, Bool.false_or, Option.any_some, h1, ha, h5, h4, if_true]
  simp

end Sys2Proof.Machine
end

