-- ==== Sys2Proof/Laws/Faults.lean ====
section
/-! SUPPORT. What a raise of a fault source leaves alone, and what it always does (R359 to R370). -/

set_option Elab.async false

namespace Sys2Proof.Machine

/-- A loop over steps that leave a field alone leaves it alone. -/
theorem chainAll_f {α : Type} (l : List α) (g : α → State → State) (x : Fld) (i : Nat) (h : ∀ a t, (g a t).f x i = t.f x i) (s : State) :
    (chainAll l g s).f x i = s.f x i := by
  unfold chainAll
  induction l generalizing s with
  | nil => rfl
  | cons a r ih => rw [List.foldl_cons, ih, h]

theorem State.f_orF (s : State) (x y : Fld) (i j k : Nat) (h : y.code ≠ x.code) : (s.orF x i k).f y j = s.f y j := State.f_setF_code _ _ _ _ _ _ h

theorem State.f_count (s : State) (F S y : Fld) (i j k n : Nat) (h : y.code ≠ F.code) (g : y.code ≠ S.code) : (s.count F i S j k).f y n = s.f y n := by
  unfold State.count
  simp only
  split
  · rw [State.f_orF _ _ _ _ _ _ g, State.f_setF_code _ _ _ _ _ _ h]
  · rw [State.f_setF_code _ _ _ _ _ _ h]

/-- A counter after one count: one more, kept at its all-ones value (R31). -/
theorem State.f_count_same (s : State) (F S : Fld) (i j k : Nat) (h : F.code ≠ S.code) : (s.count F i S j k).f F i = min (s.f F i + 1) (2 ^ F.len - 1) := by
  have hl : min (s.f F i + 1) (2 ^ F.len - 1) < 2 ^ F.len := by
    have := Nat.two_pow_pos F.len
    omega
  unfold State.count
  simp only
  split
  · rw [State.f_orF _ _ _ _ _ _ h, State.f_setF_same, Nat.mod_eq_of_lt hl]
  · rw [State.f_setF_same, Nat.mod_eq_of_lt hl]

theorem State.evtLost_f (s : State) (x : Fld) (i : Nat) (h : x.outside reactFields) : s.evtLost.f x i = s.f x i := by
  unfold State.evtLost
  rw [State.f_setF_code _ _ _ _ _ _ (h _ (by simp [reactFields])), State.f_count _ _ _ _ _ _ _ _ (h _ (by simp [reactFields])) (h _ (by simp [reactFields]))]

theorem State.logEvent_f (s : State) (kind fsid cls inst : Nat) (d : List Byte) (x : Fld) (i : Nat) (h : x.outside reactFields) :
    (s.logEvent kind fsid cls inst d).f x i = s.f x i := by
  unfold State.logEvent
  simp only
  rw [State.f_setF_code _ _ _ _ _ _ (h _ (by simp [reactFields])), State.f_withFlt]
  split
  · rw [State.evtLost_f _ _ _ h, State.f_setF_code _ _ _ _ _ _ (h _ (by simp [reactFields]))]
  · rfl

theorem State.showBuf_f (s : State) (n : Nat) (x : Fld) (i : Nat) (h : x.outside reactFields) : (s.showBuf n).f x i = s.f x i := by
  unfold State.showBuf
  split
  · rw [State.f_setF_code _ _ _ _ _ _ (h _ (by simp [reactFields]))]
  · rfl

theorem State.settleChan_f (s : State) (n : Nat) (x : Fld) (i : Nat) (h : x.outside reactFields) : (s.settleChan n).f x i = s.f x i := by
  unfold State.settleChan
  simp only
  repeat' split
  all_goals
    (repeat rw [State.f_setF_code _ _ _ _ _ _ (h _ (by simp [reactFields]))])
    rw [State.showBuf_f _ _ _ _ h]
    (repeat rw [State.f_setF_code _ _ _ _ _ _ (h _ (by simp [reactFields]))])

theorem State.dropDisplay_f (s : State) (d : Nat) (x : Fld) (i : Nat) (h : x.outside reactFields) : (s.dropDisplay d).f x i = s.f x i := by
  unfold State.dropDisplay
  simp only
  split
  · rfl
  · rw [State.f_setF_code _ _ _ _ _ _ (h _ (by simp [reactFields]))]

theorem State.refreshPort_f (s : State) (n : Nat) (x : Fld) (i : Nat) (h : x.outside reactFields) : (s.refreshPort n).f x i = s.f x i := by
  unfold State.refreshPort
  simp only
  repeat' split
  all_goals
    (try rw [State.dropDisplay_f _ _ _ _ h])
    (try rw [State.settleChan_f _ _ _ _ h])
    (repeat rw [State.f_setF_code _ _ _ _ _ _ (h _ (by simp [reactFields]))])
    simp [State.setPort]

theorem State.safeNow_f (s : State) (fsid : Nat) (sc : Bool) (l : List Nat) (x : Fld) (i : Nat) (h : x.outside reactFields) : (s.safeNow fsid sc l).f x i = s.f x i := by
  unfold State.safeNow
  simp only
  rw [State.logEvent_f _ _ _ _ _ _ _ _ h]
  exact chainAll_f _ _ _ _ (fun a t => by rw [State.refreshPort_f _ _ _ _ h]; simp [State.setHolders]) _

theorem State.hewersOut_f (s : State) (x : Fld) (i : Nat) (h : x.outside reactFields) : s.hewersOut.f x i = s.f x i := by
  unfold State.hewersOut
  simp only [State.f_withCodec]
  exact chainAll_f _ _ _ _ (fun a t => by repeat rw [State.f_setF_code _ _ _ _ _ _ (h _ (by simp [reactFields]))]) _

theorem State.enterFatal_f (s : State) (fsid : Nat) (x : Fld) (i : Nat) (h : x.outside reactFields) : (s.enterFatal fsid).f x i = s.f x i := by
  unfold State.enterFatal
  split
  · rfl
  · simp only [State.refreshPorts]
    rw [chainAll_f _ _ _ _ (fun a t => State.refreshPort_f _ _ _ _ h), State.hewersOut_f _ _ _ h]
    simp only [State.f_withPwr]
    rw [State.logEvent_f _ _ _ _ _ _ _ _ h]
    repeat rw [State.f_setF_code _ _ _ _ _ _ (h _ (by simp [reactFields]))]

theorem Fld.outside_react {x : Fld} (h : x.outside raiseFields) : x.outside reactFields := fun y hy => h y (List.mem_append.mpr (.inr hy))

theorem State.markRaise_f (s : State) (fsid inst : Nat) (x : Fld) (i : Nat) (h : x.outside raiseFields) : (s.markRaise fsid inst).f x i = s.f x i := by
  unfold State.markRaise State.fltCount
  repeat rw [State.f_setF_code _ _ _ _ _ _ (h _ (by simp [raiseFields, markFields]))]
  split <;> rw [State.f_count _ _ _ _ _ _ _ _ (h _ (by simp [raiseFields, markFields])) (h _ (by simp [raiseFields, markFields]))]

theorem State.freeLock_f (s : State) (n : Nat) (x : Fld) (i : Nat) (h : x.outside reactFields) : (s.freeLock n).f x i = s.f x i := by
  unfold State.freeLock State.setFreed
  simp only
  repeat' split
  all_goals first
    | (rw [State.f_orF _ _ _ _ _ _ (h _ (by simp [reactFields])), State.f_withFw, State.f_setF_code _ _ _ _ _ _ (h _ (by simp [reactFields]))])
    | (rw [State.f_setF_code _ _ _ _ _ _ (h _ (by simp [reactFields]))])

theorem State.breakLock_f (s : State) (n : Nat) (x : Fld) (i : Nat) (h : x.outside reactFields) : (s.breakLock n).f x i = s.f x i := by
  unfold State.breakLock
  split
  · rfl
  · rw [State.f_setF_code _ _ _ _ _ _ (h _ (by simp [reactFields])), State.freeLock_f _ _ _ _ h]

theorem State.breakLocksOf_f (s : State) (l : List Nat) (x : Fld) (i : Nat) (h : x.outside reactFields) : (s.breakLocksOf l).f x i = s.f x i :=
  chainAll_f _ _ _ _ (fun a t => by
    split
    · exact State.breakLock_f _ _ _ _ h
    · rfl) _

theorem State.cpReset_f (s : State) (x : Fld) (i : Nat) (h : x.outside reactFields) : s.cpReset.f x i = s.f x i := by
  unfold State.cpReset
  simp only
  rw [chainAll_f _ _ _ _ (fun a t => by
    split
    · rw [State.f_setF_code _ _ _ _ _ _ (h _ (by simp [reactFields]))]
    · rfl), State.f_setF_code _ _ _ _ _ _ (h _ (by simp [reactFields])), State.breakLocksOf_f _ _ _ _ h]

theorem State.raiseFatal_f (s : State) (fsid inst : Nat) (d : List Byte) (x : Fld) (i : Nat) (h : x.outside raiseFields) : (s.raiseFatal fsid inst d).f x i = s.f x i := by
  unfold State.raiseFatal
  rw [State.enterFatal_f _ _ _ _ (Fld.outside_react h), State.logEvent_f _ _ _ _ _ _ _ _ (Fld.outside_react h), State.markRaise_f _ _ _ _ _ h]

theorem State.cpRestart_f (s : State) (x : Fld) (i : Nat) (h : x.outside raiseFields) : s.cpRestart.f x i = s.f x i := by
  unfold State.cpRestart
  simp only
  split
  · exact State.raiseFatal_f _ _ _ _ _ _ h
  · rw [State.cpReset_f _ _ _ (Fld.outside_react h), State.f_setF_code _ _ _ _ _ _ (h _ (by simp [raiseFields, reactFields])),
      State.f_count _ _ _ _ _ _ _ _ (h _ (by simp [raiseFields, reactFields])) (h _ (by simp [raiseFields, markFields]))]
    rfl

theorem State.graceRaise_f (s : State) (fsid inst : Nat) (x : Fld) (i : Nat) (h : x.outside reactFields) : (s.graceRaise fsid inst).f x i = s.f x i := by
  unfold State.graceRaise
  split
  · rfl
  · simp only
    rw [State.f_setF_code _ _ _ _ _ _ (h _ (by simp [reactFields]))]
    rfl

/-- A raise writes none but its own fields. -/
theorem State.raiseFault_f (s : State) (fsid inst : Nat) (d : List Byte) (x : Fld) (i : Nat) (h : x.outside raiseFields) : (s.raiseFault fsid inst d).f x i = s.f x i := by
  have hl : ∀ (b : Prop) [Decidable b] (t : State) k f c n d, (if b then t.logEvent k f c n d else t).f x i = t.f x i := by
    intro b _ t k f c n d
    split
    · exact State.logEvent_f _ _ _ _ _ _ _ _ (Fld.outside_react h)
    · rfl
  unfold State.raiseFault
  simp only
  split
  · exact State.raiseFatal_f _ _ _ _ _ _ h
  · split
    · rw [hl, State.markRaise_f _ _ _ _ _ h]
    · split
      · rw [State.safeNow_f _ _ _ _ _ _ (Fld.outside_react h), hl, State.markRaise_f _ _ _ _ _ h]
      · rw [State.graceRaise_f _ _ _ _ _ (Fld.outside_react h), hl, State.markRaise_f _ _ _ _ _ h]
      · rw [State.cpRestart_f _ _ _ h, hl, State.markRaise_f _ _ _ _ _ h]
      · rw [hl, State.markRaise_f _ _ _ _ _ h]

/-- ACTIVE of a source that is raised reads 1, whatever its class and reaction (R360). -/
theorem State.raiseFault_active (s : State) (fsid inst : Nat) (d : List Byte) : (s.raiseFault fsid inst d).f F.FLT_SRC_STATUS_ACTIVE fsid = 1 := by
  have ha : Fld.outside F.FLT_SRC_STATUS_ACTIVE reactFields := by unfold Fld.outside; decide
  have hm : ∀ (t : State) f k, (t.markRaise f k).f F.FLT_SRC_STATUS_ACTIVE f = 1 := by
    intro t f k
    unfold State.markRaise
    rw [State.f_setF_code _ _ _ _ _ _ (by decide), State.f_setF_same]
    rfl
  have hl : ∀ (b : Prop) [Decidable b] (t : State) k f c n d, (if b then t.logEvent k f c n d else t).f F.FLT_SRC_STATUS_ACTIVE fsid = t.f F.FLT_SRC_STATUS_ACTIVE fsid := by
    intro b _ t k f c n d
    split
    · exact State.logEvent_f _ _ _ _ _ _ _ _ ha
    · rfl
  have hf : ∀ (t : State) f k d, (t.raiseFatal f k d).f F.FLT_SRC_STATUS_ACTIVE f = 1 := by
    intro t f k d
    unfold State.raiseFatal
    rw [State.enterFatal_f _ _ _ _ ha, State.logEvent_f _ _ _ _ _ _ _ _ ha, hm]
  have hc : ∀ t : State, t.f F.FLT_SRC_STATUS_ACTIVE fsid = 1 → t.cpRestart.f F.FLT_SRC_STATUS_ACTIVE fsid = 1 := by
    intro t ht
    unfold State.cpRestart
    simp only
    split
    · by_cases e : fsid = 34
      · rw [e]
        exact hf _ _ _ _
      · unfold State.raiseFatal State.markRaise State.fltCount
        rw [State.enterFatal_f _ _ _ _ ha, State.logEvent_f _ _ _ _ _ _ _ _ ha, State.f_setF_code _ _ _ _ _ _ (by decide), State.f_setF_inst _ _ _ _ _ e]
        simp only [show ¬(34 < 32) by decide, if_false]
        rw [State.f_count _ _ _ _ _ _ _ _ (by decide) (by decide), ht]
    · rw [State.cpReset_f _ _ _ ha, State.f_setF_code _ _ _ _ _ _ (by decide), State.f_count _ _ _ _ _ _ _ _ (by decide) (by decide)]
      exact ht
  unfold State.raiseFault
  simp only
  split
  · exact hf _ _ _ _
  · split
    · rw [hl, hm]
    · split
      · rw [State.safeNow_f _ _ _ _ _ _ ha, hl, hm]
      · rw [State.graceRaise_f _ _ _ _ _ ha, hl, hm]
      · exact hc _ (by rw [hl, hm])
      · rw [hl, hm]

end Sys2Proof.Machine
end

