-- ==== Sys2Proof/Laws/KeepOps.lean ====
section
/-! SUPPORT. What the operations of Machine/Ops.lean do to the memories and to the queue. -/

set_option Elab.async false

namespace Sys2Proof.Machine

@[simp] theorem State.orF_stores (s : State) (F : Fld) (i k : Nat) : (State.orF s F i k).stores = s.stores := by
  simp [State.orF]

@[simp] theorem State.clrF_stores (s : State) (F : Fld) (i m : Nat) : (State.clrF s F i m).stores = s.stores := by
  simp [State.clrF]

@[simp] theorem State.count_stores (s : State) (F : Fld) (i : Nat) (S : Fld) (j k : Nat) : (State.count s F i S j k).stores = s.stores := by
  simp [State.count]

@[simp] theorem State.bump_stores (s : State) (F : Fld) (i : Nat) : (State.bump s F i).stores = s.stores := by
  simp [State.bump]

@[simp] theorem State.bumpBy_stores (s : State) (F : Fld) (i n : Nat) : (State.bumpBy s F i n).stores = s.stores := by
  simp [State.bumpBy]

@[simp] theorem State.putWords_stores (s : State) (m i : Nat) (ws : List Nat) : (State.putWords s m i ws).stores = s.stores := by
  fun_induction State.putWords s m i ws <;> simp_all

@[simp] theorem State.putResult_stores (s : State) (m status : Nat) (data : List Byte) : (State.putResult s m status data).stores = s.stores := by
  simp [State.putResult]

@[simp] theorem State.serve_stores (s : State) (m op : Nat) (lenOk : Nat → Bool) (act : State → State) (h : ∀ t, (act t).stores = t.stores) : (s.serve m op lenOk act).stores = s.stores := by
  unfold State.serve; (repeat' split) <;> simp [h]

@[simp] theorem State.startJob_stores (s : State) (m : Nat) (w : JobWork) : (State.startJob s m w).stores = s.stores := by
  simp [State.startJob]

@[simp] theorem State.endJob_stores (s : State) (n : Nat) (ok : Bool) (status : Nat) : (State.endJob s n ok status).stores = s.stores := by
  unfold State.endJob; (repeat' split) <;> simp

@[simp] theorem State.setFreed_stores (s : State) (n : Nat) : (State.setFreed s n).stores = s.stores := by
  simp [State.setFreed]

@[simp] theorem State.freeLock_stores (s : State) (n : Nat) : (State.freeLock s n).stores = s.stores := by
  simp [State.freeLock]

@[simp] theorem State.breakLock_stores (s : State) (n : Nat) : (State.breakLock s n).stores = s.stores := by
  simp [State.breakLock]

@[simp] theorem State.breakLocksOf_stores (s : State) (owners : List Nat) : (State.breakLocksOf s owners).stores = s.stores := by
  simp [State.breakLocksOf]

@[simp] theorem State.freeLocksOf_stores (s : State) (owners : List Nat) : (State.freeLocksOf s owners).stores = s.stores := by
  simp [State.freeLocksOf]

@[simp] theorem State.openSession_stores (s : State) (m : Nat) : (State.openSession s m).stores = s.stores := by
  simp [State.openSession]

@[simp] theorem State.closeSession_stores (s : State) (m : Nat) : (State.closeSession s m).stores = s.stores := by
  simp [State.closeSession]

@[simp] theorem State.closeSessions_stores (s : State) : (State.closeSessions s).stores = s.stores := by
  simp [State.closeSessions]

@[simp] theorem State.tick_stores (s : State) : (State.tick s).stores = s.stores := by
  simp [State.tick]

@[simp] theorem State.gcmFail_stores (s : State) : (State.gcmFail s).stores = s.stores := by
  simp [State.gcmFail]

end Sys2Proof.Machine
end

