-- ==== Sys2Proof/Laws/KeepFaultOps.lean ====
section
/-! SUPPORT. What the operations of Machine/FaultOps.lean do to the memories and to the queue. -/

set_option Elab.async false

namespace Sys2Proof.Machine

@[simp] theorem State.evtLost_stores (s : State) : (State.evtLost s).stores = s.stores := by
  simp [State.evtLost]

@[simp] theorem State.logEvent_stores (s : State) (kind fsid cls inst : Nat) (detail : List Byte) : (State.logEvent s kind fsid cls inst detail).stores = s.stores := by
  simp [State.logEvent]

@[simp] theorem State.logFirmware_stores (s : State) (k : Nat) : (State.logFirmware s k).stores = s.stores := by
  simp [State.logFirmware]

@[simp] theorem State.setPort_stores (s : State) (n : Nat) (p : LampPort) : (State.setPort s n p).stores = s.stores := by
  simp [State.setPort]

@[simp] theorem State.setHolders_stores (s : State) (n : Nat) (l : List Nat) : (State.setHolders s n l).stores = s.stores := by
  simp [State.setHolders]

@[simp] theorem State.showBuf_stores (s : State) (n : Nat) : (State.showBuf s n).stores = s.stores := by
  simp [State.showBuf]

@[simp] theorem State.settleChan_stores (s : State) (n : Nat) : (State.settleChan s n).stores = s.stores := by
  simp [State.settleChan]

@[simp] theorem State.dropDisplay_stores (s : State) (d : Nat) : (State.dropDisplay s d).stores = s.stores := by
  simp [State.dropDisplay]

@[simp] theorem State.refreshPort_stores (s : State) (n : Nat) : (State.refreshPort s n).stores = s.stores := by
  unfold State.refreshPort; dsimp only; (repeat' split) <;> simp

@[simp] theorem State.refreshPorts_stores (s : State) : (State.refreshPorts s).stores = s.stores := by
  simp [State.refreshPorts]

@[simp] theorem State.safeNow_stores (s : State) (fsid : Nat) (scope : Bool) (insts : List Nat) : (State.safeNow s fsid scope insts).stores = s.stores := by
  simp [State.safeNow]

@[simp] theorem State.hewersOut_stores (s : State) : (State.hewersOut s).stores = s.stores := by
  simp [State.hewersOut]

@[simp] theorem State.enterFatal_stores (s : State) (fsid : Nat) : (State.enterFatal s fsid).stores = s.stores := by
  simp [State.enterFatal]

@[simp] theorem State.fltCount_stores (s : State) (fsid : Nat) : (State.fltCount s fsid).stores = s.stores := by
  simp [State.fltCount]

@[simp] theorem State.markRaise_stores (s : State) (fsid inst : Nat) : (State.markRaise s fsid inst).stores = s.stores := by
  simp [State.markRaise]

@[simp] theorem State.raiseFatal_stores (s : State) (fsid inst : Nat) (detail : List Byte) : (State.raiseFatal s fsid inst detail).stores = s.stores := by
  simp [State.raiseFatal]

@[simp] theorem State.cpReset_stores (s : State) : (State.cpReset s).stores = s.stores := by
  simp [State.cpReset]

@[simp] theorem State.cpRestart_stores (s : State) : (State.cpRestart s).stores = s.stores := by
  simp [State.cpRestart]

@[simp] theorem State.graceRaise_stores (s : State) (fsid inst : Nat) : (State.graceRaise s fsid inst).stores = s.stores := by
  unfold State.graceRaise; (repeat' split) <;> simp

@[simp] theorem State.graceStop_stores (s : State) (fsid : Nat) : (State.graceStop s fsid).stores = s.stores := by
  simp [State.graceStop]

@[simp] theorem State.raiseFault_stores (s : State) (fsid inst : Nat) (detail : List Byte) : (State.raiseFault s fsid inst detail).stores = s.stores := by
  unfold State.raiseFault; dsimp only; (repeat' split) <;> simp

@[simp] theorem State.dropHolder_stores (s : State) (fsid : Nat) : (State.dropHolder s fsid).1.stores = s.stores := by
  simp [State.dropHolder]

@[simp] theorem State.releaseSource_stores (s : State) (fsid : Nat) : (State.releaseSource s fsid).stores = s.stores := by
  simp [State.releaseSource]

@[simp] theorem State.clearSource_stores (s : State) (fsid : Nat) : (State.clearSource s fsid).stores = s.stores := by
  simp [State.clearSource]

@[simp] theorem State.graceExpire_stores (s : State) (fsid : Nat) : (State.graceExpire s fsid).stores = s.stores := by
  unfold State.graceExpire; (repeat' split) <;> simp

end Sys2Proof.Machine
end

