-- ==== Sys2Proof/Laws/KeepMemOps.lean ====
section
/-! SUPPORT. What the operations of Machine/MemOps.lean do to the memories and to the queue. -/

set_option Elab.async false

namespace Sys2Proof.Machine

@[simp] theorem State.denyRegion_stores (s : State) (q a : Nat) (write : Bool) : (State.denyRegion s q a write).stores = s.stores := by
  simp [State.denyRegion]

@[simp] theorem State.setMchan_stores (s : State) (c : Nat) (x : MemChan) : (State.setMchan s c x).stores = s.stores := by
  simp [State.setMchan]

@[simp] theorem State.respond_stores (s : State) (q line : Nat) (write : Bool) (code : Nat) : (State.respond s q line write code).stores = s.stores := by
  simp [State.respond]

@[simp] theorem State.present_stores (s : State) (q a : Nat) (write secure : Bool) : (State.present s q a write secure).stores = s.stores := by
  simp [State.present]

@[simp] theorem State.presentLines_stores (s : State) (q a n : Nat) (write secure : Bool) : (State.presentLines s q a n write secure).stores = s.stores := by
  simp [State.presentLines]

end Sys2Proof.Machine
end

