-- ==== Sys2Proof/Laws/KeepInitOps.lean ====
section
/-! SUPPORT. What the operations of Machine/InitOps.lean do to the memories and to the queue. -/

set_option Elab.async false

namespace Sys2Proof.Machine

@[simp] theorem State.restoreEntry_stores (s : State) (e : List Byte) : (State.restoreEntry s e).stores = s.stores := by
  simp [State.restoreEntry]

@[simp] theorem State.putLaneCfg_stores (s : State) (n en func port lane rate rxInv txInv : Nat) : (State.putLaneCfg s n en func port lane rate rxInv txInv).stores = s.stores := by
  simp [State.putLaneCfg]

@[simp] theorem State.tryEntry_stores (s : State) (e : List Byte) : (State.tryEntry s e).stores = s.stores := by
  simp [State.tryEntry]

@[simp] theorem State.openLane_stores (s : State) (k n : Nat) : (State.openLane s k n).stores = s.stores := by
  simp [State.openLane]

@[simp] theorem State.loadLaneMap_stores (s : State) (k : Nat) : (State.loadLaneMap s k).stores = s.stores := by
  simp [State.loadLaneMap]

@[simp] theorem State.loadDdrConfig_stores (s : State) (k : Nat) : (State.loadDdrConfig s k).stores = s.stores := by
  simp [State.loadDdrConfig]

@[simp] theorem State.loadWeights_stores (s : State) : (State.loadWeights s).stores = s.stores := by
  simp [State.loadWeights]

@[simp] theorem State.readBins_stores (s : State) : (State.readBins s).stores = s.stores := by
  simp [State.readBins]

@[simp] theorem State.beginTraining_stores (s : State) : (State.beginTraining s).stores = s.stores := by
  simp [State.beginTraining]

@[simp] theorem State.loadControlQueues_stores (s : State) (k : Nat) : (State.loadControlQueues s k).stores = s.stores := by
  simp [State.loadControlQueues]

@[simp] theorem State.enableBlocks_stores (s : State) (k : Nat) : (State.enableBlocks s k).stores = s.stores := by
  simp [State.enableBlocks]

@[simp] theorem State.beginTests_stores (s : State) : (State.beginTests s).stores = s.stores := by
  simp [State.beginTests]

end Sys2Proof.Machine
end

