-- ==== Sys2Proof/Laws/KeepBoot.lean ====
section
/-! SUPPORT. What the operations of Machine/Boot.lean do to the memories and to the queue. -/

set_option Elab.async false

namespace Sys2Proof.Machine

@[simp] theorem State.loadOtp_stores (s : State) : (State.loadOtp s).stores = s.stores := by
  simp [State.loadOtp]

@[simp] theorem State.initRoutes_stores (s : State) : (State.initRoutes s).stores = s.stores := by
  simp [State.initRoutes]

@[simp] theorem State.firmwareInit_stores (s : State) : (State.firmwareInit s).stores = s.stores := by
  simp [State.firmwareInit]

@[simp] theorem State.startImage_stores (s : State) (i : ImageInfo) (preferred : Nat) (trial : Bool) : (State.startImage s i preferred trial).stores = s.stores := by
  simp [State.startImage]

@[simp] theorem State.answerUnknown_stores (s : State) (m : Nat) : (State.answerUnknown s m).stores = s.stores := by
  simp [State.answerUnknown]

@[simp] theorem State.enterRecovery_stores (s : State) : (State.enterRecovery s).stores = s.stores := by
  simp [State.enterRecovery]

@[simp] theorem State.bootWith_stores (s : State) (i : Option ImageInfo) (e1 e2 first preferred : Nat) (trial : Bool) : (State.bootWith s i e1 e2 first preferred trial).stores = s.stores := by
  unfold State.bootWith; (repeat' split) <;> simp

@[simp] theorem State.romGoesOn_stores (s : State) : (State.romGoesOn s).stores = s.stores := by
  simp [State.romGoesOn]

@[simp] theorem State.fwReady_stores (s : State) : (State.fwReady s).stores = s.stores := by
  simp [State.fwReady]

end Sys2Proof.Machine
end

