-- ==== Sys2Proof/Laws/KeepQueues.lean ====
section
/-! SUPPORT. What the operations of Machine/Queues.lean do to the memories and to the queue. -/

set_option Elab.async false

namespace Sys2Proof.Machine

@[simp] theorem State.setQueue_stores (s : State) (q : Nat) (k : Queue) : (State.setQueue s q k).stores = s.stores := by
  simp [State.setQueue]

@[simp] theorem State.countDrop_stores (s : State) (q : Nat) : (State.countDrop s q).stores = s.stores := by
  simp [State.countDrop]

@[simp] theorem State.emptyQueue_stores (s : State) (q : Nat) : (State.emptyQueue s q).stores = s.stores := by
  simp [State.emptyQueue]

@[simp] theorem State.withPool_stores (s : State) (g : PoolState → PoolState) : (s.withPool g).stores = s.stores := by
  simp [State.withPool]

@[simp] theorem State.noteFree_stores (s : State) : (State.noteFree s).stores = s.stores := by
  simp [State.noteFree]

theorem State.takeSram_stores (s : State) (n : Nat) (l : List Nat) (t : State) (h : s.takeSram n = some (l, t)) : t.stores = s.stores := by
  unfold State.takeSram at h; simp only [Option.map_eq_some_iff] at h; obtain ⟨x, -, hx⟩ := h; cases hx; simp

@[simp] theorem State.cacheIn_stores (s : State) : (State.cacheIn s).stores = s.stores := by
  simp [State.cacheIn]

theorem State.takeDram_stores (s : State) (x : List Nat × State) (h : s.takeDram = some x) : x.2.stores = s.stores := by
  unfold State.takeDram at h; dsimp only at h; (repeat' split at h) <;> simp at h <;> subst h <;> simp

theorem State.takeBuffers_stores (s : State) (n : Nat) (strict : Bool) (x : List Nat × State) (h : s.takeBuffers n strict = some x) : x.2.stores = s.stores := by
  induction n generalizing s x with
  | zero => simp [State.takeBuffers] at h; subst h; rfl
  | succ k ih =>
    unfold State.takeBuffers at h
    dsimp only at h
    split at h
    · cases h
    · rename_i b t ht
      obtain ⟨y, hy, rfl⟩ := Option.map_eq_some_iff.mp h
      refine (ih t y hy).trans ?_
      (repeat' split at ht) <;> first | exact State.takeSram_stores _ _ _ _ ht | exact State.takeDram_stores _ _ ht

@[simp] theorem State.setPacket_stores (s : State) (b : Nat) (p : Packet) : (State.setPacket s b p).stores = s.stores := by
  simp [State.setPacket]

@[simp] theorem State.stall_stores (s : State) (r : Requester) : (State.stall s r).stores = s.stores := by
  simp [State.stall]

@[simp] theorem State.unstall_stores (s : State) (r : Requester) : (State.unstall s r).stores = s.stores := by
  simp [State.unstall]

@[simp] theorem State.noBuffer_stores (s : State) : (State.noBuffer s).stores = s.stores := by
  simp [State.noBuffer]

end Sys2Proof.Machine
end

