-- ==== Sys2Proof/Laws/KeepCodec.lean ====
section
/-! SUPPORT. What the operations of Machine/Codec.lean do to the memories and to the queue. -/

set_option Elab.async false

namespace Sys2Proof.Machine

@[simp] theorem State.setCtx?_stores (s : State) (c : Nat) (x : Option Ctx) : (State.setCtx? s c x).stores = s.stores := by
  simp [State.setCtx?]

@[simp] theorem State.modCtx_stores (s : State) (c : Nat) (g : Ctx → Ctx) : (s.modCtx c g).stores = s.stores := by
  unfold State.modCtx; (repeat' split) <;> simp

@[simp] theorem State.setWall?_stores (s : State) (w : Nat) (x : Option Wall) : (State.setWall? s w x).stores = s.stores := by
  simp [State.setWall?]

@[simp] theorem State.pauseWall_stores (s : State) (w : Nat) : (State.pauseWall s w).stores = s.stores := by
  simp [State.pauseWall]

@[simp] theorem State.playWall_stores (s : State) (w start : Nat) : (State.playWall s w start).stores = s.stores := by
  simp [State.playWall]

@[simp] theorem State.setGroup?_stores (s : State) (g : Nat) (x : Option Group) : (State.setGroup? s g x).stores = s.stores := by
  simp [State.setGroup?]

@[simp] theorem State.setDesc_stores (s : State) (d : Nat) (x : DescState) : (State.setDesc s d x).stores = s.stores := by
  simp [State.setDesc]

@[simp] theorem State.setHewer_stores (s : State) (h : Nat) (x : Hewer) : (State.setHewer s h x).stores = s.stores := by
  simp [State.setHewer]

@[simp] theorem State.stat_stores (s : State) (c k n : Nat) : (State.stat s c k n).stores = s.stores := by
  simp [State.stat]

@[simp] theorem State.raiseCtx_stores (s : State) (c : Nat) : (State.raiseCtx s c).stores = s.stores := by
  simp [State.raiseCtx]

@[simp] theorem State.refreshCapacity_stores (s : State) : (State.refreshCapacity s).stores = s.stores := by
  simp [State.refreshCapacity]

@[simp] theorem State.setHwState_stores (s : State) (h st : Nat) : (State.setHwState s h st).stores = s.stores := by
  simp [State.setHwState]

@[simp] theorem State.writeCtxSet_stores (s : State) (c : Nat) (a : CtxSet) : (State.writeCtxSet s c a).stores = s.stores := by
  simp [State.writeCtxSet]

@[simp] theorem State.ctxHandover_stores (s : State) (c : Nat) : (State.ctxHandover s c).stores = s.stores := by
  simp [State.ctxHandover]

@[simp] theorem State.clearCtxRegs_stores (s : State) (c : Nat) : (State.clearCtxRegs s c).stores = s.stores := by
  simp [State.clearCtxRegs]

end Sys2Proof.Machine
end

