-- ==== Sys2Proof/Laws/KeepScratch.lean ====
section
/-! SUPPORT. What the operations of Machine/Scratch.lean do to the memories and to the queue. -/

set_option Elab.async false

namespace Sys2Proof.Machine

@[simp] theorem State.spdServe_stores (s : State) : (State.spdServe s).stores = s.stores := by
  simp [State.spdServe]

@[simp] theorem State.spdAsk0_stores (s : State) (os : List SpdOp) : (State.spdAsk0 s os).stores = s.stores := by
  simp [State.spdAsk0]

@[simp] theorem State.spdAsk1_stores (s : State) (os : List SpdOp) : (State.spdAsk1 s os).stores = s.stores := by
  simp [State.spdAsk1]

@[simp] theorem State.spdMeets_stores (s : State) (ws : List Nat) (e : SramRead) : (s.spdMeets ws e).2.stores = s.stores := by
  unfold State.spdMeets; (repeat' split) <;> simp

@[simp] theorem State.spdBytes_stores (s : State) (w n : Nat) (e : SramRead) : (s.spdBytes w n e).2.stores = s.stores := by
  simp [State.spdBytes]

end Sys2Proof.Machine
end

