-- ==== Sys2Proof/Laws/KeepLoads.lean ====
section
/-! SUPPORT. What the operations of Machine/Loads.lean do to the memories and to the queue. -/

set_option Elab.async false

namespace Sys2Proof.Machine

@[simp] theorem State.beginLoad_stores (s : State) (h : Nat) (p : PatchSet) (w : Waiter) : (State.beginLoad s h p w).stores = s.stores := by
  simp [State.beginLoad]

@[simp] theorem State.putPatchWord_stores (s : State) (h w v : Nat) : (State.putPatchWord s h w v).stores = s.stores := by
  simp [State.putPatchWord]

@[simp] theorem State.putMatch_stores (s : State) (h m : Nat) (e : Option (Nat × Nat)) : (State.putMatch s h m e).stores = s.stores := by
  simp [State.putMatch]

@[simp] theorem State.writePatch_stores (s : State) (h : Nat) (p : PatchSet) : (State.writePatch s h p).stores = s.stores := by
  simp [State.writePatch]

@[simp] theorem State.copySet_stores (s : State) (p : PatchSet) : (State.copySet s p).stores = s.stores := by
  simp [State.copySet]

@[simp] theorem State.copiedSet_stores (s : State) (p : PatchSet) (e : SramRead) : (s.copiedSet p e).2.stores = s.stores := by
  simp [State.copiedSet]

@[simp] theorem State.updateFrom_stores (s : State) (k : Nat) : (State.updateFrom s k).stores = s.stores := by
  unfold State.updateFrom; (repeat' split) <;> simp

@[simp] theorem State.updateFailed_stores (s : State) : (State.updateFailed s).stores = s.stores := by
  unfold State.updateFailed; (repeat' split) <;> simp

@[simp] theorem State.updateWakes_stores (s : State) (h : Nat) : (State.updateWakes s h).stores = s.stores := by
  simp [State.updateWakes]

@[simp] theorem State.tellWaiter_stores (s : State) (w : Waiter) (ok : Bool) : (State.tellWaiter s w ok).stores = s.stores := by
  unfold State.tellWaiter; (repeat' split) <;> simp

@[simp] theorem State.tellDrained_stores (s : State) (h : Nat) (ws : List Waiter) : (State.tellDrained s h ws).stores = s.stores := by
  unfold State.tellDrained; refine chainAll_stores _ _ _ (fun w t => ?_); cases w <;> simp; split <;> simp

end Sys2Proof.Machine
end

