-- ==== Sys2Proof/Laws/KeepStored.lean ====
section
/-! SUPPORT. What the operations of Machine/Stored.lean do to the memories and to the queue. -/

set_option Elab.async false

namespace Sys2Proof.Machine

@[simp] theorem State.showDescBase_stores (s : State) (d base : Nat) : (State.showDescBase s d base).stores = s.stores := by
  simp [State.showDescBase]

@[simp] theorem State.setDescBase_stores (s : State) (d base : Nat) : (State.setDescBase s d base).stores = s.stores := by
  simp [State.setDescBase]

@[simp] theorem State.refreshDescCount_stores (s : State) : (State.refreshDescCount s).stores = s.stores := by
  simp [State.refreshDescCount]

@[simp] theorem State.refreshMark_stores (s : State) (g d : Nat) : (State.refreshMark s g d).stores = s.stores := by
  simp [State.refreshMark]

@[simp] theorem State.resetDesc_stores (s : State) (d : Nat) : (State.resetDesc s d).stores = s.stores := by
  simp [State.resetDesc]

@[simp] theorem State.shrinkGroup_stores (s : State) (g : Nat) : (State.shrinkGroup s g).stores = s.stores := by
  unfold State.shrinkGroup; dsimp only; (repeat' split) <;> simp

@[simp] theorem State.refreshMarks_stores (s : State) (g : Nat) : (State.refreshMarks s g).stores = s.stores := by
  simp [State.refreshMarks]

@[simp] theorem State.swapAreas_stores (s : State) (c k : Nat) : (State.swapAreas s c k).stores = s.stores := by
  simp [State.swapAreas]

end Sys2Proof.Machine
end

