-- ==== Sys2Proof/Laws/KeepBands.lean ====
section
/-! SUPPORT. What the operations of Machine/Bands.lean do to the memories and to the queue. -/

set_option Elab.async false

namespace Sys2Proof.Machine

@[simp] theorem State.setChan_stores (s : State) (n : Nat) (c : RivChan) : (State.setChan s n c).stores = s.stores := by
  simp [State.setChan]

@[simp] theorem State.setChain_stores (s : State) (a : Nat) (c : Chain) : (State.setChain s a c).stores = s.stores := by
  simp [State.setChain]

@[simp] theorem State.setGrid_stores (s : State) (g : Nat) (x : Grid) : (State.setGrid s g x).stores = s.stores := by
  simp [State.setGrid]

@[simp] theorem State.dropStrips_stores (s : State) (n k : Nat) : (State.dropStrips s n k).stores = s.stores := by
  simp [State.dropStrips]

@[simp] theorem State.noteSkip_stores (s : State) (c p : Nat) : (State.noteSkip s c p).stores = s.stores := by
  simp [State.noteSkip]

end Sys2Proof.Machine
end

