-- ==== Sys2Proof/Laws/KeepUnits.lean ====
section
/-! SUPPORT. What the operations of Machine/Units.lean do to the memories and to the queue. -/

set_option Elab.async false

namespace Sys2Proof.Machine

@[simp] theorem State.makeReady_stores (s : State) (r : Ready) (allot : Nat) : (State.makeReady s r allot).stores = s.stores := by
  simp [State.makeReady]

@[simp] theorem State.concealJob_stores (s : State) (c : Nat) (p : Pic) (i : Nat) : (State.concealJob s c p i).stores = s.stores := by
  simp [State.concealJob]

@[simp] theorem State.endReception_stores (s : State) (c : Nat) : (State.endReception s c).stores = s.stores := by
  unfold State.endReception; dsimp only; (repeat' split) <;> simp

@[simp] theorem State.openPic_stores (s : State) (c stamp : Nat) : (State.openPic s c stamp).stores = s.stores := by
  unfold State.openPic; dsimp only; (repeat' split) <;> simp

@[simp] theorem State.frontReset_stores (s : State) (c : Nat) : (State.frontReset s c).stores = s.stores := by
  simp [State.frontReset]

@[simp] theorem State.frontDie_stores (s : State) (c : Nat) : (State.frontDie s c).stores = s.stores := by
  simp [State.frontDie]

@[simp] theorem State.dropUnit_stores (s : State) (c : Nat) : (State.dropUnit s c).stores = s.stores := by
  simp [State.dropUnit]

@[simp] theorem State.frontErr_stores (s : State) (c k : Nat) : (State.frontErr s c k).stores = s.stores := by
  simp [State.frontErr]

@[simp] theorem State.openStream_stores (s : State) (c : Nat) (h : StreamHdr) (raw : List Byte) : (State.openStream s c h raw).stores = s.stores := by
  simp [State.openStream]

@[simp] theorem State.onStreamHdr_stores (s : State) (c : Nat) (body : List Byte) : (State.onStreamHdr s c body).stores = s.stores := by
  unfold State.onStreamHdr; (repeat' split) <;> simp

@[simp] theorem State.onPicHdr_stores (s : State) (c stamp start : Nat) (body : List Byte) : (State.onPicHdr s c stamp start body).stores = s.stores := by
  unfold State.onPicHdr; dsimp only; (repeat' split) <;> simp

@[simp] theorem State.onMetadata_stores (s : State) (c : Nat) (body : List Byte) : (State.onMetadata s c body).stores = s.stores := by
  simp [State.onMetadata]

@[simp] theorem State.onStreamEnd_stores (s : State) (c : Nat) : (State.onStreamEnd s c).stores = s.stores := by
  simp [State.onStreamEnd]

@[simp] theorem State.acceptSlice_stores (s : State) (c used : Nat) (h : SliceHdr) : (State.acceptSlice s c used h).stores = s.stores := by
  unfold State.acceptSlice; dsimp only; (repeat' split) <;> simp

@[simp] theorem State.abandonBuild_stores (s : State) (c k : Nat) : (State.abandonBuild s c k).stores = s.stores := by
  simp [State.abandonBuild]

@[simp] theorem State.checkBedUnit_stores (s : State) (c : Nat) (body : List Byte) : (State.checkBedUnit s c body).2.stores = s.stores := by
  unfold State.checkBedUnit; dsimp only; (repeat' split) <;> simp

@[simp] theorem State.frontSeg_stores (s : State) (c : Nat) (stamp : Nat) (code : Nat) (body : List Byte) (used : Nat) : (State.frontSeg s c stamp code body used).1.stores = s.stores := by
  unfold State.frontSeg; dsimp only; (repeat' split) <;> simp

@[simp] theorem State.skipOn_stores (s : State) (c from_ : Nat) : (State.skipOn s c from_).stores = s.stores := by
  simp [State.skipOn]

@[simp] theorem State.skipBad_stores (s : State) (c j : Nat) : (State.skipBad s c j).stores = s.stores := by
  simp [State.skipBad]

@[simp] theorem State.examine_stores (s : State) (c fuel : Nat) : (s.examine c fuel).stores = s.stores := by
  induction fuel generalizing s with
  | zero => simp [State.examine]
  | succ n ih =>
    unfold State.examine
    dsimp only
    (repeat' split) <;> simp [ih]

@[simp] theorem State.notice_stores (s : State) (c : Nat) : (State.notice s c).stores = s.stores := by
  simp [State.notice]

@[simp] theorem State.noticeGroup_stores (s : State) (g : Nat) : (State.noticeGroup s g).stores = s.stores := by
  simp [State.noticeGroup]

@[simp] theorem State.hostPin_stores (s : State) (g d : Nat) : (State.hostPin s g d).stores = s.stores := by
  simp [State.hostPin]

@[simp] theorem State.ctxStatus_stores (s : State) (c : Nat) (p : Pic) : (State.ctxStatus s c p).stores = s.stores := by
  simp [State.ctxStatus]

@[simp] theorem State.awaitDisplay_stores (s : State) (c : Nat) (p : Pic) (h : Held) (meets : Nat) : (State.awaitDisplay s c p h meets).stores = s.stores := by
  simp [State.awaitDisplay]

@[simp] theorem State.completePicture_stores (s : State) (c : Nat) (p : Pic) (meets : Nat) : (State.completePicture s c p meets).stores = s.stores := by
  simp [State.completePicture]

@[simp] theorem State.countLate_stores (s : State) (c : Nat) (late : Bool) : (State.countLate s c late).stores = s.stores := by
  simp [State.countLate]

@[simp] theorem State.displayAt_stores (s : State) (c t : Nat) : (State.displayAt s c t).stores = s.stores := by
  unfold State.displayAt; dsimp only; (repeat' split) <;> simp

@[simp] theorem State.raiseMeets_stores (s : State) (c picture apply : Nat) : (State.raiseMeets s c picture apply).stores = s.stores := by
  simp [State.raiseMeets]

@[simp] theorem State.syncMarks_stores (s : State) : (State.syncMarks s).stores = s.stores := by
  simp [State.syncMarks]

@[simp] theorem State.receptionTimeout_stores (s : State) (c : Nat) : (State.receptionTimeout s c).stores = s.stores := by
  simp [State.receptionTimeout]

end Sys2Proof.Machine
end

