-- ==== Sys2Proof/Laws/KeepDestroy.lean ====
section
/-! SUPPORT. What the operations of Machine/Destroy.lean do to the memories and to the queue. -/

set_option Elab.async false

namespace Sys2Proof.Machine

@[simp] theorem State.freeQueue_stores (s : State) (c : Nat) : (State.freeQueue s c).stores = s.stores := by
  simp [State.freeQueue]

@[simp] theorem State.forgetBands_stores (s : State) (c : Nat) : (State.forgetBands s c).stores = s.stores := by
  simp [State.forgetBands]

@[simp] theorem State.dropDesc_stores (s : State) (d : Nat) : (State.dropDesc s d).stores = s.stores := by
  simp [State.dropDesc]

@[simp] theorem State.leaveGroup_stores (s : State) (g : Nat) : (State.leaveGroup s g).stores = s.stores := by
  simp [State.leaveGroup]

@[simp] theorem State.endLoads_stores (s : State) (c : Nat) : (State.endLoads s c).stores = s.stores := by
  simp [State.endLoads]

@[simp] theorem State.removeCtx_stores (s : State) (c : Nat) : (State.removeCtx s c).stores = s.stores := by
  simp [State.removeCtx]

@[simp] theorem State.beginEnd_stores (s : State) (c : Nat) : (State.beginEnd s c).stores = s.stores := by
  simp [State.beginEnd]

@[simp] theorem State.removeWall_stores (s : State) (w : Nat) : (State.removeWall s w).stores = s.stores := by
  unfold State.removeWall; (repeat' split) <;> simp

@[simp] theorem State.reapOne_stores (s : State) (d : Dying) : (State.reapOne s d).stores = s.stores := by
  unfold State.reapOne; (repeat' split) <;> simp

@[simp] theorem State.reap_stores (s : State) : (State.reap s).stores = s.stores := by
  simp [State.reap]

@[simp] theorem State.destroy_stores (s : State) (m : Nat) (cs : List Nat) (wall : Option Nat) : (State.destroy s m cs wall).stores = s.stores := by
  simp [State.destroy]

end Sys2Proof.Machine
end

