-- ==== Sys2Proof/Laws/KeepSched.lean ====
section
/-! SUPPORT. What the operations of Machine/Sched.lean do to the memories and to the queue. -/

set_option Elab.async false

namespace Sys2Proof.Machine

@[simp] theorem State.useKey_stores (s : State) (wall : Nat) (odd : Bool) (tile : Nat) : (State.useKey s wall odd tile).stores = s.stores := by
  simp [State.useKey]

@[simp] theorem State.takeDesc_stores (s : State) (c : Nat) : (State.takeDesc s c).stores = s.stores := by
  unfold State.takeDesc; dsimp only; (repeat' split) <;> simp

@[simp] theorem State.freshHewer_stores (s : State) (h : Nat) (r : Run) (hit : Bool) : (State.freshHewer s h r hit).stores = s.stores := by
  simp [State.freshHewer]

@[simp] theorem State.cacheCtx_stores (s : State) (c : Nat) : (State.cacheCtx s c).stores = s.stores := by
  simp [State.cacheCtx]

@[simp] theorem State.keyAlarm_stores (s : State) : (State.keyAlarm s).stores = s.stores := by
  simp [State.keyAlarm]

@[simp] theorem State.beginBuild_stores (s : State) (c k gen row : Nat) : (State.beginBuild s c k gen row).stores = s.stores := by
  simp [State.beginBuild]

@[simp] theorem State.startBed_stores (s : State) (h c : Nat) (u : BedUnit) : (State.startBed s h c u).stores = s.stores := by
  unfold State.startBed; (repeat' split) <;> simp

@[simp] theorem State.bedDispatch_stores (s : State) (h : Nat) : (State.bedDispatch s h).stores = s.stores := by
  unfold State.bedDispatch; (repeat' split) <;> simp

@[simp] theorem State.noteLateness_stores (s : State) (c : Nat) (enc : Bool) (deadline : Nat) : (State.noteLateness s c enc deadline).stores = s.stores := by
  simp [State.noteLateness]

@[simp] theorem State.countUnit_stores (s : State) (c : Nat) (r : Run) (bytes : Nat) : (State.countUnit s c r bytes).stores = s.stores := by
  simp [State.countUnit]

@[simp] theorem State.encodeDone_stores (s : State) (c : Nat) (r : Run) (bytes : Nat) : (State.encodeDone s c r bytes).stores = s.stores := by
  simp [State.encodeDone]

@[simp] theorem State.swapBed_stores (s : State) (c k gen crc colour : Nat) : (State.swapBed s c k gen crc colour).stores = s.stores := by
  simp [State.swapBed]

@[simp] theorem State.bedCrcFail_stores (s : State) (c k : Nat) : (State.bedCrcFail s c k).stores = s.stores := by
  simp [State.bedCrcFail]

@[simp] theorem State.hewerFreed_stores (s : State) (h : Nat) : (State.hewerFreed s h).stores = s.stores := by
  unfold State.hewerFreed; dsimp only; repeat' (first | (simp; done) | (refine chainAll_stores _ _ _ (fun _ _ => ?_)) | (refine (chainAll_stores _ _ _ (fun _ _ => ?_)).trans ?_) | split | simp)

@[simp] theorem State.parseOn_stores (s : State) (c : Nat) (r : Run) : (State.parseOn s c r).stores = s.stores := by
  simp [State.parseOn]

end Sys2Proof.Machine
end

