-- ==== Sys2Proof/Laws/KeepWork.lean ====
section
/-! SUPPORT. What the operations of Machine/Work.lean do to the memories and to the queue. -/

set_option Elab.async false

namespace Sys2Proof.Machine

@[simp] theorem State.setRun_stores (s : State) (h : Nat) (r : Run) : (State.setRun s h r).stores = s.stores := by
  simp [State.setRun]

@[simp] theorem State.unitError_stores (s : State) (h : Nat) (r : Run) (j : Nat) : (State.unitError s h r j).stores = s.stores := by
  simp [State.unitError]

@[simp] theorem State.endError_stores (s : State) (h : Nat) (r : Run) (j : Nat) : (State.endError s h r j).stores = s.stores := by
  simp [State.endError]

@[simp] theorem State.parseHead_stores (s : State) (h : Nat) (r : Run) : (State.parseHead s h r).stores = s.stores := by
  unfold State.parseHead; dsimp only; (repeat' split) <;> simp

@[simp] theorem State.shortRead_stores (s : State) (h : Nat) (r : Run) (e : RunEnd) : (State.shortRead s h r e).stores = s.stores := by
  unfold State.shortRead; (repeat' split) <;> simp

@[simp] theorem State.presentReads_stores (s : State) (r : Run) (b : BlockElems) : (State.presentReads s r b).stores = s.stores := by
  simp [State.presentReads]

@[simp] theorem State.parseBlock_stores (s : State) (h : Nat) (r : Run) : (State.parseBlock s h r).stores = s.stores := by
  unfold State.parseBlock; dsimp only; (repeat' split) <;> simp

@[simp] theorem State.endShort_stores (s : State) (h : Nat) (r : Run) : (State.endShort s h r).stores = s.stores := by
  simp [State.endShort]

@[simp] theorem State.endTrailer_stores (s : State) (h : Nat) (r : Run) (taken data body : List Byte) (cut : Nat) (extra : Bool) (used : Nat) : (State.endTrailer s h r taken data body cut extra used).stores = s.stores := by
  unfold State.endTrailer; (repeat' split) <;> simp

@[simp] theorem State.endMarker_stores (s : State) (h : Nat) (r : Run) (taken data rest : List Byte) (cut : Nat) (extra : Bool) : (State.endMarker s h r taken data rest cut extra).stores = s.stores := by
  unfold State.endMarker; (repeat' split) <;> simp

@[simp] theorem State.endExtra_stores (s : State) (h : Nat) (r : Run) (taken data rest : List Byte) (cut : Nat) : (State.endExtra s h r taken data rest cut).stores = s.stores := by
  simp [State.endExtra]

@[simp] theorem State.parseEnd_stores (s : State) (h : Nat) (r : Run) : (State.parseEnd s h r).stores = s.stores := by
  unfold State.parseEnd; dsimp only; (repeat' split) <;> simp

@[simp] theorem State.parseWork_stores (s : State) (h : Nat) : (State.parseWork s h).stores = s.stores := by
  unfold State.parseWork; (repeat' split) <;> simp

@[simp] theorem State.reconWork_stores (s : State) (h : Nat) : (State.reconWork s h).stores = s.stores := by
  unfold State.reconWork; (repeat' split) <;> simp

@[simp] theorem State.concealWork_stores (s : State) (h : Nat) : (State.concealWork s h).stores = s.stores := by
  unfold State.concealWork; (repeat' split) <;> simp

end Sys2Proof.Machine
end

