-- ==== Sys2Proof/Laws/KeepEncode.lean ====
section
/-! SUPPORT. What the operations of Machine/Encode.lean do to the memories and to the queue. -/

set_option Elab.async false

namespace Sys2Proof.Machine

end Sys2Proof.Machine
end

