-- ==== Sys2Proof/Laws/KeepTraffic.lean ====
section
/-! SUPPORT. What the operations of Machine/Traffic.lean do to the memories and to the queue. -/

set_option Elab.async false

namespace Sys2Proof.Machine

@[simp] theorem State.setMeter_stores (s : State) (m : Nat) (x : Meter) : (State.setMeter s m x).stores = s.stores := by
  simp [State.setMeter]

@[simp] theorem State.meterCopy_stores (s : State) (m : Nat) (dei : Bool) (b : Nat) : (State.meterCopy s m dei b).2.stores = s.stores := by
  simp [State.meterCopy]

@[simp] theorem State.fillMeter_stores (s : State) (m : Nat) : (State.fillMeter s m).stores = s.stores := by
  simp [State.fillMeter]

@[simp] theorem State.setTmgQueue_stores (s : State) (k : Nat) (x : TmgQueue) : (State.setTmgQueue s k x).stores = s.stores := by
  simp [State.setTmgQueue]

@[simp] theorem State.setTmgPort_stores (s : State) (p : Nat) (x : TmgPort) : (State.setTmgPort s p x).stores = s.stores := by
  simp [State.setTmgPort]

@[simp] theorem State.restartQueueShaper_stores (s : State) (k : Nat) : (State.restartQueueShaper s k).stores = s.stores := by
  simp [State.restartQueueShaper]

@[simp] theorem State.restartPortShaper_stores (s : State) (p : Nat) : (State.restartPortShaper s p).stores = s.stores := by
  simp [State.restartPortShaper]

@[simp] theorem State.sweep_stores (s : State) (k : Nat) : (State.sweep s k).stores = s.stores := by
  simp [State.sweep]

@[simp] theorem State.tagHead_stores (s : State) (p k : Nat) (waking : Bool) : (State.tagHead s p k waking).stores = s.stores := by
  unfold State.tagHead; dsimp only; (repeat' split) <;> simp

@[simp] theorem State.wakeQueue_stores (s : State) (p k : Nat) : (State.wakeQueue s p k).stores = s.stores := by
  simp [State.wakeQueue]

@[simp] theorem State.serveQueue_stores (s : State) (p q : Nat) : (State.serveQueue s p q).stores = s.stores := by
  unfold State.serveQueue; dsimp only; (repeat' split) <;> simp

@[simp] theorem State.noteShapers_stores (s : State) (p : Nat) : (State.noteShapers s p).stores = s.stores := by
  simp [State.noteShapers]

@[simp] theorem State.wakeQueues_stores (s : State) (p : Nat) : (State.wakeQueues s p).stores = s.stores := by
  simp [State.wakeQueues]

@[simp] theorem State.startFrame_stores (s : State) (p : Nat) (can : State → Copy → Bool) : (s.startFrame p can).stores = s.stores := by
  unfold State.startFrame; dsimp only; (repeat' split) <;> simp

@[simp] theorem State.sampleQueue_stores (s : State) (k : Nat) : (State.sampleQueue s k).stores = s.stores := by
  simp [State.sampleQueue]

@[simp] theorem State.samplePort_stores (s : State) (p : Nat) : (State.samplePort s p).stores = s.stores := by
  simp [State.samplePort]

@[simp] theorem State.writeMeter_stores (s : State) (m flags cir pir cbs pbs : Nat) : (State.writeMeter s m flags cir pir cbs pbs).stores = s.stores := by
  simp [State.writeMeter]

@[simp] theorem State.meterConfig_stores (s : State) (m : Nat) : (State.meterConfig s m).stores = s.stores := by
  simp [State.meterConfig]

@[simp] theorem State.shaperConfig_stores (s : State) (m : Nat) : (State.shaperConfig s m).stores = s.stores := by
  simp [State.shaperConfig]

@[simp] theorem State.queueWeightSet_stores (s : State) (m : Nat) : (State.queueWeightSet s m).stores = s.stores := by
  simp [State.queueWeightSet]

end Sys2Proof.Machine
end

