-- ==== Sys2Proof/Laws/KeepClassify.lean ====
section
/-! SUPPORT. What the operations of Machine/Classify.lean do to the memories and to the queue. -/

set_option Elab.async false

namespace Sys2Proof.Machine

@[simp] theorem State.clsCount_stores (s : State) (k : Nat) : (State.clsCount s k).stores = s.stores := by
  simp [State.clsCount]

@[simp] theorem State.haulCount_stores (s : State) (p k : Nat) : (State.haulCount s p k).stores = s.stores := by
  simp [State.haulCount]

@[simp] theorem State.applyBreak_stores (s : State) (ccw : Bool) (x : Nat) : (State.applyBreak s ccw x).stores = s.stores := by
  simp [State.applyBreak]

@[simp] theorem State.clearBreak_stores (s : State) (ccw : Bool) : (State.clearBreak s ccw).stores = s.stores := by
  simp [State.clearBreak]

@[simp] theorem State.noteSteered_stores (s : State) (h : Parsed) (steered : Bool) : (State.noteSteered s h steered).stores = s.stores := by
  simp [State.noteSteered]

@[simp] theorem State.shedPlan_stores (s : State) (x : Plan) : (State.shedPlan s x).2.stores = s.stores := by
  unfold State.shedPlan; (repeat' split) <;> simp

@[simp] theorem State.noteSteering_stores (s : State) (h : Parsed) (a : Nat) (x : Steered) : (State.noteSteering s h a x).stores = s.stores := by
  simp [State.noteSteering]

@[simp] theorem State.startClone_stores (s : State) : (State.startClone s).stores = s.stores := by
  simp [State.startClone]

@[simp] theorem State.endClone_stores (s : State) : (State.endClone s).stores = s.stores := by
  simp [State.endClone]

@[simp] theorem State.abortStage_stores (s : State) : (State.abortStage s).stores = s.stores := by
  simp [State.abortStage]

@[simp] theorem State.startGo_stores (s : State) : (State.startGo s).stores = s.stores := by
  simp [State.startGo]

@[simp] theorem State.goCommand_stores (s : State) : (State.goCommand s).stores = s.stores := by
  simp [State.goCommand]

@[simp] theorem State.goAfter_stores (s : State) : (State.goAfter s).stores = s.stores := by
  simp [State.goAfter]

end Sys2Proof.Machine
end

