-- ==== Sys2Proof/Laws/KeepIntcOps.lean ====
section
/-! SUPPORT. What the operations of Machine/IntcOps.lean do to the memories and to the queue. -/

set_option Elab.async false

namespace Sys2Proof.Machine

@[simp] theorem State.setStack_stores (s : State) (t : Nat) (l : List Nat) : (State.setStack s t l).stores = s.stores := by
  simp [State.setStack]

@[simp] theorem State.tgtCount_stores (s : State) (t k : Nat) : (State.tgtCount s t k).stores = s.stores := by
  simp [State.tgtCount]

@[simp] theorem State.msiSend_stores (s : State) (f v : Nat) : (State.msiSend s f v).stores = s.stores := by
  simp [State.msiSend]

@[simp] theorem State.msiScan_stores (s : State) : (State.msiScan s).stores = s.stores := by
  simp [State.msiScan]

@[simp] theorem State.msiFlush_stores (s : State) : (State.msiFlush s).stores = s.stores := by
  simp [State.msiFlush]

@[simp] theorem State.claim_stores (s : State) (t : Nat) (p : Nat → Bool) : (s.claim t p).1.stores = s.stores := by
  unfold State.claim; dsimp only; (repeat' split) <;> simp

@[simp] theorem State.applyRoute_stores (s : State) (n : Nat) : (State.applyRoute s n).stores = s.stores := by
  unfold State.applyRoute; (repeat' split) <;> simp

@[simp] theorem State.msiAgain_stores (s : State) (t n : Nat) : (State.msiAgain s t n).stores = s.stores := by
  simp [State.msiAgain]

@[simp] theorem State.complete_stores (s : State) (t n : Nat) : (State.complete s t n).stores = s.stores := by
  simp [State.complete]

@[simp] theorem State.writeRoute_stores (s : State) (n en wakeEn target vector : Nat) : (State.writeRoute s n en wakeEn target vector).stores = s.stores := by
  simp [State.writeRoute]

@[simp] theorem State.noteFalls_stores (s : State) : (State.noteFalls s).stores = s.stores := by
  simp [State.noteFalls]

end Sys2Proof.Machine
end

