-- ==== Sys2Proof/Laws/KeepMailbox.lean ====
section
/-! SUPPORT. What the operations of Machine/Mailbox.lean do to the memories and to the queue. -/

set_option Elab.async false

namespace Sys2Proof.Machine

@[simp] theorem State.getInfo_stores (s : State) (m : Nat) : (State.getInfo s m).stores = s.stores := by
  simp [State.getInfo]

@[simp] theorem State.jobStatus_stores (s : State) (m : Nat) : (State.jobStatus s m).stores = s.stores := by
  unfold State.jobStatus; refine State.serve_stores _ _ _ _ _ (fun t => ?_); split <;> simp

@[simp] theorem State.verifySlot_stores (s : State) : (State.verifySlot s).1.stores = s.stores := by
  unfold State.verifySlot; (repeat' split) <;> simp

@[simp] theorem State.fwVerify_stores (s : State) (m : Nat) : (State.fwVerify s m).stores = s.stores := by
  unfold State.fwVerify; refine State.serve_stores _ _ _ _ _ (fun t => ?_); (repeat' split) <;> simp

@[simp] theorem State.setChallenge_stores (s : State) (m : Nat) (c : List Byte) : (State.setChallenge s m c).stores = s.stores := by
  simp [State.setChallenge]

@[simp] theorem State.expertChallenge_stores (s : State) (m : Nat) : (State.expertChallenge s m).stores = s.stores := by
  simp [State.expertChallenge]

@[simp] theorem State.spendChallenge_stores (s : State) (m op : Nat) : (State.spendChallenge s m op).stores = s.stores := by
  simp [State.spendChallenge]

@[simp] theorem State.expertUnlock_stores (s : State) (m : Nat) : (State.expertUnlock s m).stores = s.stores := by
  simp [State.expertUnlock]

@[simp] theorem State.expertLock_stores (s : State) (m : Nat) : (State.expertLock s m).stores = s.stores := by
  simp [State.expertLock]

@[simp] theorem State.remoteTimeout_stores (s : State) : (State.remoteTimeout s).stores = s.stores := by
  simp [State.remoteTimeout]

@[simp] theorem State.romInfo_stores (s : State) (m : Nat) : (State.romInfo s m).stores = s.stores := by
  simp [State.romInfo]

@[simp] theorem State.recover_stores (s : State) (m op : Nat) (lenOk : Nat → Bool) (act : State → State) (h : ∀ t, (act t).stores = t.stores) : (s.recover m op lenOk act).stores = s.stores := by
  unfold State.recover; (repeat' split) <;> simp [h]

@[simp] theorem State.flashRead_stores (s : State) (m : Nat) : (State.flashRead s m).stores = s.stores := by
  simp [State.flashRead]

@[simp] theorem State.clearingDone_stores (s : State) : (State.clearingDone s).stores = s.stores := by
  simp [State.clearingDone]

@[simp] theorem State.firmwareReady_stores (s : State) : (State.firmwareReady s).stores = s.stores := by
  simp [State.firmwareReady]

@[simp] theorem State.cpxFault_stores (s : State) (k : CpxFault) : (State.cpxFault s k).stores = s.stores := by
  unfold State.cpxFault; (repeat' split) <;> simp

@[simp] theorem State.heartbeat_stores (s : State) : (State.heartbeat s).stores = s.stores := by
  simp [State.heartbeat]

@[simp] theorem State.leaseExpire_stores (s : State) (n : Nat) : (State.leaseExpire s n).stores = s.stores := by
  simp [State.leaseExpire]

@[simp] theorem State.functionReset_stores (s : State) (f : Nat) : (State.functionReset s f).stores = s.stores := by
  simp [State.functionReset]

@[simp] theorem State.perst_stores (s : State) : (State.perst s).stores = s.stores := by
  simp [State.perst]

@[simp] theorem State.linkChange_stores (s : State) (pm ltssm speed width : Nat) : (State.linkChange s pm ltssm speed width).stores = s.stores := by
  simp [State.linkChange]

@[simp] theorem State.msiUnmask_stores (s : State) (f v : Nat) : (State.msiUnmask s f v).stores = s.stores := by
  simp [State.msiUnmask]

end Sys2Proof.Machine
end

