-- ==== Sys2Proof/Laws/KeepFaults.lean ====
section
/-! SUPPORT. What the operations of Machine/Faults.lean do to the memories and to the queue. -/

set_option Elab.async false

namespace Sys2Proof.Machine

@[simp] theorem State.intcRouteSet_stores (s : State) (m : Nat) : (State.intcRouteSet s m).stores = s.stores := by
  simp [State.intcRouteSet]

@[simp] theorem State.routeApply_stores (s : State) (n : Nat) : (State.routeApply s n).stores = s.stores := by
  simp [State.routeApply]

@[simp] theorem State.setLatch_stores (s : State) (n : Nat) : (State.setLatch s n).stores = s.stores := by
  simp [State.setLatch]

@[simp] theorem State.setSafeKind_stores (s : State) (n k : Nat) : (State.setSafeKind s n k).stores = s.stores := by
  simp [State.setSafeKind]

@[simp] theorem State.safeStateSet_stores (s : State) (m : Nat) : (State.safeStateSet s m).stores = s.stores := by
  simp [State.safeStateSet]

@[simp] theorem State.faultClear_stores (s : State) (m : Nat) : (State.faultClear s m).stores = s.stores := by
  simp [State.faultClear]

@[simp] theorem State.faultReactionSet_stores (s : State) (m : Nat) : (State.faultReactionSet s m).stores = s.stores := by
  simp [State.faultReactionSet]

@[simp] theorem State.eventRead_stores (s : State) (m : Nat) : (State.eventRead s m).stores = s.stores := by
  simp [State.eventRead]

@[simp] theorem State.watchdogExpire_stores (s : State) : (State.watchdogExpire s).stores = s.stores := by
  simp [State.watchdogExpire]

@[simp] theorem State.corePllUnlock_stores (s : State) : (State.corePllUnlock s).stores = s.stores := by
  simp [State.corePllUnlock]

@[simp] theorem State.lanePllUnlock_stores (s : State) (q : Nat) : (State.lanePllUnlock s q).stores = s.stores := by
  simp [State.lanePllUnlock]

@[simp] theorem State.sensorReads_stores (s : State) (k : Nat) (tj : Int) : (State.sensorReads s k tj).stores = s.stores := by
  simp [State.sensorReads]

@[simp] theorem State.thermHigh_stores (s : State) (k : Nat) (tj : Int) : (State.thermHigh s k tj).stores = s.stores := by
  simp [State.thermHigh]

@[simp] theorem State.thermTrip_stores (s : State) (k : Nat) (tj : Int) : (State.thermTrip s k tj).stores = s.stores := by
  simp [State.thermTrip]

@[simp] theorem State.railFault_stores (s : State) (k : Nat) : (State.railFault s k).stores = s.stores := by
  simp [State.railFault]

end Sys2Proof.Machine
end

