-- ==== Sys2Proof/Laws/KeepSecurity.lean ====
section
/-! SUPPORT. What the operations of Machine/Security.lean do to the memories and to the queue. -/

set_option Elab.async false

namespace Sys2Proof.Machine

@[simp] theorem State.wipe_stores (s : State) (cause : Nat) : (State.wipe s cause).stores = s.stores := by
  simp [State.wipe]

@[simp] theorem State.wipeDone_stores (s : State) : (State.wipeDone s).stores = s.stores := by
  simp [State.wipeDone]

@[simp] theorem State.dropSecrets_stores (s : State) : (State.dropSecrets s).stores = s.stores := by
  simp [State.dropSecrets]

@[simp] theorem State.spoilKeyLoads_stores (s : State) : (State.spoilKeyLoads s).stores = s.stores := by
  simp [State.spoilKeyLoads]

@[simp] theorem State.tamper_stores (s : State) (i : Nat) : (State.tamper s i).stores = s.stores := by
  simp [State.tamper]

@[simp] theorem State.debugSeen_stores (s : State) (o : Origin) : (State.debugSeen s o).stores = s.stores := by
  simp [State.debugSeen]

@[simp] theorem State.serveLc_stores (s : State) (m op : Nat) (lenOk : Nat → Bool) (act : State → State) (h : ∀ t, (act t).stores = t.stores) : (s.serveLc m op lenOk act).stores = s.stores := by
  unfold State.serveLc; (repeat' split) <;> simp [h]

@[simp] theorem State.putKey_stores (s : State) (m wall : Nat) (odd : Bool) (key : List Byte) : (State.putKey s m wall odd key).stores = s.stores := by
  simp [State.putKey]

@[simp] theorem State.keyLoad_stores (s : State) (m : Nat) : (State.keyLoad s m).stores = s.stores := by
  simp [State.keyLoad]

@[simp] theorem State.attest_stores (s : State) (m : Nat) : (State.attest s m).stores = s.stores := by
  simp [State.attest]

end Sys2Proof.Machine
end

