-- ==== Sys2Proof/Laws/KeepHewers.lean ====
section
/-! SUPPORT. What the operations of Machine/Hewers.lean do to the memories and to the queue. -/

set_option Elab.async false

namespace Sys2Proof.Machine

@[simp] theorem State.syntaxEvent_stores (s : State) (h : Nat) (r : Run) (j : Nat) : (State.syntaxEvent s h r j).stores = s.stores := by
  unfold State.syntaxEvent; (repeat' split) <;> simp

@[simp] theorem State.noteElements_stores (s : State) (h : Nat) (r : Option Run) : (State.noteElements s h r).stores = s.stores := by
  unfold State.noteElements; (repeat' split) <;> simp

@[simp] theorem State.pixelWork_stores (s : State) (h : Nat) (k : PixelWork) : (State.pixelWork s h k).stores = s.stores := by
  unfold State.pixelWork; (repeat' split) <;> simp

@[simp] theorem State.lmAccess_stores (s : State) (h : Nat) (m : LmUse) : (State.lmAccess s h m).stores = s.stores := by
  simp [State.lmAccess]

@[simp] theorem State.stallExpire_stores (s : State) (h : Nat) : (State.stallExpire s h).stores = s.stores := by
  unfold State.stallExpire; (repeat' split) <;> simp

@[simp] theorem State.drainNow_stores (s : State) (h : Nat) : (State.drainNow s h).stores = s.stores := by
  simp [State.drainNow]

@[simp] theorem State.drainLater_stores (s : State) (h : Nat) (w : Waiter) : (State.drainLater s h w).stores = s.stores := by
  unfold State.drainLater; (repeat' split) <;> simp

@[simp] theorem State.drainClear_stores (s : State) (h : Nat) : (State.drainClear s h).stores = s.stores := by
  simp [State.drainClear]

@[simp] theorem State.goOut_stores (s : State) (h : Nat) : (State.goOut s h).stores = s.stores := by
  simp [State.goOut]

@[simp] theorem State.goIn_stores (s : State) (h : Nat) (w : Waiter) : (State.goIn s h w).stores = s.stores := by
  simp [State.goIn]

@[simp] theorem State.writeHwrCtrl_stores (s : State) (h w : Nat) : (State.writeHwrCtrl s h w).stores = s.stores := by
  simp [State.writeHwrCtrl]

@[simp] theorem State.awaitDrain_stores (s : State) (m h : Nat) (w : JobWork) : (State.awaitDrain s m h w).stores = s.stores := by
  simp [State.awaitDrain]

@[simp] theorem State.hewerDrain_stores (s : State) (m : Nat) : (State.hewerDrain s m).stores = s.stores := by
  simp [State.hewerDrain]

@[simp] theorem State.serviceOut_stores (s : State) (m h : Nat) : (State.serviceOut s m h).stores = s.stores := by
  simp [State.serviceOut]

@[simp] theorem State.hewerService_stores (s : State) (m : Nat) : (State.hewerService s m).stores = s.stores := by
  simp [State.hewerService]

@[simp] theorem State.firmwareTests_stores (s : State) : (State.firmwareTests s).stores = s.stores := by
  simp [State.firmwareTests]

@[simp] theorem State.testDone_stores (s : State) (h : Nat) (pass : Bool) : (State.testDone s h pass).stores = s.stores := by
  simp [State.testDone]

@[simp] theorem State.hewerPatch_stores (s : State) (m : Nat) : (State.hewerPatch s m).stores = s.stores := by
  unfold State.hewerPatch; refine State.serve_stores _ _ _ _ _ (fun t => ?_)
  dsimp only
  (repeat' split) <;> simp

@[simp] theorem State.afterLoad_stores (s : State) (h : Nat) (x : Hewer) : (State.afterLoad s h x).stores = s.stores := by
  simp [State.afterLoad]

@[simp] theorem State.loadDone_stores (s : State) (h : Nat) (e : SramRead) : (State.loadDone s h e).stores = s.stores := by
  unfold State.loadDone; dsimp only; (repeat' split) <;> simp

@[simp] theorem State.ucodeUpdate_stores (s : State) (m : Nat) : (State.ucodeUpdate s m).stores = s.stores := by
  unfold State.ucodeUpdate; refine State.serve_stores _ _ _ _ _ (fun _ => ?_); dsimp only; (repeat' split) <;> simp

end Sys2Proof.Machine
end

