-- ==== Sys2Proof/Laws/KeepLamp.lean ====
section
/-! SUPPORT. What the operations of Machine/Lamp.lean do to the memories and to the queue. -/

set_option Elab.async false

namespace Sys2Proof.Machine

@[simp] theorem State.refreshPanic_stores (s : State) (n : Nat) : (State.refreshPanic s n).stores = s.stores := by
  simp [State.refreshPanic]

@[simp] theorem State.bandDone_stores (s : State) (n : Nat) : (State.bandDone s n).stores = s.stores := by
  unfold State.bandDone; dsimp only; (repeat' split) <;> simp

@[simp] theorem State.lutMeets_stores (s : State) (n : Nat) (x : Strip) : (State.lutMeets s n x).stores = s.stores := by
  simp [State.lutMeets]

@[simp] theorem State.dressNext_stores (s : State) (n : Nat) (b : Band) (cab e : List Byte) (x : Strip) : (State.dressNext s n b cab e x).stores = s.stores := by
  simp [State.dressNext]

@[simp] theorem State.withoutStrip_stores (s : State) (n : Nat) (x : Strip) : (State.withoutStrip s n x).stores = s.stores := by
  simp [State.withoutStrip]

@[simp] theorem State.turnStrip_stores (s : State) (n : Nat) (b : Band) (x : Strip) : (s.turnStrip n b x).1.stores = s.stores := by
  unfold State.turnStrip; dsimp only; (repeat' split) <;> simp

@[simp] theorem State.tryStrip_stores (s : State) (n : Nat) : (s.tryStrip n).1.stores = s.stores := by
  unfold State.tryStrip; split <;> simp

@[simp] theorem State.beginStrip_stores (s : State) (n fuel : Nat) : (s.beginStrip n fuel).stores = s.stores := by
  induction fuel generalizing s with
  | zero => simp [State.beginStrip]
  | succ k ih => unfold State.beginStrip; dsimp only; split <;> simp [ih]

@[simp] theorem State.fetchOn_stores (s : State) (n : Nat) : (State.fetchOn s n).stores = s.stores := by
  simp [State.fetchOn]

@[simp] theorem State.bandStart_stores (s : State) (n : Nat) (r : SramRead) : (State.bandStart s n r).stores = s.stores := by
  unfold State.bandStart; dsimp only; (repeat' split) <;> simp

@[simp] theorem State.presentBurst_stores (s : State) (b : Burst) : (State.presentBurst s b).stores = s.stores := by
  simp [State.presentBurst]

@[simp] theorem State.burstIssue_stores (s : State) (n : Nat) : (State.burstIssue s n).stores = s.stores := by
  unfold State.burstIssue; dsimp only; (repeat' split) <;> simp

@[simp] theorem State.showSplit_stores (s : State) (n : Nat) : (State.showSplit s n).stores = s.stores := by
  unfold State.showSplit; (repeat' split) <;> simp

@[simp] theorem State.putSplit_stores (s : State) (x : Nat) (p : Nat × Nat) : (State.putSplit s x p).stores = s.stores := by
  simp [State.putSplit]

@[simp] theorem State.lose_stores (s : State) (x : Nat) (ps : List Nat) : (State.lose s x ps).stores = s.stores := by
  simp [State.lose]

@[simp] theorem State.setHalted_stores (s : State) (n : Nat) (v : Bool) : (State.setHalted s n v).stores = s.stores := by
  simp [State.setHalted]

@[simp] theorem State.dropFetch_stores (s : State) (n : Nat) : (State.dropFetch s n).stores = s.stores := by
  simp [State.dropFetch]

@[simp] theorem State.clearChan_stores (s : State) (n : Nat) : (State.clearChan s n).stores = s.stores := by
  simp [State.clearChan]

@[simp] theorem State.stripSent_stores (s : State) (n len : Nat) : (State.stripSent s n len).stores = s.stores := by
  unfold State.stripSent; dsimp only; (repeat' split) <;> simp

@[simp] theorem State.farLost_stores (s : State) (n : Nat) : (State.farLost s n).stores = s.stores := by
  simp [State.farLost]

@[simp] theorem State.rxLos_stores (s : State) (n : Nat) (los : Bool) : (State.rxLos s n los).stores = s.stores := by
  simp [State.rxLos]

@[simp] theorem State.farReturn_stores (s : State) (n : Nat) : (State.farReturn s n).stores = s.stores := by
  simp [State.farReturn]

@[simp] theorem State.handPort_stores (s : State) (n : Nat) : (State.handPort s n).stores = s.stores := by
  simp [State.handPort]

@[simp] theorem State.handChan_stores (s : State) (n : Nat) : (State.handChan s n).stores = s.stores := by
  simp [State.handChan]

@[simp] theorem State.handOver_stores (s : State) (g : Nat) : (State.handOver s g).stores = s.stores := by
  simp [State.handOver]

@[simp] theorem State.takeKind_stores (s : State) (n : Nat) : (State.takeKind s n).stores = s.stores := by
  simp [State.takeKind]

@[simp] theorem State.portSync_stores (s : State) (n sfc : Nat) : (State.portSync s n sfc).stores = s.stores := by
  simp [State.portSync]

@[simp] theorem State.sendSync_stores (s : State) (g sfc : Nat) : (State.sendSync s g sfc).stores = s.stores := by
  simp [State.sendSync]

@[simp] theorem State.subframe_stores (s : State) (g : Nat) : (State.subframe s g).stores = s.stores := by
  simp [State.subframe]

@[simp] theorem State.markLate_stores (s : State) (n t : Nat) : (State.markLate s n t).stores = s.stores := by
  simp [State.markLate]

@[simp] theorem State.gapStart_stores (s : State) (g : Nat) : (State.gapStart s g).stores = s.stores := by
  simp [State.gapStart]

@[simp] theorem State.gridEnable_stores (s : State) (g : Nat) : (State.gridEnable s g).stores = s.stores := by
  simp [State.gridEnable]

end Sys2Proof.Machine
end

