-- ==== Sys2Proof/Laws/KeepLampCmd.lean ====
section
/-! SUPPORT. What the operations of Machine/LampCmd.lean do to the memories and to the queue. -/

set_option Elab.async false

namespace Sys2Proof.Machine

@[simp] theorem State.armChan_stores (s : State) (n : Nat) : (State.armChan s n).stores = s.stores := by
  simp [State.armChan]

@[simp] theorem State.shadowSplit_stores (s : State) (x : Nat) (p : Nat × Nat) : (State.shadowSplit s x p).stores = s.stores := by
  simp [State.shadowSplit]

@[simp] theorem State.shadowTable_stores (s : State) (x a : Nat) : (State.shadowTable s x a).stores = s.stores := by
  simp [State.shadowTable]

@[simp] theorem State.sameBank_stores (s : State) : (State.sameBank s).stores = s.stores := by
  simp [State.sameBank]

@[simp] theorem State.bindPort_stores (s : State) (a : Nat) (c : Chain) (grid adv table k x : Nat) : (State.bindPort s a c grid adv table k x).stores = s.stores := by
  simp [State.bindPort]

@[simp] theorem State.lampPortCmd_stores (s : State) (m : Nat) : (State.lampPortCmd s m).stores = s.stores := by
  simp [State.lampPortCmd]

@[simp] theorem State.brightnessCmd_stores (s : State) (m : Nat) : (State.brightnessCmd s m).stores = s.stores := by
  unfold State.brightnessCmd; refine State.serve_stores _ _ _ _ _ (fun _ => ?_); dsimp only; (repeat' split) <;> simp

@[simp] theorem State.scanMapCmd_stores (s : State) (m : Nat) : (State.scanMapCmd s m).stores = s.stores := by
  simp [State.scanMapCmd]

@[simp] theorem State.loadLuts_stores (s : State) : (State.loadLuts s).stores = s.stores := by
  simp [State.loadLuts]

@[simp] theorem State.rivConfigCmd_stores (s : State) (m : Nat) : (State.rivConfigCmd s m).stores = s.stores := by
  simp [State.rivConfigCmd]

end Sys2Proof.Machine
end

