-- ==== Sys2Proof/Laws/KeepHaulTx.lean ====
section
/-! SUPPORT. What the operations of Machine/HaulTx.lean do to the memories and to the queue. -/

set_option Elab.async false

namespace Sys2Proof.Machine

@[simp] theorem State.nextOwnSeq_stores (s : State) (tile : Nat) : (State.nextOwnSeq s tile).stores = s.stores := by
  simp [State.nextOwnSeq]

@[simp] theorem State.clearOwn_stores (s : State) (ccw : Bool) : (State.clearOwn s ccw).stores = s.stores := by
  simp [State.clearOwn]

@[simp] theorem State.pushStamp_stores (s : State) (p : Nat) (e : Nat × Nat × Nat) : (State.pushStamp s p e).stores = s.stores := by
  simp [State.pushStamp]

@[simp] theorem State.stampFrame_stores (s : State) (p : Nat) : (State.stampFrame s p).stores = s.stores := by
  unfold State.stampFrame; (repeat' split) <;> simp

@[simp] theorem State.transmitStart_stores (s : State) (p : Nat) : (State.transmitStart s p).stores = s.stores := by
  simp [State.transmitStart]

@[simp] theorem State.readChain_stores (s : State) (b : Nat) : (State.readChain s b).stores = s.stores := by
  simp [State.readChain]

@[simp] theorem State.noticeQueue_stores (s : State) (q : Nat) : (State.noticeQueue s q).stores = s.stores := by
  simp [State.noticeQueue]

end Sys2Proof.Machine
end

