-- ==== Sys2Proof/Laws/KeepIngress.lean ====
section
/-! SUPPORT. What the operations of Machine/Ingress.lean do to the memories and to the queue. -/

set_option Elab.async false

namespace Sys2Proof.Machine

@[simp] theorem State.setIng_stores (s : State) (p : Nat) (x : IngPort) : (State.setIng s p x).stores = s.stores := by
  simp [State.setIng]

@[simp] theorem State.ingCount_stores (s : State) (p k : Nat) : (State.ingCount s p k).stores = s.stores := by
  simp [State.ingCount]

@[simp] theorem State.ingDrop_stores (s : State) (p k : Nat) : (State.ingDrop s p k).stores = s.stores := by
  simp [State.ingDrop]

@[simp] theorem State.putLamps_stores (s : State) (p n x line : Nat) (vs : List (List Nat)) : (State.putLamps s p n x line vs).stores = s.stores := by
  unfold State.putLamps; dsimp only; (repeat' split) <;> simp

@[simp] theorem State.openSource_stores (s : State) (c q : Nat) : (State.openSource s c q).stores = s.stores := by
  simp [State.openSource]

@[simp] theorem State.readySlice_stores (s : State) (c q i : Nat) : (State.readySlice s c q i).stores = s.stores := by
  simp [State.readySlice]

@[simp] theorem State.readyPicture_stores (s : State) (c q : Nat) : (State.readyPicture s c q).stores = s.stores := by
  simp [State.readyPicture]

@[simp] theorem State.sourcesOf_stores (s : State) (wn : Nat) : (State.sourcesOf s wn).stores = s.stores := by
  simp [State.sourcesOf]

@[simp] theorem State.sourcesReady_stores (s : State) : (State.sourcesReady s).stores = s.stores := by
  simp [State.sourcesReady]

@[simp] theorem State.countMissing_stores (s : State) (p n : Nat) : (State.countMissing s p n).stores = s.stores := by
  simp [State.countMissing]

@[simp] theorem State.endIngPicture_stores (s : State) (p : Nat) : (State.endIngPicture s p).stores = s.stores := by
  unfold State.endIngPicture; (repeat' split) <;> simp

@[simp] theorem State.assignIng_stores (s : State) (p q : Nat) : (State.assignIng s p q).stores = s.stores := by
  unfold State.assignIng; (repeat' split) <;> simp

@[simp] theorem State.leaderFirst_stores (s : State) (p : Nat) : (State.leaderFirst s p).stores = s.stores := by
  unfold State.leaderFirst; dsimp only; repeat' (first | (simp; done) | (refine chainAll_stores _ _ _ (fun _ _ => ?_)) | (refine (chainAll_stores _ _ _ (fun _ _ => ?_)).trans ?_) | split | simp)

@[simp] theorem State.beginIngPicture_stores (s : State) (p : Nat) : (State.beginIngPicture s p).stores = s.stores := by
  unfold State.beginIngPicture; dsimp only; (repeat' split) <;> simp

@[simp] theorem State.lineArrived_stores (s : State) (p line x n : Nat) : (State.lineArrived s p line x n).stores = s.stores := by
  unfold State.lineArrived; (repeat' split) <;> simp

@[simp] theorem State.ingSegment_stores (s : State) (p n line x : Nat) (vs : List (List Nat)) : (State.ingSegment s p n line x vs).stores = s.stores := by
  simp [State.ingSegment]

@[simp] theorem State.ingSeq_stores (s : State) (p q m : Nat) : (State.ingSeq s p q m).stores = s.stores := by
  unfold State.ingSeq; (repeat' split) <;> simp

@[simp] theorem State.keepFrame_stores (s : State) (p : Nat) (b : List Byte) : (State.keepFrame s p b).stores = s.stores := by
  simp [State.keepFrame]

@[simp] theorem State.pixelFrame_stores (s : State) (p : Nat) (f : List Byte) (err : Bool) : (State.pixelFrame s p f err).stores = s.stores := by
  simp [State.pixelFrame]

@[simp] theorem State.ingClose_stores (s : State) (p : Nat) : (State.ingClose s p).stores = s.stores := by
  simp [State.ingClose]

@[simp] theorem State.pixelUp_stores (s : State) (p : Nat) : (State.pixelUp s p).stores = s.stores := by
  simp [State.pixelUp]

@[simp] theorem State.pixelDown_stores (s : State) (p : Nat) : (State.pixelDown s p).stores = s.stores := by
  simp [State.pixelDown]

@[simp] theorem State.pixelLoss_stores (s : State) (p : Nat) : (State.pixelLoss s p).stores = s.stores := by
  simp [State.pixelLoss]

@[simp] theorem State.ingestRaw_stores (s : State) (p : Nat) (h : Parsed) (pay : List Byte) : (State.ingestRaw s p h pay).stores = s.stores := by
  simp [State.ingestRaw]

@[simp] theorem State.videoSegment_stores (s : State) (p line x k : Nat) (bs : List Byte) : (State.videoSegment s p line x k bs).stores = s.stores := by
  simp [State.videoSegment]

@[simp] theorem State.ingestVideo_stores (s : State) (p : Nat) (b : List Byte) : (State.ingestVideo s p b).stores = s.stores := by
  simp [State.ingestVideo]

@[simp] theorem State.ingressSet_stores (s : State) (m : Nat) : (State.ingressSet s m).stores = s.stores := by
  simp [State.ingressSet]

end Sys2Proof.Machine
end

