-- ==== Sys2Proof/Laws/KeepHaul.lean ====
section
/-! SUPPORT. What the operations of Machine/Haul.lean do to the memories and to the queue. -/

set_option Elab.async false

namespace Sys2Proof.Machine

@[simp] theorem State.setHaulPort_stores (s : State) (p : Nat) (x : HaulPort) : (State.setHaulPort s p x).stores = s.stores := by
  simp [State.setHaulPort]

@[simp] theorem State.setRx_stores (s : State) (p : Nat) (r : Option RxFrame) : (State.setRx s p r).stores = s.stores := by
  simp [State.setRx]

@[simp] theorem State.setFrag_stores (s : State) (k : Nat) (x : Option Frag) : (State.setFrag s k x).stores = s.stores := by
  simp [State.setFrag]

@[simp] theorem State.newFrag_stores (s : State) (h : Parsed) (v : Verdict) (ctx : Option Nat) : (State.newFrag s h v ctx).1.stores = s.stores := by
  unfold State.newFrag; (repeat' split) <;> simp

@[simp] theorem State.ingestPacket_stores (s : State) (k : Nat) (h : Parsed) (f : List Byte) : (State.ingestPacket s k h f).stores = s.stores := by
  unfold State.ingestPacket; (repeat' split) <;> simp

@[simp] theorem State.doorbell_stores (s : State) (m : Nat) : (State.doorbell s m).stores = s.stores := by
  simp [State.doorbell]

@[simp] theorem State.resultAck_stores (s : State) (m : Nat) : (State.resultAck s m).stores = s.stores := by
  simp [State.resultAck]

@[simp] theorem State.putCommand_stores (s : State) (m : Nat) (bs : List Byte) : (State.putCommand s m bs).stores = s.stores := by
  simp [State.putCommand]

@[simp] theorem State.remoteCommand_stores (s : State) : (State.remoteCommand s).stores = s.stores := by
  unfold State.remoteCommand; dsimp only; (repeat' split) <;> simp

end Sys2Proof.Machine
end

