-- ==== Sys2Proof/Laws/KeepWalls.lean ====
section
/-! SUPPORT. What the operations of Machine/Walls.lean do to the memories and to the queue. -/

set_option Elab.async false

namespace Sys2Proof.Machine

@[simp] theorem State.takeGrid_stores (s : State) (g w : Nat) (x : Wall) : (State.takeGrid s g w x).stores = s.stores := by
  simp [State.takeGrid]

@[simp] theorem State.wallOpen_stores (s : State) (m : Nat) : (State.wallOpen s m).stores = s.stores := by
  unfold State.wallOpen; refine State.serve_stores _ _ _ _ _ (fun _ => ?_); dsimp only; (repeat' split) <;> simp

@[simp] theorem State.portOff_stores (s : State) (n : Nat) : (State.portOff s n).stores = s.stores := by
  simp [State.portOff]

@[simp] theorem State.stopPort_stores (s : State) (blank : Bool) (n : Nat) : (State.stopPort s blank n).stores = s.stores := by
  simp [State.stopPort]

@[simp] theorem State.wallClose_stores (s : State) (m : Nat) : (State.wallClose s m).stores = s.stores := by
  simp [State.wallClose]

@[simp] theorem State.tileMapLoad_stores (s : State) (m : Nat) : (State.tileMapLoad s m).stores = s.stores := by
  unfold State.tileMapLoad; refine State.serve_stores _ _ _ _ _ (fun _ => ?_); dsimp only; (repeat' split) <;> simp

@[simp] theorem State.newGroup_stores (s : State) (n w : Nat) (tile : Option Nat) (short beds : Nat) : (State.newGroup s n w tile short beds).stores = s.stores := by
  simp [State.newGroup]

@[simp] theorem State.openQueue_stores (s : State) (c size : Nat) (enc : Bool) : (State.openQueue s c size enc).stores = s.stores := by
  simp [State.openQueue]

@[simp] theorem State.guardArea_stores (s : State) (a n : Nat) : (State.guardArea s a n).stores = s.stores := by
  unfold State.guardArea; dsimp only; (repeat' split) <;> simp

@[simp] theorem State.guardGroup_stores (s : State) (g : Nat) : (State.guardGroup s g).stores = s.stores := by
  simp [State.guardGroup]

@[simp] theorem State.guardCtx_stores (s : State) (c : Nat) : (State.guardCtx s c).stores = s.stores := by
  simp [State.guardCtx]

@[simp] theorem State.addCtx_stores (s : State) (c g : Nat) (x : Ctx) : (State.addCtx s c g x).stores = s.stores := by
  simp [State.addCtx]

@[simp] theorem State.takeCtx_stores (s : State) (m : Nat) (x : Ctx) : (State.takeCtx s m x).stores = s.stores := by
  unfold State.takeCtx; (repeat' split) <;> simp

@[simp] theorem State.contextCreate_stores (s : State) (m : Nat) : (State.contextCreate s m).stores = s.stores := by
  unfold State.contextCreate; refine State.serve_stores _ _ _ _ _ (fun _ => ?_); dsimp only; (repeat' split) <;> simp

@[simp] theorem State.contextDestroy_stores (s : State) (m : Nat) : (State.contextDestroy s m).stores = s.stores := by
  simp [State.contextDestroy]

@[simp] theorem State.contextStats_stores (s : State) (m : Nat) : (State.contextStats s m).stores = s.stores := by
  simp [State.contextStats]

@[simp] theorem State.setEffort_stores (s : State) (e c : Nat) : (State.setEffort s e c).stores = s.stores := by
  simp [State.setEffort]

@[simp] theorem State.effortSet_stores (s : State) (m : Nat) : (State.effortSet s m).stores = s.stores := by
  simp [State.effortSet]

@[simp] theorem State.play_stores (s : State) (m : Nat) : (State.play s m).stores = s.stores := by
  simp [State.play]

@[simp] theorem State.pause_stores (s : State) (m : Nat) : (State.pause s m).stores = s.stores := by
  simp [State.pause]

@[simp] theorem State.bedrockLoad_stores (s : State) (m : Nat) : (State.bedrockLoad s m).stores = s.stores := by
  simp [State.bedrockLoad]

@[simp] theorem State.schParamSet_stores (s : State) (m : Nat) : (State.schParamSet s m).stores = s.stores := by
  simp [State.schParamSet]

@[simp] theorem State.pinReq_stores (s : State) (g : Nat) : (State.pinReq s g).stores = s.stores := by
  unfold State.pinReq; (repeat' split) <;> simp

@[simp] theorem State.unpin_stores (s : State) (d : Nat) : (State.unpin s d).stores = s.stores := by
  unfold State.unpin; dsimp only; (repeat' split) <;> simp

@[simp] theorem State.writeStkPin_stores (s : State) (w : Nat) : (State.writeStkPin s w).stores = s.stores := by
  simp [State.writeStkPin]

end Sys2Proof.Machine
end

