-- ==== Sys2Proof/Laws/KeepHaulCmd.lean ====
section
/-! SUPPORT. What the operations of Machine/HaulCmd.lean do to the memories and to the queue. -/

set_option Elab.async false

namespace Sys2Proof.Machine

@[simp] theorem State.linkDown_stores (s : State) (p : Nat) : (State.linkDown s p).stores = s.stores := by
  simp [State.linkDown]

@[simp] theorem State.haulUp_stores (s : State) (p : Nat) (fault : Bool) : (State.haulUp s p fault).stores = s.stores := by
  simp [State.haulUp]

@[simp] theorem State.stageCounts_stores (s : State) (ne nt : Nat) : (State.stageCounts s ne nt).stores = s.stores := by
  simp [State.stageCounts]

@[simp] theorem State.stageRules_stores (s : State) : (State.stageRules s).stores = s.stores := by
  simp [State.stageRules]

theorem State.enterStaging_stores (s t : State) (h : s.enterStaging = some t) : t.stores = s.stores := by
  unfold State.enterStaging at h; (repeat' split at h) <;> simp_all <;> (subst h; simp)

@[simp] theorem State.tellWaiters_stores (s : State) (ws : List Waiter) (ok : Bool) : (State.tellWaiters s ws ok).stores = s.stores := by
  simp [State.tellWaiters]

@[simp] theorem State.freeRuleLock_stores (s : State) : (State.freeRuleLock s).stores = s.stores := by
  simp [State.freeRuleLock]

@[simp] theorem State.restage_stores (s : State) : (State.restage s).stores = s.stores := by
  simp [State.restage]

@[simp] theorem State.commitDone_stores (s : State) : (State.commitDone s).stores = s.stores := by
  simp [State.commitDone]

@[simp] theorem State.routeSet_stores (s : State) (m : Nat) : (State.routeSet s m).stores = s.stores := by
  unfold State.routeSet; refine State.serve_stores _ _ _ _ _ (fun t => ?_); dsimp only; (repeat' split) <;> simp <;> exact State.enterStaging_stores _ _ ‹_›

@[simp] theorem State.ruleStage_stores (s : State) (m : Nat) : (State.ruleStage s m).stores = s.stores := by
  unfold State.ruleStage; refine State.serve_stores _ _ _ _ _ (fun t => ?_); dsimp only; (repeat' split) <;> simp <;> exact State.enterStaging_stores _ _ ‹_›

@[simp] theorem State.ruleCommit_stores (s : State) (m : Nat) : (State.ruleCommit s m).stores = s.stores := by
  simp [State.ruleCommit]

@[simp] theorem State.writeHaulPort_stores (s : State) (a : List Byte) : (State.writeHaulPort s a).stores = s.stores := by
  simp [State.writeHaulPort]

@[simp] theorem State.haulPortSet_stores (s : State) (m : Nat) : (State.haulPortSet s m).stores = s.stores := by
  simp [State.haulPortSet]

@[simp] theorem State.writeAddress_stores (s : State) (a : List Byte) : (State.writeAddress s a).stores = s.stores := by
  simp [State.writeAddress]

@[simp] theorem State.deviceAddressSet_stores (s : State) (m : Nat) : (State.deviceAddressSet s m).stores = s.stores := by
  simp [State.deviceAddressSet]

end Sys2Proof.Machine
end

