-- ==== Sys2Proof/Laws/KeepMem.lean ====
section
/-! SUPPORT. What the operations of Machine/Mem.lean do to the memories and to the queue. -/

set_option Elab.async false

namespace Sys2Proof.Machine

@[simp] theorem State.handTimings_stores (s : State) (c : Nat) : (State.handTimings s c).stores = s.stores := by
  simp [State.handTimings]

@[simp] theorem State.armTimings_stores (s : State) (c : Nat) (ps : List (Nat × Nat)) : (State.armTimings s c ps).stores = s.stores := by
  simp [State.armTimings]

@[simp] theorem State.timingCmd_stores (s : State) (m : Nat) : (State.timingCmd s m).stores = s.stores := by
  simp [State.timingCmd]

@[simp] theorem State.showMemLog_stores (s : State) : (State.showMemLog s).stores = s.stores := by
  simp [State.showMemLog]

@[simp] theorem State.logMem_stores (s : State) (line typ req dev : Nat) : (State.logMem s line typ req dev).stores = s.stores := by
  simp [State.logMem]

@[simp] theorem State.corrected_stores (s : State) (c line typ req dev : Nat) : (State.corrected s c line typ req dev).stores = s.stores := by
  simp [State.corrected]

@[simp] theorem State.poisonLine_stores (s : State) (line : Nat) : (State.poisonLine s line).stores = s.stores := by
  simp [State.poisonLine]

@[simp] theorem State.cleanLine_stores (s : State) (line : Nat) : (State.cleanLine s line).stores = s.stores := by
  simp [State.cleanLine]

@[simp] theorem State.uncorrectable_stores (s : State) (c line typ req dev : Nat) : (State.uncorrectable s c line typ req dev).stores = s.stores := by
  simp [State.uncorrectable]

@[simp] theorem State.readLine_stores (s : State) (c line ce ue req : Nat) (e : EccResult) : (State.readLine s c line ce ue req e).stores = s.stores := by
  unfold State.readLine; (repeat' split) <;> simp

@[simp] theorem State.count48_stores (s : State) (lo hi : Fld) (c r : Nat) : (State.count48 s lo hi c r).stores = s.stores := by
  simp [State.count48]

@[simp] theorem State.countFclk_stores (s : State) (c : Nat) (r : Option Nat) : (State.countFclk s c r).stores = s.stores := by
  simp [State.countFclk]

@[simp] theorem State.noteWait_stores (s : State) (c r n : Nat) : (State.noteWait s c r n).stores = s.stores := by
  simp [State.noteWait]

@[simp] theorem State.handDelays_stores (s : State) (c : Nat) : (State.handDelays s c).stores = s.stores := by
  simp [State.handDelays]

@[simp] theorem State.refreshRows_stores (s : State) (c : Nat) : (State.refreshRows s c).stores = s.stores := by
  simp [State.refreshRows]

@[simp] theorem State.refreshNow_stores (s : State) (c : Nat) : (State.refreshNow s c).stores = s.stores := by
  simp [State.refreshNow]

@[simp] theorem State.catchUp_stores (s : State) (c : Nat) : (State.catchUp s c).stores = s.stores := by
  simp [State.catchUp]

@[simp] theorem State.noGrant_stores (s : State) (c : Nat) : (State.noGrant s c).stores = s.stores := by
  simp [State.noGrant]

@[simp] theorem State.refreshDue_stores (s : State) (c : Nat) : (State.refreshDue s c).stores = s.stores := by
  simp [State.refreshDue]

@[simp] theorem State.pageIdle_stores (s : State) (c bank : Nat) : (State.pageIdle s c bank).stores = s.stores := by
  simp [State.pageIdle]

@[simp] theorem State.tempPoll_stores (s : State) (c : Nat) (hot : Bool) : (State.tempPoll s c hot).stores = s.stores := by
  simp [State.tempPoll]

@[simp] theorem State.scrubRead_stores (s : State) (c : Nat) (e : EccResult) : (State.scrubRead s c e).stores = s.stores := by
  simp [State.scrubRead]

@[simp] theorem State.applyTraining_stores (s : State) (c : Nat) (rs : List (Nat × Option (Nat × Nat))) : (State.applyTraining s c rs).stores = s.stores := by
  simp [State.applyTraining]

@[simp] theorem State.trainEnd_stores (s : State) (c : Nat) (ok : Bool) : (State.trainEnd s c ok).stores = s.stores := by
  simp [State.trainEnd]

@[simp] theorem State.trained_stores (s : State) (c : Nat) : (State.trained s c).stores = s.stores := by
  simp [State.trained]

@[simp] theorem State.trainingDone_stores (s : State) (c : Nat) (sweep : List LaneSweep) : (State.trainingDone s c sweep).stores = s.stores := by
  simp [State.trainingDone]

@[simp] theorem State.beginRetrain_stores (s : State) (c : Nat) : (State.beginRetrain s c).stores = s.stores := by
  simp [State.beginRetrain]

@[simp] theorem State.retrainStart_stores (s : State) (c : Nat) : (State.retrainStart s c).stores = s.stores := by
  simp [State.retrainStart]

@[simp] theorem State.endRetrainJobs_stores (s : State) (c : Nat) (ok : Bool) : (State.endRetrainJobs s c ok).stores = s.stores := by
  simp [State.endRetrainJobs]

@[simp] theorem State.retrainDone_stores (s : State) (c : Nat) (sweep : List LaneSweep) : (State.retrainDone s c sweep).stores = s.stores := by
  simp [State.retrainDone]

@[simp] theorem State.driftCheck_stores (s : State) (c drift : Nat) : (State.driftCheck s c drift).stores = s.stores := by
  simp [State.driftCheck]

@[simp] theorem State.retrainCmd_stores (s : State) (m : Nat) : (State.retrainCmd s m).stores = s.stores := by
  simp [State.retrainCmd]

@[simp] theorem State.trainStart_stores (s : State) (c : Nat) : (State.trainStart s c).stores = s.stores := by
  simp [State.trainStart]

@[simp] theorem State.fillStart_stores (s : State) (c : Nat) : (State.fillStart s c).stores = s.stores := by
  simp [State.fillStart]

@[simp] theorem State.clearMemLog_stores (s : State) : (State.clearMemLog s).stores = s.stores := by
  simp [State.clearMemLog]

end Sys2Proof.Machine
end

