-- ==== Sys2Proof/Laws/KeepLanes.lean ====
section
/-! SUPPORT. What the operations of Machine/Lanes.lean do to the memories and to the queue. -/

set_option Elab.async false

namespace Sys2Proof.Machine

@[simp] theorem State.showLaneSync_stores (s : State) : (State.showLaneSync s).stores = s.stores := by
  simp [State.showLaneSync]

@[simp] theorem State.applyRestored_stores (s : State) (n : Nat) : (State.applyRestored s n).stores = s.stores := by
  unfold State.applyRestored; (repeat' split) <;> simp

@[simp] theorem State.showCal_stores (s : State) : (State.showCal s).stores = s.stores := by
  simp [State.showCal]

@[simp] theorem State.setCal_stores (s : State) (n v : Nat) : (State.setCal s n v).stores = s.stores := by
  simp [State.setCal]

@[simp] theorem State.spoilFrame_stores (s : State) (p : Nat) : (State.spoilFrame s p).stores = s.stores := by
  unfold State.spoilFrame; (repeat' split) <;> simp

@[simp] theorem State.laneCalBegin_stores (s : State) (n : Nat) : (State.laneCalBegin s n).stores = s.stores := by
  simp [State.laneCalBegin]

@[simp] theorem State.endRecal_stores (s : State) (n : Nat) (ok : Bool) : (State.endRecal s n ok).stores = s.stores := by
  simp [State.endRecal]

@[simp] theorem State.laneCalEnd_stores (s : State) (n peak ofs : Nat) : (State.laneCalEnd s n peak ofs).stores = s.stores := by
  simp [State.laneCalEnd]

@[simp] theorem State.calAbort_stores (s : State) (n : Nat) : (State.calAbort s n).stores = s.stores := by
  simp [State.calAbort]

@[simp] theorem State.laneSignal_stores (s : State) (n : Nat) (up : Bool) : (State.laneSignal s n up).stores = s.stores := by
  simp [State.laneSignal]

@[simp] theorem State.laneCount_stores (s : State) (n k : Nat) : (State.laneCount s n k).stores = s.stores := by
  simp [State.laneCount]

@[simp] theorem State.laneUnsync_stores (s : State) (n : Nat) : (State.laneUnsync s n).stores = s.stores := by
  simp [State.laneUnsync]

@[simp] theorem State.laneSyncs_stores (s : State) (n : Nat) : (State.laneSyncs s n).stores = s.stores := by
  simp [State.laneSyncs]

@[simp] theorem State.prbs_stores (s : State) (n errs : Nat) : (State.prbs s n errs).stores = s.stores := by
  simp [State.prbs]

@[simp] theorem State.pllLock_stores (s : State) (q : Nat) : (State.pllLock s q).stores = s.stores := by
  simp [State.pllLock]

@[simp] theorem State.quadPower_stores (s : State) (n : Nat) : (State.quadPower s n).stores = s.stores := by
  simp [State.quadPower]

@[simp] theorem State.markConflicts_stores (s : State) : (State.markConflicts s).stores = s.stores := by
  simp [State.markConflicts]

@[simp] theorem State.writeLaneRx_stores (s : State) (n w : Nat) : (State.writeLaneRx s n w).stores = s.stores := by
  simp [State.writeLaneRx]

@[simp] theorem State.calDue_stores (s : State) (n : Nat) : (State.calDue s n).stores = s.stores := by
  simp [State.calDue]

@[simp] theorem State.recalCmd_stores (s : State) (m : Nat) : (State.recalCmd s m).stores = s.stores := by
  simp [State.recalCmd]

@[simp] theorem State.calSched_stores (s : State) (n : Nat) : (State.calSched s n).stores = s.stores := by
  simp [State.calSched]

@[simp] theorem State.gapRestore_stores (s : State) (g : Nat) : (State.gapRestore s g).stores = s.stores := by
  simp [State.gapRestore]

end Sys2Proof.Machine
end

