-- ==== Sys2Proof/Laws/KeepPower.lean ====
section
/-! SUPPORT. What the operations of Machine/Power.lean do to the memories and to the queue. -/

set_option Elab.async false

namespace Sys2Proof.Machine

@[simp] theorem State.stepTime_stores (s : State) (lo : Nat) : (State.stepTime s lo).stores = s.stores := by
  simp [State.stepTime]

@[simp] theorem State.setLocked_stores (s : State) (v : Bool) : (State.setLocked s v).stores = s.stores := by
  simp [State.setLocked]

@[simp] theorem State.pauseWalls_stores (s : State) (v : Bool) : (State.pauseWalls s v).stores = s.stores := by
  simp [State.pauseWalls]

@[simp] theorem State.resumeWalls_stores (s : State) : (State.resumeWalls s).stores = s.stores := by
  simp [State.resumeWalls]

@[simp] theorem State.ptpCmd_stores (s : State) (m : Nat) : (State.ptpCmd s m).stores = s.stores := by
  simp [State.ptpCmd]

@[simp] theorem State.ptpSync_stores (s : State) (offset : Int) (gm : Bool) (trim : Nat) : (State.ptpSync s offset gm trim).stores = s.stores := by
  simp [State.ptpSync]

@[simp] theorem State.setStage_stores (s : State) (k : Nat) : (State.setStage s k).stores = s.stores := by
  simp [State.setStage]

@[simp] theorem State.shedLift_stores (s : State) (mv : Nat) : (State.shedLift s mv).stores = s.stores := by
  simp [State.shedLift]

@[simp] theorem State.shedCmd_stores (s : State) (m : Nat) : (State.shedCmd s m).stores = s.stores := by
  simp [State.shedCmd]

@[simp] theorem State.sendVout_stores (s : State) (mv : Nat) : (State.sendVout s mv).stores = s.stores := by
  simp [State.sendVout]

@[simp] theorem State.avsCommand_stores (s : State) : (State.avsCommand s).stores = s.stores := by
  simp [State.avsCommand]

@[simp] theorem State.avs_stores (s : State) (tj : Int) : (State.avs s tj).stores = s.stores := by
  simp [State.avs]

@[simp] theorem State.readback_stores (s : State) (mv : Nat) : (State.readback s mv).stores = s.stores := by
  simp [State.readback]

@[simp] theorem State.takeRestored_stores (s : State) (c : Nat) : (State.takeRestored s c).stores = s.stores := by
  simp [State.takeRestored]

@[simp] theorem State.restoreRecord_stores (s : State) (b : List Byte) : (State.restoreRecord s b).stores = s.stores := by
  simp [State.restoreRecord]

@[simp] theorem State.restoreCmd_stores (s : State) (m : Nat) : (State.restoreCmd s m).stores = s.stores := by
  simp [State.restoreCmd]

@[simp] theorem State.syncGapStart_stores (s : State) (g : Nat) : (State.syncGapStart s g).stores = s.stores := by
  simp [State.syncGapStart]

@[simp] theorem State.setCmp_stores (s : State) (n v : Nat) : (State.setCmp s n v).stores = s.stores := by
  simp [State.setCmp]

@[simp] theorem State.timerExpires_stores (s : State) (n : Nat) : (State.timerExpires s n).stores = s.stores := by
  simp [State.timerExpires]

@[simp] theorem State.writeCmp_stores (s : State) (n lo : Nat) : (State.writeCmp s n lo).stores = s.stores := by
  simp [State.writeCmp]

@[simp] theorem State.selfRefresh_stores (s : State) : (State.selfRefresh s).stores = s.stores := by
  simp [State.selfRefresh]

@[simp] theorem State.enterStandby_stores (s : State) (seconds : Nat) : (State.enterStandby s seconds).stores = s.stores := by
  simp [State.enterStandby]

@[simp] theorem State.powerCmd_stores (s : State) (m : Nat) : (State.powerCmd s m).stores = s.stores := by
  unfold State.powerCmd; refine State.serve_stores _ _ _ _ _ (fun t => ?_); split <;> simp

@[simp] theorem State.wakeTimer_stores (s : State) : (State.wakeTimer s).stores = s.stores := by
  simp [State.wakeTimer]

@[simp] theorem State.gpioSet_stores (s : State) (k : Nat) (high : Bool) : (State.gpioSet s k high).stores = s.stores := by
  simp [State.gpioSet]

@[simp] theorem State.reviveCtx_stores (s : State) (c : Nat) : (State.reviveCtx s c).stores = s.stores := by
  simp [State.reviveCtx]

@[simp] theorem State.recheckBed_stores (s : State) (c k : Nat) : (State.recheckBed s c k).stores = s.stores := by
  unfold State.recheckBed; dsimp only; (repeat' split) <;> simp

@[simp] theorem State.sampleLatches_stores (s : State) : (State.sampleLatches s).stores = s.stores := by
  simp [State.sampleLatches]

@[simp] theorem State.restoreSaved_stores (s old : State) : (s.restoreSaved old).stores = s.stores := by
  unfold State.restoreSaved; simp

end Sys2Proof.Machine
end

