-- ==== Sys2Proof/Laws/KeepReads.lean ====
section
/-! SUPPORT. What the operations of Machine/Reads.lean do to the memories and to the queue. -/

set_option Elab.async false

namespace Sys2Proof.Machine

@[simp] theorem State.lutAdvance_stores (s : State) : (State.lutAdvance s).stores = s.stores := by
  simp [State.lutAdvance]

@[simp] theorem State.semRead_stores (s : State) (n c : Nat) : (State.semRead s n c).1.stores = s.stores := by
  unfold State.semRead; dsimp only; (repeat' split) <;> simp

@[simp] theorem State.headerRead_stores (s : State) (m : Nat) : (State.headerRead s m).1.stores = s.stores := by
  simp [State.headerRead]

@[simp] theorem State.popStamp_stores (s : State) (p : Nat) : (State.popStamp s p).1.stores = s.stores := by
  unfold State.popStamp; dsimp only; (repeat' split) <;> simp

@[simp] theorem State.sampleRead_stores (s : State) (x : Fld) (k j : Nat) : (State.sampleRead s x k j).stores = s.stores := by
  simp [State.sampleRead]

@[simp] theorem State.readReg_stores (s : State) (o : Origin) (r : RegId) (i : Nat) : (State.readReg s o r i).1.stores = s.stores := by
  unfold State.readReg; (repeat' split) <;> simp

@[simp] theorem State.setLatchWord_stores (s : State) (a v : Nat) : (State.setLatchWord s a v).stores = s.stores := by
  simp [State.setLatchWord]

@[simp] theorem State.readLatched_stores (s : State) (o : Origin) (r : RegId) (i : Nat) : (State.readLatched s o r i).1.stores = s.stores := by
  unfold State.readLatched; dsimp only; (repeat' split) <;> simp

end Sys2Proof.Machine
end

