-- ==== Sys2Proof/Laws/KeepWrites.lean ====
section
/-! SUPPORT. What the operations of Machine/Writes.lean do to the memories and to the queue. -/

set_option Elab.async false

namespace Sys2Proof.Machine

@[simp] theorem State.writeFld_stores (s : State) (x : Fld) (i w : Nat) (locked : Bool) : (State.writeFld s x i w locked).stores = s.stores := by
  unfold State.writeFld; (repeat' split) <;> simp

@[simp] theorem State.writePlain_stores (s : State) (r : RegId) (i w : Nat) : (State.writePlain s r i w).stores = s.stores := by
  simp [State.writePlain]

@[simp] theorem State.semWrite_stores (s : State) (n c w : Nat) : (State.semWrite s n c w).stores = s.stores := by
  simp [State.semWrite]

@[simp] theorem State.matchWrite_stores (s : State) (i w : Nat) : (State.matchWrite s i w).stores = s.stores := by
  simp [State.matchWrite]

@[simp] theorem State.patchWrite_stores (s : State) (i w : Nat) : (State.patchWrite s i w).stores = s.stores := by
  simp [State.patchWrite]

@[simp] theorem State.drsWrite_stores (s : State) (w : Nat) : (State.drsWrite s w).stores = s.stores := by
  simp [State.drsWrite]

@[simp] theorem State.lutWrite_stores (s : State) (w : Nat) : (State.lutWrite s w).stores = s.stores := by
  simp [State.lutWrite]

@[simp] theorem State.rivWrite_stores (s : State) (n w : Nat) : (State.rivWrite s n w).stores = s.stores := by
  simp [State.rivWrite]

@[simp] theorem State.portWrite_stores (s : State) (n w : Nat) : (State.portWrite s n w).stores = s.stores := by
  simp [State.portWrite]

@[simp] theorem State.haulWrite_stores (s : State) (p w : Nat) : (State.haulWrite s p w).stores = s.stores := by
  simp [State.haulWrite]

@[simp] theorem State.commitWrite_stores (s : State) (w : Nat) : (State.commitWrite s w).stores = s.stores := by
  simp [State.commitWrite]

@[simp] theorem State.stagedWrite_stores (s : State) (tern : Bool) (k w : Nat) : (State.stagedWrite s tern k w).stores = s.stores := by
  simp [State.stagedWrite]

@[simp] theorem State.bpmWrite_stores (s : State) (w : Nat) : (State.bpmWrite s w).stores = s.stores := by
  simp [State.bpmWrite]

@[simp] theorem State.queueWrite_stores (s : State) (q w : Nat) : (State.queueWrite s q w).stores = s.stores := by
  simp [State.queueWrite]

@[simp] theorem State.baseWrite_stores (s : State) (r : RegId) (w : Nat) : (State.baseWrite s r w).stores = s.stores := by
  simp [State.baseWrite]

@[simp] theorem State.meterWrite_stores (s : State) (w : Nat) : (State.meterWrite s w).stores = s.stores := by
  simp [State.meterWrite]

@[simp] theorem State.timingWrite_stores (s : State) (c w : Nat) : (State.timingWrite s c w).stores = s.stores := by
  simp [State.timingWrite]

@[simp] theorem State.delayWrite_stores (s : State) (c w : Nat) : (State.delayWrite s c w).stores = s.stores := by
  simp [State.delayWrite]

@[simp] theorem State.trainWrite_stores (s : State) (c w : Nat) : (State.trainWrite s c w).stores = s.stores := by
  simp [State.trainWrite]

@[simp] theorem State.logWrite_stores (s : State) (w : Nat) : (State.logWrite s w).stores = s.stores := by
  simp [State.logWrite]

@[simp] theorem State.prbsWrite_stores (s : State) (n w : Nat) : (State.prbsWrite s n w).stores = s.stores := by
  simp [State.prbsWrite]

@[simp] theorem State.swClear_stores (s : State) (x : Fld) (w : Nat) : (State.swClear s x w).stores = s.stores := by
  simp [State.swClear]

@[simp] theorem State.routeWrite_stores (s : State) (n w : Nat) : (State.routeWrite s n w).stores = s.stores := by
  simp [State.routeWrite]

@[simp] theorem State.safeRelease_stores (s : State) (base w : Nat) : (State.safeRelease s base w).stores = s.stores := by
  simp [State.safeRelease]

@[simp] theorem State.kindWrite_stores (s : State) (base w : Nat) : (State.kindWrite s base w).stores = s.stores := by
  simp [State.kindWrite]

@[simp] theorem State.srcWrite_stores (s : State) (f w : Nat) : (State.srcWrite s f w).stores = s.stores := by
  simp [State.srcWrite]

@[simp] theorem State.tailWrite_stores (s : State) (w : Nat) : (State.tailWrite s w).stores = s.stores := by
  simp [State.tailWrite]

@[simp] theorem State.timerWrite_stores (s : State) (n w : Nat) : (State.timerWrite s n w).stores = s.stores := by
  simp [State.timerWrite]

@[simp] theorem State.tamperWrite_stores (s : State) (w : Nat) : (State.tamperWrite s w).stores = s.stores := by
  simp [State.tamperWrite]

@[simp] theorem State.tamperClear_stores (s : State) (w : Nat) : (State.tamperClear s w).stores = s.stores := by
  simp [State.tamperClear]

@[simp] theorem State.regionWrite_stores (s : State) (r : RegId) (n w : Nat) : (State.regionWrite s r n w).stores = s.stores := by
  simp [State.regionWrite]

@[simp] theorem State.spdWrite_stores (s : State) (w : Nat) : (State.spdWrite s w).stores = s.stores := by
  simp [State.spdWrite]

@[simp] theorem State.deviceWrite_stores (s : State) (w : Nat) : (State.deviceWrite s w).stores = s.stores := by
  simp [State.deviceWrite]

end Sys2Proof.Machine
end

