-- ==== Sys2Proof/Laws/KeepAccess.lean ====
section
/-! SUPPORT. What the operations of Machine/Access.lean do to the memories and to the queue. -/

set_option Elab.async false

namespace Sys2Proof.Machine

@[simp] theorem State.denyWorld_stores (s : State) : (State.denyWorld s).stores = s.stores := by
  simp [State.denyWorld]

@[simp] theorem State.denyExpert_stores (s : State) : (State.denyExpert s).stores = s.stores := by
  simp [State.denyExpert]

@[simp] theorem State.readAt_stores (s : State) (o : Origin) (a : Nat) : (State.readAt s o a).1.stores = s.stores := by
  unfold State.readAt; (repeat' split) <;> simp

@[simp] theorem State.answer_stores (r : State × Nat) : (State.answer r).stores = r.1.stores := by
  simp [State.answer]

@[simp] theorem State.unsupported_stores (s : State) (o : Origin) : (State.unsupported s o).stores = s.stores := by
  simp [State.unsupported]

@[simp] theorem State.busRead_stores (s : State) (o : Origin) (a : Nat) : (State.busRead s o a).stores = s.stores := by
  simp [State.busRead]

@[simp] theorem State.busRead64_stores (s : State) (o : Origin) (a : Nat) : (State.busRead64 s o a).stores = s.stores := by
  simp [State.busRead64]

@[simp] theorem State.readWords_stores (s : State) (o : Origin) (a n : Nat) : (s.readWords o a n).1.stores = s.stores := by
  induction n generalizing s a with
  | zero => simp [State.readWords]
  | succ k ih => simp [State.readWords, ih]

@[simp] theorem State.regReadCmd_stores (s : State) (m : Nat) : (State.regReadCmd s m).stores = s.stores := by
  simp [State.regReadCmd]

@[simp] theorem State.outOfRange_stores (s : State) : (State.outOfRange s).stores = s.stores := by
  simp [State.outOfRange]

@[simp] theorem State.coverLines_stores (s : State) (a n : Nat) (sec : Bool) : (State.coverLines s a n sec).stores = s.stores := by
  simp [State.coverLines]

@[simp] theorem State.bar2Absent_stores (s : State) (op : Bar2Op) : (State.bar2Absent s op).stores = s.stores := by
  unfold State.bar2Absent; (repeat' split) <;> simp

@[simp] theorem State.levelFell_stores (s : State) (t : Nat) (fell : Bool) : (State.levelFell s t fell).stores = s.stores := by
  unfold State.levelFell; (repeat' split) <;> simp

@[simp] theorem State.claimRead_stores (s : State) (o : Origin) (t a : Nat) (fell : Bool) : (State.claimRead s o t a fell).stores = s.stores := by
  simp [State.claimRead]

end Sys2Proof.Machine
end

