-- ==== Sys2Proof/Laws/KeepJobs.lean ====
section
/-! SUPPORT. What the operations of Machine/Jobs.lean do to the memories and to the queue. -/

set_option Elab.async false

namespace Sys2Proof.Machine

@[simp] theorem State.releaseOwn_stores (s : State) (n : Nat) : (State.releaseOwn s n).stores = s.stores := by
  simp [State.releaseOwn]

end Sys2Proof.Machine
end

