-- ==== Sys2Proof/Laws/KeepIdle.lean ====
section
/-! SUPPORT. What the operations of Machine/Idle.lean do to the memories and to the queue. -/

set_option Elab.async false

namespace Sys2Proof.Machine

end Sys2Proof.Machine
end

