-- ==== Sys2Proof/Laws/Keeps.lean ====
section
/-! SUPPORT. The relation that every command keeps between the stores before and after it: the queue is as it was, the memories stay canonical, and no blown OTP bit reads as unblown. -/

set_option Elab.async false

namespace Sys2Proof.Machine

/-- DRAM, flash, OTP and the queue. -/
abbrev Stores := List Host.Cell × List Host.Cell × List Host.Cell × List Instr

/-- Every OTP bit that `t` has blown `u` has blown. -/
def blownStays (t u : List Host.Cell) : Prop := ∀ a i, (Tab.get (0 : Byte) t a).getLsbD i = true → (Tab.get (0 : Byte) u a).getLsbD i = true

/-- What stands in `w` after `v`. -/
structure Keeps (v w : Stores) : Prop where
  queue : w.2.2.2 = v.2.2.2
  dram : Tab.wf 0 v.1 = true → Tab.wf 0 w.1 = true
  flash : Tab.wf 0xFF v.2.1 = true → Tab.wf 0xFF w.2.1 = true
  otp : Tab.wf 0 v.2.2.1 = true → Tab.wf 0 w.2.2.1 = true
  blown : blownStays v.2.2.1 w.2.2.1

theorem blownStays_refl (t : List Host.Cell) : blownStays t t := fun _ _ h => h

@[simp] theorem Keeps.refl (v : Stores) : Keeps v v := ⟨rfl, id, id, id, blownStays_refl _⟩

theorem Keeps.trans {u v w : Stores} (h : Keeps u v) (g : Keeps v w) : Keeps u w :=
  ⟨g.queue.trans h.queue, fun x => g.dram (h.dram x), fun x => g.flash (h.flash x), fun x => g.otp (h.otp x), fun a i x => g.blown a i (h.blown a i x)⟩

/-- A state whose stores are those of `s` follows whatever `s` follows. -/
theorem Keeps.congr {v : Stores} {s t : State} (e : t.stores = s.stores) (h : Keeps v s.stores) : Keeps v t.stores := e ▸ h

theorem Keeps.putDram {v : Stores} {s : State} (a : Nat) (bs : List Byte) (h : Keeps v s.stores) : Keeps v (s.putDram a bs).stores :=
  h.trans ⟨rfl, fun x => Tab.wf_setList 0 s.dram a bs x, id, id, blownStays_refl _⟩

/-- Bytes of a table that only gain bits. -/
theorem blownStays_or (t : List Host.Cell) (a : Nat) (bs : List Byte) (n : Nat) (hn : n = bs.length) :
    blownStays t (Tab.setList 0 t a (((Tab.getList 0 t a n).zip bs).map (fun p => p.1 ||| p.2))) := by
  intro j i h
  subst hn
  by_cases hj : a ≤ j ∧ j < a + bs.length
  · obtain ⟨k, rfl⟩ := Nat.exists_eq_add_of_le hj.1
    have hk : k < bs.length := by omega
    rw [Tab.get_setList_inside _ _ _ _ _ (by simpa [Tab.getList] using hk)]
    simp only [Tab.getList, List.getElem_map, List.getElem_zip, List.getElem_range, BitVec.getLsbD_or, Bool.or_eq_true]
    exact Or.inl h
  · rw [Tab.get_setList_outside _ _ _ _ _ (by simp [Tab.getList]; omega)]
    exact h

theorem Keeps.blow {v : Stores} {s : State} (a : Nat) (bs : List Byte) (h : Keeps v s.stores) : Keeps v (s.blow a bs).stores :=
  h.trans ⟨rfl, id, id, fun x => Tab.wf_setList 0 s.otp a _ x, blownStays_or s.otp a bs _ rfl⟩

theorem Keeps.program {v : Stores} {s : State} (a : Nat) (bs : List Byte) (h : Keeps v s.stores) : Keeps v (s.program a bs).stores :=
  h.trans ⟨rfl, id, fun x => Tab.wf_setList 0xFF s.flash a _ x, id, blownStays_refl _⟩

theorem Keeps.erase {v : Stores} {s : State} (a n : Nat) (h : Keeps v s.stores) : Keeps v (s.erase a n).stores :=
  h.trans ⟨rfl, id, fun x => Tab.wf_filter 0xFF s.flash _ x, id, blownStays_refl _⟩

/-- DRAM with some of its bytes zero. -/
theorem Keeps.filterDram {v : Stores} {s : State} (p : Host.Cell → Bool) (h : Keeps v s.stores) : Keeps v ({ s with dram := s.dram.filter p } : State).stores :=
  h.trans ⟨rfl, fun x => Tab.wf_filter 0 s.dram p x, id, id, blownStays_refl _⟩

theorem Keeps.ite {v : Stores} {c : Prop} [Decidable c] {s t : State} (h : c → Keeps v s.stores) (g : ¬c → Keeps v t.stores) :
    Keeps v (if c then s else t).stores := by
  split
  · exact h ‹_›
  · exact g ‹_›

theorem Keeps.chainAll {α : Type} {v : Stores} (l : List α) (f : α → State → State) {s : State} (hf : ∀ x t, Keeps v t.stores → Keeps v (f x t).stores)
    (h : Keeps v s.stores) : Keeps v (chainAll l f s).stores := by
  induction l generalizing s with
  | nil => exact h
  | cons x r ih => exact ih (hf x s h)

theorem Keeps.foldl {α : Type} {v : Stores} (l : List α) (f : State → α → State) {s : State} (hf : ∀ t x, Keeps v t.stores → Keeps v (f t x).stores)
    (h : Keeps v s.stores) : Keeps v (l.foldl f s).stores := by
  induction l generalizing s with
  | nil => exact h
  | cons x r ih => exact ih (hf s x h)

theorem Keeps.elim {α : Type} {v : Stores} (o : Option α) {s : State} (f : α → State) (h : Keeps v s.stores) (hf : ∀ x, Keeps v (f x).stores) :
    Keeps v (o.elim s f).stores := by
  cases o with
  | none => exact h
  | some x => exact hf x

end Sys2Proof.Machine
end

