-- ==== Sys2Proof/Laws/PerInstr.lean ====
section
/-! SUPPORT. One lemma for each command: the mailbox that a well-formed command names is one of the sixteen. -/

set_option Elab.async false

namespace Sys2Proof.Laws.Wf

/-- The mailbox that a command names: the one it was submitted to (R52), or the one whose window it accesses (R54). -/
def mailbox (i : Instr) : Option Nat :=
  match i with
  | .getInfo m => some m
  | .jobStatus m => some m
  | .wallOpen m => some m
  | .wallClose m => some m
  | .tileMapLoad m => some m
  | .play m => some m
  | .pause m => some m
  | .brightnessSet m => some m
  | .safeStateSet m => some m
  | .contextCreate m => some m
  | .contextDestroy m => some m
  | .contextStats m => some m
  | .effortSet m => some m
  | .bedrockLoad m => some m
  | .routeSet m => some m
  | .ruleCommit m => some m
  | .haulPortSet m => some m
  | .ingressSet m => some m
  | .lampPortSet m => some m
  | .dressingLoad m => some m
  | .scanMapLoad m => some m
  | .ucodeUpdate m => some m
  | .ptpConfig m => some m
  | .deviceAddressSet m => some m
  | .powerStateSet m => some m
  | .calSnapshot m => some m
  | .calRestore m => some m
  | .fwStage m => some m
  | .fwVerify m => some m
  | .fwActivate m => some m
  | .fwConfirm m => some m
  | .eventRead m => some m
  | .faultClear m => some m
  | .attest m => some m
  | .keyLoad m => some m
  | .lcAdvance m => some m
  | .generateId m => some m
  | .otpProgram m => some m
  | .otpLock m => some m
  | .revokeKey0 m => some m
  | .lcReturn m => some m
  | .expertChallenge m => some m
  | .expertUnlock m => some m
  | .expertLock m => some m
  | .regRead m => some m
  | .regWrite m => some m
  | .hewerDrain m => some m
  | .hewerPatch m => some m
  | .hewerService m => some m
  | .ruleStage m => some m
  | .meterConfig m => some m
  | .shaperConfig m => some m
  | .queueWeightSet m => some m
  | .laneConfig m => some m
  | .laneRecal m => some m
  | .ddrRetrain m => some m
  | .ddrTimingSet m => some m
  | .rivChannelConfig m => some m
  | .faultReactionSet m => some m
  | .shedThresholdSet m => some m
  | .schParamSet m => some m
  | .intcRouteSet m => some m
  | .romInfo m => some m
  | .flashRead m => some m
  | .flashErase m => some m
  | .flashWrite m => some m
  | .romReset m => some m
  | .mbxDoorbell _ n _ => some n
  | .mbxResultAck _ n _ => some n
  | .mbxResultHeaderRead _ n _ => some n
  | .jobDone _ _ => none
  | .semLockRead _ _ => none
  | .semRelease _ _ _ => none
  | .clearBroken _ _ _ => none
  | .semLeaseExpire _ => none
  | .glbReset _ _ => none
  | .pcieBar2BaseWrite _ _ _ => none
  | .bar2Access _ _ _ => none
  | .registerWrite _ _ _ _ _ _ => none
  | .counterLowRead _ _ _ => none
  | .shadowArm _ _ _ => none
  | .shadowCancel _ _ _ => none
  | .powerOnReset => none
  | .resetN => none
  | .clearingDone => none
  | .romVerifyDone => none
  | .fwReady => none
  | .confirmWindowExpire => none
  | .heartbeatTick _ => none
  | .remoteSessionTimeout => none
  | .pcieFunctionReset _ => none
  | .pciePerst => none
  | .pcieLinkStateChange _ _ _ _ => none
  | .msiUnmask _ _ => none
  | .subframeSync _ => none
  | .syncGapStart _ => none
  | .gridEnable _ => none
  | .bandStart _ _ => none
  | .rivBurstIssue _ => none
  | .rivBeatResponse _ _ => none
  | .rivChClear _ _ _ => none
  | .lampFrameSend _ _ => none
  | .lampStatusReceive _ _ => none
  | .breakNoticeConfirm _ _ => none
  | .lampRxLos _ _ => none
  | .drsLutDataAccess _ _ => none
  | .sliceDispatch _ => none
  | .sliceComplete _ => none
  | .bedrockUnitDispatch _ => none
  | .receptionTimeout _ => none
  | .stallLimitExpire _ => none
  | .pixelWordIssue _ _ _ => none
  | .bitstreamWordIssue _ _ _ => none
  | .hewerWaitTimeout _ => none
  | .hewerTestDone _ _ => none
  | .patchLoadDone _ _ => none
  | .hwrDrainSet _ _ _ => none
  | .hwrDrainClear _ _ _ => none
  | .hwrServiceIn _ _ _ => none
  | .hwrServiceOut _ _ _ => none
  | .hwrPatchWrite _ _ _ _ => none
  | .stkPinReq _ _ => none
  | .stkUnpin _ _ => none
  | .haulFrameReceive _ _ => none
  | .haulFrameEnd _ _ => none
  | .cleftPendingEnter _ => none
  | .spillDequeue _ _ => none
  | .spoilRefill _ _ => none
  | .spqQDisable _ _ => none
  | .egressPacketBuild _ _ => none
  | .bufferAlloc _ _ _ => none
  | .bpmCacheRefill => none
  | .transmitStart _ => none
  | .transmitEnd _ _ => none
  | .tmgSweep _ => none
  | .tmgQueueSample _ => none
  | .tmgSampleRead _ _ => none
  | .meterEnable _ _ => none
  | .shaperRateWrite _ _ _ => none
  | .haulLinkLoss _ _ => none
  | .haulLinkUp _ _ => none
  | .ringNoticeReceive _ _ _ _ _ => none
  | .ringRestoreReceive _ _ _ _ _ => none
  | .ringNoticeResend _ => none
  | .sendRestore _ _ => none
  | .clearCw _ _ => none
  | .clearCcw _ _ => none
  | .fragmentAgeOut _ => none
  | .clone _ _ => none
  | .cloneDone => none
  | .go _ _ => none
  | .abort _ _ => none
  | .commitDone => none
  | .haulTsPop _ _ => none
  | .pixelFrameReceive _ _ _ => none
  | .ingCloseExpire _ => none
  | .pixelLinkLoss _ => none
  | .laneSignalChange _ _ => none
  | .laneSyncLoss _ => none
  | .laneCalStart _ => none
  | .laneCalDone _ _ _ => none
  | .laneCfgWrite _ _ _ _ => none
  | .calSchedule _ => none
  | .sensorCal _ => none
  | .ddrRequestGrant _ => none
  | .ddrTransferComplete _ _ => none
  | .arbWatchdogExpire _ => none
  | .arbMaxwaitRead _ _ _ => none
  | .ddrRefreshDue _ => none
  | .ddrPageIdleExpire _ _ => none
  | .ddrTempPoll _ _ => none
  | .ddrScrubRead _ _ => none
  | .ddrWriteCrcAlert _ _ _ => none
  | .ddrDriftCheck _ _ => none
  | .ddrRetrainStart _ => none
  | .ddrRetrainDone _ _ => none
  | .ddrTrainStart _ _ _ => none
  | .ddrTrainingDone _ _ => none
  | .ddrFillStart _ _ _ => none
  | .ddrFillDone _ => none
  | .ddrLogClear _ _ => none
  | .ddrConfigLock _ _ _ => none
  | .intcClaim _ _ _ => none
  | .intcClaimS _ _ => none
  | .intcComplete _ _ _ => none
  | .intcCompleteS _ _ => none
  | .intcRouteWrite _ _ _ => none
  | .intcRouteApply _ => none
  | .intcSwSet _ _ _ => none
  | .intcSwClr _ _ _ => none
  | .wakeLatchSet _ => none
  | .graceExpire _ => none
  | .fltSrcAck _ _ _ => none
  | .fltSafeRelease _ _ _ => none
  | .kick _ _ => none
  | .fwWatchdogExpire => none
  | .corePllUnlock => none
  | .lanePllUnlock _ => none
  | .thermHigh _ _ => none
  | .thermTrip _ _ => none
  | .railFault _ => none
  | .shedStageEnter _ => none
  | .shedStageLift _ => none
  | .avsStep _ => none
  | .pmbusReadback _ => none
  | .tbStep _ _ => none
  | .tbTrimWrite _ _ => none
  | .ptpSyncProcess _ _ _ => none
  | .timerExpire _ => none
  | .tmrCmpWrite _ _ _ => none
  | .tmrOverrunRead _ _ => none
  | .bpmMinFreeRead _ => none
  | .pwrVminRead _ => none
  | .standbyGate => none
  | .wakeTimerExpire => none
  | .wake => none
  | .tamperTrip _ => none
  | .spdWipe _ _ => none
  | .spdWipeDone => none
  | .blockWorldLock _ _ => none
  | .regionLock _ _ _ => none
  | .laneSyncAcquire _ => none
  | .pixelLinkUp _ => none
  | .farSyncReturn _ => none
  | .lanePllLock _ => none
  | .debugPortReset => none
  | .gpioChange _ _ => none
  | .prbsLock _ _ => none
  | .codeErr _ _ => none

/-- The mailbox that a well-formed command names is MBX0 to MBX15. -/
def Statement (i : Instr) : Prop := i.wf = true → ∀ n, mailbox i = some n → n < 16

theorem getInfo (m : Nat) : Statement (.getInfo m) := fun h _ e => Option.some.inj e ▸ of_decide_eq_true h
theorem jobStatus (m : Nat) : Statement (.jobStatus m) := fun h _ e => Option.some.inj e ▸ of_decide_eq_true h
theorem wallOpen (m : Nat) : Statement (.wallOpen m) := fun h _ e => Option.some.inj e ▸ of_decide_eq_true h
theorem wallClose (m : Nat) : Statement (.wallClose m) := fun h _ e => Option.some.inj e ▸ of_decide_eq_true h
theorem tileMapLoad (m : Nat) : Statement (.tileMapLoad m) := fun h _ e => Option.some.inj e ▸ of_decide_eq_true h
theorem play (m : Nat) : Statement (.play m) := fun h _ e => Option.some.inj e ▸ of_decide_eq_true h
theorem pause (m : Nat) : Statement (.pause m) := fun h _ e => Option.some.inj e ▸ of_decide_eq_true h
theorem brightnessSet (m : Nat) : Statement (.brightnessSet m) := fun h _ e => Option.some.inj e ▸ of_decide_eq_true h
theorem safeStateSet (m : Nat) : Statement (.safeStateSet m) := fun h _ e => Option.some.inj e ▸ of_decide_eq_true h
theorem contextCreate (m : Nat) : Statement (.contextCreate m) := fun h _ e => Option.some.inj e ▸ of_decide_eq_true h
theorem contextDestroy (m : Nat) : Statement (.contextDestroy m) := fun h _ e => Option.some.inj e ▸ of_decide_eq_true h
theorem contextStats (m : Nat) : Statement (.contextStats m) := fun h _ e => Option.some.inj e ▸ of_decide_eq_true h
theorem effortSet (m : Nat) : Statement (.effortSet m) := fun h _ e => Option.some.inj e ▸ of_decide_eq_true h
theorem bedrockLoad (m : Nat) : Statement (.bedrockLoad m) := fun h _ e => Option.some.inj e ▸ of_decide_eq_true h
theorem routeSet (m : Nat) : Statement (.routeSet m) := fun h _ e => Option.some.inj e ▸ of_decide_eq_true h
theorem ruleCommit (m : Nat) : Statement (.ruleCommit m) := fun h _ e => Option.some.inj e ▸ of_decide_eq_true h
theorem haulPortSet (m : Nat) : Statement (.haulPortSet m) := fun h _ e => Option.some.inj e ▸ of_decide_eq_true h
theorem ingressSet (m : Nat) : Statement (.ingressSet m) := fun h _ e => Option.some.inj e ▸ of_decide_eq_true h
theorem lampPortSet (m : Nat) : Statement (.lampPortSet m) := fun h _ e => Option.some.inj e ▸ of_decide_eq_true h
theorem dressingLoad (m : Nat) : Statement (.dressingLoad m) := fun h _ e => Option.some.inj e ▸ of_decide_eq_true h
theorem scanMapLoad (m : Nat) : Statement (.scanMapLoad m) := fun h _ e => Option.some.inj e ▸ of_decide_eq_true h
theorem ucodeUpdate (m : Nat) : Statement (.ucodeUpdate m) := fun h _ e => Option.some.inj e ▸ of_decide_eq_true h
theorem ptpConfig (m : Nat) : Statement (.ptpConfig m) := fun h _ e => Option.some.inj e ▸ of_decide_eq_true h
theorem deviceAddressSet (m : Nat) : Statement (.deviceAddressSet m) := fun h _ e => Option.some.inj e ▸ of_decide_eq_true h
theorem powerStateSet (m : Nat) : Statement (.powerStateSet m) := fun h _ e => Option.some.inj e ▸ of_decide_eq_true h
theorem calSnapshot (m : Nat) : Statement (.calSnapshot m) := fun h _ e => Option.some.inj e ▸ of_decide_eq_true h
theorem calRestore (m : Nat) : Statement (.calRestore m) := fun h _ e => Option.some.inj e ▸ of_decide_eq_true h
theorem fwStage (m : Nat) : Statement (.fwStage m) := fun h _ e => Option.some.inj e ▸ of_decide_eq_true h
theorem fwVerify (m : Nat) : Statement (.fwVerify m) := fun h _ e => Option.some.inj e ▸ of_decide_eq_true h
theorem fwActivate (m : Nat) : Statement (.fwActivate m) := fun h _ e => Option.some.inj e ▸ of_decide_eq_true h
theorem fwConfirm (m : Nat) : Statement (.fwConfirm m) := fun h _ e => Option.some.inj e ▸ of_decide_eq_true h
theorem eventRead (m : Nat) : Statement (.eventRead m) := fun h _ e => Option.some.inj e ▸ of_decide_eq_true h
theorem faultClear (m : Nat) : Statement (.faultClear m) := fun h _ e => Option.some.inj e ▸ of_decide_eq_true h
theorem attest (m : Nat) : Statement (.attest m) := fun h _ e => Option.some.inj e ▸ of_decide_eq_true h
theorem keyLoad (m : Nat) : Statement (.keyLoad m) := fun h _ e => Option.some.inj e ▸ of_decide_eq_true h
theorem lcAdvance (m : Nat) : Statement (.lcAdvance m) := fun h _ e => Option.some.inj e ▸ of_decide_eq_true h
theorem generateId (m : Nat) : Statement (.generateId m) := fun h _ e => Option.some.inj e ▸ of_decide_eq_true h
theorem otpProgram (m : Nat) : Statement (.otpProgram m) := fun h _ e => Option.some.inj e ▸ of_decide_eq_true h
theorem otpLock (m : Nat) : Statement (.otpLock m) := fun h _ e => Option.some.inj e ▸ of_decide_eq_true h
theorem revokeKey0 (m : Nat) : Statement (.revokeKey0 m) := fun h _ e => Option.some.inj e ▸ of_decide_eq_true h
theorem lcReturn (m : Nat) : Statement (.lcReturn m) := fun h _ e => Option.some.inj e ▸ of_decide_eq_true h
theorem expertChallenge (m : Nat) : Statement (.expertChallenge m) := fun h _ e => Option.some.inj e ▸ of_decide_eq_true h
theorem expertUnlock (m : Nat) : Statement (.expertUnlock m) := fun h _ e => Option.some.inj e ▸ of_decide_eq_true h
theorem expertLock (m : Nat) : Statement (.expertLock m) := fun h _ e => Option.some.inj e ▸ of_decide_eq_true h
theorem regRead (m : Nat) : Statement (.regRead m) := fun h _ e => Option.some.inj e ▸ of_decide_eq_true h
theorem regWrite (m : Nat) : Statement (.regWrite m) := fun h _ e => Option.some.inj e ▸ of_decide_eq_true h
theorem hewerDrain (m : Nat) : Statement (.hewerDrain m) := fun h _ e => Option.some.inj e ▸ of_decide_eq_true h
theorem hewerPatch (m : Nat) : Statement (.hewerPatch m) := fun h _ e => Option.some.inj e ▸ of_decide_eq_true h
theorem hewerService (m : Nat) : Statement (.hewerService m) := fun h _ e => Option.some.inj e ▸ of_decide_eq_true h
theorem ruleStage (m : Nat) : Statement (.ruleStage m) := fun h _ e => Option.some.inj e ▸ of_decide_eq_true h
theorem meterConfig (m : Nat) : Statement (.meterConfig m) := fun h _ e => Option.some.inj e ▸ of_decide_eq_true h
theorem shaperConfig (m : Nat) : Statement (.shaperConfig m) := fun h _ e => Option.some.inj e ▸ of_decide_eq_true h
theorem queueWeightSet (m : Nat) : Statement (.queueWeightSet m) := fun h _ e => Option.some.inj e ▸ of_decide_eq_true h
theorem laneConfig (m : Nat) : Statement (.laneConfig m) := fun h _ e => Option.some.inj e ▸ of_decide_eq_true h
theorem laneRecal (m : Nat) : Statement (.laneRecal m) := fun h _ e => Option.some.inj e ▸ of_decide_eq_true h
theorem ddrRetrain (m : Nat) : Statement (.ddrRetrain m) := fun h _ e => Option.some.inj e ▸ of_decide_eq_true h
theorem ddrTimingSet (m : Nat) : Statement (.ddrTimingSet m) := fun h _ e => Option.some.inj e ▸ of_decide_eq_true h
theorem rivChannelConfig (m : Nat) : Statement (.rivChannelConfig m) := fun h _ e => Option.some.inj e ▸ of_decide_eq_true h
theorem faultReactionSet (m : Nat) : Statement (.faultReactionSet m) := fun h _ e => Option.some.inj e ▸ of_decide_eq_true h
theorem shedThresholdSet (m : Nat) : Statement (.shedThresholdSet m) := fun h _ e => Option.some.inj e ▸ of_decide_eq_true h
theorem schParamSet (m : Nat) : Statement (.schParamSet m) := fun h _ e => Option.some.inj e ▸ of_decide_eq_true h
theorem intcRouteSet (m : Nat) : Statement (.intcRouteSet m) := fun h _ e => Option.some.inj e ▸ of_decide_eq_true h
theorem romInfo (m : Nat) : Statement (.romInfo m) := fun h _ e => Option.some.inj e ▸ of_decide_eq_true h
theorem flashRead (m : Nat) : Statement (.flashRead m) := fun h _ e => Option.some.inj e ▸ of_decide_eq_true h
theorem flashErase (m : Nat) : Statement (.flashErase m) := fun h _ e => Option.some.inj e ▸ of_decide_eq_true h
theorem flashWrite (m : Nat) : Statement (.flashWrite m) := fun h _ e => Option.some.inj e ▸ of_decide_eq_true h
theorem romReset (m : Nat) : Statement (.romReset m) := fun h _ e => Option.some.inj e ▸ of_decide_eq_true h
theorem mbxDoorbell (o : Origin) (n : Nat) (w : Word) : Statement (.mbxDoorbell o n w) := fun h _ e => Option.some.inj e ▸ of_decide_eq_true h
theorem mbxResultAck (o : Origin) (n : Nat) (w : Word) : Statement (.mbxResultAck o n w) := fun h _ e => Option.some.inj e ▸ of_decide_eq_true h
theorem mbxResultHeaderRead (o : Origin) (n : Nat) (wide : Bool) : Statement (.mbxResultHeaderRead o n wide) := fun h _ e => Option.some.inj e ▸ of_decide_eq_true h
theorem jobDone (j : Nat) (ok : Bool) : Statement (.jobDone j ok) := fun _ _ e => nomatch e
theorem semLockRead (o : Origin) (n : Nat) : Statement (.semLockRead o n) := fun _ _ e => nomatch e
theorem semRelease (o : Origin) (n : Nat) (w : Word) : Statement (.semRelease o n w) := fun _ _ e => nomatch e
theorem clearBroken (o : Origin) (n : Nat) (w : Word) : Statement (.clearBroken o n w) := fun _ _ e => nomatch e
theorem semLeaseExpire (n : Nat) : Statement (.semLeaseExpire n) := fun _ _ e => nomatch e
theorem glbReset (o : Origin) (w : Word) : Statement (.glbReset o w) := fun _ _ e => nomatch e
theorem pcieBar2BaseWrite (o : Origin) (f : Nat) (w : Word) : Statement (.pcieBar2BaseWrite o f w) := fun _ _ e => nomatch e
theorem bar2Access (f : Nat) (x : Nat) (a : Bar2Op) : Statement (.bar2Access f x a) := fun _ _ e => nomatch e
theorem registerWrite (o : Origin) (a : Nat) (w : Word) (be : Nat) (hi : Option (Word × Nat)) (poisoned : Bool) : Statement (.registerWrite o a w be hi poisoned) := fun _ _ e => nomatch e
theorem counterLowRead (o : Origin) (a : Nat) (wide : Bool) : Statement (.counterLowRead o a wide) := fun _ _ e => nomatch e
theorem shadowArm (o : Origin) (a : Nat) (w : Word) : Statement (.shadowArm o a w) := fun _ _ e => nomatch e
theorem shadowCancel (o : Origin) (a : Nat) (w : Word) : Statement (.shadowCancel o a w) := fun _ _ e => nomatch e
theorem powerOnReset : Statement (.powerOnReset) := fun _ _ e => nomatch e
theorem resetN : Statement (.resetN) := fun _ _ e => nomatch e
theorem clearingDone : Statement (.clearingDone) := fun _ _ e => nomatch e
theorem romVerifyDone : Statement (.romVerifyDone) := fun _ _ e => nomatch e
theorem fwReady : Statement (.fwReady) := fun _ _ e => nomatch e
theorem confirmWindowExpire : Statement (.confirmWindowExpire) := fun _ _ e => nomatch e
theorem heartbeatTick (cpx : CpxFault) : Statement (.heartbeatTick cpx) := fun _ _ e => nomatch e
theorem remoteSessionTimeout : Statement (.remoteSessionTimeout) := fun _ _ e => nomatch e
theorem pcieFunctionReset (f : Nat) : Statement (.pcieFunctionReset f) := fun _ _ e => nomatch e
theorem pciePerst : Statement (.pciePerst) := fun _ _ e => nomatch e
theorem pcieLinkStateChange (pm ltssm speed width : Nat) : Statement (.pcieLinkStateChange pm ltssm speed width) := fun _ _ e => nomatch e
theorem msiUnmask (f v : Nat) : Statement (.msiUnmask f v) := fun _ _ e => nomatch e
theorem subframeSync (g : Nat) : Statement (.subframeSync g) := fun _ _ e => nomatch e
theorem syncGapStart (g : Nat) : Statement (.syncGapStart g) := fun _ _ e => nomatch e
theorem gridEnable (g : Nat) : Statement (.gridEnable g) := fun _ _ e => nomatch e
theorem bandStart (n : Nat) (e : SramRead) : Statement (.bandStart n e) := fun _ _ e => nomatch e
theorem rivBurstIssue (n : Nat) : Statement (.rivBurstIssue n) := fun _ _ e => nomatch e
theorem rivBeatResponse (n : Nat) (r : BeatResp) : Statement (.rivBeatResponse n r) := fun _ _ e => nomatch e
theorem rivChClear (o : Origin) (n : Nat) (w : Word) : Statement (.rivChClear o n w) := fun _ _ e => nomatch e
theorem lampFrameSend (n : Nat) (own : Option PortFrame) : Statement (.lampFrameSend n own) := fun _ _ e => nomatch e
theorem lampStatusReceive (n : Nat) (frame : List Byte) : Statement (.lampStatusReceive n frame) := fun _ _ e => nomatch e
theorem breakNoticeConfirm (n : Nat) (d : Nat) : Statement (.breakNoticeConfirm n d) := fun _ _ e => nomatch e
theorem lampRxLos (n : Nat) (los : Bool) : Statement (.lampRxLos n los) := fun _ _ e => nomatch e
theorem drsLutDataAccess (o : Origin) (w : Option Word) : Statement (.drsLutDataAccess o w) := fun _ _ e => nomatch e
theorem sliceDispatch (h : Nat) : Statement (.sliceDispatch h) := fun _ _ e => nomatch e
theorem sliceComplete (h : Nat) : Statement (.sliceComplete h) := fun _ _ e => nomatch e
theorem bedrockUnitDispatch (h : Nat) : Statement (.bedrockUnitDispatch h) := fun _ _ e => nomatch e
theorem receptionTimeout (c : Nat) : Statement (.receptionTimeout c) := fun _ _ e => nomatch e
theorem stallLimitExpire (h : Nat) : Statement (.stallLimitExpire h) := fun _ _ e => nomatch e
theorem pixelWordIssue (h : Nat) (k : PixelWork) (m : LmUse) : Statement (.pixelWordIssue h k m) := fun _ _ e => nomatch e
theorem bitstreamWordIssue (h : Nat) (k : BitWork) (m : LmUse) : Statement (.bitstreamWordIssue h k m) := fun _ _ e => nomatch e
theorem hewerWaitTimeout (h : Nat) : Statement (.hewerWaitTimeout h) := fun _ _ e => nomatch e
theorem hewerTestDone (h : Nat) (pass : Bool) : Statement (.hewerTestDone h pass) := fun _ _ e => nomatch e
theorem patchLoadDone (h : Nat) (e : SramRead) : Statement (.patchLoadDone h e) := fun _ _ e => nomatch e
theorem hwrDrainSet (o : Origin) (h : Nat) (w : Word) : Statement (.hwrDrainSet o h w) := fun _ _ e => nomatch e
theorem hwrDrainClear (o : Origin) (h : Nat) (w : Word) : Statement (.hwrDrainClear o h w) := fun _ _ e => nomatch e
theorem hwrServiceIn (o : Origin) (h : Nat) (w : Word) : Statement (.hwrServiceIn o h w) := fun _ _ e => nomatch e
theorem hwrServiceOut (o : Origin) (h : Nat) (w : Word) : Statement (.hwrServiceOut o h w) := fun _ _ e => nomatch e
theorem hwrPatchWrite (o : Origin) (h : Nat) (off : Nat) (w : Word) : Statement (.hwrPatchWrite o h off w) := fun _ _ e => nomatch e
theorem stkPinReq (o : Origin) (w : Word) : Statement (.stkPinReq o w) := fun _ _ e => nomatch e
theorem stkUnpin (o : Origin) (w : Word) : Statement (.stkUnpin o w) := fun _ _ e => nomatch e
theorem haulFrameReceive (p : Nat) (frame : List Byte) : Statement (.haulFrameReceive p frame) := fun _ _ e => nomatch e
theorem haulFrameEnd (p : Nat) (lost : Bool) : Statement (.haulFrameEnd p lost) := fun _ _ e => nomatch e
theorem cleftPendingEnter (q : Nat) : Statement (.cleftPendingEnter q) := fun _ _ e => nomatch e
theorem spillDequeue (q : Nat) (e : SramRead) : Statement (.spillDequeue q e) := fun _ _ e => nomatch e
theorem spoilRefill (q : Nat) (bad : Bool) : Statement (.spoilRefill q bad) := fun _ _ e => nomatch e
theorem spqQDisable (o : Origin) (w : Word) : Statement (.spqQDisable o w) := fun _ _ e => nomatch e
theorem egressPacketBuild (c : Nat) (e : SramRead) : Statement (.egressPacketBuild c e) := fun _ _ e => nomatch e
theorem bufferAlloc (r : Requester) (frame : List Byte) (strict : Bool) : Statement (.bufferAlloc r frame strict) := fun _ _ e => nomatch e
theorem bpmCacheRefill : Statement (.bpmCacheRefill) := fun _ _ e => nomatch e
theorem transmitStart (p : Nat) : Statement (.transmitStart p) := fun _ _ e => nomatch e
theorem transmitEnd (p : Nat) (e : SramRead) : Statement (.transmitEnd p e) := fun _ _ e => nomatch e
theorem tmgSweep (k : Nat) : Statement (.tmgSweep k) := fun _ _ e => nomatch e
theorem tmgQueueSample (p : Nat) : Statement (.tmgQueueSample p) := fun _ _ e => nomatch e
theorem tmgSampleRead (o : Origin) (a : Nat) : Statement (.tmgSampleRead o a) := fun _ _ e => nomatch e
theorem meterEnable (o : Origin) (w : Word) : Statement (.meterEnable o w) := fun _ _ e => nomatch e
theorem shaperRateWrite (o : Origin) (a : Nat) (w : Word) : Statement (.shaperRateWrite o a w) := fun _ _ e => nomatch e
theorem haulLinkLoss (p : Nat) (fault : Bool) : Statement (.haulLinkLoss p fault) := fun _ _ e => nomatch e
theorem haulLinkUp (p : Nat) (fault : Bool) : Statement (.haulLinkUp p fault) := fun _ _ e => nomatch e
theorem ringNoticeReceive (p : Nat) (x : Nat) (ccw : Bool) (n : Nat) (hop : Nat) : Statement (.ringNoticeReceive p x ccw n hop) := fun _ _ e => nomatch e
theorem ringRestoreReceive (p : Nat) (x : Nat) (ccw : Bool) (n : Nat) (hop : Nat) : Statement (.ringRestoreReceive p x ccw n hop) := fun _ _ e => nomatch e
theorem ringNoticeResend (p : Nat) : Statement (.ringNoticeResend p) := fun _ _ e => nomatch e
theorem sendRestore (o : Origin) (w : Word) : Statement (.sendRestore o w) := fun _ _ e => nomatch e
theorem clearCw (o : Origin) (w : Word) : Statement (.clearCw o w) := fun _ _ e => nomatch e
theorem clearCcw (o : Origin) (w : Word) : Statement (.clearCcw o w) := fun _ _ e => nomatch e
theorem fragmentAgeOut (k : Nat) : Statement (.fragmentAgeOut k) := fun _ _ e => nomatch e
theorem clone (o : Origin) (w : Word) : Statement (.clone o w) := fun _ _ e => nomatch e
theorem cloneDone : Statement (.cloneDone) := fun _ _ e => nomatch e
theorem go (o : Origin) (w : Word) : Statement (.go o w) := fun _ _ e => nomatch e
theorem abort (o : Origin) (w : Word) : Statement (.abort o w) := fun _ _ e => nomatch e
theorem commitDone : Statement (.commitDone) := fun _ _ e => nomatch e
theorem haulTsPop (o : Origin) (p : Nat) : Statement (.haulTsPop o p) := fun _ _ e => nomatch e
theorem pixelFrameReceive (p : Nat) (frame : List Byte) (err : Bool) : Statement (.pixelFrameReceive p frame err) := fun _ _ e => nomatch e
theorem ingCloseExpire (p : Nat) : Statement (.ingCloseExpire p) := fun _ _ e => nomatch e
theorem pixelLinkLoss (p : Nat) : Statement (.pixelLinkLoss p) := fun _ _ e => nomatch e
theorem laneSignalChange (n : Nat) (up : Bool) : Statement (.laneSignalChange n up) := fun _ _ e => nomatch e
theorem laneSyncLoss (n : Nat) : Statement (.laneSyncLoss n) := fun _ _ e => nomatch e
theorem laneCalStart (n : Nat) : Statement (.laneCalStart n) := fun _ _ e => nomatch e
theorem laneCalDone (n : Nat) (peak ofs : Nat) : Statement (.laneCalDone n peak ofs) := fun _ _ e => nomatch e
theorem laneCfgWrite (o : Origin) (n : Nat) (rx : Bool) (w : Word) : Statement (.laneCfgWrite o n rx w) := fun _ _ e => nomatch e
theorem calSchedule (n : Nat) : Statement (.calSchedule n) := fun _ _ e => nomatch e
theorem sensorCal (k : Nat) : Statement (.sensorCal k) := fun _ _ e => nomatch e
theorem ddrRequestGrant (c : Nat) : Statement (.ddrRequestGrant c) := fun _ _ e => nomatch e
theorem ddrTransferComplete (c : Nat) (e : EccResult) : Statement (.ddrTransferComplete c e) := fun _ _ e => nomatch e
theorem arbWatchdogExpire (c : Nat) : Statement (.arbWatchdogExpire c) := fun _ _ e => nomatch e
theorem arbMaxwaitRead (o : Origin) (c r : Nat) : Statement (.arbMaxwaitRead o c r) := fun _ _ e => nomatch e
theorem ddrRefreshDue (c : Nat) : Statement (.ddrRefreshDue c) := fun _ _ e => nomatch e
theorem ddrPageIdleExpire (c : Nat) (bank : Nat) : Statement (.ddrPageIdleExpire c bank) := fun _ _ e => nomatch e
theorem ddrTempPoll (c : Nat) (hot : Bool) : Statement (.ddrTempPoll c hot) := fun _ _ e => nomatch e
theorem ddrScrubRead (c : Nat) (e : EccResult) : Statement (.ddrScrubRead c e) := fun _ _ e => nomatch e
theorem ddrWriteCrcAlert (c : Nat) (sub : Nat) (back : Nat) : Statement (.ddrWriteCrcAlert c sub back) := fun _ _ e => nomatch e
theorem ddrDriftCheck (c : Nat) (drift : Nat) : Statement (.ddrDriftCheck c drift) := fun _ _ e => nomatch e
theorem ddrRetrainStart (c : Nat) : Statement (.ddrRetrainStart c) := fun _ _ e => nomatch e
theorem ddrRetrainDone (c : Nat) (sweep : List LaneSweep) : Statement (.ddrRetrainDone c sweep) := fun _ _ e => nomatch e
theorem ddrTrainStart (o : Origin) (c : Nat) (w : Word) : Statement (.ddrTrainStart o c w) := fun _ _ e => nomatch e
theorem ddrTrainingDone (c : Nat) (sweep : List LaneSweep) : Statement (.ddrTrainingDone c sweep) := fun _ _ e => nomatch e
theorem ddrFillStart (o : Origin) (c : Nat) (w : Word) : Statement (.ddrFillStart o c w) := fun _ _ e => nomatch e
theorem ddrFillDone (c : Nat) : Statement (.ddrFillDone c) := fun _ _ e => nomatch e
theorem ddrLogClear (o : Origin) (w : Word) : Statement (.ddrLogClear o w) := fun _ _ e => nomatch e
theorem ddrConfigLock (o : Origin) (c : Nat) (w : Word) : Statement (.ddrConfigLock o c w) := fun _ _ e => nomatch e
theorem intcClaim (o : Origin) (t : Nat) (fell : Bool) : Statement (.intcClaim o t fell) := fun _ _ e => nomatch e
theorem intcClaimS (o : Origin) (fell : Bool) : Statement (.intcClaimS o fell) := fun _ _ e => nomatch e
theorem intcComplete (o : Origin) (t : Nat) (w : Word) : Statement (.intcComplete o t w) := fun _ _ e => nomatch e
theorem intcCompleteS (o : Origin) (w : Word) : Statement (.intcCompleteS o w) := fun _ _ e => nomatch e
theorem intcRouteWrite (o : Origin) (n : Nat) (w : Word) : Statement (.intcRouteWrite o n w) := fun _ _ e => nomatch e
theorem intcRouteApply (n : Nat) : Statement (.intcRouteApply n) := fun _ _ e => nomatch e
theorem intcSwSet (o : Origin) (hi : Bool) (w : Word) : Statement (.intcSwSet o hi w) := fun _ _ e => nomatch e
theorem intcSwClr (o : Origin) (hi : Bool) (w : Word) : Statement (.intcSwClr o hi w) := fun _ _ e => nomatch e
theorem wakeLatchSet (n : Nat) : Statement (.wakeLatchSet n) := fun _ _ e => nomatch e
theorem graceExpire (f : Nat) : Statement (.graceExpire f) := fun _ _ e => nomatch e
theorem fltSrcAck (o : Origin) (f : Nat) (w : Word) : Statement (.fltSrcAck o f w) := fun _ _ e => nomatch e
theorem fltSafeRelease (o : Origin) (hi : Bool) (w : Word) : Statement (.fltSafeRelease o hi w) := fun _ _ e => nomatch e
theorem kick (o : Origin) (w : Word) : Statement (.kick o w) := fun _ _ e => nomatch e
theorem fwWatchdogExpire : Statement (.fwWatchdogExpire) := fun _ _ e => nomatch e
theorem corePllUnlock : Statement (.corePllUnlock) := fun _ _ e => nomatch e
theorem lanePllUnlock (q : Nat) : Statement (.lanePllUnlock q) := fun _ _ e => nomatch e
theorem thermHigh (k : Nat) (tj : Int) : Statement (.thermHigh k tj) := fun _ _ e => nomatch e
theorem thermTrip (k : Nat) (tj : Int) : Statement (.thermTrip k tj) := fun _ _ e => nomatch e
theorem railFault (k : Nat) : Statement (.railFault k) := fun _ _ e => nomatch e
theorem shedStageEnter (mv : Nat) : Statement (.shedStageEnter mv) := fun _ _ e => nomatch e
theorem shedStageLift (mv : Nat) : Statement (.shedStageLift mv) := fun _ _ e => nomatch e
theorem avsStep (tjMax : Int) : Statement (.avsStep tjMax) := fun _ _ e => nomatch e
theorem pmbusReadback (mv : Nat) : Statement (.pmbusReadback mv) := fun _ _ e => nomatch e
theorem tbStep (o : Origin) (w : Word) : Statement (.tbStep o w) := fun _ _ e => nomatch e
theorem tbTrimWrite (o : Origin) (w : Word) : Statement (.tbTrimWrite o w) := fun _ _ e => nomatch e
theorem ptpSyncProcess (offset : Int) (gm : Bool) (trim : Word) : Statement (.ptpSyncProcess offset gm trim) := fun _ _ e => nomatch e
theorem timerExpire (n : Nat) : Statement (.timerExpire n) := fun _ _ e => nomatch e
theorem tmrCmpWrite (o : Origin) (n : Nat) (w : Word) : Statement (.tmrCmpWrite o n w) := fun _ _ e => nomatch e
theorem tmrOverrunRead (o : Origin) (n : Nat) : Statement (.tmrOverrunRead o n) := fun _ _ e => nomatch e
theorem bpmMinFreeRead (o : Origin) : Statement (.bpmMinFreeRead o) := fun _ _ e => nomatch e
theorem pwrVminRead (o : Origin) : Statement (.pwrVminRead o) := fun _ _ e => nomatch e
theorem standbyGate : Statement (.standbyGate) := fun _ _ e => nomatch e
theorem wakeTimerExpire : Statement (.wakeTimerExpire) := fun _ _ e => nomatch e
theorem wake : Statement (.wake) := fun _ _ e => nomatch e
theorem tamperTrip (i : Nat) : Statement (.tamperTrip i) := fun _ _ e => nomatch e
theorem spdWipe (o : Origin) (w : Word) : Statement (.spdWipe o w) := fun _ _ e => nomatch e
theorem spdWipeDone : Statement (.spdWipeDone) := fun _ _ e => nomatch e
theorem blockWorldLock (o : Origin) (w : Word) : Statement (.blockWorldLock o w) := fun _ _ e => nomatch e
theorem regionLock (o : Origin) (r : Nat) (w : Word) : Statement (.regionLock o r w) := fun _ _ e => nomatch e
theorem laneSyncAcquire (n : Nat) : Statement (.laneSyncAcquire n) := fun _ _ e => nomatch e
theorem pixelLinkUp (p : Nat) : Statement (.pixelLinkUp p) := fun _ _ e => nomatch e
theorem farSyncReturn (n : Nat) : Statement (.farSyncReturn n) := fun _ _ e => nomatch e
theorem lanePllLock (q : Nat) : Statement (.lanePllLock q) := fun _ _ e => nomatch e
theorem debugPortReset : Statement (.debugPortReset) := fun _ _ e => nomatch e
theorem gpioChange (k : Nat) (high : Bool) : Statement (.gpioChange k high) := fun _ _ e => nomatch e
theorem prbsLock (n : Nat) (errs : Nat) : Statement (.prbsLock n errs) := fun _ _ e => nomatch e
theorem codeErr (n : Nat) (k : CodeErrKind) : Statement (.codeErr n k) := fun _ _ e => nomatch e

end Sys2Proof.Laws.Wf
end

