-- ==== Sys2Proof/Laws/RunOps.lean ====
section
/-! SUPPORT. The commands and operations of Machine/Ops.lean that write a memory: what they keep. -/

set_option Elab.async false

namespace Sys2Proof.Machine

theorem State.serve_keeps {v0 : Stores} (s : State) (m op : Nat) (lenOk : Nat → Bool) (act : State → State) (ha : ∀ t, Keeps v0 t.stores → Keeps v0 (act t).stores) (hk : Keeps v0 s.stores) : Keeps v0 (s.serve m op lenOk act).stores := by
  unfold State.serve; (repeat' split) <;> first | with_reducible exact hk | with_reducible exact ha s hk | (simp; exact hk)

end Sys2Proof.Machine
end

