-- ==== Sys2Proof/Laws/RunMemOps.lean ====
section
/-! SUPPORT. The commands and operations of Machine/MemOps.lean that write a memory: what they keep. -/

set_option Elab.async false

namespace Sys2Proof.Machine

theorem State.putFor_keeps {v0 : Stores} (s : State) (q a : Nat) (bs : List Byte) (secure : Bool) (hk : Keeps v0 s.stores) : Keeps v0 (State.putFor s q a bs secure).stores := by
  unfold State.putFor; repeat' (first | with_reducible assumption | with_reducible (first | apply Keeps.putDram | exact Keeps.refl _) | with_reducible (refine Keeps.ite (fun _ => ?_) (fun _ => ?_)) | with_reducible (refine Keeps.chainAll _ _ (fun _ _ _ => ?_) ?_) | with_reducible (refine Keeps.foldl _ _ (fun _ _ _ => ?_) ?_) | with_reducible (refine Keeps.elim _ _ ?_ (fun _ => ?_)) | simp | split)

end Sys2Proof.Machine
end

