-- ==== Sys2Proof/Laws/RunBoot.lean ====
section
/-! SUPPORT. The commands and operations of Machine/Boot.lean that write a memory: what they keep. -/

set_option Elab.async false

namespace Sys2Proof.Machine

theorem State.blowLock_keeps {v0 : Stores} (s : State) (k : Nat) (hk : Keeps v0 s.stores) : Keeps v0 (State.blowLock s k).stores := by
  unfold State.blowLock; repeat' (first | with_reducible assumption | with_reducible (first | apply Keeps.blow | exact Keeps.refl _) | with_reducible (refine Keeps.ite (fun _ => ?_) (fun _ => ?_)) | with_reducible (refine Keeps.chainAll _ _ (fun _ _ _ => ?_) ?_) | simp | split)

theorem State.repairLc_keeps {v0 : Stores} (s : State) (hk : Keeps v0 s.stores) : Keeps v0 (State.repairLc s).stores := by
  unfold State.repairLc; repeat' (first | with_reducible assumption | with_reducible (first | apply Keeps.blow | exact Keeps.refl _) | with_reducible (refine Keeps.ite (fun _ => ?_) (fun _ => ?_)) | with_reducible (refine Keeps.chainAll _ _ (fun _ _ _ => ?_) ?_) | simp | split)

theorem State.programLc_keeps {v0 : Stores} (s : State) (n : Nat) (hk : Keeps v0 s.stores) : Keeps v0 (State.programLc s n).stores := by
  unfold State.programLc; repeat' (first | with_reducible assumption | with_reducible (first | apply Keeps.blow | exact Keeps.refl _) | with_reducible (refine Keeps.ite (fun _ => ?_) (fun _ => ?_)) | with_reducible (refine Keeps.chainAll _ _ (fun _ _ _ => ?_) ?_) | simp | split)

theorem State.raiseRollback_keeps {v0 : Stores} (s : State) (v : Nat) (hk : Keeps v0 s.stores) : Keeps v0 (State.raiseRollback s v).stores := by
  unfold State.raiseRollback; repeat' (first | with_reducible assumption | with_reducible (first | apply Keeps.blow | exact Keeps.refl _) | with_reducible (refine Keeps.ite (fun _ => ?_) (fun _ => ?_)) | with_reducible (refine Keeps.chainAll _ _ (fun _ _ _ => ?_) ?_) | simp | split)

@[simp] theorem State.coreReset_stores (s : State) : s.coreReset.stores = s.stores := by
  unfold State.coreReset; simp only [State.loadOtp_stores]; rfl

theorem State.chipReset_keeps {v0 : Stores} (s : State) (hk : Keeps v0 s.stores) : Keeps v0 (State.chipReset s).stores := by
  unfold State.chipReset; repeat' (first | with_reducible assumption | with_reducible (first | apply State.coreReset_keeps | exact Keeps.refl _) | with_reducible (refine Keeps.ite (fun _ => ?_) (fun _ => ?_)) | with_reducible (refine Keeps.chainAll _ _ (fun _ _ _ => ?_) ?_) | simp | split)

theorem State.powerOn_keeps {v0 : Stores} (s : State) (hk : Keeps v0 s.stores) : Keeps v0 s.powerOn.stores := by
  unfold State.powerOn; rw [State.loadOtp_stores]; exact hk.trans ⟨rfl, fun _ => rfl, id, id, blownStays_refl _⟩

theorem State.writeDir_keeps {v0 : Stores} (s : State) (d : Directory) (hk : Keeps v0 s.stores) : Keeps v0 (State.writeDir s d).stores := by
  unfold State.writeDir; repeat' (first | with_reducible assumption | with_reducible (first | apply Keeps.erase | apply Keeps.program | exact Keeps.refl _) | with_reducible (refine Keeps.ite (fun _ => ?_) (fun _ => ?_)) | with_reducible (refine Keeps.chainAll _ _ (fun _ _ _ => ?_) ?_) | simp | split)

theorem State.bootDir_keeps {v0 : Stores} (s : State) (d : Option Directory) (hk : Keeps v0 s.stores) : Keeps v0 (State.bootDir s d).stores := by
  unfold State.bootDir; repeat' (first | with_reducible assumption | with_reducible (first | apply State.writeDir_keeps | exact Keeps.refl _) | with_reducible (refine Keeps.ite (fun _ => ?_) (fun _ => ?_)) | with_reducible (refine Keeps.chainAll _ _ (fun _ _ _ => ?_) ?_) | with_reducible (refine Keeps.foldl _ _ (fun _ _ _ => ?_) ?_) | with_reducible (refine Keeps.elim _ _ ?_ (fun _ => ?_)) | simp | split)

theorem State.romDone_keeps {v0 : Stores} (s : State) (hk : Keeps v0 s.stores) : Keeps v0 (State.romDone s).stores := by
  unfold State.romDone; repeat' (first | with_reducible assumption | with_reducible (first | apply State.bootDir_keeps | apply State.repairLc_keeps | exact Keeps.refl _) | with_reducible (refine Keeps.ite (fun _ => ?_) (fun _ => ?_)) | with_reducible (refine Keeps.chainAll _ _ (fun _ _ _ => ?_) ?_) | with_reducible (refine Keeps.foldl _ _ (fun _ _ _ => ?_) ?_) | with_reducible (refine Keeps.elim _ _ ?_ (fun _ => ?_)) | simp | split)

theorem State.writeRecord_keeps {v0 : Stores} (s : State) (hk : Keeps v0 s.stores) : Keeps v0 (State.writeRecord s).stores := by
  unfold State.writeRecord; repeat' (first | with_reducible assumption | with_reducible (first | apply State.putFor_keeps | exact Keeps.refl _) | with_reducible (refine Keeps.ite (fun _ => ?_) (fun _ => ?_)) | with_reducible (refine Keeps.chainAll _ _ (fun _ _ _ => ?_) ?_) | with_reducible (refine Keeps.foldl _ _ (fun _ _ _ => ?_) ?_) | with_reducible (refine Keeps.elim _ _ ?_ (fun _ => ?_)) | simp | split)

theorem State.enterHandover_keeps {v0 : Stores} (s : State) (hk : Keeps v0 s.stores) : Keeps v0 (State.enterHandover s).stores := by
  unfold State.enterHandover; repeat' (first | with_reducible assumption | with_reducible (first | apply State.writeRecord_keeps | exact Keeps.refl _) | with_reducible (refine Keeps.ite (fun _ => ?_) (fun _ => ?_)) | with_reducible (refine Keeps.chainAll _ _ (fun _ _ _ => ?_) ?_) | with_reducible (refine Keeps.foldl _ _ (fun _ _ _ => ?_) ?_) | with_reducible (refine Keeps.elim _ _ ?_ (fun _ => ?_)) | simp | split)

end Sys2Proof.Machine
end

