-- ==== Sys2Proof/Laws/RunQueues.lean ====
section
/-! SUPPORT. The commands and operations of Machine/Queues.lean that write a memory: what they keep. -/

set_option Elab.async false

namespace Sys2Proof.Machine

theorem State.putRing_keeps {v0 : Stores} (s : State) (q base n o : Nat) (bs : List Byte) (hk : Keeps v0 s.stores) : Keeps v0 (State.putRing s q base n o bs).stores := by
  unfold State.putRing; repeat' (first | with_reducible assumption | with_reducible (first | apply State.putFor_keeps | exact Keeps.refl _) | with_reducible (refine Keeps.ite (fun _ => ?_) (fun _ => ?_)) | with_reducible (refine Keeps.chainAll _ _ (fun _ _ _ => ?_) ?_) | with_reducible (refine Keeps.foldl _ _ (fun _ _ _ => ?_) ?_) | with_reducible (refine Keeps.elim _ _ ?_ (fun _ => ?_)) | simp | split)

theorem State.settle_keeps {v0 : Stores} (s : State) (q : Nat) (hk : Keeps v0 s.stores) : Keeps v0 (State.settle s q).stores := by
  unfold State.settle; repeat' (first | with_reducible assumption | with_reducible (first | apply State.putRing_keeps | exact Keeps.refl _) | with_reducible (refine Keeps.ite (fun _ => ?_) (fun _ => ?_)) | with_reducible (refine Keeps.chainAll _ _ (fun _ _ _ => ?_) ?_) | simp | split)

theorem State.recordDrop_keeps {v0 : Stores} (s : State) (q n : Nat) (hk : Keeps v0 s.stores) : Keeps v0 (State.recordDrop s q n).stores := by
  unfold State.recordDrop; repeat' (first | with_reducible assumption | with_reducible (first | apply State.settle_keeps | exact Keeps.refl _) | with_reducible (refine Keeps.ite (fun _ => ?_) (fun _ => ?_)) | with_reducible (refine Keeps.chainAll _ _ (fun _ _ _ => ?_) ?_) | simp | split)

theorem State.enterCleft_keeps {v0 : Stores} (s : State) (q : Nat) (hk : Keeps v0 s.stores) : Keeps v0 (State.enterCleft s q).stores := by
  unfold State.enterCleft; repeat' (first | with_reducible assumption | with_reducible (first | apply State.settle_keeps | exact Keeps.refl _) | with_reducible (refine Keeps.ite (fun _ => ?_) (fun _ => ?_)) | with_reducible (refine Keeps.chainAll _ _ (fun _ _ _ => ?_) ?_) | simp | split)

theorem State.squeeze_keeps {v0 : Stores} (s : State) (q : Nat) (i : Item) (fuel : Nat) (hk : Keeps v0 s.stores) : Keeps v0 (s.squeeze q i fuel).stores := by
  induction fuel generalizing s with
  | zero => unfold State.squeeze; dsimp only; split; (· apply State.settle_keeps; simpa using hk); (· simpa using hk)
  | succ n ih =>
    unfold State.squeeze; dsimp only; split
    · apply State.settle_keeps; simpa using hk
    · cases (s.queue q).overwrite with
      | none => simpa using hk
      | some k => exact ih _ (by simpa using hk)

theorem State.offer_keeps {v0 : Stores} (s : State) (q : Nat) (i : Item) (hk : Keeps v0 s.stores) : Keeps v0 (State.offer s q i).stores := by
  unfold State.offer; repeat' (first | with_reducible assumption | with_reducible (first | apply State.recordDrop_keeps | apply State.settle_keeps | apply State.squeeze_keeps | exact Keeps.refl _) | with_reducible (refine Keeps.ite (fun _ => ?_) (fun _ => ?_)) | with_reducible (refine Keeps.chainAll _ _ (fun _ _ _ => ?_) ?_) | with_reducible (refine Keeps.foldl _ _ (fun _ _ _ => ?_) ?_) | with_reducible (refine Keeps.elim _ _ ?_ (fun _ => ?_)) | simp | split)

theorem State.endRead_keeps {v0 : Stores} (s : State) (q : Nat) (hk : Keeps v0 s.stores) : Keeps v0 (State.endRead s q).stores := by
  unfold State.endRead; repeat' (first | with_reducible assumption | with_reducible (first | apply State.settle_keeps | exact Keeps.refl _) | with_reducible (refine Keeps.ite (fun _ => ?_) (fun _ => ?_)) | with_reducible (refine Keeps.chainAll _ _ (fun _ _ _ => ?_) ?_) | simp | split)

theorem State.beginRead_keeps {v0 : Stores} (s : State) (q : Nat) (hk : Keeps v0 s.stores) : Keeps v0 (State.beginRead s q).stores := by
  unfold State.beginRead; repeat' (first | with_reducible assumption | with_reducible (first | apply State.endRead_keeps | exact Keeps.refl _) | with_reducible (refine Keeps.ite (fun _ => ?_) (fun _ => ?_)) | with_reducible (refine Keeps.chainAll _ _ (fun _ _ _ => ?_) ?_) | simp | split)

theorem State.poisonAt_keeps {v0 : Stores} (s : State) (q o : Nat) (hk : Keeps v0 s.stores) : Keeps v0 (State.poisonAt s q o).stores := by
  unfold State.poisonAt; repeat' (first | with_reducible assumption | with_reducible (first | apply State.settle_keeps | exact Keeps.refl _) | with_reducible (refine Keeps.ite (fun _ => ?_) (fun _ => ?_)) | with_reducible (refine Keeps.chainAll _ _ (fun _ _ _ => ?_) ?_) | simp | split)

theorem State.readMeets_keeps {v0 : Stores} (s : State) (q : Nat) (e : SramRead) (hk : Keeps v0 s.stores) : Keeps v0 (State.readMeets s q e).stores := by
  unfold State.readMeets; repeat' (first | with_reducible assumption | with_reducible (first | apply State.poisonAt_keeps | exact Keeps.refl _) | with_reducible (refine Keeps.ite (fun _ => ?_) (fun _ => ?_)) | with_reducible (refine Keeps.chainAll _ _ (fun _ _ _ => ?_) ?_) | with_reducible (refine Keeps.foldl _ _ (fun _ _ _ => ?_) ?_) | with_reducible (refine Keeps.elim _ _ ?_ (fun _ => ?_)) | simp | split)

theorem State.refill_keeps {v0 : Stores} (s : State) (q : Nat) (bad : Bool) (hk : Keeps v0 s.stores) : Keeps v0 (State.refill s q bad).stores := by
  unfold State.refill; repeat' (first | with_reducible assumption | with_reducible (first | apply State.poisonAt_keeps | apply State.settle_keeps | exact Keeps.refl _) | with_reducible (refine Keeps.ite (fun _ => ?_) (fun _ => ?_)) | with_reducible (refine Keeps.chainAll _ _ (fun _ _ _ => ?_) ?_) | simp | split)

theorem State.cacheOut_keeps {v0 : Stores} (s : State) (hk : Keeps v0 s.stores) : Keeps v0 (State.cacheOut s).stores := by
  unfold State.cacheOut; repeat' (first | with_reducible assumption | with_reducible (first | apply State.putFor_keeps | exact Keeps.refl _) | with_reducible (refine Keeps.ite (fun _ => ?_) (fun _ => ?_)) | with_reducible (refine Keeps.chainAll _ _ (fun _ _ _ => ?_) ?_) | with_reducible (refine Keeps.foldl _ _ (fun _ _ _ => ?_) ?_) | with_reducible (refine Keeps.elim _ _ ?_ (fun _ => ?_)) | simp | split)

theorem State.returnDram_keeps {v0 : Stores} (s : State) (b : Nat) (hk : Keeps v0 s.stores) : Keeps v0 (State.returnDram s b).stores := by
  unfold State.returnDram; repeat' (first | with_reducible assumption | with_reducible (first | apply State.cacheOut_keeps | exact Keeps.refl _) | with_reducible (refine Keeps.ite (fun _ => ?_) (fun _ => ?_)) | with_reducible (refine Keeps.chainAll _ _ (fun _ _ _ => ?_) ?_) | with_reducible (refine Keeps.foldl _ _ (fun _ _ _ => ?_) ?_) | with_reducible (refine Keeps.elim _ _ ?_ (fun _ => ?_)) | simp | split)

theorem State.writeChain_keeps {v0 : Stores} (s : State) (p : Packet) (hk : Keeps v0 s.stores) : Keeps v0 (State.writeChain s p).stores := by
  unfold State.writeChain; repeat' (first | with_reducible assumption | with_reducible (first | apply State.putFor_keeps | exact Keeps.refl _) | with_reducible (refine Keeps.ite (fun _ => ?_) (fun _ => ?_)) | with_reducible (refine Keeps.chainAll _ _ (fun _ _ _ => ?_) ?_) | with_reducible (refine Keeps.foldl _ _ (fun _ _ _ => ?_) ?_) | with_reducible (refine Keeps.elim _ _ ?_ (fun _ => ?_)) | simp | split)

theorem State.allocPacket_keeps {v0 : Stores} (s : State) (p : Packet) (bytes : Nat) (strict : Bool) (b : Nat) (t : State) (h : s.allocPacket p bytes strict = some (b, t)) (hk : Keeps v0 s.stores) : Keeps v0 t.stores := by
  unfold State.allocPacket at h
  split at h
  · cases h
  split at h
  · cases h
  rename_i bs u hu
  simp only [Option.some.injEq, Prod.mk.injEq] at h
  obtain ⟨-, rfl⟩ := h
  apply State.writeChain_keeps
  rw [State.withPool_stores, State.takeBuffers_stores s _ strict _ hu] <;> first | exact hk | (intro w; rfl)

theorem State.setRef_keeps {v0 : Stores} (s : State) (b : Nat) (p : Packet) (hk : Keeps v0 s.stores) : Keeps v0 (State.setRef s b p).stores := by
  unfold State.setRef; repeat' (first | with_reducible assumption | with_reducible (first | apply State.putFor_keeps | exact Keeps.refl _) | with_reducible (refine Keeps.ite (fun _ => ?_) (fun _ => ?_)) | with_reducible (refine Keeps.chainAll _ _ (fun _ _ _ => ?_) ?_) | with_reducible (refine Keeps.foldl _ _ (fun _ _ _ => ?_) ?_) | with_reducible (refine Keeps.elim _ _ ?_ (fun _ => ?_)) | simp | split)

theorem State.freeChain_keeps {v0 : Stores} (s : State) (b : Nat) (hk : Keeps v0 s.stores) : Keeps v0 (State.freeChain s b).stores := by
  unfold State.freeChain; repeat' (first | with_reducible assumption | with_reducible (first | apply State.returnDram_keeps | exact Keeps.refl _) | with_reducible (refine Keeps.ite (fun _ => ?_) (fun _ => ?_)) | with_reducible (refine Keeps.chainAll _ _ (fun _ _ _ => ?_) ?_) | with_reducible (refine Keeps.foldl _ _ (fun _ _ _ => ?_) ?_) | with_reducible (refine Keeps.elim _ _ ?_ (fun _ => ?_)) | simp | split)

theorem State.release_keeps {v0 : Stores} (s : State) (b : Nat) (hk : Keeps v0 s.stores) : Keeps v0 (State.release s b).stores := by
  unfold State.release; repeat' (first | with_reducible assumption | with_reducible (first | apply State.freeChain_keeps | apply State.setRef_keeps | exact Keeps.refl _) | with_reducible (refine Keeps.ite (fun _ => ?_) (fun _ => ?_)) | with_reducible (refine Keeps.chainAll _ _ (fun _ _ _ => ?_) ?_) | with_reducible (refine Keeps.foldl _ _ (fun _ _ _ => ?_) ?_) | with_reducible (refine Keeps.elim _ _ ?_ (fun _ => ?_)) | simp | split)

theorem State.bufferAlloc_keeps {v0 : Stores} (s : State) (r : Requester) (frame : List Byte) (strict : Bool) (hk : Keeps v0 s.stores) : Keeps v0 (State.bufferAlloc s r frame strict).stores := by
  unfold State.bufferAlloc; repeat' (first | with_reducible assumption | with_reducible (first | (refine State.allocPacket_keeps _ _ _ _ _ _ ‹_› ?_) | exact Keeps.refl _) | with_reducible (refine Keeps.ite (fun _ => ?_) (fun _ => ?_)) | with_reducible (refine Keeps.chainAll _ _ (fun _ _ _ => ?_) ?_) | with_reducible (refine Keeps.foldl _ _ (fun _ _ _ => ?_) ?_) | with_reducible (refine Keeps.elim _ _ ?_ (fun _ => ?_)) | simp | split)

theorem State.cacheRefill_keeps {v0 : Stores} (s : State) (hk : Keeps v0 s.stores) : Keeps v0 (State.cacheRefill s).stores := by
  unfold State.cacheRefill; repeat' (first | with_reducible assumption | with_reducible (first | apply State.cacheOut_keeps | exact Keeps.refl _) | with_reducible (refine Keeps.ite (fun _ => ?_) (fun _ => ?_)) | with_reducible (refine Keeps.chainAll _ _ (fun _ _ _ => ?_) ?_) | with_reducible (refine Keeps.foldl _ _ (fun _ _ _ => ?_) ?_) | with_reducible (refine Keeps.elim _ _ ?_ (fun _ => ?_)) | simp | split)

end Sys2Proof.Machine
end

