-- ==== Sys2Proof/Laws/RunStored.lean ====
section
/-! SUPPORT. The commands and operations of Machine/Stored.lean that write a memory: what they keep. -/

set_option Elab.async false

namespace Sys2Proof.Machine

theorem State.storeOne_keeps {v0 : Stores} (s : State) (base depth colour blocks k : Nat) (b : BlockOut) (hk : Keeps v0 s.stores) : Keeps v0 (State.storeOne s base depth colour blocks k b).stores := by
  unfold State.storeOne; repeat' (first | with_reducible assumption | with_reducible (first | apply State.putFor_keeps | exact Keeps.refl _) | with_reducible (refine Keeps.ite (fun _ => ?_) (fun _ => ?_)) | with_reducible (refine Keeps.chainAll _ _ (fun _ _ _ => ?_) ?_) | with_reducible (refine Keeps.foldl _ _ (fun _ _ _ => ?_) ?_) | with_reducible (refine Keeps.elim _ _ ?_ (fun _ => ?_)) | simp | split)

end Sys2Proof.Machine
end

