-- ==== Sys2Proof/Laws/RunBands.lean ====
section
/-! SUPPORT. The commands and operations of Machine/Bands.lean that write a memory: what they keep. -/

set_option Elab.async false

namespace Sys2Proof.Machine

theorem State.queueBand_keeps {v0 : Stores} (s : State) (n : Nat) (b : Band) (hk : Keeps v0 s.stores) : Keeps v0 (State.queueBand s n b).stores := by
  unfold State.queueBand; repeat' (first | with_reducible assumption | with_reducible (first | apply Keeps.erase | exact Keeps.refl _) | with_reducible (refine Keeps.ite (fun _ => ?_) (fun _ => ?_)) | with_reducible (refine Keeps.chainAll _ _ (fun _ _ _ => ?_) ?_) | simp | split)

theorem State.signalSlice_keeps {v0 : Stores} (s : State) (b : Band) (hk : Keeps v0 s.stores) : Keeps v0 (State.signalSlice s b).stores := by
  unfold State.signalSlice; repeat' (first | with_reducible assumption | with_reducible (first | apply State.queueBand_keeps | exact Keeps.refl _) | with_reducible (refine Keeps.ite (fun _ => ?_) (fun _ => ?_)) | with_reducible (refine Keeps.chainAll _ _ (fun _ _ _ => ?_) ?_) | with_reducible (refine Keeps.foldl _ _ (fun _ _ _ => ?_) ?_) | with_reducible (refine Keeps.elim _ _ ?_ (fun _ => ?_)) | simp | split)

end Sys2Proof.Machine
end

