-- ==== Sys2Proof/Laws/RunUnits.lean ====
section
/-! SUPPORT. The commands and operations of Machine/Units.lean that write a memory: what they keep. -/

set_option Elab.async false

namespace Sys2Proof.Machine

theorem State.deliver_keeps {v0 : Stores} (s : State) (c h : Nat) (hk : Keeps v0 s.stores) : Keeps v0 (State.deliver s c h).stores := by
  unfold State.deliver; repeat' (first | with_reducible assumption | with_reducible (first | apply State.beginRead_keeps | apply State.endRead_keeps | exact Keeps.refl _) | with_reducible (refine Keeps.ite (fun _ => ?_) (fun _ => ?_)) | with_reducible (refine Keeps.chainAll _ _ (fun _ _ _ => ?_) ?_) | with_reducible (refine Keeps.foldl _ _ (fun _ _ _ => ?_) ?_) | with_reducible (refine Keeps.elim _ _ ?_ (fun _ => ?_)) | simp | split)

theorem State.absorb_keeps {v0 : Stores} (s : State) (c : Nat) (b : Back) (hk : Keeps v0 s.stores) : Keeps v0 (State.absorb s c b).stores := by
  unfold State.absorb; repeat' (first | with_reducible assumption | with_reducible (first | apply State.beginRead_keeps | exact Keeps.refl _) | with_reducible (refine Keeps.ite (fun _ => ?_) (fun _ => ?_)) | with_reducible (refine Keeps.chainAll _ _ (fun _ _ _ => ?_) ?_) | with_reducible (refine Keeps.foldl _ _ (fun _ _ _ => ?_) ?_) | with_reducible (refine Keeps.elim _ _ ?_ (fun _ => ?_)) | simp | split)

theorem State.discardFront_keeps {v0 : Stores} (s : State) (c : Nat) (hk : Keeps v0 s.stores) : Keeps v0 (State.discardFront s c).stores := by
  unfold State.discardFront; repeat' (first | with_reducible assumption | with_reducible (first | apply State.absorb_keeps | apply State.beginRead_keeps | apply State.endRead_keeps | exact Keeps.refl _) | with_reducible (refine Keeps.ite (fun _ => ?_) (fun _ => ?_)) | with_reducible (refine Keeps.chainAll _ _ (fun _ _ _ => ?_) ?_) | with_reducible (refine Keeps.foldl _ _ (fun _ _ _ => ?_) ?_) | with_reducible (refine Keeps.elim _ _ ?_ (fun _ => ?_)) | simp | split)

theorem State.sliceDone_keeps {v0 : Stores} (s : State) (c i : Nat) (concealed : Bool) (hk : Keeps v0 s.stores) : Keeps v0 (State.sliceDone s c i concealed).stores := by
  unfold State.sliceDone; repeat' (first | with_reducible assumption | with_reducible (first | apply State.signalSlice_keeps | exact Keeps.refl _) | with_reducible (refine Keeps.ite (fun _ => ?_) (fun _ => ?_)) | with_reducible (refine Keeps.chainAll _ _ (fun _ _ _ => ?_) ?_) | simp | split)

theorem execReceptionTimeout_keeps (c : Nat) (s : State) (out : State) (hx : execReceptionTimeout c s = .next out) : Keeps s.stores out.stores := by
  unfold execReceptionTimeout onInstance at hx; split at hx
  · (injection hx with hx; subst hx); repeat' (first | with_reducible assumption | with_reducible (first | exact Keeps.refl _) | with_reducible (refine Keeps.ite (fun _ => ?_) (fun _ => ?_)) | with_reducible (refine Keeps.chainAll _ _ (fun _ _ _ => ?_) ?_) | simp | split)
  · cases hx

end Sys2Proof.Machine
end

