-- ==== Sys2Proof/Laws/RunSched.lean ====
section
/-! SUPPORT. The commands and operations of Machine/Sched.lean that write a memory: what they keep. -/

set_option Elab.async false

namespace Sys2Proof.Machine

theorem State.writeStream_keeps {v0 : Stores} (s : State) (c stamp picture : Nat) (hk : Keeps v0 s.stores) : Keeps v0 (State.writeStream s c stamp picture).stores := by
  unfold State.writeStream; repeat' (first | with_reducible assumption | with_reducible (first | apply State.offer_keeps | exact Keeps.refl _) | with_reducible (refine Keeps.ite (fun _ => ?_) (fun _ => ?_)) | with_reducible (refine Keeps.chainAll _ _ (fun _ _ _ => ?_) ?_) | with_reducible (refine Keeps.foldl _ _ (fun _ _ _ => ?_) ?_) | with_reducible (refine Keeps.elim _ _ ?_ (fun _ => ?_)) | simp | split)

theorem State.startPicture_keeps {v0 : Stores} (s : State) (r : Ready) (hk : Keeps v0 s.stores) : Keeps v0 (State.startPicture s r).stores := by
  unfold State.startPicture; repeat' (first | with_reducible assumption | with_reducible (first | apply State.writeStream_keeps | exact Keeps.refl _) | with_reducible (refine Keeps.ite (fun _ => ?_) (fun _ => ?_)) | with_reducible (refine Keeps.chainAll _ _ (fun _ _ _ => ?_) ?_) | with_reducible (refine Keeps.foldl _ _ (fun _ _ _ => ?_) ?_) | with_reducible (refine Keeps.elim _ _ ?_ (fun _ => ?_)) | simp | split)

theorem State.startSlice_keeps {v0 : Stores} (s : State) (h : Nat) (r : Ready) (hk : Keeps v0 s.stores) : Keeps v0 (State.startSlice s h r).stores := by
  unfold State.startSlice; repeat' (first | with_reducible assumption | with_reducible (first | apply Keeps.erase | apply State.startPicture_keeps | exact Keeps.refl _) | with_reducible (refine Keeps.ite (fun _ => ?_) (fun _ => ?_)) | with_reducible (refine Keeps.chainAll _ _ (fun _ _ _ => ?_) ?_) | with_reducible (refine Keeps.foldl _ _ (fun _ _ _ => ?_) ?_) | with_reducible (refine Keeps.elim _ _ ?_ (fun _ => ?_)) | simp | split)

theorem State.dispatch_keeps {v0 : Stores} (s : State) (h : Nat) (hk : Keeps v0 s.stores) : Keeps v0 (State.dispatch s h).stores := by
  unfold State.dispatch; repeat' (first | with_reducible assumption | with_reducible (first | apply State.startSlice_keeps | exact Keeps.refl _) | with_reducible (refine Keeps.ite (fun _ => ?_) (fun _ => ?_)) | with_reducible (refine Keeps.chainAll _ _ (fun _ _ _ => ?_) ?_) | with_reducible (refine Keeps.foldl _ _ (fun _ _ _ => ?_) ?_) | with_reducible (refine Keeps.elim _ _ ?_ (fun _ => ?_)) | simp | split)

theorem execSliceDispatch_keeps (h : Nat) (s : State) (out : State) (hx : execSliceDispatch h s = .next out) : Keeps s.stores out.stores := by
  unfold execSliceDispatch onInstance at hx; split at hx
  · (injection hx with hx; subst hx); repeat' (first | with_reducible assumption | with_reducible (first | apply State.dispatch_keeps | exact Keeps.refl _) | with_reducible (refine Keeps.ite (fun _ => ?_) (fun _ => ?_)) | with_reducible (refine Keeps.chainAll _ _ (fun _ _ _ => ?_) ?_) | with_reducible (refine Keeps.foldl _ _ (fun _ _ _ => ?_) ?_) | with_reducible (refine Keeps.elim _ _ ?_ (fun _ => ?_)) | simp | split)
  · cases hx

theorem execBedrockUnitDispatch_keeps (h : Nat) (s : State) (out : State) (hx : execBedrockUnitDispatch h s = .next out) : Keeps s.stores out.stores := by
  unfold execBedrockUnitDispatch onInstance at hx; split at hx
  · (injection hx with hx; subst hx); repeat' (first | with_reducible assumption | with_reducible (first | exact Keeps.refl _) | with_reducible (refine Keeps.ite (fun _ => ?_) (fun _ => ?_)) | with_reducible (refine Keeps.chainAll _ _ (fun _ _ _ => ?_) ?_) | with_reducible (refine Keeps.foldl _ _ (fun _ _ _ => ?_) ?_) | with_reducible (refine Keeps.elim _ _ ?_ (fun _ => ?_)) | simp | split)
  · cases hx

theorem State.flushItems_keeps {v0 : Stores} (s : State) (h n : Nat) (hk : Keeps v0 s.stores) : Keeps v0 (s.flushItems h n).stores := by
  induction n generalizing s with
  | zero => exact hk
  | succ k ih =>
    unfold State.flushItems; dsimp only
    split
    · exact hk
    split
    · exact hk
    · refine ih _ ?_
      rw [State.setHewer_stores]
      exact State.offer_keeps _ _ _ hk

theorem State.flush_keeps {v0 : Stores} (s : State) (h : Nat) (hk : Keeps v0 s.stores) : Keeps v0 (State.flush s h).stores := by
  unfold State.flush; repeat' (first | with_reducible assumption | with_reducible (first | apply State.flushItems_keeps | exact Keeps.refl _) | with_reducible (refine Keeps.ite (fun _ => ?_) (fun _ => ?_)) | with_reducible (refine Keeps.chainAll _ _ (fun _ _ _ => ?_) ?_) | with_reducible (refine Keeps.foldl _ _ (fun _ _ _ => ?_) ?_) | with_reducible (refine Keeps.elim _ _ ?_ (fun _ => ?_)) | simp | split)

theorem State.storeBlocks_keeps {v0 : Stores} (s : State) (c base : Nat) (r : Run) (hk : Keeps v0 s.stores) : Keeps v0 (State.storeBlocks s c base r).stores := by
  unfold State.storeBlocks; repeat' (first | with_reducible assumption | with_reducible (first | apply State.storeOne_keeps | exact Keeps.refl _) | with_reducible (refine Keeps.ite (fun _ => ?_) (fun _ => ?_)) | with_reducible (refine Keeps.chainAll _ _ (fun _ _ _ => ?_) ?_) | with_reducible (refine Keeps.foldl _ _ (fun _ _ _ => ?_) ?_) | with_reducible (refine Keeps.elim _ _ ?_ (fun _ => ?_)) | simp | split)

theorem State.joinBuild_keeps {v0 : Stores} (s : State) (c k : Nat) (r : Run) (hk : Keeps v0 s.stores) : Keeps v0 (State.joinBuild s c k r).1.stores := by
  unfold State.joinBuild; repeat' (first | with_reducible assumption | with_reducible (first | apply State.storeBlocks_keeps | exact Keeps.refl _) | with_reducible (refine Keeps.ite (fun _ => ?_) (fun _ => ?_)) | with_reducible (refine Keeps.chainAll _ _ (fun _ _ _ => ?_) ?_) | with_reducible (refine Keeps.foldl _ _ (fun _ _ _ => ?_) ?_) | with_reducible (refine Keeps.elim _ _ ?_ (fun _ => ?_)) | simp | split)

theorem State.bedReceived_keeps {v0 : Stores} (s : State) (c : Nat) (r : Run) (d : BedHdr) (hk : Keeps v0 s.stores) : Keeps v0 (State.bedReceived s c r d).stores := by
  unfold State.bedReceived; repeat' (first | with_reducible assumption | with_reducible (first | apply State.joinBuild_keeps | exact Keeps.refl _) | with_reducible (refine Keeps.ite (fun _ => ?_) (fun _ => ?_)) | with_reducible (refine Keeps.chainAll _ _ (fun _ _ _ => ?_) ?_) | with_reducible (refine Keeps.foldl _ _ (fun _ _ _ => ?_) ?_) | with_reducible (refine Keeps.elim _ _ ?_ (fun _ => ?_)) | simp | split)

theorem State.bedSent_keeps {v0 : Stores} (s : State) (c : Nat) (r : Run) (d : BedHdr) (bytes : Nat) (hk : Keeps v0 s.stores) : Keeps v0 (State.bedSent s c r d bytes).stores := by
  unfold State.bedSent; repeat' (first | with_reducible assumption | with_reducible (first | apply State.joinBuild_keeps | exact Keeps.refl _) | with_reducible (refine Keeps.ite (fun _ => ?_) (fun _ => ?_)) | with_reducible (refine Keeps.chainAll _ _ (fun _ _ _ => ?_) ?_) | with_reducible (refine Keeps.foldl _ _ (fun _ _ _ => ?_) ?_) | with_reducible (refine Keeps.elim _ _ ?_ (fun _ => ?_)) | simp | split)

theorem State.finishSlice_keeps {v0 : Stores} (s : State) (c : Nat) (r : Run) (hk : Keeps v0 s.stores) : Keeps v0 (State.finishSlice s c r).stores := by
  unfold State.finishSlice; repeat' (first | with_reducible assumption | with_reducible (first | apply State.sliceDone_keeps | apply State.storeBlocks_keeps | exact Keeps.refl _) | with_reducible (refine Keeps.ite (fun _ => ?_) (fun _ => ?_)) | with_reducible (refine Keeps.chainAll _ _ (fun _ _ _ => ?_) ?_) | with_reducible (refine Keeps.foldl _ _ (fun _ _ _ => ?_) ?_) | with_reducible (refine Keeps.elim _ _ ?_ (fun _ => ?_)) | simp | split)

theorem State.finishBed_keeps {v0 : Stores} (s : State) (c : Nat) (r : Run) (hk : Keeps v0 s.stores) : Keeps v0 (State.finishBed s c r).stores := by
  unfold State.finishBed; repeat' (first | with_reducible assumption | with_reducible (first | apply State.bedReceived_keeps | apply State.bedSent_keeps | exact Keeps.refl _) | with_reducible (refine Keeps.ite (fun _ => ?_) (fun _ => ?_)) | with_reducible (refine Keeps.chainAll _ _ (fun _ _ _ => ?_) ?_) | with_reducible (refine Keeps.foldl _ _ (fun _ _ _ => ?_) ?_) | with_reducible (refine Keeps.elim _ _ ?_ (fun _ => ?_)) | simp | split)

theorem State.sliceComplete_keeps {v0 : Stores} (s : State) (h : Nat) (hk : Keeps v0 s.stores) : Keeps v0 (State.sliceComplete s h).stores := by
  unfold State.sliceComplete; repeat' (first | with_reducible assumption | with_reducible (first | apply State.finishBed_keeps | apply State.finishSlice_keeps | apply State.flush_keeps | exact Keeps.refl _) | with_reducible (refine Keeps.ite (fun _ => ?_) (fun _ => ?_)) | with_reducible (refine Keeps.chainAll _ _ (fun _ _ _ => ?_) ?_) | with_reducible (refine Keeps.foldl _ _ (fun _ _ _ => ?_) ?_) | with_reducible (refine Keeps.elim _ _ ?_ (fun _ => ?_)) | simp | split)

theorem execSliceComplete_keeps (h : Nat) (s : State) (out : State) (hx : execSliceComplete h s = .next out) : Keeps s.stores out.stores := by
  unfold execSliceComplete onInstance at hx; split at hx
  · (injection hx with hx; subst hx); repeat' (first | with_reducible assumption | with_reducible (first | apply State.sliceComplete_keeps | exact Keeps.refl _) | with_reducible (refine Keeps.ite (fun _ => ?_) (fun _ => ?_)) | with_reducible (refine Keeps.chainAll _ _ (fun _ _ _ => ?_) ?_) | with_reducible (refine Keeps.foldl _ _ (fun _ _ _ => ?_) ?_) | with_reducible (refine Keeps.elim _ _ ?_ (fun _ => ?_)) | simp | split)
  · cases hx

theorem State.redoSlice_keeps {v0 : Stores} (s : State) (c : Nat) (r : Run) (hk : Keeps v0 s.stores) : Keeps v0 (State.redoSlice s c r).stores := by
  unfold State.redoSlice; repeat' (first | with_reducible assumption | with_reducible (first | apply State.settle_keeps | exact Keeps.refl _) | with_reducible (refine Keeps.ite (fun _ => ?_) (fun _ => ?_)) | with_reducible (refine Keeps.chainAll _ _ (fun _ _ _ => ?_) ?_) | with_reducible (refine Keeps.foldl _ _ (fun _ _ _ => ?_) ?_) | with_reducible (refine Keeps.elim _ _ ?_ (fun _ => ?_)) | simp | split)

theorem State.hewerFault_keeps {v0 : Stores} (s : State) (h : Nat) (F' : Fld) (fsid cls addr : Nat) (hk : Keeps v0 s.stores) : Keeps v0 (State.hewerFault s h F' fsid cls addr).stores := by
  unfold State.hewerFault; repeat' (first | with_reducible assumption | with_reducible (first | apply State.redoSlice_keeps | exact Keeps.refl _) | with_reducible (refine Keeps.ite (fun _ => ?_) (fun _ => ?_)) | with_reducible (refine Keeps.chainAll _ _ (fun _ _ _ => ?_) ?_) | with_reducible (refine Keeps.foldl _ _ (fun _ _ _ => ?_) ?_) | with_reducible (refine Keeps.elim _ _ ?_ (fun _ => ?_)) | simp | split)

end Sys2Proof.Machine
end

