-- ==== Sys2Proof/Laws/RunEncode.lean ====
section
/-! SUPPORT. The commands and operations of Machine/Encode.lean that write a memory: what they keep. -/

set_option Elab.async false

namespace Sys2Proof.Machine

theorem State.joinBlock_keeps {v0 : Stores} (s : State) (h : Nat) (r : Run) (bits : List Bool) (rice : List RiceCtx) (b : BlockElems) (o : BlockOut) (hk : Keeps v0 s.stores) : Keeps v0 (State.joinBlock s h r bits rice b o).stores := by
  unfold State.joinBlock; repeat' (first | with_reducible assumption | with_reducible (first | apply State.flush_keeps | exact Keeps.refl _) | with_reducible (refine Keeps.ite (fun _ => ?_) (fun _ => ?_)) | with_reducible (refine Keeps.chainAll _ _ (fun _ _ _ => ?_) ?_) | with_reducible (refine Keeps.foldl _ _ (fun _ _ _ => ?_) ?_) | with_reducible (refine Keeps.elim _ _ ?_ (fun _ => ?_)) | simp | split)

theorem State.encodeWork_keeps {v0 : Stores} (s : State) (h : Nat) (b : BlockElems) (hk : Keeps v0 s.stores) : Keeps v0 (State.encodeWork s h b).stores := by
  unfold State.encodeWork; repeat' (first | with_reducible assumption | with_reducible (first | apply State.joinBlock_keeps | exact Keeps.refl _) | with_reducible (refine Keeps.ite (fun _ => ?_) (fun _ => ?_)) | with_reducible (refine Keeps.chainAll _ _ (fun _ _ _ => ?_) ?_) | with_reducible (refine Keeps.foldl _ _ (fun _ _ _ => ?_) ?_) | with_reducible (refine Keeps.elim _ _ ?_ (fun _ => ?_)) | simp | split)

theorem State.finishWork_keeps {v0 : Stores} (s : State) (h : Nat) (hk : Keeps v0 s.stores) : Keeps v0 (State.finishWork s h).stores := by
  unfold State.finishWork; repeat' (first | with_reducible assumption | with_reducible (first | apply State.flush_keeps | exact Keeps.refl _) | with_reducible (refine Keeps.ite (fun _ => ?_) (fun _ => ?_)) | with_reducible (refine Keeps.chainAll _ _ (fun _ _ _ => ?_) ?_) | with_reducible (refine Keeps.foldl _ _ (fun _ _ _ => ?_) ?_) | with_reducible (refine Keeps.elim _ _ ?_ (fun _ => ?_)) | simp | split)

end Sys2Proof.Machine
end

