-- ==== Sys2Proof/Laws/RunTraffic.lean ====
section
/-! SUPPORT. The commands and operations of Machine/Traffic.lean that write a memory: what they keep. -/

set_option Elab.async false

namespace Sys2Proof.Machine

theorem State.tailDrop_keeps {v0 : Stores} (s : State) (p k buf : Nat) (hk : Keeps v0 s.stores) : Keeps v0 (State.tailDrop s p k buf).stores := by
  unfold State.tailDrop; repeat' (first | with_reducible assumption | with_reducible (first | apply State.release_keeps | exact Keeps.refl _) | with_reducible (refine Keeps.ite (fun _ => ?_) (fun _ => ?_)) | with_reducible (refine Keeps.chainAll _ _ (fun _ _ _ => ?_) ?_) | with_reducible (refine Keeps.foldl _ _ (fun _ _ _ => ?_) ?_) | with_reducible (refine Keeps.elim _ _ ?_ (fun _ => ?_)) | simp | split)

theorem State.enqueueCopy_keeps {v0 : Stores} (s : State) (p q : Nat) (c : Copy) (hk : Keeps v0 s.stores) : Keeps v0 (State.enqueueCopy s p q c).stores := by
  unfold State.enqueueCopy; repeat' (first | with_reducible assumption | with_reducible (first | apply State.tailDrop_keeps | exact Keeps.refl _) | with_reducible (refine Keeps.ite (fun _ => ?_) (fun _ => ?_)) | with_reducible (refine Keeps.chainAll _ _ (fun _ _ _ => ?_) ?_) | with_reducible (refine Keeps.foldl _ _ (fun _ _ _ => ?_) ?_) | with_reducible (refine Keeps.elim _ _ ?_ (fun _ => ?_)) | simp | split)

end Sys2Proof.Machine
end

