-- ==== Sys2Proof/Laws/RunClassify.lean ====
section
/-! SUPPORT. The commands and operations of Machine/Classify.lean that write a memory: what they keep. -/

set_option Elab.async false

namespace Sys2Proof.Machine

theorem State.place_keeps {v0 : Stores} (s : State) (b : Nat) (h : Parsed) (a q inport arrival : Nat) (mk : Nat → List Byte) (hk : Keeps v0 s.stores) : Keeps v0 (State.place s b h a q inport arrival mk).stores := by
  unfold State.place; repeat' (first | with_reducible assumption | with_reducible (first | apply State.enqueueCopy_keeps | apply State.release_keeps | exact Keeps.refl _) | with_reducible (refine Keeps.ite (fun _ => ?_) (fun _ => ?_)) | with_reducible (refine Keeps.chainAll _ _ (fun _ _ _ => ?_) ?_) | with_reducible (refine Keeps.foldl _ _ (fun _ _ _ => ?_) ?_) | with_reducible (refine Keeps.elim _ _ ?_ (fun _ => ?_)) | simp | split)

theorem State.forward_keeps {v0 : Stores} (s : State) (b : Nat) (h : Parsed) (a p inport arrival : Nat) (f : List Byte) (hk : Keeps v0 s.stores) : Keeps v0 (State.forward s b h a p inport arrival f).stores := by
  unfold State.forward; repeat' (first | with_reducible assumption | with_reducible (first | apply State.place_keeps | exact Keeps.refl _) | with_reducible (refine Keeps.ite (fun _ => ?_) (fun _ => ?_)) | with_reducible (refine Keeps.chainAll _ _ (fun _ _ _ => ?_) ?_) | with_reducible (refine Keeps.foldl _ _ (fun _ _ _ => ?_) ?_) | with_reducible (refine Keeps.elim _ _ ?_ (fun _ => ?_)) | simp | split)

end Sys2Proof.Machine
end

