-- ==== Sys2Proof/Laws/RunMailbox.lean ====
section
/-! SUPPORT. The commands and operations of Machine/Mailbox.lean that write a memory: what they keep. -/

set_option Elab.async false

namespace Sys2Proof.Machine

theorem execGetInfo_keeps (m : Nat) (s : State) (out : State) (hx : execGetInfo m s = .next out) : Keeps s.stores out.stores := by
  unfold execGetInfo onMailbox onInstance at hx; split at hx
  · (injection hx with hx; subst hx); repeat' (first | with_reducible assumption | with_reducible (first | exact Keeps.refl _) | with_reducible (refine Keeps.ite (fun _ => ?_) (fun _ => ?_)) | with_reducible (refine Keeps.chainAll _ _ (fun _ _ _ => ?_) ?_) | simp | split)
  · cases hx

theorem execJobStatus_keeps (m : Nat) (s : State) (out : State) (hx : execJobStatus m s = .next out) : Keeps s.stores out.stores := by
  unfold execJobStatus onMailbox onInstance at hx; split at hx
  · (injection hx with hx; subst hx); repeat' (first | with_reducible assumption | with_reducible (first | exact Keeps.refl _) | with_reducible (refine Keeps.ite (fun _ => ?_) (fun _ => ?_)) | with_reducible (refine Keeps.chainAll _ _ (fun _ _ _ => ?_) ?_) | simp | split)
  · cases hx

theorem State.fwStage_keeps {v0 : Stores} (s : State) (m : Nat) (hk : Keeps v0 s.stores) : Keeps v0 (State.fwStage s m).stores := by
  unfold State.fwStage; repeat' (first | with_reducible assumption | with_reducible (first | apply Keeps.erase | apply Keeps.program | (refine State.serve_keeps _ _ _ _ _ (fun _ _ => ?_) ?_) | exact Keeps.refl _) | with_reducible (refine Keeps.ite (fun _ => ?_) (fun _ => ?_)) | with_reducible (refine Keeps.chainAll _ _ (fun _ _ _ => ?_) ?_) | with_reducible (refine Keeps.foldl _ _ (fun _ _ _ => ?_) ?_) | with_reducible (refine Keeps.elim _ _ ?_ (fun _ => ?_)) | simp | split)

theorem execFwStage_keeps (m : Nat) (s : State) (out : State) (hx : execFwStage m s = .next out) : Keeps s.stores out.stores := by
  unfold execFwStage onMailbox onInstance at hx; split at hx
  · (injection hx with hx; subst hx); repeat' (first | with_reducible assumption | with_reducible (first | apply State.fwStage_keeps | exact Keeps.refl _) | with_reducible (refine Keeps.ite (fun _ => ?_) (fun _ => ?_)) | with_reducible (refine Keeps.chainAll _ _ (fun _ _ _ => ?_) ?_) | with_reducible (refine Keeps.foldl _ _ (fun _ _ _ => ?_) ?_) | with_reducible (refine Keeps.elim _ _ ?_ (fun _ => ?_)) | simp | split)
  · cases hx

theorem execFwVerify_keeps (m : Nat) (s : State) (out : State) (hx : execFwVerify m s = .next out) : Keeps s.stores out.stores := by
  unfold execFwVerify onMailbox onInstance at hx; split at hx
  · (injection hx with hx; subst hx); repeat' (first | with_reducible assumption | with_reducible (first | exact Keeps.refl _) | with_reducible (refine Keeps.ite (fun _ => ?_) (fun _ => ?_)) | with_reducible (refine Keeps.chainAll _ _ (fun _ _ _ => ?_) ?_) | simp | split)
  · cases hx

theorem State.fwActivate_keeps {v0 : Stores} (s : State) (m : Nat) (hk : Keeps v0 s.stores) : Keeps v0 (State.fwActivate s m).stores := by
  unfold State.fwActivate; repeat' (first | with_reducible assumption | with_reducible (first | apply State.enterHandover_keeps | (refine State.serve_keeps _ _ _ _ _ (fun _ _ => ?_) ?_) | apply State.writeDir_keeps | exact Keeps.refl _) | with_reducible (refine Keeps.ite (fun _ => ?_) (fun _ => ?_)) | with_reducible (refine Keeps.chainAll _ _ (fun _ _ _ => ?_) ?_) | with_reducible (refine Keeps.foldl _ _ (fun _ _ _ => ?_) ?_) | with_reducible (refine Keeps.elim _ _ ?_ (fun _ => ?_)) | simp | split)

theorem execFwActivate_keeps (m : Nat) (s : State) (out : State) (hx : execFwActivate m s = .next out) : Keeps s.stores out.stores := by
  unfold execFwActivate onMailbox onInstance at hx; split at hx
  · (injection hx with hx; subst hx); repeat' (first | with_reducible assumption | with_reducible (first | apply State.fwActivate_keeps | exact Keeps.refl _) | with_reducible (refine Keeps.ite (fun _ => ?_) (fun _ => ?_)) | with_reducible (refine Keeps.chainAll _ _ (fun _ _ _ => ?_) ?_) | with_reducible (refine Keeps.foldl _ _ (fun _ _ _ => ?_) ?_) | with_reducible (refine Keeps.elim _ _ ?_ (fun _ => ?_)) | simp | split)
  · cases hx

theorem State.fwConfirm_keeps {v0 : Stores} (s : State) (m : Nat) (hk : Keeps v0 s.stores) : Keeps v0 (State.fwConfirm s m).stores := by
  unfold State.fwConfirm; repeat' (first | with_reducible assumption | with_reducible (first | apply State.raiseRollback_keeps | (refine State.serve_keeps _ _ _ _ _ (fun _ _ => ?_) ?_) | apply State.writeDir_keeps | exact Keeps.refl _) | with_reducible (refine Keeps.ite (fun _ => ?_) (fun _ => ?_)) | with_reducible (refine Keeps.chainAll _ _ (fun _ _ _ => ?_) ?_) | with_reducible (refine Keeps.foldl _ _ (fun _ _ _ => ?_) ?_) | with_reducible (refine Keeps.elim _ _ ?_ (fun _ => ?_)) | simp | split)

theorem execFwConfirm_keeps (m : Nat) (s : State) (out : State) (hx : execFwConfirm m s = .next out) : Keeps s.stores out.stores := by
  unfold execFwConfirm onMailbox onInstance at hx; split at hx
  · (injection hx with hx; subst hx); repeat' (first | with_reducible assumption | with_reducible (first | apply State.fwConfirm_keeps | exact Keeps.refl _) | with_reducible (refine Keeps.ite (fun _ => ?_) (fun _ => ?_)) | with_reducible (refine Keeps.chainAll _ _ (fun _ _ _ => ?_) ?_) | with_reducible (refine Keeps.foldl _ _ (fun _ _ _ => ?_) ?_) | with_reducible (refine Keeps.elim _ _ ?_ (fun _ => ?_)) | simp | split)
  · cases hx

theorem State.confirmExpire_keeps {v0 : Stores} (s : State) (hk : Keeps v0 s.stores) : Keeps v0 (State.confirmExpire s).stores := by
  unfold State.confirmExpire; repeat' (first | with_reducible assumption | with_reducible (first | apply State.enterHandover_keeps | apply State.writeDir_keeps | exact Keeps.refl _) | with_reducible (refine Keeps.ite (fun _ => ?_) (fun _ => ?_)) | with_reducible (refine Keeps.chainAll _ _ (fun _ _ _ => ?_) ?_) | with_reducible (refine Keeps.foldl _ _ (fun _ _ _ => ?_) ?_) | with_reducible (refine Keeps.elim _ _ ?_ (fun _ => ?_)) | simp | split)

theorem execConfirmWindowExpire_keeps (s : State) (out : State) (hx : execConfirmWindowExpire s = .next out) : Keeps s.stores out.stores := by
  unfold execConfirmWindowExpire at hx; (repeat' split at hx) <;> (try contradiction) <;> cases hx <;> repeat' (first | with_reducible assumption | with_reducible (first | apply State.confirmExpire_keeps | exact Keeps.refl _) | with_reducible (refine Keeps.ite (fun _ => ?_) (fun _ => ?_)) | with_reducible (refine Keeps.chainAll _ _ (fun _ _ _ => ?_) ?_) | simp | split)

theorem execExpertChallenge_keeps (m : Nat) (s : State) (out : State) (hx : execExpertChallenge m s = .next out) : Keeps s.stores out.stores := by
  unfold execExpertChallenge onMailbox onInstance at hx; split at hx
  · (injection hx with hx; subst hx); repeat' (first | with_reducible assumption | with_reducible (first | exact Keeps.refl _) | with_reducible (refine Keeps.ite (fun _ => ?_) (fun _ => ?_)) | with_reducible (refine Keeps.chainAll _ _ (fun _ _ _ => ?_) ?_) | simp | split)
  · cases hx

theorem execExpertUnlock_keeps (m : Nat) (s : State) (out : State) (hx : execExpertUnlock m s = .next out) : Keeps s.stores out.stores := by
  unfold execExpertUnlock onMailbox onInstance at hx; split at hx
  · (injection hx with hx; subst hx); repeat' (first | with_reducible assumption | with_reducible (first | exact Keeps.refl _) | with_reducible (refine Keeps.ite (fun _ => ?_) (fun _ => ?_)) | with_reducible (refine Keeps.chainAll _ _ (fun _ _ _ => ?_) ?_) | simp | split)
  · cases hx

theorem execExpertLock_keeps (m : Nat) (s : State) (out : State) (hx : execExpertLock m s = .next out) : Keeps s.stores out.stores := by
  unfold execExpertLock onMailbox onInstance at hx; split at hx
  · (injection hx with hx; subst hx); repeat' (first | with_reducible assumption | with_reducible (first | exact Keeps.refl _) | with_reducible (refine Keeps.ite (fun _ => ?_) (fun _ => ?_)) | with_reducible (refine Keeps.chainAll _ _ (fun _ _ _ => ?_) ?_) | simp | split)
  · cases hx

theorem execRemoteSessionTimeout_keeps (s : State) (out : State) (hx : execRemoteSessionTimeout s = .next out) : Keeps s.stores out.stores := by
  unfold execRemoteSessionTimeout at hx; (repeat' split at hx) <;> (try contradiction) <;> cases hx <;> repeat' (first | with_reducible assumption | with_reducible (first | exact Keeps.refl _) | with_reducible (refine Keeps.ite (fun _ => ?_) (fun _ => ?_)) | with_reducible (refine Keeps.chainAll _ _ (fun _ _ _ => ?_) ?_) | simp | split)

theorem execRomInfo_keeps (m : Nat) (s : State) (out : State) (hx : execRomInfo m s = .next out) : Keeps s.stores out.stores := by
  unfold execRomInfo onMailbox onInstance at hx; split at hx
  · (injection hx with hx; subst hx); repeat' (first | with_reducible assumption | with_reducible (first | exact Keeps.refl _) | with_reducible (refine Keeps.ite (fun _ => ?_) (fun _ => ?_)) | with_reducible (refine Keeps.chainAll _ _ (fun _ _ _ => ?_) ?_) | simp | split)
  · cases hx

theorem State.recover_keeps {v0 : Stores} (s : State) (m op : Nat) (lenOk : Nat → Bool) (act : State → State) (ha : ∀ t, Keeps v0 t.stores → Keeps v0 (act t).stores) (hk : Keeps v0 s.stores) : Keeps v0 (s.recover m op lenOk act).stores := by
  unfold State.recover; (repeat' split) <;> first | with_reducible exact hk | with_reducible exact ha s hk | (simp; exact hk)

theorem execFlashRead_keeps (m : Nat) (s : State) (out : State) (hx : execFlashRead m s = .next out) : Keeps s.stores out.stores := by
  unfold execFlashRead onMailbox onInstance at hx; split at hx
  · (injection hx with hx; subst hx); repeat' (first | with_reducible assumption | with_reducible (first | exact Keeps.refl _) | with_reducible (refine Keeps.ite (fun _ => ?_) (fun _ => ?_)) | with_reducible (refine Keeps.chainAll _ _ (fun _ _ _ => ?_) ?_) | simp | split)
  · cases hx

theorem State.flashErase_keeps {v0 : Stores} (s : State) (m : Nat) (hk : Keeps v0 s.stores) : Keeps v0 (State.flashErase s m).stores := by
  unfold State.flashErase; repeat' (first | with_reducible assumption | with_reducible (first | apply Keeps.erase | (refine State.recover_keeps _ _ _ _ _ (fun _ _ => ?_) ?_) | exact Keeps.refl _) | with_reducible (refine Keeps.ite (fun _ => ?_) (fun _ => ?_)) | with_reducible (refine Keeps.chainAll _ _ (fun _ _ _ => ?_) ?_) | with_reducible (refine Keeps.foldl _ _ (fun _ _ _ => ?_) ?_) | with_reducible (refine Keeps.elim _ _ ?_ (fun _ => ?_)) | simp | split)

theorem execFlashErase_keeps (m : Nat) (s : State) (out : State) (hx : execFlashErase m s = .next out) : Keeps s.stores out.stores := by
  unfold execFlashErase onMailbox onInstance at hx; split at hx
  · (injection hx with hx; subst hx); repeat' (first | with_reducible assumption | with_reducible (first | apply State.flashErase_keeps | exact Keeps.refl _) | with_reducible (refine Keeps.ite (fun _ => ?_) (fun _ => ?_)) | with_reducible (refine Keeps.chainAll _ _ (fun _ _ _ => ?_) ?_) | with_reducible (refine Keeps.foldl _ _ (fun _ _ _ => ?_) ?_) | with_reducible (refine Keeps.elim _ _ ?_ (fun _ => ?_)) | simp | split)
  · cases hx

theorem State.flashWrite_keeps {v0 : Stores} (s : State) (m : Nat) (hk : Keeps v0 s.stores) : Keeps v0 (State.flashWrite s m).stores := by
  unfold State.flashWrite; repeat' (first | with_reducible assumption | with_reducible (first | apply Keeps.program | (refine State.recover_keeps _ _ _ _ _ (fun _ _ => ?_) ?_) | exact Keeps.refl _) | with_reducible (refine Keeps.ite (fun _ => ?_) (fun _ => ?_)) | with_reducible (refine Keeps.chainAll _ _ (fun _ _ _ => ?_) ?_) | with_reducible (refine Keeps.foldl _ _ (fun _ _ _ => ?_) ?_) | with_reducible (refine Keeps.elim _ _ ?_ (fun _ => ?_)) | simp | split)

theorem execFlashWrite_keeps (m : Nat) (s : State) (out : State) (hx : execFlashWrite m s = .next out) : Keeps s.stores out.stores := by
  unfold execFlashWrite onMailbox onInstance at hx; split at hx
  · (injection hx with hx; subst hx); repeat' (first | with_reducible assumption | with_reducible (first | apply State.flashWrite_keeps | exact Keeps.refl _) | with_reducible (refine Keeps.ite (fun _ => ?_) (fun _ => ?_)) | with_reducible (refine Keeps.chainAll _ _ (fun _ _ _ => ?_) ?_) | with_reducible (refine Keeps.foldl _ _ (fun _ _ _ => ?_) ?_) | with_reducible (refine Keeps.elim _ _ ?_ (fun _ => ?_)) | simp | split)
  · cases hx

theorem State.romReset_keeps {v0 : Stores} (s : State) (m : Nat) (hk : Keeps v0 s.stores) : Keeps v0 (State.romReset s m).stores := by
  unfold State.romReset; repeat' (first | with_reducible assumption | with_reducible (first | apply State.chipReset_keeps | exact Keeps.refl _) | with_reducible (refine Keeps.ite (fun _ => ?_) (fun _ => ?_)) | with_reducible (refine Keeps.chainAll _ _ (fun _ _ _ => ?_) ?_) | with_reducible (refine Keeps.foldl _ _ (fun _ _ _ => ?_) ?_) | with_reducible (refine Keeps.elim _ _ ?_ (fun _ => ?_)) | simp | split)

theorem execRomReset_keeps (m : Nat) (s : State) (out : State) (hx : execRomReset m s = .next out) : Keeps s.stores out.stores := by
  unfold execRomReset onMailbox onInstance at hx; split at hx
  · (injection hx with hx; subst hx); repeat' (first | with_reducible assumption | with_reducible (first | apply State.romReset_keeps | exact Keeps.refl _) | with_reducible (refine Keeps.ite (fun _ => ?_) (fun _ => ?_)) | with_reducible (refine Keeps.chainAll _ _ (fun _ _ _ => ?_) ?_) | with_reducible (refine Keeps.foldl _ _ (fun _ _ _ => ?_) ?_) | with_reducible (refine Keeps.elim _ _ ?_ (fun _ => ?_)) | simp | split)
  · cases hx

theorem execPowerOnReset_keeps (s : State) (out : State) (hx : execPowerOnReset s = .next out) : Keeps s.stores out.stores := by
  unfold execPowerOnReset at hx; (repeat' split at hx) <;> (try contradiction) <;> cases hx <;> repeat' (first | with_reducible assumption | with_reducible (first | apply State.powerOn_keeps | exact Keeps.refl _) | with_reducible (refine Keeps.ite (fun _ => ?_) (fun _ => ?_)) | with_reducible (refine Keeps.chainAll _ _ (fun _ _ _ => ?_) ?_) | simp | split)

theorem execResetN_keeps (s : State) (out : State) (hx : execResetN s = .next out) : Keeps s.stores out.stores := by
  unfold execResetN at hx; (injection hx with hx; subst hx); repeat' (first | with_reducible assumption | with_reducible (first | apply State.chipReset_keeps | exact Keeps.refl _) | with_reducible (refine Keeps.ite (fun _ => ?_) (fun _ => ?_)) | with_reducible (refine Keeps.chainAll _ _ (fun _ _ _ => ?_) ?_) | with_reducible (refine Keeps.foldl _ _ (fun _ _ _ => ?_) ?_) | with_reducible (refine Keeps.elim _ _ ?_ (fun _ => ?_)) | simp | split)

theorem execClearingDone_keeps (s : State) (out : State) (hx : execClearingDone s = .next out) : Keeps s.stores out.stores := by
  unfold execClearingDone at hx; (repeat' split at hx) <;> (try contradiction) <;> cases hx <;> repeat' (first | with_reducible assumption | with_reducible (first | exact Keeps.refl _) | with_reducible (refine Keeps.ite (fun _ => ?_) (fun _ => ?_)) | with_reducible (refine Keeps.chainAll _ _ (fun _ _ _ => ?_) ?_) | simp | split)

theorem State.romVerifyDone_keeps {v0 : Stores} (s : State) (hk : Keeps v0 s.stores) : Keeps v0 (State.romVerifyDone s).stores := by
  unfold State.romVerifyDone; repeat' (first | with_reducible assumption | with_reducible (first | apply State.romDone_keeps | exact Keeps.refl _) | with_reducible (refine Keeps.ite (fun _ => ?_) (fun _ => ?_)) | with_reducible (refine Keeps.chainAll _ _ (fun _ _ _ => ?_) ?_) | with_reducible (refine Keeps.foldl _ _ (fun _ _ _ => ?_) ?_) | with_reducible (refine Keeps.elim _ _ ?_ (fun _ => ?_)) | simp | split)

theorem execRomVerifyDone_keeps (s : State) (out : State) (hx : execRomVerifyDone s = .next out) : Keeps s.stores out.stores := by
  unfold execRomVerifyDone at hx; (injection hx with hx; subst hx); repeat' (first | with_reducible assumption | with_reducible (first | apply State.romVerifyDone_keeps | exact Keeps.refl _) | with_reducible (refine Keeps.ite (fun _ => ?_) (fun _ => ?_)) | with_reducible (refine Keeps.chainAll _ _ (fun _ _ _ => ?_) ?_) | with_reducible (refine Keeps.foldl _ _ (fun _ _ _ => ?_) ?_) | with_reducible (refine Keeps.elim _ _ ?_ (fun _ => ?_)) | simp | split)

theorem execFwReady_keeps (s : State) (out : State) (hx : execFwReady s = .next out) : Keeps s.stores out.stores := by
  unfold execFwReady at hx; (repeat' split at hx) <;> (try contradiction) <;> cases hx <;> repeat' (first | with_reducible assumption | with_reducible (first | exact Keeps.refl _) | with_reducible (refine Keeps.ite (fun _ => ?_) (fun _ => ?_)) | with_reducible (refine Keeps.chainAll _ _ (fun _ _ _ => ?_) ?_) | simp | split)

theorem execHeartbeatTick_keeps (k : CpxFault) (s : State) (out : State) (hx : execHeartbeatTick s k = .next out) : Keeps s.stores out.stores := by
  unfold execHeartbeatTick at hx; (injection hx with hx; subst hx); repeat' (first | with_reducible assumption | with_reducible (first | exact Keeps.refl _) | with_reducible (refine Keeps.ite (fun _ => ?_) (fun _ => ?_)) | with_reducible (refine Keeps.chainAll _ _ (fun _ _ _ => ?_) ?_) | with_reducible (refine Keeps.foldl _ _ (fun _ _ _ => ?_) ?_) | with_reducible (refine Keeps.elim _ _ ?_ (fun _ => ?_)) | simp | split)

theorem execSemLeaseExpire_keeps (n : Nat) (s : State) (out : State) (hx : execSemLeaseExpire n s = .next out) : Keeps s.stores out.stores := by
  unfold execSemLeaseExpire onInstance at hx; split at hx
  · (injection hx with hx; subst hx); repeat' (first | with_reducible assumption | with_reducible (first | exact Keeps.refl _) | with_reducible (refine Keeps.ite (fun _ => ?_) (fun _ => ?_)) | with_reducible (refine Keeps.chainAll _ _ (fun _ _ _ => ?_) ?_) | simp | split)
  · cases hx

theorem execPcieFunctionReset_keeps (f : Nat) (s : State) (out : State) (hx : execPcieFunctionReset f s = .next out) : Keeps s.stores out.stores := by
  unfold execPcieFunctionReset onInstance at hx; split at hx
  · (injection hx with hx; subst hx); repeat' (first | with_reducible assumption | with_reducible (first | exact Keeps.refl _) | with_reducible (refine Keeps.ite (fun _ => ?_) (fun _ => ?_)) | with_reducible (refine Keeps.chainAll _ _ (fun _ _ _ => ?_) ?_) | with_reducible (refine Keeps.foldl _ _ (fun _ _ _ => ?_) ?_) | with_reducible (refine Keeps.elim _ _ ?_ (fun _ => ?_)) | simp | split)
  · cases hx

theorem execPciePerst_keeps (s : State) (out : State) (hx : execPciePerst s = .next out) : Keeps s.stores out.stores := by
  unfold execPciePerst at hx; (injection hx with hx; subst hx); repeat' (first | with_reducible assumption | with_reducible (first | exact Keeps.refl _) | with_reducible (refine Keeps.ite (fun _ => ?_) (fun _ => ?_)) | with_reducible (refine Keeps.chainAll _ _ (fun _ _ _ => ?_) ?_) | with_reducible (refine Keeps.foldl _ _ (fun _ _ _ => ?_) ?_) | with_reducible (refine Keeps.elim _ _ ?_ (fun _ => ?_)) | simp | split)

theorem execPcieLinkStateChange_keeps (pm ltssm speed width : Nat) (s : State) (out : State) (hx : execPcieLinkStateChange pm ltssm speed width s = .next out) : Keeps s.stores out.stores := by
  unfold execPcieLinkStateChange at hx; (repeat' split at hx) <;> (try contradiction) <;> cases hx <;> repeat' (first | with_reducible assumption | with_reducible (first | exact Keeps.refl _) | with_reducible (refine Keeps.ite (fun _ => ?_) (fun _ => ?_)) | with_reducible (refine Keeps.chainAll _ _ (fun _ _ _ => ?_) ?_) | simp | split)

theorem execMsiUnmask_keeps (f v : Nat) (s : State) (out : State) (hx : execMsiUnmask f v s = .next out) : Keeps s.stores out.stores := by
  unfold execMsiUnmask onInstance at hx; split at hx
  · (injection hx with hx; subst hx); repeat' (first | with_reducible assumption | with_reducible (first | exact Keeps.refl _) | with_reducible (refine Keeps.ite (fun _ => ?_) (fun _ => ?_)) | with_reducible (refine Keeps.chainAll _ _ (fun _ _ _ => ?_) ?_) | simp | split)
  · cases hx

theorem execDebugPortReset_keeps (s : State) (out : State) (hx : execDebugPortReset s = .next out) : Keeps s.stores out.stores := by
  unfold execDebugPortReset at hx; (injection hx with hx; subst hx); repeat' (first | with_reducible assumption | with_reducible (first | exact Keeps.refl _) | with_reducible (refine Keeps.ite (fun _ => ?_) (fun _ => ?_)) | with_reducible (refine Keeps.chainAll _ _ (fun _ _ _ => ?_) ?_) | with_reducible (refine Keeps.foldl _ _ (fun _ _ _ => ?_) ?_) | with_reducible (refine Keeps.elim _ _ ?_ (fun _ => ?_)) | simp | split)

end Sys2Proof.Machine
end

