-- ==== Sys2Proof/Laws/RunFaults.lean ====
section
/-! SUPPORT. The commands and operations of Machine/Faults.lean that write a memory: what they keep. -/

set_option Elab.async false

namespace Sys2Proof.Machine

theorem execIntcRouteSet_keeps (m : Nat) (s : State) (out : State) (hx : execIntcRouteSet m s = .next out) : Keeps s.stores out.stores := by
  unfold execIntcRouteSet onMailbox onInstance at hx; split at hx
  · (injection hx with hx; subst hx); repeat' (first | with_reducible assumption | with_reducible (first | exact Keeps.refl _) | with_reducible (refine Keeps.ite (fun _ => ?_) (fun _ => ?_)) | with_reducible (refine Keeps.chainAll _ _ (fun _ _ _ => ?_) ?_) | simp | split)
  · cases hx

theorem execIntcRouteApply_keeps (n : Nat) (s : State) (out : State) (hx : execIntcRouteApply n s = .next out) : Keeps s.stores out.stores := by
  unfold execIntcRouteApply onInstance at hx; split at hx
  · (injection hx with hx; subst hx); repeat' (first | with_reducible assumption | with_reducible (first | exact Keeps.refl _) | with_reducible (refine Keeps.ite (fun _ => ?_) (fun _ => ?_)) | with_reducible (refine Keeps.chainAll _ _ (fun _ _ _ => ?_) ?_) | simp | split)
  · cases hx

theorem execWakeLatchSet_keeps (n : Nat) (s : State) (out : State) (hx : execWakeLatchSet n s = .next out) : Keeps s.stores out.stores := by
  unfold execWakeLatchSet onInstance at hx; split at hx
  · (injection hx with hx; subst hx); repeat' (first | with_reducible assumption | with_reducible (first | exact Keeps.refl _) | with_reducible (refine Keeps.ite (fun _ => ?_) (fun _ => ?_)) | with_reducible (refine Keeps.chainAll _ _ (fun _ _ _ => ?_) ?_) | simp | split)
  · cases hx

theorem execSafeStateSet_keeps (m : Nat) (s : State) (out : State) (hx : execSafeStateSet m s = .next out) : Keeps s.stores out.stores := by
  unfold execSafeStateSet onMailbox onInstance at hx; split at hx
  · (injection hx with hx; subst hx); repeat' (first | with_reducible assumption | with_reducible (first | exact Keeps.refl _) | with_reducible (refine Keeps.ite (fun _ => ?_) (fun _ => ?_)) | with_reducible (refine Keeps.chainAll _ _ (fun _ _ _ => ?_) ?_) | simp | split)
  · cases hx

theorem execFaultClear_keeps (m : Nat) (s : State) (out : State) (hx : execFaultClear m s = .next out) : Keeps s.stores out.stores := by
  unfold execFaultClear onMailbox onInstance at hx; split at hx
  · (injection hx with hx; subst hx); repeat' (first | with_reducible assumption | with_reducible (first | exact Keeps.refl _) | with_reducible (refine Keeps.ite (fun _ => ?_) (fun _ => ?_)) | with_reducible (refine Keeps.chainAll _ _ (fun _ _ _ => ?_) ?_) | simp | split)
  · cases hx

theorem execFaultReactionSet_keeps (m : Nat) (s : State) (out : State) (hx : execFaultReactionSet m s = .next out) : Keeps s.stores out.stores := by
  unfold execFaultReactionSet onMailbox onInstance at hx; split at hx
  · (injection hx with hx; subst hx); repeat' (first | with_reducible assumption | with_reducible (first | exact Keeps.refl _) | with_reducible (refine Keeps.ite (fun _ => ?_) (fun _ => ?_)) | with_reducible (refine Keeps.chainAll _ _ (fun _ _ _ => ?_) ?_) | simp | split)
  · cases hx

theorem execEventRead_keeps (m : Nat) (s : State) (out : State) (hx : execEventRead m s = .next out) : Keeps s.stores out.stores := by
  unfold execEventRead onMailbox onInstance at hx; split at hx
  · (injection hx with hx; subst hx); repeat' (first | with_reducible assumption | with_reducible (first | exact Keeps.refl _) | with_reducible (refine Keeps.ite (fun _ => ?_) (fun _ => ?_)) | with_reducible (refine Keeps.chainAll _ _ (fun _ _ _ => ?_) ?_) | simp | split)
  · cases hx

theorem execGraceExpire_keeps (f : Nat) (s : State) (out : State) (hx : execGraceExpire f s = .next out) : Keeps s.stores out.stores := by
  unfold execGraceExpire onInstance at hx; split at hx
  · (injection hx with hx; subst hx); repeat' (first | with_reducible assumption | with_reducible (first | exact Keeps.refl _) | with_reducible (refine Keeps.ite (fun _ => ?_) (fun _ => ?_)) | with_reducible (refine Keeps.chainAll _ _ (fun _ _ _ => ?_) ?_) | simp | split)
  · cases hx

theorem execFwWatchdogExpire_keeps (s : State) (out : State) (hx : execFwWatchdogExpire s = .next out) : Keeps s.stores out.stores := by
  unfold execFwWatchdogExpire at hx; (repeat' split at hx) <;> (try contradiction) <;> cases hx <;> repeat' (first | with_reducible assumption | with_reducible (first | exact Keeps.refl _) | with_reducible (refine Keeps.ite (fun _ => ?_) (fun _ => ?_)) | with_reducible (refine Keeps.chainAll _ _ (fun _ _ _ => ?_) ?_) | simp | split)

theorem execCorePllUnlock_keeps (s : State) (out : State) (hx : execCorePllUnlock s = .next out) : Keeps s.stores out.stores := by
  unfold execCorePllUnlock at hx; (repeat' split at hx) <;> (try contradiction) <;> cases hx <;> repeat' (first | with_reducible assumption | with_reducible (first | exact Keeps.refl _) | with_reducible (refine Keeps.ite (fun _ => ?_) (fun _ => ?_)) | with_reducible (refine Keeps.chainAll _ _ (fun _ _ _ => ?_) ?_) | simp | split)

theorem execLanePllUnlock_keeps (q : Nat) (s : State) (out : State) (hx : execLanePllUnlock q s = .next out) : Keeps s.stores out.stores := by
  unfold execLanePllUnlock onInstance at hx; split at hx
  · (injection hx with hx; subst hx); repeat' (first | with_reducible assumption | with_reducible (first | exact Keeps.refl _) | with_reducible (refine Keeps.ite (fun _ => ?_) (fun _ => ?_)) | with_reducible (refine Keeps.chainAll _ _ (fun _ _ _ => ?_) ?_) | simp | split)
  · cases hx

theorem execThermHigh_keeps (k : Nat) (tj : Int) (s : State) (out : State) (hx : execThermHigh k tj s = .next out) : Keeps s.stores out.stores := by
  unfold execThermHigh onInstance at hx; split at hx
  · (injection hx with hx; subst hx); repeat' (first | with_reducible assumption | with_reducible (first | exact Keeps.refl _) | with_reducible (refine Keeps.ite (fun _ => ?_) (fun _ => ?_)) | with_reducible (refine Keeps.chainAll _ _ (fun _ _ _ => ?_) ?_) | simp | split)
  · cases hx

theorem execThermTrip_keeps (k : Nat) (tj : Int) (s : State) (out : State) (hx : execThermTrip k tj s = .next out) : Keeps s.stores out.stores := by
  unfold execThermTrip onInstance at hx; split at hx
  · (injection hx with hx; subst hx); repeat' (first | with_reducible assumption | with_reducible (first | exact Keeps.refl _) | with_reducible (refine Keeps.ite (fun _ => ?_) (fun _ => ?_)) | with_reducible (refine Keeps.chainAll _ _ (fun _ _ _ => ?_) ?_) | simp | split)
  · cases hx

theorem execRailFault_keeps (k : Nat) (s : State) (out : State) (hx : execRailFault k s = .next out) : Keeps s.stores out.stores := by
  unfold execRailFault onInstance at hx; split at hx
  · (injection hx with hx; subst hx); repeat' (first | with_reducible assumption | with_reducible (first | exact Keeps.refl _) | with_reducible (refine Keeps.ite (fun _ => ?_) (fun _ => ?_)) | with_reducible (refine Keeps.chainAll _ _ (fun _ _ _ => ?_) ?_) | simp | split)
  · cases hx

end Sys2Proof.Machine
end

