-- ==== Sys2Proof/Laws/RunSecurity.lean ====
section
/-! SUPPORT. The commands and operations of Machine/Security.lean that write a memory: what they keep. -/

set_option Elab.async false

namespace Sys2Proof.Machine

theorem execSpdWipeDone_keeps (s : State) (out : State) (hx : execSpdWipeDone s = .next out) : Keeps s.stores out.stores := by
  unfold execSpdWipeDone at hx; (repeat' split at hx) <;> (try contradiction) <;> cases hx <;> repeat' (first | with_reducible assumption | with_reducible (first | exact Keeps.refl _) | with_reducible (refine Keeps.ite (fun _ => ?_) (fun _ => ?_)) | with_reducible (refine Keeps.chainAll _ _ (fun _ _ _ => ?_) ?_) | simp | split)

theorem execTamperTrip_keeps (i : Nat) (s : State) (out : State) (hx : execTamperTrip i s = .next out) : Keeps s.stores out.stores := by
  unfold execTamperTrip onInstance at hx; split at hx
  · (injection hx with hx; subst hx); repeat' (first | with_reducible assumption | with_reducible (first | exact Keeps.refl _) | with_reducible (refine Keeps.ite (fun _ => ?_) (fun _ => ?_)) | with_reducible (refine Keeps.chainAll _ _ (fun _ _ _ => ?_) ?_) | simp | split)
  · cases hx

theorem State.transition_keeps {v0 : Stores} (s : State) (m n : Nat) (hk : Keeps v0 s.stores) : Keeps v0 (State.transition s m n).stores := by
  unfold State.transition; repeat' (first | with_reducible assumption | with_reducible (first | apply State.chipReset_keeps | apply State.programLc_keeps | exact Keeps.refl _) | with_reducible (refine Keeps.ite (fun _ => ?_) (fun _ => ?_)) | with_reducible (refine Keeps.chainAll _ _ (fun _ _ _ => ?_) ?_) | with_reducible (refine Keeps.foldl _ _ (fun _ _ _ => ?_) ?_) | with_reducible (refine Keeps.elim _ _ ?_ (fun _ => ?_)) | simp | split)

theorem State.zeroSecure_keeps {v0 : Stores} (s : State) (hk : Keeps v0 s.stores) : Keeps v0 s.zeroSecure.stores := by
  unfold State.zeroSecure; rw [State.withMem_stores]; exact Keeps.filterDram _ hk

theorem State.retire_keeps {v0 : Stores} (s : State) (hk : Keeps v0 s.stores) : Keeps v0 (State.retire s).stores := by
  unfold State.retire; repeat' (first | with_reducible assumption | with_reducible (first | apply State.blowLock_keeps | apply State.zeroSecure_keeps | exact Keeps.refl _) | with_reducible (refine Keeps.ite (fun _ => ?_) (fun _ => ?_)) | with_reducible (refine Keeps.chainAll _ _ (fun _ _ _ => ?_) ?_) | simp | split)

theorem State.serveLc_keeps {v0 : Stores} (s : State) (m op : Nat) (lenOk : Nat → Bool) (act : State → State) (ha : ∀ t, Keeps v0 t.stores → Keeps v0 (act t).stores) (hk : Keeps v0 s.stores) : Keeps v0 (s.serveLc m op lenOk act).stores := by
  unfold State.serveLc; split
  · exact hk
  · exact State.serve_keeps s _ _ _ _ ha hk

theorem State.lcAdvance_keeps {v0 : Stores} (s : State) (m : Nat) (hk : Keeps v0 s.stores) : Keeps v0 (State.lcAdvance s m).stores := by
  unfold State.lcAdvance; repeat' (first | with_reducible assumption | with_reducible (first | apply State.retire_keeps | (refine State.serveLc_keeps _ _ _ _ _ (fun _ _ => ?_) ?_) | apply State.transition_keeps | exact Keeps.refl _) | with_reducible (refine Keeps.ite (fun _ => ?_) (fun _ => ?_)) | with_reducible (refine Keeps.chainAll _ _ (fun _ _ _ => ?_) ?_) | with_reducible (refine Keeps.foldl _ _ (fun _ _ _ => ?_) ?_) | with_reducible (refine Keeps.elim _ _ ?_ (fun _ => ?_)) | simp | split)

theorem execLcAdvance_keeps (m : Nat) (s : State) (out : State) (hx : execLcAdvance m s = .next out) : Keeps s.stores out.stores := by
  unfold execLcAdvance onMailbox onInstance at hx; split at hx
  · (injection hx with hx; subst hx); repeat' (first | with_reducible assumption | with_reducible (first | apply State.lcAdvance_keeps | exact Keeps.refl _) | with_reducible (refine Keeps.ite (fun _ => ?_) (fun _ => ?_)) | with_reducible (refine Keeps.chainAll _ _ (fun _ _ _ => ?_) ?_) | with_reducible (refine Keeps.foldl _ _ (fun _ _ _ => ?_) ?_) | with_reducible (refine Keeps.elim _ _ ?_ (fun _ => ?_)) | simp | split)
  · cases hx

theorem State.generateId_keeps {v0 : Stores} (s : State) (m : Nat) (hk : Keeps v0 s.stores) : Keeps v0 (State.generateId s m).stores := by
  unfold State.generateId; repeat' (first | with_reducible assumption | with_reducible (first | apply Keeps.blow | apply State.blowLock_keeps | (refine State.serveLc_keeps _ _ _ _ _ (fun _ _ => ?_) ?_) | exact Keeps.refl _) | with_reducible (refine Keeps.ite (fun _ => ?_) (fun _ => ?_)) | with_reducible (refine Keeps.chainAll _ _ (fun _ _ _ => ?_) ?_) | with_reducible (refine Keeps.foldl _ _ (fun _ _ _ => ?_) ?_) | with_reducible (refine Keeps.elim _ _ ?_ (fun _ => ?_)) | simp | split)

theorem execGenerateId_keeps (m : Nat) (s : State) (out : State) (hx : execGenerateId m s = .next out) : Keeps s.stores out.stores := by
  unfold execGenerateId onMailbox onInstance at hx; split at hx
  · (injection hx with hx; subst hx); repeat' (first | with_reducible assumption | with_reducible (first | apply State.generateId_keeps | exact Keeps.refl _) | with_reducible (refine Keeps.ite (fun _ => ?_) (fun _ => ?_)) | with_reducible (refine Keeps.chainAll _ _ (fun _ _ _ => ?_) ?_) | with_reducible (refine Keeps.foldl _ _ (fun _ _ _ => ?_) ?_) | with_reducible (refine Keeps.elim _ _ ?_ (fun _ => ?_)) | simp | split)
  · cases hx

theorem State.otpProgram_keeps {v0 : Stores} (s : State) (m : Nat) (hk : Keeps v0 s.stores) : Keeps v0 (State.otpProgram s m).stores := by
  unfold State.otpProgram; repeat' (first | with_reducible assumption | with_reducible (first | apply Keeps.blow | (refine State.serveLc_keeps _ _ _ _ _ (fun _ _ => ?_) ?_) | exact Keeps.refl _) | with_reducible (refine Keeps.ite (fun _ => ?_) (fun _ => ?_)) | with_reducible (refine Keeps.chainAll _ _ (fun _ _ _ => ?_) ?_) | with_reducible (refine Keeps.foldl _ _ (fun _ _ _ => ?_) ?_) | with_reducible (refine Keeps.elim _ _ ?_ (fun _ => ?_)) | simp | split)

theorem execOtpProgram_keeps (m : Nat) (s : State) (out : State) (hx : execOtpProgram m s = .next out) : Keeps s.stores out.stores := by
  unfold execOtpProgram onMailbox onInstance at hx; split at hx
  · (injection hx with hx; subst hx); repeat' (first | with_reducible assumption | with_reducible (first | apply State.otpProgram_keeps | exact Keeps.refl _) | with_reducible (refine Keeps.ite (fun _ => ?_) (fun _ => ?_)) | with_reducible (refine Keeps.chainAll _ _ (fun _ _ _ => ?_) ?_) | with_reducible (refine Keeps.foldl _ _ (fun _ _ _ => ?_) ?_) | with_reducible (refine Keeps.elim _ _ ?_ (fun _ => ?_)) | simp | split)
  · cases hx

theorem State.otpLockArea_keeps {v0 : Stores} (s : State) (m : Nat) (hk : Keeps v0 s.stores) : Keeps v0 (State.otpLockArea s m).stores := by
  unfold State.otpLockArea; repeat' (first | with_reducible assumption | with_reducible (first | apply State.blowLock_keeps | (refine State.serveLc_keeps _ _ _ _ _ (fun _ _ => ?_) ?_) | exact Keeps.refl _) | with_reducible (refine Keeps.ite (fun _ => ?_) (fun _ => ?_)) | with_reducible (refine Keeps.chainAll _ _ (fun _ _ _ => ?_) ?_) | with_reducible (refine Keeps.foldl _ _ (fun _ _ _ => ?_) ?_) | with_reducible (refine Keeps.elim _ _ ?_ (fun _ => ?_)) | simp | split)

theorem execOtpLock_keeps (m : Nat) (s : State) (out : State) (hx : execOtpLock m s = .next out) : Keeps s.stores out.stores := by
  unfold execOtpLock onMailbox onInstance at hx; split at hx
  · (injection hx with hx; subst hx); repeat' (first | with_reducible assumption | with_reducible (first | apply State.otpLockArea_keeps | exact Keeps.refl _) | with_reducible (refine Keeps.ite (fun _ => ?_) (fun _ => ?_)) | with_reducible (refine Keeps.chainAll _ _ (fun _ _ _ => ?_) ?_) | with_reducible (refine Keeps.foldl _ _ (fun _ _ _ => ?_) ?_) | with_reducible (refine Keeps.elim _ _ ?_ (fun _ => ?_)) | simp | split)
  · cases hx

theorem State.revokeKey0_keeps {v0 : Stores} (s : State) (m : Nat) (hk : Keeps v0 s.stores) : Keeps v0 (State.revokeKey0 s m).stores := by
  unfold State.revokeKey0; repeat' (first | with_reducible assumption | with_reducible (first | apply State.blowLock_keeps | (refine State.serveLc_keeps _ _ _ _ _ (fun _ _ => ?_) ?_) | exact Keeps.refl _) | with_reducible (refine Keeps.ite (fun _ => ?_) (fun _ => ?_)) | with_reducible (refine Keeps.chainAll _ _ (fun _ _ _ => ?_) ?_) | with_reducible (refine Keeps.foldl _ _ (fun _ _ _ => ?_) ?_) | with_reducible (refine Keeps.elim _ _ ?_ (fun _ => ?_)) | simp | split)

theorem execRevokeKey0_keeps (m : Nat) (s : State) (out : State) (hx : execRevokeKey0 m s = .next out) : Keeps s.stores out.stores := by
  unfold execRevokeKey0 onMailbox onInstance at hx; split at hx
  · (injection hx with hx; subst hx); repeat' (first | with_reducible assumption | with_reducible (first | apply State.revokeKey0_keeps | exact Keeps.refl _) | with_reducible (refine Keeps.ite (fun _ => ?_) (fun _ => ?_)) | with_reducible (refine Keeps.chainAll _ _ (fun _ _ _ => ?_) ?_) | with_reducible (refine Keeps.foldl _ _ (fun _ _ _ => ?_) ?_) | with_reducible (refine Keeps.elim _ _ ?_ (fun _ => ?_)) | simp | split)
  · cases hx

theorem State.lcReturn_keeps {v0 : Stores} (s : State) (m : Nat) (hk : Keeps v0 s.stores) : Keeps v0 (State.lcReturn s m).stores := by
  unfold State.lcReturn; repeat' (first | with_reducible assumption | with_reducible (first | apply State.retire_keeps | (refine State.serveLc_keeps _ _ _ _ _ (fun _ _ => ?_) ?_) | apply State.transition_keeps | exact Keeps.refl _) | with_reducible (refine Keeps.ite (fun _ => ?_) (fun _ => ?_)) | with_reducible (refine Keeps.chainAll _ _ (fun _ _ _ => ?_) ?_) | with_reducible (refine Keeps.foldl _ _ (fun _ _ _ => ?_) ?_) | with_reducible (refine Keeps.elim _ _ ?_ (fun _ => ?_)) | simp | split)

theorem execLcReturn_keeps (m : Nat) (s : State) (out : State) (hx : execLcReturn m s = .next out) : Keeps s.stores out.stores := by
  unfold execLcReturn onMailbox onInstance at hx; split at hx
  · (injection hx with hx; subst hx); repeat' (first | with_reducible assumption | with_reducible (first | apply State.lcReturn_keeps | exact Keeps.refl _) | with_reducible (refine Keeps.ite (fun _ => ?_) (fun _ => ?_)) | with_reducible (refine Keeps.chainAll _ _ (fun _ _ _ => ?_) ?_) | with_reducible (refine Keeps.foldl _ _ (fun _ _ _ => ?_) ?_) | with_reducible (refine Keeps.elim _ _ ?_ (fun _ => ?_)) | simp | split)
  · cases hx

theorem execKeyLoad_keeps (m : Nat) (s : State) (out : State) (hx : execKeyLoad m s = .next out) : Keeps s.stores out.stores := by
  unfold execKeyLoad onMailbox onInstance at hx; split at hx
  · (injection hx with hx; subst hx); repeat' (first | with_reducible assumption | with_reducible (first | exact Keeps.refl _) | with_reducible (refine Keeps.ite (fun _ => ?_) (fun _ => ?_)) | with_reducible (refine Keeps.chainAll _ _ (fun _ _ _ => ?_) ?_) | simp | split)
  · cases hx

theorem execAttest_keeps (m : Nat) (s : State) (out : State) (hx : execAttest m s = .next out) : Keeps s.stores out.stores := by
  unfold execAttest onMailbox onInstance at hx; split at hx
  · (injection hx with hx; subst hx); repeat' (first | with_reducible assumption | with_reducible (first | exact Keeps.refl _) | with_reducible (refine Keeps.ite (fun _ => ?_) (fun _ => ?_)) | with_reducible (refine Keeps.chainAll _ _ (fun _ _ _ => ?_) ?_) | simp | split)
  · cases hx

end Sys2Proof.Machine
end

