-- ==== Sys2Proof/Laws/RunHewers.lean ====
section
/-! SUPPORT. The commands and operations of Machine/Hewers.lean that write a memory: what they keep. -/

set_option Elab.async false

namespace Sys2Proof.Machine

theorem State.microEvent_keeps {v0 : Stores} (s : State) (h q evt : Nat) (w0 : Hewer) (hk : Keeps v0 s.stores) : Keeps v0 (State.microEvent s h q evt w0).stores := by
  unfold State.microEvent; repeat' (first | with_reducible assumption | with_reducible (first | apply State.hewerFault_keeps | exact Keeps.refl _) | with_reducible (refine Keeps.ite (fun _ => ?_) (fun _ => ?_)) | with_reducible (refine Keeps.chainAll _ _ (fun _ _ _ => ?_) ?_) | with_reducible (refine Keeps.foldl _ _ (fun _ _ _ => ?_) ?_) | with_reducible (refine Keeps.elim _ _ ?_ (fun _ => ?_)) | simp | split)

theorem State.issueWord_keeps {v0 : Stores} (s : State) (h q w next : Nat) (hk : Keeps v0 s.stores) : Keeps v0 (State.issueWord s h q w next).stores := by
  unfold State.issueWord; repeat' (first | with_reducible assumption | with_reducible (first | apply State.microEvent_keeps | exact Keeps.refl _) | with_reducible (refine Keeps.ite (fun _ => ?_) (fun _ => ?_)) | with_reducible (refine Keeps.chainAll _ _ (fun _ _ _ => ?_) ?_) | with_reducible (refine Keeps.foldl _ _ (fun _ _ _ => ?_) ?_) | with_reducible (refine Keeps.elim _ _ ?_ (fun _ => ?_)) | simp | split)

theorem State.bitWork_keeps {v0 : Stores} (s : State) (h : Nat) (k : BitWork) (hk : Keeps v0 s.stores) : Keeps v0 (State.bitWork s h k).stores := by
  unfold State.bitWork; repeat' (first | with_reducible assumption | with_reducible (first | apply State.encodeWork_keeps | apply State.finishWork_keeps | exact Keeps.refl _) | with_reducible (refine Keeps.ite (fun _ => ?_) (fun _ => ?_)) | with_reducible (refine Keeps.chainAll _ _ (fun _ _ _ => ?_) ?_) | with_reducible (refine Keeps.foldl _ _ (fun _ _ _ => ?_) ?_) | with_reducible (refine Keeps.elim _ _ ?_ (fun _ => ?_)) | simp | split)

theorem State.lmFault_keeps {v0 : Stores} (s : State) (h q : Nat) (hk : Keeps v0 s.stores) : Keeps v0 (State.lmFault s h q).stores := by
  unfold State.lmFault; repeat' (first | with_reducible assumption | with_reducible (first | apply State.hewerFault_keeps | exact Keeps.refl _) | with_reducible (refine Keeps.ite (fun _ => ?_) (fun _ => ?_)) | with_reducible (refine Keeps.chainAll _ _ (fun _ _ _ => ?_) ?_) | with_reducible (refine Keeps.foldl _ _ (fun _ _ _ => ?_) ?_) | with_reducible (refine Keeps.elim _ _ ?_ (fun _ => ?_)) | simp | split)

theorem State.wordIssue_keeps {v0 : Stores} (s : State) (h q : Nat) (m : LmUse) (work : State → State) (ha : ∀ t, Keeps v0 t.stores → Keeps v0 (work t).stores) (hk : Keeps v0 s.stores) : Keeps v0 (s.wordIssue h q m work).stores := by
  unfold State.wordIssue
  split
  · split
    · exact State.lmFault_keeps _ _ _ hk
    · exact ha _ (State.issueWord_keeps _ _ _ _ _ (by rw [State.lmAccess_stores]; exact hk))
  · exact State.hewerFault_keeps _ _ _ _ _ _ hk
  · rw [State.setF_stores]; exact hk
  · split
    · exact State.lmFault_keeps _ _ _ hk
    · exact hk

theorem State.pixelIssue_keeps {v0 : Stores} (s : State) (h : Nat) (k : PixelWork) (m : LmUse) (hk : Keeps v0 s.stores) : Keeps v0 (State.pixelIssue s h k m).stores := by
  unfold State.pixelIssue; repeat' (first | with_reducible assumption | with_reducible (first | (refine State.wordIssue_keeps _ _ _ _ _ (fun _ _ => ?_) ?_) | exact Keeps.refl _) | with_reducible (refine Keeps.ite (fun _ => ?_) (fun _ => ?_)) | with_reducible (refine Keeps.chainAll _ _ (fun _ _ _ => ?_) ?_) | with_reducible (refine Keeps.foldl _ _ (fun _ _ _ => ?_) ?_) | with_reducible (refine Keeps.elim _ _ ?_ (fun _ => ?_)) | simp | split)

theorem execPixelWordIssue_keeps (h : Nat) (k : PixelWork) (m : LmUse) (s : State) (out : State) (hx : execPixelWordIssue h k s m = .next out) : Keeps s.stores out.stores := by
  unfold execPixelWordIssue onInstance at hx; split at hx
  · (injection hx with hx; subst hx); repeat' (first | with_reducible assumption | with_reducible (first | apply State.pixelIssue_keeps | exact Keeps.refl _) | with_reducible (refine Keeps.ite (fun _ => ?_) (fun _ => ?_)) | with_reducible (refine Keeps.chainAll _ _ (fun _ _ _ => ?_) ?_) | with_reducible (refine Keeps.foldl _ _ (fun _ _ _ => ?_) ?_) | with_reducible (refine Keeps.elim _ _ ?_ (fun _ => ?_)) | simp | split)
  · cases hx

theorem State.bitIssue_keeps {v0 : Stores} (s : State) (h : Nat) (k : BitWork) (m : LmUse) (hk : Keeps v0 s.stores) : Keeps v0 (State.bitIssue s h k m).stores := by
  unfold State.bitIssue; repeat' (first | with_reducible assumption | with_reducible (first | apply State.bitWork_keeps | (refine State.wordIssue_keeps _ _ _ _ _ (fun _ _ => ?_) ?_) | exact Keeps.refl _) | with_reducible (refine Keeps.ite (fun _ => ?_) (fun _ => ?_)) | with_reducible (refine Keeps.chainAll _ _ (fun _ _ _ => ?_) ?_) | with_reducible (refine Keeps.foldl _ _ (fun _ _ _ => ?_) ?_) | with_reducible (refine Keeps.elim _ _ ?_ (fun _ => ?_)) | simp | split)

theorem execBitstreamWordIssue_keeps (h : Nat) (k : BitWork) (m : LmUse) (s : State) (out : State) (hx : execBitstreamWordIssue h k s m = .next out) : Keeps s.stores out.stores := by
  unfold execBitstreamWordIssue onInstance at hx; split at hx
  · (injection hx with hx; subst hx); repeat' (first | with_reducible assumption | with_reducible (first | apply State.bitIssue_keeps | exact Keeps.refl _) | with_reducible (refine Keeps.ite (fun _ => ?_) (fun _ => ?_)) | with_reducible (refine Keeps.chainAll _ _ (fun _ _ _ => ?_) ?_) | with_reducible (refine Keeps.foldl _ _ (fun _ _ _ => ?_) ?_) | with_reducible (refine Keeps.elim _ _ ?_ (fun _ => ?_)) | simp | split)
  · cases hx

theorem State.waitTimeout_keeps {v0 : Stores} (s : State) (h : Nat) (hk : Keeps v0 s.stores) : Keeps v0 (State.waitTimeout s h).stores := by
  unfold State.waitTimeout; repeat' (first | with_reducible assumption | with_reducible (first | apply State.hewerFault_keeps | exact Keeps.refl _) | with_reducible (refine Keeps.ite (fun _ => ?_) (fun _ => ?_)) | with_reducible (refine Keeps.chainAll _ _ (fun _ _ _ => ?_) ?_) | with_reducible (refine Keeps.foldl _ _ (fun _ _ _ => ?_) ?_) | with_reducible (refine Keeps.elim _ _ ?_ (fun _ => ?_)) | simp | split)

theorem execHewerWaitTimeout_keeps (h : Nat) (s : State) (out : State) (hx : execHewerWaitTimeout h s = .next out) : Keeps s.stores out.stores := by
  unfold execHewerWaitTimeout onInstance at hx; split at hx
  · (injection hx with hx; subst hx); repeat' (first | with_reducible assumption | with_reducible (first | apply State.waitTimeout_keeps | exact Keeps.refl _) | with_reducible (refine Keeps.ite (fun _ => ?_) (fun _ => ?_)) | with_reducible (refine Keeps.chainAll _ _ (fun _ _ _ => ?_) ?_) | with_reducible (refine Keeps.foldl _ _ (fun _ _ _ => ?_) ?_) | with_reducible (refine Keeps.elim _ _ ?_ (fun _ => ?_)) | simp | split)
  · cases hx

theorem execStallLimitExpire_keeps (h : Nat) (s : State) (out : State) (hx : execStallLimitExpire h s = .next out) : Keeps s.stores out.stores := by
  unfold execStallLimitExpire onInstance at hx; split at hx
  · (injection hx with hx; subst hx); repeat' (first | with_reducible assumption | with_reducible (first | exact Keeps.refl _) | with_reducible (refine Keeps.ite (fun _ => ?_) (fun _ => ?_)) | with_reducible (refine Keeps.chainAll _ _ (fun _ _ _ => ?_) ?_) | with_reducible (refine Keeps.foldl _ _ (fun _ _ _ => ?_) ?_) | with_reducible (refine Keeps.elim _ _ ?_ (fun _ => ?_)) | simp | split)
  · cases hx

theorem execHewerDrain_keeps (m : Nat) (s : State) (out : State) (hx : execHewerDrain m s = .next out) : Keeps s.stores out.stores := by
  unfold execHewerDrain onMailbox onInstance at hx; split at hx
  · (injection hx with hx; subst hx); repeat' (first | with_reducible assumption | with_reducible (first | exact Keeps.refl _) | with_reducible (refine Keeps.ite (fun _ => ?_) (fun _ => ?_)) | with_reducible (refine Keeps.chainAll _ _ (fun _ _ _ => ?_) ?_) | simp | split)
  · cases hx

theorem execHewerService_keeps (m : Nat) (s : State) (out : State) (hx : execHewerService m s = .next out) : Keeps s.stores out.stores := by
  unfold execHewerService onMailbox onInstance at hx; split at hx
  · (injection hx with hx; subst hx); repeat' (first | with_reducible assumption | with_reducible (first | exact Keeps.refl _) | with_reducible (refine Keeps.ite (fun _ => ?_) (fun _ => ?_)) | with_reducible (refine Keeps.chainAll _ _ (fun _ _ _ => ?_) ?_) | simp | split)
  · cases hx

theorem execHewerTestDone_keeps (h : Nat) (pass : Bool) (s : State) (out : State) (hx : execHewerTestDone h pass s = .next out) : Keeps s.stores out.stores := by
  unfold execHewerTestDone onInstance at hx; split at hx
  · (injection hx with hx; subst hx); repeat' (first | with_reducible assumption | with_reducible (first | exact Keeps.refl _) | with_reducible (refine Keeps.ite (fun _ => ?_) (fun _ => ?_)) | with_reducible (refine Keeps.chainAll _ _ (fun _ _ _ => ?_) ?_) | with_reducible (refine Keeps.foldl _ _ (fun _ _ _ => ?_) ?_) | with_reducible (refine Keeps.elim _ _ ?_ (fun _ => ?_)) | simp | split)
  · cases hx

theorem execHewerPatch_keeps (m : Nat) (s : State) (out : State) (hx : execHewerPatch m s = .next out) : Keeps s.stores out.stores := by
  unfold execHewerPatch onMailbox onInstance at hx; split at hx
  · (injection hx with hx; subst hx); repeat' (first | with_reducible assumption | with_reducible (first | exact Keeps.refl _) | with_reducible (refine Keeps.ite (fun _ => ?_) (fun _ => ?_)) | with_reducible (refine Keeps.chainAll _ _ (fun _ _ _ => ?_) ?_) | with_reducible (refine Keeps.foldl _ _ (fun _ _ _ => ?_) ?_) | with_reducible (refine Keeps.elim _ _ ?_ (fun _ => ?_)) | simp | split)
  · cases hx

theorem execPatchLoadDone_keeps (h : Nat) (e : SramRead) (s : State) (out : State) (hx : execPatchLoadDone h s e = .next out) : Keeps s.stores out.stores := by
  unfold execPatchLoadDone onInstance at hx; split at hx
  · (injection hx with hx; subst hx); repeat' (first | with_reducible assumption | with_reducible (first | exact Keeps.refl _) | with_reducible (refine Keeps.ite (fun _ => ?_) (fun _ => ?_)) | with_reducible (refine Keeps.chainAll _ _ (fun _ _ _ => ?_) ?_) | with_reducible (refine Keeps.foldl _ _ (fun _ _ _ => ?_) ?_) | with_reducible (refine Keeps.elim _ _ ?_ (fun _ => ?_)) | simp | split)
  · cases hx

theorem execUcodeUpdate_keeps (m : Nat) (s : State) (out : State) (hx : execUcodeUpdate m s = .next out) : Keeps s.stores out.stores := by
  unfold execUcodeUpdate onMailbox onInstance at hx; split at hx
  · (injection hx with hx; subst hx); repeat' (first | with_reducible assumption | with_reducible (first | exact Keeps.refl _) | with_reducible (refine Keeps.ite (fun _ => ?_) (fun _ => ?_)) | with_reducible (refine Keeps.chainAll _ _ (fun _ _ _ => ?_) ?_) | simp | split)
  · cases hx

end Sys2Proof.Machine
end

