-- ==== Sys2Proof/Laws/RunLamp.lean ====
section
/-! SUPPORT. The commands and operations of Machine/Lamp.lean that write a memory: what they keep. -/

set_option Elab.async false

namespace Sys2Proof.Machine

theorem execBandStart_keeps (n : Nat) (r : SramRead) (s : State) (out : State) (hx : execBandStart n r s = .next out) : Keeps s.stores out.stores := by
  unfold execBandStart onInstance at hx; split at hx
  · (injection hx with hx; subst hx); repeat' (first | with_reducible assumption | with_reducible (first | exact Keeps.refl _) | with_reducible (refine Keeps.ite (fun _ => ?_) (fun _ => ?_)) | with_reducible (refine Keeps.chainAll _ _ (fun _ _ _ => ?_) ?_) | with_reducible (refine Keeps.foldl _ _ (fun _ _ _ => ?_) ?_) | with_reducible (refine Keeps.elim _ _ ?_ (fun _ => ?_)) | simp | split)
  · cases hx

theorem execRivBurstIssue_keeps (n : Nat) (s : State) (out : State) (hx : execRivBurstIssue n s = .next out) : Keeps s.stores out.stores := by
  unfold execRivBurstIssue onInstance at hx; split at hx
  · (injection hx with hx; subst hx); repeat' (first | with_reducible assumption | with_reducible (first | exact Keeps.refl _) | with_reducible (refine Keeps.ite (fun _ => ?_) (fun _ => ?_)) | with_reducible (refine Keeps.chainAll _ _ (fun _ _ _ => ?_) ?_) | simp | split)
  · cases hx

theorem State.adopt_keeps {v0 : Stores} (s : State) (x : Nat) (ps : List Nat) (hk : Keeps v0 s.stores) : Keeps v0 (State.adopt s x ps).stores := by
  unfold State.adopt; repeat' (first | with_reducible assumption | with_reducible (first | apply State.queueBand_keeps | exact Keeps.refl _) | with_reducible (refine Keeps.ite (fun _ => ?_) (fun _ => ?_)) | with_reducible (refine Keeps.chainAll _ _ (fun _ _ _ => ?_) ?_) | simp | split)

theorem State.moveSplit_keeps {v0 : Stores} (s : State) (a : Nat) (c : Chain) (k : Nat) (hk : Keeps v0 s.stores) : Keeps v0 (State.moveSplit s a c k).stores := by
  unfold State.moveSplit; repeat' (first | with_reducible assumption | with_reducible (first | apply State.adopt_keeps | exact Keeps.refl _) | with_reducible (refine Keeps.ite (fun _ => ?_) (fun _ => ?_)) | with_reducible (refine Keeps.chainAll _ _ (fun _ _ _ => ?_) ?_) | simp | split)

theorem State.breakNotice_keeps {v0 : Stores} (s : State) (n d : Nat) (hk : Keeps v0 s.stores) : Keeps v0 (State.breakNotice s n d).stores := by
  unfold State.breakNotice; repeat' (first | with_reducible assumption | with_reducible (first | apply State.moveSplit_keeps | exact Keeps.refl _) | with_reducible (refine Keeps.ite (fun _ => ?_) (fun _ => ?_)) | with_reducible (refine Keeps.chainAll _ _ (fun _ _ _ => ?_) ?_) | simp | split)

theorem execBreakNoticeConfirm_keeps (n : Nat) (d : Nat) (s : State) (out : State) (hx : execBreakNoticeConfirm n d s = .next out) : Keeps s.stores out.stores := by
  unfold execBreakNoticeConfirm onInstance at hx; split at hx
  · (injection hx with hx; subst hx); repeat' (first | with_reducible assumption | with_reducible (first | apply State.breakNotice_keeps | exact Keeps.refl _) | with_reducible (refine Keeps.ite (fun _ => ?_) (fun _ => ?_)) | with_reducible (refine Keeps.chainAll _ _ (fun _ _ _ => ?_) ?_) | simp | split)
  · cases hx

theorem State.halt_keeps {v0 : Stores} (s : State) (n addr : Nat) (hk : Keeps v0 s.stores) : Keeps v0 (State.halt s n addr).stores := by
  unfold State.halt; repeat' (first | with_reducible assumption | with_reducible (first | apply State.moveSplit_keeps | exact Keeps.refl _) | with_reducible (refine Keeps.ite (fun _ => ?_) (fun _ => ?_)) | with_reducible (refine Keeps.chainAll _ _ (fun _ _ _ => ?_) ?_) | simp | split)

theorem State.burstEnd_keeps {v0 : Stores} (s : State) (n : Nat) (b : Burst) (rest : List Burst) (hk : Keeps v0 s.stores) : Keeps v0 (State.burstEnd s n b rest).stores := by
  unfold State.burstEnd; repeat' (first | with_reducible assumption | with_reducible (first | apply State.halt_keeps | exact Keeps.refl _) | with_reducible (refine Keeps.ite (fun _ => ?_) (fun _ => ?_)) | with_reducible (refine Keeps.chainAll _ _ (fun _ _ _ => ?_) ?_) | with_reducible (refine Keeps.foldl _ _ (fun _ _ _ => ?_) ?_) | with_reducible (refine Keeps.elim _ _ ?_ (fun _ => ?_)) | simp | split)

theorem State.beatResponse_keeps {v0 : Stores} (s : State) (n : Nat) (r : BeatResp) (hk : Keeps v0 s.stores) : Keeps v0 (State.beatResponse s n r).stores := by
  unfold State.beatResponse; repeat' (first | with_reducible assumption | with_reducible (first | apply State.burstEnd_keeps | exact Keeps.refl _) | with_reducible (refine Keeps.ite (fun _ => ?_) (fun _ => ?_)) | with_reducible (refine Keeps.chainAll _ _ (fun _ _ _ => ?_) ?_) | with_reducible (refine Keeps.foldl _ _ (fun _ _ _ => ?_) ?_) | with_reducible (refine Keeps.elim _ _ ?_ (fun _ => ?_)) | simp | split)

theorem execRivBeatResponse_keeps (n : Nat) (r : BeatResp) (s : State) (out : State) (hx : execRivBeatResponse n r s = .next out) : Keeps s.stores out.stores := by
  unfold execRivBeatResponse onInstance at hx; split at hx
  · (injection hx with hx; subst hx); repeat' (first | with_reducible assumption | with_reducible (first | apply State.beatResponse_keeps | exact Keeps.refl _) | with_reducible (refine Keeps.ite (fun _ => ?_) (fun _ => ?_)) | with_reducible (refine Keeps.chainAll _ _ (fun _ _ _ => ?_) ?_) | with_reducible (refine Keeps.foldl _ _ (fun _ _ _ => ?_) ?_) | with_reducible (refine Keeps.elim _ _ ?_ (fun _ => ?_)) | simp | split)
  · cases hx

theorem State.captureTo_keeps {v0 : Stores} (s : State) (k : Nat) (bs : List Byte) (hk : Keeps v0 s.stores) : Keeps v0 (State.captureTo s k bs).stores := by
  unfold State.captureTo; repeat' (first | with_reducible assumption | with_reducible (first | apply State.putRing_keeps | exact Keeps.refl _) | with_reducible (refine Keeps.ite (fun _ => ?_) (fun _ => ?_)) | with_reducible (refine Keeps.chainAll _ _ (fun _ _ _ => ?_) ?_) | with_reducible (refine Keeps.foldl _ _ (fun _ _ _ => ?_) ?_) | with_reducible (refine Keeps.elim _ _ ?_ (fun _ => ?_)) | simp | split)

theorem State.captureFrame_keeps {v0 : Stores} (s : State) (n : Nat) (f : List Byte) (hk : Keeps v0 s.stores) : Keeps v0 (State.captureFrame s n f).stores := by
  unfold State.captureFrame; repeat' (first | with_reducible assumption | with_reducible (first | apply State.captureTo_keeps | exact Keeps.refl _) | with_reducible (refine Keeps.ite (fun _ => ?_) (fun _ => ?_)) | with_reducible (refine Keeps.chainAll _ _ (fun _ _ _ => ?_) ?_) | with_reducible (refine Keeps.foldl _ _ (fun _ _ _ => ?_) ?_) | with_reducible (refine Keeps.elim _ _ ?_ (fun _ => ?_)) | simp | split)

theorem State.frameSent_keeps {v0 : Stores} (s : State) (n : Nat) (f : List Byte) (hk : Keeps v0 s.stores) : Keeps v0 (State.frameSent s n f).stores := by
  unfold State.frameSent; repeat' (first | with_reducible assumption | with_reducible (first | apply State.captureFrame_keeps | exact Keeps.refl _) | with_reducible (refine Keeps.ite (fun _ => ?_) (fun _ => ?_)) | with_reducible (refine Keeps.chainAll _ _ (fun _ _ _ => ?_) ?_) | with_reducible (refine Keeps.foldl _ _ (fun _ _ _ => ?_) ?_) | with_reducible (refine Keeps.elim _ _ ?_ (fun _ => ?_)) | simp | split)

theorem State.lampFrame_keeps {v0 : Stores} (s : State) (n : Nat) (own : Option PortFrame) (hk : Keeps v0 s.stores) : Keeps v0 (State.lampFrame s n own).stores := by
  unfold State.lampFrame; repeat' (first | with_reducible assumption | with_reducible (first | apply State.frameSent_keeps | exact Keeps.refl _) | with_reducible (refine Keeps.ite (fun _ => ?_) (fun _ => ?_)) | with_reducible (refine Keeps.chainAll _ _ (fun _ _ _ => ?_) ?_) | with_reducible (refine Keeps.foldl _ _ (fun _ _ _ => ?_) ?_) | with_reducible (refine Keeps.elim _ _ ?_ (fun _ => ?_)) | simp | split)

theorem execLampFrameSend_keeps (n : Nat) (own : Option PortFrame) (s : State) (out : State) (hx : execLampFrameSend n s own = .next out) : Keeps s.stores out.stores := by
  unfold execLampFrameSend onInstance at hx; split at hx
  · (injection hx with hx; subst hx); repeat' (first | with_reducible assumption | with_reducible (first | apply State.lampFrame_keeps | exact Keeps.refl _) | with_reducible (refine Keeps.ite (fun _ => ?_) (fun _ => ?_)) | with_reducible (refine Keeps.chainAll _ _ (fun _ _ _ => ?_) ?_) | with_reducible (refine Keeps.foldl _ _ (fun _ _ _ => ?_) ?_) | with_reducible (refine Keeps.elim _ _ ?_ (fun _ => ?_)) | simp | split)
  · cases hx

theorem State.statusReceive_keeps {v0 : Stores} (s : State) (n : Nat) (f : List Byte) (hk : Keeps v0 s.stores) : Keeps v0 (State.statusReceive s n f).stores := by
  unfold State.statusReceive; repeat' (first | with_reducible assumption | with_reducible (first | apply State.offer_keeps | exact Keeps.refl _) | with_reducible (refine Keeps.ite (fun _ => ?_) (fun _ => ?_)) | with_reducible (refine Keeps.chainAll _ _ (fun _ _ _ => ?_) ?_) | with_reducible (refine Keeps.foldl _ _ (fun _ _ _ => ?_) ?_) | with_reducible (refine Keeps.elim _ _ ?_ (fun _ => ?_)) | simp | split)

theorem execLampStatusReceive_keeps (n : Nat) (frame : List Byte) (s : State) (out : State) (hx : execLampStatusReceive n frame s = .next out) : Keeps s.stores out.stores := by
  unfold execLampStatusReceive onInstance at hx; split at hx
  · (injection hx with hx; subst hx); repeat' (first | with_reducible assumption | with_reducible (first | apply State.statusReceive_keeps | exact Keeps.refl _) | with_reducible (refine Keeps.ite (fun _ => ?_) (fun _ => ?_)) | with_reducible (refine Keeps.chainAll _ _ (fun _ _ _ => ?_) ?_) | with_reducible (refine Keeps.foldl _ _ (fun _ _ _ => ?_) ?_) | with_reducible (refine Keeps.elim _ _ ?_ (fun _ => ?_)) | simp | split)
  · cases hx

theorem execLampRxLos_keeps (n : Nat) (los : Bool) (s : State) (out : State) (hx : execLampRxLos n los s = .next out) : Keeps s.stores out.stores := by
  unfold execLampRxLos onInstance at hx; split at hx
  · (injection hx with hx; subst hx); repeat' (first | with_reducible assumption | with_reducible (first | exact Keeps.refl _) | with_reducible (refine Keeps.ite (fun _ => ?_) (fun _ => ?_)) | with_reducible (refine Keeps.chainAll _ _ (fun _ _ _ => ?_) ?_) | simp | split)
  · cases hx

theorem execFarSyncReturn_keeps (n : Nat) (s : State) (out : State) (hx : execFarSyncReturn n s = .next out) : Keeps s.stores out.stores := by
  unfold execFarSyncReturn onInstance at hx; split at hx
  · (injection hx with hx; subst hx); repeat' (first | with_reducible assumption | with_reducible (first | exact Keeps.refl _) | with_reducible (refine Keeps.ite (fun _ => ?_) (fun _ => ?_)) | with_reducible (refine Keeps.chainAll _ _ (fun _ _ _ => ?_) ?_) | simp | split)
  · cases hx

theorem execSubframeSync_keeps (g : Nat) (s : State) (out : State) (hx : execSubframeSync g s = .next out) : Keeps s.stores out.stores := by
  unfold execSubframeSync onInstance at hx; split at hx
  · (injection hx with hx; subst hx); repeat' (first | with_reducible assumption | with_reducible (first | exact Keeps.refl _) | with_reducible (refine Keeps.ite (fun _ => ?_) (fun _ => ?_)) | with_reducible (refine Keeps.chainAll _ _ (fun _ _ _ => ?_) ?_) | simp | split)
  · cases hx

theorem execGridEnable_keeps (g : Nat) (s : State) (out : State) (hx : execGridEnable g s = .next out) : Keeps s.stores out.stores := by
  unfold execGridEnable onInstance at hx; split at hx
  · (injection hx with hx; subst hx); repeat' (first | with_reducible assumption | with_reducible (first | exact Keeps.refl _) | with_reducible (refine Keeps.ite (fun _ => ?_) (fun _ => ?_)) | with_reducible (refine Keeps.chainAll _ _ (fun _ _ _ => ?_) ?_) | simp | split)
  · cases hx

end Sys2Proof.Machine
end

