-- ==== Sys2Proof/Laws/RunLampCmd.lean ====
section
/-! SUPPORT. The commands and operations of Machine/LampCmd.lean that write a memory: what they keep. -/

set_option Elab.async false

namespace Sys2Proof.Machine

theorem execLampPortSet_keeps (m : Nat) (s : State) (out : State) (hx : execLampPortSet m s = .next out) : Keeps s.stores out.stores := by
  unfold execLampPortSet onMailbox onInstance at hx; split at hx
  · (injection hx with hx; subst hx); repeat' (first | with_reducible assumption | with_reducible (first | exact Keeps.refl _) | with_reducible (refine Keeps.ite (fun _ => ?_) (fun _ => ?_)) | with_reducible (refine Keeps.chainAll _ _ (fun _ _ _ => ?_) ?_) | simp | split)
  · cases hx

theorem execBrightnessSet_keeps (m : Nat) (s : State) (out : State) (hx : execBrightnessSet m s = .next out) : Keeps s.stores out.stores := by
  unfold execBrightnessSet onMailbox onInstance at hx; split at hx
  · (injection hx with hx; subst hx); repeat' (first | with_reducible assumption | with_reducible (first | exact Keeps.refl _) | with_reducible (refine Keeps.ite (fun _ => ?_) (fun _ => ?_)) | with_reducible (refine Keeps.chainAll _ _ (fun _ _ _ => ?_) ?_) | simp | split)
  · cases hx

theorem execScanMapLoad_keeps (m : Nat) (s : State) (out : State) (hx : execScanMapLoad m s = .next out) : Keeps s.stores out.stores := by
  unfold execScanMapLoad onMailbox onInstance at hx; split at hx
  · (injection hx with hx; subst hx); repeat' (first | with_reducible assumption | with_reducible (first | exact Keeps.refl _) | with_reducible (refine Keeps.ite (fun _ => ?_) (fun _ => ?_)) | with_reducible (refine Keeps.chainAll _ _ (fun _ _ _ => ?_) ?_) | simp | split)
  · cases hx

theorem State.dressedTable_keeps {v0 : Stores} (s : State) (t c : Nat) (hk : Keeps v0 s.stores) : Keeps v0 (State.dressedTable s t c).1.stores := by
  unfold State.dressedTable; repeat' (first | with_reducible assumption | with_reducible (first | apply State.putFor_keeps | exact Keeps.refl _) | with_reducible (refine Keeps.ite (fun _ => ?_) (fun _ => ?_)) | with_reducible (refine Keeps.chainAll _ _ (fun _ _ _ => ?_) ?_) | with_reducible (refine Keeps.foldl _ _ (fun _ _ _ => ?_) ?_) | with_reducible (refine Keeps.elim _ _ ?_ (fun _ => ?_)) | simp | split)

theorem State.dressChains_keeps {v0 : Stores} (s : State) (c : Nat) (hk : Keeps v0 s.stores) : Keeps v0 (State.dressChains s c).stores := by
  unfold State.dressChains; repeat' (first | with_reducible assumption | with_reducible (first | apply State.dressedTable_keeps | exact Keeps.refl _) | with_reducible (refine Keeps.ite (fun _ => ?_) (fun _ => ?_)) | with_reducible (refine Keeps.chainAll _ _ (fun _ _ _ => ?_) ?_) | simp | split)

theorem State.dressingCmd_keeps {v0 : Stores} (s : State) (m : Nat) (hk : Keeps v0 s.stores) : Keeps v0 (State.dressingCmd s m).stores := by
  unfold State.dressingCmd; repeat' (first | with_reducible assumption | with_reducible (first | apply State.dressChains_keeps | (refine State.serve_keeps _ _ _ _ _ (fun _ _ => ?_) ?_) | exact Keeps.refl _) | with_reducible (refine Keeps.ite (fun _ => ?_) (fun _ => ?_)) | with_reducible (refine Keeps.chainAll _ _ (fun _ _ _ => ?_) ?_) | with_reducible (refine Keeps.foldl _ _ (fun _ _ _ => ?_) ?_) | with_reducible (refine Keeps.elim _ _ ?_ (fun _ => ?_)) | simp | split)

theorem execDressingLoad_keeps (m : Nat) (s : State) (out : State) (hx : execDressingLoad m s = .next out) : Keeps s.stores out.stores := by
  unfold execDressingLoad onMailbox onInstance at hx; split at hx
  · (injection hx with hx; subst hx); repeat' (first | with_reducible assumption | with_reducible (first | apply State.dressingCmd_keeps | exact Keeps.refl _) | with_reducible (refine Keeps.ite (fun _ => ?_) (fun _ => ?_)) | with_reducible (refine Keeps.chainAll _ _ (fun _ _ _ => ?_) ?_) | with_reducible (refine Keeps.foldl _ _ (fun _ _ _ => ?_) ?_) | with_reducible (refine Keeps.elim _ _ ?_ (fun _ => ?_)) | simp | split)
  · cases hx

theorem execRivChannelConfig_keeps (m : Nat) (s : State) (out : State) (hx : execRivChannelConfig m s = .next out) : Keeps s.stores out.stores := by
  unfold execRivChannelConfig onMailbox onInstance at hx; split at hx
  · (injection hx with hx; subst hx); repeat' (first | with_reducible assumption | with_reducible (first | exact Keeps.refl _) | with_reducible (refine Keeps.ite (fun _ => ?_) (fun _ => ?_)) | with_reducible (refine Keeps.chainAll _ _ (fun _ _ _ => ?_) ?_) | simp | split)
  · cases hx

end Sys2Proof.Machine
end

