-- ==== Sys2Proof/Laws/RunHaulTx.lean ====
section
/-! SUPPORT. The commands and operations of Machine/HaulTx.lean that write a memory: what they keep. -/

set_option Elab.async false

namespace Sys2Proof.Machine

theorem State.originateFrame_keeps {v0 : Stores} (s : State) (inport : Nat) (h : Parsed) (mk : Nat → Nat → List Byte) (t : State) (e : s.originateFrame inport h mk = some t) (hk : Keeps v0 s.stores) : Keeps v0 t.stores := by
  unfold State.originateFrame at e
  have h1 : Keeps v0 (if !(s.ownRoute h inport).2.hit then s.clsCount cntNoMatch else if actDrop (s.ownRoute h inport).2.action then s.clsCount cntRuleDrop else s).stores := by
    (repeat' split) <;> simpa using hk
  dsimp only at e
  split at e
  · cases e; simpa using h1
  split at e
  · cases e
  rename_i b u hu
  cases e
  rw [State.draw_stores]
  exact Keeps.chainAll _ _ (fun _ _ h => State.place_keeps _ _ _ _ _ _ _ _ h) (State.allocPacket_keeps _ _ _ _ _ _ hu (by simpa using h1))

theorem State.originate_keeps {v0 : Stores} (s : State) (inport : Nat) (h : Parsed) (seq : Nat) (pay : List Byte) (t : State) (e : s.originate inport h seq pay = some t) (hk : Keeps v0 s.stores) : Keeps v0 t.stores := by
  exact State.originateFrame_keeps _ _ _ _ _ e hk

theorem State.ptpSend_keeps {v0 : Stores} (s : State) (hk : Keeps v0 s.stores) : Keeps v0 (State.ptpSend s).stores := by
  unfold State.ptpSend; repeat' (first | with_reducible assumption | with_reducible (first | (refine State.originateFrame_keeps _ _ _ _ _ ‹_› ?_) | exact Keeps.refl _) | with_reducible (refine Keeps.ite (fun _ => ?_) (fun _ => ?_)) | with_reducible (refine Keeps.chainAll _ _ (fun _ _ _ => ?_) ?_) | with_reducible (refine Keeps.foldl _ _ (fun _ _ _ => ?_) ?_) | with_reducible (refine Keeps.elim _ _ ?_ (fun _ => ?_)) | simp | split)

theorem State.sendReserved_keeps {v0 : Stores} (s : State) (ps : List Nat) (inport : Nat) (mk : Nat → List Byte) (hk : Keeps v0 s.stores) : Keeps v0 (State.sendReserved s ps inport mk).stores := by
  unfold State.sendReserved; repeat' (first | with_reducible assumption | with_reducible (first | apply State.enqueueCopy_keeps | exact Keeps.refl _) | with_reducible (refine Keeps.ite (fun _ => ?_) (fun _ => ?_)) | with_reducible (refine Keeps.chainAll _ _ (fun _ _ _ => ?_) ?_) | with_reducible (refine Keeps.foldl _ _ (fun _ _ _ => ?_) ?_) | with_reducible (refine Keeps.elim _ _ ?_ (fun _ => ?_)) | simp | split)

theorem State.sendNotice_keeps {v0 : Stores} (s : State) (ps : List Nat) (sub x : Nat) (ccw : Bool) (n hop src : Nat) (hk : Keeps v0 s.stores) : Keeps v0 (State.sendNotice s ps sub x ccw n hop src).stores := by
  unfold State.sendNotice; repeat' (first | with_reducible assumption | with_reducible (first | apply State.sendReserved_keeps | exact Keeps.refl _) | with_reducible (refine Keeps.ite (fun _ => ?_) (fun _ => ?_)) | with_reducible (refine Keeps.chainAll _ _ (fun _ _ _ => ?_) ?_) | with_reducible (refine Keeps.foldl _ _ (fun _ _ _ => ?_) ?_) | with_reducible (refine Keeps.elim _ _ ?_ (fun _ => ?_)) | simp | split)

theorem State.ownNotice_keeps {v0 : Stores} (s : State) (sub : Nat) (ccw : Bool) (hk : Keeps v0 s.stores) : Keeps v0 (State.ownNotice s sub ccw).stores := by
  unfold State.ownNotice; repeat' (first | with_reducible assumption | with_reducible (first | apply State.sendNotice_keeps | exact Keeps.refl _) | with_reducible (refine Keeps.ite (fun _ => ?_) (fun _ => ?_)) | with_reducible (refine Keeps.chainAll _ _ (fun _ _ _ => ?_) ?_) | with_reducible (refine Keeps.foldl _ _ (fun _ _ _ => ?_) ?_) | with_reducible (refine Keeps.elim _ _ ?_ (fun _ => ?_)) | simp | split)

theorem State.portBreak_keeps {v0 : Stores} (s : State) (p : Nat) (hk : Keeps v0 s.stores) : Keeps v0 (State.portBreak s p).stores := by
  unfold State.portBreak; repeat' (first | with_reducible assumption | with_reducible (first | apply State.ownNotice_keeps | exact Keeps.refl _) | with_reducible (refine Keeps.ite (fun _ => ?_) (fun _ => ?_)) | with_reducible (refine Keeps.chainAll _ _ (fun _ _ _ => ?_) ?_) | with_reducible (refine Keeps.foldl _ _ (fun _ _ _ => ?_) ?_) | with_reducible (refine Keeps.elim _ _ ?_ (fun _ => ?_)) | simp | split)

theorem State.passNotice_keeps {v0 : Stores} (s : State) (p sub x : Nat) (ccw : Bool) (n hop : Nat) (whole : Option (Parsed × List Byte)) (hk : Keeps v0 s.stores) : Keeps v0 (State.passNotice s p sub x ccw n hop whole).stores := by
  unfold State.passNotice; repeat' (first | with_reducible assumption | with_reducible (first | apply State.sendNotice_keeps | apply State.sendReserved_keeps | exact Keeps.refl _) | with_reducible (refine Keeps.ite (fun _ => ?_) (fun _ => ?_)) | with_reducible (refine Keeps.chainAll _ _ (fun _ _ _ => ?_) ?_) | with_reducible (refine Keeps.foldl _ _ (fun _ _ _ => ?_) ?_) | with_reducible (refine Keeps.elim _ _ ?_ (fun _ => ?_)) | simp | split)

theorem State.ringNotice_keeps {v0 : Stores} (s : State) (p x : Nat) (ccw : Bool) (n hop : Nat) (whole : Option (Parsed × List Byte)) (hk : Keeps v0 s.stores) : Keeps v0 (State.ringNotice s p x ccw n hop whole).stores := by
  unfold State.ringNotice; repeat' (first | with_reducible assumption | with_reducible (first | apply State.passNotice_keeps | exact Keeps.refl _) | with_reducible (refine Keeps.ite (fun _ => ?_) (fun _ => ?_)) | with_reducible (refine Keeps.chainAll _ _ (fun _ _ _ => ?_) ?_) | with_reducible (refine Keeps.foldl _ _ (fun _ _ _ => ?_) ?_) | with_reducible (refine Keeps.elim _ _ ?_ (fun _ => ?_)) | simp | split)

theorem State.ringRestore_keeps {v0 : Stores} (s : State) (p x : Nat) (ccw : Bool) (n hop : Nat) (whole : Option (Parsed × List Byte)) (hk : Keeps v0 s.stores) : Keeps v0 (State.ringRestore s p x ccw n hop whole).stores := by
  unfold State.ringRestore; repeat' (first | with_reducible assumption | with_reducible (first | apply State.passNotice_keeps | exact Keeps.refl _) | with_reducible (refine Keeps.ite (fun _ => ?_) (fun _ => ?_)) | with_reducible (refine Keeps.chainAll _ _ (fun _ _ _ => ?_) ?_) | with_reducible (refine Keeps.foldl _ _ (fun _ _ _ => ?_) ?_) | with_reducible (refine Keeps.elim _ _ ?_ (fun _ => ?_)) | simp | split)

theorem execRingNoticeReceive_keeps (p x : Nat) (ccw : Bool) (n hop : Nat) (s : State) (out : State) (hx : execRingNoticeReceive p x ccw n hop s = .next out) : Keeps s.stores out.stores := by
  unfold execRingNoticeReceive onInstance at hx; split at hx
  · (injection hx with hx; subst hx); repeat' (first | with_reducible assumption | with_reducible (first | apply State.ringNotice_keeps | exact Keeps.refl _) | with_reducible (refine Keeps.ite (fun _ => ?_) (fun _ => ?_)) | with_reducible (refine Keeps.chainAll _ _ (fun _ _ _ => ?_) ?_) | with_reducible (refine Keeps.foldl _ _ (fun _ _ _ => ?_) ?_) | with_reducible (refine Keeps.elim _ _ ?_ (fun _ => ?_)) | simp | split)
  · cases hx

theorem execRingRestoreReceive_keeps (p x : Nat) (ccw : Bool) (n hop : Nat) (s : State) (out : State) (hx : execRingRestoreReceive p x ccw n hop s = .next out) : Keeps s.stores out.stores := by
  unfold execRingRestoreReceive onInstance at hx; split at hx
  · (injection hx with hx; subst hx); repeat' (first | with_reducible assumption | with_reducible (first | apply State.ringRestore_keeps | exact Keeps.refl _) | with_reducible (refine Keeps.ite (fun _ => ?_) (fun _ => ?_)) | with_reducible (refine Keeps.chainAll _ _ (fun _ _ _ => ?_) ?_) | with_reducible (refine Keeps.foldl _ _ (fun _ _ _ => ?_) ?_) | with_reducible (refine Keeps.elim _ _ ?_ (fun _ => ?_)) | simp | split)
  · cases hx

theorem State.noticeResend_keeps {v0 : Stores} (s : State) (p : Nat) (hk : Keeps v0 s.stores) : Keeps v0 (State.noticeResend s p).stores := by
  unfold State.noticeResend; repeat' (first | with_reducible assumption | with_reducible (first | apply State.ownNotice_keeps | exact Keeps.refl _) | with_reducible (refine Keeps.ite (fun _ => ?_) (fun _ => ?_)) | with_reducible (refine Keeps.chainAll _ _ (fun _ _ _ => ?_) ?_) | with_reducible (refine Keeps.foldl _ _ (fun _ _ _ => ?_) ?_) | with_reducible (refine Keeps.elim _ _ ?_ (fun _ => ?_)) | simp | split)

theorem execRingNoticeResend_keeps (p : Nat) (s : State) (out : State) (hx : execRingNoticeResend p s = .next out) : Keeps s.stores out.stores := by
  unfold execRingNoticeResend onInstance at hx; split at hx
  · (injection hx with hx; subst hx); repeat' (first | with_reducible assumption | with_reducible (first | apply State.noticeResend_keeps | exact Keeps.refl _) | with_reducible (refine Keeps.ite (fun _ => ?_) (fun _ => ?_)) | with_reducible (refine Keeps.chainAll _ _ (fun _ _ _ => ?_) ?_) | with_reducible (refine Keeps.foldl _ _ (fun _ _ _ => ?_) ?_) | with_reducible (refine Keeps.elim _ _ ?_ (fun _ => ?_)) | simp | split)
  · cases hx

theorem State.sendRestore_keeps {v0 : Stores} (s : State) (hk : Keeps v0 s.stores) : Keeps v0 (State.sendRestore s).stores := by
  unfold State.sendRestore; repeat' (first | with_reducible assumption | with_reducible (first | apply State.ownNotice_keeps | exact Keeps.refl _) | with_reducible (refine Keeps.ite (fun _ => ?_) (fun _ => ?_)) | with_reducible (refine Keeps.chainAll _ _ (fun _ _ _ => ?_) ?_) | with_reducible (refine Keeps.foldl _ _ (fun _ _ _ => ?_) ?_) | with_reducible (refine Keeps.elim _ _ ?_ (fun _ => ?_)) | simp | split)

theorem State.egTake_keeps {v0 : Stores} (s : State) (c n fuel : Nat) (hk : Keeps v0 s.stores) : Keeps v0 (s.egTake c n fuel).stores := by
  induction fuel generalizing s n with
  | zero => exact hk
  | succ k ih =>
    unfold State.egTake; dsimp only
    split
    · exact hk
    split
    · refine ih _ _ ?_
      apply State.settle_keeps
      rw [State.setQueue_stores]
      exact hk
    · rw [State.setQueue_stores]; exact hk

theorem State.egSkip_keeps {v0 : Stores} (s : State) (c k : Nat) (hk : Keeps v0 s.stores) : Keeps v0 (State.egSkip s c k).stores := by
  unfold State.egSkip; repeat' (first | with_reducible assumption | with_reducible (first | apply State.settle_keeps | exact Keeps.refl _) | with_reducible (refine Keeps.ite (fun _ => ?_) (fun _ => ?_)) | with_reducible (refine Keeps.chainAll _ _ (fun _ _ _ => ?_) ?_) | with_reducible (refine Keeps.foldl _ _ (fun _ _ _ => ?_) ?_) | with_reducible (refine Keeps.elim _ _ ?_ (fun _ => ?_)) | simp | split)

theorem State.egressBuild_keeps {v0 : Stores} (s : State) (c : Nat) (e : SramRead) (hk : Keeps v0 s.stores) : Keeps v0 (State.egressBuild s c e).stores := by
  unfold State.egressBuild; repeat' (first | with_reducible assumption | with_reducible (first | apply State.egSkip_keeps | apply State.egTake_keeps | (refine State.originate_keeps _ _ _ _ _ _ ‹_› ?_) | apply State.readMeets_keeps | exact Keeps.refl _) | with_reducible (refine Keeps.ite (fun _ => ?_) (fun _ => ?_)) | with_reducible (refine Keeps.chainAll _ _ (fun _ _ _ => ?_) ?_) | with_reducible (refine Keeps.foldl _ _ (fun _ _ _ => ?_) ?_) | with_reducible (refine Keeps.elim _ _ ?_ (fun _ => ?_)) | simp | split)

theorem execEgressPacketBuild_keeps (c : Nat) (e : SramRead) (s : State) (out : State) (hx : execEgressPacketBuild c s e = .next out) : Keeps s.stores out.stores := by
  unfold execEgressPacketBuild onInstance at hx; split at hx
  · (injection hx with hx; subst hx); repeat' (first | with_reducible assumption | with_reducible (first | apply State.egressBuild_keeps | exact Keeps.refl _) | with_reducible (refine Keeps.ite (fun _ => ?_) (fun _ => ?_)) | with_reducible (refine Keeps.chainAll _ _ (fun _ _ _ => ?_) ?_) | with_reducible (refine Keeps.foldl _ _ (fun _ _ _ => ?_) ?_) | with_reducible (refine Keeps.elim _ _ ?_ (fun _ => ?_)) | simp | split)
  · cases hx

theorem execTransmitStart_keeps (p : Nat) (s : State) (out : State) (hx : execTransmitStart p s = .next out) : Keeps s.stores out.stores := by
  unfold execTransmitStart onInstance at hx; split at hx
  · (injection hx with hx; subst hx); repeat' (first | with_reducible assumption | with_reducible (first | exact Keeps.refl _) | with_reducible (refine Keeps.ite (fun _ => ?_) (fun _ => ?_)) | with_reducible (refine Keeps.chainAll _ _ (fun _ _ _ => ?_) ?_) | simp | split)
  · cases hx

theorem State.dropCopies_keeps {v0 : Stores} (s : State) (b : Nat) (hk : Keeps v0 s.stores) : Keeps v0 (State.dropCopies s b).stores := by
  unfold State.dropCopies; repeat' (first | with_reducible assumption | with_reducible (first | apply State.release_keeps | exact Keeps.refl _) | with_reducible (refine Keeps.ite (fun _ => ?_) (fun _ => ?_)) | with_reducible (refine Keeps.chainAll _ _ (fun _ _ _ => ?_) ?_) | with_reducible (refine Keeps.foldl _ _ (fun _ _ _ => ?_) ?_) | with_reducible (refine Keeps.elim _ _ ?_ (fun _ => ?_)) | simp | split)

theorem State.packetMeets_keeps {v0 : Stores} (s : State) (b : Nat) (e : SramRead) (hk : Keeps v0 s.stores) : Keeps v0 (State.packetMeets s b e).stores := by
  unfold State.packetMeets; repeat' (first | with_reducible assumption | with_reducible (first | apply State.dropCopies_keeps | exact Keeps.refl _) | with_reducible (refine Keeps.ite (fun _ => ?_) (fun _ => ?_)) | with_reducible (refine Keeps.chainAll _ _ (fun _ _ _ => ?_) ?_) | with_reducible (refine Keeps.foldl _ _ (fun _ _ _ => ?_) ?_) | with_reducible (refine Keeps.elim _ _ ?_ (fun _ => ?_)) | simp | split)

theorem State.transmitEnd_keeps {v0 : Stores} (s : State) (p : Nat) (e : SramRead) (hk : Keeps v0 s.stores) : Keeps v0 (State.transmitEnd s p e).stores := by
  unfold State.transmitEnd; repeat' (first | with_reducible assumption | with_reducible (first | apply State.packetMeets_keeps | apply State.release_keeps | exact Keeps.refl _) | with_reducible (refine Keeps.ite (fun _ => ?_) (fun _ => ?_)) | with_reducible (refine Keeps.chainAll _ _ (fun _ _ _ => ?_) ?_) | with_reducible (refine Keeps.foldl _ _ (fun _ _ _ => ?_) ?_) | with_reducible (refine Keeps.elim _ _ ?_ (fun _ => ?_)) | simp | split)

theorem execTransmitEnd_keeps (p : Nat) (e : SramRead) (s : State) (out : State) (hx : execTransmitEnd p s e = .next out) : Keeps s.stores out.stores := by
  unfold execTransmitEnd onInstance at hx; split at hx
  · (injection hx with hx; subst hx); repeat' (first | with_reducible assumption | with_reducible (first | apply State.transmitEnd_keeps | exact Keeps.refl _) | with_reducible (refine Keeps.ite (fun _ => ?_) (fun _ => ?_)) | with_reducible (refine Keeps.chainAll _ _ (fun _ _ _ => ?_) ?_) | with_reducible (refine Keeps.foldl _ _ (fun _ _ _ => ?_) ?_) | with_reducible (refine Keeps.elim _ _ ?_ (fun _ => ?_)) | simp | split)
  · cases hx

theorem execBufferAlloc_keeps (r : Requester) (frame : List Byte) (strict : Bool) (s : State) (out : State) (hx : execBufferAlloc r frame strict s = .next out) : Keeps s.stores out.stores := by
  unfold execBufferAlloc onInstance at hx; split at hx
  · (injection hx with hx; subst hx); repeat' (first | with_reducible assumption | with_reducible (first | apply State.bufferAlloc_keeps | exact Keeps.refl _) | with_reducible (refine Keeps.ite (fun _ => ?_) (fun _ => ?_)) | with_reducible (refine Keeps.chainAll _ _ (fun _ _ _ => ?_) ?_) | with_reducible (refine Keeps.foldl _ _ (fun _ _ _ => ?_) ?_) | with_reducible (refine Keeps.elim _ _ ?_ (fun _ => ?_)) | simp | split)
  · cases hx

theorem execBpmCacheRefill_keeps (s : State) (out : State) (hx : execBpmCacheRefill s = .next out) : Keeps s.stores out.stores := by
  unfold execBpmCacheRefill at hx; (injection hx with hx; subst hx); repeat' (first | with_reducible assumption | with_reducible (first | apply State.cacheRefill_keeps | exact Keeps.refl _) | with_reducible (refine Keeps.ite (fun _ => ?_) (fun _ => ?_)) | with_reducible (refine Keeps.chainAll _ _ (fun _ _ _ => ?_) ?_) | with_reducible (refine Keeps.foldl _ _ (fun _ _ _ => ?_) ?_) | with_reducible (refine Keeps.elim _ _ ?_ (fun _ => ?_)) | simp | split)

theorem execCleftPendingEnter_keeps (q : Nat) (s : State) (out : State) (hx : execCleftPendingEnter q s = .next out) : Keeps s.stores out.stores := by
  unfold execCleftPendingEnter onInstance at hx; split at hx
  · (injection hx with hx; subst hx); repeat' (first | with_reducible assumption | with_reducible (first | apply State.enterCleft_keeps | exact Keeps.refl _) | with_reducible (refine Keeps.ite (fun _ => ?_) (fun _ => ?_)) | with_reducible (refine Keeps.chainAll _ _ (fun _ _ _ => ?_) ?_) | with_reducible (refine Keeps.foldl _ _ (fun _ _ _ => ?_) ?_) | with_reducible (refine Keeps.elim _ _ ?_ (fun _ => ?_)) | simp | split)
  · cases hx

theorem execSpoilRefill_keeps (q : Nat) (bad : Bool) (s : State) (out : State) (hx : execSpoilRefill q bad s = .next out) : Keeps s.stores out.stores := by
  unfold execSpoilRefill onInstance at hx; split at hx
  · (injection hx with hx; subst hx); repeat' (first | with_reducible assumption | with_reducible (first | apply State.refill_keeps | exact Keeps.refl _) | with_reducible (refine Keeps.ite (fun _ => ?_) (fun _ => ?_)) | with_reducible (refine Keeps.chainAll _ _ (fun _ _ _ => ?_) ?_) | with_reducible (refine Keeps.foldl _ _ (fun _ _ _ => ?_) ?_) | with_reducible (refine Keeps.elim _ _ ?_ (fun _ => ?_)) | simp | split)
  · cases hx

theorem execTmgSweep_keeps (k : Nat) (s : State) (out : State) (hx : execTmgSweep k s = .next out) : Keeps s.stores out.stores := by
  unfold execTmgSweep onInstance at hx; split at hx
  · (injection hx with hx; subst hx); repeat' (first | with_reducible assumption | with_reducible (first | exact Keeps.refl _) | with_reducible (refine Keeps.ite (fun _ => ?_) (fun _ => ?_)) | with_reducible (refine Keeps.chainAll _ _ (fun _ _ _ => ?_) ?_) | simp | split)
  · cases hx

theorem execTmgQueueSample_keeps (p : Nat) (s : State) (out : State) (hx : execTmgQueueSample p s = .next out) : Keeps s.stores out.stores := by
  unfold execTmgQueueSample onInstance at hx; split at hx
  · (injection hx with hx; subst hx); repeat' (first | with_reducible assumption | with_reducible (first | exact Keeps.refl _) | with_reducible (refine Keeps.ite (fun _ => ?_) (fun _ => ?_)) | with_reducible (refine Keeps.chainAll _ _ (fun _ _ _ => ?_) ?_) | with_reducible (refine Keeps.foldl _ _ (fun _ _ _ => ?_) ?_) | with_reducible (refine Keeps.elim _ _ ?_ (fun _ => ?_)) | simp | split)
  · cases hx

theorem execMeterConfig_keeps (m : Nat) (s : State) (out : State) (hx : execMeterConfig m s = .next out) : Keeps s.stores out.stores := by
  unfold execMeterConfig onMailbox onInstance at hx; split at hx
  · (injection hx with hx; subst hx); repeat' (first | with_reducible assumption | with_reducible (first | exact Keeps.refl _) | with_reducible (refine Keeps.ite (fun _ => ?_) (fun _ => ?_)) | with_reducible (refine Keeps.chainAll _ _ (fun _ _ _ => ?_) ?_) | simp | split)
  · cases hx

theorem execShaperConfig_keeps (m : Nat) (s : State) (out : State) (hx : execShaperConfig m s = .next out) : Keeps s.stores out.stores := by
  unfold execShaperConfig onMailbox onInstance at hx; split at hx
  · (injection hx with hx; subst hx); repeat' (first | with_reducible assumption | with_reducible (first | exact Keeps.refl _) | with_reducible (refine Keeps.ite (fun _ => ?_) (fun _ => ?_)) | with_reducible (refine Keeps.chainAll _ _ (fun _ _ _ => ?_) ?_) | simp | split)
  · cases hx

theorem execQueueWeightSet_keeps (m : Nat) (s : State) (out : State) (hx : execQueueWeightSet m s = .next out) : Keeps s.stores out.stores := by
  unfold execQueueWeightSet onMailbox onInstance at hx; split at hx
  · (injection hx with hx; subst hx); repeat' (first | with_reducible assumption | with_reducible (first | exact Keeps.refl _) | with_reducible (refine Keeps.ite (fun _ => ?_) (fun _ => ?_)) | with_reducible (refine Keeps.chainAll _ _ (fun _ _ _ => ?_) ?_) | simp | split)
  · cases hx

end Sys2Proof.Machine
end

