-- ==== Sys2Proof/Laws/RunIngress.lean ====
section
/-! SUPPORT. The commands and operations of Machine/Ingress.lean that write a memory: what they keep. -/

set_option Elab.async false

namespace Sys2Proof.Machine

theorem execPixelFrameReceive_keeps (p : Nat) (f : List Byte) (err : Bool) (s : State) (out : State) (hx : execPixelFrameReceive p f err s = .next out) : Keeps s.stores out.stores := by
  unfold execPixelFrameReceive onInstance at hx; split at hx
  · (injection hx with hx; subst hx); repeat' (first | with_reducible assumption | with_reducible (first | exact Keeps.refl _) | with_reducible (refine Keeps.ite (fun _ => ?_) (fun _ => ?_)) | with_reducible (refine Keeps.chainAll _ _ (fun _ _ _ => ?_) ?_) | simp | split)
  · cases hx

theorem execIngCloseExpire_keeps (p : Nat) (s : State) (out : State) (hx : execIngCloseExpire p s = .next out) : Keeps s.stores out.stores := by
  unfold execIngCloseExpire onInstance at hx; split at hx
  · (injection hx with hx; subst hx); repeat' (first | with_reducible assumption | with_reducible (first | exact Keeps.refl _) | with_reducible (refine Keeps.ite (fun _ => ?_) (fun _ => ?_)) | with_reducible (refine Keeps.chainAll _ _ (fun _ _ _ => ?_) ?_) | simp | split)
  · cases hx

theorem execPixelLinkUp_keeps (p : Nat) (s : State) (out : State) (hx : execPixelLinkUp p s = .next out) : Keeps s.stores out.stores := by
  unfold execPixelLinkUp onInstance at hx; split at hx
  · (injection hx with hx; subst hx); repeat' (first | with_reducible assumption | with_reducible (first | exact Keeps.refl _) | with_reducible (refine Keeps.ite (fun _ => ?_) (fun _ => ?_)) | with_reducible (refine Keeps.chainAll _ _ (fun _ _ _ => ?_) ?_) | simp | split)
  · cases hx

theorem execPixelLinkLoss_keeps (p : Nat) (s : State) (out : State) (hx : execPixelLinkLoss p s = .next out) : Keeps s.stores out.stores := by
  unfold execPixelLinkLoss onInstance at hx; split at hx
  · (injection hx with hx; subst hx); repeat' (first | with_reducible assumption | with_reducible (first | exact Keeps.refl _) | with_reducible (refine Keeps.ite (fun _ => ?_) (fun _ => ?_)) | with_reducible (refine Keeps.chainAll _ _ (fun _ _ _ => ?_) ?_) | simp | split)
  · cases hx

theorem execIngressSet_keeps (m : Nat) (s : State) (out : State) (hx : execIngressSet m s = .next out) : Keeps s.stores out.stores := by
  unfold execIngressSet onMailbox onInstance at hx; split at hx
  · (injection hx with hx; subst hx); repeat' (first | with_reducible assumption | with_reducible (first | exact Keeps.refl _) | with_reducible (refine Keeps.ite (fun _ => ?_) (fun _ => ?_)) | with_reducible (refine Keeps.chainAll _ _ (fun _ _ _ => ?_) ?_) | simp | split)
  · cases hx

end Sys2Proof.Machine
end

