-- ==== Sys2Proof/Laws/RunHaul.lean ====
section
/-! SUPPORT. The commands and operations of Machine/Haul.lean that write a memory: what they keep. -/

set_option Elab.async false

namespace Sys2Proof.Machine

theorem State.startCopies_keeps {v0 : Stores} (s : State) (p : Nat) (r : RxFrame) (x : Plan) (a : Nat) (hk : Keeps v0 s.stores) : Keeps v0 (State.startCopies s p r x a).stores := by
  unfold State.startCopies; repeat' (first | with_reducible assumption | with_reducible (first | (refine State.allocPacket_keeps _ _ _ _ _ _ ‹_› ?_) | apply State.capture_keeps | apply State.enqueueCopy_keeps | apply State.forward_keeps | exact Keeps.refl _) | with_reducible (refine Keeps.ite (fun _ => ?_) (fun _ => ?_)) | with_reducible (refine Keeps.chainAll _ _ (fun _ _ _ => ?_) ?_) | with_reducible (refine Keeps.foldl _ _ (fun _ _ _ => ?_) ?_) | with_reducible (refine Keeps.elim _ _ ?_ (fun _ => ?_)) | simp | split)

theorem State.route_keeps {v0 : Stores} (s : State) (p : Nat) (r : RxFrame) (hk : Keeps v0 s.stores) : Keeps v0 (State.route s p r).stores := by
  unfold State.route; repeat' (first | with_reducible assumption | with_reducible (first | apply State.startCopies_keeps | exact Keeps.refl _) | with_reducible (refine Keeps.ite (fun _ => ?_) (fun _ => ?_)) | with_reducible (refine Keeps.chainAll _ _ (fun _ _ _ => ?_) ?_) | with_reducible (refine Keeps.foldl _ _ (fun _ _ _ => ?_) ?_) | with_reducible (refine Keeps.elim _ _ ?_ (fun _ => ?_)) | simp | split)

theorem State.fixedRules_keeps {v0 : Stores} (s : State) (p : Nat) (r : RxFrame) (hk : Keeps v0 s.stores) : Keeps v0 (State.fixedRules s p r).stores := by
  unfold State.fixedRules; repeat' (first | with_reducible assumption | with_reducible (first | apply State.route_keeps | apply State.startCopies_keeps | exact Keeps.refl _) | with_reducible (refine Keeps.ite (fun _ => ?_) (fun _ => ?_)) | with_reducible (refine Keeps.chainAll _ _ (fun _ _ _ => ?_) ?_) | with_reducible (refine Keeps.foldl _ _ (fun _ _ _ => ?_) ?_) | with_reducible (refine Keeps.elim _ _ ?_ (fun _ => ?_)) | simp | split)

theorem State.classify_keeps {v0 : Stores} (s : State) (p : Nat) (r : RxFrame) (hk : Keeps v0 s.stores) : Keeps v0 (State.classify s p r).stores := by
  unfold State.classify; repeat' (first | with_reducible assumption | with_reducible (first | apply State.fixedRules_keeps | exact Keeps.refl _) | with_reducible (refine Keeps.ite (fun _ => ?_) (fun _ => ?_)) | with_reducible (refine Keeps.chainAll _ _ (fun _ _ _ => ?_) ?_) | with_reducible (refine Keeps.foldl _ _ (fun _ _ _ => ?_) ?_) | with_reducible (refine Keeps.elim _ _ ?_ (fun _ => ?_)) | simp | split)

theorem State.frameReceive_keeps {v0 : Stores} (s : State) (p : Nat) (frame : List Byte) (hk : Keeps v0 s.stores) : Keeps v0 (State.frameReceive s p frame).stores := by
  unfold State.frameReceive; repeat' (first | with_reducible assumption | with_reducible (first | apply State.classify_keeps | exact Keeps.refl _) | with_reducible (refine Keeps.ite (fun _ => ?_) (fun _ => ?_)) | with_reducible (refine Keeps.chainAll _ _ (fun _ _ _ => ?_) ?_) | with_reducible (refine Keeps.foldl _ _ (fun _ _ _ => ?_) ?_) | with_reducible (refine Keeps.elim _ _ ?_ (fun _ => ?_)) | simp | split)

theorem execHaulFrameReceive_keeps (p : Nat) (frame : List Byte) (s : State) (out : State) (hx : execHaulFrameReceive p frame s = .next out) : Keeps s.stores out.stores := by
  unfold execHaulFrameReceive onInstance at hx; split at hx
  · (injection hx with hx; subst hx); repeat' (first | with_reducible assumption | with_reducible (first | apply State.frameReceive_keeps | exact Keeps.refl _) | with_reducible (refine Keeps.ite (fun _ => ?_) (fun _ => ?_)) | with_reducible (refine Keeps.chainAll _ _ (fun _ _ _ => ?_) ?_) | with_reducible (refine Keeps.foldl _ _ (fun _ _ _ => ?_) ?_) | with_reducible (refine Keeps.elim _ _ ?_ (fun _ => ?_)) | simp | split)
  · cases hx

theorem State.controlCopy_keeps {v0 : Stores} (s : State) (p c : Nat) (r : RxFrame) (hk : Keeps v0 s.stores) : Keeps v0 (State.controlCopy s p c r).stores := by
  unfold State.controlCopy; repeat' (first | with_reducible assumption | with_reducible (first | apply State.offer_keeps | exact Keeps.refl _) | with_reducible (refine Keeps.ite (fun _ => ?_) (fun _ => ?_)) | with_reducible (refine Keeps.chainAll _ _ (fun _ _ _ => ?_) ?_) | with_reducible (refine Keeps.foldl _ _ (fun _ _ _ => ?_) ?_) | with_reducible (refine Keeps.elim _ _ ?_ (fun _ => ?_)) | simp | split)

theorem State.capture_keeps {v0 : Stores} (s : State) (p : Nat) (r : RxFrame) (hk : Keeps v0 s.stores) : Keeps v0 (State.capture s p r).stores := by
  unfold State.capture; repeat' (first | with_reducible assumption | with_reducible (first | apply State.putRing_keeps | exact Keeps.refl _) | with_reducible (refine Keeps.ite (fun _ => ?_) (fun _ => ?_)) | with_reducible (refine Keeps.chainAll _ _ (fun _ _ _ => ?_) ?_) | with_reducible (refine Keeps.foldl _ _ (fun _ _ _ => ?_) ?_) | with_reducible (refine Keeps.elim _ _ ?_ (fun _ => ?_)) | simp | split)

theorem State.localDeliver_keeps {v0 : Stores} (s : State) (c : Nat) (h : Parsed) (arrival : Nat) (pay : List Byte) (whole : Bool) (hk : Keeps v0 s.stores) : Keeps v0 (State.localDeliver s c h arrival pay whole).stores := by
  unfold State.localDeliver; repeat' (first | with_reducible assumption | with_reducible (first | apply State.offer_keeps | exact Keeps.refl _) | with_reducible (refine Keeps.ite (fun _ => ?_) (fun _ => ?_)) | with_reducible (refine Keeps.chainAll _ _ (fun _ _ _ => ?_) ?_) | with_reducible (refine Keeps.foldl _ _ (fun _ _ _ => ?_) ?_) | with_reducible (refine Keeps.elim _ _ ?_ (fun _ => ?_)) | simp | split)

theorem State.fragDeliver_keeps {v0 : Stores} (s : State) (k : Nat) (arrival : Nat) (whole : Bool) (hk : Keeps v0 s.stores) : Keeps v0 (State.fragDeliver s k arrival whole).stores := by
  unfold State.fragDeliver; repeat' (first | with_reducible assumption | with_reducible (first | apply State.localDeliver_keeps | exact Keeps.refl _) | with_reducible (refine Keeps.ite (fun _ => ?_) (fun _ => ?_)) | with_reducible (refine Keeps.chainAll _ _ (fun _ _ _ => ?_) ?_) | with_reducible (refine Keeps.foldl _ _ (fun _ _ _ => ?_) ?_) | with_reducible (refine Keeps.elim _ _ ?_ (fun _ => ?_)) | simp | split)

theorem State.fragPass_keeps {v0 : Stores} (s : State) (k arrival : Nat) (h : Parsed) (f : List Byte) (hk : Keeps v0 s.stores) : Keeps v0 (State.fragPass s k arrival h f).stores := by
  unfold State.fragPass; repeat' (first | with_reducible assumption | with_reducible (first | apply State.fragDeliver_keeps | exact Keeps.refl _) | with_reducible (refine Keeps.ite (fun _ => ?_) (fun _ => ?_)) | with_reducible (refine Keeps.chainAll _ _ (fun _ _ _ => ?_) ?_) | with_reducible (refine Keeps.foldl _ _ (fun _ _ _ => ?_) ?_) | with_reducible (refine Keeps.elim _ _ ?_ (fun _ => ?_)) | simp | split)

theorem State.fragAge_keeps {v0 : Stores} (s : State) (k : Nat) (hk : Keeps v0 s.stores) : Keeps v0 (State.fragAge s k).stores := by
  unfold State.fragAge; repeat' (first | with_reducible assumption | with_reducible (first | apply State.fragDeliver_keeps | exact Keeps.refl _) | with_reducible (refine Keeps.ite (fun _ => ?_) (fun _ => ?_)) | with_reducible (refine Keeps.chainAll _ _ (fun _ _ _ => ?_) ?_) | with_reducible (refine Keeps.foldl _ _ (fun _ _ _ => ?_) ?_) | with_reducible (refine Keeps.elim _ _ ?_ (fun _ => ?_)) | simp | split)

theorem execFragmentAgeOut_keeps (k : Nat) (s : State) (out : State) (hx : execFragmentAgeOut k s = .next out) : Keeps s.stores out.stores := by
  unfold execFragmentAgeOut onInstance at hx; split at hx
  · (injection hx with hx; subst hx); repeat' (first | with_reducible assumption | with_reducible (first | apply State.fragAge_keeps | exact Keeps.refl _) | with_reducible (refine Keeps.ite (fun _ => ?_) (fun _ => ?_)) | with_reducible (refine Keeps.chainAll _ _ (fun _ _ _ => ?_) ?_) | with_reducible (refine Keeps.foldl _ _ (fun _ _ _ => ?_) ?_) | with_reducible (refine Keeps.elim _ _ ?_ (fun _ => ?_)) | simp | split)
  · cases hx

theorem State.ringFrame_keeps {v0 : Stores} (s : State) (p : Nat) (h : Parsed) (f : List Byte) (hk : Keeps v0 s.stores) : Keeps v0 (State.ringFrame s p h f).stores := by
  unfold State.ringFrame; repeat' (first | with_reducible assumption | with_reducible (first | apply State.ringNotice_keeps | apply State.ringRestore_keeps | exact Keeps.refl _) | with_reducible (refine Keeps.ite (fun _ => ?_) (fun _ => ?_)) | with_reducible (refine Keeps.chainAll _ _ (fun _ _ _ => ?_) ?_) | with_reducible (refine Keeps.foldl _ _ (fun _ _ _ => ?_) ?_) | with_reducible (refine Keeps.elim _ _ ?_ (fun _ => ?_)) | simp | split)

theorem State.rxDeliver_keeps {v0 : Stores} (s : State) (p : Nat) (r : RxFrame) (hk : Keeps v0 s.stores) : Keeps v0 (State.rxDeliver s p r).stores := by
  unfold State.rxDeliver; repeat' (first | with_reducible assumption | with_reducible (first | apply State.capture_keeps | apply State.controlCopy_keeps | apply State.fragPass_keeps | apply State.localDeliver_keeps | apply State.ringFrame_keeps | exact Keeps.refl _) | with_reducible (refine Keeps.ite (fun _ => ?_) (fun _ => ?_)) | with_reducible (refine Keeps.chainAll _ _ (fun _ _ _ => ?_) ?_) | with_reducible (refine Keeps.foldl _ _ (fun _ _ _ => ?_) ?_) | with_reducible (refine Keeps.elim _ _ ?_ (fun _ => ?_)) | simp | split)

theorem State.settleRx_keeps {v0 : Stores} (s : State) (r : RxFrame) (bad : Bool) (hk : Keeps v0 s.stores) : Keeps v0 (State.settleRx s r bad).stores := by
  unfold State.settleRx; repeat' (first | with_reducible assumption | with_reducible (first | apply State.freeChain_keeps | apply State.setRef_keeps | exact Keeps.refl _) | with_reducible (refine Keeps.ite (fun _ => ?_) (fun _ => ?_)) | with_reducible (refine Keeps.chainAll _ _ (fun _ _ _ => ?_) ?_) | with_reducible (refine Keeps.foldl _ _ (fun _ _ _ => ?_) ?_) | with_reducible (refine Keeps.elim _ _ ?_ (fun _ => ?_)) | simp | split)

theorem State.frameEnd_keeps {v0 : Stores} (s : State) (p : Nat) (lost : Bool) (hk : Keeps v0 s.stores) : Keeps v0 (State.frameEnd s p lost).stores := by
  unfold State.frameEnd; repeat' (first | with_reducible assumption | with_reducible (first | apply State.rxDeliver_keeps | apply State.settleRx_keeps | exact Keeps.refl _) | with_reducible (refine Keeps.ite (fun _ => ?_) (fun _ => ?_)) | with_reducible (refine Keeps.chainAll _ _ (fun _ _ _ => ?_) ?_) | with_reducible (refine Keeps.foldl _ _ (fun _ _ _ => ?_) ?_) | with_reducible (refine Keeps.elim _ _ ?_ (fun _ => ?_)) | simp | split)

theorem execHaulFrameEnd_keeps (p : Nat) (lost : Bool) (s : State) (out : State) (hx : execHaulFrameEnd p lost s = .next out) : Keeps s.stores out.stores := by
  unfold execHaulFrameEnd onInstance at hx; split at hx
  · (injection hx with hx; subst hx); repeat' (first | with_reducible assumption | with_reducible (first | apply State.frameEnd_keeps | exact Keeps.refl _) | with_reducible (refine Keeps.ite (fun _ => ?_) (fun _ => ?_)) | with_reducible (refine Keeps.chainAll _ _ (fun _ _ _ => ?_) ?_) | with_reducible (refine Keeps.foldl _ _ (fun _ _ _ => ?_) ?_) | with_reducible (refine Keeps.elim _ _ ?_ (fun _ => ?_)) | simp | split)
  · cases hx

theorem State.remoteResult_keeps {v0 : Stores} (m : Nat) (s : State) (hk : Keeps v0 s.stores) : Keeps v0 (State.remoteResult m s).stores := by
  unfold State.remoteResult; repeat' (first | with_reducible assumption | with_reducible (first | (refine State.originate_keeps _ _ _ _ _ _ ‹_› ?_) | exact Keeps.refl _) | with_reducible (refine Keeps.ite (fun _ => ?_) (fun _ => ?_)) | with_reducible (refine Keeps.chainAll _ _ (fun _ _ _ => ?_) ?_) | with_reducible (refine Keeps.foldl _ _ (fun _ _ _ => ?_) ?_) | with_reducible (refine Keeps.elim _ _ ?_ (fun _ => ?_)) | simp | split)

theorem State.remoteResults_keeps {v0 : Stores} (s : State) (hk : Keeps v0 s.stores) : Keeps v0 (State.remoteResults s).stores := by
  unfold State.remoteResults; repeat' (first | with_reducible assumption | with_reducible (first | apply State.remoteResult_keeps | exact Keeps.refl _) | with_reducible (refine Keeps.ite (fun _ => ?_) (fun _ => ?_)) | with_reducible (refine Keeps.chainAll _ _ (fun _ _ _ => ?_) ?_) | with_reducible (refine Keeps.foldl _ _ (fun _ _ _ => ?_) ?_) | with_reducible (refine Keeps.elim _ _ ?_ (fun _ => ?_)) | simp | split)

theorem State.nextRead_keeps {v0 : Stores} (s : State) (q : Nat) (e : SramRead) (hk : Keeps v0 s.stores) : Keeps v0 (State.nextRead s q e).stores := by
  unfold State.nextRead; repeat' (first | with_reducible assumption | with_reducible (first | apply State.endRead_keeps | apply State.readMeets_keeps | exact Keeps.refl _) | with_reducible (refine Keeps.ite (fun _ => ?_) (fun _ => ?_)) | with_reducible (refine Keeps.chainAll _ _ (fun _ _ _ => ?_) ?_) | with_reducible (refine Keeps.foldl _ _ (fun _ _ _ => ?_) ?_) | with_reducible (refine Keeps.elim _ _ ?_ (fun _ => ?_)) | simp | split)

theorem State.dequeue_keeps {v0 : Stores} (s : State) (q : Nat) (e : SramRead) (hk : Keeps v0 s.stores) : Keeps v0 (State.dequeue s q e).stores := by
  unfold State.dequeue; repeat' (first | with_reducible assumption | with_reducible (first | apply State.beginRead_keeps | apply State.deliver_keeps | apply State.discardFront_keeps | apply State.nextRead_keeps | exact Keeps.refl _) | with_reducible (refine Keeps.ite (fun _ => ?_) (fun _ => ?_)) | with_reducible (refine Keeps.chainAll _ _ (fun _ _ _ => ?_) ?_) | with_reducible (refine Keeps.foldl _ _ (fun _ _ _ => ?_) ?_) | with_reducible (refine Keeps.elim _ _ ?_ (fun _ => ?_)) | simp | split)

theorem execSpillDequeue_keeps (q : Nat) (e : SramRead) (s : State) (out : State) (hx : execSpillDequeue q s e = .next out) : Keeps s.stores out.stores := by
  unfold execSpillDequeue onInstance at hx; split at hx
  · (injection hx with hx; subst hx); repeat' (first | with_reducible assumption | with_reducible (first | apply State.dequeue_keeps | exact Keeps.refl _) | with_reducible (refine Keeps.ite (fun _ => ?_) (fun _ => ?_)) | with_reducible (refine Keeps.chainAll _ _ (fun _ _ _ => ?_) ?_) | with_reducible (refine Keeps.foldl _ _ (fun _ _ _ => ?_) ?_) | with_reducible (refine Keeps.elim _ _ ?_ (fun _ => ?_)) | simp | split)
  · cases hx

end Sys2Proof.Machine
end

