-- ==== Sys2Proof/Laws/RunWalls.lean ====
section
/-! SUPPORT. The commands and operations of Machine/Walls.lean that write a memory: what they keep. -/

set_option Elab.async false

namespace Sys2Proof.Machine

theorem execWallOpen_keeps (m : Nat) (s : State) (out : State) (hx : execWallOpen m s = .next out) : Keeps s.stores out.stores := by
  unfold execWallOpen onMailbox onInstance at hx; split at hx
  · (injection hx with hx; subst hx); repeat' (first | with_reducible assumption | with_reducible (first | exact Keeps.refl _) | with_reducible (refine Keeps.ite (fun _ => ?_) (fun _ => ?_)) | with_reducible (refine Keeps.chainAll _ _ (fun _ _ _ => ?_) ?_) | simp | split)
  · cases hx

theorem execWallClose_keeps (m : Nat) (s : State) (out : State) (hx : execWallClose m s = .next out) : Keeps s.stores out.stores := by
  unfold execWallClose onMailbox onInstance at hx; split at hx
  · (injection hx with hx; subst hx); repeat' (first | with_reducible assumption | with_reducible (first | exact Keeps.refl _) | with_reducible (refine Keeps.ite (fun _ => ?_) (fun _ => ?_)) | with_reducible (refine Keeps.chainAll _ _ (fun _ _ _ => ?_) ?_) | simp | split)
  · cases hx

theorem execTileMapLoad_keeps (m : Nat) (s : State) (out : State) (hx : execTileMapLoad m s = .next out) : Keeps s.stores out.stores := by
  unfold execTileMapLoad onMailbox onInstance at hx; split at hx
  · (injection hx with hx; subst hx); repeat' (first | with_reducible assumption | with_reducible (first | exact Keeps.refl _) | with_reducible (refine Keeps.ite (fun _ => ?_) (fun _ => ?_)) | with_reducible (refine Keeps.chainAll _ _ (fun _ _ _ => ?_) ?_) | simp | split)
  · cases hx

theorem execContextCreate_keeps (m : Nat) (s : State) (out : State) (hx : execContextCreate m s = .next out) : Keeps s.stores out.stores := by
  unfold execContextCreate onMailbox onInstance at hx; split at hx
  · (injection hx with hx; subst hx); repeat' (first | with_reducible assumption | with_reducible (first | exact Keeps.refl _) | with_reducible (refine Keeps.ite (fun _ => ?_) (fun _ => ?_)) | with_reducible (refine Keeps.chainAll _ _ (fun _ _ _ => ?_) ?_) | simp | split)
  · cases hx

theorem execContextDestroy_keeps (m : Nat) (s : State) (out : State) (hx : execContextDestroy m s = .next out) : Keeps s.stores out.stores := by
  unfold execContextDestroy onMailbox onInstance at hx; split at hx
  · (injection hx with hx; subst hx); repeat' (first | with_reducible assumption | with_reducible (first | exact Keeps.refl _) | with_reducible (refine Keeps.ite (fun _ => ?_) (fun _ => ?_)) | with_reducible (refine Keeps.chainAll _ _ (fun _ _ _ => ?_) ?_) | simp | split)
  · cases hx

theorem execContextStats_keeps (m : Nat) (s : State) (out : State) (hx : execContextStats m s = .next out) : Keeps s.stores out.stores := by
  unfold execContextStats onMailbox onInstance at hx; split at hx
  · (injection hx with hx; subst hx); repeat' (first | with_reducible assumption | with_reducible (first | exact Keeps.refl _) | with_reducible (refine Keeps.ite (fun _ => ?_) (fun _ => ?_)) | with_reducible (refine Keeps.chainAll _ _ (fun _ _ _ => ?_) ?_) | simp | split)
  · cases hx

theorem execEffortSet_keeps (m : Nat) (s : State) (out : State) (hx : execEffortSet m s = .next out) : Keeps s.stores out.stores := by
  unfold execEffortSet onMailbox onInstance at hx; split at hx
  · (injection hx with hx; subst hx); repeat' (first | with_reducible assumption | with_reducible (first | exact Keeps.refl _) | with_reducible (refine Keeps.ite (fun _ => ?_) (fun _ => ?_)) | with_reducible (refine Keeps.chainAll _ _ (fun _ _ _ => ?_) ?_) | simp | split)
  · cases hx

theorem execPlay_keeps (m : Nat) (s : State) (out : State) (hx : execPlay m s = .next out) : Keeps s.stores out.stores := by
  unfold execPlay onMailbox onInstance at hx; split at hx
  · (injection hx with hx; subst hx); repeat' (first | with_reducible assumption | with_reducible (first | exact Keeps.refl _) | with_reducible (refine Keeps.ite (fun _ => ?_) (fun _ => ?_)) | with_reducible (refine Keeps.chainAll _ _ (fun _ _ _ => ?_) ?_) | simp | split)
  · cases hx

theorem execPause_keeps (m : Nat) (s : State) (out : State) (hx : execPause m s = .next out) : Keeps s.stores out.stores := by
  unfold execPause onMailbox onInstance at hx; split at hx
  · (injection hx with hx; subst hx); repeat' (first | with_reducible assumption | with_reducible (first | exact Keeps.refl _) | with_reducible (refine Keeps.ite (fun _ => ?_) (fun _ => ?_)) | with_reducible (refine Keeps.chainAll _ _ (fun _ _ _ => ?_) ?_) | simp | split)
  · cases hx

theorem execBedrockLoad_keeps (m : Nat) (s : State) (out : State) (hx : execBedrockLoad m s = .next out) : Keeps s.stores out.stores := by
  unfold execBedrockLoad onMailbox onInstance at hx; split at hx
  · (injection hx with hx; subst hx); repeat' (first | with_reducible assumption | with_reducible (first | exact Keeps.refl _) | with_reducible (refine Keeps.ite (fun _ => ?_) (fun _ => ?_)) | with_reducible (refine Keeps.chainAll _ _ (fun _ _ _ => ?_) ?_) | simp | split)
  · cases hx

theorem execSchParamSet_keeps (m : Nat) (s : State) (out : State) (hx : execSchParamSet m s = .next out) : Keeps s.stores out.stores := by
  unfold execSchParamSet onMailbox onInstance at hx; split at hx
  · (injection hx with hx; subst hx); repeat' (first | with_reducible assumption | with_reducible (first | exact Keeps.refl _) | with_reducible (refine Keeps.ite (fun _ => ?_) (fun _ => ?_)) | with_reducible (refine Keeps.chainAll _ _ (fun _ _ _ => ?_) ?_) | simp | split)
  · cases hx

end Sys2Proof.Machine
end

