-- ==== Sys2Proof/Laws/RunHaulCmd.lean ====
section
/-! SUPPORT. The commands and operations of Machine/HaulCmd.lean that write a memory: what they keep. -/

set_option Elab.async false

namespace Sys2Proof.Machine

theorem State.haulLoss_keeps {v0 : Stores} (s : State) (p : Nat) (fault : Bool) (hk : Keeps v0 s.stores) : Keeps v0 (State.haulLoss s p fault).stores := by
  unfold State.haulLoss; repeat' (first | with_reducible assumption | with_reducible (first | apply State.frameEnd_keeps | apply State.portBreak_keeps | exact Keeps.refl _) | with_reducible (refine Keeps.ite (fun _ => ?_) (fun _ => ?_)) | with_reducible (refine Keeps.chainAll _ _ (fun _ _ _ => ?_) ?_) | with_reducible (refine Keeps.foldl _ _ (fun _ _ _ => ?_) ?_) | with_reducible (refine Keeps.elim _ _ ?_ (fun _ => ?_)) | simp | split)

theorem execHaulLinkLoss_keeps (p : Nat) (fault : Bool) (s : State) (out : State) (hx : execHaulLinkLoss p s fault = .next out) : Keeps s.stores out.stores := by
  unfold execHaulLinkLoss onInstance at hx; split at hx
  · (injection hx with hx; subst hx); repeat' (first | with_reducible assumption | with_reducible (first | apply State.haulLoss_keeps | exact Keeps.refl _) | with_reducible (refine Keeps.ite (fun _ => ?_) (fun _ => ?_)) | with_reducible (refine Keeps.chainAll _ _ (fun _ _ _ => ?_) ?_) | with_reducible (refine Keeps.foldl _ _ (fun _ _ _ => ?_) ?_) | with_reducible (refine Keeps.elim _ _ ?_ (fun _ => ?_)) | simp | split)
  · cases hx

theorem execHaulLinkUp_keeps (p : Nat) (fault : Bool) (s : State) (out : State) (hx : execHaulLinkUp p s fault = .next out) : Keeps s.stores out.stores := by
  unfold execHaulLinkUp onInstance at hx; split at hx
  · (injection hx with hx; subst hx); repeat' (first | with_reducible assumption | with_reducible (first | exact Keeps.refl _) | with_reducible (refine Keeps.ite (fun _ => ?_) (fun _ => ?_)) | with_reducible (refine Keeps.chainAll _ _ (fun _ _ _ => ?_) ?_) | with_reducible (refine Keeps.foldl _ _ (fun _ _ _ => ?_) ?_) | with_reducible (refine Keeps.elim _ _ ?_ (fun _ => ?_)) | simp | split)
  · cases hx

theorem execCommitDone_keeps (s : State) (out : State) (hx : execCommitDone s = .next out) : Keeps s.stores out.stores := by
  unfold execCommitDone at hx; (repeat' split at hx) <;> (try contradiction) <;> cases hx <;> repeat' (first | with_reducible assumption | with_reducible (first | exact Keeps.refl _) | with_reducible (refine Keeps.ite (fun _ => ?_) (fun _ => ?_)) | with_reducible (refine Keeps.chainAll _ _ (fun _ _ _ => ?_) ?_) | simp | split)

theorem execCloneDone_keeps (s : State) (out : State) (hx : execCloneDone s = .next out) : Keeps s.stores out.stores := by
  unfold execCloneDone at hx; (repeat' split at hx) <;> (try contradiction) <;> cases hx <;> repeat' (first | with_reducible assumption | with_reducible (first | exact Keeps.refl _) | with_reducible (refine Keeps.ite (fun _ => ?_) (fun _ => ?_)) | with_reducible (refine Keeps.chainAll _ _ (fun _ _ _ => ?_) ?_) | simp | split)

theorem execRouteSet_keeps (m : Nat) (s : State) (out : State) (hx : execRouteSet m s = .next out) : Keeps s.stores out.stores := by
  unfold execRouteSet onMailbox onInstance at hx; split at hx
  · (injection hx with hx; subst hx); repeat' (first | with_reducible assumption | with_reducible (first | exact Keeps.refl _) | with_reducible (refine Keeps.ite (fun _ => ?_) (fun _ => ?_)) | with_reducible (refine Keeps.chainAll _ _ (fun _ _ _ => ?_) ?_) | simp | split)
  · cases hx

theorem execRuleStage_keeps (m : Nat) (s : State) (out : State) (hx : execRuleStage m s = .next out) : Keeps s.stores out.stores := by
  unfold execRuleStage onMailbox onInstance at hx; split at hx
  · (injection hx with hx; subst hx); repeat' (first | with_reducible assumption | with_reducible (first | exact Keeps.refl _) | with_reducible (refine Keeps.ite (fun _ => ?_) (fun _ => ?_)) | with_reducible (refine Keeps.chainAll _ _ (fun _ _ _ => ?_) ?_) | simp | split)
  · cases hx

theorem execRuleCommit_keeps (m : Nat) (s : State) (out : State) (hx : execRuleCommit m s = .next out) : Keeps s.stores out.stores := by
  unfold execRuleCommit onMailbox onInstance at hx; split at hx
  · (injection hx with hx; subst hx); repeat' (first | with_reducible assumption | with_reducible (first | exact Keeps.refl _) | with_reducible (refine Keeps.ite (fun _ => ?_) (fun _ => ?_)) | with_reducible (refine Keeps.chainAll _ _ (fun _ _ _ => ?_) ?_) | simp | split)
  · cases hx

theorem execHaulPortSet_keeps (m : Nat) (s : State) (out : State) (hx : execHaulPortSet m s = .next out) : Keeps s.stores out.stores := by
  unfold execHaulPortSet onMailbox onInstance at hx; split at hx
  · (injection hx with hx; subst hx); repeat' (first | with_reducible assumption | with_reducible (first | exact Keeps.refl _) | with_reducible (refine Keeps.ite (fun _ => ?_) (fun _ => ?_)) | with_reducible (refine Keeps.chainAll _ _ (fun _ _ _ => ?_) ?_) | simp | split)
  · cases hx

theorem execDeviceAddressSet_keeps (m : Nat) (s : State) (out : State) (hx : execDeviceAddressSet m s = .next out) : Keeps s.stores out.stores := by
  unfold execDeviceAddressSet onMailbox onInstance at hx; split at hx
  · (injection hx with hx; subst hx); repeat' (first | with_reducible assumption | with_reducible (first | exact Keeps.refl _) | with_reducible (refine Keeps.ite (fun _ => ?_) (fun _ => ?_)) | with_reducible (refine Keeps.chainAll _ _ (fun _ _ _ => ?_) ?_) | simp | split)
  · cases hx

end Sys2Proof.Machine
end

