-- ==== Sys2Proof/Laws/RunMem.lean ====
section
/-! SUPPORT. The commands and operations of Machine/Mem.lean that write a memory: what they keep. -/

set_option Elab.async false

namespace Sys2Proof.Machine

theorem execDdrTimingSet_keeps (m : Nat) (s : State) (out : State) (hx : execDdrTimingSet m s = .next out) : Keeps s.stores out.stores := by
  unfold execDdrTimingSet onMailbox onInstance at hx; split at hx
  · (injection hx with hx; subst hx); repeat' (first | with_reducible assumption | with_reducible (first | exact Keeps.refl _) | with_reducible (refine Keeps.ite (fun _ => ?_) (fun _ => ?_)) | with_reducible (refine Keeps.chainAll _ _ (fun _ _ _ => ?_) ?_) | simp | split)
  · cases hx

theorem State.grantTo_keeps {v0 : Stores} (s : State) (c r : Nat) (hk : Keeps v0 s.stores) : Keeps v0 (State.grantTo s c r).stores := by
  unfold State.grantTo; repeat' (first | with_reducible assumption | with_reducible (first | apply Keeps.erase | exact Keeps.refl _) | with_reducible (refine Keeps.ite (fun _ => ?_) (fun _ => ?_)) | with_reducible (refine Keeps.chainAll _ _ (fun _ _ _ => ?_) ?_) | simp | split)

theorem State.requestGrant_keeps {v0 : Stores} (s : State) (c : Nat) (hk : Keeps v0 s.stores) : Keeps v0 (State.requestGrant s c).stores := by
  unfold State.requestGrant; repeat' (first | with_reducible assumption | with_reducible (first | apply State.grantTo_keeps | exact Keeps.refl _) | with_reducible (refine Keeps.ite (fun _ => ?_) (fun _ => ?_)) | with_reducible (refine Keeps.chainAll _ _ (fun _ _ _ => ?_) ?_) | simp | split)

theorem execDdrRequestGrant_keeps (c : Nat) (s : State) (out : State) (hx : execDdrRequestGrant c s = .next out) : Keeps s.stores out.stores := by
  unfold execDdrRequestGrant onInstance at hx; split at hx
  · (injection hx with hx; subst hx); repeat' (first | with_reducible assumption | with_reducible (first | apply State.requestGrant_keeps | exact Keeps.refl _) | with_reducible (refine Keeps.ite (fun _ => ?_) (fun _ => ?_)) | with_reducible (refine Keeps.chainAll _ _ (fun _ _ _ => ?_) ?_) | simp | split)
  · cases hx

theorem State.endTransfer_keeps {v0 : Stores} (s : State) (c sub left : Nat) (x : Xfer) (e : EccResult) (hk : Keeps v0 s.stores) : Keeps v0 (State.endTransfer s c sub left x e).stores := by
  unfold State.endTransfer; repeat' (first | with_reducible assumption | with_reducible (first | apply Keeps.erase | exact Keeps.refl _) | with_reducible (refine Keeps.ite (fun _ => ?_) (fun _ => ?_)) | with_reducible (refine Keeps.chainAll _ _ (fun _ _ _ => ?_) ?_) | simp | split)

theorem State.transferComplete_keeps {v0 : Stores} (s : State) (c : Nat) (e : EccResult) (hk : Keeps v0 s.stores) : Keeps v0 (State.transferComplete s c e).stores := by
  unfold State.transferComplete; repeat' (first | with_reducible assumption | with_reducible (first | apply State.endTransfer_keeps | exact Keeps.refl _) | with_reducible (refine Keeps.ite (fun _ => ?_) (fun _ => ?_)) | with_reducible (refine Keeps.chainAll _ _ (fun _ _ _ => ?_) ?_) | simp | split)

theorem execDdrTransferComplete_keeps (c : Nat) (e : EccResult) (s : State) (out : State) (hx : execDdrTransferComplete c e s = .next out) : Keeps s.stores out.stores := by
  unfold execDdrTransferComplete onInstance at hx; split at hx
  · (injection hx with hx; subst hx); repeat' (first | with_reducible assumption | with_reducible (first | apply State.transferComplete_keeps | exact Keeps.refl _) | with_reducible (refine Keeps.ite (fun _ => ?_) (fun _ => ?_)) | with_reducible (refine Keeps.chainAll _ _ (fun _ _ _ => ?_) ?_) | simp | split)
  · cases hx

theorem State.arbWatchdog_keeps {v0 : Stores} (s : State) (c : Nat) (hk : Keeps v0 s.stores) : Keeps v0 (State.arbWatchdog s c).stores := by
  unfold State.arbWatchdog; repeat' (first | with_reducible assumption | with_reducible (first | apply Keeps.putDram | exact Keeps.refl _) | with_reducible (refine Keeps.ite (fun _ => ?_) (fun _ => ?_)) | with_reducible (refine Keeps.chainAll _ _ (fun _ _ _ => ?_) ?_) | with_reducible (refine Keeps.foldl _ _ (fun _ _ _ => ?_) ?_) | with_reducible (refine Keeps.elim _ _ ?_ (fun _ => ?_)) | simp | split)

theorem execArbWatchdogExpire_keeps (c : Nat) (s : State) (out : State) (hx : execArbWatchdogExpire c s = .next out) : Keeps s.stores out.stores := by
  unfold execArbWatchdogExpire onInstance at hx; split at hx
  · (injection hx with hx; subst hx); repeat' (first | with_reducible assumption | with_reducible (first | apply State.arbWatchdog_keeps | exact Keeps.refl _) | with_reducible (refine Keeps.ite (fun _ => ?_) (fun _ => ?_)) | with_reducible (refine Keeps.chainAll _ _ (fun _ _ _ => ?_) ?_) | with_reducible (refine Keeps.foldl _ _ (fun _ _ _ => ?_) ?_) | with_reducible (refine Keeps.elim _ _ ?_ (fun _ => ?_)) | simp | split)
  · cases hx

theorem execDdrRefreshDue_keeps (c : Nat) (s : State) (out : State) (hx : execDdrRefreshDue c s = .next out) : Keeps s.stores out.stores := by
  unfold execDdrRefreshDue onInstance at hx; split at hx
  · (injection hx with hx; subst hx); repeat' (first | with_reducible assumption | with_reducible (first | exact Keeps.refl _) | with_reducible (refine Keeps.ite (fun _ => ?_) (fun _ => ?_)) | with_reducible (refine Keeps.chainAll _ _ (fun _ _ _ => ?_) ?_) | simp | split)
  · cases hx

theorem execDdrPageIdleExpire_keeps (c bank : Nat) (s : State) (out : State) (hx : execDdrPageIdleExpire c bank s = .next out) : Keeps s.stores out.stores := by
  unfold execDdrPageIdleExpire onInstance at hx; split at hx
  · (injection hx with hx; subst hx); repeat' (first | with_reducible assumption | with_reducible (first | exact Keeps.refl _) | with_reducible (refine Keeps.ite (fun _ => ?_) (fun _ => ?_)) | with_reducible (refine Keeps.chainAll _ _ (fun _ _ _ => ?_) ?_) | simp | split)
  · cases hx

theorem execDdrTempPoll_keeps (c : Nat) (hot : Bool) (s : State) (out : State) (hx : execDdrTempPoll c hot s = .next out) : Keeps s.stores out.stores := by
  unfold execDdrTempPoll onInstance at hx; split at hx
  · (injection hx with hx; subst hx); repeat' (first | with_reducible assumption | with_reducible (first | exact Keeps.refl _) | with_reducible (refine Keeps.ite (fun _ => ?_) (fun _ => ?_)) | with_reducible (refine Keeps.chainAll _ _ (fun _ _ _ => ?_) ?_) | simp | split)
  · cases hx

theorem execDdrScrubRead_keeps (c : Nat) (e : EccResult) (s : State) (out : State) (hx : execDdrScrubRead c e s = .next out) : Keeps s.stores out.stores := by
  unfold execDdrScrubRead onInstance at hx; split at hx
  · (injection hx with hx; subst hx); repeat' (first | with_reducible assumption | with_reducible (first | exact Keeps.refl _) | with_reducible (refine Keeps.ite (fun _ => ?_) (fun _ => ?_)) | with_reducible (refine Keeps.chainAll _ _ (fun _ _ _ => ?_) ?_) | simp | split)
  · cases hx

theorem State.giveUpWrite_keeps {v0 : Stores} (s : State) (c : Nat) (x : Replay) (later : List Replay) (hk : Keeps v0 s.stores) : Keeps v0 (State.giveUpWrite s c x later).stores := by
  unfold State.giveUpWrite; repeat' (first | with_reducible assumption | with_reducible (first | apply Keeps.putDram | exact Keeps.refl _) | with_reducible (refine Keeps.ite (fun _ => ?_) (fun _ => ?_)) | with_reducible (refine Keeps.chainAll _ _ (fun _ _ _ => ?_) ?_) | with_reducible (refine Keeps.foldl _ _ (fun _ _ _ => ?_) ?_) | with_reducible (refine Keeps.elim _ _ ?_ (fun _ => ?_)) | simp | split)

theorem State.writeAlert_keeps {v0 : Stores} (s : State) (c sub back : Nat) (hk : Keeps v0 s.stores) : Keeps v0 (State.writeAlert s c sub back).stores := by
  unfold State.writeAlert; repeat' (first | with_reducible assumption | with_reducible (first | apply State.giveUpWrite_keeps | exact Keeps.refl _) | with_reducible (refine Keeps.ite (fun _ => ?_) (fun _ => ?_)) | with_reducible (refine Keeps.chainAll _ _ (fun _ _ _ => ?_) ?_) | with_reducible (refine Keeps.foldl _ _ (fun _ _ _ => ?_) ?_) | with_reducible (refine Keeps.elim _ _ ?_ (fun _ => ?_)) | simp | split)

theorem execDdrWriteCrcAlert_keeps (c sub back : Nat) (s : State) (out : State) (hx : execDdrWriteCrcAlert c sub s back = .next out) : Keeps s.stores out.stores := by
  unfold execDdrWriteCrcAlert onInstance at hx; split at hx
  · (injection hx with hx; subst hx); repeat' (first | with_reducible assumption | with_reducible (first | apply State.writeAlert_keeps | exact Keeps.refl _) | with_reducible (refine Keeps.ite (fun _ => ?_) (fun _ => ?_)) | with_reducible (refine Keeps.chainAll _ _ (fun _ _ _ => ?_) ?_) | with_reducible (refine Keeps.foldl _ _ (fun _ _ _ => ?_) ?_) | with_reducible (refine Keeps.elim _ _ ?_ (fun _ => ?_)) | simp | split)
  · cases hx

theorem execDdrTrainingDone_keeps (c : Nat) (sweep : List LaneSweep) (s : State) (out : State) (hx : execDdrTrainingDone c sweep s = .next out) : Keeps s.stores out.stores := by
  unfold execDdrTrainingDone onInstance at hx; split at hx
  · (injection hx with hx; subst hx); repeat' (first | with_reducible assumption | with_reducible (first | exact Keeps.refl _) | with_reducible (refine Keeps.ite (fun _ => ?_) (fun _ => ?_)) | with_reducible (refine Keeps.chainAll _ _ (fun _ _ _ => ?_) ?_) | simp | split)
  · cases hx

theorem execDdrRetrainStart_keeps (c : Nat) (s : State) (out : State) (hx : execDdrRetrainStart c s = .next out) : Keeps s.stores out.stores := by
  unfold execDdrRetrainStart onInstance at hx; split at hx
  · (injection hx with hx; subst hx); repeat' (first | with_reducible assumption | with_reducible (first | exact Keeps.refl _) | with_reducible (refine Keeps.ite (fun _ => ?_) (fun _ => ?_)) | with_reducible (refine Keeps.chainAll _ _ (fun _ _ _ => ?_) ?_) | simp | split)
  · cases hx

theorem execDdrRetrainDone_keeps (c : Nat) (sweep : List LaneSweep) (s : State) (out : State) (hx : execDdrRetrainDone c sweep s = .next out) : Keeps s.stores out.stores := by
  unfold execDdrRetrainDone onInstance at hx; split at hx
  · (injection hx with hx; subst hx); repeat' (first | with_reducible assumption | with_reducible (first | exact Keeps.refl _) | with_reducible (refine Keeps.ite (fun _ => ?_) (fun _ => ?_)) | with_reducible (refine Keeps.chainAll _ _ (fun _ _ _ => ?_) ?_) | simp | split)
  · cases hx

theorem execDdrDriftCheck_keeps (c drift : Nat) (s : State) (out : State) (hx : execDdrDriftCheck c drift s = .next out) : Keeps s.stores out.stores := by
  unfold execDdrDriftCheck onInstance at hx; split at hx
  · (injection hx with hx; subst hx); repeat' (first | with_reducible assumption | with_reducible (first | exact Keeps.refl _) | with_reducible (refine Keeps.ite (fun _ => ?_) (fun _ => ?_)) | with_reducible (refine Keeps.chainAll _ _ (fun _ _ _ => ?_) ?_) | simp | split)
  · cases hx

theorem execDdrRetrain_keeps (m : Nat) (s : State) (out : State) (hx : execDdrRetrain m s = .next out) : Keeps s.stores out.stores := by
  unfold execDdrRetrain onMailbox onInstance at hx; split at hx
  · (injection hx with hx; subst hx); repeat' (first | with_reducible assumption | with_reducible (first | exact Keeps.refl _) | with_reducible (refine Keeps.ite (fun _ => ?_) (fun _ => ?_)) | with_reducible (refine Keeps.chainAll _ _ (fun _ _ _ => ?_) ?_) | simp | split)
  · cases hx

theorem State.fillDone_keeps {v0 : Stores} (s : State) (c : Nat) (hk : Keeps v0 s.stores) : Keeps v0 (s.fillDone c).stores := by
  unfold State.fillDone; split
  · exact hk
  have h := Keeps.filterDram (fun e => decide (s.channelOf e.1 ≠ c) || !s.permitted 10 e.1 true true) hk
  dsimp only
  split <;> simpa using h

theorem execDdrFillDone_keeps (c : Nat) (s : State) (out : State) (hx : execDdrFillDone c s = .next out) : Keeps s.stores out.stores := by
  unfold execDdrFillDone onInstance at hx; split at hx
  · (injection hx with hx; subst hx); repeat' (first | with_reducible assumption | with_reducible (first | apply State.fillDone_keeps | exact Keeps.refl _) | with_reducible (refine Keeps.ite (fun _ => ?_) (fun _ => ?_)) | with_reducible (refine Keeps.chainAll _ _ (fun _ _ _ => ?_) ?_) | simp | split)
  · cases hx

end Sys2Proof.Machine
end

