-- ==== Sys2Proof/Laws/RunLanes.lean ====
section
/-! SUPPORT. The commands and operations of Machine/Lanes.lean that write a memory: what they keep. -/

set_option Elab.async false

namespace Sys2Proof.Machine

theorem execLaneCalStart_keeps (n : Nat) (s : State) (out : State) (hx : execLaneCalStart n s = .next out) : Keeps s.stores out.stores := by
  unfold execLaneCalStart onInstance at hx; split at hx
  · (injection hx with hx; subst hx); repeat' (first | with_reducible assumption | with_reducible (first | exact Keeps.refl _) | with_reducible (refine Keeps.ite (fun _ => ?_) (fun _ => ?_)) | with_reducible (refine Keeps.chainAll _ _ (fun _ _ _ => ?_) ?_) | simp | split)
  · cases hx

theorem execLaneCalDone_keeps (n peak ofs : Nat) (s : State) (out : State) (hx : execLaneCalDone n peak ofs s = .next out) : Keeps s.stores out.stores := by
  unfold execLaneCalDone onInstance at hx; split at hx
  · (injection hx with hx; subst hx); repeat' (first | with_reducible assumption | with_reducible (first | exact Keeps.refl _) | with_reducible (refine Keeps.ite (fun _ => ?_) (fun _ => ?_)) | with_reducible (refine Keeps.chainAll _ _ (fun _ _ _ => ?_) ?_) | simp | split)
  · cases hx

theorem execLaneSignalChange_keeps (n : Nat) (up : Bool) (s : State) (out : State) (hx : execLaneSignalChange n up s = .next out) : Keeps s.stores out.stores := by
  unfold execLaneSignalChange onInstance at hx; split at hx
  · (injection hx with hx; subst hx); repeat' (first | with_reducible assumption | with_reducible (first | exact Keeps.refl _) | with_reducible (refine Keeps.ite (fun _ => ?_) (fun _ => ?_)) | with_reducible (refine Keeps.chainAll _ _ (fun _ _ _ => ?_) ?_) | simp | split)
  · cases hx

theorem execLaneSyncLoss_keeps (n : Nat) (s : State) (out : State) (hx : execLaneSyncLoss n s = .next out) : Keeps s.stores out.stores := by
  unfold execLaneSyncLoss onInstance at hx; split at hx
  · (injection hx with hx; subst hx); repeat' (first | with_reducible assumption | with_reducible (first | exact Keeps.refl _) | with_reducible (refine Keeps.ite (fun _ => ?_) (fun _ => ?_)) | with_reducible (refine Keeps.chainAll _ _ (fun _ _ _ => ?_) ?_) | simp | split)
  · cases hx

theorem execLaneSyncAcquire_keeps (n : Nat) (s : State) (out : State) (hx : execLaneSyncAcquire n s = .next out) : Keeps s.stores out.stores := by
  unfold execLaneSyncAcquire onInstance at hx; split at hx
  · (injection hx with hx; subst hx); repeat' (first | with_reducible assumption | with_reducible (first | exact Keeps.refl _) | with_reducible (refine Keeps.ite (fun _ => ?_) (fun _ => ?_)) | with_reducible (refine Keeps.chainAll _ _ (fun _ _ _ => ?_) ?_) | simp | split)
  · cases hx

theorem execPrbsLock_keeps (n errs : Nat) (s : State) (out : State) (hx : execPrbsLock n errs s = .next out) : Keeps s.stores out.stores := by
  unfold execPrbsLock onInstance at hx; split at hx
  · (injection hx with hx; subst hx); repeat' (first | with_reducible assumption | with_reducible (first | exact Keeps.refl _) | with_reducible (refine Keeps.ite (fun _ => ?_) (fun _ => ?_)) | with_reducible (refine Keeps.chainAll _ _ (fun _ _ _ => ?_) ?_) | simp | split)
  · cases hx

theorem State.abortFrame_keeps {v0 : Stores} (s : State) (n : Nat) (hk : Keeps v0 s.stores) : Keeps v0 (State.abortFrame s n).stores := by
  unfold State.abortFrame; repeat' (first | with_reducible assumption | with_reducible (first | apply State.frameEnd_keeps | exact Keeps.refl _) | with_reducible (refine Keeps.ite (fun _ => ?_) (fun _ => ?_)) | with_reducible (refine Keeps.chainAll _ _ (fun _ _ _ => ?_) ?_) | with_reducible (refine Keeps.foldl _ _ (fun _ _ _ => ?_) ?_) | with_reducible (refine Keeps.elim _ _ ?_ (fun _ => ?_)) | simp | split)

theorem State.codeError_keeps {v0 : Stores} (s : State) (n : Nat) (k : CodeErrKind) (hk : Keeps v0 s.stores) : Keeps v0 (State.codeError s n k).stores := by
  unfold State.codeError; repeat' (first | with_reducible assumption | with_reducible (first | apply State.abortFrame_keeps | exact Keeps.refl _) | with_reducible (refine Keeps.ite (fun _ => ?_) (fun _ => ?_)) | with_reducible (refine Keeps.chainAll _ _ (fun _ _ _ => ?_) ?_) | with_reducible (refine Keeps.foldl _ _ (fun _ _ _ => ?_) ?_) | with_reducible (refine Keeps.elim _ _ ?_ (fun _ => ?_)) | simp | split)

theorem execCodeErr_keeps (n : Nat) (k : CodeErrKind) (s : State) (out : State) (hx : execCodeErr n k s = .next out) : Keeps s.stores out.stores := by
  unfold execCodeErr onInstance at hx; split at hx
  · (injection hx with hx; subst hx); repeat' (first | with_reducible assumption | with_reducible (first | apply State.codeError_keeps | exact Keeps.refl _) | with_reducible (refine Keeps.ite (fun _ => ?_) (fun _ => ?_)) | with_reducible (refine Keeps.chainAll _ _ (fun _ _ _ => ?_) ?_) | with_reducible (refine Keeps.foldl _ _ (fun _ _ _ => ?_) ?_) | with_reducible (refine Keeps.elim _ _ ?_ (fun _ => ?_)) | simp | split)
  · cases hx

theorem execLanePllLock_keeps (q : Nat) (s : State) (out : State) (hx : execLanePllLock q s = .next out) : Keeps s.stores out.stores := by
  unfold execLanePllLock onInstance at hx; split at hx
  · (injection hx with hx; subst hx); repeat' (first | with_reducible assumption | with_reducible (first | exact Keeps.refl _) | with_reducible (refine Keeps.ite (fun _ => ?_) (fun _ => ?_)) | with_reducible (refine Keeps.chainAll _ _ (fun _ _ _ => ?_) ?_) | simp | split)
  · cases hx

theorem State.portChanged_keeps {v0 : Stores} (s : State) (f p : Nat) (gains : Bool) (hk : Keeps v0 s.stores) : Keeps v0 (State.portChanged s f p gains).stores := by
  unfold State.portChanged; repeat' (first | with_reducible assumption | with_reducible (first | apply State.haulLoss_keeps | exact Keeps.refl _) | with_reducible (refine Keeps.ite (fun _ => ?_) (fun _ => ?_)) | with_reducible (refine Keeps.chainAll _ _ (fun _ _ _ => ?_) ?_) | with_reducible (refine Keeps.foldl _ _ (fun _ _ _ => ?_) ?_) | with_reducible (refine Keeps.elim _ _ ?_ (fun _ => ?_)) | simp | split)

theorem State.laneChanged_keeps {v0 : Stores} (s : State) (n f0 p0 e0 : Nat) (hk : Keeps v0 s.stores) : Keeps v0 (State.laneChanged s n f0 p0 e0).stores := by
  unfold State.laneChanged; repeat' (first | with_reducible assumption | with_reducible (first | apply State.portChanged_keeps | exact Keeps.refl _) | with_reducible (refine Keeps.ite (fun _ => ?_) (fun _ => ?_)) | with_reducible (refine Keeps.chainAll _ _ (fun _ _ _ => ?_) ?_) | with_reducible (refine Keeps.foldl _ _ (fun _ _ _ => ?_) ?_) | with_reducible (refine Keeps.elim _ _ ?_ (fun _ => ?_)) | simp | split)

theorem State.writeLaneCfg_keeps {v0 : Stores} (s : State) (n w : Nat) (hk : Keeps v0 s.stores) : Keeps v0 (State.writeLaneCfg s n w).stores := by
  unfold State.writeLaneCfg; repeat' (first | with_reducible assumption | with_reducible (first | apply State.laneChanged_keeps | exact Keeps.refl _) | with_reducible (refine Keeps.ite (fun _ => ?_) (fun _ => ?_)) | with_reducible (refine Keeps.chainAll _ _ (fun _ _ _ => ?_) ?_) | with_reducible (refine Keeps.foldl _ _ (fun _ _ _ => ?_) ?_) | with_reducible (refine Keeps.elim _ _ ?_ (fun _ => ?_)) | simp | split)

theorem State.applyEntry_keeps {v0 : Stores} (s : State) (e : List Byte) (hk : Keeps v0 s.stores) : Keeps v0 (State.applyEntry s e).stores := by
  unfold State.applyEntry; repeat' (first | with_reducible assumption | with_reducible (first | apply State.writeLaneCfg_keeps | exact Keeps.refl _) | with_reducible (refine Keeps.ite (fun _ => ?_) (fun _ => ?_)) | with_reducible (refine Keeps.chainAll _ _ (fun _ _ _ => ?_) ?_) | with_reducible (refine Keeps.foldl _ _ (fun _ _ _ => ?_) ?_) | with_reducible (refine Keeps.elim _ _ ?_ (fun _ => ?_)) | simp | split)

theorem State.laneCmd_keeps {v0 : Stores} (s : State) (m : Nat) (hk : Keeps v0 s.stores) : Keeps v0 (State.laneCmd s m).stores := by
  unfold State.laneCmd; repeat' (first | with_reducible assumption | with_reducible (first | apply State.applyEntry_keeps | (refine State.serve_keeps _ _ _ _ _ (fun _ _ => ?_) ?_) | exact Keeps.refl _) | with_reducible (refine Keeps.ite (fun _ => ?_) (fun _ => ?_)) | with_reducible (refine Keeps.chainAll _ _ (fun _ _ _ => ?_) ?_) | with_reducible (refine Keeps.foldl _ _ (fun _ _ _ => ?_) ?_) | with_reducible (refine Keeps.elim _ _ ?_ (fun _ => ?_)) | simp | split)

theorem execLaneConfig_keeps (m : Nat) (s : State) (out : State) (hx : execLaneConfig m s = .next out) : Keeps s.stores out.stores := by
  unfold execLaneConfig onMailbox onInstance at hx; split at hx
  · (injection hx with hx; subst hx); repeat' (first | with_reducible assumption | with_reducible (first | apply State.laneCmd_keeps | exact Keeps.refl _) | with_reducible (refine Keeps.ite (fun _ => ?_) (fun _ => ?_)) | with_reducible (refine Keeps.chainAll _ _ (fun _ _ _ => ?_) ?_) | with_reducible (refine Keeps.foldl _ _ (fun _ _ _ => ?_) ?_) | with_reducible (refine Keeps.elim _ _ ?_ (fun _ => ?_)) | simp | split)
  · cases hx

theorem execLaneRecal_keeps (m : Nat) (s : State) (out : State) (hx : execLaneRecal m s = .next out) : Keeps s.stores out.stores := by
  unfold execLaneRecal onMailbox onInstance at hx; split at hx
  · (injection hx with hx; subst hx); repeat' (first | with_reducible assumption | with_reducible (first | exact Keeps.refl _) | with_reducible (refine Keeps.ite (fun _ => ?_) (fun _ => ?_)) | with_reducible (refine Keeps.chainAll _ _ (fun _ _ _ => ?_) ?_) | simp | split)
  · cases hx

theorem execCalSchedule_keeps (n : Nat) (s : State) (out : State) (hx : execCalSchedule n s = .next out) : Keeps s.stores out.stores := by
  unfold execCalSchedule onInstance at hx; split at hx
  · (injection hx with hx; subst hx); repeat' (first | with_reducible assumption | with_reducible (first | exact Keeps.refl _) | with_reducible (refine Keeps.ite (fun _ => ?_) (fun _ => ?_)) | with_reducible (refine Keeps.chainAll _ _ (fun _ _ _ => ?_) ?_) | simp | split)
  · cases hx

theorem execSensorCal_keeps (k : Nat) (s : State) (out : State) (hx : execSensorCal k s = .next out) : Keeps s.stores out.stores := by
  unfold execSensorCal onInstance at hx; split at hx
  · (injection hx with hx; subst hx); repeat' (first | with_reducible assumption | with_reducible (first | exact Keeps.refl _) | with_reducible (refine Keeps.ite (fun _ => ?_) (fun _ => ?_)) | with_reducible (refine Keeps.chainAll _ _ (fun _ _ _ => ?_) ?_) | simp | split)
  · cases hx

end Sys2Proof.Machine
end

