-- ==== Sys2Proof/Laws/RunPower.lean ====
section
/-! SUPPORT. The commands and operations of Machine/Power.lean that write a memory: what they keep. -/

set_option Elab.async false

namespace Sys2Proof.Machine

theorem execPtpConfig_keeps (m : Nat) (s : State) (out : State) (hx : execPtpConfig m s = .next out) : Keeps s.stores out.stores := by
  unfold execPtpConfig onMailbox onInstance at hx; split at hx
  · (injection hx with hx; subst hx); repeat' (first | with_reducible assumption | with_reducible (first | exact Keeps.refl _) | with_reducible (refine Keeps.ite (fun _ => ?_) (fun _ => ?_)) | with_reducible (refine Keeps.chainAll _ _ (fun _ _ _ => ?_) ?_) | simp | split)
  · cases hx

theorem execPtpSyncProcess_keeps (offset : Int) (gm : Bool) (trim : Word) (s : State) (out : State) (hx : execPtpSyncProcess offset gm trim s = .next out) : Keeps s.stores out.stores := by
  unfold execPtpSyncProcess at hx; (repeat' split at hx) <;> (try contradiction) <;> cases hx <;> repeat' (first | with_reducible assumption | with_reducible (first | exact Keeps.refl _) | with_reducible (refine Keeps.ite (fun _ => ?_) (fun _ => ?_)) | with_reducible (refine Keeps.chainAll _ _ (fun _ _ _ => ?_) ?_) | simp | split)

theorem State.shedEnter_keeps {v0 : Stores} (s : State) (mv : Nat) (hk : Keeps v0 s.stores) : Keeps v0 (State.shedEnter s mv).stores := by
  unfold State.shedEnter; repeat' (first | with_reducible assumption | with_reducible (first | apply State.chipReset_keeps | exact Keeps.refl _) | with_reducible (refine Keeps.ite (fun _ => ?_) (fun _ => ?_)) | with_reducible (refine Keeps.chainAll _ _ (fun _ _ _ => ?_) ?_) | with_reducible (refine Keeps.foldl _ _ (fun _ _ _ => ?_) ?_) | with_reducible (refine Keeps.elim _ _ ?_ (fun _ => ?_)) | simp | split)

theorem execShedStageEnter_keeps (mv : Nat) (s : State) (out : State) (hx : execShedStageEnter mv s = .next out) : Keeps s.stores out.stores := by
  unfold execShedStageEnter at hx; (injection hx with hx; subst hx); repeat' (first | with_reducible assumption | with_reducible (first | apply State.shedEnter_keeps | exact Keeps.refl _) | with_reducible (refine Keeps.ite (fun _ => ?_) (fun _ => ?_)) | with_reducible (refine Keeps.chainAll _ _ (fun _ _ _ => ?_) ?_) | with_reducible (refine Keeps.foldl _ _ (fun _ _ _ => ?_) ?_) | with_reducible (refine Keeps.elim _ _ ?_ (fun _ => ?_)) | simp | split)

theorem execShedStageLift_keeps (mv : Nat) (s : State) (out : State) (hx : execShedStageLift mv s = .next out) : Keeps s.stores out.stores := by
  unfold execShedStageLift at hx; (repeat' split at hx) <;> (try contradiction) <;> cases hx <;> repeat' (first | with_reducible assumption | with_reducible (first | exact Keeps.refl _) | with_reducible (refine Keeps.ite (fun _ => ?_) (fun _ => ?_)) | with_reducible (refine Keeps.chainAll _ _ (fun _ _ _ => ?_) ?_) | simp | split)

theorem execShedThresholdSet_keeps (m : Nat) (s : State) (out : State) (hx : execShedThresholdSet m s = .next out) : Keeps s.stores out.stores := by
  unfold execShedThresholdSet onMailbox onInstance at hx; split at hx
  · (injection hx with hx; subst hx); repeat' (first | with_reducible assumption | with_reducible (first | exact Keeps.refl _) | with_reducible (refine Keeps.ite (fun _ => ?_) (fun _ => ?_)) | with_reducible (refine Keeps.chainAll _ _ (fun _ _ _ => ?_) ?_) | simp | split)
  · cases hx

theorem execAvsStep_keeps (tjMax : Int) (s : State) (out : State) (hx : execAvsStep tjMax s = .next out) : Keeps s.stores out.stores := by
  unfold execAvsStep at hx; (repeat' split at hx) <;> (try contradiction) <;> cases hx <;> repeat' (first | with_reducible assumption | with_reducible (first | exact Keeps.refl _) | with_reducible (refine Keeps.ite (fun _ => ?_) (fun _ => ?_)) | with_reducible (refine Keeps.chainAll _ _ (fun _ _ _ => ?_) ?_) | simp | split)

theorem execPmbusReadback_keeps (mv : Nat) (s : State) (out : State) (hx : execPmbusReadback mv s = .next out) : Keeps s.stores out.stores := by
  unfold execPmbusReadback at hx; (repeat' split at hx) <;> (try contradiction) <;> cases hx <;> repeat' (first | with_reducible assumption | with_reducible (first | exact Keeps.refl _) | with_reducible (refine Keeps.ite (fun _ => ?_) (fun _ => ?_)) | with_reducible (refine Keeps.chainAll _ _ (fun _ _ _ => ?_) ?_) | simp | split)

theorem State.snapshotCmd_keeps {v0 : Stores} (s : State) (m : Nat) (hk : Keeps v0 s.stores) : Keeps v0 (State.snapshotCmd s m).stores := by
  unfold State.snapshotCmd; repeat' (first | with_reducible assumption | with_reducible (first | apply State.putFor_keeps | (refine State.serve_keeps _ _ _ _ _ (fun _ _ => ?_) ?_) | exact Keeps.refl _) | with_reducible (refine Keeps.ite (fun _ => ?_) (fun _ => ?_)) | with_reducible (refine Keeps.chainAll _ _ (fun _ _ _ => ?_) ?_) | with_reducible (refine Keeps.foldl _ _ (fun _ _ _ => ?_) ?_) | with_reducible (refine Keeps.elim _ _ ?_ (fun _ => ?_)) | simp | split)

theorem execCalSnapshot_keeps (m : Nat) (s : State) (out : State) (hx : execCalSnapshot m s = .next out) : Keeps s.stores out.stores := by
  unfold execCalSnapshot onMailbox onInstance at hx; split at hx
  · (injection hx with hx; subst hx); repeat' (first | with_reducible assumption | with_reducible (first | apply State.snapshotCmd_keeps | exact Keeps.refl _) | with_reducible (refine Keeps.ite (fun _ => ?_) (fun _ => ?_)) | with_reducible (refine Keeps.chainAll _ _ (fun _ _ _ => ?_) ?_) | with_reducible (refine Keeps.foldl _ _ (fun _ _ _ => ?_) ?_) | with_reducible (refine Keeps.elim _ _ ?_ (fun _ => ?_)) | simp | split)
  · cases hx

theorem execCalRestore_keeps (m : Nat) (s : State) (out : State) (hx : execCalRestore m s = .next out) : Keeps s.stores out.stores := by
  unfold execCalRestore onMailbox onInstance at hx; split at hx
  · (injection hx with hx; subst hx); repeat' (first | with_reducible assumption | with_reducible (first | exact Keeps.refl _) | with_reducible (refine Keeps.ite (fun _ => ?_) (fun _ => ?_)) | with_reducible (refine Keeps.chainAll _ _ (fun _ _ _ => ?_) ?_) | simp | split)
  · cases hx

theorem execSyncGapStart_keeps (g : Nat) (s : State) (out : State) (hx : execSyncGapStart g s = .next out) : Keeps s.stores out.stores := by
  unfold execSyncGapStart onInstance at hx; split at hx
  · (injection hx with hx; subst hx); repeat' (first | with_reducible assumption | with_reducible (first | exact Keeps.refl _) | with_reducible (refine Keeps.ite (fun _ => ?_) (fun _ => ?_)) | with_reducible (refine Keeps.chainAll _ _ (fun _ _ _ => ?_) ?_) | simp | split)
  · cases hx

theorem execTimerExpire_keeps (n : Nat) (s : State) (out : State) (hx : execTimerExpire n s = .next out) : Keeps s.stores out.stores := by
  unfold execTimerExpire onInstance at hx; split at hx
  · (injection hx with hx; subst hx); repeat' (first | with_reducible assumption | with_reducible (first | exact Keeps.refl _) | with_reducible (refine Keeps.ite (fun _ => ?_) (fun _ => ?_)) | with_reducible (refine Keeps.chainAll _ _ (fun _ _ _ => ?_) ?_) | simp | split)
  · cases hx

theorem execPowerStateSet_keeps (m : Nat) (s : State) (out : State) (hx : execPowerStateSet m s = .next out) : Keeps s.stores out.stores := by
  unfold execPowerStateSet onMailbox onInstance at hx; split at hx
  · (injection hx with hx; subst hx); repeat' (first | with_reducible assumption | with_reducible (first | exact Keeps.refl _) | with_reducible (refine Keeps.ite (fun _ => ?_) (fun _ => ?_)) | with_reducible (refine Keeps.chainAll _ _ (fun _ _ _ => ?_) ?_) | simp | split)
  · cases hx

theorem State.gate_keeps {v0 : Stores} (s : State) (hk : Keeps v0 s.stores) : Keeps v0 (State.gate s).stores := by
  unfold State.gate; repeat' (first | with_reducible assumption | with_reducible (first | exact Keeps.refl _) | with_reducible (refine Keeps.ite (fun _ => ?_) (fun _ => ?_)) | with_reducible (refine Keeps.chainAll _ _ (fun _ _ _ => ?_) ?_) | with_reducible (refine Keeps.foldl _ _ (fun _ _ _ => ?_) ?_) | with_reducible (refine Keeps.elim _ _ ?_ (fun _ => ?_)) | simp | split)

theorem execStandbyGate_keeps (s : State) (out : State) (hx : execStandbyGate s = .next out) : Keeps s.stores out.stores := by
  unfold execStandbyGate at hx; (injection hx with hx; subst hx); repeat' (first | with_reducible assumption | with_reducible (first | apply State.gate_keeps | exact Keeps.refl _) | with_reducible (refine Keeps.ite (fun _ => ?_) (fun _ => ?_)) | with_reducible (refine Keeps.chainAll _ _ (fun _ _ _ => ?_) ?_) | with_reducible (refine Keeps.foldl _ _ (fun _ _ _ => ?_) ?_) | with_reducible (refine Keeps.elim _ _ ?_ (fun _ => ?_)) | simp | split)

theorem execWakeTimerExpire_keeps (s : State) (out : State) (hx : execWakeTimerExpire s = .next out) : Keeps s.stores out.stores := by
  unfold execWakeTimerExpire at hx; (repeat' split at hx) <;> (try contradiction) <;> cases hx <;> repeat' (first | with_reducible assumption | with_reducible (first | exact Keeps.refl _) | with_reducible (refine Keeps.ite (fun _ => ?_) (fun _ => ?_)) | with_reducible (refine Keeps.chainAll _ _ (fun _ _ _ => ?_) ?_) | simp | split)

theorem execGpioChange_keeps (k : Nat) (high : Bool) (s : State) (out : State) (hx : execGpioChange k high s = .next out) : Keeps s.stores out.stores := by
  unfold execGpioChange onInstance at hx; split at hx
  · (injection hx with hx; subst hx); repeat' (first | with_reducible assumption | with_reducible (first | exact Keeps.refl _) | with_reducible (refine Keeps.ite (fun _ => ?_) (fun _ => ?_)) | with_reducible (refine Keeps.chainAll _ _ (fun _ _ _ => ?_) ?_) | simp | split)
  · cases hx

theorem State.wakeUp_keeps {v0 : Stores} (s : State) (hk : Keeps v0 s.stores) : Keeps v0 (State.wakeUp s).stores := by
  unfold State.wakeUp; repeat' (first | with_reducible assumption | with_reducible (first | exact Keeps.refl _) | with_reducible (refine Keeps.ite (fun _ => ?_) (fun _ => ?_)) | with_reducible (refine Keeps.chainAll _ _ (fun _ _ _ => ?_) ?_) | with_reducible (refine Keeps.foldl _ _ (fun _ _ _ => ?_) ?_) | with_reducible (refine Keeps.elim _ _ ?_ (fun _ => ?_)) | simp | split)

theorem execWake_keeps (s : State) (out : State) (hx : execWake s = .next out) : Keeps s.stores out.stores := by
  unfold execWake at hx; (injection hx with hx; subst hx); repeat' (first | with_reducible assumption | with_reducible (first | apply State.wakeUp_keeps | exact Keeps.refl _) | with_reducible (refine Keeps.ite (fun _ => ?_) (fun _ => ?_)) | with_reducible (refine Keeps.chainAll _ _ (fun _ _ _ => ?_) ?_) | with_reducible (refine Keeps.foldl _ _ (fun _ _ _ => ?_) ?_) | with_reducible (refine Keeps.elim _ _ ?_ (fun _ => ?_)) | simp | split)

end Sys2Proof.Machine
end

