-- ==== Sys2Proof/Laws/RunWrites.lean ====
section
/-! SUPPORT. The commands and operations of Machine/Writes.lean that write a memory: what they keep. -/

set_option Elab.async false

namespace Sys2Proof.Machine

theorem State.resetWrite_keeps {v0 : Stores} (s : State) (w : Nat) (hk : Keeps v0 s.stores) : Keeps v0 (State.resetWrite s w).stores := by
  unfold State.resetWrite; repeat' (first | with_reducible assumption | with_reducible (first | apply State.chipReset_keeps | exact Keeps.refl _) | with_reducible (refine Keeps.ite (fun _ => ?_) (fun _ => ?_)) | with_reducible (refine Keeps.chainAll _ _ (fun _ _ _ => ?_) ?_) | with_reducible (refine Keeps.foldl _ _ (fun _ _ _ => ?_) ?_) | with_reducible (refine Keeps.elim _ _ ?_ (fun _ => ?_)) | simp | split)

theorem State.ringWrite_keeps {v0 : Stores} (s : State) (w : Nat) (hk : Keeps v0 s.stores) : Keeps v0 (State.ringWrite s w).stores := by
  unfold State.ringWrite; repeat' (first | with_reducible assumption | with_reducible (first | apply State.sendRestore_keeps | exact Keeps.refl _) | with_reducible (refine Keeps.ite (fun _ => ?_) (fun _ => ?_)) | with_reducible (refine Keeps.chainAll _ _ (fun _ _ _ => ?_) ?_) | with_reducible (refine Keeps.foldl _ _ (fun _ _ _ => ?_) ?_) | with_reducible (refine Keeps.elim _ _ ?_ (fun _ => ?_)) | simp | split)

theorem State.writeReg_keeps {v0 : Stores} (s : State) (o : Origin) (r : RegId) (i w : Nat) (hk : Keeps v0 s.stores) : Keeps v0 (State.writeReg s o r i w).stores := by
  unfold State.writeReg; repeat' (first | with_reducible assumption | with_reducible (first | apply State.resetWrite_keeps | apply State.ringWrite_keeps | apply State.writeLaneCfg_keeps | exact Keeps.refl _) | with_reducible (refine Keeps.ite (fun _ => ?_) (fun _ => ?_)) | with_reducible (refine Keeps.chainAll _ _ (fun _ _ _ => ?_) ?_) | with_reducible (refine Keeps.foldl _ _ (fun _ _ _ => ?_) ?_) | with_reducible (refine Keeps.elim _ _ ?_ (fun _ => ?_)) | simp | split)

theorem State.writeLatched_keeps {v0 : Stores} (s : State) (o : Origin) (r : RegId) (i w : Nat) (hk : Keeps v0 s.stores) : Keeps v0 (State.writeLatched s o r i w).stores := by
  unfold State.writeLatched; repeat' (first | with_reducible assumption | with_reducible (first | apply State.writeReg_keeps | exact Keeps.refl _) | with_reducible (refine Keeps.ite (fun _ => ?_) (fun _ => ?_)) | with_reducible (refine Keeps.chainAll _ _ (fun _ _ _ => ?_) ?_) | with_reducible (refine Keeps.foldl _ _ (fun _ _ _ => ?_) ?_) | with_reducible (refine Keeps.elim _ _ ?_ (fun _ => ?_)) | simp | split)

end Sys2Proof.Machine
end

