-- ==== Sys2Proof/Laws/RunAccess.lean ====
section
/-! SUPPORT. The commands and operations of Machine/Access.lean that write a memory: what they keep. -/

set_option Elab.async false

namespace Sys2Proof.Machine

theorem State.writeAt_keeps {v0 : Stores} (s : State) (o : Origin) (a w be : Nat) (hk : Keeps v0 s.stores) : Keeps v0 (State.writeAt s o a w be).stores := by
  unfold State.writeAt; repeat' (first | with_reducible assumption | with_reducible (first | apply State.writeLatched_keeps | apply State.writeReg_keeps | exact Keeps.refl _) | with_reducible (refine Keeps.ite (fun _ => ?_) (fun _ => ?_)) | with_reducible (refine Keeps.chainAll _ _ (fun _ _ _ => ?_) ?_) | with_reducible (refine Keeps.foldl _ _ (fun _ _ _ => ?_) ?_) | with_reducible (refine Keeps.elim _ _ ?_ (fun _ => ?_)) | simp | split)

theorem State.busWrite_keeps {v0 : Stores} (s : State) (o : Origin) (a w : Nat) (hk : Keeps v0 s.stores) : Keeps v0 (State.busWrite s o a w).stores := by
  unfold State.busWrite; repeat' (first | with_reducible assumption | with_reducible (first | apply State.writeAt_keeps | exact Keeps.refl _) | with_reducible (refine Keeps.ite (fun _ => ?_) (fun _ => ?_)) | with_reducible (refine Keeps.chainAll _ _ (fun _ _ _ => ?_) ?_) | with_reducible (refine Keeps.foldl _ _ (fun _ _ _ => ?_) ?_) | with_reducible (refine Keeps.elim _ _ ?_ (fun _ => ?_)) | simp | split)

theorem State.regWriteBy_keeps {v0 : Stores} (s : State) (o : Origin) (r : RegId) (i : Nat) (w : Word) (hk : Keeps v0 s.stores) : Keeps v0 (State.regWriteBy s o r i w).stores := by
  unfold State.regWriteBy; repeat' (first | with_reducible assumption | with_reducible (first | apply State.busWrite_keeps | exact Keeps.refl _) | with_reducible (refine Keeps.ite (fun _ => ?_) (fun _ => ?_)) | with_reducible (refine Keeps.chainAll _ _ (fun _ _ _ => ?_) ?_) | with_reducible (refine Keeps.foldl _ _ (fun _ _ _ => ?_) ?_) | with_reducible (refine Keeps.elim _ _ ?_ (fun _ => ?_)) | simp | split)

theorem State.busWrite64_keeps {v0 : Stores} (s : State) (o : Origin) (a w be : Nat) (hi : Option (Word × Nat)) (hk : Keeps v0 s.stores) : Keeps v0 (State.busWrite64 s o a w be hi).stores := by
  unfold State.busWrite64; repeat' (first | with_reducible assumption | with_reducible (first | apply State.writeAt_keeps | exact Keeps.refl _) | with_reducible (refine Keeps.ite (fun _ => ?_) (fun _ => ?_)) | with_reducible (refine Keeps.chainAll _ _ (fun _ _ _ => ?_) ?_) | with_reducible (refine Keeps.foldl _ _ (fun _ _ _ => ?_) ?_) | with_reducible (refine Keeps.elim _ _ ?_ (fun _ => ?_)) | simp | split)

theorem execRegisterWrite_keeps (o : Origin) (a : Nat) (w : Word) (be : Nat) (hi : Option (Word × Nat)) (poisoned : Bool) (s : State) (out : State) (hx : execRegisterWrite o a w be s hi poisoned = .next out) : Keeps s.stores out.stores := by
  unfold execRegisterWrite at hx; (injection hx with hx; subst hx); repeat' (first | with_reducible assumption | with_reducible (first | apply State.busWrite64_keeps | exact Keeps.refl _) | with_reducible (refine Keeps.ite (fun _ => ?_) (fun _ => ?_)) | with_reducible (refine Keeps.chainAll _ _ (fun _ _ _ => ?_) ?_) | with_reducible (refine Keeps.foldl _ _ (fun _ _ _ => ?_) ?_) | with_reducible (refine Keeps.elim _ _ ?_ (fun _ => ?_)) | simp | split)

theorem execCounterLowRead_keeps (o : Origin) (a : Nat) (wide : Bool) (s : State) (out : State) (hx : execCounterLowRead o a wide s = .next out) : Keeps s.stores out.stores := by
  unfold execCounterLowRead at hx; (repeat' split at hx) <;> (try contradiction) <;> cases hx <;> repeat' (first | with_reducible assumption | with_reducible (first | exact Keeps.refl _) | with_reducible (refine Keeps.ite (fun _ => ?_) (fun _ => ?_)) | with_reducible (refine Keeps.chainAll _ _ (fun _ _ _ => ?_) ?_) | simp | split)

theorem execShadowArm_keeps (o : Origin) (a : Nat) (w : Word) (s : State) (out : State) (hx : execShadowArm o a w s = .next out) : Keeps s.stores out.stores := by
  unfold execShadowArm at hx; (injection hx with hx; subst hx); repeat' (first | with_reducible assumption | with_reducible (first | apply State.busWrite_keeps | exact Keeps.refl _) | with_reducible (refine Keeps.ite (fun _ => ?_) (fun _ => ?_)) | with_reducible (refine Keeps.chainAll _ _ (fun _ _ _ => ?_) ?_) | with_reducible (refine Keeps.foldl _ _ (fun _ _ _ => ?_) ?_) | with_reducible (refine Keeps.elim _ _ ?_ (fun _ => ?_)) | simp | split)

theorem execShadowCancel_keeps (o : Origin) (a : Nat) (w : Word) (s : State) (out : State) (hx : execShadowCancel o a w s = .next out) : Keeps s.stores out.stores := by
  unfold execShadowCancel at hx; (injection hx with hx; subst hx); repeat' (first | with_reducible assumption | with_reducible (first | apply State.busWrite_keeps | exact Keeps.refl _) | with_reducible (refine Keeps.ite (fun _ => ?_) (fun _ => ?_)) | with_reducible (refine Keeps.chainAll _ _ (fun _ _ _ => ?_) ?_) | with_reducible (refine Keeps.foldl _ _ (fun _ _ _ => ?_) ?_) | with_reducible (refine Keeps.elim _ _ ?_ (fun _ => ?_)) | simp | split)

theorem State.writeWords_keeps {v0 : Stores} (s : State) (o : Origin) (a : Nat) (ws : List Nat) (hk : Keeps v0 s.stores) : Keeps v0 (s.writeWords o a ws).stores := by
  induction ws generalizing s a with
  | nil => exact hk
  | cons w r ih => unfold State.writeWords; exact ih _ _ (State.writeAt_keeps _ _ _ _ _ hk)

theorem execRegRead_keeps (m : Nat) (s : State) (out : State) (hx : execRegRead m s = .next out) : Keeps s.stores out.stores := by
  unfold execRegRead onMailbox onInstance at hx; split at hx
  · (injection hx with hx; subst hx); repeat' (first | with_reducible assumption | with_reducible (first | exact Keeps.refl _) | with_reducible (refine Keeps.ite (fun _ => ?_) (fun _ => ?_)) | with_reducible (refine Keeps.chainAll _ _ (fun _ _ _ => ?_) ?_) | simp | split)
  · cases hx

theorem State.regWriteCmd_keeps {v0 : Stores} (s : State) (m : Nat) (hk : Keeps v0 s.stores) : Keeps v0 (State.regWriteCmd s m).stores := by
  unfold State.regWriteCmd; repeat' (first | with_reducible assumption | with_reducible (first | (refine State.serve_keeps _ _ _ _ _ (fun _ _ => ?_) ?_) | apply State.writeWords_keeps | exact Keeps.refl _) | with_reducible (refine Keeps.ite (fun _ => ?_) (fun _ => ?_)) | with_reducible (refine Keeps.chainAll _ _ (fun _ _ _ => ?_) ?_) | with_reducible (refine Keeps.foldl _ _ (fun _ _ _ => ?_) ?_) | with_reducible (refine Keeps.elim _ _ ?_ (fun _ => ?_)) | simp | split)

theorem execRegWrite_keeps (m : Nat) (s : State) (out : State) (hx : execRegWrite m s = .next out) : Keeps s.stores out.stores := by
  unfold execRegWrite onMailbox onInstance at hx; split at hx
  · (injection hx with hx; subst hx); repeat' (first | with_reducible assumption | with_reducible (first | apply State.regWriteCmd_keeps | exact Keeps.refl _) | with_reducible (refine Keeps.ite (fun _ => ?_) (fun _ => ?_)) | with_reducible (refine Keeps.chainAll _ _ (fun _ _ _ => ?_) ?_) | with_reducible (refine Keeps.foldl _ _ (fun _ _ _ => ?_) ?_) | with_reducible (refine Keeps.elim _ _ ?_ (fun _ => ?_)) | simp | split)
  · cases hx

theorem execMbxDoorbell_keeps (o : Origin) (n : Nat) (w : Word) (s : State) (out : State) (hx : execMbxDoorbell o n w s = .next out) : Keeps s.stores out.stores := by
  unfold execMbxDoorbell onMailbox onInstance at hx; split at hx
  · (injection hx with hx; subst hx); repeat' (first | with_reducible assumption | with_reducible (first | apply State.regWriteBy_keeps | exact Keeps.refl _) | with_reducible (refine Keeps.ite (fun _ => ?_) (fun _ => ?_)) | with_reducible (refine Keeps.chainAll _ _ (fun _ _ _ => ?_) ?_) | with_reducible (refine Keeps.foldl _ _ (fun _ _ _ => ?_) ?_) | with_reducible (refine Keeps.elim _ _ ?_ (fun _ => ?_)) | simp | split)
  · cases hx

theorem execMbxResultAck_keeps (o : Origin) (n : Nat) (w : Word) (s : State) (out : State) (hx : execMbxResultAck o n w s = .next out) : Keeps s.stores out.stores := by
  unfold execMbxResultAck onMailbox onInstance at hx; split at hx
  · (injection hx with hx; subst hx); repeat' (first | with_reducible assumption | with_reducible (first | apply State.regWriteBy_keeps | exact Keeps.refl _) | with_reducible (refine Keeps.ite (fun _ => ?_) (fun _ => ?_)) | with_reducible (refine Keeps.chainAll _ _ (fun _ _ _ => ?_) ?_) | with_reducible (refine Keeps.foldl _ _ (fun _ _ _ => ?_) ?_) | with_reducible (refine Keeps.elim _ _ ?_ (fun _ => ?_)) | simp | split)
  · cases hx

theorem execMbxResultHeaderRead_keeps (o : Origin) (n : Nat) (wide : Bool) (s : State) (out : State) (hx : execMbxResultHeaderRead o n wide s = .next out) : Keeps s.stores out.stores := by
  unfold execMbxResultHeaderRead onMailbox onInstance at hx; split at hx
  · (injection hx with hx; subst hx); repeat' (first | with_reducible assumption | with_reducible (first | exact Keeps.refl _) | with_reducible (refine Keeps.ite (fun _ => ?_) (fun _ => ?_)) | with_reducible (refine Keeps.chainAll _ _ (fun _ _ _ => ?_) ?_) | simp | split)
  · cases hx

theorem execSemLockRead_keeps (o : Origin) (n : Nat) (s : State) (out : State) (hx : execSemLockRead o n s = .next out) : Keeps s.stores out.stores := by
  unfold execSemLockRead onInstance at hx; split at hx
  · (injection hx with hx; subst hx); repeat' (first | with_reducible assumption | with_reducible (first | exact Keeps.refl _) | with_reducible (refine Keeps.ite (fun _ => ?_) (fun _ => ?_)) | with_reducible (refine Keeps.chainAll _ _ (fun _ _ _ => ?_) ?_) | simp | split)
  · cases hx

theorem execSemRelease_keeps (o : Origin) (n : Nat) (w : Word) (s : State) (out : State) (hx : execSemRelease o n w s = .next out) : Keeps s.stores out.stores := by
  unfold execSemRelease onInstance at hx; split at hx
  · (injection hx with hx; subst hx); repeat' (first | with_reducible assumption | with_reducible (first | apply State.regWriteBy_keeps | exact Keeps.refl _) | with_reducible (refine Keeps.ite (fun _ => ?_) (fun _ => ?_)) | with_reducible (refine Keeps.chainAll _ _ (fun _ _ _ => ?_) ?_) | with_reducible (refine Keeps.foldl _ _ (fun _ _ _ => ?_) ?_) | with_reducible (refine Keeps.elim _ _ ?_ (fun _ => ?_)) | simp | split)
  · cases hx

theorem execClearBroken_keeps (o : Origin) (n : Nat) (w : Word) (s : State) (out : State) (hx : execClearBroken o n w s = .next out) : Keeps s.stores out.stores := by
  unfold execClearBroken onInstance at hx; split at hx
  · (injection hx with hx; subst hx); repeat' (first | with_reducible assumption | with_reducible (first | apply State.regWriteBy_keeps | exact Keeps.refl _) | with_reducible (refine Keeps.ite (fun _ => ?_) (fun _ => ?_)) | with_reducible (refine Keeps.chainAll _ _ (fun _ _ _ => ?_) ?_) | with_reducible (refine Keeps.foldl _ _ (fun _ _ _ => ?_) ?_) | with_reducible (refine Keeps.elim _ _ ?_ (fun _ => ?_)) | simp | split)
  · cases hx

theorem execGlbReset_keeps (o : Origin) (w : Word) (s : State) (out : State) (hx : execGlbReset o w s = .next out) : Keeps s.stores out.stores := by
  unfold execGlbReset at hx; (injection hx with hx; subst hx); repeat' (first | with_reducible assumption | with_reducible (first | apply State.regWriteBy_keeps | exact Keeps.refl _) | with_reducible (refine Keeps.ite (fun _ => ?_) (fun _ => ?_)) | with_reducible (refine Keeps.chainAll _ _ (fun _ _ _ => ?_) ?_) | with_reducible (refine Keeps.foldl _ _ (fun _ _ _ => ?_) ?_) | with_reducible (refine Keeps.elim _ _ ?_ (fun _ => ?_)) | simp | split)

theorem execPcieBar2BaseWrite_keeps (o : Origin) (f : Nat) (w : Word) (s : State) (out : State) (hx : execPcieBar2BaseWrite o f w s = .next out) : Keeps s.stores out.stores := by
  unfold execPcieBar2BaseWrite onInstance at hx; split at hx
  · (injection hx with hx; subst hx); repeat' (first | with_reducible assumption | with_reducible (first | apply State.regWriteBy_keeps | exact Keeps.refl _) | with_reducible (refine Keeps.ite (fun _ => ?_) (fun _ => ?_)) | with_reducible (refine Keeps.chainAll _ _ (fun _ _ _ => ?_) ?_) | with_reducible (refine Keeps.foldl _ _ (fun _ _ _ => ?_) ?_) | with_reducible (refine Keeps.elim _ _ ?_ (fun _ => ?_)) | simp | split)
  · cases hx

theorem State.bar2_keeps {v0 : Stores} (s : State) (f x : Nat) (op : Bar2Op) (hk : Keeps v0 s.stores) : Keeps v0 (State.bar2 s f x op).stores := by
  unfold State.bar2; repeat' (first | with_reducible assumption | with_reducible (first | apply State.putFor_keeps | exact Keeps.refl _) | with_reducible (refine Keeps.ite (fun _ => ?_) (fun _ => ?_)) | with_reducible (refine Keeps.chainAll _ _ (fun _ _ _ => ?_) ?_) | with_reducible (refine Keeps.foldl _ _ (fun _ _ _ => ?_) ?_) | with_reducible (refine Keeps.elim _ _ ?_ (fun _ => ?_)) | simp | split)

theorem execBar2Access_keeps (f x : Nat) (op : Bar2Op) (s : State) (out : State) (hx : execBar2Access f x op s = .next out) : Keeps s.stores out.stores := by
  unfold execBar2Access onInstance at hx; split at hx
  · (injection hx with hx; subst hx); repeat' (first | with_reducible assumption | with_reducible (first | apply State.bar2_keeps | exact Keeps.refl _) | with_reducible (refine Keeps.ite (fun _ => ?_) (fun _ => ?_)) | with_reducible (refine Keeps.chainAll _ _ (fun _ _ _ => ?_) ?_) | simp | split)
  · cases hx

theorem execRivChClear_keeps (o : Origin) (n : Nat) (w : Word) (s : State) (out : State) (hx : execRivChClear o n w s = .next out) : Keeps s.stores out.stores := by
  unfold execRivChClear onInstance at hx; split at hx
  · (injection hx with hx; subst hx); repeat' (first | with_reducible assumption | with_reducible (first | apply State.regWriteBy_keeps | exact Keeps.refl _) | with_reducible (refine Keeps.ite (fun _ => ?_) (fun _ => ?_)) | with_reducible (refine Keeps.chainAll _ _ (fun _ _ _ => ?_) ?_) | with_reducible (refine Keeps.foldl _ _ (fun _ _ _ => ?_) ?_) | with_reducible (refine Keeps.elim _ _ ?_ (fun _ => ?_)) | simp | split)
  · cases hx

theorem execDrsLutDataAccess_keeps (o : Origin) (w : Option Word) (s : State) (out : State) (hx : execDrsLutDataAccess o w s = .next out) : Keeps s.stores out.stores := by
  unfold execDrsLutDataAccess at hx; (injection hx with hx; subst hx); repeat' (first | with_reducible assumption | with_reducible (first | apply State.regWriteBy_keeps | exact Keeps.refl _) | with_reducible (refine Keeps.ite (fun _ => ?_) (fun _ => ?_)) | with_reducible (refine Keeps.chainAll _ _ (fun _ _ _ => ?_) ?_) | with_reducible (refine Keeps.foldl _ _ (fun _ _ _ => ?_) ?_) | with_reducible (refine Keeps.elim _ _ ?_ (fun _ => ?_)) | simp | split)

theorem execHwrDrainSet_keeps (o : Origin) (h : Nat) (w : Word) (s : State) (out : State) (hx : execHwrDrainSet o h w s = .next out) : Keeps s.stores out.stores := by
  unfold execHwrDrainSet onInstance at hx; split at hx
  · (injection hx with hx; subst hx); repeat' (first | with_reducible assumption | with_reducible (first | apply State.regWriteBy_keeps | exact Keeps.refl _) | with_reducible (refine Keeps.ite (fun _ => ?_) (fun _ => ?_)) | with_reducible (refine Keeps.chainAll _ _ (fun _ _ _ => ?_) ?_) | with_reducible (refine Keeps.foldl _ _ (fun _ _ _ => ?_) ?_) | with_reducible (refine Keeps.elim _ _ ?_ (fun _ => ?_)) | simp | split)
  · cases hx

theorem execHwrDrainClear_keeps (o : Origin) (h : Nat) (w : Word) (s : State) (out : State) (hx : execHwrDrainClear o h w s = .next out) : Keeps s.stores out.stores := by
  unfold execHwrDrainClear onInstance at hx; split at hx
  · (injection hx with hx; subst hx); repeat' (first | with_reducible assumption | with_reducible (first | apply State.regWriteBy_keeps | exact Keeps.refl _) | with_reducible (refine Keeps.ite (fun _ => ?_) (fun _ => ?_)) | with_reducible (refine Keeps.chainAll _ _ (fun _ _ _ => ?_) ?_) | with_reducible (refine Keeps.foldl _ _ (fun _ _ _ => ?_) ?_) | with_reducible (refine Keeps.elim _ _ ?_ (fun _ => ?_)) | simp | split)
  · cases hx

theorem execHwrServiceIn_keeps (o : Origin) (h : Nat) (w : Word) (s : State) (out : State) (hx : execHwrServiceIn o h w s = .next out) : Keeps s.stores out.stores := by
  unfold execHwrServiceIn onInstance at hx; split at hx
  · (injection hx with hx; subst hx); repeat' (first | with_reducible assumption | with_reducible (first | apply State.regWriteBy_keeps | exact Keeps.refl _) | with_reducible (refine Keeps.ite (fun _ => ?_) (fun _ => ?_)) | with_reducible (refine Keeps.chainAll _ _ (fun _ _ _ => ?_) ?_) | with_reducible (refine Keeps.foldl _ _ (fun _ _ _ => ?_) ?_) | with_reducible (refine Keeps.elim _ _ ?_ (fun _ => ?_)) | simp | split)
  · cases hx

theorem execHwrServiceOut_keeps (o : Origin) (h : Nat) (w : Word) (s : State) (out : State) (hx : execHwrServiceOut o h w s = .next out) : Keeps s.stores out.stores := by
  unfold execHwrServiceOut onInstance at hx; split at hx
  · (injection hx with hx; subst hx); repeat' (first | with_reducible assumption | with_reducible (first | apply State.regWriteBy_keeps | exact Keeps.refl _) | with_reducible (refine Keeps.ite (fun _ => ?_) (fun _ => ?_)) | with_reducible (refine Keeps.chainAll _ _ (fun _ _ _ => ?_) ?_) | with_reducible (refine Keeps.foldl _ _ (fun _ _ _ => ?_) ?_) | with_reducible (refine Keeps.elim _ _ ?_ (fun _ => ?_)) | simp | split)
  · cases hx

theorem execHwrPatchWrite_keeps (o : Origin) (h off : Nat) (w : Word) (s : State) (out : State) (hx : execHwrPatchWrite o h off w s = .next out) : Keeps s.stores out.stores := by
  unfold execHwrPatchWrite onInstance at hx; split at hx
  · (injection hx with hx; subst hx); repeat' (first | with_reducible assumption | with_reducible (first | apply State.busWrite_keeps | exact Keeps.refl _) | with_reducible (refine Keeps.ite (fun _ => ?_) (fun _ => ?_)) | with_reducible (refine Keeps.chainAll _ _ (fun _ _ _ => ?_) ?_) | with_reducible (refine Keeps.foldl _ _ (fun _ _ _ => ?_) ?_) | with_reducible (refine Keeps.elim _ _ ?_ (fun _ => ?_)) | simp | split)
  · cases hx

theorem execStkPinReq_keeps (o : Origin) (w : Word) (s : State) (out : State) (hx : execStkPinReq o w s = .next out) : Keeps s.stores out.stores := by
  unfold execStkPinReq at hx; (injection hx with hx; subst hx); repeat' (first | with_reducible assumption | with_reducible (first | apply State.regWriteBy_keeps | exact Keeps.refl _) | with_reducible (refine Keeps.ite (fun _ => ?_) (fun _ => ?_)) | with_reducible (refine Keeps.chainAll _ _ (fun _ _ _ => ?_) ?_) | with_reducible (refine Keeps.foldl _ _ (fun _ _ _ => ?_) ?_) | with_reducible (refine Keeps.elim _ _ ?_ (fun _ => ?_)) | simp | split)

theorem execStkUnpin_keeps (o : Origin) (w : Word) (s : State) (out : State) (hx : execStkUnpin o w s = .next out) : Keeps s.stores out.stores := by
  unfold execStkUnpin at hx; (injection hx with hx; subst hx); repeat' (first | with_reducible assumption | with_reducible (first | apply State.regWriteBy_keeps | exact Keeps.refl _) | with_reducible (refine Keeps.ite (fun _ => ?_) (fun _ => ?_)) | with_reducible (refine Keeps.chainAll _ _ (fun _ _ _ => ?_) ?_) | with_reducible (refine Keeps.foldl _ _ (fun _ _ _ => ?_) ?_) | with_reducible (refine Keeps.elim _ _ ?_ (fun _ => ?_)) | simp | split)

theorem execSpqQDisable_keeps (o : Origin) (w : Word) (s : State) (out : State) (hx : execSpqQDisable o w s = .next out) : Keeps s.stores out.stores := by
  unfold execSpqQDisable at hx; (injection hx with hx; subst hx); repeat' (first | with_reducible assumption | with_reducible (first | apply State.regWriteBy_keeps | exact Keeps.refl _) | with_reducible (refine Keeps.ite (fun _ => ?_) (fun _ => ?_)) | with_reducible (refine Keeps.chainAll _ _ (fun _ _ _ => ?_) ?_) | with_reducible (refine Keeps.foldl _ _ (fun _ _ _ => ?_) ?_) | with_reducible (refine Keeps.elim _ _ ?_ (fun _ => ?_)) | simp | split)

theorem execTmgSampleRead_keeps (o : Origin) (a : Nat) (s : State) (out : State) (hx : execTmgSampleRead o a s = .next out) : Keeps s.stores out.stores := by
  unfold execTmgSampleRead at hx; (repeat' split at hx) <;> (try contradiction) <;> cases hx <;> repeat' (first | with_reducible assumption | with_reducible (first | exact Keeps.refl _) | with_reducible (refine Keeps.ite (fun _ => ?_) (fun _ => ?_)) | with_reducible (refine Keeps.chainAll _ _ (fun _ _ _ => ?_) ?_) | simp | split)

theorem execMeterEnable_keeps (o : Origin) (w : Word) (s : State) (out : State) (hx : execMeterEnable o w s = .next out) : Keeps s.stores out.stores := by
  unfold execMeterEnable at hx; (injection hx with hx; subst hx); repeat' (first | with_reducible assumption | with_reducible (first | apply State.regWriteBy_keeps | exact Keeps.refl _) | with_reducible (refine Keeps.ite (fun _ => ?_) (fun _ => ?_)) | with_reducible (refine Keeps.chainAll _ _ (fun _ _ _ => ?_) ?_) | with_reducible (refine Keeps.foldl _ _ (fun _ _ _ => ?_) ?_) | with_reducible (refine Keeps.elim _ _ ?_ (fun _ => ?_)) | simp | split)

theorem execShaperRateWrite_keeps (o : Origin) (a : Nat) (w : Word) (s : State) (out : State) (hx : execShaperRateWrite o a w s = .next out) : Keeps s.stores out.stores := by
  unfold execShaperRateWrite at hx; (injection hx with hx; subst hx); repeat' (first | with_reducible assumption | with_reducible (first | apply State.busWrite_keeps | exact Keeps.refl _) | with_reducible (refine Keeps.ite (fun _ => ?_) (fun _ => ?_)) | with_reducible (refine Keeps.chainAll _ _ (fun _ _ _ => ?_) ?_) | with_reducible (refine Keeps.foldl _ _ (fun _ _ _ => ?_) ?_) | with_reducible (refine Keeps.elim _ _ ?_ (fun _ => ?_)) | simp | split)

theorem execSendRestore_keeps (o : Origin) (w : Word) (s : State) (out : State) (hx : execSendRestore o w s = .next out) : Keeps s.stores out.stores := by
  unfold execSendRestore at hx; (injection hx with hx; subst hx); repeat' (first | with_reducible assumption | with_reducible (first | apply State.regWriteBy_keeps | exact Keeps.refl _) | with_reducible (refine Keeps.ite (fun _ => ?_) (fun _ => ?_)) | with_reducible (refine Keeps.chainAll _ _ (fun _ _ _ => ?_) ?_) | with_reducible (refine Keeps.foldl _ _ (fun _ _ _ => ?_) ?_) | with_reducible (refine Keeps.elim _ _ ?_ (fun _ => ?_)) | simp | split)

theorem execClearCw_keeps (o : Origin) (w : Word) (s : State) (out : State) (hx : execClearCw o w s = .next out) : Keeps s.stores out.stores := by
  unfold execClearCw at hx; (injection hx with hx; subst hx); repeat' (first | with_reducible assumption | with_reducible (first | apply State.regWriteBy_keeps | exact Keeps.refl _) | with_reducible (refine Keeps.ite (fun _ => ?_) (fun _ => ?_)) | with_reducible (refine Keeps.chainAll _ _ (fun _ _ _ => ?_) ?_) | with_reducible (refine Keeps.foldl _ _ (fun _ _ _ => ?_) ?_) | with_reducible (refine Keeps.elim _ _ ?_ (fun _ => ?_)) | simp | split)

theorem execClearCcw_keeps (o : Origin) (w : Word) (s : State) (out : State) (hx : execClearCcw o w s = .next out) : Keeps s.stores out.stores := by
  unfold execClearCcw at hx; (injection hx with hx; subst hx); repeat' (first | with_reducible assumption | with_reducible (first | apply State.regWriteBy_keeps | exact Keeps.refl _) | with_reducible (refine Keeps.ite (fun _ => ?_) (fun _ => ?_)) | with_reducible (refine Keeps.chainAll _ _ (fun _ _ _ => ?_) ?_) | with_reducible (refine Keeps.foldl _ _ (fun _ _ _ => ?_) ?_) | with_reducible (refine Keeps.elim _ _ ?_ (fun _ => ?_)) | simp | split)

theorem execClone_keeps (o : Origin) (w : Word) (s : State) (out : State) (hx : execClone o w s = .next out) : Keeps s.stores out.stores := by
  unfold execClone at hx; (injection hx with hx; subst hx); repeat' (first | with_reducible assumption | with_reducible (first | apply State.regWriteBy_keeps | exact Keeps.refl _) | with_reducible (refine Keeps.ite (fun _ => ?_) (fun _ => ?_)) | with_reducible (refine Keeps.chainAll _ _ (fun _ _ _ => ?_) ?_) | with_reducible (refine Keeps.foldl _ _ (fun _ _ _ => ?_) ?_) | with_reducible (refine Keeps.elim _ _ ?_ (fun _ => ?_)) | simp | split)

theorem execGo_keeps (o : Origin) (w : Word) (s : State) (out : State) (hx : execGo o w s = .next out) : Keeps s.stores out.stores := by
  unfold execGo at hx; (injection hx with hx; subst hx); repeat' (first | with_reducible assumption | with_reducible (first | apply State.regWriteBy_keeps | exact Keeps.refl _) | with_reducible (refine Keeps.ite (fun _ => ?_) (fun _ => ?_)) | with_reducible (refine Keeps.chainAll _ _ (fun _ _ _ => ?_) ?_) | with_reducible (refine Keeps.foldl _ _ (fun _ _ _ => ?_) ?_) | with_reducible (refine Keeps.elim _ _ ?_ (fun _ => ?_)) | simp | split)

theorem execAbort_keeps (o : Origin) (w : Word) (s : State) (out : State) (hx : execAbort o w s = .next out) : Keeps s.stores out.stores := by
  unfold execAbort at hx; (injection hx with hx; subst hx); repeat' (first | with_reducible assumption | with_reducible (first | apply State.regWriteBy_keeps | exact Keeps.refl _) | with_reducible (refine Keeps.ite (fun _ => ?_) (fun _ => ?_)) | with_reducible (refine Keeps.chainAll _ _ (fun _ _ _ => ?_) ?_) | with_reducible (refine Keeps.foldl _ _ (fun _ _ _ => ?_) ?_) | with_reducible (refine Keeps.elim _ _ ?_ (fun _ => ?_)) | simp | split)

theorem execHaulTsPop_keeps (o : Origin) (p : Nat) (s : State) (out : State) (hx : execHaulTsPop o p s = .next out) : Keeps s.stores out.stores := by
  unfold execHaulTsPop onInstance at hx; split at hx
  · (injection hx with hx; subst hx); repeat' (first | with_reducible assumption | with_reducible (first | exact Keeps.refl _) | with_reducible (refine Keeps.ite (fun _ => ?_) (fun _ => ?_)) | with_reducible (refine Keeps.chainAll _ _ (fun _ _ _ => ?_) ?_) | simp | split)
  · cases hx

theorem execLaneCfgWrite_keeps (o : Origin) (n : Nat) (rx : Bool) (w : Word) (s : State) (out : State) (hx : execLaneCfgWrite o n rx w s = .next out) : Keeps s.stores out.stores := by
  unfold execLaneCfgWrite onInstance at hx; split at hx
  · (injection hx with hx; subst hx); repeat' (first | with_reducible assumption | with_reducible (first | apply State.regWriteBy_keeps | exact Keeps.refl _) | with_reducible (refine Keeps.ite (fun _ => ?_) (fun _ => ?_)) | with_reducible (refine Keeps.chainAll _ _ (fun _ _ _ => ?_) ?_) | with_reducible (refine Keeps.foldl _ _ (fun _ _ _ => ?_) ?_) | with_reducible (refine Keeps.elim _ _ ?_ (fun _ => ?_)) | simp | split)
  · cases hx

theorem execArbMaxwaitRead_keeps (o : Origin) (c r : Nat) (s : State) (out : State) (hx : execArbMaxwaitRead o c r s = .next out) : Keeps s.stores out.stores := by
  unfold execArbMaxwaitRead onInstance at hx; split at hx
  · (injection hx with hx; subst hx); repeat' (first | with_reducible assumption | with_reducible (first | exact Keeps.refl _) | with_reducible (refine Keeps.ite (fun _ => ?_) (fun _ => ?_)) | with_reducible (refine Keeps.chainAll _ _ (fun _ _ _ => ?_) ?_) | simp | split)
  · cases hx

theorem execDdrTrainStart_keeps (o : Origin) (c : Nat) (w : Word) (s : State) (out : State) (hx : execDdrTrainStart o c w s = .next out) : Keeps s.stores out.stores := by
  unfold execDdrTrainStart onInstance at hx; split at hx
  · (injection hx with hx; subst hx); repeat' (first | with_reducible assumption | with_reducible (first | apply State.regWriteBy_keeps | exact Keeps.refl _) | with_reducible (refine Keeps.ite (fun _ => ?_) (fun _ => ?_)) | with_reducible (refine Keeps.chainAll _ _ (fun _ _ _ => ?_) ?_) | with_reducible (refine Keeps.foldl _ _ (fun _ _ _ => ?_) ?_) | with_reducible (refine Keeps.elim _ _ ?_ (fun _ => ?_)) | simp | split)
  · cases hx

theorem execDdrFillStart_keeps (o : Origin) (c : Nat) (w : Word) (s : State) (out : State) (hx : execDdrFillStart o c w s = .next out) : Keeps s.stores out.stores := by
  unfold execDdrFillStart onInstance at hx; split at hx
  · (injection hx with hx; subst hx); repeat' (first | with_reducible assumption | with_reducible (first | apply State.regWriteBy_keeps | exact Keeps.refl _) | with_reducible (refine Keeps.ite (fun _ => ?_) (fun _ => ?_)) | with_reducible (refine Keeps.chainAll _ _ (fun _ _ _ => ?_) ?_) | with_reducible (refine Keeps.foldl _ _ (fun _ _ _ => ?_) ?_) | with_reducible (refine Keeps.elim _ _ ?_ (fun _ => ?_)) | simp | split)
  · cases hx

theorem execDdrLogClear_keeps (o : Origin) (w : Word) (s : State) (out : State) (hx : execDdrLogClear o w s = .next out) : Keeps s.stores out.stores := by
  unfold execDdrLogClear at hx; (injection hx with hx; subst hx); repeat' (first | with_reducible assumption | with_reducible (first | apply State.regWriteBy_keeps | exact Keeps.refl _) | with_reducible (refine Keeps.ite (fun _ => ?_) (fun _ => ?_)) | with_reducible (refine Keeps.chainAll _ _ (fun _ _ _ => ?_) ?_) | with_reducible (refine Keeps.foldl _ _ (fun _ _ _ => ?_) ?_) | with_reducible (refine Keeps.elim _ _ ?_ (fun _ => ?_)) | simp | split)

theorem execDdrConfigLock_keeps (o : Origin) (c : Nat) (w : Word) (s : State) (out : State) (hx : execDdrConfigLock o c w s = .next out) : Keeps s.stores out.stores := by
  unfold execDdrConfigLock onInstance at hx; split at hx
  · (injection hx with hx; subst hx); repeat' (first | with_reducible assumption | with_reducible (first | apply State.regWriteBy_keeps | exact Keeps.refl _) | with_reducible (refine Keeps.ite (fun _ => ?_) (fun _ => ?_)) | with_reducible (refine Keeps.chainAll _ _ (fun _ _ _ => ?_) ?_) | with_reducible (refine Keeps.foldl _ _ (fun _ _ _ => ?_) ?_) | with_reducible (refine Keeps.elim _ _ ?_ (fun _ => ?_)) | simp | split)
  · cases hx

theorem execIntcClaim_keeps (o : Origin) (t : Nat) (fell : Bool) (s : State) (out : State) (hx : execIntcClaim o t s fell = .next out) : Keeps s.stores out.stores := by
  unfold execIntcClaim onInstance at hx; split at hx
  · (injection hx with hx; subst hx); repeat' (first | with_reducible assumption | with_reducible (first | exact Keeps.refl _) | with_reducible (refine Keeps.ite (fun _ => ?_) (fun _ => ?_)) | with_reducible (refine Keeps.chainAll _ _ (fun _ _ _ => ?_) ?_) | with_reducible (refine Keeps.foldl _ _ (fun _ _ _ => ?_) ?_) | with_reducible (refine Keeps.elim _ _ ?_ (fun _ => ?_)) | simp | split)
  · cases hx

theorem execIntcClaimS_keeps (o : Origin) (fell : Bool) (s : State) (out : State) (hx : execIntcClaimS o s fell = .next out) : Keeps s.stores out.stores := by
  unfold execIntcClaimS at hx; (injection hx with hx; subst hx); repeat' (first | with_reducible assumption | with_reducible (first | exact Keeps.refl _) | with_reducible (refine Keeps.ite (fun _ => ?_) (fun _ => ?_)) | with_reducible (refine Keeps.chainAll _ _ (fun _ _ _ => ?_) ?_) | with_reducible (refine Keeps.foldl _ _ (fun _ _ _ => ?_) ?_) | with_reducible (refine Keeps.elim _ _ ?_ (fun _ => ?_)) | simp | split)

theorem execIntcComplete_keeps (o : Origin) (t : Nat) (w : Word) (s : State) (out : State) (hx : execIntcComplete o t w s = .next out) : Keeps s.stores out.stores := by
  unfold execIntcComplete onInstance at hx; split at hx
  · (injection hx with hx; subst hx); repeat' (first | with_reducible assumption | with_reducible (first | apply State.regWriteBy_keeps | exact Keeps.refl _) | with_reducible (refine Keeps.ite (fun _ => ?_) (fun _ => ?_)) | with_reducible (refine Keeps.chainAll _ _ (fun _ _ _ => ?_) ?_) | with_reducible (refine Keeps.foldl _ _ (fun _ _ _ => ?_) ?_) | with_reducible (refine Keeps.elim _ _ ?_ (fun _ => ?_)) | simp | split)
  · cases hx

theorem execIntcCompleteS_keeps (o : Origin) (w : Word) (s : State) (out : State) (hx : execIntcCompleteS o w s = .next out) : Keeps s.stores out.stores := by
  unfold execIntcCompleteS at hx; (injection hx with hx; subst hx); repeat' (first | with_reducible assumption | with_reducible (first | apply State.regWriteBy_keeps | exact Keeps.refl _) | with_reducible (refine Keeps.ite (fun _ => ?_) (fun _ => ?_)) | with_reducible (refine Keeps.chainAll _ _ (fun _ _ _ => ?_) ?_) | with_reducible (refine Keeps.foldl _ _ (fun _ _ _ => ?_) ?_) | with_reducible (refine Keeps.elim _ _ ?_ (fun _ => ?_)) | simp | split)

theorem execIntcRouteWrite_keeps (o : Origin) (n : Nat) (w : Word) (s : State) (out : State) (hx : execIntcRouteWrite o n w s = .next out) : Keeps s.stores out.stores := by
  unfold execIntcRouteWrite onInstance at hx; split at hx
  · (injection hx with hx; subst hx); repeat' (first | with_reducible assumption | with_reducible (first | apply State.regWriteBy_keeps | exact Keeps.refl _) | with_reducible (refine Keeps.ite (fun _ => ?_) (fun _ => ?_)) | with_reducible (refine Keeps.chainAll _ _ (fun _ _ _ => ?_) ?_) | with_reducible (refine Keeps.foldl _ _ (fun _ _ _ => ?_) ?_) | with_reducible (refine Keeps.elim _ _ ?_ (fun _ => ?_)) | simp | split)
  · cases hx

theorem execIntcSwSet_keeps (o : Origin) (hi : Bool) (w : Word) (s : State) (out : State) (hx : execIntcSwSet o hi w s = .next out) : Keeps s.stores out.stores := by
  unfold execIntcSwSet at hx; (injection hx with hx; subst hx); repeat' (first | with_reducible assumption | with_reducible (first | apply State.regWriteBy_keeps | exact Keeps.refl _) | with_reducible (refine Keeps.ite (fun _ => ?_) (fun _ => ?_)) | with_reducible (refine Keeps.chainAll _ _ (fun _ _ _ => ?_) ?_) | with_reducible (refine Keeps.foldl _ _ (fun _ _ _ => ?_) ?_) | with_reducible (refine Keeps.elim _ _ ?_ (fun _ => ?_)) | simp | split)

theorem execIntcSwClr_keeps (o : Origin) (hi : Bool) (w : Word) (s : State) (out : State) (hx : execIntcSwClr o hi w s = .next out) : Keeps s.stores out.stores := by
  unfold execIntcSwClr at hx; (injection hx with hx; subst hx); repeat' (first | with_reducible assumption | with_reducible (first | apply State.regWriteBy_keeps | exact Keeps.refl _) | with_reducible (refine Keeps.ite (fun _ => ?_) (fun _ => ?_)) | with_reducible (refine Keeps.chainAll _ _ (fun _ _ _ => ?_) ?_) | with_reducible (refine Keeps.foldl _ _ (fun _ _ _ => ?_) ?_) | with_reducible (refine Keeps.elim _ _ ?_ (fun _ => ?_)) | simp | split)

theorem execFltSrcAck_keeps (o : Origin) (f : Nat) (w : Word) (s : State) (out : State) (hx : execFltSrcAck o f w s = .next out) : Keeps s.stores out.stores := by
  unfold execFltSrcAck onInstance at hx; split at hx
  · (injection hx with hx; subst hx); repeat' (first | with_reducible assumption | with_reducible (first | apply State.regWriteBy_keeps | exact Keeps.refl _) | with_reducible (refine Keeps.ite (fun _ => ?_) (fun _ => ?_)) | with_reducible (refine Keeps.chainAll _ _ (fun _ _ _ => ?_) ?_) | with_reducible (refine Keeps.foldl _ _ (fun _ _ _ => ?_) ?_) | with_reducible (refine Keeps.elim _ _ ?_ (fun _ => ?_)) | simp | split)
  · cases hx

theorem execFltSafeRelease_keeps (o : Origin) (hi : Bool) (w : Word) (s : State) (out : State) (hx : execFltSafeRelease o hi w s = .next out) : Keeps s.stores out.stores := by
  unfold execFltSafeRelease at hx; (injection hx with hx; subst hx); repeat' (first | with_reducible assumption | with_reducible (first | apply State.regWriteBy_keeps | exact Keeps.refl _) | with_reducible (refine Keeps.ite (fun _ => ?_) (fun _ => ?_)) | with_reducible (refine Keeps.chainAll _ _ (fun _ _ _ => ?_) ?_) | with_reducible (refine Keeps.foldl _ _ (fun _ _ _ => ?_) ?_) | with_reducible (refine Keeps.elim _ _ ?_ (fun _ => ?_)) | simp | split)

theorem execKick_keeps (o : Origin) (w : Word) (s : State) (out : State) (hx : execKick o w s = .next out) : Keeps s.stores out.stores := by
  unfold execKick at hx; (injection hx with hx; subst hx); repeat' (first | with_reducible assumption | with_reducible (first | apply State.regWriteBy_keeps | exact Keeps.refl _) | with_reducible (refine Keeps.ite (fun _ => ?_) (fun _ => ?_)) | with_reducible (refine Keeps.chainAll _ _ (fun _ _ _ => ?_) ?_) | with_reducible (refine Keeps.foldl _ _ (fun _ _ _ => ?_) ?_) | with_reducible (refine Keeps.elim _ _ ?_ (fun _ => ?_)) | simp | split)

theorem execTbStep_keeps (o : Origin) (w : Word) (s : State) (out : State) (hx : execTbStep o w s = .next out) : Keeps s.stores out.stores := by
  unfold execTbStep at hx; (injection hx with hx; subst hx); repeat' (first | with_reducible assumption | with_reducible (first | apply State.regWriteBy_keeps | exact Keeps.refl _) | with_reducible (refine Keeps.ite (fun _ => ?_) (fun _ => ?_)) | with_reducible (refine Keeps.chainAll _ _ (fun _ _ _ => ?_) ?_) | with_reducible (refine Keeps.foldl _ _ (fun _ _ _ => ?_) ?_) | with_reducible (refine Keeps.elim _ _ ?_ (fun _ => ?_)) | simp | split)

theorem execTbTrimWrite_keeps (o : Origin) (w : Word) (s : State) (out : State) (hx : execTbTrimWrite o w s = .next out) : Keeps s.stores out.stores := by
  unfold execTbTrimWrite at hx; (injection hx with hx; subst hx); repeat' (first | with_reducible assumption | with_reducible (first | apply State.regWriteBy_keeps | exact Keeps.refl _) | with_reducible (refine Keeps.ite (fun _ => ?_) (fun _ => ?_)) | with_reducible (refine Keeps.chainAll _ _ (fun _ _ _ => ?_) ?_) | with_reducible (refine Keeps.foldl _ _ (fun _ _ _ => ?_) ?_) | with_reducible (refine Keeps.elim _ _ ?_ (fun _ => ?_)) | simp | split)

theorem execTmrCmpWrite_keeps (o : Origin) (n : Nat) (w : Word) (s : State) (out : State) (hx : execTmrCmpWrite o n w s = .next out) : Keeps s.stores out.stores := by
  unfold execTmrCmpWrite onInstance at hx; split at hx
  · (injection hx with hx; subst hx); repeat' (first | with_reducible assumption | with_reducible (first | apply State.regWriteBy_keeps | exact Keeps.refl _) | with_reducible (refine Keeps.ite (fun _ => ?_) (fun _ => ?_)) | with_reducible (refine Keeps.chainAll _ _ (fun _ _ _ => ?_) ?_) | with_reducible (refine Keeps.foldl _ _ (fun _ _ _ => ?_) ?_) | with_reducible (refine Keeps.elim _ _ ?_ (fun _ => ?_)) | simp | split)
  · cases hx

theorem execTmrOverrunRead_keeps (o : Origin) (n : Nat) (s : State) (out : State) (hx : execTmrOverrunRead o n s = .next out) : Keeps s.stores out.stores := by
  unfold execTmrOverrunRead onInstance at hx; split at hx
  · (injection hx with hx; subst hx); repeat' (first | with_reducible assumption | with_reducible (first | exact Keeps.refl _) | with_reducible (refine Keeps.ite (fun _ => ?_) (fun _ => ?_)) | with_reducible (refine Keeps.chainAll _ _ (fun _ _ _ => ?_) ?_) | simp | split)
  · cases hx

theorem execBpmMinFreeRead_keeps (o : Origin) (s : State) (out : State) (hx : execBpmMinFreeRead o s = .next out) : Keeps s.stores out.stores := by
  unfold execBpmMinFreeRead at hx; (repeat' split at hx) <;> (try contradiction) <;> cases hx <;> repeat' (first | with_reducible assumption | with_reducible (first | exact Keeps.refl _) | with_reducible (refine Keeps.ite (fun _ => ?_) (fun _ => ?_)) | with_reducible (refine Keeps.chainAll _ _ (fun _ _ _ => ?_) ?_) | simp | split)

theorem execPwrVminRead_keeps (o : Origin) (s : State) (out : State) (hx : execPwrVminRead o s = .next out) : Keeps s.stores out.stores := by
  unfold execPwrVminRead at hx; (repeat' split at hx) <;> (try contradiction) <;> cases hx <;> repeat' (first | with_reducible assumption | with_reducible (first | exact Keeps.refl _) | with_reducible (refine Keeps.ite (fun _ => ?_) (fun _ => ?_)) | with_reducible (refine Keeps.chainAll _ _ (fun _ _ _ => ?_) ?_) | simp | split)

theorem execSpdWipe_keeps (o : Origin) (w : Word) (s : State) (out : State) (hx : execSpdWipe o w s = .next out) : Keeps s.stores out.stores := by
  unfold execSpdWipe at hx; (injection hx with hx; subst hx); repeat' (first | with_reducible assumption | with_reducible (first | apply State.regWriteBy_keeps | exact Keeps.refl _) | with_reducible (refine Keeps.ite (fun _ => ?_) (fun _ => ?_)) | with_reducible (refine Keeps.chainAll _ _ (fun _ _ _ => ?_) ?_) | with_reducible (refine Keeps.foldl _ _ (fun _ _ _ => ?_) ?_) | with_reducible (refine Keeps.elim _ _ ?_ (fun _ => ?_)) | simp | split)

theorem execBlockWorldLock_keeps (o : Origin) (w : Word) (s : State) (out : State) (hx : execBlockWorldLock o w s = .next out) : Keeps s.stores out.stores := by
  unfold execBlockWorldLock at hx; (injection hx with hx; subst hx); repeat' (first | with_reducible assumption | with_reducible (first | apply State.regWriteBy_keeps | exact Keeps.refl _) | with_reducible (refine Keeps.ite (fun _ => ?_) (fun _ => ?_)) | with_reducible (refine Keeps.chainAll _ _ (fun _ _ _ => ?_) ?_) | with_reducible (refine Keeps.foldl _ _ (fun _ _ _ => ?_) ?_) | with_reducible (refine Keeps.elim _ _ ?_ (fun _ => ?_)) | simp | split)

theorem execRegionLock_keeps (o : Origin) (r : Nat) (w : Word) (s : State) (out : State) (hx : execRegionLock o r w s = .next out) : Keeps s.stores out.stores := by
  unfold execRegionLock onInstance at hx; split at hx
  · (injection hx with hx; subst hx); repeat' (first | with_reducible assumption | with_reducible (first | apply State.regWriteBy_keeps | exact Keeps.refl _) | with_reducible (refine Keeps.ite (fun _ => ?_) (fun _ => ?_)) | with_reducible (refine Keeps.chainAll _ _ (fun _ _ _ => ?_) ?_) | with_reducible (refine Keeps.foldl _ _ (fun _ _ _ => ?_) ?_) | with_reducible (refine Keeps.elim _ _ ?_ (fun _ => ?_)) | simp | split)
  · cases hx

end Sys2Proof.Machine
end

