-- ==== Sys2Proof/Laws/RunJobs.lean ====
section
/-! SUPPORT. The commands and operations of Machine/Jobs.lean that write a memory: what they keep. -/

set_option Elab.async false

namespace Sys2Proof.Machine

theorem State.jobWork_keeps {v0 : Stores} (s : State) (w : JobWork) (ok : Bool) (t : State) (n : Nat) (e : s.jobWork w ok = some (t, n)) (hk : Keeps v0 s.stores) : Keeps v0 t.stores := by
  unfold State.jobWork at e
  split at e <;> simp only [Option.some.injEq, reduceCtorEq, Prod.ext_iff] at e
  all_goals (obtain ⟨rfl, -⟩ := e)
  · exact hk
  · split
    · apply Keeps.program; apply Keeps.erase; exact hk
    · exact hk
  all_goals ((repeat' split) <;> simpa using hk)

theorem State.jobDone_keeps {v0 : Stores} (s : State) (j : Nat) (ok : Bool) (hk : Keeps v0 s.stores) : Keeps v0 (State.jobDone s j ok).stores := by
  unfold State.jobDone; repeat' (first | with_reducible assumption | with_reducible (first | (refine State.jobWork_keeps _ _ _ _ _ ‹_› ?_) | exact Keeps.refl _) | with_reducible (refine Keeps.ite (fun _ => ?_) (fun _ => ?_)) | with_reducible (refine Keeps.chainAll _ _ (fun _ _ _ => ?_) ?_) | with_reducible (refine Keeps.foldl _ _ (fun _ _ _ => ?_) ?_) | with_reducible (refine Keeps.elim _ _ ?_ (fun _ => ?_)) | simp | split)

theorem execJobDone_keeps (j : Nat) (ok : Bool) (s : State) (out : State) (hx : execJobDone j ok s = .next out) : Keeps s.stores out.stores := by
  unfold execJobDone at hx; (injection hx with hx; subst hx); repeat' (first | with_reducible assumption | with_reducible (first | apply State.jobDone_keeps | exact Keeps.refl _) | with_reducible (refine Keeps.ite (fun _ => ?_) (fun _ => ?_)) | with_reducible (refine Keeps.chainAll _ _ (fun _ _ _ => ?_) ?_) | with_reducible (refine Keeps.foldl _ _ (fun _ _ _ => ?_) ?_) | with_reducible (refine Keeps.elim _ _ ?_ (fun _ => ?_)) | simp | split)

end Sys2Proof.Machine
end

