-- ==== Sys2Proof/Machine/Package.lean ====
section
/-! DEFINITION. The ball map of the package (R435 to R439): what each of the 2,704 balls is, by row and column. It is no part of State: no command reads or changes it. -/

namespace Sys2Proof.Machine

/-- The supplies of the package. -/
inductive Rail where
  | vss
  | core
  | sram
  | aon
  | lane
  | laneHigh
  | ddr
  | ddrAnalog
  | io
  | io33
deriving DecidableEq, Repr

/-- A ball of a DDR5 subchannel (R437). -/
inductive DdrPin where
  | dq (n : Nat)
  | dqsT (b : Nat)
  | dqsC (b : Nat)
  | ca (n : Nat)
  | cs (n : Nat)
  | ckT
  | ckC
  | alert
  | resetN
  | zq
deriving DecidableEq, Repr

/-- A signal of the ring of the centre (R438). -/
inductive Signal where
  | refclkP
  | refclkN
  | porN
  | resetN
  | faultN
  | irqN
  | tamper (n : Nat)
  | pciePerstN
  | pmbScl
  | pmbSda
  | pmbAlertN
  | gpio (n : Nat)
  | qspiClk
  | qspiCsN
  | qspiIo (n : Nat)
  | uartTxd
  | uartRxd
  | tck
  | tms
  | tdi
  | tdo
  | trstN
deriving DecidableEq, Repr

/-- What a ball is. -/
inductive Ball where
  | supply (r : Rail)
  | coreSense
  | vssSense
  | laneTx (n : Nat) (neg : Bool)
  | laneRx (n : Nat) (neg : Bool)
  | ddr (channel : Nat) (b : Bool) (pin : DdrPin)
  | signal (s : Signal)
deriving DecidableEq, Repr

/-- Side, depth and position of a ball outside the centre (R435), from row and column 1 to 52. -/
def bandOf (r c : Nat) : Option (Nat × Nat × Nat) :=
  if r ≤ 12 ∧ c ≤ 40 then some (0, r - 1, c)
  else if 41 ≤ c ∧ r ≤ 40 then some (1, 52 - c, r)
  else if 41 ≤ r ∧ 13 ≤ c then some (2, 52 - r, 53 - c)
  else if c ≤ 12 ∧ 13 ≤ r then some (3, c - 1, 53 - r)
  else none

/-- The serial lanes at depths 0 to 3 (R436). -/
def laneBall (side d p : Nat) : Ball :=
  let q := 4 * side + (p - 1) / 10
  let o := (p - 1) % 10
  let n := 4 * q + o / 2
  let neg := decide (o % 2 = 1)
  if d = 3 then .supply .vss
  else if o = 8 then .supply .lane
  else if o = 9 then .supply .laneHigh
  else if d = 0 then .laneTx n neg
  else if d = 2 then .laneRx n neg
  else .supply .vss

/-- Commands, clock and the rest of a subchannel, at depth 10 (R437). -/
def ddrCommand (sub : Bool) (t : Nat) : DdrPin :=
  if t ≤ 13 then .ca t
  else if t ≤ 15 then .cs (t - 14)
  else if t = 16 then .ckT
  else if t = 17 then .ckC
  else if t = 18 then .alert
  else if sub then .zq
  else .resetN

/-- A DDR5 channel at depths 4 to 11 (R437). -/
def ddrBall (side d p : Nat) : Ball :=
  let sub := decide (20 < p)
  let t := (p - 1) % 20
  let b := t / 4
  let i := t % 4
  if d = 4 then .ddr side sub (.dq (8 * b + i))
  else if d = 6 then .ddr side sub (.dq (8 * b + 4 + i))
  else if d = 8 then (if i = 0 then .ddr side sub (.dqsT b) else if i = 1 then .ddr side sub (.dqsC b) else .supply .ddr)
  else if d = 10 then .ddr side sub (ddrCommand sub t)
  else if d = 11 ∧ i = 0 then .supply .ddrAnalog
  else .supply .vss

/-- Signal slot `j` of the ring of the centre (R438). -/
def ringSignal (j : Nat) : Ball :=
  if 7 ≤ j ∧ j ≤ 10 then .signal (.tamper (j - 7))
  else if 15 ≤ j ∧ j ≤ 46 then .signal (.gpio (j - 15))
  else if 49 ≤ j ∧ j ≤ 52 then .signal (.qspiIo (j - 49))
  else
    match j with
    | 0 => .signal .refclkP
    | 1 => .signal .refclkN
    | 3 => .signal .porN
    | 4 => .signal .resetN
    | 5 => .signal .faultN
    | 6 => .signal .irqN
    | 11 => .signal .pciePerstN
    | 12 => .signal .pmbScl
    | 13 => .signal .pmbSda
    | 14 => .signal .pmbAlertN
    | 47 => .signal .qspiClk
    | 48 => .signal .qspiCsN
    | 53 => .signal .uartTxd
    | 54 => .signal .uartRxd
    | 55 => .signal .tck
    | 56 => .signal .tms
    | 57 => .signal .tdi
    | 58 => .signal .tdo
    | 59 => .signal .trstN
    | _ => .supply .vss

/-- Ball `k` of the ring of the centre (R438): every fourth is a supply. -/
def ringBall (k : Nat) : Ball :=
  if k % 4 ≠ 3 then ringSignal (k - (k + 1) / 4)
  else if k % 16 = 3 then .supply .aon
  else if k % 16 = 7 then .supply .io
  else if k % 16 = 11 then .supply .io33
  else .supply .vss

/-- The number of a ball of the ring, clockwise from N13 (R438). -/
def ringIndex (r c : Nat) : Nat :=
  if r = 13 then c - 13
  else if c = 40 then 27 + (r - 13)
  else if r = 40 then 54 + (40 - c)
  else 81 + (40 - r)

/-- A ball of the centre (R438). -/
def centreBall (r c : Nat) : Ball :=
  let e := min (min (r - 13) (40 - r)) (min (c - 13) (40 - c))
  if e = 0 then ringBall (ringIndex r c)
  else if (r + c) % 2 = 0 then .supply .vss
  else if e = 1 then .supply .sram
  else .supply .core

/-- The ball at row `r` (1 for A, 52 for BP) and column `c`, 1 to 52 each (R435); AB26 and AC26 are the exceptions of R439. -/
def ballAt (r c : Nat) : Ball :=
  if r = 21 ∧ c = 26 then .coreSense
  else if r = 22 ∧ c = 26 then .vssSense
  else
    match bandOf r c with
    | some (side, d, p) => if d ≤ 3 then laneBall side d p else ddrBall side d p
    | none => centreBall r c

end Sys2Proof.Machine
end

