-- ==== Sys2Proof/Tests/Slice0.lean ====
section
/-! SUPPORT. The model's own tests: the checks of WellFormed, and for each statement states and operands that meet its hypotheses. -/

namespace Sys2Proof.Tests

set_option Elab.async false
open Sys2Proof.Machine

-- ## Small states

/-- Reset with register fields written. -/
def put (l : List (Fld × Nat × Nat)) : State := l.foldl (fun s e => s.setF e.1 e.2.1 e.2.2) State.reset

/-- Arguments as words. -/
def argWords (m i : Nat) (ws : List Nat) : List (Fld × Nat × Nat) :=
  match ws with
  | [] => []
  | w :: r => (F.MBX_COMMAND_DATA, 64 * m + i, w) :: argWords m (i + 1) r

/-- Mailbox `m` holds command `op` with these argument bytes at FW_READY; further fields as listed. -/
def cmd (m op : Nat) (args : List Nat) (l : List (Fld × Nat × Nat)) : State :=
  put ([(F.GLB_BOOT_STATUS_STAGE, 0, 4), (F.MBX_STATUS_BUSY, m, 1), (F.MBX_COMMAND_DATA, 64 * m, op + 65536 * 5), (F.MBX_COMMAND_DATA, 64 * m + 1, args.length)] ++
    argWords m 2 (wordsOf 62 (args.map (fun a => BitVec.ofNat 8 a))) ++ l)

/-- An open session of function 0. -/
def f0 : List (Fld × Nat × Nat) := [(F.GLB_EXPERT_UNLOCKED_F0, 0, 1)]

/-- Reset, changed. -/
def rst (g : State → State) : State := g State.reset

/-- The state with wall 1 open, of the given form, and contexts. -/
def withWall (w : Wall) (cs : Tab (Option Ctx)) (s : State) : State := s.withCodec (fun k => { k with walls := [(1, some w)], ctxs := cs })

/-- A tile of 64 by 64 samples; wall 1 with it as tile 5. -/
def tile4 : Tile := { w16 := 4, h16 := 4 }
def wall5 : Wall := { tiles := [(5, some tile4)] }

/-- Wall 1 on grid 0, decode context 0, an index table of one cabinet at 4,096, and lanes 0 and 1 as lamp ports 0 and 47. -/
def withTable (s : State) : State :=
  let s := withWall { grid := some 0 } [(0, some { wall := 1, tile := 5, geo := tile4 })] s
  let s := ((((s.putDram 4096 [1]).putDram 4160 [1, 0, 0, 0, 1]).putDram 4169 [0x20]).putDram 8194 [1]).putDram 8201 [0x30]
  let s := ((s.setF F.LANE_CFG_EN 0 1).setF F.LANE_CFG_FUNC 0 2).setF F.LANE_CFG_PORT 0 0
  ((s.setF F.LANE_CFG_EN 1 1).setF F.LANE_CFG_FUNC 1 2).setF F.LANE_CFG_PORT 1 47

/-- A calibration record with one entry, of lane 5. -/
def calRec : List Byte :=
  let tail := List.replicate 12 0 ++ [1, 0, 0, 5, 0, 4, 0x30, 0]
  [0x59, 0x46, 0x43, 0x4C, 0, 1, 0, 18] ++ List.replicate 8 0 ++ beBytes 4 (crc32 tail) ++ tail

def w1 : State := rst (fun s => { s with pending := [.wake, .resetN] })
def w2 : State := State.reset
def w3 : State := cmd 15 19 [] [(F.FLT_STATUS_FATAL, 0, 1)]
def w4 : State := cmd 0 144 [] [(F.FLT_STATUS_FATAL, 0, 1)]
def w5 : State := cmd 12 1040 [0] []
def w6 : State := cmd 7 145 [] [(F.GLB_BOOT_STATUS_LC_STATE, 0, 2)]
def w7 : State := cmd 7 1168 [] f0
def w8 : State := cmd 15 1 [] []
def w9 : State := (cmd 0 2 [7, 0, 0, 0] []).withFw (fun w => { w with jobs := [{ num := 7, mbx := 15 }] })
def w10 : State := cmd 0 2 [7, 0, 0, 0] []
def w11 : State := (State.reset).withFw (fun w => { w with jobs := [{ num := 7, mbx := 15 }] })
def w12 : State := cmd 15 160 [] []
def w13 : State := cmd 11 161 [] []
def w14 : State := (cmd 7 161 [0, 0, 0, 0, 0, 0, 0, 0, 0, 0, 0, 0, 0, 0, 0, 0, 0, 0, 0, 0, 0, 0, 0, 0, 0, 0, 0, 0, 0, 0, 0, 0, 0, 0, 0, 0, 0, 0, 0, 0, 0, 0, 0, 0, 0, 0, 0, 0, 0, 0, 0, 0, 0, 0, 0, 0, 0, 0, 0, 0, 0, 0, 0, 0, 0, 0, 0, 0, 0, 0, 0, 0, 0, 0, 0, 0, 0, 0, 0, 0, 0, 0, 0, 0, 0, 0, 0, 0, 0, 0, 0, 0, 0, 0, 0, 0, 0, 0, 0, 0, 0, 0, 0, 0, 0, 0, 0, 0, 0, 0, 0, 0, 0, 0] [(F.GLB_BOOT_STATUS_LC_STATE, 0, 2)]).setChallenge 7 [1]
def w15 : State := cmd 12 161 [] [(F.GLB_EXPERT_UNLOCKED_R, 0, 1)]
def w16 : State := cmd 7 162 [] [(F.GLB_EXPERT_UNLOCKED_F0, 0, 1), (F.GLB_EXPERT_HOLDER_F0, 0, 7)]
def w17 : State := cmd 0 1024 [252, 255, 255, 3, 1] f0
def w18 : State := cmd 0 1024 [32, 0, 0, 0, 1] (f0 ++ [(F.GLB_SCRATCH_VALUE, 0, 77)])
def w19 : State := cmd 0 1025 [32, 0, 0, 0, 1, 2, 3, 4] f0
def w20 : State := cmd 0 112 [255, 255, 95, 0, 0, 9] []
def w21 : State := cmd 0 112 [0, 0, 0, 0, 1, 9] []
def w22 : State := cmd 0 113 [] []
def w23 : State := (put [(F.GLB_BOOT_STATUS_STAGE, 0, 4)]).withFw (fun w => { w with jobs := [{ num := 7, mbx := 15, work := .verify }] })
def w24 : State := (cmd 0 114 [] []).withFw (fun w => { w with verified := some { slot := 1 } })
def w25 : State := ((cmd 0 115 [] [(F.GLB_BOOT_STATUS_TRIAL, 0, 1)]).withFw (fun w => { w with confirm := some 600, previous := some 0 }))
def w26 : State := ((cmd 0 115 [1] [(F.GLB_BOOT_STATUS_TRIAL, 0, 1)]).withFw (fun w => { w with confirm := some 600, previous := some 0, image := { secVersion := 3 } }))
def w27 : State := (put [(F.GLB_BOOT_STATUS_STAGE, 0, 4)]).withFw (fun w => { w with confirm := some 600, previous := some 0 })
def w28 : State := cmd 0 2048 [] [(F.GLB_BOOT_STATUS_STAGE, 0, 2)]
def w29 : State := cmd 0 2049 [0, 1, 0, 0, 240] [(F.GLB_BOOT_STATUS_STAGE, 0, 2)]
def w30 : State := cmd 0 2050 [0, 0, 1, 0] [(F.GLB_BOOT_STATUS_STAGE, 0, 2)]
def w31 : State := cmd 0 2051 [0, 0, 1, 0, 1, 9] [(F.GLB_BOOT_STATUS_STAGE, 0, 2)]
def w32 : State := cmd 0 2052 [] [(F.GLB_BOOT_STATUS_STAGE, 0, 2)]
def w33 : State := put [(F.GLB_SCRATCH_VALUE, 0, 5)]
def w34 : State := put [(F.FLT_STATUS_FATAL, 0, 1)]
def w35 : State := put [(F.GLB_SCRATCH_VALUE, 0, 5), (F.PWR_THERM_WARN, 0, 99)]
def w36 : State := (State.reset).withFw (fun w => { w with clearing := false })
def w37 : State := put [(F.GLB_BOOT_STATUS_STAGE, 0, 3)]
def w38 : State := put [(F.GLB_BOOT_STATUS_STAGE, 0, 4), (F.GLB_HEARTBEAT_COUNT, 0, 4294967295)]
def w39 : State := put [(F.GLB_EXPERT_UNLOCKED_R, 0, 1), (F.GLB_EXPERT_HOLDER_R, 0, 13)]
def w40 : State := put [(F.GLB_BOOT_STATUS_STAGE, 0, 4), (F.MBX_COMMAND_DATA, 64 * 7, 1)]
def w41 : State := put [(F.MBX_STATUS_RESULT_PENDING, 7, 1)]
def w42 : State := put [(F.GLB_BOOT_STATUS_STAGE, 0, 4), (F.MBX_COMMAND_DATA, 64 * 7, 0x999)]
def w43 : State := put [(F.MBX_RESULT_DATA, 64 * 15, 0x80050000), (F.MBX_STATUS_RESULT_PENDING, 15, 1)]
def w44 : State := put [(F.MBX_RESULT_DATA, 0, 0x80FE0000)]
def w45 : State := put [(F.MBX_RESULT_DATA, 0, 0x80FF0000), (F.MBX_RESULT_DATA, 1, 9)]
def w46 : State := put [(F.SEM_LOCK_OWNER, 63, 4)]
def w47 : State := put [(F.SEM_LOCK_OWNER, 63, 1)]
def w48 : State := (put [(F.SEM_LOCK_OWNER, 31, 4)]).withFw (fun w => { w with lockRefused := [31] })
def w49 : State := put [(F.SEM_LOCK_OWNER, 63, 4), (F.SEM_LOCK_BROKEN, 63, 1)]
def w50 : State := put [(F.SEM_LOCK_OWNER, 63, 4), (F.SEM_LEASE_VAL, 63, 4)]
def w51 : State := put [(F.GLB_BOOT_STATUS_STAGE, 0, 4), (F.MBX_COMMAND_DATA, 1023, 0x11223344)]
def w52 : State := rst (fun s => s.withTime (fun t => { t with c := 2 ^ 33 + 3 }))
def w53 : State := put [(F.TMR_CMP_HI_CMP, 63, 7)]
def w54 : State := put f0
def w55 : State := put (f0 ++ [(F.DDR_TIMING_ARM_SHADOW_ARMED, 3, 1)])
def w56 : State := put [(F.RIV_CH_CTRL_SHADOW_ARMED, 63, 1)]
def w57 : State := put [(F.GLB_BOOT_STATUS_LC_STATE, 0, 2)]
def w58 : State := ((put [(F.DDR_CTRL_EN, 0, 1), (F.DDR_STATUS_STATE, 0, 2), (F.DDR_CTRL_EN, 1, 1), (F.DDR_STATUS_STATE, 1, 2), (F.DDR_CTRL_EN, 2, 1), (F.DDR_STATUS_STATE, 2, 2), (F.DDR_CTRL_EN, 3, 1), (F.DDR_STATUS_STATE, 3, 2)]).putDram 64 [1, 2, 3])
def w59 : State := put [(F.DDR_CTRL_EN, 0, 1), (F.DDR_STATUS_STATE, 0, 2), (F.DDR_CTRL_EN, 1, 1), (F.DDR_STATUS_STATE, 1, 2), (F.DDR_CTRL_EN, 2, 1), (F.DDR_STATUS_STATE, 2, 2), (F.DDR_CTRL_EN, 3, 1), (F.DDR_STATUS_STATE, 3, 2)]
def w60 : State := put [(F.DDR_CTRL_EN, 0, 1), (F.DDR_STATUS_STATE, 0, 2), (F.DDR_CTRL_EN, 1, 1), (F.DDR_STATUS_STATE, 1, 2), (F.DDR_CTRL_EN, 2, 1), (F.DDR_STATUS_STATE, 2, 2), (F.DDR_CTRL_EN, 3, 1), (F.DDR_STATUS_STATE, 3, 2), (F.SEC_REGION_ATTR_EN, 5, 1), (F.SEC_REGION_ATTR_WORLD, 5, 1)]
def w61 : State := put [(F.PCIE_BAR2_BASE_F0_BASE, 0, 127)]
def w62 : State := put [(F.SEM_LOCK_OWNER, 63, 5), (F.SEM_LOCK_OWNER, 3, 4), (F.GLB_EXPERT_UNLOCKED_F1, 0, 1)]
def w63 : State := put [(F.GLB_EXPERT_UNLOCKED_F1, 0, 1)]
def w64 : State := put [(F.GLB_EXPERT_UNLOCKED_F0, 0, 1)]
def w65 : State := (put [(F.INTC_SW_SET_LO_LEVEL, 0, 1), (F.INTC_ROUTE_EN, 960, 1), (F.INTC_ROUTE_TARGET, 960, 2)]).withIntc (fun w => { w with due := [0], masked := [0], msiEnable := [(0, 1)] })
def w66 : State := State.reset.withIntc (fun w => { w with due := [63], masked := [63], msiEnable := [(1, 1)] })
def w67 : State := State.reset.withIntc (fun w => { w with masked := [63, 3, 62] })
def w68 : State := put [(F.SEM_LOCK_OWNER, 63, 8), (F.SEM_LOCK_OWNER, 3, 4)]
def w69 : State := put [(F.INTC_SW_SET_LO_LEVEL, 0, 1), (F.INTC_ROUTE_EN, 960, 1), (F.INTC_ROUTE_TARGET, 960, 3)]
def w70 : State := put [(F.INTC_SW_SET_LO_LEVEL, 0, 1), (F.INTC_ROUTE_EN, 960, 1), (F.INTC_ROUTE_TARGET, 960, 3), (F.INTC_TGT_CNT_COUNT, 9, 4294967295)]
def w71 : State := (put []).withIntc (fun w => { w with stack := [(3, [1, 2, 3, 4, 5, 6, 7, 8])] })
def w72 : State := put [(F.FLT_SRC_STATUS_ACTIVE, 4, 1), (F.FLT_SRC_CFG_CLASS, 4, 1), (F.INTC_ROUTE_EN, 4, 1), (F.INTC_ROUTE_EN, 5, 1), (F.INTC_ROUTE_EN, 31, 1), (F.INTC_ROUTE_EN, 27, 1), (F.INTC_ROUTE_TARGET, 27, 2), (F.MBX_STATUS_BUSY, 11, 1)]
def w73 : State := put [(F.INTC_TGT_CNT_COUNT, 7, 4294967295)]
def w74 : State := (put []).withIntc (fun w => { w with stack := [(2, [1, 2, 3, 4, 5, 6, 7, 8])] })
def w75 : State := (put []).withIntc (fun w => { w with stack := [(3, [1, 1023])] })
def w76 : State := (put []).withIntc (fun w => { w with stack := [(2, [1, 1023])] })
def w77 : State := (put []).withIntc (fun w => { w with routeNext := [(1023, some (1, 3))] })
def w78 : State := (put []).withIntc (fun w => { w with stack := [(3, [1023])] })
def w79 : State := cmd 0 1168 [2, 0, 223, 3, 1, 3, 31, 0, 79, 3, 3, 2, 31, 0] f0
def w80 : State := cmd 0 1168 [2, 0, 223, 3, 1, 3, 31, 0, 223, 3, 0, 0, 30, 0] f0
def w81 : State := put [(F.INTC_SW_SET_LO_LEVEL, 0, 1)]
def w82 : State := put [(F.INTC_SW_SET_HI_LEVEL, 0, 1)]
def w83 : State := put [(F.INTC_SW_SET_LO_LEVEL, 0, 0x80000001)]
def w84 : State := put [(F.INTC_SW_SET_HI_LEVEL, 0, 0x80000001)]
def w85 : State := ((State.reset).withPwr (fun w => { w with standby := true })).withAon (fun w => { w with gpio := [0] })
def w86 : State := ((State.reset).withPwr (fun w => { w with standby := true })).withAon (fun w => { w with gpio := [0], steady := [834] })
def w87 : State := cmd 0 128 [0, 0, 0, 0, 7, 0] []
def w88 : State := (cmd 0 128 [0, 0, 0, 0, 7, 1] []).logEvent 1 4 0 0 [1, 2]
def w89 : State := cmd 0 129 [34, 0] [(F.FLT_SRC_STATUS_ACTIVE, 34, 1)]
def w90 : State := (cmd 0 129 [255, 1] [(F.FLT_SRC_STATUS_ACTIVE, 34, 1), (F.LMP_PORT_STATUS_SAFE, 47, 1)]).withFlt (fun w => { w with holders := [(47, [34])] })
def w91 : State := cmd 0 1120 [34, 2, 3, 15, 1, 232, 3] f0
def w92 : State := cmd 0 22 [31, 1] []
def w93 : State := cmd 0 22 [255, 0] [(F.LMP_PORT_STATUS_SAFE_KIND, 47, 1), (F.FLT_SAFE_KIND_HI_HOLD, 0, 0x8000)]
def w94 : State := State.reset.withFlt (fun w => { w with grace := [(33, some { escSafe := true, escFatal := true, scope := true, insts := [47] })] })
def w95 : State := (put [(F.LMP_PORT_STATUS_SAFE, 31, 1)]).withFlt (fun w => { w with holders := [(31, [4])] })
def w96 : State := (put [(F.LMP_PORT_STATUS_SAFE, 47, 1)]).withFlt (fun w => { w with holders := [(47, [4])] })
def w97 : State := put [(F.GLB_BOOT_STATUS_STAGE, 0, 4), (F.FLT_WDOG_EN, 0, 1)]
def w98 : State := put [(F.CLK_STATUS_CORE_LOCK, 0, 1)]
def w99 : State := put [(F.CLK_STATUS_LANE_LOCK, 0, 0x8001)]
def w100 : State := (State.reset).withPwr (fun w => { w with standby := true })
def w101 : State := put [(F.PWR_STATUS_STAGE, 0, 5)]
def w102 : State := cmd 0 1136 [6, 246] f0
def w103 : State := put [(F.GLB_BOOT_STATUS_STAGE, 0, 4), (F.PWR_SETPOINT_CMD_MV, 0, 600)]
def w104 : State := (put [(F.GLB_BOOT_STATUS_STAGE, 0, 4)]).withFw (fun w => { w with avsTries := 2 })
def w105 : State := (put [(F.PWR_SETPOINT_CMD_MV, 0, 755)]).withFw (fun w => { w with avsTries := 1, avsGoal := 755 })
def w106 : State := (put [(F.PWR_SETPOINT_CMD_MV, 0, 755)]).withFw (fun w => { w with avsTries := 2, avsGoal := 755 })
def w107 : State := (put [(F.PWR_SETPOINT_CMD_MV, 0, 755)]).withFw (fun w => { w with avsTries := 3, avsGoal := 755, avsConfirmed := 750 })
def w108 : State := withWall {} [] (cmd 0 96 [1, 0, 0, 0, 0] [])
def w109 : State := withWall { paused := true } [] (cmd 0 96 [0, 0, 0, 0, 0] [(F.PWR_STATUS_STATE, 0, 1)])
def w110 : State := cmd 0 96 [2, 9, 0, 0, 0] [(F.DDR_STATUS_STATE, 3, 2)]
def w111 : State := (State.reset).withPwr (fun w => { w with standbyDue := true })
def w112 : State := (State.reset).withPwr (fun w => { w with wakeRuns := true })
def w113 : State := (State.reset).withAon (fun w => { w with gpio := [3, 1] })
def w114 : State := ((put [(F.INTC_ROUTE_WAKE_EN, 847, 1)]).withAon (fun w => { w with wakeLatch := [846, 847] })).withPwr (fun w => { w with standby := true })
def w115 : State := cmd 0 97 [0, 64, 0, 0, 0, 0, 0, 0, 0] []
def w116 : State := cmd 0 97 [1, 64, 0, 0, 0, 0, 0, 0, 0] []
def w117 : State := ((cmd 0 98 [0, 64, 0, 0, 0, 0, 0, 0, 0] []).putDram 64 calRec)
def w118 : State := ((cmd 0 98 [2, 64, 0, 0, 0, 0, 0, 0, 0] []).putDram 64 calRec)
def w119 : State := (put [(F.CLK_TB_STEP_HI_STEP, 0, 0xFFFFFFFF)]).withTime (fun w => { w with c := 100 })
def w120 : State := put [(F.LMP_GRID_STATUS_EN, 3, 1)]
def w121 : State := cmd 0 80 [2, 127, 63, 2, 1, 249, 0, 0] []
def w122 : State := (put [(F.GLB_BOOT_STATUS_STAGE, 0, 4)]).withFw (fun w => { w with ptp := [0, 0, 0, 0, 0, 0, 0, 0], ptpGood := 15 })
def w123 : State := (put [(F.GLB_BOOT_STATUS_STAGE, 0, 4), (F.CLK_EVENT_PTP_LOCKED, 0, 1)]).withFw (fun w => { w with ptp := [1, 0, 0, 0, 0, 0, 0, 0], ptpGood := 15 })
def w124 : State := (put [(F.GLB_BOOT_STATUS_STAGE, 0, 4)]).withFw (fun w => { w with ptp := [1, 0, 0, 0, 0, 0, 0, 0], ptpGood := 15 })
def w125 : State := ((put [(F.GLB_BOOT_STATUS_STAGE, 0, 4)]).withFw (fun w => { w with ptp := [0, 0, 0, 0, 0, 0, 0, 0], ptpGood := 15 })).withPwr (fun w => { w with resumeDue := true })
def w126 : State := put [(F.TMR_CTRL_EN, 63, 1)]
def w127 : State := (put [(F.TMR_CTRL_EN, 63, 1), (F.TMR_CTRL_PERIODIC, 63, 1), (F.TMR_PERIOD_NS, 63, 1000)]).withTime (fun w => { w with c := 20000 })
def w128 : State := (put [(F.TMR_CTRL_EN, 63, 1)]).withTime (fun w => { w with fired := [63] })
def w129 : State := (State.reset).withTime (fun w => { w with fired := [63] })
def w130 : State := put [(F.TMR_STATUS_OVERRUN, 63, 7), (F.TMR_STATUS_EXPIRED, 63, 1)]
def w131 : State := put [(F.BPM_MIN_FREE_COUNT, 0, 3)]
def w132 : State := put [(F.PWR_VMIN_MV, 0, 3)]
def w133 : State := put [(F.ARB_MAXWAIT_FCLK, 47, 3)]
def w134 : State := put [(F.SEC_TAMPER_CFG_EN, 0, 255)]
def w135 : State := put [(F.SPD_CTRL_BUSY, 0, 1)]
def w136 : State := put [(F.SEC_BLOCK_WORLD_LOCK, 0, 1)]
def w137 : State := put [(F.SEC_REGION_ATTR_LOCK, 63, 1)]
def w138 : State := cmd 0 146 [2, 13, 4, 0, 1] [(F.GLB_BOOT_STATUS_LC_STATE, 0, 1)]
def w139 : State := cmd 0 146 [3, 11] [(F.GLB_BOOT_STATUS_LC_STATE, 0, 1)]
def w140 : State := (cmd 0 146 [4] [(F.GLB_BOOT_STATUS_LC_STATE, 0, 1)]).withFw (fun w => { w with image := { underKey1 := true } })
def w141 : State := cmd 0 146 [1] [(F.GLB_BOOT_STATUS_LC_STATE, 0, 1)]
def w142 : State := (cmd 0 146 [0] []).blowLock 6
def w143 : State := cmd 0 146 [0] [(F.GLB_BOOT_STATUS_LC_STATE, 0, 3)]
def w144 : State := (cmd 8 146 [5, 0, 0, 0, 0, 0, 0, 0, 0, 0, 0, 0, 0, 0, 0, 0, 0, 0, 0, 0, 0, 0, 0, 0, 0, 0, 0, 0, 0, 0, 0, 0, 0, 0, 0, 0, 0, 0, 0, 0, 0, 0, 0, 0, 0, 0, 0, 0, 0, 0, 0, 0, 0, 0, 0, 0, 0, 0, 0, 0, 0, 0, 0, 0, 0, 0, 0, 0, 0, 0, 0, 0, 0, 0, 0, 0, 0, 0, 0, 0, 0, 0, 0, 0, 0, 0, 0, 0, 0, 0, 0, 0, 0, 0, 0, 0, 0, 0, 0, 0, 0, 0, 0, 0, 0, 0, 0, 0, 0, 0, 0, 0, 0, 0, 0] [(F.GLB_BOOT_STATUS_LC_STATE, 0, 2)]).setChallenge 8 [1]
def w145 : State := (cmd 0 144 [2, 0, 0, 0] [(F.GLB_BOOT_STATUS_LC_STATE, 0, 1)]).blowLock 10
def w146 : State := ((cmd 0 144 [0, 0, 241, 0] [(F.GLB_BOOT_STATUS_LC_STATE, 0, 1)]).blowLock 10).withFw (fun w => { w with report := [(0, List.replicate 242 7)] })
def w147 : State := cmd 0 145 [255, 1, 0, 7, 7, 7, 7, 7, 7, 7, 7, 7, 7, 7, 7, 7, 7, 7, 7, 7, 7, 7, 7, 7, 7, 7, 7, 7, 7, 7, 7, 7, 7, 7, 7] []
def w148 : State := (cmd 0 145 [255, 1, 0, 7, 7, 7, 7, 7, 7, 7, 7, 7, 7, 7, 7, 7, 7, 7, 7, 7, 7, 7, 7, 7, 7, 7, 7, 7, 7, 7, 7, 7, 7, 7, 7] []).withSec (fun w => { w with tripAt := some 0 })
def w149 : State := (cmd 0 145 [255, 0, 2] []).withSec (fun w => { w with keys := [{ wall := 255, odd := false, key := [1] }] })
def w150 : State := (cmd 0 145 [255, 0, 1, 7, 7, 7, 7, 7, 7, 7, 7, 7, 7, 7, 7, 7, 7, 7, 7, 7, 7, 7, 7, 7, 7, 7, 7, 7, 7, 7, 7, 7, 7, 7, 7, 7, 7, 7, 7, 7, 7, 7, 7, 7, 7, 7, 7, 7, 7, 7, 7, 7, 7, 7, 7, 7, 7, 7, 7, 7, 7, 7, 7] []).blowLock 11
def w151 : State := (cmd 0 16 [1, 0, 7, 0, 60, 0, 1, 0, 128, 62, 0, 0, 0, 0, 0, 0, 0, 0, 0, 0, 0, 0, 0, 0, 0, 0, 0, 0, 0, 0, 0, 0] []).withCodec (fun k => { k with listed := [1] })
def w152 : State := (cmd 0 16 [1, 1, 3, 0, 60, 0, 1, 0, 128, 62, 0, 0, 0, 0, 0, 0, 128, 150, 152, 0, 0, 0, 0, 0, 0, 0, 0, 0, 0, 0, 0, 0] []).withCodec (fun k => { k with listed := [1] })
def w153 : State := withWall {} [] (cmd 0 17 [1, 0] [])
def w154 : State := withWall { grid := some 3 } [] (cmd 0 17 [1, 1] [])
def w155 : State := (withWall {} [] (cmd 0 18 [1, 0, 1, 0, 0, 0, 0, 0, 64, 0, 0, 0, 0, 0, 0, 0] [])).putDram 64 [5, 0, 4, 4, 0, 0, 1]
def w156 : State := withWall { paused := true } [] (cmd 0 19 [1, 0, 0, 0, 0, 0, 0, 0, 9, 0, 0, 0, 0, 0, 0, 0] [])
def w157 : State := withWall {} [] (cmd 0 19 [1, 0, 0, 0, 0, 0, 0, 0, 9, 0, 0, 0, 0, 0, 0, 0] [])
def w158 : State := withWall {} [] (cmd 0 20 [1, 0, 0, 0] [])
def w159 : State := withWall { grid := some 3 } [] (cmd 0 21 [1, 0, 0, 1, 0] [])
def w160 : State := (withWall wall5 [] (cmd 0 32 [0, 1, 5, 0, 0, 0, 0, 1, 0, 0, 0, 0, 232, 3, 0, 0, 255, 255, 255, 0, 64, 0, 127, 0, 0, 0, 0, 0, 0, 0, 0, 0] [(F.HWR_STATUS_STATE, 23, 2)])).withCodec (fun k => { k with groups := [(0, some { wall := 1 })] })
def w161 : State := (withWall wall5 [] (cmd 0 32 [1, 1, 5, 0, 0, 0, 0, 0, 0, 0, 0, 0, 0, 0, 0, 0, 0, 0, 0, 0, 0, 0, 0, 0, 0, 0, 0, 0, 0, 0, 0, 0] [(F.HWR_STATUS_STATE, 23, 2)])).withCodec (fun k => { k with groups := [(0, some { wall := 1 })] })
def w162 : State := withWall wall5 [] (cmd 0 32 [1, 1, 5, 0, 0, 0, 0, 0, 0, 0, 0, 0, 0, 0, 0, 0, 0, 0, 0, 0, 0, 0, 0, 0, 0, 0, 0, 0, 0, 0, 0, 0] [(F.HWR_STATUS_STATE, 23, 2)])
def w163 : State := (withWall wall5 [(4095, some { wall := 1, tile := 5, geo := tile4, enc := true })] (cmd 0 33 [255, 15, 0, 0] [(F.SPQ_Q_CFG_EN, 4095, 1)])).withCodec (fun k => { k with groups := [(0, some { wall := 1 })] })
def w164 : State := withWall wall5 [(4095, some { wall := 1, tile := 5, geo := tile4, enc := true })] (cmd 0 34 [255, 15, 1] [])
def w165 : State := withWall wall5 [(4095, some { wall := 1, tile := 5, geo := tile4, enc := true, charge := 9999999 })] (cmd 0 35 [255, 15, 0, 0] [])
def w166 : State := withWall wall5 [(4095, some { wall := 1, tile := 5, geo := tile4, enc := true })] (cmd 0 1152 [255, 1, 64, 95, 7, 0, 8, 0, 15] f0)
def w167 : State := withWall wall5 [(4095, some { wall := 1, tile := 5, geo := tile4, enc := true, bedSlots := 2 })] (cmd 0 36 [255, 15, 1, 0, 16, 127, 15, 1, 0, 1, 0, 0, 0, 0, 0, 0, 0, 0, 0, 0] [])
def w168 : State := withWall wall5 [(4095, some { wall := 1, tile := 5, geo := tile4, enc := true, bedSlots := 2 })] (cmd 0 36 [255, 15, 1, 1, 16, 127, 15, 1, 0, 1, 0, 0, 0, 0, 0, 0, 0, 0, 0, 0] [])
def w169 : State := withTable (cmd 0 52 [0, 47, 1, 1, 1, 0, 255, 255, 0, 0, 0, 16, 0, 0, 0, 0, 0, 0] [])
def w170 : State := (withTable (cmd 0 52 [0, 47, 1, 1, 0, 1, 255, 255, 0, 0, 0, 16, 0, 0, 0, 0, 0, 0] [])).setChain 0 { bound := true, portB := 47, wall := 1, n := 1 }
def w171 : State := (withTable (cmd 0 65 [0, 0, 16, 0, 0, 0, 0, 0, 0] [])).setChain 0 { bound := true, portB := 47, wall := 1, n := 1 }
def w172 : State := withTable (cmd 0 64 [0, 0, 0, 16, 0, 0, 0, 0, 0, 0, 0, 0, 0, 0] [])
def w173 : State := cmd 0 1104 [63, 0, 113, 0, 63, 5, 0, 0, 0, 6, 0, 0, 0, 1, 2, 0, 0] f0
def w174 : State := (cmd 0 48 [9, 0, 0, 255, 255, 254, 15, 3] []).withCodec (fun k => { k with listed := [9] })
def w175 : State := ((cmd 0 48 [9, 0, 0, 255, 255, 254, 15, 3] [(F.CLS_VERSION_STATE, 0, 2)]).withCodec (fun k => { k with listed := [9] })).withHaul (fun w => { w with routes := [{ wall := 9, lo := 0, hi := 65535, owner := 4 }] })
def w176 : State := cmd 0 1056 [0, 0, 255, 63, 1, 1, 1, 1, 1, 1, 1, 1, 1, 1, 1, 1, 1, 1, 1, 1, 1, 1, 1, 1, 1, 1, 1, 1, 1, 1, 1, 1, 1, 1, 1, 1] (f0 ++ [(F.CLS_VERSION_STATE, 0, 2)])
def w177 : State := (cmd 0 1056 [1, 0, 251, 1, 1, 1, 1, 1, 1, 1, 1, 1, 1, 1, 1, 1, 1, 1, 1, 1, 1, 1, 1, 1, 1, 1, 1, 1, 1, 1, 1, 1, 1, 1, 1, 1, 1, 1, 1, 1, 1, 1, 1, 1, 1, 1, 1, 1, 1, 1, 1, 1, 1, 1, 1, 1, 1, 1, 1, 1, 1, 1, 1, 1, 1, 1, 1, 1, 1, 1, 1, 1, 1, 1, 1, 1, 1, 1, 1, 1, 1, 1, 1, 1, 1, 1, 1, 1, 1, 1, 1, 1, 1, 1, 1, 1, 1, 1, 1, 1, 1, 1, 1, 1, 1, 1, 1, 1, 1, 1, 1, 1, 1, 1, 1, 1, 1, 1, 1, 1, 1, 1, 1, 1, 1, 1, 1, 1, 1, 1, 1, 1, 1, 1, 1, 1, 1, 1, 1, 1, 1, 1, 1, 1, 1, 1, 1, 1, 1, 1, 1, 1, 1, 1, 1, 1, 1, 1, 1, 1, 1, 1, 1, 1, 1, 1, 1, 1, 1, 1, 1, 1, 1, 1, 1, 1, 1, 1, 1, 1, 1, 1, 1, 1, 1, 1, 1, 1, 1, 1, 1, 1, 1, 1, 1, 1, 1, 1, 1, 1, 1, 1, 1, 1, 1, 1, 1, 1, 1, 1, 1, 1, 1, 1, 1, 1, 1, 1, 1, 1, 1, 1, 1, 1, 1, 1, 1, 1, 1, 1, 1, 1, 1, 1, 1, 1, 1, 1, 1, 1, 1, 1, 1, 1] f0).withHaul (fun w => { w with live := { nExact := 3, nTern := 4 } })
def w178 : State := (cmd 0 49 [] [(F.CLS_VERSION_STATE, 0, 2), (F.CLS_VERSION_STAGED, 0, 255)]).withHaul (fun w => { w with live := { nExact := 3 } })
def w179 : State := cmd 0 49 [] [(F.CLS_VERSION_STATE, 0, 2), (F.CLS_STAGE_COUNT_EXACT, 0, 16385)]
def w180 : State := cmd 0 49 [] [(F.CLS_VERSION_STATE, 0, 2), (F.CLS_STAGE_COUNT_EXACT, 0, 2)]
def w181 : State := cmd 0 50 [5, 0, 0, 2, 2, 64, 0, 1, 2, 3, 4, 5, 6, 3] [(F.LANE_CFG_EN, 0, 1), (F.LANE_CFG_FUNC, 0, 1), (F.LANE_CFG_PORT, 0, 5), (F.LANE_CFG_PORT_LANE, 0, 0), (F.LANE_CFG_RATE, 0, 3)]
def w182 : State := cmd 0 81 [254, 15, 64, 63, 4, 5, 64, 0, 0, 1, 2, 3, 4, 5, 6, 7, 8, 9, 10, 11, 12, 13, 14, 15, 16, 17, 18, 19, 20, 21, 22, 23, 24, 25, 26, 27, 28, 29, 30, 31, 32, 33, 34, 35, 36, 37, 38, 39, 40, 41, 42, 43, 44, 45, 46, 47, 48, 49, 50, 51, 52, 53, 54, 55, 56, 57, 58, 59, 60, 61, 62, 63] [(F.CLS_DEVICE_ADDR, 0, 0xFFE)]
def w183 : State := cmd 0 81 [254, 15, 0, 63, 4, 5, 1, 0, 7] [(F.CLS_DEVICE_ADDR, 0, 0xFFE)]
def w184 : State := withWall {} [] (cmd 0 81 [254, 15, 0, 63, 4, 5, 1, 0, 1] [(F.GLB_EXPERT_UNLOCKED_R, 0, 1), (F.GLB_EXPERT_HOLDER_R, 0, 12)])
def w185 : State := cmd 0 81 [254, 15, 0, 63, 4, 5, 1, 0, 1] [(F.GLB_EXPERT_UNLOCKED_R, 0, 1), (F.GLB_EXPERT_HOLDER_R, 0, 12)]
def w186 : State := withWall wall5 [] (cmd 0 51 [7, 0, 1, 0, 0, 0, 0, 64, 0, 64, 0, 1] [(F.LANE_CFG_EN, 32, 1), (F.LANE_CFG_FUNC, 32, 3), (F.LANE_CFG_PORT, 32, 7), (F.LANE_CFG_PORT_LANE, 32, 0), (F.LANE_CFG_RATE, 32, 3)])
def w187 : State := withWall wall5 [] (cmd 0 51 [7, 1, 1, 0, 0, 0, 0, 64, 0, 64, 0, 1, 5, 5, 5, 5, 5, 5, 5, 5, 5] [])
def w188 : State := cmd 0 1057 [255, 3, 3, 5, 0, 0, 0, 5, 0, 0, 0, 64, 0, 0, 0, 255, 255, 255, 255] f0
def w189 : State := cmd 0 1057 [255, 3, 1, 5, 0, 0, 0, 5, 0, 0, 0, 64, 0, 0, 0, 255, 255, 255, 255] (f0 ++ [(F.TMG_METER_CTRL_EN, 1023, 1)])
def w190 : State := cmd 0 1058 [5, 63, 9, 0, 0, 0, 255, 255, 255, 0] f0
def w191 : State := cmd 0 1058 [5, 255, 9, 0, 0, 0, 1, 0, 0, 0] f0
def w192 : State := cmd 0 1059 [5, 63, 0, 16, 0, 0, 0, 0, 255, 255, 255, 0] f0
def w193 : State := cmd 0 1040 [23] (f0 ++ [(F.HWR_STATUS_STATE, 23, 2)])
def w194 : State := cmd 0 1040 [23] (f0 ++ [(F.HWR_STATUS_STATE, 23, 3)])
def w195 : State := cmd 0 1040 [23] (f0 ++ [(F.HWR_STATUS_STATE, 23, 5)])
def w196 : State := cmd 0 1040 [23] (f0 ++ [(F.HWR_STATUS_STATE, 23, 7)])
def w197 : State := cmd 0 1040 [23] f0
def w198 : State := cmd 0 1042 [23, 0] (f0 ++ [(F.HWR_STATUS_STATE, 23, 5)])
def w199 : State := cmd 0 1042 [23, 0] (f0 ++ [(F.HWR_STATUS_STATE, 23, 3)])
def w200 : State := cmd 0 1042 [23, 1] (f0 ++ [(F.HWR_STATUS_STATE, 23, 7)])
def w201 : State := cmd 0 1042 [23, 1] (f0 ++ [(F.HWR_STATUS_STATE, 23, 3)])
def w202 : State := cmd 0 1041 [23, 1, 0, 0, 0, 0, 0, 0, 0, 0, 0, 0] (f0 ++ [(F.HWR_STATUS_STATE, 23, 5)])
def w203 : State := cmd 0 1041 [23, 1, 1, 0, 0, 0, 0, 0, 0, 0, 0, 0] (f0 ++ [(F.HWR_STATUS_STATE, 23, 5)])
def w204 : State := cmd 0 66 [0, 0, 0, 0] [(F.HWR_STATUS_STATE, 0, 7), (F.HWR_STATUS_STATE, 1, 7), (F.HWR_STATUS_STATE, 2, 7), (F.HWR_STATUS_STATE, 3, 7), (F.HWR_STATUS_STATE, 4, 7), (F.HWR_STATUS_STATE, 5, 7), (F.HWR_STATUS_STATE, 6, 7), (F.HWR_STATUS_STATE, 7, 7), (F.HWR_STATUS_STATE, 8, 7), (F.HWR_STATUS_STATE, 9, 7), (F.HWR_STATUS_STATE, 10, 7), (F.HWR_STATUS_STATE, 11, 7), (F.HWR_STATUS_STATE, 12, 7), (F.HWR_STATUS_STATE, 13, 7), (F.HWR_STATUS_STATE, 14, 7), (F.HWR_STATUS_STATE, 15, 7), (F.HWR_STATUS_STATE, 16, 7), (F.HWR_STATUS_STATE, 17, 7), (F.HWR_STATUS_STATE, 18, 7), (F.HWR_STATUS_STATE, 19, 7), (F.HWR_STATUS_STATE, 20, 7), (F.HWR_STATUS_STATE, 21, 7), (F.HWR_STATUS_STATE, 22, 7), (F.HWR_STATUS_STATE, 23, 3)]
def w205 : State := cmd 0 66 [0, 0, 0, 0] []
def w206 : State := cmd 0 1072 [2, 59, 2, 47, 0, 3, 131, 52, 255, 0, 1, 5, 0, 3, 0, 0, 15] f0
def w207 : State := cmd 0 1073 [59] f0
def w208 : State := cmd 0 1088 [3] f0
def w209 : State := cmd 0 1089 [3, 1, 17, 255, 255] f0
def w210 : State := cmd 0 1089 [255, 2, 0, 255, 255, 17, 255, 255] f0
def w211 : State := ((withWall { grid := some 3 } [] (put [(F.LMP_GRID_STATUS_EN, 3, 1)])).withLamp (fun w => { w with grids := [(3, { used := true, wall := 1, k := 257, inGap := true })], ports := [(47, { en := true, grid := 3, safe := true })] }))
def w212 : State := ((withWall { grid := some 3 } [] (put [(F.LMP_GRID_STATUS_EN, 0, 1), (F.DRS_BRIGHT_SHADOW_ARMED, 0, 1), (F.DRS_BRIGHT_BRIGHT, 0, 131071), (F.DRS_CTRL_LUT_ARMED, 0, 1)])).withLamp (fun w => { w with grids := [(0, { used := true, wall := 1, k := 9 })] }))
def w213 : State := ((withWall { grid := some 3 } [] (put [(F.LMP_GRID_STATUS_EN, 3, 1), (F.LMP_PORT_CTRL_SHADOW_ARMED, 47, 1), (F.LMP_PORT_CTRL_GRID, 47, 3), (F.LMP_PORT_CTRL_EN, 47, 1), (F.LMP_PORT_CTRL_PARTNER, 47, 5)])).withLamp (fun w => { w with grids := [(3, { used := true, wall := 1, k := 257, inGap := true })] }))
def w214 : State := ((withWall { grid := some 3 } [] (put [(F.LMP_GRID_STATUS_EN, 3, 1), (F.RIV_CH_CTRL_SHADOW_ARMED, 63, 1), (F.RIV_CH_CTRL_SOURCE, 63, 47), (F.RIV_CH_CTRL_EN, 63, 1), (F.RIV_CH_SPLIT_LAST, 63, 64)])).withLamp (fun w => { w with grids := [(3, { used := true, wall := 1, k := 257, inGap := true })], ports := [(47, { en := true, grid := 3, safe := true })] }))
def w215 : State := ((withWall { grid := some 3 } [] (put [(F.LMP_GRID_STATUS_EN, 3, 1), (F.RIV_CH_CTRL_SHADOW_ARMED, 47, 1)])).withLamp (fun w => { w with grids := [(3, { used := true, wall := 1, k := 257, inGap := true })], ports := [(47, { en := true, grid := 3, safe := true })], chans := [(47, { en := true, bands := [{}], current := some {} })] }))
def w216 : State := ((withWall { grid := some 3 } [] (put [(F.LMP_GRID_STATUS_EN, 3, 1)])).withLamp (fun w => { w with grids := [(3, { used := true, wall := 1, k := 257, inGap := true })], ports := [(47, { en := true, grid := 3, safe := true })], chans := [(47, { current := some {}, apply := ({ grid := some 3 } : Wall).sync 257, strips := [{}, { late := true }, {}] })] }))
def w217 : State := ((withWall { grid := some 3 } [] (put [(F.GLB_BOOT_STATUS_STAGE, 0, 4)])).withLamp (fun w => { w with grids := [(3, { used := true, wall := 1 })] }))
def w218 : State := (State.reset).withFw (fun w => { w with ptp := [1] })
def w219 : State := ((withWall { grid := some 3 } [] (put [(F.LANE_CFG_EN, 0, 1), (F.LANE_CFG_FUNC, 0, 2), (F.LANE_CFG_PORT, 0, 47), (F.LANE_CFG_PORT_LANE, 0, 0), (F.LANE_CFG_RATE, 0, 3)])).withLamp (fun w => { w with ports := [(47, { en := true, blankDue := true, safe := true })], chans := [(47, {})] }))
def w220 : State := ((withWall { grid := some 3 } [] (put [(F.LANE_CFG_EN, 0, 1), (F.LANE_CFG_FUNC, 0, 2), (F.LANE_CFG_PORT, 0, 47), (F.LANE_CFG_PORT_LANE, 0, 0), (F.LANE_CFG_RATE, 0, 3)])).withLamp (fun w => { w with ports := [(47, { en := true })], chans := [(47, { strips := [{ position := 9, row := 3, lamps := 8, obM10 := 0, data := List.replicate 30 7, ready := true, begun := true, done := 10 }, {}] })] }))
def w221 : State := ((withWall { grid := some 3 } [] (put [(F.LANE_CFG_EN, 0, 1), (F.LANE_CFG_FUNC, 0, 2), (F.LANE_CFG_PORT, 0, 47), (F.LANE_CFG_PORT_LANE, 0, 0), (F.LANE_CFG_RATE, 0, 3)])).withLamp (fun w => { w with ports := [(47, { en := true })], chans := [(47, {})] }))
def w222 : State := ((withWall { grid := some 3 } [] (put [(F.LANE_CFG_EN, 0, 1), (F.LANE_CFG_FUNC, 0, 2), (F.LANE_CFG_PORT, 0, 47), (F.LANE_CFG_PORT_LANE, 0, 0), (F.LANE_CFG_RATE, 0, 3)])).withLamp (fun w => { w with ports := [(47, { en := true, grid := 3, inGap := true })], chans := [(47, {})], grids := [(3, { used := true, wall := 1, k := 257, inGap := true })] }))
def w223 : State := ((withWall { grid := some 3 } [] (put [(F.LANE_CFG_EN, 0, 1), (F.LANE_CFG_FUNC, 0, 2), (F.LANE_CFG_PORT, 0, 47), (F.LANE_CFG_PORT_LANE, 0, 0), (F.LANE_CFG_RATE, 0, 3)])).withLamp (fun w => { w with ports := [(47, { en := true, frame := some (List.replicate 22 0) })], chans := [(47, { strips := [{ position := 9, row := 3, lamps := 8, obM10 := 0, data := List.replicate 30 7, ready := true, begun := true, done := 10 }, {}] })] }))
def w224 : State := ((withWall { grid := some 3 } [] (put [(F.LANE_CFG_EN, 0, 1), (F.LANE_CFG_FUNC, 0, 2), (F.LANE_CFG_PORT, 0, 47), (F.LANE_CFG_PORT_LANE, 0, 0), (F.LANE_CFG_RATE, 0, 3)])).withLamp (fun w => { w with ports := [(47, { en := true, frame := some (List.replicate 32 0) })], chans := [(47, { strips := [{ position := 9, row := 3, lamps := 8, obM10 := 0, data := List.replicate 30 7, ready := true, begun := true, done := 10 }], current := some {} })] }))
def w225 : State := ((withWall { grid := some 3 } [] (put [(F.LANE_CFG_EN, 0, 1), (F.LANE_CFG_FUNC, 0, 2), (F.LANE_CFG_PORT, 0, 47), (F.LANE_CFG_PORT_LANE, 0, 0), (F.LANE_CFG_RATE, 0, 3)])).withLamp (fun w => { w with ports := [(47, { en := true, closing := true, blankDue := true, frame := some (0x28 :: 0xFF :: List.replicate 10 0) })], chans := [(47, { strips := [{ position := 9, row := 3, lamps := 8, obM10 := 0, data := List.replicate 30 7, ready := true, begun := true, done := 10 }, {}] })] }))
def w226 : State := ((withWall { grid := some 3 } [] (put [(F.LANE_CFG_EN, 0, 1), (F.LANE_CFG_FUNC, 0, 2), (F.LANE_CFG_PORT, 0, 47), (F.LANE_CFG_PORT_LANE, 0, 0), (F.LANE_CFG_RATE, 0, 3)])).withLamp (fun w => { w with ports := [(47, { en := true, blankDue := true, frame := some (0x40 :: List.replicate 11 0) })], chans := [(47, {})] }))
def w227 : State := put [(F.LMP_PORT_CTRL_EN, 47, 1)]
def w228 : State := ((withWall { grid := some 3 } [] (put [(F.LANE_CFG_EN, 0, 1), (F.LANE_CFG_FUNC, 0, 2), (F.LANE_CFG_PORT, 0, 47), (F.LANE_CFG_PORT_LANE, 0, 0), (F.LANE_CFG_RATE, 0, 3), (F.LMP_PORT_COUNTS_RX_CRC, 47, 65535)])).withLamp (fun w => { w with ports := [(47, { en := true })], chans := [(47, {})] }))
def w229 : State := ((withWall { grid := some 3 } [] (put [(F.LANE_CFG_EN, 0, 1), (F.LANE_CFG_FUNC, 0, 2), (F.LANE_CFG_PORT, 0, 47), (F.LANE_CFG_PORT_LANE, 0, 0), (F.LANE_CFG_RATE, 0, 3), (F.SPQ_Q_CFG_EN, 4159, 1)])).withLamp (fun w => { w with ports := [(47, { en := true })], chans := [(47, {})] }))
def w230 : State := ((withWall { grid := some 3 } [] (put [(F.LANE_CFG_EN, 0, 1), (F.LANE_CFG_FUNC, 0, 2), (F.LANE_CFG_PORT, 0, 47), (F.LANE_CFG_PORT_LANE, 0, 0), (F.LANE_CFG_RATE, 0, 3)])).withLamp (fun w => { w with ports := [(47, {})], chans := [(47, {})], chains := [(0, { bound := true, portB := 47, wall := 1, n := 64 })] }))
def w231 : State := ((withWall { grid := some 3 } [] (put [(F.LANE_CFG_EN, 0, 1), (F.LANE_CFG_FUNC, 0, 2), (F.LANE_CFG_PORT, 0, 47), (F.LANE_CFG_PORT_LANE, 0, 0), (F.LANE_CFG_RATE, 0, 3)])).withLamp (fun w => { w with ports := [(47, {})], chans := [(47, {})], chains := [(0, { bound := true, portB := 47, wall := 1, n := 64, cuts := [3] })] }))
def w232 : State := ((withWall { grid := some 3 } [] (put [(F.LANE_CFG_EN, 0, 1), (F.LANE_CFG_FUNC, 0, 2), (F.LANE_CFG_PORT, 0, 47), (F.LANE_CFG_PORT_LANE, 0, 0), (F.LANE_CFG_RATE, 0, 3), (F.LANE_STATUS_CAL, 0, 1)])).withLamp (fun w => { w with ports := [(47, {})], chans := [(47, {})] }))
def w233 : State := ((withWall { grid := some 3 } [] (put [(F.LANE_CFG_EN, 0, 1), (F.LANE_CFG_FUNC, 0, 2), (F.LANE_CFG_PORT, 0, 47), (F.LANE_CFG_PORT_LANE, 0, 0), (F.LANE_CFG_RATE, 0, 3), (F.LMP_PORT_STATUS_FAR_SYNC, 47, 1)])).withLamp (fun w => { w with ports := [(47, {})], chans := [(47, {})] }))
def w234 : State := put (f0 ++ [(F.DRS_LUT_ADDR_AUTO_INC, 0, 1), (F.DRS_LUT_ADDR_ENTRY, 0, 8191)])
def w235 : State := put [(F.DRS_LUT_ADDR_AUTO_INC, 0, 1), (F.DRS_LUT_ADDR_ENTRY, 0, 8191)]
def w236 : State := (withTable (put [(F.DRS_CTRL_EN, 0, 1)])).withLamp (fun w => { w with chans := [(0, { en := true, table := 4096, bands := [{ ctx := 0, slice := 0, picture := 2, desc := 1, positions := [1], strips := 1 }, {}] })] })
def w237 : State := (withTable (put [(F.DRS_CTRL_EN, 0, 1)])).withLamp (fun w => { w with chans := [(0, { en := true, table := 4096, bands := [] })] })
def w238 : State := (withTable (put [(F.DRS_CTRL_EN, 0, 1)])).withLamp (fun w => { w with chans := [(0, { en := true, table := 4096, bands := [{}], current := some {} })] })
def w239 : State := (put [(F.DRS_CTRL_EN, 0, 1)]).withLamp (fun w => { w with chans := [(63, { bursts := [{ addr := 640 }, {}], flying := [{ beats := 2 }] })] })
def w240 : State := (put [(F.DRS_CTRL_EN, 0, 1), (F.RIV_CH_STATUS_STATE, 63, 2)]).withLamp (fun w => { w with chans := [(63, { bursts := [{ beats := 4 }] })] })
def w241 : State := (put [(F.DRS_CTRL_EN, 0, 1)]).withLamp (fun w => { w with chans := [(63, { flying := [{ beats := 4, got := 2 }, {}] })] })
def w242 : State := (put [(F.DRS_CTRL_EN, 0, 1)]).withLamp (fun w => { w with chans := [(63, { en := true, current := some {}, strips := [{ begun := true, data := [1] }, { row := 1 }], flying := [{ addr := 2 ^ 36, beats := 2, got := 1 }] })] })
def w243 : State := (put [(F.DRS_CTRL_EN, 0, 1), (F.RIV_CH_STRIPS_RETRIES, 63, 65535)]).withLamp (fun w => { w with chans := [(63, { flying := [{ addr := 2 ^ 36, beats := 2, got := 1 }, {}] })] })
def w244 : State := (put [(F.DRS_CTRL_EN, 0, 1)]).withLamp (fun w => { w with chans := [(63, { flying := [{ poison := true, retries := 2 }] })] })
def w245 : State := (put [(F.DRS_CTRL_EN, 0, 1)]).withLamp (fun w => { w with chans := [(63, { flying := [{ addr := 2 ^ 39 + 64, retries := 3 }, {}], current := some {} })] })
def w246 : State := (withTable (put [(F.DRS_CTRL_EN, 0, 1), (F.RIV_CH_STATUS_COUNT, 0, 3)])).withLamp (fun w => { w with chans := [(0, { en := true, table := 4096, retryLimit := 0, flying := [{ error := true }], current := some { ctx := 0, slice := 0, picture := 2, desc := 1, positions := [1], strips := 1 } })], chains := [(0, { bound := true, portB := 47, wall := 1, n := 1 })] })
def w247 : State := (put [(F.DRS_CTRL_EN, 0, 1)]).withLamp (fun w => { w with chans := [(63, { retryLimit := 7, flying := [{ retries := 7 }], strips := [{ begun := true }, {}], current := some {} })] })
def w248 : State := (put [(F.DRS_CTRL_EN, 0, 1), (F.RIV_CH_STATUS_STATE, 63, 4), (F.RIV_HALTED_HI_HALTED, 0, 0xFFFFFFFF), (F.GLB_EXPERT_UNLOCKED_F0, 0, 1)]).withLamp (fun w => { w with chans := [(63, { en := true, flying := [{}] })] })
def w249 : State := (put [(F.DRS_CTRL_EN, 0, 1), (F.RIV_CH_STATUS_STATE, 0, 4), (F.RIV_HALTED_LO_HALTED, 0, 1)]).withLamp (fun w => { w with chans := [(63, {})] })
def w250 : State := put [(F.HWR_STATUS_STATE, 23, 2), (F.SCH_CTRL_DISPATCH_EN, 0, 1), (F.FLT_STATUS_FATAL, 0, 1)]
def w251 : State := (withWall wall5 [(4095, some { wall := 1, tile := 5, geo := tile4, stream := some {}, pic := some { hdr := { picture := 3 }, desc := 1 } })] (put [(F.HWR_STATUS_STATE, 23, 2), (F.SCH_CTRL_DISPATCH_EN, 0, 1)])).withCodec (fun w => { w with ready := [{ ctx := 4095, picture := 3, slice := 1, deadline := 5 }], cache := [4095, 1] })
def w252 : State := (withWall wall5 [(4095, some { wall := 1, tile := 5, geo := tile4, enc := true, stream := some {}, pic := some { hdr := { picture := 3 }, desc := 1 } })] (put [(F.HWR_STATUS_STATE, 23, 2), (F.SCH_CTRL_DISPATCH_EN, 0, 1)])).withCodec (fun w => { w with ready := [{ ctx := 4095, enc := true, picture := 3, slice := 1 }] })
def w253 : State := (withWall { sealed := true } [(4095, some { wall := 1, tile := 5, geo := tile4, enc := true, stream := some {}, pic := some { hdr := { picture := 3 }, desc := 1 } })] (put [(F.HWR_STATUS_STATE, 23, 2), (F.SCH_CTRL_DISPATCH_EN, 0, 1)])).withCodec (fun w => { w with ready := [{ ctx := 4095, enc := true, picture := 3, slice := 1 }] })
def w254 : State := (withWall wall5 [(4095, some { wall := 1, tile := 5, geo := tile4, stream := some {}, pic := some { hdr := { picture := 3 }, desc := 1 } })] (put [(F.HWR_STATUS_STATE, 23, 3)])).withCodec (fun w => { w with hewers := [(23, { run := some { what := { ctx := 4095 } } })] })
def w255 : State := (withWall wall5 [(4095, some { wall := 1, tile := 5, geo := tile4, stream := some {}, pic := some { hdr := { picture := 3 }, desc := 1 } })] (put [(F.HWR_STATUS_STATE, 23, 3), (F.HWR_SLICES_COUNT, 23, 4294967295), (F.HWR_STATUS_CTX, 23, 4095)])).withCodec (fun w => { w with hewers := [(23, { run := some { what := { ctx := 4095, picture := 3, slice := 1 }, phase := .finished, hdr := { picture := 3, slice := 1, firstRow := 1 } } })] })
def w256 : State := (withWall wall5 [(4095, some { wall := 1, tile := 5, geo := tile4, enc := true, stream := some {}, pic := some { hdr := { picture := 3 }, desc := 1 } })] (put [(F.HWR_STATUS_STATE, 23, 3)])).withCodec (fun w => { w with hewers := [(23, { run := some { what := { ctx := 4095, enc := true, quiet := true, picture := 3 }, phase := .finished } })] })
def w257 : State := (withWall wall5 [(4095, some { wall := 1, tile := 5, geo := tile4, stream := some {}, pic := some { hdr := { picture := 3 }, desc := 1 } })] (put [(F.HWR_STATUS_STATE, 23, 4)])).withCodec (fun w => { w with hewers := [(23, { run := some { what := { ctx := 4095, picture := 3, slice := 1 }, phase := .finished, hdr := { picture := 3, slice := 1, firstRow := 1 } }, goOut := true })] })
def w258 : State := (withWall wall5 [(4095, some { wall := 1, tile := 5, geo := tile4, stream := some {}, pic := some { hdr := { picture := 3 }, desc := 1 } })] (put [(F.HWR_STATUS_STATE, 23, 4)])).withCodec (fun w => { w with hewers := [(23, { run := some { what := { ctx := 4095, picture := 3, slice := 1 }, phase := .finished, hdr := { picture := 3, slice := 1, firstRow := 1 } } })] })
def w259 : State := (withWall wall5 [(4095, some { wall := 1, tile := 5, geo := tile4, stream := some {}, pic := some { hdr := { picture := 3 }, desc := 1 } })] (put [(F.HWR_STATUS_STATE, 23, 4)])).withCodec (fun w => { w with update := some { set := { id := 9 }, at_ := 23, job := 7, waits := true }, hewers := [(23, { run := some { what := { ctx := 4095, picture := 3, slice := 1 }, phase := .finished, hdr := { picture := 3, slice := 1, firstRow := 1 } }, drainFor := [.update] })] })
def w260 : State := put [(F.HWR_STATUS_STATE, 23, 2), (F.SCH_CTRL_DISPATCH_EN, 0, 1)]
def w261 : State := (withWall wall5 [(4095, some { wall := 1, tile := 5, geo := tile4, stream := some {}, pic := some { hdr := { picture := 3 }, desc := 1 } })] (put [(F.HWR_STATUS_STATE, 23, 2), (F.HWR_STATUS_STATE, 0, 2), (F.SCH_CTRL_DISPATCH_EN, 0, 1)])).withCodec (fun w => { w with ready := [{ ctx := 4095, picture := 3 }] })
def w262 : State := put [(F.HWR_STATUS_STATE, 23, 2), (F.HWR_STATUS_STATE, 0, 2), (F.SCH_CTRL_DISPATCH_EN, 0, 1)]
def w263 : State := withWall wall5 [(4095, some { wall := 1, tile := 5, geo := tile4, enc := true, bedSlots := 2, loads := [{ slot := 1, readyAt := [3], src := some [], gen := 7 }] })] (put [(F.HWR_STATUS_STATE, 23, 2), (F.HWR_STATUS_STATE, 0, 2), (F.SCH_CTRL_DISPATCH_EN, 0, 1)])
def w264 : State := (withWall wall5 [(4095, some { wall := 1, tile := 5, geo := tile4, bedSlots := 1, stream := some { bedrockSlots := 1 } })] (put [(F.HWR_STATUS_STATE, 23, 2), (F.HWR_STATUS_STATE, 0, 2), (F.SCH_CTRL_DISPATCH_EN, 0, 1)])).setQueue 4095 { items := [{ first := true, last := true, data := [0xFF, 0xA4, 0, 18, 0, 0x80, 5, 0, 0, 0, 0, 0] ++ List.replicate 8 0 }] }
def w265 : State := withWall wall5 [(4095, some { wall := 1, tile := 5, geo := tile4, enc := true, stream := some {}, pic := some { hdr := { picture := 3 }, desc := 1 } })] (State.reset)
def w266 : State := withWall wall5 [(4095, some { wall := 1, tile := 5, geo := tile4, pic := some { hdr := { picture := 3 }, begun := [0, 2] } })] (State.reset)
def w267 : State := (withWall wall5 [(4095, some { wall := 1, tile := 5, geo := tile4, stream := some {}, pic := some { hdr := { picture := 3 }, desc := 1 } })] (put [(F.HWR_STATUS_STATE, 23, 3), (F.HWR_PATCH_RAM_DATA, 188416, 132120576), (F.HWR_PATCH_RAM_DATA, 188417, 0), (F.HWR_PATCH_RAM_DATA, 188420, 0)])).withCodec (fun w => { w with hewers := [(23, { run := some { what := { ctx := 4095, picture := 3, slice := 1 } }, pixPc := 0x4000, bsPc := 0x4000 })] })
def w268 : State := (withWall wall5 [(4095, some { wall := 1, tile := 5, geo := tile4, stream := some {}, pic := some { hdr := { picture := 3 }, desc := 1 } })] (put [(F.HWR_STATUS_STATE, 23, 3), (F.HWR_PATCH_RAM_DATA, 188416, 132120576), (F.HWR_PATCH_RAM_DATA, 188417, 0), (F.HWR_PATCH_RAM_DATA, 188420, 0)])).withCodec (fun w => { w with hewers := [(23, { run := some { what := { ctx := 4095, picture := 3, slice := 1 } }, pixPc := 0x4000, bsPc := 0x4000, pixSelf := true })] })
def w269 : State := (withWall wall5 [(4095, some { wall := 1, tile := 5, geo := tile4, stream := some {}, pic := some { hdr := { picture := 3 }, desc := 1 } })] (put [(F.HWR_STATUS_STATE, 23, 3), (F.HWR_PATCH_RAM_DATA, 188416, 0), (F.HWR_PATCH_RAM_DATA, 188417, 130048), (F.HWR_PATCH_RAM_DATA, 188420, 1024), (F.HWR_STATUS_BS_WAIT, 23, 1)])).withCodec (fun w => { w with hewers := [(23, { run := some { what := { ctx := 4095, picture := 3, slice := 1 } }, pixPc := 0x4000, bsPc := 0x4000 })] })
def w270 : State := (withWall wall5 [(4095, some { wall := 1, tile := 5, geo := tile4, stream := some {}, pic := some { hdr := { picture := 3 }, desc := 1 } })] (put [(F.HWR_STATUS_STATE, 23, 3), (F.HWR_PATCH_RAM_DATA, 188420, 32800)])).withCodec (fun w => { w with hewers := [(23, { run := some { what := { ctx := 4095, picture := 3, slice := 1 } }, pixPc := 0x4000, bsPc := 0x4000 })] })
def w271 : State := (withWall wall5 [(4095, some { wall := 1, tile := 5, geo := tile4, stream := some {}, pic := some { hdr := { picture := 3 }, desc := 1 } })] (put [(F.HWR_STATUS_STATE, 23, 3)])).withCodec (fun w => { w with hewers := [(23, { run := some { what := { ctx := 4095, picture := 3, slice := 1 } }, pixPc := 0x4000, bsPc := 0x4000 })] })
def w272 : State := (withWall wall5 [(4095, some { wall := 1, tile := 5, geo := tile4, stream := some {}, pic := some { hdr := { picture := 3 }, desc := 1 } })] (put [(F.HWR_STATUS_STATE, 23, 3), (F.HWR_PATCH_RAM_DATA, 188420, 160)])).withCodec (fun w => { w with hewers := [(23, { run := some { what := { ctx := 4095, picture := 3, slice := 1 } }, pixPc := 0x4000, bsPc := 0x4000 })] })
def w273 : State := (withWall wall5 [(4095, some { wall := 1, tile := 5, geo := tile4, stream := some {}, pic := some { hdr := { picture := 3 }, desc := 1 } })] (put [(F.HWR_STATUS_STATE, 23, 3), (F.HWR_PATCH_RAM_DATA, 188420, 160)])).withCodec (fun w => { w with hewers := [(23, { run := some { what := { ctx := 4095, picture := 3, slice := 1 } }, pixPc := 0x4000, bsPc := 0x4000, tokens := [15, 15, 15, 15, 15, 15, 15, 15] })] })
def w274 : State := (withWall wall5 [(4095, some { wall := 1, tile := 5, geo := tile4, stream := some {}, pic := some { hdr := { picture := 3 }, desc := 1 } })] (put [(F.HWR_STATUS_STATE, 23, 3), (F.HWR_LM_CORR_COUNT, 23, 4294967295)])).withCodec (fun w => { w with hewers := [(23, { run := some { what := { ctx := 4095, picture := 3, slice := 1 } }, pixPc := 0x4000, bsPc := 0x4000 })] })
def w275 : State := (withWall wall5 [(4095, some { wall := 1, tile := 5, geo := tile4, stream := some {}, pic := some { hdr := { picture := 3 }, desc := 1 } })] (put [(F.HWR_STATUS_STATE, 23, 4)])).withCodec (fun w => { w with hewers := [(23, { run := some { what := { ctx := 4095, picture := 3, slice := 1 } }, pixPc := 0x4000, bsPc := 0x4000, drainFor := [.mailbox 3] })] })
def w276 : State := (put [(F.HWR_STATUS_STATE, 23, 6)]).withCodec (fun w => { w with hewers := [(23, { loading := some {}, loadFor := .mailbox 3 })] })
def w277 : State := (withWall wall5 [(4095, some { wall := 1, tile := 5, geo := tile4, stream := some {}, pic := some { hdr := { picture := 3 }, desc := 1 } })] (put [(F.HWR_STATUS_STATE, 23, 3), (F.HWR_PATCH_RAM_DATA, 188416, 0), (F.HWR_PATCH_RAM_DATA, 188417, 1024), (F.HWR_PATCH_RAM_DATA, 188420, 1024)])).withCodec (fun w => { w with hewers := [(23, { run := some { what := { ctx := 4095, picture := 3, slice := 1 } }, pixPc := 0x4000, bsPc := 0x4000 })] })
def w278 : State := (withWall wall5 [(4095, some { wall := 1, tile := 5, geo := tile4, stream := some {}, pic := some { hdr := { picture := 3 }, desc := 1 } })] (put [(F.HWR_STATUS_STATE, 23, 3), (F.HWR_PATCH_RAM_DATA, 188416, 1)])).withCodec (fun w => { w with hewers := [(23, { run := some { what := { ctx := 4095, picture := 3, slice := 1 } }, pixPc := 0x4000, bsPc := 0x4000 })] })
def w279 : State := (withWall wall5 [(4095, some { wall := 1, tile := 5, geo := tile4, stream := some {}, pic := some { hdr := { picture := 3 }, desc := 1 } })] (put [(F.HWR_STATUS_STATE, 23, 3), (F.HWR_PATCH_RAM_DATA, 188416, 2064385), (F.HWR_PATCH_RAM_DATA, 188420, 256)])).withCodec (fun w => { w with hewers := [(23, { run := some { what := { ctx := 4095, picture := 3, slice := 1 } }, pixPc := 0x4000, bsPc := 0x4000 })] })
def w280 : State := (withWall wall5 [(4095, some { wall := 1, tile := 5, geo := tile4, stream := some {}, pic := some { hdr := { picture := 3 }, desc := 1 } })] (put [(F.HWR_STATUS_STATE, 23, 3), (F.HWR_PATCH_RAM_DATA, 188416, 17408)])).withCodec (fun w => { w with hewers := [(23, { run := some { what := { ctx := 4095, picture := 3, slice := 1 } }, pixPc := 0x4000, bsPc := 0x4000 })] })
def w281 : State := (withWall wall5 [(4095, some { wall := 1, tile := 5, geo := tile4, stream := some {}, pic := some { hdr := { picture := 3 }, desc := 1 } })] (put [(F.HWR_STATUS_STATE, 23, 3), (F.HWR_PATCH_RAM_DATA, 188417, 1024), (F.HWR_PATCH_RAM_DATA, 188420, 1024), (F.HWR_STATUS_BS_WAIT, 23, 1)])).withCodec (fun w => { w with hewers := [(23, { run := some { what := { ctx := 4095, picture := 3, slice := 1 } }, pixPc := 0x4000, bsPc := 0x4000 })] })
def w282 : State := (withWall wall5 [(4095, some { wall := 1, tile := 5, geo := tile4, stream := some {}, pic := some { hdr := { picture := 3 }, desc := 1 } })] (put [(F.HWR_STATUS_STATE, 23, 4), (F.HWR_PATCH_RAM_DATA, 188417, 1024), (F.HWR_PATCH_RAM_DATA, 188420, 1024), (F.HWR_STATUS_BS_WAIT, 23, 1)])).withCodec (fun w => { w with hewers := [(23, { run := some { what := { ctx := 4095, picture := 3, slice := 1 } }, pixPc := 0x4000, bsPc := 0x4000, drainFor := [.mailbox 3] })] })
def w283 : State := (withWall wall5 [(4095, some { wall := 1, tile := 5, geo := tile4, stream := some {}, pic := some { hdr := { picture := 3 }, desc := 1 } })] (put [(F.HWR_STATUS_STATE, 23, 3)])).withCodec (fun w => { w with hewers := [(23, { run := some { what := { ctx := 4095, picture := 3, slice := 1 } }, pixPc := 0x4000, bsPc := 0x4000, pixSelf := true })] })
def w284 : State := (withWall wall5 [(4095, some { wall := 1, tile := 5, geo := tile4, stream := some {}, pic := some { hdr := { picture := 3 }, desc := 1 } })] (put [(F.HWR_STATUS_STATE, 23, 3), (F.HWR_STATUS_BS_WAIT, 23, 1)])).withCodec (fun w => { w with hewers := [(23, { run := some { what := { ctx := 4095, picture := 3, slice := 1 } }, pixPc := 0x4000, bsPc := 0x4000, pixSelf := true })] })
def w285 : State := (State.reset).withCodec (fun w => { w with hewers := [(23, { bsPc := 0x4000 })] })
def w286 : State := (put [(F.HWR_STATUS_STATE, 23, 1), (F.HWR_CTRL_DRAIN, 23, 1)]).withCodec (fun w => { w with hewers := [(23, { testFor := .mailbox 9 })] })
def w287 : State := (put [(F.HWR_STATUS_STATE, 23, 1), (F.HWR_CTRL_SERVICE, 23, 1)]).withCodec (fun w => { w with hewers := [(23, { testFor := .mailbox 9 })] })
def w288 : State := (put [(F.HWR_STATUS_STATE, 23, 1)]).withCodec (fun w => { w with update := some { set := { id := 9 }, at_ := 23, job := 7, waits := false }, hewers := [(23, { testFor := .update })] })
def w289 : State := (put [(F.HWR_STATUS_STATE, 23, 1)]).withCodec (fun w => { w with update := some { set := { id := 9 }, at_ := 23, job := 7, waits := true } })
def w290 : State := (put [(F.HWR_STATUS_STATE, 23, 6), (F.SEM_LOCK_OWNER, 3, 1)]).withCodec (fun w => { w with hewers := [(23, { loading := some { id := 65535, words := [2 ^ 143 + 7, 9], matches_ := [(5, 1), (6, 0)] }, loadFor := .mailbox 9, loadFrom := 5 })] })
def w291 : State := (put [(F.HWR_STATUS_STATE, 23, 6), (F.SEM_LOCK_OWNER, 3, 1)]).withCodec (fun w => { w with hewers := [(23, { loading := some {}, loadFor := .mailbox 9 })] })
def w292 : State := (put [(F.HWR_STATUS_STATE, 23, 6)]).withCodec (fun w => { w with update := some { set := { id := 9, words := [1, 2, 3, 4, 5, 6, 7, 8], matches_ := [(5, 0)] }, at_ := 23, job := 7 }, hewers := [(23, { loading := some { id := 9, words := [1, 2, 3, 4, 5, 6, 7, 8], matches_ := [(5, 0)] }, loadFor := .update, loadFrom := 5 })] })
def w293 : State := (put [(F.HWR_STATUS_STATE, 23, 6)]).withCodec (fun w => { w with update := some { set := { id := 9, words := [1, 2, 3, 4, 5, 6, 7, 8], matches_ := [(5, 0)] }, at_ := 23, job := 7 }, hewers := [(23, { loading := some { id := 9, words := [1, 2, 3, 4, 5, 6, 7, 8], matches_ := [(5, 0)] }, loadFor := .update })] })
def w294 : State := (put [(F.HWR_STATUS_STATE, 23, 6), (F.SPD_CTRL_BUSY, 0, 1)]).withCodec (fun w => { w with update := some { set := { id := 9, words := [1, 2, 3, 4, 5, 6, 7, 8], matches_ := [(5, 0)] }, at_ := 23, job := 7 }, hewers := [(23, { loading := some { id := 9, words := [1, 2, 3, 4, 5, 6, 7, 8], matches_ := [(5, 0)] }, loadFor := .update, loadFrom := 5 })] })
def w295 : State := put [(F.HWR_STATUS_STATE, 23, 3), (F.HWR_CTRL_SERVICE, 23, 1)]
def w296 : State := put [(F.HWR_STATUS_STATE, 23, 4), (F.HWR_CTRL_SERVICE, 23, 1), (F.HWR_CTRL_DRAIN, 23, 1)]
def w297 : State := put [(F.HWR_STATUS_STATE, 23, 2)]
def w298 : State := put [(F.HWR_STATUS_STATE, 23, 3)]
def w299 : State := put [(F.HWR_STATUS_STATE, 23, 5), (F.HWR_CTRL_DRAIN, 23, 1), (F.HWR_CTRL_SERVICE, 23, 1)]
def w300 : State := put [(F.HWR_STATUS_STATE, 23, 4), (F.HWR_CTRL_DRAIN, 23, 1), (F.HWR_CTRL_SERVICE, 23, 1)]
def w301 : State := put [(F.HWR_STATUS_STATE, 23, 2), (F.HWR_CTRL_SERVICE, 23, 1)]
def w302 : State := put [(F.HWR_STATUS_STATE, 23, 7)]
def w303 : State := put [(F.HWR_STATUS_STATE, 23, 0), (F.HWR_PATCH_STATUS_STATE, 23, 2)]
def w304 : State := put [(F.HWR_STATUS_STATE, 23, 5)]
def w305 : State := put [(F.HWR_STATUS_STATE, 23, 6)]
def w306 : State := put [(F.HWR_STATUS_STATE, 23, 0)]
def w307 : State := (State.reset).withCodec (fun w => { w with groups := [(511, some { wall := 1 })] })
def w308 : State := put [(F.STK_PIN_GROUP, 0, 3)]
def w309 : State := (put [(F.STK_DESC_SEL_DESC, 0, 511), (F.STK_DESC_INFO_HOST_PIN, 511, 1), (F.STK_DESC_INFO_GROUP, 511, 4)]).withCodec (fun w => { w with groups := [(4, some { wall := 1, descs := [511] })] })
def w310 : State := put [(F.STK_DESC_SEL_DESC, 0, 511), (F.STK_DESC_INFO_HOST_PIN, 511, 1)]
def w311 : State := (put [(F.HAUL_CTRL_EN, 5, 1), (F.HAUL_STATUS_LINK, 5, 1)]).withHaul (fun w => { w with ports := [(5, { rx := some {} })] })
def w312 : State := put [(F.HAUL_CTRL_EN, 5, 1), (F.HAUL_STATUS_LINK, 5, 1), (F.LANE_CFG_EN, 59, 1), (F.LANE_CFG_FUNC, 59, 1), (F.LANE_CFG_PORT, 59, 5), (F.LANE_CFG_PORT_LANE, 59, 0), (F.LANE_CFG_RATE, 59, 3), (F.LANE_STATUS_CAL, 59, 1)]
def w313 : State := put [(F.HAUL_CTRL_EN, 5, 1), (F.HAUL_STATUS_LINK, 5, 1)]
def w314 : State := put [(F.HAUL_CTRL_EN, 5, 1), (F.HAUL_STATUS_LINK, 5, 1), (F.HAUL_CNT_COUNT, 56, 4294967294)]
def w315 : State := put [(F.HAUL_CTRL_EN, 5, 1), (F.HAUL_STATUS_LINK, 5, 1), (F.CLS_CTRL_EN, 0, 1)]
def w316 : State := put [(F.HAUL_CTRL_EN, 5, 1), (F.HAUL_STATUS_LINK, 5, 1), (F.CLS_CTRL_EN, 0, 1), (F.CLS_DEVICE_ADDR, 0, 1), (F.CLS_CNT_COUNT, 8, 4294967295)]
def w317 : State := put [(F.HAUL_CTRL_EN, 5, 1), (F.HAUL_STATUS_LINK, 5, 1), (F.CLS_CTRL_EN, 0, 1), (F.CLS_DEVICE_ADDR, 0, 5)]
def w318 : State := put [(F.HAUL_CTRL_EN, 5, 1), (F.HAUL_STATUS_LINK, 5, 1), (F.CLS_CTRL_EN, 0, 1), (F.CLS_DEVICE_ADDR, 0, 1), (F.CLS_RING_EN, 0, 1), (F.CLS_RING_SIZE, 0, 64), (F.CLS_RING_POS, 0, 63), (F.CLS_RING_CW_PORT, 0, 5), (F.CLS_RING_CCW_PORT, 0, 4)]
def w319 : State := put [(F.HAUL_CTRL_EN, 5, 1), (F.HAUL_STATUS_LINK, 5, 1), (F.CLS_CTRL_EN, 0, 1), (F.CLS_DEVICE_ADDR, 0, 1), (F.HAUL_DEFAULT_HI_ACTION, 5, 2147483648), (F.HAUL_DEFAULT_LO_ACTION, 5, 0)]
def w320 : State := (put [(F.HAUL_CTRL_EN, 5, 1), (F.HAUL_STATUS_LINK, 5, 1), (F.CLS_CTRL_EN, 0, 1), (F.CLS_DEVICE_ADDR, 0, 1), (F.BPM_CTRL_EN, 0, 1)]).withHaul (fun w => { w with live := { tern := [(8, 4294901760), (9, 1), (11, 4194304)], nTern := 1 } })
def w321 : State := (((((put [(F.HAUL_CTRL_EN, 5, 1), (F.HAUL_STATUS_LINK, 5, 1), (F.CLS_CTRL_EN, 0, 1), (F.CLS_DEVICE_ADDR, 0, 1), (F.BPM_CTRL_EN, 0, 1)]).withHaul (fun w => { w with live := { tern := [(8, 4294901760), (9, 1), (11, 4194304)], nTern := 1 } })).noteSteering (parseFrame 47100 (([255, 255, 255, 255, 255, 255, 0, 0, 0, 0, 0, 0, 18, 52] ++ List.replicate 46 1 ++ [236, 142, 254, 110] : List Byte).take 9216)) (2 ^ 54) (((put [(F.HAUL_CTRL_EN, 5, 1), (F.HAUL_STATUS_LINK, 5, 1), (F.CLS_CTRL_EN, 0, 1), (F.CLS_DEVICE_ADDR, 0, 1), (F.BPM_CTRL_EN, 0, 1)]).withHaul (fun w => { w with live := { tern := [(8, 4294901760), (9, 1), (11, 4194304)], nTern := 1 } })).steerAll (parseFrame 47100 (([255, 255, 255, 255, 255, 255, 0, 0, 0, 0, 0, 0, 18, 52] ++ List.replicate 46 1 ++ [236, 142, 254, 110] : List Byte).take 9216)) (2 ^ 54) 5 [4])).allocPacket { ref := 1, inport := 5, arrival := ((put [(F.HAUL_CTRL_EN, 5, 1), (F.HAUL_STATUS_LINK, 5, 1), (F.CLS_CTRL_EN, 0, 1), (F.CLS_DEVICE_ADDR, 0, 1), (F.BPM_CTRL_EN, 0, 1)]).withHaul (fun w => { w with live := { tern := [(8, 4294901760), (9, 1), (11, 4194304)], nTern := 1 } })).tick4, frame := ([255, 255, 255, 255, 255, 255, 0, 0, 0, 0, 0, 0, 18, 52] ++ List.replicate 46 1 ++ [236, 142, 254, 110] : List Byte), whole := false } 64 (decide (copyQueue (parseFrame 47100 (([255, 255, 255, 255, 255, 255, 0, 0, 0, 0, 0, 0, 18, 52] ++ List.replicate 46 1 ++ [236, 142, 254, 110] : List Byte).take 9216)) (2 ^ 54) < 4))).map (·.2)).getD State.reset
def w322 : State := (put [(F.HAUL_CTRL_EN, 5, 1), (F.HAUL_STATUS_LINK, 5, 1), (F.SPQ_Q_CFG_EN, 4097, 1), (F.SPQ_Q_CFG_SPILL, 4097, 1)]).withHaul (fun w => { w with ports := [(5, { rx := some { frame := [255, 255, 255, 255, 255, 255, 0, 0, 0, 0, 0, 0, 18, 52] ++ List.replicate 46 1 ++ [236, 142, 254, 110], fixed := some 1 } })] })
def w323 : State := (put [(F.HAUL_CTRL_EN, 5, 1), (F.HAUL_STATUS_LINK, 5, 1)]).withHaul (fun w => { w with ports := [(5, { rx := some { frame := [255, 255, 255, 255, 255, 255, 0, 0, 0, 0, 0, 0, 18, 52] ++ List.replicate 46 1 ++ [236, 142, 254, 110] } })] })
def w324 : State := (put [(F.HAUL_CTRL_EN, 5, 1), (F.HAUL_STATUS_LINK, 5, 1)]).withHaul (fun w => { w with ports := [(5, { rx := some { frame := List.replicate 63 0 } })] })
def w325 : State := (put [(F.HAUL_CTRL_EN, 5, 1), (F.HAUL_STATUS_LINK, 5, 1), (F.HAUL_CNT_COUNT, 52, 4294967295)]).withHaul (fun w => { w with ports := [(5, { rx := some { frame := [255, 255, 255, 255, 255, 255, 0, 0, 0, 0, 0, 0, 18, 52] ++ List.replicate 46 1 ++ [236, 142, 254, 110], spoiled := true } })] })
def w326 : State := (put [(F.HAUL_CTRL_EN, 5, 1), (F.HAUL_STATUS_LINK, 5, 1)]).withHaul (fun w => { w with ports := [(5, { rx := some { frame := [255, 255, 255, 255, 255, 255, 0, 0, 0, 0, 0, 0, 18, 52] ++ List.replicate 46 1 ++ [236, 142, 254, 7] } })] })
def w327 : State := (put [(F.HAUL_CTRL_EN, 5, 1), (F.HAUL_STATUS_LINK, 5, 1)]).withHaul (fun w => { w with ports := [(5, { rx := some { frame := [255, 255, 255, 255, 255, 255, 0, 0, 0, 0, 0, 0, 18, 52] ++ List.replicate 46 1 ++ [236, 142, 254, 110], spoiled := true } })] })
def w328 : State := (put [(F.HAUL_CTRL_EN, 5, 1), (F.HAUL_STATUS_LINK, 5, 1)]).withHaul (fun w => { w with ports := [(5, { rx := some { frame := [255, 255, 255, 255, 255, 255, 0, 0, 0, 0, 0, 0, 18, 52] ++ List.replicate 46 1 ++ [236, 142, 254, 110], dropped := true } })] })
def w329 : State := ((put [(F.HAUL_CTRL_EN, 5, 1), (F.HAUL_STATUS_LINK, 5, 1)]).withHaul (fun w => { w with ports := [(5, { rx := some { buf := some 65535, held := 2 } })] })).withQ (fun w => { w with pool := { packets := [(65535, { bufs := [65535, 65536], ref := 2 })] } })
def w330 : State := ((put [(F.HAUL_CTRL_EN, 5, 1), (F.HAUL_STATUS_LINK, 5, 1)]).withHaul (fun w => { w with ports := [(5, { rx := some { buf := some 65535, held := 2 } })] })).withQ (fun w => { w with pool := { packets := [(65535, { bufs := [65535, 65534], ref := 2 })] } })
def w331 : State := ((put [(F.HAUL_CTRL_EN, 5, 1), (F.HAUL_STATUS_LINK, 5, 1)]).withHaul (fun w => { w with ports := [(5, { rx := some { buf := some 65535, held := 2 } })] })).withQ (fun w => { w with pool := { packets := [(65535, { bufs := [65535, 65536], ref := 3, whole := false })] } })
def w332 : State := put [(F.TMG_PORT_CTRL_EN, 5, 1), (F.HAUL_CTRL_EN, 5, 1), (F.HAUL_STATUS_LINK, 5, 1), (F.FLT_STATUS_FATAL, 0, 1)]
def w333 : State := put [(F.TMG_PORT_CTRL_EN, 5, 1), (F.HAUL_CTRL_EN, 5, 1), (F.HAUL_STATUS_LINK, 5, 1)]
def w334 : State := ((put [(F.TMG_PORT_CTRL_EN, 5, 1), (F.HAUL_CTRL_EN, 5, 1), (F.HAUL_STATUS_LINK, 5, 1)]).wakeQueues 5)
def w335 : State := (put [(F.TMG_PORT_CTRL_EN, 5, 1), (F.HAUL_CTRL_EN, 5, 1), (F.HAUL_STATUS_LINK, 5, 1), (F.TMG_Q_DEPTH_BYTES, 323, 64)]).withQ (fun w => { w with tmg := [(323, { copies := [{ buf := 16, len := 64, frame := [1], inport := 2 }] })] })
def w336 : State := (((put [(F.TMG_PORT_CTRL_EN, 5, 1), (F.HAUL_CTRL_EN, 5, 1), (F.HAUL_STATUS_LINK, 5, 1), (F.TMG_Q_DEPTH_BYTES, 323, 64)]).withQ (fun w => { w with tmg := [(323, { copies := [{ buf := 16, len := 64, frame := [1], inport := 2 }] })] })).wakeQueues 5)
def w337 : State := (put [(F.TMG_PORT_CTRL_EN, 5, 1), (F.HAUL_CTRL_EN, 5, 1), (F.HAUL_STATUS_LINK, 5, 1), (F.TMG_Q_DEPTH_BYTES, 383, 100)]).withQ (fun w => { w with tmg := [(325, { copies := [{}], tag := 7 }), (383, { copies := [{ buf := 16, len := 64, frame := [1], inport := 2 }, { len := 36 }], tag := 6 })] })
def w338 : State := (State.reset).withQ (fun w => { w with ports := [(5, { sending := some (3, { buf := 16, len := 64, frame := [1], inport := 2 }) })], pool := { packets := [(16, { bufs := [16], whole := false })] } })
def w339 : State := (State.reset).withQ (fun w => { w with ports := [(5, { sending := some (3, { buf := 16, len := 64, frame := [1], inport := 2 }) })], pool := { packets := [(16, { bufs := [16], ref := 1 })] } })
def w340 : State := (State.reset).withQ (fun w => { w with ports := [(5, { sending := some (3, { buf := 16, len := 64, frame := [1], inport := 2 }) })], pool := { packets := [(16, { bufs := [16], ref := 15, bad := true })] } })
def w341 : State := (State.reset).withQ (fun w => { w with ports := [(5, { sending := some (3, { buf := 16, len := 64, frame := [1], inport := 2 }) })], pool := { packets := [(16, { bufs := [16, 17], ref := 15, bad := true })] } })
def w342 : State := (withWall {} [(4095, some { wall := 1, tile := 5, geo := tile4, enc := true, sequence := 4294967295 })] (put [(F.CLS_DEVICE_ADDR, 0, 5)])).setQueue 4095 { items := [{ first := false, data := [1, 2] }] }
def w343 : State := (withWall {} [(4095, some { wall := 1, tile := 5, geo := tile4, enc := true, sequence := 4294967295 })] (put [(F.CLS_DEVICE_ADDR, 0, 5)])).setQueue 4095 { items := [{ kind := 1, lostItems := 3, lostBytes := 9 }, {}] }
def w344 : State := (withWall {} [(4095, some { wall := 1, tile := 5, geo := tile4, enc := true, sequence := 4294967295 })] (put [(F.CLS_DEVICE_ADDR, 0, 5)])).setQueue 4095 { items := [{ first := true, data := [1, 2] }] }
def w345 : State := (withWall {} [(4095, some { wall := 1, tile := 5, geo := tile4, enc := true, sequence := 4294967295 })] (put [(F.CLS_DEVICE_ADDR, 0, 5), (F.SPQ_Q_CFG_CT, 4095, 0)])).setQueue 4095 { items := [{ first := true, data := List.replicate 64 7 }] }
def w346 : State := (withWall {} [(4095, some { wall := 1, tile := 5, geo := tile4, enc := true, sequence := 4294967295 })] (put [(F.CLS_DEVICE_ADDR, 0, 5)])).setQueue 4095 { items := [{ first := true, data := [1, 2] }, { kind := 1, lostItems := 3, lostBytes := 9 }] }
def w347 : State := (withWall {} [(4095, some { wall := 1, tile := 5, geo := tile4, enc := true, sequence := 4294967295 })] (put [(F.CLS_DEVICE_ADDR, 0, 5)])).setQueue 4095 { items := [{ first := true, last := true, data := [1, 2] }] }
def w348 : State := (((withWall {} [(4095, some { wall := 1, tile := 5, geo := tile4, enc := true, sequence := 4294967295 })] (put [(F.CLS_DEVICE_ADDR, 0, 5)])).setQueue 4095 { items := [{ first := true, last := true, data := [1, 2] }] }).originate 7 (((withWall {} [(4095, some { wall := 1, tile := 5, geo := tile4, enc := true, sequence := 4294967295 })] (put [(F.CLS_DEVICE_ADDR, 0, 5)])).setQueue 4095 { items := [{ first := true, last := true, data := [1, 2] }] }).unitHdr 4095 { first := true, last := true, data := [1, 2] } 0 true) 4294967295 [1, 2]).getD State.reset
def w349 : State := ((withWall {} [(4095, some { wall := 1, tile := 5, geo := tile4, enc := true, sequence := 4294967295 })] (put [(F.CLS_DEVICE_ADDR, 0, 5), (F.BPM_CNT_SAT_STALLS_SAT, 0, 1)])).setQueue 4095 { items := [{ first := true, last := true, data := [1, 2] }] }).withHaul (fun w => { w with live := { exact := [(4, 269484112), (5, 1), (7, 4194304)], nExact := 1 } })
def w350 : State := (State.reset).withHaul (fun w => { w with ports := [(5, { stamps := [{ msgType := 19, domain := 257, seqId := 65537, time := 18446744073709551615 }, {}] })] })
def w351 : State := (State.reset).withQ (fun w => { w with queues := [(4351, { items := [{ first := true, data := List.replicate 504 0 }], pendingCleft := some { kind := 1, lostItems := 3, lostBytes := 9 } })] })
def w352 : State := (State.reset).withQ (fun w => { w with queues := [(4351, { items := [{}], inRead := true, pendingCleft := some { kind := 1, lostItems := 3, lostBytes := 9 } })] })
def w353 : State := withWall {} [(4095, some { wall := 1, tile := 5, geo := tile4, enc := true, sequence := 4294967295 })] (State.reset)
def w354 : State := ((withWall wall5 [(4095, some { wall := 1, tile := 5, geo := tile4, stream := some {}, pic := some { hdr := { picture := 3 }, desc := 1 } })] (State.reset)).withCodec (fun w => { w with hewers := [(23, { run := some { what := { ctx := 4095, picture := 3, slice := 1 } } })] })).withQ (fun w => { w with queues := [(4095, { items := [{ first := true, data := [1, 2, 3], tag := 65536 }, {}] })] })
def w355 : State := ((withWall wall5 [(4095, some { wall := 1, tile := 5, geo := tile4, stream := some {}, pic := some { hdr := { picture := 3 }, desc := 1 } })] (State.reset)).withCodec (fun w => { w with hewers := [(23, { run := some { what := { ctx := 4095, picture := 3, slice := 1 } } })] })).withQ (fun w => { w with queues := [(4095, { items := [{}, { kind := 1, lostItems := 3, lostBytes := 9 }, {}], inRead := true })] })
def w356 : State := ((withWall wall5 [(4095, some { wall := 1, tile := 5, geo := tile4, stream := some {}, pic := some { hdr := { picture := 3 }, desc := 1 } })] (State.reset)).withCodec (fun w => { w with hewers := [(23, { run := some { what := { ctx := 4095, picture := 3, slice := 1 } } })] })).withQ (fun w => { w with queues := [(4095, { items := [{ first := true, data := [1, 2, 3], tag := 65536 }] })] })
def w357 : State := ((withWall wall5 [(4095, some { wall := 1, tile := 5, geo := tile4, stream := some {}, pic := some { hdr := { picture := 3 }, desc := 1 } })] (State.reset)).withCodec (fun w => { w with hewers := [(23, { run := some { what := { ctx := 4095, picture := 3, slice := 1 }, taken := List.replicate 64 9 } })] })).withQ (fun w => { w with queues := [(4095, { items := [{ last := true, data := [1, 2, 3], tag := 65537 }] })] })
def w358 : State := ((withWall wall5 [(4095, some { wall := 1, tile := 5, geo := tile4, stream := some {}, pic := some { hdr := { picture := 3 }, desc := 1 } })] (State.reset)).withCodec (fun w => { w with hewers := [(23, { run := some { what := { ctx := 4095, picture := 3, slice := 1 } } })] })).withQ (fun w => { w with queues := [(4095, { items := [] })] })
def w359 : State := ((withWall wall5 [(4095, some { wall := 1, tile := 5, geo := tile4, stream := some {}, pic := some { hdr := { picture := 3 }, desc := 1 } })] (State.reset)).withCodec (fun w => { w with hewers := [(23, { run := some { what := { ctx := 4095, picture := 3, slice := 1 } } })] })).withQ (fun w => { w with queues := [(4095, { items := [{}], inRead := true })] })
def w360 : State := ((withWall wall5 [(4095, some { wall := 1, tile := 5, geo := tile4, frontDead := true })] (State.reset)).withCodec (fun w => { w with hewers := [] })).withQ (fun w => { w with queues := [(4095, { items := [{ first := true, data := [1, 2, 3], tag := 65536 }] })] })
def w361 : State := ((((withWall wall5 [(4095, some { wall := 1, tile := 5, geo := tile4, frontDead := true })] (State.reset)).withCodec (fun w => { w with hewers := [] })).withQ (fun w => { w with queues := [(4095, { items := [{ first := true, data := [1, 2, 3], tag := 65536 }] })] })).endRead 4095)
def w362 : State := ((withWall wall5 [(4095, some { wall := 1, tile := 5, geo := tile4 })] (State.reset)).withCodec (fun w => { w with hewers := [] })).withQ (fun w => { w with queues := [(4095, { items := [{}, { data := [1, 2, 3], tag := 65537 }], inRead := true })] })
def w363 : State := ((((withWall wall5 [(4095, some { wall := 1, tile := 5, geo := tile4 })] (State.reset)).withCodec (fun w => { w with hewers := [] })).withQ (fun w => { w with queues := [(4095, { items := [{}, { data := [1, 2, 3], tag := 65537 }], inRead := true })] })).endRead 4095)
def w364 : State := ((withWall wall5 [(4095, some { wall := 1, tile := 5, geo := tile4 })] (State.reset)).withCodec (fun w => { w with hewers := [] })).withQ (fun w => { w with queues := [(4095, { items := [{ first := true, data := [1, 2, 3], tag := 65536 }] })] })
def w365 : State := ((((withWall wall5 [(4095, some { wall := 1, tile := 5, geo := tile4 })] (State.reset)).withCodec (fun w => { w with hewers := [] })).withQ (fun w => { w with queues := [(4095, { items := [{ first := true, data := [1, 2, 3], tag := 65536 }] })] })).endRead 4095)
def w366 : State := (State.reset).withQ (fun w => { w with queues := [(4351, { items := [{}, {}] })] })
def w367 : State := (State.reset).withQ (fun w => { w with queues := [(4097, { items := [{ kind := 1, lostItems := 3, lostBytes := 9 }] })] })
def w368 : State := (State.reset).withQ (fun w => { w with queues := [(4351, { items := [{ first := true, data := List.replicate 504 0 }, { kind := 1, lostItems := 3, lostBytes := 9 }, {}], inRead := true, head := 200, spoil := 100 })] })
def w369 : State := (State.reset).withQ (fun w => { w with queues := [(4096, { items := [{}], inRead := true })] })
def w370 : State := (State.reset).withQ (fun w => { w with queues := [(4097, { items := [{ kind := 2, data := List.replicate 10 0 ++ [5, 0, 0, 0, 0, 0, 255, 255, 255, 255, 255, 255, 0, 0, 0, 0, 0, 0, 136, 181, 35, 1, 0, 5, 0, 3, 0, 0, 0, 0, 0, 2, 0, 0, 0, 0, 0, 0, 1, 4, 0, 0, 0, 0, 15, 0, 0, 0, 1, 2, 3, 4] ++ List.replicate 252 255 ++ [68, 75, 37, 244] }] })] })
def w371 : State := (State.reset).withQ (fun w => { w with queues := [(4351, { items := [{ first := true, data := List.replicate 504 0 }, { kind := 1, lostItems := 3, lostBytes := 9 }] })] })
def w372 : State := (((State.reset).withQ (fun w => { w with queues := [(4351, { items := [{ first := true, data := List.replicate 504 0 }, { kind := 1, lostItems := 3, lostBytes := 9 }] })] })).endRead 4351)
def w373 : State := ((((withWall wall5 [(4095, some { wall := 1, tile := 5, geo := tile4, stream := some {}, pic := some { hdr := { picture := 3 }, desc := 1 } })] (State.reset)).withCodec (fun w => { w with hewers := [(23, { run := some { what := { ctx := 4095, picture := 3, slice := 1 } } })] })).withQ (fun w => { w with queues := [(4095, { items := [{ first := true, data := [1, 2, 3], tag := 65536 }] })] })).endRead 4095)
def w374 : State := (State.reset).withQ (fun w => { w with queues := [(4351, { items := [{ first := true, data := List.replicate 504 0 }, { first := true, data := List.replicate 504 0 }], head := 192, spoil := 64 })] })
def w375 : State := (put [(F.SPQ_Q_SEL_QUEUE, 0, 4351), (F.SPQ_Q_CFG_EN, 4351, 1), (F.SPQ_Q_CFG_SPILL, 4351, 1)]).withQ (fun w => { w with queues := [(4351, { items := [{ first := true, data := List.replicate 504 0 }, { first := true, data := List.replicate 504 0 }], head := 192, spoil := 128 })] })
def w376 : State := (put [(F.SPQ_Q_SEL_QUEUE, 0, 4351), (F.SPQ_Q_CFG_EN, 4351, 1), (F.SPQ_Q_CFG_SPILL, 4351, 1), (F.SPQ_POISON_COUNT, 0, 4294967294)]).withQ (fun w => { w with queues := [(4351, { items := [{ first := true, data := List.replicate 504 0 }, { first := true, data := List.replicate 504 0 }], head := 192, spoil := 64 })] })
def w377 : State := (put [(F.SPQ_Q_SEL_QUEUE, 0, 4351), (F.SPQ_Q_CFG_EN, 4351, 1), (F.SPQ_Q_CFG_SPILL, 4351, 1)]).withQ (fun w => { w with queues := [(4351, { items := [{ first := true, data := List.replicate 504 0 }] })] })
def w378 : State := put [(F.SPQ_Q_SEL_QUEUE, 0, 4351)]
def w379 : State := put [(F.SPQ_Q_SEL_QUEUE, 0, 4352)]
def w380 : State := put [(F.BPM_CTRL_EN, 0, 1)]
def w381 : State := ((((put [(F.BPM_CTRL_EN, 0, 1)]).takeBuffers 2 true).map (·.2)).getD State.reset)
def w382 : State := (put [(F.BPM_CTRL_EN, 0, 1)]).withQ (fun w => { w with pool := { sram := { fresh := 65535 }, stalled := [.cp] } })
def w383 : State := put [(F.BPM_STALLS_COUNT, 0, 4294967295)]
def w384 : State := (State.reset).withQ (fun w => { w with pool := { stalled := [.cp] } })
def w385 : State := put [(F.BPM_CTRL_DRAM_EN, 0, 1)]
def w386 : State := (put [(F.BPM_CTRL_DRAM_EN, 0, 1)]).withQ (fun w => { w with pool := { dram := { cache := List.range 127, rd := 983030 } } })
def w387 : State := (put [(F.BPM_CTRL_DRAM_EN, 0, 1)]).withQ (fun w => { w with pool := { dram := { cache := List.range 385, rd := 983040 } } })
def w388 : State := (put [(F.BPM_CTRL_DRAM_EN, 0, 1)]).withQ (fun w => { w with pool := { dram := { cache := List.range 384 } } })
def w389 : State := ((put [(F.TMG_METER_CIR_RATE, 1023, 4294967295), (F.TMG_METER_CBS_BYTES, 1023, 0)]).withQ (fun w => { w with meters := [(1023, { tc := 5, tp := 3, at_ := 8 })] })).withTime (fun t => { t with fclk := 9 })
def w390 : State := ((put [(F.TMG_Q_SHAPE_RATE_RATE, 383, 5)]).withQ (fun w => { w with tmg := [(383, { shaper := { tokens := -7, at_ := 2 } })] })).withTime (fun t => { t with fclk := 9 })
def w391 : State := ((put [(F.TMG_PORT_SHAPE_RATE_RATE, 5, 4294967295), (F.TMG_PORT_SHAPE_BURST_BYTES, 5, 0)]).withQ (fun w => { w with ports := [(5, { shaper := { tokens := -7, at_ := 2 } })] })).withTime (fun t => { t with fclk := 9 })
def w392 : State := (put [(F.TMG_Q_DEPTH_BYTES, 383, 64), (F.TMG_Q_DMIN_VALUE, 383, 65), (F.TMG_Q_DMEAN_MEAN, 383, 2000)]).withQ (fun w => { w with tmg := [(383, { copies := [{ arrival := 1 }], fresh := [false, false, true, true] })] })
def w393 : State := put [(F.TMG_Q_DMIN_VALUE, 383, 77)]
def w394 : State := put [(F.TMG_Q_DMAX_VALUE, 383, 77)]
def w395 : State := put [(F.TMG_Q_HMIN_VALUE, 383, 77)]
def w396 : State := put [(F.TMG_Q_HMAX_VALUE, 383, 77)]
def w397 : State := (put [(F.TMG_METER_SEL_METER, 0, 1023), (F.TMG_METER_PBS_BYTES, 1023, 4294967295)]).withTime (fun t => { t with fclk := 9 })
def w398 : State := (put [(F.TMG_METER_SEL_METER, 0, 1023), (F.TMG_METER_CTRL_EN, 1023, 1)]).withTime (fun t => { t with fclk := 9 })
def w399 : State := ((put [(F.TMG_Q_SHAPE_BURST_BYTES, 383, 0)]).withQ (fun w => { w with tmg := [(383, { copies := [{}], shaper := { tokens := -7, at_ := 2 } })] })).withTime (fun t => { t with fclk := 9 })
def w400 : State := (State.reset).withTime (fun t => { t with fclk := 9 })
def w401 : State := put [(F.CLS_VERSION_STATE, 0, 3)]
def w402 : State := put [(F.CLS_VERSION_STATE, 0, 1)]
def w403 : State := put [(F.CLS_VERSION_STATE, 0, 2), (F.GLB_BOOT_STATUS_STAGE, 0, 5)]
def w404 : State := (put [(F.CLS_VERSION_STATE, 0, 1)]).withHaul (fun w => { w with live := { nExact := 16384, nTern := 512 } })
def w405 : State := put [(F.CLS_VERSION_STATE, 0, 2), (F.CLS_STAGE_COUNT_EXACT, 0, 16385)]
def w406 : State := (put [(F.CLS_VERSION_STATE, 0, 2), (F.CLS_STAGE_COUNT_EXACT, 0, 1)]).withHaul (fun w => { w with staged := { exact := [(7, 33554432)] } })
def w407 : State := (put [(F.CLS_VERSION_STATE, 0, 2), (F.CLS_STAGE_COUNT_EXACT, 0, 1), (F.CLS_VERSION_STAGED, 0, 255)]).withHaul (fun w => { w with staged := { exact := [(4, 269484112), (5, 1), (7, 4194304)] }, ports := [(5, { rx := some {} })], frags := [(255, some {})] })
def w408 : State := (put [(F.CLS_VERSION_STATE, 0, 2)]).withHaul (fun w => { w with staged := { exact := [(4, 269484112), (5, 1), (7, 4194304)] } })
def w409 : State := (put [(F.CLS_VERSION_STATE, 0, 3)]).withHaul (fun w => { w with ports := [(5, { rx := some { underOld := true } })] })
def w410 : State := (put [(F.CLS_VERSION_STATE, 0, 3)]).withHaul (fun w => { w with old := { nTern := 4 }, cloneDue := true })
def w411 : State := (put [(F.CLS_VERSION_STATE, 0, 3), (F.SEM_LOCK_OWNER, 0, 1)]).withHaul (fun w => { w with old := { nTern := 4 } })
def w412 : State := (put [(F.CLS_VERSION_STATE, 0, 3), (F.SEM_LOCK_OWNER, 0, 8)]).withHaul (fun w => { w with old := { nTern := 4 } })
def w413 : State := (put [(F.CLS_VERSION_STATE, 0, 3), (F.SEM_LOCK_OWNER, 0, 1), (F.MBX_STATUS_BUSY, 15, 1), (F.MBX_COMMAND_DATA, 960, 655409)]).withHaul (fun w => { w with old := { nTern := 4 }, commitFor := [.mailbox 15] })
def w414 : State := put [(F.HAUL_CTRL_MODE, 5, 1)]
def w415 : State := put [(F.HAUL_CTRL_EN, 5, 1), (F.HAUL_STATUS_LINK, 5, 1), (F.FLT_SRC_CFG_CLASS, 32, 3), (F.HAUL_CTRL_MODE, 5, 1)]
def w416 : State := put [(F.CLS_RING_EN, 0, 1), (F.CLS_RING_SIZE, 0, 64), (F.CLS_RING_POS, 0, 63), (F.CLS_RING_CW_PORT, 0, 5), (F.CLS_RING_CCW_PORT, 0, 4), (F.HAUL_CTRL_EN, 5, 1), (F.HAUL_STATUS_LINK, 5, 1)]
def w417 : State := put [(F.CLS_RING_EN, 0, 1), (F.CLS_RING_SIZE, 0, 64), (F.CLS_RING_POS, 0, 63), (F.CLS_RING_CW_PORT, 0, 5), (F.CLS_RING_CCW_PORT, 0, 4), (F.HAUL_STATUS_LINK, 4, 1)]
def w418 : State := (put [(F.HAUL_CTRL_EN, 5, 1), (F.HAUL_CTRL_LANES, 5, 0), (F.HAUL_CTRL_RATE, 5, 3), (F.LANE_CFG_EN, 59, 1), (F.LANE_CFG_FUNC, 59, 1), (F.LANE_CFG_PORT, 59, 5), (F.LANE_CFG_PORT_LANE, 59, 0), (F.LANE_CFG_RATE, 59, 3), (F.LANE_STATUS_SYNC, 59, 1)]).withHaul (fun w => { w with ports := [(5, { lost := true })] })
def w419 : State := put [(F.HAUL_CTRL_EN, 5, 1), (F.HAUL_CTRL_MODE, 5, 2), (F.LANE_CFG_EN, 59, 1), (F.LANE_CFG_FUNC, 59, 1), (F.LANE_CFG_PORT, 59, 5), (F.LANE_CFG_PORT_LANE, 59, 0), (F.LANE_CFG_RATE, 59, 0), (F.LANE_STATUS_SYNC, 59, 1)]
def w420 : State := (put [(F.HAUL_CTRL_EN, 5, 1), (F.HAUL_CTRL_MODE, 5, 1), (F.HAUL_CTRL_LANES, 5, 2), (F.HAUL_CTRL_RATE, 5, 2), (F.LANE_CFG_EN, 56, 1), (F.LANE_CFG_FUNC, 56, 1), (F.LANE_CFG_PORT, 56, 5), (F.LANE_CFG_PORT_LANE, 56, 0), (F.LANE_CFG_RATE, 56, 1), (F.LANE_CFG_EN, 57, 1), (F.LANE_CFG_FUNC, 57, 1), (F.LANE_CFG_PORT, 57, 5), (F.LANE_CFG_PORT_LANE, 57, 1), (F.LANE_CFG_RATE, 57, 1), (F.LANE_CFG_EN, 58, 1), (F.LANE_CFG_FUNC, 58, 1), (F.LANE_CFG_PORT, 58, 5), (F.LANE_CFG_PORT_LANE, 58, 2), (F.LANE_CFG_RATE, 58, 1), (F.LANE_CFG_EN, 59, 1), (F.LANE_CFG_FUNC, 59, 1), (F.LANE_CFG_PORT, 59, 5), (F.LANE_CFG_PORT_LANE, 59, 3), (F.LANE_CFG_RATE, 59, 1), (F.LANE_STATUS_SYNC, 56, 1), (F.LANE_STATUS_SYNC, 57, 1), (F.LANE_STATUS_SYNC, 58, 1), (F.LANE_STATUS_SYNC, 59, 1)]).withHaul (fun w => { w with ports := [(5, { lost := true })] })
def w421 : State := put [(F.CLS_RING_EN, 0, 1), (F.CLS_RING_SIZE, 0, 64), (F.CLS_RING_POS, 0, 63), (F.CLS_RING_CW_PORT, 0, 5), (F.CLS_RING_CCW_PORT, 0, 4)]
def w422 : State := put [(F.CLS_RING_EN, 0, 1), (F.CLS_RING_SIZE, 0, 64), (F.CLS_RING_POS, 0, 63), (F.CLS_RING_CW_PORT, 0, 5), (F.CLS_RING_CCW_PORT, 0, 4), (F.CLS_RING_CUT_CW_VALID, 0, 1), (F.CLS_RING_CUT_CW_X, 0, 5)]
def w423 : State := put [(F.CLS_RING_EN, 0, 1), (F.CLS_RING_SIZE, 0, 64), (F.CLS_RING_POS, 0, 63), (F.CLS_RING_CW_PORT, 0, 5), (F.CLS_RING_CCW_PORT, 0, 4), (F.CLS_RING_CUT_CCW_VALID, 0, 1), (F.CLS_RING_CUT_CCW_X, 0, 5)]
def w424 : State := put [(F.CLS_RING_EN, 0, 1), (F.CLS_RING_SIZE, 0, 64), (F.CLS_RING_POS, 0, 63), (F.CLS_RING_CW_PORT, 0, 5), (F.CLS_RING_CCW_PORT, 0, 4), (F.TMG_Q_DEPTH_MAX_BYTES, 256, 200), (F.TMG_Q_DEPTH_MAX_BYTES, 320, 200)]
def w425 : State := (put [(F.CLS_RING_EN, 0, 1), (F.CLS_RING_SIZE, 0, 64), (F.CLS_RING_POS, 0, 63), (F.CLS_RING_CW_PORT, 0, 5), (F.CLS_RING_CCW_PORT, 0, 4)]).withHaul (fun w => { w with ports := [(5, { lost := true })] })
def w426 : State := (put [(F.CLS_RING_EN, 0, 1), (F.CLS_RING_SIZE, 0, 64), (F.CLS_RING_POS, 0, 63), (F.CLS_RING_CW_PORT, 0, 5), (F.CLS_RING_CCW_PORT, 0, 4), (F.CLS_RING_CUT_CW_VALID, 0, 1), (F.CLS_RING_CUT_CCW_VALID, 0, 1)]).withHaul (fun w => { w with ownCw := true, ownCcw := true })
def w427 : State := (put [(F.CLS_RING_EN, 0, 1), (F.CLS_RING_SIZE, 0, 64), (F.CLS_RING_POS, 0, 63), (F.CLS_RING_CW_PORT, 0, 5), (F.CLS_RING_CCW_PORT, 0, 4), (F.CLS_RING_CUT_CW_VALID, 0, 1), (F.CLS_RING_CUT_CCW_VALID, 0, 1)]).withHaul (fun w => { w with ownCcw := true })
def w428 : State := (put [(F.CLS_RING_EN, 0, 1), (F.CLS_RING_SIZE, 0, 64), (F.CLS_RING_POS, 0, 63), (F.CLS_RING_CW_PORT, 0, 5), (F.CLS_RING_CCW_PORT, 0, 4), (F.CLS_RING_CUT_CW_VALID, 0, 1), (F.CLS_RING_CUT_CCW_VALID, 0, 1)]).withHaul (fun w => { w with ownCw := true })
def w429 : State := (put [(F.CLS_RING_EN, 0, 1), (F.CLS_RING_SIZE, 0, 64), (F.CLS_RING_POS, 0, 63), (F.CLS_RING_CW_PORT, 0, 5), (F.CLS_RING_CCW_PORT, 0, 4), (F.CLS_RING_CUT_CW_VALID, 0, 1)]).withHaul (fun w => { w with ownCcw := true })
def w430 : State := put [(F.CLS_RING_EN, 0, 1), (F.CLS_RING_SIZE, 0, 64), (F.CLS_RING_POS, 0, 63), (F.CLS_RING_CW_PORT, 0, 5), (F.CLS_RING_CCW_PORT, 0, 4), (F.CLS_RING_CUT_CW_VALID, 0, 1)]
def w431 : State := (put [(F.CLS_FRAG_USED, 0, 1)]).withHaul (fun w => { w with frags := [(255, some { ended := true, ctx := some 3 })] })
def w432 : State := (put [(F.CLS_FRAG_USED, 0, 2)]).withHaul (fun w => { w with frags := [(3, some {}), (255, some {})] })
def w433 : State := put [(F.LANE_STATUS_SIGNAL, 63, 1)]
def w434 : State := put [(F.LANE_STATUS_CAL, 63, 1), (F.LANE_CFG_FUNC, 63, 2)]
def w435 : State := put [(F.LANE_STATUS_CAL, 59, 1), (F.LANE_CFG_FUNC, 59, 2), (F.LANE_CFG_PORT, 59, 47)]
def w436 : State := put [(F.LANE_STATUS_SYNC, 63, 1), (F.LANE_STATUS_CAL, 63, 1)]
def w437 : State := put [(F.LANE_STATUS_SYNC, 63, 1), (F.LANE_CNT_COUNT, 254, 4294967294)]
def w438 : State := put [(F.LANE_STATUS_SYNC, 59, 1), (F.LANE_CFG_EN, 59, 1), (F.LANE_CFG_FUNC, 59, 1), (F.LANE_CFG_PORT, 59, 5), (F.LANE_CFG_PORT_LANE, 59, 0), (F.LANE_CFG_RATE, 59, 3)]
def w439 : State := put [(F.LANE_STATUS_CDR_LOCK, 59, 1), (F.LANE_CFG_EN, 59, 1), (F.LANE_CFG_FUNC, 59, 1), (F.LANE_CFG_PORT, 59, 5), (F.LANE_CFG_PORT_LANE, 59, 0), (F.LANE_CFG_RATE, 59, 3)]
def w440 : State := put [(F.LANE_STATUS_CDR_LOCK, 0, 1), (F.LANE_CFG_EN, 0, 1)]
def w441 : State := put [(F.LANE_CFG_EN, 59, 1), (F.LANE_CFG_FUNC, 59, 1), (F.LANE_CFG_PORT, 59, 5), (F.LANE_CFG_PORT_LANE, 59, 0), (F.LANE_CFG_RATE, 59, 3), (F.LANE_STATUS_CAL, 59, 1)]
def w442 : State := (put [(F.LANE_CFG_FUNC, 59, 0)]).withLane (fun w => { w with due := [59, 3] })
def w443 : State := (put [(F.LANE_CFG_EN, 59, 1), (F.LANE_CFG_FUNC, 59, 2), (F.LANE_CFG_PORT, 59, 47), (F.LANE_CFG_PORT_LANE, 59, 0), (F.LANE_CFG_RATE, 59, 3)]).withLane (fun w => { w with due := [59] })
def w444 : State := ((put [(F.HAUL_CTRL_EN, 5, 1), (F.HAUL_STATUS_LINK, 5, 1), (F.LANE_CFG_EN, 59, 1), (F.LANE_CFG_FUNC, 59, 1), (F.LANE_CFG_PORT, 59, 5), (F.LANE_CFG_PORT_LANE, 59, 0), (F.LANE_CFG_RATE, 59, 3)]).withHaul (fun w => { w with ports := [(5, { rx := some {} })] })).withLane (fun w => { w with due := [59] })
def w445 : State := (put [(F.LANE_CFG_FUNC, 59, 0)]).withLane (fun w => { w with due := [3], restored := [(59, some 1023)] })
def w446 : State := (put [(F.LANE_CFG_FUNC, 59, 0)]).withLane (fun w => { w with due := [59, 3], restored := [(59, some 1023)] })
def w447 : State := (put [(F.LANE_CFG_FUNC, 59, 0)]).withLane (fun w => { w with due := [3] })
def w448 : State := (put [(F.LANE_CFG_FUNC, 59, 0), (F.LANE_STATUS_CAL, 59, 1)]).withLane (fun w => { w with due := [59] })
def w449 : State := put [(F.LANE_STATUS_CAL, 63, 1)]
def w450 : State := put [(F.LANE_STATUS_CAL, 63, 1), (F.LANE_RX_PEAK_FIXED, 63, 1)]
def w451 : State := put [(F.LANE_STATUS_CAL, 59, 1)]
def w452 : State := put [(F.LANE_CFG_EN, 59, 0), (F.LANE_STATUS_SYNC, 59, 1)]
def w453 : State := put [(F.HAUL_CTRL_EN, 5, 1), (F.HAUL_STATUS_LINK, 5, 1), (F.LANE_CFG_EN, 59, 0)]
def w454 : State := put [(F.HAUL_CTRL_EN, 5, 1), (F.HAUL_STATUS_LINK, 5, 1), (F.LANE_CFG_EN, 59, 1), (F.LANE_CFG_FUNC, 59, 1), (F.LANE_CFG_PORT, 59, 5), (F.LANE_CFG_PORT_LANE, 59, 0), (F.LANE_CFG_RATE, 59, 3)]
def w455 : State := put [(F.LANE_CFG_EN, 59, 0)]
def w456 : State := (put [(F.LANE_CFG_EN, 59, 1)]).withLane (fun w => { w with due := [3] })
def w457 : State := put [(F.LANE_CFG_EN, 63, 1)]
def w458 : State := (put [(F.LANE_CFG_EN, 59, 1)]).withLane (fun w => { w with due := [59] })
def w459 : State := put [(F.GLB_BOOT_STATUS_STAGE, 0, 5)]
def w460 : State := put [(F.LANE_CFG_EN, 60, 1)]
def w461 : State := put [(F.LANE_CFG_EN, 60, 0), (F.LANE_CFG_EN, 61, 0), (F.LANE_CFG_EN, 62, 0), (F.LANE_CFG_EN, 63, 0)]
def w462 : State := put [(F.LANE_CFG_EN, 63, 1), (F.LANE_CFG_FUNC, 63, 0), (F.LANE_PRBS_CHK, 63, 1)]
def w463 : State := put [(F.LANE_CFG_EN, 63, 1), (F.LANE_CFG_FUNC, 63, 0), (F.LANE_PRBS_CHK, 63, 1), (F.LANE_CNT_COUNT, 255, 4294967295)]
def w464 : State := put [(F.ING_CTRL_EN, 7, 1), (F.ING_CTRL_MODE, 7, 0), (F.ING_CTRL_WALL, 7, 1), (F.ING_STATUS_LINK, 7, 1), (F.ING_REGION_SIZE_WIDTH, 7, 2), (F.ING_REGION_SIZE_HEIGHT, 7, 2), (F.LANE_CFG_EN, 63, 1), (F.LANE_CFG_FUNC, 63, 3), (F.LANE_CFG_PORT, 63, 7), (F.LANE_CFG_PORT_LANE, 63, 0), (F.LANE_CFG_RATE, 63, 3)]
def w465 : State := (put [(F.HAUL_CTRL_EN, 5, 1), (F.HAUL_STATUS_LINK, 5, 1), (F.LANE_CFG_EN, 59, 1), (F.LANE_CFG_FUNC, 59, 1), (F.LANE_CFG_PORT, 59, 5), (F.LANE_CFG_PORT_LANE, 59, 0), (F.LANE_CFG_RATE, 59, 3)]).withHaul (fun w => { w with ports := [(5, { rx := some { buf := some 16 } })] })
def w466 : State := put [(F.LANE_CFG_EN, 59, 1), (F.LANE_CFG_FUNC, 59, 1), (F.LANE_CFG_PORT, 59, 5), (F.LANE_CFG_PORT_LANE, 59, 0), (F.LANE_CFG_RATE, 59, 3)]
def w467 : State := put [(F.ING_CTRL_EN, 7, 1), (F.ING_CTRL_MODE, 7, 0), (F.ING_CTRL_WALL, 7, 1), (F.ING_STATUS_LINK, 7, 1), (F.ING_REGION_SIZE_WIDTH, 7, 2), (F.ING_REGION_SIZE_HEIGHT, 7, 2), (F.ING_CTRL_MODE, 7, 1)]
def w468 : State := put [(F.ING_CTRL_EN, 7, 1), (F.ING_CTRL_MODE, 7, 0), (F.ING_CTRL_WALL, 7, 1), (F.ING_STATUS_LINK, 7, 1), (F.ING_REGION_SIZE_WIDTH, 7, 2), (F.ING_REGION_SIZE_HEIGHT, 7, 2)]
def w469 : State := put [(F.ING_CTRL_EN, 7, 1), (F.ING_CTRL_MODE, 7, 0), (F.ING_CTRL_WALL, 7, 1), (F.ING_STATUS_LINK, 7, 1), (F.ING_REGION_SIZE_WIDTH, 7, 2), (F.ING_REGION_SIZE_HEIGHT, 7, 2), (F.ING_CNT_COUNT, 61, 4294967294)]
def w470 : State := (withWall wall5 [] (put [(F.ING_CTRL_EN, 7, 1), (F.ING_CTRL_MODE, 7, 0), (F.ING_CTRL_WALL, 7, 1), (F.ING_STATUS_LINK, 7, 1), (F.ING_REGION_SIZE_WIDTH, 7, 2), (F.ING_REGION_SIZE_HEIGHT, 7, 2)]))
def w471 : State := ((withWall wall5 [] (put [(F.ING_CTRL_EN, 7, 1), (F.ING_CTRL_MODE, 7, 0), (F.ING_CTRL_WALL, 7, 1), (F.ING_STATUS_LINK, 7, 1), (F.ING_REGION_SIZE_WIDTH, 7, 2), (F.ING_REGION_SIZE_HEIGHT, 7, 2)]))).withHaul (fun w => { w with ing := [(7, { pic := some { got := [(1, 1)] } })] })
def w472 : State := ((withWall wall5 [] (put [(F.ING_CTRL_EN, 7, 1), (F.ING_CTRL_MODE, 7, 0), (F.ING_CTRL_WALL, 7, 1), (F.ING_STATUS_LINK, 7, 1), (F.ING_REGION_SIZE_WIDTH, 7, 2), (F.ING_REGION_SIZE_HEIGHT, 7, 2), (F.ING_CTRL_LEADER, 7, 1)]))).withHaul (fun w => { w with ing := [(7, { pic := some {} })] })
def w473 : State := ((withWall wall5 [] (put [(F.ING_CTRL_EN, 7, 1), (F.ING_CTRL_MODE, 7, 0), (F.ING_CTRL_WALL, 7, 1), (F.ING_STATUS_LINK, 7, 1), (F.ING_REGION_SIZE_WIDTH, 7, 2), (F.ING_REGION_SIZE_HEIGHT, 7, 2)]))).withHaul (fun w => { w with ing := [(7, { pic := some {} })] })
def w474 : State := (put [(F.ING_CTRL_EN, 7, 1), (F.ING_CTRL_MODE, 7, 0), (F.ING_CTRL_WALL, 7, 1), (F.ING_STATUS_LINK, 7, 1), (F.ING_REGION_SIZE_WIDTH, 7, 2), (F.ING_REGION_SIZE_HEIGHT, 7, 2)]).withHaul (fun w => { w with ing := [(7, { closing := true })] })
def w475 : State := (put [(F.ING_CTRL_EN, 7, 1), (F.ING_CTRL_MODE, 7, 0), (F.ING_CTRL_WALL, 7, 1), (F.ING_STATUS_LINK, 7, 1), (F.ING_REGION_SIZE_WIDTH, 7, 2), (F.ING_REGION_SIZE_HEIGHT, 7, 2)]).withHaul (fun w => { w with ing := [(7, { closing := true, pic := some { done := [1], wallPic := some 3 } })] })
def w476 : State := put [(F.ING_CTRL_EN, 7, 1), (F.ING_CTRL_MODE, 7, 0), (F.ING_CTRL_WALL, 7, 1), (F.ING_STATUS_LINK, 7, 1), (F.ING_REGION_SIZE_WIDTH, 7, 2), (F.ING_REGION_SIZE_HEIGHT, 7, 2), (F.ING_CNT_COUNT, 63, 4294967295)]
def w477 : State := put [(F.ING_CTRL_EN, 7, 1), (F.ING_CTRL_MODE, 7, 0), (F.ING_CTRL_WALL, 7, 1), (F.ING_STATUS_LINK, 7, 1), (F.ING_REGION_SIZE_WIDTH, 7, 2), (F.ING_REGION_SIZE_HEIGHT, 7, 2), (F.ING_CTRL_LANES, 7, 0), (F.ING_STATUS_LINK, 7, 0), (F.LANE_CFG_EN, 59, 1), (F.LANE_CFG_FUNC, 59, 3), (F.LANE_CFG_PORT, 59, 7), (F.LANE_CFG_PORT_LANE, 59, 0), (F.LANE_CFG_RATE, 59, 3), (F.LANE_STATUS_SYNC, 59, 1)]
def w478 : State := (put [(F.DDR_STATUS_STATE, 3, 2), (F.DDR_CTRL_EN, 3, 1), (F.DDR_STATUS_STATE, 3, 3), (F.ARB_WAITS_LO_COUNT, 47, 4294967295)]).withMem (fun w => { w with chans := [(3, { waiting := [{ req := 11, line := 4099 }] })] })
def w479 : State := (put [(F.DDR_STATUS_STATE, 3, 2), (F.DDR_CTRL_EN, 3, 1)]).withMem (fun w => { w with chans := [(3, {})] })
def w480 : State := (((put [(F.DDR_STATUS_STATE, 3, 2), (F.DDR_CTRL_EN, 3, 1)]).withMem (fun w => { w with chans := [(3, {})] })).catchUp 3)
def w481 : State := (put [(F.DDR_STATUS_STATE, 3, 2), (F.DDR_CTRL_EN, 3, 1), (F.ARB_GRANTS_LO_COUNT, 47, 4294967295), (F.ARB_GRANTS_HI_COUNT, 47, 65535), (F.ARB_WAITS_LO_COUNT, 45, 4294967295)]).withMem (fun w => { w with chans := [(3, { waiting := [{ req := 9, line := 4099, write := true, secure := true }, { req := 11, line := 4099 }, { req := 0, line := 3, wait := 65536 }] })] })
def w482 : State := (((put [(F.DDR_STATUS_STATE, 3, 2), (F.DDR_CTRL_EN, 3, 1), (F.ARB_GRANTS_LO_COUNT, 47, 4294967295), (F.ARB_GRANTS_HI_COUNT, 47, 65535), (F.ARB_WAITS_LO_COUNT, 45, 4294967295)]).withMem (fun w => { w with chans := [(3, { waiting := [{ req := 9, line := 4099, write := true, secure := true }, { req := 11, line := 4099 }, { req := 0, line := 3, wait := 65536 }] })] })).catchUp 3)
def w483 : State := (put [(F.DDR_STATUS_STATE, 3, 2), (F.DDR_CTRL_EN, 3, 1), (F.RIV_CH_STATUS_PANIC, 47, 1)]).withMem (fun w => { w with chans := [(3, { waiting := [{ req := 9, line := 4099, write := true, secure := true }, { req := 11, line := 4099 }, { req := 0, line := 3, wait := 65536 }], granted := [{ req := 9, line := 4099, write := true, secure := true }] })] })
def w484 : State := (((put [(F.DDR_STATUS_STATE, 3, 2), (F.DDR_CTRL_EN, 3, 1), (F.RIV_CH_STATUS_PANIC, 47, 1)]).withMem (fun w => { w with chans := [(3, { waiting := [{ req := 9, line := 4099, write := true, secure := true }, { req := 11, line := 4099 }, { req := 0, line := 3, wait := 65536 }], granted := [{ req := 9, line := 4099, write := true, secure := true }] })] })).catchUp 3)
def w485 : State := (put [(F.DDR_STATUS_STATE, 3, 2), (F.DDR_CTRL_EN, 3, 1), (F.SEC_REGION_ATTR_EN, 63, 1), (F.SEC_REGION_LIMIT_PAGE, 63, 64)]).withMem (fun w => { w with chans := [(3, { waiting := [{ req := 9, line := 4099, write := true, secure := true }] })] })
def w486 : State := (((put [(F.DDR_STATUS_STATE, 3, 2), (F.DDR_CTRL_EN, 3, 1), (F.SEC_REGION_ATTR_EN, 63, 1), (F.SEC_REGION_LIMIT_PAGE, 63, 64)]).withMem (fun w => { w with chans := [(3, { waiting := [{ req := 9, line := 4099, write := true, secure := true }] })] })).catchUp 3)
def w487 : State := (put [(F.DDR_STATUS_STATE, 3, 2), (F.DDR_CTRL_EN, 3, 1), (F.DDR_STATUS_STATE, 3, 3)]).withMem (fun w => { w with chans := [(3, { granted := [{ req := 11, line := 4099 }] })] })
def w488 : State := (put [(F.DDR_STATUS_STATE, 3, 2), (F.DDR_CTRL_EN, 3, 1)]).withMem (fun w => { w with chans := [(3, { granted := [{ req := 11, line := 4099 }], postponed := 4 })] })
def w489 : State := (put [(F.DDR_STATUS_STATE, 3, 2), (F.DDR_CTRL_EN, 3, 1)]).withMem (fun w => { w with chans := [(3, { granted := [{ req := 9, line := 4099, write := true, secure := true }], batch := [(0, 3), (1, 3)] })], poison := [4099, 5] })
def w490 : State := (((put [(F.DDR_STATUS_STATE, 3, 2), (F.DDR_CTRL_EN, 3, 1)]).withMem (fun w => { w with chans := [(3, { granted := [{ req := 9, line := 4099, write := true, secure := true }], batch := [(0, 3), (1, 3)] })], poison := [4099, 5] })).catchUp 3)
def w491 : State := (put [(F.DDR_STATUS_STATE, 3, 2), (F.DDR_CTRL_EN, 3, 1)]).withMem (fun w => { w with chans := [(3, { granted := [{ req := 9, line := 4099, write := true, secure := true }] })] })
def w492 : State := (((put [(F.DDR_STATUS_STATE, 3, 2), (F.DDR_CTRL_EN, 3, 1)]).withMem (fun w => { w with chans := [(3, { granted := [{ req := 9, line := 4099, write := true, secure := true }] })] })).catchUp 3)
def w493 : State := (put [(F.DDR_STATUS_STATE, 3, 2), (F.DDR_CTRL_EN, 3, 1)]).withMem (fun w => { w with chans := [(3, { granted := [{ req := 0, line := 4099 }, { req := 9, line := 4099, write := true }] })], poison := [4099] })
def w494 : State := (((put [(F.DDR_STATUS_STATE, 3, 2), (F.DDR_CTRL_EN, 3, 1)]).withMem (fun w => { w with chans := [(3, { granted := [{ req := 0, line := 4099 }, { req := 9, line := 4099, write := true }] })], poison := [4099] })).catchUp 3)
def w495 : State := (put [(F.DDR_STATUS_STATE, 3, 2), (F.DDR_CTRL_EN, 3, 1)]).withMem (fun w => { w with chans := [(3, { granted := [{ req := 11, line := 4099 }] })] })
def w496 : State := (((put [(F.DDR_STATUS_STATE, 3, 2), (F.DDR_CTRL_EN, 3, 1)]).withMem (fun w => { w with chans := [(3, { granted := [{ req := 11, line := 4099 }] })] })).catchUp 3)
def w497 : State := (put [(F.DDR_STATUS_STATE, 3, 2), (F.DDR_CTRL_EN, 3, 1)]).withMem (fun w => { w with chans := [(3, { granted := [{ req := 0, line := 3, wait := 65536 }] })], poison := [3] })
def w498 : State := (((put [(F.DDR_STATUS_STATE, 3, 2), (F.DDR_CTRL_EN, 3, 1)]).withMem (fun w => { w with chans := [(3, { granted := [{ req := 0, line := 3, wait := 65536 }] })], poison := [3] })).catchUp 3)
def w499 : State := (put [(F.DDR_STATUS_STATE, 3, 2), (F.DDR_CTRL_EN, 3, 1), (F.DDR_LOG_STATUS_LOG_CE, 0, 0), (F.FLT_SRC_CFG_CLASS, 17, 2)]).withMem (fun w => { w with chans := [(3, { granted := [{ req := 11, line := 4099 }] })] })
def w500 : State := (((put [(F.DDR_STATUS_STATE, 3, 2), (F.DDR_CTRL_EN, 3, 1), (F.DDR_LOG_STATUS_LOG_CE, 0, 0), (F.FLT_SRC_CFG_CLASS, 17, 2)]).withMem (fun w => { w with chans := [(3, { granted := [{ req := 11, line := 4099 }] })] })).catchUp 3)
def w501 : State := (put [(F.DDR_STATUS_STATE, 3, 2), (F.DDR_CTRL_EN, 3, 1)]).withMem (fun w => { w with chans := [(3, { granted := [{ req := 11, line := 4099 }] })], log := List.replicate 64 [] })
def w502 : State := (((put [(F.DDR_STATUS_STATE, 3, 2), (F.DDR_CTRL_EN, 3, 1)]).withMem (fun w => { w with chans := [(3, { granted := [{ req := 11, line := 4099 }] })], log := List.replicate 64 [] })).catchUp 3)
def w503 : State := (put [(F.DDR_STATUS_STATE, 3, 2), (F.DDR_CTRL_EN, 3, 1)]).withMem (fun w => { w with chans := [(3, { granted := [{ req := 11, line := 4099 }, { req := 9, line := 4099, write := true, secure := true }] })] })
def w504 : State := (put [(F.DDR_STATUS_STATE, 3, 2), (F.DDR_CTRL_EN, 3, 1), (F.FLT_SRC_CFG_CLASS, 22, 2)]).withMem (fun w => { w with chans := [(3, { granted := [{ req := 9, line := 4099, write := true, secure := true }] })] })
def w505 : State := (put [(F.DDR_STATUS_STATE, 3, 2), (F.DDR_CTRL_EN, 3, 1), (F.DDR_STATUS_STATE, 3, 3)]).withMem (fun w => { w with chans := [(3, {})] })
def w506 : State := (put [(F.DDR_STATUS_STATE, 3, 2), (F.DDR_CTRL_EN, 3, 1), (F.DDR_REFRESH_POSTPONE, 3, 7)]).withMem (fun w => { w with chans := [(3, { granted := [{ req := 11, line := 4099 }], postponed := 3 })] })
def w507 : State := (put [(F.DDR_STATUS_STATE, 3, 2), (F.DDR_CTRL_EN, 3, 1), (F.DDR_TIMING_ARM_SHADOW_ARMED, 3, 1)]).withMem (fun w => { w with chans := [(3, { rows := [(5, 4)], postponed := 4, delayNext := [(19, 16384)], shadow := [(2, 90)] })] })
def w508 : State := (put [(F.DDR_STATUS_STATE, 3, 2), (F.DDR_CTRL_EN, 3, 1)]).withMem (fun w => { w with chans := [(3, { granted := [{ req := 11, line := 4099 }], postponed := 4, rows := [(5, 4)], hits := [(0, 8)] })] })
def w509 : State := (put [(F.DDR_STATUS_STATE, 3, 2), (F.DDR_CTRL_EN, 3, 1), (F.DDR_REFRESH_MODE, 3, 1)]).withMem (fun w => { w with chans := [(3, { rows := [(5, 4), (7, 9)], refBank := 3 })] })
def w510 : State := (put [(F.DDR_STATUS_STATE, 3, 2), (F.DDR_CTRL_EN, 3, 1)]).withMem (fun w => { w with chans := [(3, { granted := [{ req := 0, line := 3, wait := 65536 }], rows := [(0, 1)] })] })
def w511 : State := (put [(F.DDR_STATUS_STATE, 3, 2), (F.DDR_CTRL_EN, 3, 1)]).withMem (fun w => { w with chans := [(3, { rows := [(63, 9)] })] })
def w512 : State := (put [(F.DDR_STATUS_STATE, 3, 2), (F.DDR_CTRL_EN, 3, 1)]).withMem (fun w => { w with chans := [(3, { scrubAt := 268435455 })] })
def w513 : State := (put [(F.DDR_STATUS_STATE, 3, 2), (F.DDR_CTRL_EN, 3, 1), (F.DDR_CTRL_SCRUB_EN, 3, 1), (F.SEC_REGION_ATTR_EN, 63, 1), (F.SEC_REGION_LIMIT_PAGE, 63, 1073741823)]).withMem (fun w => { w with chans := [(3, {})] })
def w514 : State := (put [(F.DDR_STATUS_STATE, 3, 2), (F.DDR_CTRL_EN, 3, 1), (F.DDR_CTRL_SCRUB_EN, 3, 1)]).withMem (fun w => { w with chans := [(3, {})] })
def w515 : State := (put [(F.DDR_STATUS_STATE, 3, 2), (F.DDR_CTRL_EN, 3, 1), (F.DDR_WCRC_RETRY_COUNT, 3, 4294967295)]).withMem (fun w => { w with chans := [(3, { replay := [(1, [{ line := 9, req := 3 }, { line := 10, req := 4, replays := 2 }])] })] })
def w516 : State := (put [(F.DDR_STATUS_STATE, 3, 2), (F.DDR_CTRL_EN, 3, 1)]).withMem (fun w => { w with chans := [(3, { replay := [(1, [{ line := 9, req := 3, replays := 3 }, { line := 10, req := 4, replays := 3 }])] })] })
def w517 : State := (put [(F.DDR_STATUS_STATE, 3, 2), (F.DDR_CTRL_EN, 3, 1)]).withMem (fun w => { w with chans := [(3, { replay := [(1, [{ line := 9, req := 3 }, { line := 10, req := 4, replays := 3 }])] })] })
def w518 : State := (put [(F.DDR_LOG_STATUS_COUNT, 0, 64), (F.DDR_LOG_STATUS_FULL, 0, 1)]).withMem (fun w => { w with log := List.replicate 64 [] })
def w519 : State := (put [(F.DDR_LOG_STATUS_COUNT, 0, 64)]).withMem (fun w => { w with log := List.replicate 64 [] })
def w520 : State := put [(F.DDR_CONFIG_LOCK, 3, 1)]
def w521 : State := (put [(F.DDR_STATUS_STATE, 3, 2), (F.DDR_CTRL_EN, 3, 1), (F.GLB_BOOT_STATUS_STAGE, 0, 4)]).withMem (fun w => { w with chans := [(3, {})] })
def w522 : State := (put [(F.DDR_STATUS_STATE, 3, 2), (F.DDR_CTRL_EN, 3, 1)]).withMem (fun w => { w with chans := [(3, { retrainDue := true })] })
def w523 : State := ((put [(F.DDR_STATUS_STATE, 3, 2), (F.DDR_CTRL_EN, 3, 1)]).withMem (fun w => { w with chans := [(3, { retrainDue := true })] })).withLamp (fun w => { w with ports := [(47, { en := true })], grids := [(0, { inGap := true })] })
def w524 : State := ((put [(F.DDR_STATUS_STATE, 3, 2), (F.DDR_CTRL_EN, 3, 1)]).withMem (fun w => { w with chans := [(3, { retrainDue := true })] })).withLamp (fun w => { w with ports := [(47, { en := true })] })
def w525 : State := (put [(F.DDR_STATUS_STATE, 3, 2), (F.DDR_CTRL_EN, 3, 1), (F.DDR_STATUS_STATE, 3, 3), (F.DDR_TRAIN_EYE_MIN, 3, 8)]).withMem (fun w => { w with chans := [(3, { delays := (List.range 10).map (fun k => (k, 128 * 120 + 24)) })] })
def w526 : State := (put [(F.DDR_STATUS_STATE, 3, 2), (F.DDR_CTRL_EN, 3, 1), (F.DDR_STATUS_STATE, 3, 4)]).withMem (fun w => { w with chans := [(3, {})] })
def w527 : State := (put [(F.DDR_STATUS_STATE, 3, 2), (F.DDR_CTRL_EN, 3, 1), (F.DDR_STATUS_STATE, 3, 1), (F.DDR_TRAIN_EYE_MIN, 3, 8)]).withMem (fun w => { w with chans := [(3, {})] })
def w528 : State := (put [(F.DDR_STATUS_STATE, 3, 2), (F.DDR_CTRL_EN, 3, 1), (F.DDR_STATUS_STATE, 3, 1), (F.FLT_SRC_CFG_CLASS, 21, 2)]).withMem (fun w => { w with chans := [(3, {})] })
def w529 : State := (put [(F.DDR_STATUS_STATE, 3, 2), (F.DDR_CTRL_EN, 3, 1), (F.DDR_CTRL_EN, 3, 0)]).withMem (fun w => { w with chans := [(3, {})] })
def w530 : State := (rst (fun s => { s with dram := [(5, 1), (192, 9), (193, 1)] })).setF F.DDR_FILL_BUSY 3 1
def w531 : State := (((rst (fun s => { s with dram := [(5, 1), (192, 9)] })).setF F.DDR_FILL_BUSY 3 1).setF F.GLB_BOOT_STATUS_STAGE 0 3).withMem (fun w => { w with poison := [3, 4] })

/-- States and operands that meet the hypotheses of the clauses of StepRunsFront. -/
theorem test_meets_StepRunsFront :
    (w1.pending = (.wake : Instr) :: ([.resetN] : List Instr)) ∧
    (w2.pending = []) := by
  refine ⟨?_, ?_⟩ <;> decide +kernel

/-- States and operands that meet the hypotheses of the clauses of WellFormedRuns. -/
theorem test_meets_WellFormedRuns :
    (((Instr.getInfo 3) : Instr).wf = true) := by decide +kernel

/-- States and operands that meet the hypotheses of the clauses of CommandsNeedSubmission. -/
theorem test_meets_CommandsNeedSubmission :
    (mailboxOp ((Instr.getInfo 15) : Instr) = some (15, 1)) ∧
    (15 < 16) ∧
    (w2.mbxDue 15 1 = false) := by
  refine ⟨?_, ?_, ?_⟩ <;> decide +kernel

/-- States and operands that meet the hypotheses of the clauses of FatalServesFour. -/
theorem test_meets_FatalServesFour :
    (mailboxOp ((Instr.play 15) : Instr) = some (15, 0x13)) ∧
    (w3.mbxDue 15 0x13 = true) ∧
    (w3.fatal = true) ∧
    (0x13 ∉ [0x0001, 0x0002, 0x0080, 0x0090]) ∧
    (0x90 ∈ [0x0001, 0x0002, 0x0080, 0x0090]) ∧
    (w4.mbxDue 0 0x90 = true) := by
  refine ⟨?_, ?_, ?_, ?_, ?_, ?_⟩ <;> decide +kernel

/-- States and operands that meet the hypotheses of the clauses of CommandsNeedSession. -/
theorem test_meets_CommandsNeedSession :
    (mailboxOp ((Instr.hewerDrain 12) : Instr) = some (12, 0x410)) ∧
    (w5.mbxDue 12 0x410 = true) ∧
    (expertOnly 0x410 = true) ∧
    (w5.mbxExpert 12 = false) ∧
    (w6.mbxDue 7 0x0091 = true) ∧
    (7 ≤ 7) ∧
    (w6.openLc = false) ∧
    (0x490 ∈ [0x0400, 0x0401, 0x0410, 0x0411, 0x0412, 0x0420, 0x0421, 0x0422, 0x0423, 0x0430, 0x0431, 0x0440, 0x0441, 0x0450, 0x0460, 0x0470, 0x0480, 0x0490]) ∧
    (7 < 8) ∧
    (w7.mbxDue 7 0x490 = true) ∧
    (w7.fatal = false) ∧
    (w7.f F.GLB_EXPERT_UNLOCKED_F0 0 = 1) := by
  refine ⟨?_, ?_, ?_, ?_, ?_, ?_, ?_, ?_, ?_, ?_, ?_, ?_⟩ <;> decide +kernel

/-- States and operands that meet the hypotheses of the clauses of InfoAndJobs. -/
theorem test_meets_InfoAndJobs :
    (w8.accepts 15 0x0001 = true) ∧
    (w8.mbxLen 15 = 0) ∧
    (w9.accepts 0 0x0002 = true) ∧
    (w9.mbxLen 0 = 4) ∧
    (w9.jobKept? (leAt (w9.mbxArgs 0) 0 4) = some (({ num := 7, mbx := 15 } : Job) : Job)) ∧
    ((({ num := 7, mbx := 15 } : Job) : Job).status < 65536) ∧
    (w10.accepts 0 0x0002 = true) ∧
    (w10.mbxLen 0 = 4) ∧
    (w10.jobKept? (leAt (w10.mbxArgs 0) 0 4) = none) ∧
    (w11.job? 7 = some (({ num := 7, mbx := 15 } : Job) : Job)) ∧
    ((({ num := 7, mbx := 15 } : Job) : Job).state = .running) ∧
    ((({ num := 7, mbx := 15 } : Job) : Job).work = .none) ∧
    (w11.pwr.cpHalted = false) := by
  refine ⟨?_, ?_, ?_, ?_, ?_, ?_, ?_, ?_, ?_, ?_, ?_, ?_, ?_⟩ <;> decide +kernel

/-- States and operands that meet the hypotheses of the clauses of ExpertSessions. -/
theorem test_meets_ExpertSessions :
    (w12.accepts 15 0x00A0 = true) ∧
    (w12.mbxLen 15 = 0) ∧
    (w13.accepts 11 0x00A1 = true) ∧
    (w13.mbxExpert 11 = false) ∧
    (w13.unlockSigned 11 = false) ∧
    (w14.accepts 7 0x00A1 = true) ∧
    (w14.mbxExpert 7 = false) ∧
    (w14.unlockSigned 7 = true) ∧
    (w14.mbxLen 7 = 114) ∧
    (w14.challengeOf 7 ≠ []) ∧
    (w15.accepts 12 0x00A1 = true) ∧
    (w15.mbxExpert 12 = true) ∧
    ((w15.unlockSigned 12 = true → w15.mbxLen 12 = 114)) ∧
    (w16.accepts 7 0x00A2 = true) ∧
    (w16.mbxLen 7 = 0) ∧
    (w16.mbxExpert 7 = true) ∧
    (w16.f (sessionOf 7).2 0 = 7) := by
  refine ⟨?_, ?_, ?_, ?_, ?_, ?_, ?_, ?_, ?_, ?_, ?_, ?_, ?_, ?_, ?_, ?_, ?_⟩ <;> decide +kernel

/-- States and operands that meet the hypotheses of the clauses of RegisterCommands. -/
theorem test_meets_RegisterCommands :
    (w17.accepts 0 0x0400 = true) ∧
    (w17.mbxLen 0 = 5) ∧
    (0x3FFFFFC = leAt (w17.mbxArgs 0) 0 4) ∧
    (1 = byteAt (w17.mbxArgs 0) 4) ∧
    (1 ≤ 1) ∧
    (1 ≤ 62) ∧
    (0x3FFFFFC % 4 = 0) ∧
    (0x3FFFFFC + 4 * 1 ≤ 0x4000000) ∧
    (w18.accepts 0 0x0400 = true) ∧
    (w18.mbxLen 0 = 5) ∧
    (leAt (w18.mbxArgs 0) 0 4 = 0x20) ∧
    (byteAt (w18.mbxArgs 0) 4 = 1) ∧
    (w19.accepts 0 0x0401 = true) ∧
    (w19.mbxLen 0 = 8) ∧
    (leAt (w19.mbxArgs 0) 0 4 = 0x20) := by
  refine ⟨?_, ?_, ?_, ?_, ?_, ?_, ?_, ?_, ?_, ?_, ?_, ?_, ?_, ?_, ?_⟩ <;> decide +kernel

/-- States and operands that meet the hypotheses of the clauses of StageAndVerify. -/
theorem test_meets_StageAndVerify :
    (w20.accepts 0 0x0070 = true) ∧
    (6 ≤ w20.mbxLen 0) ∧
    (w20.mbxLen 0 ≤ 245) ∧
    (byteAt (w20.mbxArgs 0) 4 = 0) ∧
    (leAt (w20.mbxArgs 0) 0 4 + ((w20.mbxArgs 0).drop 5).length ≤ 0x600000) ∧
    (w21.accepts 0 0x0070 = true) ∧
    (6 ≤ w21.mbxLen 0) ∧
    (w21.mbxLen 0 ≤ 245) ∧
    (byteAt (w21.mbxArgs 0) 4 = 1) ∧
    (leAt (w21.mbxArgs 0) 0 4 = 0) ∧
    (w22.accepts 0 0x0071 = true) ∧
    (w22.mbxLen 0 = 0) ∧
    (w23.job? 7 = some (({ num := 7, mbx := 15, work := .verify } : Job) : Job)) ∧
    ((({ num := 7, mbx := 15, work := .verify } : Job) : Job).state = .running) ∧
    ((({ num := 7, mbx := 15, work := .verify } : Job) : Job).work = .verify) ∧
    (w23.pwr.cpHalted = false) := by
  refine ⟨?_, ?_, ?_, ?_, ?_, ?_, ?_, ?_, ?_, ?_, ?_, ?_, ?_, ?_, ?_, ?_⟩ <;> decide +kernel

/-- States and operands that meet the hypotheses of the clauses of ActivateAndConfirm. -/
theorem test_meets_ActivateAndConfirm :
    (w24.accepts 0 0x0072 = true) ∧
    (w24.mbxLen 0 = 0 ∨ w24.mbxLen 0 = 2 ∨ w24.mbxLen 0 = 3) ∧
    ((w24.mbxLen 0 ≠ 0 → leAt (w24.mbxArgs 0) 0 2 ≠ 0)) ∧
    (w24.fw.verified = some (({ slot := 1 } : ImageInfo) : ImageInfo)) ∧
    (w24.faultBusy = false) ∧
    (w25.accepts 0 0x0073 = true) ∧
    (w25.mbxLen 0 ≤ 1) ∧
    (byteAt (w25.mbxArgs 0) 0 % 2 = 0) ∧
    (w25.fw.confirm ≠ none) ∧
    (w26.accepts 0 0x0073 = true) ∧
    (w26.mbxLen 0 = 1) ∧
    (byteAt (w26.mbxArgs 0) 0 % 2 = 1) ∧
    (w26.fw.confirm ≠ none) ∧
    (w27.fw.confirm = some 600) ∧
    (w27.fw.previous = some 0) ∧
    (w27.stage = 4) := by
  refine ⟨?_, ?_, ?_, ?_, ?_, ?_, ?_, ?_, ?_, ?_, ?_, ?_, ?_, ?_, ?_, ?_⟩ <;> decide +kernel

/-- States and operands that meet the hypotheses of the clauses of RomRecovery. -/
theorem test_meets_RomRecovery :
    (w28.romDue 0 0x0800 = true) ∧
    (w29.recovers 0 0x0801 = true) ∧
    (w29.mbxLen 0 = 5) ∧
    (1 ≤ byteAt (w29.mbxArgs 0) 4) ∧
    (byteAt (w29.mbxArgs 0) 4 ≤ 240) ∧
    (w30.recovers 0 0x0802 = true) ∧
    (w30.mbxLen 0 = 4) ∧
    (leAt (w30.mbxArgs 0) 0 4 % 65536 = 0) ∧
    (w31.recovers 0 0x0803 = true) ∧
    (6 ≤ w31.mbxLen 0) ∧
    (w31.mbxLen 0 ≤ 245) ∧
    (w31.mbxLen 0 = 5 + byteAt (w31.mbxArgs 0) 4) ∧
    (w32.recovers 0 0x0804 = true) ∧
    (w32.fatal = false) := by
  refine ⟨?_, ?_, ?_, ?_, ?_, ?_, ?_, ?_, ?_, ?_, ?_, ?_, ?_, ?_⟩ <;> decide +kernel

/-- States and operands that meet the hypotheses of the clauses of ResetKey. -/
theorem test_meets_ResetKey :
    (Origin.present (.cpN : Origin) w33 = true) ∧
    ((0x7A100001 : Word).toNat / 2 ^ 16 ≠ 0x7A11) := by
  refine ⟨?_, ?_⟩ <;> decide +kernel

/-- States and operands that meet the hypotheses of the clauses of ChipResets. -/
theorem test_meets_ChipResets :
    (w33.fatal = false) ∧
    (w34.fatal = true) ∧
    (Origin.present (.f0 : Origin) w2 = true) ∧
    ((0x7A110001 : Word).toNat / 2 ^ 16 = 0x7A11) ∧
    ((0x7A110001 : Word).toNat % 2 = 1) ∧
    (w2.fatal = false) ∧
    (Origin.present (.cpN : Origin) w34 = true) ∧
    (w34.fatal = true) := by
  refine ⟨?_, ?_, ?_, ?_, ?_, ?_, ?_, ?_⟩ <;> decide +kernel

/-- States and operands that meet the hypotheses of the clauses of BootEvents. -/
theorem test_meets_BootEvents :
    (w2.fw.clearing = true) ∧
    (w2.pwr.standby = false) ∧
    (w36.fw.clearing = false) ∧
    (w36.stage ≤ 1) ∧
    (w36.pwr.cpHalted = false) ∧
    (w36.lc ≠ 4) ∧
    (w36.directory = none) ∧
    (w37.stage = 3) ∧
    (w37.pwr.cpHalted = false) ∧
    ((∀ c, c < w37.channels → w37.f F.DDR_STATUS_STATE c ≠ 5)) ∧
    (w38.stage = 4) ∧
    (w38.pwr.cpHalted = false) ∧
    (w39.f F.GLB_EXPERT_UNLOCKED_R 0 = 1) := by
  refine ⟨?_, ?_, ?_, ?_, ?_, ?_, ?_, ?_, ?_, ?_, ?_, ?_, ?_⟩ <;> decide +kernel

/-- States and operands that meet the hypotheses of the clauses of MailboxRegisters. -/
theorem test_meets_MailboxRegisters :
    (7 < 16) ∧
    (w40.writeOk (.f0 : Origin) .MBX_DOORBELL 7 = true) ∧
    ((1 : Word).toNat.testBit 0 = true) ∧
    (w40.f F.MBX_STATUS_BUSY 7 = 0) ∧
    (w40.f F.MBX_STATUS_RESULT_PENDING 7 = 0) ∧
    (w40.stage = 4) ∧
    (w40.mbxOpcode 7 ∈ knownOpcodes) ∧
    (7 < 16) ∧
    (w37.writeOk (.f0 : Origin) .MBX_DOORBELL 7 = true) ∧
    ((1 : Word).toNat.testBit 0 = true) ∧
    (w37.f F.MBX_STATUS_BUSY 7 = 0) ∧
    (w37.f F.MBX_STATUS_RESULT_PENDING 7 = 0) ∧
    (w37.stage ≠ 4) ∧
    (w37.stage ≠ 2) ∧
    (7 < 16) ∧
    (w41.writeOk (.f0 : Origin) .MBX_DOORBELL 7 = true) ∧
    ((1 : Word).toNat.testBit 0 = true) ∧
    ((w41.f F.MBX_STATUS_BUSY 7 = 1 ∨ w41.f F.MBX_STATUS_RESULT_PENDING 7 = 1)) := by
  refine ⟨?_, ?_, ?_, ?_, ?_, ?_, ?_, ?_, ?_, ?_, ?_, ?_, ?_, ?_, ?_, ?_, ?_, ?_⟩ <;> decide +kernel

/-- States and operands that meet the hypotheses of the clauses of MailboxRegisters. -/
theorem test_meets_MailboxRegisters_2 :
    (7 < 16) ∧
    (w42.writeOk (.f0 : Origin) .MBX_DOORBELL 7 = true) ∧
    ((1 : Word).toNat.testBit 0 = true) ∧
    (w42.f F.MBX_STATUS_BUSY 7 = 0) ∧
    (w42.f F.MBX_STATUS_RESULT_PENDING 7 = 0) ∧
    (w42.stage = 4) ∧
    (w42.fatal = false) ∧
    (w42.mbxOpcode 7 ∉ knownOpcodes) ∧
    (15 < 16) ∧
    (w43.writeOk (.cpN : Origin) .MBX_RESULT_ACK 15 = true) ∧
    ((1 : Word).toNat.testBit 0 = true) ∧
    (w43.mbxValid 15 = true) ∧
    (0 < 16) ∧
    (w44.readOk (.f0 : Origin) .MBX_RESULT (64 * 0) = true) ∧
    (0 < 16) ∧
    (w45.readOk (.f0 : Origin) .MBX_RESULT (64 * 0) = true) := by
  refine ⟨?_, ?_, ?_, ?_, ?_, ?_, ?_, ?_, ?_, ?_, ?_, ?_, ?_, ?_, ?_, ?_⟩ <;> decide +kernel

/-- States and operands that meet the hypotheses of the clauses of Semaphores. -/
theorem test_meets_Semaphores :
    (63 < 64) ∧
    (w2.readOk (.f0 : Origin) .SEM_LOCK 63 = true) ∧
    (w2.f F.SEM_LOCK_OWNER 63 = 0) ∧
    (63 < 64) ∧
    (w46.readOk (.f0 : Origin) .SEM_LOCK 63 = true) ∧
    (w46.f F.SEM_LOCK_OWNER 63 = Origin.owner (.f0 : Origin)) ∧
    (63 < 64) ∧
    (w47.readOk (.f0 : Origin) .SEM_LOCK 63 = true) ∧
    (w47.f F.SEM_LOCK_OWNER 63 ≠ 0) ∧
    (w47.f F.SEM_LOCK_OWNER 63 ≠ Origin.owner (.f0 : Origin)) ∧
    (63 ∉ w47.fw.lockRefused) ∧
    (63 < 64) ∧
    (w46.writeOk (.f0 : Origin) .SEM_RELEASE 63 = true) ∧
    (w46.f F.SEM_LOCK_OWNER 63 = Origin.owner (.f0 : Origin)) ∧
    ((1 : Word).toNat.testBit 0 = true) ∧
    ((1 : Word).toNat.testBit 1 = false) ∧
    (63 ∉ w46.fw.lockRefused) ∧
    (31 < 32) ∧
    (w48.writeOk (.f0 : Origin) .SEM_RELEASE 31 = true) ∧
    (w48.f F.SEM_LOCK_OWNER 31 = Origin.owner (.f0 : Origin)) ∧
    ((1 : Word).toNat.testBit 0 = true) ∧
    ((1 : Word).toNat.testBit 1 = false) ∧
    (31 ∈ w48.fw.lockRefused) := by
  refine ⟨?_, ?_, ?_, ?_, ?_, ?_, ?_, ?_, ?_, ?_, ?_, ?_, ?_, ?_, ?_, ?_, ?_, ?_, ?_, ?_, ?_, ?_, ?_⟩ <;> decide +kernel

/-- States and operands that meet the hypotheses of the clauses of Semaphores. -/
theorem test_meets_Semaphores_2 :
    (63 < 64) ∧
    (w47.writeOk (.f0 : Origin) .SEM_RELEASE 63 = true) ∧
    (w47.f F.SEM_LOCK_OWNER 63 ≠ Origin.owner (.f0 : Origin)) ∧
    ((1 : Word).toNat.testBit 0 = true) ∧
    (63 < 64) ∧
    (w49.writeOk (.f0 : Origin) .SEM_RELEASE 63 = true) ∧
    (w49.f F.SEM_LOCK_OWNER 63 = Origin.owner (.f0 : Origin)) ∧
    ((2 : Word).toNat.testBit 1 = true) ∧
    ((2 : Word).toNat.testBit 0 = false) ∧
    (63 < 64) ∧
    (w50.f F.SEM_LEASE_VAL 63 ≠ 0) ∧
    (w50.f F.SEM_LOCK_OWNER 63 ≠ 0) ∧
    (63 ∉ w50.fw.lockRefused) := by
  refine ⟨?_, ?_, ?_, ?_, ?_, ?_, ?_, ?_, ?_, ?_, ?_, ?_, ?_⟩ <;> decide +kernel

/-- States and operands that meet the hypotheses of the clauses of RegisterAccesses. -/
theorem test_meets_RegisterAccesses :
    (Origin.present (.cpN : Origin) w2 = true) ∧
    (regAt ((.LMP_SYNC_GAP : RegId).addr 0) = some ((.LMP_SYNC_GAP : RegId), 0)) ∧
    (w2.writeOk (.cpS : Origin) (.LMP_SYNC_GAP : RegId) 0 = true) ∧
    (w2.writeReg (.cpS : Origin) (.LMP_SYNC_GAP : RegId) 0 (0xFFFFFFFF : Word).toNat = w2.writePlain (.LMP_SYNC_GAP : RegId) 0 (0xFFFFFFFF : Word).toNat) ∧
    (0x20 % 8 = 0) ∧
    (regAt ((.GLB_SCRATCH : RegId).addr 0) = some ((.GLB_SCRATCH : RegId), 0)) ∧
    (w2.writeOk (.cpN : Origin) (.GLB_SCRATCH : RegId) 0 = true) ∧
    (14 < 15) ∧
    ((.GLB_SCRATCH : RegId) ≠ .MBX_COMMAND) ∧
    (1023 < 1024) ∧
    (w51.writeOk (.cpN : Origin) .MBX_COMMAND 1023 = true) ∧
    (5 < 15) ∧
    (w51.f F.MBX_STATUS_BUSY (1023 / 64) = 0) ∧
    (Origin.host (.f0 : Origin) = true) ∧
    (Origin.present (.f0 : Origin) w2 = true) ∧
    (Origin.present (.cpN : Origin) w2 = true) ∧
    (regAt (RegId.SEC_TAMPER_CFG.addr 0) = some ((.SEC_TAMPER_CFG : RegId), 0)) ∧
    (w2.regSecure (.SEC_TAMPER_CFG : RegId) 0 = true) ∧
    (Origin.secure (.cpN : Origin) w2 = false) ∧
    (Origin.present (.f0 : Origin) w2 = true) ∧
    (regAt (RegId.LMP_SYNC_GAP.addr 0) = some ((.LMP_SYNC_GAP : RegId), 0)) ∧
    (w2.regSecure (.LMP_SYNC_GAP : RegId) 0 = false) ∧
    (w2.mayWrite (.f0 : Origin) (RegId.LMP_SYNC_GAP.addr 0) = false) := by
  refine ⟨?_, ?_, ?_, ?_, ?_, ?_, ?_, ?_, ?_, ?_, ?_, ?_, ?_, ?_, ?_, ?_, ?_, ?_, ?_, ?_, ?_, ?_, ?_⟩ <;> decide +kernel

/-- States and operands that meet the hypotheses of the clauses of RegisterAccesses. -/
theorem test_meets_RegisterAccesses_2 :
    (regAt ((.CLK_TB_LO : RegId).addr 0) = some ((.CLK_TB_LO : RegId), 0)) ∧
    (upperOf (.CLK_TB_LO : RegId) = some (.CLK_TB_HI : RegId)) ∧
    (w52.readOk (.f0 : Origin) (.CLK_TB_LO : RegId) 0 = true) ∧
    (regAt ((.TMR_CMP_LO : RegId).addr 63) = some ((.TMR_CMP_LO : RegId), 63)) ∧
    (upperOf (.TMR_CMP_LO : RegId) = some (.TMR_CMP_HI : RegId)) ∧
    (w53.readOk (.f0 : Origin) (.TMR_CMP_LO : RegId) 63 = true) ∧
    (regAt ((.CLK_TB_LO : RegId).addr 0) = some ((.CLK_TB_LO : RegId), 0)) ∧
    (upperOf (.CLK_TB_LO : RegId) = some (.CLK_TB_HI : RegId)) ∧
    ((.CLK_TB_LO : RegId).addr 0 % 8 = 0) ∧
    ((.CLK_TB_HI : RegId).addr 0 = (.CLK_TB_LO : RegId).addr 0 + 4) ∧
    (regAt ((.CLK_TB_HI : RegId).addr 0) = some ((.CLK_TB_HI : RegId), 0)) ∧
    (w52.readOk (.f0 : Origin) (.CLK_TB_LO : RegId) 0 = true) ∧
    (w52.readOk (.f0 : Origin) (.CLK_TB_HI : RegId) 0 = true) ∧
    (((.DDR_TIMING_ARM, 4, F.DDR_TIMING_ARM_SHADOW_ARMED, 0) : RegId × Nat × Fld × Nat) ∈ shadowArms) ∧
    (3 < ((.DDR_TIMING_ARM, 4, F.DDR_TIMING_ARM_SHADOW_ARMED, 0) : RegId × Nat × Fld × Nat).2.1) ∧
    (w54.writeOk (.f0 : Origin) ((.DDR_TIMING_ARM, 4, F.DDR_TIMING_ARM_SHADOW_ARMED, 0) : RegId × Nat × Fld × Nat).1 3 = true) ∧
    ((1 : Word).toNat.testBit ((.DDR_TIMING_ARM, 4, F.DDR_TIMING_ARM_SHADOW_ARMED, 0) : RegId × Nat × Fld × Nat).2.2.2 = true) ∧
    ((((.DDR_TIMING_ARM, 4, F.DDR_TIMING_ARM_SHADOW_ARMED, 0) : RegId × Nat × Fld × Nat).1 = .RIV_CH_CTRL → (1 : Word).toNat.testBit 2 = false)) ∧
    (((.DDR_TIMING_ARM, 4, F.DDR_TIMING_ARM_SHADOW_ARMED, 0) : RegId × Nat × Fld × Nat) ∈ shadowArms) ∧
    (3 < ((.DDR_TIMING_ARM, 4, F.DDR_TIMING_ARM_SHADOW_ARMED, 0) : RegId × Nat × Fld × Nat).2.1) ∧
    (w55.writeOk (.f0 : Origin) ((.DDR_TIMING_ARM, 4, F.DDR_TIMING_ARM_SHADOW_ARMED, 0) : RegId × Nat × Fld × Nat).1 3 = true) ∧
    ((0 : Word).toNat.testBit ((.DDR_TIMING_ARM, 4, F.DDR_TIMING_ARM_SHADOW_ARMED, 0) : RegId × Nat × Fld × Nat).2.2.2 = false) ∧
    ((((.DDR_TIMING_ARM, 4, F.DDR_TIMING_ARM_SHADOW_ARMED, 0) : RegId × Nat × Fld × Nat).1 = .RIV_CH_CTRL → (0 : Word).toNat.testBit 2 = false)) := by
  refine ⟨?_, ?_, ?_, ?_, ?_, ?_, ?_, ?_, ?_, ?_, ?_, ?_, ?_, ?_, ?_, ?_, ?_, ?_, ?_, ?_, ?_, ?_, ?_⟩ <;> decide +kernel

/-- States and operands that meet the hypotheses of the clauses of RegisterAccesses. -/
theorem test_meets_RegisterAccesses_3 :
    (47 < 64) ∧
    (w2.writeOk (.cpS : Origin) .RIV_CH_CTRL 47 = true) ∧
    ((5 : Word).toNat.testBit 2 = true) ∧
    (w2.f F.RIV_CH_STATUS_STATE 47 ≠ 4) ∧
    (63 < 64) ∧
    (w56.writeOk (.cpS : Origin) .RIV_CH_CTRL 63 = true) ∧
    ((4 : Word).toNat.testBit 2 = true) ∧
    (w56.f F.RIV_CH_STATUS_STATE 63 ≠ 4) := by
  refine ⟨?_, ?_, ?_, ?_, ?_, ?_, ?_, ?_⟩ <;> decide +kernel

/-- States and operands that meet the hypotheses of the clauses of Bar2. -/
theorem test_meets_Bar2 :
    (w2.writeOk (.f0 : Origin) .PCIE_BAR2_BASE_F0 0 = true) ∧
    (w57.writeOk (.f1 : Origin) .PCIE_BAR2_BASE_F1 0 = true) ∧
    (0 < 2) ∧
    (inBar2 64 = true) ∧
    ((0 = 1 → w58.lc = 2)) ∧
    (w58.bar2Addr 0 64 + 3 ≤ w58.dramTop) ∧
    (w58.linesOpen (w58.bar2Addr 0 64) 3 = true) ∧
    (0 < 2) ∧
    (inBar2 62 = true) ∧
    ((0 = 1 → w59.lc = 2)) ∧
    (w59.bar2Addr 0 62 + ([1, 2, 3] : List Byte).length ≤ w59.dramTop) ∧
    (w59.linesOpen (w59.bar2Addr 0 62) ([1, 2, 3] : List Byte).length = true) ∧
    (w59.linesAllowed 8 (w59.bar2Addr 0 62) ([1, 2, 3] : List Byte).length true (0 = 1 || w59.openLc) = true) ∧
    (0 < 2) ∧
    (inBar2 62 = true) ∧
    ((0 = 1 → w60.lc = 2)) ∧
    (w60.bar2Addr 0 62 + ([1, 2, 3] : List Byte).length ≤ w60.dramTop) ∧
    (w60.linesOpen (w60.bar2Addr 0 62) ([1, 2, 3] : List Byte).length = true) ∧
    (w60.byteAllowed 8 63 true (0 = 1 || w60.openLc) = false) ∧
    (0 < 2) ∧
    (inBar2 (2 ^ 36 - 1) = true) ∧
    ((0 = 1 → w61.lc = 2)) ∧
    (w61.dramTop < w61.bar2Addr 0 (2 ^ 36 - 1) + ([1, 2, 3] : List Byte).length) := by
  refine ⟨?_, ?_, ?_, ?_, ?_, ?_, ?_, ?_, ?_, ?_, ?_, ?_, ?_, ?_, ?_, ?_, ?_, ?_, ?_, ?_, ?_, ?_, ?_⟩ <;> decide +kernel

/-- States and operands that meet the hypotheses of the clauses of Bar2. -/
theorem test_meets_Bar2_2 :
    (0 < 2) ∧
    (inBar2 (2 ^ 36 - 1) = true) ∧
    ((0 = 1 → w59.lc = 2)) ∧
    (w59.dramTop < w59.bar2Addr 0 (2 ^ 36 - 1) + 3) ∧
    (0 < 2) ∧
    (inBar2 0 = true) ∧
    (inBar2 0 = true) ∧
    (w2.lc ≠ 2) := by
  refine ⟨?_, ?_, ?_, ?_, ?_, ?_, ?_, ?_⟩ <;> decide +kernel

/-- States and operands that meet the hypotheses of the clauses of PcieEvents. -/
theorem test_meets_PcieEvents :
    (1 < 2) ∧
    (2 < 4) ∧
    (63 < 64) ∧
    (15 < 16) ∧
    (15 < 16) ∧
    (3 < 4) ∧
    (0 < 64) ∧
    (1 < 16) ∧
    (4 < 16) ∧
    (0 < 2) ∧
    (0 < 32) ∧
    (w65.intc.due = [32 * 0 + 0]) ∧
    (w65.msiSet 0 0 = true) ∧
    (Tab.get 0 w65.intc.msiEnable 0 ≠ 0) ∧
    (w65.f F.PCIE_LINK_STATUS_PM_STATE 0 < 2) ∧
    (1 < 2) ∧
    (31 < 32) ∧
    (w66.intc.due = [32 * 1 + 31]) ∧
    (w66.msiSet 1 31 = false) ∧
    (w66.linkAsleep = false) ∧
    (1 < 2) ∧
    (31 < 32) := by
  refine ⟨?_, ?_, ?_, ?_, ?_, ?_, ?_, ?_, ?_, ?_, ?_, ?_, ?_, ?_, ?_, ?_, ?_, ?_, ?_, ?_, ?_, ?_⟩ <;> decide +kernel

/-- States and operands that meet the hypotheses of the clauses of InterruptClaims. -/
theorem test_meets_InterruptClaims :
    (3 < 4) ∧
    (w69.readOk (.cpN : Origin) .INTC_CLAIM 3 = true) ∧
    ((w69.claimStack 3).length < 8) ∧
    (w69.lowest 3 (fun k => decide (3 ≠ 2) || !w69.sourceSecure k) = some 960) ∧
    (3 < 4) ∧
    (w70.readOk (.cpN : Origin) .INTC_CLAIM 3 = true) ∧
    ((w70.claimStack 3).length < 8) ∧
    (w70.lowest 3 (fun k => decide (3 ≠ 2) || !w70.sourceSecure k) = some 960) ∧
    (3 < 4) ∧
    (w2.readOk (.cpN : Origin) .INTC_CLAIM 3 = true) ∧
    ((w2.claimStack 3).length < 8) ∧
    (w2.lowest 3 (fun k => decide (3 ≠ 2) || !w2.sourceSecure k) = none) ∧
    (3 < 4) ∧
    (w71.readOk (.cpN : Origin) .INTC_CLAIM 3 = true) ∧
    (8 ≤ (w71.claimStack 3).length) ∧
    (w72.readOk (.cpS : Origin) .INTC_CLAIM_S 0 = true) ∧
    ((w72.claimStack 2).length < 8) ∧
    (w72.lowest 2 (fun k => w72.sourceSecure k) = some 27) ∧
    (w73.readOk (.cpS : Origin) .INTC_CLAIM_S 0 = true) ∧
    ((w73.claimStack 2).length < 8) ∧
    (w73.lowest 2 (fun k => w73.sourceSecure k) = none) ∧
    (w74.readOk (.cpS : Origin) .INTC_CLAIM_S 0 = true) ∧
    (8 ≤ (w74.claimStack 2).length) := by
  refine ⟨?_, ?_, ?_, ?_, ?_, ?_, ?_, ?_, ?_, ?_, ?_, ?_, ?_, ?_, ?_, ?_, ?_, ?_, ?_, ?_, ?_, ?_, ?_⟩ <;> decide +kernel

/-- States and operands that meet the hypotheses of the clauses of InterruptCompletions. -/
theorem test_meets_InterruptCompletions :
    (3 < 4) ∧
    (w75.writeOk (.cpN : Origin) .INTC_COMPLETE 3 = true) ∧
    ((1023 : Word).toNat % 1024 = 1023) ∧
    (1023 ≠ 0) ∧
    (w75.claimStack 3 = ([1] : List Nat) ++ [1023]) ∧
    (3 < 4) ∧
    (w75.writeOk (.cpN : Origin) .INTC_COMPLETE 3 = true) ∧
    ((1 : Word).toNat % 1024 ∈ w75.claimStack 3) ∧
    ((1 : Word).toNat % 1024 ≠ 0) ∧
    ((w75.claimStack 3).getLast? ≠ some ((1 : Word).toNat % 1024)) ∧
    (3 < 4) ∧
    (w75.writeOk (.cpN : Origin) .INTC_COMPLETE 3 = true) ∧
    (((2 : Word).toNat % 1024 = 0 ∨ (2 : Word).toNat % 1024 ∉ w75.claimStack 3)) ∧
    (w76.writeOk (.cpS : Origin) .INTC_COMPLETE_S 0 = true) ∧
    ((1023 : Word).toNat % 1024 = 1023) ∧
    (1023 ≠ 0) ∧
    (w76.claimStack 2 = ([1] : List Nat) ++ [1023]) ∧
    (w76.writeOk (.cpS : Origin) .INTC_COMPLETE_S 0 = true) ∧
    ((1 : Word).toNat % 1024 ∈ w76.claimStack 2) ∧
    ((1 : Word).toNat % 1024 ≠ 0) ∧
    ((w76.claimStack 2).getLast? ≠ some ((1 : Word).toNat % 1024)) ∧
    (w76.writeOk (.cpS : Origin) .INTC_COMPLETE_S 0 = true) ∧
    (((0xFFFFFC02 : Word).toNat % 1024 = 0 ∨ (0xFFFFFC02 : Word).toNat % 1024 ∉ w76.claimStack 2)) := by
  refine ⟨?_, ?_, ?_, ?_, ?_, ?_, ?_, ?_, ?_, ?_, ?_, ?_, ?_, ?_, ?_, ?_, ?_, ?_, ?_, ?_, ?_, ?_, ?_⟩ <;> decide +kernel

/-- States and operands that meet the hypotheses of the clauses of InterruptRoutes. -/
theorem test_meets_InterruptRoutes :
    (1 ≤ 847) ∧
    (847 < 1024) ∧
    (w2.writeOk (.cpS : Origin) .INTC_ROUTE 847 = true) ∧
    ((w2.sourceSecure 847 = true → (0xC0031F00 : Word).toNat / 2 ^ 16 % 4 ≠ 1 ∧ (0xC0031F00 : Word).toNat / 2 ^ 16 % 4 ≠ 3)) ∧
    (1 ≤ 1) ∧
    (1 < 1024) ∧
    (w2.writeOk (.cpN : Origin) .INTC_ROUTE 1 = true) ∧
    ((w2.sourceSecure 1 = true → (0 : Word).toNat / 2 ^ 16 % 4 ≠ 1 ∧ (0 : Word).toNat / 2 ^ 16 % 4 ≠ 3)) ∧
    (1023 < 1024) ∧
    (w77.claimed 1023 = false) ∧
    (Tab.get none w77.intc.routeNext 1023 = some (1, 3)) ∧
    (1 < 2) ∧
    (3 < 4) ∧
    (1 ≤ 24) ∧
    (24 < 1024) ∧
    (w2.writeOk (.cpS : Origin) .INTC_ROUTE 24 = true) ∧
    (w2.sourceSecure 24 = true) ∧
    (((0x10000 : Word).toNat / 2 ^ 16 % 4 = 1 ∨ (0x10000 : Word).toNat / 2 ^ 16 % 4 = 3)) ∧
    (1023 < 1024) ∧
    (w78.claimed 1023 = true) ∧
    (1023 < 1024) ∧
    (Tab.get none w2.intc.routeNext 1023 = none) := by
  refine ⟨?_, ?_, ?_, ?_, ?_, ?_, ?_, ?_, ?_, ?_, ?_, ?_, ?_, ?_, ?_, ?_, ?_, ?_, ?_, ?_, ?_, ?_⟩ <;> decide +kernel

/-- States and operands that meet the hypotheses of the clauses of InterruptRoutes. -/
theorem test_meets_InterruptRoutes_2 :
    (w79.accepts 0 0x0490 = true) ∧
    (2 = byteAt (w79.mbxArgs 0) 0) ∧
    (1 ≤ 2) ∧
    (2 ≤ 41) ∧
    (w79.mbxLen 0 = 2 + 6 * 2) ∧
    (byteAt (w79.mbxArgs 0) 1 = 0) ∧
    ((∀ i, i < 2 → w79.routeEntryOk (routeEntry (w79.mbxArgs 0) i) = true ∧ (8 ≤ 0 ∧ 0 ≤ 11 ∨ w79.sourceSecure (leAt (routeEntry (w79.mbxArgs 0) i) 0 2) = false))) ∧
    (w80.accepts 0 0x0490 = true) ∧
    (2 = byteAt (w80.mbxArgs 0) 0) ∧
    (1 ≤ 2) ∧
    (2 ≤ 41) ∧
    (w80.mbxLen 0 = 2 + 6 * 2) ∧
    (byteAt (w80.mbxArgs 0) 1 = 0) ∧
    ((∀ i, i < 2 → w80.routeEntryOk (routeEntry (w80.mbxArgs 0) i) = true ∧ (8 ≤ 0 ∧ 0 ≤ 11 ∨ w80.sourceSecure (leAt (routeEntry (w80.mbxArgs 0) i) 0 2) = false))) ∧
    (w81.writeOk (.cpN : Origin) .INTC_SW_SET_LO 0 = true) ∧
    (w82.writeOk (.cpS : Origin) .INTC_SW_SET_HI 0 = true) ∧
    (w83.writeOk (.cpN : Origin) .INTC_SW_CLR_LO 0 = true) ∧
    (w84.writeOk (.cpS : Origin) .INTC_SW_CLR_HI 0 = true) ∧
    (834 < 1024) ∧
    (w85.pwr.standby = true) ∧
    (wakeCapable 834 = true) ∧
    (w85.level 834 = true) ∧
    (834 ∉ w85.aon.steady) ∧
    (834 ∉ w85.aon.wakeLatch) := by
  refine ⟨?_, ?_, ?_, ?_, ?_, ?_, ?_, ?_, ?_, ?_, ?_, ?_, ?_, ?_, ?_, ?_, ?_, ?_, ?_, ?_, ?_, ?_, ?_, ?_⟩ <;> decide +kernel

/-- States and operands that meet the hypotheses of the clauses of InterruptRoutes. -/
theorem test_meets_InterruptRoutes_3 :
    (834 < 1024) ∧
    ((w2.pwr.standby = false ∨ wakeCapable 834 = false ∨ w2.level 834 = false ∨ 834 ∈ w2.aon.steady ∨ 834 ∈ w2.aon.wakeLatch)) ∧
    (834 < 1024) ∧
    ((w86.pwr.standby = false ∨ wakeCapable 834 = false ∨ w86.level 834 = false ∨ 834 ∈ w86.aon.steady ∨ 834 ∈ w86.aon.wakeLatch)) := by
  refine ⟨?_, ?_, ?_, ?_⟩ <;> decide +kernel

/-- States and operands that meet the hypotheses of the clauses of FaultCommands. -/
theorem test_meets_FaultCommands :
    (w87.accepts 0 0x0080 = true) ∧
    (w87.mbxLen 0 = 6) ∧
    (0 = w87.evtFirst (leAt (w87.mbxArgs 0) 0 4)) ∧
    (1 ≤ byteAt (w87.mbxArgs 0) 4) ∧
    (byteAt (w87.mbxArgs 0) 4 ≤ 7) ∧
    (0 = byteAt (w87.mbxArgs 0) 5) ∧
    (0 ≤ 1) ∧
    ((0 = 1 → w87.lockElsewhere 7 = false)) ∧
    (0 = min (byteAt (w87.mbxArgs 0) 4) ((w87.f F.EVT_HEAD_SEQ 0 + 2 ^ 32 - 0) % 2 ^ 32)) ∧
    ((∀ e ∈ w87.flt.log, e.2.length ≤ 32)) ∧
    (w88.accepts 0 0x0080 = true) ∧
    (w88.mbxLen 0 = 6) ∧
    (0 = w88.evtFirst (leAt (w88.mbxArgs 0) 0 4)) ∧
    (1 ≤ byteAt (w88.mbxArgs 0) 4) ∧
    (byteAt (w88.mbxArgs 0) 4 ≤ 7) ∧
    (1 = byteAt (w88.mbxArgs 0) 5) ∧
    (1 ≤ 1) ∧
    ((1 = 1 → w88.lockElsewhere 7 = false)) ∧
    (1 = min (byteAt (w88.mbxArgs 0) 4) ((w88.f F.EVT_HEAD_SEQ 0 + 2 ^ 32 - 0) % 2 ^ 32)) ∧
    ((∀ e ∈ w88.flt.log, e.2.length ≤ 32)) := by
  refine ⟨?_, ?_, ?_, ?_, ?_, ?_, ?_, ?_, ?_, ?_, ?_, ?_, ?_, ?_, ?_, ?_, ?_, ?_, ?_, ?_⟩ <;> decide +kernel

/-- States and operands that meet the hypotheses of the clauses of FaultCommands. -/
theorem test_meets_FaultCommands_2 :
    (w89.accepts 0 0x0081 = true) ∧
    (w89.mbxLen 0 = 2) ∧
    (34 = byteAt (w89.mbxArgs 0) 0) ∧
    (1 ≤ 34) ∧
    (34 ≤ 34) ∧
    (byteAt (w89.mbxArgs 0) 1 = 0) ∧
    (w90.accepts 0 0x0081 = true) ∧
    (w90.mbxLen 0 = 2) ∧
    (255 = byteAt (w90.mbxArgs 0) 0) ∧
    ((1 ≤ 255 ∧ 255 ≤ 34 ∨ 255 = 255)) ∧
    (1 = byteAt (w90.mbxArgs 0) 1) ∧
    (1 ≤ 1) ∧
    (1 ≤ 34) ∧
    (34 ≤ 34) ∧
    ((255 = 255 ∨ 255 = 34)) := by
  refine ⟨?_, ?_, ?_, ?_, ?_, ?_, ?_, ?_, ?_, ?_, ?_, ?_, ?_, ?_, ?_⟩ <;> decide +kernel

/-- States and operands that meet the hypotheses of the clauses of FaultCommands. -/
theorem test_meets_FaultCommands_3 :
    (w91.accepts 0 0x0460 = true) ∧
    (w91.mbxLen 0 = 7) ∧
    (34 = byteAt (w91.mbxArgs 0) 0) ∧
    (2 = byteAt (w91.mbxArgs 0) 1) ∧
    (3 = byteAt (w91.mbxArgs 0) 2) ∧
    (15 = byteAt (w91.mbxArgs 0) 3) ∧
    (1 = byteAt (w91.mbxArgs 0) 4) ∧
    (1000 = leAt (w91.mbxArgs 0) 5 2) ∧
    (1 ≤ 34) ∧
    (34 ≤ 34) ∧
    (2 ≤ 2) ∧
    (3 ≤ 3) ∧
    (15 ≤ 15) ∧
    (1 ≤ 1) ∧
    (1000 ≤ 1023) ∧
    ((3 = 2 → 1 ≤ 1000 ∧ 1000 ≤ 1000)) ∧
    ((fixedSource 34 = true → 2 = 2)) ∧
    (w92.accepts 0 0x0016 = true) ∧
    (w92.mbxLen 0 = 2) ∧
    (31 = byteAt (w92.mbxArgs 0) 0) ∧
    ((31 < 48 ∨ 31 = 255)) ∧
    (1 = byteAt (w92.mbxArgs 0) 1) ∧
    (1 ≤ 1) := by
  refine ⟨?_, ?_, ?_, ?_, ?_, ?_, ?_, ?_, ?_, ?_, ?_, ?_, ?_, ?_, ?_, ?_, ?_, ?_, ?_, ?_, ?_, ?_, ?_⟩ <;> decide +kernel

/-- States and operands that meet the hypotheses of the clauses of FaultCommands. -/
theorem test_meets_FaultCommands_4 :
    (w93.accepts 0 0x0016 = true) ∧
    (w93.mbxLen 0 = 2) ∧
    (255 = byteAt (w93.mbxArgs 0) 0) ∧
    ((255 < 48 ∨ 255 = 255)) ∧
    (0 = byteAt (w93.mbxArgs 0) 1) ∧
    (0 ≤ 1) := by
  refine ⟨?_, ?_, ?_, ?_, ?_, ?_⟩ <;> decide +kernel

/-- States and operands that meet the hypotheses of the clauses of FaultTimers. -/
theorem test_meets_FaultTimers :
    (1 ≤ 34) ∧
    (34 < 64) ∧
    (w2.writeOk (.cpN : Origin) .FLT_SRC_ACK 34 = true) ∧
    ((1 : Word).toNat.testBit 0 = true) ∧
    (1 ≤ 33) ∧
    (33 < 64) ∧
    (Tab.get none w94.flt.grace 33 = some (({ escSafe := true, escFatal := true, scope := true, insts := [47] } : Grace) : Grace)) ∧
    (w95.writeOk (.cpN : Origin) .FLT_SAFE_LO 0 = true) ∧
    (w95.fatal = false) ∧
    (31 < 32) ∧
    ((0x80000000 : Word).toNat.testBit 31 = true) ∧
    (w96.writeOk (.cpN : Origin) .FLT_SAFE_HI 0 = true) ∧
    (w96.fatal = false) ∧
    (32 ≤ 47) ∧
    (47 < 48) ∧
    ((0x8000 : Word).toNat.testBit (47 - 32) = true) ∧
    (w2.writeOk (.cpN : Origin) .FLT_WDOG 0 = true) ∧
    (w97.f F.FLT_WDOG_EN 0 = 1) ∧
    (w97.stage = 4) ∧
    ((w2.f F.FLT_WDOG_EN 0 ≠ 1 ∨ w2.stage ≠ 4)) := by
  refine ⟨?_, ?_, ?_, ?_, ?_, ?_, ?_, ?_, ?_, ?_, ?_, ?_, ?_, ?_, ?_, ?_, ?_, ?_, ?_, ?_⟩ <;> decide +kernel

/-- States and operands that meet the hypotheses of the clauses of FaultEvents. -/
theorem test_meets_FaultEvents :
    (15 < 16) ∧
    (7 < 8) ∧
    (w2.pwr.standby = false) ∧
    (16 * (w2.warnTemp : Int) ≤ (1900 : Int)) ∧
    (7 < 8) ∧
    (w2.pwr.standby = false) ∧
    ((-16 : Int) < 16 * (w2.warnTemp : Int)) ∧
    (7 < 8) ∧
    (w100.pwr.standby = true) ∧
    (7 < 8) ∧
    ((1919 : Int) < 1920) ∧
    (7 < 8) ∧
    (1920 ≤ (1920 : Int)) ∧
    (7 < 8) := by
  refine ⟨?_, ?_, ?_, ?_, ?_, ?_, ?_, ?_, ?_, ?_, ?_, ?_, ?_, ?_⟩ <;> decide +kernel

/-- States and operands that meet the hypotheses of the clauses of SheddingAndAvs. -/
theorem test_meets_SheddingAndAvs :
    ((∀ i, i < 7 → 1 ≤ i → (w2.belowStage 701 i = true ↔ i ≤ 4))) ∧
    (4 ≤ 6) ∧
    (w2.f F.PWR_STATUS_STAGE 0 < min 4 5) ∧
    ((4 = 6 → w2.fatal = true)) ∧
    ((∀ i, i < 7 → 1 ≤ i → (w101.belowStage 701 i = true ↔ i ≤ 4))) ∧
    (4 ≤ 6) ∧
    (min 4 5 ≤ w101.f F.PWR_STATUS_STAGE 0) ∧
    ((4 = 6 → w101.fatal = true)) ∧
    ((∀ i, i < 7 → 1 ≤ i → w2.belowStage 600 i = true)) ∧
    (w2.fatal = false) ∧
    (w101.f F.PWR_STATUS_STAGE 0 = 5) ∧
    (1 ≤ 5) ∧
    (5 ≤ 5) ∧
    ((w101.f F.PWR_SETPOINT_REF_MV 0 : Int) * (shedPermille 5 (w101.shedOffset 5) + 10) < 1000 * (900 : Int)) ∧
    (w101.f F.PWR_STATUS_STAGE 0 = 5) ∧
    (1000 * (0 : Int) ≤ (w101.f F.PWR_SETPOINT_REF_MV 0 : Int) * (shedPermille 5 (w101.shedOffset 5) + 10)) ∧
    (w102.accepts 0 0x0470 = true) ∧
    (w102.mbxLen 0 = 2) ∧
    (6 = byteAt (w102.mbxArgs 0) 0) ∧
    (1 ≤ 6) ∧
    (6 ≤ 6) ∧
    (-10 ≤ signed 8 (byteAt (w102.mbxArgs 0) 1)) ∧
    (signed 8 (byteAt (w102.mbxArgs 0) 1) ≤ 10) ∧
    ((∀ i, i < 6 → 1 ≤ i → shedPermille (i + 1) ((w102.setF F.PWR_SHED_THR_OFFSET (6 - 1) (byteAt (w102.mbxArgs 0) 1)).shedOffset (i + 1)) <       shedPermille i ((w102.setF F.PWR_SHED_THR_OFFSET (6 - 1) (byteAt (w102.mbxArgs 0) 1)).shedOffset i))) := by
  refine ⟨?_, ?_, ?_, ?_, ?_, ?_, ?_, ?_, ?_, ?_, ?_, ?_, ?_, ?_, ?_, ?_, ?_, ?_, ?_, ?_, ?_, ?_, ?_, ?_⟩ <;> decide +kernel

/-- States and operands that meet the hypotheses of the clauses of SheddingAndAvs. -/
theorem test_meets_SheddingAndAvs_2 :
    (w103.stage = 3 ∨ w103.stage = 4) ∧
    (w103.pwr.cpHalted = false) ∧
    (w103.fw.avsTries = 0) ∧
    (600 = w103.f F.PWR_SETPOINT_CMD_MV 0) ∧
    (600 < 2 ^ 16) ∧
    ((State.reset.avsTarget 40) = w103.avsTarget (40 : Int)) ∧
    (605 = (if 600 < (State.reset.avsTarget 40) then min (State.reset.avsTarget 40) (600 + 5) else max (State.reset.avsTarget 40) (600 - 5))) ∧
    (w104.stage = 3 ∨ w104.stage = 4) ∧
    (w104.pwr.cpHalted = false) ∧
    (w104.fw.avsTries ≠ 0) ∧
    (w105.fw.avsTries ≠ 0) ∧
    (755 = w105.f F.PWR_SETPOINT_CMD_MV 0) ∧
    (755 < 2 ^ 16) ∧
    (w105.fw.avsGoal < 2 ^ 16) ∧
    (100 * ((757 : Int) - 755).natAbs ≤ 755) ∧
    (755 = (if 755 < w105.fw.avsGoal then min w105.fw.avsGoal (755 + 5) else max w105.fw.avsGoal (755 - 5))) ∧
    (w106.fw.avsTries = 1 ∨ w106.fw.avsTries = 2) ∧
    (755 = w106.f F.PWR_SETPOINT_CMD_MV 0) ∧
    (755 < 100 * ((657 : Int) - 755).natAbs) ∧
    (3 ≤ w107.fw.avsTries) ∧
    (755 = w107.f F.PWR_SETPOINT_CMD_MV 0) ∧
    (755 < 100 * ((657 : Int) - 755).natAbs) ∧
    (w2.fw.avsTries = 0) := by
  refine ⟨?_, ?_, ?_, ?_, ?_, ?_, ?_, ?_, ?_, ?_, ?_, ?_, ?_, ?_, ?_, ?_, ?_, ?_, ?_, ?_, ?_, ?_, ?_⟩ <;> decide +kernel

/-- States and operands that meet the hypotheses of the clauses of PowerStates. -/
theorem test_meets_PowerStates :
    (w108.accepts 0 0x0060 = true) ∧
    (w108.mbxLen 0 = 5) ∧
    (1 = byteAt (w108.mbxArgs 0) 0) ∧
    (1 ≤ 1) ∧
    (w109.accepts 0 0x0060 = true) ∧
    (w109.mbxLen 0 = 5) ∧
    (0 = byteAt (w109.mbxArgs 0) 0) ∧
    (0 ≤ 1) ∧
    (w110.accepts 0 0x0060 = true) ∧
    (w110.mbxLen 0 = 5) ∧
    (byteAt (w110.mbxArgs 0) 0 = 2) ∧
    (w110.jobRuns = false) ∧
    (w110.faultLevel 4 = false) ∧
    (w111.pwr.standbyDue = true) ∧
    (w2.pwr.standbyDue = false) ∧
    (w112.pwr.wakeRuns = true) ∧
    (w2.pwr.wakeRuns = false) ∧
    (3 < 4) ∧
    (3 < 4) ∧
    (w114.pwr.standby = true) ∧
    (w114.aon.wakeLatch.find? (fun k => w114.fb F.INTC_ROUTE_WAKE_EN k) = some 847) ∧
    ((w2.pwr.standby = false ∨ w2.aon.wakeLatch.all (fun k => !w2.fb F.INTC_ROUTE_WAKE_EN k) = true)) := by
  refine ⟨?_, ?_, ?_, ?_, ?_, ?_, ?_, ?_, ?_, ?_, ?_, ?_, ?_, ?_, ?_, ?_, ?_, ?_, ?_, ?_, ?_, ?_⟩ <;> decide +kernel

/-- States and operands that meet the hypotheses of the clauses of PowerStates. -/
theorem test_meets_PowerStates_2 :
    (w115.accepts 0 0x0061 = true) ∧
    (w115.mbxLen 0 = 9) ∧
    (byteAt (w115.mbxArgs 0) 0 = 0) ∧
    (leAt (w115.mbxArgs 0) 1 8 < 2 ^ 40) ∧
    (w115.lockElsewhere 4 = false) ∧
    (w116.accepts 0 0x0061 = true) ∧
    (w116.mbxLen 0 = 9) ∧
    (byteAt (w116.mbxArgs 0) 0 = 1) ∧
    (leAt (w116.mbxArgs 0) 1 8 < 2 ^ 40) ∧
    (w116.lockElsewhere 4 = false) ∧
    (w117.accepts 0 0x0062 = true) ∧
    (w117.mbxLen 0 = 9) ∧
    (0 = byteAt (w117.mbxArgs 0) 0) ∧
    (0 ≤ 3) ∧
    (leAt (w117.mbxArgs 0) 1 8 < 2 ^ 40) ∧
    ((calRec : List Byte) = w117.recordAt 0 (decide (0 % 2 = 1)) (leAt (w117.mbxArgs 0) 1 8)) ∧
    (w117.calOk (calRec : List Byte) = true) ∧
    (w118.accepts 0 0x0062 = true) ∧
    (w118.mbxLen 0 = 9) ∧
    (2 = byteAt (w118.mbxArgs 0) 0) ∧
    (2 ≤ 3) ∧
    (leAt (w118.mbxArgs 0) 1 8 < 2 ^ 40) ∧
    ((calRec : List Byte) = w118.recordAt 0 (decide (2 % 2 = 1)) (leAt (w118.mbxArgs 0) 1 8)) ∧
    (w118.calOk (calRec : List Byte) = true) := by
  refine ⟨?_, ?_, ?_, ?_, ?_, ?_, ?_, ?_, ?_, ?_, ?_, ?_, ?_, ?_, ?_, ?_, ?_, ?_, ?_, ?_, ?_, ?_, ?_, ?_⟩ <;> decide +kernel

/-- States and operands that meet the hypotheses of the clauses of TimeAndTimers. -/
theorem test_meets_TimeAndTimers :
    (w119.writeOk (.cpS : Origin) .CLK_TB_STEP_LO 0 = true) ∧
    ((w119.anyGrid = false ∨ (signed 64 (w119.f F.CLK_TB_STEP_HI_STEP 0 * 2 ^ 32 + (0xFFFFFFFF : Word).toNat)).natAbs ≤ 4000)) ∧
    (w120.writeOk (.cpS : Origin) .CLK_TB_STEP_LO 0 = true) ∧
    (w120.anyGrid = true) ∧
    (4000 < (signed 64 (w120.f F.CLK_TB_STEP_HI_STEP 0 * 2 ^ 32 + (4001 : Word).toNat)).natAbs) ∧
    (w2.writeOk (.cpS : Origin) .CLK_TB_TRIM 0 = true) ∧
    (w121.accepts 0 0x0050 = true) ∧
    (w121.mbxLen 0 = 8) ∧
    (ptpArgsOk (w121.mbxArgs 0) = true) ∧
    (w122.fw.ptp ≠ []) ∧
    (w122.stage = 4) ∧
    (w122.pwr.cpHalted = false) ∧
    ((true = false ∨ byteAt w122.fw.ptp 0 = 0)) ∧
    (w122.pwr.resumeDue = false) ∧
    (16 = (if (-100 : Int).natAbs ≤ 100 then w122.fw.ptpGood + 1 else 0)) ∧
    (w123.fw.ptp ≠ []) ∧
    (w123.stage = 4) ∧
    (w123.pwr.cpHalted = false) ∧
    ((false = false ∨ byteAt w123.fw.ptp 0 = 0)) ∧
    (w123.pwr.resumeDue = false) ∧
    (0 = (if (1001 : Int).natAbs ≤ 100 then w123.fw.ptpGood + 1 else 0)) := by
  refine ⟨?_, ?_, ?_, ?_, ?_, ?_, ?_, ?_, ?_, ?_, ?_, ?_, ?_, ?_, ?_, ?_, ?_, ?_, ?_, ?_, ?_⟩ <;> decide +kernel

/-- States and operands that meet the hypotheses of the clauses of TimeAndTimers. -/
theorem test_meets_TimeAndTimers_2 :
    (w124.fw.ptp ≠ []) ∧
    (w124.stage = 4) ∧
    (w124.pwr.cpHalted = false) ∧
    (byteAt w124.fw.ptp 0 ≠ 0) ∧
    (w124.pwr.resumeDue = false) ∧
    (w125.fw.ptp ≠ []) ∧
    (w125.stage = 4) ∧
    (w125.pwr.cpHalted = false) ∧
    (w125.pwr.resumeDue = true) ∧
    (15 ≤ w125.fw.ptpGood) ∧
    ((100 : Int).natAbs ≤ 100) ∧
    (63 < 64) ∧
    (w126.f F.TMR_CTRL_EN 63 = 1) ∧
    (w126.timerCmp 63 ≤ w126.now) ∧
    (63 ∉ w126.time.fired) ∧
    (w126.f F.TMR_CTRL_PERIODIC 63 = 0) ∧
    (63 < 64) ∧
    (w127.f F.TMR_CTRL_EN 63 = 1) ∧
    (w127.timerCmp 63 ≤ w127.now) ∧
    (63 ∉ w127.time.fired) ∧
    (w127.f F.TMR_CTRL_PERIODIC 63 = 1) ∧
    (5 = (w127.now - w127.timerCmp 63) / w127.timerPeriod 63) ∧
    (63 < 64) ∧
    ((w2.f F.TMR_CTRL_EN 63 ≠ 1 ∨ w2.now < w2.timerCmp 63 ∨ 63 ∈ w2.time.fired)) := by
  refine ⟨?_, ?_, ?_, ?_, ?_, ?_, ?_, ?_, ?_, ?_, ?_, ?_, ?_, ?_, ?_, ?_, ?_, ?_, ?_, ?_, ?_, ?_, ?_, ?_⟩ <;> decide +kernel

/-- States and operands that meet the hypotheses of the clauses of TimeAndTimers. -/
theorem test_meets_TimeAndTimers_3 :
    (63 < 64) ∧
    ((w128.f F.TMR_CTRL_EN 63 ≠ 1 ∨ w128.now < w128.timerCmp 63 ∨ 63 ∈ w128.time.fired)) ∧
    (63 < 64) ∧
    (w129.writeOk (.cpN : Origin) .TMR_CMP_LO 63 = true) := by
  refine ⟨?_, ?_, ?_, ?_⟩ <;> decide +kernel

/-- States and operands that meet the hypotheses of the clauses of ReadsThatClear. -/
theorem test_meets_ReadsThatClear :
    (63 < 64) ∧
    (w130.readOk (.cpN : Origin) .TMR_STATUS 63 = true) ∧
    (w131.readOk (.cpN : Origin) .BPM_MIN_FREE 0 = true) ∧
    (w132.readOk (.cpN : Origin) .PWR_VMIN 0 = true) ∧
    (3 < 4) ∧
    (11 < 12) ∧
    (w133.readOk (.cpN : Origin) .ARB_MAXWAIT (12 * 3 + 11) = true) := by
  refine ⟨?_, ?_, ?_, ?_, ?_, ?_, ?_⟩ <;> decide +kernel

/-- States and operands that meet the hypotheses of the clauses of TamperAndWorlds. -/
theorem test_meets_TamperAndWorlds :
    (7 < 8) ∧
    (w134.tamperEnabled 7 = true) ∧
    (7 < 8) ∧
    (w2.tamperEnabled 7 = false) ∧
    (w2.writeOk (.cpS : Origin) .SPD_CTRL 0 = true) ∧
    ((1 : Word).toNat.testBit 0 = true) ∧
    (w2.f F.SPD_CTRL_BUSY 0 = 0) ∧
    (w135.writeOk (.cpS : Origin) .SPD_CTRL 0 = true) ∧
    ((1 : Word).toNat.testBit 0 = true) ∧
    (w135.f F.SPD_CTRL_BUSY 0 = 1) ∧
    (w135.f F.SPD_CTRL_BUSY 0 = 1) ∧
    (w2.f F.SPD_CTRL_BUSY 0 ≠ 1) ∧
    (w2.writeOk (.cpS : Origin) .SEC_BLOCK_WORLD 0 = true) ∧
    (w2.f F.SEC_BLOCK_WORLD_LOCK 0 = 0) ∧
    (w136.writeOk (.cpS : Origin) .SEC_BLOCK_WORLD 0 = true) ∧
    (w136.f F.SEC_BLOCK_WORLD_LOCK 0 = 1) ∧
    (63 < 64) ∧
    (w2.writeOk (.cpS : Origin) .SEC_REGION_ATTR 63 = true) ∧
    (w2.f F.SEC_REGION_ATTR_LOCK 63 = 0) ∧
    (63 < 64) ∧
    (w137.writeOk (.cpS : Origin) .SEC_REGION_ATTR 63 = true) ∧
    (w137.f F.SEC_REGION_ATTR_LOCK 63 = 1) := by
  refine ⟨?_, ?_, ?_, ?_, ?_, ?_, ?_, ?_, ?_, ?_, ?_, ?_, ?_, ?_, ?_, ?_, ?_, ?_, ?_, ?_, ?_, ?_⟩ <;> decide +kernel

/-- States and operands that meet the hypotheses of the clauses of LifeCycle. -/
theorem test_meets_LifeCycle :
    (w138.accepts 0 0x0092 = true) ∧
    (5 ≤ w138.mbxLen 0) ∧
    (w138.mbxLen 0 ≤ 68) ∧
    (byteAt (w138.mbxArgs 0) 0 = 2) ∧
    (13 = byteAt (w138.mbxArgs 0) 1) ∧
    (4 = leAt (w138.mbxArgs 0) 2 2) ∧
    (w138.lc ≤ 1) ∧
    (13 ≤ 13) ∧
    (4 + (w138.mbxLen 0 - 4) ≤ (otpArea 13).2) ∧
    (areaOpen w138.lc 13 = true) ∧
    ((13 < 12 → w138.otpLock 13 = false)) ∧
    (w139.accepts 0 0x0092 = true) ∧
    (w139.mbxLen 0 = 2) ∧
    (byteAt (w139.mbxArgs 0) 0 = 3) ∧
    (11 = byteAt (w139.mbxArgs 0) 1) ∧
    (w139.lc ≤ 1) ∧
    (11 ≤ 11) ∧
    (w140.accepts 0 0x0092 = true) ∧
    (w140.mbxLen 0 = 1) ∧
    (byteAt (w140.mbxArgs 0) 0 = 4) ∧
    (w140.lc = 1 ∨ w140.lc = 2) ∧
    (w140.fw.image.underKey1 = true) := by
  refine ⟨?_, ?_, ?_, ?_, ?_, ?_, ?_, ?_, ?_, ?_, ?_, ?_, ?_, ?_, ?_, ?_, ?_, ?_, ?_, ?_, ?_, ?_⟩ <;> decide +kernel

/-- States and operands that meet the hypotheses of the clauses of LifeCycle. -/
theorem test_meets_LifeCycle_2 :
    (w141.accepts 0 0x0092 = true) ∧
    (w141.mbxLen 0 = 1) ∧
    (byteAt (w141.mbxArgs 0) 0 = 1) ∧
    (w141.lc = 1) ∧
    (w141.otpLock 10 = false) ∧
    (w142.accepts 0 0x0092 = true) ∧
    (w142.mbxLen 0 = 1) ∧
    (byteAt (w142.mbxArgs 0) 0 = 0) ∧
    ((w142.lc = 0 ∧ w142.otpLock 6 = true) ∨ (w142.lc = 1 ∧ ∀ k ∈ [4, 8, 9, 10, 11], w142.otpLock k = true)) ∧
    (w143.accepts 0 0x0092 = true) ∧
    (w143.mbxLen 0 = 1) ∧
    (byteAt (w143.mbxArgs 0) 0 = 0) ∧
    (w143.lc = 3) ∧
    (w144.accepts 8 0x0092 = true) ∧
    (w144.mbxLen 8 = 115) ∧
    (byteAt (w144.mbxArgs 8) 0 = 5) ∧
    (w144.lc = 2) ∧
    (w144.challengeOf 8 ≠ []) := by
  refine ⟨?_, ?_, ?_, ?_, ?_, ?_, ?_, ?_, ?_, ?_, ?_, ?_, ?_, ?_, ?_, ?_, ?_, ?_⟩ <;> decide +kernel

/-- States and operands that meet the hypotheses of the clauses of KeysAndReports. -/
theorem test_meets_KeysAndReports :
    (w145.accepts 0 0x0090 = true) ∧
    (w145.mbxLen 0 = 4 ∨ w145.mbxLen 0 = 36) ∧
    (2 = byteAt (w145.mbxArgs 0) 0) ∧
    (2 ≤ 3) ∧
    ((2 % 2 = 1 → w145.mbxLen 0 = 36)) ∧
    (0 = leAt (w145.mbxArgs 0) 2 2) ∧
    (w145.lc ≠ 0) ∧
    (w145.idOk = true) ∧
    (w145.f F.SEC_STATUS_LOCKOUT 0 = 0) ∧
    (([] : List Byte) = (if 2 % 2 = 1 then w145.buildReport ((w145.mbxArgs 0).drop 4) else Tab.get [] w145.fw.report 0)) ∧
    ((0 < ([] : List Byte).length ∨ (2 ≤ 2 ∧ 0 = 0))) ∧
    (w146.accepts 0 0x0090 = true) ∧
    (w146.mbxLen 0 = 4 ∨ w146.mbxLen 0 = 36) ∧
    (0 = byteAt (w146.mbxArgs 0) 0) ∧
    (0 ≤ 3) ∧
    ((0 % 2 = 1 → w146.mbxLen 0 = 36)) ∧
    (241 = leAt (w146.mbxArgs 0) 2 2) ∧
    (w146.lc ≠ 0) ∧
    (w146.idOk = true) ∧
    (w146.f F.SEC_STATUS_LOCKOUT 0 = 0) ∧
    (((List.replicate 242 7) : List Byte) = (if 0 % 2 = 1 then w146.buildReport ((w146.mbxArgs 0).drop 4) else Tab.get [] w146.fw.report 0)) ∧
    ((241 < ((List.replicate 242 7) : List Byte).length ∨ (2 ≤ 0 ∧ 241 = 0))) := by
  refine ⟨?_, ?_, ?_, ?_, ?_, ?_, ?_, ?_, ?_, ?_, ?_, ?_, ?_, ?_, ?_, ?_, ?_, ?_, ?_, ?_, ?_, ?_⟩ <;> decide +kernel

/-- States and operands that meet the hypotheses of the clauses of KeysAndReports. -/
theorem test_meets_KeysAndReports_2 :
    (w147.accepts 0 0x0091 = true) ∧
    (w147.mbxLen 0 = 35) ∧
    (255 = byteAt (w147.mbxArgs 0) 0) ∧
    (1 = byteAt (w147.mbxArgs 0) 1) ∧
    (1 ≤ 1) ∧
    (byteAt (w147.mbxArgs 0) 2 = 0) ∧
    (w147.keyTooLate 255 = false) ∧
    (w147.keyRoom 255 = true) ∧
    (w147.sec.tripAt ≠ some w147.time.fclk) ∧
    (w148.accepts 0 0x0091 = true) ∧
    (w148.mbxLen 0 = 35) ∧
    (255 = byteAt (w148.mbxArgs 0) 0) ∧
    (1 = byteAt (w148.mbxArgs 0) 1) ∧
    (1 ≤ 1) ∧
    (byteAt (w148.mbxArgs 0) 2 = 0) ∧
    (w148.keyTooLate 255 = false) ∧
    (w148.keyRoom 255 = true) ∧
    (w148.sec.tripAt = some w148.time.fclk) := by
  refine ⟨?_, ?_, ?_, ?_, ?_, ?_, ?_, ?_, ?_, ?_, ?_, ?_, ?_, ?_, ?_, ?_, ?_, ?_⟩ <;> decide +kernel

/-- States and operands that meet the hypotheses of the clauses of KeysAndReports. -/
theorem test_meets_KeysAndReports_3 :
    (w149.accepts 0 0x0091 = true) ∧
    (w149.mbxLen 0 ∈ [3, 35, 63]) ∧
    (255 = byteAt (w149.mbxArgs 0) 0) ∧
    (0 = byteAt (w149.mbxArgs 0) 1) ∧
    (0 ≤ 1) ∧
    ((byteAt (w149.mbxArgs 0) 2 = 2 ∨ byteAt (w149.mbxArgs 0) 2 = 3)) ∧
    (w149.keyTooLate 255 = false) ∧
    (w150.accepts 0 0x0091 = true) ∧
    (w150.mbxLen 0 = 63) ∧
    (255 = byteAt (w150.mbxArgs 0) 0) ∧
    (0 = byteAt (w150.mbxArgs 0) 1) ∧
    (0 ≤ 1) ∧
    (byteAt (w150.mbxArgs 0) 2 = 1) ∧
    (w150.keyTooLate 255 = false) ∧
    (w150.keyRoom 255 = true) ∧
    (w150.kwkOk = true) ∧
    (w150.sec.tripAt ≠ some w150.time.fclk) := by
  refine ⟨?_, ?_, ?_, ?_, ?_, ?_, ?_, ?_, ?_, ?_, ?_, ?_, ?_, ?_, ?_, ?_, ?_⟩ <;> decide +kernel

/-- States and operands that meet the hypotheses of the clauses of WallCommands. -/
theorem test_meets_WallCommands :
    (w151.accepts 0 0x0010 = true) ∧
    (w151.mbxLen 0 = 32) ∧
    (w151.wallArgsOk (w151.mbxArgs 0) = true) ∧
    (byteAt (w151.mbxArgs 0) 1 = 0) ∧
    (w152.accepts 0 0x0010 = true) ∧
    (w152.mbxLen 0 = 32) ∧
    (w152.wallArgsOk (w152.mbxArgs 0) = true) ∧
    (byteAt (w152.mbxArgs 0) 1 = 1) ∧
    (0 < 4) ∧
    ((w152.grid 0).used = false) ∧
    ((∀ k, k < 0 → (w152.grid k).used = true)) ∧
    (w153.accepts 0 0x0011 = true) ∧
    (w153.mbxLen 0 = 2) ∧
    (1 = byteAt (w153.mbxArgs 0) 0) ∧
    (byteAt (w153.mbxArgs 0) 1 = 0) ∧
    (w153.wall? 1 = some (({} : Wall) : Wall)) ∧
    ((({} : Wall) : Wall).grid = none) ∧
    (w153.codec.dying = []) ∧
    (w153.ctxsOf (fun c => decide (c.wall = 1)) = []) ∧
    (w153.lamp.chains = []) := by
  refine ⟨?_, ?_, ?_, ?_, ?_, ?_, ?_, ?_, ?_, ?_, ?_, ?_, ?_, ?_, ?_, ?_, ?_, ?_, ?_, ?_⟩ <;> decide +kernel

/-- States and operands that meet the hypotheses of the clauses of WallCommands. -/
theorem test_meets_WallCommands_2 :
    (w154.accepts 0 0x0011 = true) ∧
    (w154.mbxLen 0 = 2) ∧
    (1 = byteAt (w154.mbxArgs 0) 0) ∧
    (byteAt (w154.mbxArgs 0) 1 ≤ 1) ∧
    (w154.wall? 1 = some (({ grid := some 3 } : Wall) : Wall)) ∧
    ((({ grid := some 3 } : Wall) : Wall).grid = some 3) ∧
    (w154.codec.dying = []) ∧
    (w154.ctxsOf (fun c => decide (c.wall = 1)) = []) ∧
    (w154.lamp.chains = []) := by
  refine ⟨?_, ?_, ?_, ?_, ?_, ?_, ?_, ?_, ?_⟩ <;> decide +kernel

/-- States and operands that meet the hypotheses of the clauses of WallCommands. -/
theorem test_meets_WallCommands_3 :
    (w155.accepts 0 0x0012 = true) ∧
    (w155.mbxLen 0 = 16) ∧
    (1 = byteAt (w155.mbxArgs 0) 0) ∧
    (0 = byteAt (w155.mbxArgs 0) 1) ∧
    (0 ≤ 1) ∧
    (1 = leAt (w155.mbxArgs 0) 2 2) ∧
    (64 = leAt (w155.mbxArgs 0) 8 8) ∧
    (1 ≠ 0) ∧
    (leAt (w155.mbxArgs 0) 4 4 = 0) ∧
    (64 < 2 ^ 40) ∧
    (64 % 16 = 0) ∧
    (w155.wall? 1 = some (({} : Wall) : Wall)) ∧
    (w155.lockElsewhere 1 = false) ∧
    (([[5, 0, 4, 4, 0, 0, 1, 0, 0, 0, 0, 0, 0, 0, 0, 0]] : List (List Byte)) = (List.range 1).map (fun i => w155.dramFor 9 (64 + 16 * i) 16 (Origin.secure (mbxOrigin 0) w155))) ∧
    (([[5, 0, 4, 4, 0, 0, 1, 0, 0, 0, 0, 0, 0, 0, 0, 0]] : List (List Byte)).all tileEntryOk = true) ∧
    ((([[5, 0, 4, 4, 0, 0, 1, 0, 0, 0, 0, 0, 0, 0, 0, 0]] : List (List Byte)).map (fun e => (tileOf e).1)).Nodup) ∧
    (((newMap [(5, some tile4)] false ([[5, 0, 4, 4, 0, 0, 1, 0, 0, 0, 0, 0, 0, 0, 0, 0]].map tileOf)) : Tab (Option Tile)) = newMap (({} : Wall) : Wall).tiles (decide (0 = 1)) (([[5, 0, 4, 4, 0, 0, 1, 0, 0, 0, 0, 0, 0, 0, 0, 0]] : List (List Byte)).map tileOf)) ∧
    (mapOk ((newMap [(5, some tile4)] false ([[5, 0, 4, 4, 0, 0, 1, 0, 0, 0, 0, 0, 0, 0, 0, 0]].map tileOf)) : Tab (Option Tile)) = true) ∧
    (w155.mapKeeps 1 ((newMap [(5, some tile4)] false ([[5, 0, 4, 4, 0, 0, 1, 0, 0, 0, 0, 0, 0, 0, 0, 0]].map tileOf)) : Tab (Option Tile)) = true) := by
  refine ⟨?_, ?_, ?_, ?_, ?_, ?_, ?_, ?_, ?_, ?_, ?_, ?_, ?_, ?_, ?_, ?_, ?_, ?_, ?_⟩ <;> decide +kernel

/-- States and operands that meet the hypotheses of the clauses of WallCommands. -/
theorem test_meets_WallCommands_4 :
    (w156.accepts 0 0x0013 = true) ∧
    (w156.mbxLen 0 = 16) ∧
    (1 = byteAt (w156.mbxArgs 0) 0) ∧
    (leAt (w156.mbxArgs 0) 1 7 = 0) ∧
    (w156.wall? 1 = some (({ paused := true } : Wall) : Wall)) ∧
    ((({ paused := true } : Wall) : Wall).paused = true) ∧
    (w157.accepts 0 0x0013 = true) ∧
    (w157.mbxLen 0 = 16) ∧
    (1 = byteAt (w157.mbxArgs 0) 0) ∧
    (leAt (w157.mbxArgs 0) 1 7 = 0) ∧
    (w157.wall? 1 = some (({} : Wall) : Wall)) ∧
    ((({} : Wall) : Wall).paused = false) ∧
    (w158.accepts 0 0x0014 = true) ∧
    (w158.mbxLen 0 = 4) ∧
    (1 = byteAt (w158.mbxArgs 0) 0) ∧
    (leAt (w158.mbxArgs 0) 1 3 = 0) ∧
    (w158.wall? 1 = some (({} : Wall) : Wall)) ∧
    (w159.accepts 0 0x0015 = true) ∧
    (w159.mbxLen 0 = 5) ∧
    (1 = byteAt (w159.mbxArgs 0) 0) ∧
    (65536 = leAt (w159.mbxArgs 0) 1 4) ∧
    (65536 ≤ 65536) ∧
    (w159.wall? 1 = some (({ grid := some 3 } : Wall) : Wall)) ∧
    ((({ grid := some 3 } : Wall) : Wall).grid = some 3) := by
  refine ⟨?_, ?_, ?_, ?_, ?_, ?_, ?_, ?_, ?_, ?_, ?_, ?_, ?_, ?_, ?_, ?_, ?_, ?_, ?_, ?_, ?_, ?_, ?_, ?_⟩ <;> decide +kernel

/-- States and operands that meet the hypotheses of the clauses of ContextCommands. -/
theorem test_meets_ContextCommands :
    (w160.accepts 0 0x0020 = true) ∧
    (32 ≤ w160.mbxLen 0) ∧
    (w160.mbxLen 0 ≤ 96) ∧
    (1 = w160.wallFor (w160.mbxArgs 0)) ∧
    (byteAt (w160.mbxArgs 0) 0 ≤ 1) ∧
    ((w160.wall? 1).isSome = true) ∧
    (Tab.get none (w160.wall 1).tiles (leAt (w160.mbxArgs 0) 2 2) = some (tile4 : Tile)) ∧
    (w160.codec.dying = []) ∧
    (w160.ctxsOf (fun y => decide (y.wall = 1) && decide (y.tile = leAt (w160.mbxArgs 0) 2 2) && decide (y.enc = decide (byteAt (w160.mbxArgs 0) 0 = 0))) = []) ∧
    ((byteAt (w160.mbxArgs 0) 0 = 0 → encodeArgsOk (w160.willSeal 1) (w160.mbxArgs 0) (tile4 : Tile) = true ∧ 32 + byteAt (w160.mbxArgs 0) 23 ≤ (w160.mbxArgs 0).length)) ∧
    (lowestFree 4096 w160.ctxNums = some 0) ∧
    (w160.groupFor 1 (leAt (w160.mbxArgs 0) 2 2) (tile4 : Tile).independent = some 0) ∧
    ((w160.ctxOf (w160.mbxArgs 0) (tile4 : Tile)).maxShort ≤ (w160.group 0).short) ∧
    ((w160.ctxOf (w160.mbxArgs 0) (tile4 : Tile)).bedSlots ≤ (w160.group 0).beds) ∧
    (w160.chargeSum + (w160.ctxOf (w160.mbxArgs 0) (tile4 : Tile)).charge ≤ w160.limitFor w160.inService) := by
  refine ⟨?_, ?_, ?_, ?_, ?_, ?_, ?_, ?_, ?_, ?_, ?_, ?_, ?_, ?_, ?_⟩ <;> decide +kernel

/-- States and operands that meet the hypotheses of the clauses of ContextCommands. -/
theorem test_meets_ContextCommands_2 :
    (w161.accepts 0 0x0020 = true) ∧
    (32 ≤ w161.mbxLen 0) ∧
    (w161.mbxLen 0 ≤ 96) ∧
    (1 = w161.wallFor (w161.mbxArgs 0)) ∧
    (byteAt (w161.mbxArgs 0) 0 ≤ 1) ∧
    ((w161.wall? 1).isSome = true) ∧
    (Tab.get none (w161.wall 1).tiles (leAt (w161.mbxArgs 0) 2 2) = some (tile4 : Tile)) ∧
    (w161.codec.dying = []) ∧
    (w161.ctxsOf (fun y => decide (y.wall = 1) && decide (y.tile = leAt (w161.mbxArgs 0) 2 2) && decide (y.enc = decide (byteAt (w161.mbxArgs 0) 0 = 0))) = []) ∧
    ((byteAt (w161.mbxArgs 0) 0 = 0 → encodeArgsOk (w161.willSeal 1) (w161.mbxArgs 0) (tile4 : Tile) = true ∧ 32 + byteAt (w161.mbxArgs 0) 23 ≤ (w161.mbxArgs 0).length)) ∧
    (lowestFree 4096 w161.ctxNums = some 0) ∧
    (w161.groupFor 1 (leAt (w161.mbxArgs 0) 2 2) (tile4 : Tile).independent = some 0) ∧
    ((w161.ctxOf (w161.mbxArgs 0) (tile4 : Tile)).maxShort ≤ (w161.group 0).short) ∧
    ((w161.ctxOf (w161.mbxArgs 0) (tile4 : Tile)).bedSlots ≤ (w161.group 0).beds) ∧
    (w161.chargeSum + (w161.ctxOf (w161.mbxArgs 0) (tile4 : Tile)).charge ≤ w161.limitFor w161.inService) := by
  refine ⟨?_, ?_, ?_, ?_, ?_, ?_, ?_, ?_, ?_, ?_, ?_, ?_, ?_, ?_, ?_⟩ <;> decide +kernel

/-- States and operands that meet the hypotheses of the clauses of ContextCommands. -/
theorem test_meets_ContextCommands_3 :
    (w162.accepts 0 0x0020 = true) ∧
    (w162.mbxLen 0 = 32) ∧
    (1 = w162.wallFor (w162.mbxArgs 0)) ∧
    (byteAt (w162.mbxArgs 0) 0 = 1) ∧
    ((w162.wall? 1).isSome = true) ∧
    (Tab.get none (w162.wall 1).tiles (leAt (w162.mbxArgs 0) 2 2) = some (tile4 : Tile)) ∧
    (w162.codec.dying = []) ∧
    (w162.ctxsOf (fun y => decide (y.wall = 1) && decide (y.tile = leAt (w162.mbxArgs 0) 2 2) && decide (y.enc = false)) = []) ∧
    (lowestFree 4096 w162.ctxNums = some 0) ∧
    (w162.groupFor 1 (leAt (w162.mbxArgs 0) 2 2) (tile4 : Tile).independent = none) ∧
    ((tile4 : Tile).maxShort + 2 + (tile4 : Tile).bedSlots ≤ w162.poolDescs.length) ∧
    (w162.chargeSum + (w162.ctxOf (w162.mbxArgs 0) (tile4 : Tile)).charge ≤ w162.limitFor w162.inService) ∧
    (w163.accepts 0 0x0021 = true) ∧
    (w163.mbxLen 0 = 4) ∧
    (4095 = leAt (w163.mbxArgs 0) 0 2) ∧
    (leAt (w163.mbxArgs 0) 2 2 = 0) ∧
    (w163.ctx? 4095 = some (({ wall := 1, tile := 5, geo := tile4, enc := true } : Ctx) : Ctx)) ∧
    ((({ wall := 1, tile := 5, geo := tile4, enc := true } : Ctx) : Ctx).ending = false) ∧
    (w163.ctxRuns 4095 = false) ∧
    (((({ wall := 1, tile := 5, geo := tile4, enc := true } : Ctx) : Ctx).enc = false → w163.tableNames 4095 = false)) := by
  refine ⟨?_, ?_, ?_, ?_, ?_, ?_, ?_, ?_, ?_, ?_, ?_, ?_, ?_, ?_, ?_, ?_, ?_, ?_, ?_, ?_⟩ <;> decide +kernel

/-- States and operands that meet the hypotheses of the clauses of ContextCommands. -/
theorem test_meets_ContextCommands_4 :
    (w164.accepts 0 0x0022 = true) ∧
    (w164.mbxLen 0 = 3) ∧
    (4095 = leAt (w164.mbxArgs 0) 0 2) ∧
    (w164.ctx? 4095 = some (({ wall := 1, tile := 5, geo := tile4, enc := true } : Ctx) : Ctx)) ∧
    (byteAt (w164.mbxArgs 0) 2 ≤ 1) ∧
    (w165.accepts 0 0x0023 = true) ∧
    (w165.mbxLen 0 = 4) ∧
    (4095 = leAt (w165.mbxArgs 0) 0 2) ∧
    (0 = byteAt (w165.mbxArgs 0) 2) ∧
    (0 ≤ 3) ∧
    (byteAt (w165.mbxArgs 0) 3 = 0) ∧
    (4095 ≠ 0xFFFF) ∧
    (w165.ctx? 4095 = some (({ wall := 1, tile := 5, geo := tile4, enc := true, charge := 9999999 } : Ctx) : Ctx)) ∧
    ((({ wall := 1, tile := 5, geo := tile4, enc := true, charge := 9999999 } : Ctx) : Ctx).enc = true) ∧
    (w165.chargeAt 4095 0 ≤ (({ wall := 1, tile := 5, geo := tile4, enc := true, charge := 9999999 } : Ctx) : Ctx).charge) := by
  refine ⟨?_, ?_, ?_, ?_, ?_, ?_, ?_, ?_, ?_, ?_, ?_, ?_, ?_, ?_, ?_⟩ <;> decide +kernel

/-- States and operands that meet the hypotheses of the clauses of ContextCommands. -/
theorem test_meets_ContextCommands_5 :
    (w166.accepts 0 0x0480 = true) ∧
    (w166.mbxLen 0 = 9) ∧
    (511 = leAt (w166.mbxArgs 0) 0 2) ∧
    (511 < 512) ∧
    (64 ≤ byteAt (w166.mbxArgs 0) 2) ∧
    (95 = byteAt (w166.mbxArgs 0) 3) ∧
    (50 ≤ 95) ∧
    (95 ≤ 95) ∧
    (1 ≤ byteAt (w166.mbxArgs 0) 8) ∧
    (byteAt (w166.mbxArgs 0) 8 ≤ 15) ∧
    (w167.accepts 0 0x0024 = true) ∧
    (w167.mbxLen 0 = 20) ∧
    (w167.bedrockArgsOk (w167.mbxArgs 0) = true) ∧
    (4095 = leAt (w167.mbxArgs 0) 0 2) ∧
    (1 = byteAt (w167.mbxArgs 0) 2) ∧
    (byteAt (w167.mbxArgs 0) 3 = 0) ∧
    (w167.ctx? 4095 = some (({ wall := 1, tile := 5, geo := tile4, enc := true, bedSlots := 2 } : Ctx) : Ctx)) ∧
    ((∀ l ∈ (({ wall := 1, tile := 5, geo := tile4, enc := true, bedSlots := 2 } : Ctx) : Ctx).loads, l.slot ≠ 1)) := by
  refine ⟨?_, ?_, ?_, ?_, ?_, ?_, ?_, ?_, ?_, ?_, ?_, ?_, ?_, ?_, ?_, ?_, ?_, ?_⟩ <;> decide +kernel

/-- States and operands that meet the hypotheses of the clauses of ContextCommands. -/
theorem test_meets_ContextCommands_6 :
    (w168.accepts 0 0x0024 = true) ∧
    (w168.mbxLen 0 = 20) ∧
    (w168.bedrockArgsOk (w168.mbxArgs 0) = true) ∧
    (4095 = leAt (w168.mbxArgs 0) 0 2) ∧
    (byteAt (w168.mbxArgs 0) 3 = 1) ∧
    (w168.ctx? 4095 = some (({ wall := 1, tile := 5, geo := tile4, enc := true, bedSlots := 2 } : Ctx) : Ctx)) ∧
    ((∀ l ∈ (({ wall := 1, tile := 5, geo := tile4, enc := true, bedSlots := 2 } : Ctx) : Ctx).loads, l.slot ≠ byteAt (w168.mbxArgs 0) 2)) := by
  refine ⟨?_, ?_, ?_, ?_, ?_, ?_, ?_⟩ <;> decide +kernel

/-- States and operands that meet the hypotheses of the clauses of LampCommands. -/
theorem test_meets_LampCommands :
    (w169.accepts 0 0x0034 = true) ∧
    (w169.mbxLen 0 = 18) ∧
    (0 = byteAt (w169.mbxArgs 0) 0) ∧
    (47 = byteAt (w169.mbxArgs 0) 1) ∧
    (1 = byteAt (w169.mbxArgs 0) 2) ∧
    (1 = byteAt (w169.mbxArgs 0) 3) ∧
    (1 = byteAt (w169.mbxArgs 0) 4) ∧
    (byteAt (w169.mbxArgs 0) 5 = 0) ∧
    (65535 = leAt (w169.mbxArgs 0) 6 4) ∧
    (4096 = leAt (w169.mbxArgs 0) 10 8) ∧
    (0 < 48) ∧
    (47 < 48 ∨ 47 = 255) ∧
    (0 ≠ 47) ∧
    (w169.lampPortArgsOk 0 47 1 1 1 65535 4096 = true) ∧
    ((({ bound := true, portB := 47, wall := 1, n := 1 } : Chain) : Chain) = { bound := true, portB := 47, wall := 1, n := 1 }) := by
  refine ⟨?_, ?_, ?_, ?_, ?_, ?_, ?_, ?_, ?_, ?_, ?_, ?_, ?_, ?_, ?_⟩ <;> decide +kernel

/-- States and operands that meet the hypotheses of the clauses of LampCommands. -/
theorem test_meets_LampCommands_2 :
    (w170.accepts 0 0x0034 = true) ∧
    (w170.mbxLen 0 = 18) ∧
    (0 = byteAt (w170.mbxArgs 0) 0) ∧
    (47 = byteAt (w170.mbxArgs 0) 1) ∧
    (0 = byteAt (w170.mbxArgs 0) 4) ∧
    (byteAt (w170.mbxArgs 0) 5 = 1) ∧
    (0 < 48) ∧
    (47 < 48 ∨ 47 = 255) ∧
    (0 ≠ 47) ∧
    ((w170.chain 0).bound = true) ∧
    ((w170.chain 0).portB = 47) ∧
    (0 ≤ (w170.chain 0).n) ∧
    ((w170.chain 0).n ≤ 64) ∧
    (w171.accepts 0 0x0041 = true) ∧
    (w171.mbxLen 0 = 9) ∧
    (0 = byteAt (w171.mbxArgs 0) 0) ∧
    (4096 = leAt (w171.mbxArgs 0) 1 8) ∧
    (0 < 48) ∧
    ((w171.chain 0).bound = true) ∧
    (4096 < 2 ^ 40) ∧
    (w171.lockElsewhere 2 = false) ∧
    (w171.tableOk 4096 = true) := by
  refine ⟨?_, ?_, ?_, ?_, ?_, ?_, ?_, ?_, ?_, ?_, ?_, ?_, ?_, ?_, ?_, ?_, ?_, ?_, ?_, ?_, ?_, ?_⟩ <;> decide +kernel

/-- States and operands that meet the hypotheses of the clauses of LampCommands. -/
theorem test_meets_LampCommands_3 :
    (w172.accepts 0 0x0040 = true) ∧
    (w172.mbxLen 0 = 14) ∧
    (0 = leAt (w172.mbxArgs 0) 0 2) ∧
    (leAt (w172.mbxArgs 0) 2 8 < 2 ^ 40) ∧
    (w172.ctx? 0 = some (({ wall := 1, tile := 5, geo := tile4 } : Ctx) : Ctx)) ∧
    ((({ wall := 1, tile := 5, geo := tile4 } : Ctx) : Ctx).enc = false) ∧
    (w172.lockElsewhere 2 = false) ∧
    (w173.accepts 0 0x0450 = true) ∧
    (w173.mbxLen 0 = 17) ∧
    (63 = byteAt (w173.mbxArgs 0) 0) ∧
    (0x3F007100 = leAt (w173.mbxArgs 0) 1 4) ∧
    (63 < 64) ∧
    ((w173.captureBarred 63 (0x3F007100 / 2 ^ 24 % 64) = true → 8 ≤ 0)) := by
  refine ⟨?_, ?_, ?_, ?_, ?_, ?_, ?_, ?_, ?_, ?_, ?_, ?_, ?_⟩ <;> decide +kernel

/-- States and operands that meet the hypotheses of the clauses of RuleCommands. -/
theorem test_meets_RuleCommands :
    (w174.accepts 0 0x0030 = true) ∧
    (w174.mbxLen 0 = 8) ∧
    (byteAt (w174.mbxArgs 0) 0 ∈ w174.codec.listed) ∧
    (leAt (w174.mbxArgs 0) 1 2 ≤ leAt (w174.mbxArgs 0) 3 2) ∧
    (1 ≤ leAt (w174.mbxArgs 0) 5 2) ∧
    (leAt (w174.mbxArgs 0) 5 2 ≤ 0xFFE) ∧
    (w174.lockElsewhere 0 = false) ∧
    (w174.clsState = clsIdle ∨ w174.clsState = clsStaging) ∧
    (w175.accepts 0 0x0030 = true) ∧
    (w175.mbxLen 0 = 8) ∧
    (byteAt (w175.mbxArgs 0) 0 ∈ w175.codec.listed) ∧
    (leAt (w175.mbxArgs 0) 1 2 ≤ leAt (w175.mbxArgs 0) 3 2) ∧
    (1 ≤ leAt (w175.mbxArgs 0) 5 2) ∧
    (leAt (w175.mbxArgs 0) 5 2 ≤ 0xFFE) ∧
    (w175.lockElsewhere 0 = false) ∧
    (w175.clsState = clsIdle ∨ w175.clsState = clsStaging) := by
  refine ⟨?_, ?_, ?_, ?_, ?_, ?_, ?_, ?_, ?_, ?_, ?_, ?_, ?_, ?_, ?_, ?_⟩ <;> decide +kernel

/-- States and operands that meet the hypotheses of the clauses of RuleCommands. -/
theorem test_meets_RuleCommands_2 :
    (w176.accepts 0 0x0420 = true) ∧
    (36 ≤ w176.mbxLen 0) ∧
    (w176.mbxLen 0 ≤ 244) ∧
    (w176.mbxLen 0 = (w176.mbxArgs 0).length) ∧
    (byteAt (w176.mbxArgs 0) 0 ≤ 1) ∧
    (false = decide (byteAt (w176.mbxArgs 0) 0 = 1)) ∧
    (32 = (if false then 48 else 32)) ∧
    ((w176.mbxArgs 0).length = 4 + 32 * 1) ∧
    (1 ≤ 1) ∧
    (byteAt (w176.mbxArgs 0) 1 = 0) ∧
    (16383 = leAt (w176.mbxArgs 0) 2 2) ∧
    (16383 + 1 ≤ (if false then 512 else 16384)) ∧
    (w176.lockElsewhere 0 = false) ∧
    (w176.clsState = clsIdle ∨ w176.clsState = clsStaging) ∧
    (({ exact := [], tern := [], nExact := 0, nTern := 0, fwTern := 0 } : Bank) = (if w176.clsState = clsStaging then w176.haul.staged else w176.haul.live)) ∧
    (0 = (if w176.clsState = clsStaging then w176.f F.CLS_STAGE_COUNT_EXACT 0 else w176.haul.live.nExact % 2 ^ 15)) ∧
    (0 = (if w176.clsState = clsStaging then w176.f F.CLS_STAGE_COUNT_TERN 0 else w176.haul.live.nTern % 2 ^ 10)) := by
  refine ⟨?_, ?_, ?_, ?_, ?_, ?_, ?_, ?_, ?_, ?_, ?_, ?_, ?_, ?_, ?_, ?_, ?_⟩ <;> decide +kernel

/-- States and operands that meet the hypotheses of the clauses of RuleCommands. -/
theorem test_meets_RuleCommands_3 :
    (w177.accepts 0 0x0420 = true) ∧
    (36 ≤ w177.mbxLen 0) ∧
    (w177.mbxLen 0 ≤ 244) ∧
    (w177.mbxLen 0 = (w177.mbxArgs 0).length) ∧
    (byteAt (w177.mbxArgs 0) 0 ≤ 1) ∧
    (true = decide (byteAt (w177.mbxArgs 0) 0 = 1)) ∧
    (48 = (if true then 48 else 32)) ∧
    ((w177.mbxArgs 0).length = 4 + 48 * 5) ∧
    (1 ≤ 5) ∧
    (byteAt (w177.mbxArgs 0) 1 = 0) ∧
    (507 = leAt (w177.mbxArgs 0) 2 2) ∧
    (507 + 5 ≤ (if true then 512 else 16384)) ∧
    (w177.lockElsewhere 0 = false) ∧
    (w177.clsState = clsIdle ∨ w177.clsState = clsStaging) ∧
    (({ exact := [], tern := [], nExact := 3, nTern := 4, fwTern := 0 } : Bank) = (if w177.clsState = clsStaging then w177.haul.staged else w177.haul.live)) ∧
    (3 = (if w177.clsState = clsStaging then w177.f F.CLS_STAGE_COUNT_EXACT 0 else w177.haul.live.nExact % 2 ^ 15)) ∧
    (4 = (if w177.clsState = clsStaging then w177.f F.CLS_STAGE_COUNT_TERN 0 else w177.haul.live.nTern % 2 ^ 10)) := by
  refine ⟨?_, ?_, ?_, ?_, ?_, ?_, ?_, ?_, ?_, ?_, ?_, ?_, ?_, ?_, ?_, ?_, ?_⟩ <;> decide +kernel

/-- States and operands that meet the hypotheses of the clauses of RuleCommands. -/
theorem test_meets_RuleCommands_4 :
    (w178.accepts 0 0x0031 = true) ∧
    (w178.mbxLen 0 = 0) ∧
    (w178.lockElsewhere 0 = false) ∧
    (w178.clsState = clsStaging) ∧
    (0 = w178.f F.CLS_STAGE_COUNT_EXACT 0) ∧
    (0 = w178.f F.CLS_STAGE_COUNT_TERN 0) ∧
    ((({} : Bank) : Bank) = { w178.haul.staged with nExact := 0, nTern := 0 }) ∧
    (w178.stageError (({} : Bank) : Bank) 0 0 = 0) ∧
    (w179.accepts 0 0x0031 = true) ∧
    (w179.mbxLen 0 = 0) ∧
    (w179.lockElsewhere 0 = false) ∧
    (w179.clsState = clsStaging) ∧
    (16385 = w179.f F.CLS_STAGE_COUNT_EXACT 0) ∧
    (0 = w179.f F.CLS_STAGE_COUNT_TERN 0) ∧
    (5 = w179.stageError { w179.haul.staged with nExact := 16385, nTern := 0 } 16385 0) ∧
    (5 ≠ 0) ∧
    (w180.accepts 0 0x0031 = true) ∧
    (w180.mbxLen 0 = 0) ∧
    (w180.lockElsewhere 0 = false) ∧
    (w180.clsState = clsStaging) ∧
    (2 = w180.f F.CLS_STAGE_COUNT_EXACT 0) ∧
    (0 = w180.f F.CLS_STAGE_COUNT_TERN 0) ∧
    (1 = w180.stageError { w180.haul.staged with nExact := 2, nTern := 0 } 2 0) ∧
    (1 ≠ 0) := by
  refine ⟨?_, ?_, ?_, ?_, ?_, ?_, ?_, ?_, ?_, ?_, ?_, ?_, ?_, ?_, ?_, ?_, ?_, ?_, ?_, ?_, ?_, ?_, ?_, ?_⟩ <;> decide +kernel

/-- States and operands that meet the hypotheses of the clauses of PortCommands. -/
theorem test_meets_PortCommands :
    (w181.accepts 0 0x0032 = true) ∧
    (w181.mbxLen 0 = 14) ∧
    (5 = byteAt (w181.mbxArgs 0) 0) ∧
    (5 ≤ 5) ∧
    (byteAt (w181.mbxArgs 0) 1 ≤ 2) ∧
    (byteAt (w181.mbxArgs 0) 2 ≤ 2) ∧
    (byteAt (w181.mbxArgs 0) 3 ≤ 2) ∧
    (byteAt (w181.mbxArgs 0) 4 ≤ 2) ∧
    (64 ≤ leAt (w181.mbxArgs 0) 5 2) ∧
    (leAt (w181.mbxArgs 0) 5 2 ≤ frameMax) ∧
    (byteAt (w181.mbxArgs 0) 13 ≤ 3) ∧
    ((w181.writeHaulPort (w181.mbxArgs 0)).haulLanesOk 5 = true) ∧
    (w182.accepts 0 0x0051 = true) ∧
    (w182.mbxLen 0 = 8 + byteAt (w182.mbxCommand 0) 14) ∧
    (w182.addressOk (w182.mbxArgs 0) = true) ∧
    (w182.device = leAt (w182.mbxArgs 0) 0 2) ∧
    (64 = byteAt (w182.mbxArgs 0) 2) ∧
    (w183.accepts 0 0x0051 = true) ∧
    (w183.mbxLen 0 = 8 + byteAt (w183.mbxCommand 0) 14) ∧
    (w183.addressOk (w183.mbxArgs 0) = true) ∧
    (w183.device = leAt (w183.mbxArgs 0) 0 2) ∧
    (0 = byteAt (w183.mbxArgs 0) 2) := by
  refine ⟨?_, ?_, ?_, ?_, ?_, ?_, ?_, ?_, ?_, ?_, ?_, ?_, ?_, ?_, ?_, ?_, ?_, ?_, ?_, ?_, ?_, ?_⟩ <;> decide +kernel

/-- States and operands that meet the hypotheses of the clauses of PortCommands. -/
theorem test_meets_PortCommands_2 :
    (w184.accepts 0 0x0051 = true) ∧
    (w184.mbxLen 0 = 8 + byteAt (w184.mbxCommand 0) 14) ∧
    (w184.addressOk (w184.mbxArgs 0) = true) ∧
    (w184.device ≠ leAt (w184.mbxArgs 0) 0 2) ∧
    (w184.codec.walls ≠ []) ∧
    (w185.accepts 0 0x0051 = true) ∧
    (w185.mbxLen 0 = 8 + byteAt (w185.mbxCommand 0) 14) ∧
    (w185.addressOk (w185.mbxArgs 0) = true) ∧
    (w185.device ≠ leAt (w185.mbxArgs 0) 0 2) ∧
    (w185.codec.walls = []) ∧
    (w186.accepts 0 0x0033 = true) ∧
    (w186.mbxLen 0 = 12) ∧
    ((w186.mbxArgs 0).length = 12) ∧
    (7 = byteAt (w186.mbxArgs 0) 0) ∧
    (w186.ingArgsOk (w186.mbxArgs 0) = true) ∧
    (byteAt (w186.mbxArgs 0) 1 ≠ 1) ∧
    (w187.accepts 0 0x0033 = true) ∧
    (12 ≤ w187.mbxLen 0) ∧
    (byteAt (w187.mbxArgs 0) 1 = 1) := by
  refine ⟨?_, ?_, ?_, ?_, ?_, ?_, ?_, ?_, ?_, ?_, ?_, ?_, ?_, ?_, ?_, ?_, ?_, ?_, ?_⟩ <;> decide +kernel

/-- States and operands that meet the hypotheses of the clauses of TrafficCommands. -/
theorem test_meets_TrafficCommands :
    (w188.accepts 0 0x0421 = true) ∧
    (w188.mbxLen 0 = 19) ∧
    (1023 = leAt (w188.mbxArgs 0) 0 2) ∧
    (1023 < 1024) ∧
    (byteAt (w188.mbxArgs 0) 2 ≤ 3) ∧
    (leAt (w188.mbxArgs 0) 3 4 ≤ leAt (w188.mbxArgs 0) 7 4) ∧
    (64 = leAt (w188.mbxArgs 0) 11 4) ∧
    (4294967295 = leAt (w188.mbxArgs 0) 15 4) ∧
    (64 ≤ 64) ∧
    (64 ≤ 4294967295) ∧
    (w189.accepts 0 0x0421 = true) ∧
    (w189.mbxLen 0 = 19) ∧
    (1023 = leAt (w189.mbxArgs 0) 0 2) ∧
    (1023 < 1024) ∧
    (byteAt (w189.mbxArgs 0) 2 ≤ 3) ∧
    (leAt (w189.mbxArgs 0) 3 4 ≤ leAt (w189.mbxArgs 0) 7 4) ∧
    (64 = leAt (w189.mbxArgs 0) 11 4) ∧
    (4294967295 = leAt (w189.mbxArgs 0) 15 4) ∧
    (64 ≤ 64) ∧
    (64 ≤ 4294967295) := by
  refine ⟨?_, ?_, ?_, ?_, ?_, ?_, ?_, ?_, ?_, ?_, ?_, ?_, ?_, ?_, ?_, ?_, ?_, ?_, ?_, ?_⟩ <;> decide +kernel

/-- States and operands that meet the hypotheses of the clauses of TrafficCommands. -/
theorem test_meets_TrafficCommands_2 :
    (w190.accepts 0 0x0422 = true) ∧
    (w190.mbxLen 0 = 10) ∧
    (5 = byteAt (w190.mbxArgs 0) 0) ∧
    (63 = byteAt (w190.mbxArgs 0) 1) ∧
    (9 = leAt (w190.mbxArgs 0) 2 4) ∧
    (16777215 = leAt (w190.mbxArgs 0) 6 4) ∧
    (5 ≤ 5) ∧
    (63 < 64) ∧
    (1 ≤ 16777215) ∧
    (16777215 < 2 ^ 24) ∧
    (w191.accepts 0 0x0422 = true) ∧
    (w191.mbxLen 0 = 10) ∧
    (5 = byteAt (w191.mbxArgs 0) 0) ∧
    (byteAt (w191.mbxArgs 0) 1 = 255) ∧
    (9 = leAt (w191.mbxArgs 0) 2 4) ∧
    (1 = leAt (w191.mbxArgs 0) 6 4) ∧
    (5 ≤ 5) ∧
    (1 ≤ 1) ∧
    (1 < 2 ^ 24) := by
  refine ⟨?_, ?_, ?_, ?_, ?_, ?_, ?_, ?_, ?_, ?_, ?_, ?_, ?_, ?_, ?_, ?_, ?_, ?_, ?_⟩ <;> decide +kernel

/-- States and operands that meet the hypotheses of the clauses of TrafficCommands. -/
theorem test_meets_TrafficCommands_3 :
    (w192.accepts 0 0x0423 = true) ∧
    (w192.mbxLen 0 = 12) ∧
    (byteAt (w192.mbxArgs 0) 0 ≤ 5) ∧
    (4 ≤ byteAt (w192.mbxArgs 0) 1) ∧
    (byteAt (w192.mbxArgs 0) 1 < 64) ∧
    (383 = 64 * byteAt (w192.mbxArgs 0) 0 + byteAt (w192.mbxArgs 0) 1) ∧
    (4096 = leAt (w192.mbxArgs 0) 2 2) ∧
    (1 ≤ 4096) ∧
    (4096 ≤ 4096) ∧
    (0 = leAt (w192.mbxArgs 0) 4 4) ∧
    (16777215 = leAt (w192.mbxArgs 0) 8 4) ∧
    (0 < 2 ^ 24) ∧
    (16777215 < 2 ^ 24) := by
  refine ⟨?_, ?_, ?_, ?_, ?_, ?_, ?_, ?_, ?_, ?_, ?_, ?_, ?_⟩ <;> decide +kernel

/-- States and operands that meet the hypotheses of the clauses of HewerCommands. -/
theorem test_meets_HewerCommands :
    (w193.accepts 0 0x0410 = true) ∧
    (w193.mbxLen 0 = 1) ∧
    (23 = byteAt (w193.mbxArgs 0) 0) ∧
    (23 < 24) ∧
    (w193.hwState 23 = hwIdle) ∧
    ((w193.hewer 23).drainFor = []) ∧
    (w194.accepts 0 0x0410 = true) ∧
    (w194.mbxLen 0 = 1) ∧
    (23 = byteAt (w194.mbxArgs 0) 0) ∧
    (23 < 24) ∧
    (w194.hwState 23 = hwRun ∨ w194.hwState 23 = hwDraining) ∧
    (w195.accepts 0 0x0410 = true) ∧
    (w195.mbxLen 0 = 1) ∧
    (23 = byteAt (w195.mbxArgs 0) 0) ∧
    (23 < 24) ∧
    (w195.hwState 23 = hwDrained ∨ w195.hwState 23 = hwFault) ∧
    (w196.accepts 0 0x0410 = true) ∧
    (w196.mbxLen 0 = 1) ∧
    (23 = byteAt (w196.mbxArgs 0) 0) ∧
    (23 < 24) ∧
    (w196.hwState 23 = hwDrained ∨ w196.hwState 23 = hwFault) := by
  refine ⟨?_, ?_, ?_, ?_, ?_, ?_, ?_, ?_, ?_, ?_, ?_, ?_, ?_, ?_, ?_, ?_, ?_, ?_, ?_, ?_, ?_⟩ <;> decide +kernel

/-- States and operands that meet the hypotheses of the clauses of HewerCommands. -/
theorem test_meets_HewerCommands_2 :
    (w197.accepts 0 0x0410 = true) ∧
    (w197.mbxLen 0 = 1) ∧
    (23 = byteAt (w197.mbxArgs 0) 0) ∧
    (23 < 24) ∧
    (w197.hwState 23 = hwOut) ∧
    (w198.accepts 0 0x0412 = true) ∧
    (w198.mbxLen 0 = 2) ∧
    (23 = byteAt (w198.mbxArgs 0) 0) ∧
    (23 < 24) ∧
    (byteAt (w198.mbxArgs 0) 1 = 0) ∧
    (w198.hwState 23 ∈ [hwOut, hwIdle, hwDrained, hwFault]) ∧
    ((w198.servesNow 23 = true → w198.chargeSum ≤ w198.limitFor (w198.inService - 1))) ∧
    (w199.accepts 0 0x0412 = true) ∧
    (w199.mbxLen 0 = 2) ∧
    (23 = byteAt (w199.mbxArgs 0) 0) ∧
    (23 < 24) ∧
    (byteAt (w199.mbxArgs 0) 1 = 0) ∧
    (w199.hwState 23 = hwRun ∨ w199.hwState 23 = hwDraining) ∧
    (w199.chargeSum ≤ w199.limitFor (w199.inService - 1)) := by
  refine ⟨?_, ?_, ?_, ?_, ?_, ?_, ?_, ?_, ?_, ?_, ?_, ?_, ?_, ?_, ?_, ?_, ?_, ?_, ?_⟩ <;> decide +kernel

/-- States and operands that meet the hypotheses of the clauses of HewerCommands. -/
theorem test_meets_HewerCommands_3 :
    (w200.accepts 0 0x0412 = true) ∧
    (w200.mbxLen 0 = 2) ∧
    (23 = byteAt (w200.mbxArgs 0) 0) ∧
    (23 < 24) ∧
    (byteAt (w200.mbxArgs 0) 1 = 1) ∧
    (w200.hwState 23 = hwOut ∨ w200.hwState 23 = hwFault) ∧
    (w200.partialPatch 23 = false) ∧
    (w201.accepts 0 0x0412 = true) ∧
    (w201.mbxLen 0 = 2) ∧
    (23 = byteAt (w201.mbxArgs 0) 0) ∧
    (23 < 24) ∧
    (byteAt (w201.mbxArgs 0) 1 = 1) ∧
    (w201.servesNow 23 = true) ∧
    (w202.accepts 0 0x0411 = true) ∧
    (23 = byteAt (w202.mbxArgs 0) 0) ∧
    (23 < 24) ∧
    (1 = byteAt (w202.mbxArgs 0) 1) ∧
    (1 ≤ 1) ∧
    (w202.mbxLen 0 = (if 1 = 1 then 12 else 4)) ∧
    ((w202.mbxArgs 0).length = w202.mbxLen 0) ∧
    (w202.hwState 23 = hwDrained ∨ w202.hwState 23 = hwOut) ∧
    ((∀ k, k < 24 → w202.hwState k ≠ hwPatching)) ∧
    (w202.lockElsewhere 3 = false) ∧
    (w202.namedPatch 1 (leAt (w202.mbxArgs 0) 2 2) (leAt (w202.mbxArgs 0) 4 8 % 2 ^ 40) = .ok (({} : PatchSet) : PatchSet)) := by
  refine ⟨?_, ?_, ?_, ?_, ?_, ?_, ?_, ?_, ?_, ?_, ?_, ?_, ?_, ?_, ?_, ?_, ?_, ?_, ?_, ?_, ?_, ?_, ?_, ?_⟩ <;> decide +kernel

/-- States and operands that meet the hypotheses of the clauses of HewerCommands. -/
theorem test_meets_HewerCommands_4 :
    (w203.accepts 0 0x0411 = true) ∧
    (23 = byteAt (w203.mbxArgs 0) 0) ∧
    (23 < 24) ∧
    (1 = byteAt (w203.mbxArgs 0) 1) ∧
    (1 ≤ 1) ∧
    (w203.mbxLen 0 = (if 1 = 1 then 12 else 4)) ∧
    ((w203.mbxArgs 0).length = w203.mbxLen 0) ∧
    (w203.hwState 23 = hwDrained ∨ w203.hwState 23 = hwOut) ∧
    ((∀ k, k < 24 → w203.hwState k ≠ hwPatching)) ∧
    (w203.namedPatch 1 (leAt (w203.mbxArgs 0) 2 2) (leAt (w203.mbxArgs 0) 4 8 % 2 ^ 40) = .error 0x12) ∧
    (w204.accepts 0 0x0042 = true) ∧
    (0 = byteAt (w204.mbxArgs 0) 0) ∧
    (0 ≤ 1) ∧
    (byteAt (w204.mbxArgs 0) 1 = 0) ∧
    (w204.mbxLen 0 = (if 0 = 1 then 12 else 4)) ∧
    ((w204.mbxArgs 0).length = w204.mbxLen 0) ∧
    (w204.codec.update = none) ∧
    (w204.chargeSum ≤ w204.limitFor (w204.inService - 1)) ∧
    (w204.lockElsewhere 3 = false) ∧
    (w204.namedPatch 0 (leAt (w204.mbxArgs 0) 2 2) (leAt (w204.mbxArgs 0) 4 8 % 2 ^ 40) = .ok (({} : PatchSet) : PatchSet)) ∧
    (allHewers.find? (fun k => w204.updates k) = some 23) := by
  refine ⟨?_, ?_, ?_, ?_, ?_, ?_, ?_, ?_, ?_, ?_, ?_, ?_, ?_, ?_, ?_, ?_, ?_, ?_, ?_, ?_, ?_⟩ <;> decide +kernel

/-- States and operands that meet the hypotheses of the clauses of HewerCommands. -/
theorem test_meets_HewerCommands_5 :
    (w205.accepts 0 0x0042 = true) ∧
    (0 = byteAt (w205.mbxArgs 0) 0) ∧
    (0 ≤ 1) ∧
    (byteAt (w205.mbxArgs 0) 1 = 0) ∧
    (w205.mbxLen 0 = (if 0 = 1 then 12 else 4)) ∧
    ((w205.mbxArgs 0).length = w205.mbxLen 0) ∧
    (w205.codec.update = none) ∧
    (w205.chargeSum ≤ w205.limitFor (w205.inService - 1)) ∧
    (w205.lockElsewhere 3 = false) ∧
    (w205.namedPatch 0 (leAt (w205.mbxArgs 0) 2 2) (leAt (w205.mbxArgs 0) 4 8 % 2 ^ 40) = .ok (({} : PatchSet) : PatchSet)) ∧
    (allHewers.find? (fun k => w205.updates k) = some 0) := by
  refine ⟨?_, ?_, ?_, ?_, ?_, ?_, ?_, ?_, ?_, ?_, ?_⟩ <;> decide +kernel

/-- States and operands that meet the hypotheses of the clauses of LaneAndMemoryCommands. -/
theorem test_meets_LaneAndMemoryCommands :
    (w206.accepts 0 0x0430 = true) ∧
    (w206.mbxLen 0 = 1 + 8 * 2) ∧
    ((w206.mbxArgs 0).length = w206.mbxLen 0) ∧
    (2 = byteAt (w206.mbxArgs 0) 0) ∧
    (1 ≤ 2) ∧
    (2 ≤ 16) ∧
    ((([[59, 2, 47, 0, 3, 131, 52, 255], [0, 1, 5, 0, 3, 0, 0, 15]] : List (List Byte)) : List (List Byte)) = (List.range 2).map (fun i => sliceOf (w206.mbxArgs 0) (1 + 8 * i) 8)) ∧
    ((([[59, 2, 47, 0, 3, 131, 52, 255], [0, 1, 5, 0, 3, 0, 0, 15]] : List (List Byte)) : List (List Byte)).all laneEntryOk = true) ∧
    ((chainAll (([[59, 2, 47, 0, 3, 131, 52, 255], [0, 1, 5, 0, 3, 0, 0, 15]] : List (List Byte)) : List (List Byte)) (fun e u => u.tryEntry e) w206).lanesLegal = true) ∧
    (((([[59, 2, 47, 0, 3, 131, 52, 255], [0, 1, 5, 0, 3, 0, 0, 15]] : List (List Byte)) : List (List Byte)).map (fun e => byteAt e 0)).Nodup) ∧
    (w207.accepts 0 0x0431 = true) ∧
    (w207.mbxLen 0 = 1) ∧
    (59 = byteAt (w207.mbxArgs 0) 0) ∧
    (59 ≤ 59) ∧
    (w208.accepts 0 0x0440 = true) ∧
    (w208.mbxLen 0 = 1) ∧
    (3 = byteAt (w208.mbxArgs 0) 0) ∧
    (3 < w208.channels) := by
  refine ⟨?_, ?_, ?_, ?_, ?_, ?_, ?_, ?_, ?_, ?_, ?_, ?_, ?_, ?_, ?_, ?_, ?_, ?_⟩ <;> decide +kernel

/-- States and operands that meet the hypotheses of the clauses of LaneAndMemoryCommands. -/
theorem test_meets_LaneAndMemoryCommands_2 :
    (w209.accepts 0 0x0441 = true) ∧
    (w209.mbxLen 0 = 2 + 3 * 1) ∧
    ((w209.mbxArgs 0).length = w209.mbxLen 0) ∧
    (1 = byteAt (w209.mbxArgs 0) 1) ∧
    (1 ≤ 1) ∧
    (1 ≤ 30) ∧
    (3 = byteAt (w209.mbxArgs 0) 0) ∧
    (3 < w209.channels) ∧
    ((([(17, 65535)] : List (Nat × Nat)) : List (Nat × Nat)) = (List.range 1).map (fun i => (byteAt (w209.mbxArgs 0) (2 + 3 * i), leAt (w209.mbxArgs 0) (3 + 3 * i) 2))) ∧
    ((∀ p ∈ (([(17, 65535)] : List (Nat × Nat)) : List (Nat × Nat)), p.1 ≤ 17 ∧ w209.timingMin 3 p.1 ≤ p.2)) ∧
    (w210.accepts 0 0x0441 = true) ∧
    (w210.mbxLen 0 = 2 + 3 * 2) ∧
    ((w210.mbxArgs 0).length = w210.mbxLen 0) ∧
    (2 = byteAt (w210.mbxArgs 0) 1) ∧
    (1 ≤ 2) ∧
    (2 ≤ 30) ∧
    (byteAt (w210.mbxArgs 0) 0 = 255) ∧
    ((([(0, 65535), (17, 65535)] : List (Nat × Nat)) : List (Nat × Nat)) = (List.range 2).map (fun i => (byteAt (w210.mbxArgs 0) (2 + 3 * i), leAt (w210.mbxArgs 0) (3 + 3 * i) 2))) ∧
    ((∀ c, c < w210.channels → ∀ p ∈ (([(0, 65535), (17, 65535)] : List (Nat × Nat)) : List (Nat × Nat)), p.1 ≤ 17 ∧ w210.timingMin c p.1 ≤ p.2)) := by
  refine ⟨?_, ?_, ?_, ?_, ?_, ?_, ?_, ?_, ?_, ?_, ?_, ?_, ?_, ?_, ?_, ?_, ?_, ?_, ?_⟩ <;> decide +kernel

/-- States and operands that meet the hypotheses of the clauses of SyncEvents. -/
theorem test_meets_SyncEvents :
    (3 < 4) ∧
    (w2.f F.LMP_GRID_STATUS_EN 3 ≠ 1) ∧
    (3 < 4) ∧
    (w211.f F.LMP_GRID_STATUS_EN 3 = 1) ∧
    (257 = (w211.grid 3).k) ∧
    (0 < 4) ∧
    (w212.f F.LMP_GRID_STATUS_EN 0 = 1) ∧
    (9 = (w212.grid 0).k) ∧
    (3 < 4) ∧
    (w213.f F.LMP_GRID_STATUS_EN 3 = 1) ∧
    (47 < 48) ∧
    (w213.f F.LMP_PORT_CTRL_SHADOW_ARMED 47 = 1) ∧
    ((if (w213.port 47).en then (w213.port 47).grid else w213.f F.LMP_PORT_CTRL_GRID 47) = 3) ∧
    (3 < 4) ∧
    (w214.f F.LMP_GRID_STATUS_EN 3 = 1) ∧
    (63 < 64) ∧
    (w214.f F.RIV_CH_CTRL_SHADOW_ARMED 63 = 1) ∧
    (w214.chanGrid 63 = 3) ∧
    (3 < 4) ∧
    (w215.f F.LMP_GRID_STATUS_EN 3 = 1) ∧
    (47 < 64) ∧
    (w215.f F.RIV_CH_CTRL_SHADOW_ARMED 47 = 1) ∧
    (w215.chanGrid 47 = 3) := by
  refine ⟨?_, ?_, ?_, ?_, ?_, ?_, ?_, ?_, ?_, ?_, ?_, ?_, ?_, ?_, ?_, ?_, ?_, ?_, ?_, ?_, ?_, ?_, ?_⟩ <;> decide +kernel

/-- States and operands that meet the hypotheses of the clauses of SyncEvents. -/
theorem test_meets_SyncEvents_2 :
    (3 < 4) ∧
    (w211.f F.LMP_GRID_STATUS_EN 3 = 1) ∧
    (3 < 4) ∧
    (w216.f F.LMP_GRID_STATUS_EN 3 = 1) ∧
    (47 ∈ w216.gridPorts 3) ∧
    ((w216.chan 47).current ≠ none) ∧
    ((w216.chan 47).apply = (w216.wall (w216.grid 3).wall).sync (w216.grid 3).k) ∧
    (2 = ((w216.chan 47).strips.filter (fun x => !x.late)).length) ∧
    (3 < 4) ∧
    ((w217.grid 3).used = true) ∧
    (w217.f F.LMP_GRID_STATUS_EN 3 ≠ 1) ∧
    (w217.fw.ptp = [] ∨ w217.fw.ptpMaster = true ∨ w217.f F.CLK_EVENT_PTP_LOCKED 0 = 1) ∧
    ((w217.grid 3).t0 ≤ w217.now) ∧
    (w217.stage = 4) ∧
    (3 < 4) ∧
    (w218.fw.ptp ≠ []) ∧
    (w218.fw.ptpMaster = false) ∧
    (w218.f F.CLK_EVENT_PTP_LOCKED 0 ≠ 1) := by
  refine ⟨?_, ?_, ?_, ?_, ?_, ?_, ?_, ?_, ?_, ?_, ?_, ?_, ?_, ?_, ?_, ?_, ?_, ?_⟩ <;> decide +kernel

/-- States and operands that meet the hypotheses of the clauses of LampPortEvents. -/
theorem test_meets_LampPortEvents :
    (47 < 48) ∧
    ((w219.port 47).frame = none) ∧
    (w219.portLegal fnLamp 47 = true) ∧
    ((w219.port 47).en = true) ∧
    ((w219.port 47).blankNext = true) ∧
    (w219.frameFits 47 0 = true) ∧
    ((([0x28, 0xFF, 0, 0, 0, 0, 0, 0] : List Byte) : List Byte) = [0x28, 0xFF, BitVec.ofNat 8 (w219.sfcAt 47 (w219.now + 1)), 0, 0, 0, 0, 0]) ∧
    (47 < 48) ∧
    ((w220.port 47).frame = none) ∧
    (w220.portLegal fnLamp 47 = true) ∧
    ((w220.port 47).en = true) ∧
    ((w220.port 47).blankNext = false) ∧
    ((w220.port 47).safe = false) ∧
    ((w220.chan 47).strips = (({ position := 9, row := 3, lamps := 8, obM10 := 0, data := List.replicate 30 7, ready := true, begun := true, done := 10 } : Strip) : Strip) :: (([{}] : List Strip) : List Strip)) ∧
    ((({ position := 9, row := 3, lamps := 8, obM10 := 0, data := List.replicate 30 7, ready := true, begun := true, done := 10 } : Strip) : Strip).ready = true) ∧
    (20 = min 8192 ((({ position := 9, row := 3, lamps := 8, obM10 := 0, data := List.replicate 30 7, ready := true, begun := true, done := 10 } : Strip) : Strip).data.length - (({ position := 9, row := 3, lamps := 8, obM10 := 0, data := List.replicate 30 7, ready := true, begun := true, done := 10 } : Strip) : Strip).done)) ∧
    (w220.frameFits 47 (sliceOf (({ position := 9, row := 3, lamps := 8, obM10 := 0, data := List.replicate 30 7, ready := true, begun := true, done := 10 } : Strip) : Strip).data (({ position := 9, row := 3, lamps := 8, obM10 := 0, data := List.replicate 30 7, ready := true, begun := true, done := 10 } : Strip) : Strip).done 20).length = true) ∧
    (((([BitVec.ofNat 8 16, BitVec.ofNat 8 9, BitVec.ofNat 8 0, BitVec.ofNat 8 3] ++ beBytes 2 0 ++ beBytes 2 7 ++ List.replicate 20 7) : List Byte) : List Byte) = [BitVec.ofNat 8 ((if (({ position := 9, row := 3, lamps := 8, obM10 := 0, data := List.replicate 30 7, ready := true, begun := true, done := 10 } : Strip) : Strip).done + 20 = (({ position := 9, row := 3, lamps := 8, obM10 := 0, data := List.replicate 30 7, ready := true, begun := true, done := 10 } : Strip) : Strip).data.length then 16 else 0) + (({ position := 9, row := 3, lamps := 8, obM10 := 0, data := List.replicate 30 7, ready := true, begun := true, done := 10 } : Strip) : Strip).obM10), BitVec.ofNat 8 (({ position := 9, row := 3, lamps := 8, obM10 := 0, data := List.replicate 30 7, ready := true, begun := true, done := 10 } : Strip) : Strip).position, BitVec.ofNat 8 (w220.sfcAt 47 (w220.chan 47).apply), BitVec.ofNat 8 (({ position := 9, row := 3, lamps := 8, obM10 := 0, data := List.replicate 30 7, ready := true, begun := true, done := 10 } : Strip) : Strip).row] ++ beBytes 2 ((({ position := 9, row := 3, lamps := 8, obM10 := 0, data := List.replicate 30 7, ready := true, begun := true, done := 10 } : Strip) : Strip).done / 64) ++ beBytes 2 ((({ position := 9, row := 3, lamps := 8, obM10 := 0, data := List.replicate 30 7, ready := true, begun := true, done := 10 } : Strip) : Strip).lamps - 1) ++ sliceOf (({ position := 9, row := 3, lamps := 8, obM10 := 0, data := List.replicate 30 7, ready := true, begun := true, done := 10 } : Strip) : Strip).data (({ position := 9, row := 3, lamps := 8, obM10 := 0, data := List.replicate 30 7, ready := true, begun := true, done := 10 } : Strip) : Strip).done 20) := by
  refine ⟨?_, ?_, ?_, ?_, ?_, ?_, ?_, ?_, ?_, ?_, ?_, ?_, ?_, ?_, ?_, ?_, ?_, ?_⟩ <;> decide +kernel

/-- States and operands that meet the hypotheses of the clauses of LampPortEvents. -/
theorem test_meets_LampPortEvents_2 :
    (47 < 48) ∧
    ((w221.port 47).frame = none) ∧
    (w221.portLegal fnLamp 47 = true) ∧
    ((w221.port 47).en = true) ∧
    ((w221.port 47).blankNext = false) ∧
    ((w221.port 47).safe = false) ∧
    (w221.frameFits 47 ((frameBytes (.control 1 2 [9] : PortFrame)).length - 8) = true) ∧
    (47 < 48) ∧
    ((w222.port 47).frame = none) ∧
    ((w222.port 47).inGap = true) ∧
    (w222.portWall 47 ≠ none) ∧
    (47 < 48) ∧
    ((w223.port 47).frame = some ((List.replicate 22 0 : List Byte) : List Byte)) ∧
    (frameType ((List.replicate 22 0 : List Byte) : List Byte) = 0) ∧
    ((w223.chan 47).strips = (({ position := 9, row := 3, lamps := 8, obM10 := 0, data := List.replicate 30 7, ready := true, begun := true, done := 10 } : Strip) : Strip) :: (([{}] : List Strip) : List Strip)) ∧
    (47 < 48) ∧
    ((w224.port 47).frame = some ((List.replicate 32 0 : List Byte) : List Byte)) ∧
    (frameType ((List.replicate 32 0 : List Byte) : List Byte) = 0) ∧
    ((w224.chan 47).strips = (({ position := 9, row := 3, lamps := 8, obM10 := 0, data := List.replicate 30 7, ready := true, begun := true, done := 10 } : Strip) : Strip) :: (([] : List Strip) : List Strip)) ∧
    (47 < 48) ∧
    ((w225.port 47).frame = some ((0x28 :: 0xFF :: List.replicate 10 0) : List Byte)) ∧
    (isBlankNow ((0x28 :: 0xFF :: List.replicate 10 0) : List Byte) = true) := by
  refine ⟨?_, ?_, ?_, ?_, ?_, ?_, ?_, ?_, ?_, ?_, ?_, ?_, ?_, ?_, ?_, ?_, ?_, ?_, ?_, ?_, ?_, ?_⟩ <;> decide +kernel

/-- States and operands that meet the hypotheses of the clauses of LampPortEvents. -/
theorem test_meets_LampPortEvents_3 :
    (47 < 48) ∧
    ((w226.port 47).frame = some ((0x40 :: List.replicate 11 0) : List Byte)) ∧
    (isBlankNow ((0x40 :: List.replicate 11 0) : List Byte) = false) ∧
    (frameType ((0x40 :: List.replicate 11 0) : List Byte) ≠ 0) ∧
    (47 < 48) ∧
    (((w2.port 47).en = false ∨ w2.portBlind fnLamp 47 = true)) ∧
    (47 < 48) ∧
    (((w227.port 47).en = false ∨ w227.portBlind fnLamp 47 = true)) ∧
    (47 < 48) ∧
    (12 ≤ (([0x40, 0, 0, 0, 0, 0, 0, 0] ++ beBytes 4 (crc32 [0x40, 0, 0, 0, 0, 0, 0, 0])) : List Byte).length) ∧
    (beAt (([0x40, 0, 0, 0, 0, 0, 0, 0] ++ beBytes 4 (crc32 [0x40, 0, 0, 0, 0, 0, 0, 0])) : List Byte) ((([0x40, 0, 0, 0, 0, 0, 0, 0] ++ beBytes 4 (crc32 [0x40, 0, 0, 0, 0, 0, 0, 0])) : List Byte).length - 4) 4 = crc32 ((([0x40, 0, 0, 0, 0, 0, 0, 0] ++ beBytes 4 (crc32 [0x40, 0, 0, 0, 0, 0, 0, 0])) : List Byte).take ((([0x40, 0, 0, 0, 0, 0, 0, 0] ++ beBytes 4 (crc32 [0x40, 0, 0, 0, 0, 0, 0, 0])) : List Byte).length - 4))) ∧
    (frameType (([0x40, 0, 0, 0, 0, 0, 0, 0] ++ beBytes 4 (crc32 [0x40, 0, 0, 0, 0, 0, 0, 0])) : List Byte) ≠ 3) ∧
    (47 < 48) ∧
    ((w221.port 47).en = true) ∧
    (w221.portBlind fnLamp 47 = false) ∧
    (((List.replicate 12 1 : List Byte) : List Byte).length < 12 ∨ beAt ((List.replicate 12 1 : List Byte) : List Byte) (((List.replicate 12 1 : List Byte) : List Byte).length - 4) 4 ≠ crc32 (((List.replicate 12 1 : List Byte) : List Byte).take (((List.replicate 12 1 : List Byte) : List Byte).length - 4))) ∧
    (47 < 48) ∧
    ((w228.port 47).en = true) ∧
    (w228.portBlind fnLamp 47 = false) ∧
    ((([] : List Byte) : List Byte).length < 12 ∨ beAt (([] : List Byte) : List Byte) ((([] : List Byte) : List Byte).length - 4) 4 ≠ crc32 ((([] : List Byte) : List Byte).take ((([] : List Byte) : List Byte).length - 4))) := by
  refine ⟨?_, ?_, ?_, ?_, ?_, ?_, ?_, ?_, ?_, ?_, ?_, ?_, ?_, ?_, ?_, ?_, ?_, ?_, ?_, ?_⟩ <;> decide +kernel

/-- States and operands that meet the hypotheses of the clauses of LampPortEvents. -/
theorem test_meets_LampPortEvents_4 :
    (47 < 48) ∧
    ((w229.port 47).en = true) ∧
    (w229.portBlind fnLamp 47 = false) ∧
    (12 ≤ (([0x60, 0, 0, 0, 0, 0, 0, 0] ++ beBytes 4 (crc32 [0x60, 0, 0, 0, 0, 0, 0, 0]) : List Byte) : List Byte).length) ∧
    ((([0x60, 0, 0, 0, 0, 0, 0, 0] ++ beBytes 4 (crc32 [0x60, 0, 0, 0, 0, 0, 0, 0]) : List Byte) : List Byte).length ≤ 260) ∧
    (beAt (([0x60, 0, 0, 0, 0, 0, 0, 0] ++ beBytes 4 (crc32 [0x60, 0, 0, 0, 0, 0, 0, 0]) : List Byte) : List Byte) ((([0x60, 0, 0, 0, 0, 0, 0, 0] ++ beBytes 4 (crc32 [0x60, 0, 0, 0, 0, 0, 0, 0]) : List Byte) : List Byte).length - 4) 4 = crc32 ((([0x60, 0, 0, 0, 0, 0, 0, 0] ++ beBytes 4 (crc32 [0x60, 0, 0, 0, 0, 0, 0, 0]) : List Byte) : List Byte).take ((([0x60, 0, 0, 0, 0, 0, 0, 0] ++ beBytes 4 (crc32 [0x60, 0, 0, 0, 0, 0, 0, 0]) : List Byte) : List Byte).length - 4))) ∧
    (byteAt (([0x60, 0, 0, 0, 0, 0, 0, 0] ++ beBytes 4 (crc32 [0x60, 0, 0, 0, 0, 0, 0, 0]) : List Byte) : List Byte) 0 / 32 = 3) ∧
    (4159 = 4112 + 47) ∧
    (w229.queueOn 4159 = true) ∧
    (w229.queueSpills 4159 = false) ∧
    ((({ kind := 0, first := true, last := true, data := [0x60, 0, 0, 0, 0, 0, 0, 0] } : Item) : Item) = { kind := 0, first := true, last := true, data := (([0x60, 0, 0, 0, 0, 0, 0, 0] ++ beBytes 4 (crc32 [0x60, 0, 0, 0, 0, 0, 0, 0]) : List Byte) : List Byte).take ((([0x60, 0, 0, 0, 0, 0, 0, 0] ++ beBytes 4 (crc32 [0x60, 0, 0, 0, 0, 0, 0, 0]) : List Byte) : List Byte).length - 4) }) ∧
    ((w229.queue 4159).used + (({ kind := 0, first := true, last := true, data := [0x60, 0, 0, 0, 0, 0, 0, 0] } : Item) : Item).size ≤ 512) ∧
    (47 < 48) ∧
    (w2.chainOf 47 = none) ∧
    (47 < 48) ∧
    (w230.chainOf 47 = some (0, (({ bound := true, portB := 47, wall := 1, n := 64 } : Chain) : Chain))) ∧
    (((({ bound := true, portB := 47, wall := 1, n := 64 } : Chain) : Chain).dual = false ∨ 0 % 128 = 0 ∨ (({ bound := true, portB := 47, wall := 1, n := 64 } : Chain) : Chain).n < 0 % 128 ∨ (if 128 ≤ 0 % 256 then 0 % 128 else 0 % 128 - 1) ∈ (({ bound := true, portB := 47, wall := 1, n := 64 } : Chain) : Chain).cuts)) ∧
    (47 < 48) ∧
    (w231.chainOf 47 = some (0, (({ bound := true, portB := 47, wall := 1, n := 64, cuts := [3] } : Chain) : Chain))) ∧
    (((({ bound := true, portB := 47, wall := 1, n := 64, cuts := [3] } : Chain) : Chain).dual = false ∨ 4 % 128 = 0 ∨ (({ bound := true, portB := 47, wall := 1, n := 64, cuts := [3] } : Chain) : Chain).n < 4 % 128 ∨ (if 128 ≤ 4 % 256 then 4 % 128 else 4 % 128 - 1) ∈ (({ bound := true, portB := 47, wall := 1, n := 64, cuts := [3] } : Chain) : Chain).cuts)) := by
  refine ⟨?_, ?_, ?_, ?_, ?_, ?_, ?_, ?_, ?_, ?_, ?_, ?_, ?_, ?_, ?_, ?_, ?_, ?_, ?_, ?_⟩ <;> decide +kernel

/-- States and operands that meet the hypotheses of the clauses of LampPortEvents. -/
theorem test_meets_LampPortEvents_5 :
    (47 < 48) ∧
    (w230.chainOf 47 = some (0, (({ bound := true, portB := 47, wall := 1, n := 64 } : Chain) : Chain))) ∧
    (w230.chain 0 = (({ bound := true, portB := 47, wall := 1, n := 64 } : Chain) : Chain)) ∧
    (0 < 48) ∧
    (47 = (({ bound := true, portB := 47, wall := 1, n := 64 } : Chain) : Chain).portB) ∧
    (47 < 48) ∧
    (0 ≠ 47) ∧
    (1 ≤ 192 % 128) ∧
    (192 % 128 ≤ (({ bound := true, portB := 47, wall := 1, n := 64 } : Chain) : Chain).n) ∧
    ((({ bound := true, portB := 47, wall := 1, n := 64 } : Chain) : Chain).cuts = []) ∧
    (64 = (if 128 ≤ 192 % 256 then 192 % 128 else 192 % 128 - 1)) ∧
    (0 < 48) ∧
    (w230.chainOf 0 = some (0, (({ bound := true, portB := 47, wall := 1, n := 64 } : Chain) : Chain))) ∧
    (w230.chain 0 = (({ bound := true, portB := 47, wall := 1, n := 64 } : Chain) : Chain)) ∧
    (0 < 48) ∧
    (47 = (({ bound := true, portB := 47, wall := 1, n := 64 } : Chain) : Chain).portB) ∧
    (47 < 48) ∧
    (0 ≠ 47) ∧
    (1 ≤ 257 % 128) ∧
    (257 % 128 ≤ (({ bound := true, portB := 47, wall := 1, n := 64 } : Chain) : Chain).n) ∧
    ((({ bound := true, portB := 47, wall := 1, n := 64 } : Chain) : Chain).cuts = []) ∧
    (0 = (if 128 ≤ 257 % 256 then 257 % 128 else 257 % 128 - 1)) := by
  refine ⟨?_, ?_, ?_, ?_, ?_, ?_, ?_, ?_, ?_, ?_, ?_, ?_, ?_, ?_, ?_, ?_, ?_, ?_, ?_, ?_, ?_, ?_⟩ <;> decide +kernel

/-- States and operands that meet the hypotheses of the clauses of LampPortEvents. -/
theorem test_meets_LampPortEvents_6 :
    (47 < 48) ∧
    (w231.chainOf 47 = some (0, (({ bound := true, portB := 47, wall := 1, n := 64, cuts := [3] } : Chain) : Chain))) ∧
    (w231.chain 0 = (({ bound := true, portB := 47, wall := 1, n := 64, cuts := [3] } : Chain) : Chain)) ∧
    (0 < 48) ∧
    ((({ bound := true, portB := 47, wall := 1, n := 64, cuts := [3] } : Chain) : Chain).portB < 48) ∧
    (1 ≤ 3 % 128) ∧
    (3 % 128 ≤ (({ bound := true, portB := 47, wall := 1, n := 64, cuts := [3] } : Chain) : Chain).n) ∧
    ((({ bound := true, portB := 47, wall := 1, n := 64, cuts := [3] } : Chain) : Chain).cuts ≠ []) ∧
    (2 = (if 128 ≤ 3 % 256 then 3 % 128 else 3 % 128 - 1)) ∧
    (2 ∉ (({ bound := true, portB := 47, wall := 1, n := 64, cuts := [3] } : Chain) : Chain).cuts) ∧
    (47 < 48) ∧
    (w232.portBlind fnLamp 47 = true) ∧
    (47 < 48) ∧
    (w233.portBlind fnLamp 47 = false) ∧
    (0 < 48) ∧
    (w2.portBlind fnLamp 0 = false) ∧
    (47 < 48) ∧
    (w2.portBlind fnLamp 47 = false) ∧
    (w234.writeOk (Origin.f0 : Origin) .DRS_LUT_DATA 0 = true) ∧
    (w2.writeOk (Origin.cpN : Origin) .DRS_LUT_DATA 0 = true) ∧
    (w235.readOk (Origin.f0 : Origin) .DRS_LUT_DATA 0 = true) ∧
    (w2.readOk (Origin.cpN : Origin) .DRS_LUT_DATA 0 = true) := by
  refine ⟨?_, ?_, ?_, ?_, ?_, ?_, ?_, ?_, ?_, ?_, ?_, ?_, ?_, ?_, ?_, ?_, ?_, ?_, ?_, ?_, ?_, ?_⟩ <;> decide +kernel

/-- States and operands that meet the hypotheses of the clauses of RivingEvents. -/
theorem test_meets_RivingEvents :
    (0 < 64) ∧
    (w236.bandCanStart 0 = true) ∧
    ((w236.chan 0).bands = (({ ctx := 0, slice := 0, picture := 2, desc := 1, positions := [1], strips := 1 } : Band) : Band) :: (([{}] : List Band) : List Band)) ∧
    (0 < 64) ∧
    (w236.bandCanStart 0 = true) ∧
    ((w236.chan 0).bands = (({ ctx := 0, slice := 0, picture := 2, desc := 1, positions := [1], strips := 1 } : Band) : Band) :: (([{}] : List Band) : List Band)) ∧
    (0 < 64) ∧
    (w237.bandCanStart 0 = false ∨ (w237.chan 0).bands = []) ∧
    (0 < 64) ∧
    (w238.bandCanStart 0 = false ∨ (w238.chan 0).bands = []) ∧
    (0 < 64) ∧
    (w236.bandCanStart 0 = true) ∧
    ((w236.chan 0).bands = (({ ctx := 0, slice := 0, picture := 2, desc := 1, positions := [1], strips := 1 } : Band) : Band) :: (([{}] : List Band) : List Band)) ∧
    ((({ ctx := 0, slice := 0, picture := 2, desc := 1, positions := [1], strips := 1 } : Band) : Band).positions = 1 :: (([] : List Nat) : List Nat)) ∧
    ((([1, 0, 0, 0, 1, 0, 0, 0, 0, 0x20] ++ List.replicate 54 0 : List Byte) : List Byte) = w236.cabinet (w236.chan 0).table (1 - 1)) ∧
    (w236.bandStrips (w236.chan 0).table (1 - 1) (({ ctx := 0, slice := 0, picture := 2, desc := 1, positions := [1], strips := 1 } : Band) : Band).ctx (({ ctx := 0, slice := 0, picture := 2, desc := 1, positions := [1], strips := 1 } : Band) : Band).slice = (([0, 0, 1, 0, 0, 0, 0, 0, 0, 0x30, 0, 0, 0, 0, 0, 0] : List Byte) : List Byte) :: (([] : List (List Byte)) : List (List Byte))) ∧
    (w236.stripOfRow (([1, 0, 0, 0, 1, 0, 0, 0, 0, 0x20] ++ List.replicate 54 0 : List Byte) : List Byte) (stripRow (([0, 0, 1, 0, 0, 0, 0, 0, 0, 0x30, 0, 0, 0, 0, 0, 0] : List Byte) : List Byte)) = some (([0, 0, 1, 0, 0, 0, 0, 0, 0, 0x30, 0, 0, 0, 0, 0, 0] : List Byte) : List Byte)) ∧
    (63 < 64) ∧
    ((w239.chan 63).bursts = (({ addr := 640 } : Burst) : Burst) :: (([{}] : List Burst) : List Burst)) ∧
    ((w239.chan 63).level < 16384) ∧
    (63 < 64) ∧
    ((w240.chan 63).bursts = (({ beats := 4 } : Burst) : Burst) :: (([] : List Burst) : List Burst)) ∧
    ((w240.chan 63).level < 16384) := by
  refine ⟨?_, ?_, ?_, ?_, ?_, ?_, ?_, ?_, ?_, ?_, ?_, ?_, ?_, ?_, ?_, ?_, ?_, ?_, ?_, ?_, ?_, ?_, ?_⟩ <;> decide +kernel

/-- States and operands that meet the hypotheses of the clauses of RivingEvents. -/
theorem test_meets_RivingEvents_2 :
    (63 < 64) ∧
    (((w2.chan 63).bursts = [] ∨ 16384 ≤ (w2.chan 63).level)) ∧
    (63 < 64) ∧
    ((w241.chan 63).flying = (({ beats := 4, got := 2 } : Burst) : Burst) :: (([{}] : List Burst) : List Burst)) ∧
    ((({ beats := 4, got := 2 } : Burst) : Burst).got + 1 < (({ beats := 4, got := 2 } : Burst) : Burst).beats) ∧
    (63 < 64) ∧
    ((w242.chan 63).flying = [(({ addr := 2 ^ 36, beats := 2, got := 1 } : Burst) : Burst)]) ∧
    ((w242.chan 63).bursts = []) ∧
    ((({ addr := 2 ^ 36, beats := 2, got := 1 } : Burst) : Burst).beats ≤ (({ addr := 2 ^ 36, beats := 2, got := 1 } : Burst) : Burst).got + 1) ∧
    ((({ addr := 2 ^ 36, beats := 2, got := 1 } : Burst) : Burst).dead = false) ∧
    ((({ addr := 2 ^ 36, beats := 2, got := 1 } : Burst) : Burst).error = false) ∧
    ((({ addr := 2 ^ 36, beats := 2, got := 1 } : Burst) : Burst).poison = false) ∧
    ((BeatResp.ok : BeatResp) ≠ .error) ∧
    ((BeatResp.ok : BeatResp) ≠ .poison) ∧
    ((({ begun := true, data := [1] } : Strip) : Strip) ∈ (w242.chan 63).strips) ∧
    ((({ begun := true, data := [1] } : Strip) : Strip).begun = true) ∧
    ((∀ z ∈ (w242.chan 63).strips, z.ue = false ∧ z.ce = false)) ∧
    (63 < 64) ∧
    ((w243.chan 63).flying = (({ addr := 2 ^ 36, beats := 2, got := 1 } : Burst) : Burst) :: (([{}] : List Burst) : List Burst)) ∧
    ((({ addr := 2 ^ 36, beats := 2, got := 1 } : Burst) : Burst).beats ≤ (({ addr := 2 ^ 36, beats := 2, got := 1 } : Burst) : Burst).got + 1) ∧
    ((({ addr := 2 ^ 36, beats := 2, got := 1 } : Burst) : Burst).dead = false) ∧
    ((({ addr := 2 ^ 36, beats := 2, got := 1 } : Burst) : Burst).error = true ∨ (({ addr := 2 ^ 36, beats := 2, got := 1 } : Burst) : Burst).poison = true ∨ (BeatResp.error : BeatResp) = .error ∨ (BeatResp.error : BeatResp) = .poison) ∧
    ((({ addr := 2 ^ 36, beats := 2, got := 1 } : Burst) : Burst).retries < (w243.chan 63).retryLimit) := by
  refine ⟨?_, ?_, ?_, ?_, ?_, ?_, ?_, ?_, ?_, ?_, ?_, ?_, ?_, ?_, ?_, ?_, ?_, ?_, ?_, ?_, ?_, ?_, ?_⟩ <;> decide +kernel

/-- States and operands that meet the hypotheses of the clauses of RivingEvents. -/
theorem test_meets_RivingEvents_3 :
    (63 < 64) ∧
    ((w244.chan 63).flying = (({ poison := true, retries := 2 } : Burst) : Burst) :: (([] : List Burst) : List Burst)) ∧
    ((({ poison := true, retries := 2 } : Burst) : Burst).beats ≤ (({ poison := true, retries := 2 } : Burst) : Burst).got + 1) ∧
    ((({ poison := true, retries := 2 } : Burst) : Burst).dead = false) ∧
    ((({ poison := true, retries := 2 } : Burst) : Burst).error = true ∨ (({ poison := true, retries := 2 } : Burst) : Burst).poison = true ∨ (BeatResp.ok : BeatResp) = .error ∨ (BeatResp.ok : BeatResp) = .poison) ∧
    ((({ poison := true, retries := 2 } : Burst) : Burst).retries < (w244.chan 63).retryLimit) ∧
    (63 < 64) ∧
    ((w245.chan 63).flying = (({ addr := 2 ^ 39 + 64, retries := 3 } : Burst) : Burst) :: (([{}] : List Burst) : List Burst)) ∧
    ((({ addr := 2 ^ 39 + 64, retries := 3 } : Burst) : Burst).beats ≤ (({ addr := 2 ^ 39 + 64, retries := 3 } : Burst) : Burst).got + 1) ∧
    ((({ addr := 2 ^ 39 + 64, retries := 3 } : Burst) : Burst).dead = false) ∧
    ((({ addr := 2 ^ 39 + 64, retries := 3 } : Burst) : Burst).error = true ∨ (BeatResp.error : BeatResp) = .error) ∧
    ((w245.chan 63).retryLimit ≤ (({ addr := 2 ^ 39 + 64, retries := 3 } : Burst) : Burst).retries) ∧
    (0 < 64) ∧
    ((w246.chan 0).flying = (({ error := true } : Burst) : Burst) :: (([] : List Burst) : List Burst)) ∧
    ((({ error := true } : Burst) : Burst).beats ≤ (({ error := true } : Burst) : Burst).got + 1) ∧
    ((({ error := true } : Burst) : Burst).dead = false) ∧
    ((({ error := true } : Burst) : Burst).error = true ∨ (BeatResp.ok : BeatResp) = .error) ∧
    ((w246.chan 0).retryLimit ≤ (({ error := true } : Burst) : Burst).retries) := by
  refine ⟨?_, ?_, ?_, ?_, ?_, ?_, ?_, ?_, ?_, ?_, ?_, ?_, ?_, ?_, ?_, ?_, ?_, ?_⟩ <;> decide +kernel

/-- States and operands that meet the hypotheses of the clauses of RivingEvents. -/
theorem test_meets_RivingEvents_4 :
    (63 < 64) ∧
    ((w247.chan 63).flying = [(({ retries := 7 } : Burst) : Burst)]) ∧
    ((({ retries := 7 } : Burst) : Burst).beats ≤ (({ retries := 7 } : Burst) : Burst).got + 1) ∧
    ((({ retries := 7 } : Burst) : Burst).dead = false) ∧
    ((({ retries := 7 } : Burst) : Burst).error = false) ∧
    ((w247.chan 63).retryLimit ≤ (({ retries := 7 } : Burst) : Burst).retries) ∧
    ((∀ z ∈ (w247.chan 63).strips, z.ue = false ∧ z.ce = false)) ∧
    (63 < 64) ∧
    (w248.writeOk (Origin.f0 : Origin) .RIV_CH_CTRL 63 = true) ∧
    ((0xFFFFFFFF : Word).toNat.testBit 2 = true) ∧
    (w248.f F.RIV_CH_STATUS_STATE 63 = 4) ∧
    (0 < 64) ∧
    (w249.writeOk (Origin.cpN : Origin) .RIV_CH_CTRL 0 = true) ∧
    ((4 : Word).toNat.testBit 2 = true) ∧
    (w249.f F.RIV_CH_STATUS_STATE 0 = 4) ∧
    (63 < 64) ∧
    (w2.writeOk (Origin.cpN : Origin) .RIV_CH_CTRL 63 = true) ∧
    (w2.f F.RIV_CH_STATUS_STATE 63 ≠ 4) := by
  refine ⟨?_, ?_, ?_, ?_, ?_, ?_, ?_, ?_, ?_, ?_, ?_, ?_, ?_, ?_, ?_, ?_, ?_, ?_⟩ <;> decide +kernel

/-- States and operands that meet the hypotheses of the clauses of SliceEvents. -/
theorem test_meets_SliceEvents :
    (23 < 24) ∧
    (w2.hwState 23 ≠ hwIdle ∨ w2.f F.SCH_CTRL_DISPATCH_EN 0 ≠ 1 ∨ w2.fatal = true) ∧
    (23 < 24) ∧
    (w250.hwState 23 ≠ hwIdle ∨ w250.f F.SCH_CTRL_DISPATCH_EN 0 ≠ 1 ∨ w250.fatal = true) ∧
    (23 < 24) ∧
    (w251.hwState 23 = hwIdle) ∧
    (w251.f F.SCH_CTRL_DISPATCH_EN 0 = 1) ∧
    (w251.fatal = false) ∧
    (w251.keyAlarm.choice = some (({ ctx := 4095, picture := 3, slice := 1, deadline := 5 } : Ready) : Ready)) ∧
    (23 < 24) ∧
    (w252.hwState 23 = hwIdle) ∧
    (w252.f F.SCH_CTRL_DISPATCH_EN 0 = 1) ∧
    (w252.fatal = false) ∧
    (w252.keyAlarm.choice = some (({ ctx := 4095, enc := true, picture := 3, slice := 1 } : Ready) : Ready)) ∧
    (23 < 24) ∧
    ((∀ x ∈ w2.codec.ready, x.enc = true → w2.keyServes x.ctx x.picture = true)) ∧
    (w2.choice = none) := by
  refine ⟨?_, ?_, ?_, ?_, ?_, ?_, ?_, ?_, ?_, ?_, ?_, ?_, ?_, ?_, ?_, ?_, ?_⟩ <;> decide +kernel

/-- States and operands that meet the hypotheses of the clauses of SliceEvents. -/
theorem test_meets_SliceEvents_2 :
    (23 < 24) ∧
    (w253.hwState 23 = hwIdle) ∧
    (w253.f F.SCH_CTRL_DISPATCH_EN 0 = 1) ∧
    (w253.fatal = false) ∧
    ((({ ctx := 4095, enc := true, picture := 3, slice := 1 } : Ready) : Ready) ∈ w253.codec.ready) ∧
    ((({ ctx := 4095, enc := true, picture := 3, slice := 1 } : Ready) : Ready).enc = true) ∧
    (w253.ctx? (({ ctx := 4095, enc := true, picture := 3, slice := 1 } : Ready) : Ready).ctx = some (({ wall := 1, tile := 5, geo := tile4, enc := true, stream := some {}, pic := some { hdr := { picture := 3 }, desc := 1 } } : Ctx) : Ctx)) ∧
    ((({ wall := 1, tile := 5, geo := tile4, enc := true, stream := some {}, pic := some { hdr := { picture := 3 }, desc := 1 } } : Ctx) : Ctx).ending = false) ∧
    (w253.keyServes (({ ctx := 4095, enc := true, picture := 3, slice := 1 } : Ready) : Ready).ctx (({ ctx := 4095, enc := true, picture := 3, slice := 1 } : Ready) : Ready).picture = false) ∧
    (23 < 24) ∧
    ((w2.flush 23).canComplete 23 = false) ∧
    (23 < 24) ∧
    ((w254.flush 23).canComplete 23 = false) ∧
    (23 < 24) ∧
    ((w255.flush 23).canComplete 23 = true) ∧
    (w255.hwState 23 = hwRun) ∧
    (23 < 24) ∧
    ((w256.flush 23).canComplete 23 = true) ∧
    (w256.hwState 23 = hwRun) ∧
    (23 < 24) ∧
    ((w257.flush 23).canComplete 23 = true) ∧
    (w257.hwState 23 = hwDraining) ∧
    (Waiter.update ∉ (w257.hewer 23).drainFor) := by
  refine ⟨?_, ?_, ?_, ?_, ?_, ?_, ?_, ?_, ?_, ?_, ?_, ?_, ?_, ?_, ?_, ?_, ?_, ?_, ?_, ?_, ?_, ?_, ?_⟩ <;> decide +kernel

/-- States and operands that meet the hypotheses of the clauses of SliceEvents. -/
theorem test_meets_SliceEvents_3 :
    (23 < 24) ∧
    ((w258.flush 23).canComplete 23 = true) ∧
    (w258.hwState 23 = hwDraining) ∧
    (Waiter.update ∉ (w258.hewer 23).drainFor) ∧
    (23 < 24) ∧
    ((w259.flush 23).canComplete 23 = true) ∧
    (w259.hwState 23 = hwDraining) ∧
    ((w259.hewer 23).drainFor = [.update]) ∧
    (w259.codec.update = some ({ set := { id := 9 }, at_ := 23, job := 7, waits := true } : Update)) ∧
    (23 < 24) ∧
    (w260.hwState 23 ≠ hwIdle ∨ w260.f F.SCH_CTRL_DISPATCH_EN 0 ≠ 1 ∨ w260.fatal = true ∨ w260.f F.PWR_STATUS_STATE 0 = 1 ∨ w260.codec.ready.any (fun r => w260.descReady r) = true ∨ (∀ k ∈ allHewers, k = 23 ∨ w260.hwState k ≠ hwIdle)) ∧
    (23 < 24) ∧
    (w261.hwState 23 ≠ hwIdle ∨ w261.f F.SCH_CTRL_DISPATCH_EN 0 ≠ 1 ∨ w261.fatal = true ∨ w261.f F.PWR_STATUS_STATE 0 = 1 ∨ w261.codec.ready.any (fun r => w261.descReady r) = true ∨ (∀ k ∈ allHewers, k = 23 ∨ w261.hwState k ≠ hwIdle)) ∧
    (23 < 24) ∧
    (w262.ctxNums.all (fun c => (w262.bedUnit c).isNone) = true) := by
  refine ⟨?_, ?_, ?_, ?_, ?_, ?_, ?_, ?_, ?_, ?_, ?_, ?_, ?_, ?_, ?_⟩ <;> decide +kernel

/-- States and operands that meet the hypotheses of the clauses of SliceEvents. -/
theorem test_meets_SliceEvents_4 :
    (23 < 24) ∧
    (0 < 24) ∧
    (0 ≠ 23) ∧
    (w263.hwState 23 = hwIdle) ∧
    (w263.hwState 0 = hwIdle) ∧
    (w263.f F.SCH_CTRL_DISPATCH_EN 0 = 1) ∧
    (w263.fatal = false) ∧
    (w263.f F.PWR_STATUS_STATE 0 ≠ 1) ∧
    (w263.codec.ready.any (fun r => w263.descReady r) = false) ∧
    (w263.ctxNums.find? (fun d => (w263.bedUnit d).isSome) = some 4095) ∧
    (w263.ctx? 4095 = some ({ wall := 1, tile := 5, geo := tile4, enc := true, bedSlots := 2, loads := [{ slot := 1, readyAt := [3], src := some [], gen := 7 }] } : Ctx)) ∧
    (({ wall := 1, tile := 5, geo := tile4, enc := true, bedSlots := 2, loads := [{ slot := 1, readyAt := [3], src := some [], gen := 7 }] } : Ctx).enc = true) ∧
    (({ wall := 1, tile := 5, geo := tile4, enc := true, bedSlots := 2, loads := [{ slot := 1, readyAt := [3], src := some [], gen := 7 }] } : Ctx).loads.find? (fun y => !y.running && decide (y.readyAt ≠ []) && y.src.isSome) = some ({ slot := 1, readyAt := [3], src := some [], gen := 7 } : BedLoad)) := by
  refine ⟨?_, ?_, ?_, ?_, ?_, ?_, ?_, ?_, ?_, ?_, ?_, ?_, ?_⟩ <;> decide +kernel

/-- States and operands that meet the hypotheses of the clauses of SliceEvents. -/
theorem test_meets_SliceEvents_5 :
    (23 < 24) ∧
    (0 < 24) ∧
    (0 ≠ 23) ∧
    (w264.hwState 23 = hwIdle) ∧
    (w264.hwState 0 = hwIdle) ∧
    (w264.f F.SCH_CTRL_DISPATCH_EN 0 = 1) ∧
    (w264.fatal = false) ∧
    (w264.f F.PWR_STATUS_STATE 0 ≠ 1) ∧
    (w264.codec.ready.any (fun r => w264.descReady r) = false) ∧
    (w264.ctxNums.find? (fun d => (w264.bedUnit d).isSome) = some 4095) ∧
    (w264.ctx? 4095 = some (({ wall := 1, tile := 5, geo := tile4, bedSlots := 1, stream := some { bedrockSlots := 1 } } : Ctx) : Ctx)) ∧
    ((({ wall := 1, tile := 5, geo := tile4, bedSlots := 1, stream := some { bedrockSlots := 1 } } : Ctx) : Ctx).enc = false) ∧
    (4095 < 4096) ∧
    ((w265.ctx 4095).enc = true) ∧
    (4095 < 4096) ∧
    (w266.ctx? 4095 = some (({ wall := 1, tile := 5, geo := tile4, pic := some { hdr := { picture := 3 }, begun := [0, 2] } } : Ctx) : Ctx)) ∧
    ((({ wall := 1, tile := 5, geo := tile4, pic := some { hdr := { picture := 3 }, begun := [0, 2] } } : Ctx) : Ctx).enc = false) ∧
    ((({ wall := 1, tile := 5, geo := tile4, pic := some { hdr := { picture := 3 }, begun := [0, 2] } } : Ctx) : Ctx).pic = some (({ hdr := { picture := 3 }, begun := [0, 2] } : Pic) : Pic)) ∧
    ((({ hdr := { picture := 3 }, begun := [0, 2] } : Pic) : Pic).ended = false) ∧
    (23 < 24) ∧
    ((w254.hewer 23).run = some (({ what := { ctx := 4095 } } : Run) : Run)) ∧
    ((({ what := { ctx := 4095 } } : Run) : Run).what.enc = false) ∧
    ((({ what := { ctx := 4095 } } : Run) : Run).closed = false) := by
  refine ⟨?_, ?_, ?_, ?_, ?_, ?_, ?_, ?_, ?_, ?_, ?_, ?_, ?_, ?_, ?_, ?_, ?_, ?_, ?_, ?_, ?_, ?_, ?_⟩ <;> decide +kernel

/-- States and operands that meet the hypotheses of the clauses of SliceEvents. -/
theorem test_meets_SliceEvents_6 :
    (23 < 24) ∧
    ((w2.hewer 23).run.all (fun r => r.what.enc || r.closed) = true) := by
  refine ⟨?_, ?_⟩ <;> decide +kernel

/-- States and operands that meet the hypotheses of the clauses of SequencerEvents. -/
theorem test_meets_SequencerEvents :
    (23 < 24) ∧
    (w2.sequencing 23 = false) ∧
    (w2.hwState 23 ≠ hwPatching ∨ ({ check := .uncorrected } : LmUse).check ≠ .uncorrected) ∧
    (23 < 24) ∧
    (w267.sequencing 23 = true) ∧
    (132120576 = w267.microword 23 (w267.hewer 23).pixPc) ∧
    (parityOk 132120576 = true) ∧
    (branchFormOk 132120576 = true) ∧
    (2 = mwNext 132120576 ||| (List.range 4).foldl (fun a i => if w267.condNow 23 0 0 (mwCond 132120576 i) then a + 2 ^ i else a) 0) ∧
    (2 < 0x4400) ∧
    (mwEvt 132120576 = 0) ∧
    (({ readA := some 1, write := some (3, [1, 2, 3, 4, 5, 6, 7, 8]) } : LmUse).check = .clean) ∧
    (23 < 24) ∧
    (w268.sequencing 23 = true) ∧
    (132120576 = w268.microword 23 (w268.hewer 23).pixPc) ∧
    (parityOk 132120576 = true) ∧
    (branchFormOk 132120576 = true) ∧
    (2 = mwNext 132120576 ||| (List.range 4).foldl (fun a i => if w268.condNow 23 0 0 (mwCond 132120576 i) then a + 2 ^ i else a) 0) ∧
    (2 < 0x4400) ∧
    (mwEvt 132120576 = 0) ∧
    (({ readA := some 1, write := some (3, [1, 2, 3, 4, 5, 6, 7, 8]) } : LmUse).check = .clean) := by
  refine ⟨?_, ?_, ?_, ?_, ?_, ?_, ?_, ?_, ?_, ?_, ?_, ?_, ?_, ?_, ?_, ?_, ?_, ?_, ?_, ?_, ?_⟩ <;> decide +kernel

/-- States and operands that meet the hypotheses of the clauses of SequencerEvents. -/
theorem test_meets_SequencerEvents_2 :
    (23 < 24) ∧
    (w269.sequencing 23 = true) ∧
    (348449143727040986586495598568682555441152 = w269.microword 23 (w269.hewer 23).bsPc) ∧
    (parityOk 348449143727040986586495598568682555441152 = true) ∧
    (branchFormOk 348449143727040986586495598568682555441152 = true) ∧
    (mwWaitEn 348449143727040986586495598568682555441152 = false ∨ (mwWaitSel 348449143727040986586495598568682555441152 ≠ 0 ∧ w269.condNow 23 1 (mwCount 1 348449143727040986586495598568682555441152) (mwWaitSel 348449143727040986586495598568682555441152) = true)) ∧
    (0 = mwNext 348449143727040986586495598568682555441152 ||| (List.range 4).foldl (fun a i => if w269.condNow 23 1 (mwCount 1 348449143727040986586495598568682555441152) (mwCond 348449143727040986586495598568682555441152 i) then a + 2 ^ i else a) 0) ∧
    (0 < 0x4400) ∧
    (mwEvt 348449143727040986586495598568682555441152 = 0) ∧
    (({ readA := some 1, write := some (3, [1, 2, 3, 4, 5, 6, 7, 8]) } : LmUse).check = .clean) ∧
    (23 < 24) ∧
    (w270.sequencing 23 = true) ∧
    (11161261635006781601598687123761997335756800 = w270.microword 23 (w270.hewer 23).pixPc) ∧
    (parityOk 11161261635006781601598687123761997335756800 = true) ∧
    (branchFormOk 11161261635006781601598687123761997335756800 = true) ∧
    (0 = mwNext 11161261635006781601598687123761997335756800 ||| (List.range 4).foldl (fun a i => if w270.condNow 23 0 0 (mwCond 11161261635006781601598687123761997335756800 i) then a + 2 ^ i else a) 0) ∧
    (0 < 0x4400) ∧
    (mwEvt 11161261635006781601598687123761997335756800 < 4) ∧
    (({ readA := some 1, write := some (3, [1, 2, 3, 4, 5, 6, 7, 8]) } : LmUse).check = .clean) := by
  refine ⟨?_, ?_, ?_, ?_, ?_, ?_, ?_, ?_, ?_, ?_, ?_, ?_, ?_, ?_, ?_, ?_, ?_, ?_, ?_⟩ <;> decide +kernel

/-- States and operands that meet the hypotheses of the clauses of SequencerEvents. -/
theorem test_meets_SequencerEvents_3 :
    (23 < 24) ∧
    (w267.sequencing 23 = true) ∧
    (132120576 = w267.microword 23 (w267.hewer 23).pixPc) ∧
    (parityOk 132120576 = true) ∧
    (branchFormOk 132120576 = true) ∧
    (2 = mwNext 132120576 ||| (List.range 4).foldl (fun a i => if w267.condNow 23 0 0 (mwCond 132120576 i) then a + 2 ^ i else a) 0) ∧
    (2 < 0x4400) ∧
    (mwEvt 132120576 < 4) ∧
    (({ check := .clean } : LmUse).check = .clean) ∧
    (23 < 24) ∧
    (w270.sequencing 23 = true) ∧
    (11161261635006781601598687123761997335756800 = w270.microword 23 (w270.hewer 23).bsPc) ∧
    (parityOk 11161261635006781601598687123761997335756800 = true) ∧
    (branchFormOk 11161261635006781601598687123761997335756800 = true) ∧
    (mwWaitEn 11161261635006781601598687123761997335756800 = false ∨ (mwWaitSel 11161261635006781601598687123761997335756800 ≠ 0 ∧ w270.condNow 23 1 (mwCount 1 11161261635006781601598687123761997335756800) (mwWaitSel 11161261635006781601598687123761997335756800) = true)) ∧
    (0 = mwNext 11161261635006781601598687123761997335756800 ||| (List.range 4).foldl (fun a i => if w270.condNow 23 1 (mwCount 1 11161261635006781601598687123761997335756800) (mwCond 11161261635006781601598687123761997335756800 i) then a + 2 ^ i else a) 0) ∧
    (0 < 0x4400) ∧
    (mwEvt 11161261635006781601598687123761997335756800 < 4) ∧
    (({ readA := some 1, write := some (3, [1, 2, 3, 4, 5, 6, 7, 8]) } : LmUse).check = .clean) := by
  refine ⟨?_, ?_, ?_, ?_, ?_, ?_, ?_, ?_, ?_, ?_, ?_, ?_, ?_, ?_, ?_, ?_, ?_, ?_, ?_⟩ <;> decide +kernel

/-- States and operands that meet the hypotheses of the clauses of SequencerEvents. -/
theorem test_meets_SequencerEvents_4 :
    (23 < 24) ∧
    (w271.sequencing 23 = true) ∧
    (0 = w271.microword 23 (w271.hewer 23).bsPc) ∧
    (parityOk 0 = true) ∧
    (branchFormOk 0 = true) ∧
    (mwWaitEn 0 = false ∨ (mwWaitSel 0 ≠ 0 ∧ w271.condNow 23 1 (mwCount 1 0) (mwWaitSel 0) = true)) ∧
    (0 = mwNext 0 ||| (List.range 4).foldl (fun a i => if w271.condNow 23 1 (mwCount 1 0) (mwCond 0 i) then a + 2 ^ i else a) 0) ∧
    (0 < 0x4400) ∧
    (mwEvt 0 < 4) ∧
    (({ readA := some 1, write := some (3, [1, 2, 3, 4, 5, 6, 7, 8]) } : LmUse).check = .clean) ∧
    (23 < 24) ∧
    (w272.sequencing 23 = true) ∧
    (54445178707350154154139937189082913832960 = w272.microword 23 (w272.hewer 23).pixPc) ∧
    (parityOk 54445178707350154154139937189082913832960 = true) ∧
    (branchFormOk 54445178707350154154139937189082913832960 = true) ∧
    (0 = mwNext 54445178707350154154139937189082913832960 ||| (List.range 4).foldl (fun a i => if w272.condNow 23 0 0 (mwCond 54445178707350154154139937189082913832960 i) then a + 2 ^ i else a) 0) ∧
    (0 < 0x4400) ∧
    (4 ≤ mwEvt 54445178707350154154139937189082913832960) ∧
    (({ check := .clean } : LmUse).check = .clean) := by
  refine ⟨?_, ?_, ?_, ?_, ?_, ?_, ?_, ?_, ?_, ?_, ?_, ?_, ?_, ?_, ?_, ?_, ?_, ?_, ?_⟩ <;> decide +kernel

/-- States and operands that meet the hypotheses of the clauses of SequencerEvents. -/
theorem test_meets_SequencerEvents_5 :
    (23 < 24) ∧
    (w273.sequencing 23 = true) ∧
    (54445178707350154154139937189082913832960 = w273.microword 23 (w273.hewer 23).pixPc) ∧
    (parityOk 54445178707350154154139937189082913832960 = true) ∧
    (branchFormOk 54445178707350154154139937189082913832960 = true) ∧
    (0 = mwNext 54445178707350154154139937189082913832960 ||| (List.range 4).foldl (fun a i => if w273.condNow 23 0 0 (mwCond 54445178707350154154139937189082913832960 i) then a + 2 ^ i else a) 0) ∧
    (0 < 0x4400) ∧
    (4 ≤ mwEvt 54445178707350154154139937189082913832960) ∧
    (({ check := .clean } : LmUse).check = .clean) ∧
    (23 < 24) ∧
    (w272.sequencing 23 = true) ∧
    (54445178707350154154139937189082913832960 = w272.microword 23 (w272.hewer 23).bsPc) ∧
    (parityOk 54445178707350154154139937189082913832960 = true) ∧
    (branchFormOk 54445178707350154154139937189082913832960 = true) ∧
    (mwWaitEn 54445178707350154154139937189082913832960 = false ∨ (mwWaitSel 54445178707350154154139937189082913832960 ≠ 0 ∧ w272.condNow 23 1 (mwCount 1 54445178707350154154139937189082913832960) (mwWaitSel 54445178707350154154139937189082913832960) = true)) ∧
    (0 = mwNext 54445178707350154154139937189082913832960 ||| (List.range 4).foldl (fun a i => if w272.condNow 23 1 (mwCount 1 54445178707350154154139937189082913832960) (mwCond 54445178707350154154139937189082913832960 i) then a + 2 ^ i else a) 0) ∧
    (0 < 0x4400) ∧
    (4 ≤ mwEvt 54445178707350154154139937189082913832960) ∧
    (({ check := .clean } : LmUse).check = .clean) := by
  refine ⟨?_, ?_, ?_, ?_, ?_, ?_, ?_, ?_, ?_, ?_, ?_, ?_, ?_, ?_, ?_, ?_, ?_, ?_, ?_⟩ <;> decide +kernel

/-- States and operands that meet the hypotheses of the clauses of SequencerEvents. -/
theorem test_meets_SequencerEvents_6 :
    (23 < 24) ∧
    (w273.sequencing 23 = true) ∧
    (54445178707350154154139937189082913832960 = w273.microword 23 (w273.hewer 23).bsPc) ∧
    (parityOk 54445178707350154154139937189082913832960 = true) ∧
    (branchFormOk 54445178707350154154139937189082913832960 = true) ∧
    (mwWaitEn 54445178707350154154139937189082913832960 = false ∨ (mwWaitSel 54445178707350154154139937189082913832960 ≠ 0 ∧ w273.condNow 23 1 (mwCount 1 54445178707350154154139937189082913832960) (mwWaitSel 54445178707350154154139937189082913832960) = true)) ∧
    (0 = mwNext 54445178707350154154139937189082913832960 ||| (List.range 4).foldl (fun a i => if w273.condNow 23 1 (mwCount 1 54445178707350154154139937189082913832960) (mwCond 54445178707350154154139937189082913832960 i) then a + 2 ^ i else a) 0) ∧
    (0 < 0x4400) ∧
    (4 ≤ mwEvt 54445178707350154154139937189082913832960) ∧
    (({ check := .clean } : LmUse).check = .clean) ∧
    (23 < 24) ∧
    (w274.sequencing 23 = true) ∧
    (0 = w274.microword 23 (w274.hewer 23).pixPc) ∧
    (parityOk 0 = true) ∧
    (branchFormOk 0 = true) ∧
    (0 = mwNext 0 ||| (List.range 4).foldl (fun a i => if w274.condNow 23 0 0 (mwCond 0 i) then a + 2 ^ i else a) 0) ∧
    (0 < 0x4400) ∧
    (({ check := .corrected } : LmUse).check = .corrected) ∧
    (mwEvt 0 = 0) := by
  refine ⟨?_, ?_, ?_, ?_, ?_, ?_, ?_, ?_, ?_, ?_, ?_, ?_, ?_, ?_, ?_, ?_, ?_, ?_, ?_⟩ <;> decide +kernel

/-- States and operands that meet the hypotheses of the clauses of SequencerEvents. -/
theorem test_meets_SequencerEvents_7 :
    (23 < 24) ∧
    (w271.sequencing 23 = true) ∧
    (0 = w271.microword 23 (w271.hewer 23).bsPc) ∧
    (parityOk 0 = true) ∧
    (branchFormOk 0 = true) ∧
    (mwWaitEn 0 = false ∨ (mwWaitSel 0 ≠ 0 ∧ w271.condNow 23 1 (mwCount 1 0) (mwWaitSel 0) = true)) ∧
    (0 = mwNext 0 ||| (List.range 4).foldl (fun a i => if w271.condNow 23 1 (mwCount 1 0) (mwCond 0 i) then a + 2 ^ i else a) 0) ∧
    (0 < 0x4400) ∧
    (({ check := .corrected } : LmUse).check = .corrected) ∧
    (mwEvt 0 = 0) ∧
    (23 < 24) ∧
    (w271.sequencing 23 = true) ∧
    (0 = w271.microword 23 (w271.hewer 23).pixPc) ∧
    (parityOk 0 = true) ∧
    (branchFormOk 0 = true) ∧
    (0 = mwNext 0 ||| (List.range 4).foldl (fun a i => if w271.condNow 23 0 0 (mwCond 0 i) then a + 2 ^ i else a) 0) ∧
    (0 < 0x4400) ∧
    (({ check := .uncorrected } : LmUse).check = .uncorrected) := by
  refine ⟨?_, ?_, ?_, ?_, ?_, ?_, ?_, ?_, ?_, ?_, ?_, ?_, ?_, ?_, ?_, ?_, ?_, ?_⟩ <;> decide +kernel

/-- States and operands that meet the hypotheses of the clauses of SequencerEvents. -/
theorem test_meets_SequencerEvents_8 :
    (23 < 24) ∧
    (w275.sequencing 23 = true) ∧
    (0 = w275.microword 23 (w275.hewer 23).pixPc) ∧
    (parityOk 0 = true) ∧
    (branchFormOk 0 = true) ∧
    (0 = mwNext 0 ||| (List.range 4).foldl (fun a i => if w275.condNow 23 0 0 (mwCond 0 i) then a + 2 ^ i else a) 0) ∧
    (0 < 0x4400) ∧
    (({ check := .uncorrected } : LmUse).check = .uncorrected) ∧
    (23 < 24) ∧
    (w271.sequencing 23 = true) ∧
    (0 = w271.microword 23 (w271.hewer 23).bsPc) ∧
    (parityOk 0 = true) ∧
    (branchFormOk 0 = true) ∧
    (mwWaitEn 0 = false ∨ (mwWaitSel 0 ≠ 0 ∧ w271.condNow 23 1 (mwCount 1 0) (mwWaitSel 0) = true)) ∧
    (0 = mwNext 0 ||| (List.range 4).foldl (fun a i => if w271.condNow 23 1 (mwCount 1 0) (mwCond 0 i) then a + 2 ^ i else a) 0) ∧
    (0 < 0x4400) ∧
    (({ check := .uncorrected } : LmUse).check = .uncorrected) ∧
    (23 < 24) ∧
    (w276.sequencing 23 = false) ∧
    (w276.hwState 23 = hwPatching) ∧
    (({ check := .uncorrected } : LmUse).check = .uncorrected) := by
  refine ⟨?_, ?_, ?_, ?_, ?_, ?_, ?_, ?_, ?_, ?_, ?_, ?_, ?_, ?_, ?_, ?_, ?_, ?_, ?_, ?_, ?_⟩ <;> decide +kernel

/-- States and operands that meet the hypotheses of the clauses of SequencerEvents. -/
theorem test_meets_SequencerEvents_9 :
    (23 < 24) ∧
    (w277.sequencing 23 = true) ∧
    (348449143727040986586495598014528695042048 = w277.microword 23 (w277.hewer 23).bsPc) ∧
    (parityOk 348449143727040986586495598014528695042048 = true) ∧
    (branchFormOk 348449143727040986586495598014528695042048 = true) ∧
    (mwWaitEn 348449143727040986586495598014528695042048 = true) ∧
    (mwWaitSel 348449143727040986586495598014528695042048 = 0 ∨ w277.condNow 23 1 (mwCount 1 348449143727040986586495598014528695042048) (mwWaitSel 348449143727040986586495598014528695042048) = false) ∧
    (23 < 24) ∧
    (w278.sequencing 23 = true) ∧
    (1 = w278.microword 23 (w278.hewer 23).pixPc) ∧
    (23 < 24) ∧
    (w279.sequencing 23 = true) ∧
    (87112285931760246646623899502532664197121 = w279.microword 23 (w279.hewer 23).pixPc) ∧
    (23 < 24) ∧
    (w278.sequencing 23 = true) ∧
    (1 = w278.microword 23 (w278.hewer 23).bsPc) ∧
    (23 < 24) ∧
    (w279.sequencing 23 = true) ∧
    (87112285931760246646623899502532664197121 = w279.microword 23 (w279.hewer 23).bsPc) := by
  refine ⟨?_, ?_, ?_, ?_, ?_, ?_, ?_, ?_, ?_, ?_, ?_, ?_, ?_, ?_, ?_, ?_, ?_, ?_, ?_⟩ <;> decide +kernel

/-- States and operands that meet the hypotheses of the clauses of SequencerEvents. -/
theorem test_meets_SequencerEvents_10 :
    (23 < 24) ∧
    (w280.sequencing 23 = true) ∧
    (17408 = w280.microword 23 (w280.hewer 23).pixPc) ∧
    (parityOk 17408 = true) ∧
    (branchFormOk 17408 = true) ∧
    (17408 = mwNext 17408 ||| (List.range 4).foldl (fun a i => if w280.condNow 23 0 0 (mwCond 17408 i) then a + 2 ^ i else a) 0) ∧
    (0x4400 ≤ 17408) ∧
    (23 < 24) ∧
    (w280.sequencing 23 = true) ∧
    (17408 = w280.microword 23 (w280.hewer 23).bsPc) ∧
    (parityOk 17408 = true) ∧
    (branchFormOk 17408 = true) ∧
    (mwWaitEn 17408 = false ∨ (mwWaitSel 17408 ≠ 0 ∧ w280.condNow 23 1 (mwCount 1 17408) (mwWaitSel 17408) = true)) ∧
    (17408 = mwNext 17408 ||| (List.range 4).foldl (fun a i => if w280.condNow 23 1 (mwCount 1 17408) (mwCond 17408 i) then a + 2 ^ i else a) 0) ∧
    (0x4400 ≤ 17408) ∧
    (23 < 24) ∧
    (w281.f F.HWR_STATUS_BS_WAIT 23 = 1) ∧
    (w281.sequencing 23 = true) ∧
    (348449143727040986586495598014528695042048 = w281.microword 23 (w281.hewer 23).bsPc) ∧
    (parityOk 348449143727040986586495598014528695042048 = true) ∧
    (branchFormOk 348449143727040986586495598014528695042048 = true) ∧
    (mwWaitEn 348449143727040986586495598014528695042048 = true) ∧
    (mwWaitSel 348449143727040986586495598014528695042048 = 0 ∨ w281.condNow 23 1 (mwCount 1 348449143727040986586495598014528695042048) (mwWaitSel 348449143727040986586495598014528695042048) = false) := by
  refine ⟨?_, ?_, ?_, ?_, ?_, ?_, ?_, ?_, ?_, ?_, ?_, ?_, ?_, ?_, ?_, ?_, ?_, ?_, ?_, ?_, ?_, ?_, ?_⟩ <;> decide +kernel

/-- States and operands that meet the hypotheses of the clauses of SequencerEvents. -/
theorem test_meets_SequencerEvents_11 :
    (23 < 24) ∧
    (w282.f F.HWR_STATUS_BS_WAIT 23 = 1) ∧
    (w282.sequencing 23 = true) ∧
    (348449143727040986586495598014528695042048 = w282.microword 23 (w282.hewer 23).bsPc) ∧
    (parityOk 348449143727040986586495598014528695042048 = true) ∧
    (branchFormOk 348449143727040986586495598014528695042048 = true) ∧
    (mwWaitEn 348449143727040986586495598014528695042048 = true) ∧
    (mwWaitSel 348449143727040986586495598014528695042048 = 0 ∨ w282.condNow 23 1 (mwCount 1 348449143727040986586495598014528695042048) (mwWaitSel 348449143727040986586495598014528695042048) = false) ∧
    (23 < 24) ∧
    (0 = w283.microword 23 (w283.hewer 23).bsPc) ∧
    (w283.f F.HWR_STATUS_BS_WAIT 23 ≠ 1 ∨ mwWaitEn 0 = false ∨ (mwWaitSel 0 ≠ 0 ∧ w283.condNow 23 1 (mwCount 1 0) (mwWaitSel 0) = true)) ∧
    (w283.sequencing 23 = true) ∧
    ((w283.hewer 23).pixSelf = true) ∧
    (23 < 24) ∧
    (0 = w284.microword 23 (w284.hewer 23).bsPc) ∧
    (w284.f F.HWR_STATUS_BS_WAIT 23 ≠ 1 ∨ mwWaitEn 0 = false ∨ (mwWaitSel 0 ≠ 0 ∧ w284.condNow 23 1 (mwCount 1 0) (mwWaitSel 0) = true)) ∧
    (w284.sequencing 23 = true) ∧
    ((w284.hewer 23).pixSelf = true) ∧
    (23 < 24) ∧
    (0 = w271.microword 23 (w271.hewer 23).bsPc) ∧
    (w271.f F.HWR_STATUS_BS_WAIT 23 ≠ 1 ∨ mwWaitEn 0 = false ∨ (mwWaitSel 0 ≠ 0 ∧ w271.condNow 23 1 (mwCount 1 0) (mwWaitSel 0) = true) ∨ w271.sequencing 23 = false) ∧
    (w271.sequencing 23 = false ∨ (w271.hewer 23).pixSelf = false) := by
  refine ⟨?_, ?_, ?_, ?_, ?_, ?_, ?_, ?_, ?_, ?_, ?_, ?_, ?_, ?_, ?_, ?_, ?_, ?_, ?_, ?_, ?_, ?_⟩ <;> decide +kernel

/-- States and operands that meet the hypotheses of the clauses of SequencerEvents. -/
theorem test_meets_SequencerEvents_12 :
    (23 < 24) ∧
    (0 = w285.microword 23 (w285.hewer 23).bsPc) ∧
    (w285.f F.HWR_STATUS_BS_WAIT 23 ≠ 1 ∨ mwWaitEn 0 = false ∨ (mwWaitSel 0 ≠ 0 ∧ w285.condNow 23 1 (mwCount 1 0) (mwWaitSel 0) = true) ∨ w285.sequencing 23 = false) ∧
    (w285.sequencing 23 = false ∨ (w285.hewer 23).pixSelf = false) ∧
    (23 < 24) ∧
    (w286.hwState 23 = hwTest) ∧
    (w286.fatal = false) ∧
    ((w286.hewer 23).testFor ≠ .update) ∧
    ((∀ u, w286.codec.update = some u → u.waits = false ∨ u.at_ ≠ 23)) ∧
    (23 < 24) ∧
    (w287.hwState 23 = hwTest) ∧
    (w287.fatal = false) ∧
    ((w287.hewer 23).testFor ≠ .update) ∧
    ((∀ u, w287.codec.update = some u → u.waits = false ∨ u.at_ ≠ 23)) ∧
    (23 < 24) ∧
    (w288.hwState 23 = hwTest) ∧
    (w288.fatal = false) ∧
    (w288.codec.update = some ({ set := { id := 9 }, at_ := 23, job := 7, waits := false } : Update)) ∧
    (({ set := { id := 9 }, at_ := 23, job := 7, waits := false } : Update).at_ = 23) ∧
    ((w288.hewer 23).testFor = .update) := by
  refine ⟨?_, ?_, ?_, ?_, ?_, ?_, ?_, ?_, ?_, ?_, ?_, ?_, ?_, ?_, ?_, ?_, ?_, ?_, ?_, ?_⟩ <;> decide +kernel

/-- States and operands that meet the hypotheses of the clauses of SequencerEvents. -/
theorem test_meets_SequencerEvents_13 :
    (23 < 24) ∧
    (w288.hwState 23 = hwTest) ∧
    (w288.fatal = false) ∧
    (w288.codec.update = some ({ set := { id := 9 }, at_ := 23, job := 7, waits := false } : Update)) ∧
    (({ set := { id := 9 }, at_ := 23, job := 7, waits := false } : Update).at_ = 23) ∧
    ((w288.hewer 23).testFor = .update) ∧
    (23 < 24) ∧
    (w289.hwState 23 = hwTest) ∧
    (w289.fatal = false) ∧
    (w289.codec.update = some ({ set := { id := 9 }, at_ := 23, job := 7, waits := true } : Update)) ∧
    (({ set := { id := 9 }, at_ := 23, job := 7, waits := true } : Update).waits = true) ∧
    (({ set := { id := 9 }, at_ := 23, job := 7, waits := true } : Update).at_ = 23) ∧
    ((w289.hewer 23).testFor ≠ .update) ∧
    (23 < 24) ∧
    (w289.hwState 23 = hwTest) ∧
    (w289.fatal = false) ∧
    (w289.codec.update = some ({ set := { id := 9 }, at_ := 23, job := 7, waits := true } : Update)) ∧
    (({ set := { id := 9 }, at_ := 23, job := 7, waits := true } : Update).waits = true) ∧
    (({ set := { id := 9 }, at_ := 23, job := 7, waits := true } : Update).at_ = 23) ∧
    ((w289.hewer 23).testFor ≠ .update) ∧
    (23 < 24) ∧
    (w2.hwState 23 ≠ hwTest ∨ w2.fatal = true) := by
  refine ⟨?_, ?_, ?_, ?_, ?_, ?_, ?_, ?_, ?_, ?_, ?_, ?_, ?_, ?_, ?_, ?_, ?_, ?_, ?_, ?_, ?_, ?_⟩ <;> decide +kernel

/-- States and operands that meet the hypotheses of the clauses of SequencerEvents. -/
theorem test_meets_SequencerEvents_14 :
    (23 < 24) ∧
    (w290.hwState 23 = hwPatching) ∧
    ((w290.hewer 23).loading = some (({ id := 65535, words := [2 ^ 143 + 7, 9], matches_ := [(5, 1), (6, 0)] } : PatchSet) : PatchSet)) ∧
    ((w290.hewer 23).loadFor ≠ .update) ∧
    ((∀ u, w290.codec.update = some u → u.waits = false ∨ u.at_ ≠ 23)) ∧
    (23 < 24) ∧
    (w291.hwState 23 = hwPatching) ∧
    ((w291.hewer 23).loading = some (({} : PatchSet) : PatchSet)) ∧
    ((w291.hewer 23).loadFor ≠ .update) ∧
    ((∀ u, w291.codec.update = some u → u.waits = false ∨ u.at_ ≠ 23)) ∧
    (23 < 24) ∧
    (w292.hwState 23 = hwPatching) ∧
    ((w292.hewer 23).loading = some ({ id := 9, words := [1, 2, 3, 4, 5, 6, 7, 8], matches_ := [(5, 0)] } : PatchSet)) ∧
    ((w292.hewer 23).loadFor = .update) ∧
    (w292.codec.update = some ({ set := { id := 9, words := [1, 2, 3, 4, 5, 6, 7, 8], matches_ := [(5, 0)] }, at_ := 23, job := 7 } : Update)) ∧
    (({ set := { id := 9, words := [1, 2, 3, 4, 5, 6, 7, 8], matches_ := [(5, 0)] }, at_ := 23, job := 7 } : Update).waits = false) ∧
    (({ set := { id := 9, words := [1, 2, 3, 4, 5, 6, 7, 8], matches_ := [(5, 0)] }, at_ := 23, job := 7 } : Update).at_ = 23) ∧
    (w292.f F.SPD_CTRL_BUSY 0 ≠ 1) := by
  refine ⟨?_, ?_, ?_, ?_, ?_, ?_, ?_, ?_, ?_, ?_, ?_, ?_, ?_, ?_, ?_, ?_, ?_, ?_⟩ <;> decide +kernel

/-- States and operands that meet the hypotheses of the clauses of SequencerEvents. -/
theorem test_meets_SequencerEvents_15 :
    (23 < 24) ∧
    (w293.hwState 23 = hwPatching) ∧
    ((w293.hewer 23).loading = some ({ id := 9, words := [1, 2, 3, 4, 5, 6, 7, 8], matches_ := [(5, 0)] } : PatchSet)) ∧
    ((w293.hewer 23).loadFor = .update) ∧
    (w293.codec.update = some ({ set := { id := 9, words := [1, 2, 3, 4, 5, 6, 7, 8], matches_ := [(5, 0)] }, at_ := 23, job := 7 } : Update)) ∧
    (({ set := { id := 9, words := [1, 2, 3, 4, 5, 6, 7, 8], matches_ := [(5, 0)] }, at_ := 23, job := 7 } : Update).waits = false) ∧
    (({ set := { id := 9, words := [1, 2, 3, 4, 5, 6, 7, 8], matches_ := [(5, 0)] }, at_ := 23, job := 7 } : Update).at_ = 23) ∧
    (w293.f F.SPD_CTRL_BUSY 0 ≠ 1) ∧
    (23 < 24) ∧
    (w2.hwState 23 ≠ hwPatching ∨ (w2.hewer 23).loading = none ∨ ((w2.hewer 23).loadFor = .update ∧ w2.f F.SPD_CTRL_BUSY 0 = 1)) ∧
    (23 < 24) ∧
    (w294.hwState 23 ≠ hwPatching ∨ (w294.hewer 23).loading = none ∨ ((w294.hewer 23).loadFor = .update ∧ w294.f F.SPD_CTRL_BUSY 0 = 1)) := by
  refine ⟨?_, ?_, ?_, ?_, ?_, ?_, ?_, ?_, ?_, ?_, ?_, ?_⟩ <;> decide +kernel

/-- States and operands that meet the hypotheses of the clauses of HewerRegisters. -/
theorem test_meets_HewerRegisters :
    (23 < 24) ∧
    (w295.writeOk (.cpN : Origin) .HWR_CTRL 23 = true) ∧
    (w295.hwState 23 ≠ hwIdle ∨ Waiter.update ∉ (w295.hewer 23).drainFor) ∧
    (23 < 24) ∧
    (w296.writeOk (.cpN : Origin) .HWR_CTRL 23 = true) ∧
    (w296.hwState 23 ≠ hwIdle ∨ Waiter.update ∉ (w296.hewer 23).drainFor) ∧
    (23 < 24) ∧
    (w2.writeOk (.cpN : Origin) .HWR_CTRL 23 = true) ∧
    (w2.hwState 23 ≠ hwIdle ∨ Waiter.update ∉ (w2.hewer 23).drainFor) ∧
    (23 < 24) ∧
    (w297.writeOk (Origin.cpN : Origin) .HWR_CTRL 23 = true) ∧
    ((3 : Word).toNat % 4 = 3) ∧
    (w297.f F.HWR_CTRL_DRAIN 23 ≠ 1) ∧
    (w297.hwState 23 = hwIdle ∨ w297.hwState 23 = hwRun) ∧
    ((w297.hewer 23).drainFor = []) ∧
    (23 < 24) ∧
    (w298.writeOk (Origin.cpN : Origin) .HWR_CTRL 23 = true) ∧
    ((0xFFFFFFFF : Word).toNat % 4 = 3) ∧
    (w298.f F.HWR_CTRL_DRAIN 23 ≠ 1) ∧
    (w298.hwState 23 = hwIdle ∨ w298.hwState 23 = hwRun) ∧
    ((w298.hewer 23).drainFor = []) := by
  refine ⟨?_, ?_, ?_, ?_, ?_, ?_, ?_, ?_, ?_, ?_, ?_, ?_, ?_, ?_, ?_, ?_, ?_, ?_, ?_, ?_, ?_⟩ <;> decide +kernel

/-- States and operands that meet the hypotheses of the clauses of HewerRegisters. -/
theorem test_meets_HewerRegisters_2 :
    (23 < 24) ∧
    (w299.writeOk (Origin.cpN : Origin) .HWR_CTRL 23 = true) ∧
    ((2 : Word).toNat % 4 = 2) ∧
    (w299.f F.HWR_CTRL_DRAIN 23 = 1) ∧
    (w299.hwState 23 = hwDrained) ∧
    (23 < 24) ∧
    (w300.writeOk (Origin.cpN : Origin) .HWR_CTRL 23 = true) ∧
    ((2 : Word).toNat % 4 = 2) ∧
    (w300.f F.HWR_CTRL_DRAIN 23 = 1) ∧
    (w300.hwState 23 = hwDraining) ∧
    ((w300.hewer 23).goOut = false) ∧
    (Waiter.update ∉ (w300.hewer 23).drainFor) ∧
    (23 < 24) ∧
    (w301.writeOk (Origin.cpN : Origin) .HWR_CTRL 23 = true) ∧
    ((0 : Word).toNat % 4 = 0) ∧
    (w301.f F.HWR_CTRL_DRAIN 23 ≠ 1) ∧
    (w301.f F.HWR_CTRL_SERVICE 23 = 1) ∧
    (w301.hwState 23 = hwIdle) ∧
    (23 < 24) ∧
    (w295.writeOk (Origin.cpN : Origin) .HWR_CTRL 23 = true) ∧
    ((0 : Word).toNat % 4 = 0) ∧
    (w295.f F.HWR_CTRL_DRAIN 23 ≠ 1) ∧
    (w295.f F.HWR_CTRL_SERVICE 23 = 1) ∧
    (w295.hwState 23 = hwRun) := by
  refine ⟨?_, ?_, ?_, ?_, ?_, ?_, ?_, ?_, ?_, ?_, ?_, ?_, ?_, ?_, ?_, ?_, ?_, ?_, ?_, ?_, ?_, ?_, ?_, ?_⟩ <;> decide +kernel

/-- States and operands that meet the hypotheses of the clauses of HewerRegisters. -/
theorem test_meets_HewerRegisters_3 :
    (23 < 24) ∧
    (w302.writeOk (Origin.cpN : Origin) .HWR_CTRL 23 = true) ∧
    ((2 : Word).toNat % 4 = 2) ∧
    (w302.f F.HWR_CTRL_DRAIN 23 ≠ 1) ∧
    (w302.hwState 23 = hwOut ∨ w302.hwState 23 = hwFault) ∧
    (w302.f F.HWR_PATCH_STATUS_STATE 23 ≠ 2) ∧
    (23 < 24) ∧
    (w303.writeOk (Origin.cpN : Origin) .HWR_CTRL 23 = true) ∧
    ((2 : Word).toNat % 4 = 2) ∧
    (w303.f F.HWR_CTRL_DRAIN 23 ≠ 1) ∧
    (w303.hwState 23 = hwOut ∨ w303.hwState 23 = hwFault) ∧
    (w303.f F.HWR_PATCH_STATUS_STATE 23 = 2) ∧
    (23 < 24) ∧
    (1023 < 1024) ∧
    (3 < 4) ∧
    (w304.writeOk (Origin.cpS : Origin) .HWR_PATCH_RAM (8192 * 23 + 8 * 1023 + 3) = true) ∧
    (w304.hwState 23 = hwDrained ∨ w304.hwState 23 = hwOut ∨ w304.hwState 23 = hwPatching) ∧
    (23 < 24) ∧
    (1023 < 1024) ∧
    (w305.writeOk (Origin.cpS : Origin) .HWR_PATCH_RAM (8192 * 23 + 8 * 1023 + 4) = true) ∧
    (w305.hwState 23 = hwDrained ∨ w305.hwState 23 = hwOut ∨ w305.hwState 23 = hwPatching) := by
  refine ⟨?_, ?_, ?_, ?_, ?_, ?_, ?_, ?_, ?_, ?_, ?_, ?_, ?_, ?_, ?_, ?_, ?_, ?_, ?_, ?_, ?_⟩ <;> decide +kernel

/-- States and operands that meet the hypotheses of the clauses of HewerRegisters. -/
theorem test_meets_HewerRegisters_4 :
    (23 < 24) ∧
    (63 < 64) ∧
    (w306.writeOk (Origin.cpS : Origin) .HWR_MATCH (64 * 23 + 63) = true) ∧
    (w306.hwState 23 = hwDrained ∨ w306.hwState 23 = hwOut ∨ w306.hwState 23 = hwPatching) ∧
    (23 < 24) ∧
    (8191 < 8192) ∧
    (w298.writeOk (Origin.cpS : Origin) .HWR_PATCH_RAM (8192 * 23 + 8191) = true) ∧
    (w298.hwState 23 ∉ [hwDrained, hwOut, hwPatching] ∨ 4 < 8191 % 8) ∧
    (23 < 24) ∧
    (63 < 64) ∧
    (w298.writeOk (.cpS : Origin) .HWR_MATCH (64 * 23 + 63) = true) ∧
    (w298.hwState 23 ∉ [hwDrained, hwOut, hwPatching]) ∧
    (w307.writeOk (Origin.cpN : Origin) .STK_PIN 0 = true) ∧
    ((268435967 : Word).toNat.testBit 28 = true) ∧
    ((268435967 : Word).toNat.testBit 29 = false) ∧
    (511 = (268435967 : Word).toNat % 512) ∧
    (w307.group? 511 = some (({ wall := 1 } : Group) : Group)) ∧
    (w307.poolDescs = 0 :: (((List.range 512).drop 1 : List Nat) : List Nat)) ∧
    (w307.writeOk (Origin.cpN : Origin) .STK_PIN 0 = true) ∧
    ((805306879 : Word).toNat.testBit 28 = true) ∧
    ((805306879 : Word).toNat.testBit 29 = true) ∧
    (511 = (805306879 : Word).toNat % 512) ∧
    (w307.group? 511 = some (({ wall := 1 } : Group) : Group)) ∧
    (w307.poolDescs = 0 :: (((List.range 512).drop 1 : List Nat) : List Nat)) := by
  refine ⟨?_, ?_, ?_, ?_, ?_, ?_, ?_, ?_, ?_, ?_, ?_, ?_, ?_, ?_, ?_, ?_, ?_, ?_, ?_, ?_, ?_, ?_, ?_, ?_⟩ <;> decide +kernel

/-- States and operands that meet the hypotheses of the clauses of HewerRegisters. -/
theorem test_meets_HewerRegisters_5 :
    (w308.writeOk (Origin.cpN : Origin) .STK_PIN 0 = true) ∧
    ((268435967 : Word).toNat.testBit 28 = true) ∧
    ((268435967 : Word).toNat.testBit 29 = false) ∧
    (511 = (268435967 : Word).toNat % 512) ∧
    (w308.group? 511 = none ∨ w308.poolDescs = []) ∧
    (w308.writeOk (Origin.cpN : Origin) .STK_PIN 0 = true) ∧
    ((805306879 : Word).toNat.testBit 28 = true) ∧
    ((805306879 : Word).toNat.testBit 29 = true) ∧
    (511 = (805306879 : Word).toNat % 512) ∧
    (w308.group? 511 = none ∨ w308.poolDescs = []) ∧
    (w309.writeOk (Origin.cpN : Origin) .STK_PIN 0 = true) ∧
    ((536870912 : Word).toNat.testBit 29 = true) ∧
    (511 = w309.f F.STK_DESC_SEL_DESC 0) ∧
    (w309.f F.STK_DESC_INFO_HOST_PIN 511 = 1) ∧
    (w310.writeOk (Origin.cpN : Origin) .STK_PIN 0 = true) ∧
    ((536870912 : Word).toNat.testBit 29 = true) ∧
    (511 = w310.f F.STK_DESC_SEL_DESC 0) ∧
    (w310.f F.STK_DESC_INFO_HOST_PIN 511 = 1) ∧
    (w2.writeOk (Origin.cpN : Origin) .STK_PIN 0 = true) ∧
    ((536870912 : Word).toNat.testBit 28 = false) ∧
    ((536870912 : Word).toNat.testBit 29 = true) ∧
    (w2.f F.STK_DESC_INFO_HOST_PIN (w2.f F.STK_DESC_SEL_DESC 0) ≠ 1) := by
  refine ⟨?_, ?_, ?_, ?_, ?_, ?_, ?_, ?_, ?_, ?_, ?_, ?_, ?_, ?_, ?_, ?_, ?_, ?_, ?_, ?_, ?_, ?_⟩ <;> decide +kernel

/-- States and operands that meet the hypotheses of the clauses of HaulFrames. -/
theorem test_meets_HaulFrames :
    (5 < 6) ∧
    (w2.f F.HAUL_CTRL_EN 5 ≠ 1 ∨ w2.f F.HAUL_STATUS_LINK 5 ≠ 1 ∨ (w2.haulPort 5).rx ≠ none) ∧
    (5 < 6) ∧
    (w311.f F.HAUL_CTRL_EN 5 ≠ 1 ∨ w311.f F.HAUL_STATUS_LINK 5 ≠ 1 ∨ (w311.haulPort 5).rx ≠ none) ∧
    (5 < 6) ∧
    (w312.f F.HAUL_CTRL_EN 5 = 1) ∧
    (w312.f F.HAUL_STATUS_LINK 5 = 1) ∧
    ((w312.haulPort 5).rx = none) ∧
    (w312.portBlind fnHaul 5 = true) ∧
    (5 < 6) ∧
    (w313.f F.HAUL_CTRL_EN 5 = 1) ∧
    (w313.f F.HAUL_STATUS_LINK 5 = 1) ∧
    ((w313.haulPort 5).rx = none) ∧
    (w313.portBlind fnHaul 5 = false) ∧
    (((List.replicate 63 0 : List Byte) : List Byte).length < 64 ∨ (beAt ((List.replicate 63 0 : List Byte) : List Byte) 12 2 ≠ 0x8808 ∧ w313.macAccepts 5 ((List.replicate 63 0 : List Byte) : List Byte) = true ∧ w313.f F.CLS_CTRL_EN 0 ≠ 1)) ∧
    (5 < 6) ∧
    (w313.f F.HAUL_CTRL_EN 5 = 1) ∧
    (w313.f F.HAUL_STATUS_LINK 5 = 1) ∧
    ((w313.haulPort 5).rx = none) ∧
    (w313.portBlind fnHaul 5 = false) ∧
    ((([255, 255, 255, 255, 255, 255, 0, 0, 0, 0, 0, 0, 18, 52] ++ List.replicate 46 1 ++ [236, 142, 254, 110] : List Byte) : List Byte).length < 64 ∨ (beAt (([255, 255, 255, 255, 255, 255, 0, 0, 0, 0, 0, 0, 18, 52] ++ List.replicate 46 1 ++ [236, 142, 254, 110] : List Byte) : List Byte) 12 2 ≠ 0x8808 ∧ w313.macAccepts 5 (([255, 255, 255, 255, 255, 255, 0, 0, 0, 0, 0, 0, 18, 52] ++ List.replicate 46 1 ++ [236, 142, 254, 110] : List Byte) : List Byte) = true ∧ w313.f F.CLS_CTRL_EN 0 ≠ 1)) := by
  refine ⟨?_, ?_, ?_, ?_, ?_, ?_, ?_, ?_, ?_, ?_, ?_, ?_, ?_, ?_, ?_, ?_, ?_, ?_, ?_, ?_, ?_⟩ <;> decide +kernel

/-- States and operands that meet the hypotheses of the clauses of HaulFrames. -/
theorem test_meets_HaulFrames_2 :
    (5 < 6) ∧
    (w314.f F.HAUL_CTRL_EN 5 = 1) ∧
    (w314.f F.HAUL_STATUS_LINK 5 = 1) ∧
    ((w314.haulPort 5).rx = none) ∧
    (w314.portBlind fnHaul 5 = false) ∧
    (64 ≤ (([1, 128, 194, 0, 0, 1, 0, 0, 0, 0, 0, 0, 136, 8] ++ List.replicate 46 0 ++ [106, 67, 56, 169] : List Byte) : List Byte).length) ∧
    (beAt (([1, 128, 194, 0, 0, 1, 0, 0, 0, 0, 0, 0, 136, 8] ++ List.replicate 46 0 ++ [106, 67, 56, 169] : List Byte) : List Byte) 12 2 = 0x8808 ∨ w314.macAccepts 5 (([1, 128, 194, 0, 0, 1, 0, 0, 0, 0, 0, 0, 136, 8] ++ List.replicate 46 0 ++ [106, 67, 56, 169] : List Byte) : List Byte) = false) ∧
    (5 < 6) ∧
    (w315.f F.HAUL_CTRL_EN 5 = 1) ∧
    (w315.f F.HAUL_STATUS_LINK 5 = 1) ∧
    ((w315.haulPort 5).rx = none) ∧
    (w315.portBlind fnHaul 5 = false) ∧
    (64 ≤ (([2, 0, 0, 0, 0, 9, 0, 0, 0, 0, 0, 0, 18, 52] ++ List.replicate 46 1 ++ [117, 165, 149, 143] : List Byte) : List Byte).length) ∧
    (beAt (([2, 0, 0, 0, 0, 9, 0, 0, 0, 0, 0, 0, 18, 52] ++ List.replicate 46 1 ++ [117, 165, 149, 143] : List Byte) : List Byte) 12 2 = 0x8808 ∨ w315.macAccepts 5 (([2, 0, 0, 0, 0, 9, 0, 0, 0, 0, 0, 0, 18, 52] ++ List.replicate 46 1 ++ [117, 165, 149, 143] : List Byte) : List Byte) = false) := by
  refine ⟨?_, ?_, ?_, ?_, ?_, ?_, ?_, ?_, ?_, ?_, ?_, ?_, ?_, ?_⟩ <;> decide +kernel

/-- States and operands that meet the hypotheses of the clauses of HaulFrames. -/
theorem test_meets_HaulFrames_3 :
    (5 < 6) ∧
    (w316.f F.HAUL_CTRL_EN 5 = 1) ∧
    (w316.f F.HAUL_STATUS_LINK 5 = 1) ∧
    ((w316.haulPort 5).rx = none) ∧
    (w316.portBlind fnHaul 5 = false) ∧
    (64 ≤ (([255, 255, 255, 255, 255, 255, 0, 0, 0, 0, 0, 0, 136, 181, 48, 1, 0, 5, 0, 3, 0, 0, 0, 0, 0, 2, 0, 0, 0, 0, 0, 0, 0, 22] ++ List.replicate 26 0 ++ [172, 234, 225, 5] : List Byte) : List Byte).length) ∧
    (beAt (([255, 255, 255, 255, 255, 255, 0, 0, 0, 0, 0, 0, 136, 181, 48, 1, 0, 5, 0, 3, 0, 0, 0, 0, 0, 2, 0, 0, 0, 0, 0, 0, 0, 22] ++ List.replicate 26 0 ++ [172, 234, 225, 5] : List Byte) : List Byte) 12 2 ≠ 0x8808) ∧
    (w316.macAccepts 5 (([255, 255, 255, 255, 255, 255, 0, 0, 0, 0, 0, 0, 136, 181, 48, 1, 0, 5, 0, 3, 0, 0, 0, 0, 0, 2, 0, 0, 0, 0, 0, 0, 0, 22] ++ List.replicate 26 0 ++ [172, 234, 225, 5] : List Byte) : List Byte) = true) ∧
    (w316.f F.CLS_CTRL_EN 0 = 1) ∧
    (((parseFrame 47100 (([255, 255, 255, 255, 255, 255, 0, 0, 0, 0, 0, 0, 136, 181, 48, 1, 0, 5, 0, 3, 0, 0, 0, 0, 0, 2, 0, 0, 0, 0, 0, 0, 0, 22] ++ List.replicate 26 0 ++ [172, 234, 225, 5] : List Byte).take 9216)) : Parsed) = parseFrame (w316.f F.HAUL_UDP_PORT 5) ((([255, 255, 255, 255, 255, 255, 0, 0, 0, 0, 0, 0, 136, 181, 48, 1, 0, 5, 0, 3, 0, 0, 0, 0, 0, 2, 0, 0, 0, 0, 0, 0, 0, 22] ++ List.replicate 26 0 ++ [172, 234, 225, 5] : List Byte) : List Byte).take 9216)) ∧
    (((parseFrame 47100 (([255, 255, 255, 255, 255, 255, 0, 0, 0, 0, 0, 0, 136, 181, 48, 1, 0, 5, 0, 3, 0, 0, 0, 0, 0, 2, 0, 0, 0, 0, 0, 0, 0, 22] ++ List.replicate 26 0 ++ [172, 234, 225, 5] : List Byte).take 9216)) : Parsed).parseErr = false) ∧
    (((parseFrame 47100 (([255, 255, 255, 255, 255, 255, 0, 0, 0, 0, 0, 0, 136, 181, 48, 1, 0, 5, 0, 3, 0, 0, 0, 0, 0, 2, 0, 0, 0, 0, 0, 0, 0, 22] ++ List.replicate 26 0 ++ [172, 234, 225, 5] : List Byte).take 9216)) : Parsed).haul = false ∨ ((parseFrame 47100 (([255, 255, 255, 255, 255, 255, 0, 0, 0, 0, 0, 0, 136, 181, 48, 1, 0, 5, 0, 3, 0, 0, 0, 0, 0, 2, 0, 0, 0, 0, 0, 0, 0, 22] ++ List.replicate 26 0 ++ [172, 234, 225, 5] : List Byte).take 9216)) : Parsed).ver ≠ 1) ∧
    (((parseFrame 47100 (([255, 255, 255, 255, 255, 255, 0, 0, 0, 0, 0, 0, 136, 181, 48, 1, 0, 5, 0, 3, 0, 0, 0, 0, 0, 2, 0, 0, 0, 0, 0, 0, 0, 22] ++ List.replicate 26 0 ++ [172, 234, 225, 5] : List Byte).take 9216)) : Parsed).dropAs = some 8) := by
  refine ⟨?_, ?_, ?_, ?_, ?_, ?_, ?_, ?_, ?_, ?_, ?_, ?_, ?_⟩ <;> decide +kernel

/-- States and operands that meet the hypotheses of the clauses of HaulFrames. -/
theorem test_meets_HaulFrames_4 :
    (5 < 6) ∧
    (w315.f F.HAUL_CTRL_EN 5 = 1) ∧
    (w315.f F.HAUL_STATUS_LINK 5 = 1) ∧
    ((w315.haulPort 5).rx = none) ∧
    (w315.portBlind fnHaul 5 = false) ∧
    (64 ≤ (([255, 255, 255, 255, 255, 255, 0, 0, 0, 0, 0, 0, 136, 181, 34, 1, 0, 5, 0, 3, 0, 0, 0, 0, 0, 2, 0, 0, 0, 0, 0, 0, 0, 22] ++ List.replicate 26 0 ++ [190, 125, 47, 107] : List Byte) : List Byte).length) ∧
    (beAt (([255, 255, 255, 255, 255, 255, 0, 0, 0, 0, 0, 0, 136, 181, 34, 1, 0, 5, 0, 3, 0, 0, 0, 0, 0, 2, 0, 0, 0, 0, 0, 0, 0, 22] ++ List.replicate 26 0 ++ [190, 125, 47, 107] : List Byte) : List Byte) 12 2 ≠ 0x8808) ∧
    (w315.macAccepts 5 (([255, 255, 255, 255, 255, 255, 0, 0, 0, 0, 0, 0, 136, 181, 34, 1, 0, 5, 0, 3, 0, 0, 0, 0, 0, 2, 0, 0, 0, 0, 0, 0, 0, 22] ++ List.replicate 26 0 ++ [190, 125, 47, 107] : List Byte) : List Byte) = true) ∧
    (w315.f F.CLS_CTRL_EN 0 = 1) ∧
    (((parseFrame 47100 (([255, 255, 255, 255, 255, 255, 0, 0, 0, 0, 0, 0, 136, 181, 34, 1, 0, 5, 0, 3, 0, 0, 0, 0, 0, 2, 0, 0, 0, 0, 0, 0, 0, 22] ++ List.replicate 26 0 ++ [190, 125, 47, 107] : List Byte).take 9216)) : Parsed) = parseFrame (w315.f F.HAUL_UDP_PORT 5) ((([255, 255, 255, 255, 255, 255, 0, 0, 0, 0, 0, 0, 136, 181, 34, 1, 0, 5, 0, 3, 0, 0, 0, 0, 0, 2, 0, 0, 0, 0, 0, 0, 0, 22] ++ List.replicate 26 0 ++ [190, 125, 47, 107] : List Byte) : List Byte).take 9216)) ∧
    (((parseFrame 47100 (([255, 255, 255, 255, 255, 255, 0, 0, 0, 0, 0, 0, 136, 181, 34, 1, 0, 5, 0, 3, 0, 0, 0, 0, 0, 2, 0, 0, 0, 0, 0, 0, 0, 22] ++ List.replicate 26 0 ++ [190, 125, 47, 107] : List Byte).take 9216)) : Parsed).parseErr = false) ∧
    (((parseFrame 47100 (([255, 255, 255, 255, 255, 255, 0, 0, 0, 0, 0, 0, 136, 181, 34, 1, 0, 5, 0, 3, 0, 0, 0, 0, 0, 2, 0, 0, 0, 0, 0, 0, 0, 22] ++ List.replicate 26 0 ++ [190, 125, 47, 107] : List Byte).take 9216)) : Parsed).dropAs = none) ∧
    (((parseFrame 47100 (([255, 255, 255, 255, 255, 255, 0, 0, 0, 0, 0, 0, 136, 181, 34, 1, 0, 5, 0, 3, 0, 0, 0, 0, 0, 2, 0, 0, 0, 0, 0, 0, 0, 22] ++ List.replicate 26 0 ++ [190, 125, 47, 107] : List Byte).take 9216)) : Parsed).haul = true) ∧
    (((parseFrame 47100 (([255, 255, 255, 255, 255, 255, 0, 0, 0, 0, 0, 0, 136, 181, 34, 1, 0, 5, 0, 3, 0, 0, 0, 0, 0, 2, 0, 0, 0, 0, 0, 0, 0, 22] ++ List.replicate 26 0 ++ [190, 125, 47, 107] : List Byte).take 9216)) : Parsed).ver = 2) ∧
    (((parseFrame 47100 (([255, 255, 255, 255, 255, 255, 0, 0, 0, 0, 0, 0, 136, 181, 34, 1, 0, 5, 0, 3, 0, 0, 0, 0, 0, 2, 0, 0, 0, 0, 0, 0, 0, 22] ++ List.replicate 26 0 ++ [190, 125, 47, 107] : List Byte).take 9216)) : Parsed).ptp = false) ∧
    ((14 = cntAddrUnset ∧ w315.device = 0 ∧ ¬(((parseFrame 47100 (([255, 255, 255, 255, 255, 255, 0, 0, 0, 0, 0, 0, 136, 181, 34, 1, 0, 5, 0, 3, 0, 0, 0, 0, 0, 2, 0, 0, 0, 0, 0, 0, 0, 22] ++ List.replicate 26 0 ++ [190, 125, 47, 107] : List Byte).take 9216)) : Parsed).typ = 3 ∧ ((parseFrame 47100 (([255, 255, 255, 255, 255, 255, 0, 0, 0, 0, 0, 0, 136, 181, 34, 1, 0, 5, 0, 3, 0, 0, 0, 0, 0, 2, 0, 0, 0, 0, 0, 0, 0, 22] ++ List.replicate 26 0 ++ [190, 125, 47, 107] : List Byte).take 9216)) : Parsed).tile % 4096 = 0xFFF)) ∨ (14 = cntLoop ∧ w315.device ≠ 0 ∧ ((parseFrame 47100 (([255, 255, 255, 255, 255, 255, 0, 0, 0, 0, 0, 0, 136, 181, 34, 1, 0, 5, 0, 3, 0, 0, 0, 0, 0, 2, 0, 0, 0, 0, 0, 0, 0, 22] ++ List.replicate 26 0 ++ [190, 125, 47, 107] : List Byte).take 9216)) : Parsed).srcDev = w315.device)) := by
  refine ⟨?_, ?_, ?_, ?_, ?_, ?_, ?_, ?_, ?_, ?_, ?_, ?_, ?_, ?_, ?_, ?_⟩ <;> decide +kernel

/-- States and operands that meet the hypotheses of the clauses of HaulFrames. -/
theorem test_meets_HaulFrames_5 :
    (5 < 6) ∧
    (w317.f F.HAUL_CTRL_EN 5 = 1) ∧
    (w317.f F.HAUL_STATUS_LINK 5 = 1) ∧
    ((w317.haulPort 5).rx = none) ∧
    (w317.portBlind fnHaul 5 = false) ∧
    (64 ≤ (([255, 255, 255, 255, 255, 255, 0, 0, 0, 0, 0, 0, 136, 181, 32, 1, 0, 5, 0, 3, 0, 0, 0, 0, 0, 5, 0, 0, 0, 0, 0, 0, 0, 22] ++ List.replicate 26 0 ++ [35, 39, 245, 151] : List Byte) : List Byte).length) ∧
    (beAt (([255, 255, 255, 255, 255, 255, 0, 0, 0, 0, 0, 0, 136, 181, 32, 1, 0, 5, 0, 3, 0, 0, 0, 0, 0, 5, 0, 0, 0, 0, 0, 0, 0, 22] ++ List.replicate 26 0 ++ [35, 39, 245, 151] : List Byte) : List Byte) 12 2 ≠ 0x8808) ∧
    (w317.macAccepts 5 (([255, 255, 255, 255, 255, 255, 0, 0, 0, 0, 0, 0, 136, 181, 32, 1, 0, 5, 0, 3, 0, 0, 0, 0, 0, 5, 0, 0, 0, 0, 0, 0, 0, 22] ++ List.replicate 26 0 ++ [35, 39, 245, 151] : List Byte) : List Byte) = true) ∧
    (w317.f F.CLS_CTRL_EN 0 = 1) ∧
    (((parseFrame 47100 (([255, 255, 255, 255, 255, 255, 0, 0, 0, 0, 0, 0, 136, 181, 32, 1, 0, 5, 0, 3, 0, 0, 0, 0, 0, 5, 0, 0, 0, 0, 0, 0, 0, 22] ++ List.replicate 26 0 ++ [35, 39, 245, 151] : List Byte).take 9216)) : Parsed) = parseFrame (w317.f F.HAUL_UDP_PORT 5) ((([255, 255, 255, 255, 255, 255, 0, 0, 0, 0, 0, 0, 136, 181, 32, 1, 0, 5, 0, 3, 0, 0, 0, 0, 0, 5, 0, 0, 0, 0, 0, 0, 0, 22] ++ List.replicate 26 0 ++ [35, 39, 245, 151] : List Byte) : List Byte).take 9216)) ∧
    (((parseFrame 47100 (([255, 255, 255, 255, 255, 255, 0, 0, 0, 0, 0, 0, 136, 181, 32, 1, 0, 5, 0, 3, 0, 0, 0, 0, 0, 5, 0, 0, 0, 0, 0, 0, 0, 22] ++ List.replicate 26 0 ++ [35, 39, 245, 151] : List Byte).take 9216)) : Parsed).parseErr = false) ∧
    (((parseFrame 47100 (([255, 255, 255, 255, 255, 255, 0, 0, 0, 0, 0, 0, 136, 181, 32, 1, 0, 5, 0, 3, 0, 0, 0, 0, 0, 5, 0, 0, 0, 0, 0, 0, 0, 22] ++ List.replicate 26 0 ++ [35, 39, 245, 151] : List Byte).take 9216)) : Parsed).dropAs = none) ∧
    (((parseFrame 47100 (([255, 255, 255, 255, 255, 255, 0, 0, 0, 0, 0, 0, 136, 181, 32, 1, 0, 5, 0, 3, 0, 0, 0, 0, 0, 5, 0, 0, 0, 0, 0, 0, 0, 22] ++ List.replicate 26 0 ++ [35, 39, 245, 151] : List Byte).take 9216)) : Parsed).haul = true) ∧
    (((parseFrame 47100 (([255, 255, 255, 255, 255, 255, 0, 0, 0, 0, 0, 0, 136, 181, 32, 1, 0, 5, 0, 3, 0, 0, 0, 0, 0, 5, 0, 0, 0, 0, 0, 0, 0, 22] ++ List.replicate 26 0 ++ [35, 39, 245, 151] : List Byte).take 9216)) : Parsed).ver = 2) ∧
    (((parseFrame 47100 (([255, 255, 255, 255, 255, 255, 0, 0, 0, 0, 0, 0, 136, 181, 32, 1, 0, 5, 0, 3, 0, 0, 0, 0, 0, 5, 0, 0, 0, 0, 0, 0, 0, 22] ++ List.replicate 26 0 ++ [35, 39, 245, 151] : List Byte).take 9216)) : Parsed).ptp = false) ∧
    ((1 = cntAddrUnset ∧ w317.device = 0 ∧ ¬(((parseFrame 47100 (([255, 255, 255, 255, 255, 255, 0, 0, 0, 0, 0, 0, 136, 181, 32, 1, 0, 5, 0, 3, 0, 0, 0, 0, 0, 5, 0, 0, 0, 0, 0, 0, 0, 22] ++ List.replicate 26 0 ++ [35, 39, 245, 151] : List Byte).take 9216)) : Parsed).typ = 3 ∧ ((parseFrame 47100 (([255, 255, 255, 255, 255, 255, 0, 0, 0, 0, 0, 0, 136, 181, 32, 1, 0, 5, 0, 3, 0, 0, 0, 0, 0, 5, 0, 0, 0, 0, 0, 0, 0, 22] ++ List.replicate 26 0 ++ [35, 39, 245, 151] : List Byte).take 9216)) : Parsed).tile % 4096 = 0xFFF)) ∨ (1 = cntLoop ∧ w317.device ≠ 0 ∧ ((parseFrame 47100 (([255, 255, 255, 255, 255, 255, 0, 0, 0, 0, 0, 0, 136, 181, 32, 1, 0, 5, 0, 3, 0, 0, 0, 0, 0, 5, 0, 0, 0, 0, 0, 0, 0, 22] ++ List.replicate 26 0 ++ [35, 39, 245, 151] : List Byte).take 9216)) : Parsed).srcDev = w317.device)) := by
  refine ⟨?_, ?_, ?_, ?_, ?_, ?_, ?_, ?_, ?_, ?_, ?_, ?_, ?_, ?_, ?_, ?_⟩ <;> decide +kernel

/-- States and operands that meet the hypotheses of the clauses of HaulFrames. -/
theorem test_meets_HaulFrames_6 :
    (5 < 6) ∧
    (w318.f F.HAUL_CTRL_EN 5 = 1) ∧
    (w318.f F.HAUL_STATUS_LINK 5 = 1) ∧
    ((w318.haulPort 5).rx = none) ∧
    (w318.portBlind fnHaul 5 = false) ∧
    (64 ≤ (([255, 255, 255, 255, 255, 255, 0, 0, 0, 0, 0, 0, 136, 181, 36, 1, 0, 5, 0, 3, 0, 0, 0, 0, 0, 2, 0, 0, 0, 0, 0, 0, 0, 22, 0, 0, 0, 0, 1, 7, 0, 64] ++ List.replicate 18 0 ++ [37, 44, 44, 131] : List Byte) : List Byte).length) ∧
    (beAt (([255, 255, 255, 255, 255, 255, 0, 0, 0, 0, 0, 0, 136, 181, 36, 1, 0, 5, 0, 3, 0, 0, 0, 0, 0, 2, 0, 0, 0, 0, 0, 0, 0, 22, 0, 0, 0, 0, 1, 7, 0, 64] ++ List.replicate 18 0 ++ [37, 44, 44, 131] : List Byte) : List Byte) 12 2 ≠ 0x8808) ∧
    (w318.macAccepts 5 (([255, 255, 255, 255, 255, 255, 0, 0, 0, 0, 0, 0, 136, 181, 36, 1, 0, 5, 0, 3, 0, 0, 0, 0, 0, 2, 0, 0, 0, 0, 0, 0, 0, 22, 0, 0, 0, 0, 1, 7, 0, 64] ++ List.replicate 18 0 ++ [37, 44, 44, 131] : List Byte) : List Byte) = true) ∧
    (w318.f F.CLS_CTRL_EN 0 = 1) ∧
    (((parseFrame 47100 (([255, 255, 255, 255, 255, 255, 0, 0, 0, 0, 0, 0, 136, 181, 36, 1, 0, 5, 0, 3, 0, 0, 0, 0, 0, 2, 0, 0, 0, 0, 0, 0, 0, 22, 0, 0, 0, 0, 1, 7, 0, 64] ++ List.replicate 18 0 ++ [37, 44, 44, 131] : List Byte).take 9216)) : Parsed) = parseFrame (w318.f F.HAUL_UDP_PORT 5) ((([255, 255, 255, 255, 255, 255, 0, 0, 0, 0, 0, 0, 136, 181, 36, 1, 0, 5, 0, 3, 0, 0, 0, 0, 0, 2, 0, 0, 0, 0, 0, 0, 0, 22, 0, 0, 0, 0, 1, 7, 0, 64] ++ List.replicate 18 0 ++ [37, 44, 44, 131] : List Byte) : List Byte).take 9216)) ∧
    (((parseFrame 47100 (([255, 255, 255, 255, 255, 255, 0, 0, 0, 0, 0, 0, 136, 181, 36, 1, 0, 5, 0, 3, 0, 0, 0, 0, 0, 2, 0, 0, 0, 0, 0, 0, 0, 22, 0, 0, 0, 0, 1, 7, 0, 64] ++ List.replicate 18 0 ++ [37, 44, 44, 131] : List Byte).take 9216)) : Parsed).parseErr = false) ∧
    (((parseFrame 47100 (([255, 255, 255, 255, 255, 255, 0, 0, 0, 0, 0, 0, 136, 181, 36, 1, 0, 5, 0, 3, 0, 0, 0, 0, 0, 2, 0, 0, 0, 0, 0, 0, 0, 22, 0, 0, 0, 0, 1, 7, 0, 64] ++ List.replicate 18 0 ++ [37, 44, 44, 131] : List Byte).take 9216)) : Parsed).dropAs = none) ∧
    (((parseFrame 47100 (([255, 255, 255, 255, 255, 255, 0, 0, 0, 0, 0, 0, 136, 181, 36, 1, 0, 5, 0, 3, 0, 0, 0, 0, 0, 2, 0, 0, 0, 0, 0, 0, 0, 22, 0, 0, 0, 0, 1, 7, 0, 64] ++ List.replicate 18 0 ++ [37, 44, 44, 131] : List Byte).take 9216)) : Parsed).haul = true) ∧
    (((parseFrame 47100 (([255, 255, 255, 255, 255, 255, 0, 0, 0, 0, 0, 0, 136, 181, 36, 1, 0, 5, 0, 3, 0, 0, 0, 0, 0, 2, 0, 0, 0, 0, 0, 0, 0, 22, 0, 0, 0, 0, 1, 7, 0, 64] ++ List.replicate 18 0 ++ [37, 44, 44, 131] : List Byte).take 9216)) : Parsed).ver = 2) ∧
    (((parseFrame 47100 (([255, 255, 255, 255, 255, 255, 0, 0, 0, 0, 0, 0, 136, 181, 36, 1, 0, 5, 0, 3, 0, 0, 0, 0, 0, 2, 0, 0, 0, 0, 0, 0, 0, 22, 0, 0, 0, 0, 1, 7, 0, 64] ++ List.replicate 18 0 ++ [37, 44, 44, 131] : List Byte).take 9216)) : Parsed).ptp = false) ∧
    (w318.device ≠ 0) ∧
    (((parseFrame 47100 (([255, 255, 255, 255, 255, 255, 0, 0, 0, 0, 0, 0, 136, 181, 36, 1, 0, 5, 0, 3, 0, 0, 0, 0, 0, 2, 0, 0, 0, 0, 0, 0, 0, 22, 0, 0, 0, 0, 1, 7, 0, 64] ++ List.replicate 18 0 ++ [37, 44, 44, 131] : List Byte).take 9216)) : Parsed).srcDev ≠ w318.device) ∧
    (((parseFrame 47100 (([255, 255, 255, 255, 255, 255, 0, 0, 0, 0, 0, 0, 136, 181, 36, 1, 0, 5, 0, 3, 0, 0, 0, 0, 0, 2, 0, 0, 0, 0, 0, 0, 0, 22, 0, 0, 0, 0, 1, 7, 0, 64] ++ List.replicate 18 0 ++ [37, 44, 44, 131] : List Byte).take 9216)) : Parsed).typ = 4) ∧
    (w318.ringPort 5 = true) ∧
    (byteAt (([255, 255, 255, 255, 255, 255, 0, 0, 0, 0, 0, 0, 136, 181, 36, 1, 0, 5, 0, 3, 0, 0, 0, 0, 0, 2, 0, 0, 0, 0, 0, 0, 0, 22, 0, 0, 0, 0, 1, 7, 0, 64] ++ List.replicate 18 0 ++ [37, 44, 44, 131] : List Byte) : List Byte) ((parseFrame 47100 (([255, 255, 255, 255, 255, 255, 0, 0, 0, 0, 0, 0, 136, 181, 36, 1, 0, 5, 0, 3, 0, 0, 0, 0, 0, 2, 0, 0, 0, 0, 0, 0, 0, 22, 0, 0, 0, 0, 1, 7, 0, 64] ++ List.replicate 18 0 ++ [37, 44, 44, 131] : List Byte).take 9216)) : Parsed).payAt = 1 ∨ byteAt (([255, 255, 255, 255, 255, 255, 0, 0, 0, 0, 0, 0, 136, 181, 36, 1, 0, 5, 0, 3, 0, 0, 0, 0, 0, 2, 0, 0, 0, 0, 0, 0, 0, 22, 0, 0, 0, 0, 1, 7, 0, 64] ++ List.replicate 18 0 ++ [37, 44, 44, 131] : List Byte) : List Byte) ((parseFrame 47100 (([255, 255, 255, 255, 255, 255, 0, 0, 0, 0, 0, 0, 136, 181, 36, 1, 0, 5, 0, 3, 0, 0, 0, 0, 0, 2, 0, 0, 0, 0, 0, 0, 0, 22, 0, 0, 0, 0, 1, 7, 0, 64] ++ List.replicate 18 0 ++ [37, 44, 44, 131] : List Byte).take 9216)) : Parsed).payAt = 2) := by
  refine ⟨?_, ?_, ?_, ?_, ?_, ?_, ?_, ?_, ?_, ?_, ?_, ?_, ?_, ?_, ?_, ?_, ?_, ?_, ?_, ?_⟩ <;> decide +kernel

/-- States and operands that meet the hypotheses of the clauses of HaulFrames. -/
theorem test_meets_HaulFrames_7 :
    (5 < 6) ∧
    (w318.f F.HAUL_CTRL_EN 5 = 1) ∧
    (w318.f F.HAUL_STATUS_LINK 5 = 1) ∧
    ((w318.haulPort 5).rx = none) ∧
    (w318.portBlind fnHaul 5 = false) ∧
    (64 ≤ (([255, 255, 255, 255, 255, 255, 0, 0, 0, 0, 0, 0, 136, 181, 36, 1, 0, 5, 0, 3, 0, 0, 0, 0, 0, 2, 0, 0, 0, 0, 0, 0, 0, 22, 0, 0, 0, 0, 2, 7, 1, 64] ++ List.replicate 18 0 ++ [35, 186, 51, 223] : List Byte) : List Byte).length) ∧
    (beAt (([255, 255, 255, 255, 255, 255, 0, 0, 0, 0, 0, 0, 136, 181, 36, 1, 0, 5, 0, 3, 0, 0, 0, 0, 0, 2, 0, 0, 0, 0, 0, 0, 0, 22, 0, 0, 0, 0, 2, 7, 1, 64] ++ List.replicate 18 0 ++ [35, 186, 51, 223] : List Byte) : List Byte) 12 2 ≠ 0x8808) ∧
    (w318.macAccepts 5 (([255, 255, 255, 255, 255, 255, 0, 0, 0, 0, 0, 0, 136, 181, 36, 1, 0, 5, 0, 3, 0, 0, 0, 0, 0, 2, 0, 0, 0, 0, 0, 0, 0, 22, 0, 0, 0, 0, 2, 7, 1, 64] ++ List.replicate 18 0 ++ [35, 186, 51, 223] : List Byte) : List Byte) = true) ∧
    (w318.f F.CLS_CTRL_EN 0 = 1) ∧
    (((parseFrame 47100 (([255, 255, 255, 255, 255, 255, 0, 0, 0, 0, 0, 0, 136, 181, 36, 1, 0, 5, 0, 3, 0, 0, 0, 0, 0, 2, 0, 0, 0, 0, 0, 0, 0, 22, 0, 0, 0, 0, 2, 7, 1, 64] ++ List.replicate 18 0 ++ [35, 186, 51, 223] : List Byte).take 9216)) : Parsed) = parseFrame (w318.f F.HAUL_UDP_PORT 5) ((([255, 255, 255, 255, 255, 255, 0, 0, 0, 0, 0, 0, 136, 181, 36, 1, 0, 5, 0, 3, 0, 0, 0, 0, 0, 2, 0, 0, 0, 0, 0, 0, 0, 22, 0, 0, 0, 0, 2, 7, 1, 64] ++ List.replicate 18 0 ++ [35, 186, 51, 223] : List Byte) : List Byte).take 9216)) ∧
    (((parseFrame 47100 (([255, 255, 255, 255, 255, 255, 0, 0, 0, 0, 0, 0, 136, 181, 36, 1, 0, 5, 0, 3, 0, 0, 0, 0, 0, 2, 0, 0, 0, 0, 0, 0, 0, 22, 0, 0, 0, 0, 2, 7, 1, 64] ++ List.replicate 18 0 ++ [35, 186, 51, 223] : List Byte).take 9216)) : Parsed).parseErr = false) ∧
    (((parseFrame 47100 (([255, 255, 255, 255, 255, 255, 0, 0, 0, 0, 0, 0, 136, 181, 36, 1, 0, 5, 0, 3, 0, 0, 0, 0, 0, 2, 0, 0, 0, 0, 0, 0, 0, 22, 0, 0, 0, 0, 2, 7, 1, 64] ++ List.replicate 18 0 ++ [35, 186, 51, 223] : List Byte).take 9216)) : Parsed).dropAs = none) ∧
    (((parseFrame 47100 (([255, 255, 255, 255, 255, 255, 0, 0, 0, 0, 0, 0, 136, 181, 36, 1, 0, 5, 0, 3, 0, 0, 0, 0, 0, 2, 0, 0, 0, 0, 0, 0, 0, 22, 0, 0, 0, 0, 2, 7, 1, 64] ++ List.replicate 18 0 ++ [35, 186, 51, 223] : List Byte).take 9216)) : Parsed).haul = true) ∧
    (((parseFrame 47100 (([255, 255, 255, 255, 255, 255, 0, 0, 0, 0, 0, 0, 136, 181, 36, 1, 0, 5, 0, 3, 0, 0, 0, 0, 0, 2, 0, 0, 0, 0, 0, 0, 0, 22, 0, 0, 0, 0, 2, 7, 1, 64] ++ List.replicate 18 0 ++ [35, 186, 51, 223] : List Byte).take 9216)) : Parsed).ver = 2) ∧
    (((parseFrame 47100 (([255, 255, 255, 255, 255, 255, 0, 0, 0, 0, 0, 0, 136, 181, 36, 1, 0, 5, 0, 3, 0, 0, 0, 0, 0, 2, 0, 0, 0, 0, 0, 0, 0, 22, 0, 0, 0, 0, 2, 7, 1, 64] ++ List.replicate 18 0 ++ [35, 186, 51, 223] : List Byte).take 9216)) : Parsed).ptp = false) ∧
    (w318.device ≠ 0) ∧
    (((parseFrame 47100 (([255, 255, 255, 255, 255, 255, 0, 0, 0, 0, 0, 0, 136, 181, 36, 1, 0, 5, 0, 3, 0, 0, 0, 0, 0, 2, 0, 0, 0, 0, 0, 0, 0, 22, 0, 0, 0, 0, 2, 7, 1, 64] ++ List.replicate 18 0 ++ [35, 186, 51, 223] : List Byte).take 9216)) : Parsed).srcDev ≠ w318.device) ∧
    (((parseFrame 47100 (([255, 255, 255, 255, 255, 255, 0, 0, 0, 0, 0, 0, 136, 181, 36, 1, 0, 5, 0, 3, 0, 0, 0, 0, 0, 2, 0, 0, 0, 0, 0, 0, 0, 22, 0, 0, 0, 0, 2, 7, 1, 64] ++ List.replicate 18 0 ++ [35, 186, 51, 223] : List Byte).take 9216)) : Parsed).typ = 4) ∧
    (w318.ringPort 5 = true) ∧
    (byteAt (([255, 255, 255, 255, 255, 255, 0, 0, 0, 0, 0, 0, 136, 181, 36, 1, 0, 5, 0, 3, 0, 0, 0, 0, 0, 2, 0, 0, 0, 0, 0, 0, 0, 22, 0, 0, 0, 0, 2, 7, 1, 64] ++ List.replicate 18 0 ++ [35, 186, 51, 223] : List Byte) : List Byte) ((parseFrame 47100 (([255, 255, 255, 255, 255, 255, 0, 0, 0, 0, 0, 0, 136, 181, 36, 1, 0, 5, 0, 3, 0, 0, 0, 0, 0, 2, 0, 0, 0, 0, 0, 0, 0, 22, 0, 0, 0, 0, 2, 7, 1, 64] ++ List.replicate 18 0 ++ [35, 186, 51, 223] : List Byte).take 9216)) : Parsed).payAt = 1 ∨ byteAt (([255, 255, 255, 255, 255, 255, 0, 0, 0, 0, 0, 0, 136, 181, 36, 1, 0, 5, 0, 3, 0, 0, 0, 0, 0, 2, 0, 0, 0, 0, 0, 0, 0, 22, 0, 0, 0, 0, 2, 7, 1, 64] ++ List.replicate 18 0 ++ [35, 186, 51, 223] : List Byte) : List Byte) ((parseFrame 47100 (([255, 255, 255, 255, 255, 255, 0, 0, 0, 0, 0, 0, 136, 181, 36, 1, 0, 5, 0, 3, 0, 0, 0, 0, 0, 2, 0, 0, 0, 0, 0, 0, 0, 22, 0, 0, 0, 0, 2, 7, 1, 64] ++ List.replicate 18 0 ++ [35, 186, 51, 223] : List Byte).take 9216)) : Parsed).payAt = 2) := by
  refine ⟨?_, ?_, ?_, ?_, ?_, ?_, ?_, ?_, ?_, ?_, ?_, ?_, ?_, ?_, ?_, ?_, ?_, ?_, ?_, ?_⟩ <;> decide +kernel

/-- States and operands that meet the hypotheses of the clauses of HaulFrames. -/
theorem test_meets_HaulFrames_8 :
    (5 < 6) ∧
    (w319.f F.HAUL_CTRL_EN 5 = 1) ∧
    (w319.f F.HAUL_STATUS_LINK 5 = 1) ∧
    ((w319.haulPort 5).rx = none) ∧
    (w319.portBlind fnHaul 5 = false) ∧
    (64 ≤ (([255, 255, 255, 255, 255, 255, 0, 0, 0, 0, 0, 0, 18, 52] ++ List.replicate 46 1 ++ [236, 142, 254, 110] : List Byte) : List Byte).length) ∧
    (beAt (([255, 255, 255, 255, 255, 255, 0, 0, 0, 0, 0, 0, 18, 52] ++ List.replicate 46 1 ++ [236, 142, 254, 110] : List Byte) : List Byte) 12 2 ≠ 0x8808) ∧
    (w319.macAccepts 5 (([255, 255, 255, 255, 255, 255, 0, 0, 0, 0, 0, 0, 18, 52] ++ List.replicate 46 1 ++ [236, 142, 254, 110] : List Byte) : List Byte) = true) ∧
    (w319.f F.CLS_CTRL_EN 0 = 1) ∧
    (((parseFrame 47100 (([255, 255, 255, 255, 255, 255, 0, 0, 0, 0, 0, 0, 18, 52] ++ List.replicate 46 1 ++ [236, 142, 254, 110] : List Byte).take 9216)) : Parsed) = parseFrame (w319.f F.HAUL_UDP_PORT 5) ((([255, 255, 255, 255, 255, 255, 0, 0, 0, 0, 0, 0, 18, 52] ++ List.replicate 46 1 ++ [236, 142, 254, 110] : List Byte) : List Byte).take 9216)) ∧
    (((parseFrame 47100 (([255, 255, 255, 255, 255, 255, 0, 0, 0, 0, 0, 0, 18, 52] ++ List.replicate 46 1 ++ [236, 142, 254, 110] : List Byte).take 9216)) : Parsed).parseErr = false) ∧
    (((parseFrame 47100 (([255, 255, 255, 255, 255, 255, 0, 0, 0, 0, 0, 0, 18, 52] ++ List.replicate 46 1 ++ [236, 142, 254, 110] : List Byte).take 9216)) : Parsed).dropAs = none) ∧
    (((parseFrame 47100 (([255, 255, 255, 255, 255, 255, 0, 0, 0, 0, 0, 0, 18, 52] ++ List.replicate 46 1 ++ [236, 142, 254, 110] : List Byte).take 9216)) : Parsed).haul = false) ∧
    (((parseFrame 47100 (([255, 255, 255, 255, 255, 255, 0, 0, 0, 0, 0, 0, 18, 52] ++ List.replicate 46 1 ++ [236, 142, 254, 110] : List Byte).take 9216)) : Parsed).ptp = false) ∧
    (((parseFrame 47100 (([255, 255, 255, 255, 255, 255, 0, 0, 0, 0, 0, 0, 18, 52] ++ List.replicate 46 1 ++ [236, 142, 254, 110] : List Byte).take 9216)) : Parsed).nonFirst = false) ∧
    (((parseFrame 47100 (([255, 255, 255, 255, 255, 255, 0, 0, 0, 0, 0, 0, 18, 52] ++ List.replicate 46 1 ++ [236, 142, 254, 110] : List Byte).take 9216)) : Parsed).fragId = none) ∧
    (w319.device ≠ 0) ∧
    (w319.lookUp ((parseFrame 47100 (([255, 255, 255, 255, 255, 255, 0, 0, 0, 0, 0, 0, 18, 52] ++ List.replicate 46 1 ++ [236, 142, 254, 110] : List Byte).take 9216)) : Parsed) 5 false = { action := (2 ^ 63), extra := 0, hit := false }) ∧
    (actDrop (2 ^ 63) = true) := by
  refine ⟨?_, ?_, ?_, ?_, ?_, ?_, ?_, ?_, ?_, ?_, ?_, ?_, ?_, ?_, ?_, ?_, ?_, ?_, ?_⟩ <;> decide +kernel

/-- States and operands that meet the hypotheses of the clauses of HaulFrames. -/
theorem test_meets_HaulFrames_9 :
    (5 < 6) ∧
    (w320.f F.HAUL_CTRL_EN 5 = 1) ∧
    (w320.f F.HAUL_STATUS_LINK 5 = 1) ∧
    ((w320.haulPort 5).rx = none) ∧
    (w320.portBlind fnHaul 5 = false) ∧
    (64 ≤ (([255, 255, 255, 255, 255, 255, 0, 0, 0, 0, 0, 0, 18, 52] ++ List.replicate 46 1 ++ [236, 142, 254, 110] : List Byte) : List Byte).length) ∧
    (beAt (([255, 255, 255, 255, 255, 255, 0, 0, 0, 0, 0, 0, 18, 52] ++ List.replicate 46 1 ++ [236, 142, 254, 110] : List Byte) : List Byte) 12 2 ≠ 0x8808) ∧
    (w320.macAccepts 5 (([255, 255, 255, 255, 255, 255, 0, 0, 0, 0, 0, 0, 18, 52] ++ List.replicate 46 1 ++ [236, 142, 254, 110] : List Byte) : List Byte) = true) ∧
    (w320.f F.CLS_CTRL_EN 0 = 1) ∧
    (((parseFrame 47100 (([255, 255, 255, 255, 255, 255, 0, 0, 0, 0, 0, 0, 18, 52] ++ List.replicate 46 1 ++ [236, 142, 254, 110] : List Byte).take 9216)) : Parsed) = parseFrame (w320.f F.HAUL_UDP_PORT 5) ((([255, 255, 255, 255, 255, 255, 0, 0, 0, 0, 0, 0, 18, 52] ++ List.replicate 46 1 ++ [236, 142, 254, 110] : List Byte) : List Byte).take 9216)) ∧
    (((parseFrame 47100 (([255, 255, 255, 255, 255, 255, 0, 0, 0, 0, 0, 0, 18, 52] ++ List.replicate 46 1 ++ [236, 142, 254, 110] : List Byte).take 9216)) : Parsed).parseErr = false) ∧
    (((parseFrame 47100 (([255, 255, 255, 255, 255, 255, 0, 0, 0, 0, 0, 0, 18, 52] ++ List.replicate 46 1 ++ [236, 142, 254, 110] : List Byte).take 9216)) : Parsed).dropAs = none) ∧
    (((parseFrame 47100 (([255, 255, 255, 255, 255, 255, 0, 0, 0, 0, 0, 0, 18, 52] ++ List.replicate 46 1 ++ [236, 142, 254, 110] : List Byte).take 9216)) : Parsed).haul = false) ∧
    (((parseFrame 47100 (([255, 255, 255, 255, 255, 255, 0, 0, 0, 0, 0, 0, 18, 52] ++ List.replicate 46 1 ++ [236, 142, 254, 110] : List Byte).take 9216)) : Parsed).ptp = false) ∧
    (((parseFrame 47100 (([255, 255, 255, 255, 255, 255, 0, 0, 0, 0, 0, 0, 18, 52] ++ List.replicate 46 1 ++ [236, 142, 254, 110] : List Byte).take 9216)) : Parsed).nonFirst = false) ∧
    (((parseFrame 47100 (([255, 255, 255, 255, 255, 255, 0, 0, 0, 0, 0, 0, 18, 52] ++ List.replicate 46 1 ++ [236, 142, 254, 110] : List Byte).take 9216)) : Parsed).fragId = none) ∧
    (((parseFrame 47100 (([255, 255, 255, 255, 255, 255, 0, 0, 0, 0, 0, 0, 18, 52] ++ List.replicate 46 1 ++ [236, 142, 254, 110] : List Byte).take 9216)) : Parsed).ver ≠ 1) ∧
    (w320.device ≠ 0) ∧
    (w320.lookUp ((parseFrame 47100 (([255, 255, 255, 255, 255, 255, 0, 0, 0, 0, 0, 0, 18, 52] ++ List.replicate 46 1 ++ [236, 142, 254, 110] : List Byte).take 9216)) : Parsed) 5 false = { action := (2 ^ 54) }) ∧
    (actDrop (2 ^ 54) = false) ∧
    (actMirror (2 ^ 54) = 0) ∧
    (actCopy (2 ^ 54) = false) ∧
    (actLocal (2 ^ 54) = false) ∧
    (actIngest (2 ^ 54) = false) ∧
    (w320.namedPorts (2 ^ 54) 5 = [4]) ∧
    (((((put [(F.HAUL_CTRL_EN, 5, 1), (F.HAUL_STATUS_LINK, 5, 1), (F.CLS_CTRL_EN, 0, 1), (F.CLS_DEVICE_ADDR, 0, 1), (F.BPM_CTRL_EN, 0, 1)]).withHaul (fun w => { w with live := { tern := [(8, 4294901760), (9, 1), (11, 4194304)], nTern := 1 } })).steerAll (parseFrame 47100 (([255, 255, 255, 255, 255, 255, 0, 0, 0, 0, 0, 0, 18, 52] ++ List.replicate 46 1 ++ [236, 142, 254, 110] : List Byte).take 9216)) (2 ^ 54) 5 [4]) : Steered) = w320.steerAll ((parseFrame 47100 (([255, 255, 255, 255, 255, 255, 0, 0, 0, 0, 0, 0, 18, 52] ++ List.replicate 46 1 ++ [236, 142, 254, 110] : List Byte).take 9216)) : Parsed) (2 ^ 54) 5 [4]) ∧
    (((((put [(F.HAUL_CTRL_EN, 5, 1), (F.HAUL_STATUS_LINK, 5, 1), (F.CLS_CTRL_EN, 0, 1), (F.CLS_DEVICE_ADDR, 0, 1), (F.BPM_CTRL_EN, 0, 1)]).withHaul (fun w => { w with live := { tern := [(8, 4294901760), (9, 1), (11, 4194304)], nTern := 1 } })).steerAll (parseFrame 47100 (([255, 255, 255, 255, 255, 255, 0, 0, 0, 0, 0, 0, 18, 52] ++ List.replicate 46 1 ++ [236, 142, 254, 110] : List Byte).take 9216)) (2 ^ 54) 5 [4]) : Steered).ports = [4]) ∧
    ((w320.noteSteering ((parseFrame 47100 (([255, 255, 255, 255, 255, 255, 0, 0, 0, 0, 0, 0, 18, 52] ++ List.replicate 46 1 ++ [236, 142, 254, 110] : List Byte).take 9216)) : Parsed) (2 ^ 54) ((((put [(F.HAUL_CTRL_EN, 5, 1), (F.HAUL_STATUS_LINK, 5, 1), (F.CLS_CTRL_EN, 0, 1), (F.CLS_DEVICE_ADDR, 0, 1), (F.BPM_CTRL_EN, 0, 1)]).withHaul (fun w => { w with live := { tern := [(8, 4294901760), (9, 1), (11, 4194304)], nTern := 1 } })).steerAll (parseFrame 47100 (([255, 255, 255, 255, 255, 255, 0, 0, 0, 0, 0, 0, 18, 52] ++ List.replicate 46 1 ++ [236, 142, 254, 110] : List Byte).take 9216)) (2 ^ 54) 5 [4]) : Steered)).allocPacket { ref := 1, inport := 5, arrival := w320.tick4, frame := (([255, 255, 255, 255, 255, 255, 0, 0, 0, 0, 0, 0, 18, 52] ++ List.replicate 46 1 ++ [236, 142, 254, 110] : List Byte) : List Byte).take 9216, whole := false } ((([255, 255, 255, 255, 255, 255, 0, 0, 0, 0, 0, 0, 18, 52] ++ List.replicate 46 1 ++ [236, 142, 254, 110] : List Byte) : List Byte).take 9216).length (decide (copyQueue ((parseFrame 47100 (([255, 255, 255, 255, 255, 255, 0, 0, 0, 0, 0, 0, 18, 52] ++ List.replicate 46 1 ++ [236, 142, 254, 110] : List Byte).take 9216)) : Parsed) (2 ^ 54) < 4)) = some (16, w321)) := by
  refine ⟨?_, ?_, ?_, ?_, ?_, ?_, ?_, ?_, ?_, ?_, ?_, ?_, ?_, ?_, ?_, ?_, ?_, ?_, ?_, ?_, ?_, ?_, ?_, ?_, ?_, ?_, ?_, ?_⟩ <;> decide +kernel

/-- States and operands that meet the hypotheses of the clauses of HaulFrames. -/
theorem test_meets_HaulFrames_10 :
    (5 < 6) ∧
    (w315.f F.HAUL_CTRL_EN 5 = 1) ∧
    (w315.f F.HAUL_STATUS_LINK 5 = 1) ∧
    ((w315.haulPort 5).rx = none) ∧
    (5 < 6) ∧
    (w313.f F.HAUL_CTRL_EN 5 = 1) ∧
    (w313.f F.HAUL_STATUS_LINK 5 = 1) ∧
    ((w313.haulPort 5).rx = none) ∧
    (5 < 6) ∧
    ((w322.haulPort 5).rx = some (({ frame := [255, 255, 255, 255, 255, 255, 0, 0, 0, 0, 0, 0, 18, 52] ++ List.replicate 46 1 ++ [236, 142, 254, 110], fixed := some 1 } : RxFrame) : RxFrame)) ∧
    (5 < 6) ∧
    ((w323.haulPort 5).rx = some (({ frame := [255, 255, 255, 255, 255, 255, 0, 0, 0, 0, 0, 0, 18, 52] ++ List.replicate 46 1 ++ [236, 142, 254, 110] } : RxFrame) : RxFrame)) ∧
    (5 < 6) ∧
    ((w324.haulPort 5).rx = some (({ frame := List.replicate 63 0 } : RxFrame) : RxFrame)) ∧
    ((3 = 3 ∧ (({ frame := List.replicate 63 0 } : RxFrame) : RxFrame).frame.length < 64) ∨ (3 = 4 ∧ 9216 < (({ frame := List.replicate 63 0 } : RxFrame) : RxFrame).frame.length) ∨ (3 = 2 ∧ 64 ≤ (({ frame := List.replicate 63 0 } : RxFrame) : RxFrame).frame.length ∧ (({ frame := List.replicate 63 0 } : RxFrame) : RxFrame).frame.length ≤ 9216 ∧ ((({ frame := List.replicate 63 0 } : RxFrame) : RxFrame).spoiled = true ∨ leAt (({ frame := List.replicate 63 0 } : RxFrame) : RxFrame).frame ((({ frame := List.replicate 63 0 } : RxFrame) : RxFrame).frame.length - 4) 4 ≠ crc32 ((({ frame := List.replicate 63 0 } : RxFrame) : RxFrame).frame.take ((({ frame := List.replicate 63 0 } : RxFrame) : RxFrame).frame.length - 4)))) ∨       (3 = 0 ∧ 64 ≤ (({ frame := List.replicate 63 0 } : RxFrame) : RxFrame).frame.length ∧ (({ frame := List.replicate 63 0 } : RxFrame) : RxFrame).frame.length ≤ 9216 ∧ (({ frame := List.replicate 63 0 } : RxFrame) : RxFrame).spoiled = false ∧ leAt (({ frame := List.replicate 63 0 } : RxFrame) : RxFrame).frame ((({ frame := List.replicate 63 0 } : RxFrame) : RxFrame).frame.length - 4) 4 = crc32 ((({ frame := List.replicate 63 0 } : RxFrame) : RxFrame).frame.take ((({ frame := List.replicate 63 0 } : RxFrame) : RxFrame).frame.length - 4)))) ∧
    (5 < 6) ∧
    ((w325.haulPort 5).rx = some (({ frame := [255, 255, 255, 255, 255, 255, 0, 0, 0, 0, 0, 0, 18, 52] ++ List.replicate 46 1 ++ [236, 142, 254, 110], spoiled := true } : RxFrame) : RxFrame)) ∧
    ((2 = 3 ∧ (({ frame := [255, 255, 255, 255, 255, 255, 0, 0, 0, 0, 0, 0, 18, 52] ++ List.replicate 46 1 ++ [236, 142, 254, 110], spoiled := true } : RxFrame) : RxFrame).frame.length < 64) ∨ (2 = 4 ∧ 9216 < (({ frame := [255, 255, 255, 255, 255, 255, 0, 0, 0, 0, 0, 0, 18, 52] ++ List.replicate 46 1 ++ [236, 142, 254, 110], spoiled := true } : RxFrame) : RxFrame).frame.length) ∨ (2 = 2 ∧ 64 ≤ (({ frame := [255, 255, 255, 255, 255, 255, 0, 0, 0, 0, 0, 0, 18, 52] ++ List.replicate 46 1 ++ [236, 142, 254, 110], spoiled := true } : RxFrame) : RxFrame).frame.length ∧ (({ frame := [255, 255, 255, 255, 255, 255, 0, 0, 0, 0, 0, 0, 18, 52] ++ List.replicate 46 1 ++ [236, 142, 254, 110], spoiled := true } : RxFrame) : RxFrame).frame.length ≤ 9216 ∧ ((({ frame := [255, 255, 255, 255, 255, 255, 0, 0, 0, 0, 0, 0, 18, 52] ++ List.replicate 46 1 ++ [236, 142, 254, 110], spoiled := true } : RxFrame) : RxFrame).spoiled = true ∨ leAt (({ frame := [255, 255, 255, 255, 255, 255, 0, 0, 0, 0, 0, 0, 18, 52] ++ List.replicate 46 1 ++ [236, 142, 254, 110], spoiled := true } : RxFrame) : RxFrame).frame ((({ frame := [255, 255, 255, 255, 255, 255, 0, 0, 0, 0, 0, 0, 18, 52] ++ List.replicate 46 1 ++ [236, 142, 254, 110], spoiled := true } : RxFrame) : RxFrame).frame.length - 4) 4 ≠ crc32 ((({ frame := [255, 255, 255, 255, 255, 255, 0, 0, 0, 0, 0, 0, 18, 52] ++ List.replicate 46 1 ++ [236, 142, 254, 110], spoiled := true } : RxFrame) : RxFrame).frame.take ((({ frame := [255, 255, 255, 255, 255, 255, 0, 0, 0, 0, 0, 0, 18, 52] ++ List.replicate 46 1 ++ [236, 142, 254, 110], spoiled := true } : RxFrame) : RxFrame).frame.length - 4)))) ∨       (2 = 0 ∧ 64 ≤ (({ frame := [255, 255, 255, 255, 255, 255, 0, 0, 0, 0, 0, 0, 18, 52] ++ List.replicate 46 1 ++ [236, 142, 254, 110], spoiled := true } : RxFrame) : RxFrame).frame.length ∧ (({ frame := [255, 255, 255, 255, 255, 255, 0, 0, 0, 0, 0, 0, 18, 52] ++ List.replicate 46 1 ++ [236, 142, 254, 110], spoiled := true } : RxFrame) : RxFrame).frame.length ≤ 9216 ∧ (({ frame := [255, 255, 255, 255, 255, 255, 0, 0, 0, 0, 0, 0, 18, 52] ++ List.replicate 46 1 ++ [236, 142, 254, 110], spoiled := true } : RxFrame) : RxFrame).spoiled = false ∧ leAt (({ frame := [255, 255, 255, 255, 255, 255, 0, 0, 0, 0, 0, 0, 18, 52] ++ List.replicate 46 1 ++ [236, 142, 254, 110], spoiled := true } : RxFrame) : RxFrame).frame ((({ frame := [255, 255, 255, 255, 255, 255, 0, 0, 0, 0, 0, 0, 18, 52] ++ List.replicate 46 1 ++ [236, 142, 254, 110], spoiled := true } : RxFrame) : RxFrame).frame.length - 4) 4 = crc32 ((({ frame := [255, 255, 255, 255, 255, 255, 0, 0, 0, 0, 0, 0, 18, 52] ++ List.replicate 46 1 ++ [236, 142, 254, 110], spoiled := true } : RxFrame) : RxFrame).frame.take ((({ frame := [255, 255, 255, 255, 255, 255, 0, 0, 0, 0, 0, 0, 18, 52] ++ List.replicate 46 1 ++ [236, 142, 254, 110], spoiled := true } : RxFrame) : RxFrame).frame.length - 4)))) ∧
    (5 < 6) ∧
    ((w326.haulPort 5).rx = some (({ frame := [255, 255, 255, 255, 255, 255, 0, 0, 0, 0, 0, 0, 18, 52] ++ List.replicate 46 1 ++ [236, 142, 254, 7] } : RxFrame) : RxFrame)) ∧
    ((2 = 3 ∧ (({ frame := [255, 255, 255, 255, 255, 255, 0, 0, 0, 0, 0, 0, 18, 52] ++ List.replicate 46 1 ++ [236, 142, 254, 7] } : RxFrame) : RxFrame).frame.length < 64) ∨ (2 = 4 ∧ 9216 < (({ frame := [255, 255, 255, 255, 255, 255, 0, 0, 0, 0, 0, 0, 18, 52] ++ List.replicate 46 1 ++ [236, 142, 254, 7] } : RxFrame) : RxFrame).frame.length) ∨ (2 = 2 ∧ 64 ≤ (({ frame := [255, 255, 255, 255, 255, 255, 0, 0, 0, 0, 0, 0, 18, 52] ++ List.replicate 46 1 ++ [236, 142, 254, 7] } : RxFrame) : RxFrame).frame.length ∧ (({ frame := [255, 255, 255, 255, 255, 255, 0, 0, 0, 0, 0, 0, 18, 52] ++ List.replicate 46 1 ++ [236, 142, 254, 7] } : RxFrame) : RxFrame).frame.length ≤ 9216 ∧ ((({ frame := [255, 255, 255, 255, 255, 255, 0, 0, 0, 0, 0, 0, 18, 52] ++ List.replicate 46 1 ++ [236, 142, 254, 7] } : RxFrame) : RxFrame).spoiled = true ∨ leAt (({ frame := [255, 255, 255, 255, 255, 255, 0, 0, 0, 0, 0, 0, 18, 52] ++ List.replicate 46 1 ++ [236, 142, 254, 7] } : RxFrame) : RxFrame).frame ((({ frame := [255, 255, 255, 255, 255, 255, 0, 0, 0, 0, 0, 0, 18, 52] ++ List.replicate 46 1 ++ [236, 142, 254, 7] } : RxFrame) : RxFrame).frame.length - 4) 4 ≠ crc32 ((({ frame := [255, 255, 255, 255, 255, 255, 0, 0, 0, 0, 0, 0, 18, 52] ++ List.replicate 46 1 ++ [236, 142, 254, 7] } : RxFrame) : RxFrame).frame.take ((({ frame := [255, 255, 255, 255, 255, 255, 0, 0, 0, 0, 0, 0, 18, 52] ++ List.replicate 46 1 ++ [236, 142, 254, 7] } : RxFrame) : RxFrame).frame.length - 4)))) ∨       (2 = 0 ∧ 64 ≤ (({ frame := [255, 255, 255, 255, 255, 255, 0, 0, 0, 0, 0, 0, 18, 52] ++ List.replicate 46 1 ++ [236, 142, 254, 7] } : RxFrame) : RxFrame).frame.length ∧ (({ frame := [255, 255, 255, 255, 255, 255, 0, 0, 0, 0, 0, 0, 18, 52] ++ List.replicate 46 1 ++ [236, 142, 254, 7] } : RxFrame) : RxFrame).frame.length ≤ 9216 ∧ (({ frame := [255, 255, 255, 255, 255, 255, 0, 0, 0, 0, 0, 0, 18, 52] ++ List.replicate 46 1 ++ [236, 142, 254, 7] } : RxFrame) : RxFrame).spoiled = false ∧ leAt (({ frame := [255, 255, 255, 255, 255, 255, 0, 0, 0, 0, 0, 0, 18, 52] ++ List.replicate 46 1 ++ [236, 142, 254, 7] } : RxFrame) : RxFrame).frame ((({ frame := [255, 255, 255, 255, 255, 255, 0, 0, 0, 0, 0, 0, 18, 52] ++ List.replicate 46 1 ++ [236, 142, 254, 7] } : RxFrame) : RxFrame).frame.length - 4) 4 = crc32 ((({ frame := [255, 255, 255, 255, 255, 255, 0, 0, 0, 0, 0, 0, 18, 52] ++ List.replicate 46 1 ++ [236, 142, 254, 7] } : RxFrame) : RxFrame).frame.take ((({ frame := [255, 255, 255, 255, 255, 255, 0, 0, 0, 0, 0, 0, 18, 52] ++ List.replicate 46 1 ++ [236, 142, 254, 7] } : RxFrame) : RxFrame).frame.length - 4)))) ∧
    (5 < 6) ∧
    ((w323.haulPort 5).rx = some (({ frame := [255, 255, 255, 255, 255, 255, 0, 0, 0, 0, 0, 0, 18, 52] ++ List.replicate 46 1 ++ [236, 142, 254, 110] } : RxFrame) : RxFrame)) ∧
    ((0 = 3 ∧ (({ frame := [255, 255, 255, 255, 255, 255, 0, 0, 0, 0, 0, 0, 18, 52] ++ List.replicate 46 1 ++ [236, 142, 254, 110] } : RxFrame) : RxFrame).frame.length < 64) ∨ (0 = 4 ∧ 9216 < (({ frame := [255, 255, 255, 255, 255, 255, 0, 0, 0, 0, 0, 0, 18, 52] ++ List.replicate 46 1 ++ [236, 142, 254, 110] } : RxFrame) : RxFrame).frame.length) ∨ (0 = 2 ∧ 64 ≤ (({ frame := [255, 255, 255, 255, 255, 255, 0, 0, 0, 0, 0, 0, 18, 52] ++ List.replicate 46 1 ++ [236, 142, 254, 110] } : RxFrame) : RxFrame).frame.length ∧ (({ frame := [255, 255, 255, 255, 255, 255, 0, 0, 0, 0, 0, 0, 18, 52] ++ List.replicate 46 1 ++ [236, 142, 254, 110] } : RxFrame) : RxFrame).frame.length ≤ 9216 ∧ ((({ frame := [255, 255, 255, 255, 255, 255, 0, 0, 0, 0, 0, 0, 18, 52] ++ List.replicate 46 1 ++ [236, 142, 254, 110] } : RxFrame) : RxFrame).spoiled = true ∨ leAt (({ frame := [255, 255, 255, 255, 255, 255, 0, 0, 0, 0, 0, 0, 18, 52] ++ List.replicate 46 1 ++ [236, 142, 254, 110] } : RxFrame) : RxFrame).frame ((({ frame := [255, 255, 255, 255, 255, 255, 0, 0, 0, 0, 0, 0, 18, 52] ++ List.replicate 46 1 ++ [236, 142, 254, 110] } : RxFrame) : RxFrame).frame.length - 4) 4 ≠ crc32 ((({ frame := [255, 255, 255, 255, 255, 255, 0, 0, 0, 0, 0, 0, 18, 52] ++ List.replicate 46 1 ++ [236, 142, 254, 110] } : RxFrame) : RxFrame).frame.take ((({ frame := [255, 255, 255, 255, 255, 255, 0, 0, 0, 0, 0, 0, 18, 52] ++ List.replicate 46 1 ++ [236, 142, 254, 110] } : RxFrame) : RxFrame).frame.length - 4)))) ∨       (0 = 0 ∧ 64 ≤ (({ frame := [255, 255, 255, 255, 255, 255, 0, 0, 0, 0, 0, 0, 18, 52] ++ List.replicate 46 1 ++ [236, 142, 254, 110] } : RxFrame) : RxFrame).frame.length ∧ (({ frame := [255, 255, 255, 255, 255, 255, 0, 0, 0, 0, 0, 0, 18, 52] ++ List.replicate 46 1 ++ [236, 142, 254, 110] } : RxFrame) : RxFrame).frame.length ≤ 9216 ∧ (({ frame := [255, 255, 255, 255, 255, 255, 0, 0, 0, 0, 0, 0, 18, 52] ++ List.replicate 46 1 ++ [236, 142, 254, 110] } : RxFrame) : RxFrame).spoiled = false ∧ leAt (({ frame := [255, 255, 255, 255, 255, 255, 0, 0, 0, 0, 0, 0, 18, 52] ++ List.replicate 46 1 ++ [236, 142, 254, 110] } : RxFrame) : RxFrame).frame ((({ frame := [255, 255, 255, 255, 255, 255, 0, 0, 0, 0, 0, 0, 18, 52] ++ List.replicate 46 1 ++ [236, 142, 254, 110] } : RxFrame) : RxFrame).frame.length - 4) 4 = crc32 ((({ frame := [255, 255, 255, 255, 255, 255, 0, 0, 0, 0, 0, 0, 18, 52] ++ List.replicate 46 1 ++ [236, 142, 254, 110] } : RxFrame) : RxFrame).frame.take ((({ frame := [255, 255, 255, 255, 255, 255, 0, 0, 0, 0, 0, 0, 18, 52] ++ List.replicate 46 1 ++ [236, 142, 254, 110] } : RxFrame) : RxFrame).frame.length - 4)))) := by
  refine ⟨?_, ?_, ?_, ?_, ?_, ?_, ?_, ?_, ?_, ?_, ?_, ?_, ?_, ?_, ?_, ?_, ?_, ?_, ?_, ?_, ?_, ?_, ?_, ?_⟩ <;> decide +kernel

/-- States and operands that meet the hypotheses of the clauses of HaulFrames. -/
theorem test_meets_HaulFrames_11 :
    (5 < 6) ∧
    ((w2.haulPort 5).rx = none) ∧
    (5 < 6) ∧
    ((w327.haulPort 5).rx = some (({ frame := [255, 255, 255, 255, 255, 255, 0, 0, 0, 0, 0, 0, 18, 52] ++ List.replicate 46 1 ++ [236, 142, 254, 110], spoiled := true } : RxFrame) : RxFrame)) ∧
    ((({ frame := [255, 255, 255, 255, 255, 255, 0, 0, 0, 0, 0, 0, 18, 52] ++ List.replicate 46 1 ++ [236, 142, 254, 110], spoiled := true } : RxFrame) : RxFrame).buf = none) ∧
    (5 < 6) ∧
    ((w324.haulPort 5).rx = some (({ frame := List.replicate 63 0 } : RxFrame) : RxFrame)) ∧
    ((({ frame := List.replicate 63 0 } : RxFrame) : RxFrame).buf = none) ∧
    ((3 = 3 ∧ (({ frame := List.replicate 63 0 } : RxFrame) : RxFrame).frame.length < 64) ∨ (3 = 4 ∧ 9216 < (({ frame := List.replicate 63 0 } : RxFrame) : RxFrame).frame.length) ∨ (3 = 2 ∧ 64 ≤ (({ frame := List.replicate 63 0 } : RxFrame) : RxFrame).frame.length ∧ (({ frame := List.replicate 63 0 } : RxFrame) : RxFrame).frame.length ≤ 9216 ∧ (({ frame := List.replicate 63 0 } : RxFrame) : RxFrame).spoiled = true) ∨       (3 = 2 ∧ 64 ≤ (({ frame := List.replicate 63 0 } : RxFrame) : RxFrame).frame.length ∧ (({ frame := List.replicate 63 0 } : RxFrame) : RxFrame).frame.length ≤ 9216 ∧ leAt (({ frame := List.replicate 63 0 } : RxFrame) : RxFrame).frame ((({ frame := List.replicate 63 0 } : RxFrame) : RxFrame).frame.length - 4) 4 ≠ crc32 ((({ frame := List.replicate 63 0 } : RxFrame) : RxFrame).frame.take ((({ frame := List.replicate 63 0 } : RxFrame) : RxFrame).frame.length - 4))) ∨       (3 = 0 ∧ 64 ≤ (({ frame := List.replicate 63 0 } : RxFrame) : RxFrame).frame.length ∧ (({ frame := List.replicate 63 0 } : RxFrame) : RxFrame).frame.length ≤ 9216 ∧ (({ frame := List.replicate 63 0 } : RxFrame) : RxFrame).spoiled = false ∧ (({ frame := List.replicate 63 0 } : RxFrame) : RxFrame).dropped = true ∧ leAt (({ frame := List.replicate 63 0 } : RxFrame) : RxFrame).frame ((({ frame := List.replicate 63 0 } : RxFrame) : RxFrame).frame.length - 4) 4 = crc32 ((({ frame := List.replicate 63 0 } : RxFrame) : RxFrame).frame.take ((({ frame := List.replicate 63 0 } : RxFrame) : RxFrame).frame.length - 4)))) ∧
    (5 < 6) ∧
    ((w327.haulPort 5).rx = some (({ frame := [255, 255, 255, 255, 255, 255, 0, 0, 0, 0, 0, 0, 18, 52] ++ List.replicate 46 1 ++ [236, 142, 254, 110], spoiled := true } : RxFrame) : RxFrame)) ∧
    ((({ frame := [255, 255, 255, 255, 255, 255, 0, 0, 0, 0, 0, 0, 18, 52] ++ List.replicate 46 1 ++ [236, 142, 254, 110], spoiled := true } : RxFrame) : RxFrame).buf = none) ∧
    ((2 = 3 ∧ (({ frame := [255, 255, 255, 255, 255, 255, 0, 0, 0, 0, 0, 0, 18, 52] ++ List.replicate 46 1 ++ [236, 142, 254, 110], spoiled := true } : RxFrame) : RxFrame).frame.length < 64) ∨ (2 = 4 ∧ 9216 < (({ frame := [255, 255, 255, 255, 255, 255, 0, 0, 0, 0, 0, 0, 18, 52] ++ List.replicate 46 1 ++ [236, 142, 254, 110], spoiled := true } : RxFrame) : RxFrame).frame.length) ∨ (2 = 2 ∧ 64 ≤ (({ frame := [255, 255, 255, 255, 255, 255, 0, 0, 0, 0, 0, 0, 18, 52] ++ List.replicate 46 1 ++ [236, 142, 254, 110], spoiled := true } : RxFrame) : RxFrame).frame.length ∧ (({ frame := [255, 255, 255, 255, 255, 255, 0, 0, 0, 0, 0, 0, 18, 52] ++ List.replicate 46 1 ++ [236, 142, 254, 110], spoiled := true } : RxFrame) : RxFrame).frame.length ≤ 9216 ∧ (({ frame := [255, 255, 255, 255, 255, 255, 0, 0, 0, 0, 0, 0, 18, 52] ++ List.replicate 46 1 ++ [236, 142, 254, 110], spoiled := true } : RxFrame) : RxFrame).spoiled = true) ∨       (2 = 2 ∧ 64 ≤ (({ frame := [255, 255, 255, 255, 255, 255, 0, 0, 0, 0, 0, 0, 18, 52] ++ List.replicate 46 1 ++ [236, 142, 254, 110], spoiled := true } : RxFrame) : RxFrame).frame.length ∧ (({ frame := [255, 255, 255, 255, 255, 255, 0, 0, 0, 0, 0, 0, 18, 52] ++ List.replicate 46 1 ++ [236, 142, 254, 110], spoiled := true } : RxFrame) : RxFrame).frame.length ≤ 9216 ∧ leAt (({ frame := [255, 255, 255, 255, 255, 255, 0, 0, 0, 0, 0, 0, 18, 52] ++ List.replicate 46 1 ++ [236, 142, 254, 110], spoiled := true } : RxFrame) : RxFrame).frame ((({ frame := [255, 255, 255, 255, 255, 255, 0, 0, 0, 0, 0, 0, 18, 52] ++ List.replicate 46 1 ++ [236, 142, 254, 110], spoiled := true } : RxFrame) : RxFrame).frame.length - 4) 4 ≠ crc32 ((({ frame := [255, 255, 255, 255, 255, 255, 0, 0, 0, 0, 0, 0, 18, 52] ++ List.replicate 46 1 ++ [236, 142, 254, 110], spoiled := true } : RxFrame) : RxFrame).frame.take ((({ frame := [255, 255, 255, 255, 255, 255, 0, 0, 0, 0, 0, 0, 18, 52] ++ List.replicate 46 1 ++ [236, 142, 254, 110], spoiled := true } : RxFrame) : RxFrame).frame.length - 4))) ∨       (2 = 0 ∧ 64 ≤ (({ frame := [255, 255, 255, 255, 255, 255, 0, 0, 0, 0, 0, 0, 18, 52] ++ List.replicate 46 1 ++ [236, 142, 254, 110], spoiled := true } : RxFrame) : RxFrame).frame.length ∧ (({ frame := [255, 255, 255, 255, 255, 255, 0, 0, 0, 0, 0, 0, 18, 52] ++ List.replicate 46 1 ++ [236, 142, 254, 110], spoiled := true } : RxFrame) : RxFrame).frame.length ≤ 9216 ∧ (({ frame := [255, 255, 255, 255, 255, 255, 0, 0, 0, 0, 0, 0, 18, 52] ++ List.replicate 46 1 ++ [236, 142, 254, 110], spoiled := true } : RxFrame) : RxFrame).spoiled = false ∧ (({ frame := [255, 255, 255, 255, 255, 255, 0, 0, 0, 0, 0, 0, 18, 52] ++ List.replicate 46 1 ++ [236, 142, 254, 110], spoiled := true } : RxFrame) : RxFrame).dropped = true ∧ leAt (({ frame := [255, 255, 255, 255, 255, 255, 0, 0, 0, 0, 0, 0, 18, 52] ++ List.replicate 46 1 ++ [236, 142, 254, 110], spoiled := true } : RxFrame) : RxFrame).frame ((({ frame := [255, 255, 255, 255, 255, 255, 0, 0, 0, 0, 0, 0, 18, 52] ++ List.replicate 46 1 ++ [236, 142, 254, 110], spoiled := true } : RxFrame) : RxFrame).frame.length - 4) 4 = crc32 ((({ frame := [255, 255, 255, 255, 255, 255, 0, 0, 0, 0, 0, 0, 18, 52] ++ List.replicate 46 1 ++ [236, 142, 254, 110], spoiled := true } : RxFrame) : RxFrame).frame.take ((({ frame := [255, 255, 255, 255, 255, 255, 0, 0, 0, 0, 0, 0, 18, 52] ++ List.replicate 46 1 ++ [236, 142, 254, 110], spoiled := true } : RxFrame) : RxFrame).frame.length - 4)))) ∧
    (5 < 6) ∧
    ((w326.haulPort 5).rx = some (({ frame := [255, 255, 255, 255, 255, 255, 0, 0, 0, 0, 0, 0, 18, 52] ++ List.replicate 46 1 ++ [236, 142, 254, 7] } : RxFrame) : RxFrame)) ∧
    ((({ frame := [255, 255, 255, 255, 255, 255, 0, 0, 0, 0, 0, 0, 18, 52] ++ List.replicate 46 1 ++ [236, 142, 254, 7] } : RxFrame) : RxFrame).buf = none) ∧
    ((2 = 3 ∧ (({ frame := [255, 255, 255, 255, 255, 255, 0, 0, 0, 0, 0, 0, 18, 52] ++ List.replicate 46 1 ++ [236, 142, 254, 7] } : RxFrame) : RxFrame).frame.length < 64) ∨ (2 = 4 ∧ 9216 < (({ frame := [255, 255, 255, 255, 255, 255, 0, 0, 0, 0, 0, 0, 18, 52] ++ List.replicate 46 1 ++ [236, 142, 254, 7] } : RxFrame) : RxFrame).frame.length) ∨ (2 = 2 ∧ 64 ≤ (({ frame := [255, 255, 255, 255, 255, 255, 0, 0, 0, 0, 0, 0, 18, 52] ++ List.replicate 46 1 ++ [236, 142, 254, 7] } : RxFrame) : RxFrame).frame.length ∧ (({ frame := [255, 255, 255, 255, 255, 255, 0, 0, 0, 0, 0, 0, 18, 52] ++ List.replicate 46 1 ++ [236, 142, 254, 7] } : RxFrame) : RxFrame).frame.length ≤ 9216 ∧ (({ frame := [255, 255, 255, 255, 255, 255, 0, 0, 0, 0, 0, 0, 18, 52] ++ List.replicate 46 1 ++ [236, 142, 254, 7] } : RxFrame) : RxFrame).spoiled = true) ∨       (2 = 2 ∧ 64 ≤ (({ frame := [255, 255, 255, 255, 255, 255, 0, 0, 0, 0, 0, 0, 18, 52] ++ List.replicate 46 1 ++ [236, 142, 254, 7] } : RxFrame) : RxFrame).frame.length ∧ (({ frame := [255, 255, 255, 255, 255, 255, 0, 0, 0, 0, 0, 0, 18, 52] ++ List.replicate 46 1 ++ [236, 142, 254, 7] } : RxFrame) : RxFrame).frame.length ≤ 9216 ∧ leAt (({ frame := [255, 255, 255, 255, 255, 255, 0, 0, 0, 0, 0, 0, 18, 52] ++ List.replicate 46 1 ++ [236, 142, 254, 7] } : RxFrame) : RxFrame).frame ((({ frame := [255, 255, 255, 255, 255, 255, 0, 0, 0, 0, 0, 0, 18, 52] ++ List.replicate 46 1 ++ [236, 142, 254, 7] } : RxFrame) : RxFrame).frame.length - 4) 4 ≠ crc32 ((({ frame := [255, 255, 255, 255, 255, 255, 0, 0, 0, 0, 0, 0, 18, 52] ++ List.replicate 46 1 ++ [236, 142, 254, 7] } : RxFrame) : RxFrame).frame.take ((({ frame := [255, 255, 255, 255, 255, 255, 0, 0, 0, 0, 0, 0, 18, 52] ++ List.replicate 46 1 ++ [236, 142, 254, 7] } : RxFrame) : RxFrame).frame.length - 4))) ∨       (2 = 0 ∧ 64 ≤ (({ frame := [255, 255, 255, 255, 255, 255, 0, 0, 0, 0, 0, 0, 18, 52] ++ List.replicate 46 1 ++ [236, 142, 254, 7] } : RxFrame) : RxFrame).frame.length ∧ (({ frame := [255, 255, 255, 255, 255, 255, 0, 0, 0, 0, 0, 0, 18, 52] ++ List.replicate 46 1 ++ [236, 142, 254, 7] } : RxFrame) : RxFrame).frame.length ≤ 9216 ∧ (({ frame := [255, 255, 255, 255, 255, 255, 0, 0, 0, 0, 0, 0, 18, 52] ++ List.replicate 46 1 ++ [236, 142, 254, 7] } : RxFrame) : RxFrame).spoiled = false ∧ (({ frame := [255, 255, 255, 255, 255, 255, 0, 0, 0, 0, 0, 0, 18, 52] ++ List.replicate 46 1 ++ [236, 142, 254, 7] } : RxFrame) : RxFrame).dropped = true ∧ leAt (({ frame := [255, 255, 255, 255, 255, 255, 0, 0, 0, 0, 0, 0, 18, 52] ++ List.replicate 46 1 ++ [236, 142, 254, 7] } : RxFrame) : RxFrame).frame ((({ frame := [255, 255, 255, 255, 255, 255, 0, 0, 0, 0, 0, 0, 18, 52] ++ List.replicate 46 1 ++ [236, 142, 254, 7] } : RxFrame) : RxFrame).frame.length - 4) 4 = crc32 ((({ frame := [255, 255, 255, 255, 255, 255, 0, 0, 0, 0, 0, 0, 18, 52] ++ List.replicate 46 1 ++ [236, 142, 254, 7] } : RxFrame) : RxFrame).frame.take ((({ frame := [255, 255, 255, 255, 255, 255, 0, 0, 0, 0, 0, 0, 18, 52] ++ List.replicate 46 1 ++ [236, 142, 254, 7] } : RxFrame) : RxFrame).frame.length - 4)))) ∧
    (5 < 6) ∧
    ((w328.haulPort 5).rx = some (({ frame := [255, 255, 255, 255, 255, 255, 0, 0, 0, 0, 0, 0, 18, 52] ++ List.replicate 46 1 ++ [236, 142, 254, 110], dropped := true } : RxFrame) : RxFrame)) ∧
    ((({ frame := [255, 255, 255, 255, 255, 255, 0, 0, 0, 0, 0, 0, 18, 52] ++ List.replicate 46 1 ++ [236, 142, 254, 110], dropped := true } : RxFrame) : RxFrame).buf = none) ∧
    ((0 = 3 ∧ (({ frame := [255, 255, 255, 255, 255, 255, 0, 0, 0, 0, 0, 0, 18, 52] ++ List.replicate 46 1 ++ [236, 142, 254, 110], dropped := true } : RxFrame) : RxFrame).frame.length < 64) ∨ (0 = 4 ∧ 9216 < (({ frame := [255, 255, 255, 255, 255, 255, 0, 0, 0, 0, 0, 0, 18, 52] ++ List.replicate 46 1 ++ [236, 142, 254, 110], dropped := true } : RxFrame) : RxFrame).frame.length) ∨ (0 = 2 ∧ 64 ≤ (({ frame := [255, 255, 255, 255, 255, 255, 0, 0, 0, 0, 0, 0, 18, 52] ++ List.replicate 46 1 ++ [236, 142, 254, 110], dropped := true } : RxFrame) : RxFrame).frame.length ∧ (({ frame := [255, 255, 255, 255, 255, 255, 0, 0, 0, 0, 0, 0, 18, 52] ++ List.replicate 46 1 ++ [236, 142, 254, 110], dropped := true } : RxFrame) : RxFrame).frame.length ≤ 9216 ∧ (({ frame := [255, 255, 255, 255, 255, 255, 0, 0, 0, 0, 0, 0, 18, 52] ++ List.replicate 46 1 ++ [236, 142, 254, 110], dropped := true } : RxFrame) : RxFrame).spoiled = true) ∨       (0 = 2 ∧ 64 ≤ (({ frame := [255, 255, 255, 255, 255, 255, 0, 0, 0, 0, 0, 0, 18, 52] ++ List.replicate 46 1 ++ [236, 142, 254, 110], dropped := true } : RxFrame) : RxFrame).frame.length ∧ (({ frame := [255, 255, 255, 255, 255, 255, 0, 0, 0, 0, 0, 0, 18, 52] ++ List.replicate 46 1 ++ [236, 142, 254, 110], dropped := true } : RxFrame) : RxFrame).frame.length ≤ 9216 ∧ leAt (({ frame := [255, 255, 255, 255, 255, 255, 0, 0, 0, 0, 0, 0, 18, 52] ++ List.replicate 46 1 ++ [236, 142, 254, 110], dropped := true } : RxFrame) : RxFrame).frame ((({ frame := [255, 255, 255, 255, 255, 255, 0, 0, 0, 0, 0, 0, 18, 52] ++ List.replicate 46 1 ++ [236, 142, 254, 110], dropped := true } : RxFrame) : RxFrame).frame.length - 4) 4 ≠ crc32 ((({ frame := [255, 255, 255, 255, 255, 255, 0, 0, 0, 0, 0, 0, 18, 52] ++ List.replicate 46 1 ++ [236, 142, 254, 110], dropped := true } : RxFrame) : RxFrame).frame.take ((({ frame := [255, 255, 255, 255, 255, 255, 0, 0, 0, 0, 0, 0, 18, 52] ++ List.replicate 46 1 ++ [236, 142, 254, 110], dropped := true } : RxFrame) : RxFrame).frame.length - 4))) ∨       (0 = 0 ∧ 64 ≤ (({ frame := [255, 255, 255, 255, 255, 255, 0, 0, 0, 0, 0, 0, 18, 52] ++ List.replicate 46 1 ++ [236, 142, 254, 110], dropped := true } : RxFrame) : RxFrame).frame.length ∧ (({ frame := [255, 255, 255, 255, 255, 255, 0, 0, 0, 0, 0, 0, 18, 52] ++ List.replicate 46 1 ++ [236, 142, 254, 110], dropped := true } : RxFrame) : RxFrame).frame.length ≤ 9216 ∧ (({ frame := [255, 255, 255, 255, 255, 255, 0, 0, 0, 0, 0, 0, 18, 52] ++ List.replicate 46 1 ++ [236, 142, 254, 110], dropped := true } : RxFrame) : RxFrame).spoiled = false ∧ (({ frame := [255, 255, 255, 255, 255, 255, 0, 0, 0, 0, 0, 0, 18, 52] ++ List.replicate 46 1 ++ [236, 142, 254, 110], dropped := true } : RxFrame) : RxFrame).dropped = true ∧ leAt (({ frame := [255, 255, 255, 255, 255, 255, 0, 0, 0, 0, 0, 0, 18, 52] ++ List.replicate 46 1 ++ [236, 142, 254, 110], dropped := true } : RxFrame) : RxFrame).frame ((({ frame := [255, 255, 255, 255, 255, 255, 0, 0, 0, 0, 0, 0, 18, 52] ++ List.replicate 46 1 ++ [236, 142, 254, 110], dropped := true } : RxFrame) : RxFrame).frame.length - 4) 4 = crc32 ((({ frame := [255, 255, 255, 255, 255, 255, 0, 0, 0, 0, 0, 0, 18, 52] ++ List.replicate 46 1 ++ [236, 142, 254, 110], dropped := true } : RxFrame) : RxFrame).frame.take ((({ frame := [255, 255, 255, 255, 255, 255, 0, 0, 0, 0, 0, 0, 18, 52] ++ List.replicate 46 1 ++ [236, 142, 254, 110], dropped := true } : RxFrame) : RxFrame).frame.length - 4)))) := by
  refine ⟨?_, ?_, ?_, ?_, ?_, ?_, ?_, ?_, ?_, ?_, ?_, ?_, ?_, ?_, ?_, ?_, ?_, ?_, ?_, ?_, ?_⟩ <;> decide +kernel

/-- States and operands that meet the hypotheses of the clauses of HaulFrames. -/
theorem test_meets_HaulFrames_12 :
    (5 < 6) ∧
    ((w322.haulPort 5).rx = some (({ frame := [255, 255, 255, 255, 255, 255, 0, 0, 0, 0, 0, 0, 18, 52] ++ List.replicate 46 1 ++ [236, 142, 254, 110], fixed := some 1 } : RxFrame) : RxFrame)) ∧
    ((({ frame := [255, 255, 255, 255, 255, 255, 0, 0, 0, 0, 0, 0, 18, 52] ++ List.replicate 46 1 ++ [236, 142, 254, 110], fixed := some 1 } : RxFrame) : RxFrame).buf = none) ∧
    ((({ frame := [255, 255, 255, 255, 255, 255, 0, 0, 0, 0, 0, 0, 18, 52] ++ List.replicate 46 1 ++ [236, 142, 254, 110], fixed := some 1 } : RxFrame) : RxFrame).dropped = false) ∧
    ((({ frame := [255, 255, 255, 255, 255, 255, 0, 0, 0, 0, 0, 0, 18, 52] ++ List.replicate 46 1 ++ [236, 142, 254, 110], fixed := some 1 } : RxFrame) : RxFrame).spoiled = false) ∧
    (64 ≤ (({ frame := [255, 255, 255, 255, 255, 255, 0, 0, 0, 0, 0, 0, 18, 52] ++ List.replicate 46 1 ++ [236, 142, 254, 110], fixed := some 1 } : RxFrame) : RxFrame).frame.length) ∧
    ((({ frame := [255, 255, 255, 255, 255, 255, 0, 0, 0, 0, 0, 0, 18, 52] ++ List.replicate 46 1 ++ [236, 142, 254, 110], fixed := some 1 } : RxFrame) : RxFrame).frame.length ≤ 9216) ∧
    (leAt (({ frame := [255, 255, 255, 255, 255, 255, 0, 0, 0, 0, 0, 0, 18, 52] ++ List.replicate 46 1 ++ [236, 142, 254, 110], fixed := some 1 } : RxFrame) : RxFrame).frame ((({ frame := [255, 255, 255, 255, 255, 255, 0, 0, 0, 0, 0, 0, 18, 52] ++ List.replicate 46 1 ++ [236, 142, 254, 110], fixed := some 1 } : RxFrame) : RxFrame).frame.length - 4) 4 = crc32 ((({ frame := [255, 255, 255, 255, 255, 255, 0, 0, 0, 0, 0, 0, 18, 52] ++ List.replicate 46 1 ++ [236, 142, 254, 110], fixed := some 1 } : RxFrame) : RxFrame).frame.take ((({ frame := [255, 255, 255, 255, 255, 255, 0, 0, 0, 0, 0, 0, 18, 52] ++ List.replicate 46 1 ++ [236, 142, 254, 110], fixed := some 1 } : RxFrame) : RxFrame).frame.length - 4))) ∧
    ((({ frame := [255, 255, 255, 255, 255, 255, 0, 0, 0, 0, 0, 0, 18, 52] ++ List.replicate 46 1 ++ [236, 142, 254, 110], fixed := some 1 } : RxFrame) : RxFrame).fixed = some 1) ∧
    ((({ frame := [255, 255, 255, 255, 255, 255, 0, 0, 0, 0, 0, 0, 18, 52] ++ List.replicate 46 1 ++ [236, 142, 254, 110], fixed := some 1 } : RxFrame) : RxFrame).ring = false) ∧
    ((({ frame := [255, 255, 255, 255, 255, 255, 0, 0, 0, 0, 0, 0, 18, 52] ++ List.replicate 46 1 ++ [236, 142, 254, 110], fixed := some 1 } : RxFrame) : RxFrame).cpq = none) ∧
    ((({ frame := [255, 255, 255, 255, 255, 255, 0, 0, 0, 0, 0, 0, 18, 52] ++ List.replicate 46 1 ++ [236, 142, 254, 110], fixed := some 1 } : RxFrame) : RxFrame).frag = none) ∧
    ((({ frame := [255, 255, 255, 255, 255, 255, 0, 0, 0, 0, 0, 0, 18, 52] ++ List.replicate 46 1 ++ [236, 142, 254, 110], fixed := some 1 } : RxFrame) : RxFrame).ctx = none) ∧
    ((({ frame := [255, 255, 255, 255, 255, 255, 0, 0, 0, 0, 0, 0, 18, 52] ++ List.replicate 46 1 ++ [236, 142, 254, 110], fixed := some 1 } : RxFrame) : RxFrame).ingest = none) ∧
    ((({ frame := [255, 255, 255, 255, 255, 255, 0, 0, 0, 0, 0, 0, 18, 52] ++ List.replicate 46 1 ++ [236, 142, 254, 110], fixed := some 1 } : RxFrame) : RxFrame).capture = false) ∧
    (5 < 6) ∧
    ((w329.haulPort 5).rx = some (({ buf := some 65535, held := 2 } : RxFrame) : RxFrame)) ∧
    ((({ buf := some 65535, held := 2 } : RxFrame) : RxFrame).buf = some 65535) ∧
    ((w329.packet 65535).ref ≤ (({ buf := some 65535, held := 2 } : RxFrame) : RxFrame).held) ∧
    (5 < 6) ∧
    ((w330.haulPort 5).rx = some (({ buf := some 65535, held := 2 } : RxFrame) : RxFrame)) ∧
    ((({ buf := some 65535, held := 2 } : RxFrame) : RxFrame).buf = some 65535) ∧
    ((w330.packet 65535).ref ≤ (({ buf := some 65535, held := 2 } : RxFrame) : RxFrame).held) := by
  refine ⟨?_, ?_, ?_, ?_, ?_, ?_, ?_, ?_, ?_, ?_, ?_, ?_, ?_, ?_, ?_, ?_, ?_, ?_, ?_, ?_, ?_, ?_, ?_⟩ <;> decide +kernel

/-- States and operands that meet the hypotheses of the clauses of HaulFrames. -/
theorem test_meets_HaulFrames_13 :
    (5 < 6) ∧
    ((w331.haulPort 5).rx = some (({ buf := some 65535, held := 2 } : RxFrame) : RxFrame)) ∧
    ((({ buf := some 65535, held := 2 } : RxFrame) : RxFrame).buf = some 65535) ∧
    ((({ buf := some 65535, held := 2 } : RxFrame) : RxFrame).held < (w331.packet 65535).ref) ∧
    (5 < 6) ∧
    (w2.f F.TMG_PORT_CTRL_EN 5 ≠ 1 ∨ w2.f F.HAUL_STATUS_LINK 5 ≠ 1 ∨ w2.fatal = true ∨ (w2.tmgPort 5).sending ≠ none) ∧
    (5 < 6) ∧
    (w332.f F.TMG_PORT_CTRL_EN 5 ≠ 1 ∨ w332.f F.HAUL_STATUS_LINK 5 ≠ 1 ∨ w332.fatal = true ∨ (w332.tmgPort 5).sending ≠ none) ∧
    (5 < 6) ∧
    (w333.f F.TMG_PORT_CTRL_EN 5 = 1) ∧
    (w333.f F.HAUL_STATUS_LINK 5 = 1) ∧
    (w333.fatal = false) ∧
    ((w333.tmgPort 5).sending = none) ∧
    (w334 = w333.wakeQueues 5) ∧
    (w334.nextQueue 5 = none ∨ (∃ q ∈ List.range 64, w334.nextQueue 5 = some q ∧ ∃ c ∈ (w334.tmgQueue (64 * 5 + q)).copies, (w334.tmgQueue (64 * 5 + q)).copies.head? = some c ∧ w334.mayStart 5 c = false)) ∧
    (5 < 6) ∧
    (w335.f F.TMG_PORT_CTRL_EN 5 = 1) ∧
    (w335.f F.HAUL_STATUS_LINK 5 = 1) ∧
    (w335.fatal = false) ∧
    ((w335.tmgPort 5).sending = none) ∧
    (w336 = w335.wakeQueues 5) ∧
    (w336.nextQueue 5 = some 3) ∧
    ((w336.tmgQueue (64 * 5 + 3)).copies = (({ buf := 16, len := 64, frame := [1], inport := 2 } : Copy) : Copy) :: (([] : List Copy) : List Copy)) ∧
    (w336.mayStart 5 (({ buf := 16, len := 64, frame := [1], inport := 2 } : Copy) : Copy) = true) := by
  refine ⟨?_, ?_, ?_, ?_, ?_, ?_, ?_, ?_, ?_, ?_, ?_, ?_, ?_, ?_, ?_, ?_, ?_, ?_, ?_, ?_, ?_, ?_, ?_, ?_⟩ <;> decide +kernel

/-- States and operands that meet the hypotheses of the clauses of HaulFrames. -/
theorem test_meets_HaulFrames_14 :
    (5 < 6) ∧
    (w335.f F.TMG_PORT_CTRL_EN 5 = 1) ∧
    (w335.f F.HAUL_STATUS_LINK 5 = 1) ∧
    (w335.fatal = false) ∧
    ((w335.tmgPort 5).sending = none) ∧
    (w335.f F.TMG_PORT_SHAPE_RATE_RATE 5 = 0) ∧
    ((∀ k ∈ List.range 64, w335.f F.TMG_Q_SHAPE_RATE_RATE (64 * 5 + k) = 0)) ∧
    ((∀ k ∈ List.range 64, (w335.tmgQueue (64 * 5 + k)).held = false)) ∧
    (w335.strictChoice 5 = some 3 ∨ (w335.strictChoice 5 = none ∧ w335.weightedChoice 5 = some 3)) ∧
    ((w335.tmgQueue (64 * 5 + 3)).copies = (({ buf := 16, len := 64, frame := [1], inport := 2 } : Copy) : Copy) :: (([] : List Copy) : List Copy)) ∧
    (w335.mayStart 5 (({ buf := 16, len := 64, frame := [1], inport := 2 } : Copy) : Copy) = true) ∧
    (5 < 6) ∧
    (w337.f F.TMG_PORT_CTRL_EN 5 = 1) ∧
    (w337.f F.HAUL_STATUS_LINK 5 = 1) ∧
    (w337.fatal = false) ∧
    ((w337.tmgPort 5).sending = none) ∧
    (w337.f F.TMG_PORT_SHAPE_RATE_RATE 5 = 0) ∧
    ((∀ k ∈ List.range 64, w337.f F.TMG_Q_SHAPE_RATE_RATE (64 * 5 + k) = 0)) ∧
    ((∀ k ∈ List.range 64, (w337.tmgQueue (64 * 5 + k)).held = false)) ∧
    (w337.strictChoice 5 = some 63 ∨ (w337.strictChoice 5 = none ∧ w337.weightedChoice 5 = some 63)) ∧
    ((w337.tmgQueue (64 * 5 + 63)).copies = (({ buf := 16, len := 64, frame := [1], inport := 2 } : Copy) : Copy) :: (([{ len := 36 }] : List Copy) : List Copy)) ∧
    (w337.mayStart 5 (({ buf := 16, len := 64, frame := [1], inport := 2 } : Copy) : Copy) = true) ∧
    (5 < 6) ∧
    ((w2.tmgPort 5).sending.all (fun x => !(w2.packet x.2.buf).whole) = true) := by
  refine ⟨?_, ?_, ?_, ?_, ?_, ?_, ?_, ?_, ?_, ?_, ?_, ?_, ?_, ?_, ?_, ?_, ?_, ?_, ?_, ?_, ?_, ?_, ?_, ?_⟩ <;> decide +kernel

/-- States and operands that meet the hypotheses of the clauses of HaulFrames. -/
theorem test_meets_HaulFrames_15 :
    (5 < 6) ∧
    ((w338.tmgPort 5).sending.all (fun x => !(w338.packet x.2.buf).whole) = true) ∧
    (5 < 6) ∧
    ((w339.tmgPort 5).sending = some (3, (({ buf := 16, len := 64, frame := [1], inport := 2 } : Copy) : Copy))) ∧
    ((w339.packet (({ buf := 16, len := 64, frame := [1], inport := 2 } : Copy) : Copy).buf).whole = true) ∧
    (5 < 6) ∧
    ((w339.tmgPort 5).sending = some (3, (({ buf := 16, len := 64, frame := [1], inport := 2 } : Copy) : Copy))) ∧
    ((w339.packet (({ buf := 16, len := 64, frame := [1], inport := 2 } : Copy) : Copy).buf).whole = true) ∧
    ((w339.packet (({ buf := 16, len := 64, frame := [1], inport := 2 } : Copy) : Copy).buf).bufs ≠ []) ∧
    (5 < 6) ∧
    ((w340.tmgPort 5).sending = some (3, (({ buf := 16, len := 64, frame := [1], inport := 2 } : Copy) : Copy))) ∧
    ((w340.packet (({ buf := 16, len := 64, frame := [1], inport := 2 } : Copy) : Copy).buf).whole = true) ∧
    ((w340.packet (({ buf := 16, len := 64, frame := [1], inport := 2 } : Copy) : Copy).buf).bufs ≠ []) ∧
    (5 < 6) ∧
    ((w341.tmgPort 5).sending = some (3, (({ buf := 16, len := 64, frame := [1], inport := 2 } : Copy) : Copy))) ∧
    ((w341.packet (({ buf := 16, len := 64, frame := [1], inport := 2 } : Copy) : Copy).buf).whole = true) ∧
    ((w341.packet (({ buf := 16, len := 64, frame := [1], inport := 2 } : Copy) : Copy).buf).bufs[1]? = some 17) ∧
    (17 < 65536) ∧
    (4095 < 4096) ∧
    (w2.ctx? 4095 = none ∨ (w2.ctx 4095).enc = false ∨ (w2.ctx 4095).ending = true ∨ w2.device = 0 ∨ (w2.queue 4095).items = []) := by
  refine ⟨?_, ?_, ?_, ?_, ?_, ?_, ?_, ?_, ?_, ?_, ?_, ?_, ?_, ?_, ?_, ?_, ?_, ?_, ?_, ?_⟩ <;> decide +kernel

/-- States and operands that meet the hypotheses of the clauses of HaulFrames. -/
theorem test_meets_HaulFrames_16 :
    (4095 < 4096) ∧
    (w342.ctx? 4095 = some ({ wall := 1, tile := 5, geo := tile4, enc := true, sequence := 4294967295 } : Ctx)) ∧
    (({ wall := 1, tile := 5, geo := tile4, enc := true, sequence := 4294967295 } : Ctx).enc = true) ∧
    (({ wall := 1, tile := 5, geo := tile4, enc := true, sequence := 4294967295 } : Ctx).ending = false) ∧
    (w342.device ≠ 0) ∧
    ((w342.queue 4095).items = ({ first := false, data := [1, 2] } : Item) :: ([] : List Item)) ∧
    (({ first := false, data := [1, 2] } : Item).kind = 1 ∨ (({ wall := 1, tile := 5, geo := tile4, enc := true, sequence := 4294967295 } : Ctx).egSent = 0 ∧ ({ first := false, data := [1, 2] } : Item).first = false)) ∧
    (4095 < 4096) ∧
    (w343.ctx? 4095 = some ({ wall := 1, tile := 5, geo := tile4, enc := true, sequence := 4294967295 } : Ctx)) ∧
    (({ wall := 1, tile := 5, geo := tile4, enc := true, sequence := 4294967295 } : Ctx).enc = true) ∧
    (({ wall := 1, tile := 5, geo := tile4, enc := true, sequence := 4294967295 } : Ctx).ending = false) ∧
    (w343.device ≠ 0) ∧
    ((w343.queue 4095).items = ({ kind := 1, lostItems := 3, lostBytes := 9 } : Item) :: ([{}] : List Item)) ∧
    (({ kind := 1, lostItems := 3, lostBytes := 9 } : Item).kind = 1 ∨ (({ wall := 1, tile := 5, geo := tile4, enc := true, sequence := 4294967295 } : Ctx).egSent = 0 ∧ ({ kind := 1, lostItems := 3, lostBytes := 9 } : Item).first = false)) ∧
    (4095 < 4096) ∧
    (w344.ctx? 4095 = some (({ wall := 1, tile := 5, geo := tile4, enc := true, sequence := 4294967295 } : Ctx) : Ctx)) ∧
    ((({ wall := 1, tile := 5, geo := tile4, enc := true, sequence := 4294967295 } : Ctx) : Ctx).enc = true) ∧
    ((({ wall := 1, tile := 5, geo := tile4, enc := true, sequence := 4294967295 } : Ctx) : Ctx).ending = false) ∧
    (w344.device ≠ 0) ∧
    ((w344.queue 4095).items = (({ first := true, data := [1, 2] } : Item) : Item) :: (([] : List Item) : List Item)) ∧
    ((({ first := true, data := [1, 2] } : Item) : Item).kind ≠ 1) ∧
    ((({ first := true, data := [1, 2] } : Item) : Item).first = true ∨ (({ wall := 1, tile := 5, geo := tile4, enc := true, sequence := 4294967295 } : Ctx) : Ctx).egSent ≠ 0) ∧
    (w344.atThreshold 4095 = false) := by
  refine ⟨?_, ?_, ?_, ?_, ?_, ?_, ?_, ?_, ?_, ?_, ?_, ?_, ?_, ?_, ?_, ?_, ?_, ?_, ?_, ?_, ?_, ?_, ?_⟩ <;> decide +kernel

/-- States and operands that meet the hypotheses of the clauses of HaulFrames. -/
theorem test_meets_HaulFrames_17 :
    (4095 < 4096) ∧
    (w345.ctx? 4095 = some ({ wall := 1, tile := 5, geo := tile4, enc := true, sequence := 4294967295 } : Ctx)) ∧
    (({ wall := 1, tile := 5, geo := tile4, enc := true, sequence := 4294967295 } : Ctx).enc = true) ∧
    (({ wall := 1, tile := 5, geo := tile4, enc := true, sequence := 4294967295 } : Ctx).ending = false) ∧
    (w345.device ≠ 0) ∧
    ((w345.queue 4095).items = ({ first := true, data := List.replicate 64 7 } : Item) :: ([] : List Item)) ∧
    (({ first := true, data := List.replicate 64 7 } : Item).kind ≠ 1) ∧
    (0 = (if ({ first := true, data := List.replicate 64 7 } : Item).first = true ∧ (w345.queue 4095).sent = 0 then 0 else ({ wall := 1, tile := 5, geo := tile4, enc := true, sequence := 4294967295 } : Ctx).egSent)) ∧
    (¬(0 = 0 ∧ ({ first := true, data := List.replicate 64 7 } : Item).first = false)) ∧
    (w345.atThreshold 4095 = true) ∧
    (dataBytes (unitItems (({ first := true, data := List.replicate 64 7 } : Item) :: ([] : List Item))) - (w345.queue 4095).sent < w345.payloadFor (w345.ownRoute (w345.unitHdr 4095 ({ first := true, data := List.replicate 64 7 } : Item) 0 false) 7).1.ports 65535) ∧
    ((unitItems (({ first := true, data := List.replicate 64 7 } : Item) :: ([] : List Item))).any (·.last) = false) ∧
    (4095 < 4096) ∧
    (w346.ctx? 4095 = some ({ wall := 1, tile := 5, geo := tile4, enc := true, sequence := 4294967295 } : Ctx)) ∧
    (({ wall := 1, tile := 5, geo := tile4, enc := true, sequence := 4294967295 } : Ctx).enc = true) ∧
    (({ wall := 1, tile := 5, geo := tile4, enc := true, sequence := 4294967295 } : Ctx).ending = false) ∧
    (w346.device ≠ 0) ∧
    ((w346.queue 4095).items = ({ first := true, data := [1, 2] } : Item) :: ([{ kind := 1, lostItems := 3, lostBytes := 9 }] : List Item)) ∧
    (({ first := true, data := [1, 2] } : Item).kind ≠ 1) ∧
    (0 = (if ({ first := true, data := [1, 2] } : Item).first = true ∧ (w346.queue 4095).sent = 0 then 0 else ({ wall := 1, tile := 5, geo := tile4, enc := true, sequence := 4294967295 } : Ctx).egSent)) ∧
    (¬(0 = 0 ∧ ({ first := true, data := [1, 2] } : Item).first = false)) ∧
    (w346.atThreshold 4095 = true) ∧
    (dataBytes (unitItems (({ first := true, data := [1, 2] } : Item) :: ([{ kind := 1, lostItems := 3, lostBytes := 9 }] : List Item))) - (w346.queue 4095).sent < w346.payloadFor (w346.ownRoute (w346.unitHdr 4095 ({ first := true, data := [1, 2] } : Item) 0 false) 7).1.ports 65535) ∧
    ((unitItems (({ first := true, data := [1, 2] } : Item) :: ([{ kind := 1, lostItems := 3, lostBytes := 9 }] : List Item))).any (·.last) = false) := by
  refine ⟨?_, ?_, ?_, ?_, ?_, ?_, ?_, ?_, ?_, ?_, ?_, ?_, ?_, ?_, ?_, ?_, ?_, ?_, ?_, ?_, ?_, ?_, ?_, ?_⟩ <;> decide +kernel

/-- States and operands that meet the hypotheses of the clauses of HaulFrames. -/
theorem test_meets_HaulFrames_18 :
    (4095 < 4096) ∧
    (w347.ctx? 4095 = some (({ wall := 1, tile := 5, geo := tile4, enc := true, sequence := 4294967295 } : Ctx) : Ctx)) ∧
    ((({ wall := 1, tile := 5, geo := tile4, enc := true, sequence := 4294967295 } : Ctx) : Ctx).enc = true) ∧
    ((({ wall := 1, tile := 5, geo := tile4, enc := true, sequence := 4294967295 } : Ctx) : Ctx).ending = false) ∧
    (w347.device ≠ 0) ∧
    ((w347.queue 4095).items = (({ first := true, last := true, data := [1, 2] } : Item) : Item) :: (([] : List Item) : List Item)) ∧
    ((({ first := true, last := true, data := [1, 2] } : Item) : Item).kind ≠ 1) ∧
    (0 = (if (({ first := true, last := true, data := [1, 2] } : Item) : Item).first = true ∧ (w347.queue 4095).sent = 0 then 0 else (({ wall := 1, tile := 5, geo := tile4, enc := true, sequence := 4294967295 } : Ctx) : Ctx).egSent)) ∧
    (¬(0 = 0 ∧ (({ first := true, last := true, data := [1, 2] } : Item) : Item).first = false)) ∧
    (w347.atThreshold 4095 = true) ∧
    (2 = dataBytes (unitItems ((({ first := true, last := true, data := [1, 2] } : Item) : Item) :: (([] : List Item) : List Item))) - (w347.queue 4095).sent) ∧
    ((((withWall {} [(4095, some { wall := 1, tile := 5, geo := tile4, enc := true, sequence := 4294967295 })] (put [(F.CLS_DEVICE_ADDR, 0, 5)])).setQueue 4095 { items := [{ first := true, last := true, data := [1, 2] }] }).payloadFor (((withWall {} [(4095, some { wall := 1, tile := 5, geo := tile4, enc := true, sequence := 4294967295 })] (put [(F.CLS_DEVICE_ADDR, 0, 5)])).setQueue 4095 { items := [{ first := true, last := true, data := [1, 2] }] }).ownRoute (((withWall {} [(4095, some { wall := 1, tile := 5, geo := tile4, enc := true, sequence := 4294967295 })] (put [(F.CLS_DEVICE_ADDR, 0, 5)])).setQueue 4095 { items := [{ first := true, last := true, data := [1, 2] }] }).unitHdr 4095 { first := true, last := true, data := [1, 2] } 0 false) 7).1.ports 65535) = w347.payloadFor (w347.ownRoute (w347.unitHdr 4095 (({ first := true, last := true, data := [1, 2] } : Item) : Item) 0 false) 7).1.ports 65535) ∧
    (true = (unitItems ((({ first := true, last := true, data := [1, 2] } : Item) : Item) :: (([] : List Item) : List Item))).any (·.last)) ∧
    ((((withWall {} [(4095, some { wall := 1, tile := 5, geo := tile4, enc := true, sequence := 4294967295 })] (put [(F.CLS_DEVICE_ADDR, 0, 5)])).setQueue 4095 { items := [{ first := true, last := true, data := [1, 2] }] }).payloadFor (((withWall {} [(4095, some { wall := 1, tile := 5, geo := tile4, enc := true, sequence := 4294967295 })] (put [(F.CLS_DEVICE_ADDR, 0, 5)])).setQueue 4095 { items := [{ first := true, last := true, data := [1, 2] }] }).ownRoute (((withWall {} [(4095, some { wall := 1, tile := 5, geo := tile4, enc := true, sequence := 4294967295 })] (put [(F.CLS_DEVICE_ADDR, 0, 5)])).setQueue 4095 { items := [{ first := true, last := true, data := [1, 2] }] }).unitHdr 4095 { first := true, last := true, data := [1, 2] } 0 false) 7).1.ports 65535) ≤ 2 ∨ true = true) ∧
    (2 = min (((withWall {} [(4095, some { wall := 1, tile := 5, geo := tile4, enc := true, sequence := 4294967295 })] (put [(F.CLS_DEVICE_ADDR, 0, 5)])).setQueue 4095 { items := [{ first := true, last := true, data := [1, 2] }] }).payloadFor (((withWall {} [(4095, some { wall := 1, tile := 5, geo := tile4, enc := true, sequence := 4294967295 })] (put [(F.CLS_DEVICE_ADDR, 0, 5)])).setQueue 4095 { items := [{ first := true, last := true, data := [1, 2] }] }).ownRoute (((withWall {} [(4095, some { wall := 1, tile := 5, geo := tile4, enc := true, sequence := 4294967295 })] (put [(F.CLS_DEVICE_ADDR, 0, 5)])).setQueue 4095 { items := [{ first := true, last := true, data := [1, 2] }] }).unitHdr 4095 { first := true, last := true, data := [1, 2] } 0 false) 7).1.ports 65535) 2) ∧
    (true = (true && decide (2 ≤ (((withWall {} [(4095, some { wall := 1, tile := 5, geo := tile4, enc := true, sequence := 4294967295 })] (put [(F.CLS_DEVICE_ADDR, 0, 5)])).setQueue 4095 { items := [{ first := true, last := true, data := [1, 2] }] }).payloadFor (((withWall {} [(4095, some { wall := 1, tile := 5, geo := tile4, enc := true, sequence := 4294967295 })] (put [(F.CLS_DEVICE_ADDR, 0, 5)])).setQueue 4095 { items := [{ first := true, last := true, data := [1, 2] }] }).ownRoute (((withWall {} [(4095, some { wall := 1, tile := 5, geo := tile4, enc := true, sequence := 4294967295 })] (put [(F.CLS_DEVICE_ADDR, 0, 5)])).setQueue 4095 { items := [{ first := true, last := true, data := [1, 2] }] }).unitHdr 4095 { first := true, last := true, data := [1, 2] } 0 false) 7).1.ports 65535)))) ∧
    (w347.originate 7 (w347.unitHdr 4095 (({ first := true, last := true, data := [1, 2] } : Item) : Item) 0 true) (({ wall := 1, tile := 5, geo := tile4, enc := true, sequence := 4294967295 } : Ctx) : Ctx).sequence ((((unitItems ((({ first := true, last := true, data := [1, 2] } : Item) : Item) :: (([] : List Item) : List Item))).flatMap (·.data)).drop (w347.queue 4095).sent).take 2) = some w348) := by
  refine ⟨?_, ?_, ?_, ?_, ?_, ?_, ?_, ?_, ?_, ?_, ?_, ?_, ?_, ?_, ?_, ?_, ?_⟩ <;> decide +kernel

/-- States and operands that meet the hypotheses of the clauses of HaulFrames. -/
theorem test_meets_HaulFrames_19 :
    (4095 < 4096) ∧
    (w349.ctx? 4095 = some (({ wall := 1, tile := 5, geo := tile4, enc := true, sequence := 4294967295 } : Ctx) : Ctx)) ∧
    ((({ wall := 1, tile := 5, geo := tile4, enc := true, sequence := 4294967295 } : Ctx) : Ctx).enc = true) ∧
    ((({ wall := 1, tile := 5, geo := tile4, enc := true, sequence := 4294967295 } : Ctx) : Ctx).ending = false) ∧
    (w349.device ≠ 0) ∧
    ((w349.queue 4095).items = (({ first := true, last := true, data := [1, 2] } : Item) : Item) :: (([] : List Item) : List Item)) ∧
    ((({ first := true, last := true, data := [1, 2] } : Item) : Item).kind ≠ 1) ∧
    (0 = (if (({ first := true, last := true, data := [1, 2] } : Item) : Item).first = true ∧ (w349.queue 4095).sent = 0 then 0 else (({ wall := 1, tile := 5, geo := tile4, enc := true, sequence := 4294967295 } : Ctx) : Ctx).egSent)) ∧
    (¬(0 = 0 ∧ (({ first := true, last := true, data := [1, 2] } : Item) : Item).first = false)) ∧
    (w349.atThreshold 4095 = true) ∧
    (2 = dataBytes (unitItems ((({ first := true, last := true, data := [1, 2] } : Item) : Item) :: (([] : List Item) : List Item))) - (w349.queue 4095).sent) ∧
    (((((withWall {} [(4095, some { wall := 1, tile := 5, geo := tile4, enc := true, sequence := 4294967295 })] (put [(F.CLS_DEVICE_ADDR, 0, 5), (F.BPM_CNT_SAT_STALLS_SAT, 0, 1)])).setQueue 4095 { items := [{ first := true, last := true, data := [1, 2] }] }).withHaul (fun w => { w with live := { exact := [(4, 269484112), (5, 1), (7, 4194304)], nExact := 1 } })).payloadFor ((((withWall {} [(4095, some { wall := 1, tile := 5, geo := tile4, enc := true, sequence := 4294967295 })] (put [(F.CLS_DEVICE_ADDR, 0, 5), (F.BPM_CNT_SAT_STALLS_SAT, 0, 1)])).setQueue 4095 { items := [{ first := true, last := true, data := [1, 2] }] }).withHaul (fun w => { w with live := { exact := [(4, 269484112), (5, 1), (7, 4194304)], nExact := 1 } })).ownRoute ((((withWall {} [(4095, some { wall := 1, tile := 5, geo := tile4, enc := true, sequence := 4294967295 })] (put [(F.CLS_DEVICE_ADDR, 0, 5), (F.BPM_CNT_SAT_STALLS_SAT, 0, 1)])).setQueue 4095 { items := [{ first := true, last := true, data := [1, 2] }] }).withHaul (fun w => { w with live := { exact := [(4, 269484112), (5, 1), (7, 4194304)], nExact := 1 } })).unitHdr 4095 { first := true, last := true, data := [1, 2] } 0 false) 7).1.ports 65535) = w349.payloadFor (w349.ownRoute (w349.unitHdr 4095 (({ first := true, last := true, data := [1, 2] } : Item) : Item) 0 false) 7).1.ports 65535) ∧
    (true = (unitItems ((({ first := true, last := true, data := [1, 2] } : Item) : Item) :: (([] : List Item) : List Item))).any (·.last)) ∧
    (((((withWall {} [(4095, some { wall := 1, tile := 5, geo := tile4, enc := true, sequence := 4294967295 })] (put [(F.CLS_DEVICE_ADDR, 0, 5), (F.BPM_CNT_SAT_STALLS_SAT, 0, 1)])).setQueue 4095 { items := [{ first := true, last := true, data := [1, 2] }] }).withHaul (fun w => { w with live := { exact := [(4, 269484112), (5, 1), (7, 4194304)], nExact := 1 } })).payloadFor ((((withWall {} [(4095, some { wall := 1, tile := 5, geo := tile4, enc := true, sequence := 4294967295 })] (put [(F.CLS_DEVICE_ADDR, 0, 5), (F.BPM_CNT_SAT_STALLS_SAT, 0, 1)])).setQueue 4095 { items := [{ first := true, last := true, data := [1, 2] }] }).withHaul (fun w => { w with live := { exact := [(4, 269484112), (5, 1), (7, 4194304)], nExact := 1 } })).ownRoute ((((withWall {} [(4095, some { wall := 1, tile := 5, geo := tile4, enc := true, sequence := 4294967295 })] (put [(F.CLS_DEVICE_ADDR, 0, 5), (F.BPM_CNT_SAT_STALLS_SAT, 0, 1)])).setQueue 4095 { items := [{ first := true, last := true, data := [1, 2] }] }).withHaul (fun w => { w with live := { exact := [(4, 269484112), (5, 1), (7, 4194304)], nExact := 1 } })).unitHdr 4095 { first := true, last := true, data := [1, 2] } 0 false) 7).1.ports 65535) ≤ 2 ∨ true = true) ∧
    (2 = min ((((withWall {} [(4095, some { wall := 1, tile := 5, geo := tile4, enc := true, sequence := 4294967295 })] (put [(F.CLS_DEVICE_ADDR, 0, 5), (F.BPM_CNT_SAT_STALLS_SAT, 0, 1)])).setQueue 4095 { items := [{ first := true, last := true, data := [1, 2] }] }).withHaul (fun w => { w with live := { exact := [(4, 269484112), (5, 1), (7, 4194304)], nExact := 1 } })).payloadFor ((((withWall {} [(4095, some { wall := 1, tile := 5, geo := tile4, enc := true, sequence := 4294967295 })] (put [(F.CLS_DEVICE_ADDR, 0, 5), (F.BPM_CNT_SAT_STALLS_SAT, 0, 1)])).setQueue 4095 { items := [{ first := true, last := true, data := [1, 2] }] }).withHaul (fun w => { w with live := { exact := [(4, 269484112), (5, 1), (7, 4194304)], nExact := 1 } })).ownRoute ((((withWall {} [(4095, some { wall := 1, tile := 5, geo := tile4, enc := true, sequence := 4294967295 })] (put [(F.CLS_DEVICE_ADDR, 0, 5), (F.BPM_CNT_SAT_STALLS_SAT, 0, 1)])).setQueue 4095 { items := [{ first := true, last := true, data := [1, 2] }] }).withHaul (fun w => { w with live := { exact := [(4, 269484112), (5, 1), (7, 4194304)], nExact := 1 } })).unitHdr 4095 { first := true, last := true, data := [1, 2] } 0 false) 7).1.ports 65535) 2) ∧
    (true = (true && decide (2 ≤ ((((withWall {} [(4095, some { wall := 1, tile := 5, geo := tile4, enc := true, sequence := 4294967295 })] (put [(F.CLS_DEVICE_ADDR, 0, 5), (F.BPM_CNT_SAT_STALLS_SAT, 0, 1)])).setQueue 4095 { items := [{ first := true, last := true, data := [1, 2] }] }).withHaul (fun w => { w with live := { exact := [(4, 269484112), (5, 1), (7, 4194304)], nExact := 1 } })).payloadFor ((((withWall {} [(4095, some { wall := 1, tile := 5, geo := tile4, enc := true, sequence := 4294967295 })] (put [(F.CLS_DEVICE_ADDR, 0, 5), (F.BPM_CNT_SAT_STALLS_SAT, 0, 1)])).setQueue 4095 { items := [{ first := true, last := true, data := [1, 2] }] }).withHaul (fun w => { w with live := { exact := [(4, 269484112), (5, 1), (7, 4194304)], nExact := 1 } })).ownRoute ((((withWall {} [(4095, some { wall := 1, tile := 5, geo := tile4, enc := true, sequence := 4294967295 })] (put [(F.CLS_DEVICE_ADDR, 0, 5), (F.BPM_CNT_SAT_STALLS_SAT, 0, 1)])).setQueue 4095 { items := [{ first := true, last := true, data := [1, 2] }] }).withHaul (fun w => { w with live := { exact := [(4, 269484112), (5, 1), (7, 4194304)], nExact := 1 } })).unitHdr 4095 { first := true, last := true, data := [1, 2] } 0 false) 7).1.ports 65535)))) ∧
    (w349.originate 7 (w349.unitHdr 4095 (({ first := true, last := true, data := [1, 2] } : Item) : Item) 0 true) (({ wall := 1, tile := 5, geo := tile4, enc := true, sequence := 4294967295 } : Ctx) : Ctx).sequence ((((unitItems ((({ first := true, last := true, data := [1, 2] } : Item) : Item) :: (([] : List Item) : List Item))).flatMap (·.data)).drop (w349.queue 4095).sent).take 2) = none) ∧
    (4095 < 4096) ∧
    (w347.ctx? 4095 = some ({ wall := 1, tile := 5, geo := tile4, enc := true, sequence := 4294967295 } : Ctx)) ∧
    (({ wall := 1, tile := 5, geo := tile4, enc := true, sequence := 4294967295 } : Ctx).enc = true) ∧
    (({ wall := 1, tile := 5, geo := tile4, enc := true, sequence := 4294967295 } : Ctx).ending = false) ∧
    (w347.device ≠ 0) ∧
    ((w347.queue 4095).items = ({ first := true, last := true, data := [1, 2] } : Item) :: ([] : List Item)) ∧
    (64 * 0 < ({ first := true, last := true, data := [1, 2] } : Item).size) := by
  refine ⟨?_, ?_, ?_, ?_, ?_, ?_, ?_, ?_, ?_, ?_, ?_, ?_, ?_, ?_, ?_, ?_, ?_, ?_, ?_, ?_, ?_, ?_, ?_, ?_⟩ <;> decide +kernel

/-- States and operands that meet the hypotheses of the clauses of HaulFrames. -/
theorem test_meets_HaulFrames_20 :
    (5 < 6) ∧
    (w350.readOk (Origin.f0 : Origin) .HAUL_TS_INFO 5 = true) ∧
    ((w350.haulPort 5).stamps = (({ msgType := 19, domain := 257, seqId := 65537, time := 18446744073709551615 } : Stamp) : Stamp) :: (([{}] : List Stamp) : List Stamp)) ∧
    (5 < 6) ∧
    (w2.readOk (Origin.cpS : Origin) .HAUL_TS_INFO 5 = true) ∧
    ((w2.haulPort 5).stamps = []) := by
  refine ⟨?_, ?_, ?_, ?_, ?_, ?_⟩ <;> decide +kernel

/-- States and operands that meet the hypotheses of the clauses of QueueEvents. -/
theorem test_meets_QueueEvents :
    (4351 < 4352) ∧
    ((w2.queue 4351).pendingCleft = none ∨ w2.queueCapacity 4351 < (w2.queue 4351).used + 16) ∧
    (4351 < 4352) ∧
    ((w351.queue 4351).pendingCleft = none ∨ w351.queueCapacity 4351 < (w351.queue 4351).used + 16) ∧
    (4351 < 4352) ∧
    ((w352.queue 4351).pendingCleft = some (({ kind := 1, lostItems := 3, lostBytes := 9 } : Item) : Item)) ∧
    ((w352.queue 4351).used + 16 ≤ w352.queueCapacity 4351) ∧
    (4095 < 4096) ∧
    (w2.ctx? 4095 = none ∨ (w2.ctx 4095).enc = true ∨ (w2.reader 4095 = none ∧ w2.frontTaken 4095 = true)) ∧
    (4095 < 4096) ∧
    (w353.ctx? 4095 = none ∨ (w353.ctx 4095).enc = true ∨ (w353.reader 4095 = none ∧ w353.frontTaken 4095 = true)) ∧
    (4095 < 4096) ∧
    (w354.ctx? 4095 = some ({ wall := 1, tile := 5, geo := tile4, stream := some {}, pic := some { hdr := { picture := 3 }, desc := 1 } } : Ctx)) ∧
    (({ wall := 1, tile := 5, geo := tile4, stream := some {}, pic := some { hdr := { picture := 3 }, desc := 1 } } : Ctx).enc = false) ∧
    (w354.reader 4095 = some 23) ∧
    ((w354.hewer 23).run = some ({ what := { ctx := 4095, picture := 3, slice := 1 } } : Run)) ∧
    (((w354.endRead 4095).queue 4095).items = ({ first := true, data := [1, 2, 3], tag := 65536 } : Item) :: ([{}] : List Item)) ∧
    (4095 < 4096) ∧
    (w355.ctx? 4095 = some ({ wall := 1, tile := 5, geo := tile4, stream := some {}, pic := some { hdr := { picture := 3 }, desc := 1 } } : Ctx)) ∧
    (({ wall := 1, tile := 5, geo := tile4, stream := some {}, pic := some { hdr := { picture := 3 }, desc := 1 } } : Ctx).enc = false) ∧
    (w355.reader 4095 = some 23) ∧
    ((w355.hewer 23).run = some ({ what := { ctx := 4095, picture := 3, slice := 1 } } : Run)) ∧
    (((w355.endRead 4095).queue 4095).items = ({ kind := 1, lostItems := 3, lostBytes := 9 } : Item) :: ([{}] : List Item)) := by
  refine ⟨?_, ?_, ?_, ?_, ?_, ?_, ?_, ?_, ?_, ?_, ?_, ?_, ?_, ?_, ?_, ?_, ?_, ?_, ?_, ?_, ?_, ?_, ?_⟩ <;> decide +kernel

/-- States and operands that meet the hypotheses of the clauses of QueueEvents. -/
theorem test_meets_QueueEvents_2 :
    (4095 < 4096) ∧
    (w356.ctx? 4095 = some ({ wall := 1, tile := 5, geo := tile4, stream := some {}, pic := some { hdr := { picture := 3 }, desc := 1 } } : Ctx)) ∧
    (({ wall := 1, tile := 5, geo := tile4, stream := some {}, pic := some { hdr := { picture := 3 }, desc := 1 } } : Ctx).enc = false) ∧
    (w356.reader 4095 = some 23) ∧
    ((w356.hewer 23).run = some ({ what := { ctx := 4095, picture := 3, slice := 1 } } : Run)) ∧
    (((w356.endRead 4095).queue 4095).items = ({ first := true, data := [1, 2, 3], tag := 65536 } : Item) :: ([] : List Item)) ∧
    (({ first := true, data := [1, 2, 3], tag := 65536 } : Item).kind ≠ 1) ∧
    (({ first := true, data := [1, 2, 3], tag := 65536 } : Item).first = false ∨ ({ what := { ctx := 4095, picture := 3, slice := 1 } } : Run).taken = []) ∧
    (({ first := true, data := [1, 2, 3], tag := 65536 } : Item).tag % 65536 * 64 = ({ what := { ctx := 4095, picture := 3, slice := 1 } } : Run).taken.length) ∧
    (4095 < 4096) ∧
    (w357.ctx? 4095 = some ({ wall := 1, tile := 5, geo := tile4, stream := some {}, pic := some { hdr := { picture := 3 }, desc := 1 } } : Ctx)) ∧
    (({ wall := 1, tile := 5, geo := tile4, stream := some {}, pic := some { hdr := { picture := 3 }, desc := 1 } } : Ctx).enc = false) ∧
    (w357.reader 4095 = some 23) ∧
    ((w357.hewer 23).run = some ({ what := { ctx := 4095, picture := 3, slice := 1 }, taken := List.replicate 64 9 } : Run)) ∧
    (((w357.endRead 4095).queue 4095).items = ({ last := true, data := [1, 2, 3], tag := 65537 } : Item) :: ([] : List Item)) ∧
    (({ last := true, data := [1, 2, 3], tag := 65537 } : Item).kind ≠ 1) ∧
    (({ last := true, data := [1, 2, 3], tag := 65537 } : Item).first = false ∨ ({ what := { ctx := 4095, picture := 3, slice := 1 }, taken := List.replicate 64 9 } : Run).taken = []) ∧
    (({ last := true, data := [1, 2, 3], tag := 65537 } : Item).tag % 65536 * 64 = ({ what := { ctx := 4095, picture := 3, slice := 1 }, taken := List.replicate 64 9 } : Run).taken.length) ∧
    (4095 < 4096) ∧
    (w358.ctx? 4095 = some ({ wall := 1, tile := 5, geo := tile4, stream := some {}, pic := some { hdr := { picture := 3 }, desc := 1 } } : Ctx)) ∧
    (({ wall := 1, tile := 5, geo := tile4, stream := some {}, pic := some { hdr := { picture := 3 }, desc := 1 } } : Ctx).enc = false) ∧
    (w358.reader 4095 = some 23) ∧
    (((w358.endRead 4095).queue 4095).items = []) := by
  refine ⟨?_, ?_, ?_, ?_, ?_, ?_, ?_, ?_, ?_, ?_, ?_, ?_, ?_, ?_, ?_, ?_, ?_, ?_, ?_, ?_, ?_, ?_, ?_⟩ <;> decide +kernel

/-- States and operands that meet the hypotheses of the clauses of QueueEvents. -/
theorem test_meets_QueueEvents_3 :
    (4095 < 4096) ∧
    (w359.ctx? 4095 = some ({ wall := 1, tile := 5, geo := tile4, stream := some {}, pic := some { hdr := { picture := 3 }, desc := 1 } } : Ctx)) ∧
    (({ wall := 1, tile := 5, geo := tile4, stream := some {}, pic := some { hdr := { picture := 3 }, desc := 1 } } : Ctx).enc = false) ∧
    (w359.reader 4095 = some 23) ∧
    (((w359.endRead 4095).queue 4095).items = []) ∧
    (4095 < 4096) ∧
    (w360.ctx? 4095 = some ({ wall := 1, tile := 5, geo := tile4, frontDead := true } : Ctx)) ∧
    (({ wall := 1, tile := 5, geo := tile4, frontDead := true } : Ctx).enc = false) ∧
    (w360.reader 4095 = none) ∧
    (w360.frontTaken 4095 = false) ∧
    (w361 = w360.endRead 4095) ∧
    ((w361.queue 4095).items = ({ first := true, data := [1, 2, 3], tag := 65536 } : Item) :: ([] : List Item)) ∧
    (({ wall := 1, tile := 5, geo := tile4, frontDead := true } : Ctx).frontDead = true ∨ (({ wall := 1, tile := 5, geo := tile4, frontDead := true } : Ctx).back.all (·.closed) = true ∧ w361.frontFirst 4095 = none)) ∧
    (4095 < 4096) ∧
    (w362.ctx? 4095 = some ({ wall := 1, tile := 5, geo := tile4 } : Ctx)) ∧
    (({ wall := 1, tile := 5, geo := tile4 } : Ctx).enc = false) ∧
    (w362.reader 4095 = none) ∧
    (w362.frontTaken 4095 = false) ∧
    (w363 = w362.endRead 4095) ∧
    ((w363.queue 4095).items = ({ data := [1, 2, 3], tag := 65537 } : Item) :: ([] : List Item)) ∧
    (({ wall := 1, tile := 5, geo := tile4 } : Ctx).frontDead = true ∨ (({ wall := 1, tile := 5, geo := tile4 } : Ctx).back.all (·.closed) = true ∧ w363.frontFirst 4095 = none)) := by
  refine ⟨?_, ?_, ?_, ?_, ?_, ?_, ?_, ?_, ?_, ?_, ?_, ?_, ?_, ?_, ?_, ?_, ?_, ?_, ?_, ?_, ?_⟩ <;> decide +kernel

/-- States and operands that meet the hypotheses of the clauses of QueueEvents. -/
theorem test_meets_QueueEvents_4 :
    (4095 < 4096) ∧
    (w364.ctx? 4095 = some ({ wall := 1, tile := 5, geo := tile4 } : Ctx)) ∧
    (({ wall := 1, tile := 5, geo := tile4 } : Ctx).enc = false) ∧
    (w364.reader 4095 = none) ∧
    (w364.frontTaken 4095 = false) ∧
    (w365 = w364.endRead 4095) ∧
    (({ wall := 1, tile := 5, geo := tile4 } : Ctx).frontDead = false) ∧
    (({ wall := 1, tile := 5, geo := tile4 } : Ctx).back.all (·.closed) = true) ∧
    ((w365.frontFirst 4095).isSome = true) ∧
    (4096 ≤ 4351) ∧
    (4351 < 4352) ∧
    ((w2.queue 4351).inRead = false) ∧
    ((w2.queue 4351).items = []) ∧
    (4096 ≤ 4351) ∧
    (4351 < 4352) ∧
    ((w366.queue 4351).inRead = false) ∧
    ((w366.queue 4351).items = (({} : Item) : Item) :: (([{}] : List Item) : List Item)) ∧
    (4351 ≠ 4097 ∨ (({} : Item) : Item).kind ≠ 2) ∧
    (4096 ≤ 4097) ∧
    (4097 < 4352) ∧
    ((w367.queue 4097).inRead = false) ∧
    ((w367.queue 4097).items = (({ kind := 1, lostItems := 3, lostBytes := 9 } : Item) : Item) :: (([] : List Item) : List Item)) ∧
    (4097 ≠ 4097 ∨ (({ kind := 1, lostItems := 3, lostBytes := 9 } : Item) : Item).kind ≠ 2) := by
  refine ⟨?_, ?_, ?_, ?_, ?_, ?_, ?_, ?_, ?_, ?_, ?_, ?_, ?_, ?_, ?_, ?_, ?_, ?_, ?_, ?_, ?_, ?_, ?_⟩ <;> decide +kernel

/-- States and operands that meet the hypotheses of the clauses of QueueEvents. -/
theorem test_meets_QueueEvents_5 :
    (4096 ≤ 4351) ∧
    (4351 < 4352) ∧
    ((w368.queue 4351).inRead = true) ∧
    ((w368.queue 4351).items = (({ first := true, data := List.replicate 504 0 } : Item) : Item) :: (({ kind := 1, lostItems := 3, lostBytes := 9 } : Item) : Item) :: (([{}] : List Item) : List Item)) ∧
    (4096 ≤ 4096) ∧
    (4096 < 4352) ∧
    ((w369.queue 4096).inRead = true) ∧
    ((w369.queue 4096).items = [(({} : Item) : Item)]) ∧
    ((w370.queue 4097).inRead = false) ∧
    ((w370.queue 4097).items = (({ kind := 2, data := List.replicate 10 0 ++ [5, 0, 0, 0, 0, 0, 255, 255, 255, 255, 255, 255, 0, 0, 0, 0, 0, 0, 136, 181, 35, 1, 0, 5, 0, 3, 0, 0, 0, 0, 0, 2, 0, 0, 0, 0, 0, 0, 1, 4, 0, 0, 0, 0, 15, 0, 0, 0, 1, 2, 3, 4] ++ List.replicate 252 255 ++ [68, 75, 37, 244] } : Item) : Item) :: (([] : List Item) : List Item)) ∧
    ((({ kind := 2, data := List.replicate 10 0 ++ [5, 0, 0, 0, 0, 0, 255, 255, 255, 255, 255, 255, 0, 0, 0, 0, 0, 0, 136, 181, 35, 1, 0, 5, 0, 3, 0, 0, 0, 0, 0, 2, 0, 0, 0, 0, 0, 0, 1, 4, 0, 0, 0, 0, 15, 0, 0, 0, 1, 2, 3, 4] ++ List.replicate 252 255 ++ [68, 75, 37, 244] } : Item) : Item).kind = 2) ∧
    (((parseFrame 47100 ((List.replicate 10 0 ++ [5, 0, 0, 0, 0, 0, 255, 255, 255, 255, 255, 255, 0, 0, 0, 0, 0, 0, 136, 181, 35, 1, 0, 5, 0, 3, 0, 0, 0, 0, 0, 2, 0, 0, 0, 0, 0, 0, 1, 4, 0, 0, 0, 0, 15, 0, 0, 0, 1, 2, 3, 4] ++ List.replicate 252 255 ++ [68, 75, 37, 244] : List Byte).drop 16)) : Parsed) = parseFrame (w370.f F.HAUL_UDP_PORT (byteAt (({ kind := 2, data := List.replicate 10 0 ++ [5, 0, 0, 0, 0, 0, 255, 255, 255, 255, 255, 255, 0, 0, 0, 0, 0, 0, 136, 181, 35, 1, 0, 5, 0, 3, 0, 0, 0, 0, 0, 2, 0, 0, 0, 0, 0, 0, 1, 4, 0, 0, 0, 0, 15, 0, 0, 0, 1, 2, 3, 4] ++ List.replicate 252 255 ++ [68, 75, 37, 244] } : Item) : Item).data 10)) ((({ kind := 2, data := List.replicate 10 0 ++ [5, 0, 0, 0, 0, 0, 255, 255, 255, 255, 255, 255, 0, 0, 0, 0, 0, 0, 136, 181, 35, 1, 0, 5, 0, 3, 0, 0, 0, 0, 0, 2, 0, 0, 0, 0, 0, 0, 1, 4, 0, 0, 0, 0, 15, 0, 0, 0, 1, 2, 3, 4] ++ List.replicate 252 255 ++ [68, 75, 37, 244] } : Item) : Item).data.drop 16)) ∧
    (((parseFrame 47100 ((List.replicate 10 0 ++ [5, 0, 0, 0, 0, 0, 255, 255, 255, 255, 255, 255, 0, 0, 0, 0, 0, 0, 136, 181, 35, 1, 0, 5, 0, 3, 0, 0, 0, 0, 0, 2, 0, 0, 0, 0, 0, 0, 1, 4, 0, 0, 0, 0, 15, 0, 0, 0, 1, 2, 3, 4] ++ List.replicate 252 255 ++ [68, 75, 37, 244] : List Byte).drop 16)) : Parsed).haul = true) ∧
    (((parseFrame 47100 ((List.replicate 10 0 ++ [5, 0, 0, 0, 0, 0, 255, 255, 255, 255, 255, 255, 0, 0, 0, 0, 0, 0, 136, 181, 35, 1, 0, 5, 0, 3, 0, 0, 0, 0, 0, 2, 0, 0, 0, 0, 0, 0, 1, 4, 0, 0, 0, 0, 15, 0, 0, 0, 1, 2, 3, 4] ++ List.replicate 252 255 ++ [68, 75, 37, 244] : List Byte).drop 16)) : Parsed).typ = 3) ∧
    (((sliceOf ((List.replicate 10 0 ++ [5, 0, 0, 0, 0, 0, 255, 255, 255, 255, 255, 255, 0, 0, 0, 0, 0, 0, 136, 181, 35, 1, 0, 5, 0, 3, 0, 0, 0, 0, 0, 2, 0, 0, 0, 0, 0, 0, 1, 4, 0, 0, 0, 0, 15, 0, 0, 0, 1, 2, 3, 4] ++ List.replicate 252 255 ++ [68, 75, 37, 244] : List Byte).drop 16) 38 260) : List Byte) = sliceOf ((({ kind := 2, data := List.replicate 10 0 ++ [5, 0, 0, 0, 0, 0, 255, 255, 255, 255, 255, 255, 0, 0, 0, 0, 0, 0, 136, 181, 35, 1, 0, 5, 0, 3, 0, 0, 0, 0, 0, 2, 0, 0, 0, 0, 0, 0, 1, 4, 0, 0, 0, 0, 15, 0, 0, 0, 1, 2, 3, 4] ++ List.replicate 252 255 ++ [68, 75, 37, 244] } : Item) : Item).data.drop 16) ((parseFrame 47100 ((List.replicate 10 0 ++ [5, 0, 0, 0, 0, 0, 255, 255, 255, 255, 255, 255, 0, 0, 0, 0, 0, 0, 136, 181, 35, 1, 0, 5, 0, 3, 0, 0, 0, 0, 0, 2, 0, 0, 0, 0, 0, 0, 1, 4, 0, 0, 0, 0, 15, 0, 0, 0, 1, 2, 3, 4] ++ List.replicate 252 255 ++ [68, 75, 37, 244] : List Byte).drop 16)) : Parsed).payAt ((parseFrame 47100 ((List.replicate 10 0 ++ [5, 0, 0, 0, 0, 0, 255, 255, 255, 255, 255, 255, 0, 0, 0, 0, 0, 0, 136, 181, 35, 1, 0, 5, 0, 3, 0, 0, 0, 0, 0, 2, 0, 0, 0, 0, 0, 0, 1, 4, 0, 0, 0, 0, 15, 0, 0, 0, 1, 2, 3, 4] ++ List.replicate 252 255 ++ [68, 75, 37, 244] : List Byte).drop 16)) : Parsed).payLen) ∧
    (((sliceOf ((List.replicate 10 0 ++ [5, 0, 0, 0, 0, 0, 255, 255, 255, 255, 255, 255, 0, 0, 0, 0, 0, 0, 136, 181, 35, 1, 0, 5, 0, 3, 0, 0, 0, 0, 0, 2, 0, 0, 0, 0, 0, 0, 1, 4, 0, 0, 0, 0, 15, 0, 0, 0, 1, 2, 3, 4] ++ List.replicate 252 255 ++ [68, 75, 37, 244] : List Byte).drop 16) 38 260) : List Byte).length = 260) ∧
    (15 = byteAt ((sliceOf ((List.replicate 10 0 ++ [5, 0, 0, 0, 0, 0, 255, 255, 255, 255, 255, 255, 0, 0, 0, 0, 0, 0, 136, 181, 35, 1, 0, 5, 0, 3, 0, 0, 0, 0, 0, 2, 0, 0, 0, 0, 0, 0, 1, 4, 0, 0, 0, 0, 15, 0, 0, 0, 1, 2, 3, 4] ++ List.replicate 252 255 ++ [68, 75, 37, 244] : List Byte).drop 16) 38 260) : List Byte) 0) ∧
    (12 ≤ 15) ∧
    (15 ≤ 15) ∧
    (byteAt ((sliceOf ((List.replicate 10 0 ++ [5, 0, 0, 0, 0, 0, 255, 255, 255, 255, 255, 255, 0, 0, 0, 0, 0, 0, 136, 181, 35, 1, 0, 5, 0, 3, 0, 0, 0, 0, 0, 2, 0, 0, 0, 0, 0, 0, 1, 4, 0, 0, 0, 0, 15, 0, 0, 0, 1, 2, 3, 4] ++ List.replicate 252 255 ++ [68, 75, 37, 244] : List Byte).drop 16) 38 260) : List Byte) 1 = 0) ∧
    (w370.f F.MBX_STATUS_BUSY 15 ≠ 1) ∧
    (w370.f F.MBX_STATUS_RESULT_PENDING 15 ≠ 1) := by
  refine ⟨?_, ?_, ?_, ?_, ?_, ?_, ?_, ?_, ?_, ?_, ?_, ?_, ?_, ?_, ?_, ?_, ?_, ?_, ?_, ?_, ?_, ?_⟩ <;> decide +kernel

/-- States and operands that meet the hypotheses of the clauses of QueueEvents. -/
theorem test_meets_QueueEvents_6 :
    (4351 < 4352) ∧
    ((4351 < 4096 → (w371.ctx? 4351).any (fun x => !x.enc) = true ∧ ((w371.reader 4351).isSome = true ∨ w371.frontTaken 4351 = false))) ∧
    (w372 = w371.endRead 4351) ∧
    ((w372.queue 4351).items = ({ first := true, data := List.replicate 504 0 } : Item) :: ([{ kind := 1, lostItems := 3, lostBytes := 9 }] : List Item)) ∧
    (64 * 7 < ({ first := true, data := List.replicate 504 0 } : Item).size) ∧
    (4095 < 4352) ∧
    ((4095 < 4096 → (w356.ctx? 4095).any (fun x => !x.enc) = true ∧ ((w356.reader 4095).isSome = true ∨ w356.frontTaken 4095 = false))) ∧
    (w373 = w356.endRead 4095) ∧
    ((w373.queue 4095).items = ({ first := true, data := [1, 2, 3], tag := 65536 } : Item) :: ([] : List Item)) ∧
    (64 * 0 < ({ first := true, data := [1, 2, 3], tag := 65536 } : Item).size) ∧
    (4351 < 4352) ∧
    ((w2.queue 4351).spoil < 64 ∨ 256 < (w2.queue 4351).head + 64) ∧
    (4351 < 4352) ∧
    (64 ≤ (w374.queue 4351).spoil) ∧
    ((w374.queue 4351).head + 64 ≤ 256) ∧
    (4351 < 4352) ∧
    (64 ≤ (w375.queue 4351).spoil) ∧
    ((w375.queue 4351).head + 64 ≤ 256) ∧
    (4351 < 4352) ∧
    (64 ≤ (w376.queue 4351).spoil) ∧
    ((w376.queue 4351).head + 64 ≤ 256) := by
  refine ⟨?_, ?_, ?_, ?_, ?_, ?_, ?_, ?_, ?_, ?_, ?_, ?_, ?_, ?_, ?_, ?_, ?_, ?_, ?_, ?_, ?_⟩ <;> decide +kernel

/-- States and operands that meet the hypotheses of the clauses of QueueEvents. -/
theorem test_meets_QueueEvents_7 :
    (w377.writeOk (Origin.cpN : Origin) .SPQ_Q_CFG 0 = true) ∧
    (4351 = w377.f F.SPQ_Q_SEL_QUEUE 0) ∧
    (4351 < 4352) ∧
    (w377.f F.SPQ_Q_CFG_EN 4351 = 1) ∧
    ((3221225471 : Word).toNat / 2 ^ 30 % 2 = 0) ∧
    (w377.writeOk (Origin.cpN : Origin) .SPQ_Q_CFG 0 = true) ∧
    (4351 = w377.f F.SPQ_Q_SEL_QUEUE 0) ∧
    (4351 < 4352) ∧
    (w377.f F.SPQ_Q_CFG_EN 4351 = 1) ∧
    ((4294967295 : Word).toNat / 2 ^ 30 % 2 = 1) ∧
    (w378.writeOk (.cpN : Origin) .SPQ_Q_CFG 0 = true) ∧
    (4351 = w378.f F.SPQ_Q_SEL_QUEUE 0) ∧
    (4351 < 4352) ∧
    (w378.f F.SPQ_Q_CFG_EN 4351 ≠ 1) ∧
    (w379.writeOk (.cpN : Origin) .SPQ_Q_CFG 0 = true) ∧
    (4352 ≤ w379.f F.SPQ_Q_SEL_QUEUE 0) ∧
    (requesterOk (.cp : Requester) = true) ∧
    (w380.f F.BPM_CTRL_EN 0 = 1) ∧
    (w380.takeBuffers ((max ((List.replicate 257 7) : List Byte).length 1 + 255) / 256) true = some (([16, 17] : List Nat), w381)) := by
  refine ⟨?_, ?_, ?_, ?_, ?_, ?_, ?_, ?_, ?_, ?_, ?_, ?_, ?_, ?_, ?_, ?_, ?_, ?_, ?_⟩ <;> decide +kernel

/-- States and operands that meet the hypotheses of the clauses of QueueEvents. -/
theorem test_meets_QueueEvents_8 :
    (requesterOk ((Requester.haul 5) : Requester) = true) ∧
    (w380.f F.BPM_CTRL_EN 0 = 1) ∧
    (w380.f F.BPM_CTRL_LIST_MODE 0 ≠ 1) ∧
    (((List.replicate 256 7) : List Byte).length ≤ 256) ∧
    (w380.pool.sram.fresh < 65536) ∧
    (false = true ∨ w380.sramReserve < w380.freeSram) ∧
    (requesterOk (Requester.cp : Requester) = true) ∧
    (w382.f F.BPM_CTRL_EN 0 = 1) ∧
    (w382.f F.BPM_CTRL_LIST_MODE 0 ≠ 1) ∧
    (((List.replicate 256 7) : List Byte).length ≤ 256) ∧
    (w382.pool.sram.fresh < 65536) ∧
    (true = true ∨ w382.sramReserve < w382.freeSram) ∧
    (5 < 6) ∧
    (w2.f F.BPM_CTRL_EN 0 ≠ 1 ∨ w2.takeBuffers ((max ([1] : List Byte).length 1 + 255) / 256) true = none) ∧
    ((Requester.egress : Requester) = .egress ∨ (Requester.egress : Requester) = .cp) ∧
    (w383.f F.BPM_CTRL_EN 0 ≠ 1 ∨ w383.takeBuffers ((max ([1] : List Byte).length 1 + 255) / 256) true = none) ∧
    ((Requester.egress : Requester) ∉ w383.pool.stalled) ∧
    ((Requester.cp : Requester) = .egress ∨ (Requester.cp : Requester) = .cp) ∧
    (w384.f F.BPM_CTRL_EN 0 ≠ 1 ∨ w384.takeBuffers ((max ([1] : List Byte).length 1 + 255) / 256) true = none) ∧
    ((Requester.cp : Requester) ∈ w384.pool.stalled) ∧
    (w385.dramTier = true) ∧
    (w385.pool.dram.cache.length < 128) ∧
    (0 < w385.pool.dram.stored) := by
  refine ⟨?_, ?_, ?_, ?_, ?_, ?_, ?_, ?_, ?_, ?_, ?_, ?_, ?_, ?_, ?_, ?_, ?_, ?_, ?_, ?_, ?_, ?_, ?_⟩ <;> decide +kernel

/-- States and operands that meet the hypotheses of the clauses of QueueEvents. -/
theorem test_meets_QueueEvents_9 :
    (w386.dramTier = true) ∧
    (w386.pool.dram.cache.length < 128) ∧
    (0 < w386.pool.dram.stored) ∧
    (w387.dramTier = true) ∧
    (384 < w387.pool.dram.cache.length) ∧
    (w388.dramTier = false ∨ (w388.pool.dram.cache.length ≤ 384 ∧ (128 ≤ w388.pool.dram.cache.length ∨ w388.pool.dram.stored = 0))) ∧
    (w2.dramTier = false ∨ (w2.pool.dram.cache.length ≤ 384 ∧ (128 ≤ w2.pool.dram.cache.length ∨ w2.pool.dram.stored = 0))) := by
  refine ⟨?_, ?_, ?_, ?_, ?_, ?_, ?_⟩ <;> decide +kernel

/-- States and operands that meet the hypotheses of the clauses of TrafficEvents. -/
theorem test_meets_TrafficEvents :
    (1023 < 1024) ∧
    (1 = w389.time.fclk - (w389.meter 1023).at_) ∧
    (383 < 384) ∧
    (7 = w390.time.fclk - (w390.tmgQueue 383).shaper.at_) ∧
    (5 < 6) ∧
    (7 = w391.time.fclk - (w391.tmgPort 5).shaper.at_) ∧
    (5 < 6) ∧
    (63 < 64) ∧
    (383 = 64 * 5 + 63) ∧
    (64 = w392.f F.TMG_Q_DEPTH_BYTES 383) ∧
    (268435455 = w392.headDelay 383) ∧
    ((([false, false, true, true] : List Bool) : List Bool) = (w392.tmgQueue 383).fresh) ∧
    (0 < 6) ∧
    (0 < 64) ∧
    (0 = 64 * 0 + 0) ∧
    (0 = w2.f F.TMG_Q_DEPTH_BYTES 0) ∧
    (0 = w2.headDelay 0) ∧
    ((([true, true, true, true] : List Bool) : List Bool) = (w2.tmgQueue 0).fresh) ∧
    (383 < 384) ∧
    (((RegId.TMG_Q_DMIN : RegId), (F.TMG_Q_DMIN_VALUE : Fld), 0) ∈ [(RegId.TMG_Q_DMIN, F.TMG_Q_DMIN_VALUE, 0), (RegId.TMG_Q_DMAX, F.TMG_Q_DMAX_VALUE, 1), (RegId.TMG_Q_HMIN, F.TMG_Q_HMIN_VALUE, 2), (RegId.TMG_Q_HMAX, F.TMG_Q_HMAX_VALUE, 3)]) ∧
    (w393.readOk (Origin.f0 : Origin) (RegId.TMG_Q_DMIN : RegId) 383 = true) ∧
    (383 < 384) ∧
    (((RegId.TMG_Q_DMAX : RegId), (F.TMG_Q_DMAX_VALUE : Fld), 1) ∈ [(RegId.TMG_Q_DMIN, F.TMG_Q_DMIN_VALUE, 0), (RegId.TMG_Q_DMAX, F.TMG_Q_DMAX_VALUE, 1), (RegId.TMG_Q_HMIN, F.TMG_Q_HMIN_VALUE, 2), (RegId.TMG_Q_HMAX, F.TMG_Q_HMAX_VALUE, 3)]) ∧
    (w394.readOk (Origin.f0 : Origin) (RegId.TMG_Q_DMAX : RegId) 383 = true) := by
  refine ⟨?_, ?_, ?_, ?_, ?_, ?_, ?_, ?_, ?_, ?_, ?_, ?_, ?_, ?_, ?_, ?_, ?_, ?_, ?_, ?_, ?_, ?_, ?_, ?_⟩ <;> decide +kernel

/-- States and operands that meet the hypotheses of the clauses of TrafficEvents. -/
theorem test_meets_TrafficEvents_2 :
    (383 < 384) ∧
    (((RegId.TMG_Q_HMIN : RegId), (F.TMG_Q_HMIN_VALUE : Fld), 2) ∈ [(RegId.TMG_Q_DMIN, F.TMG_Q_DMIN_VALUE, 0), (RegId.TMG_Q_DMAX, F.TMG_Q_DMAX_VALUE, 1), (RegId.TMG_Q_HMIN, F.TMG_Q_HMIN_VALUE, 2), (RegId.TMG_Q_HMAX, F.TMG_Q_HMAX_VALUE, 3)]) ∧
    (w395.readOk (Origin.f0 : Origin) (RegId.TMG_Q_HMIN : RegId) 383 = true) ∧
    (383 < 384) ∧
    (((RegId.TMG_Q_HMAX : RegId), (F.TMG_Q_HMAX_VALUE : Fld), 3) ∈ [(RegId.TMG_Q_DMIN, F.TMG_Q_DMIN_VALUE, 0), (RegId.TMG_Q_DMAX, F.TMG_Q_DMAX_VALUE, 1), (RegId.TMG_Q_HMIN, F.TMG_Q_HMIN_VALUE, 2), (RegId.TMG_Q_HMAX, F.TMG_Q_HMAX_VALUE, 3)]) ∧
    (w396.readOk (Origin.f0 : Origin) (RegId.TMG_Q_HMAX : RegId) 383 = true) ∧
    (w397.writeOk (Origin.cpN : Origin) .TMG_METER_CTRL 0 = true) ∧
    (1023 = w397.f F.TMG_METER_SEL_METER 0) ∧
    (w397.f F.TMG_METER_CTRL_EN 1023 ≠ 1) ∧
    ((3 : Word).toNat % 2 = 1) ∧
    (w398.writeOk (Origin.cpN : Origin) .TMG_METER_CTRL 0 = true) ∧
    (1023 = w398.f F.TMG_METER_SEL_METER 0) ∧
    (w398.f F.TMG_METER_CTRL_EN 1023 = 1 ∨ (0xFFFFFFFF : Word).toNat % 2 = 0) ∧
    (w2.writeOk (Origin.cpN : Origin) .TMG_METER_CTRL 0 = true) ∧
    (0 = w2.f F.TMG_METER_SEL_METER 0) ∧
    (w2.f F.TMG_METER_CTRL_EN 0 = 1 ∨ (0xFFFFFFFE : Word).toNat % 2 = 0) ∧
    (383 < 384) ∧
    (w399.writeOk (Origin.cpN : Origin) .TMG_Q_SHAPE_RATE 383 = true) ∧
    (5 < 6) ∧
    (w400.writeOk (Origin.cpN : Origin) .TMG_PORT_SHAPE_RATE 5 = true) := by
  refine ⟨?_, ?_, ?_, ?_, ?_, ?_, ?_, ?_, ?_, ?_, ?_, ?_, ?_, ?_, ?_, ?_, ?_, ?_, ?_, ?_⟩ <;> decide +kernel

/-- States and operands that meet the hypotheses of the clauses of RuleVersions. -/
theorem test_meets_RuleVersions :
    (w2.writeOk (Origin.cpN : Origin) .CLS_COMMIT 0 = true) ∧
    ((2 : Word).toNat.testBit 1 = true) ∧
    ((2 : Word).toNat.testBit 0 = false ∨ w2.inHandover = false) ∧
    (w2.clsState = clsIdle) ∧
    (w401.writeOk (Origin.cpN : Origin) .CLS_COMMIT 0 = true) ∧
    ((0xFFFFFFFA : Word).toNat.testBit 1 = true) ∧
    ((0xFFFFFFFA : Word).toNat.testBit 0 = false ∨ w401.inHandover = false) ∧
    (w401.clsState = clsDraining) ∧
    (w402.writeOk (Origin.cpN : Origin) .CLS_COMMIT 0 = true) ∧
    ((7 : Word).toNat.testBit 0 = false ∨ (w402.inHandover = false ∧ w402.clsState ≠ clsStaging)) ∧
    ((7 : Word).toNat.testBit 1 = false ∨ (w402.clsState ≠ clsIdle ∧ w402.clsState ≠ clsDraining)) ∧
    ((7 : Word).toNat.testBit 2 = false ∨ w402.clsState ≠ clsStaging) ∧
    (w2.writeOk (Origin.cpN : Origin) .CLS_COMMIT 0 = true) ∧
    ((0xFFFFFFF8 : Word).toNat.testBit 0 = false ∨ (w2.inHandover = false ∧ w2.clsState ≠ clsStaging)) ∧
    ((0xFFFFFFF8 : Word).toNat.testBit 1 = false ∨ (w2.clsState ≠ clsIdle ∧ w2.clsState ≠ clsDraining)) ∧
    ((0xFFFFFFF8 : Word).toNat.testBit 2 = false ∨ w2.clsState ≠ clsStaging) ∧
    (w403.writeOk (Origin.cpN : Origin) .CLS_COMMIT 0 = true) ∧
    ((1 : Word).toNat.testBit 0 = true) ∧
    (w403.inHandover = true) ∧
    ((1 : Word).toNat.testBit 1 = false) ∧
    ((1 : Word).toNat.testBit 2 = false) ∧
    (w2.clsState ≠ clsCloning) ∧
    (w401.clsState ≠ clsCloning) ∧
    (w404.clsState = clsCloning) := by
  refine ⟨?_, ?_, ?_, ?_, ?_, ?_, ?_, ?_, ?_, ?_, ?_, ?_, ?_, ?_, ?_, ?_, ?_, ?_, ?_, ?_, ?_, ?_, ?_, ?_⟩ <;> decide +kernel

/-- States and operands that meet the hypotheses of the clauses of RuleVersions. -/
theorem test_meets_RuleVersions_2 :
    (w405.writeOk (Origin.cpN : Origin) .CLS_COMMIT 0 = true) ∧
    ((1 : Word).toNat.testBit 0 = true) ∧
    (w405.inHandover = false) ∧
    (w405.clsState = clsStaging) ∧
    ((({ nExact := 16385 } : Bank) : Bank) = { w405.haul.staged with nExact := w405.f F.CLS_STAGE_COUNT_EXACT 0, nTern := w405.f F.CLS_STAGE_COUNT_TERN 0 }) ∧
    (5 = w405.stageError (({ nExact := 16385 } : Bank) : Bank) (({ nExact := 16385 } : Bank) : Bank).nExact (({ nExact := 16385 } : Bank) : Bank).nTern) ∧
    (5 ≠ 0) ∧
    (w406.writeOk (Origin.cpN : Origin) .CLS_COMMIT 0 = true) ∧
    ((1 : Word).toNat.testBit 0 = true) ∧
    (w406.inHandover = false) ∧
    (w406.clsState = clsStaging) ∧
    ((({ exact := [(7, 33554432)], nExact := 1 } : Bank) : Bank) = { w406.haul.staged with nExact := w406.f F.CLS_STAGE_COUNT_EXACT 0, nTern := w406.f F.CLS_STAGE_COUNT_TERN 0 }) ∧
    (2 = w406.stageError (({ exact := [(7, 33554432)], nExact := 1 } : Bank) : Bank) (({ exact := [(7, 33554432)], nExact := 1 } : Bank) : Bank).nExact (({ exact := [(7, 33554432)], nExact := 1 } : Bank) : Bank).nTern) ∧
    (2 ≠ 0) ∧
    (w407.writeOk (Origin.cpN : Origin) .CLS_COMMIT 0 = true) ∧
    ((1 : Word).toNat.testBit 0 = true) ∧
    (w407.inHandover = false) ∧
    (w407.clsState = clsStaging) ∧
    ((({ exact := [(4, 269484112), (5, 1), (7, 4194304)], nExact := 1 } : Bank) : Bank) = { w407.haul.staged with nExact := w407.f F.CLS_STAGE_COUNT_EXACT 0, nTern := w407.f F.CLS_STAGE_COUNT_TERN 0 }) ∧
    (w407.stageError (({ exact := [(4, 269484112), (5, 1), (7, 4194304)], nExact := 1 } : Bank) : Bank) (({ exact := [(4, 269484112), (5, 1), (7, 4194304)], nExact := 1 } : Bank) : Bank).nExact (({ exact := [(4, 269484112), (5, 1), (7, 4194304)], nExact := 1 } : Bank) : Bank).nTern = 0) ∧
    (w408.writeOk (Origin.cpN : Origin) .CLS_COMMIT 0 = true) ∧
    ((4 : Word).toNat.testBit 2 = true) ∧
    ((4 : Word).toNat.testBit 0 = false) ∧
    (w408.clsState = clsStaging) := by
  refine ⟨?_, ?_, ?_, ?_, ?_, ?_, ?_, ?_, ?_, ?_, ?_, ?_, ?_, ?_, ?_, ?_, ?_, ?_, ?_, ?_, ?_, ?_, ?_, ?_⟩ <;> decide +kernel

/-- States and operands that meet the hypotheses of the clauses of RuleVersions. -/
theorem test_meets_RuleVersions_3 :
    (w2.clsState ≠ clsDraining ∨ w2.oldInUse = true) ∧
    (w409.clsState ≠ clsDraining ∨ w409.oldInUse = true) ∧
    (w410.clsState = clsDraining) ∧
    (w410.oldInUse = false) ∧
    (w411.clsState = clsDraining) ∧
    (w411.oldInUse = false) ∧
    (w410.clsState = clsDraining) ∧
    (w410.oldInUse = false) ∧
    (w410.haul.commitFor = []) ∧
    (w410.f F.SEM_LOCK_OWNER 0 ≠ 1) ∧
    (w412.clsState = clsDraining) ∧
    (w412.oldInUse = false) ∧
    (w412.haul.commitFor = []) ∧
    (w412.f F.SEM_LOCK_OWNER 0 ≠ 1) ∧
    (w413.clsState = clsDraining) ∧
    (w413.oldInUse = false) ∧
    (w413.haul.commitFor = [.mailbox 15]) ∧
    (w413.f F.SEM_LOCK_OWNER 0 = 1) := by
  refine ⟨?_, ?_, ?_, ?_, ?_, ?_, ?_, ?_, ?_, ?_, ?_, ?_, ?_, ?_, ?_, ?_, ?_, ?_⟩ <;> decide +kernel

/-- States and operands that meet the hypotheses of the clauses of RingAndLinks. -/
theorem test_meets_RingAndLinks :
    (5 < 6) ∧
    (w2.portBlind fnHaul 5 = true ∨ (w2.f F.HAUL_STATUS_LINK 5 ≠ 1 ∧ (false = false ∨ w2.f F.HAUL_CTRL_MODE 5 ≠ 1))) ∧
    (5 < 6) ∧
    (w312.portBlind fnHaul 5 = true ∨ (w312.f F.HAUL_STATUS_LINK 5 ≠ 1 ∧ (true = false ∨ w312.f F.HAUL_CTRL_MODE 5 ≠ 1))) ∧
    (5 < 6) ∧
    (w414.portBlind fnHaul 5 = false) ∧
    (w414.f F.HAUL_STATUS_LINK 5 ≠ 1) ∧
    (w414.f F.HAUL_CTRL_MODE 5 = 1) ∧
    (5 < 6) ∧
    (w313.f F.HAUL_STATUS_LINK 5 = 1) ∧
    (w313.portBlind fnHaul 5 = false) ∧
    (5 < 6) ∧
    (w415.f F.HAUL_STATUS_LINK 5 = 1) ∧
    (w415.portBlind fnHaul 5 = false) ∧
    (5 < 6) ∧
    (w416.f F.HAUL_STATUS_LINK 5 = 1) ∧
    (w416.portBlind fnHaul 5 = false) ∧
    (5 < 6) ∧
    (w416.f F.HAUL_STATUS_LINK 5 = 1) ∧
    (w416.portBlind fnHaul 5 = false) ∧
    (w416.ringOn = true) ∧
    ((false = false ∧ 5 = w416.cwPort) ∨ (false = true ∧ 5 = w416.ccwPort ∧ 5 ≠ w416.cwPort)) ∧
    (w416.f (if false then F.CLS_RING_CUT_CCW_VALID else F.CLS_RING_CUT_CW_VALID) 0 ≠ 1) := by
  refine ⟨?_, ?_, ?_, ?_, ?_, ?_, ?_, ?_, ?_, ?_, ?_, ?_, ?_, ?_, ?_, ?_, ?_, ?_, ?_, ?_, ?_, ?_, ?_⟩ <;> decide +kernel

/-- States and operands that meet the hypotheses of the clauses of RingAndLinks. -/
theorem test_meets_RingAndLinks_2 :
    (4 < 6) ∧
    (w417.f F.HAUL_STATUS_LINK 4 = 1) ∧
    (w417.portBlind fnHaul 4 = false) ∧
    (w417.ringOn = true) ∧
    ((true = false ∧ 4 = w417.cwPort) ∨ (true = true ∧ 4 = w417.ccwPort ∧ 4 ≠ w417.cwPort)) ∧
    (w417.f (if true then F.CLS_RING_CUT_CCW_VALID else F.CLS_RING_CUT_CW_VALID) 0 ≠ 1) ∧
    (5 < 6) ∧
    (w2.f F.HAUL_CTRL_EN 5 ≠ 1 ∨ w2.f F.HAUL_STATUS_LINK 5 = 1 ∨ w2.haulLanesOk 5 = false ∨ w2.lanesSynced fnHaul 5 = false ∨ w2.portBlind fnHaul 5 = true) ∧
    (5 < 6) ∧
    (w418.f F.HAUL_CTRL_EN 5 = 1) ∧
    (w418.f F.HAUL_STATUS_LINK 5 ≠ 1) ∧
    (w418.haulLanesOk 5 = true) ∧
    (w418.lanesSynced fnHaul 5 = true) ∧
    (w418.portBlind fnHaul 5 = false) ∧
    (false = false ∨ w418.f F.HAUL_CTRL_MODE 5 ≠ 1) ∧
    (5 < 6) ∧
    (w419.f F.HAUL_CTRL_EN 5 = 1) ∧
    (w419.f F.HAUL_STATUS_LINK 5 ≠ 1) ∧
    (w419.haulLanesOk 5 = true) ∧
    (w419.lanesSynced fnHaul 5 = true) ∧
    (w419.portBlind fnHaul 5 = false) ∧
    (false = false ∨ w419.f F.HAUL_CTRL_MODE 5 ≠ 1) := by
  refine ⟨?_, ?_, ?_, ?_, ?_, ?_, ?_, ?_, ?_, ?_, ?_, ?_, ?_, ?_, ?_, ?_, ?_, ?_, ?_, ?_, ?_, ?_⟩ <;> decide +kernel

/-- States and operands that meet the hypotheses of the clauses of RingAndLinks. -/
theorem test_meets_RingAndLinks_3 :
    (5 < 6) ∧
    (w420.f F.HAUL_CTRL_EN 5 = 1) ∧
    (w420.f F.HAUL_STATUS_LINK 5 ≠ 1) ∧
    (w420.haulLanesOk 5 = true) ∧
    (w420.lanesSynced fnHaul 5 = true) ∧
    (w420.portBlind fnHaul 5 = false) ∧
    (w420.f F.HAUL_CTRL_MODE 5 = 1) ∧
    (5 < 6) ∧
    (w421.ringPort 5 = true) ∧
    (5 < 6) ∧
    (w422.ringPort 5 = true) ∧
    (5 < 6) ∧
    (w423.ringPort 5 = true) ∧
    (5 < 6) ∧
    (w423.ringPort 5 = true) ∧
    (5 < 6) ∧
    (w2.ringPort 5 = false) ∧
    (5 < 6) ∧
    (w421.ringPort 5 = true) ∧
    (w421.noticeGoesOn 5 300 true 64 62 = false) ∧
    (w421.f (if true then F.CLS_RING_CUT_CCW_VALID else F.CLS_RING_CUT_CW_VALID) 0 ≠ 1) := by
  refine ⟨?_, ?_, ?_, ?_, ?_, ?_, ?_, ?_, ?_, ?_, ?_, ?_, ?_, ?_, ?_, ?_, ?_, ?_, ?_, ?_, ?_⟩ <;> decide +kernel

/-- States and operands that meet the hypotheses of the clauses of RingAndLinks. -/
theorem test_meets_RingAndLinks_4 :
    (4 < 6) ∧
    (w421.ringPort 4 = true) ∧
    (w421.noticeGoesOn 4 0 false 2 0 = false) ∧
    (w421.f (if false then F.CLS_RING_CUT_CCW_VALID else F.CLS_RING_CUT_CW_VALID) 0 ≠ 1) ∧
    (5 < 6) ∧
    (w422.ringPort 5 = true) ∧
    (w422.noticeGoesOn 5 4 false 0 0 = false) ∧
    (w422.f F.CLS_RING_CUT_CW_VALID 0 = 1) ∧
    (5 = modSub w422.ringN (w422.f F.CLS_RING_CUT_CW_X 0 + w422.ringN - 1) w422.ringPos) ∧
    (4 = modSub w422.ringN (4 + w422.ringN - 1) w422.ringPos) ∧
    (5 < 6) ∧
    (w422.ringPort 5 = true) ∧
    (w422.noticeGoesOn 5 5 false 0 0 = false) ∧
    (w422.f F.CLS_RING_CUT_CW_VALID 0 = 1) ∧
    (5 = modSub w422.ringN (w422.f F.CLS_RING_CUT_CW_X 0 + w422.ringN - 1) w422.ringPos) ∧
    (5 = modSub w422.ringN (5 + w422.ringN - 1) w422.ringPos) ∧
    (5 < 6) ∧
    (w423.ringPort 5 = true) ∧
    (w423.noticeGoesOn 5 6 true 0 0 = false) ∧
    (w423.f F.CLS_RING_CUT_CCW_VALID 0 = 1) ∧
    (57 = modSub w423.ringN (w423.ringPos + w423.ringN - 1) (w423.f F.CLS_RING_CUT_CCW_X 0)) ∧
    (56 = modSub w423.ringN (w423.ringPos + w423.ringN - 1) 6) := by
  refine ⟨?_, ?_, ?_, ?_, ?_, ?_, ?_, ?_, ?_, ?_, ?_, ?_, ?_, ?_, ?_, ?_, ?_, ?_, ?_, ?_, ?_, ?_⟩ <;> decide +kernel

/-- States and operands that meet the hypotheses of the clauses of RingAndLinks. -/
theorem test_meets_RingAndLinks_5 :
    (5 < 6) ∧
    (w423.ringPort 5 = true) ∧
    (w423.noticeGoesOn 5 5 true 0 0 = false) ∧
    (w423.f F.CLS_RING_CUT_CCW_VALID 0 = 1) ∧
    (57 = modSub w423.ringN (w423.ringPos + w423.ringN - 1) (w423.f F.CLS_RING_CUT_CCW_X 0)) ∧
    (57 = modSub w423.ringN (w423.ringPos + w423.ringN - 1) 5) ∧
    (5 < 6) ∧
    (w424.ringPort 5 = true) ∧
    (w424.noticeGoesOn 5 9 false 64 61 = true) ∧
    (4 = w424.otherRing 5) ∧
    (w424.f F.TMG_Q_CFG_EN (64 * 4) = 1) ∧
    (w424.f F.TMG_Q_DEPTH_BYTES (64 * 4) + 200 ≤ w424.f F.TMG_Q_DEPTH_MAX_BYTES (64 * 4)) ∧
    ((List.range 16).any (fun b => decide ((w424.packet b).bufs = [])) = true) ∧
    (4 < 6) ∧
    (w424.ringPort 4 = true) ∧
    (w424.noticeGoesOn 4 9 true 64 61 = true) ∧
    (5 = w424.otherRing 4) ∧
    (w424.f F.TMG_Q_CFG_EN (64 * 5) = 1) ∧
    (w424.f F.TMG_Q_DEPTH_BYTES (64 * 5) + 200 ≤ w424.f F.TMG_Q_DEPTH_MAX_BYTES (64 * 5)) ∧
    ((List.range 16).any (fun b => decide ((w424.packet b).bufs = [])) = true) ∧
    (5 < 6) ∧
    (w423.ringPort 5 = true) ∧
    (w423.noticeGoesOn 5 5 true 0 0 = false) := by
  refine ⟨?_, ?_, ?_, ?_, ?_, ?_, ?_, ?_, ?_, ?_, ?_, ?_, ?_, ?_, ?_, ?_, ?_, ?_, ?_, ?_, ?_, ?_, ?_⟩ <;> decide +kernel

/-- States and operands that meet the hypotheses of the clauses of RingAndLinks. -/
theorem test_meets_RingAndLinks_6 :
    (5 < 6) ∧
    (w423.ringPort 5 = true) ∧
    (w423.noticeGoesOn 5 4 true 0 0 = false) ∧
    (5 < 6) ∧
    ((w2.haulPort 5).lost = false ∨ w2.ringPort 5 = false) ∧
    (5 < 6) ∧
    ((w421.haulPort 5).lost = false ∨ w421.ringPort 5 = false) ∧
    (5 < 6) ∧
    ((w425.haulPort 5).lost = true) ∧
    (w425.ringPort 5 = true) ∧
    (w426.writeOk (Origin.cpN : Origin) .CLS_RING_CMD 0 = true) ∧
    (w427.writeOk (Origin.cpN : Origin) .CLS_RING_CMD 0 = true) ∧
    (w428.writeOk (Origin.cpN : Origin) .CLS_RING_CMD 0 = true) ∧
    (w2.writeOk (Origin.cpN : Origin) .CLS_RING_CMD 0 = true) ∧
    ((4 : Word).toNat % 8 = 4) ∧
    (w2.haul.ownCw = false) ∧
    (w2.haul.ownCcw = false) ∧
    (w426.writeOk (Origin.cpN : Origin) .CLS_RING_CMD 0 = true) ∧
    ((4 : Word).toNat % 8 = 4) ∧
    (w429.writeOk (Origin.cpN : Origin) .CLS_RING_CMD 0 = true) ∧
    ((4 : Word).toNat % 8 = 4) ∧
    (w426.writeOk (Origin.cpN : Origin) .CLS_RING_CMD 0 = true) ∧
    ((1 : Word).toNat % 8 = 1) := by
  refine ⟨?_, ?_, ?_, ?_, ?_, ?_, ?_, ?_, ?_, ?_, ?_, ?_, ?_, ?_, ?_, ?_, ?_, ?_, ?_, ?_, ?_, ?_, ?_⟩ <;> decide +kernel

/-- States and operands that meet the hypotheses of the clauses of RingAndLinks. -/
theorem test_meets_RingAndLinks_7 :
    (w2.writeOk (Origin.cpN : Origin) .CLS_RING_CMD 0 = true) ∧
    ((0xFFFFFFF9 : Word).toNat % 8 = 1) ∧
    (w426.writeOk (Origin.cpN : Origin) .CLS_RING_CMD 0 = true) ∧
    ((2 : Word).toNat % 8 = 2) ∧
    (w430.writeOk (Origin.cpN : Origin) .CLS_RING_CMD 0 = true) ∧
    ((2 : Word).toNat % 8 = 2) ∧
    (255 < 256) ∧
    (w2.frag? 255 = none) ∧
    (255 < 256) ∧
    (w431.frag? 255 = some (({ ended := true, ctx := some 3 } : Frag) : Frag)) ∧
    (255 < 256) ∧
    (w432.frag? 255 = some (({} : Frag) : Frag)) := by
  refine ⟨?_, ?_, ?_, ?_, ?_, ?_, ?_, ?_, ?_, ?_, ?_, ?_⟩ <;> decide +kernel

/-- States and operands that meet the hypotheses of the clauses of LaneEvents. -/
theorem test_meets_LaneEvents :
    (63 < 64) ∧
    (63 < 64) ∧
    (w433.f F.LANE_STATUS_CAL 63 ≠ 1) ∧
    (63 < 64) ∧
    (w434.f F.LANE_STATUS_CAL 63 = 1) ∧
    (59 < 64) ∧
    (w435.f F.LANE_STATUS_CAL 59 = 1) ∧
    (63 < 64) ∧
    (w2.f F.LANE_STATUS_SYNC 63 ≠ 1) ∧
    (63 < 64) ∧
    (w436.f F.LANE_STATUS_SYNC 63 = 1) ∧
    (w436.f F.LANE_STATUS_CAL 63 = 1) ∧
    (63 < 64) ∧
    (w437.f F.LANE_STATUS_SYNC 63 = 1) ∧
    (w437.f F.LANE_STATUS_CAL 63 ≠ 1) ∧
    (59 < 64) ∧
    (w438.f F.LANE_STATUS_SYNC 59 = 1) ∧
    (w438.f F.LANE_STATUS_CAL 59 ≠ 1) ∧
    (63 < 64) ∧
    (w2.f F.LANE_CFG_EN 63 ≠ 1 ∨ w2.f F.LANE_STATUS_CDR_LOCK 63 ≠ 1) ∧
    (59 < 64) ∧
    (w439.f F.LANE_CFG_EN 59 = 1) ∧
    (w439.f F.LANE_STATUS_CDR_LOCK 59 = 1) := by
  refine ⟨?_, ?_, ?_, ?_, ?_, ?_, ?_, ?_, ?_, ?_, ?_, ?_, ?_, ?_, ?_, ?_, ?_, ?_, ?_, ?_, ?_, ?_, ?_⟩ <;> decide +kernel

/-- States and operands that meet the hypotheses of the clauses of LaneEvents. -/
theorem test_meets_LaneEvents_2 :
    (0 < 64) ∧
    (w440.f F.LANE_CFG_EN 0 = 1) ∧
    (w440.f F.LANE_STATUS_CDR_LOCK 0 = 1) ∧
    (60 < 64) ∧
    (60 ≤ 60 ∨ w2.laneWindow 60 = false ∨ w2.inHandover = true) ∧
    (59 < 64) ∧
    (60 ≤ 59 ∨ w441.laneWindow 59 = false ∨ w441.inHandover = true) ∧
    (59 < 60) ∧
    (w442.laneWindow 59 = true) ∧
    (w442.inHandover = false) ∧
    (Tab.get none w442.lane.restored 59 = none) ∧
    (59 ∈ w442.lane.due) ∧
    (w442.f F.LANE_STATUS_CAL 59 ≠ 1) ∧
    (59 < 60) ∧
    (w443.laneWindow 59 = true) ∧
    (w443.inHandover = false) ∧
    (Tab.get none w443.lane.restored 59 = none) ∧
    (59 ∈ w443.lane.due) ∧
    (w443.f F.LANE_STATUS_CAL 59 ≠ 1) := by
  refine ⟨?_, ?_, ?_, ?_, ?_, ?_, ?_, ?_, ?_, ?_, ?_, ?_, ?_, ?_, ?_, ?_, ?_, ?_, ?_⟩ <;> decide +kernel

/-- States and operands that meet the hypotheses of the clauses of LaneEvents. -/
theorem test_meets_LaneEvents_3 :
    (59 < 60) ∧
    (w444.laneWindow 59 = true) ∧
    (w444.inHandover = false) ∧
    (Tab.get none w444.lane.restored 59 = none) ∧
    (59 ∈ w444.lane.due) ∧
    (w444.f F.LANE_STATUS_CAL 59 ≠ 1) ∧
    (59 < 60) ∧
    (w445.laneWindow 59 = true) ∧
    (w445.inHandover = false) ∧
    (Tab.get none w445.lane.restored 59 = some 1023) ∧
    (59 ∉ w445.lane.due ∨ w445.f F.LANE_STATUS_CAL 59 = 1) ∧
    (59 < 60) ∧
    (w446.laneWindow 59 = true) ∧
    (w446.inHandover = false) ∧
    (Tab.get none w446.lane.restored 59 = some 1023) ∧
    (59 ∈ w446.lane.due) ∧
    (w446.f F.LANE_STATUS_CAL 59 ≠ 1) ∧
    (59 < 60) ∧
    (w447.laneWindow 59 = true) ∧
    (w447.inHandover = false) ∧
    (Tab.get none w447.lane.restored 59 = none) ∧
    (59 ∉ w447.lane.due ∨ w447.f F.LANE_STATUS_CAL 59 = 1) := by
  refine ⟨?_, ?_, ?_, ?_, ?_, ?_, ?_, ?_, ?_, ?_, ?_, ?_, ?_, ?_, ?_, ?_, ?_, ?_, ?_, ?_, ?_, ?_⟩ <;> decide +kernel

/-- States and operands that meet the hypotheses of the clauses of LaneEvents. -/
theorem test_meets_LaneEvents_4 :
    (59 < 60) ∧
    (w448.laneWindow 59 = true) ∧
    (w448.inHandover = false) ∧
    (Tab.get none w448.lane.restored 59 = none) ∧
    (59 ∉ w448.lane.due ∨ w448.f F.LANE_STATUS_CAL 59 = 1) ∧
    (63 < 64) ∧
    (w2.f F.LANE_STATUS_CAL 63 ≠ 1) ∧
    (63 < 64) ∧
    (w449.f F.LANE_STATUS_CAL 63 = 1) ∧
    (63 < 64) ∧
    (w450.f F.LANE_STATUS_CAL 63 = 1) ∧
    (63 < 64) ∧
    (w2.writeOk (Origin.cpN : Origin) .LANE_RX 63 = true) ∧
    (w2.f F.LANE_STATUS_CAL 63 ≠ 1) ∧
    (63 < 64) ∧
    (w2.writeOk (Origin.cpN : Origin) .LANE_RX 63 = true) ∧
    (w2.f F.LANE_STATUS_CAL 63 ≠ 1) ∧
    (59 < 60) ∧
    (w451.writeOk (Origin.cpN : Origin) (if true then .LANE_RX else .LANE_CFG) 59 = true) ∧
    (w451.f F.LANE_STATUS_CAL 59 = 1) ∧
    (59 < 60) ∧
    (w451.writeOk (Origin.cpN : Origin) (if false then .LANE_RX else .LANE_CFG) 59 = true) ∧
    (w451.f F.LANE_STATUS_CAL 59 = 1) := by
  refine ⟨?_, ?_, ?_, ?_, ?_, ?_, ?_, ?_, ?_, ?_, ?_, ?_, ?_, ?_, ?_, ?_, ?_, ?_, ?_, ?_, ?_, ?_, ?_⟩ <;> decide +kernel

/-- States and operands that meet the hypotheses of the clauses of LaneEvents. -/
theorem test_meets_LaneEvents_5 :
    (63 < 64) ∧
    (w2.writeOk (Origin.cpN : Origin) .LANE_RX 63 = true) ∧
    (63 < 64) ∧
    (w2.writeOk (Origin.cpN : Origin) .LANE_RX 63 = true) ∧
    (60 ≤ 60) ∧
    (60 < 64) ∧
    (w2.writeOk (Origin.cpN : Origin) .LANE_CFG 60 = true) ∧
    (59 < 60) ∧
    (w452.writeOk (Origin.cpN : Origin) .LANE_CFG 59 = true) ∧
    (59 < 60) ∧
    (w453.writeOk (Origin.cpN : Origin) .LANE_CFG 59 = true) ∧
    (59 < 60) ∧
    (w454.writeOk (Origin.cpN : Origin) .LANE_CFG 59 = true) ∧
    (59 < 60) ∧
    (5 < 6) ∧
    (w453.writeOk (Origin.cpN : Origin) .LANE_CFG 59 = true) ∧
    (w453.f F.LANE_CFG_EN 59 = 0) ∧
    ((2164588544 : Word).toNat / 2 ^ 31 = 1) ∧
    ((2164588544 : Word).toNat / 2 ^ 24 % 8 = 1) ∧
    ((2164588544 : Word).toNat / 2 ^ 16 % 64 = 5) ∧
    ((∀ l ∈ List.range 60, w453.f F.LANE_STATUS_CAL l ≠ 1)) := by
  refine ⟨?_, ?_, ?_, ?_, ?_, ?_, ?_, ?_, ?_, ?_, ?_, ?_, ?_, ?_, ?_, ?_, ?_, ?_, ?_, ?_, ?_⟩ <;> decide +kernel

/-- States and operands that meet the hypotheses of the clauses of LaneEvents. -/
theorem test_meets_LaneEvents_6 :
    (59 < 60) ∧
    (0 < 6) ∧
    (w455.writeOk (Origin.cpN : Origin) .LANE_CFG 59 = true) ∧
    (w455.f F.LANE_CFG_EN 59 = 0) ∧
    ((2164260867 : Word).toNat / 2 ^ 31 = 1) ∧
    ((2164260867 : Word).toNat / 2 ^ 24 % 8 = 1) ∧
    ((2164260867 : Word).toNat / 2 ^ 16 % 64 = 0) ∧
    ((∀ l ∈ List.range 60, w455.f F.LANE_STATUS_CAL l ≠ 1)) ∧
    (59 < 60) ∧
    (w456.f F.LANE_CFG_EN 59 = 1) ∧
    (59 ∉ w456.lane.due) ∧
    (w456.f F.LANE_STATUS_CAL 59 ≠ 1) ∧
    (63 < 64) ∧
    (60 ≤ 63 ∨ w457.f F.LANE_CFG_EN 63 ≠ 1 ∨ 63 ∈ w457.lane.due ∨ w457.f F.LANE_STATUS_CAL 63 = 1) ∧
    (59 < 64) ∧
    (60 ≤ 59 ∨ w458.f F.LANE_CFG_EN 59 ≠ 1 ∨ 59 ∈ w458.lane.due ∨ w458.f F.LANE_STATUS_CAL 59 = 1) ∧
    (15 < 16) ∧
    (w2.inHandover = false) ∧
    (15 < 16) ∧
    (w459.inHandover = true) ∧
    (15 < 16) ∧
    (w460.quadOn 15 = true) ∧
    (15 < 16) ∧
    (w461.quadOn 15 = false) := by
  refine ⟨?_, ?_, ?_, ?_, ?_, ?_, ?_, ?_, ?_, ?_, ?_, ?_, ?_, ?_, ?_, ?_, ?_, ?_, ?_, ?_, ?_, ?_, ?_, ?_⟩ <;> decide +kernel

/-- States and operands that meet the hypotheses of the clauses of LaneEvents. -/
theorem test_meets_LaneEvents_7 :
    (63 < 64) ∧
    (w462.f F.LANE_CFG_EN 63 = 1) ∧
    (w462.laneFunc 63 = fnTest) ∧
    (w462.f F.LANE_PRBS_CHK 63 = 1) ∧
    (7 = min (2 ^ 32 - 1) (w462.f F.LANE_CNT_COUNT (4 * 63 + 3) + 7)) ∧
    (63 < 64) ∧
    (w463.f F.LANE_CFG_EN 63 = 1) ∧
    (w463.laneFunc 63 = fnTest) ∧
    (w463.f F.LANE_PRBS_CHK 63 = 1) ∧
    (4294967295 = min (2 ^ 32 - 1) (w463.f F.LANE_CNT_COUNT (4 * 63 + 3) + 1)) ∧
    (63 < 64) ∧
    (w2.f F.LANE_CFG_EN 63 ≠ 1 ∨ w2.laneFunc 63 ≠ fnTest ∨ w2.f F.LANE_PRBS_CHK 63 ≠ 1) ∧
    (63 < 64) ∧
    (w449.f F.LANE_STATUS_CAL 63 = 1) ∧
    (63 < 64) ∧
    (w2.f F.LANE_STATUS_CAL 63 ≠ 1) ∧
    ((CodeErrKind.disparity : CodeErrKind) ≠ .controlFrame ∨ (w2.laneFunc 63 ≠ fnHaul ∧ (w2.laneFunc 63 ≠ fnIngress ∨ 8 ≤ w2.lanePort 63 ∨ w2.f F.ING_STATUS_LINK (w2.lanePort 63) ≠ 1))) ∧
    (0 = (if (CodeErrKind.disparity : CodeErrKind) = .disparity then 0 else 1)) ∧
    (63 < 64) ∧
    (w2.f F.LANE_STATUS_CAL 63 ≠ 1) ∧
    ((CodeErrKind.controlFrame : CodeErrKind) ≠ .controlFrame ∨ (w2.laneFunc 63 ≠ fnHaul ∧ (w2.laneFunc 63 ≠ fnIngress ∨ 8 ≤ w2.lanePort 63 ∨ w2.f F.ING_STATUS_LINK (w2.lanePort 63) ≠ 1))) ∧
    (1 = (if (CodeErrKind.controlFrame : CodeErrKind) = .disparity then 0 else 1)) := by
  refine ⟨?_, ?_, ?_, ?_, ?_, ?_, ?_, ?_, ?_, ?_, ?_, ?_, ?_, ?_, ?_, ?_, ?_, ?_, ?_, ?_, ?_, ?_⟩ <;> decide +kernel

/-- States and operands that meet the hypotheses of the clauses of LaneEvents. -/
theorem test_meets_LaneEvents_8 :
    (63 < 64) ∧
    (w464.f F.LANE_STATUS_CAL 63 ≠ 1) ∧
    (w464.laneFunc 63 = fnIngress) ∧
    (7 = w464.lanePort 63) ∧
    (7 < 8) ∧
    (w464.f F.ING_STATUS_LINK 7 = 1) ∧
    (59 < 64) ∧
    (w465.f F.LANE_STATUS_CAL 59 ≠ 1) ∧
    (w465.laneFunc 59 = fnHaul) ∧
    (59 < 64) ∧
    (w466.f F.LANE_STATUS_CAL 59 ≠ 1) ∧
    (w466.laneFunc 59 = fnHaul) := by
  refine ⟨?_, ?_, ?_, ?_, ?_, ?_, ?_, ?_, ?_, ?_, ?_, ?_⟩ <;> decide +kernel

/-- States and operands that meet the hypotheses of the clauses of IngressEvents. -/
theorem test_meets_IngressEvents :
    (7 < 8) ∧
    (w2.f F.ING_CTRL_EN 7 ≠ 1 ∨ w2.ingMode 7 ≠ 0 ∨ w2.f F.ING_STATUS_LINK 7 ≠ 1 ∨ w2.fatal = true) ∧
    (7 < 8) ∧
    (w467.f F.ING_CTRL_EN 7 ≠ 1 ∨ w467.ingMode 7 ≠ 0 ∨ w467.f F.ING_STATUS_LINK 7 ≠ 1 ∨ w467.fatal = true) ∧
    (7 < 8) ∧
    (w468.f F.ING_CTRL_EN 7 = 1) ∧
    (w468.ingMode 7 = 0) ∧
    (w468.f F.ING_STATUS_LINK 7 = 1) ∧
    (w468.fatal = false) ∧
    ((2 = 5 ∧ 24596 < (([16, 0, 1, 44, 0, 1, 0, 1, 0, 0, 0, 0, 0, 9, 0, 0, 1, 2, 255, 193, 162, 138, 122] : List Byte) : List Byte).length) ∨ (2 = 2 ∧ (([16, 0, 1, 44, 0, 1, 0, 1, 0, 0, 0, 0, 0, 9, 0, 0, 1, 2, 255, 193, 162, 138, 122] : List Byte) : List Byte).length ≤ 24596 ∧ true = true) ∨ (2 = 1 ∧ (([16, 0, 1, 44, 0, 1, 0, 1, 0, 0, 0, 0, 0, 9, 0, 0, 1, 2, 255, 193, 162, 138, 122] : List Byte) : List Byte).length ≤ 24596 ∧ true = false ∧ (w468.portBlind fnIngress 7 = true ∨ (([16, 0, 1, 44, 0, 1, 0, 1, 0, 0, 0, 0, 0, 9, 0, 0, 1, 2, 255, 193, 162, 138, 122] : List Byte) : List Byte).length < 4 ∨ beAt (([16, 0, 1, 44, 0, 1, 0, 1, 0, 0, 0, 0, 0, 9, 0, 0, 1, 2, 255, 193, 162, 138, 122] : List Byte) : List Byte) ((([16, 0, 1, 44, 0, 1, 0, 1, 0, 0, 0, 0, 0, 9, 0, 0, 1, 2, 255, 193, 162, 138, 122] : List Byte) : List Byte).length - 4) 4 ≠ crc32 ((([16, 0, 1, 44, 0, 1, 0, 1, 0, 0, 0, 0, 0, 9, 0, 0, 1, 2, 255, 193, 162, 138, 122] : List Byte) : List Byte).take ((([16, 0, 1, 44, 0, 1, 0, 1, 0, 0, 0, 0, 0, 9, 0, 0, 1, 2, 255, 193, 162, 138, 122] : List Byte) : List Byte).length - 4))))) ∧
    (7 < 8) ∧
    (w468.f F.ING_CTRL_EN 7 = 1) ∧
    (w468.ingMode 7 = 0) ∧
    (w468.f F.ING_STATUS_LINK 7 = 1) ∧
    (w468.fatal = false) ∧
    ((1 = 5 ∧ 24596 < (([1, 2, 3] : List Byte) : List Byte).length) ∨ (1 = 2 ∧ (([1, 2, 3] : List Byte) : List Byte).length ≤ 24596 ∧ false = true) ∨ (1 = 1 ∧ (([1, 2, 3] : List Byte) : List Byte).length ≤ 24596 ∧ false = false ∧ (w468.portBlind fnIngress 7 = true ∨ (([1, 2, 3] : List Byte) : List Byte).length < 4 ∨ beAt (([1, 2, 3] : List Byte) : List Byte) ((([1, 2, 3] : List Byte) : List Byte).length - 4) 4 ≠ crc32 ((([1, 2, 3] : List Byte) : List Byte).take ((([1, 2, 3] : List Byte) : List Byte).length - 4))))) ∧
    (7 < 8) ∧
    (w468.f F.ING_CTRL_EN 7 = 1) ∧
    (w468.ingMode 7 = 0) ∧
    (w468.f F.ING_STATUS_LINK 7 = 1) ∧
    (w468.fatal = false) ∧
    ((1 = 5 ∧ 24596 < (([16, 0, 1, 44, 0, 1, 0, 1, 0, 0, 0, 0, 0, 9, 0, 0, 1, 2, 255, 193, 162, 138, 0] : List Byte) : List Byte).length) ∨ (1 = 2 ∧ (([16, 0, 1, 44, 0, 1, 0, 1, 0, 0, 0, 0, 0, 9, 0, 0, 1, 2, 255, 193, 162, 138, 0] : List Byte) : List Byte).length ≤ 24596 ∧ false = true) ∨ (1 = 1 ∧ (([16, 0, 1, 44, 0, 1, 0, 1, 0, 0, 0, 0, 0, 9, 0, 0, 1, 2, 255, 193, 162, 138, 0] : List Byte) : List Byte).length ≤ 24596 ∧ false = false ∧ (w468.portBlind fnIngress 7 = true ∨ (([16, 0, 1, 44, 0, 1, 0, 1, 0, 0, 0, 0, 0, 9, 0, 0, 1, 2, 255, 193, 162, 138, 0] : List Byte) : List Byte).length < 4 ∨ beAt (([16, 0, 1, 44, 0, 1, 0, 1, 0, 0, 0, 0, 0, 9, 0, 0, 1, 2, 255, 193, 162, 138, 0] : List Byte) : List Byte) ((([16, 0, 1, 44, 0, 1, 0, 1, 0, 0, 0, 0, 0, 9, 0, 0, 1, 2, 255, 193, 162, 138, 0] : List Byte) : List Byte).length - 4) 4 ≠ crc32 ((([16, 0, 1, 44, 0, 1, 0, 1, 0, 0, 0, 0, 0, 9, 0, 0, 1, 2, 255, 193, 162, 138, 0] : List Byte) : List Byte).take ((([16, 0, 1, 44, 0, 1, 0, 1, 0, 0, 0, 0, 0, 9, 0, 0, 1, 2, 255, 193, 162, 138, 0] : List Byte) : List Byte).length - 4))))) := by
  refine ⟨?_, ?_, ?_, ?_, ?_, ?_, ?_, ?_, ?_, ?_, ?_, ?_, ?_, ?_, ?_, ?_, ?_, ?_, ?_, ?_, ?_, ?_⟩ <;> decide +kernel

/-- States and operands that meet the hypotheses of the clauses of IngressEvents. -/
theorem test_meets_IngressEvents_2 :
    (7 < 8) ∧
    (w468.f F.ING_CTRL_EN 7 = 1) ∧
    (w468.ingMode 7 = 0) ∧
    (w468.f F.ING_STATUS_LINK 7 = 1) ∧
    (w468.fatal = false) ∧
    (w468.portBlind fnIngress 7 = false) ∧
    (4 ≤ (([16, 0, 1, 44, 0, 1, 0, 1, 0, 0, 0, 0, 0, 9, 0, 0, 1, 2, 255, 193, 162, 138, 122] : List Byte) : List Byte).length) ∧
    ((([16, 0, 1, 44, 0, 1, 0, 1, 0, 0, 0, 0, 0, 9, 0, 0, 1, 2, 255, 193, 162, 138, 122] : List Byte) : List Byte).length ≤ 24596) ∧
    ((([16, 0, 1, 44, 0, 1, 0, 1, 0, 0, 0, 0, 0, 9, 0, 0, 1, 2, 255] : List Byte) : List Byte) = (([16, 0, 1, 44, 0, 1, 0, 1, 0, 0, 0, 0, 0, 9, 0, 0, 1, 2, 255, 193, 162, 138, 122] : List Byte) : List Byte).take ((([16, 0, 1, 44, 0, 1, 0, 1, 0, 0, 0, 0, 0, 9, 0, 0, 1, 2, 255, 193, 162, 138, 122] : List Byte) : List Byte).length - 4)) ∧
    (beAt (([16, 0, 1, 44, 0, 1, 0, 1, 0, 0, 0, 0, 0, 9, 0, 0, 1, 2, 255, 193, 162, 138, 122] : List Byte) : List Byte) ((([16, 0, 1, 44, 0, 1, 0, 1, 0, 0, 0, 0, 0, 9, 0, 0, 1, 2, 255, 193, 162, 138, 122] : List Byte) : List Byte).length - 4) 4 = crc32 (([16, 0, 1, 44, 0, 1, 0, 1, 0, 0, 0, 0, 0, 9, 0, 0, 1, 2, 255] : List Byte) : List Byte)) ∧
    (w468.lineFrameOk 7 (([16, 0, 1, 44, 0, 1, 0, 1, 0, 0, 0, 0, 0, 9, 0, 0, 1, 2, 255] : List Byte) : List Byte) = false ∨ ((w468.ing 7).pic = none ∧ (byteAt (([16, 0, 1, 44, 0, 1, 0, 1, 0, 0, 0, 0, 0, 9, 0, 0, 1, 2, 255] : List Byte) : List Byte) 0).testBit 3 = false)) ∧
    (7 < 8) ∧
    (w469.f F.ING_CTRL_EN 7 = 1) ∧
    (w469.ingMode 7 = 0) ∧
    (w469.f F.ING_STATUS_LINK 7 = 1) ∧
    (w469.fatal = false) ∧
    (w469.portBlind fnIngress 7 = false) ∧
    (4 ≤ (([24, 0, 1, 44, 0, 1, 0, 2, 0, 0, 0, 0, 0, 9, 0, 0, 1, 2, 255, 191, 157, 69, 15] : List Byte) : List Byte).length) ∧
    ((([24, 0, 1, 44, 0, 1, 0, 2, 0, 0, 0, 0, 0, 9, 0, 0, 1, 2, 255, 191, 157, 69, 15] : List Byte) : List Byte).length ≤ 24596) ∧
    ((([24, 0, 1, 44, 0, 1, 0, 2, 0, 0, 0, 0, 0, 9, 0, 0, 1, 2, 255] : List Byte) : List Byte) = (([24, 0, 1, 44, 0, 1, 0, 2, 0, 0, 0, 0, 0, 9, 0, 0, 1, 2, 255, 191, 157, 69, 15] : List Byte) : List Byte).take ((([24, 0, 1, 44, 0, 1, 0, 2, 0, 0, 0, 0, 0, 9, 0, 0, 1, 2, 255, 191, 157, 69, 15] : List Byte) : List Byte).length - 4)) ∧
    (beAt (([24, 0, 1, 44, 0, 1, 0, 2, 0, 0, 0, 0, 0, 9, 0, 0, 1, 2, 255, 191, 157, 69, 15] : List Byte) : List Byte) ((([24, 0, 1, 44, 0, 1, 0, 2, 0, 0, 0, 0, 0, 9, 0, 0, 1, 2, 255, 191, 157, 69, 15] : List Byte) : List Byte).length - 4) 4 = crc32 (([24, 0, 1, 44, 0, 1, 0, 2, 0, 0, 0, 0, 0, 9, 0, 0, 1, 2, 255] : List Byte) : List Byte)) ∧
    (w469.lineFrameOk 7 (([24, 0, 1, 44, 0, 1, 0, 2, 0, 0, 0, 0, 0, 9, 0, 0, 1, 2, 255] : List Byte) : List Byte) = false ∨ ((w469.ing 7).pic = none ∧ (byteAt (([24, 0, 1, 44, 0, 1, 0, 2, 0, 0, 0, 0, 0, 9, 0, 0, 1, 2, 255] : List Byte) : List Byte) 0).testBit 3 = false)) := by
  refine ⟨?_, ?_, ?_, ?_, ?_, ?_, ?_, ?_, ?_, ?_, ?_, ?_, ?_, ?_, ?_, ?_, ?_, ?_, ?_, ?_, ?_, ?_⟩ <;> decide +kernel

/-- States and operands that meet the hypotheses of the clauses of IngressEvents. -/
theorem test_meets_IngressEvents_3 :
    (7 < 8) ∧
    (w470.f F.ING_CTRL_EN 7 = 1) ∧
    (w470.ingMode 7 = 0) ∧
    (w470.f F.ING_STATUS_LINK 7 = 1) ∧
    (w470.fatal = false) ∧
    (w470.portBlind fnIngress 7 = false) ∧
    (4 ≤ (([24, 0, 1, 44, 0, 1, 0, 1, 0, 0, 0, 0, 0, 9, 0, 0, 1, 2, 255, 200, 3, 151, 255] : List Byte) : List Byte).length) ∧
    ((([24, 0, 1, 44, 0, 1, 0, 1, 0, 0, 0, 0, 0, 9, 0, 0, 1, 2, 255, 200, 3, 151, 255] : List Byte) : List Byte).length ≤ 24596) ∧
    ((([24, 0, 1, 44, 0, 1, 0, 1, 0, 0, 0, 0, 0, 9, 0, 0, 1, 2, 255] : List Byte) : List Byte) = (([24, 0, 1, 44, 0, 1, 0, 1, 0, 0, 0, 0, 0, 9, 0, 0, 1, 2, 255, 200, 3, 151, 255] : List Byte) : List Byte).take ((([24, 0, 1, 44, 0, 1, 0, 1, 0, 0, 0, 0, 0, 9, 0, 0, 1, 2, 255, 200, 3, 151, 255] : List Byte) : List Byte).length - 4)) ∧
    (beAt (([24, 0, 1, 44, 0, 1, 0, 1, 0, 0, 0, 0, 0, 9, 0, 0, 1, 2, 255, 200, 3, 151, 255] : List Byte) : List Byte) ((([24, 0, 1, 44, 0, 1, 0, 1, 0, 0, 0, 0, 0, 9, 0, 0, 1, 2, 255, 200, 3, 151, 255] : List Byte) : List Byte).length - 4) 4 = crc32 (([24, 0, 1, 44, 0, 1, 0, 1, 0, 0, 0, 0, 0, 9, 0, 0, 1, 2, 255] : List Byte) : List Byte)) ∧
    (w470.lineFrameOk 7 (([24, 0, 1, 44, 0, 1, 0, 1, 0, 0, 0, 0, 0, 9, 0, 0, 1, 2, 255] : List Byte) : List Byte) = true) ∧
    ((w470.ing 7).pic.isSome = true ∨ (byteAt (([24, 0, 1, 44, 0, 1, 0, 1, 0, 0, 0, 0, 0, 9, 0, 0, 1, 2, 255] : List Byte) : List Byte) 0).testBit 3 = true) ∧
    (7 < 8) ∧
    (w471.f F.ING_CTRL_EN 7 = 1) ∧
    (w471.ingMode 7 = 0) ∧
    (w471.f F.ING_STATUS_LINK 7 = 1) ∧
    (w471.fatal = false) ∧
    (w471.portBlind fnIngress 7 = false) ∧
    (4 ≤ (([20, 0, 1, 44, 0, 1, 0, 1, 0, 0, 0, 0, 0, 9, 0, 0, 1, 2, 255, 40, 202, 135, 152] : List Byte) : List Byte).length) ∧
    ((([20, 0, 1, 44, 0, 1, 0, 1, 0, 0, 0, 0, 0, 9, 0, 0, 1, 2, 255, 40, 202, 135, 152] : List Byte) : List Byte).length ≤ 24596) ∧
    ((([20, 0, 1, 44, 0, 1, 0, 1, 0, 0, 0, 0, 0, 9, 0, 0, 1, 2, 255] : List Byte) : List Byte) = (([20, 0, 1, 44, 0, 1, 0, 1, 0, 0, 0, 0, 0, 9, 0, 0, 1, 2, 255, 40, 202, 135, 152] : List Byte) : List Byte).take ((([20, 0, 1, 44, 0, 1, 0, 1, 0, 0, 0, 0, 0, 9, 0, 0, 1, 2, 255, 40, 202, 135, 152] : List Byte) : List Byte).length - 4)) ∧
    (beAt (([20, 0, 1, 44, 0, 1, 0, 1, 0, 0, 0, 0, 0, 9, 0, 0, 1, 2, 255, 40, 202, 135, 152] : List Byte) : List Byte) ((([20, 0, 1, 44, 0, 1, 0, 1, 0, 0, 0, 0, 0, 9, 0, 0, 1, 2, 255, 40, 202, 135, 152] : List Byte) : List Byte).length - 4) 4 = crc32 (([20, 0, 1, 44, 0, 1, 0, 1, 0, 0, 0, 0, 0, 9, 0, 0, 1, 2, 255] : List Byte) : List Byte)) ∧
    (w471.lineFrameOk 7 (([20, 0, 1, 44, 0, 1, 0, 1, 0, 0, 0, 0, 0, 9, 0, 0, 1, 2, 255] : List Byte) : List Byte) = true) ∧
    ((w471.ing 7).pic.isSome = true ∨ (byteAt (([20, 0, 1, 44, 0, 1, 0, 1, 0, 0, 0, 0, 0, 9, 0, 0, 1, 2, 255] : List Byte) : List Byte) 0).testBit 3 = true) := by
  refine ⟨?_, ?_, ?_, ?_, ?_, ?_, ?_, ?_, ?_, ?_, ?_, ?_, ?_, ?_, ?_, ?_, ?_, ?_, ?_, ?_, ?_, ?_, ?_, ?_⟩ <;> decide +kernel

/-- States and operands that meet the hypotheses of the clauses of IngressEvents. -/
theorem test_meets_IngressEvents_4 :
    (7 < 8) ∧
    (w470.f F.ING_CTRL_EN 7 = 1) ∧
    (w470.ingMode 7 = 0) ∧
    (w470.f F.ING_STATUS_LINK 7 = 1) ∧
    (w470.fatal = false) ∧
    (w470.portBlind fnIngress 7 = false) ∧
    (4 ≤ (([24, 0, 1, 44, 0, 1, 0, 1, 0, 0, 0, 0, 0, 9, 0, 0, 1, 2, 255, 200, 3, 151, 255] : List Byte) : List Byte).length) ∧
    ((([24, 0, 1, 44, 0, 1, 0, 1, 0, 0, 0, 0, 0, 9, 0, 0, 1, 2, 255, 200, 3, 151, 255] : List Byte) : List Byte).length ≤ 24596) ∧
    ((([24, 0, 1, 44, 0, 1, 0, 1, 0, 0, 0, 0, 0, 9, 0, 0, 1, 2, 255] : List Byte) : List Byte) = (([24, 0, 1, 44, 0, 1, 0, 1, 0, 0, 0, 0, 0, 9, 0, 0, 1, 2, 255, 200, 3, 151, 255] : List Byte) : List Byte).take ((([24, 0, 1, 44, 0, 1, 0, 1, 0, 0, 0, 0, 0, 9, 0, 0, 1, 2, 255, 200, 3, 151, 255] : List Byte) : List Byte).length - 4)) ∧
    (beAt (([24, 0, 1, 44, 0, 1, 0, 1, 0, 0, 0, 0, 0, 9, 0, 0, 1, 2, 255, 200, 3, 151, 255] : List Byte) : List Byte) ((([24, 0, 1, 44, 0, 1, 0, 1, 0, 0, 0, 0, 0, 9, 0, 0, 1, 2, 255, 200, 3, 151, 255] : List Byte) : List Byte).length - 4) 4 = crc32 (([24, 0, 1, 44, 0, 1, 0, 1, 0, 0, 0, 0, 0, 9, 0, 0, 1, 2, 255] : List Byte) : List Byte)) ∧
    (w470.lineFrameOk 7 (([24, 0, 1, 44, 0, 1, 0, 1, 0, 0, 0, 0, 0, 9, 0, 0, 1, 2, 255] : List Byte) : List Byte) = true) ∧
    ((byteAt (([24, 0, 1, 44, 0, 1, 0, 1, 0, 0, 0, 0, 0, 9, 0, 0, 1, 2, 255] : List Byte) : List Byte) 0).testBit 3 = true) ∧
    ((byteAt (([24, 0, 1, 44, 0, 1, 0, 1, 0, 0, 0, 0, 0, 9, 0, 0, 1, 2, 255] : List Byte) : List Byte) 0).testBit 2 = false) ∧
    (w470.codec.ctxs = []) := by
  refine ⟨?_, ?_, ?_, ?_, ?_, ?_, ?_, ?_, ?_, ?_, ?_, ?_, ?_, ?_⟩ <;> decide +kernel

/-- States and operands that meet the hypotheses of the clauses of IngressEvents. -/
theorem test_meets_IngressEvents_5 :
    (7 < 8) ∧
    (w472.f F.ING_CTRL_EN 7 = 1) ∧
    (w472.ingMode 7 = 0) ∧
    (w472.f F.ING_STATUS_LINK 7 = 1) ∧
    (w472.fatal = false) ∧
    (w472.portBlind fnIngress 7 = false) ∧
    (4 ≤ (([24, 0, 1, 44, 0, 1, 0, 1, 0, 0, 0, 0, 0, 9, 0, 0, 1, 2, 255, 200, 3, 151, 255] : List Byte) : List Byte).length) ∧
    ((([24, 0, 1, 44, 0, 1, 0, 1, 0, 0, 0, 0, 0, 9, 0, 0, 1, 2, 255, 200, 3, 151, 255] : List Byte) : List Byte).length ≤ 24596) ∧
    ((([24, 0, 1, 44, 0, 1, 0, 1, 0, 0, 0, 0, 0, 9, 0, 0, 1, 2, 255] : List Byte) : List Byte) = (([24, 0, 1, 44, 0, 1, 0, 1, 0, 0, 0, 0, 0, 9, 0, 0, 1, 2, 255, 200, 3, 151, 255] : List Byte) : List Byte).take ((([24, 0, 1, 44, 0, 1, 0, 1, 0, 0, 0, 0, 0, 9, 0, 0, 1, 2, 255, 200, 3, 151, 255] : List Byte) : List Byte).length - 4)) ∧
    (beAt (([24, 0, 1, 44, 0, 1, 0, 1, 0, 0, 0, 0, 0, 9, 0, 0, 1, 2, 255, 200, 3, 151, 255] : List Byte) : List Byte) ((([24, 0, 1, 44, 0, 1, 0, 1, 0, 0, 0, 0, 0, 9, 0, 0, 1, 2, 255, 200, 3, 151, 255] : List Byte) : List Byte).length - 4) 4 = crc32 (([24, 0, 1, 44, 0, 1, 0, 1, 0, 0, 0, 0, 0, 9, 0, 0, 1, 2, 255] : List Byte) : List Byte)) ∧
    (w472.lineFrameOk 7 (([24, 0, 1, 44, 0, 1, 0, 1, 0, 0, 0, 0, 0, 9, 0, 0, 1, 2, 255] : List Byte) : List Byte) = true) ∧
    ((byteAt (([24, 0, 1, 44, 0, 1, 0, 1, 0, 0, 0, 0, 0, 9, 0, 0, 1, 2, 255] : List Byte) : List Byte) 0).testBit 3 = true) ∧
    ((byteAt (([24, 0, 1, 44, 0, 1, 0, 1, 0, 0, 0, 0, 0, 9, 0, 0, 1, 2, 255] : List Byte) : List Byte) 0).testBit 2 = false) ∧
    (w472.codec.ctxs = []) := by
  refine ⟨?_, ?_, ?_, ?_, ?_, ?_, ?_, ?_, ?_, ?_, ?_, ?_, ?_, ?_⟩ <;> decide +kernel

/-- States and operands that meet the hypotheses of the clauses of IngressEvents. -/
theorem test_meets_IngressEvents_6 :
    (7 < 8) ∧
    (w471.f F.ING_CTRL_EN 7 = 1) ∧
    (w471.ingMode 7 = 0) ∧
    (w471.f F.ING_STATUS_LINK 7 = 1) ∧
    (w471.fatal = false) ∧
    (w471.portBlind fnIngress 7 = false) ∧
    (4 ≤ (([16, 0, 1, 44, 0, 1, 0, 1, 0, 0, 0, 0, 0, 9, 0, 0, 1, 2, 255, 193, 162, 138, 122] : List Byte) : List Byte).length) ∧
    ((([16, 0, 1, 44, 0, 1, 0, 1, 0, 0, 0, 0, 0, 9, 0, 0, 1, 2, 255, 193, 162, 138, 122] : List Byte) : List Byte).length ≤ 24596) ∧
    ((([16, 0, 1, 44, 0, 1, 0, 1, 0, 0, 0, 0, 0, 9, 0, 0, 1, 2, 255] : List Byte) : List Byte) = (([16, 0, 1, 44, 0, 1, 0, 1, 0, 0, 0, 0, 0, 9, 0, 0, 1, 2, 255, 193, 162, 138, 122] : List Byte) : List Byte).take ((([16, 0, 1, 44, 0, 1, 0, 1, 0, 0, 0, 0, 0, 9, 0, 0, 1, 2, 255, 193, 162, 138, 122] : List Byte) : List Byte).length - 4)) ∧
    (beAt (([16, 0, 1, 44, 0, 1, 0, 1, 0, 0, 0, 0, 0, 9, 0, 0, 1, 2, 255, 193, 162, 138, 122] : List Byte) : List Byte) ((([16, 0, 1, 44, 0, 1, 0, 1, 0, 0, 0, 0, 0, 9, 0, 0, 1, 2, 255, 193, 162, 138, 122] : List Byte) : List Byte).length - 4) 4 = crc32 (([16, 0, 1, 44, 0, 1, 0, 1, 0, 0, 0, 0, 0, 9, 0, 0, 1, 2, 255] : List Byte) : List Byte)) ∧
    (w471.lineFrameOk 7 (([16, 0, 1, 44, 0, 1, 0, 1, 0, 0, 0, 0, 0, 9, 0, 0, 1, 2, 255] : List Byte) : List Byte) = true) ∧
    ((byteAt (([16, 0, 1, 44, 0, 1, 0, 1, 0, 0, 0, 0, 0, 9, 0, 0, 1, 2, 255] : List Byte) : List Byte) 0).testBit 3 = false) ∧
    ((byteAt (([16, 0, 1, 44, 0, 1, 0, 1, 0, 0, 0, 0, 0, 9, 0, 0, 1, 2, 255] : List Byte) : List Byte) 0).testBit 2 = false) ∧
    (w471.codec.ctxs = []) ∧
    ((w471.ing 7).pic = some (({ got := [(1, 1)] } : IngPic) : IngPic)) ∧
    (8 = depthOf (byteAt (([16, 0, 1, 44, 0, 1, 0, 1, 0, 0, 0, 0, 0, 9, 0, 0, 1, 2, 255] : List Byte) : List Byte) 1 / 64)) ∧
    (1 = beAt (([16, 0, 1, 44, 0, 1, 0, 1, 0, 0, 0, 0, 0, 9, 0, 0, 1, 2, 255] : List Byte) : List Byte) 4 2) ∧
    (1 = beAt (([16, 0, 1, 44, 0, 1, 0, 1, 0, 0, 0, 0, 0, 9, 0, 0, 1, 2, 255] : List Byte) : List Byte) 6 2) ∧
    (1 = beAt (([16, 0, 1, 44, 0, 1, 0, 1, 0, 0, 0, 0, 0, 9, 0, 0, 1, 2, 255] : List Byte) : List Byte) 8 2 + 1) ∧
    (3 = Tab.get 0 (({ got := [(1, 1)] } : IngPic) : IngPic).got 1 ||| (2 ^ 1 - 1) * 2 ^ 1) := by
  refine ⟨?_, ?_, ?_, ?_, ?_, ?_, ?_, ?_, ?_, ?_, ?_, ?_, ?_, ?_, ?_, ?_, ?_, ?_, ?_, ?_⟩ <;> decide +kernel

/-- States and operands that meet the hypotheses of the clauses of IngressEvents. -/
theorem test_meets_IngressEvents_7 :
    (7 < 8) ∧
    (w473.f F.ING_CTRL_EN 7 = 1) ∧
    (w473.ingMode 7 = 0) ∧
    (w473.f F.ING_STATUS_LINK 7 = 1) ∧
    (w473.fatal = false) ∧
    (w473.portBlind fnIngress 7 = false) ∧
    (4 ≤ (([16, 0, 1, 44, 0, 1, 0, 1, 0, 0, 0, 0, 0, 9, 0, 0, 1, 2, 255, 193, 162, 138, 122] : List Byte) : List Byte).length) ∧
    ((([16, 0, 1, 44, 0, 1, 0, 1, 0, 0, 0, 0, 0, 9, 0, 0, 1, 2, 255, 193, 162, 138, 122] : List Byte) : List Byte).length ≤ 24596) ∧
    ((([16, 0, 1, 44, 0, 1, 0, 1, 0, 0, 0, 0, 0, 9, 0, 0, 1, 2, 255] : List Byte) : List Byte) = (([16, 0, 1, 44, 0, 1, 0, 1, 0, 0, 0, 0, 0, 9, 0, 0, 1, 2, 255, 193, 162, 138, 122] : List Byte) : List Byte).take ((([16, 0, 1, 44, 0, 1, 0, 1, 0, 0, 0, 0, 0, 9, 0, 0, 1, 2, 255, 193, 162, 138, 122] : List Byte) : List Byte).length - 4)) ∧
    (beAt (([16, 0, 1, 44, 0, 1, 0, 1, 0, 0, 0, 0, 0, 9, 0, 0, 1, 2, 255, 193, 162, 138, 122] : List Byte) : List Byte) ((([16, 0, 1, 44, 0, 1, 0, 1, 0, 0, 0, 0, 0, 9, 0, 0, 1, 2, 255, 193, 162, 138, 122] : List Byte) : List Byte).length - 4) 4 = crc32 (([16, 0, 1, 44, 0, 1, 0, 1, 0, 0, 0, 0, 0, 9, 0, 0, 1, 2, 255] : List Byte) : List Byte)) ∧
    (w473.lineFrameOk 7 (([16, 0, 1, 44, 0, 1, 0, 1, 0, 0, 0, 0, 0, 9, 0, 0, 1, 2, 255] : List Byte) : List Byte) = true) ∧
    ((byteAt (([16, 0, 1, 44, 0, 1, 0, 1, 0, 0, 0, 0, 0, 9, 0, 0, 1, 2, 255] : List Byte) : List Byte) 0).testBit 3 = false) ∧
    ((byteAt (([16, 0, 1, 44, 0, 1, 0, 1, 0, 0, 0, 0, 0, 9, 0, 0, 1, 2, 255] : List Byte) : List Byte) 0).testBit 2 = false) ∧
    (w473.codec.ctxs = []) ∧
    ((w473.ing 7).pic = some (({} : IngPic) : IngPic)) ∧
    (8 = depthOf (byteAt (([16, 0, 1, 44, 0, 1, 0, 1, 0, 0, 0, 0, 0, 9, 0, 0, 1, 2, 255] : List Byte) : List Byte) 1 / 64)) ∧
    (1 = beAt (([16, 0, 1, 44, 0, 1, 0, 1, 0, 0, 0, 0, 0, 9, 0, 0, 1, 2, 255] : List Byte) : List Byte) 4 2) ∧
    (1 = beAt (([16, 0, 1, 44, 0, 1, 0, 1, 0, 0, 0, 0, 0, 9, 0, 0, 1, 2, 255] : List Byte) : List Byte) 6 2) ∧
    (1 = beAt (([16, 0, 1, 44, 0, 1, 0, 1, 0, 0, 0, 0, 0, 9, 0, 0, 1, 2, 255] : List Byte) : List Byte) 8 2 + 1) ∧
    (2 = Tab.get 0 (({} : IngPic) : IngPic).got 1 ||| (2 ^ 1 - 1) * 2 ^ 1) ∧
    (7 < 8) ∧
    ((w2.ing 7).closing = false) ∧
    (7 < 8) ∧
    ((w474.ing 7).closing = true) := by
  refine ⟨?_, ?_, ?_, ?_, ?_, ?_, ?_, ?_, ?_, ?_, ?_, ?_, ?_, ?_, ?_, ?_, ?_, ?_, ?_, ?_, ?_, ?_, ?_, ?_⟩ <;> decide +kernel

/-- States and operands that meet the hypotheses of the clauses of IngressEvents. -/
theorem test_meets_IngressEvents_8 :
    (7 < 8) ∧
    ((w475.ing 7).closing = true) ∧
    (7 < 8) ∧
    (w2.portBlind fnIngress 7 = true ∨ w2.f F.ING_STATUS_LINK 7 ≠ 1) ∧
    (7 < 8) ∧
    (w468.portBlind fnIngress 7 = false) ∧
    (w468.f F.ING_STATUS_LINK 7 = 1) ∧
    (7 < 8) ∧
    (w476.portBlind fnIngress 7 = false) ∧
    (w476.f F.ING_STATUS_LINK 7 = 1) ∧
    (7 < 8) ∧
    (w477.f F.ING_CTRL_EN 7 = 1) ∧
    (w477.ingMode 7 = 0) ∧
    (w477.ingLanesOk 7 = true) ∧
    (w477.lanesSynced fnIngress 7 = true) ∧
    (7 < 8) ∧
    (w2.f F.ING_CTRL_EN 7 ≠ 1 ∨ w2.ingMode 7 ≠ 0 ∨ w2.ingLanesOk 7 = false ∨ w2.lanesSynced fnIngress 7 = false) := by
  refine ⟨?_, ?_, ?_, ?_, ?_, ?_, ?_, ?_, ?_, ?_, ?_, ?_, ?_, ?_, ?_, ?_, ?_⟩ <;> decide +kernel

/-- States and operands that meet the hypotheses of the clauses of MemoryEvents. -/
theorem test_meets_MemoryEvents :
    (3 < 4) ∧
    ((w478.chanOpen 3 = false ∧ w478 = w478) ∨ (w478.chanOpen 3 = true ∧ w478 = w478.catchUp 3 ∧ w478.pickRequester 3 = none)) ∧
    (3 < 4) ∧
    ((w479.chanOpen 3 = false ∧ w480 = w479) ∨ (w479.chanOpen 3 = true ∧ w480 = w479.catchUp 3 ∧ w480.pickRequester 3 = none)) ∧
    (3 < 4) ∧
    (w481.chanOpen 3 = true) ∧
    (w482 = w481.catchUp 3) ∧
    (w482.pickRequester 3 = some 11) ∧
    ((w482.mchan 3).waiting.find? (fun y => decide (y.req = 11)) = some (({ req := 11, line := 4099 } : Xfer) : Xfer)) ∧
    (w482.permitted 11 (64 * (({ req := 11, line := 4099 } : Xfer) : Xfer).line) (({ req := 11, line := 4099 } : Xfer) : Xfer).write (({ req := 11, line := 4099 } : Xfer) : Xfer).secure = true) ∧
    (3 < 4) ∧
    (w483.chanOpen 3 = true) ∧
    (w484 = w483.catchUp 3) ∧
    (w484.pickRequester 3 = some 0) ∧
    ((w484.mchan 3).waiting.find? (fun y => decide (y.req = 0)) = some (({ req := 0, line := 3, wait := 65536 } : Xfer) : Xfer)) ∧
    (w484.permitted 0 (64 * (({ req := 0, line := 3, wait := 65536 } : Xfer) : Xfer).line) (({ req := 0, line := 3, wait := 65536 } : Xfer) : Xfer).write (({ req := 0, line := 3, wait := 65536 } : Xfer) : Xfer).secure = true) ∧
    (3 < 4) ∧
    (w485.chanOpen 3 = true) ∧
    (w486 = w485.catchUp 3) ∧
    (w486.pickRequester 3 = some 9) ∧
    ((w486.mchan 3).waiting.find? (fun y => decide (y.req = 9)) = some (({ req := 9, line := 4099, write := true, secure := true } : Xfer) : Xfer)) ∧
    (w486.permitted 9 (64 * (({ req := 9, line := 4099, write := true, secure := true } : Xfer) : Xfer).line) (({ req := 9, line := 4099, write := true, secure := true } : Xfer) : Xfer).write (({ req := 9, line := 4099, write := true, secure := true } : Xfer) : Xfer).secure = false) ∧
    (3 < 4) ∧
    (w479.ddrState 3 ≠ ddrReady ∨ (w479.mchan 3).granted = []) := by
  refine ⟨?_, ?_, ?_, ?_, ?_, ?_, ?_, ?_, ?_, ?_, ?_, ?_, ?_, ?_, ?_, ?_, ?_, ?_, ?_, ?_, ?_, ?_, ?_, ?_⟩ <;> decide +kernel

/-- States and operands that meet the hypotheses of the clauses of MemoryEvents. -/
theorem test_meets_MemoryEvents_2 :
    (3 < 4) ∧
    (w487.ddrState 3 ≠ ddrReady ∨ (w487.mchan 3).granted = []) ∧
    (3 < 4) ∧
    (w2.ddrState 3 ≠ ddrReady ∨ (w2.mchan 3).postponed = 0 ∨ ((w2.mchan 3).granted ≠ [] ∧ (w2.mchan 3).postponed ≤ min 4 (w2.f F.DDR_REFRESH_POSTPONE 3))) ∧
    (3 < 4) ∧
    (w488.ddrState 3 ≠ ddrReady ∨ (w488.mchan 3).postponed = 0 ∨ ((w488.mchan 3).granted ≠ [] ∧ (w488.mchan 3).postponed ≤ min 4 (w488.f F.DDR_REFRESH_POSTPONE 3))) ∧
    (3 < 4) ∧
    (w479.ddrState 3 ≠ ddrReady ∨ (w479.mchan 3).postponed = 0 ∨ ((w479.mchan 3).granted ≠ [] ∧ (w479.mchan 3).postponed ≤ min 4 (w479.f F.DDR_REFRESH_POSTPONE 3))) ∧
    (3 < 4) ∧
    (w490 = w489.catchUp 3) ∧
    (w489.ddrState 3 = ddrReady) ∧
    (w490.serveSub 3 = some (((((put [(F.DDR_STATUS_STATE, 3, 2), (F.DDR_CTRL_EN, 3, 1)]).withMem (fun w => { w with chans := [(3, { granted := [{ req := 9, line := 4099, write := true, secure := true }], batch := [(0, 3), (1, 3)] })], poison := [4099, 5] })).catchUp 3).serveSub 3).getD 2)) ∧
    (w490.serveNext 3 (((((put [(F.DDR_STATUS_STATE, 3, 2), (F.DDR_CTRL_EN, 3, 1)]).withMem (fun w => { w with chans := [(3, { granted := [{ req := 9, line := 4099, write := true, secure := true }], batch := [(0, 3), (1, 3)] })], poison := [4099, 5] })).catchUp 3).serveSub 3).getD 2) = some ((({ req := 9, line := 4099, write := true, secure := true } : Xfer) : Xfer), ((((((put [(F.DDR_STATUS_STATE, 3, 2), (F.DDR_CTRL_EN, 3, 1)]).withMem (fun w => { w with chans := [(3, { granted := [{ req := 9, line := 4099, write := true, secure := true }], batch := [(0, 3), (1, 3)] })], poison := [4099, 5] })).catchUp 3).serveNext 3 (((((put [(F.DDR_STATUS_STATE, 3, 2), (F.DDR_CTRL_EN, 3, 1)]).withMem (fun w => { w with chans := [(3, { granted := [{ req := 9, line := 4099, write := true, secure := true }], batch := [(0, 3), (1, 3)] })], poison := [4099, 5] })).catchUp 3).serveSub 3).getD 2)).getD ({}, 0)).2))) ∧
    ((({ req := 9, line := 4099, write := true, secure := true } : Xfer) : Xfer).write = true) ∧
    (3 < 4) ∧
    (w492 = w491.catchUp 3) ∧
    (w491.ddrState 3 = ddrReady) ∧
    (w492.serveSub 3 = some (((((put [(F.DDR_STATUS_STATE, 3, 2), (F.DDR_CTRL_EN, 3, 1)]).withMem (fun w => { w with chans := [(3, { granted := [{ req := 9, line := 4099, write := true, secure := true }] })] })).catchUp 3).serveSub 3).getD 2)) ∧
    (w492.serveNext 3 (((((put [(F.DDR_STATUS_STATE, 3, 2), (F.DDR_CTRL_EN, 3, 1)]).withMem (fun w => { w with chans := [(3, { granted := [{ req := 9, line := 4099, write := true, secure := true }] })] })).catchUp 3).serveSub 3).getD 2) = some ((({ req := 9, line := 4099, write := true, secure := true } : Xfer) : Xfer), ((((((put [(F.DDR_STATUS_STATE, 3, 2), (F.DDR_CTRL_EN, 3, 1)]).withMem (fun w => { w with chans := [(3, { granted := [{ req := 9, line := 4099, write := true, secure := true }] })] })).catchUp 3).serveNext 3 (((((put [(F.DDR_STATUS_STATE, 3, 2), (F.DDR_CTRL_EN, 3, 1)]).withMem (fun w => { w with chans := [(3, { granted := [{ req := 9, line := 4099, write := true, secure := true }] })] })).catchUp 3).serveSub 3).getD 2)).getD ({}, 0)).2))) ∧
    ((({ req := 9, line := 4099, write := true, secure := true } : Xfer) : Xfer).write = true) := by
  refine ⟨?_, ?_, ?_, ?_, ?_, ?_, ?_, ?_, ?_, ?_, ?_, ?_, ?_, ?_, ?_, ?_, ?_, ?_, ?_, ?_⟩ <;> decide +kernel

/-- States and operands that meet the hypotheses of the clauses of MemoryEvents. -/
theorem test_meets_MemoryEvents_3 :
    (3 < 4) ∧
    (w494 = w493.catchUp 3) ∧
    (w493.ddrState 3 = ddrReady) ∧
    (w494.serveSub 3 = some (((((put [(F.DDR_STATUS_STATE, 3, 2), (F.DDR_CTRL_EN, 3, 1)]).withMem (fun w => { w with chans := [(3, { granted := [{ req := 0, line := 4099 }, { req := 9, line := 4099, write := true }] })], poison := [4099] })).catchUp 3).serveSub 3).getD 2)) ∧
    (w494.serveNext 3 (((((put [(F.DDR_STATUS_STATE, 3, 2), (F.DDR_CTRL_EN, 3, 1)]).withMem (fun w => { w with chans := [(3, { granted := [{ req := 0, line := 4099 }, { req := 9, line := 4099, write := true }] })], poison := [4099] })).catchUp 3).serveSub 3).getD 2) = some (({ req := 0, line := 4099 } : Xfer), ((((((put [(F.DDR_STATUS_STATE, 3, 2), (F.DDR_CTRL_EN, 3, 1)]).withMem (fun w => { w with chans := [(3, { granted := [{ req := 0, line := 4099 }, { req := 9, line := 4099, write := true }] })], poison := [4099] })).catchUp 3).serveNext 3 (((((put [(F.DDR_STATUS_STATE, 3, 2), (F.DDR_CTRL_EN, 3, 1)]).withMem (fun w => { w with chans := [(3, { granted := [{ req := 0, line := 4099 }, { req := 9, line := 4099, write := true }] })], poison := [4099] })).catchUp 3).serveSub 3).getD 2)).getD ({}, 0)).2))) ∧
    (({ req := 0, line := 4099 } : Xfer).write = false) ∧
    (w494.writeQueued 3 ({ req := 0, line := 4099 } : Xfer).line = true) ∧
    (3 < 4) ∧
    (w496 = w495.catchUp 3) ∧
    (w495.ddrState 3 = ddrReady) ∧
    (w496.serveSub 3 = some (((((put [(F.DDR_STATUS_STATE, 3, 2), (F.DDR_CTRL_EN, 3, 1)]).withMem (fun w => { w with chans := [(3, { granted := [{ req := 11, line := 4099 }] })] })).catchUp 3).serveSub 3).getD 2)) ∧
    (w496.serveNext 3 (((((put [(F.DDR_STATUS_STATE, 3, 2), (F.DDR_CTRL_EN, 3, 1)]).withMem (fun w => { w with chans := [(3, { granted := [{ req := 11, line := 4099 }] })] })).catchUp 3).serveSub 3).getD 2) = some ((({ req := 11, line := 4099 } : Xfer) : Xfer), ((((((put [(F.DDR_STATUS_STATE, 3, 2), (F.DDR_CTRL_EN, 3, 1)]).withMem (fun w => { w with chans := [(3, { granted := [{ req := 11, line := 4099 }] })] })).catchUp 3).serveNext 3 (((((put [(F.DDR_STATUS_STATE, 3, 2), (F.DDR_CTRL_EN, 3, 1)]).withMem (fun w => { w with chans := [(3, { granted := [{ req := 11, line := 4099 }] })] })).catchUp 3).serveSub 3).getD 2)).getD ({}, 0)).2))) ∧
    ((({ req := 11, line := 4099 } : Xfer) : Xfer).write = false) ∧
    (w496.writeQueued 3 (({ req := 11, line := 4099 } : Xfer) : Xfer).line = false) ∧
    ((EccResult.clean : EccResult) = .clean ∨ (({ req := 11, line := 4099 } : Xfer) : Xfer).line ∈ w495.mem.poison) ∧
    (3 < 4) ∧
    (w498 = w497.catchUp 3) ∧
    (w497.ddrState 3 = ddrReady) ∧
    (w498.serveSub 3 = some (((((put [(F.DDR_STATUS_STATE, 3, 2), (F.DDR_CTRL_EN, 3, 1)]).withMem (fun w => { w with chans := [(3, { granted := [{ req := 0, line := 3, wait := 65536 }] })], poison := [3] })).catchUp 3).serveSub 3).getD 2)) ∧
    (w498.serveNext 3 (((((put [(F.DDR_STATUS_STATE, 3, 2), (F.DDR_CTRL_EN, 3, 1)]).withMem (fun w => { w with chans := [(3, { granted := [{ req := 0, line := 3, wait := 65536 }] })], poison := [3] })).catchUp 3).serveSub 3).getD 2) = some ((({ req := 0, line := 3, wait := 65536 } : Xfer) : Xfer), ((((((put [(F.DDR_STATUS_STATE, 3, 2), (F.DDR_CTRL_EN, 3, 1)]).withMem (fun w => { w with chans := [(3, { granted := [{ req := 0, line := 3, wait := 65536 }] })], poison := [3] })).catchUp 3).serveNext 3 (((((put [(F.DDR_STATUS_STATE, 3, 2), (F.DDR_CTRL_EN, 3, 1)]).withMem (fun w => { w with chans := [(3, { granted := [{ req := 0, line := 3, wait := 65536 }] })], poison := [3] })).catchUp 3).serveSub 3).getD 2)).getD ({}, 0)).2))) ∧
    ((({ req := 0, line := 3, wait := 65536 } : Xfer) : Xfer).write = false) ∧
    (w498.writeQueued 3 (({ req := 0, line := 3, wait := 65536 } : Xfer) : Xfer).line = false) ∧
    (((EccResult.uncorrectable 3) : EccResult) = .clean ∨ (({ req := 0, line := 3, wait := 65536 } : Xfer) : Xfer).line ∈ w497.mem.poison) := by
  refine ⟨?_, ?_, ?_, ?_, ?_, ?_, ?_, ?_, ?_, ?_, ?_, ?_, ?_, ?_, ?_, ?_, ?_, ?_, ?_, ?_, ?_, ?_, ?_⟩ <;> decide +kernel

/-- States and operands that meet the hypotheses of the clauses of MemoryEvents. -/
theorem test_meets_MemoryEvents_4 :
    (3 < 4) ∧
    (w496 = w495.catchUp 3) ∧
    (w495.ddrState 3 = ddrReady) ∧
    (w496.serveSub 3 = some (((((put [(F.DDR_STATUS_STATE, 3, 2), (F.DDR_CTRL_EN, 3, 1)]).withMem (fun w => { w with chans := [(3, { granted := [{ req := 11, line := 4099 }] })] })).catchUp 3).serveSub 3).getD 2)) ∧
    (w496.serveNext 3 (((((put [(F.DDR_STATUS_STATE, 3, 2), (F.DDR_CTRL_EN, 3, 1)]).withMem (fun w => { w with chans := [(3, { granted := [{ req := 11, line := 4099 }] })] })).catchUp 3).serveSub 3).getD 2) = some ((({ req := 11, line := 4099 } : Xfer) : Xfer), ((((((put [(F.DDR_STATUS_STATE, 3, 2), (F.DDR_CTRL_EN, 3, 1)]).withMem (fun w => { w with chans := [(3, { granted := [{ req := 11, line := 4099 }] })] })).catchUp 3).serveNext 3 (((((put [(F.DDR_STATUS_STATE, 3, 2), (F.DDR_CTRL_EN, 3, 1)]).withMem (fun w => { w with chans := [(3, { granted := [{ req := 11, line := 4099 }] })] })).catchUp 3).serveSub 3).getD 2)).getD ({}, 0)).2))) ∧
    ((({ req := 11, line := 4099 } : Xfer) : Xfer).write = false) ∧
    (w496.writeQueued 3 (({ req := 11, line := 4099 } : Xfer) : Xfer).line = false) ∧
    ((({ req := 11, line := 4099 } : Xfer) : Xfer).line ∉ w495.mem.poison) ∧
    (3 < 4) ∧
    (w500 = w499.catchUp 3) ∧
    (w499.ddrState 3 = ddrReady) ∧
    (w500.serveSub 3 = some (((((put [(F.DDR_STATUS_STATE, 3, 2), (F.DDR_CTRL_EN, 3, 1), (F.DDR_LOG_STATUS_LOG_CE, 0, 0), (F.FLT_SRC_CFG_CLASS, 17, 2)]).withMem (fun w => { w with chans := [(3, { granted := [{ req := 11, line := 4099 }] })] })).catchUp 3).serveSub 3).getD 2)) ∧
    (w500.serveNext 3 (((((put [(F.DDR_STATUS_STATE, 3, 2), (F.DDR_CTRL_EN, 3, 1), (F.DDR_LOG_STATUS_LOG_CE, 0, 0), (F.FLT_SRC_CFG_CLASS, 17, 2)]).withMem (fun w => { w with chans := [(3, { granted := [{ req := 11, line := 4099 }] })] })).catchUp 3).serveSub 3).getD 2) = some ((({ req := 11, line := 4099 } : Xfer) : Xfer), ((((((put [(F.DDR_STATUS_STATE, 3, 2), (F.DDR_CTRL_EN, 3, 1), (F.DDR_LOG_STATUS_LOG_CE, 0, 0), (F.FLT_SRC_CFG_CLASS, 17, 2)]).withMem (fun w => { w with chans := [(3, { granted := [{ req := 11, line := 4099 }] })] })).catchUp 3).serveNext 3 (((((put [(F.DDR_STATUS_STATE, 3, 2), (F.DDR_CTRL_EN, 3, 1), (F.DDR_LOG_STATUS_LOG_CE, 0, 0), (F.FLT_SRC_CFG_CLASS, 17, 2)]).withMem (fun w => { w with chans := [(3, { granted := [{ req := 11, line := 4099 }] })] })).catchUp 3).serveSub 3).getD 2)).getD ({}, 0)).2))) ∧
    ((({ req := 11, line := 4099 } : Xfer) : Xfer).write = false) ∧
    (w500.writeQueued 3 (({ req := 11, line := 4099 } : Xfer) : Xfer).line = false) ∧
    ((({ req := 11, line := 4099 } : Xfer) : Xfer).line ∉ w499.mem.poison) ∧
    (3 < 4) ∧
    (w496 = w495.catchUp 3) ∧
    (w495.ddrState 3 = ddrReady) ∧
    (w496.serveSub 3 = some (((((put [(F.DDR_STATUS_STATE, 3, 2), (F.DDR_CTRL_EN, 3, 1)]).withMem (fun w => { w with chans := [(3, { granted := [{ req := 11, line := 4099 }] })] })).catchUp 3).serveSub 3).getD 2)) ∧
    (w496.serveNext 3 (((((put [(F.DDR_STATUS_STATE, 3, 2), (F.DDR_CTRL_EN, 3, 1)]).withMem (fun w => { w with chans := [(3, { granted := [{ req := 11, line := 4099 }] })] })).catchUp 3).serveSub 3).getD 2) = some ((({ req := 11, line := 4099 } : Xfer) : Xfer), ((((((put [(F.DDR_STATUS_STATE, 3, 2), (F.DDR_CTRL_EN, 3, 1)]).withMem (fun w => { w with chans := [(3, { granted := [{ req := 11, line := 4099 }] })] })).catchUp 3).serveNext 3 (((((put [(F.DDR_STATUS_STATE, 3, 2), (F.DDR_CTRL_EN, 3, 1)]).withMem (fun w => { w with chans := [(3, { granted := [{ req := 11, line := 4099 }] })] })).catchUp 3).serveSub 3).getD 2)).getD ({}, 0)).2))) ∧
    ((({ req := 11, line := 4099 } : Xfer) : Xfer).write = false) ∧
    (w496.writeQueued 3 (({ req := 11, line := 4099 } : Xfer) : Xfer).line = false) ∧
    ((({ req := 11, line := 4099 } : Xfer) : Xfer).line ∉ w495.mem.poison) := by
  refine ⟨?_, ?_, ?_, ?_, ?_, ?_, ?_, ?_, ?_, ?_, ?_, ?_, ?_, ?_, ?_, ?_, ?_, ?_, ?_, ?_, ?_, ?_, ?_, ?_⟩ <;> decide +kernel

/-- States and operands that meet the hypotheses of the clauses of MemoryEvents. -/
theorem test_meets_MemoryEvents_5 :
    (3 < 4) ∧
    (w502 = w501.catchUp 3) ∧
    (w501.ddrState 3 = ddrReady) ∧
    (w502.serveSub 3 = some (((((put [(F.DDR_STATUS_STATE, 3, 2), (F.DDR_CTRL_EN, 3, 1)]).withMem (fun w => { w with chans := [(3, { granted := [{ req := 11, line := 4099 }] })], log := List.replicate 64 [] })).catchUp 3).serveSub 3).getD 2)) ∧
    (w502.serveNext 3 (((((put [(F.DDR_STATUS_STATE, 3, 2), (F.DDR_CTRL_EN, 3, 1)]).withMem (fun w => { w with chans := [(3, { granted := [{ req := 11, line := 4099 }] })], log := List.replicate 64 [] })).catchUp 3).serveSub 3).getD 2) = some ((({ req := 11, line := 4099 } : Xfer) : Xfer), ((((((put [(F.DDR_STATUS_STATE, 3, 2), (F.DDR_CTRL_EN, 3, 1)]).withMem (fun w => { w with chans := [(3, { granted := [{ req := 11, line := 4099 }] })], log := List.replicate 64 [] })).catchUp 3).serveNext 3 (((((put [(F.DDR_STATUS_STATE, 3, 2), (F.DDR_CTRL_EN, 3, 1)]).withMem (fun w => { w with chans := [(3, { granted := [{ req := 11, line := 4099 }] })], log := List.replicate 64 [] })).catchUp 3).serveSub 3).getD 2)).getD ({}, 0)).2))) ∧
    ((({ req := 11, line := 4099 } : Xfer) : Xfer).write = false) ∧
    (w502.writeQueued 3 (({ req := 11, line := 4099 } : Xfer) : Xfer).line = false) ∧
    ((({ req := 11, line := 4099 } : Xfer) : Xfer).line ∉ w501.mem.poison) ∧
    (3 < 4) ∧
    ((w2.mchan 3).granted = []) ∧
    (3 < 4) ∧
    ((w503.mchan 3).granted = (({ req := 11, line := 4099 } : Xfer) : Xfer) :: (([{ req := 9, line := 4099, write := true, secure := true }] : List Xfer) : List Xfer)) ∧
    (3 < 4) ∧
    ((w504.mchan 3).granted = (({ req := 9, line := 4099, write := true, secure := true } : Xfer) : Xfer) :: (([] : List Xfer) : List Xfer)) ∧
    (3 < 4) ∧
    (w2.ddrState 3 ≠ ddrReady) ∧
    (w2.ddrState 3 ≠ ddrRetraining) ∧
    (3 < 4) ∧
    (w505.ddrState 3 = ddrRetraining ∨ (w505.ddrState 3 = ddrReady ∧ (w505.mchan 3).granted ≠ [] ∧ (w505.mchan 3).postponed < min 4 (w505.f F.DDR_REFRESH_POSTPONE 3))) ∧
    (3 < 4) ∧
    (w506.ddrState 3 = ddrRetraining ∨ (w506.ddrState 3 = ddrReady ∧ (w506.mchan 3).granted ≠ [] ∧ (w506.mchan 3).postponed < min 4 (w506.f F.DDR_REFRESH_POSTPONE 3))) := by
  refine ⟨?_, ?_, ?_, ?_, ?_, ?_, ?_, ?_, ?_, ?_, ?_, ?_, ?_, ?_, ?_, ?_, ?_, ?_, ?_, ?_, ?_⟩ <;> decide +kernel

/-- States and operands that meet the hypotheses of the clauses of MemoryEvents. -/
theorem test_meets_MemoryEvents_6 :
    (3 < 4) ∧
    (w507.ddrState 3 = ddrReady) ∧
    ((w507.mchan 3).granted = [] ∨ min 4 (w507.f F.DDR_REFRESH_POSTPONE 3) ≤ (w507.mchan 3).postponed) ∧
    (w507.f F.DDR_REFRESH_MODE 3 = 0) ∧
    (3 < 4) ∧
    (w508.ddrState 3 = ddrReady) ∧
    ((w508.mchan 3).granted = [] ∨ min 4 (w508.f F.DDR_REFRESH_POSTPONE 3) ≤ (w508.mchan 3).postponed) ∧
    (w508.f F.DDR_REFRESH_MODE 3 = 0) ∧
    (3 < 4) ∧
    (w509.ddrState 3 = ddrReady) ∧
    ((w509.mchan 3).granted = [] ∨ min 4 (w509.f F.DDR_REFRESH_POSTPONE 3) ≤ (w509.mchan 3).postponed) ∧
    (w509.f F.DDR_REFRESH_MODE 3 ≠ 0) ∧
    (3 < 4) ∧
    ((w510.mchan 3).granted.any (fun x => decide (w510.bankNo (64 * x.line) = 0) && w510.rowHit 3 x) = true) ∧
    (3 < 4) ∧
    ((w511.mchan 3).granted.any (fun x => decide (w511.bankNo (64 * x.line) = 63) && w511.rowHit 3 x) = false) ∧
    (3 < 4) ∧
    (w479.ddrState 3 = ddrReady ∨ w479.ddrState 3 = ddrRetraining) ∧
    (3 < 4) ∧
    (w505.ddrState 3 = ddrReady ∨ w505.ddrState 3 = ddrRetraining) ∧
    (3 < 4) ∧
    (w2.ddrState 3 ≠ ddrReady) ∧
    (w2.ddrState 3 ≠ ddrRetraining) := by
  refine ⟨?_, ?_, ?_, ?_, ?_, ?_, ?_, ?_, ?_, ?_, ?_, ?_, ?_, ?_, ?_, ?_, ?_, ?_, ?_, ?_, ?_, ?_, ?_⟩ <;> decide +kernel

/-- States and operands that meet the hypotheses of the clauses of MemoryEvents. -/
theorem test_meets_MemoryEvents_7 :
    (3 < 4) ∧
    (w2.chanOpen 3 = false ∨ w2.f F.DDR_CTRL_SCRUB_EN 3 ≠ 1) ∧
    (3 < 4) ∧
    (w512.chanOpen 3 = true) ∧
    (w512.f F.DDR_CTRL_SCRUB_EN 3 = 1) ∧
    (1073741820 = w512.channelLine 3 (w512.mchan 3).scrubAt) ∧
    (w512.writeQueued 3 1073741820 = true ∨ w512.readQueued 3 1073741820 = true ∨ (w512.permitted 10 (64 * 1073741820) false true = true ∧ ((EccResult.clean : EccResult) = .clean ∨ 1073741820 ∈ w512.mem.poison))) ∧
    (3 < 4) ∧
    (w513.chanOpen 3 = true) ∧
    (w513.f F.DDR_CTRL_SCRUB_EN 3 = 1) ∧
    (3 = w513.channelLine 3 (w513.mchan 3).scrubAt) ∧
    (w513.writeQueued 3 3 = false) ∧
    (w513.readQueued 3 3 = false) ∧
    (w513.permitted 10 (64 * 3) false true = false) ∧
    (3 < 4) ∧
    (w514.chanOpen 3 = true) ∧
    (w514.f F.DDR_CTRL_SCRUB_EN 3 = 1) ∧
    (3 = w514.channelLine 3 (w514.mchan 3).scrubAt) ∧
    (3 ∉ w514.mem.poison) ∧
    (w514.writeQueued 3 3 = false) ∧
    (w514.readQueued 3 3 = false) ∧
    (w514.permitted 10 (64 * 3) false true = true) := by
  refine ⟨?_, ?_, ?_, ?_, ?_, ?_, ?_, ?_, ?_, ?_, ?_, ?_, ?_, ?_, ?_, ?_, ?_, ?_, ?_, ?_, ?_, ?_⟩ <;> decide +kernel

/-- States and operands that meet the hypotheses of the clauses of MemoryEvents. -/
theorem test_meets_MemoryEvents_8 :
    (3 < 4) ∧
    (w479.chanOpen 3 = true) ∧
    (w479.f F.DDR_CTRL_SCRUB_EN 3 = 1) ∧
    (3 = w479.channelLine 3 (w479.mchan 3).scrubAt) ∧
    (3 ∉ w479.mem.poison) ∧
    (w479.writeQueued 3 3 = false) ∧
    (w479.readQueued 3 3 = false) ∧
    (w479.permitted 10 (64 * 3) false true = true) ∧
    (3 < 4) ∧
    (1 < 2) ∧
    ((Tab.get [] (w2.mchan 3).replay 1).length ≤ 0) ∧
    (3 < 4) ∧
    (1 < 2) ∧
    ((Tab.get [] (w515.mchan 3).replay 1)[1]? = some ({ line := 10, req := 4, replays := 2 } : Replay)) ∧
    (({ line := 10, req := 4, replays := 2 } : Replay).replays < 3) ∧
    (3 < 4) ∧
    (1 < 2) ∧
    ((Tab.get [] (w516.mchan 3).replay 1)[1]? = some ({ line := 10, req := 4, replays := 3 } : Replay)) ∧
    (3 ≤ ({ line := 10, req := 4, replays := 3 } : Replay).replays) ∧
    (3 < 4) ∧
    (1 < 2) ∧
    ((Tab.get [] (w517.mchan 3).replay 1)[1]? = some ({ line := 10, req := 4, replays := 3 } : Replay)) ∧
    (3 ≤ ({ line := 10, req := 4, replays := 3 } : Replay).replays) := by
  refine ⟨?_, ?_, ?_, ?_, ?_, ?_, ?_, ?_, ?_, ?_, ?_, ?_, ?_, ?_, ?_, ?_, ?_, ?_, ?_, ?_, ?_, ?_, ?_⟩ <;> decide +kernel

/-- States and operands that meet the hypotheses of the clauses of MemoryEvents. -/
theorem test_meets_MemoryEvents_9 :
    (w518.writeOk (Origin.cpN : Origin) .DDR_LOG_STATUS 0 = true) ∧
    ((0x80000000 : Word).toNat / 2 ^ 31 = 1) ∧
    (w519.writeOk (Origin.cpN : Origin) .DDR_LOG_STATUS 0 = true) ∧
    ((0x7FFFFFFF : Word).toNat / 2 ^ 31 = 0) ∧
    (3 < 4) ∧
    (w2.writeOk (Origin.cpS : Origin) .DDR_CONFIG 3 = true) ∧
    (w2.f F.DDR_CONFIG_LOCK 3 = 0) ∧
    (3 < 4) ∧
    (w2.writeOk (Origin.cpS : Origin) .DDR_CONFIG 3 = true) ∧
    (w2.f F.DDR_CONFIG_LOCK 3 = 0) ∧
    (3 < 4) ∧
    (w520.writeOk (Origin.cpS : Origin) .DDR_CONFIG 3 = true) ∧
    (w520.f F.DDR_CONFIG_LOCK 3 = 1) := by
  refine ⟨?_, ?_, ?_, ?_, ?_, ?_, ?_, ?_, ?_, ?_, ?_, ?_, ?_⟩ <;> decide +kernel

/-- States and operands that meet the hypotheses of the clauses of TrainingEvents. -/
theorem test_meets_TrainingEvents :
    (3 < 4) ∧
    (w521.ddrState 3 = ddrReady) ∧
    (w521.stage = 4) ∧
    (w521.pwr.cpHalted = false) ∧
    (max 1 (w521.f F.DDR_DRIFT_DRIFT_MAX 3) < 5) ∧
    (3 < 4) ∧
    (w521.ddrState 3 ≠ ddrReady ∨ w521.stage ≠ 4 ∨ w521.pwr.cpHalted = true ∨ 4 ≤ max 1 (w521.f F.DDR_DRIFT_DRIFT_MAX 3)) ∧
    (3 < 4) ∧
    (w479.ddrState 3 ≠ ddrReady ∨ w479.stage ≠ 4 ∨ w479.pwr.cpHalted = true ∨ 9 ≤ max 1 (w479.f F.DDR_DRIFT_DRIFT_MAX 3)) ∧
    (3 < 4) ∧
    ((w522.mchan 3).retrainDue = true) ∧
    (w522.ddrState 3 = ddrReady) ∧
    (w522.mayPause = true) ∧
    (w522.inHandover = false) ∧
    (3 < 4) ∧
    ((w523.mchan 3).retrainDue = true) ∧
    (w523.ddrState 3 = ddrReady) ∧
    (w523.mayPause = true) ∧
    (w523.inHandover = false) ∧
    (3 < 4) ∧
    ((w2.mchan 3).retrainDue = false ∨ w2.ddrState 3 ≠ ddrReady ∨ w2.mayPause = false ∨ w2.inHandover = true) ∧
    (3 < 4) ∧
    ((w524.mchan 3).retrainDue = false ∨ w524.ddrState 3 ≠ ddrReady ∨ w524.mayPause = false ∨ w524.inHandover = true) := by
  refine ⟨?_, ?_, ?_, ?_, ?_, ?_, ?_, ?_, ?_, ?_, ?_, ?_, ?_, ?_, ?_, ?_, ?_, ?_, ?_, ?_, ?_, ?_, ?_⟩ <;> decide +kernel

/-- States and operands that meet the hypotheses of the clauses of TrainingEvents. -/
theorem test_meets_TrainingEvents_2 :
    (3 < 4) ∧
    (w2.ddrState 3 ≠ ddrRetraining) ∧
    (3 < 4) ∧
    (w525.ddrState 3 = ddrRetraining) ∧
    ((∀ k ∈ w525.laneSlots 3, w525.laneResult 3 true (((List.range 10).map (fun l => ({ rank := 0, lane := l, rd := (List.range 28).drop 20, wr := (List.range 128).drop 120 } : LaneSweep))) : List LaneSweep) k ≠ none)) ∧
    (3 < 4) ∧
    (w525.ddrState 3 = ddrRetraining) ∧
    (9 ∈ w525.laneSlots 3) ∧
    (w525.laneResult 3 true (((List.range 9).map (fun l => ({ rank := 0, lane := l, rd := (List.range 28).drop 20, wr := (List.range 128).drop 120 } : LaneSweep))) : List LaneSweep) 9 = none) ∧
    (3 < 4) ∧
    (w522.writeOk (Origin.cpN : Origin) .DDR_TRAIN 3 = true) ∧
    ((0xFFFFFFFF : Word).toNat / 2 ^ 31 = 1) ∧
    (w522.ddrState 3 = ddrReady) ∧
    (3 < 4) ∧
    (w526.writeOk (Origin.cpN : Origin) .DDR_TRAIN 3 = true) ∧
    ((0x80000008 : Word).toNat / 2 ^ 31 = 1) ∧
    (w526.ddrState 3 = ddrSelfRefresh) ∧
    (3 < 4) ∧
    (w479.writeOk (Origin.cpN : Origin) .DDR_TRAIN 3 = true) ∧
    ((8 : Word).toNat / 2 ^ 31 = 0 ∨ (w479.ddrState 3 ≠ ddrReady ∧ w479.ddrState 3 ≠ ddrSelfRefresh)) ∧
    (3 < 4) ∧
    (w2.writeOk (Origin.cpN : Origin) .DDR_TRAIN 3 = true) ∧
    ((0xFFFFFFFF : Word).toNat / 2 ^ 31 = 0 ∨ (w2.ddrState 3 ≠ ddrReady ∧ w2.ddrState 3 ≠ ddrSelfRefresh)) := by
  refine ⟨?_, ?_, ?_, ?_, ?_, ?_, ?_, ?_, ?_, ?_, ?_, ?_, ?_, ?_, ?_, ?_, ?_, ?_, ?_, ?_, ?_, ?_, ?_⟩ <;> decide +kernel

/-- States and operands that meet the hypotheses of the clauses of TrainingEvents. -/
theorem test_meets_TrainingEvents_3 :
    (3 < 4) ∧
    (w2.ddrState 3 ≠ ddrTraining) ∧
    (3 < 4) ∧
    (w527.ddrState 3 = ddrTraining) ∧
    (3 < 4) ∧
    (w527.ddrState 3 = ddrTraining) ∧
    (3 < 4) ∧
    (w527.ddrState 3 = ddrTraining) ∧
    (w527.snapshotServes 3 = false) ∧
    ((∀ k ∈ w527.laneSlots 3, w527.laneResult 3 false (((List.range 10).map (fun l => ({ rank := 0, lane := l, rd := (List.range 28).drop 20, wr := (List.range 128).drop 120 } : LaneSweep))) : List LaneSweep) k ≠ none)) ∧
    (3 < 4) ∧
    (w527.ddrState 3 = ddrTraining) ∧
    (w527.snapshotServes 3 = false) ∧
    (9 ∈ w527.laneSlots 3) ∧
    (w527.laneResult 3 false (((List.range 9).map (fun l => ({ rank := 0, lane := l, rd := (List.range 28).drop 20, wr := (List.range 128).drop 120 } : LaneSweep))) : List LaneSweep) 9 = none) ∧
    (3 < 4) ∧
    (w528.ddrState 3 = ddrTraining) ∧
    (w528.snapshotServes 3 = false) ∧
    (0 ∈ w528.laneSlots 3) ∧
    (w528.laneResult 3 false (([] : List LaneSweep) : List LaneSweep) 0 = none) := by
  refine ⟨?_, ?_, ?_, ?_, ?_, ?_, ?_, ?_, ?_, ?_, ?_, ?_, ?_, ?_, ?_, ?_, ?_, ?_, ?_, ?_⟩ <;> decide +kernel

/-- States and operands that meet the hypotheses of the clauses of TrainingEvents. -/
theorem test_meets_TrainingEvents_4 :
    (3 < 4) ∧
    (w529.writeOk (Origin.cpN : Origin) .DDR_FILL 3 = true) ∧
    ((0x80000000 : Word).toNat / 2 ^ 31 = 1) ∧
    (w529.f F.DDR_CTRL_EN 3 ≠ 1) ∧
    (w529.ddrState 3 = ddrReady) ∧
    (3 < 4) ∧
    (w479.writeOk (Origin.cpN : Origin) .DDR_FILL 3 = true) ∧
    ((0x80000000 : Word).toNat / 2 ^ 31 = 0 ∨ w479.f F.DDR_CTRL_EN 3 = 1 ∨ w479.ddrState 3 ≠ ddrReady) ∧
    (3 < 4) ∧
    (w2.writeOk (Origin.cpN : Origin) .DDR_FILL 3 = true) ∧
    ((0x80000000 : Word).toNat / 2 ^ 31 = 0 ∨ w2.f F.DDR_CTRL_EN 3 = 1 ∨ w2.ddrState 3 ≠ ddrReady) ∧
    (3 < 4) ∧
    (w529.writeOk (Origin.cpN : Origin) .DDR_FILL 3 = true) ∧
    ((0x7FFFFFFF : Word).toNat / 2 ^ 31 = 0 ∨ w529.f F.DDR_CTRL_EN 3 = 1 ∨ w529.ddrState 3 ≠ ddrReady) ∧
    (3 < 4) ∧
    (w2.f F.DDR_FILL_BUSY 3 ≠ 1) ∧
    (3 < 4) ∧
    (w530.f F.DDR_FILL_BUSY 3 = 1) ∧
    (3 < 4) ∧
    (w531.f F.DDR_FILL_BUSY 3 = 1) := by
  refine ⟨?_, ?_, ?_, ?_, ?_, ?_, ?_, ?_, ?_, ?_, ?_, ?_, ?_, ?_, ?_, ?_, ?_, ?_, ?_, ?_⟩ <;> decide +kernel

/-- A step and a state in canonical form that the hypotheses of StepKeepsMemories meet. -/
theorem test_meets_StepKeepsMemories : State.reset.memoriesWf = true ∧ step State.reset = .next State.reset.idle := ⟨by decide, rfl⟩

/-- A step from a state with a programmed OTP bit, for OtpBitsNeverClear. -/
theorem test_meets_OtpBitsNeverClear : step (State.reset.blow 0 [1]) = .next (State.reset.blow 0 [1]).idle ∧ (Tab.get (0 : Byte) (State.reset.blow 0 [1]).otp 0).getLsbD 0 = true :=
  ⟨rfl, by decide⟩

-- ## Ill-formed commands

/-- No mailbox 16 (R53): each command of a mailbox is refused with it. -/
def illFormed_mailbox : List Instr :=
  [.getInfo 16, .jobStatus 16, .wallOpen 16, .wallClose 16, .tileMapLoad 16, .play 16,
   .pause 16, .brightnessSet 16, .safeStateSet 16, .contextCreate 16, .contextDestroy 16, .contextStats 16,
   .effortSet 16, .bedrockLoad 16, .routeSet 16, .ruleCommit 16, .haulPortSet 16, .ingressSet 16,
   .lampPortSet 16, .dressingLoad 16, .scanMapLoad 16, .ucodeUpdate 16, .ptpConfig 16, .deviceAddressSet 16,
   .powerStateSet 16, .calSnapshot 16, .calRestore 16, .fwStage 16, .fwVerify 16, .fwActivate 16,
   .fwConfirm 16, .eventRead 16, .faultClear 16, .attest 16, .keyLoad 16, .lcAdvance 16,
   .generateId 16, .otpProgram 16, .otpLock 16, .revokeKey0 16, .lcReturn 16, .expertChallenge 16,
   .expertUnlock 16, .expertLock 16, .regRead 16, .regWrite 16, .hewerDrain 16, .hewerPatch 16,
   .hewerService 16, .ruleStage 16, .meterConfig 16, .shaperConfig 16, .queueWeightSet 16, .laneConfig 16,
   .laneRecal 16, .ddrRetrain 16, .ddrTimingSet 16, .rivChannelConfig 16, .faultReactionSet 16, .shedThresholdSet 16,
   .schParamSet 16, .intcRouteSet 16, .romInfo 16, .flashRead 16, .flashErase 16, .flashWrite 16,
   .romReset 16]

/-- The check refuses each. -/
theorem test_illFormed_mailbox : illFormed_mailbox.all (fun i => !i.wf) = true := by decide +kernel

/-- One operand just outside what the part has, in each check of the other commands. -/
def illFormed_operand_1 : List Instr :=
  [.mbxDoorbell .cpS 16 0, .mbxResultAck .cpS 16 0, .mbxResultHeaderRead .cpS 16 false, .semLockRead .cpS 64, .semRelease .cpS 64 0, .clearBroken .cpS 64 0,
   .semLeaseExpire 64, .pcieBar2BaseWrite .cpS 2 0, .bar2Access 2 0 (.read 4), .bar2Access 0 68719476736 (.read 4), .registerWrite .cpS 0 0 16 none false, .registerWrite .cpS 67108864 0 0 none false,
   .counterLowRead .cpS 67108864 false, .shadowArm .cpS 67108864 0, .shadowCancel .cpS 67108864 0, .pcieFunctionReset 2, .pcieLinkStateChange 4 0 0 0, .pcieLinkStateChange 0 64 0 0,
   .pcieLinkStateChange 0 0 16 0, .pcieLinkStateChange 0 0 0 16, .msiUnmask 2 0, .msiUnmask 0 32, .subframeSync 4, .syncGapStart 4,
   .gridEnable 4, .bandStart 64 .clean, .rivBurstIssue 64, .rivBeatResponse 64 .ok, .rivChClear .cpS 64 0, .lampFrameSend 48 none,
   .lampStatusReceive 48 [], .breakNoticeConfirm 48 0, .breakNoticeConfirm 0 256, .lampRxLos 48 false, .sliceDispatch 24, .sliceComplete 24,
   .bedrockUnitDispatch 24, .receptionTimeout 4096, .stallLimitExpire 24, .pixelWordIssue 24 .none {}, .bitstreamWordIssue 24 .none {}, .hewerWaitTimeout 24,
   .hewerTestDone 24 false, .patchLoadDone 24 .clean, .hwrDrainSet .cpS 24 0, .hwrDrainClear .cpS 24 0, .hwrServiceIn .cpS 24 0, .hwrServiceOut .cpS 24 0,
   .hwrPatchWrite .cpS 24 0 0, .hwrPatchWrite .cpS 0 65536 0]

/-- The check refuses each. -/
theorem test_illFormed_operand_1 : illFormed_operand_1.all (fun i => !i.wf) = true := by decide +kernel

/-- One operand just outside what the part has, in each check of the other commands. -/
def illFormed_operand_2 : List Instr :=
  [.haulFrameReceive 6 [], .haulFrameEnd 6 false, .cleftPendingEnter 4352, .spillDequeue 4352 .clean, .spoilRefill 4352 false, .egressPacketBuild 4096 .clean,
   .transmitStart 6, .transmitEnd 6 .clean, .tmgSweep 1414, .tmgQueueSample 6, .tmgSampleRead .cpS 67108864, .shaperRateWrite .cpS 67108864 0,
   .haulLinkLoss 6 false, .haulLinkUp 6 false, .ringNoticeReceive 6 0 false 0 0, .ringNoticeReceive 0 256 false 0 0, .ringNoticeReceive 0 0 false 256 0, .ringNoticeReceive 0 0 false 0 64,
   .ringRestoreReceive 6 0 false 0 0, .ringRestoreReceive 0 256 false 0 0, .ringRestoreReceive 0 0 false 256 0, .ringRestoreReceive 0 0 false 0 64, .ringNoticeResend 6, .fragmentAgeOut 256,
   .haulTsPop .cpS 6, .pixelFrameReceive 8 [] false, .ingCloseExpire 8, .pixelLinkLoss 8, .laneSignalChange 64 false, .laneSyncLoss 64,
   .laneCalStart 64, .laneCalDone 64 0 0, .laneCalDone 0 16 0, .laneCalDone 0 0 64, .laneCfgWrite .cpS 64 false 0, .calSchedule 64,
   .sensorCal 16, .ddrRequestGrant 4, .ddrTransferComplete 4 .clean, .arbWatchdogExpire 4, .arbMaxwaitRead .cpS 4 0, .arbMaxwaitRead .cpS 0 12,
   .ddrRefreshDue 4, .ddrPageIdleExpire 4 0, .ddrPageIdleExpire 0 64, .ddrTempPoll 4 false, .ddrScrubRead 4 .clean, .ddrWriteCrcAlert 4 0 0,
   .ddrWriteCrcAlert 0 2 0, .ddrWriteCrcAlert 0 0 32]

/-- The check refuses each. -/
theorem test_illFormed_operand_2 : illFormed_operand_2.all (fun i => !i.wf) = true := by decide +kernel

/-- One operand just outside what the part has, in each check of the other commands. -/
def illFormed_operand_3 : List Instr :=
  [.ddrDriftCheck 4 0, .ddrRetrainStart 4, .ddrRetrainDone 4 [], .ddrTrainStart .cpS 4 0, .ddrTrainingDone 4 [], .ddrFillStart .cpS 4 0,
   .ddrFillDone 4, .ddrConfigLock .cpS 4 0, .intcClaim .cpS 4 false, .intcComplete .cpS 4 0, .intcRouteWrite .cpS 1024 0, .intcRouteApply 1024,
   .wakeLatchSet 1024, .graceExpire 0, .graceExpire 64, .fltSrcAck .cpS 0 0, .fltSrcAck .cpS 64 0, .lanePllUnlock 16,
   .thermHigh 8 0, .thermTrip 8 0, .railFault 8, .timerExpire 64, .tmrCmpWrite .cpS 64 0, .tmrOverrunRead .cpS 64,
   .tamperTrip 8, .regionLock .cpS 64 0, .laneSyncAcquire 64, .pixelLinkUp 8, .farSyncReturn 48, .lanePllLock 16,
   .gpioChange 4 false, .prbsLock 64 0, .codeErr 64 .badGroup, .bufferAlloc (.haul 6) (List.replicate 64 0) true, .bufferAlloc .egress (List.replicate 63 0) true, .bufferAlloc .egress (List.replicate 9217 0) true,
   .lampFrameSend 47 (some (.control 65 0 [1])), .lampFrameSend 47 (some (.control 64 0 [])), .lampFrameSend 47 (some (.control 64 0 (List.replicate 257 0))), .lampFrameSend 47 (some (.blank 0 0)), .lampFrameSend 47 (some (.blank 255 256)), .pixelWordIssue 23 .none { readA := some 24576 },
   .bitstreamWordIssue 23 .none { readB := some 24576 }, .pixelWordIssue 23 .none { write := some (24576, List.replicate 8 0) }, .pixelWordIssue 23 .none { write := some (24575, List.replicate 7 0) }, .pixelWordIssue 23 .none { write := some (24575, List.replicate 8 (2 ^ 64)) }, .registerWrite .cpS 0x20 0 15 (some (0, 16)) false, .registerWrite .cpS 0x24 0 15 (some (0, 15)) false]

/-- The check refuses each. -/
theorem test_illFormed_operand_3 : illFormed_operand_3.all (fun i => !i.wf) = true := by decide +kernel

-- ## One step each, expected from the manual

/-- A condition on the next state of an outcome. -/
def after (o : Out) (p : State → Bool) : Bool :=
  match o with
  | .next t => p t
  | _ => false

/-- R60, R61: function 0 (code 4) takes a free lock, and reads GRANTED = 1 and itself as OWNER. -/
theorem test_semLock_free : after (exec (.semLockRead .f0 3) (put [(F.GLB_BOOT_STATUS_STAGE, 0, 4)])) (fun t => t.readData == [0x84000000]) = true := by decide +kernel

/-- R61: a lock that function 0 holds is refused to another requester. -/
theorem test_semLock_held : after (exec (.semLockRead .cpS 3) (put [(F.SEM_LOCK_OWNER, 3, 4)])) (fun t => t.readData == [0x04000000]) = true := by decide +kernel

/-- R43: COUNT counts milliseconds from FW_READY, and stands still during FW_HANDOVER. -/
theorem test_heartbeat :
    (after (exec (.heartbeatTick .none) (put [(F.GLB_BOOT_STATUS_STAGE, 0, 4), (F.GLB_HEARTBEAT_COUNT, 0, 4294967295)])) (fun t => t.f F.GLB_HEARTBEAT_COUNT 0 == 0) &&
      after (exec (.heartbeatTick .none) (put [(F.GLB_BOOT_STATUS_STAGE, 0, 5), (F.GLB_HEARTBEAT_COUNT, 0, 7)])) (fun t => t.f F.GLB_HEARTBEAT_COUNT 0 == 7)) = true := by decide +kernel

/-- R44: a write to `GLB_RESET` without the key is discarded. -/
theorem test_glbReset_key :
    after (exec (.glbReset .cpS 0x7A100001) (put [(F.GLB_SCRATCH_VALUE, 0, 9)])) (fun t => t.f F.GLB_SCRATCH_VALUE 0 == 9) = true ∧
    after (exec (.glbReset .cpS 0x7A110001) (put [(F.GLB_SCRATCH_VALUE, 0, 9)])) (fun t => t.f F.GLB_SCRATCH_VALUE 0 == 0) = true := by
  constructor <;> decide +kernel

/-- R368: in FATAL, PLAY answers NOT_PERMITTED (0x0020) with its tag. -/
theorem test_play_fatal : after (exec (.play 0) (cmd 0 0x0013 [0, 0, 0, 0, 0, 0, 0, 0, 0, 0, 0, 0, 0, 0, 0, 0] [(F.FLT_STATUS_FATAL, 0, 1)])) (fun t => t.f F.MBX_RESULT_DATA 0 == 0x80000005 && t.f F.MBX_RESULT_DATA 1 == 0x20) = true := by decide +kernel

/-- R56: GET_INFO returns 48 bytes, of which the first four are `GLB_CHIP_ID` 0x92401F9B. -/
theorem test_getInfo : after (exec (.getInfo 0) (cmd 0 0x0001 [] [])) (fun t => t.f F.MBX_RESULT_DATA 1 == 48 * 65536 && t.f F.MBX_RESULT_DATA 2 == 0x92401F9B) = true := by decide +kernel

/-- R439: balls C15, AU46, N14, N16, N17 and AB26 (rows 3, 35, 13 and 21). -/
theorem test_ballMap :
    ballAt 3 15 = .laneRx 6 false ∧ ballAt 35 46 = .ddr 1 true (.dq 30) ∧ ballAt 13 14 = .signal .refclkN ∧ ballAt 13 16 = .supply .aon ∧
      ballAt 13 17 = .signal .porN ∧ ballAt 21 26 = .coreSense := by decide

end Sys2Proof.Tests
end

/-! Writes of GLB_RESET (R44): the normal world and the free writes of R57 let every originator that the part has reach the register, so that its KEY alone decides. -/

namespace Sys2Proof.Machine

/-- R57: a write of GLB_RESET needs no expert session. -/
theorem freeWrite_GLB_RESET (o : Origin) : freeWrite o (RegId.GLB_RESET.addr 0) = true := by
  simp only [freeWrite, regAt_GLB_RESET, Bool.or_true]

theorem State.mayWrite_of_freeWrite (s : State) {o : Origin} {a : Nat} (h : freeWrite o a = true) : s.mayWrite o a = true := by
  cases o <;> simp [State.mayWrite, h]

theorem remoteWindow_GLB_RESET : remoteWindow (RegId.GLB_RESET.addr 0) = false := by decide

/-- GLB_RESET is in the normal world, and outside the windows that hosts do not reach (R51). -/
theorem State.writeOk_GLB_RESET {s : State} {o : Origin} (h : Origin.present o s = true) : s.writeOk o .GLB_RESET 0 = true := by
  have world : s.regSecure .GLB_RESET 0 = false := rfl
  simp [State.writeOk, h, world, remoteWindow_GLB_RESET, s.mayWrite_of_freeWrite (freeWrite_GLB_RESET o)]

/-- GLB_RESET belongs to no pair of words, so that its write makes no latch stale (R8). -/
theorem staleUppers_GLB_RESET : staleUppers .GLB_RESET = [] := by decide

theorem State.writeLatched_GLB_RESET (s : State) (o : Origin) (w : Nat) : s.writeLatched o .GLB_RESET 0 w = s.resetWrite w := by
  simp only [State.writeLatched, staleUppers_GLB_RESET, chainAll, List.foldl_nil, State.writeReg]

/-- A GLB_RESET command of an originator that the part has is the register's own write. -/
theorem exec_glbReset {s : State} {o : Origin} (h : Origin.present o s = true) (w : Word) :
    exec (.glbReset o w) s = .next (s.resetWrite w.toNat) := by
  calc exec (.glbReset o w) s = .next (s.regWriteBy o .GLB_RESET 0 w) := rfl
    _ = .next (s.writeLatched o .GLB_RESET 0 w.toNat) := by rw [State.regWriteBy_ok (State.writeOk_GLB_RESET h) regAt_GLB_RESET]
    _ = .next (s.resetWrite w.toNat) := by rw [State.writeLatched_GLB_RESET]

/-- R44: without the key the write is discarded, whatever REQ is. -/
theorem State.resetWrite_of_wrongKey (s : State) {w : Nat} (h : w / 2 ^ 16 ≠ 0x7A11) : s.resetWrite w = s :=
  if_neg fun hw => h hw.1

/-- Settles O17: a present originator's GLB_RESET is the register's write, which discards a wrong KEY. -/
theorem resetKey : Obligations.ResetKey := by
  intro s o w hpresent hkey
  rw [exec_glbReset hpresent, State.resetWrite_of_wrongKey s hkey]

end Sys2Proof.Machine

/-! FATAL and the challenge of a mailbox (R59, R368). FATAL's check comes before a command's own, but EXPERT_UNLOCK discards the challenge ahead of it: refused in FATAL, it still changes the state outside the registers. -/

namespace Sys2Proof.Machine

/-- R368: in FATAL a command that is due and not among the four is answered NOT_PERMITTED; its own action does not run. -/
theorem State.serve_fatal {s : State} {m op : Nat} {lenOk : Nat → Bool} {act : State → State} (hdue : s.mbxDue m op = true) (hfatal : s.fatal = true)
    (hop : servedInFatal op = false) : s.serve m op lenOk act = s.putResult m stNotPermitted [] := by
  simp [State.serve, hdue, hfatal, hop]

theorem State.lt_of_mbxDue {s : State} {m op : Nat} (h : s.mbxDue m op = true) : m < 16 := by
  simp only [State.mbxDue, Bool.and_eq_true, decide_eq_true_eq] at h
  exact h.1.1.1.1

theorem State.spendChallenge_of_due {s : State} {m op : Nat} (h : s.mbxDue m op = true) : s.spendChallenge m op = s.setChallenge m [] :=
  if_pos h

theorem State.challengeOf_setChallenge (s : State) (m : Nat) (c : List Byte) : (s.setChallenge m c).challengeOf m = c := by
  simp [State.challengeOf, State.setChallenge]

/-- Writes of register fields leave the challenges as they are. -/
theorem Sets.challengeOf_eq {s t : State} {l : List (Fld × Nat × Nat)} (h : Sets s l t) (m : Nat) : t.challengeOf m = s.challengeOf m :=
  congrArg (·.challengeOf m) h.1

theorem State.challengeOf_putResult_empty (s : State) (m n : Nat) {status : Nat} (h : status < 65536) :
    (s.putResult m status []).challengeOf n = s.challengeOf n :=
  ((Sets.refl s).putResult m status [] (by simp) h (by simp)).challengeOf_eq n

/-- EXPERT_UNLOCK in FATAL: the refusal is written on the state whose challenge is already discarded. -/
theorem exec_expertUnlock_fatal {s : State} {m : Nat} (hdue : s.mbxDue m 0x00A1 = true) (hfatal : s.fatal = true) :
    exec (.expertUnlock m) s = .next ((s.setChallenge m []).putResult m stNotPermitted []) := by
  have hdue' : (s.setChallenge m []).mbxDue m 0x00A1 = true := hdue
  have hfatal' : (s.setChallenge m []).fatal = true := hfatal
  calc exec (.expertUnlock m) s = onMailbox m (s.expertUnlock m) := rfl
    _ = .next (s.expertUnlock m) := onMailbox_lt (State.lt_of_mbxDue hdue) _
    _ = .next ((s.setChallenge m []).putResult m stNotPermitted []) := by
      rw [State.expertUnlock, State.spendChallenge_of_due hdue, State.serve_fatal hdue' hfatal' rfl]

/-- Where the mailbox keeps a challenge, EXPERT_UNLOCK in FATAL does not only write register fields. -/
theorem expertUnlock_fatal_not_sets {s t : State} {m : Nat} {l : List (Fld × Nat × Nat)} (hdue : s.mbxDue m 0x00A1 = true) (hfatal : s.fatal = true)
    (hkept : s.challengeOf m ≠ []) (hexec : exec (.expertUnlock m) s = .next t) : ¬ Sets s l t := by
  intro hsets
  obtain rfl : (s.setChallenge m []).putResult m stNotPermitted [] = t :=
    Host.Outcome.next.inj ((exec_expertUnlock_fatal hdue hfatal).symm.trans hexec)
  have hgone : ((s.setChallenge m []).putResult m stNotPermitted []).challengeOf m = [] := by
    rw [State.challengeOf_putResult_empty _ _ _ (by decide), State.challengeOf_setChallenge]
  exact hkept ((hsets.challengeOf_eq m).symm.trans hgone)

/-- FATAL at FW_READY, with EXPERT_UNLOCK of no argument submitted in MBX0, which keeps a challenge of 32 bytes. -/
def fatalUnlock : State :=
  ((((State.reset.setF F.GLB_BOOT_STATUS_STAGE 0 4).setF F.MBX_STATUS_BUSY 0 1).setF F.MBX_COMMAND_DATA 0 0x00A1).setF F.FLT_STATUS_FATAL 0 1).setChallenge 0
    (List.replicate 32 0x5A)

theorem fatalUnlock_due : fatalUnlock.mbxDue 0 0x00A1 = true := by decide

theorem fatalUnlock_fatal : fatalUnlock.fatal = true := by decide

theorem fatalUnlock_challenge : fatalUnlock.challengeOf 0 ≠ [] := by
  rw [fatalUnlock, State.challengeOf_setChallenge]
  decide

/-- Refutes O9: EXPERT_UNLOCK refused in FATAL discards the challenge of its mailbox, so it does more than answer NOT_PERMITTED. -/
theorem not_fatalServesFour : ¬ Obligations.FatalServesFour := by
  rintro ⟨hrefused, -⟩
  obtain ⟨t, hexec, hsets⟩ := hrefused (.expertUnlock 0) 0 0x00A1 fatalUnlock rfl fatalUnlock_due fatalUnlock_fatal (by decide)
  exact expertUnlock_fatal_not_sets fatalUnlock_due fatalUnlock_fatal fatalUnlock_challenge hexec hsets

end Sys2Proof.Machine

/-! The block as a whole: what every step keeps (R408, R295, R49), and that every well-formed command completes. -/

namespace Sys2Proof.Machine

/-- Every command keeps the queue, the canonical form of the memories and the blown OTP bits: each by its own lemma. -/
theorem exec_keeps {c : Instr} {s t : State} (h : exec c s = .next t) : Keeps s.stores t.stores := by
  cases c with
  | getInfo => exact execGetInfo_keeps _ _ _ h
  | jobStatus => exact execJobStatus_keeps _ _ _ h
  | wallOpen => exact execWallOpen_keeps _ _ _ h
  | wallClose => exact execWallClose_keeps _ _ _ h
  | tileMapLoad => exact execTileMapLoad_keeps _ _ _ h
  | play => exact execPlay_keeps _ _ _ h
  | pause => exact execPause_keeps _ _ _ h
  | brightnessSet => exact execBrightnessSet_keeps _ _ _ h
  | safeStateSet => exact execSafeStateSet_keeps _ _ _ h
  | contextCreate => exact execContextCreate_keeps _ _ _ h
  | contextDestroy => exact execContextDestroy_keeps _ _ _ h
  | contextStats => exact execContextStats_keeps _ _ _ h
  | effortSet => exact execEffortSet_keeps _ _ _ h
  | bedrockLoad => exact execBedrockLoad_keeps _ _ _ h
  | routeSet => exact execRouteSet_keeps _ _ _ h
  | ruleCommit => exact execRuleCommit_keeps _ _ _ h
  | haulPortSet => exact execHaulPortSet_keeps _ _ _ h
  | ingressSet => exact execIngressSet_keeps _ _ _ h
  | lampPortSet => exact execLampPortSet_keeps _ _ _ h
  | dressingLoad => exact execDressingLoad_keeps _ _ _ h
  | scanMapLoad => exact execScanMapLoad_keeps _ _ _ h
  | ucodeUpdate => exact execUcodeUpdate_keeps _ _ _ h
  | ptpConfig => exact execPtpConfig_keeps _ _ _ h
  | deviceAddressSet => exact execDeviceAddressSet_keeps _ _ _ h
  | powerStateSet => exact execPowerStateSet_keeps _ _ _ h
  | calSnapshot => exact execCalSnapshot_keeps _ _ _ h
  | calRestore => exact execCalRestore_keeps _ _ _ h
  | fwStage => exact execFwStage_keeps _ _ _ h
  | fwVerify => exact execFwVerify_keeps _ _ _ h
  | fwActivate => exact execFwActivate_keeps _ _ _ h
  | fwConfirm => exact execFwConfirm_keeps _ _ _ h
  | eventRead => exact execEventRead_keeps _ _ _ h
  | faultClear => exact execFaultClear_keeps _ _ _ h
  | attest => exact execAttest_keeps _ _ _ h
  | keyLoad => exact execKeyLoad_keeps _ _ _ h
  | lcAdvance => exact execLcAdvance_keeps _ _ _ h
  | generateId => exact execGenerateId_keeps _ _ _ h
  | otpProgram => exact execOtpProgram_keeps _ _ _ h
  | otpLock => exact execOtpLock_keeps _ _ _ h
  | revokeKey0 => exact execRevokeKey0_keeps _ _ _ h
  | lcReturn => exact execLcReturn_keeps _ _ _ h
  | expertChallenge => exact execExpertChallenge_keeps _ _ _ h
  | expertUnlock => exact execExpertUnlock_keeps _ _ _ h
  | expertLock => exact execExpertLock_keeps _ _ _ h
  | regRead => exact execRegRead_keeps _ _ _ h
  | regWrite => exact execRegWrite_keeps _ _ _ h
  | hewerDrain => exact execHewerDrain_keeps _ _ _ h
  | hewerPatch => exact execHewerPatch_keeps _ _ _ h
  | hewerService => exact execHewerService_keeps _ _ _ h
  | ruleStage => exact execRuleStage_keeps _ _ _ h
  | meterConfig => exact execMeterConfig_keeps _ _ _ h
  | shaperConfig => exact execShaperConfig_keeps _ _ _ h
  | queueWeightSet => exact execQueueWeightSet_keeps _ _ _ h
  | laneConfig => exact execLaneConfig_keeps _ _ _ h
  | laneRecal => exact execLaneRecal_keeps _ _ _ h
  | ddrRetrain => exact execDdrRetrain_keeps _ _ _ h
  | ddrTimingSet => exact execDdrTimingSet_keeps _ _ _ h
  | rivChannelConfig => exact execRivChannelConfig_keeps _ _ _ h
  | faultReactionSet => exact execFaultReactionSet_keeps _ _ _ h
  | shedThresholdSet => exact execShedThresholdSet_keeps _ _ _ h
  | schParamSet => exact execSchParamSet_keeps _ _ _ h
  | intcRouteSet => exact execIntcRouteSet_keeps _ _ _ h
  | romInfo => exact execRomInfo_keeps _ _ _ h
  | flashRead => exact execFlashRead_keeps _ _ _ h
  | flashErase => exact execFlashErase_keeps _ _ _ h
  | flashWrite => exact execFlashWrite_keeps _ _ _ h
  | romReset => exact execRomReset_keeps _ _ _ h
  | mbxDoorbell => exact execMbxDoorbell_keeps _ _ _ _ _ h
  | mbxResultAck => exact execMbxResultAck_keeps _ _ _ _ _ h
  | mbxResultHeaderRead => exact execMbxResultHeaderRead_keeps _ _ _ _ _ h
  | jobDone => exact execJobDone_keeps _ _ _ _ h
  | semLockRead => exact execSemLockRead_keeps _ _ _ _ h
  | semRelease => exact execSemRelease_keeps _ _ _ _ _ h
  | clearBroken => exact execClearBroken_keeps _ _ _ _ _ h
  | semLeaseExpire => exact execSemLeaseExpire_keeps _ _ _ h
  | glbReset => exact execGlbReset_keeps _ _ _ _ h
  | pcieBar2BaseWrite => exact execPcieBar2BaseWrite_keeps _ _ _ _ _ h
  | bar2Access => exact execBar2Access_keeps _ _ _ _ _ h
  | registerWrite => exact execRegisterWrite_keeps _ _ _ _ _ _ _ _ h
  | counterLowRead => exact execCounterLowRead_keeps _ _ _ _ _ h
  | shadowArm => exact execShadowArm_keeps _ _ _ _ _ h
  | shadowCancel => exact execShadowCancel_keeps _ _ _ _ _ h
  | powerOnReset => exact execPowerOnReset_keeps _ _ h
  | resetN => exact execResetN_keeps _ _ h
  | clearingDone => exact execClearingDone_keeps _ _ h
  | romVerifyDone => exact execRomVerifyDone_keeps _ _ h
  | fwReady => exact execFwReady_keeps _ _ h
  | confirmWindowExpire => exact execConfirmWindowExpire_keeps _ _ h
  | heartbeatTick => exact execHeartbeatTick_keeps _ _ _ h
  | remoteSessionTimeout => exact execRemoteSessionTimeout_keeps _ _ h
  | pcieFunctionReset => exact execPcieFunctionReset_keeps _ _ _ h
  | pciePerst => exact execPciePerst_keeps _ _ h
  | pcieLinkStateChange => exact execPcieLinkStateChange_keeps _ _ _ _ _ _ h
  | msiUnmask => exact execMsiUnmask_keeps _ _ _ _ h
  | subframeSync => exact execSubframeSync_keeps _ _ _ h
  | syncGapStart => exact execSyncGapStart_keeps _ _ _ h
  | gridEnable => exact execGridEnable_keeps _ _ _ h
  | bandStart => exact execBandStart_keeps _ _ _ _ h
  | rivBurstIssue => exact execRivBurstIssue_keeps _ _ _ h
  | rivBeatResponse => exact execRivBeatResponse_keeps _ _ _ _ h
  | rivChClear => exact execRivChClear_keeps _ _ _ _ _ h
  | lampFrameSend => exact execLampFrameSend_keeps _ _ _ _ h
  | lampStatusReceive => exact execLampStatusReceive_keeps _ _ _ _ h
  | breakNoticeConfirm => exact execBreakNoticeConfirm_keeps _ _ _ _ h
  | lampRxLos => exact execLampRxLos_keeps _ _ _ _ h
  | drsLutDataAccess => exact execDrsLutDataAccess_keeps _ _ _ _ h
  | sliceDispatch => exact execSliceDispatch_keeps _ _ _ h
  | sliceComplete => exact execSliceComplete_keeps _ _ _ h
  | bedrockUnitDispatch => exact execBedrockUnitDispatch_keeps _ _ _ h
  | receptionTimeout => exact execReceptionTimeout_keeps _ _ _ h
  | stallLimitExpire => exact execStallLimitExpire_keeps _ _ _ h
  | pixelWordIssue => exact execPixelWordIssue_keeps _ _ _ _ _ h
  | bitstreamWordIssue => exact execBitstreamWordIssue_keeps _ _ _ _ _ h
  | hewerWaitTimeout => exact execHewerWaitTimeout_keeps _ _ _ h
  | hewerTestDone => exact execHewerTestDone_keeps _ _ _ _ h
  | patchLoadDone => exact execPatchLoadDone_keeps _ _ _ _ h
  | hwrDrainSet => exact execHwrDrainSet_keeps _ _ _ _ _ h
  | hwrDrainClear => exact execHwrDrainClear_keeps _ _ _ _ _ h
  | hwrServiceIn => exact execHwrServiceIn_keeps _ _ _ _ _ h
  | hwrServiceOut => exact execHwrServiceOut_keeps _ _ _ _ _ h
  | hwrPatchWrite => exact execHwrPatchWrite_keeps _ _ _ _ _ _ h
  | stkPinReq => exact execStkPinReq_keeps _ _ _ _ h
  | stkUnpin => exact execStkUnpin_keeps _ _ _ _ h
  | haulFrameReceive => exact execHaulFrameReceive_keeps _ _ _ _ h
  | haulFrameEnd => exact execHaulFrameEnd_keeps _ _ _ _ h
  | cleftPendingEnter => exact execCleftPendingEnter_keeps _ _ _ h
  | spillDequeue => exact execSpillDequeue_keeps _ _ _ _ h
  | spoilRefill => exact execSpoilRefill_keeps _ _ _ _ h
  | spqQDisable => exact execSpqQDisable_keeps _ _ _ _ h
  | egressPacketBuild => exact execEgressPacketBuild_keeps _ _ _ _ h
  | bufferAlloc => exact execBufferAlloc_keeps _ _ _ _ _ h
  | bpmCacheRefill => exact execBpmCacheRefill_keeps _ _ h
  | transmitStart => exact execTransmitStart_keeps _ _ _ h
  | transmitEnd => exact execTransmitEnd_keeps _ _ _ _ h
  | tmgSweep => exact execTmgSweep_keeps _ _ _ h
  | tmgQueueSample => exact execTmgQueueSample_keeps _ _ _ h
  | tmgSampleRead => exact execTmgSampleRead_keeps _ _ _ _ h
  | meterEnable => exact execMeterEnable_keeps _ _ _ _ h
  | shaperRateWrite => exact execShaperRateWrite_keeps _ _ _ _ _ h
  | haulLinkLoss => exact execHaulLinkLoss_keeps _ _ _ _ h
  | haulLinkUp => exact execHaulLinkUp_keeps _ _ _ _ h
  | ringNoticeReceive => exact execRingNoticeReceive_keeps _ _ _ _ _ _ _ h
  | ringRestoreReceive => exact execRingRestoreReceive_keeps _ _ _ _ _ _ _ h
  | ringNoticeResend => exact execRingNoticeResend_keeps _ _ _ h
  | sendRestore => exact execSendRestore_keeps _ _ _ _ h
  | clearCw => exact execClearCw_keeps _ _ _ _ h
  | clearCcw => exact execClearCcw_keeps _ _ _ _ h
  | fragmentAgeOut => exact execFragmentAgeOut_keeps _ _ _ h
  | clone => exact execClone_keeps _ _ _ _ h
  | cloneDone => exact execCloneDone_keeps _ _ h
  | go => exact execGo_keeps _ _ _ _ h
  | abort => exact execAbort_keeps _ _ _ _ h
  | commitDone => exact execCommitDone_keeps _ _ h
  | haulTsPop => exact execHaulTsPop_keeps _ _ _ _ h
  | pixelFrameReceive => exact execPixelFrameReceive_keeps _ _ _ _ _ h
  | ingCloseExpire => exact execIngCloseExpire_keeps _ _ _ h
  | pixelLinkLoss => exact execPixelLinkLoss_keeps _ _ _ h
  | laneSignalChange => exact execLaneSignalChange_keeps _ _ _ _ h
  | laneSyncLoss => exact execLaneSyncLoss_keeps _ _ _ h
  | laneCalStart => exact execLaneCalStart_keeps _ _ _ h
  | laneCalDone => exact execLaneCalDone_keeps _ _ _ _ _ h
  | laneCfgWrite => exact execLaneCfgWrite_keeps _ _ _ _ _ _ h
  | calSchedule => exact execCalSchedule_keeps _ _ _ h
  | sensorCal => exact execSensorCal_keeps _ _ _ h
  | ddrRequestGrant => exact execDdrRequestGrant_keeps _ _ _ h
  | ddrTransferComplete => exact execDdrTransferComplete_keeps _ _ _ _ h
  | arbWatchdogExpire => exact execArbWatchdogExpire_keeps _ _ _ h
  | arbMaxwaitRead => exact execArbMaxwaitRead_keeps _ _ _ _ _ h
  | ddrRefreshDue => exact execDdrRefreshDue_keeps _ _ _ h
  | ddrPageIdleExpire => exact execDdrPageIdleExpire_keeps _ _ _ _ h
  | ddrTempPoll => exact execDdrTempPoll_keeps _ _ _ _ h
  | ddrScrubRead => exact execDdrScrubRead_keeps _ _ _ _ h
  | ddrWriteCrcAlert => exact execDdrWriteCrcAlert_keeps _ _ _ _ _ h
  | ddrDriftCheck => exact execDdrDriftCheck_keeps _ _ _ _ h
  | ddrRetrainStart => exact execDdrRetrainStart_keeps _ _ _ h
  | ddrRetrainDone => exact execDdrRetrainDone_keeps _ _ _ _ h
  | ddrTrainStart => exact execDdrTrainStart_keeps _ _ _ _ _ h
  | ddrTrainingDone => exact execDdrTrainingDone_keeps _ _ _ _ h
  | ddrFillStart => exact execDdrFillStart_keeps _ _ _ _ _ h
  | ddrFillDone => exact execDdrFillDone_keeps _ _ _ h
  | ddrLogClear => exact execDdrLogClear_keeps _ _ _ _ h
  | ddrConfigLock => exact execDdrConfigLock_keeps _ _ _ _ _ h
  | intcClaim => exact execIntcClaim_keeps _ _ _ _ _ h
  | intcClaimS => exact execIntcClaimS_keeps _ _ _ _ h
  | intcComplete => exact execIntcComplete_keeps _ _ _ _ _ h
  | intcCompleteS => exact execIntcCompleteS_keeps _ _ _ _ h
  | intcRouteWrite => exact execIntcRouteWrite_keeps _ _ _ _ _ h
  | intcRouteApply => exact execIntcRouteApply_keeps _ _ _ h
  | intcSwSet => exact execIntcSwSet_keeps _ _ _ _ _ h
  | intcSwClr => exact execIntcSwClr_keeps _ _ _ _ _ h
  | wakeLatchSet => exact execWakeLatchSet_keeps _ _ _ h
  | graceExpire => exact execGraceExpire_keeps _ _ _ h
  | fltSrcAck => exact execFltSrcAck_keeps _ _ _ _ _ h
  | fltSafeRelease => exact execFltSafeRelease_keeps _ _ _ _ _ h
  | kick => exact execKick_keeps _ _ _ _ h
  | fwWatchdogExpire => exact execFwWatchdogExpire_keeps _ _ h
  | corePllUnlock => exact execCorePllUnlock_keeps _ _ h
  | lanePllUnlock => exact execLanePllUnlock_keeps _ _ _ h
  | thermHigh => exact execThermHigh_keeps _ _ _ _ h
  | thermTrip => exact execThermTrip_keeps _ _ _ _ h
  | railFault => exact execRailFault_keeps _ _ _ h
  | shedStageEnter => exact execShedStageEnter_keeps _ _ _ h
  | shedStageLift => exact execShedStageLift_keeps _ _ _ h
  | avsStep => exact execAvsStep_keeps _ _ _ h
  | pmbusReadback => exact execPmbusReadback_keeps _ _ _ h
  | tbStep => exact execTbStep_keeps _ _ _ _ h
  | tbTrimWrite => exact execTbTrimWrite_keeps _ _ _ _ h
  | ptpSyncProcess => exact execPtpSyncProcess_keeps _ _ _ _ _ h
  | timerExpire => exact execTimerExpire_keeps _ _ _ h
  | tmrCmpWrite => exact execTmrCmpWrite_keeps _ _ _ _ _ h
  | tmrOverrunRead => exact execTmrOverrunRead_keeps _ _ _ _ h
  | bpmMinFreeRead => exact execBpmMinFreeRead_keeps _ _ _ h
  | pwrVminRead => exact execPwrVminRead_keeps _ _ _ h
  | standbyGate => exact execStandbyGate_keeps _ _ h
  | wakeTimerExpire => exact execWakeTimerExpire_keeps _ _ h
  | wake => exact execWake_keeps _ _ h
  | tamperTrip => exact execTamperTrip_keeps _ _ _ h
  | spdWipe => exact execSpdWipe_keeps _ _ _ _ h
  | spdWipeDone => exact execSpdWipeDone_keeps _ _ h
  | blockWorldLock => exact execBlockWorldLock_keeps _ _ _ _ h
  | regionLock => exact execRegionLock_keeps _ _ _ _ _ h
  | laneSyncAcquire => exact execLaneSyncAcquire_keeps _ _ _ h
  | pixelLinkUp => exact execPixelLinkUp_keeps _ _ _ h
  | farSyncReturn => exact execFarSyncReturn_keeps _ _ _ h
  | lanePllLock => exact execLanePllLock_keeps _ _ _ h
  | debugPortReset => exact execDebugPortReset_keeps _ _ h
  | gpioChange => exact execGpioChange_keeps _ _ _ _ h
  | prbsLock => exact execPrbsLock_keeps _ _ _ _ h
  | codeErr => exact execCodeErr_keeps _ _ _ _ h

/-- What a step keeps of the memories: on an empty queue what the idle FCLK keeps, else what the front command keeps on the queue's rest. -/
theorem step_keeps {s t : State} (h : step s = .next t) : ∃ q, Keeps (s.dram, s.flash, s.otp, q) t.stores := by
  unfold step at h
  split at h
  · obtain rfl := Host.Outcome.next.inj h
    exact ⟨s.pending, State.idle_keeps s (Keeps.refl s.stores)⟩
  · next c rest _ => exact ⟨rest, exec_keeps h⟩

/-- Settles O4: a step keeps each memory's canonical form. -/
theorem stepKeepsMemories : Obligations.StepKeepsMemories := by
  intro s t hwf hstep
  obtain ⟨q, hkeeps⟩ := step_keeps hstep
  simp only [State.memoriesWf, Bool.and_eq_true] at hwf ⊢
  obtain ⟨⟨hdram, hflash⟩, hotp⟩ := hwf
  exact ⟨⟨hkeeps.dram hdram, hkeeps.flash hflash⟩, hkeeps.otp hotp⟩

/-- Settles O5: what a step keeps of OTP is every blown bit. -/
theorem otpBitsNeverClear : Obligations.OtpBitsNeverClear := by
  intro s t hstep a k hbit
  obtain ⟨q, hkeeps⟩ := step_keeps hstep
  exact hkeeps.blown a k hbit

/-- Settles O6: every command keeps the queue. -/
theorem commandsKeepQueue : Obligations.CommandsKeepQueue := fun _ _ _ h => (exec_keeps h).queue

theorem State.stores_queue (s : State) : s.stores.2.2.2 = s.pending := rfl

/-- Settles O1: on an empty queue the step is the idle FCLK, which keeps the queue. -/
theorem stepRunsFront : Obligations.StepRunsFront := by
  refine ⟨fun c rest s h => by simp only [step, h], fun s h => ⟨s.idle, by simp only [step, h], ?_⟩⟩
  have hqueue := (State.idle_keeps s (Keeps.refl s.stores)).queue
  rw [State.stores_queue, State.stores_queue, h] at hqueue
  exact hqueue

/-- A field of the reset state, whose register file is empty, reads its reset value. -/
theorem State.f_reset (x : Fld) (i : Nat) : State.reset.f x i = x.reset i := rfl

/-- Settles O2: every field of the empty register file reads its reset value, and the memories are empty. -/
theorem resetValues : Obligations.ResetValues :=
  ⟨State.f_reset, rfl, rfl, rfl, fun _ => ⟨rfl, rfl⟩, fun _ => rfl, fun _ => rfl, rfl, rfl, rfl, rfl, rfl⟩

/-- Settles O3: the memories of the reset state list no byte. -/
theorem resetMemories : Obligations.ResetMemories := by
  simp only [Obligations.ResetMemories, State.memoriesWf, Bool.and_eq_true]
  exact ⟨⟨rfl, rfl⟩, rfl⟩

/-- A command completes, or names an index that the part has not; `wf` says whether it is well-formed. -/
def Answers (wf : Bool) (o : Out) : Prop := (∃ t, o = .next t) ∨ (o = .fault .noSuchInstance ∧ wf = false)

theorem answers_next (wf : Bool) (t : State) : Answers wf (.next t) := .inl ⟨t, rfl⟩

/-- A command whose check of the index passes wherever it is well-formed. -/
theorem answers_onInstance {wf p : Bool} (h : wf = true → p = true) (t : State) : Answers wf (onInstance p t) := by
  cases p with
  | true => exact answers_next wf t
  | false => exact .inr ⟨rfl, by simpa using h⟩

theorem answers_onMailbox (m : Nat) (t : State) : Answers (decide (m < 16)) (onMailbox m t) := answers_onInstance id t

/-- The check of the index is a part of well-formedness, first or alone. -/
theorem left_of_and {p q : Bool} (h : (p && q) = true) : p = true := (Bool.and_eq_true_iff.mp h).1

/-- Every command is answered so: a mailbox command by the number of its mailbox, a command at an indexed block by that index, every other command always. -/
theorem exec_answers (c : Instr) (s : State) : Answers c.wf (exec c s) := by
  cases c with
  | getInfo | jobStatus | wallOpen | wallClose | tileMapLoad | play | pause | brightnessSet | safeStateSet | contextCreate | contextDestroy |
    contextStats | effortSet | bedrockLoad | routeSet | ruleCommit | haulPortSet | ingressSet | lampPortSet | dressingLoad | scanMapLoad | ucodeUpdate |
    ptpConfig | deviceAddressSet | powerStateSet | calSnapshot | calRestore | fwStage | fwVerify | fwActivate | fwConfirm | eventRead | faultClear |
    attest | keyLoad | lcAdvance | generateId | otpProgram | otpLock | revokeKey0 | lcReturn | expertChallenge | expertUnlock | expertLock | regRead |
    regWrite | hewerDrain | hewerPatch | hewerService | ruleStage | meterConfig | shaperConfig | queueWeightSet | laneConfig | laneRecal | ddrRetrain |
    ddrTimingSet | rivChannelConfig | faultReactionSet | shedThresholdSet | schParamSet | intcRouteSet | romInfo | flashRead | flashErase | flashWrite |
    romReset | mbxDoorbell | mbxResultAck | mbxResultHeaderRead =>
    exact answers_onMailbox _ _
  | jobDone | glbReset | registerWrite | counterLowRead | shadowArm | shadowCancel | powerOnReset | resetN | clearingDone | romVerifyDone | fwReady |
    confirmWindowExpire | heartbeatTick | remoteSessionTimeout | pciePerst | pcieLinkStateChange | drsLutDataAccess | stkPinReq | stkUnpin | spqQDisable |
    bpmCacheRefill | tmgSampleRead | meterEnable | shaperRateWrite | sendRestore | clearCw | clearCcw | clone | cloneDone | go | abort | commitDone |
    ddrLogClear | intcClaimS | intcCompleteS | intcSwSet | intcSwClr | fltSafeRelease | kick | fwWatchdogExpire | corePllUnlock | shedStageEnter |
    shedStageLift | avsStep | pmbusReadback | tbStep | tbTrimWrite | ptpSyncProcess | bpmMinFreeRead | pwrVminRead | standbyGate | wakeTimerExpire | wake
    | spdWipe | spdWipeDone | blockWorldLock | debugPortReset =>
    exact answers_next _ _
  | semLockRead | semRelease | clearBroken | semLeaseExpire | pcieBar2BaseWrite | bar2Access | pcieFunctionReset | msiUnmask | subframeSync |
    syncGapStart | gridEnable | bandStart | rivBurstIssue | rivBeatResponse | rivChClear | lampStatusReceive | lampRxLos | sliceDispatch | sliceComplete |
    bedrockUnitDispatch | receptionTimeout | stallLimitExpire | hewerWaitTimeout | hewerTestDone | patchLoadDone | hwrDrainSet | hwrDrainClear |
    hwrServiceIn | hwrServiceOut | hwrPatchWrite | haulFrameReceive | haulFrameEnd | cleftPendingEnter | spillDequeue | spoilRefill | egressPacketBuild |
    transmitStart | transmitEnd | tmgSweep | tmgQueueSample | haulLinkLoss | haulLinkUp | ringNoticeResend | fragmentAgeOut | haulTsPop |
    pixelFrameReceive | ingCloseExpire | pixelLinkLoss | laneSignalChange | laneSyncLoss | laneCalStart | laneCfgWrite | calSchedule | sensorCal |
    ddrRequestGrant | ddrTransferComplete | arbWatchdogExpire | arbMaxwaitRead | ddrRefreshDue | ddrTempPoll | ddrScrubRead | ddrDriftCheck |
    ddrRetrainStart | ddrRetrainDone | ddrTrainStart | ddrTrainingDone | ddrFillStart | ddrFillDone | ddrConfigLock | intcClaim | intcComplete |
    intcRouteWrite | intcRouteApply | wakeLatchSet | graceExpire | fltSrcAck | lanePllUnlock | thermHigh | thermTrip | railFault | timerExpire |
    tmrCmpWrite | tmrOverrunRead | tamperTrip | regionLock | laneSyncAcquire | pixelLinkUp | farSyncReturn | lanePllLock | gpioChange | prbsLock | codeErr =>
    exact answers_onInstance id _
  | lampFrameSend | breakNoticeConfirm | pixelWordIssue | bitstreamWordIssue | ddrPageIdleExpire | ddrWriteCrcAlert =>
    exact answers_onInstance left_of_and _
  | bufferAlloc | laneCalDone =>
    exact answers_onInstance (fun h => left_of_and (left_of_and h)) _
  | ringNoticeReceive | ringRestoreReceive =>
    exact answers_onInstance (fun h => left_of_and (left_of_and (left_of_and h))) _

/-- Settles O7: what a command answers is a next state, or the fault of an index that the part has not. -/
theorem wellFormedRuns : Obligations.WellFormedRuns := by
  refine ⟨fun c s hwf => ?_, fun c s r h => ?_, fun c s e h => ?_⟩ <;> rcases exec_answers c s with ⟨t, ht⟩ | ⟨hf, hill⟩
  · exact ⟨t, ht⟩
  · rw [hwf] at hill
    exact absurd hill (by decide)
  · rw [ht] at h
    exact absurd h (by simp)
  · rw [hf] at h
    exact absurd h (by simp)
  · rw [ht] at h
    exact absurd h (by simp)
  · rw [hf] at h
    exact ⟨(Host.Outcome.fault.inj h).symm, hill⟩

end Sys2Proof.Machine

/-! The checks that a mailbox command passes first (R50, R54 to R57, R368), for all commands at once: each is `State.serve` with its own opcode. -/

namespace Sys2Proof.Machine

/-- Every command of `mailboxOp` but EXPERT_UNLOCK, which discards the challenge first, is served with its mailbox and its opcode. -/
theorem exec_eq_serve {c : Instr} {m op : Nat} (s : State) (h : mailboxOp c = some (m, op)) (hop : op ≠ 0x00A1) :
    ∃ lenOk act, exec c s = onMailbox m (s.serve m op lenOk act) := by
  unfold mailboxOp at h
  split at h
  all_goals
    simp only [Option.some.injEq, Prod.mk.injEq, reduceCtorEq] at h
    try obtain ⟨rfl, rfl⟩ := h
  case h_37 => exact absurd rfl hop
  all_goals exact ⟨_, _, rfl⟩

/-- EXPERT_UNLOCK is the one command with its opcode. -/
theorem eq_expertUnlock {c : Instr} {m : Nat} (h : mailboxOp c = some (m, 0x00A1)) : c = .expertUnlock m := by
  unfold mailboxOp at h
  split at h
  all_goals
    simp only [Option.some.injEq, Prod.mk.injEq, reduceCtorEq, Nat.reduceEqDiff, and_false, and_true] at h
  exact congrArg _ h

/-- A command that is not due is not served. -/
theorem State.serve_notDue {s : State} {m op : Nat} {lenOk : Nat → Bool} {act : State → State} (h : s.mbxDue m op = false) :
    s.serve m op lenOk act = s := by
  simp [State.serve, h]

theorem State.spendChallenge_notDue {s : State} {m op : Nat} (h : s.mbxDue m op = false) : s.spendChallenge m op = s := by
  simp [State.spendChallenge, h]

/-- Settles O8: neither the discard of a challenge nor the service acts on a command that is not due. -/
theorem commandsNeedSubmission : Obligations.CommandsNeedSubmission := by
  intro c m op s hc hm hdue
  by_cases hop : op = 0x00A1
  · subst hop
    obtain rfl := eq_expertUnlock hc
    calc exec (.expertUnlock m) s = onMailbox m (s.expertUnlock m) := rfl
      _ = .next (s.expertUnlock m) := onMailbox_lt hm _
      _ = .next s := by rw [State.expertUnlock, State.spendChallenge_notDue hdue, State.serve_notDue hdue]
  · obtain ⟨lenOk, act, hexec⟩ := exec_eq_serve s hc hop
    rw [hexec, onMailbox_lt hm, State.serve_notDue hdue]

/-- The registers that a result writes, on a state of no other change. -/
theorem sets_putResult (s : State) (m : Nat) {status : Nat} {data : List Byte} (hs : status < 65536) (hd : data.length ≤ 248) :
    Sets s (answer m (s.mbxTag m) status data) (s.putResult m status data) :=
  (Sets.refl s).putResult m status data (by simp) hs hd

/-- A command of the expert level is none of those that FATAL serves. -/
theorem servedInFatal_of_expertOnly {op : Nat} (h : expertOnly op = true) : servedInFatal op = false := by
  simp only [expertOnly, Bool.and_eq_true, decide_eq_true_eq] at h
  simp only [servedInFatal, Bool.or_eq_false_iff, decide_eq_false_iff_not]
  omega

/-- R55, R57: a command that is due and fails the check of its world or of its session is answered NOT_PERMITTED, by FATAL's check or by its own. -/
theorem State.serve_notPermitted {s : State} {m op : Nat} {lenOk : Nat → Bool} {act : State → State} (hdue : s.mbxDue m op = true)
    (hfatal : servedInFatal op = false) (h : (secureOnly op && !s.mbxSecure m || expertOnly op && !s.mbxExpert m) = true) :
    s.serve m op lenOk act = s.putResult m stNotPermitted [] := by
  unfold State.serve
  rw [Bool.or_eq_true] at h
  rcases h with h | h <;> simp [hdue, hfatal, h]

/-- Settles O10: the two checks refuse, and a command of function 0 with its session passes them. -/
theorem commandsNeedSession : Obligations.CommandsNeedSession := by
  refine ⟨fun c m op s hc hdue hexpert hsession => ?_, fun m s hdue hm hlc => ?_, fun m op s hop hm hdue hfatal hsession => ?_⟩
  · obtain ⟨lenOk, act, hexec⟩ := exec_eq_serve s hc (by rintro rfl; exact absurd hexpert (by decide))
    have hrefuse : s.serve m op lenOk act = s.putResult m stNotPermitted [] :=
      State.serve_notPermitted hdue (servedInFatal_of_expertOnly hexpert) (by simp [hexpert, hsession])
    exact ⟨s.putResult m stNotPermitted [], by rw [hexec, onMailbox_lt (State.lt_of_mbxDue hdue), hrefuse], sets_putResult s m (by decide) (by simp)⟩
  · have hworld : s.mbxSecure m = false := by
      simp only [State.mbxSecure, hlc, Bool.and_false, Bool.or_false, Bool.and_eq_false_iff, decide_eq_false_iff_not]
      omega
    have hrefuse : s.keyLoad m = s.putResult m stNotPermitted [] :=
      State.serve_notPermitted hdue rfl (by simp [hworld, secureOnly])
    refine ⟨s.putResult m stNotPermitted [], ?_, sets_putResult s m (by decide) (by simp)⟩
    rw [← hrefuse]
    exact onMailbox_lt (State.lt_of_mbxDue hdue) _
  · have hopen : s.mbxExpert m = true := by
      simp [State.mbxExpert, Nat.le_of_lt_succ hm, State.fb, hsession]
    have hnormal : secureOnly op = false := by
      have := List.all_eq_true.mp (show [0x0400, 0x0401, 0x0410, 0x0411, 0x0412, 0x0420, 0x0421, 0x0422, 0x0423, 0x0430, 0x0431, 0x0440, 0x0441, 0x0450, 0x0460, 0x0470, 0x0480,
        0x0490].all (fun op => !secureOnly op) = true by decide) op hop
      simpa using this
    simp [State.accepts, hdue, hfatal, hnormal, hopen]

end Sys2Proof.Machine

/-! GET_INFO, jobs and expert sessions (R55 to R59, R236). -/

namespace Sys2Proof.Machine

/-- A command that is served with a good length does its own action. -/
theorem exec_served {c : Instr} {s : State} {m op : Nat} {lenOk : Nat → Bool} {act : State → State} (hx : exec c s = onMailbox m (s.serve m op lenOk act))
    (ha : s.accepts m op = true) (hl : lenOk (s.mbxLen m) = true) : exec c s = .next (act s) := by
  rw [hx, State.serve_accepts ha hl, onMailbox_accepts ha]

/-- A little-endian number is read back, within its bytes. -/
theorem natOfLe_leBytes (n v : Nat) : natOfLe (leBytes n v) = v % 256 ^ n := by
  induction n generalizing v with
  | zero => simp [leBytes, natOfLe, Nat.mod_one]
  | succ k ih =>
    have head : natOfLe (leBytes (k + 1) v) = v % 256 + 256 * natOfLe (leBytes k (v / 256)) := by simp [leBytes, natOfLe]
    rw [head, ih, Nat.pow_succ, Nat.mul_comm (256 ^ k), Nat.mod_mul]

theorem infoBytes_length (s : State) : s.infoBytes.length = 48 := by
  unfold State.infoBytes
  simp only [List.length_append, leBytes_length]

theorem drop_leBytes {n k : Nat} (v : Nat) (h : n ≤ k) : (leBytes n v).drop k = [] := List.drop_eq_nil_of_le (by simpa using h)

theorem drop_leBytes_append (n v : Nat) (l : List Byte) : (leBytes n v ++ l).drop n = l := List.drop_left' (leBytes_length n v)

theorem take_leBytes_append (n v : Nat) (l : List Byte) : (leBytes n v ++ l).take n = leBytes n v := List.take_left' (leBytes_length n v)

/-- A number is found where the bytes before it end. -/
theorem leAt_of_drop {bs : List Byte} {o n v : Nat} (h : ∃ l, bs.drop o = leBytes n v ++ l) : leAt bs o n = v % 256 ^ n := by
  obtain ⟨l, h⟩ := h
  rw [leAt, sliceOf, h, take_leBytes_append, natOfLe_leBytes]

theorem byteAt_of_drop {bs : List Byte} {o v : Nat} (h : ∃ l, bs.drop o = leBytes 1 v ++ l) : byteAt bs o = v % 256 := by
  obtain ⟨l, h⟩ := h
  rw [byteAt, List.getD_eq_getElem?_getD, ← List.head?_drop, h]
  exact BitVec.toNat_ofNat v 8

/-- The bytes of GET_INFO from a place on, `n` of them the number `v`. -/
def InfoAt (s : State) (o n v : Nat) : Prop := ∃ l, s.infoBytes.drop o = leBytes n v ++ l

theorem infoAt_package (s : State) : InfoAt s 4 4 0x000E4200 := by
  unfold InfoAt State.infoBytes
  simp only [List.append_assoc]
  exact ⟨_, drop_leBytes_append _ _ _⟩

/-- What stands at the other places that the statement names (R56). -/
theorem infoAt_fields (s : State) : InfoAt s 0 4 0x92401F9B ∧ InfoAt s 20 1 s.stage ∧ InfoAt s 21 1 s.lc ∧
    InfoAt s 24 2 (s.f F.CLS_DEVICE_ADDR 0) ∧ InfoAt s 44 4 (s.f F.GLB_HEARTBEAT_COUNT 0) := by
  unfold InfoAt State.infoBytes
  simp only [List.append_assoc, List.drop_append, leBytes_length, Nat.reduceSub, drop_leBytes, Nat.reduceLeDiff, List.nil_append, List.drop_zero]
  exact ⟨⟨_, rfl⟩, ⟨_, rfl⟩, ⟨_, rfl⟩, ⟨_, rfl⟩, [], (List.append_nil _).symm⟩

theorem infoBytes_fields (s : State) : leAt s.infoBytes 0 4 = 0x92401F9B ∧ leAt s.infoBytes 4 4 = 0x000E4200 ∧
    byteAt s.infoBytes 20 = s.stage % 256 ∧ byteAt s.infoBytes 21 = s.lc % 256 ∧ leAt s.infoBytes 24 2 = s.f F.CLS_DEVICE_ADDR 0 % 65536 ∧
    leAt s.infoBytes 44 4 = s.f F.GLB_HEARTBEAT_COUNT 0 % 2 ^ 32 := by
  obtain ⟨hchip, hstage, hlc, hdevice, hbeat⟩ := infoAt_fields s
  exact ⟨leAt_of_drop hchip, leAt_of_drop (infoAt_package s), byteAt_of_drop hstage, byteAt_of_drop hlc, leAt_of_drop hdevice, leAt_of_drop hbeat⟩

/-- A running job of no further work ends well (R55). -/
theorem exec_jobDone {s u : State} {n st : Nat} {j : Job} (hj : s.job? n = some j) (hrun : j.state = .running) (hcp : s.pwr.cpHalted = false)
    (hwork : s.jobWork j.work true = some (u, st)) : exec (.jobDone n true) s = .next (u.endJob n (decide (st = stOk)) st) := by
  calc exec (.jobDone n true) s = .next (s.jobDone n true) := rfl
    _ = .next (u.endJob n (decide (st = stOk)) st) := by simp [State.jobDone, hj, hrun, hcp, hwork]

/-- The end of a job writes the job list and JOB_DONE of its mailbox. -/
theorem sets_endJob {s : State} {n st : Nat} {j : Job} (hj : s.job? n = some j) :
    Sets (s.withJobEnd n j st) [(F.MBX_STATUS_JOB_DONE, j.mbx, 1)] (s.endJob n (decide (st = stOk)) st) := by
  have heq : s.endJob n (decide (st = stOk)) st = (s.withJobEnd n j st).setF F.MBX_STATUS_JOB_DONE j.mbx 1 := by
    by_cases h : st = 0 <;> simp only [State.endJob, hj, State.withJobEnd, stOk, h, decide_true, decide_false, if_true, if_false, Bool.false_eq_true]
  rw [heq]
  exact (Sets.refl _).put F.MBX_STATUS_JOB_DONE j.mbx 1 (by simp) (by decide)

/-- Settles O11: the three commands by the result each writes. -/
theorem infoAndJobs : Obligations.InfoAndJobs := by
  refine ⟨fun s m ha hl => ?_, fun s => ⟨infoBytes_length s, infoBytes_fields s⟩, fun s m j ha hl hj _ => ?_, fun s m ha hl hj => ?_, fun s n j hj hrun hwork hcp => ?_⟩
  · exact ⟨_, exec_served (c := .getInfo m) rfl ha (by simp [hl]), sets_putResult s m (by decide) (by simp [infoBytes_length])⟩
  · refine ⟨_, exec_served (c := .jobStatus m) rfl ha (by simp [hl]), ?_⟩
    simp only [hj]
    exact sets_putResult s m (by decide) (by simp)
  · refine ⟨_, exec_served (c := .jobStatus m) rfl ha (by simp [hl]), ?_⟩
    simp only [hj]
    exact sets_putResult s m (by decide) (by simp)
  · exact ⟨_, exec_jobDone hj hrun hcp (by simp [hwork, State.jobWork, jobEnd, stOk]), sets_endJob hj⟩

/-- The three fields of a session are three different ones. -/
theorem sessionOf_codes (m : Nat) : (sessionOf m).1.code ≠ (sessionOf m).2.code ∧ (sessionOf m).1.code ≠ F.MBX_STATUS_EXPERT.code ∧ (sessionOf m).2.code ≠ F.MBX_STATUS_EXPERT.code := by
  unfold sessionOf
  split
  · decide
  · split <;> decide

/-- Their widths: a flag and a mailbox. -/
theorem sessionOf_len (m : Nat) : (sessionOf m).1.len = 1 ∧ (sessionOf m).2.len = 4 := by
  unfold sessionOf
  split
  · decide
  · split <;> decide

/-- No field of a session is one that a result or its tag depends on. -/
theorem sessionOf_apart {m : Nat} {l : List (Fld × Nat × Nat)} (h : ∀ e ∈ l, e.1 = (sessionOf m).1 ∨ e.1 = (sessionOf m).2 ∨ e.1 = F.MBX_STATUS_EXPERT) :
    ∀ e ∈ l, e.1.code ∉ [F.MBX_RESULT_DATA.code, F.MBX_STATUS_RESULT_PENDING.code, F.MBX_STATUS_HELD.code, F.MBX_STATUS_BUSY.code, F.MBX_COMMAND_DATA.code] := by
  intro e he
  have hx := h e he
  unfold sessionOf at hx
  split at hx
  · rcases hx with hx | hx | hx <;> rw [hx] <;> decide
  · split at hx <;> rcases hx with hx | hx | hx <;> rw [hx] <;> decide

/-- A session that opens (R58). -/
theorem sets_openSession (s : State) {m : Nat} (hm : m < 16) :
    Sets s [((sessionOf m).1, 0, 1), ((sessionOf m).2, 0, m), (F.MBX_STATUS_EXPERT, m, 1)] (s.openSession m) := by
  obtain ⟨h12, h13, h23⟩ := sessionOf_codes m
  obtain ⟨hl1, hl2⟩ := sessionOf_len m
  have h1 := (Sets.refl s).put (sessionOf m).1 0 1 (by simp) (by rw [hl1]; decide)
  have h2 := h1.put (sessionOf m).2 0 m (by simp [h12]) (by rw [hl2]; exact hm)
  exact h2.put F.MBX_STATUS_EXPERT m 1 (by simp [h13, h23]) (by decide)

/-- A session that ends while `m` holds it. -/
theorem sets_closeSession {s : State} {m h : Nat} (hopen : s.fb (sessionOf m).1 0 = true) (hholder : s.f (sessionOf m).2 0 = h) :
    Sets s [(F.MBX_STATUS_EXPERT, h, 0), ((sessionOf m).1, 0, 0), ((sessionOf m).2, 0, 0)] (s.closeSession m) := by
  obtain ⟨h12, h13, h23⟩ := sessionOf_codes m
  rw [State.closeSession, if_pos hopen, hholder]
  have h1 := (Sets.refl s).put F.MBX_STATUS_EXPERT h 0 (by simp) (by decide)
  have h2 := h1.put (sessionOf m).1 0 0 (by simp [h13.symm]) (Nat.two_pow_pos _)
  exact h2.put (sessionOf m).2 0 0 (by simp [h12, h23.symm]) (Nat.two_pow_pos _)

/-- A session of mailbox `m` is the one that its commands ask for. -/
theorem mbxExpert_eq (s : State) (m : Nat) : s.mbxExpert m = s.fb (sessionOf m).1 0 := by
  unfold State.mbxExpert sessionOf
  split
  · rfl
  · split <;> rfl

/-- An EXPERT_UNLOCK that passes the common checks acts on the state whose challenge is discarded (R59). -/
theorem exec_expertUnlock {s : State} {m : Nat} (ha : s.accepts m 0x00A1 = true) (hl : s.unlockSigned m = true → s.mbxLen m = 114) :
    exec (.expertUnlock m) s = .next
      (let t := s.setChallenge m []
       if s.mbxExpert m then t.putResult m stLocked []
       else if !s.unlockSigned m then (t.openSession m).putResult m stOk []
       else if s.challengeOf m = [] then t.putResult m stNotPermitted []
       else if Config.ed448Verify (s.otpKey 8) (s.challengeOf m) (s.mbxArgs m) then (t.openSession m).putResult m stOk []
       else t.putResult m stSigFail []) := by
  have ha' : (s.setChallenge m []).accepts m 0x00A1 = true := ha
  have hargs : (s.setChallenge m []).mbxLen m = s.mbxLen m := rfl
  have hlen : (fun n => if s.unlockSigned m then decide (n = 114) else true) ((s.setChallenge m []).mbxLen m) = true := by
    by_cases h : s.unlockSigned m = true
    · simpa [h, hargs] using hl h
    · simp [h]
  calc exec (.expertUnlock m) s = onMailbox m (s.expertUnlock m) := rfl
    _ = .next (s.expertUnlock m) := onMailbox_accepts ha _
    _ = _ := by
      rw [State.expertUnlock, State.spendChallenge_of_due (State.mbxDue_of_accepts ha), State.serve_accepts ha' hlen]
      rfl

/-- Settles O12: what each of the three commands writes, by the branch that its hypotheses choose. -/
theorem expertSessions : Obligations.ExpertSessions := by
  refine ⟨fun s m ha hl => ?_, fun s m ha hclosed hunsigned => ?_, fun s m ha hclosed hsigned hl hkept => ?_, fun s m ha hopen hl => ?_, fun s m ha hl hopen hholder => ?_⟩
  · have hlen : s.trng32.length ≤ 248 := by
      simp only [State.trng32, List.length_take]
      omega
    exact ⟨_, exec_served (c := .expertChallenge m) rfl ha (by simp [hl]), sets_putResult (s.draw.setChallenge m s.trng32) m (by decide) hlen⟩
  · refine ⟨_, exec_expertUnlock ha (by simp [hunsigned]), ?_⟩
    simp only [hclosed, hunsigned, Bool.false_eq_true, if_false, Bool.not_false, if_true]
    exact (sets_openSession (s.setChallenge m []) (State.lt_of_accepts ha)).putResult m 0 [] (sessionOf_apart (m := m) (by simp)) (by decide) (by simp)
  · refine ⟨_, exec_expertUnlock ha (fun _ => hl), ?_⟩
    simp only [hclosed, hsigned, hkept, Bool.false_eq_true, if_false, Bool.not_true]
    split
    · exact (sets_openSession (s.setChallenge m []) (State.lt_of_accepts ha)).putResult m 0 [] (sessionOf_apart (m := m) (by simp)) (by decide) (by simp)
    · exact sets_putResult (s.setChallenge m []) m (by decide) (by simp)
  · refine ⟨_, exec_expertUnlock ha hl, ?_⟩
    simp only [hopen, if_true]
    exact sets_putResult (s.setChallenge m []) m (by decide) (by simp)
  · refine ⟨_, exec_served (c := .expertLock m) rfl ha (by simp [hl]), ?_⟩
    simp only [hopen, hholder, and_self, if_true]
    exact (sets_closeSession (by rw [← mbxExpert_eq, hopen]) hholder).putResult m 0 [] (sessionOf_apart (m := m) (by simp)) (by decide) (by simp)

end Sys2Proof.Machine

/-! Firmware staging and verification, and the commands of ROM_RECOVERY (R48, R49, R65). -/

namespace Sys2Proof.Machine

/-- The arguments of a command are no more bytes than its LEN. -/
theorem mbxArgs_length_le (s : State) (m : Nat) : (s.mbxArgs m).length ≤ s.mbxLen m := List.length_take_le _ _

theorem mbxCommand_length (s : State) (m : Nat) : (s.mbxCommand m).length = 256 := by
  simp [State.mbxCommand, List.length_flatMap]

/-- A LEN of at most 248 is the number of argument bytes (R52). -/
theorem mbxArgs_length {s : State} {m : Nat} (h : s.mbxLen m ≤ 248) : (s.mbxArgs m).length = s.mbxLen m := by
  simp only [State.mbxArgs, List.length_take, List.length_drop, mbxCommand_length]
  omega

/-- A job that starts: it is entered and its number answered (R55). -/
theorem sets_startJob (s : State) (m : Nat) (w : JobWork) :
    Sets (s.withJob m w) (answer m (s.mbxTag m) 1 (leBytes 4 s.fw.nextJob)) (s.startJob m w) :=
  sets_putResult (s.withJob m w) m (by decide) (by simp)

/-- The three ends of FW_VERIFY's checks: an error of the image, the running image's HANDOVER_VERSION, another one. -/
theorem verifySlot_cases (s : State) :
    (∃ e, s.checkImage s.inactive = .error e ∧ s.verifySlot = (s, imageStatus e)) ∨
    (∃ i, s.checkImage s.inactive = .ok i ∧ i.handover = s.fw.image.handover ∧ s.verifySlot = (s.withFw (fun w => { w with verified := some i }), stOk)) ∨
    (∃ i, s.checkImage s.inactive = .ok i ∧ ¬ i.handover = s.fw.image.handover ∧ s.verifySlot = (s, stBadArg)) := by
  unfold State.verifySlot
  generalize s.checkImage s.inactive = r
  cases r with
  | error e => exact .inl ⟨e, rfl, rfl⟩
  | ok i =>
    by_cases hver : i.handover = s.fw.image.handover
    · exact .inr (.inl ⟨i, rfl, hver, if_neg (not_not.mpr hver)⟩)
    · exact .inr (.inr ⟨i, rfl, hver, if_pos hver⟩)

theorem jobWork_verify (s : State) : s.jobWork .verify true = some s.verifySlot :=
  congrArg some (if_pos (e := (s, stInternal)) rfl)

/-- Settles O14: staging and verification, each by the branch that its hypotheses choose. -/
theorem stageAndVerify : Obligations.StageAndVerify := by
  refine ⟨fun s m ha h6 h245 hflags hfits => ?_, fun s m ha h6 h245 hflags hoff => ?_, fun s m ha hl => ?_, fun s n j hj hrun hwork hcp => ?_⟩
  · refine ⟨_, exec_served (c := .fwStage m) rfl ha (by simp [h6, h245]), ?_⟩
    simp only [hflags, slotSize, Nat.not_lt.mpr hfits, Nat.reduceLeDiff, Nat.zero_mod, zero_ne_one, false_and, or_self, if_false]
    exact sets_putResult ((s.withFw (fun w => { w with verified := none })).program (slotBase s.inactive + leAt (s.mbxArgs m) 0 4) ((s.mbxArgs m).drop 5)) m (by decide) (by simp)
  · have hfits : ¬ slotSize < 0 + ((s.mbxArgs m).drop 5).length := by
      have := mbxArgs_length_le s m
      simp only [slotSize, List.length_drop]
      omega
    refine ⟨_, exec_served (c := .fwStage m) rfl ha (by simp [h6, h245]), ?_⟩
    simp only [hflags, hoff, hfits, Nat.reduceLeDiff, Nat.one_mod, ne_eq, not_true_eq_false, and_false, or_self, if_false, if_true]
    exact sets_startJob (s.withFw (fun w => { w with verified := none })) m (.stage s.inactive 0 ((s.mbxArgs m).drop 5))
  · exact ⟨_, exec_served (c := .fwVerify m) rfl ha (by simp [hl]), sets_startJob s m .verify⟩
  · have hend : s.jobWork j.work true = some s.verifySlot := hwork ▸ jobWork_verify s
    rcases verifySlot_cases s with ⟨e, hi, hverify⟩ | ⟨i, hi, hver, hverify⟩ | ⟨i, hi, hver, hverify⟩ <;> rw [hverify] at hend
    · exact ⟨_, exec_jobDone hj hrun hcp hend, by rw [hi]; exact sets_endJob hj⟩
    · refine ⟨_, exec_jobDone hj hrun hcp hend, ?_⟩
      simp only [hi, hver, if_true]
      exact sets_endJob (s := s.withFw (fun w => { w with verified := some i })) hj
    · refine ⟨_, exec_jobDone hj hrun hcp hend, ?_⟩
      simp only [hi, hver, if_false]
      exact sets_endJob hj

theorem flashBytes_length (s : State) (a n : Nat) : (s.flashBytes a n).length = n := by simp [State.flashBytes, Tab.getList]

/-- A recovery command acts as `State.recover` says. -/
theorem exec_recovers {c : Instr} {s : State} {m op : Nat} {lenOk : Nat → Bool} {act : State → State} (hx : exec c s = onMailbox m (s.recover m op lenOk act))
    (hr : s.recovers m op = true) (hl : lenOk (s.mbxLen m) = true) : exec c s = .next (act s) := by
  rw [hx, State.recover_ok hr hl, onMailbox_lt (State.lt_of_romDue (Bool.and_eq_true_iff.mp hr).1)]

/-- Settles O16: each recovery command by its own action. -/
theorem romRecovery : Obligations.RomRecovery := by
  refine ⟨fun s m hdue => ?_, fun s m hr hl h1 h240 => ?_, fun s m hr hl hblock => ?_, fun s m hr h6 h245 hl => ?_, fun s m hr hfatal => ?_⟩
  · refine ⟨s.romInfo m, onMailbox_lt (State.lt_of_romDue hdue) _, ?_⟩
    rw [State.romInfo, hdue]
    exact sets_putResult s m (by decide) (by simp)
  · refine ⟨_, exec_recovers (c := .flashRead m) rfl hr (by simp [hl]), ?_⟩
    simp only [Nat.not_lt.mpr h240, Nat.ne_of_gt h1, or_self, if_false]
    exact sets_putResult s m (by decide) (by rw [flashBytes_length]; omega)
  · refine ⟨_, exec_recovers (c := .flashErase m) rfl hr (by simp [hl]), ?_⟩
    simp only [hblock, ne_eq, not_true_eq_false, if_false]
    exact sets_putResult (s.erase (leAt (s.mbxArgs m) 0 4) 65536) m (by decide) (by simp)
  · have hgood : ¬ (byteAt (s.mbxArgs m) 4 = 0 ∨ 240 < byteAt (s.mbxArgs m) 4 ∨ (s.mbxArgs m).length ≠ 5 + byteAt (s.mbxArgs m) 4) := by
      have := mbxArgs_length (s := s) (m := m) (by omega)
      omega
    refine ⟨_, exec_recovers (c := .flashWrite m) rfl hr (by simp [h6, h245]), ?_⟩
    simp only [hgood, if_false]
    exact sets_putResult (s.program (leAt (s.mbxArgs m) 0 4) ((s.mbxArgs m).drop 5)) m (by decide) (by simp)
  · have hr' := hr
    simp only [State.recovers, Bool.and_eq_true, decide_eq_true_eq] at hr'
    calc exec (.romReset m) s = onMailbox m (s.romReset m) := rfl
      _ = .next (s.romReset m) := onMailbox_lt (State.lt_of_romDue hr'.1) _
      _ = .next s.coreReset := by simp [State.romReset, hr'.1, hr'.2, State.chipReset, hfatal]

end Sys2Proof.Machine

/-! Register accesses (R8, R9, R12): what a permitted access of a register without a latched pair does; REG_READ and REG_WRITE; mailbox registers (R50 to R54). -/

namespace Sys2Proof.Machine

theorem onInstance_true (s : State) : onInstance true s = .next s := rfl

theorem onInstance_of {p : Bool} (h : p = true) (s : State) : onInstance p s = .next s := by rw [h, onInstance_true]

/-- A permitted write of a register that is in no wide pair is the register's own write. -/
theorem regWriteBy_eq {s : State} {o : Origin} {r : RegId} {i : Nat} (w : Word) (h : s.writeOk o r i = true) (ha : regAt (r.addr i) = some (r, i))
    (hs : staleUppers r = []) : s.regWriteBy o r i w = s.writeReg o r i w.toNat := by
  rw [State.regWriteBy_ok h ha, State.writeLatched, hs]
  rfl

/-- A read of a register that is in no wide pair is the register's own read. -/
theorem readLatched_eq (s : State) (o : Origin) {r : RegId} (i : Nat) (hu : upperOf r = none) (hn : isUpper r = false) :
    s.readLatched o r i = s.readReg o r i := by
  simp [State.readLatched, hu, hn]

theorem busRead_eq {s : State} {o : Origin} {r : RegId} {i : Nat} (h : s.readOk o r i = true) (ha : regAt (r.addr i) = some (r, i))
    (hu : upperOf r = none) (hn : isUpper r = false) : s.busRead o (r.addr i) = State.answer (s.readReg o r i) := by
  rw [State.busRead_ok h ha, readLatched_eq s o i hu hn]

/-- Fields written twice: the later write counts. -/
theorem Sets.absorb {s t u : State} {l l' : List (Fld × Nat × Nat)} (h : Sets s l t) (h' : Sets t l' u)
    (hl : ∀ e ∈ l, ∃ e' ∈ l', e.1.code = e'.1.code ∧ e.2.1 = e'.2.1) : Sets s l' u := by
  obtain ⟨hst, -, hkept⟩ := h
  obtain ⟨htu, hset', hkept'⟩ := h'
  refine ⟨?_, hset', fun x i hx => ?_⟩
  · rw [htu, hst]
  · rw [hkept' x i hx]
    refine hkept x i fun e he hc => ?_
    obtain ⟨e', he', hcode, hinst⟩ := hl e he
    exact hx e' he' ⟨hc.1.trans hcode, hc.2.trans hinst⟩

/-- No field of the list has the code `c`; decided by the fields alone, whatever their instances and values. -/
def codesAvoid (l : List (Fld × Nat × Nat)) (cs : List Nat) : Bool := l.all (fun e => !cs.contains e.1.code)

theorem not_mem_of_codesAvoid {l : List (Fld × Nat × Nat)} {cs : List Nat} (h : codesAvoid l cs = true) : ∀ e ∈ l, e.1.code ∉ cs := by
  intro e he
  simpa using List.all_eq_true.mp h e he

/-- One more write, of a field that is not in the list. -/
theorem Sets.putNew {s t : State} {l : List (Fld × Nat × Nat)} (h : Sets s l t) (x : Fld) (i v : Nat) (hl : codesAvoid l [x.code] = true) (hv : v < 2 ^ x.len) :
    Sets s (l ++ [(x, i, v)]) (t.setF x i v) :=
  h.put x i v (fun e he hc => not_mem_of_codesAvoid hl e he (by simp [hc.1])) hv

/-- A result on a state that differs in fields of no mailbox area. -/
theorem Sets.putAnswer {s t : State} {l : List (Fld × Nat × Nat)} (h : Sets s l t) (m status : Nat) (data : List Byte)
    (hl : codesAvoid l [F.MBX_RESULT_DATA.code, F.MBX_STATUS_RESULT_PENDING.code, F.MBX_STATUS_HELD.code, F.MBX_STATUS_BUSY.code, F.MBX_COMMAND_DATA.code] = true)
    (hs : status < 65536) (hd : data.length ≤ 248) : Sets s (l ++ answer m (s.mbxTag m) status data) (t.putResult m status data) :=
  h.putResult m status data (not_mem_of_codesAvoid hl) hs hd

/-- The words of the last read stand outside the registers. -/
theorem Sets.withReadData {s t : State} {l : List (Fld × Nat × Nat)} (h : Sets s l t) (d : List Nat) : Sets { s with readData := d } l { t with readData := d } := by
  obtain ⟨hst, hset, hkept⟩ := h
  exact ⟨by rw [hst], hset, hkept⟩

-- ## REG_READ and REG_WRITE (R59)

theorem offsetSecure_scratch (s : State) : s.offsetSecure 0x20 = false := rfl

theorem mayWrite_scratch (s : State) (o : Origin) : s.mayWrite o 0x20 = true :=
  State.mayWrite_of_freeWrite s (by rw [freeWrite, show regAt 0x20 = some (.GLB_SCRATCH, 0) from regAt_GLB_SCRATCH]; exact Bool.or_true _)

/-- GLB_SCRATCH reads its value in every world, and the read changes nothing. -/
theorem readAt_scratch (s : State) (o : Origin) : s.readAt o 0x20 = (s, s.f F.GLB_SCRATCH_VALUE 0) := by
  have hreg : regAt 0x20 = some (.GLB_SCRATCH, 0) := regAt_GLB_SCRATCH
  have hview : s.view .GLB_SCRATCH 0 (Origin.secure o s) = s.f F.GLB_SCRATCH_VALUE 0 := by
    simp [State.view, State.plainWord, RegId.info, State.inst, F.GLB_SCRATCH_VALUE]
  unfold State.readAt
  rw [offsetSecure_scratch, hreg, show remoteWindow 0x20 = false from rfl, show otpWindow 0x20 = false from rfl]
  simp only [Bool.false_and, Bool.and_false, Bool.false_eq_true, if_false]
  rw [readLatched_eq s o 0 rfl rfl]
  exact congrArg (Prod.mk s) hview

/-- GLB_SCRATCH takes a word from every originator. -/
theorem writeAt_scratch (s : State) (o : Origin) (w : Nat) : s.writeAt o 0x20 w 15 = s.setF F.GLB_SCRATCH_VALUE 0 w := by
  have hreg : regAt 0x20 = some (.GLB_SCRATCH, 0) := regAt_GLB_SCRATCH
  have hfield : F.GLB_SCRATCH_VALUE.of w = w % 2 ^ 32 := by simp [Fld.of, F.GLB_SCRATCH_VALUE]
  have hset : s.setF F.GLB_SCRATCH_VALUE 0 (w % 2 ^ 32) = s.setF F.GLB_SCRATCH_VALUE 0 w := by
    simp [State.setF, F.GLB_SCRATCH_VALUE]
  unfold State.writeAt
  rw [offsetSecure_scratch, mayWrite_scratch, hreg, show remoteWindow 0x20 = false from rfl, ← hset, ← hfield]
  simp only [Bool.false_and, Bool.and_false, Bool.not_true, Bool.false_eq_true, if_false, Nat.reduceMod, if_true]
  rfl

theorem leBytes_leAt_four (w : Nat) (h : w < 2 ^ 32) : leAt (leBytes 4 w) 0 4 = w := by
  rw [leAt, sliceOf, List.drop_zero, List.take_of_length_le (by simp), natOfLe_leBytes]
  exact Nat.mod_eq_of_lt h

/-- Settles O13: the words of the run by REG_READ's own action; at GLB_SCRATCH by its reads and writes. -/
theorem registerCommands : Obligations.RegisterCommands := by
  have hread : ∀ (s : State) (m a n : Nat), s.accepts m 0x0400 = true → s.mbxLen m = 5 → a = leAt (s.mbxArgs m) 0 4 → n = byteAt (s.mbxArgs m) 4 → 1 ≤ n → n ≤ 62 → a % 4 = 0 →
      a + 4 * n ≤ 0x4000000 → exec (.regRead m) s = .next ((s.readWords (mbxOrigin m) a n).1.putResult m 0 ((s.readWords (mbxOrigin m) a n).2.flatMap (leBytes 4))) := by
    rintro s m a n ha hl rfl rfl h1 h62 halign hfits
    rw [exec_served (c := .regRead m) rfl ha (by simp [hl])]
    simp only [spanOk, halign, hfits, Nat.ne_of_gt h1, Nat.not_lt.mpr h62, decide_true, Bool.and_self, Bool.not_true, Bool.false_eq_true, or_self, if_false]
    rfl
  refine ⟨hread, fun s m ha hl hoff hcount => ?_, fun s m ha hl hoff => ?_⟩
  · refine ⟨_, hread s m 0x20 1 ha hl hoff.symm hcount.symm (by decide) (by decide) (by decide) (by decide), ?_⟩
    simp only [State.readWords, readAt_scratch, List.flatMap_cons, List.flatMap_nil, List.append_nil]
    exact sets_putResult s m (by decide) (by simp)
  · refine ⟨_, exec_served (c := .regWrite m) rfl ha (by simp [hl]), ?_⟩
    have hword : leAt ((s.mbxArgs m).drop 4) 0 4 = leAt (s.mbxArgs m) 4 4 := by simp [leAt, sliceOf]
    have hspan : spanOk 0x20 1 = true := by decide
    simp only [hl, hoff, wordsOf, Nat.reduceSub, Nat.reduceDiv, List.range_one, List.map_cons, List.map_nil, Nat.mul_zero, List.length_singleton, hspan, Bool.not_true,
      Bool.false_eq_true, if_false, State.writeWords, writeAt_scratch, hword]
    exact ((Sets.refl s).putNew F.GLB_SCRATCH_VALUE 0 _ rfl (leAt_lt _ _ _)).putAnswer m 0 [] rfl (by decide) (by simp)

-- ## Mailbox registers (R50 to R54)

theorem exec_doorbell {s : State} {o : Origin} {n : Nat} {w : Word} (hn : n < 16) (hw : s.writeOk o .MBX_DOORBELL n = true) (hgo : w.toNat.testBit 0 = true) :
    exec (.mbxDoorbell o n w) s = .next (s.doorbell n) := by
  calc exec (.mbxDoorbell o n w) s = onMailbox n (s.regWriteBy o .MBX_DOORBELL n w) := rfl
    _ = .next (s.writeReg o .MBX_DOORBELL n w.toNat) := by rw [onMailbox_lt hn, regWriteBy_eq w hw (regAt_MBX_DOORBELL hn) (by decide)]
    _ = .next (s.doorbell n) := congrArg _ (if_pos hgo)

/-- A doorbell at a mailbox that is neither busy nor has a result pending. -/
theorem doorbell_free {s : State} {n : Nat} (hbusy : s.f F.MBX_STATUS_BUSY n = 0) (hpending : s.f F.MBX_STATUS_RESULT_PENDING n = 0) :
    s.doorbell n = ((s.setF F.MBX_STATUS_BUSY n 1).setF F.MBX_STATUS_HELD n (if decide (s.stage ≠ 4) && !(decide (s.stage = 2) && decide (n = 0)) then 1 else 0)).answerUnknown n :=
  if_neg (by simp [State.fb, hbusy, hpending])

/-- BUSY and HELD written at a doorbell. -/
theorem sets_busyHeld (s : State) (n : Nat) {h : Nat} (hh : h < 2) :
    Sets s [(F.MBX_STATUS_BUSY, n, 1), (F.MBX_STATUS_HELD, n, h)] ((s.setF F.MBX_STATUS_BUSY n 1).setF F.MBX_STATUS_HELD n h) :=
  ((Sets.refl s).putNew F.MBX_STATUS_BUSY n 1 rfl (by decide)).putNew F.MBX_STATUS_HELD n h rfl hh

/-- A field whose code is not written. -/
theorem Sets.f_eq {s t : State} {l : List (Fld × Nat × Nat)} (h : Sets s l t) (x : Fld) (i : Nat) (hl : codesAvoid l [x.code] = true) : t.f x i = s.f x i :=
  h.2.2 x i fun e he hc => not_mem_of_codesAvoid hl e he (by simp [hc.1])

/-- Where BUSY and HELD alone changed, stage, opcode, tag and FATAL are as before. -/
theorem busyHeld_reads {s t : State} {n h : Nat} (hs : Sets s [(F.MBX_STATUS_BUSY, n, 1), (F.MBX_STATUS_HELD, n, h)] t) :
    t.stage = s.stage ∧ t.mbxOpcode n = s.mbxOpcode n ∧ t.mbxTag n = s.mbxTag n ∧ t.fatal = s.fatal := by
  have hcommand := hs.f_eq F.MBX_COMMAND_DATA (64 * n + 0) rfl
  refine ⟨hs.f_eq _ _ rfl, ?_, ?_, ?_⟩
  · rw [State.mbxOpcode, State.mbxWord, hcommand]; rfl
  · rw [State.mbxTag, State.mbxWord, hcommand]; rfl
  · rw [State.fatal, State.fb, hs.f_eq F.FLT_STATUS_FATAL 0 rfl]; rfl

/-- A held doorbell is not looked at yet. -/
theorem answerUnknown_held {t : State} {n : Nat} (h : t.f F.MBX_STATUS_HELD n = 1) : t.answerUnknown n = t :=
  if_neg (by simp [State.fb, h])

theorem answerUnknown_known {t : State} {n : Nat} (hstage : t.stage = 4) (hop : t.mbxOpcode n ∈ knownOpcodes) : t.answerUnknown n = t := by
  simp [State.answerUnknown, hstage, hop]

theorem answerUnknown_unknown {t : State} {n : Nat} (hbusy : t.f F.MBX_STATUS_BUSY n = 1) (hheld : t.f F.MBX_STATUS_HELD n = 0) (hstage : t.stage = 4)
    (hfatal : t.fatal = false) (hop : t.mbxOpcode n ∉ knownOpcodes) : t.answerUnknown n = t.putResult n stUnknown [] := by
  simp [State.answerUnknown, State.fb, hbusy, hheld, hstage, hop, hfatal]

theorem exec_resultAck {s : State} {o : Origin} {n : Nat} {w : Word} (hn : n < 16) (hw : s.writeOk o .MBX_RESULT_ACK n = true) (hack : w.toNat.testBit 0 = true) :
    exec (.mbxResultAck o n w) s = .next (s.resultAck n) := by
  calc exec (.mbxResultAck o n w) s = onMailbox n (s.regWriteBy o .MBX_RESULT_ACK n w) := rfl
    _ = .next (s.writeReg o .MBX_RESULT_ACK n w.toNat) := by rw [onMailbox_lt hn, regWriteBy_eq w hw (regAt_MBX_RESULT_ACK hn) (by decide)]
    _ = .next (s.resultAck n) := congrArg _ (if_pos hack)

/-- The header word of a result and the word after it, as reads of their own. -/
theorem readLatched_header (s : State) (o : Origin) (n : Nat) : s.readLatched o .MBX_RESULT (64 * n) = s.headerRead n := by
  rw [readLatched_eq s o _ (by decide) (by decide)]
  simp [State.readReg]

theorem readLatched_resultWord (s : State) (o : Origin) (n : Nat) : s.readLatched o .MBX_RESULT (64 * n + 1) = (s, s.f F.MBX_RESULT_DATA (64 * n + 1)) := by
  have hview : s.view .MBX_RESULT (64 * n + 1) (Origin.secure o s) = s.f F.MBX_RESULT_DATA (64 * n + 1) := by
    simp [State.view, State.plainWord, RegId.info, State.inst, F.MBX_RESULT_DATA]
  have hplace : ¬ (64 * n + 1) % 64 = 0 := by omega
  rw [readLatched_eq s o _ (by decide) (by decide)]
  exact (if_neg hplace).trans (congrArg (Prod.mk s) hview)

theorem regAt_resultWord {n : Nat} (h : n < 16) : regAt (RegId.MBX_RESULT.addr (64 * n) + 4) = some (.MBX_RESULT, 64 * n + 1) := by
  have key : (List.range 16).all (fun k => decide (regAt (RegId.MBX_RESULT.addr (64 * k) + 4) = some (.MBX_RESULT, 64 * k + 1))) = true := by decide +kernel
  exact of_decide_eq_true (List.all_eq_true.mp key n (List.mem_range.mpr h))

/-- A read that passes the checks of `readOk`, at any offset with those checks. -/
theorem readAt_eq {s : State} {o : Origin} {a i : Nat} {r : RegId} (ha : regAt a = some (r, i)) (hworld : s.regSecure r i = true → Origin.secure o s = true)
    (hremote : (Origin.host o && remoteWindow a) = false) : s.readAt o a = s.readLatched o r i := by
  have hsec : (s.regSecure r i && !Origin.secure o s) = false := by
    cases hr : s.regSecure r i with
    | false => rfl
    | true => simp [hworld hr]
  simp only [State.readAt, State.offsetSecure, otpWindow_of_regAt ha, ha, Option.any_some, Bool.false_or, hsec, hremote, Bool.false_eq_true, if_false]

/-- What `readOk` says, taken apart. -/
theorem readOk_iff {s : State} {o : Origin} {r : RegId} {i : Nat} : s.readOk o r i = true ↔
    Origin.present o s = true ∧ (s.regSecure r i = true → Origin.secure o s = true) ∧ (Origin.host o && remoteWindow (r.addr i)) = false := by
  cases hr : s.regSecure r i <;> cases ho : Origin.host o <;> simp [State.readOk, hr, ho, and_assoc]


/-- The answer UNKNOWN_OPCODE to a doorbell at FW_READY: BUSY and HELD, written first, are the answer's own fields. -/
theorem sets_answerUnknown {s t : State} {n : Nat} (hs : Sets s [(F.MBX_STATUS_BUSY, n, 1), (F.MBX_STATUS_HELD, n, 0)] t) (hstage : s.stage = 4)
    (hfatal : s.fatal = false) (hop : s.mbxOpcode n ∉ knownOpcodes) : Sets s (answer n (s.mbxTag n) stUnknown []) (t.answerUnknown n) := by
  obtain ⟨hstage', hop', htag', hfatal'⟩ := busyHeld_reads hs
  obtain ⟨-, hval, -⟩ := id hs
  have hbusy : t.f F.MBX_STATUS_BUSY n = 1 := hval (F.MBX_STATUS_BUSY, n, 1) (by simp)
  have hheld : t.f F.MBX_STATUS_HELD n = 0 := hval (F.MBX_STATUS_HELD, n, 0) (by simp)
  rw [answerUnknown_unknown hbusy hheld (hstage'.trans hstage) (hfatal'.trans hfatal) (by rwa [hop']), ← htag']
  refine hs.absorb (sets_putResult t n (by decide) (by simp)) fun e he => ?_
  rcases List.mem_cons.mp he with rfl | he
  · exact ⟨(F.MBX_STATUS_BUSY, n, 0), by simp [answer], rfl, rfl⟩
  · obtain rfl := List.mem_singleton.mp he
    exact ⟨(F.MBX_STATUS_HELD, n, 0), by simp [answer], rfl, rfl⟩

/-- The header word after one more read of it (R53). -/
def nextHeader (w : Nat) : Nat := if w / 2 ^ 16 % 256 = 255 then w else w + 2 ^ 16

theorem headerRead_eq (s : State) (n : Nat) : s.headerRead n =
    (s.setF F.MBX_RESULT_DATA (64 * n) (nextHeader (s.f F.MBX_RESULT_DATA (64 * n))), nextHeader (s.f F.MBX_RESULT_DATA (64 * n))) := rfl

theorem sets_headerRead (s : State) (n : Nat) (d : List Nat) : Sets { s with readData := d } [(F.MBX_RESULT_DATA, 64 * n, nextHeader (s.f F.MBX_RESULT_DATA (64 * n)) % 2 ^ 32)]
    { (s.headerRead n).1 with readData := d } :=
  ((Sets.refl s).snoc F.MBX_RESULT_DATA (64 * n) (nextHeader (s.f F.MBX_RESULT_DATA (64 * n))) (by simp)).withReadData d

theorem exec_headerRead {s : State} {o : Origin} {n : Nat} (hn : n < 16) (hr : s.readOk o .MBX_RESULT (64 * n) = true) :
    exec (.mbxResultHeaderRead o n false) s = .next { (s.headerRead n).1 with readData := [(s.headerRead n).2] } := by
  calc exec (.mbxResultHeaderRead o n false) s = onMailbox n (s.busRead o (RegId.MBX_RESULT.addr (64 * n))) := rfl
    _ = .next (State.answer (s.readLatched o .MBX_RESULT (64 * n))) := by rw [onMailbox_lt hn, State.busRead_ok hr (regAt_header hn)]
    _ = .next { (s.headerRead n).1 with readData := [(s.headerRead n).2] } := by rw [readLatched_header]; rfl

/-- A 64-bit read of the header returns the status word behind it, which the first read leaves as it is. -/
theorem exec_headerRead_wide {s : State} {o : Origin} {n : Nat} (hn : n < 16) (hr : s.readOk o .MBX_RESULT (64 * n) = true) :
    exec (.mbxResultHeaderRead o n true) s = .next { (s.headerRead n).1 with readData := [(s.headerRead n).2, s.f F.MBX_RESULT_DATA (64 * n + 1)] } := by
  obtain ⟨hpresent, hworld, hremote⟩ := readOk_iff.mp hr
  have hquot : (64 * n + 1) / 64 = n := by omega
  have hworld' : s.regSecure .MBX_RESULT (64 * n + 1) = true → Origin.secure o s = true := by
    simpa only [State.regSecure, RegId.info, hquot, Nat.mul_div_cancel_left n (show 0 < 64 by decide)] using hworld
  have hremote' : (Origin.host o && remoteWindow (RegId.MBX_RESULT.addr (64 * n) + 4)) = false := by
    simp only [remoteWindow, RegId.addr, RegId.info, Nat.mul_div_cancel_left n (show 0 < 64 by decide), Nat.mul_mod_right, Bool.and_eq_false_iff, decide_eq_false_iff_not] at hremote ⊢
    exact hremote.imp_right (fun h => by omega)
  have hread : s.readAt o (RegId.MBX_RESULT.addr (64 * n)) = s.headerRead n :=
    (readAt_eq (regAt_header hn) hworld hremote).trans (readLatched_header s o n)
  have hread' : (s.headerRead n).1.readAt o (RegId.MBX_RESULT.addr (64 * n) + 4) = ((s.headerRead n).1, s.f F.MBX_RESULT_DATA (64 * n + 1)) := by
    have hworldAfter : (s.headerRead n).1.regSecure .MBX_RESULT (64 * n + 1) = true → Origin.secure o (s.headerRead n).1 = true := by
      have harea : (s.headerRead n).1.regSecure .MBX_RESULT (64 * n + 1) = s.regSecure .MBX_RESULT (64 * n + 1) := rfl
      have hlc : (s.headerRead n).1.lc = s.lc := State.f_setF_code _ _ _ _ _ _ (by decide)
      have hreader : Origin.secure o (s.headerRead n).1 = Origin.secure o s := by cases o <;> simp [Origin.secure, State.openLc, hlc]
      rwa [harea, hreader]
    rw [readAt_eq (regAt_resultWord hn) hworldAfter hremote', readLatched_resultWord]
    exact congrArg (Prod.mk _) (State.f_setF_inst _ _ _ _ _ (by omega))
  calc exec (.mbxResultHeaderRead o n true) s = onMailbox n (s.busRead64 o (RegId.MBX_RESULT.addr (64 * n))) := rfl
    _ = .next { (s.headerRead n).1 with readData := [(s.headerRead n).2, s.f F.MBX_RESULT_DATA (64 * n + 1)] } := by
      rw [onMailbox_lt hn, State.busRead64, if_pos hpresent]
      simp only [hread, hread']

/-- Settles O20: by what a doorbell, an acknowledgement and a read of the header do. -/
theorem mailboxRegisters : Obligations.MailboxRegisters := by
  refine ⟨fun s o n w hn hw hgo hbusy hpending hstage hop => ?_, fun s o n w hn hw hgo hbusy hpending hstage hstage' => ?_, fun s o n w hn hw hgo hfull => ?_,
    fun s o n w hn hw hgo hbusy hpending hstage hfatal hop => ?_, fun s o n w hn hw hack hvalid => ?_, fun s o n hn hr => ⟨⟨_, exec_headerRead hn hr, ?_⟩, ⟨_, exec_headerRead_wide hn hr, ?_⟩⟩⟩
  · have hs := sets_busyHeld s n (h := 0) (by decide)
    obtain ⟨hstage', hop', -, -⟩ := busyHeld_reads hs
    refine ⟨_, exec_doorbell hn hw hgo, ?_⟩
    rw [doorbell_free hbusy hpending]
    simp only [hstage, ne_eq, not_true_eq_false, decide_false, Bool.false_and, Bool.false_eq_true, if_false]
    rwa [answerUnknown_known (hstage'.trans hstage) (by rwa [hop'])]
  · have hs := sets_busyHeld s n (h := 1) (by decide)
    obtain ⟨-, hval, -⟩ := id hs
    refine ⟨_, exec_doorbell hn hw hgo, ?_⟩
    rw [doorbell_free hbusy hpending]
    simp only [hstage, hstage', ne_eq, not_false_eq_true, decide_true, decide_false, Bool.false_and, Bool.not_false, Bool.and_self, if_true]
    rwa [answerUnknown_held (hval (F.MBX_STATUS_HELD, n, 1) (by simp))]
  · refine ⟨_, exec_doorbell hn hw hgo, ?_⟩
    rw [State.doorbell, if_pos (by simpa [State.fb] using hfull)]
    exact (Sets.refl s).putNew F.MBX_STATUS_OVERRUN n 1 rfl (by decide)
  · refine ⟨_, exec_doorbell hn hw hgo, ?_⟩
    rw [doorbell_free hbusy hpending]
    simp only [hstage, ne_eq, not_true_eq_false, decide_false, Bool.false_and, Bool.false_eq_true, if_false]
    exact sets_answerUnknown (sets_busyHeld s n (h := 0) (by decide)) hstage hfatal hop
  · refine ⟨_, exec_resultAck hn hw hack, ?_⟩
    rw [State.resultAck, if_pos hvalid]
    exact ((Sets.refl s).snoc F.MBX_RESULT_DATA (64 * n) _ (by simp)).putNew F.MBX_STATUS_RESULT_PENDING n 0 rfl (by decide)
  · exact sets_headerRead s n _
  · exact sets_headerRead s n _

end Sys2Proof.Machine

/-! Hardware semaphores (R60 to R62). -/

namespace Sys2Proof.Machine

theorem owner_lt (o : Origin) : Origin.owner o < 16 := by cases o <;> decide

theorem owner_ne_zero (o : Origin) : Origin.owner o ≠ 0 := by cases o <;> decide

theorem exec_semLockRead {s : State} {o : Origin} {n : Nat} (hn : n < 64) (hr : s.readOk o .SEM_LOCK n = true) :
    exec (.semLockRead o n) s = .next (State.answer (s.semRead n (Origin.owner o))) := by
  calc exec (.semLockRead o n) s = onInstance (semOk n) (s.busRead o (RegId.SEM_LOCK.addr n)) := rfl
    _ = .next (State.answer (s.readReg o .SEM_LOCK n)) := by rw [onInstance_of (show semOk n = true from decide_eq_true hn), busRead_eq hr (regAt_SEM_LOCK hn) (by decide) (by decide)]
    _ = .next (State.answer (s.semRead n (Origin.owner o))) := rfl

/-- SEM_RELEASE and CLEAR_BROKEN are both writes of the lock's word. -/
theorem regWriteBy_semRelease {s : State} {o : Origin} {n : Nat} (w : Word) (hn : n < 64) (hw : s.writeOk o .SEM_RELEASE n = true) :
    s.regWriteBy o .SEM_RELEASE n w = s.semWrite n (Origin.owner o) w.toNat :=
  regWriteBy_eq w hw (regAt_SEM_RELEASE hn) (by decide)

theorem exec_semRelease {s : State} {o : Origin} {n : Nat} (w : Word) (hn : n < 64) (hw : s.writeOk o .SEM_RELEASE n = true) :
    exec (.semRelease o n w) s = .next (s.semWrite n (Origin.owner o) w.toNat) := by
  rw [← regWriteBy_semRelease w hn hw]
  exact onInstance_of (decide_eq_true hn) _

theorem exec_clearBroken {s : State} {o : Origin} {n : Nat} (w : Word) (hn : n < 64) (hw : s.writeOk o .SEM_RELEASE n = true) :
    exec (.clearBroken o n w) s = .next (s.semWrite n (Origin.owner o) w.toNat) := by
  rw [← regWriteBy_semRelease w hn hw]
  exact onInstance_of (decide_eq_true hn) _

theorem freeLock_unasked {s : State} {n : Nat} (h : n ∉ s.fw.lockRefused) : s.freeLock n = s.setF F.SEM_LOCK_OWNER n 0 := if_neg h

theorem freeLock_asked {s : State} {n : Nat} (h : n ∈ s.fw.lockRefused) :
    s.freeLock n = ((s.setF F.SEM_LOCK_OWNER n 0).withFw (fun w => { w with lockRefused := w.lockRefused.filter (· ≠ n) })).setFreed n := if_pos h

theorem semWrite_release {s : State} {n c w : Nat} (ho : s.lockOwner n = c) (h0 : w.testBit 0 = true) (h1 : w.testBit 1 = false) : s.semWrite n c w = s.freeLock n := by
  simp [State.semWrite, ho, h0, h1]

theorem semWrite_clear {s : State} {n c w : Nat} (ho : s.lockOwner n = c) (h0 : w.testBit 0 = false) (h1 : w.testBit 1 = true) :
    s.semWrite n c w = s.setF F.SEM_LOCK_BROKEN n 0 := by
  simp [State.semWrite, ho, h0, h1]

theorem semWrite_other {s : State} {n c w : Nat} (ho : s.lockOwner n ≠ c) (h0 : w.testBit 0 = true) :
    s.semWrite n c w = s.count F.SEM_BAD_RELEASE_COUNT 0 F.SEM_CNT_SAT_BAD_RELEASE_SAT 0 0 := by
  simp [State.semWrite, ho, h0]

/-- Settles O21: by the read, the write and the lease of one lock. -/
theorem semaphores : Obligations.Semaphores := by
  refine ⟨fun s o n hn hr hfree => ⟨_, exec_semLockRead hn hr, ?_⟩, fun s o n hn hr hown => ?_, fun s o n hn hr hheld hother hnew => ?_,
    fun s o n w hn hw hown h0 h1 hunasked => ⟨_, exec_semRelease w hn hw, ?_⟩, fun s o n w hn hw hown h0 h1 hasked => ⟨_, exec_semRelease w (by omega) hw, ?_⟩,
    fun s o n w hn hw hother h0 => ⟨_, exec_semRelease w hn hw, ?_⟩, fun s o n w hn hw hown h1 h0 => ⟨_, exec_clearBroken w hn hw, ?_⟩,
    fun s n hn hlease hheld hunasked => ⟨_, onInstance_of (decide_eq_true hn) _, ?_⟩⟩
  · rw [State.semRead, if_pos (show s.lockOwner n = 0 from hfree)]
    exact ((Sets.refl s).putNew F.SEM_LOCK_OWNER n _ rfl (owner_lt o)).withReadData _
  · have hfree : s.lockOwner n ≠ 0 := by rw [State.lockOwner, hown]; exact owner_ne_zero o
    rw [exec_semLockRead hn hr, State.semRead, if_neg hfree, if_pos (show s.lockOwner n = _ from hown)]
    rfl
  · rw [exec_semLockRead hn hr, State.semRead, if_neg (show s.lockOwner n ≠ 0 from hheld), if_neg (show s.lockOwner n ≠ _ from hother)]
    simp only [State.withFw, hnew, if_false]
    rfl
  · rw [semWrite_release hown h0 h1, freeLock_unasked hunasked]
    exact (Sets.refl s).putNew F.SEM_LOCK_OWNER n 0 rfl (by decide)
  · rw [semWrite_release hown h0 h1, freeLock_asked hasked, State.setFreed, if_pos hn]
    set u := s.withFw (fun x => { x with lockRefused := x.lockRefused.filter (· ≠ n) }) with hu
    have hfreed : ((s.setF F.SEM_LOCK_OWNER n 0).f F.SEM_FREED_LO_FREED 0) = s.f F.SEM_FREED_LO_FREED 0 := State.f_setF_code _ _ _ _ _ _ (by decide)
    have hsets := ((Sets.refl u).putNew F.SEM_LOCK_OWNER n 0 rfl (by decide)).snoc F.SEM_FREED_LO_FREED 0 (s.f F.SEM_FREED_LO_FREED 0 ||| 2 ^ n) (by simp [F.SEM_LOCK_OWNER, F.SEM_FREED_LO_FREED])
    rw [← hfreed] at hsets ⊢
    exact hsets
  · rw [semWrite_other hother h0]
    exact ⟨State.f_count_same _ _ _ _ _ _ (by decide), State.f_count _ _ _ _ _ _ _ _ (by decide) (by decide)⟩
  · rw [semWrite_clear hown h0 h1]
    exact (Sets.refl s).putNew F.SEM_LOCK_BROKEN n 0 rfl (by decide)
  · rw [State.leaseExpire, if_neg hlease, State.breakLock, if_neg (show s.lockOwner n ≠ 0 from hheld), freeLock_unasked hunasked]
    exact ((Sets.refl s).putNew F.SEM_LOCK_OWNER n 0 rfl (by decide)).putNew F.SEM_LOCK_BROKEN n 1 rfl (by decide)

end Sys2Proof.Machine

/-! Accesses at an offset (R8, R9, R12, R57, R64, R400): whole words, parts of words, poison, denials, latched pairs, shadow arming. -/

namespace Sys2Proof.Machine

-- ## Fields of a written word

theorem writeFld_other (s : State) {x y : Fld} (i w : Nat) (locked : Bool) (j : Nat) (h : y.code ≠ x.code) : (s.writeFld x i w locked).f y j = s.f y j := by
  unfold State.writeFld
  split
  case h_7 => split <;> simp [State.f_setF_code _ _ _ _ _ _ h]
  all_goals first
    | rfl
    | exact State.f_setF_code _ _ _ _ _ _ h

theorem writeFlds_other (l : List Fld) (g : Fld → Nat) (w : Nat) (locked : Bool) {y : Fld} (j : Nat) (h : y.outside l) (s : State) :
    (chainAll l (fun x t => t.writeFld x (g x) w locked) s).f y j = s.f y j := by
  induction l generalizing s with
  | nil => rfl
  | cons x l ih =>
    exact (ih (fun z hz => h z (List.mem_cons_of_mem _ hz)) _).trans (writeFld_other s _ _ _ _ (h x List.mem_cons_self))

/-- Where no two fields of the list share a code, an RW field of it takes its bits of the word. -/
theorem writeFlds_rw (l : List Fld) (g : Fld → Nat) (w : Nat) (locked : Bool) (hl : (l.map Fld.code).Nodup) {x : Fld} (hx : x ∈ l) (hrw : x.acc = .rw) (s : State) :
    (chainAll l (fun x t => t.writeFld x (g x) w locked) s).f x (g x) = x.of w := by
  induction l generalizing s with
  | nil => simp at hx
  | cons y l ih =>
    obtain ⟨hy, hnodup⟩ := List.nodup_cons.mp hl
    rcases List.mem_cons.mp hx with rfl | hx
    · refine (writeFlds_other l g w locked _ (fun z hz hc => hy (hc ▸ List.mem_map_of_mem hz)) _).trans ?_
      simp only [State.writeFld, hrw, State.f_setF_same, Fld.of, Nat.mod_mod]
    · exact ih hnodup hx _

theorem fields_nodup_all : allRegs.all (fun r => decide ((r.info.fields.map Fld.code).Nodup)) = true := by decide +kernel

/-- The fields of a register have codes of their own. -/
theorem fields_nodup {a : Nat} {e : RegId × Nat} (h : regAt a = some e) : (e.1.info.fields.map Fld.code).Nodup := by
  obtain ⟨r, hr, he⟩ := List.exists_of_findSome?_eq_some h
  obtain ⟨i, -, rfl⟩ := Option.map_eq_some_iff.mp he
  exact of_decide_eq_true (List.all_eq_true.mp fields_nodup_all r hr)

theorem writePlain_other (s : State) (r : RegId) (i w : Nat) {x : Fld} (j : Nat) (h : x.outside r.info.fields) : (s.writePlain r i w).f x j = s.f x j :=
  writeFlds_other _ (fun x => s.inst r x i) _ _ _ h s

theorem writePlain_rw (s : State) {r : RegId} {i : Nat} (ha : regAt (r.addr i) = some (r, i)) (w : Nat) {x : Fld} (hx : x ∈ r.info.fields) (hrw : x.acc = .rw) :
    (s.writePlain r i w).f x (s.inst r x i) = x.of w :=
  writeFlds_rw _ (fun x => s.inst r x i) w _ (fields_nodup ha) hx hrw s

/-- The latches aside, a write is the register's own. -/
theorem writeLatched_f (s : State) (o : Origin) (r : RegId) (i w : Nat) (x : Fld) (j : Nat) : (s.writeLatched o r i w).f x j = (s.writeReg o r i w).f x j :=
  chainAll_f (staleUppers r) (fun h t => t.setLatchWord (h.addr i) 0) x j (fun _ _ => rfl) _

-- ## Permitted writes

/-- What `writeOk` says, taken apart. -/
theorem writeOk_iff {s : State} {o : Origin} {r : RegId} {i : Nat} : s.writeOk o r i = true ↔
    Origin.present o s = true ∧ (s.regSecure r i && !Origin.secure o s) = false ∧ s.mayWrite o (r.addr i) = true ∧ (Origin.host o && remoteWindow (r.addr i)) = false := by
  cases hr : s.regSecure r i <;> cases ho : Origin.host o <;> simp [State.writeOk, hr, ho, and_assoc]

theorem writeAt_ok {s : State} {o : Origin} {r : RegId} {i : Nat} (w be : Nat) (ha : regAt (r.addr i) = some (r, i)) (h : s.writeOk o r i = true) :
    s.writeAt o (r.addr i) w be = if be % 16 = 15 then s.writeLatched o r i w else if r = .MBX_COMMAND then s.writeReg o r i (mergeBytes (s.f F.MBX_COMMAND_DATA i) w be) else s := by
  obtain ⟨-, hworld, hexpert, hremote⟩ := writeOk_iff.mp h
  simp only [State.writeAt, State.offsetSecure, otpWindow_of_regAt ha, ha, Option.any_some, Bool.false_or, hworld, hexpert, hremote, Bool.not_true, Bool.false_eq_true, if_false]

theorem exec_registerWrite {s : State} {o : Origin} (a : Nat) (w : Word) (be : Nat) (h : Origin.present o s = true) :
    exec (.registerWrite o a w be none false) s = .next (s.writeAt o a w.toNat be) := by
  calc exec (.registerWrite o a w be none false) s = execRegisterWrite o a w be s none false := rfl
    _ = .next (s.writeAt o a w.toNat be) := by simp [execRegisterWrite, h, State.busWrite64]

/-- A 64-bit write at an aligned offset is the write of its low word and then of its high word (R8). -/
theorem exec_registerWrite_wide {s u : State} {o : Origin} {a be e : Nat} {w v : Word} (ha : a % 8 = 0) (hlow : exec (.registerWrite o a w be none false) s = .next u)
    (hs : Origin.present o s = true) (hu : Origin.present o u = true) :
    exec (.registerWrite o a w be (some (v, e)) false) s = exec (.registerWrite o (a + 4) v e none false) u := by
  obtain rfl : s.writeAt o a w.toNat be = u := Host.Outcome.next.inj ((exec_registerWrite a w be hs).symm.trans hlow)
  rw [exec_registerWrite (a + 4) v e hu]
  calc exec (.registerWrite o a w be (some (v, e)) false) s = execRegisterWrite o a w be s (some (v, e)) false := rfl
    _ = .next ((s.writeAt o a w.toNat be).writeAt o (a + 4) v.toNat e) := by simp [execRegisterWrite, hs, State.busWrite64, ha]

theorem exec_registerWrite_poisoned {s : State} {o : Origin} (a : Nat) (w : Word) (be : Nat) (hi : Option (Word × Nat)) (hs : Origin.present o s = true) (ho : Origin.host o = true) :
    exec (.registerWrite o a w be hi true) s = .next (s.setF F.PCIE_ERR_STATUS_POISONED_RX 0 1) := by
  calc exec (.registerWrite o a w be hi true) s = execRegisterWrite o a w be s hi true := rfl
    _ = .next (s.setF F.PCIE_ERR_STATUS_POISONED_RX 0 1) := by simp [execRegisterWrite, hs, ho]

theorem foldl_bytes_lt (p : Nat → Nat) (n v : Nat) (hv : v < 1) (h : ∀ k, p k < 2 ^ 8) : (List.range n).foldl (fun v k => v + p k * 2 ^ (8 * k)) v < 2 ^ (8 * n) := by
  induction n with
  | zero => simpa using hv
  | succ n ih =>
    rw [List.range_succ, List.foldl_append, List.foldl_cons, List.foldl_nil, show 8 * (n + 1) = 8 * n + 8 by ring, pow_add]
    have := h n
    nlinarith [Nat.two_pow_pos (8 * n)]

theorem mergeBytes_lt (old w be : Nat) : mergeBytes old w be < 2 ^ 32 :=
  foldl_bytes_lt (fun k => (if be.testBit k then w else old) / 2 ^ (8 * k) % 2 ^ 8) 4 0 (by decide) (fun _ => Nat.mod_lt _ (by decide))

-- ## Denials (R57, R400)

theorem writeAt_denied_world {s : State} {o : Origin} {a i : Nat} {r : RegId} (w be : Nat) (ha : regAt a = some (r, i)) (hr : s.regSecure r i = true) (ho : Origin.secure o s = false) :
    s.writeAt o a w be = s.denyWorld := by
  simp [State.writeAt, State.offsetSecure, ha, hr, ho]

theorem writeAt_denied_expert {s : State} {o : Origin} {a i : Nat} {r : RegId} (w be : Nat) (ha : regAt a = some (r, i)) (hr : s.regSecure r i = false) (hm : s.mayWrite o a = false) :
    s.writeAt o a w be = s.denyExpert := by
  simp [State.writeAt, State.offsetSecure, otpWindow_of_regAt ha, ha, hr, hm]

-- ## Latched pairs (R9)

theorem readLatched_low (s : State) (o : Origin) {r h : RegId} (i : Nat) (hu : upperOf r = some h) :
    s.readLatched o r i = (s.setLatchWord (h.addr i) (s.view h i (Origin.secure o s) + 1), s.view r i (Origin.secure o s)) := by
  simp [State.readLatched, hu]

theorem latch_setLatchWord_same (s : State) (a v : Nat) : Tab.get 0 (s.setLatchWord a v).latch a = v := Tab.get_set_same (d := 0) (t := s.latch) a v

theorem latch_setLatchWord_other (s : State) {a b : Nat} (v : Nat) (h : b ≠ a) : Tab.get 0 (s.setLatchWord a v).latch b = Tab.get 0 s.latch b :=
  Tab.get_set_other 0 0 s.latch v h

theorem uppers_not_low : widePairs.all (fun p => decide (upperOf p.2 = none) && isUpper p.2) = true := by decide

/-- An upper word is no low word of another pair. -/
theorem upper_of_upperOf {r h : RegId} (hu : upperOf r = some h) : upperOf h = none ∧ isUpper h = true := by
  obtain ⟨p, hp, rfl⟩ := Option.map_eq_some_iff.mp hu
  have := List.all_eq_true.mp uppers_not_low p (List.mem_of_find?_eq_some hp)
  simpa using this

/-- An upper word whose latch is set reads the latch. -/
theorem readLatched_upper {s : State} {o : Origin} {h : RegId} {i v : Nat} (hn : upperOf h = none) (hu : isUpper h = true) (hl : Tab.get 0 s.latch (h.addr i) = v + 1) :
    s.readLatched o h i = (s, v) := by
  simp [State.readLatched, hn, hu, hl]

-- ## Shadow arming (R64)

/-- A word written to a register that holds ARM: the register's own fields, then ARMED by its bit. -/
theorem writeReg_armed {s : State} {o : Origin} {i w : Nat} {e : RegId × Nat × Fld × Nat} (he : e ∈ shadowArms) (hi : i < e.2.1) (hclear : e.1 = .RIV_CH_CTRL → w.testBit 2 = false) :
    ∃ t : State, s.writeReg o e.1 i w = t.setF e.2.2.1 (s.armedAt e.1 i) (w / 2 ^ e.2.2.2) ∧ ∀ (x : Fld) (j : Nat), x.outside e.1.info.fields → t.f x j = s.f x j := by
  simp only [shadowArms, List.mem_cons, List.not_mem_nil, or_false] at he
  have hplain : ∀ r k (x : Fld) (j : Nat), x.outside r.info.fields → (s.writePlain r k w).f x j = s.f x j := fun r k x j h => writePlain_other s r k w j h
  rcases he with rfl | rfl | rfl | rfl | rfl | rfl
  · obtain rfl : i = 0 := by simpa using hi
    exact ⟨s.writePlain .DRS_CTRL 0 w, rfl, hplain _ _⟩
  · exact ⟨s.writePlain .DRS_BRIGHT i w, rfl, hplain _ _⟩
  · refine ⟨s.writePlain .RIV_CH_CTRL i w, ?_, hplain _ _⟩
    simp only [State.writeReg, State.rivWrite, hclear rfl, Bool.false_eq_true, if_false, pow_zero, Nat.div_one, State.armedAt, reduceCtorEq]
  · refine ⟨s.writePlain .LMP_PORT_CTRL i w, ?_, hplain _ _⟩
    simp only [State.writeReg, State.portWrite, pow_zero, Nat.div_one, State.armedAt, reduceCtorEq, if_false]
  · exact ⟨s, by simp only [State.writeReg, pow_zero, Nat.div_one, State.armedAt, reduceCtorEq, if_false], fun _ _ _ => rfl⟩
  · exact ⟨s, by simp only [State.writeReg, pow_zero, Nat.div_one, State.armedAt, if_true], fun _ _ _ => rfl⟩

theorem regAt_armed {e : RegId × Nat × Fld × Nat} {i : Nat} (he : e ∈ shadowArms) (hi : i < e.2.1) : regAt (e.1.addr i) = some (e.1, i) := by
  have key : shadowArms.all (fun e => (List.range e.2.1).all (fun k => decide (regAt (e.1.addr k) = some (e.1, k)))) = true := by decide +kernel
  exact of_decide_eq_true (List.all_eq_true.mp (List.all_eq_true.mp key e he) i (List.mem_range.mpr hi))

/-- ARMED is one bit: it takes the bit of ARM. -/
theorem busWrite_armed {s : State} {o : Origin} {i : Nat} {w : Word} {e : RegId × Nat × Fld × Nat} (he : e ∈ shadowArms) (hi : i < e.2.1) (hw : s.writeOk o e.1 i = true)
    (hclear : e.1 = .RIV_CH_CTRL → w.toNat.testBit 2 = false) :
    (s.busWrite o (e.1.addr i) w.toNat).f e.2.2.1 (s.armedAt e.1 i) = (w.toNat.testBit e.2.2.2).toNat ∧
      ∀ (x : Fld) (j : Nat), x.outside (e.2.2.1 :: e.1.info.fields) → (s.busWrite o (e.1.addr i) w.toNat).f x j = s.f x j := by
  have hwrite : s.busWrite o (e.1.addr i) w.toNat = s.writeLatched o e.1 i w.toNat := State.regWriteBy_ok hw (regAt_armed he hi)
  have hlen : e.2.2.1.len = 1 := of_decide_eq_true (List.all_eq_true.mp (show shadowArms.all (fun e => decide (e.2.2.1.len = 1)) = true by decide) e he)
  obtain ⟨t, ht, hother⟩ := writeReg_armed (s := s) (o := o) he hi hclear
  refine ⟨?_, fun x j hx => ?_⟩
  · rw [hwrite, writeLatched_f, ht, State.f_setF_same, hlen, pow_one, Nat.toNat_testBit]
  · rw [hwrite, writeLatched_f, ht, State.f_setF_code _ _ _ _ _ _ (hx _ List.mem_cons_self)]
    exact hother x j fun y hy => hx y (List.mem_cons_of_mem _ hy)

/-- CLEAR leaves a channel that is not halted as it is (R217), so ARMED is the word's. -/
theorem busWrite_rivClear {s : State} {o : Origin} {n : Nat} {w : Word} (hn : n < 64) (hw : s.writeOk o .RIV_CH_CTRL n = true) (hstate : s.f F.RIV_CH_STATUS_STATE n ≠ 4) :
    (s.busWrite o (RegId.RIV_CH_CTRL.addr n) w.toNat).f F.RIV_CH_CTRL_SHADOW_ARMED n = w.toNat % 2 := by
  have hwrite : s.busWrite o (RegId.RIV_CH_CTRL.addr n) w.toNat = s.rivWrite n w.toNat := regWriteBy_eq w hw (regAt_RIV_CH_CTRL hn) (by decide)
  have hkeep : ((s.writePlain .RIV_CH_CTRL n w.toNat).setF F.RIV_CH_CTRL_SHADOW_ARMED n w.toNat).f F.RIV_CH_STATUS_STATE n ≠ 4 := by
    rw [State.f_setF_code _ _ _ _ _ _ (by decide), writePlain_other _ _ _ _ _ (by unfold Fld.outside; decide)]
    exact hstate
  rw [hwrite, State.rivWrite, State.clearChan, if_pos hkeep, ite_self, State.f_setF_same]
  rfl

theorem regAt_MBX_COMMAND {i : Nat} (h : i < 1024) : regAt (RegId.MBX_COMMAND.addr i) = some (.MBX_COMMAND, i) := by
  have key : (List.range 1024).all (fun k => decide (regAt (RegId.MBX_COMMAND.addr k) = some (.MBX_COMMAND, k))) = true := by decide +kernel
  exact of_decide_eq_true (List.all_eq_true.mp key i (List.mem_range.mpr h))

theorem writePlain_command (s : State) (i w : Nat) : s.writePlain .MBX_COMMAND i w = s.setF F.MBX_COMMAND_DATA i (F.MBX_COMMAND_DATA.of w) := rfl

/-- A 64-bit read of a pair at one aligned offset: its low word latches the upper one, which the second read returns (R8, R9). -/
theorem exec_counterLowRead_wide {s : State} {o : Origin} {r h : RegId} {i : Nat} (ha : regAt (r.addr i) = some (r, i)) (hu : upperOf r = some h) (halign : r.addr i % 8 = 0)
    (haddr : h.addr i = r.addr i + 4) (hah : regAt (h.addr i) = some (h, i)) (hr : s.readOk o r i = true) (hh : s.readOk o h i = true) :
    exec (.counterLowRead o (r.addr i) true) s =
      .next { s.setLatchWord (h.addr i) (s.view h i (Origin.secure o s) + 1) with readData := [s.view r i (Origin.secure o s), s.view h i (Origin.secure o s)] } := by
  obtain ⟨hpresent, hworld, hremote⟩ := readOk_iff.mp hr
  obtain ⟨-, hworld', hremote'⟩ := readOk_iff.mp hh
  obtain ⟨hnone, hupper⟩ := upper_of_upperOf hu
  have hlow := (readAt_eq ha hworld hremote).trans (readLatched_low s o i hu)
  have hhigh : (s.setLatchWord (h.addr i) (s.view h i (Origin.secure o s) + 1)).readAt o (r.addr i + 4) = (s.setLatchWord (h.addr i) (s.view h i (Origin.secure o s) + 1), s.view h i (Origin.secure o s)) := by
    rw [← haddr, readAt_eq hah (by exact hworld') hremote']
    exact readLatched_upper hnone hupper (latch_setLatchWord_same _ _ _)
  calc exec (.counterLowRead o (r.addr i) true) s = execCounterLowRead o (r.addr i) true s := rfl
    _ = .next (s.busRead64 o (r.addr i)) := by simp [execCounterLowRead, halign]
    _ = _ := by
      rw [State.busRead64, if_pos hpresent]
      simp only [hlow, hhigh]

/-- Settles O22: each clause by the lemma on its kind of access above. -/
theorem registerAccesses : Obligations.RegisterAccesses := by
  refine ⟨fun s o w ho => ⟨_, exec_registerWrite 0x20 w 15 ho, ?_⟩, fun s o r i w ha hw hplain => ⟨_, exec_registerWrite _ w 15 (writeOk_iff.mp hw).1, ?_⟩,
    fun s u o a be e w v ha hlow hs hu => exec_registerWrite_wide ha hlow hs hu, fun s o r i be w ha hw hbe hr => ?_, fun s o i be w hi hw hbe hbusy => ⟨_, exec_registerWrite _ w be (writeOk_iff.mp hw).1, ?_⟩,
    fun s o a be w hi ho hs => ⟨_, exec_registerWrite_poisoned a w be hi hs ho, ?_⟩, fun s o a be i w r hs ha hr ho => ⟨_, exec_registerWrite a w be hs, ?_⟩,
    fun s o a be i w r hs ha hr hm => ⟨_, exec_registerWrite a w be hs, ?_⟩, fun s o r h i ha hu hr => ?_, fun s o r h i ha hu halign haddr hah hr hh => ?_,
    fun s o i w e he hi hw hbit hclear => ⟨_, rfl, ?_⟩, fun s o i w e he hi hw hbit hclear => ⟨_, rfl, ?_⟩, fun s o n w hn hw hclear hstate => ⟨_, rfl, busWrite_rivClear hn hw hstate⟩⟩
  · rw [writeAt_scratch]
    exact (Sets.refl s).putNew F.GLB_SCRATCH_VALUE 0 _ rfl w.isLt
  · rw [writeAt_ok _ _ ha hw, if_pos (by decide)]
    simp only [writeLatched_f, hplain]
    exact ⟨fun x hx hrw => writePlain_rw s ha _ hx hrw, fun x j hx => writePlain_other s r i _ j hx⟩
  · rw [exec_registerWrite _ w be (writeOk_iff.mp hw).1, writeAt_ok _ _ ha hw, if_neg (by omega), if_neg hr]
  · rw [writeAt_ok _ _ (regAt_MBX_COMMAND hi) hw, if_neg (by omega), if_pos rfl]
    have hfree : s.fb F.MBX_STATUS_BUSY (i / 64) = false := by simp [State.fb, hbusy]
    have hword := Nat.mod_eq_of_lt (mergeBytes_lt (s.f F.MBX_COMMAND_DATA i) w.toNat be)
    have hfld : F.MBX_COMMAND_DATA.of (mergeBytes (s.f F.MBX_COMMAND_DATA i) w.toNat be) = mergeBytes (s.f F.MBX_COMMAND_DATA i) w.toNat be := by
      simpa [Fld.of, F.MBX_COMMAND_DATA] using hword
    simp only [State.writeReg, hfree, Bool.false_eq_true, if_false]
    rw [writePlain_command, hfld]
    exact (Sets.refl s).putNew F.MBX_COMMAND_DATA i _ rfl (mergeBytes_lt _ _ _)
  · exact (Sets.refl s).putNew F.PCIE_ERR_STATUS_POISONED_RX 0 1 rfl (by decide)
  · rw [writeAt_denied_world _ _ ha hr ho, State.denyWorld]
    refine ⟨?_, State.f_setF_same _ _ _ _, fun x j hx => ?_⟩
    · rw [State.f_setF_code _ _ _ _ _ _ (by decide)]
      exact State.f_count_same _ _ _ _ _ _ (by decide)
    · rw [State.f_setF_code _ _ _ _ _ _ (hx _ (by simp)), State.f_count _ _ _ _ _ _ _ _ (hx _ (by simp)) (hx _ (by simp))]
  · rw [writeAt_denied_expert _ _ ha hr hm]
    exact ⟨State.f_count_same _ _ _ _ _ _ (by decide), fun x j hx => State.f_count _ _ _ _ _ _ _ _ (hx _ (by simp)) (hx _ (by simp))⟩
  · refine ⟨_, congrArg Host.Outcome.next (State.busRead_ok hr ha), ?_, ?_, fun a hne => ?_⟩
    · rw [readLatched_low s o i hu]
      rfl
    · rw [readLatched_low s o i hu]
      exact (latch_setLatchWord_same s (h.addr i) (s.view h i (Origin.secure o s) + 1) :)
    · rw [readLatched_low s o i hu]
      exact (latch_setLatchWord_other s (s.view h i (Origin.secure o s) + 1) hne :)
  · exact ⟨_, exec_counterLowRead_wide ha hu halign haddr hah hr hh, rfl, rfl⟩
  · obtain ⟨harmed, hother⟩ := busWrite_armed he hi hw hclear
    exact ⟨by rw [harmed, hbit]; rfl, hother⟩
  · obtain ⟨harmed, hother⟩ := busWrite_armed he hi hw hclear
    exact ⟨by rw [harmed, hbit]; rfl, hother⟩

end Sys2Proof.Machine

/-! BAR2 (R39, R41, R42, R309, R403): its base, its range, what an access reads and writes of DRAM. -/

namespace Sys2Proof.Machine

-- ## What the transfers and lines of an access leave alone

/-- A loop over steps that leave a part of the state alone leaves it alone. -/
theorem chainAll_keep {α β : Type} (part : State → β) (l : List α) (step : α → State → State) (h : ∀ a t, part (step a t) = part t) (s : State) :
    part (chainAll l step s) = part s := by
  induction l generalizing s with
  | nil => rfl
  | cons a l ih => exact (ih _).trans (h a s)

theorem presentLines_dram (s : State) (q a n : Nat) (write secure : Bool) : (s.presentLines q a n write secure).dram = s.dram :=
  congrArg Prod.fst (State.presentLines_stores s q a n write secure)

theorem present_readData (s : State) (q a : Nat) (write secure : Bool) : (s.present q a write secure).readData = s.readData := by
  unfold State.present
  split <;> rfl

theorem presentLines_readData (s : State) (q a n : Nat) (write secure : Bool) : (s.presentLines q a n write secure).readData = s.readData :=
  chainAll_keep State.readData _ _ (fun l t => present_readData t q (64 * l) write secure) s

theorem coverLines_dram (s : State) (a n : Nat) (secure : Bool) : (s.coverLines a n secure).dram = s.dram :=
  congrArg Prod.fst (State.coverLines_stores s a n secure)

/-- The bytes that a write changes are those it may write. -/
theorem putBytes_dram_other (l : List Nat) (a b : Nat) (bs : List Byte) (h : ∀ i ∈ l, a + i ≠ b) (s : State) :
    Tab.get (0 : Byte) (chainAll l (fun i u => u.putDram (a + i) [bs.getD i 0]) s).dram b = Tab.get (0 : Byte) s.dram b := by
  induction l generalizing s with
  | nil => rfl
  | cons i l ih =>
    refine (ih (fun j hj => h j (List.mem_cons_of_mem _ hj)) _).trans ?_
    exact Tab.get_set_ne _ _ _ (h i List.mem_cons_self).symm

theorem putFor_dram_allowed {s : State} {q a : Nat} {bs : List Byte} {secure : Bool} (h : s.linesAllowed q a bs.length true secure = true) :
    (s.putFor q a bs secure).dram = Tab.setList 0 s.dram a bs := by
  rw [State.putFor, if_pos h]
  exact congrArg (fun d => Tab.setList 0 d a bs) (presentLines_dram s q a bs.length true secure)

/-- A line is permitted where any of its bytes is: both lie in one page (R402). -/
theorem permitted_line (s : State) (q a : Nat) (write secure : Bool) : s.permitted q (64 * (a / 64)) write secure = s.permitted q a write secure := by
  have hpage : 64 * (a / 64) / 4096 = a / 4096 := by omega
  have hregion : s.regionOf (64 * (a / 64)) = s.regionOf a := by simp only [State.regionOf, hpage]
  simp only [State.permitted, hregion]

theorem mem_dramLines {a n b : Nat} (h : a ≤ b) (h' : b < a + n) : b / 64 ∈ dramLines a n :=
  List.mem_map.mpr ⟨b / 64 - a / 64, List.mem_range.mpr (by omega), by omega⟩

/-- A byte that the requester may not write keeps its value. -/
theorem putFor_dram_forbidden {s : State} {q a b : Nat} {bs : List Byte} {secure : Bool} (h : s.byteAllowed q b true secure = false) :
    Tab.get (0 : Byte) (s.putFor q a bs secure).dram b = Tab.get (0 : Byte) s.dram b := by
  by_cases hall : s.linesAllowed q a bs.length true secure = true
  · rw [putFor_dram_allowed hall]
    refine Tab.get_setList_outside _ _ _ _ _ ?_
    by_contra hin
    obtain ⟨htop, hlines⟩ := Bool.and_eq_true_iff.mp hall
    have hline := List.all_eq_true.mp hlines _ (mem_dramLines (b := b) (by omega) (by omega))
    rw [permitted_line] at hline
    simp only [decide_eq_true_eq] at htop
    exact absurd h (by simp [State.byteAllowed, hline]; omega)
  · rw [State.putFor, if_neg hall, ← presentLines_dram s q a bs.length true secure]
    refine putBytes_dram_other _ a b bs (fun i hi hb => ?_) _
    rw [← hb] at h
    exact absurd ((List.mem_filter.mp hi).2) (by simp [h])

-- ## The accesses

theorem exec_bar2 {s : State} {f x : Nat} (op : Bar2Op) (hf : f < 2) (hx : inBar2 x = true) (hlc : f = 1 → s.lc = 2) : exec (.bar2Access f x op) s = .next (s.bar2 f x op) := by
  calc exec (.bar2Access f x op) s = onInstance (decide (f < 2) && inBar2 x) (if f = 1 ∧ s.lc ≠ 2 then s.bar2Absent op else s.bar2 f x op) := rfl
    _ = .next (s.bar2 f x op) := by rw [onInstance_of (by simp [hf, hx]), if_neg (fun h => h.2 (hlc h.1))]

theorem exec_bar2_absent {s : State} {x : Nat} (op : Bar2Op) (hx : inBar2 x = true) (hlc : s.lc ≠ 2) : exec (.bar2Access 1 x op) s = .next (s.bar2Absent op) := by
  calc exec (.bar2Access 1 x op) s = onInstance (decide (1 < 2) && inBar2 x) (if 1 = 1 ∧ s.lc ≠ 2 then s.bar2Absent op else s.bar2 1 x op) := rfl
    _ = .next (s.bar2Absent op) := by rw [onInstance_of (by simp [hx]), if_pos ⟨rfl, hlc⟩]

theorem bar2_read {s : State} {f x n : Nat} (hr : s.bar2Addr f x + n ≤ s.dramTop) (ho : s.linesOpen (s.bar2Addr f x) n = true) :
    (s.bar2 f x (.read n)).readData = bytesToWords (s.dramFor 8 (s.bar2Addr f x) n (f = 1 || s.openLc)) ∧ (s.bar2 f x (.read n)).dram = s.dram := by
  simp only [State.bar2, Nat.not_lt.mpr hr, ho, Bool.not_true, Bool.false_eq_true, if_false]
  rw [presentLines_readData, presentLines_dram]
  constructor <;> split <;> rfl

theorem bar2_write {s : State} {f x : Nat} {bs : List Byte} (hr : s.bar2Addr f x + bs.length ≤ s.dramTop) (ho : s.linesOpen (s.bar2Addr f x) bs.length = true) :
    (s.bar2 f x (.write bs false)).dram = (s.putFor 8 (s.bar2Addr f x) bs (f = 1 || s.openLc)).dram := by
  simp only [State.bar2, Nat.not_lt.mpr hr, ho, Bool.not_true, Bool.false_eq_true, if_false]
  exact coverLines_dram _ _ _ _

theorem bar2_write_range {s : State} {f x : Nat} {bs : List Byte} (hr : s.dramTop < s.bar2Addr f x + bs.length) : s.bar2 f x (.write bs false) = s.outOfRange := by
  simp only [State.bar2, hr, Bool.false_eq_true, if_false, if_true]

theorem bar2_read_range {s : State} {f x n : Nat} (hr : s.dramTop < s.bar2Addr f x + n) :
    s.bar2 f x (.read n) = { s with readData := bytesToWords (List.replicate n 0) }.outOfRange := by
  simp only [State.bar2, hr, if_true]

theorem outOfRange_count (s : State) : s.outOfRange.f F.PCIE_WIN_OOR_COUNT 0 = min (s.f F.PCIE_WIN_OOR_COUNT 0 + 1) (2 ^ 32 - 1) := State.f_count_same _ _ _ _ _ _ (by decide)

theorem count_readData (s : State) (x : Fld) (i : Nat) (y : Fld) (j k : Nat) : (s.count x i y j k).readData = s.readData := by
  unfold State.count
  simp only
  split <;> rfl

theorem count_dram (s : State) (x : Fld) (i : Nat) (y : Fld) (j k : Nat) : (s.count x i y j k).dram = s.dram := by
  unfold State.count
  simp only
  split <;> rfl

/-- The base field takes its seven bits of the word. -/
theorem sets_bar2Base {s : State} {x : Fld} {w : Word} (hlo : x.lo = 0) (hlen : x.len = 7) : Sets s [(x, 0, w.toNat % 128)] (s.setF x 0 (x.of w.toNat)) := by
  have hset := (Sets.refl s).snoc x 0 (x.of w.toNat) (by simp)
  rwa [Fld.of, hlo, hlen, pow_zero, Nat.div_one, Nat.mod_mod] at *

/-- Settles O23: the base by its write, the accesses by range, channels and regions. -/
theorem bar2 : Obligations.Bar2 := by
  refine ⟨fun s o w hw => ⟨_, onInstance_of rfl _, ?_⟩, fun s o w hw => ⟨_, onInstance_of rfl _, ?_⟩, fun s f x n hf hx hlc hr ho => ⟨_, exec_bar2 _ hf hx hlc, bar2_read hr ho⟩,
    fun s f x bs hf hx hlc hr ho hall => ⟨_, exec_bar2 _ hf hx hlc, ?_, ?_⟩, fun s f x a bs hf hx hlc hr ho hbyte => ⟨_, exec_bar2 _ hf hx hlc, ?_⟩,
    fun s f x bs hf hx hlc hr => ⟨_, exec_bar2 _ hf hx hlc, ?_⟩, fun s f x n hf hx hlc hr => ⟨_, exec_bar2 _ hf hx hlc, ?_⟩, fun s f x bs hf hx => ?_, fun s x n hx hlc => ?_⟩
  · rw [if_pos rfl, regWriteBy_eq w hw regAt_PCIE_BAR2_BASE_F0 (by decide)]
    exact sets_bar2Base rfl rfl
  · rw [if_neg (by decide), regWriteBy_eq w hw regAt_PCIE_BAR2_BASE_F1 (by decide)]
    exact sets_bar2Base rfl rfl
  · intro i hi
    rw [bar2_write hr ho, putFor_dram_allowed hall]
    exact Tab.get_setList_inside _ _ _ _ _ hi
  · intro b hb
    rw [bar2_write hr ho, putFor_dram_allowed hall]
    exact Tab.get_setList_outside _ _ _ _ _ hb
  · rw [bar2_write hr ho]
    exact putFor_dram_forbidden hbyte
  · rw [bar2_write_range hr]
    exact ⟨count_dram _ _ _ _ _ _, outOfRange_count s⟩
  · rw [bar2_read_range hr]
    exact ⟨count_readData _ _ _ _ _ _, outOfRange_count _⟩
  · have hpoison := (Sets.refl s).putNew F.PCIE_ERR_STATUS_POISONED_RX 0 1 rfl (by decide)
    by_cases hlc : f = 1 → s.lc = 2
    · exact ⟨_, exec_bar2 _ hf hx hlc, hpoison⟩
    · obtain ⟨hf1, habsent⟩ := Classical.not_imp.mp hlc
      subst hf1
      exact ⟨_, exec_bar2_absent _ hx habsent, hpoison⟩
  · exact ⟨_, exec_bar2_absent _ hx hlc, (Sets.refl s).putNew F.PCIE_ERR_STATUS_UR_SENT 0 1 rfl (by decide)⟩

end Sys2Proof.Machine

/-! What a raise of a fault source, a broken lock and a message of the host leave alone, beside the register fields: the parts of the state that they do not touch. -/

namespace Sys2Proof.Machine

/-- The state with the parts left out that a raise may change: registers, fault state, lamp output, hewers, power and firmware. -/
def State.besideRaise (s : State) : State := { s with regs := [], flt := {}, lamp := {}, codec := {}, pwr := {}, fw := {} }

@[simp] theorem besideRaise_setF (s : State) (x : Fld) (i v : Nat) : (s.setF x i v).besideRaise = s.besideRaise := Eq.trans rfl rfl

@[simp] theorem besideRaise_withFlt (s : State) (g : FltState → FltState) : (s.withFlt g).besideRaise = s.besideRaise := Eq.trans rfl rfl
@[simp] theorem besideRaise_withLamp (s : State) (g : LampState → LampState) : (s.withLamp g).besideRaise = s.besideRaise := Eq.trans rfl rfl
@[simp] theorem besideRaise_withCodec (s : State) (g : CodecState → CodecState) : (s.withCodec g).besideRaise = s.besideRaise := Eq.trans rfl rfl
@[simp] theorem besideRaise_withPwr (s : State) (g : PwrState → PwrState) : (s.withPwr g).besideRaise = s.besideRaise := Eq.trans rfl rfl
@[simp] theorem besideRaise_withFw (s : State) (g : FwState → FwState) : (s.withFw g).besideRaise = s.besideRaise := Eq.trans rfl rfl

@[simp] theorem besideRaise_count (s : State) (x : Fld) (i : Nat) (y : Fld) (j k : Nat) : (s.count x i y j k).besideRaise = s.besideRaise := by
  unfold State.count
  simp only
  split <;> rfl

theorem besideRaise_logEvent (s : State) (kind fsid cls inst : Nat) (d : List Byte) : (s.logEvent kind fsid cls inst d).besideRaise = s.besideRaise := by
  have hlost : ∀ t : State, t.evtLost.besideRaise = t.besideRaise := fun t => besideRaise_count t _ _ _ _ _
  unfold State.logEvent
  simp only [besideRaise_setF, besideRaise_withFlt]
  split
  · rw [hlost, besideRaise_setF]
  · rfl

theorem besideRaise_settleChan (s : State) (n : Nat) : (s.settleChan n).besideRaise = s.besideRaise := by
  have hbuf : ∀ t : State, (t.showBuf n).besideRaise = t.besideRaise := fun t => by unfold State.showBuf; split <;> rfl
  unfold State.settleChan
  simp only
  split_ifs <;> exact hbuf _

theorem besideRaise_dropDisplay (s : State) (d : Nat) : (s.dropDisplay d).besideRaise = s.besideRaise := by
  unfold State.dropDisplay
  simp only
  split <;> rfl

theorem besideRaise_refreshPort (s : State) (n : Nat) : (s.refreshPort n).besideRaise = s.besideRaise := by
  unfold State.refreshPort
  simp only
  split
  · split
    · rw [besideRaise_dropDisplay, besideRaise_settleChan]
      rfl
    · rw [besideRaise_settleChan]
      rfl
  · split <;> rfl

theorem besideRaise_safeNow (s : State) (fsid : Nat) (sc : Bool) (l : List Nat) : (s.safeNow fsid sc l).besideRaise = s.besideRaise := by
  unfold State.safeNow
  simp only
  rw [besideRaise_logEvent]
  exact chainAll_keep State.besideRaise _ _ (fun n t => (besideRaise_refreshPort _ n).trans (besideRaise_withFlt t _)) s

theorem besideRaise_hewersOut (s : State) : s.hewersOut.besideRaise = s.besideRaise := by
  simp only [State.hewersOut, besideRaise_withCodec]
  exact chainAll_keep State.besideRaise _ _ (fun h t => by simp only [besideRaise_setF]) s

theorem besideRaise_enterFatal (s : State) (fsid : Nat) : (s.enterFatal fsid).besideRaise = s.besideRaise := by
  unfold State.enterFatal
  split
  · rfl
  · simp only [State.refreshPorts]
    rw [chainAll_keep State.besideRaise _ _ (fun n t => besideRaise_refreshPort t n), besideRaise_hewersOut]
    simp only [besideRaise_withPwr, besideRaise_logEvent, besideRaise_setF]

theorem besideRaise_markRaise (s : State) (fsid inst : Nat) : (s.markRaise fsid inst).besideRaise = s.besideRaise := by
  unfold State.markRaise State.fltCount
  split <;> simp only [besideRaise_setF, besideRaise_count]

theorem besideRaise_freeLock (s : State) (n : Nat) : (s.freeLock n).besideRaise = s.besideRaise := by
  unfold State.freeLock State.setFreed
  simp only
  split_ifs <;> rfl

theorem besideRaise_breakLocksOf (s : State) (l : List Nat) : (s.breakLocksOf l).besideRaise = s.besideRaise := by
  refine chainAll_keep State.besideRaise _ _ (fun n t => ?_) s
  unfold State.breakLock
  split_ifs
  · rfl
  · exact besideRaise_freeLock t n
  · rfl

theorem besideRaise_cpReset (s : State) : s.cpReset.besideRaise = s.besideRaise := by
  have hheld : ∀ (m : Nat) (t : State), (if t.fb F.MBX_STATUS_BUSY m then t.setF F.MBX_STATUS_HELD m 1 else t).besideRaise = t.besideRaise := by
    intro m t
    split
    · exact besideRaise_setF _ _ _ _
    · rfl
  exact (chainAll_keep State.besideRaise _ _ hheld _).trans ((besideRaise_setF _ _ _ _).trans (besideRaise_breakLocksOf s _))

theorem besideRaise_raiseFatal (s : State) (fsid inst : Nat) (d : List Byte) : (s.raiseFatal fsid inst d).besideRaise = s.besideRaise := by
  rw [State.raiseFatal, besideRaise_enterFatal, besideRaise_logEvent, besideRaise_markRaise]

theorem besideRaise_cpRestart (s : State) : s.cpRestart.besideRaise = s.besideRaise := by
  unfold State.cpRestart
  simp only
  split
  · exact besideRaise_raiseFatal _ _ _ _
  · rw [besideRaise_cpReset, besideRaise_setF, besideRaise_count]
    rfl

theorem besideRaise_graceRaise (s : State) (fsid inst : Nat) : (s.graceRaise fsid inst).besideRaise = s.besideRaise := by
  unfold State.graceRaise
  split <;> rfl

/-- A raise changes registers, fault state, lamp output, hewers, power and firmware, and nothing else. -/
theorem besideRaise_raiseFault (s : State) (fsid inst : Nat) (d : List Byte) : (s.raiseFault fsid inst d).besideRaise = s.besideRaise := by
  have hlog : ∀ (b : Bool) (t : State) k f c n d, (if b then t.logEvent k f c n d else t).besideRaise = t.besideRaise := by
    intro b t k f c n d
    cases b with
    | false => rfl
    | true => exact besideRaise_logEvent _ _ _ _ _ _
  unfold State.raiseFault
  simp only
  split
  · exact besideRaise_raiseFatal _ _ _ _
  · split
    · rw [hlog, besideRaise_markRaise]
    · split
      · rw [besideRaise_safeNow, hlog, besideRaise_markRaise]
      · rw [besideRaise_graceRaise, hlog, besideRaise_markRaise]
      · rw [besideRaise_cpRestart, hlog, besideRaise_markRaise]
      · rw [hlog, besideRaise_markRaise]

-- ## Locks of an owner (R60, R62)

theorem lockFields_freeLock (s : State) (n : Nat) : (s.freeLock n).f F.SEM_LOCK_OWNER n = 0 ∧ (∀ m, m ≠ n → (s.freeLock n).f F.SEM_LOCK_OWNER m = s.f F.SEM_LOCK_OWNER m) ∧
    ∀ m, (s.freeLock n).f F.SEM_LOCK_BROKEN m = s.f F.SEM_LOCK_BROKEN m := by
  have hfreed : ∀ (t : State) (x : Fld) (m : Nat), x.code ≠ F.SEM_FREED_LO_FREED.code → x.code ≠ F.SEM_FREED_HI_FREED.code → (t.setFreed n).f x m = t.f x m := by
    intro t x m hlo hhi
    unfold State.setFreed
    split
    · exact State.f_orF _ _ _ _ _ _ hlo
    · exact State.f_orF _ _ _ _ _ _ hhi
  unfold State.freeLock
  simp only
  split
  · refine ⟨?_, fun m hm => ?_, fun m => ?_⟩
    · rw [hfreed _ _ _ (by decide) (by decide), State.f_withFw, State.f_setF_same]
      rfl
    · rw [hfreed _ _ _ (by decide) (by decide), State.f_withFw, State.f_setF_inst _ _ _ _ _ hm]
    · rw [hfreed _ _ _ (by decide) (by decide), State.f_withFw, State.f_setF_code _ _ _ _ _ _ (by decide)]
  · exact ⟨State.f_setF_same _ _ _ _, fun m hm => State.f_setF_inst _ _ _ _ _ hm, fun m => State.f_setF_code _ _ _ _ _ _ (by decide)⟩

/-- A lock that is held breaks; no other lock changes. -/
theorem lockFields_breakLock {s : State} {n : Nat} (h : s.f F.SEM_LOCK_OWNER n ≠ 0) : (s.breakLock n).f F.SEM_LOCK_OWNER n = 0 ∧ (s.breakLock n).f F.SEM_LOCK_BROKEN n = 1 ∧
    ∀ m, m ≠ n → (s.breakLock n).f F.SEM_LOCK_OWNER m = s.f F.SEM_LOCK_OWNER m ∧ (s.breakLock n).f F.SEM_LOCK_BROKEN m = s.f F.SEM_LOCK_BROKEN m := by
  obtain ⟨hown, howner, hbroken⟩ := lockFields_freeLock s n
  rw [State.breakLock, if_neg (show s.lockOwner n ≠ 0 from h)]
  refine ⟨?_, State.f_setF_same _ _ _ _, fun m hm => ⟨?_, ?_⟩⟩
  · rw [State.f_setF_code _ _ _ _ _ _ (by decide), hown]
  · rw [State.f_setF_code _ _ _ _ _ _ (by decide), howner m hm]
  · rw [State.f_setF_inst _ _ _ _ _ hm, hbroken]

/-- One step of the loop over the locks. -/
def State.breakIf (owners : List Nat) (n : Nat) (s : State) : State := if s.lockOwner n ∈ owners then s.breakLock n else s

theorem breakLocksOf_eq (s : State) (owners : List Nat) : s.breakLocksOf owners = chainAll (List.range 64) (State.breakIf owners) s := rfl

/-- A lock of no such owner is left alone. -/
theorem breakIf_other {s : State} {owners : List Nat} (h0 : 0 ∉ owners) {n m : Nat} (h : s.f F.SEM_LOCK_OWNER m ∉ owners ∨ m ≠ n) :
    (State.breakIf owners n s).f F.SEM_LOCK_OWNER m = s.f F.SEM_LOCK_OWNER m ∧ (State.breakIf owners n s).f F.SEM_LOCK_BROKEN m = s.f F.SEM_LOCK_BROKEN m := by
  unfold State.breakIf
  split
  case isFalse => exact ⟨rfl, rfl⟩
  case isTrue hmem =>
    have hheld : s.f F.SEM_LOCK_OWNER n ≠ 0 := fun hz => h0 (hz ▸ hmem)
    obtain ⟨-, -, hother⟩ := lockFields_breakLock hheld
    refine hother m fun hmn => ?_
    rcases h with h | h
    · exact h (hmn ▸ hmem)
    · exact h hmn

theorem breakAll_other {owners : List Nat} (h0 : 0 ∉ owners) (l : List Nat) {s : State} {m : Nat} (h : s.f F.SEM_LOCK_OWNER m ∉ owners) :
    (chainAll l (State.breakIf owners) s).f F.SEM_LOCK_OWNER m = s.f F.SEM_LOCK_OWNER m ∧ (chainAll l (State.breakIf owners) s).f F.SEM_LOCK_BROKEN m = s.f F.SEM_LOCK_BROKEN m := by
  induction l generalizing s with
  | nil => exact ⟨rfl, rfl⟩
  | cons n l ih =>
    obtain ⟨howner, hbroken⟩ := breakIf_other h0 (n := n) (.inl h)
    obtain ⟨howner', hbroken'⟩ := ih (s := State.breakIf owners n s) (howner ▸ h)
    exact ⟨howner'.trans howner, hbroken'.trans hbroken⟩

theorem breakAll_held {owners : List Nat} (h0 : 0 ∉ owners) (l : List Nat) {s : State} {m : Nat} (hm : m ∈ l) (h : s.f F.SEM_LOCK_OWNER m ∈ owners) :
    (chainAll l (State.breakIf owners) s).f F.SEM_LOCK_OWNER m = 0 ∧ (chainAll l (State.breakIf owners) s).f F.SEM_LOCK_BROKEN m = 1 := by
  induction l generalizing s with
  | nil => simp at hm
  | cons n l ih =>
    by_cases hmn : m = n
    · subst hmn
      obtain ⟨howner, hbroken, -⟩ := lockFields_breakLock (s := s) (n := m) (fun hz => h0 (hz ▸ h))
      have hstep : State.breakIf owners m s = s.breakLock m := if_pos h
      obtain ⟨howner', hbroken'⟩ := breakAll_other h0 l (s := State.breakIf owners m s) (m := m) (by rw [hstep, howner]; exact h0)
      rw [hstep] at howner' hbroken'
      exact ⟨by rw [← howner, ← howner', ← hstep]; rfl, by rw [← hbroken, ← hbroken', ← hstep]; rfl⟩
    · obtain ⟨howner, -⟩ := breakIf_other (s := s) h0 (.inr hmn)
      exact ih (s := State.breakIf owners n s) ((List.mem_cons.mp hm).resolve_left hmn) (howner ▸ h)

/-- The locks of an owner break, and no other lock changes (R60). -/
theorem breakLocksOf_owner (s : State) {c : Nat} (hc : c ≠ 0) :
    (∀ n, n < 64 → s.f F.SEM_LOCK_OWNER n = c → (s.breakLocksOf [c]).f F.SEM_LOCK_OWNER n = 0 ∧ (s.breakLocksOf [c]).f F.SEM_LOCK_BROKEN n = 1) ∧
    (∀ n, s.f F.SEM_LOCK_OWNER n ≠ c → (s.breakLocksOf [c]).f F.SEM_LOCK_OWNER n = s.f F.SEM_LOCK_OWNER n ∧ (s.breakLocksOf [c]).f F.SEM_LOCK_BROKEN n = s.f F.SEM_LOCK_BROKEN n) := by
  have h0 : 0 ∉ [c] := by simpa using hc.symm
  exact ⟨fun n hn h => breakAll_held h0 _ (List.mem_range.mpr hn) (by simp [h]), fun n h => breakAll_other h0 _ (by simpa using h)⟩

end Sys2Proof.Machine

/-! Messages to the host (R354, R355) and PCIe events (R58, R60, R355, R389, R428). -/

namespace Sys2Proof.Machine

-- ## What a message changes

/-- The state with the parts left out that a message may change: registers, and of the interrupt controller what is sent, due and seen. -/
def State.besideMsi (s : State) : State := { s with regs := [], intc := { s.intc with sent := [], due := [], seen := [] } }

/-- A message changes of the registers the link's state alone (R355). -/
theorem msiSend_f (s : State) (f v : Nat) {x : Fld} (i : Nat) (h : x.code ≠ F.PCIE_LINK_STATUS_PM_STATE.code) : (s.msiSend f v).f x i = s.f x i := by
  unfold State.msiSend
  simp only
  split
  · rfl
  · split
    · exact State.f_withIntc _ _ _ _
    · rw [State.f_withIntc]
      split
      · exact State.f_setF_code _ _ _ _ _ _ h
      · rfl

theorem besideMsi_msiSend (s : State) (f v : Nat) : (s.msiSend f v).besideMsi = s.besideMsi := by
  unfold State.msiSend
  simp only
  split
  · rfl
  · split
    · rfl
    · split <;> rfl

theorem msiScan_f (s : State) {x : Fld} (i : Nat) (h : x.code ≠ F.PCIE_LINK_STATUS_PM_STATE.code) : s.msiScan.f x i = s.f x i := by
  unfold State.msiScan
  exact (chainAll_f _ _ _ _ (fun k t => msiSend_f t _ _ i h) _).trans (State.f_withIntc _ _ _ _)

theorem besideMsi_msiScan (s : State) : s.msiScan.besideMsi = s.besideMsi := by
  unfold State.msiScan
  exact chainAll_keep State.besideMsi _ _ (fun k t => besideMsi_msiSend t _ _) _

theorem msiFlush_f (s : State) {x : Fld} (i : Nat) (h : x.code ≠ F.PCIE_LINK_STATUS_PM_STATE.code) : s.msiFlush.f x i = s.f x i := by
  unfold State.msiFlush
  simp only
  split
  · rfl
  · refine (chainAll_f _ _ _ _ (fun k t => ?_) _).trans (State.f_withIntc _ _ _ _)
    split
    · exact msiSend_f t _ _ i h
    · rfl

theorem besideMsi_msiFlush (s : State) : s.msiFlush.besideMsi = s.besideMsi := by
  unfold State.msiFlush
  simp only
  split
  · rfl
  · refine chainAll_keep State.besideMsi _ _ (fun k t => ?_) _
    split
    · exact besideMsi_msiSend t _ _
    · rfl

theorem claimStack_of_besideMsi {s t : State} (h : t.besideMsi = s.besideMsi) (k : Nat) : t.claimStack k = s.claimStack k := by
  have hstack := congrArg (fun u : State => Tab.get [] u.intc.stack k) h
  exact hstack

theorem readData_of_besideMsi {s t : State} (h : t.besideMsi = s.besideMsi) : t.readData = s.readData := by
  have hread := congrArg State.readData h
  exact hread

theorem msiSend_pmActive {s : State} (h : s.f F.PCIE_LINK_STATUS_PM_STATE 0 = 0) (f v : Nat) : (s.msiSend f v).f F.PCIE_LINK_STATUS_PM_STATE 0 = 0 := by
  unfold State.msiSend
  simp only [h]
  split
  · exact h
  · split <;> exact h

/-- In L0 the link stays in L0. -/
theorem msiFlush_pmActive {s : State} (h : s.f F.PCIE_LINK_STATUS_PM_STATE 0 = 0) : s.msiFlush.f F.PCIE_LINK_STATUS_PM_STATE 0 = 0 := by
  unfold State.msiFlush
  simp only
  split
  · exact h
  · refine List.foldlRecOn (motive := fun t : State => t.f F.PCIE_LINK_STATUS_PM_STATE 0 = 0) _ _ h (fun t ht k _ => ?_)
    simp only
    split
    · exact msiSend_pmActive ht _ _
    · exact ht

-- ## Reset of a function (R58, R60)

theorem closeSession_ended (s : State) (m : Nat) : (s.closeSession m).f (sessionOf m).1 0 ≠ 1 := by
  obtain ⟨hcodes, -, -⟩ := sessionOf_codes m
  unfold State.closeSession
  split
  case isTrue h =>
    rw [State.f_setF_code _ _ _ _ _ _ hcodes, State.f_setF_same]
    simp
  case isFalse h => simpa [State.fb] using h

/-- The end of a session writes its own fields and EXPERT alone. -/
theorem closeSession_f (s : State) (m : Nat) {x : Fld} (i : Nat) (h : x.outside [(sessionOf m).1, (sessionOf m).2, F.MBX_STATUS_EXPERT]) : (s.closeSession m).f x i = s.f x i := by
  unfold State.closeSession
  split
  · rw [State.f_setF_code _ _ _ _ _ _ (h _ (by simp)), State.f_setF_code _ _ _ _ _ _ (h _ (by simp)), State.f_setF_code _ _ _ _ _ _ (h _ (by simp))]
  · rfl

theorem functionReset_f (s : State) (f : Nat) {x : Fld} (i : Nat) (hx : x.outside reactFields) (h : x.outside [(sessionOf (8 * f)).1, (sessionOf (8 * f)).2, F.MBX_STATUS_EXPERT]) :
    (s.functionReset f).f x i = s.f x i := by
  rw [State.functionReset, State.f_withIntc, closeSession_f _ _ _ h]
  exact State.breakLocksOf_f _ _ _ _ hx

theorem besideRaise_closeSession (s : State) (m : Nat) : (s.closeSession m).besideRaise = s.besideRaise := by
  unfold State.closeSession
  split
  · simp only [besideRaise_setF]
  · rfl

theorem functionReset_msiEnable (s : State) (f : Nat) : Tab.get 0 (s.functionReset f).intc.msiEnable f = 0 := by
  simp only [State.functionReset, State.withIntc_intc, Tab.get_set_same]

theorem functionReset_ended (s : State) (f : Nat) : (s.functionReset f).f (sessionOf (8 * f)).1 0 ≠ 1 := by
  rw [State.functionReset, State.f_withIntc]
  exact closeSession_ended _ _

/-- A reset of function 1 leaves the session of function 0 alone. -/
theorem functionReset_one_f0 (s : State) : (s.functionReset 1).f F.GLB_EXPERT_UNLOCKED_F0 0 = s.f F.GLB_EXPERT_UNLOCKED_F0 0 :=
  functionReset_f s 1 0 (by unfold Fld.outside; decide) (by unfold Fld.outside; decide)

/-- After a reset of both functions neither has a session. -/
theorem functionsReset_ended (s : State) : ((s.functionReset 0).functionReset 1).f F.GLB_EXPERT_UNLOCKED_F0 0 ≠ 1 ∧ ((s.functionReset 0).functionReset 1).f F.GLB_EXPERT_UNLOCKED_F1 0 ≠ 1 := by
  refine ⟨?_, functionReset_ended _ 1⟩
  rw [functionReset_one_f0]
  exact functionReset_ended _ 0

theorem functionReset_locks (s : State) {f : Nat} (hf : f < 2) (m : Nat) :
    (s.functionReset f).f F.SEM_LOCK_OWNER m = (s.breakLocksOf [4 + f]).f F.SEM_LOCK_OWNER m ∧ (s.functionReset f).f F.SEM_LOCK_BROKEN m = (s.breakLocksOf [4 + f]).f F.SEM_LOCK_BROKEN m := by
  have hcases : f = 0 ∨ f = 1 := by omega
  rw [State.functionReset, State.f_withIntc, State.f_withIntc]
  rcases hcases with rfl | rfl <;>
    exact ⟨closeSession_f _ _ _ (by unfold Fld.outside; decide), closeSession_f _ _ _ (by unfold Fld.outside; decide)⟩

theorem aon_of_besideRaise {s t : State} (h : t.besideRaise = s.besideRaise) : t.aon = s.aon := by
  have haon := congrArg State.aon h
  exact haon

theorem functionReset_aon (s : State) (f : Nat) : (s.functionReset f).aon = s.aon := by
  rw [State.functionReset, State.withIntc_aon]
  exact aon_of_besideRaise ((besideRaise_closeSession (s.breakLocksOf [4 + f]) (8 * f)).trans (besideRaise_breakLocksOf s [4 + f]))

-- ## A message held (R355)

/-- The message of a vector whose set is not empty, to a function with MSI enabled over a link that is not asleep, is sent; a link in L1 wakes. -/
theorem msiSend_sent {s : State} {f v : Nat} (he : Tab.get 0 s.intc.msiEnable f ≠ 0) (hm : 32 * f + v ∉ s.intc.masked) (hl : s.linkAsleep = false) :
    (s.msiSend f v).intc.sent = (f, v) :: s.intc.sent ∧ (s.msiSend f v).intc.due = s.intc.due.filter (· ≠ 32 * f + v) ∧ (s.msiSend f v).f F.PCIE_LINK_STATUS_PM_STATE 0 = 0 := by
  have hpm : s.f F.PCIE_LINK_STATUS_PM_STATE 0 = 1 ∨ s.f F.PCIE_LINK_STATUS_PM_STATE 0 = 0 := by
    simp only [State.linkAsleep, decide_eq_false_iff_not] at hl
    omega
  unfold State.msiSend
  simp only [he, hm, hl, Bool.false_eq_true, or_self, if_false]
  rcases hpm with hpm | hpm
  · rw [if_pos hpm]
    exact ⟨rfl, rfl, by rw [State.f_withIntc, State.f_setF_same]; rfl⟩
  · rw [if_neg (by simp [hpm])]
    exact ⟨rfl, rfl, hpm⟩

section Levels
variable (s : State) (g : IntcState → IntcState) (n : Nat)

theorem faultLevel_withIntc : (s.withIntc g).faultLevel n = s.faultLevel n := rfl
theorem hewerLevel_withIntc (k : Nat) : (s.withIntc g).hewerLevel n k = s.hewerLevel n k := rfl
theorem lampLevel_withIntc : (s.withIntc g).lampLevel n = s.lampLevel n := rfl
theorem laneLevel_withIntc : (s.withIntc g).laneLevel n = s.laneLevel n := rfl
theorem haulLevel_withIntc : (s.withIntc g).haulLevel n = s.haulLevel n := rfl
theorem memLevel_withIntc : (s.withIntc g).memLevel n = s.memLevel n := rfl
theorem queueLevel_withIntc : (s.withIntc g).queueLevel n = s.queueLevel n := rfl
theorem groupLevel_withIntc : (s.withIntc g).groupLevel n = s.groupLevel n := rfl
theorem systemLevel_withIntc : (s.withIntc g).systemLevel n = s.systemLevel n := rfl
theorem freed_withIntc : (s.withIntc g).freed n = s.freed n := rfl
theorem fb_withIntc (x : Fld) : (s.withIntc g).fb x n = s.fb x n := rfl

/-- The level of a source does not depend on the interrupt controller. -/
theorem level_withIntc : (s.withIntc g).level n = s.level n := by
  simp only [State.level, State.f_withIntc, faultLevel_withIntc, hewerLevel_withIntc, lampLevel_withIntc, laneLevel_withIntc, haulLevel_withIntc, memLevel_withIntc, queueLevel_withIntc,
    groupLevel_withIntc, systemLevel_withIntc, freed_withIntc, fb_withIntc]

theorem sourceSecure_withIntc : (s.withIntc g).sourceSecure n = s.sourceSecure n := rfl

end Levels

theorem presentable_mask (s : State) (masked due : List Nat) (t n : Nat) : (s.withIntc (fun w => { w with masked := masked, due := due })).presentable t n = s.presentable t n := by
  simp only [State.presentable, State.isPending, level_withIntc]
  rfl

theorem msiKey_mask (s : State) (masked due : List Nat) (n : Nat) : (s.withIntc (fun w => { w with masked := masked, due := due })).msiKey n = s.msiKey n := rfl

/-- The sets of the vectors depend on stacks and vectors granted, not on what is due or masked. -/
theorem msiSet_mask (s : State) (masked due : List Nat) (f v : Nat) : (s.withIntc (fun w => { w with masked := masked, due := due })).msiSet f v = s.msiSet f v := by
  have hsource : ∀ n, ((s.withIntc (fun w => { w with masked := masked, due := due })).presentable 2 n && decide ((s.withIntc (fun w => { w with masked := masked, due := due })).msiKey n = (f, v))) =
      (s.presentable 2 n && decide (s.msiKey n = (f, v))) := fun n => by rw [presentable_mask, msiKey_mask]
  exact congrArg sourceNumbers.any (funext hsource)

/-- An unmasked vector with its one message due: masked no more, and sent if its set is not empty. -/
theorem msiUnmask_due {s : State} {f v : Nat} (hv : v < 32) (hdue : s.intc.due = [32 * f + v]) (hl : s.linkAsleep = false) :
    s.msiUnmask f v =
      (let t := s.withIntc (fun w => { w with masked := w.masked.filter (· ≠ 32 * f + v), due := [] })
       if s.msiSet f v then t.msiSend f v else t) := by
  have hf : (32 * f + v) / 32 = f := by omega
  have hvec : (32 * f + v) % 32 = v := by omega
  have hfree : 32 * f + v ∉ s.intc.masked.filter (· ≠ 32 * f + v) := by simp
  have hasleep : (s.withIntc (fun w => { w with masked := w.masked.filter (· ≠ 32 * f + v) })).linkAsleep = false := hl
  unfold State.msiUnmask State.msiFlush
  simp only [hasleep, Bool.false_eq_true, if_false, State.withIntc_intc, hdue, hfree, List.filter_cons, List.filter_nil, not_false_eq_true, decide_true, if_true, chainAll, List.foldl_cons,
    List.foldl_nil, hf, hvec]
  have hstate : ((s.withIntc (fun w => { w with masked := w.masked.filter (· ≠ 32 * f + v) })).withIntc (fun w => { w with due := w.due.filter (fun k => decide (k ∈ w.masked)) })) =
      s.withIntc (fun w => { w with masked := s.intc.masked.filter (· ≠ 32 * f + v), due := [] }) := by
    simp only [State.withIntc, hdue, List.filter_cons, hfree, decide_false, Bool.false_eq_true, if_false, List.filter_nil]
  simp only [hstate, msiSet_mask]
  rfl

-- ## The events

theorem exec_functionReset {s : State} {f : Nat} (hf : f < 2) : exec (.pcieFunctionReset f) s = .next (s.functionReset f) := onInstance_of (by simpa using hf) _

theorem exec_msiUnmask {s : State} {f v : Nat} (hf : f < 2) (hv : v < 32) : exec (.msiUnmask f v) s = .next (s.msiUnmask f v) := onInstance_of (by simp [hf, hv]) _

/-- The four fields of the link as they are written. -/
def linkFields (pm ltssm speed width : Nat) : List (Fld × Nat × Nat) :=
  [(F.PCIE_LINK_STATUS_PM_STATE, 0, pm), (F.PCIE_LINK_STATUS_LTSSM, 0, ltssm), (F.PCIE_LINK_STATUS_SPEED, 0, speed), (F.PCIE_LINK_STATUS_WIDTH, 0, width)]

/-- The link's own fields and activity, before what follows from its state. -/
def State.linkWrite (s : State) (pm ltssm speed width : Nat) : State :=
  (((((s.setF F.PCIE_LINK_STATUS_PM_STATE 0 pm).setF F.PCIE_LINK_STATUS_LTSSM 0 ltssm).setF F.PCIE_LINK_STATUS_SPEED 0 speed).setF F.PCIE_LINK_STATUS_WIDTH 0 width).withAon
    (fun w => { w with pcieActivity := decide (pm ≤ 1) })).noteFalls

theorem linkChange_eq (s : State) (pm ltssm speed width : Nat) : s.linkChange pm ltssm speed width =
    (let t := s.linkWrite pm ltssm speed width
     let t := if pm = 3 then (t.functionReset 0).functionReset 1 else t
     if pm = 0 then t.msiFlush else t) := rfl

theorem linkWrite_fields (s : State) {pm ltssm speed width : Nat} (h : pm < 4) (h' : ltssm < 64) (h'' : speed < 16) (h''' : width < 16) :
    Fields s (linkFields pm ltssm speed width) (s.linkWrite pm ltssm speed width) := by
  have hsets := ((((Sets.refl s).putNew F.PCIE_LINK_STATUS_PM_STATE 0 pm rfl h).putNew F.PCIE_LINK_STATUS_LTSSM 0 ltssm rfl h').putNew F.PCIE_LINK_STATUS_SPEED 0 speed rfl h'').putNew
    F.PCIE_LINK_STATUS_WIDTH 0 width rfl h'''
  exact ⟨hsets.2.1, hsets.2.2⟩

theorem aon_of_besideMsi {s t : State} (h : t.besideMsi = s.besideMsi) : t.aon = s.aon := by
  have haon := congrArg State.aon h
  exact haon

/-- A reset of both functions leaves the four fields of the link as they are. -/
theorem functionsReset_link (s : State) (x : Fld) (h : x ∈ [F.PCIE_LINK_STATUS_PM_STATE, F.PCIE_LINK_STATUS_LTSSM, F.PCIE_LINK_STATUS_SPEED, F.PCIE_LINK_STATUS_WIDTH]) :
    ((s.functionReset 0).functionReset 1).f x 0 = s.f x 0 := by
  have hreact : x.outside reactFields := by
    have key : [F.PCIE_LINK_STATUS_PM_STATE, F.PCIE_LINK_STATUS_LTSSM, F.PCIE_LINK_STATUS_SPEED, F.PCIE_LINK_STATUS_WIDTH].all (fun x => reactFields.all (fun y => decide (x.code ≠ y.code))) = true := by decide
    exact fun y hy => of_decide_eq_true (List.all_eq_true.mp (List.all_eq_true.mp key x h) y hy)
  have hsession : ∀ f ∈ [0, 1], x.outside [(sessionOf (8 * f)).1, (sessionOf (8 * f)).2, F.MBX_STATUS_EXPERT] := by
    have key : [F.PCIE_LINK_STATUS_PM_STATE, F.PCIE_LINK_STATUS_LTSSM, F.PCIE_LINK_STATUS_SPEED, F.PCIE_LINK_STATUS_WIDTH].all (fun x =>
        [0, 1].all (fun f => [(sessionOf (8 * f)).1, (sessionOf (8 * f)).2, F.MBX_STATUS_EXPERT].all (fun y => decide (x.code ≠ y.code)))) = true := by decide
    exact fun f hf y hy => of_decide_eq_true (List.all_eq_true.mp (List.all_eq_true.mp (List.all_eq_true.mp key x h) f hf) y hy)
  rw [functionReset_f _ 1 0 hreact (hsession 1 (by simp)), functionReset_f _ 0 0 hreact (hsession 0 (by simp))]

/-- What a change of the link does in every state of the link: its fields, its activity, and in L2 and above no session. -/
theorem linkChange_fields (s : State) {pm ltssm speed width : Nat} (h : pm < 4) (h' : ltssm < 64) (h'' : speed < 16) (h''' : width < 16) :
    (∀ e ∈ linkFields pm ltssm speed width, (s.linkChange pm ltssm speed width).f e.1 0 = e.2.2) ∧ (s.linkChange pm ltssm speed width).aon.pcieActivity = decide (pm ≤ 1) ∧
      (pm = 3 → (s.linkChange pm ltssm speed width).f F.GLB_EXPERT_UNLOCKED_F0 0 ≠ 1 ∧ (s.linkChange pm ltssm speed width).f F.GLB_EXPERT_UNLOCKED_F1 0 ≠ 1) ∧
      (pm ≠ 3 → ∀ (x : Fld) (i : Nat), x.outside [F.PCIE_LINK_STATUS_PM_STATE, F.PCIE_LINK_STATUS_LTSSM, F.PCIE_LINK_STATUS_SPEED, F.PCIE_LINK_STATUS_WIDTH] →
        (s.linkChange pm ltssm speed width).f x i = s.f x i) := by
  obtain ⟨hset, hkept⟩ := linkWrite_fields s h h' h'' h'''
  have hinst : ∀ e ∈ linkFields pm ltssm speed width, e.2.1 = 0 ∧ e.1 ∈ [F.PCIE_LINK_STATUS_PM_STATE, F.PCIE_LINK_STATUS_LTSSM, F.PCIE_LINK_STATUS_SPEED, F.PCIE_LINK_STATUS_WIDTH] := by
    simp [linkFields]
  have hset0 : ∀ e ∈ linkFields pm ltssm speed width, (s.linkWrite pm ltssm speed width).f e.1 0 = e.2.2 := fun e he => by
    have := hset e he
    rwa [(hinst e he).1] at this
  have hactive : (s.linkWrite pm ltssm speed width).aon.pcieActivity = decide (pm ≤ 1) := rfl
  have hother : ∀ (x : Fld) (i : Nat), x.outside [F.PCIE_LINK_STATUS_PM_STATE, F.PCIE_LINK_STATUS_LTSSM, F.PCIE_LINK_STATUS_SPEED, F.PCIE_LINK_STATUS_WIDTH] →
      (s.linkWrite pm ltssm speed width).f x i = s.f x i := fun x i hx => hkept x i fun e he hc => hx e.1 (hinst e he).2 hc.1
  rw [linkChange_eq]
  simp only
  by_cases hdown : pm = 3
  · rw [if_pos hdown, if_neg (by omega)]
    refine ⟨fun e he => ?_, ?_, fun _ => functionsReset_ended _, fun hne => absurd hdown hne⟩
    · rw [functionsReset_link _ _ (hinst e he).2]
      exact hset0 e he
    · rw [functionReset_aon, functionReset_aon]
      exact hactive
  · rw [if_neg hdown]
    by_cases hup : pm = 0
    · rw [if_pos hup]
      have hpm : (s.linkWrite pm ltssm speed width).f F.PCIE_LINK_STATUS_PM_STATE 0 = pm := hset0 (F.PCIE_LINK_STATUS_PM_STATE, 0, pm) (by simp [linkFields])
      refine ⟨fun e he => ?_, ?_, fun h3 => absurd h3 hdown, fun _ x i hx => ?_⟩
      · by_cases hcode : e.1.code = F.PCIE_LINK_STATUS_PM_STATE.code
        · simp only [linkFields, List.mem_cons, List.not_mem_nil, or_false] at he
          rcases he with rfl | rfl | rfl | rfl
          · exact (msiFlush_pmActive (hpm.trans hup)).trans hup.symm
          all_goals exact absurd hcode (by simp [F.PCIE_LINK_STATUS_PM_STATE, F.PCIE_LINK_STATUS_LTSSM, F.PCIE_LINK_STATUS_SPEED, F.PCIE_LINK_STATUS_WIDTH])
        · rw [msiFlush_f _ _ hcode]
          exact hset0 e he
      · rw [aon_of_besideMsi (besideMsi_msiFlush _)]
        exact hactive
      · rw [msiFlush_f _ _ (hx _ (by simp))]
        exact hother x i hx
    · rw [if_neg hup]
      exact ⟨hset0, hactive, fun h3 => absurd h3 hdown, fun _ => hother⟩

/-- A message leaves the masks as they are. -/
theorem masked_of_besideMsi {s t : State} (h : t.besideMsi = s.besideMsi) : t.intc.masked = s.intc.masked := by
  have hmasked := congrArg (fun u : State => u.intc.masked) h
  exact hmasked

/-- Settles O24: each event by what it leaves of locks, sessions, link and messages. -/
theorem pcieEvents : Obligations.PcieEvents := by
  refine ⟨fun s f hf => ⟨_, exec_functionReset hf, ?_, ?_, functionReset_ended s f, functionReset_msiEnable s f⟩, fun s => ⟨_, rfl, State.f_setF_same _ _ _ _, ?_, ?_⟩,
    fun s pm ltssm speed width h h' h'' h''' => ?_, fun s f v hf hv hdue hset he hpm => ⟨_, exec_msiUnmask hf hv, ?_⟩, fun s f v hf hv hdue hset hl => ⟨_, exec_msiUnmask hf hv, ?_⟩,
    fun s f v hf hv => ⟨_, exec_msiUnmask hf hv, fun k => ?_⟩, fun s => ⟨_, rfl, breakLocksOf_owner s (by decide)⟩⟩
  · intro n hn howner
    obtain ⟨hown, hbroken⟩ := functionReset_locks s hf n
    rw [hown, hbroken]
    exact (breakLocksOf_owner s (by omega)).1 n hn howner
  · intro n howner
    obtain ⟨hown, hbroken⟩ := functionReset_locks s hf n
    rw [hown, hbroken]
    exact (breakLocksOf_owner s (by omega)).2 n howner
  · rw [State.perst, State.f_setF_code _ _ _ _ _ _ (by decide)]
    exact (functionsReset_ended s).1
  · rw [State.perst, State.f_setF_code _ _ _ _ _ _ (by decide)]
    exact (functionsReset_ended s).2
  · obtain ⟨hset, hactive, hsessions, hframe⟩ := linkChange_fields s h h' h'' h'''
    refine ⟨s.linkChange pm ltssm speed width, ?_, hset (F.PCIE_LINK_STATUS_PM_STATE, 0, pm) (by simp [linkFields]), hset (F.PCIE_LINK_STATUS_LTSSM, 0, ltssm) (by simp [linkFields]),
      hset (F.PCIE_LINK_STATUS_SPEED, 0, speed) (by simp [linkFields]), hset (F.PCIE_LINK_STATUS_WIDTH, 0, width) (by simp [linkFields]), hactive, hsessions, hframe⟩
    calc exec (.pcieLinkStateChange pm ltssm speed width) s = .next (s.linkChange (pm % 4) ltssm speed width) := rfl
      _ = .next (s.linkChange pm ltssm speed width) := by rw [Nat.mod_eq_of_lt h]
  · have hl : s.linkAsleep = false := by simpa [State.linkAsleep] using hpm
    rw [msiUnmask_due hv hdue hl]
    simp only [hset, if_true]
    obtain ⟨hsent, hdue', hpm'⟩ := msiSend_sent (s := s.withIntc (fun w => { w with masked := w.masked.filter (· ≠ 32 * f + v), due := [] })) (v := v) he (by simp) hl
    exact ⟨hsent, hdue', hpm'⟩
  · rw [msiUnmask_due hv hdue hl]
    simp only [hset, Bool.false_eq_true, if_false]
    exact ⟨rfl, rfl, rfl⟩
  · rw [State.msiUnmask, masked_of_besideMsi (besideMsi_msiFlush _)]
    simp

end Sys2Proof.Machine

/-! Claims and completions of interrupts (R350 to R354). -/

namespace Sys2Proof.Machine

-- ## Claims (R350, R352)

theorem sourceNumbers_lt {n : Nat} (h : n ∈ sourceNumbers) : n < 1024 := by
  unfold sourceNumbers at h
  exact List.mem_range.mp (List.mem_of_mem_drop h)

theorem lowest_lt {s : State} {t n : Nat} {p : Nat → Bool} (h : s.lowest t p = some n) : n < 1024 := by
  have hmem : n ∈ sourceNumbers := List.mem_of_find?_eq_some (show sourceNumbers.find? (fun n => s.presentable t n && p n) = some n from h)
  exact sourceNumbers_lt hmem

/-- A claim with the stack full sets FULL; the vectors of the sources that it leaves send again. -/
theorem claim_full {s : State} {t : Nat} {p : Nat → Bool} (h : 8 ≤ (s.claimStack t).length) :
    ∃ l : List (Nat × Nat), s.claim t p = (chainAll l (fun k u => u.msiSend k.1 k.2) (s.setF F.INTC_TGT_STATUS_FULL t 1), 0) := by
  unfold State.claim
  rw [if_pos h]
  simp only
  split
  · exact ⟨_, rfl⟩
  · exact ⟨[], rfl⟩

section Sends
variable (l : List (Nat × Nat)) (s : State)

theorem sends_f {x : Fld} (i : Nat) (h : x.code ≠ F.PCIE_LINK_STATUS_PM_STATE.code) : (chainAll l (fun k u => u.msiSend k.1 k.2) s).f x i = s.f x i :=
  chainAll_f l _ _ _ (fun k u => msiSend_f u k.1 k.2 i h) s

theorem besideMsi_sends : (chainAll l (fun k u => u.msiSend k.1 k.2) s).besideMsi = s.besideMsi :=
  chainAll_keep State.besideMsi l _ (fun k u => besideMsi_msiSend u k.1 k.2) s

end Sends

theorem claim_empty {s : State} {t : Nat} {p : Nat → Bool} (h : (s.claimStack t).length < 8) (hn : s.lowest t p = none) : s.claim t p = (s.tgtCount t 1, 0) := by
  unfold State.claim
  rw [if_neg (Nat.not_le.mpr h), hn]

theorem claim_taken {s : State} {t n : Nat} {p : Nat → Bool} (h : (s.claimStack t).length < 8) (hn : s.lowest t p = some n) :
    s.claim t p = ((s.setStack t (s.claimStack t ++ [n])).msiScan, n + 2 ^ 31) := by
  unfold State.claim
  rw [if_neg (Nat.not_le.mpr h), hn]

theorem claimStack_setStack (s : State) (t : Nat) (l : List Nat) : (s.setStack t l).claimStack t = l := by
  simp only [State.claimStack, State.setStack, State.withIntc_intc, Tab.get_set_same]

theorem claimStack_taken (s : State) (t : Nat) (l : List Nat) : (s.setStack t l).msiScan.claimStack t = l := by
  rw [claimStack_of_besideMsi (besideMsi_msiScan _), claimStack_setStack]

theorem f_taken (s : State) (t : Nat) (l : List Nat) {x : Fld} (i : Nat) (h : x.code ≠ F.PCIE_LINK_STATUS_PM_STATE.code) : (s.setStack t l).msiScan.f x i = s.f x i := by
  rw [msiScan_f _ _ h, State.setStack, State.f_withIntc]

theorem tgtCount_same (s : State) (t k : Nat) : (s.tgtCount t k).f F.INTC_TGT_CNT_COUNT (3 * t + k) = min (s.f F.INTC_TGT_CNT_COUNT (3 * t + k) + 1) (2 ^ 32 - 1) :=
  State.f_count_same _ _ _ _ _ _ (by decide)

theorem tgtCount_intc (s : State) (t k : Nat) : (s.tgtCount t k).intc = s.intc := by
  unfold State.tgtCount State.count
  simp only
  split <;> rfl

/-- A level that falls during the claim counts and clears LEVEL. -/
theorem levelFell_true {s : State} {t n : Nat} (hn : n < 2 ^ 31) (h : s.readData = [n + 2 ^ 31]) : s.levelFell t true = { s.tgtCount t 0 with readData := [n] } := by
  have hbit : (n + 2 ^ 31).testBit 31 = true := by
    rw [Nat.testBit_eq_decide_div_mod_eq]
    exact decide_eq_true (by omega)
  simp only [State.levelFell, h, hbit, Bool.and_self, if_true, Nat.add_sub_cancel]

theorem levelFell_false (s : State) (t : Nat) : s.levelFell t false = s := by
  unfold State.levelFell
  split <;> rfl

theorem levelFell_zero {s : State} (t : Nat) (fell : Bool) (h : s.readData = [0]) : s.levelFell t fell = s := by
  simp [State.levelFell, h]

/-- A claim read that finds a source of target `t` with room on the stack: the source goes on top of it; a level that falls meanwhile clears LEVEL and counts. -/
theorem claimed_taken {s u : State} {t n : Nat} {p : Nat → Bool} (fell : Bool) (h : (s.claimStack t).length < 8) (hn : s.lowest t p = some n) (hu : u = (State.answer (s.claim t p)).levelFell t fell) :
    u.readData = [if fell then n else n + 2 ^ 31] ∧ u.claimStack t = s.claimStack t ++ [n] ∧
      u.f F.INTC_TGT_CNT_COUNT (3 * t) = (if fell then min (s.f F.INTC_TGT_CNT_COUNT (3 * t) + 1) (2 ^ 32 - 1) else s.f F.INTC_TGT_CNT_COUNT (3 * t)) ∧
      (fell = false → ∀ (x : Fld) (i : Nat), x.outside [F.PCIE_LINK_STATUS_PM_STATE] → u.f x i = s.f x i) := by
  have hlt := lowest_lt hn
  have hcount := f_taken s t (s.claimStack t ++ [n]) (x := F.INTC_TGT_CNT_COUNT) (3 * t) (by decide)
  rw [claim_taken h hn] at hu
  cases fell with
  | false =>
    rw [levelFell_false] at hu
    subst hu
    exact ⟨rfl, claimStack_taken s t _, hcount, fun _ x i hx => f_taken s t _ i (hx _ (by simp))⟩
  | true =>
    rw [levelFell_true (by omega) rfl] at hu
    subst hu
    refine ⟨rfl, ?_, ?_, fun hf => absurd hf (by decide)⟩
    · exact (congrArg (fun w : IntcState => Tab.get [] w.stack t) (tgtCount_intc _ t 0)).trans (claimStack_taken s t _)
    · exact (tgtCount_same _ t 0).trans (congrArg (fun c => min (c + 1) (2 ^ 32 - 1)) hcount)

theorem claimed_empty {s u : State} {t : Nat} {p : Nat → Bool} (fell : Bool) (h : (s.claimStack t).length < 8) (hn : s.lowest t p = none) (hu : u = (State.answer (s.claim t p)).levelFell t fell) :
    u.readData = [0] ∧ u.f F.INTC_TGT_CNT_COUNT (3 * t + 1) = min (s.f F.INTC_TGT_CNT_COUNT (3 * t + 1) + 1) (2 ^ 32 - 1) ∧ u.intc = s.intc := by
  rw [claim_empty h hn, levelFell_zero t fell rfl] at hu
  subst hu
  exact ⟨rfl, tgtCount_same s t 1, tgtCount_intc s t 1⟩

theorem claimed_full {s u : State} {t : Nat} {p : Nat → Bool} (fell : Bool) (h : 8 ≤ (s.claimStack t).length) (hu : u = (State.answer (s.claim t p)).levelFell t fell) :
    u.readData = [0] ∧ u.f F.INTC_TGT_STATUS_FULL t = 1 ∧ u.claimStack t = s.claimStack t ∧
      ∀ (x : Fld) (i : Nat), x.outside [F.INTC_TGT_STATUS_FULL, F.PCIE_LINK_STATUS_PM_STATE] → u.f x i = s.f x i := by
  obtain ⟨l, hl⟩ := claim_full (p := p) h
  rw [hl, levelFell_zero t fell rfl] at hu
  subst hu
  refine ⟨rfl, ?_, ?_, fun x i hx => ?_⟩
  · exact (sends_f l _ t (by decide)).trans (State.f_setF_same _ _ _ _)
  · exact claimStack_of_besideMsi (besideMsi_sends l (s.setF F.INTC_TGT_STATUS_FULL t 1)) t
  · exact (sends_f l _ i (hx _ (by simp))).trans (State.f_setF_code _ _ _ _ _ _ (hx _ (by simp)))

/-- A claim read that passes the checks of a read is a claim. -/
theorem exec_intcClaim {s : State} {o : Origin} {t : Nat} (fell : Bool) (ht : t < 4) (hr : s.readOk o .INTC_CLAIM t = true) :
    exec (.intcClaim o t fell) s = .next ((State.answer (s.claim t (fun n => decide (t ≠ 2) || !s.sourceSecure n))).levelFell t fell) := by
  calc exec (.intcClaim o t fell) s = onInstance (targetOk t) ((s.busRead o (RegId.INTC_CLAIM.addr t)).levelFell t (fell && Origin.present o s)) := rfl
    _ = .next ((State.answer (s.readReg o .INTC_CLAIM t)).levelFell t fell) := by
      rw [onInstance_of (show targetOk t = true from decide_eq_true ht), busRead_eq hr (regAt_INTC_CLAIM ht) (by decide) (by decide), (readOk_iff.mp hr).1, Bool.and_true]
    _ = _ := rfl

theorem exec_intcClaimS {s : State} {o : Origin} (fell : Bool) (hr : s.readOk o .INTC_CLAIM_S 0 = true) :
    exec (.intcClaimS o fell) s = .next ((State.answer (s.claim 2 (fun n => s.sourceSecure n))).levelFell 2 fell) := by
  calc exec (.intcClaimS o fell) s = .next ((s.busRead o (RegId.INTC_CLAIM_S.addr 0)).levelFell 2 (fell && Origin.present o s)) := rfl
    _ = .next ((State.answer (s.readReg o .INTC_CLAIM_S 0)).levelFell 2 fell) := by
      rw [busRead_eq hr regAt_INTC_CLAIM_S (by decide) (by decide), (readOk_iff.mp hr).1, Bool.and_true]
    _ = _ := rfl

/-- Settles O25: a claim finds a source, none, or a full stack. -/
theorem interruptClaims : Obligations.InterruptClaims := by
  refine ⟨fun s o t n ht hr hroom hn => ⟨_, exec_intcClaim false ht hr, ?_⟩, fun s o t n ht hr hroom hn => ⟨_, exec_intcClaim true ht hr, ?_⟩,
    fun s o t fell ht hr hroom hn => ⟨_, exec_intcClaim fell ht hr, claimed_empty fell hroom hn rfl⟩, fun s o t fell ht hr hfull => ⟨_, exec_intcClaim fell ht hr, claimed_full fell hfull rfl⟩,
    fun s o n fell hr hroom hn => ⟨_, exec_intcClaimS fell hr, ?_⟩, fun s o fell hr hroom hn => ⟨_, exec_intcClaimS fell hr, claimed_empty fell hroom hn rfl⟩,
    fun s o fell hr hfull => ⟨_, exec_intcClaimS fell hr, ?_⟩⟩
  · obtain ⟨hread, hstack, -, hframe⟩ := claimed_taken false hroom hn rfl
    exact ⟨hread, hstack, hframe rfl⟩
  · obtain ⟨hread, hstack, hcount, -⟩ := claimed_taken true hroom hn rfl
    exact ⟨hread, hstack, hcount⟩
  · obtain ⟨hread, hstack, -, -⟩ := claimed_taken fell hroom hn rfl
    exact ⟨hread, hstack⟩
  · obtain ⟨hread, hset, hstack, -⟩ := claimed_full fell hfull rfl
    exact ⟨hread, hset, hstack⟩

end Sys2Proof.Machine

/-! Completions of interrupts (R351, R354), routes and software sources (R344, R353, R358). -/

namespace Sys2Proof.Machine

-- ## Completions (R351)

theorem msiAgain_f (s : State) (t n : Nat) {x : Fld} (i : Nat) (h : x.code ≠ F.PCIE_LINK_STATUS_PM_STATE.code) : (s.msiAgain t n).f x i = s.f x i := by
  unfold State.msiAgain
  simp only
  split
  · rw [msiSend_f _ _ _ _ h, msiScan_f _ _ h]
  · exact msiScan_f _ _ h

theorem besideMsi_msiAgain (s : State) (t n : Nat) : (s.msiAgain t n).besideMsi = s.besideMsi := by
  unfold State.msiAgain
  simp only
  split
  · rw [besideMsi_msiSend, besideMsi_msiScan]
  · exact besideMsi_msiScan s

/-- The state with the parts left out that the application of a route may change. -/
def State.besideRoute (s : State) : State := { s with regs := [], intc := { s.intc with routeNext := [] } }

theorem besideRoute_applyRoute (s : State) (n : Nat) : (s.applyRoute n).besideRoute = s.besideRoute := by
  unfold State.applyRoute
  split <;> rfl

theorem claimStack_of_besideRoute {s t : State} (h : t.besideRoute = s.besideRoute) (k : Nat) : t.claimStack k = s.claimStack k := by
  have hstack := congrArg (fun u : State => Tab.get [] u.intc.stack k) h
  exact hstack

theorem claimStack_of_besideRaise {s t : State} (h : t.besideRaise = s.besideRaise) (k : Nat) : t.claimStack k = s.claimStack k := by
  have hstack := congrArg (fun u : State => Tab.get [] u.intc.stack k) h
  exact hstack

/-- A completion of what is not on the stack is counted (R351). -/
theorem complete_bad {s : State} {t n : Nat} (h : n = 0 ∨ n ∉ s.claimStack t) : s.complete t n = s.tgtCount t 2 := if_pos h

theorem complete_top {s : State} {t n : Nat} {l : List Nat} (hn : n ≠ 0) (h : s.claimStack t = l ++ [n]) : (s.complete t n).claimStack t = l := by
  have hmem : ¬(n = 0 ∨ n ∉ s.claimStack t) := by simp [hn, h]
  have hlast : (s.claimStack t).getLast? = some n := by simp [h]
  have hdrop : (s.claimStack t).dropLast = l := by simp [h]
  have heq : s.complete t n = ((s.setStack t (s.claimStack t).dropLast).applyRoute n).msiAgain t n := by
    rw [State.complete]
    simp only [hmem, hlast, if_false, if_true]
  rw [heq, claimStack_of_besideMsi (besideMsi_msiAgain _ t n), claimStack_of_besideRoute (besideRoute_applyRoute _ n), claimStack_setStack, hdrop]

/-- A completion out of order empties the stack, sets ORDER_ERR and raises INTC_ORDER (R351). -/
theorem complete_order {s : State} {t n : Nat} (hn : n ≠ 0) (hmem : n ∈ s.claimStack t) (hlast : (s.claimStack t).getLast? ≠ some n) :
    (s.complete t n).claimStack t = [] ∧ (s.complete t n).f F.INTC_TGT_STATUS_ORDER_ERR t = 1 ∧ (s.complete t n).f F.FLT_SRC_STATUS_ACTIVE 23 = 1 := by
  have hbad : ¬(n = 0 ∨ n ∉ s.claimStack t) := by simp [hn, hmem]
  have heq : s.complete t n = (((chainAll (s.claimStack t) (fun x u => u.applyRoute x) (s.setStack t [])).setF F.INTC_TGT_STATUS_ORDER_ERR t 1).raiseFault 23 t []).msiAgain t n := by
    rw [State.complete]
    simp only [hbad, hlast, if_false]
  have hroutes : (chainAll (s.claimStack t) (fun x u => u.applyRoute x) (s.setStack t [])).claimStack t = [] := by
    rw [claimStack_of_besideRoute (chainAll_keep State.besideRoute _ _ (fun x u => besideRoute_applyRoute u x) _), claimStack_setStack]
  have hbeside := besideRaise_raiseFault ((chainAll (s.claimStack t) (fun x u => u.applyRoute x) (s.setStack t [])).setF F.INTC_TGT_STATUS_ORDER_ERR t 1) 23 t []
  rw [heq]
  refine ⟨?_, ?_, ?_⟩
  · rw [claimStack_of_besideMsi (besideMsi_msiAgain _ t n), claimStack_of_besideRaise hbeside]
    exact hroutes
  · rw [msiAgain_f _ _ _ _ (by decide), State.raiseFault_f _ _ _ _ _ _ (by unfold Fld.outside; decide), State.f_setF_same]
    rfl
  · rw [msiAgain_f _ _ _ _ (by decide)]
    exact State.raiseFault_active _ _ _ _

theorem exec_intcComplete {s : State} {o : Origin} {t : Nat} (w : Word) (ht : t < 4) (hw : s.writeOk o .INTC_COMPLETE t = true) :
    exec (.intcComplete o t w) s = .next (s.complete t (w.toNat % 1024)) := by
  calc exec (.intcComplete o t w) s = onInstance (targetOk t) (s.regWriteBy o .INTC_COMPLETE t w) := rfl
    _ = .next (s.writeReg o .INTC_COMPLETE t w.toNat) := by rw [onInstance_of (show targetOk t = true from decide_eq_true ht), regWriteBy_eq w hw (regAt_INTC_COMPLETE ht) (by decide)]
    _ = _ := rfl

theorem exec_intcCompleteS {s : State} {o : Origin} (w : Word) (hw : s.writeOk o .INTC_COMPLETE_S 0 = true) :
    exec (.intcCompleteS o w) s = .next (s.complete 2 (w.toNat % 1024)) := by
  calc exec (.intcCompleteS o w) s = .next (s.regWriteBy o .INTC_COMPLETE_S 0 w) := rfl
    _ = .next (s.writeReg o .INTC_COMPLETE_S 0 w.toNat) := by rw [regWriteBy_eq w hw regAt_INTC_COMPLETE_S (by decide)]
    _ = _ := rfl

/-- Settles O26: the top of the stack, a source below it, or none of the stack. -/
theorem interruptCompletions : Obligations.InterruptCompletions := by
  refine ⟨fun s o t n l w ht hw hwn hn hstack => ⟨_, exec_intcComplete w ht hw, ?_⟩, fun s o t w ht hw hmem hn hlast => ⟨_, exec_intcComplete w ht hw, complete_order hn hmem hlast⟩,
    fun s o t w ht hw hbad => ⟨_, exec_intcComplete w ht hw, ?_⟩, fun s o n l w hw hwn hn hstack => ⟨_, exec_intcCompleteS w hw, ?_⟩,
    fun s o w hw hmem hn hlast => ⟨_, exec_intcCompleteS w hw, complete_order hn hmem hlast⟩, fun s o w hw hbad => ⟨_, exec_intcCompleteS w hw, ?_⟩⟩
  · rw [hwn]
    exact complete_top hn hstack
  · rw [complete_bad hbad]
    exact ⟨tgtCount_same s t 2, tgtCount_intc s t 2⟩
  · rw [hwn]
    exact complete_top hn hstack
  · rw [complete_bad hbad]
    exact ⟨tgtCount_same s 2 2, tgtCount_intc s 2 2⟩

-- ## Routes (R345, R353)

/-- The change of a route that waits, after a write of EN `en` and TARGET `target`: none where both are in force already. -/
def State.routeWaits (s : State) (n en target : Nat) : Option (Nat × Nat) := if en = s.f F.INTC_ROUTE_EN n ∧ target = s.f F.INTC_ROUTE_TARGET n then none else some (en, target)

/-- The fields of a route that a write writes at once: VECTOR, and WAKE_EN at a wake-capable source. -/
def routeFields (n wakeEn vector : Nat) : List (Fld × Nat × Nat) := [(F.INTC_ROUTE_VECTOR, n, vector)] ++ (if wakeCapable n then [(F.INTC_ROUTE_WAKE_EN, n, wakeEn)] else [])

/-- A write of a route that its world admits (R345): EN and TARGET wait, the other fields are written. -/
theorem sets_writeRoute {s : State} {n : Nat} (en : Nat) {wakeEn : Nat} (target : Nat) {vector : Nat} (hn : n ≠ 0) (hw : s.sourceSecure n = true → target ≠ 1 ∧ target ≠ 3)
    (hwake : wakeEn < 2) (hvec : vector < 32) :
    Sets (s.withIntc (fun y => { y with routeNext := Tab.set none y.routeNext n (s.routeWaits n en target) })) (routeFields n wakeEn vector) (s.writeRoute n en wakeEn target vector) := by
  have hgo : ¬(n = 0 ∨ (s.sourceSecure n = true ∧ (target = 1 ∨ target = 3))) := by
    rintro (h | ⟨h, h'⟩)
    · exact hn h
    · obtain ⟨h1, h3⟩ := hw h
      exact h'.elim h1 h3
  have hvector := (Sets.refl (s.withIntc (fun y => { y with routeNext := Tab.set none y.routeNext n (s.routeWaits n en target) }))).putNew F.INTC_ROUTE_VECTOR n vector rfl hvec
  have hkept : ∀ x : Fld, x.code ≠ F.INTC_ROUTE_VECTOR.code → (s.setF F.INTC_ROUTE_VECTOR n vector).f x n = s.f x n := fun x hx => State.f_setF_code _ _ _ _ _ _ hx
  have hkept' : ∀ x : Fld, x.code ≠ F.INTC_ROUTE_VECTOR.code → x.code ≠ F.INTC_ROUTE_WAKE_EN.code →
      ((s.setF F.INTC_ROUTE_VECTOR n vector).setF F.INTC_ROUTE_WAKE_EN n wakeEn).f x n = s.f x n := fun x hx hx' => (State.f_setF_code _ _ _ _ _ _ hx').trans (hkept x hx)
  unfold State.writeRoute routeFields
  rw [if_neg hgo]
  by_cases hcap : wakeCapable n = true
  · simp only [hcap, if_true, hkept' F.INTC_ROUTE_EN (by decide) (by decide), hkept' F.INTC_ROUTE_TARGET (by decide) (by decide)]
    exact hvector.putNew F.INTC_ROUTE_WAKE_EN n wakeEn rfl hwake
  · simp only [hcap, Bool.false_eq_true, if_false, hkept F.INTC_ROUTE_EN (by decide), hkept F.INTC_ROUTE_TARGET (by decide)]
    exact hvector

theorem writeRoute_refused {s : State} {n target : Nat} (en wakeEn vector : Nat) (hs : s.sourceSecure n = true) (ht : target = 1 ∨ target = 3) :
    s.writeRoute n en wakeEn target vector = s := if_pos (.inr ⟨hs, ht⟩)

theorem exec_intcRouteWrite {s : State} {o : Origin} {n : Nat} (w : Word) (hn : n < 1024) (hw : s.writeOk o .INTC_ROUTE n = true) :
    exec (.intcRouteWrite o n w) s = .next (s.writeRoute n (w.toNat / 2 ^ 31 % 2) (w.toNat / 2 ^ 30 % 2) (w.toNat / 2 ^ 16 % 4) (w.toNat / 2 ^ 8 % 32)) := by
  calc exec (.intcRouteWrite o n w) s = onInstance (decide (n < 1024)) (s.regWriteBy o .INTC_ROUTE n w) := rfl
    _ = .next (s.writeReg o .INTC_ROUTE n w.toNat) := by rw [onInstance_of (decide_eq_true hn), regWriteBy_eq w hw (regAt_INTC_ROUTE hn) (by decide)]
    _ = _ := rfl

theorem exec_intcRouteApply (s : State) {n : Nat} (hn : n < 1024) : exec (.intcRouteApply n) s = .next (s.routeApply n) := onInstance_of (decide_eq_true hn) _

theorem applyRoute_waiting {s : State} {n e g : Nat} (h : Tab.get none s.intc.routeNext n = some (e, g)) :
    s.applyRoute n = ((s.withIntc (fun w => { w with routeNext := Tab.set none w.routeNext n none })).setF F.INTC_ROUTE_EN n e).setF F.INTC_ROUTE_TARGET n g := by
  rw [State.applyRoute, h]

theorem applyRoute_none {s : State} {n : Nat} (h : Tab.get none s.intc.routeNext n = none) : s.applyRoute n = s := by
  rw [State.applyRoute, h]

theorem routeNext_of_besideMsi {s t : State} (h : t.besideMsi = s.besideMsi) : t.intc.routeNext = s.intc.routeNext := by
  have hnext := congrArg (fun u : State => u.intc.routeNext) h
  exact hnext

-- ## Software sources (R344)

theorem exec_intcSwSet {s : State} {o : Origin} (hi : Bool) (w : Word) (hw : s.writeOk o (if hi then .INTC_SW_SET_HI else .INTC_SW_SET_LO) 0 = true) :
    exec (.intcSwSet o hi w) s = .next ((s.setF (if hi then F.INTC_SW_SET_HI_LEVEL else F.INTC_SW_SET_LO_LEVEL) 0 (s.f (if hi then F.INTC_SW_SET_HI_LEVEL else F.INTC_SW_SET_LO_LEVEL) 0 ||| w.toNat)).msiScan) := by
  have hof : ∀ x : Fld, x.lo = 0 → x.len = 32 → x.of w.toNat = w.toNat := fun x hlo hlen => by
    rw [Fld.of, hlo, hlen, pow_zero, Nat.div_one, Nat.mod_eq_of_lt w.isLt]
  cases hi with
  | false =>
    calc exec (.intcSwSet o false w) s = .next (s.regWriteBy o .INTC_SW_SET_LO 0 w) := rfl
      _ = .next ((s.setF F.INTC_SW_SET_LO_LEVEL 0 (s.f F.INTC_SW_SET_LO_LEVEL 0 ||| F.INTC_SW_SET_LO_LEVEL.of w.toNat)).msiScan) := by
        rw [regWriteBy_eq (r := .INTC_SW_SET_LO) w hw regAt_INTC_SW_SET_LO (by decide)]
        rfl
      _ = _ := by rw [hof _ rfl rfl]; rfl
  | true =>
    calc exec (.intcSwSet o true w) s = .next (s.regWriteBy o .INTC_SW_SET_HI 0 w) := rfl
      _ = .next ((s.setF F.INTC_SW_SET_HI_LEVEL 0 (s.f F.INTC_SW_SET_HI_LEVEL 0 ||| F.INTC_SW_SET_HI_LEVEL.of w.toNat)).msiScan) := by
        rw [regWriteBy_eq (r := .INTC_SW_SET_HI) w hw regAt_INTC_SW_SET_HI (by decide)]
        rfl
      _ = _ := by rw [hof _ rfl rfl]; rfl

theorem exec_intcSwClr {s : State} {o : Origin} (hi : Bool) (w : Word) (hw : s.writeOk o (if hi then .INTC_SW_CLR_HI else .INTC_SW_CLR_LO) 0 = true) :
    exec (.intcSwClr o hi w) s = .next ((s.clrF (if hi then F.INTC_SW_SET_HI_LEVEL else F.INTC_SW_SET_LO_LEVEL) 0 w.toNat).msiScan) := by
  cases hi with
  | false =>
    calc exec (.intcSwClr o false w) s = .next (s.regWriteBy o .INTC_SW_CLR_LO 0 w) := rfl
      _ = _ := by
        rw [regWriteBy_eq (r := .INTC_SW_CLR_LO) w hw regAt_INTC_SW_CLR_LO (by decide)]
        rfl
  | true =>
    calc exec (.intcSwClr o true w) s = .next (s.regWriteBy o .INTC_SW_CLR_HI 0 w) := rfl
      _ = _ := by
        rw [regWriteBy_eq (r := .INTC_SW_CLR_HI) w hw regAt_INTC_SW_CLR_HI (by decide)]
        rfl

/-- A software level written, and the messages that follow. -/
theorem msiScan_setF (s : State) (x : Fld) (v : Nat) (hx : x.code ≠ F.PCIE_LINK_STATUS_PM_STATE.code) :
    (s.setF x 0 v).msiScan.f x 0 = v % 2 ^ x.len ∧ ∀ (y : Fld) (i : Nat), y.outside [F.PCIE_LINK_STATUS_PM_STATE, x] → (s.setF x 0 v).msiScan.f y i = s.f y i := by
  refine ⟨?_, fun y i hy => ?_⟩
  · rw [msiScan_f _ _ hx, State.f_setF_same]
  · rw [msiScan_f _ _ (hy _ (by simp)), State.f_setF_code _ _ _ _ _ _ (hy _ (by simp))]

-- ## INTC_ROUTE_SET

/-- The world of a source depends on SEC_BLOCK_WORLD alone. -/
theorem sourceSecure_congr {s t : State} (h1 : t.f F.SEC_BLOCK_WORLD_WORLD1 0 = s.f F.SEC_BLOCK_WORLD_WORLD1 0) (h : t.f F.SEC_BLOCK_WORLD_WORLD 0 = s.f F.SEC_BLOCK_WORLD_WORLD 0) (n : Nat) :
    t.sourceSecure n = s.sourceSecure n := by
  have hblock : t.blockSecure = s.blockSecure := funext fun b => by simp only [State.blockSecure, State.fb, h1, h]
  simp only [State.sourceSecure, hblock]

/-- One entry of INTC_ROUTE_SET is written. -/
def State.writeEntry (e : List Byte) (s : State) : State := s.writeRoute (leAt e 0 2) (byteAt e 2 % 2) (byteAt e 2 / 2) (byteAt e 3) (byteAt e 4)

/-- What `routeEntryOk` says of an entry that is written. -/
theorem sets_writeEntry {s : State} {e : List Byte} (h : s.routeEntryOk e = true) :
    Sets (s.withIntc (fun y => { y with routeNext := Tab.set none y.routeNext (leAt e 0 2) (s.routeWaits (leAt e 0 2) (byteAt e 2 % 2) (byteAt e 3)) })) (routeFields (leAt e 0 2) (byteAt e 2 / 2) (byteAt e 4))
      (s.writeEntry e) := by
  simp only [State.routeEntryOk, Bool.and_eq_true, decide_eq_true_eq, Bool.not_eq_true', Bool.and_eq_false_iff, Bool.or_eq_false_iff, decide_eq_false_iff_not] at h
  obtain ⟨⟨⟨⟨⟨⟨hlow, -⟩, hflags⟩, -⟩, hvector⟩, -⟩, hworld⟩ := h
  exact sets_writeRoute _ _ (by omega) (fun hs => hworld.resolve_left (by simp [hs])) (by omega) (by omega)

theorem mem_routeFields {e : Fld × Nat × Nat} {n wakeEn vector : Nat} (h : e ∈ routeFields n wakeEn vector) : (e.1 = F.INTC_ROUTE_VECTOR ∨ e.1 = F.INTC_ROUTE_WAKE_EN) ∧ e.2.1 = n := by
  unfold routeFields at h
  split at h
  · simp only [List.cons_append, List.nil_append, List.mem_cons, List.not_mem_nil, or_false] at h
    rcases h with rfl | rfl <;> simp
  · simp only [List.append_nil, List.mem_singleton] at h
    simp [h]

/-- What entries for other sources leave of source `n`: its fields and its waiting change; and of the registers they write VECTOR and WAKE_EN alone. -/
def State.routeAlike (n : Nat) (s t : State) : Prop :=
  (∀ x i, x.outside [F.INTC_ROUTE_VECTOR, F.INTC_ROUTE_WAKE_EN] → t.f x i = s.f x i) ∧ (∀ x, t.f x n = s.f x n) ∧ Tab.get none t.intc.routeNext n = Tab.get none s.intc.routeNext n

theorem writeEntry_frame {s : State} {e : List Byte} (h : s.routeEntryOk e = true) (x : Fld) (i : Nat) (hx : x.outside [F.INTC_ROUTE_VECTOR, F.INTC_ROUTE_WAKE_EN]) : (s.writeEntry e).f x i = s.f x i := by
  obtain ⟨-, -, hkept⟩ := sets_writeEntry h
  refine hkept x i fun e' he hc => ?_
  rcases (mem_routeFields he).1 with h' | h' <;> exact hx _ (by simp) (hc.1.trans (congrArg Fld.code h'))

theorem writeEntry_alike {s : State} {e : List Byte} {n : Nat} (h : s.routeEntryOk e = true) (hn : leAt e 0 2 ≠ n) : s.routeAlike n (s.writeEntry e) := by
  refine ⟨writeEntry_frame h, fun x => ?_, ?_⟩
  · obtain ⟨-, -, hkept⟩ := sets_writeEntry h
    exact hkept x n fun e' he hc => hn ((mem_routeFields he).2.symm.trans hc.2.symm)
  · have hintc : (s.writeEntry e).intc.routeNext = Tab.set none s.intc.routeNext (leAt e 0 2) (s.routeWaits (leAt e 0 2) (byteAt e 2 % 2) (byteAt e 3)) :=
      congrArg (fun t : State => t.intc.routeNext) (sets_writeEntry h).1
    rw [hintc, Tab.get_set_ne _ _ _ hn.symm]

/-- The checks of an entry do not depend on what other entries write. -/
theorem routeEntryOk_congr {s t : State} (h : ∀ x i, x.outside [F.INTC_ROUTE_VECTOR, F.INTC_ROUTE_WAKE_EN] → t.f x i = s.f x i) (e : List Byte) : t.routeEntryOk e = s.routeEntryOk e := by
  have hworld : t.sourceSecure (leAt e 0 2) = s.sourceSecure (leAt e 0 2) := sourceSecure_congr (h _ _ (by unfold Fld.outside; decide)) (h _ _ (by unfold Fld.outside; decide)) _
  simp only [State.routeEntryOk, hworld]

theorem writeEntries_frame (l : List (List Byte)) {s : State} (h : ∀ e ∈ l, s.routeEntryOk e = true) (x : Fld) (i : Nat) (hx : x.outside [F.INTC_ROUTE_VECTOR, F.INTC_ROUTE_WAKE_EN]) :
    (chainAll l State.writeEntry s).f x i = s.f x i := by
  induction l generalizing s with
  | nil => rfl
  | cons e l ih =>
    have he := h e List.mem_cons_self
    refine (ih (s := s.writeEntry e) fun e' he' => ?_).trans (writeEntry_frame he x i hx)
    rw [routeEntryOk_congr (writeEntry_frame he)]
    exact h e' (List.mem_cons_of_mem _ he')

/-- Entries of other sources leave source `n` alone. -/
theorem writeEntries_alike (l : List (List Byte)) {s : State} {n : Nat} (h : ∀ e ∈ l, s.routeEntryOk e = true) (hn : ∀ e ∈ l, leAt e 0 2 ≠ n) : s.routeAlike n (chainAll l State.writeEntry s) := by
  induction l generalizing s with
  | nil => exact ⟨fun _ _ _ => rfl, fun _ => rfl, rfl⟩
  | cons e l ih =>
    obtain ⟨hframe, hfields, hnext⟩ := writeEntry_alike (h e List.mem_cons_self) (hn e List.mem_cons_self)
    obtain ⟨hframe', hfields', hnext'⟩ := ih (s := s.writeEntry e) (fun e' he' => by rw [routeEntryOk_congr hframe]; exact h e' (List.mem_cons_of_mem _ he')) (fun e' he' => hn e' (List.mem_cons_of_mem _ he'))
    exact ⟨fun x i hx => (hframe' x i hx).trans (hframe x i hx), fun x => (hfields' x).trans (hfields x), hnext'.trans hnext⟩

/-- The last entry of a source counts: its VECTOR, its WAKE_EN and its waiting change. -/
theorem writeEntries_last {s : State} (pre : List (List Byte)) {e : List Byte} (post : List (List Byte)) (h : ∀ e' ∈ pre ++ e :: post, s.routeEntryOk e' = true)
    (hlast : ∀ e' ∈ post, leAt e' 0 2 ≠ leAt e 0 2) :
    (chainAll (pre ++ e :: post) State.writeEntry s).f F.INTC_ROUTE_VECTOR (leAt e 0 2) = byteAt e 4 ∧
      (wakeCapable (leAt e 0 2) = true → (chainAll (pre ++ e :: post) State.writeEntry s).f F.INTC_ROUTE_WAKE_EN (leAt e 0 2) = byteAt e 2 / 2) ∧
      Tab.get none (chainAll (pre ++ e :: post) State.writeEntry s).intc.routeNext (leAt e 0 2) = s.routeWaits (leAt e 0 2) (byteAt e 2 % 2) (byteAt e 3) := by
  have hpre : ∀ e' ∈ pre, s.routeEntryOk e' = true := fun e' he' => h e' (List.mem_append_left _ he')
  have hframe := fun x i hx => writeEntries_frame pre hpre x i hx
  have hchain : chainAll (pre ++ e :: post) State.writeEntry s = chainAll post State.writeEntry ((chainAll pre State.writeEntry s).writeEntry e) := by
    simp only [chainAll, List.foldl_append, List.foldl_cons]
  have hok : (chainAll pre State.writeEntry s).routeEntryOk e = true := by
    rw [routeEntryOk_congr hframe]
    exact h e (by simp)
  have hframe' := fun x i hx => (writeEntry_frame hok x i hx).trans (hframe x i hx)
  obtain ⟨-, hfields, hnext⟩ := writeEntries_alike post (s := (chainAll pre State.writeEntry s).writeEntry e)
    (fun e' he' => by rw [routeEntryOk_congr hframe']; exact h e' (List.mem_append_right _ (List.mem_cons_of_mem _ he'))) hlast
  obtain ⟨hstate, hset, -⟩ := sets_writeEntry hok
  rw [hchain, hfields, hfields, hnext]
  refine ⟨hset (F.INTC_ROUTE_VECTOR, leAt e 0 2, byteAt e 4) (by simp [routeFields]), fun hcap => hset (F.INTC_ROUTE_WAKE_EN, leAt e 0 2, byteAt e 2 / 2) (by simp [routeFields, hcap]), ?_⟩
  rw [hstate]
  refine (Tab.get_set_same _ _ _ _).trans ?_
  simp only [State.routeWaits, hframe F.INTC_ROUTE_EN _ (by unfold Fld.outside; decide), hframe F.INTC_ROUTE_TARGET _ (by unfold Fld.outside; decide)]

/-- INTC_ROUTE_SET whose entries are all in range and within the mailbox's right writes them all. -/
theorem exec_intcRouteSet {s : State} {m c : Nat} (ha : s.accepts m 0x0490 = true) (hc : c = byteAt (s.mbxArgs m) 0) (h1 : 1 ≤ c) (h41 : c ≤ 41) (hl : s.mbxLen m = 2 + 6 * c)
    (hz : byteAt (s.mbxArgs m) 1 = 0)
    (he : ∀ i, i < c → s.routeEntryOk (routeEntry (s.mbxArgs m) i) = true ∧ (8 ≤ m ∧ m ≤ 11 ∨ s.sourceSecure (leAt (routeEntry (s.mbxArgs m) i) 0 2) = false)) :
    exec (.intcRouteSet m) s = .next ((chainAll ((List.range c).map (routeEntry (s.mbxArgs m))) State.writeEntry s).putResult m stOk []) := by
  have hlen : (s.mbxArgs m).length = 2 + 6 * c := by rw [mbxArgs_length (by omega), hl]
  have hright : ¬(¬(8 ≤ m ∧ m ≤ 11) ∧ ((List.range c).map (routeEntry (s.mbxArgs m))).any (fun e => s.sourceSecure (leAt e 0 2)) = true) := by
    rintro ⟨hm, hany⟩
    obtain ⟨e, hmem, hsec⟩ := List.any_eq_true.mp hany
    obtain ⟨i, hi, rfl⟩ := List.mem_map.mp hmem
    rcases (he i (List.mem_range.mp hi)).2 with hm' | hs
    · exact hm hm'
    · rw [hs] at hsec
      exact absurd hsec (by decide)
  have hall : ((List.range c).map (routeEntry (s.mbxArgs m))).all s.routeEntryOk = true := by
    rw [List.all_eq_true]
    intro e hmem
    obtain ⟨i, hi, rfl⟩ := List.mem_map.mp hmem
    exact (he i (List.mem_range.mp hi)).1
  rw [exec_served (c := .intcRouteSet m) rfl ha (by simp [hl]; omega)]
  simp only [← hc, hlen, Nat.ne_of_gt h1, Nat.not_lt.mpr h41, hz, hall, Bool.true_eq_false, ne_eq, not_true_eq_false, or_self, if_false]
  rw [if_neg hright]
  rfl

theorem mem_resultFields {e : Fld × Nat × Nat} {m tag status : Nat} {data : List Byte} (h : e ∈ answer m tag status data) : e.1 ∈ resultFields := by
  simp only [answer, List.mem_append, List.mem_map, List.mem_cons, List.not_mem_nil, or_false] at h
  rcases h with ⟨i, -, rfl⟩ | rfl | rfl | rfl | rfl | rfl <;> simp [resultFields]

theorem sets_answered {s t : State} {m status : Nat} {data : List Byte} (hs : status < 65536) (hd : data.length ≤ 248) (ht : t = s.putResult m status data) :
    t.answered m (s.mbxTag m) status data ∧ (∀ (x : Fld) (i : Nat), x.outside resultFields → t.f x i = s.f x i) ∧ t.intc = s.intc := by
  subst ht
  obtain ⟨hstate, hset, hkept⟩ := sets_putResult s m hs hd
  exact ⟨hset, fun x i hx => hkept x i fun e he hc => hx _ (mem_resultFields he) hc.1, by rw [hstate]⟩

theorem mbxTag_congr {s t : State} (m : Nat) (h : t.f F.MBX_COMMAND_DATA (64 * m + 0) = s.f F.MBX_COMMAND_DATA (64 * m + 0)) : t.mbxTag m = s.mbxTag m := by
  simp only [State.mbxTag, State.mbxWord, h]

/-- The indices of a run of entries, split at one of them. -/
theorem map_range_split {α : Type} (g : Nat → α) {i c : Nat} (h : i < c) :
    (List.range c).map g = (List.range i).map g ++ g i :: (List.range (c - (i + 1))).map (fun k => g (i + 1 + k)) := by
  obtain ⟨d, rfl⟩ : ∃ d, c = i + 1 + d := ⟨c - (i + 1), by omega⟩
  rw [Nat.add_sub_cancel_left, List.range_add, List.range_succ, List.map_append, List.map_append, List.map_map]
  simp [Function.comp_def]

/-- Settles O27: writes and applications of one route, the entries of INTC_ROUTE_SET, software levels and wake latches. -/
theorem interruptRoutes : Obligations.InterruptRoutes := by
  refine ⟨fun s o n w hn hn' hw hworld => ⟨_, exec_intcRouteWrite w hn' hw, ?_⟩, fun s n e g hn hfree hwait he hg => ⟨_, exec_intcRouteApply s hn, ?_⟩, fun s o n w hn hn' hw hs ht => ?_,
    fun s n hn hclaimed => ?_, fun s n hn hnone => ⟨_, exec_intcRouteApply s hn, fun x i hx => ?_⟩, fun s m c ha hc h1 h41 hl hz he => ⟨_, exec_intcRouteSet ha hc h1 h41 hl hz he, ?_⟩,
    fun s o w hw => ⟨_, exec_intcSwSet false w hw, msiScan_setF s F.INTC_SW_SET_LO_LEVEL _ (by decide)⟩, fun s o w hw => ⟨_, exec_intcSwSet true w hw, msiScan_setF s F.INTC_SW_SET_HI_LEVEL _ (by decide)⟩,
    fun s o w hw => ⟨_, exec_intcSwClr false w hw, msiScan_setF s F.INTC_SW_SET_LO_LEVEL _ (by decide)⟩, fun s o w hw => ⟨_, exec_intcSwClr true w hw, msiScan_setF s F.INTC_SW_SET_HI_LEVEL _ (by decide)⟩,
    fun s n hn hstandby hcap hlevel hsteady hlatch => ?_, fun s n hn hquiet => ?_⟩
  · exact sets_writeRoute _ _ (by omega) hworld (Nat.mod_lt _ (by decide)) (Nat.mod_lt _ (by decide))
  · have happly := applyRoute_waiting hwait
    rw [State.routeApply, hfree, if_neg (by decide), happly]
    refine ⟨?_, ?_, ?_, fun x i hx => ?_⟩
    · rw [msiScan_f _ _ (by decide), State.f_setF_code _ _ _ _ _ _ (by decide), State.f_setF_same]
      exact Nat.mod_eq_of_lt he
    · rw [msiScan_f _ _ (by decide), State.f_setF_same]
      exact Nat.mod_eq_of_lt hg
    · rw [routeNext_of_besideMsi (besideMsi_msiScan _)]
      simp only [State.setF, State.withIntc, Tab.get_set_same]
    · rw [msiScan_f _ _ (hx _ (by simp)), State.f_setF_code _ _ _ _ _ _ (hx _ (by simp)), State.f_setF_code _ _ _ _ _ _ (hx _ (by simp)), State.f_withIntc]
  · rw [exec_intcRouteWrite w hn' hw, writeRoute_refused _ _ _ hs ht]
  · rw [exec_intcRouteApply s hn, State.routeApply, if_pos hclaimed]
  · rw [State.routeApply]
    split
    · rfl
    · rw [applyRoute_none hnone]
      exact msiScan_f s i (hx _ (by simp))
  · have hok : ∀ e ∈ (List.range c).map (routeEntry (s.mbxArgs m)), s.routeEntryOk e = true := fun e hmem => by
      obtain ⟨i, hi, rfl⟩ := List.mem_map.mp hmem
      exact (he i (List.mem_range.mp hi)).1
    have hframe := fun x i hx => writeEntries_frame _ hok x i hx
    obtain ⟨hanswer, hresult, hintc⟩ := sets_answered (s := chainAll ((List.range c).map (routeEntry (s.mbxArgs m))) State.writeEntry s) (m := m) (status := 0) (data := []) (by decide) (by simp) rfl
    refine ⟨?_, fun i hi hlast => ?_, fun x i hx => ?_⟩
    · rw [mbxTag_congr m (hframe _ _ (by unfold Fld.outside; decide))] at hanswer
      exact hanswer
    · rw [map_range_split (routeEntry (s.mbxArgs m)) hi] at hok hresult hintc ⊢
      obtain ⟨hvector, hwake, hnext⟩ := writeEntries_last _ _ hok (fun e' hmem => by
        obtain ⟨k, hk, rfl⟩ := List.mem_map.mp hmem
        exact hlast _ (by omega) (by have := List.mem_range.mp hk; omega))
      refine ⟨(hresult _ _ (by unfold Fld.outside; decide)).trans hvector, fun hcap => (hresult _ _ (by unfold Fld.outside; decide)).trans (hwake hcap), ?_⟩
      exact (congrArg (fun w : IntcState => Tab.get none w.routeNext _) hintc).trans hnext
    · have hx' : x.outside resultFields := fun y hy => hx y (List.mem_cons_of_mem _ (List.mem_cons_of_mem _ hy))
      refine (hresult x i hx').trans (hframe x i fun y hy => hx y ?_)
      simp only [List.mem_cons, List.not_mem_nil, or_false] at hy ⊢
      rcases hy with rfl | rfl <;> simp
  · calc exec (.wakeLatchSet n) s = onInstance (decide (n < 1024)) (s.setLatch n) := rfl
      _ = _ := by
        rw [onInstance_of (decide_eq_true hn), State.setLatch, if_pos (by simp [hstandby, hcap, hlevel, hsteady, hlatch])]
  · calc exec (.wakeLatchSet n) s = onInstance (decide (n < 1024)) (s.setLatch n) := rfl
      _ = _ := by
        rw [onInstance_of (decide_eq_true hn), State.setLatch, if_neg]
        rcases hquiet with h | h | h | h | h <;> simp [h]

end Sys2Proof.Machine

/-! Faults (R225, R359 to R373): what the log, the ports and FATAL leave of holders and timers; commands and timers of the fault collector. -/

namespace Sys2Proof.Machine

-- ## Holders and timers

/-- Ports held and grace timers that run. -/
def State.faultMarks (s : State) : Tab (List Nat) × Tab (Option Grace) := (s.flt.holders, s.flt.grace)

@[simp] theorem faultMarks_setF (s : State) (x : Fld) (i v : Nat) : (s.setF x i v).faultMarks = s.faultMarks := Eq.trans rfl rfl

@[simp] theorem faultMarks_count (s : State) (x : Fld) (i : Nat) (y : Fld) (j k : Nat) : (s.count x i y j k).faultMarks = s.faultMarks := by
  unfold State.count
  simp only
  split <;> rfl

@[simp] theorem faultMarks_withLamp (s : State) (g : LampState → LampState) : (s.withLamp g).faultMarks = s.faultMarks := Eq.trans rfl rfl
@[simp] theorem faultMarks_withPwr (s : State) (g : PwrState → PwrState) : (s.withPwr g).faultMarks = s.faultMarks := Eq.trans rfl rfl
@[simp] theorem faultMarks_withCodec (s : State) (g : CodecState → CodecState) : (s.withCodec g).faultMarks = s.faultMarks := Eq.trans rfl rfl

/-- A write of the log. -/
theorem faultMarks_log (s : State) (l : FltState → Tab (List Byte)) : (s.withFlt (fun w => { w with log := l w })).faultMarks = s.faultMarks := Eq.trans rfl rfl

theorem faultMarks_logEvent (s : State) (kind fsid cls inst : Nat) (d : List Byte) : (s.logEvent kind fsid cls inst d).faultMarks = s.faultMarks := by
  have hlost : ∀ t : State, t.evtLost.faultMarks = t.faultMarks := fun t => by simp only [State.evtLost, faultMarks_setF, faultMarks_count]
  unfold State.logEvent
  simp only [faultMarks_setF, faultMarks_log]
  split
  · rw [hlost, faultMarks_setF]
  · rfl

theorem faultMarks_settleChan (s : State) (n : Nat) : (s.settleChan n).faultMarks = s.faultMarks := by
  have hbuf : ∀ t : State, (t.showBuf n).faultMarks = t.faultMarks := fun t => by unfold State.showBuf; split <;> rfl
  unfold State.settleChan
  simp only
  split_ifs <;> simp only [faultMarks_setF, hbuf]

theorem faultMarks_refreshPort (s : State) (n : Nat) : (s.refreshPort n).faultMarks = s.faultMarks := by
  have hdrop : ∀ (t : State) (d : Nat), (t.dropDisplay d).faultMarks = t.faultMarks := fun t d => by unfold State.dropDisplay; simp only; split <;> rfl
  unfold State.refreshPort
  simp only
  split
  · split
    · simp only [hdrop, faultMarks_settleChan, faultMarks_setF, State.setPort, faultMarks_withLamp]
    · simp only [faultMarks_settleChan, faultMarks_setF, State.setPort, faultMarks_withLamp]
  · split <;> simp only [faultMarks_setF, State.setPort, faultMarks_withLamp]

theorem faultMarks_hewersOut (s : State) : s.hewersOut.faultMarks = s.faultMarks := by
  simp only [State.hewersOut, faultMarks_withCodec]
  exact chainAll_keep State.faultMarks _ _ (fun h t => by simp only [faultMarks_setF]) s

theorem faultMarks_enterFatal (s : State) (fsid : Nat) : (s.enterFatal fsid).faultMarks = s.faultMarks := by
  unfold State.enterFatal
  split
  · rfl
  · simp only [State.refreshPorts]
    rw [chainAll_keep State.faultMarks _ _ (fun n t => faultMarks_refreshPort t n), faultMarks_hewersOut]
    simp only [faultMarks_withPwr, faultMarks_logEvent, faultMarks_setF]

theorem holders_of_faultMarks {s t : State} (h : t.faultMarks = s.faultMarks) : t.flt.holders = s.flt.holders := congrArg Prod.fst h

theorem grace_of_faultMarks {s t : State} (h : t.faultMarks = s.faultMarks) : t.flt.grace = s.flt.grace := congrArg Prod.snd h

theorem portHolders_congr {s t : State} (h : t.flt.holders = s.flt.holders) (p : Nat) : t.holders p = s.holders p := congrArg (fun w => Tab.get [] w p) h

theorem holders_setHolders (s : State) (n p : Nat) (l : List Nat) : (s.setHolders n l).holders p = if p = n then l else s.holders p := by
  simp only [State.holders, State.setHolders, State.withFlt_flt, Tab.get_set]

theorem grace_setHolders (s : State) (n : Nat) (l : List Nat) : (s.setHolders n l).flt.grace = s.flt.grace := rfl

-- ## A source holds ports, and lets go of them (R363)

/-- The reaction of a source at one port. -/
def State.holdPort (fsid n : Nat) (s : State) : State := (s.setHolders n (if fsid ∈ s.holders n then s.holders n else fsid :: s.holders n)).refreshPort n

theorem holders_holdPort (s : State) (fsid n p : Nat) : (s.holdPort fsid n).holders p = if p = n then (if fsid ∈ s.holders n then s.holders n else fsid :: s.holders n) else s.holders p := by
  unfold State.holdPort
  rw [portHolders_congr (holders_of_faultMarks (faultMarks_refreshPort _ _)), holders_setHolders]

theorem grace_holdPort (s : State) (fsid n : Nat) : (s.holdPort fsid n).flt.grace = s.flt.grace := by
  unfold State.holdPort
  rw [grace_of_faultMarks (faultMarks_refreshPort _ _), grace_setHolders]

theorem mem_holders_holdPort {s : State} {fsid p : Nat} (n : Nat) (h : fsid ∈ s.holders p ∨ n = p) : fsid ∈ (s.holdPort fsid n).holders p := by
  rw [holders_holdPort]
  by_cases hp : p = n
  · subst hp
    rw [if_pos rfl]
    split
    case isTrue hmem => exact hmem
    case isFalse => exact List.mem_cons_self
  · rw [if_neg hp]
    exact h.resolve_right fun hn => hp hn.symm

theorem holdPorts_mem (fsid : Nat) (l : List Nat) {s : State} {p : Nat} (h : fsid ∈ s.holders p ∨ p ∈ l) : fsid ∈ (chainAll l (fun n t => t.holdPort fsid n) s).holders p := by
  induction l generalizing s with
  | nil => exact h.resolve_right (by simp)
  | cons n l ih =>
    refine ih (s := s.holdPort fsid n) ?_
    rcases h with h | h
    · exact .inl (mem_holders_holdPort n (.inl h))
    · rcases List.mem_cons.mp h with rfl | h
      · exact .inl (mem_holders_holdPort p (.inr rfl))
      · exact .inr h

theorem safeNow_eq (s : State) (fsid : Nat) (sc : Bool) (insts : List Nat) :
    s.safeNow fsid sc insts = (let t := chainAll (safeScope fsid sc insts) (fun n t => t.holdPort fsid n) s
      t.logEvent 3 fsid (t.fltClass fsid) (insts.headD 0) (portMask (safeScope fsid sc insts))) := rfl

/-- Every port that the reaction acts on is held by the source. -/
theorem safeNow_holds (s : State) (fsid : Nat) (sc : Bool) (insts : List Nat) {p : Nat} (h : p ∈ safeScope fsid sc insts) : fsid ∈ (s.safeNow fsid sc insts).holders p := by
  rw [safeNow_eq, portHolders_congr (holders_of_faultMarks (faultMarks_logEvent _ _ _ _ _ _))]
  exact holdPorts_mem fsid _ (.inr h)

theorem safeNow_grace (s : State) (fsid : Nat) (sc : Bool) (insts : List Nat) : (s.safeNow fsid sc insts).flt.grace = s.flt.grace := by
  rw [safeNow_eq, grace_of_faultMarks (faultMarks_logEvent _ _ _ _ _ _)]
  exact chainAll_keep (fun t : State => t.flt.grace) _ _ (fun n t => grace_holdPort t fsid n) s

-- ## The fields of a log entry, of a port's safe state and of FATAL

/-- The fields that a log entry may write (R372). -/
def logFields : List Fld := [F.EVT_HEAD_SEQ, F.EVT_TAIL_SEQ, F.EVT_LOST_COUNT, F.EVT_STATUS_LOST_SAT, F.EVT_STATUS_LOST_NEW]

/-- The fields that a port's safe state may write (R225). -/
def portFields : List Fld := [F.LMP_PORT_STATUS_SAFE, F.LMP_PORT_STATUS_BUF, F.STK_DESC_INFO_DISPLAY, F.RIV_CH_STATUS_COUNT, F.RIV_CH_STATUS_PANIC, F.RIV_CH_STATUS_DONE, F.RIV_CH_STATUS_STATE]

theorem logEvent_frame (s : State) (kind fsid cls inst : Nat) (d : List Byte) {x : Fld} (i : Nat) (h : x.outside logFields) : (s.logEvent kind fsid cls inst d).f x i = s.f x i := by
  unfold State.logEvent
  simp only
  rw [State.f_setF_code _ _ _ _ _ _ (h _ (by simp [logFields])), State.f_withFlt]
  split
  · unfold State.evtLost
    rw [State.f_setF_code _ _ _ _ _ _ (h _ (by simp [logFields])), State.f_count _ _ _ _ _ _ _ _ (h _ (by simp [logFields])) (h _ (by simp [logFields])),
      State.f_setF_code _ _ _ _ _ _ (h _ (by simp [logFields]))]
  · rfl

/-- HEAD counts the entries (R372). -/
theorem logEvent_head (s : State) (kind fsid cls inst : Nat) (d : List Byte) : (s.logEvent kind fsid cls inst d).f F.EVT_HEAD_SEQ 0 = (s.f F.EVT_HEAD_SEQ 0 + 1) % 2 ^ 32 := by
  unfold State.logEvent
  simp only
  rw [State.f_setF_same]
  split
  · unfold State.evtLost
    rw [State.f_setF_code _ _ _ _ _ _ (by decide), State.f_count _ _ _ _ _ _ _ _ (by decide) (by decide), State.f_setF_code _ _ _ _ _ _ (by decide)]
    rfl
  · rfl

theorem settleChan_frame (s : State) (n : Nat) {x : Fld} (i : Nat) (h : x.outside portFields) : (s.settleChan n).f x i = s.f x i := by
  have hbuf : ∀ t : State, (t.showBuf n).f x i = t.f x i := by
    intro t
    unfold State.showBuf
    split
    · exact State.f_setF_code _ _ _ _ _ _ (h _ (by simp [portFields]))
    · rfl
  have hcount := h F.RIV_CH_STATUS_COUNT (by simp [portFields])
  have hpanic := h F.RIV_CH_STATUS_PANIC (by simp [portFields])
  have hdone := h F.RIV_CH_STATUS_DONE (by simp [portFields])
  have hstate := h F.RIV_CH_STATUS_STATE (by simp [portFields])
  unfold State.settleChan
  simp only
  split_ifs <;> simp only [State.f_setF_code _ _ _ _ _ _ hdone, State.f_setF_code _ _ _ _ _ _ hstate, hbuf, State.f_setF_code _ _ _ _ _ _ hpanic, State.f_setF_code _ _ _ _ _ _ hcount]

theorem refreshPort_frame (s : State) (n : Nat) {x : Fld} (i : Nat) (h : x.outside portFields) : (s.refreshPort n).f x i = s.f x i := by
  have hsafe := h F.LMP_PORT_STATUS_SAFE (by simp [portFields])
  have hdrop : ∀ (t : State) (d : Nat), (t.dropDisplay d).f x i = t.f x i := by
    intro t d
    unfold State.dropDisplay
    simp only
    split
    · rfl
    · exact State.f_setF_code _ _ _ _ _ _ (h _ (by simp [portFields]))
  unfold State.refreshPort
  simp only
  split
  · split <;> simp only [hdrop, settleChan_frame _ _ _ h, State.f_setF_code _ _ _ _ _ _ hsafe, State.setPort, State.f_withLamp]
  · split
    · simp only [State.f_setF_code _ _ _ _ _ _ hsafe, State.setPort, State.f_withLamp]
    · rfl

theorem hewersOut_frame (s : State) {x : Fld} (i : Nat) (h : x.outside [F.HWR_STATUS_STATE, F.HWR_STATUS_CTX]) : s.hewersOut.f x i = s.f x i := by
  simp only [State.hewersOut, State.f_withCodec]
  exact chainAll_f _ _ _ _ (fun k t => by rw [State.f_setF_code _ _ _ _ _ _ (h _ (by simp)), State.f_setF_code _ _ _ _ _ _ (h _ (by simp))]) _

-- ## FATAL (R367)

/-- FATAL entered, before the hewers and the ports follow. -/
def State.markFatal (s : State) (fsid : Nat) : State :=
  let s := (s.setF F.FLT_STATUS_FATAL 0 1).setF F.FLT_STATUS_FATAL_SRC 0 fsid
  (s.logEvent 5 fsid 2 (s.f F.FLT_SRC_STATUS_INSTANCE fsid) []).withPwr (fun w => { w with cpHalted := w.cpHalted || decide (fsid = 1 ∨ fsid = 5), onRefclk := w.onRefclk || decide (fsid = 5) })

theorem enterFatal_new {s : State} (fsid : Nat) (h : s.fatal = false) : s.enterFatal fsid = (s.markFatal fsid).hewersOut.refreshPorts := by
  unfold State.enterFatal
  rw [if_neg (by simp [h])]
  rfl

theorem markFatal_fatal (s : State) (fsid : Nat) : (s.markFatal fsid).f F.FLT_STATUS_FATAL 0 = 1 := by
  unfold State.markFatal
  simp only
  rw [State.f_withPwr, logEvent_frame _ _ _ _ _ _ _ (by unfold Fld.outside; decide), State.f_setF_code _ _ _ _ _ _ (by decide), State.f_setF_same]
  rfl

theorem enterFatal_fatal (s : State) (fsid : Nat) : (s.enterFatal fsid).fatal = true := by
  by_cases h : s.fatal = true
  · rw [State.enterFatal, if_pos h]
    exact h
  · have hports : (s.markFatal fsid).hewersOut.refreshPorts.f F.FLT_STATUS_FATAL 0 = 1 := by
      rw [State.refreshPorts, chainAll_f _ _ _ _ (fun n t => refreshPort_frame t n _ (by unfold Fld.outside; decide)), hewersOut_frame _ _ (by unfold Fld.outside; decide)]
      exact markFatal_fatal s fsid
    rw [enterFatal_new fsid (by simpa using h), State.fatal, State.fb, hports]
    rfl

end Sys2Proof.Machine

/-! Events of the fault collector: timers, release, watchdog (R363, R364, R366); clocks, temperature and rails (R359, R360, R369). -/

namespace Sys2Proof.Machine

-- ## FATAL from a raise

theorem pwr_settleChan (s : State) (n : Nat) : (s.settleChan n).pwr = s.pwr := by
  have hbuf : ∀ t : State, (t.showBuf n).pwr = t.pwr := fun t => by unfold State.showBuf; split <;> rfl
  unfold State.settleChan
  simp only
  split_ifs <;> exact hbuf _

theorem pwr_refreshPort (s : State) (n : Nat) : (s.refreshPort n).pwr = s.pwr := by
  have hdrop : ∀ (t : State) (d : Nat), (t.dropDisplay d).pwr = t.pwr := fun t d => by unfold State.dropDisplay; simp only; split <;> rfl
  unfold State.refreshPort
  simp only
  split
  · split
    · rw [hdrop, pwr_settleChan]
      rfl
    · rw [pwr_settleChan]
      rfl
  · split <;> rfl

theorem pwr_hewersOut (s : State) : s.hewersOut.pwr = s.pwr := by
  rw [State.hewersOut, State.withCodec_pwr]
  exact chainAll_keep State.pwr _ _ (fun h t => by simp only [State.setF_pwr]) s

theorem enterFatal_pwr {s : State} (fsid : Nat) (h : s.fatal = false) : (s.enterFatal fsid).pwr = (s.markFatal fsid).pwr := by
  rw [enterFatal_new fsid h, State.refreshPorts, chainAll_keep State.pwr _ _ (fun n t => pwr_refreshPort t n), pwr_hewersOut]

theorem markRaise_frame (s : State) (fsid inst : Nat) {x : Fld} (i : Nat) (h : x.outside markFields) : (s.markRaise fsid inst).f x i = s.f x i := by
  unfold State.markRaise State.fltCount
  rw [State.f_setF_code _ _ _ _ _ _ (h _ (by simp [markFields])), State.f_setF_code _ _ _ _ _ _ (h _ (by simp [markFields]))]
  split <;> rw [State.f_count _ _ _ _ _ _ _ _ (h _ (by simp [markFields])) (h _ (by simp [markFields]))]

/-- A source of class FATAL makes the part FATAL. -/
theorem raiseFault_fatalClass {s : State} {fsid : Nat} (inst : Nat) (d : List Byte) (h : 2 ≤ s.f F.FLT_SRC_CFG_CLASS fsid) : s.raiseFault fsid inst d = s.raiseFatal fsid inst d := by
  have hclass : s.fltClass fsid = 2 := by
    unfold State.fltClass
    omega
  rw [State.raiseFault]
  simp only [hclass, if_true]

theorem raiseFault_fatal {s : State} {fsid : Nat} (inst : Nat) (d : List Byte) (h : 2 ≤ s.f F.FLT_SRC_CFG_CLASS fsid) : (s.raiseFault fsid inst d).fatal = true := by
  rw [raiseFault_fatalClass inst d h]
  exact enterFatal_fatal _ _

/-- FATAL entered from the core PLL halts the processor and runs the part from REFCLK (R367). -/
theorem raiseFatal_corePll {s : State} (inst : Nat) (d : List Byte) (h : s.fatal = false) : (s.raiseFatal 5 inst d).pwr.onRefclk = true ∧ (s.raiseFatal 5 inst d).pwr.cpHalted = true := by
  have hnot : ((s.markRaise 5 inst).logEvent 1 5 2 inst d).fatal = false := by
    rw [State.fatal, State.fb, logEvent_frame _ _ _ _ _ _ _ (by unfold Fld.outside; decide), markRaise_frame _ _ _ _ (by unfold Fld.outside; decide)]
    exact h
  rw [State.raiseFatal, enterFatal_pwr 5 hnot, State.markFatal]
  simp

-- ## Timers (R364, R366)

theorem graceStop_grace (s : State) (f : Nat) : Tab.get none (s.graceStop f).flt.grace f = none := by
  simp only [State.graceStop, State.setF, State.withFlt, Tab.get_set_same]

theorem graceStop_sets (s : State) (f : Nat) : Sets (s.withFlt (fun y => { y with grace := Tab.set none y.grace f none })) [(F.FLT_SRC_STATUS_GRACE, f, 0)] (s.graceStop f) :=
  (Sets.refl (s.withFlt _)).putNew F.FLT_SRC_STATUS_GRACE f 0 rfl (by decide)

/-- What an expiry does before it escalates. -/
def State.expireMark (s : State) (f : Nat) (g : Grace) : State :=
  let s := (s.graceStop f).setF F.FLT_SRC_STATUS_EXPIRED f 1
  s.logEvent 2 f (s.fltClass f) (g.insts.headD 0) []

theorem graceExpire_eq {s : State} {f : Nat} {g : Grace} (h : Tab.get none s.flt.grace f = some g) : s.graceExpire f =
    (let t := if g.escSafe then (s.expireMark f g).safeNow f g.scope g.insts else s.expireMark f g
     if g.escFatal then t.enterFatal f else t) := by
  rw [State.graceExpire, h]
  rfl

theorem expireMark_expired (s : State) (f : Nat) (g : Grace) : (s.expireMark f g).f F.FLT_SRC_STATUS_EXPIRED f = 1 := by
  unfold State.expireMark
  rw [logEvent_frame _ _ _ _ _ _ _ (by unfold Fld.outside; decide), State.f_setF_same]
  rfl

theorem expireMark_grace (s : State) (f : Nat) (g : Grace) : Tab.get none (s.expireMark f g).flt.grace f = none := by
  unfold State.expireMark
  rw [grace_of_faultMarks (faultMarks_logEvent _ _ _ _ _ _), grace_of_faultMarks (faultMarks_setF _ _ _ _)]
  exact graceStop_grace s f

theorem expireMark_f (s : State) (f : Nat) (g : Grace) {x : Fld} (i : Nat) (h : x.outside (F.FLT_SRC_STATUS_EXPIRED :: reactFields)) : (s.expireMark f g).f x i = s.f x i := by
  have hreact : x.outside reactFields := fun y hy => h y (List.mem_cons_of_mem _ hy)
  unfold State.expireMark State.graceStop
  rw [State.logEvent_f _ _ _ _ _ _ _ _ hreact, State.f_setF_code _ _ _ _ _ _ (h _ (by simp)), State.f_setF_code _ _ _ _ _ _ (h _ (by simp [reactFields])), State.f_withFlt]

/-- The expiry of a timer that runs (R364). -/
theorem graceExpire_effect {s : State} {f : Nat} {g : Grace} (h : Tab.get none s.flt.grace f = some g) :
    (s.graceExpire f).f F.FLT_SRC_STATUS_EXPIRED f = 1 ∧ Tab.get none (s.graceExpire f).flt.grace f = none ∧ (g.escFatal = true → (s.graceExpire f).fatal = true) ∧
      (g.escSafe = true → ∀ p, p ∈ safeScope f g.scope g.insts → f ∈ (s.graceExpire f).holders p) ∧
      ∀ (x : Fld) (i : Nat), x.outside (F.FLT_SRC_STATUS_EXPIRED :: reactFields) → (s.graceExpire f).f x i = s.f x i := by
  have hexpired : Fld.outside F.FLT_SRC_STATUS_EXPIRED reactFields := by unfold Fld.outside; decide
  have hreact : ∀ x : Fld, x.outside (F.FLT_SRC_STATUS_EXPIRED :: reactFields) → x.outside reactFields := fun x hx y hy => hx y (List.mem_cons_of_mem _ hy)
  have hsafe : ∀ u : State, u = (if g.escSafe then (s.expireMark f g).safeNow f g.scope g.insts else s.expireMark f g) → u.f F.FLT_SRC_STATUS_EXPIRED f = 1 ∧ Tab.get none u.flt.grace f = none ∧
      (g.escSafe = true → ∀ p, p ∈ safeScope f g.scope g.insts → f ∈ u.holders p) ∧ ∀ (x : Fld) (i : Nat), x.outside (F.FLT_SRC_STATUS_EXPIRED :: reactFields) → u.f x i = s.f x i := by
    rintro u rfl
    split
    case isTrue hesc =>
      refine ⟨(State.safeNow_f _ _ _ _ _ _ hexpired).trans (expireMark_expired s f g), ?_, fun _ p hp => safeNow_holds _ _ _ _ hp, fun x i hx => ?_⟩
      · rw [safeNow_grace]
        exact expireMark_grace s f g
      · exact (State.safeNow_f _ _ _ _ _ _ (hreact x hx)).trans (expireMark_f s f g i hx)
    case isFalse hesc =>
      exact ⟨expireMark_expired s f g, expireMark_grace s f g, fun h => absurd h hesc, fun x i hx => expireMark_f s f g i hx⟩
  rw [graceExpire_eq h]
  simp only
  obtain ⟨hmark, hgrace, hholds, hframe⟩ := hsafe _ rfl
  split
  case isTrue hesc =>
    refine ⟨(State.enterFatal_f _ _ _ _ hexpired).trans hmark, ?_, fun _ => enterFatal_fatal _ _, fun hs p hp => ?_, fun x i hx => (State.enterFatal_f _ _ _ _ (hreact x hx)).trans (hframe x i hx)⟩
    · rw [grace_of_faultMarks (faultMarks_enterFatal _ _)]
      exact hgrace
    · rw [portHolders_congr (holders_of_faultMarks (faultMarks_enterFatal _ _))]
      exact hholds hs p hp
  case isFalse hesc => exact ⟨hmark, hgrace, fun h => absurd h hesc, hholds, hframe⟩

-- ## Release (R363)

/-- A port let go. -/
def State.freePort (n : Nat) (s : State) : State := (s.setHolders n []).refreshPort n

/-- The ports of a word of FLT_SAFE that a write names and that are held. -/
def State.fallen (s : State) (base w : Nat) : List Nat :=
  allPorts.filter (fun n => decide (base ≤ n) && decide (n < base + 32) && w.testBit (n - base) && decide (s.holders n ≠ []))

theorem safeRelease_eq {s : State} (base w : Nat) (h : s.fatal = false) : s.safeRelease base w =
    (let t := chainAll (s.fallen base w) State.freePort s
     if s.fallen base w = [] then t else t.logEvent 4 0 0 0 (portMask (s.fallen base w))) := by
  rw [State.safeRelease, if_neg (by simp [h])]
  rfl

theorem holders_freePort (s : State) (n p : Nat) : (s.freePort n).holders p = if p = n then [] else s.holders p := by
  unfold State.freePort
  rw [portHolders_congr (holders_of_faultMarks (faultMarks_refreshPort _ _)), holders_setHolders]

theorem freePorts_holders (l : List Nat) {s : State} {p : Nat} (h : p ∈ l ∨ s.holders p = []) : (chainAll l State.freePort s).holders p = [] := by
  induction l generalizing s with
  | nil => exact h.resolve_left (by simp)
  | cons n l ih =>
    refine ih (s := s.freePort n) ?_
    rw [holders_freePort]
    rcases h with h | h
    · rcases List.mem_cons.mp h with rfl | h
      · exact .inr (if_pos rfl)
      · exact .inl h
    · exact .inr (by rw [h, ite_self])

/-- A port that a write names is held by no source afterwards. -/
theorem safeRelease_holders {s : State} {base w p : Nat} (h : s.fatal = false) (hp : p < 48) (hb : base ≤ p) (hb' : p < base + 32) (hw : w.testBit (p - base) = true) : (s.safeRelease base w).holders p = [] := by
  have hfree : (chainAll (s.fallen base w) State.freePort s).holders p = [] := by
    by_cases hheld : s.holders p = []
    · exact freePorts_holders _ (.inr hheld)
    · refine freePorts_holders _ (.inl ?_)
      simp [State.fallen, allPorts, hp, hb, hb', hw, hheld]
  rw [safeRelease_eq base w h]
  simp only
  split
  · exact hfree
  · rw [portHolders_congr (holders_of_faultMarks (faultMarks_logEvent _ _ _ _ _ _))]
    exact hfree

/-- A port let go by its sources alone, outside FATAL and shedding stage 5, leaves its safe state. -/
theorem freePort_eq {s : State} (n : Nat) (hf : s.fatal = false) (h5 : s.shed5 = false) : s.freePort n =
    if (s.port n).safe then ((s.setHolders n []).setPort n { s.port n with safe := false, blankDue := false }).setF F.LMP_PORT_STATUS_SAFE n 0 else s.setHolders n [] := by
  have hheld : (s.setHolders n []).portHeld n = false := by
    rw [State.portHeld, holders_setHolders, if_pos rfl]
    exact hf
  have hshed : (s.setHolders n []).shed5 = false := h5
  have hport : (s.setHolders n []).port n = s.port n := rfl
  unfold State.freePort State.refreshPort
  simp only [hheld, hshed, hport, Bool.or_self, Bool.false_eq_true, if_false]

/-- What it leaves as it is: FATAL, the shedding stage, and every other port. -/
theorem freePort_keeps {s : State} (n : Nat) (hf : s.fatal = false) (h5 : s.shed5 = false) : (s.freePort n).fatal = false ∧ (s.freePort n).shed5 = false ∧
    ∀ p, p ≠ n → (s.freePort n).port p = s.port p ∧ (s.freePort n).f F.LMP_PORT_STATUS_SAFE p = s.f F.LMP_PORT_STATUS_SAFE p := by
  rw [freePort_eq n hf h5]
  split
  · refine ⟨?_, ?_, fun p hp => ⟨?_, ?_⟩⟩
    · rw [State.fatal, State.fb, State.f_setF_code _ _ _ _ _ _ (by decide)]
      exact hf
    · rw [State.shed5, State.f_setF_code _ _ _ _ _ _ (by decide)]
      exact h5
    · simp only [State.port, State.setPort, State.setF_lamp, State.withLamp_lamp, Tab.get_set_ne _ _ _ hp]
      rfl
    · rw [State.f_setF_inst _ _ _ _ _ hp]
      rfl
  · exact ⟨hf, h5, fun p hp => ⟨rfl, rfl⟩⟩

/-- After the loop the port has left its safe state, where it was in one and is among the ports. -/
theorem freePorts_safe (l : List Nat) {s : State} {p : Nat} (hf : s.fatal = false) (h5 : s.shed5 = false)
    (h : (s.port p).safe = true ∧ p ∈ l ∨ (s.port p).safe = false ∧ s.f F.LMP_PORT_STATUS_SAFE p = 0) : (chainAll l State.freePort s).f F.LMP_PORT_STATUS_SAFE p = 0 := by
  induction l generalizing s with
  | nil => exact (h.resolve_left (by simp)).2
  | cons n l ih =>
    obtain ⟨hf', h5', hother⟩ := freePort_keeps n hf h5
    refine ih (s := s.freePort n) hf' h5' ?_
    by_cases hp : p = n
    · subst hp
      rcases h with ⟨hsafe, -⟩ | ⟨hsafe, hzero⟩
      · refine .inr ?_
        rw [freePort_eq p hf h5, if_pos hsafe]
        refine ⟨?_, State.f_setF_same _ _ _ _⟩
        simp only [State.port, State.setPort, State.setF_lamp, State.withLamp_lamp, Tab.get_set_same]
      · refine .inr ?_
        rw [freePort_eq p hf h5, if_neg (by simp [hsafe])]
        exact ⟨hsafe, hzero⟩
    · obtain ⟨hport, hfield⟩ := hother p hp
      rw [hport, hfield]
      rcases h with ⟨hsafe, hmem⟩ | h
      · exact .inl ⟨hsafe, (List.mem_cons.mp hmem).resolve_left hp⟩
      · exact .inr h

theorem safeRelease_safe {s : State} {base w p : Nat} (h : s.fatal = false) (hp : p < 48) (hb : base ≤ p) (hb' : p < base + 32) (hw : w.testBit (p - base) = true) (h5 : s.shed5 = false)
    (hsafe : (s.port p).safe = true) (hheld : s.holders p ≠ []) : (s.safeRelease base w).f F.LMP_PORT_STATUS_SAFE p = 0 := by
  have hmem : p ∈ s.fallen base w := by simp [State.fallen, allPorts, hp, hb, hb', hw, hheld]
  have hzero := freePorts_safe (s.fallen base w) h h5 (.inl ⟨hsafe, hmem⟩)
  rw [safeRelease_eq base w h]
  simp only
  split
  · exact hzero
  · rw [logEvent_frame _ _ _ _ _ _ _ (by unfold Fld.outside; decide)]
    exact hzero

theorem regWrite_kick (s : State) (w : Word) : s.writePlain .FLT_WDOG 0 w.toNat = (s.setF F.FLT_WDOG_EN 0 (F.FLT_WDOG_EN.of w.toNat)).setF F.FLT_WDOG_PERIOD_MS 0 (F.FLT_WDOG_PERIOD_MS.of w.toNat) := rfl

/-- Settles O29: acknowledgement, expiry, release, KICK and watchdog, each by its effect above. -/
theorem faultTimers : Obligations.FaultTimers := by
  refine ⟨fun s o f w h1 h64 hw hack => ⟨s.graceStop f, ?_, graceStop_sets s f⟩, fun s f g h1 h64 hg => ⟨_, onInstance_of (by simp [h1, h64]) _, graceExpire_effect hg⟩,
    fun s o w p hw hf hp hbit => ⟨s.safeRelease 0 w.toNat, ?_, safeRelease_holders hf (by omega) (by omega) (by omega) (by simpa using hbit),
      fun h5 hsafe hheld => safeRelease_safe hf (by omega) (by omega) (by omega) (by simpa using hbit) h5 hsafe hheld⟩,
    fun s o w p hw hf hp hp' hbit => ⟨s.safeRelease 32 w.toNat, ?_, safeRelease_holders hf hp' hp (by omega) hbit⟩, fun s o w hw => ⟨_, rfl, ?_⟩, fun s hen hstage => ⟨s.raiseFault 4 0 [], ?_, ?_, ?_⟩, fun s hoff => ?_⟩
  · calc exec (.fltSrcAck o f w) s = onInstance (decide (1 ≤ f) && decide (f < 64)) (s.regWriteBy o .FLT_SRC_ACK f w) := rfl
      _ = .next (s.writeReg o .FLT_SRC_ACK f w.toNat) := by rw [onInstance_of (by simp [h1, h64]), regWriteBy_eq w hw (regAt_FLT_SRC_ACK ⟨h1, h64⟩) (by decide)]
      _ = .next (s.graceStop f) := congrArg _ (if_pos hack)
  · calc exec (.fltSafeRelease o false w) s = .next (s.regWriteBy o .FLT_SAFE_LO 0 w) := rfl
      _ = .next (s.safeRelease 0 w.toNat) := by
        rw [regWriteBy_eq w hw regAt_FLT_SAFE_LO (by decide)]
        rfl
  · calc exec (.fltSafeRelease o true w) s = .next (s.regWriteBy o .FLT_SAFE_HI 0 w) := rfl
      _ = .next (s.safeRelease 32 w.toNat) := by
        rw [regWriteBy_eq w hw regAt_FLT_SAFE_HI (by decide)]
        rfl
  · rw [regWriteBy_eq w hw regAt_FLT_WDOG (by decide)]
    have hen : F.FLT_WDOG_EN.of w.toNat = w.toNat / 2 ^ 31 % 2 := rfl
    have hperiod : F.FLT_WDOG_PERIOD_MS.of w.toNat = w.toNat % 2 ^ 16 := by simp [Fld.of, F.FLT_WDOG_PERIOD_MS]
    have hsets := ((Sets.refl s).putNew F.FLT_WDOG_EN 0 (w.toNat / 2 ^ 31 % 2) rfl (Nat.mod_lt _ (by decide))).putNew F.FLT_WDOG_PERIOD_MS 0 (w.toNat % 2 ^ 16) rfl (Nat.mod_lt _ (by decide))
    rw [← hen, ← hperiod] at hsets ⊢
    exact hsets
  · calc exec .fwWatchdogExpire s = .next s.watchdogExpire := rfl
      _ = .next (s.raiseFault 4 0 []) := by rw [State.watchdogExpire, if_pos (by simp [State.fb, hen, hstage])]
  · exact State.raiseFault_active _ _ _ _
  · exact fun x i hx => State.raiseFault_f _ _ _ _ _ _ hx
  · calc exec .fwWatchdogExpire s = .next s.watchdogExpire := rfl
      _ = .next s := by
        rw [State.watchdogExpire, if_neg]
        rcases hoff with h | h <;> simp [State.fb, h]

-- ## Clocks, temperature and rails

/-- An event that writes `x` (of index `i`) and raises source `fsid`. -/
theorem raised_f {s : State} {l : List Fld} {t : State} (fsid inst : Nat) (d : List Byte) (ht : ∀ (x : Fld) (i : Nat), x.outside l → t.f x i = s.f x i) :
    (t.raiseFault fsid inst d).f F.FLT_SRC_STATUS_ACTIVE fsid = 1 ∧ ∀ (x : Fld) (i : Nat), x.outside (l ++ raiseFields) → (t.raiseFault fsid inst d).f x i = s.f x i :=
  ⟨State.raiseFault_active _ _ _ _, fun x i hx => (State.raiseFault_f _ _ _ _ _ _ (fun y hy => hx y (List.mem_append_right _ hy))).trans (ht x i fun y hy => hx y (List.mem_append_left _ hy))⟩

theorem sensorReads_same (s : State) (k : Nat) (tj : Int) : (s.sensorReads k tj).f F.PWR_TEMP_TJ k = unsigned 16 tj := by
  rw [State.sensorReads, State.f_setF_same]
  refine Nat.mod_eq_of_lt ?_
  unfold unsigned
  show _ < 2 ^ 16
  have h1 := Int.emod_lt_of_pos tj (show (0 : Int) < ((2 ^ 16 : Nat) : Int) by decide)
  have h2 := Int.emod_nonneg tj (show ((2 ^ 16 : Nat) : Int) ≠ 0 by decide)
  omega

theorem sensorReads_sets (s : State) (k : Nat) (tj : Int) : Sets s [(F.PWR_TEMP_TJ, k, unsigned 16 tj)] (s.sensorReads k tj) := by
  have hsets := (Sets.refl s).snoc F.PWR_TEMP_TJ k (unsigned 16 tj) (by simp)
  have hval := sensorReads_same s k tj
  rw [State.sensorReads, State.f_setF_same] at hval
  rwa [hval] at hsets

theorem sensorReads_warn (s : State) (k : Nat) (tj : Int) : (s.sensorReads k tj).warnTemp = s.warnTemp := by
  rw [State.warnTemp, State.sensorReads, State.f_setF_code _ _ _ _ _ _ (by decide)]
  rfl

/-- In STANDBY a reading is kept for the exit (R389). -/
theorem thermHigh_standby {s : State} (k : Nat) (tj : Int) (h : s.pwr.standby = true) :
    (s.thermHigh k tj).aon.hotInStandby = decide (16 * (s.warnTemp : Int) ≤ tj) ∧ Fields s [(F.PWR_TEMP_TJ, k, unsigned 16 tj)] (s.thermHigh k tj) := by
  have hlatch : ∀ (t : State) (n : Nat), (t.setLatch n).regs = t.regs ∧ (t.setLatch n).aon.hotInStandby = t.aon.hotInStandby := by
    intro t n
    unfold State.setLatch
    split <;> exact ⟨rfl, rfl⟩
  have hregs : ∀ u : State, u.regs = (s.sensorReads k tj).regs → Fields s [(F.PWR_TEMP_TJ, k, unsigned 16 tj)] u := by
    intro u hu
    have hf : ∀ x i, u.f x i = (s.sensorReads k tj).f x i := fun x i => by simp only [State.f, hu]
    obtain ⟨-, hset, hkept⟩ := sensorReads_sets s k tj
    exact ⟨fun e he => (hf _ _).trans (hset e he), fun x i hx => (hf _ _).trans (hkept x i hx)⟩
  have hstandby : (s.sensorReads k tj).pwr.standby = true := h
  unfold State.thermHigh
  simp only [sensorReads_warn, hstandby, if_true]
  split
  case isTrue hwarn =>
    obtain ⟨hr, ha⟩ := hlatch ((s.sensorReads k tj).withAon (fun w => { w with hotInStandby := true })) 838
    exact ⟨by rw [ha, decide_eq_true hwarn]; rfl, hregs _ hr⟩
  case isFalse hwarn => exact ⟨by rw [decide_eq_false hwarn]; rfl, hregs _ rfl⟩

theorem f_clrF (s : State) (x y : Fld) (i j m : Nat) (h : y.code ≠ x.code) : (s.clrF x i m).f y j = s.f y j := State.f_setF_code _ _ _ _ _ _ h

/-- Settles O30: each event writes its registers and raises its source. -/
theorem faultEvents : Obligations.FaultEvents := by
  have hone : ∀ (s : State) (x : Fld) (i v : Nat) (y : Fld) (j : Nat), y.outside [x] → (s.setF x i v).f y j = s.f y j := fun s x i v y j hy => State.f_setF_code _ _ _ _ _ _ (hy x (by simp))
  refine ⟨fun s => ⟨_, rfl, ?_, (raised_f 5 0 [] (hone s F.CLK_STATUS_CORE_LOCK 0 0)).1, fun hclass hfatal => ?_, (raised_f 5 0 [] (hone s F.CLK_STATUS_CORE_LOCK 0 0)).2⟩,
    fun s q hq => ⟨_, onInstance_of (decide_eq_true hq) _, ?_, (raised_f 6 q [] (hone s F.CLK_STATUS_LANE_LOCK 0 _)).1, (raised_f 6 q [] (hone s F.CLK_STATUS_LANE_LOCK 0 _)).2⟩,
    fun s k tj hk hstandby hwarn => ?_, fun s k tj hk hstandby hcool => ⟨_, onInstance_of (decide_eq_true hk) _, ?_⟩, fun s k tj hk hstandby => ⟨_, onInstance_of (decide_eq_true hk) _, thermHigh_standby k tj hstandby⟩,
    fun s k tj hk hcool => ⟨_, onInstance_of (decide_eq_true hk) _, ?_⟩, fun s k tj hk htrip => ?_, fun s k hk => ?_⟩
  · rw [State.corePllUnlock, State.raiseFault_f _ _ _ _ _ _ (by unfold Fld.outside; decide), State.f_setF_same]
    rfl
  · have hclass' : 2 ≤ (s.setF F.CLK_STATUS_CORE_LOCK 0 0).f F.FLT_SRC_CFG_CLASS 5 := by rwa [State.f_setF_code _ _ _ _ _ _ (by decide)]
    have hfatal' : (s.setF F.CLK_STATUS_CORE_LOCK 0 0).fatal = false := by rwa [State.fatal, State.fb, State.f_setF_code _ _ _ _ _ _ (by decide)]
    refine ⟨raiseFault_fatal 0 [] hclass', ?_⟩
    rw [State.corePllUnlock, raiseFault_fatalClass 0 [] hclass']
    exact raiseFatal_corePll 0 [] hfatal'
  · rw [State.lanePllUnlock, State.raiseFault_f _ _ _ _ _ _ (by unfold Fld.outside; decide)]
    exact State.f_setF_same _ _ _ _
  · have hkept : ∀ (x : Fld) (i : Nat), x.outside [F.PWR_TEMP_TJ, F.PWR_EVENT_THERM] → ((s.sensorReads k tj).setF F.PWR_EVENT_THERM 0 1).f x i = s.f x i := fun x i hx =>
      (State.f_setF_code _ _ _ _ _ _ (hx _ (by simp))).trans (State.f_setF_code _ _ _ _ _ _ (hx _ (by simp)))
    obtain ⟨hactive, hframe⟩ := raised_f 7 k [] hkept
    have heq : s.thermHigh k tj = ((s.sensorReads k tj).setF F.PWR_EVENT_THERM 0 1).raiseFault 7 k [] := by
      have hnot : (s.sensorReads k tj).pwr.standby = false := hstandby
      unfold State.thermHigh
      simp only [sensorReads_warn, hnot, hwarn, if_true, Bool.false_eq_true, if_false]
    refine ⟨_, onInstance_of (decide_eq_true hk) _, ?_, ?_, ?_, ?_⟩
    · rw [heq, State.raiseFault_f _ _ _ _ _ _ (by unfold Fld.outside; decide), State.f_setF_code _ _ _ _ _ _ (by decide)]
      exact sensorReads_same s k tj
    · rw [heq, State.raiseFault_f _ _ _ _ _ _ (by unfold Fld.outside; decide), State.f_setF_same]
      rfl
    · rw [heq]
      exact hactive
    · rw [heq]
      exact hframe
  · have hnot : (s.sensorReads k tj).pwr.standby = false := hstandby
    have heq : s.thermHigh k tj = s.sensorReads k tj := by
      unfold State.thermHigh
      simp only [sensorReads_warn, hnot, Int.not_le.mpr hcool, Bool.false_eq_true, if_false]
    rw [heq]
    exact sensorReads_sets s k tj
  · rw [State.thermTrip, if_neg (by omega)]
    exact sensorReads_sets s k tj
  · have heq : s.thermTrip k tj = (s.sensorReads k tj).raiseFault 8 k [] := if_pos (by omega)
    obtain ⟨hactive, hframe⟩ := raised_f 8 k [] (hone s F.PWR_TEMP_TJ k (unsigned 16 tj))
    refine ⟨_, onInstance_of (decide_eq_true hk) _, ?_, ?_, fun hclass => ?_, ?_⟩
    · rw [heq, State.raiseFault_f _ _ _ _ _ _ (by unfold Fld.outside; decide)]
      exact sensorReads_same s k tj
    · rw [heq]
      exact hactive
    · rw [heq]
      exact raiseFault_fatal k [] (by rwa [State.sensorReads, State.f_setF_code _ _ _ _ _ _ (by decide)])
    · rw [heq]
      exact hframe
  · obtain ⟨hactive, hframe⟩ := raised_f 9 k [] (hone s F.PWR_EVENT_RAIL 0 1)
    refine ⟨_, onInstance_of (by simpa [railOk] using hk) _, ?_, hactive, hframe⟩
    rw [State.railFault, State.raiseFault_f _ _ _ _ _ _ (by unfold Fld.outside; decide), State.f_setF_same]
    rfl

end Sys2Proof.Machine

/-! Commands on faults and events (R362, R363, R372, R373, R225). -/

namespace Sys2Proof.Machine

-- ## Bits cleared

/-- Bits taken away by subtraction are bits cleared. -/
theorem sub_and_eq_ldiff (v m : Nat) : v - (v &&& m) = Nat.ldiff v m := by
  induction v using Nat.binaryRec generalizing m with
  | zero => simp [Nat.ldiff]
  | bit a v ih =>
    induction m using Nat.bitCasesOn with
    | bit b m =>
      have hle : v &&& m ≤ v := Nat.and_le_left
      rw [Nat.land_bit, Nat.ldiff_bit, ← ih]
      cases a <;> cases b <;> simp only [Nat.bit, Bool.and_true, Bool.and_false, Bool.not_true, Bool.not_false, cond_true, cond_false] <;> omega

theorem testBit_clear (v b j : Nat) : (v - (v &&& 2 ^ b)).testBit j = (v.testBit j && decide (j ≠ b)) := by
  rw [sub_and_eq_ldiff, Nat.testBit_ldiff, Nat.testBit_two_pow]
  by_cases h : b = j <;> simp [h, eq_comm]

-- ## EVENT_READ (R373)

theorem evtRead_length {s : State} (h : ∀ e ∈ s.flt.log, e.2.length ≤ 32) (q : Nat) : (s.evtRead q).length = 32 := by
  have hget : ∀ (l : Tab (List Byte)) (k : Nat), (∀ e ∈ l, e.2.length ≤ 32) → (Tab.get [] l k).length ≤ 32 := by
    intro l k hl
    induction l with
    | nil => simp [Tab.get]
    | cons e l ih =>
      unfold Tab.get
      split
      · exact hl e List.mem_cons_self
      · exact ih fun e he => hl e (List.mem_cons_of_mem _ he)
  have := hget s.flt.log (q % 4096) h
  simp only [State.evtRead, List.length_append, List.length_replicate]
  omega

/-- The data of a result of EVENT_READ. -/
def State.eventData (s : State) (q n : Nat) : List Byte :=
  leBytes 4 (s.f F.EVT_HEAD_SEQ 0) ++ leBytes 4 (s.f F.EVT_TAIL_SEQ 0) ++ (List.range n).flatMap (fun i => s.evtRead ((q + i) % 2 ^ 32))

theorem eventData_length {s : State} {n : Nat} (q : Nat) (h : ∀ e ∈ s.flt.log, e.2.length ≤ 32) (hn : n ≤ 7) : (s.eventData q n).length ≤ 248 := by
  have hentries : ((List.range n).flatMap (fun i => s.evtRead ((q + i) % 2 ^ 32))).length = 32 * n := by
    simp [List.length_flatMap, evtRead_length h, mul_comm]
  rw [State.eventData, List.length_append, List.length_append, hentries]
  simp only [leBytes_length]
  omega

/-- A result, and TAIL moved past the entries where it advances. -/
theorem sets_eventRead {s : State} {m : Nat} {data : List Byte} (hd : data.length ≤ 248) (q n : Nat) (go : Prop) [Decidable go] :
    Sets s (answer m (s.mbxTag m) 0 data ++ if go then [(F.EVT_TAIL_SEQ, 0, (q + n) % 2 ^ 32)] else []) (if go then (s.putResult m 0 data).setF F.EVT_TAIL_SEQ 0 (q + n) else s.putResult m 0 data) := by
  have hresult := sets_putResult s m (status := 0) (by decide) hd
  split
  · refine hresult.snoc F.EVT_TAIL_SEQ 0 (q + n) fun e he hc => ?_
    have hcode : e.1 ∈ resultFields := mem_resultFields he
    exact absurd hc.1 (by
      have key : resultFields.all (fun x => decide (x.code ≠ F.EVT_TAIL_SEQ.code)) = true := by decide
      exact of_decide_eq_true (List.all_eq_true.mp key _ hcode))
  · rw [List.append_nil]
    exact hresult

theorem putResult_tail (s : State) (m : Nat) {data : List Byte} (hd : data.length ≤ 248) :
    (s.putResult m 0 data).f F.EVT_TAIL_SEQ 0 = s.f F.EVT_TAIL_SEQ 0 ∧ (s.putResult m 0 data).evtHeld = s.evtHeld := by
  obtain ⟨-, hframe, -⟩ := sets_answered (s := s) (m := m) (status := 0) (by decide) hd rfl
  have hhead := hframe F.EVT_HEAD_SEQ 0 (by unfold Fld.outside; decide)
  have htail := hframe F.EVT_TAIL_SEQ 0 (by unfold Fld.outside; decide)
  exact ⟨htail, by rw [State.evtHeld, State.evtHeld, hhead, htail]⟩

-- ## FAULT_CLEAR (R362, R363)

/-- The fields that the clearing of a source may write. -/
def clearFields : List Fld := logFields ++ [F.FLT_SRC_STATUS_GRACE, F.FLT_SRC_STATUS_ACTIVE, F.FLT_SRC_STATUS_EXPIRED]

/-- The log entry of a source's clearing. -/
def State.logClear (s : State) (f : Nat) : State := s.logEvent 6 f (s.fltClass f) (s.f F.FLT_SRC_STATUS_INSTANCE f) []

/-- A source's clearing after its log entry. -/
def State.endSource (f : Nat) (s : State) : State := ((s.graceStop f).setF F.FLT_SRC_STATUS_ACTIVE f 0).setF F.FLT_SRC_STATUS_EXPIRED f 0

theorem clearSource_eq (s : State) (f : Nat) : s.clearSource f = (s.logClear f).endSource f := rfl

theorem endSource_self (s : State) (f : Nat) : (s.endSource f).f F.FLT_SRC_STATUS_ACTIVE f = 0 ∧ (s.endSource f).f F.FLT_SRC_STATUS_EXPIRED f = 0 ∧ (s.endSource f).f F.FLT_SRC_STATUS_GRACE f = 0 ∧
    Tab.get none (s.endSource f).flt.grace f = none := by
  unfold State.endSource
  refine ⟨?_, State.f_setF_same _ _ _ _, ?_, ?_⟩
  · rw [State.f_setF_code _ _ _ _ _ _ (by decide), State.f_setF_same]
    rfl
  · rw [State.f_setF_code _ _ _ _ _ _ (by decide), State.f_setF_code _ _ _ _ _ _ (by decide), State.graceStop, State.f_setF_same]
    rfl
  · exact graceStop_grace s f

/-- A write at one index leaves every other, whatever the field. -/
theorem f_setF_otherInst (s : State) (x y : Fld) {i j : Nat} (v : Nat) (h : j ≠ i) : (s.setF x i v).f y j = s.f y j :=
  ((Sets.refl s).snoc x i v (by simp)).2.2 y j (by simp [h])

/-- The clearing of one source leaves every other as it is. -/
theorem endSource_other (s : State) {f x : Nat} (h : x ≠ f) : (∀ y : Fld, (s.endSource f).f y x = s.f y x) ∧ Tab.get none (s.endSource f).flt.grace x = Tab.get none s.flt.grace x := by
  unfold State.endSource State.graceStop
  refine ⟨fun y => ?_, ?_⟩
  · rw [f_setF_otherInst _ _ _ _ h, f_setF_otherInst _ _ _ _ h, f_setF_otherInst _ _ _ _ h, State.f_withFlt]
  · simp only [State.setF_flt, State.withFlt_flt, Tab.get_set_ne _ _ _ h]

theorem clearSource_frame (s : State) (f : Nat) {x : Fld} (i : Nat) (h : x.outside clearFields) : (s.clearSource f).f x i = s.f x i := by
  rw [clearSource_eq, State.endSource, State.f_setF_code _ _ _ _ _ _ (h _ (by simp [clearFields])), State.f_setF_code _ _ _ _ _ _ (h _ (by simp [clearFields])), State.graceStop,
    State.f_setF_code _ _ _ _ _ _ (h _ (by simp [clearFields])), State.f_withFlt]
  exact logEvent_frame _ _ _ _ _ _ _ fun y hy => h y (List.mem_append_left _ hy)

theorem clearSource_holders (s : State) (f : Nat) : (s.clearSource f).flt.holders = s.flt.holders := by
  have hend : ∀ t : State, (t.endSource f).flt.holders = t.flt.holders := fun t => rfl
  rw [clearSource_eq, hend]
  exact holders_of_faultMarks (faultMarks_logEvent _ _ _ _ _ _)

/-- The source has nothing to be cleared. -/
def State.cleared (x : Nat) (s : State) : Prop := s.f F.FLT_SRC_STATUS_ACTIVE x ≠ 1 ∧ s.f F.FLT_SRC_STATUS_EXPIRED x ≠ 1 ∧ Tab.get none s.flt.grace x = none

theorem cleared_of_not_clearable {s : State} {x : Nat} (h : s.clearable x = false) : s.cleared x := by
  simpa [State.clearable, State.fb, State.cleared, and_assoc] using h

theorem cleared_clearSource {s : State} {x f : Nat} (h : s.cleared x ∨ f = x) : (s.clearSource f).cleared x := by
  by_cases hfx : f = x
  · subst hfx
    obtain ⟨hactive, hexpired, -, hgrace⟩ := endSource_self (s.logClear f) f
    rw [clearSource_eq]
    exact ⟨by simp [hactive], by simp [hexpired], hgrace⟩
  · obtain ⟨hactive, hexpired, hgrace⟩ := h.resolve_right hfx
    obtain ⟨hfields, hgrace'⟩ := endSource_other (s.logClear f) (show x ≠ f from fun hx => hfx hx.symm)
    rw [clearSource_eq]
    refine ⟨?_, ?_, ?_⟩
    · rwa [hfields, State.logClear, logEvent_frame _ _ _ _ _ _ _ (by unfold Fld.outside; decide)]
    · rwa [hfields, State.logClear, logEvent_frame _ _ _ _ _ _ _ (by unfold Fld.outside; decide)]
    · rwa [hgrace', State.logClear, grace_of_faultMarks (faultMarks_logEvent _ _ _ _ _ _)]

/-- The loop of FAULT_CLEAR over its sources: each that it names has nothing left to be cleared. -/
theorem clearLoop_cleared (f : Nat) (l : List Nat) {s : State} {x : Nat} (h : s.cleared x ∨ x ∈ l) :
    (chainAll l (fun y u => if f ≠ 255 ∨ u.clearable y = true then u.clearSource y else u) s).cleared x := by
  induction l generalizing s with
  | nil => exact h.resolve_right (by simp)
  | cons y l ih =>
    refine ih (s := if f ≠ 255 ∨ s.clearable y = true then s.clearSource y else s) ?_
    split
    case isTrue =>
      rcases h with h | h
      · exact .inl (cleared_clearSource (.inl h))
      · rcases List.mem_cons.mp h with rfl | h
        · exact .inl (cleared_clearSource (.inr rfl))
        · exact .inr h
    case isFalse hnot =>
      rcases h with h | h
      · exact .inl h
      · rcases List.mem_cons.mp h with rfl | h
        · have hnotclear : s.clearable x = false := by
            simp only [not_or, Bool.not_eq_true] at hnot
            exact hnot.2
          exact .inl (cleared_of_not_clearable hnotclear)
        · exact .inr h

-- ## RELEASE (R363)

/-- A source lets a port go. -/
def State.dropPort (fsid n : Nat) (s : State) : State := (s.setHolders n ((s.holders n).filter (· ≠ fsid))).refreshPort n

theorem dropHolder_eq (s : State) (fsid : Nat) : s.dropHolder fsid =
    (chainAll allPorts (State.dropPort fsid) s, allPorts.filter (fun n => decide (s.holders n ≠ []) && decide ((s.holders n).filter (· ≠ fsid) = []))) := by
  delta State.dropHolder State.dropPort
  with_reducible rfl

theorem holders_dropPort (s : State) (fsid n p : Nat) : (s.dropPort fsid n).holders p = if p = n then (s.holders n).filter (· ≠ fsid) else s.holders p := by
  unfold State.dropPort
  rw [portHolders_congr (holders_of_faultMarks (faultMarks_refreshPort _ _)), holders_setHolders]

theorem dropPort_frame (s : State) (fsid n : Nat) {x : Fld} (i : Nat) (h : x.outside portFields) : (s.dropPort fsid n).f x i = s.f x i := by
  unfold State.dropPort
  rw [refreshPort_frame _ _ _ h]
  exact State.f_withFlt _ _ _ _

theorem dropPort_grace (s : State) (fsid n : Nat) : (s.dropPort fsid n).flt.grace = s.flt.grace := by
  unfold State.dropPort
  rw [grace_of_faultMarks (faultMarks_refreshPort _ _), grace_setHolders]

theorem mem_of_mem_dropPort {s : State} {fsid n p x : Nat} (h : x ∈ (s.dropPort fsid n).holders p) : x ∈ s.holders p := by
  rw [holders_dropPort] at h
  split at h
  case isTrue hp => exact hp ▸ List.mem_of_mem_filter h
  case isFalse => exact h

theorem dropPorts_notMem (fsid : Nat) (l : List Nat) {s : State} {p : Nat} (h : fsid ∉ s.holders p ∨ p ∈ l) : fsid ∉ (chainAll l (State.dropPort fsid) s).holders p := by
  induction l generalizing s with
  | nil => exact h.resolve_right (by simp)
  | cons n l ih =>
    refine ih (s := s.dropPort fsid n) ?_
    rcases h with h | h
    · exact .inl fun hmem => h (mem_of_mem_dropPort hmem)
    · rcases List.mem_cons.mp h with rfl | h
      · refine .inl ?_
        rw [holders_dropPort, if_pos rfl]
        simp
      · exact .inr h

theorem dropPorts_keep (fsid : Nat) (l : List Nat) {s : State} {x p : Nat} (h : x ∉ s.holders p) : x ∉ (chainAll l (State.dropPort fsid) s).holders p := by
  induction l generalizing s with
  | nil => exact h
  | cons n l ih => exact ih (s := s.dropPort fsid n) fun hmem => h (mem_of_mem_dropPort hmem)

/-- A release, its log entry aside. -/
theorem releaseSource_cases (s : State) (fsid : Nat) : s.releaseSource fsid = chainAll allPorts (State.dropPort fsid) s ∨
    ∃ d, s.releaseSource fsid = (chainAll allPorts (State.dropPort fsid) s).logEvent 4 fsid ((chainAll allPorts (State.dropPort fsid) s).fltClass fsid) 0 d := by
  rw [State.releaseSource, dropHolder_eq]
  simp only
  split
  · exact .inl rfl
  · exact .inr ⟨_, rfl⟩

theorem releaseSource_frame (s : State) (fsid : Nat) {x : Fld} (i : Nat) (hp : x.outside portFields) (hl : x.outside logFields) : (s.releaseSource fsid).f x i = s.f x i := by
  have hports : (chainAll allPorts (State.dropPort fsid) s).f x i = s.f x i := chainAll_f _ _ _ _ (fun n t => dropPort_frame t fsid n i hp) s
  rcases releaseSource_cases s fsid with h | ⟨d, h⟩
  · rw [h, hports]
  · rw [h, logEvent_frame _ _ _ _ _ _ _ hl, hports]

theorem releaseSource_marks (s : State) (fsid : Nat) : (s.releaseSource fsid).faultMarks = (chainAll allPorts (State.dropPort fsid) s).faultMarks := by
  rcases releaseSource_cases s fsid with h | ⟨d, h⟩
  · rw [h]
  · rw [h, faultMarks_logEvent]

theorem releaseSource_grace (s : State) (fsid : Nat) : (s.releaseSource fsid).flt.grace = s.flt.grace :=
  (grace_of_faultMarks (releaseSource_marks s fsid)).trans (chainAll_keep (fun t : State => t.flt.grace) _ _ (fun n t => dropPort_grace t fsid n) s)

theorem releaseSource_notMem {s : State} {fsid x p : Nat} (hp : p < 48) (h : x ∉ s.holders p ∨ fsid = x) : x ∉ (s.releaseSource fsid).holders p := by
  rw [portHolders_congr (holders_of_faultMarks (releaseSource_marks s fsid))]
  rcases h with h | rfl
  · exact dropPorts_keep fsid _ h
  · exact dropPorts_notMem fsid _ (.inr (List.mem_range.mpr hp))

theorem cleared_releaseSource {s : State} {x : Nat} (fsid : Nat) (h : s.cleared x) : (s.releaseSource fsid).cleared x := by
  obtain ⟨hactive, hexpired, hgrace⟩ := h
  refine ⟨?_, ?_, ?_⟩
  · rwa [releaseSource_frame _ _ _ (by unfold Fld.outside; decide) (by unfold Fld.outside; decide)]
  · rwa [releaseSource_frame _ _ _ (by unfold Fld.outside; decide) (by unfold Fld.outside; decide)]
  · rwa [releaseSource_grace]

theorem releaseLoop_cleared (l : List Nat) {s : State} {x : Nat} (h : s.cleared x) : (chainAll l (fun y u => u.releaseSource y) s).cleared x := by
  induction l generalizing s with
  | nil => exact h
  | cons y l ih => exact ih (cleared_releaseSource y h)

theorem releaseLoop_notMem (l : List Nat) {s : State} {x p : Nat} (hp : p < 48) (h : x ∉ s.holders p ∨ x ∈ l) : x ∉ (chainAll l (fun y u => u.releaseSource y) s).holders p := by
  induction l generalizing s with
  | nil => exact h.resolve_right (by simp)
  | cons y l ih =>
    refine ih (s := s.releaseSource y) ?_
    rcases h with h | h
    · exact .inl (releaseSource_notMem hp (.inl h))
    · rcases List.mem_cons.mp h with rfl | h
      · exact .inl (releaseSource_notMem hp (.inr rfl))
      · exact .inr h

-- ## SAFE_STATE_SET (R225)

theorem kindBit_toNat (s : State) (n : Nat) :
    s.kindBit n = if n < 32 then ((s.f F.FLT_SAFE_KIND_LO_HOLD 0).testBit n).toNat else ((s.f F.FLT_SAFE_KIND_HI_HOLD 0).testBit (n - 32)).toNat := by
  unfold State.kindBit
  split <;> rw [Nat.toNat_testBit]

/-- One bit of a word of FLT_SAFE_KIND. -/
def State.putKind (x : Fld) (b k : Nat) (s : State) : State := if k = 1 then s.orF x 0 b else s.clrF x 0 (2 ^ b)

theorem setSafeKind_eq (s : State) (n k : Nat) :
    s.setSafeKind n k = (if n < 32 then s.putKind F.FLT_SAFE_KIND_LO_HOLD n k else s.putKind F.FLT_SAFE_KIND_HI_HOLD (n - 32) k).setF F.LMP_PORT_STATUS_SAFE_KIND n k := rfl

theorem putKind_other (s : State) (x : Fld) (b k : Nat) {y : Fld} (j : Nat) (h : y.code ≠ x.code) : (s.putKind x b k).f y j = s.f y j := by
  unfold State.putKind
  split
  · exact State.f_orF _ _ _ _ _ _ h
  · exact f_clrF _ _ _ _ _ _ h

theorem putKind_bit (s : State) {x : Fld} (hx : x.len = 32) {b k : Nat} (hb : b < 32) (hk : k ≤ 1) (j : Nat) (hj : j < 32) :
    ((s.putKind x b k).f x 0).testBit j = if j = b then decide (k = 1) else (s.f x 0).testBit j := by
  have hk' : k = 0 ∨ k = 1 := by omega
  unfold State.putKind
  rcases hk' with rfl | rfl
  · rw [if_neg (by decide), State.clrF, State.f_setF_same, hx, Nat.testBit_mod_two_pow, testBit_clear]
    by_cases h : j = b <;> simp [h, hj, hb]
  · rw [if_pos rfl, State.orF, State.f_setF_same, hx, Nat.testBit_mod_two_pow, Nat.testBit_or, Nat.testBit_two_pow]
    by_cases h : j = b
    · simp [h, hb]
    · simp [h, hj, Ne.symm h]

theorem putKind_lamp (s : State) (x : Fld) (b k : Nat) : (s.putKind x b k).lamp = s.lamp := by
  unfold State.putKind
  split <;> rfl

/-- The kind of one port: its bit and its mirror, and no other port's. -/
theorem setSafeKind_effect (s : State) {n k : Nat} (hn : n < 48) (hk : k ≤ 1) :
    ((s.setSafeKind n k).f F.LMP_PORT_STATUS_SAFE_KIND n = k ∧ (s.setSafeKind n k).kindBit n = k) ∧
    (∀ p, p < 48 → p ≠ n → (s.setSafeKind n k).f F.LMP_PORT_STATUS_SAFE_KIND p = s.f F.LMP_PORT_STATUS_SAFE_KIND p ∧ (s.setSafeKind n k).kindBit p = s.kindBit p) ∧
    (∀ (x : Fld) (i : Nat), x.outside [F.FLT_SAFE_KIND_LO_HOLD, F.FLT_SAFE_KIND_HI_HOLD, F.LMP_PORT_STATUS_SAFE_KIND] → (s.setSafeKind n k).f x i = s.f x i) ∧ (s.setSafeKind n k).lamp = s.lamp := by
  have hword : ∀ y : Fld, y.code ≠ F.LMP_PORT_STATUS_SAFE_KIND.code → ∀ i,
      (s.setSafeKind n k).f y i = (if n < 32 then s.putKind F.FLT_SAFE_KIND_LO_HOLD n k else s.putKind F.FLT_SAFE_KIND_HI_HOLD (n - 32) k).f y i := fun y hy i => by
    rw [setSafeKind_eq, State.f_setF_code _ _ _ _ _ _ hy]
  have hbits : ∀ p, p < 48 → (s.setSafeKind n k).kindBit p = if p = n then k else s.kindBit p := by
    intro p hp
    have htoNat : (decide (k = 1)).toNat = k := by
      have hk' : k = 0 ∨ k = 1 := by omega
      rcases hk' with rfl | rfl <;> rfl
    rw [kindBit_toNat, kindBit_toNat, hword _ (by decide), hword _ (by decide)]
    by_cases hp32 : p < 32 <;> by_cases hn32 : n < 32 <;> simp only [hp32, hn32, if_true, if_false]
    · rw [putKind_bit s rfl hn32 hk p hp32, apply_ite Bool.toNat, htoNat]
    · rw [putKind_other _ _ _ _ _ (by decide), if_neg (by omega)]
    · rw [putKind_other _ _ _ _ _ (by decide), if_neg (by omega)]
    · rw [putKind_bit s rfl (by omega) hk (p - 32) (by omega), apply_ite Bool.toNat, htoNat]
      exact if_congr (by omega) rfl rfl
  refine ⟨⟨?_, by rw [hbits n hn, if_pos rfl]⟩, fun p hp hpn => ⟨?_, by rw [hbits p hp, if_neg hpn]⟩, fun x i hx => ?_, ?_⟩
  · rw [setSafeKind_eq, State.f_setF_same]
    exact Nat.mod_eq_of_lt (Nat.lt_of_le_of_lt hk (by decide))
  · rw [setSafeKind_eq, State.f_setF_inst _ _ _ _ _ hpn]
    split <;> exact putKind_other _ _ _ _ _ (by decide)
  · rw [hword x (hx _ (by simp))]
    split <;> exact putKind_other _ _ _ _ _ (hx _ (by simp))
  · rw [setSafeKind_eq, State.setF_lamp]
    split <;> exact putKind_lamp _ _ _ _

/-- The kinds of a list of ports. -/
theorem setSafeKinds_effect (l : List Nat) {s : State} {k : Nat} (hl : ∀ n ∈ l, n < 48) (hk : k ≤ 1) :
    (∀ n ∈ l, (chainAll l (fun n u => u.setSafeKind n k) s).f F.LMP_PORT_STATUS_SAFE_KIND n = k ∧ (chainAll l (fun n u => u.setSafeKind n k) s).kindBit n = k) ∧
    (∀ n, n < 48 → n ∉ l → (chainAll l (fun n u => u.setSafeKind n k) s).f F.LMP_PORT_STATUS_SAFE_KIND n = s.f F.LMP_PORT_STATUS_SAFE_KIND n ∧ (chainAll l (fun n u => u.setSafeKind n k) s).kindBit n = s.kindBit n) ∧
    (∀ (x : Fld) (i : Nat), x.outside [F.FLT_SAFE_KIND_LO_HOLD, F.FLT_SAFE_KIND_HI_HOLD, F.LMP_PORT_STATUS_SAFE_KIND] → (chainAll l (fun n u => u.setSafeKind n k) s).f x i = s.f x i) ∧
    (chainAll l (fun n u => u.setSafeKind n k) s).lamp = s.lamp := by
  induction l generalizing s with
  | nil => exact ⟨by simp, fun n _ _ => ⟨rfl, rfl⟩, fun _ _ _ => rfl, rfl⟩
  | cons m l ih =>
    have hm := hl m List.mem_cons_self
    obtain ⟨hself, hothers, hframe, hlamp⟩ := setSafeKind_effect s hm hk
    obtain ⟨hin, hout, hframe', hlamp'⟩ := ih (s := s.setSafeKind m k) fun n hn => hl n (List.mem_cons_of_mem _ hn)
    refine ⟨fun n hn => ?_, fun n hn hnl => ?_, fun x i hx => (hframe' x i hx).trans (hframe x i hx), hlamp'.trans hlamp⟩
    · by_cases hnl : n ∈ l
      · exact hin n hnl
      · obtain rfl : n = m := (List.mem_cons.mp hn).resolve_right hnl
        obtain ⟨hkind, hbit⟩ := hout n hm hnl
        exact ⟨hkind.trans hself.1, hbit.trans hself.2⟩
    · rw [List.mem_cons, not_or] at hnl
      obtain ⟨hkind, hbit⟩ := hout n hn hnl.2
      obtain ⟨hkind', hbit'⟩ := hothers n hn hnl.1
      exact ⟨hkind.trans hkind', hbit.trans hbit'⟩

-- ## The commands

/-- A result leaves the fault state and the lamp output as they are. -/
theorem putResult_parts (s : State) (m : Nat) {status : Nat} {data : List Byte} (hs : status < 65536) (hd : data.length ≤ 248) :
    (s.putResult m status data).flt = s.flt ∧ (s.putResult m status data).lamp = s.lamp := by
  obtain ⟨hstate, -, -⟩ := sets_putResult s m hs hd
  constructor <;> rw [hstate]

/-- FAULT_CLEAR before its result: the sources named are cleared, and with RELEASE they let their ports go. -/
def State.clearNamed (f r : Nat) (s : State) : State :=
  let named := if f = 255 then allFsids else [f]
  let t := chainAll named (fun x u => if f ≠ 255 ∨ u.clearable x = true then u.clearSource x else u) s
  if r = 1 then chainAll named (fun x u => u.releaseSource x) t else t

theorem exec_faultClear {s : State} {m : Nat} (ha : s.accepts m 0x0081 = true) (hl : s.mbxLen m = 2)
    (hf : 1 ≤ byteAt (s.mbxArgs m) 0 ∧ byteAt (s.mbxArgs m) 0 ≤ 34 ∨ byteAt (s.mbxArgs m) 0 = 255) (hr : byteAt (s.mbxArgs m) 1 ≤ 1) :
    exec (.faultClear m) s = .next ((s.clearNamed (byteAt (s.mbxArgs m) 0) (byteAt (s.mbxArgs m) 1)).putResult m stOk []) := by
  rw [exec_served (c := .faultClear m) rfl ha (by simp [hl])]
  simp only [hf, Nat.not_lt.mpr hr, not_true_eq_false, or_self, if_false]
  rfl

theorem clearNamed_frame (s : State) (f r : Nat) {x : Fld} (i : Nat) (hc : x.outside clearFields) (hp : x.outside portFields) (hl : x.outside logFields) : (s.clearNamed f r).f x i = s.f x i := by
  have hclear : (chainAll (if f = 255 then allFsids else [f]) (fun y u => if f ≠ 255 ∨ u.clearable y = true then u.clearSource y else u) s).f x i = s.f x i :=
    chainAll_f _ _ _ _ (fun y u => by
      split
      · exact clearSource_frame u y i hc
      · rfl) s
  unfold State.clearNamed
  simp only
  split
  · rw [chainAll_f _ _ _ _ (fun y u => releaseSource_frame u y i hp hl), hclear]
  · exact hclear

theorem clearNamed_cleared (s : State) (f r : Nat) {x : Nat} (hx : x ∈ if f = 255 then allFsids else [f]) : (s.clearNamed f r).cleared x := by
  have hclear := clearLoop_cleared f _ (s := s) (.inr hx)
  unfold State.clearNamed
  simp only
  split
  · exact releaseLoop_cleared _ hclear
  · exact hclear

theorem clearNamed_released (s : State) (f : Nat) {x p : Nat} (hp : p < 48) (hx : x ∈ if f = 255 then allFsids else [f]) : x ∉ (s.clearNamed f 1).holders p :=
  releaseLoop_notMem _ hp (.inr hx)

/-- The clearing of one source without RELEASE. -/
theorem clearNamed_one (s : State) {f : Nat} (hf : f ≠ 255) : s.clearNamed f 0 = s.clearSource f := by
  unfold State.clearNamed
  simp only [hf, if_false, ne_eq, not_false_eq_true, true_or, if_true, Nat.zero_ne_one]
  rfl

theorem clearSource_head (s : State) (f : Nat) : (s.clearSource f).f F.EVT_HEAD_SEQ 0 = (s.f F.EVT_HEAD_SEQ 0 + 1) % 2 ^ 32 := by
  have hend : ∀ t : State, (t.endSource f).f F.EVT_HEAD_SEQ 0 = t.f F.EVT_HEAD_SEQ 0 := fun t => by
    rw [State.endSource, State.f_setF_code _ _ _ _ _ _ (by decide), State.f_setF_code _ _ _ _ _ _ (by decide), State.graceStop, State.f_setF_code _ _ _ _ _ _ (by decide), State.f_withFlt]
  rw [clearSource_eq, hend]
  exact logEvent_head _ _ _ _ _ _

/-- Settles O28: the log read, sources cleared, a source configured, kinds set. -/
theorem faultCommands : Obligations.FaultCommands := by
  refine ⟨fun s m q n adv ha hl hq hc1 hc7 hadv hadv1 hlock hn hlog => ⟨_, exec_served (c := .eventRead m) rfl ha (by simp [hl]), ?_⟩, fun s m f ha hl hf h1 h34 hr => ?_,
    fun s m f r x ha hl hf hrange hr hr1 hx1 hx34 hfx => ?_, fun s m f c r g u v ha hl hf hc hr hg hu hv h1 h34 hc2 hr3 hg15 hu1 hv1023 hr2 hfix => ⟨_, exec_served (c := .faultReactionSet m) rfl ha (by simp [hl]), ?_⟩,
    fun s m p k ha hl hp hrange hk hk1 => ⟨_, exec_served (c := .safeStateSet m) rfl ha (by simp [hl]), ?_⟩⟩
  · have hdata : (s.eventData q n).length ≤ 248 := eventData_length q hlog (by omega)
    obtain ⟨htail, hheld⟩ := putResult_tail s m hdata
    have hbad : ¬(byteAt (s.mbxArgs m) 4 = 0 ∨ 7 < byteAt (s.mbxArgs m) 4 ∨ 1 < adv) := by omega
    have hfree : ¬(adv = 1 ∧ s.lockElsewhere 7 = true) := fun h => by simp [hlock h.1] at h
    simp only [← hadv, ← hq, ← hn, hbad, hfree, if_false]
    have hsets := sets_eventRead (s := s) (m := m) hdata q n (adv = 1 ∧ 0 < n ∧ (q + n + 2 ^ 32 - s.f F.EVT_TAIL_SEQ 0) % 2 ^ 32 ≤ s.evtHeld)
    simp only [State.eventData] at hsets htail hheld
    simp only [stOk, htail, hheld]
    exact hsets
  · have hexec := exec_faultClear ha hl (.inl ⟨hf ▸ h1, hf ▸ h34⟩) (by omega)
    rw [← hf, hr, clearNamed_one s (by omega)] at hexec
    obtain ⟨hactive, hexpired, hgrace, hnone⟩ := endSource_self (s.logClear f) f
    rw [← clearSource_eq] at hactive hexpired hgrace hnone
    obtain ⟨hanswer, hframe, -⟩ := sets_answered (s := s.clearSource f) (m := m) (status := stOk) (data := []) (by decide) (by simp) rfl
    obtain ⟨hflt, -⟩ := putResult_parts (s.clearSource f) m (status := stOk) (data := []) (by decide) (by simp)
    refine ⟨_, hexec, ?_, ?_, ?_, ?_, ?_, ?_, hanswer (F.MBX_STATUS_BUSY, m, 0) (by simp [answer])⟩
    · exact (hframe _ _ (by unfold Fld.outside; decide)).trans hactive
    · exact (hframe _ _ (by unfold Fld.outside; decide)).trans hexpired
    · exact (hframe _ _ (by unfold Fld.outside; decide)).trans hgrace
    · rw [hflt]
      exact hnone
    · exact (hframe _ _ (by unfold Fld.outside; decide)).trans (clearSource_head s f)
    · rw [hflt]
      exact clearSource_holders s f
  · have hexec := exec_faultClear ha hl (by rwa [← hf]) (by omega)
    rw [← hf, ← hr] at hexec
    have hmem : x ∈ if f = 255 then allFsids else [f] := by
      split
      case isTrue =>
        unfold allFsids
        interval_cases x <;> decide
      case isFalse hne => simp [hfx.resolve_left hne]
    obtain ⟨hactive, hexpired, hgrace⟩ := clearNamed_cleared s f r hmem
    obtain ⟨hanswer, hframe, -⟩ := sets_answered (s := s.clearNamed f r) (m := m) (status := stOk) (data := []) (by decide) (by simp) rfl
    obtain ⟨hflt, -⟩ := putResult_parts (s.clearNamed f r) m (status := stOk) (data := []) (by decide) (by simp)
    have htag : (s.clearNamed f r).mbxTag m = s.mbxTag m := mbxTag_congr m (clearNamed_frame s f r _ (by unfold Fld.outside; decide) (by unfold Fld.outside; decide) (by unfold Fld.outside; decide))
    rw [htag] at hanswer
    refine ⟨_, hexec, ?_, ?_, ?_, fun hr1 p hp => ?_, hanswer⟩
    · rwa [hframe _ _ (by unfold Fld.outside; decide)]
    · rwa [hframe _ _ (by unfold Fld.outside; decide)]
    · rwa [hflt]
    · subst hr1
      rw [portHolders_congr (congrArg FltState.holders hflt)]
      exact clearNamed_released s f hp hmem
  · have hgood : ¬(f = 0 ∨ 34 < f ∨ 2 < c ∨ 3 < r ∨ 15 < g ∨ 1 < u ∨ 1023 < v ∨ (fixedSource f = true ∧ c ≠ 2) ∨ (r = 2 ∧ (v = 0 ∨ 1000 < v))) := by
      rintro (h | h | h | h | h | h | h | h | h)
      any_goals omega
      exact h.2 (hfix h.1)
    simp only [← hf, ← hc, ← hr, ← hg, ← hu, ← hv, hgood, if_false]
    exact (((((((((Sets.refl s).putNew F.FLT_SRC_CFG_CLASS f c rfl (show c < 4 by omega)).putNew F.FLT_SRC_CFG_REACTION f r rfl (show r < 4 by omega)).putNew F.FLT_SRC_CFG_ESC_SAFE f (g % 2) rfl
      (Nat.mod_lt _ (by decide))).putNew F.FLT_SRC_CFG_ESC_FATAL f (g / 2 % 2) rfl (Nat.mod_lt _ (by decide))).putNew F.FLT_SRC_CFG_SCOPE f (g / 4 % 2) rfl (Nat.mod_lt _ (by decide))).putNew
      F.FLT_SRC_CFG_LOG f (g / 8 % 2) rfl (Nat.mod_lt _ (by decide))).putNew F.FLT_SRC_CFG_UNIT f u rfl (show u < 2 by omega)).putNew F.FLT_SRC_CFG_VAL f v rfl (show v < 1024 by omega)).putAnswer m 0 [] rfl
      (by decide) (by simp)
  · have hgood : ¬(1 < k ∨ (47 < p ∧ p ≠ 255)) := by omega
    simp only [← hp, ← hk, hgood, if_false]
    have hports : ∀ n ∈ if p = 255 then allPorts else [p], n < 48 := by
      intro n hn
      split at hn
      · exact List.mem_range.mp hn
      · obtain rfl := List.mem_singleton.mp hn
        omega
    obtain ⟨hin, hout, hkept, hlamp⟩ := setSafeKinds_effect _ (s := s) hports hk1
    obtain ⟨hanswer, hframe, -⟩ := sets_answered (s := chainAll (if p = 255 then allPorts else [p]) (fun n u => u.setSafeKind n k) s) (m := m) (status := stOk) (data := []) (by decide) (by simp) rfl
    obtain ⟨-, hlamp'⟩ := putResult_parts (chainAll (if p = 255 then allPorts else [p]) (fun n u => u.setSafeKind n k) s) m (status := stOk) (data := []) (by decide) (by simp)
    have hkind : ∀ n, ((chainAll (if p = 255 then allPorts else [p]) (fun n u => u.setSafeKind n k) s).putResult m stOk []).kindBit n = (chainAll (if p = 255 then allPorts else [p]) (fun n u => u.setSafeKind n k) s).kindBit n := fun n => by
      rw [kindBit_toNat, kindBit_toNat, hframe _ _ (by unfold Fld.outside; decide), hframe _ _ (by unfold Fld.outside; decide)]
    rw [mbxTag_congr m (hkept _ _ (by unfold Fld.outside; decide))] at hanswer
    refine ⟨hanswer, fun n hn hpn => ?_, fun n hn hp255 hpn => ?_, fun x i hx => ?_, hlamp'.trans hlamp⟩
    · have hmem : n ∈ if p = 255 then allPorts else [p] := by
        split
        case isTrue => exact List.mem_range.mpr hn
        case isFalse hne => simp [hpn.resolve_left hne]
      rw [hframe _ _ (by unfold Fld.outside; decide), hkind]
      exact hin n hmem
    · have hmem : n ∉ if p = 255 then allPorts else [p] := by
        rw [if_neg hp255]
        simpa using Ne.symm hpn
      rw [hframe _ _ (by unfold Fld.outside; decide), hkind]
      exact hout n hn hmem
    · refine (hframe x i fun y hy => hx y (List.mem_cons_of_mem _ (List.mem_cons_of_mem _ (List.mem_cons_of_mem _ hy)))).trans (hkept x i fun y hy => hx y ?_)
      simp only [List.mem_cons, List.not_mem_nil, or_false] at hy ⊢
      rcases hy with rfl | rfl | rfl <;> simp

end Sys2Proof.Machine

/-! Reads that clear or restart (R12, R398). -/

namespace Sys2Proof.Machine

/-- A read that shows the register's word and then writes one field of it. -/
theorem sets_answer (s : State) (x : Fld) (i v w : Nat) : Sets { s with readData := [w] } [(x, i, v % 2 ^ x.len)] (State.answer (s.setF x i v, w)) :=
  ((Sets.refl s).snoc x i v (by simp)).withReadData [w]

theorem exec_tmrOverrunRead {s : State} {o : Origin} {n : Nat} (hn : n < 64) (hr : s.readOk o .TMR_STATUS n = true) :
    exec (.tmrOverrunRead o n) s = .next (State.answer (s.setF F.TMR_STATUS_OVERRUN n 0, s.f F.TMR_STATUS_EXPIRED n * 2 ^ 31 + s.f F.TMR_STATUS_OVERRUN n)) := by
  have hview : s.plainWord .TMR_STATUS n = s.f F.TMR_STATUS_EXPIRED n * 2 ^ 31 + s.f F.TMR_STATUS_OVERRUN n := by
    simp [State.plainWord, RegId.info, State.inst, F.TMR_STATUS_EXPIRED, F.TMR_STATUS_OVERRUN]
  calc exec (.tmrOverrunRead o n) s = onInstance (timerOk n) (s.busRead o (RegId.TMR_STATUS.addr n)) := rfl
    _ = .next (State.answer (s.setF F.TMR_STATUS_OVERRUN n 0, s.plainWord .TMR_STATUS n)) := by
      rw [onInstance_of (show timerOk n = true from decide_eq_true hn), busRead_eq hr (regAt_TMR_STATUS hn) (by decide) (by decide)]
      rfl
    _ = _ := by rw [hview]

theorem exec_bpmMinFreeRead {s : State} {o : Origin} (hr : s.readOk o .BPM_MIN_FREE 0 = true) :
    exec (.bpmMinFreeRead o) s = .next (State.answer (s.setF F.BPM_MIN_FREE_COUNT 0 s.freeSram, s.f F.BPM_MIN_FREE_COUNT 0)) := by
  have hview : s.plainWord .BPM_MIN_FREE 0 = s.f F.BPM_MIN_FREE_COUNT 0 := by
    simp [State.plainWord, RegId.info, State.inst, F.BPM_MIN_FREE_COUNT]
  calc exec (.bpmMinFreeRead o) s = .next (s.busRead o (RegId.BPM_MIN_FREE.addr 0)) := rfl
    _ = .next (State.answer (s.setF F.BPM_MIN_FREE_COUNT 0 s.freeSram, s.plainWord .BPM_MIN_FREE 0)) := by
      rw [busRead_eq hr regAt_BPM_MIN_FREE (by decide) (by decide)]
      rfl
    _ = _ := by rw [hview]

theorem exec_pwrVminRead {s : State} {o : Origin} (hr : s.readOk o .PWR_VMIN 0 = true) :
    exec (.pwrVminRead o) s = .next (State.answer (s.setF F.PWR_VMIN_MV 0 0xFFFF, s.f F.PWR_VMIN_MV 0)) := by
  have hview : s.plainWord .PWR_VMIN 0 = s.f F.PWR_VMIN_MV 0 := by
    simp [State.plainWord, RegId.info, State.inst, F.PWR_VMIN_MV]
  calc exec (.pwrVminRead o) s = .next (s.busRead o (RegId.PWR_VMIN.addr 0)) := rfl
    _ = .next (State.answer (s.setF F.PWR_VMIN_MV 0 0xFFFF, s.plainWord .PWR_VMIN 0)) := by
      rw [busRead_eq hr regAt_PWR_VMIN (by decide) (by decide)]
      rfl
    _ = _ := by rw [hview]

theorem exec_arbMaxwaitRead {s : State} {o : Origin} {c r : Nat} (hc : c < 4) (hr : r < 12) (h : s.readOk o .ARB_MAXWAIT (12 * c + r) = true) :
    exec (.arbMaxwaitRead o c r) s = .next (State.answer (s.setF F.ARB_MAXWAIT_FCLK (12 * c + r) 0, s.f F.ARB_MAXWAIT_FCLK (12 * c + r))) := by
  have hview : s.plainWord .ARB_MAXWAIT (12 * c + r) = s.f F.ARB_MAXWAIT_FCLK (12 * c + r) := by
    simp [State.plainWord, RegId.info, State.inst, F.ARB_MAXWAIT_FCLK]
  calc exec (.arbMaxwaitRead o c r) s = onInstance (memChan c && decide (r < 12)) (s.busRead o (RegId.ARB_MAXWAIT.addr (12 * c + r))) := rfl
    _ = .next (State.answer (s.setF F.ARB_MAXWAIT_FCLK (12 * c + r) 0, s.plainWord .ARB_MAXWAIT (12 * c + r))) := by
      rw [onInstance_of (by simp [memChan, hc, hr]), busRead_eq h (regAt_ARB_MAXWAIT (by omega)) (by decide) (by decide)]
      rfl
    _ = _ := by rw [hview]

/-- Settles O34: each of the four reads shows its register's word and then writes the field that it restarts. -/
theorem readsThatClear : Obligations.ReadsThatClear := by
  unfold Obligations.ReadsThatClear
  refine ⟨fun s o n hn hr => ⟨_, exec_tmrOverrunRead hn hr, sets_answer s _ n 0 _⟩, fun s o hr => ⟨_, exec_bpmMinFreeRead hr, sets_answer s _ 0 s.freeSram _⟩,
    fun s o hr => ⟨_, exec_pwrVminRead hr, sets_answer s _ 0 0xFFFF _⟩, fun s o c r hc hr h => ⟨_, exec_arbMaxwaitRead hc hr h, sets_answer s _ _ 0 _⟩⟩

end Sys2Proof.Machine

/-! Shedding and adaptive voltage (R382, R384 to R386). -/

namespace Sys2Proof.Machine

theorem f_setF_ne (s : State) {x y : Fld} {i j v : Nat} (h : ¬(y.code = x.code ∧ j = i)) : (s.setF x i v).f y j = s.f y j :=
  ((Sets.refl s).snoc x i v (by simp)).2.2 y j (by simpa using h)

-- ## Stages

/-- Of the stages 1 to `n`, all of which up to `k` and none beyond are crossed, the last crossed is `k`, or `n` where `k` is beyond. -/
theorem foldl_deepest (p : Nat → Bool) (k n : Nat) (h : ∀ i, i < n + 1 → 1 ≤ i → (p i = true ↔ i ≤ k)) :
    ((List.range n).map (· + 1)).foldl (fun a i => if p i then i else a) 0 = min n k := by
  induction n with
  | zero => simp
  | succ n ih =>
    have hlast := h (n + 1) (by omega) (by omega)
    rw [List.range_succ, List.map_append, List.foldl_append, ih fun i hi h1 => h i (by omega) h1]
    by_cases hp : p (n + 1) = true
    · simp only [List.map_cons, List.map_nil, List.foldl_cons, List.foldl_nil, if_pos hp]
      have := hlast.mp hp
      omega
    · simp only [List.map_cons, List.map_nil, List.foldl_cons, List.foldl_nil, if_neg hp]
      have : ¬ n + 1 ≤ k := fun hk => hp (hlast.mpr hk)
      omega

/-- The least voltage recorded (R386). -/
def State.withVmin (s : State) (mv : Nat) : State := s.setF F.PWR_VMIN_MV 0 (min (s.f F.PWR_VMIN_MV 0) mv)

theorem withVmin_f (s : State) (mv : Nat) {x : Fld} (i : Nat) (h : x.code ≠ F.PWR_VMIN_MV.code) : (s.withVmin mv).f x i = s.f x i :=
  State.f_setF_code _ _ _ _ _ _ h

theorem belowStage_withVmin (s : State) (mv v k : Nat) : (s.withVmin mv).belowStage v k = s.belowStage v k := by
  have href := withVmin_f s mv (x := F.PWR_SETPOINT_REF_MV) 0 (by decide)
  have hoffset := withVmin_f s mv (x := F.PWR_SHED_THR_OFFSET) (k - 1) (by decide)
  rw [State.belowStage, State.belowStage, decide_eq_decide, State.shedOffset, href, hoffset]
  rfl

/-- SHED_STAGE_ENTER with the deepest stage crossed named. -/
theorem shedEnter_eq {s : State} {mv k : Nat} (h : ∀ i, i < 7 → 1 ≤ i → (s.belowStage mv i = true ↔ i ≤ k)) (hk : k ≤ 6) :
    s.shedEnter mv = if k = 6 ∧ s.fatal = false then (s.withVmin mv).chipReset
      else if s.f F.PWR_STATUS_STAGE 0 < min k 5 then (s.withVmin mv).setStage (min k 5) else s.withVmin mv := by
  have hstage : ((List.range 6).map (· + 1)).foldl (fun a i => if (s.withVmin mv).belowStage mv i then i else a) 0 = k := by
    rw [foldl_deepest _ k 6 fun i hi h1 => by rw [belowStage_withVmin]; exact h i hi h1]
    omega
  have hdef : s.shedEnter mv = (let k := ((List.range 6).map (· + 1)).foldl (fun a i => if (s.withVmin mv).belowStage mv i then i else a) 0
    if k = 6 ∧ (s.withVmin mv).fatal = false then (s.withVmin mv).chipReset
    else if (s.withVmin mv).f F.PWR_STATUS_STAGE 0 < min k 5 then (s.withVmin mv).setStage (min k 5) else s.withVmin mv) := rfl
  have hfatal : (s.withVmin mv).fatal = s.fatal := by
    simp only [State.fatal, State.fb]
    rw [withVmin_f s mv (x := F.FLT_STATUS_FATAL) 0 (by decide)]
  rw [hdef, hstage, hfatal, withVmin_f s mv (x := F.PWR_STATUS_STAGE) 0 (by decide)]

theorem refreshPorts_frame (s : State) {x : Fld} (i : Nat) (h : x.outside portFields) : s.refreshPorts.f x i = s.f x i := by
  rw [State.refreshPorts, chainAll_f _ _ _ _ (fun n t => refreshPort_frame t n i h)]

/-- A change of stage writes the stage and its event, beside what the log and the ports write. -/
theorem setStage_parts (s : State) {k : Nat} (hk : k < 16) : (s.setStage k).f F.PWR_STATUS_STAGE 0 = k ∧ (s.setStage k).f F.PWR_EVENT_SHED 0 = 1 ∧
    ∀ (x : Fld) (i : Nat), x.outside (F.PWR_STATUS_STAGE :: F.PWR_EVENT_SHED :: reactFields) → (s.setStage k).f x i = s.f x i := by
  have hkept : ∀ (x : Fld) (i : Nat), x.outside logFields → x.outside portFields → (s.setStage k).f x i = ((s.setF F.PWR_STATUS_STAGE 0 k).setF F.PWR_EVENT_SHED 0 1).f x i := by
    intro x i hl hp
    rw [State.setStage, refreshPorts_frame _ i hp]
    exact logEvent_frame _ _ _ _ _ _ i hl
  refine ⟨?_, ?_, fun x i hx => ?_⟩
  · rw [hkept _ _ (by unfold Fld.outside; decide) (by unfold Fld.outside; decide), State.f_setF_code _ _ _ _ _ _ (by decide), State.f_setF_same]
    exact Nat.mod_eq_of_lt hk
  · rw [hkept _ _ (by unfold Fld.outside; decide) (by unfold Fld.outside; decide), State.f_setF_same]
    rfl
  · have hlog : logFields.all (fun y => reactFields.contains y) = true := by decide
    have hport : portFields.all (fun y => reactFields.contains y) = true := by decide
    have hreact : ∀ l : List Fld, l.all (fun y => reactFields.contains y) = true → x.outside l := fun l hl y hy =>
      hx y (List.mem_cons_of_mem _ (List.mem_cons_of_mem _ (List.contains_iff_mem.mp (List.all_eq_true.mp hl y hy))))
    rw [hkept x i (hreact _ hlog) (hreact _ hport), State.f_setF_code _ _ _ _ _ _ (hx _ (by simp)), State.f_setF_code _ _ _ _ _ _ (hx _ (by simp))]

/-- A lift where the voltage stays above the deepest stage's threshold. -/
theorem shedLift_eq {s : State} {mv k : Nat} (hk : s.f F.PWR_STATUS_STAGE 0 = k) :
    s.shedLift mv = if k = 0 then s else if (s.f F.PWR_SETPOINT_REF_MV 0 : Int) * (shedPermille k (s.shedOffset k) + 10) < 1000 * (mv : Int) then s.setStage (k - 1) else s := by
  rw [State.shedLift, hk]
  push_cast
  rfl

theorem byteAt_lt (l : List Byte) (i : Nat) : byteAt l i < 256 := by
  exact (l.getD i 0).isLt

/-- SHED_THRESHOLD_SET of an offset that keeps the thresholds ordered. -/
theorem exec_shedThresholdSet {s : State} {m k : Nat} (ha : s.accepts m 0x0470 = true) (hl : s.mbxLen m = 2) (hk : k = byteAt (s.mbxArgs m) 0) (h1 : 1 ≤ k) (h6 : k ≤ 6)
    (hlow : -10 ≤ signed 8 (byteAt (s.mbxArgs m) 1)) (hhigh : signed 8 (byteAt (s.mbxArgs m) 1) ≤ 10)
    (hord : ∀ i, i < 6 → 1 ≤ i → shedPermille (i + 1) ((s.setF F.PWR_SHED_THR_OFFSET (k - 1) (byteAt (s.mbxArgs m) 1)).shedOffset (i + 1)) <
      shedPermille i ((s.setF F.PWR_SHED_THR_OFFSET (k - 1) (byteAt (s.mbxArgs m) 1)).shedOffset i)) :
    exec (.shedThresholdSet m) s = .next ((s.setF F.PWR_SHED_THR_OFFSET (k - 1) (byteAt (s.mbxArgs m) 1)).putResult m stOk []) := by
  rw [exec_served (c := .shedThresholdSet m) rfl ha (by simp [hl])]
  have hrange : ¬(k = 0 ∨ 6 < k ∨ signed 8 (byteAt (s.mbxArgs m) 1) < -10 ∨ 10 < signed 8 (byteAt (s.mbxArgs m) 1)) := by omega
  have hall : (List.range 5).all (fun i => decide (shedPermille (i + 2) ((s.setF F.PWR_SHED_THR_OFFSET (k - 1) (byteAt (s.mbxArgs m) 1)).shedOffset (i + 2)) <
      shedPermille (i + 1) ((s.setF F.PWR_SHED_THR_OFFSET (k - 1) (byteAt (s.mbxArgs m) 1)).shedOffset (i + 1)))) = true :=
    List.all_eq_true.mpr fun i hi => decide_eq_true (hord (i + 1) (by have := List.mem_range.mp hi; omega) (by omega))
  simp only [← hk]
  rw [if_neg hrange, if_pos hall]

-- ## AVS (R382)

/-- The next setpoint on the way from `c` to `g`. -/
def vStep (c g : Nat) : Nat := if c < g then min g (c + 5) else max g (c - 5)

theorem refMv_sendVout (s : State) (v : Nat) (g : FwState → FwState) : (((s.setF F.PWR_SETPOINT_CMD_MV 0 v).withFw g).sendVout v).f F.PWR_SETPOINT_REF_MV 0 = s.f F.PWR_SETPOINT_REF_MV 0 := by
  rw [State.sendVout, State.f_withFw, State.f_withFw]
  exact State.f_setF_code _ _ _ _ _ _ (by decide)

/-- What a command of a step does to firmware, and to the setpoints. -/
theorem avsCommand_parts {s : State} {c v : Nat} (hc : s.f F.PWR_SETPOINT_CMD_MV 0 = c) (hc16 : c < 2 ^ 16) (hg : s.fw.avsGoal < 2 ^ 16) (htries : s.fw.avsTries = 0) (hv : v = vStep c s.fw.avsGoal) :
    s.avsCommand.fw.avsGoal = s.fw.avsGoal ∧ s.avsCommand.fw.avsConfirmed = s.fw.avsConfirmed ∧ s.avsCommand.fw.avsTries = (if v = c then 0 else 1) ∧
      Fields s ((F.PWR_SETPOINT_CMD_MV, 0, v) :: if v < c then [(F.PWR_SETPOINT_REF_MV, 0, min v (s.f F.PWR_SETPOINT_REF_MV 0))] else []) s.avsCommand := by
  have hv16 : v < 2 ^ 16 := by
    rw [hv, vStep]
    split <;> omega
  have hdef : s.avsCommand = if v = c then s else
      if v < c then (((s.setF F.PWR_SETPOINT_CMD_MV 0 v).withFw (fun w => { w with avsTries := 1 })).sendVout v).setF F.PWR_SETPOINT_REF_MV 0 (min v (s.f F.PWR_SETPOINT_REF_MV 0))
      else ((s.setF F.PWR_SETPOINT_CMD_MV 0 v).withFw (fun w => { w with avsTries := 1 })).sendVout v := by
    rw [hv, ← hc, ← refMv_sendVout s _ (fun w => { w with avsTries := 1 })]
    rfl
  rw [hdef]
  by_cases hsame : v = c
  · rw [if_pos hsame, if_pos hsame, if_neg (by omega)]
    refine ⟨rfl, rfl, htries, fun e he => ?_, fun x i _ => rfl⟩
    rw [List.mem_singleton.mp he, hsame]
    exact hc
  · rw [if_neg hsame, if_neg hsame]
    by_cases hless : v < c
    · rw [if_pos hless, if_pos hless]
      have hmin : min v (s.f F.PWR_SETPOINT_REF_MV 0) < 2 ^ 16 := by omega
      have hsets := ((Sets.refl s).put F.PWR_SETPOINT_CMD_MV 0 v (by simp) hv16).put F.PWR_SETPOINT_REF_MV 0 _ (by simp [F.PWR_SETPOINT_CMD_MV, F.PWR_SETPOINT_REF_MV]) hmin
      exact ⟨rfl, rfl, rfl, hsets.2⟩
    · rw [if_neg hless, if_neg hless]
      exact ⟨rfl, rfl, rfl, ((Sets.refl s).put F.PWR_SETPOINT_CMD_MV 0 v (by simp) hv16).2⟩

theorem avsTarget_lt (s : State) (tj : Int) : s.avsTarget tj < 2 ^ 16 := by
  simp only [State.avsTarget, clip]
  omega

theorem avs_runs {s : State} (tj : Int) (hst : s.stage = 3 ∨ s.stage = 4) (hh : s.pwr.cpHalted = false) :
    s.avs tj = if s.fw.avsTries = 0 then (s.withFw (fun w => { w with avsGoal := s.avsTarget tj })).avsCommand else s.withFw (fun w => { w with avsGoal := s.avsTarget tj }) := by
  rw [State.avs, if_neg (by simp [hh]; omega)]
  rfl

/-- A reading within 1 % (R382). -/
theorem readback_close {s : State} {mv c : Nat} (hn : s.fw.avsTries ≠ 0) (hc : c = s.f F.PWR_SETPOINT_CMD_MV 0) (h : 100 * ((mv : Int) - c).natAbs ≤ c) :
    s.readback mv = ((s.setF F.PWR_SETPOINT_REF_MV 0 c).withFw (fun w => { w with avsTries := 0, avsConfirmed := c })).avsCommand := by
  subst hc
  rw [State.readback, if_neg hn, if_pos h]

theorem readback_far {s : State} {mv c : Nat} (hn : s.fw.avsTries ≠ 0) (hc : c = s.f F.PWR_SETPOINT_CMD_MV 0) (h : c < 100 * ((mv : Int) - c).natAbs) :
    s.readback mv = if s.fw.avsTries < 3 then (s.withFw (fun w => { w with avsTries := w.avsTries + 1 })).sendVout c
      else (((((s.setF F.PWR_SETPOINT_CMD_MV 0 s.fw.avsConfirmed).withFw (fun w => { w with avsTries := 0, avsGoal := s.fw.avsConfirmed })).sendVout s.fw.avsConfirmed).setF F.PWR_SETPOINT_REF_MV 0
        (min s.fw.avsConfirmed (s.f F.PWR_SETPOINT_REF_MV 0))).setF F.PWR_EVENT_PMBUS_ERR 0 1).logFirmware 1 := by
  subst hc
  rw [State.readback, if_neg hn, if_neg (by omega), ← refMv_sendVout s s.fw.avsConfirmed (fun w => { w with avsTries := 0, avsGoal := s.fw.avsConfirmed })]

/-- Counting writes registers alone. -/
theorem count_regs (s : State) (x : Fld) (i : Nat) (y : Fld) (j k : Nat) : s.count x i y j k = { s with regs := (s.count x i y j k).regs } := by
  simp only [State.count]
  split <;> rfl

/-- The log keeps what firmware holds. -/
theorem fw_logFirmware (s : State) (k : Nat) : (s.logFirmware k).fw = s.fw := by
  have hlost : ∀ t : State, t.evtLost.fw = t.fw := fun t => by rw [State.evtLost, State.setF_fw, count_regs]
  rw [State.logFirmware]
  unfold State.logEvent
  simp only [State.setF_fw, State.withFlt_fw]
  split
  · rw [hlost, State.setF_fw]
  · rfl

theorem exec_shedStageEnter (s : State) (mv : Nat) : exec (.shedStageEnter mv) s = .next (s.shedEnter mv) := rfl
theorem exec_shedStageLift (s : State) (mv : Nat) : exec (.shedStageLift mv) s = .next (s.shedLift mv) := rfl
theorem exec_avsStep (s : State) (tj : Int) : exec (.avsStep tj) s = .next (s.avs tj) := rfl
theorem exec_pmbusReadback (s : State) (mv : Nat) : exec (.pmbusReadback mv) s = .next (s.readback mv) := rfl

/-- Settles O31: the deepest stage crossed is the fold of the crossings; a step of AVS is its next setpoint, once or after a reading. -/
theorem sheddingAndAvs : Obligations.SheddingAndAvs := by
  unfold Obligations.SheddingAndAvs
  refine ⟨fun s mv k h hk hlt hf => ?_, fun s mv k h hk hle hf => ?_, fun s mv h hf => ?_, fun s mv k hk h1 h5 h => ?_, fun s mv k hk h => ?_,
    fun s m k ha hl hk h1 h6 hlow hhigh hord => ?_, fun s tj c g v hst hh ht hc hc16 hg hv => ?_, fun s tj hst hh ht => ?_, fun s mv c v hn hc hc16 hg hclose hv => ?_,
    fun s mv c ht hc hfar => ?_, fun s mv c ht hc hfar => ?_, fun s mv ht => ?_⟩
  · have hno : ¬(k = 6 ∧ s.fatal = false) := fun ⟨h6, hs⟩ => by simp [hf h6] at hs
    obtain ⟨hstage, hshed, hkept⟩ := setStage_parts (s.withVmin mv) (k := min k 5) (by omega)
    refine ⟨_, by rw [exec_shedStageEnter, shedEnter_eq h hk, if_neg hno, if_pos hlt], hstage, hshed, ?_, fun x i hx => ?_⟩
    · rw [hkept _ _ (by unfold Fld.outside; decide), State.withVmin, State.f_setF_same]
      rfl
    · have hsub : x.outside (F.PWR_STATUS_STAGE :: F.PWR_EVENT_SHED :: reactFields) := fun y hy => hx y (((List.sublist_cons_self _ _).cons_cons _ |>.cons_cons _).subset hy)
      rw [hkept x i hsub, withVmin_f s mv i (hx _ (by simp))]
  · have hno : ¬(k = 6 ∧ s.fatal = false) := fun ⟨h6, hs⟩ => by simp [hf h6] at hs
    exact ⟨s.withVmin mv, by rw [exec_shedStageEnter, shedEnter_eq h hk, if_neg hno, if_neg (by omega)], (Sets.refl s).snoc F.PWR_VMIN_MV 0 _ (by simp)⟩
  · rw [exec_shedStageEnter, shedEnter_eq (k := 6) (fun i hi h1 => ⟨fun _ => by omega, fun _ => h i hi h1⟩) (by omega), if_pos ⟨rfl, hf⟩, State.chipReset, if_neg]
    · rfl
    · simp only [State.fatal, State.fb] at hf ⊢
      rw [withVmin_f s mv (x := F.FLT_STATUS_FATAL) 0 (by decide), hf]
      simp
  · obtain ⟨hstage, hshed, hkept⟩ := setStage_parts s (k := k - 1) (by omega)
    exact ⟨_, by rw [exec_shedStageLift, shedLift_eq hk, if_neg (by omega), if_pos h], hstage, hshed, hkept⟩
  · rw [exec_shedStageLift, shedLift_eq hk, if_neg (not_lt.mpr h), ite_self]
  · refine ⟨_, exec_shedThresholdSet ha hl hk h1 h6 hlow hhigh hord, ?_⟩
    exact ((Sets.refl s).put F.PWR_SHED_THR_OFFSET (k - 1) _ (by simp) (byteAt_lt _ _)).putAnswer m 0 [] rfl (by decide) (by simp)
  · have hgoal : (s.withFw (fun w => { w with avsGoal := g })).fw.avsGoal < 2 ^ 16 := hg ▸ avsTarget_lt s tj
    obtain ⟨hg', -, ht', hfields⟩ := avsCommand_parts (s := s.withFw (fun w => { w with avsGoal := g })) hc.symm hc16 hgoal ht hv
    exact ⟨_, by rw [exec_avsStep, avs_runs tj hst hh, if_pos ht, ← hg], hg', ht', hfields⟩
  · rw [exec_avsStep, avs_runs tj hst hh, if_neg ht]
  · have hcmd : ((s.setF F.PWR_SETPOINT_REF_MV 0 c).withFw (fun w => { w with avsTries := 0, avsConfirmed := c })).f F.PWR_SETPOINT_CMD_MV 0 = c := by
      rw [State.f_withFw, State.f_setF_code _ _ _ _ _ _ (by decide), hc]
    have href : ((s.setF F.PWR_SETPOINT_REF_MV 0 c).withFw (fun w => { w with avsTries := 0, avsConfirmed := c })).f F.PWR_SETPOINT_REF_MV 0 = c := by
      rw [State.f_withFw, State.f_setF_same]
      exact Nat.mod_eq_of_lt hc16
    obtain ⟨-, hconf, ht', hfields⟩ := avsCommand_parts hcmd hc16 hg rfl hv
    refine ⟨_, by rw [exec_pmbusReadback, readback_close hn hc hclose], hconf, ht', ?_⟩
    rw [href] at hfields
    obtain ⟨hset, hkept⟩ := hfields
    refine ⟨fun e he => ?_, fun x i hx => ?_⟩
    · rcases List.mem_pair.mp he with rfl | rfl
      · exact hset (F.PWR_SETPOINT_CMD_MV, 0, v) List.mem_cons_self
      · by_cases hless : v < c
        · exact hset (F.PWR_SETPOINT_REF_MV, 0, min v c) (by simp [hless])
        · rw [hkept F.PWR_SETPOINT_REF_MV 0 (by simp [hless, F.PWR_SETPOINT_REF_MV, F.PWR_SETPOINT_CMD_MV]), href]
          exact (Nat.min_eq_right (by omega)).symm
    · have hx' := hx (F.PWR_SETPOINT_REF_MV, 0, min v c) (by simp)
      rw [hkept x i fun e he => ?_, State.f_withFw, f_setF_ne _ hx']
      split at he
      · rcases List.mem_pair.mp he with rfl | rfl
        · exact hx (F.PWR_SETPOINT_CMD_MV, 0, v) (by simp)
        · exact hx'
      · rw [List.mem_singleton.mp he]
        exact hx (F.PWR_SETPOINT_CMD_MV, 0, v) (by simp)
  · exact ⟨(s.withFw (fun w => { w with avsTries := w.avsTries + 1 })).sendVout c, by rw [exec_pmbusReadback, readback_far (by omega) hc hfar, if_pos (by omega)], rfl, rfl⟩
  · refine ⟨_, by rw [exec_pmbusReadback, readback_far (by omega) hc hfar, if_neg (by omega)], ?_, ?_, ?_⟩
    · rw [State.logFirmware, logEvent_frame _ _ _ _ _ _ _ (by unfold Fld.outside; decide), State.f_setF_same]
      rfl
    · rw [State.logFirmware, logEvent_frame _ _ _ _ _ _ _ (by unfold Fld.outside; decide), State.f_setF_code _ _ _ _ _ _ (by decide), State.f_setF_code _ _ _ _ _ _ (by decide),
        State.sendVout, State.f_withFw, State.f_withFw, State.f_setF_same]
      rfl
    · rw [fw_logFirmware]
      rfl
  · rw [exec_pmbusReadback, State.readback, if_pos ht]

end Sys2Proof.Machine

/-! The time base, PTP and timers (R377 to R379, R398). -/

namespace Sys2Proof.Machine

-- ## The time base

theorem exec_tbStep {s : State} {o : Origin} (w : Word) (h : s.writeOk o .CLK_TB_STEP_LO 0 = true) : exec (.tbStep o w) s = .next (s.stepTime w.toNat) := by
  calc exec (.tbStep o w) s = .next (s.regWriteBy o .CLK_TB_STEP_LO 0 w) := rfl
    _ = .next (s.writeReg o .CLK_TB_STEP_LO 0 w.toNat) := by rw [regWriteBy_eq w h regAt_CLK_TB_STEP_LO (by decide)]
    _ = .next (s.stepTime w.toNat) := rfl

theorem exec_tbTrimWrite {s : State} {o : Origin} (w : Word) (h : s.writeOk o .CLK_TB_TRIM 0 = true) :
    exec (.tbTrimWrite o w) s = .next (s.setF F.CLK_TB_TRIM_PPB 0 w.toNat) := by
  calc exec (.tbTrimWrite o w) s = .next (s.regWriteBy o .CLK_TB_TRIM 0 w) := rfl
    _ = .next (s.setF F.CLK_TB_TRIM_PPB 0 (w.toNat / 2 ^ 0 % 2 ^ 32)) := by
      rw [regWriteBy_eq w h regAt_CLK_TB_TRIM (by decide)]
      rfl
    _ = .next (s.setF F.CLK_TB_TRIM_PPB 0 w.toNat) := by rw [pow_zero, Nat.div_one, Nat.mod_eq_of_lt w.isLt]

-- ## PTP

/-- What a change of PTP_LOCKED keeps, and what it leaves. -/
theorem setLocked_eq (s : State) (v : Bool) : s.setLocked v = { s with regs := (s.setLocked v).regs } := by
  unfold State.setLocked
  split <;> rfl

theorem setLocked_fb (s : State) (v : Bool) : (s.setLocked v).fb F.CLK_EVENT_PTP_LOCKED 0 = v := by
  unfold State.setLocked
  split
  next h => exact h
  next =>
    rw [State.fb, State.f_setF_code _ _ _ _ _ _ (by decide), State.f_setF_same]
    cases v <;> rfl

theorem setLocked_frame (s : State) (v : Bool) {x : Fld} (i : Nat) (h : x.outside [F.CLK_EVENT_PTP_LOCKED, F.CLK_EVENT_PTP_STATE]) : (s.setLocked v).f x i = s.f x i := by
  unfold State.setLocked
  split
  · rfl
  · rw [State.f_setF_code _ _ _ _ _ _ (h _ (by simp)), State.f_setF_code _ _ _ _ _ _ (h _ (by simp))]

theorem sets_setLocked_false (s : State) :
    Sets s (if s.f F.CLK_EVENT_PTP_LOCKED 0 = 1 then [(F.CLK_EVENT_PTP_LOCKED, 0, 0), (F.CLK_EVENT_PTP_STATE, 0, 1)] else []) (s.setLocked false) := by
  unfold State.setLocked
  by_cases h : s.f F.CLK_EVENT_PTP_LOCKED 0 = 1
  · rw [if_pos h, if_neg (by simp [State.fb, h])]
    exact ((Sets.refl s).put F.CLK_EVENT_PTP_LOCKED 0 0 (by simp) (by decide)).put F.CLK_EVENT_PTP_STATE 0 1 (by decide) (by decide)
  · rw [if_neg h, if_pos (by simp [State.fb, h])]
    exact Sets.refl s

theorem resumeWalls_off {s : State} (h : s.pwr.resumeDue = false) : s.resumeWalls = s := by
  rw [State.resumeWalls, h]
  rfl

theorem resumeWalls_locked {s : State} (h : s.fb F.CLK_EVENT_PTP_LOCKED 0 = true) : s.resumeWalls.pwr.resumeDue = false := by
  unfold State.resumeWalls
  split
  · rfl
  next hn => simpa [h] using hn

/-- A Sync message as a servo takes it, before the walls restart. -/
def State.servo (s : State) (offset : Int) (trim : Nat) : State :=
  let n := if offset.natAbs ≤ 100 then s.fw.ptpGood + 1 else 0
  let s := (s.withFw (fun w => { w with ptpMaster := false, ptpGood := min n 16 })).setF F.CLK_TB_TRIM_PPB 0 trim
  if 16 ≤ n then s.setLocked true else if 1000 < offset.natAbs then s.setLocked false else s

theorem ptpSync_servo {s : State} (offset : Int) {gm : Bool} (trim : Nat) (hp : s.fw.ptp ≠ []) (hst : s.stage = 4) (hh : s.pwr.cpHalted = false) (hgm : gm = false ∨ byteAt s.fw.ptp 0 = 0) :
    s.ptpSync offset gm trim = (s.servo offset trim).resumeWalls := by
  have hno : ¬((gm && decide (byteAt s.fw.ptp 0 ≠ 0)) = true) := by simpa [or_iff_not_imp_left] using hgm
  rw [State.ptpSync, if_neg (by simp [hp, hst, hh]), if_neg hno]
  rfl

theorem ptpSync_master {s : State} (offset : Int) (trim : Nat) (hp : s.fw.ptp ≠ []) (hst : s.stage = 4) (hh : s.pwr.cpHalted = false) (hb : byteAt s.fw.ptp 0 ≠ 0) :
    s.ptpSync offset true trim = ((s.withFw (fun w => { w with ptpMaster := true, ptpGood := 0 })).setLocked true).resumeWalls := by
  rw [State.ptpSync, if_neg (by simp [hp, hst, hh]), if_pos (by simpa using hb)]

/-- What the servo leaves: its count, the trim, the lock. -/
theorem servo_parts {s : State} {offset : Int} (trim : Word) {n : Nat} (hn : n = if offset.natAbs ≤ 100 then s.fw.ptpGood + 1 else 0) :
    (s.servo offset trim.toNat).fw = { s.fw with ptpMaster := false, ptpGood := min n 16 } ∧ (s.servo offset trim.toNat).pwr = s.pwr ∧ (s.servo offset trim.toNat).f F.CLK_TB_TRIM_PPB 0 = trim.toNat ∧
      ((s.servo offset trim.toNat).fb F.CLK_EVENT_PTP_LOCKED 0 = if 16 ≤ n then true else if 1000 < offset.natAbs then false else s.fb F.CLK_EVENT_PTP_LOCKED 0) ∧
      ∀ (x : Fld) (i : Nat), x.outside [F.CLK_TB_TRIM_PPB, F.CLK_EVENT_PTP_LOCKED, F.CLK_EVENT_PTP_STATE] → (s.servo offset trim.toNat).f x i = s.f x i := by
  obtain ⟨u, hu⟩ : ∃ u, u = (s.withFw (fun w => { w with ptpMaster := false, ptpGood := min n 16 })).setF F.CLK_TB_TRIM_PPB 0 trim.toNat := ⟨_, rfl⟩
  have hdef : s.servo offset trim.toNat = if 16 ≤ n then u.setLocked true else if 1000 < offset.natAbs then u.setLocked false else u := by
    rw [hu, hn]
    rfl
  have hkept : (s.servo offset trim.toNat) = { u with regs := (s.servo offset trim.toNat).regs } := by
    rw [hdef]
    split_ifs
    · exact setLocked_eq u true
    · exact setLocked_eq u false
    · rfl
  have hframe : ∀ (x : Fld) (i : Nat), x.outside [F.CLK_EVENT_PTP_LOCKED, F.CLK_EVENT_PTP_STATE] → (s.servo offset trim.toNat).f x i = u.f x i := by
    intro x i hx
    rw [hdef]
    split_ifs
    · exact setLocked_frame u true i hx
    · exact setLocked_frame u false i hx
    · rfl
  refine ⟨?_, ?_, ?_, ?_, fun x i hx => ?_⟩
  · rw [hkept, hu]
    rfl
  · rw [hkept, hu]
    rfl
  · rw [hframe _ _ (by unfold Fld.outside; decide), hu, State.f_setF_same]
    exact Nat.mod_eq_of_lt trim.isLt
  · rw [hdef]
    split_ifs
    · exact setLocked_fb u true
    · exact setLocked_fb u false
    · rw [hu, State.fb, State.f_setF_code _ _ _ _ _ _ (by decide)]
      rfl
  · rw [hframe x i fun y hy => hx y (List.mem_cons_of_mem _ hy), hu, State.f_setF_code _ _ _ _ _ _ (hx _ (by simp))]
    rfl

theorem exec_ptpSyncProcess (s : State) (offset : Int) (gm : Bool) (trim : Word) : exec (.ptpSyncProcess offset gm trim) s = .next (s.ptpSync offset gm trim.toNat) := rfl

-- ## Timers

theorem exec_timerExpire {s : State} {n : Nat} (hn : n < 64) : exec (.timerExpire n) s = .next (s.timerExpires n) := onInstance_of (decide_eq_true hn) _

theorem timerExpires_due {s : State} {n : Nat} (hen : s.f F.TMR_CTRL_EN n = 1) (hc : s.timerCmp n ≤ s.now) (hf : n ∉ s.time.fired) :
    s.timerExpires n = if s.f F.TMR_CTRL_PERIODIC n = 1 then
        (((s.setF F.TMR_STATUS_EXPIRED n 1).bumpBy F.TMR_STATUS_OVERRUN n ((s.now - s.timerCmp n) / s.timerPeriod n)).setCmp n
          (s.timerCmp n + ((s.now - s.timerCmp n) / s.timerPeriod n + 1) * s.timerPeriod n))
      else (s.setF F.TMR_STATUS_EXPIRED n 1).withTime (fun t => { t with fired := n :: t.fired }) := by
  have hper : (s.setF F.TMR_STATUS_EXPIRED n 1).timerPeriod n = s.timerPeriod n := by
    rw [State.timerPeriod, State.f_setF_code _ _ _ _ _ _ (by decide)]
    rfl
  have hmode : (s.setF F.TMR_STATUS_EXPIRED n 1).fb F.TMR_CTRL_PERIODIC n = decide (s.f F.TMR_CTRL_PERIODIC n = 1) := by
    rw [State.fb, State.f_setF_code _ _ _ _ _ _ (by decide)]
  have hno : ¬((!s.fb F.TMR_CTRL_EN n) = true ∨ s.now < s.timerCmp n ∨ n ∈ s.time.fired) := by
    simp [State.fb, hen, hf, hc]
  have hnow : (s.setF F.TMR_STATUS_EXPIRED n 1).now = s.now := rfl
  rw [State.timerExpires]
  simp only
  rw [if_neg hno, hmode, hper, hnow]
  simp only [decide_eq_true_eq]

theorem timerExpires_not {s : State} {n : Nat} (h : s.f F.TMR_CTRL_EN n ≠ 1 ∨ s.now < s.timerCmp n ∨ n ∈ s.time.fired) : s.timerExpires n = s := by
  rw [State.timerExpires]
  simp only
  rw [if_pos]
  simpa [State.fb] using h

theorem setCmp_parts (s : State) (n v : Nat) : (s.setCmp n v).timerCmp n = v % 2 ^ 64 ∧ (s.setCmp n v).f F.TMR_CMP_LO_CMP n = v % 2 ^ 32 ∧ n ∉ (s.setCmp n v).time.fired ∧
    ∀ (x : Fld) (i : Nat), x.outside [F.TMR_CMP_LO_CMP, F.TMR_CMP_HI_CMP] → (s.setCmp n v).f x i = s.f x i := by
  refine ⟨?_, ?_, ?_, fun x i hx => ?_⟩
  · simp only [State.timerCmp, State.setCmp, State.setF_time, State.withTime_time, Tab.get_set_same]
  · rw [State.setCmp, State.f_setF_code _ _ _ _ _ _ (by decide), State.f_setF_same]
    exact Nat.mod_mod _ _
  · simp [State.setCmp]
  · rw [State.setCmp, State.f_setF_code _ _ _ _ _ _ (hx _ (by simp)), State.f_setF_code _ _ _ _ _ _ (hx _ (by simp))]
    rfl

theorem exec_tmrCmpWrite {s : State} {o : Origin} {n : Nat} (w : Word) (hn : n < 64) (h : s.writeOk o .TMR_CMP_LO n = true) :
    exec (.tmrCmpWrite o n w) s = .next (s.writeLatched o .TMR_CMP_LO n w.toNat) := by
  calc exec (.tmrCmpWrite o n w) s = onInstance (timerOk n) (s.regWriteBy o .TMR_CMP_LO n w) := rfl
    _ = .next (s.writeLatched o .TMR_CMP_LO n w.toNat) := by rw [onInstance_of (show timerOk n = true from decide_eq_true hn), State.regWriteBy_ok h (regAt_TMR_CMP_LO hn)]

theorem writeLatched_time (s : State) (o : Origin) (r : RegId) (i w : Nat) : (s.writeLatched o r i w).time = (s.writeReg o r i w).time := by
  rw [State.writeLatched]
  exact chainAll_keep State.time _ (fun (h : RegId) t => State.setLatchWord t (h.addr i) 0) (fun _ _ => rfl) _

/-- Settles O33: each clause is one case of the operation, with the registers and the parts that the case writes. -/
theorem timeAndTimers : Obligations.TimeAndTimers := by
  unfold Obligations.TimeAndTimers
  refine ⟨fun s o w h hg => ?_, fun s o w h hg hbig => ?_, fun s o w h => ⟨_, exec_tbTrimWrite w h, (Sets.refl s).put _ 0 _ (by simp) w.isLt⟩, fun s m ha hl hok => ?_,
    fun s offset gm trim n hp hst hh hgm hr hn => ?_, fun s offset trim hp hst hh hb hr => ?_, fun s offset gm trim hp hst hh hr hgood hoff => ?_, fun s n hn hen hc hf hper => ?_,
    fun s n k hn hen hc hf hper hk => ?_, fun s n hn h => by rw [exec_timerExpire hn, timerExpires_not h], fun s o n w hn h => ?_⟩
  · rw [exec_tbStep w h, State.stepTime, if_neg]
    rw [Bool.and_eq_true, decide_eq_true_eq, not_and, not_lt]
    intro hgrid
    rcases hg with hg | hg
    · exact absurd hgrid (by simp [hg])
    · exact hg
  · refine ⟨_, by rw [exec_tbStep w h, State.stepTime, if_pos (by simpa [hg] using hbig)], ?_, ?_, ?_⟩
    · rw [count_regs]
      rfl
    · rw [State.f_count _ _ _ _ _ _ _ _ (by decide) (by decide), State.f_setF_same]
      rfl
    · rw [State.f_count_same _ _ _ _ _ _ (by decide), State.f_setF_code _ _ _ _ _ _ (by decide)]
      rfl
  · have hlock := sets_setLocked_false (s.withFw (fun w => { w with ptp := s.mbxArgs m, ptpMaster := false, ptpGood := 0 }))
    refine ⟨((s.withFw (fun w => { w with ptp := s.mbxArgs m, ptpMaster := false, ptpGood := 0 })).setLocked false).putResult m stOk [], ?_, ?_⟩
    · rw [exec_served (c := .ptpConfig m) rfl ha (by simp [hl])]
      simp [hok]
    · refine hlock.putAnswer m 0 [] ?_ (by decide) (by simp)
      split <;> rfl
  · obtain ⟨hfw, hpwr, htrim, hlock, hkept⟩ := servo_parts trim hn
    refine ⟨_, by rw [exec_ptpSyncProcess, ptpSync_servo offset _ hp hst hh hgm, resumeWalls_off (by rw [hpwr]; exact hr)], hfw, htrim, hlock, hkept⟩
  · obtain ⟨u, hu⟩ : ∃ u, u = s.withFw (fun w => { w with ptpMaster := true, ptpGood := 0 }) := ⟨_, rfl⟩
    have hoff : (u.setLocked true).pwr.resumeDue = false := by
      rw [setLocked_eq, hu]
      exact hr
    refine ⟨u.setLocked true, by rw [exec_ptpSyncProcess, ptpSync_master offset _ hp hst hh hb, ← hu, resumeWalls_off hoff], ?_, setLocked_fb u true, fun x i hx => ?_⟩
    · rw [setLocked_eq, hu]
      rfl
    · rw [setLocked_frame u true i hx, hu]
      rfl
  · by_cases hgm : gm = false ∨ byteAt s.fw.ptp 0 = 0
    · obtain ⟨-, -, -, hlock, -⟩ := servo_parts (s := s) (offset := offset) trim rfl
      rw [if_pos hoff, if_pos (by omega)] at hlock
      exact ⟨_, by rw [exec_ptpSyncProcess, ptpSync_servo offset _ hp hst hh hgm], resumeWalls_locked hlock⟩
    · obtain ⟨hgm, hb⟩ := not_or.mp hgm
      rw [Bool.not_eq_false] at hgm
      exact ⟨_, by rw [exec_ptpSyncProcess, hgm, ptpSync_master offset _ hp hst hh hb], resumeWalls_locked (setLocked_fb _ true)⟩
  · refine ⟨_, by rw [exec_timerExpire hn, timerExpires_due hen hc hf, if_neg (by omega)], ?_⟩
    exact (Sets.refl (s.withTime (fun x => { x with fired := n :: x.fired }))).put F.TMR_STATUS_EXPIRED n 1 (by simp) (by decide)
  · subst hk
    refine ⟨_, by rw [exec_timerExpire hn, timerExpires_due hen hc hf, if_pos hper], ?_, ?_, (setCmp_parts _ n _).1⟩
    · rw [(setCmp_parts _ n _).2.2.2 _ _ (by unfold Fld.outside; decide), State.bumpBy, State.f_setF_code _ _ _ _ _ _ (by decide), State.f_setF_same]
      rfl
    · rw [(setCmp_parts _ n _).2.2.2 _ _ (by unfold Fld.outside; decide), State.bumpBy, State.f_setF_same, State.f_setF_code _ _ _ _ _ _ (by decide)]
      exact Nat.mod_eq_of_lt (by simp only [F.TMR_STATUS_OVERRUN]; omega)
  · obtain ⟨hcmp, hlo, hfired, -⟩ := setCmp_parts s n (s.f F.TMR_CMP_HI_CMP n * 2 ^ 32 + w.toNat)
    have htime := writeLatched_time s o .TMR_CMP_LO n w.toNat
    refine ⟨_, exec_tmrCmpWrite w hn h, ?_, ?_, ?_⟩
    · rw [State.timerCmp, htime]
      exact hcmp
    · rw [writeLatched_f]
      refine hlo.trans ?_
      rw [Nat.mul_add_mod', Nat.mod_eq_of_lt w.isLt]
    · rw [htime]
      exact hfired

end Sys2Proof.Machine

/-! What a raise of a fault source leaves alone, part by part (R362 to R367): finer than `State.besideRaise`, for the parts that a raise changes in one place alone. -/

namespace Sys2Proof.Machine

/-- The state without what a raise may change: registers, fault state, channels and ports, the unit that a hewer runs, the halt of the processor and its clock, the restart and the refused locks of firmware. -/
def State.sansRaise (s : State) : State :=
  { s with
    regs := [], flt := {}, lamp := { s.lamp with chans := [], ports := [] }
    codec := { s.codec with hewers := s.codec.hewers.map (fun e => (e.1, { e.2 with run := none })) }
    pwr := { s.pwr with cpHalted := false, onRefclk := false }
    fw := { s.fw with restarted := false, lockRefused := [] } }

@[simp] theorem sansRaise_setF (s : State) (x : Fld) (i v : Nat) : (s.setF x i v).sansRaise = s.sansRaise := Eq.trans rfl rfl

@[simp] theorem sansRaise_withFlt (s : State) (g : FltState → FltState) : (s.withFlt g).sansRaise = s.sansRaise := Eq.trans rfl rfl

@[simp] theorem sansRaise_orF (s : State) (x : Fld) (i k : Nat) : (s.orF x i k).sansRaise = s.sansRaise := Eq.trans rfl rfl

@[simp] theorem sansRaise_count (s : State) (x : Fld) (i : Nat) (y : Fld) (j k : Nat) : (s.count x i y j k).sansRaise = s.sansRaise := by
  unfold State.count
  simp only
  split <;> simp only [sansRaise_orF, sansRaise_setF]

theorem sansRaise_logEvent (s : State) (kind fsid cls inst : Nat) (d : List Byte) : (s.logEvent kind fsid cls inst d).sansRaise = s.sansRaise := by
  unfold State.logEvent State.evtLost
  simp only [sansRaise_setF, sansRaise_withFlt]
  split
  · simp only [sansRaise_setF, sansRaise_count]
  · rfl

theorem sansRaise_settleChan (s : State) (n : Nat) : (s.settleChan n).sansRaise = s.sansRaise := by
  have hbuf : ∀ t : State, (t.showBuf n).sansRaise = t.sansRaise := fun t => by
    unfold State.showBuf
    split
    · exact sansRaise_setF _ _ _ _
    · rfl
  unfold State.settleChan
  simp only
  split_ifs <;> simp only [sansRaise_setF, hbuf]

theorem sansRaise_dropDisplay (s : State) (d : Nat) : (s.dropDisplay d).sansRaise = s.sansRaise := by
  unfold State.dropDisplay
  simp only
  split
  · rfl
  · exact sansRaise_setF _ _ _ _

theorem sansRaise_setPort (s : State) (n : Nat) (p : LampPort) : (s.setPort n p).sansRaise = s.sansRaise := Eq.trans rfl rfl

theorem sansRaise_setChan (s : State) (n : Nat) (c : RivChan) : (s.withLamp (fun w => { w with chans := Tab.set {} w.chans n c })).sansRaise = s.sansRaise := Eq.trans rfl rfl

theorem sansRaise_refreshPort (s : State) (n : Nat) : (s.refreshPort n).sansRaise = s.sansRaise := by
  unfold State.refreshPort
  simp only
  split
  · split
    · rw [sansRaise_dropDisplay, sansRaise_settleChan, sansRaise_setF, sansRaise_setPort, sansRaise_setChan]
    · rw [sansRaise_settleChan, sansRaise_setF, sansRaise_setPort, sansRaise_setChan]
  · split
    · rw [sansRaise_setF, sansRaise_setPort]
    · rfl

theorem sansRaise_refreshPorts (s : State) : s.refreshPorts.sansRaise = s.sansRaise := by
  rw [State.refreshPorts, chainAll_keep State.sansRaise _ _ (fun n t => sansRaise_refreshPort t n)]

theorem sansRaise_safeNow (s : State) (fsid : Nat) (sc : Bool) (l : List Nat) : (s.safeNow fsid sc l).sansRaise = s.sansRaise := by
  unfold State.safeNow
  simp only
  rw [sansRaise_logEvent]
  exact chainAll_keep State.sansRaise _ _ (fun n t => (sansRaise_refreshPort _ n).trans (sansRaise_withFlt t _)) s

theorem sansRaise_dropRuns (s : State) : (s.withCodec (fun w => { w with hewers := w.hewers.map (fun e => (e.1, { e.2 with run := none })) })).sansRaise = s.sansRaise := by
  unfold State.sansRaise
  simp only [State.withCodec, List.map_map]
  rfl

theorem sansRaise_hewersOut (s : State) : s.hewersOut.sansRaise = s.sansRaise := by
  rw [State.hewersOut, sansRaise_dropRuns]
  exact chainAll_keep State.sansRaise _ _ (fun h t => by rw [sansRaise_setF, sansRaise_setF]) s

theorem sansRaise_withHalt (s : State) (a b : Bool) : (s.withPwr (fun w => { w with cpHalted := w.cpHalted || a, onRefclk := w.onRefclk || b })).sansRaise = s.sansRaise := Eq.trans rfl rfl

theorem sansRaise_enterFatal (s : State) (fsid : Nat) : (s.enterFatal fsid).sansRaise = s.sansRaise := by
  unfold State.enterFatal
  split
  · rfl
  · simp only
    rw [sansRaise_refreshPorts, sansRaise_hewersOut, sansRaise_withHalt, sansRaise_logEvent, sansRaise_setF, sansRaise_setF]

theorem sansRaise_markRaise (s : State) (fsid inst : Nat) : (s.markRaise fsid inst).sansRaise = s.sansRaise := by
  unfold State.markRaise State.fltCount
  split <;> simp only [sansRaise_setF, sansRaise_count]

theorem sansRaise_refused (s : State) (g : List Nat → List Nat) : (s.withFw (fun w => { w with lockRefused := g w.lockRefused })).sansRaise = s.sansRaise := Eq.trans rfl rfl

theorem sansRaise_freeLock (s : State) (n : Nat) : (s.freeLock n).sansRaise = s.sansRaise := by
  unfold State.freeLock State.setFreed
  simp only
  split_ifs
  · rw [sansRaise_orF, sansRaise_refused, sansRaise_setF]
  · rw [sansRaise_orF, sansRaise_refused, sansRaise_setF]
  · exact sansRaise_setF _ _ _ _

theorem sansRaise_breakLocksOf (s : State) (l : List Nat) : (s.breakLocksOf l).sansRaise = s.sansRaise := by
  refine chainAll_keep State.sansRaise _ _ (fun n t => ?_) s
  unfold State.breakLock
  split_ifs
  · rfl
  · rw [sansRaise_setF, sansRaise_freeLock]
  · rfl

theorem sansRaise_cpReset (s : State) : s.cpReset.sansRaise = s.sansRaise := by
  have hheld : ∀ (m : Nat) (t : State), (if t.fb F.MBX_STATUS_BUSY m then t.setF F.MBX_STATUS_HELD m 1 else t).sansRaise = t.sansRaise := by
    intro m t
    split
    · exact sansRaise_setF _ _ _ _
    · rfl
  exact (chainAll_keep State.sansRaise _ _ hheld _).trans ((sansRaise_setF _ _ _ _).trans (sansRaise_breakLocksOf s _))

theorem sansRaise_raiseFatal (s : State) (fsid inst : Nat) (d : List Byte) : (s.raiseFatal fsid inst d).sansRaise = s.sansRaise := by
  rw [State.raiseFatal, sansRaise_enterFatal, sansRaise_logEvent, sansRaise_markRaise]

theorem sansRaise_noteRestart (s : State) (l : List Nat) : ({ s with flt := { s.flt with restarts := l }, fw := { s.fw with restarted := true } } : State).sansRaise = s.sansRaise := Eq.trans rfl rfl

theorem sansRaise_cpRestart (s : State) : s.cpRestart.sansRaise = s.sansRaise := by
  unfold State.cpRestart
  simp only
  split
  · exact sansRaise_raiseFatal _ _ _ _
  · rw [sansRaise_cpReset, sansRaise_setF, sansRaise_count, sansRaise_noteRestart]

theorem sansRaise_graceRaise (s : State) (fsid inst : Nat) : (s.graceRaise fsid inst).sansRaise = s.sansRaise := by
  unfold State.graceRaise
  split
  · exact sansRaise_withFlt _ _
  · simp only
    rw [sansRaise_setF, sansRaise_withFlt]

/-- A raise changes what `State.sansRaise` leaves out, and nothing else. -/
theorem sansRaise_raiseFault (s : State) (fsid inst : Nat) (d : List Byte) : (s.raiseFault fsid inst d).sansRaise = s.sansRaise := by
  have hlog : ∀ (b : Bool) (t : State) k f c n d, (if b then t.logEvent k f c n d else t).sansRaise = t.sansRaise := by
    intro b t k f c n d
    cases b with
    | false => rfl
    | true => exact sansRaise_logEvent _ _ _ _ _ _
  unfold State.raiseFault
  simp only
  split
  · exact sansRaise_raiseFatal _ _ _ _
  · split
    · rw [hlog, sansRaise_markRaise]
    · split
      · rw [sansRaise_safeNow, hlog, sansRaise_markRaise]
      · rw [sansRaise_graceRaise, hlog, sansRaise_markRaise]
      · rw [sansRaise_cpRestart, hlog, sansRaise_markRaise]
      · rw [hlog, sansRaise_markRaise]

-- ## Reading the parts

theorem challenge_of_sansRaise {s t : State} (h : t.sansRaise = s.sansRaise) : t.fw.challenge = s.fw.challenge := by
  have h' := congrArg (fun u : State => u.fw.challenge) h
  exact h'

theorem sec_of_sansRaise {s t : State} (h : t.sansRaise = s.sansRaise) : t.sec = s.sec := by
  have h' := congrArg State.sec h
  exact h'

theorem dram_of_sansRaise {s t : State} (h : t.sansRaise = s.sansRaise) : t.dram = s.dram := by
  have h' := congrArg State.dram h
  exact h'

end Sys2Proof.Machine

/-! Tamper, wipes and world locks (R401, R404, R407, R413, R414). -/

namespace Sys2Proof.Machine

-- ## Steps that write registers alone

/-- `t` is `s` with registers of its own. -/
def RegsOnly (s t : State) : Prop := t = { s with regs := t.regs }

theorem RegsOnly.refl (s : State) : RegsOnly s s := rfl

theorem RegsOnly.trans {s t u : State} (h : RegsOnly s t) (g : RegsOnly t u) : RegsOnly s u := by
  unfold RegsOnly at h g ⊢
  rw [g, h]

theorem RegsOnly.setF {s t : State} (h : RegsOnly s t) (x : Fld) (i v : Nat) : RegsOnly s (t.setF x i v) := h.trans rfl

theorem RegsOnly.count {s t : State} (h : RegsOnly s t) (x : Fld) (i : Nat) (y : Fld) (j k : Nat) : RegsOnly s (t.count x i y j k) := h.trans (count_regs t x i y j k)

theorem Sets.regsOnly {s t : State} {l : List (Fld × Nat × Nat)} (h : Sets s l t) : RegsOnly s t := h.1

theorem RegsOnly.putResult {s t : State} (h : RegsOnly s t) (m : Nat) {status : Nat} {data : List Byte} (hs : status < 65536) (hd : data.length ≤ 248) : RegsOnly s (t.putResult m status data) :=
  h.trans (sets_putResult t m hs hd).regsOnly

theorem RegsOnly.closeSession {s t : State} (h : RegsOnly s t) (m : Nat) : RegsOnly s (t.closeSession m) := by
  refine h.trans ?_
  unfold State.closeSession
  split
  · exact (((RegsOnly.refl t).setF _ _ _).setF _ _ _).setF _ _ _
  · exact RegsOnly.refl t

theorem RegsOnly.closeSessions {s t : State} (h : RegsOnly s t) : RegsOnly s t.closeSessions := ((h.closeSession 0).closeSession 8).closeSession 12

theorem RegsOnly.chainAll {α : Type} {s t : State} (h : RegsOnly s t) (l : List α) (g : α → State → State) (hg : ∀ a u, RegsOnly u (g a u)) : RegsOnly s (chainAll l g t) := by
  unfold Sys2Proof.Machine.chainAll
  induction l generalizing t with
  | nil => exact h
  | cons a l ih => exact ih (h.trans (hg a t))

theorem RegsOnly.sec {s t : State} (h : RegsOnly s t) : t.sec = s.sec := by
  rw [show t = _ from h]

theorem RegsOnly.fw {s t : State} (h : RegsOnly s t) : t.fw = s.fw := by
  rw [show t = _ from h]

theorem RegsOnly.dram {s t : State} (h : RegsOnly s t) : t.dram = s.dram := by
  rw [show t = _ from h]

theorem RegsOnly.pwr {s t : State} (h : RegsOnly s t) : t.pwr = s.pwr := by
  rw [show t = _ from h]

-- ## A trip (R414)

/-- The registers and the pin of source `i` that trips. -/
def State.tripMarks (s : State) (i : Nat) : State :=
  let s := s.orF F.SEC_TAMPER_STATUS_TRIPPED 0 i
  let s := s.setF F.SEC_TAMPER_STATUS_TAMPERED 0 1
  let s := s.setF F.SEC_STATUS_TAMPERED 0 1
  let s := s.bump F.SEC_TAMPER_STATUS_COUNT 0
  let s := if (s.f F.SEC_TAMPER_CFG_LOCKOUT 0).testBit i then s.setF F.SEC_STATUS_LOCKOUT 0 1 else s
  s.withAon (fun w => { w with trippedNow := if i ∈ w.trippedNow then w.trippedNow else i :: w.trippedNow })

/-- A trip up to its alarm. -/
def State.tripped (s : State) (i : Nat) : State := (s.tripMarks i).dropSecrets.spoilKeyLoads.wipe 0

theorem tamper_eq {s : State} {i : Nat} (h : s.tamperEnabled i = true) : s.tamper i = if (s.tripped i).pwr.standby then (s.tripped i).setLatch (768 + i) else (s.tripped i).raiseFault 31 i [] := by
  rw [State.tamper, if_neg (by simp [h])]
  delta State.tripped State.tripMarks
  with_reducible rfl

theorem tripMarks_f (s : State) {i : Nat} (hi : i < 8) : ((s.tripMarks i).f F.SEC_TAMPER_STATUS_TRIPPED 0).testBit i = true ∧ (s.tripMarks i).f F.SEC_TAMPER_STATUS_TAMPERED 0 = 1 ∧
    (s.tripMarks i).f F.SEC_TAMPER_STATUS_COUNT 0 = min (s.f F.SEC_TAMPER_STATUS_COUNT 0 + 1) (2 ^ 16 - 1) := by
  have hlockout : ∀ (t : State) (x : Fld), x.code ≠ F.SEC_STATUS_LOCKOUT.code → (if (t.f F.SEC_TAMPER_CFG_LOCKOUT 0).testBit i then t.setF F.SEC_STATUS_LOCKOUT 0 1 else t).f x 0 = t.f x 0 := by
    intro t x hx
    split
    · exact State.f_setF_code _ _ _ _ _ _ hx
    · rfl
  have hreach : ∀ x : Fld, x.code ≠ F.SEC_STATUS_LOCKOUT.code → (s.tripMarks i).f x 0 =
      ((((s.orF F.SEC_TAMPER_STATUS_TRIPPED 0 i).setF F.SEC_TAMPER_STATUS_TAMPERED 0 1).setF F.SEC_STATUS_TAMPERED 0 1).bump F.SEC_TAMPER_STATUS_COUNT 0).f x 0 := fun x hx => by
    rw [State.tripMarks, State.f_withAon, hlockout _ x hx]
  refine ⟨?_, ?_, ?_⟩
  · rw [hreach _ (by decide), State.bump, State.f_setF_code _ _ _ _ _ _ (by decide), State.f_setF_code _ _ _ _ _ _ (by decide), State.f_setF_code _ _ _ _ _ _ (by decide), State.orF, State.f_setF_same,
      Nat.testBit_mod_two_pow, Nat.testBit_or, Nat.testBit_two_pow_self, Bool.or_true, Bool.and_true]
    exact decide_eq_true hi
  · rw [hreach _ (by decide), State.bump, State.f_setF_code _ _ _ _ _ _ (by decide), State.f_setF_code _ _ _ _ _ _ (by decide), State.f_setF_same]
    rfl
  · have hlen : min (s.f F.SEC_TAMPER_STATUS_COUNT 0 + 1) (2 ^ 16 - 1) < 2 ^ 16 := by omega
    rw [hreach _ (by decide), State.bump, State.f_setF_same, State.f_setF_code _ _ _ _ _ _ (by decide), State.f_setF_code _ _ _ _ _ _ (by decide), State.f_orF _ _ _ _ _ _ (by decide)]
    exact Nat.mod_eq_of_lt hlen

/-- The fields that the end of every session may write. -/
def sessionFields : List Fld := [F.GLB_EXPERT_UNLOCKED_F0, F.GLB_EXPERT_HOLDER_F0, F.GLB_EXPERT_UNLOCKED_F1, F.GLB_EXPERT_HOLDER_F1, F.GLB_EXPERT_UNLOCKED_R, F.GLB_EXPERT_HOLDER_R, F.MBX_STATUS_EXPERT]

theorem closeSessions_f (s : State) {x : Fld} (i : Nat) (h : x.outside sessionFields) : s.closeSessions.f x i = s.f x i := by
  have hout : ∀ m, x.outside [(sessionOf m).1, (sessionOf m).2, F.MBX_STATUS_EXPERT] := fun m y hy => h y (by
    unfold sessionOf at hy
    unfold sessionFields
    split_ifs at hy <;> simp at hy ⊢ <;> tauto)
  rw [State.closeSessions, closeSession_f _ _ _ (hout 12), closeSession_f _ _ _ (hout 8), closeSession_f _ _ _ (hout 0)]

theorem closeSessions_ended (s : State) : s.closeSessions.f F.GLB_EXPERT_UNLOCKED_F0 0 ≠ 1 ∧ s.closeSessions.f F.GLB_EXPERT_UNLOCKED_F1 0 ≠ 1 ∧ s.closeSessions.f F.GLB_EXPERT_UNLOCKED_R 0 ≠ 1 := by
  refine ⟨?_, ?_, closeSession_ended _ 12⟩
  · rw [State.closeSessions, closeSession_f _ _ _ (by unfold Fld.outside; decide), closeSession_f _ _ _ (by unfold Fld.outside; decide)]
    exact closeSession_ended s 0
  · rw [State.closeSessions, closeSession_f _ _ _ (by unfold Fld.outside; decide)]
    exact closeSession_ended _ 8

/-- A key load that a trip spoils is answered anew. -/
def spoilOne (now : Nat) (e : Nat × Nat) (t : State) : State := if e.2 = now ∧ t.fb F.MBX_STATUS_RESULT_PENDING e.1 then t.putResult e.1 stBusy [] else t

theorem spoilKeyLoads_eq (s : State) : s.spoilKeyLoads = chainAll s.sec.keyAt (spoilOne s.time.fclk) (s.withSec (fun w => { w with keyAt := [], tripAt := some s.time.fclk })) := rfl

theorem spoilOne_regsOnly (now : Nat) (e : Nat × Nat) (t : State) : RegsOnly t (spoilOne now e t) := by
  unfold spoilOne
  split
  · exact (RegsOnly.refl t).putResult e.1 (by decide) (by simp)
  · exact RegsOnly.refl t

theorem putResult_frame (s : State) (m : Nat) {status : Nat} {data : List Byte} (hs : status < 65536) (hd : data.length ≤ 248) {x : Fld} (i : Nat) (h : x.outside resultFields) :
    (s.putResult m status data).f x i = s.f x i := (sets_answered hs hd rfl).2.1 x i h

theorem spoilKeyLoads_f (s : State) {x : Fld} (i : Nat) (h : x.outside resultFields) : s.spoilKeyLoads.f x i = s.f x i := by
  have hone : ∀ e t, (spoilOne s.time.fclk e t).f x i = t.f x i := by
    intro e t
    unfold spoilOne
    split
    · exact putResult_frame t e.1 (by decide) (by simp) i h
    · rfl
  rw [spoilKeyLoads_eq, chainAll_f _ _ _ _ hone, State.f_withSec]

theorem wipe_f (s : State) (cause : Nat) {x : Fld} (i : Nat) (h : x.outside [F.SPD_CTRL_CAUSE, F.SPD_CTRL_BUSY]) : (s.wipe cause).f x i = s.f x i := by
  unfold State.wipe
  rw [State.f_withSec]
  split
  · exact State.f_orF _ _ _ _ _ _ (h _ (by simp))
  · rw [State.f_setF_code _ _ _ _ _ _ (h _ (by simp)), State.f_setF_code _ _ _ _ _ _ (h _ (by simp))]

theorem wipe_busy (s : State) (cause : Nat) : (s.wipe cause).f F.SPD_CTRL_BUSY 0 = 1 := by
  unfold State.wipe
  rw [State.f_withSec]
  split
  next h => exact (State.f_orF _ _ _ _ _ _ (by decide)).trans (of_decide_eq_true h)
  · rw [State.f_setF_same]
    rfl

theorem wipe_regsOnly (s : State) (cause : Nat) : RegsOnly (s.withSec (fun w => { w with spd := [] })) (s.wipe cause) := by
  unfold State.wipe
  split <;> rfl

/-- A trip up to its alarm, field by field outside what it writes. -/
theorem tripped_f (s : State) (i : Nat) {x : Fld} (j : Nat) (h : x.outside ([F.SPD_CTRL_CAUSE, F.SPD_CTRL_BUSY] ++ resultFields ++ sessionFields)) : (s.tripped i).f x j = (s.tripMarks i).f x j := by
  have hwipe : x.outside [F.SPD_CTRL_CAUSE, F.SPD_CTRL_BUSY] := fun y hy => h y (List.mem_append_left _ (List.mem_append_left _ hy))
  rw [State.tripped, wipe_f _ _ _ hwipe, spoilKeyLoads_f _ _ fun y hy => h y (List.mem_append_left _ (List.mem_append_right _ hy)), State.dropSecrets, State.f_withFw,
    closeSessions_f _ _ fun y hy => h y (List.mem_append_right _ hy), State.f_withSec]

theorem tripped_sessions (s : State) (i : Nat) : (s.tripped i).f F.GLB_EXPERT_UNLOCKED_F0 0 ≠ 1 ∧ (s.tripped i).f F.GLB_EXPERT_UNLOCKED_F1 0 ≠ 1 ∧ (s.tripped i).f F.GLB_EXPERT_UNLOCKED_R 0 ≠ 1 := by
  have hreach : ∀ x : Fld, x.outside ([F.SPD_CTRL_CAUSE, F.SPD_CTRL_BUSY] ++ resultFields) → (s.tripped i).f x 0 = ((s.tripMarks i).withSec (fun w => { w with keys := [] })).closeSessions.f x 0 := fun x hx => by
    have hwipe : x.outside [F.SPD_CTRL_CAUSE, F.SPD_CTRL_BUSY] := fun y hy => hx y (List.mem_append_left _ hy)
    rw [State.tripped, wipe_f _ _ _ hwipe, spoilKeyLoads_f _ _ fun y hy => hx y (List.mem_append_right _ hy), State.dropSecrets, State.f_withFw]
  rw [hreach _ (by unfold Fld.outside; decide), hreach _ (by unfold Fld.outside; decide), hreach _ (by unfold Fld.outside; decide)]
  exact closeSessions_ended _

/-- The content keys, sessions and challenges dropped. -/
theorem dropSecrets_parts (s : State) : s.dropSecrets.sec = { s.sec with keys := [] } ∧ s.dropSecrets.fw = { s.fw with challenge := [] } ∧ s.dropSecrets.dram = s.dram ∧ s.dropSecrets.pwr = s.pwr := by
  have hclosed : RegsOnly (s.withSec (fun w => { w with keys := [] })) ((s.withSec (fun w => { w with keys := [] })).closeSessions) := (RegsOnly.refl _).closeSessions
  refine ⟨?_, ?_, ?_, ?_⟩
  · rw [State.dropSecrets, State.withFw_sec, hclosed.sec, State.withSec_sec]
  · rw [State.dropSecrets, State.withFw_fw, hclosed.fw, State.withSec_fw]
  · rw [State.dropSecrets, State.withFw_dram, hclosed.dram, State.withSec_dram]
  · rw [State.dropSecrets, State.withFw_pwr, hclosed.pwr, State.withSec_pwr]

theorem spoilKeyLoads_regsOnly (s : State) : RegsOnly (s.withSec (fun w => { w with keyAt := [], tripAt := some s.time.fclk })) s.spoilKeyLoads := by
  rw [spoilKeyLoads_eq]
  exact (RegsOnly.refl _).chainAll _ _ (spoilOne_regsOnly _)

/-- What a trip leaves of the security state, the challenge, DRAM and power. -/
theorem tripped_parts (s : State) (i : Nat) : (s.tripped i).sec.keys = [] ∧ (s.tripped i).sec.spd = [] ∧ (s.tripped i).fw.challenge = [] ∧ (s.tripped i).dram = s.dram ∧ (s.tripped i).pwr = s.pwr := by
  have hlockout : ∀ (c : Prop) [Decidable c] (t : State), RegsOnly t (if c then t.setF F.SEC_STATUS_LOCKOUT 0 1 else t) := fun c _ t => by split <;> rfl
  have hmarks : (s.tripMarks i).dram = s.dram ∧ (s.tripMarks i).pwr = s.pwr := by
    constructor
    · rw [State.tripMarks, State.withAon_dram, (hlockout _ _).dram, State.bump, State.orF]
      simp only [State.setF_dram]
    · rw [State.tripMarks, State.withAon_pwr, (hlockout _ _).pwr, State.bump, State.orF]
      simp only [State.setF_pwr]
  obtain ⟨hsec, hfw, hdram, hpwr⟩ := dropSecrets_parts (s.tripMarks i)
  have hwipe := wipe_regsOnly (s.tripMarks i).dropSecrets.spoilKeyLoads 0
  have hspoil := spoilKeyLoads_regsOnly (s.tripMarks i).dropSecrets
  refine ⟨?_, ?_, ?_, ?_, ?_⟩
  · rw [State.tripped, hwipe.sec, State.withSec_sec, hspoil.sec, State.withSec_sec, hsec]
  · rw [State.tripped, hwipe.sec, State.withSec_sec]
  · rw [State.tripped, hwipe.fw, State.withSec_fw, hspoil.fw, State.withSec_fw, hfw]
  · rw [State.tripped, hwipe.dram, State.withSec_dram, hspoil.dram, State.withSec_dram, hdram, hmarks.1]
  · rw [State.tripped, hwipe.pwr, State.withSec_pwr, hspoil.pwr, State.withSec_pwr, hpwr, hmarks.2]

-- ## The scratchpad (R407)

theorem exec_spdWipe {s : State} {o : Origin} (w : Word) (h : s.writeOk o .SPD_CTRL 0 = true) (hw : w.toNat.testBit 0 = true) :
    exec (.spdWipe o w) s = .next ((s.clrF F.SPD_CTRL_CAUSE 0 (F.SPD_CTRL_CAUSE.of w.toNat)).wipe 3) := by
  calc exec (.spdWipe o w) s = .next (s.regWriteBy o .SPD_CTRL 0 w) := rfl
    _ = .next (if w.toNat.testBit 0 then (s.clrF F.SPD_CTRL_CAUSE 0 (F.SPD_CTRL_CAUSE.of w.toNat)).wipe 3 else s.clrF F.SPD_CTRL_CAUSE 0 (F.SPD_CTRL_CAUSE.of w.toNat)) := by
      rw [regWriteBy_eq w h regAt_SPD_CTRL (by decide)]
      rfl
    _ = _ := by rw [if_pos hw]

theorem wipe_idle {s : State} (cause : Nat) (h : s.f F.SPD_CTRL_BUSY 0 = 0) :
    s.wipe cause = ((s.setF F.SPD_CTRL_CAUSE 0 (2 ^ cause)).setF F.SPD_CTRL_BUSY 0 1).withSec (fun w => { w with spd := [] }) := by
  rw [State.wipe, if_neg (by simp [State.fb, h])]

theorem wipe_running {s : State} (cause : Nat) (h : s.f F.SPD_CTRL_BUSY 0 = 1) : s.wipe cause = (s.orF F.SPD_CTRL_CAUSE 0 cause).withSec (fun w => { w with spd := [] }) := by
  rw [State.wipe, if_pos (by simp [State.fb, h])]

-- ## World locks (R401, R404)

/-- What a table holds at a place it lists does not depend on the default. -/
theorem Tab.get_default {α : Type} {c d : α} {t : Tab α} {k : Nat} (h : Tab.get d t k ≠ d) : Tab.get c t k = Tab.get d t k := by
  induction t with
  | nil => exact absurd rfl h
  | cons e t ih =>
    unfold Tab.get at h ⊢
    split at h
    next he => rw [if_pos he, if_pos he]
    next he =>
      rw [if_neg he, if_neg he]
      exact ih h

/-- A field that is not at its reset value is the same under every name of its code. -/
theorem f_of_code {s : State} {x y : Fld} {i : Nat} (hc : x.code = y.code) (h : s.f y i ≠ y.reset i) : s.f x i = s.f y i := by
  unfold State.f at h ⊢
  rw [hc]
  exact Tab.get_default h

theorem exec_blockWorldLock {s : State} {o : Origin} (w : Word) (h : s.writeOk o .SEC_BLOCK_WORLD 0 = true) : exec (.blockWorldLock o w) s = .next (s.writePlain .SEC_BLOCK_WORLD 0 w.toNat) := by
  calc exec (.blockWorldLock o w) s = .next (s.regWriteBy o .SEC_BLOCK_WORLD 0 w) := rfl
    _ = .next (s.writeReg o .SEC_BLOCK_WORLD 0 w.toNat) := by rw [regWriteBy_eq w h regAt_SEC_BLOCK_WORLD (by decide)]
    _ = .next (s.writePlain .SEC_BLOCK_WORLD 0 w.toNat) := rfl

theorem exec_regionLock {s : State} {o : Origin} {r : Nat} (w : Word) (hr : r < 64) (h : s.writeOk o .SEC_REGION_ATTR r = true) :
    exec (.regionLock o r w) s = .next (s.regionWrite .SEC_REGION_ATTR r w.toNat) := by
  calc exec (.regionLock o r w) s = onInstance (decide (r < 64)) (s.regWriteBy o .SEC_REGION_ATTR r w) := rfl
    _ = .next (s.writeReg o .SEC_REGION_ATTR r w.toNat) := by rw [onInstance_of (decide_eq_true hr), regWriteBy_eq w h (regAt_SEC_REGION_ATTR hr) (by decide)]
    _ = .next (s.regionWrite .SEC_REGION_ATTR r w.toNat) := rfl

theorem blockWorld_open {s : State} (w : Nat) (h : s.f F.SEC_BLOCK_WORLD_LOCK 0 = 0) : s.writePlain .SEC_BLOCK_WORLD 0 w =
    ((s.setF F.SEC_BLOCK_WORLD_LOCK 0 (0 ||| F.SEC_BLOCK_WORLD_LOCK.of w)).setF F.SEC_BLOCK_WORLD_WORLD 0 (F.SEC_BLOCK_WORLD_WORLD.of w)).setF F.SEC_BLOCK_WORLD_WORLD1 0 (F.SEC_BLOCK_WORLD_WORLD1.of w) := by
  have hl : s.locked .SEC_BLOCK_WORLD 0 = false := by simp [State.locked, State.fb, h]
  have hfields : chainAll RegId.SEC_BLOCK_WORLD.info.fields (fun x t => t.writeFld x (s.inst .SEC_BLOCK_WORLD x 0) w false) s =
      ((s.setF F.SEC_BLOCK_WORLD_LOCK 0 (s.f F.SEC_BLOCK_WORLD_LOCK 0 ||| F.SEC_BLOCK_WORLD_LOCK.of w)).setF F.SEC_BLOCK_WORLD_WORLD 0 (F.SEC_BLOCK_WORLD_WORLD.of w)).setF
        F.SEC_BLOCK_WORLD_WORLD1 0 (F.SEC_BLOCK_WORLD_WORLD1.of w) := rfl
  rw [State.writePlain, hl, hfields, h]

theorem blockWorld_locked {s : State} (w : Nat) (h : s.f F.SEC_BLOCK_WORLD_LOCK 0 = 1) : s.writePlain .SEC_BLOCK_WORLD 0 w = s.setF F.SEC_BLOCK_WORLD_LOCK 0 (1 ||| F.SEC_BLOCK_WORLD_LOCK.of w) := by
  have hl : s.locked .SEC_BLOCK_WORLD 0 = true := by simp [State.locked, State.fb, h]
  have hfields : chainAll RegId.SEC_BLOCK_WORLD.info.fields (fun x t => t.writeFld x (s.inst .SEC_BLOCK_WORLD x 0) w true) s =
      s.setF F.SEC_BLOCK_WORLD_LOCK 0 (s.f F.SEC_BLOCK_WORLD_LOCK 0 ||| F.SEC_BLOCK_WORLD_LOCK.of w) := rfl
  rw [State.writePlain, hl, hfields, h]

theorem regionWrite_open {s : State} {r : Nat} (w : Nat) (h : s.f F.SEC_REGION_ATTR_LOCK r = 0) : s.regionWrite .SEC_REGION_ATTR r w =
    ((((s.setF F.SEC_REGION_ATTR_EN r (F.SEC_REGION_ATTR_EN.of w)).setF F.SEC_REGION_ATTR_WORLD r (F.SEC_REGION_ATTR_WORLD.of w)).setF F.SEC_REGION_ATTR_LOCK r (0 ||| F.SEC_REGION_ATTR_LOCK.of w)).setF
      F.SEC_REGION_ATTR_WR r (F.SEC_REGION_ATTR_WR.of w)).setF F.SEC_REGION_ATTR_RD r (F.SEC_REGION_ATTR_RD.of w) := by
  have hlock : ((s.setF F.SEC_REGION_ATTR_EN r (F.SEC_REGION_ATTR_EN.of w)).setF F.SEC_REGION_ATTR_WORLD r (F.SEC_REGION_ATTR_WORLD.of w)).f F.SEC_REGION_ATTR_LOCK r = 0 := by
    rw [State.f_setF_code _ _ _ _ _ _ (by decide), State.f_setF_code _ _ _ _ _ _ (by decide), h]
  have hfields : s.writePlain .SEC_REGION_ATTR r w =
      ((((s.setF F.SEC_REGION_ATTR_EN r (F.SEC_REGION_ATTR_EN.of w)).setF F.SEC_REGION_ATTR_WORLD r (F.SEC_REGION_ATTR_WORLD.of w)).setF F.SEC_REGION_ATTR_LOCK r
        (((s.setF F.SEC_REGION_ATTR_EN r (F.SEC_REGION_ATTR_EN.of w)).setF F.SEC_REGION_ATTR_WORLD r (F.SEC_REGION_ATTR_WORLD.of w)).f F.SEC_REGION_ATTR_LOCK r ||| F.SEC_REGION_ATTR_LOCK.of w)).setF
        F.SEC_REGION_ATTR_WR r (F.SEC_REGION_ATTR_WR.of w)).setF F.SEC_REGION_ATTR_RD r (F.SEC_REGION_ATTR_RD.of w) := rfl
  rw [State.regionWrite, if_neg (by simp [State.fb, h]), hfields, hlock]

/-- The latch of a source stands in the always-on domain alone. -/
theorem setLatch_other (s : State) (n : Nat) : s.setLatch n = s.withAon (fun w => { w with wakeLatch := (s.setLatch n).aon.wakeLatch }) := by
  unfold State.setLatch
  split <;> rfl

theorem region_sets {s : State} (r w : Nat) (h : s.f F.SEC_REGION_ATTR_LOCK r = 0) :
    Sets s [(F.SEC_REGION_ATTR_EN, r, w / 2 ^ 31 % 2), (F.SEC_REGION_ATTR_WORLD, r, w / 2 ^ 30 % 2), (F.SEC_REGION_ATTR_LOCK, r, w / 2 ^ 29 % 2),
      (F.SEC_REGION_ATTR_WR, r, w / 2 ^ 12 % 2 ^ 12), (F.SEC_REGION_ATTR_RD, r, w % 2 ^ 12)] (s.regionWrite .SEC_REGION_ATTR r w) := by
  have hof : F.SEC_REGION_ATTR_RD.of w = w % 2 ^ 12 := by
    simp only [Fld.of, F.SEC_REGION_ATTR_RD, pow_zero, Nat.div_one]
  rw [regionWrite_open w h, Nat.zero_or, hof]
  have hen := (Sets.refl s).putNew F.SEC_REGION_ATTR_EN r (w / 2 ^ 31 % 2) rfl (by simp only [F.SEC_REGION_ATTR_EN]; omega)
  have hworld := hen.putNew F.SEC_REGION_ATTR_WORLD r (w / 2 ^ 30 % 2) rfl (by simp only [F.SEC_REGION_ATTR_WORLD]; omega)
  have hlock := hworld.putNew F.SEC_REGION_ATTR_LOCK r (w / 2 ^ 29 % 2) rfl (by simp only [F.SEC_REGION_ATTR_LOCK]; omega)
  have hwr := hlock.putNew F.SEC_REGION_ATTR_WR r (w / 2 ^ 12 % 2 ^ 12) rfl (by simp only [F.SEC_REGION_ATTR_WR]; omega)
  exact hwr.putNew F.SEC_REGION_ATTR_RD r (w % 2 ^ 12) rfl (by simp only [F.SEC_REGION_ATTR_RD]; omega)

theorem blockWorld_sets {s : State} {w : Nat} (hw : w < 2 ^ 32) (h : s.f F.SEC_BLOCK_WORLD_LOCK 0 = 0) :
    Sets s [(F.SEC_BLOCK_WORLD_LOCK, 0, w / 2 ^ 31), (F.SEC_BLOCK_WORLD_WORLD, 0, w / 2 ^ 4 % 2 ^ 22), (F.SEC_BLOCK_WORLD_WORLD1, 0, w / 2 % 2)] (s.writePlain .SEC_BLOCK_WORLD 0 w) := by
  rw [blockWorld_open w h, Nat.zero_or]
  have hof : F.SEC_BLOCK_WORLD_LOCK.of w = w / 2 ^ 31 := Nat.mod_eq_of_lt (show w / 2 ^ 31 < 2 ^ 1 by omega)
  rw [hof]
  have hlock := (Sets.refl s).putNew F.SEC_BLOCK_WORLD_LOCK 0 (w / 2 ^ 31) rfl (by simp only [F.SEC_BLOCK_WORLD_LOCK]; omega)
  have hworld := hlock.putNew F.SEC_BLOCK_WORLD_WORLD 0 (w / 2 ^ 4 % 2 ^ 22) rfl (by simp only [F.SEC_BLOCK_WORLD_WORLD]; omega)
  exact hworld.putNew F.SEC_BLOCK_WORLD_WORLD1 0 (w / 2 % 2) rfl (by simp only [F.SEC_BLOCK_WORLD_WORLD1]; omega)

/-- A trip with its alarm: what the registers show, and what is gone. -/
theorem tamper_parts {s : State} {i : Nat} (h : s.tamperEnabled i = true) :
    (∀ x : Fld, x.outside raiseFields → (s.tamper i).f x 0 = (s.tripped i).f x 0) ∧ (s.tamper i).sec = (s.tripped i).sec ∧ (s.tamper i).fw.challenge = (s.tripped i).fw.challenge ∧
      (s.tamper i).dram = (s.tripped i).dram ∧ (s.pwr.standby = false → (s.tamper i).f F.FLT_SRC_STATUS_ACTIVE 31 = 1) := by
  obtain ⟨-, -, -, -, hpwr⟩ := tripped_parts s i
  rw [tamper_eq h, hpwr]
  by_cases hs : s.pwr.standby = true
  · rw [if_pos hs, setLatch_other]
    exact ⟨fun x _ => State.f_withAon _ _ _ _, State.withAon_sec _ _, by rw [State.withAon_fw], State.withAon_dram _ _, fun hn => absurd hs (by simp [hn])⟩
  · rw [if_neg hs]
    have hraise := sansRaise_raiseFault (s.tripped i) 31 i []
    exact ⟨fun x hx => State.raiseFault_f _ _ _ _ _ _ hx, sec_of_sansRaise hraise, challenge_of_sansRaise hraise, dram_of_sansRaise hraise, fun _ => State.raiseFault_active _ _ _ _⟩

/-- Settles O35: a trip is its marks, the secrets dropped, the wipe and the alarm; a wipe, its end and the two locks are writes of their registers. -/
theorem tamperAndWorlds : Obligations.TamperAndWorlds := by
  unfold Obligations.TamperAndWorlds
  refine ⟨fun s i hi h => ?_, fun s i hi h => ?_, fun s o w h hw hb => ?_, fun s o w h hw hb => ?_, fun s hb => ?_, fun s hb => ?_, fun s o w h hl => ?_, fun s o w h hl => ?_,
    fun s o r w hr h hl => ?_, fun s o r w hr h hl => ?_⟩
  · obtain ⟨hframe, hsec, hch, hdram, hact⟩ := tamper_parts h
    obtain ⟨hkeys, hspd, hnone, hsame, -⟩ := tripped_parts s i
    obtain ⟨htrip, htamp, hcount⟩ := tripMarks_f s hi
    obtain ⟨hf0, hf1, hr⟩ := tripped_sessions s i
    have hbusy : (s.tripped i).f F.SPD_CTRL_BUSY 0 = 1 := wipe_busy _ 0
    refine ⟨s.tamper i, onInstance_of (decide_eq_true hi) _, ?_, ?_, ?_, ?_, ?_, ?_, ?_, ?_, ?_, ?_, hact, ?_⟩
    · rw [hframe _ (by unfold Fld.outside; decide), tripped_f _ _ _ (by unfold Fld.outside; decide)]
      exact htrip
    · rw [hframe _ (by unfold Fld.outside; decide), tripped_f _ _ _ (by unfold Fld.outside; decide)]
      exact htamp
    · rw [hframe _ (by unfold Fld.outside; decide), tripped_f _ _ _ (by unfold Fld.outside; decide)]
      exact hcount
    · rw [hsec, hkeys]
    · rw [hsec, hspd]
    · rw [hch, hnone]
    · rw [hframe _ (by unfold Fld.outside; decide)]
      exact hf0
    · rw [hframe _ (by unfold Fld.outside; decide)]
      exact hf1
    · rw [hframe _ (by unfold Fld.outside; decide)]
      exact hr
    · rw [hframe _ (by unfold Fld.outside; decide)]
      exact hbusy
    · rw [hdram, hsame]
  · calc exec (.tamperTrip i) s = onInstance (decide (i < 8)) (s.tamper i) := rfl
      _ = .next s := by rw [onInstance_of (decide_eq_true hi), State.tamper, if_pos (by simp [h])]
  · have hclr : (s.clrF F.SPD_CTRL_CAUSE 0 (F.SPD_CTRL_CAUSE.of w.toNat)).f F.SPD_CTRL_BUSY 0 = 0 := by
      rw [State.clrF, State.f_setF_code _ _ _ _ _ _ (by decide), hb]
    refine ⟨_, by rw [exec_spdWipe w h hw, wipe_idle 3 hclr], ?_⟩
    have hcause : Sets (s.withSec (fun x => { x with spd := [] })) [(F.SPD_CTRL_CAUSE, 0, _)] ((s.withSec (fun x => { x with spd := [] })).clrF F.SPD_CTRL_CAUSE 0 (F.SPD_CTRL_CAUSE.of w.toNat)) :=
      (Sets.refl _).snoc F.SPD_CTRL_CAUSE 0 _ (by simp)
    have hagain := hcause.absorb ((Sets.refl _).put F.SPD_CTRL_CAUSE 0 8 (by simp) (by decide)) (by simp)
    exact hagain.putNew F.SPD_CTRL_BUSY 0 1 rfl (by decide)
  · have hclr : (s.clrF F.SPD_CTRL_CAUSE 0 (F.SPD_CTRL_CAUSE.of w.toNat)).f F.SPD_CTRL_BUSY 0 = 1 := by
      rw [State.clrF, State.f_setF_code _ _ _ _ _ _ (by decide), hb]
    refine ⟨_, by rw [exec_spdWipe w h hw, wipe_running 3 hclr], rfl, ?_, fun x i hx => ?_⟩
    · rw [State.f_withSec, State.orF, State.f_setF_same, Nat.testBit_mod_two_pow, Nat.testBit_or, Nat.testBit_two_pow_self, Bool.or_true]
      rfl
    · rw [State.f_withSec, State.f_orF _ _ _ _ _ _ (hx _ (by simp)), State.clrF, State.f_setF_code _ _ _ _ _ _ (hx _ (by simp))]
  · have hidle : ((s.withSec (fun w => { w with spd := [] })).setF F.SPD_CTRL_BUSY 0 0).fb F.SPD_CTRL_BUSY 0 = false := by
      rw [State.fb, State.f_setF_same]
      rfl
    have hrun : exec .spdWipeDone s = .next s.wipeDone := rfl
    refine ⟨_, by rw [hrun, State.wipeDone, if_pos (by simp [State.fb, hb]), State.spdServe, if_neg (by simp [hidle])], ?_⟩
    exact (Sets.refl (s.withSec (fun x => { x with spd := [] }.spdCycles (max x.spdPort0.length x.spdPort1.length)))).put F.SPD_CTRL_BUSY 0 0 (by simp) (by decide)
  · calc exec .spdWipeDone s = .next s.wipeDone := rfl
      _ = .next s := by rw [State.wipeDone, if_neg (by simp [State.fb, hb])]
  · exact ⟨_, exec_blockWorldLock w h, blockWorld_sets w.isLt hl⟩
  · refine ⟨_, by rw [exec_blockWorldLock w h, blockWorld_locked _ hl], fun x i => ?_⟩
    by_cases hx : x.code = F.SEC_BLOCK_WORLD_LOCK.code ∧ i = 0
    · obtain ⟨hcode, rfl⟩ := hx
      have hone : (1 ||| F.SEC_BLOCK_WORLD_LOCK.of w.toNat) % 2 ^ 1 = 1 := Nat.or_mod_two_eq_one.mpr (Or.inl rfl)
      have hnew : (s.setF F.SEC_BLOCK_WORLD_LOCK 0 (1 ||| F.SEC_BLOCK_WORLD_LOCK.of w.toNat)).f F.SEC_BLOCK_WORLD_LOCK 0 = 1 := (State.f_setF_same _ _ _ _).trans hone
      rw [f_of_code hcode (by rw [hnew]; decide), hnew, f_of_code hcode (by rw [hl]; decide), hl]
    · exact f_setF_ne _ hx
  · exact ⟨_, exec_regionLock w hr h, region_sets r _ hl⟩
  · rw [exec_regionLock w hr h, State.regionWrite, if_pos (by simp [State.fb, hl])]

end Sys2Proof.Machine

/-! Life cycle and OTP commands (R408 to R412). -/

namespace Sys2Proof.Machine

-- ## OTP bits

/-- A byte of OTP as it reads: a bad word reads all ones. -/
def State.otpByte (s : State) (a : Nat) : Byte := if a / 8 ∈ s.otpBad then 0xFF else Tab.get 0 s.otp a

theorem testBit_natOfLe (bs : List Byte) (j : Nat) : (natOfLe bs).testBit j = (bs.getD (j / 8) 0).getLsbD (j % 8) := by
  induction bs generalizing j with
  | nil => simp [natOfLe]
  | cons b r ih =>
    have hsplit : natOfLe (b :: r) = 2 ^ 8 * natOfLe r + b.toNat := by
      simp only [natOfLe, List.foldr_cons]
      omega
    rw [hsplit, Nat.testBit_two_pow_mul_add _ b.isLt]
    by_cases hj : j < 8
    · rw [if_pos hj, Nat.div_eq_of_lt hj, Nat.mod_eq_of_lt hj]
      rfl
    · rw [if_neg hj, ih]
      have hdiv : j / 8 = (j - 8) / 8 + 1 := by omega
      have hmod : j % 8 = (j - 8) % 8 := by omega
      rw [hdiv, hmod, List.getD_cons_succ]

/-- A lock bit is a bit of its OTP byte. -/
theorem otpLock_eq (s : State) {k : Nat} (hk : k < 32) : s.otpLock k = (s.otpByte (0x220 + k / 8)).getLsbD (k % 8) := by
  have hlt : k / 8 < 4 := by omega
  rw [State.otpLock, testBit_natOfLe]
  congr 1
  simp [State.otpBytes, State.otpByte, List.getD_eq_getElem?_getD, hlt]

/-- Blown bits stay blown, byte by byte as OTP reads. -/
theorem otpByte_blow (s : State) (a : Nat) (bs : List Byte) (p j : Nat) (h : (s.otpByte p).getLsbD j = true) : ((s.blow a bs).otpByte p).getLsbD j = true := by
  unfold State.otpByte at h ⊢
  have hbad : (s.blow a bs).otpBad = s.otpBad := rfl
  rw [hbad]
  split at h
  next hp => rw [if_pos hp]; exact h
  next hp =>
    rw [if_neg hp]
    exact blownStays_or s.otp a bs _ rfl p j h

theorem otpLock_blow (s : State) (a : Nat) (bs : List Byte) {k : Nat} (hk : k < 32) (h : s.otpLock k = true) : (s.blow a bs).otpLock k = true := by
  rw [otpLock_eq _ hk] at h ⊢
  exact otpByte_blow s a bs _ _ h

theorem lockBit_set {k : Nat} (hk : k < 32) : ((leBytes 4 (2 ^ k)).getD (k / 8) 0).getLsbD (k % 8) = true := by
  have key : (List.range 32).all (fun k => ((leBytes 4 (2 ^ k)).getD (k / 8) 0).getLsbD (k % 8)) = true := by decide +kernel
  exact List.all_eq_true.mp key k (List.mem_range.mpr hk)

/-- A lock that is blown reads locked. -/
theorem otpLock_blowLock (s : State) {k : Nat} (hk : k < 32) : (s.blowLock k).otpLock k = true := by
  rw [otpLock_eq _ hk, State.otpByte]
  have hmod : k % 8 < 8 := by omega
  split
  · have hones : (List.range 8).all (fun j => (0xFF : Byte).getLsbD j) = true := by decide
    exact List.all_eq_true.mp hones _ (List.mem_range.mpr hmod)
  · have hlen : k / 8 < (leBytes 4 (2 ^ k)).length := by rw [leBytes_length]; omega
    have hbit := lockBit_set hk
    rw [List.getD_eq_getElem _ _ hlen] at hbit
    rw [State.blowLock, State.blow, Tab.get_setList_inside _ _ _ _ _ (by simpa [Tab.getList] using hlen)]
    simp only [Tab.getList, List.getElem_map, List.getElem_zip, List.getElem_range, BitVec.getLsbD_or, hbit, Bool.or_true]

-- ## Chip resets

theorem loadOtp_regsOnly (s : State) : RegsOnly s s.loadOtp := by
  unfold State.loadOtp
  exact ((((((((RegsOnly.refl s).setF _ _ _).setF _ _ _).setF _ _ _).setF _ _ _).setF _ _ _).setF _ _ _).setF _ _ _).setF _ _ _

theorem loadOtp_lc (s : State) : s.loadOtp.lc = s.lcOtp % 8 := by
  unfold State.lc State.loadOtp
  simp only
  rw [State.f_setF_code _ _ _ _ _ _ (by decide), State.f_setF_code _ _ _ _ _ _ (by decide), State.f_setF_code _ _ _ _ _ _ (by decide), State.f_setF_code _ _ _ _ _ _ (by decide),
    State.f_setF_code _ _ _ _ _ _ (by decide), State.f_setF_code _ _ _ _ _ _ (by decide), State.f_setF_code _ _ _ _ _ _ (by decide), State.f_setF_same]
  rfl

/-- The life cycle in OTP depends on OTP alone. -/
theorem lcOtp_congr {s t : State} (ho : t.otp = s.otp) (hb : t.otpBad = s.otpBad) : t.lcOtp = s.lcOtp := by
  simp only [State.lcOtp, State.lcMajority, State.otpBytes, ho, hb]

/-- The core domain before it is loaded from OTP. -/
def State.unloaded (s : State) : State :=
  ({ State.reset with
    regs := keepRegs s.regs, dram := s.dram, mem := s.mem.kept, flash := s.flash, otp := s.otp, otpBad := s.otpBad, conf := s.conf, aon := s.aon, free := s.free, pending := s.pending, readData := s.readData } : State).withPwr
    (fun w => { w with wakeRuns := s.pwr.wakeRuns })

theorem coreReset_regsOnly (s : State) : RegsOnly s.unloaded s.coreReset := loadOtp_regsOnly s.unloaded

theorem coreReset_parts (s : State) : s.coreReset.otp = s.otp ∧ s.coreReset.dram = s.dram ∧ s.coreReset.sec.keys = [] ∧ s.coreReset.fw.clearing = true ∧ s.coreReset.lc = s.lcOtp % 8 := by
  have hregs := coreReset_regsOnly s
  refine ⟨?_, ?_, ?_, ?_, (loadOtp_lc s.unloaded).trans (congrArg (· % 8) (lcOtp_congr (t := s.unloaded) (s := s) rfl rfl))⟩
  · have h' := congrArg State.otp (show s.coreReset = _ from hregs)
    exact h'
  · rw [hregs.dram]
    rfl
  · rw [hregs.sec]
    rfl
  · rw [hregs.fw]
    rfl

-- ## Transitions (R412)

theorem programLc_otp {s t : State} (n : Nat) (h : t.otp = s.otp) : (t.programLc n).otp = (s.programLc n).otp := by
  simp only [State.programLc, State.blow, h]

theorem programLc_same (s : State) (n : Nat) : (s.programLc n).dram = s.dram ∧ (s.programLc n).otpBad = s.otpBad ∧ (s.programLc n).regs = s.regs := by
  refine ⟨?_, ?_, ?_⟩ <;> simp only [State.programLc, State.blow]

theorem RegsOnly.otp {s t : State} (h : RegsOnly s t) : t.otp = s.otp := by
  rw [show t = _ from h]

theorem RegsOnly.otpBad {s t : State} (h : RegsOnly s t) : t.otpBad = s.otpBad := by
  rw [show t = _ from h]

theorem RegsOnly.free {s t : State} (h : RegsOnly s t) : t.free = s.free := by
  rw [show t = _ from h]

/-- A transition outside FATAL ends in a chip reset, which leaves the new life cycle and no key. -/
theorem transition_parts {s : State} (m n : Nat) (hf : s.fatal = false) :
    (s.transition m n).otp = (s.programLc n).otp ∧ (s.transition m n).dram = s.dram ∧ (s.transition m n).sec.keys = [] ∧ (s.transition m n).fw.clearing = true ∧
      (s.transition m n).lc = (s.programLc n).lcOtp % 8 := by
  obtain ⟨u, hu⟩ : ∃ u, u = ((s.wipe 1).withSec (fun w => { w with keys := [] })).programLc n := ⟨_, rfl⟩
  have hwipe := wipe_regsOnly s 1
  obtain ⟨hdram, hbad, hregs⟩ := programLc_same ((s.wipe 1).withSec (fun w => { w with keys := [] })) n
  have hres : RegsOnly u (u.putResult m stOk []) := (RegsOnly.refl u).putResult m (by decide) (by simp)
  have hfatal : (u.putResult m stOk []).fatal = false := by
    rw [State.fatal, State.fb, putResult_frame u m (by decide) (by simp) 0 (by unfold Fld.outside; decide), hu, State.f, hregs, ← State.f, State.f_withSec, wipe_f _ _ _ (by unfold Fld.outside; decide)]
    exact hf
  have htrans : s.transition m n = (u.putResult m stOk []).coreReset := by
    rw [State.transition, ← hu, State.chipReset, if_neg (by simp [hfatal])]
  have hotp : (u.putResult m stOk []).otp = (s.programLc n).otp := by
    rw [hres.otp, hu]
    exact programLc_otp n (by rw [State.withSec_otp, hwipe.otp, State.withSec_otp])
  have hb : (u.putResult m stOk []).otpBad = (s.programLc n).otpBad := by
    rw [hres.otpBad, hu, hbad, (programLc_same s n).2.1]
    exact hwipe.otpBad
  obtain ⟨h1, h2, h3, h4, h5⟩ := coreReset_parts (u.putResult m stOk [])
  rw [htrans]
  refine ⟨h1.trans hotp, h2.trans ?_, h3, h4, h5.trans (by rw [lcOtp_congr hotp hb])⟩
  rw [hres.dram, hu, hdram, State.withSec_dram, hwipe.dram, State.withSec_dram]

-- ## The commands

theorem fatal_of_accepts {s : State} {m op : Nat} (h : s.accepts m op = true) (ho : servedInFatal op = false) : s.fatal = false := by
  simp only [State.accepts, Bool.and_eq_true, Bool.or_eq_true, ho, Bool.false_eq_true, or_false, Bool.not_eq_true'] at h
  obtain ⟨⟨⟨-, hf⟩, -⟩, -⟩ := h
  exact hf

/-- A LIFECYCLE_ADVANCE with its OP that passes the common checks acts. -/
theorem serveLc_accepts {s : State} {m op : Nat} {lenOk : Nat → Bool} {act : State → State} (ha : s.accepts m 0x0092 = true) (ho : byteAt (s.mbxArgs m) 0 = op) (hl : lenOk (s.mbxLen m) = true) :
    s.serveLc m op lenOk act = act s := by
  rw [State.serveLc, if_neg (by simp [ho]), State.serve_accepts ha hl]

theorem exec_servedLc {c : Instr} {s : State} {m op : Nat} {lenOk : Nat → Bool} {act : State → State} (hx : exec c s = onMailbox m (s.serveLc m op lenOk act)) (ha : s.accepts m 0x0092 = true)
    (ho : byteAt (s.mbxArgs m) 0 = op) (hl : lenOk (s.mbxLen m) = true) : exec c s = .next (act s) := by
  rw [hx, serveLc_accepts ha ho hl, onMailbox_accepts ha]

theorem otpLock_congr {s t : State} (ho : t.otp = s.otp) (hb : t.otpBad = s.otpBad) (k : Nat) : t.otpLock k = s.otpLock k := by
  simp only [State.otpLock, State.otpBytes, ho, hb]

/-- The identity's two areas locked, and the answer. -/
theorem identified_parts (u : State) (m : Nat) :
    ((((u.blowLock 10).blowLock 9).setF F.SEC_STATUS_ID_OK 0 1).putResult m stOk []).f F.SEC_STATUS_ID_OK 0 = 1 ∧ ((((u.blowLock 10).blowLock 9).setF F.SEC_STATUS_ID_OK 0 1).putResult m stOk []).otpLock 10 = true ∧
      ((((u.blowLock 10).blowLock 9).setF F.SEC_STATUS_ID_OK 0 1).putResult m stOk []).otpLock 9 = true ∧ ((((u.blowLock 10).blowLock 9).setF F.SEC_STATUS_ID_OK 0 1).putResult m stOk []).free = u.free := by
  have hregs : RegsOnly ((u.blowLock 10).blowLock 9) ((((u.blowLock 10).blowLock 9).setF F.SEC_STATUS_ID_OK 0 1).putResult m stOk []) :=
    ((RegsOnly.refl _).setF _ _ _).putResult m (by decide) (by simp)
  refine ⟨?_, ?_, ?_, ?_⟩
  · rw [putResult_frame _ m (by decide) (by simp) 0 (by unfold Fld.outside; decide), State.f_setF_same]
    rfl
  · rw [otpLock_congr hregs.otp hregs.otpBad]
    exact otpLock_blow _ _ _ (by decide) (otpLock_blowLock u (by decide))
  · rw [otpLock_congr hregs.otp hregs.otpBad]
    exact otpLock_blowLock _ (by decide)
  · rw [hregs.free]
    rfl

theorem exec_lcAdvance {s : State} {m : Nat} (ha : s.accepts m 0x0092 = true) (ho : byteAt (s.mbxArgs m) 0 = 0) (hl : s.mbxLen m = 1) :
    exec (.lcAdvance m) s = .next (match s.lc with
      | 0 => if s.otpLock 6 then s.transition m 1 else s.putResult m stNotPermitted []
      | 1 => if s.otpLock 10 && s.otpLock 9 && s.otpLock 8 && s.otpLock 11 && s.otpLock 4 then s.closeSessions.transition m 2 else s.putResult m stNotPermitted []
      | 3 => s.retire.transition m 4
      | _ => s.putResult m stNotPermitted []) := by
  calc exec (.lcAdvance m) s = onMailbox m (s.lcAdvance m) := rfl
    _ = .next (s.lcAdvance m) := onMailbox_accepts ha _
    _ = _ := by
      rw [State.lcAdvance, if_neg (by simp [ho]), serveLc_accepts ha ho (by simp [hl])] <;> rfl

theorem closeSessions_fatal (s : State) : s.closeSessions.fatal = s.fatal := by
  rw [State.fatal, State.fb, closeSessions_f _ _ (by unfold Fld.outside; decide)]
  rfl

theorem retire_parts (s : State) : s.retire.fatal = s.fatal ∧ s.retire.dram = s.zeroSecure.dram := ⟨rfl, rfl⟩

theorem exec_lcReturn {s : State} {m : Nat} (ha : s.accepts m 0x0092 = true) (ho : byteAt (s.mbxArgs m) 0 = 5) (hl : s.mbxLen m = 115) (hlc : s.lc = 2) (hc : s.challengeOf m ≠ []) :
    exec (.lcReturn m) s = .next (if Config.ed448Verify (s.otpKey 8) (s.returnMessage (s.challengeOf m)) ((s.mbxArgs m).drop 1) then (s.setChallenge m []).retire.transition m 3
      else (s.setChallenge m []).putResult m stSigFail []) := by
  have ha' : (s.setChallenge m []).accepts m 0x0092 = true := ha
  have ho' : byteAt ((s.setChallenge m []).mbxArgs m) 0 = 5 := ho
  have hl' : decide ((s.setChallenge m []).mbxLen m = 115) = true := decide_eq_true hl
  have hno : ¬((s.setChallenge m []).lc ≠ 2 ∨ s.challengeOf m = []) := not_or.mpr ⟨not_not.mpr hlc, hc⟩
  calc exec (.lcReturn m) s = onMailbox m (s.lcReturn m) := rfl
    _ = .next (s.lcReturn m) := onMailbox_accepts ha _
    _ = _ := by
      rw [State.lcReturn, if_pos ho, State.spendChallenge_of_due (State.mbxDue_of_accepts ha)]
      simp only
      rw [serveLc_accepts ha' ho' hl', if_neg hno]
      rfl

/-- Settles O36: PROGRAM, LOCK and REVOKE_KEY0 blow and answer; GENERATE_ID blows and locks its two areas; a transition is programmed and resets the part. -/
theorem lifeCycle : Obligations.LifeCycle := by
  unfold Obligations.LifeCycle
  refine ⟨fun s m a off ha h5 h68 ho harea hoff hlc ha13 hroom hopen hlock => ?_, fun s m a ha hl ho harea hlc ha11 => ?_, fun s m ha hl ho hlc hkey => ?_, fun s m ha hl ho hlc hlock => ?_,
    fun s m ha hl ho hfrom => ?_, fun s m ha hl ho hlc => ?_, fun s m ha hl ho hlc hc => ?_⟩
  · have hdata : ((s.mbxArgs m).drop 4).length = s.mbxLen m - 4 := by rw [List.length_drop, mbxArgs_length (by omega)]
    have hstates : ¬(s.lc ≠ 0 ∧ s.lc ≠ 1) := by omega
    have hrange : ¬(13 < a ∨ (otpArea a).2 < off + ((s.mbxArgs m).drop 4).length) := by rw [hdata]; omega
    have hfree : ¬((!areaOpen s.lc a || (decide (a < 12) && s.otpLock a)) = true) := by
      rw [hopen]
      simpa using hlock
    refine ⟨(s.blow ((otpArea a).1 + off) ((s.mbxArgs m).drop 4)).putResult m stOk [], ?_, sets_putResult (s.blow _ _) m (by decide) (by simp)⟩
    rw [exec_servedLc (c := .otpProgram m) rfl ha ho (by simp [h5, h68])]
    simp only [← harea, ← hoff]
    rw [if_neg hstates, if_neg hrange, if_neg hfree]
  · have hstates : ¬(s.lc ≠ 0 ∧ s.lc ≠ 1) := by omega
    obtain ⟨u, hu⟩ : ∃ u, u = s.blowLock a := ⟨_, rfl⟩
    have hkwk : (u.setF F.SEC_STATUS_ID_OK 0 (if u.idOk then 1 else 0)).kwkOk = u.kwkOk := rfl
    refine ⟨((u.setF F.SEC_STATUS_ID_OK 0 (if u.idOk then 1 else 0)).setF F.SEC_STATUS_KWK_OK 0 (if u.kwkOk then 1 else 0)).putResult m stOk [], ?_, ?_⟩
    · rw [exec_servedLc (c := .otpLock m) rfl ha ho (by simp [hl])]
      simp only [← harea]
      rw [if_neg hstates, if_neg (by omega), ← hu, hkwk]
    · have htag : s.mbxTag m = u.mbxTag m := by rw [hu]; rfl
      rw [← hu, htag]
      have hid := (Sets.refl u).putNew F.SEC_STATUS_ID_OK 0 (if u.idOk then 1 else 0) rfl (by split <;> decide)
      exact (hid.putNew F.SEC_STATUS_KWK_OK 0 (if u.kwkOk then 1 else 0) rfl (by split <;> decide)).putAnswer m 0 [] rfl (by decide) (by simp)
  · have hstates : ¬((s.lc ≠ 1 ∧ s.lc ≠ 2) ∨ s.fw.image.underKey1 = false) := by
      rw [hkey]
      simp only [Bool.true_eq_false, or_false]
      omega
    refine ⟨((s.blowLock 12).setF F.SEC_STATUS_REVOKE0 0 1).putResult m stOk [], ?_, ?_⟩
    · rw [exec_servedLc (c := .revokeKey0 m) rfl ha ho (by simp [hl]), if_neg hstates]
    · exact ((Sets.refl (s.blowLock 12)).put F.SEC_STATUS_REVOKE0 0 1 (by simp) (by decide)).putAnswer m 0 [] rfl (by decide) (by simp)
  · have hstates : ¬(s.lc ≠ 1 ∨ s.otpLock 10 = true) := by simp [hlc, hlock]
    have hexec := exec_servedLc (c := .generateId m) rfl ha ho (by simp [hl])
    rw [if_neg hstates] at hexec
    by_cases htrng : Config.trngHealthy s.free = true
    · rw [if_neg (by simp [htrng])] at hexec
      refine ⟨_, hexec, ?_⟩
      rw [if_pos htrng]
      exact identified_parts _ m
    · rw [if_pos (by simp [htrng])] at hexec
      refine ⟨_, hexec, ?_⟩
      rw [if_neg htrng]
      exact sets_putResult s.draw m (by decide) (by simp)
  · have hf := fatal_of_accepts ha rfl
    rw [exec_lcAdvance ha ho hl]
    rcases hfrom with ⟨hlc, hlock⟩ | ⟨hlc, hlock⟩
    · obtain ⟨h1, -, h3, h4, h5⟩ := transition_parts m 1 hf
      rw [hlc]
      exact ⟨_, by simp only [hlock, if_true], h1, h3, h4, h5⟩
    · have hlocks : (s.otpLock 10 && s.otpLock 9 && s.otpLock 8 && s.otpLock 11 && s.otpLock 4) = true := by simp [hlock]
      have hregs : RegsOnly s s.closeSessions := (RegsOnly.refl s).closeSessions
      obtain ⟨h1, -, h3, h4, h5⟩ := transition_parts m 2 ((closeSessions_fatal s).trans hf)
      rw [hlc]
      refine ⟨_, by simp only [hlocks, if_true], h1.trans (programLc_otp 2 hregs.otp), h3, h4, h5.trans ?_⟩
      rw [lcOtp_congr (programLc_otp 2 hregs.otp) (by rw [(programLc_same _ _).2.1, (programLc_same _ _).2.1, hregs.otpBad])]
  · have hf := fatal_of_accepts ha rfl
    obtain ⟨hfr, hdr⟩ := retire_parts s
    obtain ⟨h1, h2, h3, h4, -⟩ := transition_parts m 4 (hfr.trans hf)
    refine ⟨s.retire.transition m 4, by simp only [exec_lcAdvance ha ho hl, hlc], h1, h2.trans hdr, h3, h4⟩
  · refine ⟨_, exec_lcReturn ha ho hl hlc hc, ?_⟩
    split
    · have hf : (s.setChallenge m []).retire.fatal = false := fatal_of_accepts ha rfl
      obtain ⟨h1, -, h3, h4, -⟩ := transition_parts m 3 hf
      exact ⟨h1, h3, h4⟩
    · exact sets_putResult (s.setChallenge m []) m (by decide) (by simp)

end Sys2Proof.Machine

/-! ATTEST and KEY_LOAD (R414 to R419). -/

namespace Sys2Proof.Machine

theorem otpBytes_length (s : State) (a n : Nat) : (s.otpBytes a n).length = n := by
  simp [State.otpBytes]

theorem sliceOf_length_le (bs : List Byte) (o n : Nat) : (sliceOf bs o n).length ≤ n := List.length_take_le _ _

/-- The report that ATTEST answers from is kept first where it is new. -/
def State.keepReport (s : State) (m : Nat) (new : Bool) (r : List Byte) : State := if new then s.withFw (fun w => { w with report := Tab.set [] w.report m r }) else s

/-- What ATTEST answers after its header. -/
def State.attestData (s : State) (fl off : Nat) (r : List Byte) : List Byte :=
  leBytes 2 r.length ++ leBytes 2 off ++ [0, 0, 0, 0] ++ (if 2 ≤ fl then s.otpKey 9 ++ s.otpBytes 0 8 else sliceOf r off 240)

theorem attestData_length (s : State) (fl off : Nat) (r : List Byte) : (s.attestData fl off r).length ≤ 248 := by
  have htail : (if 2 ≤ fl then s.otpKey 9 ++ s.otpBytes 0 8 else sliceOf r off 240).length ≤ 240 := by
    split
    · simp [State.otpKey, otpBytes_length]
    · exact sliceOf_length_le _ _ _
  simp only [State.attestData, List.length_append, leBytes_length, List.length_cons, List.length_nil]
  omega

theorem exec_attest {s : State} {m fl off : Nat} {r : List Byte} (ha : s.accepts m 0x0090 = true) (hl : s.mbxLen m = 4 ∨ s.mbxLen m = 36) (hfl : fl = byteAt (s.mbxArgs m) 0) (h3 : fl ≤ 3)
    (hnew : fl % 2 = 1 → s.mbxLen m = 36) (hoff : off = leAt (s.mbxArgs m) 2 2) (hlc : s.lc ≠ 0) (hid : s.idOk = true) (hlock : s.f F.SEC_STATUS_LOCKOUT 0 = 0)
    (hr : r = if fl % 2 = 1 then s.buildReport ((s.mbxArgs m).drop 4) else Tab.get [] s.fw.report m) (hin : off < r.length ∨ (2 ≤ fl ∧ off = 0)) :
    exec (.attest m) s = .next ((if fl % 2 = 1 then s.withFw (fun w => { w with report := Tab.set [] w.report m r }) else s).putResult m stOk (s.attestData fl off r)) := by
  have hargs : (s.mbxArgs m).length = s.mbxLen m := mbxArgs_length (by omega)
  have hallowed : ¬(s.lc = 0 ∨ s.idOk = false ∨ s.fb F.SEC_STATUS_LOCKOUT 0 = true) := by simp [hlc, hid, State.fb, hlock]
  have hform : ¬(3 < fl ∨ (fl % 2 = 1 ∧ (s.mbxArgs m).length ≠ 36)) := by
    rw [hargs]
    rintro (h | ⟨h, hne⟩)
    · omega
    · exact hne (hnew h)
  have hplace : ¬(r.length ≤ off ∧ (fl < 2 ∨ off ≠ 0)) := by omega
  rw [exec_served (c := .attest m) rfl ha (by simpa using hl)]
  simp only [← hfl, ← hoff]
  rw [if_neg hallowed, if_neg hform]
  by_cases hodd : fl % 2 = 1
  · rw [if_pos hodd] at hr
    have hkept : Tab.get [] (s.withFw (fun w => { w with report := Tab.set [] w.report m r })).fw.report m = r := by
      simp only [State.withFw_fw, Tab.get_set_same]
    rw [if_pos hodd, if_pos hodd, ← hr, hkept, if_neg hplace]
    rfl
  · rw [if_neg hodd] at hr
    rw [if_neg hodd, if_neg hodd, ← hr, if_neg hplace]
    rfl

theorem decide_parity (b : Bool) (p : Prop) [Decidable p] [Decidable ((b = true) = p)] : decide ((b = true) = p) = decide (b = decide p) := by
  by_cases hp : p <;> cases b <;> simp [hp]

/-- A KEY_LOAD past the checks of its form and its wall. -/
theorem exec_keyLoad {s : State} {m wall par : Nat} (ha : s.accepts m 0x0091 = true) (hl : s.mbxLen m = 3 ∨ s.mbxLen m = 35 ∨ s.mbxLen m = 63) (hw : wall = byteAt (s.mbxArgs m) 0)
    (hp : par = byteAt (s.mbxArgs m) 1) (hp1 : par ≤ 1) (hfl : byteAt (s.mbxArgs m) 2 ≤ 3) (hlate : s.keyTooLate wall = false) :
    exec (.keyLoad m) s = .next
      (if 2 ≤ byteAt (s.mbxArgs m) 2 then (s.withSec (fun w => { w with keys := w.keys.filter (fun k => !(k.wall = wall && k.odd = decide (par = 1))) })).putResult m stOk []
       else if s.mbxLen m ≠ (if byteAt (s.mbxArgs m) 2 = 1 then 63 else 35) then s.putResult m stBadLength []
       else if !s.keyRoom wall then s.putResult m stNoResource []
       else if byteAt (s.mbxArgs m) 2 = 0 then s.putKey m wall (decide (par = 1)) ((s.mbxArgs m).drop 3)
       else if !s.kwkOk then s.putResult m stNotPermitted []
       else if Config.gcmTag (s.otpBytes 0x200 32) (sliceOf (s.mbxArgs m) 3 12) [BitVec.ofNat 8 wall, BitVec.ofNat 8 par] (sliceOf (s.mbxArgs m) 15 32) = sliceOf (s.mbxArgs m) 47 16 then
         s.putKey m wall (decide (par = 1)) (gcmXor (s.otpBytes 0x200 32) (sliceOf (s.mbxArgs m) 3 12) (sliceOf (s.mbxArgs m) 15 32))
       else s.putResult m stSigFail []) := by
  have hargs : (s.mbxArgs m).length = s.mbxLen m := mbxArgs_length (by omega)
  have hform : ¬(1 < par ∨ 3 < byteAt (s.mbxArgs m) 2 ∨ s.keyTooLate wall = true) := by
    rw [hlate]
    simp only [Bool.false_eq_true, or_false]
    omega
  rw [exec_served (c := .keyLoad m) rfl ha (by simpa [or_assoc] using hl)]
  simp only [← hw, ← hp, hargs, decide_parity]
  rw [if_neg hform]

theorem putKey_kept {s : State} (m wall : Nat) (odd : Bool) (key : List Byte) (h : s.sec.tripAt ≠ some s.time.fclk) : s.putKey m wall odd key = (s.withKey m wall odd key).putResult m stOk [] := by
  rw [State.putKey, if_neg h]
  rfl

theorem putKey_spoiled {s : State} (m wall : Nat) (odd : Bool) (key : List Byte) (h : s.sec.tripAt = some s.time.fclk) : s.putKey m wall odd key = s.putResult m stBusy [] := by
  rw [State.putKey, if_pos h]

/-- Settles O37: each clause is one branch of ATTEST or of KEY_LOAD. -/
theorem keysAndReports : Obligations.KeysAndReports := by
  unfold Obligations.KeysAndReports
  refine ⟨fun s m fl off r ha hl hfl h3 hnew hoff hlc hid hlock hr hin => ?_, fun s m wall par ha hl hw hp hp1 hfl hlate hroom htrip => ?_, fun s m wall par ha hl hw hp hp1 hfl hlate hroom htrip => ?_,
    fun s m wall par ha hl hw hp hp1 hfl hlate => ?_, fun s m wall par ha hl hw hp hp1 hfl hlate hroom hkwk htrip => ?_⟩
  · refine ⟨_, exec_attest ha hl hfl h3 hnew hoff hlc hid hlock hr hin, ?_⟩
    by_cases hodd : fl % 2 = 1
    · rw [if_pos hodd]
      exact sets_putResult (s.withFw _) m (by decide) (attestData_length s fl off r)
    · rw [if_neg hodd]
      exact sets_putResult s m (by decide) (attestData_length s fl off r)
  · refine ⟨(s.withKey m wall (decide (par = 1)) ((s.mbxArgs m).drop 3)).putResult m stOk [], ?_, sets_putResult (s.withKey _ _ _ _) m (by decide) (by simp)⟩
    rw [exec_keyLoad ha (by omega) hw hp hp1 (by omega) hlate]
    simp [hfl, hl, hroom, putKey_kept _ _ _ _ htrip]
  · refine ⟨s.putResult m stBusy [], ?_, sets_putResult s m (by decide) (by simp)⟩
    rw [exec_keyLoad ha (by omega) hw hp hp1 (by omega) hlate]
    simp [hfl, hl, hroom, putKey_spoiled _ _ _ _ htrip]
  · refine ⟨_, ?_, sets_putResult (s.withSec (fun w => { w with keys := w.keys.filter (fun k => !(k.wall = wall && k.odd = decide (par = 1))) })) m (by decide) (by simp)⟩
    rw [exec_keyLoad ha (by simpa using hl) hw hp hp1 (by omega) hlate, if_pos (by omega)]
    rfl
  · refine ⟨if Config.gcmTag (s.otpBytes 0x200 32) (sliceOf (s.mbxArgs m) 3 12) [BitVec.ofNat 8 wall, BitVec.ofNat 8 par] (sliceOf (s.mbxArgs m) 15 32) = sliceOf (s.mbxArgs m) 47 16 then
        (s.withKey m wall (decide (par = 1)) (gcmXor (s.otpBytes 0x200 32) (sliceOf (s.mbxArgs m) 3 12) (sliceOf (s.mbxArgs m) 15 32))).putResult m stOk [] else s.putResult m stSigFail [], ?_, ?_⟩
    · rw [exec_keyLoad ha (by omega) hw hp hp1 (by omega) hlate]
      simp [hfl, hl, hroom, hkwk, putKey_kept _ _ _ _ htrip]
    · split
      · exact sets_putResult (s.withKey _ _ _ _) m (by decide) (by simp)
      · exact sets_putResult s m (by decide) (by simp)

end Sys2Proof.Machine

/-! Commands on walls (R36 to R38, R152, R206). -/

namespace Sys2Proof.Machine

-- ## Arguments

theorem natOfLe_eq_zero {bs : List Byte} (h : natOfLe bs = 0) : bs.all (· = 0) = true := by
  induction bs with
  | nil => rfl
  | cons b r ih =>
    simp only [natOfLe, List.foldr_cons] at h
    have hb : b = 0 := BitVec.eq_of_toNat_eq (show b.toNat = 0 by omega)
    have hr : natOfLe r = 0 := by
      simp only [natOfLe]
      omega
    rw [List.all_cons, ih hr, hb]
    rfl

/-- A number that reads zero has zero bytes. -/
theorem zeros_of_leAt {a : List Byte} {o n : Nat} (h : leAt a o n = 0) : zeros a o n = true := natOfLe_eq_zero h

theorem lowestFree_eq {n g : Nat} {used : List Nat} (hg : g < n) (hfree : g ∉ used) (hlow : ∀ k, k < g → k ∈ used) : lowestFree n used = some g := by
  refine List.find?_eq_some_iff_getElem.mpr ⟨decide_eq_true hfree, g, by simpa using hg, by simp, fun j hj => ?_⟩
  simp [hlow j hj]

-- ## WALL_OPEN

theorem exec_wallOpen {s : State} {m : Nat} (ha : s.accepts m 0x0010 = true) (hl : s.mbxLen m = 32) (hok : s.wallArgsOk (s.mbxArgs m) = true) :
    exec (.wallOpen m) s = .next
      (if !(wallOf (s.mbxArgs m)).lamps then ((s.setWall? (byteAt (s.mbxArgs m) 0) (some { wallOf (s.mbxArgs m) with picture := Config.freeNat 28 s.free % 65536 })).draw).putResult m stOk [0xFF]
       else match lowestFree 4 ((List.range 4).filter (fun g => (s.grid g).used)) with
        | none => s.putResult m stNoResource []
        | some g => (((s.takeGrid g (byteAt (s.mbxArgs m) 0) (wallOf (s.mbxArgs m))).setWall? (byteAt (s.mbxArgs m) 0)
            (some { wallOf (s.mbxArgs m) with grid := some g, picture := Config.freeNat 28 s.free % 65536 })).draw).putResult m stOk (leBytes 1 g)) := by
  rw [exec_served (c := .wallOpen m) rfl ha (by simp [hl])]
  simp only
  rw [if_neg (by simp [hok])] <;> rfl

/-- The SUBFRAMES code of a wall is the one that its command names. -/
theorem subframes_code (k : Nat) : (16 * 2 ^ k).log2 - 4 = k := by
  rw [show 16 * 2 ^ k = 2 ^ (4 + k) by rw [pow_add]; rfl, Nat.log2_two_pow]
  omega

theorem sets_takeGrid (s : State) {g w : Nat} {x : Wall} {k : Nat} (hx : x.subframes = 16 * 2 ^ k) (hk : k ≤ 3) :
    Sets (s.setGrid g { used := true, wall := w, t0 := x.t0, k := 0 }) [(F.LMP_GRID_STATUS_SUBFRAMES, g, k), (F.LMP_GRID_STATUS_EN, g, 0), (F.LMP_GRID_STATUS_SFC, g, 0)] (s.takeGrid g w x) := by
  rw [State.takeGrid, hx, subframes_code]
  have hsub := (Sets.refl (s.setGrid g { used := true, wall := w, t0 := x.t0, k := 0 })).putNew F.LMP_GRID_STATUS_SUBFRAMES g k rfl (by simp only [F.LMP_GRID_STATUS_SUBFRAMES]; omega)
  exact (hsub.putNew F.LMP_GRID_STATUS_EN g 0 rfl (by decide)).putNew F.LMP_GRID_STATUS_SFC g 0 rfl (by decide)

-- ## Parts beside the registers

/-- A change of parts beside the registers goes through a list of written fields. -/
theorem Sets.setWall? {s t : State} {l : List (Fld × Nat × Nat)} (h : Sets s l t) (w : Nat) (x : Option Wall) : Sets (s.setWall? w x) l (t.setWall? w x) := by
  obtain ⟨hst, hset, hkept⟩ := h
  exact ⟨by rw [hst]; rfl, hset, hkept⟩

theorem Sets.draw {s t : State} {l : List (Fld × Nat × Nat)} (h : Sets s l t) : Sets s.draw l t.draw := by
  obtain ⟨hst, hset, hkept⟩ := h
  exact ⟨by rw [hst]; rfl, hset, hkept⟩

-- ## WALL_CLOSE

/-- A wall without contexts, ports and destructions that wait closes at once. -/
theorem exec_wallClose {s : State} {m w : Nat} (ha : s.accepts m 0x0011 = true) (hl : s.mbxLen m = 2) (hw : w = byteAt (s.mbxArgs m) 0) (hfl : byteAt (s.mbxArgs m) 1 ≤ 1) (hopen : (s.wall? w).isSome = true)
    (hdying : s.codec.dying = []) (hctx : s.ctxsOf (fun c => decide (c.wall = w)) = []) (hchains : s.lamp.chains = []) :
    exec (.wallClose m) s = .next ((s.removeWall w).putResult m stOk []) := by
  have hform : ¬(1 < byteAt (s.mbxArgs m) 1 ∨ (s.wall? w).isNone = true) := by
    rw [← Option.not_isSome, hopen]
    simp only [Bool.not_true, Bool.false_eq_true, or_false]
    omega
  have hports : s.wallPorts w = [] := by rw [State.wallPorts, hchains]; rfl
  have hsame : s.withLamp (fun l => { l with chains := l.chains.filter (fun e => !(e.2.bound && decide (e.2.wall = w))) }) = s := by
    rw [State.withLamp, hchains, List.filter_nil, ← hchains]
  rw [exec_served (c := .wallClose m) rfl ha (by simp [hl])]
  simp only [← hw]
  rw [if_neg hform, hdying, hports]
  simp only [List.any_nil, Bool.false_eq_true, if_false, chainAll, List.foldl_nil]
  rw [hsame, hctx]
  rfl

theorem wall_of {s : State} {w : Nat} {x : Wall} (h : s.wall? w = some x) : s.wall w = x := by rw [State.wall, h]; rfl

-- ## PLAY and PAUSE

theorem exec_play {s : State} {m w : Nat} (ha : s.accepts m 0x0013 = true) (hl : s.mbxLen m = 16) (hw : w = byteAt (s.mbxArgs m) 0) (hz : leAt (s.mbxArgs m) 1 7 = 0) (hopen : (s.wall? w).isSome = true) :
    exec (.play m) s = .next ((s.playWall w (leAt (s.mbxArgs m) 8 8)).putResult m stOk []) := by
  rw [exec_served (c := .play m) rfl ha (by simp [hl])]
  simp only [← hw]
  rw [if_neg (by rw [zeros_of_leAt hz, ← Option.not_isSome, hopen]; simp)]

theorem exec_pause {s : State} {m w : Nat} (ha : s.accepts m 0x0014 = true) (hl : s.mbxLen m = 4) (hw : w = byteAt (s.mbxArgs m) 0) (hz : leAt (s.mbxArgs m) 1 3 = 0) (hopen : (s.wall? w).isSome = true) :
    exec (.pause m) s = .next ((s.pauseWall w).putResult m stOk []) := by
  rw [exec_served (c := .pause m) rfl ha (by simp [hl])]
  simp only [← hw]
  rw [if_neg (by rw [zeros_of_leAt hz, ← Option.not_isSome, hopen]; simp)]

-- ## TILE_MAP_LOAD

/-- The state in which the map is taken, before lock 1 and the job. -/
def State.withMap (s : State) (w : Nat) (x : Wall) (new : Tab (Option Tile)) : State := (s.setWall? w (some { x with tiles := new })).withHaul (fun y => { y with restageDue := true })

theorem exec_tileMapLoad {s : State} {m w a n fl : Nat} {x : Wall} {es : List (List Byte)} {new : Tab (Option Tile)} (ha : s.accepts m 0x0012 = true) (hl : s.mbxLen m = 16) (hw : w = byteAt (s.mbxArgs m) 0)
    (hfl : fl = byteAt (s.mbxArgs m) 1) (h1 : fl ≤ 1) (hn : n = leAt (s.mbxArgs m) 2 2) (haddr : a = leAt (s.mbxArgs m) 8 8) (hn0 : n ≠ 0) (hz : leAt (s.mbxArgs m) 4 4 = 0) (ha40 : a < 2 ^ 40) (ha16 : a % 16 = 0)
    (hwall : s.wall? w = some x) (hlock : s.lockElsewhere 1 = false) (hes : es = (List.range n).map (fun i => s.dramFor 9 (a + 16 * i) 16 (Origin.secure (mbxOrigin m) s))) (hall : es.all tileEntryOk = true)
    (hnodup : (es.map (fun e => (tileOf e).1)).Nodup) (hnew : new = newMap x.tiles (decide (fl = 1)) (es.map tileOf)) (hok : mapOk new = true) (hkeep : s.mapKeeps w new = true) :
    exec (.tileMapLoad m) s = .next (((s.withMap w x new).setF F.SEM_LOCK_OWNER 1 1).startJob m .tileMap) := by
  have hform : ¬(1 < fl ∨ n = 0 ∨ (!zeros (s.mbxArgs m) 4 4) = true ∨ 2 ^ 40 ≤ a ∨ a % 16 ≠ 0 ∨ (s.wall? w).isNone = true) := by
    rw [zeros_of_leAt hz, hwall]
    simp only [Bool.not_true, Bool.false_eq_true, Option.isNone_some, or_false, false_or]
    omega
  have hmap : ((es.map tileOf).map (·.1)).Nodup := by
    rw [List.map_map]
    exact hnodup
  have hmapOk : ¬(es.all tileEntryOk = false ∨ ¬((es.map tileOf).map (·.1)).Nodup ∨ mapOk new = false ∨ s.mapKeeps w new = false) := by
    rw [hall, hok, hkeep]
    simp only [Bool.true_eq_false, hmap, not_true_eq_false, or_self, not_false_eq_true]
  rw [exec_served (c := .tileMapLoad m) rfl ha (by simp [hl])]
  simp only [← hw, ← hfl, ← hn, ← haddr, ← hes, wall_of hwall, ← hnew]
  rw [if_neg hform, hlock, if_neg Bool.false_ne_true, if_neg hmapOk]
  rfl

/-- Settles O38: each clause is one branch of a command on walls. -/
theorem wallCommands : Obligations.WallCommands := by
  unfold Obligations.WallCommands
  refine ⟨fun s m ha hl hok hfl => ?_, fun s m g ha hl hok hfl hg hfree hlow => ?_, fun s m w x ha hl hw hfl hwall hgrid hdying hctx hchains => ?_,
    fun s m w g x ha hl hw hfl hwall hgrid hdying hctx hchains => ?_, fun s m w a n fl x es new ha hl hw hfl h1 hn haddr hn0 hz ha40 ha16 hwall hlock hes hall hnodup hnew hok hkeep => ?_,
    fun s m w x ha hl hw hz hwall hpaused => ?_, fun s m w x ha hl hw hz hwall hpaused => ?_, fun s m w x ha hl hw hz hwall => ?_, fun s m w g v x ha hl hw hv hv16 hwall hgrid => ?_⟩
  · have hlamps : (wallOf (s.mbxArgs m)).lamps = false := by simp [wallOf, hfl]
    refine ⟨_, by rw [exec_wallOpen ha hl hok, hlamps]; rfl, sets_putResult ((s.setWall? _ _).draw) m (by decide) (by simp)⟩
  · have hlamps : (wallOf (s.mbxArgs m)).lamps = true := by simp [wallOf, hfl]
    have hsub : (wallOf (s.mbxArgs m)).subframes = 16 * 2 ^ byteAt (s.mbxArgs m) 2 := by simp [wallOf, hfl]
    have hk : byteAt (s.mbxArgs m) 2 ≤ 3 := by
      simp only [State.wallArgsOk, hlamps, Bool.and_eq_true, Bool.or_eq_true, decide_eq_true_eq, Bool.not_true, Bool.false_eq_true, false_or, and_assoc] at hok
      obtain ⟨-, hk, -⟩ := hok
      exact hk
    have hlowest : lowestFree 4 ((List.range 4).filter (fun g => (s.grid g).used)) = some g :=
      lowestFree_eq hg (by simp [hfree]) fun k hk => List.mem_filter.mpr ⟨List.mem_range.mpr (by omega), hlow k hk⟩
    refine ⟨_, by rw [exec_wallOpen ha hl hok, hlamps, hlowest], ?_⟩
    exact (((sets_takeGrid s (g := g) (w := byteAt (s.mbxArgs m) 0) hsub hk).setWall? _ _).draw).putAnswer m 0 (leBytes 1 g) rfl (by decide) (by simp)
  · refine ⟨_, exec_wallClose ha hl hw (by omega) (by simp [hwall]) hdying hctx hchains, ?_⟩
    rw [State.removeWall, wall_of hwall, hgrid]
    exact sets_putResult (s.setWall? w none) m (by decide) (by simp)
  · refine ⟨_, exec_wallClose ha hl hw hfl (by simp [hwall]) hdying hctx hchains, ?_⟩
    rw [State.removeWall, wall_of hwall, hgrid]
    exact (((Sets.refl (s.setGrid g {})).put F.LMP_GRID_STATUS_EN g 0 (by simp) (by decide)).setWall? w none).putAnswer m 0 [] rfl (by decide) (by simp)
  · refine ⟨_, exec_tileMapLoad ha hl hw hfl h1 hn haddr hn0 hz ha40 ha16 hwall hlock hes hall hnodup hnew hok hkeep, ?_⟩
    exact ((Sets.refl ((s.withMap w x new).withJob m .tileMap)).put F.SEM_LOCK_OWNER 1 1 (by simp) (by decide)).putAnswer m 1 (leBytes 4 s.fw.nextJob) rfl (by decide) (by simp)
  · refine ⟨_, by rw [exec_play ha hl hw hz (by simp [hwall]), State.playWall, wall_of hwall, if_neg (by simp [hpaused])], ?_⟩
    exact sets_putResult ((s.setWall? w _).withCodec _) m (by decide) (by simp)
  · refine ⟨_, by rw [exec_play ha hl hw hz (by simp [hwall]), State.playWall, wall_of hwall, if_pos (by simp [hpaused])], ?_⟩
    exact sets_putResult s m (by decide) (by simp)
  · refine ⟨_, by rw [exec_pause ha hl hw hz (by simp [hwall]), State.pauseWall, wall_of hwall], ?_⟩
    exact sets_putResult (s.setWall? w _) m (by decide) (by simp)
  · refine ⟨((s.setF F.DRS_BRIGHT_BRIGHT g v).setF F.DRS_BRIGHT_SHADOW_ARMED g 1).putResult m stOk [], ?_, ?_⟩
    · rw [exec_served (c := .brightnessSet m) rfl ha (by simp [hl])]
      simp only [← hw, ← hv, hwall, hgrid]
      rw [if_neg (by omega)]
    · have hbright := (Sets.refl s).putNew F.DRS_BRIGHT_BRIGHT g v rfl (by simp only [F.DRS_BRIGHT_BRIGHT]; omega)
      exact (hbright.putNew F.DRS_BRIGHT_SHADOW_ARMED g 1 rfl (by decide)).putAnswer m 0 [] rfl (by decide) (by simp)

end Sys2Proof.Machine

/-! What the examination of a decode queue changes (R74 to R88, R143, R166, R171): its own context, the slices that it makes ready and the lateness of its context, and nothing else. -/

namespace Sys2Proof.Machine

/-- What the reception of a stream leaves alone in a context. -/
def Ctx.still (x : Ctx) : Ctx :=
  { x with
    stream := none, streamRaw := [], ended := false, newest := none, pic := none, doneRaw := none, beds := [], frontUsed := 0, frontStart := 0, frontDead := false, frontDrop := false,
    frontPic := none, dropNext := false, back := none, hunt := false, label := [], sourceTimeValue := [], stats := [], sat := 0 }

/-- `t` is `s` after examinations of context `c`: registers, contexts and ready slices apart, nothing changed; of the registers only LREM; of the contexts only `c`, in what reception changes; ready slices of `c` joined the others. -/
structure Looks (c : Nat) (s t : State) : Prop where
  rest : t = { s with regs := t.regs, codec := { s.codec with ctxs := t.codec.ctxs, ready := t.codec.ready } }
  regs : ∀ (x : Fld) (i : Nat), x.code ≠ F.SCH_CTX_LATE_LREM.code → t.f x i = s.f x i
  other : ∀ d, d ≠ c → t.ctx? d = s.ctx? d
  own : (t.ctx? c).map Ctx.still = (s.ctx? c).map Ctx.still
  ready : ∃ l, t.codec.ready = s.codec.ready ++ l ∧ ∀ r ∈ l, r.ctx = c

namespace Looks

theorem refl (c : Nat) (s : State) : Looks c s s := ⟨rfl, fun _ _ _ => rfl, fun _ _ => rfl, rfl, [], by simp, by simp⟩

theorem trans {c : Nat} {s t u : State} (h : Looks c s t) (g : Looks c t u) : Looks c s u := by
  obtain ⟨hl, hl1, hl2⟩ := h.ready
  obtain ⟨gl, gl1, gl2⟩ := g.ready
  refine ⟨?_, fun x i hx => (g.regs x i hx).trans (h.regs x i hx), fun d hd => (g.other d hd).trans (h.other d hd), g.own.trans h.own, hl ++ gl, ?_, fun r hr => ?_⟩
  · have hrest := h.rest
    rw [g.rest, hrest]
  · rw [gl1, hl1, List.append_assoc]
  · rcases List.mem_append.mp hr with hr | hr
    · exact hl2 r hr
    · exact gl2 r hr

theorem ite {c : Nat} {s t u : State} {p : Prop} [Decidable p] (h : p → Looks c s t) (g : ¬p → Looks c s u) : Looks c s (if p then t else u) := by
  split
  next hp => exact h hp
  next hp => exact g hp

/-- A change of the context itself. -/
theorem modCtx (c : Nat) (s : State) (g : Ctx → Ctx) (hg : ∀ x, (g x).still = x.still := by intro x; rfl) : Looks c s (s.modCtx c g) := by
  unfold State.modCtx
  cases hx : s.ctx? c with
  | none => exact refl c s
  | some x =>
    refine ⟨rfl, fun _ _ _ => rfl, fun d hd => ?_, ?_, [], by simp [State.setCtx?], by simp⟩
    · simp only [State.ctx?, State.setCtx?, State.withCodec_codec, Tab.get_set_ne _ _ _ hd]
    · simp only [State.ctx?, State.setCtx?, State.withCodec_codec, Tab.get_set_same] at hx ⊢
      rw [hx]
      exact congrArg some (hg x)

theorem addReady (c : Nat) (s : State) (r : Ready) (hr : r.ctx = c := by rfl) : Looks c s (s.withCodec (fun w => { w with ready := w.ready ++ [r] })) :=
  ⟨rfl, fun _ _ _ => rfl, fun _ _ => rfl, rfl, [r], rfl, by simpa using hr⟩

theorem setLrem (c : Nat) (s : State) (i v : Nat) : Looks c s (s.setF F.SCH_CTX_LATE_LREM i v) :=
  ⟨rfl, fun x j hx => State.f_setF_code _ _ _ _ _ _ hx, fun _ _ => rfl, rfl, [], by simp, by simp⟩

theorem chain {α : Type} (c : Nat) (l : List α) (g : α → State → State) (hg : ∀ a t, Looks c t (g a t)) (s : State) : Looks c s (chainAll l g s) := by
  unfold Sys2Proof.Machine.chainAll
  induction l generalizing s with
  | nil => exact refl c s
  | cons a l ih => exact (hg a s).trans (ih (g a s))

theorem stat (c : Nat) (s : State) (k n : Nat) : Looks c s (s.stat c k n) := modCtx c s _

theorem makeReady {c : Nat} (s : State) {r : Ready} (allot : Nat) (hr : r.ctx = c := by rfl) : Looks c s (s.makeReady r allot) := by
  unfold State.makeReady
  exact (setLrem c s _ _).trans (addReady c _ _ hr)

theorem endReception (c : Nat) (s : State) : Looks c s (s.endReception c) := by
  unfold State.endReception
  simp only
  split
  · exact modCtx c s _
  · refine ite (fun _ => refl c s) fun _ => ?_
    refine ((modCtx c s _).trans (chain c _ _ (fun i t => ?_) _)).trans (stat c _ _ _)
    exact addReady c t _

theorem openPic (c : Nat) (s : State) (stamp : Nat) : Looks c s (s.openPic c stamp) := by
  unfold State.openPic
  simp only
  split
  · exact ite (fun _ => refl c s) fun _ => modCtx c s _
  · exact refl c s

theorem frontReset (c : Nat) (s : State) : Looks c s (s.frontReset c) := modCtx c s _

theorem frontDie (c : Nat) (s : State) : Looks c s (s.frontDie c) := ite (fun _ => frontReset c s) fun _ => modCtx c s _

theorem dropUnit (c : Nat) (s : State) : Looks c s (s.dropUnit c) := (modCtx c s _).trans (frontDie c _)

theorem frontErr (c : Nat) (s : State) (k : Nat) : Looks c s (s.frontErr c k) := (stat c s k 1).trans (frontDie c _)

theorem openStream (c : Nat) (s : State) (h : StreamHdr) (raw : List Byte) : Looks c s (s.openStream c h raw) := (endReception c s).trans (modCtx c _ _)

theorem onStreamHdr (c : Nat) (s : State) (body : List Byte) : Looks c s (s.onStreamHdr c body) := by
  unfold State.onStreamHdr
  split
  · exact stat c s _ _
  · refine ite (fun _ => stat c s _ _) fun _ => ?_
    split
    · exact openStream c s _ _
    · exact ite (fun _ => refl c s) fun _ => ite (fun _ => (stat c s _ _).trans (modCtx c _ _)) fun _ => openStream c s _ _

theorem onPicHdr (c : Nat) (s : State) (stamp start : Nat) (body : List Byte) : Looks c s (s.onPicHdr c stamp start body) := by
  unfold State.onPicHdr
  simp only
  split
  · exact refl c s
  · split
    · exact stat c s _ _
    · refine ite (fun _ => refl c s) fun _ => ite (fun _ => (stat c s _ _).trans (modCtx c _ _)) fun _ =>
        ite (fun _ => (stat c s _ _).trans (modCtx c _ _)) fun _ => ite (fun _ => (stat c s _ _).trans (modCtx c _ _)) fun _ => ?_
      exact (ite (fun _ => refl c s) fun _ => endReception c s).trans ((modCtx c _ _).trans (openPic c _ _))

theorem onMetadata (c : Nat) (s : State) (body : List Byte) : Looks c s (s.onMetadata c body) := by
  unfold State.onMetadata
  exact ite (fun _ => stat c s _ _) fun _ => ite (fun _ => stat c s _ _) fun _ => ite (fun _ => stat c s _ _) fun _ => ite (fun _ => modCtx c s _) fun _ =>
    ite (fun _ => modCtx c s _) fun _ => ite (fun _ => stat c s _ _) fun _ => refl c s

theorem onStreamEnd (c : Nat) (s : State) : Looks c s (s.onStreamEnd c) := ite (fun _ => stat c s _ _) fun _ => (endReception c s).trans (modCtx c _ _)

theorem acceptSlice (c : Nat) (s : State) (used : Nat) (h : SliceHdr) : Looks c s (s.acceptSlice c used h) := by
  unfold State.acceptSlice
  simp only
  split
  · exact refl c s
  · exact ((modCtx c s _).trans (makeReady _ _)).trans (ite (fun _ => frontReset c _) fun _ => refl c _)

theorem abandonBuild (c : Nat) (s : State) (k : Nat) : Looks c s (s.abandonBuild c k) := modCtx c s _

theorem checkBedUnit (c : Nat) (s : State) (body : List Byte) : Looks c s (s.checkBedUnit c body).2 := by
  unfold State.checkBedUnit
  simp only
  split
  · exact frontErr c s _
  · split
    · exact dropUnit c s
    · split
      · exact frontErr c s _
      · split
        · exact (((stat c s _ _).trans (stat c _ _ _)).trans (frontDie c _)).trans (ite (fun _ => abandonBuild c _ _) fun _ => refl c _)
        · split
          · exact refl c s
          · split_ifs
            · exact refl c s
            · exact frontDie c s
            · exact refl c s
            · exact (abandonBuild c s _).trans (frontErr c _ _)

theorem iteFst {c : Nat} {s : State} {p : Prop} [Decidable p] {a b : State × Bool} (h : Looks c s a.1) (g : Looks c s b.1) : Looks c s (if p then a else b).1 := by
  split
  · exact h
  · exact g

theorem thenUsed {c : Nat} {s t : State} (k : Nat) (h : Looks c s t) : Looks c s (t.modCtx c (fun y => { y with frontUsed := k })) := h.trans (modCtx c t _)

theorem frontSlice (c : Nat) (s : State) (stamp used : Nat) (h : SliceHdr) (p : PicHdr) :
    Looks c s (let u := (if (s.ctx c).receives h.picture then s else s.endReception c).openPic c stamp
      if u.frontReady c h p then (u.acceptSlice c used h, false) else (u, false)).1 := by
  have hend : Looks c s ((if (s.ctx c).receives h.picture then s else s.endReception c).openPic c stamp) :=
    (ite (fun _ => refl c s) fun _ => endReception c s).trans (openPic c _ stamp)
  exact iteFst (hend.trans (acceptSlice c _ used h)) hend

theorem frontSeg (c : Nat) (s : State) (stamp code : Nat) (body : List Byte) (used : Nat) : Looks c s (s.frontSeg c stamp code body used).1 := by
  unfold State.frontSeg
  refine iteFst (frontErr c s _) (iteFst (thenUsed _ (onStreamHdr c s body)) (iteFst (thenUsed _ (onPicHdr c s _ _ _)) (iteFst (thenUsed _ (onStreamEnd c s))
    (iteFst (thenUsed _ (onMetadata c s body)) (iteFst ?_ (iteFst (frontErr c s _) (iteFst (checkBedUnit c s body) (thenUsed _ (stat c s _ _)))))))))
  split
  · exact dropUnit c s
  · next k _ =>
    have hend : Looks c s (if (s.ctx c).laterSlice body then s.endReception c else s) := ite (fun _ => endReception c s) fun _ => refl c s
    exact hend.trans (frontErr c _ k)
  · next h p _ => exact frontSlice c s stamp _ h _

theorem skipOn (c : Nat) (s : State) (k : Nat) : Looks c s (s.skipOn c k) := modCtx c s _

theorem skipBad (c : Nat) (s : State) (j : Nat) : Looks c s (s.skipBad c j) := (stat c s _ _).trans (skipOn c _ _)

theorem examine (c fuel : Nat) (s : State) : Looks c s (s.examine c fuel) := by
  induction fuel generalizing s with
  | zero => exact refl c s
  | succ n ih =>
    unfold State.examine
    simp only
    refine ite (fun _ => refl c s) fun _ => ?_
    split
    · exact refl c s
    · have hhunt : Looks c s (if (s.ctx c).hunt then s.skipOn c (s.ctx c).frontUsed else s) := ite (fun _ => skipOn c s _) fun _ => refl c s
      refine hhunt.trans ?_
      generalize (if (s.ctx c).hunt then s.skipOn c (s.ctx c).frontUsed else s) = u
      split
      · split_ifs
        · exact refl c u
        · exact frontDie c u
        · exact frontErr c u _
      · exact (skipBad c u _).trans (ih _)
      · exact (skipBad c u _).trans (ih _)
      · split_ifs
        · exact (skipBad c u _).trans (ih _)
        · exact (frontSeg c u _ _ _ _).trans (ih _)
        · exact frontSeg c u _ _ _ _

theorem notice (c : Nat) (s : State) : Looks c s (s.notice c) := examine c _ s

end Looks

end Sys2Proof.Machine

/-! Frames of operations that write many fields: the fields that may change, by name, and the operations on contexts and groups that stay within them. -/

namespace Sys2Proof.Machine

/-- Outside the fields of `fs` the registers of `t` are those of `s`. -/
def Off (fs : List Fld) (s t : State) : Prop := ∀ (x : Fld) (i : Nat), x.outside fs → t.f x i = s.f x i

/-- Every field of `fs` is one of `gs`. -/
def covers (gs fs : List Fld) : Bool := fs.all (fun x => gs.any (fun y => x.code == y.code))

theorem outside_of_covers {fs gs : List Fld} (h : covers gs fs = true) {x : Fld} (hx : x.outside gs) : x.outside fs := by
  intro y hy hc
  obtain ⟨z, hz, hzc⟩ := List.any_eq_true.mp (List.all_eq_true.mp h y hy)
  exact hx z hz (hc.trans (eq_of_beq hzc))

namespace Off

theorem refl (fs : List Fld) (s : State) : Off fs s s := fun _ _ _ => rfl

theorem trans {fs : List Fld} {s t u : State} (h : Off fs s t) (g : Off fs t u) : Off fs s u := fun x i hx => (g x i hx).trans (h x i hx)

theorem mono {fs gs : List Fld} {s t : State} (h : Off fs s t) (hw : covers gs fs = true) : Off gs s t := fun x i hx => h x i (outside_of_covers hw hx)

/-- The registers are the same. -/
theorem same {fs : List Fld} {s t : State} (h : t.regs = s.regs) : Off fs s t := fun x i _ => by rw [State.f, State.f, h]

theorem setF {fs : List Fld} {s t : State} (h : Off fs s t) (x : Fld) (i v : Nat) (hx : covers fs [x] = true) : Off fs s (t.setF x i v) := fun y j hy =>
  (State.f_setF_code _ _ _ _ _ _ (outside_of_covers hx hy x (List.mem_singleton.mpr rfl))).trans (h y j hy)

theorem withCodec {fs : List Fld} {s t : State} (h : Off fs s t) (g : CodecState → CodecState) : Off fs s (t.withCodec g) := h.trans (same rfl)

theorem withHaul {fs : List Fld} {s t : State} (h : Off fs s t) (g : HaulState → HaulState) : Off fs s (t.withHaul g) := h.trans (same rfl)

theorem withLamp {fs : List Fld} {s t : State} (h : Off fs s t) (g : LampState → LampState) : Off fs s (t.withLamp g) := h.trans (same rfl)

theorem withQ {fs : List Fld} {s t : State} (h : Off fs s t) (g : QueueState → QueueState) : Off fs s (t.withQ g) := h.trans (same rfl)

theorem draw {fs : List Fld} {s t : State} (h : Off fs s t) : Off fs s t.draw := h.trans (same rfl)

theorem setDesc {fs : List Fld} {s t : State} (h : Off fs s t) (d : Nat) (x : DescState) : Off fs s (t.setDesc d x) := h.withCodec _

theorem setGroup? {fs : List Fld} {s t : State} (h : Off fs s t) (g : Nat) (x : Option Group) : Off fs s (t.setGroup? g x) := h.withCodec _

theorem ite {fs : List Fld} {s t u : State} {p : Prop} [Decidable p] (h : Off fs s t) (g : Off fs s u) : Off fs s (if p then t else u) := by
  split
  · exact h
  · exact g

theorem chainAll {α : Type} {fs : List Fld} {s t : State} (h : Off fs s t) (l : List α) (g : α → State → State) (hg : ∀ a u, Off fs u (g a u)) : Off fs s (chainAll l g t) := fun x i hx =>
  (chainAll_f l g x i (fun a u => hg a u x i hx) t).trans (h x i hx)

theorem putResult {fs : List Fld} {s t : State} (h : Off fs s t) (m : Nat) {status : Nat} {data : List Byte} (hs : status < 65536) (hd : data.length ≤ 248) (hr : covers fs resultFields = true) :
    Off fs s (t.putResult m status data) := fun x i hx => (putResult_frame t m hs hd i (outside_of_covers hr hx)).trans (h x i hx)

theorem endJob {fs : List Fld} {s t : State} (h : Off fs s t) (n : Nat) (ok : Bool) (st : Nat) (hx : covers fs [F.MBX_STATUS_JOB_DONE] = true) : Off fs s (t.endJob n ok st) := by
  unfold State.endJob
  split
  · exact h
  · exact (h.trans (same rfl)).setF _ _ _ hx

theorem at_ {fs : List Fld} {s t : State} (h : Off fs s t) (x : Fld) (i : Nat) (hx : fs.all (fun y => x.code != y.code) = true) : t.f x i = s.f x i :=
  h x i fun y hy => bne_iff_ne.mp (List.all_eq_true.mp hx y hy)

theorem tag {fs : List Fld} {s t : State} (h : Off fs s t) (m : Nat) (hx : fs.all (fun y => F.MBX_COMMAND_DATA.code != y.code) = true) : t.mbxTag m = s.mbxTag m := mbxTag_congr m (h.at_ _ _ hx)

/-- A result that follows writes of other fields answers the command. -/
theorem answers {fs : List Fld} {s t : State} (h : Off fs s t) (m : Nat) {status : Nat} {data : List Byte} (hx : fs.all (fun y => F.MBX_COMMAND_DATA.code != y.code) = true) (hs : status < 65536)
    (hd : data.length ≤ 248) : (t.putResult m status data).answered m (s.mbxTag m) status data := by
  rw [← h.tag m hx]
  exact (sets_putResult t m hs hd).2.1

end Off

theorem RegsOnly.codec {s t : State} (h : RegsOnly s t) : t.codec = s.codec := by
  unfold RegsOnly at h
  rw [h]

theorem RegsOnly.lamp {s t : State} (h : RegsOnly s t) : t.lamp = s.lamp := by
  unfold RegsOnly at h
  rw [h]

theorem RegsOnly.time {s t : State} (h : RegsOnly s t) : t.time = s.time := by
  unfold RegsOnly at h
  rw [h]

theorem RegsOnly.q {s t : State} (h : RegsOnly s t) : t.q = s.q := by
  unfold RegsOnly at h
  rw [h]

theorem RegsOnly.haul {s t : State} (h : RegsOnly s t) : t.haul = s.haul := by
  unfold RegsOnly at h
  rw [h]

/-- `t` is `s` with fields of `fs` written, and nothing else. -/
structure Writes (fs : List Fld) (s t : State) : Prop where
  only : RegsOnly s t
  off : Off fs s t

namespace Writes

theorem refl (fs : List Fld) (s : State) : Writes fs s s := ⟨.refl s, .refl fs s⟩

theorem trans {fs : List Fld} {s t u : State} (h : Writes fs s t) (g : Writes fs t u) : Writes fs s u := ⟨h.only.trans g.only, h.off.trans g.off⟩

theorem mono {fs gs : List Fld} {s t : State} (h : Writes fs s t) (hw : covers gs fs = true) : Writes gs s t := ⟨h.only, h.off.mono hw⟩

theorem setF {fs : List Fld} {s t : State} (h : Writes fs s t) (x : Fld) (i v : Nat) (hx : covers fs [x] = true) : Writes fs s (t.setF x i v) := ⟨h.only.setF x i v, h.off.setF x i v hx⟩

theorem ite {fs : List Fld} {s t u : State} {p : Prop} [Decidable p] (h : Writes fs s t) (g : Writes fs s u) : Writes fs s (if p then t else u) := by
  split
  · exact h
  · exact g

theorem chainAll {α : Type} {fs : List Fld} {s t : State} (h : Writes fs s t) (l : List α) (g : α → State → State) (hg : ∀ a u, Writes fs u (g a u)) : Writes fs s (chainAll l g t) :=
  ⟨h.only.chainAll l g fun a u => (hg a u).only, h.off.chainAll l g fun a u => (hg a u).off⟩

theorem putResult {fs : List Fld} {s t : State} (h : Writes fs s t) (m : Nat) {status : Nat} {data : List Byte} (hs : status < 65536) (hd : data.length ≤ 248) (hr : covers fs resultFields = true) :
    Writes fs s (t.putResult m status data) := ⟨h.only.putResult m hs hd, h.off.putResult m hs hd hr⟩

theorem codec {fs : List Fld} {s t : State} (h : Writes fs s t) : t.codec = s.codec := h.only.codec

theorem haul {fs : List Fld} {s t : State} (h : Writes fs s t) : t.haul = s.haul := h.only.haul

end Writes

/-- A list of steps, each of which writes `x` at its own index: the field holds what the step of its index writes. -/
theorem chainAll_at {l : List Nat} {g : Nat → State → State} {x : Fld} {v c : Nat} (hself : ∀ t, (g c t).f x c = v) (hother : ∀ a t j, j ≠ a → (g a t).f x j = t.f x j) (hc : c ∈ l) (s : State) :
    (chainAll l g s).f x c = v := by
  have hkeep : ∀ (k : List Nat) (t : State), c ∉ k → (k.foldl (fun u b => g b u) t).f x c = t.f x c := by
    intro k
    induction k with
    | nil => exact fun _ _ => rfl
    | cons b k ihk =>
      intro t hk
      rw [List.foldl_cons, ihk _ fun h => hk (List.mem_cons_of_mem b h), hother b t c fun h => hk (h ▸ List.mem_cons_self)]
  unfold chainAll
  induction l generalizing s with
  | nil => cases hc
  | cons a l ih =>
    rw [List.foldl_cons]
    by_cases hl : c ∈ l
    · exact ih hl (g a s)
    · obtain rfl : c = a := (List.mem_cons.mp hc).resolve_right hl
      rw [hkeep l _ hl, hself s]

-- ## Operations on contexts

theorem refreshCapacity_writes (s : State) : Writes capacityFields s s.refreshCapacity := (((Writes.refl _ s).setF _ _ _ rfl).setF _ _ _ rfl).setF _ _ _ rfl

/-- The registers of a context's shadow set. -/
def ctxSetFields : List Fld :=
  [F.SCH_CTX_EFFORT_CONFIGURED, F.SCH_CTX_RATE_LINK_RATE, F.SCH_CTX_BUCKET_BUCKET, F.SCH_CTX_QP_QP_MIN, F.SCH_CTX_QP_QP_MAX, F.SCH_CTX_QP_QP_STEP_MAX, F.SCH_CTX_PI_KI, F.SCH_CTX_PI_KP, F.SCH_CTX_ALLOT_ALLOT]

theorem writeCtxSet_writes (s : State) (c : Nat) (a : CtxSet) : Writes ctxSetFields s (s.writeCtxSet c a) := by
  unfold State.writeCtxSet
  exact (((((((((Writes.refl _ s).setF _ _ _ rfl).setF _ _ _ rfl).setF _ _ _ rfl).setF _ _ _ rfl).setF _ _ _ rfl).setF _ _ _ rfl).setF _ _ _ rfl).setF _ _ _ rfl).setF _ _ _ rfl

/-- The registers of the DRAM regions. -/
def regionFields : List Fld := [F.SEC_REGION_BASE_PAGE, F.SEC_REGION_LIMIT_PAGE, F.SEC_REGION_ATTR_EN, F.SEC_REGION_ATTR_WORLD, F.SEC_REGION_ATTR_WR, F.SEC_REGION_ATTR_RD]

theorem guardArea_writes (s : State) (a n : Nat) : Writes regionFields s (s.guardArea a n) := by
  have hput : ∀ r b l : Nat, Writes regionFields s ((((((s.setF F.SEC_REGION_BASE_PAGE r b).setF F.SEC_REGION_LIMIT_PAGE r l).setF F.SEC_REGION_ATTR_EN r 1).setF F.SEC_REGION_ATTR_WORLD r 1).setF F.SEC_REGION_ATTR_WR r guardWr).setF
      F.SEC_REGION_ATTR_RD r guardRd) := fun r b l => ((((((Writes.refl _ s).setF _ _ _ rfl).setF _ _ _ rfl).setF _ _ _ rfl).setF _ _ _ rfl).setF _ _ _ rfl).setF _ _ _ rfl
  unfold State.guardArea
  simp only
  refine Writes.ite (Writes.refl _ s) ?_
  split
  · exact hput _ _ _
  · exact hput _ _ _
  · exact hput _ _ _
  · exact Writes.refl _ s

theorem guardGroup_writes (s : State) (g : Nat) : Writes regionFields s (s.guardGroup g) :=
  ((Writes.refl _ s).chainAll _ _ fun _ t => guardArea_writes t _ _).chainAll _ _ fun _ t => guardArea_writes t _ _

theorem guardCtx_writes (s : State) (c : Nat) : Writes regionFields s (s.guardCtx c) :=
  Writes.ite (Writes.refl _ s) (Writes.ite (guardGroup_writes s _) ((guardGroup_writes s _).trans (guardArea_writes _ _ _)))

-- ## Descriptors and groups

/-- The registers of the descriptors. -/
def descFields : List Fld :=
  [F.STK_DESC_INFO_PINNED, F.STK_DESC_INFO_DISPLAY, F.STK_DESC_INFO_BEDROCK, F.STK_DESC_INFO_SHORT_TERM, F.STK_DESC_INFO_HOST_PIN, F.STK_DESC_INFO_SLOT, F.STK_DESC_INFO_GROUP,
    F.STK_DESC_PICTURE_PICTURE, F.STK_DESC_BASE_LO_BASE, F.STK_DESC_BASE_HI_BASE, F.STK_DESC_COUNT_RESERVED, F.STK_DESC_COUNT_FREE]

theorem refreshDescCount_writes (s : State) : Writes descFields s s.refreshDescCount := ((Writes.refl _ s).setF _ _ _ rfl).setF _ _ _ rfl

theorem refreshMark_writes (s : State) (g d : Nat) : Writes descFields s (s.refreshMark g d) := by
  unfold State.refreshMark
  dsimp only
  exact ((((Writes.refl _ s).setF _ _ _ rfl).setF _ _ _ rfl).setF _ _ _ rfl).setF _ _ _ rfl

theorem resetDesc_off (s : State) (d : Nat) : Off descFields s (s.resetDesc d) := by
  unfold State.resetDesc
  dsimp only
  refine Off.setDesc ?_ _ _
  simp only [chainAll, List.foldl_cons, List.foldl_nil]
  exact ((((((((((Off.refl _ s).setF _ _ _ rfl).setF _ _ _ rfl).setF _ _ _ rfl).setF _ _ _ rfl).setF _ _ _ rfl).setF _ _ _ rfl).setF _ _ _ rfl).setF _ _ _ rfl).setF _ _ _ rfl).setF _ _ _ rfl

theorem dropDesc_off (s : State) (d : Nat) : Off descFields s (s.dropDesc d) :=
  Off.ite ((((Off.refl _ s).setF _ _ _ rfl).setF _ _ _ rfl).setF _ _ _ rfl) (resetDesc_off s d)

theorem shrinkGroup_off (s : State) (g : Nat) : Off descFields s (s.shrinkGroup g) := by
  unfold State.shrinkGroup
  simp only
  split
  · exact Off.ite (Off.refl _ s) (((Off.refl _ s).setGroup? _ _).trans (resetDesc_off _ _))
  · exact Off.refl _ s

theorem refreshMarks_off (s : State) (g : Nat) : Off descFields s (s.refreshMarks g) :=
  Off.ite (refreshDescCount_writes s).off (((((Off.refl _ s).chainAll _ _ fun d t => (refreshMark_writes t g d).off)).trans (shrinkGroup_off _ g)).trans (refreshDescCount_writes _).off)

theorem Looks.off {c : Nat} {s t : State} (h : Looks c s t) : Off [F.SCH_CTX_LATE_LREM] s t := fun x i hx => h.regs x i (hx _ (List.mem_singleton.mpr rfl))

theorem noticeGroup_off (s : State) (g : Nat) : Off [F.SCH_CTX_LATE_LREM] s (s.noticeGroup g) := (Off.refl _ s).chainAll _ _ fun c t => (Looks.notice c t).off

theorem leaveGroup_off (s : State) (g : Nat) : Off (F.SCH_CTX_LATE_LREM :: descFields) s (s.leaveGroup g) := by
  unfold State.leaveGroup
  refine Off.ite (((refreshMarks_off s g).mono rfl).trans ((noticeGroup_off _ g).mono rfl)) ?_
  exact (((Off.refl _ s).chainAll _ _ fun d t => (dropDesc_off t d).mono rfl).setGroup? _ _).trans ((refreshDescCount_writes _).off.mono rfl)


end Sys2Proof.Machine

/-! Commands on contexts (R127 to R131, R134, R153, R163). -/

namespace Sys2Proof.Machine

theorem ctx_of {s : State} {c : Nat} {x : Ctx} (h : s.ctx? c = some x) : s.ctx c = x := by rw [State.ctx, h]; rfl

theorem modCtx_of {s : State} {c : Nat} {x : Ctx} (h : s.ctx? c = some x) (g : Ctx → Ctx) : s.modCtx c g = s.setCtx? c (some (g x)) := by rw [State.modCtx, h]

theorem ctx?_setCtx? (s : State) (c : Nat) (x : Option Ctx) : (s.setCtx? c x).ctx? c = x := Tab.get_set_same _ _ _ _

theorem ctx?_setCtx?_ne (s : State) {c d : Nat} (x : Option Ctx) (h : d ≠ c) : (s.setCtx? c x).ctx? d = s.ctx? d := Tab.get_set_ne _ _ _ h

theorem ctx?_congr {s t : State} (h : t.codec = s.codec) (c : Nat) : t.ctx? c = s.ctx? c := by rw [State.ctx?, State.ctx?, h]

-- ## CONTEXT_CREATE

/-- The registers of a stream queue. -/
def queueFields : List Fld := [F.SPQ_Q_CFG_CT, F.SPQ_Q_BASE_LO_ADDR, F.SPQ_Q_BASE_HI_ADDR, F.SPQ_Q_CFG_SIZE, F.SPQ_Q_CFG_SPILL, F.SPQ_Q_CFG_EN]

theorem openQueue_off (s : State) (c n : Nat) (enc : Bool) : Off queueFields s (s.openQueue c n enc) := by
  unfold State.openQueue
  dsimp only
  exact ((((((((Off.refl _ s).setF _ _ _ rfl).draw).setF _ _ _ rfl).setF _ _ _ rfl).setF _ _ _ rfl).setF _ _ _ rfl).setF _ _ _ rfl)

theorem openQueue_parts (s : State) (c n : Nat) (enc : Bool) : (s.openQueue c n enc).codec = s.codec ∧ (s.openQueue c n enc).haul = s.haul := by
  simp only [State.openQueue, State.setF_codec, State.setF_haul, State.draw, and_self]

theorem openQueue_on (s : State) (c n : Nat) (enc : Bool) : (s.openQueue c n enc).f F.SPQ_Q_CFG_EN c = 1 := by
  simp only [State.openQueue, State.f_setF_same, F.SPQ_Q_CFG_EN]
  rfl

/-- The state in which the context has its group and number, before its registers are written. -/
def State.joined (s : State) (c g : Nat) (x : Ctx) : State :=
  let s := s.setWall? x.wall (some { s.wall x.wall with sealed := s.willSeal x.wall })
  let s := s.setGroup? g (some ((s.group g).addTile x.tile (tileBytes x.geo.depth (if x.enc then x.colour else 1) (x.geo.w16 * x.geo.h16))))
  s.setCtx? c (some { x with group := g })

/-- The registers of the context and its queue, on the state in which it has joined. -/
def State.ctxRegs (s : State) (c : Nat) (x : Ctx) : State :=
  let s := s.openQueue c (if x.enc then log2Up (2 * x.act.bucket) else 20) x.enc
  if x.enc then ((s.writeCtxSet c x.act).setF F.SCH_CTX_QP_QP_NOW c x.qpStart).setF F.SCH_CTX_EFFORT_CATCHUP c x.act.configured else s

theorem addCtx_eq (s : State) (c g : Nat) (x : Ctx) :
    s.addCtx c g x = ((((s.joined c g x).ctxRegs c x).guardCtx c).withHaul (fun w => { w with restageDue := true })).refreshCapacity := rfl

/-- The registers that a new context may write. -/
def newCtxFields : List Fld := queueFields ++ ctxSetFields ++ [F.SCH_CTX_QP_QP_NOW, F.SCH_CTX_EFFORT_CATCHUP]

theorem ctxRegs_off (s : State) (c : Nat) (x : Ctx) : Off newCtxFields s (s.ctxRegs c x) := by
  have hopen := (openQueue_off s c (if x.enc then log2Up (2 * x.act.bucket) else 20) x.enc).mono (gs := newCtxFields) rfl
  exact Off.ite (((hopen.trans ((writeCtxSet_writes _ c x.act).off.mono rfl)).setF _ _ _ rfl).setF _ _ _ rfl) hopen

theorem ctxRegs_parts (s : State) (c : Nat) (x : Ctx) : (s.ctxRegs c x).codec = s.codec ∧ (s.ctxRegs c x).haul = s.haul := by
  obtain ⟨hcodec, hhaul⟩ := openQueue_parts s c (if x.enc then log2Up (2 * x.act.bucket) else 20) x.enc
  unfold State.ctxRegs
  dsimp only
  split
  · simp only [State.setF_codec, State.setF_haul]
    exact ⟨(writeCtxSet_writes _ c x.act).codec.trans hcodec, (writeCtxSet_writes _ c x.act).haul.trans hhaul⟩
  · exact ⟨hcodec, hhaul⟩

theorem ctxRegs_on (s : State) (c : Nat) (x : Ctx) : (s.ctxRegs c x).f F.SPQ_Q_CFG_EN c = 1 := by
  unfold State.ctxRegs
  dsimp only
  split
  · exact (((((Writes.refl _ _).trans ((writeCtxSet_writes _ c x.act).mono rfl)).setF F.SCH_CTX_QP_QP_NOW c x.qpStart rfl).setF F.SCH_CTX_EFFORT_CATCHUP c x.act.configured
      (fs := F.SCH_CTX_QP_QP_NOW :: F.SCH_CTX_EFFORT_CATCHUP :: ctxSetFields) rfl).off.at_ _ _ rfl).trans (openQueue_on s c _ _)
  · exact openQueue_on s c _ _

theorem ctxRegs_qpNow (s : State) (c : Nat) {x : Ctx} (henc : x.enc = true) (hq : x.qpStart < 128) : (s.ctxRegs c x).f F.SCH_CTX_QP_QP_NOW c = x.qpStart := by
  unfold State.ctxRegs
  simp only [henc, if_true]
  rw [State.f_setF_code _ _ _ _ _ _ (by decide), State.f_setF_same]
  exact Nat.mod_eq_of_lt hq

/-- A context that has joined: its place, the other contexts, its group, and what its registers hold. -/
theorem addCtx_parts (s : State) (c g : Nat) (x : Ctx) :
    (s.addCtx c g x).codec = (s.joined c g x).codec ∧ (s.addCtx c g x).haul.restageDue = true ∧ Off (newCtxFields ++ regionFields ++ capacityFields) s (s.addCtx c g x) ∧
      Off (regionFields ++ capacityFields) ((s.joined c g x).ctxRegs c x) (s.addCtx c g x) := by
  obtain ⟨hcodec, hhaul⟩ := ctxRegs_parts (s.joined c g x) c x
  have hregs : Off (regionFields ++ capacityFields) ((s.joined c g x).ctxRegs c x) (s.addCtx c g x) :=
    (((guardCtx_writes _ c).off.mono rfl).withHaul _).trans ((refreshCapacity_writes _).off.mono rfl)
  refine ⟨?_, ?_, ?_, hregs⟩
  · rw [addCtx_eq, (refreshCapacity_writes _).codec, State.withHaul_codec, (guardCtx_writes _ c).codec, hcodec]
  · rw [addCtx_eq, (refreshCapacity_writes _).haul]
    rfl
  · exact ((Off.same rfl).trans ((ctxRegs_off (s.joined c g x) c x).mono rfl)).trans (hregs.mono rfl)

theorem joined_ctx (s : State) (c g : Nat) (x : Ctx) : (s.joined c g x).ctx? c = some { x with group := g } := ctx?_setCtx? _ _ _

theorem joined_other (s : State) {c d : Nat} (g : Nat) (x : Ctx) (h : d ≠ c) : (s.joined c g x).ctx? d = s.ctx? d := ctx?_setCtx?_ne _ _ h

/-- A group keeps its wall and its reserves when a tile takes its place. -/
theorem addTile_keeps (g : Group) (tile bytes : Nat) : (g.addTile tile bytes).wall = g.wall ∧ (g.addTile tile bytes).short = g.short ∧ (g.addTile tile bytes).beds = g.beds := by
  unfold Group.addTile
  split <;> exact ⟨rfl, rfl, rfl⟩

theorem joined_group (s : State) (c g : Nat) (x : Ctx) :
    ((s.joined c g x).group g).wall = (s.group g).wall ∧ ((s.joined c g x).group g).short = (s.group g).short ∧ ((s.joined c g x).group g).beds = (s.group g).beds := by
  have hgroup : (s.joined c g x).group g = (s.group g).addTile x.tile (tileBytes x.geo.depth (if x.enc then x.colour else 1) (x.geo.w16 * x.geo.h16)) := by
    simp only [State.joined, State.group, State.group?, State.setCtx?, State.setGroup?, State.setWall?, State.withCodec_codec, Tab.get_set_same, Option.getD_some]
  rw [hgroup]
  exact addTile_keeps _ _ _

/-- A new group: its wall and reserves, the contexts as before. -/
theorem newGroup_parts (s : State) (n w : Nat) (tile : Option Nat) (short beds : Nat) :
    ((s.newGroup n w tile short beds).group n).wall = w ∧ ((s.newGroup n w tile short beds).group n).short = short ∧ ((s.newGroup n w tile short beds).group n).beds = beds ∧
      (s.newGroup n w tile short beds).codec.ctxs = s.codec.ctxs := by
  have hpart : ∀ {β : Type} (part : State → β) (_ : ∀ t d x, part (t.setDesc d x) = part t) (_ : ∀ t x i v, part (t.setF x i v) = part t) (_ : ∀ t, part t.draw = part t),
      part (s.newGroup n w tile short beds) = part (s.setGroup? n (some { wall := w, tile := tile, short := short, beds := beds, descs := (s.poolDescs.take (short + 2 + beds)).take (short + 2), bedDescs := (s.poolDescs.take (short + 2 + beds)).drop (short + 2) })) := by
    intro β part hdesc hset hdraw
    unfold State.newGroup State.refreshDescCount
    simp only [hset]
    rw [chainAll_keep part _ _ fun k t => ?_, chainAll_keep part _ _ fun d t => ?_]
    · simp only [hset, hdraw, hdesc, State.setDescBase, State.showDescBase]
    · simp only [hset, hdraw, hdesc, State.setDescBase, State.showDescBase]
  have hgroup : ∀ u : State, (u.group n) = (Tab.get none u.codec.groups n).getD {} := fun _ => rfl
  rw [hgroup, hpart (fun t => t.codec.groups) (fun _ _ _ => rfl) (fun _ _ _ _ => rfl) (fun _ => rfl), hpart (fun t => t.codec.ctxs) (fun _ _ _ => rfl) (fun _ _ _ _ => rfl) (fun _ => rfl)]
  simp only [State.setGroup?, State.withCodec_codec, Tab.get_set_same, Option.getD_some, and_self]

theorem newGroup_off (s : State) (n w : Nat) (tile : Option Nat) (short beds : Nat) : Off descFields s (s.newGroup n w tile short beds) := by
  have hbase : ∀ (t : State) (d b : Nat), Off descFields t (t.setDescBase d b) := fun t d b => (((Off.refl _ t).setDesc _ _).setF _ _ _ rfl).setF _ _ _ rfl
  unfold State.newGroup
  refine Off.trans ?_ (refreshDescCount_writes _).off
  exact (((Off.refl _ s).setGroup? _ _).chainAll _ _ fun d t => (hbase t d _).draw.setF _ _ _ rfl).chainAll _ _ fun k t =>
    (((((Off.refl _ t).setDesc _ _).trans (hbase _ _ _)).draw.setF _ _ _ rfl).setF _ _ _ rfl).setF _ _ _ rfl

/-- CONTEXT_CREATE whose arguments are in range reaches admission. -/
theorem exec_contextCreate {s : State} {m w : Nat} {x : Tile} (ha : s.accepts m 0x0020 = true) (hl : 32 ≤ s.mbxLen m) (hl' : s.mbxLen m ≤ 96) (hw : w = s.wallFor (s.mbxArgs m)) (h1 : byteAt (s.mbxArgs m) 0 ≤ 1)
    (hwall : (s.wall? w).isSome = true) (htile : Tab.get none (s.wall w).tiles (leAt (s.mbxArgs m) 2 2) = some x) (hdying : s.codec.dying = [])
    (hnone : s.ctxsOf (fun y => decide (y.wall = w) && decide (y.tile = leAt (s.mbxArgs m) 2 2) && decide (y.enc = decide (byteAt (s.mbxArgs m) 0 = 0))) = [])
    (henc : byteAt (s.mbxArgs m) 0 = 0 → encodeArgsOk (s.willSeal w) (s.mbxArgs m) x = true ∧ 32 + byteAt (s.mbxArgs m) 23 ≤ (s.mbxArgs m).length) :
    exec (.contextCreate m) s = .next (s.takeCtx m (s.ctxOf (s.mbxArgs m) x)) := by
  rw [exec_served (c := .contextCreate m) rfl ha (by simp [hl, hl'])]
  simp only [← hw, htile, hdying, List.any_nil, hnone]
  rw [if_neg (by rw [← Option.not_isSome, hwall]; simp; omega), if_neg (by simp), if_neg, if_neg]
  · rintro ⟨h0, hlen⟩
    obtain ⟨-, hlabel⟩ := henc (of_decide_eq_true h0)
    omega
  · rintro ⟨h0, hbad⟩
    rw [(henc (of_decide_eq_true h0)).1] at hbad
    cases hbad

theorem takeCtx_joins {s : State} {c g : Nat} (m : Nat) {x : Ctx} (hc : lowestFree 4096 s.ctxNums = some c) (hg : s.groupFor x.wall x.tile x.geo.independent = some g) (hshort : x.maxShort ≤ (s.group g).short)
    (hbeds : x.bedSlots ≤ (s.group g).beds) (hroom : s.chargeSum + x.charge ≤ s.limitFor s.inService) :
    s.takeCtx m x = (s.addCtx c g x).putResult m stOk (leBytes 2 c ++ [0, 0] ++ leBytes 4 x.charge) := by
  have hlimit : ¬ s.limitFor s.inService < s.chargeSum + x.charge := Nat.not_lt.mpr hroom
  have hreserve : ¬((s.group g).short < x.maxShort ∨ (s.group g).beds < x.bedSlots) := not_or.mpr ⟨Nat.not_lt.mpr hshort, Nat.not_lt.mpr hbeds⟩
  unfold State.takeCtx
  dsimp only
  generalize lowestFree 4096 s.ctxNums = o at hc
  subst hc
  dsimp only
  generalize s.groupFor x.wall x.tile x.geo.independent = o at hg
  subst hg
  dsimp only
  rw [if_neg hreserve, if_neg hlimit]

/-- The number of a new group. -/
def State.nextGroup (s : State) : Nat := (lowestFree 512 (s.codec.groups.map (·.1))).getD 511

theorem takeCtx_new {s : State} {c : Nat} (m : Nat) {x : Ctx} (hc : lowestFree 4096 s.ctxNums = some c) (hg : s.groupFor x.wall x.tile x.geo.independent = none)
    (hpool : x.maxShort + 2 + x.bedSlots ≤ s.poolDescs.length) (hroom : s.chargeSum + x.charge ≤ s.limitFor s.inService) :
    s.takeCtx m x = ((s.newGroup s.nextGroup x.wall (if x.geo.independent then some x.tile else none) x.maxShort x.bedSlots).addCtx c s.nextGroup x).putResult m stOk
      (leBytes 2 c ++ [0, 0] ++ leBytes 4 x.charge) := by
  have hlimit : ¬ s.limitFor s.inService < s.chargeSum + x.charge := Nat.not_lt.mpr hroom
  unfold State.takeCtx
  dsimp only
  generalize lowestFree 4096 s.ctxNums = o at hc
  subst hc
  dsimp only
  generalize s.groupFor x.wall x.tile x.geo.independent = o at hg
  subst hg
  dsimp only
  rw [if_neg (Nat.not_lt.mpr hpool), if_neg hlimit]
  rfl

/-- What stands once a context has joined and the command is answered. -/
theorem createdCtx_parts (s : State) (m c g : Nat) (x : Ctx) {u : State} (hu : u = (s.addCtx c g x).putResult m stOk (leBytes 2 c ++ [0, 0] ++ leBytes 4 x.charge)) :
    u.codec = (s.joined c g x).codec ∧ u.haul.restageDue = true ∧ u.f F.SPQ_Q_CFG_EN c = 1 ∧ (x.enc = true → x.qpStart < 128 → u.f F.SCH_CTX_QP_QP_NOW c = x.qpStart) ∧
      u.answered m (s.mbxTag m) 0 (leBytes 2 c ++ [0, 0] ++ leBytes 4 x.charge) := by
  obtain ⟨hcodec, hdue, hoff, hregs⟩ := addCtx_parts s c g x
  have hres : Writes resultFields (s.addCtx c g x) u := hu ▸ (Writes.refl _ _).putResult m (by decide) (by simp) rfl
  refine ⟨hres.codec.trans hcodec, by rw [hres.haul, hdue], ?_, fun henc hq => ?_, ?_⟩
  · rw [hres.off.at_ _ _ rfl, hregs.at_ _ _ rfl]
    exact ctxRegs_on _ _ _
  · rw [hres.off.at_ _ _ rfl, hregs.at_ _ _ rfl]
    exact ctxRegs_qpNow _ _ henc hq
  · rw [hu]
    exact hoff.answers m rfl (by decide) (by simp)


-- ## CONTEXT_DESTROY

/-- A context that does not exist is not made by an examination. -/
theorem Looks.none {c d : Nat} {s t : State} (h : Looks c s t) (hd : s.ctx? d = none) : t.ctx? d = none := by
  by_cases hcd : d = c
  · subst hcd
    have hown := h.own
    rw [hd] at hown
    exact Option.map_eq_none_iff.mp hown
  · rw [h.other d hcd, hd]

theorem noticeGroup_none {c : Nat} {s : State} (g : Nat) (h : s.ctx? c = none) : (s.noticeGroup g).ctx? c = none := by
  unfold State.noticeGroup chainAll
  generalize s.groupCtxs g = l
  induction l generalizing s with
  | nil => exact h
  | cons d l ih => exact ih ((Looks.notice d s).none h)

theorem resetDesc_ctxs (s : State) (d : Nat) : (s.resetDesc d).codec.ctxs = s.codec.ctxs := by
  have hdesc : ∀ (t : State) (x : DescState), (t.setDesc d x).codec.ctxs = t.codec.ctxs := fun _ _ => rfl
  unfold State.resetDesc
  dsimp only
  rw [hdesc, chainAll_keep (fun t => t.codec.ctxs) _ _ fun x t => by rw [State.setF_codec]]

theorem refreshMarks_ctxs (s : State) (g : Nat) : (s.refreshMarks g).codec.ctxs = s.codec.ctxs := by
  have hshrink : ∀ t : State, (t.shrinkGroup g).codec.ctxs = t.codec.ctxs := by
    intro t
    unfold State.shrinkGroup
    simp only
    split
    · split
      · rfl
      · exact resetDesc_ctxs _ _
    · rfl
  unfold State.refreshMarks
  split
  · rw [(refreshDescCount_writes _).codec]
  · rw [(refreshDescCount_writes _).codec, hshrink, chainAll_keep (fun t => t.codec.ctxs) _ _ fun d t => by rw [(refreshMark_writes t g d).codec]]

theorem leaveGroup_none {c : Nat} {s : State} (g : Nat) (h : s.ctx? c = none) : (s.leaveGroup g).ctx? c = none := by
  have hdrop : ∀ (d : Nat) (t : State), (t.dropDesc d).codec.ctxs = t.codec.ctxs := by
    intro d t
    unfold State.dropDesc
    split
    · rfl
    · exact resetDesc_ctxs t d
  unfold State.leaveGroup
  split
  · exact noticeGroup_none g (by rw [State.ctx?, refreshMarks_ctxs]; exact h)
  · simp only
    rw [State.ctx?, (refreshDescCount_writes _).codec]
    exact (congrArg (fun k => Tab.get none k c) (chainAll_keep (fun t => t.codec.ctxs) _ _ hdrop s)).trans h

theorem freeQueue_off (s : State) (c : Nat) : Off queueFields s (s.freeQueue c) := by
  unfold State.freeQueue State.emptyQueue State.setQueue
  simp only [chainAll, List.foldl_cons, List.foldl_nil]
  exact (((((((Off.refl _ s).withQ _).setF _ _ _ rfl).setF _ _ _ rfl).setF _ _ _ rfl).setF _ _ _ rfl).setF _ _ _ rfl).setF _ _ _ rfl

theorem freeQueue_en (s : State) (c : Nat) : (s.freeQueue c).f F.SPQ_Q_CFG_EN c = 0 := by
  unfold State.freeQueue
  simp only [chainAll, List.foldl_cons, List.foldl_nil]
  rw [State.f_setF_code _ _ _ _ _ _ (by decide), State.f_setF_code _ _ _ _ _ _ (by decide), State.f_setF_code _ _ _ _ _ _ (by decide), State.f_setF_code _ _ _ _ _ _ (by decide), State.f_setF_same]
  rfl

/-- The registers that a context's end clears. -/
def ctxRegFields : List Fld :=
  [F.SCH_CTX_EFFORT_CATCHUP, F.SCH_CTX_EFFORT_EFFECTIVE, F.SCH_CTX_EFFORT_CONFIGURED, F.SCH_CTX_RATE_LINK_RATE, F.SCH_CTX_BUCKET_BUCKET, F.SCH_CTX_QP_QP_NOW, F.SCH_CTX_QP_QP_STEP_MAX,
    F.SCH_CTX_QP_QP_MAX, F.SCH_CTX_QP_QP_MIN, F.SCH_CTX_PI_KI, F.SCH_CTX_PI_KP, F.SCH_CTX_ARM_SHADOW_ARMED, F.SCH_CTX_LATE_LATE_STREAK, F.SCH_CTX_LATE_LREM, F.SCH_CTX_ALLOT_ALLOT,
    F.STK_CTX_STATUS_CONCEALED, F.STK_CTX_STATUS_CONC_SLICES, F.STK_CTX_STATUS_LAST_PICTURE]

theorem clearCtxRegs_writes (s : State) (c : Nat) : Writes ctxRegFields s (s.clearCtxRegs c) := by
  have hlist : s.clearCtxRegs c = chainAll ctxRegFields (fun F t => t.setF F c (F.reset c)) s := rfl
  have hsub : ∀ (l : List Fld) (t : State), covers ctxRegFields l = true → Writes ctxRegFields t (chainAll l (fun F t => t.setF F c (F.reset c)) t) := by
    intro l
    induction l with
    | nil => exact fun t _ => Writes.refl _ t
    | cons x l ih =>
      intro t hl
      simp only [covers, List.all_cons, Bool.and_eq_true] at hl
      exact ((Writes.refl _ t).setF x c _ (by simp only [covers, List.all_cons, List.all_nil, hl.1, Bool.and_true])).trans (ih _ hl.2)
  rw [hlist]
  exact hsub _ _ rfl

/-- The state of the parts that a context leaves, before its group follows. -/
def State.withoutCtx (s : State) (c : Nat) : State :=
  let s := ((s.endLoads c).forgetBands c).freeQueue c
  let s := s.withCodec (fun w => { w with ready := w.ready.filter (fun r => decide (r.ctx ≠ c)), cache := w.cache.filter (· ≠ c) })
  (s.setCtx? c none).clearCtxRegs c

theorem removeCtx_eq (s : State) (c : Nat) : s.removeCtx c = (((s.withoutCtx c).leaveGroup (s.ctx c).group).withHaul (fun w => { w with restageDue := true })).refreshCapacity := rfl

theorem withoutCtx_off (s : State) (c : Nat) : Off (F.MBX_STATUS_JOB_DONE :: queueFields ++ ctxRegFields) s (s.withoutCtx c) := by
  have hloads : Off (F.MBX_STATUS_JOB_DONE :: queueFields ++ ctxRegFields) s (s.endLoads c) := (Off.refl _ s).chainAll _ _ fun l t => (Off.refl _ t).endJob _ _ _ rfl
  have hqueue := (hloads.withLamp (fun w => { w with chans := w.chans.map (fun e => (e.1, { e.2 with bands := e.2.bands.filter (fun b => decide (b.ctx ≠ c)) })) })).trans ((freeQueue_off _ c).mono rfl)
  exact ((hqueue.withCodec _).withCodec _).trans ((clearCtxRegs_writes _ c).off.mono rfl)

theorem withoutCtx_parts (s : State) (c : Nat) : (s.withoutCtx c).ctx? c = none ∧ (s.withoutCtx c).f F.SPQ_Q_CFG_EN c = 0 := by
  constructor
  · rw [State.withoutCtx, ctx?_congr (clearCtxRegs_writes _ c).codec]
    exact ctx?_setCtx? _ _ _
  · rw [State.withoutCtx, (clearCtxRegs_writes _ c).off.at_ _ _ rfl]
    simp only [State.setCtx?, State.f_withCodec]
    exact freeQueue_en _ c

theorem removeCtx_parts (s : State) (c : Nat) :
    (s.removeCtx c).ctx? c = none ∧ (s.removeCtx c).f F.SPQ_Q_CFG_EN c = 0 ∧ (s.removeCtx c).haul.restageDue = true ∧
      Off (F.MBX_STATUS_JOB_DONE :: queueFields ++ ctxRegFields ++ descFields ++ capacityFields) s (s.removeCtx c) := by
  obtain ⟨hnone, hen⟩ := withoutCtx_parts s c
  have hgroup : Off (ctxRegFields ++ descFields ++ capacityFields) (s.withoutCtx c) (s.removeCtx c) :=
    (((leaveGroup_off _ _).mono rfl).withHaul _).trans ((refreshCapacity_writes _).off.mono rfl)
  refine ⟨?_, (hgroup.at_ _ _ rfl).trans hen, ?_, ((withoutCtx_off s c).mono rfl).trans (hgroup.mono rfl)⟩
  · rw [removeCtx_eq, ctx?_congr (refreshCapacity_writes _).codec]
    exact leaveGroup_none _ hnone
  · rw [removeCtx_eq, (refreshCapacity_writes _).haul]
    rfl

/-- The destruction of one context none of whose slices runs ends at once. -/
theorem destroy_idle {s : State} {c : Nat} {x : Ctx} (m : Nat) (hx : s.ctx? c = some x) (hidle : s.ctxRuns c = false) : s.destroy m [c] none = ((s.beginEnd c).removeCtx c).putResult m stOk [] := by
  have hbegin : s.beginEnd c = (s.setCtx? c (some { x with ending := true })).withCodec (fun w => { w with ready := w.ready.filter (fun r => decide (r.ctx ≠ c)) }) := by rw [State.beginEnd, modCtx_of hx]
  have hruns : (s.beginEnd c).ctxRuns c = false := by rw [hbegin]; exact hidle
  have hsome : ((s.beginEnd c).ctx? c).isSome = true := by
    rw [hbegin]
    simp only [State.ctx?, State.setCtx?, State.withCodec_codec, Tab.get_set_same, Option.isSome_some]
  obtain ⟨hnone, -⟩ := removeCtx_parts (s.beginEnd c) c
  unfold State.destroy State.reapOne
  simp only [chainAll, List.foldl_cons, List.foldl_nil, List.any_cons, List.any_nil, Bool.or_false, hruns, hsome, hnone, Bool.not_false, Bool.and_self, Bool.false_eq_true, if_true, if_false, Option.isSome_none]
  rfl

theorem exec_contextDestroy {s : State} {m c : Nat} {x : Ctx} (ha : s.accepts m 0x0021 = true) (hl : s.mbxLen m = 4) (hc : c = leAt (s.mbxArgs m) 0 2) (hz : leAt (s.mbxArgs m) 2 2 = 0) (hx : s.ctx? c = some x)
    (hend : x.ending = false) (htable : x.enc = false → s.tableNames c = false) : exec (.contextDestroy m) s = .next (s.destroy m [c] none) := by
  rw [exec_served (c := .contextDestroy m) rfl ha (by simp [hl])]
  simp only [← hc, zeros_of_leAt hz, hx, ctx_of hx, hend]
  rw [if_neg (by simp), if_neg]
  simp only [Bool.false_or, Bool.and_eq_true, Bool.not_eq_true', not_and, Bool.not_eq_true]
  exact htable


-- ## CONTEXT_STATS, EFFORT_SET, SCH_PARAM_SET

theorem flatMap_le_length {α : Type} (g : α → List Byte) (n : Nat) (hg : ∀ a, (g a).length = n) (l : List α) : (l.flatMap g).length = n * l.length := by
  induction l with
  | nil => rfl
  | cons a l ih => rw [List.flatMap_cons, List.length_append, hg, ih, List.length_cons, Nat.mul_succ, Nat.add_comm]

theorem statsBytes_length (s : State) (c : Nat) : (s.statsBytes c).length = 212 := by
  unfold State.statsBytes
  simp only [List.length_append, leBytes_length, List.length_take, List.length_replicate, List.length_cons, List.length_nil, flatMap_le_length _ 4 (fun _ => leBytes_length _ _), List.length_range]
  omega

theorem exec_contextStats {s : State} {m c : Nat} {x : Ctx} (ha : s.accepts m 0x0022 = true) (hl : s.mbxLen m = 3) (hc : c = leAt (s.mbxArgs m) 0 2) (hx : s.ctx? c = some x) (hfl : byteAt (s.mbxArgs m) 2 ≤ 1) :
    exec (.contextStats m) s = .next ((s.setCtx? c (some { (if byteAt (s.mbxArgs m) 2 = 1 then x.cleared else x) with event := false })).putResult m stOk (s.statsBytes c)) := by
  rw [exec_served (c := .contextStats m) rfl ha (by simp [hl])]
  simp only [← hc, modCtx_of hx]
  rw [if_neg]
  rw [hx]
  simp only [Option.isNone_some, Bool.false_eq_true, or_false]
  omega

theorem setEffort_eq {s : State} {c : Nat} {x : Ctx} (e : Nat) (hx : s.ctx? c = some x) :
    s.setEffort e c = ((s.setCtx? c (some { x with charge := s.chargeAt c e })).setF F.SCH_CTX_EFFORT_CONFIGURED c e).setF F.SCH_CTX_ARM_SHADOW_ARMED c 1 := by
  rw [State.setEffort, modCtx_of hx]

theorem exec_effortSet {s : State} {m c e : Nat} {x : Ctx} (ha : s.accepts m 0x0023 = true) (hl : s.mbxLen m = 4) (hc : c = leAt (s.mbxArgs m) 0 2) (he : e = byteAt (s.mbxArgs m) 2) (he3 : e ≤ 3)
    (hz : byteAt (s.mbxArgs m) 3 = 0) (hone : c ≠ 0xFFFF) (hx : s.ctx? c = some x) (henc : x.enc = true) (hcharge : s.chargeAt c e ≤ x.charge) :
    exec (.effortSet m) s = .next (((s.setEffort e c).refreshCapacity).putResult m stOk []) := by
  rw [exec_served (c := .effortSet m) rfl ha (by simp [hl])]
  simp only [← hc, ← he, if_neg hone]
  rw [if_neg, if_neg]
  · rfl
  · simp only [List.any_cons, List.any_nil, Bool.or_false, ctx_of hx, decide_eq_true_eq]
    omega
  · simp only [hz, hx, ctx_of hx, henc, Option.isNone_some, Bool.false_eq_true, Bool.true_eq_false, or_false, and_false, ne_eq, not_true_eq_false]
    omega

/-- KP, KI and QP_STEP_MAX for the shadow set of one context. -/
def State.setLoop (kp ki qs : Nat) (c : Nat) (s : State) : State :=
  (((s.setF F.SCH_CTX_PI_KP c kp).setF F.SCH_CTX_PI_KI c ki).setF F.SCH_CTX_QP_QP_STEP_MAX c qs).setF F.SCH_CTX_ARM_SHADOW_ARMED c 1

/-- The registers of the controller's parameters. -/
def loopFields : List Fld := [F.SCH_CTX_PI_KP, F.SCH_CTX_PI_KI, F.SCH_CTX_QP_QP_STEP_MAX, F.SCH_CTX_ARM_SHADOW_ARMED]

theorem setLoop_writes (kp ki qs c : Nat) (s : State) : Writes loopFields s (s.setLoop kp ki qs c) :=
  ((((Writes.refl _ s).setF _ _ _ rfl).setF _ _ _ rfl).setF _ _ _ rfl).setF _ _ _ rfl

/-- What the controller's parameters write for context `c`. -/
def loopValues (kp ki qs c : Nat) : List (Fld × Nat × Nat) := [(F.SCH_CTX_PI_KP, c, kp), (F.SCH_CTX_PI_KI, c, ki), (F.SCH_CTX_QP_QP_STEP_MAX, c, qs), (F.SCH_CTX_ARM_SHADOW_ARMED, c, 1)]

theorem sets_setLoop {kp ki qs : Nat} (c : Nat) (s : State) (hkp : kp < 65536) (hki : ki < 65536) (hqs : qs < 16) : Sets s (loopValues kp ki qs c) (s.setLoop kp ki qs c) :=
  (((((Sets.refl s).putNew F.SCH_CTX_PI_KP c kp rfl hkp).putNew F.SCH_CTX_PI_KI c ki rfl hki).putNew F.SCH_CTX_QP_QP_STEP_MAX c qs rfl hqs).putNew F.SCH_CTX_ARM_SHADOW_ARMED c 1 rfl (by decide))

/-- Every context of the list takes the parameters. -/
theorem chain_setLoop {kp ki qs : Nat} (hkp : kp < 65536) (hki : ki < 65536) (hqs : qs < 16) {l : List Nat} (s : State) {c : Nat} (hc : c ∈ l) {x : Fld} {v : Nat} (hx : ∀ a, (x, a, v) ∈ loopValues kp ki qs a) :
    (chainAll l (State.setLoop kp ki qs) s).f x c = v :=
  chainAll_at (fun t => (sets_setLoop c t hkp hki hqs).2.1 _ (hx c)) (fun a t j hj => (sets_setLoop a t hkp hki hqs).2.2 x j (by simp [loopValues, hj])) hc s

/-- The state of SCH_PARAM_SET before the contexts take their part. -/
def State.withParams (s : State) (lk hf kp ki qs ad : Nat) : State :=
  ((s.withCodec (fun w => { w with lambdaK := lk, holdFactor := hf, kp := kp, ki := ki, qpStepMax := qs })).setF F.SCH_CTRL_ADMIT_PCT 0 ad).refreshCapacity

theorem exec_schParamSet {s : State} {m lk ad : Nat} (ha : s.accepts m 0x0480 = true) (hl : s.mbxLen m = 9) (hlk : lk = leAt (s.mbxArgs m) 0 2) (hlk' : lk < 512) (hhf : 64 ≤ byteAt (s.mbxArgs m) 2)
    (had : ad = byteAt (s.mbxArgs m) 3) (h50 : 50 ≤ ad) (h95 : ad ≤ 95) (hqs : 1 ≤ byteAt (s.mbxArgs m) 8) (hqs' : byteAt (s.mbxArgs m) 8 ≤ 15) :
    exec (.schParamSet m) s = .next ((chainAll (s.ctxsOf (·.enc)) (State.setLoop (leAt (s.mbxArgs m) 4 2) (leAt (s.mbxArgs m) 6 2) (byteAt (s.mbxArgs m) 8))
      (s.withParams lk (byteAt (s.mbxArgs m) 2) (leAt (s.mbxArgs m) 4 2) (leAt (s.mbxArgs m) 6 2) (byteAt (s.mbxArgs m) 8) ad)).putResult m stOk []) := by
  have hcodec := fun u : State => (refreshCapacity_writes u).codec
  rw [exec_served (c := .schParamSet m) rfl ha (by simp [hl])]
  simp only [← hlk, ← had]
  rw [if_neg (by omega)]
  simp only [State.ctxsOf, State.ctxNums, State.ctx?, hcodec, State.setF_codec, State.withCodec_codec]
  rfl


-- ## BEDROCK_LOAD

/-- The load that BEDROCK_LOAD asks for. -/
def State.loadOf (s : State) (a : List Byte) : BedLoad :=
  let x := s.ctx (leAt a 0 2)
  { slot := byteAt a 2, fromDram := decide (byteAt a 3 = 1), rows := byteAt a 4, qp := byteAt a 5, repeats := byteAt a 6, nameDelay := byteAt a 7, trickle := leAt a 8 4, addr := leAt a 12 8,
    gen := (Tab.get 0 x.gens (byteAt a 2) + 1) % 256, job := s.fw.nextJob, src := if decide (byteAt a 3 = 1) then some (freeSource x.geo x.colour s.free) else none }

theorem exec_bedrockLoad {s : State} {m c k : Nat} {x : Ctx} (ha : s.accepts m 0x0024 = true) (hl : s.mbxLen m = 20) (hok : s.bedrockArgsOk (s.mbxArgs m) = true) (hc : c = leAt (s.mbxArgs m) 0 2) (hk : k = byteAt (s.mbxArgs m) 2)
    (hx : s.ctx? c = some x) (hloads : ∀ l ∈ x.loads, l.slot ≠ k) :
    exec (.bedrockLoad m) s = .next (((s.setCtx? c (some { x with gens := Tab.set 0 x.gens k ((Tab.get 0 x.gens k + 1) % 256), loads := x.loads ++ [s.loadOf (s.mbxArgs m)] })).draw).startJob m (.bedrock c k)) := by
  have hfree : x.loads.any (fun l => decide (l.slot = k)) = false := by simpa [List.any_eq_false] using hloads
  rw [exec_served (c := .bedrockLoad m) rfl ha (by simp [hl])]
  simp only [← hc, ← hk, ctx_of hx, hok, hfree, modCtx_of hx, State.loadOf]
  rfl

theorem ctxOf_parts (s : State) (a : List Byte) (x : Tile) : (s.ctxOf a x).wall = s.wallFor a ∧ (s.ctxOf a x).tile = leAt a 2 2 ∧ (s.ctxOf a x).geo = x := by
  unfold State.ctxOf
  dsimp only
  split <;> exact ⟨rfl, rfl, rfl⟩

/-- What an encode context and a decode context take from the arguments. -/
theorem ctxOf_enc (s : State) {a : List Byte} (x : Tile) (h : byteAt a 0 = 0) : (s.ctxOf a x).enc = true ∧ (s.ctxOf a x).qpStart = byteAt a 20 := by
  unfold State.ctxOf
  dsimp only
  rw [if_neg (by omega)]
  exact ⟨rfl, rfl⟩

theorem ctxOf_dec (s : State) {a : List Byte} (x : Tile) (h : byteAt a 0 = 1) : (s.ctxOf a x).maxShort = x.maxShort ∧ (s.ctxOf a x).bedSlots = x.bedSlots := by
  unfold State.ctxOf
  dsimp only
  rw [if_pos h]
  exact ⟨rfl, rfl⟩

theorem encodeArgs_qpStart {prot : Bool} {a : List Byte} {x : Tile} (h : encodeArgsOk prot a x = true) : byteAt a 20 < 128 := by
  simp only [encodeArgsOk, Bool.and_eq_true, decide_eq_true_eq] at h
  omega

theorem dram_of_stores {s t : State} (h : t.stores = s.stores) : t.dram = s.dram := congrArg Prod.fst h

/-- Settles O39: each clause is one accepted command; the frames of its operations give what it leaves. -/
theorem contextCommands : Obligations.ContextCommands := by
  unfold Obligations.ContextCommands
  refine ⟨fun s m w c g x ha hl hl' hw h1 hwall htile hdying hnone henc hc hg hshort hbeds hroom => ?_, fun s m w c x ha hl hw h1 hwall htile hdying hnone hc hg hpool hroom => ?_,
    fun s m c x ha hl hc hz hx hend hidle htable => ?_, fun s m c x ha hl hc hx hfl => ?_, fun s m c e x ha hl hc he he3 hz hone hx hx' hcharge => ?_,
    fun s m lk ad ha hl hlk hlk' hhf had h50 h95 hqs hqs' => ?_, fun s m c k x ha hl hok hc hk hz hx hloads => ?_, fun s m c x ha hl hok hc hdram hx hloads => ?_⟩
  · obtain ⟨hcw, hct, hcg⟩ := ctxOf_parts s (s.mbxArgs m) x
    have hexec := exec_contextCreate ha hl hl' hw h1 hwall htile hdying hnone henc
    have hdram := dram_of_stores (State.takeCtx_stores s m (s.ctxOf (s.mbxArgs m) x))
    rw [takeCtx_joins m hc (by rw [hcw, hct, hcg, ← hw]; exact hg) hshort hbeds hroom] at hexec hdram
    obtain ⟨hcodec, hdue, hen, hqp, hans⟩ := createdCtx_parts s m c g (s.ctxOf (s.mbxArgs m) x) rfl
    refine ⟨_, hexec, ?_, fun d hd => ?_, hen, fun h0 => ?_, hdue, hdram, hans⟩
    · rw [ctx?_congr hcodec, joined_ctx]
    · rw [ctx?_congr hcodec, joined_other s g _ hd]
    · obtain ⟨henc', hstart⟩ := ctxOf_enc s x h0
      obtain ⟨hargs, -⟩ := henc h0
      rw [← hstart]
      exact hqp henc' (hstart ▸ encodeArgs_qpStart hargs)
  · obtain ⟨hcw, hct, hcg⟩ := ctxOf_parts s (s.mbxArgs m) x
    obtain ⟨hshort, hbeds⟩ := ctxOf_dec s x h1
    have hexec := exec_contextCreate ha (by omega) (by omega) hw (by omega) hwall htile hdying (by simpa [h1] using hnone) (by omega)
    have hdram := dram_of_stores (State.takeCtx_stores s m (s.ctxOf (s.mbxArgs m) x))
    rw [takeCtx_new m hc (by rw [hcw, hct, hcg, ← hw]; exact hg) (by rw [hshort, hbeds]; exact hpool) hroom] at hexec hdram
    obtain ⟨hcodec, -⟩ := createdCtx_parts (s.newGroup s.nextGroup (s.ctxOf (s.mbxArgs m) x).wall (if (s.ctxOf (s.mbxArgs m) x).geo.independent then some (s.ctxOf (s.mbxArgs m) x).tile else none)
      (s.ctxOf (s.mbxArgs m) x).maxShort (s.ctxOf (s.mbxArgs m) x).bedSlots) m c s.nextGroup (s.ctxOf (s.mbxArgs m) x) rfl
    have hgroup : ∀ {t u : State}, t.codec = u.codec → t.group s.nextGroup = u.group s.nextGroup := fun h => by rw [State.group, State.group, State.group?, State.group?, h]
    obtain ⟨hjw, hjs, hjb⟩ := joined_group (s.newGroup s.nextGroup (s.ctxOf (s.mbxArgs m) x).wall (if (s.ctxOf (s.mbxArgs m) x).geo.independent then some (s.ctxOf (s.mbxArgs m) x).tile else none)
      (s.ctxOf (s.mbxArgs m) x).maxShort (s.ctxOf (s.mbxArgs m) x).bedSlots) c s.nextGroup (s.ctxOf (s.mbxArgs m) x)
    obtain ⟨hnw, hns, hnb, -⟩ := newGroup_parts s s.nextGroup (s.ctxOf (s.mbxArgs m) x).wall (if (s.ctxOf (s.mbxArgs m) x).geo.independent then some (s.ctxOf (s.mbxArgs m) x).tile else none)
      (s.ctxOf (s.mbxArgs m) x).maxShort (s.ctxOf (s.mbxArgs m) x).bedSlots
    refine ⟨_, hexec, ?_, ?_, ?_, ?_, hdram⟩
    · rw [ctx?_congr hcodec, joined_ctx]
      rfl
    · exact ((congrArg Group.wall (hgroup hcodec)).trans (hjw.trans hnw)).trans (hcw.trans hw.symm)
    · exact ((congrArg Group.short (hgroup hcodec)).trans (hjs.trans hns)).trans hshort
    · exact ((congrArg Group.beds (hgroup hcodec)).trans (hjb.trans hnb)).trans hbeds
  · have hexec := exec_contextDestroy ha hl hc hz hx hend htable
    have hdram := dram_of_stores (State.destroy_stores s m [c] none)
    rw [destroy_idle m hx hidle] at hexec hdram
    obtain ⟨hnone, hen, hdue, hoff⟩ := removeCtx_parts (s.beginEnd c) c
    have hbegin : Off (F.MBX_STATUS_JOB_DONE :: queueFields ++ ctxRegFields ++ descFields ++ capacityFields) s ((s.beginEnd c).removeCtx c) := by
      refine Off.trans (Off.same ?_) hoff
      rw [State.beginEnd, modCtx_of hx]
      rfl
    have hres : Writes resultFields ((s.beginEnd c).removeCtx c) (((s.beginEnd c).removeCtx c).putResult m stOk []) := (Writes.refl _ _).putResult m (by decide) (by simp) rfl
    exact ⟨_, hexec, by rw [ctx?_congr hres.codec, hnone], by rw [hres.off.at_ _ _ rfl, hen], by rw [hres.haul, hdue], hdram, hbegin.answers m rfl (by decide) (by simp)⟩
  · exact ⟨_, exec_contextStats ha hl hc hx hfl, sets_putResult (s.setCtx? c _) m (by decide) (by rw [statsBytes_length]; decide)⟩
  · have hset : Sets (s.setCtx? c (some { x with charge := s.chargeAt c e })) [(F.SCH_CTX_EFFORT_CONFIGURED, c, e), (F.SCH_CTX_ARM_SHADOW_ARMED, c, 1)] (s.setEffort e c) := by
      rw [setEffort_eq e hx]
      exact ((Sets.refl _).putNew F.SCH_CTX_EFFORT_CONFIGURED c e rfl (by simp only [F.SCH_CTX_EFFORT_CONFIGURED]; omega)).putNew F.SCH_CTX_ARM_SHADOW_ARMED c 1 rfl (by decide)
    have hcap := refreshCapacity_writes (s.setEffort e c)
    have hres : Writes resultFields (s.setEffort e c).refreshCapacity ((s.setEffort e c).refreshCapacity.putResult m stOk []) := (Writes.refl _ _).putResult m (by decide) (by simp) rfl
    have hoff : Off (F.SCH_CTX_EFFORT_CONFIGURED :: F.SCH_CTX_ARM_SHADOW_ARMED :: capacityFields) s (s.setEffort e c).refreshCapacity := by
      rw [setEffort_eq e hx]
      exact (((Off.refl _ s).withCodec _).setF _ _ _ rfl |>.setF _ _ _ rfl).trans ((refreshCapacity_writes _).off.mono rfl)
    refine ⟨_, exec_effortSet ha hl hc he he3 hz hone hx hx' hcharge, ?_, ?_, ?_, hoff.answers m rfl (by decide) (by simp), (hoff.mono rfl).trans (hres.off.mono rfl)⟩
    · rw [hres.codec, hcap.codec, hset.1]
    · rw [hres.off.at_ _ _ rfl, hcap.off.at_ _ _ rfl]
      exact hset.2.1 (F.SCH_CTX_EFFORT_CONFIGURED, c, e) (by simp)
    · rw [hres.off.at_ _ _ rfl, hcap.off.at_ _ _ rfl]
      exact hset.2.1 (F.SCH_CTX_ARM_SHADOW_ARMED, c, 1) (by simp)
  · have hparams : Off (F.SCH_CTRL_ADMIT_PCT :: capacityFields) s (s.withParams lk (byteAt (s.mbxArgs m) 2) (leAt (s.mbxArgs m) 4 2) (leAt (s.mbxArgs m) 6 2) (byteAt (s.mbxArgs m) 8) ad) :=
      (((Off.refl _ s).withCodec _).setF _ _ _ rfl).trans ((refreshCapacity_writes _).off.mono rfl)
    have hadmit : (s.withParams lk (byteAt (s.mbxArgs m) 2) (leAt (s.mbxArgs m) 4 2) (leAt (s.mbxArgs m) 6 2) (byteAt (s.mbxArgs m) 8) ad).f F.SCH_CTRL_ADMIT_PCT 0 = ad := by
      rw [State.withParams, (refreshCapacity_writes _).off.at_ _ _ rfl, State.f_setF_same]
      exact Nat.mod_eq_of_lt (by simp only [F.SCH_CTRL_ADMIT_PCT]; omega)
    have hloop : Writes loopFields (s.withParams lk (byteAt (s.mbxArgs m) 2) (leAt (s.mbxArgs m) 4 2) (leAt (s.mbxArgs m) 6 2) (byteAt (s.mbxArgs m) 8) ad)
        (chainAll (s.ctxsOf (·.enc)) (State.setLoop (leAt (s.mbxArgs m) 4 2) (leAt (s.mbxArgs m) 6 2) (byteAt (s.mbxArgs m) 8)) _) := (Writes.refl _ _).chainAll _ _ fun c t => setLoop_writes _ _ _ c t
    have hres : ∀ u : State, Writes resultFields u (u.putResult m stOk []) := fun u => (Writes.refl _ _).putResult m (by decide) (by simp) rfl
    have hoff := (hparams.mono (gs := [F.SCH_CTRL_ADMIT_PCT, F.SCH_CTX_PI_KP, F.SCH_CTX_PI_KI, F.SCH_CTX_QP_QP_STEP_MAX, F.SCH_CTX_ARM_SHADOW_ARMED] ++ capacityFields) rfl).trans (hloop.off.mono rfl)
    refine ⟨_, exec_schParamSet ha hl hlk hlk' hhf had h50 h95 hqs hqs', ?_, ?_, fun c hc => ?_, hoff.answers m rfl (by decide) (by simp), (hoff.mono rfl).trans ((hres _).off.mono rfl)⟩
    · rw [(hres _).codec, hloop.codec, State.withParams, (refreshCapacity_writes _).codec, State.setF_codec, State.withCodec_codec]
    · rw [(hres _).off.at_ _ _ rfl, hloop.off.at_ _ _ rfl, hadmit]
    · simp only [(hres _).off.at_ F.SCH_CTX_PI_KP c rfl, (hres _).off.at_ F.SCH_CTX_PI_KI c rfl, (hres _).off.at_ F.SCH_CTX_QP_QP_STEP_MAX c rfl, (hres _).off.at_ F.SCH_CTX_ARM_SHADOW_ARMED c rfl]
      have hkp := leAt_lt (s.mbxArgs m) 4 2
      have hki := leAt_lt (s.mbxArgs m) 6 2
      have hqs16 : byteAt (s.mbxArgs m) 8 < 16 := by omega
      exact ⟨chain_setLoop hkp hki hqs16 _ hc (by simp [loopValues]), chain_setLoop hkp hki hqs16 _ hc (by simp [loopValues]), chain_setLoop hkp hki hqs16 _ hc (by simp [loopValues]),
        chain_setLoop hkp hki hqs16 _ hc (by simp [loopValues])⟩
  · have hload : s.loadOf (s.mbxArgs m) = { slot := k, fromDram := false, rows := byteAt (s.mbxArgs m) 4, qp := byteAt (s.mbxArgs m) 5, repeats := byteAt (s.mbxArgs m) 6, nameDelay := byteAt (s.mbxArgs m) 7, trickle := leAt (s.mbxArgs m) 8 4, addr := leAt (s.mbxArgs m) 12 8, gen := (Tab.get 0 x.gens k + 1) % 256, job := s.fw.nextJob, src := none } := by
      simp only [State.loadOf, ← hc, ← hk, ctx_of hx, hz]
      rfl
    refine ⟨_, exec_bedrockLoad ha hl hok hc hk hx hloads, ?_⟩
    rw [hload]
    exact sets_startJob (s.setCtx? c _).draw m _
  · have hexec := exec_bedrockLoad ha hl hok hc rfl hx hloads
    have hres := sets_startJob (s.setCtx? c (some { x with gens := Tab.set 0 x.gens (byteAt (s.mbxArgs m) 2) ((Tab.get 0 x.gens (byteAt (s.mbxArgs m) 2) + 1) % 256), loads := x.loads ++ [s.loadOf (s.mbxArgs m)] })).draw m (.bedrock c (byteAt (s.mbxArgs m) 2))
    refine ⟨_, hexec, ?_, hres.2.1⟩
    have hctx := (ctx?_congr hres.regsOnly.codec c).trans (ctx?_setCtx? _ _ _)
    rw [ctx_of hctx, List.length_append]
    rfl

end Sys2Proof.Machine

/-! Commands on lamp ports, index tables, dressing and channels (R203 to R205, R209, R221, R443). -/

namespace Sys2Proof.Machine

-- ## Steps over the ports of a chain

theorem codesAvoid_append {l l' : List (Fld × Nat × Nat)} {cs : List Nat} (h : codesAvoid l cs = true) (h' : codesAvoid l' cs = true) : codesAvoid (l ++ l') cs = true := by
  rw [codesAvoid, List.all_append, Bool.and_eq_true]
  exact ⟨h, h'⟩

theorem codesAvoid_flatMap {α : Type} {l : List α} {vals : α → List (Fld × Nat × Nat)} {cs : List Nat} (h : ∀ a, codesAvoid (vals a) cs = true) : codesAvoid (l.flatMap vals) cs = true := by
  refine List.all_eq_true.mpr fun e he => ?_
  obtain ⟨a, -, hea⟩ := List.mem_flatMap.mp he
  exact List.all_eq_true.mp (h a) e hea

theorem codesAvoid_map_flatMap {l' : List (Fld × Nat × Nat)} {α : Type} {l : List α} {vals : α → List (Fld × Nat × Nat)} (h : ∀ a, codesAvoid l' ((vals a).map (fun e => e.1.code)) = true) :
    codesAvoid l' ((l.flatMap vals).map (fun e => e.1.code)) = true := by
  refine List.all_eq_true.mpr fun e he => ?_
  rw [Bool.not_eq_true', ← Bool.not_eq_true, List.contains_iff_mem]
  intro hmem
  obtain ⟨e', he', hc⟩ := List.mem_map.mp hmem
  obtain ⟨a, -, hea⟩ := List.mem_flatMap.mp he'
  exact not_mem_of_codesAvoid (h a) e he (List.mem_map.mpr ⟨e', hea, hc⟩)

/-- A list of steps, each of which writes fields of its own index. -/
theorem Sets.chain {vals : Nat → List (Fld × Nat × Nat)} {g : Nat → State → State} (hg : ∀ a t, Sets t (vals a) (g a t)) (hat : ∀ a, ∀ e ∈ vals a, e.2.1 = a) (l : List Nat) (s : State) :
    Sets s (l.flatMap vals) (chainAll l g s) := by
  refine ⟨(RegsOnly.refl s).chainAll l g fun a u => (hg a u).regsOnly, fun e he => ?_, fun x i hx => ?_⟩
  · obtain ⟨a, ha, hea⟩ := List.mem_flatMap.mp he
    obtain rfl := hat a e hea
    exact chainAll_at (fun t => (hg _ t).2.1 e hea) (fun b t j hj => (hg b t).2.2 _ j fun e' he' hc => hj (hc.2.trans (hat b e' he'))) ha s
  · clear hat
    unfold Sys2Proof.Machine.chainAll
    induction l generalizing s with
    | nil => rfl
    | cons a l ih =>
      rw [List.foldl_cons, ih _ fun e he => hx e (List.mem_flatMap.mpr (by
        obtain ⟨b, hb, heb⟩ := List.mem_flatMap.mp he
        exact ⟨b, List.mem_cons_of_mem a hb, heb⟩))]
      exact (hg a s).2.2 x i fun e he => hx e (List.mem_flatMap.mpr ⟨a, List.mem_cons_self, he⟩)

/-- A change of parts beside the registers goes through a list of written fields. -/
theorem Sets.through {s t : State} {l : List (Fld × Nat × Nat)} (h : Sets s l t) {g : State → State} (hg : ∀ u v : State, g { u with regs := v.regs } = { g u with regs := (g v).regs }) (hr : ∀ u : State, (g u).regs = u.regs) :
    Sets (g s) l (g t) := by
  obtain ⟨hst, hset, hkept⟩ := h
  have hf : ∀ (u : State) (x : Fld) (i : Nat), (g u).f x i = u.f x i := fun u x i => by rw [State.f, State.f, hr]
  exact ⟨by rw [hst, hg], fun e he => (hf t _ _).trans (hset e he), fun x i hx => ((hf t x i).trans (hkept x i hx)).trans (hf s x i).symm⟩

-- ## LAMP_PORT_SET

theorem sets_shadowSplit (s : State) (x : Nat) {p : Nat × Nat} (h1 : p.1 < 256) (h2 : p.2 < 256) :
    Sets s [(F.RIV_CH_SPLIT_FIRST, x, p.1), (F.RIV_CH_SPLIT_LAST, x, p.2), (F.RIV_CH_CTRL_SHADOW_ARMED, x, 1)] (s.shadowSplit x p) :=
  (((Sets.refl s).putNew F.RIV_CH_SPLIT_FIRST x p.1 rfl h1).putNew F.RIV_CH_SPLIT_LAST x p.2 rfl h2).putNew F.RIV_CH_CTRL_SHADOW_ARMED x 1 rfl (by decide)

theorem sets_shadowTable (s : State) (x : Nat) {a : Nat} (h : a < 2 ^ 40) :
    Sets s [(F.RIV_CH_TABLE_LO_ADDR, x, a % 2 ^ 32), (F.RIV_CH_TABLE_HI_ADDR, x, a / 2 ^ 32), (F.RIV_CH_CTRL_SHADOW_ARMED, x, 1)] (s.shadowTable x a) :=
  (((Sets.refl s).putNew F.RIV_CH_TABLE_LO_ADDR x _ rfl (by simp only [F.RIV_CH_TABLE_LO_ADDR]; omega)).putNew F.RIV_CH_TABLE_HI_ADDR x _ rfl (by simp only [F.RIV_CH_TABLE_HI_ADDR]; omega)).putNew
    F.RIV_CH_CTRL_SHADOW_ARMED x 1 rfl (by decide)

theorem span_lt (c : Chain) (a x : Nat) {k : Nat} (hk : k ≤ c.n) (hn : c.n ≤ 64) : (c.span a x k).1 < 256 ∧ (c.span a x k).2 < 256 := by
  unfold Chain.span
  split_ifs <;> dsimp only <;> omega

/-- LAMP_PORT_SET whose form is in range. -/
theorem lampPort_form {a b n : Nat} (ha : a < 48) (hb : b < 48 ∨ b = 255) (hne : a ≠ b) (hn : n ≤ 1) : ¬(47 < a ∨ 47 < b ∧ b ≠ 255 ∨ a = b ∨ 1 < n) := by omega

theorem exec_lampPortRestore {s : State} {m a b k : Nat} (ha : s.accepts m 0x0034 = true) (hl : s.mbxLen m = 18) (haa : a = byteAt (s.mbxArgs m) 0) (hb : b = byteAt (s.mbxArgs m) 1) (hk : k = byteAt (s.mbxArgs m) 4)
    (hone : byteAt (s.mbxArgs m) 5 = 1) (ha48 : a < 48) (hb48 : b < 48 ∨ b = 255) (hne : a ≠ b) (hbound : (s.chain a).bound = true) (hport : (s.chain a).portB = b) (hkn : k ≤ (s.chain a).n) :
    exec (.lampPortSet m) s = .next ((State.setChain (chainAll ((s.chain a).ports a) (fun x u => u.shadowSplit x ((s.chain a).span a x k)) s) a { s.chain a with cuts := [] }).putResult m stOk
      (leBytes 4 ((chainAll ((s.chain a).ports a) (fun x u => u.shadowSplit x ((s.chain a).span a x k)) s).f F.LMP_PORT_LEAD_NS a))) := by
  rw [exec_served (c := .lampPortSet m) rfl ha (by simp [hl])]
  simp only [← haa, ← hb, ← hk, hone]
  rw [if_neg (lampPort_form ha48 hb48 hne (by omega)), if_pos trivial, if_neg (by simp only [hbound, hport, Bool.true_eq_false, ne_eq, not_true_eq_false, false_or]; omega)]

theorem exec_lampPortBind {s : State} {m a b w n k adv tab : Nat} {c : Chain} (ha : s.accepts m 0x0034 = true) (hl : s.mbxLen m = 18) (haa : a = byteAt (s.mbxArgs m) 0) (hb : b = byteAt (s.mbxArgs m) 1)
    (hw : w = byteAt (s.mbxArgs m) 2) (hn : n = byteAt (s.mbxArgs m) 3) (hk : k = byteAt (s.mbxArgs m) 4) (hzero : byteAt (s.mbxArgs m) 5 = 0) (hadv : adv = leAt (s.mbxArgs m) 6 4) (htab : tab = leAt (s.mbxArgs m) 10 8)
    (ha48 : a < 48) (hb48 : b < 48 ∨ b = 255) (hne : a ≠ b) (hok : s.lampPortArgsOk a b w n k adv tab = true) (hc : c = { bound := true, portB := b, wall := w, n := n }) :
    exec (.lampPortSet m) s = .next (State.putResult (chainAll (c.ports a) (fun x u => u.bindPort a c ((s.wall w).grid.getD 0) adv tab k x) (s.setChain a c).sameBank) m stOk
      (leBytes 4 ((chainAll (c.ports a) (fun x u => u.bindPort a c ((s.wall w).grid.getD 0) adv tab k x) (s.setChain a c).sameBank).f F.LMP_PORT_LEAD_NS a))) := by
  rw [exec_served (c := .lampPortSet m) rfl ha (by simp [hl])]
  simp only [← haa, ← hb, ← hw, ← hn, ← hk, ← hadv, ← htab, hzero, ← hc]
  rw [if_neg (lampPort_form ha48 hb48 hne (by omega)), if_neg (by decide), if_neg (by simp [hok])]

theorem bindPort_other (s : State) (a : Nat) (c : Chain) (grid adv tab k x : Nat) (y : Fld) {j : Nat} (hj : j ≠ x) : (s.bindPort a c grid adv tab k x).f y j = s.f y j := by
  have hset : ∀ (t : State) (z : Fld) (v : Nat), (t.setF z x v).f y j = t.f y j := fun t z v => f_setF_otherInst t z y v hj
  simp only [State.bindPort, State.shadowTable, State.shadowSplit, State.armChan, hset]

/-- What LAMP_PORT_SET writes for one port and its channel. -/
def Chain.bindValues (a : Nat) (c : Chain) (adv tab k x : Nat) : List (Fld × Nat) :=
  [(F.LMP_PORT_CTRL_EN, 1), (F.LMP_PORT_CTRL_SHADOW_ARMED, 1), (F.LMP_PORT_CTRL_PARTNER, (if !c.dual then 63 else if x = a then c.portB else a) % 2 ^ 6), (F.LMP_PORT_SYNC_ADV_NS, adv % 2 ^ 16), (F.RIV_CH_CTRL_EN, 1),
    (F.RIV_CH_CTRL_SHADOW_ARMED, 1), (F.RIV_CH_TABLE_LO_ADDR, tab % 2 ^ 32 % 2 ^ 32), (F.RIV_CH_TABLE_HI_ADDR, tab / 2 ^ 32 % 2 ^ 32), (F.RIV_CH_SPLIT_FIRST, (c.span a x k).1 % 2 ^ 8), (F.RIV_CH_SPLIT_LAST, (c.span a x k).2 % 2 ^ 8)]

theorem bindPort_own (s : State) (a : Nat) (c : Chain) (grid adv tab k x : Nat) : ∀ e ∈ c.bindValues a adv tab k x, (s.bindPort a c grid adv tab k x).f e.1 x = e.2 := by
  simp only [Chain.bindValues, List.forall_mem_cons]
  simp (disch := decide) only [State.bindPort, State.shadowTable, State.shadowSplit, State.armChan, State.f_setF_code]
  refine ⟨?_, ?_, ?_, ?_, ?_, ?_, ?_, ?_, ?_, ?_, by simp⟩ <;> exact State.f_setF_same _ _ _ _

theorem bindPort_regsOnly (s : State) (a : Nat) (c : Chain) (grid adv tab k x : Nat) : RegsOnly s (s.bindPort a c grid adv tab k x) := by
  unfold State.bindPort State.shadowTable State.shadowSplit State.armChan
  dsimp only
  exact ((((((((((((((RegsOnly.refl s).setF _ _ _).setF _ _ _).setF _ _ _).setF _ _ _).setF _ _ _).setF _ _ _).setF _ _ _).setF _ _ _).setF _ _ _).setF _ _ _).setF _ _ _).setF _ _ _).setF _ _ _).setF _ _ _

theorem bindPort_lead (s : State) (a : Nat) (c : Chain) (grid adv tab k x : Nat) : (s.bindPort a c grid adv tab k x).f F.LMP_PORT_LEAD_NS x < 2 ^ 24 := by
  simp (disch := decide) only [State.bindPort, State.shadowTable, State.shadowSplit, State.armChan, State.f_setF_code]
  rw [State.f_setF_same]
  exact Nat.mod_lt _ (by decide)


-- ## SCAN_MAP_LOAD

theorem exec_scanMapLoad {s : State} {m a tab : Nat} (ha : s.accepts m 0x0041 = true) (hl : s.mbxLen m = 9) (haa : a = byteAt (s.mbxArgs m) 0) (htab : tab = leAt (s.mbxArgs m) 1 8) (ha48 : a < 48)
    (hbound : (s.chain a).bound = true) (htab' : tab < 2 ^ 40) (hlock : s.lockElsewhere 2 = false) (hok : s.tableOk tab = true) :
    exec (.scanMapLoad m) s = .next ((chainAll ((s.chain a).ports a) (fun x u => u.shadowTable x tab) (s.setF F.SEM_LOCK_OWNER 2 1)).startJob m .tables) := by
  rw [exec_served (c := .scanMapLoad m) rfl ha (by simp [hl])]
  simp only [← haa, ← htab, hlock, hok]
  rw [if_neg (by simp only [hbound, Bool.true_eq_false, false_or]; omega)]
  rfl

-- ## DRESSING_LOAD

/-- The state without registers, memory transfers, DRAM and the model's choices. -/
def State.sansData (s : State) : State := { s with regs := [], mem := {}, dram := [], free := 0 }

@[simp] theorem sansData_setF (s : State) (x : Fld) (i v : Nat) : (s.setF x i v).sansData = s.sansData := Eq.trans rfl rfl

@[simp] theorem sansData_draw (s : State) : s.draw.sansData = s.sansData := Eq.trans rfl rfl

theorem codec_of_sansData {s t : State} (h : t.sansData = s.sansData) : t.codec = s.codec := congrArg (fun u => u.codec) h

theorem fw_of_sansData {s t : State} (h : t.sansData = s.sansData) : t.fw = s.fw := congrArg (fun u => u.fw) h

theorem sansData_withMem (s : State) (g : MemState → MemState) : (s.withMem g).sansData = s.sansData := Eq.trans rfl rfl

theorem sansData_putDram (s : State) (a : Nat) (bs : List Byte) : (s.putDram a bs).sansData = s.sansData := Eq.trans rfl rfl

theorem regs_putDram (s : State) (a : Nat) (bs : List Byte) : (s.putDram a bs).regs = s.regs := rfl

theorem regs_draw (s : State) : s.draw.regs = s.regs := rfl

/-- A transfer that is presented changes the arbiters alone. -/
theorem present_withMem (s : State) (q a : Nat) (write secure : Bool) : ∃ g, s.present q a write secure = s.withMem g := by
  unfold State.present
  split
  · exact ⟨_, rfl⟩
  · exact ⟨_, rfl⟩

theorem present_frame (s : State) (q a : Nat) (write secure : Bool) : (s.present q a write secure).sansData = s.sansData ∧ (s.present q a write secure).regs = s.regs := by
  obtain ⟨g, hg⟩ := present_withMem s q a write secure
  rw [hg]
  exact ⟨sansData_withMem s g, rfl⟩

/-- What a requester writes changes DRAM and the arbiters alone. -/
theorem putFor_frame (s : State) (q a : Nat) (bs : List Byte) (secure : Bool) : (s.putFor q a bs secure).sansData = s.sansData ∧ (s.putFor q a bs secure).regs = s.regs := by
  have hlines : (s.presentLines q a bs.length true secure).sansData = s.sansData ∧ (s.presentLines q a bs.length true secure).regs = s.regs :=
    ⟨chainAll_keep State.sansData _ _ (fun l t => (present_frame t q (64 * l) true secure).1) s, chainAll_keep State.regs _ _ (fun l t => (present_frame t q (64 * l) true secure).2) s⟩
  unfold State.putFor
  simp only
  split
  · exact ⟨(sansData_putDram _ _ _).trans hlines.1, hlines.2⟩
  · exact ⟨(chainAll_keep State.sansData _ _ (fun i t => sansData_putDram t _ _) _).trans hlines.1, (chainAll_keep State.regs _ _ (fun i t => regs_putDram t (a + i) _) _).trans hlines.2⟩

theorem dressedTable_frame (s : State) (tab c : Nat) : (s.dressedTable tab c).1.sansData = s.sansData ∧ (s.dressedTable tab c).1.regs = s.regs := by
  unfold State.dressedTable
  simp only
  constructor
  · rw [chainAll_keep State.sansData _ _ fun k u => ?_, (putFor_frame _ _ _ _ _).1, sansData_draw]
    split
    · exact (putFor_frame _ _ _ _ _).1
    · rw [sansData_draw, (putFor_frame _ _ _ _ _).1, (putFor_frame _ _ _ _ _).1]
  · rw [chainAll_keep State.regs _ _ fun k u => ?_, (putFor_frame _ _ _ _ _).2, regs_draw]
    split
    · exact (putFor_frame _ _ _ _ _).2
    · rw [regs_draw, (putFor_frame _ _ _ _ _).2, (putFor_frame _ _ _ _ _).2]

/-- The registers of a channel's shadow table. -/
def tableFields : List Fld := [F.RIV_CH_TABLE_LO_ADDR, F.RIV_CH_TABLE_HI_ADDR, F.RIV_CH_CTRL_SHADOW_ARMED]

theorem shadowTable_writes (s : State) (x a : Nat) : Writes tableFields s (s.shadowTable x a) := (((Writes.refl _ s).setF _ _ _ rfl).setF _ _ _ rfl).setF _ _ _ rfl

theorem dressChains_frame (s : State) (c : Nat) : (s.dressChains c).sansData = s.sansData ∧ Off tableFields s (s.dressChains c) := by
  unfold State.dressChains
  simp only
  constructor
  · refine chainAll_keep State.sansData _ _ (fun e t => ?_) s
    split
    · rw [chainAll_keep State.sansData _ _ fun x u => by simp only [State.shadowTable, State.armChan, sansData_setF], (dressedTable_frame _ _ _).1]
    · rfl
  · refine (Off.refl _ s).chainAll _ _ fun e t => ?_
    split
    · exact (Off.same (dressedTable_frame _ _ _).2).chainAll _ _ fun x u => (shadowTable_writes u x _).off
    · exact Off.refl _ t

theorem loadLuts_parts (s : State) : s.loadLuts.codec = s.codec ∧ s.loadLuts.fw = s.fw ∧ s.loadLuts.f F.DRS_CTRL_LUT_ARMED 0 = 1 ∧ Off [F.DRS_CTRL_LUT_ARMED] s s.loadLuts := by
  have hkeep : ∀ {β : Type} (part : State → β) (_ : ∀ t g, part (State.withLamp t g) = part t) (_ : ∀ t, part t.draw = part t) (_ : ∀ t x i v, part (State.setF t x i v) = part t), part s.loadLuts = part s := by
    intro β part hlamp hdraw hset
    unfold State.loadLuts
    simp only
    rw [hset, hdraw]
    exact chainAll_keep part _ _ (fun l t => chainAll_keep part _ _ (fun i u => hlamp u _) t) s
  refine ⟨hkeep State.codec (fun _ _ => rfl) (fun _ => rfl) (fun _ _ _ _ => rfl), hkeep State.fw (fun _ _ => rfl) (fun _ => rfl) (fun _ _ _ _ => rfl), ?_, ?_⟩
  · unfold State.loadLuts
    simp only
    rw [State.f_setF_same]
    rfl
  · unfold State.loadLuts
    exact ((((Off.refl _ s).chainAll _ _ fun l t => (Off.refl _ t).chainAll _ _ fun i u => (Off.refl _ u).withLamp _)).draw).setF _ _ _ rfl

theorem exec_dressingLoad {s : State} {m c : Nat} {x : Ctx} (ha : s.accepts m 0x0040 = true) (hl : s.mbxLen m = 14) (hc : c = leAt (s.mbxArgs m) 0 2) (haddr : leAt (s.mbxArgs m) 2 8 < 2 ^ 40) (hx : s.ctx? c = some x)
    (henc : x.enc = false) (hlock : s.lockElsewhere 2 = false) : exec (.dressingLoad m) s = .next ((((s.setF F.SEM_LOCK_OWNER 2 1).dressChains c).loadLuts).startJob m .tables) := by
  rw [exec_served (c := .dressingLoad m) rfl ha (by simp [hl])]
  simp only [← hc, hlock, hx]
  rw [if_neg]
  · rfl
  · simp only [Option.any_some, henc, Bool.not_false, Bool.true_eq_false, or_false]
    omega

-- ## RIV_CHANNEL_CONFIG

theorem sets_sameBank (s : State) : Sets s ((List.range 4).map (fun c => (F.DDR_REFRESH_MODE, c, 1))) s.sameBank := by
  have hone := Sets.chain (vals := fun c => [(F.DDR_REFRESH_MODE, c, 1)]) (g := fun c t => t.setF F.DDR_REFRESH_MODE c 1) (fun c t => (Sets.refl t).putNew F.DDR_REFRESH_MODE c 1 rfl (by decide)) (by simp) (List.range 4) s
  rwa [← List.map_eq_flatMap] at hone


/-- One more write of a field of a code not written before. -/
theorem Sets.snocNew {s t : State} {l : List (Fld × Nat × Nat)} (h : Sets s l t) (x : Fld) (i v : Nat) (hl : codesAvoid l [x.code] = true) : Sets s (l ++ [(x, i, v % 2 ^ x.len)]) (t.setF x i v) :=
  h.snoc x i v fun e he hc => not_mem_of_codesAvoid hl e he (by simp [hc.1])

/-- Writes of other fields follow. -/
theorem Sets.append {s t u : State} {l l' : List (Fld × Nat × Nat)} (h : Sets s l t) (h' : Sets t l' u) (hl : codesAvoid l (l'.map (fun e => e.1.code)) = true) : Sets s (l ++ l') u := by
  refine ⟨h.regsOnly.trans h'.regsOnly, fun e he => ?_, fun x i hx => ?_⟩
  · rcases List.mem_append.mp he with he | he
    · rw [h'.2.2 _ _ fun e' he' hc => not_mem_of_codesAvoid hl e he (List.mem_map.mpr ⟨e', he', hc.1.symm⟩)]
      exact h.2.1 e he
    · exact h'.2.1 e he
  · rw [h'.2.2 x i fun e he => hx e (List.mem_append_right l he), h.2.2 x i fun e he => hx e (List.mem_append_left l' he)]

theorem Sets.answerOff {s t : State} {m tag status : Nat} {data : List Byte} (h : Sets s (answer m tag status data) t) : Off resultFields s t := fun x i hx => h.2.2 x i fun _ he hc => hx _ (mem_resultFields he) hc.1

/-- What the start of a job leaves, and its answer. -/
theorem startJob_parts (s : State) (m : Nat) (w : JobWork) :
    Off resultFields s (s.startJob m w) ∧ (s.startJob m w).codec = s.codec ∧ (s.startJob m w).answered m (s.mbxTag m) 1 (leBytes 4 s.fw.nextJob) := by
  have hstart := sets_startJob s m w
  exact ⟨(Off.same rfl).trans hstart.answerOff, hstart.regsOnly.codec, hstart.2.1⟩

/-- The shadow set of one channel up to the first position of its split. -/
def State.rivWords (s : State) (v : List Byte) (n w : Nat) : State :=
  let t := (s.setF F.RIV_CH_CTRL_SOURCE n (w / 2 ^ 24)).setF F.RIV_CH_CTRL_RETRY_LIMIT n (w / 2 ^ 12)
  let t := (t.setF F.RIV_CH_CTRL_EN n (w / 2 ^ 8)).setF F.RIV_CH_TABLE_LO_ADDR n (leAt v 5 4)
  (t.setF F.RIV_CH_TABLE_HI_ADDR n (leAt v 9 4)).setF F.RIV_CH_SPLIT_FIRST n (byteAt v 13)

theorem exec_rivChannelConfig {s : State} {m n w : Nat} (ha : s.accepts m 0x0450 = true) (hl : s.mbxLen m = 17) (hn : n = byteAt (s.mbxArgs m) 0) (hw : w = leAt (s.mbxArgs m) 1 4) (hn64 : n < 64)
    (hbar : s.captureBarred n (w / 2 ^ 24 % 64) = true → 8 ≤ m) :
    exec (.rivChannelConfig m) s = .next (((State.setF (if w / 2 ^ 8 % 2 = 1 then (s.rivWords (s.mbxArgs m) n w).sameBank else s.rivWords (s.mbxArgs m) n w) F.RIV_CH_SPLIT_LAST n (byteAt (s.mbxArgs m) 14)).armChan n).putResult m stOk []) := by
  rw [exec_served (c := .rivChannelConfig m) rfl ha (by simp [hl])]
  simp only [← hn, ← hw]
  rw [if_neg (by omega), if_neg fun h => Nat.not_lt.mpr h.2 (hbar h.1)]
  rfl

/-- A job is entered on a state with fields written. -/
theorem Sets.startJob {s t : State} {l : List (Fld × Nat × Nat)} (h : Sets s l t) (m : Nat) (w : JobWork)
    (hl : codesAvoid l [F.MBX_RESULT_DATA.code, F.MBX_STATUS_RESULT_PENDING.code, F.MBX_STATUS_HELD.code, F.MBX_STATUS_BUSY.code, F.MBX_COMMAND_DATA.code] = true) :
    Sets (s.withJob m w) (l ++ answer m (s.mbxTag m) 1 (leBytes 4 s.fw.nextJob)) (t.startJob m w) := by
  have hjob := (h.through (g := fun u => u.withJob m w) (fun _ _ => rfl) (fun _ => rfl)).putAnswer m 1 (leBytes 4 s.fw.nextJob) hl (by decide) (by simp)
  have hstart : t.startJob m w = (t.withJob m w).putResult m 1 (leBytes 4 s.fw.nextJob) := by rw [← h.regsOnly.fw]; rfl
  rw [hstart]
  exact hjob

theorem sets_rivWords (s : State) (v : List Byte) (n w : Nat) :
    Sets s [(F.RIV_CH_CTRL_SOURCE, n, w / 2 ^ 24 % 64), (F.RIV_CH_CTRL_RETRY_LIMIT, n, w / 2 ^ 12 % 8), (F.RIV_CH_CTRL_EN, n, w / 2 ^ 8 % 2), (F.RIV_CH_TABLE_LO_ADDR, n, leAt v 5 4), (F.RIV_CH_TABLE_HI_ADDR, n, leAt v 9 4),
      (F.RIV_CH_SPLIT_FIRST, n, byteAt v 13)] (s.rivWords v n w) := by
  have hctrl := (((Sets.refl s).snocNew F.RIV_CH_CTRL_SOURCE n (w / 2 ^ 24) rfl).snocNew F.RIV_CH_CTRL_RETRY_LIMIT n (w / 2 ^ 12) rfl).snocNew F.RIV_CH_CTRL_EN n (w / 2 ^ 8) rfl
  exact ((hctrl.putNew F.RIV_CH_TABLE_LO_ADDR n _ rfl (leAt_lt v 5 4)).putNew F.RIV_CH_TABLE_HI_ADDR n _ rfl (leAt_lt v 9 4)).putNew F.RIV_CH_SPLIT_FIRST n _ rfl (byteAt_lt v 13)

/-- Settles O40: the shadow sets of ports and channels step by step, and the frame of a dressing package. -/
theorem lampCommands : Obligations.LampCommands := by
  unfold Obligations.LampCommands
  refine ⟨fun s m a b w n k adv tab c ha hl haa hb hw hn hk hzero hadv htab ha48 hb48 hne hok hc => ?_, fun s m a b k ha hl haa hb hk hone ha48 hb48 hne hbound hport hkn hn64 => ?_,
    fun s m a tab ha hl haa htab ha48 hbound htab' hlock hok => ?_, fun s m c x ha hl hc haddr hx henc hlock => ?_, fun s m n w ha hl hn hw hn64 hbar => ?_⟩
  · have hexec := exec_lampPortBind ha hl haa hb hw hn hk hzero hadv htab ha48 hb48 hne hok hc
    simp only [State.lampPortArgsOk, Bool.and_eq_true, decide_eq_true_eq, and_assoc] at hok
    obtain ⟨-, -, hn64, hkn, hadv16, htab40, -⟩ := hok
    have hcn : c.n = n ∧ c.portB = b := by rw [hc]; exact ⟨rfl, rfl⟩
    obtain ⟨hcn, hcb⟩ := hcn
    have hmem : a ∈ c.ports a := by
      unfold Chain.ports
      split <;> simp
    generalize hu : chainAll (c.ports a) (fun x u => u.bindPort a c ((s.wall w).grid.getD 0) adv tab k x) (s.setChain a c).sameBank = u at hexec
    have hregs : RegsOnly (s.setChain a c) u := hu ▸ ((sets_sameBank (s.setChain a c)).regsOnly.trans ((RegsOnly.refl _).chainAll _ _ fun x t => bindPort_regsOnly t a c _ adv tab k x))
    have hown : ∀ x ∈ c.ports a, ∀ e ∈ c.bindValues a adv tab k x, u.f e.1 x = e.2 := fun x hx e he =>
      hu ▸ chainAll_at (fun t => bindPort_own t a c _ adv tab k x e he) (fun y t j hj => bindPort_other t a c _ adv tab k y e.1 hj) hx _
    have hlead : u.f F.LMP_PORT_LEAD_NS a < 2 ^ 24 := by
      rw [← hu]
      unfold Chain.ports
      split
      · exact (bindPort_other _ a c _ adv tab k c.portB F.LMP_PORT_LEAD_NS (by rw [hcb]; exact hne)).trans_lt (bindPort_lead _ a c _ adv tab k a)
      · exact bindPort_lead _ a c _ adv tab k a
    have hres := (Writes.refl resultFields u).putResult m (status := stOk) (data := leBytes 4 (u.f F.LMP_PORT_LEAD_NS a)) (by decide) (by simp) rfl
    refine ⟨_, hexec, ?_, fun x hx => ?_, ?_, ?_, ?_⟩
    · rw [State.chain, hres.only.lamp, hregs.lamp]
      exact Tab.get_set_same _ _ _ _
    · obtain ⟨hfirst, hlast⟩ := span_lt c a x (k := k) (by omega) (by omega)
      have hv := hown x hx
      simp only [Chain.bindValues, List.forall_mem_cons] at hv
      obtain ⟨hen, harm, hpartner, hadvance, hchan, hchanArm, hlo, hhi, hsplit, hsplit', -⟩ := hv
      simp only [hres.off.at_ F.LMP_PORT_CTRL_EN x rfl, hres.off.at_ F.LMP_PORT_CTRL_SHADOW_ARMED x rfl, hres.off.at_ F.LMP_PORT_CTRL_PARTNER x rfl, hres.off.at_ F.LMP_PORT_SYNC_ADV_NS x rfl, hres.off.at_ F.RIV_CH_CTRL_EN x rfl,
        hres.off.at_ F.RIV_CH_CTRL_SHADOW_ARMED x rfl, hres.off.at_ F.RIV_CH_TABLE_LO_ADDR x rfl, hres.off.at_ F.RIV_CH_TABLE_HI_ADDR x rfl, hres.off.at_ F.RIV_CH_SPLIT_FIRST x rfl, hres.off.at_ F.RIV_CH_SPLIT_LAST x rfl]
      refine ⟨hen, harm, hpartner.trans ?_, hadvance.trans (Nat.mod_eq_of_lt hadv16), hchan, hchanArm, hlo.trans (Nat.mod_mod _ _), hhi.trans (Nat.mod_eq_of_lt (by omega)), hsplit.trans (Nat.mod_eq_of_lt hfirst),
        hsplit'.trans (Nat.mod_eq_of_lt hlast)⟩
      rw [Chain.dual, hcb]
      rcases hb48 with hb48 | hb48
      · rw [decide_eq_true hb48, if_neg (by decide), if_neg (show ¬b = 255 by omega)]
        split
        · omega
        · omega
      · rw [hb48]
        rfl
    · have hans := (sets_putResult u m (status := stOk) (data := leBytes 4 (u.f F.LMP_PORT_LEAD_NS a)) (by decide) (by simp)).2.1 (F.MBX_RESULT_DATA, 64 * m + 2, leAt (leBytes 4 (u.f F.LMP_PORT_LEAD_NS a)) 0 4)
        (by simp only [answer, List.mem_append, List.mem_map, List.mem_range]; exact .inl ⟨0, by decide, rfl⟩)
      rw [hans, hres.off.at_ _ _ rfl]
      exact leBytes_leAt_four _ (by omega)
    · rw [hres.only.dram, hregs.dram]
      rfl
    · rw [hres.codec, hregs.codec]
      rfl
  · have hspan := fun x => span_lt (s.chain a) a x hkn hn64
    have hsplit := Sets.chain (vals := fun x => [(F.RIV_CH_SPLIT_FIRST, x, ((s.chain a).span a x k).1), (F.RIV_CH_SPLIT_LAST, x, ((s.chain a).span a x k).2), (F.RIV_CH_CTRL_SHADOW_ARMED, x, 1)])
      (fun x t => sets_shadowSplit t x (hspan x).1 (hspan x).2) (by simp) ((s.chain a).ports a) s
    have hlead := hsplit.f_eq F.LMP_PORT_LEAD_NS a (codesAvoid_flatMap fun _ => rfl)
    refine ⟨_, exec_lampPortRestore ha hl haa hb hk hone ha48 hb48 hne hbound hport hkn, ?_⟩
    rw [hlead]
    exact (hsplit.through (g := fun u => u.setChain a { s.chain a with cuts := [] }) (fun _ _ => rfl) (fun _ => rfl)).putAnswer m 0 _ (codesAvoid_flatMap fun _ => rfl) (by decide) (by simp)
  · have htable := Sets.chain (vals := fun x => [(F.RIV_CH_TABLE_LO_ADDR, x, tab % 2 ^ 32), (F.RIV_CH_TABLE_HI_ADDR, x, tab / 2 ^ 32), (F.RIV_CH_CTRL_SHADOW_ARMED, x, 1)]) (fun x t => sets_shadowTable t x htab') (by simp)
      ((s.chain a).ports a) (s.setF F.SEM_LOCK_OWNER 2 1)
    have hlocked := ((Sets.refl s).putNew F.SEM_LOCK_OWNER 2 1 rfl (by decide)).append htable (codesAvoid_map_flatMap fun _ => rfl)
    refine ⟨_, exec_scanMapLoad ha hl haa htab ha48 hbound htab' hlock hok, ?_⟩
    refine (hlocked.startJob m .tables (codesAvoid_append rfl (codesAvoid_flatMap fun _ => rfl))).perm fun e => ?_
    simp only [List.mem_append, List.nil_append]
    tauto
  · obtain ⟨hdata, hoff⟩ := dressChains_frame (s.setF F.SEM_LOCK_OWNER 2 1) c
    obtain ⟨hcodec, hfw, harmed, hluts⟩ := loadLuts_parts ((s.setF F.SEM_LOCK_OWNER 2 1).dressChains c)
    obtain ⟨hres, hkept, hans⟩ := startJob_parts ((s.setF F.SEM_LOCK_OWNER 2 1).dressChains c).loadLuts m .tables
    have hfields : Off (F.DRS_CTRL_LUT_ARMED :: F.SEM_LOCK_OWNER :: tableFields) s ((s.setF F.SEM_LOCK_OWNER 2 1).dressChains c).loadLuts := (((Off.refl _ s).setF _ _ _ rfl).trans (hoff.mono rfl)).trans (hluts.mono rfl)
    have hnext : ((s.setF F.SEM_LOCK_OWNER 2 1).dressChains c).loadLuts.fw.nextJob = s.fw.nextJob := by
      rw [hfw]
      exact congrArg FwState.nextJob (fw_of_sansData hdata)
    rw [hnext, hfields.tag m rfl] at hans
    refine ⟨_, exec_dressingLoad ha hl hc haddr hx henc hlock, ?_, ?_, ?_, hans⟩
    · exact (hres.at_ F.DRS_CTRL_LUT_ARMED 0 rfl).trans harmed
    · exact (hres.at_ F.SEM_LOCK_OWNER 2 rfl).trans ((hluts.at_ F.SEM_LOCK_OWNER 2 rfl).trans ((hoff.at_ F.SEM_LOCK_OWNER 2 rfl).trans (State.f_setF_same _ _ _ _)))
    · exact hkept.trans (hcodec.trans (codec_of_sansData hdata))
  · refine ⟨_, exec_rivChannelConfig ha hl hn hw hn64 hbar, ?_⟩
    have hwords := sets_rivWords s (s.mbxArgs m) n w
    have hbank : Sets s ([(F.RIV_CH_CTRL_SOURCE, n, w / 2 ^ 24 % 64), (F.RIV_CH_CTRL_RETRY_LIMIT, n, w / 2 ^ 12 % 8), (F.RIV_CH_CTRL_EN, n, w / 2 ^ 8 % 2), (F.RIV_CH_TABLE_LO_ADDR, n, leAt (s.mbxArgs m) 5 4),
        (F.RIV_CH_TABLE_HI_ADDR, n, leAt (s.mbxArgs m) 9 4), (F.RIV_CH_SPLIT_FIRST, n, byteAt (s.mbxArgs m) 13)] ++ (if w / 2 ^ 8 % 2 = 1 then (List.range 4).map (fun c => (F.DDR_REFRESH_MODE, c, 1)) else []))
        (if w / 2 ^ 8 % 2 = 1 then (s.rivWords (s.mbxArgs m) n w).sameBank else s.rivWords (s.mbxArgs m) n w) := by
      split
      · exact hwords.append (sets_sameBank _) rfl
      · rw [List.append_nil]
        exact hwords
    have hcodes : ∀ cs : List Nat, codesAvoid ((List.range 4).map (fun c => (F.DDR_REFRESH_MODE, c, 1))) cs = true → codesAvoid (if w / 2 ^ 8 % 2 = 1 then (List.range 4).map (fun c => (F.DDR_REFRESH_MODE, c, 1)) else []) cs = true := by
      intro cs h
      split
      · exact h
      · rfl
    have hlast := (hbank.putNew F.RIV_CH_SPLIT_LAST n (byteAt (s.mbxArgs m) 14) (codesAvoid_append rfl (hcodes _ rfl)) (byteAt_lt _ _)).putNew F.RIV_CH_CTRL_SHADOW_ARMED n 1
      (codesAvoid_append (codesAvoid_append rfl (hcodes _ rfl)) rfl) (by decide)
    refine (hlast.putAnswer m 0 [] (codesAvoid_append (codesAvoid_append (codesAvoid_append rfl (hcodes _ rfl)) rfl) rfl) (by decide) (by simp)).perm fun e => ?_
    simp only [List.mem_append, List.mem_cons, List.not_mem_nil, or_false]
    tauto

end Sys2Proof.Machine

/-! Rule staging and commit by mailbox commands (R35, R251 to R253). -/

namespace Sys2Proof.Machine

/-- One more write, of a field that may have been written before. -/
theorem Sets.overwrite {s t : State} {l : List (Fld × Nat × Nat)} (h : Sets s l t) (x : Fld) (i v : Nat) :
    Sets s (l.filter (fun e => !(decide (e.1.code = x.code) && decide (e.2.1 = i))) ++ [(x, i, v % 2 ^ x.len)]) (t.setF x i v) := by
  refine ⟨h.regsOnly.setF x i v, fun e he => ?_, fun y j hy => ?_⟩
  · rcases List.mem_append.mp he with he | he
    · obtain ⟨hel, hkey⟩ := List.mem_filter.mp he
      rw [f_setF_ne _ fun h => by simp [h.1, h.2] at hkey]
      exact h.2.1 e hel
    · obtain rfl := List.mem_singleton.mp he
      exact State.f_setF_same _ _ _ _
  · have hxi : ¬(y.code = x.code ∧ j = i) := hy (x, i, v % 2 ^ x.len) (by simp)
    rw [f_setF_ne _ hxi]
    refine h.2.2 y j fun e he hc => ?_
    refine hy e (List.mem_append_left _ (List.mem_filter.mpr ⟨he, ?_⟩)) hc
    simpa using not_and_or.mp fun h => hxi ⟨hc.1.trans h.1, hc.2.trans h.2⟩

-- ## Staging

/-- The state in which a command stages: the version staged, and the fields of a clone that it made. -/
def State.staging (s : State) : State := if s.clsState = clsStaging then s else s.startClone.endClone

theorem enterStaging_eq {s : State} (h : s.clsState = clsIdle ∨ s.clsState = clsStaging) : s.enterStaging = some s.staging := by
  unfold State.enterStaging State.staging
  rcases h with h | h <;> rw [h] <;> rfl

/-- A clone that is made at once. -/
theorem clone_eq {s : State} (h : s.clsState = clsIdle) :
    s.startClone.endClone = ((((s.setF F.CLS_VERSION_STATE 0 clsCloning).withHaul (fun w => { w with staged := s.haul.live })).setF F.CLS_VERSION_STATE 0 clsStaging).setF F.CLS_STAGE_COUNT_EXACT 0 s.haul.live.nExact).setF
      F.CLS_STAGE_COUNT_TERN 0 s.haul.live.nTern := by
  have hcloning : (s.setF F.CLS_VERSION_STATE 0 clsCloning).clsState = clsCloning := State.f_setF_same _ _ _ _
  rw [State.startClone, if_pos h, State.endClone, if_neg (by rw [hcloning]; decide)]
  rfl

/-- The bank that a command stages in, with its counts. -/
def State.stagedBank (s : State) : Bank := if s.clsState = clsStaging then s.haul.staged else s.haul.live

theorem sets_staging {s : State} (h : s.clsState = clsIdle ∨ s.clsState = clsStaging) :
    Sets (s.withHaul (fun w => { w with staged := s.stagedBank }))
      [(F.CLS_VERSION_STATE, 0, clsStaging), (F.CLS_STAGE_COUNT_EXACT, 0, if s.clsState = clsStaging then s.f F.CLS_STAGE_COUNT_EXACT 0 else s.haul.live.nExact % 2 ^ 15),
        (F.CLS_STAGE_COUNT_TERN, 0, if s.clsState = clsStaging then s.f F.CLS_STAGE_COUNT_TERN 0 else s.haul.live.nTern % 2 ^ 10)] s.staging := by
  unfold State.staging State.stagedBank
  rcases h with h | h
  · have hidle : ¬s.clsState = clsStaging := by rw [h]; decide
    simp only [if_neg hidle]
    rw [clone_eq h]
    have hcloning := ((Sets.refl s).putNew F.CLS_VERSION_STATE 0 clsCloning rfl (by decide)).through (g := fun u => u.withHaul (fun w => { w with staged := s.haul.live })) (fun _ _ => rfl) (fun _ => rfl)
    refine hcloning.absorb (((((Sets.refl _).putNew F.CLS_VERSION_STATE 0 clsStaging rfl (by decide)).snocNew F.CLS_STAGE_COUNT_EXACT 0 _ rfl).snocNew F.CLS_STAGE_COUNT_TERN 0 _ rfl)) ?_
    simp
  · simp only [if_pos h]
    refine ⟨rfl, ?_, fun _ _ _ => rfl⟩
    simp only [List.forall_mem_cons]
    exact ⟨h, trivial, trivial, by simp⟩

theorem staging_haul {s : State} (h : s.clsState = clsIdle ∨ s.clsState = clsStaging) : s.staging.haul = { s.haul with staged := s.stagedBank } := (sets_staging h).regsOnly.haul

-- ## ROUTE_SET

theorem stageRules_off (s : State) : Off [F.CLS_STAGE_COUNT_EXACT, F.CLS_STAGE_COUNT_TERN] s s.stageRules := (((Off.refl _ s).withHaul _).setF _ _ _ rfl).setF _ _ _ rfl

/-- The rules that firmware stages change the staged version alone. -/
theorem stageRules_haul (s : State) : ∃ b, s.stageRules.haul = { s.haul with staged := b } := ⟨_, rfl⟩

/-- The route of ROUTE_SET takes the place of one of the same tiles. -/
def State.withRoute (s : State) (r : Route) : State :=
  s.withHaul (fun w => { w with routes := r :: w.routes.filter (fun x => ¬ (x.wall = r.wall ∧ x.lo = r.lo ∧ x.hi = r.hi)) })

/-- The route that ROUTE_SET asks for. -/
def State.routeOf (s : State) (a : List Byte) : Route := s.routeTo (byteAt a 0) (leAt a 1 2) (leAt a 3 2) (leAt a 5 2) (byteAt a 7)

theorem exec_routeSet {s : State} {m : Nat} (ha : s.accepts m 0x0030 = true) (hl : s.mbxLen m = 8) (hwall : byteAt (s.mbxArgs m) 0 ∈ s.codec.listed) (htiles : leAt (s.mbxArgs m) 1 2 ≤ leAt (s.mbxArgs m) 3 2)
    (howner : 1 ≤ leAt (s.mbxArgs m) 5 2) (howner' : leAt (s.mbxArgs m) 5 2 ≤ 0xFFE) (hlock : s.lockElsewhere 0 = false) (hstate : s.clsState = clsIdle ∨ s.clsState = clsStaging) :
    exec (.routeSet m) s = .next (State.putResult ((s.staging.withRoute (s.routeOf (s.mbxArgs m))).stageRules.setF F.SEM_LOCK_OWNER 0 1) m stOk []) := by
  rw [exec_served (c := .routeSet m) rfl ha (by simp [hl])]
  simp only [hlock, enterStaging_eq hstate]
  rw [if_neg]
  · rfl
  · simp only [State.routeTo, hwall, not_true_eq_false, false_or]
    omega

-- ## RULE_STAGE

/-- The number of the first field, and of the entries, that RULE_STAGE may count. -/
theorem exec_ruleStage {s : State} {m i n size : Nat} {tern : Bool} (ha : s.accepts m 0x0420 = true) (hl : 36 ≤ s.mbxLen m) (hl' : s.mbxLen m ≤ 244) (hk : byteAt (s.mbxArgs m) 0 ≤ 1)
    (htern : tern = decide (byteAt (s.mbxArgs m) 0 = 1)) (hsize : size = if tern then 48 else 32) (hlen : (s.mbxArgs m).length = 4 + size * n) (hn : 1 ≤ n) (hz : byteAt (s.mbxArgs m) 1 = 0) (hi : i = leAt (s.mbxArgs m) 2 2)
    (hrange : i + n ≤ if tern then 512 else 16384) (hlock : s.lockElsewhere 0 = false) (hstate : s.clsState = clsIdle ∨ s.clsState = clsStaging) {x : Fld} (hx : x = if tern then F.CLS_STAGE_COUNT_TERN else F.CLS_STAGE_COUNT_EXACT)
    {u : State} (hu : u = (s.staging.withHaul (fun w => { w with staged := (List.range n).foldl (fun b k => b.putRaw tern (i + k) (sliceOf (s.mbxArgs m) (4 + size * k) size)) s.staging.haul.staged })).setF F.SEM_LOCK_OWNER 0 1) :
    exec (.ruleStage m) s = .next ((u.setF x 0 (max (u.f x 0) (i + n))).putResult m stOk []) := by
  have hsize0 : 0 < size := by rw [hsize]; split <;> decide
  have hcount : ((s.mbxArgs m).length - 4) / size = n := by rw [hlen, Nat.add_sub_cancel_left, Nat.mul_div_cancel_left _ hsize0]
  have hwhole : ((s.mbxArgs m).length - 4) % size = 0 := by rw [hlen, Nat.add_sub_cancel_left, Nat.mul_mod_right]
  rw [exec_served (c := .ruleStage m) rfl ha (by simp [hl, hl'])]
  simp only [← htern, ← hsize, ← hi, hcount, hwhole, hlock, enterStaging_eq hstate, ← hx, ← hu]
  rw [if_neg (by omega), if_neg (by omega)]
  rfl


/-- The count that RULE_STAGE raises, and its answer. -/
theorem sets_ruleCount {s u : State} {ne nt k : Nat} (m : Nat) (tern : Bool)
    (h : Sets s [(F.CLS_VERSION_STATE, 0, clsStaging), (F.CLS_STAGE_COUNT_EXACT, 0, ne), (F.CLS_STAGE_COUNT_TERN, 0, nt), (F.SEM_LOCK_OWNER, 0, 1)] u) {x : Fld} (hx : x = if tern then F.CLS_STAGE_COUNT_TERN else F.CLS_STAGE_COUNT_EXACT) :
    Sets s ([(F.CLS_STAGE_COUNT_EXACT, 0, if tern then ne else max ne k % 2 ^ 15), (F.CLS_STAGE_COUNT_TERN, 0, if tern then max nt k % 2 ^ 10 else nt), (F.CLS_VERSION_STATE, 0, clsStaging), (F.SEM_LOCK_OWNER, 0, 1)] ++
      answer m (s.mbxTag m) 0 []) ((u.setF x 0 (max (u.f x 0) k)).putResult m stOk []) := by
  have hexact : u.f F.CLS_STAGE_COUNT_EXACT 0 = ne := h.2.1 (F.CLS_STAGE_COUNT_EXACT, 0, ne) (by simp)
  have htern : u.f F.CLS_STAGE_COUNT_TERN 0 = nt := h.2.1 (F.CLS_STAGE_COUNT_TERN, 0, nt) (by simp)
  subst hx
  cases tern
  · have hcount : Sets s [(F.CLS_VERSION_STATE, 0, clsStaging), (F.CLS_STAGE_COUNT_TERN, 0, nt), (F.SEM_LOCK_OWNER, 0, 1), (F.CLS_STAGE_COUNT_EXACT, 0, max ne k % 2 ^ 15)] _ := h.overwrite F.CLS_STAGE_COUNT_EXACT 0 (max ne k)
    simp only [Bool.false_eq_true, if_false, hexact]
    refine (hcount.putAnswer m 0 [] rfl (by decide) (by simp)).perm fun e => ?_
    simp only [List.mem_append, List.mem_cons, List.not_mem_nil, or_false]
    tauto
  · have hcount : Sets s [(F.CLS_VERSION_STATE, 0, clsStaging), (F.CLS_STAGE_COUNT_EXACT, 0, ne), (F.SEM_LOCK_OWNER, 0, 1), (F.CLS_STAGE_COUNT_TERN, 0, max nt k % 2 ^ 10)] _ := h.overwrite F.CLS_STAGE_COUNT_TERN 0 (max nt k)
    simp only [if_true, htern]
    refine (hcount.putAnswer m 0 [] rfl (by decide) (by simp)).perm fun e => ?_
    simp only [List.mem_append, List.mem_cons, List.not_mem_nil, or_false]
    tauto

-- ## RULE_COMMIT

/-- The bank that GO checks. -/
def State.bankToGo (s : State) : Bank := { s.haul.staged with nExact := s.f F.CLS_STAGE_COUNT_EXACT 0, nTern := s.f F.CLS_STAGE_COUNT_TERN 0 }

/-- The first refusal of GO; 0: none. -/
def State.goError (s : State) : Nat := s.stageError s.bankToGo (s.f F.CLS_STAGE_COUNT_EXACT 0) (s.f F.CLS_STAGE_COUNT_TERN 0)

theorem startGo_refused {s : State} (h : s.clsState = clsStaging) (he : s.goError ≠ 0) : s.startGo = s.setF F.CLS_COMMIT_ERR 0 s.goError := by
  rw [State.startGo, if_neg (not_not.mpr h)]
  exact if_pos he

theorem goError_le (s : State) : s.goError ≤ 5 := by
  unfold State.goError State.stageError
  split_ifs <;> decide

/-- The banks of a commit that is not refused. -/
def State.goneLive (s : State) : State := s.withHaul (fun w => { w.markOld with old := w.live, live := s.bankToGo, staged := {} })

theorem sets_startGo {s : State} (h : s.clsState = clsStaging) (he : s.goError = 0) :
    Sets s.goneLive [(F.CLS_COMMIT_ERR, 0, 0), (F.CLS_VERSION_OLD, 0, s.f F.CLS_VERSION_LIVE 0 % 256), (F.CLS_VERSION_LIVE, 0, s.f F.CLS_VERSION_STAGED 0 % 256), (F.CLS_VERSION_STAGED, 0, (s.f F.CLS_VERSION_STAGED 0 + 1) % 256),
      (F.CLS_VERSION_STATE, 0, 3)] s.startGo := by
  have hgo : s.startGo = ((((s.goneLive.setF F.CLS_COMMIT_ERR 0 0).setF F.CLS_VERSION_OLD 0 (s.f F.CLS_VERSION_LIVE 0)).setF F.CLS_VERSION_LIVE 0 (s.f F.CLS_VERSION_STAGED 0)).setF F.CLS_VERSION_STAGED 0
      (s.f F.CLS_VERSION_STAGED 0 % 2 ^ 8 + 1)).setF F.CLS_VERSION_STATE 0 clsDraining := by
    have herr : s.stageError { s.haul.staged with nExact := s.f F.CLS_STAGE_COUNT_EXACT 0, nTern := s.f F.CLS_STAGE_COUNT_TERN 0 } (s.f F.CLS_STAGE_COUNT_EXACT 0) (s.f F.CLS_STAGE_COUNT_TERN 0) = 0 := he
    rw [State.startGo, if_neg (not_not.mpr h)]
    simp only [herr, ne_eq, not_true_eq_false, if_false]
    simp (disch := decide) only [State.f_setF_code, State.f_withHaul, State.f_setF_same]
    rfl
  have hsets := ((((Sets.refl s.goneLive).putNew F.CLS_COMMIT_ERR 0 0 rfl (by decide)).snocNew F.CLS_VERSION_OLD 0 (s.f F.CLS_VERSION_LIVE 0) rfl).snocNew F.CLS_VERSION_LIVE 0 (s.f F.CLS_VERSION_STAGED 0) rfl).snocNew F.CLS_VERSION_STAGED 0
    (s.f F.CLS_VERSION_STAGED 0 % 2 ^ 8 + 1) rfl
  have hnext : (s.f F.CLS_VERSION_STAGED 0 % 2 ^ 8 + 1) % 2 ^ F.CLS_VERSION_STAGED.len = (s.f F.CLS_VERSION_STAGED 0 + 1) % 256 := by
    simp only [F.CLS_VERSION_STAGED]
    omega
  rw [hgo]
  rw [hnext] at hsets
  exact hsets.putNew F.CLS_VERSION_STATE 0 clsDraining rfl (by decide)

theorem exec_ruleCommit {s : State} {m : Nat} (ha : s.accepts m 0x0031 = true) (hl : s.mbxLen m = 0) (hlock : s.lockElsewhere 0 = false) (hstate : s.clsState = clsStaging) :
    exec (.ruleCommit m) s = .next (if s.startGo.f F.CLS_COMMIT_ERR 0 ≠ 0 then s.startGo.putResult m (commitStatus (s.startGo.f F.CLS_COMMIT_ERR 0)) [] else s.startGo.withHaul (fun w => { w with commitFor := [.mailbox m] })) := by
  rw [exec_served (c := .ruleCommit m) rfl ha (by simp [hl])]
  simp only [hlock]
  rw [if_neg Bool.false_ne_true, if_neg (not_not.mpr hstate)]

/-- Settles O41: staging under lock 0, and both ends of GO. -/
theorem ruleCommands : Obligations.RuleCommands := by
  unfold Obligations.RuleCommands
  refine ⟨fun s m ha hl hwall htiles howner howner' hlock hstate => ?_, fun s m i n size ne nt tern b ha hl hl' hlen hk htern hsize hargs hn hz hi hrange hlock hstate hb hne hnt => ?_,
    fun s m ne nt b ha hl hlock hstate hne hnt hb he => ?_, fun s m ne nt e ha hl hlock hstate hne hnt he he0 => ?_⟩
  · have hstaging := sets_staging hstate
    have hroute : Off [F.CLS_STAGE_COUNT_EXACT, F.CLS_STAGE_COUNT_TERN] s.staging (s.staging.withRoute (s.routeOf (s.mbxArgs m))).stageRules := ((Off.refl _ _).withHaul _).trans (stageRules_off _)
    have hstaged : Off [F.CLS_VERSION_STATE, F.CLS_STAGE_COUNT_EXACT, F.CLS_STAGE_COUNT_TERN] s s.staging := ((Off.refl _ s).withHaul _).trans fun x j hx => hstaging.2.2 x j (by
      simp only [List.forall_mem_cons]
      exact ⟨fun h => hx _ (by simp) h.1, fun h => hx _ (by simp) h.1, fun h => hx _ (by simp) h.1, by simp⟩)
    obtain ⟨bank, hbank⟩ := stageRules_haul (s.staging.withRoute (s.routeOf (s.mbxArgs m)))
    have hhaul : (s.staging.withRoute (s.routeOf (s.mbxArgs m))).stageRules.haul.live = s.haul.live ∧ (s.staging.withRoute (s.routeOf (s.mbxArgs m))).stageRules.haul.routes =
        s.routeOf (s.mbxArgs m) :: s.haul.routes.filter (fun x => ¬ (x.wall = byteAt (s.mbxArgs m) 0 ∧ x.lo = leAt (s.mbxArgs m) 1 2 ∧ x.hi = leAt (s.mbxArgs m) 3 2)) := by
      rw [hbank]
      simp only [State.withRoute, State.withHaul_haul, staging_haul hstate]
      exact ⟨trivial, rfl⟩
    have hres := fun u : State => (Writes.refl resultFields u).putResult m (status := stOk) (data := []) (by decide) (by simp) rfl
    have hlocked : Off [F.CLS_VERSION_STATE, F.CLS_STAGE_COUNT_EXACT, F.CLS_STAGE_COUNT_TERN, F.SEM_LOCK_OWNER] s ((s.staging.withRoute (s.routeOf (s.mbxArgs m))).stageRules.setF F.SEM_LOCK_OWNER 0 1) :=
      ((hstaged.mono rfl).trans (hroute.mono rfl)).setF _ _ _ rfl
    refine ⟨_, exec_routeSet ha hl hwall htiles howner howner' hlock hstate, ?_, ?_, ?_, ?_, hlocked.answers m rfl (by decide) (by simp)⟩
    · rw [State.clsState, (hres _).off.at_ _ _ rfl, State.f_setF_code _ _ _ _ _ _ (by decide), hroute.at_ _ _ rfl]
      exact hstaging.2.1 (F.CLS_VERSION_STATE, 0, clsStaging) (by simp)
    · rw [(hres _).off.at_ _ _ rfl, State.f_setF_same]
      rfl
    · rw [(hres _).haul, State.setF_haul, hhaul.1]
    · rw [(hres _).haul, State.setF_haul, hhaul.2]
      rfl
  · have hstaging := sets_staging hstate
    have hbank : s.staging.haul.staged = b := by rw [staging_haul hstate, hb]; rfl
    have hraw : Sets (s.withHaul (fun w => { w with staged := (List.range n).foldl (fun acc k => acc.putRaw tern (i + k) (sliceOf (s.mbxArgs m) (4 + size * k) size)) b })) _ _ := (hstaging.through (g := fun u => u.withHaul (fun w => { w with staged := (List.range n).foldl (fun acc k => acc.putRaw tern (i + k) (sliceOf (s.mbxArgs m) (4 + size * k) size)) b }))
      (fun _ _ => rfl) (fun _ => rfl)).putNew F.SEM_LOCK_OWNER 0 1 rfl (by decide)
    rw [← hne, ← hnt] at hraw
    have hexec := exec_ruleStage ha hl hl' hk htern hsize hargs hn hz hi hrange hlock hstate rfl rfl
    rw [hbank] at hexec
    exact ⟨_, hexec, sets_ruleCount m tern hraw rfl⟩
  · have hbank : s.bankToGo = b := by rw [hb, hne, hnt]; rfl
    have hgo := sets_startGo hstate (by rw [State.goError, hbank, ← hne, ← hnt]; exact he)
    have hclear := hgo.2.1 (F.CLS_COMMIT_ERR, 0, 0) (by simp)
    refine ⟨_, by rw [exec_ruleCommit ha hl hlock hstate, if_neg (not_not.mpr hclear)], ?_⟩
    rw [State.goneLive, hbank] at hgo
    exact hgo.through (g := fun u => u.withHaul (fun w => { w with commitFor := [.mailbox m] })) (fun _ _ => rfl) (fun _ => rfl)
  · have herr : s.goError = e := by rw [State.goError, State.bankToGo, ← hne, ← hnt, ← he]
    have hle := goError_le s
    have hgo := startGo_refused hstate (by rw [herr]; exact he0)
    have hset : Sets s [(F.CLS_COMMIT_ERR, 0, e)] s.startGo := by
      rw [hgo, herr]
      exact (Sets.refl s).putNew F.CLS_COMMIT_ERR 0 e rfl (by simp only [F.CLS_COMMIT_ERR]; omega)
    have hf : s.startGo.f F.CLS_COMMIT_ERR 0 = e := hset.2.1 (F.CLS_COMMIT_ERR, 0, e) (by simp)
    refine ⟨_, by rw [exec_ruleCommit ha hl hlock hstate, hf, if_pos he0], ?_⟩
    have hstatus : commitStatus e = if e = 5 then 0x0030 else 0x0012 := rfl
    rw [hstatus]
    exact hset.putAnswer m _ [] rfl (by split <;> decide) (by simp)


end Sys2Proof.Machine

/-! Commands on haul ports, the device address and ingress ports (R35, R226, R259, R340). -/

namespace Sys2Proof.Machine

-- ## HAUL_PORT_SET

/-- The fields of a haul port that HAUL_PORT_SET writes. -/
def haulPortValues (a : List Byte) (p : Nat) : List (Fld × Nat × Nat) :=
  [(F.HAUL_CTRL_MODE, p, byteAt a 1), (F.HAUL_CTRL_LANES, p, byteAt a 2), (F.HAUL_CTRL_RATE, p, byteAt a 3), (F.HAUL_CTRL_ENCAP, p, byteAt a 4), (F.HAUL_MTU_BYTES, p, leAt a 5 2), (F.HAUL_MAC_LO_MAC, p, leAt a 7 4),
    (F.HAUL_MAC_HI_MAC, p, leAt a 11 2), (F.HAUL_CTRL_MGMT_TRUST, p, byteAt a 13 % 2), (F.HAUL_CTRL_PROMISC, p, byteAt a 13 / 2), (F.HAUL_CTRL_EN, p, 1), (F.TMG_PORT_CTRL_EN, p, 1)]

theorem sets_writeHaulPort (s : State) {a : List Byte} {p : Nat} (hp : p = byteAt a 0) (h1 : byteAt a 1 ≤ 2) (h2 : byteAt a 2 ≤ 2) (h3 : byteAt a 3 ≤ 2) (h4 : byteAt a 4 ≤ 2) (hmtu : leAt a 5 2 ≤ frameMax) (h13 : byteAt a 13 ≤ 3) :
    Sets s (haulPortValues a p) (s.writeHaulPort a) := by
  have hframe : leAt a 5 2 < 2 ^ 14 := Nat.lt_of_le_of_lt hmtu (by decide)
  subst hp
  have hmode := (((Sets.refl s).putNew F.HAUL_CTRL_MODE (byteAt a 0) (byteAt a 1) rfl (by simp only [F.HAUL_CTRL_MODE]; omega)).putNew F.HAUL_CTRL_LANES (byteAt a 0) (byteAt a 2) rfl (by simp only [F.HAUL_CTRL_LANES]; omega)).putNew
    F.HAUL_CTRL_RATE (byteAt a 0) (byteAt a 3) rfl (by simp only [F.HAUL_CTRL_RATE]; omega)
  have hmac := (((hmode.putNew F.HAUL_CTRL_ENCAP (byteAt a 0) (byteAt a 4) rfl (by simp only [F.HAUL_CTRL_ENCAP]; omega)).putNew F.HAUL_MTU_BYTES (byteAt a 0) (leAt a 5 2) rfl hframe).putNew F.HAUL_MAC_LO_MAC (byteAt a 0)
    (leAt a 7 4) rfl (leAt_lt a 7 4)).putNew F.HAUL_MAC_HI_MAC (byteAt a 0) (leAt a 11 2) rfl (leAt_lt a 11 2)
  exact (((hmac.putNew F.HAUL_CTRL_MGMT_TRUST (byteAt a 0) (byteAt a 13 % 2) rfl (by simp only [F.HAUL_CTRL_MGMT_TRUST]; omega)).putNew F.HAUL_CTRL_PROMISC (byteAt a 0) (byteAt a 13 / 2) rfl
    (by simp only [F.HAUL_CTRL_PROMISC]; omega)).putNew F.HAUL_CTRL_EN (byteAt a 0) 1 rfl (by decide)).putNew F.TMG_PORT_CTRL_EN (byteAt a 0) 1 rfl (by decide)

/-- A link that goes down, after writes of other fields. -/
theorem Sets.linkDown {s t : State} {l : List (Fld × Nat × Nat)} (h : Sets s l t) (p : Nat) (hl : codesAvoid l [F.HAUL_STATUS_LINK.code, F.HAUL_STATUS_ALIGNED.code, F.HAUL_STATUS_AN_DONE.code] = true) :
    Sets s (l ++ [(F.HAUL_STATUS_LINK, p, 0), (F.HAUL_STATUS_ALIGNED, p, 0), (F.HAUL_STATUS_AN_DONE, p, 0)]) (t.linkDown p) :=
  h.append ((((Sets.refl t).putNew F.HAUL_STATUS_LINK p 0 rfl (by decide)).putNew F.HAUL_STATUS_ALIGNED p 0 rfl (by decide)).putNew F.HAUL_STATUS_AN_DONE p 0 rfl (by decide)) hl

-- ## DEVICE_ADDRESS_SET

/-- The registers of the device address and of the ring. -/
def addressValues (a : List Byte) : List (Fld × Nat × Nat) :=
  [(F.CLS_DEVICE_ADDR, 0, leAt a 0 2), (F.CLS_RING_EN, 0, if byteAt a 2 = 0 then 0 else 1)] ++
    (if byteAt a 2 = 0 then [] else [(F.CLS_RING_SIZE, 0, byteAt a 2), (F.CLS_RING_POS, 0, byteAt a 3), (F.CLS_RING_CW_PORT, 0, byteAt a 4), (F.CLS_RING_CCW_PORT, 0, byteAt a 5)])

/-- What the device address command writes before its result. -/
def State.addressed (s : State) (a : List Byte) : State := (s.writeAddress a).withHaul (fun w => { w with restageDue := true })

theorem sets_addressed {s : State} {a : List Byte} (h : s.addressOk a = true) :
    Sets ((s.withCodec (fun w => { w with listed := (a.drop 8).map (·.toNat) })).withHaul (fun w => { w with restageDue := true })) (addressValues a) (s.addressed a) := by
  simp only [State.addressOk, Bool.and_eq_true, Bool.or_eq_true, decide_eq_true_eq, and_assoc] at h
  obtain ⟨-, haddr, -, -, -, -, hring, -⟩ := h
  have hdevice := ((Sets.refl s).putNew F.CLS_DEVICE_ADDR 0 (leAt a 0 2) rfl (by simp only [F.CLS_DEVICE_ADDR]; omega)).putNew F.CLS_RING_EN 0 (if byteAt a 2 = 0 then 0 else 1) rfl (by split <;> decide)
  have hregs : Sets s (addressValues a) (if byteAt a 2 = 0 then ((s.setF F.CLS_DEVICE_ADDR 0 (leAt a 0 2)).setF F.CLS_RING_EN 0 (if byteAt a 2 = 0 then 0 else 1)) else
      (((((s.setF F.CLS_DEVICE_ADDR 0 (leAt a 0 2)).setF F.CLS_RING_EN 0 (if byteAt a 2 = 0 then 0 else 1)).setF F.CLS_RING_SIZE 0 (byteAt a 2)).setF F.CLS_RING_POS 0 (byteAt a 3)).setF F.CLS_RING_CW_PORT 0 (byteAt a 4)).setF F.CLS_RING_CCW_PORT 0 (byteAt a 5)) := by
    unfold addressValues
    by_cases hn : byteAt a 2 = 0
    · simp only [if_pos hn] at hdevice ⊢
      exact hdevice
    · simp only [if_neg hn] at hdevice ⊢
      have hports : byteAt a 4 ≤ 5 ∧ byteAt a 5 ≤ 5 := by
        rcases hring with hring | hring
        · exact absurd hring hn
        · obtain ⟨-, -, -, hcw, hccw, -⟩ := hring
          exact ⟨hcw, hccw⟩
      obtain ⟨hcw, hccw⟩ := hports
      exact (((hdevice.putNew F.CLS_RING_SIZE 0 _ rfl (byteAt_lt a 2)).putNew F.CLS_RING_POS 0 _ rfl (byteAt_lt a 3)).putNew F.CLS_RING_CW_PORT 0 (byteAt a 4) rfl (by simp only [F.CLS_RING_CW_PORT]; omega)).putNew F.CLS_RING_CCW_PORT 0 (byteAt a 5) rfl
        (by simp only [F.CLS_RING_CCW_PORT]; omega)
  exact hregs.through (g := fun u => (u.withCodec (fun w => { w with listed := (a.drop 8).map (·.toNat) })).withHaul (fun w => { w with restageDue := true })) (fun _ _ => rfl) (fun _ => rfl)

theorem exec_deviceAddressSet {s : State} {m : Nat} (ha : s.accepts m 0x0051 = true) (hl : s.mbxLen m = 8 + byteAt (s.mbxCommand m) 14) (hok : s.addressOk (s.mbxArgs m) = true) {u : State}
    (hu : u = if decide (s.device ≠ leAt (s.mbxArgs m) 0 2) = true then (s.addressed (s.mbxArgs m)).closeSession 12 else s.addressed (s.mbxArgs m)) :
    exec (.deviceAddressSet m) s = .next (if decide (s.device ≠ leAt (s.mbxArgs m) 0 2) = true ∧ u.codec.walls ≠ [] then (u.startJob m .commit).withHaul (fun w => { w with restageFor := w.restageFor ++ [.job u.fw.nextJob] })
      else u.putResult m stOk []) := by
  rw [exec_served (c := .deviceAddressSet m) rfl ha (by simp [hl])]
  simp only [hok, Bool.not_true, Bool.false_eq_true, if_false]
  subst hu
  rfl

/-- The session fields of the remote session. -/
def remoteFields : List Fld := [F.GLB_EXPERT_UNLOCKED_R, F.GLB_EXPERT_HOLDER_R, F.MBX_STATUS_EXPERT]

/-- A new address: the address, the end of the remote session, and what is due. -/
theorem moved_parts {s : State} {a : List Byte} (h : s.addressOk a = true) :
    ((s.addressed a).closeSession 12).device = leAt a 0 2 ∧ ((s.addressed a).closeSession 12).f F.GLB_EXPERT_UNLOCKED_R 0 ≠ 1 ∧ ((s.addressed a).closeSession 12).haul.restageDue = true ∧
      ((s.addressed a).closeSession 12).codec.walls = s.codec.walls ∧ ((s.addressed a).closeSession 12).fw = s.fw ∧
      Off ([F.CLS_DEVICE_ADDR, F.CLS_RING_EN, F.CLS_RING_SIZE, F.CLS_RING_POS, F.CLS_RING_CW_PORT, F.CLS_RING_CCW_PORT] ++ remoteFields) s ((s.addressed a).closeSession 12) := by
  have hset := sets_addressed h
  have hregs := hset.regsOnly.closeSession 12
  have hclose : Off remoteFields (s.addressed a) ((s.addressed a).closeSession 12) := fun x i hx => closeSession_f _ 12 i hx
  refine ⟨?_, closeSession_ended _ 12, by rw [hregs.haul]; rfl, by rw [hregs.codec]; rfl, by rw [hregs.fw]; rfl, ?_⟩
  · rw [State.device, hclose.at_ _ _ rfl]
    exact hset.2.1 (F.CLS_DEVICE_ADDR, 0, leAt a 0 2) (by simp [addressValues])
  · refine Off.trans (fun x i hx => ?_) (hclose.mono rfl)
    refine (hset.2.2 x i fun e he hc => ?_)
    refine hx e.1 ?_ hc.1
    unfold addressValues at he
    split at he <;> simp only [List.mem_append, List.mem_cons, List.not_mem_nil, or_false] at he
    · rcases he with rfl | rfl <;> simp
    · rcases he with (rfl | rfl) | rfl | rfl | rfl | rfl <;> simp

-- ## INGRESS_SET

/-- The registers of an ingress port that INGRESS_SET writes. -/
def ingressValues (a : List Byte) (p : Nat) : List (Fld × Nat × Nat) :=
  [(F.ING_CTRL_MODE, p, byteAt a 1), (F.ING_CTRL_WALL, p, byteAt a 2), (F.ING_REGION_POS_X_OFF, p, leAt a 3 2), (F.ING_REGION_POS_Y_OFF, p, leAt a 5 2), (F.ING_REGION_SIZE_WIDTH, p, leAt a 7 2), (F.ING_REGION_SIZE_HEIGHT, p, leAt a 9 2),
    (F.ING_CTRL_LEADER, p, byteAt a 11 % 2)]

/-- The port's registers before LANES and EN. -/
def State.ingressRegs (s : State) (a : List Byte) : State :=
  let p := byteAt a 0
  let t := (s.setF F.ING_CTRL_MODE p (byteAt a 1)).setF F.ING_CTRL_WALL p (byteAt a 2)
  let t := (t.setF F.ING_REGION_POS_X_OFF p (leAt a 3 2)).setF F.ING_REGION_POS_Y_OFF p (leAt a 5 2)
  let t := (t.setF F.ING_REGION_SIZE_WIDTH p (leAt a 7 2)).setF F.ING_REGION_SIZE_HEIGHT p (leAt a 9 2)
  t.setF F.ING_CTRL_LEADER p (byteAt a 11 % 2)

theorem sets_ingressRegs (s : State) {a : List Byte} (h : byteAt a 1 ≤ 2) : Sets s (ingressValues a (byteAt a 0)) (s.ingressRegs a) := by
  have hmode := ((Sets.refl s).putNew F.ING_CTRL_MODE (byteAt a 0) (byteAt a 1) rfl (by simp only [F.ING_CTRL_MODE]; omega)).putNew F.ING_CTRL_WALL (byteAt a 0) _ rfl (byteAt_lt a 2)
  have hregion := (((hmode.putNew F.ING_REGION_POS_X_OFF (byteAt a 0) _ rfl (leAt_lt a 3 2)).putNew F.ING_REGION_POS_Y_OFF (byteAt a 0) _ rfl (leAt_lt a 5 2)).putNew F.ING_REGION_SIZE_WIDTH (byteAt a 0) _ rfl (leAt_lt a 7 2)).putNew
    F.ING_REGION_SIZE_HEIGHT (byteAt a 0) _ rfl (leAt_lt a 9 2)
  exact hregion.putNew F.ING_CTRL_LEADER (byteAt a 0) (byteAt a 11 % 2) rfl (by simp only [F.ING_CTRL_LEADER]; omega)

/-- The port with its lanes. -/
def State.ingressLanes (s : State) (a : List Byte) : State :=
  let p := byteAt a 0
  if byteAt a 1 = 0 then (s.ingressRegs a).setF F.ING_CTRL_LANES p (lanesCode ((s.ingressRegs a).portLanes fnIngress p).length) else s.ingressRegs a

theorem portLanes_congr {fs : List Fld} {s t : State} (h : Off fs s t) (hfs : fs.all (fun y => F.LANE_CFG_EN.code != y.code && F.LANE_CFG_FUNC.code != y.code && F.LANE_CFG_PORT.code != y.code) = true) (func port : Nat) :
    t.portLanes func port = s.portLanes func port := by
  have hone : ∀ x : Fld, fs.all (fun y => x.code != y.code) = true → ∀ n, t.f x n = s.f x n := fun x hx n => h.at_ x n hx
  have hen := hone F.LANE_CFG_EN (List.all_eq_true.mpr fun y hy => by have := List.all_eq_true.mp hfs y hy; simp_all)
  have hfunc := hone F.LANE_CFG_FUNC (List.all_eq_true.mpr fun y hy => by have := List.all_eq_true.mp hfs y hy; simp_all)
  have hport := hone F.LANE_CFG_PORT (List.all_eq_true.mpr fun y hy => by have := List.all_eq_true.mp hfs y hy; simp_all)
  simp only [State.portLanes, State.fb, hen, hfunc, hport]

theorem Sets.off {s t : State} {l : List (Fld × Nat × Nat)} (h : Sets s l t) : Off (l.map (·.1)) s t := fun x i hx => h.2.2 x i fun e he hc => hx e.1 (List.mem_map.mpr ⟨e, he, rfl⟩) hc.1

theorem sets_ingressLanes (s : State) {a : List Byte} (h : byteAt a 1 ≤ 2) :
    Sets s (ingressValues a (byteAt a 0) ++ (if byteAt a 1 = 0 then [(F.ING_CTRL_LANES, byteAt a 0, lanesCode (s.portLanes fnIngress (byteAt a 0)).length)] else [])) (s.ingressLanes a) := by
  have hregs := sets_ingressRegs s h
  have hcode : ∀ n, lanesCode n < 4 := fun n => by unfold lanesCode; split_ifs <;> decide
  unfold State.ingressLanes
  dsimp only
  rw [portLanes_congr hregs.off rfl]
  split
  · exact hregs.putNew F.ING_CTRL_LANES _ _ rfl (hcode _)
  · rw [List.append_nil]
    exact hregs

/-- The port with its lanes and the parameters of its flow, enabled. -/
def State.ingressPort (s : State) (a : List Byte) : State :=
  ((s.ingressLanes a).setIng (byteAt a 0) { (s.ingressLanes a).ing (byteAt a 0) with params := a.drop 12 }).setF F.ING_CTRL_EN (byteAt a 0) 1

theorem exec_ingressSet {s : State} {m : Nat} (ha : s.accepts m 0x0033 = true) (hl : 12 ≤ s.mbxLen m) (hlen : byteAt (s.mbxArgs m) 1 = 1 ∨ (s.mbxArgs m).length = 12) :
    exec (.ingressSet m) s = .next (if s.ingArgsOk (s.mbxArgs m) then (s.ingressPort (s.mbxArgs m)).putResult m stOk [] else s.putResult m stBadArg []) := by
  have hform : ¬(byteAt (s.mbxArgs m) 1 ≠ 1 ∧ (s.mbxArgs m).length ≠ 12) := fun h => hlen.elim h.1 h.2
  rw [exec_served (c := .ingressSet m) rfl ha (by simp [hl])]
  dsimp only
  rw [if_neg hform]
  simp only [State.ingressPort, State.ingressLanes, State.ingressRegs]
  cases s.ingArgsOk (s.mbxArgs m) <;> simp only [Bool.not_true, Bool.not_false, Bool.false_eq_true, if_true, if_false]


theorem sets_ingressPort (s : State) {a : List Byte} (h : byteAt a 1 ≤ 2) :
    Sets (s.setIng (byteAt a 0) { s.ing (byteAt a 0) with params := a.drop 12 })
      (ingressValues a (byteAt a 0) ++ (if byteAt a 1 = 0 then [(F.ING_CTRL_LANES, byteAt a 0, lanesCode (s.portLanes fnIngress (byteAt a 0)).length)] else []) ++ [(F.ING_CTRL_EN, byteAt a 0, 1)]) (s.ingressPort a) := by
  have hlanes := sets_ingressLanes s h
  have hing : (s.ingressLanes a).ing (byteAt a 0) = s.ing (byteAt a 0) := by rw [State.ing, State.ing, hlanes.regsOnly.haul]
  rw [State.ingressPort, hing]
  refine (hlanes.through (g := fun u => u.setIng (byteAt a 0) { s.ing (byteAt a 0) with params := a.drop 12 }) (fun _ _ => rfl) (fun _ => rfl)).putNew F.ING_CTRL_EN _ 1 ?_ (by decide)
  refine codesAvoid_append rfl ?_
  split <;> rfl

theorem haulPortSet_sets {s : State} {m p : Nat} (ha : s.accepts m 0x0032 = true) (hl : s.mbxLen m = 14) (hp : p = byteAt (s.mbxArgs m) 0) (hp5 : p ≤ 5) (h1 : byteAt (s.mbxArgs m) 1 ≤ 2) (h2 : byteAt (s.mbxArgs m) 2 ≤ 2)
    (h3 : byteAt (s.mbxArgs m) 3 ≤ 2) (h4 : byteAt (s.mbxArgs m) 4 ≤ 2) (hmtu : 64 ≤ leAt (s.mbxArgs m) 5 2) (hmtu' : leAt (s.mbxArgs m) 5 2 ≤ frameMax) (h13 : byteAt (s.mbxArgs m) 13 ≤ 3)
    (hlanes : (s.writeHaulPort (s.mbxArgs m)).haulLanesOk p = true) :
    ∃ t, exec (.haulPortSet m) s = .next t ∧
      Sets s ([(F.HAUL_CTRL_MODE, p, byteAt (s.mbxArgs m) 1), (F.HAUL_CTRL_LANES, p, byteAt (s.mbxArgs m) 2), (F.HAUL_CTRL_RATE, p, byteAt (s.mbxArgs m) 3), (F.HAUL_CTRL_ENCAP, p, byteAt (s.mbxArgs m) 4),
          (F.HAUL_MTU_BYTES, p, leAt (s.mbxArgs m) 5 2), (F.HAUL_MAC_LO_MAC, p, leAt (s.mbxArgs m) 7 4), (F.HAUL_MAC_HI_MAC, p, leAt (s.mbxArgs m) 11 2), (F.HAUL_CTRL_MGMT_TRUST, p, byteAt (s.mbxArgs m) 13 % 2),
          (F.HAUL_CTRL_PROMISC, p, byteAt (s.mbxArgs m) 13 / 2), (F.HAUL_CTRL_EN, p, 1), (F.TMG_PORT_CTRL_EN, p, 1), (F.HAUL_STATUS_LINK, p, 0), (F.HAUL_STATUS_ALIGNED, p, 0), (F.HAUL_STATUS_AN_DONE, p, 0)] ++
        answer m (s.mbxTag m) 0 []) t := by
  refine ⟨((s.writeHaulPort (s.mbxArgs m)).linkDown p).putResult m stOk [], ?_, ((sets_writeHaulPort s hp h1 h2 h3 h4 hmtu' h13).linkDown p rfl).putAnswer m 0 [] rfl (by decide) (by simp)⟩
  have hform : ¬(5 < p ∨ 2 < byteAt (s.mbxArgs m) 1 ∨ 2 < byteAt (s.mbxArgs m) 2 ∨ 2 < byteAt (s.mbxArgs m) 3 ∨ 2 < byteAt (s.mbxArgs m) 4 ∨ leAt (s.mbxArgs m) 5 2 < 64 ∨ frameMax < leAt (s.mbxArgs m) 5 2 ∨
      3 < byteAt (s.mbxArgs m) 13) := by omega
  rw [exec_served (c := .haulPortSet m) rfl ha (by simp [hl])]
  simp only [← hp, hlanes]
  rw [if_neg hform, if_neg (by decide)]

theorem deviceAddressSet_same {s : State} {m n : Nat} (ha : s.accepts m 0x0051 = true) (hl : s.mbxLen m = 8 + byteAt (s.mbxCommand m) 14) (hok : s.addressOk (s.mbxArgs m) = true) (hsame : s.device = leAt (s.mbxArgs m) 0 2)
    (hn : n = byteAt (s.mbxArgs m) 2) :
    ∃ t, exec (.deviceAddressSet m) s = .next t ∧
      Sets ((s.withCodec (fun w => { w with listed := ((s.mbxArgs m).drop 8).map (·.toNat) })).withHaul (fun w => { w with restageDue := true }))
        ([(F.CLS_DEVICE_ADDR, 0, leAt (s.mbxArgs m) 0 2), (F.CLS_RING_EN, 0, if n = 0 then 0 else 1)] ++
          (if n = 0 then [] else [(F.CLS_RING_SIZE, 0, n), (F.CLS_RING_POS, 0, byteAt (s.mbxArgs m) 3), (F.CLS_RING_CW_PORT, 0, byteAt (s.mbxArgs m) 4), (F.CLS_RING_CCW_PORT, 0, byteAt (s.mbxArgs m) 5)]) ++
          answer m (s.mbxTag m) 0 []) t := by
  have hexec := exec_deviceAddressSet ha hl hok rfl
  simp only [hsame, ne_eq, not_true_eq_false, decide_false, Bool.false_eq_true, false_and, if_false] at hexec
  refine ⟨_, hexec, ?_⟩
  have hset := sets_addressed hok
  rw [addressValues, ← hn] at hset
  refine hset.putAnswer m 0 [] (codesAvoid_append rfl ?_) (by decide) (by simp)
  split <;> rfl

theorem deviceAddressSet_walls {s : State} {m : Nat} (ha : s.accepts m 0x0051 = true) (hl : s.mbxLen m = 8 + byteAt (s.mbxCommand m) 14) (hok : s.addressOk (s.mbxArgs m) = true) (hmoved : s.device ≠ leAt (s.mbxArgs m) 0 2)
    (hwalls : s.codec.walls ≠ []) :
    ∃ t, exec (.deviceAddressSet m) s = .next t ∧ t.device = leAt (s.mbxArgs m) 0 2 ∧ t.f F.GLB_EXPERT_UNLOCKED_R 0 ≠ 1 ∧ t.haul.restageDue = true ∧ Waiter.job s.fw.nextJob ∈ t.haul.restageFor ∧
      t.answered m (s.mbxTag m) 1 (leBytes 4 s.fw.nextJob) := by
  obtain ⟨hdev, hsess, hdue, hwall, hfw, hoff⟩ := moved_parts hok
  have hexec := exec_deviceAddressSet ha hl hok rfl
  simp only [ne_eq, hmoved, not_false_eq_true, decide_true, if_true, hwall, hwalls, and_self, hfw] at hexec
  obtain ⟨hres, -, hans⟩ := startJob_parts ((s.addressed (s.mbxArgs m)).closeSession 12) m .commit
  have hhaul : (((s.addressed (s.mbxArgs m)).closeSession 12).startJob m .commit).haul = ((s.addressed (s.mbxArgs m)).closeSession 12).haul := (sets_startJob _ m .commit).regsOnly.haul
  rw [hfw, hoff.tag m rfl] at hans
  refine ⟨_, hexec, ?_, ?_, ?_, ?_, fun e he => (State.f_withHaul _ _ _ _).trans (hans e he)⟩
  · rw [State.device, State.f_withHaul, hres.at_ _ _ rfl]
    exact hdev
  · rw [State.f_withHaul, hres.at_ _ _ rfl]
    exact hsess
  · rw [State.withHaul_haul, hhaul]
    exact hdue
  · rw [State.withHaul_haul]
    exact List.mem_append_right _ (List.mem_singleton.mpr rfl)

theorem deviceAddressSet_noWalls {s : State} {m : Nat} (ha : s.accepts m 0x0051 = true) (hl : s.mbxLen m = 8 + byteAt (s.mbxCommand m) 14) (hok : s.addressOk (s.mbxArgs m) = true) (hmoved : s.device ≠ leAt (s.mbxArgs m) 0 2)
    (hwalls : s.codec.walls = []) :
    ∃ t, exec (.deviceAddressSet m) s = .next t ∧ t.device = leAt (s.mbxArgs m) 0 2 ∧ t.f F.GLB_EXPERT_UNLOCKED_R 0 ≠ 1 ∧ t.haul.restageDue = true ∧ t.answered m (s.mbxTag m) 0 [] := by
  obtain ⟨hdev, hsess, hdue, hwall, hfw, hoff⟩ := moved_parts hok
  have hexec := exec_deviceAddressSet ha hl hok rfl
  simp only [ne_eq, hmoved, not_false_eq_true, decide_true, if_true, hwall, hwalls, not_true_eq_false, and_false, if_false] at hexec
  have hres := (Writes.refl resultFields ((s.addressed (s.mbxArgs m)).closeSession 12)).putResult m (status := stOk) (data := []) (by decide) (by simp) rfl
  refine ⟨_, hexec, ?_, ?_, ?_, hoff.answers m rfl (by decide) (by simp)⟩
  · rw [State.device, hres.off.at_ _ _ rfl]
    exact hdev
  · rw [hres.off.at_ _ _ rfl]
    exact hsess
  · rw [hres.haul]
    exact hdue

theorem ingressSet_sets {s : State} {m p : Nat} (ha : s.accepts m 0x0033 = true) (hl : s.mbxLen m = 12) (hlen : (s.mbxArgs m).length = 12) (hp : p = byteAt (s.mbxArgs m) 0) (hok : s.ingArgsOk (s.mbxArgs m) = true)
    (hmode : byteAt (s.mbxArgs m) 1 ≠ 1) :
    ∃ t, exec (.ingressSet m) s = .next t ∧
      Sets (s.setIng p { s.ing p with params := [] })
        ([(F.ING_CTRL_MODE, p, byteAt (s.mbxArgs m) 1), (F.ING_CTRL_WALL, p, byteAt (s.mbxArgs m) 2), (F.ING_REGION_POS_X_OFF, p, leAt (s.mbxArgs m) 3 2), (F.ING_REGION_POS_Y_OFF, p, leAt (s.mbxArgs m) 5 2),
          (F.ING_REGION_SIZE_WIDTH, p, leAt (s.mbxArgs m) 7 2), (F.ING_REGION_SIZE_HEIGHT, p, leAt (s.mbxArgs m) 9 2), (F.ING_CTRL_LEADER, p, byteAt (s.mbxArgs m) 11), (F.ING_CTRL_EN, p, 1)] ++
          (if byteAt (s.mbxArgs m) 1 = 0 then [(F.ING_CTRL_LANES, p, lanesCode (s.portLanes fnIngress p).length)] else []) ++ answer m (s.mbxTag m) 0 []) t := by
  have hexec := exec_ingressSet ha (by omega) (.inr hlen)
  rw [if_pos hok] at hexec
  simp only [State.ingArgsOk, Bool.and_eq_true, decide_eq_true_eq, and_assoc] at hok
  obtain ⟨-, hmode2, hleader, -⟩ := hok
  have hset := sets_ingressPort s hmode2
  rw [List.drop_eq_nil_of_le (by omega), ← hp, ingressValues, Nat.mod_eq_of_lt (by omega : byteAt (s.mbxArgs m) 11 < 2)] at hset
  refine ⟨_, hexec, (hset.putAnswer m 0 [] ?_ (by decide) (by simp)).perm fun e => ?_⟩
  · refine codesAvoid_append (codesAvoid_append rfl ?_) rfl
    split <;> rfl
  · simp only [List.mem_append, List.mem_cons, List.not_mem_nil, or_false]
    tauto

theorem ingressSet_params {s : State} {m : Nat} (ha : s.accepts m 0x0033 = true) (hl : 12 ≤ s.mbxLen m) (hmode : byteAt (s.mbxArgs m) 1 = 1) :
    ∃ t, exec (.ingressSet m) s = .next t ∧
      (if s.ingArgsOk (s.mbxArgs m) = true then t.f F.ING_CTRL_EN (byteAt (s.mbxArgs m) 0) = 1 ∧ (t.ing (byteAt (s.mbxArgs m) 0)).params = (s.mbxArgs m).drop 12 ∧ t.answered m (s.mbxTag m) 0 []
       else Sets s (answer m (s.mbxTag m) 0x0012 []) t) := by
  refine ⟨_, exec_ingressSet ha hl (.inl hmode), ?_⟩
  by_cases hok : s.ingArgsOk (s.mbxArgs m) = true
  · have hset := sets_ingressPort s (a := s.mbxArgs m) (by omega)
    rw [if_neg (by omega), List.append_nil] at hset
    have hans := hset.putAnswer m stOk [] rfl (by decide) (by simp)
    rw [if_pos hok, if_pos hok]
    refine ⟨hans.2.1 (F.ING_CTRL_EN, byteAt (s.mbxArgs m) 0, 1) (by simp), ?_, fun e he => hans.2.1 e (List.mem_append_right _ he)⟩
    rw [State.ing, hans.regsOnly.haul]
    exact congrArg IngPort.params (Tab.get_set_same _ _ _ _)
  · rw [if_neg hok, if_neg hok]
    exact sets_putResult s m (by decide) (by simp)

/-- Settles O42: each command by the registers it writes. -/
theorem portCommands : Obligations.PortCommands := by
  unfold Obligations.PortCommands
  exact ⟨fun _ _ _ ha hl hp hp5 h1 h2 h3 h4 hmtu hmtu' h13 hlanes => haulPortSet_sets ha hl hp hp5 h1 h2 h3 h4 hmtu hmtu' h13 hlanes,
    fun _ _ _ ha hl hok hsame hn => deviceAddressSet_same ha hl hok hsame hn,
    fun _ _ ha hl hok hmoved hwalls => deviceAddressSet_walls ha hl hok hmoved hwalls,
    fun _ _ ha hl hok hmoved hwalls => deviceAddressSet_noWalls ha hl hok hmoved hwalls,
    fun _ _ _ ha hl hlen hp hok hmode => ingressSet_sets ha hl hlen hp hok hmode,
    fun _ _ ha hl hmode => ingressSet_params ha hl hmode⟩

end Sys2Proof.Machine

/-! Commands on meters, shapers and queues (R283, R284, R287, R290). -/

namespace Sys2Proof.Machine

theorem one24_eq : one24 = 2 ^ 24 := rfl

/-- The registers of a meter that METER_CONFIG writes. -/
def meterValues (n flags cir pir cbs pbs : Nat) : List (Fld × Nat × Nat) :=
  [(F.TMG_METER_CIR_RATE, n, cir), (F.TMG_METER_PIR_RATE, n, pir), (F.TMG_METER_CBS_BYTES, n, cbs), (F.TMG_METER_PBS_BYTES, n, pbs), (F.TMG_METER_CTRL_AWARE, n, flags / 2), (F.TMG_METER_CTRL_EN, n, flags % 2)]

/-- The meter with its registers written, before its buckets. -/
def State.meterRegs (s : State) (n flags cir pir cbs pbs : Nat) : State :=
  (((((s.setF F.TMG_METER_CIR_RATE n cir).setF F.TMG_METER_PIR_RATE n pir).setF F.TMG_METER_CBS_BYTES n cbs).setF F.TMG_METER_PBS_BYTES n pbs).setF F.TMG_METER_CTRL_AWARE n (flags / 2)).setF F.TMG_METER_CTRL_EN n (flags % 2)

theorem sets_meterRegs (s : State) (n : Nat) {flags cir pir cbs pbs : Nat} (hf : flags ≤ 3) (hcir : cir < 2 ^ 32) (hpir : pir < 2 ^ 32) (hcbs : cbs < 2 ^ 32) (hpbs : pbs < 2 ^ 32) :
    Sets s (meterValues n flags cir pir cbs pbs) (s.meterRegs n flags cir pir cbs pbs) := by
  have hrates := ((((Sets.refl s).putNew F.TMG_METER_CIR_RATE n cir rfl hcir).putNew F.TMG_METER_PIR_RATE n pir rfl hpir).putNew F.TMG_METER_CBS_BYTES n cbs rfl hcbs).putNew F.TMG_METER_PBS_BYTES n pbs rfl hpbs
  exact (hrates.putNew F.TMG_METER_CTRL_AWARE n (flags / 2) rfl (by simp only [F.TMG_METER_CTRL_AWARE]; omega)).putNew F.TMG_METER_CTRL_EN n (flags % 2) rfl (by simp only [F.TMG_METER_CTRL_EN]; omega)

theorem writeMeter_eq (s : State) (n flags cir pir cbs pbs : Nat) :
    s.writeMeter n flags cir pir cbs pbs = if s.f F.TMG_METER_CTRL_EN n ≠ 1 ∧ flags % 2 = 1 then (s.meterRegs n flags cir pir cbs pbs).fillMeter n else s.meterRegs n flags cir pir cbs pbs := by
  unfold State.writeMeter State.fb
  simp only [Bool.and_eq_true, Bool.not_eq_true', decide_eq_false_iff_not, decide_eq_true_eq]
  rfl

theorem Sets.setMeter {s t : State} {l : List (Fld × Nat × Nat)} (h : Sets s l t) (n : Nat) (x : Meter) : Sets (s.setMeter n x) l (t.setMeter n x) :=
  h.through (g := fun u => u.setMeter n x) (fun _ _ => rfl) (fun _ => rfl)

theorem mbxTag_setMeter (s : State) (n : Nat) (x : Meter) (m : Nat) : (s.setMeter n x).mbxTag m = s.mbxTag m := rfl

/-- A meter whose EN is set by the write starts with full buckets. -/
theorem sets_writeMeter (s : State) (n : Nat) {flags cir pir cbs pbs : Nat} (hf : flags ≤ 3) (hcir : cir < 2 ^ 32) (hpir : pir < 2 ^ 32) (hcbs : cbs < 2 ^ 32) (hpbs : pbs < 2 ^ 32) (hcbs' : 64 ≤ cbs) (hpbs' : 64 ≤ pbs) :
    Sets (if s.f F.TMG_METER_CTRL_EN n ≠ 1 ∧ flags % 2 = 1 then s.setMeter n { tc := cbs * 2 ^ 24, tp := pbs * 2 ^ 24, at_ := s.time.fclk } else s) (meterValues n flags cir pir cbs pbs) (s.writeMeter n flags cir pir cbs pbs) := by
  have hregs := sets_meterRegs s n hf hcir hpir hcbs hpbs
  have hcbsReg : (s.meterRegs n flags cir pir cbs pbs).f F.TMG_METER_CBS_BYTES n = cbs := hregs.2.1 (F.TMG_METER_CBS_BYTES, n, cbs) (by simp [meterValues])
  have hpbsReg : (s.meterRegs n flags cir pir cbs pbs).f F.TMG_METER_PBS_BYTES n = pbs := hregs.2.1 (F.TMG_METER_PBS_BYTES, n, pbs) (by simp [meterValues])
  have hc : (s.meterRegs n flags cir pir cbs pbs).cbs n = cbs * 2 ^ 24 := by rw [State.cbs, hcbsReg, max_eq_right hcbs', one24_eq]
  have hp : (s.meterRegs n flags cir pir cbs pbs).pbs n = pbs * 2 ^ 24 := by rw [State.pbs, hpbsReg, max_eq_right hpbs', one24_eq]
  have htime : (s.meterRegs n flags cir pir cbs pbs).time = s.time := hregs.regsOnly.time
  rw [writeMeter_eq]
  split
  · rw [State.fillMeter, hc, hp, htime]
    exact hregs.setMeter n _
  · exact hregs

theorem exec_meterConfig {s : State} {m n : Nat} (ha : s.accepts m 0x0421 = true) (hl : s.mbxLen m = 19) (hn : n = leAt (s.mbxArgs m) 0 2) (hn' : n < 1024) (hf : byteAt (s.mbxArgs m) 2 ≤ 3)
    (hrates : leAt (s.mbxArgs m) 3 4 ≤ leAt (s.mbxArgs m) 7 4) (hb : 64 ≤ leAt (s.mbxArgs m) 11 4) (hp : 64 ≤ leAt (s.mbxArgs m) 15 4) :
    exec (.meterConfig m) s = .next ((s.writeMeter n (byteAt (s.mbxArgs m) 2) (leAt (s.mbxArgs m) 3 4) (leAt (s.mbxArgs m) 7 4) (leAt (s.mbxArgs m) 11 4) (leAt (s.mbxArgs m) 15 4)).putResult m stOk []) := by
  have hform : ¬(1023 < n ∨ 3 < byteAt (s.mbxArgs m) 2 ∨ leAt (s.mbxArgs m) 7 4 < leAt (s.mbxArgs m) 3 4 ∨ leAt (s.mbxArgs m) 11 4 < 64 ∨ leAt (s.mbxArgs m) 15 4 < 64) := by omega
  rw [exec_served (c := .meterConfig m) rfl ha (by simp [hl])]
  simp only [← hn]
  rw [if_neg hform]

/-- A limit is written unless it is zero. -/
def State.setF? (s : State) (x : Fld) (i v : Nat) : State := if v = 0 then s else s.setF x i v

theorem Sets.setF? {s t : State} {l : List (Fld × Nat × Nat)} (h : Sets s l t) (x : Fld) (i v : Nat) (hl : codesAvoid l [x.code] = true) (hv : v < 2 ^ x.len) : Sets s (l ++ if v = 0 then [] else [(x, i, v)]) (t.setF? x i v) := by
  unfold State.setF?
  split
  · rw [List.append_nil]
    exact h
  · exact h.putNew x i v hl hv

theorem exec_shaperConfig {s : State} {m p q : Nat} (ha : s.accepts m 0x0422 = true) (hl : s.mbxLen m = 10) (hp : p = byteAt (s.mbxArgs m) 0) (hq : q = byteAt (s.mbxArgs m) 1) (hp5 : p ≤ 5) (hq' : q < 64 ∨ q = 255)
    (hb : 1 ≤ leAt (s.mbxArgs m) 6 4) (hb' : leAt (s.mbxArgs m) 6 4 < 2 ^ 24) :
    exec (.shaperConfig m) s = .next (if q = 255 then
        (((s.setF F.TMG_PORT_SHAPE_BURST_BYTES p (leAt (s.mbxArgs m) 6 4)).setF F.TMG_PORT_SHAPE_RATE_RATE p (leAt (s.mbxArgs m) 2 4)).restartPortShaper p).putResult m stOk []
      else (((s.setF F.TMG_Q_SHAPE_BURST_BYTES (64 * p + q) (leAt (s.mbxArgs m) 6 4)).setF F.TMG_Q_SHAPE_RATE_RATE (64 * p + q) (leAt (s.mbxArgs m) 2 4)).restartQueueShaper (64 * p + q)).putResult m stOk []) := by
  have hform : ¬(5 < p ∨ 63 < q ∧ q ≠ 255 ∨ leAt (s.mbxArgs m) 6 4 = 0 ∨ 16777215 < leAt (s.mbxArgs m) 6 4) := by omega
  rw [exec_served (c := .shaperConfig m) rfl ha (by simp [hl])]
  simp only [← hp, ← hq]
  rw [if_neg hform]

/-- A shaper that starts with the burst just written. -/
theorem sets_queueShaper (s : State) (k : Nat) {r b : Nat} (hb : b < 2 ^ 24) (hr : r < 2 ^ 32) (hb1 : 1 ≤ b) :
    Sets (s.setTmgQueue k { s.tmgQueue k with shaper := { tokens := (b * 2 ^ 24 : Nat), at_ := s.time.fclk } }) [(F.TMG_Q_SHAPE_BURST_BYTES, k, b), (F.TMG_Q_SHAPE_RATE_RATE, k, r)]
      (((s.setF F.TMG_Q_SHAPE_BURST_BYTES k b).setF F.TMG_Q_SHAPE_RATE_RATE k r).restartQueueShaper k) := by
  have hset := ((Sets.refl s).putNew F.TMG_Q_SHAPE_BURST_BYTES k b rfl hb).putNew F.TMG_Q_SHAPE_RATE_RATE k r rfl hr
  have hburst : ((s.setF F.TMG_Q_SHAPE_BURST_BYTES k b).setF F.TMG_Q_SHAPE_RATE_RATE k r).f F.TMG_Q_SHAPE_BURST_BYTES k = b := hset.2.1 (F.TMG_Q_SHAPE_BURST_BYTES, k, b) (by simp)
  rw [State.restartQueueShaper, hburst, max_eq_right hb1, one24_eq]
  exact hset.through (g := fun u => u.setTmgQueue k { s.tmgQueue k with shaper := { tokens := (b * 2 ^ 24 : Nat), at_ := s.time.fclk } }) (fun _ _ => rfl) (fun _ => rfl)

theorem sets_portShaper (s : State) (p : Nat) {r b : Nat} (hb : b < 2 ^ 24) (hr : r < 2 ^ 32) (hb1 : 1 ≤ b) :
    Sets (s.setTmgPort p { s.tmgPort p with shaper := { tokens := (b * 2 ^ 24 : Nat), at_ := s.time.fclk } }) [(F.TMG_PORT_SHAPE_BURST_BYTES, p, b), (F.TMG_PORT_SHAPE_RATE_RATE, p, r)]
      (((s.setF F.TMG_PORT_SHAPE_BURST_BYTES p b).setF F.TMG_PORT_SHAPE_RATE_RATE p r).restartPortShaper p) := by
  have hset := ((Sets.refl s).putNew F.TMG_PORT_SHAPE_BURST_BYTES p b rfl hb).putNew F.TMG_PORT_SHAPE_RATE_RATE p r rfl hr
  have hburst : ((s.setF F.TMG_PORT_SHAPE_BURST_BYTES p b).setF F.TMG_PORT_SHAPE_RATE_RATE p r).f F.TMG_PORT_SHAPE_BURST_BYTES p = b := hset.2.1 (F.TMG_PORT_SHAPE_BURST_BYTES, p, b) (by simp)
  rw [State.restartPortShaper, hburst, max_eq_right hb1, one24_eq]
  exact hset.through (g := fun u => u.setTmgPort p { s.tmgPort p with shaper := { tokens := (b * 2 ^ 24 : Nat), at_ := s.time.fclk } }) (fun _ _ => rfl) (fun _ => rfl)

/-- Settles O43: each command by the registers it writes and the bucket or shaper that it starts. -/
theorem trafficCommands : Obligations.TrafficCommands := by
  unfold Obligations.TrafficCommands
  refine ⟨fun s m n b p ha hl hn hn' hf hrates hb hp hb' hp' => ?_, fun s m p q r b ha hl hp hq hr hb hp5 hq64 hb1 hb24 => ?_, fun s m p r b ha hl hp hq hr hb hp5 hb1 hb24 => ?_,
    fun s m k w d y ha hl hp5 hq4 hq64 hk hw hw1 hw4096 hd hy hd24 hy24 => ?_⟩
  · refine ⟨_, exec_meterConfig ha hl hn hn' hf hrates (hb ▸ hb') (hp ▸ hp'), ?_⟩
    rw [← hb, ← hp]
    have hset := sets_writeMeter s n hf (leAt_lt (s.mbxArgs m) 3 4) (leAt_lt (s.mbxArgs m) 7 4) (hb ▸ leAt_lt (s.mbxArgs m) 11 4) (hp ▸ leAt_lt (s.mbxArgs m) 15 4) hb' hp'
    have htag : State.mbxTag (if s.f F.TMG_METER_CTRL_EN n ≠ 1 ∧ byteAt (s.mbxArgs m) 2 % 2 = 1 then s.setMeter n { tc := b * 2 ^ 24, tp := p * 2 ^ 24, at_ := s.time.fclk } else s) m = s.mbxTag m := by
      split
      · exact mbxTag_setMeter _ _ _ _
      · rfl
    have hans := hset.putAnswer m 0 [] rfl (by decide) (by simp)
    rw [htag] at hans
    exact hans
  · have hset := sets_queueShaper s (64 * p + q) hb24 (hr ▸ leAt_lt (s.mbxArgs m) 2 4) hb1
    have hexec := exec_shaperConfig ha hl hp hq hp5 (.inl hq64) (hb ▸ hb1) (hb ▸ hb24)
    rw [if_neg (by omega), ← hb, ← hr] at hexec
    exact ⟨_, hexec, hset.putAnswer m 0 [] rfl (by decide) (by simp)⟩
  · have hset := sets_portShaper s p hb24 (hr ▸ leAt_lt (s.mbxArgs m) 2 4) hb1
    have hexec := exec_shaperConfig ha hl hp hq.symm hp5 (.inr rfl) (hb ▸ hb1) (hb ▸ hb24)
    rw [if_pos rfl, ← hb, ← hr] at hexec
    exact ⟨_, hexec, hset.putAnswer m 0 [] rfl (by decide) (by simp)⟩
  · have hform : ¬(5 < byteAt (s.mbxArgs m) 0 ∨ byteAt (s.mbxArgs m) 1 < 4 ∨ 63 < byteAt (s.mbxArgs m) 1 ∨ w = 0 ∨ 4096 < w ∨ 2 ^ 24 ≤ d ∨ 2 ^ 24 ≤ y) := by omega
    refine ⟨(State.setF? (State.setF? (s.setF F.TMG_Q_CFG_WEIGHT k w) F.TMG_Q_DEPTH_MAX_BYTES k d) F.TMG_Q_YELLOW_MAX_BYTES k y).putResult m stOk [], ?_, ?_⟩
    · rw [exec_served (c := .queueWeightSet m) rfl ha (by simp [hl])]
      simp only [← hw, ← hd, ← hy, ← hk]
      rw [if_neg hform]
      rfl
    · have hweight := (Sets.refl s).putNew F.TMG_Q_CFG_WEIGHT k w rfl (by simp only [F.TMG_Q_CFG_WEIGHT]; omega)
      have hdepth := hweight.setF? F.TMG_Q_DEPTH_MAX_BYTES k d rfl hd24
      have hyellow := hdepth.setF? F.TMG_Q_YELLOW_MAX_BYTES k y (codesAvoid_append rfl (by split <;> rfl)) hy24
      exact hyellow.putAnswer m 0 [] (codesAvoid_append (codesAvoid_append rfl (by split <;> rfl)) (by split <;> rfl)) (by decide) (by simp)

end Sys2Proof.Machine

/-! Counterexamples: a state on which the model itself evaluates to the outcome that refutes a statement. -/

namespace Sys2Proof.Machine

/-- What the instruction makes of the state answers `p`. -/
def landsWhere (c : Instr) (s : State) (p : State → Bool) : Bool :=
  match exec c s with
  | .next t => p t
  | _ => false

theorem of_landsWhere {c : Instr} {s t : State} {p : State → Bool} (h : landsWhere c s p = true) (ht : exec c s = .next t) : p t = true := by
  simpa [landsWhere, ht] using h

/-- Hewer 23 is IDLE and the bank of hewers lists it though it is as a hewer without an entry: no step of the model leaves such a bank, and a write of the hewer's entry takes it out. -/
def listedIdleHewer : State := Tests.w193.withCodec (fun w => { w with hewers := [(23, {})] })

theorem listedIdleHewer_accepts : listedIdleHewer.accepts 0 0x0410 = true := by decide +kernel

theorem listedIdleHewer_drains : landsWhere (.hewerDrain 0) listedIdleHewer (fun t => t.codec.hewers.isEmpty) = true := by decide +kernel

/-- Refutes O44: the first clause claims that the drain of an idle hewer leaves the scheduler's part as it is in every state. The drain writes the hewer's entry with no one who waits, and the table of hewers in its canonical form lists no entry that is as an absent one: where it lists hewer 23 all the same, the drain takes the entry out. -/
theorem not_hewerCommands : ¬ Obligations.HewerCommands := by
  unfold Obligations.HewerCommands
  rintro ⟨hdrain, -⟩
  obtain ⟨t, ht, -, -, hcodec, -⟩ := hdrain listedIdleHewer 0 23 listedIdleHewer_accepts (by decide +kernel) (by decide +kernel) (by decide) (by decide +kernel) (by decide +kernel)
  have hempty := of_landsWhere listedIdleHewer_drains ht
  rw [hcodec] at hempty
  exact absurd hempty (by decide +kernel)

-- ## O48

/-- Channel 0 can start a band while bursts of an earlier strip still wait to issue: no step of the model leaves such a channel. -/
def lateBursts : State := Tests.w236.setChan 0 { Tests.w236.chan 0 with bursts := [{}] }

def lateBand : Band := { ctx := 0, slice := 0, picture := 2, desc := 1, positions := [1], strips := 1 }

/-- The cabinet of the index table of `lateBursts`, and its one strip. -/
def lateCabinet : List Byte := [1, 0, 0, 0, 1, 0, 0, 0, 0, 0x20] ++ List.replicate 54 0
def lateStrip : List Byte := [0, 0, 1, 0, 0, 0, 0, 0, 0, 0x30, 0, 0, 0, 0, 0, 0]

theorem lateBursts_waits : landsWhere (.bandStart 0 .clean) lateBursts (fun t => decide (t.f F.RIV_CH_STATUS_STATE 0 = 0)) = true := by decide +kernel

/-- Refutes O48: the third clause claims that a band that starts has its first strip dressed and in fetch. The fetch goes on only once no burst waits to issue, and `bandCanStart` does not ask for that: with a burst left over the band starts and its first strip is not begun. -/
theorem not_rivingEvents : ¬ Obligations.RivingEvents := by
  unfold Obligations.RivingEvents
  rintro ⟨-, -, hstart, -⟩
  obtain ⟨t, ht, -, -, -, hstate, -⟩ := hstart lateBursts 0 1 lateBand [{}] [] lateStrip [] lateCabinet (by decide) (by decide +kernel) (by decide +kernel) rfl (by decide +kernel) (by decide +kernel) (by decide +kernel)
  have hidle := of_decide_eq_true (of_landsWhere lateBursts_waits ht)
  exact absurd (hidle.symm.trans hstate) (by decide)

-- ## O51

/-- Hewer 23 is IDLE, in service, and listed in the bank of hewers though it is as one without an entry. -/
def listedServingHewer : State := Tests.w297.withCodec (fun w => { w with hewers := [(23, {})] })

theorem listedServingHewer_drains : landsWhere (.hwrDrainSet .cpN 23 3) listedServingHewer (fun t => t.codec.hewers.isEmpty) = true := by decide +kernel

/-- Refutes O51: the second clause claims that DRAIN and SERVICE written at an idle hewer leave the scheduler's part as it is in every state. As in O44, the drain takes an entry out of a bank that lists it needlessly. -/
theorem not_hewerRegisters : ¬ Obligations.HewerRegisters := by
  unfold Obligations.HewerRegisters
  rintro ⟨-, hdrain, -⟩
  obtain ⟨t, ht, -, -, -, hcodec, -⟩ :=
    hdrain listedServingHewer .cpN 23 3 (by decide) (by decide +kernel) (by decide) (by decide +kernel) (by decide +kernel) (by decide +kernel)
  have hempty := of_landsWhere listedServingHewer_drains ht
  rw [hcodec] at hempty
  exact absurd hempty (by decide +kernel)

-- ## O52

/-- Port 5 sends a copy of packet 16, which one reference holds, and another copy of it still waits: no step of the model leaves a copy without a reference of its own. -/
def unheldCopy : State :=
  (Tests.w341.setPacket 16 { Tests.w341.packet 16 with ref := 1 }).setTmgQueue 0 { Tests.w341.tmgQueue 0 with copies := [{ buf := 16 }] }

theorem unheldCopy_endsUncounted :
    landsWhere (.transmitEnd 5 (.uncorrectable 1)) unheldCopy (fun t => !t.fatal && decide (t.f F.HAUL_CNT_COUNT 57 = 0)) = true := by decide +kernel

/-- Refutes O52: the clause on an uncorrectable error claims that the copy in transmission ends counted as an abort in every state outside FATAL. The other copy that is dropped releases the packet's one reference, the packet is gone, BAD with it, and the copy ends as a good frame. -/
theorem not_haulFrames : ¬ Obligations.HaulFrames := by
  unfold Obligations.HaulFrames
  rintro ⟨-, -, -, -, -, -, -, -, -, -, -, -, -, -, -, -, -, -, -, -, -, -, -, -, -, hue, -⟩
  obtain ⟨-, t, ht, -, -, hcount⟩ :=
    hue unheldCopy 5 3 1 17 { buf := 16, len := 64, frame := [1], inport := 2 } (by decide) (by decide +kernel) (by decide +kernel) (by decide +kernel) (by decide)
  have hends := of_landsWhere unheldCopy_endsUncounted ht
  rw [Bool.and_eq_true, Bool.not_eq_true'] at hends
  obtain ⟨hfatal, hzero⟩ := hends
  have hone := (of_decide_eq_true hzero).symm.trans (hcount hfatal)
  exact absurd hone (by decide +kernel)

end Sys2Proof.Machine

/-! The frames of the memory system: its error log, raises and counters, a write given up, the ends of training, retraining and fills. -/

namespace Sys2Proof.Machine

namespace Off

theorem count {fs : List Fld} {s t : State} (h : Off fs s t) (x : Fld) (i : Nat) (y : Fld) (j k : Nat) (hx : covers fs [x] = true) (hy : covers fs [y] = true) : Off fs s (t.count x i y j k) := by
  unfold State.count
  dsimp only
  split
  · exact (h.setF _ _ _ hx).setF _ _ _ hy
  · exact h.setF _ _ _ hx

theorem raise {fs : List Fld} {s t : State} (h : Off fs s t) (fsid inst : Nat) (d : List Byte) (hx : covers fs raiseFields = true) : Off fs s (t.raiseFault fsid inst d) := fun y i hy =>
  (State.raiseFault_f t fsid inst d y i (outside_of_covers hx hy)).trans (h y i hy)

end Off

/-- The fields of the error log. -/
def memLogFields : List Fld := [F.DDR_LOG_STATUS_COUNT, F.DDR_LOG_STATUS_FULL, F.DDR_LOG_LOST_COUNT, F.DDR_LOG_LOST_SAT]

theorem logMem_off (s : State) (line typ req dev : Nat) : Off memLogFields s (s.logMem line typ req dev) := by
  unfold State.logMem
  split
  · exact ((Off.same rfl).setF _ _ _ rfl).setF _ _ _ rfl
  · exact (Off.refl _ _).count _ _ _ _ _ rfl rfl

/-- The fields that a write given up may change. -/
def giveUpFields : List Fld := [F.DDR_WCRC_FAIL_COUNT, F.DDR_CNT_SAT_SAT, F.DDR_EVENT_WCRC_FAIL] ++ memLogFields ++ raiseFields

/-- A line takes content, and is poisoned or not. -/
theorem putLine_off (fs : List Fld) (s : State) (a : Nat) (bs : List Byte) (line : Nat) (p : Prop) [Decidable p] : Off fs s (if p then (s.putDram a bs).poisonLine line else (s.putDram a bs).cleanLine line) := by
  split
  · exact Off.same rfl
  · exact Off.same rfl

theorem giveUpWrite_off (s : State) (c : Nat) (x : Replay) (later : List Replay) : Off giveUpFields s (s.giveUpWrite c x later) := by
  have hcounted : Off giveUpFields s (((s.setMchan c { s.mchan c with retrainDue := true }).count F.DDR_WCRC_FAIL_COUNT c F.DDR_CNT_SAT_SAT c 3).setF F.DDR_EVENT_WCRC_FAIL c 1) :=
    ((Off.same rfl).count _ _ _ _ _ rfl rfl).setF _ _ _ rfl
  have hlogged := hcounted.trans ((logMem_off _ x.line 5 x.req 15).mono rfl)
  unfold State.giveUpWrite
  dsimp only
  refine Off.raise (Off.draw (Off.ite hlogged (hlogged.trans (putLine_off _ _ _ _ _ _)))) _ _ _ rfl

-- ## O59

/-- The count of replays of channel 3 stands past the greatest value of its 32 bits, and a write of channel 3 has had its three replays: no write of a register leaves such a count. -/
def overfullCount : State := { Tests.w516 with regs := Tab.set [] Tests.w516.regs F.DDR_WCRC_RETRY_COUNT.code [(3, 2 ^ 32)] }

/-- The fourth alert of the last write of a replay buffer counts no replay. -/
theorem writeAlert_retries {s : State} {c sub : Nat} {x : Replay} {l : List Replay} (hl : Tab.get [] (s.mchan c).replay sub = x :: l) (hx : 3 ≤ x.replays) :
    (s.writeAlert c sub 0).f F.DDR_WCRC_RETRY_COUNT c = s.f F.DDR_WCRC_RETRY_COUNT c := by
  unfold State.writeAlert
  rw [hl]
  simp only [List.getElem?_cons_zero, decide_eq_true hx, if_true]
  exact ((Off.same rfl).trans (giveUpWrite_off _ c x _)).at_ _ _ rfl

theorem overfullCount_replay :
    Tab.get [] (overfullCount.mchan 3).replay 1 = { line := 9, req := 3, replays := 3 } :: [{ line := 10, req := 4, replays := 3 }] := rfl

/-- Refutes O59: the clause on the fourth alert claims that the count of replays is then at most its greatest value in every state. Where no later write is replayed the count is not written at all, so that one past that value stays. -/
theorem not_memoryEvents : ¬ Obligations.MemoryEvents := by
  unfold Obligations.MemoryEvents
  rintro ⟨-, -, -, -, -, -, -, -, -, -, -, -, -, -, -, -, -, -, -, -, -, -, -, -, -, -, -, hfail, -⟩
  obtain ⟨t, ht, -, hcount, -⟩ :=
    hfail overfullCount 3 1 0 { line := 9, req := 3, replays := 3 } (by decide) (by decide) (by decide +kernel) (by decide)
  have hexec : exec (.ddrWriteCrcAlert 3 1 0) overfullCount = .next (overfullCount.writeAlert 3 1 0) := rfl
  have hstays : t.f F.DDR_WCRC_RETRY_COUNT 3 = overfullCount.f F.DDR_WCRC_RETRY_COUNT 3 := by
    cases hexec.symm.trans ht
    exact writeAlert_retries overfullCount_replay (by decide)
  have hpast : overfullCount.f F.DDR_WCRC_RETRY_COUNT 3 = 2 ^ 32 := by decide +kernel
  have hbound : t.f F.DDR_WCRC_RETRY_COUNT 3 ≤ 2 ^ 32 - 1 := hcount ▸ Nat.min_le_right _ _
  omega

end Sys2Proof.Machine

/-! The index that a raise shows, the part of a memory channel, and the training, retraining and filling of DRAM. -/

namespace Sys2Proof.Machine

-- ## The index of a raise (R360)

theorem outside_instance : F.FLT_SRC_STATUS_INSTANCE.outside reactFields := by unfold Fld.outside; decide

theorem markRaise_instance (s : State) (fsid inst : Nat) : (s.markRaise fsid inst).f F.FLT_SRC_STATUS_INSTANCE fsid = inst % 65536 := State.f_setF_same _ _ _ _

theorem raiseFatal_instance (s : State) (fsid inst : Nat) (d : List Byte) : (s.raiseFatal fsid inst d).f F.FLT_SRC_STATUS_INSTANCE fsid = inst % 65536 := by
  rw [State.raiseFatal, State.enterFatal_f _ _ _ _ outside_instance, State.logEvent_f _ _ _ _ _ _ _ _ outside_instance, markRaise_instance]

/-- A raise of another source leaves the index. -/
theorem raiseFatal_instance_ne (s : State) {fsid k : Nat} (inst : Nat) (d : List Byte) (h : k ≠ fsid) : (s.raiseFatal fsid inst d).f F.FLT_SRC_STATUS_INSTANCE k = s.f F.FLT_SRC_STATUS_INSTANCE k := by
  rw [State.raiseFatal, State.enterFatal_f _ _ _ _ outside_instance, State.logEvent_f _ _ _ _ _ _ _ _ outside_instance, State.markRaise, State.f_setF_inst _ _ _ _ _ h,
    State.f_setF_code _ _ _ _ _ _ (by decide), State.fltCount]
  split <;> rw [State.f_count _ _ _ _ _ _ _ _ (by decide) (by decide)]

theorem cpRestart_instance (s : State) {k : Nat} (h : k ≠ 34) : s.cpRestart.f F.FLT_SRC_STATUS_INSTANCE k = s.f F.FLT_SRC_STATUS_INSTANCE k := by
  unfold State.cpRestart
  simp only
  split
  · exact raiseFatal_instance_ne s 0 [] h
  · rw [State.cpReset_f _ _ _ outside_instance, State.f_setF_code _ _ _ _ _ _ (by decide), State.f_count _ _ _ _ _ _ _ _ (by decide) (by decide)]
    rfl

/-- A raise shows its index; only the limit of restarts, which a raise may bring about itself, is left out. -/
theorem raiseFault_instance (s : State) {fsid : Nat} (inst : Nat) (d : List Byte) (h : fsid ≠ 34) : (s.raiseFault fsid inst d).f F.FLT_SRC_STATUS_INSTANCE fsid = inst % 65536 := by
  have hlog : ∀ (b : Bool) (k f c n : Nat) (e : List Byte), (if b then (s.markRaise fsid inst).logEvent k f c n e else s.markRaise fsid inst).f F.FLT_SRC_STATUS_INSTANCE fsid = inst % 65536 := by
    intro b k f c n e
    cases b with
    | false => exact markRaise_instance s fsid inst
    | true => exact (State.logEvent_f _ _ _ _ _ _ _ _ outside_instance).trans (markRaise_instance s fsid inst)
  unfold State.raiseFault
  simp only
  split
  · exact raiseFatal_instance s fsid inst d
  · split
    · exact hlog _ _ _ _ _ _
    · split
      · exact (State.safeNow_f _ _ _ _ _ _ outside_instance).trans (hlog _ _ _ _ _ _)
      · exact (State.graceRaise_f _ _ _ _ _ outside_instance).trans (hlog _ _ _ _ _ _)
      · exact (cpRestart_instance _ h).trans (hlog _ _ _ _ _ _)
      · exact hlog _ _ _ _ _ _

theorem mem_raiseFault (s : State) (fsid inst : Nat) (d : List Byte) : (s.raiseFault fsid inst d).mem = s.mem :=
  (congrArg State.mem (besideRaise_raiseFault s fsid inst d) :)

theorem dram_raiseFault (s : State) (fsid inst : Nat) (d : List Byte) : (s.raiseFault fsid inst d).dram = s.dram :=
  (congrArg State.dram (besideRaise_raiseFault s fsid inst d) :)

-- ## A memory channel

theorem RegsOnly.mem {s t : State} (h : RegsOnly s t) : t.mem = s.mem := by
  unfold RegsOnly at h
  rw [h]

theorem RegsOnly.mchan {s t : State} (h : RegsOnly s t) (c : Nat) : t.mchan c = s.mchan c := by rw [State.mchan, State.mchan, h.mem]

@[simp] theorem mchan_setMchan (s : State) (c : Nat) (x : MemChan) : (s.setMchan c x).mchan c = x := Tab.get_set_same _ _ _ _

@[simp] theorem mchan_setF (s : State) (y : Fld) (i v c : Nat) : (s.setF y i v).mchan c = s.mchan c := rfl

theorem mchan_raiseFault (s : State) (fsid inst : Nat) (d : List Byte) (c : Nat) : (s.raiseFault fsid inst d).mchan c = s.mchan c := by
  rw [State.mchan, State.mchan, mem_raiseFault]

theorem Sets.setMchan {s t : State} {l : List (Fld × Nat × Nat)} (h : Sets s l t) (c : Nat) (x : MemChan) : Sets (s.setMchan c x) l (t.setMchan c x) :=
  h.through (g := fun u => u.setMchan c x) (by intro _ _; rfl) (by intro _; rfl)

/-- Results of places, applied one after the other: the place's own, where it has one. -/
theorem get_foldl_results {β : Type} (g : β → Nat) (r : Nat → Option β) (step : Tab Nat → Nat × Option β → Tab Nat) (hsome : ∀ t k v, step t (k, some v) = Tab.set 0 t k (g v)) (hnone : ∀ t k, step t (k, none) = t)
    (ks : List Nat) (k : Nat) (t : Tab Nat) : Tab.get 0 ((ks.map (fun j => (j, r j))).foldl step t) k = if k ∈ ks then (r k).elim (Tab.get 0 t k) g else Tab.get 0 t k := by
  induction ks generalizing t with
  | nil => rfl
  | cons j ks ih =>
    rw [List.map_cons, List.foldl_cons, ih]
    by_cases hjk : j = k
    · subst hjk
      cases hr : r j with
      | none => simp [hnone]
      | some v => simp [hsome, Tab.get_set_same]
    · have hget : Tab.get 0 (step t (j, r j)) k = Tab.get 0 t k := by
        cases hr : r j with
        | none => rw [hnone]
        | some v => rw [hsome, Tab.get_set_ne _ _ _ (Ne.symm hjk)]
      simp only [hget, List.mem_cons, Ne.symm hjk, false_or]

/-- Values written at their places, one after the other. -/
theorem get_foldl_set (g : Nat → Nat) (ks : List Nat) (k : Nat) (t : Tab Nat) : Tab.get 0 (ks.foldl (fun u j => Tab.set 0 u j (g j)) t) k = if k ∈ ks then g k else Tab.get 0 t k := by
  induction ks generalizing t with
  | nil => rfl
  | cons j ks ih =>
    rw [List.foldl_cons, ih]
    by_cases hjk : j = k
    · subst hjk
      simp [Tab.get_set_same]
    · simp [Tab.get_set_ne _ _ _ (Ne.symm hjk), Ne.symm hjk]

-- ## Retraining (R306)

/-- A place takes the delay of its result, where it has one. -/
def takeDelay (t : Tab Nat) (e : Nat × Option (Nat × Nat)) : Tab Nat :=
  match e.2 with
  | some v => Tab.set 0 t e.1 v.1
  | none => t

theorem applyTraining_delays (s : State) (c : Nat) (r : Nat → Option (Nat × Nat)) (ks : List Nat) (k : Nat) :
    Tab.get 0 ((s.applyTraining c (ks.map (fun j => (j, r j)))).mchan c).delays k = if k ∈ ks then (r k).elim (Tab.get 0 (s.mchan c).delays k) (·.1) else Tab.get 0 (s.mchan c).delays k := by
  unfold State.applyTraining
  rw [mchan_setMchan]
  exact get_foldl_results (·.1) r takeDelay (fun _ _ _ => rfl) (fun _ _ => rfl) ks k _

theorem all_results {ks : List Nat} {r : Nat → Option (Nat × Nat)} (h : ∀ k ∈ ks, r k ≠ none) : (ks.map (fun k => (k, r k))).all (fun e => e.2.isSome) = true := by
  rw [List.all_map, List.all_eq_true]
  exact fun k hk => Option.isSome_iff_ne_none.mpr (h k hk)

theorem not_all_results {ks : List Nat} {r : Nat → Option (Nat × Nat)} {j : Nat} (hj : j ∈ ks) (h : r j = none) : (ks.map (fun k => (k, r k))).all (fun e => e.2.isSome) = false := by
  rw [List.all_map, List.all_eq_false]
  exact ⟨j, hj, by simp [h]⟩

/-- The registers in which a training ends. -/
def trainValues (c result state : Nat) : List (Fld × Nat × Nat) := [(F.DDR_TRAIN_BUSY, c, 0), (F.DDR_TRAIN_RESULT, c, result), (F.DDR_STATUS_STATE, c, state)]

theorem sets_trainEnd (s : State) (c : Nat) (ok : Bool) {state : Nat} (h : state < 2 ^ F.DDR_STATUS_STATE.len) : Sets s (trainValues c (if ok then 1 else 2) state) ((s.trainEnd c ok).setF F.DDR_STATUS_STATE c state) :=
  (((Sets.refl s).putNew F.DDR_TRAIN_BUSY c 0 rfl (by decide)).putNew F.DDR_TRAIN_RESULT c (if ok then 1 else 2) rfl (by cases ok <;> decide)).putNew F.DDR_STATUS_STATE c state rfl h

theorem endRetrainJobs_off (s : State) (c : Nat) (ok : Bool) : Off [F.MBX_STATUS_JOB_DONE] s (s.endRetrainJobs c ok) :=
  (Off.refl _ s).chainAll _ _ fun _ u => (Off.refl _ u).endJob _ _ _ rfl

theorem mem_endJob (s : State) (n : Nat) (ok : Bool) (st : Nat) : (s.endJob n ok st).mem = s.mem ∧ (s.endJob n ok st).dram = s.dram := by
  unfold State.endJob
  split <;> exact ⟨rfl, rfl⟩

theorem endRetrainJobs_mem (s : State) (c : Nat) (ok : Bool) : (s.endRetrainJobs c ok).mem = s.mem :=
  chainAll_keep State.mem _ _ (fun _ u => (mem_endJob u _ _ _).1) s

theorem endRetrainJobs_dram (s : State) (c : Nat) (ok : Bool) : (s.endRetrainJobs c ok).dram = s.dram :=
  chainAll_keep State.dram _ _ (fun _ u => (mem_endJob u _ _ _).2) s

theorem endRetrainJobs_mchan (s : State) (c k : Nat) (ok : Bool) : (s.endRetrainJobs c ok).mchan k = s.mchan k := by
  rw [State.mchan, State.mchan, endRetrainJobs_mem]

/-- What each place of channel `c` finds in a retrain. -/
def State.retrainResults (s : State) (c : Nat) (l : List LaneSweep) : List (Nat × Option (Nat × Nat)) := (s.laneSlots c).map (fun k => (k, s.laneResult c true l k))

/-- A retrain that found a delay at every place. -/
def State.retrainedWell (s : State) (c : Nat) (l : List LaneSweep) : State := ((s.applyTraining c (s.retrainResults c l)).trainEnd c true).setF F.DDR_STATUS_STATE c ddrReady

/-- A retrain in which a place failed. -/
def State.retrainedIll (s : State) (c : Nat) (l : List LaneSweep) : State := ((s.applyTraining c (s.retrainResults c l)).trainEnd c false).setF F.DDR_STATUS_STATE c ddrReady

theorem retrainDone_well {s : State} {c : Nat} {l : List LaneSweep} (hs : s.ddrState c = ddrRetraining) (h : ∀ k ∈ s.laneSlots c, s.laneResult c true l k ≠ none) :
    s.retrainDone c l = (s.retrainedWell c l).endRetrainJobs c true := by
  unfold State.retrainDone
  rw [if_neg (not_not.mpr hs)]
  simp only [all_results h, if_true]
  rfl

theorem retrainDone_ill {s : State} {c j : Nat} {l : List LaneSweep} (hs : s.ddrState c = ddrRetraining) (hj : j ∈ s.laneSlots c) (h : s.laneResult c true l j = none) :
    s.retrainDone c l = (((s.retrainedIll c l).setF F.DDR_EVENT_RETRAIN_FAIL c 1).draw.raiseFault 20 c ((s.retrainedIll c l).setF F.DDR_EVENT_RETRAIN_FAIL c 1).failDetail).endRetrainJobs c false := by
  unfold State.retrainDone
  rw [if_neg (not_not.mpr hs)]
  simp only [not_all_results (r := fun k => s.laneResult c true l k) hj h, Bool.false_eq_true, if_false]
  rfl

theorem retrained_delays (s : State) {c k : Nat} (l : List LaneSweep) (hk : k ∈ s.laneSlots c) (ok : Bool) :
    Tab.get 0 ((((s.applyTraining c (s.retrainResults c l)).trainEnd c ok).setF F.DDR_STATUS_STATE c ddrReady).mchan c).delays k = (s.laneResult c true l k).elim (Tab.get 0 (s.mchan c).delays k) (·.1) := by
  have h := applyTraining_delays s c (fun j => s.laneResult c true l j) (s.laneSlots c) k
  rw [if_pos hk] at h
  exact h

theorem some_elim_fst {r : Option (Nat × Nat)} (h : r ≠ none) (d : Nat) : some (r.elim d (·.1)) = r.map (·.1) := by
  obtain ⟨v, rfl⟩ := Option.ne_none_iff_exists'.mp h
  rfl

theorem exec_retrainDone {c : Nat} (hc : c < 4) (l : List LaneSweep) (s : State) : exec (.ddrRetrainDone c l) s = .next (s.retrainDone c l) :=
  onInstance_of (decide_eq_true hc) _

/-- A retrain that finds a delay at every place: all new delays together. -/
theorem retrain_passes (s : State) (c : Nat) (l : List LaneSweep) (hc : c < 4) (hs : s.ddrState c = ddrRetraining) (h : ∀ k ∈ s.laneSlots c, s.laneResult c true l k ≠ none) :
    ∃ t, exec (.ddrRetrainDone c l) s = .next t ∧ t.f F.DDR_STATUS_STATE c = 2 ∧ t.f F.DDR_TRAIN_BUSY c = 0 ∧ t.f F.DDR_TRAIN_RESULT c = 1 ∧
      (∀ k ∈ s.laneSlots c, some (Tab.get 0 (t.mchan c).delays k) = (s.laneResult c true l k).map (·.1)) ∧ t.dram = s.dram ∧
      ∀ (y : Fld) (i : Nat), y.outside [F.DDR_STATUS_STATE, F.DDR_TRAIN_BUSY, F.DDR_TRAIN_RESULT, F.MBX_STATUS_JOB_DONE] → t.f y i = s.f y i := by
  have hset : Sets (s.applyTraining c (s.retrainResults c l)) (trainValues c 1 ddrReady) (s.retrainedWell c l) := sets_trainEnd _ c true (by decide)
  have hjobs := endRetrainJobs_off (s.retrainedWell c l) c true
  refine ⟨_, (exec_retrainDone hc l s).trans (congrArg Host.Outcome.next (retrainDone_well hs h)), ?_, ?_, ?_, fun k hk => ?_, ?_, ?_⟩
  · exact (hjobs.at_ _ _ rfl).trans (hset.2.1 (F.DDR_STATUS_STATE, c, ddrReady) (by simp [trainValues]))
  · exact (hjobs.at_ _ _ rfl).trans (hset.2.1 (F.DDR_TRAIN_BUSY, c, 0) (by simp [trainValues]))
  · exact (hjobs.at_ _ _ rfl).trans (hset.2.1 (F.DDR_TRAIN_RESULT, c, 1) (by simp [trainValues]))
  · rw [endRetrainJobs_mchan, State.retrainedWell, retrained_delays s l hk true]
    exact some_elim_fst (h k hk) _
  · exact endRetrainJobs_dram _ c true
  · have hoff : Off [F.DDR_STATUS_STATE, F.DDR_TRAIN_BUSY, F.DDR_TRAIN_RESULT, F.MBX_STATUS_JOB_DONE] s (s.retrainedWell c l) := (Off.same (s := s) (t := s.applyTraining c _) rfl).trans (hset.off.mono rfl)
    exact hoff.trans (hjobs.mono rfl)

/-- A retrain in which a place fails: the place keeps its delay, and the failure is raised. -/
theorem retrain_fails (s : State) (c j : Nat) (l : List LaneSweep) (hc : c < 4) (hs : s.ddrState c = ddrRetraining) (hj : j ∈ s.laneSlots c) (h : s.laneResult c true l j = none) :
    ∃ t, exec (.ddrRetrainDone c l) s = .next t ∧ t.f F.DDR_STATUS_STATE c = 2 ∧ t.f F.DDR_TRAIN_BUSY c = 0 ∧ t.f F.DDR_TRAIN_RESULT c = 2 ∧ t.f F.DDR_EVENT_RETRAIN_FAIL c = 1 ∧ t.f F.FLT_SRC_STATUS_ACTIVE 20 = 1 ∧ t.f F.FLT_SRC_STATUS_INSTANCE 20 = c ∧
      Tab.get 0 (t.mchan c).delays j = Tab.get 0 (s.mchan c).delays j ∧ t.dram = s.dram := by
  have hset : Sets (s.applyTraining c (s.retrainResults c l)) (trainValues c 2 ddrReady ++ [(F.DDR_EVENT_RETRAIN_FAIL, c, 1)]) ((s.retrainedIll c l).setF F.DDR_EVENT_RETRAIN_FAIL c 1) :=
    (sets_trainEnd _ c false (by decide)).putNew F.DDR_EVENT_RETRAIN_FAIL c 1 rfl (by decide)
  have hdelay := retrained_delays s l hj false
  rw [h] at hdelay
  have hdone := (exec_retrainDone hc l s).trans (congrArg Host.Outcome.next (retrainDone_ill hs hj h))
  generalize hu : (s.retrainedIll c l).setF F.DDR_EVENT_RETRAIN_FAIL c 1 = u at hset hdone
  have hraise : Off raiseFields u (u.draw.raiseFault 20 c u.failDetail) := ((Off.refl _ u).draw).raise _ _ _ rfl
  have hjobs := endRetrainJobs_off (u.draw.raiseFault 20 c u.failDetail) c false
  refine ⟨_, hdone, ?_, ?_, ?_, ?_, ?_, ?_, ?_, ?_⟩
  · exact ((hjobs.at_ _ _ rfl).trans (hraise.at_ _ _ rfl)).trans (hset.2.1 (F.DDR_STATUS_STATE, c, ddrReady) (by simp [trainValues]))
  · exact ((hjobs.at_ _ _ rfl).trans (hraise.at_ _ _ rfl)).trans (hset.2.1 (F.DDR_TRAIN_BUSY, c, 0) (by simp [trainValues]))
  · exact ((hjobs.at_ _ _ rfl).trans (hraise.at_ _ _ rfl)).trans (hset.2.1 (F.DDR_TRAIN_RESULT, c, 2) (by simp [trainValues]))
  · exact ((hjobs.at_ _ _ rfl).trans (hraise.at_ _ _ rfl)).trans (hset.2.1 (F.DDR_EVENT_RETRAIN_FAIL, c, 1) (by simp [trainValues]))
  · exact (hjobs.at_ _ _ rfl).trans (State.raiseFault_active _ _ _ _)
  · exact ((hjobs.at_ _ _ rfl).trans (raiseFault_instance _ _ _ (by decide))).trans (Nat.mod_eq_of_lt (by omega))
  · rw [endRetrainJobs_mchan, mchan_raiseFault, ← hu]
    exact hdelay
  · rw [endRetrainJobs_dram, dram_raiseFault, ← hu]
    rfl

-- ## Starting a retrain (R305, R306)

theorem sets_beginRetrain (s : State) (c : Nat) : Sets (s.setMchan c { s.mchan c with retrainDue := false }) [(F.DDR_STATUS_STATE, c, 3), (F.DDR_TRAIN_BUSY, c, 1)] (s.beginRetrain c) :=
  ((Sets.refl _).putNew F.DDR_STATUS_STATE c 3 rfl (by decide)).putNew F.DDR_TRAIN_BUSY c 1 rfl (by decide)

theorem exec_trainStart {s : State} {o : Origin} {c : Nat} (w : Word) (hc : c < 4) (hw : s.writeOk o .DDR_TRAIN c = true) : exec (.ddrTrainStart o c w) s = .next (s.trainWrite c w.toNat) :=
  calc exec (.ddrTrainStart o c w) s = onInstance (memChan c) (s.regWriteBy o .DDR_TRAIN c w) := rfl
    _ = .next (s.writeReg o .DDR_TRAIN c w.toNat) := by rw [onInstance_of (show memChan c = true from decide_eq_true hc), regWriteBy_eq w hw (regAt_DDR_TRAIN hc) (by decide)]

theorem exec_fillStart {s : State} {o : Origin} {c : Nat} (w : Word) (hc : c < 4) (hw : s.writeOk o .DDR_FILL c = true) :
    exec (.ddrFillStart o c w) s = .next (if w.toNat.testBit 31 then s.fillStart c else s) :=
  calc exec (.ddrFillStart o c w) s = onInstance (memChan c) (s.regWriteBy o .DDR_FILL c w) := rfl
    _ = .next (s.writeReg o .DDR_FILL c w.toNat) := by rw [onInstance_of (show memChan c = true from decide_eq_true hc), regWriteBy_eq w hw (regAt_DDR_FILL hc) (by decide)]

/-- The highest bit of a word. -/
theorem topBit (w : Word) : w.toNat.testBit 31 = decide (w.toNat / 2 ^ 31 = 1) := by
  have h := w.isLt
  rw [Nat.testBit_eq_decide_div_mod_eq]
  exact decide_eq_decide.mpr (by omega)

theorem sets_eyeMin (s : State) (c : Nat) (w : Nat) : Sets s [(F.DDR_TRAIN_EYE_MIN, c, w % 128)] (s.writePlain .DDR_TRAIN c w) := by
  have hone : s.writePlain .DDR_TRAIN c w = s.setF F.DDR_TRAIN_EYE_MIN c (F.DDR_TRAIN_EYE_MIN.of w) := rfl
  have hof : F.DDR_TRAIN_EYE_MIN.of w = w % 128 := by simp [Fld.of, F.DDR_TRAIN_EYE_MIN]
  rw [hone, hof]
  exact (Sets.refl s).putNew F.DDR_TRAIN_EYE_MIN c _ rfl (Nat.mod_lt _ (by decide))

/-- Clause of O60: a START while the channel is ready. -/
theorem trainStart_ready (s : State) (o : Origin) (c : Nat) (w : Word) (hc : c < 4) (hw : s.writeOk o .DDR_TRAIN c = true) (hstart : w.toNat / 2 ^ 31 = 1) (hs : s.ddrState c = ddrReady) :
    ∃ t, exec (.ddrTrainStart o c w) s = .next t ∧ Sets (s.setMchan c { s.mchan c with retrainDue := false }) [(F.DDR_TRAIN_EYE_MIN, c, w.toNat % 128), (F.DDR_STATUS_STATE, c, 3), (F.DDR_TRAIN_BUSY, c, 1)] t := by
  have hplain := sets_eyeMin s c w.toNat
  have hstate : (s.writePlain .DDR_TRAIN c w.toNat).ddrState c = ddrReady := (hplain.f_eq F.DDR_STATUS_STATE c rfl).trans hs
  refine ⟨_, exec_trainStart w hc hw, ?_⟩
  rw [State.trainWrite, topBit, if_pos (decide_eq_true hstart), State.trainStart, if_pos hstate]
  have hchan : (s.writePlain .DDR_TRAIN c w.toNat).mchan c = s.mchan c := RegsOnly.mchan hplain.regsOnly c
  have hbegin := sets_beginRetrain (s.writePlain .DDR_TRAIN c w.toNat) c
  rw [hchan] at hbegin
  exact (hplain.setMchan c _).append hbegin rfl

/-- Clause of O60: a START in self-refresh. -/
theorem trainStart_selfRefresh (s : State) (o : Origin) (c : Nat) (w : Word) (hc : c < 4) (hw : s.writeOk o .DDR_TRAIN c = true) (hstart : w.toNat / 2 ^ 31 = 1) (hs : s.ddrState c = ddrSelfRefresh) :
    ∃ t, exec (.ddrTrainStart o c w) s = .next t ∧ Sets (s.setMchan c { s.mchan c with retrainDue := true }) [(F.DDR_TRAIN_EYE_MIN, c, w.toNat % 128)] t := by
  have hplain := sets_eyeMin s c w.toNat
  have hstate : (s.writePlain .DDR_TRAIN c w.toNat).ddrState c = ddrSelfRefresh := (hplain.f_eq F.DDR_STATUS_STATE c rfl).trans hs
  refine ⟨_, exec_trainStart w hc hw, ?_⟩
  rw [State.trainWrite, topBit, if_pos (decide_eq_true hstart), State.trainStart, if_neg (by rw [hstate]; decide), if_pos hstate]
  have hchan : (s.writePlain .DDR_TRAIN c w.toNat).mchan c = s.mchan c := RegsOnly.mchan hplain.regsOnly c
  rw [hchan]
  exact hplain.setMchan c _

/-- Clause of O60: no START, or one in another state of the channel. -/
theorem trainStart_none (s : State) (o : Origin) (c : Nat) (w : Word) (hc : c < 4) (hw : s.writeOk o .DDR_TRAIN c = true) (h : w.toNat / 2 ^ 31 = 0 ∨ (s.ddrState c ≠ ddrReady ∧ s.ddrState c ≠ ddrSelfRefresh)) :
    ∃ t, exec (.ddrTrainStart o c w) s = .next t ∧ Sets s [(F.DDR_TRAIN_EYE_MIN, c, w.toNat % 128)] t := by
  have hplain := sets_eyeMin s c w.toNat
  have hstate : (s.writePlain .DDR_TRAIN c w.toNat).ddrState c = s.ddrState c := hplain.f_eq F.DDR_STATUS_STATE c rfl
  refine ⟨_, exec_trainStart w hc hw, ?_⟩
  rw [State.trainWrite, topBit]
  rcases h with hstart | ⟨hready, hself⟩
  · rw [if_neg (by rw [hstart]; decide)]
    exact hplain
  · rw [State.trainStart, hstate, if_neg hready, if_neg hself, ite_self]
    exact hplain

-- ## The training of start-up (R303 to R305, R395)

theorem sets_trained (s : State) (c : Nat) : Sets s (trainValues c 1 ddrReady ++ [(F.DDR_FILL_BUSY, c, 1)]) (s.trained c) :=
  (sets_trainEnd s c true (by decide)).putNew F.DDR_FILL_BUSY c 1 rfl (by decide)

theorem exec_trainingDone {c : Nat} (hc : c < 4) (l : List LaneSweep) (s : State) : exec (.ddrTrainingDone c l) s = .next (s.trainingDone c l) :=
  onInstance_of (decide_eq_true hc) _

/-- The snapshot's delays serve. -/
theorem trainingDone_snapshot {s : State} {c : Nat} (l : List LaneSweep) (hs : s.ddrState c = ddrTraining) (h : s.snapshotServes c = true) :
    ∃ u : State, s.trainingDone c l = u.trained c ∧ u.regs = s.regs ∧ u.dram = s.dram ∧ (u.mchan c).restored = [] ∧
      (u.mchan c).delays = (s.laneSlots c).foldl (fun t k => Tab.set 0 t k ((Tab.get none (s.mchan c).restored k).getD 0)) (s.mchan c).delays := by
  unfold State.trainingDone
  rw [if_neg (not_not.mpr hs), if_pos h]
  refine ⟨_, rfl, rfl, rfl, ?_, ?_⟩
  · rw [mchan_setMchan]
  · rw [mchan_setMchan]

/-- The snapshot is used up. -/
def State.unrestored (s : State) (c : Nat) : State := s.draw.setMchan c { s.mchan c with restored := [] }

theorem laneResult_unrestored (s : State) (c : Nat) (l : List LaneSweep) (k : Nat) : (s.unrestored c).laneResult c false l k = s.laneResult c false l k := by
  have hdelays : ((s.unrestored c).mchan c).delays = (s.mchan c).delays := by rw [State.unrestored, mchan_setMchan]
  rw [State.laneResult, State.laneResult, hdelays]
  rfl

/-- What each place of channel `c` finds in the training of start-up. -/
def State.trainResults (s : State) (c : Nat) (l : List LaneSweep) : List (Nat × Option (Nat × Nat)) := (s.laneSlots c).map (fun k => (k, s.laneResult c false l k))

theorem trainResults_unrestored (s : State) (c : Nat) (l : List LaneSweep) : (s.unrestored c).trainResults c l = s.trainResults c l := by
  rw [State.trainResults, State.trainResults, show (s.unrestored c).laneSlots c = s.laneSlots c from rfl]
  exact List.map_congr_left fun k _ => by rw [laneResult_unrestored]

/-- The sweeps serve: the delays found, together, in a channel without a snapshot. -/
def State.swept (s : State) (c : Nat) (l : List LaneSweep) : State := (s.unrestored c).applyTraining c (s.trainResults c l)

/-- A training of start-up that failed. -/
def State.sweptIll (s : State) (c : Nat) (l : List LaneSweep) : State := ((s.swept c l).trainEnd c false).setF F.DDR_STATUS_STATE c ddrFailed

theorem trainingDone_swept {s : State} {c : Nat} (l : List LaneSweep) (hs : s.ddrState c = ddrTraining) (h : s.snapshotServes c = false) :
    s.trainingDone c l = if (s.trainResults c l).all (fun e => e.2.isSome) then (s.swept c l).trained c
      else (s.sweptIll c l).draw.raiseFault 21 c (s.sweptIll c l).failDetail := by
  unfold State.trainingDone
  rw [if_neg (not_not.mpr hs), if_neg (by rw [h]; decide), State.swept, ← trainResults_unrestored]
  rfl

theorem trainingDone_well {s : State} {c : Nat} {l : List LaneSweep} (hs : s.ddrState c = ddrTraining) (h : s.snapshotServes c = false) (hall : (s.trainResults c l).all (fun e => e.2.isSome) = true) :
    s.trainingDone c l = (s.swept c l).trained c := by rw [trainingDone_swept l hs h, if_pos hall]

theorem trainingDone_ill {s : State} {c : Nat} {l : List LaneSweep} (hs : s.ddrState c = ddrTraining) (h : s.snapshotServes c = false) (hall : ¬(s.trainResults c l).all (fun e => e.2.isSome) = true) :
    s.trainingDone c l = (s.sweptIll c l).draw.raiseFault 21 c (s.sweptIll c l).failDetail := by rw [trainingDone_swept l hs h, if_neg hall]

theorem trained_mchan (s : State) (c k : Nat) : (s.trained c).mchan k = s.mchan k := RegsOnly.mchan (sets_trained s c).regsOnly k

theorem trained_dram (s : State) (c : Nat) (l : List LaneSweep) : ((s.swept c l).trained c).dram = s.dram := (RegsOnly.dram (sets_trained (s.swept c l) c).regsOnly).trans rfl

theorem swept_restored (s : State) (c : Nat) (l : List LaneSweep) : ((s.swept c l).mchan c).restored = [] := by
  rw [State.swept, State.applyTraining, mchan_setMchan, State.unrestored, mchan_setMchan]

theorem swept_delays (s : State) {c k : Nat} (l : List LaneSweep) (hk : k ∈ s.laneSlots c) (h : s.laneResult c false l k ≠ none) :
    some (Tab.get 0 ((s.swept c l).mchan c).delays k) = (s.laneResult c false l k).map (·.1) := by
  have hget := applyTraining_delays (s.unrestored c) c (fun j => s.laneResult c false l j) (s.laneSlots c) k
  rw [if_pos hk] at hget
  exact (congrArg some hget).trans (some_elim_fst h _)

theorem sets_sweptIll (s : State) (c : Nat) (l : List LaneSweep) : Sets (s.swept c l) (trainValues c 2 ddrFailed) (s.sweptIll c l) := sets_trainEnd _ c false (by decide)

/-- The registers of a failed training, its fault, and what it leaves. -/
theorem sweptIll_raised (s : State) {c : Nat} (l : List LaneSweep) (hc : c < 4) {t : State} (ht : t = (s.sweptIll c l).draw.raiseFault 21 c (s.sweptIll c l).failDetail) :
    t.f F.DDR_STATUS_STATE c = 5 ∧ t.f F.DDR_TRAIN_BUSY c = 0 ∧ t.f F.DDR_TRAIN_RESULT c = 2 ∧ t.f F.FLT_SRC_STATUS_ACTIVE 21 = 1 ∧ t.f F.FLT_SRC_STATUS_INSTANCE 21 = c ∧ t.dram = s.dram ∧ (t.mchan c).restored = [] := by
  subst ht
  have hset := sets_sweptIll s c l
  have hraise : Off raiseFields (s.sweptIll c l) ((s.sweptIll c l).draw.raiseFault 21 c (s.sweptIll c l).failDetail) := ((Off.refl _ _).draw).raise _ _ _ rfl
  refine ⟨?_, ?_, ?_, State.raiseFault_active _ _ _ _, ?_, ?_, ?_⟩
  · exact (hraise.at_ _ _ rfl).trans (hset.2.1 (F.DDR_STATUS_STATE, c, ddrFailed) (by simp [trainValues]))
  · exact (hraise.at_ _ _ rfl).trans (hset.2.1 (F.DDR_TRAIN_BUSY, c, 0) (by simp [trainValues]))
  · exact (hraise.at_ _ _ rfl).trans (hset.2.1 (F.DDR_TRAIN_RESULT, c, 2) (by simp [trainValues]))
  · exact (raiseFault_instance _ _ _ (by decide)).trans (Nat.mod_eq_of_lt (by omega))
  · rw [dram_raiseFault]
    rfl
  · rw [mchan_raiseFault]
    exact swept_restored s c l

theorem trained_parts (u : State) (c : Nat) : (u.trained c).f F.DDR_STATUS_STATE c = 2 ∧ (u.trained c).f F.DDR_TRAIN_BUSY c = 0 ∧ (u.trained c).f F.DDR_TRAIN_RESULT c = 1 ∧ (u.trained c).f F.DDR_FILL_BUSY c = 1 := by
  have hset := (sets_trained u c).2.1
  exact ⟨hset (F.DDR_STATUS_STATE, c, ddrReady) (by simp [trainValues]), hset (F.DDR_TRAIN_BUSY, c, 0) (by simp [trainValues]), hset (F.DDR_TRAIN_RESULT, c, 1) (by simp [trainValues]),
    hset (F.DDR_FILL_BUSY, c, 1) (by simp [trainValues])⟩

/-- The snapshot has a delay for every place. -/
theorem snapshot_delay {s : State} {c k : Nat} (h : s.snapshotServes c = true) (hk : k ∈ s.laneSlots c) : some ((Tab.get none (s.mchan c).restored k).getD 0) = Tab.get none (s.mchan c).restored k := by
  have hall := List.all_eq_true.mp h k hk
  rw [Bool.and_eq_true] at hall
  obtain ⟨d, hd⟩ := Option.isSome_iff_exists.mp hall.1
  rw [hd]
  rfl

/-- Clause of O60: the end of a training of start-up. -/
theorem training_ends (s : State) (c : Nat) (l : List LaneSweep) (hc : c < 4) (hs : s.ddrState c = ddrTraining) :
    ∃ t, exec (.ddrTrainingDone c l) s = .next t ∧ t.f F.DDR_TRAIN_BUSY c = 0 ∧ (t.mchan c).restored = [] ∧ t.dram = s.dram ∧
      ((t.f F.DDR_STATUS_STATE c = 2 ∧ t.f F.DDR_TRAIN_RESULT c = 1 ∧ t.f F.DDR_FILL_BUSY c = 1) ∨ (t.f F.DDR_STATUS_STATE c = 5 ∧ t.f F.DDR_TRAIN_RESULT c = 2)) ∧
      (s.snapshotServes c = true → t.f F.DDR_STATUS_STATE c = 2 ∧ ∀ k ∈ s.laneSlots c, some (Tab.get 0 (t.mchan c).delays k) = Tab.get none (s.mchan c).restored k) := by
  refine ⟨_, exec_trainingDone hc l s, ?_⟩
  cases hserves : s.snapshotServes c with
  | true =>
    obtain ⟨u, hdone, -, hdram, hrestored, hdelays⟩ := trainingDone_snapshot l hs hserves
    obtain ⟨hstate, hbusy, hresult, hfill⟩ := trained_parts u c
    rw [hdone]
    refine ⟨hbusy, (congrArg MemChan.restored (trained_mchan u c c)).trans hrestored, hdram, .inl ⟨hstate, hresult, hfill⟩, fun _ => ⟨hstate, fun k hk => ?_⟩⟩
    rw [← snapshot_delay hserves hk, trained_mchan, hdelays, get_foldl_set, if_pos hk]
  | false =>
    by_cases hall : (s.trainResults c l).all (fun e => e.2.isSome) = true
    · obtain ⟨hstate, hbusy, hresult, hfill⟩ := trained_parts (s.swept c l) c
      rw [trainingDone_well hs hserves hall]
      exact ⟨hbusy, (congrArg MemChan.restored (trained_mchan _ c c)).trans (swept_restored s c l), trained_dram s c l, .inl ⟨hstate, hresult, hfill⟩, nofun⟩
    · obtain ⟨hstate, hbusy, hresult, -, -, hdram, hrestored⟩ := sweptIll_raised s l hc (trainingDone_ill hs hserves hall)
      exact ⟨hbusy, hrestored, hdram, .inr ⟨hstate, hresult⟩, nofun⟩

-- ## Fills (R303, R404)

/-- DRAM with the lines of channel `c` zero that requester 10 may write. -/
def State.zeroed (s : State) (c : Nat) : State :=
  ({ s with dram := s.dram.filter (fun e => decide (s.channelOf e.1 ≠ c) || !s.permitted 10 e.1 true true) } : State).withMem
    (fun w => { w with poison := w.poison.filter (fun l => decide (s.channelOf (64 * l) ≠ c) || !s.permitted 10 (64 * l) true true) })

theorem fillDone_eq {s : State} {c : Nat} (h : s.f F.DDR_FILL_BUSY c = 1) :
    s.fillDone c = if s.stage = 3 then ((s.zeroed c).setF F.DDR_FILL_BUSY c 0).setF F.DDR_CTRL_EN c 1 else (s.zeroed c).setF F.DDR_FILL_BUSY c 0 := by
  have hbusy : s.fb F.DDR_FILL_BUSY c = true := decide_eq_true h
  have hstage : ((s.zeroed c).setF F.DDR_FILL_BUSY c 0).stage = s.stage := State.f_setF_code _ _ _ _ _ _ (by decide)
  rw [← hstage, State.fillDone, hbusy]
  rfl

theorem sets_fillDone (s : State) (c : Nat) (h : s.f F.DDR_FILL_BUSY c = 1) : Sets (s.zeroed c) ((F.DDR_FILL_BUSY, c, 0) :: if s.stage = 3 then [(F.DDR_CTRL_EN, c, 1)] else []) (s.fillDone c) := by
  have hone := (Sets.refl (s.zeroed c)).putNew F.DDR_FILL_BUSY c 0 rfl (by decide)
  rw [fillDone_eq h]
  split
  · exact hone.putNew F.DDR_CTRL_EN c 1 rfl (by decide)
  · exact hone

/-- Clause of O60: the end of a fill. -/
theorem fill_ends (s : State) (c : Nat) (hc : c < 4) (h : s.f F.DDR_FILL_BUSY c = 1) :
    ∃ t, exec (.ddrFillDone c) s = .next t ∧ t.dram = s.dram.filter (fun e => decide (s.channelOf e.1 ≠ c) || !s.permitted 10 e.1 true true) ∧
      t.mem.poison = s.mem.poison.filter (fun k => decide (s.channelOf (64 * k) ≠ c) || !s.permitted 10 (64 * k) true true) ∧ t.haul = s.haul ∧ t.codec = s.codec ∧
      Fields s ((F.DDR_FILL_BUSY, c, 0) :: if s.stage = 3 then [(F.DDR_CTRL_EN, c, 1)] else []) t := by
  have hset := sets_fillDone s c h
  have hregs : RegsOnly (s.zeroed c) (s.fillDone c) := hset.regsOnly
  exact ⟨_, onInstance_of (decide_eq_true hc) _, hregs.dram, congrArg MemState.poison hregs.mem, hregs.haul, hregs.codec, hset.2.1, hset.2.2⟩

/-- Clause of O60: every place of the sweeps passes. -/
theorem training_passes (s : State) (c : Nat) (l : List LaneSweep) (hc : c < 4) (hs : s.ddrState c = ddrTraining) (hserves : s.snapshotServes c = false) (h : ∀ k ∈ s.laneSlots c, s.laneResult c false l k ≠ none) :
    ∃ t, exec (.ddrTrainingDone c l) s = .next t ∧ (∀ k ∈ s.laneSlots c, some (Tab.get 0 (t.mchan c).delays k) = (s.laneResult c false l k).map (·.1)) ∧ t.dram = s.dram ∧
      Fields s [(F.DDR_STATUS_STATE, c, 2), (F.DDR_TRAIN_BUSY, c, 0), (F.DDR_TRAIN_RESULT, c, 1), (F.DDR_FILL_BUSY, c, 1)] t := by
  have hdone := (exec_trainingDone hc l s).trans (congrArg Host.Outcome.next (trainingDone_well hs hserves (all_results h)))
  refine ⟨_, hdone, fun k hk => ?_, trained_dram s c l, ?_⟩
  · rw [trained_mchan]
    exact swept_delays s l hk (h k hk)
  · have hset : Sets (s.swept c l) [(F.DDR_STATUS_STATE, c, 2), (F.DDR_TRAIN_BUSY, c, 0), (F.DDR_TRAIN_RESULT, c, 1), (F.DDR_FILL_BUSY, c, 1)] ((s.swept c l).trained c) :=
      (sets_trained (s.swept c l) c).perm fun e => by simp only [trainValues, ddrReady, List.mem_append, List.mem_cons, List.not_mem_nil]; tauto
    exact ⟨hset.2.1, hset.2.2⟩

/-- Settles O60, operation by operation: what starts a retrain, and how retrains, trainings and fills end. -/
theorem trainingEvents : Obligations.TrainingEvents := by
  unfold Obligations.TrainingEvents
  refine ⟨fun s c d hc hs hstage hhalt hd => ?_, fun s c d hc h => ?_, fun s c hc hdue hs hpause hhand => ?_, fun s c hc h => ?_, fun s c l hc h => ?_, fun s c l hc hs h => retrain_passes s c l hc hs h,
    fun s c j l hc hs hj h => retrain_fails s c j l hc hs hj h, trainStart_ready, trainStart_selfRefresh, trainStart_none, fun s c l hc h => ?_, training_ends, training_passes, fun s c j l hc hs hserves hj h => ?_,
    fun s o c w hc hw hstart hen hs => ?_, fun s o c w hc hw h => ?_, fun s c hc h => ?_, fill_ends⟩
  · refine ⟨_, onInstance_of (decide_eq_true hc) _, ?_⟩
    rw [State.driftCheck, if_pos (by simp [hs, hstage, hhalt]; omega)]
    exact ((Sets.refl s).putNew F.DDR_EVENT_DRIFT c 1 rfl (by decide)).setMchan c _
  · refine (onInstance_of (decide_eq_true hc) _).trans (congrArg Host.Outcome.next ?_)
    refine if_neg fun hall => ?_
    simp only [Bool.and_eq_true, decide_eq_true_eq, Bool.not_eq_true'] at hall
    obtain ⟨⟨⟨hready, hstage⟩, hhalt⟩, hd⟩ := hall
    rcases h with h | h | h | h
    · exact h hready
    · exact h hstage
    · exact Bool.noConfusion (hhalt.symm.trans h)
    · omega
  · refine ⟨_, onInstance_of (decide_eq_true hc) _, ?_⟩
    rw [State.retrainStart, if_pos (by simp [hdue, hs, hpause, hhand])]
    exact (sets_beginRetrain s c).through (g := fun u => u.withMem (fun w => { w with gapUsed := true })) (by intro _ _; rfl) (by intro _; rfl)
  · refine (onInstance_of (decide_eq_true hc) _).trans (congrArg Host.Outcome.next ?_)
    refine if_neg fun hall => ?_
    simp only [Bool.and_eq_true, decide_eq_true_eq, Bool.not_eq_true'] at hall
    obtain ⟨⟨⟨hdue, hready⟩, hpause⟩, hhand⟩ := hall
    rcases h with h | h | h | h
    · exact Bool.noConfusion (hdue.symm.trans h)
    · exact h hready
    · exact Bool.noConfusion (hpause.symm.trans h)
    · exact Bool.noConfusion (hhand.symm.trans h)
  · exact (exec_retrainDone hc l s).trans (congrArg Host.Outcome.next (if_pos h))
  · exact (exec_trainingDone hc l s).trans (congrArg Host.Outcome.next (if_pos h))
  · refine ⟨_, (exec_trainingDone hc l s).trans (congrArg Host.Outcome.next (trainingDone_ill hs hserves (by rw [State.trainResults, not_all_results hj h]; decide))), ?_⟩
    obtain ⟨hstate, hbusy, hresult, hactive, hinst, hdram, -⟩ := sweptIll_raised s l hc rfl
    exact ⟨hstate, hbusy, hresult, hactive, hinst, hdram⟩
  · refine ⟨_, exec_fillStart w hc hw, ?_⟩
    rw [topBit, if_pos (decide_eq_true hstart), State.fillStart, if_neg (by simp [State.fb, hen, hs])]
    exact (Sets.refl s).putNew F.DDR_FILL_BUSY c 1 rfl (by decide)
  · refine (exec_fillStart w hc hw).trans (congrArg Host.Outcome.next ?_)
    rw [topBit]
    rcases h with h | h | h
    · exact if_neg (by rw [h]; decide)
    · have hnone : s.fillStart c = s := if_pos (.inl (decide_eq_true h))
      rw [hnone, ite_self]
    · have hnone : s.fillStart c = s := if_pos (.inr h)
      rw [hnone, ite_self]
  · refine (onInstance_of (decide_eq_true hc) _).trans (congrArg Host.Outcome.next ?_)
    exact if_pos (by simp [State.fb, h])

end Sys2Proof.Machine

/-! Sweeps, samples and registers of the traffic manager (R284, R290, R291). -/

namespace Sys2Proof.Machine

/-- A loop in which one step alone touches a part of the state does to the part what that step does. -/
theorem chainAll_focus {α β : Type} (part : State → β) {l : List α} {g : α → State → State} {a : α} (ha : a ∈ l) (hl : l.Nodup) (hother : ∀ b t, b ≠ a → part (g b t) = part t) (s : State) :
    ∃ u, part u = part s ∧ part (chainAll l g s) = part (g a u) := by
  have hkeep : ∀ (k : List α) (t : State), a ∉ k → part (chainAll k g t) = part t := by
    intro k
    induction k with
    | nil => exact fun _ _ => rfl
    | cons b k ihk => exact fun t hk => (ihk (g b t) fun h => hk (List.mem_cons_of_mem b h)).trans (hother b t fun h => hk (h ▸ List.mem_cons_self))
  induction l generalizing s with
  | nil => cases ha
  | cons b k ih =>
    obtain ⟨hb, hk⟩ := List.nodup_cons.mp hl
    rcases List.mem_cons.mp ha with rfl | hmem
    · exact ⟨s, rfl, hkeep k (g a s) hb⟩
    · obtain ⟨u, hu, hpart⟩ := ih hmem hk (g b s)
      exact ⟨u, hu.trans (hother b s fun h => hb (h ▸ hmem)), hpart⟩

@[simp] theorem tmgQueue_setTmgQueue (s : State) (k : Nat) (x : TmgQueue) : (s.setTmgQueue k x).tmgQueue k = x := Tab.get_set_same _ _ _ _

theorem tmgQueue_setTmgQueue_ne (s : State) {k j : Nat} (x : TmgQueue) (h : j ≠ k) : (s.setTmgQueue k x).tmgQueue j = s.tmgQueue j := Tab.get_set_ne _ _ _ h

theorem Sets.withQ {s t : State} {l : List (Fld × Nat × Nat)} (h : Sets s l t) (g : QueueState → QueueState) : Sets (s.withQ g) l (t.withQ g) :=
  h.through (g := fun u => u.withQ g) (by intro _ _; rfl) (by intro _; rfl)

-- ## Sweeps (R284)

theorem exec_tmgSweep {k : Nat} (h : k < 1414) (s : State) : exec (.tmgSweep k) s = .next (s.sweep k) := onInstance_of (decide_eq_true h) _

theorem sweep_meter (s : State) {k : Nat} (h : k < 1024) : s.sweep k = s.setMeter k (s.meterNow k) := if_pos h

theorem sweep_queue (s : State) {k : Nat} (h : k < 384) : s.sweep (1024 + k) = s.setTmgQueue k { s.tmgQueue k with shaper := s.queueShaper k } := by
  rw [State.sweep, if_neg (by omega), if_pos (by omega), Nat.add_sub_cancel_left]

theorem sweep_port (s : State) (k : Nat) : s.sweep (1408 + k) = s.setTmgPort k { s.tmgPort k with shaper := s.portShaper k } := by
  rw [State.sweep, if_neg (by omega), if_neg (by omega), Nat.add_sub_cancel_left]

-- ## Samples (R291)

/-- The registers that a sample writes. -/
def sampleFields : List Fld := [F.TMG_Q_DMIN_VALUE, F.TMG_Q_DMAX_VALUE, F.TMG_Q_HMIN_VALUE, F.TMG_Q_HMAX_VALUE, F.TMG_Q_DMEAN_MEAN, F.TMG_Q_HMEAN_MEAN]

theorem sampleQueue_off (s : State) (k : Nat) : Off sampleFields s (s.sampleQueue k) := by
  unfold State.sampleQueue
  dsimp only
  exact ((((((Off.refl _ s).setF _ _ _ rfl).setF _ _ _ rfl).setF _ _ _ rfl).setF _ _ _ rfl).setF _ _ _ rfl |>.setF _ _ _ rfl).withQ _

/-- What a sample of queue `k` rests on and writes. -/
def samplePart (k : Nat) (s : State) : (Fld → Nat) × TmgQueue × TimeState := (fun x => s.f x k, s.tmgQueue k, s.time)

theorem samplePart_setF (s : State) (x : Fld) {i k : Nat} (v : Nat) (h : k ≠ i) : samplePart k (s.setF x i v) = samplePart k s :=
  congrArg (fun g => (g, s.tmgQueue k, s.time)) (funext fun y => f_setF_otherInst s x y v h)

theorem samplePart_sampleQueue (s : State) {i k : Nat} (h : k ≠ i) : samplePart k (s.sampleQueue i) = samplePart k s := by
  have hqueue : ∀ (t : State) (x : TmgQueue), samplePart k (t.setTmgQueue i x) = samplePart k t := fun t x => by
    rw [samplePart, samplePart, tmgQueue_setTmgQueue_ne t x h]
    rfl
  unfold State.sampleQueue
  dsimp only
  rw [hqueue]
  simp only [samplePart_setF _ _ _ h]

/-- The sample of port `p` does to queue `k` of it what its own sample does to a state that is the same there. -/
theorem samplePort_focus (s : State) {p q k : Nat} (hq : q < 64) (hk : k = 64 * p + q) : ∃ u, samplePart k u = samplePart k s ∧ samplePart k (s.samplePort p) = samplePart k (u.sampleQueue k) := by
  subst hk
  exact chainAll_focus (samplePart (64 * p + q)) (List.mem_range.mpr hq) List.nodup_range (fun b t hb => samplePart_sampleQueue t (by omega)) s

theorem f_of_samplePart {k : Nat} {t u : State} (h : samplePart k t = samplePart k u) (x : Fld) : t.f x k = u.f x k := congrFun (congrArg Prod.fst h) x

theorem queue_of_samplePart {k : Nat} {t u : State} (h : samplePart k t = samplePart k u) : t.tmgQueue k = u.tmgQueue k := congrArg (fun g => g.2.1) h

theorem headDelay_of_samplePart {k : Nat} {t u : State} (h : samplePart k t = samplePart k u) : t.headDelay k = u.headDelay k := by
  have htime : t.time = u.time := congrArg (fun g => g.2.2) h
  rw [State.headDelay, State.headDelay, queue_of_samplePart h, State.tick4, State.tick4, htime]

/-- One sample of a queue. -/
theorem sampleQueue_values (s : State) (k : Nat) {d h : Nat} {e : List Bool} (hd : d = s.f F.TMG_Q_DEPTH_BYTES k) (hh : h = s.headDelay k) (he : e = (s.tmgQueue k).fresh) :
    (s.sampleQueue k).f F.TMG_Q_DMIN_VALUE k = (if e.getD 0 true then d else min d (s.f F.TMG_Q_DMIN_VALUE k)) % 2 ^ 28 ∧ (s.sampleQueue k).f F.TMG_Q_DMAX_VALUE k = (if e.getD 1 true then d else max d (s.f F.TMG_Q_DMAX_VALUE k)) % 2 ^ 28 ∧
      (s.sampleQueue k).f F.TMG_Q_HMIN_VALUE k = (if e.getD 2 true then h else min h (s.f F.TMG_Q_HMIN_VALUE k)) % 2 ^ 28 ∧ (s.sampleQueue k).f F.TMG_Q_HMAX_VALUE k = (if e.getD 3 true then h else max h (s.f F.TMG_Q_HMAX_VALUE k)) % 2 ^ 28 ∧
      (s.sampleQueue k).f F.TMG_Q_DMEAN_MEAN k = meanStep (s.f F.TMG_Q_DMEAN_MEAN k) d % 2 ^ 32 ∧ (s.sampleQueue k).f F.TMG_Q_HMEAN_MEAN k = meanStep (s.f F.TMG_Q_HMEAN_MEAN k) h % 2 ^ 32 ∧
      ((s.sampleQueue k).tmgQueue k).fresh = [false, false, false, false] ∧ ((s.sampleQueue k).tmgQueue k).copies = (s.tmgQueue k).copies := by
  subst hd hh he
  have hq : ∀ (t : State) (x : TmgQueue) (y : Fld) (i : Nat), (t.setTmgQueue k x).f y i = t.f y i := fun _ _ _ _ => rfl
  unfold State.sampleQueue
  dsimp only
  simp (disch := decide) only [hq, State.f_setF_code, State.f_setF_same, tmgQueue_setTmgQueue]
  exact ⟨rfl, rfl, rfl, rfl, rfl, rfl, trivial, rfl⟩

/-- Clause of O54: a sample of every queue of a port. -/
theorem port_samples (s : State) (p q k d h : Nat) (e : List Bool) (hp : p < 6) (hq : q < 64) (hk : k = 64 * p + q) (hd : d = s.f F.TMG_Q_DEPTH_BYTES k) (hh : h = s.headDelay k) (he : e = (s.tmgQueue k).fresh) :
    ∃ t, exec (.tmgQueueSample p) s = .next t ∧ t.f F.TMG_Q_DMIN_VALUE k = (if e.getD 0 true then d else min d (s.f F.TMG_Q_DMIN_VALUE k)) % 2 ^ 28 ∧ t.f F.TMG_Q_DMAX_VALUE k = (if e.getD 1 true then d else max d (s.f F.TMG_Q_DMAX_VALUE k)) % 2 ^ 28 ∧
      t.f F.TMG_Q_HMIN_VALUE k = (if e.getD 2 true then h else min h (s.f F.TMG_Q_HMIN_VALUE k)) % 2 ^ 28 ∧ t.f F.TMG_Q_HMAX_VALUE k = (if e.getD 3 true then h else max h (s.f F.TMG_Q_HMAX_VALUE k)) % 2 ^ 28 ∧
      t.f F.TMG_Q_DMEAN_MEAN k = meanStep (s.f F.TMG_Q_DMEAN_MEAN k) d % 2 ^ 32 ∧ t.f F.TMG_Q_HMEAN_MEAN k = meanStep (s.f F.TMG_Q_HMEAN_MEAN k) h % 2 ^ 32 ∧ (t.tmgQueue k).fresh = [false, false, false, false] ∧
      (t.tmgQueue k).copies = (s.tmgQueue k).copies ∧
      ∀ (y : Fld) (i : Nat), y.outside [F.TMG_Q_DMIN_VALUE, F.TMG_Q_DMAX_VALUE, F.TMG_Q_HMIN_VALUE, F.TMG_Q_HMAX_VALUE, F.TMG_Q_DMEAN_MEAN, F.TMG_Q_HMEAN_MEAN] → t.f y i = s.f y i := by
  obtain ⟨u, hu, hsample⟩ := samplePort_focus s hq hk
  have hf := f_of_samplePart hu
  have hg := f_of_samplePart hsample
  obtain ⟨hdmin, hdmax, hhmin, hhmax, hdmean, hhmean, hfresh, hcopies⟩ :=
    sampleQueue_values u k (hd.trans (hf _).symm) (hh.trans (headDelay_of_samplePart hu).symm) (he.trans (congrArg TmgQueue.fresh (queue_of_samplePart hu).symm))
  rw [hf] at hdmin hdmax hhmin hhmax hdmean hhmean
  have hoff : Off sampleFields s (s.samplePort p) := (Off.refl _ s).chainAll _ _ fun q t => sampleQueue_off t _
  refine ⟨_, onInstance_of (decide_eq_true hp) _, (hg _).trans hdmin, (hg _).trans hdmax, (hg _).trans hhmin, (hg _).trans hhmax, (hg _).trans hdmean, (hg _).trans hhmean, ?_, ?_, hoff⟩
  · rw [queue_of_samplePart hsample, hfresh]
  · rw [queue_of_samplePart hsample, hcopies, queue_of_samplePart hu]

/-- What a read of a least or greatest value leaves. -/
theorem sets_sampleRead (s : State) (x : Fld) (k j w : Nat) :
    Sets { s.setTmgQueue k { s.tmgQueue k with fresh := (s.tmgQueue k).fresh.set j true } with readData := [w] } [(x, k, 0)] (State.answer (s.sampleRead x k j, w)) := by
  have h := (((Sets.refl s).snoc x k 0 (by simp)).withQ fun v => { v with tmg := Tab.set {} v.tmg k { s.tmgQueue k with fresh := (s.tmgQueue k).fresh.set j true } }).withReadData [w]
  rw [Nat.zero_mod] at h
  exact h

/-- Clause of O54: a read of a least or greatest value clears it. -/
theorem sample_reads (s : State) (o : Origin) (r : RegId) (x : Fld) (k j : Nat) (hk : k < 384)
    (hx : (r, x, j) ∈ [(RegId.TMG_Q_DMIN, F.TMG_Q_DMIN_VALUE, 0), (RegId.TMG_Q_DMAX, F.TMG_Q_DMAX_VALUE, 1), (RegId.TMG_Q_HMIN, F.TMG_Q_HMIN_VALUE, 2), (RegId.TMG_Q_HMAX, F.TMG_Q_HMAX_VALUE, 3)]) (hr : s.readOk o r k = true) :
    ∃ t, exec (.tmgSampleRead o (r.addr k)) s = .next t ∧ Sets { s.setTmgQueue k { s.tmgQueue k with fresh := (s.tmgQueue k).fresh.set j true } with readData := [s.f x k] } [(x, k, 0)] t := by
  have hword : ∀ (a : Nat), regAt (r.addr k) = some (r, k) → upperOf r = none → isUpper r = false → s.readReg o r k = (s.sampleRead x k j, s.plainWord r k) → s.plainWord r k = a →
      exec (.tmgSampleRead o (r.addr k)) s = .next (State.answer (s.sampleRead x k j, a)) := by
    rintro a ha hu hn hread rfl
    calc exec (.tmgSampleRead o (r.addr k)) s = .next (s.busRead o (r.addr k)) := rfl
      _ = _ := by rw [busRead_eq hr ha hu hn, hread]
  refine ⟨_, ?_, sets_sampleRead s x k j (s.f x k)⟩
  simp only [List.mem_cons, List.not_mem_nil, or_false, Prod.mk.injEq] at hx
  rcases hx with ⟨rfl, rfl, rfl⟩ | ⟨rfl, rfl, rfl⟩ | ⟨rfl, rfl, rfl⟩ | ⟨rfl, rfl, rfl⟩
  · exact hword _ (regAt_TMG_Q_DMIN hk) (by decide) (by decide) rfl (by simp [State.plainWord, RegId.info, State.inst, F.TMG_Q_DMIN_VALUE])
  · exact hword _ (regAt_TMG_Q_DMAX hk) (by decide) (by decide) rfl (by simp [State.plainWord, RegId.info, State.inst, F.TMG_Q_DMAX_VALUE])
  · exact hword _ (regAt_TMG_Q_HMIN hk) (by decide) (by decide) rfl (by simp [State.plainWord, RegId.info, State.inst, F.TMG_Q_HMIN_VALUE])
  · exact hword _ (regAt_TMG_Q_HMAX hk) (by decide) (by decide) rfl (by simp [State.plainWord, RegId.info, State.inst, F.TMG_Q_HMAX_VALUE])

-- ## Meters and shapers (R283, R290)

theorem exec_meterEnable {s : State} {o : Origin} (w : Word) (hw : s.writeOk o .TMG_METER_CTRL 0 = true) : exec (.meterEnable o w) s = .next (s.meterWrite w.toNat) :=
  calc exec (.meterEnable o w) s = .next (s.regWriteBy o .TMG_METER_CTRL 0 w) := rfl
    _ = .next (s.writeReg o .TMG_METER_CTRL 0 w.toNat) := by rw [regWriteBy_eq w hw regAt_TMG_METER_CTRL (by decide)]

/-- EN and AWARE of the selected meter. -/
theorem sets_meterCtrl (s : State) {m : Nat} (hm : m = s.f F.TMG_METER_SEL_METER 0) (w : Nat) :
    Sets s [(F.TMG_METER_CTRL_EN, m, w % 2), (F.TMG_METER_CTRL_AWARE, m, w / 2 % 2)] (s.writePlain .TMG_METER_CTRL 0 w) := by
  subst hm
  have hplain : s.writePlain .TMG_METER_CTRL 0 w = (s.setF F.TMG_METER_CTRL_AWARE (s.f F.TMG_METER_SEL_METER 0) (F.TMG_METER_CTRL_AWARE.of w)).setF F.TMG_METER_CTRL_EN (s.f F.TMG_METER_SEL_METER 0) (F.TMG_METER_CTRL_EN.of w) := by
    have hinst : ∀ x : Fld, s.inst .TMG_METER_CTRL x 0 = s.f F.TMG_METER_SEL_METER 0 := fun x => rfl
    have hlist : RegId.TMG_METER_CTRL.info.fields = [F.TMG_METER_CTRL_AWARE, F.TMG_METER_CTRL_EN] := rfl
    rw [State.writePlain, hlist]
    simp only [hinst]
    rfl
  have hen : F.TMG_METER_CTRL_EN.of w = w % 2 := by simp [Fld.of, F.TMG_METER_CTRL_EN]
  have haware : F.TMG_METER_CTRL_AWARE.of w = w / 2 % 2 := by simp [Fld.of, F.TMG_METER_CTRL_AWARE]
  rw [hplain, hen, haware]
  exact (((Sets.refl s).putNew F.TMG_METER_CTRL_AWARE _ _ rfl (Nat.mod_lt _ (by decide))).putNew F.TMG_METER_CTRL_EN _ _ rfl (Nat.mod_lt _ (by decide))).perm fun _ => (List.Perm.swap _ _ []).mem_iff

theorem meterWrite_eq (s : State) {m : Nat} (hm : m = s.f F.TMG_METER_SEL_METER 0) (w : Nat) :
    s.meterWrite w = if s.f F.TMG_METER_CTRL_EN m ≠ 1 ∧ w % 2 = 1 then (s.writePlain .TMG_METER_CTRL 0 w).fillMeter m else s.writePlain .TMG_METER_CTRL 0 w := by
  have hen : (s.writePlain .TMG_METER_CTRL 0 w).f F.TMG_METER_CTRL_EN m = w % 2 := (sets_meterCtrl s hm w).2.1 (F.TMG_METER_CTRL_EN, m, w % 2) (by simp)
  subst hm
  unfold State.meterWrite
  simp only [State.fb, hen, Bool.and_eq_true, Bool.not_eq_true', decide_eq_false_iff_not, decide_eq_true_eq]

/-- A meter whose EN is set by the write starts with full buckets. -/
theorem sets_fillMeter {s t : State} {l : List (Fld × Nat × Nat)} (h : Sets s l t) (m : Nat) (hc : codesAvoid l [F.TMG_METER_CBS_BYTES.code] = true) (hp : codesAvoid l [F.TMG_METER_PBS_BYTES.code] = true) :
    Sets (s.setMeter m { tc := max 64 (s.f F.TMG_METER_CBS_BYTES m) * 2 ^ 24, tp := max 64 (s.f F.TMG_METER_PBS_BYTES m) * 2 ^ 24, at_ := s.time.fclk }) l (t.fillMeter m) := by
  rw [State.fillMeter, State.cbs, State.pbs, h.f_eq _ _ hc, h.f_eq _ _ hp, RegsOnly.time h.regsOnly, one24_eq]
  exact h.setMeter m _

theorem sets_rate {s : State} {r : RegId} {x : Fld} {k : Nat} {w : Word} (hr : s.writePlain r k w.toNat = s.setF x k (x.of w.toNat)) (hlo : x.lo = 0) (hlen : x.len = 32) : Sets s [(x, k, w.toNat)] (s.writePlain r k w.toNat) := by
  have hof : x.of w.toNat = w.toNat := by
    rw [Fld.of, hlo, hlen, pow_zero, Nat.div_one]
    exact Nat.mod_eq_of_lt w.isLt
  rw [hr, hof]
  exact (Sets.refl s).putNew x k _ rfl (by rw [hlen]; exact w.isLt)

/-- Settles O54: sweeps and samples by their own functions; the registers by the bucket or shaper that they start. -/
theorem trafficEvents : Obligations.TrafficEvents := by
  unfold Obligations.TrafficEvents
  refine ⟨fun s k d hk hd => ?_, fun s k d hk hd => ?_, fun s k d hk hd => ?_, port_samples, sample_reads, fun s o w m hw hm hen hodd => ?_, fun s o w m hw hm h => ?_, fun s o k w hk hw => ?_, fun s o p w hp hw => ?_⟩
  · refine ⟨_, (exec_tmgSweep (by omega) s).trans (congrArg Host.Outcome.next (sweep_meter s hk)), ?_⟩
    rw [State.meterNow, State.cbs, State.pbs, one24_eq, hd]
    exact Sets.refl _
  · refine ⟨_, (exec_tmgSweep (by omega) s).trans (congrArg Host.Outcome.next (sweep_queue s hk)), ?_⟩
    rw [State.queueShaper, Shaper.upTo, one24_eq, hd]
    exact Sets.refl _
  · refine ⟨_, (exec_tmgSweep (by omega) s).trans (congrArg Host.Outcome.next (sweep_port s k)), ?_⟩
    rw [State.portShaper, Shaper.upTo, one24_eq, hd]
    exact Sets.refl _
  · refine ⟨_, exec_meterEnable w hw, ?_⟩
    have hset := sets_meterCtrl s hm w.toNat
    rw [hodd] at hset
    rw [meterWrite_eq s hm, if_pos ⟨hen, hodd⟩]
    exact sets_fillMeter hset m rfl rfl
  · refine ⟨_, exec_meterEnable w hw, ?_⟩
    rw [meterWrite_eq s hm, if_neg (by rintro ⟨hoff, hodd⟩; rcases h with h | h <;> omega)]
    exact sets_meterCtrl s hm w.toNat
  · have hexec : exec (.shaperRateWrite o (RegId.TMG_Q_SHAPE_RATE.addr k) w) s = .next ((s.writePlain .TMG_Q_SHAPE_RATE k w.toNat).restartQueueShaper k) :=
      calc exec (.shaperRateWrite o (RegId.TMG_Q_SHAPE_RATE.addr k) w) s = .next (s.regWriteBy o .TMG_Q_SHAPE_RATE k w) := rfl
        _ = .next (s.writeReg o .TMG_Q_SHAPE_RATE k w.toNat) := by rw [regWriteBy_eq w hw (regAt_TMG_Q_SHAPE_RATE hk) (by decide)]
    have hset := sets_rate (s := s) (r := .TMG_Q_SHAPE_RATE) (x := F.TMG_Q_SHAPE_RATE_RATE) (k := k) (w := w) rfl rfl rfl
    refine ⟨_, hexec, ?_⟩
    rw [State.restartQueueShaper, hset.f_eq F.TMG_Q_SHAPE_BURST_BYTES k rfl, RegsOnly.time hset.regsOnly, one24_eq]
    exact hset.withQ _
  · have hexec : exec (.shaperRateWrite o (RegId.TMG_PORT_SHAPE_RATE.addr p) w) s = .next ((s.writePlain .TMG_PORT_SHAPE_RATE p w.toNat).restartPortShaper p) :=
      calc exec (.shaperRateWrite o (RegId.TMG_PORT_SHAPE_RATE.addr p) w) s = .next (s.regWriteBy o .TMG_PORT_SHAPE_RATE p w) := rfl
        _ = .next (s.writeReg o .TMG_PORT_SHAPE_RATE p w.toNat) := by rw [regWriteBy_eq w hw (regAt_TMG_PORT_SHAPE_RATE hp) (by decide)]
    have hset := sets_rate (s := s) (r := .TMG_PORT_SHAPE_RATE) (x := F.TMG_PORT_SHAPE_RATE_RATE) (k := p) (w := w) rfl rfl rfl
    refine ⟨_, hexec, ?_⟩
    rw [State.restartPortShaper, hset.f_eq F.TMG_PORT_SHAPE_BURST_BYTES p rfl, RegsOnly.time hset.regsOnly, one24_eq]
    exact hset.withQ _

end Sys2Proof.Machine

/-! Rule versions and commits by CLS_COMMIT (R66, R251 to R253). -/

namespace Sys2Proof.Machine

-- ## The write of CLS_COMMIT

/-- GO, CLONE and ABORT are one write. -/
theorem exec_commit {s : State} {o : Origin} {w : Word} (hw : s.writeOk o .CLS_COMMIT 0 = true) : ∀ c ∈ [Instr.go o w, .clone o w, .abort o w], exec c s = .next (s.commitWrite w.toNat) := by
  have hwrite : s.regWriteBy o .CLS_COMMIT 0 w = s.commitWrite w.toNat := regWriteBy_eq w hw regAt_CLS_COMMIT (by decide)
  have hexec : ∀ c ∈ [Instr.go o w, .clone o w, .abort o w], exec c s = .next (s.regWriteBy o .CLS_COMMIT 0 w) := by
    simp only [List.forall_mem_cons]
    exact ⟨rfl, rfl, rfl, by simp⟩
  exact fun c hc => (hexec c hc).trans (congrArg Host.Outcome.next hwrite)

theorem startGo_idle {s : State} (h : s.clsState ≠ clsStaging) : s.startGo = s := if_pos h

theorem startClone_staging {s : State} (h : s.clsState = clsStaging) : s.startClone = s := by
  rw [State.startClone, h]
  rfl

theorem startClone_idle {s : State} (h : s.clsState = clsIdle) : s.startClone = s.setF F.CLS_VERSION_STATE 0 clsCloning := if_pos h

theorem startClone_draining {s : State} (h : s.clsState = clsDraining) : s.startClone = s.withHaul (fun w => { w with cloneDue := true }) := by
  rw [State.startClone, h]
  rfl

theorem startClone_none {s : State} (h : s.clsState ≠ clsIdle) (h' : s.clsState ≠ clsDraining) : s.startClone = s := by
  rw [State.startClone, if_neg h, if_neg h']

theorem abortStage_none {s : State} (h : s.clsState ≠ clsStaging) : s.abortStage = s := if_pos h

/-- The part of the write that GO is. -/
def State.goPart (s : State) (w : Nat) : State := if w.testBit 0 then s.goCommand else s

/-- The part of the write that CLONE is. -/
def State.clonePart (s : State) (w : Nat) : State := if w.testBit 1 then s.startClone else s

theorem commitWrite_eq (s : State) (w : Nat) : s.commitWrite w = if w.testBit 2 then ((s.goPart w).clonePart w).abortStage else (s.goPart w).clonePart w := rfl

/-- GO does nothing: it is not written, or it is written outside STAGING and no handover runs. -/
theorem goPart_none {s : State} {w : Nat} (h : w.testBit 0 = false ∨ (s.inHandover = false ∧ s.clsState ≠ clsStaging)) : s.goPart w = s := by
  unfold State.goPart
  rcases h with h | ⟨hhand, hstate⟩
  · rw [if_neg (by rw [h]; decide)]
  · have hgo : s.goCommand = s := by rw [State.goCommand, hhand, if_neg Bool.false_ne_true, startGo_idle hstate]
    rw [hgo, ite_self]

theorem goPart_runs {s : State} {w : Nat} (h : w.testBit 0 = true) (hhand : s.inHandover = false) : s.goPart w = s.startGo := by
  rw [State.goPart, if_pos h, State.goCommand, if_neg (by rw [hhand]; decide)]

theorem clonePart_none {s : State} {w : Nat} (h : w.testBit 1 = false ∨ (s.clsState ≠ clsIdle ∧ s.clsState ≠ clsDraining)) : s.clonePart w = s := by
  unfold State.clonePart
  rcases h with h | ⟨hidle, hdrain⟩
  · rw [if_neg (by rw [h]; decide)]
  · rw [startClone_none hidle hdrain, ite_self]

theorem clonePart_runs {s : State} {w : Nat} (h : w.testBit 1 = true) : s.clonePart w = s.startClone := if_pos h

theorem sets_abortStage {s : State} (h : s.clsState = clsStaging) : Sets (s.withHaul (fun x => { x with staged := {} })) [(F.CLS_VERSION_STATE, 0, 0)] s.abortStage := by
  rw [State.abortStage, if_neg (not_not.mpr h)]
  exact (Sets.refl _).putNew F.CLS_VERSION_STATE 0 clsIdle rfl (by decide)

theorem Sets.withHaul {s t : State} {l : List (Fld × Nat × Nat)} (h : Sets s l t) (g : HaulState → HaulState) : Sets (s.withHaul g) l (t.withHaul g) :=
  h.through (g := fun u => u.withHaul g) (by intro _ _; rfl) (by intro _; rfl)

theorem clsState_of_sets {s t : State} {l : List (Fld × Nat × Nat)} (h : Sets s l t) (hl : codesAvoid l [F.CLS_VERSION_STATE.code] = true) : t.clsState = s.clsState := h.f_eq _ _ hl

/-- A commit that is not refused, with a CLONE written with it. -/
theorem sets_goClone {s : State} {w : Nat} {b : Bank} (h : s.clsState = clsStaging) (hb : s.bankToGo = b) (he : s.goError = 0) :
    Sets (s.withHaul (fun x => { x.markOld with old := x.live, live := b, staged := {}, cloneDue := x.cloneDue || w.testBit 1 }))
      [(F.CLS_COMMIT_ERR, 0, 0), (F.CLS_VERSION_OLD, 0, s.f F.CLS_VERSION_LIVE 0 % 256), (F.CLS_VERSION_LIVE, 0, s.f F.CLS_VERSION_STAGED 0 % 256), (F.CLS_VERSION_STAGED, 0, (s.f F.CLS_VERSION_STAGED 0 % 256 + 1) % 256), (F.CLS_VERSION_STATE, 0, 3)]
      (s.startGo.clonePart w) := by
  have hgo := sets_startGo h he
  have hnext : (s.f F.CLS_VERSION_STAGED 0 % 256 + 1) % 256 = (s.f F.CLS_VERSION_STAGED 0 + 1) % 256 := by omega
  rw [State.goneLive, hb] at hgo
  rw [hnext]
  have hdraining : s.startGo.clsState = clsDraining := hgo.2.1 (F.CLS_VERSION_STATE, 0, 3) (by simp)
  cases hclone : w.testBit 1 with
  | true =>
    rw [clonePart_runs hclone, startClone_draining hdraining]
    have hdue := hgo.withHaul (fun x => { x with cloneDue := true })
    simp only [Bool.or_true]
    exact hdue
  | false =>
    rw [clonePart_none (.inl hclone)]
    simp only [Bool.or_false]
    exact hgo

-- ## The end of a commit (R252)

/-- The fields that the news of a commit's end may write. -/
def tellFields : List Fld := resultFields ++ capacityFields ++ [F.MBX_STATUS_JOB_DONE, F.SEM_LOCK_OWNER, F.SEM_FREED_LO_FREED, F.SEM_FREED_HI_FREED, F.HWR_STATUS_STATE, F.HWR_PATCH_STATUS_STATE]

/-- `t` is `s` after news of a commit's end: neither the haul block nor lock 0 changed. -/
structure Tells (s t : State) : Prop where
  off : Off tellFields s t
  haul : t.haul = s.haul
  lock : t.f F.SEM_LOCK_OWNER 0 = s.f F.SEM_LOCK_OWNER 0

namespace Tells

theorem refl (s : State) : Tells s s := ⟨.refl _ s, rfl, rfl⟩

theorem trans {s t u : State} (h : Tells s t) (g : Tells t u) : Tells s u := ⟨h.off.trans g.off, g.haul.trans h.haul, g.lock.trans h.lock⟩

/-- Writes of fields that the news may write, none of them a lock's. -/
theorem writes {s t : State} {fs : List Fld} (h : Writes fs s t) (hc : covers tellFields fs = true) (hl : fs.all (fun y => F.SEM_LOCK_OWNER.code != y.code) = true) : Tells s t :=
  ⟨h.off.mono hc, h.haul, h.off.at_ _ _ hl⟩

theorem withCodec (s : State) (g : CodecState → CodecState) : Tells s (s.withCodec g) := ⟨.same rfl, rfl, rfl⟩

theorem freeLock (s : State) {n : Nat} (h : n ≠ 0) : Tells s (s.freeLock n) := by
  refine ⟨?_, ?_, (lockFields_freeLock s n).2.1 0 (Ne.symm h)⟩
  · unfold State.freeLock State.setFreed
    dsimp only
    split
    · split
      · exact (((Off.refl _ s).setF _ _ _ rfl).trans (Off.same rfl)).setF _ _ _ rfl
      · exact (((Off.refl _ s).setF _ _ _ rfl).trans (Off.same rfl)).setF _ _ _ rfl
    · exact (Off.refl _ s).setF _ _ _ rfl
  · unfold State.freeLock State.setFreed
    dsimp only
    split
    · split <;> rfl
    · rfl

theorem endJob (s : State) (n : Nat) (ok : Bool) (st : Nat) : Tells s (s.endJob n ok st) := by
  refine ⟨(Off.refl _ s).endJob _ _ _ rfl, ?_, ((Off.refl [F.MBX_STATUS_JOB_DONE] s).endJob n ok st rfl).at_ _ _ rfl⟩
  unfold State.endJob
  split <;> rfl

theorem putResult (s : State) (m : Nat) {status : Nat} (h : status < 65536) : Tells s (s.putResult m status []) :=
  writes ((Writes.refl resultFields s).putResult m h (by simp) rfl) rfl rfl

theorem setHwState (s : State) (h st : Nat) : Tells s (s.setHwState h st) :=
  (writes ((Writes.refl [F.HWR_STATUS_STATE] s).setF F.HWR_STATUS_STATE h st rfl) rfl rfl).trans (writes (refreshCapacity_writes _) rfl rfl)

theorem beginLoad (s : State) (h : Nat) (p : PatchSet) (w : Waiter) : Tells s (s.beginLoad h p w) := by
  have hlock : Tells s (s.setF F.SEM_LOCK_OWNER 3 1) := ⟨(Off.refl _ s).setF _ _ _ rfl, rfl, State.f_setF_inst _ _ _ _ _ (by decide)⟩
  unfold State.beginLoad
  dsimp only
  exact ((hlock.trans (withCodec _ _)).trans (writes ((Writes.refl [F.HWR_PATCH_STATUS_STATE] _).setF F.HWR_PATCH_STATUS_STATE h 2 rfl) rfl rfl)).trans (setHwState _ _ _)

theorem updateFrom (s : State) (k : Nat) : Tells s (s.updateFrom k) := by
  unfold State.updateFrom
  split
  · exact refl s
  · dsimp only
    split
    · exact ((withCodec s _).trans (freeLock _ (by decide))).trans (endJob _ _ _ _)
    · split
      · exact withCodec s _
      · split
        · exact (withCodec s _).trans (beginLoad _ _ _ _)
        · exact ((withCodec s _).trans (withCodec _ _)).trans (setHwState _ _ _)

theorem tellWaiter (s : State) (w : Waiter) (ok : Bool) : Tells s (s.tellWaiter w ok) := by
  unfold State.tellWaiter
  split
  · exact refl s
  · exact putResult s _ (by split <;> decide)
  · exact endJob s _ _ _
  · split
    · exact refl s
    · split
      · exact updateFrom s _
      · unfold State.updateFailed
        split
        · exact refl s
        · exact (withCodec s _).trans (updateFrom _ _)

theorem tellWaiters (s : State) (ws : List Waiter) (ok : Bool) : Tells s (s.tellWaiters ws ok) := by
  unfold State.tellWaiters Machine.chainAll
  induction ws generalizing s with
  | nil => exact refl s
  | cons w ws ih => exact (tellWaiter s w ok).trans (ih _)

end Tells

theorem lockOwner_freeRuleLock (s : State) : s.freeRuleLock.f F.SEM_LOCK_OWNER 0 = if s.f F.SEM_LOCK_OWNER 0 = 1 then 0 else s.f F.SEM_LOCK_OWNER 0 := by
  unfold State.freeRuleLock State.lockOwner
  split
  · exact (lockFields_freeLock s 0).1
  · rfl

/-- The fields of a lock that is freed. -/
def freeFields : List Fld := [F.SEM_LOCK_OWNER, F.SEM_FREED_LO_FREED, F.SEM_FREED_HI_FREED]

theorem freeRuleLock_off (s : State) : Off freeFields s s.freeRuleLock ∧ s.freeRuleLock.haul = s.haul := by
  unfold State.freeRuleLock State.freeLock State.setFreed
  dsimp only
  split
  · split
    · exact ⟨(((Off.refl _ s).setF _ _ _ rfl).trans (Off.same rfl)).setF _ _ _ rfl, rfl⟩
    · exact ⟨(Off.refl _ s).setF _ _ _ rfl, rfl⟩
  · exact ⟨Off.refl _ s, rfl⟩

/-- The commit is over and its event is shown; nobody has heard of it. -/
def State.drained (s : State) : State :=
  ((s.withHaul (fun w => { w with old := {}, cloneDue := false, commitFor := [] })).setF F.CLS_VERSION_STATE 0 clsIdle).setF F.CLS_EVENT_COMMIT_DONE 0 1

/-- All have heard of it, and lock 0 is free. -/
def State.told (s : State) : State := (s.drained.tellWaiters s.haul.commitFor true).freeRuleLock

theorem commitDone_eq {s : State} (h : s.clsState = clsDraining) (ho : s.oldInUse = false) : s.commitDone = if s.haul.cloneDue then s.told.startClone else s.told := by
  rw [State.commitDone, if_neg (by simp [h, ho])]
  rfl

theorem sets_drained (s : State) : Sets (s.withHaul (fun w => { w with old := {}, cloneDue := false, commitFor := [] })) [(F.CLS_VERSION_STATE, 0, 0), (F.CLS_EVENT_COMMIT_DONE, 0, 1)] s.drained :=
  ((Sets.refl _).putNew F.CLS_VERSION_STATE 0 clsIdle rfl (by decide)).putNew F.CLS_EVENT_COMMIT_DONE 0 1 rfl (by decide)

theorem told_off (s : State) : Off tellFields s.drained s.told := (Tells.tellWaiters s.drained s.haul.commitFor true).off.trans ((freeRuleLock_off _).1.mono rfl)

theorem told_idle (s : State) : s.told.clsState = clsIdle := ((told_off s).at_ F.CLS_VERSION_STATE 0 rfl).trans ((sets_drained s).2.1 (F.CLS_VERSION_STATE, 0, 0) (by simp))

/-- The end of a commit is the state after the news, but for a clone that begins. -/
theorem commitDone_told {s : State} (h : s.clsState = clsDraining) (ho : s.oldInUse = false) : Sets s.told (if s.haul.cloneDue then [(F.CLS_VERSION_STATE, 0, 1)] else []) s.commitDone := by
  rw [commitDone_eq h ho]
  split
  · rw [startClone_idle (told_idle s)]
    exact (Sets.refl _).putNew F.CLS_VERSION_STATE 0 clsCloning rfl (by decide)
  · exact Sets.refl _

theorem commitDone_state {s : State} (h : s.clsState = clsDraining) (ho : s.oldInUse = false) : s.commitDone.f F.CLS_VERSION_STATE 0 = if s.haul.cloneDue then 1 else 0 := by
  have hset := commitDone_told h ho
  cases hclone : s.haul.cloneDue with
  | true =>
    rw [hclone, if_pos rfl] at hset
    exact hset.2.1 (F.CLS_VERSION_STATE, 0, 1) (by simp)
  | false =>
    rw [hclone, if_neg (by decide)] at hset
    exact (hset.2.2 F.CLS_VERSION_STATE 0 (by simp)).trans (told_idle s)

theorem commitDone_off {s : State} (h : s.clsState = clsDraining) (ho : s.oldInUse = false) : Off [F.CLS_VERSION_STATE] s.told s.commitDone := by
  have hset := commitDone_told h ho
  split at hset
  · exact hset.off
  · exact hset.off.mono rfl

theorem commitDone_event {s : State} (h : s.clsState = clsDraining) (ho : s.oldInUse = false) : s.commitDone.f F.CLS_EVENT_COMMIT_DONE 0 = 1 :=
  ((commitDone_off h ho).at_ _ _ rfl).trans (((told_off s).at_ _ _ rfl).trans ((sets_drained s).2.1 (F.CLS_EVENT_COMMIT_DONE, 0, 1) (by simp)))

theorem commitDone_lock {s : State} (h : s.clsState = clsDraining) (ho : s.oldInUse = false) : s.commitDone.f F.SEM_LOCK_OWNER 0 = if s.f F.SEM_LOCK_OWNER 0 = 1 then 0 else s.f F.SEM_LOCK_OWNER 0 := by
  have htells := Tells.tellWaiters s.drained s.haul.commitFor true
  have hdrained : s.drained.f F.SEM_LOCK_OWNER 0 = s.f F.SEM_LOCK_OWNER 0 := (sets_drained s).f_eq F.SEM_LOCK_OWNER 0 rfl
  rw [(commitDone_off h ho).at_ _ _ rfl, State.told, lockOwner_freeRuleLock, htells.lock, hdrained]

theorem commitDone_haul {s : State} (h : s.clsState = clsDraining) (ho : s.oldInUse = false) : s.commitDone.haul = { s.haul with old := {}, cloneDue := false, commitFor := [] } :=
  (RegsOnly.haul (commitDone_told h ho).regsOnly).trans ((freeRuleLock_off _).2.trans (Tells.tellWaiters s.drained s.haul.commitFor true).haul)

theorem told_alone {s : State} (hw : s.haul.commitFor = []) (hl : s.f F.SEM_LOCK_OWNER 0 ≠ 1) : s.told = s.drained := by
  have hdrained : s.drained.f F.SEM_LOCK_OWNER 0 = s.f F.SEM_LOCK_OWNER 0 := (sets_drained s).f_eq F.SEM_LOCK_OWNER 0 rfl
  rw [State.told, hw]
  exact if_neg (fun h => hl (hdrained.symm.trans h))

/-- The end of a commit for which nobody waits. -/
theorem sets_commitDone {s : State} (h : s.clsState = clsDraining) (ho : s.oldInUse = false) (hw : s.haul.commitFor = []) (hl : s.f F.SEM_LOCK_OWNER 0 ≠ 1) :
    Sets (s.withHaul (fun x => { x with old := {}, cloneDue := false, commitFor := [] })) [(F.CLS_VERSION_STATE, 0, if s.haul.cloneDue then 1 else 0), (F.CLS_EVENT_COMMIT_DONE, 0, 1)] s.commitDone := by
  have hdone := commitDone_told h ho
  have hdrained := sets_drained s
  rw [told_alone hw hl] at hdone
  cases hclone : s.haul.cloneDue with
  | true =>
    have hset := hdrained.overwrite F.CLS_VERSION_STATE 0 1
    rw [commitDone_eq h ho, hclone, if_pos rfl, startClone_idle (told_idle s), told_alone hw hl]
    exact hset.perm fun _ => (List.Perm.swap _ _ []).mem_iff
  | false =>
    rw [commitDone_eq h ho, hclone, told_alone hw hl]
    exact hdrained

/-- A field of one list is outside another with which it shares none. -/
theorem outside_of_mem {x : Fld} {fs gs : List Fld} (hx : x ∈ fs) (h : fs.all (fun y => gs.all (fun z => y.code != z.code)) = true) : x.outside gs := fun z hz =>
  bne_iff_ne.mp (List.all_eq_true.mp (List.all_eq_true.mp h x hx) z hz)

/-- The end of a commit for which one mailbox waits. -/
theorem commitDone_mailbox {s : State} {m : Nat} (h : s.clsState = clsDraining) (ho : s.oldInUse = false) (hw : s.haul.commitFor = [.mailbox m]) :
    s.commitDone.answered m (s.mbxTag m) 0 [] ∧ Off ([F.CLS_VERSION_STATE, F.CLS_EVENT_COMMIT_DONE, F.SEM_LOCK_OWNER, F.SEM_FREED_LO_FREED, F.SEM_FREED_HI_FREED] ++ resultFields) s s.commitDone := by
  have htold : s.told = (s.drained.putResult m stOk []).freeRuleLock := by rw [State.told, hw]; rfl
  have hdrained : Off [F.CLS_VERSION_STATE, F.CLS_EVENT_COMMIT_DONE] s s.drained := (Off.same (s := s) (t := s.withHaul _) rfl).trans (sets_drained s).off
  have hfree := (freeRuleLock_off (s.drained.putResult m stOk [])).1
  have hrest : Off ([F.CLS_VERSION_STATE] ++ freeFields) (s.drained.putResult m stOk []) s.commitDone := by
    have hdone := (commitDone_off h ho).mono (gs := [F.CLS_VERSION_STATE] ++ freeFields) rfl
    rw [htold] at hdone
    exact (hfree.mono rfl).trans hdone
  have hanswered := hdrained.answers m (status := 0) (data := []) rfl (by decide) (by simp)
  refine ⟨fun e he => (hrest e.1 e.2.1 ?_).trans (hanswered e he), ?_⟩
  · exact outside_of_mem (mem_resultFields he) rfl
  · exact ((hdrained.mono rfl).trans (((Off.refl resultFields _).putResult m (by decide) (by simp) rfl).mono rfl)).trans (hrest.mono rfl)

/-- Settles O55: the write of CLS_COMMIT bit by bit, the end of a clone, and the end of a commit by its news. -/
theorem ruleVersions : Obligations.RuleVersions := by
  unfold Obligations.RuleVersions
  have hnot : ∀ {b : Bool}, b = false → ¬b = true := fun h => by rw [h]; decide
  refine ⟨fun s o w hw hclone hgo hidle c hc => ?_, fun s o w hw hclone hgo hdrain c hc => ?_, fun s o w hw hgo hclone habort c hc => ?_, fun s o w hw hgo hhand hclone habort c hc => ?_, fun s h => ?_, fun s h => ?_,
    fun s o w e b hw hgo hhand hstate hb he he0 c hc => ?_, fun s o w b hw hgo hhand hstate hb he c hc => ?_, fun s o w hw habort hgo hstate c hc => ?_, fun s h => ?_, fun s h ho => ?_, fun s h ho hwait hlock => ?_,
    fun s m h ho hwait hlock => ?_⟩
  · have hset : Sets s [(F.CLS_VERSION_STATE, 0, 1)] s.startClone := by
      rw [startClone_idle hidle]
      exact (Sets.refl s).putNew F.CLS_VERSION_STATE 0 clsCloning rfl (by decide)
    have hcloning : s.startClone.clsState = 1 := hset.2.1 (F.CLS_VERSION_STATE, 0, 1) (by simp)
    refine ⟨_, exec_commit hw c hc, ?_⟩
    rw [commitWrite_eq, goPart_none (hgo.imp_right fun hhand => ⟨hhand, by rw [hidle]; decide⟩), clonePart_runs hclone, abortStage_none (by rw [hcloning]; decide), ite_self]
    exact hset
  · have hstill : (s.withHaul (fun x => { x with cloneDue := true })).clsState = clsDraining := hdrain
    rw [exec_commit hw c hc, commitWrite_eq, goPart_none (hgo.imp_right fun hhand => ⟨hhand, by rw [hdrain]; decide⟩), clonePart_runs hclone, startClone_draining hdrain, abortStage_none (by rw [hstill]; decide), ite_self]
  · rw [exec_commit hw c hc, commitWrite_eq, goPart_none hgo, clonePart_none hclone]
    rcases habort with h | h
    · rw [if_neg (hnot h)]
    · rw [abortStage_none h, ite_self]
  · rw [exec_commit hw c hc, commitWrite_eq, clonePart_none (.inl hclone), if_neg (hnot habort), State.goPart, if_pos hgo, State.goCommand, if_pos hhand]
  · exact congrArg Host.Outcome.next (if_pos h)
  · refine ⟨_, rfl, ?_⟩
    rw [State.endClone, if_neg (not_not.mpr h)]
    exact (((Sets.refl _).putNew F.CLS_VERSION_STATE 0 clsStaging rfl (by decide)).snocNew F.CLS_STAGE_COUNT_EXACT 0 _ rfl).snocNew F.CLS_STAGE_COUNT_TERN 0 _ rfl
  · have herr : s.goError = e := by rw [State.goError, State.bankToGo, he, hb]
    have hle := goError_le s
    have hset : Sets s [(F.CLS_COMMIT_ERR, 0, e)] s.startGo := by
      rw [startGo_refused hstate (by rw [herr]; exact he0), herr]
      exact (Sets.refl s).putNew F.CLS_COMMIT_ERR 0 e rfl (by simp only [F.CLS_COMMIT_ERR]; omega)
    have hstaging : s.startGo.clsState = clsStaging := (clsState_of_sets hset rfl).trans hstate
    have hparts : (s.goPart w.toNat).clonePart w.toNat = s.startGo := by rw [goPart_runs hgo hhand, clonePart_none (.inr ⟨by rw [hstaging]; decide, by rw [hstaging]; decide⟩)]
    refine ⟨fun habort => ⟨_, exec_commit hw c hc, ?_⟩, fun habort => ⟨_, exec_commit hw c hc, ?_⟩⟩
    · rw [commitWrite_eq, hparts, if_neg (hnot habort)]
      exact hset
    · rw [commitWrite_eq, hparts, if_pos habort]
      exact (hset.withHaul (fun x => { x with staged := {} })).append (sets_abortStage hstaging) rfl
  · have hset := sets_goClone (w := w.toNat) hstate (b := b) (by rw [State.bankToGo, hb]) (by rw [State.goError, State.bankToGo, ← hb]; rw [hb] at he ⊢; exact he)
    have hdraining : (s.startGo.clonePart w.toNat).clsState = 3 := hset.2.1 (F.CLS_VERSION_STATE, 0, 3) (by simp)
    refine ⟨_, exec_commit hw c hc, ?_⟩
    rw [commitWrite_eq, goPart_runs hgo hhand, abortStage_none (by rw [hdraining]; decide), ite_self]
    exact hset
  · refine ⟨_, exec_commit hw c hc, ?_⟩
    rw [commitWrite_eq, goPart_none (.inl hgo), clonePart_none (.inr ⟨by rw [hstate]; decide, by rw [hstate]; decide⟩), if_pos habort]
    exact sets_abortStage hstate
  · exact congrArg Host.Outcome.next (if_pos h)
  · exact ⟨_, rfl, commitDone_state h ho, commitDone_event h ho, commitDone_lock h ho, commitDone_haul h ho⟩
  · exact ⟨_, rfl, sets_commitDone h ho hwait hlock⟩
  · obtain ⟨hanswered, hoff⟩ := commitDone_mailbox h ho hwait
    exact ⟨_, rfl, hanswered, commitDone_state h ho, commitDone_event h ho, (commitDone_lock h ho).trans (if_pos hlock), commitDone_haul h ho, hoff⟩

end Sys2Proof.Machine

/-! Frames of the pool and the egress queues (R263, R268, R282), and the length of a ring notice. -/

namespace Sys2Proof.Machine

-- ## What releases and queues leave alone

/-- The part without its registers, its memory data and its queues. -/
def State.sansPool (s : State) : State := { s with regs := [], mem := {}, dram := [], free := 0, q := {} }

theorem sansPool_of_sansData {s t : State} (h : t.sansData = s.sansData) : t.sansPool = s.sansPool := congrArg (fun u : State => { u with q := {} }) h

theorem haul_of_sansPool {s t : State} (h : t.sansPool = s.sansPool) : t.haul = s.haul := (congrArg (fun u : State => u.haul) h :)

theorem codec_of_sansPool {s t : State} (h : t.sansPool = s.sansPool) : t.codec = s.codec := (congrArg (fun u : State => u.codec) h :)

/-- The part without its registers and its queues: what an operation on SRAM buffers alone leaves. -/
def State.sansQueues (s : State) : State := { s with regs := [], q := {} }

theorem setRef_frame (s : State) (b : Nat) (p : Packet) : (s.setRef b p).sansPool = s.sansPool ∧ (s.setRef b p).regs = s.regs := by
  unfold State.setRef
  dsimp only
  split
  · exact ⟨rfl, rfl⟩
  · have h := putFor_frame (s.setPacket b p) 7 ((s.setPacket b p).linkAddr b) (linkEntry p 0) true
    exact ⟨(sansPool_of_sansData h.1).trans rfl, h.2⟩

theorem sansPool_putFor (s : State) (m a : Nat) (bs : List Byte) (ecc : Bool) (q : QueueState) : ({ s.putFor m a bs ecc with q := q } : State).sansPool = s.sansPool ∧ ({ s.putFor m a bs ecc with q := q } : State).regs = s.regs := by
  have h := putFor_frame s m a bs ecc
  exact ⟨(congrArg (fun u : State => { u with q := {} }) h.1 :), h.2⟩

theorem cacheOut_frame (s : State) : s.cacheOut.sansPool = s.sansPool ∧ s.cacheOut.regs = s.regs := by
  unfold State.cacheOut
  dsimp only
  exact sansPool_putFor s _ _ _ _ _

theorem sansPool_withPool (s : State) (f : PoolState → PoolState) : (s.withPool f).sansPool = s.sansPool ∧ (s.withPool f).regs = s.regs := ⟨rfl, rfl⟩

theorem sansPool_ite {p : Prop} [Decidable p] {s t u : State} (ht : t.sansPool = s.sansPool ∧ t.regs = s.regs) (hu : u.sansPool = s.sansPool ∧ u.regs = s.regs) :
    (if p then t else u).sansPool = s.sansPool ∧ (if p then t else u).regs = s.regs := by
  split
  · exact ht
  · exact hu

theorem returnDram_frame (s : State) (b : Nat) : (s.returnDram b).sansPool = s.sansPool ∧ (s.returnDram b).regs = s.regs := by
  have hout := sansPool_ite (p := 512 ≤ s.pool.dram.cache.length) (cacheOut_frame s) ⟨rfl, rfl⟩
  have hback := sansPool_withPool (if 512 ≤ s.pool.dram.cache.length then s.cacheOut else s) fun w => { w with dram := { w.dram with cache := w.dram.cache ++ [b] } }
  exact ⟨hback.1.trans hout.1, hback.2.trans hout.2⟩

theorem freeChain_frame (s : State) (b : Nat) : (s.freeChain b).sansPool = s.sansPool ∧ (s.freeChain b).regs = s.regs := by
  unfold State.freeChain
  exact ⟨(chainAll_keep State.sansPool _ _ (fun x t => (returnDram_frame t x).1) _).trans rfl, (chainAll_keep State.regs _ _ (fun x t => (returnDram_frame t x).2) _).trans rfl⟩

theorem release_frame (s : State) (b : Nat) : (s.release b).sansPool = s.sansPool ∧ (s.release b).regs = s.regs := by
  have href := setRef_frame s b { s.packet b with ref := (s.packet b).ref - 1 }
  have hfree := freeChain_frame (s.setRef b { s.packet b with ref := (s.packet b).ref - 1 }) b
  unfold State.release
  dsimp only
  split
  · exact ⟨rfl, rfl⟩
  · split
    · exact ⟨hfree.1.trans href.1, hfree.2.trans href.2⟩
    · exact href

/-- The registers that a copy offered to an egress queue may write. -/
def enqueueFields : List Fld := [F.TMG_Q_DEPTH_BYTES, F.TMG_Q_DROPS_COUNT, F.TMG_Q_DEPTH_DROPS_SAT, F.TMG_PORT_EVENT_TAIL_DROP]

theorem sansPool_setF (s : State) (x : Fld) (i v : Nat) : (s.setF x i v).sansPool = s.sansPool := Eq.trans rfl rfl

theorem sansPool_count (s : State) (x : Fld) (i : Nat) (y : Fld) (j k : Nat) : (s.count x i y j k).sansPool = s.sansPool := by
  unfold State.count
  dsimp only
  split <;> rfl

theorem tagHead_frame (s : State) (p k : Nat) (waking : Bool) : (s.tagHead p k waking).sansQueues = s.sansQueues ∧ (s.tagHead p k waking).regs = s.regs ∧ (s.tagHead p k waking).pool = s.pool ∧
    ((s.tagHead p k waking).tmgQueue k).copies = (s.tmgQueue k).copies := by
  unfold State.tagHead
  dsimp only
  split
  · exact ⟨rfl, rfl, rfl, by rw [tmgQueue_setTmgQueue]⟩
  · exact ⟨rfl, rfl, rfl, by rw [tmgQueue_setTmgQueue]⟩

theorem sansPool_of_sansQueues {s t : State} (h : t.sansQueues = s.sansQueues) : t.sansPool = s.sansPool := congrArg (fun u : State => { u with mem := {}, dram := [], free := 0 }) h

/-- The copy is dropped at the tail: counted and shown, before its reference goes. -/
def State.tailCounted (s : State) (p k : Nat) : State := (s.count F.TMG_Q_DROPS_COUNT k F.TMG_Q_DEPTH_DROPS_SAT k 0).setF F.TMG_PORT_EVENT_TAIL_DROP p 1

theorem tailCounted_writes (s : State) (p k : Nat) : Writes enqueueFields s (s.tailCounted p k) :=
  ⟨((RegsOnly.refl s).count _ _ _ _ _).setF _ _ _, ((Off.refl _ s).count _ _ _ _ _ rfl rfl).setF _ _ _ rfl⟩

theorem tailDrop_eq (s : State) (p k b : Nat) : s.tailDrop p k b = (s.tailCounted p k).release b := rfl

/-- The copy enters its queue. -/
def State.copyQueued (s : State) (p q : Nat) (c : Copy) : State :=
  let t := (s.setTmgQueue (64 * p + q) { s.tmgQueue (64 * p + q) with copies := (s.tmgQueue (64 * p + q)).copies ++ [c] }).setF F.TMG_Q_DEPTH_BYTES (64 * p + q) (s.f F.TMG_Q_DEPTH_BYTES (64 * p + q) + c.len)
  if (s.tmgQueue (64 * p + q)).copies = [] then t.tagHead p (64 * p + q) true else t

theorem copyQueued_frame (s : State) (p q : Nat) (c : Copy) : (s.copyQueued p q c).sansQueues = s.sansQueues ∧ Off enqueueFields s (s.copyQueued p q c) ∧ (s.copyQueued p q c).pool = s.pool ∧
    ((s.copyQueued p q c).tmgQueue (64 * p + q)).copies = (s.tmgQueue (64 * p + q)).copies ++ [c] := by
  have hset : ∀ t : State, t = (s.setTmgQueue (64 * p + q) { s.tmgQueue (64 * p + q) with copies := (s.tmgQueue (64 * p + q)).copies ++ [c] }).setF F.TMG_Q_DEPTH_BYTES (64 * p + q) (s.f F.TMG_Q_DEPTH_BYTES (64 * p + q) + c.len) →
      t.sansQueues = s.sansQueues ∧ Off enqueueFields s t ∧ t.pool = s.pool ∧ (t.tmgQueue (64 * p + q)).copies = (s.tmgQueue (64 * p + q)).copies ++ [c] := by
    rintro t rfl
    exact ⟨rfl, ((Off.refl _ s).withQ _).setF _ _ _ rfl, rfl, congrArg TmgQueue.copies (tmgQueue_setTmgQueue s _ _)⟩
  unfold State.copyQueued
  dsimp only
  obtain ⟨hsans, hoff, hpool, hcopies⟩ := hset _ rfl
  split
  · obtain ⟨htag, hregs, htagPool, htagCopies⟩ := tagHead_frame ((s.setTmgQueue (64 * p + q) { s.tmgQueue (64 * p + q) with copies := (s.tmgQueue (64 * p + q)).copies ++ [c] }).setF F.TMG_Q_DEPTH_BYTES (64 * p + q)
      (s.f F.TMG_Q_DEPTH_BYTES (64 * p + q) + c.len)) p (64 * p + q) true
    exact ⟨htag.trans hsans, hoff.trans (Off.same hregs), htagPool.trans hpool, htagCopies.trans hcopies⟩
  · exact ⟨hsans, hoff, hpool, hcopies⟩

/-- The queue has room for the copy. -/
def State.copyFits (s : State) (p q : Nat) (c : Copy) : Bool :=
  s.fb F.TMG_Q_CFG_EN (64 * p + q) && !decide ((if c.yellow then s.f F.TMG_Q_YELLOW_MAX_BYTES (64 * p + q) else s.f F.TMG_Q_DEPTH_MAX_BYTES (64 * p + q)) < s.f F.TMG_Q_DEPTH_BYTES (64 * p + q) + c.len)

theorem enqueueCopy_eq (s : State) (p q : Nat) (c : Copy) : s.enqueueCopy p q c = if s.copyFits p q c then s.copyQueued p q c else (s.tailCounted p (64 * p + q)).release c.buf := by
  unfold State.copyFits State.enqueueCopy
  dsimp only
  generalize (if c.yellow = true then s.f F.TMG_Q_YELLOW_MAX_BYTES (64 * p + q) else s.f F.TMG_Q_DEPTH_MAX_BYTES (64 * p + q)) = limit
  cases s.fb F.TMG_Q_CFG_EN (64 * p + q) with
  | false => rfl
  | true => cases decide (limit < s.f F.TMG_Q_DEPTH_BYTES (64 * p + q) + c.len) <;> rfl

theorem enqueueCopy_frame (s : State) (p q : Nat) (c : Copy) : (s.enqueueCopy p q c).sansPool = s.sansPool ∧ Off enqueueFields s (s.enqueueCopy p q c) := by
  rw [enqueueCopy_eq]
  split
  · obtain ⟨hsans, hoff, -, -⟩ := copyQueued_frame s p q c
    exact ⟨sansPool_of_sansQueues hsans, hoff⟩
  · have hcount := tailCounted_writes s p (64 * p + q)
    have hrelease := release_frame (s.tailCounted p (64 * p + q)) c.buf
    refine ⟨hrelease.1.trans ?_, hcount.off.trans (Off.same hrelease.2)⟩
    rw [State.tailCounted, sansPool_setF, sansPool_count]

-- ## Reserved buffers (R254, R263)

/-- The packet lies in SRAM alone. -/
def State.inSram (s : State) (b : Nat) : Prop := b < 65536 ∧ ∀ x ∈ (s.packet b).bufs, x < 65536

theorem inSram_congr {s t : State} {b : Nat} (h : s.inSram b) (hp : t.pool = s.pool) : t.inSram b := by
  unfold State.inSram State.packet at *
  rw [hp]
  exact h

theorem packet_setPacket (s : State) (b : Nat) (p : Packet) : (s.setPacket b p).packet b = p := Tab.get_set_same _ _ _ _

/-- The buffers of a packet in SRAM go back to the list of SRAM. -/
theorem freeChain_inSram {s : State} {b : Nat} (h : s.inSram b) : (s.freeChain b).sansQueues = s.sansQueues ∧ (s.freeChain b).inSram b := by
  obtain ⟨hb, hbufs⟩ := h
  have hnone : (s.packet b).bufs.filter (fun x => decide (65536 ≤ x)) = [] := by
    rw [List.filter_eq_nil_iff]
    exact fun x hx => by have := hbufs x hx; simp only [decide_eq_true_eq]; omega
  unfold State.freeChain
  dsimp only
  rw [hnone]
  refine ⟨rfl, hb, fun x hx => ?_⟩
  have hgone : ((s.setPacket b {}).packet b).bufs = [] := by rw [packet_setPacket]
  exact absurd (hgone ▸ hx : x ∈ []) (by simp)

/-- A release of a packet in SRAM touches the queues alone. -/
theorem release_inSram {s : State} {b : Nat} (h : s.inSram b) : (s.release b).sansQueues = s.sansQueues ∧ (s.release b).inSram b := by
  have href : s.setRef b { s.packet b with ref := (s.packet b).ref - 1 } = s.setPacket b { s.packet b with ref := (s.packet b).ref - 1 } := if_pos h.1
  have hin : (s.setPacket b { s.packet b with ref := (s.packet b).ref - 1 }).inSram b := ⟨h.1, by rw [packet_setPacket]; exact h.2⟩
  unfold State.release
  dsimp only
  split
  · exact ⟨rfl, h⟩
  · rw [href]
    split
    · obtain ⟨hsans, hfreed⟩ := freeChain_inSram hin
      exact ⟨hsans.trans rfl, hfreed⟩
    · exact ⟨rfl, hin⟩

theorem enqueueCopy_inSram {s : State} (p q : Nat) {c : Copy} (h : s.inSram c.buf) : (s.enqueueCopy p q c).sansQueues = s.sansQueues ∧ (s.enqueueCopy p q c).inSram c.buf := by
  rw [enqueueCopy_eq]
  split
  · obtain ⟨hsans, -, hpool, -⟩ := copyQueued_frame s p q c
    exact ⟨hsans, inSram_congr h hpool⟩
  · have hcount := (tailCounted_writes s p (64 * p + q)).only
    have hpool : (s.tailCounted p (64 * p + q)).pool = s.pool := congrArg QueueState.pool hcount.q
    obtain ⟨hsans, hin⟩ := release_inSram (inSram_congr h hpool)
    refine ⟨hsans.trans ?_, hin⟩
    rw [hcount]
    rfl

/-- Copies of one packet in SRAM, offered one after the other. -/
theorem enqueueAll_inSram (mk : Nat → Copy) (b : Nat) (hmk : ∀ q, (mk q).buf = b) (ps : List Nat) {s : State} (h : s.inSram b) : (chainAll ps (fun q u => u.enqueueCopy q 0 (mk q)) s).sansQueues = s.sansQueues := by
  unfold chainAll
  induction ps generalizing s with
  | nil => rfl
  | cons q ps ih =>
    obtain ⟨hsans, hin⟩ := enqueueCopy_inSram (s := s) q 0 (c := mk q) (by rw [hmk]; exact h)
    rw [hmk] at hin
    exact (ih hin).trans hsans

/-- Frames that leave from a reserved buffer touch the egress queues alone. -/
theorem sendReserved_frame (s : State) (ps : List Nat) (inport : Nat) (mk : Nat → List Byte) : (s.sendReserved ps inport mk).sansQueues = s.sansQueues ∧ Off enqueueFields s (s.sendReserved ps inport mk) := by
  unfold State.sendReserved
  split
  · exact ⟨rfl, Off.refl _ s⟩
  · next b hb =>
    have hlt : b < 16 := List.mem_range.mp (List.mem_of_find?_eq_some hb)
    dsimp only
    refine ⟨(enqueueAll_inSram (fun q => { buf := b, len := (mk q).length, frame := mk q, inport := inport, arrival := s.tick4 }) b (fun _ => rfl) ps ⟨by omega, ?_⟩).trans rfl, ?_⟩
    · rw [packet_setPacket]
      intro x hx
      rw [List.mem_singleton.mp hx]
      omega
    · exact (Off.same (s := s) (t := s.setPacket b _) rfl).chainAll _ _ fun q u => (enqueueCopy_frame u q 0 _).2

end Sys2Proof.Machine

/-! The ring's breaks and notices (R254 to R257). -/

namespace Sys2Proof.Machine

-- ## The length of a frame of the part's own (R232, R233)

@[simp] theorem beBytes_length (n v : Nat) : (beBytes n v).length = n := by simp [beBytes]

theorem haulHeader24_length (h : Parsed) (seq : Nat) : (haulHeader24 h seq).length = 24 := by simp [haulHeader24, haulHeader]

theorem udpDatagram_length (pseudo : List Byte) (src dst : Nat) (data : List Byte) : (udpDatagram pseudo src dst data).length = 8 + data.length := by
  simp [udpDatagram]
  omega

theorem ipv4Packet_length (id src dst sport dport : Nat) (data : List Byte) : (ipv4Packet id src dst sport dport data).length = 28 + data.length := by
  simp [ipv4Packet, udpDatagram_length]
  omega

theorem ipv6Packet_length (flow src dst sport dport : Nat) (data : List Byte) : (ipv6Packet flow src dst sport dport data).length = 48 + data.length := by
  simp [ipv6Packet, udpDatagram_length]
  omega

theorem rtpHeader_length (pt : Nat) (h : Parsed) (seq : Nat) : (rtpHeader pt h seq).length = 12 := by simp [rtpHeader]

theorem ethernet_length (dst src : Nat) (rest : List Byte) : (ethernet dst src rest).length = max 64 (16 + rest.length) := by
  simp [ethernet]
  omega

theorem haulFrame_length_le (s : State) (q : Nat) (h : Parsed) (seq mac : Nat) {pay : List Byte} (hp : pay.length = 16) : (s.haulFrame q h seq mac pay).length ≤ 200 := by
  unfold State.haulFrame
  dsimp only
  rw [ethernet_length]
  split <;> simp [ipv4Packet_length, ipv6Packet_length, rtpHeader_length, haulHeader24_length, hp]

-- ## Breaks (R256, R257)

/-- The break fields of one direction. -/
def cutValid (ccw : Bool) : Fld := if ccw then F.CLS_RING_CUT_CCW_VALID else F.CLS_RING_CUT_CW_VALID

def cutAt (ccw : Bool) : Fld := if ccw then F.CLS_RING_CUT_CCW_X else F.CLS_RING_CUT_CW_X

/-- What a break that is applied, or cleared, writes. -/
def breakFields : List Fld := [F.CLS_RING_CUT_CW_VALID, F.CLS_RING_CUT_CW_X, F.CLS_RING_CUT_CCW_VALID, F.CLS_RING_CUT_CCW_X, F.CLS_EVENT_BREAK]

/-- The distance of a break in its direction. -/
def State.breakDist (s : State) (ccw : Bool) (x : Nat) : Nat :=
  if ccw then modSub s.ringN (s.ringPos + s.ringN - 1) x else modSub s.ringN (x + s.ringN - 1) s.ringPos

theorem applyBreak_eq (s : State) (ccw : Bool) (x : Nat) : s.applyBreak ccw x =
    if s.fb (cutValid ccw) 0 && decide (s.breakDist ccw (s.f (cutAt ccw) 0) ≤ s.breakDist ccw x) then s else ((s.setF (cutValid ccw) 0 1).setF (cutAt ccw) 0 x).setF F.CLS_EVENT_BREAK 0 1 := rfl

theorem clearBreak_eq (s : State) (ccw : Bool) : s.clearBreak ccw = if s.fb (cutValid ccw) 0 then ((s.setF (cutValid ccw) 0 0).setF (cutAt ccw) 0 0).setF F.CLS_EVENT_BREAK 0 1 else s := rfl

theorem sets_break (s : State) (ccw : Bool) (v x : Nat) (hv : v < 2) :
    Sets s [(cutValid ccw, 0, v), (cutAt ccw, 0, x % 256), (F.CLS_EVENT_BREAK, 0, 1)] (((s.setF (cutValid ccw) 0 v).setF (cutAt ccw) 0 x).setF F.CLS_EVENT_BREAK 0 1) := by
  cases ccw with
  | false => exact (((Sets.refl s).putNew F.CLS_RING_CUT_CW_VALID 0 v rfl hv).snocNew F.CLS_RING_CUT_CW_X 0 x rfl).putNew F.CLS_EVENT_BREAK 0 1 rfl (by decide)
  | true => exact (((Sets.refl s).putNew F.CLS_RING_CUT_CCW_VALID 0 v rfl hv).snocNew F.CLS_RING_CUT_CCW_X 0 x rfl).putNew F.CLS_EVENT_BREAK 0 1 rfl (by decide)

/-- A break that is taken: none stood in its direction, or it is nearer. -/
theorem sets_applyBreak {s : State} {ccw : Bool} {x : Nat} (h : s.fb (cutValid ccw) 0 = true → ¬ s.breakDist ccw (s.f (cutAt ccw) 0) ≤ s.breakDist ccw x) :
    Sets s [(cutValid ccw, 0, 1), (cutAt ccw, 0, x % 256), (F.CLS_EVENT_BREAK, 0, 1)] (s.applyBreak ccw x) := by
  rw [applyBreak_eq, if_neg (by simpa using h)]
  exact sets_break s ccw 1 x (by decide)

theorem sets_clearBreak {s : State} {ccw : Bool} (h : s.fb (cutValid ccw) 0 = true) :
    Sets s [(cutValid ccw, 0, 0), (cutAt ccw, 0, 0), (F.CLS_EVENT_BREAK, 0, 1)] (s.clearBreak ccw) := by
  rw [clearBreak_eq, if_pos h]
  exact sets_break s ccw 0 0 (by decide)

theorem breakWritten (s : State) (ccw : Bool) (v x : Nat) : Writes breakFields s (((s.setF (cutValid ccw) 0 v).setF (cutAt ccw) 0 x).setF F.CLS_EVENT_BREAK 0 1) := by
  cases ccw <;> exact ⟨(((RegsOnly.refl s).setF _ _ _).setF _ _ _).setF _ _ _, (((Off.refl _ s).setF _ _ _ rfl).setF _ _ _ rfl).setF _ _ _ rfl⟩

theorem applyBreak_writes (s : State) (ccw : Bool) (x : Nat) : Writes breakFields s (s.applyBreak ccw x) := by
  rw [applyBreak_eq]
  split
  · exact ⟨RegsOnly.refl s, Off.refl _ s⟩
  · exact breakWritten s ccw 1 x

theorem clearBreak_writes (s : State) (ccw : Bool) : Writes breakFields s (s.clearBreak ccw) := by
  rw [clearBreak_eq]
  split
  · exact breakWritten s ccw 0 0
  · exact ⟨RegsOnly.refl s, Off.refl _ s⟩

/-- After a break was applied, one stands in its direction. -/
theorem applyBreak_valid (s : State) (ccw : Bool) (x : Nat) : (s.applyBreak ccw x).f (cutValid ccw) 0 = 1 := by
  by_cases h : (s.fb (cutValid ccw) 0 && decide (s.breakDist ccw (s.f (cutAt ccw) 0) ≤ s.breakDist ccw x)) = true
  · rw [applyBreak_eq, if_pos h]
    exact of_decide_eq_true (Bool.and_eq_true_iff.mp h).1
  · exact (sets_applyBreak fun hv hd => h (Bool.and_eq_true_iff.mpr ⟨hv, decide_eq_true hd⟩)).2.1 _ (List.mem_cons_self ..)

theorem clearBreak_invalid (s : State) (ccw : Bool) : (s.clearBreak ccw).f (cutValid ccw) 0 ≠ 1 := by
  by_cases h : s.fb (cutValid ccw) 0 = true
  · have hzero := (sets_clearBreak h).2.1 _ (List.mem_cons_self ..)
    simp [hzero]
  · rw [clearBreak_eq, if_neg h]
    exact fun hv => h (decide_eq_true hv)

/-- The break of the other direction stays as it is. -/
theorem clearBreak_other (s : State) {ccw dir : Bool} (h : dir ≠ ccw) : (s.clearBreak ccw).f (cutValid dir) 0 = s.f (cutValid dir) 0 := by
  have hcode : codesAvoid [(cutValid ccw, 0, 0), (cutAt ccw, 0, 0), (F.CLS_EVENT_BREAK, 0, 1)] [(cutValid dir).code] = true := by
    cases ccw <;> cases dir <;> first | exact absurd rfl h | rfl
  by_cases hv : s.fb (cutValid ccw) 0 = true
  · exact (sets_clearBreak hv).f_eq _ _ hcode
  · rw [clearBreak_eq, if_neg hv]

-- ## Notices (R254, R255)

/-- What a notice touches: a reserved buffer, an egress queue's counts, and the notices' SEQUENCE. -/
structure Notice (s t : State) : Prop where
  off : Off enqueueFields s t
  haul : t.haul = { s.haul with seqs := Tab.set 0 s.haul.seqs 0xFFFF ((Tab.get 0 s.haul.seqs 0xFFFF + 1) % 2 ^ 32) }
  free : t.free = s.free + 1
  dram : t.dram = s.dram

theorem haul_of_sansQueues {s t : State} (h : t.sansQueues = s.sansQueues) : t.haul = s.haul := (congrArg (fun u : State => u.haul) h :)

theorem free_of_sansQueues {s t : State} (h : t.sansQueues = s.sansQueues) : t.free = s.free := (congrArg (fun u : State => u.free) h :)

theorem dram_of_sansQueues {s t : State} (h : t.sansQueues = s.sansQueues) : t.dram = s.dram := (congrArg (fun u : State => u.dram) h :)

/-- The payload of a notice. -/
def State.noticePay (s : State) (sub x : Nat) (ccw : Bool) (n : Nat) : List Byte :=
  leBytes 1 sub ++ leBytes 1 x ++ leBytes 1 (if ccw then 1 else 0) ++ leBytes 1 n ++ (Config.freeBytes 40 s.free 12 ++ List.replicate 12 0).take 12

theorem noticePay_length (s : State) (sub x : Nat) (ccw : Bool) (n : Nat) : (s.noticePay sub x ccw n).length = 16 := by
  simp [State.noticePay]

/-- The frame of a notice on port `q`. -/
def State.noticeFrame (s : State) (sub x : Nat) (ccw : Bool) (n hop src q : Nat) : List Byte :=
  s.haulFrame q (s.controlHdr 4 0xFFFF hop src) (Tab.get 0 s.haul.seqs 0xFFFF) (Config.freeNat 34 s.free % 2 ^ 48) (s.noticePay sub x ccw n)

theorem sendNotice_eq (s : State) (ps : List Nat) (sub x : Nat) (ccw : Bool) (n hop src : Nat) :
    s.sendNotice ps sub x ccw n hop src = ((s.sendReserved ps 6 (s.noticeFrame sub x ccw n hop src)).nextOwnSeq 0xFFFF).draw := rfl

theorem sendNotice_notice (s : State) (ps : List Nat) (sub x : Nat) (ccw : Bool) (n hop src : Nat) : Notice s (s.sendNotice ps sub x ccw n hop src) := by
  obtain ⟨hsans, hoff⟩ := sendReserved_frame s ps 6 (s.noticeFrame sub x ccw n hop src)
  rw [sendNotice_eq]
  generalize s.sendReserved ps 6 (s.noticeFrame sub x ccw n hop src) = t at hsans hoff ⊢
  refine ⟨(hoff.withHaul _).draw, ?_, (congrArg (· + 1) (free_of_sansQueues hsans) :), (dram_of_sansQueues hsans :)⟩
  rw [← haul_of_sansQueues hsans]
  rfl

/-- The registers that a notice's way rests on. -/
def ringFields : List Fld := [F.CLS_RING_SIZE, F.CLS_RING_POS, F.CLS_RING_CW_PORT, F.CLS_RING_CCW_PORT, F.CLS_RING_EN]

theorem ring_congr {s t : State} {fs : List Fld} (h : Off fs s t) (hx : ringFields.all (fun x => fs.all (fun y => x.code != y.code)) = true) :
    t.ringN = s.ringN ∧ t.ringPos = s.ringPos ∧ t.cwPort = s.cwPort ∧ t.ccwPort = s.ccwPort ∧ t.ringOn = s.ringOn := by
  have hat : ∀ x ∈ ringFields, t.f x 0 = s.f x 0 := fun x hm => h.at_ x 0 (List.all_eq_true.mp hx x hm)
  exact ⟨congrArg (max 1) (hat F.CLS_RING_SIZE (by simp [ringFields])), hat F.CLS_RING_POS (by simp [ringFields]), hat F.CLS_RING_CW_PORT (by simp [ringFields]), hat F.CLS_RING_CCW_PORT (by simp [ringFields]),
    congrArg (fun v => decide (v = 1)) (hat F.CLS_RING_EN (by simp [ringFields]))⟩

/-- The way of a notice rests on the ring's registers alone. -/
theorem noticeGoesOn_congr {s t : State} {fs : List Fld} (h : Off fs s t) (hx : ringFields.all (fun x => fs.all (fun y => x.code != y.code)) = true) (p x : Nat) (ccw : Bool) (n hop : Nat) :
    t.noticeGoesOn p x ccw n hop = s.noticeGoesOn p x ccw n hop ∧ t.otherRing p = s.otherRing p := by
  obtain ⟨hsize, hpos, hcw, hccw, -⟩ := ring_congr h hx
  unfold State.noticeGoesOn State.otherRing State.ringNext
  rw [hsize, hpos, hcw, hccw]
  exact ⟨rfl, rfl⟩

theorem ringPort_congr {s t : State} {fs : List Fld} (h : Off fs s t) (hx : ringFields.all (fun x => fs.all (fun y => x.code != y.code)) = true) (p : Nat) : t.ringPort p = s.ringPort p := by
  obtain ⟨-, -, hcw, hccw, hon⟩ := ring_congr h hx
  unfold State.ringPort
  rw [hcw, hccw, hon]

/-- A copy that fits joins its queue. -/
theorem sendReserved_copies {s : State} {q inport : Nat} {mk : Nat → List Byte} (hen : s.f F.TMG_Q_CFG_EN (64 * q) = 1) (hroom : s.f F.TMG_Q_DEPTH_BYTES (64 * q) + (mk q).length ≤ s.f F.TMG_Q_DEPTH_MAX_BYTES (64 * q))
    (hfree : (List.range 16).any (fun b => decide ((s.packet b).bufs = [])) = true) :
    ((s.sendReserved [q] inport mk).tmgQueue (64 * q)).copies.map (·.inport) = (s.tmgQueue (64 * q)).copies.map (·.inport) ++ [inport] := by
  unfold State.sendReserved
  split
  · next hnone =>
    obtain ⟨b, hb, hempty⟩ := List.any_eq_true.mp hfree
    exact absurd hempty (List.find?_eq_none.mp hnone b hb)
  · next b hb =>
    dsimp only
    generalize ht : s.setPacket b _ = t
    have hregs : t.regs = s.regs := by rw [← ht]; rfl
    have hqueue : t.tmgQueue (64 * q) = s.tmgQueue (64 * q) := by rw [← ht]; rfl
    have hsame : ∀ (x : Fld) (i : Nat), t.f x i = s.f x i := fun x i => (Off.same (fs := []) hregs) x i (by simp [Fld.outside])
    have hfits : ∀ c : Copy, c.len = (mk q).length → c.yellow = false → t.copyFits q 0 c = true := by
      intro c hlen hyellow
      unfold State.copyFits State.fb
      simp only [hsame, Nat.add_zero]
      rw [hyellow, hlen, hen]
      simpa using hroom
    show ((t.enqueueCopy q 0 _).tmgQueue (64 * q)).copies.map _ = _
    rw [enqueueCopy_eq, if_pos (hfits _ rfl rfl)]
    obtain ⟨-, -, -, hcopies⟩ := copyQueued_frame t q 0 { buf := b, len := (mk q).length, frame := mk q, inport := inport, arrival := s.tick4 }
    rw [Nat.add_zero] at hcopies
    rw [hcopies, List.map_append, hqueue]
    rfl

/-- A notice that fits joins the queue of its port. -/
theorem sendNotice_copies {s : State} {q : Nat} (sub x : Nat) (ccw : Bool) (n hop src : Nat) (hen : s.f F.TMG_Q_CFG_EN (64 * q) = 1)
    (hroom : s.f F.TMG_Q_DEPTH_BYTES (64 * q) + 200 ≤ s.f F.TMG_Q_DEPTH_MAX_BYTES (64 * q)) (hfree : (List.range 16).any (fun b => decide ((s.packet b).bufs = [])) = true) :
    ((s.sendNotice [q] sub x ccw n hop src).tmgQueue (64 * q)).copies.map (·.inport) = (s.tmgQueue (64 * q)).copies.map (·.inport) ++ [6] := by
  have hlen := haulFrame_length_le s q (s.controlHdr 4 0xFFFF hop src) (Tab.get 0 s.haul.seqs 0xFFFF) (Config.freeNat 34 s.free % 2 ^ 48) (noticePay_length s sub x ccw n)
  exact sendReserved_copies (mk := s.noticeFrame sub x ccw n hop src) hen (Nat.le_trans (Nat.add_le_add_left hlen _) hroom) hfree

end Sys2Proof.Machine

/-! RingAndLinks: links, notices and the part's own breaks (R230, R250, R254 to R257). -/

namespace Sys2Proof.Machine

-- ## Notices that are received

theorem passNotice_eq (s : State) (p sub x : Nat) (ccw : Bool) (n hop : Nat) :
    s.passNotice p sub x ccw n hop none = if s.noticeGoesOn p x ccw n hop then s.sendNotice [s.otherRing p] sub x ccw n (hop + 1) s.noticeSrc else s := by
  unfold State.passNotice
  cases s.noticeGoesOn p x ccw n hop <;> rfl

theorem passNotice_off (s : State) (p sub x : Nat) (ccw : Bool) (n hop : Nat) : Off enqueueFields s (s.passNotice p sub x ccw n hop none) := by
  rw [passNotice_eq]
  exact (sendNotice_notice s _ _ _ _ _ _ _).off.ite (Off.refl _ s)

theorem passNotice_stays {s : State} {p sub x : Nat} {ccw : Bool} {n hop : Nat} (h : s.noticeGoesOn p x ccw n hop = false) : s.passNotice p sub x ccw n hop none = s := by
  rw [passNotice_eq, h, if_neg Bool.false_ne_true]

/-- The part after a restore notice has reached its ring port (R257). -/
def State.restoreTaken (s : State) (ccw : Bool) (x : Nat) : State := if s.fb (cutValid ccw) 0 && decide (s.f (cutAt ccw) 0 = x) then s.clearBreak ccw else s

theorem restoreTaken_writes (s : State) (ccw : Bool) (x : Nat) : Writes breakFields s (s.restoreTaken ccw x) := by
  unfold State.restoreTaken
  split
  · exact clearBreak_writes s ccw
  · exact ⟨RegsOnly.refl s, Off.refl _ s⟩

theorem exec_noticeReceive {s : State} {p : Nat} (hp : p < 6) (h : s.ringPort p = true) (x : Nat) (ccw : Bool) (n hop : Nat) :
    exec (.ringNoticeReceive p x ccw n hop) s = .next ((s.applyBreak ccw x).passNotice p 1 x ccw n hop none) := by
  refine (onInstance_of (decide_eq_true hp) _).trans (congrArg Host.Outcome.next ?_)
  rw [State.ringNotice, h]
  rfl

theorem exec_restoreReceive {s : State} {p : Nat} (hp : p < 6) (h : s.ringPort p = true) (x : Nat) (ccw : Bool) (n hop : Nat) :
    exec (.ringRestoreReceive p x ccw n hop) s = .next ((s.restoreTaken ccw x).passNotice p 2 x ccw n hop none) := by
  refine (onInstance_of (decide_eq_true hp) _).trans (congrArg Host.Outcome.next ?_)
  rw [State.ringRestore, h]
  rfl

theorem exec_noticeElsewhere {s : State} {p : Nat} (hp : p < 6) (h : s.ringPort p = false) (x : Nat) (ccw : Bool) (n hop : Nat) :
    exec (.ringNoticeReceive p x ccw n hop) s = .next s ∧ exec (.ringRestoreReceive p x ccw n hop) s = .next s := by
  refine ⟨(onInstance_of (decide_eq_true hp) _).trans (congrArg Host.Outcome.next ?_), (onInstance_of (decide_eq_true hp) _).trans (congrArg Host.Outcome.next ?_)⟩
  · rw [State.ringNotice, h]
    rfl
  · rw [State.ringRestore, h]
    rfl

theorem outside_enqueue (ccw : Bool) : (cutValid ccw).outside enqueueFields := by
  cases ccw <;> (unfold Fld.outside; decide)

/-- A break stands after its notice. -/
theorem noticeReceive_valid (s : State) (p x : Nat) (ccw : Bool) (n hop : Nat) : ((s.applyBreak ccw x).passNotice p 1 x ccw n hop none).f (cutValid ccw) 0 = 1 :=
  (passNotice_off _ p 1 x ccw n hop _ 0 (outside_enqueue ccw)).trans (applyBreak_valid s ccw x)

theorem sets_restoreTaken (s : State) (ccw : Bool) (x : Nat) :
    Sets s (if s.f (cutValid ccw) 0 = 1 ∧ s.f (cutAt ccw) 0 = x then [(cutValid ccw, 0, 0), (cutAt ccw, 0, 0), (F.CLS_EVENT_BREAK, 0, 1)] else []) (s.restoreTaken ccw x) := by
  unfold State.restoreTaken
  by_cases h : s.f (cutValid ccw) 0 = 1 ∧ s.f (cutAt ccw) 0 = x
  · have hv : s.fb (cutValid ccw) 0 = true := decide_eq_true h.1
    rw [if_pos h, if_pos (Bool.and_eq_true_iff.mpr ⟨hv, decide_eq_true h.2⟩)]
    exact sets_clearBreak hv
  · have hb : ¬ (s.fb (cutValid ccw) 0 && decide (s.f (cutAt ccw) 0 = x)) = true := fun hb => h ⟨of_decide_eq_true (Bool.and_eq_true_iff.mp hb).1, of_decide_eq_true (Bool.and_eq_true_iff.mp hb).2⟩
    rw [if_neg h, if_neg hb]
    exact Sets.refl s

theorem restoreReceive_valid (s : State) (p x : Nat) (ccw : Bool) (n hop : Nat) : ((s.restoreTaken ccw x).passNotice p 2 x ccw n hop none).f (cutValid ccw) 0 =
    if s.f (cutValid ccw) 0 = 1 ∧ s.f (cutAt ccw) 0 = x then 0 else s.f (cutValid ccw) 0 := by
  refine (passNotice_off _ p 2 x ccw n hop _ 0 (outside_enqueue ccw)).trans ?_
  have hsets := sets_restoreTaken s ccw x
  by_cases h : s.f (cutValid ccw) 0 = 1 ∧ s.f (cutAt ccw) 0 = x
  · rw [if_pos h] at hsets ⊢
    exact hsets.2.1 _ (List.mem_cons_self ..)
  · rw [if_neg h] at hsets ⊢
    exact hsets.2.2 _ _ (by simp)

/-- A notice that goes on joins the queue of the other ring port. -/
theorem passNotice_copies {s t : State} {p q : Nat} (sub : Nat) {x : Nat} {ccw : Bool} {n hop : Nat} (ht : Writes breakFields s t) (hgo : s.noticeGoesOn p x ccw n hop = true) (hq : q = s.otherRing p)
    (hen : s.f F.TMG_Q_CFG_EN (64 * q) = 1) (hroom : s.f F.TMG_Q_DEPTH_BYTES (64 * q) + 200 ≤ s.f F.TMG_Q_DEPTH_MAX_BYTES (64 * q)) (hfree : (List.range 16).any (fun b => decide ((s.packet b).bufs = [])) = true) :
    ((t.passNotice p sub x ccw n hop none).tmgQueue (64 * q)).copies.map (·.inport) = (s.tmgQueue (64 * q)).copies.map (·.inport) ++ [6] := by
  obtain ⟨hgoes, hother⟩ := noticeGoesOn_congr ht.off rfl p x ccw n hop
  have hqs : t.q = s.q := ht.only.q
  have hpacket : ∀ b, t.packet b = s.packet b := fun b => by rw [State.packet, State.packet, State.pool, State.pool, hqs]
  have hqueue : t.tmgQueue (64 * q) = s.tmgQueue (64 * q) := by rw [State.tmgQueue, State.tmgQueue, hqs]
  rw [passNotice_eq, hgoes, hgo, if_pos rfl, hother, ← hq, ← hqueue]
  refine sendNotice_copies sub x ccw n (hop + 1) t.noticeSrc ((ht.off.at_ _ _ rfl).trans hen) ?_ (by simpa only [hpacket] using hfree)
  rw [ht.off.at_ F.TMG_Q_DEPTH_BYTES _ rfl, ht.off.at_ F.TMG_Q_DEPTH_MAX_BYTES _ rfl]
  exact hroom

/-- A further break of a direction is taken only where it is nearer. -/
theorem sets_applyBreak_again {s : State} {ccw : Bool} {x a b : Nat} (hv : s.f (cutValid ccw) 0 = 1) (ha : a = s.breakDist ccw (s.f (cutAt ccw) 0)) (hb : b = s.breakDist ccw x) :
    Sets s (if a ≤ b then [] else [(cutValid ccw, 0, 1), (cutAt ccw, 0, x % 256), (F.CLS_EVENT_BREAK, 0, 1)]) (s.applyBreak ccw x) := by
  have hbit : s.fb (cutValid ccw) 0 = true := decide_eq_true hv
  by_cases h : a ≤ b
  · rw [if_pos h, applyBreak_eq, if_pos (Bool.and_eq_true_iff.mpr ⟨hbit, decide_eq_true (ha ▸ hb ▸ h)⟩)]
    exact Sets.refl s
  · rw [if_neg h]
    exact sets_applyBreak fun _ hd => h (ha ▸ hb ▸ hd)

-- ## The part's own breaks (R257)

/-- The part's own breaks of the directions `cw` and `ccw` are gone. -/
structure Cleared (cw ccw : Bool) (s t : State) : Prop where
  ownCw : t.haul.ownCw = (s.haul.ownCw && !cw)
  ownCcw : t.haul.ownCcw = (s.haul.ownCcw && !ccw)
  validCw : if cw then t.f F.CLS_RING_CUT_CW_VALID 0 ≠ 1 else t.f F.CLS_RING_CUT_CW_VALID 0 = s.f F.CLS_RING_CUT_CW_VALID 0
  validCcw : if ccw then t.f F.CLS_RING_CUT_CCW_VALID 0 ≠ 1 else t.f F.CLS_RING_CUT_CCW_VALID 0 = s.f F.CLS_RING_CUT_CCW_VALID 0
  off : Off (breakFields ++ enqueueFields) s t
  dram : t.dram = s.dram

theorem Cleared.refl (s : State) : Cleared false false s s := ⟨by simp, by simp, rfl, rfl, Off.refl _ s, rfl⟩

theorem Cleared.trans {a b c d : Bool} {s t u : State} (h : Cleared a b s t) (g : Cleared c d t u) : Cleared (a || c) (b || d) s u := by
  have keep : ∀ {a c : Bool} {x y z : Nat}, (if a then y ≠ 1 else y = x) → (if c then z ≠ 1 else z = y) → (if a || c then z ≠ 1 else z = x) := by
    intro a c x y z hy hz
    cases a <;> cases c
    · exact hz.trans hy
    · exact hz
    · exact fun h1 => hy (hz.symm.trans h1)
    · exact hz
  exact ⟨by rw [g.ownCw, h.ownCw, Bool.not_or, Bool.and_assoc], by rw [g.ownCcw, h.ownCcw, Bool.not_or, Bool.and_assoc], keep h.validCw g.validCw, keep h.validCcw g.validCcw, h.off.trans g.off, g.dram.trans h.dram⟩

theorem Cleared.notice {a b : Bool} {s t u : State} (h : Cleared a b s t) (g : Notice t u) : Cleared a b s u := by
  have hcw := g.off F.CLS_RING_CUT_CW_VALID 0 (outside_enqueue false)
  have hccw := g.off F.CLS_RING_CUT_CCW_VALID 0 (outside_enqueue true)
  refine ⟨by rw [g.haul]; exact h.ownCw, by rw [g.haul]; exact h.ownCcw, by rw [hcw]; exact h.validCw, by rw [hccw]; exact h.validCcw, h.off.trans (g.off.mono rfl), g.dram.trans h.dram⟩

theorem clearOwn_cw (s : State) : Cleared true false s (s.clearOwn false) := by
  have hw := clearBreak_writes s false
  have hhaul := hw.only.haul
  refine ⟨(Bool.and_false _).symm, ?_, clearBreak_invalid s false, clearBreak_other s (dir := true) (by decide), (hw.off.mono rfl).withHaul _, hw.only.dram⟩
  rw [Bool.not_false, Bool.and_true, ← hhaul]
  rfl

theorem clearOwn_ccw (s : State) : Cleared false true s (s.clearOwn true) := by
  have hw := clearBreak_writes s true
  have hhaul := hw.only.haul
  refine ⟨?_, (Bool.and_false _).symm, clearBreak_other s (dir := false) (by decide), clearBreak_invalid s true, (hw.off.mono rfl).withHaul _, hw.only.dram⟩
  rw [Bool.not_false, Bool.and_true, ← hhaul]
  rfl

/-- A break of the part's own goes with a notice. -/
def State.restoreOwn (s : State) (ccw : Bool) : State := (s.clearOwn ccw).ownNotice 2 ccw

theorem sendRestore_eq (s : State) : s.sendRestore =
    if (if s.haul.ownCw then s.restoreOwn false else s).haul.ownCcw then (if s.haul.ownCw then s.restoreOwn false else s).restoreOwn true else (if s.haul.ownCw then s.restoreOwn false else s) := rfl

theorem sendRestore_cleared (s : State) : Cleared s.haul.ownCw s.haul.ownCcw s s.sendRestore := by
  have hfirst : Cleared s.haul.ownCw false s (if s.haul.ownCw then s.restoreOwn false else s) := by
    cases s.haul.ownCw with
    | false => exact Cleared.refl s
    | true => exact (clearOwn_cw s).notice (sendNotice_notice _ _ _ _ _ _ _ _)
  rw [sendRestore_eq]
  generalize (if s.haul.ownCw then s.restoreOwn false else s) = t at hfirst ⊢
  have hown : t.haul.ownCcw = s.haul.ownCcw := hfirst.ownCcw.trans (by simp)
  have hsecond : Cleared false t.haul.ownCcw t (if t.haul.ownCcw then t.restoreOwn true else t) := by
    cases t.haul.ownCcw with
    | false => exact Cleared.refl t
    | true => exact (clearOwn_ccw t).notice (sendNotice_notice _ _ _ _ _ _ _ _)
  have hboth := hfirst.trans hsecond
  rw [Bool.or_false, Bool.false_or] at hboth
  exact hown ▸ hboth

theorem Cleared.when {a b : Bool} {s t : State} (h : Cleared a b s t) (c : Bool) : Cleared (c && a) (c && b) s (if c then t else s) := by
  cases c with
  | false => exact Cleared.refl s
  | true => exact h

theorem ringWrite_cleared (s : State) (w : Nat) : Cleared (w.testBit 2 && s.haul.ownCw || w.testBit 0) (w.testBit 2 && s.haul.ownCcw || w.testBit 1) s (s.ringWrite w) := by
  have h := (((sendRestore_cleared s).when (w.testBit 2)).trans ((clearOwn_cw _).when (w.testBit 0))).trans ((clearOwn_ccw _).when (w.testBit 1))
  simp only [Bool.and_true, Bool.and_false, Bool.or_false] at h
  exact h

theorem exec_ringCmd {s : State} {o : Origin} {w : Word} (hw : s.writeOk o .CLS_RING_CMD 0 = true) : ∀ c ∈ [Instr.sendRestore o w, .clearCw o w, .clearCcw o w], exec c s = .next (s.ringWrite w.toNat) := by
  have hwrite : s.regWriteBy o .CLS_RING_CMD 0 w = s.ringWrite w.toNat := regWriteBy_eq w hw regAt_CLS_RING_CMD (by decide)
  have hexec : ∀ c ∈ [Instr.sendRestore o w, .clearCw o w, .clearCcw o w], exec c s = .next (s.regWriteBy o .CLS_RING_CMD 0 w) := by
    simp only [List.forall_mem_cons]
    exact ⟨rfl, rfl, rfl, by simp⟩
  exact fun c hc => (hexec c hc).trans (congrArg Host.Outcome.next hwrite)

end Sys2Proof.Machine

/-! RingAndLinks: haul links that come up and go down (R230, R231, R254), fragments that age out (R249, R250). -/

namespace Sys2Proof.Machine

-- ## The end of a lost frame

theorem settleRx_frame (s : State) (r : RxFrame) (bad : Bool) : (s.settleRx r bad).sansPool = s.sansPool ∧ (s.settleRx r bad).regs = s.regs := by
  unfold State.settleRx
  split
  · exact ⟨rfl, rfl⟩
  · next b _ =>
    have href := setRef_frame s b { s.packet b with ref := (s.packet b).ref - r.held, whole := true, bad := bad }
    have hfree := freeChain_frame (s.setRef b { s.packet b with ref := (s.packet b).ref - r.held, whole := true, bad := bad }) b
    dsimp only
    exact sansPool_ite ⟨hfree.1.trans href.1, hfree.2.trans href.2⟩ href

theorem haulPort_setHaulPort (s : State) (p : Nat) (x : HaulPort) : (s.setHaulPort p x).haulPort p = x := Tab.get_set_same _ _ _ _

/-- A frame that is lost leaves its port and the pool; nothing else changes. -/
theorem frameEnd_lost (s : State) (p : Nat) : (s.frameEnd p true).regs = s.regs ∧ ((s.frameEnd p true).haulPort p).rx = none ∧ ((s.haulPort p).rx = none → s.frameEnd p true = s) := by
  unfold State.frameEnd
  cases h : (s.haulPort p).rx with
  | none => exact ⟨rfl, h, fun _ => rfl⟩
  | some r =>
    have hsettle := settleRx_frame (s.setRx p none) r true
    refine ⟨hsettle.2, ?_, fun hx => absurd hx (by simp)⟩
    show (((s.setRx p none).settleRx r true).haulPort p).rx = none
    rw [State.haulPort, haul_of_sansPool hsettle.1]
    exact congrArg HaulPort.rx (haulPort_setHaulPort s p _)

-- ## The break of a lost port (R254)

theorem portBreak_eq (s : State) (p : Nat) : s.portBreak p = if s.ringPort p then
    ((s.applyBreak (decide (p ≠ s.cwPort)) (s.ringNext (decide (p ≠ s.cwPort)))).withHaul fun w => if decide (p ≠ s.cwPort) then { w with ownCcw := true } else { w with ownCw := true }).ownNotice 1 (decide (p ≠ s.cwPort)) else s := by
  unfold State.portBreak
  cases s.ringPort p <;> rfl

/-- A break notice leaves the ports of the haul unit alone. -/
theorem portBreak_frame (s : State) (p : Nat) : Off (breakFields ++ enqueueFields) s (s.portBreak p) ∧ (s.portBreak p).haul.ports = s.haul.ports ∧ (s.portBreak p).dram = s.dram := by
  rw [portBreak_eq]
  split
  · have happly := applyBreak_writes s (decide (p ≠ s.cwPort)) (s.ringNext (decide (p ≠ s.cwPort)))
    generalize s.applyBreak (decide (p ≠ s.cwPort)) (s.ringNext (decide (p ≠ s.cwPort))) = t at happly ⊢
    have hports : ∀ u : State, u = t.withHaul (fun w => if decide (p ≠ s.cwPort) then { w with ownCcw := true } else { w with ownCw := true }) → Off (breakFields ++ enqueueFields) s u ∧ u.haul.ports = s.haul.ports ∧ u.dram = s.dram := by
      rintro u rfl
      refine ⟨(happly.off.mono rfl).withHaul _, ?_, happly.only.dram⟩
      rw [← congrArg HaulState.ports happly.only.haul]
      show (if _ then _ else _ : HaulState).ports = _
      split <;> rfl
    obtain ⟨hoff, hsame, hdram⟩ := hports _ rfl
    generalize t.withHaul (fun w => if decide (p ≠ s.cwPort) then { w with ownCcw := true } else { w with ownCw := true }) = u at hoff hsame hdram ⊢
    have hnotice := sendNotice_notice u [u.cwPort, u.ccwPort] 1 (u.ringNext (decide (p ≠ s.cwPort))) (decide (p ≠ s.cwPort)) u.ringN 0 u.device
    exact ⟨hoff.trans (hnotice.off.mono rfl), (congrArg HaulState.ports hnotice.haul).trans hsame, hnotice.dram.trans hdram⟩
  · exact ⟨Off.refl _ s, rfl, rfl⟩

/-- A port outside the ring makes no break. -/
theorem portBreak_elsewhere {s : State} {p : Nat} (h : s.ringPort p = false) : s.portBreak p = s := by
  rw [portBreak_eq, h, if_neg Bool.false_ne_true]

/-- The own flag of a direction. -/
def HaulState.own (w : HaulState) (ccw : Bool) : Bool := if ccw then w.ownCcw else w.ownCw

/-- A ring port that makes the first break of its direction. -/
theorem portBreak_first {s : State} {p : Nat} {ccw : Bool} (hon : s.ringOn = true) (hport : (ccw = false ∧ p = s.cwPort) ∨ (ccw = true ∧ p = s.ccwPort ∧ p ≠ s.cwPort)) (hv : s.f (cutValid ccw) 0 ≠ 1) :
    (s.portBreak p).f (cutValid ccw) 0 = 1 ∧ (s.portBreak p).f (cutAt ccw) 0 = s.ringNext ccw % 256 ∧ (s.portBreak p).f F.CLS_EVENT_BREAK 0 = 1 ∧ (s.portBreak p).haul.own ccw = true := by
  have hring : s.ringPort p = true := by
    unfold State.ringPort
    rw [hon]
    rcases hport with ⟨-, h⟩ | ⟨-, h, -⟩ <;> simp [← h]
  have hdir : decide (p ≠ s.cwPort) = ccw := by
    rcases hport with ⟨hc, h⟩ | ⟨hc, -, h⟩
    · rw [hc, h]
      simp
    · rw [hc]
      exact decide_eq_true h
  rw [portBreak_eq, if_pos hring, hdir]
  have hsets := sets_applyBreak (s := s) (ccw := ccw) (x := s.ringNext ccw) fun h => absurd (of_decide_eq_true h) hv
  generalize s.applyBreak ccw (s.ringNext ccw) = t at hsets ⊢
  have hown : (t.withHaul fun w => if ccw then { w with ownCcw := true } else { w with ownCw := true }).haul.own ccw = true := by cases ccw <;> rfl
  have hregs : (t.withHaul fun w => if ccw then { w with ownCcw := true } else { w with ownCw := true }).regs = t.regs := rfl
  generalize (t.withHaul fun w => if ccw then { w with ownCcw := true } else { w with ownCw := true }) = u at hown hregs ⊢
  have hnotice := sendNotice_notice u [u.cwPort, u.ccwPort] 1 (u.ringNext ccw) ccw u.ringN 0 u.device
  have hat : ∀ x : Fld, x.outside enqueueFields → ∀ v, (x, 0, v) ∈ [(cutValid ccw, 0, 1), (cutAt ccw, 0, s.ringNext ccw % 256), (F.CLS_EVENT_BREAK, 0, 1)] → (u.ownNotice 1 ccw).f x 0 = v :=
    fun x hx v hm => (hnotice.off x 0 hx).trans (((Off.same (fs := enqueueFields) hregs) x 0 hx).trans (hsets.2.1 _ hm))
  refine ⟨hat _ (outside_enqueue ccw) _ (by simp), hat _ ?_ _ (by simp), hat _ ?_ _ (by simp), ?_⟩
  · cases ccw <;> (unfold Fld.outside; decide)
  · unfold Fld.outside; decide
  · have hhaul : (u.ownNotice 1 ccw).haul = _ := hnotice.haul
    rw [hhaul]
    cases ccw <;> exact hown

-- ## HAUL_LINK_LOSS and HAUL_LINK_UP (R227, R230)

/-- REMOTE_FAULT shows a fault sequence in XAUI mode (R227). -/
def State.faultShown (s : State) (p : Nat) (fault : Bool) : State := if s.faultSeen p fault && !s.portBlind fnHaul p then s.setF F.HAUL_STATUS_REMOTE_FAULT p 1 else s

/-- The link is down, and its frame gone, before its break and its fault. -/
def State.lossTaken (s : State) (p : Nat) : State :=
  let t := ((s.frameEnd p true).linkDown p).setF F.HAUL_EVENT_LINK_LOSS p 1
  t.setHaulPort p { t.haulPort p with lost := true }

/-- The break of a lost port and its fault. -/
def State.lossTold (s : State) (p : Nat) : State := (s.portBreak p).raiseFault 32 p []

theorem haulLoss_eq (s : State) (p : Nat) (fault : Bool) : s.haulLoss p fault =
    if !(s.faultShown p fault).fb F.HAUL_STATUS_LINK p || (s.faultShown p fault).portBlind fnHaul p then s.faultShown p fault else ((s.faultShown p fault).lossTaken p).lossTold p := rfl

/-- The fields of a link that is lost. -/
def lossFields : List Fld := [F.HAUL_STATUS_LINK, F.HAUL_STATUS_ALIGNED, F.HAUL_STATUS_AN_DONE, F.HAUL_STATUS_REMOTE_FAULT, F.HAUL_EVENT_LINK_LOSS]

theorem sets_faultShown (s : State) (p : Nat) (fault : Bool) (h : s.portBlind fnHaul p = false) :
    Sets s (if fault = true ∧ s.f F.HAUL_CTRL_MODE p = 1 then [(F.HAUL_STATUS_REMOTE_FAULT, p, 1)] else []) (s.faultShown p fault) := by
  have hseen : s.faultSeen p fault = decide (fault = true ∧ s.f F.HAUL_CTRL_MODE p = 1) := by cases fault <;> simp [State.faultSeen]
  unfold State.faultShown
  rw [hseen, h, Bool.not_false, Bool.and_true]
  by_cases hf : fault = true ∧ s.f F.HAUL_CTRL_MODE p = 1
  · rw [if_pos hf, if_pos (decide_eq_true hf)]
    exact (Sets.refl s).putNew F.HAUL_STATUS_REMOTE_FAULT p 1 rfl (by decide)
  · rw [if_neg hf, if_neg (by simpa using hf)]
    exact Sets.refl s

theorem faultShown_remote (s : State) (p : Nat) (fault : Bool) (h : s.portBlind fnHaul p = false) :
    (s.faultShown p fault).f F.HAUL_STATUS_REMOTE_FAULT p = if fault = true ∧ s.f F.HAUL_CTRL_MODE p = 1 then 1 else s.f F.HAUL_STATUS_REMOTE_FAULT p := by
  have hsets := sets_faultShown s p fault h
  by_cases hf : fault = true ∧ s.f F.HAUL_CTRL_MODE p = 1
  · rw [if_pos hf] at hsets ⊢
    exact hsets.2.1 _ (List.mem_singleton.mpr rfl)
  · rw [if_neg hf] at hsets ⊢
    exact hsets.2.2 _ _ (by simp)

theorem faultShown_regsOnly (s : State) (p : Nat) (fault : Bool) : RegsOnly s (s.faultShown p fault) := by
  unfold State.faultShown
  split
  · exact (RegsOnly.refl s).setF _ _ _
  · exact RegsOnly.refl s

/-- What a loss writes before its break. -/
theorem lossTaken_sets (s : State) (p : Nat) : ∀ u : State, u = ((s.frameEnd p true).linkDown p).setF F.HAUL_EVENT_LINK_LOSS p 1 →
    Sets (s.frameEnd p true) [(F.HAUL_STATUS_LINK, p, 0), (F.HAUL_STATUS_ALIGNED, p, 0), (F.HAUL_STATUS_AN_DONE, p, 0), (F.HAUL_EVENT_LINK_LOSS, p, 1)] u := by
  rintro u rfl
  exact ((Sets.refl _).linkDown p rfl).putNew F.HAUL_EVENT_LINK_LOSS p 1 rfl (by decide)

/-- What a loss leaves before its break. -/
structure LossTaken (s : State) (p : Nat) (t : State) : Prop where
  values : ∀ e ∈ [(F.HAUL_STATUS_LINK, p, 0), (F.HAUL_STATUS_ALIGNED, p, 0), (F.HAUL_STATUS_AN_DONE, p, 0), (F.HAUL_EVENT_LINK_LOSS, p, 1)], t.f e.1 e.2.1 = e.2.2
  off : Off [F.HAUL_STATUS_LINK, F.HAUL_STATUS_ALIGNED, F.HAUL_STATUS_AN_DONE, F.HAUL_EVENT_LINK_LOSS] s t
  lost : (t.haulPort p).lost = true
  rx : (t.haulPort p).rx = none
  dram : (s.haulPort p).rx = none → t.dram = s.dram

theorem lossTaken_parts (s : State) (p : Nat) : LossTaken s p (s.lossTaken p) := by
  obtain ⟨hregs, hrx, hnone⟩ := frameEnd_lost s p
  have hsets := lossTaken_sets s p _ rfl
  unfold State.lossTaken
  dsimp only
  generalize ((s.frameEnd p true).linkDown p).setF F.HAUL_EVENT_LINK_LOSS p 1 = u at hsets ⊢
  have hregsOnly : RegsOnly (s.frameEnd p true) u := hsets.regsOnly
  have hport : u.haulPort p = (s.frameEnd p true).haulPort p := by rw [State.haulPort, State.haulPort, hregsOnly.haul]
  refine ⟨hsets.2.1, ((Off.same hregs).trans hsets.off).withHaul _, ?_, ?_, fun h => ?_⟩
  · rw [haulPort_setHaulPort]
  · rw [haulPort_setHaulPort]
    exact (congrArg HaulPort.rx hport).trans hrx
  · exact hregsOnly.dram.trans (congrArg State.dram (hnone h))

theorem haul_raiseFault (s : State) (fsid inst : Nat) (d : List Byte) : (s.raiseFault fsid inst d).haul = s.haul :=
  (congrArg State.haul (besideRaise_raiseFault s fsid inst d) :)

theorem lossTold_off (s : State) (p : Nat) : Off (breakFields ++ enqueueFields ++ raiseFields) s (s.lossTold p) :=
  ((portBreak_frame s p).1.mono rfl).raise _ _ _ rfl

theorem lossTold_parts (s : State) (p : Nat) : (s.lossTold p).haulPort p = s.haulPort p ∧ (s.lossTold p).dram = s.dram ∧ (s.lossTold p).f F.FLT_SRC_STATUS_ACTIVE 32 = 1 ∧ (s.lossTold p).f F.FLT_SRC_STATUS_INSTANCE 32 = p % 65536 := by
  obtain ⟨-, hports, hdram⟩ := portBreak_frame s p
  refine ⟨?_, (dram_raiseFault _ _ _ _).trans hdram, State.raiseFault_active _ _ _ _, raiseFault_instance _ _ _ (by decide)⟩
  unfold State.lossTold State.haulPort
  rw [haul_raiseFault, hports]

theorem portBlind_congr {fs : List Fld} {s t : State} (h : Off fs s t) (hfs : fs.all (fun y => F.LANE_CFG_EN.code != y.code && F.LANE_CFG_FUNC.code != y.code && F.LANE_CFG_PORT.code != y.code) = true)
    (hcal : fs.all (fun y => F.LANE_STATUS_CAL.code != y.code) = true) (func p : Nat) : t.portBlind func p = s.portBlind func p := by
  have hone : ∀ l, t.f F.LANE_STATUS_CAL l = s.f F.LANE_STATUS_CAL l := fun l => h.at_ _ l hcal
  unfold State.portBlind State.fb
  rw [portLanes_congr h hfs]
  simp only [hone]

theorem faultShown_off (s : State) (p : Nat) (fault : Bool) : Off [F.HAUL_STATUS_REMOTE_FAULT] s (s.faultShown p fault) := by
  unfold State.faultShown
  exact ((Off.refl _ s).setF _ _ _ rfl).ite (Off.refl _ s)

theorem haulLoss_taken {s : State} {p : Nat} (fault : Bool) (hl : s.f F.HAUL_STATUS_LINK p = 1) (hb : s.portBlind fnHaul p = false) : s.haulLoss p fault = ((s.faultShown p fault).lossTaken p).lossTold p := by
  have hoff := faultShown_off s p fault
  have hlink : (s.faultShown p fault).fb F.HAUL_STATUS_LINK p = true := decide_eq_true ((hoff.at_ _ _ rfl).trans hl)
  have hblind : (s.faultShown p fault).portBlind fnHaul p = false := (portBlind_congr hoff rfl rfl _ _).trans hb
  rw [haulLoss_eq, hlink, hblind]
  exact if_neg Bool.false_ne_true

/-- A loss that is not declared: no link, or a blind period. -/
theorem haulLoss_unheard {s : State} {p : Nat} (fault : Bool) (h : (s.faultShown p fault).fb F.HAUL_STATUS_LINK p = false ∨ (s.faultShown p fault).portBlind fnHaul p = true) :
    s.haulLoss p fault = s.faultShown p fault := by
  rw [haulLoss_eq]
  exact if_pos (by rcases h with h | h <;> simp [h])

theorem exec_linkLoss {p : Nat} (hp : p < 6) (fault : Bool) (s : State) : exec (.haulLinkLoss p fault) s = .next (s.haulLoss p fault) := onInstance_of (decide_eq_true hp) _

/-- A loss that a port declares (R230, R231). -/
theorem haulLoss_declared {s : State} {p : Nat} (fault : Bool) (hp : p < 6) (hl : s.f F.HAUL_STATUS_LINK p = 1) (hb : s.portBlind fnHaul p = false) :
    ∃ t, exec (.haulLinkLoss p fault) s = .next t ∧ t.f F.HAUL_STATUS_LINK p = 0 ∧ t.f F.HAUL_STATUS_ALIGNED p = 0 ∧ t.f F.HAUL_STATUS_AN_DONE p = 0 ∧ t.f F.HAUL_EVENT_LINK_LOSS p = 1 ∧ (t.haulPort p).lost = true ∧ (t.haulPort p).rx = none ∧
      t.f F.HAUL_STATUS_REMOTE_FAULT p = (if fault = true ∧ s.f F.HAUL_CTRL_MODE p = 1 then 1 else s.f F.HAUL_STATUS_REMOTE_FAULT p) ∧ t.f F.FLT_SRC_STATUS_ACTIVE 32 = 1 ∧ t.f F.FLT_SRC_STATUS_INSTANCE 32 = p ∧ ((s.haulPort p).rx = none → t.dram = s.dram) ∧
      (s.ringPort p = false → ∀ (y : Fld) (i : Nat), y.outside (lossFields ++ raiseFields) → t.f y i = s.f y i) := by
  have hshown := faultShown_off s p fault
  have hshownRegs : RegsOnly s (s.faultShown p fault) := faultShown_regsOnly s p fault
  have hremote := faultShown_remote s p fault hb
  have htaken := lossTaken_parts (s.faultShown p fault) p
  have hshownPort : (s.faultShown p fault).haulPort p = s.haulPort p := by rw [State.haulPort, State.haulPort, hshownRegs.haul]
  refine ⟨_, (exec_linkLoss hp fault s).trans (congrArg Host.Outcome.next (haulLoss_taken fault hl hb)), ?_⟩
  generalize (s.faultShown p fault).lossTaken p = u at htaken ⊢
  obtain ⟨hport, hdram, hactive, hinst⟩ := lossTold_parts u p
  have htold := lossTold_off u p
  have hvalue : ∀ x : Fld, x.outside (breakFields ++ enqueueFields ++ raiseFields) → ∀ v, (x, p, v) ∈ [(F.HAUL_STATUS_LINK, p, 0), (F.HAUL_STATUS_ALIGNED, p, 0), (F.HAUL_STATUS_AN_DONE, p, 0), (F.HAUL_EVENT_LINK_LOSS, p, 1)] → (u.lossTold p).f x p = v :=
    fun x hx v hm => (htold x p hx).trans (htaken.values _ hm)
  refine ⟨hvalue _ (by unfold Fld.outside; decide) _ (by simp), hvalue _ (by unfold Fld.outside; decide) _ (by simp), hvalue _ (by unfold Fld.outside; decide) _ (by simp), hvalue _ (by unfold Fld.outside; decide) _ (by simp),
    by rw [hport]; exact htaken.lost, by rw [hport]; exact htaken.rx, ?_, hactive, hinst.trans (Nat.mod_eq_of_lt (by omega)), fun hx => ?_, fun hring => ?_⟩
  · exact (htold.at_ _ _ rfl).trans ((htaken.off.at_ _ _ rfl).trans hremote)
  · exact hdram.trans ((htaken.dram (by rw [hshownPort]; exact hx)).trans hshownRegs.dram)
  · have hboth : Off lossFields s u := (hshown.mono rfl).trans (htaken.off.mono rfl)
    have hportU : u.ringPort p = false := (ringPort_congr hboth rfl p).trans hring
    have hraise : Off (lossFields ++ raiseFields) u (u.lossTold p) := by
      rw [State.lossTold, portBreak_elsewhere hportU]
      exact (Off.refl _ u).raise _ _ _ rfl
    exact (hboth.mono rfl).trans hraise

/-- A ring port that is lost makes the first break of its direction (R254). -/
theorem haulLoss_onRing {s : State} {p : Nat} {ccw : Bool} (fault : Bool) (hp : p < 6) (hl : s.f F.HAUL_STATUS_LINK p = 1) (hb : s.portBlind fnHaul p = false) (hon : s.ringOn = true)
    (hport : (ccw = false ∧ p = s.cwPort) ∨ (ccw = true ∧ p = s.ccwPort ∧ p ≠ s.cwPort)) (hv : s.f (cutValid ccw) 0 ≠ 1) :
    ∃ t, exec (.haulLinkLoss p fault) s = .next t ∧ t.f (cutValid ccw) 0 = 1 ∧ t.f (cutAt ccw) 0 = s.ringNext ccw % 256 ∧ t.f F.CLS_EVENT_BREAK 0 = 1 ∧ t.haul.own ccw = true := by
  have htaken := lossTaken_parts (s.faultShown p fault) p
  have hboth : Off lossFields s ((s.faultShown p fault).lossTaken p) := ((faultShown_off s p fault).mono rfl).trans (htaken.off.mono rfl)
  refine ⟨_, (exec_linkLoss hp fault s).trans (congrArg Host.Outcome.next (haulLoss_taken fault hl hb)), ?_⟩
  generalize (s.faultShown p fault).lossTaken p = u at hboth ⊢
  obtain ⟨hsize, hpos, hcw, hccw, hringOn⟩ := ring_congr hboth rfl
  have hvu : u.f (cutValid ccw) 0 ≠ 1 := by
    have : u.f (cutValid ccw) 0 = s.f (cutValid ccw) 0 := hboth _ 0 (by cases ccw <;> (unfold Fld.outside; decide))
    rwa [this]
  have hnext : u.ringNext ccw = s.ringNext ccw := by rw [State.ringNext, State.ringNext, hsize, hpos]
  obtain ⟨hvalid, hat, hevent, hown⟩ := portBreak_first (hringOn.trans hon) (by rw [hcw, hccw]; exact hport) hvu
  have hraise : ∀ x : Fld, x.outside raiseFields → (u.lossTold p).f x 0 = (u.portBreak p).f x 0 := fun x hx => State.raiseFault_f _ _ _ _ _ _ hx
  refine ⟨(hraise _ ?_).trans hvalid, (hraise _ ?_).trans (hat.trans (by rw [hnext])), (hraise _ ?_).trans hevent, ?_⟩
  · cases ccw <;> (unfold Fld.outside; decide)
  · cases ccw <;> (unfold Fld.outside; decide)
  · unfold Fld.outside; decide
  · rw [State.lossTold, haul_raiseFault]
    exact hown

end Sys2Proof.Machine

/-! Settles RingAndLinks (R227, R230, R249, R250, R254 to R257). -/

namespace Sys2Proof.Machine

-- ## HAUL_LINK_UP

theorem exec_linkUp {p : Nat} (hp : p < 6) (fault : Bool) (s : State) : exec (.haulLinkUp p fault) s = .next (s.haulUp p fault) := onInstance_of (decide_eq_true hp) _

/-- What a link that comes up asks for (R230). -/
def State.mayRise (s : State) (p : Nat) : Bool := !(!s.fb F.HAUL_CTRL_EN p || s.fb F.HAUL_STATUS_LINK p || !s.haulLanesOk p || !s.lanesSynced fnHaul p || s.portBlind fnHaul p)

theorem haulUp_stays {s : State} {p : Nat} (fault : Bool) (h : s.f F.HAUL_CTRL_EN p ≠ 1 ∨ s.f F.HAUL_STATUS_LINK p = 1 ∨ s.haulLanesOk p = false ∨ s.lanesSynced fnHaul p = false ∨ s.portBlind fnHaul p = true) :
    s.haulUp p fault = s := by
  refine if_pos ?_
  rcases h with h | h | h | h | h <;> simp [State.fb, h]

theorem mayRise_of {s : State} {p : Nat} (hen : s.f F.HAUL_CTRL_EN p = 1) (hl : s.f F.HAUL_STATUS_LINK p ≠ 1) (hok : s.haulLanesOk p = true) (hsync : s.lanesSynced fnHaul p = true) (hb : s.portBlind fnHaul p = false) :
    s.mayRise p = true := by
  simp [State.mayRise, State.fb, hen, hl, hok, hsync, hb]

theorem haulUp_eq {s : State} {p : Nat} (fault : Bool) (h : s.mayRise p = true) : s.haulUp p fault =
    if s.faultSeen p fault then s.setF F.HAUL_STATUS_REMOTE_FAULT p 1
    else
      let t := (((s.setF F.HAUL_STATUS_REMOTE_FAULT p 0).setF F.HAUL_STATUS_LINK p 1).setF F.HAUL_STATUS_ALIGNED p 1).setF F.HAUL_STATUS_AN_DONE p (if s.f F.HAUL_CTRL_MODE p = 2 then 1 else 0)
      (t.setHaulPort p { t.haulPort p with lost := false }).setF F.HAUL_EVENT_LINK_UP p 1 := by
  refine (if_neg (by rwa [State.mayRise, Bool.not_eq_true', ← Bool.not_eq_true] at h)).trans ?_
  rfl

theorem sets_haulUp {s : State} {p : Nat} {fault : Bool} (h : s.mayRise p = true) (hf : fault = false ∨ s.f F.HAUL_CTRL_MODE p ≠ 1) :
    Sets (s.setHaulPort p { s.haulPort p with lost := false }) [(F.HAUL_STATUS_REMOTE_FAULT, p, 0), (F.HAUL_STATUS_LINK, p, 1), (F.HAUL_STATUS_ALIGNED, p, 1), (F.HAUL_STATUS_AN_DONE, p, if s.f F.HAUL_CTRL_MODE p = 2 then 1 else 0), (F.HAUL_EVENT_LINK_UP, p, 1)]
      (s.haulUp p fault) := by
  have hseen : s.faultSeen p fault = false := by rcases hf with h | h <;> simp [State.faultSeen, h]
  rw [haulUp_eq fault h, hseen, if_neg Bool.false_ne_true]
  refine (((((Sets.refl s).putNew F.HAUL_STATUS_REMOTE_FAULT p 0 rfl (by decide)).putNew F.HAUL_STATUS_LINK p 1 rfl (by decide)).putNew F.HAUL_STATUS_ALIGNED p 1 rfl (by decide)).putNew F.HAUL_STATUS_AN_DONE p _ rfl ?_).through
    (g := fun u => u.setHaulPort p { u.haulPort p with lost := false }) (by intro _ _; rfl) (by intro _; rfl) |>.putNew F.HAUL_EVENT_LINK_UP p 1 rfl (by decide)
  split <;> decide

theorem sets_haulUp_fault {s : State} {p : Nat} (h : s.mayRise p = true) (hm : s.f F.HAUL_CTRL_MODE p = 1) : Sets s [(F.HAUL_STATUS_REMOTE_FAULT, p, 1)] (s.haulUp p true) := by
  have hseen : s.faultSeen p true = true := by simp [State.faultSeen, hm]
  rw [haulUp_eq true h, hseen, if_pos rfl]
  exact (Sets.refl s).putNew F.HAUL_STATUS_REMOTE_FAULT p 1 rfl (by decide)

-- ## RING_NOTICE_RESEND and FRAGMENT_AGE_OUT

theorem exec_resend {p : Nat} (hp : p < 6) (s : State) : exec (.ringNoticeResend p) s = .next (if (s.haulPort p).lost && s.ringPort p then s.ownNotice 1 (decide (p ≠ s.cwPort)) else s) :=
  onInstance_of (decide_eq_true hp) _

theorem frag?_setFrag (s : State) (k : Nat) (x : Option Frag) : (s.setFrag k x).frag? k = x := Tab.get_set_same _ _ _ _

/-- CLS_FRAG.USED follows the table (R249). -/
theorem used_setFrag (s : State) (k : Nat) (x : Option Frag) : (s.setFrag k x).f F.CLS_FRAG_USED 0 = (s.setFrag k x).haul.frags.length % 512 := State.f_setF_same _ _ _ _

theorem setFrag_off (s : State) (k : Nat) (x : Option Frag) : Off [F.CLS_FRAG_USED] s (s.setFrag k x) := ((Off.refl _ s).withHaul _).setF _ _ _ rfl

/-- An entry without a packet of a context delivers nothing. -/
theorem fragDeliver_idle {s : State} {k : Nat} {x : Frag} (arrival : Nat) (whole : Bool) (h : s.frag? k = some x) (hx : x.ended = true ∨ x.ctx = none) :
    s.fragDeliver k arrival whole = s ∨ s.fragDeliver k arrival whole = s.setFrag k (some { x with ended := true }) := by
  unfold State.fragDeliver
  rw [h]
  dsimp only
  rcases hx with hx | hx
  · exact .inl (if_pos hx)
  · rw [hx]
    split
    · exact .inl rfl
    · exact .inr rfl

theorem exec_ageOut {k : Nat} (hk : k < 256) (s : State) : exec (.fragmentAgeOut k) s = .next (s.fragAge k) := onInstance_of (decide_eq_true hk) _

theorem fragAge_entry {s : State} {k : Nat} {x : Frag} (h : s.frag? k = some x) :
    (s.fragAge k).frag? k = none ∧ (s.fragAge k).f F.CLS_FRAG_USED 0 = (s.fragAge k).haul.frags.length % 512 ∧
      (x.ended = true ∨ x.ctx = none → (s.fragAge k).q = s.q ∧ (s.fragAge k).codec = s.codec ∧ ∀ (y : Fld) (i : Nat), y.outside [F.CLS_FRAG_USED] → (s.fragAge k).f y i = s.f y i) := by
  have hage : s.fragAge k = (s.fragDeliver k s.tick4 false).setFrag k none := if_pos (by rw [h]; rfl)
  rw [hage]
  refine ⟨frag?_setFrag _ _ _, used_setFrag _ _ _, fun hx => ?_⟩
  rcases fragDeliver_idle s.tick4 false h hx with hd | hd <;> rw [hd]
  · exact ⟨rfl, rfl, setFrag_off s k none⟩
  · exact ⟨rfl, rfl, (setFrag_off s k _).trans (setFrag_off _ k none)⟩

-- ## CLEAR_CW and CLEAR_CCW alone (R257)

theorem sets_clearBreak_any (s : State) (ccw : Bool) : Sets s (if s.f (cutValid ccw) 0 = 1 then [(cutValid ccw, 0, 0), (cutAt ccw, 0, 0), (F.CLS_EVENT_BREAK, 0, 1)] else []) (s.clearBreak ccw) := by
  by_cases h : s.f (cutValid ccw) 0 = 1
  · rw [if_pos h]
    exact sets_clearBreak (decide_eq_true h)
  · have hv : ¬ s.fb (cutValid ccw) 0 = true := fun hv => h (of_decide_eq_true hv)
    rw [if_neg h, clearBreak_eq, if_neg hv]
    exact Sets.refl s

theorem ringBits {w k : Nat} (h : w % 8 = k) : w.testBit 0 = k.testBit 0 ∧ w.testBit 1 = k.testBit 1 ∧ w.testBit 2 = k.testBit 2 := by
  subst h
  refine ⟨?_, ?_, ?_⟩ <;> exact (Nat.testBit_mod_two_pow w 3 _ |>.trans (by simp)).symm

theorem ringWrite_eq (s : State) (w : Nat) : s.ringWrite w = if w.testBit 1 then (if w.testBit 0 then (if w.testBit 2 then s.sendRestore else s).clearOwn false else if w.testBit 2 then s.sendRestore else s).clearOwn true
    else if w.testBit 0 then (if w.testBit 2 then s.sendRestore else s).clearOwn false else if w.testBit 2 then s.sendRestore else s := rfl

theorem ringWrite_restore (s : State) {w : Nat} (h : w % 8 = 4) : s.ringWrite w = s.sendRestore := by
  obtain ⟨h0, h1, h2⟩ := ringBits h
  rw [ringWrite_eq, h0, h1, h2]
  rfl

theorem ringWrite_clear (s : State) (ccw : Bool) {w : Nat} (h : w % 8 = if ccw then 2 else 1) : s.ringWrite w = s.clearOwn ccw := by
  obtain ⟨h0, h1, h2⟩ := ringBits h
  rw [ringWrite_eq, h0, h1, h2]
  cases ccw <;> rfl

theorem sets_clearOwn (s : State) (ccw : Bool) : Sets (s.withHaul fun w => if ccw then { w with ownCcw := false } else { w with ownCw := false })
    (if s.f (cutValid ccw) 0 = 1 then [(cutValid ccw, 0, 0), (cutAt ccw, 0, 0), (F.CLS_EVENT_BREAK, 0, 1)] else []) (s.clearOwn ccw) := (sets_clearBreak_any s ccw).withHaul _

theorem sendRestore_none {s : State} (hcw : s.haul.ownCw = false) (hccw : s.haul.ownCcw = false) : s.sendRestore = s := by
  rw [sendRestore_eq, hcw, if_neg Bool.false_ne_true, hccw, if_neg Bool.false_ne_true]

/-- The part's own breaks after any write of CLS_RING_CMD. -/
theorem ringWrite_own (s : State) (w : Nat) : (s.ringWrite w).haul.ownCw = (s.haul.ownCw && !w.testBit 0 && !w.testBit 2) ∧ (s.ringWrite w).haul.ownCcw = (s.haul.ownCcw && !w.testBit 1 && !w.testBit 2) ∧
    (w.testBit 0 = true ∨ (w.testBit 2 = true ∧ s.haul.ownCw = true) → (s.ringWrite w).f F.CLS_RING_CUT_CW_VALID 0 ≠ 1) ∧
    (w.testBit 1 = true ∨ (w.testBit 2 = true ∧ s.haul.ownCcw = true) → (s.ringWrite w).f F.CLS_RING_CUT_CCW_VALID 0 ≠ 1) := by
  have h := ringWrite_cleared s w
  have hvalidCw := h.validCw
  have hvalidCcw := h.validCcw
  refine ⟨h.ownCw.trans ?_, h.ownCcw.trans ?_, fun hc => ?_, fun hc => ?_⟩
  · cases s.haul.ownCw <;> cases w.testBit 0 <;> cases w.testBit 2 <;> rfl
  · cases s.haul.ownCcw <;> cases w.testBit 1 <;> cases w.testBit 2 <;> rfl
  · rwa [if_pos (by rcases hc with hc | ⟨hc, ho⟩ <;> simp [*])] at hvalidCw
  · rwa [if_pos (by rcases hc with hc | ⟨hc, ho⟩ <;> simp [*])] at hvalidCcw

/-- The loss of a link that none declares (R227, R328). -/
theorem linkLoss_none {s : State} {p : Nat} (fault : Bool) (hp : p < 6) (h : s.portBlind fnHaul p = true ∨ (s.f F.HAUL_STATUS_LINK p ≠ 1 ∧ (fault = false ∨ s.f F.HAUL_CTRL_MODE p ≠ 1))) : exec (.haulLinkLoss p fault) s = .next s := by
  have hshown : s.faultShown p fault = s := by
    refine if_neg ?_
    rcases h with h | ⟨-, h | h⟩ <;> simp [State.faultSeen, h]
  refine (exec_linkLoss hp fault s).trans (congrArg Host.Outcome.next ?_)
  rw [haulLoss_unheard fault (by rw [hshown]; exact h.elim .inr fun h => .inl (decide_eq_false h.1)), hshown]

/-- A fault sequence at a port that is down (R227). -/
theorem linkLoss_fault {s : State} {p : Nat} (hp : p < 6) (hb : s.portBlind fnHaul p = false) (hl : s.f F.HAUL_STATUS_LINK p ≠ 1) (hm : s.f F.HAUL_CTRL_MODE p = 1) :
    ∃ t, exec (.haulLinkLoss p true) s = .next t ∧ Sets s [(F.HAUL_STATUS_REMOTE_FAULT, p, 1)] t := by
  have hsets := sets_faultShown s p true hb
  rw [if_pos ⟨rfl, hm⟩] at hsets
  have hlink : (s.faultShown p true).fb F.HAUL_STATUS_LINK p = false := decide_eq_false fun h => hl ((hsets.2.2 _ _ (by simp [F.HAUL_STATUS_LINK, F.HAUL_STATUS_REMOTE_FAULT])).symm.trans h)
  exact ⟨_, (exec_linkLoss hp true s).trans (congrArg Host.Outcome.next (haulLoss_unheard true (.inl hlink))), hsets⟩

/-- A loss that lasts is told again (R254). -/
theorem resend_told {s : State} {p : Nat} (hp : p < 6) (hlost : (s.haulPort p).lost = true) (hring : s.ringPort p = true) :
    ∃ t, exec (.ringNoticeResend p) s = .next t ∧ Tab.get 0 t.haul.seqs 0xFFFF = (Tab.get 0 s.haul.seqs 0xFFFF + 1) % 2 ^ 32 ∧ t.free = s.free + 1 ∧ t.dram = s.dram ∧ Off enqueueFields s t := by
  have hnotice := sendNotice_notice s [s.cwPort, s.ccwPort] 1 (s.ringNext (decide (p ≠ s.cwPort))) (decide (p ≠ s.cwPort)) s.ringN 0 s.device
  refine ⟨_, (exec_resend hp s).trans (congrArg Host.Outcome.next (if_pos (by rw [hlost, hring]; rfl))), ?_, hnotice.free, hnotice.dram, hnotice.off⟩
  exact (congrArg (fun w : HaulState => Tab.get 0 w.seqs 0xFFFF) hnotice.haul).trans (Tab.get_set_same _ _ _ _)

/-- SEND_RESTORE alone (R257). -/
theorem restoreWrite {s : State} {o : Origin} {w : Word} (hw : s.writeOk o .CLS_RING_CMD 0 = true) (h : w.toNat % 8 = 4) :
    ∃ t, exec (.sendRestore o w) s = .next t ∧ t.haul.ownCw = false ∧ t.haul.ownCcw = false ∧ (s.haul.ownCw = true → t.f F.CLS_RING_CUT_CW_VALID 0 ≠ 1) ∧ (s.haul.ownCcw = true → t.f F.CLS_RING_CUT_CCW_VALID 0 ≠ 1) ∧ t.dram = s.dram ∧
      Off (breakFields ++ enqueueFields) s t := by
  have hcleared := sendRestore_cleared s
  have hvalidCw := hcleared.validCw
  have hvalidCcw := hcleared.validCcw
  refine ⟨_, (exec_ringCmd hw _ (by simp)).trans (congrArg Host.Outcome.next (ringWrite_restore s h)), hcleared.ownCw.trans (by simp), hcleared.ownCcw.trans (by simp), fun ho => ?_, fun ho => ?_, hcleared.dram, hcleared.off⟩
  · rwa [if_pos ho] at hvalidCw
  · rwa [if_pos ho] at hvalidCcw

/-- Settles O56: the clauses in their order, each by what the operation writes and leaves. -/
theorem ringAndLinks : Obligations.RingAndLinks := by
  unfold Obligations.RingAndLinks
  refine ⟨fun s p fault hp h => linkLoss_none fault hp h, fun s p hp hb hl hm => linkLoss_fault hp hb hl hm, fun s p fault hp hl hb => haulLoss_declared fault hp hl hb, fun s p ccw fault hp hl hb hon hport hv => ?_,
    fun s p fault hp h => (exec_linkUp hp fault s).trans (congrArg Host.Outcome.next (haulUp_stays fault h)),
    fun s p fault hp hen hl hok hsync hb hf => ⟨_, exec_linkUp hp fault s, sets_haulUp (mayRise_of hen hl hok hsync hb) hf⟩,
    fun s p hp hen hl hok hsync hb hm => ⟨_, exec_linkUp hp true s, sets_haulUp_fault (mayRise_of hen hl hok hsync hb) hm⟩,
    fun s p x n hop ccw hp h => ⟨_, exec_noticeReceive hp h x ccw n hop, noticeReceive_valid s p x ccw n hop⟩,
    fun s p x n hop ccw hp h => ⟨_, exec_restoreReceive hp h x ccw n hop, restoreReceive_valid s p x ccw n hop⟩,
    fun s p x n hop ccw hp h => exec_noticeElsewhere hp h x ccw n hop, fun s p x n hop ccw hp h hgo hv => ⟨_, exec_noticeReceive hp h x ccw n hop, ?_⟩,
    fun s p x n hop a b hp h hgo hv ha hb => ⟨_, exec_noticeReceive hp h x false n hop, ?_⟩, fun s p x n hop a b hp h hgo hv ha hb => ⟨_, exec_noticeReceive hp h x true n hop, ?_⟩,
    fun s p x n hop q ccw hp h hgo hq hen hroom hfree => ⟨_, exec_noticeReceive hp h x ccw n hop, passNotice_copies 1 (applyBreak_writes s ccw x) hgo hq hen hroom hfree, noticeReceive_valid s p x ccw n hop⟩,
    fun s p x n hop q ccw hp h hgo hq hen hroom hfree => ⟨_, exec_restoreReceive hp h x ccw n hop, passNotice_copies 2 (restoreTaken_writes s ccw x) hgo hq hen hroom hfree⟩,
    fun s p x n hop ccw hp h hgo => ⟨_, exec_restoreReceive hp h x ccw n hop, ?_⟩, fun s p hp h => (exec_resend hp s).trans (congrArg Host.Outcome.next (if_neg ?_)),
    fun s p hp hlost hring => resend_told hp hlost hring, fun s o w hw c hc => ⟨_, exec_ringCmd hw c hc, ringWrite_own s w.toNat⟩,
    fun s o w hw h hcw hccw => (exec_ringCmd hw _ (by simp)).trans (congrArg Host.Outcome.next ((ringWrite_restore s h).trans (sendRestore_none hcw hccw))),
    fun s o w hw h => restoreWrite hw h, fun s o w hw h => ⟨_, (exec_ringCmd hw _ (by simp)).trans (congrArg Host.Outcome.next (ringWrite_clear s false h)), sets_clearOwn s false⟩,
    fun s o w hw h => ⟨_, (exec_ringCmd hw _ (by simp)).trans (congrArg Host.Outcome.next (ringWrite_clear s true h)), sets_clearOwn s true⟩,
    fun s k hk h => (exec_ageOut hk s).trans (congrArg Host.Outcome.next (if_neg (by simp [h]))), fun s k x hk h => ⟨_, exec_ageOut hk s, fragAge_entry h⟩⟩
  · obtain ⟨t, ht, hvalid, hat, hevent, hown⟩ := haulLoss_onRing fault hp hl hb hon hport hv
    exact ⟨t, ht, hvalid, hat, hevent, hown⟩
  · rw [passNotice_stays ((noticeGoesOn_congr (applyBreak_writes s ccw x).off rfl p x ccw n hop).1.trans hgo)]
    exact sets_applyBreak fun hset => absurd (of_decide_eq_true hset) hv
  · rw [passNotice_stays ((noticeGoesOn_congr (applyBreak_writes s false x).off rfl p x false n hop).1.trans hgo)]
    exact sets_applyBreak_again (ccw := false) hv ha hb
  · rw [passNotice_stays ((noticeGoesOn_congr (applyBreak_writes s true x).off rfl p x true n hop).1.trans hgo)]
    exact sets_applyBreak_again (ccw := true) hv ha hb
  · rw [passNotice_stays ((noticeGoesOn_congr (restoreTaken_writes s ccw x).off rfl p x ccw n hop).1.trans hgo)]
    exact sets_restoreTaken s ccw x
  · rcases h with h | h <;> simp [h]

end Sys2Proof.Machine

/-! Spill queues and the buffer pool: what their operations leave alone (R263 to R281). -/

namespace Sys2Proof.Machine

-- ## Counting

/-- One event is counted on a state whose counter and SAT bit are as in `s`. -/
theorem sets_count (s : State) {x : Fld} (i : Nat) {y : Fld} (j k : Nat) (hxy : (x.code != y.code) = true) : Sets s (s.counted x i y j k) (s.count x i y j k) := by
  have hfull : 2 ^ x.len - 1 < 2 ^ x.len := Nat.sub_lt (Nat.two_pow_pos _) (by decide)
  have hne : y.code ≠ x.code := fun h => by simp [h] at hxy
  unfold State.counted State.count
  dsimp only
  by_cases h : 2 ^ x.len - 1 ≤ s.f x i + 1
  · have hcount := (Sets.refl s).put x i (2 ^ x.len - 1) (by simp) hfull
    rw [if_pos h, Nat.min_eq_right h, if_pos rfl, State.orF, State.f_setF_code _ _ _ _ _ _ hne]
    refine hcount.snoc y j _ fun e he hc => ?_
    obtain rfl := List.mem_singleton.mp he
    exact hne hc.1.symm
  · have hless : s.f x i + 1 < 2 ^ x.len - 1 := Nat.not_le.mp h
    rw [if_neg h, Nat.min_eq_left (Nat.le_of_lt hless), if_neg (Nat.ne_of_lt hless)]
    exact (Sets.refl s).put x i _ (by simp) (Nat.lt_trans hless hfull)

-- ## Spill queues

@[simp] theorem queue_setQueue (s : State) (q : Nat) (k : Queue) : (s.setQueue q k).queue q = k := Tab.get_set_same _ _ _ _

/-- A queue without the places of its bytes. -/
def Queue.content (k : Queue) : Queue := { k with head := 0, spoil := 0, wr := 0 }

/-- `t` differs from `s` in queues and in memory's data and requests alone. -/
structure QueueOp (s t : State) : Prop where
  rest : t.sansPool = s.sansPool
  regs : t.regs = s.regs
  pool : t.pool = s.pool

namespace QueueOp

theorem refl (s : State) : QueueOp s s := ⟨rfl, rfl, rfl⟩

theorem trans {s t u : State} (h : QueueOp s t) (g : QueueOp t u) : QueueOp s u := ⟨g.rest.trans h.rest, g.regs.trans h.regs, g.pool.trans h.pool⟩

theorem setQueue (s : State) (q : Nat) (k : Queue) : QueueOp s (s.setQueue q k) := ⟨rfl, rfl, rfl⟩

theorem putFor (s : State) (r a : Nat) (bs : List Byte) (secure : Bool) : QueueOp s (s.putFor r a bs secure) := by
  obtain ⟨hdata, hregs⟩ := putFor_frame s r a bs secure
  exact ⟨sansPool_of_sansData hdata, hregs, (congrArg (fun u : State => u.pool) hdata :)⟩

theorem presentLines (s : State) (r a n : Nat) (write secure : Bool) : QueueOp s (s.presentLines r a n write secure) := by
  have hdata : (s.presentLines r a n write secure).sansData = s.sansData := chainAll_keep State.sansData _ _ (fun l t => (present_frame t r (64 * l) write secure).1) _
  exact ⟨sansPool_of_sansData hdata, chainAll_keep State.regs _ _ (fun l t => (present_frame t r (64 * l) write secure).2) _, (congrArg (fun u : State => u.pool) hdata :)⟩

theorem f {s t : State} (h : QueueOp s t) (x : Fld) (i : Nat) : t.f x i = s.f x i := by rw [State.f, State.f, h.regs]

theorem off {s t : State} (h : QueueOp s t) (fs : List Fld) : Off fs s t := Off.same h.regs

theorem codec {s t : State} (h : QueueOp s t) : t.codec = s.codec := codec_of_sansPool h.rest

end QueueOp

theorem sansData_queues {s t : State} (h : t.sansData = s.sansData) (q : Nat) : t.queue q = s.queue q := (congrArg (fun u : State => u.queue q) h :)

theorem putRing_op (s : State) (r base n o : Nat) (bs : List Byte) : QueueOp s (s.putRing r base n o bs) := (QueueOp.putFor _ _ _ _ _).trans (QueueOp.putFor _ _ _ _ _)

/-- Bytes move between the places of a queue; what it holds stays (R273). -/
theorem settle_op (s : State) (q : Nat) : QueueOp s (s.settle q) ∧ ((s.settle q).queue q).content = (s.queue q).content ∧ (0 < (s.queue q).spoil → ((s.settle q).queue q).head = (s.queue q).head) := by
  have hhead : 0 < (s.queue q).spoil → (if (s.queue q).spoil = 0 then min 256 (s.queue q).used else (s.queue q).head) = (s.queue q).head := fun h => if_neg (Nat.pos_iff_ne_zero.mp h)
  unfold State.settle
  dsimp only
  generalize (if (s.queue q).spoil = 0 then min 256 (s.queue q).used else (s.queue q).head) = head at hhead ⊢
  split
  · rw [queue_setQueue]
    exact ⟨(putRing_op s _ _ _ _ _).trans (QueueOp.setQueue _ _ _), rfl, hhead⟩
  · rw [queue_setQueue]
    exact ⟨QueueOp.setQueue _ _ _, rfl, hhead⟩

/-- What a queue holds, part by part, from its content. -/
theorem of_content {k l : Queue} (h : k.content = l.content) : k.items = l.items ∧ k.inRead = l.inRead ∧ k.sent = l.sent ∧ k.pendingCleft = l.pendingCleft ∧ k.rd = l.rd :=
  ⟨(congrArg Queue.items h :), (congrArg Queue.inRead h :), (congrArg Queue.sent h :), (congrArg Queue.pendingCleft h :), (congrArg Queue.rd h :)⟩

/-- A queue that is written and settles. -/
theorem settled_op (s : State) (q : Nat) (k : Queue) : QueueOp s ((s.setQueue q k).settle q) ∧ (((s.setQueue q k).settle q).queue q).content = k.content := by
  obtain ⟨hop, hcontent, -⟩ := settle_op (s.setQueue q k) q
  rw [queue_setQueue] at hcontent
  exact ⟨(QueueOp.setQueue s q k).trans hop, hcontent⟩

-- ## Reading (R278, R280)

/-- The end of a read: the first item, where it was in read, is gone. -/
theorem endRead_op (s : State) (q : Nat) : QueueOp s (s.endRead q) ∧ ((s.endRead q).queue q).inRead = false ∧ ((s.endRead q).queue q).pendingCleft = (s.queue q).pendingCleft ∧
    ((s.endRead q).queue q).items = if (s.queue q).inRead then (s.queue q).items.drop 1 else (s.queue q).items := by
  have hpop : (s.queue q).pop.inRead = false ∧ (s.queue q).pop.pendingCleft = (s.queue q).pendingCleft ∧ (s.queue q).pop.items = (s.queue q).items.drop 1 := by
    unfold Queue.pop
    split
    · next h => exact ⟨rfl, rfl, h.trans (by rw [h]; rfl)⟩
    · next h => exact ⟨rfl, rfl, by rw [h]; rfl⟩
  unfold State.endRead
  dsimp only
  cases h : (s.queue q).inRead with
  | false => exact ⟨QueueOp.refl s, h, rfl, rfl⟩
  | true =>
    obtain ⟨hop, hcontent⟩ := settled_op s q (s.queue q).pop
    obtain ⟨hitems, hread, -, hcleft, -⟩ := of_content hcontent
    exact ⟨hop, hread.trans hpop.1, hcleft.trans hpop.2.1, hitems.trans hpop.2.2⟩

theorem endRead_ended {s : State} {q : Nat} (h : (s.queue q).inRead = false) : s.endRead q = s := by
  unfold State.endRead
  dsimp only
  rw [h]
  exact if_neg Bool.false_ne_true

theorem beginRead_idle {s : State} {q : Nat} (h : (s.queue q).inRead = false) : s.beginRead q = if (s.queue q).items = [] then s else s.setQueue q { s.queue q with inRead := true } := by
  rw [State.beginRead, endRead_ended h]

theorem beginRead_op {s : State} {q : Nat} (h : (s.queue q).inRead = false) : QueueOp s (s.beginRead q) ∧ ((s.beginRead q).queue q).items = (s.queue q).items ∧ ((s.beginRead q).queue q).pendingCleft = (s.queue q).pendingCleft ∧
    ((s.beginRead q).queue q).inRead = !(s.queue q).items.isEmpty := by
  rw [beginRead_idle h]
  by_cases hi : (s.queue q).items = []
  · rw [if_pos hi, h, hi]
    exact ⟨QueueOp.refl s, rfl, rfl, rfl⟩
  · rw [if_neg hi, queue_setQueue]
    refine ⟨QueueOp.setQueue _ _ _, rfl, rfl, ?_⟩
    rw [List.isEmpty_eq_false_iff.mpr hi]
    rfl

/-- The registers of a poisoned unit. -/
def poisonFields : List Fld := [F.SPQ_POISON_COUNT, F.SPQ_CNT_SAT_POISON_SAT, F.SPQ_EVENT_POISON]

/-- The poisoned unit is counted and shown. -/
def State.poisonCounted (s : State) : State := (s.count F.SPQ_POISON_COUNT 0 F.SPQ_CNT_SAT_POISON_SAT 0 0).setF F.SPQ_EVENT_POISON 0 1

theorem sets_poisonCounted (s : State) : Sets s (s.counted F.SPQ_POISON_COUNT 0 F.SPQ_CNT_SAT_POISON_SAT 0 0 ++ [(F.SPQ_EVENT_POISON, 0, 1)]) s.poisonCounted := by
  refine (sets_count s 0 0 0 rfl).putNew F.SPQ_EVENT_POISON 0 1 ?_ (by decide)
  unfold State.counted
  split <;> rfl

theorem poisonCounted_count (s : State) : s.poisonCounted.f F.SPQ_POISON_COUNT 0 = min (s.f F.SPQ_POISON_COUNT 0 + 1) (2 ^ F.SPQ_POISON_COUNT.len - 1) := by
  have hlist : ∀ l : List (Fld × Nat × Nat), l = s.counted F.SPQ_POISON_COUNT 0 F.SPQ_CNT_SAT_POISON_SAT 0 0 → (F.SPQ_POISON_COUNT, 0, min (s.f F.SPQ_POISON_COUNT 0 + 1) (2 ^ F.SPQ_POISON_COUNT.len - 1)) ∈ l := by
    rintro l rfl
    unfold State.counted
    split
    · next h => rw [Nat.min_eq_right h]; exact List.mem_cons_self ..
    · next h => rw [Nat.min_eq_left (Nat.le_of_lt (Nat.not_le.mp h))]; exact List.mem_cons_self ..
  exact (sets_poisonCounted s).2.1 _ (List.mem_append_left _ (hlist _ rfl))

theorem poisonCounted_queue (s : State) (q : Nat) : s.poisonCounted.queue q = s.queue q := by
  have hregs : RegsOnly s s.poisonCounted := (sets_poisonCounted s).regsOnly
  rw [State.queue, State.queue, hregs.q]

/-- A queue as an uncorrectable unit at stream offset `o` leaves it. -/
def Queue.poisoned (k : Queue) (o : Nat) : Queue :=
  let spoil := (k.spoil - (k.used - itemsSize (poisonItems k.items o))) / 64 * 64
  { k with items := poisonItems k.items o, spoil := spoil, rd := k.rd + (k.spoil - spoil) }

theorem poisonAt_eq (s : State) (q o : Nat) : s.poisonAt q o = ((s.setQueue q ((s.queue q).poisoned o)).settle q).poisonCounted := rfl

/-- An uncorrectable unit cuts its item, and is counted. -/
theorem poisonAt_parts (s : State) (q o : Nat) : ((s.poisonAt q o).queue q).items = poisonItems (s.queue q).items o ∧ ((s.poisonAt q o).queue q).inRead = (s.queue q).inRead ∧ (s.poisonAt q o).codec = s.codec ∧
    (s.poisonAt q o).f F.SPQ_POISON_COUNT 0 = min (s.f F.SPQ_POISON_COUNT 0 + 1) (2 ^ F.SPQ_POISON_COUNT.len - 1) ∧
    Fields s (s.counted F.SPQ_POISON_COUNT 0 F.SPQ_CNT_SAT_POISON_SAT 0 0 ++ [(F.SPQ_EVENT_POISON, 0, 1)]) (s.poisonAt q o) := by
  obtain ⟨hop, hcontent⟩ := settled_op s q ((s.queue q).poisoned o)
  rw [poisonAt_eq]
  generalize (s.setQueue q ((s.queue q).poisoned o)).settle q = t at hop hcontent ⊢
  obtain ⟨hitems, hread, -⟩ := of_content hcontent
  have hcounted : t.counted F.SPQ_POISON_COUNT 0 F.SPQ_CNT_SAT_POISON_SAT 0 0 = s.counted F.SPQ_POISON_COUNT 0 F.SPQ_CNT_SAT_POISON_SAT 0 0 := by rw [State.counted, State.counted, hop.f, hop.f]
  have hsets := sets_poisonCounted t
  have hregs : RegsOnly t t.poisonCounted := hsets.regsOnly
  rw [poisonCounted_queue, poisonCounted_count, hop.f, ← hcounted]
  exact ⟨hitems, hread, hregs.codec.trans hop.codec, rfl, hsets.2.1, fun x i hx => (hsets.2.2 x i hx).trans (hop.f x i)⟩

theorem queue_raiseFault (s : State) (fsid inst : Nat) (d : List Byte) (q : Nat) : (s.raiseFault fsid inst d).queue q = s.queue q :=
  (congrArg (fun u : State => u.queue q) (besideRaise_raiseFault s fsid inst d) :)

-- ## Pending clefts and refills (R273, R277)

theorem enterCleft_none {s : State} {q : Nat} (h : (s.queue q).pendingCleft = none ∨ s.queueCapacity q < (s.queue q).used + 16) : s.enterCleft q = s := by
  unfold State.enterCleft
  dsimp only
  split
  · next c hc =>
    refine if_neg fun hroom => ?_
    rcases h with h | h
    · exact absurd (hc.symm.trans h) (by simp)
    · omega
  · rfl

theorem enterCleft_enters {s : State} {q : Nat} {i : Item} (h : (s.queue q).pendingCleft = some i) (hroom : (s.queue q).used + 16 ≤ s.queueCapacity q) :
    s.enterCleft q = (s.setQueue q { s.queue q with items := (s.queue q).items ++ [i], pendingCleft := none }).settle q := by
  unfold State.enterCleft
  dsimp only
  rw [h]
  exact if_pos hroom

theorem refill_none {s : State} {q : Nat} (bad : Bool) (h : (s.queue q).spoil < 64 ∨ 256 < (s.queue q).head + 64) : s.refill q bad = s := if_neg (by omega)

theorem refill_poisons {s : State} {q : Nat} (hs : 64 ≤ (s.queue q).spoil) (hh : (s.queue q).head + 64 ≤ 256) : s.refill q true = s.poisonAt q (s.queue q).head := (if_pos ⟨hs, hh⟩).trans (if_pos rfl)

/-- The queue after a good refill. -/
def State.refilled (s : State) (q : Nat) : State :=
  ((s.presentLines 6 (s.spoilBase q + (s.queue q).rd % 2 ^ s.spoilLog q) 64 false true).setQueue q { s.queue q with head := (s.queue q).head + 64, spoil := (s.queue q).spoil - 64, rd := (s.queue q).rd + 64 }).settle q

theorem refill_good {s : State} {q : Nat} (hs : 64 ≤ (s.queue q).spoil) (hh : (s.queue q).head + 64 ≤ 256) : s.refill q false = s.refilled q := (if_pos ⟨hs, hh⟩).trans (if_neg Bool.false_ne_true)

theorem refilled_op (s : State) (q : Nat) : QueueOp s (s.refilled q) ∧ ((s.refilled q).queue q).items = (s.queue q).items ∧ ((s.refilled q).queue q).rd = (s.queue q).rd + 64 ∧
    (128 ≤ (s.queue q).spoil → ((s.refilled q).queue q).head = (s.queue q).head + 64) := by
  have hpresent := QueueOp.presentLines s 6 (s.spoilBase q + (s.queue q).rd % 2 ^ s.spoilLog q) 64 false true
  unfold State.refilled
  generalize s.presentLines 6 (s.spoilBase q + (s.queue q).rd % 2 ^ s.spoilLog q) 64 false true = t at hpresent ⊢
  obtain ⟨hop, hcontent, hhead⟩ := settle_op (t.setQueue q { s.queue q with head := (s.queue q).head + 64, spoil := (s.queue q).spoil - 64, rd := (s.queue q).rd + 64 }) q
  rw [queue_setQueue] at hcontent hhead
  obtain ⟨hitems, -, -, -, hrd⟩ := of_content hcontent
  exact ⟨(hpresent.trans (QueueOp.setQueue _ _ _)).trans hop, hitems, hrd, fun h => hhead (by show 0 < (s.queue q).spoil - 64; omega)⟩

-- ## A decode queue is looked at (R279)

theorem notice_q (s : State) (c : Nat) : (s.notice c).q = s.q := by rw [(Looks.notice c s).rest]

theorem noticeQueue_frame (s : State) (q : Nat) : (s.noticeQueue q).q = s.q ∧ Off [F.SCH_CTX_LATE_LREM] s (s.noticeQueue q) := by
  unfold State.noticeQueue
  split
  · exact ⟨notice_q s q, (Looks.notice q s).off⟩
  · exact ⟨rfl, Off.refl _ s⟩

theorem noticeQueue_other {s : State} {q : Nat} (h : 4096 ≤ q ∨ (s.ctx q).enc = true) : s.noticeQueue q = s := by
  refine if_neg ?_
  rintro ⟨hq, henc⟩
  rcases h with h | h
  · omega
  · exact Bool.false_ne_true (henc.symm.trans h)

theorem queue_of_q {s t : State} (h : t.q = s.q) (q : Nat) : t.queue q = s.queue q := by rw [State.queue, State.queue, h]

theorem ctx_of_codec {s t : State} (h : t.codec = s.codec) (c : Nat) : t.ctx c = s.ctx c := by unfold State.ctx State.ctx?; rw [h]

end Sys2Proof.Machine

/-! SPILL_DEQUEUE: who reads a queue, and what its read leaves (R170, R235, R278 to R280). -/

namespace Sys2Proof.Machine

-- ## Delivery to a hewer, and discards (R170, R278)

theorem hewer_of_codec {s t : State} (h : t.codec = s.codec) (n : Nat) : t.hewer n = s.hewer n := by rw [State.hewer, State.hewer, h]

theorem hewer_setHewer (s : State) (n : Nat) (x : Hewer) : (s.setHewer n x).hewer n = x := Tab.get_set_same _ _ _ _

theorem hewer_notice (s : State) (c n : Nat) : (s.notice c).hewer n = s.hewer n := by rw [(Looks.notice c s).rest]; rfl

/-- What a reader's item makes of the part. -/
def State.delivered (s : State) (c h : Nat) (r : Run) (i : Item) : State :=
  if (r.take i).2 then (s.setHewer h { s.hewer h with run := some (r.take i).1 }).beginRead c else s.setHewer h { s.hewer h with run := some (r.take i).1 }

theorem deliver_eq {s : State} {c : Nat} (h : Nat) (hread : (s.queue c).inRead = false) : s.deliver c h = s ∨ ∃ r i, s.deliver c h = s.delivered c h r i := by
  unfold State.deliver
  dsimp only
  rw [endRead_ended hread]
  split
  · next i _ r _ _ => exact .inr ⟨r, i, rfl⟩
  · exact .inl rfl

theorem deliver_item {s : State} {c h : Nat} {r : Run} {i : Item} {l : List Item} (hread : (s.queue c).inRead = false) (hi : (s.queue c).items = i :: l) (hr : (s.hewer h).run = some r) : s.deliver c h = s.delivered c h r i := by
  unfold State.deliver
  dsimp only
  rw [endRead_ended hread, hi, hr]
  rfl

theorem deliver_empty {s : State} {c : Nat} (h : Nat) (hread : (s.queue c).inRead = false) (hi : (s.queue c).items = []) : s.deliver c h = s := by
  unfold State.deliver
  dsimp only
  rw [endRead_ended hread, hi]

theorem delivered_parts (s : State) (c h : Nat) (r : Run) (i : Item) (hread : (s.queue c).inRead = false) : (s.delivered c h r i).regs = s.regs ∧ ((s.delivered c h r i).queue c).items = (s.queue c).items ∧
    ((s.delivered c h r i).hewer h).run = some (r.take i).1 ∧ ((s.queue c).items ≠ [] → ((s.delivered c h r i).queue c).inRead = (r.take i).2) := by
  have hset : ((s.setHewer h { s.hewer h with run := some (r.take i).1 }).hewer h).run = some (r.take i).1 := congrArg Hewer.run (hewer_setHewer _ _ _)
  have hqueue : (s.setHewer h { s.hewer h with run := some (r.take i).1 }).queue c = s.queue c := rfl
  have hregs : (s.setHewer h { s.hewer h with run := some (r.take i).1 }).regs = s.regs := rfl
  unfold State.delivered
  generalize s.setHewer h { s.hewer h with run := some (r.take i).1 } = t at hset hqueue hregs ⊢
  cases (r.take i).2 with
  | false => exact ⟨hregs, congrArg Queue.items hqueue, hset, fun _ => (congrArg Queue.inRead hqueue).trans hread⟩
  | true =>
    obtain ⟨hop, hitems, -, hbegun⟩ := beginRead_op (s := t) (q := c) ((congrArg Queue.inRead hqueue).trans hread)
    refine ⟨hop.regs.trans hregs, hitems.trans (congrArg Queue.items hqueue), ?_, fun hne => hbegun.trans ?_⟩
    · show (((t.beginRead c).hewer h).run) = some (r.take i).1
      rw [hewer_of_codec hop.codec]
      exact hset
    · rw [hqueue, List.isEmpty_eq_false_iff.mpr hne]
      rfl

theorem modCtx_regs (s : State) (c : Nat) (g : Ctx → Ctx) : (s.modCtx c g).regs = s.regs ∧ (s.modCtx c g).q = s.q := by
  unfold State.modCtx
  split <;> exact ⟨rfl, rfl⟩

/-- A read that begins on a state that differs in contexts alone. -/
theorem beginRead_beside {s t : State} {c : Nat} (hregs : t.regs = s.regs) (hq : t.q = s.q) (hread : (s.queue c).inRead = false) : (t.beginRead c).regs = s.regs ∧ ((t.beginRead c).queue c).items = (s.queue c).items ∧
    ((t.beginRead c).queue c).inRead = !(s.queue c).items.isEmpty := by
  have hqueue := queue_of_q hq c
  obtain ⟨hop, hitems, -, hbegun⟩ := beginRead_op (s := t) (q := c) ((congrArg Queue.inRead hqueue).trans hread)
  exact ⟨hop.regs.trans hregs, hitems.trans (congrArg Queue.items hqueue), hbegun.trans (by rw [hqueue])⟩

theorem absorb_frame (s : State) (c : Nat) (b : Back) (hread : (s.queue c).inRead = false) : (s.absorb c b).regs = s.regs ∧ ((s.absorb c b).queue c).items = (s.queue c).items := by
  unfold State.absorb
  split
  · exact ⟨rfl, rfl⟩
  · next i l hi =>
    obtain ⟨hregs, hq⟩ := modCtx_regs s c fun x => { x with back := some { b with bytes := (({ taken := b.bytes } : Run).take i).1.taken, closed := (({ taken := b.bytes } : Run).take i).1.closed } }
    dsimp only
    split
    · obtain ⟨hr, hitems, -⟩ := beginRead_beside hregs hq hread
      exact ⟨hr, hitems⟩
    · exact ⟨hregs, congrArg Queue.items (queue_of_q hq c)⟩

theorem discardFront_frame (s : State) (c : Nat) (hread : (s.queue c).inRead = false) : (s.discardFront c).regs = s.regs ∧ ((s.discardFront c).queue c).items = (s.queue c).items := by
  have hreset : (s.frontReset c).regs = s.regs ∧ (s.frontReset c).q = s.q := modCtx_regs s c _
  unfold State.discardFront
  dsimp only
  rw [endRead_ended hread]
  split
  · obtain ⟨hr, hitems, -⟩ := beginRead_beside hreset.1 hreset.2 hread
    exact ⟨hr, hitems⟩
  · split
    · exact absorb_frame s c _ hread
    · split
      · obtain ⟨hr, hitems, -⟩ := beginRead_beside (t := s) rfl rfl hread
        exact ⟨hr, hitems⟩
      · exact ⟨rfl, rfl⟩

/-- A front unit that is consumed or discarded, or has no first packet, lets its item go. -/
theorem discardFront_goes {s : State} {c : Nat} (hread : (s.queue c).inRead = false) (h : (s.ctx c).frontDead = true ∨ ((s.ctx c).back.all (·.closed) = true ∧ s.frontFirst c = none)) :
    ((s.discardFront c).queue c).items = (s.queue c).items ∧ ((s.discardFront c).queue c).inRead = !(s.queue c).items.isEmpty := by
  have hreset : (s.frontReset c).regs = s.regs ∧ (s.frontReset c).q = s.q := modCtx_regs s c _
  have hback : (s.ctx c).back.all (·.closed) = true → (s.ctx c).back.any (fun b => !b.closed) = false := fun h => by cases hb : (s.ctx c).back <;> simp_all
  unfold State.discardFront
  dsimp only
  rw [endRead_ended hread]
  cases hdead : (s.ctx c).frontDead with
  | true => exact (beginRead_beside hreset.1 hreset.2 hread).2
  | false =>
    rw [hdead] at h
    obtain ⟨hclosed, hfirst⟩ := h.resolve_left Bool.false_ne_true
    rw [if_neg Bool.false_ne_true, hback hclosed, if_neg Bool.false_ne_true, hfirst]
    exact (beginRead_beside (t := s) rfl rfl hread).2

/-- The first packet of a unit stays for its reader. -/
theorem discardFront_stays {s : State} {c : Nat} (hread : (s.queue c).inRead = false) (hdead : (s.ctx c).frontDead = false) (hclosed : (s.ctx c).back.all (·.closed) = true) (hfirst : (s.frontFirst c).isSome = true) : s.discardFront c = s := by
  have hback : (s.ctx c).back.any (fun b => !b.closed) = false := by cases hb : (s.ctx c).back <;> simp_all
  unfold State.discardFront
  dsimp only
  rw [endRead_ended hread, hdead, if_neg Bool.false_ne_true, hback, if_neg Bool.false_ne_true]
  refine if_neg ?_
  cases hf : s.frontFirst c <;> simp_all

end Sys2Proof.Machine

/-! QueueEvents: what SPILL_DEQUEUE does at a decode queue and at a control queue (R235, R278 to R280). -/

namespace Sys2Proof.Machine

-- ## A command of a remote mailbox (R235)

/-- The registers of a remote command. -/
def remoteRungFields : List Fld := [F.MBX_COMMAND_DATA, F.MBX_STATUS_OVERRUN] ++ resultFields

theorem answerUnknown_writes (s : State) (m : Nat) : Writes resultFields s (s.answerUnknown m) := by
  have hput : ∀ st, st < 65536 → Writes resultFields s (s.putResult m st []) := fun st hst => ⟨(RegsOnly.refl s).putResult m hst (by simp), (Off.refl _ s).putResult m hst (by simp) rfl⟩
  have hsame : Writes resultFields s s := ⟨RegsOnly.refl s, Off.refl _ s⟩
  unfold State.answerUnknown
  split
  · split
    · split
      · exact hput _ (by decide)
      · exact hput _ (by decide)
    · split
      · exact hput _ (by decide)
      · exact hsame
  · exact hsame

theorem doorbell_writes (s : State) (m : Nat) : Writes (F.MBX_STATUS_OVERRUN :: resultFields) s (s.doorbell m) := by
  unfold State.doorbell
  split
  · exact ⟨(RegsOnly.refl s).setF _ _ _, (Off.refl _ s).setF _ _ _ rfl⟩
  · have hrung : ∀ v, Writes (F.MBX_STATUS_OVERRUN :: resultFields) s ((s.setF F.MBX_STATUS_BUSY m 1).setF F.MBX_STATUS_HELD m v) := fun v => ⟨((RegsOnly.refl s).setF _ _ _).setF _ _ _, ((Off.refl _ s).setF _ _ _ rfl).setF _ _ _ rfl⟩
    have hanswered : ∀ v, Writes (F.MBX_STATUS_OVERRUN :: resultFields) s (((s.setF F.MBX_STATUS_BUSY m 1).setF F.MBX_STATUS_HELD m v).answerUnknown m) := fun v =>
      have hanswer := answerUnknown_writes ((s.setF F.MBX_STATUS_BUSY m 1).setF F.MBX_STATUS_HELD m v) m
      ⟨(hrung v).only.trans hanswer.only, (hrung v).off.trans (hanswer.off.mono rfl)⟩
    exact hanswered _

theorem putCommand_writes (s : State) (m : Nat) (bs : List Byte) : Writes [F.MBX_COMMAND_DATA] s (s.putCommand m bs) :=
  ⟨(RegsOnly.refl s).chainAll _ _ fun _ t => (RegsOnly.refl t).setF _ _ _, (Off.refl _ s).chainAll _ _ fun _ t => (Off.refl _ t).setF _ _ _ rfl⟩

theorem putCommand_data (s : State) (m : Nat) (bs : List Byte) {k : Nat} (hk : k ∈ List.range 64) : (s.putCommand m bs).f F.MBX_COMMAND_DATA (64 * m + k) = leAt bs (4 * k) 4 % 2 ^ 32 := by
  obtain ⟨u, -, hlast⟩ := chainAll_focus (fun t => t.f F.MBX_COMMAND_DATA (64 * m + k)) (g := fun i t => t.setF F.MBX_COMMAND_DATA (64 * m + i) (leAt bs (4 * i) 4)) hk List.nodup_range
    (fun b t hb => f_setF_otherInst t F.MBX_COMMAND_DATA F.MBX_COMMAND_DATA _ (by omega)) s
  exact hlast.trans (State.f_setF_same _ _ _ _)

/-- The command of a TYPE 3 packet reaches its mailbox. -/
def State.remoteRung (s : State) (m src : Nat) (pay : List Byte) : State := ((s.putCommand m (pay.drop 4)).withFw (fun w => { w with remotePeer := Tab.set 0 w.remotePeer m src })).doorbell m

theorem remoteRung_parts (s : State) (m src : Nat) (pay : List Byte) : Off remoteRungFields s (s.remoteRung m src pay) ∧ (s.remoteRung m src pay).q = s.q ∧ Tab.get 0 (s.remoteRung m src pay).fw.remotePeer m = src ∧
    ∀ k ∈ List.range 64, (s.remoteRung m src pay).f F.MBX_COMMAND_DATA (64 * m + k) = leAt pay (4 + 4 * k) 4 % 2 ^ 32 := by
  have hput := putCommand_writes s m (pay.drop 4)
  have hdata : ∀ k ∈ List.range 64, (s.putCommand m (pay.drop 4)).f F.MBX_COMMAND_DATA (64 * m + k) = leAt pay (4 + 4 * k) 4 % 2 ^ 32 := fun k hk => by
    rw [putCommand_data s m _ hk, leAt, leAt, sliceOf, sliceOf, List.drop_drop]
  unfold State.remoteRung
  generalize s.putCommand m (pay.drop 4) = t at hput hdata ⊢
  have hbell := doorbell_writes (t.withFw fun w => { w with remotePeer := Tab.set 0 w.remotePeer m src }) m
  refine ⟨(hput.off.mono rfl).trans ((Off.same (s := t) (t := t.withFw _) rfl).trans (hbell.off.mono rfl)), hbell.only.q.trans hput.only.q, ?_, fun k hk => (hbell.off.at_ _ _ rfl).trans (hdata k hk)⟩
  rw [RegsOnly.fw hbell.only]
  exact Tab.get_set_same _ _ _ _

theorem remoteCommand_frame (s : State) : Off remoteRungFields s s.remoteCommand ∧ s.remoteCommand.q = s.q := by
  unfold State.remoteCommand
  dsimp only
  split
  · split
    · exact ⟨Off.refl _ s, rfl⟩
    · split
      · exact ⟨(Off.refl _ s).setF _ _ _ rfl, rfl⟩
      · obtain ⟨hoff, hq, -⟩ := remoteRung_parts s (byteAt (sliceOf (List.drop 16 _) _ _) 0) _ (sliceOf (List.drop 16 _) _ _)
        exact ⟨hoff, hq⟩
  · exact ⟨Off.refl _ s, rfl⟩

/-- An item that is no haul packet rings nothing. -/
theorem remoteCommand_other {s : State} {i : Item} {l : List Item} (hi : (s.queue 4097).items = i :: l) (hk : i.kind ≠ 2) : s.remoteCommand = s := by
  unfold State.remoteCommand
  dsimp only
  rw [hi]
  exact if_pos (by simp [hk])

theorem remoteCommand_none {s : State} (hi : (s.queue 4097).items = []) : s.remoteCommand = s := by
  unfold State.remoteCommand
  dsimp only
  rw [hi]

theorem remoteCommand_rings {s : State} {i : Item} {l : List Item} {h : Parsed} {m : Nat} {pay : List Byte} (hread : (s.queue 4097).inRead = true) (hi : (s.queue 4097).items = i :: l) (hk : i.kind = 2)
    (hh : h = parseFrame (s.f F.HAUL_UDP_PORT (byteAt i.data 10)) (i.data.drop 16)) (hhaul : h.haul = true) (htyp : h.typ = 3) (hpay : pay = sliceOf (i.data.drop 16) h.payAt h.payLen) (hlen : pay.length = 260)
    (hm : m = byteAt pay 0) (hlo : 12 ≤ m) (hhi : m ≤ 15) (hop : byteAt pay 1 = 0) (hbusy : s.f F.MBX_STATUS_BUSY m ≠ 1) (hpending : s.f F.MBX_STATUS_RESULT_PENDING m ≠ 1) : s.remoteCommand = s.remoteRung m h.srcDev pay := by
  unfold State.remoteCommand
  dsimp only
  rw [hi]
  dsimp only
  rw [← hh, ← hpay, ← hm, hread, hk, hhaul, htyp, hop, hlen]
  have hlo' : ¬ m < 12 := by omega
  have hhi' : ¬ 15 < m := by omega
  have hfree : ¬ (s.fb F.MBX_STATUS_BUSY m = true ∨ s.fb F.MBX_STATUS_RESULT_PENDING m = true) := by
    rintro (h | h)
    · exact hbusy (of_decide_eq_true h)
    · exact hpending (of_decide_eq_true h)
  rw [if_neg (by simp [hlo', hhi']), if_neg hfree]
  rfl

-- ## SPILL_DEQUEUE

theorem exec_dequeue {q : Nat} (hq : q < 4352) (e : SramRead) (s : State) : exec (.spillDequeue q e) s = .next (s.dequeue q e) := onInstance_of (decide_eq_true hq) _

theorem decodeCtx_of {s : State} {q : Nat} {x : Ctx} (hx : s.ctx? q = some x) (henc : x.enc = false) : (s.ctx? q).any (fun x => !x.enc) = true := by
  rw [hx]
  simp [henc]

theorem dequeue_hewer {s : State} {q h : Nat} {x : Ctx} (hq : q < 4096) (hx : s.ctx? q = some x) (henc : x.enc = false) (hr : s.reader q = some h) (e : SramRead) : s.dequeue q e = ((s.nextRead q e).deliver q h).notice q := by
  unfold State.dequeue
  rw [if_pos hq, decodeCtx_of hx henc, hr]
  rfl

theorem dequeue_noReader {s : State} {q : Nat} {x : Ctx} (hq : q < 4096) (hx : s.ctx? q = some x) (henc : x.enc = false) (hr : s.reader q = none) (hf : s.frontTaken q = false) (e : SramRead) :
    s.dequeue q e = ((s.nextRead q e).discardFront q).notice q := by
  unfold State.dequeue
  rw [if_pos hq, decodeCtx_of hx henc, hr, hf]
  rfl

theorem dequeue_nothing {s : State} {q : Nat} (e : SramRead) (hq : q < 4096) (h : s.ctx? q = none ∨ (s.ctx q).enc = true ∨ (s.reader q = none ∧ s.frontTaken q = true)) : s.dequeue q e = s := by
  unfold State.dequeue
  rw [if_pos hq]
  cases hx : s.ctx? q with
  | none => rfl
  | some x =>
    have hctx : s.ctx q = x := by rw [State.ctx, hx]; rfl
    cases henc : x.enc with
    | true => exact if_pos (by simp [henc])
    | false =>
      rcases h with h | h | ⟨hr, hf⟩
      · exact absurd (hx.symm.trans h) (by simp)
      · exact absurd (hctx ▸ h) (by simp [henc])
      · rw [hr, hf]
        exact if_neg (by simp [henc])

/-- Firmware's read of a control queue, and the command that it may ring. -/
theorem dequeue_control {s : State} {q : Nat} (hq : 4096 ≤ q) (e : SramRead) : s.dequeue q e = (if q = 4097 then ((s.nextRead q e).beginRead q).remoteCommand else (s.nextRead q e).beginRead q) := if_neg (by omega)

theorem nextRead_clean (s : State) (q : Nat) : s.nextRead q .clean = s.endRead q := by
  unfold State.nextRead State.readMeets
  split
  · next h _ => exact nomatch h
  · next h _ => exact nomatch h
  · rfl

theorem nextRead_empty {s : State} {q : Nat} (e : SramRead) (h : ((s.endRead q).queue q).items = []) : s.nextRead q e = s.endRead q := by
  unfold State.nextRead State.readMeets
  split
  · next hi => exact absurd (hi.symm.trans h) (by simp)
  · next hi => exact absurd (hi.symm.trans h) (by simp)
  · rfl

/-- No read is in progress when the next one begins. -/
theorem nextRead_ended (s : State) (q : Nat) (e : SramRead) : ((s.nextRead q e).queue q).inRead = false := by
  obtain ⟨-, hread, -⟩ := endRead_op s q
  unfold State.nextRead State.readMeets
  split
  · split
    · rw [queue_raiseFault]
      exact hread
    · exact hread
  · split
    · rw [queue_raiseFault]
      exact (poisonAt_parts _ q _).2.1.trans hread
    · exact hread
  · exact hread

/-- The registers that a read may write beside its error's. -/
def dequeueFields : List Fld := F.SCH_CTX_LATE_LREM :: remoteRungFields

theorem remoteCommand_at (t : State) (q : Nat) : Off dequeueFields t (if q = 4097 then t.remoteCommand else t) ∧ (if q = 4097 then t.remoteCommand else t).q = t.q := by
  obtain ⟨hoff, hq⟩ := remoteCommand_frame t
  split
  · exact ⟨hoff.mono rfl, hq⟩
  · exact ⟨Off.refl _ t, rfl⟩

/-- Whatever its read met, a queue holds the same items after it. -/
theorem dequeue_frame {s : State} {q : Nat} (e : SramRead) (h : q < 4096 → (s.ctx? q).any (fun x => !x.enc) = true ∧ ((s.reader q).isSome = true ∨ s.frontTaken q = false)) :
    Off dequeueFields (s.nextRead q e) (s.dequeue q e) ∧ ((s.dequeue q e).queue q).items = ((s.nextRead q e).queue q).items := by
  have hread := nextRead_ended s q e
  by_cases hq : q < 4096
  · obtain ⟨hany, hreader⟩ := h hq
    obtain ⟨x, hx, henc⟩ := (Option.any_eq_true _ _).mp hany
    rw [Bool.not_eq_true'] at henc
    have hnotice : ∀ t : State, Off dequeueFields t (t.notice q) ∧ ((t.notice q).queue q).items = (t.queue q).items := fun t => ⟨(Looks.notice q t).off.mono rfl, congrArg Queue.items (queue_of_q (notice_q t q) q)⟩
    cases hr : s.reader q with
    | some h =>
      rw [dequeue_hewer hq hx henc hr]
      generalize s.nextRead q e = t at hread ⊢
      obtain ⟨hoff, hitems⟩ := hnotice (t.deliver q h)
      rcases deliver_eq h hread with hd | ⟨r, i, hd⟩
      · rw [hd] at hoff hitems ⊢
        exact ⟨hoff, hitems⟩
      · obtain ⟨hregs, hsame, -⟩ := delivered_parts t q h r i hread
        rw [hd] at hoff hitems ⊢
        exact ⟨(Off.same hregs).trans hoff, hitems.trans hsame⟩
    | none =>
      rw [hr] at hreader
      rw [dequeue_noReader hq hx henc hr (hreader.resolve_left (by simp))]
      generalize s.nextRead q e = t at hread ⊢
      obtain ⟨hoff, hitems⟩ := hnotice (t.discardFront q)
      obtain ⟨hregs, hsame⟩ := discardFront_frame t q hread
      exact ⟨(Off.same hregs).trans hoff, hitems.trans hsame⟩
  · rw [dequeue_control (by omega)]
    generalize s.nextRead q e = t at hread ⊢
    obtain ⟨hop, hitems, -, -⟩ := beginRead_op hread
    obtain ⟨hoff, hsame⟩ := remoteCommand_at (t.beginRead q) q
    exact ⟨(Off.same hop.regs).trans hoff, (congrArg Queue.items (queue_of_q hsame q)).trans hitems⟩

-- ## The clauses on decode queues

/-- The hewer that reads a decode queue takes its next item (R170). -/
theorem dequeue_taken {s : State} {q h : Nat} {x : Ctx} {r : Run} {i : Item} {l : List Item} (hq : q < 4096) (hx : s.ctx? q = some x) (henc : x.enc = false) (hr : s.reader q = some h) (hrun : (s.hewer h).run = some r)
    (hi : ((s.endRead q).queue q).items = i :: l) : ∃ t, exec (.spillDequeue q .clean) s = .next t ∧ (t.hewer h).run = some (r.take i).1 ∧ (t.queue q).items = i :: l ∧ (t.queue q).inRead = (r.take i).2 := by
  obtain ⟨hop, hread, -, -⟩ := endRead_op s q
  refine ⟨_, (exec_dequeue (by omega) .clean s).trans (congrArg Host.Outcome.next (dequeue_hewer hq hx henc hr .clean)), ?_⟩
  rw [nextRead_clean, deliver_item hread hi ((congrArg Hewer.run (hewer_of_codec hop.codec h)).trans hrun)]
  obtain ⟨-, hitems, htaken, hbegun⟩ := delivered_parts (s.endRead q) q h r i hread
  rw [hewer_notice, queue_of_q (notice_q _ q) q]
  exact ⟨htaken, hitems.trans hi, hbegun (by rw [hi]; simp)⟩

theorem dequeue_drained {s : State} {q h : Nat} {x : Ctx} (hq : q < 4096) (hx : s.ctx? q = some x) (henc : x.enc = false) (hr : s.reader q = some h) (hi : ((s.endRead q).queue q).items = []) :
    ∃ t, exec (.spillDequeue q .clean) s = .next t ∧ (t.queue q).items = [] ∧ (t.queue q).inRead = false ∧ (t.hewer h).run = (s.hewer h).run := by
  obtain ⟨hop, hread, -, -⟩ := endRead_op s q
  refine ⟨_, (exec_dequeue (by omega) .clean s).trans (congrArg Host.Outcome.next (dequeue_hewer hq hx henc hr .clean)), ?_⟩
  rw [nextRead_clean, deliver_empty h hread hi, hewer_notice, queue_of_q (notice_q _ q) q]
  exact ⟨hi, hread, congrArg Hewer.run (hewer_of_codec hop.codec h)⟩

/-- The next data of a unit joins what its hewer has taken. -/
theorem take_next {r : Run} {i : Item} (hk : i.kind ≠ 1) (hf : i.first = false ∨ r.taken = []) (hpos : i.tag % 65536 * 64 = r.taken.length) : r.take i = ({ r with taken := r.taken ++ i.data, closed := i.last }, true) := by
  unfold Run.take
  rw [if_neg hk, if_neg (by rintro ⟨h1, h2⟩; rcases hf with hf | hf; exact absurd (hf.symm.trans h1) (by decide); exact h2 hf)]
  exact if_pos hpos

theorem dequeue_front {s : State} {q : Nat} {x : Ctx} (hq : q < 4096) (hx : s.ctx? q = some x) (henc : x.enc = false) (hr : s.reader q = none) (hf : s.frontTaken q = false) :
    exec (.spillDequeue q .clean) s = .next (((s.endRead q).discardFront q).notice q) ∧ (s.endRead q).ctx q = x := by
  obtain ⟨hop, -⟩ := endRead_op s q
  refine ⟨(exec_dequeue (by omega) .clean s).trans (congrArg Host.Outcome.next ?_), ?_⟩
  · rw [dequeue_noReader hq hx henc hr hf, nextRead_clean]
  · rw [ctx_of_codec hop.codec, State.ctx, hx]
    rfl

-- ## The clauses on control queues

theorem control_begins {s : State} {q : Nat} {i : Item} {l : List Item} (hlo : 4096 ≤ q) (hq : q < 4352) (hread : (s.queue q).inRead = false) (hi : (s.queue q).items = i :: l) (hk : q ≠ 4097 ∨ i.kind ≠ 2) :
    exec (.spillDequeue q .clean) s = .next (s.setQueue q { s.queue q with inRead := true }) := by
  have hbegin : s.beginRead q = s.setQueue q { s.queue q with inRead := true } := by rw [beginRead_idle hread, if_neg (by rw [hi]; simp)]
  refine (exec_dequeue hq .clean s).trans (congrArg Host.Outcome.next ?_)
  rw [dequeue_control hlo, nextRead_clean, endRead_ended hread, hbegin]
  by_cases hc : q = 4097
  · subst hc
    exact (if_pos rfl).trans (remoteCommand_other (i := i) (l := l) (by rw [queue_setQueue]; exact hi) (hk.resolve_left (by simp)))
  · exact if_neg hc

/-- The read of an item ends with that of the next. -/
theorem control_goesOn {s : State} {q : Nat} {i j : Item} {l : List Item} (hlo : 4096 ≤ q) (hq : q < 4352) (hread : (s.queue q).inRead = true) (hi : (s.queue q).items = i :: j :: l) :
    ∃ t, exec (.spillDequeue q .clean) s = .next t ∧ (t.queue q).items = j :: l ∧ (t.queue q).inRead = true ∧ (t.queue q).pendingCleft = (s.queue q).pendingCleft ∧ (q ≠ 4097 ∨ j.kind ≠ 2 → Fields s [] t) := by
  obtain ⟨hop, hended, hcleft, hitems⟩ := endRead_op s q
  rw [hread, if_pos rfl, hi] at hitems
  obtain ⟨hbegin, hsame, hcleftSame, hbegun⟩ := beginRead_op hended
  rw [hitems] at hsame hbegun
  refine ⟨_, (exec_dequeue hq .clean s).trans (congrArg Host.Outcome.next ((dequeue_control hlo .clean).trans (by rw [nextRead_clean]))), ?_⟩
  generalize (s.endRead q).beginRead q = t at hbegin hsame hcleftSame hbegun ⊢
  obtain ⟨-, hq'⟩ := remoteCommand_at t q
  rw [queue_of_q hq' q]
  refine ⟨hsame, hbegun, hcleftSame.trans hcleft, fun hk => ⟨by simp, fun x n _ => ?_⟩⟩
  have hstay : (if q = 4097 then t.remoteCommand else t) = t := by
    by_cases hc : q = 4097
    · subst hc
      exact (if_pos rfl).trans (remoteCommand_other hsame (hk.resolve_left (by simp)))
    · exact if_neg hc
  rw [hstay]
  exact (hop.trans hbegin).f x n

/-- The last item of a control queue leaves with its read. -/
theorem control_empties {s : State} {q : Nat} {l : List Item} (e : SramRead) (hlo : 4096 ≤ q) (hq : q < 4352) (hgone : ((s.endRead q).queue q).items = l) (hl : l = []) :
    exec (.spillDequeue q e) s = .next (s.endRead q) := by
  obtain ⟨-, hended, -⟩ := endRead_op s q
  rw [hl] at hgone
  refine (exec_dequeue hq e s).trans (congrArg Host.Outcome.next ?_)
  rw [dequeue_control hlo, nextRead_empty e hgone, beginRead_idle hended, if_pos hgone]
  by_cases hc : q = 4097
  · subst hc
    exact (if_pos rfl).trans (remoteCommand_none hgone)
  · exact if_neg hc

/-- What a read of a corrected or an uncorrectable unit leaves (R280). -/
theorem dequeue_meets {s u : State} {q n : Nat} {i : Item} {l : List Item} (hq : q < 4352) (h : q < 4096 → (s.ctx? q).any (fun x => !x.enc) = true ∧ ((s.reader q).isSome = true ∨ s.frontTaken q = false)) (hu : u = s.endRead q)
    (hi : (u.queue q).items = i :: l) (hn : 64 * n < i.size) :
    (∃ t, exec (.spillDequeue q (.corrected n)) s = .next t ∧ t.f F.FLT_SRC_STATUS_ACTIVE 28 = 1 ∧ t.f F.FLT_SRC_STATUS_INSTANCE 28 = q) ∧
    ∃ t, exec (.spillDequeue q (.uncorrectable n)) s = .next t ∧ t.f F.FLT_SRC_STATUS_ACTIVE 27 = 1 ∧ t.f F.FLT_SRC_STATUS_INSTANCE 27 = q ∧ t.f F.SPQ_POISON_COUNT 0 = min (s.f F.SPQ_POISON_COUNT 0 + 1) (2 ^ F.SPQ_POISON_COUNT.len - 1) ∧
      (t.queue q).items = poisonItems (i :: l) (max (64 * n) (if (u.queue q).sent = 0 then 0 else 8 + (u.queue q).sent)) := by
  subst hu
  obtain ⟨hop, -⟩ := endRead_op s q
  have hinst : q % 65536 = q := Nat.mod_eq_of_lt (by omega)
  constructor
  · have hmeets : s.nextRead q (.corrected n) = (s.endRead q).raiseFault 28 q [] := by
      unfold State.nextRead State.readMeets
      rw [hi]
      exact if_pos hn
    obtain ⟨hoff, -⟩ := dequeue_frame (.corrected n) h
    rw [hmeets] at hoff
    exact ⟨_, exec_dequeue hq _ s, (hoff.at_ _ _ rfl).trans (State.raiseFault_active _ _ _ _), (hoff.at_ _ _ rfl).trans ((raiseFault_instance _ _ _ (by decide)).trans hinst)⟩
  · obtain ⟨hitems, -, -, hcount, -⟩ := poisonAt_parts (s.endRead q) q (max (64 * n) (if ((s.endRead q).queue q).sent = 0 then 0 else 8 + ((s.endRead q).queue q).sent))
    have hmeets : s.nextRead q (.uncorrectable n) = ((s.endRead q).poisonAt q (max (64 * n) (if ((s.endRead q).queue q).sent = 0 then 0 else 8 + ((s.endRead q).queue q).sent))).raiseFault 27 q [] := by
      unfold State.nextRead State.readMeets
      rw [hi]
      exact if_pos hn
    obtain ⟨hoff, hsame⟩ := dequeue_frame (.uncorrectable n) h
    rw [hmeets] at hoff hsame
    generalize (s.endRead q).poisonAt q (max (64 * n) (if ((s.endRead q).queue q).sent = 0 then 0 else 8 + ((s.endRead q).queue q).sent)) = t at hitems hcount hoff hsame
    rw [queue_raiseFault] at hsame
    rw [hop.f] at hcount
    rw [hi] at hitems
    exact ⟨_, exec_dequeue hq _ s, (hoff.at_ _ _ rfl).trans (State.raiseFault_active _ _ _ _), (hoff.at_ _ _ rfl).trans ((raiseFault_instance _ _ _ (by decide)).trans hinst),
      (hoff.at_ _ _ rfl).trans ((State.raiseFault_f _ _ _ _ _ _ (by unfold Fld.outside; decide)).trans hcount), hsame.trans hitems⟩

end Sys2Proof.Machine

/-! Settles QueueEvents: registers of a queue, allocation of buffers, the cache of the DRAM ring (R263 to R271, R275). -/

namespace Sys2Proof.Machine

-- ## SPQ_Q_CFG (R275)

theorem exec_queueCfg {s : State} {o : Origin} {w : Word} (hw : s.writeOk o .SPQ_Q_CFG 0 = true) : exec (.spqQDisable o w) s = .next (s.queueWrite (s.f F.SPQ_Q_SEL_QUEUE 0) w.toNat) :=
  calc exec (.spqQDisable o w) s = .next (s.regWriteBy o .SPQ_Q_CFG 0 w) := rfl
    _ = .next (s.queueWrite (s.f F.SPQ_Q_SEL_QUEUE 0) w.toNat) := congrArg Host.Outcome.next (regWriteBy_eq w hw regAt_SPQ_Q_CFG (by decide))

theorem queueWrite_nowhere {s : State} {q w : Nat} (h : 4352 ≤ q) : s.queueWrite q w = s := if_pos h

/-- A write to a queue that is enabled: CT and EN alone. -/
theorem queueWrite_on {s : State} {q w : Nat} (hq : q < 4352) (hen : s.f F.SPQ_Q_CFG_EN q = 1) : s.queueWrite q w =
    if ((s.setF F.SPQ_Q_CFG_CT q w).setF F.SPQ_Q_CFG_EN q (w / 2 ^ 30)).queueOn q then (s.setF F.SPQ_Q_CFG_CT q w).setF F.SPQ_Q_CFG_EN q (w / 2 ^ 30)
    else ((s.setF F.SPQ_Q_CFG_CT q w).setF F.SPQ_Q_CFG_EN q (w / 2 ^ 30)).setQueue q {} := (if_neg (by omega)).trans (if_pos (decide_eq_true hen))

theorem sets_queueOn (s : State) (q w : Nat) : Sets s [(F.SPQ_Q_CFG_EN, q, w / 2 ^ 30 % 2), (F.SPQ_Q_CFG_CT, q, w % 1024)] ((s.setF F.SPQ_Q_CFG_CT q w).setF F.SPQ_Q_CFG_EN q (w / 2 ^ 30)) :=
  (((Sets.refl s).snocNew F.SPQ_Q_CFG_CT q w rfl).snocNew F.SPQ_Q_CFG_EN q (w / 2 ^ 30) rfl).perm fun e => by simp [F.SPQ_Q_CFG_EN, F.SPQ_Q_CFG_CT, or_comm]

theorem queueWrite_plain {s : State} {q w : Nat} (hq : q < 4352) (hsel : q = s.f F.SPQ_Q_SEL_QUEUE 0) (hen : s.f F.SPQ_Q_CFG_EN q ≠ 1) : s.queueWrite q w =
    (((s.setF F.SPQ_Q_CFG_SPILL q (F.SPQ_Q_CFG_SPILL.of w)).setF F.SPQ_Q_CFG_EN q (F.SPQ_Q_CFG_EN.of w)).setF F.SPQ_Q_CFG_SIZE q (F.SPQ_Q_CFG_SIZE.of w)).setF F.SPQ_Q_CFG_CT q (F.SPQ_Q_CFG_CT.of w) := by
  refine ((if_neg (by omega)).trans (if_neg fun h => hen (of_decide_eq_true h))).trans ?_
  rw [hsel]
  rfl

theorem sets_queuePlain {s : State} {q w : Nat} (hq : q < 4352) (hw : w < 2 ^ 32) (hsel : q = s.f F.SPQ_Q_SEL_QUEUE 0) (hen : s.f F.SPQ_Q_CFG_EN q ≠ 1) :
    Sets s [(F.SPQ_Q_CFG_SPILL, q, w / 2 ^ 31), (F.SPQ_Q_CFG_EN, q, w / 2 ^ 30 % 2), (F.SPQ_Q_CFG_SIZE, q, w / 2 ^ 24 % 32), (F.SPQ_Q_CFG_CT, q, w % 1024)] (s.queueWrite q w) := by
  have hspill : F.SPQ_Q_CFG_SPILL.of w = w / 2 ^ 31 := Nat.mod_eq_of_lt (by show w / 2 ^ 31 < 2 ^ 1; omega)
  have hct : F.SPQ_Q_CFG_CT.of w = w % 1024 := by show w / 2 ^ 0 % 2 ^ 10 = w % 1024; rw [Nat.pow_zero, Nat.div_one]; rfl
  rw [queueWrite_plain hq hsel hen, hspill, hct]
  exact ((((Sets.refl s).putNew F.SPQ_Q_CFG_SPILL q _ rfl (by show w / 2 ^ 31 < 2 ^ 1; omega)).putNew F.SPQ_Q_CFG_EN q (w / 2 ^ 30 % 2) rfl (Nat.mod_lt _ (by decide))).putNew F.SPQ_Q_CFG_SIZE q (w / 2 ^ 24 % 32) rfl (Nat.mod_lt _ (by decide))).putNew
    F.SPQ_Q_CFG_CT q (w % 1024) rfl (Nat.mod_lt _ (by decide))

theorem queueOn_written {s : State} {q w : Nat} : ((s.setF F.SPQ_Q_CFG_CT q w).setF F.SPQ_Q_CFG_EN q (w / 2 ^ 30)).queueOn q = decide (w / 2 ^ 30 % 2 = 1) :=
  congrArg (fun v => decide (v = 1)) (State.f_setF_same _ _ _ _)

-- ## Buffers (R264 to R270)

theorem QueueOp.chainAll {α : Type} {s t : State} (h : QueueOp s t) (l : List α) (g : α → State → State) (hg : ∀ a u, QueueOp u (g a u)) : QueueOp s (chainAll l g t) := by
  unfold Sys2Proof.Machine.chainAll
  induction l generalizing t with
  | nil => exact h
  | cons a l ih => exact ih (h.trans (hg a t))

theorem writeChain_op (s : State) (p : Packet) : QueueOp s (s.writeChain p) := by
  refine (QueueOp.refl s).chainAll _ _ fun i t => ?_
  dsimp only
  split
  · exact QueueOp.refl t
  · exact (QueueOp.putFor _ _ _ _ _).trans (QueueOp.putFor _ _ _ _ _)

/-- A chain in SRAM writes no memory. -/
theorem writeChain_sram (s : State) (p : Packet) {b : Nat} (hp : p.bufs = [b]) (hb : b < 65536) : s.writeChain p = s := by
  unfold State.writeChain
  rw [hp]
  exact if_pos hb

/-- A packet over the buffers `bs`, with its requester served. -/
def State.allocated (u : State) (r : Requester) (bs : List Nat) (p : Packet) : State :=
  ((u.withPool fun w => { w with packets := Tab.set {} w.packets (bs.headD 0) { p with bufs := bs } }).writeChain { p with bufs := bs }).unstall r

theorem allocated_parts (u : State) (r : Requester) (bs : List Nat) (p : Packet) : (u.allocated r bs p).packet (bs.headD 0) = { p with bufs := bs } ∧ (u.allocated r bs p).pool.sram = u.pool.sram ∧ (u.allocated r bs p).pool.dram = u.pool.dram ∧
    r ∉ (u.allocated r bs p).pool.stalled ∧ (u.allocated r bs p).regs = u.regs := by
  have hnamed : ((u.withPool fun w => { w with packets := Tab.set {} w.packets (bs.headD 0) { p with bufs := bs } }).packet (bs.headD 0)) = { p with bufs := bs } := Tab.get_set_same _ _ _ _
  have hop := writeChain_op (u.withPool fun w => { w with packets := Tab.set {} w.packets (bs.headD 0) { p with bufs := bs } }) { p with bufs := bs }
  have hsram : (u.withPool fun w => { w with packets := Tab.set {} w.packets (bs.headD 0) { p with bufs := bs } }).pool.sram = u.pool.sram := rfl
  have hdram : (u.withPool fun w => { w with packets := Tab.set {} w.packets (bs.headD 0) { p with bufs := bs } }).pool.dram = u.pool.dram := rfl
  have hregs : (u.withPool fun w => { w with packets := Tab.set {} w.packets (bs.headD 0) { p with bufs := bs } }).regs = u.regs := rfl
  unfold State.allocated
  generalize (u.withPool fun w => { w with packets := Tab.set {} w.packets (bs.headD 0) { p with bufs := bs } }) = t at hnamed hop hsram hdram hregs ⊢
  have hpool := hop.pool
  have hwritten := hop.regs
  generalize t.writeChain { p with bufs := bs } = v at hpool hwritten ⊢
  have hpacket : (v.unstall r).packet (bs.headD 0) = t.packet (bs.headD 0) := (congrArg (fun m : PoolState => Tab.get {} m.packets (bs.headD 0)) hpool :)
  refine ⟨hpacket.trans hnamed, (congrArg PoolState.sram hpool :).trans hsram, (congrArg PoolState.dram hpool :).trans hdram, ?_, hwritten.trans hregs⟩
  show r ∉ v.pool.stalled.filter (· ≠ r)
  simp

/-- The port number that a requester's packets bear. -/
def requesterPort (r : Requester) : Nat :=
  match r with
  | .haul p => p
  | .egress => 7
  | .cp => 6

/-- What a requester without buffers gets. -/
def State.refusedBuffers (s : State) (r : Requester) : State :=
  match r with
  | .haul _ => s.noBuffer
  | _ => s.stall r

theorem bufferAlloc_some {s u : State} {r : Requester} {fr : List Byte} {strict : Bool} {bs : List Nat} (hen : s.f F.BPM_CTRL_EN 0 = 1) (h : s.takeBuffers ((max fr.length 1 + 255) / 256) strict = some (bs, u)) :
    s.bufferAlloc r fr strict = u.allocated r bs { ref := 1, inport := requesterPort r, arrival := s.tick4, frame := fr } := by
  have hon : s.fb F.BPM_CTRL_EN 0 = true := decide_eq_true hen
  unfold State.bufferAlloc State.allocPacket
  dsimp only
  rw [hon, h]
  rfl

theorem bufferAlloc_none {s : State} {r : Requester} {fr : List Byte} {strict : Bool} (h : s.f F.BPM_CTRL_EN 0 ≠ 1 ∨ s.takeBuffers ((max fr.length 1 + 255) / 256) strict = none) :
    s.bufferAlloc r fr strict = s.refusedBuffers r := by
  unfold State.bufferAlloc State.allocPacket
  dsimp only
  cases hon : s.fb F.BPM_CTRL_EN 0 with
  | false => cases r <;> rfl
  | true =>
    rw [h.resolve_left (not_not.mpr (of_decide_eq_true hon))]
    cases r <;> rfl

theorem exec_alloc {r : Requester} (h : requesterOk r = true) (fr : List Byte) (strict : Bool) (s : State) : exec (.bufferAlloc r fr strict) s = .next (s.bufferAlloc r fr strict) := onInstance_of h _

/-- The next buffer that was never allocated. -/
def State.freshTaken (s : State) : State := (s.withPool fun w => { w with sram := { w.sram with fresh := w.sram.fresh + 1 } }).noteFree

theorem noteFree_writes (s : State) : Writes [F.BPM_MIN_FREE_COUNT, F.BPM_EVENT_LOW] s s.noteFree := by
  have hmin : Writes [F.BPM_MIN_FREE_COUNT, F.BPM_EVENT_LOW] s (if s.freeSram < s.f F.BPM_MIN_FREE_COUNT 0 then s.setF F.BPM_MIN_FREE_COUNT 0 s.freeSram else s) := by
    split
    · exact ⟨(RegsOnly.refl s).setF _ _ _, (Off.refl _ s).setF _ _ _ rfl⟩
    · exact ⟨RegsOnly.refl s, Off.refl _ s⟩
  unfold State.noteFree
  dsimp only
  generalize (if s.freeSram < s.f F.BPM_MIN_FREE_COUNT 0 then s.setF F.BPM_MIN_FREE_COUNT 0 s.freeSram else s) = t at hmin ⊢
  split
  · exact ⟨hmin.only.setF _ _ _, hmin.off.setF _ _ _ rfl⟩
  · exact hmin

theorem takeBuffers_fresh {s : State} {n : Nat} {strict : Bool} (hn : n = 1) (hlist : s.f F.BPM_CTRL_LIST_MODE 0 ≠ 1) (hfresh : s.pool.sram.fresh < 65536) (hs : strict = true ∨ s.sramReserve < s.freeSram) :
    s.takeBuffers n strict = some ([s.pool.sram.fresh], s.freshTaken) := by
  subst hn
  have hmode : s.fb F.BPM_CTRL_LIST_MODE 0 = false := decide_eq_false hlist
  have htake : s.takeSram 1 = some ([s.pool.sram.fresh], s.freshTaken) := by
    unfold State.takeSram
    dsimp only
    rw [hmode, if_neg Bool.false_ne_true, takeMany, FreeRing.take1, if_pos (by exact hfresh)]
    rfl
  unfold State.takeBuffers
  dsimp only
  rw [if_pos hs, htake]
  rfl

theorem allocated_dram (u : State) (r : Requester) {b : Nat} (p : Packet) (hb : b < 65536) : (u.allocated r [b] p).dram = u.dram := by
  unfold State.allocated
  rw [writeChain_sram _ _ (b := b) rfl hb]
  rfl

theorem freshTaken_parts (s : State) : s.freshTaken.pool = { s.pool with sram := { s.pool.sram with fresh := s.pool.sram.fresh + 1 } } ∧ Off [F.BPM_MIN_FREE_COUNT, F.BPM_EVENT_LOW] s s.freshTaken ∧ s.freshTaken.dram = s.dram := by
  have hnote := noteFree_writes (s.withPool fun w => { w with sram := { w.sram with fresh := w.sram.fresh + 1 } })
  exact ⟨congrArg QueueState.pool hnote.only.q, (Off.same (s := s) (t := s.withPool _) rfl).trans hnote.off, hnote.only.dram⟩

/-- A frame of one buffer that was never allocated. -/
theorem alloc_fresh {s : State} {r : Requester} {fr : List Byte} {strict : Bool} (hr : requesterOk r = true) (hen : s.f F.BPM_CTRL_EN 0 = 1) (hlist : s.f F.BPM_CTRL_LIST_MODE 0 ≠ 1) (hlen : fr.length ≤ 256)
    (hfresh : s.pool.sram.fresh < 65536) (hs : strict = true ∨ s.sramReserve < s.freeSram) :
    ∃ t, exec (.bufferAlloc r fr strict) s = .next t ∧ (t.packet s.pool.sram.fresh).bufs = [s.pool.sram.fresh] ∧ (t.packet s.pool.sram.fresh).ref = 1 ∧ t.pool.sram = { s.pool.sram with fresh := s.pool.sram.fresh + 1 } ∧ t.pool.dram = s.pool.dram ∧
      r ∉ t.pool.stalled ∧ t.dram = s.dram ∧ ∀ (y : Fld) (i : Nat), y.outside [F.BPM_MIN_FREE_COUNT, F.BPM_EVENT_LOW] → t.f y i = s.f y i := by
  have htake := takeBuffers_fresh (s := s) (n := (max fr.length 1 + 255) / 256) (strict := strict) (by omega) hlist hfresh hs
  have halloc := bufferAlloc_some (r := r) hen htake
  obtain ⟨hpool, hoff, hdram⟩ := freshTaken_parts s
  generalize s.freshTaken = u at halloc hpool hoff hdram
  obtain ⟨hpacket, hsram, hring, hserved, hregs⟩ := allocated_parts u r [s.pool.sram.fresh] { ref := 1, inport := requesterPort r, arrival := s.tick4, frame := fr }
  have hmem := allocated_dram u r { ref := 1, inport := requesterPort r, arrival := s.tick4, frame := fr } hfresh
  generalize u.allocated r [s.pool.sram.fresh] { ref := 1, inport := requesterPort r, arrival := s.tick4, frame := fr } = v at halloc hpacket hsram hring hserved hregs hmem
  rw [hpool] at hsram hring
  exact ⟨v, (exec_alloc hr fr strict s).trans (congrArg Host.Outcome.next halloc), congrArg Packet.bufs hpacket, congrArg Packet.ref hpacket, hsram, hring, hserved, hmem.trans hdram, hoff.trans (Off.same hregs)⟩

theorem noBuffer_sets (s : State) : Sets s (s.counted F.BPM_NO_BUFFER_COUNT 0 F.BPM_CNT_SAT_NO_BUFFER_SAT 0 0 ++ [(F.BPM_EVENT_NO_BUFFER, 0, 1)]) s.noBuffer := by
  refine (sets_count s 0 0 0 rfl).putNew F.BPM_EVENT_NO_BUFFER 0 1 ?_ (by decide)
  unfold State.counted
  split <;> rfl

theorem stall_sets {s : State} {r : Requester} (h : r ∉ s.pool.stalled) :
    Sets (s.withPool fun w => { w with stalled := w.stalled ++ [r] }) (s.counted F.BPM_STALLS_COUNT 0 F.BPM_CNT_SAT_STALLS_SAT 0 0 ++ [(F.BPM_EVENT_STALL, 0, 1)]) (s.stall r) := by
  have hstall : s.stall r = ((s.withPool fun w => { w with stalled := w.stalled ++ [r] }).count F.BPM_STALLS_COUNT 0 F.BPM_CNT_SAT_STALLS_SAT 0 0).setF F.BPM_EVENT_STALL 0 1 := if_neg h
  rw [hstall]
  refine (sets_count (s.withPool fun w => { w with stalled := w.stalled ++ [r] }) 0 0 0 rfl).putNew F.BPM_EVENT_STALL 0 1 ?_ (by decide)
  unfold State.counted
  split <;> rfl

-- ## The cache of the DRAM ring (R269)

theorem cacheRefill_tier {s : State} (htier : s.dramTier = true) :
    s.cacheRefill = if s.pool.dram.cache.length < 128 ∧ 0 < s.pool.dram.stored then s.cacheIn else if 384 < s.pool.dram.cache.length then s.cacheOut else s := by
  unfold State.cacheRefill
  dsimp only
  exact if_neg (by simp [htier])

theorem cacheRefill_in {s : State} (htier : s.dramTier = true) (hlow : s.pool.dram.cache.length < 128) (hstored : 0 < s.pool.dram.stored) : s.cacheRefill = s.cacheIn :=
  (cacheRefill_tier htier).trans (if_pos ⟨hlow, hstored⟩)

theorem cacheRefill_out {s : State} (htier : s.dramTier = true) (hhigh : 384 < s.pool.dram.cache.length) : s.cacheRefill = s.cacheOut :=
  (cacheRefill_tier htier).trans ((if_neg (by omega)).trans (if_pos hhigh))

theorem cacheRefill_idle {s : State} (h : s.dramTier = false ∨ (s.pool.dram.cache.length ≤ 384 ∧ (128 ≤ s.pool.dram.cache.length ∨ s.pool.dram.stored = 0))) : s.cacheRefill = s := by
  rcases h with h | ⟨hhigh, hlow⟩
  · unfold State.cacheRefill
    dsimp only
    exact if_pos (by simp [h])
  · by_cases htier : s.dramTier = true
    · exact (cacheRefill_tier htier).trans ((if_neg (by omega)).trans (if_neg (by omega)))
    · unfold State.cacheRefill
      dsimp only
      exact if_pos (by simpa using htier)

/-- The ring after a burst into the cache. -/
def State.ringIn (s : State) : DramRing :=
  { s.pool.dram with cache := s.pool.dram.cache ++ (List.range (min 16 s.pool.dram.stored)).map (fun i => s.ringIndex (s.pool.dram.rd + i)), rd := s.pool.dram.rd + min 16 s.pool.dram.stored }

theorem cacheIn_eq (s : State) : s.cacheIn = (s.presentLines 7 (s.ringAddr s.pool.dram.rd) 64 false true).withPool (fun w => { w with dram := s.ringIn }) := rfl

theorem pool_withPool (s : State) (g : PoolState → PoolState) : (s.withPool g).pool = g s.pool := rfl

theorem dram_withPool (s : State) (g : PoolState → PoolState) : (s.withPool g).dram = s.dram := rfl

theorem fields_withPool {s t : State} (h : QueueOp s t) (g : PoolState → PoolState) : Fields s [] (t.withPool g) := ⟨by simp, fun x i _ => h.f x i⟩

theorem ringed_parts {s t : State} (h : QueueOp s t) (r : DramRing) : (t.withPool fun w => { w with dram := r }).pool.dram = r ∧ (t.withPool fun w => { w with dram := r }).pool.sram = s.pool.sram ∧ Fields s [] (t.withPool fun w => { w with dram := r }) :=
  ⟨rfl, (congrArg PoolState.sram h.pool :), fields_withPool h _⟩

theorem cacheIn_parts (s : State) : s.cacheIn.pool.dram = s.ringIn ∧
    s.cacheIn.pool.sram = s.pool.sram ∧ s.cacheIn.dram = s.dram ∧ Fields s [] s.cacheIn := by
  have hop := QueueOp.presentLines s 7 (s.ringAddr s.pool.dram.rd) 64 false true
  have hdram := presentLines_dram s 7 (s.ringAddr s.pool.dram.rd) 64 false true
  obtain ⟨hring, hsram, hfields⟩ := ringed_parts hop s.ringIn
  rw [← cacheIn_eq] at hring hsram hfields
  exact ⟨hring, hsram, (dram_withPool _ _).trans hdram, hfields⟩

/-- The ring after a burst out of the cache. -/
def State.ringOut (s : State) : DramRing := { s.pool.dram with cache := s.pool.dram.cache.take (s.pool.dram.cache.length - 16), wr := s.pool.dram.wr + 16 }

theorem cacheOut_eq (s : State) : s.cacheOut = (s.putFor 7 (s.ringAddr s.pool.dram.wr) ((s.pool.dram.cache.drop (s.pool.dram.cache.length - 16)).flatMap (leBytes 4)) true).withPool (fun w => { w with dram := s.ringOut }) := rfl

theorem cacheOut_parts (s : State) : s.cacheOut.pool.dram = s.ringOut ∧ s.cacheOut.pool.sram = s.pool.sram ∧ Fields s [] s.cacheOut := by
  have hop := QueueOp.putFor s 7 (s.ringAddr s.pool.dram.wr) ((s.pool.dram.cache.drop (s.pool.dram.cache.length - 16)).flatMap (leBytes 4)) true
  rw [cacheOut_eq]
  exact ringed_parts hop s.ringOut

-- ## Clefts and refills, looked at

theorem exec_cleft {q : Nat} (hq : q < 4352) (s : State) : exec (.cleftPendingEnter q) s = .next ((s.enterCleft q).noticeQueue q) := onInstance_of (decide_eq_true hq) _

theorem exec_refill {q : Nat} (hq : q < 4352) (bad : Bool) (s : State) : exec (.spoilRefill q bad) s = .next ((s.refill q bad).noticeQueue q) := onInstance_of (decide_eq_true hq) _

/-- A queue that is looked at, after fields `l` were written. -/
theorem fields_noticeQueue {s t : State} {q : Nat} {l : List (Fld × Nat × Nat)} (h : Fields s l t) (hc : t.codec = s.codec) (hq : 4096 ≤ q ∨ (s.ctx q).enc = true) : Fields s l (t.noticeQueue q) := by
  rw [noticeQueue_other (by rwa [ctx_of_codec hc])]
  exact h

theorem looked_parts (t : State) (q : Nat) : (t.noticeQueue q).queue q = t.queue q := queue_of_q (noticeQueue_frame t q).1 q

theorem fields_of_op {s t : State} (h : QueueOp s t) : Fields s [] t := ⟨by simp, fun x i _ => h.f x i⟩

/-- Nothing enters: the queue is looked at, no more. -/
theorem looked_only (s : State) (q : Nat) : (s.noticeQueue q).q = s.q ∧ (4096 ≤ q ∨ (s.ctx q).enc = true → s.noticeQueue q = s) := ⟨(noticeQueue_frame s q).1, noticeQueue_other⟩

theorem cleft_entered {s : State} {q : Nat} {i : Item} (h : (s.queue q).pendingCleft = some i) (hroom : (s.queue q).used + 16 ≤ s.queueCapacity q) :
    (((s.enterCleft q).noticeQueue q).queue q).items = (s.queue q).items ++ [i] ∧ (((s.enterCleft q).noticeQueue q).queue q).pendingCleft = none ∧ (((s.enterCleft q).noticeQueue q).queue q).inRead = (s.queue q).inRead ∧
      (4096 ≤ q ∨ (s.ctx q).enc = true → Fields s [] ((s.enterCleft q).noticeQueue q)) := by
  obtain ⟨hop, hcontent⟩ := settled_op s q { s.queue q with items := (s.queue q).items ++ [i], pendingCleft := none }
  rw [enterCleft_enters h hroom, looked_parts]
  obtain ⟨hitems, hread, -, hcleft, -⟩ := of_content hcontent
  exact ⟨hitems, hcleft, hread, fields_noticeQueue (fields_of_op hop) hop.codec⟩

theorem refill_entered {s : State} {q : Nat} (hs : 64 ≤ (s.queue q).spoil) (hh : (s.queue q).head + 64 ≤ 256) :
    (((s.refill q false).noticeQueue q).queue q).items = (s.queue q).items ∧ (((s.refill q false).noticeQueue q).queue q).rd = (s.queue q).rd + 64 ∧
      (128 ≤ (s.queue q).spoil → (((s.refill q false).noticeQueue q).queue q).head = (s.queue q).head + 64) ∧ (4096 ≤ q ∨ (s.ctx q).enc = true → Fields s [] ((s.refill q false).noticeQueue q)) := by
  obtain ⟨hop, hitems, hrd, hhead⟩ := refilled_op s q
  rw [refill_good hs hh, looked_parts]
  exact ⟨hitems, hrd, hhead, fields_noticeQueue (fields_of_op hop) hop.codec⟩

theorem refill_poisoned {s : State} {q : Nat} (hs : 64 ≤ (s.queue q).spoil) (hh : (s.queue q).head + 64 ≤ 256) :
    (((s.refill q true).noticeQueue q).queue q).items = poisonItems (s.queue q).items (s.queue q).head ∧ ((s.refill q true).noticeQueue q).f F.SPQ_POISON_COUNT 0 = min (s.f F.SPQ_POISON_COUNT 0 + 1) (2 ^ F.SPQ_POISON_COUNT.len - 1) ∧
      (4096 ≤ q ∨ (s.ctx q).enc = true → Fields s (s.counted F.SPQ_POISON_COUNT 0 F.SPQ_CNT_SAT_POISON_SAT 0 0 ++ [(F.SPQ_EVENT_POISON, 0, 1)]) ((s.refill q true).noticeQueue q)) := by
  obtain ⟨hitems, -, hcodec, hcount, hfields⟩ := poisonAt_parts s q (s.queue q).head
  rw [refill_poisons hs hh, looked_parts]
  exact ⟨hitems, ((noticeQueue_frame _ q).2.at_ _ _ rfl).trans hcount, fields_noticeQueue hfields hcodec⟩

/-- A command that a remote mailbox's packet brings (R235). -/
theorem control_rings {s : State} {i : Item} {l : List Item} {h : Parsed} {m : Nat} {pay : List Byte} (hread : (s.queue 4097).inRead = false) (hi : (s.queue 4097).items = i :: l) (hk : i.kind = 2)
    (hh : h = parseFrame (s.f F.HAUL_UDP_PORT (byteAt i.data 10)) (i.data.drop 16)) (hhaul : h.haul = true) (htyp : h.typ = 3) (hpay : pay = sliceOf (i.data.drop 16) h.payAt h.payLen) (hlen : pay.length = 260)
    (hm : m = byteAt pay 0) (hlo : 12 ≤ m) (hhi : m ≤ 15) (hop : byteAt pay 1 = 0) (hbusy : s.f F.MBX_STATUS_BUSY m ≠ 1) (hpending : s.f F.MBX_STATUS_RESULT_PENDING m ≠ 1) :
    ∃ t, exec (.spillDequeue 4097 .clean) s = .next t ∧ (∀ k ∈ List.range 64, t.f F.MBX_COMMAND_DATA (64 * m + k) = leAt pay (4 + 4 * k) 4 % 2 ^ 32) ∧ Tab.get 0 t.fw.remotePeer m = h.srcDev ∧ (t.queue 4097).inRead = true := by
  have hbegin : s.beginRead 4097 = s.setQueue 4097 { s.queue 4097 with inRead := true } := by rw [beginRead_idle hread, if_neg (by rw [hi]; simp)]
  have hdeq : s.dequeue 4097 .clean = (s.setQueue 4097 { s.queue 4097 with inRead := true }).remoteCommand := by
    rw [dequeue_control (by decide), nextRead_clean, endRead_ended hread, hbegin]
    exact if_pos rfl
  have hqueue := queue_setQueue s 4097 { s.queue 4097 with inRead := true }
  have hsame : ∀ (x : Fld) (n : Nat), (s.setQueue 4097 { s.queue 4097 with inRead := true }).f x n = s.f x n := (QueueOp.setQueue s _ _).f
  generalize s.setQueue 4097 { s.queue 4097 with inRead := true } = t at hdeq hqueue hsame
  have hring := remoteCommand_rings (s := t) (i := i) (l := l) (h := h) (m := m) (pay := pay) (by rw [hqueue]) (by rw [hqueue]; exact hi) hk (by rw [hsame]; exact hh) hhaul htyp hpay hlen hm hlo hhi hop (by rw [hsame]; exact hbusy) (by rw [hsame]; exact hpending)
  obtain ⟨-, hq, hpeer, hdata⟩ := remoteRung_parts t m h.srcDev pay
  refine ⟨_, (exec_dequeue (by decide) .clean s).trans (congrArg Host.Outcome.next (hdeq.trans hring)), hdata, hpeer, ?_⟩
  rw [queue_of_q hq, hqueue]

/-- Settles O53: the clauses in their order, each by what the queue, or the pool, does. -/
theorem queueEvents : Obligations.QueueEvents := by
  unfold Obligations.QueueEvents
  refine ⟨fun s q hq h => ⟨_, exec_cleft hq s, ?_⟩, fun s q i hq h hroom => ⟨_, exec_cleft hq s, cleft_entered h hroom⟩, fun s q e hq h => (exec_dequeue (by omega) e s).trans (congrArg Host.Outcome.next (dequeue_nothing e hq h)),
    fun s q h x r i l hq hx henc hr hrun hi => dequeue_taken hq hx henc hr hrun hi, fun s q h x r i l hq hx henc hr hrun hi hk hf hpos => ?_, fun s q h x hq hx henc hr hi => dequeue_drained hq hx henc hr hi,
    fun s u q x i l hq hx henc hr hf hu hi h => ?_, fun s u q x hq hx henc hr hf hu hdead hclosed hfirst => ?_, fun s q e hlo hq hread hi => ?_, fun s q i l hlo hq hread hi hk => ⟨_, control_begins hlo hq hread hi hk, Sets.refl _⟩,
    fun s q i j l hlo hq hread hi => control_goesOn hlo hq hread hi, fun s q i e hlo hq hread hi => ?_,
    fun s i l h m pay hread hi hk hh hhaul htyp hpay hlen hm hlo hhi hop hbusy hpending => control_rings hread hi hk hh hhaul htyp hpay hlen hm hlo hhi hop hbusy hpending, fun s u q n i l hq h hu hi hn => dequeue_meets hq h hu hi hn,
    fun s q bad hq h => ⟨_, exec_refill hq bad s, ?_⟩, fun s q hq hs hh => ⟨_, exec_refill hq false s, refill_entered hs hh⟩, fun s q hq hs hh => ⟨_, exec_refill hq true s, refill_poisoned hs hh⟩,
    fun s o w q hw hsel hq hen hoff => ⟨_, exec_queueCfg hw, ?_⟩, fun s o w q hw hsel hq hen hon => ⟨_, exec_queueCfg hw, ?_⟩, fun s o w q hw hsel hq hen => ⟨_, exec_queueCfg hw, ?_⟩,
    fun s o w hw hq => (exec_queueCfg hw).trans (congrArg Host.Outcome.next (queueWrite_nowhere hq)), fun s u r fr strict bs hr hen htake => ?_, fun s r fr strict hr hen hlist hlen hfresh hs => alloc_fresh hr hen hlist hlen hfresh hs,
    fun s p fr strict hp h => ⟨_, (exec_alloc (r := .haul p) (decide_eq_true hp) fr strict s).trans (congrArg Host.Outcome.next (bufferAlloc_none h)), noBuffer_sets s⟩, fun s r fr strict hr h hstall => ?_, fun s r fr strict hr h hstall => ?_,
    fun s htier hlow hstored => ⟨_, congrArg Host.Outcome.next (cacheRefill_in htier hlow hstored), cacheIn_parts s⟩, fun s htier hhigh => ⟨_, congrArg Host.Outcome.next (cacheRefill_out htier hhigh), cacheOut_parts s⟩,
    fun s h => congrArg Host.Outcome.next (cacheRefill_idle h)⟩
  · rw [enterCleft_none h]
    exact looked_only s q
  · obtain ⟨t, ht, htaken, -⟩ := dequeue_taken hq hx henc hr hrun hi
    exact ⟨t, ht, by rw [htaken, take_next hk hf hpos]⟩
  · obtain ⟨hexec, hctx⟩ := dequeue_front hq hx henc hr hf
    subst hu
    obtain ⟨hitems, hbegun⟩ := discardFront_goes (endRead_op s q).2.1 (by rw [hctx]; exact h)
    refine ⟨_, hexec, ?_⟩
    rw [queue_of_q (notice_q _ q) q]
    exact ⟨hitems.trans hi, hbegun.trans (by rw [hi]; rfl)⟩
  · obtain ⟨hexec, hctx⟩ := dequeue_front hq hx henc hr hf
    subst hu
    refine ⟨_, hexec, ?_⟩
    rw [notice_q, discardFront_stays (endRead_op s q).2.1 (by rw [hctx]; exact hdead) (by rw [hctx]; exact hclosed) hfirst]
  · have hended := endRead_ended hread
    exact (control_empties e hlo hq (by rw [hended]; exact hi) rfl).trans (congrArg Host.Outcome.next hended)
  · obtain ⟨hop, hended, -, hitems⟩ := endRead_op s q
    rw [hread, if_pos rfl, hi] at hitems
    exact ⟨_, control_empties e hlo hq hitems rfl, hitems, hended, fields_of_op hop⟩
  · rw [refill_none bad h]
    exact looked_only s q
  · rw [← hsel, queueWrite_on hq hen, queueOn_written, hoff]
    have hsets := (sets_queueOn s q w.toNat).through (g := fun u => u.setQueue q {}) (by intro _ _; rfl) (by intro _; rfl)
    rwa [hoff] at hsets
  · rw [← hsel, queueWrite_on hq hen, queueOn_written, hon]
    have hsets := sets_queueOn s q w.toNat
    rwa [hon] at hsets
  · rw [← hsel]
    exact sets_queuePlain hq w.isLt hsel hen
  · obtain ⟨hpacket, hsram, hring, hserved, hregs⟩ := allocated_parts u r bs { ref := 1, inport := requesterPort r, arrival := s.tick4, frame := fr }
    exact ⟨_, (exec_alloc hr fr strict s).trans (congrArg Host.Outcome.next (bufferAlloc_some hen htake)), congrArg Packet.bufs hpacket, congrArg Packet.ref hpacket, congrArg Packet.frame hpacket, hsram, hring, hserved, by simp, fun x i _ => (Off.same (fs := []) hregs) x i (by simp [Fld.outside])⟩
  · have hrefused : s.refusedBuffers r = s.stall r := by rcases hr with rfl | rfl <;> rfl
    exact ⟨_, (exec_alloc (by rcases hr with rfl | rfl <;> rfl) fr strict s).trans (congrArg Host.Outcome.next ((bufferAlloc_none h).trans hrefused)), stall_sets hstall⟩
  · have hrefused : s.refusedBuffers r = s.stall r := by rcases hr with rfl | rfl <;> rfl
    exact (exec_alloc (by rcases hr with rfl | rfl <;> rfl) fr strict s).trans (congrArg Host.Outcome.next ((bufferAlloc_none h).trans (hrefused.trans (if_pos hstall))))

end Sys2Proof.Machine

/-! Ingress ports (R335 to R340): what frames, lines and pictures of a port write. -/

namespace Sys2Proof.Machine

-- ## Slices that become ready (R143, R340)

/-- The part without its registers and its codec. -/
def State.sansCodec (s : State) : State := { s with regs := [], codec := {} }

/-- Encode contexts take what has arrived: their own state, and the lateness of a slice that is ready. -/
structure Readies (s t : State) : Prop where
  off : Off [F.SCH_CTX_LATE_LREM] s t
  rest : t.sansCodec = s.sansCodec

namespace Readies

theorem refl (s : State) : Readies s s := ⟨Off.refl _ s, rfl⟩

theorem trans {s t u : State} (h : Readies s t) (g : Readies t u) : Readies s u := ⟨h.off.trans g.off, g.rest.trans h.rest⟩

theorem withCodec (s : State) (g : CodecState → CodecState) : Readies s (s.withCodec g) := ⟨(Off.refl _ s).withCodec g, rfl⟩

theorem modCtx (s : State) (c : Nat) (g : Ctx → Ctx) : Readies s (s.modCtx c g) := by
  unfold State.modCtx
  split
  · exact refl s
  · exact withCodec s _

theorem chainAll {α : Type} {s t : State} (h : Readies s t) (l : List α) (g : α → State → State) (hg : ∀ a u, Readies u (g a u)) : Readies s (chainAll l g t) := by
  unfold Sys2Proof.Machine.chainAll
  induction l generalizing t with
  | nil => exact h
  | cons a l ih => exact ih (h.trans (hg a t))

theorem makeReady (s : State) (r : Ready) (allot : Nat) : Readies s (s.makeReady r allot) :=
  ⟨((Off.refl _ s).setF _ _ _ rfl).withCodec _, rfl⟩

theorem haul {s t : State} (h : Readies s t) : t.haul = s.haul := (congrArg (fun u : State => u.haul) h.rest :)

theorem dram {s t : State} (h : Readies s t) : t.dram = s.dram := (congrArg (fun u : State => u.dram) h.rest :)

end Readies

theorem openSource_readies (s : State) (c q : Nat) : Readies s (s.openSource c q) := by
  unfold State.openSource
  dsimp only
  split
  · exact Readies.refl s
  · exact Readies.modCtx s c _

theorem readySlice_readies (s : State) (c q i : Nat) : Readies s (s.readySlice c q i) := by
  have hopen := openSource_readies s c q
  unfold State.readySlice
  dsimp only
  generalize s.openSource c q = t at hopen ⊢
  split
  · exact hopen.trans (Readies.modCtx t c _)
  · exact (hopen.trans (Readies.modCtx t c _)).trans (Readies.makeReady _ _ _)

theorem readyPicture_readies (s : State) (c q : Nat) : Readies s (s.readyPicture c q) := (Readies.refl s).chainAll _ _ fun i t => readySlice_readies t c q i

theorem sourcesOf_readies (s : State) (w : Nat) : Readies s (s.sourcesOf w) := by
  unfold State.sourcesOf
  dsimp only
  split
  · exact Readies.refl s
  · refine (Readies.refl s).chainAll _ _ fun c t => ?_
    have hbefore : Readies t (if (t.ctx c).sources = [] then t else t.readyPicture c (((s.wall w).picture + 65535) % 65536)) := by
      split
      · exact Readies.refl t
      · exact readyPicture_readies t c _
    exact hbefore.trans (readyPicture_readies _ c _)

/-- Without contexts nothing becomes ready. -/
theorem sourcesOf_none {s : State} (w : Nat) (h : s.codec.ctxs = []) : s.sourcesOf w = s := by
  have hnone : ∀ p : Ctx → Bool, s.ctxsOf p = [] := fun p => by rw [State.ctxsOf, State.ctxNums, h]; rfl
  unfold State.sourcesOf
  dsimp only
  rw [hnone]
  split <;> rfl

-- ## Steps of a port

/-- What a frame may write of its port. -/
def ingFields : List Fld := [F.ING_CNT_COUNT, F.ING_CNT_SAT_SAT, F.ING_STATUS_LINE, F.ING_STATUS_IN_PICTURE, F.ING_EVENT_PICTURE_END]

/-- The part without its registers, its codec and its haul unit. -/
def State.sansIngress (s : State) : State := { s with regs := [], codec := {}, haul := {} }

/-- A step of port `p` that writes registers of `fs` and keeps the port's sequence number and every context. -/
structure IngStep (fs : List Fld) (p : Nat) (s t : State) : Prop where
  off : Off fs s t
  seq : (t.ing p).seq = (s.ing p).seq
  ctxs : t.codec.ctxs = s.codec.ctxs
  rest : t.sansIngress = s.sansIngress

namespace IngStep

theorem refl (fs : List Fld) (p : Nat) (s : State) : IngStep fs p s s := ⟨Off.refl _ s, rfl, rfl, rfl⟩

theorem trans {fs : List Fld} {p : Nat} {s t u : State} (h : IngStep fs p s t) (g : IngStep fs p t u) : IngStep fs p s u := ⟨h.off.trans g.off, g.seq.trans h.seq, g.ctxs.trans h.ctxs, g.rest.trans h.rest⟩

theorem mono {fs gs : List Fld} {p : Nat} {s t : State} (h : IngStep fs p s t) (hw : covers gs fs = true) : IngStep gs p s t := ⟨h.off.mono hw, h.seq, h.ctxs, h.rest⟩

theorem dram {fs : List Fld} {p : Nat} {s t : State} (h : IngStep fs p s t) : t.dram = s.dram := (congrArg (fun u : State => u.dram) h.rest :)

theorem writes {fs : List Fld} {p : Nat} {s t : State} (h : Writes fs s t) : IngStep fs p s t :=
  ⟨h.off, by rw [State.ing, h.only.haul]; rfl, congrArg CodecState.ctxs h.only.codec, by rw [h.only]; rfl⟩

theorem setIng (fs : List Fld) {p : Nat} (s : State) {x : IngPort} (hx : x.seq = (s.ing p).seq) : IngStep fs p s (s.setIng p x) :=
  ⟨Off.same rfl, (congrArg IngPort.seq (Tab.get_set_same _ _ _ _)).trans hx, rfl, rfl⟩

end IngStep

@[simp] theorem ing_setIng (s : State) (p : Nat) (x : IngPort) : (s.setIng p x).ing p = x := Tab.get_set_same _ _ _ _

theorem ing_setIng_ne (s : State) {p o : Nat} (x : IngPort) (h : p ≠ o) : (s.setIng o x).ing p = s.ing p := Tab.get_set_ne _ _ _ h

theorem ing_of_haul {s t : State} (h : t.haul = s.haul) (p : Nat) : t.ing p = s.ing p := by rw [State.ing, State.ing, h]

theorem ingCount_writes (s : State) (p k : Nat) : Writes [F.ING_CNT_COUNT, F.ING_CNT_SAT_SAT] s (s.ingCount p k) := ⟨(RegsOnly.refl s).count _ _ _ _ _, (Off.refl _ s).count _ _ _ _ _ rfl rfl⟩

theorem countMissing_writes (s : State) (p n : Nat) : Writes [F.ING_CNT_COUNT, F.ING_CNT_SAT_SAT] s (s.countMissing p n) :=
  ⟨(RegsOnly.refl s).chainAll _ _ fun _ t => (ingCount_writes t p 3).only, (Off.refl _ s).chainAll _ _ fun _ t => (ingCount_writes t p 3).off⟩

-- ## The end of a picture (R339, R340)

/-- The port's picture is closed, before the other ports of its wall are told. -/
def State.pictureClosed (s : State) (p : Nat) (k : IngPic) : State :=
  let t := s.countMissing p (s.ingMissing p k.done).length
  let t := t.setIng p { t.ing p with pic := none, ended := if k.wallPic.isSome then k.wallPic else (t.ing p).ended, closing := false }
  ((t.setF F.ING_STATUS_IN_PICTURE p 0).setF F.ING_STATUS_LINE p (t.ingHeight p - 1)).setF F.ING_EVENT_PICTURE_END p 1

/-- The leader's end gives every other port of its wall ING_CLOSE. -/
def State.othersClose (s : State) (p : Nat) (k : IngPic) : State :=
  if s.fb F.ING_CTRL_LEADER p then
    chainAll ((s.wallIngress (s.f F.ING_CTRL_WALL p)).filter (fun o => decide (o ≠ p) && decide ((s.ing o).ended ≠ k.wallPic))) (fun o t => t.setIng o { t.ing o with closing := true }) s
  else s

theorem endIngPicture_some {s : State} {p : Nat} {k : IngPic} (h : (s.ing p).pic = some k) : s.endIngPicture p = (s.pictureClosed p k).othersClose p k := by
  unfold State.endIngPicture
  rw [h]
  rfl

theorem endIngPicture_none {s : State} {p : Nat} (h : (s.ing p).pic = none) : s.endIngPicture p = s := by
  unfold State.endIngPicture
  rw [h]

theorem pictureClosed_step (s : State) (p : Nat) (k : IngPic) : IngStep ingFields p s (s.pictureClosed p k) ∧ ((s.pictureClosed p k).ing p).pic = none ∧ ((s.pictureClosed p k).ing p).closing = false ∧
    (s.pictureClosed p k).f F.ING_STATUS_IN_PICTURE p = 0 ∧ (s.pictureClosed p k).f F.ING_EVENT_PICTURE_END p = 1 := by
  have hmissing := countMissing_writes s p (s.ingMissing p k.done).length
  unfold State.pictureClosed
  dsimp only
  generalize s.countMissing p (s.ingMissing p k.done).length = t at hmissing ⊢
  have hset := IngStep.setIng ingFields t (p := p) (x := { t.ing p with pic := none, ended := if k.wallPic.isSome then k.wallPic else (t.ing p).ended, closing := false }) rfl
  have hport : ((t.setIng p { t.ing p with pic := none, ended := if k.wallPic.isSome then k.wallPic else (t.ing p).ended, closing := false }).ing p).pic = none ∧
      ((t.setIng p { t.ing p with pic := none, ended := if k.wallPic.isSome then k.wallPic else (t.ing p).ended, closing := false }).ing p).closing = false := by
    rw [ing_setIng]
    exact ⟨rfl, rfl⟩
  generalize (t.setIng p { t.ing p with pic := none, ended := if k.wallPic.isSome then k.wallPic else (t.ing p).ended, closing := false }) = u at hset hport ⊢
  have hwritten : ∀ v, Writes ingFields u (((u.setF F.ING_STATUS_IN_PICTURE p 0).setF F.ING_STATUS_LINE p v).setF F.ING_EVENT_PICTURE_END p 1) := fun v =>
    ⟨(((RegsOnly.refl u).setF _ _ _).setF _ _ _).setF _ _ _, (((Off.refl _ u).setF _ _ _ rfl).setF _ _ _ rfl).setF _ _ _ rfl⟩
  refine ⟨((IngStep.writes hmissing).mono rfl).trans (hset.trans (IngStep.writes (hwritten _))), hport.1, hport.2, ?_, State.f_setF_same _ _ _ _⟩
  simp (disch := decide) only [State.f_setF_code]
  exact State.f_setF_same _ _ _ _

/-- A step for each of a list that keeps a part, keeps it in all. -/
theorem chainAll_keep_mem {α β : Type} (part : State → β) (l : List α) (step : α → State → State) (h : ∀ a ∈ l, ∀ t, part (step a t) = part t) (s : State) : part (chainAll l step s) = part s := by
  unfold chainAll
  induction l generalizing s with
  | nil => rfl
  | cons a l ih => exact (ih (fun b hb => h b (List.mem_cons_of_mem _ hb)) _).trans (h a (List.mem_cons_self ..) s)

theorem othersClose_frame (s : State) (p : Nat) (k : IngPic) : (s.othersClose p k).ing p = s.ing p ∧ (s.othersClose p k).regs = s.regs ∧ (s.othersClose p k).codec = s.codec ∧ (s.othersClose p k).sansIngress = s.sansIngress := by
  unfold State.othersClose
  split
  · refine ⟨chainAll_keep_mem (fun t => t.ing p) _ _ (fun o ho t => ?_) _, chainAll_keep State.regs _ _ (by intro _ _; rfl) _, chainAll_keep State.codec _ _ (by intro _ _; rfl) _, chainAll_keep State.sansIngress _ _ (by intro _ _; rfl) _⟩
    have hne : o ≠ p := of_decide_eq_true (Bool.and_eq_true_iff.mp (List.mem_filter.mp ho).2).1
    exact ing_setIng_ne t _ (Ne.symm hne)
  · exact ⟨rfl, rfl, rfl, rfl⟩

/-- The end of a port's picture. -/
theorem endIngPicture_step (s : State) (p : Nat) : IngStep ingFields p s (s.endIngPicture p) ∧ ((s.endIngPicture p).ing p).pic = none ∧ (s.endIngPicture p).codec = s.codec ∧
    ((s.ing p).pic.isSome = true → ((s.endIngPicture p).ing p).closing = false ∧ (s.endIngPicture p).f F.ING_STATUS_IN_PICTURE p = 0 ∧ (s.endIngPicture p).f F.ING_EVENT_PICTURE_END p = 1) := by
  cases h : (s.ing p).pic with
  | none =>
    rw [endIngPicture_none h]
    exact ⟨IngStep.refl _ p s, h, rfl, by simp⟩
  | some k =>
    obtain ⟨hstep, hpic, hclosing, hin, hend⟩ := pictureClosed_step s p k
    have hcodec : (s.pictureClosed p k).codec = s.codec := by
      have hmissing := countMissing_writes s p (s.ingMissing p k.done).length
      exact hmissing.only.codec
    rw [endIngPicture_some h]
    generalize s.pictureClosed p k = t at hstep hpic hclosing hin hend hcodec ⊢
    obtain ⟨hing, hregs, hsame, hrest⟩ := othersClose_frame t p k
    have hf : ∀ x i, (t.othersClose p k).f x i = t.f x i := fun x i => by rw [State.f, State.f, hregs]
    refine ⟨hstep.trans ⟨Off.same hregs, by rw [hing], by rw [hsame], hrest⟩, by rw [hing]; exact hpic, hsame.trans hcodec, fun _ => ⟨by rw [hing]; exact hclosing, by rw [hf]; exact hin, by rw [hf]; exact hend⟩⟩

end Sys2Proof.Machine

/-! Settles IngressEvents: pictures that begin, lines that arrive, frames and links of an ingress port (R335 to R340). -/

namespace Sys2Proof.Machine

-- ## A picture begins (R340)

/-- A step of port `p` that neither begins nor ends its picture. -/
structure PicStep (fs : List Fld) (p : Nat) (s t : State) : Prop extends IngStep fs p s t where
  pic : (t.ing p).pic.isSome = (s.ing p).pic.isSome

namespace PicStep

theorem refl (fs : List Fld) (p : Nat) (s : State) : PicStep fs p s s := ⟨IngStep.refl fs p s, rfl⟩

theorem trans {fs : List Fld} {p : Nat} {s t u : State} (h : PicStep fs p s t) (g : PicStep fs p t u) : PicStep fs p s u := ⟨h.toIngStep.trans g.toIngStep, g.pic.trans h.pic⟩

theorem mono {fs gs : List Fld} {p : Nat} {s t : State} (h : PicStep fs p s t) (hw : covers gs fs = true) : PicStep gs p s t := ⟨h.toIngStep.mono hw, h.pic⟩

theorem writes {fs : List Fld} {p : Nat} {s t : State} (h : Writes fs s t) : PicStep fs p s t := ⟨IngStep.writes h, by rw [State.ing, h.only.haul]; rfl⟩

theorem chainAll {α : Type} {fs : List Fld} {p : Nat} {s t : State} (h : PicStep fs p s t) (l : List α) (g : α → State → State) (hg : ∀ a u, PicStep fs p u (g a u)) : PicStep fs p s (chainAll l g t) := by
  unfold Sys2Proof.Machine.chainAll
  induction l generalizing t with
  | nil => exact h
  | cons a l ih => exact ih (h.trans (hg a t))

theorem setWall? (fs : List Fld) (p : Nat) (s : State) (w : Nat) (x : Option Wall) : PicStep fs p s (s.setWall? w x) := ⟨⟨Off.same rfl, rfl, rfl, rfl⟩, rfl⟩

/-- A port's entry that keeps the sequence number and the picture's standing. -/
theorem setIng (fs : List Fld) {p o : Nat} (s : State) {x : IngPort} (hseq : x.seq = (s.ing o).seq) (hpic : x.pic.isSome = (s.ing o).pic.isSome) : PicStep fs p s (s.setIng o x) := by
  by_cases h : p = o
  · subst h
    exact ⟨IngStep.setIng fs s hseq, by rw [ing_setIng]; exact hpic⟩
  · exact ⟨⟨Off.same rfl, by rw [ing_setIng_ne s x h], rfl, rfl⟩, by rw [ing_setIng_ne s x h]⟩

end PicStep

theorem assignIng_step (s : State) (o q p : Nat) : PicStep [F.ING_PICTURE_WALL_PICTURE] p s (s.assignIng o q) := by
  unfold State.assignIng
  split
  · exact PicStep.refl _ p s
  · next k hk =>
    have hset := PicStep.setIng [F.ING_PICTURE_WALL_PICTURE] (p := p) (o := o) s (x := { s.ing o with pic := some { k with wallPic := some q } }) rfl (by rw [hk]; rfl)
    exact hset.trans (PicStep.writes ⟨(RegsOnly.refl _).setF _ _ _, (Off.refl _ _).setF _ _ _ rfl⟩)

theorem leaderFirst_step (s : State) (p : Nat) : PicStep [F.ING_PICTURE_WALL_PICTURE] p s (s.leaderFirst p) := by
  unfold State.leaderFirst
  dsimp only
  split
  · exact PicStep.refl _ p s
  · next w _ =>
    refine ((PicStep.setWall? _ p s _ _).trans (assignIng_step _ p _ p)).chainAll _ _ fun o t => ?_
    split
    · split
      · exact assignIng_step t o _ p
      · exact PicStep.refl _ p t
    · exact PicStep.refl _ p t

/-- The port has begun its picture, before the picture is assigned to one of its wall. -/
def State.pictureBegun (s : State) (p : Nat) : State :=
  let e := (s.endIngPicture p).setIng p { (s.endIngPicture p).ing p with pic := some { firstAt := s.now } }
  (e.setF F.ING_STATUS_IN_PICTURE p 1).setF F.ING_STATUS_LINE p 0

theorem pictureBegun_step (s : State) (p : Nat) : IngStep ingFields p s (s.pictureBegun p) ∧ ((s.pictureBegun p).ing p).pic.isSome = true ∧ (s.pictureBegun p).f F.ING_STATUS_IN_PICTURE p = 1 := by
  obtain ⟨hend, -, -, -⟩ := endIngPicture_step s p
  unfold State.pictureBegun
  dsimp only
  generalize s.endIngPicture p = t at hend ⊢
  have hset := IngStep.setIng ingFields t (p := p) (x := { t.ing p with pic := some { firstAt := s.now } }) rfl
  have hpic : ((t.setIng p { t.ing p with pic := some { firstAt := s.now } }).ing p).pic.isSome = true := by rw [ing_setIng]; rfl
  generalize t.setIng p { t.ing p with pic := some { firstAt := s.now } } = u at hset hpic ⊢
  have hwritten : Writes ingFields u ((u.setF F.ING_STATUS_IN_PICTURE p 1).setF F.ING_STATUS_LINE p 0) := ⟨((RegsOnly.refl u).setF _ _ _).setF _ _ _, ((Off.refl _ u).setF _ _ _ rfl).setF _ _ _ rfl⟩
  refine ⟨hend.trans (hset.trans (IngStep.writes hwritten)), hpic, ?_⟩
  simp (disch := decide) only [State.f_setF_code]
  exact State.f_setF_same _ _ _ _

theorem beginIngPicture_step (s : State) (p : Nat) : PicStep [F.ING_PICTURE_WALL_PICTURE] p (s.pictureBegun p) (s.beginIngPicture p) := by
  have hform : s.beginIngPicture p = if (s.pictureBegun p).fb F.ING_CTRL_LEADER p then (s.pictureBegun p).leaderFirst p
      else match (s.pictureBegun p).wall? ((s.pictureBegun p).f F.ING_CTRL_WALL p) with
        | some w => if w.lineTime = 0 then s.pictureBegun p else (s.pictureBegun p).assignIng p w.picture
        | none => s.pictureBegun p := rfl
  rw [hform]
  generalize s.pictureBegun p = t
  split
  · exact leaderFirst_step t p
  · split
    · split
      · exact PicStep.refl _ p t
      · exact assignIng_step t p _ p
    · exact PicStep.refl _ p t

/-- The registers of a picture that begins. -/
def beginFields : List Fld := F.ING_PICTURE_WALL_PICTURE :: ingFields

theorem begun_parts (s : State) (p : Nat) : IngStep beginFields p s (s.beginIngPicture p) ∧ ((s.beginIngPicture p).ing p).pic.isSome = true ∧ (s.beginIngPicture p).f F.ING_STATUS_IN_PICTURE p = 1 := by
  obtain ⟨hbegun, hpic, hin⟩ := pictureBegun_step s p
  have hassigned := beginIngPicture_step s p
  exact ⟨(hbegun.mono rfl).trans (hassigned.toIngStep.mono rfl), hassigned.pic.trans hpic, (hassigned.off.at_ _ _ rfl).trans hin⟩

-- ## A segment of a line (R339)

theorem putLamps_step (fs : List Fld) (q : Nat) (s : State) (p n x line : Nat) (vs : List (List Nat)) : PicStep fs q s (s.putLamps p n x line vs) ∧ (s.putLamps p n x line vs).haul = s.haul ∧ (s.putLamps p n x line vs).regs = s.regs := by
  unfold State.putLamps
  dsimp only
  split
  · exact ⟨PicStep.refl fs q s, rfl, rfl⟩
  · exact ⟨PicStep.setWall? fs q s _ _, rfl, rfl⟩

/-- A picture with the lamps `x` to `x + n − 1` of a line of `width`. -/
def IngPic.withLamps (k : IngPic) (width line x n : Nat) : IngPic :=
  let g := Tab.get 0 k.got line ||| (2 ^ n - 1) * 2 ^ x
  { k with got := Tab.set 0 k.got line g, done := if g = 2 ^ width - 1 ∧ line ∉ k.done then k.done ++ [line] else k.done }

/-- What the arrival of lamps writes. -/
def lineFields : List Fld := [F.ING_CNT_COUNT, F.ING_CNT_SAT_SAT, F.ING_STATUS_LINE]

/-- Port `p` holds the picture `k`. -/
def State.holdPic (s : State) (p : Nat) (k : IngPic) : State := s.setIng p { s.ing p with pic := some k }

theorem holdPic_step {s : State} {p : Nat} (h : (s.ing p).pic.isSome = true) (k : IngPic) : PicStep lineFields p s (s.holdPic p k) ∧ ((s.holdPic p k).ing p).pic = some k ∧ (s.holdPic p k).codec = s.codec := by
  refine ⟨PicStep.setIng lineFields s rfl h.symm, ?_, rfl⟩
  rw [State.holdPic, ing_setIng]

theorem lineArrived_eq {s : State} {p : Nat} {k : IngPic} (h : (s.ing p).pic = some k) (line x n : Nat) : s.lineArrived p line x n =
    if Tab.get 0 k.got line ||| (2 ^ n - 1) * 2 ^ x = 2 ^ s.ingWidth p - 1 ∧ line ∉ k.done then ((s.holdPic p (k.withLamps (s.ingWidth p) line x n)).ingCount p 0).setF F.ING_STATUS_LINE p ((k.withLamps (s.ingWidth p) line x n).done.foldl max 0)
    else s.holdPic p (k.withLamps (s.ingWidth p) line x n) := by
  unfold State.lineArrived
  rw [h]
  dsimp only
  simp only [Bool.and_eq_true, decide_eq_true_eq]
  rfl

theorem lineArrived_some {s : State} {p : Nat} {k : IngPic} (h : (s.ing p).pic = some k) (line x n : Nat) :
    PicStep lineFields p s (s.lineArrived p line x n) ∧ ((s.lineArrived p line x n).ing p).pic = some (k.withLamps (s.ingWidth p) line x n) ∧ (s.lineArrived p line x n).codec = s.codec := by
  obtain ⟨hstep, hpic, hcodec⟩ := holdPic_step (s := s) (p := p) (by rw [h]; rfl) (k.withLamps (s.ingWidth p) line x n)
  rw [lineArrived_eq h]
  generalize s.holdPic p (k.withLamps (s.ingWidth p) line x n) = t at hstep hpic hcodec ⊢
  split
  · have hcount := ingCount_writes t p 0
    have hwritten : ∀ v, Writes lineFields t ((t.ingCount p 0).setF F.ING_STATUS_LINE p v) := fun v => ⟨hcount.only.setF _ _ _, (hcount.off.mono rfl).setF _ _ _ rfl⟩
    have hsame := hwritten ((k.withLamps (s.ingWidth p) line x n).done.foldl max 0)
    exact ⟨hstep.trans (PicStep.writes hsame), by rw [ing_of_haul hsame.only.haul]; exact hpic, hsame.only.codec.trans hcodec⟩
  · exact ⟨hstep, hpic, hcodec⟩

theorem lineArrived_step (s : State) (p line x n : Nat) : PicStep lineFields p s (s.lineArrived p line x n) := by
  cases h : (s.ing p).pic with
  | none =>
    unfold State.lineArrived
    rw [h]
    exact PicStep.refl _ p s
  | some k => exact (lineArrived_some h line x n).1

theorem ingSegment_step (s : State) (p n line x : Nat) (vs : List (List Nat)) : PicStep lineFields p s (s.ingSegment p n line x vs) :=
  (putLamps_step lineFields p s p n x line vs).1.trans (lineArrived_step _ p line x _)

-- ## A frame that passed its checks (R337)

theorem ingSeq_step (s : State) (p q m : Nat) : Off [F.ING_CNT_COUNT, F.ING_CNT_SAT_SAT] s (s.ingSeq p q m) ∧ ((s.ingSeq p q m).ing p).seq = some q ∧ ((s.ingSeq p q m).ing p).pic = (s.ing p).pic ∧ (s.ingSeq p q m).codec = s.codec ∧ (s.ingSeq p q m).dram = s.dram := by
  have hset : Off [F.ING_CNT_COUNT, F.ING_CNT_SAT_SAT] s (s.setIng p { s.ing p with seq := some q }) := Off.same rfl
  have hport : (s.setIng p { s.ing p with seq := some q }).ing p = { s.ing p with seq := some q } := ing_setIng _ _ _
  have hcodec : (s.setIng p { s.ing p with seq := some q }).codec = s.codec := rfl
  have hdram : (s.setIng p { s.ing p with seq := some q }).dram = s.dram := rfl
  unfold State.ingSeq
  dsimp only
  generalize s.setIng p { s.ing p with seq := some q } = t at hset hport hcodec hdram ⊢
  have hcount := ingCount_writes t p 4
  have hcounted : ((t.ingCount p 4).ing p) = { s.ing p with seq := some q } := (ing_of_haul hcount.only.haul p).trans hport
  split
  · split
    · exact ⟨hset, by rw [hport], by rw [hport], hcodec, hdram⟩
    · exact ⟨hset.trans hcount.off, by rw [hcounted], by rw [hcounted], hcount.only.codec.trans hcodec, hcount.only.dram.trans hdram⟩
  · exact ⟨hset, by rw [hport], by rw [hport], hcodec, hdram⟩

/-- The first frame of a picture begins it. -/
def State.frameFirst (s : State) (p : Nat) (b : List Byte) : State := if (byteAt b 0).testBit 3 then (s.beginIngPicture p).setF F.ING_PICTURE_SRC_PICTURE p (beAt b 2 2) else s

/-- The frame's lamps. -/
def State.frameLamps (s : State) (p : Nat) (b : List Byte) : State :=
  s.ingSegment p (depthOf (byteAt b 1 / 64)) (beAt b 4 2) (beAt b 6 2) (unpackLamps (depthOf (byteAt b 1 / 64)) (beAt b 8 2 + 1) (b.drop 16))

/-- The last frame of a picture ends it. -/
def State.frameLast (s : State) (p : Nat) (b : List Byte) : State := if (byteAt b 0).testBit 2 then s.endIngPicture p else s

theorem keepFrame_eq (s : State) (p : Nat) (b : List Byte) : s.keepFrame p b = (((s.frameFirst p b).frameLamps p b).frameLast p b).sourcesOf ((((s.frameFirst p b).frameLamps p b).frameLast p b).f F.ING_CTRL_WALL p) := rfl

/-- The registers of a frame. -/
def frameFields : List Fld := F.ING_PICTURE_SRC_PICTURE :: beginFields

theorem foldBytes_lt (bs : List Byte) (a : Nat) : bs.foldl (fun a b => 256 * a + b.toNat) a < (a + 1) * 256 ^ bs.length := by
  induction bs generalizing a with
  | nil => simp
  | cons b bs ih =>
    have hb : b.toNat < 256 := b.isLt
    calc (b :: bs).foldl (fun a b => 256 * a + b.toNat) a < (256 * a + b.toNat + 1) * 256 ^ bs.length := ih _
      _ ≤ (256 * (a + 1)) * 256 ^ bs.length := Nat.mul_le_mul_right _ (by omega)
      _ = (a + 1) * 256 ^ (b :: bs).length := by rw [List.length_cons, Nat.pow_succ]; ring

theorem beAt_lt (bs : List Byte) (i n : Nat) : beAt bs i n < 256 ^ n := by
  have h := foldBytes_lt (sliceOf bs i n) 0
  rw [Nat.zero_add, Nat.one_mul] at h
  exact Nat.lt_of_lt_of_le h (Nat.pow_le_pow_right (by decide) (by simp [sliceOf]))

theorem frameFirst_step (s : State) (p : Nat) (b : List Byte) : IngStep frameFields p s (s.frameFirst p b) ∧ ((s.ing p).pic.isSome = true ∨ (byteAt b 0).testBit 3 = true → ((s.frameFirst p b).ing p).pic.isSome = true) ∧
    ((byteAt b 0).testBit 3 = true → (s.frameFirst p b).f F.ING_PICTURE_SRC_PICTURE p = beAt b 2 2 ∧ (s.frameFirst p b).f F.ING_STATUS_IN_PICTURE p = 1) := by
  unfold State.frameFirst
  cases hfirst : (byteAt b 0).testBit 3 with
  | false => exact ⟨IngStep.refl _ p s, fun h => h.resolve_right Bool.false_ne_true, fun h => absurd h Bool.false_ne_true⟩
  | true =>
    obtain ⟨hbegun, hpic, hin⟩ := begun_parts s p
    have hsrc : Writes [F.ING_PICTURE_SRC_PICTURE] (s.beginIngPicture p) ((s.beginIngPicture p).setF F.ING_PICTURE_SRC_PICTURE p (beAt b 2 2)) := ⟨(RegsOnly.refl _).setF _ _ _, (Off.refl _ _).setF _ _ _ rfl⟩
    rw [if_pos rfl]
    refine ⟨(hbegun.mono rfl).trans ((IngStep.writes hsrc).mono rfl), fun _ => hpic, fun _ => ⟨(State.f_setF_same _ _ _ _).trans (Nat.mod_eq_of_lt (beAt_lt b 2 2)), (State.f_setF_code _ _ _ _ _ _ (by decide)).trans hin⟩⟩

/-- What a frame that is kept leaves at its port. -/
theorem keepFrame_parts (s : State) (p : Nat) (b : List Byte) (h : (s.ing p).pic.isSome = true ∨ (byteAt b 0).testBit 3 = true) :
    ((s.keepFrame p b).ing p).seq = (s.ing p).seq ∧ ((byteAt b 0).testBit 3 = true → (s.keepFrame p b).f F.ING_PICTURE_SRC_PICTURE p = beAt b 2 2) ∧ ((byteAt b 0).testBit 2 = false → ((s.keepFrame p b).ing p).pic.isSome = true) ∧
      ((byteAt b 0).testBit 2 = true → ((s.keepFrame p b).ing p).pic = none ∧ (s.keepFrame p b).f F.ING_STATUS_IN_PICTURE p = 0 ∧ (s.keepFrame p b).f F.ING_EVENT_PICTURE_END p = 1) := by
  obtain ⟨hfirst, hpic, hsrc⟩ := frameFirst_step s p b
  have hlamps : PicStep lineFields p (s.frameFirst p b) ((s.frameFirst p b).frameLamps p b) := ingSegment_step _ p _ _ _ _
  rw [keepFrame_eq]
  generalize s.frameFirst p b = t at hfirst hpic hsrc hlamps ⊢
  generalize t.frameLamps p b = u at hlamps ⊢
  have hready := sourcesOf_readies (u.frameLast p b) ((u.frameLast p b).f F.ING_CTRL_WALL p)
  generalize hv : (u.frameLast p b).sourcesOf ((u.frameLast p b).f F.ING_CTRL_WALL p) = v at hready ⊢
  have hport : v.ing p = (u.frameLast p b).ing p := ing_of_haul hready.haul p
  have hsome : (u.ing p).pic.isSome = true := hlamps.pic.trans (hpic h)
  have hseq : (u.ing p).seq = (s.ing p).seq := hlamps.seq.trans hfirst.seq
  have hsrcU : (byteAt b 0).testBit 3 = true → u.f F.ING_PICTURE_SRC_PICTURE p = beAt b 2 2 := fun hf => (hlamps.off.at_ _ _ rfl).trans (hsrc hf).1
  obtain ⟨hend, hnone, -, hended⟩ := endIngPicture_step u p
  rw [hport]
  unfold State.frameLast at hready ⊢
  cases hlast : (byteAt b 0).testBit 2 with
  | false =>
    rw [hlast, if_neg Bool.false_ne_true] at hready
    rw [if_neg Bool.false_ne_true]
    exact ⟨hseq, fun hf => (hready.off.at_ _ _ rfl).trans (hsrcU hf), fun _ => hsome, fun h => absurd h Bool.false_ne_true⟩
  | true =>
    rw [hlast, if_pos rfl] at hready
    rw [if_pos rfl]
    obtain ⟨-, hin, hevent⟩ := hended hsome
    exact ⟨hend.seq.trans hseq, fun hf => (hready.off.at_ _ _ rfl).trans ((hend.off.at_ _ _ rfl).trans (hsrcU hf)), fun h => absurd h.symm Bool.false_ne_true, fun _ => ⟨hnone, (hready.off.at_ _ _ rfl).trans hin, (hready.off.at_ _ _ rfl).trans hevent⟩⟩

-- ## PIXEL_FRAME_RECEIVE (R230, R337)

theorem exec_pixelFrame {p : Nat} (hp : p < 8) (f : List Byte) (err : Bool) (s : State) : exec (.pixelFrameReceive p f err) s = .next (s.pixelFrame p f err) := onInstance_of (decide_eq_true hp) _

/-- The port takes pixel frames. -/
structure PixelsOn (s : State) (p : Nat) : Prop where
  en : s.f F.ING_CTRL_EN p = 1
  mode : s.ingMode p = 0
  link : s.f F.ING_STATUS_LINK p = 1
  fatal : s.fatal = false

theorem pixelFrame_off {s : State} {p : Nat} (f : List Byte) (err : Bool) (h : s.f F.ING_CTRL_EN p ≠ 1 ∨ s.ingMode p ≠ 0 ∨ s.f F.ING_STATUS_LINK p ≠ 1 ∨ s.fatal = true) : s.pixelFrame p f err = s := by
  refine if_pos ?_
  rcases h with h | h | h | h
  · exact .inl (decide_eq_false h)
  · exact .inr (.inl h)
  · exact .inr (.inr (.inl (decide_eq_false h)))
  · exact .inr (.inr (.inr h))

theorem pixelFrame_on {s : State} {p : Nat} (h : PixelsOn s p) (f : List Byte) (err : Bool) : s.pixelFrame p f err = if lineFrameMax < f.length then s.ingDrop p 5
    else if err then s.ingDrop p 2
    else if s.portBlind fnIngress p || decide (f.length < 4) || decide (beAt f (f.length - 4) 4 ≠ crc32 (f.take (f.length - 4))) then s.ingDrop p 1
    else if !s.lineFrameOk p (f.take (f.length - 4)) || ((s.ing p).pic.isNone && !(byteAt (f.take (f.length - 4)) 0).testBit 3) then (s.setIng p { s.ing p with seq := some (beAt (f.take (f.length - 4)) 10 4) }).ingDrop p 5
    else (s.ingSeq p (beAt (f.take (f.length - 4)) 10 4) (2 ^ 32)).keepFrame p (f.take (f.length - 4)) := by
  refine if_neg ?_
  have hen : s.fb F.ING_CTRL_EN p = true := decide_eq_true h.en
  have hlink : s.fb F.ING_STATUS_LINK p = true := decide_eq_true h.link
  rw [hen, hlink, h.mode, h.fatal]
  simp

theorem sets_ingDrop (s : State) (p k : Nat) : Sets s (s.counted F.ING_CNT_COUNT (8 * p + k) F.ING_CNT_SAT_SAT p k ++ [(F.ING_EVENT_ERROR, p, 1)]) (s.ingDrop p k) := by
  refine (sets_count s (8 * p + k) p k rfl).putNew F.ING_EVENT_ERROR p 1 ?_ (by decide)
  unfold State.counted
  split <;> rfl

/-- A frame whose body passes. -/
structure SoundFrame (s : State) (p : Nat) (f b : List Byte) : Prop where
  blind : s.portBlind fnIngress p = false
  lo : 4 ≤ f.length
  hi : f.length ≤ 24596
  body : b = f.take (f.length - 4)
  crc : beAt f (f.length - 4) 4 = crc32 b

theorem pixelFrame_sound {s : State} {p : Nat} {f b : List Byte} (h : PixelsOn s p) (hf : SoundFrame s p f b) : s.pixelFrame p f false =
    if !s.lineFrameOk p b || ((s.ing p).pic.isNone && !(byteAt b 0).testBit 3) then (s.setIng p { s.ing p with seq := some (beAt b 10 4) }).ingDrop p 5 else (s.ingSeq p (beAt b 10 4) (2 ^ 32)).keepFrame p b := by
  have hlo := hf.lo
  have hhi := hf.hi
  have hcrc := hf.crc
  rw [hf.body] at hcrc ⊢
  rw [pixelFrame_on h, if_neg (by show ¬ 24596 < f.length; omega), if_neg Bool.false_ne_true, hf.blind, hcrc]
  refine if_neg ?_
  simp only [ne_eq, not_true_eq_false, decide_false, Bool.false_or, Bool.or_false, decide_eq_true_eq]
  omega

theorem pixelFrame_kept {s : State} {p : Nat} {f b : List Byte} (h : PixelsOn s p) (hf : SoundFrame s p f b) (hok : s.lineFrameOk p b = true) (hpic : (s.ing p).pic.isSome = true ∨ (byteAt b 0).testBit 3 = true) :
    s.pixelFrame p f false = (s.ingSeq p (beAt b 10 4) (2 ^ 32)).keepFrame p b := by
  rw [pixelFrame_sound h hf]
  refine if_neg ?_
  rw [hok]
  rcases hpic with hpic | hpic
  · cases hk : (s.ing p).pic with
    | none => rw [hk] at hpic; exact absurd hpic (by decide)
    | some k => simp
  · simp [hpic]

theorem pixelFrame_dropped {s : State} {p k : Nat} {f : List Byte} {err : Bool} (h : PixelsOn s p)
    (hk : (k = 5 ∧ 24596 < f.length) ∨ (k = 2 ∧ f.length ≤ 24596 ∧ err = true) ∨ (k = 1 ∧ f.length ≤ 24596 ∧ err = false ∧ (s.portBlind fnIngress p = true ∨ f.length < 4 ∨ beAt f (f.length - 4) 4 ≠ crc32 (f.take (f.length - 4))))) :
    s.pixelFrame p f err = s.ingDrop p k := by
  have hmax : lineFrameMax = 24596 := rfl
  rw [pixelFrame_on h, hmax]
  rcases hk with ⟨rfl, hlen⟩ | ⟨rfl, hlen, rfl⟩ | ⟨rfl, hlen, rfl, hbad⟩
  · exact if_pos hlen
  · exact (if_neg (by omega)).trans (if_pos rfl)
  · refine (if_neg (by omega)).trans ((if_neg Bool.false_ne_true).trans (if_pos ?_))
    rcases hbad with hbad | hbad | hbad <;> simp [hbad]

theorem pixelFrame_malformed {s : State} {p : Nat} {f b : List Byte} (h : PixelsOn s p) (hf : SoundFrame s p f b) (hbad : s.lineFrameOk p b = false ∨ ((s.ing p).pic = none ∧ (byteAt b 0).testBit 3 = false)) :
    s.pixelFrame p f false = (s.setIng p { s.ing p with seq := some (beAt b 10 4) }).ingDrop p 5 := by
  rw [pixelFrame_sound h hf]
  refine if_pos ?_
  rcases hbad with hbad | ⟨hpic, hfirst⟩
  · rw [hbad]
    rfl
  · rw [hpic, hfirst]
    simp

/-- A frame that begins a picture, without contexts. -/
theorem keepFrame_first {s : State} {p : Nat} {b : List Byte} (hfirst : (byteAt b 0).testBit 3 = true) (hlast : (byteAt b 0).testBit 2 = false) (hctx : s.codec.ctxs = []) :
    (s.keepFrame p b).f F.ING_STATUS_IN_PICTURE p = 1 ∧ (s.keepFrame p b).dram = s.dram := by
  obtain ⟨hbegun, -, hwritten⟩ := frameFirst_step s p b
  have hlamps : PicStep lineFields p (s.frameFirst p b) ((s.frameFirst p b).frameLamps p b) := ingSegment_step _ p _ _ _ _
  have hnone : ((s.frameFirst p b).frameLamps p b).codec.ctxs = [] := hlamps.ctxs.trans (hbegun.ctxs.trans hctx)
  have hend : ((s.frameFirst p b).frameLamps p b).frameLast p b = (s.frameFirst p b).frameLamps p b := if_neg (by rw [hlast]; exact Bool.false_ne_true)
  rw [keepFrame_eq, hend, sourcesOf_none _ hnone]
  exact ⟨(hlamps.off.at_ _ _ rfl).trans (hwritten hfirst).2, hlamps.toIngStep.dram.trans hbegun.dram⟩

theorem unpackLamps_length (n k : Nat) (bs : List Byte) : (unpackLamps n k bs).length = k := by simp [unpackLamps]

/-- A frame within a picture, without contexts: its lamps reach the wall and its line. -/
theorem keepFrame_within {s : State} {p : Nat} {b : List Byte} {k : IngPic} (hfirst : (byteAt b 0).testBit 3 = false) (hlast : (byteAt b 0).testBit 2 = false) (hctx : s.codec.ctxs = []) (hk : (s.ing p).pic = some k) :
    ((s.keepFrame p b).ing p).pic = some (k.withLamps (s.ingWidth p) (beAt b 4 2) (beAt b 6 2) (beAt b 8 2 + 1)) ∧
      (s.keepFrame p b).codec = (s.putLamps p (depthOf (byteAt b 1 / 64)) (beAt b 6 2) (beAt b 4 2) (unpackLamps (depthOf (byteAt b 1 / 64)) (beAt b 8 2 + 1) (b.drop 16))).codec ∧ (s.keepFrame p b).dram = s.dram ∧ Off lineFields s (s.keepFrame p b) := by
  have hbegin : s.frameFirst p b = s := if_neg (by rw [hfirst]; exact Bool.false_ne_true)
  have hlamps : PicStep lineFields p s (s.frameLamps p b) := ingSegment_step _ p _ _ _ _
  have hend : (s.frameLamps p b).frameLast p b = s.frameLamps p b := if_neg (by rw [hlast]; exact Bool.false_ne_true)
  rw [keepFrame_eq, hbegin, hend, sourcesOf_none _ (hlamps.ctxs.trans hctx)]
  obtain ⟨-, hhaul, hregs⟩ := putLamps_step lineFields p s p (depthOf (byteAt b 1 / 64)) (beAt b 6 2) (beAt b 4 2) (unpackLamps (depthOf (byteAt b 1 / 64)) (beAt b 8 2 + 1) (b.drop 16))
  obtain ⟨-, hpic, hcodec⟩ := lineArrived_some (s := s.putLamps p (depthOf (byteAt b 1 / 64)) (beAt b 6 2) (beAt b 4 2) (unpackLamps (depthOf (byteAt b 1 / 64)) (beAt b 8 2 + 1) (b.drop 16))) (p := p) (k := k)
    (by rw [ing_of_haul hhaul]; exact hk) (beAt b 4 2) (beAt b 6 2) (unpackLamps (depthOf (byteAt b 1 / 64)) (beAt b 8 2 + 1) (b.drop 16)).length
  have hwidth : (s.putLamps p (depthOf (byteAt b 1 / 64)) (beAt b 6 2) (beAt b 4 2) (unpackLamps (depthOf (byteAt b 1 / 64)) (beAt b 8 2 + 1) (b.drop 16))).ingWidth p = s.ingWidth p := by rw [State.ingWidth, State.ingWidth, State.f, State.f, hregs]
  rw [hwidth] at hpic
  rw [unpackLamps_length] at hpic hcodec
  refine ⟨?_, ?_, hlamps.toIngStep.dram, hlamps.off⟩
  · unfold State.frameLamps State.ingSegment
    rw [unpackLamps_length]
    exact hpic
  · unfold State.frameLamps State.ingSegment
    rw [unpackLamps_length]
    exact hcodec

end Sys2Proof.Machine

/-! Settles IngressEvents: pictures that are closed, links, and the clauses together (R328, R335 to R340). -/

namespace Sys2Proof.Machine

-- ## ING_CLOSE_EXPIRE (R340)

theorem exec_ingClose {p : Nat} (hp : p < 8) (s : State) : exec (.ingCloseExpire p) s = .next (s.ingClose p) := onInstance_of (decide_eq_true hp) _

/-- The port without a picture has the wall's present picture missing. -/
def State.missedClosed (s : State) (p : Nat) : State :=
  ((s.countMissing p (s.ingHeight p)).setIng p { s.ing p with closing := false, ended := some (s.wall (s.f F.ING_CTRL_WALL p)).picture }).setF F.ING_EVENT_CLOSED p 1

theorem ingClose_eq {s : State} {p : Nat} (h : (s.ing p).closing = true) : s.ingClose p =
    if (s.ing p).pic.isSome then ((s.endIngPicture p).setF F.ING_EVENT_CLOSED p 1).sourcesOf (s.f F.ING_CTRL_WALL p) else (s.missedClosed p).sourcesOf ((s.countMissing p (s.ingHeight p)).f F.ING_CTRL_WALL p) := by
  unfold State.ingClose
  dsimp only
  rw [h]
  rfl

/-- The registers of a close. -/
def closeFields : List Fld := ingFields ++ [F.ING_EVENT_CLOSED]

/-- What a close leaves, before encode contexts take what has arrived. -/
structure Closes (s : State) (p : Nat) (t : State) : Prop where
  off : Off closeFields s t
  pic : (t.ing p).pic = none
  closing : (t.ing p).closing = false
  event : t.f F.ING_EVENT_CLOSED p = 1
  ended : (s.ing p).pic.isSome = true → t.f F.ING_STATUS_IN_PICTURE p = 0 ∧ t.f F.ING_EVENT_PICTURE_END p = 1
  ctxs : t.codec.ctxs = s.codec.ctxs

theorem closes_picture {s : State} {p : Nat} (h : (s.ing p).pic.isSome = true) : Closes s p ((s.endIngPicture p).setF F.ING_EVENT_CLOSED p 1) := by
  obtain ⟨hend, hpic, -, hended⟩ := endIngPicture_step s p
  obtain ⟨hclosing, hin, hevent⟩ := hended h
  generalize s.endIngPicture p = t at hend hpic hclosing hin hevent ⊢
  exact ⟨(hend.off.mono rfl).setF _ _ _ rfl, hpic, hclosing, State.f_setF_same _ _ _ _, fun _ => ⟨(State.f_setF_code _ _ _ _ _ _ (by decide)).trans hin, (State.f_setF_code _ _ _ _ _ _ (by decide)).trans hevent⟩, hend.ctxs⟩

theorem closes_missed {s : State} {p : Nat} (h : (s.ing p).pic = none) : Closes s p (s.missedClosed p) := by
  have hmissing := countMissing_writes s p (s.ingHeight p)
  unfold State.missedClosed
  generalize s.countMissing p (s.ingHeight p) = t at hmissing ⊢
  have hport : (t.setIng p { s.ing p with closing := false, ended := some (s.wall (s.f F.ING_CTRL_WALL p)).picture }).ing p = { s.ing p with closing := false, ended := some (s.wall (s.f F.ING_CTRL_WALL p)).picture } := ing_setIng _ _ _
  have hregs : (t.setIng p { s.ing p with closing := false, ended := some (s.wall (s.f F.ING_CTRL_WALL p)).picture }).regs = t.regs := rfl
  have hcodec : (t.setIng p { s.ing p with closing := false, ended := some (s.wall (s.f F.ING_CTRL_WALL p)).picture }).codec = s.codec := hmissing.only.codec
  generalize t.setIng p { s.ing p with closing := false, ended := some (s.wall (s.f F.ING_CTRL_WALL p)).picture } = u at hport hregs hcodec ⊢
  have hev : (u.setF F.ING_EVENT_CLOSED p 1).ing p = u.ing p := rfl
  exact ⟨((hmissing.off.trans (Off.same hregs)).mono rfl).setF _ _ _ rfl, by rw [hev, hport]; exact h, by rw [hev, hport], State.f_setF_same _ _ _ _, fun hs => absurd hs (by rw [h]; decide), congrArg CodecState.ctxs hcodec⟩

theorem closes_taken {s t : State} {p : Nat} (h : Closes s p t) (w : Nat) :
    ((t.sourcesOf w).ing p).pic = none ∧ ((t.sourcesOf w).ing p).closing = false ∧ (t.sourcesOf w).f F.ING_EVENT_CLOSED p = 1 ∧
      (s.ing p).pic.all (fun _ => decide ((t.sourcesOf w).f F.ING_STATUS_IN_PICTURE p = 0) && decide ((t.sourcesOf w).f F.ING_EVENT_PICTURE_END p = 1)) = true ∧ (s.codec.ctxs = [] → Off closeFields s (t.sourcesOf w)) := by
  have hready := sourcesOf_readies t w
  have hport := ing_of_haul hready.haul p
  refine ⟨by rw [hport]; exact h.pic, by rw [hport]; exact h.closing, (hready.off.at_ _ _ rfl).trans h.event, ?_, fun hctx => ?_⟩
  · cases hpic : (s.ing p).pic with
    | none => rfl
    | some k =>
      obtain ⟨hin, hevent⟩ := h.ended (by rw [hpic]; rfl)
      rw [← hready.off.at_ F.ING_STATUS_IN_PICTURE p rfl] at hin
      rw [← hready.off.at_ F.ING_EVENT_PICTURE_END p rfl] at hevent
      simp [hin, hevent]
  · rw [sourcesOf_none w (h.ctxs.trans hctx)]
    exact h.off

/-- A picture that does not end in time is ended. -/
theorem ingClose_parts {s : State} {p : Nat} (hp : p < 8) (h : (s.ing p).closing = true) :
    ∃ t, exec (.ingCloseExpire p) s = .next t ∧ (t.ing p).pic = none ∧ (t.ing p).closing = false ∧ t.f F.ING_EVENT_CLOSED p = 1 ∧
      (s.ing p).pic.all (fun _ => decide (t.f F.ING_STATUS_IN_PICTURE p = 0) && decide (t.f F.ING_EVENT_PICTURE_END p = 1)) = true ∧ (s.codec.ctxs = [] → Off closeFields s t) := by
  have hexec := (exec_ingClose hp s).trans (congrArg Host.Outcome.next (ingClose_eq h))
  cases hpic : (s.ing p).pic with
  | none =>
    rw [hpic] at hexec
    have hparts := closes_taken (closes_missed hpic) ((s.countMissing p (s.ingHeight p)).f F.ING_CTRL_WALL p)
    rw [hpic] at hparts
    exact ⟨_, hexec, hparts⟩
  | some k =>
    rw [hpic] at hexec
    have hparts := closes_taken (closes_picture (s := s) (p := p) (by rw [hpic]; rfl)) (s.f F.ING_CTRL_WALL p)
    rw [hpic] at hparts
    exact ⟨_, hexec, hparts⟩

-- ## Links (R328, R335)

theorem exec_pixelLoss {p : Nat} (hp : p < 8) (s : State) : exec (.pixelLinkLoss p) s = .next (s.pixelLoss p) := onInstance_of (decide_eq_true hp) _

theorem exec_pixelUp {p : Nat} (hp : p < 8) (s : State) : exec (.pixelLinkUp p) s = .next (s.pixelUp p) := onInstance_of (decide_eq_true hp) _

/-- A port that is up goes down, and its loss is counted. -/
theorem sets_pixelDown {s : State} {p : Nat} (h : s.f F.ING_STATUS_LINK p = 1) :
    Sets s (s.counted F.ING_CNT_COUNT (8 * p + 7) F.ING_CNT_SAT_SAT p 7 ++ [(F.ING_STATUS_LINK, p, 0), (F.ING_STATUS_ALIGNED, p, 0), (F.ING_EVENT_LOSS, p, 1)]) (s.pixelDown p) := by
  have hdown : s.pixelDown p = (((s.setF F.ING_STATUS_LINK p 0).setF F.ING_STATUS_ALIGNED p 0).ingCount p 7).setF F.ING_EVENT_LOSS p 1 := if_pos (decide_eq_true h)
  have hfirst := ((Sets.refl s).putNew F.ING_STATUS_LINK p 0 rfl (by decide)).putNew F.ING_STATUS_ALIGNED p 0 rfl (by decide)
  have hcounted : ((s.setF F.ING_STATUS_LINK p 0).setF F.ING_STATUS_ALIGNED p 0).counted F.ING_CNT_COUNT (8 * p + 7) F.ING_CNT_SAT_SAT p 7 = s.counted F.ING_CNT_COUNT (8 * p + 7) F.ING_CNT_SAT_SAT p 7 := by
    unfold State.counted
    simp (disch := decide) only [State.f_setF_code]
  have hcount := sets_count ((s.setF F.ING_STATUS_LINK p 0).setF F.ING_STATUS_ALIGNED p 0) (x := F.ING_CNT_COUNT) (8 * p + 7) (y := F.ING_CNT_SAT_SAT) p 7 rfl
  have hlast := hcount.putNew F.ING_EVENT_LOSS p 1 (by unfold State.counted; split <;> rfl) (by decide)
  rw [hcounted] at hlast
  rw [hdown]
  refine (hfirst.append hlast (by unfold State.counted; split <;> rfl)).perm fun e => ?_
  simp only [List.mem_append, List.mem_cons, List.not_mem_nil, or_false]
  tauto

theorem sets_pixelUp {s : State} {p : Nat} (hen : s.f F.ING_CTRL_EN p = 1) (hmode : s.ingMode p = 0) (hok : s.ingLanesOk p = true) (hsync : s.lanesSynced fnIngress p = true) :
    Sets s [(F.ING_STATUS_LINK, p, 1), (F.ING_STATUS_ALIGNED, p, 1)] (s.pixelUp p) := by
  have hup : s.pixelUp p = (s.setF F.ING_STATUS_LINK p 1).setF F.ING_STATUS_ALIGNED p 1 := if_pos (by simp [State.fb, hen, hmode, hok, hsync])
  rw [hup]
  exact ((Sets.refl s).putNew F.ING_STATUS_LINK p 1 rfl (by decide)).putNew F.ING_STATUS_ALIGNED p 1 rfl (by decide)

theorem pixelUp_stays {s : State} {p : Nat} (h : s.f F.ING_CTRL_EN p ≠ 1 ∨ s.ingMode p ≠ 0 ∨ s.ingLanesOk p = false ∨ s.lanesSynced fnIngress p = false) : s.pixelUp p = s := by
  refine if_neg ?_
  rcases h with h | h | h | h <;> simp [State.fb, h]

theorem pixelLoss_stays {s : State} {p : Nat} (h : s.portBlind fnIngress p = true ∨ s.f F.ING_STATUS_LINK p ≠ 1) : s.pixelLoss p = s := by
  unfold State.pixelLoss
  split
  · rfl
  · next hb => exact if_neg fun hl => (h.resolve_left hb) (of_decide_eq_true hl)

/-- Where lamps go rests on the port's wall and region and on the wall alone. -/
theorem putLamps_codec {s u : State} {p : Nat} {fs : List Fld} (h : Off fs s u) (hx : [F.ING_CTRL_WALL, F.ING_REGION_POS_X_OFF, F.ING_REGION_POS_Y_OFF].all (fun x => fs.all (fun y => x.code != y.code)) = true) (hc : u.codec = s.codec)
    (n x line : Nat) (vs : List (List Nat)) : (u.putLamps p n x line vs).codec = (s.putLamps p n x line vs).codec := by
  have hat : ∀ x ∈ [F.ING_CTRL_WALL, F.ING_REGION_POS_X_OFF, F.ING_REGION_POS_Y_OFF], u.f x p = s.f x p := fun x hm => h.at_ x p (List.all_eq_true.mp hx x hm)
  have hwall : ∀ w, u.wall? w = s.wall? w := fun w => by rw [State.wall?, State.wall?, hc]
  unfold State.putLamps
  dsimp only
  rw [hat F.ING_CTRL_WALL (by simp), hat F.ING_REGION_POS_X_OFF (by simp), hat F.ING_REGION_POS_Y_OFF (by simp), hwall]
  split
  · exact hc
  · rw [State.setWall?, State.setWall?, State.withCodec, State.withCodec, hc]

/-- Settles O58: the clauses in their order, each by what a frame, a close or a link does. -/
theorem ingressEvents : Obligations.IngressEvents := by
  unfold Obligations.IngressEvents
  refine ⟨fun s p f err hp h => (exec_pixelFrame hp f err s).trans (congrArg Host.Outcome.next (pixelFrame_off f err h)), fun s p k f err hp hen hmode hlink hfatal hk => ⟨_, (exec_pixelFrame hp f err s).trans (congrArg Host.Outcome.next (pixelFrame_dropped ⟨hen, hmode, hlink, hfatal⟩ hk)), sets_ingDrop s p k⟩,
    fun s p f b hp hen hmode hlink hfatal hblind hlo hhi hb hcrc hbad => ⟨_, (exec_pixelFrame hp f false s).trans (congrArg Host.Outcome.next (pixelFrame_malformed ⟨hen, hmode, hlink, hfatal⟩ ⟨hblind, hlo, hhi, hb, hcrc⟩ hbad)), sets_ingDrop _ p 5⟩,
    fun s p f b hp hen hmode hlink hfatal hblind hlo hhi hb hcrc hok hpic => ?_, fun s p f b hp hen hmode hlink hfatal hblind hlo hhi hb hcrc hok hfirst hlast hctx => ?_,
    fun s p n line x m g f b k hp hen hmode hlink hfatal hblind hlo hhi hb hcrc hok hfirst hlast hctx hk hn hline hx hm hg => ?_, fun s p hp h => (exec_ingClose hp s).trans (congrArg Host.Outcome.next (if_pos (by rw [h]; rfl))), fun s p hp h => ingClose_parts hp h,
    fun s p hp h => (exec_pixelLoss hp s).trans (congrArg Host.Outcome.next (pixelLoss_stays h)), fun s p hp hb hl => ⟨_, (exec_pixelLoss hp s).trans (congrArg Host.Outcome.next (if_neg (by rw [hb]; exact Bool.false_ne_true))), sets_pixelDown hl⟩,
    fun s p hp hen hmode hok hsync => ⟨_, exec_pixelUp hp s, sets_pixelUp hen hmode hok hsync⟩, fun s p hp h => (exec_pixelUp hp s).trans (congrArg Host.Outcome.next (pixelUp_stays h))⟩
  · obtain ⟨-, hseq, hkept, -⟩ := ingSeq_step s p (beAt b 10 4) (2 ^ 32)
    obtain ⟨hsame, hsrc, hstays, hends⟩ := keepFrame_parts (s.ingSeq p (beAt b 10 4) (2 ^ 32)) p b (by rw [hkept]; exact hpic)
    exact ⟨_, (exec_pixelFrame hp f false s).trans (congrArg Host.Outcome.next (pixelFrame_kept ⟨hen, hmode, hlink, hfatal⟩ ⟨hblind, hlo, hhi, hb, hcrc⟩ hok hpic)), hsame.trans hseq, hsrc, hstays, hends⟩
  · obtain ⟨-, hseq, hkept, hcodec, hdram⟩ := ingSeq_step s p (beAt b 10 4) (2 ^ 32)
    obtain ⟨hsame, hsrc, hstays, -⟩ := keepFrame_parts (s.ingSeq p (beAt b 10 4) (2 ^ 32)) p b (.inr hfirst)
    obtain ⟨hin, hmem⟩ := keepFrame_first (s := s.ingSeq p (beAt b 10 4) (2 ^ 32)) (p := p) hfirst hlast (by rw [hcodec]; exact hctx)
    exact ⟨_, (exec_pixelFrame hp f false s).trans (congrArg Host.Outcome.next (pixelFrame_kept ⟨hen, hmode, hlink, hfatal⟩ ⟨hblind, hlo, hhi, hb, hcrc⟩ hok (.inr hfirst))), hin, hsrc hfirst, hstays hlast, hsame.trans hseq, hmem.trans hdram⟩
  · subst hn hline hx hm hg
    obtain ⟨hoff, -, hkept, hcodec, hdram⟩ := ingSeq_step s p (beAt b 10 4) (2 ^ 32)
    have hsome : (s.ing p).pic.isSome = true := by rw [hk]; rfl
    obtain ⟨hpic, hwall, hmem, hwritten⟩ := keepFrame_within (s := s.ingSeq p (beAt b 10 4) (2 ^ 32)) (p := p) (b := b) (k := k) hfirst hlast (by rw [hcodec]; exact hctx) (hkept.trans hk)
    have hwidth : (s.ingSeq p (beAt b 10 4) (2 ^ 32)).ingWidth p = s.f F.ING_REGION_SIZE_WIDTH p := hoff.at_ _ _ rfl
    refine ⟨_, (exec_pixelFrame hp f false s).trans (congrArg Host.Outcome.next (pixelFrame_kept ⟨hen, hmode, hlink, hfatal⟩ ⟨hblind, hlo, hhi, hb, hcrc⟩ hok (.inl hsome))), ?_, hwall.trans ?_, hmem.trans hdram, (hoff.mono rfl).trans hwritten⟩
    · rw [hpic, hwidth]
      rfl
    · exact putLamps_codec hoff rfl hcodec _ _ _ _

end Sys2Proof.Machine

/-! Lanes: calibration, its end and its abort, and the ports that a change of the lane map takes down (R323 to R333, R342). -/

namespace Sys2Proof.Machine

-- ## Calibration of a lane (R329, R330)

/-- The part without its registers and firmware's own state. -/
def State.sansFw (s : State) : State := { s with regs := [], fw := {} }

theorem endJob_sansFw (s : State) (n : Nat) (ok : Bool) (st : Nat) : (s.endJob n ok st).sansFw = s.sansFw := by
  unfold State.endJob
  split <;> rfl

theorem sansFw_of_regsOnly {s t : State} (h : RegsOnly s t) : t.sansFw = s.sansFw := by
  rw [h]
  rfl

theorem endRecal_frame (s : State) (n : Nat) (ok : Bool) : Off [F.MBX_STATUS_JOB_DONE] s (s.endRecal n ok) ∧ (s.endRecal n ok).sansFw = s.sansFw :=
  ⟨(Off.refl _ s).chainAll _ _ fun _ t => (Off.refl _ t).endJob _ _ _ rfl, chainAll_keep State.sansFw _ _ (fun _ t => endJob_sansFw t _ _ _) _⟩

/-- The registers of CAL and what follows it. -/
def calFields : List Fld := [F.LANE_STATUS_CAL, F.LMP_PORT_STATUS_RX_CAL, F.CAL_STATUS_BUSY]

/-- CAL of a lane and of its lamp port, before BUSY follows. -/
def State.calShown (s : State) (n v : Nat) : State :=
  if (s.setF F.LANE_STATUS_CAL n v).laneFunc n = fnLamp ∧ (s.setF F.LANE_STATUS_CAL n v).lanePort n < 48 then (s.setF F.LANE_STATUS_CAL n v).setF F.LMP_PORT_STATUS_RX_CAL ((s.setF F.LANE_STATUS_CAL n v).lanePort n) v else s.setF F.LANE_STATUS_CAL n v

theorem setCal_eq (s : State) (n v : Nat) : s.setCal n v = (s.calShown n v).setF F.CAL_STATUS_BUSY 0 (if (List.range 60).any (fun l => (s.calShown n v).fb F.LANE_STATUS_CAL l) then 1 else 0) := rfl

theorem calShown_eq (s : State) (n v : Nat) : s.calShown n v = if s.laneFunc n = fnLamp ∧ s.lanePort n < 48 then (s.setF F.LANE_STATUS_CAL n v).setF F.LMP_PORT_STATUS_RX_CAL (s.lanePort n) v else s.setF F.LANE_STATUS_CAL n v := by
  have hfunc : (s.setF F.LANE_STATUS_CAL n v).laneFunc n = s.laneFunc n := State.f_setF_code _ _ _ _ _ _ (by decide)
  have hport : (s.setF F.LANE_STATUS_CAL n v).lanePort n = s.lanePort n := State.f_setF_code _ _ _ _ _ _ (by decide)
  rw [State.calShown, hfunc, hport]

theorem calShown_writes (s : State) (n v : Nat) : Writes calFields s (s.calShown n v) := by
  rw [calShown_eq]
  split
  · exact ⟨((RegsOnly.refl s).setF _ _ _).setF _ _ _, ((Off.refl _ s).setF _ _ _ rfl).setF _ _ _ rfl⟩
  · exact ⟨(RegsOnly.refl s).setF _ _ _, (Off.refl _ s).setF _ _ _ rfl⟩

theorem calShown_cal (s : State) (n v l : Nat) (hv : v < 2) : (s.calShown n v).f F.LANE_STATUS_CAL l = if l = n then v else s.f F.LANE_STATUS_CAL l := by
  have hset : (s.setF F.LANE_STATUS_CAL n v).f F.LANE_STATUS_CAL l = if l = n then v else s.f F.LANE_STATUS_CAL l := by
    by_cases h : l = n
    · rw [if_pos h, h, State.f_setF_same]
      exact Nat.mod_eq_of_lt hv
    · rw [if_neg h, f_setF_otherInst _ _ _ _ h]
  rw [calShown_eq]
  split
  · rw [State.f_setF_code _ _ _ _ _ _ (by decide)]
    exact hset
  · exact hset

theorem calShown_lamp {s : State} {n v : Nat} (hv : v < 2) (hf : s.laneFunc n = fnLamp) (hp : s.lanePort n < 48) : (s.calShown n v).f F.LMP_PORT_STATUS_RX_CAL (s.lanePort n) = v := by
  rw [calShown_eq, if_pos ⟨hf, hp⟩, State.f_setF_same]
  exact Nat.mod_eq_of_lt hv

theorem setCal_writes (s : State) (n v : Nat) : Writes calFields s (s.setCal n v) := by
  have h := calShown_writes s n v
  rw [setCal_eq]
  generalize s.calShown n v = t at h ⊢
  exact ⟨h.only.setF _ _ _, h.off.setF _ _ _ rfl⟩

theorem setCal_cal (s : State) (n v : Nat) (hv : v < 2) : (s.setCal n v).f F.LANE_STATUS_CAL n = v := by
  rw [setCal_eq, State.f_setF_code _ _ _ _ _ _ (by decide), calShown_cal s n v n hv, if_pos rfl]

/-- The registers of a calibration that stops. -/
def abortFields : List Fld := calFields ++ [F.LANE_EVENT_CAL_ABORT, F.MBX_STATUS_JOB_DONE]

/-- A calibration stops with nothing applied (R330). -/
theorem calAbort_running {s : State} {n : Nat} (h : s.f F.LANE_STATUS_CAL n = 1) : Off abortFields s (s.calAbort n) ∧ (s.calAbort n).sansFw = s.sansFw ∧ (s.calAbort n).f F.LANE_STATUS_CAL n = 0 ∧ (s.calAbort n).f F.LANE_EVENT_CAL_ABORT n = 1 := by
  have hcal := setCal_writes s n 0
  have hzero := setCal_cal s n 0 (by decide)
  have habort : s.calAbort n = ((s.setCal n 0).setF F.LANE_EVENT_CAL_ABORT n 1).endRecal n false := if_pos (decide_eq_true h)
  rw [habort]
  generalize s.setCal n 0 = t at hcal hzero ⊢
  obtain ⟨hjob, hrest⟩ := endRecal_frame (t.setF F.LANE_EVENT_CAL_ABORT n 1) n false
  refine ⟨((hcal.off.mono rfl).setF _ _ _ rfl).trans (hjob.mono rfl), hrest.trans (sansFw_of_regsOnly (hcal.only.setF _ _ _)), (hjob.at_ _ _ rfl).trans ((State.f_setF_code _ _ _ _ _ _ (by decide)).trans hzero), (hjob.at_ _ _ rfl).trans (State.f_setF_same _ _ _ _)⟩

theorem calAbort_none {s : State} {n : Nat} (h : s.f F.LANE_STATUS_CAL n ≠ 1) : s.calAbort n = s := if_neg fun hb => h (of_decide_eq_true hb)

theorem calAbort_frame (s : State) (n : Nat) : Off abortFields s (s.calAbort n) ∧ (s.calAbort n).sansFw = s.sansFw := by
  by_cases h : s.f F.LANE_STATUS_CAL n = 1
  · exact ⟨(calAbort_running h).1, (calAbort_running h).2.1⟩
  · rw [calAbort_none h]
    exact ⟨Off.refl _ s, rfl⟩

theorem lane_of_sansFw {s t : State} (h : t.sansFw = s.sansFw) : t.lane = s.lane := (congrArg (fun u : State => u.lane) h :)

theorem haul_of_sansFw {s t : State} (h : t.sansFw = s.sansFw) : t.haul = s.haul := (congrArg (fun u : State => u.haul) h :)

theorem dram_of_sansFw {s t : State} (h : t.sansFw = s.sansFw) : t.dram = s.dram := (congrArg (fun u : State => u.dram) h :)

-- ## Ports that go down (R333)

theorem haulPort_setHaulPort_ne (s : State) {q p : Nat} (x : HaulPort) (h : q ≠ p) : (s.setHaulPort p x).haulPort q = s.haulPort q := Tab.get_set_ne _ _ _ h

theorem frameEnd_other (s : State) {p q : Nat} (h : q ≠ p) : (s.frameEnd p true).haulPort q = s.haulPort q := by
  unfold State.frameEnd
  split
  · rfl
  · next r _ =>
    show ((s.setRx p none).settleRx r true).haulPort q = s.haulPort q
    rw [State.haulPort, haul_of_sansPool (settleRx_frame (s.setRx p none) r true).1]
    exact haulPort_setHaulPort_ne s _ h

theorem lossTaken_other (s : State) {p q : Nat} (h : q ≠ p) : (s.lossTaken p).haulPort q = s.haulPort q := by
  have hsets := lossTaken_sets s p _ rfl
  unfold State.lossTaken
  dsimp only
  generalize ((s.frameEnd p true).linkDown p).setF F.HAUL_EVENT_LINK_LOSS p 1 = u at hsets ⊢
  have hregs : RegsOnly (s.frameEnd p true) u := hsets.regsOnly
  rw [haulPort_setHaulPort_ne _ _ h, State.haulPort, hregs.haul]
  exact frameEnd_other s h

/-- The registers of a haul link that goes down. -/
def haulDownFields : List Fld := lossFields ++ breakFields ++ enqueueFields ++ raiseFields

/-- A loss that port `p` may declare: frames of other ports run on. -/
theorem haulLoss_frame (s : State) (p : Nat) (fault : Bool) : Off haulDownFields s (s.haulLoss p fault) ∧ (∀ q, (s.haulPort q).rx = none → ((s.haulLoss p fault).haulPort q).rx = none) ∧ ((s.haulPort p).rx = none → (s.haulLoss p fault).dram = s.dram) := by
  have hshown := faultShown_off s p fault
  have hregs : RegsOnly s (s.faultShown p fault) := faultShown_regsOnly s p fault
  rw [haulLoss_eq]
  generalize s.faultShown p fault = t at hshown hregs ⊢
  have hports : ∀ q, t.haulPort q = s.haulPort q := fun q => by rw [State.haulPort, State.haulPort, hregs.haul]
  split
  · exact ⟨hshown.mono rfl, fun q h => by rw [hports]; exact h, fun _ => hregs.dram⟩
  · have htaken := lossTaken_parts t p
    have htold := lossTold_off (t.lossTaken p) p
    have hparts : ((t.lossTaken p).lossTold p).haul.ports = (t.lossTaken p).haul.ports := by
      rw [State.lossTold, haul_raiseFault]
      exact (portBreak_frame (t.lossTaken p) p).2.1
    refine ⟨(hshown.mono rfl).trans ((htaken.off.mono rfl).trans (htold.mono rfl)), fun q h => ?_, fun h => ?_⟩
    · rw [State.haulPort, hparts]
      by_cases hq : q = p
      · rw [hq]
        exact htaken.rx
      · have hother : (t.lossTaken p).haulPort q = s.haulPort q := (lossTaken_other t hq).trans (hports q)
        exact (congrArg HaulPort.rx hother).trans h
    · exact (lossTold_parts (t.lossTaken p) p).2.1.trans ((htaken.dram (by rw [hports]; exact h)).trans hregs.dram)

/-- The registers of an ingress port that goes down. -/
def pixelDownFields : List Fld := [F.ING_STATUS_LINK, F.ING_STATUS_ALIGNED, F.ING_CNT_COUNT, F.ING_CNT_SAT_SAT, F.ING_EVENT_LOSS]

theorem pixelDown_writes (s : State) (p : Nat) : Writes pixelDownFields s (s.pixelDown p) := by
  unfold State.pixelDown
  split
  · exact ⟨((((RegsOnly.refl s).setF _ _ _).setF _ _ _).count _ _ _ _ _).setF _ _ _, ((((Off.refl _ s).setF _ _ _ rfl).setF _ _ _ rfl).count _ _ _ _ _ rfl rfl).setF _ _ _ rfl⟩
  · exact ⟨RegsOnly.refl s, Off.refl _ s⟩

/-- The registers of a receiver that is lost. -/
def rxLosFields : List Fld := [F.LMP_PORT_EVENT_RX_LOS, F.LMP_PORT_STATUS_FAR_SYNC, F.LMP_PORT_EVENT_FAR_LOST]

theorem rxLos_writes (s : State) (n : Nat) (los : Bool) : Writes rxLosFields s (s.rxLos n los) := by
  have hfar : ∀ t : State, Writes rxLosFields t (t.farLost n) := fun t => by
    unfold State.farLost
    split
    · exact ⟨((RegsOnly.refl t).setF _ _ _).setF _ _ _, ((Off.refl _ t).setF _ _ _ rfl).setF _ _ _ rfl⟩
    · exact ⟨RegsOnly.refl t, Off.refl _ t⟩
  have hshown : Writes rxLosFields s (if los then s.setF F.LMP_PORT_EVENT_RX_LOS n 1 else s) := by
    cases los with
    | false => exact ⟨RegsOnly.refl s, Off.refl _ s⟩
    | true => exact ⟨(RegsOnly.refl s).setF _ _ _, (Off.refl _ s).setF _ _ _ rfl⟩
  unfold State.rxLos
  split
  · exact ⟨RegsOnly.refl s, Off.refl _ s⟩
  · exact ⟨hshown.only.trans (hfar _).only, hshown.off.trans (hfar _).off⟩

/-- The registers of the ports that a change of the lane map takes down. -/
def portDownFields : List Fld := haulDownFields ++ pixelDownFields ++ rxLosFields

/-- What a port that goes down may change: frames of other ports run on, and no data of memory changes unless a frame ends. -/
structure PortDown (p : Nat) (s t : State) : Prop where
  off : Off portDownFields s t
  rx : ∀ q, (s.haulPort q).rx = none → (t.haulPort q).rx = none
  dram : (s.haulPort p).rx = none → t.dram = s.dram

namespace PortDown

theorem refl (p : Nat) (s : State) : PortDown p s s := ⟨Off.refl _ s, fun _ h => h, fun _ => rfl⟩

theorem writes {fs : List Fld} {s t : State} (p : Nat) (h : Writes fs s t) (hw : covers portDownFields fs = true) : PortDown p s t :=
  ⟨h.off.mono hw, fun q hq => by rw [State.haulPort, h.only.haul]; exact hq, fun _ => h.only.dram⟩

theorem changed (s : State) (f p : Nat) (gains : Bool) : PortDown p s (s.portChanged f p gains) := by
  unfold State.portChanged
  split
  · obtain ⟨hoff, hrx, hdram⟩ := haulLoss_frame s p false
    exact ⟨hoff.mono rfl, hrx, hdram⟩
  · split
    · exact writes p (pixelDown_writes s p) rfl
    · split
      · exact writes p (rxLos_writes s p true) rfl
      · exact refl p s

end PortDown

-- ## Writes of LANE_CFG and LANE_RX (R326, R330 to R333)

/-- LANE_SYNC of the haul ports follows. -/
theorem showLaneSync_writes (s : State) : Writes [F.HAUL_STATUS_LANE_SYNC] s s.showLaneSync :=
  ⟨(RegsOnly.refl s).chainAll _ _ fun _ t => (RegsOnly.refl t).setF _ _ _, (Off.refl _ s).chainAll _ _ fun _ t => (Off.refl _ t).setF _ _ _ rfl⟩

theorem markConflicts_writes (s : State) : Writes [F.LANE_EVENT_CONFLICT] s s.markConflicts := by
  have hone : ∀ (l : Nat) (t : State) (b : Bool), Writes [F.LANE_EVENT_CONFLICT] t (if b then t.setF F.LANE_EVENT_CONFLICT l 1 else t) := fun l t b => by
    cases b with
    | false => exact ⟨RegsOnly.refl t, Off.refl _ t⟩
    | true => exact ⟨(RegsOnly.refl t).setF _ _ _, (Off.refl _ t).setF _ _ _ rfl⟩
  exact ⟨(RegsOnly.refl s).chainAll _ _ fun l t => (hone l t _).only, (Off.refl _ s).chainAll _ _ fun l t => (hone l t _).off⟩

/-- The lane loses its synchronisation, and its quad's PLL its power where no lane of it runs. -/
def State.laneDropped (s : State) (n : Nat) : State := ((s.setF F.LANE_STATUS_SYNC n 0).setF F.LANE_STATUS_PRBS_LOCK n 0).quadPower n

/-- The port that the lane served goes down. -/
def State.oldPortDown (s : State) (f p e : Nat) : State := if e = 1 then s.portChanged f p false else s

/-- The port that the lane serves now goes down. -/
def State.newPortDown (s : State) (n : Nat) : State := if s.fb F.LANE_CFG_EN n then s.portChanged (s.laneFunc n) (s.lanePort n) true else s

theorem laneChanged_eq (s : State) (n f p e : Nat) : s.laneChanged n f p e = (((s.laneDropped n).oldPortDown f p e).newPortDown n).markConflicts.showLaneSync := rfl

/-- The registers of a lane that loses its synchronisation. -/
def droppedFields : List Fld := [F.LANE_STATUS_SYNC, F.LANE_STATUS_PRBS_LOCK, F.CLK_STATUS_LANE_LOCK]

theorem laneDropped_writes (s : State) (n : Nat) : Writes droppedFields s (s.laneDropped n) ∧ (s.laneDropped n).f F.LANE_STATUS_SYNC n = 0 ∧ (s.laneDropped n).f F.LANE_STATUS_PRBS_LOCK n = 0 := by
  have hsync : ((s.setF F.LANE_STATUS_SYNC n 0).setF F.LANE_STATUS_PRBS_LOCK n 0).f F.LANE_STATUS_SYNC n = 0 := (State.f_setF_code _ _ _ _ _ _ (by decide)).trans (State.f_setF_same _ _ _ _)
  have hprbs : ((s.setF F.LANE_STATUS_SYNC n 0).setF F.LANE_STATUS_PRBS_LOCK n 0).f F.LANE_STATUS_PRBS_LOCK n = 0 := State.f_setF_same _ _ _ _
  have hfirst : Writes droppedFields s ((s.setF F.LANE_STATUS_SYNC n 0).setF F.LANE_STATUS_PRBS_LOCK n 0) := ⟨((RegsOnly.refl s).setF _ _ _).setF _ _ _, ((Off.refl _ s).setF _ _ _ rfl).setF _ _ _ rfl⟩
  unfold State.laneDropped
  generalize (s.setF F.LANE_STATUS_SYNC n 0).setF F.LANE_STATUS_PRBS_LOCK n 0 = t at hsync hprbs hfirst ⊢
  have hpower : Writes [F.CLK_STATUS_LANE_LOCK] t (t.quadPower n) := by
    unfold State.quadPower
    split
    · exact ⟨RegsOnly.refl t, Off.refl _ t⟩
    · exact ⟨(RegsOnly.refl t).setF _ _ _, (Off.refl _ t).setF _ _ _ rfl⟩
  exact ⟨⟨hfirst.only.trans hpower.only, hfirst.off.trans (hpower.off.mono rfl)⟩, (hpower.off.at_ _ _ rfl).trans hsync, (hpower.off.at_ _ _ rfl).trans hprbs⟩

/-- What a change of a lane's settings may write beside the settings. -/
def laneChangedFields : List Fld := droppedFields ++ portDownFields ++ [F.LANE_EVENT_CONFLICT, F.HAUL_STATUS_LANE_SYNC]

theorem oldPortDown_down (s : State) (f p e : Nat) : PortDown p s (s.oldPortDown f p e) := by
  unfold State.oldPortDown
  split
  · exact PortDown.changed s f p false
  · exact PortDown.refl p s

theorem newPortDown_down (s : State) (n : Nat) : PortDown (s.lanePort n) s (s.newPortDown n) := by
  unfold State.newPortDown
  split
  · exact PortDown.changed s _ _ true
  · exact PortDown.refl _ s

/-- The registers after the ports went down. -/
theorem laneTail_writes (s : State) : Writes [F.LANE_EVENT_CONFLICT, F.HAUL_STATUS_LANE_SYNC] s s.markConflicts.showLaneSync := by
  have hmark := markConflicts_writes s
  have hshow := showLaneSync_writes s.markConflicts
  exact ⟨hmark.only.trans hshow.only, (hmark.off.mono rfl).trans (hshow.off.mono rfl)⟩

/-- A lane whose settings changed (R333). -/
structure LaneChanged (n p : Nat) (s t : State) : Prop where
  off : Off laneChangedFields s t
  sync : t.f F.LANE_STATUS_SYNC n = 0
  prbs : t.f F.LANE_STATUS_PRBS_LOCK n = 0
  dram : (s.haulPort p).rx = none → (s.haulPort (s.lanePort n)).rx = none → t.dram = s.dram

theorem laneChanged_parts (s : State) (n f p e : Nat) : LaneChanged n p s (s.laneChanged n f p e) := by
  obtain ⟨hdropped, hsync, hprbs⟩ := laneDropped_writes s n
  rw [laneChanged_eq]
  generalize s.laneDropped n = t at hdropped hsync hprbs ⊢
  have hold := oldPortDown_down t f p e
  generalize t.oldPortDown f p e = u at hold ⊢
  have hnew := newPortDown_down u n
  generalize u.newPortDown n = v at hnew ⊢
  have htail := laneTail_writes v
  have hport : u.lanePort n = s.lanePort n := (hold.off.at_ _ _ rfl).trans (hdropped.off.at_ _ _ rfl)
  have hhaul : ∀ q, t.haulPort q = s.haulPort q := fun q => by rw [State.haulPort, State.haulPort, hdropped.only.haul]
  refine ⟨(hdropped.off.mono rfl).trans ((hold.off.mono rfl).trans ((hnew.off.mono rfl).trans (htail.off.mono rfl))), ?_, ?_, fun hp hn => ?_⟩
  · exact (htail.off.at_ _ _ rfl).trans ((hnew.off.at_ _ _ rfl).trans ((hold.off.at_ _ _ rfl).trans hsync))
  · exact (htail.off.at_ _ _ rfl).trans ((hnew.off.at_ _ _ rfl).trans ((hold.off.at_ _ _ rfl).trans hprbs))
  · have hfirst := hold.dram (by rw [hhaul]; exact hp)
    have hsecond := hnew.dram (by rw [hport]; exact hold.rx _ (by rw [hhaul]; exact hn))
    exact htail.only.dram.trans (hsecond.trans (hfirst.trans hdropped.only.dram))

/-- The settings of a lane. -/
def laneCfgFields : List Fld := [F.LANE_CFG_EN, F.LANE_CFG_FUNC, F.LANE_CFG_PORT, F.LANE_CFG_PORT_LANE, F.LANE_CFG_RATE, F.LANE_CFG_RX_INV, F.LANE_CFG_TX_INV]

theorem sets_putLaneCfg (s : State) (n en func port lane rate rxInv txInv : Nat) :
    Sets s [(F.LANE_CFG_EN, n, en % 2), (F.LANE_CFG_FUNC, n, (if 4 ≤ func then 0 else func) % 8), (F.LANE_CFG_PORT, n, port % 64), (F.LANE_CFG_PORT_LANE, n, lane % 4), (F.LANE_CFG_RATE, n, rate % 4), (F.LANE_CFG_RX_INV, n, rxInv % 2), (F.LANE_CFG_TX_INV, n, txInv % 2)]
      (s.putLaneCfg n en func port lane rate rxInv txInv) :=
  (((((((Sets.refl s).snocNew F.LANE_CFG_EN n en rfl).snocNew F.LANE_CFG_FUNC n _ rfl).snocNew F.LANE_CFG_PORT n port rfl).snocNew F.LANE_CFG_PORT_LANE n lane rfl).snocNew F.LANE_CFG_RATE n rate rfl).snocNew F.LANE_CFG_RX_INV n rxInv rfl).snocNew F.LANE_CFG_TX_INV n txInv rfl

/-- The settings that a word of LANE_CFG gives. -/
def State.wordPut (s : State) (n w : Nat) : State := s.putLaneCfg n (w / 2 ^ 31) (w / 2 ^ 24 % 8) (w / 2 ^ 16) (w / 2 ^ 12) w (w / 2 ^ 9) (w / 2 ^ 8)

theorem writeLaneCfg_eq {s : State} {n : Nat} (w : Nat) (h : n < 60) : s.writeLaneCfg n w =
    if (s.calAbort n).wordPut n w = s.calAbort n then s.calAbort n else ((s.calAbort n).wordPut n w).laneChanged n ((s.calAbort n).laneFunc n) ((s.calAbort n).lanePort n) ((s.calAbort n).f F.LANE_CFG_EN n) := if_neg (by omega)

end Sys2Proof.Machine

/-! LaneEvents: signals, synchronisation, calibration windows and writes of a lane (R323 to R333, R342, R343). -/

namespace Sys2Proof.Machine

-- ## Writes of LANE_CFG

/-- What a write of LANE_CFG leaves of the settings, and beside them. -/
theorem writeLaneCfg_off (s : State) {n : Nat} (w : Nat) (h : n < 60) : Off laneChangedFields ((s.calAbort n).wordPut n w) (s.writeLaneCfg n w) := by
  rw [writeLaneCfg_eq w h]
  split
  · next heq => rw [heq]; exact Off.refl _ _
  · exact (laneChanged_parts _ n _ _ _).off

/-- The settings that a word of LANE_CFG gives lane `n`. -/
def laneWord (n w : Nat) : List (Fld × Nat × Nat) :=
  [(F.LANE_CFG_EN, n, w / 2 ^ 31 % 2), (F.LANE_CFG_FUNC, n, (if 4 ≤ w / 2 ^ 24 % 8 then 0 else w / 2 ^ 24 % 8) % 8), (F.LANE_CFG_PORT, n, w / 2 ^ 16 % 64), (F.LANE_CFG_PORT_LANE, n, w / 2 ^ 12 % 4), (F.LANE_CFG_RATE, n, w % 4),
    (F.LANE_CFG_RX_INV, n, w / 2 ^ 9 % 2), (F.LANE_CFG_TX_INV, n, w / 2 ^ 8 % 2)]

theorem sets_wordPut (s : State) (n w : Nat) : Sets s (laneWord n w) (s.wordPut n w) := sets_putLaneCfg s n _ _ _ _ _ _ _

theorem mem_laneWord {n w : Nat} {e : Fld × Nat × Nat} (he : e ∈ laneWord n w) : e.1 ∈ laneCfgFields ∧ e.2.1 = n := by
  refine ⟨(List.mem_map.mpr ⟨e, he, rfl⟩ : e.1 ∈ (laneWord n w).map (·.1)), ?_⟩
  have hone : ∀ i ∈ (laneWord n w).map (·.2.1), i = n := by simp [laneWord]
  exact hone _ (List.mem_map.mpr ⟨e, he, rfl⟩)

theorem writeLaneCfg_at {s : State} {n w : Nat} (h : n < 60) : ∀ e ∈ laneWord n w, (s.writeLaneCfg n w).f e.1 e.2.1 = e.2.2 := by
  have hout : ∀ x ∈ laneCfgFields, x.outside laneChangedFields := by unfold Fld.outside; decide
  exact fun e he => (writeLaneCfg_off s w h e.1 e.2.1 (hout e.1 (mem_laneWord he).1)).trans ((sets_wordPut (s.calAbort n) n w).2.1 e he)

/-- Other registers, and settings of other lanes, stay. -/
theorem writeLaneCfg_other (s : State) {n w : Nat} (h : n < 60) (x : Fld) (i : Nat) (hx : x.outside (abortFields ++ laneChangedFields)) (hi : x.outside laneCfgFields ∨ i ≠ n) : (s.writeLaneCfg n w).f x i = s.f x i := by
  refine (writeLaneCfg_off s w h x i fun y hy => hx y (List.mem_append_right _ hy)).trans (((sets_wordPut (s.calAbort n) n w).2.2 x i fun e he hc => ?_).trans ((calAbort_frame s n).1 x i fun y hy => hx y (List.mem_append_left _ hy)))
  obtain ⟨hfield, hlane⟩ := mem_laneWord he
  exact hi.elim (fun hi => hi e.1 hfield hc.1) fun hi => hi (hc.2.trans hlane)

/-- A write keeps the data of memory where neither port's frame ends. -/
theorem writeLaneCfg_dram {s : State} {n w : Nat} (h : n < 60) (hold : (s.haulPort (s.lanePort n)).rx = none) (hnew : (s.haulPort (w / 2 ^ 16 % 64)).rx = none) : (s.writeLaneCfg n w).dram = s.dram := by
  obtain ⟨hoff, hrest⟩ := calAbort_frame s n
  have hhaul : (s.calAbort n).haul = s.haul := haul_of_sansFw hrest
  have hdram : (s.calAbort n).dram = s.dram := dram_of_sansFw hrest
  have hport : (s.calAbort n).lanePort n = s.lanePort n := hoff.at_ _ _ rfl
  rw [writeLaneCfg_eq w h]
  split
  · exact hdram
  · have hput := sets_wordPut (s.calAbort n) n w
    have hregs : RegsOnly (s.calAbort n) ((s.calAbort n).wordPut n w) := hput.regsOnly
    have hnow : ((s.calAbort n).wordPut n w).lanePort n = w / 2 ^ 16 % 64 := hput.2.1 (F.LANE_CFG_PORT, n, w / 2 ^ 16 % 64) (by simp [laneWord])
    have hports : ∀ q, ((s.calAbort n).wordPut n w).haulPort q = s.haulPort q := fun q => by rw [State.haulPort, State.haulPort, hregs.haul, hhaul]
    have hchanged := laneChanged_parts ((s.calAbort n).wordPut n w) n ((s.calAbort n).laneFunc n) ((s.calAbort n).lanePort n) ((s.calAbort n).f F.LANE_CFG_EN n)
    exact (hchanged.dram (by rw [hport, hports]; exact hold) (by rw [hnow, hports]; exact hnew)).trans (hregs.dram.trans hdram)

/-- A lane that is switched on or off loses its synchronisation. -/
theorem writeLaneCfg_dropped {s : State} {n w : Nat} (h : n < 60) (hen : s.f F.LANE_CFG_EN n ≠ w / 2 ^ 31 % 2) : (s.writeLaneCfg n w).f F.LANE_STATUS_SYNC n = 0 ∧ (s.writeLaneCfg n w).f F.LANE_STATUS_PRBS_LOCK n = 0 := by
  have hput := (sets_wordPut (s.calAbort n) n w).2.1 (F.LANE_CFG_EN, n, w / 2 ^ 31 % 2) (List.mem_cons_self ..)
  have hbefore : (s.calAbort n).f F.LANE_CFG_EN n = s.f F.LANE_CFG_EN n := (calAbort_frame s n).1.at_ _ _ rfl
  have hne : (s.calAbort n).wordPut n w ≠ s.calAbort n := fun heq => hen (hbefore.symm.trans ((congrArg (fun u : State => u.f F.LANE_CFG_EN n) heq).symm.trans hput))
  rw [writeLaneCfg_eq w h, if_neg hne]
  have hchanged := laneChanged_parts ((s.calAbort n).wordPut n w) n ((s.calAbort n).laneFunc n) ((s.calAbort n).lanePort n) ((s.calAbort n).f F.LANE_CFG_EN n)
  exact ⟨hchanged.sync, hchanged.prbs⟩

theorem portBlind_none {s : State} (h : ∀ l ∈ List.range 60, s.f F.LANE_STATUS_CAL l ≠ 1) (func p : Nat) : s.portBlind func p = false := by
  rw [State.portBlind, List.any_eq_false]
  exact fun l hl hb => h l (List.mem_filter.mp hl).1 (of_decide_eq_true hb)

/-- A haul port whose link is up goes down with its loss, outside a blind period. -/
theorem haulLoss_goesDown {s : State} {p : Nat} (hp : p < 6) (hb : s.portBlind fnHaul p = false) : (s.haulLoss p false).f F.HAUL_STATUS_LINK p ≠ 1 ∧ (s.f F.HAUL_STATUS_LINK p = 1 → (s.haulLoss p false).f F.HAUL_EVENT_LINK_LOSS p = 1) := by
  by_cases hl : s.f F.HAUL_STATUS_LINK p = 1
  · obtain ⟨t, ht, hdown, -, -, hevent, -⟩ := haulLoss_declared false hp hl hb
    have heq : s.haulLoss p false = t := Host.Outcome.next.inj ((exec_linkLoss hp false s).symm.trans ht)
    rw [heq, hdown]
    exact ⟨by decide, fun _ => hevent⟩
  · have hshown : s.faultShown p false = s := if_neg (by simp [State.faultSeen])
    rw [haulLoss_unheard false (by rw [hshown]; exact .inl (decide_eq_false hl)), hshown]
    exact ⟨hl, fun h => absurd h hl⟩

/-- The haul port that gains a lane goes down (R333). -/
theorem writeLaneCfg_gains {s : State} {n p w : Nat} (h : n < 60) (hp : p < 6) (hen : s.f F.LANE_CFG_EN n = 0) (hon : w / 2 ^ 31 % 2 = 1) (hfunc : w / 2 ^ 24 % 8 = 1) (hport : w / 2 ^ 16 % 64 = p) (hcal : ∀ l ∈ List.range 60, s.f F.LANE_STATUS_CAL l ≠ 1) :
    (s.writeLaneCfg n w).f F.HAUL_STATUS_LINK p ≠ 1 ∧ (s.f F.HAUL_STATUS_LINK p = 1 → (s.writeLaneCfg n w).f F.HAUL_EVENT_LINK_LOSS p = 1) := by
  have hput := sets_wordPut s n w
  have hput1 : (s.wordPut n w).f F.LANE_CFG_EN n = 1 := (hput.2.1 (F.LANE_CFG_EN, n, w / 2 ^ 31 % 2) (by simp [laneWord])).trans hon
  have hput2 : (s.wordPut n w).laneFunc n = fnHaul := (hput.2.1 (F.LANE_CFG_FUNC, n, (if 4 ≤ w / 2 ^ 24 % 8 then 0 else w / 2 ^ 24 % 8) % 8) (by simp [laneWord])).trans (by rw [hfunc]; rfl)
  have hput3 : (s.wordPut n w).lanePort n = p := (hput.2.1 (F.LANE_CFG_PORT, n, w / 2 ^ 16 % 64) (by simp [laneWord])).trans hport
  have hne : s.wordPut n w ≠ s := fun heq => by
    have hcontra := (congrArg (fun u : State => u.f F.LANE_CFG_EN n) heq).symm.trans hput1
    exact absurd (hen.symm.trans hcontra) (by decide)
  have hoff := hput.off
  rw [writeLaneCfg_eq w h, calAbort_none (hcal n (List.mem_range.mpr h)), if_neg hne, hen, laneChanged_eq]
  have hsteps : Off laneCfgFields s (s.wordPut n w) := hoff
  generalize s.wordPut n w = t at hput1 hput2 hput3 hsteps ⊢
  obtain ⟨hdropped, -, -⟩ := laneDropped_writes t n
  have hold : (t.laneDropped n).oldPortDown (s.laneFunc n) (s.lanePort n) 0 = t.laneDropped n := if_neg (by decide)
  rw [hold]
  have hall : Off (laneCfgFields ++ droppedFields) s (t.laneDropped n) := (hsteps.mono rfl).trans (hdropped.off.mono rfl)
  have hu1 : (t.laneDropped n).fb F.LANE_CFG_EN n = true := decide_eq_true ((hdropped.off.at_ _ _ rfl).trans hput1)
  have hu2 : (t.laneDropped n).laneFunc n = fnHaul := (hdropped.off.at_ _ _ rfl).trans hput2
  have hu3 : (t.laneDropped n).lanePort n = p := (hdropped.off.at_ _ _ rfl).trans hput3
  generalize t.laneDropped n = u at hall hu1 hu2 hu3 ⊢
  have hnew : u.newPortDown n = u.haulLoss p false := by
    rw [State.newPortDown, if_pos hu1, hu2, hu3]
    exact if_pos ⟨rfl, hp⟩
  have hblind : u.portBlind fnHaul p = false := portBlind_none (fun l hl => by rw [hall.at_ F.LANE_STATUS_CAL l rfl]; exact hcal l hl) _ _
  obtain ⟨hdown, hevent⟩ := haulLoss_goesDown hp hblind
  have htail := laneTail_writes (u.haulLoss p false)
  rw [hnew, htail.off.at_ F.HAUL_STATUS_LINK p rfl, htail.off.at_ F.HAUL_EVENT_LINK_LOSS p rfl]
  exact ⟨hdown, fun hl => hevent ((hall.at_ _ _ rfl).trans hl)⟩

theorem word_bits (w : Word) : w.toNat / 2 ^ 31 % 2 = w.toNat / 2 ^ 31 := by
  have := w.isLt
  omega

end Sys2Proof.Machine

/-! LaneEvents: what each event of a lane leaves (R323 to R333, R342, R343, R393). -/

namespace Sys2Proof.Machine

theorem fb_true {s : State} {x : Fld} {i : Nat} (h : s.f x i = 1) : s.fb x i = true := decide_eq_true h

theorem fb_ne {s : State} {x : Fld} {i : Nat} (h : s.f x i ≠ 1) : ¬ s.fb x i = true := fun hb => h (of_decide_eq_true hb)

-- ## Signals and synchronisation (R323, R324)

theorem exec_laneSignal {n : Nat} (h : n < 64) (up : Bool) (s : State) : exec (.laneSignalChange n up) s = .next (s.laneSignal n up) := onInstance_of (decide_eq_true h) _

theorem sets_laneUp (s : State) (n : Nat) : Sets s [(F.LANE_STATUS_SIGNAL, n, 1), (F.LANE_STATUS_CDR_LOCK, n, 1)] (s.laneSignal n true) :=
  ((Sets.refl s).snocNew F.LANE_STATUS_SIGNAL n 1 rfl).snocNew F.LANE_STATUS_CDR_LOCK n 1 rfl

/-- Signal and clock of a lane go, after its calibration has stopped. -/
theorem sets_laneDown (s : State) (n : Nat) : Sets (s.calAbort n) [(F.LANE_STATUS_SIGNAL, n, 0), (F.LANE_STATUS_CDR_LOCK, n, 0), (F.LANE_EVENT_LOS, n, 1)] (s.laneSignal n false) :=
  ((((Sets.refl _).snocNew F.LANE_STATUS_SIGNAL n 0 rfl).snocNew F.LANE_STATUS_CDR_LOCK n 0 rfl).snocNew F.LANE_EVENT_LOS n 1 rfl)

theorem exec_laneSyncLoss {n : Nat} (h : n < 64) (s : State) : exec (.laneSyncLoss n) s = .next (s.laneUnsync n) := onInstance_of (decide_eq_true h) _

theorem exec_laneSyncAcquire {n : Nat} (h : n < 64) (s : State) : exec (.laneSyncAcquire n) s = .next (s.laneSyncs n) := onInstance_of (decide_eq_true h) _

/-- Synchronisation of one lane, and what the haul ports show of it. -/
theorem laneSync_shown (s : State) (n v : Nat) : ((s.setF F.LANE_STATUS_SYNC n v).showLaneSync.f F.LANE_STATUS_SYNC n = v % 2) ∧ (∀ k, k ≠ n → (s.setF F.LANE_STATUS_SYNC n v).showLaneSync.f F.LANE_STATUS_SYNC k = s.f F.LANE_STATUS_SYNC k) ∧
    Off [F.LANE_STATUS_SYNC, F.HAUL_STATUS_LANE_SYNC] s (s.setF F.LANE_STATUS_SYNC n v).showLaneSync := by
  have hshow := (showLaneSync_writes (s.setF F.LANE_STATUS_SYNC n v)).off
  exact ⟨(hshow.at_ _ _ rfl).trans (State.f_setF_same _ _ _ _), fun k hk => (hshow.at_ _ _ rfl).trans (f_setF_otherInst _ _ _ _ hk), ((Off.refl _ s).setF _ _ _ rfl).trans (hshow.mono rfl)⟩

/-- A loss outside the blind period counts (R324). -/
theorem laneUnsync_counted {s : State} {n : Nat} (h : s.f F.LANE_STATUS_SYNC n = 1) (hcal : s.f F.LANE_STATUS_CAL n ≠ 1) :
    (s.laneUnsync n).f F.LANE_STATUS_SYNC n = 0 ∧ (∀ k, k ≠ n → (s.laneUnsync n).f F.LANE_STATUS_SYNC k = s.f F.LANE_STATUS_SYNC k) ∧ (s.laneUnsync n).f F.LANE_EVENT_SYNC_LOSS n = 1 ∧
      (s.laneUnsync n).f F.LANE_CNT_COUNT (4 * n + 2) = min (s.f F.LANE_CNT_COUNT (4 * n + 2) + 1) (2 ^ 32 - 1) ∧
      Off [F.LANE_STATUS_SYNC, F.HAUL_STATUS_LANE_SYNC, F.LANE_CNT_COUNT, F.LANE_CNT_SAT_SAT, F.LANE_EVENT_SYNC_LOSS] s (s.laneUnsync n) := by
  obtain ⟨hsync, hothers, hoff⟩ := laneSync_shown s n 0
  have hloss : s.laneUnsync n = (((s.setF F.LANE_STATUS_SYNC n 0).showLaneSync).laneCount n 2).setF F.LANE_EVENT_SYNC_LOSS n 1 := by
    unfold State.laneUnsync
    rw [if_neg (by simpa [State.fb] using h), if_neg (by simpa [State.fb] using hcal)]
  rw [hloss]
  generalize (s.setF F.LANE_STATUS_SYNC n 0).showLaneSync = t at hsync hothers hoff ⊢
  have htail : Off [F.LANE_CNT_COUNT, F.LANE_CNT_SAT_SAT, F.LANE_EVENT_SYNC_LOSS] t ((t.laneCount n 2).setF F.LANE_EVENT_SYNC_LOSS n 1) := ((Off.refl _ t).count _ _ _ _ _ rfl rfl).setF _ _ _ rfl
  refine ⟨(htail.at_ _ _ rfl).trans hsync, fun k hk => (htail.at_ _ _ rfl).trans (hothers k hk), State.f_setF_same _ _ _ _, ?_, (hoff.mono rfl).trans (htail.mono rfl)⟩
  rw [State.f_setF_code _ _ _ _ _ _ (by decide), State.laneCount, State.f_count_same _ _ _ _ _ _ (by decide), hoff.at_ _ _ rfl]
  rfl

-- ## Calibration windows (R329, R342, R395)

theorem exec_laneCalStart {n : Nat} (h : n < 64) (s : State) : exec (.laneCalStart n) s = .next (s.laneCalBegin n) := onInstance_of (decide_eq_true h) _

/-- The calibration of lane `n` begins: it is due no longer, and the gap is its own. -/
def State.calStarts (s : State) (n : Nat) : State := (s.withLane (fun w => { w with due := w.due.filter (· ≠ n), gap := n :: w.gap })).setCal n 1

/-- A haul frame in reception is spoiled by it. -/
def State.calSpoils (s : State) (n : Nat) : State := if s.laneFunc n = fnHaul then s.spoilFrame (s.lanePort n) else s

/-- A lane whose window is open: restored values first, then what is due. -/
theorem laneCalBegin_open {s : State} {n : Nat} (hn : n < 60) (hw : s.laneWindow n = true) (hh : s.inHandover = false) :
    s.laneCalBegin n = if n ∉ (s.applyRestored n).lane.due ∨ (s.applyRestored n).fb F.LANE_STATUS_CAL n = true then s.applyRestored n else ((s.applyRestored n).calStarts n).calSpoils n := by
  rw [State.laneCalBegin, if_neg (by rw [hw, hh]; simp [hn])]
  rfl

theorem laneCalBegin_due {s : State} {n : Nat} (hn : n < 60) (hw : s.laneWindow n = true) (hh : s.inHandover = false) (hd : n ∈ (s.applyRestored n).lane.due) (hc : (s.applyRestored n).f F.LANE_STATUS_CAL n ≠ 1) :
    s.laneCalBegin n = ((s.applyRestored n).calStarts n).calSpoils n := by
  rw [laneCalBegin_open hn hw hh, if_neg (by simp [hd, State.fb, hc])]

theorem laneCalBegin_notDue {s : State} {n : Nat} (hn : n < 60) (hw : s.laneWindow n = true) (hh : s.inHandover = false) (h : n ∉ (s.applyRestored n).lane.due ∨ (s.applyRestored n).f F.LANE_STATUS_CAL n = 1) :
    s.laneCalBegin n = s.applyRestored n := by
  rw [laneCalBegin_open hn hw hh, if_pos (h.imp_right fb_true)]

theorem applyRestored_none {s : State} {n : Nat} (h : Tab.get none s.lane.restored n = none) : s.applyRestored n = s := by rw [State.applyRestored, h]

/-- Restored values of a lane are applied together (R395). -/
theorem sets_applyRestored {s : State} {n v : Nat} (h : Tab.get none s.lane.restored n = some v) :
    Sets (s.withLane (fun x => { x with restored := Tab.set none x.restored n none })) [(F.LANE_STATUS_PEAK_NOW, n, v / 64 % 16), (F.LANE_STATUS_CDR_OFS, n, v % 64)] (s.applyRestored n) := by
  have hsets := (((Sets.refl s).snocNew F.LANE_STATUS_PEAK_NOW n (v / 64) rfl).snocNew F.LANE_STATUS_CDR_OFS n (v % 64) rfl).through (g := fun u => u.withLane (fun x => { x with restored := Tab.set none x.restored n none })) (by intro _ _; rfl) (by intro _; rfl)
  have hmod : v % 64 % 2 ^ F.LANE_STATUS_CDR_OFS.len = v % 64 := Nat.mod_mod _ _
  rw [hmod] at hsets
  rw [State.applyRestored, h]
  exact hsets

/-- What the start of a calibration leaves, before frames are spoiled. -/
structure CalStarted (n : Nat) (s t : State) : Prop where
  cal : t.f F.LANE_STATUS_CAL n = 1
  busy : t.f F.CAL_STATUS_BUSY 0 = 1
  lane : t.lane = { s.lane with due := s.lane.due.filter (· ≠ n), gap := n :: s.lane.gap }
  lamp : s.laneFunc n = fnLamp → s.lanePort n < 48 → t.f F.LMP_PORT_STATUS_RX_CAL (s.lanePort n) = 1
  haul : t.haul = s.haul
  off : Off calFields s t

theorem calStarts_started (s : State) {n : Nat} (hn : n < 60) : CalStarted n s (s.calStarts n) := by
  have hlane : (s.withLane (fun w => { w with due := w.due.filter (· ≠ n), gap := n :: w.gap })).lane = { s.lane with due := s.lane.due.filter (· ≠ n), gap := n :: s.lane.gap } := rfl
  have hhaul : (s.withLane (fun w => { w with due := w.due.filter (· ≠ n), gap := n :: w.gap })).haul = s.haul := rfl
  have hf : ∀ x i, (s.withLane (fun w => { w with due := w.due.filter (· ≠ n), gap := n :: w.gap })).f x i = s.f x i := fun _ _ => rfl
  unfold State.calStarts
  generalize s.withLane (fun w => { w with due := w.due.filter (· ≠ n), gap := n :: w.gap }) = u at hlane hhaul hf ⊢
  have hwrites := setCal_writes u n 1
  have hshown := calShown_writes u n 1
  have hcal := calShown_cal u n 1 n (by decide)
  rw [if_pos rfl] at hcal
  have hany : (List.range 60).any (fun l => (u.calShown n 1).fb F.LANE_STATUS_CAL l) = true := List.any_eq_true.mpr ⟨n, List.mem_range.mpr hn, decide_eq_true hcal⟩
  have hsame : Off calFields s u := fun x i _ => hf x i
  have hlampAt : u.laneFunc n = fnLamp → u.lanePort n < 48 → (u.setCal n 1).f F.LMP_PORT_STATUS_RX_CAL (u.lanePort n) = 1 := fun h1 h2 => by
    rw [setCal_eq, State.f_setF_code _ _ _ _ _ _ (by decide)]
    exact calShown_lamp (by decide) h1 h2
  refine ⟨setCal_cal u n 1 (by decide), ?_, ?_, fun h1 h2 => ?_, hwrites.only.haul.trans hhaul, hsame.trans hwrites.off⟩
  · rw [setCal_eq, hany, State.f_setF_same]
    rfl
  · exact (congrArg (fun v : State => v.lane) hwrites.only).trans hlane
  · rw [← show u.lanePort n = s.lanePort n from hf _ _]
    exact hlampAt ((hf _ _).trans h1) (by rw [show u.lanePort n = s.lanePort n from hf _ _]; exact h2)

/-- A frame that a blind period crosses is spoiled. -/
theorem spoilFrame_frame (s : State) (p : Nat) : (s.spoilFrame p).regs = s.regs ∧ (s.spoilFrame p).lane = s.lane ∧ ((s.spoilFrame p).haulPort p).rx = (s.haulPort p).rx.map (fun r => { r with spoiled := true }) := by
  unfold State.spoilFrame
  cases h : (s.haulPort p).rx with
  | none => exact ⟨rfl, rfl, h⟩
  | some r => exact ⟨rfl, rfl, congrArg HaulPort.rx (haulPort_setHaulPort s p _)⟩

theorem calSpoils_frame (s : State) (n : Nat) : (s.calSpoils n).regs = s.regs ∧ (s.calSpoils n).lane = s.lane := by
  unfold State.calSpoils
  split
  · exact ⟨(spoilFrame_frame s _).1, (spoilFrame_frame s _).2.1⟩
  · exact ⟨rfl, rfl⟩

/-- What a calibration that begins leaves. -/
theorem calBegins (s : State) {n : Nat} (hn : n < 60) : CalStarted n s (s.calStarts n) ∧ (∀ x i, ((s.calStarts n).calSpoils n).f x i = (s.calStarts n).f x i) ∧ ((s.calStarts n).calSpoils n).lane = (s.calStarts n).lane ∧
    (s.laneFunc n ≠ fnHaul → ((s.calStarts n).calSpoils n).haul = s.haul) ∧ (s.laneFunc n = fnHaul → (((s.calStarts n).calSpoils n).haulPort (s.lanePort n)).rx = (s.haulPort (s.lanePort n)).rx.map (fun r => { r with spoiled := true })) := by
  have hstart := calStarts_started s hn
  refine ⟨hstart, ?_⟩
  obtain ⟨-, -, -, -, hhaul, hoff⟩ := hstart
  generalize s.calStarts n = t at hhaul hoff ⊢
  obtain ⟨hregs, hlane⟩ := calSpoils_frame t n
  have hfunc : t.laneFunc n = s.laneFunc n := hoff.at_ _ _ rfl
  have hport : t.lanePort n = s.lanePort n := hoff.at_ _ _ rfl
  refine ⟨fun x i => by rw [State.f, State.f, hregs], hlane, fun h => ?_, fun h => ?_⟩
  · rw [State.calSpoils, if_neg (by rw [hfunc]; exact h)]
    exact hhaul
  · rw [State.calSpoils, if_pos (hfunc.trans h), hport, (spoilFrame_frame t _).2.2, State.haulPort, hhaul, ← State.haulPort]

-- ## The end of a calibration (R329)

theorem exec_laneCalDone {n : Nat} (h : n < 64) (a b : Nat) (s : State) : exec (.laneCalDone n a b) s = .next (s.laneCalEnd n (a % 16) (b % 64)) := onInstance_of (decide_eq_true h) _

/-- The values that a calibration found. -/
def State.calValues (s : State) (n peak ofs : Nat) : State := ((s.setF F.LANE_STATUS_PEAK_NOW n peak).setF F.LANE_STATUS_CDR_OFS n ofs).setF F.LANE_EVENT_CAL_DONE n 1

theorem laneCalEnd_eq {s : State} {n : Nat} (a b : Nat) (h : s.f F.LANE_STATUS_CAL n = 1) :
    s.laneCalEnd n a b = (((((s.calValues n (if s.fb F.LANE_RX_PEAK_FIXED n then s.f F.LANE_RX_PEAK n else a) b).setCal n 0).setF F.CAL_STATUS_DONE 0 1).setF F.CAL_STATUS_LANE 0 n).endRecal n true) := by
  unfold State.laneCalEnd
  rw [if_neg (by simpa [State.fb] using h)]
  rfl

theorem sets_calValues (s : State) (n a b : Nat) : Sets s [(F.LANE_STATUS_PEAK_NOW, n, a % 16), (F.LANE_STATUS_CDR_OFS, n, b % 64), (F.LANE_EVENT_CAL_DONE, n, 1)] (s.calValues n a b) :=
  (((Sets.refl s).snocNew F.LANE_STATUS_PEAK_NOW n a rfl).snocNew F.LANE_STATUS_CDR_OFS n b rfl).snocNew F.LANE_EVENT_CAL_DONE n 1 rfl

/-- The registers of a calibration that ends. -/
def calEndFields : List Fld := [F.LANE_STATUS_PEAK_NOW, F.LANE_STATUS_CDR_OFS, F.LANE_STATUS_CAL, F.LANE_EVENT_CAL_DONE, F.CAL_STATUS_DONE, F.CAL_STATUS_LANE, F.LMP_PORT_STATUS_RX_CAL, F.CAL_STATUS_BUSY, F.MBX_STATUS_JOB_DONE]

theorem calEnds (s : State) {n : Nat} (a b : Nat) (hn : n < 64) :
    ∃ t, (((((s.calValues n a b).setCal n 0).setF F.CAL_STATUS_DONE 0 1).setF F.CAL_STATUS_LANE 0 n).endRecal n true) = t ∧ t.f F.LANE_STATUS_PEAK_NOW n = a % 16 ∧ t.f F.LANE_STATUS_CDR_OFS n = b % 64 ∧ t.f F.LANE_STATUS_CAL n = 0 ∧ t.f F.LANE_EVENT_CAL_DONE n = 1 ∧
      t.f F.CAL_STATUS_DONE 0 = 1 ∧ t.f F.CAL_STATUS_LANE 0 = n ∧ t.lane = s.lane ∧ Off calEndFields s t := by
  have hvals := sets_calValues s n a b
  have hpeak := hvals.2.1 (F.LANE_STATUS_PEAK_NOW, n, a % 16) (by simp)
  have hofs := hvals.2.1 (F.LANE_STATUS_CDR_OFS, n, b % 64) (by simp)
  have hdone := hvals.2.1 (F.LANE_EVENT_CAL_DONE, n, 1) (by simp)
  have hregs : RegsOnly s (s.calValues n a b) := hvals.regsOnly
  have hoffVals := hvals.off
  generalize s.calValues n a b = t at hpeak hofs hdone hregs hoffVals ⊢
  have hcal := setCal_writes t n 0
  have hzero := setCal_cal t n 0 (by decide)
  generalize t.setCal n 0 = u at hcal hzero ⊢
  have hshown := ((Sets.refl u).snocNew F.CAL_STATUS_DONE 0 1 rfl).snocNew F.CAL_STATUS_LANE 0 n rfl
  generalize (u.setF F.CAL_STATUS_DONE 0 1).setF F.CAL_STATUS_LANE 0 n = v at hshown ⊢
  obtain ⟨hjob, hrest⟩ := endRecal_frame v n true
  have hregsV : RegsOnly u v := hshown.regsOnly
  have hall : RegsOnly s v := (hregs.trans hcal.only).trans hregsV
  have hlane : (v.endRecal n true).lane = s.lane := (lane_of_sansFw hrest).trans ((congrArg (fun w : State => w.lane) hall :))
  have htail : Off [F.CAL_STATUS_DONE, F.CAL_STATUS_LANE, F.MBX_STATUS_JOB_DONE] u (v.endRecal n true) := (hshown.off.mono rfl).trans (hjob.mono rfl)
  refine ⟨_, rfl, (htail.at_ _ _ rfl).trans ((hcal.off.at_ _ _ rfl).trans hpeak), (htail.at_ _ _ rfl).trans ((hcal.off.at_ _ _ rfl).trans hofs), (htail.at_ _ _ rfl).trans hzero, (htail.at_ _ _ rfl).trans ((hcal.off.at_ _ _ rfl).trans hdone), ?_, ?_, hlane, (hoffVals.mono rfl).trans ((hcal.off.mono rfl).trans (htail.mono rfl))⟩
  · exact (hjob.at_ _ _ rfl).trans ((hshown.2.1 (F.CAL_STATUS_DONE, 0, 1 % 2 ^ F.CAL_STATUS_DONE.len) (by simp)).trans rfl)
  · exact (hjob.at_ _ _ rfl).trans ((hshown.2.1 (F.CAL_STATUS_LANE, 0, n % 2 ^ F.CAL_STATUS_LANE.len) (by simp)).trans (Nat.mod_eq_of_lt hn))

-- ## Writes of LANE_RX and LANE_CFG

theorem exec_laneRxWrite {s : State} {o : Origin} {n : Nat} (w : Word) (h : n < 64) (hw : s.writeOk o .LANE_RX n = true) : exec (.laneCfgWrite o n true w) s = .next (s.writeLaneRx n w.toNat) :=
  (onInstance_of (decide_eq_true h) _).trans (congrArg Host.Outcome.next (regWriteBy_eq w hw (regAt_LANE_RX h) (by decide)))

theorem exec_laneCfgWrite {s : State} {o : Origin} {n : Nat} (w : Word) (h : n < 64) (hw : s.writeOk o .LANE_CFG n = true) : exec (.laneCfgWrite o n false w) s = .next (s.writeLaneCfg n w.toNat) :=
  (onInstance_of (decide_eq_true h) _).trans (congrArg Host.Outcome.next (regWriteBy_eq w hw (regAt_LANE_CFG h) (by decide)))

/-- A write of LANE_RX, after a calibration has stopped. -/
theorem sets_writeLaneRx (s : State) (n w : Nat) : Sets (s.calAbort n) ([(F.LANE_RX_PEAK_FIXED, n, w / 256 % 2), (F.LANE_RX_PEAK, n, w % 16)] ++ if w / 256 % 2 = 1 then [(F.LANE_STATUS_PEAK_NOW, n, w % 16)] else []) (s.writeLaneRx n w) := by
  have hsets := ((Sets.refl (s.calAbort n)).snocNew F.LANE_RX_PEAK_FIXED n (w / 2 ^ 8) rfl).snocNew F.LANE_RX_PEAK n w rfl
  unfold State.writeLaneRx
  dsimp only
  generalize ((s.calAbort n).setF F.LANE_RX_PEAK_FIXED n (w / 2 ^ 8)).setF F.LANE_RX_PEAK n w = t at hsets ⊢
  have hfixed : t.f F.LANE_RX_PEAK_FIXED n = w / 256 % 2 := hsets.2.1 (F.LANE_RX_PEAK_FIXED, n, w / 256 % 2) List.mem_cons_self
  have hpeak : t.f F.LANE_RX_PEAK n = w % 16 := hsets.2.1 (F.LANE_RX_PEAK, n, w % 16) (List.mem_cons_of_mem _ List.mem_cons_self)
  by_cases h : w / 256 % 2 = 1
  · rw [if_pos (fb_true (hfixed.trans h)), if_pos h, hpeak]
    exact hsets.putNew F.LANE_STATUS_PEAK_NOW n (w % 16) rfl (Nat.mod_lt _ (by decide))
  · rw [if_neg (fb_ne (hfixed ▸ h)), if_neg h, List.append_nil]
    exact hsets

end Sys2Proof.Machine

/-! Settles LaneEvents. -/

namespace Sys2Proof.Machine

-- ## PRBS, code errors and quad PLLs (R321, R324, R343)

theorem exec_prbsLock {n : Nat} (h : n < 64) (k : Nat) (s : State) : exec (.prbsLock n k) s = .next (s.prbs n k) := onInstance_of (decide_eq_true h) _

theorem exec_codeErr {n : Nat} (h : n < 64) (k : CodeErrKind) (s : State) : exec (.codeErr n k) s = .next (s.codeError n k) := onInstance_of (decide_eq_true h) _

theorem prbs_off {s : State} {n k : Nat} (h : s.f F.LANE_CFG_EN n ≠ 1 ∨ s.laneFunc n ≠ fnTest ∨ s.f F.LANE_PRBS_CHK n ≠ 1) : s.prbs n k = s := by
  refine if_neg fun hb => ?_
  simp only [Bool.and_eq_true, decide_eq_true_eq, State.fb] at hb
  exact h.elim (absurd hb.1.1) (Or.rec (absurd hb.1.2) (absurd hb.2))

/-- A check that locks counts its errored bits, up to all ones. -/
theorem sets_prbs {s : State} {n k v : Nat} (hen : s.f F.LANE_CFG_EN n = 1) (hfunc : s.laneFunc n = fnTest) (hchk : s.f F.LANE_PRBS_CHK n = 1) (hv : v = min (2 ^ 32 - 1) (s.f F.LANE_CNT_COUNT (4 * n + 3) + k)) :
    Sets s ([(F.LANE_STATUS_PRBS_LOCK, n, 1), (F.LANE_CNT_COUNT, 4 * n + 3, v)] ++ if v = 2 ^ 32 - 1 then [(F.LANE_CNT_SAT_SAT, n, (s.f F.LANE_CNT_SAT_SAT n ||| 8) % 16)] else []) (s.prbs n k) := by
  have hlt : v < 2 ^ F.LANE_CNT_COUNT.len := by
    show v < 2 ^ 32
    omega
  have hsets := ((Sets.refl s).snocNew F.LANE_STATUS_PRBS_LOCK n 1 rfl).putNew F.LANE_CNT_COUNT (4 * n + 3) v rfl hlt
  have hon : (s.fb F.LANE_CFG_EN n && decide (s.laneFunc n = fnTest) && s.fb F.LANE_PRBS_CHK n) = true := by simp [State.fb, hen, hfunc, hchk]
  rw [State.prbs, if_pos hon]
  dsimp only
  rw [← hv]
  generalize (s.setF F.LANE_STATUS_PRBS_LOCK n 1).setF F.LANE_CNT_COUNT (4 * n + 3) v = t at hsets ⊢
  split
  · have hsat : t.f F.LANE_CNT_SAT_SAT n = s.f F.LANE_CNT_SAT_SAT n := hsets.f_eq _ _ rfl
    rw [State.orF, hsat]
    exact hsets.snocNew F.LANE_CNT_SAT_SAT n (s.f F.LANE_CNT_SAT_SAT n ||| 2 ^ 3) rfl
  · rw [List.append_nil]
    exact hsets

/-- A code error of a receiver that is not blind: its count, and the frame that a control character breaks. -/
theorem codeError_eq {s : State} {n : Nat} (k : CodeErrKind) (h : s.f F.LANE_STATUS_CAL n ≠ 1) :
    s.codeError n k = if k = .controlFrame then (s.laneCount n 1).abortFrame n else s.laneCount n (if k = .disparity then 0 else 1) := by
  unfold State.codeError
  rw [if_neg (fb_ne h)]
  cases k <;> rfl

theorem sets_laneCount (s : State) (n j : Nat) : Sets s (s.counted F.LANE_CNT_COUNT (4 * n + j) F.LANE_CNT_SAT_SAT n j) (s.laneCount n j) := sets_count s (4 * n + j) n j rfl

theorem counted_fields (s : State) (x : Fld) (i : Nat) (y : Fld) (j k : Nat) : ∀ e ∈ s.counted x i y j k, e.1 = x ∨ e.1 = y := by
  unfold State.counted
  split <;> simp

/-- Counting leaves the lane map and the links. -/
theorem laneCount_off (s : State) (n j : Nat) : Off [F.LANE_CNT_COUNT, F.LANE_CNT_SAT_SAT] s (s.laneCount n j) := (Off.refl _ s).count _ _ _ _ _ rfl rfl

/-- A frame that no port is receiving ends nowhere. -/
theorem abortFrame_none {s : State} {n : Nat} (hf : s.laneFunc n ≠ fnHaul) (hi : s.laneFunc n ≠ fnIngress ∨ 8 ≤ s.lanePort n ∨ s.f F.ING_STATUS_LINK (s.lanePort n) ≠ 1) : s.abortFrame n = s := by
  unfold State.abortFrame
  rw [if_neg hf, if_neg]
  rintro ⟨hfunc, hport, hlink⟩
  exact hi.elim (absurd hfunc) (Or.rec (fun h => absurd hport (by omega)) fun h => absurd hlink (fb_ne h))

theorem abortFrame_count {s : State} {n j : Nat} (hf : s.laneFunc n ≠ fnHaul) (hi : s.laneFunc n ≠ fnIngress ∨ 8 ≤ s.lanePort n ∨ s.f F.ING_STATUS_LINK (s.lanePort n) ≠ 1) : (s.laneCount n j).abortFrame n = s.laneCount n j := by
  have hoff := laneCount_off s n j
  generalize s.laneCount n j = t at hoff ⊢
  have hfunc : t.laneFunc n = s.laneFunc n := hoff.at_ _ _ rfl
  have hport : t.lanePort n = s.lanePort n := hoff.at_ _ _ rfl
  exact abortFrame_none (by rwa [hfunc]) (by rw [hfunc, hport, hoff.at_ F.ING_STATUS_LINK _ rfl]; exact hi)

/-- A code error that ends no frame counts (R324). -/
theorem sets_codeError {s : State} {n : Nat} {k : CodeErrKind} (hc : s.f F.LANE_STATUS_CAL n ≠ 1)
    (hk : k ≠ .controlFrame ∨ (s.laneFunc n ≠ fnHaul ∧ (s.laneFunc n ≠ fnIngress ∨ 8 ≤ s.lanePort n ∨ s.f F.ING_STATUS_LINK (s.lanePort n) ≠ 1))) :
    Sets s (s.counted F.LANE_CNT_COUNT (4 * n + (if k = .disparity then 0 else 1)) F.LANE_CNT_SAT_SAT n (if k = .disparity then 0 else 1)) (s.codeError n k) := by
  rw [codeError_eq k hc]
  by_cases hctl : k = .controlFrame
  · obtain ⟨hf, hi⟩ := hk.resolve_left (not_not_intro hctl)
    subst hctl
    rw [if_pos rfl, abortFrame_count hf hi]
    exact sets_laneCount s n 1
  · rw [if_neg hctl]
    exact sets_laneCount s n _

/-- A pixel frame that a control character breaks is dropped (R337). -/
theorem sets_codeError_ingress {s : State} {n p : Nat} (hc : s.f F.LANE_STATUS_CAL n ≠ 1) (hf : s.laneFunc n = fnIngress) (hp : p = s.lanePort n) (h8 : p < 8) (hl : s.f F.ING_STATUS_LINK p = 1) :
    Sets s (s.counted F.LANE_CNT_COUNT (4 * n + 1) F.LANE_CNT_SAT_SAT n 1 ++ s.counted F.ING_CNT_COUNT (8 * p + 2) F.ING_CNT_SAT_SAT p 2 ++ [(F.ING_EVENT_ERROR, p, 1)]) (s.codeError n .controlFrame) := by
  have hcount := sets_laneCount s n 1
  have hoff := laneCount_off s n 1
  rw [codeError_eq _ hc, if_pos rfl]
  generalize s.laneCount n 1 = t at hcount hoff ⊢
  have hfunc : t.laneFunc n = fnIngress := (hoff.at_ _ _ rfl).trans hf
  have hport : t.lanePort n = p := (hoff.at_ _ _ rfl).trans hp.symm
  have hlink : t.f F.ING_STATUS_LINK p = 1 := (hoff.at_ _ _ rfl).trans hl
  have hdrop : t.abortFrame n = t.ingDrop p 2 := by
    unfold State.abortFrame
    rw [if_neg (by rw [hfunc]; decide), hport]
    exact if_pos ⟨hfunc, h8, fb_true hlink⟩
  have hcounted : t.counted F.ING_CNT_COUNT (8 * p + 2) F.ING_CNT_SAT_SAT p 2 = s.counted F.ING_CNT_COUNT (8 * p + 2) F.ING_CNT_SAT_SAT p 2 := by
    unfold State.counted
    rw [hoff.at_ F.ING_CNT_COUNT _ rfl, hoff.at_ F.ING_CNT_SAT_SAT _ rfl]
  have hing := sets_ingDrop t p 2
  rw [hcounted] at hing
  rw [hdrop, List.append_assoc]
  refine hcount.append hing ?_
  unfold State.counted
  split <;> split <;> rfl

/-- A haul frame that a control character breaks ends as aborted (R324). -/
theorem codeError_haul {s : State} {n : Nat} (hc : s.f F.LANE_STATUS_CAL n ≠ 1) (hf : s.laneFunc n = fnHaul) :
    ((s.codeError n .controlFrame).haulPort (s.lanePort n)).rx = none ∧ Fields s (s.counted F.LANE_CNT_COUNT (4 * n + 1) F.LANE_CNT_SAT_SAT n 1) (s.codeError n .controlFrame) := by
  have hcount := sets_laneCount s n 1
  have hoff := laneCount_off s n 1
  rw [codeError_eq _ hc, if_pos rfl]
  generalize s.laneCount n 1 = t at hcount hoff ⊢
  have hfunc : t.laneFunc n = fnHaul := (hoff.at_ _ _ rfl).trans hf
  have hport : t.lanePort n = s.lanePort n := hoff.at_ _ _ rfl
  have hend : t.abortFrame n = t.frameEnd (s.lanePort n) true := by
    rw [State.abortFrame, hport, if_pos hfunc]
  obtain ⟨hregs, hrx, -⟩ := frameEnd_lost t (s.lanePort n)
  rw [hend]
  generalize t.frameEnd (s.lanePort n) true = u at hregs hrx ⊢
  have hsame : ∀ x i, u.f x i = t.f x i := fun x i => by rw [State.f, State.f, hregs]
  exact ⟨hrx, fun e he => (hsame _ _).trans (hcount.2.1 e he), fun x i hx => (hsame x i).trans (hcount.2.2 x i hx)⟩

-- ## Due calibrations (R330, R393)

theorem exec_calSchedule {n : Nat} (h : n < 64) (s : State) : exec (.calSchedule n) s = .next (s.calSched n) := onInstance_of (decide_eq_true h) _

theorem calDue_new {s : State} {n : Nat} (hd : n ∉ s.lane.due) (hc : s.f F.LANE_STATUS_CAL n ≠ 1) : s.calDue n = s.withLane (fun x => { x with due := x.due ++ [n] }) :=
  if_neg (by simp [hd, State.fb, hc])

theorem calDue_joined {s : State} {n : Nat} (h : n ∈ s.lane.due ∨ s.f F.LANE_STATUS_CAL n = 1) : s.calDue n = s := if_pos (h.imp_right fb_true)

theorem calSched_none {s : State} {n : Nat} (h : 60 ≤ n ∨ s.f F.LANE_CFG_EN n ≠ 1 ∨ n ∈ s.lane.due ∨ s.f F.LANE_STATUS_CAL n = 1) : s.calSched n = s := by
  unfold State.calSched
  split
  · next hb =>
    simp only [Bool.and_eq_true, decide_eq_true_eq, State.fb] at hb
    exact calDue_joined (h.elim (fun h => absurd hb.2 (by omega)) (Or.rec (absurd hb.1) id))
  · rfl

/-- Settles O57: each event is one step on the registers of its lane, and the ports that a change of the lane map takes down write none of the fields named. -/
theorem laneEvents : Obligations.LaneEvents := by
  unfold Obligations.LaneEvents
  refine ⟨?_, ?_, ?_, ?_, ?_, ?_, ?_, ?_, ?_, ?_, ?_, ?_, ?_, ?_, ?_, ?_, ?_, ?_, ?_, ?_, ?_, ?_, ?_, ?_, ?_, ?_, ?_, ?_, ?_, ?_, ?_, ?_, ?_⟩
  · exact fun s n hn => ⟨_, exec_laneSignal hn true s, sets_laneUp s n⟩
  · intro s n hn hc
    have hsets := sets_laneDown s n
    rw [calAbort_none hc] at hsets
    exact ⟨_, exec_laneSignal hn false s, hsets⟩
  · intro s n hn hc
    have hsets := sets_laneDown s n
    obtain ⟨hoff, hrest, hzero, habort⟩ := calAbort_running hc
    generalize s.calAbort n = t at hsets hoff hrest hzero habort
    have hregs : RegsOnly t (s.laneSignal n false) := hsets.regsOnly
    have hall : Off (abortFields ++ [F.LANE_STATUS_SIGNAL, F.LANE_STATUS_CDR_LOCK, F.LANE_EVENT_LOS]) s (s.laneSignal n false) := (hoff.mono rfl).trans (hsets.off.mono rfl)
    exact ⟨_, exec_laneSignal hn false s, hsets.2.1 (F.LANE_STATUS_SIGNAL, n, 0) (by simp), hsets.2.1 (F.LANE_STATUS_CDR_LOCK, n, 0) (by simp), hsets.2.1 (F.LANE_EVENT_LOS, n, 1) (by simp), (hsets.f_eq _ _ rfl).trans hzero, (hsets.f_eq _ _ rfl).trans habort, (congrArg (fun u : State => u.lane) hregs).trans (lane_of_sansFw hrest), hall.mono rfl⟩
  · exact fun s n hn h => (exec_laneSyncLoss hn s).trans (congrArg Host.Outcome.next (if_pos (by simpa [State.fb] using h)))
  · intro s n hn h hc
    have hloss : s.laneUnsync n = (s.setF F.LANE_STATUS_SYNC n 0).showLaneSync := by
      unfold State.laneUnsync
      rw [if_neg (by simpa [State.fb] using h), if_pos (fb_true hc)]
    have hshown := laneSync_shown s n 0
    rw [← hloss] at hshown
    exact ⟨_, exec_laneSyncLoss hn s, hshown⟩
  · exact fun s n hn h hc => ⟨_, exec_laneSyncLoss hn s, laneUnsync_counted h hc⟩
  · exact fun s n hn h => (exec_laneSyncAcquire hn s).trans (congrArg Host.Outcome.next (if_neg (by simpa [State.fb, imp_iff_not_or] using h)))
  · intro s n hn hen hcdr
    have hacq : s.laneSyncs n = (s.setF F.LANE_STATUS_SYNC n 1).showLaneSync := if_pos (by simp [State.fb, hen, hcdr])
    have hshown := laneSync_shown s n 1
    rw [← hacq] at hshown
    exact ⟨_, exec_laneSyncAcquire hn s, hshown⟩
  · exact fun s n hn h => (exec_laneCalStart hn s).trans (congrArg Host.Outcome.next (if_pos h))
  · intro s n hn hw hh hr hd hc
    have hnone := applyRestored_none hr
    have hbegin := laneCalBegin_due hn hw hh (by rw [hnone]; exact hd) (by rw [hnone]; exact hc)
    rw [hnone] at hbegin
    obtain ⟨⟨hcal, hbusy, hlane, hlamp, -, hoff⟩, hf, hlane', hhaul, hspoil⟩ := calBegins s hn
    rw [← hbegin] at hf hlane' hhaul hspoil
    exact ⟨_, exec_laneCalStart (by omega) s, (hf _ _).trans hcal, (hf _ _).trans hbusy, hlane'.trans hlane, fun h1 h2 => (hf _ _).trans (hlamp h1 h2), hhaul, hspoil, fun y i hy => (hf y i).trans (hoff y i hy)⟩
  · intro s n v hn hw hh hr hd
    have hsets := sets_applyRestored hr
    have hregs : RegsOnly _ _ := hsets.regsOnly
    have hdue : (s.applyRestored n).lane.due = s.lane.due := (congrArg (fun u : State => u.lane.due) hregs :)
    have hcal : (s.applyRestored n).f F.LANE_STATUS_CAL n = s.f F.LANE_STATUS_CAL n := hsets.f_eq _ _ rfl
    rw [← laneCalBegin_notDue hn hw hh (by rw [hdue, hcal]; exact hd)] at hsets
    exact ⟨_, exec_laneCalStart (by omega) s, hsets⟩
  · intro s n v hn hw hh hr hd hc
    have hsets := sets_applyRestored hr
    have hregs : RegsOnly _ _ := hsets.regsOnly
    have hlane0 : (s.applyRestored n).lane = { s.lane with restored := Tab.set none s.lane.restored n none } := (congrArg (fun u : State => u.lane) hregs :)
    have hcal0 : (s.applyRestored n).f F.LANE_STATUS_CAL n = s.f F.LANE_STATUS_CAL n := hsets.f_eq _ _ rfl
    have hpeak := hsets.2.1 (F.LANE_STATUS_PEAK_NOW, n, v / 64 % 16) (by simp)
    have hofs := hsets.2.1 (F.LANE_STATUS_CDR_OFS, n, v % 64) (by simp)
    have hbegin := laneCalBegin_due hn hw hh (by rw [hlane0]; exact hd) (by rw [hcal0]; exact hc)
    obtain ⟨⟨hcal, -, hlane, -, -, hoff⟩, hf, hlane', -, -⟩ := calBegins (s.applyRestored n) hn
    rw [← hbegin] at hf hlane'
    rw [hlane0] at hlane
    exact ⟨_, exec_laneCalStart (by omega) s, (hf _ _).trans ((hoff.at_ _ _ rfl).trans hpeak), (hf _ _).trans ((hoff.at_ _ _ rfl).trans hofs), (hf _ _).trans hcal, hlane'.trans hlane⟩
  · intro s n hn hw hh hr h
    have hnone := applyRestored_none hr
    exact (exec_laneCalStart (by omega) s).trans (congrArg Host.Outcome.next ((laneCalBegin_notDue hn hw hh (by rw [hnone]; exact h)).trans hnone))
  · exact fun s n a b hn h => (exec_laneCalDone hn a b s).trans (congrArg Host.Outcome.next (if_pos (by simpa [State.fb] using h)))
  · intro s n a b hn h
    have hpeak : (if s.fb F.LANE_RX_PEAK_FIXED n then s.f F.LANE_RX_PEAK n else a % 16) % 16 = (if s.f F.LANE_RX_PEAK_FIXED n = 1 then s.f F.LANE_RX_PEAK n else a) % 16 := by
      simp only [State.fb, decide_eq_true_eq]
      split
      · rfl
      · exact Nat.mod_mod _ _
    obtain ⟨t, ht, h1, h2, h3⟩ := calEnds s (if s.fb F.LANE_RX_PEAK_FIXED n then s.f F.LANE_RX_PEAK n else a % 16) (b % 64) hn
    rw [← laneCalEnd_eq (a % 16) (b % 64) h] at ht
    exact ⟨t, (exec_laneCalDone hn a b s).trans (congrArg Host.Outcome.next ht), h1.trans hpeak, h2.trans (Nat.mod_mod _ _), h3⟩
  · intro s o n w hn hw hc
    have hsets := sets_writeLaneRx s n w.toNat
    rw [calAbort_none hc] at hsets
    exact ⟨_, exec_laneRxWrite w hn hw, hsets⟩
  · intro s o n w rx hn hw hc
    obtain ⟨-, hrest, hzero, habort⟩ := calAbort_running hc
    cases rx with
    | true =>
      have hsets := sets_writeLaneRx s n w.toNat
      have hregs : RegsOnly _ _ := hsets.regsOnly
      have hoff : Off [F.LANE_RX_PEAK_FIXED, F.LANE_RX_PEAK, F.LANE_STATUS_PEAK_NOW] (s.calAbort n) (s.writeLaneRx n w.toNat) := hsets.off.mono (by split <;> rfl)
      exact ⟨_, exec_laneRxWrite w (by omega) hw, (hoff.at_ _ _ rfl).trans hzero, (hoff.at_ _ _ rfl).trans habort, fun _ _ => hregs.dram.trans (dram_of_sansFw hrest)⟩
    | false =>
      have hput : Off laneCfgFields (s.calAbort n) ((s.calAbort n).wordPut n w.toNat) := (sets_wordPut (s.calAbort n) n w.toNat).off
      have hoff := writeLaneCfg_off s w.toNat hn
      exact ⟨_, exec_laneCfgWrite w (by omega) hw, (hoff.at_ _ _ rfl).trans ((hput.at_ _ _ rfl).trans hzero), (hoff.at_ _ _ rfl).trans ((hput.at_ _ _ rfl).trans habort), writeLaneCfg_dram hn⟩
  · intro s o n w hn hw
    have hsets := sets_writeLaneRx s n w.toNat
    refine ⟨_, exec_laneRxWrite w hn hw, hsets.2.1 (F.LANE_RX_PEAK_FIXED, n, w.toNat / 256 % 2) (by simp), hsets.2.1 (F.LANE_RX_PEAK, n, w.toNat % 16) (by simp), fun h => hsets.2.1 (F.LANE_STATUS_PEAK_NOW, n, w.toNat % 16) ?_⟩
    rw [if_pos h]
    simp
  · exact fun s o n w h60 hn hw => (exec_laneCfgWrite w hn hw).trans (congrArg Host.Outcome.next (if_pos h60))
  · intro s o n w hn hw
    have hat := writeLaneCfg_at (s := s) (w := w.toNat) hn
    have hfunc : (if 4 ≤ w.toNat / 2 ^ 24 % 8 then 0 else w.toNat / 2 ^ 24 % 8) % 8 = if 4 ≤ w.toNat / 2 ^ 24 % 8 then 0 else w.toNat / 2 ^ 24 % 8 := by split <;> omega
    refine ⟨_, exec_laneCfgWrite w (by omega) hw, (hat (F.LANE_CFG_EN, n, _) (by simp [laneWord])).trans (word_bits w), (hat (F.LANE_CFG_FUNC, n, _) (by simp [laneWord])).trans hfunc, hat (F.LANE_CFG_PORT, n, _) (by simp [laneWord]),
      hat (F.LANE_CFG_PORT_LANE, n, _) (by simp [laneWord]), hat (F.LANE_CFG_RX_INV, n, _) (by simp [laneWord]), hat (F.LANE_CFG_TX_INV, n, _) (by simp [laneWord]), hat (F.LANE_CFG_RATE, n, _) (by simp [laneWord]), writeLaneCfg_dram hn, fun hen => writeLaneCfg_dropped hn (by rw [word_bits]; exact hen)⟩
  · exact fun s o n p w hn hp hw hen hon hfunc hport hcal => ⟨_, exec_laneCfgWrite w (by omega) hw, writeLaneCfg_gains hn hp hen ((word_bits w).trans hon) hfunc hport hcal⟩
  · intro s n hn hen hd hc
    have hsched : s.calSched n = s.calDue n := if_pos (by simp [State.fb, hen, hn])
    exact (exec_calSchedule (by omega) s).trans (congrArg Host.Outcome.next (hsched.trans (calDue_new hd hc)))
  · exact fun s n hn h => (exec_calSchedule hn s).trans (congrArg Host.Outcome.next (calSched_none h))
  · intro s k hk hh
    exact ⟨s.setF F.CAL_STATUS_DONE 0 1, (onInstance_of (decide_eq_true hk) _).trans (congrArg Host.Outcome.next (if_neg (by simp [hh]))), (Sets.refl s).snocNew F.CAL_STATUS_DONE 0 1 rfl⟩
  · exact fun s k hk hh => (onInstance_of (decide_eq_true hk) _).trans (congrArg Host.Outcome.next (if_pos hh))
  · intro s q hq h
    exact ⟨s.orF F.CLK_STATUS_LANE_LOCK 0 q, (onInstance_of (decide_eq_true hq) _).trans (congrArg Host.Outcome.next (if_pos h)), (Sets.refl s).snocNew F.CLK_STATUS_LANE_LOCK 0 _ rfl⟩
  · exact fun s q hq h => (onInstance_of (decide_eq_true hq) _).trans (congrArg Host.Outcome.next (if_neg (by simp [h])))
  · exact fun s n k v hn hen hfunc hchk hv => ⟨_, exec_prbsLock hn k s, sets_prbs hen hfunc hchk hv⟩
  · exact fun s n k hn h => (exec_prbsLock hn k s).trans (congrArg Host.Outcome.next (prbs_off h))
  · exact fun s n k hn h => (exec_codeErr hn k s).trans (congrArg Host.Outcome.next (if_pos (fb_true h)))
  · intro s n j k hn hc hk hj
    subst hj
    exact ⟨_, exec_codeErr hn k s, sets_codeError hc hk⟩
  · exact fun s n p hn hc hf hp h8 hl => ⟨_, exec_codeErr hn .controlFrame s, sets_codeError_ingress hc hf hp h8 hl⟩
  · exact fun s n hn hc hf => ⟨_, exec_codeErr hn .controlFrame s, codeError_haul hc hf⟩

end Sys2Proof.Machine

/-! Settles LaneAndMemoryCommands (R297, R306, R326, R330 to R333). -/

namespace Sys2Proof.Machine

-- ## LANE_CONFIG

/-- Steps on different instances of a field: each leaves its own value. -/
theorem chainAll_at_key {α : Type} {l : List α} {key : α → Nat} {g : α → State → State} {x : Fld} {v : α → Nat} (hl : (l.map key).Nodup) (hself : ∀ a ∈ l, ∀ t, (g a t).f x (key a) = v a) (hother : ∀ a ∈ l, ∀ t j, j ≠ key a → (g a t).f x j = t.f x j) (s : State) :
    ∀ a ∈ l, (chainAll l g s).f x (key a) = v a := by
  induction l generalizing s with
  | nil => simp
  | cons b l ih =>
    obtain ⟨hb, hl⟩ := List.nodup_cons.mp hl
    intro a ha
    rcases List.mem_cons.mp ha with rfl | ha
    · have hkeep := chainAll_keep_mem (fun t => t.f x (key a)) l g (fun c hc t => hother c (List.mem_cons_of_mem _ hc) t _ fun h => hb (List.mem_map.mpr ⟨c, hc, h.symm⟩)) (g a s)
      exact hkeep.trans (hself a List.mem_cons_self s)
    · exact ih hl (fun c hc => hself c (List.mem_cons_of_mem _ hc)) (fun c hc => hother c (List.mem_cons_of_mem _ hc)) (g b s) a ha

/-- The registers that an entry of LANE_CONFIG may write on other lanes and ports. -/
def entryBeside : List Fld := abortFields ++ laneChangedFields ++ [F.LANE_RX_PEAK_FIXED, F.LANE_RX_PEAK, F.LANE_STATUS_PEAK_NOW]

/-- The registers of the lane that an entry names. -/
def entryFields : List Fld := laneCfgFields ++ [F.LANE_TX_AMP, F.LANE_TX_DEEMPH]

/-- The transmitter's part of an entry. -/
def State.entryTx (s : State) (e : List Byte) : State := (s.setF F.LANE_TX_AMP (byteAt e 0) (byteAt e 6 / 16)).setF F.LANE_TX_DEEMPH (byteAt e 0) (byteAt e 6 % 8)

theorem sets_entryTx (s : State) (e : List Byte) : Sets s [(F.LANE_TX_AMP, byteAt e 0, byteAt e 6 / 16 % 4), (F.LANE_TX_DEEMPH, byteAt e 0, byteAt e 6 % 8)] (s.entryTx e) :=
  ((Sets.refl s).snocNew F.LANE_TX_AMP (byteAt e 0) (byteAt e 6 / 16) rfl).putNew F.LANE_TX_DEEMPH (byteAt e 0) (byteAt e 6 % 8) rfl (Nat.mod_lt _ (by decide))

/-- The receiver's part of an entry, and its place in the configuration. -/
def State.entryRx (s : State) (e : List Byte) : State :=
  let t := s.writeLaneRx (byteAt e 0) (if byteAt e 7 = 255 then s.f F.LANE_RX_PEAK (byteAt e 0) else 256 + byteAt e 7)
  if 128 ≤ byteAt e 5 then { t with conf := { t.conf with lanes := Tab.set [] t.conf.lanes (byteAt e 0) e } } else t

theorem applyEntry_eq (s : State) (e : List Byte) : s.applyEntry e = ((s.writeLaneCfg (byteAt e 0) (laneEntryWord e)).entryTx e).entryRx e := rfl

theorem entryRx_off (s : State) (e : List Byte) : Off (abortFields ++ [F.LANE_RX_PEAK_FIXED, F.LANE_RX_PEAK, F.LANE_STATUS_PEAK_NOW]) s (s.entryRx e) := by
  have hrx : ∀ n w, Off (abortFields ++ [F.LANE_RX_PEAK_FIXED, F.LANE_RX_PEAK, F.LANE_STATUS_PEAK_NOW]) s (s.writeLaneRx n w) := fun n w => by
    have hsets : Off [F.LANE_RX_PEAK_FIXED, F.LANE_RX_PEAK, F.LANE_STATUS_PEAK_NOW] (s.calAbort n) (s.writeLaneRx n w) := (sets_writeLaneRx s n w).off.mono (by split <;> rfl)
    exact ((calAbort_frame s n).1.mono rfl).trans (hsets.mono rfl)
  unfold State.entryRx
  dsimp only
  split
  · exact fun x i hx => hrx _ _ x i hx
  · exact hrx _ _

theorem applyEntry_other (s : State) {e : List Byte} (h : byteAt e 0 < 60) (x : Fld) (i : Nat) (hx : x.outside entryBeside) (hi : x.outside entryFields ∨ i ≠ byteAt e 0) : (s.applyEntry e).f x i = s.f x i := by
  have hcfg := writeLaneCfg_other s (w := laneEntryWord e) h x i (fun y hy => hx y (List.mem_append_left _ hy)) (hi.imp_left fun hi y hy => hi y (List.mem_append_left _ hy))
  rw [applyEntry_eq]
  generalize s.writeLaneCfg (byteAt e 0) (laneEntryWord e) = t at hcfg ⊢
  have htx : (t.entryTx e).f x i = t.f x i := (sets_entryTx t e).2.2 x i fun y hy hc => by
    have hy' : y.1 ∈ entryFields ∧ y.2.1 = byteAt e 0 := by
      rcases List.mem_cons.mp hy with rfl | hy
      · exact ⟨by simp [entryFields], rfl⟩
      · rw [List.mem_singleton.mp hy]
        exact ⟨by simp [entryFields], rfl⟩
    exact hi.elim (fun hi => hi y.1 hy'.1 hc.1) fun hi => hi (hc.2.trans hy'.2)
  refine (entryRx_off (t.entryTx e) e x i fun y hy => hx y ?_).trans (htx.trans hcfg)
  rcases List.mem_append.mp hy with hy | hy
  · exact List.mem_append_left _ (List.mem_append_left _ hy)
  · exact List.mem_append_right _ hy

/-- The settings of an entry in range, as its word gives them. -/
theorem laneEntryWord_bits {e : List Byte} (h : laneEntryOk e = true) :
    byteAt e 0 < 60 ∧ laneEntryWord e / 2 ^ 31 % 2 = 1 ∧ laneEntryWord e / 2 ^ 24 % 8 = byteAt e 1 ∧ byteAt e 1 ≤ 3 ∧ laneEntryWord e / 2 ^ 16 % 64 = byteAt e 2 % 64 ∧ laneEntryWord e / 2 ^ 12 % 4 = byteAt e 3 ∧ laneEntryWord e % 4 = byteAt e 4 ∧ byteAt e 6 / 16 % 4 = byteAt e 6 / 16 := by
  unfold laneEntryOk at h
  simp only [Bool.and_eq_true, decide_eq_true_eq] at h
  obtain ⟨⟨⟨⟨⟨⟨⟨⟨h0, h1⟩, -⟩, h3⟩, h4⟩, -⟩, h6⟩, -⟩, -⟩ := h
  have h2 := byteAt_lt e 2
  unfold laneEntryWord
  generalize byteAt e 5 = c
  refine ⟨h0, ?_, ?_, h1, ?_, ?_, ?_, ?_⟩ <;> omega

/-- What an entry in range leaves on its lane. -/
theorem applyEntry_at (s : State) {e : List Byte} (h : laneEntryOk e = true) :
    ∀ v ∈ [(F.LANE_CFG_EN, 1), (F.LANE_CFG_FUNC, byteAt e 1), (F.LANE_CFG_PORT, byteAt e 2 % 64), (F.LANE_CFG_PORT_LANE, byteAt e 3), (F.LANE_CFG_RATE, byteAt e 4), (F.LANE_TX_AMP, byteAt e 6 / 16), (F.LANE_TX_DEEMPH, byteAt e 6 % 8)],
      (s.applyEntry e).f v.1 (byteAt e 0) = v.2 := by
  obtain ⟨h0, hen, hfunc, h1, hport, hlane, hrate, hamp⟩ := laneEntryWord_bits h
  have hat := writeLaneCfg_at (s := s) (w := laneEntryWord e) h0
  rw [applyEntry_eq]
  generalize s.writeLaneCfg (byteAt e 0) (laneEntryWord e) = t at hat ⊢
  have htx := sets_entryTx t e
  have hrx := entryRx_off (t.entryTx e) e
  have hkeep : ∀ x, codesAvoid [(F.LANE_TX_AMP, byteAt e 0, byteAt e 6 / 16 % 4), (F.LANE_TX_DEEMPH, byteAt e 0, byteAt e 6 % 8)] [x.code] = true → (t.entryTx e).f x (byteAt e 0) = t.f x (byteAt e 0) := fun x hx => htx.f_eq x _ hx
  have hfunc' : (if 4 ≤ laneEntryWord e / 2 ^ 24 % 8 then 0 else laneEntryWord e / 2 ^ 24 % 8) % 8 = byteAt e 1 := by
    rw [hfunc, if_neg (by omega)]
    omega
  simp only [List.mem_cons, List.not_mem_nil, or_false, forall_eq_or_imp, forall_eq]
  refine ⟨?_, ?_, ?_, ?_, ?_, ?_, ?_⟩
  · exact (hrx.at_ _ _ rfl).trans ((hkeep _ rfl).trans ((hat (F.LANE_CFG_EN, byteAt e 0, _) (by simp [laneWord])).trans hen))
  · exact (hrx.at_ _ _ rfl).trans ((hkeep _ rfl).trans ((hat (F.LANE_CFG_FUNC, byteAt e 0, _) (by simp [laneWord])).trans hfunc'))
  · exact (hrx.at_ _ _ rfl).trans ((hkeep _ rfl).trans ((hat (F.LANE_CFG_PORT, byteAt e 0, _) (by simp [laneWord])).trans hport))
  · exact (hrx.at_ _ _ rfl).trans ((hkeep _ rfl).trans ((hat (F.LANE_CFG_PORT_LANE, byteAt e 0, _) (by simp [laneWord])).trans hlane))
  · exact (hrx.at_ _ _ rfl).trans ((hkeep _ rfl).trans ((hat (F.LANE_CFG_RATE, byteAt e 0, _) (by simp [laneWord])).trans hrate))
  · exact (hrx.at_ _ _ rfl).trans ((htx.2.1 (F.LANE_TX_AMP, byteAt e 0, byteAt e 6 / 16 % 4) (by simp)).trans hamp)
  · exact (hrx.at_ _ _ rfl).trans (htx.2.1 (F.LANE_TX_DEEMPH, byteAt e 0, byteAt e 6 % 8) (by simp))

/-- The entries of a legal set, applied one after the other. -/
def State.applyLanes (s : State) (es : List (List Byte)) : State := chainAll es (fun e u => u.applyEntry e) s

theorem applyLanes_off {es : List (List Byte)} (h : ∀ e ∈ es, laneEntryOk e = true) (s : State) : Off (entryBeside ++ entryFields) s (s.applyLanes es) := fun x i hx =>
  chainAll_keep_mem (fun t => t.f x i) es _ (fun e he t => applyEntry_other t (laneEntryWord_bits (h e he)).1 x i (fun y hy => hx y (List.mem_append_left _ hy)) (.inl fun y hy => hx y (List.mem_append_right _ hy))) s

theorem applyLanes_at {es : List (List Byte)} (h : ∀ e ∈ es, laneEntryOk e = true) (hnodup : (es.map (fun e => byteAt e 0)).Nodup) (s : State) {x : Fld} {v : List Byte → Nat} (hx : x.outside entryBeside) (hv : ∀ e ∈ es, ∀ t : State, (t.applyEntry e).f x (byteAt e 0) = v e) :
    ∀ e ∈ es, (s.applyLanes es).f x (byteAt e 0) = v e :=
  chainAll_at_key hnodup hv (fun e he t _ hj => applyEntry_other t (laneEntryWord_bits (h e he)).1 x _ hx (.inr hj)) s

theorem applyLanes_unnamed {es : List (List Byte)} (h : ∀ e ∈ es, laneEntryOk e = true) {l : Nat} (hl : ∀ e ∈ es, byteAt e 0 ≠ l) (s : State) {x : Fld} (hx : x.outside entryBeside) : (s.applyLanes es).f x l = s.f x l :=
  chainAll_keep_mem (fun t => t.f x l) es _ (fun e he t => applyEntry_other t (laneEntryWord_bits (h e he)).1 x l hx (.inr (hl e he).symm)) s

/-- LANE_CONFIG of a legal set (R331, R332). -/
theorem exec_laneConfig {s : State} {m : Nat} (ha : s.accepts m 0x0430 = true) (hl : s.mbxLen m = 1 + 8 * byteAt (s.mbxArgs m) 0) (hlen : (s.mbxArgs m).length = s.mbxLen m) (h1 : 1 ≤ byteAt (s.mbxArgs m) 0) (h16 : byteAt (s.mbxArgs m) 0 ≤ 16)
    (hok : ((List.range (byteAt (s.mbxArgs m) 0)).map (fun i => sliceOf (s.mbxArgs m) (1 + 8 * i) 8)).all laneEntryOk = true) (hlegal : (chainAll ((List.range (byteAt (s.mbxArgs m) 0)).map (fun i => sliceOf (s.mbxArgs m) (1 + 8 * i) 8)) (fun e u => u.tryEntry e) s).lanesLegal = true) :
    exec (.laneConfig m) s = .next ((s.applyLanes ((List.range (byteAt (s.mbxArgs m) 0)).map (fun i => sliceOf (s.mbxArgs m) (1 + 8 * i) 8))).putResult m stOk []) := by
  have hlenOk : (decide (s.mbxLen m % 8 = 1) && decide (9 ≤ s.mbxLen m)) = true := by
    simp only [Bool.and_eq_true, decide_eq_true_eq]
    omega
  refine (exec_served (c := .laneConfig m) rfl ha hlenOk).trans (congrArg Host.Outcome.next ?_)
  dsimp only
  rw [if_neg (by omega), if_neg (by omega), if_neg (by rw [hok, hlegal]; simp)]
  rfl

-- ## DDR_TIMING_SET (R297)

theorem sets_armTimings (s : State) (c : Nat) (ps : List (Nat × Nat)) : Sets (s.setMchan c { s.mchan c with shadow := ps.foldl (fun t p => Tab.set 0 t p.1 p.2) (s.mchan c).shadow }) [(F.DDR_TIMING_ARM_SHADOW_ARMED, c, 1)] (s.armTimings c ps) :=
  (Sets.refl _).snocNew F.DDR_TIMING_ARM_SHADOW_ARMED c 1 rfl

theorem mem_putResult (s : State) (m : Nat) {status : Nat} {data : List Byte} (hs : status < 65536) (hd : data.length ≤ 248) : (s.putResult m status data).mem = s.mem :=
  (congrArg (fun v : State => v.mem) (sets_putResult s m hs hd).1 :)

theorem f_setMchan (s : State) (c : Nat) (x : MemChan) (y : Fld) (i : Nat) : (s.setMchan c x).f y i = s.f y i := rfl

theorem armTimings_at (s : State) (c : Nat) (ps : List (Nat × Nat)) : (s.armTimings c ps).f F.DDR_TIMING_ARM_SHADOW_ARMED c = 1 := (sets_armTimings s c ps).2.1 (F.DDR_TIMING_ARM_SHADOW_ARMED, c, 1) List.mem_cons_self

theorem armTimings_f (s : State) (c : Nat) (ps : List (Nat × Nat)) (y : Fld) (i : Nat) (h : ¬(y.code = F.DDR_TIMING_ARM_SHADOW_ARMED.code ∧ i = c)) : (s.armTimings c ps).f y i = s.f y i :=
  ((sets_armTimings s c ps).2.2 y i fun e he => by rw [List.mem_singleton.mp he]; exact h).trans (f_setMchan s c _ y i)

/-- The timings that DDR_TIMING_SET asks for, in mailbox `m`. -/
def State.timingArgs (s : State) (m : Nat) : List (Nat × Nat) := (List.range (byteAt (s.mbxArgs m) 1)).map (fun i => (byteAt (s.mbxArgs m) (2 + 3 * i), leAt (s.mbxArgs m) (3 + 3 * i) 2))

/-- Timings at or above the table arm the channels named. -/
theorem exec_ddrTimingSet {s : State} {m : Nat} (ha : s.accepts m 0x0441 = true) (hl : s.mbxLen m = 2 + 3 * byteAt (s.mbxArgs m) 1) (hlen : (s.mbxArgs m).length = s.mbxLen m) (h1 : 1 ≤ byteAt (s.mbxArgs m) 1) (h30 : byteAt (s.mbxArgs m) 1 ≤ 30)
    (hcs : s.namedChannels (byteAt (s.mbxArgs m) 0) ≠ []) (hps : ∀ c ∈ s.namedChannels (byteAt (s.mbxArgs m) 0), ∀ p ∈ s.timingArgs m, p.1 ≤ 17 ∧ s.timingMin c p.1 ≤ p.2) :
    exec (.ddrTimingSet m) s = .next ((chainAll (s.namedChannels (byteAt (s.mbxArgs m) 0)) (fun c u => u.armTimings c (s.timingArgs m)) s).putResult m stOk []) := by
  have hlenOk : (decide (5 ≤ s.mbxLen m) && decide (s.mbxLen m % 3 = 2)) = true := by
    simp only [Bool.and_eq_true, decide_eq_true_eq]
    omega
  have hany : (s.namedChannels (byteAt (s.mbxArgs m) 0)).any (fun c => (s.timingArgs m).any (fun p => decide (17 < p.1) || decide (p.2 < s.timingMin c p.1))) = false := by
    simp only [List.any_eq_false, Bool.or_eq_true, decide_eq_true_eq, Bool.not_eq_true]
    intro c hc p hp
    obtain ⟨hindex, hmin⟩ := hps c hc p hp
    omega
  refine (exec_served (c := .ddrTimingSet m) rfl ha hlenOk).trans (congrArg Host.Outcome.next (if_neg ?_))
  rintro (h | h | h | h | h)
  · omega
  · omega
  · omega
  · exact hcs h
  · exact absurd (h.symm.trans hany) (by decide)

theorem armTimings_other (s : State) {c d : Nat} (ps : List (Nat × Nat)) (h : c ≠ d) : (s.armTimings d ps).mchan c = s.mchan c := Tab.get_set_ne _ _ _ h

theorem armTimings_own (s : State) (c : Nat) (ps : List (Nat × Nat)) : (s.armTimings c ps).mchan c = { s.mchan c with shadow := ps.foldl (fun t p => Tab.set 0 t p.1 p.2) (s.mchan c).shadow } := mchan_setMchan s c _

/-- Settles O45: the entries of a legal set write their own lanes and, beside them, no setting of another lane; a due calibration or retrain and armed timings are their commands' own fields. -/
theorem laneAndMemoryCommands : Obligations.LaneAndMemoryCommands := by
  unfold Obligations.LaneAndMemoryCommands
  refine ⟨?_, ?_, ?_, ?_, ?_⟩
  · intro s m k es ha hl hlen hk h1 h16 hes hok hlegal hnodup
    subst hk
    have hexec := exec_laneConfig ha hl hlen h1 h16 (hes ▸ hok) (hes ▸ hlegal)
    rw [← hes] at hexec
    have hall : ∀ e ∈ es, laneEntryOk e = true := List.all_eq_true.mp hok
    have hoff := applyLanes_off hall s
    have hres : Off resultFields (s.applyLanes es) ((s.applyLanes es).putResult m stOk []) := (Off.refl resultFields _).putResult m (by decide) (by simp) rfl
    have hset : ∀ (x : Fld) (v : List Byte → Nat), x.outside entryBeside → x.outside resultFields → (∀ e ∈ es, ∀ t : State, (t.applyEntry e).f x (byteAt e 0) = v e) → ∀ e ∈ es, ((s.applyLanes es).putResult m stOk []).f x (byteAt e 0) = v e :=
      fun x v hx hr hv e he => (hres x _ hr).trans (applyLanes_at hall hnodup s hx hv e he)
    have hkept : ∀ l, (∀ e ∈ es, byteAt e 0 ≠ l) → ∀ x : Fld, x.outside entryBeside → x.outside resultFields → ((s.applyLanes es).putResult m stOk []).f x l = s.f x l :=
      fun l hl x hx hr => (hres x _ hr).trans (applyLanes_unnamed hall hl s hx)
    have hval := fun e (he : e ∈ es) (t : State) => applyEntry_at t (hall e he)
    refine ⟨_, hexec, fun e he => ⟨?_, ?_, ?_, ?_, ?_, ?_, ?_⟩, fun l hl => ⟨?_, ?_, ?_⟩, hoff.answers m rfl (by decide) (by simp)⟩
    · exact hset F.LANE_CFG_EN (fun _ => 1) (by unfold Fld.outside; decide) (by unfold Fld.outside; decide) (fun e he t => hval e he t (F.LANE_CFG_EN, 1) (by simp)) e he
    · exact hset F.LANE_CFG_FUNC (fun e => byteAt e 1) (by unfold Fld.outside; decide) (by unfold Fld.outside; decide) (fun e he t => hval e he t (F.LANE_CFG_FUNC, byteAt e 1) (by simp)) e he
    · exact hset F.LANE_CFG_PORT (fun e => byteAt e 2 % 64) (by unfold Fld.outside; decide) (by unfold Fld.outside; decide) (fun e he t => hval e he t (F.LANE_CFG_PORT, byteAt e 2 % 64) (by simp)) e he
    · exact hset F.LANE_CFG_PORT_LANE (fun e => byteAt e 3) (by unfold Fld.outside; decide) (by unfold Fld.outside; decide) (fun e he t => hval e he t (F.LANE_CFG_PORT_LANE, byteAt e 3) (by simp)) e he
    · exact hset F.LANE_CFG_RATE (fun e => byteAt e 4) (by unfold Fld.outside; decide) (by unfold Fld.outside; decide) (fun e he t => hval e he t (F.LANE_CFG_RATE, byteAt e 4) (by simp)) e he
    · exact hset F.LANE_TX_AMP (fun e => byteAt e 6 / 16) (by unfold Fld.outside; decide) (by unfold Fld.outside; decide) (fun e he t => hval e he t (F.LANE_TX_AMP, byteAt e 6 / 16) (by simp)) e he
    · exact hset F.LANE_TX_DEEMPH (fun e => byteAt e 6 % 8) (by unfold Fld.outside; decide) (by unfold Fld.outside; decide) (fun e he t => hval e he t (F.LANE_TX_DEEMPH, byteAt e 6 % 8) (by simp)) e he
    · exact hkept l hl F.LANE_CFG_EN (by unfold Fld.outside; decide) (by unfold Fld.outside; decide)
    · exact hkept l hl F.LANE_CFG_FUNC (by unfold Fld.outside; decide) (by unfold Fld.outside; decide)
    · exact hkept l hl F.LANE_CFG_PORT (by unfold Fld.outside; decide) (by unfold Fld.outside; decide)
  · intro s m n ha hl hn hn59
    subst hn
    have hexec : exec (.laneRecal m) s = .next ((s.calDue (byteAt (s.mbxArgs m) 0)).startJob m (.recal [byteAt (s.mbxArgs m) 0])) :=
      (exec_served (c := .laneRecal m) rfl ha (by simp [hl])).trans (congrArg Host.Outcome.next (if_neg (by omega)))
    generalize byteAt (s.mbxArgs m) 0 = n at hexec hn59
    have hdue : s.calDue n = s.withLane (fun w => { w with due := if n ∈ w.due ∨ s.f F.LANE_STATUS_CAL n = 1 then w.due else w.due ++ [n] }) := by
      by_cases h : n ∈ s.lane.due ∨ s.f F.LANE_STATUS_CAL n = 1
      · rw [calDue_joined h, State.withLane, if_pos h]
      · rw [calDue_new (fun hd => h (.inl hd)) (fun hc => h (.inr hc)), State.withLane, State.withLane, if_neg h]
    have hjob := sets_startJob (s.calDue n) m (.recal [n])
    rw [hdue] at hexec hjob
    exact ⟨_, hexec, hjob⟩
  · intro s m c ha hl hc hlt
    subst hc
    exact ⟨_, (exec_served (c := .ddrRetrain m) rfl ha (by simp [hl])).trans (congrArg Host.Outcome.next (if_neg (by omega))), sets_startJob (s.setMchan _ _) m _⟩
  · intro s m c k ps ha hl hlen hk h1 h30 hc hlt hps hmin
    subst hk
    have hchans : s.channels ≤ 4 := by
      unfold State.channels
      split <;> decide
    have hnamed : s.namedChannels (byteAt (s.mbxArgs m) 0) = [c] := by
      rw [← hc, State.namedChannels, if_neg (by omega), if_pos hlt]
    have hargs : ps = s.timingArgs m := hps
    have hexec := exec_ddrTimingSet ha hl hlen h1 h30 (by simp [hnamed]) (by rw [hnamed, ← hargs]; simpa using hmin)
    rw [hnamed, ← hargs] at hexec
    exact ⟨_, hexec, (sets_armTimings s c ps).putAnswer m stOk [] rfl (by decide) (by simp)⟩
  · intro s m k ps ha hl hlen hk h1 h30 hc hps hmin
    subst hk
    have hnamed : s.namedChannels (byteAt (s.mbxArgs m) 0) = List.range s.channels := by
      rw [hc]
      exact if_pos rfl
    have hsome : List.range s.channels ≠ [] := by
      unfold State.channels
      split <;> decide
    have hargs : ps = s.timingArgs m := hps
    have hexec := exec_ddrTimingSet ha hl hlen h1 h30 (hnamed ▸ hsome) (by rw [hnamed, ← hargs]; exact fun c hc => hmin c (List.mem_range.mp hc))
    rw [hnamed, ← hargs] at hexec
    have hoff : Off [F.DDR_TIMING_ARM_SHADOW_ARMED] s (chainAll (List.range s.channels) (fun c u => u.armTimings c ps) s) := (Off.refl _ s).chainAll _ _ fun c t x i hx => armTimings_f t c ps x i fun h => hx _ List.mem_cons_self h.1
    refine ⟨_, hexec, fun c hc => ⟨?_, ?_⟩, hoff.answers m rfl (by decide) (by simp)⟩
    · obtain ⟨u, hu, hlast⟩ := chainAll_focus (fun t => t.mchan c) (List.mem_range.mpr hc) List.nodup_range (g := fun c u => u.armTimings c ps) (fun b t hb => armTimings_other t ps hb.symm) s
      have hres : ∀ t : State, (t.putResult m stOk []).mchan c = t.mchan c := fun t => by rw [State.mchan, State.mchan, mem_putResult t m (by decide) (by simp)]
      rw [hres, hlast, armTimings_own, hu]
    · rw [putResult_frame _ _ (by decide) (by simp) _ (by unfold Fld.outside; decide)]
      exact chainAll_at (g := fun c u => u.armTimings c ps) (fun t => armTimings_at t c ps) (fun a t j hj => armTimings_f t a ps _ j fun h => hj h.2) (List.mem_range.mpr hc) s

end Sys2Proof.Machine

/-! Settles ChipResets (R44, R370, R391, R392): what a reset of the core domain keeps. -/

namespace Sys2Proof.Machine

-- ## The register fields that survive

/-- What a chip reset keeps of one field of the registers. -/
def keptEntry (e : Nat × Tab Nat) : Option (Nat × Tab Nat) :=
  if e.1 ∈ aonCodes then some e
  else if e.1 ∈ aonRoute then
    let r := e.2.filter (fun x => wakeCapable x.1)
    if r = [] then none else some (e.1, r)
  else none

theorem keepRegs_eq (t : Tab (Tab Nat)) : keepRegs t = t.filterMap keptEntry := rfl

theorem keptEntry_aon {e : Nat × Tab Nat} (h : e.1 ∈ aonCodes) : keptEntry e = some e := if_pos h

/-- What is kept of an entry is of the same field, which the always-on domain holds. -/
theorem keptEntry_code {e e' : Nat × Tab Nat} (h : keptEntry e = some e') : e'.1 = e.1 ∧ (e.1 ∈ aonCodes ∨ e.1 ∈ aonRoute) := by
  unfold keptEntry at h
  dsimp only at h
  split at h
  · next hc => exact ⟨by rw [Option.some.inj h], .inl hc⟩
  · split at h
    · next hc =>
      split at h
      · cases h
      · exact ⟨by rw [← Option.some.inj h], .inr hc⟩
    · cases h

theorem get_keepRegs_aon (t : Tab (Tab Nat)) {k : Nat} (h : k ∈ aonCodes) : Tab.get [] (keepRegs t) k = Tab.get [] t k := by
  rw [keepRegs_eq]
  induction t with
  | nil => rfl
  | cons e r ih =>
    by_cases hk : e.1 = k
    · rw [List.filterMap_cons_some (keptEntry_aon (hk ▸ h)), Tab.get, Tab.get, if_pos hk, if_pos hk]
    · rw [Tab.get, if_neg hk]
      cases hkept : keptEntry e with
      | none => rw [List.filterMap_cons_none hkept, ih]
      | some e' => rw [List.filterMap_cons_some hkept, Tab.get, if_neg (by rw [(keptEntry_code hkept).1]; exact hk), ih]

theorem get_keepRegs_other (t : Tab (Tab Nat)) {k : Nat} (ha : k ∉ aonCodes) (hr : k ∉ aonRoute) : Tab.get [] (keepRegs t) k = [] := by
  rw [keepRegs_eq]
  induction t with
  | nil => rfl
  | cons e r ih =>
    cases hkept : keptEntry e with
    | none => rw [List.filterMap_cons_none hkept, ih]
    | some e' =>
      obtain ⟨hcode, hheld⟩ := keptEntry_code hkept
      have hne : e'.1 ≠ k := fun hk => hheld.elim (fun h => ha (hk ▸ hcode ▸ h)) fun h => hr (hk ▸ hcode ▸ h)
      rw [List.filterMap_cons_some hkept, Tab.get, if_neg hne, ih]

-- ## Fields from OTP

/-- The fields that a reset loads from OTP. -/
def otpFields : List Fld := [F.GLB_BOOT_STATUS_LC_STATE, F.SEC_STATUS_LC_STATE, F.PCIE_F1_CTRL_F1_PRESENT, F.GLB_UID_LO_UID, F.GLB_UID_HI_UID, F.SEC_STATUS_KWK_OK, F.SEC_STATUS_ID_OK, F.SEC_STATUS_REVOKE0]

theorem loadOtp_off (s : State) : Off otpFields s s.loadOtp := by
  unfold State.loadOtp
  exact ((((((((Off.refl _ s).setF _ _ _ rfl).setF _ _ _ rfl).setF _ _ _ rfl).setF _ _ _ rfl).setF _ _ _ rfl).setF _ _ _ rfl).setF _ _ _ rfl).setF _ _ _ rfl

theorem unloaded_f (s : State) (x : Fld) (i : Nat) : s.unloaded.f x i = Tab.get (x.reset i) (Tab.get [] (keepRegs s.regs) x.code) i := rfl

theorem coreReset_aon (s : State) {x : Fld} (i : Nat) (h : x.code ∈ aonCodes) : s.coreReset.f x i = s.f x i := by
  have hout : ∀ k ∈ aonCodes, ∀ y ∈ otpFields, k ≠ y.code := by decide
  rw [show s.coreReset.f x i = s.unloaded.f x i from loadOtp_off s.unloaded x i (hout x.code h), unloaded_f, get_keepRegs_aon _ h, State.f]

theorem coreReset_cleared (s : State) {x : Fld} (i : Nat) (ha : x.code ∉ aonCodes) (hr : x.code ∉ aonRoute) (ho : x.outside otpFields) : s.coreReset.f x i = x.reset i := by
  rw [show s.coreReset.f x i = s.unloaded.f x i from loadOtp_off s.unloaded x i ho, unloaded_f, get_keepRegs_other _ ha hr]
  rfl

/-- The stores, the always-on domain and the commands that wait stay. -/
theorem coreReset_kept (s : State) : s.coreReset.dram = s.dram ∧ s.coreReset.flash = s.flash ∧ s.coreReset.otp = s.otp ∧ s.coreReset.aon = s.aon ∧ s.coreReset.pending = s.pending := by
  have hregs : s.coreReset = { s.unloaded with regs := s.coreReset.regs } := coreReset_regsOnly s
  exact ⟨(congrArg State.dram hregs :), (congrArg State.flash hregs :), (congrArg State.otp hregs :), (congrArg State.aon hregs :), (congrArg State.pending hregs :)⟩

-- ## Power-on

/-- The part at power-on, before it is loaded from OTP. -/
def State.unpowered (s : State) : State := { State.reset with flash := s.flash, otp := s.otp, otpBad := s.otpBad, conf := s.conf, free := s.free, pending := s.pending }

theorem powerOn_parts (s : State) : s.powerOn.flash = s.flash ∧ s.powerOn.otp = s.otp ∧ s.powerOn.pending = s.pending ∧ s.powerOn.dram = [] ∧ s.powerOn.aon = State.reset.aon ∧ s.powerOn.lc = s.lcOtp % 8 ∧ s.powerOn.fatal = false ∧ s.powerOn.stage = 0 := by
  have hregs : s.powerOn = { s.unpowered with regs := s.powerOn.regs } := loadOtp_regsOnly s.unpowered
  have hoff : Off otpFields s.unpowered s.powerOn := loadOtp_off s.unpowered
  have hfatal : s.powerOn.f F.FLT_STATUS_FATAL 0 = 0 := hoff.at_ _ _ rfl
  refine ⟨(congrArg State.flash hregs :), (congrArg State.otp hregs :), (congrArg State.pending hregs :), (congrArg State.dram hregs :), (congrArg State.aon hregs :), loadOtp_lc s.unpowered, ?_, hoff.at_ F.GLB_BOOT_STATUS_STAGE 0 rfl⟩
  rw [State.fatal, State.fb, hfatal]
  rfl

theorem chipReset_fatal {s : State} (h : s.fatal = true) : s.chipReset = s := if_pos h

theorem chipReset_clear {s : State} (h : s.fatal = false) : s.chipReset = s.coreReset := if_neg (by simp [h])

/-- Settles O18: a core reset filters the register fields and loads OTP's, and FATAL holds every chip reset but power-on. -/
theorem chipResets : Obligations.ChipResets := by
  unfold Obligations.ChipResets
  refine ⟨fun s h => congrArg Host.Outcome.next (chipReset_clear h), fun s h => congrArg Host.Outcome.next (chipReset_fatal h), fun s o w ho hkey hreq h => ?_, fun s o w ho h => ?_, fun s => ?_, fun s => ⟨_, rfl, powerOn_parts s⟩⟩
  · have hbit : w.toNat.testBit 0 = true := by rw [Nat.testBit_zero, hreq, decide_eq_true rfl]
    rw [exec_glbReset ho, State.resetWrite, if_pos ⟨hkey, hbit⟩, chipReset_clear h]
  · rw [exec_glbReset ho, State.resetWrite, chipReset_fatal h, ite_self]
  · obtain ⟨hdram, hflash, hotp, haon, hpending⟩ := coreReset_kept s
    exact ⟨hdram, hflash, hotp, haon, hpending, fun x i h => coreReset_aon s i h, fun x i ha hr ho => coreReset_cleared s i ha hr ho⟩

end Sys2Proof.Machine

/-! Settles BootEvents (R43, R48, R50, R65, R236, R392, R407): the ROM's end, FW_INIT and FW_READY. -/

namespace Sys2Proof.Machine

-- ## FW_INIT (R48)

/-- The registers that firmware writes at FW_INIT. -/
def initFields : List Fld :=
  [F.SEC_BLOCK_WORLD_WORLD, F.SEC_BLOCK_WORLD_WORLD1, F.SEC_BLOCK_WORLD_LOCK, F.FLT_SAFE_KIND_LO_HOLD, F.FLT_SAFE_KIND_HI_HOLD, F.LMP_PORT_STATUS_SAFE_KIND, F.INTC_ROUTE_EN, F.INTC_ROUTE_TARGET, F.INTC_ROUTE_WAKE_EN, F.INTC_TGT_CTRL_EN, F.INTC_GLOBAL_MASTER_EN, F.DRS_CTRL_EN] ++
    laneCfgFields ++ [F.LANE_TX_AMP, F.LANE_TX_DEEMPH, F.LANE_RX_PEAK_FIXED, F.LANE_RX_PEAK, F.LANE_STATUS_PEAK_NOW, F.ARB_REQ_CFG_WEIGHT, F.DDR_CONFIG_SPEED, F.DDR_CONFIG_DENSITY, F.DDR_CONFIG_RANKS, F.DDR_CONFIG_TWO_CH, F.DDR_STATUS_STATE, F.DDR_TRAIN_BUSY,
    F.SPQ_Q_CFG_EN, F.SPQ_Q_CFG_SPILL, F.SPQ_Q_CFG_SIZE, F.SPQ_Q_BASE_LO_ADDR, F.SPQ_Q_BASE_HI_ADDR, F.BPM_DRAM_BASE_LO_ADDR, F.BPM_DRAM_BASE_HI_ADDR, F.BPM_CTRL_DRAM_EN, F.BPM_CTRL_EN, F.CLS_CTRL_EN, F.SCH_CTRL_DISPATCH_EN, F.STK_CTRL_EN, F.HWR_CTRL_SERVICE, F.HWR_STATUS_STATE]

/-- A step of FW_INIT: its own registers, and no byte of flash or OTP. -/
structure Inits (s t : State) : Prop where
  off : Off initFields s t
  flash : t.flash = s.flash
  otp : t.otp = s.otp

namespace Inits

theorem refl (s : State) : Inits s s := ⟨Off.refl _ s, rfl, rfl⟩

theorem trans {s t u : State} (h : Inits s t) (h' : Inits t u) : Inits s u := ⟨h.off.trans h'.off, h'.flash.trans h.flash, h'.otp.trans h.otp⟩

theorem setF {s t : State} (h : Inits s t) (x : Fld) (i v : Nat) (hx : covers initFields [x] = true) : Inits s (t.setF x i v) := ⟨h.off.setF x i v hx, h.flash, h.otp⟩

theorem ite {s t u : State} {c : Prop} [Decidable c] (ht : Inits s t) (hu : Inits s u) : Inits s (if c then t else u) := by
  split
  · exact ht
  · exact hu

theorem chainAll {α : Type} (l : List α) (g : α → State → State) (hg : ∀ a t, Inits t (g a t)) (s : State) : Inits s (chainAll l g s) := by
  unfold Machine.chainAll
  induction l generalizing s with
  | nil => exact refl s
  | cons a l ih => exact (hg a s).trans (ih (g a s))

/-- A step on the model's own state beside registers, flash and OTP. -/
theorem same {s t : State} (hr : t.regs = s.regs) (hf : t.flash = s.flash) (ho : t.otp = s.otp) : Inits s t := ⟨fun x i _ => by rw [State.f, State.f, hr], hf, ho⟩

theorem putLaneCfg (s : State) (n en func port lane rate rxInv txInv : Nat) : Inits s (s.putLaneCfg n en func port lane rate rxInv txInv) :=
  have h := sets_putLaneCfg s n en func port lane rate rxInv txInv
  have hregs : RegsOnly s _ := h.regsOnly
  have hoff : Off laneCfgFields s _ := h.off
  ⟨hoff.mono rfl, (congrArg State.flash hregs :), (congrArg State.otp hregs :)⟩

theorem initRoutes (s : State) : Inits s s.initRoutes :=
  (((ite (refl s) (chainAll _ _ (fun n t => (((refl t).setF F.INTC_ROUTE_EN n _ rfl).setF F.INTC_ROUTE_TARGET n _ rfl).setF F.INTC_ROUTE_WAKE_EN n _ rfl) s)).trans
    (chainAll _ _ (fun t u => (refl u).setF F.INTC_TGT_CTRL_EN t 1 rfl) _)).setF F.INTC_GLOBAL_MASTER_EN 0 1 rfl)

theorem loadLaneMap (s : State) (k : Nat) : Inits s (s.loadLaneMap k) := by
  refine chainAll _ _ (fun n t => ?_) s
  dsimp only
  split
  · exact putLaneCfg t _ _ _ _ _ _ _ _
  · have hlane : Inits t (((t.tryEntry (Tab.get [] t.conf.lanes n)).setF F.LANE_TX_AMP n (byteAt (Tab.get [] t.conf.lanes n) 6 / 16)).setF F.LANE_TX_DEEMPH n (byteAt (Tab.get [] t.conf.lanes n) 6 % 8)) :=
      ((putLaneCfg t _ _ _ _ _ _ _ _).setF F.LANE_TX_AMP n _ rfl).setF F.LANE_TX_DEEMPH n _ rfl
    exact ite (hlane.setF F.LANE_RX_PEAK_FIXED n 0 rfl) (((hlane.setF F.LANE_RX_PEAK_FIXED n 1 rfl).setF F.LANE_RX_PEAK n _ rfl).setF F.LANE_STATUS_PEAK_NOW n _ rfl)

theorem loadWeights (s : State) : Inits s s.loadWeights := chainAll _ _ (fun c t => chainAll _ _ (fun r u => (refl u).setF F.ARB_REQ_CFG_WEIGHT (arbReg c r) _ rfl) t) s

theorem loadDdrConfig (s : State) (k : Nat) : Inits s (s.loadDdrConfig k) :=
  chainAll _ _ (fun c t => ((((refl t).setF F.DDR_CONFIG_SPEED c _ rfl).setF F.DDR_CONFIG_DENSITY c _ rfl).setF F.DDR_CONFIG_RANKS c _ rfl).setF F.DDR_CONFIG_TWO_CH c _ rfl) s

theorem readBins (s : State) : Inits s s.readBins := chainAll (List.range 4) (fun c t => t.setMchan c { t.mchan c with bin := min 2 (t.f F.DDR_CONFIG_SPEED c) }) (fun _ _ => ⟨fun _ _ _ => rfl, rfl, rfl⟩) s

theorem restoreEntry (s : State) (e : List Byte) : Inits s (s.restoreEntry e) := ite (same rfl rfl rfl) (ite (same rfl rfl rfl) (refl s))

theorem beginTraining (s : State) : Inits s s.beginTraining := by
  have hbegin : Inits s (Machine.chainAll (List.range s.readBins.channels) (fun c t => if t.f F.DDR_STATUS_STATE c = ddrReady then t else (t.setF F.DDR_STATUS_STATE c ddrTraining).setF F.DDR_TRAIN_BUSY c 1) s.readBins) :=
    (readBins s).trans (chainAll _ _ (fun c t => ite (refl t) (((refl t).setF F.DDR_STATUS_STATE c _ rfl).setF F.DDR_TRAIN_BUSY c 1 rfl)) _)
  unfold State.beginTraining
  dsimp only
  generalize Machine.chainAll (List.range s.readBins.channels) _ s.readBins = t at hbegin ⊢
  split
  · exact hbegin.trans (chainAll _ _ (fun e u => ite (restoreEntry u e) (refl u)) t)
  · exact hbegin

theorem loadControlQueues (s : State) (k : Nat) : Inits s (s.loadControlQueues k) :=
  (chainAll _ _ (fun c t => (((((refl t).setF F.SPQ_Q_CFG_EN (4096 + c) 1 rfl).setF F.SPQ_Q_CFG_SPILL (4096 + c) 1 rfl).setF F.SPQ_Q_CFG_SIZE (4096 + c) 20 rfl).setF F.SPQ_Q_BASE_LO_ADDR (4096 + c) _ rfl).setF F.SPQ_Q_BASE_HI_ADDR (4096 + c) _ rfl) s).trans
    (chainAll _ _ (fun c t => ((refl t).setF F.SPQ_Q_CFG_EN (4112 + c) 1 rfl).setF F.SPQ_Q_CFG_SPILL (4112 + c) 0 rfl) _)

theorem enableBlocks (s : State) (k : Nat) : Inits s (s.enableBlocks k) :=
  (((((((refl s).setF F.BPM_DRAM_BASE_LO_ADDR 0 _ rfl).setF F.BPM_DRAM_BASE_HI_ADDR 0 _ rfl).setF F.BPM_CTRL_DRAM_EN 0 1 rfl).setF F.BPM_CTRL_EN 0 1 rfl).setF F.CLS_CTRL_EN 0 1 rfl).setF F.SCH_CTRL_DISPATCH_EN 0 1 rfl).setF F.STK_CTRL_EN 0 1 rfl

theorem beginTests (s : State) : Inits s s.beginTests := chainAll _ _ (fun h t => ((refl t).setF F.HWR_CTRL_SERVICE h 1 rfl).setF F.HWR_STATUS_STATE h 1 rfl) s

end Inits

theorem Inits.draw (s : State) : Inits s s.draw := ⟨fun _ _ _ => rfl, rfl, rfl⟩

theorem Inits.withFw {s t : State} (h : Inits s t) (g : FwState → FwState) : Inits s (t.withFw g) := ⟨fun x i hx => h.off x i hx, h.flash, h.otp⟩

/-- FW_INIT writes its own registers, and no byte of flash or OTP. -/
theorem firmwareInit_inits (s : State) : Inits s s.firmwareInit := by
  unfold State.firmwareInit
  extract_lets k drawn world0 world1 locked kindLo kinds shown config routed dressed lanes memory
  have hworld : Inits s world1 := ((Inits.draw s).setF F.SEC_BLOCK_WORLD_WORLD 0 _ rfl).setF F.SEC_BLOCK_WORLD_WORLD1 0 _ rfl
  clear_value world1
  have hlocked : Inits s locked := Inits.ite (hworld.setF F.SEC_BLOCK_WORLD_LOCK 0 1 rfl) hworld
  clear_value locked
  have hshown : Inits s shown := ((hlocked.setF F.FLT_SAFE_KIND_LO_HOLD 0 _ rfl).setF F.FLT_SAFE_KIND_HI_HOLD 0 _ rfl).trans (Inits.chainAll _ _ (fun n u => (Inits.refl u).setF F.LMP_PORT_STATUS_SAFE_KIND n _ rfl) _)
  clear_value shown
  have hconfig : Inits s config := hshown.withFw _
  clear_value config
  have hdressed : Inits s dressed := (hconfig.trans (Inits.initRoutes _)).setF F.DRS_CTRL_EN 0 1 rfl
  clear_value dressed
  have hlanes : Inits s lanes := (hdressed.trans (Inits.loadLaneMap _ k)).trans (Inits.loadWeights _)
  clear_value lanes
  have hmemory : Inits s memory := Inits.ite hlanes (hlanes.trans (Inits.loadDdrConfig _ k))
  clear_value memory
  exact (((hmemory.trans (Inits.beginTraining _)).trans (Inits.loadControlQueues _ _)).trans (Inits.enableBlocks _ _)).trans (Inits.beginTests _)

end Sys2Proof.Machine

/-! BootEvents: the commands of the boot, and FW_READY with the doorbells that it accepts. -/

namespace Sys2Proof.Machine

-- ## Doorbells that were held (R50)

/-- HELD after a result: cleared for its own mailbox. -/
theorem held_putResult (s : State) (m : Nat) {status : Nat} (hs : status < 65536) (j : Nat) : (s.putResult m status []).f F.MBX_STATUS_HELD j = if j = m then 0 else s.f F.MBX_STATUS_HELD j := by
  obtain ⟨-, hset, hkept⟩ := sets_putResult s m (data := []) hs (by simp)
  by_cases h : j = m
  · rw [if_pos h, h]
    exact hset (F.MBX_STATUS_HELD, m, 0) (by simp [answer])
  · rw [if_neg h]
    refine hkept _ j fun e he hc => h ?_
    have hinst : ∀ e ∈ answer m (s.mbxTag m) status [], F.MBX_STATUS_HELD.code = e.1.code → e.2.1 = m := by
      intro e he hc
      simp only [answer, List.mem_append, List.mem_map, List.mem_cons, List.not_mem_nil, or_false] at he
      rcases he with ⟨k, -, rfl⟩ | rfl | rfl | rfl | rfl | rfl
      · exact absurd hc (show F.MBX_STATUS_HELD.code ≠ F.MBX_RESULT_DATA.code by decide)
      · exact absurd hc (show F.MBX_STATUS_HELD.code ≠ F.MBX_RESULT_DATA.code by decide)
      · exact absurd hc (show F.MBX_STATUS_HELD.code ≠ F.MBX_RESULT_DATA.code by decide)
      · rfl
      · rfl
      · rfl
    exact hc.2.trans (hinst e he hc.1)

theorem answerUnknown_cases (s : State) (m : Nat) : s.answerUnknown m = s ∨ ∃ st, st < 65536 ∧ s.answerUnknown m = s.putResult m st [] := by
  unfold State.answerUnknown
  split
  · split
    · exact .inr ⟨_, by split <;> decide, rfl⟩
    · split
      · exact .inr ⟨_, by decide, rfl⟩
      · exact .inl rfl
  · exact .inl rfl

/-- One doorbell that was held is accepted. -/
def State.acceptHeld (s : State) (m : Nat) : State := (s.setF F.MBX_STATUS_HELD m 0).answerUnknown m

theorem held_acceptHeld (s : State) (m j : Nat) : (s.acceptHeld m).f F.MBX_STATUS_HELD j = if j = m then 0 else s.f F.MBX_STATUS_HELD j := by
  have hclear : (s.setF F.MBX_STATUS_HELD m 0).f F.MBX_STATUS_HELD j = if j = m then 0 else s.f F.MBX_STATUS_HELD j := by
    by_cases h : j = m
    · rw [if_pos h, h, State.f_setF_same]
      rfl
    · rw [if_neg h, f_setF_otherInst _ _ _ _ h]
  unfold State.acceptHeld
  rcases answerUnknown_cases (s.setF F.MBX_STATUS_HELD m 0) m with h | ⟨st, hst, h⟩
  · rw [h, hclear]
  · rw [h, held_putResult _ _ hst, hclear]
    split <;> rfl

theorem acceptHeld_writes (s : State) (m : Nat) : Writes resultFields s (s.acceptHeld m) :=
  ((Writes.refl resultFields s).setF F.MBX_STATUS_HELD m 0 rfl).trans (answerUnknown_writes _ m)

/-- Every doorbell that was held is accepted, in the order of the mailboxes. -/
def State.acceptAll (s : State) : State := chainAll (List.range 16) (fun m t => t.acceptHeld m) s

theorem acceptAll_writes (s : State) : Writes resultFields s s.acceptAll := (Writes.refl resultFields s).chainAll _ _ fun m t => acceptHeld_writes t m

theorem acceptAll_held (s : State) {m : Nat} (h : m < 16) : s.acceptAll.f F.MBX_STATUS_HELD m = 0 :=
  chainAll_at (g := fun m t => t.acceptHeld m) (fun t => (held_acceptHeld t m m).trans (if_pos rfl)) (fun a t j hj => (held_acceptHeld t a j).trans (if_neg hj)) (List.mem_range.mpr h) s

-- ## FW_READY (R50, R65, R66)

/-- The registers of a GO. -/
def goFields : List Fld := [F.CLS_COMMIT_ERR, F.CLS_VERSION_OLD, F.CLS_VERSION_LIVE, F.CLS_VERSION_STAGED, F.CLS_VERSION_STATE]

/-- The state without its registers and the classifier's. -/
def State.sansRules (s : State) : State := { s with regs := [], haul := {} }

theorem sansRules_of_regsOnly {s t : State} (h : RegsOnly s t) : t.sansRules = s.sansRules := by
  rw [h]
  rfl

theorem startGo_frame (s : State) : Off goFields s s.startGo ∧ s.startGo.sansRules = s.sansRules := by
  by_cases hstate : s.clsState = clsStaging
  · by_cases he : s.goError = 0
    · have hgo := sets_startGo hstate he
      have hregs : RegsOnly s.goneLive s.startGo := hgo.regsOnly
      have hoff : Off goFields s.goneLive s.startGo := hgo.off
      exact ⟨fun x i hx => hoff x i hx, (sansRules_of_regsOnly hregs).trans rfl⟩
    · rw [startGo_refused hstate he]
      exact ⟨(Off.refl _ s).setF _ _ _ rfl, rfl⟩
  · rw [startGo_idle hstate]
    exact ⟨Off.refl _ s, rfl⟩

theorem goAfter_frame (s : State) : Off goFields s s.goAfter ∧ s.goAfter.sansRules = s.sansRules := by
  unfold State.goAfter
  split
  · obtain ⟨hoff, hrest⟩ := startGo_frame (s.withHaul (fun w => { w with goDue := false }))
    exact ⟨fun x i hx => hoff x i hx, hrest⟩
  · exact ⟨Off.refl _ s, rfl⟩

theorem parts_of_sansRules {s t : State} (h : t.sansRules = s.sansRules) : t.fw = s.fw ∧ t.dram = s.dram ∧ t.flash = s.flash ∧ t.otp = s.otp :=
  ⟨(congrArg (fun u : State => u.fw) h :), (congrArg (fun u : State => u.dram) h :), (congrArg (fun u : State => u.flash) h :), (congrArg (fun u : State => u.otp) h :)⟩

/-- The stage and the watchdog of FW_READY. -/
def State.readyShown (s : State) : State := (s.setF F.GLB_BOOT_STATUS_STAGE 0 4).setF F.FLT_WDOG_EN 0 1

/-- A restart is logged, and neither restart nor handover stands any more. -/
def State.restartEnds (s : State) : State := (if s.fw.restarted then s.logEvent 7 0 0 0 [] else s).withFw (fun w => { w with restarted := false, handover := false })

theorem fwReady_eq (s : State) : s.fwReady = s.readyShown.restartEnds.acceptAll := rfl

theorem restartEnds_frame (s : State) : Off logFields s s.restartEnds ∧ s.restartEnds.fw.restarted = false ∧ s.restartEnds.fw.handover = false ∧ s.restartEnds.dram = s.dram ∧ s.restartEnds.flash = s.flash ∧ s.restartEnds.otp = s.otp := by
  have hlogged : Off logFields s (if s.fw.restarted then s.logEvent 7 0 0 0 [] else s) ∧ (if s.fw.restarted then s.logEvent 7 0 0 0 [] else s).sansRaise = s.sansRaise := by
    split
    · exact ⟨fun x i hx => logEvent_frame s _ _ _ _ _ i hx, sansRaise_logEvent s _ _ _ _ _⟩
    · exact ⟨Off.refl _ s, rfl⟩
  unfold State.restartEnds
  generalize (if s.fw.restarted then s.logEvent 7 0 0 0 [] else s) = t at hlogged ⊢
  obtain ⟨hoff, hrest⟩ := hlogged
  exact ⟨fun x i hx => hoff x i hx, rfl, rfl, (congrArg (fun u : State => u.dram) hrest :), (congrArg (fun u : State => u.flash) hrest :), (congrArg (fun u : State => u.otp) hrest :)⟩

/-- Firmware at FW_READY: its registers, no doorbell held, no byte of the stores changed. -/
theorem ready_parts (s : State) : s.fwReady.goAfter.stage = 4 ∧ s.fwReady.goAfter.f F.FLT_WDOG_EN 0 = 1 ∧ (∀ m, m < 16 → s.fwReady.goAfter.f F.MBX_STATUS_HELD m = 0) ∧ s.fwReady.goAfter.fw.restarted = false ∧ s.fwReady.goAfter.fw.handover = false ∧
    s.fwReady.goAfter.dram = s.dram ∧ s.fwReady.goAfter.flash = s.flash ∧ s.fwReady.goAfter.otp = s.otp := by
  have hshown := ((Sets.refl s).snocNew F.GLB_BOOT_STATUS_STAGE 0 4 rfl).snocNew F.FLT_WDOG_EN 0 1 rfl
  have hstage : s.readyShown.f F.GLB_BOOT_STATUS_STAGE 0 = 4 := hshown.2.1 (F.GLB_BOOT_STATUS_STAGE, 0, 4) (List.mem_cons_self ..)
  have hdog : s.readyShown.f F.FLT_WDOG_EN 0 = 1 := State.f_setF_same _ _ _ _
  have hregs : s.readyShown = { s with regs := s.readyShown.regs } := hshown.1
  rw [fwReady_eq]
  generalize s.readyShown = t at hstage hdog hregs ⊢
  obtain ⟨hlog, hrestarted, hhandover, hdram, hflash, hotp⟩ := restartEnds_frame t
  generalize t.restartEnds = u at hlog hrestarted hhandover hdram hflash hotp ⊢
  have hall := acceptAll_writes u
  have hheld : ∀ m, m < 16 → u.acceptAll.f F.MBX_STATUS_HELD m = 0 := fun m hm => acceptAll_held u hm
  generalize u.acceptAll = v at hall hheld ⊢
  obtain ⟨hgo, hrest⟩ := goAfter_frame v
  obtain ⟨gfw, gdram, gflash, gotp⟩ := parts_of_sansRules hrest
  obtain ⟨vfw, vdram, vflash, votp⟩ := parts_of_sansRules (sansRules_of_regsOnly hall.only)
  obtain ⟨-, tdram, tflash, totp⟩ := parts_of_sansRules (sansRules_of_regsOnly (show RegsOnly s t from hregs))
  refine ⟨(hgo.at_ _ _ rfl).trans ((hall.off.at_ _ _ rfl).trans ((hlog.at_ _ _ rfl).trans hstage)), (hgo.at_ _ _ rfl).trans ((hall.off.at_ _ _ rfl).trans ((hlog.at_ _ _ rfl).trans hdog)), fun m hm => (hgo.at_ _ _ rfl).trans (hheld m hm), ?_, ?_, ?_, ?_, ?_⟩
  · rw [gfw, vfw, hrestarted]
  · rw [gfw, vfw, hhandover]
  · rw [gdram, vdram, hdram, tdram]
  · rw [gflash, vflash, hflash, tflash]
  · rw [gotp, votp, hotp, totp]

-- ## The end of the ROM's work (R48)

theorem enterRecovery_parts (s : State) : s.enterRecovery.stage = 2 ∧ s.enterRecovery.flash = s.flash ∧ s.enterRecovery.otp = s.otp := by
  have hsets := ((Sets.refl s).snocNew F.GLB_BOOT_STATUS_STAGE 0 2 rfl).snocNew F.MBX_STATUS_HELD 0 0 rfl
  have hanswer := answerUnknown_writes ((s.setF F.GLB_BOOT_STATUS_STAGE 0 2).setF F.MBX_STATUS_HELD 0 0) 0
  have hstage : ((s.setF F.GLB_BOOT_STATUS_STAGE 0 2).setF F.MBX_STATUS_HELD 0 0).f F.GLB_BOOT_STATUS_STAGE 0 = 2 := hsets.2.1 (F.GLB_BOOT_STATUS_STAGE, 0, 2) (List.mem_cons_self ..)
  have hregs : RegsOnly s ((s.setF F.GLB_BOOT_STATUS_STAGE 0 2).setF F.MBX_STATUS_HELD 0 0) := hsets.regsOnly
  obtain ⟨-, -, hflash, hotp⟩ := parts_of_sansRules (sansRules_of_regsOnly (hregs.trans hanswer.only))
  exact ⟨(hanswer.off.at_ _ _ rfl).trans hstage, hflash, hotp⟩

/-- The image's registers, before FW_INIT. -/
def State.imageShown (s : State) (i : ImageInfo) (preferred : Nat) (trial : Bool) : State :=
  let s := s.setF F.GLB_BOOT_STATUS_IMAGE 0 i.slot
  let s := s.setF F.GLB_BOOT_STATUS_FALLBACK 0 (if i.slot = preferred then 0 else 1)
  let s := s.setF F.GLB_BOOT_STATUS_TRIAL 0 (if trial ∧ i.slot = preferred then 1 else 0)
  let s := s.setF F.GLB_FW_VERSION_MAJOR 0 i.major
  let s := s.setF F.GLB_FW_VERSION_MINOR 0 i.minor
  let s := s.setF F.GLB_FW_VERSION_BUILD 0 i.build
  let s := s.withFw (fun w => { w with image := i })
  s.setF F.GLB_BOOT_STATUS_STAGE 0 3

theorem startImage_eq (s : State) (i : ImageInfo) (preferred : Nat) (trial : Bool) :
    s.startImage i preferred trial = if (s.imageShown i preferred trial).fw.restarted ∨ (s.imageShown i preferred trial).fw.handover then s.imageShown i preferred trial else (s.imageShown i preferred trial).firmwareInit := rfl

theorem sets_imageShown (s : State) (i : ImageInfo) (preferred : Nat) (trial : Bool) :
    Sets (s.withFw (fun w => { w with image := i })) [(F.GLB_BOOT_STATUS_IMAGE, 0, i.slot % 2), (F.GLB_BOOT_STATUS_FALLBACK, 0, if i.slot = preferred then 0 else 1), (F.GLB_BOOT_STATUS_TRIAL, 0, if trial ∧ i.slot = preferred then 1 else 0), (F.GLB_FW_VERSION_MAJOR, 0, i.major % 256),
      (F.GLB_FW_VERSION_MINOR, 0, i.minor % 256), (F.GLB_FW_VERSION_BUILD, 0, i.build % 65536), (F.GLB_BOOT_STATUS_STAGE, 0, 3)] (s.imageShown i preferred trial) := by
  have hbit : ∀ (p : Prop) [Decidable p] (a b : Nat), a < 2 → b < 2 → (if p then a else b) < 2 ^ 1 := fun p _ a b ha hb => by split <;> assumption
  have hslot := (((Sets.refl s).snocNew F.GLB_BOOT_STATUS_IMAGE 0 i.slot rfl).putNew F.GLB_BOOT_STATUS_FALLBACK 0 _ rfl (hbit (i.slot = preferred) 0 1 (by decide) (by decide))).putNew F.GLB_BOOT_STATUS_TRIAL 0 _ rfl (hbit (trial ∧ i.slot = preferred) 1 0 (by decide) (by decide))
  have hversion := ((hslot.snocNew F.GLB_FW_VERSION_MAJOR 0 i.major rfl).snocNew F.GLB_FW_VERSION_MINOR 0 i.minor rfl).snocNew F.GLB_FW_VERSION_BUILD 0 i.build rfl
  exact (hversion.through (g := fun u => u.withFw (fun w => { w with image := i })) (by intro _ _; rfl) (by intro _; rfl)).snocNew F.GLB_BOOT_STATUS_STAGE 0 3 rfl

/-- An image that starts: its registers stand through FW_INIT. -/
theorem startImage_parts (s : State) (i : ImageInfo) (preferred : Nat) (trial : Bool) :
    (∀ e ∈ [(F.GLB_BOOT_STATUS_IMAGE, i.slot % 2), (F.GLB_BOOT_STATUS_FALLBACK, if i.slot = preferred then 0 else 1), (F.GLB_BOOT_STATUS_TRIAL, if trial ∧ i.slot = preferred then 1 else 0), (F.GLB_FW_VERSION_MAJOR, i.major % 256), (F.GLB_BOOT_STATUS_STAGE, 3)],
      (s.startImage i preferred trial).f e.1 0 = e.2) ∧ (s.startImage i preferred trial).flash = s.flash ∧ (s.startImage i preferred trial).otp = s.otp := by
  have hsets := sets_imageShown s i preferred trial
  have hregs : s.imageShown i preferred trial = { s.withFw (fun w => { w with image := i }) with regs := (s.imageShown i preferred trial).regs } := hsets.1
  have hflash : (s.imageShown i preferred trial).flash = s.flash := (congrArg (fun u : State => u.flash) hregs :)
  have hotp : (s.imageShown i preferred trial).otp = s.otp := (congrArg (fun u : State => u.otp) hregs :)
  have hvals := hsets.2.1
  rw [startImage_eq]
  generalize s.imageShown i preferred trial = t at hvals hflash hotp ⊢
  have hinit : Inits t (if t.fw.restarted ∨ t.fw.handover then t else t.firmwareInit) := Inits.ite (Inits.refl t) (firmwareInit_inits t)
  generalize (if t.fw.restarted ∨ t.fw.handover then t else t.firmwareInit) = u at hinit ⊢
  refine ⟨?_, hinit.flash.trans hflash, hinit.otp.trans hotp⟩
  simp only [List.mem_cons, List.not_mem_nil, or_false, forall_eq_or_imp, forall_eq] at hvals ⊢
  obtain ⟨himage, hfallback, htrial, hmajor, -, -, hstage⟩ := hvals
  exact ⟨(hinit.off.at_ _ _ rfl).trans himage, (hinit.off.at_ _ _ rfl).trans hfallback, (hinit.off.at_ _ _ rfl).trans htrial, (hinit.off.at_ _ _ rfl).trans hmajor, (hinit.off.at_ _ _ rfl).trans hstage⟩

/-- A boot without a directory: the first of the two slots that passes, or ROM_RECOVERY. -/
theorem bootDir_none (s : State) : s.bootDir none = s.bootWith (s.selectImage 0 1).1 (s.selectImage 0 1).2.1 (s.selectImage 0 1).2.2 0 0 false := by
  unfold State.bootDir
  simp only [Option.elim_none, Bool.false_eq_true, if_false, Nat.sub_zero]

theorem romDone_none {s : State} (hlc : s.lc ≠ 4) (hdir : s.directory = none) : s.romDone = s.repairLc.bootDir none := by
  have hsame : s.repairLc.directory = s.directory := rfl
  have hlc' : s.repairLc.lc = s.lc := rfl
  unfold State.romDone
  dsimp only
  rw [hlc', if_neg hlc, hsame, hdir]
  rfl

/-- The ROM's errors, kept and shown. -/
def State.errorsShown (s : State) (e1 e2 first : Nat) : State := (s.withFw (fun w => { w with romErrors := if first = 0 then (e1, e2) else (e2, e1) })).setF F.GLB_BOOT_STATUS_ROM_ERROR 0 (if e2 ≠ 0 then e2 else e1)

theorem bootWith_none (s : State) (e1 e2 first preferred : Nat) (trial : Bool) : s.bootWith none e1 e2 first preferred trial = (s.errorsShown e1 e2 first).enterRecovery := rfl

theorem bootWith_some (s : State) (i : ImageInfo) (e1 e2 first preferred : Nat) (trial : Bool) : s.bootWith (some i) e1 e2 first preferred trial = (s.errorsShown e1 e2 first).startImage i preferred trial := rfl

/-- A heartbeat at FW_READY. -/
theorem sets_heartbeat {s : State} (hs : s.stage = 4) (hc : s.pwr.cpHalted = false) : Sets s [(F.GLB_HEARTBEAT_COUNT, 0, (s.f F.GLB_HEARTBEAT_COUNT 0 + 1) % 2 ^ 32)] s.heartbeat := by
  rw [State.heartbeat, if_pos (by simp [hs, hc])]
  exact (Sets.refl s).snocNew F.GLB_HEARTBEAT_COUNT 0 _ rfl

/-- Settles O19: the ROM's end is the choice of an image and FW_INIT's registers, FW_READY its own and the doorbells held; the rest are single writes. -/
theorem bootEvents : Obligations.BootEvents := by
  unfold Obligations.BootEvents
  refine ⟨fun s hc hp => ?_, fun s hc hs hh hlc hd => ?_, fun s hs hc hch => ?_, fun s hs hc => ⟨_, rfl, sets_heartbeat hs hc⟩, fun s h => ?_⟩
  · have hdone : s.clearingDone = ((s.withFw (fun w => { w with clearing := false })).setF F.SPD_CTRL_CAUSE 0 4).setF F.GLB_BOOT_STATUS_STAGE 0 0 := if_pos (by simp [hc, hp])
    exact ⟨_, congrArg Host.Outcome.next hdone, ((Sets.refl _).snocNew F.SPD_CTRL_CAUSE 0 4 rfl).snocNew F.GLB_BOOT_STATUS_STAGE 0 0 rfl⟩
  · have hdone : s.romVerifyDone = s.repairLc.bootWith (s.repairLc.selectImage 0 1).1 (s.repairLc.selectImage 0 1).2.1 (s.repairLc.selectImage 0 1).2.2 0 0 false :=
      (if_pos (by simp [hc, hs, hh])).trans ((romDone_none hlc hd).trans (bootDir_none _))
    refine ⟨_, congrArg Host.Outcome.next hdone, ?_⟩
    have hflash : s.repairLc.flash = s.flash := rfl
    generalize (s.repairLc.selectImage 0 1).2.1 = e1
    generalize (s.repairLc.selectImage 0 1).2.2 = e2
    cases (s.repairLc.selectImage 0 1).1 with
    | none =>
      obtain ⟨hstage, hf, ho⟩ := enterRecovery_parts (s.repairLc.errorsShown e1 e2 0)
      rw [bootWith_none]
      exact ⟨hf.trans hflash, ho, hstage⟩
    | some x =>
      obtain ⟨hvals, hf, ho⟩ := startImage_parts (s.repairLc.errorsShown e1 e2 0) x 0 false
      rw [bootWith_some]
      generalize (s.repairLc.errorsShown e1 e2 0).startImage x 0 false = t at hvals hf ho ⊢
      simp only [List.mem_cons, List.not_mem_nil, or_false, forall_eq_or_imp, forall_eq] at hvals
      obtain ⟨himage, hfallback, htrial, hmajor, hstage⟩ := hvals
      exact ⟨hf.trans hflash, ho, hstage, himage, hfallback, htrial.trans (if_neg (by simp)), hmajor⟩
  · have hall : (List.range s.channels).all (fun c => decide (s.f F.DDR_STATUS_STATE c ≠ ddrFailed)) = true := List.all_eq_true.mpr fun c hc => decide_eq_true (hch c (List.mem_range.mp hc))
    have hready : s.firmwareReady = s.fwReady.goAfter := if_pos (by rw [hs, hc, hall]; rfl)
    exact ⟨_, congrArg Host.Outcome.next hready, ready_parts s⟩
  · exact ⟨_, rfl, sets_closeSession (m := 12) (fb_true h) rfl⟩

end Sys2Proof.Machine

/-! Settles ActivateAndConfirm (R65, R67, R409): the live handover. -/

namespace Sys2Proof.Machine

-- ## Firmware's locks (R60 to R62)

/-- The registers of a lock that is freed or breaks. -/
def lockFields : List Fld := [F.SEM_LOCK_OWNER, F.SEM_FREED_LO_FREED, F.SEM_FREED_HI_FREED, F.SEM_LOCK_BROKEN]

theorem freeLock_off (s : State) (n : Nat) : Off lockFields s (s.freeLock n) := by
  have hfreed : ∀ t : State, Off lockFields t (t.setFreed n) := fun t => by
    unfold State.setFreed
    exact ((Off.refl _ t).setF _ _ _ rfl).ite ((Off.refl _ t).setF _ _ _ rfl)
  unfold State.freeLock
  dsimp only
  split
  · exact fun x i hx => (hfreed _ x i hx).trans (((Off.refl _ s).setF F.SEM_LOCK_OWNER n 0 rfl) x i hx)
  · exact (Off.refl _ s).setF F.SEM_LOCK_OWNER n 0 rfl

theorem breakLock_off (s : State) (n : Nat) : Off lockFields s (s.breakLock n) := by
  unfold State.breakLock
  split
  · exact Off.refl _ s
  · exact (freeLock_off s n).setF F.SEM_LOCK_BROKEN n 1 rfl

theorem freeLocksOf_off (s : State) (owners : List Nat) : Off lockFields s (s.freeLocksOf owners) :=
  (Off.refl _ s).chainAll _ _ fun n t => (freeLock_off t n).ite (Off.refl _ t)

theorem breakLocksOf_off (s : State) (owners : List Nat) : Off lockFields s (s.breakLocksOf owners) :=
  (Off.refl _ s).chainAll _ _ fun n t => (breakLock_off t n).ite (Off.refl _ t)

/-- A lock that one of the owners holds is freed, and one that is free stays so. -/
theorem freeLocksOf_owner (s : State) {owners : List Nat} (h0 : 0 ∉ owners) {n : Nat} (hn : n < 64) (h : s.lockOwner n ∈ owners) : (s.freeLocksOf owners).lockOwner n = 0 := by
  have hstep : ∀ k (t : State), (t.lockOwner n = 0 → (if t.lockOwner k ∈ owners then t.freeLock k else t).lockOwner n = 0) ∧ (k ≠ n → (if t.lockOwner k ∈ owners then t.freeLock k else t).lockOwner n = t.lockOwner n) := fun k t => by
    obtain ⟨hown, hother, -⟩ := lockFields_freeLock t k
    split
    · next hk =>
      exact ⟨fun hz => (hother n fun hnk => h0 (hz ▸ hnk ▸ hk)).trans hz, fun hnk => hother n hnk.symm⟩
    · exact ⟨id, fun _ => rfl⟩
  have hfree : ∀ (l : List Nat) (t : State), t.lockOwner n = 0 → (chainAll l (fun k t => if t.lockOwner k ∈ owners then t.freeLock k else t) t).lockOwner n = 0 := fun l => by
    induction l with
    | nil => exact fun _ hz => hz
    | cons k l ih => exact fun t hz => ih _ ((hstep k t).1 hz)
  have hheld : ∀ (l : List Nat) (t : State), n ∈ l → t.lockOwner n ∈ owners → (chainAll l (fun k t => if t.lockOwner k ∈ owners then t.freeLock k else t) t).lockOwner n = 0 := fun l => by
    induction l with
    | nil => exact fun _ hl => absurd hl (by simp)
    | cons k l ih =>
      intro t hl ht
      by_cases hk : k = n
      · subst hk
        have hfreed : (if t.lockOwner k ∈ owners then t.freeLock k else t).lockOwner k = 0 := by
          rw [if_pos ht]
          exact (lockFields_freeLock t k).1
        exact hfree l _ hfreed
      · have hkept : (if t.lockOwner k ∈ owners then t.freeLock k else t).lockOwner n ∈ owners := by
          rw [(hstep k t).2 hk]
          exact ht
        exact ih _ ((List.mem_cons.mp hl).resolve_left (Ne.symm hk)) hkept
  exact hheld _ s (List.mem_range.mpr hn) h

-- ## The live handover (R65)

/-- The state without what a restart of the processor and the handover record may change. -/
def State.sansRestart (s : State) : State := s.sansData.sansRaise

theorem sansRestart_of_sansRaise {s t : State} (h : t.sansRaise = s.sansRaise) : t.sansRestart = s.sansRestart := (congrArg State.sansData h :)

theorem sansRestart_of_sansData {s t : State} (h : t.sansData = s.sansData) : t.sansRestart = s.sansRestart := congrArg State.sansRaise h

theorem writeRecord_frame (s : State) : s.writeRecord.sansData = s.sansData ∧ s.writeRecord.regs = s.regs := by
  unfold State.writeRecord
  split
  · exact ⟨rfl, rfl⟩
  · obtain ⟨hdata, hregs⟩ := putFor_frame s.draw 9 (4096 * _ + _) ((Config.freeBytes 59 s.free 262144).take _) true
    exact ⟨hdata.trans (sansData_draw s), hregs⟩

theorem sansRaise_freeLocksOf (s : State) (owners : List Nat) : (s.freeLocksOf owners).sansRaise = s.sansRaise :=
  chainAll_keep State.sansRaise _ _ (fun n t => by
    split
    · exact sansRaise_freeLock t n
    · rfl) s

/-- A mailbox that is not BUSY keeps its HELD bit through a restart. -/
theorem cpReset_held {s : State} {m : Nat} (h : s.f F.MBX_STATUS_BUSY m ≠ 1) : s.cpReset.f F.MBX_STATUS_HELD m = s.f F.MBX_STATUS_HELD m := by
  have hbroken : Off (lockFields ++ [F.GLB_BOOT_STATUS_STAGE]) s ((s.breakLocksOf [1, 2]).setF F.GLB_BOOT_STATUS_STAGE 0 0) := ((breakLocksOf_off s _).mono rfl).setF _ _ _ rfl
  have hall : ∀ (l : List Nat) (t : State), t.f F.MBX_STATUS_BUSY m ≠ 1 → (chainAll l (fun k t => if t.fb F.MBX_STATUS_BUSY k then t.setF F.MBX_STATUS_HELD k 1 else t) t).f F.MBX_STATUS_HELD m = t.f F.MBX_STATUS_HELD m := fun l => by
    induction l with
    | nil => exact fun _ _ => rfl
    | cons k l ih =>
      intro t ht
      have hstep : (if t.fb F.MBX_STATUS_BUSY k then t.setF F.MBX_STATUS_HELD k 1 else t).f F.MBX_STATUS_BUSY m = t.f F.MBX_STATUS_BUSY m ∧ (if t.fb F.MBX_STATUS_BUSY k then t.setF F.MBX_STATUS_HELD k 1 else t).f F.MBX_STATUS_HELD m = t.f F.MBX_STATUS_HELD m := by
        split
        · next hb =>
          have hkm : m ≠ k := fun hmk => fb_ne ht (hmk ▸ hb)
          exact ⟨State.f_setF_code _ _ _ _ _ _ (by decide), f_setF_otherInst _ _ _ _ hkm⟩
        · exact ⟨rfl, rfl⟩
      exact (ih _ (by rw [hstep.1]; exact ht)).trans hstep.2
  exact (hall _ _ (by rw [hbroken.at_ _ _ rfl]; exact h)).trans (hbroken.at_ _ _ rfl)

theorem cpReset_owner {s : State} {n : Nat} (h : s.lockOwner n = 0) : s.cpReset.lockOwner n = 0 := by
  have hbreak : (s.breakLocksOf [1, 2]).lockOwner n = 0 := by
    have hother := (breakAll_other (owners := [1, 2]) (by decide) (List.range 64) (s := s) (m := n) (by rw [show s.f F.SEM_LOCK_OWNER n = 0 from h]; decide)).1
    rw [State.lockOwner, breakLocksOf_eq, hother]
    exact h
  have hheld : Off [F.GLB_BOOT_STATUS_STAGE, F.MBX_STATUS_HELD] (s.breakLocksOf [1, 2]) s.cpReset :=
    ((Off.refl _ _).setF _ _ _ rfl).chainAll _ _ fun m t => ((Off.refl _ t).setF _ _ _ rfl).ite (Off.refl _ t)
  exact (hheld.at_ _ _ rfl).trans hbreak

/-- What the handover begins with: locks released, the record written, the processor restarted. -/
def State.handsOver (s : State) : State := (s.freeLocksOf [1, 2]).writeRecord.cpReset

theorem enterHandover_eq (s : State) : s.enterHandover = (s.handsOver.withFw (fun w => { w with handover := true })).setF F.GLB_BOOT_STATUS_STAGE 0 5 := rfl

/-- What a live handover leaves. -/
structure HandsOver (s t : State) : Prop where
  stage : t.stage = 5
  handover : t.fw.handover = true
  confirm : t.fw.confirm = s.fw.confirm
  previous : t.fw.previous = s.fw.previous
  verified : t.fw.verified = s.fw.verified
  flash : t.flash = s.flash
  otp : t.otp = s.otp
  locks : ∀ n, n < 64 → s.lockOwner n = 1 ∨ s.lockOwner n = 2 → t.lockOwner n = 0
  off : Off reactFields s t
  held : ∀ m, s.f F.MBX_STATUS_BUSY m ≠ 1 → t.f F.MBX_STATUS_HELD m = s.f F.MBX_STATUS_HELD m

theorem enterHandover_parts (s : State) : HandsOver s s.enterHandover := by
  have hfree := freeLocksOf_off s [1, 2]
  have howner : ∀ n, n < 64 → s.lockOwner n = 1 ∨ s.lockOwner n = 2 → (s.freeLocksOf [1, 2]).lockOwner n = 0 := fun n hn h => freeLocksOf_owner s (by decide) hn (by simpa using h)
  have hfirst := sansRestart_of_sansRaise (sansRaise_freeLocksOf s [1, 2])
  have heq := enterHandover_eq s
  unfold State.handsOver at heq
  generalize s.freeLocksOf [1, 2] = t at hfree howner hfirst heq
  obtain ⟨hdata, hregs⟩ := writeRecord_frame t
  have hsecond := sansRestart_of_sansData hdata
  have hsame : ∀ x i, t.writeRecord.f x i = t.f x i := fun x i => by rw [State.f, State.f, hregs]
  generalize t.writeRecord = u at hsame hsecond heq
  have hthird := sansRestart_of_sansRaise (sansRaise_cpReset u)
  have hreset : Off reactFields u u.cpReset := fun x i hx => State.cpReset_f u x i hx
  have hheld : ∀ m, u.f F.MBX_STATUS_BUSY m ≠ 1 → u.cpReset.f F.MBX_STATUS_HELD m = u.f F.MBX_STATUS_HELD m := fun m h => cpReset_held h
  have hlock : ∀ n, u.lockOwner n = 0 → u.cpReset.lockOwner n = 0 := fun n h => cpReset_owner h
  generalize u.cpReset = v at hthird hreset hheld hlock heq
  have hrest : v.sansRestart = s.sansRestart := hthird.trans (hsecond.trans hfirst)
  have hoff : Off [F.GLB_BOOT_STATUS_STAGE] v s.enterHandover := by
    rw [heq]
    exact Off.setF (fun _ _ _ => rfl) _ _ _ rfl
  refine ⟨?_, ?_, ?_, ?_, ?_, ?_, ?_, fun n hn h => (hoff.at_ _ _ rfl).trans (hlock n ((hsame _ _).trans (howner n hn h))), fun x i hx => ?_, fun m h => ?_⟩
  · rw [heq]
    exact State.f_setF_same _ _ _ _
  · rw [heq]
    rfl
  · rw [heq]
    exact (congrArg (fun w : State => w.fw.confirm) hrest :)
  · rw [heq]
    exact (congrArg (fun w : State => w.fw.previous) hrest :)
  · rw [heq]
    exact (congrArg (fun w : State => w.fw.verified) hrest :)
  · rw [heq]
    exact (congrArg (fun w : State => w.flash) hrest :)
  · rw [heq]
    exact (congrArg (fun w : State => w.otp) hrest :)
  · exact ((hoff.mono (gs := reactFields) rfl) x i hx).trans ((hreset x i hx).trans ((hsame x i).trans ((hfree.mono (gs := reactFields) rfl) x i hx)))
  · have hbusy : u.f F.MBX_STATUS_BUSY m ≠ 1 := by
      rw [hsame, hfree.at_ _ _ rfl]
      exact h
    exact (hoff.at_ _ _ rfl).trans ((hheld m hbusy).trans ((hsame _ _).trans (hfree.at_ _ _ rfl)))

/-- A result that was given before the handover stands. -/
theorem HandsOver.answered {s t : State} (h : HandsOver s t) {m tag status : Nat} {data : List Byte} (ha : s.answered m tag status data) : t.answered m tag status data := by
  have hbusy : s.f F.MBX_STATUS_BUSY m = 0 := ha (F.MBX_STATUS_BUSY, m, 0) (by simp [answer])
  have hheld : t.f F.MBX_STATUS_HELD m = s.f F.MBX_STATUS_HELD m := h.held m (by rw [hbusy]; decide)
  have hout : ∀ x ∈ [F.MBX_RESULT_DATA, F.MBX_STATUS_RESULT_PENDING, F.MBX_STATUS_BUSY], x.outside reactFields := by unfold Fld.outside; decide
  intro e he
  have hkept : t.f e.1 e.2.1 = s.f e.1 e.2.1 := by
    simp only [answer, List.mem_append, List.mem_map, List.mem_cons, List.not_mem_nil, or_false] at he
    rcases he with ⟨k, -, rfl⟩ | rfl | rfl | rfl | rfl | rfl
    · exact h.off _ _ (hout _ (by simp))
    · exact h.off _ _ (hout _ (by simp))
    · exact h.off _ _ (hout _ (by simp))
    · exact h.off _ _ (hout _ (by simp))
    · exact hheld
    · exact h.off _ _ (hout _ (by simp))
  exact hkept.trans (ha e he)

-- ## Directory and commands (R48, R65, R67)

/-- A directory that is written changes flash alone. -/
theorem writeDir_frame (s : State) (d : Directory) : s.writeDir d = { s with flash := (s.writeDir d).flash } := by
  have herase : ∀ (a n : Nat), ∃ f, s.erase a n = { s with flash := f } := fun a n => ⟨_, rfl⟩
  have hprogram : ∀ (f : Tab Byte) (a : Nat) (bs : List Byte), ∃ g, ({ s with flash := f } : State).program a bs = { s with flash := g } := fun f a bs => ⟨_, rfl⟩
  have hdir : ∃ g, s.writeDir d = { s with flash := g } := by
    unfold State.writeDir
    dsimp only
    generalize dirOffset _ = a
    obtain ⟨f, hf⟩ := herase a 0x1000
    rw [hf]
    exact hprogram f a _
  obtain ⟨g, hg⟩ := hdir
  rw [hg]

/-- FW_ACTIVATE before its answer: the directory and the confirm window. -/
def State.activates (s : State) (win tries : Nat) (i : ImageInfo) : State :=
  (s.writeDir { seq := s.nextSeq, active := i.slot, trial := true, tries := tries }).withFw (fun w => { w with confirm := some win, previous := some (s.f F.GLB_BOOT_STATUS_IMAGE 0), verified := none })

/-- A directory with new firmware state changes flash and that state alone. -/
theorem writeDir_withFw (s : State) (d : Directory) (g : FwState → FwState) : (s.writeDir d).withFw g = { s with flash := (s.writeDir d).flash, fw := g s.fw } := by
  have hframe := writeDir_frame s d
  generalize s.writeDir d = t at hframe ⊢
  rw [hframe]
  rfl

/-- An answer and then the handover. -/
structure AnswersOver (m : Nat) (s t : State) : Prop where
  stage : t.stage = 5
  handover : t.fw.handover = true
  confirm : t.fw.confirm = s.fw.confirm
  previous : t.fw.previous = s.fw.previous
  verified : t.fw.verified = s.fw.verified
  flash : t.flash = s.flash
  otp : t.otp = s.otp
  locks : ∀ n, n < 64 → s.lockOwner n = 1 ∨ s.lockOwner n = 2 → t.lockOwner n = 0
  answered : t.answered m (s.mbxTag m) 0 []

theorem answersOver (s : State) (m : Nat) : AnswersOver m s (s.putResult m stOk []).enterHandover := by
  obtain ⟨hstate, hanswered, -⟩ := sets_putResult s m (status := stOk) (data := []) (by decide) (by simp)
  have howner : ∀ n, (s.putResult m stOk []).lockOwner n = s.lockOwner n := fun n => putResult_frame s m (by decide) (by simp) n (by unfold Fld.outside; decide)
  have hdone : (s.putResult m stOk []).answered m (s.mbxTag m) 0 [] := hanswered
  generalize s.putResult m stOk [] = t at hstate howner hdone ⊢
  have hhand := enterHandover_parts t
  have hfw : t.fw = s.fw := by rw [hstate]
  have hflash : t.flash = s.flash := by rw [hstate]
  have hotp : t.otp = s.otp := by rw [hstate]
  exact ⟨hhand.stage, hhand.handover, hhand.confirm.trans (by rw [hfw]), hhand.previous.trans (by rw [hfw]), hhand.verified.trans (by rw [hfw]), hhand.flash.trans hflash, hhand.otp.trans hotp, fun n hn h => hhand.locks n hn (by rw [howner]; exact h), hhand.answered hdone⟩

theorem exec_fwActivate {s : State} {m : Nat} {i : ImageInfo} (ha : s.accepts m 0x0072 = true) (hl : s.mbxLen m = 0 ∨ s.mbxLen m = 2 ∨ s.mbxLen m = 3) (hwin : s.mbxLen m ≠ 0 → leAt (s.mbxArgs m) 0 2 ≠ 0) (hv : s.fw.verified = some i) (hb : s.faultBusy = false) :
    exec (.fwActivate m) s = .next ((s.activates (if s.mbxLen m = 0 then 600 else leAt (s.mbxArgs m) 0 2) (if s.mbxLen m = 3 then byteAt (s.mbxArgs m) 2 else 3) i).putResult m stOk []).enterHandover := by
  have hlen : (s.mbxArgs m).length = s.mbxLen m := mbxArgs_length (by omega)
  have hlenOk : (decide (s.mbxLen m = 0) || decide (s.mbxLen m = 2) || decide (s.mbxLen m = 3)) = true := by
    simp only [Bool.or_eq_true, decide_eq_true_eq]
    omega
  have hw : (if 2 ≤ (s.mbxArgs m).length then leAt (s.mbxArgs m) 0 2 else 600) = if s.mbxLen m = 0 then 600 else leAt (s.mbxArgs m) 0 2 := by
    rw [hlen]
    split_ifs
    · omega
    · rfl
    · rfl
    · omega
  have hne : (if s.mbxLen m = 0 then 600 else leAt (s.mbxArgs m) 0 2) ≠ 0 := by
    split
    · decide
    · next h => exact hwin h
  refine (exec_served (c := .fwActivate m) rfl ha hlenOk).trans (congrArg Host.Outcome.next ?_)
  dsimp only
  rw [hw, hlen, hv]
  dsimp only
  rw [if_neg hne, if_neg (by simp [hb])]
  rfl

theorem sansRaise_logFirmware (s : State) (k : Nat) : (s.logFirmware k).sansRaise = s.sansRaise := by
  rw [State.logFirmware]
  exact sansRaise_logEvent _ _ _ _ _ _

theorem stores_of_sansRaise {s t : State} (h : t.sansRaise = s.sansRaise) : t.flash = s.flash ∧ t.otp = s.otp :=
  ⟨(congrArg (fun v : State => v.flash) h :), (congrArg (fun v : State => v.otp) h :)⟩

/-- The end of the confirm window before its log entry and the handover: the directory names slot `p`. -/
def State.windowEnded (s : State) (p : Nat) : State := (s.writeDir { seq := s.nextSeq, active := p, trial := false, tries := 0 }).withFw (fun w => { w with confirm := none, previous := none })

theorem confirmExpire_eq {s : State} {w p : Nat} (hc : s.fw.confirm = some w) (hp : s.fw.previous = some p) (hs : s.stage = 4) : s.confirmExpire = ((s.windowEnded p).logFirmware 2).enterHandover := by
  unfold State.confirmExpire
  rw [hc, hp]
  exact if_neg (not_not.mpr hs)

/-- The directory after FW_CONFIRM. -/
def State.trialEnds (s : State) : State :=
  match s.directory with
  | some (_, d) => s.writeDir { d with seq := (d.seq + 1) % 2 ^ 32, trial := false }
  | none => s

theorem trialEnds_frame (s : State) : s.trialEnds = { s with flash := s.trialEnds.flash } := by
  unfold State.trialEnds
  split
  · exact writeDir_frame s _
  · rfl

/-- FW_CONFIRM before its answer, without ADVANCE. -/
def State.confirmed (s : State) : State := (s.trialEnds.setF F.GLB_BOOT_STATUS_TRIAL 0 0).withFw (fun w => { w with confirm := none, previous := none })

theorem exec_fwConfirm {s : State} {m : Nat} (ha : s.accepts m 0x0073 = true) (hl : s.mbxLen m ≤ 1) (hc : s.fw.confirm ≠ none) :
    exec (.fwConfirm m) s = .next ((if byteAt (s.mbxArgs m) 0 % 2 = 1 ∧ s.confirmed.lc ≠ 4 then s.confirmed.raiseRollback s.confirmed.fw.image.secVersion else s.confirmed).putResult m stOk []) := by
  refine (exec_served (c := .fwConfirm m) rfl ha (by simp [hl])).trans (congrArg Host.Outcome.next ?_)
  dsimp only
  rw [if_neg hc]
  rfl

theorem sets_confirmed (s : State) : Sets (s.trialEnds.withFw (fun w => { w with confirm := none, previous := none })) [(F.GLB_BOOT_STATUS_TRIAL, 0, 0)] s.confirmed :=
  ((Sets.refl s.trialEnds).snocNew F.GLB_BOOT_STATUS_TRIAL 0 0 rfl).through (g := fun u => u.withFw (fun w => { w with confirm := none, previous := none })) (by intro _ _; rfl) (by intro _; rfl)

/-- The anti-rollback counter changes OTP alone, by OTP alone. -/
theorem raiseRollback_frame (s : State) (v : Nat) : s.raiseRollback v = { s with otp := (s.raiseRollback v).otp } := by
  unfold State.raiseRollback
  split <;> rfl

theorem raiseRollback_congr {s t : State} (v : Nat) (ho : t.otp = s.otp) (hb : t.otpBad = s.otpBad) : (t.raiseRollback v).otp = (s.raiseRollback v).otp := by
  have hroll : t.rollback = s.rollback := by simp only [State.rollback, State.otpBytes, ho, hb]
  unfold State.raiseRollback
  rw [hroll]
  split
  · exact ho
  · simp only [State.blow, ho]

/-- Settles O15: FW_ACTIVATE and the end of the window write the directory and hand over, which keeps flash, OTP and the answer; FW_CONFIRM ends the trial, and with ADVANCE raises the counter. -/
theorem activateAndConfirm : Obligations.ActivateAndConfirm := by
  unfold Obligations.ActivateAndConfirm
  refine ⟨fun s m i ha hl hwin hv hb => ?_, fun s m ha hl hadv hc => ?_, fun s m ha hl hadv hc => ?_, fun s w p hc hp hs => ?_⟩
  · have hexec := exec_fwActivate ha hl hwin hv hb
    generalize (if s.mbxLen m = 0 then 600 else leAt (s.mbxArgs m) 0 2) = win at hexec ⊢
    generalize (if s.mbxLen m = 3 then byteAt (s.mbxArgs m) 2 else 3) = tries at hexec ⊢
    have hframe : s.activates win tries i = { s with flash := (s.writeDir { seq := s.nextSeq, active := i.slot, trial := true, tries := tries }).flash, fw := { s.fw with confirm := some win, previous := some (s.f F.GLB_BOOT_STATUS_IMAGE 0), verified := none } } := writeDir_withFw s _ _
    have hover := answersOver (s.activates win tries i) m
    have htag : (s.activates win tries i).mbxTag m = s.mbxTag m := mbxTag_congr m (by rw [hframe]; rfl)
    have howner : ∀ n, (s.activates win tries i).lockOwner n = s.lockOwner n := fun n => by rw [hframe]; rfl
    exact ⟨_, hexec, hover.stage, hover.confirm.trans (by rw [hframe]), hover.previous.trans (by rw [hframe]), hover.verified.trans (by rw [hframe]), hover.handover, hover.flash.trans (by rw [hframe]), hover.otp.trans (by rw [hframe]), fun n hn h => hover.locks n hn (by rw [howner]; exact h), htag ▸ hover.answered⟩
  · have hexec := exec_fwConfirm ha hl hc
    rw [if_neg fun h => absurd h.1 (by omega)] at hexec
    have htag : (s.trialEnds.withFw (fun w => { w with confirm := none, previous := none })).mbxTag m = s.mbxTag m := mbxTag_congr m (by rw [trialEnds_frame]; rfl)
    have hanswer := (sets_confirmed s).putAnswer m stOk [] rfl (by decide) (by simp)
    rw [htag] at hanswer
    exact ⟨_, hexec, hanswer⟩
  · have hexec := exec_fwConfirm ha (by omega) hc
    have hsets := sets_confirmed s
    have hframe := trialEnds_frame s
    have hparts : s.confirmed = { s.trialEnds.withFw (fun w => { w with confirm := none, previous := none }) with regs := s.confirmed.regs } := hsets.1
    have hotp : s.confirmed.otp = s.otp := by rw [hparts, hframe]; rfl
    have hbad : s.confirmed.otpBad = s.otpBad := by rw [hparts, hframe]; rfl
    have hdram : s.confirmed.dram = s.dram := by rw [hparts, hframe]; rfl
    have himage : s.confirmed.fw.image = s.fw.image := by rw [hparts, hframe]; rfl
    have hconfirm : s.confirmed.fw.confirm = none := by rw [hparts]; rfl
    have hlc : s.confirmed.lc = s.lc := (hsets.f_eq _ _ rfl).trans (by rw [hframe]; rfl)
    have htag : s.confirmed.mbxTag m = s.mbxTag m := mbxTag_congr m ((hsets.f_eq _ _ rfl).trans (by rw [hframe]; rfl))
    have htrial : s.confirmed.f F.GLB_BOOT_STATUS_TRIAL 0 = 0 := hsets.2.1 (F.GLB_BOOT_STATUS_TRIAL, 0, 0) (List.mem_cons_self ..)
    have hend : ∃ u, (if byteAt (s.mbxArgs m) 0 % 2 = 1 ∧ s.confirmed.lc ≠ 4 then s.confirmed.raiseRollback s.confirmed.fw.image.secVersion else s.confirmed) = u ∧ u = { s.confirmed with otp := u.otp } ∧ u.otp = if s.lc = 4 then s.otp else (s.raiseRollback s.fw.image.secVersion).otp := by
      by_cases h4 : s.lc = 4
      · exact ⟨_, if_neg fun h => h.2 (hlc.trans h4), rfl, by rw [if_pos h4, hotp]⟩
      · refine ⟨_, if_pos ⟨hadv, by rw [hlc]; exact h4⟩, raiseRollback_frame _ _, ?_⟩
        rw [if_neg h4, himage]
        exact raiseRollback_congr _ hotp hbad
    obtain ⟨u, hu, huframe, huotp⟩ := hend
    rw [hu] at hexec
    have hput := sets_putResult u m (status := stOk) (data := []) (by decide) (by simp)
    have hstate : u.putResult m stOk [] = { u with regs := (u.putResult m stOk []).regs } := hput.1
    have htagu : u.mbxTag m = s.mbxTag m := (mbxTag_congr m (by rw [huframe]; rfl)).trans htag
    have hfw : u.fw = s.confirmed.fw := by rw [huframe]
    have hmem : u.dram = s.confirmed.dram := by rw [huframe]
    refine ⟨_, hexec, ?_, ?_, ?_, ?_, htagu ▸ hput.2.1⟩
    · exact ((congrArg (fun v : State => v.fw.confirm) hstate :)).trans (by rw [hfw, hconfirm])
    · rw [putResult_frame u m (by decide) (by simp) 0 (by unfold Fld.outside; decide)]
      exact (show u.f F.GLB_BOOT_STATUS_TRIAL 0 = s.confirmed.f F.GLB_BOOT_STATUS_TRIAL 0 by rw [huframe]; rfl).trans htrial
    · exact ((congrArg (fun v : State => v.dram) hstate :)).trans (hmem.trans hdram)
    · exact ((congrArg (fun v : State => v.otp) hstate :)).trans huotp
  · have hframe : s.windowEnded p = { s with flash := (s.writeDir { seq := s.nextSeq, active := p, trial := false, tries := 0 }).flash, fw := { s.fw with confirm := none, previous := none } } := writeDir_withFw s _ _
    have hexpire := confirmExpire_eq hc hp hs
    have hfw := fw_logFirmware (s.windowEnded p) 2
    have hrest : ((s.windowEnded p).logFirmware 2).sansRaise = (s.windowEnded p).sansRaise := sansRaise_logFirmware _ _
    generalize (s.windowEnded p).logFirmware 2 = u at hexpire hfw hrest
    have hhand := enterHandover_parts u
    have hflash : u.flash = (s.windowEnded p).flash := (stores_of_sansRaise hrest).1
    have hotp : u.otp = (s.windowEnded p).otp := (stores_of_sansRaise hrest).2
    exact ⟨_, congrArg Host.Outcome.next hexpire, hhand.stage, hhand.confirm.trans (by rw [hfw, hframe]), hhand.previous.trans (by rw [hfw, hframe]), hhand.handover, hhand.flash.trans (hflash.trans (by rw [hframe])), hhand.otp.trans (hotp.trans (by rw [hframe]))⟩

end Sys2Proof.Machine

/-! Settles PowerStates (R358, R387 to R390, R394, R395). -/

namespace Sys2Proof.Machine

-- ## POWER_STATE_SET (R388)

/-- One wall is paused, or restarted. -/
def State.pauseOne (v : Bool) (w : Nat) (s : State) : State := if (s.wall? w).isNone then s else if v then s.pauseWall w else s.playWall w 0

theorem pauseWalls_eq (s : State) (v : Bool) : s.pauseWalls v = chainAll (s.codec.walls.map (·.1)) (State.pauseOne v) s := rfl

/-- Pausing reads and writes the walls and contexts alone. -/
theorem pauseOne_frame (v : Bool) (w : Nat) (s : State) (r : Tab (Tab Nat)) : State.pauseOne v w { s with regs := r } = { State.pauseOne v w s with regs := r } := by
  have hpause : ({ s with regs := r } : State).pauseWall w = { s.pauseWall w with regs := r } := rfl
  have hplay : ({ s with regs := r } : State).playWall w 0 = { s.playWall w 0 with regs := r } := by
    unfold State.playWall
    rw [show ({ s with regs := r } : State).wall w = s.wall w from rfl]
    cases (s.wall w).paused <;> rfl
  unfold State.pauseOne
  rw [show ({ s with regs := r } : State).wall? w = s.wall? w from rfl, hpause, hplay]
  cases (s.wall? w).isNone <;> cases v <;> rfl

theorem pauseOne_codec (v : Bool) (w : Nat) (s : State) : State.pauseOne v w s = { s with codec := (State.pauseOne v w s).codec } := by
  have hplay : s.playWall w 0 = { s with codec := (s.playWall w 0).codec } := by
    unfold State.playWall
    split <;> rfl
  unfold State.pauseOne
  split
  · rfl
  · split
    · rfl
    · exact hplay

theorem pauseWalls_frame (s : State) (v : Bool) : s.pauseWalls v = { s with codec := (s.pauseWalls v).codec } := by
  have hall : ∀ (l : List Nat) (t : State), chainAll l (State.pauseOne v) t = { t with codec := (chainAll l (State.pauseOne v) t).codec } := fun l => by
    induction l with
    | nil => exact fun _ => rfl
    | cons w l ih =>
      intro t
      have hstep : chainAll (w :: l) (State.pauseOne v) t = chainAll l (State.pauseOne v) (State.pauseOne v w t) := rfl
      rw [hstep, ih (State.pauseOne v w t)]
      have hone := pauseOne_codec v w t
      generalize State.pauseOne v w t = u at hone ⊢
      rw [hone]
  exact hall _ s

theorem pauseWalls_regs (s : State) (v : Bool) (r : Tab (Tab Nat)) : ({ s with regs := r } : State).pauseWalls v = { s.pauseWalls v with regs := r } := by
  have hall : ∀ (l : List Nat) (t : State), chainAll l (State.pauseOne v) { t with regs := r } = { chainAll l (State.pauseOne v) t with regs := r } := fun l => by
    induction l with
    | nil => exact fun _ => rfl
    | cons w l ih =>
      intro t
      have hone := pauseOne_frame v w t r
      have hstep : ∀ u : State, chainAll (w :: l) (State.pauseOne v) u = chainAll l (State.pauseOne v) (State.pauseOne v w u) := fun _ => rfl
      rw [hstep, hstep, hone, ih]
  exact hall _ s

theorem sets_pauseWalls (s : State) (v : Bool) (k : Nat) (hk : k < 4) : Sets (s.pauseWalls v) [(F.PWR_STATUS_STATE, 0, k)] ((s.setF F.PWR_STATUS_STATE 0 k).pauseWalls v) := by
  refine ((Sets.refl s).putNew F.PWR_STATUS_STATE 0 k rfl hk).through (g := fun u => u.pauseWalls v) (fun u w => ?_) fun u => ?_
  · have hw : (w.pauseWalls v).regs = w.regs := by rw [pauseWalls_frame]
    rw [pauseWalls_regs, hw]
  · rw [pauseWalls_frame]

theorem exec_powerStateSet {s : State} {m k : Nat} (ha : s.accepts m 0x0060 = true) (hl : s.mbxLen m = 5) (hk : k = byteAt (s.mbxArgs m) 0) (h1 : k ≤ 1) :
    exec (.powerStateSet m) s = .next (((s.setF F.PWR_STATUS_STATE 0 k).pauseWalls (decide (k = 1))).putResult m stOk []) := by
  refine (exec_served (c := .powerStateSet m) rfl ha (by simp [hl])).trans (congrArg Host.Outcome.next ?_)
  rw [← hk]
  obtain rfl | rfl : k = 0 ∨ k = 1 := by omega
  · rfl
  · rfl

-- ## STANDBY (R388, R389)

/-- Every channel that is ready is in self-refresh. -/
def State.refreshOne (c : Nat) (s : State) : State :=
  if s.ddrState c = ddrReady then s.setF F.DDR_STATUS_STATE c ddrSelfRefresh
  else if s.ddrState c = ddrRetraining then ((s.setMchan c { s.mchan c with retrainDue := true }).setF F.DDR_TRAIN_BUSY c 0).setF F.DDR_STATUS_STATE c ddrSelfRefresh
  else s

theorem selfRefresh_eq (s : State) : s.selfRefresh = chainAll (List.range 4) State.refreshOne s := rfl

theorem refreshOne_ready {c : Nat} {s : State} (h : s.f F.DDR_STATUS_STATE c = 2) : (State.refreshOne c s).f F.DDR_STATUS_STATE c = 4 := by
  rw [State.refreshOne, if_pos (show s.ddrState c = ddrReady from h)]
  exact State.f_setF_same _ _ _ _

theorem refreshOne_other {c d : Nat} (h : d ≠ c) (s : State) : (State.refreshOne c s).f F.DDR_STATUS_STATE d = s.f F.DDR_STATUS_STATE d := by
  unfold State.refreshOne
  split
  · exact f_setF_otherInst _ _ _ _ h
  · split
    · rw [f_setF_otherInst _ _ _ _ h, State.f_setF_code _ _ _ _ _ _ (by decide), f_setMchan]
    · rfl

theorem refreshOne_off (c : Nat) (s : State) : Off [F.DDR_STATUS_STATE, F.DDR_TRAIN_BUSY] s (State.refreshOne c s) := by
  unfold State.refreshOne
  split
  · exact (Off.refl _ s).setF _ _ _ rfl
  · split
    · exact (Off.setF (s := s) (t := s.setMchan c _) (fun x i _ => f_setMchan s c _ x i) F.DDR_TRAIN_BUSY c 0 rfl).setF _ _ _ rfl
    · exact Off.refl _ s

/-- The state without registers and the memory system's own. -/
def State.sansMem (s : State) : State := { s with regs := [], mem := {} }

theorem refreshOne_rest (c : Nat) (s : State) : (State.refreshOne c s).sansMem = s.sansMem := by
  unfold State.refreshOne
  split
  · rfl
  · split <;> rfl

theorem selfRefresh_ready (s : State) {c : Nat} (hc : c < 4) (h : s.f F.DDR_STATUS_STATE c = 2) : s.selfRefresh.f F.DDR_STATUS_STATE c = 4 := by
  rw [selfRefresh_eq]
  obtain ⟨u, hu, hlast⟩ := chainAll_focus (fun t => t.f F.DDR_STATUS_STATE c) (List.mem_range.mpr hc) List.nodup_range (g := State.refreshOne) (fun b t hb => refreshOne_other hb.symm t) s
  exact hlast.trans (refreshOne_ready (hu.trans h))

/-- The ports that owe a BLANK frame. -/
def State.owing (s : State) : State := chainAll allPorts (fun n t => if (t.port n).en then t.setPort n { t.port n with owed := true } else t) s

theorem owing_frame (s : State) : s.owing.regs = s.regs ∧ s.owing.dram = s.dram := by
  have hkeep : ∀ {β : Type} (part : State → β), (∀ (t : State) n x, part (t.setPort n x) = part t) → part s.owing = part s := fun part hpart =>
    chainAll_keep part _ _ (fun n t => by
      split
      · exact hpart t n _
      · rfl) s
  exact ⟨hkeep State.regs fun _ _ _ => rfl, hkeep State.dram fun _ _ _ => rfl⟩

/-- The saved table and the wake timer, before self-refresh. -/
def State.standbyDue (s : State) (seconds : Nat) : State :=
  ((s.withPwr (fun w => { w with saved := some (s.regs.filter (fun e => decide (e.1 ∈ savedCodes)), s.calRecord), standbyDue := true, wakeRuns := decide (seconds ≠ 0) })).draw.setF F.PWR_WAKE_SECONDS 0 seconds).withAon (fun w => { w with wakeTimer := false })

theorem enterStandby_eq (s : State) (seconds : Nat) : s.enterStandby seconds = (s.owing.standbyDue seconds).selfRefresh := rfl

theorem standbyDue_frame (s : State) (seconds : Nat) : (s.standbyDue seconds).pwr.standbyDue = true ∧ (s.standbyDue seconds).pwr.wakeRuns = decide (seconds ≠ 0) ∧ (s.standbyDue seconds).dram = s.dram ∧ Sets s [(F.PWR_WAKE_SECONDS, 0, seconds % 2 ^ 32)] (s.setF F.PWR_WAKE_SECONDS 0 seconds) ∧
    ∀ x i, (s.standbyDue seconds).f x i = (s.setF F.PWR_WAKE_SECONDS 0 seconds).f x i := by
  have hsets := (Sets.refl s).snocNew F.PWR_WAKE_SECONDS 0 seconds rfl
  unfold State.standbyDue
  generalize (some (s.regs.filter (fun e => decide (e.1 ∈ savedCodes)), s.calRecord) : Option (Tab (Tab Nat) × List Byte)) = saved
  exact ⟨rfl, rfl, rfl, hsets, fun _ _ => rfl⟩

theorem pwr_of_sansMem {s t : State} (h : t.sansMem = s.sansMem) : t.pwr = s.pwr := (congrArg (fun u : State => u.pwr) h :)

theorem dram_of_sansMem {s t : State} (h : t.sansMem = s.sansMem) : t.dram = s.dram := (congrArg (fun u : State => u.dram) h :)

/-- STANDBY as firmware prepares it. -/
theorem enterStandby_parts (s : State) {seconds : Nat} (hs : seconds < 2 ^ 32) : (s.enterStandby seconds).pwr.standbyDue = true ∧ (s.enterStandby seconds).f F.PWR_WAKE_SECONDS 0 = seconds ∧ ((s.enterStandby seconds).pwr.wakeRuns = true ↔ seconds ≠ 0) ∧
    (∀ c, c < 4 → s.f F.DDR_STATUS_STATE c = 2 → (s.enterStandby seconds).f F.DDR_STATUS_STATE c = 4) ∧ (s.enterStandby seconds).dram = s.dram ∧ Off [F.PWR_WAKE_SECONDS, F.DDR_STATUS_STATE, F.DDR_TRAIN_BUSY] s (s.enterStandby seconds) := by
  obtain ⟨howed, howedDram⟩ := owing_frame s
  have hsame : ∀ x i, s.owing.f x i = s.f x i := fun x i => by rw [State.f, State.f, howed]
  rw [enterStandby_eq]
  generalize s.owing = t at howedDram hsame ⊢
  obtain ⟨hdue, hruns, hdram, hsets, hf⟩ := standbyDue_frame t seconds
  have hoff : Off [F.PWR_WAKE_SECONDS] t (t.standbyDue seconds) := fun x i hx => (hf x i).trans (hsets.off x i hx)
  have hsec : (t.standbyDue seconds).f F.PWR_WAKE_SECONDS 0 = seconds := (hf _ _).trans ((hsets.2.1 (F.PWR_WAKE_SECONDS, 0, seconds % 2 ^ 32) (by simp)).trans (Nat.mod_eq_of_lt hs))
  generalize t.standbyDue seconds = u at hdue hruns hdram hoff hsec ⊢
  have hrest : u.selfRefresh.sansMem = u.sansMem := chainAll_keep State.sansMem _ _ refreshOne_rest u
  have hrefresh : Off [F.DDR_STATUS_STATE, F.DDR_TRAIN_BUSY] u u.selfRefresh := (Off.refl _ u).chainAll _ _ refreshOne_off
  have hpwr := pwr_of_sansMem hrest
  refine ⟨by rw [hpwr, hdue], (hrefresh.at_ _ _ rfl).trans hsec, ?_, fun c hc h => selfRefresh_ready u hc ((hoff.at_ _ _ rfl).trans ((hsame _ _).trans h)), (dram_of_sansMem hrest).trans (hdram.trans howedDram), fun x i hx => ?_⟩
  · rw [hpwr, hruns, decide_eq_true_eq]
  · exact ((hrefresh.mono (gs := [F.PWR_WAKE_SECONDS, F.DDR_STATUS_STATE, F.DDR_TRAIN_BUSY]) rfl) x i hx).trans (((hoff.mono (gs := [F.PWR_WAKE_SECONDS, F.DDR_STATUS_STATE, F.DDR_TRAIN_BUSY]) rfl) x i hx).trans (hsame x i))

/-- The gate (R387 to R389): the core domain is reset, the always-on domain kept. -/
theorem gate_parts {s : State} (h : s.pwr.standbyDue = true) : s.gate.pwr.standby = true ∧ s.gate.pwr.saved = s.pwr.saved ∧ s.gate.aon.wakeLatch = s.aon.wakeLatch ∧ s.gate.pwr.wakeRuns = s.pwr.wakeRuns ∧ s.gate.stage = 0 ∧ s.gate.dram = s.dram ∧ s.gate.flash = s.flash ∧ s.gate.otp = s.otp := by
  obtain ⟨hdram, hflash, hotp, haon, -⟩ := coreReset_kept s
  have hregs : s.coreReset = { s.unloaded with regs := s.coreReset.regs } := coreReset_regsOnly s
  have hruns : s.coreReset.pwr.wakeRuns = s.pwr.wakeRuns := (congrArg (fun u : State => u.pwr.wakeRuns) hregs :)
  have hstage : s.coreReset.f F.GLB_BOOT_STATUS_STAGE 0 = 0 := coreReset_cleared s 0 (by decide) (by decide) (by unfold Fld.outside; decide)
  have hgate : s.gate = ((s.coreReset.setF F.PWR_THERM_WARN 0 (s.f F.PWR_THERM_WARN 0)).withPwr (fun w => { w with standby := true, saved := s.pwr.saved, asleep := some s.sleeping })).withAon (fun w => { w with steady := allWakeSources.filter s.level }) := by
    unfold State.gate
    rw [h]
    rfl
  rw [hgate]
  generalize s.coreReset = t at hdram hflash hotp haon hruns hstage ⊢
  generalize s.sleeping = slept
  generalize allWakeSources.filter s.level = steady
  exact ⟨rfl, rfl, congrArg (fun a => a.wakeLatch) haon, hruns, (State.f_setF_code _ _ _ _ _ _ (by decide)).trans hstage, hdram, hflash, hotp⟩

end Sys2Proof.Machine

/-! PowerStates: the wake, and calibration records (R390, R394, R395). -/

namespace Sys2Proof.Machine

-- ## The wake (R358, R390)

/-- What no step of the wake changes after the reset: the stores, the gate and the latches. -/
def State.wakeKept (s : State) : Tab Byte × Tab Byte × Tab Byte × Bool × List Nat := (s.dram, s.flash, s.otp, s.pwr.standby, s.aon.wakeLatch)

theorem wakeKept_of_sansRaise {s t : State} (h : t.sansRaise = s.sansRaise) : t.wakeKept = s.wakeKept := (congrArg State.wakeKept h :)

theorem wakeKept_modCtx (s : State) (c : Nat) (g : Ctx → Ctx) : (s.modCtx c g).wakeKept = s.wakeKept := by
  unfold State.modCtx
  split <;> rfl

theorem wakeKept_bedCrcFail (s : State) (c k : Nat) : (s.bedCrcFail c k).wakeKept = s.wakeKept := by
  have hfirst : ((s.abandonBuild c k).stat c (stErr errBedCrc) 1).wakeKept = s.wakeKept := (wakeKept_modCtx _ _ _).trans (wakeKept_modCtx _ _ _)
  unfold State.bedCrcFail
  dsimp only
  generalize (s.abandonBuild c k).stat c (stErr errBedCrc) 1 = t at hfirst ⊢
  exact (wakeKept_modCtx _ _ _).trans ((wakeKept_of_sansRaise (sansRaise_logFirmware _ _)).trans ((wakeKept_of_sansRaise (sansRaise_count t _ _ _ _ _)).trans hfirst))

theorem wakeKept_recheckBed (s : State) (c k : Nat) : (s.recheckBed c k).wakeKept = s.wakeKept := by
  unfold State.recheckBed
  dsimp only
  split
  · rfl
  · split
    · exact wakeKept_modCtx _ _ _
    · exact (wakeKept_bedCrcFail _ _ _).trans (wakeKept_modCtx _ _ _)

theorem wakeKept_setF (s : State) (x : Fld) (i v : Nat) : (s.setF x i v).wakeKept = s.wakeKept := rfl

theorem wakeKept_reviveCtx (s : State) (c : Nat) : (s.reviveCtx c).wakeKept = s.wakeKept := by
  have hset : ∀ (t : State) (a : CtxSet), (t.writeCtxSet c a).wakeKept = t.wakeKept := fun t a => by
    unfold State.writeCtxSet
    simp only [wakeKept_setF]
  have hqueue : ∀ (t : State) (n : Nat) (e : Bool), (t.openQueue c n e).wakeKept = t.wakeKept := fun t n e => by
    unfold State.openQueue
    simp only [wakeKept_setF]
    rfl
  unfold State.reviveCtx
  dsimp only
  split
  · simp only [wakeKept_setF, hset, hqueue]
  · exact hqueue s _ _

theorem wakeKept_pauseWalls (s : State) (v : Bool) : (s.pauseWalls v).wakeKept = s.wakeKept := by rw [pauseWalls_frame]; rfl

-- ## Records (R394, R395)

/-- The state without the lanes' and the memory system's own state, and free values. -/
def State.sansTuning (s : State) : State := { s with lane := {}, mem := {}, free := 0 }

theorem sansTuning_restoreEntry (s : State) (e : List Byte) : (s.restoreEntry e).sansTuning = s.sansTuning := by
  unfold State.restoreEntry
  dsimp only
  split
  · rfl
  · split <;> rfl

theorem sansTuning_calDue (s : State) (n : Nat) : (s.calDue n).sansTuning = s.sansTuning := by
  unfold State.calDue
  split <;> rfl

theorem sansTuning_takeRestored (s : State) (c : Nat) : (s.takeRestored c).sansTuning = s.sansTuning ∧ (s.takeRestored c).lane = s.lane := by
  unfold State.takeRestored
  dsimp only
  split <;> exact ⟨rfl, rfl⟩

/-- The entries of a record. -/
def recordEntries (b : List Byte) : List (List Byte) := (List.range (beAt b 4 2)).map (fun i => sliceOf b (32 + 8 * i) 8)

/-- The values of a record, before a temperature far from its own makes lanes due. -/
def State.entriesTaken (s : State) (es : List (List Byte)) : State := chainAll es (fun e t => t.restoreEntry e) s

/-- Lanes whose record was made at another temperature are due. -/
def State.hotDue (s : State) (hot : Bool) (es : List (List Byte)) : State := if hot then chainAll es (fun e t => if byteAt e 0 = 1 ∧ beAt e 2 2 < 60 then t.calDue (beAt e 2 2) else t) s else s

/-- A part without lamp ports takes restored delays at once. -/
def State.delaysTaken (s : State) : State := if s.hasLampPorts then s else chainAll (List.range s.channels) (fun c t => t.takeRestored c) s

theorem restoreRecord_eq (s : State) (b : List Byte) : s.restoreRecord b = (((s.entriesTaken (recordEntries b)).hotDue (decide (20 < (s.tjMax - signed 8 (byteAt b 6)).natAbs)) (recordEntries b)).delaysTaken) := rfl

theorem hotDue_frame (s : State) (hot : Bool) (es : List (List Byte)) : (s.hotDue hot es).sansTuning = s.sansTuning ∧ (s.hotDue hot es).lane.restored = s.lane.restored := by
  have hone : ∀ (e : List Byte) (t : State), (if byteAt e 0 = 1 ∧ beAt e 2 2 < 60 then t.calDue (beAt e 2 2) else t).sansTuning = t.sansTuning ∧ (if byteAt e 0 = 1 ∧ beAt e 2 2 < 60 then t.calDue (beAt e 2 2) else t).lane.restored = t.lane.restored := fun e t => by
    split
    · refine ⟨sansTuning_calDue t _, ?_⟩
      unfold State.calDue
      split <;> rfl
    · exact ⟨rfl, rfl⟩
  unfold State.hotDue
  split
  · exact ⟨chainAll_keep State.sansTuning _ _ (fun e t => (hone e t).1) s, chainAll_keep (fun t => t.lane.restored) _ _ (fun e t => (hone e t).2) s⟩
  · exact ⟨rfl, rfl⟩

theorem delaysTaken_frame (s : State) : s.delaysTaken.sansTuning = s.sansTuning ∧ s.delaysTaken.lane = s.lane := by
  unfold State.delaysTaken
  split
  · exact ⟨rfl, rfl⟩
  · exact ⟨chainAll_keep State.sansTuning _ _ (fun c t => (sansTuning_takeRestored t c).1) s, chainAll_keep (fun t => t.lane) _ _ (fun c t => (sansTuning_takeRestored t c).2) s⟩

theorem restoreRecord_frame (s : State) (b : List Byte) : (s.restoreRecord b).sansTuning = s.sansTuning ∧ (s.restoreRecord b).lane.restored = (s.entriesTaken (recordEntries b)).lane.restored := by
  have htaken : (s.entriesTaken (recordEntries b)).sansTuning = s.sansTuning := chainAll_keep State.sansTuning _ _ (fun e t => sansTuning_restoreEntry t e) s
  rw [restoreRecord_eq]
  generalize s.entriesTaken (recordEntries b) = t at htaken ⊢
  obtain ⟨hhot, hlanes⟩ := hotDue_frame t (decide (20 < (s.tjMax - signed 8 (byteAt b 6)).natAbs)) (recordEntries b)
  generalize t.hotDue _ (recordEntries b) = u at hhot hlanes ⊢
  obtain ⟨hdelays, hlane⟩ := delaysTaken_frame u
  exact ⟨hdelays.trans (hhot.trans htaken), by rw [hlane, hlanes]⟩

theorem wakeKept_restoreRecord (s : State) (b : List Byte) : (s.restoreRecord b).wakeKept = s.wakeKept := (congrArg State.wakeKept (restoreRecord_frame s b).1 :)

theorem regs_restoreRecord (s : State) (b : List Byte) : (s.restoreRecord b).regs = s.regs := (congrArg (fun u : State => u.regs) (restoreRecord_frame s b).1 :)

theorem fw_restoreRecord (s : State) (b : List Byte) : (s.restoreRecord b).fw = s.fw := (congrArg (fun u : State => u.fw) (restoreRecord_frame s b).1 :)

-- ## What firmware has back

/-- Registers and contexts that firmware has back. -/
def State.tableBack (s old : State) : State :=
  (({ s with regs := (old.pwr.saved.getD ([], [])).1.foldl (fun (t : Tab (Tab Nat)) (e : Nat × Tab Nat) => Tab.set [] t e.1 e.2) s.regs, codec := (old.pwr.asleep.getD {}).codec.awake } : State).withFw (fun w => { w with ptp := (old.pwr.asleep.getD {}).ptp }))

/-- The channels that leave self-refresh. -/
def State.refreshEnds (s old : State) : State :=
  chainAll (List.range 4) (fun c t => if c ∈ (old.pwr.asleep.getD {}).refresh then ((t.setMchan c { t.mchan c with retrainDue := decide (c ∈ (old.pwr.asleep.getD {}).retrain) }).setF F.DDR_STATUS_STATE c ddrReady).setF F.DDR_CTRL_EN c 1 else t) s

/-- The contexts with their queues. -/
def State.ctxsBack (s : State) : State := chainAll s.ctxNums (fun c t => t.reviveCtx c) s

/-- Every serving generation checked again. -/
def State.bedsBack (s : State) : State := chainAll s.ctxNums (fun c t => chainAll (List.range 2) (fun k u => u.recheckBed c k) t) s

/-- Walls paused, and the snapshot restored. -/
def State.goesOn (s : State) (snapshot : List Byte) : State :=
  let s := (s.pauseWalls true).withPwr (fun w => { w with resumeDue := true })
  if s.calOk snapshot then s.restoreRecord snapshot else s

theorem restoreSaved_eq (s old : State) : s.restoreSaved old = (((s.tableBack old).refreshEnds old).ctxsBack.bedsBack).goesOn (old.pwr.saved.getD ([], [])).2 := rfl

theorem wakeKept_restoreSaved (s old : State) : (s.restoreSaved old).wakeKept = s.wakeKept := by
  have htable : (s.tableBack old).wakeKept = s.wakeKept := rfl
  rw [restoreSaved_eq]
  generalize s.tableBack old = t at htable ⊢
  have hrefresh : (t.refreshEnds old).wakeKept = t.wakeKept := chainAll_keep State.wakeKept _ _ (fun c u => by split <;> rfl) t
  generalize t.refreshEnds old = u at hrefresh ⊢
  have hctxs : u.ctxsBack.wakeKept = u.wakeKept := chainAll_keep State.wakeKept _ _ (fun c v => wakeKept_reviveCtx v c) u
  generalize u.ctxsBack = v at hctxs ⊢
  have hbeds : v.bedsBack.wakeKept = v.wakeKept := chainAll_keep State.wakeKept _ _ (fun c w => chainAll_keep State.wakeKept _ _ (fun k x => wakeKept_recheckBed x c k) w) v
  generalize v.bedsBack = w at hbeds ⊢
  have hwalls : ((w.pauseWalls true).withPwr (fun p => { p with resumeDue := true })).wakeKept = w.wakeKept := wakeKept_pauseWalls w true
  have hgoes : (w.goesOn (old.pwr.saved.getD ([], [])).2).wakeKept = w.wakeKept := by
    unfold State.goesOn
    dsimp only
    generalize (w.pauseWalls true).withPwr (fun p => { p with resumeDue := true }) = x at hwalls ⊢
    split
    · exact (wakeKept_restoreRecord x _).trans hwalls
    · exact hwalls
  exact hgoes.trans (hbeds.trans (hctxs.trans (hrefresh.trans htable)))

/-- The latches sampled and cleared. -/
theorem sampleLatches_frame (s : State) : s.sampleLatches.aon.wakeLatch = [] ∧ s.sampleLatches.dram = s.dram ∧ s.sampleLatches.flash = s.flash ∧ s.sampleLatches.otp = s.otp ∧ s.sampleLatches.pwr = s.pwr := by
  have hkeep : ∀ n (t : State), (if t.level n then t else t.count F.INTC_SPURIOUS_WAKE_COUNT 0 F.INTC_CNT_SAT_SPURIOUS_WAKE_SAT 0 0).sansMem = t.sansMem := fun n t => by
    split
    · rfl
    · unfold State.count
      dsimp only
      split <;> rfl
  have hall := chainAll_keep State.sansMem s.aon.wakeLatch (fun n t => if t.level n then t else t.count F.INTC_SPURIOUS_WAKE_COUNT 0 F.INTC_CNT_SAT_SPURIOUS_WAKE_SAT 0 0) hkeep s
  unfold State.sampleLatches
  dsimp only
  generalize chainAll s.aon.wakeLatch (fun n t => if t.level n then t else t.count F.INTC_SPURIOUS_WAKE_COUNT 0 F.INTC_CNT_SAT_SPURIOUS_WAKE_SAT 0 0) s = t at hall ⊢
  have hdram := dram_of_sansMem hall
  have hflash : t.flash = s.flash := (congrArg (fun u : State => u.flash) hall :)
  have hotp : t.otp = s.otp := (congrArg (fun u : State => u.otp) hall :)
  have hpwr := pwr_of_sansMem hall
  exact ⟨rfl, hdram, hflash, hotp, hpwr⟩

theorem wake_parts {s : State} {n : Nat} (h : s.pwr.standby = true) (hn : s.aon.wakeLatch.find? (fun k => s.fb F.INTC_ROUTE_WAKE_EN k) = some n) :
    s.wakeUp.aon.wakeLatch = [] ∧ s.wakeUp.pwr.standby = false ∧ s.wakeUp.dram = s.dram ∧ s.wakeUp.flash = s.flash ∧ s.wakeUp.otp = s.otp := by
  obtain ⟨hdram, hflash, hotp, -, -⟩ := coreReset_kept s
  have hregs : s.coreReset = { s.unloaded with regs := s.coreReset.regs } := coreReset_regsOnly s
  have hgate : s.coreReset.pwr.standby = false := (congrArg (fun u : State => u.pwr.standby) hregs :)
  have hwake : s.wakeUp = ((((s.coreReset.withAon (fun w => { w with wakeLatch := s.aon.wakeLatch })).setF F.INTC_WAKE_CAUSE_VALID 0 1).setF F.INTC_WAKE_CAUSE_SOURCE 0 n).sampleLatches).restoreSaved s := by
    unfold State.wakeUp
    rw [h, hn]
  rw [hwake]
  generalize s.coreReset = t at hdram hflash hotp hgate ⊢
  have hsample := sampleLatches_frame (((t.withAon (fun w => { w with wakeLatch := s.aon.wakeLatch })).setF F.INTC_WAKE_CAUSE_VALID 0 1).setF F.INTC_WAKE_CAUSE_SOURCE 0 n)
  generalize (((t.withAon (fun w => { w with wakeLatch := s.aon.wakeLatch })).setF F.INTC_WAKE_CAUSE_VALID 0 1).setF F.INTC_WAKE_CAUSE_SOURCE 0 n).sampleLatches = u at hsample ⊢
  obtain ⟨ulatch, udram, uflash, uotp, upwr⟩ := hsample
  have hkept := wakeKept_restoreSaved u s
  simp only [State.wakeKept, Prod.mk.injEq] at hkept
  obtain ⟨kdram, kflash, kotp, kgate, klatch⟩ := hkept
  exact ⟨klatch.trans ulatch, kgate.trans ((congrArg (fun p => p.standby) upwr).trans hgate), kdram.trans (udram.trans hdram), kflash.trans (uflash.trans hflash), kotp.trans (uotp.trans hotp)⟩

end Sys2Proof.Machine

/-! PowerStates: restored lane values, the records' commands, and the obligation. -/

namespace Sys2Proof.Machine

-- ## Restored lane values

theorem byteAt_sliceOf (b : List Byte) (o : Nat) {i n : Nat} (h : i < n) : byteAt (sliceOf b o n) i = byteAt b (o + i) := by
  simp only [byteAt, sliceOf, List.getD_eq_getElem?_getD, List.getElem?_take, List.getElem?_drop, if_pos h]

theorem beAt_sliceOf (b : List Byte) (o : Nat) {i k n : Nat} (h : i + k ≤ n) : beAt (sliceOf b o n) i k = beAt b (o + i) k := by
  rw [beAt, beAt, sliceOf, sliceOf, sliceOf, List.drop_take, List.drop_drop, List.take_take, min_eq_left (by omega)]

/-- The value that a lane's entry restores. -/
def restoredValue (v : Nat) : Nat := v / 2 ^ 12 % 16 * 64 + v / 2 ^ 18 % 64

theorem restoreEntry_lane {s : State} {e : List Byte} (h : byteAt e 0 = 1) (hi : beAt e 2 2 < 60) : Tab.get none (s.restoreEntry e).lane.restored (beAt e 2 2) = some (restoredValue (beAt e 4 4)) := by
  unfold State.restoreEntry
  dsimp only
  rw [if_pos ⟨h, hi⟩]
  show Tab.get none (Tab.set none s.lane.restored (beAt e 2 2) (some (restoredValue (beAt e 4 4)))) (beAt e 2 2) = _
  exact Tab.get_set_same _ _ _ _

theorem restoreEntry_otherLane {s : State} {e : List Byte} {n : Nat} (h : ¬(byteAt e 0 = 1 ∧ beAt e 2 2 = n)) : Tab.get none (s.restoreEntry e).lane.restored n = Tab.get none s.lane.restored n := by
  unfold State.restoreEntry
  dsimp only
  split
  · next hc =>
    show Tab.get none (Tab.set none s.lane.restored (beAt e 2 2) (some (restoredValue (beAt e 4 4)))) n = _
    exact Tab.get_set_ne _ _ _ fun hn => h ⟨hc.1, hn.symm⟩
  · split <;> rfl

/-- The last entry of a lane stands. -/
theorem entriesTaken_lane (s : State) {b : List Byte} {k : Nat} (hk : k < beAt b 4 2) (hkind : byteAt b (32 + 8 * k) = 1) (hn : beAt b (34 + 8 * k) 2 < 60) (hlast : ∀ j, k < j → j < beAt b 4 2 → ¬(byteAt b (32 + 8 * j) = 1 ∧ beAt b (34 + 8 * j) 2 = beAt b (34 + 8 * k) 2)) :
    Tab.get none (s.entriesTaken (recordEntries b)).lane.restored (beAt b (34 + 8 * k) 2) = some (restoredValue (beAt b (36 + 8 * k) 4)) := by
  have hbyte : ∀ j, byteAt (sliceOf b (32 + 8 * j) 8) 0 = byteAt b (32 + 8 * j) := fun j => byteAt_sliceOf b _ (by decide)
  have hindex : ∀ j, beAt (sliceOf b (32 + 8 * j) 8) 2 2 = beAt b (34 + 8 * j) 2 := fun j => by
    rw [beAt_sliceOf b _ (by decide)]
    exact congrArg (fun o => beAt b o 2) (by omega)
  have hvalue : beAt (sliceOf b (32 + 8 * k) 8) 4 4 = beAt b (36 + 8 * k) 4 := by
    rw [beAt_sliceOf b _ (by decide)]
    exact congrArg (fun o => beAt b o 4) (by omega)
  have hsplit := map_range_split (fun i => sliceOf b (32 + 8 * i) 8) hk
  have hchain : s.entriesTaken (recordEntries b) = chainAll ((List.range (beAt b 4 2 - (k + 1))).map (fun j => sliceOf b (32 + 8 * (k + 1 + j)) 8)) (fun e t => t.restoreEntry e)
      ((chainAll ((List.range k).map (fun i => sliceOf b (32 + 8 * i) 8)) (fun e t => t.restoreEntry e) s).restoreEntry (sliceOf b (32 + 8 * k) 8)) := by
    rw [State.entriesTaken, recordEntries, hsplit, chainAll, List.foldl_append]
    rfl
  have hown := restoreEntry_lane (s := chainAll ((List.range k).map (fun i => sliceOf b (32 + 8 * i) 8)) (fun e t => t.restoreEntry e) s) (e := sliceOf b (32 + 8 * k) 8) ((hbyte k).trans hkind) (by rw [hindex]; exact hn)
  rw [hindex, hvalue] at hown
  rw [hchain, chainAll_keep_mem (fun t => Tab.get none t.lane.restored (beAt b (34 + 8 * k) 2)) _ _ (fun e he t => ?_) _]
  · exact hown
  · obtain ⟨j, hj, rfl⟩ := List.mem_map.mp he
    have hlt := List.mem_range.mp hj
    refine restoreEntry_otherLane ?_
    rw [hbyte, hindex]
    exact hlast (k + 1 + j) (by omega) (by omega)

-- ## CAL_SNAPSHOT and CAL_RESTORE

theorem exec_calSnapshot {s : State} {m : Nat} (ha : s.accepts m 0x0061 = true) (hl : s.mbxLen m = 9) (hf : byteAt (s.mbxArgs m) 0 ≤ 1) (haddr : leAt (s.mbxArgs m) 1 8 < 2 ^ 40) (hlock : s.lockElsewhere 4 = false) :
    exec (.calSnapshot m) s = .next (if byteAt (s.mbxArgs m) 0 = 1 then ((s.setF F.SEM_LOCK_OWNER 4 1).draw).startJob m (.calFlash s.calRecord) else (s.draw.putFor 9 (leAt (s.mbxArgs m) 1 8) s.calRecord (Origin.secure (mbxOrigin m) s)).putResult m stOk (leBytes 4 s.calRecord.length)) := by
  refine (exec_served (c := .calSnapshot m) rfl ha (by simp [hl])).trans (congrArg Host.Outcome.next ?_)
  dsimp only
  rw [if_neg (by omega), if_neg (by simp [hlock])]

theorem exec_calRestore {s : State} {m : Nat} {b : List Byte} (ha : s.accepts m 0x0062 = true) (hl : s.mbxLen m = 9) (hf : byteAt (s.mbxArgs m) 0 ≤ 3) (haddr : leAt (s.mbxArgs m) 1 8 < 2 ^ 40) (hb : b = s.recordAt m (decide (byteAt (s.mbxArgs m) 0 % 2 = 1)) (leAt (s.mbxArgs m) 1 8)) (hok : s.calOk b = true) :
    exec (.calRestore m) s = .next (if 2 ≤ byteAt (s.mbxArgs m) 0 then (s.restoreRecord b).startJob m (.calFlash b) else (s.restoreRecord b).putResult m stOk []) := by
  refine (exec_served (c := .calRestore m) rfl ha (by simp [hl])).trans (congrArg Host.Outcome.next ?_)
  dsimp only
  rw [← hb, if_neg]
  rintro (h | h | h)
  · omega
  · omega
  · exact absurd (hok.symm.trans h) (by decide)

theorem mbxTag_of_regs {s t : State} (m : Nat) (h : t.regs = s.regs) : t.mbxTag m = s.mbxTag m := mbxTag_congr m (by rw [State.f, State.f, h])

/-- A pin's level, and no latch (R358). -/
theorem gpioSet_parts (s : State) (k : Nat) (high : Bool) : (k ∈ (s.gpioSet k high).aon.gpio ↔ high = true) ∧ (∀ j, j ≠ k → (j ∈ (s.gpioSet k high).aon.gpio ↔ j ∈ s.aon.gpio)) ∧ (s.gpioSet k high).regs = s.regs ∧ (s.gpioSet k high).aon.wakeLatch = s.aon.wakeLatch := by
  have hgpio : (s.gpioSet k high).aon.gpio = if high then (if k ∈ s.aon.gpio then s.aon.gpio else k :: s.aon.gpio) else s.aon.gpio.filter (· ≠ k) := rfl
  refine ⟨?_, fun j hj => ?_, rfl, rfl⟩
  · rw [hgpio]
    cases high with
    | false => simp
    | true =>
      by_cases h : k ∈ s.aon.gpio
      · simp [h]
      · simp [h]
  · rw [hgpio]
    cases high with
    | false => simp [hj]
    | true =>
      by_cases h : k ∈ s.aon.gpio
      · simp [h]
      · simp [h, hj]

/-- Settles O32: pausing changes walls alone, the gate and the wake go through the reset and keep the stores, and a record changes lanes and memory channels alone. -/
theorem powerStates : Obligations.PowerStates := by
  unfold Obligations.PowerStates
  refine ⟨fun s m k ha hl hk h1 => ?_, fun s m ha hl hk hj hg => ?_, fun s h => ⟨_, rfl, gate_parts h⟩, fun s h => ?_, fun s h => ?_, fun s h => ?_, fun s k high hk => ?_, fun s n h hn => ⟨_, rfl, wake_parts h hn⟩, fun s h => ?_, fun s m ha hl hf haddr hlock => ?_,
    fun s m ha hl hf haddr hlock => ?_, fun s m fl b ha hl hfl h3 haddr hb hok => ?_⟩
  · have htag : (s.pauseWalls (decide (k = 1))).mbxTag m = s.mbxTag m := mbxTag_of_regs m (by rw [pauseWalls_frame])
    have hsets := (sets_pauseWalls s (decide (k = 1)) k (by omega)).putAnswer m stOk [] rfl (by decide) (by simp)
    rw [htag] at hsets
    exact ⟨_, exec_powerStateSet ha hl hk h1, hsets⟩
  · have hexec : exec (.powerStateSet m) s = .next ((s.enterStandby (leAt (s.mbxArgs m) 1 4)).putResult m stOk []) := by
      refine (exec_served (c := .powerStateSet m) rfl ha (by simp [hl])).trans (congrArg Host.Outcome.next ?_)
      rw [hk]
      exact if_neg (by simp [hj, hg])
    obtain ⟨hdue, hsec, hruns, hready, hdram, hoff⟩ := enterStandby_parts s (seconds := leAt (s.mbxArgs m) 1 4) (leAt_lt _ _ 4)
    generalize s.enterStandby (leAt (s.mbxArgs m) 1 4) = t at hexec hdue hsec hruns hready hdram hoff
    have hput := sets_putResult t m (status := stOk) (data := []) (by decide) (by simp)
    have hstate : t.putResult m stOk [] = { t with regs := (t.putResult m stOk []).regs } := hput.1
    have hpwr : (t.putResult m stOk []).pwr = t.pwr := (congrArg (fun u : State => u.pwr) hstate :)
    have hmem : (t.putResult m stOk []).dram = t.dram := (congrArg (fun u : State => u.dram) hstate :)
    have hres : Off resultFields t (t.putResult m stOk []) := (Off.refl _ t).putResult m (by decide) (by simp) rfl
    exact ⟨_, hexec, by rw [hpwr, hdue], (hres.at_ _ _ rfl).trans hsec, by rw [hpwr]; exact hruns, fun c hc h => (hres.at_ _ _ rfl).trans (hready c hc h), hmem.trans hdram, hoff.answers m rfl (by decide) (by simp)⟩
  · exact congrArg Host.Outcome.next (if_pos (by rw [h]; rfl))
  · exact congrArg Host.Outcome.next (if_pos h)
  · exact congrArg Host.Outcome.next (if_neg (by simp [h]))
  · exact ⟨_, onInstance_of (decide_eq_true hk) _, gpioSet_parts s k high⟩
  · have hnone : s.wakeUp = s := by
      unfold State.wakeUp
      rcases h with h | h
      · rw [h]
      · have hfind : s.aon.wakeLatch.find? (fun k => s.fb F.INTC_ROUTE_WAKE_EN k) = none := List.find?_eq_none.mpr fun k hk => by simpa using List.all_eq_true.mp h k hk
        rw [hfind]
        cases s.pwr.standby <;> rfl
    exact congrArg Host.Outcome.next hnone
  · have hexec := exec_calSnapshot ha hl (by omega) haddr hlock
    rw [if_neg (by omega)] at hexec
    obtain ⟨-, hregs⟩ := putFor_frame s.draw 9 (leAt (s.mbxArgs m) 1 8) s.calRecord (Origin.secure (mbxOrigin m) s)
    have hsets := sets_putResult (s.draw.putFor 9 (leAt (s.mbxArgs m) 1 8) s.calRecord (Origin.secure (mbxOrigin m) s)) m (status := stOk) (data := leBytes 4 s.calRecord.length) (by decide) (by simp)
    rw [mbxTag_of_regs (s := s) m hregs] at hsets
    exact ⟨_, hexec, hsets⟩
  · have hexec := exec_calSnapshot ha hl (by omega) haddr hlock
    rw [if_pos hf] at hexec
    have hsets := (((Sets.refl s).putNew F.SEM_LOCK_OWNER 4 1 rfl (by decide)).draw).startJob m (.calFlash s.calRecord) rfl
    exact ⟨_, hexec, hsets⟩
  · subst hfl
    have hexec := exec_calRestore ha hl h3 haddr hb hok
    have htag : (s.restoreRecord b).mbxTag m = s.mbxTag m := mbxTag_of_regs m (regs_restoreRecord s b)
    have hlane : ∀ t : State, t.lane = (s.restoreRecord b).lane → ∀ k n, k < beAt b 4 2 → byteAt b (32 + 8 * k) = 1 → n = beAt b (34 + 8 * k) 2 → n < 60 → (∀ j, k < j → j < beAt b 4 2 → ¬(byteAt b (32 + 8 * j) = 1 ∧ beAt b (34 + 8 * j) 2 = n)) →
        Tab.get none t.lane.restored n = some (beAt b (36 + 8 * k) 4 / 2 ^ 12 % 16 * 64 + beAt b (36 + 8 * k) 4 / 2 ^ 18 % 64) := fun t ht k n hk hkind hn hn60 hlast => by
      subst hn
      rw [ht, (restoreRecord_frame s b).2]
      exact entriesTaken_lane s hk hkind hn60 hlast
    by_cases h2 : 2 ≤ byteAt (s.mbxArgs m) 0
    · rw [if_pos h2] at hexec
      have hsets := sets_startJob (s.restoreRecord b) m (.calFlash b)
      rw [htag, fw_restoreRecord] at hsets
      have hstate : (s.restoreRecord b).startJob m (.calFlash b) = { (s.restoreRecord b).withJob m (.calFlash b) with regs := ((s.restoreRecord b).startJob m (.calFlash b)).regs } := hsets.1
      exact ⟨_, hexec, fun h => absurd h (by omega), fun _ => hsets, hlane _ ((congrArg (fun u : State => u.lane) hstate :))⟩
    · rw [if_neg h2] at hexec
      have hsets := sets_putResult (s.restoreRecord b) m (status := stOk) (data := []) (by decide) (by simp)
      rw [htag] at hsets
      have hstate : (s.restoreRecord b).putResult m stOk [] = { s.restoreRecord b with regs := ((s.restoreRecord b).putResult m stOk []).regs } := hsets.1
      exact ⟨_, hexec, fun _ => hsets, fun h => absurd h h2, hlane _ ((congrArg (fun u : State => u.lane) hstate :))⟩

end Sys2Proof.Machine

/-! SyncEvents: what the steps of a sync leave alone (R64, R149, R156, R198 to R202, R225). -/

namespace Sys2Proof.Machine

-- ## Steps on contexts and marks

/-- A step on contexts, groups and descriptors: of the registers only fields of `fs`, and nothing beside the codec. -/
structure CodecStep (fs : List Fld) (s t : State) : Prop where
  off : Off fs s t
  rest : t.sansCodec = s.sansCodec

namespace CodecStep
variable {fs : List Fld} {s t u : State}

theorem refl (fs : List Fld) (s : State) : CodecStep fs s s := ⟨Off.refl _ s, rfl⟩

theorem trans (h : CodecStep fs s t) (g : CodecStep fs t u) : CodecStep fs s u := ⟨h.off.trans g.off, g.rest.trans h.rest⟩

theorem mono {gs : List Fld} (h : CodecStep fs s t) (hw : covers gs fs = true) : CodecStep gs s t := ⟨h.off.mono hw, h.rest⟩

theorem writes (h : Writes fs s t) : CodecStep fs s t := ⟨h.off, by rw [show t = { s with regs := t.regs } from h.only]; rfl⟩

theorem withCodec (h : CodecStep fs s t) (g : CodecState → CodecState) : CodecStep fs s (t.withCodec g) := ⟨h.off.withCodec g, h.rest⟩

theorem ite {p : Prop} [Decidable p] (h : CodecStep fs s t) (g : CodecStep fs s u) : CodecStep fs s (if p then t else u) := by
  split
  · exact h
  · exact g

theorem chainAll {α : Type} (l : List α) (g : α → State → State) (hg : ∀ a t, CodecStep fs t (g a t)) (s : State) : CodecStep fs s (chainAll l g s) :=
  ⟨(Off.refl _ s).chainAll l g fun a t => (hg a t).off, chainAll_keep State.sansCodec l g (fun a t => (hg a t).rest) s⟩

theorem modCtx (h : CodecStep fs s t) (c : Nat) (g : Ctx → Ctx) : CodecStep fs s (t.modCtx c g) := by
  unfold State.modCtx
  split
  · exact h
  · exact h.withCodec _

theorem lamp (h : CodecStep fs s t) : t.lamp = s.lamp := (congrArg (fun u : State => u.lamp) h.rest :)

theorem noticeGroup (s : State) (g : Nat) : CodecStep [F.SCH_CTX_LATE_LREM] s (s.noticeGroup g) :=
  chainAll _ _ (fun c t => ⟨(Looks.notice c t).off, by rw [(Looks.notice c t).rest]; rfl⟩) s

theorem resetDesc (s : State) (d : Nat) : CodecStep descFields s (s.resetDesc d) := by
  refine ⟨resetDesc_off s d, ?_⟩
  have hfields := chainAll_keep State.sansCodec [F.STK_DESC_INFO_PINNED, F.STK_DESC_INFO_DISPLAY, F.STK_DESC_INFO_BEDROCK, F.STK_DESC_INFO_SHORT_TERM, F.STK_DESC_INFO_HOST_PIN,
    F.STK_DESC_INFO_SLOT, F.STK_DESC_INFO_GROUP, F.STK_DESC_PICTURE_PICTURE, F.STK_DESC_BASE_LO_BASE, F.STK_DESC_BASE_HI_BASE] (fun F t => t.setF F d (F.reset d)) (fun _ _ => rfl) s
  unfold State.resetDesc
  dsimp only
  generalize Machine.chainAll _ _ s = t at hfields ⊢
  exact hfields

theorem shrinkGroup (s : State) (g : Nat) : CodecStep descFields s (s.shrinkGroup g) := by
  unfold State.shrinkGroup
  dsimp only
  split
  · exact ite (refl _ s) (((refl _ s).withCodec _).trans (resetDesc _ _))
  · exact refl _ s

theorem refreshMarks (s : State) (g : Nat) : CodecStep descFields s (s.refreshMarks g) :=
  ite (writes (refreshDescCount_writes s)) (((chainAll _ _ (fun d t => writes (refreshMark_writes t g d)) s).trans (shrinkGroup _ g)).trans (writes (refreshDescCount_writes _)))

end CodecStep

/-- The registers that marks and displays may write. -/
def displayFields : List Fld := descFields ++ [F.SCH_CTX_LATE_LREM, F.SCH_CTX_LATE_LATE_STREAK]

/-- The marks of a group, and the slices that wait for a descriptor of it. -/
theorem marksNoticed_step (s : State) (g : Nat) : CodecStep displayFields s ((s.refreshMarks g).noticeGroup g) :=
  ((CodecStep.refreshMarks s g).mono rfl).trans ((CodecStep.noticeGroup _ g).mono rfl)

theorem syncMarks_step (s : State) : CodecStep displayFields s s.syncMarks := CodecStep.chainAll _ _ (fun g t => marksNoticed_step t g) s

theorem stat_step {fs : List Fld} {s t : State} (h : CodecStep fs s t) (c k n : Nat) : CodecStep fs s (t.stat c k n) := h.modCtx c _

theorem countLate_step (s : State) (c : Nat) (late : Bool) : CodecStep displayFields s (s.countLate c late) := by
  unfold State.countLate
  split
  · have hrun : CodecStep displayFields s ((s.stat c stLatePictures 1).modCtx c (fun x => { x with lateRun := x.lateRun + 1 })) := (stat_step (CodecStep.refl _ s) c _ _).modCtx c _
    exact CodecStep.ite (hrun.trans (CodecStep.writes ((Writes.refl _ _).setF F.SCH_CTX_LATE_LATE_STREAK c 1 rfl))) hrun
  · exact (CodecStep.refl _ s).modCtx c _

theorem noteSkip_step (s : State) (c p : Nat) : CodecStep displayFields s (s.noteSkip c p) := CodecStep.ite (CodecStep.refl _ s) ((stat_step (CodecStep.refl _ s) c _ _).modCtx c _)

/-- The picture that a sync shows (R149). -/
theorem displayAt_step (s : State) (c t : Nat) : CodecStep displayFields s (s.displayAt c t) := by
  unfold State.displayAt
  dsimp only
  split
  · exact CodecStep.refl _ s
  · next w _ =>
    have hpast := CodecStep.chainAll ((s.ctx c).waiting.takeWhile (· ≠ w)) (fun y u => (u.countLate c (decide (y.stamp < y.meets))).noteSkip c y.held.picture) (fun y u => (countLate_step u c _).trans (noteSkip_step _ c _)) s
    generalize chainAll ((s.ctx c).waiting.takeWhile (· ≠ w)) _ s = u at hpast ⊢
    exact ((hpast.trans (countLate_step u c _)).modCtx c _).trans (marksNoticed_step _ _)

/-- The pictures of a wall's decode contexts at the sync at `at_`. -/
def State.displayAll (s : State) (wall at_ : Nat) : State := chainAll (s.ctxsOf (fun c => decide (c.wall = wall) && !c.enc)) (fun c t => t.displayAt c at_) s

theorem displayAll_step (s : State) (wall at_ : Nat) : CodecStep displayFields s (s.displayAll wall at_) := CodecStep.chainAll _ _ (fun c t => displayAt_step t c at_) s

-- ## Ports and channels

/-- The state without registers, codec, ports and channels. -/
def State.sansPorts (s : State) : State := { s with regs := [], codec := {}, lamp := { s.lamp with ports := [], chans := [] } }

theorem sansPorts_of_sansCodec {s t : State} (h : t.sansCodec = s.sansCodec) : t.sansPorts = s.sansPorts := (congrArg (fun u : State => { u with lamp := { u.lamp with ports := [], chans := [] } }) h :)

theorem port_setPort (s : State) (n : Nat) (p : LampPort) : (s.setPort n p).port n = p := Tab.get_set_same _ _ _ _

theorem port_setPort_ne (s : State) {m n : Nat} (p : LampPort) (h : m ≠ n) : (s.setPort n p).port m = s.port m := Tab.get_set_ne _ _ _ h

theorem chan_setChan (s : State) (n : Nat) (c : RivChan) : (s.setChan n c).chan n = c := Tab.get_set_same _ _ _ _

theorem chan_setChan_ne (s : State) {m n : Nat} (c : RivChan) (h : m ≠ n) : (s.setChan n c).chan m = s.chan m := Tab.get_set_ne _ _ _ h

/-- The registers of a channel without a strip in fetch. -/
def settleFields : List Fld := [F.RIV_CH_STATUS_COUNT, F.RIV_CH_STATUS_PANIC, F.LMP_PORT_STATUS_BUF, F.RIV_CH_STATUS_DONE, F.RIV_CH_STATUS_STATE]

theorem showBuf_writes (s : State) (n : Nat) : Writes settleFields s (s.showBuf n) := Writes.ite ((Writes.refl _ s).setF F.LMP_PORT_STATUS_BUF n _ rfl) (Writes.refl _ s)

theorem settleChan_writes (s : State) (n : Nat) : Writes settleFields s (s.settleChan n) := by
  have hcounts : Writes settleFields s (((s.setF F.RIV_CH_STATUS_COUNT n 0).setF F.RIV_CH_STATUS_PANIC n 0).showBuf n) := (((Writes.refl _ s).setF F.RIV_CH_STATUS_COUNT n 0 rfl).setF F.RIV_CH_STATUS_PANIC n 0 rfl).trans (showBuf_writes _ n)
  unfold State.settleChan
  dsimp only
  generalize ((s.setF F.RIV_CH_STATUS_COUNT n 0).setF F.RIV_CH_STATUS_PANIC n 0).showBuf n = t at hcounts ⊢
  exact (hcounts.setF F.RIV_CH_STATUS_DONE n 0 rfl).ite (((hcounts.setF F.RIV_CH_STATUS_STATE n 0 rfl).setF F.RIV_CH_STATUS_DONE n 0 rfl).ite (((hcounts.setF F.RIV_CH_STATUS_STATE n 1 rfl).setF F.RIV_CH_STATUS_DONE n 1 rfl).ite ((hcounts.setF F.RIV_CH_STATUS_STATE n 3 rfl).setF F.RIV_CH_STATUS_DONE n 0 rfl)))

/-- What a change of safe state leaves of a port. -/
def LampPort.fixed (p : LampPort) : LampPort := { p with safe := false, hold := false, blankDue := false, frame := none, aborts := 0 }

/-- What the end of a band leaves of a channel. -/
def RivChan.fixed (c : RivChan) : RivChan := { c with current := none, strips := [], bursts := [], flying := [] }

/-- A step on port `n` and the band of its channel. -/
structure PortStep (n : Nat) (s t : State) : Prop where
  off : Off portFields s t
  rest : t.sansPorts = s.sansPorts
  other : ∀ m, m ≠ n → t.port m = s.port m
  chan : ∀ m, (t.chan m).fixed = (s.chan m).fixed
  idle : ∀ m, (s.chan m).current = none → (t.chan m).current = none

namespace PortStep
variable {n : Nat} {s t u : State}

theorem refl (n : Nat) (s : State) : PortStep n s s := ⟨Off.refl _ s, rfl, fun _ _ => rfl, fun _ => rfl, fun _ h => h⟩

theorem trans (h : PortStep n s t) (g : PortStep n t u) : PortStep n s u :=
  ⟨h.off.trans g.off, g.rest.trans h.rest, fun m hm => (g.other m hm).trans (h.other m hm), fun m => (g.chan m).trans (h.chan m), fun m hm => g.idle m (h.idle m hm)⟩

theorem writes (h : Writes portFields s t) : PortStep n s t := by
  have hrest : t = { s with regs := t.regs } := h.only
  have hlamp : t.lamp = s.lamp := by rw [hrest]
  exact ⟨h.off, by rw [hrest]; rfl, fun m _ => by rw [State.port, State.port, hlamp], fun m => by rw [State.chan, State.chan, hlamp], fun m hm => by rw [State.chan, hlamp]; exact hm⟩

theorem setPort (h : PortStep n s t) (p : LampPort) : PortStep n s (t.setPort n p) :=
  ⟨fun x i hx => h.off x i hx, h.rest, fun m hm => (port_setPort_ne t p hm).trans (h.other m hm), h.chan, h.idle⟩

end PortStep

theorem endBand_step (n : Nat) (s : State) : PortStep n s (s.setChan n (s.chan n).endBand) := by
  refine ⟨fun _ _ _ => rfl, rfl, fun _ _ => rfl, fun m => ?_, fun m hm => ?_⟩
  · by_cases h : m = n
    · rw [h, chan_setChan]
      rfl
    · rw [chan_setChan_ne s _ h]
  · by_cases h : m = n
    · rw [h, chan_setChan]
      rfl
    · rw [chan_setChan_ne s _ h]
      exact hm

theorem dropDisplay_writes (s : State) (d : Nat) : Writes portFields s (s.dropDisplay d) := Writes.ite (Writes.refl _ s) ((Writes.refl _ s).setF F.STK_DESC_INFO_DISPLAY d 0 rfl)

/-- A port that follows the causes of its safe state (R225). -/
theorem refreshPort_step (s : State) (n : Nat) : PortStep n s (s.refreshPort n) ∧ ((s.refreshPort n).port n).fixed = (s.port n).fixed := by
  unfold State.refreshPort
  dsimp only
  split
  · generalize hp : ({ s.port n with safe := true, hold := _, blankDue := _, frame := none, aborts := _ } : LampPort) = p
    have hfixed : p.fixed = (s.port n).fixed := by rw [← hp]; rfl
    have hband := (endBand_step n s).setPort p
    have hown : ((s.setChan n (s.chan n).endBand).setPort n p).port n = p := port_setPort _ n p
    have hsafe : Writes portFields ((s.setChan n (s.chan n).endBand).setPort n p) ((((s.setChan n (s.chan n).endBand).setPort n p).setF F.LMP_PORT_STATUS_SAFE n 1).settleChan n) := ((Writes.refl _ _).setF F.LMP_PORT_STATUS_SAFE n 1 rfl).trans ((settleChan_writes _ n).mono rfl)
    have hkept : ∀ {t : State}, Writes portFields ((s.setChan n (s.chan n).endBand).setPort n p) t → PortStep n s t ∧ (t.port n).fixed = (s.port n).fixed := fun {t} h => by
      have hlamp : t.lamp = ((s.setChan n (s.chan n).endBand).setPort n p).lamp := h.only.lamp
      refine ⟨hband.trans (PortStep.writes h), ?_⟩
      rw [State.port, hlamp, ← State.port, hown, hfixed]
    split
    · exact hkept (hsafe.trans (dropDisplay_writes _ _))
    · exact hkept hsafe
  · split
    · have hset : PortStep n s (s.setPort n { s.port n with safe := false, blankDue := false }) := (PortStep.refl n s).setPort _
      have hown : (s.setPort n { s.port n with safe := false, blankDue := false }).port n = { s.port n with safe := false, blankDue := false } := port_setPort _ n _
      refine ⟨hset.trans (PortStep.writes ((Writes.refl _ _).setF F.LMP_PORT_STATUS_SAFE n 0 rfl)), ?_⟩
      exact (congrArg LampPort.fixed hown).trans rfl
    · exact ⟨PortStep.refl n s, rfl⟩

end Sys2Proof.Machine

/-! SyncEvents: hand-overs at a sync, and the sync of each port (R64, R198, R206, R225). -/

namespace Sys2Proof.Machine

-- ## The sync of a port

theorem takeKind_step (s : State) (n : Nat) : PortStep n s (s.takeKind n) ∧ ((s.takeKind n).port n).fixed = { (s.port n).fixed with kind := s.safeKind n } ∧ ((s.port n).kind = s.safeKind n → (s.takeKind n).port n = s.port n) := by
  have hset : PortStep n s (s.setPort n { s.port n with kind := s.safeKind n }) := (PortStep.refl n s).setPort _
  have hown : (s.setPort n { s.port n with kind := s.safeKind n }).port n = { s.port n with kind := s.safeKind n } := port_setPort s n _
  have hsame : (s.port n).kind = s.safeKind n → (s.setPort n { s.port n with kind := s.safeKind n }).port n = s.port n := fun h => by rw [hown, ← h]
  have hkind : ((s.setPort n { s.port n with kind := s.safeKind n }).port n).fixed = { (s.port n).fixed with kind := s.safeKind n } := (congrArg LampPort.fixed hown).trans rfl
  unfold State.takeKind
  dsimp only
  generalize s.setPort n { s.port n with kind := s.safeKind n } = t at hset hkind hsame ⊢
  split
  · exact ⟨hset, hkind, hsame⟩
  · next h =>
    obtain ⟨hstep, hfixed⟩ := refreshPort_step t n
    exact ⟨hset.trans hstep, hfixed.trans hkind, fun hk => absurd hk h⟩

theorem portSync_step (s : State) (n sfc : Nat) : PortStep n s (s.portSync n sfc) ∧ ((s.portSync n sfc).port n).fixed = { (s.port n).fixed with kind := s.safeKind n, lastSync := some sfc, inGap := false } ∧
    ((s.port n).kind = s.safeKind n → ((s.portSync n sfc).port n).blankDue = ((s.port n).blankDue || ((s.port n).safe && !(s.port n).hold))) := by
  obtain ⟨hstep, hfixed, hsame⟩ := takeKind_step s n
  unfold State.portSync
  dsimp only
  generalize s.takeKind n = t at hstep hfixed hsame ⊢
  have hown : (t.setPort n { t.port n with lastSync := some sfc, inGap := false, blankDue := (t.port n).blankDue || ((t.port n).safe && !(t.port n).hold) }).port n = { t.port n with lastSync := some sfc, inGap := false, blankDue := (t.port n).blankDue || ((t.port n).safe && !(t.port n).hold) } := port_setPort t n _
  refine ⟨hstep.setPort _, ?_, fun h => ?_⟩
  · have hlast : ({ t.port n with lastSync := some sfc, inGap := false, blankDue := (t.port n).blankDue || ((t.port n).safe && !(t.port n).hold) } : LampPort).fixed = { (t.port n).fixed with lastSync := some sfc, inGap := false } := rfl
    rw [hown, hlast, hfixed]
  · rw [hown]
    dsimp only
    rw [hsame h]

/-- What the syncs of other ports and the sync of its own keep of a port. -/
def LampPort.set (p : LampPort) : Bool × Nat × Nat × Bool × Bool := (p.en, p.partner, p.grid, p.endB, p.owed)

theorem set_of_fixed {p q : LampPort} (h : p.fixed = q.fixed) : p.set = q.set := (congrArg LampPort.set h :)

/-- The sync on the ports of a grid. -/
structure GridSync (g : Nat) (s t : State) : Prop where
  off : Off portFields s t
  rest : t.sansPorts = s.sansPorts
  set : ∀ n, (t.port n).set = (s.port n).set
  chan : ∀ m, (t.chan m).fixed = (s.chan m).fixed
  idle : ∀ m, (s.chan m).current = none → (t.chan m).current = none

theorem safeKind_off {fs : List Fld} {s t : State} (h : Off fs s t) (n : Nat) (hlo : fs.all (fun y => F.FLT_SAFE_KIND_LO_HOLD.code != y.code) = true) (hhi : fs.all (fun y => F.FLT_SAFE_KIND_HI_HOLD.code != y.code) = true) : t.safeKind n = s.safeKind n := by
  rw [State.safeKind, State.safeKind, h.at_ _ _ hlo, h.at_ _ _ hhi]

theorem gridSync_refl (g : Nat) (s : State) : GridSync g s s := ⟨Off.refl _ s, rfl, fun _ => rfl, fun _ => rfl, fun _ h => h⟩

theorem GridSync.trans {g : Nat} {s t u : State} (h : GridSync g s t) (k : GridSync g t u) : GridSync g s u :=
  ⟨h.off.trans k.off, k.rest.trans h.rest, fun n => (k.set n).trans (h.set n), fun m => (k.chan m).trans (h.chan m), fun m hm => k.idle m (h.idle m hm)⟩

theorem portSync_gridSync (g : Nat) (s : State) (n sfc : Nat) : GridSync g s (s.portSync n sfc) := by
  obtain ⟨hstep, hfixed, -⟩ := portSync_step s n sfc
  refine ⟨hstep.off, hstep.rest, fun m => ?_, hstep.chan, hstep.idle⟩
  by_cases h : m = n
  · subst h
    exact (congrArg LampPort.set hfixed :)
  · rw [hstep.other m h]

theorem sendSync_gridSync (s : State) (g sfc : Nat) : GridSync g s (s.sendSync g sfc) := by
  have hall : ∀ (l : List Nat) (t : State), GridSync g t (chainAll l (fun n u => u.portSync n sfc) t) := fun l => by
    induction l with
    | nil => exact gridSync_refl g
    | cons n l ih => exact fun t => (portSync_gridSync g t n sfc).trans (ih _)
  exact hall _ s

theorem mem_gridPorts {s : State} {g n : Nat} : n ∈ s.gridPorts g ↔ n ∈ allPorts ∧ (s.port n).en = true ∧ (s.port n).grid = g := by
  simp [State.gridPorts]

theorem gridPorts_nodup (s : State) (g : Nat) : (s.gridPorts g).Nodup := List.Nodup.filter _ List.nodup_range

/-- A port of the grid has sent its sync. -/
theorem sendSync_port (s : State) (g sfc : Nat) {n : Nat} (h : n ∈ s.gridPorts g) :
    ((s.sendSync g sfc).port n).lastSync = some sfc ∧ ((s.sendSync g sfc).port n).inGap = false ∧ ((s.sendSync g sfc).port n).kind = s.safeKind n ∧
      ((s.port n).kind = s.safeKind n → ((s.sendSync g sfc).port n).blankDue = ((s.port n).blankDue || ((s.port n).safe && !(s.port n).hold))) := by
  have hother : ∀ m (t : State), m ≠ n → ((t.portSync m sfc).port n, (t.portSync m sfc).safeKind n) = (t.port n, t.safeKind n) := fun m t hm => by
    obtain ⟨hstep, -, -⟩ := portSync_step t m sfc
    rw [hstep.other n hm.symm, safeKind_off hstep.off n rfl rfl]
  obtain ⟨u, hu, hlast⟩ := chainAll_focus (fun t => (t.port n, t.safeKind n)) h (gridPorts_nodup s g) (g := fun n u => u.portSync n sfc) hother s
  obtain ⟨huport, hukind⟩ := Prod.mk.inj hu
  obtain ⟨hport, -⟩ := Prod.mk.inj hlast
  obtain ⟨-, hfixed, hblank⟩ := portSync_step u n sfc
  have hsent : (s.sendSync g sfc).port n = (u.portSync n sfc).port n := hport
  rw [huport, hukind] at hfixed hblank
  rw [hsent]
  exact ⟨(congrArg LampPort.lastSync hfixed :), (congrArg LampPort.inGap hfixed :), (congrArg LampPort.kind hfixed :), hblank⟩

-- ## Hand-overs (R64)

/-- The set of a lamp port that its registers hold. -/
def State.portTaken (s : State) (n : Nat) : LampPort :=
  { s.port n with en := s.fb F.LMP_PORT_CTRL_EN n, partner := s.f F.LMP_PORT_CTRL_PARTNER n, grid := s.f F.LMP_PORT_CTRL_GRID n, endB := s.fb F.LMP_PORT_CTRL_END n, owed := if s.fb F.LMP_PORT_CTRL_EN n && !(s.port n).en then true else (s.port n).owed }

theorem handPort_eq (s : State) (n : Nat) : s.handPort n = (s.setPort n (s.portTaken n)).setF F.LMP_PORT_CTRL_SHADOW_ARMED n 0 := rfl

/-- A hand-over of one port. -/
structure HandsPort (n : Nat) (s t : State) : Prop where
  off : Off [F.LMP_PORT_CTRL_SHADOW_ARMED] s t
  rest : t.sansPorts = s.sansPorts
  chans : t.lamp.chans = s.lamp.chans
  other : ∀ m, m ≠ n → t.port m = s.port m ∧ t.f F.LMP_PORT_CTRL_SHADOW_ARMED m = s.f F.LMP_PORT_CTRL_SHADOW_ARMED m
  own : t.port n = s.portTaken n
  disarmed : t.f F.LMP_PORT_CTRL_SHADOW_ARMED n = 0

theorem handPort_hands (s : State) (n : Nat) : HandsPort n s (s.handPort n) := by
  rw [handPort_eq]
  generalize hp : s.portTaken n = p
  have hoff : Off [F.LMP_PORT_CTRL_SHADOW_ARMED] s (s.setPort n p) := fun _ _ _ => rfl
  exact ⟨hoff.setF _ _ _ rfl, rfl, rfl, fun m hm => ⟨port_setPort_ne s p hm, f_setF_otherInst _ _ _ _ hm⟩, (port_setPort s n p).trans hp.symm, State.f_setF_same _ _ _ _⟩

/-- The set of a riving channel that its registers hold. -/
def State.chanTaken (s : State) (n : Nat) : RivChan :=
  let c := s.chan n
  let en := s.fb F.RIV_CH_CTRL_EN n
  let c := { c with en := en, retryLimit := s.f F.RIV_CH_CTRL_RETRY_LIMIT n, source := s.f F.RIV_CH_CTRL_SOURCE n, table := s.f F.RIV_CH_TABLE_LO_ADDR n + 2 ^ 32 * (if n < 48 then s.f F.RIV_CH_TABLE_HI_ADDR n % 256 else s.f F.RIV_CH_TABLE_HI_ADDR n) }
  if en then c else { c.endBand with bands := [] }

/-- The active split follows, and the set is armed no longer. -/
def State.splitTaken (s : State) (n : Nat) : State := ((s.setF F.RIV_CH_SPLIT_ACT_FIRST n (s.f F.RIV_CH_SPLIT_FIRST n)).setF F.RIV_CH_SPLIT_ACT_LAST n (s.f F.RIV_CH_SPLIT_LAST n)).setF F.RIV_CH_CTRL_SHADOW_ARMED n 0

/-- The registers of a channel that changes its set, and the marks of its pictures. -/
def State.chanSettled (s : State) (n : Nat) (en : Bool) : State :=
  let s := if en && decide ((s.chan n).current ≠ none) then s else s.settleChan n
  (if en then s else s.syncMarks).showSplit n

theorem handChan_eq (s : State) (n : Nat) : s.handChan n = ((s.setChan n (s.chanTaken n)).splitTaken n).chanSettled n (s.fb F.RIV_CH_CTRL_EN n) := by
  unfold State.handChan State.splitTaken State.chanSettled State.chanTaken
  dsimp only

/-- The registers of a channel's set. -/
def chanFields : List Fld := settleFields ++ displayFields ++ [F.LMP_PORT_STATUS_SPLIT]

theorem showSplit_writes (s : State) (n : Nat) : Writes [F.LMP_PORT_STATUS_SPLIT] s (s.showSplit n) := by
  unfold State.showSplit
  split
  · exact (Writes.refl _ s).chainAll _ _ fun x t => (Writes.refl _ t).setF F.LMP_PORT_STATUS_SPLIT x _ rfl
  · exact Writes.refl _ s

theorem chanSettled_step (s : State) (n : Nat) (en : Bool) : CodecStep chanFields s (s.chanSettled n en) := by
  unfold State.chanSettled
  dsimp only
  have hsettle : CodecStep chanFields s (if en && decide ((s.chan n).current ≠ none) then s else s.settleChan n) := (CodecStep.refl _ s).ite ((CodecStep.writes (settleChan_writes s n)).mono rfl)
  generalize (if en && decide ((s.chan n).current ≠ none) then s else s.settleChan n) = t at hsettle ⊢
  have hmarks : CodecStep chanFields t (if en then t else t.syncMarks) := (CodecStep.refl _ t).ite ((syncMarks_step t).mono rfl)
  exact (hsettle.trans hmarks).trans ((CodecStep.writes (showSplit_writes _ n)).mono rfl)

theorem sets_splitTaken (s : State) (n : Nat) : Sets s [(F.RIV_CH_SPLIT_ACT_FIRST, n, s.f F.RIV_CH_SPLIT_FIRST n % 256), (F.RIV_CH_SPLIT_ACT_LAST, n, s.f F.RIV_CH_SPLIT_LAST n % 256), (F.RIV_CH_CTRL_SHADOW_ARMED, n, 0)] (s.splitTaken n) :=
  (((Sets.refl s).snocNew F.RIV_CH_SPLIT_ACT_FIRST n _ rfl).snocNew F.RIV_CH_SPLIT_ACT_LAST n _ rfl).snocNew F.RIV_CH_CTRL_SHADOW_ARMED n 0 rfl

/-- The registers that a hand-over of a channel changes for that channel alone. -/
def splitFields : List Fld := [F.RIV_CH_SPLIT_ACT_FIRST, F.RIV_CH_SPLIT_ACT_LAST, F.RIV_CH_CTRL_SHADOW_ARMED]

/-- A hand-over of one channel. -/
structure HandsChan (n : Nat) (s t : State) : Prop where
  off : Off (chanFields ++ splitFields) s t
  rest : t.sansPorts = s.sansPorts
  ports : t.lamp.ports = s.lamp.ports
  other : ∀ m, m ≠ n → t.chan m = s.chan m ∧ ∀ x ∈ splitFields, t.f x m = s.f x m
  own : t.chan n = s.chanTaken n
  first : t.f F.RIV_CH_SPLIT_ACT_FIRST n = s.f F.RIV_CH_SPLIT_FIRST n % 256
  last : t.f F.RIV_CH_SPLIT_ACT_LAST n = s.f F.RIV_CH_SPLIT_LAST n % 256
  disarmed : t.f F.RIV_CH_CTRL_SHADOW_ARMED n = 0

theorem handChan_hands (s : State) (n : Nat) : HandsChan n s (s.handChan n) := by
  rw [handChan_eq]
  generalize hc : s.chanTaken n = c
  have hset : Off splitFields s (s.setChan n c) := fun _ _ _ => rfl
  have hf : ∀ x i, (s.setChan n c).f x i = s.f x i := fun _ _ => rfl
  have hrest : (s.setChan n c).sansPorts = s.sansPorts := rfl
  have hports : (s.setChan n c).lamp.ports = s.lamp.ports := rfl
  have hown : (s.setChan n c).chan n = c := chan_setChan s n c
  have hother : ∀ m, m ≠ n → (s.setChan n c).chan m = s.chan m := fun m hm => chan_setChan_ne s c hm
  generalize s.setChan n c = t at hset hf hrest hports hown hother ⊢
  have hsplit := sets_splitTaken t n
  have hregs : t.splitTaken n = { t with regs := (t.splitTaken n).regs } := hsplit.1
  have hlamp : (t.splitTaken n).lamp = t.lamp := (congrArg (fun u : State => u.lamp) hregs :)
  have hbeside : (t.splitTaken n).sansPorts = t.sansPorts := (congrArg State.sansPorts hregs :)
  have hvals := hsplit.2.1
  have hkept : ∀ m, m ≠ n → ∀ x, (t.splitTaken n).f x m = t.f x m := fun m hm x => hsplit.2.2 x m fun e he hce => hm (by
    simp only [List.mem_cons, List.not_mem_nil, or_false] at he
    rcases he with rfl | rfl | rfl <;> exact hce.2)
  have hoff : Off splitFields t (t.splitTaken n) := hsplit.off
  generalize t.splitTaken n = u at hlamp hbeside hvals hkept hoff ⊢
  have hsettled := chanSettled_step u n (s.fb F.RIV_CH_CTRL_EN n)
  generalize u.chanSettled n _ = v at hsettled ⊢
  have hvlamp : v.lamp = t.lamp := hsettled.lamp.trans hlamp
  have hout : ∀ x ∈ splitFields, x.outside chanFields := by unfold Fld.outside; decide
  simp only [List.mem_cons, List.not_mem_nil, or_false, forall_eq_or_imp, forall_eq] at hvals
  obtain ⟨hfirst, hlast, harmed⟩ := hvals
  refine ⟨((hset.mono rfl).trans (hoff.mono rfl)).trans (hsettled.off.mono rfl), (sansPorts_of_sansCodec hsettled.rest).trans (hbeside.trans hrest), by rw [hvlamp, hports], fun m hm => ⟨?_, fun x hx => ?_⟩, ?_, ?_, ?_, ?_⟩
  · rw [State.chan, hvlamp]
    exact hother m hm
  · exact (hsettled.off x m (hout x hx)).trans ((hkept m hm x).trans (hf x m))
  · rw [State.chan, hvlamp]
    exact hown.trans hc.symm
  · exact (hsettled.off.at_ _ _ rfl).trans (hfirst.trans (by rw [hf]))
  · exact (hsettled.off.at_ _ _ rfl).trans (hlast.trans (by rw [hf]))
  · exact (hsettled.off.at_ _ _ rfl).trans harmed

end Sys2Proof.Machine

/-! SyncEvents: SUBFRAME_SYNC (R64, R198, R206). -/

namespace Sys2Proof.Machine

-- ## The hand-over of a grid

/-- The ports whose set becomes active at a sync of grid `g`. -/
def State.handedPorts (s : State) (g : Nat) : List Nat := allPorts.filter (fun n => s.fb F.LMP_PORT_CTRL_SHADOW_ARMED n && decide (s.boundaryGrid n = g))

/-- The channels whose set becomes active at a sync of grid `g`. -/
def State.handedChans (s : State) (g : Nat) : List Nat := (List.range 64).filter (fun n => s.fb F.RIV_CH_CTRL_SHADOW_ARMED n && decide (s.chanGrid n = g))

def State.setsHanded (s : State) (g : Nat) : State := chainAll (s.handedChans g) (fun n t => t.handChan n) (chainAll (s.handedPorts g) (fun n t => t.handPort n) s)

def State.brightHanded (s : State) (g : Nat) : State :=
  if s.fb F.DRS_BRIGHT_SHADOW_ARMED g then
    (s.withLamp (fun w => { w with bright := Tab.set 65536 w.bright g (min 65536 (s.f F.DRS_BRIGHT_BRIGHT g)) })).setF F.DRS_BRIGHT_SHADOW_ARMED g 0
  else s

def State.lutHanded (s : State) (g : Nat) : State :=
  if decide (g = 0) && s.fb F.DRS_CTRL_LUT_ARMED 0 then (s.setF F.DRS_CTRL_LUT_BANK 0 (1 - s.f F.DRS_CTRL_LUT_BANK 0)).setF F.DRS_CTRL_LUT_ARMED 0 0 else s

theorem handOver_eq (s : State) (g : Nat) : s.handOver g = ((s.setsHanded g).brightHanded g).lutHanded g := rfl

theorem mem_handedPorts {s : State} {g n : Nat} : n ∈ s.handedPorts g ↔ n ∈ allPorts ∧ s.f F.LMP_PORT_CTRL_SHADOW_ARMED n = 1 ∧ s.boundaryGrid n = g := by
  simp [State.handedPorts, State.fb]

theorem mem_handedChans {s : State} {g n : Nat} : n ∈ s.handedChans g ↔ n < 64 ∧ s.f F.RIV_CH_CTRL_SHADOW_ARMED n = 1 ∧ s.chanGrid n = g := by
  simp [State.handedChans, State.fb]

theorem handedPorts_nodup (s : State) (g : Nat) : (s.handedPorts g).Nodup := List.Nodup.filter _ List.nodup_range

theorem handedChans_nodup (s : State) (g : Nat) : (s.handedChans g).Nodup := List.Nodup.filter _ List.nodup_range

/-- The registers that the sets of ports and channels change. -/
def handFields : List Fld := F.LMP_PORT_CTRL_SHADOW_ARMED :: (chanFields ++ splitFields)

/-- The registers that the count of a sync and the sets of ports and channels change. -/
def setFields : List Fld := F.LMP_GRID_STATUS_SFC :: handFields

theorem portTaken_congr {s t : State} {n : Nat} (hp : t.port n = s.port n) (hf : Off setFields s t) : t.portTaken n = s.portTaken n := by
  rw [State.portTaken, State.portTaken, hp, State.fb, State.fb, hf.at_ F.LMP_PORT_CTRL_EN n rfl, hf.at_ F.LMP_PORT_CTRL_PARTNER n rfl, hf.at_ F.LMP_PORT_CTRL_GRID n rfl, State.fb, State.fb, hf.at_ F.LMP_PORT_CTRL_END n rfl]

theorem chanTaken_congr {s t : State} {n : Nat} (hp : t.chan n = s.chan n) (hf : Off setFields s t) : t.chanTaken n = s.chanTaken n := by
  rw [State.chanTaken, State.chanTaken, hp, State.fb, State.fb, hf.at_ F.RIV_CH_CTRL_EN n rfl, hf.at_ F.RIV_CH_CTRL_RETRY_LIMIT n rfl, hf.at_ F.RIV_CH_CTRL_SOURCE n rfl, hf.at_ F.RIV_CH_TABLE_LO_ADDR n rfl, hf.at_ F.RIV_CH_TABLE_HI_ADDR n rfl]

/-- Sets that became active. -/
structure SetsHanded (g : Nat) (s t : State) : Prop where
  off : Off handFields s t
  rest : t.sansPorts = s.sansPorts
  kept : ∀ n, n ∉ s.handedPorts g → t.port n = s.port n
  port : ∀ n ∈ s.handedPorts g, t.port n = s.portTaken n ∧ t.f F.LMP_PORT_CTRL_SHADOW_ARMED n = 0
  chan : ∀ n ∈ s.handedChans g, t.chan n = s.chanTaken n ∧ t.f F.RIV_CH_SPLIT_ACT_FIRST n = s.f F.RIV_CH_SPLIT_FIRST n % 256 ∧ t.f F.RIV_CH_SPLIT_ACT_LAST n = s.f F.RIV_CH_SPLIT_LAST n % 256 ∧ t.f F.RIV_CH_CTRL_SHADOW_ARMED n = 0

/-- A part of the state that only the step of `a` touches is as before where `a` is not in the list. -/
theorem chainAll_keep_not_mem {α β : Type} (part : State → β) {l : List α} {g : α → State → State} {a : α} (ha : a ∉ l) (hother : ∀ b t, b ≠ a → part (g b t) = part t) (s : State) : part (chainAll l g s) = part s :=
  chainAll_keep_mem part l g (fun b hb t => hother b t fun h => ha (h ▸ hb)) s

/-- The ports that take their sets. -/
theorem portsHanded (s : State) (l : List Nat) (hl : l.Nodup) :
    Off handFields s (chainAll l (fun n t => t.handPort n) s) ∧ (chainAll l (fun n t => t.handPort n) s).sansPorts = s.sansPorts ∧ (chainAll l (fun n t => t.handPort n) s).lamp.chans = s.lamp.chans ∧
      (∀ n, n ∉ l → (chainAll l (fun n t => t.handPort n) s).port n = s.port n) ∧
      ∀ n ∈ l, (chainAll l (fun n t => t.handPort n) s).port n = s.portTaken n ∧ (chainAll l (fun n t => t.handPort n) s).f F.LMP_PORT_CTRL_SHADOW_ARMED n = 0 := by
  have hoff : ∀ n t, Off handFields t (State.handPort t n) := fun n t => (handPort_hands t n).off.mono rfl
  refine ⟨(Off.refl _ s).chainAll _ _ hoff, chainAll_keep State.sansPorts _ _ (fun n t => (handPort_hands t n).rest) s, chainAll_keep (fun t => t.lamp.chans) _ _ (fun n t => (handPort_hands t n).chans) s,
    fun n hn => chainAll_keep_not_mem (fun t => t.port n) hn (fun m t hm => ((handPort_hands t m).other n hm.symm).1) s, fun n hn => ?_⟩
  have hother : ∀ m t, m ≠ n → ((State.handPort t m).portTaken n, (State.handPort t m).port n, (State.handPort t m).f F.LMP_PORT_CTRL_SHADOW_ARMED n) = (t.portTaken n, t.port n, t.f F.LMP_PORT_CTRL_SHADOW_ARMED n) := fun m t hm => by
    obtain ⟨hp, hf⟩ := (handPort_hands t m).other n hm.symm
    rw [portTaken_congr hp ((hoff m t).mono rfl), hp, hf]
  obtain ⟨u, hu, hlast⟩ := chainAll_focus (fun t => (t.portTaken n, t.port n, t.f F.LMP_PORT_CTRL_SHADOW_ARMED n)) hn hl (g := fun n t => t.handPort n) hother s
  simp only [Prod.mk.injEq] at hu hlast
  obtain ⟨-, hport, harmed⟩ := hlast
  exact ⟨(hport.trans (handPort_hands u n).own).trans hu.1, harmed.trans (handPort_hands u n).disarmed⟩

/-- The channels that take their sets. -/
theorem chansHanded (s : State) (l : List Nat) (hl : l.Nodup) :
    Off handFields s (chainAll l (fun n t => t.handChan n) s) ∧ (chainAll l (fun n t => t.handChan n) s).sansPorts = s.sansPorts ∧ (chainAll l (fun n t => t.handChan n) s).lamp.ports = s.lamp.ports ∧
      (∀ n, (chainAll l (fun n t => t.handChan n) s).f F.LMP_PORT_CTRL_SHADOW_ARMED n = s.f F.LMP_PORT_CTRL_SHADOW_ARMED n) ∧
      ∀ n ∈ l, (chainAll l (fun n t => t.handChan n) s).chan n = s.chanTaken n ∧ (chainAll l (fun n t => t.handChan n) s).f F.RIV_CH_SPLIT_ACT_FIRST n = s.f F.RIV_CH_SPLIT_FIRST n % 256 ∧
        (chainAll l (fun n t => t.handChan n) s).f F.RIV_CH_SPLIT_ACT_LAST n = s.f F.RIV_CH_SPLIT_LAST n % 256 ∧ (chainAll l (fun n t => t.handChan n) s).f F.RIV_CH_CTRL_SHADOW_ARMED n = 0 := by
  have hoff : ∀ n t, Off handFields t (State.handChan t n) := fun n t => (handChan_hands t n).off.mono rfl
  refine ⟨(Off.refl _ s).chainAll _ _ hoff, chainAll_keep State.sansPorts _ _ (fun n t => (handChan_hands t n).rest) s, chainAll_keep (fun t => t.lamp.ports) _ _ (fun n t => (handChan_hands t n).ports) s,
    fun n => chainAll_keep (fun t => t.f F.LMP_PORT_CTRL_SHADOW_ARMED n) _ _ (fun m t => (handChan_hands t m).off.at_ _ _ rfl) s, fun n hn => ?_⟩
  have hother : ∀ m t, m ≠ n → ((State.handChan t m).chanTaken n, (State.handChan t m).chan n, ((State.handChan t m).f F.RIV_CH_SPLIT_FIRST n, (State.handChan t m).f F.RIV_CH_SPLIT_LAST n), (State.handChan t m).f F.RIV_CH_SPLIT_ACT_FIRST n, (State.handChan t m).f F.RIV_CH_SPLIT_ACT_LAST n, (State.handChan t m).f F.RIV_CH_CTRL_SHADOW_ARMED n)
      = (t.chanTaken n, t.chan n, (t.f F.RIV_CH_SPLIT_FIRST n, t.f F.RIV_CH_SPLIT_LAST n), t.f F.RIV_CH_SPLIT_ACT_FIRST n, t.f F.RIV_CH_SPLIT_ACT_LAST n, t.f F.RIV_CH_CTRL_SHADOW_ARMED n) := fun m t hm => by
    obtain ⟨hp, hf⟩ := (handChan_hands t m).other n hm.symm
    simp only [splitFields, List.mem_cons, List.not_mem_nil, or_false, forall_eq_or_imp, forall_eq] at hf
    obtain ⟨hfirst, hlast, harmed⟩ := hf
    rw [chanTaken_congr hp ((hoff m t).mono rfl), hp, (hoff m t).at_ F.RIV_CH_SPLIT_FIRST n rfl, (hoff m t).at_ F.RIV_CH_SPLIT_LAST n rfl, hfirst, hlast, harmed]
  obtain ⟨u, hu, hlast⟩ := chainAll_focus (fun t => (t.chanTaken n, t.chan n, (t.f F.RIV_CH_SPLIT_FIRST n, t.f F.RIV_CH_SPLIT_LAST n), t.f F.RIV_CH_SPLIT_ACT_FIRST n, t.f F.RIV_CH_SPLIT_ACT_LAST n, t.f F.RIV_CH_CTRL_SHADOW_ARMED n)) hn hl (g := fun n t => t.handChan n) hother s
  simp only [Prod.mk.injEq] at hu hlast
  obtain ⟨-, hchan, -, hfirst, hend, harmed⟩ := hlast
  obtain ⟨htaken, -, ⟨hsplit, hsplitEnd⟩, -⟩ := hu
  have hands := handChan_hands u n
  exact ⟨(hchan.trans hands.own).trans htaken, (hfirst.trans hands.first).trans (congrArg (· % 256) hsplit), (hend.trans hands.last).trans (congrArg (· % 256) hsplitEnd), harmed.trans hands.disarmed⟩

theorem setsHanded_sets (s : State) (g : Nat) : SetsHanded g s (s.setsHanded g) := by
  obtain ⟨hoff, hrest, hchans, hkept, hport⟩ := portsHanded s _ (handedPorts_nodup s g)
  obtain ⟨hoff', hrest', hports, harmed, hchan⟩ := chansHanded (chainAll (s.handedPorts g) (fun n t => t.handPort n) s) _ (handedChans_nodup s g)
  unfold State.setsHanded
  generalize chainAll (s.handedPorts g) (fun n t => t.handPort n) s = u at hoff hrest hchans hkept hport hoff' hrest' hports harmed hchan ⊢
  generalize chainAll (s.handedChans g) (fun n t => t.handChan n) u = t at hoff' hrest' hports harmed hchan ⊢
  have hpt : ∀ n, t.port n = u.port n := fun n => by rw [State.port, State.port, hports]
  have hcs : ∀ n, u.chan n = s.chan n := fun n => by rw [State.chan, State.chan, hchans]
  refine ⟨hoff.trans hoff', hrest'.trans hrest, fun n hn => (hpt n).trans (hkept n hn), fun n hn => ?_, fun n hn => ?_⟩
  · obtain ⟨hp, ha⟩ := hport n hn
    exact ⟨(hpt n).trans hp, (harmed n).trans ha⟩
  · obtain ⟨hc, hfirst, hlast, ha⟩ := hchan n hn
    rw [hoff.at_ F.RIV_CH_SPLIT_FIRST n rfl] at hfirst
    rw [hoff.at_ F.RIV_CH_SPLIT_LAST n rfl] at hlast
    exact ⟨hc.trans (chanTaken_congr (hcs n) (hoff.mono rfl)), hfirst, hlast, ha⟩

-- ## The whole sync

theorem parts_of_sansPorts {s t : State} (h : t.sansPorts = s.sansPorts) : t.lamp.grids = s.lamp.grids ∧ t.lamp.bright = s.lamp.bright ∧ t.dram = s.dram ∧ t.haul = s.haul ∧ t.mem = s.mem :=
  ⟨(congrArg (fun x : State => x.lamp.grids) h :), (congrArg (fun x : State => x.lamp.bright) h :), (congrArg (fun x : State => x.dram) h :), (congrArg (fun x : State => x.haul) h :), (congrArg (fun x : State => x.mem) h :)⟩

/-- Brightness and LUT bank of a sync's hand-over. -/
def pictureFields : List Fld := [F.DRS_BRIGHT_SHADOW_ARMED, F.DRS_CTRL_LUT_BANK, F.DRS_CTRL_LUT_ARMED]

/-- What brightness and LUT bank leave of a state. -/
def State.sansBright (s : State) : State := { s with regs := [], lamp := { s.lamp with bright := [] } }

theorem brightHanded_parts (s : State) (g : Nat) : Off [F.DRS_BRIGHT_SHADOW_ARMED] s (s.brightHanded g) ∧ (s.brightHanded g).sansBright = s.sansBright ∧
    Tab.get 65536 (s.brightHanded g).lamp.bright g = (if s.f F.DRS_BRIGHT_SHADOW_ARMED g = 1 then min 65536 (s.f F.DRS_BRIGHT_BRIGHT g) else Tab.get 65536 s.lamp.bright g) ∧ (s.brightHanded g).f F.DRS_BRIGHT_SHADOW_ARMED g ≠ 1 := by
  unfold State.brightHanded
  by_cases h : s.f F.DRS_BRIGHT_SHADOW_ARMED g = 1
  · rw [if_pos (fb_true h), if_pos h]
    have hoff : Off [F.DRS_BRIGHT_SHADOW_ARMED] s (s.withLamp (fun w => { w with bright := Tab.set 65536 w.bright g (min 65536 (s.f F.DRS_BRIGHT_BRIGHT g)) })) := fun _ _ _ => rfl
    refine ⟨hoff.setF _ _ _ rfl, rfl, Tab.get_set_same _ _ _ _, ?_⟩
    rw [State.f_setF_same]
    decide
  · rw [if_neg (fb_ne h), if_neg h]
    exact ⟨Off.refl _ s, rfl, rfl, h⟩

theorem lutHanded_writes (s : State) (g : Nat) : Writes [F.DRS_CTRL_LUT_BANK, F.DRS_CTRL_LUT_ARMED] s (s.lutHanded g) :=
  (((Writes.refl _ s).setF F.DRS_CTRL_LUT_BANK 0 _ rfl).setF F.DRS_CTRL_LUT_ARMED 0 0 rfl).ite (Writes.refl _ s)

theorem lutHanded_turns {s : State} (h : s.f F.DRS_CTRL_LUT_ARMED 0 = 1) : (s.lutHanded 0).f F.DRS_CTRL_LUT_BANK 0 = 1 - s.f F.DRS_CTRL_LUT_BANK 0 ∧ (s.lutHanded 0).f F.DRS_CTRL_LUT_ARMED 0 = 0 := by
  unfold State.lutHanded
  rw [if_pos (by rw [fb_true h]; rfl)]
  refine ⟨?_, State.f_setF_same _ _ _ _⟩
  rw [State.f_setF_code _ _ _ _ _ _ (by decide), State.f_setF_same]
  exact Nat.mod_eq_of_lt (Nat.lt_of_le_of_lt (Nat.sub_le _ _) (by decide))

/-- The count of the sync goes on. -/
def State.syncBegun (s : State) (g : Nat) : State := (s.setF F.LMP_GRID_STATUS_SFC g ((s.grid g).k % 256)).setGrid g { s.grid g with k := (s.grid g).k + 1, inGap := false }

/-- Everything of a sync but the pictures of decode contexts. -/
def State.synced (s : State) (g : Nat) : State := (((((s.syncBegun g).setsHanded g).brightHanded g).lutHanded g)).sendSync g ((s.grid g).k % 256)

theorem subframe_eq {s : State} {g : Nat} (h : s.f F.LMP_GRID_STATUS_EN g = 1) : s.subframe g = (s.synced g).displayAll (s.grid g).wall ((s.wall (s.grid g).wall).sync (s.grid g).k) := by
  unfold State.subframe
  dsimp only
  rw [if_neg (by rw [fb_true h]; decide)]
  rfl

/-- All registers that a sync may change. -/
def syncFields : List Fld := setFields ++ pictureFields ++ portFields ++ displayFields

/-- What a sync does to the ports and channels, to brightness and LUT bank, and what it leaves. -/
structure Syncs (g : Nat) (s t : State) : Prop where
  off : Off syncFields s t
  sfc : t.f F.LMP_GRID_STATUS_SFC g = (s.grid g).k % 256
  grid : t.grid g = { s.grid g with k := (s.grid g).k + 1, inGap := false }
  kept : ∀ n, n ∉ s.handedPorts g → (t.port n).set = (s.port n).set
  port : ∀ n ∈ s.handedPorts g, (t.port n).set = (s.portTaken n).set ∧ t.f F.LMP_PORT_CTRL_SHADOW_ARMED n = 0
  sent : ∀ n ∈ s.gridPorts g, n ∉ s.handedPorts g → (t.port n).lastSync = some ((s.grid g).k % 256) ∧ (t.port n).inGap = false ∧ (t.port n).kind = s.safeKind n ∧ ((s.port n).kind = s.safeKind n → (t.port n).blankDue = ((s.port n).blankDue || ((s.port n).safe && !(s.port n).hold)))
  chan : ∀ n ∈ s.handedChans g, (t.chan n).fixed = (s.chanTaken n).fixed ∧ ((s.chanTaken n).current = none → (t.chan n).current = none) ∧ t.f F.RIV_CH_SPLIT_ACT_FIRST n = s.f F.RIV_CH_SPLIT_FIRST n % 256 ∧ t.f F.RIV_CH_SPLIT_ACT_LAST n = s.f F.RIV_CH_SPLIT_LAST n % 256 ∧ t.f F.RIV_CH_CTRL_SHADOW_ARMED n = 0
  bright : Tab.get 65536 t.lamp.bright g = (if s.f F.DRS_BRIGHT_SHADOW_ARMED g = 1 then min 65536 (s.f F.DRS_BRIGHT_BRIGHT g) else Tab.get 65536 s.lamp.bright g)
  shown : t.f F.DRS_BRIGHT_SHADOW_ARMED g ≠ 1
  lut : g = 0 → s.f F.DRS_CTRL_LUT_ARMED 0 = 1 → t.f F.DRS_CTRL_LUT_BANK 0 = 1 - s.f F.DRS_CTRL_LUT_BANK 0 ∧ t.f F.DRS_CTRL_LUT_ARMED 0 = 0
  stores : t.dram = s.dram ∧ t.haul = s.haul ∧ t.mem = s.mem

theorem boundaryGrid_congr {s t : State} {n : Nat} (hoff : Off [F.LMP_GRID_STATUS_SFC] s t) (hports : t.lamp.ports = s.lamp.ports) : t.boundaryGrid n = s.boundaryGrid n := by
  rw [State.boundaryGrid, State.boundaryGrid, State.port, State.port, hports, hoff.at_ F.LMP_PORT_CTRL_GRID n rfl]

theorem handedPorts_congr {s t : State} (hoff : Off [F.LMP_GRID_STATUS_SFC] s t) (hports : t.lamp.ports = s.lamp.ports) (g : Nat) : t.handedPorts g = s.handedPorts g :=
  List.filter_congr fun n _ => by rw [State.fb, State.fb, hoff.at_ F.LMP_PORT_CTRL_SHADOW_ARMED n rfl, boundaryGrid_congr hoff hports]

theorem handedChans_congr {s t : State} (hoff : Off [F.LMP_GRID_STATUS_SFC] s t) (hports : t.lamp.ports = s.lamp.ports) (g : Nat) : t.handedChans g = s.handedChans g :=
  List.filter_congr fun n _ => by rw [State.fb, State.fb, hoff.at_ F.RIV_CH_CTRL_SHADOW_ARMED n rfl, State.chanGrid, State.chanGrid, boundaryGrid_congr hoff hports, hoff.at_ F.RIV_CH_CTRL_SOURCE n rfl, boundaryGrid_congr hoff hports]

/-- The count of a sync changes the number of its grid alone. -/
theorem syncBegun_parts (s : State) (g : Nat) : Off [F.LMP_GRID_STATUS_SFC] s (s.syncBegun g) ∧ (s.syncBegun g).lamp.ports = s.lamp.ports ∧ (s.syncBegun g).lamp.chans = s.lamp.chans ∧ (s.syncBegun g).lamp.bright = s.lamp.bright ∧
    (s.syncBegun g).grid g = { s.grid g with k := (s.grid g).k + 1, inGap := false } ∧ (s.syncBegun g).f F.LMP_GRID_STATUS_SFC g = (s.grid g).k % 256 ∧ (s.syncBegun g).dram = s.dram ∧ (s.syncBegun g).haul = s.haul ∧ (s.syncBegun g).mem = s.mem := by
  have hoff : Off [F.LMP_GRID_STATUS_SFC] s (s.setF F.LMP_GRID_STATUS_SFC g ((s.grid g).k % 256)) := (Off.refl _ s).setF _ _ _ rfl
  have hsfc : (s.setF F.LMP_GRID_STATUS_SFC g ((s.grid g).k % 256)).f F.LMP_GRID_STATUS_SFC g = (s.grid g).k % 256 := (State.f_setF_same _ _ _ _).trans (Nat.mod_mod _ _)
  exact ⟨hoff, rfl, rfl, rfl, Tab.get_set_same _ _ _ _, hsfc, rfl, rfl, rfl⟩

theorem synced_syncs (s : State) (g : Nat) : Syncs g s (s.synced g) := by
  obtain ⟨hboff, hbports, hbchans, hbbright, hbgrid, hbsfc, hbdram, hbhaul, hbmem⟩ := syncBegun_parts s g
  unfold State.synced
  generalize s.syncBegun g = b at hboff hbports hbchans hbbright hbgrid hbsfc hbdram hbhaul hbmem ⊢
  have hsets := setsHanded_sets b g
  have hp : ∀ n, b.port n = s.port n := fun n => by rw [State.port, State.port, hbports]
  generalize b.setsHanded g = u at hsets ⊢
  obtain ⟨hloff, hlbeside, hlbright, hlshown⟩ := brightHanded_parts u g
  generalize u.brightHanded g = v at hloff hlbeside hlbright hlshown ⊢
  have hlut := lutHanded_writes v g
  have hturns : g = 0 → v.f F.DRS_CTRL_LUT_ARMED 0 = 1 → (v.lutHanded g).f F.DRS_CTRL_LUT_BANK 0 = 1 - v.f F.DRS_CTRL_LUT_BANK 0 ∧ (v.lutHanded g).f F.DRS_CTRL_LUT_ARMED 0 = 0 := fun hg h => by
    subst hg
    exact lutHanded_turns h
  generalize v.lutHanded g = w at hlut hturns ⊢
  have hsend := sendSync_gridSync w g ((s.grid g).k % 256)
  have hsent := fun n (h : n ∈ w.gridPorts g) => sendSync_port w g ((s.grid g).k % 256) h
  generalize w.sendSync g ((s.grid g).k % 256) = t at hsend hsent ⊢
  have hlamp : w.lamp = v.lamp := hlut.only.lamp
  have hports : v.lamp.ports = u.lamp.ports := (congrArg (fun x : State => x.lamp.ports) hlbeside :)
  have hchans : v.lamp.chans = u.lamp.chans := (congrArg (fun x : State => x.lamp.chans) hlbeside :)
  have hgrids : v.lamp.grids = u.lamp.grids := (congrArg (fun x : State => x.lamp.grids) hlbeside :)
  have hwport : ∀ n, w.port n = u.port n := fun n => by rw [State.port, State.port, hlamp, hports]
  have hwchan : ∀ n, w.chan n = u.chan n := fun n => by rw [State.chan, State.chan, hlamp, hchans]
  have hafter : Off (pictureFields ++ portFields) u t := ((hloff.mono rfl).trans (hlut.off.mono rfl)).trans (hsend.off.mono rfl)
  have hset : ∀ n, (t.port n).set = (u.port n).set := fun n => (hsend.set n).trans (by rw [hwport])
  have hoff : Off setFields s u := (hboff.mono rfl).trans (hsets.off.mono rfl)
  have hbtaken : ∀ n, b.portTaken n = s.portTaken n := fun n => portTaken_congr (hp n) (hboff.mono rfl)
  have hctaken : ∀ n, b.chanTaken n = s.chanTaken n := fun n => chanTaken_congr (by rw [State.chan, State.chan, hbchans]) (hboff.mono rfl)
  obtain ⟨htgrids', htbright, htstores⟩ := parts_of_sansPorts hsend.rest
  obtain ⟨hugrids, hubright, hustores⟩ := parts_of_sansPorts hsets.rest
  have htgrids : t.lamp.grids = b.lamp.grids := by rw [htgrids', hlamp, hgrids, hugrids]
  have hstores : t.dram = b.dram ∧ t.haul = b.haul ∧ t.mem = b.mem := by
    have hlutstores : w.dram = v.dram ∧ w.haul = v.haul ∧ w.mem = v.mem := by rw [show w = { v with regs := w.regs } from hlut.only]; exact ⟨rfl, rfl, rfl⟩
    have hvstores : v.dram = u.dram ∧ v.haul = u.haul ∧ v.mem = u.mem := ⟨(congrArg (fun x : State => x.dram) hlbeside :), (congrArg (fun x : State => x.haul) hlbeside :), (congrArg (fun x : State => x.mem) hlbeside :)⟩
    obtain ⟨hd, hh, hm⟩ := htstores
    obtain ⟨hd', hh', hm'⟩ := hlutstores
    obtain ⟨hd'', hh'', hm''⟩ := hvstores
    rw [hd, hh, hm, hd', hh', hm', hd'', hh'', hm'']
    exact hustores
  have hchanned := handedChans_congr hboff hbports g
  have hhanded := handedPorts_congr hboff hbports g
  refine ⟨(hoff.mono rfl).trans (hafter.mono rfl), ?_, ?_, fun n hn => ?_, fun n hn => ?_, fun n hn hh => ?_, fun n hn => ?_, ?_, ?_, fun hg ha => ?_, ?_⟩
  · exact (hafter.at_ _ _ rfl).trans ((hsets.off.at_ F.LMP_GRID_STATUS_SFC g rfl).trans hbsfc)
  · rw [State.grid, htgrids]
    exact hbgrid
  · exact (hset n).trans (by rw [hsets.kept n (by rwa [hhanded]), hp])
  · obtain ⟨htaken, harmed⟩ := hsets.port n (by rwa [hhanded])
    exact ⟨(hset n).trans (by rw [htaken, hbtaken]), (hafter.at_ _ _ rfl).trans harmed⟩
  · have hkept : w.port n = s.port n := (hwport n).trans ((hsets.kept n (by rwa [hhanded])).trans (hp n))
    have hkind : w.safeKind n = s.safeKind n := safeKind_off ((hoff.mono rfl).trans ((hloff.mono rfl).trans (hlut.off.mono rfl)) : Off (setFields ++ pictureFields) s w) n rfl rfl
    obtain ⟨hlisted, hen, hgrid⟩ := mem_gridPorts.mp hn
    have hfacts := hsent n (mem_gridPorts.mpr ⟨hlisted, by rw [hkept, hen], by rw [hkept, hgrid]⟩)
    rw [hkept, hkind] at hfacts
    exact hfacts
  · obtain ⟨htaken, hfirst, hlast, harmed⟩ := hsets.chan n (by rwa [hchanned])
    have hown : w.chan n = s.chanTaken n := (hwchan n).trans (htaken.trans (hctaken n))
    refine ⟨(hsend.chan n).trans (by rw [hown]), fun h => hsend.idle n (by rw [hown, h]), ?_, ?_, ?_⟩
    · exact (hafter.at_ _ _ rfl).trans (hfirst.trans (by rw [hboff.at_ F.RIV_CH_SPLIT_FIRST n rfl]))
    · exact (hafter.at_ _ _ rfl).trans (hlast.trans (by rw [hboff.at_ F.RIV_CH_SPLIT_LAST n rfl]))
    · exact (hafter.at_ _ _ rfl).trans harmed
  · rw [htbright, hlamp, hlbright, hoff.at_ F.DRS_BRIGHT_SHADOW_ARMED g rfl, hoff.at_ F.DRS_BRIGHT_BRIGHT g rfl, hubright, hbbright]
  · rw [hsend.off.at_ F.DRS_BRIGHT_SHADOW_ARMED g rfl, hlut.off.at_ F.DRS_BRIGHT_SHADOW_ARMED g rfl]
    exact hlshown
  · have hv : ∀ (x : Fld) (hs : setFields.all (fun y => x.code != y.code) = true) (hb : [F.DRS_BRIGHT_SHADOW_ARMED].all (fun y => x.code != y.code) = true), v.f x 0 = s.f x 0 := fun x hs hb => (hloff.at_ x 0 hb).trans (hoff.at_ x 0 hs)
    obtain ⟨hbank, harmed⟩ := hturns hg ((hv F.DRS_CTRL_LUT_ARMED rfl rfl).trans ha)
    rw [hv F.DRS_CTRL_LUT_BANK rfl rfl] at hbank
    exact ⟨(hsend.off.at_ _ _ rfl).trans hbank, (hsend.off.at_ _ _ rfl).trans harmed⟩
  · exact ⟨hstores.1.trans hbdram, hstores.2.1.trans hbhaul, hstores.2.2.trans hbmem⟩

end Sys2Proof.Machine

/-! SyncEvents: SYNC_GAP_START and GRID_ENABLE, and the statement assembled (R200, R202, R306, R329, R395, R397). -/

namespace Sys2Proof.Machine

-- ## SUBFRAME_SYNC

/-- A sync with the pictures of its wall's decode contexts. -/
theorem subframe_syncs {s : State} {g : Nat} (h : s.f F.LMP_GRID_STATUS_EN g = 1) : Syncs g s (s.subframe g) := by
  rw [subframe_eq h]
  have hsync := synced_syncs s g
  generalize s.synced g = t at hsync ⊢
  have hshown := displayAll_step t (s.grid g).wall ((s.wall (s.grid g).wall).sync (s.grid g).k)
  generalize t.displayAll _ _ = u at hshown ⊢
  obtain ⟨hoff, hsfc, hgrid, hkept, hport, hsent, hchan, hbright, hcleared, hlut, hdram, hhaul, hmem⟩ := hsync
  have hp : ∀ n, u.port n = t.port n := fun n => by rw [State.port, State.port, hshown.lamp]
  have hc : ∀ n, u.chan n = t.chan n := fun n => by rw [State.chan, State.chan, hshown.lamp]
  have hf : ∀ (x : Fld) (i : Nat), displayFields.all (fun y => x.code != y.code) = true → u.f x i = t.f x i := fun x i hx => hshown.off.at_ x i hx
  refine ⟨hoff.trans (hshown.off.mono rfl), (hf _ _ rfl).trans hsfc, ?_, fun n hn => ?_, fun n hn => ?_, fun n hn hh => ?_, fun n hn => ?_, ?_, ?_, fun hg ha => ?_, ?_⟩
  · rw [State.grid, hshown.lamp]
    exact hgrid
  · rw [hp]
    exact hkept n hn
  · rw [hp, hf _ _ rfl]
    exact hport n hn
  · rw [hp]
    exact hsent n hn hh
  · rw [hc, hf F.RIV_CH_SPLIT_ACT_FIRST _ rfl, hf F.RIV_CH_SPLIT_ACT_LAST _ rfl, hf F.RIV_CH_CTRL_SHADOW_ARMED _ rfl]
    exact hchan n hn
  · rw [hshown.lamp]
    exact hbright
  · rw [hf _ _ rfl]
    exact hcleared
  · rw [hf F.DRS_CTRL_LUT_BANK _ rfl, hf F.DRS_CTRL_LUT_ARMED _ rfl]
    exact hlut hg ha
  · exact ⟨((congrArg (fun x : State => x.dram) hshown.rest :)).trans hdram, ((congrArg (fun x : State => x.haul) hshown.rest :)).trans hhaul, ((congrArg (fun x : State => x.mem) hshown.rest :)).trans hmem⟩

theorem chanTaken_parts (s : State) (n : Nat) : (s.chanTaken n).en = s.fb F.RIV_CH_CTRL_EN n ∧ (s.chanTaken n).retryLimit = s.f F.RIV_CH_CTRL_RETRY_LIMIT n ∧ (s.chanTaken n).source = s.f F.RIV_CH_CTRL_SOURCE n ∧
    (s.f F.RIV_CH_CTRL_EN n ≠ 1 → (s.chanTaken n).bands = [] ∧ (s.chanTaken n).current = none) := by
  unfold State.chanTaken
  dsimp only
  split
  · next h => exact ⟨rfl, rfl, rfl, fun hn => absurd h (fb_ne hn)⟩
  · exact ⟨rfl, rfl, rfl, fun _ => ⟨rfl, rfl⟩⟩

theorem exec_subframeSync {g : Nat} (hg : g < 4) (s : State) : exec (.subframeSync g) s = .next (s.subframe g) := onInstance_of (by simpa [gridOn] using hg) _

-- ## SYNC_GAP_START

/-- Port `n` sends idles only, and its strips may be late. -/
def State.portGap (u : State) (n at_ : Nat) : State := (u.setPort n { u.port n with inGap := true }).markLate n at_

/-- The start of a gap at one port. -/
structure GapPort (n : Nat) (s t : State) : Prop where
  off : Off [F.LMP_PORT_COUNTS_LATE_STRIPS] s t
  rest : { t with regs := [], lamp := {} } = { s with regs := [], lamp := {} }
  other : ∀ m, m ≠ n → t.port m = s.port m ∧ t.chan m = s.chan m ∧ t.f F.LMP_PORT_COUNTS_LATE_STRIPS m = s.f F.LMP_PORT_COUNTS_LATE_STRIPS m
  own : t.port n = { s.port n with inGap := true }

theorem gapSet_frame (s : State) (n : Nat) : GapPort n s (s.setPort n { s.port n with inGap := true }) :=
  ⟨fun _ _ _ => rfl, rfl, fun _ hm => ⟨port_setPort_ne s _ hm, rfl, rfl⟩, port_setPort s n _⟩

theorem portGap_frame (s : State) (n at_ : Nat) : GapPort n s (s.portGap n at_) := by
  have hset := gapSet_frame s n
  unfold State.portGap State.markLate
  dsimp only
  generalize s.setPort n { s.port n with inGap := true } = t at hset ⊢
  split
  · exact hset
  · obtain ⟨hoff, hrest, hother, hown⟩ := hset
    have hchan : Off [F.LMP_PORT_COUNTS_LATE_STRIPS] t (t.setChan n { t.chan n with strips := (t.chan n).strips.map (fun x => { x with late := true }) }) := fun _ _ _ => rfl
    refine ⟨(hoff.trans hchan).setF _ _ _ rfl, hrest, fun m hm => ?_, hown⟩
    obtain ⟨hp, hc, hf⟩ := hother m hm
    exact ⟨hp, (chan_setChan_ne t _ hm).trans hc, (f_setF_otherInst _ _ _ _ hm).trans hf⟩

/-- The strips of a band that applies at the coming sync are late (R202). -/
theorem portGap_late {s : State} {n at_ : Nat} (hc : (s.chan n).current ≠ none) (ha : (s.chan n).apply = at_) :
    (s.portGap n at_).chan n = { s.chan n with strips := (s.chan n).strips.map (fun x => { x with late := true }) } ∧
      (s.portGap n at_).f F.LMP_PORT_COUNTS_LATE_STRIPS n = min (s.f F.LMP_PORT_COUNTS_LATE_STRIPS n + ((s.chan n).strips.filter (fun x => !x.late)).length) 65535 := by
  have hchan : (s.setPort n { s.port n with inGap := true }).chan n = s.chan n := rfl
  have hf : (s.setPort n { s.port n with inGap := true }).f F.LMP_PORT_COUNTS_LATE_STRIPS n = s.f F.LMP_PORT_COUNTS_LATE_STRIPS n := rfl
  unfold State.portGap State.markLate
  dsimp only
  generalize s.setPort n { s.port n with inGap := true } = t at hchan hf ⊢
  rw [if_neg (by rw [hchan]; simp [hc, ha]), hchan]
  refine ⟨chan_setChan t n _, ?_⟩
  have hbump : ∀ (u : State) (k : Nat), (u.bumpBy F.LMP_PORT_COUNTS_LATE_STRIPS n k).f F.LMP_PORT_COUNTS_LATE_STRIPS n = min (u.f F.LMP_PORT_COUNTS_LATE_STRIPS n + k) 65535 := fun u k =>
    (State.f_setF_same _ _ _ _).trans (Nat.mod_eq_of_lt (Nat.lt_of_le_of_lt (Nat.min_le_right _ _) (by decide)))
  rw [hbump, ← hf]
  rfl

/-- The start of a gap at the ports of its grid. -/
def State.portsGap (s : State) (g : Nat) : State := chainAll (s.gridPorts g) (fun n u => u.portGap n ((s.wall (s.grid g).wall).sync (s.grid g).k)) s

/-- The grid's own part of the start of a gap. -/
def State.gridGap (s : State) (g : Nat) : State :=
  let u := (s.setGrid g { s.grid g with inGap := true }).withLane (fun w => { w with gap := w.gap.filter (fun l => decide (s.laneGrid l ≠ g)) })
  if g = 0 then u.withMem (fun w => { w with gapUsed := false }) else u

/-- What the start of a gap at the ports leaves. -/
structure PortsGap (s t : State) : Prop where
  off : Off [F.LMP_PORT_COUNTS_LATE_STRIPS] s t
  rest : { t with regs := [], lamp := {} } = { s with regs := [], lamp := {} }
  grids : t.lamp.grids = s.lamp.grids
  grid : ∀ m, (t.port m).grid = (s.port m).grid

theorem portGap_grids (s : State) (n at_ : Nat) : (s.portGap n at_).lamp.grids = s.lamp.grids := by
  unfold State.portGap State.markLate
  dsimp only
  split <;> rfl

theorem portsGap_parts (s : State) (g : Nat) : PortsGap s (s.portsGap g) := by
  refine ⟨(Off.refl _ s).chainAll _ _ fun n u => (portGap_frame u n _).off, chainAll_keep (fun u : State => { u with regs := [], lamp := {} }) _ _ (fun n u => (portGap_frame u n _).rest) s,
    chainAll_keep (fun u => u.lamp.grids) _ _ (fun n u => portGap_grids u n _) s, fun m => chainAll_keep (fun u => (u.port m).grid) _ _ (fun n u => ?_) s⟩
  have hstep := portGap_frame u n ((s.wall (s.grid g).wall).sync (s.grid g).k)
  by_cases h : m = n
  · rw [h, hstep.own]
  · rw [(hstep.other m h).1]

theorem portsGap_port {s : State} {g n : Nat} (h : n ∈ s.gridPorts g) : (s.portsGap g).port n = { s.port n with inGap := true } := by
  obtain ⟨u, hu, hlast⟩ := chainAll_focus (fun t => t.port n) h (gridPorts_nodup s g) (g := fun n u => u.portGap n ((s.wall (s.grid g).wall).sync (s.grid g).k)) (fun m t hm => ((portGap_frame t m _).other n hm.symm).1) s
  rw [State.portsGap, hlast, (portGap_frame u n _).own, hu]

theorem portsGap_late {s : State} {g n : Nat} (h : n ∈ s.gridPorts g) (hc : (s.chan n).current ≠ none) (ha : (s.chan n).apply = (s.wall (s.grid g).wall).sync (s.grid g).k) :
    (s.portsGap g).chan n = { s.chan n with strips := (s.chan n).strips.map (fun x => { x with late := true }) } ∧
      (s.portsGap g).f F.LMP_PORT_COUNTS_LATE_STRIPS n = min (s.f F.LMP_PORT_COUNTS_LATE_STRIPS n + ((s.chan n).strips.filter (fun x => !x.late)).length) 65535 := by
  have hother : ∀ m (t : State), m ≠ n → ((t.portGap m ((s.wall (s.grid g).wall).sync (s.grid g).k)).chan n, (t.portGap m ((s.wall (s.grid g).wall).sync (s.grid g).k)).f F.LMP_PORT_COUNTS_LATE_STRIPS n) = (t.chan n, t.f F.LMP_PORT_COUNTS_LATE_STRIPS n) := fun m t hm => by
    obtain ⟨-, hchan, hf⟩ := (portGap_frame t m _).other n hm.symm
    rw [hchan, hf]
  obtain ⟨u, hu, hlast⟩ := chainAll_focus (fun t => (t.chan n, t.f F.LMP_PORT_COUNTS_LATE_STRIPS n)) h (gridPorts_nodup s g) (g := fun n u => u.portGap n ((s.wall (s.grid g).wall).sync (s.grid g).k)) hother s
  obtain ⟨huc, huf⟩ := Prod.mk.inj hu
  obtain ⟨hlc, hlf⟩ := Prod.mk.inj hlast
  obtain ⟨hown, hcount⟩ := portGap_late (s := u) (n := n) (at_ := (s.wall (s.grid g).wall).sync (s.grid g).k) (by rw [huc]; exact hc) (by rw [huc]; exact ha)
  rw [huc] at hown hcount
  rw [huf] at hcount
  exact ⟨hlc.trans hown, hlf.trans hcount⟩

theorem gapStart_eq {s : State} {g : Nat} (h : s.f F.LMP_GRID_STATUS_EN g = 1) : s.gapStart g = (s.portsGap g).gridGap g := by
  have hgrid : (s.portsGap g).grid g = s.grid g := by rw [State.grid, (portsGap_parts s g).grids, ← State.grid]
  unfold State.gapStart State.gridGap
  dsimp only
  rw [if_neg (by rw [fb_true h]; decide), hgrid]
  rfl

/-- The registers of a lane whose restored values apply. -/
def tuneFields : List Fld := [F.LANE_STATUS_PEAK_NOW, F.LANE_STATUS_CDR_OFS]

/-- Restored values of lanes and channels that apply in a gap. -/
structure Retunes (s t : State) : Prop where
  off : Off tuneFields s t
  rest : { t with regs := [] }.sansTuning = { s with regs := [] }.sansTuning
  gap : t.lane.gap = s.lane.gap
  used : t.mem.gapUsed = s.mem.gapUsed

theorem retunes_refl (s : State) : Retunes s s := ⟨Off.refl _ s, rfl, rfl, rfl⟩

theorem Retunes.trans {s t u : State} (h : Retunes s t) (k : Retunes t u) : Retunes s u := ⟨h.off.trans k.off, k.rest.trans h.rest, k.gap.trans h.gap, k.used.trans h.used⟩

theorem retunes_chainAll (l : List Nat) (g : Nat → State → State) (hg : ∀ n t, Retunes t (g n t)) (s : State) : Retunes s (chainAll l g s) :=
  ⟨(Off.refl _ s).chainAll l g fun n t => (hg n t).off, chainAll_keep (fun t : State => { t with regs := [] }.sansTuning) l g (fun n t => (hg n t).rest) s,
    chainAll_keep (fun t => t.lane.gap) l g (fun n t => (hg n t).gap) s, chainAll_keep (fun t => t.mem.gapUsed) l g (fun n t => (hg n t).used) s⟩

theorem applyRestored_retunes (s : State) (n : Nat) : Retunes s (s.applyRestored n) := by
  unfold State.applyRestored
  split
  · have hpeak : ∀ v w : Nat, Writes tuneFields s ((s.setF F.LANE_STATUS_PEAK_NOW n v).setF F.LANE_STATUS_CDR_OFS n w) := fun v w => ((Writes.refl _ s).setF F.LANE_STATUS_PEAK_NOW n v rfl).setF F.LANE_STATUS_CDR_OFS n w rfl
    exact ⟨(hpeak _ _).off, rfl, rfl, rfl⟩
  · exact retunes_refl s

theorem takeRestored_retunes (s : State) (c : Nat) : Retunes s (s.takeRestored c) := by
  unfold State.takeRestored
  dsimp only
  split
  · exact retunes_refl s
  · exact ⟨fun _ _ _ => rfl, rfl, rfl, rfl⟩

theorem gapRestore_retunes (s : State) (g : Nat) : Retunes (s.gapStart g) (s.gapRestore g) := by
  unfold State.gapRestore
  split
  · exact retunes_refl _
  · refine retunes_chainAll _ _ (fun n t => ?_) _
    split
    · exact applyRestored_retunes t n
    · exact retunes_refl t

theorem syncGapStart_retunes (s : State) (g : Nat) : Retunes (s.gapStart g) (s.syncGapStart g) := by
  have hlanes := gapRestore_retunes s g
  unfold State.syncGapStart
  dsimp only
  split
  · exact hlanes.trans (retunes_chainAll _ _ (fun c t => takeRestored_retunes t c) _)
  · exact hlanes

theorem laneGrid_congr {s t : State} (h : PortsGap s t) (l : Nat) : t.laneGrid l = s.laneGrid l := by
  rw [State.laneGrid, State.laneGrid, h.off.at_ F.LANE_CFG_FUNC l rfl, h.off.at_ F.LANE_CFG_PORT l rfl, h.grid]

/-- What a gap changes of the grid, the lanes and the memory. -/
theorem gridGap_parts (s : State) (g : Nat) :
    (s.gridGap g).regs = s.regs ∧ (s.gridGap g).lamp.ports = s.lamp.ports ∧ (s.gridGap g).lamp.chans = s.lamp.chans ∧ ((s.gridGap g).grid g).inGap = true ∧
      (s.gridGap g).lane.gap = s.lane.gap.filter (fun l => decide (s.laneGrid l ≠ g)) ∧ (g = 0 → (s.gridGap g).mem.gapUsed = false) ∧ (s.gridGap g).codec = s.codec ∧ (s.gridGap g).dram = s.dram := by
  have hgrid : (s.setGrid g { s.grid g with inGap := true }).grid g = { s.grid g with inGap := true } := Tab.get_set_same _ _ _ _
  have hopen : ((s.setGrid g { s.grid g with inGap := true }).grid g).inGap = true := by rw [hgrid]
  have hlanes : ∀ l, (s.setGrid g { s.grid g with inGap := true }).laneGrid l = s.laneGrid l := fun _ => rfl
  unfold State.gridGap
  dsimp only
  split
  · exact ⟨rfl, rfl, rfl, hopen, rfl, fun _ => rfl, rfl, rfl⟩
  · next h => exact ⟨rfl, rfl, rfl, hopen, rfl, fun h' => absurd h' h, rfl, rfl⟩

/-- What SYNC_GAP_START changes. -/
theorem syncGapStart_parts {s : State} {g : Nat} (h : s.f F.LMP_GRID_STATUS_EN g = 1) :
    Off (F.LMP_PORT_COUNTS_LATE_STRIPS :: tuneFields) s (s.syncGapStart g) ∧ (∀ n, (s.syncGapStart g).port n = (s.portsGap g).port n) ∧ (∀ n, (s.syncGapStart g).chan n = (s.portsGap g).chan n) ∧
      (∀ n, (s.syncGapStart g).f F.LMP_PORT_COUNTS_LATE_STRIPS n = (s.portsGap g).f F.LMP_PORT_COUNTS_LATE_STRIPS n) ∧ ((s.syncGapStart g).grid g).inGap = true ∧
      (s.syncGapStart g).lane.gap = s.lane.gap.filter (fun l => decide (s.laneGrid l ≠ g)) ∧ (g = 0 → (s.syncGapStart g).mem.gapUsed = false) ∧ (s.syncGapStart g).codec = s.codec ∧ (s.syncGapStart g).dram = s.dram := by
  have htune := syncGapStart_retunes s g
  rw [gapStart_eq h] at htune
  have hports := portsGap_parts s g
  generalize s.portsGap g = t at htune hports ⊢
  obtain ⟨hregs, hpl, hcl, hgap, hlanes, hused, hcodec, hdram⟩ := gridGap_parts t g
  generalize t.gridGap g = u at htune hregs hpl hcl hgap hlanes hused hcodec hdram ⊢
  generalize s.syncGapStart g = v at htune ⊢
  have hlamp : v.lamp = u.lamp := (congrArg (fun x : State => x.lamp) htune.rest :)
  have hbeside : t.codec = s.codec ∧ t.dram = s.dram ∧ t.lane = s.lane := ⟨(congrArg (fun x : State => x.codec) hports.rest :), (congrArg (fun x : State => x.dram) hports.rest :), (congrArg (fun x : State => x.lane) hports.rest :)⟩
  obtain ⟨htcodec, htdram, htlane⟩ := hbeside
  have hmid : Off (F.LMP_PORT_COUNTS_LATE_STRIPS :: tuneFields) t u := Off.same hregs
  refine ⟨((hports.off.mono rfl).trans hmid).trans (htune.off.mono rfl), fun n => by rw [State.port, State.port, hlamp, hpl], fun n => by rw [State.chan, State.chan, hlamp, hcl], fun n => ?_, ?_, ?_, fun hg => htune.used.trans (hused hg), ?_, ?_⟩
  · rw [htune.off.at_ F.LMP_PORT_COUNTS_LATE_STRIPS n rfl, State.f, State.f, hregs]
  · rw [State.grid, hlamp]
    exact hgap
  · rw [htune.gap, hlanes, htlane]
    exact List.filter_congr fun l _ => by rw [laneGrid_congr hports]
  · exact (congrArg (fun x : State => x.codec) htune.rest :).trans (hcodec.trans htcodec)
  · exact (congrArg (fun x : State => x.dram) htune.rest :).trans (hdram.trans htdram)

theorem exec_syncGapStart {g : Nat} (hg : g < 4) (s : State) : exec (.syncGapStart g) s = .next (s.syncGapStart g) := onInstance_of (by simpa [gridOn] using hg) _

-- ## GRID_ENABLE

theorem gridEnable_starts {s : State} {g : Nat} (hu : (s.grid g).used = true) (he : s.f F.LMP_GRID_STATUS_EN g ≠ 1) (hp : s.fw.ptp = [] ∨ s.fw.ptpMaster = true ∨ s.f F.CLK_EVENT_PTP_LOCKED 0 = 1) (ht : (s.grid g).t0 ≤ s.now) (hst : s.stage = 4) :
    Sets (s.setGrid g { s.grid g with k := (s.wall (s.grid g).wall).syncNo s.now }) [(F.LMP_GRID_STATUS_EN, g, 1)] (s.gridEnable g) := by
  have hstart : s.gridEnable g = (s.setGrid g { s.grid g with k := (s.wall (s.grid g).wall).syncNo s.now }).setF F.LMP_GRID_STATUS_EN g 1 := by
    unfold State.gridEnable
    dsimp only
    rw [if_pos ⟨hu, Bool.eq_false_iff.mpr (fb_ne he), by simpa [State.fb] using hp, ht, hst⟩]
    rfl
  rw [hstart]
  exact (Sets.refl _).snocNew F.LMP_GRID_STATUS_EN g 1 rfl

theorem gridEnable_waits {s : State} {g : Nat} (hp : s.fw.ptp ≠ []) (hm : s.fw.ptpMaster = false) (hl : s.f F.CLK_EVENT_PTP_LOCKED 0 ≠ 1) : s.gridEnable g = s := by
  unfold State.gridEnable
  dsimp only
  refine if_neg fun ⟨_, _, hptp, _⟩ => ?_
  rcases hptp with h | h | h
  · exact hp h
  · rw [hm] at h
    exact absurd h (by decide)
  · exact fb_ne hl h

theorem exec_gridEnable {g : Nat} (hg : g < 4) (s : State) : exec (.gridEnable g) s = .next (s.gridEnable g) := onInstance_of (by simpa [gridOn] using hg) _

/-- Settles O46: sync, hand-over, gap and grid enable, each by what its steps write. -/
theorem syncEvents : Obligations.SyncEvents := by
  refine ⟨fun s g hg he => ?_, fun s g k hg he hk => ?_, fun s g n hg he hn ha hb => ?_, fun s g n hg he hn ha hb => ?_, fun s g hg he => ?_, fun s g n k hg he hn hc ha hk => ?_, fun s g hg hu he hp ht hst => ?_, fun s g hg hp hm hl => ?_⟩
  · rw [exec_subframeSync hg]
    exact congrArg Host.Outcome.next (if_pos (by rw [Bool.eq_false_iff.mpr (fb_ne he)]; rfl))
  · subst hk
    obtain ⟨-, hsfc, hgrid, -, -, hsent, -, hbright, hshown, hlut, hdram, hhaul, hmem⟩ := subframe_syncs he
    refine ⟨_, exec_subframeSync hg s, hsfc, hgrid, fun n hn hen hgn hna => hsent n (mem_gridPorts.mpr ⟨hn, hen, hgn⟩) fun h => hna (mem_handedPorts.mp h).2.1, hbright, hshown, hlut, hdram, hhaul, hmem⟩
  · obtain ⟨hset, harmed⟩ := (subframe_syncs he).port n (mem_handedPorts.mpr ⟨List.mem_range.mpr hn, ha, hb⟩)
    simp only [LampPort.set, Prod.mk.injEq] at hset
    obtain ⟨hen, hpartner, hgrid, hend, howed⟩ := hset
    refine ⟨_, exec_subframeSync hg s, hen, hpartner, hgrid, hend, harmed, fun hon hoff => howed.trans ?_⟩
    rw [State.portTaken, fb_true hon, hoff]
    rfl
  · obtain ⟨hset, hidle, hfirst, hlast, harmed⟩ := (subframe_syncs he).chan n (mem_handedChans.mpr ⟨hn, ha, hb⟩)
    have hparts := chanTaken_parts s n
    obtain ⟨hen, hretry, hsource, hoff⟩ := hparts
    refine ⟨_, exec_subframeSync hg s, (congrArg RivChan.en hset :).trans hen, (congrArg RivChan.retryLimit hset :).trans hretry, (congrArg RivChan.source hset :).trans hsource, hfirst, hlast, harmed, fun hne => ?_⟩
    obtain ⟨hbands, hcurrent⟩ := hoff hne
    exact ⟨(congrArg RivChan.bands hset :).trans hbands, hidle hcurrent⟩
  · obtain ⟨hoff, hport, -, -, hgap, hlanes, hused, hcodec, hdram⟩ := syncGapStart_parts he
    exact ⟨_, exec_syncGapStart hg s, hgap, hlanes, hcodec, hdram, hused, fun n hn => by rw [hport, portsGap_port hn]; exact ⟨rfl, rfl⟩, hoff⟩
  · subst hk
    obtain ⟨-, -, hchan, hlate, -⟩ := syncGapStart_parts he
    obtain ⟨hown, hcount⟩ := portsGap_late hn hc ha
    refine ⟨_, exec_syncGapStart hg s, (hlate n).trans hcount, ?_, fun x hx => ?_⟩
    · rw [hchan, hown]
      exact List.length_map _
    · rw [hchan, hown] at hx
      obtain ⟨y, -, rfl⟩ := List.mem_map.mp hx
      rfl
  · exact ⟨_, exec_gridEnable hg s, gridEnable_starts hu he hp ht hst⟩
  · rw [exec_gridEnable hg, gridEnable_waits hp hm hl]

end Sys2Proof.Machine

/-! LampPortEvents: frames that start and frames that end (R200, R212, R218, R219, R225). -/

namespace Sys2Proof.Machine

-- ## A frame starts

theorem exec_lampFrameSend {n : Nat} (hn : n < 48) (s : State) (own : Option PortFrame) : exec (.lampFrameSend n own) s = .next (s.lampFrame n own) := onInstance_of (decide_eq_true hn) _

/-- The next frame starts where it ends before the gap. -/
theorem lampFrame_starts {s : State} {n : Nat} {own : Option PortFrame} {f : List Byte} (hp : (s.port n).frame = none) (hl : s.portLegal fnLamp n = true) (hn : s.nextFrame n own = some f) (hfit : s.frameFits n (f.length - 8) = true) :
    Sets (s.setPort n { s.port n with frame := some (f ++ beBytes 4 (crc32 f)) }) [] (s.lampFrame n own) := by
  have hstart : s.lampFrame n own = s.setPort n { s.port n with frame := some (f ++ beBytes 4 (crc32 f)) } := by
    unfold State.lampFrame
    rw [hp, hl, hn]
    dsimp only
    rw [if_pos hfit]
    rfl
  rw [hstart]
  exact Sets.refl _

theorem leBytes_one (v : Nat) : leBytes 1 v = [BitVec.ofNat 8 v] := by
  simp [leBytes]

theorem nextFrame_blank {s : State} {n : Nat} (own : Option PortFrame) (he : (s.port n).en = true) (hb : (s.port n).blankNext = true) : s.nextFrame n own = some (blankHeader (s.sfcAt n (s.now + 1))) := by
  unfold State.nextFrame
  dsimp only
  rw [he, hb]
  rfl

theorem nextFrame_open {s : State} {n : Nat} (own : Option PortFrame) (he : (s.port n).en = true) (hb : (s.port n).blankNext = false) (hs : (s.port n).safe = false) :
    s.nextFrame n own = (match own with
      | some f => some (frameBytes f)
      | none => s.stripFrame n) := by
  unfold State.nextFrame
  dsimp only
  rw [he, hb, hs]
  rfl

theorem stripFrame_ready {s : State} {n : Nat} {x : Strip} {r : List Strip} (hs : (s.chan n).strips = x :: r) (hx : x.ready = true) :
    s.stripFrame n = some (planesHeader x (min 8192 (x.data.length - x.done)) (s.sfcAt n (s.chan n).apply) ++ sliceOf x.data x.done (min 8192 (x.data.length - x.done))) := by
  rw [State.stripFrame, hs]
  exact if_pos hx

theorem planesHeader_eq (x : Strip) (len apply : Nat) :
    planesHeader x len apply = [BitVec.ofNat 8 ((if x.done + len = x.data.length then 16 else 0) + x.obM10), BitVec.ofNat 8 x.position, BitVec.ofNat 8 apply, BitVec.ofNat 8 x.row] ++ beBytes 2 (x.done / 64) ++ beBytes 2 (x.lamps - 1) := by
  simp only [planesHeader, leBytes_one]
  rfl

theorem planesHeader_length (x : Strip) (len apply : Nat) : (planesHeader x len apply).length = 8 := by
  simp [planesHeader_eq, beBytes]

/-- In the gap of a port of a wall no frame fits. -/
theorem lampFrame_gap {s : State} {n : Nat} (own : Option PortFrame) (hp : (s.port n).frame = none) (hg : (s.port n).inGap = true) (hw : s.portWall n ≠ none) : s.lampFrame n own = s := by
  have hfits : ∀ len, s.frameFits n len = false := fun len => by
    unfold State.frameFits
    split
    · rw [hg]
      rfl
    · next h => exact absurd h hw
  unfold State.lampFrame
  rw [hp]
  dsimp only
  split
  · rfl
  · split
    · rw [hfits]
      rfl
    · rfl

-- ## A frame ends

/-- A step on the lamp ports' frames that keeps the ports, and of the channels the strips of `n`. -/
structure StripStep (n : Nat) (s t : State) : Prop where
  off : Off ([F.RIV_CH_STRIPS_DROPPED] ++ settleFields ++ displayFields) s t
  port : ∀ m, t.port m = s.port m
  strips : (t.chan n).strips = (s.chan n).strips

namespace StripStep
variable {n : Nat} {s t u : State}

theorem refl (n : Nat) (s : State) : StripStep n s s := ⟨Off.refl _ s, fun _ => rfl, rfl⟩

theorem trans (h : StripStep n s t) (g : StripStep n t u) : StripStep n s u := ⟨h.off.trans g.off, fun m => (g.port m).trans (h.port m), g.strips.trans h.strips⟩

theorem of_lamp (hoff : Off ([F.RIV_CH_STRIPS_DROPPED] ++ settleFields ++ displayFields) s t) (hl : t.lamp = s.lamp) : StripStep n s t :=
  ⟨hoff, fun m => by rw [State.port, State.port, hl], by rw [State.chan, State.chan, hl]⟩

theorem chainAll {α : Type} (l : List α) (g : α → State → State) (hg : ∀ a ∈ l, ∀ t, StripStep n t (g a t)) (s : State) : StripStep n s (chainAll l g s) := by
  induction l generalizing s with
  | nil => exact refl n s
  | cons a l ih => exact (hg a List.mem_cons_self s).trans (ih (fun b hb => hg b (List.mem_cons_of_mem a hb)) (g a s))

end StripStep

/-- A channel that is not `n` takes a value. -/
theorem setChan_stripStep {n k : Nat} (hk : n ≠ k) (s : State) (c : RivChan) : StripStep n s (s.setChan k c) := ⟨fun _ _ _ => rfl, fun _ => rfl, by rw [chan_setChan_ne s c hk]⟩

theorem captureTo_step {n k : Nat} (hk : n ≠ k) (s : State) (bs : List Byte) : StripStep n s (s.captureTo k bs) := by
  unfold State.captureTo
  dsimp only
  have hring := putRing_op s 6 ((s.chan k).table % 2 ^ 40) (2 ^ min 30 (max 12 ((s.chan k).table / 2 ^ 56))) (s.chan k).ringPos bs
  generalize s.putRing 6 _ _ _ bs = t at hring ⊢
  exact (StripStep.of_lamp (hring.off _) (congrArg (fun u : State => u.lamp) hring.rest :)).trans (setChan_stripStep hk t _)

theorem dropStrips_step (n : Nat) (s : State) (k d : Nat) : StripStep n s (s.dropStrips k d) := StripStep.of_lamp ((Off.refl _ s).setF _ _ _ rfl) rfl

/-- Capture channels take a frame of a port: the ports' channels stay (R212). -/
theorem captureFrame_step {n : Nat} (hn : n < 48) (s : State) (p : Nat) (f : List Byte) : StripStep n s (s.captureFrame p f) := by
  unfold State.captureFrame
  refine StripStep.chainAll _ _ (fun k hk t => ?_) s
  have hne : n ≠ k := by
    obtain ⟨j, -, rfl⟩ := List.mem_map.mp (List.mem_filter.mp hk).1
    omega
  have hdraw : StripStep n t t.draw := StripStep.of_lamp ((Off.refl _ t).draw) rfl
  dsimp only
  split
  · exact hdraw.trans (dropStrips_step n _ k 1)
  · exact hdraw.trans (captureTo_step hne _ _)

/-- A band that has no strip left has ended: its strips, none, stay. -/
theorem bandDone_step (n : Nat) (s : State) : StripStep n s (s.bandDone n) := by
  unfold State.bandDone
  dsimp only
  split
  · next b _ =>
    split
    · have hset : StripStep n s (s.setChan n { s.chan n with current := none }) := ⟨fun _ _ _ => rfl, fun _ => rfl, by rw [chan_setChan]⟩
      generalize s.setChan n { s.chan n with current := none } = t at hset ⊢
      have hmarks := marksNoticed_step t (s.ctx b.ctx).group
      exact hset.trans (StripStep.of_lamp (hmarks.off.mono rfl) hmarks.lamp)
    · exact StripStep.refl n s
  · exact StripStep.refl n s

theorem refreshPanic_writes (s : State) (n : Nat) : Writes settleFields s (s.refreshPanic n) := by
  have hbuf := showBuf_writes s n
  unfold State.refreshPanic
  dsimp only
  generalize s.showBuf n = t at hbuf ⊢
  exact (hbuf.setF F.RIV_CH_STATUS_PANIC n 0 rfl).ite ((hbuf.setF F.RIV_CH_STATUS_PANIC n 1 rfl).ite hbuf)

theorem refreshPanic_step (n : Nat) (s : State) (m : Nat) : StripStep n s (s.refreshPanic m) := StripStep.of_lamp ((refreshPanic_writes s m).off.mono rfl) (refreshPanic_writes s m).only.lamp

/-- The strip in transmission has sent `len` bytes more. -/
theorem stripSent_parts {s : State} {n : Nat} {x : Strip} {r : List Strip} (len : Nat) (h : (s.chan n).strips = x :: r) :
    Off ([F.RIV_CH_STRIPS_DROPPED] ++ settleFields ++ displayFields) s (s.stripSent n len) ∧ (∀ m, (s.stripSent n len).port m = s.port m) ∧
      ((s.stripSent n len).chan n).strips = (if x.data.length ≤ x.done + len then r else { x with done := x.done + len } :: r) := by
  have hsent : s.stripSent n len = ((s.setChan n { s.chan n with strips := if x.data.length ≤ x.done + len then r else { x with done := x.done + len } :: r }).bandDone n).refreshPanic n := by
    unfold State.stripSent
    dsimp only
    rw [h]
  rw [hsent]
  have hset : ∀ c : RivChan, Off ([F.RIV_CH_STRIPS_DROPPED] ++ settleFields ++ displayFields) s (s.setChan n c) ∧ (∀ m, (s.setChan n c).port m = s.port m) ∧ ((s.setChan n c).chan n).strips = c.strips := fun c => ⟨fun _ _ _ => rfl, fun _ => rfl, by rw [chan_setChan]⟩
  obtain ⟨hoff, hport, hstrips⟩ := hset { s.chan n with strips := if x.data.length ≤ x.done + len then r else { x with done := x.done + len } :: r }
  generalize s.setChan n _ = t at hoff hport hstrips ⊢
  have hrest := (bandDone_step n t).trans (refreshPanic_step n (t.bandDone n) n)
  exact ⟨hoff.trans hrest.off, fun m => (hrest.port m).trans (hport m), hrest.strips.trans hstrips⟩

/-- The port whose frame has ended. -/
def LampPort.ended (p : LampPort) (f : List Byte) : LampPort :=
  { p with frame := none, lastFrame := f, blankDue := p.blankDue && !isBlankNow f, owed := p.owed && !isBlankNow f, closing := p.closing && !isBlankNow f, en := p.en && !(p.closing && isBlankNow f) }

/-- The end of a frame at its port; a port that closes goes off with its BLANK frame. -/
def State.portEnded (s : State) (n : Nat) (f : List Byte) : State :=
  let t := s.setPort n ((s.port n).ended f)
  if (s.port n).closing && isBlankNow f then t.setF F.LMP_PORT_CTRL_EN n 0 else t

theorem frameSent_eq (s : State) (n : Nat) (f : List Byte) :
    s.frameSent n f = if frameType f = 0 then ((s.portEnded n f).captureFrame n f).stripSent n (f.length - 12) else (s.portEnded n f).captureFrame n f := rfl

theorem portEnded_parts (s : State) (n : Nat) (f : List Byte) : (s.portEnded n f).port n = (s.port n).ended f ∧ (s.portEnded n f).chan n = s.chan n ∧ ((s.port n).closing = true → isBlankNow f = true → (s.portEnded n f).f F.LMP_PORT_CTRL_EN n = 0) := by
  have hown : (s.setPort n ((s.port n).ended f)).port n = (s.port n).ended f := port_setPort s n _
  have hchan : (s.setPort n ((s.port n).ended f)).chan n = s.chan n := rfl
  unfold State.portEnded
  dsimp only
  generalize s.setPort n ((s.port n).ended f) = t at hown hchan ⊢
  split
  · exact ⟨hown, hchan, fun _ _ => State.f_setF_same _ _ _ _⟩
  · next h => exact ⟨hown, hchan, fun hc hb => absurd (by rw [hc, hb]; rfl) h⟩

theorem frameSent_planes {s : State} {n : Nat} {f : List Byte} {x : Strip} {r : List Strip} (hn : n < 48) (ht : frameType f = 0) (hs : (s.chan n).strips = x :: r) :
    (s.frameSent n f).port n = (s.port n).ended f ∧ ((s.frameSent n f).chan n).strips = (if x.data.length ≤ x.done + (f.length - 12) then r else { x with done := x.done + (f.length - 12) } :: r) := by
  obtain ⟨hport, hchan, -⟩ := portEnded_parts s n f
  rw [frameSent_eq, if_pos ht]
  generalize s.portEnded n f = t at hport hchan ⊢
  have hcap := captureFrame_step hn t n f
  generalize t.captureFrame n f = u at hcap ⊢
  obtain ⟨-, hp, hstrips⟩ := stripSent_parts (f.length - 12) (by rw [hcap.strips, hchan, hs] : (u.chan n).strips = x :: r)
  exact ⟨(hp n).trans ((hcap.port n).trans hport), hstrips⟩

theorem frameSent_other {s : State} {n : Nat} {f : List Byte} (hn : n < 48) (ht : frameType f ≠ 0) :
    (s.frameSent n f).port n = (s.port n).ended f ∧ ((s.frameSent n f).chan n).strips = (s.chan n).strips ∧ ((s.port n).closing = true → isBlankNow f = true → (s.frameSent n f).f F.LMP_PORT_CTRL_EN n = 0) := by
  obtain ⟨hport, hchan, hoff⟩ := portEnded_parts s n f
  rw [frameSent_eq, if_neg ht]
  generalize s.portEnded n f = t at hport hchan hoff ⊢
  have hcap := captureFrame_step hn t n f
  exact ⟨(hcap.port n).trans hport, hcap.strips.trans (by rw [hchan]), fun hc hb => (hcap.off.at_ _ _ rfl).trans (hoff hc hb)⟩

theorem lampFrame_ends {s : State} {n : Nat} {f : List Byte} (own : Option PortFrame) (h : (s.port n).frame = some f) : s.lampFrame n own = s.frameSent n f := by
  rw [State.lampFrame, h]

/-- The broadcast BLANK frame is no PLANES frame. -/
theorem frameType_of_blank {f : List Byte} (h : isBlankNow f = true) : frameType f = 1 := by
  have htake : f.take 2 = [0x28, 0xFF] := of_decide_eq_true h
  match f with
  | [] => exact absurd htake (by decide)
  | b :: l =>
    have hb : b = 0x28 := by
      have := congrArg List.head? htake
      simpa using this
    subst hb
    simp [frameType, byteAt]

theorem ended_of_blank (p : LampPort) {f : List Byte} (h : isBlankNow f = true) : (p.ended f).frame = none ∧ (p.ended f).lastFrame = f ∧ (p.ended f).blankDue = false ∧ (p.ended f).owed = false ∧ (p.ended f).closing = false ∧ (p.closing = true → (p.ended f).en = false) := by
  unfold LampPort.ended
  simp [h]
  exact fun hc _ => hc

theorem ended_of_other (p : LampPort) {f : List Byte} (h : isBlankNow f = false) : p.ended f = { p with frame := none, lastFrame := f } := by
  unfold LampPort.ended
  simp [h]

end Sys2Proof.Machine

/-! LampPortEvents: breaks and splits (R217, R221, R222, R224). -/

namespace Sys2Proof.Machine

-- ## Splits

theorem putSplit_own (s : State) (x : Nat) (p : Nat × Nat) :
    (s.putSplit x p).f F.RIV_CH_SPLIT_ACT_FIRST x = p.1 % 256 ∧ (s.putSplit x p).f F.RIV_CH_SPLIT_ACT_LAST x = p.2 % 256 ∧ (s.putSplit x p).f F.RIV_CH_SPLIT_FIRST x = p.1 % 256 ∧
      (s.putSplit x p).f F.RIV_CH_SPLIT_LAST x = p.2 % 256 ∧ (s.putSplit x p).f F.RIV_CH_CTRL_SHADOW_ARMED x = 0 := by
  unfold State.putSplit
  simp (disch := decide) only [State.f_setF_code, State.f_setF_same]
  exact ⟨rfl, rfl, rfl, rfl, rfl⟩

/-- The registers of a split. -/
def bothSplits : List Fld := [F.RIV_CH_SPLIT_ACT_FIRST, F.RIV_CH_SPLIT_ACT_LAST, F.RIV_CH_SPLIT_FIRST, F.RIV_CH_SPLIT_LAST, F.RIV_CH_CTRL_SHADOW_ARMED]

theorem putSplit_writes (s : State) (x : Nat) (p : Nat × Nat) : Writes bothSplits s (s.putSplit x p) :=
  (((((Writes.refl _ s).setF F.RIV_CH_SPLIT_ACT_FIRST x p.1 rfl).setF F.RIV_CH_SPLIT_ACT_LAST x p.2 rfl).setF F.RIV_CH_SPLIT_FIRST x p.1 rfl).setF F.RIV_CH_SPLIT_LAST x p.2 rfl).setF F.RIV_CH_CTRL_SHADOW_ARMED x 0 rfl

theorem putSplit_other (s : State) {x m : Nat} (p : Nat × Nat) (h : m ≠ x) (y : Fld) : (s.putSplit x p).f y m = s.f y m := by
  unfold State.putSplit
  rw [f_setF_otherInst _ _ _ _ h, f_setF_otherInst _ _ _ _ h, f_setF_otherInst _ _ _ _ h, f_setF_otherInst _ _ _ _ h, f_setF_otherInst _ _ _ _ h]

/-- The registers that the bands of a channel that loses or gains positions may write. -/
def moveFields : List Fld := settleFields ++ displayFields ++ [F.RIV_CH_STRIPS_DROPPED, F.LMP_PORT_STATUS_SPLIT, F.RIV_CH_STATUS_ADOPTED]

/-- A step on the bands of channels: the chains, the faults and DRAM stay. -/
structure MoveStep (s t : State) : Prop where
  off : Off moveFields s t
  chains : t.lamp.chains = s.lamp.chains
  flt : t.flt = s.flt
  dram : t.dram = s.dram

namespace MoveStep
variable {s t u : State}

theorem refl (s : State) : MoveStep s s := ⟨Off.refl _ s, rfl, rfl, rfl⟩

theorem trans (h : MoveStep s t) (g : MoveStep t u) : MoveStep s u := ⟨h.off.trans g.off, g.chains.trans h.chains, g.flt.trans h.flt, g.dram.trans h.dram⟩

theorem writes {fs : List Fld} (h : Writes fs s t) (hc : covers moveFields fs = true) : MoveStep s t := by
  have hregs : t = { s with regs := t.regs } := h.only
  refine ⟨h.off.mono hc, h.only.lamp ▸ rfl, ?_, ?_⟩
  · rw [hregs]
  · rw [hregs]

theorem codec {fs : List Fld} (h : CodecStep fs s t) (hc : covers moveFields fs = true) : MoveStep s t :=
  ⟨h.off.mono hc, h.lamp ▸ rfl, (congrArg (fun u : State => u.flt) h.rest :), (congrArg (fun u : State => u.dram) h.rest :)⟩

theorem setChan (h : MoveStep s t) (n : Nat) (c : RivChan) : MoveStep s (t.setChan n c) := ⟨fun x i hx => h.off x i hx, h.chains, h.flt, h.dram⟩

theorem chainAll {α : Type} (l : List α) (g : α → State → State) (hg : ∀ a t, MoveStep t (g a t)) (s : State) : MoveStep s (chainAll l g s) :=
  ⟨(Off.refl _ s).chainAll l g fun a t => (hg a t).off, chainAll_keep (fun t => t.lamp.chains) l g (fun a t => (hg a t).chains) s, chainAll_keep (fun t => t.flt) l g (fun a t => (hg a t).flt) s, chainAll_keep (fun t => t.dram) l g (fun a t => (hg a t).dram) s⟩

end MoveStep

theorem dropStrips_move (s : State) (n k : Nat) : MoveStep s (s.dropStrips n k) := MoveStep.writes ((Writes.refl [F.RIV_CH_STRIPS_DROPPED] s).setF _ _ _ rfl) rfl

/-- A band that a channel queues (R201). -/
theorem queueBand_move (s : State) (n : Nat) (b : Band) : MoveStep s (s.queueBand n b) := by
  unfold State.queueBand
  dsimp only
  generalize hold : ((s.chan n).bands.filter fun x => decide (x.positions = b.positions) && decide (x.slice = b.slice) && decide (x.ctx = b.ctx) && later 16 b.picture x.picture) = olds
  have hgone := MoveStep.chainAll olds (fun x t => (t.dropStrips n x.strips).noteSkip b.ctx x.picture) (fun x t => (dropStrips_move t n _).trans (MoveStep.codec (noteSkip_step _ _ _) rfl)) s
  generalize chainAll olds _ s = t at hgone ⊢
  split
  · exact hgone.setChan n _
  · split
    · exact (hgone.trans (dropStrips_move t n _)).setChan n _
    · exact hgone

theorem adopt_move (s : State) (x : Nat) (ps : List Nat) : MoveStep s (s.adopt x ps) := by
  refine MoveStep.chainAll _ _ (fun c u => MoveStep.chainAll _ _ (fun q v => ?_) u) s
  split
  · exact MoveStep.refl v
  · exact MoveStep.chainAll _ _ (fun i w => MoveStep.chainAll _ _ (fun b z => queueBand_move z x b) w) v

theorem bandDone_move (s : State) (n : Nat) : MoveStep s (s.bandDone n) := by
  unfold State.bandDone
  dsimp only
  split
  · next b _ =>
    split
    · exact ((MoveStep.refl s).setChan n _).trans (MoveStep.codec (marksNoticed_step _ _) rfl)
    · exact MoveStep.refl s
  · exact MoveStep.refl s

theorem lose_move (s : State) (x : Nat) (ps : List Nat) : MoveStep s (s.lose x ps) := by
  unfold State.lose
  extract_lets c lost c' t keep c''
  clear_value keep
  have hbands : MoveStep s t := (MoveStep.refl s).setChan x c'
  clear_value t c' c''
  split
  · exact hbands
  · exact ((hbands.setChan x c'').trans (MoveStep.writes (settleChan_writes _ x) rfl)).trans (bandDone_move _ x)

/-- The registers of a split that moves. -/
def State.splitMoved (s : State) (a : Nat) (c : Chain) (k : Nat) : State :=
  (((s.putSplit a (c.span a a k)).putSplit c.portB (c.span a c.portB k)).setF F.LMP_PORT_EVENT_TAKEOVER a 1).setF F.LMP_PORT_EVENT_TAKEOVER c.portB 1

theorem moveSplit_move (s : State) (a : Nat) (c : Chain) (k : Nat) : MoveStep (s.splitMoved a c k) (s.moveSplit a c k) := by
  have hshow : MoveStep (s.splitMoved a c k) ((s.splitMoved a c k).showSplit a) := MoveStep.writes (showSplit_writes _ a) rfl
  unfold State.moveSplit
  extract_lets b old t u ps moved
  have hu : u = (s.splitMoved a c k).showSplit a := rfl
  rw [← hu] at hshow
  clear_value u old moved
  split
  · exact hshow
  · have hadopted : MoveStep u (u.setF F.RIV_CH_STATUS_ADOPTED (if k < old then b else a) 1) := MoveStep.writes ((Writes.refl [F.RIV_CH_STATUS_ADOPTED] u).setF _ _ _ rfl) rfl
    exact (((hshow.trans hadopted).trans (lose_move _ _ _)).trans (adopt_move _ _ _)).trans (MoveStep.codec (syncMarks_step _) rfl)

theorem splitMoved_writes (s : State) (a : Nat) (c : Chain) (k : Nat) : Writes (F.LMP_PORT_EVENT_TAKEOVER :: bothSplits) s (s.splitMoved a c k) :=
  ((((putSplit_writes s a _).trans (putSplit_writes _ c.portB _)).mono rfl).setF F.LMP_PORT_EVENT_TAKEOVER a 1 rfl).setF F.LMP_PORT_EVENT_TAKEOVER c.portB 1 rfl

/-- The split of a dual-fed chain stands in both sets of both of its channels. -/
theorem splitMoved_dual {s : State} {a k : Nat} {c : Chain} (hb : c.portB < 48) (hab : a ≠ c.portB) :
    (∀ x, x = a ∨ x = c.portB → (s.splitMoved a c k).f F.LMP_PORT_EVENT_TAKEOVER x = 1) ∧
      ((s.splitMoved a c k).f F.RIV_CH_SPLIT_ACT_FIRST a = 1 ∧ (s.splitMoved a c k).f F.RIV_CH_SPLIT_ACT_LAST a = k % 256 ∧ (s.splitMoved a c k).f F.RIV_CH_SPLIT_LAST a = k % 256 ∧ (s.splitMoved a c k).f F.RIV_CH_CTRL_SHADOW_ARMED a = 0) ∧
      (s.splitMoved a c k).f F.RIV_CH_SPLIT_ACT_FIRST c.portB = (k + 1) % 256 ∧ (s.splitMoved a c k).f F.RIV_CH_SPLIT_ACT_LAST c.portB = c.n % 256 ∧ (s.splitMoved a c k).f F.RIV_CH_SPLIT_FIRST c.portB = (k + 1) % 256 ∧ (s.splitMoved a c k).f F.RIV_CH_CTRL_SHADOW_ARMED c.portB = 0 := by
  have hdual : c.dual = true := decide_eq_true hb
  have hspanA : c.span a a k = (1, k) := by simp [Chain.span, hdual]
  have hspanB : c.span a c.portB k = (k + 1, c.n) := by simp [Chain.span, hdual, hab.symm]
  unfold State.splitMoved
  rw [hspanA, hspanB]
  obtain ⟨hfirst, hlast, -, hend, harmed⟩ := putSplit_own s a (1, k)
  have hkept := fun y => putSplit_other (s.putSplit a (1, k)) (k + 1, c.n) hab y
  obtain ⟨hfirst', hlast', hbegin', -, harmed'⟩ := putSplit_own (s.putSplit a (1, k)) c.portB (k + 1, c.n)
  generalize (s.putSplit a (1, k)).putSplit c.portB (k + 1, c.n) = t at hkept hfirst' hlast' hbegin' harmed' ⊢
  refine ⟨fun x hx => ?_, ?_, ?_⟩
  · rcases hx with rfl | rfl
    · rw [f_setF_otherInst _ _ _ _ hab]
      exact State.f_setF_same _ _ _ _
    · exact State.f_setF_same _ _ _ _
  · simp (disch := decide) only [State.f_setF_code]
    rw [hkept, hkept, hkept, hkept]
    exact ⟨hfirst, hlast, hend, harmed⟩
  · simp (disch := decide) only [State.f_setF_code]
    exact ⟨hfirst', hlast', hbegin', harmed'⟩

-- ## A confirmed break

theorem exec_breakNoticeConfirm {n : Nat} (hn : n < 48) (s : State) (d : Nat) : exec (.breakNoticeConfirm n d) s = .next (s.breakNotice n (d % 256)) := onInstance_of (decide_eq_true hn) _

/-- The break as its port shows it. -/
def State.breakNoted (s : State) (n d : Nat) : State := (s.setF F.LMP_PORT_EVENT_BREAK n 1).setF F.LMP_PORT_EVENT_BREAK_D n d

theorem sets_breakNoted (s : State) (n d : Nat) : Sets s [(F.LMP_PORT_EVENT_BREAK, n, 1), (F.LMP_PORT_EVENT_BREAK_D, n, d % 256)] (s.breakNoted n d) :=
  ((Sets.refl s).snocNew F.LMP_PORT_EVENT_BREAK n 1 rfl).snocNew F.LMP_PORT_EVENT_BREAK_D n d rfl

/-- The cut that byte `d` of a notice tells. -/
def cutOf (d : Nat) : Nat := if 128 ≤ d then d % 128 else d % 128 - 1

theorem breakNotice_eq (s : State) (n d : Nat) :
    s.breakNotice n d = match s.chainOf n with
      | none => s.breakNoted n d
      | some (a, c) =>
        if !c.dual ∨ d % 128 = 0 ∨ c.n < d % 128 then s.breakNoted n d
        else if cutOf d ∈ c.cuts then s.breakNoted n d
        else if c.cuts = [] then ((s.breakNoted n d).setChain a { c with cuts := cutOf d :: c.cuts }).moveSplit a c (cutOf d)
        else (chainAll (c.ports a) (fun x t => t.setF F.LMP_PORT_EVENT_DOUBLE_BREAK x 1) ((s.breakNoted n d).setChain a { c with cuts := cutOf d :: c.cuts })).raiseFault 33 n [] := rfl

theorem breakNotice_noted {s : State} {n d : Nat} (h : s.chainOf n = none ∨ ∃ a c, s.chainOf n = some (a, c) ∧ (c.dual = false ∨ d % 128 = 0 ∨ c.n < d % 128 ∨ cutOf d ∈ c.cuts)) : s.breakNotice n d = s.breakNoted n d := by
  rw [breakNotice_eq]
  rcases h with h | ⟨a, c, h, hc⟩
  · rw [h]
  · rw [h]
    dsimp only
    split
    · rfl
    · next hn =>
      rw [if_pos]
      rcases hc with hc | hc | hc | hc
      · exact absurd (Or.inl (by simp [hc])) hn
      · exact absurd (Or.inr (Or.inl hc)) hn
      · exact absurd (Or.inr (Or.inr hc)) hn
      · exact hc

theorem breakNotice_cut {s : State} {n d a : Nat} {c : Chain} (h : s.chainOf n = some (a, c)) (hb : c.portB < 48) (hk : 1 ≤ d % 128) (hkn : d % 128 ≤ c.n) (hcut : cutOf d ∉ c.cuts) :
    s.breakNotice n d = if c.cuts = [] then ((s.breakNoted n d).setChain a { c with cuts := cutOf d :: c.cuts }).moveSplit a c (cutOf d)
      else (chainAll (c.ports a) (fun x t => t.setF F.LMP_PORT_EVENT_DOUBLE_BREAK x 1) ((s.breakNoted n d).setChain a { c with cuts := cutOf d :: c.cuts })).raiseFault 33 n [] := by
  have hdual : c.dual = true := decide_eq_true hb
  rw [breakNotice_eq, h]
  dsimp only
  rw [if_neg (by rw [hdual]; rintro (hn | hn | hn); exacts [absurd hn (by decide), by omega, by omega]), if_neg hcut]

theorem cutOf_lt {d : Nat} (h : 1 ≤ d % 128) : cutOf d < 128 ∧ (cutOf d + 1) % 256 = cutOf d + 1 := by
  unfold cutOf
  split <;> omega

theorem chain_setChain (s : State) (a : Nat) (c : Chain) : (s.setChain a c).chain a = c := Tab.get_set_same _ _ _ _

/-- The first break of a dual-fed chain moves its split (R222). -/
theorem breakNotice_first {s : State} {n d a : Nat} {c : Chain} (h : s.chainOf n = some (a, c)) (hb : c.portB < 48) (hab : a ≠ c.portB) (hk : 1 ≤ d % 128) (hkn : d % 128 ≤ c.n) (hcuts : c.cuts = []) :
    (s.breakNotice n d).chain a = { c with cuts := [cutOf d] } ∧ (s.breakNotice n d).f F.LMP_PORT_EVENT_BREAK n = 1 ∧ (s.breakNotice n d).f F.LMP_PORT_EVENT_TAKEOVER a = 1 ∧ (s.breakNotice n d).f F.LMP_PORT_EVENT_TAKEOVER c.portB = 1 ∧
      (s.breakNotice n d).f F.RIV_CH_SPLIT_ACT_FIRST a = 1 ∧ (s.breakNotice n d).f F.RIV_CH_SPLIT_ACT_LAST a = cutOf d ∧ (s.breakNotice n d).f F.RIV_CH_SPLIT_ACT_FIRST c.portB = cutOf d + 1 ∧ (s.breakNotice n d).f F.RIV_CH_SPLIT_ACT_LAST c.portB = c.n % 256 ∧
      (s.breakNotice n d).f F.RIV_CH_SPLIT_LAST a = cutOf d ∧ (s.breakNotice n d).f F.RIV_CH_SPLIT_FIRST c.portB = cutOf d + 1 ∧ (s.breakNotice n d).f F.RIV_CH_CTRL_SHADOW_ARMED a = 0 ∧ (s.breakNotice n d).f F.RIV_CH_CTRL_SHADOW_ARMED c.portB = 0 ∧
      (s.breakNotice n d).flt = s.flt ∧ (s.breakNotice n d).dram = s.dram := by
  obtain ⟨hlt, hnext⟩ := cutOf_lt hk
  rw [breakNotice_cut h hb hk hkn (by rw [hcuts]; exact List.not_mem_nil), if_pos hcuts, hcuts]
  have hnoted : (s.breakNoted n d).f F.LMP_PORT_EVENT_BREAK n = 1 := (sets_breakNoted s n d).2.1 (F.LMP_PORT_EVENT_BREAK, n, 1) List.mem_cons_self
  have hbeside : (s.breakNoted n d).flt = s.flt ∧ (s.breakNoted n d).dram = s.dram := ⟨rfl, rfl⟩
  have hset : ∀ t : State, (t.setChain a { c with cuts := [cutOf d] }).chain a = { c with cuts := [cutOf d] } ∧ (∀ y m, (t.setChain a { c with cuts := [cutOf d] }).f y m = t.f y m) ∧ (t.setChain a { c with cuts := [cutOf d] }).flt = t.flt ∧ (t.setChain a { c with cuts := [cutOf d] }).dram = t.dram :=
    fun t => ⟨chain_setChain t a _, fun _ _ => rfl, rfl, rfl⟩
  generalize s.breakNoted n d = t at hnoted hbeside ⊢
  obtain ⟨hchain, hf, hflt, hdram⟩ := hset t
  generalize t.setChain a { c with cuts := [cutOf d] } = u at hchain hf hflt hdram ⊢
  have hsplit := splitMoved_writes u a c (cutOf d)
  obtain ⟨htake, ⟨haf, hal, hae, haa⟩, hbf, hbl, hbb, hba⟩ := splitMoved_dual (s := u) (k := cutOf d) hb hab
  have hmove := moveSplit_move u a c (cutOf d)
  have hregs : u.splitMoved a c (cutOf d) = { u with regs := (u.splitMoved a c (cutOf d)).regs } := hsplit.only
  have hkept : (u.splitMoved a c (cutOf d)).lamp = u.lamp ∧ (u.splitMoved a c (cutOf d)).flt = u.flt ∧ (u.splitMoved a c (cutOf d)).dram = u.dram := by
    rw [hregs]
    exact ⟨rfl, rfl, rfl⟩
  generalize u.splitMoved a c (cutOf d) = v at hsplit htake haf hal hae haa hbf hbl hbb hba hmove hkept
  generalize u.moveSplit a c (cutOf d) = w at hmove ⊢
  obtain ⟨hvl, hvf, hvd⟩ := hkept
  rw [Nat.mod_eq_of_lt (by omega : cutOf d < 256)] at hal hae
  rw [hnext] at hbf hbb
  refine ⟨?_, ?_, (hmove.off.at_ _ _ rfl).trans (htake a (Or.inl rfl)), (hmove.off.at_ _ _ rfl).trans (htake _ (Or.inr rfl)), (hmove.off.at_ _ _ rfl).trans haf, (hmove.off.at_ _ _ rfl).trans hal, (hmove.off.at_ _ _ rfl).trans hbf,
    (hmove.off.at_ _ _ rfl).trans hbl, (hmove.off.at_ _ _ rfl).trans hae, (hmove.off.at_ _ _ rfl).trans hbb, (hmove.off.at_ _ _ rfl).trans haa, (hmove.off.at_ _ _ rfl).trans hba, ?_, ?_⟩
  · rw [State.chain, hmove.chains, hvl]
    exact hchain
  · exact (hmove.off.at_ _ _ rfl).trans ((hsplit.off.at_ _ _ rfl).trans ((hf _ _).trans hnoted))
  · exact hmove.flt.trans (hvf.trans (hflt.trans hbeside.1))
  · exact hmove.dram.trans (hvd.trans (hdram.trans hbeside.2))

/-- A second break is a double break (R224). -/
theorem breakNotice_second {s : State} {n d a : Nat} {c : Chain} (h : s.chainOf n = some (a, c)) (hn : n < 48) (hb : c.portB < 48) (hk : 1 ≤ d % 128) (hkn : d % 128 ≤ c.n) (hcuts : c.cuts ≠ []) (hcut : cutOf d ∉ c.cuts) :
    (s.breakNotice n d).chain a = { c with cuts := cutOf d :: c.cuts } ∧ (s.breakNotice n d).f F.LMP_PORT_EVENT_DOUBLE_BREAK a = 1 ∧ (s.breakNotice n d).f F.LMP_PORT_EVENT_DOUBLE_BREAK c.portB = 1 ∧
      (s.breakNotice n d).f F.FLT_SRC_STATUS_ACTIVE 33 = 1 ∧ (s.breakNotice n d).f F.FLT_SRC_STATUS_INSTANCE 33 = n ∧
      ∀ (y : Fld) (i : Nat), y.outside (F.LMP_PORT_EVENT_BREAK :: F.LMP_PORT_EVENT_BREAK_D :: F.LMP_PORT_EVENT_DOUBLE_BREAK :: raiseFields) → (s.breakNotice n d).f y i = s.f y i := by
  have hdual : c.dual = true := decide_eq_true hb
  have hports : c.ports a = [a, c.portB] := by rw [Chain.ports, if_pos hdual]
  rw [breakNotice_cut h hb hk hkn hcut, if_neg hcuts, hports]
  have hnoted : Off [F.LMP_PORT_EVENT_BREAK, F.LMP_PORT_EVENT_BREAK_D] s (s.breakNoted n d) := (sets_breakNoted s n d).off
  generalize s.breakNoted n d = t at hnoted ⊢
  have hchain : (t.setChain a { c with cuts := cutOf d :: c.cuts }).chain a = { c with cuts := cutOf d :: c.cuts } := chain_setChain t a _
  have hset : Off [F.LMP_PORT_EVENT_BREAK, F.LMP_PORT_EVENT_BREAK_D] s (t.setChain a { c with cuts := cutOf d :: c.cuts }) := fun x i hx => hnoted x i hx
  generalize t.setChain a { c with cuts := cutOf d :: c.cuts } = u at hchain hset ⊢
  have hdouble : Writes [F.LMP_PORT_EVENT_DOUBLE_BREAK] u (chainAll [a, c.portB] (fun x t => t.setF F.LMP_PORT_EVENT_DOUBLE_BREAK x 1) u) := (Writes.refl _ u).chainAll _ _ fun x t => (Writes.refl _ t).setF _ _ _ rfl
  have hboth : ∀ x ∈ [a, c.portB], (chainAll [a, c.portB] (fun x t => t.setF F.LMP_PORT_EVENT_DOUBLE_BREAK x 1) u).f F.LMP_PORT_EVENT_DOUBLE_BREAK x = 1 := fun x hx => by
    have hlast : ∀ v : State, (v.setF F.LMP_PORT_EVENT_DOUBLE_BREAK x 1).f F.LMP_PORT_EVENT_DOUBLE_BREAK x = 1 := fun v => State.f_setF_same _ _ _ _
    simp only [List.mem_cons, List.not_mem_nil, or_false] at hx
    by_cases hxb : x = c.portB
    · subst hxb
      exact hlast _
    · obtain rfl : x = a := hx.resolve_right hxb
      exact (f_setF_otherInst _ _ _ _ hxb).trans (hlast u)
  generalize chainAll [a, c.portB] _ u = v at hdouble hboth ⊢
  have hdoubled : ∀ x ∈ [a, c.portB], (v.raiseFault 33 n []).f F.LMP_PORT_EVENT_DOUBLE_BREAK x = 1 := fun x hx => (State.raiseFault_f v 33 n [] _ x (by unfold Fld.outside; decide)).trans (hboth x hx)
  refine ⟨?_, hdoubled a List.mem_cons_self, hdoubled _ (List.mem_cons_of_mem _ List.mem_cons_self), State.raiseFault_active v 33 n [], (raiseFault_instance v n [] (by decide)).trans (Nat.mod_eq_of_lt (by omega)), fun y i hy => ?_⟩
  · have hchains : (v.raiseFault 33 n []).lamp.chains = v.lamp.chains := (congrArg (fun x : State => x.lamp.chains) (sansRaise_raiseFault v 33 n []) :)
    rw [State.chain, hchains, hdouble.only.lamp]
    exact hchain
  · rw [State.raiseFault_f v 33 n [] y i (outside_of_covers rfl hy), hdouble.off y i (outside_of_covers rfl hy), hset y i (outside_of_covers rfl hy)]

end Sys2Proof.Machine

/-! LampPortEvents: status frames, the receiver and the LUT window, and the statement assembled (R206, R210, R219 to R221). -/

namespace Sys2Proof.Machine

-- ## Status frames

theorem exec_lampStatusReceive {n : Nat} (hn : n < 48) (s : State) (f : List Byte) : exec (.lampStatusReceive n f) s = .next (s.statusReceive n f) := onInstance_of (decide_eq_true hn) _

theorem statusReceive_blind {s : State} {n : Nat} (f : List Byte) (h : (s.port n).en = false ∨ s.portBlind fnLamp n = true) : s.statusReceive n f = s :=
  if_pos (h.imp (fun he => by rw [he]; rfl) id)

/-- A frame at a port that is on and sees. -/
theorem statusReceive_seen {s : State} {n : Nat} (f : List Byte) (he : (s.port n).en = true) (hb : s.portBlind fnLamp n = false) :
    s.statusReceive n f = if f.length < 12 ∨ beAt f (f.length - 4) 4 ≠ crc32 (f.take (f.length - 4)) then s.bump F.LMP_PORT_COUNTS_RX_CRC n
      else if frameType f = 3 then s.offer (4096 + 16 + n) { kind := 0, first := true, last := true, data := f.take (f.length - 4) } else s :=
  if_neg (by rw [he, hb]; decide)

/-- A good frame of another type leaves the part as it is. -/
theorem statusReceive_other {s : State} {n : Nat} {f : List Byte} (hl : 12 ≤ f.length) (hcrc : beAt f (f.length - 4) 4 = crc32 (f.take (f.length - 4))) (ht : frameType f ≠ 3) : s.statusReceive n f = s := by
  by_cases h : (s.port n).en = false ∨ s.portBlind fnLamp n = true
  · exact statusReceive_blind f h
  · rw [not_or, Bool.not_eq_false, Bool.not_eq_true] at h
    rw [statusReceive_seen f h.1 h.2, if_neg (by rw [not_or]; exact ⟨by omega, fun hne => hne hcrc⟩), if_neg ht]

theorem sets_bump (s : State) (x : Fld) (i : Nat) : Sets s [(x, i, min (s.f x i + 1) (2 ^ x.len - 1))] (s.bump x i) :=
  (Sets.refl s).putNew x i _ rfl (Nat.lt_of_le_of_lt (Nat.min_le_right _ _) (Nat.sub_lt (Nat.two_pow_pos _) (by decide)))

/-- A queue that does not spill takes an item for which it has room. -/
theorem offer_takes {s : State} {q : Nat} {i : Item} (hon : s.queueOn q = true) (hs : s.queueSpills q = false) (hd : i.data.length ≤ 504) (hroom : (s.queue q).used + i.size ≤ 512) :
    s.offer q i = (s.setQueue q { s.queue q with items := (s.queue q).items ++ [i] }).settle q := by
  unfold State.offer
  dsimp only
  rw [hon, hs, if_neg (by decide), if_neg (by decide), if_neg (by omega)]
  unfold State.squeeze
  exact if_pos hroom

theorem settle_quiet {s : State} {q : Nat} (h : s.queueSpills q = false) : s.settle q = s.setQueue q { s.queue q with head := if (s.queue q).spoil = 0 then min 256 (s.queue q).used else (s.queue q).head } :=
  if_neg (by rw [h]; simp)

-- ## The receiver

theorem exec_lampRxLos {n : Nat} (hn : n < 48) (s : State) (los : Bool) : exec (.lampRxLos n los) s = .next (s.rxLos n los) := onInstance_of (decide_eq_true hn) _

theorem exec_farSyncReturn {n : Nat} (hn : n < 48) (s : State) : exec (.farSyncReturn n) s = .next (s.farReturn n) := onInstance_of (decide_eq_true hn) _

theorem sets_farLost (s : State) (n : Nat) : Sets s (if s.f F.LMP_PORT_STATUS_FAR_SYNC n = 1 then [(F.LMP_PORT_STATUS_FAR_SYNC, n, 0), (F.LMP_PORT_EVENT_FAR_LOST, n, 1)] else []) (s.farLost n) := by
  unfold State.farLost
  by_cases h : s.f F.LMP_PORT_STATUS_FAR_SYNC n = 1
  · rw [if_pos h, if_pos (fb_true h)]
    exact ((Sets.refl s).snocNew F.LMP_PORT_STATUS_FAR_SYNC n 0 rfl).snocNew F.LMP_PORT_EVENT_FAR_LOST n 1 rfl
  · rw [if_neg h, if_neg (fb_ne h)]
    exact Sets.refl s

theorem sets_rxLos {s : State} {n : Nat} (los : Bool) (h : s.portBlind fnLamp n = false) :
    Sets s ((if los then [(F.LMP_PORT_EVENT_RX_LOS, n, 1)] else []) ++ (if s.f F.LMP_PORT_STATUS_FAR_SYNC n = 1 then [(F.LMP_PORT_STATUS_FAR_SYNC, n, 0), (F.LMP_PORT_EVENT_FAR_LOST, n, 1)] else [])) (s.rxLos n los) := by
  have hlos : s.rxLos n los = (if los then s.setF F.LMP_PORT_EVENT_RX_LOS n 1 else s).farLost n := if_neg (by rw [h]; decide)
  rw [hlos]
  cases los with
  | false => exact sets_farLost s n
  | true =>
    have hset : Sets s [(F.LMP_PORT_EVENT_RX_LOS, n, 1)] (s.setF F.LMP_PORT_EVENT_RX_LOS n 1) := (Sets.refl s).snocNew F.LMP_PORT_EVENT_RX_LOS n 1 rfl
    have hfar := sets_farLost (s.setF F.LMP_PORT_EVENT_RX_LOS n 1) n
    rw [hset.f_eq F.LMP_PORT_STATUS_FAR_SYNC n rfl] at hfar
    refine hset.append hfar ?_
    split <;> rfl

-- ## The LUT window (R206)

theorem sets_lutAdvance (s : State) : Sets s (if s.f F.DRS_LUT_ADDR_AUTO_INC 0 = 1 then [(F.DRS_LUT_ADDR_ENTRY, 0, (s.f F.DRS_LUT_ADDR_ENTRY 0 + 1) % 8192)] else []) s.lutAdvance := by
  unfold State.lutAdvance
  by_cases h : s.f F.DRS_LUT_ADDR_AUTO_INC 0 = 1
  · rw [if_pos h, if_pos (fb_true h)]
    exact (Sets.refl s).snocNew F.DRS_LUT_ADDR_ENTRY 0 _ rfl
  · rw [if_neg h, if_neg (fb_ne h)]
    exact Sets.refl s

theorem exec_lutWrite {s : State} {o : Origin} (w : Word) (h : s.writeOk o .DRS_LUT_DATA 0 = true) :
    exec (.drsLutDataAccess o (some w)) s = .next ((s.withLamp (fun x => { x with lut := Tab.set 0 x.lut s.lutPlace (w.toNat % 2 ^ 24) })).lutAdvance) :=
  congrArg Host.Outcome.next (regWriteBy_eq w h regAt_DRS_LUT_DATA (by decide))

theorem exec_lutRead {s : State} {o : Origin} (h : s.readOk o .DRS_LUT_DATA 0 = true) :
    exec (.drsLutDataAccess o none) s = .next (State.answer (s.lutAdvance, Tab.get 0 s.lamp.lut s.lutPlace)) :=
  congrArg Host.Outcome.next (busRead_eq h regAt_DRS_LUT_DATA (by decide) (by decide))

-- ## The statement

/-- The byte of a notice is one byte. -/
theorem cutOf_byte (d : Nat) : d % 256 % 128 = d % 128 ∧ cutOf (d % 256) = if 128 ≤ d % 256 then d % 128 else d % 128 - 1 := by
  have h : d % 256 % 128 = d % 128 := Nat.mod_mod_of_dvd d (by decide)
  exact ⟨h, by rw [cutOf, h]⟩

/-- Settles O47: frames of a lamp port, status frames, confirmed breaks, the receiver and the LUT window. -/
theorem lampPortEvents : Obligations.LampPortEvents := by
  unfold Obligations.LampPortEvents
  refine ⟨fun s n own b hn hp hl he hb hfit hbytes => ?_, fun s n len x r b hn hp hl he hb hsafe hs hx hlen hfit hbytes => ?_, fun s n own hn hp hl he hb hsafe hfit => ?_, fun s n own hn hp hg hw => ?_,
    fun s n own x r f hn hf ht hs => ?_, fun s n own f hn hf hb => ?_, fun s n own f hn hf hb ht => ?_, fun s n f hn h => ?_, fun s n f hn hl hcrc ht => ?_, fun s n f hn he hb hbad => ?_,
    fun s n q f i hn he hb hl hl' hcrc ht hq hon hspill hi hroom => ?_, fun s n d hn hc => ?_, fun s n d a c hn hc hno => ?_, fun s n d a b cut c hn hc _ _ hb hb48 hab hk hkn hcuts hcut => ?_,
    fun s n d a cut c hn hc _ _ hb48 hk hkn hcuts hcut hnew => ?_, fun s n los hn hb => ⟨?_, ?_⟩, fun s n los hn hb => ⟨_, exec_lampRxLos hn s los, sets_rxLos los hb⟩, fun s n hn hb => ?_, fun s o w h => ?_, fun s o h => ?_⟩
  · refine ⟨_, exec_lampFrameSend hn s own, ?_⟩
    have hnext := nextFrame_blank own he hb
    rw [show blankHeader (s.sfcAt n (s.now + 1)) = b by rw [hbytes, blankHeader, leBytes_one]; rfl] at hnext
    exact lampFrame_starts hp hl hnext (by rw [hbytes]; exact hfit)
  · refine ⟨_, exec_lampFrameSend hn s none, ?_⟩
    have hnext := (nextFrame_open none he hb hsafe).trans (stripFrame_ready hs hx)
    rw [← hlen, planesHeader_eq, ← hbytes] at hnext
    refine lampFrame_starts hp hl hnext ?_
    have hpay : b.length - 8 = (sliceOf x.data x.done len).length := by
      rw [hbytes, ← planesHeader_eq x len (s.sfcAt n (s.chan n).apply), List.length_append, planesHeader_length]
      omega
    rw [hpay]
    exact hfit
  · exact ⟨_, exec_lampFrameSend hn s (some own), lampFrame_starts hp hl (nextFrame_open (some own) he hb hsafe) hfit⟩
  · rw [exec_lampFrameSend hn, lampFrame_gap own hp hg hw]
  · refine ⟨_, exec_lampFrameSend hn s own, ?_⟩
    have hnb : isBlankNow f = false := Bool.eq_false_iff.mpr fun h => by rw [frameType_of_blank h] at ht; exact absurd ht (by decide)
    obtain ⟨hport, hstrips⟩ := frameSent_planes hn ht hs
    rw [lampFrame_ends own hf, hport, ended_of_other _ hnb]
    exact ⟨rfl, rfl, rfl, hstrips⟩
  · refine ⟨_, exec_lampFrameSend hn s own, ?_⟩
    obtain ⟨hport, hstrips, hoff⟩ := frameSent_other (s := s) hn (by rw [frameType_of_blank hb]; decide : frameType f ≠ 0)
    obtain ⟨hframe, hlast, hblank, howed, hclosing, hen⟩ := ended_of_blank (s.port n) hb
    rw [lampFrame_ends own hf, hport]
    exact ⟨hframe, hlast, hblank, howed, hclosing, hstrips, fun hc => ⟨hen hc, hoff hc hb⟩⟩
  · refine ⟨_, exec_lampFrameSend hn s own, ?_⟩
    obtain ⟨hport, hstrips, -⟩ := frameSent_other (s := s) hn ht
    rw [lampFrame_ends own hf, hport, ended_of_other _ hb]
    exact ⟨rfl, hstrips⟩
  · rw [exec_lampStatusReceive hn, statusReceive_blind f h]
  · rw [exec_lampStatusReceive hn, statusReceive_other hl hcrc ht]
  · refine ⟨_, exec_lampStatusReceive hn s f, ?_⟩
    rw [statusReceive_seen f he hb, if_pos hbad]
    exact sets_bump s _ n
  · refine ⟨_, exec_lampStatusReceive hn s f, ?_⟩
    subst hq
    have hdata : i.data.length ≤ 504 := by
      rw [hi]
      simp only [List.length_take]
      omega
    rw [statusReceive_seen f he hb, if_neg (by rw [not_or]; exact ⟨by omega, fun hne => hne hcrc⟩), if_pos (show frameType f = 3 from ht), show (4096 + 16 + n) = 4112 + n from rfl, ← hi, offer_takes hon hspill hdata hroom]
    have hput := queue_setQueue s (4112 + n) { s.queue (4112 + n) with items := (s.queue (4112 + n)).items ++ [i] }
    have hquiet : (s.setQueue (4112 + n) { s.queue (4112 + n) with items := (s.queue (4112 + n)).items ++ [i] }).queueSpills (4112 + n) = false := hspill
    rw [settle_quiet hquiet, queue_setQueue, hput]
    exact ⟨rfl, rfl, rfl, rfl⟩
  · refine ⟨_, exec_breakNoticeConfirm hn s d, ?_⟩
    rw [breakNotice_noted (Or.inl hc)]
    have hset := sets_breakNoted s n (d % 256)
    rw [Nat.mod_mod] at hset
    exact hset
  · refine ⟨_, exec_breakNoticeConfirm hn s d, ?_⟩
    obtain ⟨hbyte, hcutd⟩ := cutOf_byte d
    rw [← hcutd, ← hbyte] at hno
    rw [breakNotice_noted (Or.inr ⟨a, c, hc, hno⟩)]
    have hset := sets_breakNoted s n (d % 256)
    rw [Nat.mod_mod] at hset
    exact hset
  · obtain ⟨hbyte, hcutd⟩ := cutOf_byte d
    subst hb
    rw [hcut, ← hcutd]
    exact ⟨_, exec_breakNoticeConfirm hn s d, breakNotice_first hc hb48 hab (by omega) (by omega) hcuts⟩
  · obtain ⟨hbyte, hcutd⟩ := cutOf_byte d
    rw [hcut, ← hcutd] at hnew
    rw [hcut, ← hcutd]
    exact ⟨_, exec_breakNoticeConfirm hn s d, breakNotice_second hc hn hb48 (by omega) (by omega) hcuts hnew⟩
  · exact (exec_lampRxLos hn s los).trans (congrArg Host.Outcome.next (if_pos hb))
  · exact (exec_farSyncReturn hn s).trans (congrArg Host.Outcome.next (if_pos hb))
  · refine ⟨_, exec_farSyncReturn hn s, ?_⟩
    rw [State.farReturn, if_neg (by rw [hb]; decide)]
    exact (Sets.refl s).snocNew F.LMP_PORT_STATUS_FAR_SYNC n 1 rfl
  · exact ⟨_, exec_lutWrite w h, sets_lutAdvance _⟩
  · exact ⟨_, exec_lutRead h, (sets_lutAdvance s).withReadData _⟩

end Sys2Proof.Machine

/-! The hewers and their registers: what leaves them as they are (R178 to R197). -/

namespace Sys2Proof.Machine

/-- The registers of the hewers, and what shows which faults stand. -/
def seqFields : List Fld :=
  [F.HWR_STATUS_STATE, F.HWR_STATUS_CTX, F.HWR_STATUS_BS_WAIT, F.HWR_CTRL_DRAIN, F.HWR_CTRL_SERVICE, F.HWR_SLICES_COUNT, F.HWR_LM_CORR_COUNT, F.HWR_FAULT_TOKEN_OVF, F.HWR_FAULT_ADDR_RANGE, F.HWR_FAULT_BRANCH_FORM,
    F.HWR_FAULT_WAIT_TIMEOUT, F.HWR_FAULT_LM_UNCORR, F.HWR_FAULT_PARITY, F.HWR_FAULT_ADDR_CLASS, F.HWR_FAULT_ADDR_ADDR, F.HWR_PATCH_STATUS_STATE, F.HWR_PATCH_STATUS_PATCH_ID, F.HWR_PATCH_STATUS_MATCH_USED,
    F.HWR_PATCH_RAM_DATA, F.HWR_MATCH_EN, F.FLT_SRC_STATUS_ACTIVE, F.FLT_SRC_STATUS_INSTANCE, F.FLT_STATUS_FATAL]

/-- No field of `fs` is one of those. -/
def besideSeq (fs : List Fld) : Bool := seqFields.all (fun x => fs.all (fun y => x.code != y.code))

/-- `t` has the hewers of `s`, their registers and the update. -/
structure SeqKeeps (s t : State) : Prop where
  hewers : t.codec.hewers = s.codec.hewers
  update : t.codec.update = s.codec.update
  regs : ∀ x ∈ seqFields, ∀ i, t.f x i = s.f x i

namespace SeqKeeps
variable {s t u : State}

theorem refl (s : State) : SeqKeeps s s := ⟨rfl, rfl, fun _ _ _ => rfl⟩

theorem trans (h : SeqKeeps s t) (g : SeqKeeps t u) : SeqKeeps s u := ⟨g.hewers.trans h.hewers, g.update.trans h.update, fun x hx i => (g.regs x hx i).trans (h.regs x hx i)⟩

theorem f (h : SeqKeeps s t) (x : Fld) (i : Nat) (hx : x ∈ seqFields) : t.f x i = s.f x i := h.regs x hx i

theorem off {fs : List Fld} (hc : t.codec = s.codec) (h : Off fs s t) (hfs : besideSeq fs = true) : SeqKeeps s t :=
  ⟨by rw [hc], by rw [hc], fun x hx i => h.at_ x i (List.all_eq_true.mp hfs x hx)⟩

theorem of_off {fs : List Fld} (h : Off fs s t) (hfs : besideSeq fs = true) (hh : t.codec.hewers = s.codec.hewers) (hu : t.codec.update = s.codec.update) : SeqKeeps s t :=
  ⟨hh, hu, fun x hx i => h.at_ x i (List.all_eq_true.mp hfs x hx)⟩

theorem writes {fs : List Fld} (h : Writes fs s t) (hfs : besideSeq fs = true) : SeqKeeps s t := off h.only.codec h.off hfs

theorem same (hc : t.codec = s.codec) (hr : t.regs = s.regs) : SeqKeeps s t := ⟨by rw [hc], by rw [hc], fun x _ i => by rw [State.f, State.f, hr]⟩

theorem setF (h : SeqKeeps s t) (x : Fld) (i v : Nat) (hx : besideSeq [x] = true) : SeqKeeps s (t.setF x i v) := h.trans (writes ((Writes.refl [x] t).setF x i v (by unfold covers; simp)) hx)

theorem codec (h : SeqKeeps s t) (g : CodecState → CodecState) (hh : (g t.codec).hewers = t.codec.hewers) (hu : (g t.codec).update = t.codec.update) : SeqKeeps s (t.withCodec g) := h.trans ⟨hh, hu, fun _ _ _ => rfl⟩

theorem ctxs (h : SeqKeeps s t) (c : Nat) (x : Option Ctx) : SeqKeeps s (t.setCtx? c x) := h.trans ⟨rfl, rfl, fun _ _ _ => rfl⟩

theorem modCtx (h : SeqKeeps s t) (c : Nat) (g : Ctx → Ctx) : SeqKeeps s (t.modCtx c g) := by
  unfold State.modCtx
  split
  · exact h
  · exact h.ctxs c _

theorem ite {p : Prop} [Decidable p] (h : SeqKeeps s t) (g : SeqKeeps s u) : SeqKeeps s (if p then t else u) := by
  split
  · exact h
  · exact g

theorem chainAll {α : Type} (l : List α) (g : α → State → State) (hg : ∀ a t, SeqKeeps t (g a t)) (s : State) : SeqKeeps s (chainAll l g s) := by
  induction l generalizing s with
  | nil => exact refl s
  | cons a l ih => exact (hg a s).trans (ih (g a s))

theorem stat (h : SeqKeeps s t) (c k n : Nat) : SeqKeeps s (t.stat c k n) := h.modCtx c _

theorem count (h : SeqKeeps s t) (x : Fld) (i : Nat) (y : Fld) (j k : Nat) (hxy : besideSeq [x, y] = true) : SeqKeeps s (t.count x i y j k) := by
  have hc : (t.count x i y j k).codec = t.codec := by
    unfold State.count
    dsimp only
    split <;> rfl
  exact h.trans (off hc ((Off.refl [x, y] t).count x i y j k (by simp [covers]) (by simp [covers])) hxy)

theorem looks {c : Nat} (h : Looks c s t) : SeqKeeps s t := by
  refine ⟨?_, ?_, fun x hx i => h.regs x i ?_⟩
  · rw [h.rest]
  · rw [h.rest]
  · revert x
    decide

theorem op (h : QueueOp s t) : SeqKeeps s t := same h.codec h.regs

end SeqKeeps

-- ## Queues

theorem settle_seq (s : State) (q : Nat) : SeqKeeps s (s.settle q) := SeqKeeps.op (settle_op s q).1

theorem countDrop_seq (s : State) (q : Nat) : SeqKeeps s (s.countDrop q) := ((SeqKeeps.refl s).count _ _ _ _ _ rfl).setF _ _ _ rfl

theorem setQueue_seq (s : State) (q : Nat) (k : Queue) : SeqKeeps s (s.setQueue q k) := SeqKeeps.op (QueueOp.setQueue s q k)

theorem recordDrop_seq (s : State) (q n : Nat) : SeqKeeps s (s.recordDrop q n) := by
  have hdrop := countDrop_seq s q
  unfold State.recordDrop
  dsimp only
  generalize s.countDrop q = t at hdrop ⊢
  have hcleft : SeqKeeps s (t.count F.SPQ_Q_CLEFTS_COUNT q F.SPQ_CNT_SAT_CLEFTS_SAT q 0) := hdrop.count _ _ _ _ _ rfl
  split
  · exact hdrop.trans (setQueue_seq t q _)
  · split
    · exact hdrop.trans (setQueue_seq t q _)
    · exact SeqKeeps.ite ((hcleft.trans (setQueue_seq _ q _)).trans (settle_seq _ q)) (hcleft.trans (setQueue_seq _ q _))

theorem squeeze_seq (s : State) (q : Nat) (i : Item) (fuel : Nat) : SeqKeeps s (s.squeeze q i fuel) := by
  induction fuel generalizing s with
  | zero =>
    unfold State.squeeze
    exact SeqKeeps.ite ((setQueue_seq s q _).trans (settle_seq _ q)) (countDrop_seq s q)
  | succ n ih =>
    unfold State.squeeze
    dsimp only
    split
    · exact (setQueue_seq s q _).trans (settle_seq _ q)
    · cases (s.queue q).overwrite with
      | none => exact countDrop_seq s q
      | some k => exact ((setQueue_seq s q k).trans (countDrop_seq _ q)).trans (ih _)

theorem offer_seq (s : State) (q : Nat) (i : Item) : SeqKeeps s (s.offer q i) := by
  unfold State.offer
  dsimp only
  exact SeqKeeps.ite (SeqKeeps.refl s) (SeqKeeps.ite (SeqKeeps.ite (recordDrop_seq s q _) ((setQueue_seq s q _).trans (settle_seq _ q))) (SeqKeeps.ite (countDrop_seq s q) (squeeze_seq s q i 64)))

-- ## Marks and descriptors

theorem refreshDescCount_seq (s : State) : SeqKeeps s s.refreshDescCount := SeqKeeps.writes (refreshDescCount_writes s) rfl

theorem resetDesc_seq (s : State) (d : Nat) : SeqKeeps s (s.resetDesc d) := by
  have hcodec : ∀ (l : List Fld), (chainAll l (fun F t => t.setF F d (F.reset d)) s).codec = s.codec := fun l => chainAll_keep (fun t => t.codec) l (fun F t => t.setF F d (F.reset d)) (fun _ _ => rfl) s
  have hoff := resetDesc_off s d
  unfold State.resetDesc at hoff ⊢
  dsimp only at hoff ⊢
  generalize hl : [F.STK_DESC_INFO_PINNED, F.STK_DESC_INFO_DISPLAY, F.STK_DESC_INFO_BEDROCK, F.STK_DESC_INFO_SHORT_TERM, F.STK_DESC_INFO_HOST_PIN, F.STK_DESC_INFO_SLOT, F.STK_DESC_INFO_GROUP, F.STK_DESC_PICTURE_PICTURE, F.STK_DESC_BASE_LO_BASE, F.STK_DESC_BASE_HI_BASE] = l at hoff ⊢
  have hc := hcodec l
  generalize chainAll l (fun F t => t.setF F d (F.reset d)) s = t at hc hoff ⊢
  have hdesc : (t.setDesc d {}).codec.hewers = t.codec.hewers ∧ (t.setDesc d {}).codec.update = t.codec.update := ⟨rfl, rfl⟩
  exact SeqKeeps.of_off hoff rfl (hdesc.1.trans (congrArg CodecState.hewers hc)) (hdesc.2.trans (congrArg CodecState.update hc))

theorem shrinkGroup_seq (s : State) (g : Nat) : SeqKeeps s (s.shrinkGroup g) := by
  unfold State.shrinkGroup
  dsimp only
  split
  · exact SeqKeeps.ite (SeqKeeps.refl s) (((SeqKeeps.refl s).codec _ rfl rfl).trans (resetDesc_seq _ _))
  · exact SeqKeeps.refl s

theorem refreshMarks_seq (s : State) (g : Nat) : SeqKeeps s (s.refreshMarks g) :=
  SeqKeeps.ite (refreshDescCount_seq s) (((SeqKeeps.chainAll _ _ (fun d t => SeqKeeps.writes (refreshMark_writes t g d) rfl) s).trans (shrinkGroup_seq _ g)).trans (refreshDescCount_seq _))

theorem notice_seq (s : State) (c : Nat) : SeqKeeps s (s.notice c) := SeqKeeps.looks (Looks.notice c s)

theorem noticeGroup_seq (s : State) (g : Nat) : SeqKeeps s (s.noticeGroup g) := SeqKeeps.chainAll _ _ (fun c t => notice_seq t c) s

theorem dropDesc_seq (s : State) (d : Nat) : SeqKeeps s (s.dropDesc d) :=
  SeqKeeps.ite ((((SeqKeeps.refl s).setF F.STK_DESC_INFO_DISPLAY d 0 rfl).setF F.STK_DESC_INFO_SHORT_TERM d 0 rfl).setF F.STK_DESC_INFO_SLOT d 7 rfl) (resetDesc_seq s d)

theorem swapAreas_seq (s : State) (c k : Nat) : SeqKeeps s (s.swapAreas c k) := by
  unfold State.swapAreas
  dsimp only
  exact (((SeqKeeps.refl s).codec _ rfl rfl).setF F.STK_DESC_BASE_LO_BASE _ _ rfl).setF F.STK_DESC_BASE_HI_BASE _ _ rfl

theorem takeDesc_seq (s : State) (c : Nat) : SeqKeeps s (s.takeDesc c) := by
  unfold State.takeDesc
  dsimp only
  split
  · exact SeqKeeps.refl s
  · split
    · exact SeqKeeps.refl s
    · split
      · exact SeqKeeps.refl s
      · exact (((SeqKeeps.same rfl rfl : SeqKeeps s s.draw).setF F.STK_DESC_PICTURE_PICTURE _ _ rfl).modCtx c _).trans (refreshMarks_seq _ _)

-- ## Bedrock builds

theorem abandonBuild_seq (s : State) (c k : Nat) : SeqKeeps s (s.abandonBuild c k) := (SeqKeeps.refl s).modCtx c _

theorem beginBuild_seq (s : State) (c k gen row : Nat) : SeqKeeps s (s.beginBuild c k gen row) := by
  unfold State.beginBuild
  dsimp only
  exact SeqKeeps.ite (SeqKeeps.refl s) (SeqKeeps.ite ((swapAreas_seq s c k).modCtx c _) ((SeqKeeps.refl s).modCtx c _))

theorem swapBed_seq (s : State) (c k gen crc colour : Nat) : SeqKeeps s (s.swapBed c k gen crc colour) := (swapAreas_seq s c k).modCtx c _

theorem codec_setF (s : State) (x : Fld) (i v : Nat) : (s.setF x i v).codec = s.codec := Eq.trans rfl rfl

theorem codec_withFlt (s : State) (g : FltState → FltState) : (s.withFlt g).codec = s.codec := Eq.trans rfl rfl

theorem codec_count (s : State) (x : Fld) (i : Nat) (y : Fld) (j k : Nat) : (s.count x i y j k).codec = s.codec := by
  unfold State.count
  dsimp only
  split
  · rfl
  · rfl

theorem codec_logEvent (s : State) (kind fsid cls inst : Nat) (d : List Byte) : (s.logEvent kind fsid cls inst d).codec = s.codec := by
  unfold State.logEvent State.evtLost
  simp only [codec_setF, codec_withFlt]
  split
  · simp only [codec_setF, codec_count]
  · rfl

theorem logEvent_seq (s : State) (kind fsid cls inst : Nat) (d : List Byte) : SeqKeeps s (s.logEvent kind fsid cls inst d) :=
  SeqKeeps.off (fs := logFields) (codec_logEvent s kind fsid cls inst d) (fun _ i hx => logEvent_frame s kind fsid cls inst d i hx) rfl

theorem logFirmware_seq (s : State) (k : Nat) : SeqKeeps s (s.logFirmware k) := logEvent_seq s _ _ _ _ _

theorem bedCrcFail_seq (s : State) (c k : Nat) : SeqKeeps s (s.bedCrcFail c k) := by
  unfold State.bedCrcFail
  dsimp only
  exact ((((abandonBuild_seq s c k).stat c _ 1).count F.STK_CRC_FAIL_COUNT 0 F.STK_CNT_SAT_CRC_FAIL_SAT 0 0 rfl).trans (logFirmware_seq _ 3)).modCtx c _

end Sys2Proof.Machine

/-! The hewers and the ends of units, pictures and contexts, which leave them as they are (R130, R147 to R150, R156, R159, R166). -/

namespace Sys2Proof.Machine

-- ## Bands and pictures

theorem withLamp_seq (s : State) (g : LampState → LampState) : SeqKeeps s (s.withLamp g) := SeqKeeps.same rfl rfl

theorem setChan_seq (s : State) (n : Nat) (c : RivChan) : SeqKeeps s (s.setChan n c) := SeqKeeps.same rfl rfl

theorem dropStrips_seq (s : State) (n k : Nat) : SeqKeeps s (s.dropStrips n k) := (SeqKeeps.refl s).setF F.RIV_CH_STRIPS_DROPPED _ _ rfl

theorem noteSkip_seq (s : State) (c p : Nat) : SeqKeeps s (s.noteSkip c p) := SeqKeeps.ite (SeqKeeps.refl s) (((SeqKeeps.refl s).stat c _ _).modCtx c _)

theorem queueBand_seq (s : State) (n : Nat) (b : Band) : SeqKeeps s (s.queueBand n b) := by
  unfold State.queueBand
  dsimp only
  generalize ((s.chan n).bands.filter fun x => decide (x.positions = b.positions) && decide (x.slice = b.slice) && decide (x.ctx = b.ctx) && later 16 b.picture x.picture) = olds
  have hgone := SeqKeeps.chainAll olds (fun x t => (t.dropStrips n x.strips).noteSkip b.ctx x.picture) (fun x t => (dropStrips_seq t n _).trans (noteSkip_seq _ _ _)) s
  generalize chainAll olds _ s = t at hgone ⊢
  split
  · exact hgone.trans (setChan_seq t n _)
  · split
    · exact (hgone.trans (dropStrips_seq t n _)).trans (setChan_seq _ n _)
    · exact hgone

theorem signalSlice_seq (s : State) (b : Band) : SeqKeeps s (s.signalSlice b) := SeqKeeps.chainAll _ _ (fun n t => SeqKeeps.chainAll _ _ (fun x u => queueBand_seq u n x) t) s

theorem raiseCtx_seq (s : State) (c : Nat) : SeqKeeps s (s.raiseCtx c) := (SeqKeeps.refl s).modCtx c _

theorem ctxStatus_seq (s : State) (c : Nat) (p : Pic) : SeqKeeps s (s.ctxStatus c p) :=
  (((SeqKeeps.refl s).setF F.STK_CTX_STATUS_CONCEALED c _ rfl).setF F.STK_CTX_STATUS_CONC_SLICES c _ rfl).setF F.STK_CTX_STATUS_LAST_PICTURE c _ rfl

theorem awaitDisplay_seq (s : State) (c : Nat) (p : Pic) (h : Held) (meets : Nat) : SeqKeeps s (s.awaitDisplay c p h meets) := SeqKeeps.ite ((SeqKeeps.refl s).modCtx c _) (SeqKeeps.refl s)

theorem hostPin_seq (s : State) (g d : Nat) : SeqKeeps s (s.hostPin g d) := by
  unfold State.hostPin
  dsimp only
  exact SeqKeeps.ite (((((SeqKeeps.refl s).codec _ rfl rfl).setF F.STK_DESC_INFO_HOST_PIN d 1 rfl).setF F.STK_PIN_DESC 0 d rfl).setF F.STK_PIN_DONE 0 1 rfl) (SeqKeeps.refl s)

theorem completePicture_seq (s : State) (c : Nat) (p : Pic) (meets : Nat) : SeqKeeps s (s.completePicture c p meets) := by
  unfold State.completePicture
  extract_lets x h s1 s2 s3 s4 s5 s6 s7
  have h1 : SeqKeeps s s1 := (SeqKeeps.refl s).stat c _ _
  have h2 : SeqKeeps s s2 := SeqKeeps.ite h1 (h1.stat c _ _)
  have h3 : SeqKeeps s s3 := SeqKeeps.ite (h2.trans (raiseCtx_seq s2 c)) h2
  have h4 : SeqKeeps s s4 := h3.trans (ctxStatus_seq s3 c p)
  have h5 : SeqKeeps s s5 := h4.modCtx c _
  have h6 : SeqKeeps s s6 := SeqKeeps.ite h5 (h5.trans (awaitDisplay_seq s5 c p h meets))
  have h7 : SeqKeeps s s7 := (h6.trans (hostPin_seq s6 x.group p.desc)).trans (refreshMarks_seq _ x.group)
  exact SeqKeeps.ite h7 (h7.trans (noticeGroup_seq s7 x.group))

theorem sliceDone_seq (s : State) (c i : Nat) (concealed : Bool) : SeqKeeps s (s.sliceDone c i concealed) := by
  unfold State.sliceDone
  extract_lets x
  split
  · exact SeqKeeps.refl s
  · extract_lets q s1 s2
    have h1 : SeqKeeps s s1 := (SeqKeeps.refl s).modCtx c _
    have h2 : SeqKeeps s s2 := SeqKeeps.ite h1 ((h1.trans (signalSlice_seq s1 (q.band c i))).trans (refreshMarks_seq _ x.group))
    clear_value s2 q
    split
    · exact h2.trans (completePicture_seq s2 c q _)
    · exact h2

-- ## The end of a unit

theorem storeOne_seq (s : State) (base depth colour blocks k : Nat) (b : BlockOut) : SeqKeeps s (s.storeOne base depth colour blocks k b) := by
  have hpacked : ∀ (t : State) (m n : Nat), SeqKeeps t (t.withCodec (fun w => w.notePacked m n)) := fun t m n => by
    unfold CodecState.notePacked
    exact (SeqKeeps.refl t).codec _ rfl rfl
  unfold State.storeOne
  extract_lets e s1 s2 raw stored
  have h1 : SeqKeeps s s1 := SeqKeeps.op ((QueueOp.putFor s _ _ _ _).trans (QueueOp.putFor _ _ _ _ _))
  have h2 : SeqKeeps s s2 := h1.trans (hpacked s1 _ _)
  clear_value s2
  exact h2.setF F.STK_PACK_RATIO_RATIO 0 _ rfl

theorem storeBlocks_seq (s : State) (c base : Nat) (r : Run) : SeqKeeps s (s.storeBlocks c base r) := SeqKeeps.chainAll _ _ (fun _ t => storeOne_seq t _ _ _ _ _ _) s

theorem countUnit_seq (s : State) (c : Nat) (r : Run) (bytes : Nat) : SeqKeeps s (s.countUnit c r bytes) := by
  unfold State.countUnit
  extract_lets s1 s2 s3
  have h1 : SeqKeeps s s1 := (SeqKeeps.refl s).modCtx c _
  have h2 : SeqKeeps s s2 := h1.stat c _ _
  have h3 : SeqKeeps s s3 := SeqKeeps.ite (h2.stat c _ _) h2
  exact SeqKeeps.ite h1 (SeqKeeps.ite (h3.stat c _ _) h3)

theorem noteLateness_seq (s : State) (c : Nat) (enc : Bool) (deadline : Nat) : SeqKeeps s (s.noteLateness c enc deadline) := by
  unfold State.noteLateness
  extract_lets late s1 s2 s3 s4 s5
  have h1 : SeqKeeps s s1 := ((SeqKeeps.refl s).stat c _ _).modCtx c _
  have h2 : SeqKeeps s s2 := h1.count _ _ _ _ _ rfl
  have h3 : SeqKeeps s s3 := SeqKeeps.ite (h2.trans (raiseCtx_seq s2 c)) h2
  have h4 : SeqKeeps s s4 := SeqKeeps.ite (h3.stat c _ _) h3
  have h5 : SeqKeeps s s5 := h4.setF F.SCH_CTX_LATE_LREM c _ rfl
  exact SeqKeeps.ite (h5.setF F.SCH_CTX_EFFORT_CATCHUP c _ rfl) (SeqKeeps.ite ((SeqKeeps.refl s).setF F.SCH_CTX_EFFORT_CATCHUP c _ rfl) (SeqKeeps.refl s))

theorem encodeDone_seq (s : State) (c : Nat) (r : Run) (bytes : Nat) : SeqKeeps s (s.encodeDone c r bytes) := ((SeqKeeps.refl s).modCtx c _).setF F.SCH_CTX_QP_QP_NOW c _ rfl

theorem finishSlice_seq (s : State) (c : Nat) (r : Run) : SeqKeeps s (s.finishSlice c r) := by
  unfold State.finishSlice
  extract_lets r' conc bytes n s1 s2 s3 s4
  have h1 : SeqKeeps s s1 := (SeqKeeps.refl s).stat c _ _
  have h2 : SeqKeeps s s2 := by
    have hstored : ∀ o : Option Pic, SeqKeeps s (match o with
      | some p => s1.storeBlocks c (s1.desc p.desc).base r'
      | none => s1) := fun o => by
      cases o with
      | none => exact h1
      | some p => exact h1.trans (storeBlocks_seq s1 c _ r')
    exact hstored (s1.ctx c).pic
  have h3 : SeqKeeps s s3 := (h2.trans (countUnit_seq s2 c r' bytes)).trans (noteLateness_seq _ c _ _)
  have h4 : SeqKeeps s s4 := SeqKeeps.ite ((h3.trans (encodeDone_seq s3 c r' bytes)).modCtx c _) h3
  split
  · exact h4.trans (sliceDone_seq s4 c _ _)
  · exact h4

theorem joinBuild_seq (s : State) (c k : Nat) (r : Run) : SeqKeeps s (s.joinBuild c k r).1 := (storeBlocks_seq s c _ r).modCtx c _

theorem bedReceived_seq (s : State) (c : Nat) (r : Run) (d : BedHdr) : SeqKeeps s (s.bedReceived c r d) := by
  have hjoin := joinBuild_seq s c d.slot r
  unfold State.bedReceived
  dsimp only
  exact SeqKeeps.ite (SeqKeeps.refl s) (SeqKeeps.ite ((abandonBuild_seq s c d.slot).stat c _ _) (SeqKeeps.ite hjoin (SeqKeeps.ite ((hjoin.trans (swapBed_seq _ _ _ _ _ _)).trans (noticeGroup_seq _ _)) ((hjoin.trans (bedCrcFail_seq _ _ _)).trans (noticeGroup_seq _ _)))))

theorem endJob_seq (s : State) (n : Nat) (ok : Bool) (st : Nat) : SeqKeeps s (s.endJob n ok st) := by
  unfold State.endJob
  split
  · exact SeqKeeps.refl s
  · have hfw : ∀ g : FwState → FwState, SeqKeeps s (s.withFw g) := fun _ => SeqKeeps.same rfl rfl
    exact (hfw _).setF F.MBX_STATUS_JOB_DONE _ 1 rfl

theorem bedSent_seq (s : State) (c : Nat) (r : Run) (d : BedHdr) (bytes : Nat) : SeqKeeps s (s.bedSent c r d bytes) := by
  unfold State.bedSent
  dsimp only
  split
  · exact SeqKeeps.refl s
  · next l _ =>
    have hfirst : SeqKeeps s (if decide (l.doneAt = none) = true then (s.joinBuild c d.slot r).1 else s) := SeqKeeps.ite (joinBuild_seq s c d.slot r) (SeqKeeps.refl s)
    generalize (if decide (l.doneAt = none) = true then (s.joinBuild c d.slot r).1 else s) = t at hfirst ⊢
    have hlast : ∀ (gen crc colour : Nat) (g : Ctx → Ctx), SeqKeeps s (if decide (l.doneAt = none) && d.last then (t.swapBed c d.slot gen crc colour).modCtx c g else t) := fun gen crc colour g =>
      SeqKeeps.ite ((hfirst.trans (swapBed_seq t c d.slot gen crc colour)).modCtx c g) hfirst
    exact SeqKeeps.ite (((hlast _ _ _ _).modCtx c _).trans (endJob_seq _ _ _ _)) ((hlast _ _ _ _).modCtx c _)

theorem finishBed_seq (s : State) (c : Nat) (r : Run) : SeqKeeps s (s.finishBed c r) := by
  unfold State.finishBed
  split
  · exact SeqKeeps.refl s
  · have hcount := countUnit_seq s c r r.unitBytes
    exact SeqKeeps.ite (hcount.trans (bedSent_seq _ c r _ _)) (hcount.trans (bedReceived_seq _ c r _))

theorem parseOn_seq (s : State) (c : Nat) (r : Run) : SeqKeeps s (s.parseOn c r) := by
  unfold State.parseOn
  exact SeqKeeps.ite (SeqKeeps.refl s) ((SeqKeeps.refl s).modCtx c _)

-- ## Contexts and walls that end

theorem putResult_seq (s : State) (m : Nat) {st : Nat} (h : st < 65536) : SeqKeeps s (s.putResult m st []) := SeqKeeps.writes ((Writes.refl resultFields s).putResult m h (by decide) rfl) rfl

theorem forgetBands_seq (s : State) (c : Nat) : SeqKeeps s (s.forgetBands c) := withLamp_seq s _

theorem withHaul_seq (s : State) (g : HaulState → HaulState) : SeqKeeps s (s.withHaul g) := SeqKeeps.same rfl rfl

theorem resetFields_seq (l : List Fld) (c : Nat) (h : besideSeq l = true) (s : State) : SeqKeeps s (chainAll l (fun F t => t.setF F c (F.reset c)) s) := by
  induction l generalizing s with
  | nil => exact SeqKeeps.refl s
  | cons x l ih =>
    have hparts : besideSeq [x] = true ∧ besideSeq l = true := by
      simp only [besideSeq, List.all_eq_true, List.all_cons, Bool.and_eq_true, List.all_nil, and_true] at h ⊢
      exact ⟨fun y hy => (h y hy).1, fun y hy => (h y hy).2⟩
    exact ((SeqKeeps.refl s).setF x c _ hparts.1).trans (ih hparts.2 _)

theorem clearCtxRegs_seq (s : State) (c : Nat) : SeqKeeps s (s.clearCtxRegs c) := resetFields_seq _ c rfl s

theorem freeQueue_seq (s : State) (c : Nat) : SeqKeeps s (s.freeQueue c) := (setQueue_seq s c {}).trans (resetFields_seq _ c rfl _)

theorem refreshCapacity_seq (s : State) : SeqKeeps s s.refreshCapacity :=
  (((SeqKeeps.refl s).setF F.SCH_CAPACITY_IN_SERVICE 0 _ rfl).setF F.SCH_CAPACITY_CHARGE 0 _ rfl).setF F.SCH_LIMIT_LIMIT 0 _ rfl

theorem leaveGroup_seq (s : State) (g : Nat) : SeqKeeps s (s.leaveGroup g) := by
  unfold State.leaveGroup
  dsimp only
  split
  · exact (refreshMarks_seq s g).trans (noticeGroup_seq _ g)
  · exact ((SeqKeeps.chainAll _ _ (fun d t => dropDesc_seq t d) s).codec _ rfl rfl).trans (refreshDescCount_seq _)

theorem endLoads_seq (s : State) (c : Nat) : SeqKeeps s (s.endLoads c) := SeqKeeps.chainAll (s.ctx c).loads _ (fun l t => endJob_seq t l.job false stInternal) s

theorem removeCtx_seq (s : State) (c : Nat) : SeqKeeps s (s.removeCtx c) := by
  unfold State.removeCtx
  extract_lets g s1 s2
  have h1 : SeqKeeps s s1 := ((endLoads_seq s c).trans (forgetBands_seq _ c)).trans (freeQueue_seq _ c)
  have h2 : SeqKeeps s s2 := h1.codec _ rfl rfl
  have hgone : SeqKeeps s (((s2.setCtx? c none).clearCtxRegs c).leaveGroup g) := ((h2.ctxs c none).trans (clearCtxRegs_seq _ c)).trans (leaveGroup_seq _ g)
  exact (hgone.trans (withHaul_seq _ _)).trans (refreshCapacity_seq _)

theorem removeWall_seq (s : State) (w : Nat) : SeqKeeps s (s.removeWall w) := by
  unfold State.removeWall
  dsimp only
  split
  · next g _ => exact (((SeqKeeps.same rfl rfl : SeqKeeps s (s.setGrid g {})).setF F.LMP_GRID_STATUS_EN g 0 rfl)).codec _ rfl rfl
  · exact (SeqKeeps.refl s).codec _ rfl rfl

/-- Who waits for something else than the update hears of its end. -/
theorem tellWaiter_seq (s : State) {w : Waiter} (ok : Bool) (h : w ≠ .update) : SeqKeeps s (s.tellWaiter w ok) := by
  cases w with
  | none => exact SeqKeeps.refl s
  | mailbox m => exact putResult_seq s m (by split <;> decide)
  | job j => exact endJob_seq s j ok _
  | update => exact absurd rfl h

theorem reapOne_seq (s : State) (d : Dying) : SeqKeeps s (s.reapOne d) := by
  unfold State.reapOne
  extract_lets s1 s2
  have h1 : SeqKeeps s s1 := SeqKeeps.chainAll _ _ (fun c t => SeqKeeps.ite (removeCtx_seq t c) (SeqKeeps.refl t)) s
  have h2 : SeqKeeps s s2 := by
    have hwall : ∀ o : Option Nat, SeqKeeps s (match o with
      | some w => s1.removeWall w
      | none => s1) := fun o => by
      cases o with
      | none => exact h1
      | some w => exact h1.trans (removeWall_seq s1 w)
    exact hwall d.wall
  clear_value s1 s2
  split
  · exact h1.codec _ rfl rfl
  · split
    · exact h2
    · next hwho => exact h2.trans (tellWaiter_seq s2 true fun he => hwho he)

theorem reap_seq (s : State) : SeqKeeps s s.reap := ((SeqKeeps.refl s).codec _ rfl rfl).trans (SeqKeeps.chainAll _ _ (fun d t => reapOne_seq t d) _)

end Sys2Proof.Machine

/-! The work of microwords: it goes on with the hewer's unit, and leaves its sequencers, its tokens and its registers (R68 to R108, R126 to R142, R168 to R174, R185). -/

namespace Sys2Proof.Machine

/-- What the work on a unit leaves of a hewer. -/
def Hewer.core (x : Hewer) : Hewer := { x with run := none, signals := {}, bioIn := false, bioOut := false }

/-- Work on the units of hewers: no unit comes or goes, and of the hewers the rest stays. -/
structure RunSteps (s t : State) : Prop where
  core : ∀ k, (t.hewer k).core = (s.hewer k).core
  runs : ∀ k, (t.hewer k).run.isSome = (s.hewer k).run.isSome
  update : t.codec.update = s.codec.update
  regs : ∀ x ∈ seqFields, ∀ i, t.f x i = s.f x i

theorem SeqKeeps.hewer {s t : State} (h : SeqKeeps s t) (k : Nat) : t.hewer k = s.hewer k := by rw [State.hewer, State.hewer, h.hewers]

theorem hewer_setHewer_ne (s : State) {k h : Nat} (x : Hewer) (hk : k ≠ h) : (s.setHewer h x).hewer k = s.hewer k := Tab.get_set_ne _ _ _ hk

namespace RunSteps
variable {s t u : State}

theorem refl (s : State) : RunSteps s s := ⟨fun _ => rfl, fun _ => rfl, rfl, fun _ _ _ => rfl⟩

theorem keeps (h : RunSteps s t) (g : SeqKeeps t u) : RunSteps s u :=
  ⟨fun k => by rw [g.hewer]; exact h.core k, fun k => by rw [g.hewer]; exact h.runs k, g.update.trans h.update, fun x hx i => (g.regs x hx i).trans (h.regs x hx i)⟩

theorem of (g : SeqKeeps s t) : RunSteps s t := (refl s).keeps g

theorem trans (h : RunSteps s t) (g : RunSteps t u) : RunSteps s u :=
  ⟨fun k => (g.core k).trans (h.core k), fun k => (g.runs k).trans (h.runs k), g.update.trans h.update, fun x hx i => (g.regs x hx i).trans (h.regs x hx i)⟩

theorem setHewer (h : RunSteps s t) (k : Nat) {x : Hewer} (hc : x.core = (t.hewer k).core) (hr : x.run.isSome = (t.hewer k).run.isSome) : RunSteps s (t.setHewer k x) := by
  refine ⟨fun j => ?_, fun j => ?_, h.update, h.regs⟩
  · by_cases hj : j = k
    · rw [hj, hewer_setHewer, hc, h.core]
    · rw [hewer_setHewer_ne t x hj, h.core]
  · by_cases hj : j = k
    · rw [hj, hewer_setHewer, hr, h.runs]
    · rw [hewer_setHewer_ne t x hj, h.runs]

theorem setRun (h : RunSteps s t) {k : Nat} (hr : (s.hewer k).run.isSome = true) (r : Run) : RunSteps s (t.setRun k r) := h.setHewer k rfl (by rw [h.runs, hr]; rfl)

theorem ite {p : Prop} [Decidable p] (h : RunSteps s t) (g : RunSteps s u) : RunSteps s (if p then t else u) := by
  split
  · exact h
  · exact g

theorem f (h : RunSteps s t) (x : Fld) (i : Nat) (hx : x ∈ seqFields) : t.f x i = s.f x i := h.regs x hx i

end RunSteps

-- ## Bytes of encode units that enter their queue

theorem flushItems_steps (s : State) (h n : Nat) : RunSteps s (s.flushItems h n) := by
  induction n generalizing s with
  | zero => exact RunSteps.refl s
  | succ k ih =>
    unfold State.flushItems
    split
    · exact RunSteps.refl s
    · next r hr =>
      extract_lets all rest fin d i
      clear_value i
      split
      · exact RunSteps.refl s
      · have hoffer := RunSteps.of (offer_seq s r.what.ctx i)
        have hown := (offer_seq s r.what.ctx i).hewer h
        refine RunSteps.trans (hoffer.setHewer h ?_ ?_) (ih _)
        · rw [hown]
          rfl
        · rw [hown, hr]
          rfl

theorem flush_steps (s : State) (h : Nat) : RunSteps s (s.flush h) := by
  unfold State.flush
  split
  · exact RunSteps.refl s
  · split
    · exact RunSteps.refl s
    · exact flushItems_steps s h _

-- ## Decode work

section Decode
variable {s : State} {h : Nat} (hr : (s.hewer h).run.isSome = true)
include hr

theorem unitError_steps (r : Run) (j : Nat) : RunSteps s (s.unitError h r j) := ((RunSteps.refl s).setRun hr _).keeps ((SeqKeeps.refl _).stat _ _ _)

theorem endError_steps (r : Run) (j : Nat) : RunSteps s (s.endError h r j) := ((RunSteps.refl s).setRun hr _).keeps ((SeqKeeps.refl _).stat _ _ _)

end Decode

theorem gcmFail_seq (s : State) : SeqKeeps s s.gcmFail := ((SeqKeeps.refl s).count _ _ _ _ _ rfl).setF _ _ _ rfl

/-- The step after one that keeps the hewers. -/
theorem RunSteps.after {s t u : State} {h : Nat} (g : SeqKeeps s t) (hr : (s.hewer h).run.isSome = true) (k : (t.hewer h).run.isSome = true → RunSteps t u) : RunSteps s u :=
  (RunSteps.of g).trans (k (by rw [g.hewer, hr]))

section Decode
variable {s : State} {h : Nat} (hr : (s.hewer h).run.isSome = true)
include hr

theorem parseHead_steps (r : Run) : RunSteps s (s.parseHead h r) := by
  unfold State.parseHead
  split
  · exact RunSteps.ite (unitError_steps hr r _) (RunSteps.refl s)
  · exact unitError_steps hr r _
  · exact unitError_steps hr r _
  · extract_lets st v1
    split
    · exact unitError_steps hr r _
    · extract_lets q
      exact RunSteps.ite (RunSteps.after (gcmFail_seq s) hr fun hg => endError_steps hg q _) ((RunSteps.refl s).setRun hr q)

theorem shortRead_steps (r : Run) (e : RunEnd) : RunSteps s (s.shortRead h r e) := by
  unfold State.shortRead
  split
  · exact unitError_steps hr r _
  · exact unitError_steps hr r _
  · exact RunSteps.ite (unitError_steps hr r _) (RunSteps.ite (unitError_steps hr r _) (RunSteps.refl s))

theorem parseBlock_steps (r : Run) : RunSteps s (s.parseBlock h r) := by
  unfold State.parseBlock
  extract_lets d bits
  split
  · exact (RunSteps.refl s).setRun hr _
  · exact shortRead_steps hr r _
  · exact unitError_steps hr r _
  · exact unitError_steps hr r _

theorem endShort_steps (r : Run) : RunSteps s (s.endShort h r) := RunSteps.ite (endError_steps hr r _) (RunSteps.ite (endError_steps hr r _) (RunSteps.refl s))

theorem endTrailer_steps (r : Run) (taken data body : List Byte) (cut : Nat) (extra : Bool) (used : Nat) : RunSteps s (s.endTrailer h r taken data body cut extra used) := by
  unfold State.endTrailer
  split
  · exact RunSteps.after (gcmFail_seq s) hr fun hg => endError_steps hg r _
  · split
    · exact endError_steps hr r _
    · exact (RunSteps.refl s).setRun hr _

theorem endMarker_steps (r : Run) (taken data rest : List Byte) (cut : Nat) (extra : Bool) : RunSteps s (s.endMarker h r taken data rest cut extra) := by
  unfold State.endMarker
  split
  · exact RunSteps.ite ((RunSteps.refl s).setRun hr _) (endError_steps hr r _)
  · split
    · exact endShort_steps hr r
    · exact endError_steps hr r _
    · exact endError_steps hr r _
    · exact endTrailer_steps hr r _ _ _ _ _ _

theorem endExtra_steps (r : Run) (taken data rest : List Byte) (cut : Nat) : RunSteps s (s.endExtra h r taken data rest cut) := by
  have hstat : SeqKeeps s (s.stat r.what.ctx (stErr errSyntax) 1) := (SeqKeeps.refl s).stat _ _ _
  unfold State.endExtra
  extract_lets rest' t
  exact RunSteps.ite (RunSteps.ite (RunSteps.refl s) (RunSteps.after hstat hr fun hg => endMarker_steps hg r _ _ _ _ _)) (RunSteps.ite (RunSteps.after hstat hr fun hg => endShort_steps hg r) (RunSteps.refl s))

theorem parseEnd_steps (r : Run) : RunSteps s (s.parseEnd h r) := by
  unfold State.parseEnd
  extract_lets d n plain data
  split
  · exact unitError_steps hr r _
  · split
    · exact endExtra_steps hr r _ _ _ _
    · split
      · exact endShort_steps hr r
      · exact endError_steps hr r _
      · exact endMarker_steps hr r _ _ _ _ _

end Decode

theorem parseWork_steps (s : State) (h : Nat) : RunSteps s (s.parseWork h) := by
  unfold State.parseWork
  split
  · exact RunSteps.refl s
  · next r hr =>
    have hsome : (s.hewer h).run.isSome = true := by rw [hr]; rfl
    split
    · exact RunSteps.refl s
    · split
      · exact parseHead_steps hsome r
      · exact RunSteps.ite (parseBlock_steps hsome r) (parseEnd_steps hsome r)
      · exact RunSteps.refl s

theorem presentReads_seq (s : State) (r : Run) (b : BlockElems) : SeqKeeps s (s.presentReads r b) :=
  SeqKeeps.chainAll _ _ (fun _ t => SeqKeeps.op ((QueueOp.presentLines t _ _ _ _ _).trans (QueueOp.presentLines _ _ _ _ _ _))) s

theorem reconWork_steps (s : State) (h : Nat) : RunSteps s (s.reconWork h) := by
  unfold State.reconWork
  split
  · exact RunSteps.refl s
  · next r hr =>
    have hsome : (s.hewer h).run.isSome = true := by rw [hr]; rfl
    split
    · exact RunSteps.refl s
    · next b _ =>
      extract_lets c w n s1 s2 o o' src built s3
      have h1 : SeqKeeps s s1 := SeqKeeps.ite ((SeqKeeps.refl s).stat c _ _) (SeqKeeps.refl s)
      have h2 : SeqKeeps s s2 := SeqKeeps.ite h1 (h1.trans (presentReads_seq s1 r b))
      have h3 : SeqKeeps s s3 := SeqKeeps.ite (h2.stat c _ _) h2
      have hlost : ∀ r' : Run, RunSteps s ((s2.setRun h r').stat c (stErr errRefMissing) 1) := fun r' => (((RunSteps.of h2).setRun hsome r')).keeps ((SeqKeeps.refl _).stat _ _ _)
      have hbad : ∀ r' : Run, RunSteps s ((s2.setRun h r').stat c (stErr errPoison) 1) := fun r' => (((RunSteps.of h2).setRun hsome r')).keeps ((SeqKeeps.refl _).stat _ _ _)
      exact RunSteps.ite (hlost _) (RunSteps.ite (hbad _) ((RunSteps.of h3).setRun hsome _))

theorem concealWork_steps (s : State) (h : Nat) : RunSteps s (s.concealWork h) := by
  unfold State.concealWork
  split
  · exact RunSteps.refl s
  · next r hr =>
    exact RunSteps.ite (reconWork_steps s h) (RunSteps.ite (RunSteps.refl s) ((RunSteps.refl s).setRun (by rw [hr]; rfl) _))

end Sys2Proof.Machine

/-! The work of microwords on units in encode, the events of words, and work as the sequencers call it (R126, R141, R179, R185). -/

namespace Sys2Proof.Machine

-- ## Encode work

section Encode
variable {s : State} {h : Nat} (hr : (s.hewer h).run.isSome = true)
include hr

theorem joinBlock_steps (r : Run) (bits : List Bool) (rice : List RiceCtx) (b : BlockElems) (o : BlockOut) : RunSteps s (s.joinBlock h r bits rice b o) := by
  unfold State.joinBlock
  extract_lets clips c w n k q r1 r2 s1 s2
  have h1 : SeqKeeps s s1 := SeqKeeps.ite ((SeqKeeps.refl s).stat c _ _) (SeqKeeps.refl s)
  have h2 : SeqKeeps s s2 := SeqKeeps.ite (h1.modCtx c _) h1
  exact ((RunSteps.of h2).setRun hr _).trans (flush_steps _ _)

end Encode

theorem encodeWork_steps (s : State) (h : Nat) (b : BlockElems) : RunSteps s (s.encodeWork h b) := by
  unfold State.encodeWork
  split
  · exact RunSteps.refl s
  · next r hr =>
    have hsome : (s.hewer h).run.isSome = true := by rw [hr]; rfl
    extract_lets w n total us src bad r1 s1 fall eo y bits
    have hjoin : ∀ (r' : Run) (a : List Bool) (x : List RiceCtx) (e : BlockElems) (o : BlockOut), RunSteps s (s1.joinBlock h r' a x e o) := fun r' a x e o =>
      RunSteps.after (SeqKeeps.ite ((SeqKeeps.refl s).modCtx _ _) (SeqKeeps.refl s)) hsome fun hg => joinBlock_steps hg r' a x e o
    have hfall : ∀ q : Run, RunSteps s (fall q) := fun q => hjoin _ _ _ _ _
    clear_value s1 fall bits y eo
    split
    · exact RunSteps.refl s
    · split
      · exact hfall _
      · split
        · exact hfall _
        · exact hjoin _ _ _ _ _

theorem finishWork_steps (s : State) (h : Nat) : RunSteps s (s.finishWork h) := by
  unfold State.finishWork
  split
  · exact RunSteps.refl s
  · next r hr =>
    extract_lets x w data head body t start ct
    clear_value start head body
    split
    · exact RunSteps.refl s
    · exact ((RunSteps.refl s).setRun (by rw [hr]; rfl) _).trans (flush_steps _ _)

-- ## Work as the sequencers call it

theorem noteElements_steps (s : State) (h : Nat) (r : Option Run) : RunSteps s (s.noteElements h r) := by
  unfold State.noteElements
  split
  · split
    · exact RunSteps.refl s
    · exact (RunSteps.refl s).setHewer h rfl rfl
  · exact RunSteps.refl s

theorem pixelWork_steps (s : State) (h : Nat) (k : PixelWork) : RunSteps s (s.pixelWork h k) := by
  cases k with
  | none => exact RunSteps.refl s
  | reconstruct => exact reconWork_steps s h
  | conceal => exact concealWork_steps s h

theorem bitWork_steps (s : State) (h : Nat) (k : BitWork) : RunSteps s (s.bitWork h k) := by
  have hclear : RunSteps s (s.setHewer h { s.hewer h with bioIn := false, bioOut := false }) := (RunSteps.refl s).setHewer h rfl rfl
  cases k with
  | none => exact RunSteps.refl s
  | parse => exact RunSteps.ite (hclear.trans ((parseWork_steps _ _).trans (noteElements_steps _ _ _))) (RunSteps.refl s)
  | encode b => exact RunSteps.ite (hclear.trans (encodeWork_steps _ _ _)) (RunSteps.refl s)
  | finish => exact RunSteps.ite (hclear.trans (finishWork_steps _ _)) (RunSteps.refl s)

-- ## Events of words

theorem syntaxEvent_steps {s : State} {h : Nat} (hr : (s.hewer h).run.isSome = true) (r : Run) (j : Nat) : RunSteps s (s.syntaxEvent h r j) := by
  have hput : ∀ r' : Run, RunSteps s (s.setRun h r') := fun r' => (RunSteps.refl s).setRun hr r'
  have hstat : ∀ (r' : Run) (c k n : Nat), RunSteps s ((s.setRun h r').stat c k n) := fun r' c k n => (hput r').keeps ((SeqKeeps.refl _).stat c k n)
  unfold State.syntaxEvent
  extract_lets c w n
  refine RunSteps.ite (RunSteps.refl s) (RunSteps.ite (endError_steps hr r j) (RunSteps.ite (hstat _ _ _ _) (RunSteps.ite (RunSteps.ite (RunSteps.refl s) (hstat _ _ _ _)) (RunSteps.ite (RunSteps.ite (RunSteps.refl s) ((hput _).trans (reconWork_steps _ _))) (RunSteps.ite ?_ (RunSteps.ite (RunSteps.of ((SeqKeeps.refl s).stat _ _ _)) (unitError_steps hr r j)))))))
  split
  · exact RunSteps.ite ((hput _).keeps (bedCrcFail_seq _ _ _)) (hput _)
  · exact RunSteps.refl s

/-- Events 2 and 3 act on the unit alone, as work does. -/
theorem microEvent_steps (s : State) (h q : Nat) {evt : Nat} (w0 : Hewer) (he : evt < 4) (h1 : evt ≠ 1) : RunSteps s (s.microEvent h q evt w0) := by
  match evt, he, h1 with
  | 0, _, _ => exact RunSteps.refl s
  | 2, _, _ =>
    simp only [State.microEvent]
    split
    · exact RunSteps.refl s
    · next r hr => exact syntaxEvent_steps (by rw [hr]; rfl) r _
  | 3, _, _ => exact concealWork_steps s h

end Sys2Proof.Machine

/-! What an update of the other hewers leaves of one hewer (R194), and how those who wait for a hewer hear. -/

namespace Sys2Proof.Machine

/-- Hewer `h` and its registers are in `t` as in `s`. -/
structure Beside (h : Nat) (s t : State) : Prop where
  hewer : t.hewer h = s.hewer h
  regs : ∀ x ∈ seqFields, t.f x h = s.f x h

theorem SeqKeeps.beside {s t : State} (g : SeqKeeps s t) (h : Nat) : Beside h s t := ⟨g.hewer h, fun x hx => g.regs x hx h⟩

namespace Beside
variable {h : Nat} {s t u : State}

theorem refl (h : Nat) (s : State) : Beside h s s := (SeqKeeps.refl s).beside h

theorem trans (a : Beside h s t) (b : Beside h t u) : Beside h s u := ⟨b.hewer.trans a.hewer, fun x hx => (b.regs x hx).trans (a.regs x hx)⟩

theorem keeps (a : Beside h s t) (g : SeqKeeps t u) : Beside h s u := a.trans (g.beside h)

theorem setF (a : Beside h s t) (x : Fld) {k : Nat} (v : Nat) (hk : k ≠ h) : Beside h s (t.setF x k v) :=
  a.trans ⟨rfl, fun _ _ => f_setF_otherInst _ _ _ _ (Ne.symm hk)⟩

theorem setHewer (a : Beside h s t) {k : Nat} (x : Hewer) (hk : k ≠ h) : Beside h s (t.setHewer k x) := a.trans ⟨hewer_setHewer_ne t x (Ne.symm hk), fun _ _ => rfl⟩

theorem setHwState (a : Beside h s t) {k : Nat} (st : Nat) (hk : k ≠ h) : Beside h s (t.setHwState k st) := (a.setF _ st hk).keeps (refreshCapacity_seq _)

theorem hwState (a : Beside h s t) : t.hwState h = s.hwState h := a.regs F.HWR_STATUS_STATE (by decide)

theorem chainAll {α : Type} {P : State → Prop} (l : List α) (g : α → State → State) (hP : ∀ s t, Beside h s t → P s → P t) (hg : ∀ a t, P t → Beside h t (g a t)) (s : State) (hs : P s) : Beside h s (chainAll l g s) := by
  induction l generalizing s with
  | nil => exact refl h s
  | cons a l ih => exact (hg a s hs).trans (ih _ (hP _ _ (hg a s hs) hs))

end Beside

theorem freeLock_seq (s : State) (n : Nat) : SeqKeeps s (s.freeLock n) := by
  have hcodec : (s.freeLock n).codec = s.codec := by
    unfold State.freeLock State.setFreed
    dsimp only
    split
    · split <;> rfl
    · rfl
  exact SeqKeeps.off hcodec (freeLock_off s n) rfl

theorem beginLoad_beside (s : State) {h k : Nat} (p : PatchSet) (w : Waiter) (hk : k ≠ h) : Beside h s (s.beginLoad k p w) :=
  (((((SeqKeeps.refl s).setF F.SEM_LOCK_OWNER 3 1 rfl).beside h).setHewer _ hk).setF F.HWR_PATCH_STATUS_STATE 2 hk).setHwState hwPatching hk

/-- The hewer that the update goes to from number `k`. -/
def State.updateNext (s : State) (k : Nat) : Option Nat := allHewers.find? (fun h => decide (k ≤ h) && s.updates h)

theorem updateNext_spec {s : State} {k j : Nat} (h : s.updateNext k = some j) : k ≤ j ∧ s.hwState j ≠ hwFault := by
  have hp := List.find?_some h
  rw [Bool.and_eq_true, State.updates, decide_eq_true_eq, decide_eq_true_eq] at hp
  exact hp

/-- The update at hewer `j`. -/
def State.updateAt (s : State) (u : Update) (j : Nat) : State :=
  let busy := decide (s.hwState j = hwTest) || decide (s.hwState j = hwPatching)
  let s := s.withCodec (fun w => { w with update := some { u with at_ := j, waits := busy } })
  if busy then s
  else if s.hwState j = hwOut ∨ s.hwState j = hwDrained ∨ s.hwState j = hwIdle then s.beginLoad j u.set .update
  else (s.setHewer j { s.hewer j with drainFor := (s.hewer j).drainFor ++ [.update] }).setHwState j hwDraining

/-- No update runs any more. -/
def State.updateOff (s : State) : State := s.withCodec (fun w => { w with update := none })

/-- The update ends. -/
def State.updateEnd (s : State) (u : Update) : State :=
  (s.updateOff.freeLock 3).endJob u.job (!u.failed) (if u.failed then stInternal else stOk)

theorem updateFrom_none {s : State} (k : Nat) (h : s.codec.update = none) : s.updateFrom k = s := by
  unfold State.updateFrom
  rw [h]

theorem updateFrom_end {s : State} {k : Nat} {u : Update} (h : s.codec.update = some u) (hn : s.updateNext k = none) : s.updateFrom k = s.updateEnd u := by
  unfold State.updateFrom
  rw [h]
  rw [State.updateNext] at hn
  simp only [hn]
  rfl

theorem updateFrom_at {s : State} {k j : Nat} {u : Update} (h : s.codec.update = some u) (hn : s.updateNext k = some j) : s.updateFrom k = s.updateAt u j := by
  unfold State.updateFrom
  rw [h]
  rw [State.updateNext] at hn
  simp only [hn]
  rfl

theorem updateEnd_update (s : State) (u : Update) : (s.updateEnd u).codec.update = none :=
  ((freeLock_seq s.updateOff 3).trans (endJob_seq _ _ _ _)).update

theorem updateEnd_beside (s : State) (u : Update) (h : Nat) : Beside h s (s.updateEnd u) :=
  Beside.trans (t := s.updateOff) ⟨rfl, fun _ _ => rfl⟩ (((freeLock_seq s.updateOff 3).trans (endJob_seq _ _ _ _)).beside h)

theorem beginLoad_update (s : State) (k : Nat) (p : PatchSet) (w : Waiter) : (s.beginLoad k p w).codec.update = s.codec.update :=
  (refreshCapacity_seq _).update

theorem updateAt_update (s : State) (u : Update) (j : Nat) : ∃ b, (s.updateAt u j).codec.update = some { u with at_ := j, waits := b } := by
  unfold State.updateAt
  extract_lets busy t
  refine ⟨busy, ?_⟩
  split
  · rfl
  · split
    · exact beginLoad_update _ _ _ _
    · exact (refreshCapacity_seq _).update

theorem updateAt_beside (s : State) (u : Update) {h j : Nat} (hj : j ≠ h) : Beside h s (s.updateAt u j) := by
  unfold State.updateAt
  extract_lets busy t
  have ht : Beside h s t := ⟨rfl, fun _ _ => rfl⟩
  split
  · exact ht
  · split
    · exact ht.trans (beginLoad_beside _ _ _ hj)
    · exact (ht.setHewer _ hj).setHwState _ hj

/-- An update that goes on at number `k` is then at a hewer from `k` on. -/
theorem updateFrom_update {s : State} {u v : Update} {k : Nat} (h : s.codec.update = some u) (hv : (s.updateFrom k).codec.update = some v) : k ≤ v.at_ ∧ v.failed = u.failed := by
  cases hn : s.updateNext k with
  | none =>
    rw [updateFrom_end h hn, updateEnd_update] at hv
    exact absurd hv (by simp)
  | some j =>
    obtain ⟨b, hb⟩ := updateAt_update s u j
    rw [updateFrom_at h hn, hb] at hv
    obtain rfl := Option.some.inj hv
    exact ⟨(updateNext_spec hn).1, rfl⟩

/-- A hewer in FAULT, and one before `k`, are none that the update goes to. -/
theorem updateFrom_beside {s : State} {h k : Nat} (hf : s.hwState h = hwFault ∨ h < k) : Beside h s (s.updateFrom k) := by
  cases hu : s.codec.update with
  | none => rw [updateFrom_none k hu]; exact Beside.refl h s
  | some u =>
    cases hn : s.updateNext k with
    | none => rw [updateFrom_end hu hn]; exact updateEnd_beside s u h
    | some j =>
      obtain ⟨hk, hj⟩ := updateNext_spec hn
      rw [updateFrom_at hu hn]
      refine updateAt_beside s u ?_
      rintro rfl
      rcases hf with hf | hf
      · exact hj hf
      · omega

theorem updateFailed_beside {s : State} {h : Nat} (hf : s.hwState h = hwFault ∨ ∀ u, s.codec.update = some u → h ≤ u.at_) : Beside h s s.updateFailed := by
  unfold State.updateFailed
  split
  · exact Beside.refl h s
  · next u hu =>
    refine Beside.trans (t := s.withCodec (fun w => { w with update := some { u with failed := true } })) ⟨rfl, fun _ _ => rfl⟩ (updateFrom_beside ?_)
    exact hf.imp id fun hat => Nat.lt_succ_of_le (hat u hu)

theorem tellWaiter_idle {s : State} (ok : Bool) (h : s.codec.update = none) : s.tellWaiter .update ok = s := by
  simp only [State.tellWaiter, h]

theorem tellWaiter_update {s : State} {u : Update} (ok : Bool) (h : s.codec.update = some u) : s.tellWaiter .update ok = if ok then s.updateFrom (u.at_ + 1) else s.updateFailed := by
  simp only [State.tellWaiter, h]

/-- The hewer at which the update works, or one before it, and one in FAULT, are left as they are when the update hears of its end. -/
theorem tellWaiter_beside {s : State} {h : Nat} (w : Waiter) (ok : Bool) (hf : s.hwState h = hwFault ∨ ∀ u, s.codec.update = some u → h ≤ u.at_) : Beside h s (s.tellWaiter w ok) := by
  by_cases hw : w = .update
  · subst hw
    cases hu : s.codec.update with
    | none => rw [tellWaiter_idle ok hu]; exact Beside.refl h s
    | some u =>
      rw [tellWaiter_update ok hu]
      split
      · exact updateFrom_beside (hf.imp id fun hat => Nat.lt_succ_of_le (hat u hu))
      · exact updateFailed_beside hf
  · exact (tellWaiter_seq s ok hw).beside h

/-- A drain that ended by a fault leaves the hewer in FAULT. -/
theorem tellDrained_beside {s : State} {h : Nat} (ws : List Waiter) (hf : s.hwState h = hwFault) : Beside h s (s.tellDrained h ws) := by
  refine Beside.chainAll (P := fun t => t.hwState h = hwFault) ws _ (fun _ _ b hs => b.hwState.trans hs) (fun w t ht => ?_) s hf
  split
  · split
    · exact Beside.refl h t
    · rw [if_neg (by rw [ht]; decide)]
      exact updateFailed_beside (.inl ht)
  · exact tellWaiter_beside _ _ (.inl ht)

theorem updateWakes_beside {s : State} {h : Nat} (hf : s.hwState h = hwFault) : Beside h s (s.updateWakes h) := by
  unfold State.updateWakes
  split
  · exact updateFrom_beside (.inl hf)
  · exact Beside.refl h s

/-- The update does not wait for hewer `h`. -/
theorem updateWakes_off {s : State} {h : Nat} (hu : ∀ u, s.codec.update = some u → u.waits = false ∨ u.at_ ≠ h) : s.updateWakes h = s := by
  refine if_neg ?_
  rw [Option.any_eq_true]
  rintro ⟨u, hs, hw⟩
  rw [Bool.and_eq_true, decide_eq_true_eq] at hw
  rcases hu u hs with h1 | h1
  · rw [h1] at hw
    exact absurd hw.1 (by decide)
  · exact h1 hw.2

end Sys2Proof.Machine

/-! What a raise leaves of the hewers (R361 to R367): everything, or FATAL takes their units. -/

namespace Sys2Proof.Machine

/-- `t` has the walls, contexts and hewers of `s`, and every hewer its state. -/
structure SameHewers (s t : State) : Prop where
  codec : t.codec = s.codec
  state : ∀ h, t.hwState h = s.hwState h

namespace SameHewers
variable {s t u : State}

theorem refl (s : State) : SameHewers s s := ⟨rfl, fun _ => rfl⟩

theorem trans (a : SameHewers s t) (b : SameHewers t u) : SameHewers s u := ⟨b.codec.trans a.codec, fun h => (b.state h).trans (a.state h)⟩

theorem setF (a : SameHewers s t) (x : Fld) (i v : Nat) (h : F.HWR_STATUS_STATE.code ≠ x.code) : SameHewers s (t.setF x i v) := a.trans ⟨rfl, fun _ => State.f_setF_code _ _ _ _ _ _ h⟩

theorem off {fs : List Fld} (hc : t.codec = s.codec) (h : Off fs s t) (hfs : fs.all (fun y => F.HWR_STATUS_STATE.code != y.code) = true) : SameHewers s t := ⟨hc, fun i => h.at_ F.HWR_STATUS_STATE i hfs⟩

theorem count (a : SameHewers s t) (x : Fld) (i : Nat) (y : Fld) (j k : Nat) (hx : F.HWR_STATUS_STATE.code ≠ x.code) (hy : F.HWR_STATUS_STATE.code ≠ y.code) : SameHewers s (t.count x i y j k) :=
  a.trans ⟨codec_count t x i y j k, fun _ => State.f_count _ _ _ _ _ _ _ _ hx hy⟩

theorem chainAll {α : Type} (l : List α) (g : α → State → State) (hg : ∀ a t, SameHewers t (g a t)) (s : State) : SameHewers s (chainAll l g s) :=
  ⟨chainAll_keep State.codec l g (fun a t => (hg a t).codec) s, fun h => chainAll_keep (fun t => t.hwState h) l g (fun a t => (hg a t).state h) s⟩

theorem hewer (a : SameHewers s t) (h : Nat) : t.hewer h = s.hewer h := by rw [State.hewer, State.hewer, a.codec]

end SameHewers

theorem logEvent_same (s : State) (kind fsid cls inst : Nat) (d : List Byte) : SameHewers s (s.logEvent kind fsid cls inst d) :=
  ⟨codec_logEvent s kind fsid cls inst d, fun _ => logEvent_frame s kind fsid cls inst d _ (by unfold Fld.outside; decide)⟩

theorem markRaise_same (s : State) (fsid inst : Nat) : SameHewers s (s.markRaise fsid inst) := by
  have hcount : SameHewers s (s.fltCount fsid) := by
    unfold State.fltCount
    split
    · exact (SameHewers.refl s).count _ _ _ _ _ (by decide) (by decide)
    · exact (SameHewers.refl s).count _ _ _ _ _ (by decide) (by decide)
  exact (hcount.setF _ _ _ (by decide)).setF _ _ _ (by decide)

theorem codec_settleChan (s : State) (n : Nat) : (s.settleChan n).codec = s.codec := by
  have hbuf : ∀ t : State, (t.showBuf n).codec = t.codec := fun t => by unfold State.showBuf; split <;> rfl
  unfold State.settleChan
  simp only
  split_ifs <;> exact hbuf _

theorem refreshPort_same (s : State) (n : Nat) : SameHewers s (s.refreshPort n) := by
  refine ⟨?_, fun _ => refreshPort_frame s n _ (by unfold Fld.outside; decide)⟩
  have hdrop : ∀ (t : State) (d : Nat), (t.dropDisplay d).codec = t.codec := fun t d => by unfold State.dropDisplay; simp only; split <;> rfl
  unfold State.refreshPort
  simp only
  split
  · split
    · rw [hdrop, codec_settleChan]
      rfl
    · rw [codec_settleChan]
      rfl
  · split <;> rfl

theorem safeNow_same (s : State) (fsid : Nat) (sc : Bool) (l : List Nat) : SameHewers s (s.safeNow fsid sc l) := by
  unfold State.safeNow
  extract_lets ports t
  have hports : SameHewers s t := SameHewers.chainAll ports _ (fun n t => SameHewers.trans (t := t.setHolders n (if fsid ∈ t.holders n then t.holders n else fsid :: t.holders n)) ⟨rfl, fun _ => rfl⟩ (refreshPort_same _ n)) s
  exact hports.trans (logEvent_same _ _ _ _ _ _)

theorem graceRaise_same (s : State) (fsid inst : Nat) : SameHewers s (s.graceRaise fsid inst) := by
  unfold State.graceRaise
  split
  · exact ⟨rfl, fun _ => rfl⟩
  · next g => exact (SameHewers.trans (u := (s.withFlt (fun w => { w with grace := Tab.set none w.grace fsid (some _) }))) (.refl s) ⟨rfl, fun _ => rfl⟩).setF F.FLT_SRC_STATUS_GRACE fsid 1 (by decide)

theorem codec_freeLock (s : State) (n : Nat) : (s.freeLock n).codec = s.codec := by
  unfold State.freeLock State.setFreed
  simp only
  split_ifs <;> rfl

theorem freeLock_same (s : State) (n : Nat) : SameHewers s (s.freeLock n) := SameHewers.off (codec_freeLock s n) (freeLock_off s n) rfl

theorem breakLocksOf_same (s : State) (l : List Nat) : SameHewers s (s.breakLocksOf l) := by
  refine SameHewers.chainAll _ _ (fun n t => ?_) s
  unfold State.breakLock
  split_ifs
  · exact SameHewers.refl t
  · exact (freeLock_same t n).setF _ _ _ (by decide)
  · exact SameHewers.refl t

theorem cpReset_same (s : State) : SameHewers s s.cpReset := by
  refine ((breakLocksOf_same s [1, 2]).setF F.GLB_BOOT_STATUS_STAGE 0 0 (by decide)).trans (SameHewers.chainAll _ _ (fun m t => ?_) _)
  split
  · exact (SameHewers.refl t).setF _ _ _ (by decide)
  · exact SameHewers.refl t

-- ## FATAL, and the raise

/-- The hewers with no unit. -/
def dropRuns (l : Tab Hewer) : Tab Hewer := l.map (fun e => (e.1, { e.2 with run := none }))

/-- A raise leaves the hewers as they are, or FATAL takes their units. -/
def RaiseHewers (s t : State) : Prop := SameHewers s t ∨ (t.fatal = true ∧ t.codec.hewers = dropRuns s.codec.hewers)

theorem SameHewers.raise {s t u : State} (a : SameHewers s t) (b : RaiseHewers t u) : RaiseHewers s u :=
  b.imp a.trans fun ⟨hf, hh⟩ => ⟨hf, by rw [hh, a.codec]⟩

theorem clearStates_codec (s : State) : (chainAll (List.range 24) (fun h t => (t.setF F.HWR_STATUS_STATE h 0).setF F.HWR_STATUS_CTX h 0) s).codec = s.codec :=
  chainAll_keep State.codec _ _ (fun h t => by rw [codec_setF, codec_setF]) s

theorem hewersOut_hewers (s : State) : s.hewersOut.codec.hewers = dropRuns s.codec.hewers := by
  rw [State.hewersOut]
  generalize h : chainAll (List.range 24) (fun h t => (t.setF F.HWR_STATUS_STATE h 0).setF F.HWR_STATUS_CTX h 0) s = t
  rw [← clearStates_codec s, h]
  rfl

theorem enterFatal_hewers (s : State) (fsid : Nat) : RaiseHewers s (s.enterFatal fsid) := by
  by_cases h : s.fatal = true
  · rw [State.enterFatal, if_pos h]
    exact .inl (SameHewers.refl s)
  · refine .inr ⟨enterFatal_fatal s fsid, ?_⟩
    rw [enterFatal_new fsid (by simpa using h), State.refreshPorts, chainAll_keep State.codec _ _ (fun n t => (refreshPort_same t n).codec), hewersOut_hewers]
    have hmark : (s.markFatal fsid).codec = s.codec := by simp only [State.markFatal, State.withPwr_codec, codec_logEvent, codec_setF]
    rw [hmark]

theorem raiseFatal_hewers (s : State) (fsid inst : Nat) (d : List Byte) : RaiseHewers s (s.raiseFatal fsid inst d) :=
  ((markRaise_same s fsid inst).trans (logEvent_same _ _ _ _ _ _)).raise (enterFatal_hewers _ _)

theorem cpRestart_hewers (s : State) : RaiseHewers s s.cpRestart := by
  unfold State.cpRestart
  extract_lets recent flt fw s1 s2
  have h1 : SameHewers s s1 := ⟨rfl, fun _ => rfl⟩
  have h2 : SameHewers s s2 := h1.count F.FLT_CP_RESTARTS_COUNT 0 F.FLT_CNT_SAT_LO_SAT 0 0 (by decide) (by decide)
  split
  · exact raiseFatal_hewers _ _ _ _
  · exact .inl ((h2.setF F.FLT_STATUS_CP_RESTARTED 0 1 (by decide)).trans (cpReset_same _))

theorem raiseFault_hewers (s : State) (fsid inst : Nat) (d : List Byte) : RaiseHewers s (s.raiseFault fsid inst d) := by
  unfold State.raiseFault
  extract_lets cls s1 s2
  have h2 : SameHewers s s2 := by
    have h1 : SameHewers s s1 := markRaise_same s fsid inst
    unfold s2
    split
    · exact h1.trans (logEvent_same _ _ _ _ _ _)
    · exact h1
  split
  · exact raiseFatal_hewers _ _ _ _
  · split
    · exact .inl h2
    · split
      · exact .inl (h2.trans (safeNow_same _ _ _ _))
      · exact .inl (h2.trans (graceRaise_same _ _ _))
      · exact h2.raise (cpRestart_hewers _)
      · exact .inl h2

theorem get_dropRuns (l : Tab Hewer) (h : Nat) : Tab.get {} (dropRuns l) h = { Tab.get {} l h with run := none } := by
  induction l with
  | nil => rfl
  | cons e l ih =>
    obtain ⟨j, x⟩ := e
    show (if j = h then { x with run := none } else Tab.get {} (dropRuns l) h) = { (if j = h then x else Tab.get {} l h) with run := none }
    rw [ih]
    split <;> rfl

/-- A hewer without a unit stays as it is when a source raises, and in its state outside FATAL. -/
theorem RaiseHewers.stopped {s t : State} (g : RaiseHewers s t) {h : Nat} (hr : (s.hewer h).run = none) : t.hewer h = s.hewer h ∧ (t.fatal = false → t.hwState h = s.hwState h) := by
  rcases g with g | ⟨hf, hh⟩
  · exact ⟨g.hewer h, fun _ => g.state h⟩
  · refine ⟨?_, fun hnot => absurd (hf.symm.trans hnot) (by decide)⟩
    rw [State.hewer, hh, get_dropRuns]
    exact congrArg (fun r => { Tab.get {} s.codec.hewers h with run := r }) hr.symm

end Sys2Proof.Machine

/-! A hewer stops in FAULT (R146, R195 to R197). -/

namespace Sys2Proof.Machine

/-- The bits of HWR_FAULT, in the order of R195. -/
def faultBits : List Fld := [F.HWR_FAULT_TOKEN_OVF, F.HWR_FAULT_ADDR_RANGE, F.HWR_FAULT_BRANCH_FORM, F.HWR_FAULT_WAIT_TIMEOUT, F.HWR_FAULT_LM_UNCORR, F.HWR_FAULT_PARITY]

/-- HWR_FAULT_ADDR as a fault of hewer `h` finds it: the first fault keeps its address. -/
def State.keepAddr (s : State) (h cls addr : Nat) : State :=
  let clean := decide (s.f F.HWR_FAULT_TOKEN_OVF h + s.f F.HWR_FAULT_ADDR_RANGE h + s.f F.HWR_FAULT_BRANCH_FORM h + s.f F.HWR_FAULT_WAIT_TIMEOUT h + s.f F.HWR_FAULT_LM_UNCORR h + s.f F.HWR_FAULT_PARITY h = 0)
  if clean then (s.setF F.HWR_FAULT_ADDR_CLASS h cls).setF F.HWR_FAULT_ADDR_ADDR h addr else s

/-- The registers of a fault. -/
def State.faultRegs (s : State) (h : Nat) (y : Fld) (cls addr : Nat) : State :=
  (((s.keepAddr h cls addr).setF y h 1).setF F.HWR_STATUS_BS_WAIT h 0).setF F.HWR_STATUS_CTX h 0

/-- The hewer that a fault leaves; `was`: its state before. -/
def Hewer.stopped (w : Hewer) (now was : Nat) : Hewer :=
  { w with run := none, doneEvt := false, pixSelf := false, goOut := false, drainFor := [], testFor := .none, loading := none, loadFor := .none, patchEvt := w.patchEvt || decide (was = hwPatching), faults := now :: w.faults.filter (fun t => decide (now < t + 86400000000000)) }

/-- The hewer stands in FAULT. -/
def State.faultStopped (s : State) (h : Nat) (y : Fld) (cls addr was : Nat) : State :=
  let t := s.faultRegs h y cls addr
  (t.setHewer h ((s.hewer h).stopped t.now was)).setHwState h hwFault

/-- Those who wait for the hewer hear, and its unit goes back. `w`, `was`: the hewer and its state before. -/
def State.faultTold (s : State) (h was : Nat) (w : Hewer) : State :=
  let s := if was = hwDraining then s.tellDrained h w.drainFor else s
  let s := if was = hwPatching ∧ s.codec.update.isNone then s.freeLock 3 else s
  let s := ((s.tellWaiter w.testFor false).tellWaiter w.loadFor false).updateWakes h
  let s := match w.run with
    | some r => s.redoSlice r.what.ctx r
    | none => s
  s.reap

theorem hewerFault_eq (s : State) (h : Nat) (y : Fld) (fsid cls addr : Nat) :
    ∃ was d, s.hewerFault h y fsid cls addr = ((s.faultStopped h y cls addr was).faultTold h was (s.hewer h)).raiseFault fsid h d := by
  unfold State.hewerFault
  extract_lets w clean s1 s2 was s3 s4 s5 s6 s7 s8
  have e4 : s4 = s.faultStopped h y cls addr was := rfl
  clear_value s4
  have e8 : s8.reap = s4.faultTold h was w := rfl
  exact ⟨was, _, congrArg (fun t : State => t.raiseFault fsid h _) (e8.trans (congrArg (fun t : State => t.faultTold h was w) e4))⟩

-- ## The registers

theorem keepAddr_f (s : State) (h cls addr i : Nat) {x : Fld} (hx : x.outside [F.HWR_FAULT_ADDR_CLASS, F.HWR_FAULT_ADDR_ADDR]) : (s.keepAddr h cls addr).f x i = s.f x i := by
  unfold State.keepAddr
  dsimp only
  split
  · rw [State.f_setF_code _ _ _ _ _ _ (hx _ (by simp)), State.f_setF_code _ _ _ _ _ _ (hx _ (by simp))]
  · rfl

theorem keepAddr_first {s : State} {h : Nat} (cls addr : Nat) (hz : ∀ z ∈ faultBits, s.f z h = 0) :
    (s.keepAddr h cls addr).f F.HWR_FAULT_ADDR_CLASS h = cls % 2 ∧ (s.keepAddr h cls addr).f F.HWR_FAULT_ADDR_ADDR h = addr % 32768 := by
  have hclean : s.keepAddr h cls addr = (s.setF F.HWR_FAULT_ADDR_CLASS h cls).setF F.HWR_FAULT_ADDR_ADDR h addr := by
    refine if_pos (decide_eq_true ?_)
    simp only [faultBits, List.forall_mem_cons] at hz
    obtain ⟨h1, h2, h3, h4, h5, h6, -⟩ := hz
    rw [h1, h2, h3, h4, h5, h6]
  rw [hclean]
  exact ⟨(State.f_setF_code _ _ _ _ _ _ (by decide)).trans (State.f_setF_same _ _ _ _), State.f_setF_same _ _ _ _⟩

theorem faultStopped_hewer (s : State) (h : Nat) (y : Fld) (cls addr was : Nat) : ∃ now, (s.faultStopped h y cls addr was).hewer h = (s.hewer h).stopped now was :=
  ⟨_, ((refreshCapacity_seq _).hewer h).trans (hewer_setHewer _ _ _)⟩

theorem faultStopped_f {s : State} {h : Nat} {y : Fld} {cls addr was : Nat} {x : Fld} (hx : x ∈ seqFields) (i : Nat) :
    (s.faultStopped h y cls addr was).f x i = ((s.faultRegs h y cls addr).setF F.HWR_STATUS_STATE h hwFault).f x i :=
  (refreshCapacity_seq _).f x i hx

theorem faultStopped_state (s : State) (h : Nat) (y : Fld) (cls addr was : Nat) : (s.faultStopped h y cls addr was).hwState h = hwFault :=
  (faultStopped_f (by decide) h).trans (State.f_setF_same _ _ _ _)

-- ## The unit goes back

theorem redoSlice_seq (s : State) (c : Nat) (r : Run) : SeqKeeps s (s.redoSlice c r) := by
  have hagain : ∀ {t : State} (x : Ready), SeqKeeps s t → SeqKeeps s ((t.withCodec (fun w => { w with ready := w.ready ++ [x] })).stat c stRedispatch 1) := fun x ht => (ht.codec _ rfl rfl).stat _ _ _
  unfold State.redoSlice
  extract_lets again k n whole inQueue src s1 s2
  have h1 : SeqKeeps s s1 := (setQueue_seq s c _).trans (settle_seq _ _)
  have h2 : SeqKeeps s s2 := SeqKeeps.ite (h1.modCtx c _) h1
  clear_value s1 s2
  split
  · split
    · exact SeqKeeps.refl s
    · exact SeqKeeps.ite ((SeqKeeps.refl s).modCtx c _) ((abandonBuild_seq s c _).stat c _ _)
  · exact SeqKeeps.ite (hagain _ (.refl s)) (SeqKeeps.ite (hagain _ (.refl s)) (SeqKeeps.ite (hagain _ h2) (hagain _ (h2.modCtx c _))))

/-- What follows the fault leaves the hewer in FAULT. -/
theorem faultTold_beside {s : State} {h : Nat} (was : Nat) (w : Hewer) (hf : s.hwState h = hwFault) : Beside h s (s.faultTold h was w) := by
  unfold State.faultTold
  extract_lets s1 s2 s3 s4
  have h1 : Beside h s s1 := by
    unfold s1
    split
    · exact tellDrained_beside _ hf
    · exact Beside.refl h s
  have h2 : Beside h s s2 := by
    unfold s2
    split
    · exact h1.keeps (freeLock_seq _ _)
    · exact h1
  have hstate : ∀ {t : State}, Beside h s t → t.hwState h = hwFault := fun b => b.hwState.trans hf
  have h3 : Beside h s s3 := by
    have ht := h2.trans (tellWaiter_beside w.testFor false (.inl (hstate h2)))
    have hl := ht.trans (tellWaiter_beside w.loadFor false (.inl (hstate ht)))
    exact hl.trans (updateWakes_beside (hstate hl))
  have h4 : Beside h s s4 := by
    unfold s4
    split
    · exact h3.keeps (redoSlice_seq _ _ _)
    · exact h3
  exact h4.keeps (reap_seq _)

-- ## The fault as a whole

/-- The registers that a raise of a source of the hewers leaves as they are. -/
def hewerFaultRegs : List Fld := F.HWR_STATUS_BS_WAIT :: F.HWR_FAULT_ADDR_CLASS :: F.HWR_FAULT_ADDR_ADDR :: faultBits

theorem hewerFaultRegs_outside : ∀ x ∈ hewerFaultRegs, x.outside raiseFields := by
  unfold Fld.outside
  decide

theorem hewerFaultRegs_seq : ∀ x ∈ hewerFaultRegs, x ∈ seqFields := by decide

/-- Before the raise: the hewer in FAULT, with its registers. -/
theorem faultTold_stopped (s : State) (h : Nat) (y : Fld) (cls addr was : Nat) :
    let t := (s.faultStopped h y cls addr was).faultTold h was (s.hewer h)
    (∃ now, t.hewer h = (s.hewer h).stopped now was) ∧ t.hwState h = hwFault ∧ ∀ x ∈ hewerFaultRegs, t.f x h = (s.faultRegs h y cls addr).f x h := by
  obtain ⟨now, hnow⟩ := faultStopped_hewer s h y cls addr was
  have hb := faultTold_beside (h := h) was (s.hewer h) (faultStopped_state s h y cls addr was)
  refine ⟨⟨now, hb.hewer.trans hnow⟩, hb.hwState.trans (faultStopped_state s h y cls addr was), fun x hx => ?_⟩
  rw [hb.regs x (hewerFaultRegs_seq x hx), faultStopped_f (hewerFaultRegs_seq x hx)]
  exact State.f_setF_code _ _ _ _ _ _ ((by decide : ∀ z ∈ hewerFaultRegs, z.code ≠ F.HWR_STATUS_STATE.code) x hx)

theorem faultRegs_bit (s : State) {h : Nat} {y : Fld} (cls addr : Nat) (hy : y ∈ faultBits) : (s.faultRegs h y cls addr).f y h = 1 := by
  obtain ⟨hwait, hctx, hlen⟩ := (by decide : ∀ z ∈ faultBits, z.code ≠ F.HWR_STATUS_BS_WAIT.code ∧ z.code ≠ F.HWR_STATUS_CTX.code ∧ z.len = 1) y hy
  rw [State.faultRegs, State.f_setF_code _ _ _ _ _ _ hctx, State.f_setF_code _ _ _ _ _ _ hwait, State.f_setF_same, hlen]
  rfl

theorem faultRegs_wait (s : State) (h : Nat) (y : Fld) (cls addr : Nat) : (s.faultRegs h y cls addr).f F.HWR_STATUS_BS_WAIT h = 0 := by
  rw [State.faultRegs, State.f_setF_code _ _ _ _ _ _ (by decide), State.f_setF_same]
  rfl

/-- HWR_FAULT_ADDR is as the first fault leaves it. -/
theorem faultRegs_addr (s : State) {h : Nat} {y x : Fld} (cls addr : Nat) (hy : y ∈ faultBits) (hx : x ∈ [F.HWR_FAULT_ADDR_CLASS, F.HWR_FAULT_ADDR_ADDR]) :
    (s.faultRegs h y cls addr).f x h = (s.keepAddr h cls addr).f x h := by
  obtain ⟨hwait, hctx, hbits⟩ := (by decide : ∀ x ∈ [F.HWR_FAULT_ADDR_CLASS, F.HWR_FAULT_ADDR_ADDR], x.code ≠ F.HWR_STATUS_BS_WAIT.code ∧ x.code ≠ F.HWR_STATUS_CTX.code ∧ ∀ z ∈ faultBits, x.code ≠ z.code) x hx
  rw [State.faultRegs, State.f_setF_code _ _ _ _ _ _ hctx, State.f_setF_code _ _ _ _ _ _ hwait, State.f_setF_code _ _ _ _ _ _ (hbits y hy)]

/-- A fault of hewer `h` in a state that has the registers of faults of `s0`. -/
theorem hewerFault_stops {s s0 : State} {h : Nat} {y : Fld} (fsid : Nat) {cls : Nat} (addr : Nat) (hh : h < 24) (hc : cls < 2) (hy : y ∈ faultBits) (hs : ∀ z ∈ faultBits, s.f z h = s0.f z h) (hn : fsid ≠ 34) :
    HewerStops s0 (s.hewerFault h y fsid cls addr) h y fsid cls addr ∧ ((s.hewerFault h y fsid cls addr).hewer h).loading = none := by
  obtain ⟨was, d, he⟩ := hewerFault_eq s h y fsid cls addr
  obtain ⟨⟨now, hnow⟩, hstate, hregs⟩ := faultTold_stopped s h y cls addr was
  rw [he]
  generalize (s.faultStopped h y cls addr was).faultTold h was (s.hewer h) = t at hnow hstate hregs ⊢
  obtain ⟨hhewer, hst⟩ := (raiseFault_hewers t fsid h d).stopped (h := h) (by rw [hnow]; rfl)
  have hreg : ∀ x ∈ hewerFaultRegs, (t.raiseFault fsid h d).f x h = (s.faultRegs h y cls addr).f x h := fun x hx => (State.raiseFault_f _ _ _ _ _ _ (hewerFaultRegs_outside x hx)).trans (hregs x hx)
  refine ⟨⟨?_, ?_, ?_, fun hf => (hst hf).trans hstate, State.raiseFault_active _ _ _ _, ?_, fun hz => ?_⟩, ?_⟩
  · rw [hreg y (List.mem_cons_of_mem _ (List.mem_cons_of_mem _ (List.mem_cons_of_mem _ hy))), faultRegs_bit s cls addr hy]
  · rw [hreg _ (by simp [hewerFaultRegs]), faultRegs_wait]
  · rw [hhewer, hnow]
    rfl
  · rw [raiseFault_instance _ _ _ hn, Nat.mod_eq_of_lt (by omega)]
  · obtain ⟨hcls, haddr⟩ := keepAddr_first (s := s) cls addr fun z hz' => (hs z hz').trans (hz z hz')
    rw [hreg _ (by simp [hewerFaultRegs]), hreg _ (by simp [hewerFaultRegs]), faultRegs_addr s cls addr hy (by simp), faultRegs_addr s cls addr hy (by simp), hcls, haddr, Nat.mod_eq_of_lt hc]
    exact ⟨rfl, rfl⟩
  · rw [hhewer, hnow]
    rfl

end Sys2Proof.Machine

/-! How a word is fetched, issues, and completes work (R177, R180 to R186). -/

namespace Sys2Proof.Machine

-- ## The fetch

/-- The next address of word `w`, as its conditions stand. -/
def State.nextAddr (s : State) (h q w : Nat) : Nat := mwNext w ||| (List.range 4).foldl (fun a i => if s.condNow h q (mwCount q w) (mwCond w i) then a + 2 ^ i else a) 0

/-- The word at the address of sequencer `q`. -/
def State.wordAt (s : State) (h q : Nat) : Nat := s.microword h ((s.hewer h).pc q)

/-- A bitstream word waits. -/
def State.wordWaits (s : State) (h q : Nat) : Bool :=
  decide (q = 1) && mwWaitEn (s.wordAt h q) && (decide (mwWaitSel (s.wordAt h q) = 0) || !s.condNow h q (mwCount q (s.wordAt h q)) (mwWaitSel (s.wordAt h q)))

section
variable {s : State} {h q : Nat}

theorem fetched_idle (hs : s.sequencing h = false) : s.fetched h q = .idle := if_pos (by rw [hs]; rfl)

theorem fetched_runs (hs : s.sequencing h = true) : s.fetched h q =
    (if !parityOk (s.wordAt h q) then .fails F.HWR_FAULT_PARITY 10 ((s.hewer h).pc q)
    else if !branchFormOk (s.wordAt h q) then .fails F.HWR_FAULT_BRANCH_FORM 12 ((s.hewer h).pc q)
    else if s.wordWaits h q then .waits
    else if 0x4400 ≤ s.nextAddr h q (s.wordAt h q) then .fails F.HWR_FAULT_ADDR_RANGE 13 (s.nextAddr h q (s.wordAt h q)) else .goes (s.wordAt h q) (s.nextAddr h q (s.wordAt h q))) :=
  if_neg (by rw [hs]; decide)

theorem fetched_parity (hs : s.sequencing h = true) (hp : parityOk (s.wordAt h q) = false) : s.fetched h q = .fails F.HWR_FAULT_PARITY 10 ((s.hewer h).pc q) := by
  rw [fetched_runs hs, hp]
  rfl

theorem fetched_form (hs : s.sequencing h = true) (hp : parityOk (s.wordAt h q) = true) (hb : branchFormOk (s.wordAt h q) = false) : s.fetched h q = .fails F.HWR_FAULT_BRANCH_FORM 12 ((s.hewer h).pc q) := by
  rw [fetched_runs hs, hp, hb]
  rfl

theorem fetched_waits (hs : s.sequencing h = true) (hp : parityOk (s.wordAt h q) = true) (hb : branchFormOk (s.wordAt h q) = true) (hw : s.wordWaits h q = true) : s.fetched h q = .waits := by
  rw [fetched_runs hs, hp, hb, hw]
  rfl

theorem fetched_range (hs : s.sequencing h = true) (hp : parityOk (s.wordAt h q) = true) (hb : branchFormOk (s.wordAt h q) = true) (hw : s.wordWaits h q = false) (hn : 0x4400 ≤ s.nextAddr h q (s.wordAt h q)) :
    s.fetched h q = .fails F.HWR_FAULT_ADDR_RANGE 13 (s.nextAddr h q (s.wordAt h q)) := by
  rw [fetched_runs hs, hp, hb, hw, if_neg (by decide), if_neg (by decide), if_neg (by decide), if_pos hn]

theorem fetched_goes (hs : s.sequencing h = true) (hp : parityOk (s.wordAt h q) = true) (hb : branchFormOk (s.wordAt h q) = true) (hw : s.wordWaits h q = false) (hn : s.nextAddr h q (s.wordAt h q) < 0x4400) :
    s.fetched h q = .goes (s.wordAt h q) (s.nextAddr h q (s.wordAt h q)) := by
  rw [fetched_runs hs, hp, hb, hw, if_neg (by decide), if_neg (by decide), if_neg (by decide), if_neg (by omega)]

/-- A word that waits is the only one for which the fetch waits. -/
theorem fetched_ne_waits (hw : s.wordWaits h q = false) : s.fetched h q ≠ .waits := by
  by_cases hs : s.sequencing h = true
  · rw [fetched_runs hs, hw]
    split
    · simp
    · split
      · simp
      · rw [if_neg (by decide)]
        split <;> simp
  · rw [fetched_idle (by simpa using hs)]
    simp

/-- A pixel word never waits. -/
theorem wordWaits_pixel : s.wordWaits h 0 = false := rfl

theorem wordWaits_open (hw : mwWaitEn (s.wordAt h 1) = false ∨ (mwWaitSel (s.wordAt h 1) ≠ 0 ∧ s.condNow h 1 (mwCount 1 (s.wordAt h 1)) (mwWaitSel (s.wordAt h 1)) = true)) : s.wordWaits h 1 = false := by
  unfold State.wordWaits
  rcases hw with hw | ⟨hsel, hc⟩
  · rw [hw]
    rfl
  · rw [hc, decide_eq_false hsel]
    simp

theorem wordWaits_shut (he : mwWaitEn (s.wordAt h 1) = true) (hw : mwWaitSel (s.wordAt h 1) = 0 ∨ s.condNow h 1 (mwCount 1 (s.wordAt h 1)) (mwWaitSel (s.wordAt h 1)) = false) : s.wordWaits h 1 = true := by
  unfold State.wordWaits
  rw [he]
  rcases hw with hw | hw
  · rw [decide_eq_true hw]
    rfl
  · rw [hw]
    simp

end

-- ## The issue

/-- A hewer after the issue of word `w` of sequencer `q`, before its event. -/
def Hewer.issue (x : Hewer) (q w next k : Nat) : Hewer :=
  if q = 0 then { (x.consume q w).loop q w k with pixPc := next, pixSelf := decide (next = x.pixPc) }
  else { (x.consume q w).loop q w k with bsPc := next, bioIn := x.bioIn || decide (mwBio w ≠ .none ∧ mwBio w ≠ .write), bioOut := x.bioOut || decide (mwBio w = .write) }

/-- The state after the issue of a word, before its event. -/
def State.issued (s : State) (h q w next : Nat) : State :=
  ((if q = 1 then s.setF F.HWR_STATUS_BS_WAIT h 0 else s).setHewer h ((s.hewer h).issue q w next s.free)).draw

theorem issueWord_eq (s : State) (h q w next : Nat) : s.issueWord h q w next = (s.issued h q w next).microEvent h q (mwEvt w) (s.hewer h) := rfl

theorem issued_hewer (s : State) (h q w next : Nat) : (s.issued h q w next).hewer h = (s.hewer h).issue q w next s.free := hewer_setHewer _ _ _

theorem issued_f (s : State) (h q w next : Nat) {x : Fld} (i : Nat) (hx : x.code ≠ F.HWR_STATUS_BS_WAIT.code) : (s.issued h q w next).f x i = s.f x i := by
  unfold State.issued
  split
  · exact State.f_setF_code _ _ _ _ _ _ hx
  · rfl

theorem issued_wait (s : State) (h w next : Nat) : (s.issued h 1 w next).f F.HWR_STATUS_BS_WAIT h = 0 := State.f_setF_same _ _ _ _

/-- What the issue of a word leaves of a hewer. -/
theorem issue_keeps (x : Hewer) (q w next k : Nat) : (x.issue q w next k).lm = x.lm ∧ (x.issue q w next k).run = x.run ∧ (x.issue q w next k).doneEvt = x.doneEvt := by
  unfold Hewer.issue
  split <;> exact ⟨rfl, rfl, rfl⟩

/-- The tokens of the other sequencer stay. -/
theorem issue_token (x : Hewer) {q w i : Nat} (next k : Nat) (hi : i < 8) (hq : i / 4 ≠ q) : (x.issue q w next k).tokens.getD i 0 = x.tokens.getD i 0 ∧ i < (x.issue q w next k).tokens.length := by
  have htok : (x.issue q w next k).tokens = (x.consume q w).tokens := by
    unfold Hewer.issue
    split <;> rfl
  rw [htok]
  unfold Hewer.consume
  dsimp only
  have hlen : i < ((List.range 8).map (fun i => if i / 4 = q ∧ 5 + i % 4 ∈ ((List.range 4).map (mwCond w)) ++ (if q = 1 ∧ mwWaitEn w = true then [mwWaitSel w] else []) then x.tokens.getD i 0 - 1 else x.tokens.getD i 0)).length := by
    simpa using hi
  refine ⟨?_, hlen⟩
  rw [List.getD_eq_getElem _ _ hlen, List.getElem_map, List.getElem_range, if_neg fun hc => hq hc.1]

-- ## Local memory

theorem hewer_lmAccess (s : State) (h : Nat) {m : LmUse} (hm : m.check = .clean) : s.lmAccess h m = s.setHewer h ((s.hewer h).access m) := by
  unfold State.lmAccess
  dsimp only
  rw [hm, if_neg (by decide)]

theorem access_pc (x : Hewer) (m : LmUse) (q : Nat) : (x.access m).pc q = x.pc q := rfl

-- ## A word issues, and work follows

section
variable {s : State} {h q : Nat} {m : LmUse} {work : State → State}

theorem wordIssue_idle (hs : s.sequencing h = false) (hp : s.hwState h ≠ hwPatching ∨ m.check ≠ .uncorrected) : s.wordIssue h q m work = s := by
  unfold State.wordIssue
  rw [fetched_idle hs]
  exact if_neg fun hc => hp.elim (fun n => n hc.1) (fun n => n hc.2)

theorem wordIssue_load (hs : s.sequencing h = false) (hp : s.hwState h = hwPatching) (hm : m.check = .uncorrected) : s.wordIssue h q m work = s.lmFault h q := by
  unfold State.wordIssue
  rw [fetched_idle hs]
  exact if_pos ⟨hp, hm⟩

theorem wordIssue_fails {y : Fld} {fsid addr : Nat} (hf : s.fetched h q = .fails y fsid addr) : s.wordIssue h q m work = s.hewerFault h y fsid q addr := by
  unfold State.wordIssue
  rw [hf]

theorem wordIssue_waits (hf : s.fetched h q = .waits) : s.wordIssue h q m work = s.setF F.HWR_STATUS_BS_WAIT h 1 := by
  unfold State.wordIssue
  rw [hf]

theorem wordIssue_uncorrected {w next : Nat} (hf : s.fetched h q = .goes w next) (hm : m.check = .uncorrected) : s.wordIssue h q m work = s.lmFault h q := by
  unfold State.wordIssue
  rw [hf]
  exact if_pos hm

theorem wordIssue_goes {w next : Nat} (hf : s.fetched h q = .goes w next) (hm : m.check ≠ .uncorrected) : s.wordIssue h q m work = work ((s.lmAccess h m).issueWord h q w next) := by
  unfold State.wordIssue
  rw [hf]
  exact if_neg hm

/-- A word that uses local memory without an error. -/
theorem wordIssue_clean {w next : Nat} (hf : s.fetched h q = .goes w next) (hm : m.check = .clean) :
    s.wordIssue h q m work = work (((s.setHewer h ((s.hewer h).access m)).issued h q w next).microEvent h q (mwEvt w) ((s.hewer h).access m)) := by
  rw [wordIssue_goes hf (by rw [hm]; decide), hewer_lmAccess s h hm, issueWord_eq, hewer_setHewer]

end

end Sys2Proof.Machine

/-! The words of the sequencers, by how their fetch and their use of local memory go (R177, R180 to R185). -/

namespace Sys2Proof.Machine

-- ## A table written twice

theorem Tab.del_ins {α : Type} (t : Tab α) (k : Nat) (v : α) : Tab.del (Tab.ins t k v) k = Tab.del t k := by
  induction t with
  | nil => simp [Tab.ins, Tab.del]
  | cons e t ih =>
    obtain ⟨j, u⟩ := e
    unfold Tab.ins
    split
    · simp [Tab.del]
    · unfold Tab.del at ih ⊢
      rw [List.filter_cons, List.filter_cons, ih]

theorem Tab.set_set {α : Type} [DecidableEq α] (d : α) (t : Tab α) (k : Nat) (a b : α) : Tab.set d (Tab.set d t k a) k b = Tab.set d t k b := by
  have hdel : Tab.del (Tab.set d t k a) k = Tab.del t k := by
    have htwice : Tab.del (Tab.del t k) k = Tab.del t k := by simp [Tab.del]
    unfold Tab.set
    split
    · exact htwice
    · rw [Tab.del_ins, htwice]
  rw [Tab.set, hdel, Tab.set]

theorem setHewer_setHewer (s : State) (h : Nat) (x y : Hewer) : (s.setHewer h x).setHewer h y = s.setHewer h y :=
  congrArg (fun l : Tab Hewer => s.withCodec (fun k => { k with hewers := l })) (Tab.set_set _ _ _ _ _)

-- ## The fetches of the statement

section
variable {s : State} {h w nx : Nat}

theorem pixGoes (hs : s.sequencing h = true) (hw : w = s.microword h (s.hewer h).pixPc) (hp : parityOk w = true) (hb : branchFormOk w = true)
    (hnx : nx = mwNext w ||| (List.range 4).foldl (fun a i => if s.condNow h 0 0 (mwCond w i) then a + 2 ^ i else a) 0) (hlt : nx < 0x4400) : s.fetched h 0 = .goes w nx := by
  subst hw hnx
  exact fetched_goes hs hp hb wordWaits_pixel hlt

theorem pixRange (hs : s.sequencing h = true) (hw : w = s.microword h (s.hewer h).pixPc) (hp : parityOk w = true) (hb : branchFormOk w = true)
    (hnx : nx = mwNext w ||| (List.range 4).foldl (fun a i => if s.condNow h 0 0 (mwCond w i) then a + 2 ^ i else a) 0) (hge : 0x4400 ≤ nx) : s.fetched h 0 = .fails F.HWR_FAULT_ADDR_RANGE 13 nx := by
  subst hw hnx
  exact fetched_range hs hp hb wordWaits_pixel hge

theorem bitGoes (hs : s.sequencing h = true) (hw : w = s.microword h (s.hewer h).bsPc) (hp : parityOk w = true) (hb : branchFormOk w = true)
    (ho : mwWaitEn w = false ∨ (mwWaitSel w ≠ 0 ∧ s.condNow h 1 (mwCount 1 w) (mwWaitSel w) = true))
    (hnx : nx = mwNext w ||| (List.range 4).foldl (fun a i => if s.condNow h 1 (mwCount 1 w) (mwCond w i) then a + 2 ^ i else a) 0) (hlt : nx < 0x4400) : s.fetched h 1 = .goes w nx := by
  subst hw hnx
  exact fetched_goes hs hp hb (wordWaits_open ho) hlt

theorem bitRange (hs : s.sequencing h = true) (hw : w = s.microword h (s.hewer h).bsPc) (hp : parityOk w = true) (hb : branchFormOk w = true)
    (ho : mwWaitEn w = false ∨ (mwWaitSel w ≠ 0 ∧ s.condNow h 1 (mwCount 1 w) (mwWaitSel w) = true))
    (hnx : nx = mwNext w ||| (List.range 4).foldl (fun a i => if s.condNow h 1 (mwCount 1 w) (mwCond w i) then a + 2 ^ i else a) 0) (hge : 0x4400 ≤ nx) : s.fetched h 1 = .fails F.HWR_FAULT_ADDR_RANGE 13 nx := by
  subst hw hnx
  exact fetched_range hs hp hb (wordWaits_open ho) hge

end

theorem exec_pixelWordIssue {h : Nat} (hh : h < 24) (k : PixelWork) (m : LmUse) (s : State) : exec (.pixelWordIssue h k m) s = .next (s.wordIssue h 0 m (fun t => t.pixelWork h k)) :=
  onInstance_of (decide_eq_true hh) _

theorem exec_bitstreamWordIssue {h : Nat} (hh : h < 24) (k : BitWork) (m : LmUse) (s : State) : exec (.bitstreamWordIssue h k m) s = .next (s.wordIssue h 1 m (fun t => t.bitWork h k)) :=
  onInstance_of (decide_eq_true hh) _

-- ## Words that issue

/-- A hewer with the event of a word: DONE is posted by event 1. -/
def Hewer.marked (x : Hewer) (evt : Nat) : Hewer := { x with doneEvt := x.doneEvt || decide (evt = 1) }

section
variable {s : State} {h q : Nat} {m : LmUse} {work : State → State} (hwork : ∀ t : State, RunSteps t (work t))
include hwork

/-- A word without a post of a token, in a clean use of local memory. -/
theorem issues_clean {w next : Nat} (hf : s.fetched h q = .goes w next) (hm : m.check = .clean) (he : mwEvt w < 4) :
    ((s.wordIssue h q m work).hewer h).core = ((((s.hewer h).access m).issue q w next s.free).marked (mwEvt w)).core ∧
      ∀ x ∈ seqFields, ∀ i, (s.wordIssue h q m work).f x i = ((s.setHewer h ((s.hewer h).access m)).issued h q w next).f x i := by
  rw [wordIssue_clean hf hm]
  have hown : ((s.setHewer h ((s.hewer h).access m)).issued h q w next).hewer h = ((s.hewer h).access m).issue q w next s.free := by
    rw [issued_hewer, hewer_setHewer]
    rfl
  generalize (s.setHewer h ((s.hewer h).access m)).issued h q w next = t at hown ⊢
  by_cases h1 : mwEvt w = 1
  · have hstep := hwork (t.microEvent h q (mwEvt w) ((s.hewer h).access m))
    refine ⟨(hstep.core h).trans ?_, fun x hx i => (hstep.f x i hx).trans ?_⟩
    · rw [h1]
      simp only [State.microEvent, hewer_setHewer, hown]
      rw [Hewer.marked, decide_eq_true rfl, Bool.or_true]
    · rw [h1]
      rfl
  · have hstep := (microEvent_steps t h q ((s.hewer h).access m) he h1).trans (hwork _)
    refine ⟨(hstep.core h).trans ?_, fun x hx i => hstep.f x i hx⟩
    rw [hown, Hewer.marked, decide_eq_false h1, Bool.or_false]

/-- A word whose use of local memory meets an error that is corrected. -/
theorem issues_corrected {w next : Nat} (hh : h < 24) (hf : s.fetched h q = .goes w next) (hm : m.check = .corrected) (he : mwEvt w = 0) :
    (s.wordIssue h q m work).f F.HWR_LM_CORR_COUNT h = min (s.f F.HWR_LM_CORR_COUNT h + 1) (2 ^ 32 - 1) ∧ (s.wordIssue h q m work).f F.FLT_SRC_STATUS_ACTIVE 16 = 1 ∧
      (s.wordIssue h q m work).f F.FLT_SRC_STATUS_INSTANCE 16 = h ∧ ∃ (x : Hewer) (k : Nat), ((s.wordIssue h q m work).hewer h).core = (x.issue q w next k).core := by
  rw [wordIssue_goes hf (by rw [hm]; decide), issueWord_eq, he]
  obtain ⟨t, hcount, ht⟩ : ∃ t : State, t.f F.HWR_LM_CORR_COUNT h = min (s.f F.HWR_LM_CORR_COUNT h + 1) (2 ^ 32 - 1) ∧ s.lmAccess h m = t.raiseFault 16 h [] := by
    refine ⟨(s.setHewer h ((s.hewer h).access m)).count F.HWR_LM_CORR_COUNT h F.HWR_CNT_SAT_LM_CORR_SAT h 0, State.f_count_same _ _ _ _ _ _ (by decide), ?_⟩
    unfold State.lmAccess
    exact if_pos hm
  have hstep := hwork ((s.lmAccess h m).issued h q w next)
  have hreg : ∀ x ∈ [F.HWR_LM_CORR_COUNT, F.FLT_SRC_STATUS_ACTIVE, F.FLT_SRC_STATUS_INSTANCE], ∀ i, (work ((s.lmAccess h m).issued h q w next)).f x i = (t.raiseFault 16 h []).f x i := by
    intro x hx i
    obtain ⟨hseq, hwait⟩ := (by decide : ∀ x ∈ [F.HWR_LM_CORR_COUNT, F.FLT_SRC_STATUS_ACTIVE, F.FLT_SRC_STATUS_INSTANCE], x ∈ seqFields ∧ x.code ≠ F.HWR_STATUS_BS_WAIT.code) x hx
    rw [hstep.f x i hseq, issued_f _ _ _ _ _ _ hwait, ht]
  refine ⟨?_, ?_, ?_, (s.lmAccess h m).hewer h, (s.lmAccess h m).free, ?_⟩
  · exact (hreg _ (by simp) h).trans ((State.raiseFault_f _ _ _ _ _ _ (by unfold Fld.outside; decide)).trans hcount)
  · exact (hreg _ (by simp) 16).trans (State.raiseFault_active _ _ _ _)
  · refine (hreg _ (by simp) 16).trans ((raiseFault_instance _ _ _ (by decide)).trans (Nat.mod_eq_of_lt (by omega)))
  · exact (hstep.core h).trans (congrArg Hewer.core (issued_hewer _ _ _ _ _))

end

theorem mwEvt_lt (w : Nat) : mwEvt w < 8 := Nat.mod_lt _ (by decide)

/-- A hewer with the tokens `l`. -/
def Hewer.withTokens (x : Hewer) (l : List Nat) : Hewer := { x with tokens := l }

/-- The token to which event `e` of sequencer `q` posts. -/
theorem microEvent_posts (s : State) (h q : Nat) {e : Nat} (w0 : Hewer) (he : 4 ≤ e) : s.microEvent h q e w0 =
    (if 15 ≤ (s.hewer h).tokens.getD (4 * (1 - q) + (e - 4)) 0 then s.hewerFault h F.HWR_FAULT_TOKEN_OVF 14 q (w0.pc q)
    else s.setHewer h ((s.hewer h).withTokens ((s.hewer h).tokens.set (4 * (1 - q) + (e - 4)) ((s.hewer h).tokens.getD (4 * (1 - q) + (e - 4)) 0 + 1)))) := by
  match e, he with
  | _ + 4, _ => rfl

/-- Work on units leaves a stopped hewer as it is. -/
theorem HewerStops.steps {s t u : State} {h fsid q addr : Nat} {y : Fld} (hy : y ∈ faultBits) (g : HewerStops s t h y fsid q addr) (hstep : RunSteps t u) : HewerStops s u h y fsid q addr := by
  obtain ⟨hbit, hwait, hrun, hstate, hactive, hinst, haddr⟩ := g
  have hfatal : u.fatal = t.fatal := by
    unfold State.fatal State.fb
    rw [hstep.f _ _ (by decide)]
  refine ⟨(hstep.f y h ((by decide : ∀ y ∈ faultBits, y ∈ seqFields) y hy)).trans hbit, (hstep.f _ h (by decide)).trans hwait, ?_, fun hf => (hstep.f _ h (by decide)).trans (hstate (hfatal ▸ hf)),
    (hstep.f _ fsid (by decide)).trans hactive, (hstep.f _ fsid (by decide)).trans hinst, fun hz => ?_⟩
  · have hsome := hstep.runs h
    rw [hrun] at hsome
    exact Option.not_isSome_iff_eq_none.mp (by rw [hsome]; decide)
  · obtain ⟨hcls, ha⟩ := haddr hz
    exact ⟨(hstep.f _ h (by decide)).trans hcls, (hstep.f _ h (by decide)).trans ha⟩

/-- A word that posts a token to the other sequencer. -/
theorem posts {s : State} {h q : Nat} {m : LmUse} {work : State → State} (hwork : ∀ t : State, RunSteps t (work t)) {w next i : Nat} (hh : h < 24) (hq : q < 2)
    (hf : s.fetched h q = .goes w next) (hm : m.check = .clean) (he : 4 ≤ mwEvt w) (hi : i = 4 * (1 - q) + (mwEvt w - 4)) :
    ((s.hewer h).tokens.getD i 0 < 15 → ((s.wordIssue h q m work).hewer h).tokens.getD i 0 = (s.hewer h).tokens.getD i 0 + 1 ∧
        ∃ l, ((s.wordIssue h q m work).hewer h).core = ((((s.hewer h).access m).issue q w next s.free).withTokens l).core) ∧
      (15 ≤ (s.hewer h).tokens.getD i 0 → HewerStops s (s.wordIssue h q m work) h F.HWR_FAULT_TOKEN_OVF 14 q ((s.hewer h).pc q)) := by
  have hown : ((s.setHewer h ((s.hewer h).access m)).issued h q w next).hewer h = ((s.hewer h).access m).issue q w next s.free := by
    rw [issued_hewer, hewer_setHewer]
    rfl
  have hregs : ∀ z ∈ faultBits, ((s.setHewer h ((s.hewer h).access m)).issued h q w next).f z h = s.f z h := fun z hz =>
    issued_f _ _ _ _ _ _ ((by decide : ∀ z ∈ faultBits, z.code ≠ F.HWR_STATUS_BS_WAIT.code) z hz)
  obtain ⟨htok, hlen⟩ : (((s.hewer h).access m).issue q w next s.free).tokens.getD i 0 = (s.hewer h).tokens.getD i 0 ∧ i < (((s.hewer h).access m).issue q w next s.free).tokens.length := by
    have hlt := mwEvt_lt w
    exact issue_token ((s.hewer h).access m) next s.free (by omega) (by omega)
  rw [wordIssue_clean hf hm, microEvent_posts _ _ _ _ he, ← hi, hown, htok]
  generalize (s.setHewer h ((s.hewer h).access m)).issued h q w next = t at hown hregs ⊢
  constructor
  · intro hlt
    rw [if_neg (by omega)]
    have hcore := (hwork (t.setHewer h ((((s.hewer h).access m).issue q w next s.free).withTokens ((((s.hewer h).access m).issue q w next s.free).tokens.set i ((s.hewer h).tokens.getD i 0 + 1))))).core h
    rw [hewer_setHewer] at hcore
    refine ⟨?_, _, hcore⟩
    refine (congrArg (fun x : Hewer => x.tokens.getD i 0) hcore :).trans ?_
    have hset : ∀ (l : List Nat) (n : Nat), i < l.length → (l.set i n).getD i 0 = n := fun l n hl => by simp [hl]
    exact hset _ _ hlen
  · intro hge
    rw [if_pos hge]
    exact HewerStops.steps (by decide) (hewerFault_stops 14 _ hh hq (by decide) hregs (by decide)).1 (hwork _)

end Sys2Proof.Machine

/-! The words of the sequencers and their time-outs, as the statement says them (R177, R180 to R186). -/

namespace Sys2Proof.Machine

-- ## Pixel words and bitstream words

section
variable {s : State} {h w nx : Nat} {m : LmUse}

theorem issued_setHewer_draw (s : State) (h : Nat) (x y : Hewer) : ((((s.setHewer h x).setF F.HWR_STATUS_BS_WAIT h 0).setHewer h y).draw) = ((s.setHewer h y).draw).setF F.HWR_STATUS_BS_WAIT h 0 :=
  Eq.trans rfl (congrArg (fun t : State => (t.draw).setF F.HWR_STATUS_BS_WAIT h 0) (setHewer_setHewer s h x y))

theorem issue_bit (x : Hewer) (w next k : Nat) : x.issue 1 w next k =
    { ((x.consume 1 w).loop 1 w k) with bsPc := next, bioIn := x.bioIn || decide (mwBio w ≠ .none ∧ mwBio w ≠ .write), bioOut := x.bioOut || decide (mwBio w = .write) } := if_neg (by decide)

/-- A pixel word of no event and no work. -/
theorem pixelIssue_plain (hf : s.fetched h 0 = .goes w nx) (hm : m.check = .clean) (he : mwEvt w = 0) :
    s.wordIssue h 0 m (fun t => t.pixelWork h .none) = (s.setHewer h { ((((s.hewer h).access m).consume 0 w).loop 0 w s.free) with pixPc := nx, pixSelf := decide (nx = (s.hewer h).pixPc) }).draw := by
  rw [wordIssue_clean hf hm, he]
  have hissued : (s.setHewer h ((s.hewer h).access m)).issued h 0 w nx = (s.setHewer h (((s.hewer h).access m).issue 0 w nx s.free)).draw := by
    rw [State.issued, if_neg (by decide), setHewer_setHewer, hewer_setHewer]
    rfl
  exact hissued

/-- A bitstream word of no event and no work. -/
theorem bitIssue_plain (hf : s.fetched h 1 = .goes w nx) (hm : m.check = .clean) (he : mwEvt w = 0) :
    s.wordIssue h 1 m (fun t => t.bitWork h .none) = ((s.setHewer h { ((((s.hewer h).access m).consume 1 w).loop 1 w s.free) with
      bsPc := nx, bioIn := (s.hewer h).bioIn || decide (mwBio w ≠ .none ∧ mwBio w ≠ .write), bioOut := (s.hewer h).bioOut || decide (mwBio w = .write) }).draw).setF F.HWR_STATUS_BS_WAIT h 0 := by
  rw [wordIssue_clean hf hm, he]
  have hissued : (s.setHewer h ((s.hewer h).access m)).issued h 1 w nx = ((s.setHewer h (((s.hewer h).access m).issue 1 w nx s.free)).draw).setF F.HWR_STATUS_BS_WAIT h 0 := by
    have hfree : (s.setHewer h ((s.hewer h).access m)).free = s.free := rfl
    rw [State.issued, if_pos rfl, hewer_setHewer, hfree, issued_setHewer_draw]
  rw [hissued, issue_bit]
  rfl

/-- A pixel word with its work. -/
theorem pixelIssue_keeps (k : PixelWork) (hf : s.fetched h 0 = .goes w nx) (hm : m.check = .clean) (he : mwEvt w < 4) :
    let t := s.wordIssue h 0 m (fun t => t.pixelWork h k)
    (t.hewer h).pixPc = nx ∧ (t.hewer h).pixSelf = decide (nx = (s.hewer h).pixPc) ∧ (t.hewer h).bsPc = (s.hewer h).bsPc ∧ (t.hewer h).lm = ((s.hewer h).access m).lm ∧ t.hwState h = s.hwState h ∧
      (mwEvt w = 1 → (t.hewer h).doneEvt = true) := by
  intro t
  obtain ⟨hcore, hregs⟩ := issues_clean (fun t => pixelWork_steps t h k) hf hm he
  refine ⟨(congrArg Hewer.pixPc hcore :), (congrArg Hewer.pixSelf hcore :), (congrArg Hewer.bsPc hcore :), (congrArg Hewer.lm hcore :), hregs _ (by decide) h, fun h1 => ?_⟩
  refine (congrArg Hewer.doneEvt hcore :).trans ?_
  rw [h1]
  exact Bool.or_true _

/-- A bitstream word with its work. -/
theorem bitIssue_keeps (k : BitWork) (hf : s.fetched h 1 = .goes w nx) (hm : m.check = .clean) (he : mwEvt w < 4) :
    let t := s.wordIssue h 1 m (fun t => t.bitWork h k)
    (t.hewer h).bsPc = nx ∧ (t.hewer h).pixPc = (s.hewer h).pixPc ∧ (t.hewer h).lm = ((s.hewer h).access m).lm ∧ t.f F.HWR_STATUS_BS_WAIT h = 0 ∧ t.hwState h = s.hwState h ∧ (mwEvt w = 1 → (t.hewer h).doneEvt = true) := by
  intro t
  obtain ⟨hcore, hregs⟩ := issues_clean (fun t => bitWork_steps t h k) hf hm he
  refine ⟨(congrArg Hewer.bsPc hcore :), (congrArg Hewer.pixPc hcore :), (congrArg Hewer.lm hcore :), (hregs _ (by decide) h).trans (issued_wait _ _ _ _), (hregs _ (by decide) h).trans (issued_f _ _ _ _ _ _ (by decide)), fun h1 => ?_⟩
  refine (congrArg Hewer.doneEvt hcore :).trans ?_
  rw [h1]
  exact Bool.or_true _

end

-- ## Words that stop their hewer

section
variable {s : State} {h q : Nat} {m : LmUse} {work : State → State} (hh : h < 24) (hq : q < 2)
include hh hq

theorem lmFault_stops : HewerStops s (s.lmFault h q) h F.HWR_FAULT_LM_UNCORR 11 q ((s.hewer h).pc q) ∧ ((s.lmFault h q).hewer h).loading = none :=
  hewerFault_stops 11 _ hh hq (by decide) (fun _ _ => rfl) (by decide)

theorem uncorrected_stops {w nx : Nat} (hf : s.fetched h q = .goes w nx) (hm : m.check = .uncorrected) : HewerStops s (s.wordIssue h q m work) h F.HWR_FAULT_LM_UNCORR 11 q ((s.hewer h).pc q) := by
  rw [wordIssue_uncorrected hf hm]
  exact (lmFault_stops hh hq).1

theorem load_stops (hs : s.sequencing h = false) (hp : s.hwState h = hwPatching) (hm : m.check = .uncorrected) :
    HewerStops s (s.wordIssue h q m work) h F.HWR_FAULT_LM_UNCORR 11 q ((s.hewer h).pc q) ∧ ((s.wordIssue h q m work).hewer h).loading = none := by
  rw [wordIssue_load hs hp hm]
  exact lmFault_stops hh hq

theorem fails_stops {y : Fld} {fsid addr : Nat} (hf : s.fetched h q = .fails y fsid addr) (hy : y ∈ faultBits) (hn : fsid ≠ 34) : HewerStops s (s.wordIssue h q m work) h y fsid q addr := by
  rw [wordIssue_fails hf]
  exact (hewerFault_stops fsid addr hh hq hy (fun _ _ => rfl) hn).1

end

-- ## Time-outs (R182)

theorem exec_hewerWaitTimeout {h : Nat} (hh : h < 24) (s : State) : exec (.hewerWaitTimeout h) s = .next (s.waitTimeout h) := onInstance_of (decide_eq_true hh) _

section
variable {s : State} {h : Nat}

theorem waitTimeout_waits (hb : s.f F.HWR_STATUS_BS_WAIT h = 1) (hf : s.fetched h 1 = .waits) : s.waitTimeout h = s.hewerFault h F.HWR_FAULT_WAIT_TIMEOUT 15 1 (s.hewer h).bsPc := by
  unfold State.waitTimeout
  rw [fb_true hb, hf]
  rfl

/-- No word of the bitstream sequencer waits. -/
theorem waitTimeout_eq (hw : s.f F.HWR_STATUS_BS_WAIT h ≠ 1 ∨ s.fetched h 1 ≠ .waits) :
    s.waitTimeout h = if s.sequencing h && (s.hewer h).pixSelf then s.hewerFault h F.HWR_FAULT_WAIT_TIMEOUT 15 0 (s.hewer h).pixPc else s := by
  unfold State.waitTimeout
  refine if_neg ?_
  rw [Bool.and_eq_true]
  rintro ⟨hb, hf⟩
  rcases hw with hw | hw
  · exact fb_ne hw hb
  · split at hf
    · next he => exact hw he
    · exact absurd hf (by decide)

end

end Sys2Proof.Machine

/-! The ends of return tests and of patch loads (R192 to R194). -/

namespace Sys2Proof.Machine

-- ## Those who wait hear

/-- The registers that who waits for something else than the update may see written. -/
def waiterFields : List Fld := F.MBX_STATUS_JOB_DONE :: resultFields

theorem tellWaiter_off (s : State) {w : Waiter} (ok : Bool) (h : w ≠ .update) : Off waiterFields s (s.tellWaiter w ok) := by
  cases w with
  | none => exact Off.refl _ s
  | mailbox m => exact ((Writes.refl resultFields s).putResult m (by split <;> decide) (by simp) rfl).off.mono rfl
  | job j => exact ((Off.refl [F.MBX_STATUS_JOB_DONE] s).endJob j ok _ rfl).mono rfl
  | update => exact absurd rfl h

theorem setHwState_writes (s : State) (h st : Nat) : Writes (F.HWR_STATUS_STATE :: capacityFields) s (s.setHwState h st) :=
  ((Writes.refl (F.HWR_STATUS_STATE :: capacityFields) s).setF F.HWR_STATUS_STATE h st rfl).trans ((refreshCapacity_writes _).mono rfl)

theorem setHwState_state (s : State) (h st : Nat) : (s.setHwState h st).hwState h = st % 16 := ((refreshCapacity_seq _).f F.HWR_STATUS_STATE h (by decide)).trans (State.f_setF_same _ _ _ _)

theorem setHwState_f (s : State) (h st i : Nat) {x : Fld} (hx : x ∈ seqFields) (hc : x.code ≠ F.HWR_STATUS_STATE.code) : (s.setHwState h st).f x i = s.f x i :=
  ((refreshCapacity_seq _).f x i hx).trans (State.f_setF_code _ _ _ _ _ _ hc)

theorem setHwState_hewer (s : State) (h st k : Nat) : (s.setHwState h st).hewer k = s.hewer k := (refreshCapacity_seq _).hewer k

theorem setHwState_update (s : State) (h st : Nat) : (s.setHwState h st).codec.update = s.codec.update := (refreshCapacity_seq _).update

/-- The update hears of the end of hewer `h`, at which it is. -/
theorem tellUpdate {s : State} {h : Nat} {u : Update} (ok : Bool) (hu : s.codec.update = some u) (hat : u.at_ = h) :
    Beside h s (s.tellWaiter .update ok) ∧ ∀ v, (s.tellWaiter .update ok).codec.update = some v → h < v.at_ ∧ v.failed = (u.failed || !ok) := by
  subst hat
  refine ⟨tellWaiter_beside _ _ (.inr fun v hv => (congrArg Update.at_ (Option.some.inj (hu.symm.trans hv))).le), fun v hv => ?_⟩
  rw [tellWaiter_update ok hu] at hv
  cases ok with
  | true =>
    obtain ⟨h1, h2⟩ := updateFrom_update hu hv
    exact ⟨h1, by simp [h2]⟩
  | false =>
    have hfailed : s.updateFailed = (s.withCodec (fun w => { w with update := some { u with failed := true } })).updateFrom (u.at_ + 1) := by
      unfold State.updateFailed
      rw [hu]
    rw [if_neg (by decide), hfailed] at hv
    obtain ⟨h1, h2⟩ := updateFrom_update (u := { u with failed := true }) rfl hv
    exact ⟨h1, by simp [h2]⟩

-- ## The return test (R193)

/-- The state in which a test ends. -/
def State.afterTest (s : State) (h : Nat) (pass : Bool) : Nat := if pass then (if s.f F.HWR_CTRL_DRAIN h = 1 then hwDrained else hwIdle) else hwFault

/-- The hewer has left its test. -/
def State.testLeft (s : State) (h : Nat) (pass : Bool) : State := (s.setHewer h { s.hewer h with testFor := .none }).setHwState h (s.afterTest h pass)

theorem exec_hewerTestDone {h : Nat} (hh : h < 24) (pass : Bool) (s : State) : exec (.hewerTestDone h pass) s = .next (s.testDone h pass) := onInstance_of (decide_eq_true hh) _

section
variable {s : State} {h : Nat} (pass : Bool)

theorem testDone_off (hs : s.hwState h ≠ hwTest ∨ s.fatal = true) : s.testDone h pass = s := by
  refine if_pos ?_
  rw [Bool.or_eq_true, decide_eq_true_eq]
  exact hs

theorem testDone_eq (hs : s.hwState h = hwTest) (hf : s.fatal = false) : s.testDone h pass = ((s.testLeft h pass).tellWaiter (s.hewer h).testFor pass).updateWakes h := by
  have hfb : (if s.fb F.HWR_CTRL_DRAIN h then hwDrained else hwIdle) = if s.f F.HWR_CTRL_DRAIN h = 1 then hwDrained else hwIdle := by
    simp only [State.fb, decide_eq_true_eq]
  unfold State.testDone
  rw [if_neg (by rw [hs, hf]; decide)]
  unfold State.testLeft State.afterTest
  rw [← hfb]
  rfl

theorem testLeft_state : (s.testLeft h pass).hwState h = s.afterTest h pass := by
  rw [State.testLeft, setHwState_state]
  unfold State.afterTest
  split
  · split <;> rfl
  · rfl

theorem testLeft_hewer : (s.testLeft h pass).hewer h = { s.hewer h with testFor := .none } := (setHwState_hewer _ _ _ _).trans (hewer_setHewer _ _ _)

theorem testLeft_update : (s.testLeft h pass).codec.update = s.codec.update := setHwState_update _ _ _

/-- A test that neither belongs to the update nor is awaited by it. -/
theorem testDone_plain (hs : s.hwState h = hwTest) (hf : s.fatal = false) (hw : (s.hewer h).testFor ≠ .update) (hu : ∀ u, s.codec.update = some u → u.waits = false ∨ u.at_ ≠ h) :
    s.testDone h pass = (s.testLeft h pass).tellWaiter (s.hewer h).testFor pass := by
  rw [testDone_eq pass hs hf]
  refine updateWakes_off fun u hu' => hu u ?_
  rw [← testLeft_update pass, ← hu', (tellWaiter_seq _ pass hw).update]

/-- A command that waits for the test is answered, and nothing else changes. -/
theorem testDone_answers (hs : s.hwState h = hwTest) (hf : s.fatal = false) {m : Nat} (hw : (s.hewer h).testFor = .mailbox m) (hu : ∀ u, s.codec.update = some u → u.waits = false ∨ u.at_ ≠ h) :
    (s.testDone h pass).codec = (s.setHewer h { s.hewer h with testFor := .none }).codec ∧ (s.testDone h pass).answered m (s.mbxTag m) (if pass then 0 else 0x00FF) [] ∧
      ∀ (y : Fld) (i : Nat), y.outside (F.HWR_STATUS_STATE :: capacityFields ++ resultFields) → (s.testDone h pass).f y i = s.f y i := by
  have hleft := setHwState_writes (s.setHewer h { s.hewer h with testFor := .none }) h (s.afterTest h pass)
  have htag : (s.testLeft h pass).mbxTag m = s.mbxTag m := hleft.off.tag m rfl
  have hst : (if pass then stOk else stInternal) < 65536 := by split <;> decide
  have hresult := (Writes.refl resultFields (s.testLeft h pass)).putResult m (data := []) hst (by simp) rfl
  obtain ⟨hanswered, hkept, -⟩ := sets_answered (data := []) hst (by simp) (rfl : (s.testLeft h pass).putResult m (if pass then stOk else stInternal) [] = _)
  rw [testDone_plain pass hs hf (by rw [hw]; simp) hu, hw]
  refine ⟨hresult.codec.trans hleft.codec, htag ▸ hanswered, fun y i hy => (hkept y i fun z hz => hy z (List.mem_append_right _ hz)).trans ?_⟩
  exact hleft.off y i fun z hz => hy z (List.mem_append_left _ hz)

/-- A test that the update waits for. -/
theorem testDone_update (hs : s.hwState h = hwTest) (hf : s.fatal = false) {u : Update} (hu : s.codec.update = some u) (hat : u.at_ = h) (hw : (s.hewer h).testFor = .update) :
    (s.testDone h pass).hwState h = s.afterTest h pass ∧ ((s.testDone h pass).hewer h).testFor = .none ∧ ∀ v, (s.testDone h pass).codec.update = some v → h < v.at_ ∧ v.failed = (u.failed || !pass) := by
  obtain ⟨hb, hupd⟩ := tellUpdate pass ((testLeft_update (s := s) (h := h) pass).trans hu) hat
  have hoff : s.testDone h pass = (s.testLeft h pass).tellWaiter .update pass := by
    rw [testDone_eq pass hs hf, hw]
    exact updateWakes_off fun v hv => .inr (hupd v hv).1.ne'
  rw [hoff]
  refine ⟨hb.hwState.trans (testLeft_state pass), ?_, hupd⟩
  rw [hb.hewer, testLeft_hewer]

theorem updateNext_self {s : State} {h : Nat} (hh : h < 24) (hs : s.hwState h ≠ hwFault) : s.updateNext h = some h := by
  refine List.find?_eq_some_iff_append.mpr ⟨by simp [State.updates, hs], List.range h, (List.range' (h + 1) (23 - h)), ?_, fun a ha => ?_⟩
  · rw [allHewers, List.range_eq_range', List.range_eq_range']
    have hsplit := List.range'_append (s := 0) (m := h) (n := 24 - h) (step := 1)
    rw [show h + (24 - h) = 24 by omega] at hsplit
    rw [← hsplit, show 24 - h = (23 - h) + 1 by omega, List.range'_succ]
    simp
  · rw [List.mem_range] at ha
    simp [ha]

theorem beginLoad_state (s : State) (h : Nat) (p : PatchSet) (w : Waiter) : (s.beginLoad h p w).hwState h = hwPatching := setHwState_state _ _ _

theorem beginLoad_loading (s : State) (h : Nat) (p : PatchSet) (w : Waiter) : ((s.beginLoad h p w).hewer h).loading = some p := by
  unfold State.beginLoad
  extract_lets s1 s2
  rw [setHwState_hewer]
  exact congrArg Hewer.loading (hewer_setHewer s1 h _)

/-- A hewer that the update has waited for is loaded where it serves. -/
theorem updateFrom_loads {s : State} {h : Nat} {u : Update} (hh : h < 24) (hu : s.codec.update = some u) (hs : s.hwState h = hwDrained ∨ s.hwState h = hwIdle) :
    (s.updateFrom h).hwState h = hwPatching ∧ ((s.updateFrom h).hewer h).loading = some u.set := by
  have hne : s.hwState h ≠ hwFault ∧ s.hwState h ≠ hwTest ∧ s.hwState h ≠ hwPatching := by rcases hs with hs | hs <;> rw [hs] <;> decide
  obtain ⟨hfault, htest, hpatch⟩ := hne
  rw [updateFrom_at hu (updateNext_self hh hfault)]
  unfold State.updateAt
  extract_lets busy t
  have hbusy : busy = false := by simp [busy, htest, hpatch]
  rw [hbusy, if_neg (by decide), if_pos (.inr hs)]
  exact ⟨beginLoad_state _ _ _ _, beginLoad_loading _ _ _ _⟩

/-- The update waits for a test that is not its own. -/
theorem testDone_awaited (hh : h < 24) (hs : s.hwState h = hwTest) (hf : s.fatal = false) {u : Update} (hu : s.codec.update = some u) (hwaits : u.waits = true) (hat : u.at_ = h) (hw : (s.hewer h).testFor ≠ .update) :
    (s.testDone h pass).hwState h = (if pass then hwPatching else hwFault) ∧ (pass = true → ((s.testDone h pass).hewer h).loading = some u.set) := by
  have htold := tellWaiter_seq (s.testLeft h pass) pass hw
  have hupd : ((s.testLeft h pass).tellWaiter (s.hewer h).testFor pass).codec.update = some u := htold.update.trans ((testLeft_update pass).trans hu)
  have hstate : ((s.testLeft h pass).tellWaiter (s.hewer h).testFor pass).hwState h = s.afterTest h pass := (htold.f _ h (by decide)).trans (testLeft_state pass)
  have hwake : s.testDone h pass = ((s.testLeft h pass).tellWaiter (s.hewer h).testFor pass).updateFrom h := by
    rw [testDone_eq pass hs hf]
    refine if_pos ?_
    rw [hupd, Option.any_some, hwaits, hat, decide_eq_true rfl]
    rfl
  rw [hwake]
  cases pass with
  | false => exact ⟨(updateFrom_beside (.inl hstate)).hwState.trans hstate, nofun⟩
  | true =>
    have hserves : s.afterTest h true = hwDrained ∨ s.afterTest h true = hwIdle := by
      unfold State.afterTest
      rw [if_pos rfl]
      split
      · exact .inl rfl
      · exact .inr rfl
    obtain ⟨h1, h2⟩ := updateFrom_loads hh hupd (hstate.symm ▸ hserves)
    exact ⟨h1, fun _ => h2⟩

end

end Sys2Proof.Machine

/-! The end of a patch load, and all that O50 says of words, waits, tests and loads (R177 to R196). -/

namespace Sys2Proof.Machine

-- ## A set stands in the registers (R186, R192)

/-- The registers of a patch set. -/
def patchFields : List Fld := [F.HWR_PATCH_RAM_DATA, F.HWR_MATCH_EN, F.HWR_MATCH_ROM_ADDR, F.HWR_MATCH_PATCH_OFFSET, F.HWR_PATCH_STATUS_PATCH_ID, F.HWR_PATCH_STATUS_MATCH_USED, F.HWR_PATCH_STATUS_STATE]

/-- The words of a set. -/
def State.putSetWords (s : State) (h : Nat) (p : PatchSet) : State := chainAll (List.range p.words.length) (fun w t => t.putPatchWord h w (p.words.getD w 0)) s

/-- Its match entries. -/
def State.putMatches (s : State) (h : Nat) (p : PatchSet) : State := chainAll (List.range 64) (fun m t => t.putMatch h m (p.matches_[m]?)) s

theorem writePatch_eq (s : State) (h : Nat) (p : PatchSet) : s.writePatch h p =
    ((((s.putSetWords h p).putMatches h p).setF F.HWR_PATCH_STATUS_PATCH_ID h p.id).setF F.HWR_PATCH_STATUS_MATCH_USED h p.matches_.length).setF F.HWR_PATCH_STATUS_STATE h (if p.id = 0 then 0 else 1) := rfl

theorem putPatchWord_eq (s : State) (h w v : Nat) : s.putPatchWord h w v = ((((s.setF F.HWR_PATCH_RAM_DATA (8192 * h + 8 * w + 0) (v / 2 ^ (32 * 0) % 2 ^ 32)).setF F.HWR_PATCH_RAM_DATA (8192 * h + 8 * w + 1) (v / 2 ^ (32 * 1) % 2 ^ 32)).setF
    F.HWR_PATCH_RAM_DATA (8192 * h + 8 * w + 2) (v / 2 ^ (32 * 2) % 2 ^ 32)).setF F.HWR_PATCH_RAM_DATA (8192 * h + 8 * w + 3) (v / 2 ^ (32 * 3) % 2 ^ 32)).setF F.HWR_PATCH_RAM_DATA (8192 * h + 8 * w + 4) (v / 2 ^ (32 * 4) % 2 ^ 32) := rfl

theorem putPatchWord_low (s : State) (h w v : Nat) : (s.putPatchWord h w v).f F.HWR_PATCH_RAM_DATA (8192 * h + 8 * w) = v % 2 ^ 32 := by
  rw [putPatchWord_eq, State.f_setF_inst _ _ _ _ _ (by omega), State.f_setF_inst _ _ _ _ _ (by omega), State.f_setF_inst _ _ _ _ _ (by omega), State.f_setF_inst _ _ _ _ _ (by omega)]
  refine (State.f_setF_same _ _ _ _).trans ?_
  rw [Nat.mul_zero, Nat.pow_zero, Nat.div_one]
  exact Nat.mod_mod _ _

/-- A word leaves the registers of the others. -/
theorem putPatchWord_other (s : State) (h : Nat) {w j : Nat} (v : Nat) (hj : w ≠ j) : (s.putPatchWord h w v).f F.HWR_PATCH_RAM_DATA (8192 * h + 8 * j) = s.f F.HWR_PATCH_RAM_DATA (8192 * h + 8 * j) := by
  have hne : ∀ i < 5, 8192 * h + 8 * j ≠ 8192 * h + 8 * w + i := fun i hi => by omega
  rw [putPatchWord_eq, State.f_setF_inst _ _ _ _ _ (hne 4 (by decide)), State.f_setF_inst _ _ _ _ _ (hne 3 (by decide)), State.f_setF_inst _ _ _ _ _ (hne 2 (by decide)), State.f_setF_inst _ _ _ _ _ (hne 1 (by decide)),
    State.f_setF_inst _ _ _ _ _ (hne 0 (by decide))]

theorem putPatchWord_writes (s : State) (h w v : Nat) : Writes [F.HWR_PATCH_RAM_DATA] s (s.putPatchWord h w v) := (Writes.refl _ s).chainAll _ _ fun _ t => (Writes.refl _ t).setF _ _ _ rfl

theorem putWords_writes (s : State) (h : Nat) (p : PatchSet) : Writes [F.HWR_PATCH_RAM_DATA] s (s.putSetWords h p) := (Writes.refl _ s).chainAll _ _ fun _ t => putPatchWord_writes t _ _ _

theorem putWords_data (s : State) (h : Nat) (p : PatchSet) {i : Nat} (hi : i ∈ List.range p.words.length) : (s.putSetWords h p).f F.HWR_PATCH_RAM_DATA (8192 * h + 8 * i) = p.words.getD i 0 % 2 ^ 32 := by
  obtain ⟨u, -, hu⟩ := chainAll_focus (fun t => t.f F.HWR_PATCH_RAM_DATA (8192 * h + 8 * i)) (g := fun w t => t.putPatchWord h w (p.words.getD w 0)) hi List.nodup_range (fun w t hw => putPatchWord_other t h _ hw) s
  exact hu.trans (putPatchWord_low _ _ _ _)

theorem putMatch_en (s : State) (h m : Nat) (e : Option (Nat × Nat)) : (s.putMatch h m e).f F.HWR_MATCH_EN (64 * h + m) = if e.isSome then 1 else 0 := by
  have hv : (if e.isSome then 1 else 0) % 2 ^ F.HWR_MATCH_EN.len = if e.isSome then 1 else 0 := by split <;> rfl
  exact (State.f_setF_code _ _ _ _ _ _ (by decide)).trans ((State.f_setF_code _ _ _ _ _ _ (by decide)).trans ((State.f_setF_same _ _ _ _).trans hv))

theorem putMatch_other (s : State) (h : Nat) {m j : Nat} (e : Option (Nat × Nat)) (hj : m ≠ j) : (s.putMatch h m e).f F.HWR_MATCH_EN (64 * h + j) = s.f F.HWR_MATCH_EN (64 * h + j) :=
  (State.f_setF_code _ _ _ _ _ _ (by decide)).trans ((State.f_setF_code _ _ _ _ _ _ (by decide)).trans (State.f_setF_inst _ _ _ _ _ (by omega)))

theorem putMatches_writes (s : State) (h : Nat) (p : PatchSet) : Writes [F.HWR_MATCH_EN, F.HWR_MATCH_ROM_ADDR, F.HWR_MATCH_PATCH_OFFSET] s (s.putMatches h p) :=
  (Writes.refl _ s).chainAll _ _ fun _ t => (((Writes.refl _ t).setF _ _ _ rfl).setF _ _ _ rfl).setF _ _ _ rfl

theorem putMatches_en (s : State) (h : Nat) (p : PatchSet) {i : Nat} (hi : i ∈ List.range 64) : (s.putMatches h p).f F.HWR_MATCH_EN (64 * h + i) = if i < p.matches_.length then 1 else 0 := by
  obtain ⟨u, -, hu⟩ := chainAll_focus (fun t => t.f F.HWR_MATCH_EN (64 * h + i)) (g := fun m t => t.putMatch h m (p.matches_[m]?)) hi List.nodup_range (fun m t hm => putMatch_other t h _ hm) s
  have hsome : (p.matches_[i]?).isSome = decide (i < p.matches_.length) := by by_cases hl : i < p.matches_.length <;> simp [hl]
  refine hu.trans ((putMatch_en _ _ _ _).trans ?_)
  rw [hsome]
  simp

theorem writePatch_writes (s : State) (h : Nat) (p : PatchSet) : Writes patchFields s (s.writePatch h p) :=
  (((((putWords_writes s h p).mono (gs := patchFields) rfl).trans ((putMatches_writes _ h p).mono rfl)).setF _ _ _ rfl).setF _ _ _ rfl).setF _ _ _ rfl

theorem writePatch_id (s : State) (h : Nat) (p : PatchSet) : (s.writePatch h p).f F.HWR_PATCH_STATUS_PATCH_ID h = p.id % 65536 :=
  (State.f_setF_code _ _ _ _ _ _ (by decide)).trans ((State.f_setF_code _ _ _ _ _ _ (by decide)).trans (State.f_setF_same _ _ _ _))

theorem writePatch_used (s : State) (h : Nat) (p : PatchSet) : (s.writePatch h p).f F.HWR_PATCH_STATUS_MATCH_USED h = p.matches_.length % 128 :=
  (State.f_setF_code _ _ _ _ _ _ (by decide)).trans (State.f_setF_same _ _ _ _)

theorem writePatch_state (s : State) (h : Nat) (p : PatchSet) : (s.writePatch h p).f F.HWR_PATCH_STATUS_STATE h = if p.id = 0 then 0 else 1 := by
  refine (State.f_setF_same _ _ _ _).trans ?_
  split <;> rfl

theorem writePatch_data (s : State) (h : Nat) (p : PatchSet) {i : Nat} (hi : i ∈ List.range p.words.length) : (s.writePatch h p).f F.HWR_PATCH_RAM_DATA (8192 * h + 8 * i) = p.words.getD i 0 % 2 ^ 32 := by
  rw [writePatch_eq]
  simp (disch := decide) only [State.f_setF_code]
  rw [(putMatches_writes _ h p).off.at_ F.HWR_PATCH_RAM_DATA _ rfl, putWords_data s h p hi]

theorem writePatch_en (s : State) (h : Nat) (p : PatchSet) {i : Nat} (hi : i ∈ List.range 64) : (s.writePatch h p).f F.HWR_MATCH_EN (64 * h + i) = if i < p.matches_.length then 1 else 0 := by
  rw [writePatch_eq]
  simp (disch := decide) only [State.f_setF_code]
  exact putMatches_en _ h p hi

-- ## The load ends (R192, R194)

/-- The hewer that a load leaves. -/
def Hewer.loaded (x : Hewer) (p : PatchSet) : Hewer := { x with loading := none, loadFor := .none, patchEvt := true, measure := if p.id = 0 then [] else p.measure }

/-- The registers and the set before the lock is freed. -/
def State.loadWritten (s : State) (h : Nat) (x : Hewer) (p : PatchSet) : State := (s.writePatch h p).setHewer h (x.loaded p)

/-- The set `p` of hewer `h` is loaded; `x`: the hewer before. -/
def State.loaded (s : State) (h : Nat) (x : Hewer) (p : PatchSet) : State := if (s.loadWritten h x p).codec.update.isSome then s.loadWritten h x p else (s.loadWritten h x p).freeLock 3

theorem exec_patchLoadDone {h : Nat} (hh : h < 24) (e : SramRead) (s : State) : exec (.patchLoadDone h e) s = .next (s.loadDone h e) := onInstance_of (decide_eq_true hh) _

section
variable {s : State} {h : Nat} {p : PatchSet}

theorem loadDone_off (e : SramRead) (hs : s.hwState h ≠ hwPatching ∨ (s.hewer h).loading = none ∨ ((s.hewer h).loadFor = .update ∧ s.f F.SPD_CTRL_BUSY 0 = 1)) : s.loadDone h e = s := by
  unfold State.loadDone
  dsimp only
  split
  · rfl
  · next q hq =>
    refine if_pos ?_
    rw [Bool.or_eq_true, decide_eq_true_eq, Bool.and_eq_true, decide_eq_true_eq]
    rcases hs with hs | hs | ⟨hs, hb⟩
    · exact .inl hs
    · exact absurd (hq.symm.trans hs) (by simp)
    · exact .inr ⟨hs, fb_true hb⟩

/-- Where the words of a load come from: the set that the hewer holds, or in the update the copy in the scratchpad. -/
def State.loadSource (s : State) (h : Nat) (p : PatchSet) (e : SramRead) : PatchSet × State := if decide ((s.hewer h).loadFor = .update) then s.copiedSet p e else (p, s)

theorem loadDone_eq (e : SramRead) (hp : (s.hewer h).loading = some p) : s.loadDone h e =
    (if s.hwState h ≠ hwPatching || (decide ((s.hewer h).loadFor = .update) && s.fb F.SPD_CTRL_BUSY 0) then s
    else (((s.loadSource h p e).2.loaded h (s.hewer h) (s.loadSource h p e).1).afterLoad h (s.hewer h)).updateWakes h) := by
  unfold State.loadDone
  dsimp only
  split
  · next hn => exact absurd (hn.symm.trans hp) (by simp)
  · next q hq =>
    obtain rfl : q = p := Option.some.inj (hq.symm.trans hp)
    rfl

/-- A load of its own. -/
theorem loadDone_own (e : SramRead) (hs : s.hwState h = hwPatching) (hp : (s.hewer h).loading = some p) (hw : (s.hewer h).loadFor ≠ .update) :
    s.loadDone h e = ((s.loaded h (s.hewer h) p).afterLoad h (s.hewer h)).updateWakes h := by
  rw [loadDone_eq e hp, State.loadSource, decide_eq_false hw, if_neg (by simp [hs]), if_neg (by decide)]

/-- A load of the update. -/
theorem loadDone_copy (e : SramRead) (hs : s.hwState h = hwPatching) (hp : (s.hewer h).loading = some p) (hw : (s.hewer h).loadFor = .update) (hb : s.f F.SPD_CTRL_BUSY 0 ≠ 1) :
    s.loadDone h e = (((s.copiedSet p e).2.loaded h (s.hewer h) (s.copiedSet p e).1).afterLoad h (s.hewer h)).updateWakes h := by
  have hfb : s.fb F.SPD_CTRL_BUSY 0 = false := decide_eq_false hb
  rw [loadDone_eq e hp, State.loadSource, decide_eq_true hw, hfb, if_neg (by rw [hs]; decide), if_pos rfl]

end

-- ## What the load leaves

section
variable (s : State) (h : Nat) (x : Hewer) (p : PatchSet)

theorem loaded_seq : SeqKeeps (s.loadWritten h x p) (s.loaded h x p) := SeqKeeps.ite (SeqKeeps.refl _) (freeLock_seq _ 3)

theorem loaded_hewer : (s.loaded h x p).hewer h = x.loaded p := ((loaded_seq s h x p).hewer h).trans (hewer_setHewer _ _ _)

theorem loadWritten_f (y : Fld) (i : Nat) : (s.loadWritten h x p).f y i = (s.writePatch h p).f y i := by rw [State.loadWritten, State.setHewer, State.f_withCodec]

theorem loadWritten_update : (s.loadWritten h x p).codec.update = s.codec.update := by
  rw [State.loadWritten, State.setHewer, State.withCodec_codec, (writePatch_writes s h p).codec]

theorem loaded_f {y : Fld} (i : Nat) (hy : y ∈ seqFields) : (s.loaded h x p).f y i = (s.writePatch h p).f y i := ((loaded_seq s h x p).f y i hy).trans (loadWritten_f s h x p y i)

theorem loaded_update : (s.loaded h x p).codec.update = s.codec.update := (loaded_seq s h x p).update.trans (loadWritten_update s h x p)

theorem loaded_owner (hu : s.codec.update = none) : (s.loaded h x p).f F.SEM_LOCK_OWNER 3 = 0 := by
  have hnone : (s.loadWritten h x p).codec.update = none := (loadWritten_update s h x p).trans hu
  have hfree : s.loaded h x p = (s.loadWritten h x p).freeLock 3 := if_neg (by rw [Option.isSome_iff_exists]; rintro ⟨u, hsome⟩; exact absurd (hsome.symm.trans hnone) (by simp))
  rw [hfree, (lockFields_freeLock _ 3).1]

theorem loaded_tag (m : Nat) : (s.loaded h x p).mbxTag m = s.mbxTag m := by
  have hw : (s.loadWritten h x p).mbxTag m = s.mbxTag m := mbxTag_congr m ((loadWritten_f s h x p _ _).trans ((writePatch_writes s h p).off.at_ F.MBX_COMMAND_DATA _ rfl))
  unfold State.loaded
  split
  · exact hw
  · exact ((freeLock_off _ 3).tag m rfl).trans hw

end

/-- What O50 says of the registers and the hewer after a load; `u`: the state before its end, `p`: the set. -/
theorem loaded_regs {s t : State} {h : Nat} {x : Hewer} {p : PatchSet} (hk : ∀ y ∈ seqFields, y.code ≠ F.HWR_STATUS_STATE.code → ∀ i, t.f y i = (s.loaded h x p).f y i) :
    t.f F.HWR_PATCH_STATUS_PATCH_ID h = p.id % 65536 ∧ t.f F.HWR_PATCH_STATUS_STATE h = (if p.id = 0 then 0 else 1) ∧ t.f F.HWR_PATCH_STATUS_MATCH_USED h = p.matches_.length % 128 ∧
      (∀ i ∈ List.range p.words.length, t.f F.HWR_PATCH_RAM_DATA (8192 * h + 8 * i) = p.words.getD i 0 % 2 ^ 32) ∧ ∀ i ∈ List.range 64, t.f F.HWR_MATCH_EN (64 * h + i) = (if i < p.matches_.length then 1 else 0) := by
  have hreg : ∀ y ∈ seqFields, y.code ≠ F.HWR_STATUS_STATE.code → ∀ i, t.f y i = (s.writePatch h p).f y i := fun y hy hc i => (hk y hy hc i).trans (loaded_f s h x p i hy)
  exact ⟨(hreg _ (by decide) (by decide) h).trans (writePatch_id s h p), (hreg _ (by decide) (by decide) h).trans (writePatch_state s h p), (hreg _ (by decide) (by decide) h).trans (writePatch_used s h p),
    fun i hi => (hreg _ (by decide) (by decide) _).trans (writePatch_data s h p hi), fun i hi => (hreg _ (by decide) (by decide) _).trans (writePatch_en s h p hi)⟩

section
variable {s : State} {h : Nat} {p : PatchSet} (e : SramRead)

/-- The hewer is back in its state from before the load. -/
def State.loadBack (s : State) (h : Nat) (p : PatchSet) : State := (s.loaded h (s.hewer h) p).setHwState h (s.hewer h).loadFrom

theorem loadDone_plain (hs : s.hwState h = hwPatching) (hp : (s.hewer h).loading = some p) (hw : (s.hewer h).loadFor ≠ .update) (hu : ∀ u, s.codec.update = some u → u.waits = false ∨ u.at_ ≠ h) :
    s.loadDone h e = (s.loadBack h p).tellWaiter (s.hewer h).loadFor true := by
  have hafter : (s.loaded h (s.hewer h) p).afterLoad h (s.hewer h) = (s.loadBack h p).tellWaiter (s.hewer h).loadFor true := if_neg fun hc => hw hc.1
  rw [loadDone_own e hs hp hw, hafter]
  refine updateWakes_off fun u hu' => hu u ?_
  rw [← loaded_update s h (s.hewer h) p, ← setHwState_update (s.loaded h (s.hewer h) p) h (s.hewer h).loadFrom, ← hu']
  exact (tellWaiter_seq _ true hw).update.symm

/-- A load of its own ends. -/
theorem loadDone_ends (hs : s.hwState h = hwPatching) (hp : (s.hewer h).loading = some p) (hw : (s.hewer h).loadFor ≠ .update) (hu : ∀ u, s.codec.update = some u → u.waits = false ∨ u.at_ ≠ h) :
    let t := s.loadDone h e
    t.hwState h = (s.hewer h).loadFrom % 16 ∧ t.hewer h = (s.hewer h).loaded p ∧ (∀ y ∈ seqFields, y.code ≠ F.HWR_STATUS_STATE.code → ∀ i, t.f y i = (s.loaded h (s.hewer h) p).f y i) ∧
      (s.codec.update = none → t.f F.SEM_LOCK_OWNER 3 = 0) ∧ ∀ m, (s.hewer h).loadFor = .mailbox m → t.answered m (s.mbxTag m) 0 [] := by
  intro t
  have htell := tellWaiter_seq (s.loadBack h p) true hw
  have hoff := tellWaiter_off (s.loadBack h p) true hw
  have hback := setHwState_writes (s.loaded h (s.hewer h) p) h (s.hewer h).loadFrom
  have ht : t = (s.loadBack h p).tellWaiter (s.hewer h).loadFor true := loadDone_plain e hs hp hw hu
  rw [ht]
  refine ⟨(htell.f _ h (by decide)).trans (setHwState_state _ _ _), (htell.hewer h).trans ((setHwState_hewer _ _ _ _).trans (loaded_hewer _ _ _ _)), fun y hy hc i => (htell.f y i hy).trans (setHwState_f _ _ _ _ hy hc), fun hn => ?_, fun m hm => ?_⟩
  · exact (hoff.at_ F.SEM_LOCK_OWNER 3 rfl).trans ((hback.off.at_ F.SEM_LOCK_OWNER 3 rfl).trans (loaded_owner _ _ _ _ hn))
  · have htag : (s.loadBack h p).mbxTag m = s.mbxTag m := (hback.off.tag m rfl).trans (loaded_tag _ _ _ _ m)
    obtain ⟨hanswered, -, -⟩ := sets_answered (status := stOk) (data := []) (by decide) (by simp) (rfl : (s.loadBack h p).putResult m stOk [] = _)
    rw [hm, ← htag]
    exact hanswered

end

end Sys2Proof.Machine

/-! The loads of the update (R194), and the settlement of O50. -/

namespace Sys2Proof.Machine

-- ## The copy in the scratchpad (R194, R405)

theorem spdServe_codec (s : State) : s.spdServe.codec = s.codec := by
  unfold State.spdServe
  split <;> rfl

theorem spdMeets_codec (s : State) (ws : List Nat) (e : SramRead) : (s.spdMeets ws e).2.codec = s.codec := by
  cases e with
  | clean => rfl
  | corrected k =>
    unfold State.spdMeets
    dsimp only
    split <;> rfl
  | uncorrectable k => rfl

theorem spdBytes_codec (s : State) (w n : Nat) (e : SramRead) : (s.spdBytes w n e).2.codec = s.codec :=
  (spdMeets_codec _ _ _).trans (spdServe_codec (s.withSec (fun x => { x with spdPort0 := x.spdPort0 ++ spdReads w n })))

theorem copiedSet_update (s : State) (p : PatchSet) (e : SramRead) : (s.copiedSet p e).2.codec.update = s.codec.update := congrArg CodecState.update (spdBytes_codec s _ _ _)

theorem copiedSet_id (s : State) (p : PatchSet) (e : SramRead) : (s.copiedSet p e).1.id = p.id := rfl

theorem copiedSet_matches (s : State) (p : PatchSet) (e : SramRead) : (s.copiedSet p e).1.matches_.length = p.matches_.length := by simp [State.copiedSet]

-- ## The return test starts (R193)

section
variable (s : State) (h : Nat) (w : Waiter)

theorem goIn_state : (s.goIn h w).hwState h = hwTest := setHwState_state _ _ _

theorem goIn_f {y : Fld} (i : Nat) (hy : y ∈ seqFields) (hc : y.code ≠ F.HWR_STATUS_STATE.code) : (s.goIn h w).f y i = s.f y i := setHwState_f _ _ _ _ hy hc

theorem goIn_hewer : ((s.goIn h w).hewer h).testFor = w ∧ ((s.goIn h w).hewer h).loading = (s.hewer h).loading ∧ ((s.goIn h w).hewer h).patchEvt = (s.hewer h).patchEvt := by
  have hown : (s.goIn h w).hewer h = { s.hewer h with testFor := w, pixPc := Config.freeNat 13 s.free % 0x4400, bsPc := Config.freeNat 14 s.free % 0x4400, loops := List.replicate 8 0, tokens := List.replicate 8 0, pixSelf := false } :=
    (setHwState_hewer _ _ _ _).trans (hewer_setHewer s h _)
  rw [hown]
  exact ⟨rfl, rfl, rfl⟩

theorem goIn_update : (s.goIn h w).codec.update = s.codec.update := setHwState_update _ _ _

end

/-- What O50 says of a load of the update, of the state `t` after it; `v`: the state before its end. -/
theorem afterLoad_update {v : State} {h : Nat} {x : Hewer} {u : Update} (hw : x.loadFor = .update) (hu : v.codec.update = some u) (hwaits : u.waits = false) (hat : u.at_ = h) :
    let t := (v.afterLoad h x).updateWakes h
    t.hwState h = (if x.loadFrom = hwOut then hwOut else hwTest) ∧ (x.loadFrom ≠ hwOut → (t.hewer h).testFor = .update) ∧ (t.hewer h).loading = (v.hewer h).loading ∧ (t.hewer h).patchEvt = (v.hewer h).patchEvt ∧
      ∀ y ∈ seqFields, y.code ≠ F.HWR_STATUS_STATE.code → t.f y h = v.f y h := by
  intro t
  by_cases hout : x.loadFrom = hwOut
  · have hback : v.afterLoad h x = (v.setHwState h hwOut).tellWaiter .update true := by
      unfold State.afterLoad
      rw [if_neg fun hc => hc.2 hout, hout, hw]
    obtain ⟨hb, hupd⟩ := tellUpdate (s := v.setHwState h hwOut) true ((setHwState_update _ _ _).trans hu) hat
    have ht : t = (v.setHwState h hwOut).tellWaiter .update true := by
      refine Eq.trans (updateWakes_off ?_) hback
      rw [hback]
      exact fun u' hu' => .inr (hupd u' hu').1.ne'
    have hown : t.hewer h = v.hewer h := by rw [ht, hb.hewer, setHwState_hewer]
    rw [hown, if_pos hout]
    refine ⟨?_, fun hne => absurd hout hne, rfl, rfl, fun y hy hc => ?_⟩
    · rw [ht, hb.hwState, setHwState_state]
      rfl
    · rw [ht, hb.regs y hy, setHwState_f _ _ _ _ hy hc]
  · have hgo : v.afterLoad h x = v.goIn h .update := if_pos ⟨hw, hout⟩
    have ht : t = v.goIn h .update := by
      refine Eq.trans (updateWakes_off ?_) hgo
      rw [hgo, goIn_update, hu]
      rintro u' ⟨⟩
      exact .inl hwaits
    obtain ⟨h1, h2, h3⟩ := goIn_hewer v h .update
    rw [ht, if_neg hout]
    exact ⟨goIn_state v h _, fun _ => h1, h2, h3, fun y hy hc => goIn_f v h _ h hy hc⟩

/-- A load of the update ends. -/
theorem loadDone_updates {s : State} {h : Nat} {p : PatchSet} (e : SramRead) {u : Update} (hs : s.hwState h = hwPatching) (hp : (s.hewer h).loading = some p) (hw : (s.hewer h).loadFor = .update)
    (hu : s.codec.update = some u) (hwaits : u.waits = false) (hat : u.at_ = h) (hb : s.f F.SPD_CTRL_BUSY 0 ≠ 1) :
    let t := s.loadDone h e
    t.hwState h = (if (s.hewer h).loadFrom = hwOut then hwOut else hwTest) ∧ ((s.hewer h).loadFrom ≠ hwOut → (t.hewer h).testFor = .update) ∧ t.f F.HWR_PATCH_STATUS_PATCH_ID h = p.id % 65536 ∧ t.f F.HWR_PATCH_STATUS_STATE h = (if p.id = 0 then 0 else 1) ∧
      t.f F.HWR_PATCH_STATUS_MATCH_USED h = p.matches_.length % 128 ∧ (t.hewer h).loading = none ∧ (t.hewer h).patchEvt = true := by
  intro t
  have hloaded : ((s.copiedSet p e).2.loaded h (s.hewer h) (s.copiedSet p e).1).codec.update = some u := (loaded_update _ _ _ _).trans ((copiedSet_update s p e).trans hu)
  obtain ⟨hstate, htest, hloading, hevt, hregs⟩ := afterLoad_update (h := h) hw hloaded hwaits hat
  have hreg : ∀ y ∈ seqFields, y.code ≠ F.HWR_STATUS_STATE.code → t.f y h = ((s.copiedSet p e).2.writePatch h (s.copiedSet p e).1).f y h := fun y hy hc => by
    rw [← loaded_f _ h (s.hewer h) _ _ hy, ← hregs y hy hc, ← loadDone_copy e hs hp hw hb]
  rw [← loadDone_copy e hs hp hw hb] at hstate htest hloading hevt
  rw [loaded_hewer] at hloading hevt
  refine ⟨hstate, htest, ?_, ?_, ?_, hloading, hevt⟩
  · rw [hreg _ (by decide) (by decide), writePatch_id, copiedSet_id]
  · rw [hreg _ (by decide) (by decide), writePatch_state, copiedSet_id]
  · rw [hreg _ (by decide) (by decide), writePatch_used, copiedSet_matches]

-- ## What stops, waits and goes on

/-- A pixel word that posts a token. -/
theorem pixelIssue_posts {s : State} {h w nx : Nat} {m : LmUse} (k : PixelWork) (hh : h < 24) (hf : s.fetched h 0 = .goes w nx) (hm : m.check = .clean) (he : 4 ≤ mwEvt w) :
    let t := s.wordIssue h 0 m (fun t => t.pixelWork h k)
    ((s.hewer h).tokens.getD (mwEvt w) 0 < 15 → (t.hewer h).tokens.getD (mwEvt w) 0 = (s.hewer h).tokens.getD (mwEvt w) 0 + 1 ∧ (t.hewer h).pixPc = nx) ∧
      (15 ≤ (s.hewer h).tokens.getD (mwEvt w) 0 → HewerStops s t h F.HWR_FAULT_TOKEN_OVF 14 0 (s.hewer h).pixPc) := by
  obtain ⟨hpost, hover⟩ := posts (work := fun t => t.pixelWork h k) (fun t => pixelWork_steps t h k) (i := mwEvt w) hh (by decide) hf hm he (by omega)
  refine ⟨fun hlt => ?_, hover⟩
  obtain ⟨htok, l, hcore⟩ := hpost hlt
  exact ⟨htok, (congrArg Hewer.pixPc hcore :)⟩

/-- A bitstream word that posts a token. -/
theorem bitIssue_posts {s : State} {h w nx : Nat} {m : LmUse} (k : BitWork) (hh : h < 24) (hf : s.fetched h 1 = .goes w nx) (hm : m.check = .clean) (he : 4 ≤ mwEvt w) :
    let t := s.wordIssue h 1 m (fun t => t.bitWork h k)
    ((s.hewer h).tokens.getD (mwEvt w - 4) 0 < 15 → (t.hewer h).tokens.getD (mwEvt w - 4) 0 = (s.hewer h).tokens.getD (mwEvt w - 4) 0 + 1 ∧ (t.hewer h).bsPc = nx) ∧
      (15 ≤ (s.hewer h).tokens.getD (mwEvt w - 4) 0 → HewerStops s t h F.HWR_FAULT_TOKEN_OVF 14 1 (s.hewer h).bsPc) := by
  obtain ⟨hpost, hover⟩ := posts (work := fun t => t.bitWork h k) (fun t => bitWork_steps t h k) (i := mwEvt w - 4) hh (by decide) hf hm he (by omega)
  refine ⟨fun hlt => ?_, hover⟩
  obtain ⟨htok, l, hcore⟩ := hpost hlt
  exact ⟨htok, (congrArg Hewer.bsPc hcore :)⟩

/-- No word of the bitstream sequencer waits at its time limit. -/
theorem noWait {s : State} {h : Nat} (hw : s.f F.HWR_STATUS_BS_WAIT h ≠ 1 ∨ mwWaitEn (s.wordAt h 1) = false ∨ (mwWaitSel (s.wordAt h 1) ≠ 0 ∧ s.condNow h 1 (mwCount 1 (s.wordAt h 1)) (mwWaitSel (s.wordAt h 1)) = true)) :
    s.f F.HWR_STATUS_BS_WAIT h ≠ 1 ∨ s.fetched h 1 ≠ .waits := hw.imp id fun ho => fetched_ne_waits (wordWaits_open ho)

/-- Settles O50: a word that issues goes on with the unit and leaves the hewer's sequencers as the word says; a fault stops the hewer before anyone hears of it, and no update, raise or drain takes it out of FAULT. -/
theorem sequencerEvents : Obligations.SequencerEvents := by
  unfold Obligations.SequencerEvents
  refine ⟨fun s h k b m hh hs hp => ⟨?_, ?_⟩, fun s h w nx m hh hs hw hp hb hnx hlt he hm => ⟨_, exec_pixelWordIssue hh _ m s, ?_⟩, fun s h w nx m hh hs hw hp hb ho hnx hlt he hm => ⟨_, exec_bitstreamWordIssue hh _ m s, ?_⟩,
    fun s h w nx k m hh hs hw hp hb hnx hlt he hm => ⟨_, exec_pixelWordIssue hh k m s, pixelIssue_keeps k (pixGoes hs hw hp hb hnx hlt) hm he⟩,
    fun s h w nx b m hh hs hw hp hb ho hnx hlt he hm => ⟨_, exec_bitstreamWordIssue hh b m s, bitIssue_keeps b (bitGoes hs hw hp hb ho hnx hlt) hm he⟩,
    fun s h w nx k m hh hs hw hp hb hnx hlt he hm => ⟨_, exec_pixelWordIssue hh k m s, pixelIssue_posts k hh (pixGoes hs hw hp hb hnx hlt) hm he⟩,
    fun s h w nx b m hh hs hw hp hb ho hnx hlt he hm => ⟨_, exec_bitstreamWordIssue hh b m s, bitIssue_posts b hh (bitGoes hs hw hp hb ho hnx hlt) hm he⟩,
    fun s h w nx k m hh hs hw hp hb hnx hlt hm he => ⟨_, exec_pixelWordIssue hh k m s, ?_⟩, fun s h w nx b m hh hs hw hp hb ho hnx hlt hm he => ⟨_, exec_bitstreamWordIssue hh b m s, ?_⟩,
    fun s h w nx k m hh hs hw hp hb hnx hlt hm => ⟨_, exec_pixelWordIssue hh k m s, uncorrected_stops hh (by decide) (pixGoes hs hw hp hb hnx hlt) hm⟩,
    fun s h w nx b m hh hs hw hp hb ho hnx hlt hm => ⟨_, exec_bitstreamWordIssue hh b m s, uncorrected_stops hh (by decide) (bitGoes hs hw hp hb ho hnx hlt) hm⟩,
    fun s h k b m hh hs hp hm => ⟨⟨_, exec_pixelWordIssue hh k m s, load_stops hh (by decide) hs hp hm⟩, _, exec_bitstreamWordIssue hh b m s, load_stops hh (by decide) hs hp hm⟩,
    fun s h w b m hh hs hw hp hb he hc => ⟨_, exec_bitstreamWordIssue hh b m s, ?_⟩, fun s h w k m hh hs hw => ⟨fun hp => ⟨_, exec_pixelWordIssue hh k m s, ?_⟩, fun hp hb => ⟨_, exec_pixelWordIssue hh k m s, ?_⟩⟩,
    fun s h w b m hh hs hw => ⟨fun hp => ⟨_, exec_bitstreamWordIssue hh b m s, ?_⟩, fun hp hb => ⟨_, exec_bitstreamWordIssue hh b m s, ?_⟩⟩,
    fun s h w nx k m hh hs hw hp hb hnx hge => ⟨_, exec_pixelWordIssue hh k m s, fails_stops hh (by decide) (pixRange hs hw hp hb hnx hge) (by decide) (by decide)⟩,
    fun s h w nx b m hh hs hw hp hb ho hnx hge => ⟨_, exec_bitstreamWordIssue hh b m s, fails_stops hh (by decide) (bitRange hs hw hp hb ho hnx hge) (by decide) (by decide)⟩,
    fun s h w hh hwait hs hw hp hb he hc => ⟨_, exec_hewerWaitTimeout hh s, ?_⟩, fun s h w hh hw ho hs hself => ⟨_, exec_hewerWaitTimeout hh s, ?_⟩, fun s h w hh hw ho hself => ?_,
    fun s h pass hh hs hf hw hu => ⟨_, exec_hewerTestDone hh pass s, ?_, ?_, fun m hm => testDone_answers pass hs hf hm hu⟩,
    fun s h pass u hh hs hf hu hat hw => ⟨_, exec_hewerTestDone hh pass s, testDone_update pass hs hf hu hat hw⟩,
    fun s h pass u hh hs hf hu hwaits hat hw => ⟨_, exec_hewerTestDone hh pass s, testDone_awaited pass hh hs hf hu hwaits hat hw⟩, fun s h pass hh hs => (exec_hewerTestDone hh pass s).trans (by rw [testDone_off pass hs]),
    fun s h e p hh hs hp hw hu => ⟨_, exec_patchLoadDone hh e s, ?_⟩, fun s h e p u hh hs hp hw hu hwaits hat hb => ⟨_, exec_patchLoadDone hh e s, loadDone_updates e hs hp hw hu hwaits hat hb⟩,
    fun s h e hh hs => (exec_patchLoadDone hh e s).trans (by rw [loadDone_off e hs])⟩
  · rw [exec_pixelWordIssue hh k m s, wordIssue_idle hs hp]
  · rw [exec_bitstreamWordIssue hh b m s, wordIssue_idle hs hp]
  · rw [pixelIssue_plain (pixGoes hs hw hp hb hnx hlt) hm he]
    exact Sets.refl _
  · rw [bitIssue_plain (bitGoes hs hw hp hb ho hnx hlt) hm he]
    exact (Sets.refl _).putNew _ _ _ rfl (by decide)
  · obtain ⟨hcount, hactive, hinst, x, n, hcore⟩ := issues_corrected (work := fun t => t.pixelWork h k) (fun t => pixelWork_steps t h k) hh (pixGoes hs hw hp hb hnx hlt) hm he
    exact ⟨hcount, hactive, hinst, (congrArg Hewer.pixPc hcore :)⟩
  · obtain ⟨hcount, hactive, hinst, x, n, hcore⟩ := issues_corrected (work := fun t => t.bitWork h b) (fun t => bitWork_steps t h b) hh (bitGoes hs hw hp hb ho hnx hlt) hm he
    exact ⟨hcount, hactive, hinst, (congrArg Hewer.bsPc hcore :)⟩
  · subst hw
    rw [wordIssue_waits (fetched_waits (q := 1) hs hp hb (wordWaits_shut he hc))]
    exact (Sets.refl s).putNew _ _ _ rfl (by decide)
  · subst hw
    exact fails_stops hh (by decide) (fetched_parity (q := 0) hs hp) (by decide) (by decide)
  · subst hw
    exact fails_stops hh (by decide) (fetched_form (q := 0) hs hp hb) (by decide) (by decide)
  · subst hw
    exact fails_stops hh (by decide) (fetched_parity (q := 1) hs hp) (by decide) (by decide)
  · subst hw
    exact fails_stops hh (by decide) (fetched_form (q := 1) hs hp hb) (by decide) (by decide)
  · subst hw
    rw [waitTimeout_waits hwait (fetched_waits (q := 1) hs hp hb (wordWaits_shut he hc))]
    exact (hewerFault_stops 15 _ hh (by decide) (by decide) (fun _ _ => rfl) (by decide)).1
  · subst hw
    rw [waitTimeout_eq (noWait ho), hs, hself, Bool.and_self, if_pos rfl]
    exact (hewerFault_stops 15 _ hh (by decide) (by decide) (fun _ _ => rfl) (by decide)).1
  · subst hw
    have hopen : s.f F.HWR_STATUS_BS_WAIT h ≠ 1 ∨ s.fetched h 1 ≠ .waits := by
      rcases ho with ho | ho | ho | ho
      · exact noWait (.inl ho)
      · exact noWait (.inr (.inl ho))
      · exact noWait (.inr (.inr ho))
      · exact .inr (by rw [fetched_idle ho]; simp)
    rw [exec_hewerWaitTimeout hh, waitTimeout_eq hopen, if_neg]
    rcases hself with hself | hself <;> simp [hself]
  · rw [testDone_plain pass hs hf hw hu]
    exact ((tellWaiter_seq _ pass hw).f _ h (by decide)).trans (testLeft_state pass)
  · rw [testDone_plain pass hs hf hw hu, (tellWaiter_seq _ pass hw).hewer h, testLeft_hewer]
  · obtain ⟨hstate, hown, hk, hlock, hanswer⟩ := loadDone_ends e hs hp hw hu
    obtain ⟨hid, hst, hused, hdata, hen⟩ := loaded_regs hk
    exact ⟨hstate, hid, hst, hused, by rw [hown]; rfl, by rw [hown]; rfl, hlock, hanswer, hdata, hen⟩

end Sys2Proof.Machine

/-! The end of reception (R77, R171): the picture in reception stays ended while its queue is looked at, and every missing slice becomes a concealment job. -/

namespace Sys2Proof.Machine

-- ## A picture whose reception has ended stays so

/-- The picture in progress of context `c` is past its reception. -/
def State.picEnded (s : State) (c : Nat) : Prop := (s.ctx c).pic.map (·.ended) = some true

theorem modCtx_own {s : State} {c : Nat} {x : Ctx} (h : s.ctx? c = some x) (g : Ctx → Ctx) : (s.modCtx c g).ctx c = g x := by
  rw [modCtx_of h, ctx_of (ctx?_setCtx? s c _)]

/-- A change of the context that keeps its picture. -/
theorem modCtx_pic (c : Nat) (s : State) (g : Ctx → Ctx) (hg : ∀ x, (g x).pic = x.pic := by intro x; rfl) : ((s.modCtx c g).ctx c).pic = (s.ctx c).pic := by
  cases hx : s.ctx? c with
  | none => rw [State.modCtx, hx]
  | some x => rw [modCtx_own hx, ctx_of hx, hg]

/-- A step under which an ended picture stays ended. -/
def StaysEnded (c : Nat) (s t : State) : Prop := s.picEnded c → t.picEnded c

namespace StaysEnded

theorem refl (c : Nat) (s : State) : StaysEnded c s s := id

theorem trans {c : Nat} {s t u : State} (h : StaysEnded c s t) (g : StaysEnded c t u) : StaysEnded c s u := fun hs => g (h hs)

theorem of_pic {c : Nat} {s t : State} (h : (t.ctx c).pic = (s.ctx c).pic) : StaysEnded c s t := fun hs => by
  unfold State.picEnded
  rw [h]
  exact hs

theorem modCtx (c : Nat) (s : State) (g : Ctx → Ctx) (hg : ∀ x, (g x).pic = x.pic := by intro x; rfl) : StaysEnded c s (s.modCtx c g) := of_pic (modCtx_pic c s g hg)

theorem ite {c : Nat} {s t u : State} {p : Prop} [Decidable p] (h : StaysEnded c s t) (g : StaysEnded c s u) : StaysEnded c s (if p then t else u) := by
  split
  · exact h
  · exact g

theorem stat (c : Nat) (s : State) (k n : Nat) : StaysEnded c s (s.stat c k n) := modCtx c s _

theorem frontReset (c : Nat) (s : State) : StaysEnded c s (s.frontReset c) := modCtx c s _

theorem frontDie (c : Nat) (s : State) : StaysEnded c s (s.frontDie c) := ite (frontReset c s) (modCtx c s _)

theorem dropUnit (c : Nat) (s : State) : StaysEnded c s (s.dropUnit c) := (modCtx c s _).trans (frontDie c _)

theorem frontErr (c : Nat) (s : State) (k : Nat) : StaysEnded c s (s.frontErr c k) := (stat c s k 1).trans (frontDie c _)

/-- Reception does not end twice. -/
theorem endReception (c : Nat) (s : State) : StaysEnded c s (s.endReception c) := by
  intro hs
  have hsame : s.endReception c = s := by
    unfold State.endReception
    dsimp only
    split
    · next hn => rw [State.picEnded, hn] at hs; exact absurd hs (by simp)
    · next p hp =>
      rw [State.picEnded, hp] at hs
      exact if_pos (Option.some.inj hs)
  rw [hsame]
  exact hs

/-- No picture begins while another is in progress. -/
theorem openPic (c : Nat) (s : State) (stamp : Nat) : StaysEnded c s (s.openPic c stamp) := by
  intro hs
  unfold State.openPic
  dsimp only
  split
  · next hn => rw [State.picEnded, hn] at hs; exact absurd hs (by simp)
  · exact hs

theorem openStream (c : Nat) (s : State) (h : StreamHdr) (raw : List Byte) : StaysEnded c s (s.openStream c h raw) := (endReception c s).trans (modCtx c _ _)

theorem onStreamHdr (c : Nat) (s : State) (body : List Byte) : StaysEnded c s (s.onStreamHdr c body) := by
  unfold State.onStreamHdr
  split
  · exact stat c s _ _
  · refine ite (stat c s _ _) ?_
    split
    · exact openStream c s _ _
    · exact ite (refl c s) (ite ((stat c s _ _).trans (modCtx c _ _)) (openStream c s _ _))

theorem onPicHdr (c : Nat) (s : State) (stamp start : Nat) (body : List Byte) : StaysEnded c s (s.onPicHdr c stamp start body) := by
  unfold State.onPicHdr
  dsimp only
  split
  · exact refl c s
  · split
    · exact stat c s _ _
    · exact ite (refl c s) (ite ((stat c s _ _).trans (modCtx c _ _)) (ite ((stat c s _ _).trans (modCtx c _ _)) (ite ((stat c s _ _).trans (modCtx c _ _))
        ((ite (refl c s) (endReception c s)).trans ((modCtx c _ _).trans (openPic c _ _))))))

theorem onMetadata (c : Nat) (s : State) (body : List Byte) : StaysEnded c s (s.onMetadata c body) :=
  ite (stat c s _ _) (ite (stat c s _ _) (ite (stat c s _ _) (ite (modCtx c s _) (ite (modCtx c s _) (ite (stat c s _ _) (refl c s))))))

theorem onStreamEnd (c : Nat) (s : State) : StaysEnded c s (s.onStreamEnd c) := ite (stat c s _ _) ((endReception c s).trans (modCtx c _ _))

theorem makeReady (c : Nat) (s : State) (r : Ready) (n : Nat) : StaysEnded c s (s.makeReady r n) := of_pic rfl

/-- A slice begins in the picture. -/
theorem acceptSlice (c : Nat) (s : State) (used : Nat) (h : SliceHdr) : StaysEnded c s (s.acceptSlice c used h) := by
  unfold State.acceptSlice
  dsimp only
  split
  · exact refl c s
  · next p hp =>
    have hbegun : StaysEnded c s (s.modCtx c (fun y => { y with pic := some { p with begun := p.begun ++ [h.slice] } })) := by
      intro hs
      cases hx : s.ctx? c with
      | none => rw [State.modCtx, hx]; exact hs
      | some x =>
        rw [State.picEnded, hp] at hs
        rw [State.picEnded, modCtx_own hx]
        exact hs
    exact (hbegun.trans (makeReady c _ _ _)).trans (ite (frontReset c _) (refl c _))

theorem abandonBuild (c : Nat) (s : State) (k : Nat) : StaysEnded c s (s.abandonBuild c k) := modCtx c s _

theorem checkBedUnit (c : Nat) (s : State) (body : List Byte) : StaysEnded c s (s.checkBedUnit c body).2 := by
  unfold State.checkBedUnit
  dsimp only
  split
  · exact frontErr c s _
  · split
    · exact dropUnit c s
    · split
      · exact frontErr c s _
      · split
        · exact (((stat c s _ _).trans (stat c _ _ _)).trans (frontDie c _)).trans (ite (abandonBuild c _ _) (refl c _))
        · split
          · exact refl c s
          · split_ifs
            · exact refl c s
            · exact frontDie c s
            · exact refl c s
            · exact (abandonBuild c s _).trans (frontErr c _ _)

theorem iteFst {c : Nat} {s : State} {p : Prop} [Decidable p] {a b : State × Bool} (h : StaysEnded c s a.1) (g : StaysEnded c s b.1) : StaysEnded c s (if p then a else b).1 := by
  split
  · exact h
  · exact g

theorem thenUsed {c : Nat} {s t : State} (k : Nat) (h : StaysEnded c s t) : StaysEnded c s (t.modCtx c (fun y => { y with frontUsed := k })) := h.trans (modCtx c t _)

theorem frontSlice (c : Nat) (s : State) (stamp used : Nat) (h : SliceHdr) (p : PicHdr) :
    StaysEnded c s (let u := (if (s.ctx c).receives h.picture then s else s.endReception c).openPic c stamp
      if u.frontReady c h p then (u.acceptSlice c used h, false) else (u, false)).1 := by
  have hend : StaysEnded c s ((if (s.ctx c).receives h.picture then s else s.endReception c).openPic c stamp) := (ite (refl c s) (endReception c s)).trans (openPic c _ stamp)
  exact iteFst (hend.trans (acceptSlice c _ used h)) hend

theorem frontSeg (c : Nat) (s : State) (stamp code : Nat) (body : List Byte) (used : Nat) : StaysEnded c s (s.frontSeg c stamp code body used).1 := by
  unfold State.frontSeg
  refine iteFst (frontErr c s _) (iteFst (thenUsed _ (onStreamHdr c s body)) (iteFst (thenUsed _ (onPicHdr c s _ _ _)) (iteFst (thenUsed _ (onStreamEnd c s))
    (iteFst (thenUsed _ (onMetadata c s body)) (iteFst ?_ (iteFst (frontErr c s _) (iteFst (checkBedUnit c s body) (thenUsed _ (stat c s _ _)))))))))
  split
  · exact dropUnit c s
  · next k _ =>
    have hend : StaysEnded c s (if (s.ctx c).laterSlice body then s.endReception c else s) := ite (endReception c s) (refl c s)
    exact hend.trans (frontErr c _ k)
  · next h p _ => exact frontSlice c s stamp _ h _

theorem skipOn (c : Nat) (s : State) (k : Nat) : StaysEnded c s (s.skipOn c k) := modCtx c s _

theorem skipBad (c : Nat) (s : State) (j : Nat) : StaysEnded c s (s.skipBad c j) := (stat c s _ _).trans (skipOn c _ _)

theorem examine (c fuel : Nat) (s : State) : StaysEnded c s (s.examine c fuel) := by
  induction fuel generalizing s with
  | zero => exact refl c s
  | succ n ih =>
    unfold State.examine
    simp only
    refine ite (refl c s) ?_
    split
    · exact refl c s
    · have hhunt : StaysEnded c s (if (s.ctx c).hunt then s.skipOn c (s.ctx c).frontUsed else s) := ite (skipOn c s _) (refl c s)
      refine hhunt.trans ?_
      generalize (if (s.ctx c).hunt then s.skipOn c (s.ctx c).frontUsed else s) = u
      split
      · split_ifs
        · exact refl c u
        · exact frontDie c u
        · exact frontErr c u _
      · exact (skipBad c u _).trans (ih _)
      · exact (skipBad c u _).trans (ih _)
      · split_ifs
        · exact (skipBad c u _).trans (ih _)
        · exact (frontSeg c u _ _ _ _).trans (ih _)
        · exact frontSeg c u _ _ _ _

theorem notice (c : Nat) (s : State) : StaysEnded c s (s.notice c) := examine c _ s

end StaysEnded

-- ## The end of reception

/-- The jobs of missing slices join the slices that are ready. -/
theorem mem_concealJobs (c : Nat) (p : Pic) {l : List Nat} {i : Nat} (hi : i ∈ l) (s : State) : ∃ r ∈ (chainAll l (fun i t => t.concealJob c p i) s).codec.ready, r.ctx = c ∧ r.slice = i ∧ r.picture = p.hdr.picture ∧ r.conceal = true ∧ r.enc = false := by
  have hkept : ∀ (l : List Nat) (s : State), ∀ r ∈ s.codec.ready, r ∈ (chainAll l (fun i t => t.concealJob c p i) s).codec.ready := by
    intro l
    induction l with
    | nil => exact fun _ _ hr => hr
    | cons j l ih => exact fun s r hr => ih (s.concealJob c p j) r (List.mem_append_left _ hr)
  induction l generalizing s with
  | nil => cases hi
  | cons j l ih =>
    rcases List.mem_cons.mp hi with rfl | hi
    · exact ⟨_, hkept l (s.concealJob c p i) _ (List.mem_append_right _ (List.mem_singleton_self _)), rfl, rfl, rfl, rfl, rfl⟩
    · exact ih hi (s.concealJob c p j)

/-- The slices of picture `p` that have not begun. -/
def Ctx.missing (x : Ctx) (p : Pic) : List Nat := (List.range x.geo.slices).filter (fun i => decide (i ∉ p.begun))

/-- The picture is past its reception. -/
def State.closePic (s : State) (c : Nat) (p : Pic) (l : List Nat) : State := s.modCtx c (fun y => { y with pic := some { p with ended := true, begun := p.begun ++ l } })

theorem endReception_open {s : State} {c : Nat} {x : Ctx} {p : Pic} (hx : s.ctx? c = some x) (hp : x.pic = some p) (he : p.ended = false) :
    s.endReception c = (chainAll (x.missing p) (fun i t => t.concealJob c p i) (s.closePic c p (x.missing p))).stat c (stErr errMissing) (x.missing p).length := by
  have hpic : (s.ctx c).pic = some p := by rw [ctx_of hx, hp]
  unfold State.endReception
  dsimp only
  split
  · next hn => exact absurd (hn.symm.trans hpic) (by simp)
  · next q hq =>
    obtain rfl : q = p := Option.some.inj (hq.symm.trans hpic)
    rw [if_neg (by rw [he]; decide), ctx_of hx]
    rfl

theorem closePic_ended {s : State} {c : Nat} {x : Ctx} (p : Pic) (l : List Nat) (hx : s.ctx? c = some x) : (s.closePic c p l).picEnded c := by
  unfold State.picEnded State.closePic
  rw [modCtx_own hx]
  rfl

theorem concealJobs_ended {s : State} {c : Nat} {p : Pic} (l : List Nat) (h : s.picEnded c) : (chainAll l (fun i t => t.concealJob c p i) s).picEnded c := by
  have hctx : ((chainAll l (fun i t => t.concealJob c p i) s).ctx c).pic = (s.ctx c).pic := chainAll_keep (fun t => (t.ctx c).pic) l (fun i t => t.concealJob c p i) (fun _ _ => rfl) s
  exact StaysEnded.of_pic hctx h

/-- RECEPTION_TIMEOUT of a picture in reception. -/
theorem receptionTimeout_ends {s : State} {c : Nat} {x : Ctx} {p : Pic} (hx : s.ctx? c = some x) (henc : x.enc = false) (hp : x.pic = some p) (he : p.ended = false) :
    ((s.receptionTimeout c).ctx c).pic.map (·.ended) = some true ∧
      ∀ i ∈ List.range x.geo.slices, i ∉ p.begun → ∃ r ∈ (s.receptionTimeout c).codec.ready, r.ctx = c ∧ r.slice = i ∧ r.picture = p.hdr.picture ∧ r.conceal = true ∧ r.enc = false := by
  have hrun : s.receptionTimeout c = (s.endReception c).notice c := if_neg (by rw [ctx_of hx, henc]; decide)
  rw [hrun]
  constructor
  · refine StaysEnded.notice c _ ?_
    rw [endReception_open hx hp he]
    exact StaysEnded.stat c _ _ _ (concealJobs_ended _ (closePic_ended p _ hx))
  · intro i hi hnot
    obtain ⟨r, hr, hwhat⟩ := mem_concealJobs c p (l := x.missing p) (i := i) (by simp [Ctx.missing, List.mem_range.mp hi, hnot]) (s.closePic c p (x.missing p))
    obtain ⟨l, hl, -⟩ := ((Looks.stat c (chainAll (x.missing p) (fun i t => t.concealJob c p i) (s.closePic c p (x.missing p))) (stErr errMissing) (x.missing p).length).trans (Looks.notice c _)).ready
    refine ⟨r, ?_, hwhat⟩
    rw [endReception_open hx hp he, hl]
    exact List.mem_append_left _ hr

/-- An encode context receives nothing. -/
theorem receptionTimeout_encode {s : State} {c : Nat} (h : (s.ctx c).enc = true) : s.receptionTimeout c = s := if_pos h

theorem exec_receptionTimeout {c : Nat} (hc : c < 4096) (s : State) : exec (.receptionTimeout c) s = .next (s.receptionTimeout c) := onInstance_of (decide_eq_true hc) _

-- ## The stall limit (R170)

theorem exec_stallLimitExpire {h : Nat} (hh : h < 24) (s : State) : exec (.stallLimitExpire h) s = .next (s.stallExpire h) := onInstance_of (decide_eq_true hh) _

theorem stallExpire_truncates {s : State} {h : Nat} {r : Run} (hr : (s.hewer h).run = some r) (he : r.what.enc = false) (hc : r.closed = false) : s.stallExpire h = s.setRun h { r with closed := true, truncated := true } := by
  unfold State.stallExpire
  rw [hr]
  exact if_neg (by rw [he, hc]; decide)

theorem stallExpire_none {s : State} {h : Nat} (hr : (s.hewer h).run.all (fun r => r.what.enc || r.closed) = true) : s.stallExpire h = s := by
  unfold State.stallExpire
  split
  · rfl
  · next r hrun =>
    rw [hrun] at hr
    exact if_pos hr

end Sys2Proof.Machine

/-! SLICE_COMPLETE (R147, R191, R193, R194). -/

namespace Sys2Proof.Machine

-- ## The hewer has no unit any more

/-- The unit of hewer `h` is gone, with its marks. -/
def State.unitGone (s : State) (h : Nat) : State :=
  ((s.setF F.HWR_STATUS_CTX h 0).setF F.HWR_STATUS_BS_WAIT h 0).setHewer h { s.hewer h with run := none, doneEvt := false, pixSelf := false }

/-- A drain ends: the hewer is DRAINED, or OUT. -/
def State.drainEnds (s : State) (h : Nat) (out : Bool) : State := (s.setHewer h { s.hewer h with goOut := false, drainFor := [] }).setHwState h (if out then hwOut else hwDrained)

theorem unitGone_hewer (s : State) (h : Nat) : (s.unitGone h).hewer h = { s.hewer h with run := none, doneEvt := false, pixSelf := false } := hewer_setHewer _ _ _

theorem unitGone_f (s : State) (h i : Nat) {x : Fld} (hc : x.code ≠ F.HWR_STATUS_CTX.code) (hw : x.code ≠ F.HWR_STATUS_BS_WAIT.code) : (s.unitGone h).f x i = s.f x i :=
  (State.f_setF_code _ _ _ _ _ _ hw).trans (State.f_setF_code _ _ _ _ _ _ hc)

theorem unitGone_state (s : State) (h : Nat) : (s.unitGone h).hwState h = s.hwState h := unitGone_f s h h (by decide) (by decide)

theorem unitGone_marks (s : State) (h : Nat) : (s.unitGone h).f F.HWR_STATUS_CTX h = 0 ∧ (s.unitGone h).f F.HWR_STATUS_BS_WAIT h = 0 :=
  ⟨(State.f_setF_code _ _ _ _ _ _ (by decide)).trans (State.f_setF_same _ _ _ _), State.f_setF_same _ _ _ _⟩

theorem hewerFreed_runs {s : State} {h : Nat} (hs : s.hwState h = hwRun) : s.hewerFreed h = (s.unitGone h).setHwState h hwIdle := by
  have hstate := (unitGone_state s h).trans hs
  have hbranch : s.hewerFreed h = (if (s.unitGone h).hwState h = hwDraining then ((s.unitGone h).drainEnds h (s.hewer h).goOut).tellDrained h (s.hewer h).drainFor
      else if (s.unitGone h).hwState h = hwRun then (s.unitGone h).setHwState h hwIdle else s.unitGone h) := rfl
  rw [hbranch, hstate, if_neg (by decide), if_pos rfl]

theorem hewerFreed_drains {s : State} {h : Nat} (hs : s.hwState h = hwDraining) : s.hewerFreed h = ((s.unitGone h).drainEnds h (s.hewer h).goOut).tellDrained h (s.hewer h).drainFor :=
  if_pos ((unitGone_state s h).trans hs)

section
variable (s : State) (h : Nat) (out : Bool)

theorem drainEnds_hewer : (s.drainEnds h out).hewer h = { s.hewer h with goOut := false, drainFor := [] } := (setHwState_hewer _ _ _ _).trans (hewer_setHewer _ _ _)

theorem drainEnds_state : (s.drainEnds h out).hwState h = if out then hwOut else hwDrained := by
  refine (setHwState_state _ _ _).trans ?_
  split <;> rfl

theorem drainEnds_f (i : Nat) {x : Fld} (hx : x ∈ seqFields) (hc : x.code ≠ F.HWR_STATUS_STATE.code) : (s.drainEnds h out).f x i = s.f x i := setHwState_f _ _ _ _ hx hc

theorem drainEnds_update : (s.drainEnds h out).codec.update = s.codec.update := setHwState_update _ _ _

end

/-- The end of a drain that no update waits for. -/
theorem tellDrained_seq (h : Nat) {ws : List Waiter} (hws : Waiter.update ∉ ws) (s : State) : SeqKeeps s (s.tellDrained h ws) := by
  unfold State.tellDrained
  induction ws generalizing s with
  | nil => exact SeqKeeps.refl s
  | cons w ws ih =>
    obtain ⟨hw, hrest⟩ : Waiter.update ≠ w ∧ Waiter.update ∉ ws := by simpa using hws
    refine SeqKeeps.trans ?_ (ih hrest _)
    cases w with
    | update => exact absurd rfl hw
    | none => exact tellWaiter_seq s true (w := .none) (by simp)
    | mailbox m => exact tellWaiter_seq s true (w := .mailbox m) (by simp)
    | job j => exact tellWaiter_seq s true (w := .job j) (by simp)

/-- The end of a drain for which the update waits starts its load. -/
theorem tellDrained_update {s : State} {h : Nat} {u : Update} (hu : s.codec.update = some u) (hs : s.hwState h = hwDrained ∨ s.hwState h = hwOut) : s.tellDrained h [.update] = s.beginLoad h u.set .update := by
  have hone : s.tellDrained h [.update] = (match s.codec.update with
      | none => s
      | some u => if s.hwState h = hwDrained ∨ s.hwState h = hwOut then s.beginLoad h u.set .update else s.updateFailed) := rfl
  rw [hone, hu]
  exact if_pos hs

theorem beginLoad_run (s : State) (h : Nat) (p : PatchSet) (w : Waiter) : ((s.beginLoad h p w).hewer h).run = (s.hewer h).run := by
  unfold State.beginLoad
  extract_lets s1 src s2
  rw [setHwState_hewer]
  have hown : s2.hewer h = { src with loading := some p, loadFor := w, loadFrom := s1.hwState h, patchEvt := false } := hewer_setHewer s1 h _
  exact (congrArg Hewer.run hown :)

-- ## The unit is complete

/-- What follows the release of the hewer of unit `r`. -/
def State.unitCounted (s : State) (h : Nat) (r : Run) : State :=
  let s := s.count F.HWR_SLICES_COUNT h F.HWR_CNT_SAT_SLICES_SAT h 1
  let s := if r.bed then s.finishBed r.what.ctx r else s.finishSlice r.what.ctx r
  (if r.what.enc then s else (s.parseOn r.what.ctx r).notice r.what.ctx).reap

theorem exec_sliceComplete {h : Nat} (hh : h < 24) (s : State) : exec (.sliceComplete h) s = .next (s.sliceComplete h) := onInstance_of (decide_eq_true hh) _

theorem sliceComplete_open {s : State} {h : Nat} (hc : (s.flush h).canComplete h = false) : s.sliceComplete h = s.flush h := if_pos (by rw [hc]; rfl)

theorem sliceComplete_done {s : State} {h : Nat} (hc : (s.flush h).canComplete h = true) : ∃ r, s.sliceComplete h = ((s.flush h).hewerFreed h).unitCounted h r := by
  unfold State.sliceComplete
  dsimp only
  rw [if_neg (by rw [hc]; decide)]
  split
  · next hn =>
    unfold State.canComplete at hc
    rw [hn] at hc
    exact absurd hc (by decide)
  · next r _ => exact ⟨r, rfl⟩

/-- The results of a unit leave the hewers, and their registers after the count. -/
theorem unitCounted_seq (s : State) (h : Nat) (r : Run) : SeqKeeps (s.count F.HWR_SLICES_COUNT h F.HWR_CNT_SAT_SLICES_SAT h 1) (s.unitCounted h r) := by
  unfold State.unitCounted
  extract_lets s1 s2
  have h2 : SeqKeeps s1 s2 := SeqKeeps.ite (finishBed_seq s1 _ r) (finishSlice_seq s1 _ r)
  exact (h2.trans (SeqKeeps.ite (SeqKeeps.refl s2) ((parseOn_seq s2 _ r).trans (notice_seq _ _)))).trans (reap_seq _)

theorem unitCounted_hewer (s : State) (h : Nat) (r : Run) : (s.unitCounted h r).hewer h = s.hewer h :=
  ((unitCounted_seq s h r).hewer h).trans (hewer_of_codec (codec_count s _ _ _ _ _) h)

theorem unitCounted_f (s : State) (h : Nat) (r : Run) (i : Nat) {x : Fld} (hx : x ∈ seqFields) (hc : x.code ≠ F.HWR_SLICES_COUNT.code) (hs : x.code ≠ F.HWR_CNT_SAT_SLICES_SAT.code) : (s.unitCounted h r).f x i = s.f x i :=
  ((unitCounted_seq s h r).f x i hx).trans (State.f_count _ _ _ _ _ _ _ _ hc hs)

theorem unitCounted_count (s : State) (h : Nat) (r : Run) : (s.unitCounted h r).f F.HWR_SLICES_COUNT h = min (s.f F.HWR_SLICES_COUNT h + 1) (2 ^ 32 - 1) :=
  ((unitCounted_seq s h r).f _ h (by decide)).trans (State.f_count_same _ _ _ _ _ _ (by decide))

-- ## As the statement says it

section
variable {s : State} {h : Nat} (hc : (s.flush h).canComplete h = true)
include hc

/-- The unit of a hewer in RUN. -/
theorem sliceComplete_runs (hs : s.hwState h = hwRun) :
    ((s.sliceComplete h).hewer h).run = none ∧ (s.sliceComplete h).hwState h = hwIdle ∧ (s.sliceComplete h).f F.HWR_STATUS_CTX h = 0 ∧ (s.sliceComplete h).f F.HWR_STATUS_BS_WAIT h = 0 ∧
      (s.sliceComplete h).f F.HWR_SLICES_COUNT h = min (s.f F.HWR_SLICES_COUNT h + 1) (2 ^ 32 - 1) := by
  obtain ⟨r, hr⟩ := sliceComplete_done hc
  have hflush := flush_steps s h
  have hfreed := hewerFreed_runs (s := s.flush h) (h := h) ((hflush.f _ h (by decide)).trans hs)
  obtain ⟨hctx, hwait⟩ := unitGone_marks (s.flush h) h
  rw [hr, hfreed, unitCounted_hewer, setHwState_hewer, unitGone_hewer, unitCounted_count]
  refine ⟨rfl, (unitCounted_f _ h r h (by decide) (by decide) (by decide)).trans (setHwState_state _ _ _), ?_, ?_, ?_⟩
  · exact (unitCounted_f _ h r h (by decide) (by decide) (by decide)).trans ((setHwState_f _ _ _ _ (by decide) (by decide)).trans hctx)
  · exact (unitCounted_f _ h r h (by decide) (by decide) (by decide)).trans ((setHwState_f _ _ _ _ (by decide) (by decide)).trans hwait)
  · rw [setHwState_f _ _ _ _ (by decide) (by decide), unitGone_f _ _ _ (by decide) (by decide), hflush.f _ h (by decide)]

/-- The unit of a hewer that drains, for commands or for nobody. -/
theorem sliceComplete_drains (hs : s.hwState h = hwDraining) (hw : Waiter.update ∉ (s.hewer h).drainFor) :
    ((s.sliceComplete h).hewer h).run = none ∧ (s.sliceComplete h).hwState h = (if (s.hewer h).goOut = true then hwOut else hwDrained) ∧ ((s.sliceComplete h).hewer h).goOut = false ∧ ((s.sliceComplete h).hewer h).drainFor = [] ∧
      (s.sliceComplete h).f F.HWR_STATUS_CTX h = 0 := by
  obtain ⟨r, hr⟩ := sliceComplete_done hc
  have hflush := flush_steps s h
  have hcore := hflush.core h
  have hfreed := hewerFreed_drains (s := s.flush h) (h := h) ((hflush.f _ h (by decide)).trans hs)
  have hout : ((s.flush h).hewer h).goOut = (s.hewer h).goOut := (congrArg Hewer.goOut hcore :)
  have hfor : ((s.flush h).hewer h).drainFor = (s.hewer h).drainFor := (congrArg Hewer.drainFor hcore :)
  have htold := tellDrained_seq h hw (((s.flush h).unitGone h).drainEnds h (s.hewer h).goOut)
  have hown : ((s.sliceComplete h).hewer h) = { ((s.flush h).unitGone h).hewer h with goOut := false, drainFor := [] } := by
    rw [hr, hfreed, hout, hfor, unitCounted_hewer, htold.hewer h, drainEnds_hewer]
  have hreg : ∀ x ∈ [F.HWR_STATUS_STATE, F.HWR_STATUS_CTX], (s.sliceComplete h).f x h = (((s.flush h).unitGone h).drainEnds h (s.hewer h).goOut).f x h := fun x hx => by
    obtain ⟨hseq, hcount, hsat⟩ := (by decide : ∀ x ∈ [F.HWR_STATUS_STATE, F.HWR_STATUS_CTX], x ∈ seqFields ∧ x.code ≠ F.HWR_SLICES_COUNT.code ∧ x.code ≠ F.HWR_CNT_SAT_SLICES_SAT.code) x hx
    rw [hr, hfreed, hout, hfor, unitCounted_f _ _ _ _ hseq hcount hsat, htold.f x h hseq]
  refine ⟨?_, (hreg _ (by simp)).trans (drainEnds_state _ _ _), ?_, ?_, (hreg _ (by simp)).trans ((drainEnds_f _ _ _ _ (by decide) (by decide)).trans (unitGone_marks _ h).1)⟩
  · rw [hown, unitGone_hewer]
  · rw [hown]
  · rw [hown]

/-- The unit of a hewer that drains for the update. -/
theorem sliceComplete_loads {u : Update} (hs : s.hwState h = hwDraining) (hw : (s.hewer h).drainFor = [.update]) (hu : s.codec.update = some u) :
    ((s.sliceComplete h).hewer h).run = none ∧ (s.sliceComplete h).hwState h = hwPatching ∧ ((s.sliceComplete h).hewer h).loading = some u.set := by
  obtain ⟨r, hr⟩ := sliceComplete_done hc
  have hflush := flush_steps s h
  have hfreed := hewerFreed_drains (s := s.flush h) (h := h) ((hflush.f _ h (by decide)).trans hs)
  have hfor : ((s.flush h).hewer h).drainFor = [.update] := (congrArg Hewer.drainFor (hflush.core h) :).trans hw
  have hupd : (((s.flush h).unitGone h).drainEnds h ((s.flush h).hewer h).goOut).codec.update = some u := (drainEnds_update _ _ _).trans (hflush.update.trans hu)
  have hdrained : (((s.flush h).unitGone h).drainEnds h ((s.flush h).hewer h).goOut).hwState h = hwDrained ∨ (((s.flush h).unitGone h).drainEnds h ((s.flush h).hewer h).goOut).hwState h = hwOut := by
    rw [drainEnds_state]
    split
    · exact .inr rfl
    · exact .inl rfl
  rw [hr, hfreed, hfor, tellDrained_update hupd hdrained, unitCounted_hewer, beginLoad_run, beginLoad_loading, drainEnds_hewer, unitGone_hewer]
  exact ⟨rfl, (unitCounted_f _ h r h (by decide) (by decide) (by decide)).trans (beginLoad_state _ _ _ _), rfl⟩

end

end Sys2Proof.Machine

/-! A hewer takes a unit; BEDROCK_UNIT_DISPATCH (R163 to R166). -/

namespace Sys2Proof.Machine

-- ## A hewer takes a unit

/-- Hewer `h` runs `r`, a unit of context `c`; `hit`: the context was in the cache. -/
def State.seated (s : State) (h c : Nat) (r : Run) (hit : Bool) : State := ((s.freshHewer h r hit).setF F.HWR_STATUS_CTX h c).setHwState h hwRun

section
variable (s : State) (h c : Nat) (r : Run) (hit : Bool)

theorem seated_hewer : (s.seated h c r hit).hewer h = { s.hewer h with
    run := some { r with hewer := h }, pixPc := Config.freeNat 13 s.free % 0x4400, bsPc := Config.freeNat 14 s.free % 0x4400, loops := List.replicate 8 0, tokens := List.replicate 8 0, pixSelf := false, doneEvt := false, ctxHit := hit, signals := {}, bioIn := false, bioOut := false } :=
  (setHwState_hewer _ _ _ _).trans (hewer_setHewer s h _)

theorem seated_state : (s.seated h c r hit).hwState h = hwRun := setHwState_state _ _ _

theorem seated_ctxReg : (s.seated h c r hit).f F.HWR_STATUS_CTX h = c % 4096 := (setHwState_f _ _ _ _ (by decide) (by decide)).trans (State.f_setF_same _ _ _ _)

theorem setHwState_codec (k st : Nat) : (s.setHwState k st).codec = s.codec := (setHwState_writes s k st).codec

theorem seated_codec : ∃ l, (s.seated h c r hit).codec = { s.codec with hewers := l } := ⟨_, setHwState_codec ((s.freshHewer h r hit).setF F.HWR_STATUS_CTX h c) h hwRun⟩

theorem seated_ctx (d : Nat) : (s.seated h c r hit).ctx d = s.ctx d := by
  obtain ⟨l, hl⟩ := seated_codec s h c r hit
  rw [State.ctx, State.ctx?, hl]
  rfl

/-- The registers that a hewer which takes a unit leaves as they are. -/
theorem seated_off : Off (F.HWR_STATUS_BS_WAIT :: F.HWR_STATUS_CTX :: F.HWR_STATUS_STATE :: capacityFields) s (s.seated h c r hit) := by
  have hfresh : Off (F.HWR_STATUS_BS_WAIT :: F.HWR_STATUS_CTX :: F.HWR_STATUS_STATE :: capacityFields) s (s.freshHewer h r hit) := ((Off.refl _ s).trans (Off.same rfl)).trans ((Off.refl _ _).setF F.HWR_STATUS_BS_WAIT h 0 rfl)
  exact (hfresh.setF _ _ _ rfl).trans ((setHwState_writes _ h hwRun).off.mono rfl)

end

-- ## Which unit goes (R164)

theorem exec_bedrockUnitDispatch {h : Nat} (hh : h < 24) (s : State) : exec (.bedrockUnitDispatch h) s = .next (s.bedDispatch h) := onInstance_of (decide_eq_true hh) _

section
variable {s : State} {h : Nat}

theorem bedDispatch_off (hs : s.hwState h ≠ hwIdle ∨ s.f F.SCH_CTRL_DISPATCH_EN 0 ≠ 1 ∨ s.fatal = true ∨ s.f F.PWR_STATUS_STATE 0 = 1 ∨ s.codec.ready.any (fun r => s.descReady r) = true ∨ (∀ k ∈ allHewers, k = h ∨ s.hwState k ≠ hwIdle)) :
    s.bedDispatch h = s := by
  refine if_pos ?_
  rcases hs with hs | hs | hs | hs | hs | hs
  · exact .inl hs
  · exact .inr (.inl (decide_eq_false hs))
  · exact .inr (.inr (.inl hs))
  · exact .inr (.inr (.inr (.inl hs)))
  · exact .inr (.inr (.inr (.inr (.inl hs))))
  · refine .inr (.inr (.inr (.inr (.inr (List.filter_eq_nil_iff.mpr fun k hk => ?_)))))
    rcases hs k hk with hs | hs <;> simp [hs]

/-- Nothing holds a dispatch back. -/
theorem bedDispatch_open {k : Nat} (hk : k < 24) (hne : k ≠ h) (hs : s.hwState h = hwIdle) (hother : s.hwState k = hwIdle) (hen : s.f F.SCH_CTRL_DISPATCH_EN 0 = 1) (hf : s.fatal = false) (hp : s.f F.PWR_STATUS_STATE 0 ≠ 1)
    (hready : s.codec.ready.any (fun r => s.descReady r) = false) : s.bedDispatch h = (match s.ctxNums.findSome? (fun c => (s.bedUnit c).map (fun u => (c, u))) with
      | some (c, u) => s.startBed h c u
      | none => s) := by
  have hfb : s.fb F.SCH_CTRL_DISPATCH_EN 0 = true := fb_true hen
  have hidle : allHewers.filter (fun j => decide (j ≠ h) && decide (s.hwState j = hwIdle)) ≠ [] := by
    intro hnil
    have hnone := List.filter_eq_nil_iff.mp hnil k (List.mem_range.mpr hk)
    simp [hne, hother] at hnone
  refine if_neg ?_
  rw [hs, hfb, hf, hready]
  simp only [ne_eq, not_true_eq_false, Bool.true_eq_false, Bool.false_eq_true, false_or]
  exact not_or.mpr ⟨hp, hidle⟩

theorem bedDispatch_none (hnone : s.ctxNums.all (fun c => (s.bedUnit c).isNone) = true) : s.bedDispatch h = s := by
  have hfind : s.ctxNums.findSome? (fun c => (s.bedUnit c).map (fun u => (c, u))) = none := by
    rw [List.findSome?_eq_none_iff]
    intro c hc
    rw [Option.isNone_iff_eq_none.mp (List.all_eq_true.mp hnone c hc)]
    rfl
  unfold State.bedDispatch
  split
  · rfl
  · rw [hfind]

/-- The first context with a unit gives it. -/
theorem findSome?_pair {α : Type} {l : List Nat} {g : Nat → Option α} {c : Nat} {u : α} (hf : l.find? (fun d => (g d).isSome) = some c) (hu : g c = some u) : l.findSome? (fun d => (g d).map (fun u => (d, u))) = some (c, u) := by
  induction l with
  | nil => simp at hf
  | cons a l ih =>
    rw [List.find?_cons] at hf
    rw [List.findSome?_cons]
    cases ha : g a with
    | none =>
      rw [ha] at hf
      exact ih hf
    | some v =>
      rw [ha] at hf
      obtain rfl : a = c := Option.some.inj hf
      obtain rfl : v = u := Option.some.inj (ha.symm.trans hu)
      rfl

/-- The unit of an encode context's load. -/
theorem bedUnit_load {c : Nat} {x : Ctx} {l : BedLoad} (hx : s.ctx? c = some x) (henc : x.enc = true) (hu : (s.bedUnit c).isSome = true) (hl : x.loads.find? (fun y => !y.running && decide (y.readyAt ≠ []) && y.src.isSome) = some l) : s.bedUnit c = some (.load l) := by
  unfold State.bedUnit at hu ⊢
  dsimp only at hu ⊢
  rw [ctx_of hx, henc, if_pos rfl] at hu ⊢
  split
  · next hn => rw [if_pos hn] at hu; exact absurd hu (by decide)
  · rw [hl]
    rfl

/-- The unit of a decode context is the one at the head of its queue. -/
theorem bedUnit_front {c : Nat} {x : Ctx} (hx : s.ctx? c = some x) (henc : x.enc = false) (hu : (s.bedUnit c).isSome = true) : ∃ hd d k, s.bedUnit c = some (.front hd d k) := by
  unfold State.bedUnit at hu ⊢
  dsimp only at hu ⊢
  rw [ctx_of hx, henc, if_neg (by decide)] at hu ⊢
  cases hf : s.frontBed c with
  | none => rw [hf] at hu; exact absurd hu (by decide)
  | some p => exact ⟨p.1, p.2.1, p.2.2, rfl⟩

end

-- ## The unit starts

theorem swapAreas_ctx (s : State) (c k d : Nat) : (s.swapAreas c k).ctx d = s.ctx d := rfl

theorem modCtx_loads (s : State) (c : Nat) (g : Ctx → Ctx) (hg : ∀ x, (g x).loads = x.loads := by intro x; rfl) : ((s.modCtx c g).ctx c).loads = (s.ctx c).loads := by
  cases hx : s.ctx? c with
  | none => rw [State.modCtx, hx]
  | some x => rw [modCtx_own hx, ctx_of hx, hg]

theorem beginBuild_loads (s : State) (c k gen row : Nat) : ((s.beginBuild c k gen row).ctx c).loads = (s.ctx c).loads := by
  unfold State.beginBuild
  dsimp only
  split
  · rfl
  · split
    · exact (modCtx_loads _ _ _).trans (congrArg Ctx.loads (swapAreas_ctx s c k c))
    · exact modCtx_loads _ _ _

/-- The load sends its next unit. -/
def State.loadSends (s : State) (c : Nat) (l : BedLoad) : State :=
  s.modCtx c (fun y => { y with loads := y.loads.map (fun k => if k.slot = l.slot then { k with readyAt := k.readyAt.drop 1, running := true, crc := if l.row = 0 then 0 else k.crc } else k) })

theorem loadSends_loads {s : State} {c : Nat} (l : BedLoad) : ((s.loadSends c l).ctx c).loads.all (fun y => decide (y.slot ≠ l.slot) || y.running) = true := by
  cases hx : s.ctx? c with
  | none =>
    rw [State.loadSends, State.modCtx, hx, State.ctx, hx]
    rfl
  | some x =>
    rw [State.loadSends, modCtx_own hx, List.all_map, List.all_eq_true]
    intro y _
    simp only [Function.comp]
    split
    · simp
    · next hne => simp [hne]

/-- The key that a unit takes is all that sealing changes of it. -/
theorem sealRun_eq (s : State) (r : Run) : ∃ b k, s.sealRun r = { r with sealed := b, key := k } := by
  unfold State.sealRun
  dsimp only
  split
  · exact ⟨true, _, rfl⟩
  · exact ⟨r.sealed, r.key, rfl⟩

/-- The build of a load's unit begins, where the load has not been sent once. -/
def State.loadBuilds (s : State) (c : Nat) (l : BedLoad) : State := if l.doneAt = none then (s.loadSends c l).beginBuild c l.slot l.gen l.row else s.loadSends c l

/-- The run of a load's next unit, before it takes a key. -/
def State.loadRun (s : State) (c : Nat) (l : BedLoad) : Run :=
  { what := { ctx := c, enc := true, picture := l.readyAt.headD 0 }, bed := true, effort := s.effortNow c, capBytes := 4194304, hdr := s.ownBedHdr c l, phase := .blocks, rice := riceStart false, qp := l.qp, void := !(s.ownBedHdr c l).refine, stream := (s.ctx c).stream.getD (s.ownStream c (s.ctx c).serial) }

/-- A unit of a load starts. -/
theorem startBed_load (s : State) (h c : Nat) (l : BedLoad) : ∃ (t : State) (r : Run), s.startBed h c (.load l) = t.seated h c r (decide (c ∈ s.codec.cache)) ∧ (t.ctx c).loads = ((s.loadSends c l).ctx c).loads ∧
    r.bed = true ∧ r.what.ctx = c ∧ r.what.enc = true ∧ r.what.picture = l.readyAt.headD 0 ∧ r.hdr = s.ownBedHdr c l := by
  have hloads : ((s.loadBuilds c l).ctx c).loads = ((s.loadSends c l).ctx c).loads := by
    unfold State.loadBuilds
    split
    · exact beginBuild_loads _ _ _ _ _
    · rfl
  obtain ⟨b, k, hk⟩ := sealRun_eq s (s.loadRun c l)
  refine ⟨(s.loadBuilds c l).cacheCtx c, s.sealRun (s.loadRun c l), rfl, hloads, ?_⟩
  rw [hk]
  exact ⟨rfl, rfl, rfl, rfl, rfl⟩

/-- The unit at the head of a decode queue starts. -/
theorem startBed_front (s : State) (h c : Nat) (hd : SliceHdr) (d : BedHdr) (k : Nat) : ∃ (t : State) (r : Run), s.startBed h c (.front hd d k) = t.seated h c r (decide (c ∈ s.codec.cache)) ∧ r.bed = true ∧ r.what.ctx = c ∧ r.what.enc = false :=
  ⟨_, _, rfl, rfl, rfl, rfl⟩

end Sys2Proof.Machine

/-! SLICE_DISPATCH (R136 to R138, R145, R157, R421). -/

namespace Sys2Proof.Machine

-- ## What the start of a slice leaves alone

/-- The slices that are ready, the cache, the events of contexts and the alarm of keys are in `t` as in `s`. -/
structure Starts (s t : State) : Prop where
  ready : t.codec.ready = s.codec.ready
  cache : t.codec.cache = s.codec.cache
  events : ∀ d, (t.ctx d).event = (s.ctx d).event
  alarm : t.f F.SEC_EVENT_KEY_EXHAUSTED 0 = s.f F.SEC_EVENT_KEY_EXHAUSTED 0

theorem modCtx_other (s : State) {c d : Nat} (g : Ctx → Ctx) (h : d ≠ c) : (s.modCtx c g).ctx? d = s.ctx? d := by
  unfold State.modCtx
  split
  · rfl
  · exact ctx?_setCtx?_ne s _ h

theorem modCtx_event (s : State) (c d : Nat) (g : Ctx → Ctx) (hg : ∀ x, (g x).event = x.event := by intro x; rfl) : ((s.modCtx c g).ctx d).event = (s.ctx d).event := by
  by_cases hd : d = c
  · subst hd
    cases hx : s.ctx? d with
    | none => rw [State.modCtx, hx]
    | some x => rw [modCtx_own hx, ctx_of hx, hg]
  · rw [State.ctx, State.ctx, modCtx_other s g hd]

theorem modCtx_kept (s : State) (c : Nat) (g : Ctx → Ctx) : (s.modCtx c g).codec.ready = s.codec.ready ∧ (s.modCtx c g).codec.cache = s.codec.cache := by
  unfold State.modCtx
  split <;> exact ⟨rfl, rfl⟩

namespace Starts
variable {s t u : State}

theorem refl (s : State) : Starts s s := ⟨rfl, rfl, fun _ => rfl, rfl⟩

theorem trans (a : Starts s t) (b : Starts t u) : Starts s u := ⟨b.ready.trans a.ready, b.cache.trans a.cache, fun d => (b.events d).trans (a.events d), b.alarm.trans a.alarm⟩

theorem setF (a : Starts s t) (x : Fld) (i v : Nat) (hx : F.SEC_EVENT_KEY_EXHAUSTED.code ≠ x.code) : Starts s (t.setF x i v) := a.trans ⟨rfl, rfl, fun _ => rfl, State.f_setF_code _ _ _ _ _ _ hx⟩

/-- A step that keeps contexts, cache and ready slices, and writes none of the alarm's registers. -/
theorem off {fs : List Fld} (h : Off fs s t) (hfs : fs.all (fun y => F.SEC_EVENT_KEY_EXHAUSTED.code != y.code) = true) (hx : t.codec.ctxs = s.codec.ctxs) (hr : t.codec.ready = s.codec.ready) (hc : t.codec.cache = s.codec.cache) : Starts s t :=
  ⟨hr, hc, fun d => by rw [State.ctx, State.ctx, State.ctx?, State.ctx?, hx], h.at_ _ _ hfs⟩

theorem same (hx : t.codec = s.codec) (hr : t.regs = s.regs) : Starts s t := ⟨by rw [hx], by rw [hx], fun d => by rw [ctx_of_codec hx], by rw [State.f, State.f, hr]⟩

theorem op (h : QueueOp s t) : Starts s t := same (codec_of_sansPool h.rest) h.regs

theorem modCtx (a : Starts s t) (c : Nat) (g : Ctx → Ctx) (hg : ∀ x, (g x).event = x.event := by intro x; rfl) : Starts s (t.modCtx c g) := by
  obtain ⟨hready, hcache⟩ := modCtx_kept t c g
  refine a.trans ⟨hready, hcache, fun d => modCtx_event t c d g hg, ?_⟩
  rw [State.f, State.f, (modCtx_regs t c g).1]

theorem ite {p : Prop} [Decidable p] (a : Starts s t) (b : Starts s u) : Starts s (if p then t else u) := by
  split
  · exact a
  · exact b

theorem count (a : Starts s t) (x : Fld) (i : Nat) (y : Fld) (j k : Nat) (hx : F.SEC_EVENT_KEY_EXHAUSTED.code ≠ x.code) (hy : F.SEC_EVENT_KEY_EXHAUSTED.code ≠ y.code) : Starts s (t.count x i y j k) := by
  have hc := codec_count t x i y j k
  exact a.trans ⟨by rw [hc], by rw [hc], fun d => by rw [ctx_of_codec hc], State.f_count _ _ _ _ _ _ _ _ hx hy⟩

end Starts

theorem countDrop_starts (s : State) (q : Nat) : Starts s (s.countDrop q) := ((Starts.refl s).count _ _ _ _ _ (by decide) (by decide)).setF _ _ _ (by decide)

theorem setQueue_starts (s : State) (q : Nat) (k : Queue) : Starts s (s.setQueue q k) := Starts.op (QueueOp.setQueue s q k)

theorem settle_starts (s : State) (q : Nat) : Starts s (s.settle q) := Starts.op (settle_op s q).1

theorem recordDrop_starts (s : State) (q n : Nat) : Starts s (s.recordDrop q n) := by
  have hdrop := countDrop_starts s q
  unfold State.recordDrop
  dsimp only
  generalize s.countDrop q = t at hdrop ⊢
  have hcleft : Starts s (t.count F.SPQ_Q_CLEFTS_COUNT q F.SPQ_CNT_SAT_CLEFTS_SAT q 0) := hdrop.count _ _ _ _ _ (by decide) (by decide)
  split
  · exact hdrop.trans (setQueue_starts t q _)
  · split
    · exact hdrop.trans (setQueue_starts t q _)
    · exact Starts.ite ((hcleft.trans (setQueue_starts _ q _)).trans (settle_starts _ q)) (hcleft.trans (setQueue_starts _ q _))

theorem squeeze_starts (s : State) (q : Nat) (i : Item) (fuel : Nat) : Starts s (s.squeeze q i fuel) := by
  induction fuel generalizing s with
  | zero =>
    unfold State.squeeze
    exact Starts.ite ((setQueue_starts s q _).trans (settle_starts _ q)) (countDrop_starts s q)
  | succ n ih =>
    unfold State.squeeze
    dsimp only
    split
    · exact (setQueue_starts s q _).trans (settle_starts _ q)
    · cases (s.queue q).overwrite with
      | none => exact countDrop_starts s q
      | some k => exact ((setQueue_starts s q k).trans (countDrop_starts _ q)).trans (ih _)

theorem offer_starts (s : State) (q : Nat) (i : Item) : Starts s (s.offer q i) := by
  unfold State.offer
  dsimp only
  exact Starts.ite (Starts.refl s) (Starts.ite (Starts.ite (recordDrop_starts s q _) ((setQueue_starts s q _).trans (settle_starts _ q))) (Starts.ite (countDrop_starts s q) (squeeze_starts s q i 64)))

theorem ctxHandover_starts (s : State) (c : Nat) : Starts s (s.ctxHandover c) := Starts.ite (((Starts.refl s).modCtx c _).setF _ _ _ (by decide)) (Starts.refl s)

theorem resetDesc_kept (s : State) (d : Nat) : (s.resetDesc d).codec.ready = s.codec.ready ∧ (s.resetDesc d).codec.cache = s.codec.cache := by
  have hcodec : ∀ (l : List Fld), (chainAll l (fun F t => t.setF F d (F.reset d)) s).codec = s.codec := fun l => chainAll_keep (fun t => t.codec) l (fun F t => t.setF F d (F.reset d)) (fun _ _ => rfl) s
  unfold State.resetDesc State.setDesc
  dsimp only
  rw [State.withCodec_codec, hcodec]
  exact ⟨rfl, rfl⟩

theorem shrinkGroup_kept (s : State) (g : Nat) : (s.shrinkGroup g).codec.ready = s.codec.ready ∧ (s.shrinkGroup g).codec.cache = s.codec.cache := by
  unfold State.shrinkGroup
  dsimp only
  split
  · split
    · exact ⟨rfl, rfl⟩
    · exact resetDesc_kept _ _
  · exact ⟨rfl, rfl⟩

theorem refreshMarks_kept (s : State) (g : Nat) : (s.refreshMarks g).codec.ready = s.codec.ready ∧ (s.refreshMarks g).codec.cache = s.codec.cache := by
  unfold State.refreshMarks
  split
  · rw [(refreshDescCount_writes s).codec]
    exact ⟨rfl, rfl⟩
  · have hmarks : (chainAll (s.group g).descs (fun d t => t.refreshMark g d) s).codec = s.codec := chainAll_keep State.codec _ (fun d t => t.refreshMark g d) (fun d t => (refreshMark_writes t g d).codec) s
    obtain ⟨hready, hcache⟩ := shrinkGroup_kept (chainAll (s.group g).descs (fun d t => t.refreshMark g d) s) g
    rw [(refreshDescCount_writes _).codec, hready, hcache, hmarks]
    exact ⟨rfl, rfl⟩

theorem refreshMarks_starts (s : State) (g : Nat) : Starts s (s.refreshMarks g) := Starts.off (refreshMarks_off s g) rfl (refreshMarks_ctxs s g) (refreshMarks_kept s g).1 (refreshMarks_kept s g).2

-- ## A picture starts, and takes its descriptor

theorem writeStream_starts (s : State) (c stamp picture : Nat) : Starts s (s.writeStream c stamp picture) := by
  unfold State.writeStream
  extract_lets x fresh serial h bytes place s1 s2
  have h1 : Starts s s1 := Starts.ite ⟨rfl, rfl, fun _ => rfl, rfl⟩ (Starts.refl s)
  exact (h1.modCtx c _).trans (offer_starts _ _ _)

theorem setCtx_starts (s : State) (c : Nat) {x : Ctx} (h : x.event = (s.ctx c).event) : Starts s (s.setCtx? c (some x)) := by
  refine ⟨rfl, rfl, fun d => ?_, rfl⟩
  by_cases hd : d = c
  · subst hd
    rw [ctx_of (ctx?_setCtx? s d _), h]
  · rw [State.ctx, State.ctx, ctx?_setCtx?_ne s _ hd]

theorem startPicture_starts (s : State) (r : Ready) : Starts s (s.startPicture r) := by
  unfold State.startPicture
  extract_lets c key s1
  have h1 : Starts s s1 := Starts.ite (writeStream_starts s c _ _) (Starts.refl s)
  exact h1.trans (setCtx_starts s1 c rfl)

theorem startPicture_pic (s : State) (r : Ready) : ((s.startPicture r).ctx r.ctx).pic.isSome = true := by
  unfold State.startPicture
  extract_lets c key s1 x w credit front level x2 p x3
  rw [ctx_of (ctx?_setCtx? s1 c _)]
  rfl

theorem takeDesc_starts (s : State) (c : Nat) : Starts s (s.takeDesc c) := by
  unfold State.takeDesc
  dsimp only
  split
  · exact Starts.refl s
  · split
    · exact Starts.refl s
    · split
      · exact Starts.refl s
      · next d _ =>
        have hdraw : Starts s s.draw := ⟨rfl, rfl, fun _ => rfl, rfl⟩
        exact ((hdraw.setF F.STK_DESC_PICTURE_PICTURE d _ (by decide)).modCtx c _).trans (refreshMarks_starts _ _)

theorem takeDesc_pic {s : State} {c : Nat} (h : (s.ctx c).pic.isSome = true) : ((s.takeDesc c).ctx c).pic.isSome = true := by
  unfold State.takeDesc
  dsimp only
  split
  · exact h
  · split
    · exact h
    · split
      · exact h
      · next p hp _ _ d _ =>
        have hctxs : ∀ (t : State) (g : Nat), (t.refreshMarks g).ctx c = t.ctx c := fun t g => by rw [State.ctx, State.ctx, State.ctx?, State.ctx?, refreshMarks_ctxs]
        rw [hctxs]
        cases hx : (s.draw.setF F.STK_DESC_PICTURE_PICTURE d p.hdr.picture).ctx? c with
        | none =>
          have hnone : s.ctx? c = none := hx
          rw [State.ctx, hnone] at h
          exact absurd h (by decide)
        | some x => rw [modCtx_own hx]; rfl

end Sys2Proof.Machine

/-! A slice starts, keys raise their alarm, and the settlement of O49 (R143 to R147, R157, R164, R170, R171, R421). -/

namespace Sys2Proof.Machine

-- ## The start of a slice

/-- Slice `r` is off the list, and its context in the cache. -/
def State.sliceOff (s : State) (r : Ready) : State := ((s.withCodec (fun w => { w with ready := w.ready.erase r })).ctxHandover r.ctx).cacheCtx r.ctx

/-- The slice's picture is in progress, with its descriptor where it finds one. -/
def State.sliceOpen (s : State) (r : Ready) : State := (if r.enc ∧ ((s.sliceOff r).ctx r.ctx).pic = none then (s.sliceOff r).startPicture r else s.sliceOff r).takeDesc r.ctx

/-- The slice begins in its picture `p`; `run`: its unit. -/
def State.sliceBegun (s : State) (r : Ready) (p : Pic) (run : Run) : State :=
  let s := if r.enc then (s.modCtx r.ctx (fun y => { y with pic := some { p with begun := p.begun ++ [r.slice], metaOf := some (p.carrier r.slice) } })).setF F.SCH_CTX_EFFORT_EFFECTIVE r.ctx run.effort else s
  if r.enc ∨ r.conceal ∨ r.redo ∨ r.closed then s else s.frontReset r.ctx

/-- The unit of slice `r` of picture `p`. -/
def State.sliceRun (s : State) (r : Ready) (p : Pic) : Run := if r.enc then s.encodeRun r p else s.decodeRun r p

theorem startSlice_none {s : State} (h : Nat) {r : Ready} (hp : ((s.sliceOpen r).ctx r.ctx).pic = none) : s.startSlice h r = s.sliceOpen r := by
  have heq : s.startSlice h r = (match ((s.sliceOpen r).ctx r.ctx).pic with
      | none => s.sliceOpen r
      | some p => ((s.sliceOpen r).sliceBegun r p ((s.sliceOpen r).sliceRun r p)).seated h r.ctx ((s.sliceOpen r).sliceRun r p) (decide (r.ctx ∈ s.codec.cache))) := rfl
  rw [heq, hp]

theorem startSlice_some {s : State} (h : Nat) {r : Ready} {p : Pic} (hp : ((s.sliceOpen r).ctx r.ctx).pic = some p) :
    s.startSlice h r = ((s.sliceOpen r).sliceBegun r p ((s.sliceOpen r).sliceRun r p)).seated h r.ctx ((s.sliceOpen r).sliceRun r p) (decide (r.ctx ∈ s.codec.cache)) := by
  have heq : s.startSlice h r = (match ((s.sliceOpen r).ctx r.ctx).pic with
      | none => s.sliceOpen r
      | some p => ((s.sliceOpen r).sliceBegun r p ((s.sliceOpen r).sliceRun r p)).seated h r.ctx ((s.sliceOpen r).sliceRun r p) (decide (r.ctx ∈ s.codec.cache))) := rfl
  rw [heq, hp]

theorem sealRun_what (s : State) (r : Run) : (s.sealRun r).what = r.what := by
  obtain ⟨b, k, hk⟩ := sealRun_eq s r
  rw [hk]

theorem sliceRun_what (s : State) (r : Ready) (p : Pic) : (s.sliceRun r p).what = r := by
  unfold State.sliceRun
  split
  · unfold State.encodeRun
    exact sealRun_what _ _
  · rfl

section
variable (s : State) (r : Ready)

theorem sliceOff_ready : (s.sliceOff r).codec.ready = s.codec.ready.erase r := (ctxHandover_starts (s.withCodec (fun w => { w with ready := w.ready.erase r })) r.ctx).ready

theorem sliceOff_cache : (s.sliceOff r).codec.cache = (r.ctx :: s.codec.cache.filter (· ≠ r.ctx)).take 96 :=
  congrArg (fun l => (r.ctx :: List.filter (· ≠ r.ctx) l).take 96) (ctxHandover_starts (s.withCodec (fun w => { w with ready := w.ready.erase r })) r.ctx).cache

theorem sliceOff_event (d : Nat) : ((s.sliceOff r).ctx d).event = (s.ctx d).event := (ctxHandover_starts (s.withCodec (fun w => { w with ready := w.ready.erase r })) r.ctx).events d

theorem sliceOff_alarm : (s.sliceOff r).f F.SEC_EVENT_KEY_EXHAUSTED 0 = s.f F.SEC_EVENT_KEY_EXHAUSTED 0 := (ctxHandover_starts (s.withCodec (fun w => { w with ready := w.ready.erase r })) r.ctx).alarm

theorem sliceOff_pic : ((s.sliceOff r).ctx r.ctx).pic = (s.ctx r.ctx).pic := by
  have hhand : ∀ t : State, ((t.ctxHandover r.ctx).ctx r.ctx).pic = (t.ctx r.ctx).pic := by
    intro t
    unfold State.ctxHandover
    split
    · exact modCtx_pic r.ctx t _
    · rfl
  exact hhand _

theorem sliceOpen_starts : Starts (s.sliceOff r) (s.sliceOpen r) := (Starts.ite (startPicture_starts _ r) (Starts.refl _)).trans (takeDesc_starts _ _)

/-- A slice whose picture is in progress, or may start, has its picture. -/
theorem sliceOpen_pic (h : (s.ctx r.ctx).pic.isSome = true ∨ r.enc = true) : ((s.sliceOpen r).ctx r.ctx).pic.isSome = true := by
  unfold State.sliceOpen
  refine takeDesc_pic ?_
  split
  · exact startPicture_pic _ r
  · next hn =>
    rw [sliceOff_pic] at hn ⊢
    rcases h with h | h
    · exact h
    · exact Option.isSome_iff_ne_none.mpr fun hnone => hn ⟨h, hnone⟩

theorem sliceBegun_starts (p : Pic) (run : Run) : Starts s (s.sliceBegun r p run) := by
  unfold State.sliceBegun
  extract_lets s1
  have h1 : Starts s s1 := Starts.ite (((Starts.refl s).modCtx r.ctx _).setF _ _ _ (by decide)) (Starts.refl s)
  exact Starts.ite h1 (h1.modCtx r.ctx _)

end

theorem seated_starts (s : State) (h c : Nat) (r : Run) (hit : Bool) : Starts s (s.seated h c r hit) := by
  obtain ⟨l, hl⟩ := seated_codec s h c r hit
  exact Starts.off (seated_off s h c r hit) rfl (by rw [hl]) (by rw [hl]) (by rw [hl])

/-- From the slice's removal on, the lists, the events and the alarm stay. -/
theorem startSlice_starts (s : State) (h : Nat) (r : Ready) : Starts (s.sliceOff r) (s.startSlice h r) := by
  cases hp : ((s.sliceOpen r).ctx r.ctx).pic with
  | none => rw [startSlice_none h hp]; exact sliceOpen_starts s r
  | some p =>
    rw [startSlice_some h hp]
    exact ((sliceOpen_starts s r).trans (sliceBegun_starts _ r p _)).trans (seated_starts _ _ _ _ _)

-- ## The chosen slice (R145)

theorem choice_mem {s : State} {r : Ready} (h : s.choice = some r) : s.eligible r = true := by
  have hfold : ∀ (l : List Ready) (b : Option Ready), l.foldl (fun best r => match best with
      | none => some r
      | some b => if r.before b then some r else some b) b = some r → b = some r ∨ r ∈ l := by
    intro l
    induction l with
    | nil => exact fun b hb => .inl hb
    | cons a l ih =>
      intro b hb
      rcases ih _ hb with hb | hb
      · cases b with
        | none => exact .inr (List.mem_cons.mpr (.inl (Option.some.inj hb).symm))
        | some b =>
          dsimp only at hb
          split at hb
          · exact .inr (List.mem_cons.mpr (.inl (Option.some.inj hb).symm))
          · exact .inl hb
      · exact .inr (List.mem_cons_of_mem _ hb)
  rcases hfold _ _ h with h | h
  · exact absurd h (by simp)
  · exact (List.mem_filter.mp h).2

/-- The picture of an eligible slice is in progress, or it is an encode slice. -/
theorem eligible_pic {s : State} {r : Ready} (h : s.eligible r = true) : (s.ctx r.ctx).pic.isSome = true ∨ r.enc = true := by
  have hready : s.picReady r = true := by
    unfold State.eligible at h
    simp only [Bool.and_eq_true] at h
    obtain ⟨⟨-, hready⟩, -⟩ := h
    exact hready
  unfold State.picReady at hready
  cases hp : (s.ctx r.ctx).pic with
  | some p => exact .inl rfl
  | none =>
    rw [hp] at hready
    exact .inr (Bool.and_eq_true_iff.mp hready).1

-- ## Keys raise their alarm (R421)

/-- The contexts that wait for a key. -/
def State.keyless (s : State) : List Nat := ((s.codec.ready.filter (fun r => r.enc && (s.ctx? r.ctx).isSome && !(s.ctx r.ctx).ending && !s.keyServes r.ctx r.picture)).map (·.ctx)).dedup

/-- The alarm of one context. -/
def State.raiseKey (s : State) (c : Nat) : State := (s.setF F.SEC_EVENT_KEY_EXHAUSTED 0 1).raiseCtx c

theorem keyAlarm_eq (s : State) : s.keyAlarm = chainAll s.keyless (fun c t => t.raiseKey c) s := rfl

theorem keyAlarm_kept (s : State) : s.keyAlarm.codec.ready = s.codec.ready ∧ s.keyAlarm.codec.cache = s.codec.cache := by
  rw [keyAlarm_eq]
  exact ⟨chainAll_keep (fun t => t.codec.ready) _ (fun c t => t.raiseKey c) (fun c t => (modCtx_kept (t.setF F.SEC_EVENT_KEY_EXHAUSTED 0 1) c _).1) s, chainAll_keep (fun t => t.codec.cache) _ (fun c t => t.raiseKey c) (fun c t => (modCtx_kept (t.setF F.SEC_EVENT_KEY_EXHAUSTED 0 1) c _).2) s⟩

theorem keyAlarm_none {s : State} (h : ∀ x ∈ s.codec.ready, x.enc = true → s.keyServes x.ctx x.picture = true) : s.keyAlarm = s := by
  have hnil : s.keyless = [] := by
    unfold State.keyless
    rw [List.filter_eq_nil_iff.mpr fun x hx => ?_]
    · rfl
    · by_cases henc : x.enc = true
      · simp [h x hx henc]
      · simp [henc]
  rw [keyAlarm_eq, hnil]
  rfl

/-- A slice that waits for a key makes its context one of them. -/
theorem mem_keyless {s : State} {r : Ready} {x : Ctx} (hr : r ∈ s.codec.ready) (henc : r.enc = true) (hx : s.ctx? r.ctx = some x) (hend : x.ending = false) (hk : s.keyServes r.ctx r.picture = false) : r.ctx ∈ s.keyless := by
  refine List.mem_dedup.mpr (List.mem_map.mpr ⟨r, List.mem_filter.mpr ⟨hr, ?_⟩, rfl⟩)
  rw [ctx_of hx, henc, hx, hend, hk]
  rfl

theorem raiseKey_alarm (s : State) (c : Nat) : (s.raiseKey c).f F.SEC_EVENT_KEY_EXHAUSTED 0 = 1 := by
  have hregs : (s.raiseKey c).regs = (s.setF F.SEC_EVENT_KEY_EXHAUSTED 0 1).regs := (modCtx_regs _ c _).1
  rw [State.f, hregs]
  exact State.f_setF_same _ _ _ _

theorem raiseKeys_alarm {l : List Nat} (hl : l ≠ []) (s : State) : (chainAll l (fun c t => t.raiseKey c) s).f F.SEC_EVENT_KEY_EXHAUSTED 0 = 1 := by
  induction l generalizing s with
  | nil => exact absurd rfl hl
  | cons a l ih =>
    cases l with
    | nil => exact raiseKey_alarm s a
    | cons b l => exact ih (by simp) (s.raiseKey a)

/-- The context of a slice without a key has its event. -/
theorem keyAlarm_event {s : State} {c : Nat} {x : Ctx} (hc : c ∈ s.keyless) (hx : s.ctx? c = some x) : (s.keyAlarm.ctx c).event = true := by
  obtain ⟨u, hu, hlast⟩ := chainAll_focus (fun t => t.ctx? c) (g := fun b t => t.raiseKey b) hc (List.nodup_dedup _) (fun b t hb => modCtx_other (t.setF F.SEC_EVENT_KEY_EXHAUSTED 0 1) _ (Ne.symm hb)) s
  have hux : (u.setF F.SEC_EVENT_KEY_EXHAUSTED 0 1).ctx? c = some x := hu.trans hx
  rw [keyAlarm_eq, State.ctx, hlast]
  exact congrArg Ctx.event (modCtx_own hux (fun x => { x with event := true }))

-- ## SLICE_DISPATCH

theorem exec_sliceDispatch {h : Nat} (hh : h < 24) (s : State) : exec (.sliceDispatch h) s = .next (s.dispatch h) := onInstance_of (decide_eq_true hh) _

section
variable {s : State} {h : Nat}

theorem dispatch_off (hs : s.hwState h ≠ hwIdle ∨ s.f F.SCH_CTRL_DISPATCH_EN 0 ≠ 1 ∨ s.fatal = true) : s.dispatch h = s :=
  if_pos (hs.imp id fun hs => hs.imp (fun hen => decide_eq_false hen) id)

theorem dispatch_open (hs : s.hwState h = hwIdle) (hen : s.f F.SCH_CTRL_DISPATCH_EN 0 = 1) (hf : s.fatal = false) : s.dispatch h = (match s.keyAlarm.choice with
    | some r => s.keyAlarm.startSlice h r
    | none => s.keyAlarm) := by
  have hfb : s.fb F.SCH_CTRL_DISPATCH_EN 0 = true := fb_true hen
  refine if_neg ?_
  rw [hs, hfb, hf]
  simp

/-- No slice goes and no key raises its alarm. -/
theorem dispatch_none (hk : ∀ x ∈ s.codec.ready, x.enc = true → s.keyServes x.ctx x.picture = true) (hc : s.choice = none) : s.dispatch h = s := by
  unfold State.dispatch
  split
  · rfl
  · dsimp only
    rw [keyAlarm_none hk, hc]

/-- The chosen slice starts. -/
theorem dispatch_starts {r : Ready} (hs : s.hwState h = hwIdle) (hen : s.f F.SCH_CTRL_DISPATCH_EN 0 = 1) (hf : s.fatal = false) (hr : s.keyAlarm.choice = some r) :
    ((s.dispatch h).hewer h).run.map (·.what) = some r ∧ ((s.dispatch h).hewer h).loops = List.replicate 8 0 ∧ ((s.dispatch h).hewer h).tokens = List.replicate 8 0 ∧ (s.dispatch h).hwState h = hwRun ∧
      (s.dispatch h).f F.HWR_STATUS_CTX h = r.ctx % 4096 ∧ (s.dispatch h).codec.ready = s.codec.ready.erase r ∧ (s.dispatch h).codec.cache = (r.ctx :: s.codec.cache.filter (· ≠ r.ctx)).take 96 ∧
      ((s.dispatch h).hewer h).ctxHit = decide (r.ctx ∈ s.codec.cache) := by
  obtain ⟨hready, hcache⟩ := keyAlarm_kept s
  have hrun : s.dispatch h = s.keyAlarm.startSlice h r := by rw [dispatch_open hs hen hf, hr]
  have hstarts := startSlice_starts s.keyAlarm h r
  obtain ⟨p, hp⟩ := Option.isSome_iff_exists.mp (sliceOpen_pic s.keyAlarm r (eligible_pic (choice_mem hr)))
  refine ⟨?_, ?_, ?_, ?_, ?_, ?_, ?_, ?_⟩
  · rw [hrun, startSlice_some h hp, seated_hewer]
    exact congrArg some (sliceRun_what _ r p)
  · rw [hrun, startSlice_some h hp, seated_hewer]
  · rw [hrun, startSlice_some h hp, seated_hewer]
  · rw [hrun, startSlice_some h hp, seated_state]
  · rw [hrun, startSlice_some h hp, seated_ctxReg]
  · rw [hrun, hstarts.ready, sliceOff_ready, hready]
  · rw [hrun, hstarts.cache, sliceOff_cache, hcache]
  · rw [hrun, startSlice_some h hp, seated_hewer, hcache]

/-- A slice that finds no key. -/
theorem dispatch_alarms {r : Ready} {x : Ctx} (hs : s.hwState h = hwIdle) (hen : s.f F.SCH_CTRL_DISPATCH_EN 0 = 1) (hf : s.fatal = false) (hr : r ∈ s.codec.ready) (henc : r.enc = true) (hx : s.ctx? r.ctx = some x) (hend : x.ending = false)
    (hk : s.keyServes r.ctx r.picture = false) : (s.dispatch h).f F.SEC_EVENT_KEY_EXHAUSTED 0 = 1 ∧ ((s.dispatch h).ctx r.ctx).event = true := by
  have hmem := mem_keyless hr henc hx hend hk
  have halarm : s.keyAlarm.f F.SEC_EVENT_KEY_EXHAUSTED 0 = 1 := raiseKeys_alarm (List.ne_nil_of_mem hmem) s
  have hevent := keyAlarm_event hmem hx
  rw [dispatch_open hs hen hf]
  split
  · next q _ =>
    have hstarts := startSlice_starts s.keyAlarm h q
    exact ⟨hstarts.alarm.trans ((sliceOff_alarm _ q).trans halarm), (hstarts.events r.ctx).trans ((sliceOff_event _ q r.ctx).trans hevent)⟩
  · exact ⟨halarm, hevent⟩

end

-- ## BEDROCK_UNIT_DISPATCH

/-- The unit of an encode context's load takes the hewer. -/
theorem startBed_load_runs (s : State) (h c : Nat) (l : BedLoad) :
    ((s.startBed h c (.load l)).hewer h).run.any (fun y => y.bed && decide (y.what.ctx = c) && y.what.enc && decide (y.what.picture = l.readyAt.headD 0) && y.hdr.bed.any (fun d => decide (d.slot = l.slot) && decide (d.gen = l.gen))) = true ∧
      (s.startBed h c (.load l)).hwState h = hwRun ∧ (s.startBed h c (.load l)).f F.HWR_STATUS_CTX h = c % 4096 ∧ ((s.startBed h c (.load l)).ctx c).loads.all (fun y => decide (y.slot ≠ l.slot) || y.running) = true := by
  obtain ⟨t, r, heq, hloads, hbed, hctx, henc, hpic, hhdr⟩ := startBed_load s h c l
  rw [heq, seated_hewer, seated_state, seated_ctxReg, seated_ctx, hloads]
  refine ⟨?_, rfl, rfl, loadSends_loads l⟩
  rw [Option.any_some, hbed, hctx, henc, hpic, hhdr]
  simp [State.ownBedHdr]

/-- The unit at the head of a decode queue takes the hewer. -/
theorem startBed_front_runs (s : State) (h c : Nat) (hd : SliceHdr) (d : BedHdr) (k : Nat) :
    ((s.startBed h c (.front hd d k)).hewer h).run.map (fun y => (y.bed, y.what.ctx, y.what.enc)) = some (true, c, false) ∧ (s.startBed h c (.front hd d k)).hwState h = hwRun ∧ (s.startBed h c (.front hd d k)).f F.HWR_STATUS_CTX h = c % 4096 := by
  obtain ⟨t, r, heq, hbed, hctx, henc⟩ := startBed_front s h c hd d k
  rw [heq, seated_hewer, seated_state, seated_ctxReg]
  refine ⟨?_, rfl, rfl⟩
  rw [Option.map_some, hbed, hctx, henc]

-- ## The statement

/-- Settles O49: a dispatch leaves the lists, the cache and the events of other slices alone, the results of a unit leave the hewers alone, and a picture whose reception ended stays so while its queue is looked at. -/
theorem sliceEvents : Obligations.SliceEvents := by
  unfold Obligations.SliceEvents
  refine ⟨fun s h hh hs => (exec_sliceDispatch hh s).trans (by rw [dispatch_off hs]), fun s h r hh hs hen hf hr => ⟨_, exec_sliceDispatch hh s, dispatch_starts hs hen hf hr⟩, fun s h hh hk hc => (exec_sliceDispatch hh s).trans (by rw [dispatch_none hk hc]),
    fun s h r x hh hs hen hf hr henc hx hend hk => ⟨_, exec_sliceDispatch hh s, dispatch_alarms hs hen hf hr henc hx hend hk⟩, fun s h hh hc => ⟨_, exec_sliceComplete hh s, ?_, ?_⟩,
    fun s h hh hc hs => ⟨_, exec_sliceComplete hh s, sliceComplete_runs hc hs⟩, fun s h hh hc hs hw => ⟨_, exec_sliceComplete hh s, sliceComplete_drains hc hs hw⟩, fun s h u hh hc hs hw hu => ⟨_, exec_sliceComplete hh s, sliceComplete_loads hc hs hw hu⟩,
    fun s h hh hs => (exec_bedrockUnitDispatch hh s).trans (by rw [bedDispatch_off hs]), fun s h hh hn => (exec_bedrockUnitDispatch hh s).trans (by rw [bedDispatch_none hn]),
    fun s h k c x l hh hk hne hs hother hen hf hp hready hfind hx henc hl => ⟨_, exec_bedrockUnitDispatch hh s, ?_⟩, fun s h k c x hh hk hne hs hother hen hf hp hready hfind hx henc => ⟨_, exec_bedrockUnitDispatch hh s, ?_⟩,
    fun s c hc henc => (exec_receptionTimeout hc s).trans (by rw [receptionTimeout_encode henc]), fun s c x p hc hx henc hp he => ⟨_, exec_receptionTimeout hc s, receptionTimeout_ends hx henc hp he⟩,
    fun s h r hh hr he hc => ⟨_, exec_stallLimitExpire hh s, ?_⟩, fun s h hh hr => (exec_stallLimitExpire hh s).trans (by rw [stallExpire_none hr])⟩
  · rw [sliceComplete_open hc]
    exact (flush_steps s h).f _ h (by decide)
  · rw [sliceComplete_open hc]
    exact (flush_steps s h).runs h
  · have hload := bedUnit_load hx henc (List.find?_some (p := fun d => (s.bedUnit d).isSome) hfind) hl
    rw [bedDispatch_open hk hne hs hother hen hf hp hready, findSome?_pair hfind hload]
    exact startBed_load_runs s h c l
  · obtain ⟨hd, d, n, hfront⟩ := bedUnit_front hx henc (List.find?_some (p := fun d => (s.bedUnit d).isSome) hfind)
    rw [bedDispatch_open hk hne hs hother hen hf hp hready, findSome?_pair hfind hfront]
    exact startBed_front_runs s h c hd d n
  · rw [stallExpire_truncates hr he hc]
    exact Sets.refl _

end Sys2Proof.Machine
